-- ==== Sys2Proof/Word.lean ====
section
/-! DEFINITION. The word types of the GN48 host space and their plainest arithmetic (R6, R7): 32-bit register words,
16-bit word addresses, bytes, and the two's-complement reading of a value of n bits. -/

namespace Sys2Proof

/-- A 32-bit register word (R7). -/
abbrev Word := BitVec 32

/-- A word address of the host space (R448). -/
abbrev Addr := BitVec 16

/-- A byte of a frame, a record or the flash. -/
abbrev Byte := BitVec 8

/-- Round a quotient half to even, for a positive divisor (the rounding every conversion rule of the manual names). -/
def roundHalfEven (n : Int) (d : Nat) : Int :=
  let q := n / (d : Int)
  let r := n % (d : Int)
  if 2 * r < d then q else if 2 * r > d then q + 1 else if q % 2 = 0 then q else q + 1

/-- Clamp an integer to an interval. -/
def clampInt (lo hi x : Int) : Int := if x < lo then lo else if hi < x then hi else x

/-- Clamp a natural number to an interval. -/
def clampNat (lo hi x : Nat) : Nat := if x < lo then lo else if hi < x then hi else x

/-- The value an n-bit field holds read as two's complement (R7). -/
def signedOf (n : Nat) (v : Nat) : Int := if 2 ^ (n - 1) ≤ v then (v : Int) - 2 ^ n else v

/-- The n-bit two's-complement field that holds an integer, modulo 2^n (R7). -/
def fieldOf (n : Nat) (x : Int) : Nat := (x % (2 ^ n : Nat)).toNat

end Sys2Proof
end

