-- ==== Sys2Proof/Syntax.lean ====
section
/-! DEFINITION. The commands of the GN48: one constructor of `Instr` for each row of spec/opcode_table.json, in the
table's order, with the operands the row's rule names. What reaches the part from outside and the manual does not
compute (modulator levels, converter codes, comparator observations, edges, timer instants) is an operand. -/

namespace Sys2Proof

/-- A global channel number (R11). -/
abbrev Ch := Fin 64
/-- A die index (R15). -/
abbrev Die := Fin 8
/-- A local channel of a die. -/
abbrev Loc := Fin 8
/-- A global valve number (R11). -/
abbrev Valve := Fin 32
/-- A pulse output (R207). -/
abbrev Out := Fin 4

/-- The levels of one clock: the channel current and voltage modulators by global channel, and the bench pairs by die (R99). -/
structure ClockIn where
  ci : List Int
  cv : List Int
  bi : List Int
  bv : List Int
  deriving DecidableEq, Repr

/-- The clock of a broadcast's stamp, and whether a copy of its cell arrives undamaged (R19, R21). -/
structure StampClk where
  clk : Nat
  intact : Bool
  deriving DecidableEq, Repr

/-- The two words of LINE_* whose writes have a row of their own (R62, R63). -/
inductive LineReg where | cfg | plim
  deriving DecidableEq, Repr
/-- The constants of a channel (R158). -/
inductive KReg where | kqH | kqL | kv | ke | kShift
  deriving DecidableEq, Repr
/-- The baselines of a channel (R193). -/
inductive BaseReg where | grefIH | grefIL | grefV | oref
  deriving DecidableEq, Repr
/-- The setpoint words of a channel (R87). -/
inductive SetReg where | iset | vset | pset
  deriving DecidableEq, Repr
/-- The auxiliary rails (R300). -/
inductive Rail where | a | b | c
  deriving DecidableEq, Repr
/-- What ends a bench visit early (R124, R125). -/
inductive AbortCause where | refSwitch | leftRun | force | acir | batonExpired
  deriving DecidableEq, Repr
/-- The batons of the valve scheduler that can expire (R279). -/
inductive ValveBaton where | bank (d : Die) | vbst (v : Valve)
  deriving DecidableEq, Repr
/-- Why the lead die starts a recovery (R437, RECOV_STAT.LAST_CAUSE). -/
inductive RecoveryCause where | cellRepetition | silence | stallReport
  deriving DecidableEq, Repr
/-- What a stamped broadcast does at its clock (R21, R22). -/
inductive BcastKind where | frame | angle | snap | sched
  deriving DecidableEq, Repr
/-- What a LEASE cell carries (R257, R282). -/
inductive LeaseMsg where
  | demand (g : Ch)          -- a die's report of a channel's demand or release
  | decision (d : Die)       -- the lead die's decision on its way to a die
  | reseat (g : Ch) (on : Bool)   -- a step engine's re-seat valve request
  deriving DecidableEq, Repr
/-- What the glean comparators of a die see at an evaluation (R320): VKEEP and VCOIN in mV, the cells at ISN_nn in mV. -/
structure GleanObs where
  vkeep : Nat
  vcoin : Nat
  cells : List Nat
  deriving DecidableEq, Repr
/-- The modulators' seeds or self-calibration results: offset in 2^-24 count per clock and gain as 1 + gain·2^-36 (R118, R122). -/
structure ModCal where
  ofs : Int
  gain : Int
  deriving DecidableEq, Repr
/-- Results for one modulator pair: range H, range L and voltage (R118, R122). -/
structure PairCal where
  iH : ModCal
  iL : ModCal
  v : ModCal
  deriving DecidableEq, Repr
/-- The three raw 39-bit codewords an OTP word reads at the three margins (R342). -/
structure OtpRead where
  norm : Nat
  low : Nat
  high : Nat
  deriving DecidableEq, Repr

/-- The commands. A channel, die, valve or output operand is bounded by its type; the rest is checked in WellFormed. -/
inductive Instr where
  -- host frames and host words
  | hostRd (addr : Addr) (clocks : Nat)
  | hostWr (addr : Addr) (data : List (Word × Byte)) (clocks : Nat)
  | hostRdb (addr : Addr) (clocks : Nat) (late : Option Nat)
  | hostNop (bytes : Nat)
  | hostUnknownCommand (cmd : Byte)
  | registerWrite (addr : Addr) (data : Word)
  | hostSoftReset (key : Byte)
  | testReq (key : Byte)
  | testEnd (key : Byte)
  | bulkSelWrite (data : Word)
  -- snapshots
  | snapTake
  | snapArm
  | snapDisarm
  | snapshotScheduled
  -- line angle
  | lsyncEdge (tick : Nat) (run : Nat) (rising : Bool)
  | lineTimeout
  | lineCfgWrite (r : LineReg) (data : Word)
  | clrRej (data : Word)
  -- counting
  | accumulateClock (inp : ClockIn)
  | frameBoundary
  | accClear (g : Ch) (data : Word)
  | tcrUpdate
  | tcrCfgWrite (g : Ch) (data : Word)
  | constantWrite (g : Ch) (r : KReg) (data : Word)
  | offsetWrite (g : Ch) (volt : Bool) (data : Word)
  | baselineWrite (g : Ch) (r : BaseReg) (data : Word)
  -- power stage and sense
  | switchingPeriod (g : Ch) (bootLow : Bool)
  | fastSample (vf : List Nat)
  | complianceClamp (g : Ch) (upper : Bool)
  | ocpTrip (g : Ch)
  | ovpTrip (g : Ch)
  | rvpTrip (g : Ch)
  | hstop (g : Ch)
  | vdrvUv (d : Die)
  | vdrvRecover (d : Die)
  | busOv (d : Die)
  | busOvClear (d : Die)
  | pwmWrite (g : Ch) (dt : Bool) (data : Word)
  | setpointWrite (g : Ch) (r : SetReg) (data : Word)
  | overrideChange (g : Ch) (data : Word)
  | rangeSelWrite (g : Ch) (low : Bool)
  | uprange (g : Ch)
  | overloadDetect (g : Ch) (volt : Bool)
  | sarConversion (d : Die) (code : Nat)
  | vrefxFailSwitch (d : Die)
  | vrefxReturnSwitch (d : Die)
  | sarFail (d : Die)
  -- bench converter and calibration
  | seedingEnd (d : Die) (seeds : List PairCal)
  | benchVisitStart (d : Die)
  | benchSelfcalEnd (d : Die) (res : PairCal)
  | benchConnect (d : Die)
  | benchTakeover (d : Die)
  | benchHandback (d : Die) (res : PairCal)
  | benchAbort (d : Die) (cause : AbortCause)
  | benchForce (d : Die) (c : Loc)
  | benchQueue (d : Die) (c : Loc)
  | calApply (g : Ch) (data : Word)
  | calFold (g : Ch) (data : Word)
  -- pulse outputs, tallies, reference runs
  | plsCfgWrite (n : Out) (k : Bool) (data : Word)
  | plsClr (n : Out) (data : Word)
  | pulseEmit (n : Out)
  | pulseEnd (n : Out)
  | ratePulseDue (n : Out)
  | tallyEdge (inB level : Bool)
  | tallyClr (data : Word)
  | runOpen (data : Word)
  | runClose (data : Word)
  | runAbort (data : Word)
  -- ACIR
  | acirStart (g : Ch) (data : Word)
  | acirAbortCmd (g : Ch)
  | acirLeadinStart (g : Ch)
  | acirWindowOpen (g : Ch)
  | acirWindowClose (g : Ch)
  | acirEnvelopeZero (g : Ch)
  | acirWindowAbort (g : Ch) (code : Nat)
  | acirClr (g : Ch) (data : Word)
  -- step engine
  | stepStart (g : Ch)
  | reseatOffExpiry (g : Ch)
  | reseatSettleExpiry (g : Ch)
  | pulseLevelChange (g : Ch)
  | pulseCapture (g : Ch) (k : Fin 5)
  | ocvSample (g : Ch)
  | seqStart (g : Ch)
  | seqHalt (g : Ch)
  | seqRelease (g : Ch)
  | seqSkip (g : Ch)
  | seqAbort (g : Ch)
  | traceRdWrite (d : Die) (data : Word)
  -- bus budget
  | freezePoint (slot : Fin 16)
  | leaseDecision (d : Die)
  | fitSet
  | busMonClr (data : Word)
  -- valves
  | valveReqOn (v : Valve) (now : Bool)
  | valveReqOff (v : Valve) (now : Bool)
  | valveEvent (v : Valve) (on : Bool)
  | pullInStart (v : Valve)
  | valveSlipLimit (v : Valve)
  | pullEnd (d : Die)
  | dropToHold (v : Valve)
  | releaseToOff (v : Valve)
  | chopPeriod (v : Valve) (imeas : Nat)
  | valveOpen (v : Valve)
  | valveShort (v : Valve)
  | valveSlow (v : Valve)
  | clampOt (d : Die)
  | storeRelease
  | boostOv
  | valveBatonExpiry (b : ValveBaton)
  -- supplies and hand-over
  | powerFailTrip (own : BitVec 8)
  | pfTripNonRun
  | localPfTrip (d : Die)
  | handoverComplete
  | vbusGood
  | vbusNotGood
  | thresholdWrite (ho : Bool) (data : Word)
  | qualifyPass
  | lockWaitTimeout
  | holdStoreLow
  | holdMaxExpiry
  | vsysCollapse
  | auxSeqOn
  | auxSeqOff
  | auxOnWrite (data : Word)
  | auxSeqDelayExpiry
  | auxUv (r : Rail)
  | keeperPresent
  | chargerStateChange (ikeep : Int)
  | chargerTimeout
  | keeperRemoved
  | supplement (on : Bool)
  | shipEnter (data : Word)
  | shipWakeN (lowMs : Nat)
  | shipVbusWake
  -- glean domain
  | gleanSourceEvaluation (d : Die) (obs : GleanObs)
  | gleanForcedEvaluation (d : Die) (obs : GleanObs)
  | pumpTransfer (d : Die)
  | keepGoodFall (d : Die)
  | keepGoodRise (d : Die)
  | rcTrim (err : Int)
  | retentionCommit (d : Die)
  | gleanBooking (d : Die)
  -- OTP
  | otpProgram (d : Die) (addr : BitVec 9) (data : Word) (reads : List OtpRead)
  | otpReinforce (d : Die) (addr : BitVec 9) (reads : List OtpRead)
  | otpRead (d : Die) (addr : BitVec 9)
  | otpLock (d : Die) (region : BitVec 2) (force : Bool) (reads : List OtpRead)
  | otpReload
  | otpPumpExpiry
  | otpCommandDone
  -- image, NVM port, ring, pins
  | imageLoad
  | sectionFetch (d : Die)
  | ptRead (len : BitVec 9) (key : Byte)
  | ptFastRead (len : BitVec 9) (key : Byte)
  | ptPageProgram (len : BitVec 9) (key : Byte)
  | ptSectorErase (key : Byte)
  | ptReadStatus (key : Byte)
  | ptReadId (key : Byte)
  | ptReset (second : Bool) (key : Byte)
  | flashOpComplete (sr : Byte)
  | nvmTimeout (wel : Bool)
  | nvmBatonExpiry
  | ckptTake (data : Word)
  | checkpointBoundary
  | checkpointDone
  | spareRestore
  | pinReg (addr : Addr) (key : Byte)
  | unpinReg (addr : Addr) (key : Byte)
  | pinChset (addr : Addr) (key : Byte)
  | pinCommit (key : Byte)
  | pinDiscard (key : Byte)
  -- resets and resume
  | coldPowerOn
  | warmStart
  | resetNLow
  | resetNRise
  | mainDomainStart (tmode : Bool)
  | loadEnd
  | releaseAll (data : Word)
  -- culm cells and link
  | cellFrame (d : Die) (frame : Nat) (clk : StampClk)
  | cellAngle (d : Die) (frame : Nat) (clk : StampClk)
  | cellSnap (d : Die) (frame : Nat) (intact : Bool)
  | cellSched (d : Die) (frame : Nat) (clk : StampClk)
  | broadcastExecute (k : BcastKind)
  | cellLease (m : LeaseMsg) (late : Bool)
  | cellWrite (d : Die)
  | cellRead (d : Die) (addr : Addr)
  | cellResp (d : Die)
  | cellShadow (addr : Addr)
  | cellGroup (d : Die)
  | cellLedger (d : Die)
  | cellCkpt (d : Die)
  | cellAck (d : Die) (seq : BitVec 3)
  | cellNak (d : Die) (seq : BitVec 3) (kind : BitVec 4)
  | cellTrain (d : Die) (index : BitVec 3)
  | cellIdle (d : Die)
  | portTrainingDone (d : Die)
  | portSilent (d : Die) (upstream : Bool)
  -- watchdogs and recovery
  | dieWatchdogStall (d : Die)
  | pkgWatchdogExpiry
  | dieRecoveryStart (d : Die) (cause : RecoveryCause)
  | dieRecoveryDone (d : Die)
  | recoveryTimeout (d : Die)
  | recoveryStable (d : Die)
  | leadHoldExpiry (d : Die)
  -- ledger and queue controls, late rows of the table
  | ledgerReread (key : Byte)
  | ledgerFlush (key : Byte)
  | ledgerClrOvf (key : Byte)
  | clrPeak (data : Word)
  | pfReadyAgain
  | vbusBelowRise
  | clampOtClear (d : Die)
  | benchBatonExpiry (d : Die)
  deriving DecidableEq, Repr

end Sys2Proof
end

