-- ==== Sys2Proof/WellFormed.lean ====
section
/-! DEFINITION. Which terms of Instr are commands: what the operands' types do not bound. Levels are −2 to +2 (R99), codes
have 12 bits (R113), a pair of seeds stands for each of a die's nine modulator pairs (R118), codewords have 39 bits (R338),
cells travel between the lead die and another die (R15), and a stamp names a clock of a frame of 5,120 (R5). -/

namespace Sys2Proof

/-- A level of a five-level modulator (R99). -/
def levelWf (x : Int) : Bool := decide (-2 ≤ x ∧ x ≤ 2)
/-- The levels of one clock: 64 channels, 8 bench pairs (R99). -/
def ClockIn.wf (i : ClockIn) : Bool :=
  i.ci.length == 64 && i.cv.length == 64 && i.bi.length == 8 && i.bv.length == 8 &&
    (i.ci ++ i.cv ++ i.bi ++ i.bv).all levelWf
/-- A number of 12-bit codes (R113). -/
def codesWf (n : Nat) (l : List Nat) : Bool := l.length == n && l.all fun c => decide (c < 4096)
/-- Three codewords of 39 bits (R338). -/
def OtpRead.wf (r : OtpRead) : Bool := decide (r.norm < 2 ^ 39 ∧ r.low < 2 ^ 39 ∧ r.high < 2 ^ 39)
/-- A die other than the lead die. -/
def farDie (d : Die) : Bool := d.val != 0

/-- The command is well-formed. -/
def Instr.wf : Instr → Bool
  | .hostRd _ _ => true
  | .hostWr _ data clocks => data.length == (clocks - 24) / 32 || data.length == (clocks - 24) / 40
  | .hostRdb _ _ _ => true
  | .hostNop _ => true
  | .hostUnknownCommand cmd => cmd != 0x3A#8 && cmd != 0x5C#8 && cmd != 0x3B#8 && cmd != 0#8
  | .registerWrite _ _ => true
  | .hostSoftReset _ => true
  | .testReq _ => true
  | .testEnd _ => true
  | .bulkSelWrite _ => true
  | .snapTake => true
  | .snapArm => true
  | .snapDisarm => true
  | .snapshotScheduled => true
  | .lsyncEdge _ _ _ => true
  | .lineTimeout => true
  | .lineCfgWrite _ _ => true
  | .clrRej _ => true
  | .accumulateClock inp => inp.wf
  | .frameBoundary => true
  | .accClear _ _ => true
  | .tcrUpdate => true
  | .tcrCfgWrite _ _ => true
  | .constantWrite _ _ _ => true
  | .offsetWrite _ _ _ => true
  | .baselineWrite _ _ _ => true
  | .switchingPeriod _ _ => true
  | .fastSample vf => codesWf 64 vf
  | .complianceClamp _ _ => true
  | .ocpTrip _ => true
  | .ovpTrip _ => true
  | .rvpTrip _ => true
  | .hstop _ => true
  | .vdrvUv _ => true
  | .vdrvRecover _ => true
  | .busOv _ => true
  | .busOvClear _ => true
  | .pwmWrite _ _ _ => true
  | .setpointWrite _ _ _ => true
  | .overrideChange _ _ => true
  | .rangeSelWrite _ _ => true
  | .uprange _ => true
  | .overloadDetect _ _ => true
  | .sarConversion _ code => decide (code < 4096)
  | .vrefxFailSwitch _ => true
  | .vrefxReturnSwitch _ => true
  | .sarFail _ => true
  | .seedingEnd _ seeds => seeds.length == 9
  | .benchVisitStart _ => true
  | .benchSelfcalEnd _ _ => true
  | .benchConnect _ => true
  | .benchTakeover _ => true
  | .benchHandback _ _ => true
  | .benchAbort _ _ => true
  | .benchForce _ _ => true
  | .benchQueue _ _ => true
  | .calApply _ _ => true
  | .calFold _ _ => true
  | .plsCfgWrite _ _ _ => true
  | .plsClr _ _ => true
  | .pulseEmit _ => true
  | .pulseEnd _ => true
  | .ratePulseDue _ => true
  | .tallyEdge _ _ => true
  | .tallyClr _ => true
  | .runOpen _ => true
  | .runClose _ => true
  | .runAbort _ => true
  | .acirStart _ _ => true
  | .acirAbortCmd _ => true
  | .acirLeadinStart _ => true
  | .acirWindowOpen _ => true
  | .acirWindowClose _ => true
  | .acirEnvelopeZero _ => true
  | .acirWindowAbort _ code => decide (1 ≤ code ∧ code ≤ 5)
  | .acirClr _ _ => true
  | .stepStart _ => true
  | .reseatOffExpiry _ => true
  | .reseatSettleExpiry _ => true
  | .pulseLevelChange _ => true
  | .pulseCapture _ _ => true
  | .ocvSample _ => true
  | .seqStart _ => true
  | .seqHalt _ => true
  | .seqRelease _ => true
  | .seqSkip _ => true
  | .seqAbort _ => true
  | .traceRdWrite _ _ => true
  | .freezePoint _ => true
  | .leaseDecision _ => true
  | .fitSet => true
  | .busMonClr _ => true
  | .valveReqOn _ _ => true
  | .valveReqOff _ _ => true
  | .valveEvent _ _ => true
  | .pullInStart _ => true
  | .valveSlipLimit _ => true
  | .pullEnd _ => true
  | .dropToHold _ => true
  | .releaseToOff _ => true
  | .chopPeriod _ _ => true
  | .valveOpen _ => true
  | .valveShort _ => true
  | .valveSlow _ => true
  | .clampOt _ => true
  | .storeRelease => true
  | .boostOv => true
  | .valveBatonExpiry _ => true
  | .powerFailTrip _ => true
  | .pfTripNonRun => true
  | .localPfTrip _ => true
  | .handoverComplete => true
  | .vbusGood => true
  | .vbusNotGood => true
  | .thresholdWrite _ _ => true
  | .qualifyPass => true
  | .lockWaitTimeout => true
  | .holdStoreLow => true
  | .holdMaxExpiry => true
  | .vsysCollapse => true
  | .auxSeqOn => true
  | .auxSeqOff => true
  | .auxOnWrite _ => true
  | .auxSeqDelayExpiry => true
  | .auxUv _ => true
  | .keeperPresent => true
  | .chargerStateChange _ => true
  | .chargerTimeout => true
  | .keeperRemoved => true
  | .supplement _ => true
  | .shipEnter _ => true
  | .shipWakeN _ => true
  | .shipVbusWake => true
  | .gleanSourceEvaluation _ obs => obs.cells.length == 8
  | .gleanForcedEvaluation _ obs => obs.cells.length == 8
  | .pumpTransfer _ => true
  | .keepGoodFall _ => true
  | .keepGoodRise _ => true
  | .rcTrim _ => true
  | .retentionCommit _ => true
  | .gleanBooking _ => true
  | .otpProgram _ _ _ reads => reads.all OtpRead.wf
  | .otpReinforce _ _ reads => reads.all OtpRead.wf
  | .otpRead _ _ => true
  | .otpLock _ _ _ reads => reads.all OtpRead.wf
  | .otpReload => true
  | .otpPumpExpiry => true
  | .otpCommandDone => true
  | .imageLoad => true
  | .sectionFetch _ => true
  | .ptRead _ _ => true
  | .ptFastRead _ _ => true
  | .ptPageProgram _ _ => true
  | .ptSectorErase _ => true
  | .ptReadStatus _ => true
  | .ptReadId _ => true
  | .ptReset _ _ => true
  | .flashOpComplete _ => true
  | .nvmTimeout _ => true
  | .nvmBatonExpiry => true
  | .ckptTake _ => true
  | .checkpointBoundary => true
  | .checkpointDone => true
  | .spareRestore => true
  | .pinReg _ _ => true
  | .unpinReg _ _ => true
  | .pinChset _ _ => true
  | .pinCommit _ => true
  | .pinDiscard _ => true
  | .coldPowerOn => true
  | .warmStart => true
  | .resetNLow => true
  | .resetNRise => true
  | .mainDomainStart _ => true
  | .loadEnd => true
  | .releaseAll _ => true
  | .cellFrame d _ clk => farDie d && decide (clk.clk < 5120)
  | .cellAngle d _ clk => farDie d && decide (clk.clk < 5120)
  | .cellSnap d _ _ => farDie d
  | .cellSched d _ clk => farDie d && decide (clk.clk < 5120)
  | .broadcastExecute _ => true
  | .cellLease _ _ => true
  | .cellWrite d => farDie d
  | .cellRead d _ => farDie d
  | .cellResp d => farDie d
  | .cellShadow _ => true
  | .cellGroup d => farDie d
  | .cellLedger d => farDie d
  | .cellCkpt d => farDie d
  | .cellAck d _ => farDie d
  | .cellNak d _ _ => farDie d
  | .cellTrain d _ => farDie d
  | .cellIdle d => farDie d
  | .portTrainingDone d => farDie d
  | .portSilent d _ => farDie d
  | .dieWatchdogStall _ => true
  | .pkgWatchdogExpiry => true
  | .dieRecoveryStart d _ => farDie d
  | .dieRecoveryDone d => farDie d
  | .recoveryTimeout d => farDie d
  | .recoveryStable d => farDie d
  | .leadHoldExpiry d => farDie d
  | .ledgerReread _ => true
  | .ledgerFlush _ => true
  | .ledgerClrOvf _ => true
  | .clrPeak _ => true
  | .pfReadyAgain => true
  | .vbusBelowRise => true
  | .clampOtClear _ => true
  | .benchBatonExpiry _ => true

end Sys2Proof
end

