-- ==== Sys2Proof/Config.lean ====
section
/-! DEFINITION. What the manual leaves open as a value: constants without a body, so that nothing can evaluate them or
prove a value of them. A step applies them to the counter `Device.free`, which it then advances (notes/assumptions/3). -/

namespace Sys2Proof

/-- A free value, by its index. -/
opaque Config.freeValue : Nat → Word

/-- A free bit, by its index: which way a value is rounded where the manual names no rounding. -/
opaque Config.freeBit : Nat → Bool

/-- A free integer, by its index. -/
opaque Config.freeInt : Nat → Int

/-- The SAR code of a die's internal reference as trimmed, which the manual does not give (R115). -/
opaque Config.sarReference : Nat → Nat

/-- The energy constant (mantissa, shift) that has no normalised form, by the charge and the voltage constant it is derived
from (R141, R142). -/
opaque Config.openKe : Nat → Nat → Nat → Nat → Nat × Nat

/-- For how many clocks the freewheel switch of a bank carries the coils when the bank changes its source; the manual bounds the
time and does not fix it (R274, R293). -/
opaque Config.bankGap : Nat

/-- What the margin-high and the margin-low read of a word show at a load, bit by bit, by an index and the word's address: a word
that is marginal at one temperature may read clean at another (R347). -/
opaque Config.margin : Nat → Nat → Nat × Nat

/-- The microcode ROM of a die, by word address, as it left the mask (R37). -/
opaque Config.microcode : Nat → Word

/-- What a culm cell whose payload the manual does not lay out carries, by its TYPE and SEQ. -/
opaque Config.payload : Nat → Nat → BitVec 48

/-- The thermistor temperature in 2^-20 °C, by the code, RNOM in Ω and BETA, where the divisor of the formula of R191 is not
positive and the formula gives no temperature (notes/assumptions/41). -/
opaque Config.ntcOutside : Nat → Nat → Nat → Int

end Sys2Proof
end

