-- ==== Sys2Proof/Machine/State.lean ====
section
/-! DEFINITION. The state of a GN48 part as plain data, the reasons a command can stop, and the state at reset.
Host-visible register words live in `Device.regs` (values at the die that owns them), `Device.shadow` (the lead die's
shadow file, R25) and `Device.force` (values in force of words whose writes take effect later); everything the manual
gives the part beyond its registers is a typed field. A register has one home: the views that ReadWord computes
(LINE_ANGLE, the accumulator group, WINNOW_STAT, KQ_EFF …) have their home in the typed field. -/

namespace Sys2Proof.Machine

/-- Why the machine stops on a command: never. The manual gives every command of the table an effect, and a command that
names a die the part does not contain finds nothing there that could act (R1, R3). -/
inductive Fault where
  deriving DecidableEq, Repr

/-- Why the machine gives a command no meaning. -/
inductive Refusal where
  /-- The command has no meaning yet; its mnemonic. Safe. -/
  | notModelled (mnemonic : String)
  deriving DecidableEq, Repr

/-- A word-addressed register file in canonical form: addresses strictly rising, no entry equal to the word an
unlisted address reads as (the default of the register map). -/
abbrev RegFile := List (Nat × Word)

/-- A normalised constant mant · 2^-sh (R141). -/
structure Const where
  mant : Nat
  sh : Nat
  deriving DecidableEq, Repr

/-- The winnowing direction (R134). -/
inductive Dir where | none | inn | out
  deriving DecidableEq, Repr

/-- The decimators of one modulator (R109, R110): the three integrators, the combs of the fast and of the precise
path, in quarter counts, and the last words. -/
structure Decim where
  i1 : Int
  i2 : Int
  i3 : Int
  lat : Int               -- the third integrator at the end of the last fast window
  f1 : Int
  f2 : Int
  f3 : Int
  p1 : Int
  p2 : Int
  p3 : Int
  prec : Int
  deriving DecidableEq, Repr

/-- The counting state of a channel (R131 to R145, R157). Banks are in 2^-32 nAh or nWh, factors in 2^-40. -/
structure Acc where
  frac : Nat
  fq : Int
  fe : Int
  dir : Dir
  cq : Int
  ce : Int
  rawqIn : Nat
  rawqOut : Nat
  raweIn : Int
  raweOut : Int
  epqIn : Int
  epqOut : Int
  epeIn : Int
  epeOut : Int
  bqIn : Int
  bqOut : Int
  bqNet : Int
  beIn : Int
  beOut : Int
  beNet : Int
  calqIn : Int
  calqOut : Int
  calqNet : Int
  caleIn : Int
  caleOut : Int
  caleNet : Int
  fracQ : Nat
  fracE : Nat
  held : Nat              -- which calibrated values (bits 0 to 5) and banks (6 to 11) hold at their limit (R159)
  deriving DecidableEq, Repr

/-- The constants in force of a channel, their live factors and the live and bench offsets (R108, R140). -/
structure Conv where
  kq : Const
  kv : Const
  ke : Const
  fBenchIH : Nat
  fBenchIL : Nat
  fBenchV : Nat
  fCarryI : Nat
  fCarryV : Nat
  fTcr : Nat
  liveH : Int             -- live offset corrections by range (R122, R200), 2^-24 count per clock
  liveL : Int
  liveV : Int
  benchH : Int            -- bench minus channel internal-zero offset while the bench carries
  benchL : Int
  benchV : Int
  dH : Int                -- drift of the current modulator by range, 0.01 ppm (R122, R128)
  dL : Int
  base : List Word        -- baselines the live corrections belong to (R129)
  -- calibration: the last completed reference run (R197) and the last visit that passed the cross-check (R200)
  runRef : Int            -- Q_ref, 2^-16 nAh
  runDev : Int            -- Q_dev, 2^-32 nAh
  runNet : Int
  runCauses : Nat
  gateCauses : Nat        -- causes collected while a gate is open
  visit : Option PairCal  -- gains and offsets of the last passing visit
  deriving DecidableEq, Repr

/-- Work of a channel that waits for the next frame boundary. -/
structure Due where
  clear : Bool
  range : Option Bool     -- a range change to take effect (some true: range L)
  closed : Bool           -- an epoch closed at the present boundary, no clock counted since (R144)
  start : Bool            -- constants recomputed at a main-domain start are to take effect (R148)
  tcr : Bool              -- a TCR_CFG write (R143)
  cal : List (Nat × Word) -- CAL_CTL commands and the host writes after them, in order (R202): 0 APPLY, 1 FOLD, else the offset written
  calBase : List Word     -- the board words before the first of them
  acirClr : Bool
  seq : Nat               -- step commands: bit 0 ABORT, 1 SKIP, 2 HALT, 3 RELEASE, 4 START (R249)
  contact : Bool          -- a contact fault was declared; the step ends once the channel has stopped (R246)
  pause : Nat             -- cause of a pause to enter (R483: 1 budget, 2 package state, 3 lead loss; 0 none)
  deriving DecidableEq, Repr

/-- The loops, protections and force monitor of a channel (R76 to R90). Integrators have 16 fractional bits. -/
structure Loop where
  cmd : Int
  tgt : Int
  iint : Int
  vint : Int
  pTrim : Int             -- CP trim, 16 fractional bits
  iM : Int
  sumI : Int
  sumV : Int
  nFast : Nat
  ton : Nat
  gl : Bool               -- GL_nn may be driven: the channel switches (gates low otherwise)
  toRest : Bool           -- ramping to REST (R85)
  clamp : Nat             -- compliance clamp: 0 released, 1 upper, 2 lower (R89)
  clampOk : Nat           -- consecutive samples inside the limits
  ct1 : Nat               -- run of criterion 1 (R90)
  ct3 : Nat               -- run of criterion 3
  blank : Nat             -- fast samples of blanking left
  vfHist : List Nat       -- force monitor codes, newest first
  ctStop : Bool           -- contact fault declared, stop pending
  engMode : Nat           -- the step engine's mode and setpoints, held aside under override (R88)
  engI : Int
  engV : Nat
  engP : Int
  engR : Bool             -- the range it asks for
  cvSeen : Bool           -- the voltage loop holds control in CCCV
  satNext : Bool          -- the on-time of the next period was limited to ton_hi
  stopAt : Option Nat     -- clock of the latest stop, with the clamp and the command that stood before it (R97)
  wasClamp : Nat
  wasCmd : Int
  vdrvHeld : Bool         -- stopped by VDRV_UV (R71)
  busOvHeld : Bool        -- stopped by BUS_OV (R92)
  edges : List Nat        -- edges of the period in 1/32 tick after its start: GL falls, GH rises, GH falls, GL rises (R72)
  perAt : Option Nat      -- T at the clock of the period start taken last (R72)
  firstAt : Nat           -- clock at which CH_FAULT.FIRST was taken (R97)
  deriving DecidableEq, Repr

/-- The phase of a re-seat (R246). -/
inductive Seat where | none | wantRelease | off | wantPull | pull | settle
  deriving DecidableEq, Repr

/-- The step engine's position and bookkeeping for a channel (R226 to R249). Times count frames. -/
structure Eng where
  counters : List (Nat × Nat)  -- active loop counters: LOOP index, count (R240)
  frames : Nat                 -- step time in frames
  suspFrames : Nat
  ranWhole : Bool              -- RUNNING since the first clock of the frame (R238)
  baseQ : Int                  -- ΔQ base of the record, µAh (R237)
  baseE : Int                  -- ΔE base of the record, 10 µWh
  termQ : Int                  -- ΔQ base of the terms, 2^-32 nAh
  termE : Int
  basesDue : Bool              -- term bases are taken at the next boundary
  termCnt : List Nat
  blank : Nat
  armed : Bool
  means : List Int             -- one-second means of CH_V_PREC within the running time, newest first
  meanSum : Int
  meanN : Nat
  lastT : Nat                  -- the step that ended last: frames, ΔQ, ΔE, slope (R232)
  lastQ : Int
  lastE : Int
  lastSlope : Option Int
  fSusp : Bool
  fPause : Bool
  fOvr : Bool
  fResumed : Bool
  seat : Seat
  acirDone : Nat
  acirAgain : Bool
  acirRetry : Bool             -- the request due repeats an aborted window (R247)
  startAt : Nat                -- clock of the step's start
  level2 : Bool
  caps : List (Int × Int)      -- captures (V, I) taken
  levelAt : Nat                -- clock of the change to level 2
  capMask : Nat                -- captures whose records are written
  seatAt : Nat                 -- clock of the re-seat's release or of its pull-in's end
  fastHist : List (Int × Int)  -- the last 16 fast words (V, I)
  ocvK : Nat
  restart : Bool               -- the pending start resumes (false) or starts anew (true)
  pauseCause : Nat
  bandCand : Nat
  bandCnt : Nat
  ntc : List Nat               -- the NTC codes of the frame, newest first
  interrupted : Bool
  prevNeed : Bool              -- the previous step needed current (R236)
  lastAny : Bool               -- a step has ended since the recipe started (R232)
  resumeEv : Nat               -- event to write at the next grant: 0 none, 2 resume, 4 unpause
  set : Nat                    -- threshold set applied at the previous boundary: 0 none, 1 charge, 2 discharge
  acirEnd : Nat                -- how the step's windows ended: 0 not yet, 1 all done, 2 refused or aborted
  acirDue : Option Nat         -- point at which the step's next window is requested (R247)
  cyc : Nat                    -- line count of the cycle being averaged in an ACIR step (R232)
  cycV : Int
  cycI : Int
  cycN : Nat
  mV : Option (Int × Int × Nat)  -- sums of CH_V_PREC and CH_I_PREC over the last whole cycle, and their number
  tMean : Int                  -- the last frame's NTC mean, 2^-20 °C
  tBad : Bool                  -- it reads open or short, or the readings are invalid
  stepAcc : Acc                -- the counters at the start of the current step, epochs converted (R376)
  deriving DecidableEq, Repr

/-- The parameters of an ACIR window (R165). -/
structure AcirPar where
  m : Nat
  w : Nat
  lead : Nat
  amp : Nat
  slot : Nat
  since : Nat             -- clock of its acceptance (R59)
  step : Bool             -- requested by the step engine
  run : Bool              -- a step was running at its acceptance (R182)
  deriving DecidableEq, Repr

/-- The ACIR engine of a channel (R162 to R180). Points are line count · 2^32 + angle. -/
structure Acir where
  par : AcirPar
  leadPt : Nat
  openPt : Nat
  closePt : Nat
  moves : Nat
  env : Int
  envTgt : Int
  held : Option AcirPar
  fHold : Bool
  fClip : Bool
  fDc : Bool
  fBench : Bool
  fEnv : Bool
  fRange : Bool
  fSynth : Bool
  clipNow : Bool          -- cmd + exc was clamped in the latest period (R163)
  siRe : Int
  siIm : Int
  svRe : Int
  svIm : Int
  siDc : Int
  svDc : Int
  sc : Int
  ss : Int
  n : Nat
  cycle : Nat             -- line count of the words being averaged
  cycSum : Int
  cycN : Nat
  firstSum : Int
  firstN : Nat
  ep : List Nat           -- quadrant energies, 32 fractional bits (R178)
  eq : List Nat
  deriving DecidableEq, Repr

/-- The arbiter's view of a channel (R256 to R265). -/
structure Lease where
  reported : Int          -- demand in the last report
  counted : Int           -- demand counted at the last freeze point
  inForce : Bool          -- the lead die counts the lease
  age : Nat               -- freeze points since the last report
  released : Bool         -- a release was reported
  decision : Nat          -- decision stamped for the slot: 0 none, 1 grant, 2 pause, 3 refusal
  decidedAt : Nat         -- clock of its freeze point (R59)
  net : Int               -- the net before the pause decided
  reverse : Bool
  waiting : Bool          -- the last report shows the channel waiting
  late : Bool             -- the decision arrived after its stamp (R257)
  deriving DecidableEq, Repr

/-- A channel. -/
structure Chan where
  di : Decim
  dv : Decim
  acc : Acc
  conv : Conv
  bnd : Acc               -- the boundary copy of R22
  vw : Int                -- the voltage word in hold of its own modulator (R109)
  bndLow : Bool           -- the range of the frame that ended at it (R160)
  due : Due
  lp : Loop
  eng : Eng
  acir : Acir
  lease : Lease
  tally : Nat             -- glean tally, 48 bits (R323)
  vSum : Int              -- fast voltage words of the frame: their sum and number (R331)
  vN : Nat
  deriving DecidableEq, Repr

/-- The housekeeping SAR of a die (R113 to R115). -/
structure Sar where
  pos : Nat               -- the next position of the sequence
  lastAt : Nat            -- clock at which the latest conversion ended
  codes : List Nat        -- the latest results by position
  sums : List Nat         -- sums of the frame's results by position
  cnts : List Nat         -- their numbers
  btFrame : List Int      -- valid BTEMP readings of the frame, 2^-20 °C
  btHist : List (Int × Nat)  -- sum and number of the valid readings of the last 4,000 frames, newest first
  bstRun : Nat            -- run towards a BOOST_READY change (lead die)
  auxRun : List Nat       -- runs of good readings of AUX_A, AUX_B, AUX_C
  vxBad : Nat             -- consecutive failed and passed VREFX checks (R105)
  vxOk : Nat
  zeroRun : Nat           -- consecutive bad readings of the internal zero and the internal reference (R115)
  refRun : Nat
  deriving DecidableEq, Repr

/-- The bench converter of a die (R116 to R125). Times are package frame numbers. -/
structure Bench where
  v0 : Option Nat         -- the first frame boundary V of the latest visit since RUN was entered (R116)
  queue : List Nat
  last : Nat              -- last channel visited in rotation
  t1 : Nat
  t2 : Nat
  forced : Bool
  inRotation : Bool
  ob : List Int           -- offsets by r: H, L, V
  gb : List Int           -- gains by r, 2^-36 about 1
  sumCI : Int
  sumCV : Int
  sumBI : Int
  sumBV : Int
  clocks : Nat
  ratioI : Nat            -- ratio_a, 40 fractional bits
  ratioV : Nat
  backAt : Option Nat     -- hand-back boundary of an abort
  forceCh : Option Nat
  gcLast : List PairCal   -- by local channel: gc_last, oc_last (R118, R122)
  di : Decim              -- the bench pair's own decimators (R121: V_hold and the loops follow the carrier's words)
  dv : Decim
  vw : Int                -- its voltage word in hold, with the offset of the channel it carries or measures (R109, R121)
  deriving DecidableEq, Repr

/-- A fault-ledger entry (R425). -/
structure LedgerEnt where
  count : Nat
  src : Nat
  die : Nat
  code : Nat
  obj : Nat
  pkg : Nat
  line : Nat
  seq : Nat
  data : Word
  deriving DecidableEq, Repr

/-- A step record (R228). -/
structure StepRec where
  typ : Nat
  range : Nat
  resume : Nat
  seamless : Bool
  suspEnd : Bool
  twOff : Bool
  noCkpt : Bool
  nterm : Nat
  retries : Nat
  jump : Nat
  p1 : Nat
  p2 : Nat
  p3 : Nat
  terms : List Nat        -- four termination words (R231)
  deriving DecidableEq, Repr

/-- A section as it stands in the image (R367). -/
structure Section where
  typ : Nat
  die : Nat
  ch : Nat
  crc : Nat
  head : List Byte
  body : List Byte
  deriving DecidableEq, Repr

/-- A loaded recipe (R226, R463); `sect` is its section's header bytes 0 to 7, which its CRC covers (R367). -/
structure Recipe where
  sect : List Byte
  id : Nat
  tag : Word
  crc : Word
  header : List Byte
  bytes : List Byte       -- the step records as loaded
  steps : List StepRec
  deriving DecidableEq, Repr

/-- A glean source (R320). -/
inductive Source where | none | keeper | cells | coin
  deriving DecidableEq, Repr

/-- What a retention commit holds of a die (R327, R328): the channels' K state, the K registers, the reference state,
the residues of the pulse outputs with their tags, and on the lead die h of each output and the ledger. -/
structure Retention where
  version : Nat
  index : Nat
  committing : Bool
  gen : Nat
  crcA : Word
  crcB : Word
  chans : List Chan
  regs : RegFile
  fRef : Nat
  refInt : Bool
  res : List Int
  tags : List Nat
  hs : List Int
  ledger : List LedgerEnt
  deriving DecidableEq, Repr

/-- The glean domain of a die (R319 to R334). -/
structure Glean where
  good : Bool             -- KEEP_GOOD
  isNew : Bool            -- risen since the last main-domain stop, or never up
  src : Source
  first : Bool            -- no selection has been made since the main-domain stop (R321)
  okKeep : Bool           -- keeper and cells are usable, with the hysteresis of R320
  okCells : Bool
  usedKeep : Bool
  usedCells : Bool
  usedCoin : Bool
  pumpCh : Nat
  switches : Nat
  outage : Nat            -- outage timer, ms
  trimOk : Bool
  shipLatch : Bool
  cutLatch : Bool
  cutRun : Nat            -- consecutive evaluations below COIN_CUT
  genCopy : Nat           -- copy of the generation of the last completed commit
  imgGen : Nat            -- IMAGE_GEN[15:0] of the last start (R401)
  riseCopy : Nat          -- copy of RISE (R313)
  holdCopy : Nat          -- copy of VSYS_HOLD (R297)
  lastState : Nat         -- package state at the last main-domain stop (R405)
  keeperEn : Bool
  coinEn : Bool
  pumpEn : List Bool      -- by local channel, with PUMP_DIES
  cutEn : Bool
  coinCut : Nat
  vbusLow : Bool          -- VBUS has been below the copy of RISE less 1.0 V since ship mode began (R316)
  woke : Bool             -- ship mode has ended and no start has followed (R316, R386)
  ret : Retention
  staged : Option Retention  -- the image handed to the commit engine that it has not begun to write (R329, R441)
  deriving DecidableEq, Repr

/-- The coil driver of a valve (R280); the phase is VALVE_STAT.PHASE. -/
structure Coil where
  pullAt : Nat            -- clock of the pull-in's start
  latched : Bool          -- the release was caused by a latching diagnostic
  cfg : Word              -- VALVE_CFG and VALVE_MODE in force (R294)
  mode : Word
  seat : Option Nat       -- the channel whose re-seat asked for the pull-in in progress (R246)
  reached : Bool          -- the pull-in has reached IPEAK (R280)
  chopOff : Bool          -- the switch that regulates the current is off until the next chopping period
  chopAt : Nat            -- clock at which the chopping period began
  weakAt : Option Nat     -- in HOLD with the low side on: since when the current is below IHOLD / 2 (R288)
  deriving DecidableEq, Repr

/-- The NCO and its line state as a die holds them (R22, R43). -/
structure Nco where
  phase : Nat
  inc : Nat
  count : Nat
  state : Nat
  deriving DecidableEq, Repr

/-- What an acknowledged culm cell carries, and does once it has arrived intact (R19, R24 to R26, R256, R257, R282, R414,
R426, R442, R443). -/
inductive CellLoad where
  | word (a : Nat) (w : Word)                              -- WRITE: a posted word
  | ask (a : Nat)                                          -- READ
  | answer (a : Nat) (w : Word)                            -- RESP
  | shadow (a : Nat) (w group : Word)                      -- SHADOW: the word, and the group's word of that address
  | commit                                                 -- GROUP
  | demand (g : Nat) (dem : Int) (held waiting : Bool)     -- LEASE: a report
  | decision (late : Bool)                                 -- LEASE: the decisions for a die
  | reseat (g : Nat) (on : Bool)                           -- LEASE: a re-seat request
  | entry (e : LedgerEnt)                                  -- LEDGER: an entry
  | drops (n : Nat)                                        -- LEDGER: a number of entries not held
  | record                                                 -- CKPT: bytes of the die's record
  deriving DecidableEq, Repr

/-- A culm cell that waits for its acknowledgement (R18, R19). A register cell's payload is an address and a word; how the
other types lay out what they carry the manual does not say. -/
structure Cell where
  typ : Nat
  fs : Bool
  seq : Nat
  load : CellLoad
  fails : Nat             -- failed repetitions
  deriving DecidableEq, Repr

/-- One culm port as the lead die and the far die see it (R17 to R35). -/
structure Link where
  trained : Bool
  failed : Bool           -- LOAD ended before the port had trained: its die is held in husk (R33)
  heardAt : Option Nat    -- clock of the last valid cell from the die (R34, R35)
  upHeardAt : Option Nat  -- clock of the last valid cell at the die (R35)
  badIndex : Bool         -- held in husk under R17
  silent : Bool           -- the lead die declared the port silent
  upSilent : Bool         -- the die declared its upstream port silent
  holdOver : Bool         -- holding over after lead loss (R440)
  silentAt : Nat          -- clock of the last valid cell before the silence (R440)
  paused : Bool           -- channels were paused by LEAD_HOLD
  seq : Nat               -- SEQ of the next acknowledged cell downstream
  wait : List Cell        -- acknowledged cells in flight downstream
  upSeq : Nat             -- the same of the die's upstream side
  upWait : List Cell
  deriving DecidableEq, Repr

/-- Recovery of a die (R437, R438). -/
structure Recov where
  active : Bool
  since : Nat
  doneAt : Option Nat
  trying : Bool           -- the attempt is in progress: it has neither returned nor failed (R439)
  ctlAt : Option Nat      -- clock since which the die has stayed under step-engine control (R438)
  stalled : Bool          -- its watchdog has stopped its balls and its cell transmitters (R435)
  stallLatched : Bool     -- a cause latched by its watchdog is still to be reported
  stallAt : Nat           -- clock of the stall (R436)
  benched : Bool
  held : Bool             -- a power-fail trip holds it in husk until the next LOAD (R439)
  deriving DecidableEq, Repr

/-- A die. -/
structure DieSt where
  index : Nat             -- the strap as read at the last main-domain start (R15)
  up : Bool               -- main domain up
  husk : Bool             -- every ball of the die in husk
  ctl : Bool              -- its channels are under step-engine control (R387)
  outage : Option Nat     -- its last outage, ms; none: unknown (R326, R391)
  seeded : Bool           -- accumulation runs (R118, R130)
  seedAt : Option Nat     -- the frame at which seeding began or, once the die is seeded, ended (R118, R331)
  decided : Bool          -- it has decided on its retention since its main-domain start (R387 step 4)
  booked : Option Nat     -- the frame at which it booked its glean tallies since its main-domain start (R331)
  tick : Nat              -- the free-running tick counter T (R72)
  frame : Nat
  clk : Nat
  nco : Nco
  winNco : Nco            -- the NCO at the last clock of the last fast window (R170)
  fastDue : Bool          -- a fast window has ended whose word is not formed yet (R109)
  refInt : Bool
  fRef : Nat              -- f_ref, 40 fractional bits
  refDue : Option Bool    -- a reference switch for the next boundary
  vdrvBad : Bool
  busOvNow : Bool         -- VBUS is above the BUS_OV limit (R92)
  sar : Sar
  bench : Bench
  staging : List LedgerEnt
  stagingDrop : Nat
  trace : List (Nat × List Byte)
  traceSeq : Nat
  recipes : List Recipe
  hasDie : Bool           -- its DIE section was accepted
  hasChan : List Bool     -- CHANNEL sections accepted
  cache : List Section    -- image cache: the DIE and CHANNEL sections as loaded, with their CRC-32 (R37)
  fetch : List (Nat × Nat)  -- sections that failed their CRC at a recovery, to be fetched: TYPE, channel or recipe (R38)
  glean : Glean
  otp : List (Nat × OtpRead)
  patch : List (Nat × Word)
  coils : List Coil
  srcAt : Option Nat      -- clock of the bank's latest change of source (R274)
  pullEndAt : Option Nat  -- clock at which the bank's latest pull-in ended (R284)
  link : Link
  leadMs : Nat            -- LEAD_HOLD as the lead die distributed it last (R440, R446)
  recov : Recov
  ckpt : List Byte        -- the record formed at the last checkpoint boundary (R464)
  darkStart : Bool        -- retention rejected at the last start
  deriving DecidableEq, Repr

/-- The master line timebase of the lead die (R39 to R54). Times are ticks, points 80-bit. -/
structure Line where
  nco : Nco
  listen : Bool           -- LSYNC is used: IMAGE_STAT.VALID has set (R45)
  level : Bool            -- the level of LSYNC recognised last (R40)
  cands : List Nat        -- the latest candidate edges, newest first
  lastQual : Option Nat
  last4 : List Nat
  period : Nat
  incMeas : Nat
  qualPt : Nat            -- whole phase at the last qualified edge, 2^-48 cycle, for the timeout (R50)
  bndAt : Nat             -- clock of the latest boundary update; the whole phase and the increment before it (R45)
  bndTotal : Nat
  bndInc : Nat
  holdPt : Nat            -- point of the HOLDOVER entry (R51)
  incNext : Option Nat
  stepNext : Option Int
  slewNext : Bool
  meter : Nat             -- line time of R273: 25 · 2^47 to a half-cycle, or to 40 frames in SYNTHETIC
  deriving DecidableEq, Repr

/-- A request of the volley scheduler (R282). -/
structure VReq where
  valve : Nat
  on : Bool
  pt : Nat
  order : Nat
  due : Bool              -- its execution clock has come
  deferred : Bool
  seatCh : Option Nat     -- the channel whose re-seat asks
  acceptAt : Nat          -- clock of its acceptance (R283)
  deriving DecidableEq, Repr

/-- An operation of the NVM queue (R363). -/
inductive NvmOp where
  | handover
  | spare
  | fetch (d : Nat)
  | ckpt
  | pins
  | pt (op : Nat) (addr : Nat) (len : Nat)
  deriving DecidableEq, Repr

/-- A program or an erase that the flash is carrying out (R360). -/
inductive FlashOp where
  | program (addr : Nat) (bytes : List Byte)
  | erase (addr : Nat)
  deriving DecidableEq, Repr

/-- The NVM port, the ring and the pin store (R359 to R384). -/
structure Nvm where
  flash : List (Nat × Byte)   -- unlisted bytes read 0xFF (erased)
  flashId : Nat
  queue : List NvmOp
  cur : Option NvmOp
  step : Nat                  -- progress of the operation in hand: flash operations done
  op : Option FlashOp         -- the flash operation in progress
  opAt : Nat                  -- clock at which it began (R362)
  batonAt : Nat               -- clock of the grant to the streaming die (R433)
  ckptAt : Option Nat         -- clock of the previous checkpoint's boundary (R378)
  cells : Nat                 -- CKPT cells of the record being streamed that have arrived
  streamers : List Nat        -- dies that stream their records of the checkpoint in progress
  buf : List (Nat × Byte)     -- pass-through buffer, unlisted bytes 0
  imgLen : Nat
  slow : Bool
  ringBase : Nat
  sectors : Nat               -- 0: no ring
  ckptSeq : Nat               -- the sequence number allocated last, of a checkpoint or a fall page (R375)
  ckptCause : Nat             -- cause of the pending requests (R376): 1 step end, 2 host, 3 ship
  curCause : Nat              -- cause of the checkpoint in progress
  records : List (List Byte)  -- the records of the checkpoint in progress, by die
  streaming : Option Nat      -- the die that holds the port to stream its record
  best : List (Option Nat)    -- by die: slot of its selected record (R381)
  anyRecord : Bool
  fall : Option Nat           -- slot of the newest fall page when it is newest
  pinBase : Nat               -- 0xFFFF_FFFF: no store
  pinOk : Bool                -- the PIN section was accepted
  pinGen : Nat
  pins : List (Nat × Word)
  edits : List (Nat × Nat)    -- waiting edits: OP, ADDR
  commitDue : Bool
  commit : List (Nat × Word)  -- the pin set being committed
  customer : List Byte        -- the line identity and the board serial in use (R341, R368)
  deriving DecidableEq, Repr

/-- A pulse output (R208 to R216). r is in 2^-64 of the unit; h in 2^-32 units times PLS_CONST. BACKLOG is a register. -/
structure Pulse where
  r : Int
  h : Int
  a : Int                 -- the path of the frame (R208)
  k : Nat
  b : Int                 -- changes booked outside the path since the last boundary: 2^-64, in rate mode 2^-32 units
  late : Int              -- the change of a recovering die's last frame, for the first boundary after its recovery (R216)
  xs : List Nat           -- crossing clocks of the frame
  lost : Nat              -- crossings beyond 64 (R211)
  due : List (Nat × Nat)  -- due clocks of scheduled pulses and how many share each, in order
  endAt : Nat             -- clock at which the pulse in progress ends: its edge plus w (R210)
  nextAt : Nat            -- clock before which the next edge does not fall: the last edge plus w + g
  active : Bool
  low : Bool              -- the ball's active level is low: POL and OD as they stood while it was inactive (R215)
  spread : List (Nat × Int)  -- rate mode: start clock and e of the spreads not yet done, oldest first (R213)
  rateJ : Nat             -- clocks of the oldest spread done
  clear : Bool            -- PLS_STAT.CLR waits for the boundary
  cfg : Word              -- PLS_CFG and PLS_K in force (R215), which the tracking die holds too
  quant : Nat
  deriving DecidableEq, Repr

/-- A tally input: the level at its ball and since when, in clocks; the level of the latest frame-boundary samples and how many
in a row have shown it (R219, R220). -/
structure TallyPin where
  level : Bool
  since : Nat
  shown : Bool
  samples : Nat
  deriving DecidableEq, Repr

/-- A reference run (R222). -/
structure Run where
  openDue : Bool
  closeDue : Bool
  cnt : Nat               -- pulses of the run
  net0 : Int              -- exact net value at the opening, 2^-32 nAh
  raw0 : Int              -- RAWQ_IN − RAWQ_OUT at the opening (R197)
  frame0 : Nat
  inp : Bool
  ch : Nat
  k : Nat                 -- nAh per pulse, 2^-16
  neg : Bool
  deriving DecidableEq, Repr

/-- The bus monitor (R270, R271). Moments are readings of the line meter (R273). -/
structure Mon where
  sagRun : Nat
  intRun : Nat
  swellRun : Nat
  endRun : Nat
  first : Nat             -- the event's first qualifying reading
  last : Nat              -- the latest reading beyond its threshold
  extreme : Nat
  sagFrom : Nat           -- where the current sag and swell runs began
  sagExt : Nat
  swellFrom : Nat
  swellExt : Nat
  fitFrom : Nat           -- the line meter where the wait for FIT began (R273)
  deriving DecidableEq, Repr

/-- The auxiliary rails' sequencer (R302). -/
structure Seq where
  kind : Nat              -- 0 none, 1 on, 2 off
  pos : Nat               -- position in progress
  rails : List Nat        -- rails still to turn on at it, or to turn off, in order
  set : List Nat          -- the rails the sequence concerns
  offByHold : List Nat    -- rails the HOLD off-sequence switched off
  since : Nat             -- clock at which the delay in progress began
  wait : Nat              -- OFF_DELAY of the rail that turned off last, ms
  finished : Bool         -- the last on-sequence begun has finished, without SEQ_FAIL (R311)
  deriving DecidableEq, Repr

/-- Supplies, keeper, hand-over (R296 to R316). -/
structure Supply where
  pfTripped : Bool        -- the power-fail comparator has tripped and is not ready again (R298)
  tripAt : Nat            -- clock of the last trip
  tripFrame : Nat         -- frame number, line count and line state at it, for the fall page
  tripCount : Nat
  tripLine : Nat
  cutCkpt : Option Nat    -- slot of the checkpoint cut by the hand-over
  fallPage : Bool         -- the fall page is being written
  page : List Byte        -- the fall page of the hand-over, as formed at the trip (R380)
  fallWait : Bool         -- the hand-over waits for the flash (R307 step 5)
  softDue : Bool          -- a soft reset waits (frame end or hand-over)
  wdtDue : Bool           -- a package watchdog expiry waits
  start : Option Nat      -- a start of the main domains is pending: its cause (R386)
  keepBandCand : Nat
  keepBandCnt : Nat
  keepNtc : List Nat      -- the frame's KNTC codes
  lockDone : Bool         -- LOCK_TMO has run out (R390)
  lockFrom : Nat          -- the latest clock at which another condition of R390 failed
  stateAt : Nat           -- clock at which the package state was entered
  qualAt : Nat            -- clock and line meter of the latest rise above RISE (R311)
  qualMeter : Nat
  auxAt : List Nat        -- clocks at which AUX_A, AUX_B and AUX_C were turned on (R301)
  auxLow : List Nat       -- consecutive readings of theirs below 90 %
  auxWas : List Bool      -- they have been good since (R301)
  keepFrom : Option Nat   -- clock since which KNTC and VKEEP have shown a keeper (R303)
  keepOpen : Nat          -- consecutive open readings of KNTC (R305)
  keepLow : Option Nat    -- clock of the latest VKEEP reading below the termination voltage (R305)
  preFrames : Nat         -- frames of PRECHARGE, and of PRECHARGE, FAST and TAPER, since the timers began (R303)
  chgFrames : Nat
  lowFrames : Nat         -- consecutive frames of TAPER below ITERM
  ikSum : Int             -- the keeper current summed over the frame's clocks up to clock ikClk, mA (R306)
  ikClk : Nat
  resetLow : Bool         -- RESET_N is held low
  tmode : Bool            -- TMODE at the last main-domain start
  ship : Nat              -- an accepted ship request: 0 none, 1 it waits for its checkpoint, 2 the rails' off-sequence runs (R314)
  shipAt : Nat            -- clock of its acceptance
  onStore : Bool          -- from the hand-over or HOLD until RUN: banks of KEEP valves that hold stand on VBST (R290)
  relFrame : Option Nat   -- frame of the latest STORE_RELEASE (R287)
  boostAt : Nat           -- clock at which BOOST_EN became 1 (R277)
  mon : Mon
  seq : Seq
  deriving DecidableEq, Repr

/-- A stamped broadcast on its way, with the dies that will act on it (R21). -/
structure Bcast where
  kind : BcastKind
  dies : List Nat
  frame : Nat             -- the stamp
  clk : Nat
  arg : Nat               -- SNAP: the named frame boundary; SCHED: action code (1 hand-over stop, 2 checkpoint boundary)
  deriving DecidableEq, Repr

/-- The host port (R407 to R420). -/
structure HostPort where
  posting : List (Nat × Word)
  status : Nat            -- status byte of the last frame
  miso : List Word        -- words shifted out in the last frame
  misoBytes : List Byte   -- other bytes shifted out: the words' CRC bytes, or a NOP frame's status bytes
  answered : Bool
  testDue : Bool
  testEndDue : Bool
  deriving DecidableEq, Repr

/-- What the package's own pins and switches hold. The outputs IRQ_N, PGOOD_N, BSTG and PLS_n are functions of the rest
of the state (R423, R299, R277, R216). -/
structure Pins where
  huskAll : Bool          -- every ball in husk (R30, TMODE)
  converter : Bool        -- the keeper converter is connected
  keeperFeed : Bool       -- the keeper's glean feed is closed
  deriving DecidableEq, Repr

/-- Snapshots (R151 to R153). -/
structure Snap where
  take : Bool
  armedPt : Option Nat
  last : Option Nat       -- package frame number of the latest snapshot boundary
  slots : List Nat        -- dies whose slots of the latest generation are not yet committed
  bFrame : Nat            -- the latest frame boundary, its line angle and line count
  bAngle : Nat
  bCount : Nat
  bPt : Nat               -- its line point
  deriving DecidableEq, Repr

/-- An OTP command in progress (R350 to R355). -/
structure OtpCmd where
  running : Bool
  pump : Bool
  since : Nat             -- clock at which it began, and the pump was granted (R355)
  kind : Nat              -- CMD
  code : Nat              -- the codeword or nibble it pulses
  after : OtpRead         -- what the word reads when it ends
  result : Nat
  lets : Nat
  addr : Nat
  die : Nat
  deriving DecidableEq, Repr

/-- Everything of the part but the queue of waiting commands. -/
structure Device where
  nDies : Nat                 -- part strap: 2, 4 or 8
  straps : List Nat           -- index strap of each die
  frame : Nat                 -- package frame number
  clk : Nat                   -- clock in the frame
  regs : RegFile
  shadow : RegFile
  stage : RegFile             -- the staging area of the shadow file (R26)
  force : RegFile
  chans : List Chan
  dies : List DieSt
  line : Line
  bcast : List Bcast
  snap : Snap
  host : HostPort
  pins : Pins
  irqAt : Nat                 -- clock of IRQ_SOURCE's latch (R424)
  ledger : List LedgerEnt     -- the ring's slots 0 to 63 (R425)
  vreqs : List VReq
  vorder : Nat
  grants : List (Nat × Nat)   -- VBST grants in use: valve, clock granted
  bankAt : List (Option Nat)  -- bank batons: clock granted
  nvm : Nvm
  pulses : List Pulse
  tallyClr : List Bool
  tallyIn : List TallyPin     -- TALLY_A and TALLY_B
  run : Run
  supply : Supply
  otp : OtpCmd
  reads : List (Nat × Nat)    -- culm READs outstanding: die, address (R414)
  resps : List (Nat × Word)   -- RESP words received
  busW1c : Word               -- BUS_STAT flags that a host write clears at the next freeze point (R267)
  busClr : Bool               -- a clear of BUS_MON_CNT waits for it
  clockRegs : RegFile         -- the register words as they stood when the present clock began (R417)
  dropped : List (Nat × LedgerEnt)  -- entries the full ring dropped on the present clock, with that clock (R428)
  free : Nat                  -- the model's own: index of the next free value
  deriving DecidableEq, Repr

/-- The machine: the device and the commands that wait, first in, first out. -/
structure State where
  dev : Device
  pending : List Instr
  deriving DecidableEq, Repr

/-! The state after reset: every register at the word of its table, nothing listed in memory, no command waiting.
Values the manual does not give are DESIGN CHOICE zeros (notes/assumptions/2). -/

/-- A modulator's decimators at reset. -/
def Decim.reset : Decim := ⟨0, 0, 0, 0, 0, 0, 0, 0, 0, 0, 0⟩

/-- Counters at zero, the direction NONE (R135). -/
def Acc.reset : Acc :=
  { frac := 0, fq := 0, fe := 0, dir := .none, cq := 0, ce := 0, rawqIn := 0, rawqOut := 0, raweIn := 0, raweOut := 0,
    epqIn := 0, epqOut := 0, epeIn := 0, epeOut := 0, bqIn := 0, bqOut := 0, bqNet := 0, beIn := 0, beOut := 0,
    beNet := 0, calqIn := 0, calqOut := 0, calqNet := 0, caleIn := 0, caleOut := 0, caleNet := 0, fracQ := 0,
    fracE := 0, held := 0 }

/-- The nominal constants of KQ_EFF, KV_EFF and KE_EFF (R458), factors 1. -/
def Conv.reset : Conv :=
  { kq := ⟨0xD9038E39, 32⟩, kv := ⟨0xBB800000, 32⟩, ke := ⟨0xA6AAAAAB, 52⟩, fBenchIH := 2 ^ 40, fBenchIL := 2 ^ 40,
    fBenchV := 2 ^ 40, fCarryI := 2 ^ 40, fCarryV := 2 ^ 40, fTcr := 2 ^ 40, liveH := 0, liveL := 0, liveV := 0,
    benchH := 0, benchL := 0, benchV := 0, dH := 0, dL := 0, base := [0, 0, 0, 0], runRef := 0, runDev := 0, runNet := 0, runCauses := 0, gateCauses := 0,
    visit := none }

/-- Nothing waits. -/
def Due.reset : Due :=
  { clear := false, range := none, closed := false, start := false, tcr := false, cal := [], calBase := [], acirClr := false, seq := 0, contact := false, pause := 0 }

/-- The loops at rest. -/
def Loop.reset : Loop :=
  { cmd := 0, tgt := 0, iint := 0, vint := 0, pTrim := 0, iM := 0, sumI := 0, sumV := 0, nFast := 0, ton := 0, gl := false, toRest := false, clamp := 0, clampOk := 0,
    ct1 := 0, ct3 := 0, blank := 0, vfHist := [], ctStop := false, engMode := 0,
    engI := 0, engV := 0, engP := 0, engR := false, cvSeen := false, satNext := false, stopAt := none, wasClamp := 0, wasCmd := 0, vdrvHeld := false,
    busOvHeld := false,
    edges := [], perAt := none, firstAt := 0 }

/-- The step engine idle. -/
def Eng.reset : Eng :=
  { counters := [], frames := 0, suspFrames := 0, ranWhole := false, baseQ := 0, baseE := 0, termQ := 0, termE := 0,
    basesDue := false, termCnt := [0, 0, 0, 0], blank := 0, armed := false, means := [], meanSum := 0, meanN := 0,
    lastT := 0, lastQ := 0, lastE := 0, lastSlope := none, fSusp := false, fPause := false, fOvr := false,
    fResumed := false, seat := .none, acirDone := 0, acirAgain := false, acirRetry := false, startAt := 0, level2 := false,
    levelAt := 0, capMask := 0, seatAt := 0, caps := [], fastHist := [], ocvK := 0, restart := false, pauseCause := 0, bandCand := 2,
    bandCnt := 0, ntc := [], interrupted := false, prevNeed := false, lastAny := false, resumeEv := 0,
    set := 0, acirEnd := 0, acirDue := none, cyc := 0, cycV := 0, cycI := 0, cycN := 0, mV := none, tMean := 25 * 2 ^ 20,
    tBad := false, stepAcc := .reset }

/-- No window. -/
def Acir.reset : Acir :=
  { par := ⟨0, 0, 0, 0, 0, 0, false, false⟩, leadPt := 0, openPt := 0, closePt := 0, moves := 0, env := 0, envTgt := 0,
    held := none, fHold := false, fClip := false, fDc := false, fBench := false, fEnv := false, fRange := false,
    fSynth := false, clipNow := false, siRe := 0, siIm := 0, svRe := 0, svIm := 0, siDc := 0, svDc := 0, sc := 0, ss := 0, n := 0,
    cycle := 0, cycSum := 0, cycN := 0, firstSum := 0, firstN := 0, ep := [0, 0, 0, 0], eq := [0, 0, 0, 0] }

/-- No lease. -/
def Lease.reset : Lease := ⟨0, 0, false, 0, false, 0, 0, 0, false, false, false⟩

/-- A channel at reset. -/
def Chan.reset : Chan :=
  { di := .reset, dv := .reset, acc := .reset, conv := .reset, bnd := .reset, vw := 0, bndLow := false, due := .reset, lp := .reset,
    eng := .reset, acir := .reset, lease := .reset, tally := 0, vSum := 0, vN := 0 }

/-- The housekeeping converter before its first conversion. -/
def Sar.reset : Sar :=
  { pos := 0, lastAt := 0, codes := List.replicate 32 0, sums := List.replicate 32 0, cnts := List.replicate 32 0, btFrame := [],
    btHist := [], bstRun := 0, auxRun := [0, 0, 0], vxBad := 0, vxOk := 0, zeroRun := 0, refRun := 0 }

/-- A modulator pair with no error. -/
def noPairCal : PairCal := ⟨⟨0, 0⟩, ⟨0, 0⟩, ⟨0, 0⟩⟩

/-- The bench idle. -/
def Bench.reset : Bench :=
  { v0 := none, queue := [], last := 7, t1 := 0, t2 := 0, forced := false, inRotation := false,
    ob := [0, 0, 0], gb := [0, 0, 0], sumCI := 0, sumCV := 0, sumBI := 0, sumBV := 0, clocks := 0,
    ratioI := 2 ^ 40, ratioV := 2 ^ 40, backAt := none, forceCh := none, gcLast := List.replicate 8 noPairCal,
    di := .reset, dv := .reset, vw := 0 }

/-- An empty retention SRAM. -/
def Retention.empty : Retention :=
  { version := 0, index := 0, committing := false, gen := 0, crcA := 0, crcB := 0, chans := [], regs := [],
    fRef := 2 ^ 40, refInt := false, res := [0, 0, 0, 0], tags := [0, 0, 0, 0], hs := [0, 0, 0, 0], ledger := [] }

/-- The glean domain at reset: its copies of the glean fields at the table's defaults. -/
def Glean.reset : Glean :=
  { good := true, isNew := true, src := .none, first := true, okKeep := false, okCells := false, usedKeep := false, usedCells := false, usedCoin := false, pumpCh := 0,
    switches := 0, outage := 0, trimOk := false, shipLatch := false, cutLatch := false, cutRun := 0, genCopy := 0,
    imgGen := 0, riseCopy := 0x5A, holdCopy := 0x3C, lastState := 0, keeperEn := true,
    coinEn := true, pumpEn := List.replicate 8 true, cutEn := false, coinCut := 6, vbusLow := false, woke := false, ret := .empty, staged := none }

/-- A coil driver with the table's settings in force. -/
def Coil.reset : Coil :=
  { pullAt := 0, latched := false, cfg := 0x0F14323C#32, mode := 0x2#32, seat := none, reached := false, chopOff := false
    chopAt := 0, weakAt := none }

/-- The synthetic 50 Hz line (R42). -/
def Nco.reset : Nco := ⟨0, 0x28F5C28F, 0, 0⟩

/-- A port not yet trained. -/
def Link.reset : Link :=
  { trained := false, failed := false, heardAt := none, upHeardAt := none, badIndex := false, silent := false, upSilent := false, holdOver := false,
    silentAt := 0, paused := false, seq := 0, wait := [], upSeq := 0, upWait := [] }

/-- No recovery. -/
def Recov.reset : Recov :=
  { active := false, since := 0, doneAt := none, trying := false, ctlAt := none, stalled := false, stallLatched := false, stallAt := 0
    benched := false, held := false }

/-- The OTP as it leaves the factory: the trims and the identity sealed, every word of them that the manual does not give reading
0, their check words matching (R339, R340). -/
def factoryOtp : List (Nat × OtpRead) :=
  let crc : OtpRead := ⟨0x67A66359F1, 0x67A66359F1, 0x67A66359F1⟩
  [(63, crc), (127, crc), (511, ⟨0xFF, 0xFF, 0xFF⟩)]

/-- A die at reset: its main domain up, its balls in husk until its configuration is applied (R31). -/
def DieSt.reset : DieSt :=
  { index := 0, up := true, husk := true, ctl := false, outage := some 0, seeded := false, seedAt := none, decided := false, booked := none, tick := 0, frame := 0, clk := 0, nco := .reset,
    winNco := .reset, fastDue := false, refInt := false, fRef := 2 ^ 40, refDue := none, vdrvBad := false, busOvNow := false, sar := .reset,
    bench := .reset, staging := [], stagingDrop := 0, trace := [], traceSeq := 0, recipes := [], hasDie := false,
    hasChan := List.replicate 8 false, cache := [], fetch := [], glean := .reset, otp := factoryOtp,
    patch := [], coils := List.replicate 4 .reset, srcAt := none, pullEndAt := none, link := .reset, leadMs := 100, recov := .reset, ckpt := [],
    darkStart := false }

/-- The line timebase at reset: SYNTHETIC (R42). -/
def Line.reset : Line :=
  { nco := .reset, listen := false, level := false, cands := [], lastQual := none, last4 := [], period := 3276800,
    incMeas := 0x28F5C28F, qualPt := 0, bndAt := 0, bndTotal := 0, bndInc := 0x28F5C28F, holdPt := 0, incNext := none, stepNext := none, slewNext := false, meter := 0 }

/-- No monitor event. -/
def Mon.reset : Mon :=
  { sagRun := 0, intRun := 0, swellRun := 0, endRun := 0, first := 0, last := 0, extreme := 0, sagFrom := 0, sagExt := 0,
    swellFrom := 0, swellExt := 0, fitFrom := 0 }

/-- The rails' sequencer idle. -/
def Seq.reset : Seq := ⟨0, 0, [], [], [], 0, 0, false⟩

/-- Supplies at reset. -/
def Supply.reset : Supply :=
  { pfTripped := false, tripAt := 0, tripFrame := 0, tripCount := 0, tripLine := 0, cutCkpt := none,
    fallPage := false, page := [], fallWait := false, softDue := false, wdtDue := false, start := none, keepBandCand := 2, keepBandCnt := 0,
    keepNtc := [], lockDone := false, lockFrom := 0, stateAt := 0, qualAt := 0, qualMeter := 0
    auxAt := [0, 0, 0], auxLow := [0, 0, 0], auxWas := [false, false, false], keepFrom := none, keepOpen := 0, keepLow := none, preFrames := 0
    chgFrames := 0, lowFrames := 0, ikSum := 0, ikClk := 0, resetLow := false, tmode := false, ship := 0, shipAt := 0, onStore := false, relFrame := none, boostAt := 0, mon := .reset, seq := .reset }

/-- A pulse output with nothing waiting. -/
def Pulse.reset : Pulse :=
  { r := 0, h := 0, a := 0, k := 0, b := 0, late := 0, xs := [], lost := 0, due := [], endAt := 0, nextAt := 0, active := false, low := false,
    spread := [], rateJ := 0, clear := false, cfg := 0x0A0A0180#32, quant := 1000000 }

/-- A tally input low, with no sample taken. -/
def TallyPin.reset : TallyPin := ⟨false, 0, false, 0⟩

/-- No reference run. -/
def Run.reset : Run := ⟨false, false, 0, 0, 0, 0, false, 0, 0, false⟩

/-- The NVM port at reset; the flash reads erased. -/
def Nvm.reset : Nvm :=
  { flash := [], flashId := 0, queue := [], cur := none, step := 0, op := none, opAt := 0, batonAt := 0, ckptAt := none, cells := 0, streamers := [], buf := [], imgLen := 0, slow := false, ringBase := 0,
    sectors := 0, ckptSeq := 0, ckptCause := 0, curCause := 0,
    records := [], streaming := none, best := List.replicate 8 none, anyRecord := false, fall := none,
    pinBase := 0xFFFFFFFF, pinOk := false, pinGen := 0, pins := [], edits := [], commitDue := false, commit := [],
    customer := [] }

/-- The host port at reset. -/
def HostPort.reset : HostPort :=
  { posting := [], status := 0, miso := [], misoBytes := [], answered := false, testDue := false,
    testEndDue := false }

/-- The output balls at reset. -/
def Pins.reset : Pins :=
  { huskAll := false, converter := false, keeperFeed := true }

/-- No snapshot. -/
def Snap.reset : Snap := ⟨false, none, none, [], 0, 0, 0, 0⟩

/-- The device at reset: a GN4808, every register at its table's word. -/
def Device.reset : Device :=
  { nDies := 8, straps := [0, 1, 2, 3, 4, 5, 6, 7], frame := 0, clk := 0, regs := [], shadow := [], stage := [], force := [],
    chans := List.replicate 64 .reset, dies := (List.range 8).map fun d => { DieSt.reset with index := d }, line := .reset, bcast := [], snap := .reset,
    host := .reset, pins := .reset, irqAt := 0, ledger := List.replicate 64 ⟨0, 0, 0, 0, 0, 0, 0, 0, 0⟩, vreqs := [], vorder := 0,
    grants := [], bankAt := List.replicate 8 none, nvm := .reset, pulses := List.replicate 4 .reset,
    tallyClr := [false, false], tallyIn := List.replicate 2 .reset, run := .reset, supply := .reset,
    otp := { running := false, pump := false, since := 0, kind := 0, code := 0, after := ⟨0, 0, 0⟩, result := 0, lets := 0, addr := 0, die := 0 }, reads := [], resps := [],
    busW1c := 0, busClr := false, clockRegs := [], dropped := [], free := 0 }

/-- The machine right after reset, with no command waiting. -/
def State.reset : State := { dev := .reset, pending := [] }

end Sys2Proof.Machine
end

