-- ==== Sys2Proof/Machine/Numeric.lean ====
section
/-! DEFINITION. Exact and fixed-point arithmetic the conversion rules use: normalised constants (R141), conv() of
R145, natural logarithm, sine, cosine, arc tangent and square roots in fixed point. -/

namespace Sys2Proof.Machine

/-- The shift that brings num/den into [2^31, 2^32): the least k with num · 2^k ≥ den · 2^31, none past the fuel. -/
def normShift (num den : Nat) : Nat → Nat → Option Nat
  | 0, _ => none
  | fuel + 1, k => if den * 2 ^ 31 ≤ num * 2 ^ k then some k else normShift num den fuel (k + 1)

/-- norm() of a positive rational num/den (R141): none when no shift of 0 to 63 fits. At shift 64 only a rounding to 2^32,
which is 2^31 at shift 63, fits. -/
def normRat (num den : Nat) : Option Const :=
  if den = 0 ∨ num = 0 then none
  else match normShift num den 65 0 with
    | none => none
    | some k =>
      let m := (roundHalfEven (num * 2 ^ k : Nat) den).toNat
      if m < 2 ^ 32 ∧ k < 64 then some ⟨m, k⟩
      else if m = 2 ^ 32 ∧ 0 < k then some ⟨2 ^ 31, k - 1⟩
      else none

/-- conv(n, k) of R145 in units of 2^-32: floor(n · mant · 2^32 / 2^shift). -/
def convFloor (n : Int) (k : Const) : Int := n * k.mant * 2 ^ 32 / 2 ^ k.sh

/-- Hold a value inside the signed range of n bits. -/
def clampSigned (n : Nat) (x : Int) : Int := clampInt (-(2 ^ (n - 1) : Nat)) ((2 ^ (n - 1) : Nat) - 1) x

/-- A signed value wrapped to n bits. -/
def wrapSigned (n : Nat) (x : Int) : Int := signedOf n (fieldOf n x)

/-- A value in a signed field of n bits whose width the manual gives and whose overflow it does not: inside it, the value;
outside it, a free value of that width. -/
def within (n free : Nat) (x : Int) : Int := if clampSigned n x = x then x else signedOf n (fieldOf n (Config.freeInt free))

/-- The mean of a sum of n values, with the rounding bit given where the division leaves a remainder. -/
def meanWith (up : Bool) (sum : Int) (n : Nat) : Int :=
  if sum % (n : Int) = 0 then sum / (n : Int) else sum / (n : Int) + (if up then 1 else 0)

/-- The series Σ z^(2i+1)/(2i+1) in fixed point with 60 fractional bits; `t` is z^(2i+1). -/
def atanhSeries (z2 : Int) : Nat → Nat → Int → Int
  | 0, _, _ => 0
  | fuel + 1, i, t => t / (2 * i + 1 : Nat) + atanhSeries z2 fuel (i + 1) (t * z2 / 2 ^ 60)

/-- ln 2 with 60 fractional bits. -/
def ln2Fix : Int := 799144290325165978

/-- ln(a/b) with 60 fractional bits for positive a and b. -/
def lnRat (a b : Nat) : Int :=
  let k : Int := (Nat.log2 a : Int) - (Nat.log2 b : Int)
  let a' := if 0 ≤ k then a else a * 2 ^ (-k).toNat
  let b' := if 0 ≤ k then b * 2 ^ k.toNat else b
  let z : Int := ((a' : Int) - b') * 2 ^ 60 / ((a' : Int) + b')
  k * ln2Fix + 2 * atanhSeries (z * z / 2 ^ 60) 30 0 z

/-- The thermistor temperature of R191 in 2^-20 °C for SAR code x, with rnom in Ω; the code lies in 32 to 4,064. The floor to 2^-20
°C and the 60 fractional bits of the logarithm are DESIGN CHOICE (notes/assumptions/41): R191 states neither. -/
def ntcTemp (x rnom beta : Nat) : Int :=
  let l := lnRat (10000 * x) ((4096 - x) * rnom)
  let den := 100 * (beta : Int) * 2 ^ 60 + 29815 * l
  if den ≤ 0 then Config.ntcOutside x rnom beta
  else 29815 * (beta : Int) * 2 ^ 80 / den - 27315 * 2 ^ 20 / 100

/-- Round a 2^-20 value to units of 2^-b, the open rounding given by a bit where it is not exact. -/
def roundFrac (up : Bool) (x : Int) (b : Nat) : Int := meanWith up x (2 ^ (20 - b))

/-- The largest r with r² ≤ n, bit by bit from bit k down. -/
def sqrtBits (n : Nat) : Nat → Nat → Nat
  | 0, r => r
  | k + 1, r => let c := r + 2 ^ k; sqrtBits n k (if c * c ≤ n then c else r)

/-- The integer square root. -/
def isqrt (n : Nat) : Nat := sqrtBits n (Nat.log2 n / 2 + 1) 0

/-- The square root rounded half to even: no integer's square root lies half way, so this is the nearest integer. -/
def sqrtNearest (n : Nat) : Nat :=
  let r := isqrt n
  if r * r + r < n then r + 1 else r

/-- 2π with 60 fractional bits. -/
def twoPiFix : Int := 7244019458077122842

/-- The sine series of x (60 fractional bits): Σ (-1)^i x^(2i+1)/(2i+1)!; `t` is the term. -/
def sinSeries (x2 : Int) : Nat → Nat → Int → Int
  | 0, _, _ => 0
  | fuel + 1, i, t => t + sinSeries x2 fuel (i + 1) (-(t * x2 / 2 ^ 60) / ((2 * i + 2) * (2 * i + 3) : Nat))

/-- sin of an angle in cycles with 32 fractional bits, 60 fractional bits. -/
def sinCycle (a : Nat) : Int :=
  let a := a % 2 ^ 32
  let q := a / 2 ^ 30
  let r := a % 2 ^ 30
  let y : Nat := if q % 2 = 0 then r else 2 ^ 30 - r
  let x : Int := (y : Int) * twoPiFix / 2 ^ 32
  let v := sinSeries (x * x / 2 ^ 60) 20 0 x
  if q < 2 then v else -v

/-- cos of an angle in cycles with 32 fractional bits, 60 fractional bits. -/
def cosCycle (a : Nat) : Int := sinCycle (a + 2 ^ 30)

/-! Arc tangents, with 384 fractional bits: a quotient of two 64-bit products and a half unit of 2^-16 turn that are not equal
differ by far more than the error (DEDUCED; the two are equal for no ratio, an odd multiple of 2^-17 turn having no rational
tangent), so that one rounding of the result is the rounding of the exact value (R174). -/

/-- The arc tangent series Σ (-1)^i z^(2i+1)/(2i+1). -/
def atanSeries (z2 : Int) : Nat → Nat → Int → Int
  | 0, _, _ => 0
  | fuel + 1, i, t => t / (2 * i + 1 : Nat) + atanSeries z2 fuel (i + 1) (-(t * z2 / 2 ^ 384))

/-- atan z for |z| at most 1/3. -/
def atanSmall (z : Int) : Int := atanSeries (z * z / 2 ^ 384) 130 0 z

/-- π/4 = 4 atan(1/5) − atan(1/239). -/
def quarterPi : Int := 4 * atanSmall (2 ^ 384 / 5) - atanSmall (2 ^ 384 / 239)

/-- atan of y/x for 0 ≤ y ≤ x, x > 0, reduced by atan(1/2) = π/4 − atan(1/3). -/
def atanUnit (y x : Nat) : Int :=
  if 4 * y ≤ x then atanSmall ((y : Int) * 2 ^ 384 / x)
  else quarterPi - atanSmall (2 ^ 384 / 3) + atanSmall ((2 * (y : Int) - x) * 2 ^ 384 / (2 * (x : Int) + y))

/-- The angle of (x, y) in radians, in (-π, π]; 0 at the origin. -/
def atan2Fix (y x : Int) : Int :=
  let ax := x.natAbs
  let ay := y.natAbs
  let a : Int := if ax = 0 ∧ ay = 0 then 0
    else if ay ≤ ax then atanUnit ay ax else 2 * quarterPi - atanUnit ax ay
  let b := if x < 0 then 4 * quarterPi - a else a
  if y < 0 then -b else b

/-! Little-endian bytes (R364). -/

/-- A number as little-endian bytes. -/
def leBytes : Nat → Nat → List Byte
  | 0, _ => []
  | n + 1, v => BitVec.ofNat 8 v :: leBytes n (v / 256)
/-- The number that little-endian bytes spell (R364). -/
def ofLe : List Byte → Nat
  | [] => 0
  | b :: l => b.toNat + 256 * ofLe l
/-- n bytes from an offset. -/
def slice (l : List Byte) (off n : Nat) : List Byte := (l.drop off).take n
/-- An unsigned field of n bytes at an offset. -/
def uAt (l : List Byte) (off n : Nat) : Nat := ofLe (slice l off n)
/-- A signed field of n bytes at an offset. -/
def sAt (l : List Byte) (off n : Nat) : Int := signedOf (8 * n) (uAt l off n)

end Sys2Proof.Machine
end

