-- ==== Sys2Proof/Machine/RegMap.lean ====
section
/-! DEFINITION. The register map of R448 to R459 with the field tables of the chapters: one constant per field under
its manual name (register_field), one row per register with the masks of its access and Kept codes (R8, R9), and the
word each register reads after a main-domain start before the image is applied (R450, R454, R458). -/

namespace Sys2Proof.Machine

/-- A register block (R448). -/
inductive Blk where | pkg | die | ch
  deriving DecidableEq, Repr

/-- A bit field [hi:lo] of the register at an offset of a block. -/
structure Fld (b : Blk) where
  off : Nat
  hi : Nat
  lo : Nat
  deriving DecidableEq, Repr

/-- The width of a field. -/
def Fld.width {b : Blk} (f : Fld b) : Nat := f.hi + 1 - f.lo
/-- A field's value in its word. -/
def Fld.get {b : Blk} (f : Fld b) (w : Word) : Nat := w.toNat / 2 ^ f.lo % 2 ^ f.width
/-- The word with a field replaced, the value taken modulo the field's width. -/
def Fld.put {b : Blk} (f : Fld b) (v : Nat) (w : Word) : Word :=
  BitVec.ofNat 32 (w.toNat - f.get w * 2 ^ f.lo + v % 2 ^ f.width * 2 ^ f.lo)
/-- The same field of a later instance of a repeated register. -/
def Fld.at {b : Blk} (f : Fld b) (n : Nat) : Fld b := { f with off := f.off + n }

/-- One register of a block: offset, repetition, masks of the access codes and of the Kept codes K, I and O. -/
structure RegRow where
  off : Nat
  count : Nat
  stride : Nat
  rw : Nat
  rwp : Nat
  w1c : Nat
  wo : Nat
  k : Nat
  i : Nat
  o : Nat
  deriving DecidableEq, Repr

/-! Fields of the package common block. -/
def ID_FAMILY : Fld .pkg := ⟨0x000, 15, 0⟩ -- R451
def ID_REV : Fld .pkg := ⟨0x000, 23, 16⟩ -- R451
def ID_MAP : Fld .pkg := ⟨0x000, 31, 24⟩ -- R451
def CAPS_DIES : Fld .pkg := ⟨0x001, 3, 0⟩ -- R452
def CAPS_PRESENT : Fld .pkg := ⟨0x001, 15, 8⟩ -- R452
def CAPS_PART : Fld .pkg := ⟨0x001, 23, 16⟩ -- R452
def PKG_STATE_STATE : Fld .pkg := ⟨0x002, 3, 0⟩ -- R33
def PKG_STATE_PREV : Fld .pkg := ⟨0x002, 7, 4⟩ -- R33
def PKG_STATE_DIES_RUN : Fld .pkg := ⟨0x002, 15, 8⟩ -- R33
def PKG_STATE_DIES_HUSK : Fld .pkg := ⟨0x002, 23, 16⟩ -- R33
def BULK_SEL_TRACE_DIE : Fld .pkg := ⟨0x003, 2, 0⟩ -- R453
def BULK_SEL_RECIPE_DIE : Fld .pkg := ⟨0x003, 6, 4⟩ -- R453
def IRQ_STATUS_LINE : Fld .pkg := ⟨0x004, 0, 0⟩ -- R422
def IRQ_STATUS_BUS : Fld .pkg := ⟨0x004, 1, 1⟩ -- R422
def IRQ_STATUS_CH : Fld .pkg := ⟨0x004, 2, 2⟩ -- R422
def IRQ_STATUS_VALVE : Fld .pkg := ⟨0x004, 3, 3⟩ -- R422
def IRQ_STATUS_KEEP : Fld .pkg := ⟨0x004, 4, 4⟩ -- R422
def IRQ_STATUS_GLEAN : Fld .pkg := ⟨0x004, 5, 5⟩ -- R422
def IRQ_STATUS_NVM : Fld .pkg := ⟨0x004, 6, 6⟩ -- R422
def IRQ_STATUS_OTP : Fld .pkg := ⟨0x004, 7, 7⟩ -- R422
def IRQ_STATUS_LINK : Fld .pkg := ⟨0x004, 8, 8⟩ -- R422
def IRQ_STATUS_LEDGER : Fld .pkg := ⟨0x004, 9, 9⟩ -- R422
def IRQ_STATUS_BENCH : Fld .pkg := ⟨0x004, 10, 10⟩ -- R422
def IRQ_STATUS_TALLY : Fld .pkg := ⟨0x004, 11, 11⟩ -- R422
def IRQ_MASK : Fld .pkg := ⟨0x005, 31, 0⟩ -- R423
def IRQ_SOURCE_CAT : Fld .pkg := ⟨0x006, 3, 0⟩ -- R424
def IRQ_SOURCE_DIE : Fld .pkg := ⟨0x006, 6, 4⟩ -- R424
def IRQ_SOURCE_OBJ : Fld .pkg := ⟨0x006, 15, 8⟩ -- R424
def IRQ_SOURCE_VALID : Fld .pkg := ⟨0x006, 16, 16⟩ -- R424
def IRQ_SOURCE_MORE : Fld .pkg := ⟨0x006, 31, 24⟩ -- R424
def HOST_CTL_CRC_EN : Fld .pkg := ⟨0x008, 0, 0⟩ -- R419
def HOST_CTL_SOFT : Fld .pkg := ⟨0x008, 1, 1⟩ -- R419
def HOST_CTL_TEST_REQ : Fld .pkg := ⟨0x008, 2, 2⟩ -- R419
def HOST_CTL_TEST_END : Fld .pkg := ⟨0x008, 3, 3⟩ -- R419
def HOST_CTL_KEY : Fld .pkg := ⟨0x008, 15, 8⟩ -- R419
def HOST_STAT_BUSY : Fld .pkg := ⟨0x009, 0, 0⟩ -- R421
def HOST_STAT_REFUSED : Fld .pkg := ⟨0x009, 1, 1⟩ -- R421
def HOST_STAT_CRC_ERR : Fld .pkg := ⟨0x009, 2, 2⟩ -- R421
def HOST_STAT_FRAME_ERR : Fld .pkg := ⟨0x009, 3, 3⟩ -- R421
def HOST_STAT_HUSK_EVT : Fld .pkg := ⟨0x009, 4, 4⟩ -- R421
def HOST_STAT_CMD_REF : Fld .pkg := ⟨0x009, 5, 5⟩ -- R421
def HOST_STAT_UNDERRUN : Fld .pkg := ⟨0x009, 6, 6⟩ -- R421
def HOST_STAT_QUEUE : Fld .pkg := ⟨0x009, 12, 8⟩ -- R421
def HOST_STAT_REF_ADDR : Fld .pkg := ⟨0x009, 31, 16⟩ -- R421
def SNAP_CTL_TAKE : Fld .pkg := ⟨0x00A, 0, 0⟩ -- R161
def SNAP_CTL_ARM : Fld .pkg := ⟨0x00A, 1, 1⟩ -- R161
def SNAP_CTL_DISARM : Fld .pkg := ⟨0x00A, 2, 2⟩ -- R161
def SNAP_CTL_REPEAT : Fld .pkg := ⟨0x00A, 3, 3⟩ -- R161
def SNAP_CTL_ARMED : Fld .pkg := ⟨0x00A, 4, 4⟩ -- R161
def SNAP_CTL_GEN : Fld .pkg := ⟨0x00A, 31, 16⟩ -- R161
def SNAP_AT : Fld .pkg := ⟨0x00B, 31, 0⟩ -- R161
def SNAP_STAT_DONE_GEN : Fld .pkg := ⟨0x00C, 15, 0⟩ -- R161
def SNAP_STAT_BY_TAKE : Fld .pkg := ⟨0x00C, 16, 16⟩ -- R161
def SNAP_STAT_BY_SCHED : Fld .pkg := ⟨0x00C, 17, 17⟩ -- R161
def SNAP_STAT_PARTIAL : Fld .pkg := ⟨0x00C, 18, 18⟩ -- R161
def SNAP_STAT_DONE_EVT : Fld .pkg := ⟨0x00C, 24, 24⟩ -- R161
def LINE_CFG_POL : Fld .pkg := ⟨0x010, 0, 0⟩ -- R62
def LINE_CFG_TIMEOUT : Fld .pkg := ⟨0x010, 7, 4⟩ -- R62
def LINE_CFG_SYN_FORCE : Fld .pkg := ⟨0x010, 8, 8⟩ -- R62
def LINE_CFG_STEP_EN : Fld .pkg := ⟨0x010, 9, 9⟩ -- R62
def LINE_PLIM_PMIN : Fld .pkg := ⟨0x011, 15, 0⟩ -- R63
def LINE_PLIM_PMAX : Fld .pkg := ⟨0x011, 31, 16⟩ -- R63
def LINE_STAT_STATE : Fld .pkg := ⟨0x012, 1, 0⟩ -- R64
def LINE_STAT_HOLDOVER : Fld .pkg := ⟨0x012, 2, 2⟩ -- R64
def LINE_STAT_SYNTH : Fld .pkg := ⟨0x012, 3, 3⟩ -- R64
def LINE_STAT_SLEWING : Fld .pkg := ⟨0x012, 4, 4⟩ -- R64
def LINE_STAT_EVER_LOCKED : Fld .pkg := ⟨0x012, 5, 5⟩ -- R64
def LINE_STAT_HOLD_EVT : Fld .pkg := ⟨0x012, 8, 8⟩ -- R64
def LINE_STAT_LOCK_EVT : Fld .pkg := ⟨0x012, 9, 9⟩ -- R64
def LINE_STAT_STEP_EVT : Fld .pkg := ⟨0x012, 10, 10⟩ -- R64
def LINE_ANGLE : Fld .pkg := ⟨0x013, 31, 0⟩ -- R65
def LINE_COUNT_0 : Fld .pkg := ⟨0x014, 31, 0⟩ -- R65
def LINE_COUNT_1 : Fld .pkg := ⟨0x015, 15, 0⟩ -- R65
def LINE_PERIOD : Fld .pkg := ⟨0x016, 23, 0⟩ -- R65
def LINE_INC : Fld .pkg := ⟨0x017, 31, 0⟩ -- R65
def LINE_PHERR : Fld .pkg := ⟨0x018, 31, 0⟩ -- R65
def LINE_REJ_REJ_GLITCH : Fld .pkg := ⟨0x019, 15, 0⟩ -- R65
def LINE_REJ_REJ_EDGE : Fld .pkg := ⟨0x019, 31, 16⟩ -- R65
def LINE_REJ_CLR : Fld .pkg := ⟨0x01A, 0, 0⟩ -- R65
def LINE_HOLDT : Fld .pkg := ⟨0x01B, 31, 0⟩ -- R65
def BUS_LIMIT_LIMIT : Fld .pkg := ⟨0x020, 15, 0⟩ -- R269
def BUS_LIMIT_RLIMIT : Fld .pkg := ⟨0x020, 31, 16⟩ -- R269
def BUS_EFF_ETA_CHG : Fld .pkg := ⟨0x021, 15, 0⟩ -- R269
def BUS_EFF_ETA_DSG : Fld .pkg := ⟨0x021, 31, 16⟩ -- R269
def BUS_CFG_RESERVE : Fld .pkg := ⟨0x022, 0, 0⟩ -- R269
def BUS_CFG_RLIM_EN : Fld .pkg := ⟨0x022, 1, 1⟩ -- R269
def BUS_CFG_VMARG : Fld .pkg := ⟨0x022, 15, 8⟩ -- R269
def BUS_NET : Fld .pkg := ⟨0x023, 31, 0⟩ -- R269
def BUS_CHG : Fld .pkg := ⟨0x024, 31, 0⟩ -- R269
def BUS_DSG : Fld .pkg := ⟨0x025, 31, 0⟩ -- R269
def BUS_STAT_LEASES : Fld .pkg := ⟨0x026, 6, 0⟩ -- R269
def BUS_STAT_WAITING : Fld .pkg := ⟨0x026, 14, 8⟩ -- R269
def BUS_STAT_PAUSE_EVT : Fld .pkg := ⟨0x026, 16, 16⟩ -- R269
def BUS_STAT_EXPIRE_EVT : Fld .pkg := ⟨0x026, 17, 17⟩ -- R269
def BUS_STAT_QUEUE_EVT : Fld .pkg := ⟨0x026, 18, 18⟩ -- R269
def BUS_STAT_LATE_EVT : Fld .pkg := ⟨0x026, 19, 19⟩ -- R269
def BUS_STAT_FIT : Fld .pkg := ⟨0x026, 24, 24⟩ -- R269
def BUS_STAT_MON_CLASS : Fld .pkg := ⟨0x026, 26, 25⟩ -- R269
def BUS_STAT_MON_EVT : Fld .pkg := ⟨0x026, 27, 27⟩ -- R269
def BUS_NOM_VBUS_NOM : Fld .pkg := ⟨0x027, 11, 0⟩ -- R269
def BUS_NOM_FIT_HC : Fld .pkg := ⟨0x027, 23, 16⟩ -- R269
def BUS_NOM_DEB : Fld .pkg := ⟨0x027, 31, 24⟩ -- R269
def BUS_MON_TH_SAG : Fld .pkg := ⟨0x028, 7, 0⟩ -- R269
def BUS_MON_TH_SWELL : Fld .pkg := ⟨0x028, 15, 8⟩ -- R269
def BUS_MON_TH_INT : Fld .pkg := ⟨0x028, 23, 16⟩ -- R269
def BUS_MON_TH_HYST : Fld .pkg := ⟨0x028, 31, 24⟩ -- R269
def BUS_MON_LAST_CLASS : Fld .pkg := ⟨0x029, 1, 0⟩ -- R269
def BUS_MON_LAST_UNIT : Fld .pkg := ⟨0x029, 2, 2⟩ -- R269
def BUS_MON_LAST_TRUNC : Fld .pkg := ⟨0x029, 3, 3⟩ -- R269
def BUS_MON_LAST_EXTREME : Fld .pkg := ⟨0x029, 15, 4⟩ -- R269
def BUS_MON_LAST_DURATION : Fld .pkg := ⟨0x029, 31, 16⟩ -- R269
def BUS_MON_CNT_N_SAG : Fld .pkg := ⟨0x02A, 7, 0⟩ -- R269
def BUS_MON_CNT_N_SWELL : Fld .pkg := ⟨0x02A, 15, 8⟩ -- R269
def BUS_MON_CNT_N_INT : Fld .pkg := ⟨0x02A, 23, 16⟩ -- R269
def BUS_MON_CNT_CLR : Fld .pkg := ⟨0x02A, 24, 24⟩ -- R269
def BUS_PAUSE_LAST_CH : Fld .pkg := ⟨0x02B, 5, 0⟩ -- R269
def BUS_PAUSE_LAST_REVERSE : Fld .pkg := ⟨0x02B, 6, 6⟩ -- R269
def BUS_PAUSE_MAP_0 : Fld .pkg := ⟨0x02C, 31, 0⟩ -- R269
def BUS_PAUSE_MAP_1 : Fld .pkg := ⟨0x02D, 31, 0⟩ -- R269
def BUS_QUEUE_MAP_0 : Fld .pkg := ⟨0x02E, 31, 0⟩ -- R269
def BUS_QUEUE_MAP_1 : Fld .pkg := ⟨0x02F, 31, 0⟩ -- R269
def AUX_CFG_A_ON_POS : Fld .pkg := ⟨0x030, 1, 0⟩ -- R317
def AUX_CFG_A_OFF_POS : Fld .pkg := ⟨0x030, 3, 2⟩ -- R317
def AUX_CFG_A_IN_HOLD : Fld .pkg := ⟨0x030, 4, 4⟩ -- R317
def AUX_CFG_A_ON_DELAY : Fld .pkg := ⟨0x030, 15, 8⟩ -- R317
def AUX_CFG_A_OFF_DELAY : Fld .pkg := ⟨0x030, 23, 16⟩ -- R317
def AUX_CFG_B_ON_POS : Fld .pkg := ⟨0x031, 1, 0⟩ -- R317
def AUX_CFG_B_OFF_POS : Fld .pkg := ⟨0x031, 3, 2⟩ -- R317
def AUX_CFG_B_IN_HOLD : Fld .pkg := ⟨0x031, 4, 4⟩ -- R317
def AUX_CFG_B_ON_DELAY : Fld .pkg := ⟨0x031, 15, 8⟩ -- R317
def AUX_CFG_B_OFF_DELAY : Fld .pkg := ⟨0x031, 23, 16⟩ -- R317
def AUX_CFG_C_ON_POS : Fld .pkg := ⟨0x032, 1, 0⟩ -- R317
def AUX_CFG_C_OFF_POS : Fld .pkg := ⟨0x032, 3, 2⟩ -- R317
def AUX_CFG_C_IN_HOLD : Fld .pkg := ⟨0x032, 4, 4⟩ -- R317
def AUX_CFG_C_ON_DELAY : Fld .pkg := ⟨0x032, 15, 8⟩ -- R317
def AUX_CFG_C_OFF_DELAY : Fld .pkg := ⟨0x032, 23, 16⟩ -- R317
def AUX_CFG_C_VOUT : Fld .pkg := ⟨0x032, 29, 24⟩ -- R317
def AUX_CTL_ON_A : Fld .pkg := ⟨0x033, 0, 0⟩ -- R317
def AUX_CTL_ON_B : Fld .pkg := ⟨0x033, 1, 1⟩ -- R317
def AUX_CTL_ON_C : Fld .pkg := ⟨0x033, 2, 2⟩ -- R317
def AUX_CTL_SEQ_ON : Fld .pkg := ⟨0x033, 8, 8⟩ -- R317
def AUX_CTL_SEQ_OFF : Fld .pkg := ⟨0x033, 9, 9⟩ -- R317
def AUX_STAT_GOOD : Fld .pkg := ⟨0x034, 2, 0⟩ -- R317
def AUX_STAT_OV_A : Fld .pkg := ⟨0x034, 8, 8⟩ -- R317
def AUX_STAT_UV_A : Fld .pkg := ⟨0x034, 9, 9⟩ -- R317
def AUX_STAT_OV_B : Fld .pkg := ⟨0x034, 10, 10⟩ -- R317
def AUX_STAT_UV_B : Fld .pkg := ⟨0x034, 11, 11⟩ -- R317
def AUX_STAT_OV_C : Fld .pkg := ⟨0x034, 12, 12⟩ -- R317
def AUX_STAT_UV_C : Fld .pkg := ⟨0x034, 13, 13⟩ -- R317
def AUX_STAT_DEP_C : Fld .pkg := ⟨0x034, 14, 14⟩ -- R317
def AUX_STAT_SEQ : Fld .pkg := ⟨0x034, 18, 16⟩ -- R317
def AUX_STAT_SEQ_FAIL : Fld .pkg := ⟨0x034, 20, 20⟩ -- R317
def AUX_A_RD : Fld .pkg := ⟨0x035, 15, 0⟩ -- R317
def AUX_B_RD : Fld .pkg := ⟨0x035, 31, 16⟩ -- R317
def AUX_C_RD : Fld .pkg := ⟨0x036, 15, 0⟩ -- R317
def PGOOD_CTL_RISE : Fld .pkg := ⟨0x037, 8, 0⟩ -- R317
def PGOOD_CTL_FALL : Fld .pkg := ⟨0x037, 24, 16⟩ -- R317
def PGOOD_CTL_GOOD : Fld .pkg := ⟨0x037, 28, 28⟩ -- R317
def PGOOD_CTL_TH_BAD : Fld .pkg := ⟨0x037, 29, 29⟩ -- R317
def KEEP_CFG_EN : Fld .pkg := ⟨0x040, 0, 0⟩ -- R318
def KEEP_CFG_POLICY : Fld .pkg := ⟨0x040, 1, 1⟩ -- R318
def KEEP_CFG_VTERM : Fld .pkg := ⟨0x040, 13, 8⟩ -- R318
def KEEP_CFG_ICHG : Fld .pkg := ⟨0x040, 23, 16⟩ -- R318
def KEEP_CFG_ITERM : Fld .pkg := ⟨0x040, 31, 24⟩ -- R318
def KEEP_TWIN : Fld .pkg := ⟨0x041, 31, 0⟩ -- R318
def KEEP_JEITA_COOL : Fld .pkg := ⟨0x042, 7, 0⟩ -- R318
def KEEP_JEITA_WARM_VTERM : Fld .pkg := ⟨0x042, 13, 8⟩ -- R318
def KEEP_JEITA_UV : Fld .pkg := ⟨0x042, 23, 16⟩ -- R318
def KEEP_TIMER_PRE : Fld .pkg := ⟨0x043, 7, 0⟩ -- R318
def KEEP_TIMER_FAST : Fld .pkg := ⟨0x043, 15, 8⟩ -- R318
def KEEP_NTC_BETA : Fld .pkg := ⟨0x044, 14, 0⟩ -- R318
def KEEP_NTC_RNOM : Fld .pkg := ⟨0x044, 31, 16⟩ -- R318
def KEEP_STAT_CHG : Fld .pkg := ⟨0x045, 3, 0⟩ -- R318
def KEEP_STAT_PRESENT : Fld .pkg := ⟨0x045, 4, 4⟩ -- R318
def KEEP_STAT_SUPPL : Fld .pkg := ⟨0x045, 5, 5⟩ -- R318
def KEEP_STAT_HOLDUP : Fld .pkg := ⟨0x045, 6, 6⟩ -- R318
def KEEP_STAT_BAND : Fld .pkg := ⟨0x045, 9, 7⟩ -- R318
def KEEP_STAT_ABSENT_EVT : Fld .pkg := ⟨0x045, 10, 10⟩ -- R318
def KEEP_STAT_TIMER_FLT : Fld .pkg := ⟨0x045, 11, 11⟩ -- R318
def KEEP_STAT_UV_CUT : Fld .pkg := ⟨0x045, 12, 12⟩ -- R318
def KEEP_STAT_DONE_EVT : Fld .pkg := ⟨0x045, 13, 13⟩ -- R318
def KEEP_STAT_IKEEP : Fld .pkg := ⟨0x045, 31, 16⟩ -- R318
def KEEP_RD_VKEEP_RD : Fld .pkg := ⟨0x046, 15, 0⟩ -- R318
def KEEP_RD_KTEMP : Fld .pkg := ⟨0x046, 31, 16⟩ -- R318
def STORE_CFG_KCAP : Fld .pkg := ⟨0x047, 15, 0⟩ -- R318
def STORE_CFG_CHOLD : Fld .pkg := ⟨0x047, 31, 16⟩ -- R318
def STORE_RES_RESERVE : Fld .pkg := ⟨0x048, 15, 0⟩ -- R318
def STORE_RES_RINT : Fld .pkg := ⟨0x048, 31, 16⟩ -- R318
def STORE_EST : Fld .pkg := ⟨0x049, 31, 0⟩ -- R318
def KEEP_PATH_ILIM : Fld .pkg := ⟨0x04A, 7, 0⟩ -- R318
def KEEP_PATH_VHOLD : Fld .pkg := ⟨0x04A, 15, 8⟩ -- R318
def PATH_STAT_VSYS_RD : Fld .pkg := ⟨0x04B, 11, 0⟩ -- R318
def PATH_STAT_VBUS_RD : Fld .pkg := ⟨0x04B, 27, 16⟩ -- R318
def PATH_STAT_ILIM_ACT : Fld .pkg := ⟨0x04B, 28, 28⟩ -- R318
def PATH_STAT_INPUT_ON : Fld .pkg := ⟨0x04B, 29, 29⟩ -- R318
def SHIP_CTL_ENTER : Fld .pkg := ⟨0x04C, 0, 0⟩ -- R318
def SHIP_CTL_KEY : Fld .pkg := ⟨0x04C, 15, 8⟩ -- R318
def SHIP_CTL_REFUSED_EVT : Fld .pkg := ⟨0x04C, 16, 16⟩ -- R318
def SHIP_CTL_LAST_EXIT : Fld .pkg := ⟨0x04C, 18, 17⟩ -- R318
def HANDOVER_CTL_PF_TH : Fld .pkg := ⟨0x04D, 8, 0⟩ -- R318
def HANDOVER_CTL_QUAL_UNIT : Fld .pkg := ⟨0x04D, 10, 10⟩ -- R318
def HANDOVER_CTL_QUAL_TIME : Fld .pkg := ⟨0x04D, 31, 16⟩ -- R318
def HANDOVER_CFG_HOLD_MAX : Fld .pkg := ⟨0x04E, 15, 0⟩ -- R318
def HANDOVER_STAT_COUNT : Fld .pkg := ⟨0x04F, 15, 0⟩ -- R318
def HANDOVER_STAT_CKPT_DONE : Fld .pkg := ⟨0x04F, 16, 16⟩ -- R318
def HANDOVER_STAT_CKPT_SKIP : Fld .pkg := ⟨0x04F, 17, 17⟩ -- R318
def HANDOVER_STAT_VBUS_BACK : Fld .pkg := ⟨0x04F, 18, 18⟩ -- R318
def HANDOVER_STAT_HO_EVT : Fld .pkg := ⟨0x04F, 19, 19⟩ -- R318
def HANDOVER_STAT_DUR : Fld .pkg := ⟨0x04F, 31, 20⟩ -- R318
def GLEAN_DIE_SRC_END : Fld .pkg := ⟨0x050, 1, 0⟩ -- R335
def GLEAN_DIE_USED_KEEP : Fld .pkg := ⟨0x050, 2, 2⟩ -- R335
def GLEAN_DIE_USED_CELLS : Fld .pkg := ⟨0x050, 3, 3⟩ -- R335
def GLEAN_DIE_USED_COIN : Fld .pkg := ⟨0x050, 4, 4⟩ -- R335
def GLEAN_DIE_NEW : Fld .pkg := ⟨0x050, 5, 5⟩ -- R335
def GLEAN_DIE_RET_VALID : Fld .pkg := ⟨0x050, 6, 6⟩ -- R335
def GLEAN_DIE_RET_BAD : Fld .pkg := ⟨0x050, 7, 7⟩ -- R335
def GLEAN_DIE_PUMP_CH : Fld .pkg := ⟨0x050, 10, 8⟩ -- R335
def GLEAN_DIE_LEDGER_LOST : Fld .pkg := ⟨0x050, 11, 11⟩ -- R335
def GLEAN_DIE_SWITCHES : Fld .pkg := ⟨0x050, 31, 16⟩ -- R335
def GLEAN_OUTAGE_0 : Fld .pkg := ⟨0x058, 31, 0⟩ -- R335
def GLEAN_OUTAGE_1 : Fld .pkg := ⟨0x059, 15, 0⟩ -- R335
def GLEAN_STAT_DARK_LOSS : Fld .pkg := ⟨0x05A, 0, 0⟩ -- R335
def GLEAN_STAT_TRIM_OK : Fld .pkg := ⟨0x05A, 1, 1⟩ -- R335
def GLEAN_STAT_DARK_DIES : Fld .pkg := ⟨0x05A, 15, 8⟩ -- R335
def GLEAN_TRIM_RC_ERR : Fld .pkg := ⟨0x05B, 15, 0⟩ -- R335
def KEEPGOOD_CTL_GOOD : Fld .pkg := ⟨0x05C, 0, 0⟩ -- R335
def KEEPGOOD_CTL_KEEPER_EN : Fld .pkg := ⟨0x05C, 1, 1⟩ -- R335
def KEEPGOOD_CTL_COIN_EN : Fld .pkg := ⟨0x05C, 2, 2⟩ -- R335
def KEEPGOOD_CTL_PUMP_DIES : Fld .pkg := ⟨0x05C, 15, 8⟩ -- R335
def COMPAT_CTL_CUT_EN : Fld .pkg := ⟨0x05D, 0, 0⟩ -- R335
def COMPAT_CTL_COIN_CUT : Fld .pkg := ⟨0x05D, 4, 1⟩ -- R335
def COMPAT_CTL_OTP_FIXED : Fld .pkg := ⟨0x05D, 8, 8⟩ -- R335
def VBST_CFG_SET : Fld .pkg := ⟨0x060, 9, 0⟩ -- R295
def VBST_CFG_READY : Fld .pkg := ⟨0x060, 25, 16⟩ -- R295
def VBST_CFG_BOOST_EN : Fld .pkg := ⟨0x060, 31, 31⟩ -- R295
def VBST_ILIM_CS : Fld .pkg := ⟨0x061, 7, 0⟩ -- R295
def VBST_STAT_READY_ST : Fld .pkg := ⟨0x062, 0, 0⟩ -- R295
def VBST_STAT_OV : Fld .pkg := ⟨0x062, 1, 1⟩ -- R295
def VBST_STAT_VBST_RD : Fld .pkg := ⟨0x062, 15, 4⟩ -- R295
def VBST_STAT_NR_EVT : Fld .pkg := ⟨0x062, 16, 16⟩ -- R295
def VBST_STAT_OV_EVT : Fld .pkg := ⟨0x062, 17, 17⟩ -- R295
def VBST_STAT_GRANTS : Fld .pkg := ⟨0x062, 23, 20⟩ -- R295
def VBST_SCHED_SLIP : Fld .pkg := ⟨0x063, 3, 0⟩ -- R295
def VBST_SCHED_MAXPULL : Fld .pkg := ⟨0x063, 11, 8⟩ -- R295
def NVM_PT_CMD_OPCODE : Fld .pkg := ⟨0x070, 7, 0⟩ -- R385
def NVM_PT_CMD_LEN : Fld .pkg := ⟨0x070, 16, 8⟩ -- R385
def NVM_PT_CMD_GO : Fld .pkg := ⟨0x070, 20, 20⟩ -- R385
def NVM_PT_CMD_KEY : Fld .pkg := ⟨0x070, 31, 24⟩ -- R385
def NVM_PT_ADDR : Fld .pkg := ⟨0x071, 23, 0⟩ -- R385
def NVM_STAT_BUSY : Fld .pkg := ⟨0x072, 0, 0⟩ -- R385
def NVM_STAT_RESULT : Fld .pkg := ⟨0x072, 3, 1⟩ -- R385
def NVM_STAT_REFUSE : Fld .pkg := ⟨0x072, 7, 4⟩ -- R385
def NVM_STAT_SR : Fld .pkg := ⟨0x072, 15, 8⟩ -- R385
def NVM_STAT_OP : Fld .pkg := ⟨0x072, 18, 16⟩ -- R385
def NVM_STAT_DONE_EVT : Fld .pkg := ⟨0x072, 24, 24⟩ -- R385
def NVM_STAT_ERR_EVT : Fld .pkg := ⟨0x072, 25, 25⟩ -- R385
def NVM_ID : Fld .pkg := ⟨0x073, 23, 0⟩ -- R385
def NVM_CAP_UNK : Fld .pkg := ⟨0x073, 24, 24⟩ -- R385
def NVM_CFG_DIV : Fld .pkg := ⟨0x074, 4, 0⟩ -- R385
def IMAGE_STAT_VALID : Fld .pkg := ⟨0x075, 0, 0⟩ -- R385
def IMAGE_STAT_HDR_ERR : Fld .pkg := ⟨0x075, 3, 1⟩ -- R385
def IMAGE_STAT_DIE_MISMATCH : Fld .pkg := ⟨0x075, 4, 4⟩ -- R385
def IMAGE_STAT_TRUNC : Fld .pkg := ⟨0x075, 5, 5⟩ -- R385
def IMAGE_STAT_NO_RING : Fld .pkg := ⟨0x075, 6, 6⟩ -- R385
def IMAGE_STAT_REJECTED : Fld .pkg := ⟨0x075, 15, 8⟩ -- R385
def IMAGE_STAT_UNKNOWN : Fld .pkg := ⟨0x075, 23, 16⟩ -- R385
def IMAGE_STAT_FIRST_TYPE : Fld .pkg := ⟨0x075, 31, 24⟩ -- R385
def IMAGE_GEN : Fld .pkg := ⟨0x076, 31, 0⟩ -- R385
def CFG_MAP_0 : Fld .pkg := ⟨0x077, 31, 0⟩ -- R385
def CFG_MAP_1 : Fld .pkg := ⟨0x078, 31, 0⟩ -- R385
def CKPT_MIN_INT : Fld .pkg := ⟨0x079, 15, 0⟩ -- R385
def CKPT_CTL_TAKE : Fld .pkg := ⟨0x07A, 0, 0⟩ -- R385
def CKPT_CTL_KEY : Fld .pkg := ⟨0x07A, 15, 8⟩ -- R385
def CKPT_STAT_SLOT : Fld .pkg := ⟨0x07B, 7, 0⟩ -- R385
def CKPT_STAT_PENDING : Fld .pkg := ⟨0x07B, 8, 8⟩ -- R385
def CKPT_STAT_BUSY : Fld .pkg := ⟨0x07B, 9, 9⟩ -- R385
def CKPT_STAT_SPARE_OK : Fld .pkg := ⟨0x07B, 10, 10⟩ -- R385
def CKPT_STAT_DONE_EVT : Fld .pkg := ⟨0x07B, 16, 16⟩ -- R385
def CKPT_STAT_INVAL_EVT : Fld .pkg := ⟨0x07B, 17, 17⟩ -- R385
def CKPT_STAT_FAIL_EVT : Fld .pkg := ⟨0x07B, 18, 18⟩ -- R385
def CKPT_STAT_FALL_FOUND : Fld .pkg := ⟨0x07B, 19, 19⟩ -- R385
def CKPT_SEQ : Fld .pkg := ⟨0x07C, 31, 0⟩ -- R385
def PIN_CTL_ADDR : Fld .pkg := ⟨0x07D, 15, 0⟩ -- R385
def PIN_CTL_OP : Fld .pkg := ⟨0x07D, 18, 16⟩ -- R385
def PIN_CTL_KEY : Fld .pkg := ⟨0x07D, 31, 24⟩ -- R385
def PIN_STAT_COUNT : Fld .pkg := ⟨0x07E, 10, 0⟩ -- R385
def PIN_STAT_EDITS : Fld .pkg := ⟨0x07E, 16, 11⟩ -- R385
def PIN_STAT_BUSY : Fld .pkg := ⟨0x07E, 17, 17⟩ -- R385
def PIN_STAT_RESULT : Fld .pkg := ⟨0x07E, 20, 18⟩ -- R385
def PIN_STAT_REFUSE : Fld .pkg := ⟨0x07E, 24, 21⟩ -- R385
def PIN_STAT_DONE_EVT : Fld .pkg := ⟨0x07E, 25, 25⟩ -- R385
def PIN_STAT_COPY : Fld .pkg := ⟨0x07E, 26, 26⟩ -- R385
def PIN_STAT_STORE_OK : Fld .pkg := ⟨0x07E, 27, 27⟩ -- R385
def PLS_CFG_CH : Fld .pkg := ⟨0x080, 5, 0⟩ -- R217
def PLS_CFG_QTY : Fld .pkg := ⟨0x080, 8, 6⟩ -- R217
def PLS_CFG_PKG : Fld .pkg := ⟨0x080, 9, 9⟩ -- R217
def PLS_CFG_MODE : Fld .pkg := ⟨0x080, 10, 10⟩ -- R217
def PLS_CFG_SIGN : Fld .pkg := ⟨0x080, 11, 11⟩ -- R217
def PLS_CFG_POL : Fld .pkg := ⟨0x080, 12, 12⟩ -- R217
def PLS_CFG_OD : Fld .pkg := ⟨0x080, 13, 13⟩ -- R217
def PLS_CFG_EN : Fld .pkg := ⟨0x080, 14, 14⟩ -- R217
def PLS_CFG_WIDTH : Fld .pkg := ⟨0x080, 23, 16⟩ -- R217
def PLS_CFG_GAP : Fld .pkg := ⟨0x080, 31, 24⟩ -- R217
def PLS_K : Fld .pkg := ⟨0x081, 31, 0⟩ -- R217
def PLS_BACKLOG : Fld .pkg := ⟨0x082, 31, 0⟩ -- R217
def PLS_STAT_RESQ : Fld .pkg := ⟨0x083, 15, 0⟩ -- R217
def PLS_STAT_BL_EVT : Fld .pkg := ⟨0x083, 16, 16⟩ -- R217
def PLS_STAT_BL_FULL : Fld .pkg := ⟨0x083, 17, 17⟩ -- R217
def PLS_STAT_CUT : Fld .pkg := ⟨0x083, 18, 18⟩ -- R217
def PLS_STAT_ALIGN_LOST : Fld .pkg := ⟨0x083, 19, 19⟩ -- R217
def PLS_STAT_CLR : Fld .pkg := ⟨0x083, 23, 23⟩ -- R217
def PLS_STAT_KEY : Fld .pkg := ⟨0x083, 31, 24⟩ -- R217
def TALLY_CFG_A_EN : Fld .pkg := ⟨0x090, 0, 0⟩ -- R224
def TALLY_CFG_A_PULLUP : Fld .pkg := ⟨0x090, 1, 1⟩ -- R224
def TALLY_CFG_A_FAST : Fld .pkg := ⟨0x090, 2, 2⟩ -- R224
def TALLY_CFG_A_EDGE : Fld .pkg := ⟨0x090, 3, 3⟩ -- R224
def TALLY_CFG_A_DEB : Fld .pkg := ⟨0x090, 15, 8⟩ -- R224
def TALLY_CFG_B_EN : Fld .pkg := ⟨0x091, 0, 0⟩ -- R224
def TALLY_CFG_B_PULLUP : Fld .pkg := ⟨0x091, 1, 1⟩ -- R224
def TALLY_CFG_B_FAST : Fld .pkg := ⟨0x091, 2, 2⟩ -- R224
def TALLY_CFG_B_EDGE : Fld .pkg := ⟨0x091, 3, 3⟩ -- R224
def TALLY_CFG_B_DEB : Fld .pkg := ⟨0x091, 15, 8⟩ -- R224
def CNT_A_0 : Fld .pkg := ⟨0x092, 31, 0⟩ -- R224
def CNT_A_1 : Fld .pkg := ⟨0x093, 15, 0⟩ -- R224
def CNT_B_0 : Fld .pkg := ⟨0x094, 31, 0⟩ -- R224
def CNT_B_1 : Fld .pkg := ⟨0x095, 15, 0⟩ -- R224
def TALLY_STAT_LVL_A : Fld .pkg := ⟨0x096, 0, 0⟩ -- R224
def TALLY_STAT_LVL_B : Fld .pkg := ⟨0x096, 1, 1⟩ -- R224
def TALLY_CTL_CLR_A : Fld .pkg := ⟨0x097, 0, 0⟩ -- R224
def TALLY_CTL_CLR_B : Fld .pkg := ⟨0x097, 1, 1⟩ -- R224
def TALLY_CTL_KEY : Fld .pkg := ⟨0x097, 15, 8⟩ -- R224
def RUN_CTL_CH : Fld .pkg := ⟨0x098, 5, 0⟩ -- R224
def RUN_CTL_INPUT : Fld .pkg := ⟨0x098, 6, 6⟩ -- R224
def RUN_CTL_NEG : Fld .pkg := ⟨0x098, 7, 7⟩ -- R224
def RUN_CTL_OPEN : Fld .pkg := ⟨0x098, 8, 8⟩ -- R224
def RUN_CTL_CLOSE : Fld .pkg := ⟨0x098, 9, 9⟩ -- R224
def RUN_CTL_ABORT : Fld .pkg := ⟨0x098, 10, 10⟩ -- R224
def RUN_KINT : Fld .pkg := ⟨0x099, 31, 0⟩ -- R224
def RUN_KFRAC : Fld .pkg := ⟨0x09A, 15, 0⟩ -- R224
def RUN_TARGET : Fld .pkg := ⟨0x09B, 31, 0⟩ -- R224
def RUN_STAT_STATE : Fld .pkg := ⟨0x09C, 2, 0⟩ -- R224
def RUN_STAT_CODE : Fld .pkg := ⟨0x09C, 7, 4⟩ -- R224
def RUN_STAT_DONE_EVT : Fld .pkg := ⟨0x09C, 8, 8⟩ -- R224
def RUN_STAT_REFUSE_EVT : Fld .pkg := ⟨0x09C, 9, 9⟩ -- R224
def RUN_PULSES : Fld .pkg := ⟨0x09D, 31, 0⟩ -- R224
def RUN_RATIO : Fld .pkg := ⟨0x09E, 31, 0⟩ -- R224
def RUN_FRAMES : Fld .pkg := ⟨0x09F, 31, 0⟩ -- R224
def LEDGER_E0 : Fld .pkg := ⟨0x0A0, 31, 0⟩ -- R429
def LEDGER_E1 : Fld .pkg := ⟨0x0A1, 31, 0⟩ -- R429
def LEDGER_E2 : Fld .pkg := ⟨0x0A2, 31, 0⟩ -- R429
def LEDGER_E3 : Fld .pkg := ⟨0x0A3, 31, 0⟩ -- R429
def LEDGER_STAT_COUNT : Fld .pkg := ⟨0x0A4, 6, 0⟩ -- R429
def LEDGER_STAT_RD : Fld .pkg := ⟨0x0A4, 13, 8⟩ -- R429
def LEDGER_STAT_WR : Fld .pkg := ⟨0x0A4, 21, 16⟩ -- R429
def LEDGER_STAT_BACK_OK : Fld .pkg := ⟨0x0A4, 24, 24⟩ -- R429
def LEDGER_STAT_FULL : Fld .pkg := ⟨0x0A4, 25, 25⟩ -- R429
def LEDGER_DROPPED : Fld .pkg := ⟨0x0A5, 15, 0⟩ -- R429
def LEDGER_NEXT_SEQ : Fld .pkg := ⟨0x0A5, 31, 16⟩ -- R429
def LEDGER_CTL_REREAD : Fld .pkg := ⟨0x0A6, 0, 0⟩ -- R429
def LEDGER_CTL_FLUSH : Fld .pkg := ⟨0x0A6, 1, 1⟩ -- R429
def LEDGER_CTL_CLR_OVF : Fld .pkg := ⟨0x0A6, 2, 2⟩ -- R429
def LEDGER_CTL_KEY : Fld .pkg := ⟨0x0A6, 15, 8⟩ -- R429
def OTP_CMD_CMD : Fld .pkg := ⟨0x0B0, 3, 0⟩ -- R356
def OTP_CMD_DIE : Fld .pkg := ⟨0x0B0, 6, 4⟩ -- R356
def OTP_CMD_FORCE : Fld .pkg := ⟨0x0B0, 7, 7⟩ -- R356
def OTP_CMD_REGION : Fld .pkg := ⟨0x0B0, 9, 8⟩ -- R356
def OTP_CMD_KEY : Fld .pkg := ⟨0x0B0, 23, 16⟩ -- R356
def OTP_ADDR : Fld .pkg := ⟨0x0B1, 8, 0⟩ -- R356
def OTP_DATA : Fld .pkg := ⟨0x0B2, 31, 0⟩ -- R356
def OTP_STAT_BUSY : Fld .pkg := ⟨0x0B3, 0, 0⟩ -- R356
def OTP_STAT_RESULT : Fld .pkg := ⟨0x0B3, 2, 1⟩ -- R356
def OTP_STAT_REFUSE : Fld .pkg := ⟨0x0B3, 7, 4⟩ -- R356
def OTP_STAT_LETS : Fld .pkg := ⟨0x0B3, 11, 8⟩ -- R356
def OTP_STAT_LAST_DIE : Fld .pkg := ⟨0x0B3, 14, 12⟩ -- R356
def OTP_STAT_ABORTED : Fld .pkg := ⟨0x0B3, 15, 15⟩ -- R356
def OTP_STAT_DONE_EVT : Fld .pkg := ⟨0x0B3, 16, 16⟩ -- R356
def OTP_STAT_REFUSE_EVT : Fld .pkg := ⟨0x0B3, 17, 17⟩ -- R356
def OTP_STAT_SEALED_INC : Fld .pkg := ⟨0x0B3, 18, 18⟩ -- R356
def OTP_STAT_MARGINAL : Fld .pkg := ⟨0x0B3, 19, 19⟩ -- R356
def OTP_STAT_DEGRADED : Fld .pkg := ⟨0x0B3, 20, 20⟩ -- R356
def OTP_RD_NORM : Fld .pkg := ⟨0x0B4, 31, 0⟩ -- R356
def OTP_RD_LOW : Fld .pkg := ⟨0x0B5, 31, 0⟩ -- R356
def OTP_RD_HIGH : Fld .pkg := ⟨0x0B6, 31, 0⟩ -- R356
def OTP_RD_CHK_CHK_NORM : Fld .pkg := ⟨0x0B7, 6, 0⟩ -- R356
def OTP_RD_CHK_CHK_LOW : Fld .pkg := ⟨0x0B7, 14, 8⟩ -- R356
def OTP_RD_CHK_CHK_HIGH : Fld .pkg := ⟨0x0B7, 22, 16⟩ -- R356
def OTP_RD_CHK_SYNDROME : Fld .pkg := ⟨0x0B7, 29, 24⟩ -- R356
def OTP_RD_CHK_UNCORR : Fld .pkg := ⟨0x0B7, 31, 31⟩ -- R356
def OTP_RD_DEC : Fld .pkg := ⟨0x0B8, 31, 0⟩ -- R356
def RESUME_CTL_POLICY : Fld .pkg := ⟨0x0C0, 0, 0⟩ -- R405
def RESUME_CTL_LOCK_WAIT : Fld .pkg := ⟨0x0C0, 1, 1⟩ -- R405
def RESUME_CTL_LOCK_TMO : Fld .pkg := ⟨0x0C0, 15, 8⟩ -- R405
def RESUME_MAX_MAX_OUTAGE : Fld .pkg := ⟨0x0C1, 23, 0⟩ -- R405
def RESET_STAT_CAUSE : Fld .pkg := ⟨0x0C2, 3, 0⟩ -- R405
def RESET_STAT_LAST_STATE : Fld .pkg := ⟨0x0C2, 7, 4⟩ -- R405
def RESET_STAT_RESET_EVT : Fld .pkg := ⟨0x0C2, 8, 8⟩ -- R405
def RESET_STAT_STARTS : Fld .pkg := ⟨0x0C2, 31, 16⟩ -- R405
def RESUME_STAT_N_CONT : Fld .pkg := ⟨0x0C3, 6, 0⟩ -- R405
def RESUME_STAT_N_RESTART : Fld .pkg := ⟨0x0C3, 14, 8⟩ -- R405
def RESUME_STAT_N_ABORT : Fld .pkg := ⟨0x0C3, 22, 16⟩ -- R405
def RESUME_STAT_N_HELD : Fld .pkg := ⟨0x0C3, 30, 24⟩ -- R405
def RESUME_STAT_DONE : Fld .pkg := ⟨0x0C3, 31, 31⟩ -- R405
def RESUME_UNACC_0 : Fld .pkg := ⟨0x0C4, 31, 0⟩ -- R405
def RESUME_UNACC_1 : Fld .pkg := ⟨0x0C5, 31, 0⟩ -- R405
def RESUME_HELD_0 : Fld .pkg := ⟨0x0C6, 31, 0⟩ -- R405
def RESUME_HELD_1 : Fld .pkg := ⟨0x0C7, 31, 0⟩ -- R405
def RESUME_CMD_RELEASE_ALL : Fld .pkg := ⟨0x0C8, 0, 0⟩ -- R405
def RESUME_CMD_LOCK_TMO_EVT : Fld .pkg := ⟨0x0C8, 8, 8⟩ -- R405
def RESUME_CMD_KEY : Fld .pkg := ⟨0x0C8, 23, 16⟩ -- R405
def BATON_STAT_NVM_HOLDER : Fld .pkg := ⟨0x0D0, 3, 0⟩ -- R445
def BATON_STAT_OTP_DIE : Fld .pkg := ⟨0x0D0, 6, 4⟩ -- R445
def BATON_STAT_OTP_HELD : Fld .pkg := ⟨0x0D0, 7, 7⟩ -- R445
def BATON_STAT_BANK_HELD : Fld .pkg := ⟨0x0D0, 15, 8⟩ -- R445
def BATON_STAT_BENCH_HELD : Fld .pkg := ⟨0x0D0, 23, 16⟩ -- R445
def BATON_STAT_NVM_EXP_EVT : Fld .pkg := ⟨0x0D0, 24, 24⟩ -- R445
def BATON_STAT_BANK_EXP_EVT : Fld .pkg := ⟨0x0D0, 25, 25⟩ -- R445
def BATON_STAT_VBST_EXP_EVT : Fld .pkg := ⟨0x0D0, 26, 26⟩ -- R445
def BATON_STAT_OTP_EXP_EVT : Fld .pkg := ⟨0x0D0, 27, 27⟩ -- R445
def BATON_STAT_BENCH_EXP_EVT : Fld .pkg := ⟨0x0D0, 28, 28⟩ -- R445
def LINK_STAT_UP : Fld .pkg := ⟨0x0D1, 7, 0⟩ -- R34
def LINK_STAT_SILENT : Fld .pkg := ⟨0x0D1, 15, 8⟩ -- R34
def LINK_STAT_BENCHED : Fld .pkg := ⟨0x0D1, 23, 16⟩ -- R34
def LINK_STAT_RETRY : Fld .pkg := ⟨0x0D1, 31, 24⟩ -- R34
def RECOV_STAT_LAST_DIE : Fld .pkg := ⟨0x0D2, 2, 0⟩ -- R446
def RECOV_STAT_LAST_CAUSE : Fld .pkg := ⟨0x0D2, 6, 3⟩ -- R446
def RECOV_STAT_IN_RECOVERY : Fld .pkg := ⟨0x0D2, 15, 8⟩ -- R446
def RECOV_STAT_REC_EVT : Fld .pkg := ⟨0x0D2, 16, 16⟩ -- R446
def RECOV_STAT_BENCH_EVT : Fld .pkg := ⟨0x0D2, 17, 17⟩ -- R446
def RECOV_STAT_LEAD_LOSSES : Fld .pkg := ⟨0x0D2, 31, 24⟩ -- R446
def FAULT_CFG_LEAD_HOLD : Fld .pkg := ⟨0x0D3, 15, 0⟩ -- R446
def FAULT_CFG_PKG_WDT : Fld .pkg := ⟨0x0D3, 23, 16⟩ -- R446
def FAULT_CFG_STABLE : Fld .pkg := ⟨0x0D3, 31, 24⟩ -- R446
def QUEUE_STAT_NVM_Q : Fld .pkg := ⟨0x0D4, 4, 0⟩ -- R446
def QUEUE_STAT_NVM_PEAK : Fld .pkg := ⟨0x0D4, 12, 8⟩ -- R446
def QUEUE_STAT_CLR_PEAK : Fld .pkg := ⟨0x0D4, 24, 24⟩ -- R446

/-! Fields of the die block. -/
def DIE_ID_INDEX : Fld .die := ⟨0x000, 2, 0⟩ -- R455
def DIE_ID_LEAD : Fld .die := ⟨0x000, 3, 3⟩ -- R455
def DIE_ID_REV : Fld .die := ⟨0x000, 15, 8⟩ -- R455
def DIE_ID_UID : Fld .die := ⟨0x000, 31, 16⟩ -- R455
def DIE_STAT_ACC_CLASS : Fld .die := ⟨0x001, 1, 0⟩ -- R456
def DIE_STAT_RUN : Fld .die := ⟨0x001, 2, 2⟩ -- R456
def DIE_STAT_CACHE_OK : Fld .die := ⟨0x001, 3, 3⟩ -- R456
def DIE_STAT_CH_HUSK : Fld .die := ⟨0x001, 15, 8⟩ -- R456
def DIE_TEMP_TEMP : Fld .die := ⟨0x002, 11, 0⟩ -- R457
def DIE_TEMP_TEMP_MAX : Fld .die := ⟨0x002, 27, 16⟩ -- R457
def BTEMP_CFG_BETA : Fld .die := ⟨0x004, 15, 0⟩ -- R192
def BTEMP_CFG_RNOM : Fld .die := ⟨0x004, 31, 16⟩ -- R192
def BTEMP_RD_T : Fld .die := ⟨0x005, 15, 0⟩ -- R192
def BTEMP_RD_OPEN : Fld .die := ⟨0x005, 16, 16⟩ -- R192
def BTEMP_RD_SHORT : Fld .die := ⟨0x005, 17, 17⟩ -- R192
def BENCH_CTL_EN : Fld .die := ⟨0x010, 0, 0⟩ -- R128
def BENCH_CTL_FORCE : Fld .die := ⟨0x010, 1, 1⟩ -- R128
def BENCH_CTL_QUEUE : Fld .die := ⟨0x010, 2, 2⟩ -- R128
def BENCH_CTL_FORCE_CH : Fld .die := ⟨0x010, 5, 3⟩ -- R128
def BENCH_CFG_PERIOD : Fld .die := ⟨0x011, 15, 0⟩ -- R128
def BENCH_CFG_TSELF : Fld .die := ⟨0x011, 31, 16⟩ -- R128
def BENCH_TIME_OVL : Fld .die := ⟨0x012, 15, 0⟩ -- R128
def BENCH_TIME_HOLD : Fld .die := ⟨0x012, 31, 16⟩ -- R128
def BENCH_LIM_LIMIT : Fld .die := ⟨0x013, 15, 0⟩ -- R128
def BENCH_LIM_XTOL : Fld .die := ⟨0x013, 23, 16⟩ -- R128
def BENCH_LIM_OLIM : Fld .die := ⟨0x013, 31, 24⟩ -- R128
def BENCH_STAT_CH : Fld .die := ⟨0x014, 2, 0⟩ -- R128
def BENCH_STAT_PHASE : Fld .die := ⟨0x014, 5, 3⟩ -- R128
def BENCH_STAT_CUSTODY : Fld .die := ⟨0x014, 6, 6⟩ -- R128
def BENCH_STAT_DEFER : Fld .die := ⟨0x014, 7, 7⟩ -- R128
def BENCH_STAT_DONE_EVT : Fld .die := ⟨0x014, 8, 8⟩ -- R128
def BENCH_STAT_MIS_EVT : Fld .die := ⟨0x014, 9, 9⟩ -- R128
def BENCH_STAT_ABORT_EVT : Fld .die := ⟨0x014, 10, 10⟩ -- R128
def BENCH_STAT_FAIL : Fld .die := ⟨0x014, 11, 11⟩ -- R128
def BENCH_STAT_SAR_FAIL : Fld .die := ⟨0x014, 12, 12⟩ -- R128
def BENCH_STAT_LAST_OFS : Fld .die := ⟨0x014, 31, 16⟩ -- R128
def BENCH_MIS_I_MISMATCH : Fld .die := ⟨0x015, 7, 0⟩ -- R128
def BENCH_MIS_V_MISMATCH : Fld .die := ⟨0x015, 15, 8⟩ -- R128
def BENCH_REF_MODE : Fld .die := ⟨0x016, 0, 0⟩ -- R128
def BENCH_REF_INT : Fld .die := ⟨0x016, 1, 1⟩ -- R128
def BENCH_REF_VREFX_BAD : Fld .die := ⟨0x016, 2, 2⟩ -- R128
def BENCH_REF_SW_EVT : Fld .die := ⟨0x016, 3, 3⟩ -- R128
def BENCH_REF_VREFX_RD : Fld .die := ⟨0x016, 31, 16⟩ -- R128
def REF_RATIO : Fld .die := ⟨0x017, 31, 0⟩ -- R128
def BENCH_DRIFT_I_DRIFT : Fld .die := ⟨0x018, 15, 0⟩ -- R128
def BENCH_DRIFT_V_DRIFT : Fld .die := ⟨0x018, 31, 16⟩ -- R128
def VALVE_CFG_IPEAK : Fld .die := ⟨0x020, 6, 0⟩ -- R294
def VALVE_CFG_IHOLD : Fld .die := ⟨0x020, 14, 8⟩ -- R294
def VALVE_CFG_TPULL : Fld .die := ⟨0x020, 23, 16⟩ -- R294
def VALVE_CFG_TREACH : Fld .die := ⟨0x020, 31, 24⟩ -- R294
def VALVE_MODE_CLAMP : Fld .die := ⟨0x021, 1, 0⟩ -- R294
def VALVE_MODE_POLICY : Fld .die := ⟨0x021, 2, 2⟩ -- R294
def VALVE_MODE_EN : Fld .die := ⟨0x021, 3, 3⟩ -- R294
def VALVE_REQ_KIND : Fld .die := ⟨0x022, 1, 0⟩ -- R294
def VALVE_REQ_NOW : Fld .die := ⟨0x022, 2, 2⟩ -- R294
def VALVE_AT : Fld .die := ⟨0x023, 31, 0⟩ -- R294
def VALVE_STAT_PHASE : Fld .die := ⟨0x030, 2, 0⟩ -- R294
def VALVE_STAT_PENDING : Fld .die := ⟨0x030, 3, 3⟩ -- R294
def VALVE_STAT_REF_CODE : Fld .die := ⟨0x030, 7, 4⟩ -- R294
def VALVE_STAT_VBST_NODE : Fld .die := ⟨0x030, 8, 8⟩ -- R294
def VALVE_STAT_CFG_BAD : Fld .die := ⟨0x030, 9, 9⟩ -- R294
def VALVE_STAT_IMEAS : Fld .die := ⟨0x030, 23, 16⟩ -- R294
def VALVE_STAT_OPEN : Fld .die := ⟨0x030, 24, 24⟩ -- R294
def VALVE_STAT_SHORT : Fld .die := ⟨0x030, 25, 25⟩ -- R294
def VALVE_STAT_SLOW : Fld .die := ⟨0x030, 26, 26⟩ -- R294
def VALVE_STAT_BOOST_NR : Fld .die := ⟨0x030, 27, 27⟩ -- R294
def VALVE_STAT_STORE_LOW : Fld .die := ⟨0x030, 28, 28⟩ -- R294
def VALVE_STAT_REFUSED : Fld .die := ⟨0x030, 30, 30⟩ -- R294
def VALVE_BANK_SRC : Fld .die := ⟨0x034, 1, 0⟩ -- R294
def VALVE_BANK_PULLING : Fld .die := ⟨0x034, 2, 2⟩ -- R294
def VALVE_BANK_PULL_K : Fld .die := ⟨0x034, 4, 3⟩ -- R294
def VALVE_BANK_HOLDS : Fld .die := ⟨0x034, 7, 5⟩ -- R294
def VALVE_BANK_QUEUED : Fld .die := ⟨0x034, 11, 8⟩ -- R294
def VALVE_BANK_CLAMP_OT : Fld .die := ⟨0x034, 16, 16⟩ -- R294
def VALVE_CNT_REFUSALS : Fld .die := ⟨0x035, 15, 0⟩ -- R294
def VALVE_CNT_DEFERRALS : Fld .die := ⟨0x035, 31, 16⟩ -- R294
def OTP_DSTAT_TRIM_ST : Fld .die := ⟨0x040, 2, 0⟩ -- R357
def OTP_DSTAT_ID_ST : Fld .die := ⟨0x040, 5, 3⟩ -- R357
def OTP_DSTAT_PATCH_ST : Fld .die := ⟨0x040, 8, 6⟩ -- R357
def OTP_DSTAT_CUST_ST : Fld .die := ⟨0x040, 11, 9⟩ -- R357
def OTP_DSTAT_TRIM_FB : Fld .die := ⟨0x040, 12, 12⟩ -- R357
def OTP_DSTAT_MARGINAL : Fld .die := ⟨0x040, 13, 13⟩ -- R357
def OTP_DSTAT_CORRECTED : Fld .die := ⟨0x040, 14, 14⟩ -- R357
def OTP_DSTAT_MARG_ADDR : Fld .die := ⟨0x040, 24, 16⟩ -- R357
def OTP_DSTAT_MARG_CNT : Fld .die := ⟨0x040, 31, 25⟩ -- R357
def PATCH_STAT_COUNT : Fld .die := ⟨0x041, 6, 0⟩ -- R357
def PATCH_STAT_APPLIED : Fld .die := ⟨0x041, 14, 8⟩ -- R357
def PATCH_STAT_OUTCOME : Fld .die := ⟨0x041, 18, 16⟩ -- R357
def OTP_DBAD_BAD_ADDR : Fld .die := ⟨0x042, 8, 0⟩ -- R357
def OTP_DBAD_BAD_CNT : Fld .die := ⟨0x042, 24, 16⟩ -- R357
def DIE_WDT_CAUSE : Fld .die := ⟨0x050, 2, 0⟩ -- R447
def DIE_WDT_STALLS : Fld .die := ⟨0x050, 15, 8⟩ -- R447
def DIE_WDT_RECOVERIES : Fld .die := ⟨0x050, 23, 16⟩ -- R447
def DIE_WDT_FAILS : Fld .die := ⟨0x050, 25, 24⟩ -- R447
def TRACE_PTR_WR : Fld .die := ⟨0x060, 10, 0⟩ -- R253
def TRACE_PTR_RD : Fld .die := ⟨0x060, 26, 16⟩ -- R253
def TRACE_COUNT : Fld .die := ⟨0x061, 11, 0⟩ -- R253
def TRACE_DROP : Fld .die := ⟨0x062, 31, 0⟩ -- R253
def TRACE_CFG_STEP_ONLY : Fld .die := ⟨0x063, 0, 0⟩ -- R253
def TRACE_CFG_FULL_EVT : Fld .die := ⟨0x063, 1, 1⟩ -- R253
def SNAP_SLOT_00 : Fld .die := ⟨0x100, 31, 0⟩ -- R160
def SNAP_SLOT_01 : Fld .die := ⟨0x101, 31, 0⟩ -- R160
def SNAP_SLOT_02 : Fld .die := ⟨0x102, 31, 0⟩ -- R160
def SNAP_SLOT_03 : Fld .die := ⟨0x103, 31, 0⟩ -- R160
def SNAP_SLOT_04 : Fld .die := ⟨0x104, 31, 0⟩ -- R160
def SNAP_SLOT_05 : Fld .die := ⟨0x105, 31, 0⟩ -- R160
def SNAP_SLOT_06 : Fld .die := ⟨0x106, 31, 0⟩ -- R160
def SNAP_SLOT_07 : Fld .die := ⟨0x107, 31, 0⟩ -- R160
def SNAP_SLOT_08 : Fld .die := ⟨0x108, 31, 0⟩ -- R160
def SNAP_SLOT_09 : Fld .die := ⟨0x109, 31, 0⟩ -- R160
def SNAP_SLOT_0A : Fld .die := ⟨0x10A, 31, 0⟩ -- R160
def SNAP_SLOT_0B : Fld .die := ⟨0x10B, 31, 0⟩ -- R160
def SNAP_SLOT_0C : Fld .die := ⟨0x10C, 31, 0⟩ -- R160
def SNAP_SLOT_0D : Fld .die := ⟨0x10D, 31, 0⟩ -- R160
def SNAP_SLOT_0E : Fld .die := ⟨0x10E, 31, 0⟩ -- R160
def SNAP_SLOT_0F : Fld .die := ⟨0x10F, 31, 0⟩ -- R160
def SNAP_SLOT_10 : Fld .die := ⟨0x110, 31, 0⟩ -- R160
def SNAP_SLOT_11 : Fld .die := ⟨0x111, 31, 0⟩ -- R160
def SNAP_SLOT_12 : Fld .die := ⟨0x112, 31, 0⟩ -- R160
def SNAP_SLOT_13 : Fld .die := ⟨0x113, 31, 0⟩ -- R160
def SNAP_SLOT_14 : Fld .die := ⟨0x114, 31, 0⟩ -- R160
def SNAP_SLOT_15 : Fld .die := ⟨0x115, 31, 0⟩ -- R160
def SNAP_SLOT_GEN : Fld .die := ⟨0x116, 15, 0⟩ -- R160
def SNAP_SLOT_VALID : Fld .die := ⟨0x116, 16, 16⟩ -- R160
def SNAP_SLOT_RANGE : Fld .die := ⟨0x116, 17, 17⟩ -- R160
def SNAP_SLOT_DIR : Fld .die := ⟨0x116, 19, 18⟩ -- R160
def SNAP_SLOT_FRAME : Fld .die := ⟨0x117, 31, 0⟩ -- R160
def SNAP_SLOT_ANGLE : Fld .die := ⟨0x118, 31, 0⟩ -- R160
def SNAP_SLOT_LCOUNT : Fld .die := ⟨0x119, 31, 0⟩ -- R160

/-! Fields of the channel block. -/
def CH_CTL_MODE : Fld .ch := ⟨0x000, 2, 0⟩ -- R87
def CH_CTL_OVR : Fld .ch := ⟨0x000, 3, 3⟩ -- R87
def CH_CTL_OVR_MODE : Fld .ch := ⟨0x000, 6, 4⟩ -- R87
def CH_CTL_HSTOP : Fld .ch := ⟨0x000, 8, 8⟩ -- R87
def CH_STAT_ACTIVE : Fld .ch := ⟨0x001, 0, 0⟩ -- R87
def CH_STAT_LOOP : Fld .ch := ⟨0x001, 2, 1⟩ -- R87
def CH_STAT_ILIM_ACT : Fld .ch := ⟨0x001, 3, 3⟩ -- R87
def CH_STAT_SAT : Fld .ch := ⟨0x001, 4, 4⟩ -- R87
def CH_STAT_SKIP : Fld .ch := ⟨0x001, 5, 5⟩ -- R87
def CH_STAT_SLEWING : Fld .ch := ⟨0x001, 6, 6⟩ -- R87
def CH_STAT_CV_EVT : Fld .ch := ⟨0x001, 8, 8⟩ -- R87
def CH_STAT_ENGINE : Fld .ch := ⟨0x001, 19, 16⟩ -- R252
def CH_STAT_REDUCED : Fld .ch := ⟨0x001, 20, 20⟩ -- R252
def CH_STAT_STEP_EVT : Fld .ch := ⟨0x001, 21, 21⟩ -- R252
def CH_STAT_END_EVT : Fld .ch := ⟨0x001, 22, 22⟩ -- R252
def CH_STAT_PASS : Fld .ch := ⟨0x001, 23, 23⟩ -- R252
def CH_STAT_FAIL : Fld .ch := ⟨0x001, 24, 24⟩ -- R252
def CH_STAT_SUSP_CAUSE : Fld .ch := ⟨0x001, 26, 25⟩ -- R252
def CH_FAULT_OCP : Fld .ch := ⟨0x002, 0, 0⟩ -- R94
def CH_FAULT_OVP : Fld .ch := ⟨0x002, 1, 1⟩ -- R94
def CH_FAULT_RVP : Fld .ch := ⟨0x002, 2, 2⟩ -- R94
def CH_FAULT_CONTACT : Fld .ch := ⟨0x002, 3, 3⟩ -- R94
def CH_FAULT_HSTOP : Fld .ch := ⟨0x002, 4, 4⟩ -- R94
def CH_FAULT_BOOT_UV : Fld .ch := ⟨0x002, 8, 8⟩ -- R94
def CH_FAULT_VDRV_UV : Fld .ch := ⟨0x002, 9, 9⟩ -- R94
def CH_FAULT_BUS_OV : Fld .ch := ⟨0x002, 10, 10⟩ -- R94
def CH_FAULT_FIRST : Fld .ch := ⟨0x002, 19, 16⟩ -- R94
def CH_LEASE_PRIO : Fld .ch := ⟨0x003, 3, 0⟩ -- R268
def CH_LEASE_LSTATE : Fld .ch := ⟨0x003, 6, 4⟩ -- R268
def CH_LEASE_DEMAND : Fld .ch := ⟨0x003, 31, 16⟩ -- R268
def CH_STEP_STEP : Fld .ch := ⟨0x004, 7, 0⟩ -- R252
def CH_STEP_RECIPE : Fld .ch := ⟨0x004, 11, 8⟩ -- R252
def CH_STEP_LAST_TERM : Fld .ch := ⟨0x004, 23, 16⟩ -- R252
def CH_STEP_LAST_SLOT : Fld .ch := ⟨0x004, 26, 24⟩ -- R252
def CH_STEP_NO_RECIPE : Fld .ch := ⟨0x004, 27, 27⟩ -- R252
def CH_STEP_RETRY : Fld .ch := ⟨0x004, 31, 28⟩ -- R252
def CH_STEP_TIME : Fld .ch := ⟨0x005, 31, 0⟩ -- R252
def CH_SEQ_RECIPE : Fld .ch := ⟨0x006, 3, 0⟩ -- R252
def CH_SEQ_AUTO : Fld .ch := ⟨0x006, 4, 4⟩ -- R252
def CH_SEQ_START : Fld .ch := ⟨0x006, 8, 8⟩ -- R252
def CH_SEQ_HALT : Fld .ch := ⟨0x006, 9, 9⟩ -- R252
def CH_SEQ_RELEASE : Fld .ch := ⟨0x006, 10, 10⟩ -- R252
def CH_SEQ_SKIP : Fld .ch := ⟨0x006, 11, 11⟩ -- R252
def CH_SEQ_ABORT : Fld .ch := ⟨0x006, 12, 12⟩ -- R252
def CH_SEAT_VALVE : Fld .ch := ⟨0x007, 4, 0⟩ -- R252
def CH_SEAT_EN : Fld .ch := ⟨0x007, 5, 5⟩ -- R252
def CH_SEAT_OFF : Fld .ch := ⟨0x007, 15, 8⟩ -- R252
def CH_SEAT_SETTLE : Fld .ch := ⟨0x007, 31, 16⟩ -- R252
def CH_ISET : Fld .ch := ⟨0x008, 31, 0⟩ -- R87
def CH_VSET : Fld .ch := ⟨0x009, 31, 0⟩ -- R87
def CH_PSET : Fld .ch := ⟨0x00A, 31, 0⟩ -- R87
def CH_ILIM : Fld .ch := ⟨0x00B, 31, 0⟩ -- R87
def CH_PROT_OCP_TH : Fld .ch := ⟨0x00C, 7, 0⟩ -- R92
def CH_PROT_OVP_TH : Fld .ch := ⟨0x00C, 19, 8⟩ -- R92
def CH_PROT_RVP_TH : Fld .ch := ⟨0x00C, 23, 20⟩ -- R92
def CH_COMPLY_VCOMPLY : Fld .ch := ⟨0x00D, 9, 0⟩ -- R91
def CH_COMPLY_VFLOOR : Fld .ch := ⟨0x00D, 25, 16⟩ -- R91
def CH_CONTACT_RLEAD : Fld .ch := ⟨0x00E, 15, 0⟩ -- R91
def CH_CONTACT_CT_N : Fld .ch := ⟨0x00E, 23, 16⟩ -- R91
def CH_CONTACT_CT_BLANK : Fld .ch := ⟨0x00E, 31, 24⟩ -- R91
def CH_CT_LIM_CT_DISC : Fld .ch := ⟨0x00F, 7, 0⟩ -- R91
def CH_CT_LIM_CT_DV : Fld .ch := ⟨0x00F, 15, 8⟩ -- R91
def CH_CT_LIM_CT_IMIN : Fld .ch := ⟨0x00F, 31, 16⟩ -- R91
def CH_I_FAST : Fld .ch := ⟨0x010, 31, 0⟩ -- R112
def CH_V_FAST : Fld .ch := ⟨0x011, 31, 0⟩ -- R112
def CH_I_PREC : Fld .ch := ⟨0x012, 31, 0⟩ -- R112
def CH_V_PREC : Fld .ch := ⟨0x013, 31, 0⟩ -- R112
def CH_PWM_PER : Fld .ch := ⟨0x014, 11, 0⟩ -- R74
def CH_PWM_PHASE : Fld .ch := ⟨0x014, 14, 12⟩ -- R74
def CH_PWM_TON_MIN : Fld .ch := ⟨0x014, 23, 16⟩ -- R74
def CH_PWM_TOFF_MIN : Fld .ch := ⟨0x014, 31, 24⟩ -- R74
def CH_DT_HL : Fld .ch := ⟨0x015, 10, 0⟩ -- R74
def CH_DT_LH : Fld .ch := ⟨0x015, 26, 16⟩ -- R74
def CH_IKP_MANT : Fld .ch := ⟨0x016, 15, 0⟩ -- R81
def CH_IKP_SHIFT : Fld .ch := ⟨0x016, 20, 16⟩ -- R81
def CH_IKI_MANT : Fld .ch := ⟨0x017, 15, 0⟩ -- R81
def CH_IKI_SHIFT : Fld .ch := ⟨0x017, 20, 16⟩ -- R81
def CH_VKP_MANT : Fld .ch := ⟨0x018, 15, 0⟩ -- R81
def CH_VKP_SHIFT : Fld .ch := ⟨0x018, 20, 16⟩ -- R81
def CH_VKI_MANT : Fld .ch := ⟨0x019, 15, 0⟩ -- R81
def CH_VKI_SHIFT : Fld .ch := ⟨0x019, 20, 16⟩ -- R81
def CH_PKI_MANT : Fld .ch := ⟨0x01A, 15, 0⟩ -- R81
def CH_PKI_SHIFT : Fld .ch := ⟨0x01A, 20, 16⟩ -- R81
def CH_SLEW : Fld .ch := ⟨0x01B, 23, 0⟩ -- R81
def CH_LOOPCFG_FF_EN : Fld .ch := ⟨0x01C, 0, 0⟩ -- R81
def CH_LOOPCFG_CP_TRIM_EN : Fld .ch := ⟨0x01C, 1, 1⟩ -- R81
def CH_DUTY : Fld .ch := ⟨0x01D, 16, 0⟩ -- R74
def CH_VFORCE : Fld .ch := ⟨0x01E, 9, 0⟩ -- R91
def CH_SENSE_RANGE_SEL : Fld .ch := ⟨0x01F, 0, 0⟩ -- R112
def CH_SENSE_RANGE : Fld .ch := ⟨0x01F, 1, 1⟩ -- R112
def CH_SENSE_CARRIER : Fld .ch := ⟨0x01F, 2, 2⟩ -- R112
def CH_SENSE_REF_INT : Fld .ch := ⟨0x01F, 3, 3⟩ -- R112
def CH_SENSE_UPRANGE_EVT : Fld .ch := ⟨0x01F, 8, 8⟩ -- R112
def CH_SENSE_OVLD_I : Fld .ch := ⟨0x01F, 9, 9⟩ -- R112
def CH_SENSE_OVLD_V : Fld .ch := ⟨0x01F, 10, 10⟩ -- R112
def RAWQ_IN_0 : Fld .ch := ⟨0x020, 31, 0⟩ -- R158
def RAWQ_IN_1 : Fld .ch := ⟨0x021, 31, 0⟩ -- R158
def RAWQ_OUT_0 : Fld .ch := ⟨0x022, 31, 0⟩ -- R158
def RAWQ_OUT_1 : Fld .ch := ⟨0x023, 31, 0⟩ -- R158
def RAWE_IN_0 : Fld .ch := ⟨0x024, 31, 0⟩ -- R158
def RAWE_IN_1 : Fld .ch := ⟨0x025, 31, 0⟩ -- R158
def RAWE_IN_2 : Fld .ch := ⟨0x026, 31, 0⟩ -- R158
def RAWE_OUT_0 : Fld .ch := ⟨0x027, 31, 0⟩ -- R158
def RAWE_OUT_1 : Fld .ch := ⟨0x028, 31, 0⟩ -- R158
def RAWE_OUT_2 : Fld .ch := ⟨0x029, 31, 0⟩ -- R158
def ACC_CTL_CLR : Fld .ch := ⟨0x02A, 0, 0⟩ -- R158
def ACC_CTL_CLR_KEY : Fld .ch := ⟨0x02A, 15, 8⟩ -- R158
def WINNOW_STAT_DIR : Fld .ch := ⟨0x02B, 1, 0⟩ -- R158
def WINNOW_STAT_CHAFF : Fld .ch := ⟨0x02B, 31, 8⟩ -- R158
def FRAME_STAT_FRAME_Q : Fld .ch := ⟨0x02C, 15, 0⟩ -- R158
def FRAME_STAT_FRAME_OUT : Fld .ch := ⟨0x02C, 16, 16⟩ -- R158
def FRAME_STAT_XFER : Fld .ch := ⟨0x02C, 17, 17⟩ -- R158
def KQ_EFF : Fld .ch := ⟨0x02D, 31, 0⟩ -- R158
def KV_EFF : Fld .ch := ⟨0x02E, 31, 0⟩ -- R158
def KE_EFF : Fld .ch := ⟨0x02F, 31, 0⟩ -- R158
def CALQ_IN_0 : Fld .ch := ⟨0x030, 31, 0⟩ -- R158
def CALQ_IN_1 : Fld .ch := ⟨0x031, 31, 0⟩ -- R158
def CALQ_OUT_0 : Fld .ch := ⟨0x032, 31, 0⟩ -- R158
def CALQ_OUT_1 : Fld .ch := ⟨0x033, 31, 0⟩ -- R158
def CALQ_NET_0 : Fld .ch := ⟨0x034, 31, 0⟩ -- R158
def CALQ_NET_1 : Fld .ch := ⟨0x035, 31, 0⟩ -- R158
def CALE_IN_0 : Fld .ch := ⟨0x036, 31, 0⟩ -- R158
def CALE_IN_1 : Fld .ch := ⟨0x037, 31, 0⟩ -- R158
def CALE_OUT_0 : Fld .ch := ⟨0x038, 31, 0⟩ -- R158
def CALE_OUT_1 : Fld .ch := ⟨0x039, 31, 0⟩ -- R158
def CALE_NET_0 : Fld .ch := ⟨0x03A, 31, 0⟩ -- R158
def CALE_NET_1 : Fld .ch := ⟨0x03B, 31, 0⟩ -- R158
def EFF_SHIFT_KQ_EFF_SH : Fld .ch := ⟨0x03C, 5, 0⟩ -- R158
def EFF_SHIFT_KV_EFF_SH : Fld .ch := ⟨0x03C, 13, 8⟩ -- R158
def EFF_SHIFT_KE_EFF_SH : Fld .ch := ⟨0x03C, 21, 16⟩ -- R158
def NETQ_FRAC : Fld .ch := ⟨0x03D, 31, 0⟩ -- R158
def NETE_FRAC : Fld .ch := ⟨0x03E, 31, 0⟩ -- R158
def CAL_CTL_APPLY : Fld .ch := ⟨0x03F, 0, 0⟩ -- R203
def CAL_CTL_BOTH : Fld .ch := ⟨0x03F, 1, 1⟩ -- R203
def CAL_CTL_FOLD : Fld .ch := ⟨0x03F, 2, 2⟩ -- R203
def CAL_CTL_KEY : Fld .ch := ⟨0x03F, 15, 8⟩ -- R203
def CAL_CTL_RUN_OK : Fld .ch := ⟨0x03F, 16, 16⟩ -- R203
def CAL_CTL_RUN_RANGE : Fld .ch := ⟨0x03F, 17, 17⟩ -- R203
def CAL_CTL_PIN_DUE : Fld .ch := ⟨0x03F, 18, 18⟩ -- R203
def CAL_CTL_APPLIED_EVT : Fld .ch := ⟨0x03F, 19, 19⟩ -- R203
def CAL_CTL_FOLDED_EVT : Fld .ch := ⟨0x03F, 20, 20⟩ -- R203
def CAL_CTL_REFUSE_EVT : Fld .ch := ⟨0x03F, 21, 21⟩ -- R203
def CAL_CTL_REFUSE : Fld .ch := ⟨0x03F, 27, 24⟩ -- R203
def KQ_H : Fld .ch := ⟨0x040, 31, 0⟩ -- R158
def KQ_L : Fld .ch := ⟨0x041, 31, 0⟩ -- R158
def KV : Fld .ch := ⟨0x042, 31, 0⟩ -- R158
def KE : Fld .ch := ⟨0x043, 31, 0⟩ -- R158
def K_SHIFT_KQ_H_SH : Fld .ch := ⟨0x044, 5, 0⟩ -- R158
def K_SHIFT_KQ_L_SH : Fld .ch := ⟨0x044, 13, 8⟩ -- R158
def K_SHIFT_KV_SH : Fld .ch := ⟨0x044, 21, 16⟩ -- R158
def K_SHIFT_KE_SH : Fld .ch := ⟨0x044, 29, 24⟩ -- R158
def OFS_I : Fld .ch := ⟨0x045, 31, 0⟩ -- R158
def OFS_V : Fld .ch := ⟨0x046, 31, 0⟩ -- R158
def TCR_CFG_ALPHA : Fld .ch := ⟨0x047, 15, 0⟩ -- R158
def TCR_CFG_T0 : Fld .ch := ⟨0x047, 24, 16⟩ -- R158
def WINNOW_HYST : Fld .ch := ⟨0x048, 15, 0⟩ -- R158
def EPOCH_STAT_CAUSE : Fld .ch := ⟨0x049, 6, 0⟩ -- R158
def EPOCH_STAT_KE_EXPL : Fld .ch := ⟨0x049, 8, 8⟩ -- R158
def EPOCH_STAT_CUT : Fld .ch := ⟨0x049, 9, 9⟩ -- R158
def EPOCH_STAT_OVF : Fld .ch := ⟨0x049, 10, 10⟩ -- R158
def EPOCH_STAT_TCR_HOLD : Fld .ch := ⟨0x049, 11, 11⟩ -- R158
def EPOCH_STAT_KBAD : Fld .ch := ⟨0x049, 12, 12⟩ -- R158
def EPOCH_COUNT : Fld .ch := ⟨0x04A, 31, 0⟩ -- R158
def EPOCH_FRAME : Fld .ch := ⟨0x04B, 31, 0⟩ -- R158
def GREF_IH : Fld .ch := ⟨0x04C, 31, 0⟩ -- R193
def GREF_IL : Fld .ch := ⟨0x04D, 31, 0⟩ -- R193
def GREF_V : Fld .ch := ⟨0x04E, 31, 0⟩ -- R193
def OREF_I : Fld .ch := ⟨0x04F, 15, 0⟩ -- R193
def OREF_V : Fld .ch := ⟨0x04F, 31, 16⟩ -- R193
def ACIR_CTL_M : Fld .ch := ⟨0x050, 7, 0⟩ -- R184
def ACIR_CTL_W : Fld .ch := ⟨0x050, 15, 8⟩ -- R184
def ACIR_CTL_AMP : Fld .ch := ⟨0x050, 26, 16⟩ -- R184
def ACIR_CTL_LEAD : Fld .ch := ⟨0x050, 28, 27⟩ -- R184
def ACIR_CTL_START : Fld .ch := ⟨0x050, 29, 29⟩ -- R184
def ACIR_CTL_ABORT : Fld .ch := ⟨0x050, 30, 30⟩ -- R184
def ACIR_CFG_DC_TOL : Fld .ch := ⟨0x051, 15, 0⟩ -- R184
def ACIR_CFG_QE_EN : Fld .ch := ⟨0x051, 16, 16⟩ -- R184
def ACIR_STAT_STATE : Fld .ch := ⟨0x052, 1, 0⟩ -- R184
def ACIR_STAT_HELD : Fld .ch := ⟨0x052, 2, 2⟩ -- R184
def ACIR_STAT_USABLE : Fld .ch := ⟨0x052, 3, 3⟩ -- R184
def ACIR_STAT_HOLD : Fld .ch := ⟨0x052, 4, 4⟩ -- R184
def ACIR_STAT_CLIP : Fld .ch := ⟨0x052, 5, 5⟩ -- R184
def ACIR_STAT_DCMOVE : Fld .ch := ⟨0x052, 6, 6⟩ -- R184
def ACIR_STAT_BENCH : Fld .ch := ⟨0x052, 7, 7⟩ -- R184
def ACIR_STAT_ENV : Fld .ch := ⟨0x052, 8, 8⟩ -- R184
def ACIR_STAT_RANGE : Fld .ch := ⟨0x052, 9, 9⟩ -- R184
def ACIR_STAT_LOWI : Fld .ch := ⟨0x052, 10, 10⟩ -- R184
def ACIR_STAT_SYNTH : Fld .ch := ⟨0x052, 11, 11⟩ -- R184
def ACIR_STAT_REFUSE : Fld .ch := ⟨0x052, 19, 16⟩ -- R184
def ACIR_STAT_ABORT_CODE : Fld .ch := ⟨0x052, 23, 20⟩ -- R184
def ACIR_STAT_DONE_EVT : Fld .ch := ⟨0x052, 24, 24⟩ -- R184
def ACIR_STAT_REFUSE_EVT : Fld .ch := ⟨0x052, 25, 25⟩ -- R184
def ACIR_STAT_ABORT_EVT : Fld .ch := ⟨0x052, 26, 26⟩ -- R184
def ACIR_R : Fld .ch := ⟨0x053, 31, 0⟩ -- R184
def ACIR_X : Fld .ch := ⟨0x054, 31, 0⟩ -- R184
def ACIR_Z : Fld .ch := ⟨0x055, 31, 0⟩ -- R184
def ACIR_PHASE : Fld .ch := ⟨0x056, 15, 0⟩ -- R184
def ACIR_PHASE_SEQ : Fld .ch := ⟨0x056, 31, 16⟩ -- R184
def ACIR_P : Fld .ch := ⟨0x057, 31, 0⟩ -- R184
def ACIR_Q : Fld .ch := ⟨0x058, 31, 0⟩ -- R184
def ACIR_S : Fld .ch := ⟨0x059, 31, 0⟩ -- R184
def ACIR_IAC : Fld .ch := ⟨0x05A, 31, 0⟩ -- R184
def ACIR_VAC : Fld .ch := ⟨0x05B, 31, 0⟩ -- R184
def ACIR_IDC : Fld .ch := ⟨0x05C, 31, 0⟩ -- R184
def ACIR_CLR : Fld .ch := ⟨0x05D, 0, 0⟩ -- R184
def ACIR_CLR_KEY : Fld .ch := ⟨0x05D, 15, 8⟩ -- R184
def ACIR_N : Fld .ch := ⟨0x05E, 23, 0⟩ -- R184
def CH_SLOT_OFS : Fld .ch := ⟨0x05F, 3, 0⟩ -- R459
def ACIR_EP_Q1 : Fld .ch := ⟨0x060, 31, 0⟩ -- R184
def ACIR_EP_Q2 : Fld .ch := ⟨0x061, 31, 0⟩ -- R184
def ACIR_EP_Q3 : Fld .ch := ⟨0x062, 31, 0⟩ -- R184
def ACIR_EP_Q4 : Fld .ch := ⟨0x063, 31, 0⟩ -- R184
def ACIR_EQ_Q1 : Fld .ch := ⟨0x064, 31, 0⟩ -- R184
def ACIR_EQ_Q2 : Fld .ch := ⟨0x065, 31, 0⟩ -- R184
def ACIR_EQ_Q3 : Fld .ch := ⟨0x066, 31, 0⟩ -- R184
def ACIR_EQ_Q4 : Fld .ch := ⟨0x067, 31, 0⟩ -- R184
def TWIN_CHG : Fld .ch := ⟨0x068, 31, 0⟩ -- R252
def TWIN_DSG : Fld .ch := ⟨0x069, 31, 0⟩ -- R252
def CH_NTC_TEMP : Fld .ch := ⟨0x06A, 15, 0⟩ -- R252
def CH_NTC_BAND : Fld .ch := ⟨0x06A, 18, 16⟩ -- R252
def CH_NTC_OPEN : Fld .ch := ⟨0x06A, 19, 19⟩ -- R252
def CH_NTC_SHORT : Fld .ch := ⟨0x06A, 20, 20⟩ -- R252
def CH_NTC_SET : Fld .ch := ⟨0x06A, 21, 21⟩ -- R252
def TWIN_RED_CHG_COOL : Fld .ch := ⟨0x06B, 7, 0⟩ -- R252
def TWIN_RED_CHG_WARM : Fld .ch := ⟨0x06B, 15, 8⟩ -- R252
def TWIN_RED_DSG_COOL : Fld .ch := ⟨0x06B, 23, 16⟩ -- R252
def TWIN_RED_DSG_WARM : Fld .ch := ⟨0x06B, 31, 24⟩ -- R252
def TWIN_VOFS_CHG_VOFS : Fld .ch := ⟨0x06C, 15, 0⟩ -- R252
def TWIN_VOFS_DSG_VOFS : Fld .ch := ⟨0x06C, 31, 16⟩ -- R252
def CH_SUSP_TIME : Fld .ch := ⟨0x06D, 31, 0⟩ -- R252
def CH_NTC_CFG_BETA : Fld .ch := ⟨0x06E, 14, 0⟩ -- R252
def CH_NTC_CFG_EN : Fld .ch := ⟨0x06E, 15, 15⟩ -- R252
def CH_NTC_CFG_RNOM : Fld .ch := ⟨0x06E, 31, 16⟩ -- R252
def CH_RESUME_SRC : Fld .ch := ⟨0x06F, 1, 0⟩ -- R406
def CH_RESUME_MODE : Fld .ch := ⟨0x06F, 3, 2⟩ -- R406
def CH_RESUME_HELD : Fld .ch := ⟨0x06F, 4, 4⟩ -- R406
def CH_RESUME_GEN_DIFF : Fld .ch := ⟨0x06F, 5, 5⟩ -- R406
def CH_RESUME_UNACC : Fld .ch := ⟨0x06F, 6, 6⟩ -- R406
def CH_RESUME_NO_RECORD : Fld .ch := ⟨0x06F, 7, 7⟩ -- R406
def CH_RESUME_OUTAGE : Fld .ch := ⟨0x06F, 31, 16⟩ -- R406
def PLS_RES0 : Fld .ch := ⟨0x070, 31, 0⟩ -- R218
def PLS_RES1 : Fld .ch := ⟨0x071, 31, 0⟩ -- R218
def PLS_RES2 : Fld .ch := ⟨0x072, 31, 0⟩ -- R218
def PLS_RES3 : Fld .ch := ⟨0x073, 31, 0⟩ -- R218
def GLEAN_PKT_0 : Fld .ch := ⟨0x074, 31, 0⟩ -- R336
def GLEAN_PKT_1 : Fld .ch := ⟨0x075, 15, 0⟩ -- R336
def GLEAN_LAST_PKT : Fld .ch := ⟨0x076, 31, 0⟩ -- R336
def GLEAN_LAST_CNT : Fld .ch := ⟨0x077, 31, 0⟩ -- R336
def GLEAN_RES : Fld .ch := ⟨0x078, 31, 0⟩ -- R336
def GLEAN_CFG_PUMP_EN : Fld .ch := ⟨0x079, 0, 0⟩ -- R336
def GLEAN_CFG_BOOK_EVT : Fld .ch := ⟨0x079, 8, 8⟩ -- R336
def GLEAN_CFG_BOOK_SKIP : Fld .ch := ⟨0x079, 9, 9⟩ -- R336

/-- Registers of the pkg block, part 0. -/
def pkgRows0 : List RegRow :=
  [⟨0x000, 1, 0, 0x0, 0x0, 0x0, 0x0, 0x0, 0x0, 0xFF0000⟩,
   ⟨0x001, 1, 0, 0x0, 0x0, 0x0, 0x0, 0x0, 0x0, 0xFF0000⟩,
   ⟨0x002, 1, 0, 0x0, 0x0, 0x0, 0x0, 0x0, 0x0, 0x0⟩,
   ⟨0x003, 1, 0, 0x77, 0x0, 0x0, 0x0, 0x0, 0x0, 0x0⟩,
   ⟨0x004, 1, 0, 0x0, 0x0, 0xFFF, 0x0, 0x0, 0x0, 0x0⟩,
   ⟨0x005, 1, 0, 0xFFFFFFFF, 0x0, 0x0, 0x0, 0x0, 0x0, 0x0⟩,
   ⟨0x006, 1, 0, 0x0, 0x0, 0x10000, 0x0, 0x0, 0x0, 0x0⟩,
   ⟨0x008, 1, 0, 0x1, 0x0, 0x0, 0xFF0E, 0x0, 0x0, 0x0⟩,
   ⟨0x009, 1, 0, 0x0, 0x0, 0x7E, 0x0, 0x0, 0x0, 0x0⟩,
   ⟨0x00A, 1, 0, 0x8, 0x0, 0x0, 0x7, 0x0, 0x0, 0x0⟩,
   ⟨0x00B, 1, 0, 0xFFFFFFFF, 0x0, 0x0, 0x0, 0x0, 0x0, 0x0⟩,
   ⟨0x00C, 1, 0, 0x0, 0x0, 0x1000000, 0x0, 0x0, 0x0, 0x0⟩,
   ⟨0x010, 1, 0, 0x0, 0x3F1, 0x0, 0x0, 0x0, 0x3F1, 0x0⟩,
   ⟨0x011, 1, 0, 0x0, 0xFFFFFFFF, 0x0, 0x0, 0x0, 0xFFFFFFFF, 0x0⟩,
   ⟨0x012, 1, 0, 0x0, 0x0, 0x700, 0x0, 0x0, 0x0, 0x0⟩,
   ⟨0x013, 1, 0, 0x0, 0x0, 0x0, 0x0, 0x0, 0x0, 0x0⟩,
   ⟨0x014, 1, 0, 0x0, 0x0, 0x0, 0x0, 0x0, 0x0, 0x0⟩,
   ⟨0x015, 1, 0, 0x0, 0x0, 0x0, 0x0, 0x0, 0x0, 0x0⟩,
   ⟨0x016, 1, 0, 0x0, 0x0, 0x0, 0x0, 0x0, 0x0, 0x0⟩,
   ⟨0x017, 1, 0, 0x0, 0x0, 0x0, 0x0, 0x0, 0x0, 0x0⟩,
   ⟨0x018, 1, 0, 0x0, 0x0, 0x0, 0x0, 0x0, 0x0, 0x0⟩,
   ⟨0x019, 1, 0, 0x0, 0x0, 0x0, 0x0, 0x0, 0x0, 0x0⟩,
   ⟨0x01A, 1, 0, 0x0, 0x0, 0x0, 0x1, 0x0, 0x0, 0x0⟩,
   ⟨0x01B, 1, 0, 0x0, 0x0, 0x0, 0x0, 0x0, 0x0, 0x0⟩,
   ⟨0x020, 1, 0, 0x0, 0xFFFFFFFF, 0x0, 0x0, 0x0, 0xFFFFFFFF, 0x0⟩,
   ⟨0x021, 1, 0, 0x0, 0xFFFFFFFF, 0x0, 0x0, 0x0, 0xFFFFFFFF, 0x0⟩,
   ⟨0x022, 1, 0, 0x0, 0xFF03, 0x0, 0x0, 0x0, 0xFF03, 0x0⟩,
   ⟨0x023, 1, 0, 0x0, 0x0, 0x0, 0x0, 0x0, 0x0, 0x0⟩,
   ⟨0x024, 1, 0, 0x0, 0x0, 0x0, 0x0, 0x0, 0x0, 0x0⟩,
   ⟨0x025, 1, 0, 0x0, 0x0, 0x0, 0x0, 0x0, 0x0, 0x0⟩,
   ⟨0x026, 1, 0, 0x0, 0x0, 0x80F0000, 0x0, 0x0, 0x0, 0x0⟩,
   ⟨0x027, 1, 0, 0x0, 0xFFFF0FFF, 0x0, 0x0, 0x0, 0xFFFF0FFF, 0x0⟩,
   ⟨0x028, 1, 0, 0x0, 0xFFFFFFFF, 0x0, 0x0, 0x0, 0xFFFFFFFF, 0x0⟩,
   ⟨0x029, 1, 0, 0x0, 0x0, 0x0, 0x0, 0x0, 0x0, 0x0⟩,
   ⟨0x02A, 1, 0, 0x0, 0x0, 0x0, 0x1000000, 0x0, 0x0, 0x0⟩,
   ⟨0x02B, 1, 0, 0x0, 0x0, 0x0, 0x0, 0x0, 0x0, 0x0⟩]

/-- Registers of the pkg block, part 1. -/
def pkgRows1 : List RegRow :=
  [⟨0x02C, 1, 0, 0x0, 0x0, 0x0, 0x0, 0x0, 0x0, 0x0⟩,
   ⟨0x02D, 1, 0, 0x0, 0x0, 0x0, 0x0, 0x0, 0x0, 0x0⟩,
   ⟨0x02E, 1, 0, 0x0, 0x0, 0x0, 0x0, 0x0, 0x0, 0x0⟩,
   ⟨0x02F, 1, 0, 0x0, 0x0, 0x0, 0x0, 0x0, 0x0, 0x0⟩,
   ⟨0x030, 1, 0, 0x0, 0xFFFF1F, 0x0, 0x0, 0x0, 0xFFFF1F, 0x0⟩,
   ⟨0x031, 1, 0, 0x0, 0xFFFF1F, 0x0, 0x0, 0x0, 0xFFFF1F, 0x0⟩,
   ⟨0x032, 1, 0, 0x0, 0x3FFFFF1F, 0x0, 0x0, 0x0, 0x3FFFFF1F, 0x0⟩,
   ⟨0x033, 1, 0, 0x7, 0x0, 0x0, 0x300, 0x0, 0x0, 0x0⟩,
   ⟨0x034, 1, 0, 0x0, 0x0, 0x107F00, 0x0, 0x0, 0x0, 0x0⟩,
   ⟨0x035, 1, 0, 0x0, 0x0, 0x0, 0x0, 0x0, 0x0, 0x0⟩,
   ⟨0x036, 1, 0, 0x0, 0x0, 0x0, 0x0, 0x0, 0x0, 0x0⟩,
   ⟨0x037, 1, 0, 0x0, 0x1FF01FF, 0x0, 0x0, 0x0, 0x1FF01FF, 0x0⟩,
   ⟨0x040, 1, 0, 0x0, 0xFFFF3F03, 0x0, 0x0, 0x0, 0xFFFF3F03, 0x0⟩,
   ⟨0x041, 1, 0, 0x0, 0xFFFFFFFF, 0x0, 0x0, 0x0, 0xFFFFFFFF, 0x0⟩,
   ⟨0x042, 1, 0, 0x0, 0xFF3FFF, 0x0, 0x0, 0x0, 0xFF3FFF, 0x0⟩,
   ⟨0x043, 1, 0, 0x0, 0xFFFF, 0x0, 0x0, 0x0, 0xFFFF, 0x0⟩,
   ⟨0x044, 1, 0, 0x0, 0xFFFF7FFF, 0x0, 0x0, 0x0, 0xFFFF7FFF, 0x0⟩,
   ⟨0x045, 1, 0, 0x0, 0x0, 0x2C00, 0x0, 0x0, 0x0, 0x0⟩,
   ⟨0x046, 1, 0, 0x0, 0x0, 0x0, 0x0, 0x0, 0x0, 0x0⟩,
   ⟨0x047, 1, 0, 0x0, 0xFFFFFFFF, 0x0, 0x0, 0x0, 0xFFFFFFFF, 0x0⟩,
   ⟨0x048, 1, 0, 0x0, 0xFFFFFFFF, 0x0, 0x0, 0x0, 0xFFFFFFFF, 0x0⟩,
   ⟨0x049, 1, 0, 0x0, 0x0, 0x0, 0x0, 0x0, 0x0, 0x0⟩,
   ⟨0x04A, 1, 0, 0x0, 0xFFFF, 0x0, 0x0, 0x0, 0xFFFF, 0x0⟩,
   ⟨0x04B, 1, 0, 0x0, 0x0, 0x0, 0x0, 0x0, 0x0, 0x0⟩,
   ⟨0x04C, 1, 0, 0x0, 0x0, 0x10000, 0xFF01, 0x60000, 0x0, 0x0⟩,
   ⟨0x04D, 1, 0, 0x0, 0xFFFF05FF, 0x0, 0x0, 0x0, 0xFFFF05FF, 0x0⟩,
   ⟨0x04E, 1, 0, 0x0, 0xFFFF, 0x0, 0x0, 0x0, 0xFFFF, 0x0⟩,
   ⟨0x04F, 1, 0, 0x0, 0x0, 0x80000, 0x0, 0xFFFF, 0x0, 0x0⟩,
   ⟨0x050, 8, 1, 0x0, 0x0, 0x0, 0x0, 0x0, 0x0, 0x0⟩,
   ⟨0x058, 1, 0, 0x0, 0x0, 0x0, 0x0, 0xFFFFFFFF, 0x0, 0x0⟩,
   ⟨0x059, 1, 0, 0x0, 0x0, 0x0, 0x0, 0xFFFF, 0x0, 0x0⟩,
   ⟨0x05A, 1, 0, 0x0, 0x0, 0x1, 0x0, 0x0, 0x0, 0x0⟩,
   ⟨0x05B, 1, 0, 0x0, 0x0, 0x0, 0x0, 0x0, 0x0, 0x0⟩,
   ⟨0x05C, 1, 0, 0x0, 0xFF06, 0x0, 0x0, 0x0, 0xFF06, 0x0⟩,
   ⟨0x05D, 1, 0, 0x0, 0x1F, 0x0, 0x0, 0x0, 0x1F, 0x0⟩,
   ⟨0x060, 1, 0, 0x0, 0x83FF03FF, 0x0, 0x0, 0x0, 0x83FF03FF, 0x0⟩]

/-- Registers of the pkg block, part 2. -/
def pkgRows2 : List RegRow :=
  [⟨0x061, 1, 0, 0x0, 0xFF, 0x0, 0x0, 0x0, 0xFF, 0x0⟩,
   ⟨0x062, 1, 0, 0x0, 0x0, 0x30000, 0x0, 0x0, 0x0, 0x0⟩,
   ⟨0x063, 1, 0, 0x0, 0xF0F, 0x0, 0x0, 0x0, 0xF0F, 0x0⟩,
   ⟨0x070, 1, 0, 0x0, 0x0, 0x0, 0xFF11FFFF, 0x0, 0x0, 0x0⟩,
   ⟨0x071, 1, 0, 0xFFFFFF, 0x0, 0x0, 0x0, 0x0, 0x0, 0x0⟩,
   ⟨0x072, 1, 0, 0x0, 0x0, 0x3000000, 0x0, 0x0, 0x0, 0x0⟩,
   ⟨0x073, 1, 0, 0x0, 0x0, 0x0, 0x0, 0x0, 0x0, 0x0⟩,
   ⟨0x074, 1, 0, 0x0, 0x1F, 0x0, 0x0, 0x0, 0x1F, 0x0⟩,
   ⟨0x075, 1, 0, 0x0, 0x0, 0x0, 0x0, 0x0, 0x0, 0x0⟩,
   ⟨0x076, 1, 0, 0x0, 0x0, 0x0, 0x0, 0x0, 0x0, 0x0⟩,
   ⟨0x077, 1, 0, 0x0, 0x0, 0x0, 0x0, 0x0, 0x0, 0x0⟩,
   ⟨0x078, 1, 0, 0x0, 0x0, 0x0, 0x0, 0x0, 0x0, 0x0⟩,
   ⟨0x079, 1, 0, 0x0, 0xFFFF, 0x0, 0x0, 0x0, 0xFFFF, 0x0⟩,
   ⟨0x07A, 1, 0, 0x0, 0x0, 0x0, 0xFF01, 0x0, 0x0, 0x0⟩,
   ⟨0x07B, 1, 0, 0x0, 0x0, 0x70000, 0x0, 0x0, 0x0, 0x0⟩,
   ⟨0x07C, 1, 0, 0x0, 0x0, 0x0, 0x0, 0x0, 0x0, 0x0⟩,
   ⟨0x07D, 1, 0, 0x0, 0x0, 0x0, 0xFF07FFFF, 0x0, 0x0, 0x0⟩,
   ⟨0x07E, 1, 0, 0x0, 0x0, 0x2000000, 0x0, 0x0, 0x0, 0x0⟩,
   ⟨0x080, 4, 4, 0x0, 0xFFFF7FFF, 0x0, 0x0, 0x0, 0xFFFF7FFF, 0x0⟩,
   ⟨0x081, 4, 4, 0x0, 0xFFFFFFFF, 0x0, 0x0, 0x0, 0xFFFFFFFF, 0x0⟩,
   ⟨0x082, 4, 4, 0x0, 0x0, 0x0, 0x0, 0xFFFFFFFF, 0x0, 0x0⟩,
   ⟨0x083, 4, 4, 0x0, 0x0, 0xF0000, 0xFF800000, 0x4FFFF, 0x0, 0x0⟩,
   ⟨0x090, 1, 0, 0x0, 0xFF0F, 0x0, 0x0, 0x0, 0xFF0F, 0x0⟩,
   ⟨0x091, 1, 0, 0x0, 0xFF0F, 0x0, 0x0, 0x0, 0xFF0F, 0x0⟩,
   ⟨0x092, 1, 0, 0x0, 0x0, 0x0, 0x0, 0xFFFFFFFF, 0x0, 0x0⟩,
   ⟨0x093, 1, 0, 0x0, 0x0, 0x0, 0x0, 0xFFFF, 0x0, 0x0⟩,
   ⟨0x094, 1, 0, 0x0, 0x0, 0x0, 0x0, 0xFFFFFFFF, 0x0, 0x0⟩,
   ⟨0x095, 1, 0, 0x0, 0x0, 0x0, 0x0, 0xFFFF, 0x0, 0x0⟩,
   ⟨0x096, 1, 0, 0x0, 0x0, 0x0, 0x0, 0x0, 0x0, 0x0⟩,
   ⟨0x097, 1, 0, 0x0, 0x0, 0x0, 0xFF03, 0x0, 0x0, 0x0⟩,
   ⟨0x098, 1, 0, 0xFF, 0x0, 0x0, 0x700, 0x0, 0x0, 0x0⟩,
   ⟨0x099, 1, 0, 0xFFFFFFFF, 0x0, 0x0, 0x0, 0x0, 0x0, 0x0⟩,
   ⟨0x09A, 1, 0, 0xFFFF, 0x0, 0x0, 0x0, 0x0, 0x0, 0x0⟩,
   ⟨0x09B, 1, 0, 0xFFFFFFFF, 0x0, 0x0, 0x0, 0x0, 0x0, 0x0⟩,
   ⟨0x09C, 1, 0, 0x0, 0x0, 0x300, 0x0, 0x0, 0x0, 0x0⟩,
   ⟨0x09D, 1, 0, 0x0, 0x0, 0x0, 0x0, 0x0, 0x0, 0x0⟩]

/-- Registers of the pkg block, part 3. -/
def pkgRows3 : List RegRow :=
  [⟨0x09E, 1, 0, 0x0, 0x0, 0x0, 0x0, 0x0, 0x0, 0x0⟩,
   ⟨0x09F, 1, 0, 0x0, 0x0, 0x0, 0x0, 0x0, 0x0, 0x0⟩,
   ⟨0x0A0, 1, 0, 0x0, 0x0, 0x0, 0x0, 0xFFFFFFFF, 0x0, 0x0⟩,
   ⟨0x0A1, 1, 0, 0x0, 0x0, 0x0, 0x0, 0xFFFFFFFF, 0x0, 0x0⟩,
   ⟨0x0A2, 1, 0, 0x0, 0x0, 0x0, 0x0, 0xFFFFFFFF, 0x0, 0x0⟩,
   ⟨0x0A3, 1, 0, 0x0, 0x0, 0x0, 0x0, 0xFFFFFFFF, 0x0, 0x0⟩,
   ⟨0x0A4, 1, 0, 0x0, 0x0, 0x0, 0x0, 0x23F3F7F, 0x0, 0x0⟩,
   ⟨0x0A5, 1, 0, 0x0, 0x0, 0x0, 0x0, 0xFFFFFFFF, 0x0, 0x0⟩,
   ⟨0x0A6, 1, 0, 0x0, 0x0, 0x0, 0xFF07, 0x0, 0x0, 0x0⟩,
   ⟨0x0B0, 1, 0, 0x0, 0x0, 0x0, 0xFF03FF, 0x0, 0x0, 0x0⟩,
   ⟨0x0B1, 1, 0, 0x1FF, 0x0, 0x0, 0x0, 0x0, 0x0, 0x0⟩,
   ⟨0x0B2, 1, 0, 0xFFFFFFFF, 0x0, 0x0, 0x0, 0x0, 0x0, 0x0⟩,
   ⟨0x0B3, 1, 0, 0x0, 0x0, 0x30000, 0x0, 0x80000, 0x0, 0x140000⟩,
   ⟨0x0B4, 1, 0, 0x0, 0x0, 0x0, 0x0, 0x0, 0x0, 0x0⟩,
   ⟨0x0B5, 1, 0, 0x0, 0x0, 0x0, 0x0, 0x0, 0x0, 0x0⟩,
   ⟨0x0B6, 1, 0, 0x0, 0x0, 0x0, 0x0, 0x0, 0x0, 0x0⟩,
   ⟨0x0B7, 1, 0, 0x0, 0x0, 0x0, 0x0, 0x0, 0x0, 0x0⟩,
   ⟨0x0B8, 1, 0, 0x0, 0x0, 0x0, 0x0, 0x0, 0x0, 0x0⟩,
   ⟨0x0C0, 1, 0, 0x0, 0xFF03, 0x0, 0x0, 0x0, 0xFF03, 0x0⟩,
   ⟨0x0C1, 1, 0, 0x0, 0xFFFFFF, 0x0, 0x0, 0x0, 0xFFFFFF, 0x0⟩,
   ⟨0x0C2, 1, 0, 0x0, 0x0, 0x100, 0x0, 0xFFFF0000, 0x0, 0x0⟩,
   ⟨0x0C3, 1, 0, 0x0, 0x0, 0x0, 0x0, 0x0, 0x0, 0x0⟩,
   ⟨0x0C4, 1, 0, 0x0, 0x0, 0x0, 0x0, 0x0, 0x0, 0x0⟩,
   ⟨0x0C5, 1, 0, 0x0, 0x0, 0x0, 0x0, 0x0, 0x0, 0x0⟩,
   ⟨0x0C6, 1, 0, 0x0, 0x0, 0x0, 0x0, 0x0, 0x0, 0x0⟩,
   ⟨0x0C7, 1, 0, 0x0, 0x0, 0x0, 0x0, 0x0, 0x0, 0x0⟩,
   ⟨0x0C8, 1, 0, 0x0, 0x0, 0x100, 0xFF0001, 0x0, 0x0, 0x0⟩,
   ⟨0x0D0, 1, 0, 0x0, 0x0, 0x1F000000, 0x0, 0x0, 0x0, 0x0⟩,
   ⟨0x0D1, 1, 0, 0x0, 0x0, 0xFF00, 0x0, 0x0, 0x0, 0x0⟩,
   ⟨0x0D2, 1, 0, 0x0, 0x0, 0x30000, 0x0, 0x0, 0x0, 0x0⟩,
   ⟨0x0D3, 1, 0, 0x0, 0xFFFFFFFF, 0x0, 0x0, 0x0, 0xFFFFFFFF, 0x0⟩,
   ⟨0x0D4, 1, 0, 0x0, 0x0, 0x0, 0x1000000, 0x0, 0x0, 0x0⟩]

/-- The registers of the pkg block. -/
def pkgRows : List RegRow := pkgRows0 ++ pkgRows1 ++ pkgRows2 ++ pkgRows3

/-- Registers of the die block, part 0. -/
def dieRows0 : List RegRow :=
  [⟨0x000, 1, 0, 0x0, 0x0, 0x0, 0x0, 0x0, 0x0, 0xFFFFFF00⟩,
   ⟨0x001, 1, 0, 0x0, 0x0, 0x0, 0x0, 0x0, 0x0, 0x0⟩,
   ⟨0x002, 1, 0, 0x0, 0x0, 0x0, 0x0, 0x0, 0x0, 0x0⟩,
   ⟨0x004, 1, 0, 0x0, 0xFFFFFFFF, 0x0, 0x0, 0x0, 0xFFFFFFFF, 0x0⟩,
   ⟨0x005, 1, 0, 0x0, 0x0, 0x0, 0x0, 0x0, 0x0, 0x0⟩,
   ⟨0x010, 1, 0, 0x0, 0x1, 0x0, 0x3E, 0x0, 0x1, 0x0⟩,
   ⟨0x011, 1, 0, 0x0, 0xFFFFFFFF, 0x0, 0x0, 0x0, 0xFFFFFFFF, 0x0⟩,
   ⟨0x012, 1, 0, 0x0, 0xFFFFFFFF, 0x0, 0x0, 0x0, 0xFFFFFFFF, 0x0⟩,
   ⟨0x013, 1, 0, 0x0, 0xFFFFFFFF, 0x0, 0x0, 0x0, 0xFFFFFFFF, 0x0⟩,
   ⟨0x014, 1, 0, 0x0, 0x0, 0x700, 0x0, 0x0, 0x0, 0x0⟩,
   ⟨0x015, 1, 0, 0x0, 0x0, 0x0, 0x0, 0x0, 0x0, 0x0⟩,
   ⟨0x016, 1, 0, 0x0, 0x1, 0x8, 0x0, 0x0, 0x1, 0x0⟩,
   ⟨0x017, 1, 0, 0x0, 0x0, 0x0, 0x0, 0x0, 0x0, 0x0⟩,
   ⟨0x018, 8, 1, 0x0, 0x0, 0x0, 0x0, 0xFFFFFFFF, 0x0, 0x0⟩,
   ⟨0x020, 4, 4, 0x0, 0xFFFF7F7F, 0x0, 0x0, 0x0, 0xFFFF7F7F, 0x0⟩,
   ⟨0x021, 4, 4, 0x0, 0xF, 0x0, 0x0, 0x0, 0xF, 0x0⟩,
   ⟨0x022, 4, 4, 0x0, 0x0, 0x0, 0x7, 0x0, 0x0, 0x0⟩,
   ⟨0x023, 4, 4, 0xFFFFFFFF, 0x0, 0x0, 0x0, 0x0, 0x0, 0x0⟩,
   ⟨0x030, 4, 1, 0x0, 0x0, 0x5F000000, 0x0, 0x0, 0x0, 0x0⟩,
   ⟨0x034, 1, 0, 0x0, 0x0, 0x0, 0x0, 0x0, 0x0, 0x0⟩,
   ⟨0x035, 1, 0, 0x0, 0x0, 0x0, 0x0, 0x0, 0x0, 0x0⟩,
   ⟨0x040, 1, 0, 0x0, 0x0, 0x2000, 0x0, 0x1FF2000, 0x0, 0xFE005FFF⟩,
   ⟨0x041, 1, 0, 0x0, 0x0, 0x0, 0x0, 0x0, 0x0, 0x77F7F⟩,
   ⟨0x042, 1, 0, 0x0, 0x0, 0x0, 0x0, 0x0, 0x0, 0x1FF01FF⟩,
   ⟨0x050, 1, 0, 0x0, 0x0, 0x0, 0x0, 0x3FFFF07, 0x0, 0x0⟩,
   ⟨0x060, 1, 0, 0x7FF0000, 0x0, 0x0, 0x0, 0x0, 0x0, 0x0⟩,
   ⟨0x061, 1, 0, 0x0, 0x0, 0x0, 0x0, 0x0, 0x0, 0x0⟩,
   ⟨0x062, 1, 0, 0x0, 0x0, 0x0, 0x0, 0x0, 0x0, 0x0⟩,
   ⟨0x063, 1, 0, 0x0, 0x1, 0x2, 0x0, 0x0, 0x1, 0x0⟩,
   ⟨0x100, 8, 32, 0x0, 0x0, 0x0, 0x0, 0x0, 0x0, 0x0⟩,
   ⟨0x101, 8, 32, 0x0, 0x0, 0x0, 0x0, 0x0, 0x0, 0x0⟩,
   ⟨0x102, 8, 32, 0x0, 0x0, 0x0, 0x0, 0x0, 0x0, 0x0⟩,
   ⟨0x103, 8, 32, 0x0, 0x0, 0x0, 0x0, 0x0, 0x0, 0x0⟩,
   ⟨0x104, 8, 32, 0x0, 0x0, 0x0, 0x0, 0x0, 0x0, 0x0⟩,
   ⟨0x105, 8, 32, 0x0, 0x0, 0x0, 0x0, 0x0, 0x0, 0x0⟩,
   ⟨0x106, 8, 32, 0x0, 0x0, 0x0, 0x0, 0x0, 0x0, 0x0⟩]

/-- Registers of the die block, part 1. -/
def dieRows1 : List RegRow :=
  [⟨0x107, 8, 32, 0x0, 0x0, 0x0, 0x0, 0x0, 0x0, 0x0⟩,
   ⟨0x108, 8, 32, 0x0, 0x0, 0x0, 0x0, 0x0, 0x0, 0x0⟩,
   ⟨0x109, 8, 32, 0x0, 0x0, 0x0, 0x0, 0x0, 0x0, 0x0⟩,
   ⟨0x10A, 8, 32, 0x0, 0x0, 0x0, 0x0, 0x0, 0x0, 0x0⟩,
   ⟨0x10B, 8, 32, 0x0, 0x0, 0x0, 0x0, 0x0, 0x0, 0x0⟩,
   ⟨0x10C, 8, 32, 0x0, 0x0, 0x0, 0x0, 0x0, 0x0, 0x0⟩,
   ⟨0x10D, 8, 32, 0x0, 0x0, 0x0, 0x0, 0x0, 0x0, 0x0⟩,
   ⟨0x10E, 8, 32, 0x0, 0x0, 0x0, 0x0, 0x0, 0x0, 0x0⟩,
   ⟨0x10F, 8, 32, 0x0, 0x0, 0x0, 0x0, 0x0, 0x0, 0x0⟩,
   ⟨0x110, 8, 32, 0x0, 0x0, 0x0, 0x0, 0x0, 0x0, 0x0⟩,
   ⟨0x111, 8, 32, 0x0, 0x0, 0x0, 0x0, 0x0, 0x0, 0x0⟩,
   ⟨0x112, 8, 32, 0x0, 0x0, 0x0, 0x0, 0x0, 0x0, 0x0⟩,
   ⟨0x113, 8, 32, 0x0, 0x0, 0x0, 0x0, 0x0, 0x0, 0x0⟩,
   ⟨0x114, 8, 32, 0x0, 0x0, 0x0, 0x0, 0x0, 0x0, 0x0⟩,
   ⟨0x115, 8, 32, 0x0, 0x0, 0x0, 0x0, 0x0, 0x0, 0x0⟩,
   ⟨0x116, 8, 32, 0x0, 0x0, 0x0, 0x0, 0x0, 0x0, 0x0⟩,
   ⟨0x117, 8, 32, 0x0, 0x0, 0x0, 0x0, 0x0, 0x0, 0x0⟩,
   ⟨0x118, 8, 32, 0x0, 0x0, 0x0, 0x0, 0x0, 0x0, 0x0⟩,
   ⟨0x119, 8, 32, 0x0, 0x0, 0x0, 0x0, 0x0, 0x0, 0x0⟩]

/-- The registers of the die block. -/
def dieRows : List RegRow := dieRows0 ++ dieRows1

/-- Registers of the ch block, part 0. -/
def chRows0 : List RegRow :=
  [⟨0x000, 1, 0, 0x78, 0x0, 0x0, 0x100, 0x7, 0x0, 0x0⟩,
   ⟨0x001, 1, 0, 0x0, 0x0, 0x600100, 0x0, 0x78F0100, 0x0, 0x0⟩,
   ⟨0x002, 1, 0, 0x0, 0x0, 0x71F, 0x0, 0xF071F, 0x0, 0x0⟩,
   ⟨0x003, 1, 0, 0x0, 0xF, 0x0, 0x0, 0x0, 0xF, 0x0⟩,
   ⟨0x004, 1, 0, 0x0, 0x0, 0x0, 0x0, 0xF7FF0FFF, 0x0, 0x0⟩,
   ⟨0x005, 1, 0, 0x0, 0x0, 0x0, 0x0, 0xFFFFFFFF, 0x0, 0x0⟩,
   ⟨0x006, 1, 0, 0x0, 0x1F, 0x0, 0x1F00, 0x0, 0x1F, 0x0⟩,
   ⟨0x007, 1, 0, 0x0, 0xFFFFFF3F, 0x0, 0x0, 0x0, 0xFFFFFF3F, 0x0⟩,
   ⟨0x008, 1, 0, 0xFFFFFFFF, 0x0, 0x0, 0x0, 0xFFFFFFFF, 0x0, 0x0⟩,
   ⟨0x009, 1, 0, 0xFFFFFFFF, 0x0, 0x0, 0x0, 0xFFFFFFFF, 0x0, 0x0⟩,
   ⟨0x00A, 1, 0, 0xFFFFFFFF, 0x0, 0x0, 0x0, 0xFFFFFFFF, 0x0, 0x0⟩,
   ⟨0x00B, 1, 0, 0x0, 0xFFFFFFFF, 0x0, 0x0, 0x0, 0xFFFFFFFF, 0x0⟩,
   ⟨0x00C, 1, 0, 0x0, 0xFFFFFF, 0x0, 0x0, 0x0, 0xFFFFFF, 0x0⟩,
   ⟨0x00D, 1, 0, 0x0, 0x3FF03FF, 0x0, 0x0, 0x0, 0x3FF03FF, 0x0⟩,
   ⟨0x00E, 1, 0, 0x0, 0xFFFFFFFF, 0x0, 0x0, 0x0, 0xFFFFFFFF, 0x0⟩,
   ⟨0x00F, 1, 0, 0x0, 0xFFFFFFFF, 0x0, 0x0, 0x0, 0xFFFFFFFF, 0x0⟩,
   ⟨0x010, 1, 0, 0x0, 0x0, 0x0, 0x0, 0x0, 0x0, 0x0⟩,
   ⟨0x011, 1, 0, 0x0, 0x0, 0x0, 0x0, 0x0, 0x0, 0x0⟩,
   ⟨0x012, 1, 0, 0x0, 0x0, 0x0, 0x0, 0x0, 0x0, 0x0⟩,
   ⟨0x013, 1, 0, 0x0, 0x0, 0x0, 0x0, 0x0, 0x0, 0x0⟩,
   ⟨0x014, 1, 0, 0x0, 0xFFFF7FFF, 0x0, 0x0, 0x0, 0xFFFF7FFF, 0x0⟩,
   ⟨0x015, 1, 0, 0x0, 0x7FF07FF, 0x0, 0x0, 0x0, 0x7FF07FF, 0x0⟩,
   ⟨0x016, 1, 0, 0x0, 0x1FFFFF, 0x0, 0x0, 0x0, 0x1FFFFF, 0x0⟩,
   ⟨0x017, 1, 0, 0x0, 0x1FFFFF, 0x0, 0x0, 0x0, 0x1FFFFF, 0x0⟩,
   ⟨0x018, 1, 0, 0x0, 0x1FFFFF, 0x0, 0x0, 0x0, 0x1FFFFF, 0x0⟩,
   ⟨0x019, 1, 0, 0x0, 0x1FFFFF, 0x0, 0x0, 0x0, 0x1FFFFF, 0x0⟩,
   ⟨0x01A, 1, 0, 0x0, 0x1FFFFF, 0x0, 0x0, 0x0, 0x1FFFFF, 0x0⟩,
   ⟨0x01B, 1, 0, 0x0, 0xFFFFFF, 0x0, 0x0, 0x0, 0xFFFFFF, 0x0⟩,
   ⟨0x01C, 1, 0, 0x0, 0x3, 0x0, 0x0, 0x0, 0x3, 0x0⟩,
   ⟨0x01D, 1, 0, 0x0, 0x0, 0x0, 0x0, 0x0, 0x0, 0x0⟩,
   ⟨0x01E, 1, 0, 0x0, 0x0, 0x0, 0x0, 0x0, 0x0, 0x0⟩,
   ⟨0x01F, 1, 0, 0x1, 0x0, 0x700, 0x0, 0x3, 0x0, 0x0⟩,
   ⟨0x020, 1, 0, 0x0, 0x0, 0x0, 0x0, 0xFFFFFFFF, 0x0, 0x0⟩,
   ⟨0x021, 1, 0, 0x0, 0x0, 0x0, 0x0, 0xFFFFFFFF, 0x0, 0x0⟩,
   ⟨0x022, 1, 0, 0x0, 0x0, 0x0, 0x0, 0xFFFFFFFF, 0x0, 0x0⟩,
   ⟨0x023, 1, 0, 0x0, 0x0, 0x0, 0x0, 0xFFFFFFFF, 0x0, 0x0⟩]

/-- Registers of the ch block, part 1. -/
def chRows1 : List RegRow :=
  [⟨0x024, 1, 0, 0x0, 0x0, 0x0, 0x0, 0xFFFFFFFF, 0x0, 0x0⟩,
   ⟨0x025, 1, 0, 0x0, 0x0, 0x0, 0x0, 0xFFFFFFFF, 0x0, 0x0⟩,
   ⟨0x026, 1, 0, 0x0, 0x0, 0x0, 0x0, 0xFFFFFFFF, 0x0, 0x0⟩,
   ⟨0x027, 1, 0, 0x0, 0x0, 0x0, 0x0, 0xFFFFFFFF, 0x0, 0x0⟩,
   ⟨0x028, 1, 0, 0x0, 0x0, 0x0, 0x0, 0xFFFFFFFF, 0x0, 0x0⟩,
   ⟨0x029, 1, 0, 0x0, 0x0, 0x0, 0x0, 0xFFFFFFFF, 0x0, 0x0⟩,
   ⟨0x02A, 1, 0, 0x0, 0x0, 0x0, 0xFF01, 0x0, 0x0, 0x0⟩,
   ⟨0x02B, 1, 0, 0x0, 0x0, 0x0, 0x0, 0xFFFFFF03, 0x0, 0x0⟩,
   ⟨0x02C, 1, 0, 0x0, 0x0, 0x0, 0x0, 0x0, 0x0, 0x0⟩,
   ⟨0x02D, 1, 0, 0x0, 0x0, 0x0, 0x0, 0xFFFFFFFF, 0x0, 0x0⟩,
   ⟨0x02E, 1, 0, 0x0, 0x0, 0x0, 0x0, 0xFFFFFFFF, 0x0, 0x0⟩,
   ⟨0x02F, 1, 0, 0x0, 0x0, 0x0, 0x0, 0xFFFFFFFF, 0x0, 0x0⟩,
   ⟨0x030, 1, 0, 0x0, 0x0, 0x0, 0x0, 0xFFFFFFFF, 0x0, 0x0⟩,
   ⟨0x031, 1, 0, 0x0, 0x0, 0x0, 0x0, 0xFFFFFFFF, 0x0, 0x0⟩,
   ⟨0x032, 1, 0, 0x0, 0x0, 0x0, 0x0, 0xFFFFFFFF, 0x0, 0x0⟩,
   ⟨0x033, 1, 0, 0x0, 0x0, 0x0, 0x0, 0xFFFFFFFF, 0x0, 0x0⟩,
   ⟨0x034, 1, 0, 0x0, 0x0, 0x0, 0x0, 0xFFFFFFFF, 0x0, 0x0⟩,
   ⟨0x035, 1, 0, 0x0, 0x0, 0x0, 0x0, 0xFFFFFFFF, 0x0, 0x0⟩,
   ⟨0x036, 1, 0, 0x0, 0x0, 0x0, 0x0, 0xFFFFFFFF, 0x0, 0x0⟩,
   ⟨0x037, 1, 0, 0x0, 0x0, 0x0, 0x0, 0xFFFFFFFF, 0x0, 0x0⟩,
   ⟨0x038, 1, 0, 0x0, 0x0, 0x0, 0x0, 0xFFFFFFFF, 0x0, 0x0⟩,
   ⟨0x039, 1, 0, 0x0, 0x0, 0x0, 0x0, 0xFFFFFFFF, 0x0, 0x0⟩,
   ⟨0x03A, 1, 0, 0x0, 0x0, 0x0, 0x0, 0xFFFFFFFF, 0x0, 0x0⟩,
   ⟨0x03B, 1, 0, 0x0, 0x0, 0x0, 0x0, 0xFFFFFFFF, 0x0, 0x0⟩,
   ⟨0x03C, 1, 0, 0x0, 0x0, 0x0, 0x0, 0x3F3F3F, 0x0, 0x0⟩,
   ⟨0x03D, 1, 0, 0x0, 0x0, 0x0, 0x0, 0xFFFFFFFF, 0x0, 0x0⟩,
   ⟨0x03E, 1, 0, 0x0, 0x0, 0x0, 0x0, 0xFFFFFFFF, 0x0, 0x0⟩,
   ⟨0x03F, 1, 0, 0x0, 0x0, 0x380000, 0xFF07, 0x0, 0x0, 0x0⟩,
   ⟨0x040, 1, 0, 0x0, 0xFFFFFFFF, 0x0, 0x0, 0x0, 0xFFFFFFFF, 0x0⟩,
   ⟨0x041, 1, 0, 0x0, 0xFFFFFFFF, 0x0, 0x0, 0x0, 0xFFFFFFFF, 0x0⟩,
   ⟨0x042, 1, 0, 0x0, 0xFFFFFFFF, 0x0, 0x0, 0x0, 0xFFFFFFFF, 0x0⟩,
   ⟨0x043, 1, 0, 0x0, 0xFFFFFFFF, 0x0, 0x0, 0x0, 0xFFFFFFFF, 0x0⟩,
   ⟨0x044, 1, 0, 0x0, 0x3F3F3F3F, 0x0, 0x0, 0x0, 0x3F3F3F3F, 0x0⟩,
   ⟨0x045, 1, 0, 0x0, 0xFFFFFFFF, 0x0, 0x0, 0x0, 0xFFFFFFFF, 0x0⟩,
   ⟨0x046, 1, 0, 0x0, 0xFFFFFFFF, 0x0, 0x0, 0x0, 0xFFFFFFFF, 0x0⟩,
   ⟨0x047, 1, 0, 0x0, 0x1FFFFFF, 0x0, 0x0, 0x0, 0x1FFFFFF, 0x0⟩]

/-- Registers of the ch block, part 2. -/
def chRows2 : List RegRow :=
  [⟨0x048, 1, 0, 0x0, 0xFFFF, 0x0, 0x0, 0x0, 0xFFFF, 0x0⟩,
   ⟨0x049, 1, 0, 0x0, 0x0, 0x1200, 0x0, 0x67F, 0x0, 0x0⟩,
   ⟨0x04A, 1, 0, 0x0, 0x0, 0x0, 0x0, 0xFFFFFFFF, 0x0, 0x0⟩,
   ⟨0x04B, 1, 0, 0x0, 0x0, 0x0, 0x0, 0xFFFFFFFF, 0x0, 0x0⟩,
   ⟨0x04C, 1, 0, 0x0, 0xFFFFFFFF, 0x0, 0x0, 0x0, 0xFFFFFFFF, 0x0⟩,
   ⟨0x04D, 1, 0, 0x0, 0xFFFFFFFF, 0x0, 0x0, 0x0, 0xFFFFFFFF, 0x0⟩,
   ⟨0x04E, 1, 0, 0x0, 0xFFFFFFFF, 0x0, 0x0, 0x0, 0xFFFFFFFF, 0x0⟩,
   ⟨0x04F, 1, 0, 0x0, 0xFFFFFFFF, 0x0, 0x0, 0x0, 0xFFFFFFFF, 0x0⟩,
   ⟨0x050, 1, 0, 0x0, 0x1FFFFFFF, 0x0, 0x60000000, 0x0, 0x1FFFFFFF, 0x0⟩,
   ⟨0x051, 1, 0, 0x0, 0x1FFFF, 0x0, 0x0, 0x0, 0x1FFFF, 0x0⟩,
   ⟨0x052, 1, 0, 0x0, 0x0, 0x7000000, 0x0, 0x0, 0x0, 0x0⟩,
   ⟨0x053, 1, 0, 0x0, 0x0, 0x0, 0x0, 0x0, 0x0, 0x0⟩,
   ⟨0x054, 1, 0, 0x0, 0x0, 0x0, 0x0, 0x0, 0x0, 0x0⟩,
   ⟨0x055, 1, 0, 0x0, 0x0, 0x0, 0x0, 0x0, 0x0, 0x0⟩,
   ⟨0x056, 1, 0, 0x0, 0x0, 0x0, 0x0, 0x0, 0x0, 0x0⟩,
   ⟨0x057, 1, 0, 0x0, 0x0, 0x0, 0x0, 0x0, 0x0, 0x0⟩,
   ⟨0x058, 1, 0, 0x0, 0x0, 0x0, 0x0, 0x0, 0x0, 0x0⟩,
   ⟨0x059, 1, 0, 0x0, 0x0, 0x0, 0x0, 0x0, 0x0, 0x0⟩,
   ⟨0x05A, 1, 0, 0x0, 0x0, 0x0, 0x0, 0x0, 0x0, 0x0⟩,
   ⟨0x05B, 1, 0, 0x0, 0x0, 0x0, 0x0, 0x0, 0x0, 0x0⟩,
   ⟨0x05C, 1, 0, 0x0, 0x0, 0x0, 0x0, 0x0, 0x0, 0x0⟩,
   ⟨0x05D, 1, 0, 0x0, 0x0, 0x0, 0xFF01, 0x0, 0x0, 0x0⟩,
   ⟨0x05E, 1, 0, 0x0, 0x0, 0x0, 0x0, 0x0, 0x0, 0x0⟩,
   ⟨0x05F, 1, 0, 0x0, 0xF, 0x0, 0x0, 0x0, 0xF, 0x0⟩,
   ⟨0x060, 1, 0, 0x0, 0x0, 0x0, 0x0, 0xFFFFFFFF, 0x0, 0x0⟩,
   ⟨0x061, 1, 0, 0x0, 0x0, 0x0, 0x0, 0xFFFFFFFF, 0x0, 0x0⟩,
   ⟨0x062, 1, 0, 0x0, 0x0, 0x0, 0x0, 0xFFFFFFFF, 0x0, 0x0⟩,
   ⟨0x063, 1, 0, 0x0, 0x0, 0x0, 0x0, 0xFFFFFFFF, 0x0, 0x0⟩,
   ⟨0x064, 1, 0, 0x0, 0x0, 0x0, 0x0, 0xFFFFFFFF, 0x0, 0x0⟩,
   ⟨0x065, 1, 0, 0x0, 0x0, 0x0, 0x0, 0xFFFFFFFF, 0x0, 0x0⟩,
   ⟨0x066, 1, 0, 0x0, 0x0, 0x0, 0x0, 0xFFFFFFFF, 0x0, 0x0⟩,
   ⟨0x067, 1, 0, 0x0, 0x0, 0x0, 0x0, 0xFFFFFFFF, 0x0, 0x0⟩,
   ⟨0x068, 1, 0, 0x0, 0xFFFFFFFF, 0x0, 0x0, 0x0, 0xFFFFFFFF, 0x0⟩,
   ⟨0x069, 1, 0, 0x0, 0xFFFFFFFF, 0x0, 0x0, 0x0, 0xFFFFFFFF, 0x0⟩,
   ⟨0x06A, 1, 0, 0x0, 0x0, 0x0, 0x0, 0x0, 0x0, 0x0⟩,
   ⟨0x06B, 1, 0, 0x0, 0xFFFFFFFF, 0x0, 0x0, 0x0, 0xFFFFFFFF, 0x0⟩]

/-- Registers of the ch block, part 3. -/
def chRows3 : List RegRow :=
  [⟨0x06C, 1, 0, 0x0, 0xFFFFFFFF, 0x0, 0x0, 0x0, 0xFFFFFFFF, 0x0⟩,
   ⟨0x06D, 1, 0, 0x0, 0x0, 0x0, 0x0, 0xFFFFFFFF, 0x0, 0x0⟩,
   ⟨0x06E, 1, 0, 0x0, 0xFFFFFFFF, 0x0, 0x0, 0x0, 0xFFFFFFFF, 0x0⟩,
   ⟨0x06F, 1, 0, 0x0, 0x0, 0x40, 0x0, 0x0, 0x0, 0x0⟩,
   ⟨0x070, 1, 0, 0x0, 0x0, 0x0, 0x0, 0xFFFFFFFF, 0x0, 0x0⟩,
   ⟨0x071, 1, 0, 0x0, 0x0, 0x0, 0x0, 0xFFFFFFFF, 0x0, 0x0⟩,
   ⟨0x072, 1, 0, 0x0, 0x0, 0x0, 0x0, 0xFFFFFFFF, 0x0, 0x0⟩,
   ⟨0x073, 1, 0, 0x0, 0x0, 0x0, 0x0, 0xFFFFFFFF, 0x0, 0x0⟩,
   ⟨0x074, 1, 0, 0x0, 0x0, 0x0, 0x0, 0xFFFFFFFF, 0x0, 0x0⟩,
   ⟨0x075, 1, 0, 0x0, 0x0, 0x0, 0x0, 0xFFFF, 0x0, 0x0⟩,
   ⟨0x076, 1, 0, 0x0, 0x0, 0x0, 0x0, 0x0, 0x0, 0x0⟩,
   ⟨0x077, 1, 0, 0x0, 0x0, 0x0, 0x0, 0x0, 0x0, 0x0⟩,
   ⟨0x078, 1, 0, 0x0, 0x0, 0x0, 0x0, 0xFFFFFFFF, 0x0, 0x0⟩,
   ⟨0x079, 1, 0, 0x0, 0x1, 0x300, 0x0, 0x0, 0x1, 0x0⟩]

/-- The registers of the ch block. -/
def chRows : List RegRow := chRows0 ++ chRows1 ++ chRows2 ++ chRows3

/-- The words of the pkg block that do not read 0 by default. -/
def pkgDefault : Nat → Nat
  | 0x000 => 0x1000048
  | 0x002 => 0x1
  | 0x006 => 0xFF00
  | 0x010 => 0x260
  | 0x011 => 0x1F4011DB
  | 0x012 => 0x8
  | 0x016 => 0x320000
  | 0x017 => 0x28F5C28F
  | 0x020 => 0x3E8
  | 0x021 => 0xEB85EB85
  | 0x022 => 0xA01
  | 0x027 => 0x4140960
  | 0x028 => 0x20A6E5A
  | 0x030 => 0x10100
  | 0x031 => 0x10100
  | 0x032 => 0x21010100
  | 0x037 => 0x3C005A
  | 0x040 => 0xA641400
  | 0x041 => 0xBEAA6450
  | 0x042 => 0x320A7F
  | 0x043 => 0x1E1E
  | 0x044 => 0x3E80D6B
  | 0x045 => 0x100
  | 0x047 => 0x2F0000
  | 0x048 => 0x6400C8
  | 0x04A => 0x3C28
  | 0x04D => 0xC80046
  | 0x05C => 0xFF07
  | 0x05D => 0xC
  | 0x060 => 0x1B801E0
  | 0x061 => 0x64
  | 0x063 => 0x404
  | 0x074 => 0x5
  | 0x079 => 0xA
  | 0x080 => 0xA0A0180
  | 0x084 => 0xA0A0180
  | 0x088 => 0xA0A0180
  | 0x08C => 0xA0A0180
  | 0x081 => 0xF4240
  | 0x085 => 0xF4240
  | 0x089 => 0xF4240
  | 0x08D => 0xF4240
  | 0x090 => 0xA00
  | 0x091 => 0xA00
  | 0x0C0 => 0xA00
  | 0x0C1 => 0x12C
  | 0x0C2 => 0x100
  | 0x0D0 => 0xF
  | 0x0D1 => 0x1
  | 0x0D3 => 0xA280064
  | _ => 0

/-- The words of the die block that do not read 0 by default. -/
def dieDefault : Nat → Nat
  | 0x000 => 0x8
  | 0x004 => 0x3E80D7A
  | 0x010 => 0x1
  | 0x011 => 0x2EE00A0
  | 0x012 => 0xBB800FA
  | 0x013 => 0x141407D0
  | 0x017 => 0x40000000
  | 0x020 => 0xF14323C
  | 0x024 => 0xF14323C
  | 0x028 => 0xF14323C
  | 0x02C => 0xF14323C
  | 0x021 => 0x2
  | 0x025 => 0x2
  | 0x029 => 0x2
  | 0x02D => 0x2
  | _ => 0

/-- The words of the ch block that do not read 0 by default. -/
def chDefault : Nat → Nat
  | 0x003 => 0x8
  | 0x006 => 0x10
  | 0x007 => 0x321400
  | 0x00C => 0x48CA8C
  | 0x00D => 0x1F4
  | 0x00E => 0x40200000
  | 0x00F => 0x1F40A14
  | 0x014 => 0x10080190
  | 0x015 => 0xC000C0
  | 0x016 => 0x160417
  | 0x017 => 0x180080
  | 0x018 => 0x80100
  | 0x019 => 0xE0100
  | 0x01A => 0x100100
  | 0x01B => 0x800
  | 0x01C => 0x3
  | 0x02D => 0xD9038E39
  | 0x02E => 0xBB800000
  | 0x02F => 0xA6AAAAAB
  | 0x03C => 0x342020
  | 0x040 => 0xD9038E39
  | 0x041 => 0xD9038E39
  | 0x042 => 0xBB800000
  | 0x044 => 0x202220
  | 0x047 => 0x640000
  | 0x048 => 0x8
  | 0x050 => 0x9000514
  | 0x051 => 0x10200
  | 0x068 => 0xBEAA6450
  | 0x069 => 0xC8BE3C28
  | 0x06A => 0x20000
  | 0x06B => 0xFF7FFF7F
  | 0x06C => 0x64
  | 0x06E => 0x3E88D6B
  | 0x079 => 0x1
  | _ => 0

/-- The rows of a block. -/
def Blk.rows : Blk → List RegRow
  | .pkg => pkgRows
  | .die => dieRows
  | .ch => chRows

/-- The block, its instance and the offset of a host address; none in the ranges without a block (R448). -/
def locate (a : Nat) : Option (Blk × Nat × Nat) :=
  if a < 0x1000 then some (.pkg, 0, a)
  else if a < 0x2000 then none
  else if a < 0x3000 then some (.die, (a - 0x2000) / 0x200, (a - 0x2000) % 0x200)
  else if a < 0x4000 then none
  else if a < 0x6000 then some (.ch, (a - 0x4000) / 0x80, (a - 0x4000) % 0x80)
  else none

/-- The address of a word of a die block. -/
def dieAddr (d off : Nat) : Nat := 0x2000 + 0x200 * d + off
/-- The address of a word of a channel block, by global channel (R11, R448). -/
def chAddr (g off : Nat) : Nat := 0x4000 + 0x80 * g + off

/-- The register row that lists an offset of a block; none where no register stands (R449). -/
def regRow (b : Blk) (off : Nat) : Option RegRow :=
  b.rows.find? fun r => decide (r.off ≤ off) &&
    (if r.stride = 0 then off == r.off
     else (off - r.off) % r.stride == 0 && decide ((off - r.off) / r.stride < r.count))

/-- The row of a host address. -/
def rowAt (a : Nat) : Option RegRow :=
  match locate a with
  | some (b, _, off) => regRow b off
  | none => none

/-- What a register reads after a main-domain start before the image is applied; 0 where no register stands. DIE_ID shows the
strap that R17 expects on the port of its die (R455). -/
def regDefault (a : Nat) : Word :=
  match locate a with
  | some (.pkg, _, off) => BitVec.ofNat 32 (pkgDefault off)
  | some (.die, d, off) => BitVec.ofNat 32 (if off = 0 ∧ d ≠ 0 then d else dieDefault off)
  | some (.ch, _, off) => BitVec.ofNat 32 (chDefault off)
  | none => 0

end Sys2Proof.Machine
end

