-- ==== Sys2Proof/Machine/Ops.lean ====
section
/-! DEFINITION. The named operations every meaning uses: the register file and its fields, channels and dies,
package time, interrupt categories and IRQ_SOURCE (R422 to R424), the fault ledger (R425 to R432, R442), the package
state (R31, R33) and the test for a present die (R1, R3). -/

namespace Sys2Proof.Machine

/-! The register file: a canonical list of the words that differ from their default. -/

/-- The listed word at an address. -/
def rfFind (a : Nat) : RegFile → Option Word
  | [] => none
  | (b, w) :: t => if b = a then some w else rfFind a t

/-- A word of a register file; an unlisted one reads its default (R450, R454, R458). -/
def rfGet (f : RegFile) (a : Nat) : Word := (rfFind a f).getD (regDefault a)

/-- The list without an address. -/
def rfErase (a : Nat) (f : RegFile) : RegFile := f.filter fun p => p.1 != a

/-- The list with an address set, addresses rising. -/
def rfPut (a : Nat) (w : Word) : RegFile → RegFile
  | [] => [(a, w)]
  | (b, v) :: t => if a < b then (a, w) :: (b, v) :: t else if a = b then (a, w) :: t else (b, v) :: rfPut a w t

/-- A write of a register file, kept canonical. -/
def rfSet (f : RegFile) (a : Nat) (w : Word) : RegFile := if w = regDefault a then rfErase a f else rfPut a w f

/-- The mask of a word's fields of Kept code I. -/
def iMask (a : Nat) : Word := match rowAt a with | some r => BitVec.ofNat 32 r.i | none => 0

/-- The canonical form: addresses strictly rising, no entry at its default. -/
def rfWf : RegFile → Bool
  | [] => true
  | (a, w) :: t => decide (w ≠ regDefault a) && (match t with | [] => true | (b, _) :: _ => decide (a < b)) && rfWf t

/-- The channels of a die (R11). -/
def chansOf (d : Nat) : List Nat := (List.range 8).map (8 * d + ·)

namespace Device

/-- The word a register holds at the die that owns it. -/
def reg (s : Device) (a : Nat) : Word := rfGet s.regs a
/-- Write a register word at the die that owns it. -/
def setReg (s : Device) (a : Nat) (w : Word) : Device := { s with regs := rfSet s.regs a w }
/-- The value in force of a word whose writes take effect later. -/
def frc (s : Device) (a : Nat) : Word := rfGet s.force a
/-- Bring a word into force. -/
def setFrc (s : Device) (a : Nat) (w : Word) : Device := { s with force := rfSet s.force a w }

/-- A field of the package block. -/
def pget (s : Device) (f : Fld .pkg) : Nat := f.get (s.reg f.off)
/-- Set a field of the package block. -/
def pset (s : Device) (f : Fld .pkg) (v : Nat) : Device := s.setReg f.off (f.put v (s.reg f.off))
/-- A field of a die block. -/
def dget (s : Device) (d : Nat) (f : Fld .die) : Nat := f.get (s.reg (dieAddr d f.off))
/-- Set a field of a die block. -/
def dset (s : Device) (d : Nat) (f : Fld .die) (v : Nat) : Device :=
  s.setReg (dieAddr d f.off) (f.put v (s.reg (dieAddr d f.off)))
/-- A field of a channel block. -/
def cget (s : Device) (g : Nat) (f : Fld .ch) : Nat := f.get (s.reg (chAddr g f.off))
/-- Set a field of a channel block. -/
def cset (s : Device) (g : Nat) (f : Fld .ch) (v : Nat) : Device :=
  s.setReg (chAddr g f.off) (f.put v (s.reg (chAddr g f.off)))
/-- A flag of the package block. -/
def pbit (s : Device) (f : Fld .pkg) : Bool := s.pget f != 0
/-- A flag of a die block. -/
def dbit (s : Device) (d : Nat) (f : Fld .die) : Bool := s.dget d f != 0
/-- A flag of a channel block. -/
def cbit (s : Device) (g : Nat) (f : Fld .ch) : Bool := s.cget g f != 0
/-- A package field in force. -/
def pfrc (s : Device) (f : Fld .pkg) : Nat := f.get (s.frc f.off)
/-- A die field in force. -/
def dfrc (s : Device) (d : Nat) (f : Fld .die) : Nat := f.get (s.frc (dieAddr d f.off))
/-- A channel field in force. -/
def cfrc (s : Device) (g : Nat) (f : Fld .ch) : Nat := f.get (s.frc (chAddr g f.off))
/-- Bring the package word of an offset into force as it stands. -/
def pforce (s : Device) (off : Nat) : Device := s.setFrc off (s.reg off)
/-- Bring the die word of an offset into force as it stands. -/
def dforce (s : Device) (d off : Nat) : Device := s.setFrc (dieAddr d off) (s.reg (dieAddr d off))
/-- Bring the channel word of an offset into force as it stands. -/
def cforce (s : Device) (g off : Nat) : Device := s.setFrc (chAddr g off) (s.reg (chAddr g off))
/-- Add one to a saturating field of the package block. -/
def pinc (s : Device) (f : Fld .pkg) : Device := s.pset f (min (s.pget f + 1) (2 ^ f.width - 1))
/-- Add one to a saturating field of a die block. -/
def dinc (s : Device) (d : Nat) (f : Fld .die) : Device := s.dset d f (min (s.dget d f + 1) (2 ^ f.width - 1))
/-- Set bit i of a map field of the package block. -/
def psetBit (s : Device) (f : Fld .pkg) (i : Nat) (b : Bool) : Device :=
  s.pset f (if (s.pget f).testBit i = b then s.pget f else s.pget f ^^^ 2 ^ i)
/-- Bit i of a map field of the package block. -/
def pgetBit (s : Device) (f : Fld .pkg) (i : Nat) : Bool := (s.pget f).testBit i

/-- A channel, by global number. -/
def ch (s : Device) (g : Nat) : Chan := (s.chans[g]?).getD .reset
/-- A die. -/
def die (s : Device) (d : Nat) : DieSt := (s.dies[d]?).getD .reset
/-- Change a channel. -/
def modCh (s : Device) (g : Nat) (f : Chan → Chan) : Device := { s with chans := s.chans.modify g f }
/-- Change a die. -/
def modDie (s : Device) (d : Nat) (f : DieSt → DieSt) : Device := { s with dies := s.dies.modify d f }
/-- Change a channel's loops. -/
def modLp (s : Device) (g : Nat) (f : Loop → Loop) : Device := s.modCh g fun c => { c with lp := f c.lp }
/-- Change a channel's step engine. -/
def modEng (s : Device) (g : Nat) (f : Eng → Eng) : Device := s.modCh g fun c => { c with eng := f c.eng }
/-- Change a channel's pending work. -/
def modDue (s : Device) (g : Nat) (f : Due → Due) : Device := s.modCh g fun c => { c with due := f c.due }
/-- Change a channel's counting state. -/
def modAcc (s : Device) (g : Nat) (f : Acc → Acc) : Device := s.modCh g fun c => { c with acc := f c.acc }
/-- Change a channel's constants. -/
def modConv (s : Device) (g : Nat) (f : Conv → Conv) : Device := s.modCh g fun c => { c with conv := f c.conv }
/-- Change a channel's ACIR engine. -/
def modAcir (s : Device) (g : Nat) (f : Acir → Acir) : Device := s.modCh g fun c => { c with acir := f c.acir }
/-- Change the arbiter's view of a channel. -/
def modLease (s : Device) (g : Nat) (f : Lease → Lease) : Device := s.modCh g fun c => { c with lease := f c.lease }
/-- Change a die's converter state. -/
def modSar (s : Device) (d : Nat) (f : Sar → Sar) : Device := s.modDie d fun x => { x with sar := f x.sar }
/-- Change a die's bench. -/
def modBench (s : Device) (d : Nat) (f : Bench → Bench) : Device := s.modDie d fun x => { x with bench := f x.bench }
/-- Change a die's glean domain. -/
def modGlean (s : Device) (d : Nat) (f : Glean → Glean) : Device := s.modDie d fun x => { x with glean := f x.glean }
/-- Change a die's port. -/
def modLink (s : Device) (d : Nat) (f : Link → Link) : Device := s.modDie d fun x => { x with link := f x.link }
/-- Change a die's recovery state. -/
def modRecov (s : Device) (d : Nat) (f : Recov → Recov) : Device := s.modDie d fun x => { x with recov := f x.recov }
/-- Change the supplies. -/
def modSup (s : Device) (f : Supply → Supply) : Device := { s with supply := f s.supply }
/-- Change the NVM port's state. -/
def modNvm (s : Device) (f : Nvm → Nvm) : Device := { s with nvm := f s.nvm }

/-- Change the host port's state. -/
def modHost (s : Device) (f : HostPort → HostPort) : Device := { s with host := f s.host }
/-- Change the snapshot state. -/
def modSnap (s : Device) (f : Snap → Snap) : Device := { s with snap := f s.snap }
/-- Change the pins. -/
def modPins (s : Device) (f : Pins → Pins) : Device := { s with pins := f s.pins }
/-- Change the line and angle state. -/
def modLine (s : Device) (f : Line → Line) : Device := { s with line := f s.line }
/-- Set the clock of IRQ_SOURCE's latch. -/
def setIrqAt (s : Device) (n : Nat) : Device := { s with irqAt := n }
/-- The broadcasts on their way. -/
def setBcast (s : Device) (l : List Bcast) : Device := { s with bcast := l }
/-- The VBST grants in use. -/
def setGrants (s : Device) (l : List (Nat × Nat)) : Device := { s with grants := l }
/-- The bank batons. -/
def setBanks (s : Device) (l : List (Option Nat)) : Device := { s with bankAt := l }
/-- The bulk reads on their way and the words that came back (R414). -/
def setBulk (s : Device) (reads : List (Nat × Nat)) (resps : List (Nat × Word)) : Device := { s with reads := reads, resps := resps }
/-- The flags of BUS_STAT that a host write clears at the next freeze point (R267). -/
def setBusW1c (s : Device) (w : Word) : Device := { s with busW1c := w }
/-- A clear of BUS_MON_CNT waits for the next freeze point (R267). -/
def setBusClr (s : Device) (b : Bool) : Device := { s with busClr := b }
/-- The entries dropped on the present clock. -/
def setDropped (s : Device) (l : List (Nat × LedgerEnt)) : Device := { s with dropped := l }
/-- No reference run is in progress. -/
def clearRun (s : Device) : Device := { s with run := .reset }
/-- A number of free values is spent. -/
def spend (s : Device) (n : Nat) : Device := { s with free := s.free + n }

/-- The number of channels the part contains (R1). -/
def nCh (s : Device) : Nat := 8 * s.nDies
/-- The present dies (R1). -/
def dieList (s : Device) : List Nat := List.range s.nDies
/-- The channels of the present dies (R1). -/
def chList (s : Device) : List Nat := List.range s.nCh
/-- Do an operation for each number of a list, in order. -/
def each (l : List Nat) (f : Nat → Device → Device) (s : Device) : Device := l.foldl (fun t i => f i t) s

/-- A clock begins: the frame and the clock in it. -/
def setTime (s : Device) (frame clk : Nat) : Device := { s with frame := frame, clk := clk }
/-- The register words as the present clock finds them. -/
def noteRegs (s : Device) : Device := { s with clockRegs := s.regs }

/-- The bits of a word that the present clock has set: a W1C write on it leaves them set (R417). -/
def freshBits (s : Device) (a : Nat) : Word := s.reg a &&& ~~~ rfGet s.clockRegs a

/-- The package clock: frames of 5,120 clocks (R5). -/
def now (s : Device) : Nat := s.frame * 5120 + s.clk
/-- A time of n clocks that began at a clock has passed. -/
def passed (s : Device) (at_ n : Nat) : Bool := decide (at_ + n ≤ s.now)
/-- The next value of the model's own sequence of free values. -/
def nextFree (s : Device) : Device := { s with free := s.free + 1 }

end Device

/-- Clocks of a number of milliseconds (R5: 20.48 MHz). -/
def msClocks (n : Nat) : Nat := n * 20480
/-- Clocks of a number of seconds. -/
def secClocks (n : Nat) : Nat := n * 20480000

/-! Categories of IRQ_STATUS (R422). -/
namespace Cat
def line : Nat := 0
def bus : Nat := 1
def ch : Nat := 2
def valve : Nat := 3
def keep : Nat := 4
def glean : Nat := 5
def nvm : Nat := 6
def otp : Nat := 7
def link : Nat := 8
def ledger : Nat := 9
def bench : Nat := 10
def tally : Nat := 11
end Cat

/-- The die's transmitters and balls follow its firmware: it is up and not stalled under its watchdog (R29, R435). -/
def alive (x : DieSt) : Bool := x.up && !x.recov.stalled

/-- The balls of a die may be driven: its firmware runs, and neither RESET_N nor TMODE holds every ball in husk (R29, R30,
R435, R474). -/
def ballsLive (s : Device) (d : Nat) : Bool := alive (s.die d) && !s.pins.huskAll

/-- IRQ_STATUS as one number. -/
def irqStatus (s : Device) : Nat := (s.reg 4).toNat % 4096
/-- IRQ_MASK; bit 9 reads 0 (R423). -/
def irqMask (s : Device) : Nat := (s.reg 5).toNat % 4096
/-- IRQ_N is pulled low: an unmasked category is set and the lead die's balls are not in husk (R29, R423, R475). -/
def irqLow (s : Device) : Bool :=
  ballsLive s 0 && (List.range 12).any fun i => (irqStatus s).testBit i && !((irqMask s).testBit i && i != 9)

/-- IRQ_SOURCE holds a setting; OBJ is a channel, a valve or a port, 0xFF for the other categories (R424). -/
def irqLatch (cat die obj : Nat) (s : Device) : Device :=
  ((s.pset IRQ_SOURCE_CAT cat).pset IRQ_SOURCE_DIE die).pset IRQ_SOURCE_OBJ
    (if cat = Cat.ch ∨ cat = Cat.valve ∨ cat = Cat.link then obj else 0xFF)

/-- IRQ_SOURCE takes a setting: latched while VALID is 0, counted in MORE after that. Of several on the clock of the latch
the lowest category stays latched (R424). -/
def irqSource (cat die obj : Nat) (s : Device) : Device :=
  if s.pget IRQ_SOURCE_VALID = 0 then
    (((irqLatch cat die obj s).pset IRQ_SOURCE_VALID 1).pset IRQ_SOURCE_MORE 0).setIrqAt s.now
  else if s.irqAt = s.now ∧ cat < s.pget IRQ_SOURCE_CAT then (irqLatch cat die obj s).pinc IRQ_SOURCE_MORE
  else s.pinc IRQ_SOURCE_MORE

/-- Set a category of IRQ_STATUS (R422); a setting of an unmasked category that was clear goes to IRQ_SOURCE
(R424; DEDUCED: a setting is a change of the bit from 0 to 1). -/
def setIrq (cat die obj : Nat) (s : Device) : Device :=
  if (irqStatus s).testBit cat then s
  else
    let s' := s.setReg 4 (s.reg 4 ||| BitVec.ofNat 32 (2 ^ cat))
    if (irqMask s).testBit cat && cat != 9 then s' else irqSource cat die obj s'

/-- Set a category with no object. -/
def setCat (cat : Nat) (s : Device) : Device := setIrq cat 0 0xFF s

/-! The fault ledger. -/

/-- An entry goes into the ring's next slot (R425, R428, R429). -/
def ledgerWrite (e : LedgerEnt) (s : Device) : Device :=
  let n := s.pget LEDGER_STAT_COUNT
  let w := s.pget LEDGER_STAT_WR
  let s := { s with ledger := s.ledger.set w e }
  let s := (s.pset LEDGER_STAT_WR (w + 1)).pset LEDGER_STAT_COUNT (n + 1)
  let s := if n + 1 = 64 then (s.pset LEDGER_STAT_FULL 1).pset LEDGER_STAT_BACK_OK 0 else s
  setCat Cat.ledger s

/-- Write an entry at the lead die: it takes the next SEQ; a full ring drops and counts it (R426). -/
def ledgerPut (e : LedgerEnt) (s : Device) : Device :=
  let seq := s.pget LEDGER_NEXT_SEQ
  let s := s.pset LEDGER_NEXT_SEQ (seq + 1)
  let e := { e with seq := seq, pkg := s.pget PKG_STATE_STATE, line := s.pget LINE_STAT_STATE }
  if 64 ≤ s.pget LEDGER_STAT_COUNT then
    (s.setDropped ((s.dropped.filter fun p => p.1 == s.now) ++ [(s.now, e)])).pinc LEDGER_DROPPED
  else ledgerWrite e s

/-- The line count a die stamps entries with: its replica's (R425). -/
def lineCountOf (s : Device) (d : Nat) : Nat := if d = 0 then s.line.nco.count else (s.die d).nco.count

/-- A new entry; SEQ and the states are filled in when it is written. -/
def entryOf (s : Device) (cat d code obj data : Nat) : LedgerEnt :=
  ⟨lineCountOf s d, cat, d, code, obj, 0, 0, 0, BitVec.ofNat 32 data⟩

/-- An event with a ledger entry (R431, R432): the category sets, and the entry is written by the lead die or staged
by another die, 16 entries deep, further ones counted (R426, R442). -/
def logEvent (cat d code obj data : Nat) (s : Device) : Device :=
  let s := setIrq cat d obj s
  let e := entryOf s cat d code obj data
  if d = 0 then ledgerPut e s
  else s.modDie d fun x =>
    if x.staging.length < 16 then { x with staging := x.staging ++ [e] } else { x with stagingDrop := x.stagingDrop + 1 }

/-- The entry's four words (R425, R427). -/
def entryWord (e : LedgerEnt) (k : Nat) : Word :=
  match k with
  | 0 => BitVec.ofNat 32 (e.count % 2 ^ 32)
  | 1 => BitVec.ofNat 32 (e.count / 2 ^ 32 % 2 ^ 16 + (e.src % 16) * 2 ^ 16 + (e.die % 8) * 2 ^ 20 + (e.code % 256) * 2 ^ 24)
  | 2 => BitVec.ofNat 32 (e.obj % 256 + (e.pkg % 16) * 2 ^ 8 + (e.line % 4) * 2 ^ 12 + (e.seq % 65536) * 2 ^ 16)
  | _ => e.data

/-! Package state. -/

namespace Pkg
def cold : Nat := 0
def load : Nat := 1
def qualify : Nat := 2
def run : Nat := 3
def handover : Nat := 4
def hold : Nat := 5
def keep : Nat := 6
def ship : Nat := 7
def recover : Nat := 8
def test : Nat := 9
end Pkg

/-- PKG_STATE.STATE. -/
def pkgState (s : Device) : Nat := s.pget PKG_STATE_STATE

/-- A transition of the package state: PREV takes the state before it (R33). -/
def setPkgState (st : Nat) (s : Device) : Device :=
  (s.pset PKG_STATE_PREV (pkgState s)).pset PKG_STATE_STATE st

/-- The map of the present dies that pass a test. -/
def dieMap (s : Device) (p : DieSt → Bool) : Nat := s.dieList.foldl (fun m d => m + (if p (s.die d) then 2 ^ d else 0)) 0

/-- The die runs its channels under its step engine (R33). -/
def dieRuns (x : DieSt) : Bool := x.up && !x.husk && x.ctl

/-- DIES_RUN, DIES_HUSK and DIE_STAT.RUN follow the dies (R32, R33, R456). -/
def publishDies (s : Device) : Device :=
  let v := s.pbit IMAGE_STAT_VALID
  let s := s.pset PKG_STATE_DIES_RUN (dieMap s dieRuns)
  let s := s.pset PKG_STATE_DIES_HUSK (dieMap s fun x => (v && !x.hasDie) || x.link.badIndex || x.link.failed || x.recov.active || x.recov.benched)
  s.each s.dieList fun d t => t.dset d DIE_STAT_RUN (if dieRuns (t.die d) then 1 else 0)

/-! Outcomes. -/

/-- A command that acts on the device: its queue stays as it is. -/
def onDev (s : State) (f : Device → Device) : Host.Outcome State Fault Refusal := .next { s with dev := f s.dev }

/-- A command that names a die: where the part does not contain it nothing exists that could act, and nothing changes
(R1, R3). -/
def onDie (d : Nat) (s : State) (f : Device → Device) : Host.Outcome State Fault Refusal :=
  .next { s with dev := if d < s.dev.nDies then f s.dev else s.dev }

/-! Small numbers. -/

/-- Put a 64-bit value into two words. -/
def low32 (x : Nat) : Word := BitVec.ofNat 32 x
/-- The word of bits [63:32]. -/
def high32 (x : Nat) : Word := BitVec.ofNat 32 (x / 2 ^ 32)
/-- A signed value as a word. -/
def wordOfInt (x : Int) : Word := BitVec.ofInt 32 x
/-- A word as a signed value. -/
def intOfWord (w : Word) : Int := w.toInt
/-- An element of a list of numbers, 0 beyond its end. -/
def nth (l : List Nat) (i : Nat) : Nat := (l[i]?).getD 0
/-- An element of a list of integers, 0 beyond its end. -/
def nthI (l : List Int) (i : Nat) : Int := (l[i]?).getD 0
/-- A word seen through a field: the value a write carries for it. -/
def Fld.of {b : Blk} (f : Fld b) (w : Word) : Nat := f.get w

end Sys2Proof.Machine
end

