-- ==== Sys2Proof/Machine/LineAngle.lean ====
section
/-! DEFINITION. The line-angle timebase (R39 to R65): candidate and qualified edges, the NCO, the line states, the
frame-boundary update, and the commands LSYNC_EDGE, LINE_TIMEOUT, LINE_CFG_WRITE and CLR_REJ. -/

namespace Sys2Proof.Machine

/-! Line states (R48). -/
namespace LineState
def synthetic : Nat := 0
def acquire : Nat := 1
def locked : Nat := 2
def holdover : Nat := 3
end LineState

/-- LINE_STAT.STATE. -/
def lineState (s : Device) : Nat := s.pget LINE_STAT_STATE

/-- A line is present (R52). -/
def linePresent (s : Device) : Bool := lineState s != LineState.synthetic

/-- The point of an NCO: line count · 2^32 + line angle (R57). -/
def Nco.pt (n : Nco) : Nat := n.count * 2 ^ 32 + n.phase / 2 ^ 16

/-- The line angle, PHASE[47:16] (R43). -/
def Nco.angle (n : Nco) : Nat := n.phase / 2 ^ 16

/-- One clock of an NCO (R43). -/
def Nco.step (n : Nco) : Nco :=
  let p := n.phase + n.inc
  { n with phase := p % 2 ^ 48, count := (n.count + p / 2 ^ 48) % 2 ^ 48 }

/-- The lead die's point. -/
def linePt (s : Device) : Nat := s.line.nco.pt

/-- A die's point: the lead's on die 0, its replica's elsewhere (R22). -/
def ptOf (s : Device) (d : Nat) : Nat := if d = 0 then linePt s else (s.die d).nco.pt

/-- A point of line angle for a request that names only an angle (R58). -/
def resolveAngle (pt a : Nat) : Nat :=
  if pt % 2 ^ 32 < a then pt / 2 ^ 32 * 2 ^ 32 + a else (pt / 2 ^ 32 + 1) * 2 ^ 32 + a

/-- Enter a line state with its two status bits (R48). -/
def setLineState (st : Nat) (s : Device) : Device :=
  (((s.pset LINE_STAT_STATE st).pset LINE_STAT_HOLDOVER (if st = LineState.holdover then 1 else 0)).pset
    LINE_STAT_SYNTH (if st = LineState.synthetic then 1 else 0))

/-- The whole phase of an NCO, count included, in 2^-48 cycle. -/
def Nco.total (n : Nco) : Nat := n.count * 2 ^ 48 + n.phase

/-- The master NCO's whole phase at a tick, in 2^-51 cycle, interpolated between clocks (R44): before the latest frame
boundary with the increment that was in force there, and without its step (R45, R47). -/
def totalAt (s : Device) (t : Int) : Int :=
  let l := s.line
  if t < 8 * (l.bndAt : Int) then 8 * (l.bndTotal : Int) - l.bndInc * (8 * l.bndAt - t)
  else 8 * (l.nco.total : Int) - l.nco.inc * (8 * (s.now : Int) - t)

/-- The NCO angle interpolated to a tick (R44). -/
def angleAtTick (s : Device) (t : Nat) : Nat := (totalAt s t / 2 ^ 19 % 2 ^ 32).toNat

/-- The point of slot k, a number of angle units early, has been reached on this clock: the line was short of it at the
clock before (R56, R57, R60). -/
def slotPassed (s : Device) (k early : Nat) : Bool :=
  let o : Int := (early * 2 ^ 19 : Nat)
  let b := (8 * (s.line.nco.total : Int) + o) / 2 ^ 47
  decide ((totalAt s (8 * ((s.now : Int) - 1)) + o) / 2 ^ 47 < b - (b - k) % 16)

/-- The present clock is the first of a slot (R56, R60). -/
def slotBegins (s : Device) (k : Nat) : Bool := slotPassed s k 0
/-- The present clock is that of a slot's freeze point, 1/512 cycle before the slot (R257). -/
def freezeDue (s : Device) (k : Nat) : Bool := slotPassed s k 0x800000

/-- p of R44 as a sum of ticks and their number. -/
def Line.mean (l : Line) : Nat × Nat := if l.last4 = [] then (3276800, 1) else (l.last4.foldl (· + ·) 0, l.last4.length)

/-- PMIN in ticks (R41). -/
def pminTicks (s : Device) : Nat := s.pfrc LINE_PLIM_PMIN * 512
/-- PMAX in ticks. -/
def pmaxTicks (s : Device) : Nat := s.pfrc LINE_PLIM_PMAX * 512

/-- The difference of two ticks as a count. -/
def tickGap (a b : Nat) : Nat := b - a

/-- Whether an interval lies within ±2 % of a whole number of periods, at least one (R41); the period is p/n. -/
def nearPeriods (iv p n : Nat) : Bool :=
  [iv * n / p, iv * n / p + 1].any fun k => decide (1 ≤ k) &&
    decide ((if iv * n < k * p then k * p - iv * n else iv * n - k * p) * 50 ≤ k * p)

/-- The test of R41 on a candidate edge, by line state; the candidates before it stand newest first in `cands`. -/
def edgeQualifies (t : Nat) (s : Device) : Bool :=
  let l := s.line
  if lineState s = LineState.synthetic ∨ lineState s = LineState.holdover then
    match l.cands with
    | c1 :: c0 :: _ =>
      let i1 := tickGap c0 c1
      let i2 := tickGap c1 t
      decide (pminTicks s ≤ i1 ∧ i1 ≤ pmaxTicks s ∧ pminTicks s ≤ i2 ∧ i2 ≤ pmaxTicks s) &&
        decide ((if i1 < i2 then i2 - i1 else i1 - i2) * 50 ≤ i1)
    | _ => false
  else
    let iv := tickGap (l.lastQual.getD t) t
    if iv < pminTicks s then false
    else if lineState s = LineState.acquire then nearPeriods iv l.mean.1 l.mean.2
    else
      let a := angleAtTick s t
      decide (0xFAE147AE ≤ a ∨ a ≤ 0x051EB852)

/-- The correction of R44: the unclamped value and its limit. -/
def lineCorr (e : Int) (incMeas : Nat) : Int × Int :=
  (roundHalfEven (e * incMeas) (2 ^ 32), ((incMeas / 1024 : Nat) : Int))

/-- An interval lies within ±2 % of the mean p/n (R44). -/
def nearOne (iv p n : Nat) : Bool := decide ((if iv * n < p then p - iv * n else iv * n - p) * 50 ≤ p)

/-- The period sums a qualified edge leaves (R44). -/
def last4After (t : Nat) (s : Device) : List Nat :=
  let l := s.line
  if lineState s = LineState.synthetic ∨ lineState s = LineState.holdover then
    match l.cands with
    | c1 :: c0 :: _ => [tickGap c1 t, tickGap c0 c1]
    | _ => []
  else
    let iv := tickGap (l.lastQual.getD t) t
    if pminTicks s ≤ iv ∧ iv ≤ pmaxTicks s ∧ nearOne iv l.mean.1 l.mean.2 = true
    then (iv :: l.last4).take 4 else l.last4

/-- The line state decided at a qualified edge (R48). -/
def stateAfterEdge (st : Nat) (e : Int) : Nat :=
  if st = LineState.locked then (if 2 ^ 24 < e.natAbs then LineState.acquire else LineState.locked)
  else if st = LineState.acquire then (if e.natAbs ≤ 2 ^ 22 then LineState.locked else LineState.acquire)
  else LineState.acquire

/-- A qualified edge (R44, R47, R48, R51). The mean of the intervals is exact in every test and in inc_meas; LINE_PERIOD
reports it in whole ticks, its rounding a free bit, because R44 names none. -/
def qualifiedEdge (t : Nat) (s : Device) : Device :=
  let e := signedOf 32 (fieldOf 32 (-(angleAtTick s t : Int)))
  let st := lineState s
  let l4 := last4After t s
  let m := { s.line with last4 := l4 }.mean
  let p : Nat := (meanWith (Config.freeBit s.free) m.1 m.2).toNat
  let inc : Nat := (roundHalfEven (2 ^ 51 * m.2) m.1).toNat
  let ph := (totalAt s t / 8).toNat
  let (raw, lim) := lineCorr e inc
  let corr := clampInt (-lim) lim raw
  let st' := stateAfterEdge st e
  let stp := decide (st' = LineState.acquire ∧ st ≠ LineState.acquire ∧ s.pfrc LINE_CFG_STEP_EN = 1 ∧
    (pkgState s = Pkg.load ∨ pkgState s = Pkg.qualify))
  let s := if st = LineState.holdover then logEvent Cat.line 0 0x02 0xFF (s.reg 0x1B).toNat s else s
  let s := { s.nextFree with line := { s.line with
    lastQual := some t, last4 := l4, period := p, incMeas := inc, qualPt := ph
    incNext := some (if stp then inc else ((inc : Int) + corr).toNat)
    stepNext := if stp then some e else none
    slewNext := !stp && decide (raw ≠ corr) } }
  let s := s.setReg 0x18 (wordOfInt e)
  let s := setLineState st' s
  if st' = LineState.locked ∧ st ≠ LineState.locked then
    setCat Cat.line ((s.pset LINE_STAT_LOCK_EVT 1).pset LINE_STAT_EVER_LOCKED 1)
  else s

/-- A recognised reference edge, a candidate (R40, R41). -/
def candidateEdge (t : Nat) (s : Device) : Device :=
  let s' := if edgeQualifies t s then qualifiedEdge t s else s.pinc LINE_REJ_REJ_EDGE
  { s' with line := { s'.line with cands := (t :: s'.line.cands).take 2 } }

/-- LSYNC is heeded: from IMAGE_STAT.VALID on, without SYN_FORCE, while the lead die runs and its balls are not in husk
(R42, R45, R475). -/
def lsyncHeeded (s : Device) : Bool :=
  ballsLive s 0 && s.line.listen && s.pfrc LINE_CFG_SYN_FORCE == 0

/-- A level run of that many clocks that began at a tick has ended by the present clock. -/
def runOver (tick run : Nat) (s : Device) : Bool := decide (tick + 8 * run ≤ 8 * s.now)

/-- The present clock is the one 64 clocks after a tick (R40). -/
def edgeClock (tick : Nat) (s : Device) : Bool := decide (tick + 512 ≤ 8 * s.now ∧ 8 * s.now < tick + 520)

/-- An LSYNC level run that began at a tick. One shorter than 64 clocks is discarded as a glitch. Otherwise the level is
recognised 64 clocks after the tick; when it differs from the level recognised before, the level has changed, and the change
that is the reference edge of the polarity in force is a candidate (R39, R40). -/
def lsyncEdge (tick run : Nat) (rising : Bool) (s : Device) : Device :=
  if !lsyncHeeded s then s
  else if run < 64 then (if runOver tick run s then s.pinc LINE_REJ_REJ_GLITCH else s)
  else if rising == s.line.level || !edgeClock tick s then s
  else
    let s := s.modLine fun l => { l with level := rising }
    if rising == (s.pfrc LINE_CFG_POL == 0) then candidateEdge tick s else s

/-- Entry to HOLDOVER (R51). -/
def enterHoldover (s : Device) : Device :=
  let s := setLineState LineState.holdover (s.pset LINE_STAT_HOLD_EVT 1)
  let s := (s.setReg 0x1B 0)
  let s := s.modLine fun l => { l with holdPt := linePt s, incNext := some s.line.incMeas, stepNext := none, slewNext := false }
  logEvent Cat.line 0 0x01 0xFF s.line.period s

/-- The timeout instant of R50 passed 64 clocks ago: the NCO advanced by TIMEOUT half-cycles and 2 % of a cycle since the
last qualified edge. A candidate recognised meanwhile that qualified has moved that edge. -/
def timeoutDue (s : Device) : Bool :=
  decide (8 * ((s.line.qualPt : Int) + (s.pfrc LINE_CFG_TIMEOUT * 2 ^ 31 + 0x051EB852) * 2 ^ 16) ≤
    totalAt s (8 * ((s.now : Int) - 64)))

/-- The timeout of R50: HOLDOVER once LOCKED was reached since the start, else SYNTHETIC; none in SYNTHETIC and
HOLDOVER. -/
def lineTimeout (s : Device) : Device :=
  if timeoutDue s = false then s
  else if lineState s = LineState.locked ∨ (lineState s = LineState.acquire ∧ s.pget LINE_STAT_EVER_LOCKED = 1) then
    enterHoldover s
  else if lineState s = LineState.acquire then
    let s := setLineState LineState.synthetic s
    s.modLine fun l => { l with incNext := some 0x28F5C28F, stepNext := none, slewNext := false }
  else s

/-- TIMEOUT as stored: 0 and 1 become 2 (R62). -/
def lineCfgStored (w : Word) : Word := if LINE_CFG_TIMEOUT.get w < 2 then LINE_CFG_TIMEOUT.put 2 w else w

/-- A pair that R63 accepts. -/
def plimOk (w : Word) : Bool :=
  decide (4571 ≤ LINE_PLIM_PMIN.get w ∧ LINE_PLIM_PMIN.get w < LINE_PLIM_PMAX.get w ∧ LINE_PLIM_PMAX.get w ≤ 8000)

/-- A write of LINE_CFG or LINE_PLIM: it reads back at once and takes effect under R45. -/
def lineCfgWrite (r : LineReg) (data : Word) (s : Device) : Device :=
  match r with
  | .cfg => s.setReg 0x10 (lineCfgStored (data &&& 0x3F1#32))
  | .plim => if plimOk data then s.setReg 0x11 data else s

/-- LINE_REJ_CLR.CLR_REJ (R65). -/
def clrRej (data : Word) (s : Device) : Device := if LINE_REJ_CLR.get data = 1 then s.setReg 0x19 0 else s

/-- The boundary update of the NCO: the forward step, a new INC and the written LINE_CFG and LINE_PLIM take effect;
POL and SYN_FORCE wait for the next start (R45, R47, R50). -/
def lineBoundary (s : Device) : Device :=
  let l := s.line
  let n := l.nco
  let at_ := s.now
  let e : Nat := match l.stepNext with | some e => fieldOf 32 e | none => 0
  let p := n.phase + e * 2 ^ 16
  let n' : Nco := { n with phase := p % 2 ^ 48, count := (n.count + p / 2 ^ 48) % 2 ^ 48, inc := l.incNext.getD n.inc }
  let s := if l.stepNext.isSome then s.pset LINE_STAT_STEP_EVT 1 else s
  let s := if l.incNext.isSome then s.pset LINE_STAT_SLEWING (if l.slewNext then 1 else 0) else s
  let s := { s with line := { l with
    nco := n', bndAt := at_, bndTotal := n.total, bndInc := n.inc, qualPt := l.qualPt + e * 2 ^ 16, incNext := none, stepNext := none
    meter := l.meter + (if linePresent s then 25 * e * 2 ^ 16 else 0) } }
  let cfg := s.reg 0x10
  let f := LINE_CFG_STEP_EN.put (LINE_CFG_STEP_EN.get cfg) (LINE_CFG_TIMEOUT.put (LINE_CFG_TIMEOUT.get cfg) (s.frc 0x10))
  (s.setFrc 0x10 f).pforce 0x11

/-- One clock of the master NCO, of the line meter and, in HOLDOVER, of LINE_HOLDT, the whole half-cycles since its
entry (R43, R51, R273). -/
def lineClock (s : Device) : Device :=
  let tick := if linePresent s then 25 * s.line.nco.inc else 2 ^ 34
  let s := s.modLine fun l => { l with nco := s.line.nco.step, meter := s.line.meter + tick }
  if lineState s = LineState.holdover then
    s.setReg 0x1B (BitVec.ofNat 32 (min ((linePt s - s.line.holdPt) / 2 ^ 31) (2 ^ 32 - 1)))
  else s

/-- The start of the lead die's main domain (R54). -/
def lineStart (s : Device) : Device := { s with line := .reset }

/-- LSYNC_EDGE. -/
def execLsyncEdge (tick run : Nat) (rising : Bool) (s : State) : Host.Outcome State Fault Refusal :=
  onDev s (lsyncEdge tick run rising)
/-- LINE_TIMEOUT. -/
def execLineTimeout (s : State) : Host.Outcome State Fault Refusal := onDev s lineTimeout
/-- LINE_CFG_WRITE. -/
def execLineCfgWrite (r : LineReg) (data : Word) (s : State) : Host.Outcome State Fault Refusal :=
  onDev s (lineCfgWrite r data)
/-- CLR_REJ. -/
def execClrRej (data : Word) (s : State) : Host.Outcome State Fault Refusal := onDev s (clrRej data)

end Sys2Proof.Machine
end

