-- ==== Sys2Proof/Machine/Accum.lean ====
section
/-! DEFINITION. Charge and energy accumulation (R130 to R159): the clock of R131, winnowing, the constants in force,
epochs, calibrated values, the channel's share of a frame boundary, clears, and the commands ACC_CLEAR, TCR_UPDATE,
TCR_CFG_WRITE, CONSTANT_WRITE, OFFSET_WRITE and BASELINE_WRITE. -/

namespace Sys2Proof.Machine

/-! Offsets and the clock. -/

/-- The range in force of a channel: true for L (CH_SENSE.RANGE). -/
def chLow (s : Device) (g : Nat) : Bool := s.cbit g CH_SENSE_RANGE

/-- The current offset in force, 2^-24 count of the range in force per clock (R108, R131). -/
def ofsI (s : Device) (g : Nat) : Int :=
  let v := (s.ch g).conv
  let o := (s.frc (chAddr g 0x45)).toInt
  clampInt (-(2 ^ 23)) (2 ^ 23) (if chLow s g then 4 * o + v.liveL + v.benchL else o + v.liveH + v.benchH)

/-- The voltage offset in force (R108, R131). -/
def ofsV (s : Device) (g : Nat) : Int :=
  let v := (s.ch g).conv
  clampInt (-(2 ^ 23)) (2 ^ 23) ((s.frc (chAddr g 0x46)).toInt + v.liveV + v.benchV)

/-- The residue and the whole counts of the fractional carry (R131). -/
def carryOf (frac : Nat) (ofs : Int) : Nat × Int :=
  let f : Int := frac + ofs
  ((f % 2 ^ 24).toNat, f / 2 ^ 24)

/-- One clock of a channel's accumulation: the offset through the carry, the frame sums (R131, R139). -/
def Acc.clock (ofs level vhold : Int) (a : Acc) : Acc :=
  let (frac, k) := carryOf a.frac ofs
  let c := level - k
  { a with frac := frac, fq := a.fq + c, fe := a.fe + vhold * c }

/-! Winnowing. -/

/-- put() of R134: n counts and the energy e, both into-cell, booked to a direction. -/
def Acc.put (d : Dir) (n e : Int) (a : Acc) : Acc :=
  match d with
  | .out => { a with
      rawqOut := ((a.rawqOut - n : Int) % 2 ^ 64).toNat, epqOut := a.epqOut - n
      raweOut := wrapSigned 96 (a.raweOut - e), epeOut := a.epeOut - e }
  | _ => { a with
      rawqIn := ((a.rawqIn + n : Int) % 2 ^ 64).toNat, epqIn := a.epqIn + n
      raweIn := wrapSigned 96 (a.raweIn + e), epeIn := a.epeIn + e }

/-- The other direction. -/
def Dir.other : Dir → Dir
  | .inn => .out
  | .out => .inn
  | .none => .none

/-- The code of a direction in WINNOW_STAT.DIR. -/
def Dir.code : Dir → Nat
  | .none => 0
  | .inn => 1
  | .out => 2

/-- The direction of a code. -/
def Dir.ofCode (n : Nat) : Dir := if n = 1 then .inn else if n = 2 then .out else .none

/-- The direction a net count is booked to by its own sign. -/
def Dir.ofSign (n : Int) : Dir := if 0 ≤ n then .inn else .out

/-- The direction the frame is booked to under R134. -/
def bookDir (h : Nat) (a : Acc) : Dir :=
  if h ≤ a.fq.natAbs then Dir.ofSign a.fq else if a.dir = .none then Dir.ofSign a.fq else a.dir

/-- The chaff sum against the held direction after a weak frame: 24 and 64 bits (R134), free past these widths. -/
def chaffAfter (free : Nat) (a : Acc) : Int × Int :=
  let sum := if a.dir = .inn then (a.cq + a.fq, a.ce + a.fe) else (a.cq - a.fq, a.ce - a.fe)
  (within 24 free sum.1, within 64 free sum.2)

/-- The frame causes a transfer. -/
def bookXfer (free h : Nat) (a : Acc) : Bool :=
  decide (¬ h ≤ a.fq.natAbs) && decide (a.dir ≠ .none) && decide ((chaffAfter free a).1 ≤ -(h : Int))

/-- The booking of a frame (R134). -/
def Acc.book (free h : Nat) (a : Acc) : Acc :=
  let b : Acc :=
    if h ≤ a.fq.natAbs then { a.put (Dir.ofSign a.fq) a.fq a.fe with dir := Dir.ofSign a.fq, cq := 0, ce := 0 }
    else if a.dir = .none then a.put (Dir.ofSign a.fq) a.fq a.fe
    else
      let (cq, ce) := chaffAfter free a
      let p := a.put a.dir a.fq a.fe
      if cq ≤ -(h : Int) then
        let nq := if a.dir = .inn then cq else -cq
        let ne := if a.dir = .inn then ce else -ce
        { (p.put a.dir (-nq) (-ne)).put a.dir.other nq ne with dir := a.dir.other, cq := 0, ce := 0 }
      else { p with cq := cq, ce := ce }
  { b with fq := 0, fe := 0 }

/-- The threshold h of R134, from the WINNOW_HYST in force. -/
def hystOf (s : Device) (g : Nat) : Nat := s.cfrc g WINNOW_HYST * (if chLow s g then 4 else 1)

/-! Constants in force. -/

/-- The image charge constant of a range as it stands in a register file: mantissa and shift. -/
def kqImg (rd : Nat → Word) (g : Nat) (low : Bool) : Nat × Nat :=
  if low then ((rd (chAddr g 0x41)).toNat, K_SHIFT_KQ_L_SH.get (rd (chAddr g 0x44)))
  else ((rd (chAddr g 0x40)).toNat, K_SHIFT_KQ_H_SH.get (rd (chAddr g 0x44)))
/-- The image voltage constant. -/
def kvImg (rd : Nat → Word) (g : Nat) : Nat × Nat := ((rd (chAddr g 0x42)).toNat, K_SHIFT_KV_SH.get (rd (chAddr g 0x44)))
/-- The image energy constant; mantissa 0: derived. -/
def keImg (rd : Nat → Word) (g : Nat) : Nat × Nat := ((rd (chAddr g 0x43)).toNat, K_SHIFT_KE_SH.get (rd (chAddr g 0x44)))

/-- The factor f_ref: REF_RATIO while the die uses its internal reference, else 1 (R140). -/
def fRefOf (x : DieSt) : Nat := if x.refInt then x.fRef else 2 ^ 40

/-- KQ_EFF of R140. -/
def kqEff (img : Nat × Nat) (fRef fBench fCarry fTcr : Nat) : Option Const :=
  normRat (img.1 * fRef * fBench * fCarry * fTcr) (2 ^ (img.2 + 160))
/-- KV_EFF of R140. -/
def kvEff (img : Nat × Nat) (fRef fBench fCarry : Nat) : Option Const :=
  normRat (img.1 * fRef * fBench * fCarry) (2 ^ (img.2 + 120))
/-- KE_EFF of R142: derived, or the explicit range-H constant with the exact ratios. -/
def keEff (ke kqH kv : Nat × Nat) (kqE kvE : Const) : Option Const :=
  if ke.1 = 0 then normRat (kqE.mant * kvE.mant) (10 ^ 6 * 2 ^ (kqE.sh + kvE.sh))
  else normRat (ke.1 * kqE.mant * kvE.mant * 2 ^ (kqH.2 + kv.2)) (kqH.1 * kv.1 * 2 ^ (ke.2 + kqE.sh + kvE.sh))

/-- The charge and voltage constants in force for a range from given image words and factors; where live factors leave one
without a norm the present one stays (R140, R141). -/
def constsQV (rd : Nat → Word) (g : Nat) (low : Bool) (v : Conv) (fRef : Nat) : Const × Const :=
  ((kqEff (kqImg rd g low) fRef (if low then v.fBenchIL else v.fBenchIH) v.fCarryI v.fTcr).getD v.kq,
   (kvEff (kvImg rd g) fRef v.fBenchV v.fCarryV).getD v.kv)

/-- The constants in force for a range from given image words and factors (R140 to R142). An energy constant without a norm,
which charge and voltage constants each in their range can give, has an open value. -/
def constsFrom (rd : Nat → Word) (g : Nat) (low : Bool) (v : Conv) (fRef : Nat) : Const × Const × Const :=
  let (kq, kv) := constsQV rd g low v fRef
  let o := Config.openKe kq.mant kq.sh kv.mant kv.sh
  (kq, kv, (keEff (keImg rd g) (kqImg rd g false) (kvImg rd g) kq kv).getD ⟨2 ^ 31 + o.1 % 2 ^ 31, o.2 % 64⟩)

/-- A constant's word is accepted: it is not 0, and its constant in force has a norm (R141). KE may be 0, and is tested in
the range in force; a word of shifts is accepted when every constant is. -/
def constOk (rd : Nat → Word) (g : Nat) (low : Bool) (v : Conv) (fRef : Nat) (r : KReg) : Bool :=
  let q (l : Bool) : Bool := (kqEff (kqImg rd g l) fRef (if l then v.fBenchIL else v.fBenchIH) v.fCarryI v.fTcr).isSome
  let u : Bool := (kvEff (kvImg rd g) fRef v.fBenchV v.fCarryV).isSome
  let e : Bool := (keImg rd g).1 == 0 ||
    (keEff (keImg rd g) (kqImg rd g false) (kvImg rd g) (constsQV rd g low v fRef).1 (constsQV rd g low v fRef).2).isSome
  match r with
  | .kqH => q false
  | .kqL => q true
  | .kv => u
  | .ke => e
  | .kShift => q false && q true && u && e

/-- The triple in force. -/
def Conv.triple (v : Conv) : Const × Const × Const := (v.kq, v.kv, v.ke)

/-! Calibrated values and epochs. -/

/-- A value that holds at its limit stays; another takes the new value, stopped at the limit (R159). -/
def holdAt (n : Nat) (held : Bool) (old new : Int) : Int := if held then old else clampSigned n new

/-- The bits, from bit i up, of the values of a list that would pass their limit (R159). -/
def passBits (n : Nat) : Nat → List Int → Nat
  | _, [] => 0
  | i, x :: l => (if clampSigned n x = x then 0 else 2 ^ i) + passBits n (i + 1) l

/-- The exact values bank + conv of R145, in 2^-32 units: IN, OUT and net of charge. -/
def Acc.exactQ (a : Acc) (kq : Const) : Int × Int × Int :=
  (a.bqIn + convFloor a.epqIn kq, a.bqOut + convFloor a.epqOut kq, a.bqNet + convFloor (a.epqIn - a.epqOut) kq)
/-- The same for energy. -/
def Acc.exactE (a : Acc) (ke : Const) : Int × Int × Int :=
  (a.beIn + convFloor a.epeIn ke, a.beOut + convFloor a.epeOut ke, a.beNet + convFloor (a.epeIn - a.epeOut) ke)

/-- The calibrated values of a boundary (R145, R146). DESIGN CHOICE (notes/assumptions/59): while a net value holds at its
limit its fraction goes on as that of the exact net value. -/
def Acc.formCal (kq ke : Const) (a : Acc) : Acc :=
  let (qi, qo, qn) := a.exactQ kq
  let (ei, eo, en) := a.exactE ke
  let h (i : Nat) : Bool := a.held.testBit i
  { a with
    calqIn := holdAt 64 (h 0) a.calqIn (qi / 2 ^ 32), calqOut := holdAt 64 (h 1) a.calqOut (qo / 2 ^ 32)
    calqNet := holdAt 64 (h 2) a.calqNet (qn / 2 ^ 32), caleIn := holdAt 64 (h 3) a.caleIn (ei / 2 ^ 32)
    caleOut := holdAt 64 (h 4) a.caleOut (eo / 2 ^ 32), caleNet := holdAt 64 (h 5) a.caleNet (en / 2 ^ 32)
    fracQ := (qn % 2 ^ 32).toNat, fracE := (en % 2 ^ 32).toNat
    held := a.held ||| passBits 64 0 ([qi, qo, qn, ei, eo, en].map fun x => x / 2 ^ 32) }

/-- The banks take the open epoch with its own constants (R145). -/
def Acc.bank (kq ke : Const) (a : Acc) : Acc :=
  let (qi, qo, qn) := a.exactQ kq
  let (ei, eo, en) := a.exactE ke
  let h (i : Nat) : Bool := a.held.testBit i
  { a with
    bqIn := holdAt 96 (h 6) a.bqIn qi, bqOut := holdAt 96 (h 7) a.bqOut qo, bqNet := holdAt 96 (h 8) a.bqNet qn
    beIn := holdAt 96 (h 9) a.beIn ei, beOut := holdAt 96 (h 10) a.beOut eo, beNet := holdAt 96 (h 11) a.beNet en
    held := a.held ||| passBits 96 6 [qi, qo, qn, ei, eo, en]
    epqIn := 0, epqOut := 0, epeIn := 0, epeOut := 0 }

/-- A clear (R155): everything but the carry. -/
def Acc.clear (a : Acc) : Acc := { Acc.reset with frac := a.frac, fq := a.fq, fe := a.fe }

/-- A value or a bank holds at its signed limit (R159). -/
def Acc.atLimit (a : Acc) : Bool := a.held != 0

/-- Close the open epoch with a set of cause bits. Several causes on one boundary make one close (R144). The closes
within a run's gate keep their causes (R197). -/
def closeEpoch (causes : Nat) (g : Nat) (s : Device) : Device :=
  let c := s.ch g
  let s := s.modConv g fun v => { v with gateCauses := v.gateCauses ||| causes }
  if c.due.closed then s.cset g EPOCH_STAT_CAUSE (s.cget g EPOCH_STAT_CAUSE ||| causes)
  else
    let s := s.modCh g fun c => { c with acc := c.acc.bank c.conv.kq c.conv.ke, due := { c.due with closed := true } }
    let s := s.cset g EPOCH_STAT_CAUSE causes
    let s := s.cset g EPOCH_COUNT (min (s.cget g EPOCH_COUNT + 1) (2 ^ 32 - 1))
    let s := s.cset g EPOCH_FRAME s.frame
    if (s.ch g).acc.atLimit then s.cset g EPOCH_STAT_OVF 1 else s

/-- Take constants into force, with the register bit that follows an explicit KE (R142). -/
def takeConsts (k : Const × Const × Const) (g : Nat) (s : Device) : Device :=
  let s := s.modConv g fun v => { v with kq := k.1, kv := k.2.1, ke := k.2.2 }
  s.cset g EPOCH_STAT_KE_EXPL (if s.frc (chAddr g 0x43) = 0 then 0 else 1)

/-- The constants that the words in force and the factors give. -/
def constsNow (s : Device) (g : Nat) : Const × Const × Const :=
  constsFrom s.frc g (chLow s g) (s.ch g).conv (fRefOf (s.die (g / 8)))

/-- The word a register names gives a constant the device accepts, with the factors in force (R141). -/
def kAccepts (t : Device) (g : Nat) (r : KReg) : Bool :=
  constOk t.reg g (chLow t g) (t.ch g).conv (fRefOf (t.die (g / 8))) r

/-- Bring the constants up to date; an epoch closes when they change, or in any case when `always` (R144). -/
def updateConsts (causes : Nat) (always : Bool) (g : Nat) (s : Device) : Device :=
  let k := constsNow s g
  let s := if always || decide (k ≠ (s.ch g).conv.triple) then closeEpoch causes g s else s
  takeConsts k g s

/-! Shunt temperature (R143, R191). -/

/-- TCR_HOLD: the readings of the die are invalid, or its thermistor reads open or short (R143, R191). -/
def tcrHold (s : Device) (d : Nat) : Bool :=
  s.dbit d BENCH_STAT_SAR_FAIL || s.dbit d BTEMP_RD_OPEN || s.dbit d BTEMP_RD_SHORT

/-- The mean BTEMP of the last 4,000 frames as a sum in 2^-20 °C and a number of readings. -/
def btMean (s : Device) (d : Nat) : Int × Nat :=
  (s.die d).sar.btHist.foldl (fun a b => (a.1 + b.1, a.2 + b.2)) (0, 0)

/-- f_new of R143 for α in 0.01 ppm/K and t0 in 0.25 °C; the present factor when no reading exists. -/
def fTcrNew (alpha : Int) (t0 : Nat) (m : Int × Nat) (old : Nat) : Nat :=
  if m.2 = 0 then old
  else
    let n : Int := m.2
    -- x = α·10⁻⁸·(sum/(n·2^20) − t0/4), so 1 + x = top / bot
    let bot : Int := n * 2 ^ 20 * 10 ^ 8
    let top : Int := bot + alpha * (m.1 - t0 * n * 2 ^ 18)
    if top ≤ 0 then old else (roundHalfEven (2 ^ 40 * bot) top.toNat).toNat

/-- ALPHA in force. -/
def alphaOf (s : Device) (g : Nat) : Int := signedOf 16 (s.cfrc g TCR_CFG_ALPHA)

/-- f_new of a channel from the ALPHA and T0 in force. -/
def fTcrOf (s : Device) (g : Nat) : Nat :=
  fTcrNew (alphaOf s g) (s.cfrc g TCR_CFG_T0) (btMean s (g / 8)) (s.ch g).conv.fTcr

/-- A TCR_CFG write takes effect: f_tcr without the 0.1 ppm test, cause bit 3 (R143). -/
def tcrWritten (g : Nat) (s : Device) : Device :=
  let s := (s.cforce g 0x47).modDue g fun x => { x with tcr := false }
  let f := if alphaOf s g = 0 then 2 ^ 40 else if tcrHold s (g / 8) then (s.ch g).conv.fTcr else fTcrOf s g
  updateConsts 8 false g (s.modConv g fun v => { v with fTcr := f })

/-- The once-per-second update of one channel (R143). -/
def tcrUpdateCh (g : Nat) (s : Device) : Device :=
  if alphaOf s g = 0 ∨ tcrHold s (g / 8) = true ∨ (s.die (g / 8)).seeded = false then s
  else
    let f := fTcrOf s g
    let old := (s.ch g).conv.fTcr
    if 109951 < ((f : Int) - old).natAbs then updateConsts 4 false g (s.modConv g fun v => { v with fTcr := f }) else s

/-- TCR_UPDATE: at the boundaries whose package frame number is a multiple of 4,000 (R143). -/
def tcrUpdate (s : Device) : Device := if s.frame % 4000 = 0 ∧ s.clk = 0 then s.each s.chList tcrUpdateCh else s

/-! Baselines (R129, R193, R194). -/

/-- The four baseline words of a channel. -/
def baseWords (s : Device) (g : Nat) : List Word := (List.range 4).map fun i => s.reg (chAddr g (0x4C + i))

/-- The live corrections are reset, and the retained baselines become these (R129, R194). -/
def resetLive (base : List Word) (g : Nat) (s : Device) : Device :=
  let s := s.modConv g fun v => { v with
    fBenchIH := 2 ^ 40, fBenchIL := 2 ^ 40, fBenchV := 2 ^ 40, liveH := 0, liveL := 0, liveV := 0, dH := 0, dL := 0, base := base }
  s.setReg (dieAddr (g / 8) (0x18 + g % 8)) 0

/-- Baselines that differ from the retained ones reset the live corrections (R194). -/
def baseReset (g : Nat) (s : Device) : Device :=
  let b := baseWords s g
  if (s.ch g).conv.base = b then s else resetLive b g s

/-! The channel's share of a frame boundary (R147). -/

/-- Steps 1 to 3: booking, the calibrated values, the boundary copy (R134, R145, R22). -/
def bookFrame (g : Nat) (s : Device) : Device :=
  let h := hystOf s g
  let a := (s.ch g).acc
  let free := s.free
  let w : Nat := fieldOf 16 a.fq + (if bookDir h a = .out then 2 ^ 16 else 0) + (if bookXfer free h a then 2 ^ 17 else 0)
  let low := chLow s g
  let s := s.nextFree.modCh g fun c =>
    let b := (c.acc.book free h).formCal c.conv.kq c.conv.ke
    { c with acc := b, bnd := b, bndLow := low, due := { c.due with closed := false } }
  let s := s.setReg (chAddr g 0x2C) (BitVec.ofNat 32 w)
  if (s.ch g).acc.atLimit then s.cset g EPOCH_STAT_OVF 1 else s

/-- The image words of the constants take effect (R144 cause bit 3). -/
def forceConsts (g : Nat) (s : Device) : Device := s.each [0x40, 0x41, 0x42, 0x43, 0x44] fun o t => t.cforce g o

/-- The range that counts from this boundary on. -/
def nextLow (s : Device) (g : Nat) : Bool := (s.ch g).due.range.getD (chLow s g)

/-- A range change takes effect at this boundary (R101). -/
def rangeMoves (s : Device) (g : Nat) : Bool := nextLow s g != chLow s g

/-- The constants that the words in force and the factors give in the range that counts from this boundary on. -/
def constsNext (s : Device) (g : Nat) : Const × Const × Const :=
  constsFrom s.frc g (nextLow s g) (s.ch g).conv (fRefOf (s.die (g / 8)))

/-- One action on constants, factors or baselines at a boundary, with its cause bits where it changes a constant of the range
that counted or of the one that counts from here on (R144, R202). -/
def constAct (cause : Nat) (f : Nat → Device → Device) (g : Nat) (s : Device) (c : Nat) : Device × Nat :=
  let t := f g s
  (t, if constsNext t g = constsNext s g ∧ constsNow t g = constsNow s g then c else c ||| cause)

/-- The epoch closes, with the causes noted, when the constants that take effect are not those in force (R144); the close comes
first (R147). At a range change the constants wait for it, whose own close it is then too (R145, R202). -/
def constClose (g : Nat) (s : Device) (c : Nat) : Device :=
  if rangeMoves s g then (if c = 0 then s else closeEpoch c g s)
  else
    let k := constsNow s g
    takeConsts k g (if k = (s.ch g).conv.triple then s else closeEpoch c g s)

/-- The settings of a main-domain start take effect (R148). -/
def startConsts (g : Nat) (s : Device) : Device := forceConsts g ((baseReset g s).cforce g 0x47)

/-- DIR and the chaff sum start anew (R135). -/
def clearDir (g : Nat) (s : Device) : Device := s.modAcc g fun a => { a with dir := .none, cq := 0, ce := 0 }

/-- I_DRIFT shows the drift of the range in force (R128). -/
def showDrift (g : Nat) (s : Device) : Device :=
  let v := (s.ch g).conv
  s.dset (g / 8) (BENCH_DRIFT_I_DRIFT.at (g % 8)) (fieldOf 16 (clampSigned 16 (if chLow s g then v.dL else v.dH)))

/-- A range change takes effect at this boundary, the loop quantities rescaled by the caller (R101, R135, R144). -/
def rangeConsts (low : Bool) (g : Nat) (s : Device) : Device :=
  updateConsts 2 true g (showDrift g (clearDir g (s.cset g CH_SENSE_RANGE (if low then 1 else 0))))

/-- Step 5: a due clear (R147, R155). -/
def clearNow (g : Nat) (s : Device) : Device :=
  if (s.ch g).due.clear then
    let s := closeEpoch 64 g s
    let n := s.cget g EPOCH_COUNT
    let s := (s.modCh g fun c => { c with acc := c.acc.clear, due := { c.due with clear := false } }).cset g EPOCH_COUNT 0
    logEvent Cat.ch (g / 8) 0x20 g n (s.cset g EPOCH_STAT_OVF 0)
  else s

/-- Steps 5 and 6: a due clear; then, while the die counts, offsets and threshold (R147, R155, R132, R135). -/
def clearBoundary (g : Nat) (s : Device) : Device :=
  let s := clearNow g s
  if (s.die (g / 8)).seeded then
    let s := (s.cforce g 0x45).cforce g 0x46
    if s.reg (chAddr g 0x48) = s.frc (chAddr g 0x48) then s else clearDir g (s.cforce g 0x48)
  else s

/-! Partial frames and retention of counts (R156). -/

/-- The partial frame of a stopping die is booked; CUT marks channels that switched (R156). -/
def bookPartial (d : Nat) (s : Device) : Device :=
  if (s.die d).seeded then
    let s := s.each (chansOf d) fun g t =>
      let h := hystOf t g
      let free := t.free
      let t := t.nextFree.modAcc g (Acc.book free h)
      if (t.ch g).lp.gl then t.cset g EPOCH_STAT_CUT 1 else t
    s.modDie d fun x => { x with seeded := false }
  else s

/-! Writes. -/

/-- ACC_CTL with its key: the clear waits for the next boundary (R155). -/
def accClear (g : Nat) (data : Word) (s : Device) : Device :=
  if ACC_CTL_CLR.get data = 1 ∧ ACC_CTL_CLR_KEY.get data = 0xC3 then s.modDue g fun x => { x with clear := true } else s

/-- A TCR_CFG write (R143). -/
def tcrCfgWrite (g : Nat) (data : Word) (s : Device) : Device :=
  (s.setReg (chAddr g 0x47) (data &&& 0x01FFFFFF#32)).modDue g fun x => { x with tcr := true }

/-- The offset of a constant's word. -/
def kOff : KReg → Nat
  | .kqH => 0x40
  | .kqL => 0x41
  | .kv => 0x42
  | .ke => 0x43
  | .kShift => 0x44

/-- A board word written while a CAL_CTL command waits takes its place behind it (R202). -/
def calNote (off : Nat) (w : Word) (g : Nat) (s : Device) : Device :=
  s.modDue g fun x => if x.cal = [] then x else { x with cal := x.cal ++ [(off, w)] }

/-- A write of a board word: it reads back at once. -/
def boardWrite (off : Nat) (w : Word) (g : Nat) (s : Device) : Device := calNote off w g (s.setReg (chAddr g off) w)

/-- A write of KQ_H, KQ_L, KV, KE or K_SHIFT: refused with KBAD when a constant would not fit (R141). -/
def constantWrite (g : Nat) (r : KReg) (data : Word) (s : Device) : Device :=
  let w := if r = .kShift then data &&& 0x3F3F3F3F#32 else data
  let s' := s.setReg (chAddr g (kOff r)) w
  if kAccepts s' g r then boardWrite (kOff r) w g s
  else s.cset g EPOCH_STAT_KBAD 1

/-- At load a constant that R141 refuses takes the default of the register table, with KBAD. -/
def constLoad (g : Nat) (s : Device) : Device :=
  let fix (r : KReg) (f : Fld .ch) (s : Device) : Device :=
    if kAccepts s g r then s
    else ((s.setReg (chAddr g (kOff r)) (regDefault (chAddr g (kOff r)))).cset g f (f.get (regDefault (chAddr g 0x44)))).cset g
      EPOCH_STAT_KBAD 1
  fix .ke K_SHIFT_KE_SH (fix .kv K_SHIFT_KV_SH (fix .kqL K_SHIFT_KQ_L_SH (fix .kqH K_SHIFT_KQ_H_SH s)))

/-- OFS_I and OFS_V are stored clamped to ±2^20 (R158). -/
def offsetWrite (g : Nat) (volt : Bool) (data : Word) (s : Device) : Device :=
  boardWrite (if volt then 0x46 else 0x45) (wordOfInt (clampInt (-(2 ^ 20)) (2 ^ 20) data.toInt)) g s

/-- The offset of a baseline's word. -/
def baseOff : BaseReg → Nat
  | .grefIH => 0x4C
  | .grefIL => 0x4D
  | .grefV => 0x4E
  | .oref => 0x4F

/-- A baseline write; it is compared at the next boundary (R194). -/
def baselineWrite (g : Nat) (r : BaseReg) (data : Word) (s : Device) : Device :=
  boardWrite (baseOff r) data g s

/-! The words of a channel's accumulator group (R26, R154). -/

/-- Word i of a value. -/
def wordAt (x : Int) (i : Nat) : Word := BitVec.ofInt 32 (x / 2 ^ (32 * i))

/-- The word of the accumulator group at an offset of the channel block. -/
def groupWord (a : Acc) (off : Nat) : Word :=
  if off < 0x22 then wordAt a.rawqIn (off - 0x20)
  else if off < 0x24 then wordAt a.rawqOut (off - 0x22)
  else if off < 0x27 then wordAt a.raweIn (off - 0x24)
  else if off < 0x2A then wordAt a.raweOut (off - 0x27)
  else if off < 0x32 then wordAt a.calqIn (off - 0x30)
  else if off < 0x34 then wordAt a.calqOut (off - 0x32)
  else if off < 0x36 then wordAt a.calqNet (off - 0x34)
  else if off < 0x38 then wordAt a.caleIn (off - 0x36)
  else if off < 0x3A then wordAt a.caleOut (off - 0x38)
  else if off < 0x3C then wordAt a.caleNet (off - 0x3A)
  else if off = 0x3D then BitVec.ofNat 32 a.fracQ
  else BitVec.ofNat 32 a.fracE

/-- The offsets of the group. -/
def groupOffs : List Nat :=
  [0x20, 0x21, 0x22, 0x23, 0x24, 0x25, 0x26, 0x27, 0x28, 0x29, 0x30, 0x31, 0x32, 0x33, 0x34, 0x35, 0x36, 0x37, 0x38,
   0x39, 0x3A, 0x3B, 0x3D, 0x3E]

/-- The channel words that are computed from typed state: WINNOW_STAT, KQ_EFF, KV_EFF, KE_EFF, EFF_SHIFT. -/
def accView (c : Chan) (off : Nat) : Option Word :=
  if off ∈ groupOffs then some (groupWord c.acc off)
  else if off = 0x2B then some (BitVec.ofNat 32 (c.acc.dir.code + fieldOf 24 c.acc.cq * 256))
  else if off = 0x2D then some (BitVec.ofNat 32 c.conv.kq.mant)
  else if off = 0x2E then some (BitVec.ofNat 32 c.conv.kv.mant)
  else if off = 0x2F then some (BitVec.ofNat 32 c.conv.ke.mant)
  else if off = 0x3C then some (BitVec.ofNat 32 (c.conv.kq.sh + c.conv.kv.sh * 256 + c.conv.ke.sh * 65536))
  else none

/-! Commands. -/

/-- ACC_CLEAR. -/
def execAccClear (g : Ch) (data : Word) (s : State) : Host.Outcome State Fault Refusal :=
  onDie (g.val / 8) s (accClear g data)
/-- TCR_UPDATE. -/
def execTcrUpdate (s : State) : Host.Outcome State Fault Refusal := onDev s tcrUpdate
/-- TCR_CFG_WRITE. -/
def execTcrCfgWrite (g : Ch) (data : Word) (s : State) : Host.Outcome State Fault Refusal :=
  onDie (g.val / 8) s (tcrCfgWrite g data)
/-- CONSTANT_WRITE. -/
def execConstantWrite (g : Ch) (r : KReg) (data : Word) (s : State) : Host.Outcome State Fault Refusal :=
  onDie (g.val / 8) s (constantWrite g r data)
/-- OFFSET_WRITE. -/
def execOffsetWrite (g : Ch) (volt : Bool) (data : Word) (s : State) : Host.Outcome State Fault Refusal :=
  onDie (g.val / 8) s (offsetWrite g volt data)
/-- BASELINE_WRITE. -/
def execBaselineWrite (g : Ch) (r : BaseReg) (data : Word) (s : State) : Host.Outcome State Fault Refusal :=
  onDie (g.val / 8) s (baselineWrite g r data)

end Sys2Proof.Machine
end

