-- ==== Sys2Proof/Machine/Operands.lean ====
section
/-! DEFINITION. The operand forms of the loops: setpoints and limits in loop units, coefficients as MANT · 2^-SHIFT,
and the quantities the fast words stand for (R76, R77, R81, R90). -/

namespace Sys2Proof.Machine

/-- A rational num/den rounded half to even. -/
def rheRat (num : Int) (den : Nat) : Int := roundHalfEven num den

/-- A current in mA as current words: x · 2^22 / I_cc, I_cc = 73,728 · KQ in mA (R76). -/
def iWord (k : Const) (ma : Int) : Int := rheRat (ma * 2 ^ (22 + k.sh)) (k.mant * 73728)

/-- ilim_w: limited to 15/16 of the range (R76). -/
def ilimW (k : Const) (ma : Nat) : Int := min (iWord k ma) 7864320

/-- vset_w = (VSET − V_ofs) / v_lsb, with V_ofs the voltage of OFS_V (R76). -/
def vsetW (k : Const) (uv : Nat) (ofs : Int) : Int := rheRat (4 * (uv : Int) * 2 ^ k.sh - ofs * k.mant) (4 * k.mant)

/-- pset_w in current word times voltage word (R76). -/
def psetW (kq kv : Const) (mw : Int) : Int :=
  rheRat (mw * 10 ^ 6 * 2 ^ (22 + kq.sh + kv.sh)) (kq.mant * 73728 * kv.mant)

/-- A coefficient times a value, truncated towards minus infinity to 16 fractional bits (R77). -/
def coefMul (mant shift : Nat) (x : Int) : Int := mant * x * 2 ^ 16 / 2 ^ shift

/-- The same, a quarter in range L (R80). -/
def coefMulQ (low : Bool) (mant shift : Nat) (x : Int) : Int :=
  if low then mant * x * 2 ^ 16 / 2 ^ (shift + 2) else coefMul mant shift x

/-- The setpoints a channel works to: CH_ISET, CH_VSET and CH_PSET (R88). -/
def isetOf (s : Device) (g : Nat) : Int := (s.reg (chAddr g 0x08)).toInt
/-- CH_VSET. -/
def vsetOf (s : Device) (g : Nat) : Nat := (s.reg (chAddr g 0x09)).toNat
/-- CH_PSET. -/
def psetOf (s : Device) (g : Nat) : Int := (s.reg (chAddr g 0x0A)).toInt
/-- CH_ILIM in current words. -/
def ilimOf (s : Device) (g : Nat) : Int := ilimW (s.ch g).conv.kq (s.cget g CH_ILIM)

/-- The mode in force, codes 5 to 7 treated as REST (R82). -/
def modeOf (s : Device) (g : Nat) : Nat := let m := s.cget g CH_CTL_MODE; if 4 < m then 0 else m

/-- A current word in pA: w · I_cc / 2^22, as numerator over 2^(22+shift) mA. -/
def iWordMaNum (k : Const) (w : Int) : Int := w * k.mant * 73728

/-- A thing a fast word shows: CH_I_FAST. -/
def iFast (s : Device) (g : Nat) : Int := (s.reg (chAddr g 0x10)).toInt
/-- CH_V_FAST. -/
def vFast (s : Device) (g : Nat) : Int := (s.reg (chAddr g 0x11)).toInt

/-- VSP − VSN is not below −RVP_TH, as the fast word shows it (R84, R92; DEDUCED, notes/assumptions/61: the comparator of
R92 watches the same pair of balls apart from the modulators, and the state holds their voltage in no other form). -/
def rvpAbsent (s : Device) (g : Nat) : Bool :=
  let k := (s.ch g).conv.kv
  decide (-(25000 * (s.cget g CH_PROT_RVP_TH : Nat) * 2 ^ k.sh : Int) ≤ vFast s g * k.mant)

/-- The last n fast words of a channel, the voltage or the current, all exist and lie beyond a limit in magnitude. -/
def fastBeyond (s : Device) (g n lim : Nat) (volt : Bool) : Bool :=
  let l := (s.ch g).eng.fastHist.take n
  decide (l.length = n) && l.all fun w => decide (lim < (if volt then w.1 else w.2).natAbs)

/-- 16 consecutive fast words within 1/64 of full scale of the modulator's limit (R103). -/
def overloadNow (s : Device) (g : Nat) (volt : Bool) : Bool := fastBeyond s g 16 8257535 volt

/-- 4 consecutive fast current words above 15/16 of full scale (R102). -/
def uprangeNow (s : Device) (g : Nat) : Bool := fastBeyond s g 4 7864320 false

/-- PER in force. -/
def perOf (s : Device) (g : Nat) : Nat := s.cfrc g CH_PWM_PER
/-- Ticks since the latest tick at which a period of the channel starts (R72). -/
def periodTick (s : Device) (g : Nat) : Nat :=
  let per := perOf s g
  ((s.die (g / 8)).tick + 8 * per - s.cfrc g CH_PWM_PHASE * (per / 8)) % per

/-- A period started on this clock or within the 8 ticks that end at it, and has not been taken (R72). -/
def periodDue (s : Device) (g : Nat) : Bool :=
  decide (periodTick s g < 8) && decide ((s.ch g).lp.perAt ≠ some (s.die (g / 8)).tick)

/-- ton_lo of R73. -/
def tonLo (s : Device) (g : Nat) : Int := (s.cfrc g CH_PWM_TON_MIN : Int) * 32
/-- ton_hi of R73. -/
def tonHi (s : Device) (g : Nat) : Int :=
  ((perOf s g : Int) - s.cfrc g CH_PWM_TOFF_MIN) * 32 - s.cfrc g CH_DT_LH - s.cfrc g CH_DT_HL

/-- The latest VBUS reading of a die in 10 mV: the greatest position among those converted last (R113, R77). -/
def vbusCode (s : Device) (d : Nat) : Nat :=
  let r := (s.die d).sar
  let p := r.pos
  nth r.codes ((p + 31) % 32 / 4 * 4)

end Sys2Proof.Machine
end

