-- ==== Sys2Proof/Machine/Sense.lean ====
section
/-! DEFINITION. The sense front end (R99 to R112): the sinc3 decimators of a modulator, the fast and the precise words
and the words of a channel from the modulator that carries it. -/

namespace Sys2Proof.Machine

/-! The decimators. A level enters in quarter counts, so that range L weighs a quarter of range H (R108). -/

/-- One clock of the three integrators. -/
def Decim.push (x : Int) (d : Decim) : Decim :=
  let i1 := d.i1 + x
  let i2 := d.i2 + i1
  { d with i1 := i1, i2 := i2, i3 := d.i3 + i2 }

/-- The end of a 16-clock window: the third integrator is held for the combs. -/
def Decim.latch (d : Decim) : Decim := { d with lat := d.i3 }

/-- The combs of the fast path: the sinc3 sum over the window, decimation 16 (R109). -/
def Decim.fastOut (d : Decim) : Int × Decim :=
  let c1 := d.lat - d.f1
  let c2 := c1 - d.f2
  (c2 - d.f3, { d with f1 := d.lat, f2 := c1, f3 := c2 })

/-- The combs of the precise path, decimation 5,120 (R110). -/
def Decim.precOut (d : Decim) : Int × Decim :=
  let c1 := d.lat - d.p1
  let c2 := c1 - d.p2
  (c2 - d.p3, { d with p1 := d.lat, p2 := c1, p3 := c2 })

/-- The weight of a level in quarter counts (R108). -/
def weight (low volt : Bool) (level : Int) : Int := if volt then 4 * level else if low then level else 4 * level

/-- Hold a word inside 24 signed bits. -/
def clampWord (x : Int) : Int := clampSigned 24 x

/-- A fast word from its sinc3 sum in quarter counts and the offset in force (R109). -/
def fastWord (low volt : Bool) (q ofs : Int) : Int :=
  clampWord ((if low && !volt then 1024 * q else 256 * q) - roundHalfEven ofs 4)

/-- A precise word; the division leaves a remainder whose rounding the manual does not name (R110). -/
def precWord (up : Bool) (low volt : Bool) (q ofs : Int) : Int :=
  clampWord ((if low && !volt then meanWith up q 32000 else meanWith up q 128000) - roundHalfEven ofs 4)

/-- A bench word scaled by ratio_a (R122), its rounding open, a free bit. -/
def scaleWord (up : Bool) (ratio : Nat) (w : Int) : Int := clampWord (meanWith up (w * ratio) (2 ^ 40))

/-- The bench carries the channel (CH_SENSE.CARRIER). -/
def carried (s : Device) (g : Nat) : Bool := s.cbit g CH_SENSE_CARRIER

/-- The pair of fast words the loops and reports take: its own, or the bench's scaled while the bench carries it (R122,
R127). -/
def carrierWords (s : Device) (g : Nat) (own bench : Int × Int) : Int × Int :=
  let b := (s.die (g / 8)).bench
  if carried s g then
    (scaleWord (Config.freeBit s.free) b.ratioI bench.1, scaleWord (Config.freeBit (s.free + 1)) b.ratioV bench.2)
  else own

/-- The bench pair's combs of the fast path: the sums, and the die with them advanced. -/
def benchFast (d : Nat) (s : Device) : (Int × Int) × Device :=
  let b := (s.die d).bench
  let (qi, di) := b.di.fastOut
  let (qv, dv) := b.dv.fastOut
  ((qi, qv), s.modBench d fun b => { b with di := di, dv := dv })

/-- V_hold of a channel: the voltage word in hold of the modulator that carries it, as that word was formed, in that
modulator's own scale, which the constants in force hold (R109, R121, R139). -/
def vHold (s : Device) (g : Nat) : Int := if carried s g then (s.die (g / 8)).bench.vw else (s.ch g).vw

/-- The fast words of a channel: CH_I_FAST and CH_V_FAST, the loop's sums, the last 16 words (R77, R109, R248). -/
def fastChannel (bq : Int × Int) (g : Nat) (s : Device) : Device :=
  let c := s.ch g
  let low := chLow s g
  let (qi, di) := c.di.fastOut
  let (qv, dv) := c.dv.fastOut
  let own := (fastWord low false qi (ofsI s g), fastWord low true qv (ofsV s g))
  let bench := (fastWord low false bq.1 (ofsI s g), fastWord low true bq.2 (ofsV s g))
  let w := carrierWords s g own bench
  let s := if carried s g then (s.spend 2) else s
  -- the channel's own modulator holds a word of its own offset, while the bench carries the channel too
  let vw := fastWord low true qv (ofsV s g - c.conv.benchV)
  let s := s.modCh g fun c => { c with
    di := di, dv := dv, vw := vw
    lp := { c.lp with sumI := c.lp.sumI + w.1, sumV := c.lp.sumV + w.2, nFast := c.lp.nFast + 1 }
    eng := { c.eng with fastHist := ((w.2, w.1) :: c.eng.fastHist).take 16 }
    vSum := c.vSum + w.2, vN := c.vN + 1 }
  (s.setReg (chAddr g 0x10) (wordOfInt w.1)).setReg (chAddr g 0x11) (wordOfInt w.2)

/-- A precise current word in µA (R110). -/
def precMicroAmp (up : Bool) (k : Const) (w : Int) : Int :=
  clampSigned 32 (meanWith up (w * k.mant * 73728000) (2 ^ (22 + k.sh)))
/-- A precise voltage word in 100 nV (R110). -/
def precHundredNano (up : Bool) (k : Const) (w : Int) : Int := clampSigned 32 (meanWith up (w * k.mant * 10) (2 ^ k.sh))

/-- The bench pair's combs of the precise path. -/
def benchPrec (d : Nat) (s : Device) : (Int × Int) × Device :=
  let b := (s.die d).bench
  let (qi, di) := b.di.precOut
  let (qv, dv) := b.dv.precOut
  ((qi, qv), s.modBench d fun b => { b with di := di, dv := dv })

/-- The precise words of the frame just ended, published in CH_I_PREC and CH_V_PREC (R110, R112). -/
def precChannel (bq : Int × Int) (g : Nat) (s : Device) : Device :=
  let c := s.ch g
  let low := chLow s g
  let n := s.free
  let (qi, di) := c.di.precOut
  let (qv, dv) := c.dv.precOut
  let word (volt : Bool) (q ofs : Int) (k : Nat) := precWord (Config.freeBit (n + k)) low volt q ofs
  let own := (word false qi (ofsI s g) 2, word true qv (ofsV s g) 3)
  let bench := (word false bq.1 (ofsI s g) 2, word true bq.2 (ofsV s g) 3)
  -- the constants in force hold ratio_a: the bench's precise words convert unscaled
  let w := if carried s g then bench else own
  let s := { s with free := n + 6 }
  let s := s.modCh g fun c => { c with di := { di with prec := w.1 }, dv := { dv with prec := w.2 } }
  (s.setReg (chAddr g 0x12) (wordOfInt (precMicroAmp (Config.freeBit (n + 4)) c.conv.kq w.1))).setReg (chAddr g 0x13)
    (wordOfInt (precHundredNano (Config.freeBit (n + 5)) c.conv.kv w.2))

/-- The precise words of a die whose main domain is up. -/
def precDie (d : Nat) (s : Device) : Device :=
  if (s.die d).up then
    let (bq, s) := benchPrec d s
    s.each (chansOf d) (precChannel bq)
  else s

/-- CH_I_PREC in µA. -/
def iPrec (s : Device) (g : Nat) : Int := (s.reg (chAddr g 0x12)).toInt
/-- CH_V_PREC in 100 nV. -/
def vPrec (s : Device) (g : Nat) : Int := (s.reg (chAddr g 0x13)).toInt

/-- A write of RANGE_SEL; the range changes at the next boundary (R101). -/
def writeRange (low : Bool) (g : Nat) (s : Device) : Device :=
  (s.cset g CH_SENSE_RANGE_SEL (if low then 1 else 0)).modDue g fun x => { x with range := some low }

end Sys2Proof.Machine
end

