-- ==== Sys2Proof/Machine/Bench.lean ====
section
/-! DEFINITION. The bench converter (R116 to R129): visits, self-calibration, takeover, hand-back with its drift
correction, aborts, and the commands SEEDING_END, BENCH_VISIT_START, BENCH_SELFCAL_END, BENCH_CONNECT, BENCH_TAKEOVER,
BENCH_HANDBACK, BENCH_ABORT, BENCH_FORCE, BENCH_QUEUE and BENCH_BATON_EXPIRY. -/

namespace Sys2Proof.Machine

/-- BENCH_STAT.PHASE: 0 idle, 1 self-calibration, 2 connect, 3 overlap A, 4 custody, 5 overlap B, 6 abort. -/
def benchPhase (s : Device) (d : Nat) : Nat := s.dget d BENCH_STAT_PHASE
/-- Set the phase. -/
def setPhase (p d : Nat) (s : Device) : Device := s.dset d BENCH_STAT_PHASE p
/-- The local channel of the visit. -/
def benchCh (s : Device) (d : Nat) : Nat := s.dget d BENCH_STAT_CH
/-- TSELF in frames, in force. -/
def tselfF (s : Device) (d : Nat) : Nat := s.dfrc d BENCH_CFG_TSELF * 16
/-- OVL in frames. -/
def ovlF (s : Device) (d : Nat) : Nat := s.dfrc d BENCH_TIME_OVL * 16
/-- HOLD in frames. -/
def holdF (s : Device) (d : Nat) : Nat := s.dfrc d BENCH_TIME_HOLD * 16
/-- V_INT of R116. -/
def vIntF (s : Device) (d : Nat) : Nat :=
  max (s.dfrc d BENCH_CFG_PERIOD * 500) (tselfF s d + 2 * ovlF s d + holdF s d + 16)

/-- A gain about 1 in units of 2^-36, as a numerator over 2^36. -/
def gainNum (g : Int) : Int := 2 ^ 36 + g

/-- The calibration of a modulator pair by range or voltage. -/
def calCur (p : PairCal) (low : Bool) : ModCal := if low then p.iL else p.iH

/-- gc_last and oc_last of a local channel (R118, R122). -/
def calLast (b : Bench) (c : Nat) : PairCal := (b.gcLast[c]?).getD noPairCal

/-- The index of a range in the bench's lists. -/
def rIdx (low : Bool) : Nat := if low then 1 else 0

/-- ratio of R122 as numerator and positive denominator: from the overlap sums when they reach a quarter of full
scale, else from the latest self-calibrations. Sums are in 2^-24 count. -/
def overlapRatio (sc sb : Int) (clocks : Nat) (gc gb : Int) : Int × Nat :=
  if (clocks : Int) * 2 ^ 24 ≤ 2 * (sb.natAbs : Int) ∧ sb ≠ 0 then ((if sb < 0 then -sc else sc), sb.natAbs)
  else (gainNum gc, (gainNum gb).toNat)

/-- A ratio as an unsigned number with 40 fractional bits, half to even (R140). -/
def factor40 (num : Int) (den : Nat) : Nat := if den = 0 ∨ num ≤ 0 then 2 ^ 40 else (roundHalfEven (num * 2 ^ 40) den).toNat

/-- The bench pair's voltage word goes into hold, with the offset of the visited channel and the bench's share of it (R109,
R121). -/
def benchHold (q : Int) (d : Nat) (s : Device) : Device :=
  let b := (s.die d).bench
  let c := benchCh s d
  let g := 8 * d + c
  let ofs := if carried s g then ofsV s g else ofsV s g + (nthI b.ob 2 - (calLast b c).v.ofs)
  let w := fastWord false true q ofs
  s.modBench d fun b => { b with vw := w }

/-- The offset-corrected sums of the overlap: channel current, bench current, channel voltage, bench voltage, in
2^-24 count (R122). DESIGN CHOICE (notes/assumptions/60): the manual does not name the offsets; the channel's sums take its
offset in force without the bench's share, the bench's their internal-zero offset alone. -/
def overlapSums (s : Device) (d c : Nat) : (Int × Int) × (Int × Int) :=
  let b := (s.die d).bench
  let g := 8 * d + c
  let r := rIdx (chLow s g)
  let v := (s.ch g).conv
  -- the channel's own offset: the offset in force without the bench difference
  let oi := ofsI s g - (if chLow s g then v.benchL else v.benchH)
  let ov := ofsV s g - v.benchV
  ((b.sumCI * 2 ^ 24 - oi * b.clocks, b.sumBI * 2 ^ 24 - nthI b.ob r * b.clocks),
   (b.sumCV * 2 ^ 24 - ov * b.clocks, b.sumBV * 2 ^ 24 - nthI b.ob 2 * b.clocks))

/-- The overlap sums start at zero. -/
def clearSums (b : Bench) : Bench := { b with sumCI := 0, sumCV := 0, sumBI := 0, sumBV := 0, clocks := 0 }

/-- One clock of an overlap: the channel's and the bench's levels. -/
def Bench.count (ci cv bi bv : Int) (b : Bench) : Bench :=
  { b with sumCI := b.sumCI + ci, sumCV := b.sumCV + cv, sumBI := b.sumBI + bi, sumBV := b.sumBV + bv, clocks := b.clocks + 1 }

/-- The visit's baton (R433). -/
def benchBaton (on : Bool) (d : Nat) (s : Device) : Device := s.psetBit BATON_STAT_BENCH_HELD d on

/-- The bench lets the channel go: constants and offsets without the bench's share, an epoch with cause bit 0 (R121, R122). -/
def releaseCarrier (g : Nat) (s : Device) : Device :=
  let s := s.modConv g fun v => { v with fCarryI := 2 ^ 40, fCarryV := 2 ^ 40, benchH := 0, benchL := 0, benchV := 0 }
  updateConsts 1 true g (s.cset g CH_SENSE_CARRIER 0)

/-- The visit ends. -/
def endVisit (d : Nat) (s : Device) : Device :=
  let s := ((setPhase 0 d s).dset d BENCH_STAT_CUSTODY 0).dset d BENCH_STAT_DEFER 0
  benchBaton false d (s.modBench d fun b => { b with backAt := none, forced := false })

/-- An abort (R125): in custody the inputs reconnect at the next boundary and the channel gets its count back 16
frames later; in any other phase the inputs open at the next boundary. DESIGN CHOICE (notes/assumptions/60): overlap B, in
which the bench still carries the channel, aborts as custody does. -/
def benchAbort (d : Nat) (s : Device) : Device :=
  let p := benchPhase s d
  if p = 0 ∨ p = 6 then s
  else
    let s := (setPhase 6 d s).dset d BENCH_STAT_ABORT_EVT 1
    let back := s.frame + 1 + (if s.dbit d BENCH_STAT_CUSTODY then 16 else 0)
    (s.dset d BENCH_STAT_DEFER 0).modBench d fun b => { b with backAt := some back }

/-- The visit's share of a frame boundary: overlaps begin, an abort completes (R119, R125). -/
def benchBoundary (d : Nat) (s : Device) : Device :=
  let b := (s.die d).bench
  let p := benchPhase s d
  if p = 2 ∧ b.t1 ≤ s.frame + ovlF s d then setPhase 3 d (s.modBench d clearSums)
  else if p = 4 ∧ b.t1 + holdF s d ≤ s.frame then setPhase 5 d (s.modBench d clearSums)
  else if p = 6 ∧ (b.backAt.getD s.frame) ≤ s.frame then
    let s := if s.dbit d BENCH_STAT_CUSTODY then releaseCarrier (8 * d + benchCh s d) s else s
    endVisit d s
  else s

/-- The factor of the bench constant while the bench carries a channel whose range is the given one, from the latest
self-calibrations (R124). -/
def carryFactor (s : Device) (d c : Nat) (low : Bool) : Nat :=
  let b := (s.die d).bench
  factor40 (gainNum (calCur (calLast b c) low).gain) (gainNum (nthI b.gb (rIdx low))).toNat

/-- A range change of the visited channel: an overlap restarts and shifts what follows; in custody the new range's
constant uses the self-calibrations (R124). DESIGN CHOICE (notes/assumptions/60): in overlap B, where the manual names no
constant for the new range, the ratio of the takeover stays in force up to the hand-back. -/
def benchRange (g : Nat) (s : Device) : Device :=
  let d := g / 8
  let p := benchPhase s d
  if p = 0 ∨ benchCh s d ≠ g % 8 then s
  else if p = 3 then
    s.modBench d fun b => { clearSums b with t1 := s.frame + ovlF s d, t2 := s.frame + 2 * ovlF s d + holdF s d }
  else if p = 5 then s.modBench d fun b => { clearSums b with t2 := s.frame + ovlF s d }
  else if p = 4 then
    let f := carryFactor s d (g % 8) (chLow s g)
    (s.modConv g fun v => { v with fCarryI := f }).modBench d fun b => { b with ratioI := f }
  else s

/-! Visits. -/

/-- After the 128 frames of seeding the die takes the seeds of its modulators; counting runs from here, and the constants recomputed from the image take
effect at the first boundary (R118, R130, R148). -/
def seedingEnd (d : Nat) (seeds : List PairCal) (s : Device) : Device :=
  if (s.die d).up && !(s.die d).seeded && (pkgState s == Pkg.load || (s.die d).recov.trying) &&
      (s.die d).seedAt.any (fun f => decide (f + 128 ≤ s.frame)) then
    let bs := (seeds[8]?).getD noPairCal
    let s := s.modDie d fun x => { x with
      seeded := true, seedAt := some s.frame
      bench := { x.bench with
        gcLast := (List.range 8).map fun c => (seeds[c]?).getD noPairCal
        ob := [bs.iH.ofs, bs.iL.ofs, bs.v.ofs], gb := [bs.iH.gain, bs.iL.gain, bs.v.gain] } }
    s.each (chansOf d) fun g t => t.modDue g fun x => { x with start := true }
  else s

/-- The channel a visit goes to: the forced one, the first queued one, the next in rotation (R116, R124). DESIGN CHOICE
(notes/assumptions/60): a rotation visit that aborts is no last visited channel, as R117 says of a package that leaves RUN, and
a queued visit that aborts is done. -/
def visitChoice (b : Bench) : Nat × Bool × Bool :=
  match b.forceCh with
  | some c => (c, true, false)
  | none =>
    match b.queue with
    | c :: _ => (c, false, false)
    | [] => ((b.last + 1) % 8, false, true)

/-- The schedule reaches a visit: the first after RUN was entered, or V_INT frames after the start of the one before; a forced
visit waits for no schedule (R116, R124). -/
def visitDue (s : Device) (d : Nat) : Bool :=
  (s.die d).bench.forceCh.isSome ||
    (match (s.die d).bench.v0 with | none => true | some v => decide (v + vIntF s d ≤ s.frame))

/-- A visit can start: at a frame boundary of its schedule in RUN, the rotation enabled on a die not of class 2 or a forced visit, the bench healthy and idle
(R116, R123, R188). -/
def visitMayStart (s : Device) (d : Nat) : Bool :=
  (s.die d).up && pkgState s == Pkg.run && !s.dbit d BENCH_STAT_FAIL && benchPhase s d == 0 && s.clk == 0 && visitDue s d &&
  (s.dbit d BENCH_CTL_EN && s.dget d DIE_STAT_ACC_CLASS != 2 || (s.die d).bench.forceCh.isSome)

/-- The first frame boundary V of a visit; the timing fields take effect here (R116, R119, R129). -/
def visitStart (d : Nat) (s : Device) : Device :=
  if visitMayStart s d then
    let s := (s.dforce d 0x11).dforce d 0x12
    let (c, forced, rot) := visitChoice (s.die d).bench
    let t1 := s.frame + tselfF s d + 16 + ovlF s d
    let t2 := t1 + holdF s d + ovlF s d
    let s := s.modBench d fun b => { b with
      v0 := some s.frame, t1 := t1, t2 := t2, forced := forced, inRotation := rot
      queue := if forced || rot then b.queue else b.queue.tail, forceCh := none }
    benchBaton true d ((setPhase 1 d s).dset d BENCH_STAT_CH c)
  else s

/-- An offset beyond 0.1 % of full scale (R123). -/
def ofsBad (m : ModCal) : Bool := decide (2 ^ 25 < m.ofs.natAbs * 1000)
/-- A gain more than 0.5 % from nominal (R123). -/
def gainBad (m : ModCal) : Bool := decide (2 ^ 36 < m.gain.natAbs * 200)

/-- The self-calibration has run its TSELF × 16 frames (R119). -/
def selfcalOver (s : Device) (d : Nat) : Bool :=
  s.clk == 0 && (s.die d).bench.v0.any fun v => decide (v + tselfF s d ≤ s.frame)

/-- The end of the bench's self-calibration (R107, R122, R123): REF_RATIO is measured anew while VREFX is in use, a
value the operands do not carry. -/
def selfcalEnd (d : Nat) (res : PairCal) (s : Device) : Device :=
  if benchPhase s d ≠ 1 ∨ selfcalOver s d = false then s
  else
    let ms := [res.iH, res.iL, res.v]
    let bo := ms.any ofsBad
    let bg := ms.any gainBad
    if bo || bg then
      let s := endVisit d (s.dset d BENCH_STAT_FAIL 1)
      logEvent 10 d 0x03 0xFF ((if bo then 1 else 0) + (if bg then 2 else 0)) s
    else
      let s := s.modBench d fun b => { b with ob := ms.map (·.ofs), gb := ms.map (·.gain) }
      let s := if (s.die d).refInt then s
        else (s.setReg (dieAddr d 0x17) (Config.freeValue s.free)).nextFree
      if pkgState s = Pkg.test then setPhase 0 d s else s

/-- The bench inputs close on the channel's sense balls (R119, R120). -/
def benchConnect (d : Nat) (s : Device) : Device :=
  if benchPhase s d = 1 ∧ selfcalOver s d = true ∧ pkgState s = Pkg.run then setPhase 2 d s else s

/-- A point lies before a frame boundary, by the increment in force (R124). -/
def pointBefore (s : Device) (d pt frame : Nat) : Bool :=
  let n := if d = 0 then s.line.nco else (s.die d).nco
  decide (pt * 2 ^ 16 < n.count * 2 ^ 48 + n.phase + n.inc * (frame * 5120 - s.now))

/-- The open point of a channel's held request: its lead-in begins at the close of the open window, or at the point to which it
has moved since (R165, R167, R168). -/
def heldOpen (s : Device) (g : Nat) (p : AcirPar) : Nat :=
  let a := (s.ch g).acir
  (if s.cget g ACIR_STAT_STATE = 2 then a.closePt else a.leadPt) + p.lead * 2 ^ 32

/-- A window of a channel is open or will open before a frame boundary (R124). -/
def windowBefore (s : Device) (g frame : Nat) : Bool :=
  let a := (s.ch g).acir
  let st := s.cget g ACIR_STAT_STATE
  decide (st = 2) ||
  (decide (a.par.m ≠ 0 ∧ st < 2) &&
    pointBefore s (g / 8) (if st = 1 then a.openPt else a.leadPt + a.par.lead * 2 ^ 32) frame) ||
  (match a.held with | some p => pointBefore s (g / 8) (heldOpen s g p) frame | none => false)

/-- Takeover at T1 (R121, R122), deferred while a window is open or due before the planned T2, but for a forced visit
(R124). -/
def takeover (d : Nat) (s : Device) : Device :=
  if benchPhase s d ≠ 3 ∨ s.clk ≠ 0 ∨ s.frame < (s.die d).bench.t1 then s
  else
    let c := benchCh s d
    let g := 8 * d + c
    let t2 := s.frame + holdF s d + ovlF s d
    if !(s.die d).bench.forced && windowBefore s g t2 then s.dset d BENCH_STAT_DEFER 1
    else
      let b := (s.die d).bench
      let low := chLow s g
      let ((ci, bi), (cv, bv)) := overlapSums s d c
      let last := calLast b c
      let ri := overlapRatio ci bi b.clocks (calCur last low).gain (nthI b.gb (rIdx low))
      let rv := overlapRatio cv bv b.clocks last.v.gain (nthI b.gb 2)
      let fi := factor40 ri.1 ri.2
      let fv := factor40 rv.1 rv.2
      let s := s.modBench d fun b => { b with t1 := s.frame, t2 := t2, ratioI := fi, ratioV := fv }
      let s := s.modConv g fun v => { v with
        fCarryI := fi, fCarryV := fv, benchH := nthI b.ob 0 - last.iH.ofs
        benchL := nthI b.ob 1 - last.iL.ofs, benchV := nthI b.ob 2 - last.v.ofs }
      let s := updateConsts 1 true g (s.cset g CH_SENSE_CARRIER 1)
      ((setPhase 4 d s).dset d BENCH_STAT_CUSTODY 1).dset d BENCH_STAT_DEFER 0

/-- What hand-back finds for one modulator (R122): gain num/den over 2^36 against its own self-calibration and its
baseline, offset against its baseline. -/
structure Drift where
  f : Nat                 -- 1 / (1 + d), 40 fractional bits
  live : Int
  d : Int                 -- 0.01 ppm
  cross : Bool            -- the cross-check passed
  mis : Bool
  gain : Int              -- the gain about 1, 2^-36
  deriving DecidableEq, Repr

/-- The drift of a gain num/den (about 1) against gref, with the cross-check against g2 and the offset limit. -/
def driftOf (num : Int) (den : Nat) (g2 gref : Int) (ofs oref : Int) (xtol limit olim : Nat) : Drift :=
  let n := num
  let dd : Int := den
  let cross := decide (((n * 2 ^ 36 - gainNum g2 * dd).natAbs : Int) * 10 ^ 7 ≤ xtol * (gainNum g2 * dd))
  let e := n * 2 ^ 36 - gainNum gref * dd
  let base := (gainNum gref * dd).toNat
  let live := ofs - oref
  let big := decide ((limit : Int) * base < (e.natAbs : Int) * 10 ^ 8) || decide (olim * 2 ^ 25 < live.natAbs * 10 ^ 7)
  { f := factor40 (gainNum gref * dd) (n * 2 ^ 36).toNat, live := live
    d := if base = 0 then 0 else roundHalfEven (e * 10 ^ 8) base
    cross := cross, mis := !cross || big
    gain := if den = 0 then 0 else roundHalfEven (n * 2 ^ 36) den - 2 ^ 36 }

/-- GREF and OREF of a channel by range or voltage (R193, R194). -/
def grefOf (s : Device) (g : Nat) (k : Nat) : Int := (s.reg (chAddr g (0x4C + k))).toInt
/-- OREF for range H, range L and voltage. -/
def orefOf (s : Device) (g : Nat) (k : Nat) : Int :=
  let w := s.reg (chAddr g 0x4F)
  match k with
  | 0 => signedOf 16 (OREF_I.get w)
  | 1 => 4 * signedOf 16 (OREF_I.get w)
  | _ => signedOf 16 (OREF_V.get w)

/-- Set or clear bit c of a map field of a die block. -/
def dsetBit (d : Nat) (f : Fld .die) (c : Nat) (on : Bool) (s : Device) : Device :=
  let v := s.dget d f
  s.dset d f (if v.testBit c = on then v else v ^^^ 2 ^ c)

/-- A mismatch keeps the previous correction; it is flagged and logged (R123). -/
def benchMismatch (volt : Bool) (g : Nat) (dd : Int) (s : Device) : Device :=
  let d := g / 8
  let s := dsetBit d (if volt then BENCH_MIS_V_MISMATCH else BENCH_MIS_I_MISMATCH) (g % 8) true s
  let s := s.dset d BENCH_STAT_MIS_EVT 1
  logEvent 10 d 0x02 g ((if volt then 1 else 0) + fieldOf 24 dd * 256) s

/-- Store a range's correction. -/
def applyDrift (k : Nat) (x : Drift) (g : Nat) (s : Device) : Device :=
  s.modConv g fun v =>
    match k with
    | 0 => { v with fBenchIH := x.f, liveH := x.live, dH := x.d }
    | 1 => { v with fBenchIL := x.f, liveL := x.live, dL := x.d }
    | _ => { v with fBenchV := x.f, liveV := x.live }

/-- BENCH_STAT.LAST_OFS: the live offset correction of the last visited current modulator, in 0.01 ppm of range (R128). -/
def lastOfs (g : Nat) (s : Device) : Device :=
  let v := (s.ch g).conv
  s.dset (g / 8) BENCH_STAT_LAST_OFS
    (fieldOf 16 (clampSigned 16 (roundHalfEven ((if chLow s g then v.liveL else v.liveH) * 10 ^ 8) (2 ^ 25))))

/-- Hand-back at T2 (R121 to R123): custody returns, and the drift of each modulator, and of each current range by
itself (R205), is applied or declared a mismatch. -/
def handback (d : Nat) (res : PairCal) (s : Device) : Device :=
  if benchPhase s d ≠ 5 ∨ s.clk ≠ 0 ∨ s.frame < (s.die d).bench.t2 then s
  else
    let c := benchCh s d
    let g := 8 * d + c
    let b := (s.die d).bench
    let low := chLow s g
    let ((ci, bi), (cv, bv)) := overlapSums s d c
    let ri := overlapRatio ci bi b.clocks (calCur res low).gain (nthI b.gb (rIdx low))
    let rv := overlapRatio cv bv b.clocks res.v.gain (nthI b.gb 2)
    let xtol := s.dget d BENCH_LIM_XTOL
    let limit := s.dget d BENCH_LIM_LIMIT
    let olim := s.dget d BENCH_LIM_OLIM
    -- g1 = ratio_b · gb for the range in force and the voltage, g2 alone for the other range
    let k := rIdx low
    let o := rIdx (!low)
    let xi := driftOf (ri.1 * gainNum (nthI b.gb k)) (ri.2 * 2 ^ 36) (calCur res low).gain (grefOf s g k)
      (calCur res low).ofs (orefOf s g k) xtol limit olim
    let xo := driftOf (gainNum (calCur res (!low)).gain) (2 ^ 36) (calCur res (!low)).gain (grefOf s g o)
      (calCur res (!low)).ofs (orefOf s g o) xtol limit olim
    let xv := driftOf (rv.1 * gainNum (nthI b.gb 2)) (rv.2 * 2 ^ 36) res.v.gain (grefOf s g 2) res.v.ofs (orefOf s g 2)
      xtol limit olim
    -- no correction on the internal reference (R106) and in class 2 (R188)
    let use := !(s.die d).refInt && s.dget d DIE_STAT_ACC_CLASS != 2
    let put (k : Nat) (x : Drift) (s : Device) : Device := if use && !x.mis then applyDrift k x g s else s
    let misI := xi.mis || xo.mis
    let s := put 2 xv (put o xo (put k xi s))
    let s := if misI then benchMismatch false g (if xi.mis then xi.d else xo.d) s
      else if use then dsetBit d BENCH_MIS_I_MISMATCH c false s else s
    let s := if xv.mis then benchMismatch true g xv.d s
      else if use then dsetBit d BENCH_MIS_V_MISMATCH c false s else s
    let driftV : Fld .die := BENCH_DRIFT_V_DRIFT.at c
    let s := lastOfs g (showDrift g s)
    let s := if use && !xv.mis then s.dset d driftV (fieldOf 16 (clampSigned 16 xv.d)) else s
    let s := if use && !misI && !xv.mis then s.dset d BENCH_STAT_DONE_EVT 1 else s
    let iK : ModCal := ⟨(calCur res low).ofs, xi.gain⟩
    let iO : ModCal := ⟨(calCur res (!low)).ofs, (calCur res (!low)).gain⟩
    let seen : PairCal := ⟨if low then iO else iK, if low then iK else iO, ⟨res.v.ofs, xv.gain⟩⟩
    let s := if xi.cross && xv.cross then s.modConv g fun v => { v with visit := some seen } else s
    let s := s.modBench d fun b => { b with
      gcLast := b.gcLast.set c res, last := if b.inRotation then c else b.last }
    endVisit d (releaseCarrier g s)

/-- BENCH_CTL.FORCE: a visit in progress aborts, the forced visit follows (R124). -/
def benchForce (d c : Nat) (s : Device) : Device :=
  benchAbort d (s.modBench d fun b => { b with forceCh := some c })

/-- BENCH_CTL.QUEUE: queued visits run in the order in which they were queued (R116). DESIGN CHOICE (notes/assumptions/60): the
manual does not say what a QUEUE for a channel that is queued already does; it is queued once more and visited twice, and the
queue has no bound. -/
def benchQueue (d c : Nat) (s : Device) : Device := s.modBench d fun b => { b with queue := b.queue ++ [c] }

/-- The die itself holds its bench baton: a visit is in progress, not the self-calibration of TEST (R433, R474). -/
def benchVisit (s : Device) (d : Nat) : Bool := benchPhase s d != 0 && pkgState s != Pkg.test

/-- Expiry of the bench baton 64 frames after the planned T2, by the holding die's own timer: the event, its entry, and an abort
(R433, R434). -/
def benchBatonExpiry (d : Nat) (s : Device) : Device :=
  if benchVisit s d && benchPhase s d != 6 && decide ((s.die d).bench.t2 + 64 ≤ s.frame) then
    let s := logEvent Cat.link d 0x0B d 4 ((benchBaton false d s).pset BATON_STAT_BENCH_EXP_EVT 1)
    benchAbort d s
  else s

/-! Commands. -/

/-- SEEDING_END. -/
def execSeedingEnd (d : Die) (seeds : List PairCal) (s : State) : Host.Outcome State Fault Refusal :=
  onDie d.val s (seedingEnd d.val seeds)
/-- BENCH_VISIT_START. -/
def execBenchVisitStart (d : Die) (s : State) : Host.Outcome State Fault Refusal := onDie d.val s (visitStart d.val)
/-- BENCH_SELFCAL_END. -/
def execBenchSelfcalEnd (d : Die) (res : PairCal) (s : State) : Host.Outcome State Fault Refusal :=
  onDie d.val s (selfcalEnd d.val res)
/-- BENCH_CONNECT. -/
def execBenchConnect (d : Die) (s : State) : Host.Outcome State Fault Refusal := onDie d.val s (benchConnect d.val)
/-- BENCH_TAKEOVER. -/
def execBenchTakeover (d : Die) (s : State) : Host.Outcome State Fault Refusal := onDie d.val s (takeover d.val)
/-- BENCH_HANDBACK. -/
def execBenchHandback (d : Die) (res : PairCal) (s : State) : Host.Outcome State Fault Refusal :=
  onDie d.val s (handback d.val res)
/-- BENCH_ABORT: every cause of R124 aborts alike. -/
def execBenchAbort (d : Die) (_cause : AbortCause) (s : State) : Host.Outcome State Fault Refusal :=
  onDie d.val s (benchAbort d.val)
/-- BENCH_FORCE. -/
def execBenchForce (d : Die) (c : Loc) (s : State) : Host.Outcome State Fault Refusal :=
  onDie d.val s (benchForce d.val c.val)
/-- BENCH_QUEUE. -/
def execBenchQueue (d : Die) (c : Loc) (s : State) : Host.Outcome State Fault Refusal :=
  onDie d.val s (benchQueue d.val c.val)
/-- BENCH_BATON_EXPIRY. -/
def execBenchBatonExpiry (d : Die) (s : State) : Host.Outcome State Fault Refusal :=
  onDie d.val s (benchBatonExpiry d.val)

end Sys2Proof.Machine
end

