-- ==== Sys2Proof/Machine/StepBase.lean ====
section
/-! DEFINITION. What the step engine, the ACIR engine and the budget share: the current step of a channel, its
setpoints and temperature band (R230, R242), trace records (R250, R251), checkpoint requests (R378) and the bus demand
of a channel (R254, R255). -/

namespace Sys2Proof.Machine

/-! Engine states (R252). -/
namespace EngSt
def idle : Nat := 0
def wait : Nat := 1
def queued : Nat := 2
def running : Nat := 3
def suspended : Nat := 4
def paused : Nat := 5
def faultHold : Nat := 6
def reseat : Nat := 7
def halted : Nat := 8
def ended : Nat := 9
def resumeHalt : Nat := 10
end EngSt

/-- CH_STAT.ENGINE. -/
def engState (s : Device) (g : Nat) : Nat := s.cget g CH_STAT_ENGINE
/-- Set CH_STAT.ENGINE. -/
def setEng (e g : Nat) (s : Device) : Device := s.cset g CH_STAT_ENGINE e

/-- The recipe a channel runs. -/
def recipeOf (s : Device) (g : Nat) : Option Recipe :=
  (s.die (g / 8)).recipes.find? fun r => r.id == s.cget g CH_STEP_RECIPE

/-- A step of the recipe a channel runs. -/
def stepAt (s : Device) (g i : Nat) : Option StepRec :=
  match recipeOf s g with
  | some r => r.steps[i]?
  | none => none

/-- The engine states in which a channel has a step. -/
def hasStep (s : Device) (g : Nat) : Bool := let e := engState s g; decide (1 ≤ e ∧ e ≤ 10 ∧ e ≠ 9)

/-- The current step of a channel. -/
def curStep (s : Device) (g : Nat) : Option StepRec := if hasStep s g then stepAt s g (s.cget g CH_STEP_STEP) else none

/-- The type of the current step; REST where there is none. -/
def curType (s : Device) (g : Nat) : Nat :=
  match curStep s g with
  | some r => r.typ
  | none => 7

/-- A step type that needs current (R236). -/
def needsCurrent (t : Nat) : Bool := decide ((1 ≤ t ∧ t ≤ 6) ∨ t = 9 ∨ t = 10)
/-- PULSE and ACIR are burst steps (R255). -/
def isBurst (t : Nat) : Bool := decide (t = 9 ∨ t = 10)

/-- A 32-bit parameter as a signed number. -/
def s32 (p : Nat) : Int := signedOf 32 p

/-- The mode of a step type (R230). -/
def stepMode (t : Nat) : Nat :=
  match t with
  | 1 => 1
  | 2 => 1
  | 3 => 2
  | 4 => 3
  | 5 => 4
  | 6 => 4
  | 9 => 1
  | 10 => 1
  | _ => 0

/-- ISET of a step, the second level of a PULSE where asked (R230). -/
def stepIset (r : StepRec) (level2 : Bool) : Int :=
  match r.typ with
  | 1 => (r.p1 : Int)
  | 2 => -(r.p1 : Int)
  | 4 => s32 r.p1
  | 9 => s32 r.p2
  | 10 => if level2 then s32 r.p2 else s32 r.p1
  | _ => 0
/-- VSET of a step: 6,000,000 µV where its type gives none. -/
def stepVset (r : StepRec) : Nat := if r.typ = 3 ∨ r.typ = 4 then r.p2 else 6000000
/-- PSET of a step. -/
def stepPset (r : StepRec) : Int := if r.typ = 5 then (r.p1 : Int) else if r.typ = 6 then -(r.p1 : Int) else 0

/-- The fields of an ACIR step's P1 (R230). -/
def stepAcirPar (r : StepRec) (slot : Nat) : AcirPar :=
  { m := r.p1 % 256, w := r.p1 / 256 % 256, lead := r.p1 / 65536 % 4, amp := r.p1 / 2 ^ 18 % 2048, slot := slot, since := 0
    step := true, run := true }

/-- CH_SLOT.SLOT_OFS in force. -/
def slotOf (s : Device) (g : Nat) : Nat := s.cfrc g CH_SLOT_OFS

/-! Temperature bands (R242). -/

/-- The threshold set of a step: 0 none, 1 TWIN_CHG, 2 TWIN_DSG. -/
def bandSet (s : Device) (g : Nat) : Nat :=
  match curStep s g with
  | none => 0
  | some r =>
    if !needsCurrent r.typ || r.twOff || s.cget g CH_NTC_CFG_EN == 0 then 0
    else if r.typ = 1 ∨ r.typ = 5 ∨ r.typ = 3 then 1
    else if (r.typ = 4 ∨ r.typ = 9 ∨ r.typ = 10) ∧ 0 ≤ stepIset r false then 1
    else 2

/-- Threshold k of a set in 2^-20 °C: code × 0.5 − 40 °C. -/
def threshold (s : Device) (g set k : Nat) : Int :=
  let w := (s.frc (chAddr g (if set = 2 then 0x69 else 0x68))).toNat
  ((w / 2 ^ (8 * k) % 256 : Nat) : Int) * 2 ^ 19 - 40 * 2 ^ 20

/-- The band a temperature lies in, by four thresholds (R242). -/
def bandBy (th : Nat → Int) (t : Int) : Nat :=
  if t < th 0 then 0 else if t < th 1 then 1 else if t ≤ th 2 then 2 else if t ≤ th 3 then 3 else 4

/-- The band a frame calls for while the present one is b: a return towards the middle must lie 1 °C inside. -/
def bandCallBy (th : Nat → Int) (b : Nat) (t : Int) : Nat :=
  let c := bandBy th t
  if b < 2 ∧ b < c ∧ c ≤ 2 then max b (bandBy th (t - 2 ^ 20))
  else if 2 < b ∧ c < b ∧ 2 ≤ c then min b (bandBy th (t + 2 ^ 20))
  else c

/-- The band of a channel's threshold set. -/
def bandOf (s : Device) (g set : Nat) (t : Int) : Nat := bandBy (threshold s g set) t
/-- The band it calls for. -/
def bandCall (s : Device) (g set b : Nat) (t : Int) : Nat := bandCallBy (threshold s g set) b t

/-- A frame's NTC readings: open, short, and the mean as sum and number in 2^-20 °C. -/
def ntcFrame (s : Device) (g : Nat) : Bool × Bool × Int × Nat :=
  let cs := (s.ch g).eng.ntc
  let rn := s.cget g CH_NTC_CFG_RNOM * 10
  let be := s.cget g CH_NTC_CFG_BETA
  (cs.any (4064 < ·), cs.any (· < 32), cs.foldl (fun a x => a + ntcTemp x rn be) 0, cs.length)

/-- Step the band's count: a change after 16 frames on the far side, to the band least far of the run. -/
def bandCount (b call cand cnt : Nat) : Nat × Nat × Nat :=
  if call = b then (b, b, 0)
  else
    let same := decide (cnt ≠ 0) && (decide (cand < b) == decide (call < b))
    let cand' := if same then (if call < b then max cand call else min cand call) else call
    let cnt' := if same then cnt + 1 else 1
    if 16 ≤ cnt' then (cand', cand', 0) else (b, cand', cnt')

/-- The threshold set of the current step, newly applied: the band is taken at once from the mean of the frame just
ended (R242); 7 where no set applies. -/
def bandFresh (g : Nat) (s : Device) : Device :=
  let set := bandSet s g
  let e := (s.ch g).eng
  let s := s.modEng g fun e => { e with set := set, bandCnt := 0 }
  if set = 0 then s.cset g CH_NTC_BAND 7
  else (s.cset g CH_NTC_SET (if set = 2 then 1 else 0)).cset g CH_NTC_BAND (if e.tBad then 4 else bandOf s g set e.tMean)

/-- The channel's temperature and band at a frame boundary (R242, R252). -/
def bandBoundary (g : Nat) (s : Device) : Device :=
  let (op, sh, sum, n) := ntcFrame s g
  let bad := op || sh || s.dbit (g / 8) BENCH_STAT_SAR_FAIL
  let s := if n = 0 then s else
    let s := (s.cset g CH_NTC_OPEN (if op then 1 else 0)).cset g CH_NTC_SHORT (if sh then 1 else 0)
    if bad then s
    else
      let t := meanWith (Config.freeBit s.free) sum (n * 2 ^ 16)
      (s.cset g CH_NTC_TEMP (fieldOf 16 (clampSigned 16 t))).nextFree
  let set := bandSet s g
  let e := (s.ch g).eng
  let mean := if n = 0 then e.tMean else sum / (n : Int)
  let s := s.modEng g fun e => { e with ntc := [], tMean := mean, tBad := bad }
  if set = 0 ∨ e.set ≠ set then bandFresh g s
  else
    let b := s.cget g CH_NTC_BAND
      let (b', cand, cnt) := bandCount b (if bad then 4 else bandCall s g set b mean) e.bandCand e.bandCnt
      (s.cset g CH_NTC_BAND b').modEng g fun e => { e with bandCand := cand, bandCnt := cnt }

/-- The fraction code of the band in force; none outside bands 1 and 3. -/
def bandFrac (s : Device) (g : Nat) : Option Nat :=
  let dsg := s.cbit g CH_NTC_SET
  match s.cget g CH_NTC_BAND with
  | 1 => some (s.cget g (if dsg then TWIN_RED_DSG_COOL else TWIN_RED_CHG_COOL))
  | 3 => some (s.cget g (if dsg then TWIN_RED_DSG_WARM else TWIN_RED_CHG_WARM))
  | _ => none

/-- A setpoint reduced by the band: floor(|x| · (code + 1) / 256) with its sign (R242). -/
def reduceBy (f : Option Nat) (x : Int) : Int :=
  match f with
  | none => x
  | some c => let m : Int := ((x.natAbs * (c + 1) / 256 : Nat) : Int); if x < 0 then -m else m

/-- VSET moved by VOFS in band 3: lowered for charge, raised for discharge. DESIGN CHOICE (notes/assumptions/63): the 6,000,000 µV of
a step whose type gives no VSET (R230) moves as well, which the manual does not say. -/
def bandVset (s : Device) (g : Nat) (v : Nat) : Nat :=
  if s.cget g CH_NTC_BAND = 3 then
    if s.cbit g CH_NTC_SET then min 6000000 (v + s.cget g TWIN_VOFS_DSG_VOFS * 1000)
    else v - s.cget g TWIN_VOFS_CHG_VOFS * 1000
  else v

/-! Trace records. -/

/-- The line state a die holds. -/
def lineStateOf (s : Device) (d : Nat) : Nat := if d = 0 then lineState s else (s.die d).nco.state

/-- Write a record of a type to the die's trace buffer: suppressed by STEP_ONLY, dropped when the FIFO is full (R250). -/
def traceWrite (typ g : Nat) (body : List Byte) (s : Device) : Device :=
  let d := g / 8
  if s.dbit d TRACE_CFG_STEP_ONLY ∧ 2 < typ then s
  else
    let x := s.die d
    let hd : List Byte := [BitVec.ofNat 8 typ, BitVec.ofNat 8 (g % 8 + lineStateOf s d * 8)] ++ leBytes 2 x.traceSeq ++
      leBytes 4 s.frame ++ leBytes 4 (lineCountOf s d)
    let r := (hd ++ body ++ List.replicate (20 - body.length) 0).take 32
    let s := s.modDie d fun x => { x with traceSeq := (x.traceSeq + 1) % 65536 }
    if 2048 ≤ s.dget d TRACE_COUNT then (s.dinc d TRACE_DROP).dset d TRACE_CFG_FULL_EVT 1
    else
      let w := s.dget d TRACE_PTR_WR
      let s := s.modDie d fun x => { x with trace := (w, r) :: x.trace.filter fun p => p.1 != w }
      (s.dset d TRACE_PTR_WR ((w + 1) % 2048)).dset d TRACE_COUNT (s.dget d TRACE_COUNT + 1)

/-- An EVENT record: event, cause and data (R251, R483). -/
def traceEvent (ev cause : Nat) (data : Nat) (g : Nat) (s : Device) : Device :=
  traceWrite 2 g ([BitVec.ofNat 8 (s.cget g CH_STEP_RECIPE), BitVec.ofNat 8 (s.cget g CH_STEP_STEP),
    BitVec.ofNat 8 ev, BitVec.ofNat 8 cause] ++ leBytes 4 data) s

/-- A checkpoint is requested; requests coalesce, and the record carries the cause of the first of them (R250, R376,
R378; DESIGN CHOICE: the manual names no order among coalesced causes), but a ship request's where one is among them: it waits
for no interval. -/
def ckptRequest (cause : Nat) (s : Device) : Device :=
  if s.pbit CKPT_STAT_PENDING ∧ cause ≠ 3 then s else s.modNvm (fun n => { n with ckptCause := cause }) |>.pset CKPT_STAT_PENDING 1

/-! Bus demand. -/

/-- The peak excitation of a window in mA as numerator over 2^(22+shift) (R164). -/
def peakNum (k : Const) (amp : Nat) : Nat := amp * 2048 * k.mant * 73728

/-- A window is accepted and its envelope is not yet zero again (R168). -/
def acirActive (s : Device) (g : Nat) : Bool := decide ((s.ch g).acir.par.m ≠ 0) || s.cget g ACIR_STAT_STATE != 0

/-- The amplitude the demand is reckoned with: the largest of the window's and the held request's (R168). -/
def acirAmp (s : Device) (g : Nat) : Nat :=
  let a := (s.ch g).acir
  max (if acirActive s g then a.par.amp else 0) (match a.held with | some p => p.amp | none => 0)

/-- A power as numerator and denominator in nW with its direction (true: charge); setpoints in force (R254). -/
structure Power where
  charge : Bool
  num : Int
  den : Nat
  deriving DecidableEq, Repr

/-- I in mA (numerator over den) times V in 100 nV, limited to 6,144,000 µV. -/
def powerIV (charge : Bool) (iNum : Int) (iDen : Nat) (v : Int) : Power := ⟨charge, iNum * min v 61440000, iDen * 10⟩

/-- The kind of load a channel presents: the step's type, or the host's mode as the like type while OVR is 1. -/
def loadType (s : Device) (g : Nat) : Nat :=
  if s.cbit g CH_CTL_OVR then
    match s.cget g CH_CTL_OVR_MODE with
    | 1 => if 0 ≤ isetOf s g then 1 else 2
    | 2 => 3
    | 3 => 4
    | 4 => if 0 ≤ psetOf s g then 5 else 6
    | _ => 7
  else curType s g

/-- CH_STAT.CV_EVT as the step's own: a step that has not started yet has none (R252, R254). -/
def cvEvt (s : Device) (g : Nat) : Bool :=
  s.cbit g CH_STAT_CV_EVT && (s.cbit g CH_CTL_OVR || !(s.ch g).eng.restart)

/-- A power with the peak excitation of a window or a lead-out added, in the same direction at the same voltage (R168;
DESIGN CHOICE, notes/assumptions/62: R254's rows other than CC and ACIR do not form their current from ISET alone). -/
def addPeak (k : Const) (amp : Nat) (v : Int) (p : Power) : Power :=
  let one : Nat := 2 ^ (22 + k.sh)
  let q := powerIV p.charge (peakNum k amp : Nat) one v
  if amp = 0 then p else ⟨p.charge, p.num * q.den + q.num * p.den, p.den * q.den⟩

/-- The cell-side power of a channel, with the peak excitation while a window is accepted or its envelope not yet zero
(R168, R254). -/
def cellPower (s : Device) (g : Nat) : Power :=
  let v := vPrec s g
  let marg : Int := s.pfrc BUS_CFG_VMARG * 100000
  let iset := isetOf s g
  let k := (s.ch g).conv.kq
  let one : Nat := 2 ^ (22 + k.sh)
  let amp := if loadType s g = 9 then
      max (acirAmp s g) (match curStep s g with | some r => (stepAcirPar r 0).amp | none => 0)
    else acirAmp s g
  let i : Int := (iset.natAbs * one + peakNum k amp : Nat)
  let vset : Int := vsetOf s g * 10
  let dsgV := max 0 (v - marg)
  let peak := addPeak k amp
  match loadType s g with
  | 1 => powerIV true i one (v + marg)
  | 2 => powerIV false i one dsgV
  | 3 => peak vset (powerIV true (s.cget g CH_ILIM) 1 vset)
  | 4 =>
    if 0 ≤ iset then
      if cvEvt s g then
        -- min(|ISET|, |CH_I_PREC| + |ISET|/16) in mA, over 16,000
        peak vset (powerIV true (min (iset.natAbs * 16000 : Nat) ((iPrec s g).natAbs * 16 + iset.natAbs * 1000 : Nat)) 16000 vset)
      else peak vset (powerIV true iset.natAbs 1 vset)
    else peak dsgV (powerIV false iset.natAbs 1 dsgV)
  | 5 => peak (v + marg) ⟨true, (psetOf s g).natAbs * 10 ^ 6, 1⟩
  | 6 => peak dsgV ⟨false, (psetOf s g).natAbs * 10 ^ 6, 1⟩
  | 9 => if 0 ≤ iset then powerIV true i one (v + marg) else powerIV false i one dsgV
  | 10 =>
    match curStep s g with
    | some r =>
      let f := bandFrac s g
      peak (v + marg) (powerIV true (max 0 (max (reduceBy f (stepIset r false)) (reduceBy f (stepIset r true)))) 1 (v + marg))
    | none => ⟨true, 0, 1⟩
  | _ => ⟨true, 0, 1⟩

/-- A quotient rounded up. -/
def ceilDiv (n d : Int) : Int := -(-n / d)

/-- The bus-side demand in 0.1 W (R255). -/
def demandOf (s : Device) (g : Nat) : Int :=
  let p := cellPower s g
  if p.charge then
    ceilDiv (p.num * 65536) (s.pfrc BUS_EFF_ETA_CHG * 10 ^ 8 * p.den : Nat)
  else if isBurst (loadType s g) then 0
  else -(p.num * s.pfrc BUS_EFF_ETA_DSG / (65536 * 10 ^ 8 * p.den : Nat))

/-- CH_LEASE.LSTATE. -/
def leaseSt (s : Device) (g : Nat) : Nat := s.cget g CH_LEASE_LSTATE
/-- A lease is held. -/
def leaseHeld (s : Device) (g : Nat) : Bool := leaseSt s g == 1 || leaseSt s g == 4

/-- The lease covers a demand at the last arbitration: no greater, and of the same sign (R168, R264). -/
def leaseCovers (s : Device) (g : Nat) (dem : Int) : Bool :=
  leaseHeld s g && decide (dem ≤ (s.ch g).lease.counted) && decide (0 ≤ dem ↔ 0 ≤ (s.ch g).lease.counted)

end Sys2Proof.Machine
end

