-- ==== Sys2Proof/Machine/Calib.lean ====
section
/-! DEFINITION. Calibration commands (R197 to R204): the record of a reference run, APPLY and FOLD with their refusals,
the order of coinciding writes, PIN_DUE, and the commands CAL_APPLY and CAL_FOLD. -/

namespace Sys2Proof.Machine

/-- The offsets of a channel's board words that commands of CAL_CTL can change (R198, R200). -/
def calOffs : List Nat := [0x40, 0x41, 0x42, 0x43, 0x44, 0x45, 0x46, 0x4C, 0x4D, 0x4E, 0x4F]

/-- The offset of a range's KQ and the field of its shift. -/
def kqField (low : Bool) : Nat × Fld .ch := if low then (0x41, K_SHIFT_KQ_L_SH) else (0x40, K_SHIFT_KQ_H_SH)

/-- Write a normalised constant: its mantissa and its shift (R190). -/
def putConst (off : Nat) (f : Fld .ch) (k : Const) (g : Nat) (s : Device) : Device :=
  (s.setReg (chAddr g off) (BitVec.ofNat 32 k.mant)).cset g f k.sh

/-- KQ × Q_ref / Q_dev of the recorded run, normalised (R198). -/
def runConst (s : Device) (g : Nat) (low : Bool) : Option Const :=
  let v := (s.ch g).conv
  let (m, sh) := kqImg s.reg g low
  normRat (m * v.runRef.natAbs * 2 ^ 16) (2 ^ sh * v.runDev.natAbs)

/-- The ranges an APPLY corrects. -/
def applyRanges (s : Device) (g : Nat) (both : Bool) : List Bool :=
  let r := s.cbit g CAL_CTL_RUN_RANGE
  if both then [r, !r] else [r]

/-- The words an APPLY leaves, if every constant has a norm (R198). -/
def applyWords (both : Bool) (g : Nat) (s : Device) : Option Device :=
  (applyRanges s g both).foldl (fun t low => t.bind fun t =>
    (runConst s g low).map fun k => putConst (kqField low).1 (kqField low).2 k g t) (some s)

/-- The folded constants KQ_H, KQ_L, KV and KE; none where one of the first three does not normalise (R141, R201). -/
def foldConsts (s : Device) (g : Nat) : Option (Const × Const × Const × Option Const) :=
  let v := (s.ch g).conv
  let f (mant sh num den : Nat) : Option Const := normRat (mant * num) (2 ^ sh * den)
  let (mh, sh) := kqImg s.reg g false
  let (ml, sl) := kqImg s.reg g true
  let (mv, sv) := kvImg s.reg g
  let (me, se) := keImg s.reg g
  match f mh sh v.fBenchIH (2 ^ 40), f ml sl v.fBenchIL (2 ^ 40), f mv sv v.fBenchV (2 ^ 40) with
  | some h, some l, some kv => some (h, l, kv, f me se (v.fBenchIH * v.fBenchV) (2 ^ 80))
  | _, _, _ => none

/-- The words of KQ_H, KQ_L and KV. -/
def putThree (h l kv : Const) (g : Nat) (s : Device) : Device :=
  putConst 0x42 K_SHIFT_KV_SH kv g (putConst 0x41 K_SHIFT_KQ_L_SH l g (putConst 0x40 K_SHIFT_KQ_H_SH h g s))

/-- The word of KE, which the fold leaves at 0 where it is 0. -/
def putKe (ke : Option Const) (g : Nat) (s : Device) : Option Device :=
  if (keImg s.reg g).1 = 0 then some s else ke.map fun k => putConst 0x43 K_SHIFT_KE_SH k g s

/-- KQ_H, KQ_L, KV and an explicit KE times the bench corrections, normalised (R200). -/
def foldWords (g : Nat) (s : Device) : Option Device :=
  (foldConsts s g).bind fun p => putKe p.2.2.2 g (putThree p.1 p.2.1 p.2.2.1 g s)

/-- The words give constants the device accepts in the registers named (R141), with the factors v. -/
def wordsOk (l : List KReg) (v : Conv) (g : Nat) (t : Option Device) : Bool :=
  match t with
  | some t => l.all (constOk t.reg g (chLow t g) v (fRefOf (t.die (g / 8))))
  | none => false

/-- An APPLY's constants would be accepted (R199 code 5). -/
def applyOk (s : Device) (g : Nat) (both : Bool) : Bool :=
  wordsOk ((applyRanges s g both).map fun low => if low then .kqL else .kqH) (s.ch g).conv g (applyWords both g s)

/-- A FOLD's constants would be accepted: it leaves the bench factors at 1 (R199 code 5, R200). -/
def foldOk (s : Device) (g : Nat) : Bool :=
  wordsOk [.kqH, .kqL, .kv, .ke] { (s.ch g).conv with fBenchIH := 2 ^ 40, fBenchIL := 2 ^ 40, fBenchV := 2 ^ 40 } g (foldWords g s)

/-- The die is on its internal reference or in class 2 (R199 code 8). -/
def calRef (s : Device) (d : Nat) : Bool := (s.die d).refInt || s.dget d DIE_STAT_ACC_CLASS == 2

/-- The lowest refusal of an APPLY; 0 when none applies (R199). -/
def applyRefusal (s : Device) (g : Nat) (both : Bool) : Nat :=
  let v := (s.ch g).conv
  let r := v.runRef * 2 ^ 16
  if s.cget g CAL_CTL_RUN_OK = 0 then 1
  else if v.runCauses &&& 0x7A ≠ 0 then 2
  else if v.runNet.natAbs < 2 ^ 30 ∨ v.runRef.sign ≠ v.runDev.sign ∨ v.runRef = 0 then 3
  else if v.runDev.natAbs < (r - v.runDev).natAbs * 1000 then 4
  else if !applyOk s g both then 5
  else if calRef s (g / 8) then 8
  else 0

/-- The bench is at this channel, from its connect phase to its hand-back, or aborting (R199 code 6). -/
def visiting (s : Device) (g : Nat) : Bool := decide (2 ≤ benchPhase s (g / 8)) && benchCh s (g / 8) == g % 8

/-- The lowest refusal of a FOLD. -/
def foldRefusal (s : Device) (g : Nat) : Nat :=
  if !foldOk s g then 5
  else if visiting s g then 6
  else if (s.ch g).conv.visit.isNone then 7
  else if calRef s (g / 8) then 8
  else 0

/-- A refused command changes REFUSE and REFUSE_EVT only (R199). -/
def calRefuse (code g : Nat) (s : Device) : Device := (s.cset g CAL_CTL_REFUSE code).cset g CAL_CTL_REFUSE_EVT 1

/-- An accepted command waits for the next boundary (R198, R200, R202). -/
def calQueue (k : Nat) (w : Word) (g : Nat) (s : Device) : Device :=
  let base := calOffs.map fun o => s.reg (chAddr g o)
  s.modDue g fun x => { x with
    calBase := if x.cal = [] then base else x.calBase, cal := x.cal ++ [(k, w)] }

/-- CAL_CTL.APPLY with its key (R198, R203). -/
def calApply (data : Word) (g : Nat) (s : Device) : Device :=
  if CAL_CTL_APPLY.get data = 1 ∧ CAL_CTL_KEY.get data = 0xC3 then
    let both := CAL_CTL_BOTH.get data = 1
    let code := applyRefusal s g both
    if code ≠ 0 then calRefuse code g s else calQueue 0 (if both then 1 else 0) g s
  else s

/-- CAL_CTL.FOLD with its key (R200, R203). -/
def calFold (data : Word) (g : Nat) (s : Device) : Device :=
  if CAL_CTL_FOLD.get data = 1 ∧ CAL_CTL_KEY.get data = 0xC3 then
    let code := foldRefusal s g
    if code ≠ 0 then calRefuse code g s else calQueue 1 0 g s
  else s

/-- APPLY takes effect (R198). -/
def applyNow (both : Bool) (g : Nat) (s : Device) : Device :=
  match applyWords both g s with
  | some t => (t.cset g CAL_CTL_RUN_OK 0).cset g CAL_CTL_APPLIED_EVT 1
  | none => s

/-- What a FOLD leaves beside the constants: baselines moved by the live corrections, gains and offsets of the visit
(R200, R201). c is the channel's state before it. -/
def foldRest (c : Conv) (v : PairCal) (g : Nat) (t : Device) : Device :=
  let add (off : Nat) (x : Int) (t : Device) : Device :=
    t.setReg (chAddr g off) (wordOfInt (clampInt (-(2 ^ 20)) (2 ^ 20) ((t.reg (chAddr g off)).toInt + x)))
  let t := add 0x46 c.liveV (add 0x45 c.liveH t)
  let t := ((t.setReg (chAddr g 0x4C) (wordOfInt v.iH.gain)).setReg (chAddr g 0x4D) (wordOfInt v.iL.gain)).setReg
    (chAddr g 0x4E) (wordOfInt v.v.gain)
  let t := (t.cset g OREF_I (fieldOf 16 (clampSigned 16 v.iH.ofs))).cset g OREF_V (fieldOf 16 (clampSigned 16 v.v.ofs))
  let t := resetLive (baseWords t g) g t
  let d := g / 8
  let t := dsetBit d BENCH_MIS_V_MISMATCH (g % 8) false (dsetBit d BENCH_MIS_I_MISMATCH (g % 8) false t)
  t.cset g CAL_CTL_FOLDED_EVT 1

/-- FOLD takes effect (R200). -/
def foldNow (g : Nat) (s : Device) : Device :=
  match (s.ch g).conv.visit with
  | none => s
  | some v => ((foldWords g s).map (foldRest (s.ch g).conv v g)).getD s

/-- A waiting action works on what those before it left (R202). An APPLY whose record an earlier one used is refused with
NO_RUN, and a command whose constants no longer fit with KBAD (R199). -/
def calAct (a : Nat × Word) (g : Nat) (s : Device) : Device :=
  if a.1 = 0 then
    let both := a.2 == 1#32
    if s.cget g CAL_CTL_RUN_OK = 0 then calRefuse 1 g s
    else if !applyOk s g both then calRefuse 5 g s else applyNow both g s
  else if a.1 = 1 then (if foldOk s g then foldNow g s else calRefuse 5 g s)
  else baseReset g (s.setReg (chAddr g a.1) a.2)

/-- The causes of an action: a baseline write changes the live corrections, the others constants (R144, R194). -/
def calCause (a : Nat × Word) : Nat := if 0x4C ≤ a.1 then 1 else 8

/-- Actions in their order, with the causes they add. -/
def calActList (g : Nat) : List (Nat × Word) → Device → Nat → Device × Nat
  | [], s, c => (s, c)
  | a :: l, s, c =>
    let (t, c) := constAct (calCause a) (fun g t => forceConsts g (calAct a g t)) g s c
    calActList g l t c

/-- The baselines and constants that were written take effect (R144, R194). -/
def writtenActs (g : Nat) (s : Device) : Device × Nat :=
  let (s, c) := constAct 1 baseReset g s 0
  constAct 8 forceConsts g s c

/-- The actions that wait, in the order in which they reached the die: the words written before the first command, then the
commands and the words written after it (R202). -/
def calActs (g : Nat) (s : Device) : Device × Nat :=
  let x := (s.ch g).due
  let s := (calOffs.zip x.calBase).foldl (fun t q => t.setReg (chAddr g q.1) q.2) s
  let (s, c) := writtenActs g (s.modDue g fun x => { x with cal := [], calBase := [] })
  calActList g x.cal s c

/-- Step 4 of R147 for constants: the settings of a main-domain start, or baselines, CAL_CTL commands and written constants,
in the order in which they reached the die (R144, R148, R194, R202). -/
def constBoundary (g : Nat) (s : Device) : Device :=
  if (s.ch g).due.start then
    let s := startConsts g (s.modDue g fun x => { x with start := false })
    constClose g s (if constsNow s g = (s.ch g).conv.triple then 0 else 32)
  else
    let (s, c) := if (s.ch g).due.cal = [] then writtenActs g s else calActs g s
    constClose g s c

/-- A reference run has completed on a channel: its record, and RUN_OK (R197). -/
def runRecord (qRef qDev net : Int) (causes g : Nat) (s : Device) : Device :=
  let s := s.modConv g fun v => { v with runRef := qRef, runDev := qDev, runNet := net, runCauses := causes }
  (s.cset g CAL_CTL_RUN_OK 1).cset g CAL_CTL_RUN_RANGE (if chLow s g then 1 else 0)

/-- CAL_APPLY. -/
def execCalApply (g : Ch) (data : Word) (s : State) : Host.Outcome State Fault Refusal :=
  onDie (g.val / 8) s (calApply data g)
/-- CAL_FOLD. -/
def execCalFold (g : Ch) (data : Word) (s : State) : Host.Outcome State Fault Refusal :=
  onDie (g.val / 8) s (calFold data g)

end Sys2Proof.Machine
end

