-- ==== Sys2Proof/Machine/AcirEngine.lean ====
section
/-! DEFINITION. The AC internal resistance engine (R162 to R185): requests, the lead-in and its budget moves, the
excitation, demodulation, the impedance and energy arithmetic, quality flags and aborts, and the commands ACIR_START,
ACIR_ABORT_CMD, ACIR_ENVELOPE_ZERO, ACIR_WINDOW_ABORT and ACIR_CLR. -/

namespace Sys2Proof.Machine

/-- ACIR_STAT.STATE: 0 idle, 1 lead-in, 2 open, 3 lead-out. -/
def acirState (s : Device) (g : Nat) : Nat := s.cget g ACIR_STAT_STATE

/-- No window. -/
def noAcirPar : AcirPar := ⟨0, 0, 0, 0, 0, 0, false, false⟩

/-- θ of R162 at a line angle, 2^-32 turn. -/
def acirTheta (m slot angle : Nat) : Nat := (m * angle + slot * 2 ^ 28) % 2 ^ 32

/-- cos_tab of the NCO phase θ[31:8] (R162). -/
def cosTab (th : Nat) : Int := roundHalfEven (131071 * cosCycle (th / 256 * 256)) (2 ^ 60)
/-- sin_tab. -/
def sinTab (th : Nat) : Int := roundHalfEven (131071 * sinCycle (th / 256 * 256)) (2 ^ 60)

/-- An ACIR_RESULT record of the step's window (R247, R251). DESIGN CHOICE (notes/assumptions/62): the manual gives no base of
the window number; windows count from 0. -/
def acirRecord (code g : Nat) (s : Device) : Device :=
  let rd (o : Nat) : Nat := (s.reg (chAddr g o)).toNat
  traceWrite 5 g ([BitVec.ofNat 8 (s.cget g CH_STEP_RECIPE), BitVec.ofNat 8 (s.cget g CH_STEP_STEP),
    BitVec.ofNat 8 (s.ch g).eng.acirDone, BitVec.ofNat 8 (rd 0x52 / 16)] ++ leBytes 4 (rd 0x53) ++ leBytes 4 (rd 0x54) ++
    leBytes 4 (rd 0x5A) ++ leBytes 2 (rd 0x56) ++ [BitVec.ofNat 8 (s.cget g ACIR_STAT_USABLE + code * 16)]) s

/-- A step's window failed for good: the step ends with ACIR_REFUSED (R247). -/
def acirStepFails (code g : Nat) (s : Device) : Device :=
  (acirRecord code g s).modEng g fun e => { e with acirEnd := 2, acirDue := none }

/-- A refusal (R166). -/
def acirRefuse (code : Nat) (p : AcirPar) (g : Nat) (s : Device) : Device :=
  let s := (s.cset g ACIR_STAT_REFUSE code).cset g ACIR_STAT_REFUSE_EVT 1
  if p.step then acirStepFails code g s else s

/-- The lowest failing check of R166 on a request; 0 when none fails. BUDGET is found at the lead-in. A request accepted
before that still waits for its lead-in point makes a further one BUSY (DESIGN CHOICE, notes/assumptions/62: the rule names
only a lead-in, a window, a lead-out and a held request). -/
def acirCheck (s : Device) (g : Nat) (p : AcirPar) : Nat :=
  if modeOf s g ≠ 1 ∨ s.cget g CH_STAT_ACTIVE = 0 then 1
  else if 819 < perOf s g then 2
  else if s.line.period < p.m * 32768 then 3
  else if acirActive s g && !(acirState s g == 2 && (s.ch g).acir.held.isNone) then 4
  else if pkgState s ≠ Pkg.run then 5
  else if p.amp = 0 then 6
  else 0

/-- A request (R166, R167): refused, held behind an open window, or accepted with its lead-in point resolved. An
accepted window whose own open point lies inside custody aborts the bench visit (R124, R181). -/
def acirRequest (p : AcirPar) (g : Nat) (s : Device) : Device :=
  let code := acirCheck s g p
  if code ≠ 0 then acirRefuse code p g s
  else
    let p := { p with run := engState s g == EngSt.running, since := s.now }
    let lead := resolveAngle (ptOf s (g / 8)) (p.slot * 2 ^ 28)
    let opens := if acirState s g = 2 then heldOpen s g p else lead + p.lead * 2 ^ 32
    let s :=
      if acirState s g = 2 then (s.modAcir g fun a => { a with held := some p }).cset g ACIR_STAT_HELD 1
      else s.modAcir g fun a => { a with par := p, leadPt := lead, moves := 0 }
    let d := g / 8
    if s.dbit d BENCH_STAT_CUSTODY && benchCh s d == g % 8 && pointBefore s d opens (s.die d).bench.t2 then benchAbort d s else s

/-- The window's parameters of ACIR_CTL (R166). -/
def hostAcirPar (s : Device) (g : Nat) : AcirPar :=
  { m := s.cget g ACIR_CTL_M, w := s.cget g ACIR_CTL_W, lead := s.cget g ACIR_CTL_LEAD, amp := s.cget g ACIR_CTL_AMP
    slot := slotOf s g, since := 0, step := false, run := false }

/-- ACIR_CTL as stored: M, W and LEAD of 0 become 1, AMP at most 1,024 (R164, R165). -/
def acirCtlStored (w : Word) : Word :=
  let up {b : Blk} (f : Fld b) (w : Word) : Word := if f.get w = 0 then f.put 1 w else w
  let w := up ACIR_CTL_M (up ACIR_CTL_W (up ACIR_CTL_LEAD (w &&& 0x1FFFFFFF#32)))
  if 1024 < ACIR_CTL_AMP.get w then ACIR_CTL_AMP.put 1024 w else w

/-- Clear what a window collects. -/
def Acir.clearWindow (a : Acir) : Acir :=
  { a with fHold := false, fClip := false, fDc := false, fBench := false, fEnv := false, fRange := false,
           fSynth := false, siRe := 0, siIm := 0, svRe := 0, svIm := 0, siDc := 0, svDc := 0, sc := 0, ss := 0, n := 0,
           cycle := 0, cycSum := 0, cycN := 0, firstSum := 0, firstN := 0 }

/-- The lead-out ends: the envelope is zero (R165). -/
def acirIdle (g : Nat) (s : Device) : Device :=
  (s.modAcir g fun a => { a with env := 0, envTgt := 0, par := noAcirPar }).cset g ACIR_STAT_STATE 0

/-- What the abort of its window means to an ACIR step (R247): with code 1 or 4, or the second time, the step ends; any
other abort has the window requested once more, when the lead-out has ended (DESIGN CHOICE, notes/assumptions/62: the rule
names no time, and a request during the lead-out is BUSY). A step that a contact fault ends makes its window's request anew
when it resumes (R246). -/
def acirStepAborted (code g : Nat) (s : Device) : Device :=
  if (s.ch g).due.contact then s.modEng g fun e => { e with acirDue := none, acirRetry := false }
  else if code = 1 ∨ code = 4 ∨ (s.ch g).eng.acirAgain = true then acirStepFails code g s
  else s.modEng g fun e => { e with acirAgain := true, acirRetry := true, acirDue := some (ptOf s (g / 8)) }

/-- An abort (R182): sums discarded, no result, the envelope falls; a step's window is a matter of R247. -/
def acirAbort (code g : Nat) (s : Device) : Device :=
  let a := (s.ch g).acir
  let live := decide (a.par.m ≠ 0 ∧ acirState s g < 3) || a.held.isSome
  if !live then s
  else
    let own := a.par.step || (match a.held with | some p => p.step | none => false)
    let s := ((s.cset g ACIR_STAT_ABORT_CODE code).cset g ACIR_STAT_ABORT_EVT 1).cset g ACIR_STAT_HELD 0
    let s := s.modAcir g fun a => { a.clearWindow with held := none, envTgt := 0 }
    let s := if a.env = 0 then acirIdle g s else s.cset g ACIR_STAT_STATE 3
    if own then acirStepAborted code g s else s

/-- A step ends: a window or a held request that a host asked for while it ran aborts with code 2; the step's own go on,
and nothing is left that belongs to the step (R182). -/
def acirStepEnd (g : Nat) (s : Device) : Device :=
  let a := (s.ch g).acir
  let dies (p : AcirPar) : Bool := p.run && !p.step
  let free (p : AcirPar) : AcirPar := { p with step := false, run := false }
  let s :=
    if dies a.par && decide (acirState s g < 3) then acirAbort 2 g s
    else if (match a.held with | some p => dies p | none => false) then
      (((s.cset g ACIR_STAT_ABORT_CODE 2).cset g ACIR_STAT_ABORT_EVT 1).cset g ACIR_STAT_HELD 0).modAcir g fun a =>
        { a with held := none }
    else s
  s.modAcir g fun a => { a with par := free a.par, held := a.held.map free }

/-- A stop of the channel: the window aborts with code 1 and the envelope is gone with cmd (R86, R182). -/
def acirStopped (g : Nat) (s : Device) : Device :=
  let s := acirAbort 1 g s
  if acirActive s g then acirIdle g s else s

/-- The step's next window, requested when its point has come while the step runs; a repeated request waits for the end of
the lead-out (R247). -/
def acirNextDue (g : Nat) (s : Device) : Device :=
  match (s.ch g).eng.acirDue with
  | none => s
  | some p =>
    if ptOf s (g / 8) < p ∨ engState s g ≠ EngSt.running ∨ ((s.ch g).eng.acirRetry = true ∧ acirActive s g = true) ∨
        (s.die (g / 8)).link.upSilent = true then s
    else
      let s := s.modEng g fun e => { e with acirDue := none, acirRetry := false }
      match curStep s g with
      | some r => acirRequest (stepAcirPar r (slotOf s g)) g s
      | none => s

/-! The excitation. -/

/-- The clocks from now to the first clock of the next switching period (R72, R163). -/
def clocksToPeriod (s : Device) (g : Nat) : Nat :=
  let per := perOf s g
  let t := (s.die (g / 8)).tick
  let o := s.cfrc g CH_PWM_PHASE * (per / 8)
  if per = 0 then 0 else (per - (t + per * 8 - o) % per + 7) / 8

/-- The line angle a number of clocks ahead, with the increment in force. -/
def angleAhead (s : Device) (d n : Nat) : Nat :=
  let x := if d = 0 then s.line.nco else (s.die d).nco
  (x.phase + x.inc * n) / 2 ^ 16 % 2 ^ 32

/-- The envelope after one period: towards its target by at most SLEW, at once when SLEW is 0 (R163). -/
def envStep (slew : Nat) (env tgt : Int) : Int := if slew = 0 then tgt else env + clampInt (-(slew : Int)) slew (tgt - env)

/-- The excitation of a period in current words (R163). -/
def acirExc (s : Device) (g : Nat) (env : Int) : Int :=
  let a := (s.ch g).acir
  if env = 0 then 0
  else roundHalfEven (env * cosTab (acirTheta a.par.m a.par.slot (angleAhead s (g / 8) (clocksToPeriod s g)))) 131071

/-! Demodulation. -/

/-- A cycle of the window is whole: all of it lies between the open and the close (R180). -/
def wholeCycle (a : Acir) (n : Nat) : Bool := decide (a.openPt ≤ n * 2 ^ 32 ∧ (n + 1) * 2 ^ 32 ≤ a.closePt)

/-- Close a cycle's mean: the first whole cycle is kept, a later one is compared with it (R180 DCMOVE). -/
def acirCycle (tol : Nat) (a : Acir) : Acir :=
  if a.cycN = 0 ∨ wholeCycle a a.cycle = false then { a with cycSum := 0, cycN := 0 }
  else if a.firstN = 0 then { a with firstSum := a.cycSum, firstN := a.cycN, cycSum := 0, cycN := 0 }
  else
    let moved := decide ((tol * 128 * a.cycN * a.firstN : Nat) < (a.cycSum * a.firstN - a.firstSum * a.cycN).natAbs)
    { a with fDc := a.fDc || moved, cycSum := 0, cycN := 0 }

/-- One word of a window (R170). -/
def Acir.word (tol : Nat) (count angle : Nat) (i v : Int) (a : Acir) : Acir :=
  let th := acirTheta a.par.m a.par.slot angle
  let c := cosTab th
  let sn := sinTab th
  let a := if a.cycN ≠ 0 ∧ a.cycle ≠ count then acirCycle tol a else a
  { a with siRe := a.siRe + i * c, siIm := a.siIm - i * sn, svRe := a.svRe + v * c, svIm := a.svIm - v * sn
           siDc := a.siDc + i, svDc := a.svDc + v, sc := a.sc + c, ss := a.ss + sn, n := a.n + 1
           cycle := count, cycSum := a.cycSum + i, cycN := a.cycN + 1 }

/-- The fast words just formed enter an open window when their last clock lies in it (R170). -/
def acirSample (g : Nat) (s : Device) : Device :=
  if acirState s g = 2 then
    let w := (s.die (g / 8)).winNco
    let a := (s.ch g).acir
    if a.openPt ≤ w.pt ∧ w.pt < a.closePt then
      s.modAcir g (Acir.word (s.cget g ACIR_CFG_DC_TOL) w.count w.angle (iFast s g) (vFast s g))
    else s
  else s

/-- The flags that hold at any clock of the window (R180). -/
def acirClock (g : Nat) (s : Device) : Device :=
  if acirState s g = 2 then
    let l := lineState s
    let b := carried s g
    s.modAcir g fun a => { a with
      fHold := a.fHold || l == LineState.holdover, fSynth := a.fSynth || l == LineState.synthetic, fBench := a.fBench || b }
  else s

/-- The CLIP flag of an open window. -/
def acirClip (g : Nat) (s : Device) : Device :=
  if acirState s g = 2 then s.modAcir g fun a => { a with fClip := true } else s

/-! The arithmetic of the close. -/

/-- bitlen of R172. -/
def bitLen (n : Nat) : Nat := if n = 0 then 0 else Nat.log2 n + 1

/-- Remove the DC component from the sums (R170). -/
def Acir.removeDc (a : Acir) : Acir :=
  let r (x : Int) : Int := roundHalfEven x a.n
  { a with siRe := a.siRe - r (a.siDc * a.sc), siIm := a.siIm + r (a.siDc * a.ss)
           svRe := a.svRe - r (a.svDc * a.sc), svIm := a.svIm + r (a.svDc * a.ss) }

/-- The normalised sums and products of R172. -/
structure AcirProd where
  vr : Int
  vi : Int
  ir : Int
  ii : Int
  svSh : Nat
  siSh : Nat
  den : Nat
  nr : Int
  nx : Int
  deriving DecidableEq, Repr

/-- R172. -/
def acirProd (a : Acir) : AcirProd :=
  let sh (x y : Int) : Nat := bitLen (max x.natAbs y.natAbs) - 31
  let sv := sh a.svRe a.svIm
  let si := sh a.siRe a.siIm
  let vr := a.svRe / 2 ^ sv
  let vi := a.svIm / 2 ^ sv
  let ir := a.siRe / 2 ^ si
  let ii := a.siIm / 2 ^ si
  ⟨vr, vi, ir, ii, sv, si, (ir * ir + ii * ii).toNat, vr * ir + vi * ii, vi * ir - vr * ii⟩

/-- Saturate a signed result at ±(2^31 − 1) (R174). -/
def sat32 (x : Int) : Int := clampInt (-(2 ^ 31 - 1)) (2 ^ 31 - 1) x
/-- Saturate an unsigned result. -/
def satU32 (x : Nat) : Nat := min x (2 ^ 32 - 1)

/-- The square root of num/den rounded half to even. -/
def sqrtRat (num den : Nat) : Nat :=
  if den = 0 then 0
  else
    let r := isqrt (num / den)
    let t := (2 * r + 1) * (2 * r + 1) * den
    if 4 * num < t then r else if t < 4 * num then r + 1 else if r % 2 = 0 then r else r + 1

/-- g of R173 as norm(); an impedance scale outside the format has a value the manual does not give. -/
def acirScale (kq kv : Const) (free : Nat) : Const :=
  (normRat (kv.mant * 2 ^ (22 + kq.sh) * 1000) (kq.mant * 73728 * 2 ^ kv.sh)).getD ⟨(Config.freeValue free).toNat, 0⟩

/-- LOWI of R175. -/
def acirLowI (p : AcirProd) (amp n : Nat) : Bool :=
  decide (p.den = 0) || decide (p.den * 4 ^ p.siSh * 256 < (amp * 2048 * n * 131071) ^ 2)

/-- The exact P and Q of R176 as numerators over a common denominator, µW and µvar. -/
def acirPower (p : AcirProd) (kq kv : Const) (n : Nat) : Int × Int × Nat :=
  let k : Int := 2 * (kv.mant * kq.mant * 73728 * 2 ^ (p.svSh + p.siSh) : Nat)
  (k * p.nr, k * p.nx, 1000 * 2 ^ (kv.sh + kq.sh + 22) * (n * 131071) ^ 2)

/-- The words of the result registers R to IDC (R174 to R176), by offset. With no word in the window the amplitudes are
values the manual does not give. -/
def acirWords (a : Acir) (kq kv : Const) (free : Nat) : List (Nat × Word) :=
  let p := acirProd a
  let g := acirScale kq kv free
  let gn : Nat := g.mant * 2 ^ p.svSh
  let gd : Nat := 2 ^ (g.sh + p.siSh)
  let va : Nat := (p.vr * p.vr + p.vi * p.vi).toNat
  let ns : Nat := a.n * 131071
  let (pn, qn, pd) := acirPower p kq kv a.n
  let zs := if p.den = 0 then [(0x53, 0x80000000#32), (0x54, 0x80000000#32), (0x55, 0xFFFFFFFF#32)]
    else [(0x53, wordOfInt (sat32 (roundHalfEven (gn * p.nr) (gd * p.den)))),
          (0x54, wordOfInt (sat32 (roundHalfEven (gn * p.nx) (gd * p.den)))),
          (0x55, BitVec.ofNat 32 (satU32 (sqrtRat (gn * gn * va) (gd * gd * p.den))))]
  let fr (k : Nat) : Word := Config.freeValue (free + k)
  let rest :=
    if a.n = 0 then [(0x57, fr 1), (0x58, fr 2), (0x59, fr 3), (0x5A, fr 4), (0x5B, fr 5), (0x5C, fr 6)]
    else
      let k : Nat := 2 * kv.mant * kq.mant * 73728 * 2 ^ (p.svSh + p.siSh)
      let ki : Nat := 2 * kq.mant * 73728 * 2 ^ p.siSh
      [(0x57, wordOfInt (sat32 (roundHalfEven pn pd))), (0x58, wordOfInt (sat32 (roundHalfEven qn pd))),
       (0x59, BitVec.ofNat 32 (satU32 (sqrtRat (k * k * va * p.den) (pd * pd)))),
       (0x5A, BitVec.ofNat 32 (satU32 (sqrtRat (ki * ki * p.den) ((2 ^ (kq.sh + 22) * ns) ^ 2)))),
       (0x5B, BitVec.ofNat 32 (satU32 (sqrtRat ((2 * kv.mant * 2 ^ p.svSh) ^ 2 * va) ((2 ^ kv.sh * ns) ^ 2)))),
       (0x5C, wordOfInt (sat32 (roundHalfEven (a.siDc * kq.mant * 73728) (2 ^ (kq.sh + 22) * a.n))))]
  zs ++ rest

/-- The phase of Z in 2^-16 turn (R174, R175); for Z = 0 the manual states none. -/
def acirPhase (p : AcirProd) (free : Nat) : Nat :=
  if p.den = 0 then 0x8000
  else if p.nr = 0 ∧ p.nx = 0 then (Config.freeValue free).toNat % 2 ^ 16
  else fieldOf 16 (roundHalfEven (atan2Fix p.nx p.nr * 65536) (8 * quarterPi).toNat)

/-- The quadrant of exact P and Q: 0 for Q1 to 3 for Q4 (R177). -/
def acirQuad (pn qn : Int) : Nat := if 0 ≤ pn then (if 0 ≤ qn then 0 else 3) else (if 0 ≤ qn then 1 else 2)

/-- An energy of |x|/pd µW over n words in 2^-32 µWh, truncated: a word is 16 clocks of 20.48 MHz (R177, R178). -/
def acirEnergy (x : Int) (pd n : Nat) : Nat := x.natAbs * n * 16 * 2 ^ 32 / (pd * 20480000 * 3600)

/-- Book a window's energies (R177, R178). -/
def Acir.bookEnergy (kq kv : Const) (a : Acir) : Acir :=
  let p := acirProd a
  let (pn, qn, pd) := acirPower p kq kv a.n
  if p.den = 0 ∨ a.n = 0 then a
  else
    let k := acirQuad pn qn
    { a with ep := a.ep.set k ((nth a.ep k + acirEnergy pn pd a.n) % 2 ^ 64)
             eq := a.eq.set k ((nth a.eq k + acirEnergy qn pd a.n) % 2 ^ 64) }

/-- Publish the quadrant registers: the integer parts (R178). -/
def acirPublish (g : Nat) (s : Device) : Device :=
  s.each (List.range 4) fun k t =>
    (t.setReg (chAddr g (0x60 + k)) (high32 (nth (t.ch g).acir.ep k))).setReg (chAddr g (0x64 + k))
      (high32 (nth (t.ch g).acir.eq k))

/-- The phase of a window and its sequence number (R175). -/
def acirPhaseOut (g : Nat) (p : AcirProd) (s : Device) : Device :=
  (s.cset g ACIR_PHASE (acirPhase p (s.free - 1))).cset g ACIR_PHASE_SEQ (s.cget g ACIR_PHASE_SEQ + 1)

/-- ACIR_N and ACIR_STAT of a window (R179, R180). -/
def acirStat (g : Nat) (a : Acir) (low : Bool) (s : Device) : Device :=
  let bad := a.fHold || a.fClip || a.fDc || a.fBench || a.fEnv || a.fRange || low
  let b (x : Bool) : Nat := if x then 1 else 0
  ((((((((((s.cset g ACIR_N a.n).cset g ACIR_STAT_USABLE (b (!bad))).cset g ACIR_STAT_HOLD (b a.fHold)).cset g ACIR_STAT_CLIP
    (b a.fClip)).cset g ACIR_STAT_DCMOVE (b a.fDc)).cset g ACIR_STAT_BENCH (b a.fBench)).cset g ACIR_STAT_ENV
    (b a.fEnv)).cset g ACIR_STAT_RANGE (b a.fRange)).cset g ACIR_STAT_LOWI (b low)).cset g ACIR_STAT_SYNTH
    (b a.fSynth)).cset g ACIR_STAT_DONE_EVT 1

/-- The quadrants of a window (R177). -/
def acirBook (g : Nat) (a : Acir) (kq kv : Const) (s : Device) : Device :=
  s.modAcir g fun _ => if s.cget g ACIR_CFG_QE_EN = 1 then a.bookEnergy kq kv else a

/-- The results of a window at its close (R170 to R180). -/
def acirFinish (g : Nat) (s : Device) : Device :=
  let s := s.modAcir g (acirCycle (s.cget g ACIR_CFG_DC_TOL))
  let a := (s.ch g).acir.removeDc
  let k := (s.ch g).conv
  let p := acirProd a
  let low := acirLowI p a.par.amp a.n
  let s := (acirWords a k.kq k.kv s.free).foldl (fun t x => t.setReg (chAddr g x.1) x.2) s
  acirPublish g (acirBook g a k.kq k.kv (acirStat g a low (acirPhaseOut g p (s.spend 8))))

/-! Events of a window. -/

/-- The lead-in begins, with its open and close points (R165). -/
def acirBegin (p : AcirPar) (pt g : Nat) (s : Device) : Device :=
  (s.modAcir g fun a => { a.clearWindow with
    par := p, leadPt := pt, openPt := pt + p.lead * 2 ^ 32, closePt := pt + (p.lead + p.w) * 2 ^ 32
    moves := 0, envTgt := p.amp * 2048 }).cset g ACIR_STAT_STATE 1

/-- The held request leaves its place behind the window. -/
def dropHeld (g : Nat) (s : Device) : Device := (s.modAcir g fun a => { a with held := none }).cset g ACIR_STAT_HELD 0

/-- A lead-in point that the lease does not cover moves a cycle on, sixteen times at most (R168). -/
def acirMove (pt g : Nat) (s : Device) : Device :=
  s.modAcir g fun a => { a with moves := a.moves + 1, leadPt := pt + 2 ^ 32 }

/-- The request that waits for its lead-in point: the accepted one, or in the lead-out the one that was held (R167, R168). -/
def acirWaits (s : Device) (g : Nat) : Option AcirPar :=
  let a := (s.ch g).acir
  if acirState s g = 0 then (if a.par.m = 0 then none else some a.par)
  else if acirState s g = 3 then a.held
  else none

/-- At the clock of the lead-in point (R57) the lead-in begins when the lease covers the demand, else the point moves a
cycle, sixteen times at most (R168). -/
def acirLeadin (g : Nat) (s : Device) : Device :=
  let a := (s.ch g).acir
  match acirWaits s g with
  | none => s
  | some p =>
    if (s.die (g / 8)).link.upSilent = true ∨ ptOf s (g / 8) < a.leadPt then s
    else if leaseCovers s g (demandOf s g) then acirBegin p a.leadPt g (dropHeld g s)
    else if a.moves < 16 then acirMove a.leadPt g s
    else acirRefuse 7 p g (if acirState s g = 0 then acirIdle g s else dropHeld g s)

/-- The present period is limited, skipped or clamped, or a modulator stands at its limit (R180 CLIP). -/
def acirClipNow (s : Device) (g : Nat) : Bool :=
  (s.ch g).acir.clipNow || s.cbit g CH_STAT_SAT || s.cbit g CH_STAT_SKIP || overloadNow s g false || overloadNow s g true

/-- The window opens at the clock of its point (R57, R165), with the flags that hold already (R180); ENV when the envelope
is not yet at its amplitude (R169). -/
def acirOpen (g : Nat) (s : Device) : Device :=
  let a := (s.ch g).acir
  if acirState s g = 1 ∧ a.openPt ≤ ptOf s (g / 8) then
    let clip := acirClipNow s g
    acirClock g ((s.modAcir g fun a => { a.clearWindow with
      fEnv := decide (a.env ≠ a.envTgt), fClip := clip }).cset g ACIR_STAT_STATE 2)
  else s

/-- An ACIR step's window has closed: the record, and the next window or the end of the series (R247). -/
def acirStepClose (g : Nat) (s : Device) : Device :=
  let s := (acirRecord 0 g s).modEng g fun e => { e with acirDone := e.acirDone + 1 }
  match curStep s g with
  | none => s
  | some r =>
    if r.p3 % 256 ≤ (s.ch g).eng.acirDone then s.modEng g fun e => { e with acirEnd := 1 }
    else
      let gap := r.p3 / 256 % 256
      if gap = 0 then s
      else s.modEng g fun e => { e with acirDue := some ((s.ch g).acir.closePt + gap * 2 ^ 32) }

/-- Windows of a step with GAP 0 are requested at the previous close, and then held (R247). -/
def acirRequestAtClose (g : Nat) (s : Device) : Device :=
  match curStep s g with
  | some r =>
    if !(s.die (g / 8)).link.upSilent && (s.ch g).acir.par.step && decide (r.typ = 9 ∧ r.p3 / 256 % 256 = 0 ∧ (s.ch g).eng.acirDone + 1 < r.p3 % 256) then
      acirRequest (stepAcirPar r (slotOf s g)) g s
    else s
  | none => s

/-- The lead-out begins (R165). -/
def acirLeadOut (g : Nat) (s : Device) : Device := (s.modAcir g fun a => { a with envTgt := 0 }).cset g ACIR_STAT_STATE 3

/-- The window closes at the clock of its point (R57): results, energies, then the held request's lead-in where the lease covers
the demand, or the lead-out, the request's point a cycle on (R165, R167, R168); a die that holds over starts no window, and
keeps the request (R440). -/
def acirClose (g : Nat) (s : Device) : Device :=
  if acirState s g ≠ 2 ∨ ptOf s (g / 8) < (s.ch g).acir.closePt then s
  else
    let own := (s.ch g).acir.par.step
    let s := acirFinish g (acirRequestAtClose g s)
    let s := if own then acirStepClose g s else s
    let pt := (s.ch g).acir.closePt
    match (s.ch g).acir.held with
    | none => acirLeadOut g s
    | some p =>
      if (s.die (g / 8)).link.upSilent then acirLeadOut g (s.modAcir g fun a => { a with moves := 0, leadPt := pt + 2 ^ 32 })
      else if leaseCovers s g (demandOf s g) then acirBegin p pt g (dropHeld g s)
      else acirLeadOut g (acirMove pt g (s.modAcir g fun a => { a with moves := 0 }))

/-- The envelope has reached zero (R165); a request still held goes on to its own lead-in point (R168, R440). -/
def acirEnvelopeZero (g : Nat) (s : Device) : Device :=
  if acirState s g = 3 ∧ (s.ch g).acir.env = 0 then
    match (s.ch g).acir.held with
    | none => acirIdle g s
    | some p => dropHeld g ((acirIdle g s).modAcir g fun a => { a with par := p })
  else s

/-- A write of ACIR_CTL: the fields are stored, START requests a window, ABORT aborts (R166, R184). -/
def acirCtlWrite (g : Nat) (data : Word) (s : Device) : Device :=
  let s := s.setReg (chAddr g 0x50) (acirCtlStored data)
  let s := if ACIR_CTL_START.get data = 1 then acirRequest (hostAcirPar s g) g s else s
  if ACIR_CTL_ABORT.get data = 1 then acirAbort 3 g s else s

/-- A write of ACIR_CLR with its key: the quadrants clear at the next boundary (R179). -/
def acirClrWrite (g : Nat) (data : Word) (s : Device) : Device :=
  if ACIR_CLR.get data = 1 ∧ ACIR_CLR_KEY.get data = 0xC3 then s.modDue g fun x => { x with acirClr := true } else s

/-- The due clear of the quadrant energies (R179). -/
def acirBoundary (g : Nat) (s : Device) : Device :=
  if (s.ch g).due.acirClr then
    acirPublish g ((s.modAcir g fun a => { a with ep := [0, 0, 0, 0], eq := [0, 0, 0, 0] }).modDue g fun x =>
      { x with acirClr := false })
  else s

/-! Commands. -/

/-- ACIR_START: a write of ACIR_CTL. -/
def execAcirStart (g : Ch) (data : Word) (s : State) : Host.Outcome State Fault Refusal :=
  onDie (g.val / 8) s (acirCtlWrite g data)
/-- ACIR_ABORT_CMD. -/
def execAcirAbortCmd (g : Ch) (s : State) : Host.Outcome State Fault Refusal := onDie (g.val / 8) s (acirAbort 3 g)
/-- ACIR_ENVELOPE_ZERO. -/
def execAcirEnvelopeZero (g : Ch) (s : State) : Host.Outcome State Fault Refusal :=
  onDie (g.val / 8) s (acirEnvelopeZero g)
/-- ACIR_WINDOW_ABORT. -/
def execAcirWindowAbort (g : Ch) (code : Nat) (s : State) : Host.Outcome State Fault Refusal :=
  onDie (g.val / 8) s (acirAbort code g)
/-- ACIR_CLR. -/
def execAcirClr (g : Ch) (data : Word) (s : State) : Host.Outcome State Fault Refusal :=
  onDie (g.val / 8) s (acirClrWrite g data)

end Sys2Proof.Machine
end

