-- ==== Sys2Proof/Machine/Flags.lean ====
section
/-! DEFINITION. The flag computations of the channel block: CH_FAULT with FIRST (R94 to R97), the loop flags of
CH_STAT, and the overload flags of CH_SENSE (R103, R112). -/

namespace Sys2Proof.Machine

/-- The stopping bits of CH_FAULT, bits [4:0] (R94). -/
def stopFaults (s : Device) (g : Nat) : Nat := (s.reg (chAddr g 2)).toNat % 32

/-- The ledger code of a CH_FAULT bit (R431). -/
def faultCode (bit : Nat) : Nat := bit + 1

/-- FIRST takes the code of a stopping fault that sets while none is latched, and the lowest code of those that set on
the clock of the first (R94, R97; DEDUCED: the commands of one clock are the rule's conditions of one tick). -/
def takeFirst (code g : Nat) (was : Nat) (s : Device) : Device :=
  if was = 0 then (s.cset g CH_FAULT_FIRST code).modLp g fun l => { l with firstAt := s.now }
  else if (s.ch g).lp.firstAt = s.now ∧ code < s.cget g CH_FAULT_FIRST then s.cset g CH_FAULT_FIRST code
  else s

/-- Set a bit of CH_FAULT; a change from 0 to 1 sets IRQ_STATUS.CH and writes one entry, and a stopping one is a
candidate for FIRST (R94, R96, R97). -/
def setChFault (bit g : Nat) (s : Device) : Device :=
  let w := s.reg (chAddr g 2)
  if w.toNat.testBit bit then s
  else
    let s' := s.setReg (chAddr g 2) (w ||| BitVec.ofNat 32 (2 ^ bit))
    let s' := if bit < 5 then takeFirst (bit + 1) g (stopFaults s g) s' else s'
    logEvent Cat.ch (g / 8) (faultCode bit) g (s'.reg (chAddr g 2)).toNat s'

/-- Clear bits of CH_FAULT; FIRST returns to 0 when bits [4:0] are all clear (R95). -/
def clearChFault (mask g : Nat) (s : Device) : Device :=
  let w := (s.reg (chAddr g 2)).toNat
  let w' := w - (w &&& mask)
  let s := s.setReg (chAddr g 2) (BitVec.ofNat 32 w')
  if w' % 32 = 0 then s.cset g CH_FAULT_FIRST 0 else s

/-- The flags of a channel that does not switch: ACTIVE, LOOP, ILIM_ACT, SAT, SKIP and SLEWING 0, TON 0 (R74, R87). -/
def idleFlags (g : Nat) (s : Device) : Device :=
  let w := s.reg (chAddr g 1)
  let w := CH_STAT_ACTIVE.put 0 (CH_STAT_LOOP.put 0 (CH_STAT_ILIM_ACT.put 0 (CH_STAT_SAT.put 0
    (CH_STAT_SKIP.put 0 (CH_STAT_SLEWING.put 0 w)))))
  (s.setReg (chAddr g 1) w).cset g CH_DUTY 0

/-- Set an overload flag; a change from 0 to 1 sets IRQ_STATUS.CH and writes one entry (R103, R112). -/
def setOverload (volt : Bool) (g : Nat) (s : Device) : Device :=
  let f := if volt then CH_SENSE_OVLD_V else CH_SENSE_OVLD_I
  if s.cget g f = 1 then s
  else
    let s := s.cset g f 1
    logEvent Cat.ch (g / 8) (if volt then 0x11 else 0x10) g (s.reg (chAddr g 0x1F)).toNat s

end Sys2Proof.Machine
end

