-- ==== Sys2Proof/Machine/Power.lean ====
section
/-! DEFINITION. The power stage's shared operations (R82 to R97): modes and setpoints, the start of a channel, stops,
override and range writes, the protections of one channel, and the commands COMPLIANCE_CLAMP, OCP_TRIP, OVP_TRIP,
RVP_TRIP, HSTOP, PWM_WRITE, SETPOINT_WRITE, OVERRIDE_CHANGE, RANGE_SEL_WRITE, UPRANGE and OVERLOAD_DETECT. -/

namespace Sys2Proof.Machine

/-- The channel's balls are in husk: every ball of the part is, its die's are, or its CHANNEL section was not accepted (R29, R30,
R33, R474). -/
def chHusk (s : Device) (g : Nat) : Bool :=
  let x := s.die (g / 8)
  !x.up || x.husk || s.pins.huskAll || (s.dget (g / 8) DIE_STAT_CH_HUSK).testBit (g % 8)

/-- Drop the gates, with everything the switching channel held (R86, R87); what a clamp or a command was stays for the contact
criteria of this clock (R97). -/
def gatesOff (g : Nat) (s : Device) : Device :=
  let at_ := s.now
  let s := s.modLp g fun l => { l with
    gl := false, cmd := 0, tgt := 0, iint := 0, ton := 0, satNext := false, toRest := false, clamp := 0, clampOk := 0
    edges := [], ctStop := false, cvSeen := false, sumI := 0, sumV := 0, nFast := 0
    stopAt := if l.gl then some at_ else l.stopAt, wasClamp := if l.gl then l.clamp else l.wasClamp
    wasCmd := if l.gl then l.cmd else l.wasCmd }
  idleFlags g s

/-- A stop (R86): the gates go low; cmd, iint and p_trim clear; a window aborts with code 1 (R182). -/
def stopChannel (g : Nat) (s : Device) : Device :=
  if (s.ch g).lp.gl then (gatesOff g (acirStopped g s)).modLp g fun l => { l with pTrim := 0 } else s

/-- The feed-forward on-time of R77 in 1/32 tick; with no VBUS reading its value is not given. -/
def feedForward (s : Device) (g : Nat) (vM : Int) : Int :=
  let k := (s.ch g).conv.kv
  let c := vbusCode s (g / 8)
  if s.cget g CH_LOOPCFG_FF_EN = 0 ∨ s.dbit (g / 8) BENCH_STAT_SAR_FAIL = true then 0
  else if c = 0 then Config.freeInt s.free
  else roundHalfEven (vM * k.mant * (perOf s g * 32)) (2 ^ k.sh * (c * 10000))

/-- The voltage integrator at a start: the tracking value for cmd = 0 (R77, R84). -/
def trackStart (s : Device) (g : Nat) : Int :=
  let ev := vsetW (s.ch g).conv.kv (vsetOf s g) (s.frc (chAddr g 0x46)).toInt - vFast s g
  Int.neg (coefMul (s.cget g CH_VKP_MANT) (s.cget g CH_VKP_SHIFT) ev)

/-- A lease is not asked for in TEST (R84, R474). -/
def mayDraw (s : Device) (g : Nat) : Bool := leaseHeld s g || pkgState s == Pkg.test && s.cbit g CH_CTL_OVR

/-- The checks of R84 before a channel leaves REST. -/
def startChecks (s : Device) (g : Nat) : Bool :=
  decide (stopFaults s g = 0) && !(s.die (g / 8)).vdrvBad && rvpAbsent s g && mayDraw s g && !chHusk s g &&
  !(s.ch g).lp.busOvHeld

/-- A channel leaves REST or restarts after a stop (R84); CH_PWM and CH_DT come into force (R75), and contact blanking
starts (R90). When a check fails it stays at rest: its gates stay low, and CH_CTL.MODE shows the mode asked for (DESIGN
CHOICE, notes/assumptions/61: R84 says only that the channel stays in REST). Where ton_hi lies below ton_lo the first
on-time keeps ton_lo (DESIGN CHOICE, notes/assumptions/61). -/
def channelStart (g : Nat) (s : Device) : Device :=
  if (s.ch g).lp.gl || modeOf s g == 0 || !startChecks s g then s
  else
    let s := (s.cforce g 0x14).cforce g 0x15
    let ton := clampInt (tonLo s g) (max (tonLo s g) (tonHi s g)) (feedForward s g (vFast s g))
    let ff0 := feedForward s g (vFast s g)
    let v := trackStart s g
    let s := s.modLp g fun l => { l with
      gl := true, cmd := 0, tgt := 0, iint := 0, vint := v, toRest := false, clamp := 0, clampOk := 0, ct1 := 0, ct3 := 0
      ctStop := false, vfHist := [], blank := s.cget g CH_CONTACT_CT_BLANK, iM := iFast s g, sumI := 0, perAt := none
      sumV := 0, nFast := 0, ton := if ff0 < tonLo s g then 0 else ton.toNat, satNext := decide (tonHi s g < ff0), cvSeen := false }
    (((s.cset g CH_STAT_ACTIVE 1).cset g CH_STAT_LOOP 1).cset g CH_STAT_SLEWING 1).nextFree

/-- Bring a mode into force (R82): a change clears p_trim (R78) and aborts a window (R182 code 2); REST is reached by
the ramp of R85. -/
def setMode (m g : Nat) (s : Device) : Device :=
  let s := if modeOf s g = m then s else (acirAbort 2 g s).modLp g fun l => { l with pTrim := 0 }
  let s := s.cset g CH_CTL_MODE m
  if modeOf s g = 0 then s.modLp g fun l => { l with toRest := l.gl } else s.modLp g fun l => { l with toRest := false }

/-- The step engine asks for a mode: in force, or held aside under an override (R82, R88). -/
def engMode (m g : Nat) (s : Device) : Device :=
  let s := s.modLp g fun l => { l with engMode := m }
  if s.cbit g CH_CTL_OVR then s else setMode m g s

/-- The step engine writes its setpoints (R88, R230). -/
def engSetpoints (i : Int) (v : Nat) (p : Int) (g : Nat) (s : Device) : Device :=
  let s := s.modLp g fun l => { l with engI := i, engV := v, engP := p }
  if s.cbit g CH_CTL_OVR then s
  else ((s.setReg (chAddr g 0x08) (wordOfInt i)).setReg (chAddr g 0x09) (BitVec.ofNat 32 v)).setReg (chAddr g 0x0A) (wordOfInt p)

/-- The step engine writes RANGE_SEL (R101). -/
def engRange (low : Bool) (g : Nat) (s : Device) : Device :=
  let s := s.modLp g fun l => { l with engR := low }
  if s.cbit g CH_CTL_OVR then s else writeRange low g s

/-- Blanking of the contact criteria starts anew (R90). -/
def contactBlank (g : Nat) (s : Device) : Device :=
  s.modLp g fun l => { l with blank := s.cget g CH_CONTACT_CT_BLANK, vfHist := [], ct1 := 0, ct3 := 0 }

/-- The channel follows the mode in force: it starts when the mode asks for current. -/
def followMode (g : Nat) (s : Device) : Device :=
  if modeOf s g = 0 then s else channelStart g (s.modLp g fun l => { l with toRest := false })

/-- An override takes or gives back mode and setpoints (R88); it aborts a window (R182 code 2). -/
def overrideChange (g : Nat) (data : Word) (s : Device) : Device :=
  let was := s.cbit g CH_CTL_OVR
  let now := CH_CTL_OVR.get data = 1
  let om := CH_CTL_OVR_MODE.get data
  let s := s.cset g CH_CTL_OVR_MODE om
  if now then
    let s := if was then s
      else (acirAbort 2 g (s.cset g CH_CTL_OVR 1)).modEng g fun e => { e with fOvr := true }
    followMode g (setMode om g s)
  else if was then
    let s := acirAbort 2 g (s.cset g CH_CTL_OVR 0)
    let l := (s.ch g).lp
    let s := engSetpoints l.engI l.engV l.engP g s
    let s := if l.engR = s.cbit g CH_SENSE_RANGE_SEL then s else writeRange l.engR g s
    followMode g (setMode (if pkgState s = Pkg.test then 0 else l.engMode) g s)
  else s

/-- The offset of a setpoint's word. -/
def setOff : SetReg → Nat
  | .iset => 0x08
  | .vset => 0x09
  | .pset => 0x0A

/-- A host write of a setpoint: discarded while OVR is 0; VSET is stored at most 6,000,000 (R87, R88). -/
def setpointWrite (g : Nat) (r : SetReg) (data : Word) (s : Device) : Device :=
  if s.cbit g CH_CTL_OVR then
    s.setReg (chAddr g (setOff r)) (if r = .vset ∧ 6000000 < data.toNat then 6000000#32 else data)
  else s

/-- CH_PWM as stored (R74). -/
def pwmStored (w : Word) : Word :=
  let w := w &&& 0xFFFF7FFF#32
  let w := CH_PWM_PER.put (clampNat 256 2048 (CH_PWM_PER.get w)) w
  let w := CH_PWM_TON_MIN.put (max 6 (CH_PWM_TON_MIN.get w)) w
  CH_PWM_TOFF_MIN.put (max 8 (CH_PWM_TOFF_MIN.get w)) w
/-- CH_DT as stored (R74). -/
def dtStored (w : Word) : Word :=
  let w := w &&& 0x07FF07FF#32
  CH_DT_LH.put (max 0x40 (CH_DT_LH.get w)) (CH_DT_HL.put (max 0x40 (CH_DT_HL.get w)) w)

/-- A write of CH_PWM or CH_DT: in force at once only while the channel does not switch (R75). -/
def pwmWrite (g : Nat) (dt : Bool) (data : Word) (s : Device) : Device :=
  let off := if dt then 0x15 else 0x14
  let s := s.setReg (chAddr g off) (if dt then dtStored data else pwmStored data)
  if (s.ch g).lp.gl then s else s.cforce g off

/-- A host write of RANGE_SEL: discarded while OVR is 0 (R101). -/
def rangeSelWrite (g : Nat) (low : Bool) (s : Device) : Device := if s.cbit g CH_CTL_OVR then writeRange low g s else s

/-- A forced change to range H: the channel is in range L and its last 4 fast words lie above 15/16 of full scale
(R102). -/
def uprange (g : Nat) (s : Device) : Device :=
  if chLow s g && uprangeNow s g then (s.modDue g fun x => { x with range := some false }).cset g CH_SENSE_UPRANGE_EVT 1 else s

/-- A modulator whose last 16 fast words lie within 1/64 of full scale of its limit (R103); it also clips an open window
(R180). -/
def overload (volt : Bool) (g : Nat) (s : Device) : Device :=
  if (s.die (g / 8)).up && overloadNow s g volt then acirClip g (setOverload volt g s) else s

/-- V_F, a code of the force monitor, lies above VCOMPLY or below VFLOOR (R89). -/
def beyondLimit (s : Device) (g vf : Nat) (upper : Bool) : Bool :=
  if upper then decide (10 * s.cget g CH_COMPLY_VCOMPLY < 6 * vf) else decide (6 * vf < 10 * s.cget g CH_COMPLY_VFLOOR)

/-- The pulse of GH_nn or of GL_nn that is in progress ends now (R89): the period's later edges follow. -/
def endPulse (upper : Bool) (t : Nat) (l : Loop) : List Nat :=
  match l.edges with
  | [a, b, c, d] =>
    if upper then (if b ≤ t ∧ t < c then [a, b, t, t + (d - c)] else l.edges)
    else if d ≤ t then [a, b, c, d, t] else l.edges
  | e => e

/-- The compliance clamp engages on a switching channel whose force node is beyond the limit (R89). -/
def clampEngage (upper : Bool) (g : Nat) (s : Device) : Device :=
  if (s.ch g).lp.gl && beyondLimit s g (s.cget g CH_VFORCE) upper then
    (s.modLp g fun l => { l with
      clamp := if upper then 1 else 2, clampOk := 0, cmd := if upper then min l.cmd 0 else max l.cmd 0
      edges := endPulse upper (32 * periodTick s g) l }).cset g CH_STAT_LOOP 3
  else s

/-- A latched protection: the bit, then the stop (R86, R92, R96). -/
def protTrip (bit g : Nat) (s : Device) : Device :=
  if (s.die (g / 8)).up then stopChannel g (setChFault bit g s) else s

/-- A W1C of CH_FAULT: RVP stays while the reversal is present (R95), and a bit set on the same clock stays (R417). -/
def faultClear (g : Nat) (data : Word) (s : Device) : Device :=
  let m := (data &&& 0x71F#32 &&& ~~~ s.freshBits (chAddr g 2)).toNat
  clearChFault (if rvpAbsent s g then m else m &&& 0x71B) g s

/-! Commands. -/

/-- COMPLIANCE_CLAMP. -/
def execComplianceClamp (g : Ch) (upper : Bool) (s : State) : Host.Outcome State Fault Refusal :=
  onDie (g.val / 8) s (clampEngage upper g)
/-- OCP_TRIP: the comparator watches the shunt itself, in either range (R93). -/
def execOcpTrip (g : Ch) (s : State) : Host.Outcome State Fault Refusal := onDie (g.val / 8) s (protTrip 0 g)
/-- OVP_TRIP. -/
def execOvpTrip (g : Ch) (s : State) : Host.Outcome State Fault Refusal := onDie (g.val / 8) s (protTrip 1 g)
/-- RVP_TRIP. -/
def execRvpTrip (g : Ch) (s : State) : Host.Outcome State Fault Refusal := onDie (g.val / 8) s (protTrip 2 g)
/-- HSTOP. -/
def execHstop (g : Ch) (s : State) : Host.Outcome State Fault Refusal := onDie (g.val / 8) s (protTrip 4 g)
/-- PWM_WRITE. -/
def execPwmWrite (g : Ch) (dt : Bool) (data : Word) (s : State) : Host.Outcome State Fault Refusal :=
  onDie (g.val / 8) s (pwmWrite g dt data)
/-- SETPOINT_WRITE. -/
def execSetpointWrite (g : Ch) (r : SetReg) (data : Word) (s : State) : Host.Outcome State Fault Refusal :=
  onDie (g.val / 8) s (setpointWrite g r data)
/-- OVERRIDE_CHANGE: a write of CH_CTL. -/
def execOverrideChange (g : Ch) (data : Word) (s : State) : Host.Outcome State Fault Refusal :=
  onDie (g.val / 8) s (overrideChange g data)
/-- RANGE_SEL_WRITE. -/
def execRangeSelWrite (g : Ch) (low : Bool) (s : State) : Host.Outcome State Fault Refusal :=
  onDie (g.val / 8) s (rangeSelWrite g low)
/-- UPRANGE. -/
def execUprange (g : Ch) (s : State) : Host.Outcome State Fault Refusal := onDie (g.val / 8) s (uprange g)
/-- OVERLOAD_DETECT. -/
def execOverloadDetect (g : Ch) (volt : Bool) (s : State) : Host.Outcome State Fault Refusal :=
  onDie (g.val / 8) s (overload volt g)

end Sys2Proof.Machine
end

