-- ==== Sys2Proof/Machine/LoopPeriod.lean ====
section
/-! DEFINITION. The control loops of one switching period (R70, R73, R77 to R80, R85, R163) and the fast sample with
the contact criteria (R89, R90, R109), and the commands SWITCHING_PERIOD and FAST_SAMPLE. -/

namespace Sys2Proof.Machine

/-! The switching period. -/

/-- What the loop computation of a period yields (R77). -/
structure LoopOut where
  tgt : Int
  cmd : Int
  iint : Int
  vint : Int
  ton : Nat
  sat : Bool
  ilim : Bool             -- req or vout is clamped
  volt : Bool             -- the voltage loop is in control
  env : Int
  clip : Bool             -- cmd + exc was clamped (R163)
  deriving DecidableEq, Repr

/-- An integrator of 40 bits with 16 fractional bits; beyond its range its value is not given. -/
def integ (free : Nat) (x : Int) : Int := within 40 free x

/-- req before its clamp (R77): the current setpoint, or the power conversion with its trim. Its rounding is open. -/
def loopReq (s : Device) (g : Nat) (vM : Int) : Int :=
  let c := s.ch g
  if modeOf s g = 4 then
    let d := max vM 682667
    meanWith (Config.freeBit s.free) (psetW c.conv.kq c.conv.kv (psetOf s g) * 2 ^ 16 + c.lp.pTrim * d) (d.toNat * 2 ^ 16)
  else iWord c.conv.kq (isetOf s g)

/-- The computation of R77 with the excitation of R163, from the means of the period before. Under a ramp to REST or a
contact stop the target is zero (R85, R90); while the compliance clamp regulates, the command stays on its side and
TON and the current integrator take what the regulation asks, which the manual does not give (R89). Where ton_hi lies below
ton_lo the on-time is held at ton_hi (DESIGN CHOICE, notes/assumptions/61: R73 names no order of the two limits). -/
def loopCompute (iM vM : Int) (s : Device) (g : Nat) : LoopOut :=
  let c := s.ch g
  let l := c.lp
  let n := s.free
  let lim := ilimOf s g
  let mode := modeOf s g
  let req0 := loopReq s g vM
  let req := clampInt (-lim) lim req0
  let vmode := mode = 2 ∨ mode = 3
  let ev := vsetW c.conv.kv (vsetOf s g) (s.frc (chAddr g 0x46)).toInt - vM
  let kp := coefMul (s.cget g CH_VKP_MANT) (s.cget g CH_VKP_SHIFT) ev
  let ki := coefMul (s.cget g CH_VKI_MANT) (s.cget g CH_VKI_SHIFT) ev
  let v0 := meanWith (Config.freeBit (n + 1)) (l.vint + kp) (2 ^ 16)
  let vout := clampInt (-lim) lim v0
  let quiet := l.toRest || l.ctStop
  let tgt := if quiet then 0
    else if mode = 2 then vout
    else if mode = 3 then (if 0 ≤ req then min req vout else max req vout)
    else req
  let inV := decide vmode && !quiet && tgt == vout
  let vint := if decide vmode && !quiet then
      integ (n + 2) (if tgt = vout ∧ vout = v0 then l.vint + ki else tgt * 2 ^ 16 - kp)
    else l.vint
  let slew : Int := s.cget g CH_SLEW
  let cmd0 := if slew = 0 then tgt else l.cmd + clampInt (-slew) slew (tgt - l.cmd)
  let cmd := if l.clamp = 1 then min cmd0 0 else if l.clamp = 2 then max cmd0 0 else cmd0
  let env := envStep (s.cget g CH_SLEW) c.acir.env c.acir.envTgt
  let exc := acirExc s g env
  let cmdX := clampInt (-lim) lim (cmd + exc)
  let ei := (if env = 0 then cmd else cmdX) - iM
  let low := chLow s g
  let lo := tonLo s g
  let hi := tonHi s g
  let u := feedForward s g vM +
    meanWith (Config.freeBit (n + 3)) (coefMulQ low (s.cget g CH_IKP_MANT) (s.cget g CH_IKP_SHIFT) ei + l.iint) (2 ^ 16)
  let ton := clampInt lo hi u
  let iint := if u = ton ∨ ei.sign ≠ (u - ton).sign then
      integ (n + 4) (l.iint + coefMulQ low (s.cget g CH_IKI_MANT) (s.cget g CH_IKI_SHIFT) ei)
    else l.iint
  if l.clamp ≠ 0 then
    { tgt := tgt, cmd := cmd, iint := signedOf 40 (fieldOf 40 (Config.freeInt (n + 5))), vint := vint
      ton := (clampInt lo hi (Config.freeInt (n + 6))).toNat, sat := false
      ilim := decide (req ≠ req0) || (decide vmode && decide (vout ≠ v0)), volt := false, env := env
      clip := decide (env ≠ 0) && decide (cmdX ≠ cmd + exc) }
  else
    { tgt := tgt, cmd := cmd, iint := iint, vint := vint, ton := if u < lo then 0 else ton.toNat, sat := decide (hi < u)
      ilim := decide (req ≠ req0) || (decide vmode && decide (vout ≠ v0)), volt := inV, env := env
      clip := decide (env ≠ 0) && decide (cmdX ≠ cmd + exc) }

/-- The means of the fast words completed since the last period start; the words shown where none was (R77). -/
def loopMeans (s : Device) (g : Nat) : Int × Int :=
  let l := (s.ch g).lp
  if l.nFast = 0 then (iFast s g, vFast s g)
  else (meanWith (Config.freeBit (s.free + 7)) l.sumI l.nFast, meanWith (Config.freeBit (s.free + 8)) l.sumV l.nFast)

/-- The edges of a period that is not skipped, in 1/32 tick after its start: GL falls, GH rises, GH falls, GL rises (R72). -/
def periodEdges (s : Device) (g ton : Nat) : List Nat :=
  let lh := s.cfrc g CH_DT_LH
  [0, lh, lh + ton, lh + ton + s.cfrc g CH_DT_HL]

/-- The period's share of CH_STAT and CH_DUTY: the on-time computed one period before comes into force, or the period
is skipped for the bootstrap or for an on-time below ton_lo (R70, R73, R87). -/
def periodStart (bootLow : Bool) (g : Nat) (s : Device) : Device :=
  let l := (s.ch g).lp
  let s := if bootLow then setChFault 8 g s else s
  let skip := bootLow || l.ton == 0
  let s := (s.cset g CH_DUTY (if skip then 0 else l.ton)).cset g CH_STAT_SKIP (if skip then 1 else 0)
  let s := s.modLp g fun l => { l with edges := if skip then [] else periodEdges s g l.ton }
  let s := s.cset g CH_STAT_SAT (if l.satNext && !bootLow then 1 else 0)
  if skip || l.satNext then acirClip g s else s

/-- I_TAPER is armed by what happens in a running step: in CCCV by CV_EVT's setting, in any other mode by SLEWING's
clearing (R234). -/
def armTaper (cv still : Bool) (g : Nat) (s : Device) : Device :=
  let cccv := decide (curType s g = 4)
  if engState s g = EngSt.running ∧ (if cccv then cv else still) = true then s.modEng g fun e => { e with armed := true } else s

/-- Store what a period computed. -/
def periodStore (iM : Int) (o : LoopOut) (g : Nat) (s : Device) : Device :=
  let seen := (s.ch g).lp.cvSeen
  let enters := o.volt && modeOf s g == 3 && !seen
  let loop := if (s.ch g).lp.clamp ≠ 0 then 3 else if o.volt then 2 else 1
  let s := s.modLp g fun l => { l with
    iM := iM, tgt := o.tgt, cmd := o.cmd, iint := o.iint, vint := o.vint, ton := o.ton, satNext := o.sat
    cvSeen := o.volt && modeOf s g == 3, sumI := 0, sumV := 0, nFast := 0 }
  let s := s.modAcir g fun a => { a with env := o.env, clipNow := o.clip }
  let s := if o.clip then acirClip g s else s
  let s := ((s.cset g CH_STAT_LOOP loop).cset g CH_STAT_ILIM_ACT (if o.ilim then 1 else 0)).cset g CH_STAT_SLEWING
    (if o.cmd = o.tgt then 0 else 1)
  let s := if enters then s.cset g CH_STAT_CV_EVT 1 else s
  let s := armTaper enters (decide (o.cmd = o.tgt)) g s
  s.spend 9

/-- The channel was stopped on the present clock (R97). -/
def stoppedNow (s : Device) (g : Nat) : Bool := !(s.ch g).lp.gl && decide ((s.ch g).lp.stopAt = some s.now)

/-- BUS_OV stops a switching channel that discharges, and shows on one that another cause stops on the same clock (R92, R97). -/
def busOvCh (g : Nat) (s : Device) : Device :=
  let l := (s.ch g).lp
  if (l.gl = true ∨ stoppedNow s g = true) ∧ l.iM < 0 then
    (stopChannel g (setChFault 10 g s)).modLp g fun l => { l with busOvHeld := true }
  else s

/-- One switching period of a switching channel, at the first clock at or after its start (R70, R72, R77, R85, R90); a
channel whose gates are low has none. -/
def loopPeriod (bootLow : Bool) (g : Nat) (s : Device) : Device :=
  let l := (s.ch g).lp
  if !l.gl || !periodDue s g then s
  else
    let s := s.modLp g fun l => { l with perAt := some (s.die (g / 8)).tick }
    if l.toRest ∧ l.cmd = 0 ∧ l.iM.natAbs < 32768 then gatesOff g (acirStopped g s)
    else
      let s := periodStart bootLow g s
      let (iM, vM) := loopMeans s g
      if l.ctStop ∧ iM.natAbs < 32768 then stopChannel g (s.modLp g fun l => { l with iM := iM })
      else
        let s := periodStore iM (loopCompute iM vM s g) g s
        -- while VBUS is above the limit, a channel that begins to discharge stops too
        if (s.die (g / 8)).busOvNow then busOvCh g s else s

/-- The CP trim of a frame boundary (R78): PKI × (pset − P_prec) with P_prec the product of the precise words. The
coefficient counts in product units times 2^23. While CP_TRIM_EN is 0, and while the channel does not switch, the trim
stands still and what it has come to stays in req (DESIGN CHOICE, notes/assumptions/61: R78 says only 'suspended'). -/
def trimBoundary (g : Nat) (s : Device) : Device :=
  let c := s.ch g
  if c.lp.gl && modeOf s g == 4 && s.cbit g CH_LOOPCFG_CP_TRIM_EN then
    let e := psetW c.conv.kq c.conv.kv (psetOf s g) - c.di.prec * c.dv.prec
    let step := s.cget g CH_PKI_MANT * e * 2 ^ 16 / 2 ^ (s.cget g CH_PKI_SHIFT + 23)
    let lim := ilimOf s g * 2 ^ 16 / 16
    s.modLp g fun l => { l with pTrim := clampInt (-lim) lim (l.pTrim + step) }
  else s

/-- The loop quantities at a range change: by 4 from H to L, by 1/4 with floor from L to H (R80). iset_w and ilim_w follow
from the constants of the new range, which R76 brings into force at the same boundary (DESIGN CHOICE, notes/assumptions/61:
both rules apply there). -/
def rescaleLoop (low : Bool) (g : Nat) (s : Device) : Device :=
  let f (x : Int) : Int := if low then 4 * x else x / 4
  s.modLp g fun l => { l with cmd := f l.cmd, pTrim := f l.pTrim, vint := f l.vint, tgt := f l.tgt }

/-! The fast sample. -/

/-- Criterion 1 (R90): |V_F − V_K − I × RLEAD| beyond CT_DISC, with a force code of 6 mV units; exact. -/
def ctDisc (s : Device) (g vf : Nat) : Bool :=
  let k := (s.ch g).conv
  let dv : Int := (2 ^ k.kv.sh : Nat)
  let di : Int := (2 ^ (22 + k.kq.sh) : Nat)
  -- µV, all over the common denominator dv·di·1000
  let f : Int := 6000 * vf * (dv * di * 1000)
  let kelvin : Int := vFast s g * k.kv.mant * (di * 1000)
  let drop : Int := iWordMaNum k.kq (iFast s g) * s.cget g CH_CONTACT_RLEAD * dv
  decide ((s.cget g CH_CT_LIM_CT_DISC * 10000 : Int) * (dv * di * 1000) < (f - kelvin - drop).natAbs)

/-- Criterion 2 (R90): the current has collapsed and V_F has moved in the sign of cmd. -/
def ctCollapse (s : Device) (g vf : Nat) (cmd : Int) : Bool :=
  let l := (s.ch g).lp
  let k := (s.ch g).conv.kq
  decide (s.cget g CH_CT_LIM_CT_IMIN * 10 * 2 ^ (22 + k.sh) ≤ (iWordMaNum k cmd).natAbs) &&
  decide (4 * l.iM.natAbs < cmd.natAbs) &&
  l.vfHist.any fun p =>
    decide ((s.cget g CH_CT_LIM_CT_DV * 10 : Int) < 6 * (if 0 ≤ cmd then (vf : Int) - p else (p : Int) - vf))

/-- V_F lies inside the limits with the margin of R89. -/
def clampInside (s : Device) (g vf : Nat) : Bool :=
  decide (s.cget g CH_COMPLY_VFLOOR * 10 + 50 ≤ 6 * vf ∧ 6 * vf + 50 ≤ s.cget g CH_COMPLY_VCOMPLY * 10)

/-- The compliance clamp at a fast sample (R89): it engages when V_F lies beyond a limit, and releases after 8 samples
inside the limits, but not under a contact stop (R90). -/
def clampSample (g vf : Nat) (s : Device) : Device :=
  let l := (s.ch g).lp
  if l.gl && beyondLimit s g vf true then clampEngage true g s
  else if l.gl && beyondLimit s g vf false then clampEngage false g s
  else if l.clamp = 0 ∨ l.ctStop = true then s
  else if !clampInside s g vf then s.modLp g fun l => { l with clampOk := 0 }
  else if l.clampOk + 1 < 8 then s.modLp g fun l => { l with clampOk := l.clampOk + 1 }
  else (s.modLp g fun l => { l with clamp := 0, clampOk := 0, ct3 := 0 }).cset g CH_STAT_LOOP 1

/-- A contact fault is declared (R90): the bit; a channel that switches heads for its stop; a step in hand is to end. -/
def contactFault (g : Nat) (s : Device) : Device :=
  let s := setChFault 3 g s
  let e := engState s g
  let s := if 1 ≤ e ∧ e ≤ 5 then s.modDue g fun x => { x with contact := true } else s
  s.modLp g fun l => { l with ctStop := l.gl, cmd := if l.clamp = 0 then 0 else l.cmd }

/-- The contact criteria of one fast sample, whatever the mode (R90, R92): a channel at rest has no command and no clamp, so
criterion 1 alone can hold there; one that was stopped on this clock is judged by what stood before the stop (R97). -/
def contactSample (g vf : Nat) (s : Device) : Device :=
  let l := (s.ch g).lp
  if l.ctStop then s
  else if 0 < l.blank then s.modLp g fun l => { l with blank := l.blank - 1 }
  else
    let was := stoppedNow s g
    let n1 := if ctDisc s g vf then l.ct1 + 1 else 0
    let n3 := if (if was then l.wasClamp else l.clamp) ≠ 0 then l.ct3 + 1 else 0
    let c2 := ctCollapse s g vf (if was then l.wasCmd else l.cmd)
    let s := s.modLp g fun l => { l with ct1 := n1, ct3 := n3, vfHist := (vf :: l.vfHist).take 7 }
    let need := s.cget g CH_CONTACT_CT_N
    if need ≤ n1 ∨ need ≤ n3 ∨ c2 = true then contactFault g s else s

/-- An overload that lasts clips an open window (R180). -/
def overloadClip (g : Nat) (s : Device) : Device := if overloadNow s g false || overloadNow s g true then acirClip g s else s

/-- One channel's fast sample: its words, the force monitor, an open ACIR window, then the clamp before the contact
decision (R89, R90, R97, R109, R170). -/
def fastOne (bq : Int × Int) (vf : List Nat) (g : Nat) (s : Device) : Device :=
  let v := nth vf g % 1024
  let s := (fastChannel bq g s).cset g CH_VFORCE v
  contactSample g v (clampSample g v (overloadClip g (acirSample g s)))

/-- The fast sample of a die whose main domain is up, once for each window, 4 clocks after its last clock (R109). -/
def fastDie (vf : List Nat) (d : Nat) (s : Device) : Device :=
  if (s.die d).up && (s.die d).fastDue && s.clk % 16 == 3 then
    let (bq, s) := benchFast d (s.modDie d fun x => { x with fastDue := false })
    (benchHold bq.2 d s).each (chansOf d) (fastOne bq vf)
  else s

/-- FAST_SAMPLE: the words of the 16-clock window that ended 4 clocks ago, on every die (R109, R5). -/
def fastSample (vf : List Nat) (s : Device) : Device := s.each s.dieList (fastDie vf)

/-! Commands. -/

/-- SWITCHING_PERIOD. -/
def execSwitchingPeriod (g : Ch) (bootLow : Bool) (s : State) : Host.Outcome State Fault Refusal :=
  onDie (g.val / 8) s (loopPeriod bootLow g)
/-- FAST_SAMPLE. -/
def execFastSample (vf : List Nat) (s : State) : Host.Outcome State Fault Refusal := onDev s (fastSample vf)

end Sys2Proof.Machine
end

