-- ==== Sys2Proof/Machine/StepEng.lean ====
section
/-! DEFINITION. The step engine (R226 to R253): starts, ends, suspensions, pauses, fault hold, re-seats, control steps,
terminations and the channel's share of a frame boundary in the order of R239, and the commands STEP_START,
RESEAT_OFF_EXPIRY, RESEAT_SETTLE_EXPIRY, PULSE_LEVEL_CHANGE, PULSE_CAPTURE, OCV_SAMPLE, SEQ_START, SEQ_HALT,
SEQ_RELEASE, SEQ_SKIP, SEQ_ABORT and TRACE_RD_WRITE. -/

namespace Sys2Proof.Machine

/-! End codes of R241. -/
namespace EndCode
def done : Nat := 0x10
def contactLost : Nat := 0x20
def hostSkip : Nat := 0x21
def hostAbort : Nat := 0x22
def suspended : Nat := 0x23
def acirRefused : Nat := 0x24
def runaway : Nat := 0x25
def loopDepth : Nat := 0x26
def resumeAbort : Nat := 0x27
def reseatFail : Nat := 0x28
end EndCode

/-- A channel's counters as a checkpoint carries them: each bank with its open epoch converted in (R145, R376). -/
def markAcc (c : Chan) : Acc :=
  let q := c.acc.exactQ c.conv.kq
  let e := c.acc.exactE c.conv.ke
  { c.acc with bqIn := q.1, bqOut := q.2.1, bqNet := q.2.2, beIn := e.1, beOut := e.2.1, beNet := e.2.2
               epqIn := 0, epqOut := 0, epeIn := 0, epeOut := 0 }

/-- The exact net charge of a channel in 2^-32 nAh (R145). -/
def netQ (s : Device) (g : Nat) : Int := ((s.ch g).acc.exactQ (s.ch g).conv.kq).2.2
/-- The exact net energy in 2^-32 nWh. -/
def netE (s : Device) (g : Nat) : Int := ((s.ch g).acc.exactE (s.ch g).conv.ke).2.2
/-- floor(X / 1,000) in µAh (R237). -/
def recQ (s : Device) (g : Nat) : Int := netQ s g / (1000 * 2 ^ 32)
/-- floor(X / 10,000) in 10 µWh (R237). -/
def recE (s : Device) (g : Nat) : Int := netE s g / (10000 * 2 ^ 32)

/-- ΔQ of the terms (R232); 0 until the base is taken. -/
def termDQ (s : Device) (g : Nat) : Int := if (s.ch g).eng.basesDue then 0 else netQ s g - (s.ch g).eng.termQ
/-- ΔE of the terms. -/
def termDE (s : Device) (g : Nat) : Int := if (s.ch g).eng.basesDue then 0 else netE s g - (s.ch g).eng.termE

/-- The slope as the difference of two one-second sums ten seconds apart; none until both exist (R233). -/
def slopeOf (e : Eng) : Option Int :=
  match e.means[0]?, e.means[10]? with
  | some a, some b => some (a - b)
  | _, _ => none

/-- CH_STEP_TIME from the frames run: frames × 0.25 ms, truncated (R238). -/
def putTime (g : Nat) (s : Device) : Device :=
  (s.setReg (chAddr g 0x05) (BitVec.ofNat 32 ((s.ch g).eng.frames / 4))).setReg (chAddr g 0x6D)
    (BitVec.ofNat 32 ((s.ch g).eng.suspFrames / 4))

/-- A map of 64 channels in two words. -/
def setMap (lo hi : Fld .pkg) (g : Nat) (on : Bool) (s : Device) : Device :=
  if g < 32 then s.psetBit lo g on else s.psetBit hi (g - 32) on

/-- The channel is neither paused by the budget nor waiting after a refusal (R262, R269). -/
def clearMaps (g : Nat) (s : Device) : Device :=
  setMap BUS_PAUSE_MAP_0 BUS_PAUSE_MAP_1 g false (setMap BUS_QUEUE_MAP_0 BUS_QUEUE_MAP_1 g false s)

/-- The channel gives its lease back, to be reported at the next frame boundary; the lead die counts it until the
freeze point after that (R256). -/
def leaseRelease (g : Nat) (s : Device) : Device :=
  (((clearMaps g s).cset g CH_LEASE_LSTATE 0).cset g CH_LEASE_DEMAND 0).modLease g fun l => { l with decision := 0 }

/-- The channel waits for a lease, in the paused class or not (R236, R262). -/
def leaseWait (paused : Bool) (g : Nat) (s : Device) : Device :=
  ((clearMaps g s).cset g CH_LEASE_LSTATE (if paused then 5 else 2)).modLease g fun l => { l with decision := 0 }

/-- The run of term counts starts again (R232). -/
def clearCounts (g : Nat) (s : Device) : Device :=
  s.modEng g fun e => { e with termCnt := [0, 0, 0, 0], blank := 64, means := [], meanSum := 0, meanN := 0 }

/-- Write the setpoints of the current step, reduced by the band in force (R230, R242). -/
def writeSetpoints (g : Nat) (s : Device) : Device :=
  match curStep s g with
  | none => s
  | some r =>
    let f := bandFrac s g
    engSetpoints (reduceBy f (stepIset r (s.ch g).eng.level2)) (bandVset s g (stepVset r)) (reduceBy f (stepPset r)) g s

/-! Ends. -/

/-- A STEP_END record (R251). -/
def stepEndRecord (code slot g : Nat) (s : Device) : Device :=
  let e := (s.ch g).eng
  let b (x : Bool) (k : Nat) : Nat := if x then 2 ^ k else 0
  traceWrite 1 g ([BitVec.ofNat 8 (s.cget g CH_STEP_RECIPE + slot * 16), BitVec.ofNat 8 (s.cget g CH_STEP_STEP),
    BitVec.ofNat 8 code,
    BitVec.ofNat 8 (s.cget g CH_STEP_RETRY + b e.fSusp 4 + b e.fPause 5 + b (e.fOvr || s.cbit g CH_CTL_OVR) 6 + b e.fResumed 7)] ++
    leBytes 4 (e.frames / 4) ++ leBytes 4 (fieldOf 32 (recQ s g - e.baseQ)) ++ leBytes 4 (fieldOf 32 (recE s g - e.baseE)) ++
    leBytes 2 (fieldOf 16 (vPrec s g / 1000)) ++ leBytes 2 (s.cget g CH_NTC_TEMP)) s

/-- A step's end requests a checkpoint unless NOCKPT is set (R250). -/
def endCkpt (g : Nat) (s : Device) : Device :=
  match curStep s g with
  | some r => if r.noCkpt then s else ckptRequest 1 s
  | none => s

/-- What every end of a step leaves: the record, the end code, the event bit and a checkpoint request (R232, R250). -/
def markEnd (code slot g : Nat) (s : Device) : Device :=
  let s := stepEndRecord code slot g s
  endCkpt g (((s.cset g CH_STEP_LAST_TERM code).cset g CH_STEP_LAST_SLOT slot).cset g CH_STAT_STEP_EVT 1)

/-- A step ends: what later conditions see of it, and the base of the next record (R232, R237). A host's window accepted in
it aborts with code 2 (R182). -/
def endStep (code slot g : Nat) (s : Device) : Device :=
  let s := acirStepEnd g (markEnd code slot g s)
  let t := curType s g
  let sa := markAcc (s.ch g)
  let dq := termDQ s g
  let de := termDE s g
  let bq := recQ s g
  let be := recE s g
  s.modEng g fun e => { e with
    lastT := e.frames, lastQ := dq, lastE := de, lastSlope := slopeOf e, lastAny := true, prevNeed := needsCurrent t
    baseQ := bq, baseE := be, stepAcc := sa, acirDue := none, acirEnd := 0, acirAgain := false, acirRetry := false, fResumed := false }

/-- A recipe ends (R240): PASS or FAIL, ENDED in REST, an EVENT record of event 11. -/
def recipeEnd (pass : Bool) (cause g : Nat) (s : Device) : Device :=
  let s := traceEvent 11 cause (if pass then 1 else 2) g s
  let s := (s.cset g (if pass then CH_STAT_PASS else CH_STAT_FAIL) 1).cset g CH_STAT_END_EVT 1
  let s := leaseRelease g (engMode 0 g (setEng EngSt.ended g s))
  (s.cset g CH_STAT_SUSP_CAUSE 0).modEng g fun e => { e with seat := .none, resumeEv := 0, interrupted := false }

/-! Starts. -/

/-- Suspend the step (R244): cause 1 cold, 2 hot or sensor, 3 VDRV. -/
def suspendStep (cause g : Nat) (s : Device) : Device :=
  let s := engMode 0 g (acirAbort 1 g s)
  let s := traceEvent 1 cause 0 g (setEng EngSt.suspended g (s.cset g CH_STAT_SUSP_CAUSE cause))
  clearCounts g ((leaseRelease g s).modEng g fun e => { e with fSusp := true })

/-- The suspension the band in force asks for; 0 none. -/
def bandCause (s : Device) (g : Nat) : Nat :=
  match s.cget g CH_NTC_BAND with
  | 0 => 1
  | 4 => 2
  | _ => 0

/-- A window of the step itself is accepted, open or held, or is still to be requested, or the series is over. -/
def acirUnderWay (s : Device) (g : Nat) : Bool :=
  let a := (s.ch g).acir
  a.par.step && decide (a.par.m ≠ 0 ∧ acirState s g < 3) || (match a.held with | some p => p.step | none => false) ||
    (s.ch g).eng.acirDue.isSome || (s.ch g).eng.acirEnd != 0

/-- What a step does first at its start or resumption: an ACIR step requests its first window, a resumed one the window it
has not got (R247), a PULSE step drives level 1 from its start (R248, R266). -/
def stepBegin (fresh : Bool) (g : Nat) (s : Device) : Device :=
  match curStep s g with
  | none => s
  | some r =>
    if r.typ = 9 then
      if !fresh && acirUnderWay s g then s else acirRequest (stepAcirPar r (slotOf s g)) g s
    else if r.typ = 10 then writeSetpoints g (s.modEng g fun e => { e with
        startAt := s.now, level2 := false, caps := [], capMask := 0 })
    else s

/-- A step that needs current starts or resumes under its lease (R236); a band or VDRV that forbids it suspends it. DESIGN CHOICE
(notes/assumptions/63): the data of the resume event are CH_SUSP_TIME, the step's total, where R251 could also mean the suspension
just over. -/
def runStep (whole : Bool) (g : Nat) (s : Device) : Device :=
  if bandCause s g ≠ 0 then suspendStep (bandCause s g) g s
  else if (s.die (g / 8)).vdrvBad then suspendStep 3 g s
  else
    let ev := (s.ch g).eng.resumeEv
    let fresh := (s.ch g).eng.restart
    let s := if ev = 2 then traceEvent 2 0 ((s.ch g).eng.suspFrames / 4) g s
      else if ev = 4 then traceEvent 4 (s.ch g).eng.pauseCause 0 g s else s
    let s := setEng EngSt.running g (s.cset g CH_STAT_SUSP_CAUSE 0)
    let s := if fresh then s.cset g CH_STAT_CV_EVT 0 else s
    let nq := netQ s g
    let ne := netE s g
    let s := s.modEng g fun e => { e with
      ranWhole := whole, resumeEv := 0, restart := false, startAt := if fresh then s.now else e.startAt
      armed := if fresh then false else e.armed
      basesDue := if fresh then !whole else e.basesDue, termQ := if fresh && whole then nq else e.termQ
      termE := if fresh && whole then ne else e.termE
      cyc := ptOf s (g / 8) / 2 ^ 32, cycN := 0, mV := none }
    let s := s.modLp g fun l => { l with cvSeen := false }
    let s := contactBlank g (clearCounts g s)
    let m := stepMode (curType s g)
    let s := engMode m g s
    let s := if m = 0 ∧ s.cbit g CH_CTL_OVR = false then s else followMode g s
    stepBegin fresh g s

/-- A step asks to start or to resume (R236): a REST or OCV_HOLD step does so at the frame boundary, this one or the next, a step
that needs current waits for its slot and a lease. -/
def requestRun (paused : Bool) (ev : Nat) (g : Nat) (s : Device) : Device :=
  let s := s.modEng g fun e => { e with resumeEv := ev }
  if needsCurrent (curType s g) then leaseWait paused g (engMode 0 g (setEng EngSt.wait g s))
  else if s.clk = 0 then runStep true g (leaseRelease g s)
  else leaseRelease g (engMode 0 g (setEng EngSt.wait g s))

/-- The lease inherited from the step before covers the new demand (R236, R264); a die that holds over starts nothing
that needs a grant (R440). -/
def seamlessCovers (s : Device) (g : Nat) : Bool :=
  let dem := demandOf s g
  let old := (s.ch g).lease.reported
  !(s.die (g / 8)).link.upSilent && leaseHeld s g && (s.ch g).eng.prevNeed && decide (dem ≤ old) && decide (0 ≤ dem ↔ 0 ≤ old)

/-- The band at a start or a resumption: taken at once where the step's set was not applied at the previous boundary (R242). -/
def bandApply (g : Nat) (s : Device) : Device :=
  if bandSet s g = 0 ∨ bandSet s g ≠ (s.ch g).eng.set then bandFresh g s else s

/-- The start of a step is requested (R230, R236). -/
def startRequest (i : Nat) (r : StepRec) (g : Nat) (s : Device) : Device :=
  let s := ((s.cset g CH_STEP_STEP i).cset g CH_STEP_RETRY 0).cset g CH_STAT_SUSP_CAUSE 0
  let s := setEng EngSt.wait g s
  let s := s.modEng g fun e => { e with
    frames := 0, suspFrames := 0, termCnt := [0, 0, 0, 0], armed := false, fSusp := false, fPause := false, fOvr := false
    level2 := false, caps := [], capMask := 0, ocvK := 0, acirDone := 0, acirAgain := false, acirRetry := false, acirEnd := 0, acirDue := none
    seat := .none, restart := true, mV := none, basesDue := true, resumeEv := 0, interrupted := false }
  let s := writeSetpoints g (engRange (r.range == 1) g (bandApply g (putTime g s)))
  if r.seamless && needsCurrent r.typ && seamlessCovers s g then
    runStep true g (s.cset g CH_LEASE_LSTATE (if isBurst r.typ then 4 else 1))
  else requestRun false 0 g s

/-! Control steps (R240). -/

/-- The kind of a term word (R231). -/
def termKind (w : Nat) : Nat := w / 2 ^ 27 % 32
/-- Its action: 0 next step, 1 jump, 2 pass, 3 fail. -/
def termAction (w : Nat) : Nat := w / 2 ^ 25 % 4
/-- Its value. -/
def termValue (w : Nat) : Nat := w % 2 ^ 24
/-- Its value read as signed. -/
def termSigned (w : Nat) : Int := signedOf 24 (w % 2 ^ 24)

/-- A charge or energy condition: at or beyond the value in its own direction (R232). DESIGN CHOICE (notes/assumptions/63): R232
says 'not 0' and R229 does not reject a VALUE of 0; the model accepts it and matches while the change is at or below 0. -/
def reached (delta value unit : Int) : Bool :=
  if 0 < value then decide (value * unit ≤ delta) else decide (delta ≤ value * unit)

/-- The NTC value is there to compare (R232). -/
def ntcValid (s : Device) (g : Nat) : Bool :=
  s.cbit g CH_NTC_CFG_EN && !s.cbit g CH_NTC_OPEN && !s.cbit g CH_NTC_SHORT && !s.dbit (g / 8) BENCH_STAT_SAR_FAIL

/-- The comparison of kinds 4 to 6, 9 and 10 with given voltage sum, current sum and number of words. -/
def wordCond (s : Device) (g : Nat) (v i : Int) (n : Nat) (w : Nat) : Bool :=
  match termKind w with
  | 4 => decide ((termValue w * 10 * n : Nat) ≤ v)
  | 5 => decide (v ≤ (termValue w * 10 * n : Nat))
  | 6 => decide (i.natAbs ≤ termValue w * 1000 * n)
  | 9 => ntcValid s g && decide (termSigned w ≤ signedOf 16 (s.cget g CH_NTC_TEMP))
  | 10 => ntcValid s g && decide (signedOf 16 (s.cget g CH_NTC_TEMP) ≤ termSigned w)
  | _ => false

/-- A slope condition; the slope is a difference of 4,000-word sums over 10 s (R233). -/
def slopeCond (sl : Option Int) (w : Nat) : Bool :=
  match sl with
  | none => false
  | some x => if termKind w = 7 then decide (termSigned w * 40000 ≤ x) else decide (x ≤ termSigned w * 40000)

/-- The condition of a GOTO_IF (R232). -/
def gotoCond (s : Device) (g w : Nat) : Bool :=
  let e := (s.ch g).eng
  match termKind w with
  | 1 => decide (termValue w * 400 ≤ (if e.lastAny then e.lastT else 0))
  | 2 => reached (if e.lastAny then e.lastQ else 0) (termSigned w) (10 ^ 5 * 2 ^ 32)
  | 3 => reached (if e.lastAny then e.lastE else 0) (termSigned w) (10 ^ 6 * 2 ^ 32)
  | 7 => e.lastAny && slopeCond e.lastSlope w
  | 8 => e.lastAny && slopeCond e.lastSlope w
  | 11 => e.lastAny && s.cget g CH_STEP_LAST_TERM == EndCode.contactLost
  | 12 => e.lastAny && s.cget g CH_STEP_LAST_TERM == termValue w
  | 13 => true
  | _ => wordCond s g (vPrec s g) (iPrec s g) 1 w

/-- The count of an active loop counter. -/
def counterOf (l : List (Nat × Nat)) (i : Nat) : Option Nat := (l.find? fun p => p.1 == i).map (·.2)

/-- The recipe ends with a code of the control flow. -/
def controlFail (code g : Nat) (s : Device) : Device :=
  recipeEnd false code g ((s.cset g CH_STEP_LAST_TERM code).cset g CH_STEP_LAST_SLOT 0)

/-- The action of a term: the step to go to, or the recipe's end (R231, R240). -/
def takeAction (action code g : Nat) (s : Device) : Device × Option Nat :=
  match action with
  | 0 => (s, some (s.cget g CH_STEP_STEP + 1))
  | 1 => (s, some (match curStep s g with | some r => r.jump | none => s.cget g CH_STEP_STEP + 1))
  | 2 => (recipeEnd true code g s, none)
  | _ => (recipeEnd false code g s, none)

/-- A step that a band has suspended ends there when it carries SUSP_END (R244). -/
def suspEnds (s : Device) (g : Nat) : Bool :=
  engState s g == EngSt.suspended && s.cget g CH_STAT_SUSP_CAUSE != 3 &&
    (match curStep s g with | some r => r.suspEnd | none => false)

/-- The engine goes to a step: control steps execute at once, `left` at most; the first other step's start is requested (R239
order 6, R240). One that starts seamlessly and finds its band forbidding it may end at this very boundary (R244). `fuel` bounds
the steps gone through. -/
def goTo : Nat → Nat → Nat → Nat → Device → Device
  | 0, _, _, _, s => s
  | fuel + 1, left, i, g, s =>
    match stepAt s g i with
    | none => recipeEnd false (s.cget g CH_STEP_LAST_TERM) g s
    | some r =>
      if r.typ = 0 ∨ r.typ = 0x0B ∨ r.typ = 0x0C then
        -- the seventeenth control step is not executed
        if left = 0 then controlFail EndCode.runaway g s
        else
          let s := s.cset g CH_STEP_STEP i
          if r.typ = 0 then recipeEnd (r.p1 == 1) 0 g s
          else if r.typ = 0x0C then goTo fuel (left - 1) (if gotoCond s g r.p1 then r.jump else i + 1) g s
          else
            let l := (s.ch g).eng.counters
            let c := counterOf l i
            if c.isNone ∧ 4 ≤ l.length then controlFail EndCode.loopDepth g s
            else
              let n := c.getD (r.p1 - 1)
              let rest := l.filter fun p => p.1 != i
              if 0 < n then goTo fuel (left - 1) r.jump g (s.modEng g fun e => { e with counters := (i, n - 1) :: rest })
              else goTo fuel (left - 1) (i + 1) g (s.modEng g fun e => { e with counters := rest })
      else
        let s := startRequest i r g s
        if suspEnds s g then
          let q := takeAction 0 EndCode.suspended g (endStep EndCode.suspended 0 g s)
          match q.2 with
          | some j => goTo fuel left j g q.1
          | none => q.1
        else s

/-- Go to a step with the sixteen control steps of a boundary: a second seamless start cannot follow the first. -/
def goStep (i g : Nat) (s : Device) : Device := goTo 20 16 i g s

/-- Start a recipe at step 0 (R249); without a loaded recipe, and in husk (R369), the channel stays as it is. -/
def startRecipe (g : Nat) (s : Device) : Device :=
  let id := s.cget g CH_SEQ_RECIPE
  match (s.die (g / 8)).recipes.find? fun r => r.id == id with
  | none => s
  | some r =>
    if chHusk s g then s else
    let s := ((s.cset g CH_STEP_RECIPE id).cset g CH_STEP_STEP 0)
    let s := (s.cset g CH_STAT_PASS 0).cset g CH_STAT_FAIL 0
    let bq := recQ s g
    let be := recE s g
    let sa := markAcc (s.ch g)
    let s := s.modEng g fun e => { e with
      counters := [], lastAny := false, baseQ := bq, baseE := be, stepAcc := sa, prevNeed := false, fResumed := false }
    goStep 0 g (traceEvent 10 0 r.tag.toNat g s)

/-! Faults and re-seat. -/

/-- FAULT_HOLD (R245). -/
def faultHold (g : Nat) (s : Device) : Device :=
  let s := traceEvent 5 (s.cget g CH_FAULT_FIRST) 0 g (setEng EngSt.faultHold g s)
  clearCounts g ((leaseRelease g (engMode 0 g s)).modEng g fun e => { e with seat := .none })

/-- The CONTACT term's action of the current step. -/
def contactAction (s : Device) (g : Nat) : Option Nat :=
  match curStep s g with
  | some r => ((r.terms.take r.nterm).find? fun w => termKind w == 11).map termAction
  | none => none

/-- The step ends for good after contact loss: its CONTACT term's action, else the recipe fails (R246). -/
def contactFinal (code g : Nat) (s : Device) : Device × Option Nat :=
  match contactAction s g with
  | some a => takeAction a code g s
  | none => (recipeEnd false code g s, none)

/-- A contact fault ends the step (R246): the record, then a re-seat while retries are left. DESIGN CHOICE (notes/assumptions/63):
a step with a CONTACT term that ends for good records CONTACT_LOST, or RESEAT_FAIL, with slot 0, where R241 could also be read to
ask for the term's kind and slot. -/
def contactEnd (g : Nat) (s : Device) : Device × Option Nat :=
  let s := s.modDue g fun x => { x with contact := false }
  let again := match curStep s g with
    | some r => decide (s.cget g CH_STEP_RETRY < r.retries) && s.cbit g CH_SEAT_EN
    | none => false
  if again then
    let s := acirStepEnd g (markEnd EndCode.contactLost 0 g s)
    let s := s.cset g CH_STEP_RETRY (s.cget g CH_STEP_RETRY + 1)
    let s := traceEvent 6 (s.cget g CH_STEP_RETRY) 0 g (setEng EngSt.reseat g s)
    let s := leaseRelease g (engMode 0 g s)
    (clearCounts g (s.modEng g fun e => { e with
      seat := .wantRelease, acirDue := none, acirRetry := false, acirEnd := 0, fResumed := false }), none)
  else contactFinal EndCode.contactLost g (endStep EndCode.contactLost 0 g s)

/-- A re-seat valve request was refused (R246); what follows is decided at the next boundary. -/
def reseatRefused (g : Nat) (s : Device) : Device :=
  if engState s g = EngSt.reseat then s.modEng g fun e => { e with seat := .none } else s

/-! Pauses and host commands. -/

/-- The engine enters PAUSED (R239 order 3, R483): 1 budget, 2 package state, 3 lead loss. -/
def pauseStep (cause g : Nat) (s : Device) : Device :=
  let s := traceEvent 3 cause 0 g (setEng EngSt.paused g s)
  let s := if leaseSt s g = 3 then s else leaseRelease g s
  clearCounts g ((engMode 0 g s).modEng g fun e => { e with fPause := true, pauseCause := cause, resumeEv := 4 })

/-- HALT (R249); a window aborts with the change of mode (R182). -/
def haltStep (g : Nat) (s : Device) : Device :=
  let s := traceEvent 8 0 0 g (setEng EngSt.halted g s)
  clearCounts g ((leaseRelease g (engMode 0 g s)).modEng g fun e => { e with interrupted := false })

/-- A restarted step (R395): time, suspension and retries at 0, the terms' bases anew. -/
def restartStep (g : Nat) (s : Device) : Device :=
  putTime g ((s.cset g CH_STEP_RETRY 0).modEng g fun e => { e with
    frames := 0, suspFrames := 0, restart := true, basesDue := true, acirDone := 0, ocvK := 0, level2 := false })

/-- Carry out a resume mode (R394, R395): 1 continue, 2 restart; the step's range is asked for again, as at its start. -/
def carryResume (mode g : Nat) (s : Device) : Device :=
  let s := s.modEng g fun e => { e with fResumed := true, interrupted := false }
  let s := match curStep s g with
    | some r => engRange (r.range == 1) g s
    | none => s
  if mode = 2 then requestRun true 0 g (writeSetpoints g (bandApply g (restartStep g s)))
  else
    let s := s.modEng g fun e => { e with restart := false, acirDone := 0, acirEnd := 0 }
    if (s.ch g).eng.seat = .none then requestRun true 0 g (writeSetpoints g (bandApply g s))
    else (setEng EngSt.reseat g s).modEng g fun e => { e with seat := .wantRelease }

/-- The channel is no longer held for the host (R397, R405, R406). -/
def dropHold (g : Nat) (s : Device) : Device := setMap RESUME_HELD_0 RESUME_HELD_1 g false (s.cset g CH_RESUME_HELD 0)

/-- A held channel is released: its pending mode is carried out (R397). -/
def releaseHeld (g : Nat) (s : Device) : Device := carryResume (s.cget g CH_RESUME_MODE) g (dropHold g s)

/-- RELEASE (R249): a held channel has its pending mode carried out, also when a fault came meanwhile (R245, R397). -/
def releaseStep (g : Nat) (s : Device) : Device :=
  let e := engState s g
  if e = EngSt.resumeHalt ∨ s.cbit g CH_RESUME_HELD = true then releaseHeld g (traceEvent 9 0 0 g s)
  else requestRun false 0 g (traceEvent 9 0 0 g s)

/-- RELEASE is accepted in this engine state (R249). -/
def releaseOk (s : Device) (g e : Nat) : Bool :=
  e == EngSt.halted || e == EngSt.resumeHalt || (e == EngSt.faultHold && stopFaults s g == 0)

/-- Commands at a boundary at which a fault has decided the state already: HALT and ABORT leave their events only (R239;
DEDUCED that an ABORT's is event 11 with HOST_ABORT; a SKIP has none). -/
def commandEvents (q e0 g : Nat) (s : Device) : Device :=
  let s := if q.testBit 0 && decide (1 ≤ e0 ∧ e0 ≤ 10 ∧ e0 ≠ 9) then traceEvent 11 EndCode.hostAbort 2 g s else s
  if q.testBit 2 && decide (1 ≤ e0 ∧ e0 ≤ 5) then traceEvent 8 0 0 g s else s

/-- The commands due at a boundary, each accepted by the state at the boundary's start, in the order ABORT, SKIP, HALT,
RELEASE, START (R239 order 2, R249). -/
def hostCommands (decided : Bool) (e0 : Nat) (g : Nat) (s : Device) (next : Option Nat) : Device × Option Nat :=
  let q := (s.ch g).due.seq
  if decided then (commandEvents q e0 g (s.modDue g fun x => { x with seq := 0 }), next) else
  let any := decide (1 ≤ e0 ∧ e0 ≤ 10 ∧ e0 ≠ 9)
  let relOk := releaseOk s g e0
  let s := s.modDue g fun x => { x with seq := 0 }
  let (s, next) := if q.testBit 0 && any && hasStep s g then
      (recipeEnd false EndCode.hostAbort g (dropHold g (endStep EndCode.hostAbort 0 g s)), none) else (s, next)
  let (s, next) := if q.testBit 1 && any && hasStep s g && next.isNone then
      let s := dropHold g (endStep EndCode.hostSkip 0 g s)
      (s, some (s.cget g CH_STEP_STEP + 1)) else (s, next)
  let (s, next) := if q.testBit 2 && decide (1 ≤ e0 ∧ e0 ≤ 5) then
      -- the state left by a SKIP: the next step's start is requested before it is halted
      let s := match next with | some i => goStep i g s | none => s
      (if hasStep s g then haltStep g s else s, none) else (s, next)
  let s := if q.testBit 3 && relOk && hasStep s g && next.isNone then releaseStep g s else s
  let s := if q.testBit 4 && (e0 == EngSt.idle || e0 == EngSt.ended) then startRecipe g s else s
  (s, next)

/-! Terminations. -/

/-- Frames a kind must hold (R232). -/
def kindFrames (k : Nat) : Nat :=
  match k with
  | 4 => 4
  | 5 => 4
  | 6 => 64
  | 9 => 16
  | 10 => 16
  | _ => 1

/-- The condition of a slot at this boundary (R232). -/
def slotCond (s : Device) (g w : Nat) : Bool :=
  let e := (s.ch g).eng
  match termKind w with
  | 1 => decide (termValue w * 400 ≤ e.frames)
  | 2 => reached (termDQ s g) (termSigned w) (10 ^ 5 * 2 ^ 32)
  | 3 => reached (termDE s g) (termSigned w) (10 ^ 6 * 2 ^ 32)
  | 7 => slopeCond (slopeOf e) w
  | 8 => slopeCond (slopeOf e) w
  | _ =>
    let armed := termKind w != 6 || e.armed
    if curType s g = 9 ∧ termKind w < 9 then
      match e.mV with
      | some (v, i, n) => armed && wordCond s g v i n w
      | none => false
    else armed && wordCond s g (vPrec s g) (iPrec s g) 1 w

/-- The count of a slot after this boundary: kinds 4 to 10 are blanked after a start or resumption. -/
def slotCount (s : Device) (g w cnt : Nat) : Nat :=
  let k := termKind w
  if (4 ≤ k ∧ k ≤ 10 ∧ 0 < (s.ch g).eng.blank) ∨ slotCond s g w = false then 0 else cnt + 1

/-- The lowest slot that matches, with the counts after the boundary (R235). -/
def evalTerms (s : Device) (g : Nat) (r : StepRec) : List Nat × Option (Nat × Nat) :=
  let ws := (r.terms.take r.nterm)
  let cnt := (List.range 4).map fun k =>
    match ws[k]? with
    | some w => slotCount s g w (nth (s.ch g).eng.termCnt k)
    | none => 0
  let hit := (List.range 4).find? fun k =>
    match ws[k]? with
    | some w => decide (termKind w < 11 ∧ w ≠ 0 ∧ kindFrames (termKind w) ≤ nth cnt k)
    | none => false
  (cnt, hit.map fun k => (k + 1, (ws[k]?).getD 0))

/-- The natural end of a step: its end code (R230, R247, R248). -/
def naturalEnd (s : Device) (g : Nat) (r : StepRec) : Option Nat :=
  let e := (s.ch g).eng
  if r.typ = 9 then (if e.acirEnd = 1 then some EndCode.done else if e.acirEnd = 2 then some EndCode.acirRefused else none)
  else if r.typ = 10 then
    if e.startAt + (r.p3 % 65536 + r.p3 / 65536) * 20480 ≤ s.now then some EndCode.done else none
  else none

/-- A step whose window a pause or a suspension has ended for good ends in that state (R247, R266). -/
def acirOver (s : Device) (g : Nat) : Bool :=
  let e := engState s g
  decide ((s.ch g).eng.acirEnd = 2) && (e == EngSt.paused || e == EngSt.suspended)

/-- Terminations, then the natural end (R239 order 4). -/
def stepTerms (g : Nat) (s : Device) : Device × Option Nat :=
  match curStep s g with
  | none => (s, none)
  | some r =>
    let (cnt, hit) := evalTerms s g r
    let s := s.modEng g fun e => { e with termCnt := cnt, blank := e.blank - 1 }
    match hit with
    | some (slot, w) => takeAction (termAction w) (termKind w) g (endStep (termKind w) slot g s)
    | none =>
      match naturalEnd s g r with
      | some code => takeAction 0 code g (endStep code 0 g s)
      | none => (s, none)

/-! The boundary. -/

/-- Step time, suspension time, arming and the means of the frame just ended (R233, R234, R238, R244). -/
def engFrame (g : Nat) (s : Device) : Device :=
  let e := engState s g
  let s := if s.cbit g CH_CTL_OVR ∧ hasStep s g = true then s.modEng g fun x => { x with fOvr := true } else s
  if e = EngSt.running then
    let low := !(s.ch g).lp.gl
    let t := curType s g
    let v := vPrec s g
    let i := iPrec s g
    let nq := netQ s g
    let ne := netE s g
    let c := ptOf s (g / 8) / 2 ^ 32
    let sec := decide (s.frame % 4000 = 0)
    let s := s.modEng g fun x =>
      let x := if x.ranWhole then { x with frames := x.frames + 1, meanSum := x.meanSum + v, meanN := x.meanN + 1 } else x
      -- a channel whose gates are low does not slew (R87, R234)
      let x := { x with ranWhole := true, armed := x.armed || (t != 4 && low) }
      let x := if x.basesDue then { x with basesDue := false, termQ := nq, termE := ne } else x
      let x := if sec then
          { x with means := if x.meanN = 4000 then (x.meanSum :: x.means).take 11 else [], meanSum := 0, meanN := 0 } else x
      if t ≠ 9 then x
      else if c = x.cyc then (if x.cycN = 0 then x else { x with cycV := x.cycV + v, cycI := x.cycI + i, cycN := x.cycN + 1 })
      else { x with mV := if x.cycN = 0 then x.mV else some (x.cycV, x.cycI, x.cycN), cyc := c, cycV := v, cycI := i, cycN := 1 }
    putTime g s
  else if e = EngSt.suspended then
    putTime g (s.modEng g fun x => { x with suspFrames := x.suspFrames + 1, ranWhole := false })
  else s.modEng g fun x => { x with ranWhole := false }

/-- The package state stops a step of this kind (R31, R238, R262): one that needs current outside RUN, any in RECOVER. A die that
holds over knows no package state, and pauses by R440 alone. -/
def stateStops (s : Device) (g : Nat) : Bool :=
  let p := pkgState s
  !(s.die (g / 8)).link.upSilent && (if needsCurrent (curType s g) then p != Pkg.run else p == Pkg.recover)

/-- Order 1 of R239: latched faults. -/
def orderFaults (g : Nat) (s : Device) : Device × Option Nat × Bool :=
  let e := engState s g
  let others := stopFaults s g - (if (s.reg (chAddr g 2)).toNat.testBit 3 then 8 else 0)
  let live := decide (1 ≤ e ∧ e ≤ 5) || e == EngSt.reseat
  let held := e == EngSt.halted || e == EngSt.resumeHalt
  if (live || held) && others != 0 then (faultHold g (s.modDue g fun x => { x with contact := false }), none, true)
  else if live && (s.ch g).due.contact && !(s.ch g).lp.gl && e != EngSt.reseat then
    let (s, n) := contactEnd g s
    (s, n, true)
  else if e = EngSt.reseat ∧ (s.ch g).eng.seat = .none then
    let (s, n) := contactFinal EndCode.reseatFail g (endStep EndCode.reseatFail 0 g s)
    (s, n, true)
  else (if hasStep s g then s else s.modDue g fun x => { x with contact := false }, none, false)

/-- Order 3: a pause by the budget, by the package state, which `stops` a step that was running, or by a lead loss; where an
earlier action has decided the state it leaves its event alone (R239). -/
def orderPause (decided stops : Bool) (g : Nat) (s : Device) : Device × Bool :=
  let p := (s.ch g).due.pause
  let s := s.modDue g fun x => { x with pause := 0 }
  let e := engState s g
  let cause := if p ≠ 0 then p else if stops then 2 else 0
  if cause = 0 then (s, decided)
  else if decided then (traceEvent 3 cause 0 g s, decided)
  else if e = EngSt.running then (pauseStep cause g s, true)
  else (s, decided)

/-- The band change of a boundary leaves its event, and with it the setpoints follow the band (R242); a suspension it would
have meant leaves its event alone where an earlier action has decided the state (R239). -/
def bandEvents (decided running : Bool) (b0 set0 g : Nat) (s : Device) : Device :=
  let b := s.cget g CH_NTC_BAND
  let s := if set0 ≠ 0 ∧ (s.ch g).eng.set = set0 ∧ b ≠ b0 then traceEvent 13 b 0 g s else s
  let s := if decided && running && bandCause s g != 0 then traceEvent 1 (bandCause s g) 0 g s else s
  if hasStep s g ∧ (b ≠ b0 ∨ b = 1 ∨ b = 3) then writeSetpoints g s else s

/-- Order 5: the temperature band (R242, R244). -/
def orderBand (decided : Bool) (g : Nat) (s : Device) : Device × Option Nat :=
  let e := engState s g
  if e = EngSt.suspended ∧ s.cget g CH_STAT_SUSP_CAUSE ≠ 3 then
    match curStep s g with
    | none => (s, none)
    | some r =>
      if r.suspEnd then takeAction 0 EndCode.suspended g (endStep EndCode.suspended 0 g s)
      else if bandCause s g = 0 ∧ (s.die (g / 8)).vdrvBad = false then (requestRun false 2 g s, none)
      else (s, none)
  else if decided then (s, none)
  else if e = EngSt.running ∧ bandCause s g ≠ 0 then
    match curStep s g with
    | none => (s, none)
    | some r =>
      let s := suspendStep (bandCause s g) g s
      if r.suspEnd then takeAction 0 EndCode.suspended g (endStep EndCode.suspended 0 g s) else (s, none)
  else (s, none)

/-- A REST or OCV_HOLD step paused by the package state resumes once it may run again; one that waits for its frame boundary
starts or resumes (R236). -/
def restBoundary (g : Nat) (s : Device) : Device :=
  if !hasStep s g || needsCurrent (curType s g) || stateStops s g then s
  else if engState s g = EngSt.paused then requestRun false 4 g s
  else if engState s g = EngSt.wait then runStep true g s
  else s

/-- A boundary of a channel whose resume decision is still to be taken (R392, R393): only the host acts on it. -/
def interruptedBoundary (g : Nat) (s : Device) : Device :=
  match hostCommands false (engState s g) g (bandBoundary g s) none with
  | (s, some i) => goStep i g s
  | (s, none) => s

/-- The step engine's share of a frame boundary in the order of R239; in TEST the engines do not advance (R474), nor that of a
channel in husk (R369). -/
def engineBoundary (g : Nat) (s : Device) : Device :=
  if !dieRuns (s.die (g / 8)) || pkgState s == Pkg.test || chHusk s g then s
  else if (s.ch g).eng.interrupted && hasStep s g then interruptedBoundary g s
  else
    let b0 := s.cget g CH_NTC_BAND
    let set0 := (s.ch g).eng.set
    let e0 := engState s g
    let s := bandBoundary g (engFrame g s)
    let stops := e0 == EngSt.running && stateStops s g
    let (s, n1, d1) := orderFaults g s
    let (s, n2) := hostCommands d1 e0 g s n1
    let d2 := d1 || n2.isSome || decide (engState s g ≠ e0)
    let (s, d3) := orderPause d2 stops g s
    let (s, n4) := if !d3 && engState s g == EngSt.running then stepTerms g s
      else if !d3 && acirOver s g then takeAction 0 EndCode.acirRefused g (endStep EndCode.acirRefused 0 g s)
      else (s, n2)
    let d4 := d3 || n4.isSome || engState s g == EngSt.ended
    let s := bandEvents d4 (e0 == EngSt.running) b0 set0 g s
    let (s, n5) := if n4.isSome then (s, n4) else orderBand d4 g s
    let s := match n5 with
      | some i => goStep i g s
      | none => s
    restBoundary g s

/-! Events between boundaries. -/

/-- The first clock of the channel's slot: a step that waits under a lease it holds starts (R56, R236); an override follows its
mode. DESIGN CHOICE (notes/assumptions/61): R84 names no moment at which an overridden channel whose start checks failed, or that
was stopped, tries again; it does so at each of these commands, at whatever clock. -/
def stepStart (g : Nat) (s : Device) : Device :=
  let e := engState s g
  if (e = EngSt.wait ∨ e = EngSt.queued) ∧ leaseHeld s g = true then
    if slotBegins s (slotOf s g) then runStep (s.clk == 0) g s else s
  else if s.cbit g CH_CTL_OVR then followMode g s
  else s

/-- OFF × 10 ms have passed after the release (R246). -/
def reseatOff (g : Nat) (s : Device) : Device :=
  if (s.ch g).eng.seat = .off ∧ s.passed (s.ch g).eng.seatAt (msClocks (10 * s.cget g CH_SEAT_OFF)) = true then s.modEng g fun e => { e with seat := .wantPull } else s

/-- SETTLE × 10 ms have passed after the pull-in: the re-seat is done, CONTACT clears and the same step resumes (R246). -/
def reseatDone (g : Nat) (s : Device) : Device :=
  if (s.ch g).eng.seat = .settle ∧ engState s g = EngSt.reseat ∧ pkgState s ≠ Pkg.test ∧
      s.passed (s.ch g).eng.seatAt (msClocks (10 * s.cget g CH_SEAT_SETTLE)) = true then
    let s := traceEvent 7 (s.cget g CH_STEP_RETRY) 0 g (clearChFault 8 g s)
    requestRun false 0 g (s.modEng g fun e => { e with seat := .none, restart := false })
  else s

/-- A PULSE step changes to level 2 at start + T1 (R248); the loop takes it with its next period (R83). -/
def pulseLevel (g : Nat) (s : Device) : Device :=
  let t1 := match curStep s g with | some r => r.p3 % 65536 | none => 0
  if engState s g = EngSt.running ∧ curType s g = 10 ∧ (s.ch g).eng.level2 = false ∧
      s.passed (s.ch g).eng.startAt (msClocks t1) = true then
    let n := s.free
    let h := (s.ch g).eng.fastHist
    let mean (f : Int × Int → Int) (k : Nat) : Int := meanWith (Config.freeBit (n + k)) (h.foldl (fun a x => a + f x) 0) 16
    -- capture 0: the mean of the 16 fast words before the level change
    let c0 := (mean Prod.fst 0, mean Prod.snd 1)
    let s := { s with free := n + 2 }
    writeSetpoints g (s.modEng g fun e => { e with level2 := true, levelAt := s.now, caps := [c0] })
  else s

/-- The capture delay Dk in 0.1 ms: bytes 24 to 31 of the record (R228, R248). -/
def pulseDelay (r : StepRec) (k : Nat) : Nat := ((r.terms[(k - 1) / 2 + 2]?).getD 0) / 2 ^ (16 * ((k - 1) % 2)) % 65536

/-- A voltage word in µV and a current word in mA as numbers over powers of two (R248). -/
def vWordNum (k : Const) (w : Int) : Int := w * k.mant

/-- The body of a PULSE_CAP record of capture k, from the means of the 16 fast words before it and those of capture 0
(R248, R251). -/
def captureBody (s : Device) (k g dk : Nat) (v0 i0 : Int) : List Byte :=
  let e := (s.ch g).eng
  let n := s.free
  let mean (f : Int × Int → Int) (j : Nat) : Int :=
    meanWith (Config.freeBit (n + j)) (e.fastHist.foldl (fun a x => a + f x) 0) 16
  let v := mean Prod.fst 0
  let i := mean Prod.snd 1
  let kv := (s.ch g).conv.kv
  let kq := (s.ch g).conv.kq
  let uv := meanWith (Config.freeBit (n + 2)) (v * kv.mant) (2 ^ kv.sh)
  let ma := meanWith (Config.freeBit (n + 3)) (iWordMaNum kq i) (2 ^ (22 + kq.sh))
  -- R_dc in µΩ: ΔV in µV over ΔI in A; 1 % of the range is 2^23 / 100 words
  let dv := (v - v0) * kv.mant * 1000 * 2 ^ (22 + kq.sh)
  let di := iWordMaNum kq (i - i0) * 2 ^ kv.sh
  let rdc : Int := meanWith (Config.freeBit (n + 4)) (if di < 0 then -dv else dv) di.natAbs
  let rw : Nat := if (i - i0).natAbs * 100 < 2 ^ 23 then 0x80000000 else fieldOf 32 (clampSigned 32 rdc)
  [BitVec.ofNat 8 (s.cget g CH_STEP_RECIPE), BitVec.ofNat 8 (s.cget g CH_STEP_STEP), BitVec.ofNat 8 k, 0] ++
    leBytes 4 (fieldOf 32 uv) ++ leBytes 4 (fieldOf 32 ma) ++ leBytes 4 rw ++ leBytes 4 dk

/-- A PULSE_CAP record of capture k ≥ 1, once, at the first word at or after its delay; capture 0 is taken with the level
change (R248). -/
def pulseCapture (k : Nat) (g : Nat) (s : Device) : Device :=
  match curStep s g with
  | none => s
  | some r =>
    let dk := pulseDelay r k
    if engState s g ≠ EngSt.running ∨ r.typ ≠ 10 ∨ (s.ch g).eng.level2 = false ∨ k = 0 ∨ dk = 0 ∨ r.p3 / 65536 * 10 < dk ∨
        (s.ch g).eng.capMask.testBit k = true ∨ s.passed (s.ch g).eng.levelAt (2048 * dk) = false then s
    else
      let s := s.modEng g fun e => { e with capMask := e.capMask ||| 2 ^ k }
      match (s.ch g).eng.caps with
      | [] => s
      | (v0, i0) :: _ => traceWrite 4 g (captureBody s k g dk v0 i0) (s.spend 5)

/-- An OCV_SAMPLE record once step time has come to d × 2^k (R248); the frame that ends at that time is the one it falls in
(DEDUCED, notes/assumptions/63). -/
def ocvSample (g : Nat) (s : Device) : Device :=
  let k := (s.ch g).eng.ocvK
  let d := match curStep s g with | some r => r.p1 | none => 0
  if engState s g = EngSt.running ∧ curType s g = 8 ∧ k < 16 ∧ d * 2 ^ k * 4 ≤ (s.ch g).eng.frames then
    let s := traceWrite 3 g ([BitVec.ofNat 8 (s.cget g CH_STEP_RECIPE), BitVec.ofNat 8 (s.cget g CH_STEP_STEP),
      BitVec.ofNat 8 k, 0] ++ leBytes 4 ((s.ch g).eng.frames / 4) ++ leBytes 4 (fieldOf 32 (vPrec s g)) ++
      leBytes 2 (s.cget g CH_NTC_TEMP)) s
    s.modEng g fun e => { e with ocvK := k + 1 }
  else s

/-- A CH_SEQ command waits for the next frame boundary (R249). -/
def seqCmd (bit g : Nat) (s : Device) : Device :=
  s.modDue g fun x => { x with seq := x.seq ||| 2 ^ bit }

/-- The host frees trace records by writing RD; a value outside the span from RD to WR is ignored (R253, R462). -/
def traceRdWrite (d : Nat) (data : Word) (s : Device) : Device :=
  let rd := TRACE_PTR_RD.get data
  let w := s.dget d TRACE_PTR_WR
  let n := (w + 2048 - rd) % 2048
  let n := if n = 0 ∧ rd = s.dget d TRACE_PTR_RD then s.dget d TRACE_COUNT else n
  if s.dget d TRACE_COUNT < n then s else (s.dset d TRACE_PTR_RD rd).dset d TRACE_COUNT n

/-! Commands. -/

/-- STEP_START. -/
def execStepStart (g : Ch) (s : State) : Host.Outcome State Fault Refusal := onDie (g.val / 8) s (stepStart g)
/-- RESEAT_OFF_EXPIRY. -/
def execReseatOffExpiry (g : Ch) (s : State) : Host.Outcome State Fault Refusal := onDie (g.val / 8) s (reseatOff g)
/-- RESEAT_SETTLE_EXPIRY. -/
def execReseatSettleExpiry (g : Ch) (s : State) : Host.Outcome State Fault Refusal := onDie (g.val / 8) s (reseatDone g)
/-- PULSE_LEVEL_CHANGE. -/
def execPulseLevelChange (g : Ch) (s : State) : Host.Outcome State Fault Refusal := onDie (g.val / 8) s (pulseLevel g)
/-- PULSE_CAPTURE. -/
def execPulseCapture (g : Ch) (k : Fin 5) (s : State) : Host.Outcome State Fault Refusal :=
  onDie (g.val / 8) s (pulseCapture k.val g)
/-- OCV_SAMPLE. -/
def execOcvSample (g : Ch) (s : State) : Host.Outcome State Fault Refusal := onDie (g.val / 8) s (ocvSample g)
/-- SEQ_ABORT. -/
def execSeqAbort (g : Ch) (s : State) : Host.Outcome State Fault Refusal := onDie (g.val / 8) s (seqCmd 0 g)
/-- SEQ_SKIP. -/
def execSeqSkip (g : Ch) (s : State) : Host.Outcome State Fault Refusal := onDie (g.val / 8) s (seqCmd 1 g)
/-- SEQ_HALT. -/
def execSeqHalt (g : Ch) (s : State) : Host.Outcome State Fault Refusal := onDie (g.val / 8) s (seqCmd 2 g)
/-- SEQ_RELEASE. -/
def execSeqRelease (g : Ch) (s : State) : Host.Outcome State Fault Refusal := onDie (g.val / 8) s (seqCmd 3 g)
/-- SEQ_START. -/
def execSeqStart (g : Ch) (s : State) : Host.Outcome State Fault Refusal := onDie (g.val / 8) s (seqCmd 4 g)
/-- TRACE_RD_WRITE. -/
def execTraceRdWrite (d : Die) (data : Word) (s : State) : Host.Outcome State Fault Refusal :=
  onDie d.val s (traceRdWrite d.val data)

end Sys2Proof.Machine
end

