-- ==== Sys2Proof/Machine/Protect.lean ====
section
/-! DEFINITION. The protections of a whole die (R71, R92): VDRV undervoltage with the suspension of steps and VBUS
overvoltage, and the commands VDRV_UV, VDRV_RECOVER, BUS_OV and BUS_OV_CLEAR. -/

namespace Sys2Proof.Machine

/-- VDRV_UV on one channel: the bit, the stop, and the suspension of a running step with cause 3 (R71, R244); in TEST the engine
keeps its state (R474). -/
def vdrvUvCh (g : Nat) (s : Device) : Device :=
  let was := (s.ch g).lp.gl
  let s := stopChannel g (setChFault 9 g s)
  let s := if was then s.modLp g fun l => { l with vdrvHeld := true } else s
  if engState s g = EngSt.running ∧ pkgState s ≠ Pkg.test then suspendStep 3 g s else s

/-- VDRV has fallen (R71). -/
def vdrvUv (d : Nat) (s : Device) : Device :=
  if (s.die d).up then (s.modDie d fun x => { x with vdrvBad := true }).each (chansOf d) vdrvUvCh else s

/-- VDRV has been good for a whole frame: a suspended step that needs current asks for its slot again, one that needs none goes on at
the frame boundary, waiting for no slot (R236, R244), and a host override restarts (R71); in TEST the engine keeps its state
(R474). -/
def vdrvRecoverCh (g : Nat) (s : Device) : Device :=
  let held := (s.ch g).lp.vdrvHeld
  let s := s.modLp g fun l => { l with vdrvHeld := false }
  let s := if engState s g = EngSt.suspended ∧ s.cget g CH_STAT_SUSP_CAUSE = 3 ∧ pkgState s ≠ Pkg.test then
      if bandCause s g = 0 then requestRun false 2 g s else s.cset g CH_STAT_SUSP_CAUSE (bandCause s g)
    else s
  if held && s.cbit g CH_CTL_OVR then followMode g s else s

/-- VDRV_RECOVER. -/
def vdrvRecover (d : Nat) (s : Device) : Device :=
  if (s.die d).up && (s.die d).vdrvBad then
    (s.modDie d fun x => { x with vdrvBad := false }).each (chansOf d) vdrvRecoverCh
  else s

/-- VBUS above 31.5 V on a die (R92). -/
def busOv (d : Nat) (s : Device) : Device :=
  if (s.die d).up then (s.modDie d fun x => { x with busOvNow := true }).each (chansOf d) busOvCh else s

/-- A channel held by BUS_OV restarts under R84; its step time did not stop (R92, R245). -/
def busOvClearCh (g : Nat) (s : Device) : Device :=
  if (s.ch g).lp.busOvHeld then followMode g (s.modLp g fun l => { l with busOvHeld := false }) else s

/-- VBUS below 30.5 V again (R92). -/
def busOvClear (d : Nat) (s : Device) : Device :=
  if (s.die d).up then (s.modDie d fun x => { x with busOvNow := false }).each (chansOf d) busOvClearCh else s

/-- VDRV_UV. -/
def execVdrvUv (d : Die) (s : State) : Host.Outcome State Fault Refusal := onDie d.val s (vdrvUv d.val)
/-- VDRV_RECOVER. -/
def execVdrvRecover (d : Die) (s : State) : Host.Outcome State Fault Refusal := onDie d.val s (vdrvRecover d.val)
/-- BUS_OV. -/
def execBusOv (d : Die) (s : State) : Host.Outcome State Fault Refusal := onDie d.val s (busOv d.val)
/-- BUS_OV_CLEAR. -/
def execBusOvClear (d : Die) (s : State) : Host.Outcome State Fault Refusal := onDie d.val s (busOvClear d.val)

end Sys2Proof.Machine
end

