-- ==== Sys2Proof/Machine/Budget.lean ====
section
/-! DEFINITION. The bus budget and the bus event monitor (R254 to R273): demand reports, the arbitration of a freeze
point, decisions at the slot's first clock in their order among a channel's events (R59), the exits from and entries to RUN, the
monitor, and the commands ACIR_LEADIN_START, ACIR_WINDOW_OPEN, ACIR_WINDOW_CLOSE, FREEZE_POINT, LEASE_DECISION, FIT_SET and BUS_MON_CLR. -/

namespace Sys2Proof.Machine

/-! Reports. -/

/-- The lead die takes a channel's report: its demand, a release, or that it waits (R256). -/
def leaseTold (g : Nat) (dem : Int) (held waiting : Bool) (s : Device) : Device :=
  s.modLease g fun l => { l with reported := dem, age := 0, released := l.inForce && !held, waiting := waiting }

/-- What a die reports of a channel: its demand, whether it holds a lease, whether it waits for one (R256). -/
def leaseLoad (s : Device) (g : Nat) : CellLoad :=
  let st := leaseSt s g
  .demand g (signedOf 16 (s.cget g CH_LEASE_DEMAND)) (leaseHeld s g) (st == 2 || st == 3 || st == 5)

/-- A report of a channel of the lead die, which needs no cell. -/
def leaseReport (g : Nat) (s : Device) : Device :=
  let st := leaseSt s g
  leaseTold g (signedOf 16 (s.cget g CH_LEASE_DEMAND)) (leaseHeld s g) (st == 2 || st == 3 || st == 5) s

/-- A channel's demand at a frame boundary; the lead die's own channels report at once (R254, R256). -/
def demandBoundary (g : Nat) (s : Device) : Device :=
  let s := if leaseSt s g = 0 then s.cset g CH_LEASE_DEMAND 0
    else s.cset g CH_LEASE_DEMAND (fieldOf 16 (clampSigned 16 (demandOf s g)))
  if g / 8 = 0 then leaseReport g s else s

/-! The arbitration. -/

/-- Insert a channel before the first one of a greater key. -/
def insertBy (f : Nat → Nat) (x : Nat) : List Nat → List Nat
  | [] => [x]
  | y :: t => if f x ≤ f y then x :: y :: t else y :: insertBy f x t

/-- Channels by rising key. -/
def sortBy (f : Nat → Nat) (l : List Nat) : List Nat := l.foldr (insertBy f) []

/-- The rank of a channel among leases: lower is better (R258). -/
def leaseRank (s : Device) (g : Nat) : Nat := s.cfrc g CH_LEASE_PRIO * 64 + g

/-- The rank among waiting channels: the paused class first (R258, R262). -/
def waitRank (s : Device) (g : Nat) : Nat :=
  leaseRank s g + (if leaseSt s g = 3 ∨ leaseSt s g = 5 then 0 else 4096)

/-- The channels whose lease is counted. -/
def leases (s : Device) : List Nat := s.chList.filter fun g => (s.ch g).lease.inForce
/-- The demand counted for a channel. -/
def demOf (s : Device) (g : Nat) : Int := (s.ch g).lease.counted
/-- The sum of the demands of some channels. -/
def demSum (s : Device) (l : List Nat) : Int := l.foldl (fun a g => a + demOf s g) 0
/-- A demand of 0 counts as charge (R255). -/
def charging (s : Device) (g : Nat) : Bool := decide (0 ≤ demOf s g)
/-- The net of the leases. -/
def netDemand (s : Device) : Int := demSum s (leases s)

/-- Expiry: a lease with no report since two freeze points before (R259, R263). -/
def expireLease (g : Nat) (s : Device) : Device :=
  let l := (s.ch g).lease
  if l.inForce ∧ 2 ≤ l.age then
    let s := s.modLease g fun l => { l with inForce := false, released := false, decision := 0 }
    logEvent Cat.bus 0 0x01 g (fieldOf 32 l.counted) (s.pset BUS_STAT_EXPIRE_EVT 1)
  else s.modLease g fun l => { l with age := l.age + 1 }

/-- Releases are removed, new demands counted (R267). -/
def countLease (g : Nat) (s : Device) : Device :=
  s.modLease g fun l => { l with
    inForce := l.inForce && !l.released, released := false, counted := l.reported }

/-- Host and image writes that wait for a freeze point come into force, the flag clears of BUS_STAT and BUS_MON_CNT among
them (R267, R459). -/
def freezeWrites (s : Device) : Device :=
  let s := (s.setReg 0x26 (s.reg 0x26 &&& ~~~(s.busW1c &&& ~~~ s.freshBits 0x26))).setBusW1c 0
  let s := if s.busClr then (s.setReg 0x2A 0).setBusClr false else s
  let s := s.each [0x20, 0x21, 0x22, 0x27, 0x28] fun o t => t.pforce o
  s.each s.chList fun g t => (t.cforce g 0x03).cforce g 0x5F

/-- Pause a lease: its demand leaves the net; it is not granted at the same freeze point (R259, R265). -/
def pauseLease (reverse : Bool) (g : Nat) (s : Device) : Device :=
  let net := netDemand s
  let at_ := s.now
  s.modLease g fun l => { l with
    inForce := false, waiting := false, decision := 2, decidedAt := at_, net := net, reverse := reverse, late := false }

/-- Pause leases in the given order while a condition on the net holds. -/
def pauseWhile (stop : Int → Bool) (reverse : Bool) (l : List Nat) (s : Device) : Device :=
  s.each l fun g t => if stop (netDemand t) then pauseLease reverse g t else t

/-- The pauses of R259, worst rank first: charging leases, burst steps last, then discharging ones under RLIMIT. -/
def arbPauses (s : Device) : Device :=
  let lim : Int := 10 * s.pfrc BUS_LIMIT_LIMIT
  let rl : Int := 10 * s.pfrc BUS_LIMIT_RLIMIT
  let worst (t : Device) (p : Nat → Bool) : List Nat := (sortBy (leaseRank t) ((leases t).filter p)).reverse
  let s := pauseWhile (fun n => decide (lim < n)) false (worst s fun g => charging s g && leaseSt s g != 4) s
  let s := pauseWhile (fun n => decide (lim < n)) false (worst s (charging s)) s
  if s.pfrc BUS_CFG_RLIM_EN = 1 then
    pauseWhile (fun n => decide (n < -rl)) true (worst s fun g => !charging s g) s
  else s

/-- One waiting channel at the freeze point of slot k; the number is the reserve (R259). -/
def arbWaiting (k : Nat) (w : Nat) (a : Int × Device) : Int × Device :=
  let (res, s) := a
  let dem := demOf s w
  let hold : Int := if 0 < dem ∧ s.pfrc BUS_CFG_RESERVE = 1 then res + dem else res
  if slotOf s w ≠ k then (hold, s)
  else
    let lim : Int := 10 * s.pfrc BUS_LIMIT_LIMIT
    let net := netDemand s
    let chg := demSum s ((leases s).filter (charging s))
    let fits := if isBurst (loadType s w) then decide (chg + dem ≤ lim - res)
      else if 0 < dem then decide (net + dem ≤ lim - res)
      else s.pfrc BUS_CFG_RLIM_EN == 0 || decide (-(10 * s.pfrc BUS_LIMIT_RLIMIT : Int) ≤ net + dem)
    let at_ := s.now
    if fits then
      (res, s.modLease w fun l => { l with
        inForce := true, age := 1, waiting := false, decision := 1, decidedAt := at_, late := false })
    else (hold, s.modLease w fun l => { l with decision := 3, decidedAt := at_, late := false })

/-- The channels the lead die knows to wait, best rank first. -/
def waiters (s : Device) : List Nat :=
  sortBy (waitRank s) (s.chList.filter fun g => (s.ch g).lease.waiting && !(s.ch g).lease.inForce)

/-- Grants and refusals (R259). -/
def arbGrants (k : Nat) (s : Device) : Device := ((waiters s).foldl (fun a w => arbWaiting k w a) ((0 : Int), s)).2

/-- BUS_NET, BUS_CHG, BUS_DSG and the counts of BUS_STAT after an arbitration (R269). -/
def busSums (s : Device) : Device :=
  let l := leases s
  let chg := demSum s (l.filter (charging s))
  let dsg := -demSum s (l.filter fun g => !charging s g)
  let s := ((s.setReg 0x23 (wordOfInt (chg - dsg))).setReg 0x24 (wordOfInt chg)).setReg 0x25 (wordOfInt dsg)
  let wait := s.chList.filter fun g => (s.ch g).lease.waiting || (s.ch g).lease.decision == 2
  (s.pset BUS_STAT_LEASES l.length).pset BUS_STAT_WAITING wait.length

/-- The freeze point of slot k, at its clock (R257 to R267): leases exist only in RUN. What the host wrote for it comes first, so
that a flag set here stays (R417); while a ship sequence runs nothing is granted (R314). -/
def freezePoint (k : Nat) (s : Device) : Device :=
  if !((s.die 0).up && freezeDue s k) then s
  else if pkgState s = Pkg.run then
    let s := ((freezeWrites s).each s.chList expireLease).each s.chList countLease
    let s := arbPauses s
    busSums (if s.supply.ship = 0 then arbGrants k s else s)
  else freezeWrites s

/-! Decisions. -/

/-- A budget pause takes effect: a change to REST, the map, the event and its entry (R265, R266). -/
def budgetPause (g : Nat) (s : Device) : Device :=
  let l := (s.ch g).lease
  let s := s.cset g CH_LEASE_LSTATE 3
  let s := setMap BUS_PAUSE_MAP_0 BUS_PAUSE_MAP_1 g true (s.pset BUS_STAT_PAUSE_EVT 1)
  let s := (s.pset BUS_PAUSE_LAST_CH g).pset BUS_PAUSE_LAST_REVERSE (if l.reverse then 1 else 0)
  let s := logEvent Cat.bus 0 0x02 g (fieldOf 32 l.net) s
  let s := setMode 0 g ((acirAbort 1 g s).modLp g fun x => { x with engMode := 0 })
  s.modDue g fun x => { x with pause := 1 }

/-- A grant takes effect: the lease is held and the step starts or resumes (R236, R264, R265). -/
def budgetGrant (g : Nat) (s : Device) : Device :=
  let s := s.cset g CH_LEASE_LSTATE (if isBurst (loadType s g) then 4 else 1)
  let s := setMap BUS_PAUSE_MAP_0 BUS_PAUSE_MAP_1 g false s
  let s := setMap BUS_QUEUE_MAP_0 BUS_QUEUE_MAP_1 g false s
  let e := engState s g
  let s := if s.cbit g CH_CTL_OVR then setMode (s.cget g CH_CTL_OVR_MODE) g s else s
  if e = EngSt.wait ∨ e = EngSt.queued ∨ e = EngSt.paused then runStep (s.clk == 0) g s else s

/-- A refusal: a channel waiting to start is queued (R236, R269). -/
def budgetRefuse (g : Nat) (s : Device) : Device :=
  let e := engState s g
  if e = EngSt.wait ∨ e = EngSt.queued then
    let s := setMap BUS_QUEUE_MAP_0 BUS_QUEUE_MAP_1 g true (s.pset BUS_STAT_QUEUE_EVT 1)
    if e = EngSt.wait then traceEvent 12 0 0 g (setEng EngSt.queued g s) else s
  else s

/-- The decision on a channel takes effect (R257). A channel that no longer waits keeps what it does. -/
def decide1 (g : Nat) (s : Device) : Device :=
  let l := (s.ch g).lease
  let s := s.modLease g fun l => { l with decision := 0, late := false }
  let st := leaseSt s g
  let waits := st = 2 ∨ st = 3 ∨ st = 5
  match l.decision with
  | 1 => if waits then budgetGrant g s else s
  | 2 => if leaseHeld s g then budgetPause g s else s
  | 3 => if waits then budgetRefuse g s else s
  | _ => s

/-! The order of one channel's events at a clock (R59): by point, then by acceptance. A decision's point is the slot it is stamped for, its
acceptance the freeze point (DESIGN CHOICE, notes/assumptions/75: the manual does not say when a decision is accepted; a window
accepted on that very clock comes first). -/

/-- The point at which the present slot of a die began. -/
def slotPoint (s : Device) (d : Nat) : Nat := ptOf s d / 2 ^ 28 * 2 ^ 28

/-- The point of the channel's next ACIR event and the clock at which its request was accepted. -/
def acirEventAt (s : Device) (g : Nat) : Option (Nat × Nat) :=
  let a := (s.ch g).acir
  match acirState s g with
  | 1 => some (a.openPt, a.par.since)
  | 2 => some (a.closePt, a.par.since)
  | _ => (acirWaits s g).map fun p => (a.leadPt, p.since)

/-- That event is due, and comes before the decision at the slot. -/
def acirComesFirst (s : Device) (g : Nat) : Bool :=
  match acirEventAt s g with
  | none => false
  | some (p, since) =>
    decide (p ≤ ptOf s (g / 8)) &&
      (decide (p < slotPoint s (g / 8)) || p == slotPoint s (g / 8) && decide (since ≤ (s.ch g).lease.decidedAt))

/-- The next ACIR event of a channel. -/
def acirEvent (g : Nat) (s : Device) : Device :=
  match acirState s g with
  | 1 => acirOpen g s
  | 2 => acirClose g s
  | _ => acirLeadin g s

/-- A decision waits for this clock, the first of a slot, and reaches a die that does not hold over (R257, R440). -/
def decisionDue (s : Device) (g : Nat) : Bool :=
  let l := (s.ch g).lease
  l.decision != 0 && !l.late && !(s.die (g / 8)).link.upSilent && (List.range 16).any (slotBegins s)

/-- An ACIR event of a channel, after a decision that comes before it. -/
def acirInOrder (f : Nat → Device → Device) (g : Nat) (s : Device) : Device :=
  f g (if decisionDue s g && !acirComesFirst s g then decide1 g s else s)

/-- The first clock of a slot on a die: decisions that arrived in time take effect (R257), each in its order among its channel's
events (R59); no decision reaches a die that holds over (R440). -/
def leaseDecision (d : Nat) (s : Device) : Device :=
  if (s.die d).up && (List.range 16).any (slotBegins s) then
    s.each (chansOf d) fun g t =>
      if decisionDue t g then decide1 g (if acirComesFirst t g then acirEvent g t else t) else t
  else s

/-- Decisions reach a die after their stamp: LATE_EVT, and effect at the next frame boundary (R257). -/
def leaseLate (d : Nat) (s : Device) : Device :=
  let any := (chansOf d).any fun g => (s.ch g).lease.decision != 0
  if any then
    (s.pset BUS_STAT_LATE_EVT 1).each (chansOf d) fun g t => t.modLease g fun l => { l with late := l.decision != 0 }
  else s

/-- Late decisions at a frame boundary. -/
def lateBoundary (g : Nat) (s : Device) : Device := if (s.ch g).lease.late then decide1 g s else s

/-! Exits from and entries to RUN. -/

/-- A channel's lease ends without a pause record (R262). -/
def leaseEnd (g : Nat) (s : Device) : Device :=
  (((clearMaps g s).cset g CH_LEASE_LSTATE 0).cset g CH_LEASE_DEMAND 0).modLease g fun _ => .reset

/-- A reference run aborts, or an OPEN is refused, with its code (R223). -/
def runCode (code : Nat) (s : Device) : Device :=
  setCat Cat.tally ((s.pset RUN_STAT_CODE code).pset RUN_STAT_REFUSE_EVT 1)
/-- A run is opening, open or closing. -/
def runLive (s : Device) : Bool := let n := s.pget RUN_STAT_STATE; decide (1 ≤ n ∧ n ≤ 3)
/-- A live run aborts (R223). -/
def runStop (code : Nat) (s : Device) : Device :=
  if runLive s then runCode code ({ s with run := .reset }.pset RUN_STAT_STATE 5) else s

/-- The package leaves RUN: every lease ends, windows abort with code 4, visits abort, and running steps that need
current pause at the next boundary (R117, R124, R182, R262); a reference run aborts with code 7 (R223). -/
def leaveRun (s : Device) : Device :=
  let s := s.each s.chList fun g t =>
    let t := leaseEnd g (acirAbort 4 g t)
    if engState t g = EngSt.running ∧ needsCurrent (curType t g) = true ∧ (t.ch g).due.pause = 0 then
      t.modDue g fun x => { x with pause := 2 }
    else t
  let s := s.each [0x2C, 0x2D, 0x2E, 0x2F, 0x23, 0x24, 0x25] fun o t => t.setReg o 0
  let s := (s.pset BUS_STAT_LEASES 0).pset BUS_STAT_WAITING 0
  runStop 7 (s.each s.dieList benchAbort)

/-- The package enters RUN: each channel whose step needs current waits (R262), and the first visit of each bench is due at the
first frame boundary (R116). -/
def enterRun (s : Device) : Device :=
  let s := s.each s.dieList fun d t => t.modBench d fun b => { b with v0 := none }
  s.each s.chList fun g t =>
    let e := engState t g
    if !hasStep t g || !needsCurrent (curType t g) || (t.ch g).eng.interrupted then t
    else if e = EngSt.running ∨ e = EngSt.paused then leaseWait true g t
    else if e = EngSt.wait ∨ e = EngSt.queued then leaseWait false g t
    else t

/-! The monitor. -/

/-- A state in which the lead die classifies VBUS (R270). -/
def monitored (st : Nat) : Bool := st == Pkg.qualify || st == Pkg.recover || st == Pkg.test

/-- A half-cycle of the line meter (R273). -/
def meterHalf : Nat := 25 * 2 ^ 47

/-- A duration as half-cycles, or as frames in SYNTHETIC, rounded up and saturating (R271, R273). -/
def monDuration (s : Device) (m : Nat) : Nat × Nat :=
  let n := if linePresent s then (m + meterHalf - 1) / meterHalf else (m * 40 + meterHalf - 1) / meterHalf
  (min n 0xFFFF, if linePresent s then 0 else 1)

/-- Change the monitor. -/
def modMon (f : Mon → Mon) (s : Device) : Device := s.modSup fun u => { u with mon := f u.mon }

/-- The event in progress is closed and logged (R271, R272); the wait for FIT starts anew (R273). -/
def monEnd (trunc : Bool) (s : Device) : Device :=
  let c := s.pget BUS_STAT_MON_CLASS
  if c = 0 then s
  else
    let m := s.supply.mon
    let (dur, unit) := monDuration s (m.last - m.first)
    let t := if trunc then 1 else 0
    let s := (((s.pset BUS_MON_LAST_CLASS c).pset BUS_MON_LAST_UNIT unit).pset BUS_MON_LAST_TRUNC t)
    let s := (s.pset BUS_MON_LAST_EXTREME m.extreme).pset BUS_MON_LAST_DURATION dur
    let s := s.pinc (if c = 1 then BUS_MON_CNT_N_SAG else if c = 2 then BUS_MON_CNT_N_SWELL else BUS_MON_CNT_N_INT)
    let s := (s.pset BUS_STAT_MON_EVT 1).pset BUS_STAT_MON_CLASS 0
    let s := modMon (fun m => { m with fitFrom := s.line.meter }) s
    logEvent Cat.bus 0 (2 + c) 0xFF (dur + unit * 2 ^ 16 + t * 2 ^ 17 + m.extreme % 4096 * 2 ^ 18) s

/-- The percentage test of a reading: reading · 100 against percent · VBUS_NOM. -/
def monPct (s : Device) (pct : Nat) : Nat := pct * s.pfrc BUS_NOM_VBUS_NOM

/-- The runs of qualifying readings after one reading (R270). -/
def monRuns (sag int swell inside : Bool) (v at_ : Nat) (m : Mon) : Mon :=
  { m with
    sagRun := if sag then m.sagRun + 1 else 0
    sagFrom := if sag && m.sagRun != 0 then m.sagFrom else at_
    sagExt := if sag && m.sagRun != 0 then min m.sagExt v else v
    intRun := if int then m.intRun + 1 else 0
    swellRun := if swell then m.swellRun + 1 else 0
    swellFrom := if swell && m.swellRun != 0 then m.swellFrom else at_
    swellExt := if swell && m.swellRun != 0 then max m.swellExt v else v
    endRun := if inside then m.endRun + 1 else 0 }

/-- One VBUS reading of the lead die in 10 mV (R270): the event in progress may end, a new one begin, a sag become an
interruption, in this order. -/
def monReading (v : Nat) (s : Device) : Device :=
  if !monitored (pkgState s) then s
  else
    let sagT := s.pfrc BUS_MON_TH_SAG
    let swT := s.pfrc BUS_MON_TH_SWELL
    let hy := s.pfrc BUS_MON_TH_HYST
    let sag := decide (v * 100 < monPct s sagT)
    let int := decide (v * 100 < monPct s (s.pfrc BUS_MON_TH_INT))
    let swell := decide (monPct s swT < v * 100)
    let deb := s.pfrc BUS_NOM_DEB
    let c := s.pget BUS_STAT_MON_CLASS
    let inside := if c = 0 then false
      else if c = 2 then decide (v * 100 < monPct s (swT - hy)) else decide (monPct s (sagT + hy) < v * 100)
    let at_ := s.line.meter
    let s := modMon (fun m =>
      let m := monRuns sag int swell inside v at_ m
      if c = 0 then m
      else if c = 2 then { m with extreme := max m.extreme v, last := if swell then at_ else m.last }
      else { m with extreme := min m.extreme v, last := if sag then at_ else m.last }) s
    let m := s.supply.mon
    let s := if c ≠ 0 ∧ deb ≤ m.endRun then modMon (fun m => { m with endRun := 0 }) (monEnd false s) else s
    let s :=
      if s.pget BUS_STAT_MON_CLASS ≠ 0 then s
      else if sag ∧ deb ≤ m.sagRun then
        modMon (fun m => { m with first := m.sagFrom, last := at_, extreme := m.sagExt, endRun := 0 })
          ((s.pset BUS_STAT_MON_CLASS 1).pset BUS_STAT_FIT 0)
      else if swell ∧ deb ≤ m.swellRun then
        modMon (fun m => { m with first := m.swellFrom, last := at_, extreme := m.swellExt, endRun := 0 })
          ((s.pset BUS_STAT_MON_CLASS 2).pset BUS_STAT_FIT 0)
      else s
    if s.pget BUS_STAT_MON_CLASS = 1 ∧ int = true ∧ deb ≤ m.intRun then s.pset BUS_STAT_MON_CLASS 3 else s

/-- FIT_HC half-cycles, 40 frames each in SYNTHETIC, have passed since the last event and the entry to the state (R273). -/
def fitDue (s : Device) : Bool :=
  decide (s.supply.mon.fitFrom + s.pfrc BUS_NOM_FIT_HC * meterHalf ≤ s.line.meter)

/-- FIT_SET (R273). -/
def fitSet (s : Device) : Device :=
  if monitored (pkgState s) && s.pget BUS_STAT_MON_CLASS == 0 && fitDue s then s.pset BUS_STAT_FIT 1 else s

/-- A package state is entered, with what the exits and entries do to leases, to the monitor and to the banks on VBST (R33,
R262, R272, R273, R290). -/
def changeState (st : Nat) (s : Device) : Device :=
  let old := pkgState s
  let s := if old = Pkg.run ∧ st ≠ Pkg.run then leaveRun s else s
  let s := if monitored old then monEnd true s else s
  let s := modMon (fun _ => { Mon.reset with fitFrom := s.line.meter }) (setPkgState st s)
  let at_ := s.now
  let s := (s.pset BUS_STAT_FIT 0).modSup fun u => { u with stateAt := at_ }
  let s := if st = Pkg.handover ∨ st = Pkg.hold then s.modSup (fun u => { u with onStore := true })
    else if st = Pkg.run then s.modSup (fun u => { u with onStore := false }) else s
  if st = Pkg.run ∧ old ≠ Pkg.run then enterRun s else s

/-- BUS_MON_CNT.CLR, which waits for the first freeze point (R267, R269). -/
def busMonClr (data : Word) (s : Device) : Device := if BUS_MON_CNT_CLR.get data = 1 then s.setBusClr true else s

/-! Commands. -/

/-- ACIR_LEADIN_START. -/
def execAcirLeadinStart (g : Ch) (s : State) : Host.Outcome State Fault Refusal :=
  onDie (g.val / 8) s (acirInOrder acirLeadin g)
/-- ACIR_WINDOW_OPEN. -/
def execAcirWindowOpen (g : Ch) (s : State) : Host.Outcome State Fault Refusal :=
  onDie (g.val / 8) s (acirInOrder acirOpen g)
/-- ACIR_WINDOW_CLOSE. -/
def execAcirWindowClose (g : Ch) (s : State) : Host.Outcome State Fault Refusal :=
  onDie (g.val / 8) s (acirInOrder acirClose g)
/-- FREEZE_POINT. -/
def execFreezePoint (slot : Fin 16) (s : State) : Host.Outcome State Fault Refusal := onDev s (freezePoint slot.val)
/-- LEASE_DECISION. -/
def execLeaseDecision (d : Die) (s : State) : Host.Outcome State Fault Refusal := onDie d.val s (leaseDecision d.val)
/-- FIT_SET. -/
def execFitSet (s : State) : Host.Outcome State Fault Refusal := onDev s fitSet
/-- BUS_MON_CLR. -/
def execBusMonClr (data : Word) (s : State) : Host.Outcome State Fault Refusal := onDev s (busMonClr data)

end Sys2Proof.Machine
end

