-- ==== Sys2Proof/Machine/Valve.lean ====
section
/-! DEFINITION. The valve drive (R274 to R295): phases and bank rules, the volley scheduler with its refusals, the store
check, diagnostics, policies, and the commands VALVE_REQ_ON to BOOST_OV, VALVE_BATON_EXPIRY and CLAMP_OT_CLEAR. -/

namespace Sys2Proof.Machine

/-! Phases of R280. -/
namespace Ph
def off : Nat := 0
def pull : Nat := 1
def drop : Nat := 2
def hold : Nat := 3
def release : Nat := 4
def fault : Nat := 5
end Ph

/-- A field of VALVE_STAT of a valve. -/
def vget (s : Device) (v : Nat) (f : Fld .die) : Nat := s.dget (v / 4) (f.at (v % 4))
/-- Set a field of VALVE_STAT. -/
def vset (v : Nat) (f : Fld .die) (x : Nat) (s : Device) : Device := s.dset (v / 4) (f.at (v % 4)) x
/-- VALVE_STAT.PHASE. -/
def phaseOf (s : Device) (v : Nat) : Nat := vget s v VALVE_STAT_PHASE
/-- The valves of a bank. -/
def bankValves (d : Nat) : List Nat := (List.range 4).map (4 * d + ·)
/-- A coil driver. -/
def coilOf (s : Device) (v : Nat) : Coil := ((s.die (v / 4)).coils[v % 4]?).getD .reset
/-- Change a coil driver. -/
def modCoil (v : Nat) (f : Coil → Coil) (s : Device) : Device :=
  s.modDie (v / 4) fun x => { x with coils := x.coils.modify (v % 4) f }

/-- The valve's POLICY in force is KEEP. -/
def keeps (s : Device) (v : Nat) : Bool := VALVE_MODE_POLICY.get (coilOf s v).mode == 1
/-- The phase draws current that a release ends. -/
def energised (p : Nat) : Bool := p == Ph.pull || p == Ph.drop || p == Ph.hold

/-- The bank's node stands on VBST: for a pull-in, and from the hand-over until RUN for a KEEP valve that holds (R281, R290);
a die without its upstream port holds from VBUS (R292). -/
def bankOnVbst (s : Device) (d : Nat) : Bool :=
  (bankValves d).any fun v =>
    phaseOf s v == Ph.pull ||
    (s.supply.onStore && !(s.die d).link.upSilent && keeps s v && (phaseOf s v == Ph.drop || phaseOf s v == Ph.hold))

/-- VALVE_BANK and VBST_NODE follow the phases (R281, R294). -/
def bankRow (d : Nat) (s : Device) : Device :=
  let vb := bankOnVbst s d
  let holds := ((bankValves d).filter fun v => phaseOf s v == Ph.hold).length
  let pulls := (bankValves d).filter fun v => phaseOf s v == Ph.pull
  let src := if vb then 2 else if 0 < holds then 1 else 0
  let s := if s.dget d VALVE_BANK_SRC = src then s else s.modDie d fun x => { x with srcAt := some s.now }
  let s := s.dset d VALVE_BANK_SRC src
  let s := (s.dset d VALVE_BANK_PULLING (if pulls = [] then 0 else 1)).dset d VALVE_BANK_HOLDS holds
  let s := match pulls with
    | v :: _ => s.dset d VALVE_BANK_PULL_K (v % 4)
    | [] => s
  s.each (bankValves d) fun v t => vset v VALVE_STAT_VBST_NODE (if vb && phaseOf t v == Ph.hold then 1 else 0) t

/-- A phase change: VALVE_CFG and VALVE_MODE come into force (R294), the bank follows. -/
def setValvePhase (p v : Nat) (s : Device) : Device :=
  let d := v / 4
  let cfg := s.reg (dieAddr d (0x20 + 4 * (v % 4)))
  let mode := s.reg (dieAddr d (0x21 + 4 * (v % 4)))
  let s := modCoil v (fun c => { c with
    cfg := cfg, mode := mode, reached := false, chopOff := false, chopAt := s.now, weakAt := none }) (vset v VALVE_STAT_PHASE p s)
  bankRow d s

/-! The switches (R274, R280, R281), functions of the phases and of the chopping. -/

/-- While a bank changes its source both high sides are off and the freewheel switch carries the coils (R274); for how long the
manual bounds (R293: 2 µs) and does not fix. -/
def bankInGap (s : Device) (d : Nat) : Bool :=
  match (s.die d).srcAt with
  | some t => ballsLive s d && !(s.die d).husk && decide (s.now < t + 1 + Config.bankGap % 40)
  | none => false

/-- The valves of a bank in HOLD. -/
def holders (s : Device) (d : Nat) : List Nat := (bankValves d).filter fun v => phaseOf s v == Ph.hold

/-- One valve holds alone from VBUS: its low side stays on and the high side chops (R281). -/
def chopsHigh (s : Device) (d : Nat) : Bool := s.dget d VALVE_BANK_SRC == 1 && (holders s d).length == 1

/-- The high side from VBUS onto the bank node is on (R281). -/
def vbusSide (s : Device) (d : Nat) : Bool :=
  s.dget d VALVE_BANK_SRC == 1 && !bankInGap s d && !(chopsHigh s d && (holders s d).any fun v => (coilOf s v).chopOff)
/-- The high side from VBST is on (R281). -/
def vbstSide (s : Device) (d : Nat) : Bool := s.dget d VALVE_BANK_SRC == 2 && !bankInGap s d
/-- The bank freewheel switch is on (R274, R281). -/
def freewheel (s : Device) (d : Nat) : Bool :=
  bankInGap s d || chopsHigh s d && (holders s d).any fun v => (coilOf s v).chopOff
/-- The low side of a valve is on (R280, R281). -/
def lowSide (s : Device) (v : Nat) : Bool :=
  let p := phaseOf s v
  p == Ph.pull && !(coilOf s v).chopOff || p == Ph.hold && (chopsHigh s (v / 4) || !(coilOf s v).chopOff)
/-- The recirculation switch of a valve is closed: against its own chopping, and for the slow decay of an overheated clamp
(R280, R281, R288). -/
def recirculates (s : Device) (v : Nat) : Bool :=
  let p := phaseOf s v
  (p == Ph.pull || p == Ph.hold) && !lowSide s v || (p == Ph.drop || p == Ph.release) && s.dbit (v / 4) VALVE_BANK_CLAMP_OT

/-! Batons (R279). -/

/-- VBST_STAT.GRANTS and BATON_STAT.BANK_HELD follow the batons. -/
def valveBatons (s : Device) : Device :=
  let held := (List.range 8).foldl (fun a d => a + (if ((s.bankAt[d]?).getD none).isSome then 2 ^ d else 0)) 0
  (s.pset VBST_STAT_GRANTS s.grants.length).pset BATON_STAT_BANK_HELD held

/-- A pull-in ends: it gives its grant and its bank's baton back (R284). -/
def pullFree (v : Nat) (s : Device) : Device :=
  let at_ := s.now
  let s := s.modDie (v / 4) fun x => { x with pullEndAt := some at_ }
  valveBatons ((s.setGrants (s.grants.filter fun p => p.1 != v)).setBanks (s.bankAt.set (v / 4) none))

/-- Release a valve; a pull-in in progress ends (R280). -/
def releaseValve (latched : Bool) (v : Nat) (s : Device) : Device :=
  let p := phaseOf s v
  let s := if p = Ph.pull then pullFree v s else s
  setValvePhase Ph.release v (modCoil v (fun c => { c with latched := latched, seat := none }) s)

/-! Requests. -/

/-- Requests in the order of R59: by point, then by acceptance. -/
def vreqBefore (a b : VReq) : Bool := decide (a.pt < b.pt) || (a.pt == b.pt && decide (a.order < b.order))

/-- PENDING and QUEUED follow the requests of a bank. -/
def bankPending (d : Nat) (s : Device) : Device :=
  let l := s.vreqs.filter fun r => r.valve / 4 == d
  if s.nDies ≤ d then s
  else
    let s := s.dset d VALVE_BANK_QUEUED l.length
    s.each (bankValves d) fun v t => vset v VALVE_STAT_PENDING (if l.any fun r => r.valve == v && r.on then 1 else 0) t

/-- Take a request out of the scheduler. -/
def vreqDrop (r : VReq) (s : Device) : Device :=
  bankPending (r.valve / 4) { s with vreqs := s.vreqs.filter fun x => x.order != r.order }

/-- Change a request. -/
def vreqMod (r : VReq) (f : VReq → VReq) (s : Device) : Device :=
  { s with vreqs := s.vreqs.map fun x => if x.order = r.order then f x else x }

/-- The die of a valve takes no request: absent, in husk, recovering or benched out (R285 code 11). -/
def valveAbsent (s : Device) (v : Nat) : Bool :=
  let d := v / 4
  let x := s.die d
  decide (s.nDies ≤ d) || !x.up || x.husk || s.pins.huskAll || x.recov.active || x.recov.benched || x.link.badIndex

/-- A refusal (R285): its flags and counts at the valve, but none for code 11; a code other than 9 raises VALVE with an
entry that carries the angle of the point. A re-seat's engine learns of it (R246). -/
def valveRefuse (code v pt : Nat) (seat : Option Nat) (s : Device) : Device :=
  let d := v / 4
  let s := if code = 11 ∨ s.nDies ≤ d ∨ (s.die d).up = false then s
    else
      let s := (vset v VALVE_STAT_REF_CODE code (vset v VALVE_STAT_REFUSED 1 s)).dinc d VALVE_CNT_REFUSALS
      if code = 6 then (vset v VALVE_STAT_BOOST_NR 1 s).pset VBST_STAT_NR_EVT 1
      else if code = 7 then vset v VALVE_STAT_STORE_LOW 1 s
      else s
  let s := if code = 9 then s else logEvent Cat.valve 0 code v (pt % 2 ^ 32) s
  match seat with
  | some g => reseatRefused g s
  | none => s

/-- Refuse a pending request. -/
def vreqRefuse (code : Nat) (r : VReq) (s : Device) : Device := valveRefuse code r.valve r.pt r.seatCh (vreqDrop r s)

/-- A step engine's phase after its valve request was carried out (R246). -/
def seatDone (seat : Option Nat) (p : Seat) (s : Device) : Device :=
  match seat with
  | some g => if engState s g = EngSt.reseat then s.modEng g fun e => { e with seat := p, seatAt := s.now } else s
  | none => s

/-- The states in which the scheduler accepts requests (R289). -/
def valveStateOk (st : Nat) : Bool :=
  st == Pkg.qualify || st == Pkg.run || st == Pkg.hold || st == Pkg.recover || st == Pkg.test

/-- The lowest code that refuses a request at its acceptance; 0 when it is accepted (R285). -/
def acceptCode (s : Device) (v : Nat) (on : Bool) : Nat :=
  let l := s.vreqs.filter fun r => r.valve / 4 == v / 4
  if !valveStateOk (pkgState s) then 1
  else if s.nDies ≤ v / 4 ∨ (s.die (v / 4)).up = false then 11
  else if s.dget (v / 4) (VALVE_MODE_EN.at (4 * (v % 4))) = 0 then 2
  else if 8 ≤ l.length then 3
  else if on && l.any (fun r => r.valve == v && r.on) then 4
  else if on && phaseOf s v == Ph.fault then 8
  else if valveAbsent s v then 11
  else 0

/-- A request reaches the scheduler with its point (R282, R283): it executes no earlier than 64 clocks on. -/
def valveAccept (v : Nat) (on : Bool) (pt : Nat) (seat : Option Nat) (s : Device) : Device :=
  let code := acceptCode s v on
  if code ≠ 0 then valveRefuse code v pt seat s
  else
    let r : VReq := { valve := v, on := on, pt := pt, order := s.vorder, due := false, deferred := false, seatCh := seat, acceptAt := s.now }
    bankPending (v / 4) { s with vreqs := s.vreqs ++ [r], vorder := s.vorder + 1 }

/-- VALVE_AT as the lead die holds it: its own word, or its shadow of another die's (R27, R282). -/
def valveAt (s : Device) (v : Nat) : Nat :=
  let a := dieAddr (v / 4) (0x23 + 4 * (v % 4))
  (if v / 4 = 0 then s.reg a else rfGet s.shadow a).toNat

/-- A host request (R282). -/
def valveReq (v : Nat) (on now : Bool) (s : Device) : Device :=
  valveAccept v on (if now then linePt s + 0x800000 else resolveAngle (linePt s) (valveAt s v)) none s

/-- A re-seat request of a step engine, for the channel's next slot (R246, R282). -/
def valveSeatReq (g : Nat) (on : Bool) (s : Device) : Device :=
  valveAccept (s.cget g CH_SEAT_VALVE) on (resolveAngle (linePt s) (slotOf s g * 2 ^ 28)) (some g) s

/-! Pull-ins. -/

/-- IPEAK in force. -/
def ipeakOf (s : Device) (v : Nat) : Nat := VALVE_CFG_IPEAK.get (coilOf s v).cfg
/-- TPULL in force, in clocks. -/
def tpullClocks (s : Device) (v : Nat) : Nat := VALVE_CFG_TPULL.get (coilOf s v).cfg * 2048

/-- The settings a pull-in of the valve would start with. -/
def startCfg (s : Device) (v : Nat) : Word := s.reg (dieAddr (v / 4) (0x20 + 4 * (v % 4)))

/-- The store check of R286, exact: e_burst is SET · IPEAK · TPULL / 1,600 mJ. -/
def storeCheck (s : Device) (v : Nat) : Bool :=
  let set : Nat := s.pget VBST_CFG_SET
  let pulls := (List.range (4 * s.nDies)).filter fun v => phaseOf s v == Ph.pull
  let run : Nat := pulls.foldl (fun a v => a + ipeakOf s v * (tpullClocks s v - (s.now - (coilOf s v).pullAt))) 0
  let need : Nat := VALVE_CFG_IPEAK.get (startCfg s v) * VALVE_CFG_TPULL.get (startCfg s v) * 2048
  decide (set * (run + need) + s.pfrc STORE_RES_RESERVE * 1600 * 2048 ≤ (s.reg 0x49).toNat * 1600 * 2048)

/-- Condition 1 of R284. -/
def bankFree (s : Device) (r : VReq) : Bool :=
  !(bankValves (r.valve / 4)).any (fun v => phaseOf s v == Ph.pull) && ((s.bankAt[r.valve / 4]?).getD none).isNone &&
  !s.vreqs.any fun x => x.on && x.valve / 4 == r.valve / 4 && vreqBefore x r
/-- Condition 2. -/
def grantFree (s : Device) : Bool := decide (s.grants.length < s.pget VBST_SCHED_MAXPULL)
/-- Condition 3. -/
def boostReady (s : Device) : Bool := s.pbit VBST_STAT_READY_ST
/-- Condition 4. -/
def clampCool (s : Device) (r : VReq) : Bool := !s.dbit (r.valve / 4) VALVE_BANK_CLAMP_OT
/-- The store check applies (R286). -/
def storeApplies (s : Device) (v : Nat) : Bool :=
  pkgState s == Pkg.hold || s.dget (v / 4) (VALVE_MODE_POLICY.at (4 * (v % 4))) == 1

/-- The code of a refusal at the slip limit; 0 when nothing holds the pull-in back (R285). -/
def slipCode (s : Device) (r : VReq) : Nat :=
  if !(bankFree s r && grantFree s) then 5
  else if !boostReady s then 6
  else if !clampCool s r then 10
  else 0

/-- A pull-in starts (R279, R280, R284). -/
def pullStart (r : VReq) (s : Device) : Device :=
  let v := r.valve
  let s := setValvePhase Ph.pull v (vreqDrop r s)
  let s := modCoil v (fun c => { c with pullAt := s.now, latched := false, seat := r.seatCh }) s
  valveBatons ((s.setGrants (s.grants ++ [(v, s.now)])).setBanks (s.bankAt.set (v / 4) (some s.now)))

/-- An ON whose execution clock has come: it starts, completes without action, is refused or is deferred (R282, R284,
R290). -/
def onDue (r : VReq) (s : Device) : Device :=
  let v := r.valve
  let st := pkgState s
  let p := phaseOf s v
  let keep := s.dget (v / 4) (VALVE_MODE_POLICY.at (4 * (v % 4))) == 1
  if energised p then seatDone r.seatCh .settle (vreqDrop r s)
  else if p = Ph.fault ∨ (coilOf s v).latched = true then vreqRefuse 8 r s
  else if (st = Pkg.handover ∨ st = Pkg.hold) ∧ keep = false then vreqRefuse 1 r s
  else if st = Pkg.handover then vreqMod r (fun x => { x with due := true }) s
  else
    let code := slipCode s r
    if code = 0 then (if storeApplies s v && !storeCheck s v then vreqRefuse 7 r s else pullStart r s)
    else if s.pget VBST_SCHED_SLIP = 0 then vreqRefuse code r s
    else if r.deferred then s
    else (vreqMod r (fun x => { x with due := true, deferred := true }) s).dinc (v / 4) VALVE_CNT_DEFERRALS

/-- The earliest request of a valve that a test picks. -/
def firstReq (s : Device) (v : Nat) (p : VReq → Bool) : Option VReq :=
  (s.vreqs.filter fun r => r.valve == v && p r).foldl (fun a r =>
    match a with
    | some b => if vreqBefore r b then some r else some b
    | none => some r) none

/-- An OFF takes effect (R282): a pending ON of the valve is cancelled with code 9. -/
def offDue (r : VReq) (s : Device) : Device :=
  let v := r.valve
  let s := vreqDrop r s
  let s := match firstReq s v (·.on) with
    | some o => vreqRefuse 9 o s
    | none => s
  let s := if energised (phaseOf s v) then releaseValve false v s else s
  seatDone r.seatCh .off s

/-- While a die's upstream port is silent no decision reaches it (R292). -/
def decisionsReach (s : Device) (v : Nat) : Bool := !(s.die (v / 4)).link.upSilent

/-- The execution clock of a request has come: that of its point, and the 64th after its acceptance (R57, R283). -/
def vreqReady (s : Device) (r : VReq) : Bool := !r.due && decide (r.pt ≤ linePt s) && s.passed r.acceptAt 64

/-- VALVE_EVENT: the execution clock of the valve's earliest request of a kind; the requests of a bank that are due take
effect in the order of R59 (R283). -/
def valveEvent (v : Nat) (on : Bool) (s : Device) : Device :=
  if !decisionsReach s v then s
  else
    match firstReq s v (fun r => r.on == on && !r.due) with
    | none => s
    | some r =>
      if !vreqReady s r || s.vreqs.any (fun x => x.valve / 4 == v / 4 && vreqReady s x && vreqBefore x r) then s
      else if on then onDue r s else offDue r s

/-- PULL_IN_START: a due pull-in of the valve starts once its conditions hold, in a bank that another's end has freed on the
following clock (R284). -/
def pullInStart (v : Nat) (s : Device) : Device :=
  if !decisionsReach s v || decide ((s.die (v / 4)).pullEndAt = some s.now) then s
  else
    match firstReq s v (fun r => r.on && r.due) with
    | none => s
    | some r => onDue r s

/-- VALVE_SLIP_LIMIT: at its point plus SLIP slots a deferred pull-in is refused with the code of what holds it back (R284,
R285). -/
def valveSlip (v : Nat) (s : Device) : Device :=
  match firstReq s v (fun r => r.on && r.deferred) with
  | none => s
  | some r =>
    if slipCode s r = 0 ∨ linePt s < r.pt + s.pget VBST_SCHED_SLIP * 2 ^ 28 then s else vreqRefuse (slipCode s r) r s

/-- PULL_END: TPULL × 2,048 clocks after its start the valve drops, and the bank is free (R280). -/
def pullEnd (d : Nat) (s : Device) : Device :=
  match (bankValves d).find? fun v => phaseOf s v == Ph.pull with
  | none => s
  | some v =>
    let seat := (coilOf s v).seat
    if !s.passed (coilOf s v).pullAt (tpullClocks s v) then s
    else seatDone seat .settle (modCoil v (fun c => { c with seat := none }) (setValvePhase Ph.drop v (pullFree v s)))

/-- DROP_TO_HOLD: the current is at or below IHOLD (R280). -/
def dropToHold (v : Nat) (s : Device) : Device :=
  if phaseOf s v = Ph.drop then
    let hold := VALVE_CFG_IHOLD.get (coilOf s v).cfg * 20 / 25
    setValvePhase Ph.hold v (vset v VALVE_STAT_IMEAS (min (vget s v VALVE_STAT_IMEAS) hold) s)
  else s

/-- A valve leaves FAULT when its latched diagnostics are all clear (R288). -/
def valveCleared (v : Nat) (s : Device) : Device :=
  if phaseOf s v = Ph.fault ∧ vget s v VALVE_STAT_OPEN = 0 ∧ vget s v VALVE_STAT_SHORT = 0 ∧ vget s v VALVE_STAT_SLOW = 0 then
    setValvePhase Ph.off v (modCoil v (fun c => { c with latched := false }) s)
  else s

/-- RELEASE_TO_OFF: the current is below 20 mA (R280); a FAULT whose diagnostics the host has cleared meanwhile ends at once. -/
def releaseToOff (v : Nat) (s : Device) : Device :=
  if phaseOf s v = Ph.release then
    valveCleared v (vset v VALVE_STAT_IMEAS 0 (setValvePhase (if (coilOf s v).latched then Ph.fault else Ph.off) v s))
  else s

/-- The current target of a phase in mA: IPEAK in PULL, IHOLD in HOLD, none elsewhere (R280). -/
def chopTarget (s : Device) (v : Nat) : Option Nat :=
  if phaseOf s v = Ph.pull then some (ipeakOf s v * 50)
  else if phaseOf s v = Ph.hold then some (VALVE_CFG_IHOLD.get (coilOf s v).cfg * 20) else none

/-- The regulating switch after a measurement of i mA (R280): a pull-in regulates once it has reached IPEAK; every 1,024 clocks
the switch turns on, and it turns off at the target plus 1/16. -/
def chopStep (now i target : Nat) (pull : Bool) (c : Coil) : Coil :=
  let reached := c.reached || decide (target ≤ i)
  let begins := decide (c.chopAt + 1024 ≤ now) || (pull && reached && !c.reached)
  let beyond := decide (target * 17 ≤ i * 16)
  { c with reached := reached, chopAt := if begins then now else c.chopAt
           chopOff := beyond || (c.chopOff && !begins)
           weakAt := if pull || beyond || (c.chopOff && !begins) || decide (target ≤ 2 * i) then none
             else match c.weakAt with | some t => some t | none => some now }

/-- CHOP_PERIOD: the measured coil current in 25 mA units, saturating, and what it does to the regulating switch (R280, R281,
R294). -/
def chopPeriod (v imeas : Nat) (s : Device) : Device :=
  let p := phaseOf s v
  if p = Ph.off ∨ p = Ph.fault then s
  else
    let s := vset v VALVE_STAT_IMEAS (min imeas 255) s
    match chopTarget s v with
    | some t => modCoil v (chopStep s.now (imeas * 25) t (p == Ph.pull)) s
    | none => s

/-! Diagnostics (R288). -/

/-- A latching diagnostic: the flag with its interrupt and entry on a change, then the release into FAULT. -/
def valveDiag (f : Fld .die) (code v : Nat) (s : Device) : Device :=
  let data := vget s v VALVE_STAT_IMEAS + phaseOf s v * 256
  let s := if vget s v f = 1 then s else logEvent Cat.valve (v / 4) code v data (vset v f 1 s)
  if phaseOf s v = Ph.fault then s else releaseValve true v s

/-- OPEN: below 100 mA 100 µs after the start of a pull-in, or below IHOLD / 2 for 2 ms in HOLD with the low side on. -/
def openNow (s : Device) (v : Nat) : Bool :=
  if phaseOf s v = Ph.pull then s.passed (coilOf s v).pullAt 2048 && decide (vget s v VALVE_STAT_IMEAS < 4)
  else if phaseOf s v = Ph.hold then (match (coilOf s v).weakAt with | some t => s.passed t (msClocks 2) | none => false)
  else false
/-- OPEN is watched in PULL and in HOLD. -/
def valveOpen (v : Nat) (s : Device) : Device := if openNow s v then valveDiag VALVE_STAT_OPEN 0x11 v s else s
/-- SHORT is watched in any phase. -/
def valveShort (v : Nat) (s : Device) : Device := valveDiag VALVE_STAT_SHORT 0x12 v s
/-- SLOW: a pull-in has not reached IPEAK TREACH × 2,048 clocks after its start. -/
def valveSlow (v : Nat) (s : Device) : Device :=
  if phaseOf s v = Ph.pull ∧ (coilOf s v).reached = false ∧
      s.passed (coilOf s v).pullAt (VALVE_CFG_TREACH.get (coilOf s v).cfg * 2048) = true then valveDiag VALVE_STAT_SLOW 0x13 v s else s

/-- CLAMP_OT of a bank. -/
def clampOt (d : Nat) (s : Device) : Device :=
  if s.dbit d VALVE_BANK_CLAMP_OT then s else logEvent Cat.valve d 0x14 (4 * d) 0 (s.dset d VALVE_BANK_CLAMP_OT 1)
/-- The clamp has cooled. -/
def clampOtClear (d : Nat) (s : Device) : Device := s.dset d VALVE_BANK_CLAMP_OT 0

/-- STORE_RELEASE: in HOLD below the reserve, the highest holding KEEP valve is released, one in a frame (R287). -/
def storeRelease (s : Device) : Device :=
  if pkgState s = Pkg.hold ∧ s.supply.relFrame ≠ some s.frame ∧ (s.reg 0x49).toNat < s.pfrc STORE_RES_RESERVE then
    match ((List.range (4 * s.nDies)).filter fun v => phaseOf s v == Ph.hold && keeps s v && decisionsReach s v).getLast? with
    | none => s
    | some v =>
      let f := s.frame
      let s := s.modSup fun u => { u with relFrame := some f }
      releaseValve false v (logEvent Cat.valve (v / 4) 0x16 v (s.reg 0x49).toNat (vset v VALVE_STAT_STORE_LOW 1 s))
  else s

/-- BOOST_OV: VBST above VBST_SET + 5 V (R277). -/
def boostOv (s : Device) : Device := (s.pset VBST_STAT_OV 1).pset VBST_STAT_OV_EVT 1

/-- BSTG may switch: enabled, no overvoltage, the lead die out of husk (R277, R29). -/
def boostOn (s : Device) : Bool :=
  ballsLive s 0 && !(s.die 0).husk && s.pbit VBST_CFG_BOOST_EN && !s.pbit VBST_STAT_OV

/-- The boost's peak limit in mV at BSTCS: from 0 to CS over the 4 frames after BOOST_EN became 1 (R277; DESIGN CHOICE,
notes/assumptions/64: linearly). -/
def boostPeak (s : Device) : Nat :=
  if boostOn s then s.pget VBST_ILIM_CS * min (s.now - s.supply.boostAt) 20480 / 20480 else 0

/-- A new VBST_CFG stands: BOOST_EN's change to 1 begins the soft start (R277). -/
def boostWritten (was : Bool) (s : Device) : Device :=
  if s.pbit VBST_CFG_BOOST_EN && !was then s.modSup fun u => { u with boostAt := s.now } else s

/-- A bank baton or a VBST grant expires 25 ms after it was granted (R279, R433, R434). -/
def valveBatonExpiry (b : ValveBaton) (s : Device) : Device :=
  match b with
  | .bank d =>
    if (match (s.bankAt[d.val]?).getD none with | some t => s.passed t (msClocks 25) | none => false) then
      logEvent Cat.link 0 0x0B d.val 2 (valveBatons ((s.setBanks (s.bankAt.set d.val none)).pset BATON_STAT_BANK_EXP_EVT 1))
    else s
  | .vbst v =>
    if s.grants.any fun p => p.1 == v.val && s.passed p.2 (msClocks 25) then
      logEvent Cat.link 0 0x0B (v.val / 4) 3 (valveBatons
        ((s.setGrants (s.grants.filter fun p => p.1 != v.val)).pset BATON_STAT_VBST_EXP_EVT 1))
    else s

/-! Writes, states and resets. -/

/-- The clamp is too low for VBST_SET (R276). -/
def clampBad (set : Nat) (mode : Word) : Bool :=
  let c := VALVE_MODE_CLAMP.get mode
  decide ((if c = 1 then 550 else if c = 2 then 700 else 400) < set + 50)

/-- The test of R276 on one valve: EN stored 0 and CFG_BAD, or CFG_BAD clear. -/
def clampTest (v : Nat) (s : Device) : Device :=
  let a := dieAddr (v / 4) (0x21 + 4 * (v % 4))
  if clampBad (s.pget VBST_CFG_SET) (s.reg a) then
    vset v VALVE_STAT_CFG_BAD 1 (s.setReg a (VALVE_MODE_EN.put 0 (s.reg a)))
  else vset v VALVE_STAT_CFG_BAD 0 s

/-- VALVE_CFG as stored (R294). -/
def valveCfgStored (w : Word) : Word :=
  let w := VALVE_CFG_IPEAK.put (clampNat 2 120 (VALVE_CFG_IPEAK.get w)) (w &&& 0xFFFF7F7F#32)
  let w := VALVE_CFG_IHOLD.put (clampNat 25 100 (VALVE_CFG_IHOLD.get w)) w
  let w := VALVE_CFG_TPULL.put (clampNat 1 200 (VALVE_CFG_TPULL.get w)) w
  VALVE_CFG_TREACH.put (min (VALVE_CFG_TREACH.get w) (VALVE_CFG_TPULL.get w)) w

/-- VALVE_MODE as stored before the clamp test: CLAMP 3 is 0. -/
def valveModeStored (w : Word) : Word :=
  let w := w &&& 0xF#32
  if VALVE_MODE_CLAMP.get w = 3 then VALVE_MODE_CLAMP.put 0 w else w

/-- A write of VALVE_CFG; an idle valve takes it at its next phase change (R294). -/
def valveCfgWrite (v : Nat) (data : Word) (s : Device) : Device :=
  s.setReg (dieAddr (v / 4) (0x20 + 4 * (v % 4))) (valveCfgStored data)
/-- A write of VALVE_MODE with the test of R276. -/
def valveModeWrite (v : Nat) (data : Word) (s : Device) : Device :=
  clampTest v (s.setReg (dieAddr (v / 4) (0x21 + 4 * (v % 4))) (valveModeStored data))
/-- VBST_CFG: ignored when READY is above SET − 1.0 V; a new SET repeats the test of R276 on every valve (R295). -/
def vbstCfgWrite (data : Word) (s : Device) : Device :=
  let w := VBST_CFG_SET.put (clampNat 240 650 (VBST_CFG_SET.get data)) (data &&& 0x83FF03FF#32)
  if VBST_CFG_SET.get w < VBST_CFG_READY.get w + 10 then s
  else boostWritten (s.pbit VBST_CFG_BOOST_EN) ((s.setReg 0x60 w).each (List.range (4 * s.nDies)) clampTest)

/-- Valves act under their policy at a hand-over (R290); no decision reaches a die whose upstream port is silent (R292). -/
def handoverValves (s : Device) : Device :=
  let s := s.each (List.range (4 * s.nDies)) fun v t =>
    if energised (phaseOf t v) && !keeps t v && decisionsReach t v then releaseValve false v t else t
  s.each s.dieList bankRow

/-- The banks' sources follow a change of the package state (R290). -/
def stateValves (s : Device) : Device := s.each s.dieList bankRow

/-- Every valve of a die is released: its main domain stops or it enters husk (R291); its pending requests are refused
with code 11 (R285). The batons stay with the scheduler. -/
def valvesHusk (d : Nat) (s : Device) : Device :=
  let s := s.each (bankValves d) fun v t => if energised (phaseOf t v) then setValvePhase Ph.release v t else t
  (s.vreqs.filter fun r => r.valve / 4 == d).foldl (fun t r => vreqRefuse 11 r t) s

/-- The scheduler starts anew with the lead die: pending requests are discarded (R291). -/
def schedulerStart (s : Device) : Device :=
  let s := valveBatons { s with vreqs := [], grants := [], bankAt := List.replicate 8 none }
  s.each s.dieList bankPending

/-! Commands. -/

/-- A valve command on a die the part contains. -/
def onValve (v : Valve) (s : State) (f : Device → Device) : Host.Outcome State Fault Refusal := onDie (v.val / 4) s f

/-- VALVE_REQ_ON: a request for a valve of an absent die is refused with code 11, no fault (R285). -/
def execValveReqOn (v : Valve) (now : Bool) (s : State) : Host.Outcome State Fault Refusal := onDev s (valveReq v.val true now)
/-- VALVE_REQ_OFF. -/
def execValveReqOff (v : Valve) (now : Bool) (s : State) : Host.Outcome State Fault Refusal :=
  onDev s (valveReq v.val false now)
/-- VALVE_EVENT. -/
def execValveEvent (v : Valve) (on : Bool) (s : State) : Host.Outcome State Fault Refusal := onValve v s (valveEvent v.val on)
/-- PULL_IN_START. -/
def execPullInStart (v : Valve) (s : State) : Host.Outcome State Fault Refusal := onValve v s (pullInStart v.val)
/-- VALVE_SLIP_LIMIT. -/
def execValveSlipLimit (v : Valve) (s : State) : Host.Outcome State Fault Refusal := onValve v s (valveSlip v.val)
/-- PULL_END. -/
def execPullEnd (d : Die) (s : State) : Host.Outcome State Fault Refusal := onDie d.val s (pullEnd d.val)
/-- DROP_TO_HOLD. -/
def execDropToHold (v : Valve) (s : State) : Host.Outcome State Fault Refusal := onValve v s (dropToHold v.val)
/-- RELEASE_TO_OFF. -/
def execReleaseToOff (v : Valve) (s : State) : Host.Outcome State Fault Refusal := onValve v s (releaseToOff v.val)
/-- CHOP_PERIOD. -/
def execChopPeriod (v : Valve) (imeas : Nat) (s : State) : Host.Outcome State Fault Refusal := onValve v s (chopPeriod v.val imeas)
/-- VALVE_OPEN. -/
def execValveOpen (v : Valve) (s : State) : Host.Outcome State Fault Refusal := onValve v s (valveOpen v.val)
/-- VALVE_SHORT. -/
def execValveShort (v : Valve) (s : State) : Host.Outcome State Fault Refusal := onValve v s (valveShort v.val)
/-- VALVE_SLOW. -/
def execValveSlow (v : Valve) (s : State) : Host.Outcome State Fault Refusal := onValve v s (valveSlow v.val)
/-- CLAMP_OT. -/
def execClampOt (d : Die) (s : State) : Host.Outcome State Fault Refusal := onDie d.val s (clampOt d.val)
/-- CLAMP_OT_CLEAR. -/
def execClampOtClear (d : Die) (s : State) : Host.Outcome State Fault Refusal := onDie d.val s (clampOtClear d.val)
/-- STORE_RELEASE. -/
def execStoreRelease (s : State) : Host.Outcome State Fault Refusal := onDev s storeRelease
/-- BOOST_OV. -/
def execBoostOv (s : State) : Host.Outcome State Fault Refusal := onDev s boostOv
/-- VALVE_BATON_EXPIRY. -/
def execValveBatonExpiry (b : ValveBaton) (s : State) : Host.Outcome State Fault Refusal :=
  match b with
  | .bank d => onDie d.val s (valveBatonExpiry b)
  | .vbst v => onDie (v.val / 4) s (valveBatonExpiry b)

end Sys2Proof.Machine
end

