-- ==== Sys2Proof/Machine/Supply.lean ====
section
/-! DEFINITION. Auxiliary rails (R300 to R302), the keeper and its charger (R303 to R305), the store estimate (R306),
thresholds and VBUS supervision (R298, R299), and the commands AUX_*, KEEPER_*, CHARGER_*, SUPPLEMENT, THRESHOLD_WRITE,
VBUS_NOT_GOOD and VBUS_BELOW_RISE. -/

namespace Sys2Proof.Machine

/-! Auxiliary rails: 0 A, 1 B, 2 C. -/

/-- A field of AUX_CFG of a rail. -/
def auxCfg (s : Device) (r : Nat) (f : Fld .pkg) : Nat := s.pget (f.at r)
/-- AUX_CTL.ON of a rail. -/
def auxOnBit (r : Nat) : Fld .pkg := if r = 0 then AUX_CTL_ON_A else if r = 1 then AUX_CTL_ON_B else AUX_CTL_ON_C
/-- A rail is commanded on. -/
def auxOn (s : Device) (r : Nat) : Bool := s.pbit (auxOnBit r)
/-- AUX_STAT.GOOD of a rail. -/
def auxGood (s : Device) (r : Nat) : Bool := (s.pget AUX_STAT_GOOD).testBit r
/-- The OV flag of a rail. -/
def auxOv (r : Nat) : Fld .pkg := if r = 0 then AUX_STAT_OV_A else if r = 1 then AUX_STAT_OV_B else AUX_STAT_OV_C
/-- The UV flag of a rail. -/
def auxUvF (r : Nat) : Fld .pkg := if r = 0 then AUX_STAT_UV_A else if r = 1 then AUX_STAT_UV_B else AUX_STAT_UV_C
/-- The set output of a rail in mV (R300). -/
def auxSet (s : Device) (r : Nat) : Nat := if r = 0 then 3300 else if r = 1 then 5000 else s.pget AUX_CFG_C_VOUT * 100

/-- A rail turns off; it is no longer good, and AUX_C follows AUX_B with DEP_C (R300). -/
def railOff1 (r : Nat) (s : Device) : Device :=
  ((s.pset (auxOnBit r) 0).psetBit AUX_STAT_GOOD r false).modSar 0 fun x => { x with auxRun := x.auxRun.set r 0 }
/-- AUX_B is not good: AUX_C turns off at once (R300). -/
def depC (s : Device) : Device := if auxOn s 2 then (railOff1 2 s).pset AUX_STAT_DEP_C 1 else s
/-- A rail turns off, with its dependant. -/
def railOff (r : Nat) (s : Device) : Device :=
  let s := railOff1 r s
  if r = 1 then depC s else s

/-- A rail can be turned on: no latched OV or UV (R301). -/
def railFree (s : Device) (r : Nat) : Bool := !s.pbit (auxOv r) && !s.pbit (auxUvF r)
/-- A rail turns on. -/
def railOn (r : Nat) (s : Device) : Device :=
  if auxOn s r then s
  else
    let at_ := s.now
    let s := (s.pset (auxOnBit r) 1).modSar 0 fun x => { x with auxRun := x.auxRun.set r 0 }
    s.modSup fun u => { u with auxAt := u.auxAt.set r at_, auxLow := u.auxLow.set r 0, auxWas := u.auxWas.set r false }

/-- Change the sequencer. -/
def modSeq (f : Seq → Seq) (s : Device) : Device := s.modSup fun u => { u with seq := f u.seq }

/-- The position of a rail in the on-sequence, 0 when it takes no part (R302). -/
def onPos (s : Device) (r : Nat) : Nat :=
  let p := auxCfg s r AUX_CFG_A_ON_POS
  let b := auxCfg s 1 AUX_CFG_A_ON_POS
  if r = 2 ∧ p ≠ 0 ∧ b ≠ 0 then max p (b + 1) else p

/-- The next position after p with rails of the sequence, and those rails; AUX_C without a good AUX_B is passed over
with DEP_C where AUX_B has no position (R302). -/
def nextPos (s : Device) (p : Nat) : Option (Nat × List Nat) :=
  (List.range 5).findSome? fun q =>
    let l := s.supply.seq.set.filter fun r => onPos s r == q
    if p < q ∧ l ≠ [] then some (q, l) else none

/-- The sequence ends: SEQ takes its code; code 2 is an on-sequence done. -/
def seqEnd (code : Nat) (s : Device) : Device :=
  modSeq (fun q => { q with kind := 0, pos := 0, rails := [], finished := q.finished || code == 2 }) (s.pset AUX_STAT_SEQ code)

/-- Go on to the next position, or end the on-sequence (R302). -/
def seqNext (s : Device) : Device :=
  match nextPos s s.supply.seq.pos with
  | some (q, l) => modSeq (fun x => { x with pos := q, rails := l, since := s.now }) s
  | none => seqEnd 2 s

/-- The on-sequence goes on once every rail of its position is on and good; a skipped AUX_C counts as good (R302). -/
def seqAdvance (s : Device) : Device :=
  let q := s.supply.seq
  let here := q.set.filter fun r => onPos s r == q.pos
  if q.kind = 1 ∧ q.rails = [] ∧ here.all (fun r => auxGood s r || (r == 2 && !auxOn s 2)) = true then seqNext s else s

/-- The on-sequence for some rails; it replaces one in progress (R302). -/
def seqOn (set : List Nat) (s : Device) : Device :=
  seqNext (modSeq (fun q => { q with kind := 1, pos := 0, rails := [], set := set, finished := false }) (s.pset AUX_STAT_SEQ 1))

/-- The rails of an off-sequence in its order: by rising OFF_POS. -/
def offOrder (s : Device) (set : List Nat) : List Nat := sortBy (fun r => auxCfg s r AUX_CFG_A_OFF_POS) set

/-- The next rail of an off-sequence turns off; the one after it waits for its OFF_DELAY. -/
def seqOffNext (s : Device) : Device :=
  match (s.supply.seq.rails.dropWhile fun r => !auxOn s r) with
  | [] => seqEnd 0 s
  | r :: t => modSeq (fun q => { q with rails := t, since := s.now, wait := auxCfg s r AUX_CFG_A_OFF_DELAY }) (railOff r s)

/-- The off-sequence of some rails: the first turns off at once (R302). -/
def seqOff (set : List Nat) (s : Device) : Device :=
  seqOffNext (modSeq (fun q => { q with kind := 2, pos := 0, rails := offOrder s set, set := set }) (s.pset AUX_STAT_SEQ 3))

/-- Every rail. -/
def allRails : List Nat := [0, 1, 2]

/-- The rails the HOLD entry switches off (R302). -/
def holdRails (s : Device) : List Nat := allRails.filter fun r => auxCfg s r AUX_CFG_A_IN_HOLD == 0

/-- HOLD entry: the off-sequence of the rails with IN_HOLD 0, remembered for the entry to QUALIFY. -/
def seqOffHold (s : Device) : Device :=
  let l := (holdRails s).filter fun r => auxOn s r
  seqOff (holdRails s) (modSeq (fun q => { q with offByHold := l }) s)

/-- The delay the sequence waits for, ms: the least ON_DELAY of the rails of its position, or OFF_DELAY of the rail that
turned off before (R302). -/
def seqWait (s : Device) : Nat :=
  let q := s.supply.seq
  if q.kind = 2 then q.wait else q.rails.foldl (fun a r => min a (auxCfg s r AUX_CFG_A_ON_DELAY)) 255

/-- A delay of the sequence has run out: the rails due turn on together, or the next rail turns off (R302). A rail that
cannot be turned on for its latch aborts the on-sequence. -/
def seqDelay (s : Device) : Device :=
  let q := s.supply.seq
  let d := seqWait s
  if !alive (s.die 0) || !s.passed q.since (msClocks d) then s
  else if q.kind = 2 then seqOffNext s
  else if q.kind = 1 ∧ q.rails ≠ [] then
    let due := q.rails.filter fun r => auxCfg s r AUX_CFG_A_ON_DELAY == d
    let s := modSeq (fun q => { q with rails := q.rails.filter fun r => !due.contains r }) s
    if due.any fun r => !railFree s r then (seqEnd 4 s).pset AUX_STAT_SEQ_FAIL 1
    else
      let s := s.each due fun r t => if r = 2 ∧ auxGood t 1 = false then t.pset AUX_STAT_DEP_C 1 else railOn r t
      seqAdvance s
  else s

/-- A rail latches OV or UV: it turns off, KEEP with an entry, and an on-sequence aborts (R301, R302). -/
def railLatch (ov : Bool) (r mv : Nat) (s : Device) : Device :=
  let f := if ov then auxOv r else auxUvF r
  let was := s.pbit f
  let s := railOff r (s.pset f 1)
  let s := if was then s else logEvent Cat.keep 0 (if ov then 0x02 else 0x03) 0xFF (r + mv * 2 ^ 16) s
  if s.supply.seq.kind = 1 then (seqEnd 4 s).pset AUX_STAT_SEQ_FAIL 1 else s

/-- The code of a rail's latest reading in mV. -/
def railMv (s : Device) (r : Nat) : Nat :=
  let c := nth (s.die 0).sar.codes (3 + 4 * r)
  if r = 2 then c else 2 * c

/-- A reading of a rail (R301): 110 % turns it off; 32 readings within 93 to 107 % make it good, one outside ends that. -/
def railReading (r mv : Nat) (s : Device) : Device :=
  if !auxOn s r then s
  else
    let v := auxSet s r
    if v * 110 < mv * 100 then railLatch true r mv s
    else
      let ok := decide (v * 93 ≤ mv * 100 ∧ mv * 100 ≤ v * 107)
      let n := if ok then nth (s.die 0).sar.auxRun r + 1 else 0
      let was := auxGood s r
      let low := decide (mv * 100 < v * 90)
      let s := (s.modSar 0 fun x => { x with auxRun := x.auxRun.set r (min n 32) }).modSup fun u =>
        { u with
          auxLow := u.auxLow.set r (if low then nth u.auxLow r + 1 else 0)
          auxWas := if 32 ≤ n then u.auxWas.set r true else u.auxWas }
      let s := s.psetBit AUX_STAT_GOOD r (decide (32 ≤ n))
      if !was ∧ 32 ≤ n then seqAdvance s
      else if was ∧ n < 32 ∧ r = 1 then depC s
      else s

/-- AUX_UV: the rail read low for 8 readings, or was not good within 5 ms (R301). -/
def auxUv (r : Nat) (s : Device) : Device :=
  let late := !(s.supply.auxWas[r]?).getD false && s.passed (nth s.supply.auxAt r) (msClocks 5)
  if auxOn s r && (decide (8 ≤ nth s.supply.auxLow r) || late) then railLatch false r (railMv s r) s else s

/-- A host write of ON_A, ON_B and ON_C: single rails at once; AUX_C needs a good AUX_B (R302). -/
def auxOnWrite (data : Word) (s : Device) : Device :=
  s.each allRails fun r t =>
    let on := (auxOnBit r).get data == 1
    if on == auxOn t r then t
    else if !on then railOff r t
    else if !railFree t r then t
    else if r = 2 ∧ auxGood t 1 = false then t.pset AUX_STAT_DEP_C 1
    else railOn r t

/-- A write of AUX_CTL: single rails, then the sequences its bits ask for. -/
def auxCtlWrite (data : Word) (s : Device) : Device :=
  let s := auxOnWrite data s
  let s := if AUX_CTL_SEQ_ON.get data = 1 then seqOn allRails s else s
  if AUX_CTL_SEQ_OFF.get data = 1 then seqOff allRails s else s

/-! VBUS supervision. -/

/-- PGOOD_N is pulled low (R299). -/
def pgoodLow (s : Device) : Bool :=
  ballsLive s 0 && pkgState s != Pkg.cold && pkgState s != Pkg.load && s.pbit PGOOD_CTL_GOOD

/-- The relation of R298 between RISE, FALL and PF_TH, in 0.1 V. -/
def thresholdsOk (rise fall pf : Nat) : Bool := decide (40 ≤ fall ∧ fall ≤ pf ∧ pf < rise ∧ rise ≤ 290 ∧ fall + 10 ≤ rise)

/-- The glean domains take a new RISE (R313). -/
def gleanRise (s : Device) : Device :=
  s.each s.dieList fun d t => t.modGlean d fun x => { x with riseCopy := s.pget PGOOD_CTL_RISE }

/-- A write of PGOOD_CTL or HANDOVER_CTL: ignored whole when the thresholds would break their relation (R298). -/
def thresholdWrite (ho : Bool) (data : Word) (s : Device) : Device :=
  let rise := if ho then s.pget PGOOD_CTL_RISE else PGOOD_CTL_RISE.get data
  let fall := if ho then s.pget PGOOD_CTL_FALL else PGOOD_CTL_FALL.get data
  let pf := if ho then HANDOVER_CTL_PF_TH.get data else s.pget HANDOVER_CTL_PF_TH
  if !thresholdsOk rise fall pf then s
  else if ho then
    let s := (s.pset HANDOVER_CTL_PF_TH pf).pset HANDOVER_CTL_QUAL_UNIT (HANDOVER_CTL_QUAL_UNIT.get data)
    s.pset HANDOVER_CTL_QUAL_TIME (max 1 (HANDOVER_CTL_QUAL_TIME.get data))
  else gleanRise ((s.pset PGOOD_CTL_RISE rise).pset PGOOD_CTL_FALL fall)

/-- VBUS falls below FALL: it stops being good (R298). In ship mode the glean domain takes note: FALL lies at least 1.0 V below
RISE (R316). -/
def vbusNotGood (s : Device) : Device :=
  if (s.die 0).up then s.pset PGOOD_CTL_GOOD 0
  else if (s.die 0).glean.shipLatch then s.modGlean 0 fun g => { g with vbusLow := true }
  else s

/-- The QUAL_TIME count starts at this clock (R311). -/
def qualRestart (s : Device) : Device :=
  let at_ := s.now
  s.modSup fun u => { u with qualAt := at_, qualMeter := s.line.meter }

/-- A sample below RISE: the QUAL_TIME count starts again, and with it LOCK_TMO's (R311, R390). -/
def vbusBelowRise (s : Device) : Device :=
  let at_ := s.now
  (qualRestart s).modSup fun u => { u with lockDone := false, lockFrom := at_ }

/-- QUAL_TIME has passed: in ms, or in cycles of the line meter, on which a cycle without a line counts 20 ms (R311). -/
def qualTimePassed (s : Device) : Bool :=
  let n := s.pfrc HANDOVER_CTL_QUAL_TIME
  if s.pfrc HANDOVER_CTL_QUAL_UNIT = 0 then s.passed s.supply.qualAt (msClocks n)
  else decide (s.supply.qualMeter + 2 * n * meterHalf ≤ s.line.meter)

/-! The keeper. -/

/-- Threshold k of KEEP_TWIN in 2^-20 °C. -/
def keepThreshold (s : Device) (k : Nat) : Int := ((s.frc 0x41).toNat / 2 ^ (8 * k) % 256 : Nat) * 2 ^ 19 - 40 * 2 ^ 20

/-- KEEP_RD.KTEMP in 2^-4 °C. -/
def ktemp (s : Device) : Int := signedOf 16 (s.pget KEEP_RD_KTEMP)
/-- VKEEP in mV. -/
def vkeepMv (s : Device) : Nat := s.pget KEEP_RD_VKEEP_RD

/-- The keeper may discharge (R304). -/
def keepDischarge (s : Device) : Bool :=
  decide (-20 * 16 ≤ ktemp s ∧ ktemp s ≤ 60 * 16) && decide (2500 + 10 * s.pfrc KEEP_JEITA_UV ≤ vkeepMv s)

/-- The measured keeper current, mA. -/
def ikeepMa (s : Device) : Int := signedOf 16 (s.pget KEEP_STAT_IKEEP)

/-- The keeper current is measured anew; what it was counts up to this clock in the frame's mean (R306). -/
def ikeepMeasured (ikeep : Int) (s : Device) : Device :=
  let old := ikeepMa s
  let c := s.clk
  (s.modSup fun u => { u with ikSum := u.ikSum + old * ((c : Int) - u.ikClk), ikClk := c }).pset KEEP_STAT_IKEEP
    (fieldOf 16 (clampSigned 16 ikeep))

/-- The charger's package states (R303). -/
def chargerState (st : Nat) : Bool := st == Pkg.qualify || st == Pkg.run || st == Pkg.recover || st == Pkg.test

/-- The charger runs: a charging state, KEEP_CFG.EN, the keeper present, VBUS good, a package state of R303 and no
supplementing. -/
def chargerRuns (s : Device) : Bool :=
  let c := s.pget KEEP_STAT_CHG
  decide (2 ≤ c ∧ c ≤ 4) && decide (s.pfrc KEEP_CFG_EN = 1) && s.pbit KEEP_STAT_PRESENT && s.pbit PGOOD_CTL_GOOD &&
    chargerState (pkgState s) && !s.pbit KEEP_STAT_SUPPL

/-- The keeper current where what happens carries no measure of it, a free value: negative while the converter supplements,
positive while the charger runs, else the measured value that R306 calls near 0 (R318; DESIGN CHOICE, notes/assumptions/41). -/
def ikeepOpen (s : Device) : Device :=
  let x := Config.freeInt s.free
  let ik := if s.pbit KEEP_STAT_SUPPL then 0 - x % 32768 - 1 else if chargerRuns s then x % 32767 + 1 else x
  (ikeepMeasured ik s).nextFree

/-- The converter starts to supplement VSYS, or stops; the keeper current is another from then on (R297, R318). -/
def supplSet (on : Bool) (s : Device) : Device :=
  if s.pbit KEEP_STAT_SUPPL = on then s else ikeepOpen (s.pset KEEP_STAT_SUPPL (if on then 1 else 0))

/-- Supplementing ends where the keeper may not discharge (R297, R304). -/
def supplCheck (s : Device) : Device := if keepDischarge s then s else supplSet false s

/-- The keeper's band takes a frame's mean temperature (R304). -/
def keepBand (t : Int) (s : Device) : Device :=
  let b := s.pget KEEP_STAT_BAND
  match bandCount b (bandCallBy (keepThreshold s) b t) s.supply.keepBandCand s.supply.keepBandCnt with
  | (b', cand, cnt) => (s.pset KEEP_STAT_BAND b').modSup fun u => { u with keepBandCand := cand, keepBandCnt := cnt }

/-- The keeper's temperature and band at a frame boundary (R304); open or short readings leave the temperature. -/
def keepBoundary (s : Device) : Device :=
  let cs := s.supply.keepNtc
  let ok := cs ≠ [] ∧ cs.all (fun c => decide (32 ≤ c ∧ c ≤ 4064)) = true
  let s := s.modSup fun u => { u with keepNtc := [] }
  if ok then
    let n := cs.length
    let sum := cs.foldl (fun a x => a + ntcTemp x (s.pfrc KEEP_NTC_RNOM * 10) (s.pfrc KEEP_NTC_BETA)) 0
    let t := meanWith (Config.freeBit s.free) sum (n * 2 ^ 16)
    supplCheck (keepBand (sum / (n : Int)) (s.pset KEEP_RD_KTEMP (fieldOf 16 (clampSigned 16 t))).nextFree)
  else s

/-- The termination voltage in force in mV (R303, R304). -/
def vtermMv (s : Device) : Nat :=
  let v := 4000 + 10 * s.pfrc KEEP_CFG_VTERM
  if s.pget KEEP_STAT_BAND = 3 then min v (4000 + 10 * s.pfrc KEEP_JEITA_WARM_VTERM) else v

/-- The state the charger takes (R303) at the present VKEEP and a keeper current in mA. -/
def chargerNext (s : Device) (ikeep : Int) : Nat :=
  let c := s.pget KEEP_STAT_CHG
  let v := vkeepMv s
  let band := s.pget KEEP_STAT_BAND
  if s.pfrc KEEP_CFG_EN = 0 ∨ chargerState (pkgState s) = false then 0
  else if s.pget KEEP_STAT_PRESENT = 0 then 1
  else if s.pget KEEP_STAT_TIMER_FLT = 1 then 7
  else if s.pget PGOOD_CTL_GOOD = 0 ∨ s.pget KEEP_STAT_SUPPL = 1 then c
  else if band = 0 ∨ band = 4 then 6
  else match c with
    | 3 => if vtermMv s ≤ v then 4 else if v < 3000 then 2 else 3
    | 4 => if ikeep < s.pfrc KEEP_CFG_ITERM * 10 ∧ 240000 ≤ s.supply.lowFrames then 5 else 4
    | 5 => if v + 100 ≤ vtermMv s then 3 else 5
    | _ => if v < 3000 then 2 else 3

/-- The current the charger is to give in µA: a tenth of ICHG in PRECHARGE, in FAST ICHG, in band 1 times (COOL + 1)/256;
0 in a state without an action, and where charging is suspended (R297, R303, R304). In TAPER the voltage is constant. -/
def chargeMicroAmp (s : Device) : Nat :=
  let i := s.pfrc KEEP_CFG_ICHG * 10000
  if s.pget PGOOD_CTL_GOOD = 0 ∨ s.pget KEEP_STAT_SUPPL = 1 then 0
  else match s.pget KEEP_STAT_CHG with
    | 2 => i / 10
    | 3 => if s.pget KEEP_STAT_BAND = 1 then i * (s.pfrc KEEP_JEITA_COOL + 1) / 256 else i
    | _ => 0

/-- The charger takes a state; the timers restart at an entry to PRECHARGE from OFF, ABSENT, DONE or FAULT (R303). -/
def chargerEnter (c : Nat) (s : Device) : Device :=
  let old := s.pget KEEP_STAT_CHG
  let s := if c = 5 ∧ old ≠ 5 then s.pset KEEP_STAT_DONE_EVT 1 else s
  let s := if c = 2 ∧ (old = 0 ∨ old = 1 ∨ old = 5 ∨ old = 7) then s.modSup fun u => { u with preFrames := 0, chgFrames := 0 } else s
  s.pset KEEP_STAT_CHG c

/-- CHARGER_STATE_CHANGE: the measured keeper current and the state that follows. -/
def chargerChange (ikeep : Int) (s : Device) : Device :=
  let s := ikeepMeasured ikeep s
  chargerEnter (chargerNext s ikeep) s

/-- The charger's frames at a boundary: its timers stand in TEMP_WAIT, and while charging is suspended; a minute is 240,000
frames (R303). -/
def chargerBoundary (s : Device) : Device :=
  let c := s.pget KEEP_STAT_CHG
  let runs := chargerRuns s
  let low := c == 4 && decide (ikeepMa s < s.pfrc KEEP_CFG_ITERM * 10)
  s.modSup fun u => { u with
    preFrames := u.preFrames + (if runs && c == 2 then 1 else 0)
    chgFrames := u.chgFrames + (if runs then 1 else 0)
    lowFrames := if low then u.lowFrames + 1 else 0 }

/-- A KNTC or VKEEP reading of the keeper's watch: present while KNTC is not open and VKEEP lies between 2.5 V and 4.5 V;
open readings in a row; the latest VKEEP below the termination voltage (R303, R305). -/
def keepWatch (kntc : Bool) (s : Device) : Device :=
  let codes := (s.die 0).sar.codes
  let open_ := decide (4064 < nth codes 19)
  let v := nth codes 15 * 125
  let ok := !open_ && decide (250000 ≤ v ∧ v ≤ 450000)
  let at_ := s.now
  let below := !kntc && decide (v < vtermMv s * 100)
  s.modSup fun u => { u with
    keepFrom := if !ok then none else if kntc && u.keepFrom.isNone then some at_ else u.keepFrom
    keepOpen := if !kntc then u.keepOpen else if open_ then u.keepOpen + 1 else 0
    keepLow := if below then some at_ else u.keepLow }

/-- The keeper counts as present once its readings have shown one for a second (R303). -/
def keeperPresent (s : Device) : Device :=
  if match s.supply.keepFrom with | some t => s.passed t (secClocks 1) | none => false then
    let s := s.pset KEEP_STAT_PRESENT 1
    let s := s.modPins fun p => { p with converter := true }
    ikeepOpen (chargerEnter (chargerNext s (ikeepMa s)) s)
  else s

/-- A charger timer has run out: FAULT (R303). -/
def chargerTimeout (s : Device) : Device :=
  let c := s.pget KEEP_STAT_CHG
  let u := s.supply
  if c = 2 ∧ s.pfrc KEEP_TIMER_PRE * 240000 ≤ u.preFrames ∨ (2 ≤ c ∧ c ≤ 4) ∧ s.pfrc KEEP_TIMER_FAST * 2400000 ≤ u.chgFrames then
    ikeepOpen ((s.pset KEEP_STAT_CHG 7).pset KEEP_STAT_TIMER_FLT 1)
  else s

/-- The keeper is gone: 8 open readings of KNTC, or, while the charger runs, VKEEP from below the termination voltage to VTERM +
200 mV within 1 ms (R305). -/
def keeperGone (s : Device) : Bool :=
  let rise := chargerRuns s && decide (4200 + 10 * s.pfrc KEEP_CFG_VTERM ≤ vkeepMv s) &&
    match s.supply.keepLow with | some t => decide (s.now ≤ t + msClocks 1) | none => false
  decide (8 ≤ s.supply.keepOpen) || rise

/-- The keeper is removed (R305). -/
def keeperRemoved (s : Device) : Device :=
  if s.pget KEEP_STAT_PRESENT = 0 ∨ !keeperGone s then s
  else
    let s := ((s.pset KEEP_STAT_PRESENT 0).pset KEEP_STAT_SUPPL 0).pset KEEP_STAT_HOLDUP 0
    let s := s.modPins fun p => { p with converter := false }
    let s := ikeepOpen (s.pset KEEP_STAT_CHG (chargerNext s 0))
    let s := logEvent Cat.keep 0 0x01 0xFF (vkeepMv s) (s.pset KEEP_STAT_ABSENT_EVT 1)
    if s.pfrc KEEP_CFG_POLICY = 1 then s.each s.chList (seqCmd 2) else s

/-- The converter supplements VSYS while the keeper may discharge, or stops (R297). -/
def supplement (on : Bool) (s : Device) : Device :=
  if on && !(s.pbit KEEP_STAT_PRESENT && keepDischarge s) then s else supplSet on s

/-! The store estimate. -/

/-- The sum and number of a die's readings in the frame at some positions. -/
def sarFrame (s : Device) (d : Nat) (ps : List Nat) : Nat × Nat :=
  ps.foldl (fun a p => (a.1 + nth (s.die d).sar.sums p, a.2 + nth (s.die d).sar.cnts p)) (0, 0)

/-- f_t of R306 in quarters. -/
def storeFt (s : Device) : Nat :=
  if !keepDischarge s then 0
  else match s.pget KEEP_STAT_BAND with
    | 0 => 1
    | 1 => 2
    | _ => 4

/-- e_keep in mJ as a numerator and denominator: KCAP · 3600 · soc · f_t (R306). -/
def storeKeep (s : Device) : Nat × Nat :=
  if s.pget KEEP_STAT_PRESENT = 0 then (0, 1)
  else
    let vterm : Int := 4000 + 10 * s.pfrc KEEP_CFG_VTERM
    -- the frame's mean current: over its 5,120 clocks
    let ik := s.supply.ikSum + ikeepMa s * (5120 - (s.supply.ikClk : Int))
    let ocv : Int := (vkeepMv s : Int) * 5120000 - ik * s.pfrc STORE_RES_RINT
    let den := ((vterm - 3300) * 5120000).toNat
    let num := (clampInt 0 den (ocv - 3300 * 5120000)).toNat
    (s.pfrc STORE_CFG_KCAP * 3600 * num * storeFt s, den * 4)

/-- e_cap in mJ from the frame's VSYS readings of 10 mV: 0 below 3.0 V (R306). -/
def storeCap (s : Device) : Nat × Nat :=
  let (sum, n) := sarFrame s 0 [6, 22]
  if n = 0 ∨ sum < 300 * n then (0, 1)
  else (s.pfrc STORE_CFG_CHOLD * 10 * (sum * sum - 90000 * n * n), 2000 * 10000 * n * n)

/-- STORE_EST and HOLDUP at a frame boundary (R306). -/
def storeBoundary (s : Device) : Device :=
  let (cn, cd) := storeCap s
  let (kn, kd) := storeKeep s
  let e := min ((cn * kd + kn * cd) / (cd * kd)) (2 ^ 32 - 1)
  let h := decide (s.pget KEEP_STAT_PRESENT = 1 ∧ 0 < storeFt s ∧ s.pfrc STORE_RES_RESERVE ≤ e)
  ((s.setReg 0x49 (BitVec.ofNat 32 e)).pset KEEP_STAT_HOLDUP (if h then 1 else 0)).modSup fun u => { u with ikSum := 0, ikClk := 0 }

/-- The supply words whose writes wait for the frame boundary come into force (R318). -/
def supplyForce (s : Device) : Device :=
  s.each [0x40, 0x41, 0x42, 0x43, 0x44, 0x47, 0x48, 0x4A, 0x4D, 0x4E] fun o t => t.pforce o

/-! Commands. -/

/-- AUX_SEQ_ON. -/
def execAuxSeqOn (s : State) : Host.Outcome State Fault Refusal := onDev s (seqOn allRails)
/-- AUX_SEQ_OFF. -/
def execAuxSeqOff (s : State) : Host.Outcome State Fault Refusal := onDev s (seqOff allRails)
/-- AUX_ON_WRITE. -/
def execAuxOnWrite (data : Word) (s : State) : Host.Outcome State Fault Refusal := onDev s (auxOnWrite data)
/-- AUX_SEQ_DELAY_EXPIRY. -/
def execAuxSeqDelayExpiry (s : State) : Host.Outcome State Fault Refusal := onDev s seqDelay
/-- The number of a rail. -/
def railNo : Rail → Nat
  | .a => 0
  | .b => 1
  | .c => 2
/-- AUX_UV. -/
def execAuxUv (r : Rail) (s : State) : Host.Outcome State Fault Refusal := onDev s (auxUv (railNo r))
/-- KEEPER_PRESENT. -/
def execKeeperPresent (s : State) : Host.Outcome State Fault Refusal := onDev s keeperPresent
/-- CHARGER_STATE_CHANGE. -/
def execChargerStateChange (ikeep : Int) (s : State) : Host.Outcome State Fault Refusal := onDev s (chargerChange ikeep)
/-- CHARGER_TIMEOUT. -/
def execChargerTimeout (s : State) : Host.Outcome State Fault Refusal := onDev s chargerTimeout
/-- KEEPER_REMOVED. -/
def execKeeperRemoved (s : State) : Host.Outcome State Fault Refusal := onDev s keeperRemoved
/-- SUPPLEMENT. -/
def execSupplement (on : Bool) (s : State) : Host.Outcome State Fault Refusal := onDev s (supplement on)
/-- THRESHOLD_WRITE. -/
def execThresholdWrite (ho : Bool) (data : Word) (s : State) : Host.Outcome State Fault Refusal :=
  onDev s (thresholdWrite ho data)
/-- VBUS_NOT_GOOD. -/
def execVbusNotGood (s : State) : Host.Outcome State Fault Refusal := onDev s vbusNotGood
/-- VBUS_BELOW_RISE. -/
def execVbusBelowRise (s : State) : Host.Outcome State Fault Refusal := onDev s vbusBelowRise

end Sys2Proof.Machine
end

