-- ==== Sys2Proof/Machine/SarConv.lean ====
section
/-! DEFINITION. The housekeeping converter (R113 to R115), the reference choice of a die (R105 to R107), and the
commands SAR_CONVERSION, VREFX_FAIL_SWITCH, VREFX_RETURN_SWITCH and SAR_FAIL. -/

namespace Sys2Proof.Machine

/-- A reading of VBST in 20 mV units on the lead die: BOOST_READY after four readings, OV clears 4 V above SET
(R277, R278). -/
def vbstReading (c : Nat) (s : Device) : Device :=
  let ready := boostReady s
  let rd := s.pget VBST_CFG_READY
  let towards := if ready then decide (c * 20 + 1000 < rd * 100) else decide (rd * 100 ≤ c * 20)
  let n := if towards then (s.die 0).sar.bstRun + 1 else 0
  let s := s.modSar 0 fun x => { x with bstRun := if n = 4 then 0 else n }
  let s := if n = 4 then s.pset VBST_STAT_READY_ST (if ready then 0 else 1) else s
  if s.pget VBST_CFG_SET * 100 + 5000 < c * 20 then boostOv s
  else if c * 20 < s.pget VBST_CFG_SET * 100 + 4000 then s.pset VBST_STAT_OV 0 else s

/-- A reading of VKEEP in 1.25 mV units: KEEP_RD in mV, its rounding open, and UV_CUT (R304, R318). -/
def vkeepReading (c : Nat) (s : Device) : Device :=
  let mv := (meanWith (Config.freeBit s.free) (c * 125) 100).toNat
  let s := (s.pset KEEP_RD_VKEEP_RD mv).nextFree
  keepWatch false (supplCheck (s.pset KEEP_STAT_UV_CUT (if c * 125 < (2500 + 10 * s.pfrc KEEP_JEITA_UV) * 100 then 1 else 0)))

/-- A VREFX check: 4.055 V to 4.137 V at 1.25 mV; while the readings are invalid it fails (R105, R115). -/
def vrefxCheck (c d : Nat) (s : Device) : Device :=
  let ok := decide (3244 ≤ c ∧ c * 125 ≤ 413700) && !s.dbit d BENCH_STAT_SAR_FAIL
  let s := s.modSar d fun x => { x with vxBad := if ok then 0 else x.vxBad + 1, vxOk := if ok then x.vxOk + 1 else 0 }
  s.dset d BENCH_REF_VREFX_BAD (if ok then 0 else 1)

/-- Runs of conversions whose internal zero reads above 8 LSB, and whose internal reference reads more than 1 % from its
trimmed value (R115). -/
def sarSelf (p c d : Nat) (s : Device) : Device :=
  let r := Config.sarReference d
  let off := decide (r < 100 * (if c < r then r - c else c - r))
  s.modSar d fun x => { x with
    zeroRun := if p = 27 then (if 8 < c then x.zeroRun + 1 else 0) else x.zeroRun
    refRun := if p = 30 then (if off then x.refRun + 1 else 0) else x.refRun }

/-- A BTEMP reading in 2^-20 °C; one that reads open or short, or that is marked invalid, is no reading (R191, R115). -/
def btempReading (c d : Nat) (s : Device) : Device :=
  let s := (s.dset d BTEMP_RD_OPEN (if 4064 < c then 1 else 0)).dset d BTEMP_RD_SHORT (if c < 32 then 1 else 0)
  if c < 32 ∨ 4064 < c ∨ s.dbit d BENCH_STAT_SAR_FAIL = true then s
  else
    let t := ntcTemp c (s.dfrc d BTEMP_CFG_RNOM * 10) (s.dfrc d BTEMP_CFG_BETA)
    s.modSar d fun x => { x with btFrame := x.btFrame ++ [t] }

/-- PATH_STAT.INPUT_ON: the input switch conducts while VBUS exceeds VSYS by more than 50 mV and is below 31.5 V, by the
latest readings (R296; DEDUCED: the switch itself is analogue). It holds its current to VSYS_ILIM; whether the current
stands there is for the plant to say, so ILIM_ACT is a free value while the switch conducts (notes/assumptions/65). -/
def inputSwitch (s : Device) : Device :=
  let vb := s.pget PATH_STAT_VBUS_RD
  let on := decide (s.pget PATH_STAT_VSYS_RD + 5 < vb ∧ vb < 3150)
  let s := s.pset PATH_STAT_INPUT_ON (if on then 1 else 0)
  (s.pset PATH_STAT_ILIM_ACT (if on && Config.freeBit s.free then 1 else 0)).nextFree

/-- What the result of a position means on the lead die beside its share of every die. -/
def sarLead (p c : Nat) (s : Device) : Device :=
  if p % 4 = 0 then monReading c (inputSwitch (s.pset PATH_STAT_VBUS_RD c))
  else if p = 6 ∨ p = 22 then inputSwitch (s.pset PATH_STAT_VSYS_RD c)
  else if p = 3 then railReading 0 (2 * c) s
  else if p = 7 then railReading 1 (2 * c) s
  else if p = 11 then railReading 2 c s
  else if p = 15 then vkeepReading c s
  else if p = 19 then keepWatch true (s.modSup fun u => { u with keepNtc := u.keepNtc ++ [c] })
  else if p = 23 then vbstReading c s
  else s

/-- The position whose 20 clocks end at a clock of the frame (R113). -/
def sarPos (clk : Nat) : Nat := (clk / 20 + 31) % 32

/-- A die converts at a position: none at 31, and the inputs of the lead die on it alone (R113). -/
def sarConverts (d p : Nat) : Bool := p != 31 && (d == 0 || p % 4 != 3 || p == 27)

/-- The result of the position whose 20 clocks end now, once (R113). -/
def sarConversion (d code : Nat) (s : Device) : Device :=
  let p := sarPos s.clk
  let at_ := s.now
  if !(s.die d).up || s.clk % 20 != 0 || s.clk == 0 || decide ((s.die d).sar.lastAt = at_) || !sarConverts d p then s
  else
    let c := code % 4096
    let s := s.modSar d fun x => { x with
      pos := (p + 1) % 32, lastAt := at_, codes := x.codes.set p c, sums := x.sums.set p (nth x.sums p + c)
      cnts := x.cnts.set p (nth x.cnts p + 1) }
    let s :=
      if p % 4 = 1 then s.modEng (8 * d + p / 4) fun e => { e with ntc := (c :: e.ntc).take 8 }
      else if p = 10 then btempReading c d s
      else if p = 26 then vrefxCheck c d s
      else if p = 27 ∨ p = 30 then sarSelf p c d s
      else s
    if d = 0 then sarLead p c s else s

/-- The mean of a position's readings in the frame times k / m, its rounding open. -/
def sarMean (s : Device) (i d p k m : Nat) : Nat :=
  let (sum, n) := sarFrame s d [p]
  if n = 0 then 0 else (meanWith (Config.freeBit (s.free + i)) (sum * k) (n * m)).toNat

/-- The ended frame's BTEMP readings join the 4,000 frames of R143; BTEMP_RD shows their mean (R192). -/
def btBoundary (d : Nat) (s : Device) : Device :=
  if !(s.die d).up then s
  else
    let x := (s.die d).sar
    let sum := x.btFrame.foldl (· + ·) 0
    let n := x.btFrame.length
    let s := if n = 0 then s
      else (s.dset d BTEMP_RD_T (fieldOf 16 (clampSigned 16 (meanWith (Config.freeBit s.free) sum (n * 2 ^ 16))))).nextFree
    s.modSar d fun y => { y with btFrame := [], btHist := ((sum, n) :: y.btHist).take 4000 }

/-- The frame's share of the converter at a boundary: DIE_TEMP, VREFX_RD and the lead die's means; BTEMP_CFG
comes into force (R128, R143, R192, R295, R317, R457). -/
def sarBoundary (d : Nat) (s : Device) : Device :=
  if !(s.die d).up then s
  else
    let x := (s.die d).sar
    let has (p : Nat) : Bool := nth x.cnts p != 0
    let s := if has 14 then
        let t := sarMean s 0 d 14 1 1
        (s.dset d DIE_TEMP_TEMP t).dset d DIE_TEMP_TEMP_MAX (max t (s.dget d DIE_TEMP_TEMP_MAX))
      else s
    let s := if has 26 then s.dset d BENCH_REF_VREFX_RD (min (sarMean s 1 d 26 125 10) 65535) else s
    let s := if d = 0 then
        let s := if has 3 then s.pset AUX_A_RD (sarMean s 3 0 3 2 1) else s
        let s := if has 7 then s.pset AUX_B_RD (sarMean s 4 0 7 2 1) else s
        let s := if has 11 then s.pset AUX_C_RD (sarMean s 5 0 11 1 1) else s
        if has 23 then s.pset VBST_STAT_VBST_RD (sarMean s 6 0 23 1 1) else s
      else s
    let s := s.spend 7
    (s.modSar d fun y => { y with
      sums := List.replicate 32 0, cnts := List.replicate 32 0 }).dforce d 0x04

/-! The reference. -/

/-- Eight consecutive failed checks: the die changes to its internal reference at the next boundary (R105). -/
def vrefxFail (d : Nat) (s : Device) : Device :=
  if (s.die d).up && !(s.die d).refInt && !s.dbit d BENCH_REF_MODE && decide (8 ≤ (s.die d).sar.vxBad) then s.modDie d fun x => { x with refDue := some true } else s

/-- 32,000 consecutive passed checks: it changes back (R105). -/
def vrefxReturn (d : Nat) (s : Device) : Device :=
  if (s.die d).up && (s.die d).refInt && !s.dbit d BENCH_REF_MODE && decide (32000 ≤ (s.die d).sar.vxOk) then s.modDie d fun x => { x with refDue := some false } else s

/-- A reference switch at a boundary (R106): REF_RATIO enters or leaves the constants as an epoch of cause bit 4, a visit
aborts, the accuracy class follows (R188). -/
def refBoundary (d : Nat) (s : Device) : Device :=
  match (s.die d).refDue with
  | none => s
  | some int =>
    let ratio := (s.reg (dieAddr d 0x17)).toNat * 2 ^ 10
    let s := s.modDie d fun x => { x with refInt := int, refDue := none, fRef := if int then ratio else x.fRef }
    let s := (s.dset d BENCH_REF_INT (if int then 1 else 0)).dset d BENCH_REF_SW_EVT 1
    let s := if s.dget d DIE_STAT_ACC_CLASS = 2 then s else s.dset d DIE_STAT_ACC_CLASS (if int then 1 else 0)
    let s := logEvent Cat.bench d 0x01 0xFF ((if int then 1 else 0) + s.dget d BENCH_REF_VREFX_RD * 2 ^ 16) s
    let s := s.each (chansOf d) fun g t => t.cset g CH_SENSE_REF_INT (if int then 1 else 0)
    (benchAbort d s).each (chansOf d) (updateConsts 16 true)

/-- Eight bad zero or reference readings: every reading is invalid (R115). -/
def sarFail (d : Nat) (s : Device) : Device :=
  if (s.die d).up && !s.dbit d BENCH_STAT_SAR_FAIL && decide (8 ≤ max (s.die d).sar.zeroRun (s.die d).sar.refRun) then logEvent Cat.bench d 0x04 0xFF 0 (s.dset d BENCH_STAT_SAR_FAIL 1) else s

/-- SAR_CONVERSION. -/
def execSarConversion (d : Die) (code : Nat) (s : State) : Host.Outcome State Fault Refusal :=
  onDie d.val s (sarConversion d.val code)
/-- VREFX_FAIL_SWITCH. -/
def execVrefxFailSwitch (d : Die) (s : State) : Host.Outcome State Fault Refusal := onDie d.val s (vrefxFail d.val)
/-- VREFX_RETURN_SWITCH. -/
def execVrefxReturnSwitch (d : Die) (s : State) : Host.Outcome State Fault Refusal := onDie d.val s (vrefxReturn d.val)
/-- SAR_FAIL. -/
def execSarFail (d : Die) (s : State) : Host.Outcome State Fault Refusal := onDie d.val s (sarFail d.val)

end Sys2Proof.Machine
end

