-- ==== Sys2Proof/Machine/Pulses.lean ====
section
/-! DEFINITION. The pulse outputs PLS_0 to PLS_3 (R207 to R218): the paths of quantum mode, the spreads of rate mode,
scheduling and emission, and the commands PLS_CFG_WRITE, PLS_CLR, PULSE_EMIT, PULSE_END and RATE_PULSE_DUE. -/

namespace Sys2Proof.Machine

/-- An output's state. -/
def pulse (s : Device) (n : Nat) : Pulse := (s.pulses[n]?).getD .reset
/-- A field of PLS_CFG(n) in force (R215). -/
def plsCfg (s : Device) (n : Nat) (f : Fld .pkg) : Nat := f.get (pulse s n).cfg
/-- PLS_K(n) in force. -/
def plsK (s : Device) (n : Nat) : Nat := (pulse s n).quant
/-- The output is enabled. -/
def plsOn (s : Device) (n : Nat) : Bool := plsCfg s n PLS_CFG_EN == 1
/-- It is in rate mode. -/
def plsRate (s : Device) (n : Nat) : Bool := plsCfg s n PLS_CFG_MODE == 1
/-- Change an output's state. -/
def modPulse (n : Nat) (f : Pulse → Pulse) (s : Device) : Device := { s with pulses := s.pulses.modify n f }

/-- The output tracks a channel: the source is that channel, or the package total over the dies of DIES_RUN (R207). -/
def plsCovers (s : Device) (n g : Nat) : Bool :=
  plsOn s n && decide (plsCfg s n PLS_CFG_QTY < 6) && decide (g / 8 < s.nDies) &&
    (if plsCfg s n PLS_CFG_PKG = 1 then (s.pget PKG_STATE_DIES_RUN).testBit (g / 8) else plsCfg s n PLS_CFG_CH == g)

/-- The counts a quantity converts (R207): IN, OUT and net of charge, then of energy. -/
def accQty (q : Nat) (a : Acc) : Int :=
  match q with
  | 0 => a.epqIn
  | 1 => a.epqOut
  | 2 => a.epqIn - a.epqOut
  | 3 => a.epeIn
  | 4 => a.epeOut
  | _ => a.epeIn - a.epeOut

/-- The constant that converts a quantity. -/
def qtyConst (q : Nat) (v : Conv) : Const := if q < 3 then v.kq else v.ke

/-- SIGN negates the quantity (R207). -/
def plsSigned (s : Device) (n : Nat) (x : Int) : Int := if plsCfg s n PLS_CFG_SIGN = 1 then -x else x

/-- The exact change of the signed quantity between two counting states of one epoch: 2^-64 units, in rate mode the
2^-32 units of R145 (R208, R213). -/
def plsDelta (s : Device) (n : Nat) (v : Conv) (a a' : Acc) : Int :=
  let q := plsCfg s n PLS_CFG_QTY
  let k := qtyConst q v
  plsSigned s n
    (if plsRate s n then convFloor (accQty q a') k - convFloor (accQty q a) k
     else (accQty q a' - accQty q a) * k.mant * 2 ^ (64 - k.sh))

/-- An output's residue r lies with a channel's die: quantum mode with a channel source (R208, R216). -/
def plsOwn (s : Device) (n : Nat) : Bool := !plsRate s n && plsCfg s n PLS_CFG_PKG == 0 && decide (plsCfg s n PLS_CFG_QTY < 6)

/-- That die. -/
def plsDie (s : Device) (n : Nat) : Nat := plsCfg s n PLS_CFG_CH / 8

/-- Counts booked outside the path: external bookings (R137) and partial frames reach the outputs at the next boundary, the
partial frame of a die that recovers its own residue at the first boundary after the recovery (R216). -/
def plsBook (late : Bool) (g : Nat) (v : Conv) (a a' : Acc) (s : Device) : Device :=
  s.each (List.range 4) fun n t =>
    let x := plsDelta s n v a a'
    if !plsCovers s n g then t
    else if late && plsOwn s n then modPulse n (fun p => { p with late := p.late + x }) t
    else modPulse n (fun p => { p with b := p.b + x }) t

/-- BACKLOG of an output. -/
def backlog (s : Device) (n : Nat) : Nat := s.pget (PLS_BACKLOG.at (4 * n))

/-- Schedule m pulses due at a clock: those BACKLOG has room for, the first setting BL_EVT; BL_FULL tells that some were
held back (R210, R214). -/
def schedule (n m due : Nat) (s : Device) : Device :=
  let bl := backlog s n
  let put := min m (2 ^ 32 - 1 - bl)
  let s := if put = 0 then s else modPulse n (fun p => { p with due := p.due ++ [(due, put)] }) (s.pset (PLS_BACKLOG.at (4 * n)) (bl + put))
  let s := if bl = 0 ∧ put ≠ 0 then s.pset (PLS_STAT_BL_EVT.at (4 * n)) 1 else s
  if put < m then setCat Cat.tally (s.pset (PLS_STAT_BL_FULL.at (4 * n)) 1) else s

/-- The pulses of m that BACKLOG has room for. -/
def roomFor (s : Device) (n m : Nat) : Nat := min m (2 ^ 32 - 1 - backlog s n)

/-- The quantum q in 2^-64 units. -/
def quantum (s : Device) (n : Nat) : Int := (plsK s n : Int) * 2 ^ 64
/-- The threshold of h (R213). -/
def rateFull : Int := 10 ^ 9 * 2 ^ 32

/-- Whole quanta in r, or whole thresholds in h, become pulses due at a clock; what BACKLOG has no room for stays (R208,
R213, R214). -/
def drain (n due : Nat) (s : Device) : Device :=
  let p := pulse s n
  let m := ((if plsRate s n then p.h / rateFull else p.r / quantum s n)).toNat
  let put := roomFor s n m
  let s' := schedule n m due s
  if plsRate s n then modPulse n (fun p => { p with h := p.h - put * rateFull }) s'
  else modPulse n (fun p => { p with r := p.r - put * quantum s n }) s'

/-- A quotient in 2^-15 units: below one half of a unit the example of R218 shows it rounded down (0.300 reads 9,830); from
there on the manual names no rounding, and a free bit decides (notes/assumptions/41). -/
def resqOf (up : Bool) (x : Int) (q : Nat) : Int := meanWith (up && decide ((q : Int) ≤ 2 * (x % (q : Int)))) x q

/-- PLS_STAT.RESQ shows the residue (R217). -/
def putResq (n : Nat) (s : Device) : Device :=
  let p := pulse s n
  let up := Config.freeBit s.free
  let x := if plsRate s n then resqOf up (p.h * 2 ^ 15) rateFull.toNat else resqOf up (p.r * 2 ^ 15) (quantum s n).toNat
  s.nextFree.pset (PLS_STAT_RESQ.at (4 * n)) (fieldOf 16 (clampSigned 16 x))

/-! Quantum mode at a clock. -/

/-- Crossings already listed in this frame for the sources of a die (R211). -/
def listed (s : Device) (d : Nat) : Nat :=
  ((List.range 4).filter fun n => plsCfg s n PLS_CFG_CH / 8 == d).foldl (fun t n => t + (pulse s n).xs.length) 0

/-- One output follows its channel at a clock: the path, and the crossings, of which a die other than the lead sends at
most 64 per frame with their clocks (R208, R211). -/
def pathClock (n g : Nat) (c e : Int) (s : Device) : Device :=
  let q := plsCfg s n PLS_CFG_QTY
  let k := qtyConst q (s.ch g).conv
  let x := (if q < 3 then c else e) * k.mant * 2 ^ (64 - k.sh)
  let d := plsSigned s n (if q = 1 ∨ q = 4 then -x else x)
  let p := pulse s n
  let a := p.a + d
  let m := ((p.r + a) / quantum s n - p.k).toNat
  let put := if g / 8 = 0 then m else min m (64 - listed s (g / 8))
  modPulse n (fun p => { p with a := a, k := p.k + m, xs := p.xs ++ List.replicate put s.now, lost := p.lost + (m - put) }) s

/-- The outputs in quantum mode that track a channel follow its corrected level c and its energy term (R208). -/
def pulseClock (g : Nat) (c e : Int) (s : Device) : Device :=
  s.each (List.range 4) fun n t =>
    if plsCovers t n g && !plsRate t n && plsCfg t n PLS_CFG_PKG == 0 then pathClock n g c e t else t

/-! Rate mode. -/

/-- h takes the spreads up to a clock: floor((j+1)·e/5120) − floor(j·e/5120) for each of their clocks (R213). -/
def takeSpread (t : Nat) : List (Nat × Int) → Nat → Int → List (Nat × Int) × Nat × Int
  | [], _, h => ([], 0, h)
  | (st, e) :: l, j, h =>
    let n := if t < st then 0 else min (t + 1 - st) 5120
    let h := h + ((n : Int) * e / 5120 - (j : Int) * e / 5120)
    if n = 5120 then takeSpread t l 0 h else ((st, e) :: l, n, h)

/-- h at the present clock, and the pulses its overflows schedule (R213). -/
def rateAdvance (n : Nat) (s : Device) : Device :=
  if plsOn s n && plsRate s n then
    let p := pulse s n
    let (l, j, h) := takeSpread s.now p.spread p.rateJ p.h
    drain n s.now (modPulse n (fun p => { p with spread := l, rateJ := j, h := h }) s)
  else s

/-! The frame boundary. -/

/-- What a channel's booking changes in the signed quantity. -/
def bookDelta (s : Device) (n g : Nat) : Int :=
  if (s.die (g / 8)).up then
    let c := s.ch g
    plsDelta s n c.conv c.acc (c.acc.book s.free (hystOf s g))
  else 0

/-- The frame is booked to the output's direction, or the quantity is a net (R208). -/
def bookedHere (s : Device) (n g : Nat) : Bool :=
  let q := plsCfg s n PLS_CFG_QTY
  let d := bookDir (hystOf s g) (s.ch g).acc
  q == 2 || q == 5 || ((q == 0 || q == 3) && d == .inn) || ((q == 1 || q == 4) && d == .out)

/-- The change of a recovering die's last frame: it reaches r at the first boundary after the recovery (R216). -/
def lateNow (s : Device) (n g : Nat) : Int := if (s.die (g / 8)).recov.active then 0 else (pulse s n).late

/-- While the lead die is down or has no image yet, the channel's die follows its output alone: the whole change stays in r, and
becomes pulses at the first boundary after the load (R208, R209, R216; DESIGN CHOICE, notes/assumptions/48: the manual does not say
where the crossings of that time go). -/
def pathWait (n g : Nat) (s : Device) : Device :=
  let d := bookDelta s n g
  let l := lateNow s n g
  modPulse n (fun p => { p with r := p.r + d + p.b + l, a := 0, k := 0, b := 0, late := p.late - l, xs := [], lost := 0 }) s

/-- A channel source in quantum mode: the frame's path and crossings where it was booked to the direction, then the
boundary bookings (R208). The crossings that a die has listed are scheduled with their clocks though the die has stalled since
(DESIGN CHOICE, notes/assumptions/48: they are taken to have reached the lead die as they arose). -/
def pathBoundary (n g bclk : Nat) (s : Device) : Device :=
  let p := pulse s n
  let here := bookedHere s n g
  let part := bookDelta s n g - (if here then p.a else 0)
  let s :=
    if here then
      let r := roomFor s n p.k
      let s := p.xs.foldl (fun t x => schedule n 1 (x + 6144) t) s
      let s := if p.lost = 0 then s else schedule n p.lost (bclk + 6144) (s.pset (PLS_STAT_ALIGN_LOST.at (4 * n)) 1)
      modPulse n (fun p => { p with r := p.r + p.a - quantum s n * r }) s
    else s
  let l := lateNow s n g
  drain n (bclk + 6144)
    (modPulse n (fun p => { p with r := p.r + part + p.b + l, a := 0, k := 0, b := 0, late := p.late - l, xs := [], lost := 0 }) s)

/-- An output at a boundary, before the channels book their frame (R208, R212, R213). -/
def plsFrame (n bclk : Nat) (s : Device) : Device :=
  if plsOn s n && decide (plsCfg s n PLS_CFG_QTY < 6) then
    let l := s.chList.filter (plsCovers s n)
    let total := l.foldl (fun t g => t + bookDelta s n g) (pulse s n).b
    if plsRate s n then
      modPulse n (fun p => { p with b := 0, spread := p.spread ++ [(bclk + 6144, total * plsK s n)] }) s
    else if plsCfg s n PLS_CFG_PKG = 1 then drain n (bclk + 6144) (modPulse n (fun p => { p with r := p.r + total, b := 0 }) s)
    else s.each l fun g t => pathBoundary n g bclk t
  else s

/-- The source bits of PLS_CFG: CH, QTY, PKG, MODE and SIGN (R215). -/
def plsTag (w : Word) : Nat := w.toNat % 4096

/-- A residue and everything that waits for it returns to 0; BACKLOG stays (R215). -/
def Pulse.restart (p : Pulse) : Pulse := { p with r := 0, h := 0, a := 0, k := 0, b := 0, late := 0, xs := [], lost := 0, spread := [], rateJ := 0 }

/-- POL and OD apply while the output is inactive: its active level is low for either (R215, R217). -/
def plsPolarity (n : Nat) (s : Device) : Device :=
  let low := plsCfg s n PLS_CFG_OD == 1 || plsCfg s n PLS_CFG_POL == 1
  modPulse n (fun p => if p.active then p else { p with low := low }) s

/-- Writes of PLS_CFG, PLS_K and CLR take effect at the boundary (R215); an output that is switched off in rate mode takes
the rest of its spreads into h and holds it there (DESIGN CHOICE: the manual says only that h is frozen). A spread in progress was
formed with the old PLS_CONST and runs out as it is (DESIGN CHOICE, notes/assumptions/48: R215 rescales h alone). -/
def plsConfig (n : Nat) (s : Device) : Device :=
  let old := (pulse s n).cfg
  let new := s.reg (0x80 + 4 * n)
  let k := plsK s n
  let k' := (s.reg (0x81 + 4 * n)).toNat
  let s :=
    if plsTag old ≠ plsTag new then modPulse n Pulse.restart s
    else if k ≠ k' ∧ plsRate s n then modPulse n (fun p => { p with h := p.h * k' / k }) s
    else s
  let s :=
    if PLS_CFG_EN.get old = 1 ∧ PLS_CFG_EN.get new = 0 then
      modPulse n (fun p =>
        let rest := p.spread.foldl (fun t x => t + x.2) 0 - (match p.spread with | [] => 0 | x :: _ => (p.rateJ : Int) * x.2 / 5120)
        { p with h := p.h + rest, spread := [], rateJ := 0 }) s
    else s
  let s :=
    if (pulse s n).clear then
      (modPulse n (fun p => { p.restart with due := [], clear := false }) s).pset (PLS_BACKLOG.at (4 * n)) 0
    else s
  putResq n (plsPolarity n (modPulse n (fun p => { p with cfg := new, quant := k' }) s))

/-- The outputs at a boundary, before the channels book: the boundary clock is that of the frame that starts. -/
def plsBoundary (bclk : Nat) (s : Device) : Device :=
  s.each (List.range 4) fun n t => plsConfig n (plsFrame n bclk (rateAdvance n t))

/-- The outputs at a boundary at which the lead die has none to schedule. -/
def plsWait (s : Device) : Device :=
  s.each (List.range 4) fun n t => if plsOwn t n then t.each (t.chList.filter (plsCovers t n)) (pathWait n) else t

/-- The output goes on through a start of the lead die: the channel's die that follows it stays up (R208, R216). -/
def plsStays (s : Device) (n : Nat) : Bool := plsOwn s n && plsDie s n != 0 && (s.die (plsDie s n)).up

/-- What a start of the lead die leaves of an output: the share of a die that stayed up (R54, R216). -/
def plsFresh (stays : Bool) (p : Pulse) : Pulse :=
  if stays then { Pulse.reset with
    r := p.r, a := p.a, k := p.k, b := p.b, late := p.late, xs := p.xs, lost := p.lost, cfg := p.cfg, quant := p.quant }
  else .reset

/-! Emission. -/

/-- A time of the pulse registers in clocks: round_half_even(x · 20.48) (R210). -/
def plsClocks (x : Nat) : Nat := (roundHalfEven (x * 2048) 100).toNat

/-- The clock of the next leading edge: the later of the pulse's due clock and the previous edge plus w + g (R210). -/
def nextEdge (s : Device) (n : Nat) : Option Nat :=
  let p := pulse s n
  if backlog s n = 0 then none
  else some (max (match p.due with | [] => 0 | x :: _ => x.1) p.nextAt)

/-- One pulse leaves the list of due clocks. -/
def dropDue : List (Nat × Nat) → List (Nat × Nat)
  | [] => []
  | (c, m) :: l => if m ≤ 1 then l else (c, m - 1) :: l

/-- The outputs emit while the lead die's main domain is up after LOAD (R216). -/
def plsLive (s : Device) : Bool := ballsLive s 0 && decide (2 ≤ pkgState s)

/-- The clock of the next leading edge has come. -/
def edgeDue (s : Device) (n : Nat) : Bool := match nextEdge s n with | none => false | some c => decide (c ≤ s.now)

/-- BACKLOG falls from its limit: a pulse that R214 held back is scheduled. Its quantum leaves r, and with it the crossing
that the path of this frame has listed for it. -/
def heldBack (n : Nat) (s : Device) : Device :=
  let p := pulse s n
  if plsRate s n then drain n s.now s
  else if p.r < quantum s n then s
  else
    let q := quantum s n
    modPulse n (fun p => { p with r := p.r - q, k := p.k - 1, xs := p.xs.drop 1, lost := if p.xs = [] then p.lost - 1 else p.lost })
      (schedule n 1 s.now s)

/-- A leading edge at its clock: BACKLOG falls by one, the level lasts w clocks (R210). -/
def pulseEmit (n : Nat) (s : Device) : Device :=
  let p := pulse s n
  if plsLive s && plsOn s n && edgeDue s n && !p.active then
    let full := backlog s n == 2 ^ 32 - 1
    let w := plsClocks (plsCfg s n PLS_CFG_WIDTH)
    let g := plsClocks (plsCfg s n PLS_CFG_GAP)
    let at_ := s.now
    let s := s.pset (PLS_BACKLOG.at (4 * n)) (backlog s n - 1)
    let s := modPulse n (fun p => { p with active := true, endAt := at_ + w, nextAt := at_ + w + g, due := dropDue p.due }) s
    putResq n (if full then heldBack n s else s)
  else s

/-- The level of a PLS ball: true is high; an open-drain output is released while inactive; in husk, and up to the end of LOAD, the
ball is pulled to ground (R216, R475). -/
def plsHigh (s : Device) (n : Nat) : Bool := plsLive s && xor (pulse s n).active (pulse s n).low

/-- A pulse ends after its w clocks (R210). -/
def pulseEnd (n : Nat) (s : Device) : Device :=
  if (pulse s n).active && decide (s.now < (pulse s n).endAt) then s
  else plsPolarity n (modPulse n (fun p => { p with active := false }) s)

/-- The lead die's main domain stops: a pulse in progress is cut and counts as emitted (R216). -/
def plsCut (s : Device) : Device :=
  s.each (List.range 4) fun n t =>
    if (pulse t n).active then (modPulse n (fun p => { p with active := false }) t).pset (PLS_STAT_CUT.at (4 * n)) 1 else t

/-- A die's main domain stops: the crossing lists of its channels are lost; the frame's change has been booked and
reaches r at the next boundary (R216). -/
def plsDieStop (d : Nat) (recovery : Bool) (s : Device) : Device :=
  s.each (List.range 4) fun n t =>
    if plsOn t n && plsCfg t n PLS_CFG_PKG == 0 && plsCfg t n PLS_CFG_CH / 8 == d && !plsRate t n then
      let t := if recovery then t.pset (PLS_STAT_ALIGN_LOST.at (4 * n)) 1 else t
      modPulse n (fun p => { p with a := 0, k := 0, xs := [], lost := 0 }) t
    else t

/-- Channel-block words +0x70 to +0x73: the integer part of r while the output is in quantum mode with this channel as
its source (R218). DESIGN CHOICE (notes/assumptions/48): of a negative r the integer part is its floor, which the manual does not
say. -/
def plsRes (s : Device) (g n : Nat) : Word :=
  if plsCfg s n PLS_CFG_MODE = 0 ∧ plsCfg s n PLS_CFG_PKG = 0 ∧ plsCfg s n PLS_CFG_CH = g ∧ plsCfg s n PLS_CFG_QTY < 6 then
    wordOfInt (clampSigned 32 ((pulse s n).r / 2 ^ 64))
  else 0

/-- PLS_CFG as stored: WIDTH and GAP of 0 are stored as 1; PLS_K of 0 as 1 (R217). -/
def plsStored (k : Bool) (w : Word) : Word :=
  if k then (if w = 0 then 1 else w)
  else
    let w := if PLS_CFG_WIDTH.get w = 0 then PLS_CFG_WIDTH.put 1 w else w
    let w := if PLS_CFG_GAP.get w = 0 then PLS_CFG_GAP.put 1 w else w
    w &&& 0xFFFF7FFF#32

/-- A write of PLS_CFG or PLS_K: it reads back at once and takes effect at the next boundary (R215). -/
def plsCfgWrite (n : Nat) (k : Bool) (data : Word) (s : Device) : Device :=
  s.setReg (0x80 + 4 * n + (if k then 1 else 0)) (plsStored k data)

/-- PLS_STAT.CLR with its key (R215). -/
def plsClr (n : Nat) (data : Word) (s : Device) : Device :=
  if PLS_STAT_CLR.get data = 1 ∧ PLS_STAT_KEY.get data = 0xC3 then modPulse n (fun p => { p with clear := true }) s else s

/-- PLS_CFG_WRITE. -/
def execPlsCfgWrite (n : Out) (k : Bool) (data : Word) (s : State) : Host.Outcome State Fault Refusal :=
  onDev s (plsCfgWrite n.val k data)
/-- PLS_CLR. -/
def execPlsClr (n : Out) (data : Word) (s : State) : Host.Outcome State Fault Refusal := onDev s (plsClr n.val data)
/-- PULSE_EMIT. -/
def execPulseEmit (n : Out) (s : State) : Host.Outcome State Fault Refusal := onDev s (pulseEmit n.val)
/-- PULSE_END (R210). -/
def execPulseEnd (n : Out) (s : State) : Host.Outcome State Fault Refusal :=
  onDev s (pulseEnd n.val)
/-- RATE_PULSE_DUE (R213). -/
def execRatePulseDue (n : Out) (s : State) : Host.Outcome State Fault Refusal := onDev s (rateAdvance n.val)

end Sys2Proof.Machine
end

