-- ==== Sys2Proof/Machine/Tally.lean ====
section
/-! DEFINITION. Tally inputs (R219 to R221) and reference runs (R222, R223), and the commands TALLY_EDGE, TALLY_CLR,
RUN_OPEN, RUN_CLOSE and RUN_ABORT. A setting of DONE_EVT, REFUSE_EVT or BL_FULL sets IRQ_STATUS.TALLY (R422). -/

namespace Sys2Proof.Machine

/-- TALLY_CFG of an input. -/
def tallyCfg (s : Device) (inB : Bool) (f : Fld .pkg) : Nat := s.pget (f.at (if inB then 1 else 0))
/-- The 48-bit counter of an input. -/
def tallyCnt (s : Device) (inB : Bool) : Nat :=
  let o := if inB then 2 else 0
  s.pget (CNT_A_0.at o) + s.pget (CNT_A_1.at o) * 2 ^ 32
/-- Set the counter, modulo 2^48 (R221). -/
def setTallyCnt (inB : Bool) (v : Nat) (s : Device) : Device :=
  let o := if inB then 2 else 0
  (s.pset (CNT_A_0.at o) (v % 2 ^ 32)).pset (CNT_A_1.at o) (v / 2 ^ 32)

/-- A pulse of the run's input while the gate is open; passing 2^32 aborts the run with code 9 (R222, R223). -/
def runPulse (inB : Bool) (s : Device) : Device :=
  let n := s.pget RUN_STAT_STATE
  if (n = 2 ∨ n = 3) ∧ s.run.inp = inB then
    if 2 ^ 32 ≤ s.run.cnt + 1 then runStop 9 s else { s with run := { s.run with cnt := s.run.cnt + 1 } }
  else s

/-- A tally input's ball and its samples. -/
def tallyPin (s : Device) (inB : Bool) : TallyPin := (s.tallyIn[if inB then 1 else 0]?).getD .reset
/-- Change them. -/
def modTally (inB : Bool) (f : TallyPin → TallyPin) (s : Device) : Device :=
  { s with tallyIn := s.tallyIn.modify (if inB then 1 else 0) f }

/-- The level at the ball; a change starts the count of equal ticks anew (R220). DEDUCED (notes/assumptions/71): a change falls on
the first tick of its clock. -/
def tallySee (inB level : Bool) (s : Device) : Device :=
  let at_ := s.now
  modTally inB (fun p => if p.level = level then p else { p with level := level, since := at_ }) s

/-- The sample of a frame boundary (R219). -/
def TallyPin.sample (p : TallyPin) : TallyPin :=
  { p with shown := p.level, samples := if p.shown = p.level then p.samples + 1 else 1 }

/-- The level at the ball is recognised: with FAST once 16 ticks in a row, 8 to a clock, have shown it; else at the boundary at
which 2 · DEB samples in a row have shown it (R219, R220). -/
def tallyHolds (s : Device) (inB : Bool) : Bool :=
  let p := tallyPin s inB
  if tallyCfg s inB TALLY_CFG_A_FAST = 1 then decide (16 ≤ 8 * (s.now - p.since))
  else s.clk == 0 && p.shown == p.level && decide (2 * tallyCfg s inB TALLY_CFG_A_DEB ≤ p.samples)

/-- A recognised level of a tally input: a change to the active level of an enabled input counts (R219 to R221). DESIGN CHOICE
(notes/assumptions/71): the recognised level starts at 0 after a start of the lead die, so that a first high level is a change. -/
def tallyEdge (inB level : Bool) (s : Device) : Device :=
  let f := if inB then TALLY_STAT_LVL_B else TALLY_STAT_LVL_A
  let s := tallySee inB level s
  if plsLive s && tallyHolds s inB && s.pbit f != level then
    let s := s.pset f (if level then 1 else 0)
    if tallyCfg s inB TALLY_CFG_A_EN = 1 ∧ tallyCfg s inB TALLY_CFG_A_EDGE = (if level then 1 else 0) then
      runPulse inB (setTallyCnt inB (tallyCnt s inB + 1) s)
    else s
  else s

/-- TALLY_CTL with its key: the named counters clear at the next boundary (R221). -/
def tallyClr (data : Word) (s : Device) : Device :=
  if TALLY_CTL_KEY.get data = 0xC3 then
    { s with tallyClr := [(s.tallyClr[0]?).getD false || TALLY_CTL_CLR_A.get data == 1,
                          (s.tallyClr[1]?).getD false || TALLY_CTL_CLR_B.get data == 1] }
  else s

/-- TALLY_CFG as stored: DEB clamped to 1 to 128 (R224). -/
def tallyCfgStored (w : Word) : Word := TALLY_CFG_A_DEB.put (clampNat 1 128 (TALLY_CFG_A_DEB.get w)) w

/-- Why an OPEN is refused, the lowest code first; 0 when it is not (R223). -/
def runRefusal (data : Word) (s : Device) : Nat :=
  let g := RUN_CTL_CH.get data
  if runLive s then 1
  else if pkgState s ≠ Pkg.run then 2
  else if s.nDies ≤ g / 8 ∨ (s.pget PKG_STATE_DIES_HUSK).testBit (g / 8) = true ∨ alive (s.die (g / 8)) = false then 3
  else if s.pget RUN_KINT = 0 ∧ s.pget RUN_KFRAC = 0 then 4
  else if tallyCfg s (RUN_CTL_INPUT.get data == 1) TALLY_CFG_A_EN = 0 then 5
  else 0

/-- RUN_CTL.OPEN: refused with its code, or the gate opens at the next boundary with K and the channel as written (R222,
R223). -/
def runOpen (data : Word) (s : Device) : Device :=
  if RUN_CTL_OPEN.get data = 1 then
    let r := runRefusal data s
    if r ≠ 0 then runCode r s
    else
      { s with run := { Run.reset with
          openDue := true, inp := RUN_CTL_INPUT.get data == 1, ch := RUN_CTL_CH.get data
          neg := RUN_CTL_NEG.get data == 1, k := s.pget RUN_KINT * 65536 + s.pget RUN_KFRAC } }.pset RUN_STAT_STATE 1
  else s

/-- RUN_CTL.CLOSE: the gate closes at the next boundary (R222). -/
def runClose (data : Word) (s : Device) : Device :=
  if RUN_CTL_CLOSE.get data = 1 ∧ runLive s then
    let s := { s with run := { s.run with closeDue := true } }
    if s.pget RUN_STAT_STATE = 2 then s.pset RUN_STAT_STATE 3 else s
  else s

/-- RUN_CTL.ABORT (R223). -/
def runAbort (data : Word) (s : Device) : Device := if RUN_CTL_ABORT.get data = 1 then runStop 6 s else s

/-- The exact net charge of a channel, 2^-32 nAh (R197). -/
def exactNet (s : Device) (g : Nat) : Int := ((s.ch g).acc.exactQ (s.ch g).conv.kq).2.2

/-- The net of the raw counts of a channel (R197). -/
def rawNet (s : Device) (g : Nat) : Int := (s.ch g).acc.rawqIn - (s.ch g).acc.rawqOut

/-- The gate opens: the exact net value and the raw counts are noted and the epoch causes are collected from here (R197, R222). -/
def gateOpen (s : Device) : Device :=
  let r := s.run
  let s := { s with run := { r with openDue := false, cnt := 0, net0 := exactNet s r.ch, raw0 := rawNet s r.ch, frame0 := s.frame } }
  (s.modConv s.run.ch fun v => { v with gateCauses := 0 }).pset RUN_STAT_STATE 2

/-- RUN_RATIO: (Q_ref / Q_dev − 1) · 10^9, saturating; with Q_dev 0 the manual states no value (R222). -/
def runRatio (free : Nat) (qRef qDev : Int) : Int :=
  -- Q_ref counts 2^-16 nAh and Q_dev 2^-32 nAh
  if qDev = 0 then (Config.freeValue free).toInt
  else
    let n := (qRef * 65536 - qDev) * 10 ^ 9
    clampSigned 32 (roundHalfEven (if qDev < 0 then -n else n) qDev.natAbs)

/-- The gate closes: the run's words, the channel's record and RUN_OK (R222). -/
def gateClose (s : Device) : Device :=
  let r := s.run
  let net := exactNet s r.ch
  let q : Int := (r.cnt * r.k : Nat)
  let qRef := if r.neg then -q else q
  let qDev := net - r.net0
  let s := runRecord qRef qDev (rawNet s r.ch - r.raw0) (s.ch r.ch).conv.gateCauses r.ch s
  let s := (s.pset RUN_PULSES (r.cnt % 2 ^ 32)).pset RUN_FRAMES ((s.frame - r.frame0) % 2 ^ 32)
  let s := s.setReg 0x9E (wordOfInt (runRatio s.free qRef qDev))
  setCat Cat.tally (({ s.nextFree with run := .reset }.pset RUN_STAT_STATE 4).pset RUN_STAT_DONE_EVT 1)

/-- The tallies and the run at a frame boundary, after the channels have booked: a gate opens, closes on command or at
RUN_TARGET, counters clear, and the inputs are sampled (R219, R221, R222). -/
def tallyBoundary (s : Device) : Device :=
  let s := if s.run.openDue then gateOpen s else s
  let n := s.pget RUN_STAT_STATE
  let t := s.pget RUN_TARGET
  let s := if (n = 2 ∨ n = 3) ∧ (s.run.closeDue ∨ (t ≠ 0 ∧ t ≤ s.run.cnt)) then gateClose s else s
  let s := if (s.tallyClr[0]?).getD false then setTallyCnt false 0 s else s
  let s := if (s.tallyClr[1]?).getD false then setTallyCnt true 0 s else s
  { s with tallyClr := [false, false], tallyIn := if plsLive s then s.tallyIn.map TallyPin.sample else s.tallyIn }

/-- TALLY_EDGE: the level at the ball, which counts once the filter has recognised it. -/
def execTallyEdge (inB level : Bool) (s : State) : Host.Outcome State Fault Refusal := onDev s (tallyEdge inB level)
/-- TALLY_CLR. -/
def execTallyClr (data : Word) (s : State) : Host.Outcome State Fault Refusal := onDev s (tallyClr data)
/-- RUN_OPEN. -/
def execRunOpen (data : Word) (s : State) : Host.Outcome State Fault Refusal := onDev s (runOpen data)
/-- RUN_CLOSE. -/
def execRunClose (data : Word) (s : State) : Host.Outcome State Fault Refusal := onDev s (runClose data)
/-- RUN_ABORT. -/
def execRunAbort (data : Word) (s : State) : Host.Outcome State Fault Refusal := onDev s (runAbort data)

end Sys2Proof.Machine
end

