-- ==== Sys2Proof/Machine/Retain.lean ====
section
/-! DEFINITION. CRC-32 (R364), the byte layouts of the retention SRAM (R327, R328), the retention commit (R329), the
decision on it at a start (R330), and the command RETENTION_COMMIT. -/

namespace Sys2Proof.Machine

/-! Bytes. -/

/-- One bit of the CRC-32 register, reflected (R364). -/
def crcBit (c : Word) : Word := if c.getLsbD 0 then (c >>> 1) ^^^ 0xEDB88320#32 else c >>> 1
/-- One byte of the CRC-32. -/
def crcByte (c : Word) (b : Byte) : Word :=
  crcBit (crcBit (crcBit (crcBit (crcBit (crcBit (crcBit (crcBit (c ^^^ b.zeroExtend 32))))))))
/-- The CRC-32 of bytes (R364). -/
def crc32 (l : List Byte) : Word := ~~~ (l.foldl crcByte 0xFFFFFFFF#32)

/-- One bit of the CRC-8 register (R18, R418). -/
def crc8Bit (c : Nat) : Nat := if 128 ≤ c then ((2 * c) ^^^ 0x107) % 256 else 2 * c
/-- One byte of the CRC-8: polynomial 0x07, no reflection. -/
def crc8Byte (c : Nat) (b : Nat) : Nat := crc8Bit (crc8Bit (crc8Bit (crc8Bit (crc8Bit (crc8Bit (crc8Bit (crc8Bit (c ^^^ b))))))))
/-- The CRC-8 of bytes. -/
def crc8 (l : List Nat) : Nat := l.foldl crc8Byte 0

/-- A signed value as n little-endian bytes. -/
def seBytes (n : Nat) (x : Int) : List Byte := leBytes n (fieldOf (8 * n) x)
/-- n zero bytes. -/
def zeros (n : Nat) : List Byte := List.replicate n 0

/-! Ownership of register words. -/

/-- The die that holds a word (R448). -/
def ownerOf (a : Nat) : Nat :=
  match locate a with
  | some (.die, d, _) => d
  | some (.ch, g, _) => g / 8
  | _ => 0
/-- The mask of a word's fields of Kept code K (R9). -/
def kMask (a : Nat) : Word := match rowAt a with | some r => BitVec.ofNat 32 r.k | none => 0
/-- The K fields of the words a die holds. -/
def kRegs (s : Device) (d : Nat) : RegFile :=
  ((s.regs.filter fun p => ownerOf p.1 == d).map fun p => (p.1, p.2 &&& kMask p.1)).filter fun p => p.2 != 0

/-! The channel record of R328. -/

/-- The raw accumulators, 40 bytes. -/
def rawBytes (a : Acc) : List Byte := leBytes 8 a.rawqIn ++ leBytes 8 a.rawqOut ++ seBytes 12 a.raweIn ++ seBytes 12 a.raweOut
/-- The epoch counters, 40 bytes. -/
def epochBytes (a : Acc) : List Byte := seBytes 8 a.epqIn ++ seBytes 8 a.epqOut ++ seBytes 12 a.epeIn ++ seBytes 12 a.epeOut
/-- The six banks, 72 bytes. -/
def bankBytes (a : Acc) : List Byte :=
  seBytes 12 a.bqIn ++ seBytes 12 a.bqOut ++ seBytes 12 a.bqNet ++ seBytes 12 a.beIn ++ seBytes 12 a.beOut ++ seBytes 12 a.beNet
/-- Carry, DIR and chaff, 16 bytes. -/
def carryBytes (a : Acc) : List Byte := leBytes 4 (a.frac + a.dir.code * 2 ^ 24) ++ leBytes 4 (fieldOf 24 a.cq) ++ seBytes 8 a.ce
/-- The constants in force, 16 bytes. -/
def constBytes (v : Conv) : List Byte :=
  leBytes 4 v.kq.mant ++ leBytes 4 v.kv.mant ++ leBytes 4 v.ke.mant ++ leBytes 4 (v.kq.sh + v.kv.sh * 256 + v.ke.sh * 65536)
/-- A factor as f − 1 in signed 40 bits. -/
def factorBytes (f : Nat) : List Byte := seBytes 5 ((f : Int) - 2 ^ 40)
/-- The factors, 32 bytes. -/
def factorsBytes (v : Conv) : List Byte :=
  factorBytes v.fBenchIH ++ factorBytes v.fBenchIL ++ factorBytes v.fBenchV ++ factorBytes v.fCarryI ++ factorBytes v.fCarryV ++
    factorBytes v.fTcr ++ zeros 2
/-- The live offset corrections, the current one of range H, and the CRC of the baselines they belong to, 12 bytes. -/
def liveBytes (v : Conv) : List Byte :=
  seBytes 4 v.liveH ++ seBytes 4 v.liveV ++ leBytes 4 (crc32 (v.base.flatMap fun w => leBytes 4 w.toNat)).toNat
/-- The ACIR quadrant energies, 64 bytes. -/
def acirBytes (a : Acir) : List Byte := (a.ep ++ a.eq).flatMap (leBytes 8)
/-- Four loop counters of 3 bytes: LOOP step index, count; an inactive one 0 (R376). -/
def counterBytes (l : List (Nat × Nat)) : List Byte :=
  (List.range 4).flatMap fun i => match l[i]? with | some (x, n) => leBytes 1 x ++ leBytes 2 n | none => zeros 3
/-- The engine's and the channel's K flags in one word; the manual names them and no bit places (DESIGN CHOICE). -/
def statusWord (r : RegFile) (g : Nat) : Nat :=
  let st := rfGet r (chAddr g 1)
  let fl := (rfGet r (chAddr g 2)).toNat
  let se := rfGet r (chAddr g 0x1F)
  CH_STAT_ENGINE.get st + CH_STAT_PASS.get st * 2 ^ 4 + CH_STAT_FAIL.get st * 2 ^ 5 + CH_STAT_SUSP_CAUSE.get st * 2 ^ 6 +
    CH_CTL_MODE.get (rfGet r (chAddr g 0)) * 2 ^ 8 + CH_SENSE_RANGE_SEL.get se * 2 ^ 11 + CH_SENSE_RANGE.get se * 2 ^ 12 +
    CH_STAT_CV_EVT.get st * 2 ^ 13 + fl % 32 * 2 ^ 14 + fl / 2 ^ 8 % 8 * 2 ^ 19 + fl / 2 ^ 16 % 16 * 2 ^ 22
/-- The step state, 56 bytes. -/
def stepBytes (r : RegFile) (g : Nat) (e : Eng) : List Byte :=
  leBytes 4 (rfGet r (chAddr g 4)).toNat ++ leBytes 4 (statusWord r g) ++ leBytes 4 (rfGet r (chAddr g 5)).toNat ++
    leBytes 4 (rfGet r (chAddr g 0x6D)).toNat ++ seBytes 8 e.baseQ ++ seBytes 8 e.baseE ++ counterBytes e.counters ++
    leBytes 4 (rfGet r (chAddr g 8)).toNat ++ leBytes 4 (rfGet r (chAddr g 9)).toNat ++ leBytes 4 (rfGet r (chAddr g 10)).toNat
/-- The channel record, 360 bytes. -/
def chanBytes (r : RegFile) (g : Nat) (c : Chan) : List Byte :=
  rawBytes c.acc ++ epochBytes c.acc ++ bankBytes c.acc ++ carryBytes c.acc ++ constBytes c.conv ++ factorsBytes c.conv ++
    liveBytes c.conv ++ leBytes 4 (rfGet r (chAddr g 0x49)).toNat ++ leBytes 4 (rfGet r (chAddr g 0x4A)).toNat ++
    leBytes 4 (rfGet r (chAddr g 0x4B)).toNat ++ acirBytes c.acir ++ stepBytes r g c.eng

/-! The SRAM of R327. -/

/-- The 16 bytes of a ledger entry. -/
def entryBytes (e : LedgerEnt) : List Byte := (List.range 4).flatMap fun k => leBytes 4 (entryWord e k).toNat
/-- Offsets 0x010 to 0xB9F: the channel records and the die record; on the lead die up to 0xBFF. -/
def regionA (r : Retention) : List Byte :=
  (List.range 8).flatMap (fun c => chanBytes r.regs (8 * r.index + c) ((r.chans[c]?).getD .reset)) ++
    leBytes 6 r.fRef ++ leBytes 2 (if r.refInt then 1 else 0) ++ r.res.flatMap (seBytes 16) ++ r.tags.flatMap (leBytes 2) ++
    (if r.index = 0 then
      r.hs.flatMap (seBytes 16) ++ (List.range 4).flatMap (fun n => leBytes 4 (rfGet r.regs (0x82 + 4 * n)).toNat) ++
        leBytes 6 ((rfGet r.regs 0x92).toNat + (rfGet r.regs 0x93).toNat * 2 ^ 32) ++
        leBytes 6 ((rfGet r.regs 0x94).toNat + (rfGet r.regs 0x95).toNat * 2 ^ 32) ++
        leBytes 2 (HANDOVER_STAT_COUNT.get (rfGet r.regs 0x4F)) ++ leBytes 2 (SHIP_CTL_LAST_EXIT.get (rfGet r.regs 0x4C))
     else [])
/-- Offsets 0xC00 to 0xFFF: the fault ledger of the lead die. -/
def regionB (r : Retention) : List Byte := if r.index = 0 then r.ledger.flatMap entryBytes else []

/-- The staged image a die hands to its commit engine: its K state as it stands (R328, R329). Between a start of the lead die
and the load of its image the residues of outputs that no die follows stay those of the image before: they are taken up at the load
(R215, R216). Of an output in rate mode h alone is held, and a spread in progress and the partial frame's change are gone with the
lead die's main domain (DESIGN CHOICE, notes/assumptions/48: the manual names h alone among the items kept). -/
def stagedImage (s : Device) (d : Nat) : Retention :=
  let x := s.die d
  let old := x.glean.staged.getD x.glean.ret
  let loaded := s.pbit IMAGE_STAT_VALID
  { version := 1, index := d, committing := false, gen := (x.glean.ret.gen + 1) % 2 ^ 32, crcA := 0, crcB := 0
    chans := (chansOf d).map s.ch, regs := kRegs s d, fRef := x.fRef, refInt := x.refInt
    res := (List.range 4).map fun n =>
      let p := pulse s n
      if plsOwn s n && plsDie s n == d then p.r + p.b + p.late else if loaded then 0 else nthI old.res n
    tags := (List.range 4).map fun n =>
      if loaded || plsOwn s n && plsDie s n == d then plsTag (pulse s n).cfg + 2 ^ 12 * s.pget (PLS_STAT_CUT.at (4 * n)) else nth old.tags n
    hs := if !loaded then old.hs else (List.range 4).map fun n =>
      if plsRate s n then (pulse s n).h else if plsCfg s n PLS_CFG_PKG = 1 then (pulse s n).r + (pulse s n).b else 0
    ledger := if d = 0 then s.ledger else [] }

/-- The main domain hands its image to the commit engine; it replaces one that the engine has not begun to write (R329, R441).
Before the decision on the retention found at its start a die hands over none (R387). -/
def retCommit (d : Nat) (s : Device) : Device :=
  if (s.die d).glean.good && (s.die d).decided then
    let r := stagedImage s d
    s.modGlean d fun g => { g with staged := some r }
  else s

/-- The commit engine writes the staged image: the regions with their CRCs, and the generation, of which the glean domain keeps
a copy. The engine stands in the glean domain and finishes though the main domain stops (R329). -/
def retWrite (d : Nat) (s : Device) : Device :=
  match (s.die d).glean.staged with
  | none => s
  | some r =>
    let r := { r with crcA := crc32 (regionA r), crcB := if d = 0 then crc32 (regionB r) else 0 }
    s.modGlean d fun g => { g with ret := r, genCopy := r.gen, staged := none }

/-! The decision on retention at a main-domain start (R330). -/

/-- What a start finds: 0 domain new, 1 rejected with its reason (1 COMMITTING, 2 version or index, 3 CRC-A, 4
generation; the order is that of R330's row), 2 the ledger lost, 3 accepted. -/
inductive RetOutcome where
  | new
  | bad (reason : Nat)
  | ledgerLost
  | valid
  deriving DecidableEq, Repr

/-- The first row of R330 that applies. -/
def retDecision (s : Device) (d : Nat) : RetOutcome :=
  let g := (s.die d).glean
  let r := g.ret
  if g.isNew then .new
  else if r.committing then .bad 1
  else if r.version ≠ 1 ∨ r.index ≠ d then .bad 2
  else if r.crcA ≠ crc32 (regionA r) then .bad 3
  else if r.gen ≠ g.genCopy then .bad 4
  else if d = 0 ∧ r.crcB ≠ crc32 (regionB r) then .ledgerLost
  else .valid

/-- RETENTION_COMMIT: the commit engine writes what the main domain handed over last (R329). -/
def execRetentionCommit (d : Die) (s : State) : Host.Outcome State Fault Refusal := onDie d.val s (retWrite d.val)

end Sys2Proof.Machine
end

