-- ==== Sys2Proof/Machine/GleanDomain.lean ====
section
/-! DEFINITION. The glean domain (R319 to R333): source selection, the pump, KEEP_GOOD, the outage timer, the booking of
gleaned charge, and the commands GLEAN_SOURCE_EVALUATION, GLEAN_FORCED_EVALUATION, PUMP_TRANSFER, KEEP_GOOD_FALL,
KEEP_GOOD_RISE, RC_TRIM and GLEAN_BOOKING. -/

namespace Sys2Proof.Machine

/-- The cell of a local channel at its ISN ball, mV. -/
def cellMv (o : GleanObs) (c : Nat) : Nat := nth o.cells c

/-- The local channels whose cells may feed the pump: PUMP_EN with PUMP_DIES (R320, R322). -/
def Glean.pumpChs (g : Glean) : List Nat := (List.range 8).filter fun c => (g.pumpEn[c]?).getD false

/-- The keeper is usable: the ship latch is clear, and VKEEP reaches 2.60 V or has not fallen below 2.50 V (R320). -/
def keepUsable (o : GleanObs) (g : Glean) : Bool :=
  !g.shipLatch && (decide (2600 ≤ o.vkeep) || g.okKeep && decide (2500 ≤ o.vkeep))
/-- The cells are usable: one reaches 1.50 V, or they were and one still has 1.45 V (R320). -/
def cellsUsable (o : GleanObs) (g : Glean) : Bool :=
  g.pumpChs.any (fun c => decide (1500 ≤ cellMv o c)) || g.okCells && g.pumpChs.any (fun c => decide (1450 ≤ cellMv o c))
/-- The coin is usable (R320, R333). -/
def coinUsable (o : GleanObs) (g : Glean) : Bool := decide (1800 ≤ o.vcoin) && !g.cutLatch

/-- The highest cell of a list of channels, ties to the lower one. -/
def bestCell (o : GleanObs) : List Nat → Option Nat
  | [] => none
  | c :: l =>
    match bestCell o l with
    | none => some c
    | some b => if cellMv o b ≤ cellMv o c then some c else some b

/-- The pump's channel: the highest cell; the one already selected stays unless another is higher by more than 50 mV (R322). -/
def pumpChoice (o : GleanObs) (g : Glean) : Nat :=
  match bestCell o g.pumpChs with
  | none => g.pumpCh
  | some b => if !g.first && g.pumpChs.contains g.pumpCh && decide (cellMv o b ≤ cellMv o g.pumpCh + 50) then g.pumpCh else b

/-- One evaluation of the sources of a die whose main domain is off (R320 to R322, R333). A reading below COIN_CUT counts while
the coin is the selected source, be it too low to be used, unless a keeper or a cell takes over. -/
def Glean.evaluate (o : GleanObs) (g : Glean) : Glean :=
  let k := keepUsable o g
  let c := cellsUsable o g
  let n := coinUsable o g
  let pick : Source :=
    if k && g.keeperEn then .keeper else if c then .cells else if n && g.coinEn then .coin else .none
  let coin := pick == .coin || (pick == .none && g.src == .coin)
  let low := g.cutEn && coin && decide (o.vcoin < 2000 + 50 * g.coinCut)
  let run := if low then g.cutRun + 1 else 0
  let cut := decide (2 ≤ run)
  let src : Source := if cut then .none else pick
  { g with
    okKeep := k, okCells := c, src := src, first := false, cutRun := run, cutLatch := g.cutLatch || cut
    switches := if g.first || src == g.src then g.switches else min (g.switches + 1) 65535
    pumpCh := pumpChoice o g
    usedKeep := g.usedKeep || src == .keeper, usedCells := g.usedCells || src == .cells, usedCoin := g.usedCoin || src == .coin }

/-- The start sequencer of the lead die's glean domain runs the keeper's converter, and with it the main domains: after a
ship wake by WAKE_N, and after the rise of a RESET_N that stopped them, once the keeper is usable and the ship latch clear
(R297). -/
def startSequencer (s : Device) : Device :=
  let x := s.die 0
  let due := (x.glean.woke && s.pget SHIP_CTL_LAST_EXIT == 1) || (s.supply.start == some 2 && !s.supply.resetLow)
  if !x.up && x.glean.okKeep && !x.glean.shipLatch && due then (s.modPins fun p => { p with converter := true }) else s

/-- An evaluation; a regular one after the first of an outage stands 64 ms of the outage timer after the one before
(R321, R326). -/
def gleanEvaluate (regular : Bool) (d : Nat) (o : GleanObs) (s : Device) : Device :=
  let x := s.die d
  if !x.up && x.glean.good then
    startSequencer (s.modGlean d fun g =>
      let g := if regular && !g.first then { g with outage := (g.outage + 64) % 2 ^ 48 } else g
      g.evaluate o)
  else s

/-- A pump transfer draws one packet from the selected cell: its tally counts it (R322, R323). -/
def pumpTransfer (d : Nat) (s : Device) : Device :=
  let x := s.die d
  if !x.up && x.glean.good && x.glean.src == .cells then
    s.modCh (8 * d + x.glean.pumpCh) fun c => { c with tally := (c.tally + 1) % 2 ^ 48 }
  else s

/-- The glean domain loses its state: retention, tallies, outage timer, ship and cut latches, ledger indices (R325). -/
def gleanReset (g : Glean) : Glean :=
  { Glean.reset with
    good := false, isNew := true, keeperEn := g.keeperEn, coinEn := g.coinEn, pumpEn := g.pumpEn, cutEn := g.cutEn
    coinCut := g.coinCut }

/-- KEEP_GOOD falls on a die whose main domain is off: the internal bridge of R319 holds it up otherwise (R325). -/
def keepGoodFall (d : Nat) (s : Device) : Device :=
  if !(s.die d).up && (s.die d).glean.good then
    let s := (s.modGlean d gleanReset).each (chansOf d) fun g t => t.modCh g fun c => { c with tally := 0 }
    if d = 0 then s.pset KEEPGOOD_CTL_GOOD 0 else s
  else s

/-- KEEP_GOOD rises: the domain is new (R325). -/
def keepGoodRise (d : Nat) (s : Device) : Device :=
  if !(s.die d).glean.good then
    let s := s.modGlean d fun g => { g with good := true, isNew := true }
    if d = 0 then s.pset KEEPGOOD_CTL_GOOD 1 else s
  else s

/-- The outage oscillators are trimmed while the main domains run; GLEAN_TRIM shows the lead die's error (R326, R335). -/
def rcTrim (err : Int) (s : Device) : Device :=
  let s := s.each s.dieList fun d t => if (t.die d).up then t.modGlean d fun g => { g with trimOk := true } else t
  if (s.die 0).up then s.pset GLEAN_TRIM_RC_ERR (fieldOf 16 err) else s

/-- The enables reach the glean domain of a die: at a frame boundary and at a main-domain start (R335, R336). -/
def gleanEnables (d : Nat) (s : Device) : Device :=
  s.modGlean d fun g => { g with
    keeperEn := s.pbit KEEPGOOD_CTL_KEEPER_EN, coinEn := s.pbit KEEPGOOD_CTL_COIN_EN
    pumpEn := (chansOf d).map fun c => (s.pget KEEPGOOD_CTL_PUMP_DIES).testBit d && s.cbit c GLEAN_CFG_PUMP_EN
    cutEn := s.pbit COMPAT_CTL_CUT_EN, coinCut := s.pget COMPAT_CTL_COIN_CUT }

/-! Booking. -/

/-- The packets of a tally in 2^-32 counts, with the residue kept before (R331). -/
def gleanCounts (kq : Const) (p rho : Nat) : Nat := p * 2 ^ (32 + kq.sh) / (3600 * kq.mant) + rho

/-- A channel's tally is booked as OUT charge at its open-circuit voltage, the mean of the frame's fast words; the manual
names no rounding of the mean (R331, R332). -/
def bookTally (g : Nat) (s : Device) : Device :=
  let c := s.ch g
  let p := c.tally
  if p = 0 then s
  else if !constOk s.frc g (chLow s g) c.conv (fRefOf (s.die (g / 8))) (if chLow s g then .kqL else .kqH) then s.cset g GLEAN_CFG_BOOK_SKIP 1
  else
    let t := gleanCounts c.conv.kq p (s.reg (chAddr g 0x78)).toNat
    let n : Nat := t / 2 ^ 32
    let v := if c.vN = 0 then vFast s g else meanWith (Config.freeBit s.free) c.vSum c.vN
    let a := c.acc.put .out (-(n : Int)) (-((n : Int) * v))
    let s := plsBook false g c.conv c.acc a s.nextFree
    let s := s.modCh g fun c => { c with acc := a, tally := 0 }
    let pkt := s.cget g GLEAN_PKT_0 + s.cget g GLEAN_PKT_1 * 2 ^ 32 + p
    let s := (s.cset g GLEAN_PKT_0 (pkt % 2 ^ 32)).cset g GLEAN_PKT_1 (pkt / 2 ^ 32)
    let s := (s.setReg (chAddr g 0x76) (BitVec.ofNat 32 (min p (2 ^ 32 - 1)))).setReg (chAddr g 0x77) (BitVec.ofNat 32 (min n (2 ^ 32 - 1)))
    (s.setReg (chAddr g 0x78) (BitVec.ofNat 32 t)).cset g GLEAN_CFG_BOOK_EVT 1

/-- The booking of a die whose accumulation runs; it stands for step 2 of R147 at the boundary that follows it, the second
after the end of seeding. -/
def gleanBooking (d : Nat) (s : Device) : Device :=
  if (s.die d).up && (s.die d).seeded && (s.die d).seedAt.any (fun e => s.frame == e + 1) then
    let f := s.frame
    (s.each (chansOf d) bookTally).modDie d fun x => { x with booked := some f }
  else s

/-- GLEAN_SOURCE_EVALUATION. -/
def execGleanSourceEvaluation (d : Die) (obs : GleanObs) (s : State) : Host.Outcome State Fault Refusal :=
  onDie d.val s (gleanEvaluate true d.val obs)
/-- GLEAN_FORCED_EVALUATION. -/
def execGleanForcedEvaluation (d : Die) (obs : GleanObs) (s : State) : Host.Outcome State Fault Refusal :=
  onDie d.val s (gleanEvaluate false d.val obs)
/-- PUMP_TRANSFER. -/
def execPumpTransfer (d : Die) (s : State) : Host.Outcome State Fault Refusal := onDie d.val s (pumpTransfer d.val)
/-- KEEP_GOOD_FALL. -/
def execKeepGoodFall (d : Die) (s : State) : Host.Outcome State Fault Refusal := onDie d.val s (keepGoodFall d.val)
/-- KEEP_GOOD_RISE. -/
def execKeepGoodRise (d : Die) (s : State) : Host.Outcome State Fault Refusal := onDie d.val s (keepGoodRise d.val)
/-- RC_TRIM. -/
def execRcTrim (err : Int) (s : State) : Host.Outcome State Fault Refusal := onDev s (rcTrim err)
/-- GLEAN_BOOKING. -/
def execGleanBooking (d : Die) (s : State) : Host.Outcome State Fault Refusal := onDie d.val s (gleanBooking d.val)

end Sys2Proof.Machine
end

