-- ==== Sys2Proof/Machine/Otp.lean ====
section
/-! DEFINITION. The OTP words of a die (R338 to R341), the load (R342 to R349), programming (R350 to R355), and the
commands OTP_PROGRAM, OTP_REINFORCE, OTP_READ, OTP_LOCK, OTP_PUMP_EXPIRY and OTP_COMMAND_DONE. A raw codeword holds the
data bits in [31:0] and the check field in [38:32]. -/

namespace Sys2Proof.Machine

/-! The code of R338. -/

/-- The positions of d0 to d31 in the Hamming code. -/
def dataPos : List Nat := (List.range 39).filter fun p => !([0, 1, 2, 4, 8, 16, 32].contains p)
/-- The exclusive or of the positions of the ones of the data: check bits p1, p2, p4, p8, p16, p32 in [5:0]. -/
def hamOf (x : Nat) : Nat := (dataPos.zipIdx.filter fun p => x.testBit p.2).foldl (fun a p => a ^^^ p.1) 0
/-- The parity of the ones of a number of up to 39 bits. -/
def parity39 (x : Nat) : Nat := ((List.range 39).filter fun i => x.testBit i).length % 2
/-- The codeword of 32 data bits. -/
def codeOf (x : Nat) : Nat :=
  let w := x + hamOf x * 2 ^ 32
  w + parity39 w * 2 ^ 38

/-- What a raw read decodes to: data, syndrome, and 0 clean, 1 corrected, 2 uncorrectable. -/
structure OtpDec where
  data : Nat
  syn : Nat
  kind : Nat
  deriving DecidableEq, Repr

/-- The decision on a raw codeword (R338). A syndrome that names no position leaves the data as read. -/
def otpDecode (raw : Nat) : OtpDec :=
  let d := raw % 2 ^ 32
  let syn := hamOf d ^^^ (raw / 2 ^ 32 % 64)
  let odd := parity39 (raw % 2 ^ 39) = 1
  if odd then
    match dataPos.zipIdx.find? fun p => p.1 == syn with
    | some p => ⟨d ^^^ 2 ^ p.2, syn, 1⟩
    | none => ⟨d, syn, 1⟩
  else ⟨d, syn, if syn = 0 then 0 else 2⟩

/-! The cells. -/

/-- The three reads of a word; an unprogrammed word reads zeros (R338). -/
def otpCell (x : DieSt) (a : Nat) : OtpRead := ((x.otp.find? fun p => p.1 == a).map (·.2)).getD ⟨0, 0, 0⟩
/-- Set the reads of a word, addresses rising, words of zeros unlisted. -/
def otpPut (a : Nat) (r : OtpRead) (l : List (Nat × OtpRead)) : List (Nat × OtpRead) :=
  let rest := l.filter fun p => p.1 != a
  if r = ⟨0, 0, 0⟩ then rest else (rest.filter fun p => decide (p.1 < a)) ++ (a, r) :: (rest.filter fun p => decide (a < p.1))
/-- The three reads of a word at a load: its bits with a trace of programming may show at margin-low, and those of its normal
read may fail to show at margin-high, which no state decides (R342, R347). -/
def marginRead (k a : Nat) (c : OtpRead) : OtpRead :=
  let m := Config.margin k a
  { norm := c.norm, low := c.norm ||| (c.low &&& m.2), high := c.norm &&& m.1 }
/-- The die's OTP as a load reads it. -/
def otpAtLoad (k : Nat) (x : DieSt) : DieSt := { x with otp := x.otp.map fun p => (p.1, marginRead k p.1 p.2) }

/-- A word's decoded normal read. -/
def otpWord (x : DieSt) (a : Nat) : OtpDec := otpDecode (otpCell x a).norm

/-- The nibble of a region in a read of word 511 (R340). -/
def lockNibble (raw region : Nat) : Nat := raw / 2 ^ (4 * region) % 16
/-- At least 3 of its bits read 1. -/
def majority (n : Nat) : Bool := decide (3 ≤ ((List.range 4).filter fun i => n.testBit i).length)
/-- A region counts as locked (R340). -/
def otpLocked (x : DieSt) (region : Nat) : Bool := majority (lockNibble (otpCell x 511).norm region)

/-! Regions: 0 trims, 1 identity, 2 patch, 3 customer (R339). -/

/-- The region of a word. -/
def regionOf (a : Nat) : Nat := if a < 64 then 0 else if a < 128 then 1 else if a < 384 then 2 else 3
/-- The first word and the number of the words of a region, check word included; word 511 stands outside. -/
def regionSpan (r : Nat) : Nat × Nat :=
  if r = 0 then (0, 64) else if r = 1 then (64, 64) else if r = 2 then (128, 256) else (384, 127)
/-- The decoded words of a region. -/
def regionWords (x : DieSt) (r : Nat) : List OtpDec :=
  (List.range (regionSpan r).2).map fun i => otpWord x ((regionSpan r).1 + i)

/-- One bit of the CRC-16 (R348). -/
def crc16Bit (c : Nat) : Nat := (if c.testBit 15 then (2 * c) ^^^ 0x1021 else 2 * c) % 2 ^ 16
/-- One byte of the CRC-16. -/
def crc16Byte (c : Nat) (b : Byte) : Nat :=
  crc16Bit (crc16Bit (crc16Bit (crc16Bit (crc16Bit (crc16Bit (crc16Bit (crc16Bit (c ^^^ (b.toNat * 256)))))))))
/-- The CRC-16 of bytes: polynomial 0x1021, initial value 0xFFFF (R348). -/
def crc16 (l : List Byte) : Nat := l.foldl crc16Byte 0xFFFF

/-- The patch header's fields. -/
def patchCount (x : DieSt) : Nat := (otpWord x 128).data % 128
/-- The entry words of the patch table. -/
def patchWords (x : DieSt) : List OtpDec := (List.range (2 * patchCount x)).map fun i => otpWord x (129 + i)
/-- The header's CRC-16 matches the entry words. -/
def patchCrcOk (x : DieSt) : Bool :=
  crc16 ((patchWords x).flatMap fun w => leBytes 4 w.data) == (otpWord x 128).data / 2 ^ 16
/-- The check word of a region matches its decoded contents (R339, R344). -/
def checkMatches (x : DieSt) (r : Nat) : Bool :=
  if r = 2 then patchCrcOk x
  else
    let l := (regionWords x r).map (·.data)
    (crc32 (l.dropLast.flatMap (leBytes 4))).toNat == l.getLastD 0

/-- The region's state (R344, R348). -/
def regionState (x : DieSt) (r : Nat) : Nat :=
  let l := regionWords x r
  if l.any fun w => w.kind == 2 then 5
  else if otpLocked x r then (if checkMatches x r then 3 else 4)
  else if (if r = 2 then l.dropLast else l).all fun w => w.data == 0 then 0
  else if checkMatches x r then 2 else 1

/-! Loading. -/

/-- A word other than 511 is marginal: not uncorrectable, and its three reads differ (R342). -/
def otpMarginal (x : DieSt) (a : Nat) : Bool :=
  let c := otpCell x a
  if a = 511 then (List.range 4).any fun r => lockNibble c.norm r != lockNibble c.low r || lockNibble c.norm r != lockNibble c.high r
  else (otpWord x a).kind != 2 && (c.norm != c.low || c.norm != c.high)
/-- A word is corrected with its three reads equal (R342). -/
def otpCorrected (x : DieSt) (a : Nat) : Bool :=
  let c := otpCell x a
  (otpWord x a).kind == 1 && c.norm == c.low && c.norm == c.high

/-- The outcome of the patch table and the entries in force (R349). -/
def patchOutcome (x : DieSt) : Nat × List (Nat × Word) :=
  let h := otpWord x 128
  let w := patchWords x
  let entry (i : Nat) : Nat × Word := (((w[2 * i]?).map (·.data)).getD 0, BitVec.ofNat 32 (((w[2 * i + 1]?).map (·.data)).getD 0))
  let n := patchCount x
  let bad := (List.range n).find? fun i => ((w[2 * i]?).map (·.kind)).getD 0 == 2 || ((w[2 * i + 1]?).map (·.kind)).getD 0 == 2
  let all := (List.range n).map entry
  if h.kind ≠ 2 ∧ regionState x 2 = 0 then (2, [])
  else if h.kind = 2 ∨ h.data / 2 ^ 8 % 256 ≠ 1 ∨ (List.range n).any (fun i => ((w[2 * i]?).map (·.kind)).getD 0 != 2 && decide (2 ^ 14 ≤ (entry i).1)) then (5, [])
  else match bad with
    | some i => (4, all.take i)
    | none =>
      if regionState x 2 = 4 then (6, []) else if !patchCrcOk x then (3, []) else (1, all)

/-- The value of a fetch of a microcode word under the patches in force: the later entry for an address counts; an unpatched
word is the ROM's (R37, R349). -/
def patchedRom (l : List (Nat × Word)) (a : Nat) : Word := ((l.reverse.find? fun p => p.1 == a).map (·.2)).getD (Config.microcode a)

/-- OTP_STAT shows what the present dies report (R356). -/
def otpSummary (s : Device) : Device :=
  let some4 (d : Nat) : Bool :=
    s.dget d OTP_DSTAT_TRIM_ST == 4 || s.dget d OTP_DSTAT_ID_ST == 4 || s.dget d OTP_DSTAT_PATCH_ST == 4 || s.dget d OTP_DSTAT_CUST_ST == 4
  let b (p : Nat → Bool) : Nat := if s.dieList.any p then 1 else 0
  ((s.pset OTP_STAT_SEALED_INC (b some4)).pset OTP_STAT_MARGINAL (b fun d => s.dbit d OTP_DSTAT_MARGINAL)).pset
    OTP_STAT_DEGRADED (b fun d => s.dbit d OTP_DSTAT_TRIM_FB)

/-- A customer region that is valid (R344). -/
def validState (st : Nat) : Bool := st == 2 || st == 3

/-- The valid customer region of the lead die gives the line identity and the board serial, and fixes COMPAT_CTL (R335,
R341). -/
def compatFixed (s : Device) : Device :=
  let x := s.die 0
  let w := (otpWord x 392).data
  if validState (regionState x 3) then
    let s := s.modNvm fun n => { n with customer := (List.range 8).flatMap fun i => leBytes 4 (otpWord x (384 + i)).data }
    if w.testBit 0 then ((s.pset COMPAT_CTL_OTP_FIXED 1).pset COMPAT_CTL_CUT_EN (w / 2 % 2)).pset COMPAT_CTL_COIN_CUT (w / 4 % 16) else s
  else s

/-- The OTP load of a die: word decisions, region states, trims, patches, identity (R342 to R349, R451, R455). REF_RATIO
stands in a trim word the manual gives no number, so a sealed die's is a free value (R107, R339). -/
def otpLoad (d : Nat) (s : Device) : Device :=
  let x := otpAtLoad s.free (s.die d)
  let words := List.range 511
  let bad := words.filter fun a => (otpWord x a).kind == 2
  let marg := (List.range 512).filter fun a => otpMarginal x a
  let sealed := regionState x 0 == 3
  let s := marg.foldl (fun t a => logEvent Cat.otp d 1 0xFF a t) s
  let s := (bad.filter (· < 64)).foldl (fun t a => logEvent Cat.otp d 2 0xFF a t) s
  let s := ((((s.dset d OTP_DSTAT_TRIM_ST (regionState x 0)).dset d OTP_DSTAT_ID_ST (regionState x 1)).dset d OTP_DSTAT_PATCH_ST
    (regionState x 2)).dset d OTP_DSTAT_CUST_ST (regionState x 3)).dset d OTP_DSTAT_TRIM_FB (if sealed then 0 else 1)
  let s := if marg ≠ [] ∧ !s.dbit d OTP_DSTAT_MARGINAL then (s.dset d OTP_DSTAT_MARGINAL 1).dset d OTP_DSTAT_MARG_ADDR (marg.headD 0) else s
  let s := (s.dset d OTP_DSTAT_MARG_CNT (min marg.length 127)).dset d OTP_DSTAT_CORRECTED (if words.any (otpCorrected x) then 1 else 0)
  let s := (s.dset d OTP_DBAD_BAD_ADDR (bad.headD 0)).dset d OTP_DBAD_BAD_CNT bad.length
  let (oc, l) := patchOutcome x
  let s := ((s.dset d PATCH_STAT_COUNT (if (otpWord x 128).kind = 2 then 0 else patchCount x)).dset d PATCH_STAT_APPLIED l.length).dset d
    PATCH_STAT_OUTCOME oc
  let s := (s.dset d DIE_STAT_ACC_CLASS (if sealed then 0 else 2)).setReg (dieAddr d 0x17) (if sealed then Config.freeValue s.free else 0x40000000#32)
  let s := s.nextFree
  let w (a : Nat) : Nat := if (otpWord x a).kind = 2 then 0 else (otpWord x a).data
  let s := ((s.modDie d fun y => { y with patch := l }).dset d DIE_ID_REV (w 67)).dset d DIE_ID_UID (w 64)
  otpSummary (if d = 0 then compatFixed ((s.pset ID_REV (w 67)).pset CAPS_PART (w 66)) else s)

/-! Programming. -/

/-- The bits of two reads together. -/
def orRead (a b : OtpRead) : OtpRead := ⟨a.norm ||| b.norm, a.low ||| b.low, a.high ||| b.high⟩

/-- What the cells show after one pulse of codeword c: as observed, or where nothing is said free reads of bits of c. -/
def onePulse (reads : List OtpRead) (free c n : Nat) : OtpRead :=
  let f (k : Nat) : Nat := ((Config.freeInt (free + 3 * n + k)) % 2 ^ 39).toNat &&& c
  (reads[n]?).getD ⟨f 0, f 1, f 2⟩

/-- The reads of a word after the n-th pulse: a programmed bit never returns to 0 (R338). -/
def pulseRead (reads : List OtpRead) (free : Nat) (old : OtpRead) (c n : Nat) : OtpRead :=
  (List.range (n + 1)).foldl (fun r k => orRead r (onePulse reads free c k)) old

/-- The pulses of R352 from a first read on: the final reads and the lets used. -/
def pulses (rd : Nat → OtpRead) (mask c : Nat) : Nat → Nat → OtpRead × Nat
  | 0, n => (rd n, n)
  | fuel + 1, n => if (rd n).high &&& mask = c then (rd n, n) else pulses rd mask c fuel (n + 1)

/-- The result of R352: 1 PASS, 3 MARGINAL, 2 FAIL. -/
def pulseResult (r : OtpRead) (mask c : Nat) : Nat :=
  if r.high &&& mask = c then 1 else if r.norm &&& mask = c ∧ r.low &&& mask = c then 3 else 2

/-- The die is absent, in husk or recovering (R351). -/
def otpAbsent (s : Device) (d : Nat) : Bool :=
  let x := s.die d
  decide (s.nDies ≤ d) || !x.up || x.husk || x.recov.active
/-- VSYS below 4.5 V, or the die outside 0 to 85 °C; a die that is absent shows no temperature (R351, R457). -/
def otpSupply (s : Device) (d : Nat) : Bool :=
  let t := s.dget d DIE_TEMP_TEMP
  decide (s.pget PATH_STAT_VSYS_RD < 450) || !otpAbsent s d && (decide (t < 1024) || decide (2384 < t))
/-- A command programs cells. -/
def otpPulses (cmd : Nat) : Bool := cmd == 1 || cmd == 2 || cmd == 4

/-- The code of R351 that refuses a command, the lowest first; 0 when none applies. R351 refuses REINFORCE of word 511, which
R353 allows and gives its effect: R353 is followed (DESIGN CHOICE, notes/assumptions/35). -/
def otpRefusal (cmd d a region : Nat) (force : Bool) (data : Nat) (s : Device) : Nat :=
  let st := pkgState s
  let x := s.die d
  let active := s.chList.any fun g => s.cbit g CH_STAT_ACTIVE
  if s.otp.running then 1
  else if otpPulses cmd ∧ ¬(st = Pkg.qualify ∨ st = Pkg.run ∨ st = Pkg.hold ∨ st = Pkg.test) then 2
  else if cmd = 5 ∧ (¬(st = Pkg.qualify ∨ st = Pkg.hold ∨ st = Pkg.test) ∨ active) then 2
  else if otpPulses cmd ∧ otpSupply s d then 3
  else if otpAbsent s d then 4
  else if cmd = 1 ∧ (a < 128 ∨ a ≠ 511 ∧ otpLocked x (regionOf a)) then 5
  else if cmd = 1 ∧ a = 511 then 6
  else if cmd = 4 ∧ region < 2 then 6
  else if cmd = 1 ∧ (otpCell x a).low &&& codeOf data ≠ (otpCell x a).low then 7
  else if cmd = 4 ∧ !force ∧ (!checkMatches x region ∨ regionState x region = 5) then 8
  else if cmd = 2 ∧ a ≠ 511 ∧ (otpWord x a).kind = 2 then 9
  else 0

/-- A refusal changes only REFUSE and REFUSE_EVT, and the category (R351, R356). -/
def otpRefuse (code : Nat) (s : Device) : Device :=
  setCat Cat.otp ((s.pset OTP_STAT_REFUSE code).pset OTP_STAT_REFUSE_EVT 1)

/-- A command starts: the target die holds the pump for those that pulse (R350, R355). -/
def otpBegin (c : OtpCmd) (s : Device) : Device :=
  let at_ := s.now
  let s := { s with otp := { c with since := at_ } }
  let s := (s.pset OTP_STAT_BUSY 1).pset OTP_STAT_LAST_DIE c.die
  if c.pump then (s.pset BATON_STAT_OTP_DIE c.die).pset BATON_STAT_OTP_HELD 1 else s

/-- The cells under a codeword and mask: PROGRAM, REINFORCE and LOCK run R352 from its first pulse. -/
def otpPulseStart (kind d a mask c : Nat) (reads : List OtpRead) (s : Device) : Device :=
  let old := otpCell (s.die d) a
  let (r, n) := pulses (pulseRead reads s.free old c) mask c 8 0
  otpBegin { running := true, pump := true, since := 0, result := pulseResult r mask c, lets := n, addr := a, die := d, kind := kind, code := c, after := r }
    (s.spend 27)

/-- OTP_CMD PROGRAM (R352). -/
def otpProgram (d a : Nat) (data : Nat) (reads : List OtpRead) (s : Device) : Device :=
  let r := otpRefusal 1 d a 0 false data s
  if r ≠ 0 then otpRefuse r s else otpPulseStart 1 d a (2 ^ 39 - 1) (codeOf data) reads s

/-- The 1 bits of the blown nibbles of word 511 (R340, R353). -/
def blownBits (x : DieSt) : Nat :=
  (List.range 4).foldl (fun m r => m + (if otpLocked x r then lockNibble (otpCell x 511).norm r * 2 ^ (4 * r) else 0)) 0

/-- What REINFORCE pulses: every 1 bit of the corrected codeword, of word 511 the 1 bits of each blown nibble (R353). -/
def reinforceCode (x : DieSt) (a : Nat) : Nat := if a = 511 then blownBits x else codeOf (otpWord x a).data

/-- OTP_CMD REINFORCE (R353); it verifies the bits it pulses, of a word other than 511 the whole codeword. -/
def otpReinforce (d a : Nat) (reads : List OtpRead) (s : Device) : Device :=
  let r := otpRefusal 2 d a 0 false 0 s
  let c := reinforceCode (s.die d) a
  if r ≠ 0 then otpRefuse r s else otpPulseStart 2 d a (if a = 511 then c else 2 ^ 39 - 1) c reads s

/-- OTP_CMD LOCK: the nibble of a region (R354). -/
def otpLock (d region : Nat) (force : Bool) (reads : List OtpRead) (s : Device) : Device :=
  let r := otpRefusal 4 d 511 region force 0 s
  let m := 15 * 2 ^ (4 * region)
  if r ≠ 0 then otpRefuse r s else otpPulseStart 4 d 511 m m reads s

/-- OTP_CMD READ: the word is read at the three margins (R350). -/
def otpReadCmd (d a : Nat) (s : Device) : Device :=
  let r := otpRefusal 3 d a 0 false 0 s
  if r ≠ 0 then otpRefuse r s
  else otpBegin { running := true, pump := false, since := 0, result := 1, lets := 0, addr := a, die := d, kind := 3, code := 0, after := otpCell (s.die d) a } s

/-- The OTP_RD_* words of a READ (R356). -/
def otpShow (r : OtpRead) (s : Device) : Device :=
  let e := otpDecode r.norm
  let s := ((s.setReg 0xB4 (BitVec.ofNat 32 r.norm)).setReg 0xB5 (BitVec.ofNat 32 r.low)).setReg 0xB6 (BitVec.ofNat 32 r.high)
  let s := s.setReg 0xB7 (BitVec.ofNat 32
    (r.norm / 2 ^ 32 % 128 + r.low / 2 ^ 32 % 128 * 2 ^ 8 + r.high / 2 ^ 32 % 128 * 2 ^ 16 + e.syn * 2 ^ 24 + (if e.kind = 2 then 2 ^ 31 else 0)))
  s.setReg 0xB8 (BitVec.ofNat 32 e.data)

/-- A command ends with a result: OTP_STAT, the pump given back, the category of a FAIL or MARGINAL result and the entry
of a FAIL (R355, R356). -/
def otpEnd (result : Nat) (aborted : Bool) (s : Device) : Device :=
  let c := s.otp
  let s := ((((s.pset OTP_STAT_BUSY 0).pset OTP_STAT_RESULT result).pset OTP_STAT_LETS c.lets).pset OTP_STAT_ABORTED (if aborted then 1 else 0)).pset
    OTP_STAT_DONE_EVT 1
  let s := { s with otp := { c with running := false, pump := false } }
  let s := if c.pump then s.pset BATON_STAT_OTP_HELD 0 else s
  if result = 2 then logEvent Cat.otp 0 3 0xFF (c.addr + c.lets * 2 ^ 12) s
  else if result = 3 then setCat Cat.otp s else s

/-- OTP_COMMAND_DONE: the cells stand as pulsed, a READ shows its words, RESULT and DONE_EVT set (R352, R356, R358). -/
def otpDone (s : Device) : Device :=
  let c := s.otp
  if c.running then
    let s := if c.kind = 3 then otpShow c.after s else s.modDie c.die fun x => { x with otp := otpPut c.addr c.after x.otp }
    otpEnd c.result false s
  else s

/-- A command that pulses is cut: FAIL with ABORTED; the bits of its codeword that were not yet programmed are left weak,
absent or programmed (R355). A cut READ changes no cell. -/
def otpCutShort (s : Device) : Device :=
  let c := s.otp
  if c.running then
    let s :=
      if c.kind = 3 then s
      else
        let r := pulseRead [] s.free (otpCell (s.die c.die) c.addr) c.code 0
        (s.spend 3).modDie c.die fun x => { x with otp := otpPut c.addr r x.otp }
    otpEnd 2 true s
  else s

/-- OTP_PUMP_EXPIRY: the baton expires 5 ms after its grant (R355, R434). -/
def otpPumpExpiry (s : Device) : Device :=
  if s.otp.running && s.otp.pump && s.passed s.otp.since (msClocks 5) then
    let d := s.otp.die
    logEvent Cat.link d 0xB d 5 ((otpCutShort s).pset BATON_STAT_OTP_EXP_EVT 1)
  else s

/-- OTP_PROGRAM. -/
def execOtpProgram (d : Die) (addr : BitVec 9) (data : Word) (reads : List OtpRead) (s : State) : Host.Outcome State Fault Refusal :=
  onDev s (otpProgram d.val addr.toNat data.toNat reads)
/-- OTP_REINFORCE. -/
def execOtpReinforce (d : Die) (addr : BitVec 9) (reads : List OtpRead) (s : State) : Host.Outcome State Fault Refusal :=
  onDev s (otpReinforce d.val addr.toNat reads)
/-- OTP_READ. -/
def execOtpRead (d : Die) (addr : BitVec 9) (s : State) : Host.Outcome State Fault Refusal := onDev s (otpReadCmd d.val addr.toNat)
/-- OTP_LOCK. -/
def execOtpLock (d : Die) (region : BitVec 2) (force : Bool) (reads : List OtpRead) (s : State) : Host.Outcome State Fault Refusal :=
  onDev s (otpLock d.val region.toNat force reads)
/-- OTP_PUMP_EXPIRY. -/
def execOtpPumpExpiry (s : State) : Host.Outcome State Fault Refusal := onDev s otpPumpExpiry
/-- OTP_COMMAND_DONE. -/
def execOtpCommandDone (s : State) : Host.Outcome State Fault Refusal := onDev s otpDone

end Sys2Proof.Machine
end

