-- ==== Sys2Proof/Machine/Stored.lean ====
section
/-! DEFINITION. How a write of RW and RWP fields is stored (R8): values clamped, changed or ignored as each register's
rule says, for host writes, image entries (R370) and pin entries (R383) alike. -/

namespace Sys2Proof.Machine

/-- A field below a limit is stored as the limit. -/
def atLeast {b : Blk} (f : Fld b) (n : Nat) (w : Word) : Word := if f.get w < n then f.put n w else w
/-- A field is stored clamped. -/
def clamped {b : Blk} (f : Fld b) (lo hi : Nat) (w : Word) : Word := f.put (clampNat lo hi (f.get w)) w
/-- Four thresholds, lowest byte first, strictly ascending (R243, R318). -/
def ascending (w : Word) : Bool :=
  let b (i : Nat) : Nat := w.toNat / 2 ^ (8 * i) % 256
  decide (b 0 < b 1 ∧ b 1 < b 2 ∧ b 2 < b 3)

/-- Values of the package block as stored. -/
def pkgStored (off : Nat) (w : Word) : Word :=
  match off with
  | 0x05 => w &&& 0xDFF#32
  | 0x10 => lineCfgStored w
  | 0x21 => atLeast BUS_EFF_ETA_DSG 0x8000 (atLeast BUS_EFF_ETA_CHG 0x8000 w)
  | 0x27 => atLeast BUS_NOM_DEB 1 (atLeast BUS_NOM_FIT_HC 1 w)
  | 0x32 => clamped AUX_CFG_C_VOUT 18 33 w
  | 0x40 => atLeast KEEP_CFG_ITERM 1 (clamped KEEP_CFG_ICHG 10 150 (clamped KEEP_CFG_VTERM 10 35 w))
  | 0x43 => atLeast KEEP_TIMER_FAST 1 (atLeast KEEP_TIMER_PRE 1 w)
  | 0x44 => atLeast KEEP_NTC_RNOM 1 (atLeast KEEP_NTC_BETA 1000 w)
  | 0x4A => clamped KEEP_PATH_VHOLD 36 120 (clamped KEEP_PATH_ILIM 10 80 w)
  | 0x4D => atLeast HANDOVER_CTL_QUAL_TIME 1 w
  | 0x60 => clamped VBST_CFG_SET 240 650 w
  | 0x61 => clamped VBST_ILIM_CS 20 200 w
  | 0x63 => clamped VBST_SCHED_MAXPULL 1 8 w
  | 0x74 => atLeast NVM_CFG_DIV 5 w
  | 0x79 => atLeast CKPT_MIN_INT 1 w
  | 0x80 => plsStored false w
  | 0x84 => plsStored false w
  | 0x88 => plsStored false w
  | 0x8C => plsStored false w
  | 0x81 => plsStored true w
  | 0x85 => plsStored true w
  | 0x89 => plsStored true w
  | 0x8D => plsStored true w
  | 0x90 => tallyCfgStored w
  | 0x91 => tallyCfgStored w
  | 0xC0 => atLeast RESUME_CTL_LOCK_TMO 1 w
  | 0xD3 => atLeast FAULT_CFG_STABLE 1 (clamped FAULT_CFG_PKG_WDT 8 255 (clamped FAULT_CFG_LEAD_HOLD 10 1000 w))
  | _ => w

/-- Values of a die block as stored. -/
def dieStored (off : Nat) (w : Word) : Word :=
  match off with
  | 0x04 => atLeast BTEMP_CFG_RNOM 1 (atLeast BTEMP_CFG_BETA 1000 w)
  | 0x11 => atLeast BENCH_CFG_TSELF 75 (atLeast BENCH_CFG_PERIOD 1 w)
  | 0x12 => clamped BENCH_TIME_HOLD 250 15000 (clamped BENCH_TIME_OVL 25 4000 w)
  | 0x20 => valveCfgStored w
  | 0x24 => valveCfgStored w
  | 0x28 => valveCfgStored w
  | 0x2C => valveCfgStored w
  | 0x21 => valveModeStored w
  | 0x25 => valveModeStored w
  | 0x29 => valveModeStored w
  | 0x2D => valveModeStored w
  | _ => w

/-- Values of a channel block as stored. VCOMPLY and VFLOOR outside the ranges their rows name are stored as written
(DESIGN CHOICE, notes/assumptions/61: R91 names no storing rule for them). -/
def chStored (off : Nat) (w : Word) : Word :=
  match off with
  | 0x09 => if 6000000 < w.toNat then 6000000#32 else w
  | 0x0C => atLeast CH_PROT_RVP_TH 1 (clamped CH_PROT_OVP_TH 500 2750 (clamped CH_PROT_OCP_TH 8 160 w))
  | 0x0E => atLeast CH_CONTACT_CT_N 1 w
  | 0x14 => pwmStored w
  | 0x15 => dtStored w
  | 0x45 => wordOfInt (clampInt (-(2 ^ 20)) (2 ^ 20) w.toInt)
  | 0x46 => wordOfInt (clampInt (-(2 ^ 20)) (2 ^ 20) w.toInt)
  | 0x50 => acirCtlStored w
  | 0x6E => atLeast CH_NTC_CFG_RNOM 1 (atLeast CH_NTC_CFG_BETA 1000 w)
  | _ => w

/-- The value a write leaves in a word, by its address. -/
def wordStored (a : Nat) (w : Word) : Word :=
  match locate a with
  | some (.pkg, _, off) => pkgStored off w
  | some (.die, _, off) => dieStored off w
  | some (.ch, _, off) => chStored off w
  | none => w

/-- The fields of a mask take their bits from a write, the others stay. -/
def merge (mask old new : Word) : Word := (old &&& ~~~mask) ||| (new &&& mask)

/-- The offset of a conversion constant's word. -/
def isConst (off : Nat) : Bool := decide (0x40 ≤ off ∧ off ≤ 0x44)

/-- INT < SAG < 100 < SWELL (R269). -/
def busMonOk (w : Word) : Bool :=
  decide (BUS_MON_TH_INT.get w < BUS_MON_TH_SAG.get w ∧ BUS_MON_TH_SAG.get w < 100 ∧ 100 < BUS_MON_TH_SWELL.get w)

/-- VFLOOR is below VCOMPLY − 0.5 V (R91). -/
def complyOk (w : Word) : Bool := decide (CH_COMPLY_VFLOOR.get w + 50 < CH_COMPLY_VCOMPLY.get w)

/-- A write whose value breaks a relation is ignored whole (R63, R91, R243, R269, R298, R318, R295, R335). -/
def writeIgnored (a : Nat) (w : Word) (s : Device) : Bool :=
  match locate a with
  | some (.pkg, _, off) =>
    match off with
    | 0x11 => !plimOk w
    | 0x28 => !busMonOk w
    | 0x37 => !thresholdsOk (PGOOD_CTL_RISE.get w) (PGOOD_CTL_FALL.get w) (s.pget HANDOVER_CTL_PF_TH)
    | 0x4D => !thresholdsOk (s.pget PGOOD_CTL_RISE) (s.pget PGOOD_CTL_FALL) (HANDOVER_CTL_PF_TH.get w)
    | 0x41 => !ascending w
    | 0x60 => decide (VBST_CFG_SET.get w < VBST_CFG_READY.get w + 10)
    | 0x5D => s.pbit COMPAT_CTL_OTP_FIXED
    | _ => false
  | some (.ch, _, off) => if off = 0x0D then !complyOk w else (off == 0x68 || off == 0x69) && !ascending w
  | _ => false

/-- What follows a stored word at once: the clamp test of R276 and the glean domains' copy of RISE (R313). -/
def afterStore (a : Nat) (s : Device) : Device :=
  match locate a with
  | some (.pkg, _, 0x60) => s.each (List.range (4 * s.nDies)) clampTest
  | some (.pkg, _, 0x37) => gleanRise s
  | some (.die, d, off) => if off = 0x21 ∨ off = 0x25 ∨ off = 0x29 ∨ off = 0x2D then clampTest (4 * d + (off - 0x21) / 4) s else s
  | _ => s

/-- Store the fields of a mask of a word. -/
def storeFields (mask : Word) (a : Nat) (w : Word) (s : Device) : Device :=
  let v := wordStored a (merge mask (s.reg a) w)
  if writeIgnored a v s then s else afterStore a (s.setReg a v)

/-- An image or pin entry for a word: the fields of its mask (R370, R383). A word whose value would be ignored keeps what
it holds, at the start of the load its default (R243); PGOOD_CTL and HANDOVER_CTL are applied without their test (R298). -/
def loadWord (mask : Word) (a : Nat) (w : Word) (s : Device) : Device :=
  match locate a with
  | some (.ch, _, off) => if isConst off then s.setReg a (merge mask (s.reg a) w) else storeFields mask a w s
  | some (.pkg, _, off) =>
    if off = 0x37 ∨ off = 0x4D then afterStore a (s.setReg a (wordStored a (merge mask (s.reg a) w))) else storeFields mask a w s
  | _ => storeFields mask a w s

/-- The one test of the thresholds in force after a load: a broken relation takes the three defaults, with TH_BAD (R298). -/
def thresholdLoad (s : Device) : Device :=
  if thresholdsOk (s.pget PGOOD_CTL_RISE) (s.pget PGOOD_CTL_FALL) (s.pget HANDOVER_CTL_PF_TH) then s.pset PGOOD_CTL_TH_BAD 0
  else
    let s := (s.pset PGOOD_CTL_RISE 0x5A).pset PGOOD_CTL_FALL 0x3C
    gleanRise ((s.pset HANDOVER_CTL_PF_TH 0x46).pset PGOOD_CTL_TH_BAD 1)

/-- The mask of a word's RWP fields (R8). -/
def rwpMask (a : Nat) : Word := match rowAt a with | some r => BitVec.ofNat 32 r.rwp | none => 0
/-- The mask of a word's RW and RWP fields. -/
def rwMask (a : Nat) : Word := match rowAt a with | some r => BitVec.ofNat 32 (r.rw ||| r.rwp) | none => 0

/-- The words of the accumulation, whose values come into force at the first boundary after the seeding (R132, R135, R148):
the value in force stands until then. -/
def accWord (a : Nat) : Bool := match locate a with | some (.ch, _, off) => decide (0x40 ≤ off ∧ off ≤ 0x48) | _ => false

/-- The I fields of a die's words come into force: nothing runs yet that a later moment would serve. -/
def forceDie (d : Nat) (s : Device) : Device :=
  let kept := s.force.filter fun p => ownerOf p.1 != d || accWord p.1
  { s with force := (s.regs.filter fun p => ownerOf p.1 == d && iMask p.1 != 0 && !accWord p.1).foldl (fun f p => rfPut p.1 p.2 f) kept }

/-- The constants of a die's channels are tested, live corrections whose baselines differ, and those of a die in class 2,
are reset, the die's words come into force and its seeding begins (R118, R129, R141, R188). -/
def settleDie (d : Nat) (s : Device) : Device :=
  let two := s.dget d DIE_STAT_ACC_CLASS == 2
  let s := s.each (chansOf d) fun g t =>
    let t := baseReset g (constLoad g t)
    if two then resetLive (baseWords t g) g t else t
  forceDie d (s.modDie d fun x => { x with seedAt := if x.seeded then x.seedAt else some s.frame })

end Sys2Proof.Machine
end

