-- ==== Sys2Proof/Machine/Flash.lean ====
section
/-! DEFINITION. The flash (R359), the image with its header, sections and recipes (R226 to R229, R365 to R373), the ring
scan (R375, R380, R381) and the pin store (R372, R383). -/

namespace Sys2Proof.Machine

/-! Flash cells: a canonical list, unlisted bytes erased. -/

/-- A byte of the flash. -/
def flashByte (f : List (Nat × Byte)) (a : Nat) : Byte := ((f.find? fun p => p.1 == a).map (·.2)).getD 0xFF#8
/-- n bytes of the flash from an address. -/
def flashRead (f : List (Nat × Byte)) (a n : Nat) : List Byte := (List.range n).map fun i => flashByte f (a + i)
/-- Insert a byte, addresses rising. -/
def flashPut (a : Nat) (b : Byte) : List (Nat × Byte) → List (Nat × Byte)
  | [] => [(a, b)]
  | (c, v) :: t => if a < c then (a, b) :: (c, v) :: t else if a = c then (a, b) :: t else (c, v) :: flashPut a b t
/-- Set a byte, an erased one unlisted. -/
def flashSet (f : List (Nat × Byte)) (a : Nat) (b : Byte) : List (Nat × Byte) :=
  if b = 0xFF#8 then f.filter fun p => p.1 != a else flashPut a b f
/-- A page program: bits go from 1 to 0. -/
def flashProgram (f : List (Nat × Byte)) (a : Nat) (l : List Byte) : List (Nat × Byte) :=
  (l.zipIdx).foldl (fun f p => flashSet f (a + p.2) (flashByte f (a + p.2) &&& p.1)) f
/-- A 4 KiB sector erase. -/
def flashErase (f : List (Nat × Byte)) (a : Nat) : List (Nat × Byte) :=
  f.filter fun p => !(decide (a / 4096 * 4096 ≤ p.1) && decide (p.1 < a / 4096 * 4096 + 4096))
/-- A sector reads blank. -/
def flashBlank (f : List (Nat × Byte)) (a : Nat) : Bool :=
  f.all fun p => !(decide (a / 4096 * 4096 ≤ p.1) && decide (p.1 < a / 4096 * 4096 + 4096))

/-- Change the flash. -/
def modFlash (g : List (Nat × Byte) → List (Nat × Byte)) (s : Device) : Device := s.modNvm fun n => { n with flash := g n.flash }
/-- The flash's bytes from an address. -/
def fread (s : Device) (a n : Nat) : List Byte := flashRead s.nvm.flash a n

/-- The capacity 2^b of the third identification byte, none where it names none (R366). -/
def flashCap (id : Nat) : Option Nat :=
  let b := id / 2 ^ 16 % 256
  if 17 ≤ b ∧ b ≤ 24 then some (2 ^ b) else none
/-- The capacity the device takes. -/
def capacity (s : Device) : Nat := (flashCap s.nvm.flashId).getD (2 ^ 24)

/-- A sequence number is newer than another: the other precedes it by less than 2^31 (R375). -/
def newer (a b : Nat) : Bool := decide (0 < (a + 2 ^ 32 - b) % 2 ^ 32 ∧ (a + 2 ^ 32 - b) % 2 ^ 32 < 2 ^ 31)

/-! The header (R365, R366). -/

/-- HDR_ERR of the header's bytes, 0 for a good one. -/
def headerErr (id cap : Nat) (h : List Byte) : Nat :=
  let len := uAt h 8 4
  let dies := uAt h 6 1
  if id = 0 ∨ id = 0xFFFFFF then 1
  else if h.take 4 ≠ [0x47#8, 0x4C#8, 0x53#8, 0x48#8] then 2
  else if uAt h 4 2 ≠ 1 then 3
  else if uAt h 28 4 ≠ (crc32 (h.take 28)).toNat then 4
  else if len % 4 ≠ 0 ∨ len < 44 ∨ cap < len then 5
  else if dies ≠ 2 ∧ dies ≠ 4 ∧ dies ≠ 8 then 6
  else 0

/-! Recipes (R226 to R230). -/

/-- A step record's fields (R228). -/
def stepOf (b : List Byte) : StepRec :=
  let f := uAt b 1 1
  let n := uAt b 2 1
  { typ := uAt b 0 1, range := f % 2, resume := min (f / 2 % 4) 2, seamless := f.testBit 3, suspEnd := f.testBit 4
    twOff := f.testBit 5, noCkpt := f.testBit 6, nterm := n % 8, retries := n / 16, jump := uAt b 3 1, p1 := uAt b 4 4
    p2 := uAt b 8 4, p3 := uAt b 12 4, terms := (List.range 4).map fun i => uAt b (16 + 4 * i) 4 }

/-- The parameters stand in the ranges of R230. -/
def paramsOk (r : StepRec) : Bool :=
  let mag (x : Nat) : Bool := decide (1 ≤ x ∧ x < 2 ^ 31)
  match r.typ with
  | 0 => decide ((r.p1 = 1 ∨ r.p1 = 2) ∧ r.p2 = 0 ∧ r.p3 = 0)
  | 1 => mag r.p1 && decide (r.p2 = 0 ∧ r.p3 = 0)
  | 2 => mag r.p1 && decide (r.p2 = 0 ∧ r.p3 = 0)
  | 3 => decide (r.p1 = 0 ∧ r.p2 ≤ 6000000 ∧ r.p3 = 0)
  | 4 => decide (r.p1 ≠ 2 ^ 31 ∧ r.p2 ≤ 6000000 ∧ r.p3 = 0)
  | 5 => mag r.p1 && decide (r.p2 = 0 ∧ r.p3 = 0)
  | 6 => mag r.p1 && decide (r.p2 = 0 ∧ r.p3 = 0)
  | 7 => decide (r.p1 = 0 ∧ r.p2 = 0 ∧ r.p3 = 0)
  | 8 => decide (1 ≤ r.p1 ∧ r.p1 < 65536 ∧ r.p2 = 0 ∧ r.p3 = 0)
  | 9 => decide (r.p1 % 256 ≠ 0 ∧ r.p1 / 2 ^ 8 % 256 ≠ 0 ∧ r.p1 / 2 ^ 16 % 4 ≠ 0 ∧ 1 ≤ r.p1 / 2 ^ 18 % 2048 ∧
      r.p1 / 2 ^ 18 % 2048 ≤ 1024 ∧ r.p1 < 2 ^ 29 ∧ r.p3 % 256 ≠ 0 ∧ r.p3 < 65536)
  | 10 => decide (r.p3 % 65536 ≠ 0 ∧ r.p3 / 65536 ≠ 0)
  | 11 => decide (1 ≤ r.p1 ∧ r.p1 < 65536 ∧ r.p2 = 0 ∧ r.p3 = 0)
  | _ => decide (r.p2 = 0 ∧ r.p3 = 0)

/-- A termination word of a step: its KIND is defined, 12 and 13 only in a GOTO_IF, its reserved bit 0, its jump below
STEP_COUNT (R229, R231). -/
def termOk (count jump : Nat) (goto : Bool) (w : Nat) : Bool :=
  let k := w / 2 ^ 27
  w == 0 || (decide (1 ≤ k ∧ k ≤ 13) && (goto || decide (k < 12)) && decide (w / 2 ^ 24 % 2 = 0) &&
    (w / 2 ^ 25 % 4 != 1 || goto || decide (jump < count)))

/-- The slots of a step that hold termination words: two for PULSE, whose others are capture delays (R228). -/
def termSlots (r : StepRec) : Nat := if r.typ = 10 then 2 else 4

/-- The checks of R229 on a step record at its index. -/
def stepOk (count i : Nat) (b : List Byte) : Bool :=
  let r := stepOf b
  let used := r.terms.take r.nterm
  let rest := (r.terms.take (termSlots r)).drop r.nterm
  decide (r.typ ≤ 12) && decide (uAt b 1 1 < 128) && decide (uAt b 2 1 / 8 % 2 = 0) && decide (r.nterm ≤ termSlots r) &&
    paramsOk r && used.all (termOk count r.jump (r.typ == 12)) && rest.all (· == 0) &&
    (r.typ != 11 || decide (r.jump < i)) &&
    (r.typ != 12 || decide (r.jump < count) && r.p1 != 0 && termOk count r.jump true r.p1)

/-- A RECIPE body: the recipe, or the index of the first failing step, 0xFF for the header (R229, R431). -/
def parseRecipe (sect body : List Byte) (crc : Word) : Except Nat Recipe :=
  let n := uAt body 2 2
  let hdrOk := decide (uAt body 0 1 < 16) && decide (uAt body 1 1 = 1) && decide (1 ≤ n ∧ n ≤ 256) &&
    decide (n = (body.length - 16) / 32) && decide (uAt body 5 3 = 0) && decide (uAt body 12 4 = 0)
  if !hdrOk then .error 0xFF
  else match (List.range n).find? fun i => !stepOk n i (slice body (16 + 32 * i) 32) with
    | some i => .error (i % 256)
    | none => .ok { sect := sect, id := uAt body 0 1, tag := BitVec.ofNat 32 (uAt body 8 4), crc := crc, header := body.take 16, bytes := body.drop 16,
                    steps := (List.range n).map fun i => stepOf (slice body (16 + 32 * i) 32) }

/-- The dies a recipe's DIE_MASK names. -/
def recipeFor (r : Recipe) (d : Nat) : Bool := (uAt r.header 4 1).testBit d

/-- Recipes in ascending RECIPE_ID, as the dies load them (R227). -/
def byId (l : List Recipe) : List Recipe := (List.range 16).filterMap fun i => l.find? fun r => r.id == i

/-- Those that fit into 24 KiB, and those that do not (R227). -/
def fitRam : Nat → List Recipe → List Recipe × List Recipe
  | _, [] => ([], [])
  | free, r :: l =>
    let need := 32 + 32 * r.steps.length
    if need ≤ free then let (a, b) := fitRam (free - need) l; (r :: a, b) else let (a, b) := fitRam free l; (a, r :: b)

/-- A rejected recipe's entry (R229, R431). -/
def recipeBad (d id step : Nat) (s : Device) : Device := logEvent Cat.ch d 0x21 0xFF (id % 16 + step * 256) s

/-! Sections (R367 to R370). -/

/-- The rule of R368 for BLEN; of a type the table does not know only that it is a multiple of 4. -/
def blenOk (typ n : Nat) : Bool :=
  match typ with
  | 1 => decide (32 ≤ n ∧ (n - 32) % 8 = 0 ∧ (n - 32) / 8 ≤ 128)
  | 2 => decide (n % 8 = 0 ∧ 1 ≤ n / 8 ∧ n / 8 ≤ 56)
  | 3 => decide (n % 8 = 0 ∧ 1 ≤ n / 8 ∧ n / 8 ≤ 48)
  | 4 => decide (16 ≤ n ∧ (n - 16) % 32 = 0 ∧ 1 ≤ (n - 16) / 32 ∧ (n - 16) / 32 ≤ 256)
  | 5 => decide (8 ≤ n ∧ (n - 8) % 8 = 0 ∧ (n - 8) / 8 ≤ 1022)
  | 6 => decide (n = 8)
  | _ => decide (n % 4 = 0)

/-- DIE and CH stand in the range of the type (R368). -/
def indexOk (c : Section) : Bool :=
  match c.typ with
  | 2 => decide (c.die < 8 ∧ c.ch = 0xFF)
  | 3 => decide (c.die < 8 ∧ c.ch < 8)
  | _ => decide (c.die = 0xFF ∧ c.ch = 0xFF)

/-- The SCRC holds (R367). -/
def scrcOk (c : Section) : Bool := (crc32 (c.head ++ c.body)).toNat == c.crc

/-- A register entry: its word address and value, and whether bytes 2 and 3 are 0 (R370). -/
def entriesOf (b : List Byte) : List (Nat × Word × Bool) :=
  (List.range (b.length / 8)).map fun i => (uAt b (8 * i) 2, BitVec.ofNat 32 (uAt b (8 * i + 4) 4), uAt b (8 * i + 2) 2 == 0)

/-- The host address of an entry of a section. -/
def entryAddr (c : Section) (off : Nat) : Option Nat :=
  match c.typ with
  | 1 => if off < 0x100 then some off else none
  | 2 => if off < 0x200 then some (dieAddr c.die off) else none
  | _ => if off < 0x80 then some (chAddr (8 * c.die + c.ch) off) else none

/-- Every entry names a word with a field of Kept code I and has its zero bytes (R370). -/
def entriesOk (c : Section) (b : List Byte) : Bool :=
  (entriesOf b).all fun e => e.2.2 && (match entryAddr c e.1 with | some a => iMask a != 0 | none => false)

/-- The entries of a section take effect in order (R370). -/
def applyEntries (c : Section) (b : List Byte) (s : Device) : Device :=
  (entriesOf b).foldl (fun t e => match entryAddr c e.1 with | some a => loadWord (iMask a) a e.2.1 t | none => t) s

/-- Two spans of the flash overlap. -/
def overlaps (a n b m : Nat) : Bool := decide (0 < n ∧ 0 < m ∧ a < b + m ∧ b < a + n)

/-- The pin store's four sectors. -/
def storeLen (base : Nat) : Nat := if base = 0xFFFFFFFF then 0 else 0x4000

/-- A CKPT body is accepted (R372). -/
def ckptOk (s : Device) (b : List Byte) : Bool :=
  let base := uAt b 0 4
  let n := uAt b 4 2
  decide (base % 4096 = 0 ∧ uAt b 6 2 = 0 ∧ n % 2 = 0 ∧ 16 ≤ n ∧ n ≤ 256 ∧ s.nvm.imgLen ≤ base ∧ base + n * 4096 ≤ capacity s) &&
    !overlaps base (n * 4096) s.nvm.pinBase (storeLen s.nvm.pinBase)

/-- A PIN body is accepted (R372). -/
def pinOk (s : Device) (b : List Byte) : Bool :=
  let base := uAt b 0 4
  decide (uAt b 4 4 = 0) && (base == 0xFFFFFFFF ||
    decide (base % 4096 = 0 ∧ s.nvm.imgLen ≤ base ∧ base + 0x4000 ≤ capacity s) &&
      !overlaps base 0x4000 s.nvm.ringBase (s.nvm.sectors * 4096))

/-- The entries of a PIN body or of a store copy. -/
def pinEntries (b : List Byte) : List (Nat × Word) := (entriesOf b).map fun e => (e.1, e.2.1)

/-- The walk through the sections. -/
structure Walk where
  dev : Device
  count : Nat
  seen : List (Nat × Nat × Nat)
  recipes : List Recipe
  ownPins : List (Nat × Word)
  trunc : Bool
  deriving DecidableEq, Repr

/-- A rejected section is counted, with its SECTION_BAD entry (R369). -/
def sectionBad (typ die ch : Nat) (s : Device) : Device :=
  let s := if s.pget IMAGE_STAT_REJECTED = 0 then s.pset IMAGE_STAT_FIRST_TYPE typ else s
  logEvent Cat.nvm 0 4 0xFF (typ + die * 256 + ch * 65536) (s.pinc IMAGE_STAT_REJECTED)

/-- A section is rejected (R369). -/
def countReject (c : Section) (w : Walk) : Walk := { w with dev := sectionBad c.typ c.die c.ch w.dev }

/-- The line identity and the board serial: those of the lead die's customer region when its OTP load found it valid, else the
image's customer prefix (R341, R368). -/
def customerItems (s : Device) (pre : List Byte) : List Byte :=
  if validState (s.dget 0 OTP_DSTAT_CUST_ST) then s.nvm.customer else pre

/-- A die keeps an accepted section in its image cache (R37, R371). -/
def putCache (c : Section) (l : List Section) : List Section := (l.filter fun x => !(x.typ == c.typ && x.ch == c.ch)) ++ [c]

/-- What an accepted section does; a die that stayed up keeps its fields (R391). -/
def takeSection (c : Section) (w : Walk) : Walk :=
  let s := w.dev
  match c.typ with
  | 1 =>
    if entriesOk c (c.body.drop 32) then
      { w with dev := applyEntries c (c.body.drop 32) (s.modNvm fun n => { n with customer := customerItems s (c.body.take 32) }), seen := (1, 0, 0) :: w.seen }
    else countReject c w
  | 2 =>
    if entriesOk c c.body then
      let s := if (s.die c.die).ctl then s else (applyEntries c c.body s).modDie c.die fun x => { x with
        hasDie := true, cache := putCache c x.cache }
      { w with dev := s, seen := (2, c.die, 0) :: w.seen }
    else countReject c w
  | 3 =>
    if entriesOk c c.body then
      let s := if (s.die c.die).ctl then s else (applyEntries c c.body s).modDie c.die fun x => { x with
        hasChan := x.hasChan.set c.ch true, cache := putCache c x.cache }
      { w with dev := s, seen := (3, c.die, c.ch) :: w.seen }
    else countReject c w
  | 4 =>
    match parseRecipe c.head c.body (BitVec.ofNat 32 c.crc) with
    | .ok r => { w with recipes := w.recipes ++ [r] }
    | .error i =>
      let dies := s.dieList.filter fun d => (uAt c.body 4 1).testBit d
      let w := countReject c w
      { w with dev := w.dev.each dies fun d t => recipeBad d (uAt c.body 0 1) i t }
  | 5 =>
    if pinOk s c.body then
      { w with dev := s.modNvm (fun n => { n with pinOk := true, pinBase := uAt c.body 0 4 }), ownPins := pinEntries (c.body.drop 8), seen := (5, 0, 0) :: w.seen }
    else countReject c w
  | _ =>
    if ckptOk s c.body then
      { w with dev := s.modNvm (fun n => { n with ringBase := uAt c.body 0 4, sectors := uAt c.body 4 2 }), seen := (6, 0, 0) :: w.seen }
    else countReject c w

/-- The key under which a section may stand once. -/
def sectionKey (c : Section) : Nat × Nat × Nat := (c.typ, if c.typ = 2 ∨ c.typ = 3 then c.die else 0, if c.typ = 3 then c.ch else 0)

/-- One section: skipped, ignored, rejected or taken (R369). -/
def doSection (c : Section) (w : Walk) : Walk :=
  if c.typ = 0 ∨ 6 < c.typ then { w with dev := w.dev.pinc IMAGE_STAT_UNKNOWN }
  else if !indexOk c then countReject c w
  else if (c.typ = 2 ∨ c.typ = 3) ∧ w.dev.nDies ≤ c.die then w
  else if !scrcOk c ∨ w.seen.contains (sectionKey c) then countReject c w
  else takeSection c w

/-- The walk from an offset: it stops with TRUNC where the next section cannot be found (R369). -/
def walkFrom (img : List Byte) : Nat → Nat → Walk → Walk
  | 0, _, w => w
  | fuel + 1, off, w =>
    if img.length ≤ off then w
    else if img.length < off + 12 then { w with trunc := true }
    else
      let n := uAt img (off + 4) 4
      let c : Section := { typ := uAt img off 1, die := uAt img (off + 1) 1, ch := uAt img (off + 2) 1, crc := uAt img (off + 8) 4,
                           head := slice img off 8, body := slice img (off + 12) n }
      if !blenOk c.typ n then { countReject c { w with count := w.count + 1 } with trunc := true }
      else if img.length < off + 12 + n then { w with trunc := true }
      else walkFrom img fuel (off + 12 + n) (doSection c { w with count := w.count + 1 })

/-- The first section is a PACKAGE section that passes (R366). -/
def firstOk (img : List Byte) : Bool :=
  let n := uAt img 36 4
  let c : Section := { typ := uAt img 32 1, die := uAt img 33 1, ch := uAt img 34 1, crc := uAt img 40 4,
                       head := slice img 32 8, body := slice img 44 n }
  decide (c.typ = 1) && blenOk 1 n && decide (44 + n ≤ img.length) && indexOk c && scrcOk c && entriesOk c (c.body.drop 32)

/-! Recipes into the dies. -/

/-- The first section of each RECIPE_ID for a die stays, later ones are rejected (R227). -/
def firstOfId : List Nat → List Recipe → List Recipe × List Recipe
  | _, [] => ([], [])
  | ids, r :: l =>
    if ids.contains r.id then let (a, b) := firstOfId ids l; (a, r :: b) else let (a, b) := firstOfId (r.id :: ids) l; (r :: a, b)

/-- A die loads its recipes; those it rejects are counted and logged (R227, R229). -/
def loadRecipes (all : List Recipe) (d : Nat) (s : Device) : Device :=
  let (first, dup) := firstOfId [] (all.filter fun r => recipeFor r d)
  let (fit, big) := fitRam 24576 (byId first)
  let s := s.modDie d fun x => { x with recipes := fit }
  (dup ++ big).foldl (fun t r => recipeBad d r.id 0xFF (sectionBad 4 0xFF 0xFF t)) s

/-! The ring (R375, R376, R380, R381). -/

/-- The number of slots. -/
def slots (s : Device) : Nat := s.nvm.sectors / 2
/-- The flash address of a slot. -/
def slotAddr (s : Device) (i : Nat) : Nat := s.nvm.ringBase + i * 8192
/-- A die's record in a slot. -/
def recordAt (s : Device) (i d : Nat) : List Byte := fread s (slotAddr s i + 1024 * d) 1024
/-- Bytes with a 4-byte field taken as 0. -/
def blanked (l : List Byte) (off : Nat) : List Byte := l.take off ++ zeros 4 ++ l.drop (off + 4)
/-- A record passes magic, die index and CRC (R376, R381). -/
def recordOk (d : Nat) (r : List Byte) : Bool :=
  decide (r.take 4 = [0x47#8, 0x4C#8, 0x43#8, 0x4B#8]) && uAt r 4 1 == d && uAt r 12 4 == (crc32 (blanked r 12)).toNat
/-- A record's sequence. -/
def recordSeq (r : List Byte) : Nat := uAt r 8 4
/-- The page at a slot's start. -/
def fallAt (s : Device) (i : Nat) : List Byte := fread s (slotAddr s i) 256
/-- A fall page passes magic and CRC (R380). -/
def fallOk (p : List Byte) : Bool :=
  decide (p.take 4 = [0x47#8, 0x4C#8, 0x46#8, 0x4C#8]) && uAt p 252 4 == (crc32 (p.take 252)).toNat
/-- A fall page's sequence. -/
def fallSeq (p : List Byte) : Nat := uAt p 4 4

/-- The slots with a valid fall page. -/
def fallSlots (s : Device) : List Nat := (List.range (slots s)).filter fun i => fallOk (fallAt s i)
/-- The slots no valid fall page names (R381). -/
def validSlots (s : Device) : List Nat :=
  let bad := (fallSlots s).map fun i => uAt (fallAt s i) 10 1
  (List.range (slots s)).filter fun i => !bad.contains i
/-- The newest of numbered sequences: slot and sequence. -/
def newest : List (Nat × Nat) → Option (Nat × Nat)
  | [] => none
  | x :: l => match newest l with | none => some x | some y => if newer y.2 x.2 then some y else some x
/-- The newest valid record of a die: slot and sequence (R381). -/
def bestRecord (s : Device) (d : Nat) : Option (Nat × Nat) :=
  newest (((validSlots s).filter fun i => recordOk d (recordAt s i d)).map fun i => (i, recordSeq (recordAt s i d)))
/-- The newest valid fall page: slot and sequence. -/
def bestFall (s : Device) : Option (Nat × Nat) := newest ((fallSlots s).map fun i => (i, fallSeq (fallAt s i)))

/-- Put an operation into the NVM queue of 16 entries, with its peak (R363, R446). -/
def nvmPush (op : NvmOp) (s : Device) : Device :=
  if s.nvm.queue.length < 16 ∧ !s.nvm.queue.contains op ∧ s.nvm.cur ≠ some op then
    let s := s.modNvm fun n => { n with queue := n.queue ++ [op] }
    let n := s.nvm.queue.length
    (s.pset QUEUE_STAT_NVM_Q n).pset QUEUE_STAT_NVM_PEAK (max n (s.pget QUEUE_STAT_NVM_PEAK))
  else s

/-- The spare is looked at: blank, or a restore is queued (R377, R381). -/
def spareCheck (s : Device) : Device :=
  if s.nvm.sectors = 0 then s
  else if flashBlank s.nvm.flash (slotAddr s (s.pget CKPT_STAT_SLOT)) then s.pset CKPT_STAT_SPARE_OK 1
  else nvmPush .spare (s.pset CKPT_STAT_SPARE_OK 0)

/-- The records and the fall page of the ring as it stands (R381). -/
def ringBest (s : Device) : Device :=
  let recs := (List.range 8).map (bestRecord s)
  let page := bestFall s
  let any := (newest (recs.filterMap id ++ page.toList)).isSome
  s.modNvm fun n => { n with best := recs.map fun r => r.map (·.1), anyRecord := any, fall := page.map (·.1) }

/-- The scan of every slot at a start (R381). -/
def ringScan (s : Device) : Device :=
  if s.nvm.sectors = 0 then s.pset IMAGE_STAT_NO_RING 1
  else
    let recs := (List.range 8).map (bestRecord s)
    let page := bestFall s
    let top := newest (recs.filterMap id ++ page.toList)
    let w := match top with | none => 0 | some x => (x.1 + 1) % slots s
    let isFall := match page, top with | some p, some t => p == t | _, _ => false
    let s := (ringBest s).modNvm fun n => { n with ckptSeq := (top.map (·.2)).getD 0 }
    let s := ((s.pset CKPT_STAT_SLOT w).setReg 0x7C (BitVec.ofNat 32 ((top.map (·.2)).getD 0))).pset CKPT_STAT_FALL_FOUND (if isFall then 1 else 0)
    spareCheck s

/-! The pin store (R372, R383). -/

/-- A store copy's bytes. -/
def copyAt (s : Device) (b : Bool) : List Byte := fread s (s.nvm.pinBase + (if b then 0x2000 else 0)) 8192
/-- A copy is valid. -/
def copyOk (l : List Byte) : Bool :=
  decide (l.take 4 = [0x47#8, 0x4C#8, 0x50#8, 0x4E#8]) && decide (uAt l 8 2 ≤ 1022) &&
    uAt l 12 4 == (crc32 (blanked (l.take (16 + 8 * uAt l 8 2)) 12)).toNat
/-- The copy a load uses: the newer valid one, A when they are equal (R383). -/
def copyUsed (s : Device) : Option (Bool × List Byte) :=
  let a := copyAt s false
  let b := copyAt s true
  if copyOk a && (!copyOk b || !newer (uAt b 4 4) (uAt a 4 4)) then some (false, a) else if copyOk b then some (true, b) else none

/-- A pin entry counts: its word has an RWP field and its die is present (R383). -/
def pinValid (s : Device) (a : Nat) : Bool :=
  rwpMask a != 0 && (match locate a with | some (.pkg, _, _) => true | some (.die, d, _) => decide (d < s.nDies) | some (.ch, g, _) => decide (g < s.nCh) | none => false)

/-- The pins of the load come into force after all sections (R383). -/
def pinLoad (own : List (Nat × Word)) (s : Device) : Device :=
  if s.nvm.pinOk then
    let store := s.nvm.pinBase ≠ 0xFFFFFFFF
    let c := if store then copyUsed s else none
    let l := (match c with | some (_, b) => pinEntries (slice b 16 (8 * uAt b 8 2)) | none => own).filter fun p => pinValid s p.1
    let s := s.modNvm fun n => { n with pins := l, pinGen := (c.map fun x => uAt x.2 4 4).getD 0 }
    let s := ((s.pset PIN_STAT_COUNT l.length).pset PIN_STAT_COPY (if (c.map (·.1)).getD false then 1 else 0)).pset PIN_STAT_STORE_OK (if store then 1 else 0)
    (l.filter fun p => !(s.die (ownerOf p.1)).ctl).foldl (fun t p => loadWord (rwpMask p.1) p.1 p.2 t) s
  else s.pset PIN_STAT_STORE_OK 0

/-- The entries of a section with a pin applied: the word's entry carries the pinned RWP fields (R384). -/
def pinEntry (a off : Nat) (w : Word) (l : List (Nat × Word)) : List (Nat × Word) :=
  let old := ((l.reverse.find? fun e => e.1 == off).map (·.2)).getD (regDefault a)
  (l.filter fun e => e.1 != off) ++ [(off, merge (rwpMask a) old w)]

/-- A cached section with the pins of its words applied and its CRC recomputed (R384). -/
def pinSection (pins : List (Nat × Word)) (c : Section) : Section :=
  let mine := pins.filterMap fun p => ((List.range 512).find? fun off => entryAddr c off == some p.1).map fun off => (p.1, off, p.2)
  if mine = [] then c
  else
    let l := mine.foldl (fun l p => pinEntry p.1 p.2.1 p.2.2 l) (pinEntries c.body)
    let body := l.flatMap fun e => leBytes 2 e.1 ++ zeros 2 ++ leBytes 4 e.2.toNat
    let head := c.head.take 4 ++ leBytes 4 body.length
    { c with head := head, body := body, crc := (crc32 (head ++ body)).toNat }

/-- The pins in force for the words of a die's sections: its cache takes them (R384). -/
def cachePins (d : Nat) (s : Device) : Device :=
  let pins := s.nvm.pins
  s.modDie d fun x => { x with cache := x.cache.map (pinSection pins) }

/-- A word differs in its I fields from the entry of a cached section, whose default stands where it has none. -/
def cacheDiffers (s : Device) (d typ ch off a : Nat) : Bool :=
  let c := (s.die d).cache.find? fun c => c.typ == typ && (typ == 2 || c.ch == ch)
  let e := c.bind fun c => ((pinEntries c.body).reverse.find? fun e => e.1 == off).map (·.2)
  let w := wordStored a (merge (iMask a) (regDefault a) (e.getD (regDefault a)))
  (w &&& iMask a) != (s.reg a &&& iMask a)

/-- CAL_CTL.PIN_DUE: a field of the board layer differs from the image cache copy (R186, R203). -/
def pinDue (s : Device) (g : Nat) : Bool :=
  let d := g / 8
  cacheDiffers s d 2 0 0x004 (dieAddr d 0x004) ||
    (calOffs ++ [0x47, 0x48]).any fun o => cacheDiffers s d 3 (g % 8) o (chAddr g o)

/-- DIE_STAT.CACHE_OK: the die's DIE section stands in its cache with a matching CRC (R38, R456). -/
def cacheDie (d : Nat) (s : Device) : Device :=
  s.dset d DIE_STAT_CACHE_OK (if (s.die d).cache.any fun c => c.typ == 2 && scrcOk c then 1 else 0)

/-- The local channels of a die without a CHANNEL section. -/
def missing (x : DieSt) : Nat := (List.range 8).foldl (fun m c => m + (if (x.hasChan[c]?).getD false then 0 else 2 ^ c)) 0

/-- CFG_MAP shows the channels of a die that its missing sections hold in husk (R369, R385). -/
def cfgMap (d : Nat) (s : Device) : Device :=
  let miss := missing (s.die d)
  let off := 0x77 + d / 4
  s.setReg off (merge (BitVec.ofNat 32 (255 * 2 ^ (8 * (d % 4)))) (s.reg off) (BitVec.ofNat 32 (miss * 2 ^ (8 * (d % 4)))))

/-- A channel in husk for want of its section has an idle step engine (R369). -/
def huskIdle (g : Nat) (s : Device) : Device :=
  if (s.dget (g / 8) DIE_STAT_CH_HUSK).testBit (g % 8) then (setEng EngSt.idle g s).modEng g fun e => { e with interrupted := false } else s

/-- What a die's missing sections hold in husk (R369). -/
def huskDie (d : Nat) (s : Device) : Device :=
  let x := s.die d
  let s := (cfgMap d s).dset d DIE_STAT_CH_HUSK (missing x)
  publishDies (s.modDie d fun y => { y with husk := !x.hasDie || x.recov.active || x.link.badIndex || x.link.failed })

/-! IMAGE_LOAD. -/

/-- A bad header: the device takes no section and waits (R366). -/
def imageBad (err : Nat) (s : Device) : Device := logEvent Cat.nvm 0 3 0xFF err (s.pset IMAGE_STAT_HDR_ERR err)

/-- The dies that this load configures: those that started; the others keep their fields (R391). -/
def loadDies (s : Device) : List Nat := s.dieList.filter fun d => !(s.die d).ctl

/-- What follows the walk: the end checks, recipes, thresholds, pins, the ring, and the words in force (R371). VBST_CFG.SET
may have changed for every die, and CFG_MAP shows the dies that stayed up as well (R276, R385). -/
def imageSettle (img : List Byte) (w : Walk) : Device :=
  let s := if w.trunc ∨ w.count ≠ uAt img 16 2 then w.dev.pset IMAGE_STAT_TRUNC 1 else w.dev
  let s := s.each (loadDies s) (loadRecipes w.recipes)
  let s := thresholdLoad (pinLoad w.ownPins (ringScan s))
  let s := s.each (loadDies s) fun d t => settleDie d (huskDie d (cacheDie d t))
  let s := (s.each s.dieList cfgMap).each (List.range (4 * s.nDies)) clampTest
  let s := (s.pset IMAGE_STAT_VALID 1).setReg 0x76 (BitVec.ofNat 32 (uAt img 12 4))
  boostWritten false (s.modLine fun l => { l with listen := true })

/-- The I fields of the words a load configures take their defaults, whatever a host wrote in LOAD before (R370, R417).
COMPAT_CTL stays as the customer region fixes it (R341). -/
def clearI (p : Nat → Bool) (s : Device) : Device :=
  (s.regs.filter fun e => p e.1 && iMask e.1 != 0).foldl (fun t e => t.setReg e.1 (merge (iMask e.1) e.2 (regDefault e.1))) s

/-- The words an image load sets: those of the package and of the dies it configures. -/
def loadable (s : Device) (a : Nat) : Bool :=
  !(a == 0x5D && s.pbit COMPAT_CTL_OTP_FIXED) && (decide (a < 0x2000) || (loadDies s).contains (ownerOf a))

/-- The sections of a good header, the ring scan and the pins; then VALID and IMAGE_GEN (R371). -/
def imageTake (img : List Byte) (s : Device) : Device :=
  let s := clearI (loadable s) s
  let s := s.modNvm fun n => { n with imgLen := img.length, slow := (uAt img 7 1).testBit 0 }
  let s := if uAt img 6 1 = s.nDies then s else s.pset IMAGE_STAT_DIE_MISMATCH 1
  imageSettle img
    (walkFrom img (img.length / 12 + 1) 32 { dev := s, count := 0, seen := [], recipes := [], ownPins := [], trunc := false })

/-- IMAGE_LOAD in LOAD: the reset pair, NVM_ID, the header, the sections (R366, R371). -/
def imageLoad (s : Device) : Device :=
  if ballsLive s 0 ∧ pkgState s = Pkg.load ∧ !s.pbit IMAGE_STAT_VALID then
    let id := s.nvm.flashId
    let s := (s.pset NVM_ID id).pset NVM_CAP_UNK (if (flashCap id).isSome then 0 else 1)
    let h := fread s 0 32
    let err := headerErr id (capacity s) h
    if err ≠ 0 then imageBad err s
    else
      let img := fread s 0 (uAt h 8 4)
      if firstOk img then imageTake img s else imageBad 7 s
  else s

end Sys2Proof.Machine
end

