-- ==== Sys2Proof/Machine/Shadow.lean ====
section
/-! DEFINITION. The words a register shows at its die, with the views computed from typed state, and the shadow file of
the lead die (R25 to R27): its words of other dies, and the groups that a GROUP cell commits. -/

namespace Sys2Proof.Machine

/-- The 16-bit part of the present-die mask (R452). -/
def presentMask (s : Device) : Nat := 2 ^ s.nDies - 1

/-- The oldest unread ledger entry's word; 0 when the ledger is empty (R427). -/
def ledgerView (s : Device) (k : Nat) : Word :=
  if s.pget LEDGER_STAT_COUNT = 0 then 0
  else match s.ledger[s.pget LEDGER_STAT_RD]? with
    | some e => entryWord e k
    | none => 0

/-- The ports that are trained and received a valid cell within the last frame; bit 0 stands for the lead die (R34). -/
def upMap (s : Device) : Nat :=
  dieMap s fun x => x.link.trained && (match x.link.heardAt with
    | some h => decide (s.now ≤ h + 5120)
    | none => false)

/-- A word of the package block as the lead die shows it. -/
def pkgView (s : Device) (off : Nat) : Word :=
  match off with
  | 0x01 => CAPS_DIES.put s.nDies (CAPS_PRESENT.put (presentMask s) (s.reg 1))
  | 0x09 => HOST_STAT_BUSY.put (if s.host.posting.length < 16 then 0 else 1) (HOST_STAT_QUEUE.put s.host.posting.length (s.reg 9))
  | 0x13 => BitVec.ofNat 32 s.line.nco.angle
  | 0x14 => low32 s.line.nco.count
  | 0x15 => high32 s.line.nco.count
  | 0x16 => BitVec.ofNat 32 s.line.period
  | 0x17 => BitVec.ofNat 32 s.line.nco.inc
  | 0xD1 => LINK_STAT_UP.put (upMap s / 2 * 2 + 1) (s.reg 0xD1)
  | 0xA0 => ledgerView s 0
  | 0xA1 => ledgerView s 1
  | 0xA2 => ledgerView s 2
  | 0xA3 => ledgerView s 3
  | _ => s.reg off

/-- A word of a die block as the die shows it. -/
def dieView (s : Device) (d off : Nat) : Word :=
  let w := s.reg (dieAddr d off)
  if off = 0 then let i := (s.die d).index; DIE_ID_INDEX.put i (DIE_ID_LEAD.put (if i = 0 then 1 else 0) w) else w

/-- The recipe a channel is assigned is not loaded: its image holds none of that number, or the die rejected it (R229, R252). -/
def noRecipe (s : Device) (g : Nat) : Bool :=
  s.pbit IMAGE_STAT_VALID && (s.die (g / 8)).hasDie &&
    ((s.die (g / 8)).recipes.find? fun r => r.id == s.cget g CH_SEQ_RECIPE).isNone

/-- A word of a channel block as the channel's die shows it; REDUCED and NO_RECIPE follow the band and the recipes as they
stand (R252). -/
def chView (s : Device) (g off : Nat) : Word :=
  let w := s.reg (chAddr g off)
  match accView (s.ch g) off with
  | some v => v
  | none =>
    match off with
    | 0x01 => CH_STAT_REDUCED.put (if hasStep s g && (bandFrac s g).isSome then 1 else 0) w
    | 0x04 => CH_STEP_NO_RECIPE.put (if noRecipe s g then 1 else 0) w
    | 0x3F => CAL_CTL_PIN_DUE.put (if pinDue s g then 1 else 0) w
    | 0x49 => EPOCH_STAT_TCR_HOLD.put (if tcrHold s (g / 8) then 1 else 0) w
    | 0x70 => plsRes s g 0
    | 0x71 => plsRes s g 1
    | 0x72 => plsRes s g 2
    | 0x73 => plsRes s g 3
    | _ => w

/-- The word a register shows at its die. -/
def liveWord (s : Device) (a : Nat) : Word :=
  match locate a with
  | some (.pkg, _, off) => pkgView s off
  | some (.die, d, off) => dieView s d off
  | some (.ch, g, off) => chView s g off
  | none => 0

/-- The offsets of a channel block that a GROUP cell commits: the accumulator group (R26) and the ACIR results (R185). -/
def groupMaskCh (off : Nat) : Word :=
  if off ∈ groupOffs ∨ (0x53 ≤ off ∧ off ≤ 0x5C) ∨ off = 0x5E ∨ (0x60 ≤ off ∧ off ≤ 0x67) then 0xFFFFFFFF#32
  else if off = 0x52 then 0xFF8#32 else 0

/-- The bits of a word that only a GROUP cell commits (R26, R153, R185). -/
def groupMask (a : Nat) : Word :=
  match locate a with
  | some (.die, _, off) => if 0x100 ≤ off then 0xFFFFFFFF#32 else 0
  | some (.ch, _, off) => groupMaskCh off
  | _ => 0

/-- The shadow file's stored word. -/
def shd (s : Device) (a : Nat) : Word := rfGet s.shadow a
/-- Set the shadow file's stored word. -/
def setShd (a : Nat) (w : Word) (s : Device) : Device := { s with shadow := rfSet s.shadow a w }

/-- The addresses of a die's groups. -/
def groupAddrs (d : Nat) : List Nat :=
  ((List.range 8).flatMap fun c => (List.range 0x1A).map fun i => dieAddr d (0x100 + 0x20 * c + i)) ++
  (chansOf d).flatMap fun g => ((groupOffs ++ [0x52] ++ (List.range 10).map (· + 0x53) ++ [0x5E] ++ (List.range 8).map (· + 0x60)).map (chAddr g))

/-- The group word a die sends: the accumulator group stands in the boundary copy (R22, R26). -/
def groupSource (s : Device) (a : Nat) : Word :=
  match locate a with
  | some (.ch, g, off) => if off ∈ groupOffs then groupWord (s.ch g).bnd off else liveWord s a
  | _ => liveWord s a

/-- The word the shadow file returns: the lead die's own words are updated on the die, its groups with the boundary that
formed them (R25, R26); the other dies' as their cells left them. -/
def shadowWord (s : Device) (a : Nat) : Word := if ownerOf a = 0 then groupSource s a else shd s a

/-- Put a word into the staging area. -/
def setStage (a : Nat) (w : Word) (s : Device) : Device := { s with stage := rfPut a w s.stage }

/-- A SHADOW cell brings a word up to date; a word of a group is staged (R25, R26). -/
def shadowTaken (a : Nat) (w group : Word) (s : Device) : Device :=
  if (rowAt a).isSome then
    let s := setShd a (merge (groupMask a) w (shd s a)) s
    if groupMask a = 0 then s else setStage a group s
  else s

/-- A GROUP cell commits the words a die has staged, together (R26). -/
def groupCell (d : Nat) (s : Device) : Device :=
  let mine := s.stage.filter fun p => ownerOf p.1 == d
  let s := { s with stage := s.stage.filter fun p => ownerOf p.1 != d }
  mine.foldl (fun t p => setShd p.1 (merge (groupMask p.1) (shd t p.1) p.2) t) s

/-- A die's part of the shadow file is rebuilt after a start: every word as the die shows it (R156, R391). -/
def shadowRebuild (d : Nat) (s : Device) : Device :=
  let s := { s with stage := s.stage.filter fun p => ownerOf p.1 != d }
  s.each (dieAddr d 0 :: groupAddrs d ++ (s.regs.filter fun p => ownerOf p.1 == d).map (·.1)) fun a t => setShd a (groupSource t a) t

end Sys2Proof.Machine
end

