-- ==== Sys2Proof/Machine/Nvm.lean ====
section
/-! DEFINITION. The NVM port's queue and operations (R359 to R363), the checkpoint ring (R376 to R381), the section fetch
(R373), the host pass-through (R374, R465), pin edits and commits (R384), and their commands. -/

namespace Sys2Proof.Machine

/-! The port. -/

/-- The rank of an operation, lowest first (R363). -/
def NvmOp.rank : NvmOp → Nat
  | .handover => 0
  | .spare => 1
  | .fetch _ => 2
  | .ckpt => 3
  | .pins => 4
  | .pt _ _ _ => 5

/-- NVM_STAT.OP of an operation (R385). -/
def NvmOp.code : NvmOp → Nat
  | .handover => 6
  | .spare => 7
  | .fetch _ => 4
  | .ckpt => 2
  | .pins => 3
  | .pt _ _ _ => 5

/-- The waiting operation that ranks first; within one kind the oldest (R363). The fetches of dies whose recoveries began on
one clock go in die order (R439). -/
def nvmPick (s : Device) : Option NvmOp :=
  let l := s.nvm.queue
  (List.range 6).findSome? fun k =>
    match l.find? fun o => o.rank == k with
    | some (.fetch d) => (List.range 8).findSome? fun e =>
      if l.contains (.fetch e) ∧ (s.die e).recov.since = (s.die d).recov.since then some (.fetch e) else none
    | o => o

/-- QUEUE_STAT.NVM_Q follows the queue. -/
def nvmCount (s : Device) : Device := s.pset QUEUE_STAT_NVM_Q s.nvm.queue.length
/-- The port takes an operation from the queue. -/
def nvmTake (o : NvmOp) (s : Device) : Device :=
  let s := nvmCount (s.modNvm fun n => { n with queue := n.queue.erase o, cur := some o, step := 0, op := none, cells := 0, streaming := none })
  (s.pset NVM_STAT_OP o.code).pset BATON_STAT_NVM_HOLDER 8
/-- The port is free. -/
def nvmFree (s : Device) : Device :=
  let s := s.modNvm fun n => { n with cur := none, step := 0, op := none, cells := 0, streaming := none }
  (s.pset NVM_STAT_OP 0).pset BATON_STAT_NVM_HOLDER 0xF
/-- A flash operation begins. -/
def flashBegin (o : FlashOp) (s : Device) : Device :=
  let at_ := s.now
  s.modNvm fun n => { n with op := some o, opAt := at_ }

/-- A flash operation has its effect. -/
def FlashOp.apply : FlashOp → List (Nat × Byte) → List (Nat × Byte)
  | .program a l, f => flashProgram f a l
  | .erase a, f => flashErase f a

/-- n free bytes. -/
def freeBytes (k n : Nat) : List Byte := (List.range n).map fun i => BitVec.ofNat 8 (Config.freeValue (k + i)).toNat
/-- A flash operation cut short leaves bits of the bytes it was changing open: a program may have cleared any of the bits
it was to clear, an erase any of its sector's bits. -/
def flashCut (s : Device) : Device :=
  match s.nvm.op with
  | none => s
  | some (.program a l) =>
    let s' := modFlash (fun f => flashProgram f a (((freeBytes s.free l.length).zip l).map fun p => p.1 ||| p.2)) s
    (s'.modNvm fun n => { n with op := none }).spend l.length
  | some (.erase a) =>
    let base := a / 4096 * 4096
    let s' := modFlash (fun f => ((freeBytes s.free 4096).zipIdx).foldl (fun f p => flashSet f (base + p.2) p.1) (flashErase f a)) s
    (s'.modNvm fun n => { n with op := none }).spend 4096

/-! Checkpoint records (R376). -/

/-- The state code of a channel entry: 0 idle, 1 at step start, 2 ended. -/
def entryState (s : Device) (g : Nat) : Nat := if engState s g = EngSt.idle then 0 else if engState s g = EngSt.ended then 2 else 1

/-- A channel entry of 126 bytes. An idle channel has no step; its entry holds its present counters. -/
def ckptEntry (s : Device) (g : Nat) : List Byte :=
  let c := s.ch g
  let a := if entryState s g = 0 then markAcc c else c.eng.stepAcc
  let b (x : Bool) (k : Nat) : Nat := if x then 2 ^ k else 0
  rawBytes a ++ bankBytes a ++ [BitVec.ofNat 8 (s.cget g CH_STEP_STEP),
    BitVec.ofNat 8 (s.cget g CH_STEP_RECIPE + entryState s g * 16 + b (s.cbit g CH_STAT_PASS) 6 + b (s.cbit g CH_STAT_FAIL) 7)] ++
    counterBytes c.eng.counters

/-- A record with its CRC filled in: header bytes 5 on, then the body of 1,008 bytes. -/
def recordOf (s : Device) (d seq : Nat) (empty : Bool) (body : List Byte) : List Byte :=
  let head : List Byte := [0x47#8, 0x4C#8, 0x43#8, 0x4B#8, BitVec.ofNat 8 d,
      BitVec.ofNat 8 (lineState s + s.nvm.curCause * 4 + (if empty then 32 else 0))] ++
    leBytes 2 (s.pget IMAGE_GEN) ++ leBytes 4 seq
  let crc := crc32 (head ++ zeros 4 ++ body)
  head ++ leBytes 4 crc.toNat ++ body

/-- A die that forms its own record: present, up and not in husk. -/
def formsRecord (s : Device) (d : Nat) : Bool := decide (d < s.nDies) && (s.die d).up && !(s.die d).husk

/-- The record of a die at a checkpoint boundary (R376). -/
def recordFor (s : Device) (d seq : Nat) : List Byte :=
  if formsRecord s d then recordOf s d seq false ((chansOf d).flatMap (ckptEntry s))
  else if s.nDies ≤ d then recordOf s d seq true (zeros 1008)
  else match bestRecord s d with
    | some (i, _) => recordAt s i d
    | none => recordOf s d seq true (zeros 1008)

/-! The checkpoint in progress (R377 to R381). -/

/-- W. -/
def ckptSlot (s : Device) : Nat := s.pget CKPT_STAT_SLOT
/-- The slot after a slot. -/
def nextSlot (s : Device) (i : Nat) : Nat := if slots s = 0 then 0 else (i + 1) % slots s
/-- A die's record of the checkpoint in progress. -/
def ckptRecord (s : Device) (d : Nat) : List Byte := (s.nvm.records[d]?).getD []
/-- The payload of a CKPT cell carries six bytes of the record (R18, R443). -/
def cellBytes : Nat := 6

/-- The next flash operation of the checkpoint, once its data are there: the two erases, then each die's four pages. A die
that streams its record takes the baton when its turn comes (R379, R433). -/
def ckptKick (s : Device) : Device :=
  let n := s.nvm
  if n.op.isSome then s
  else if n.step = 0 then flashBegin (.erase (slotAddr s (nextSlot s (ckptSlot s)))) s
  else if n.step = 1 then flashBegin (.erase (slotAddr s (ckptSlot s) + 4096)) s
  else if 34 ≤ n.step then s
  else
    let d := (n.step - 2) / 4
    let p := (n.step - 2) % 4
    let page := flashBegin (.program (slotAddr s (ckptSlot s) + 1024 * d + 256 * p) (slice (ckptRecord s d) (256 * p) 256)) s
    if !n.streamers.contains d then page
    else if min 1024 (256 * (p + 1)) ≤ n.cells * cellBytes then page
    else if n.cells = 0 ∧ n.streaming = none then
      let at_ := s.now
      (s.modNvm fun n => { n with streaming := some d, batonAt := at_ }).pset BATON_STAT_NVM_HOLDER d
    else s

/-- A CKPT cell arrives from the die that holds the baton; any other is discarded (R434). -/
def ckptCell (d : Nat) (s : Device) : Device :=
  if s.nvm.streaming = some d ∧ s.nvm.cur = some .ckpt then
    let k := s.nvm.cells + 1
    let s := s.modNvm fun n => { n with cells := k, streaming := if 1024 ≤ k * cellBytes then none else n.streaming }
    ckptKick (if 1024 ≤ k * cellBytes then s.pset BATON_STAT_NVM_HOLDER 8 else s)
  else s

/-- The slot of the checkpoint is invalidated by zeros over bytes 0–3 of its eight records (R381). -/
def ckptInvalidate (s : Device) : Device :=
  let w := ckptSlot s
  let s := modFlash (fun f => (List.range 8).foldl (fun f d => flashProgram f (slotAddr s w + 1024 * d) (zeros 4)) f) s
  logEvent Cat.nvm 0 0x05 0xFF (w % 256) ((ringBest s).pset CKPT_STAT_INVAL_EVT 1)

/-- The sequence number the next checkpoint or fall page takes (R375). -/
def nextSeq (s : Device) : Nat := (s.nvm.ckptSeq + 1) % 2 ^ 32

/-- A failed checkpoint: the slot is invalid, W stays, its requests stay pending, the spare is no longer erased (R379). -/
def ckptFail (s : Device) : Device :=
  let s := ckptInvalidate (flashCut s)
  let s := (((s.pset CKPT_STAT_FAIL_EVT 1).pset CKPT_STAT_BUSY 0).pset CKPT_STAT_PENDING 1).pset CKPT_STAT_SPARE_OK 0
  nvmPush .spare (nvmFree (s.modNvm fun n => { n with ckptCause := n.curCause, records := [], streamers := [] }))

/-! Pass-through transfers (R374). -/

/-- A byte of the flash as a transfer reads it; beyond the capacity it is open. -/
def ptByte (s : Device) (a i : Nat) : Byte :=
  if a < capacity s then flashByte s.nvm.flash a else BitVec.ofNat 8 (Config.freeValue (s.free + i)).toNat
/-- Put bytes into the buffer, unlisted bytes 0. -/
def bufPut (l : List Byte) (b : List (Nat × Byte)) : List (Nat × Byte) :=
  (l.zipIdx).foldl (fun b p => if p.1 = 0 then b.filter fun q => q.1 != p.2 else flashPut p.2 p.1 b) b
/-- A byte of the buffer. -/
def bufByte (s : Device) (i : Nat) : Byte := ((s.nvm.buf.find? fun p => p.1 == i).map (·.2)).getD 0

/-- A transfer ends with a result. -/
def ptEnd (result : Nat) (s : Device) : Device :=
  ((s.pset NVM_STAT_BUSY 0).pset NVM_STAT_RESULT result).pset NVM_STAT_DONE_EVT 1

/-- What a read transfer leaves in the buffer (R374, R465): the bytes read, the status byte, or the identification. -/
def ptReadBytes (s : Device) (op addr len : Nat) : List Byte :=
  if op = 0x05 then [BitVec.ofNat 8 ((Config.freeValue s.free).toNat / 2 * 2)]
  else if op = 0x9F then leBytes 3 s.nvm.flashId
  else (List.range len).map fun i => ptByte s (addr + i) i

/-- A transfer starts on the port: reads and the reset pair end at once, programs and erases wait for the flash. The idle
flash's status byte shows bit 0 clear; its other bits are open. -/
def ptStart (op addr len : Nat) (s : Device) : Device :=
  if op = 0x02 then flashBegin (.program addr ((List.range len).map (bufByte s))) s
  else if op = 0x20 then flashBegin (.erase addr) s
  else if op = 0x66 ∨ op = 0x99 then nvmFree (ptEnd 1 s)
  else
    let l := ptReadBytes s op addr len
    let s := if op = 0x05 then s.pset NVM_STAT_SR ((l.headD 0).toNat) else s
    let s := s.modNvm fun n => { n with buf := bufPut l n.buf }
    nvmFree (ptEnd 1 (s.spend 256))

/-- A program or erase touches the ring or the pin store of the loaded image. -/
def ptProtected (s : Device) (a n : Nat) : Bool :=
  overlaps a n s.nvm.ringBase (s.nvm.sectors * 4096) || overlaps a n s.nvm.pinBase (storeLen s.nvm.pinBase)

/-- The lowest code that refuses a transfer; 0 when it is accepted (R374). -/
def ptRefusal (op addr len : Nat) (s : Device) : Nat :=
  let st := pkgState s
  let pair := op = 0x66 ∨ op = 0x99
  if s.pbit NVM_STAT_BUSY ∨ 16 ≤ s.nvm.queue.length then 1
  else if !([0x03, 0x0B, 0x02, 0x20, 0x05, 0x9F, 0x66, 0x99].contains op) ∨ (pair ∧ st ≠ Pkg.load) then 2
  else if (op = 0x20 ∧ ptProtected s (addr / 4096 * 4096) 4096 = true) ∨
      (op = 0x02 ∧ (ptProtected s addr len = true ∨ 256 < addr % 256 + len)) then 3
  else if ((op = 0x03 ∨ op = 0x0B ∨ op = 0x02) ∧ len = 0) ∨ (¬ pair ∧ 256 < len) then 4
  else if st = Pkg.handover ∨ st = Pkg.ship ∨ st = Pkg.keep then 5
  else 0

/-! The section fetch (R38, R373). -/

/-- The sections of an image, in order. -/
def sectionsFrom (img : List Byte) : Nat → Nat → List Section
  | 0, _ => []
  | fuel + 1, off =>
    if img.length < off + 12 then []
    else
      let n := uAt img (off + 4) 4
      let c : Section := { typ := uAt img off 1, die := uAt img (off + 1) 1, ch := uAt img (off + 2) 1, crc := uAt img (off + 8) 4,
                           head := slice img off 8, body := slice img (off + 12) n }
      if img.length < off + 12 + n ∨ !blenOk c.typ n then [] else c :: sectionsFrom img fuel (off + 12 + n)

/-- The section concerns a die. -/
def sectionFor (d : Nat) (c : Section) : Bool :=
  ((c.typ == 2 || c.typ == 3) && c.die == d) || (c.typ == 4 && (uAt c.body 4 1).testBit d)

/-- The pins in force for a die's words (R373). -/
def pinDie (d : Nat) (s : Device) : Device :=
  (s.nvm.pins.filter fun p => ownerOf p.1 == d && decide (0x2000 ≤ p.1)).foldl (fun t p => loadWord (rwpMask p.1) p.1 p.2 t) s

/-- The key of a section of a die: its type with its channel or its recipe number (R38). -/
def fetchKey (c : Section) : Nat × Nat := (c.typ, if c.typ = 3 then c.ch else if c.typ = 4 then uAt c.body 0 1 else 0)

/-- A section fetch is rejected for a section, as at image load (R38, R373). -/
def fetchReject (d : Nat) (k : Nat × Nat) (w : Walk) : Walk :=
  { w with dev := sectionBad k.1 (if k.1 = 4 then 0xFF else d) (if k.1 = 3 then k.2 else 0xFF) w.dev }

/-- The die's sections, its recipes and pins come into force (R373). -/
def dieSettled (d : Nat) (s : Device) : Device :=
  (settleDie d (huskDie d (cacheDie d (pinDie d s)))).each (bankValves d) clampTest

/-- A section fetch: every section of the die that failed its CRC is read from the flash in image order; the header must
still name the loaded generation (R38, R373). -/
def sectionFetch (d : Nat) (s : Device) : Device :=
  let keys := (s.die d).fetch
  let h := fread s 0 32
  let s := s.modDie d fun x => { x with fetch := [] }
  let w0 : Walk := { dev := s, count := 0, seen := [], recipes := [], ownPins := [], trunc := false }
  if headerErr s.nvm.flashId (capacity s) h ≠ 0 ∨ uAt h 12 4 ≠ s.pget IMAGE_GEN then
    dieSettled d (keys.foldl (fun w k => fetchReject d k w) w0).dev
  else
    let img := fread s 0 (uAt h 8 4)
    let l := (sectionsFrom img (img.length / 12 + 1) 32).filter fun c => sectionFor d c && keys.contains (fetchKey c)
    let w := l.foldl (fun w c => doSection c w) w0
    dieSettled d (loadRecipes ((w.dev.die d).recipes ++ w.recipes) d w.dev)

/-! Pin commits (R384). -/

/-- The board set of R204, by offset. -/
def boardSet : List Nat := [0x40, 0x41, 0x42, 0x43, 0x44, 0x45, 0x46, 0x47, 0x48, 0x4C, 0x4D, 0x4E, 0x4F]
/-- The words an edit names. -/
def editWords (op a : Nat) : List Nat := if op = 3 then boardSet.map (chAddr (a % 64)) else [a]
/-- An edit applied to the words of the set: those pinned anew, and those kept with their stored values. -/
def editApply (rd : Nat → Word) (l : List (Nat × Word)) (e : Nat × Nat) : List (Nat × Word) :=
  let ws := editWords e.1 e.2
  let rest := l.filter fun p => !ws.contains p.1
  if e.1 = 2 then rest else rest ++ ws.map fun a => (a, rd a)
/-- The pin set with the waiting edits applied; newly pinned words take their values from the shadow file. -/
def pinSet (s : Device) : List (Nat × Word) := s.nvm.edits.foldl (editApply (shadowWord s)) s.nvm.pins

/-- A copy's bytes (R383). -/
def copyBytes (gen : Nat) (l : List (Nat × Word)) : List Byte :=
  let head : List Byte := [0x47#8, 0x4C#8, 0x50#8, 0x4E#8] ++ leBytes 4 gen ++ leBytes 2 l.length ++ zeros 2
  let body := l.flatMap fun p => leBytes 2 p.1 ++ zeros 2 ++ leBytes 4 p.2.toNat
  head ++ leBytes 4 (crc32 (head ++ zeros 4 ++ body)).toNat ++ body

/-- The base of the copy not in force. -/
def otherCopy (s : Device) : Nat := s.nvm.pinBase + (if s.pbit PIN_STAT_COPY then 0 else 0x2000)

/-- A commit ends. -/
def pinEnd (result : Nat) (s : Device) : Device :=
  ((s.pset PIN_STAT_BUSY 0).pset PIN_STAT_RESULT result).pset PIN_STAT_DONE_EVT 1

/-- The new copy is in force; every die applies the set to its cached sections. -/
def pinDone (s : Device) : Device :=
  let s := s.modNvm fun n => { n with pins := n.commit, pinGen := (n.pinGen + 1) % 2 ^ 32, edits := [], commit := [] }
  let s := ((s.pset PIN_STAT_COPY (if s.pbit PIN_STAT_COPY then 0 else 1)).pset PIN_STAT_COUNT s.nvm.pins.length).pset PIN_STAT_EDITS 0
  nvmFree ((pinEnd 1 s).each s.dieList cachePins)

/-- The next flash operation of a commit: two erases, then the pages of the copy. -/
def pinKick (s : Device) : Device :=
  let k := s.nvm.step
  let b := copyBytes ((s.nvm.pinGen + 1) % 2 ^ 32) s.nvm.commit
  if k < 2 then flashBegin (.erase (otherCopy s + 4096 * k)) s
  else if 256 * (k - 2) < b.length then flashBegin (.program (otherCopy s + 256 * (k - 2)) (slice b (256 * (k - 2)) 256)) s
  else pinDone s

/-- A commit at the first frame boundary after its write takes its values and queues (R384). -/
def pinBoundary (s : Device) : Device :=
  if s.nvm.commitDue then nvmPush .pins (s.modNvm fun n => { n with commit := pinSet s, commitDue := false }) else s

/-- A commit waiting, queued or running is cut: the old copy and the edits stay (R384). -/
def pinCut (result : Nat) (s : Device) : Device :=
  if s.pbit PIN_STAT_BUSY then
    pinEnd result (nvmCount (s.modNvm fun n => { n with commitDue := false, commit := [], queue := n.queue.erase .pins }))
  else s

/-! The fall page (R380). -/

/-- The three bytes of a channel. -/
def fallEntry (s : Device) (g : Nat) : List Byte :=
  if s.nCh ≤ g then zeros 3
  else [BitVec.ofNat 8 (s.cget g CH_STEP_STEP), BitVec.ofNat 8 (s.cget g CH_STEP_RECIPE + engState s g * 16),
    BitVec.ofNat 8 ((if s.cbit g CH_STAT_PASS then 1 else 0) + (if s.cbit g CH_STAT_FAIL then 2 else 0) + 4)]

/-- The page of this hand-over, with the engines' states at the trip. -/
def fallPage (s : Device) : List Byte :=
  let u := s.supply
  let b : List Byte := [0x47#8, 0x4C#8, 0x46#8, 0x4C#8] ++ leBytes 4 (nextSeq s) ++
    leBytes 2 (s.pget IMAGE_GEN) ++ [BitVec.ofNat 8 (u.cutCkpt.getD 0xFF), BitVec.ofNat 8 u.tripLine] ++ leBytes 4 u.tripFrame ++
    leBytes 4 u.tripCount ++ zeros 12 ++ ((List.range 64).flatMap (fallEntry s)) ++ zeros 28
  b ++ leBytes 4 (crc32 b).toNat

/-- The slot of the fall sector: W, or W + 1 once step 2 of the checkpoint cut was complete (R377); it stands in
`nvm.step` of the hand-over work. -/
def fallKick (s : Device) : Device := flashBegin (.program (slotAddr s s.nvm.step) s.supply.page) s

/-- The fall page stands in the flash: W becomes the slot after it, and a cut checkpoint's slot is invalid by it (R381). -/
def fallDone (s : Device) : Device :=
  let seq := nextSeq s
  let s := s.modNvm fun n => { n with ckptSeq := seq }
  let s := ((s.pset CKPT_STAT_SLOT (nextSlot s s.nvm.step)).setReg 0x7C (BitVec.ofNat 32 seq)).pset CKPT_STAT_SPARE_OK 0
  let s := match s.supply.cutCkpt with
    | some w => logEvent Cat.nvm 0 0x05 0xFF (w % 256 + 256) (s.pset CKPT_STAT_INVAL_EVT 1)
    | none => s
  (nvmFree ((ringBest s).pset HANDOVER_STAT_CKPT_DONE 1)).modSup fun u => { u with fallPage := false }

/-! The port goes on. -/

/-- The port starts waiting operations while it is free; in HANDOVER only the hand-over works, and none before the load is
done (R363, R371). -/
def nvmNext : Nat → Device → Device
  | 0, s => s
  | k + 1, s =>
    if s.nvm.cur.isSome ∨ !ballsLive s 0 ∨ pkgState s = Pkg.handover ∨ s.pget NVM_STAT_OP = 1 then s
    else match nvmPick s with
      | none => s
      | some o =>
        let s := nvmTake o s
        match o with
        | .handover => s
        | .spare => flashBegin (.erase (slotAddr s (ckptSlot s))) s
        | .fetch d => nvmNext k (nvmFree (sectionFetch d s))
        | .ckpt => ckptKick s
        | .pins => pinKick s
        | .pt op a n => nvmNext k (ptStart op a n s)

/-- The port takes up what waits. -/
def nvmRun (s : Device) : Device := nvmNext 17 s

/-- A host's transfer: refused, or queued (R374). A write without the key or without GO is ignored. -/
def ptCommand (op len key : Nat) (go : Bool) (s : Device) : Device :=
  if key ≠ 0xC3 ∨ !go then s
  else
    let a := s.pget NVM_PT_ADDR
    let c := ptRefusal op a len s
    if c ≠ 0 then (s.pset NVM_STAT_RESULT 2).pset NVM_STAT_REFUSE c
    else nvmRun (nvmPush (.pt op a len) (((s.pset NVM_STAT_BUSY 1).pset NVM_STAT_RESULT 0).pset NVM_STAT_REFUSE 0))

/-- The operation in hand goes on after one of its flash operations (R374, R377, R379, R380, R384). -/
def flashGoesOn (s : Device) : Device :=
  match s.nvm.cur with
  | some .spare => nvmRun (nvmFree (s.pset CKPT_STAT_SPARE_OK 1))
  | some .ckpt => ckptKick (s.modNvm fun n => { n with step := n.step + 1, cells := if n.step % 4 = 1 then 0 else n.cells })
  | some .pins => nvmRun (pinKick (s.modNvm fun n => { n with step := n.step + 1 }))
  | some (.pt _ _ _) => nvmRun (nvmFree (ptEnd 1 s))
  | some .handover =>
    if s.supply.fallPage then fallDone s
    else if s.pbit HANDOVER_STAT_CKPT_SKIP then nvmFree s
    else fallKick (s.modSup fun u => { u with fallPage := true })
  | _ => s

/-- A flash operation is complete: it has had its effect, and the operation goes on. -/
def flashDone (s : Device) : Device :=
  match s.nvm.op with
  | none => s
  | some o => flashGoesOn (modFlash o.apply (s.modNvm fun n => { n with op := none }))

/-- Ready polling reads a status byte; bit 0 clear completes the operation in progress (R360). -/
def flashComplete (sr : Byte) (s : Device) : Device :=
  if s.nvm.op.isSome ∧ ballsLive s 0 = true then
    let s := s.pset NVM_STAT_SR sr.toNat
    if sr.getLsbD 0 then s else flashDone s
  else s

/-- The operation in hand has failed with a program or erase of its (R362, R374, R379, R380, R384). -/
def nvmFailed (s : Device) : Device :=
  match s.nvm.cur with
  | some .spare => nvmRun (nvmPush .spare (nvmFree s))
  | some .ckpt => nvmRun (ckptFail s)
  | some .pins => nvmRun (nvmFree (pinCut 4 s))
  | some (.pt _ _ _) => nvmRun (nvmFree (ptEnd 4 s))
  | some .handover =>
    if s.supply.fallPage then
      let seq := nextSeq s
      let s := s.modNvm fun n => { n with ckptSeq := seq }
      nvmFree (((s.pset CKPT_STAT_FAIL_EVT 1).pset CKPT_STAT_SPARE_OK 0).modSup fun u => { u with fallPage := false })
    else if s.pbit HANDOVER_STAT_CKPT_SKIP then nvmFree s
    else fallKick (s.modSup fun u => { u with fallPage := true })
  | _ => s

/-- How long the flash may stay busy with an operation: 3 ms for a program, 600 ms for an erase (R362). -/
def FlashOp.limit : FlashOp → Nat
  | .program _ _ => msClocks 3
  | .erase _ => msClocks 600

/-- A flash operation fails (R362): the write enable does not show, or the flash stays busy beyond its limit; a reset pair,
ERR_EVT, an entry with its opcode and address; the operation it served is abandoned. -/
def nvmTimeout (wel : Bool) (s : Device) : Device :=
  if !ballsLive s 0 then s
  else match s.nvm.op with
  | none => s
  | some o =>
    if !wel && !s.passed s.nvm.opAt o.limit then s
    else
    let data := match o with | .program a _ => 0x02 + a * 256 | .erase a => 0x20 + a * 256
    let s := if wel then s.modNvm fun n => { n with op := none } else flashCut s
    nvmFailed (logEvent Cat.nvm 0 (if wel then 2 else 1) 0xFF (data % 2 ^ 32) (s.pset NVM_STAT_ERR_EVT 1))

/-- The NVM baton of a streaming die is taken back (R363, R434). -/
def nvmBatonLost (s : Device) : Device :=
  match s.nvm.streaming with
  | none => s
  | some d =>
    let s := logEvent Cat.link 0 0x0B d 1 (s.pset BATON_STAT_NVM_EXP_EVT 1)
    nvmRun (ckptFail s)

/-- NVM_BATON_EXPIRY: 20 ms after its grant (R363, R433). -/
def nvmBatonExpiry (s : Device) : Device := if s.passed s.nvm.batonAt (msClocks 20) then nvmBatonLost s else s

/-! Checkpoints. -/

/-- CKPT_CTL.TAKE with its key (R378). -/
def ckptTake (data : Word) (s : Device) : Device :=
  if CKPT_CTL_TAKE.get data = 1 ∧ CKPT_CTL_KEY.get data = 0xC3 then ckptRequest 2 s else s

/-- The pending checkpoint may be taken at a boundary, its interval apart (R378). -/
def ckptMay (s : Device) : Bool :=
  let st := pkgState s
  ballsLive s 0 && s.pbit CKPT_STAT_PENDING && !s.pbit CKPT_STAT_BUSY && s.pbit CKPT_STAT_SPARE_OK && decide (0 < s.nvm.sectors) &&
    (st == Pkg.qualify || st == Pkg.run || (st == Pkg.hold && s.pbit KEEP_STAT_HOLDUP) || st == Pkg.recover || st == Pkg.test)

/-- The boundary of the pending checkpoint may be taken (R378). -/
def ckptReady (s : Device) : Bool :=
  ckptMay s && s.clk == 0 && (s.nvm.ckptCause == 3 || (match s.nvm.ckptAt with
      | some t => s.passed t (secClocks (s.pget CKPT_MIN_INT))
      | none => true))

/-- The checkpoint is formed: slot and sequence are allocated, every die forms its record (R376, R379). -/
def ckptForm (s : Device) : Device :=
  let seq := nextSeq s
  let at_ := s.now
  let s := s.modNvm fun n => { n with curCause := n.ckptCause, ckptSeq := seq, ckptAt := some at_ }
  let recs := (List.range 8).map fun d => recordFor s d seq
  let own := (List.range 8).filter fun d => formsRecord s d
  let s := s.each own fun d t => t.modDie d fun x => { x with ckpt := (recs[d]?).getD [] }
  let s := s.modNvm fun n => { n with records := recs, streamers := own.filter (· != 0) }
  nvmRun (nvmPush .ckpt ((s.pset CKPT_STAT_PENDING 0).pset CKPT_STAT_BUSY 1))

/-- The checkpoint boundary (R378). -/
def ckptBoundary (s : Device) : Device := if ckptReady s then ckptForm s else s

/-- All eight records are programmed: W advances (R379). -/
def ckptDone (s : Device) : Device :=
  if s.nvm.cur = some .ckpt ∧ 34 ≤ s.nvm.step then
    let s := (s.pset CKPT_STAT_SLOT (nextSlot s (ckptSlot s))).setReg 0x7C (BitVec.ofNat 32 s.nvm.ckptSeq)
    let s := ((ringBest s).pset CKPT_STAT_DONE_EVT 1).pset CKPT_STAT_BUSY 0
    nvmRun (nvmFree (s.modNvm fun n => { n with records := [], streamers := [] }))
  else s

/-- The spare is erased whenever it is not known to be (R377). -/
def spareRestore (s : Device) : Device :=
  if (s.die 0).up ∧ 0 < s.nvm.sectors ∧ !s.pbit CKPT_STAT_SPARE_OK ∧ !s.pbit CKPT_STAT_BUSY then nvmRun (nvmPush .spare s) else s

/-! Pin edits. -/

/-- The code that refuses an edit or a commit; 0 when it is taken (R384). -/
def pinRefusal (op a : Nat) (s : Device) : Nat :=
  let st := pkgState s
  if s.pbit PIN_STAT_BUSY then 1
  else if op ≤ 3 ∧ 32 ≤ s.nvm.edits.length then 2
  else if op = 4 ∧ 1022 < (pinSet s).length then 2
  else if (op = 1 ∨ op = 2) ∧ pinValid s a = false then 3
  else if op = 3 ∧ s.nCh ≤ a % 64 then 3
  else if op = 4 ∧ (s.nvm.pinBase = 0xFFFFFFFF ∨ !s.nvm.pinOk) then 4
  else if op = 4 ∧ (st = Pkg.load ∨ st = Pkg.handover ∨ st = Pkg.ship ∨ st = Pkg.keep) then 5
  else 0

/-- Keep the waiting edits. -/
def setEdits (l : List (Nat × Nat)) (s : Device) : Device := (s.modNvm fun n => { n with edits := l }).pset PIN_STAT_EDITS l.length

/-- A write of PIN_CTL (R384). -/
def pinCommand (op a key : Nat) (s : Device) : Device :=
  if key ≠ 0xC3 ∨ op = 0 ∨ 5 < op then s
  else
    let c := pinRefusal op a s
    if c ≠ 0 then (s.pset PIN_STAT_RESULT 2).pset PIN_STAT_REFUSE c
    else if op = 5 then setEdits [] s
    else if op = 4 then
      (((s.pset PIN_STAT_BUSY 1).pset PIN_STAT_RESULT 0).pset PIN_STAT_REFUSE 0).modNvm fun n => { n with commitDue := true }
    else setEdits (s.nvm.edits ++ [(op, a)]) s

/-! A stop of the lead die's main domain. -/

/-- The port stops with the lead die: a program in progress finishes inside the flash, the reset pair of the next start cuts an
erase, the queue and the buffer are lost (R371, R476). -/
def nvmStop (s : Device) : Device :=
  let s := match s.nvm.op with
    | some (.program a l) => modFlash (FlashOp.apply (.program a l)) s
    | _ => flashCut s
  s.modNvm fun n => { n with
    queue := [], cur := none, step := 0, op := none, cells := 0, streamers := [], streaming := none, buf := [], records := []
    edits := [], commitDue := false, commit := [] }

/-! Commands. -/

/-- SECTION_FETCH: for a recovering die whose cache holds a section that failed its CRC (R38). -/
def execSectionFetch (d : Die) (s : State) : Host.Outcome State Fault Refusal :=
  onDie d.val s fun s =>
    if (s.die d.val).recov.active && (s.die d.val).fetch != [] then nvmRun (nvmPush (.fetch d.val) s) else s
/-- PT_READ. -/
def execPtRead (len : BitVec 9) (key : Byte) (s : State) : Host.Outcome State Fault Refusal := onDev s (ptCommand 0x03 len.toNat key.toNat true)
/-- PT_FAST_READ. -/
def execPtFastRead (len : BitVec 9) (key : Byte) (s : State) : Host.Outcome State Fault Refusal :=
  onDev s (ptCommand 0x0B len.toNat key.toNat true)
/-- PT_PAGE_PROGRAM. -/
def execPtPageProgram (len : BitVec 9) (key : Byte) (s : State) : Host.Outcome State Fault Refusal :=
  onDev s (ptCommand 0x02 len.toNat key.toNat true)
/-- PT_SECTOR_ERASE. -/
def execPtSectorErase (key : Byte) (s : State) : Host.Outcome State Fault Refusal := onDev s (ptCommand 0x20 0 key.toNat true)
/-- PT_READ_STATUS. -/
def execPtReadStatus (key : Byte) (s : State) : Host.Outcome State Fault Refusal := onDev s (ptCommand 0x05 0 key.toNat true)
/-- PT_READ_ID. -/
def execPtReadId (key : Byte) (s : State) : Host.Outcome State Fault Refusal := onDev s (ptCommand 0x9F 0 key.toNat true)
/-- PT_RESET: 66h, or 99h where `second` is set. -/
def execPtReset (second : Bool) (key : Byte) (s : State) : Host.Outcome State Fault Refusal :=
  onDev s (ptCommand (if second then 0x99 else 0x66) 0 key.toNat true)
/-- FLASH_OP_COMPLETE. -/
def execFlashOpComplete (sr : Byte) (s : State) : Host.Outcome State Fault Refusal := onDev s (flashComplete sr)
/-- NVM_TIMEOUT. -/
def execNvmTimeout (wel : Bool) (s : State) : Host.Outcome State Fault Refusal := onDev s (nvmTimeout wel)
/-- NVM_BATON_EXPIRY. -/
def execNvmBatonExpiry (s : State) : Host.Outcome State Fault Refusal := onDev s nvmBatonExpiry
/-- CKPT_TAKE. -/
def execCkptTake (data : Word) (s : State) : Host.Outcome State Fault Refusal := onDev s (ckptTake data)
/-- CHECKPOINT_BOUNDARY. -/
def execCheckpointBoundary (s : State) : Host.Outcome State Fault Refusal := onDev s ckptBoundary
/-- CHECKPOINT_DONE. -/
def execCheckpointDone (s : State) : Host.Outcome State Fault Refusal := onDev s ckptDone
/-- SPARE_RESTORE. -/
def execSpareRestore (s : State) : Host.Outcome State Fault Refusal := onDev s spareRestore
/-- PIN_REG. -/
def execPinReg (addr : Addr) (key : Byte) (s : State) : Host.Outcome State Fault Refusal := onDev s (pinCommand 1 addr.toNat key.toNat)
/-- UNPIN_REG. -/
def execUnpinReg (addr : Addr) (key : Byte) (s : State) : Host.Outcome State Fault Refusal := onDev s (pinCommand 2 addr.toNat key.toNat)
/-- PIN_CHSET. -/
def execPinChset (addr : Addr) (key : Byte) (s : State) : Host.Outcome State Fault Refusal := onDev s (pinCommand 3 addr.toNat key.toNat)
/-- PIN_COMMIT. -/
def execPinCommit (key : Byte) (s : State) : Host.Outcome State Fault Refusal := onDev s (pinCommand 4 0 key.toNat)
/-- PIN_DISCARD. -/
def execPinDiscard (key : Byte) (s : State) : Host.Outcome State Fault Refusal := onDev s (pinCommand 5 0 key.toNat)
end Sys2Proof.Machine
end

