-- ==== Sys2Proof/Machine/Domain.lean ====
section
/-! DEFINITION. The main-domain stop of a die (R156, R386), its start (R387, R391) with the decision on retention (R330),
and the restoration of a dark die from the ring (R398 to R400). -/

namespace Sys2Proof.Machine

/-! The stop. -/

/-- The glean domain at its die's main-domain stop: the outage timer starts from 0, the sources are chosen anew (R321,
R326); the lead die's keeps the package state (R405) and the converter's setting (R297). -/
def gleanStop (st vhold : Nat) (lead : Bool) (g : Glean) : Glean :=
  { g with
    isNew := false, first := true, src := .none, usedKeep := false, usedCells := false, usedCoin := false, switches := 0
    outage := 0, cutRun := 0, holdCopy := vhold, lastState := if lead then st else g.lastState }

/-- What a die counted up to its stop enters its books and the pulse outputs, the outputs of the lead die are cut short, an OTP
command of the die ends, and the retention image is committed (R156, R208, R216, R326, R348). -/
def stopBooks (recovery : Bool) (d : Nat) (s : Device) : Device :=
  let before := s
  let s := bookPartial d s
  let s := s.each (chansOf d) fun g t => plsBook recovery g (before.ch g).conv (before.ch g).acc (t.ch g).acc t
  let s := plsDieStop d recovery s
  let s := if d = 0 then plsCut s else s
  let s := if s.otp.running ∧ (s.otp.die = d ∨ d = 0) then otpCutShort s else s
  retCommit d s

/-- The engines that stop with a die: the memory port, the keeper converter and the reference run with the lead die, a run of
the die's channel with a recovery (R223, R297, R476). -/
def stopLead (recovery : Bool) (d : Nat) (s : Device) : Device :=
  if d = 0 then ((nvmStop s).modPins fun p => { p with converter := false }).clearRun
  else if recovery ∧ s.run.ch / 8 = d ∧ runLive s = true then runStop 8 s else s

/-- A die's main domain stops: the partial frame is booked and committed (R156, R329), every ball goes to husk (R29).
With the lead die's a monitor event in progress is closed: the package leaves its state (R272), and the keeper converter
stops (R297). -/
def mainStop (recovery : Bool) (d : Nat) (s : Device) : Device :=
  if !(s.die d).up then s
  else
    let s := if d = 0 ∧ monitored (pkgState s) = true then monEnd true s else s
    let s := stopBooks recovery d s
    let s := benchBaton false d (valvesHusk d (s.each (chansOf d) gatesOff))
    let st := pkgState s
    let hold := s.pfrc KEEP_PATH_VHOLD
    let s := s.modGlean d (gleanStop st hold (d == 0))
    let s := s.modDie d fun x => { x with up := false, husk := true, ctl := false, seeded := false }
    publishDies (stopLead recovery d s)

/-- Every main domain of the package stops, the lead die's last. -/
def stopAll (s : Device) : Device := s.each s.dieList.reverse (mainStop false)

/-! The start. -/

/-- A word that the glean domain of a die holds beside its retention: DIE_WDT, the MARGINAL word of the OTP, and on the lead
die the package block's K fields (R347, R391, R435). -/
def heldWord (d a : Nat) : Bool := ownerOf a == d && (a == dieAddr d 0x50 || a == dieAddr d 0x40 || decide (a < 0x2000))

/-- The register words at a die's main-domain start: each at its default, but the K fields the glean domain holds, unless it
is new (R9, R391). -/
def startRegs (d : Nat) (isNew : Bool) (s : Device) : RegFile :=
  let own := if isNew then [] else s.regs.filter fun p => heldWord d p.1
  let rest := s.regs.filter fun p => ownerOf p.1 != d
  own.foldl (fun f p => rfSet f p.1 (merge (kMask p.1) (regDefault p.1) p.2)) rest

/-- The register words after the decision on a die's retention: its K fields as retained (R9, R391). -/
def retainedRegs (d : Nat) (s : Device) : RegFile :=
  let ret := (s.die d).glean.ret.regs.filter fun p => ownerOf p.1 == d && !heldWord d p.1
  ret.foldl (fun f p => rfSet f p.1 (merge (kMask p.1) (rfGet f p.1) p.2)) s.regs

/-- An engine state that the resume decision concerns (R392); a channel held before stands for decision again (R403). -/
def interruptedState (e : Nat) : Bool := decide (1 ≤ e ∧ e ≤ 5) || e == EngSt.reseat || e == EngSt.resumeHalt

/-- An interrupted channel: also one in FAULT_HOLD or HALTED, which returns as it was and waits for the host (R392). -/
def interruptedChan (e : Nat) : Bool := interruptedState e || e == EngSt.faultHold || e == EngSt.halted

/-- The step engine's K state (R328). -/
def keptEng (e : Nat) (k : Eng) : Eng :=
  { Eng.reset with
    counters := k.counters, frames := k.frames, suspFrames := k.suspFrames, baseQ := k.baseQ, baseE := k.baseE
    termQ := k.termQ, termE := k.termE, basesDue := k.basesDue, ocvK := k.ocvK, stepAcc := k.stepAcc
    seat := if e = EngSt.reseat then .wantRelease else .none, interrupted := interruptedState e }

/-- The constants' K state: no bench carries the channel after a start; calibration records are discarded (R391). -/
def keptConv (v : Conv) : Conv :=
  { v with
    fCarryI := 2 ^ 40, fCarryV := 2 ^ 40, benchH := 0, benchL := 0, benchV := 0, runRef := 0, runDev := 0, runNet := 0
    runCauses := 0, gateCauses := 0, visit := none }

/-- A channel's K state, with the tally its glean domain holds. -/
def keptChan (e tally : Nat) (r : Chan) : Chan :=
  { Chan.reset with
    acc := { r.acc with fq := 0, fe := 0 }, conv := keptConv r.conv, eng := keptEng e r.eng
    acir := { Acir.reset with ep := r.acir.ep, eq := r.acir.eq }, tally := tally }

/-- The engine's setpoints, mode and range as the kept words show them. -/
def keptSetpoints (g : Nat) (s : Device) : Device :=
  let i := isetOf s g
  let v := vsetOf s g
  let p := psetOf s g
  let m := modeOf s g
  let r := s.cbit g CH_SENSE_RANGE_SEL
  s.modLp g fun l => { l with engI := i, engV := v, engP := p, engMode := m, engR := r }

/-- A channel at the decision on its die's retention: as retained, the retained open epoch closed with its constants (R148), or
dark. Its boundary copy holds what the stop booked, the partial frame included (R156). -/
def chanStart (dark : Bool) (r : Retention) (g : Nat) (s : Device) : Device :=
  if dark then s.modCh g fun _ => .reset
  else
    let e := engState s g
    let tally := (s.ch g).tally
    let k := keptChan e tally ((r.chans[g % 8]?).getD .reset)
    let s := keptSetpoints g (s.modCh g fun _ => { k with acc := k.acc.formCal k.conv.kq k.conv.ke })
    let s := if interruptedChan e then s.cset g CH_RESUME_SRC 1 else s
    let s := closeEpoch 32 g s
    let low := chLow s g
    s.modCh g fun c => { c with bnd := c.acc, bndLow := low, due := .reset }

/-- The main domain as a start leaves it, the die still in husk; a die-local recovery keeps the main SRAM's image cache
and recipes (R38). It reads its strap (R15), and its watchdog no longer holds it (R435). -/
def startDie (recovery : Bool) (out : Option Nat) (strap : Nat) (x : DieSt) : DieSt :=
  { DieSt.reset with
    index := strap, glean := { x.glean with good := true, woke := false, vbusLow := false }, otp := x.otp
    recov := { x.recov with stalled := false }, link := x.link, leadMs := x.leadMs
    cache := if recovery then x.cache else [], fetch := if recovery then x.fetch else [], recipes := if recovery then x.recipes else []
    hasDie := recovery && x.hasDie, hasChan := if recovery then x.hasChan else List.replicate 8 false
    outage := out }

/-- GLEAN_DIE(d) as the lead die writes it from the die's report (R335). -/
def gleanReport (d : Nat) (g : Glean) (o : RetOutcome) (s : Device) : Device :=
  let b (x : Bool) : Nat := if x then 1 else 0
  let src := match g.src with | .none => 0 | .keeper => 1 | .cells => 2 | .coin => 3
  let valid := match o with | .valid => true | _ => false
  let bad := match o with | .bad _ => true | _ => false
  let s := s.setReg (0x50 + d) 0
  let s := ((s.pset (GLEAN_DIE_SRC_END.at d) (if o = .new then 0 else src)).pset (GLEAN_DIE_USED_KEEP.at d) (b g.usedKeep)).pset
    (GLEAN_DIE_USED_CELLS.at d) (b g.usedCells)
  let s := ((s.pset (GLEAN_DIE_USED_COIN.at d) (b g.usedCoin)).pset (GLEAN_DIE_NEW.at d) (b (decide (o = .new)))).pset
    (GLEAN_DIE_RET_VALID.at d) (b valid)
  let s := ((s.pset (GLEAN_DIE_RET_BAD.at d) (b bad)).pset (GLEAN_DIE_PUMP_CH.at d) g.pumpCh).pset
    (GLEAN_DIE_LEDGER_LOST.at d) (b (decide (o = .ledgerLost)))
  s.pset (GLEAN_DIE_SWITCHES.at d) (min g.switches 65535)

/-- The ledger and its indices are cleared (R330, R391). -/
def ledgerClear (s : Device) : Device :=
  { ((s.setReg 0xA4 0).setReg 0xA5 0) with ledger := List.replicate 64 ⟨0, 0, 0, 0, 0, 0, 0, 0, 0⟩ }

/-- DARK_LOSS, DARK_DIES and the entries of the decision on a die's retention (R330). -/
def darkReport (d : Nat) (o : RetOutcome) (s : Device) : Device :=
  let s := s.pset GLEAN_STAT_DARK_DIES (dieMap s fun x => x.darkStart)
  match o with
  | .new => setIrq Cat.glean d 0xFF (s.pset GLEAN_STAT_DARK_LOSS 1)
  | .bad k => logEvent Cat.glean d 0x01 0xFF k (s.pset GLEAN_STAT_DARK_LOSS 1)
  | .ledgerLost => logEvent Cat.glean 0 0x02 0xFF 0 (ledgerClear s)
  | .valid => s

/-- The seconds of CH_RESUME.OUTAGE: saturating, all ones when the outage is unknown (R406). -/
def outageSeconds (o : Option Nat) : Nat := match o with | some ms => min (ms / 1000) 0xFFFF | none => 0xFFFF

/-- A glean domain takes its copy of RISE at a main-domain start (R313). -/
def gleanCopy (d : Nat) (s : Device) : Device := s.modGlean d fun x => { x with riseCopy := s.pget PGOOD_CTL_RISE }

/-- The words a starting die begins with: its held and default words, and in force only accumulation (R9, R391). -/
def dieWords (isNew : Bool) (d : Nat) (s : Device) : Device :=
  { s.nextFree with
    regs := startRegs d isNew s, force := s.force.filter fun p => ownerOf p.1 != d || (!isNew && accWord p.1) }

/-- A channel while its die has not decided on its retention: nothing but the tally its glean domain holds. -/
def chanBlank (g : Nat) (s : Device) : Device := s.modCh g fun c => { Chan.reset with tally := c.tally }

/-- Steps 1 and 2 of R387 on a die: its main domain comes up and loads its OTP. The outage timer counts on between the
evaluations that advance it in the model: by less than 64 ms, an open value (R321, R326). -/
def dieStart (recovery : Bool) (d : Nat) (s : Device) : Device :=
  let g := (s.die d).glean
  let out := if g.isNew then none else some (g.outage + (Config.freeValue s.free).toNat % 64)
  let s := (dieWords g.isNew d s).each (chansOf d) chanBlank
  let s := s.modDie d (startDie recovery out (nth s.straps d))
  gleanCopy d (otpLoad d (if d = 0 ∧ g.isNew = true then ledgerClear s else s))

/-- The words of a die after the decision on its retention (R330). -/
def decideWords (dark : Bool) (d : Nat) (s : Device) : Device :=
  { s with
    regs := if dark then s.regs else retainedRegs d s, force := s.force.filter fun p => ownerOf p.1 != d || !dark || !accWord p.1 }

/-- GLEAN_OUTAGE of the lead die's last outage (R326, R334). -/
def outageWords (s : Device) : Device :=
  match (s.die 0).outage with
  | some ms => (s.pset GLEAN_OUTAGE_0 ms).pset GLEAN_OUTAGE_1 (ms / 2 ^ 32)
  | none => (s.pset GLEAN_OUTAGE_0 0xFFFFFFFF).pset GLEAN_OUTAGE_1 0xFFFF

/-- The reference a die starts with, as retained; a die on its internal reference is in accuracy class 1, or 2 (R105, R188). -/
def refRetained (dark : Bool) (d : Nat) (s : Device) : Device :=
  let r := (s.die d).glean.ret
  let int := !dark && r.refInt
  let s := s.modDie d fun x => { x with fRef := if dark then 2 ^ 40 else r.fRef, refInt := int }
  let s := if int ∧ s.dget d DIE_STAT_ACC_CLASS ≠ 2 then s.dset d DIE_STAT_ACC_CLASS 1 else s
  let n := if int then 1 else 0
  (s.dset d BENCH_REF_INT n).each (chansOf d) fun c t => t.cset c CH_SENSE_REF_INT n

/-- Step 4 of R387: a die that has started decides on its retention, once, and takes its K items from it (R330). -/
def dieDecide (d : Nat) (s : Device) : Device :=
  if !(s.die d).up || (s.die d).decided then s
  else
    let s := retWrite d s
    let o := retDecision s d
    let g := (s.die d).glean
    let dark := match o with | .new => true | .bad _ => true | _ => false
    let s := (decideWords dark d s).each (chansOf d) (chanStart dark g.ret)
    let s := s.modDie d fun x => { x with
      decided := true, darkStart := dark, outage := if dark then none else x.outage, glean := { x.glean with isNew := false } }
    let s := refRetained dark d (darkReport d o (gleanReport d g o s))
    let out := outageSeconds (s.die d).outage
    let s := s.each (chansOf d) fun c t => t.cset c CH_RESUME_OUTAGE out
    if d = 0 then outageWords s else s

/-! Restoration from the ring (R398 to R400). -/

/-- A restored channel is flagged unaccounted (R400). -/
def unaccounted (seq g : Nat) (s : Device) : Device :=
  logEvent Cat.glean (g / 8) 0x03 g seq (setMap RESUME_UNACC_0 RESUME_UNACC_1 g true (s.cset g CH_RESUME_UNACC 1))

/-- The raw accumulators and banks of a channel entry. -/
def entryAcc (e : List Byte) : Acc :=
  { Acc.reset with
    rawqIn := uAt e 0 8, rawqOut := uAt e 8 8, raweIn := sAt e 16 12, raweOut := sAt e 28 12
    bqIn := sAt e 40 12, bqOut := sAt e 52 12, bqNet := sAt e 64 12
    beIn := sAt e 76 12, beOut := sAt e 88 12, beNet := sAt e 100 12 }

/-- The loop counters of a channel entry. -/
def entryCounters (e : List Byte) : List (Nat × Nat) :=
  ((List.range 4).map fun i => (uAt e (114 + 3 * i) 1, uAt e (115 + 3 * i) 2)).filter fun p => p.1 != 0

/-- The engine's position of a channel restored from a record or a fall page: IDLE, ENDED and HALTED stand, any other
state is interrupted at the start of the step (R398, R399), shown as WAIT. A HALTED channel is interrupted as well, and waits
for the host (R392). -/
def restoreStep (step recipe e : Nat) (pass fail : Bool) (src g : Nat) (s : Device) : Device :=
  let stands := e = EngSt.idle ∨ e = EngSt.ended ∨ e = EngSt.halted
  let s := (s.cset g CH_STEP_STEP step).cset g CH_STEP_RECIPE recipe
  let s := (s.cset g CH_STAT_PASS (if pass then 1 else 0)).cset g CH_STAT_FAIL (if fail then 1 else 0)
  let s := setEng (if stands then e else EngSt.wait) g s
  if e = EngSt.idle ∨ e = EngSt.ended then s
  else (s.cset g CH_RESUME_SRC src).modEng g fun x => { x with interrupted := !stands }

/-- A channel takes its entry of the selected record, and its position from a fall page that counts (R398, R399). -/
def restoreChan (rcd : List Byte) (page : Option (List Byte)) (g : Nat) (s : Device) : Device :=
  let e := slice rcd (16 + 126 * (g % 8)) 126
  let st := uAt e 113 1
  let a := entryAcc e
  let s := s.modCh g fun c => { c with acc := a, bnd := a, eng := { c.eng with counters := entryCounters e, stepAcc := a } }
  let s := s.cset g EPOCH_STAT_CAUSE 32
  let bq := recQ s g
  let be := recE s g
  let s := s.modEng g fun x => { x with baseQ := bq, baseE := be }
  let f := slice (page.getD []) (32 + 3 * g) 3
  let s := if uAt f 2 1 / 4 % 2 = 1 then
      restoreStep (uAt f 0 1) (uAt f 1 1 % 16) (uAt f 1 1 / 16) (decide (uAt f 2 1 % 2 = 1)) (decide (uAt f 2 1 / 2 % 2 = 1)) 3 g s
    else
      let k := st / 16 % 4
      restoreStep (uAt e 112 1) (st % 16) (if k = 0 then EngSt.idle else if k = 2 then EngSt.ended else EngSt.running)
        (decide (st / 64 % 2 = 1)) (decide (st / 128 % 2 = 1)) 2 g s
  unaccounted (recordSeq rcd) g s

/-- The fall page that counts for a die: newer than its record, of the same generation (R399). -/
def fallFor (rcd : List Byte) (s : Device) : Option (List Byte) :=
  match s.nvm.fall with
  | none => none
  | some i =>
    let p := fallAt s i
    if newer (fallSeq p) (recordSeq rcd) ∧ uAt p 8 2 = uAt rcd 6 2 then some p else none

/-- A die without a record in a ring that holds some: its channels carry NO_RECORD (R398, R400). -/
def noRecord (d : Nat) (s : Device) : Device :=
  logEvent Cat.glean d 0x04 0xFF 0xFF (s.each (chansOf d) fun g t => t.cset g CH_RESUME_NO_RECORD 1)

/-- GEN_DIFF on every interrupted channel of a die (R401). A lost glean register names no image. -/
def genDiff (lost : Bool) (recGen : Option Nat) (d : Nat) (s : Device) : Device :=
  let gen := s.pget IMAGE_GEN % 65536
  let diff := (!lost && decide ((s.die d).glean.imgGen ≠ gen)) || (match recGen with | some r => decide (r ≠ gen) | none => false)
  let s := if diff then s.each (chansOf d) fun g t => if t.cget g CH_RESUME_SRC ≠ 0 then t.cset g CH_RESUME_GEN_DIFF 1 else t else s
  s.modGlean d fun x => { x with imgGen := gen }

/-- A die whose MODE is 1 uses its internal reference from its start onwards (R105, R106, R188). -/
def refAtLoad (d : Nat) (s : Device) : Device :=
  if (s.die d).refInt then (if s.dget d DIE_STAT_ACC_CLASS = 2 then s else s.dset d DIE_STAT_ACC_CLASS 1)
  else if s.dbit d BENCH_REF_MODE then
    let ratio := (s.reg (dieAddr d 0x17)).toNat * 2 ^ 10
    let s := (s.modDie d fun x => { x with refInt := true, fRef := ratio }).dset d BENCH_REF_INT 1
    let s := if s.dget d DIE_STAT_ACC_CLASS = 2 then s else s.dset d DIE_STAT_ACC_CLASS 1
    s.each (chansOf d) fun g t => t.cset g CH_SENSE_REF_INT 1
  else s

/-- A dark die's channels take their constants, offsets and threshold from the image (R391). -/
def coldConsts (g : Nat) (s : Device) : Device :=
  let s := s.each [0x45, 0x46, 0x47, 0x48] fun o t => t.cforce g o
  let s := forceConsts g (s.modConv g fun v => { v with base := baseWords s g })
  takeConsts (constsNow s g) g s

/-- A loaded die takes its reference and hands its glean domain the enables (R105, R335); a dark die is restored from its
record (R398). -/
def restoreDie (d : Nat) (s : Device) : Device :=
  let s := gleanEnables d (refAtLoad d s)
  let lost := s.pbit (GLEAN_DIE_NEW.at d)
  if !(s.die d).darkStart then genDiff false none d s
  else
    let s := s.each (chansOf d) coldConsts
    match (s.nvm.best[d]?).getD none with
    | none => genDiff lost none d (if s.nvm.anyRecord then noRecord d s else s)
    | some i =>
      let rcd := recordAt s i d
      if uAt rcd 5 1 / 32 % 2 = 1 then genDiff lost none d (noRecord d s)
      else
        let page := fallFor rcd s
        genDiff lost (some (uAt rcd 6 2)) d (s.each (chansOf d) (restoreChan rcd page))

end Sys2Proof.Machine
end

