-- ==== Sys2Proof/Machine/Reset.lean ====
section
/-! DEFINITION. The reset kinds and the start of the package (R386 to R391), the image load with what follows it (R387
steps 5 and 6), the end of LOAD (R388), HOLD, QUALIFY and RUN (R309 to R311, R389, R390), the resume decision (R392 to
R397, R401), and their commands. -/

namespace Sys2Proof.Machine

/-! The start of the package. -/

/-- A start of the main domains is pending, with its cause (R386). -/
def setStart (cause : Nat) (s : Device) : Device := s.modSup fun u => { u with start := some cause }

/-- The dies a start brings up: the lead die alone after a package watchdog, with the dies whose recovery its reset ended
(R386, R439). -/
def startDies (cause : Nat) (s : Device) : List Nat :=
  if cause = 4 then 0 :: (s.dieList.filter fun d => d != 0 && !(s.die d).up && !(s.die d).recov.benched) else s.dieList

/-- The lead die's own state after its start: the host port, the scheduler, the port and the queues start anew (R391). -/
def leadFresh (s : Device) : Device :=
  let at_ := s.now
  let outs := (List.range 4).map fun n => plsFresh (plsStays s n) (pulse s n)
  let ins := s.tallyIn.map fun p => { p with since := at_, shown := false, samples := 0 }
  let s := { s with
    line := .reset, bcast := [], snap := .reset, host := .reset, shadow := [], stage := [], run := .reset, reads := [], resps := []
    busW1c := 0, busClr := false
    tallyClr := [false, false], tallyIn := ins, pulses := outs
    nvm := { Nvm.reset with flash := s.nvm.flash, flashId := s.nvm.flashId }
    supply := { Supply.reset with resetLow := s.supply.resetLow, start := s.supply.start } }
  schedulerStart s

/-- Pulses that wait in BACKLOG are due at once. -/
def pulsesDue (s : Device) : Device :=
  s.each (List.range 4) fun n t =>
    let b := backlog t n
    if b = 0 then t else modPulse n (fun p => { p with due := [(t.now, b)] }) t

/-- A re-seat whose valve request was discarded restarts at step 1 of R246 (R402). -/
def seatsAgain (s : Device) : Device :=
  (s.vreqs.filterMap fun r => r.seatCh).foldl (fun t g =>
    if engState t g = EngSt.reseat then t.modEng g fun e => { e with seat := .wantRelease } else t) s

/-- The words of RESET_STAT, PREV and TRIM_OK after a start (R335, R389, R405), and the port that loads (R385). -/
def startStat (cause : Nat) (s : Device) : Device :=
  let g := (s.die 0).glean
  let n := s.pget RESET_STAT_STARTS
  let s := (((s.pset NVM_STAT_OP 1).pset PKG_STATE_STATE Pkg.load).pset PKG_STATE_PREV g.lastState).pset RESET_STAT_CAUSE cause
  let s := ((s.pset RESET_STAT_LAST_STATE g.lastState).pset RESET_STAT_RESET_EVT 1).pset RESET_STAT_STARTS
    (if cause = 0 then 1 else min (n + 1) 65535)
  s.pset GLEAN_STAT_TRIM_OK (if g.trimOk then 1 else 0)

/-- TMODE holds every ball in husk (R474). -/
def husksAll (b : Bool) (s : Device) : Device := s.modPins fun p => { p with huskAll := b }

/-- A die's port and recovery state after a start; a package watchdog keeps what it knows of a benched die (R436). -/
def linkFresh (cause : Nat) (x : DieSt) : DieSt :=
  let r := if cause = 4 then { x.recov with active := false, trying := false, held := false, stallLatched := false, stalled := false } else .reset
  { x with link := .reset, recov := r }

/-- The dies that start: their ports are trained anew, and each takes steps 1 and 2 of R387. -/
def diesUp (cause : Nat) (dies : List Nat) (s : Device) : Device :=
  let s := s.each dies fun d t => t.modDie d (linkFresh cause)
  let s := s.each s.dieList fun d t => t.modLink d fun l => { l with trained := false }
  s.each dies (dieStart false)

/-- The dies under recovery whose main domain is to come up again (R437). -/
def recoveringDown (s : Device) : List Nat := s.dieList.filter fun d => (s.die d).recov.trying && !(s.die d).up

/-- The start of recovering dies alone: steps 1 and 2 of R387 (R437). -/
def recoveriesUp (s : Device) : Device := if (s.die 0).up then publishDies (s.each (recoveringDown s) (dieStart true)) else s

/-- The cause of a start: with the lead die's glean domain new every start is a cold power-on (R334). -/
def startCause (cause : Nat) (s : Device) : Nat := if (s.die 0).glean.isNew then 0 else cause

/-- MAIN_DOMAIN_START: steps 1 and 2 of R387, of the package where a start is pending, else of the dies under recovery. TMODE
high holds every ball in husk. -/
def pkgStart (tmode : Bool) (s : Device) : Device :=
  match s.supply.start with
  | none => recoveriesUp s
  | some pendingCause =>
    if s.supply.resetLow then s
    else
      let cause := startCause pendingCause s
      let s := if cause = 4 then s else stopAll s
      let dies := startDies cause s
      let reports := (s.dieList.filter fun d => !dies.contains d).map fun d => (0x50 + d, s.reg (0x50 + d))
      let bench := if cause = 4 then s.pget LINK_STAT_BENCHED else 0
      let pend := cause = 4 ∧ s.pbit CKPT_STAT_PENDING = true
      let ckpt := s.nvm.ckptCause
      let last := (s.die 0).glean.lastState
      let s := diesUp cause dies (leadFresh (seatsAgain s))
      let s := reports.foldl (fun t p => t.setReg p.1 p.2) s
      -- a die that stayed up and is in a bench visit still holds its baton (R434)
      let s := s.each (s.dieList.filter fun d => !dies.contains d && benchVisit s d) (benchBaton true)
      -- VBST_SET is back at its default, and the banks of the dies that stay up follow their phases (R276, R281)
      let s := stateValves (s.each (List.range (4 * s.nDies)) clampTest)
      let s := pulsesDue (startStat cause (s.pset LINK_STAT_BENCHED bench))
      let s := if pend then ckptRequest ckpt s else s
      let s := if cause = 4 then logEvent Cat.link 0 0x0A 0xFF last s else s
      publishDies (husksAll tmode (gleanRise (s.modSup fun u => { u with start := none, tmode := tmode })))

/-! What starts it. -/

/-- VSYS enters its operating range while the lead die's glean domain is new (R386). -/
def coldPowerOn (s : Device) : Device :=
  if !(s.die 0).up ∧ (s.die 0).glean.isNew then setStart 0 (s.pset PKG_STATE_STATE Pkg.cold) else s

/-- A warm start: after KEEP, or after a ship wake (R310, R316, R386). -/
def warmStart (s : Device) : Device :=
  let g := (s.die 0).glean
  if !(s.die 0).up ∧ !g.isNew ∧ !g.shipLatch then
    if g.woke then setStart 6 s else if pkgState s = Pkg.keep then setStart 1 s else s
  else s

/-- RESET_N low: husk at once, and the main domains stop; a hand-over is abandoned (R30, R308). A start that was pending keeps
its cause: RESET_N only holds it back. -/
def resetNLow (s : Device) : Device :=
  let on := s.dieList.any fun d => (s.die d).up
  let s := stopAll (s.modPins fun p => { p with huskAll := true })
  let s := s.modSup fun u => { u with resetLow := true }
  if on then setStart 2 s else s

/-- RESET_N rises: the main domains may start; the start sequencer connects the converter when the keeper is usable and
the ship latch clear (R297). -/
def resetNRise (s : Device) : Device :=
  if s.supply.resetLow then
    startSequencer ((s.modSup fun u => { u with resetLow := false }).modPins fun p => { p with huskAll := s.supply.tmode })
  else s

/-- Every main domain stops and starts again with a cause: a soft reset or an OTP reload. -/
def restartAll (cause : Nat) (s : Device) : Device := setStart cause (stopAll s)

/-- A host soft reset, deferred during HANDOVER (R308, R420). -/
def softReset (s : Device) : Device :=
  if pkgState s = Pkg.handover then s.modSup fun u => { u with softDue := true } else restartAll 3 s

/-- HOST_CTL.SOFT with its key. -/
def hostSoftReset (key : Nat) (s : Device) : Device := if (s.die 0).up ∧ key = 0xC3 then softReset s else s

/-- The package watchdog resets the lead die; every lease ends where that leaves RUN, the
other dies' channels follow R440 (R262); a die that streams a checkpoint loses the baton (R403, R436), and a recovery
in progress ends with the reset (R439). It expires PKG_WDT frames after the boundary whose heartbeat did not come. -/
def pkgWatchdog (s : Device) : Device :=
  let x := s.die 0
  if !x.up ∨ !x.recov.stalled ∨ s.frame < x.recov.stallAt / 5120 + s.pget FAULT_CFG_PKG_WDT then s
  else if pkgState s = Pkg.handover then s.modSup fun u => { u with wdtDue := true }
  else
    let s := if pkgState s = Pkg.run then s.each s.chList leaseEnd else s
    let s := mainStop false 0 (nvmBatonLost s)
    setStart 4 (s.each (s.dieList.filter fun d => (s.die d).recov.active) (mainStop false))

/-- OTP_CMD RELOAD with its DIE field (R351, R386). -/
def otpReload (d : Nat) (s : Device) : Device :=
  if !(s.die 0).up then s
  else
    let c := otpRefusal 5 d 0 0 false 0 s
    if c ≠ 0 then otpRefuse c s else restartAll 5 s

/-! Steps 5 and 6 of R387. -/

/-- Each output's configuration and residue after a load: the residue is kept where its die followed the same source all along, or
where the retained source bits are those of the configuration loaded; after darkness it starts at 0 (R215, R216, R391). -/
def pulsesLoad (s : Device) : Device :=
  s.each (List.range 4) fun n t =>
    let w := t.reg (0x80 + 4 * n)
    let k := (t.reg (0x81 + 4 * n)).toNat
    let lead := PLS_CFG_PKG.get w = 1 ∨ PLS_CFG_MODE.get w = 1
    let d := if lead then 0 else PLS_CFG_CH.get w / 8
    let x := t.die d
    let ok := decide (d < t.nDies) && !x.darkStart && !(t.die 0).darkStart && nth x.glean.ret.tags n % 4096 == plsTag w
    let q := if lead then nthI x.glean.ret.hs n else nthI x.glean.ret.res n
    let on := plsStays t n && plsTag (pulse t n).cfg == plsTag w
    let t := modPulse n (fun p =>
      let p := if on then p else if !ok then p.restart
        else if PLS_CFG_MODE.get w = 1 then { p.restart with h := q } else { p.restart with r := q }
      { p with cfg := w, quant := k }) t
    putResq n t

/-- The load may begin: the package is in LOAD without an image (R371). -/
def loadMay (s : Device) : Bool := (s.die 0).up && pkgState s == Pkg.load && !s.pbit IMAGE_STAT_VALID

/-- IMAGE_LOAD: training has ended, and every die decides on its retention (R387 step 4); then the load, and for the dies it
configures the restoration and the pulse residues (steps 5 and 6). The port is free again. -/
def loadImage (s : Device) : Device :=
  if !loadMay s then s
  else
    let s := s.each s.dieList dieDecide
    let s := s.each (s.dieList.filter fun d => d != 0 && (s.die d).up && (s.die d).link.trained) shadowRebuild
    let t := (imageLoad s).pset NVM_STAT_OP 0
    if t.pbit IMAGE_STAT_VALID then pulsesLoad (gleanRise (t.each (loadDies t) restoreDie)) else gleanRise t

/-! The resume decision (R393 to R397, R401). -/

/-- The RESUME field of the current step as a mode: 1 continue, 2 restart, 3 abort; a step that is not there is aborted. -/
def stepResume (s : Device) (g : Nat) : Nat := match curStep s g with | some r => r.resume + 1 | none => 3

/-- The mode of an interrupted channel (R393). -/
def resumeMode (s : Device) (g : Nat) : Nat :=
  let r := stepResume s g
  if (curStep s g).isNone then 3
  else if 2 ≤ s.cget g CH_RESUME_SRC then (if r = 1 then 2 else r)
  else if s.pget RESUME_MAX_MAX_OUTAGE = 0xFFFFFF then 1
  else match (s.die (g / 8)).outage with
    | some ms => if ms / 1000 ≤ s.pget RESUME_MAX_MAX_OUTAGE then 1 else r
    | none => r

/-- The decision on one interrupted channel (R393, R396, R397). -/
def resumeChan (g : Nat) (s : Device) : Device :=
  let m := resumeMode s g
  let ms := match (s.die (g / 8)).outage with | some x => min x (2 ^ 32 - 1) | none => 2 ^ 32 - 1
  let held := s.pget RESUME_CTL_POLICY = 1 ∨ s.cbit g CH_RESUME_GEN_DIFF = true ∨ engState s g = EngSt.resumeHalt
  let s := (traceEvent 2 (0x80 + m) ms g s).cset g CH_RESUME_MODE m
  if m = 3 then
    recipeEnd false EndCode.resumeAbort g (endStep EndCode.resumeAbort 0 g (s.pinc RESUME_STAT_N_ABORT))
  else if held then
    let s := setMap RESUME_HELD_0 RESUME_HELD_1 g true ((engMode 0 g (setEng EngSt.resumeHalt g s)).cset g CH_RESUME_HELD 1)
    (s.pinc RESUME_STAT_N_HELD).modEng g fun e => { e with interrupted := false }
  else carryResume m g (s.pinc (if m = 1 then RESUME_STAT_N_CONT else RESUME_STAT_N_RESTART))

/-- The counts of RESUME_STAT start anew with a decision (R405). -/
def resumeCounts (s : Device) : Device :=
  (((s.pset RESUME_STAT_N_CONT 0).pset RESUME_STAT_N_RESTART 0).pset RESUME_STAT_N_ABORT 0).pset RESUME_STAT_N_HELD 0

/-- A die decides on its interrupted channels. -/
def resumeDie (d : Nat) (s : Device) : Device :=
  s.each (chansOf d) fun g t => if (t.ch g).eng.interrupted && hasStep t g then resumeChan g t else t

/-- AUTO at the first entry to RUN (R249, R392). -/
def autoStart (g : Nat) (s : Device) : Device :=
  if s.cbit g CH_SEQ_AUTO && engState s g == EngSt.idle && !s.cbit g CH_RESUME_NO_RECORD then startRecipe g s else s

/-- The first entry to RUN after a start: every die decides, then AUTO starts the idle channels (R249, R393). -/
def resumeAll (s : Device) : Device :=
  if s.pbit RESUME_STAT_DONE then s
  else
    let dies := s.dieList.filter fun d => dieRuns (s.die d)
    let auto := (s.chList.filter fun g => dies.contains (g / 8)).filter fun g => engState s g == EngSt.idle
    (((resumeCounts s).each dies resumeDie).each auto autoStart).pset RESUME_STAT_DONE 1

/-! QUALIFY, HOLD and RUN. -/

/-- HOLD to QUALIFY: the on-sequence of the rails the off-sequence switched off (R302, R310). -/
def holdQualify (s : Device) : Device :=
  let l := s.supply.seq.offByHold
  stateValves (seqOn l (changeState Pkg.qualify s))

/-- The entry to HOLD with step 6 of R307. -/
def enterHold (s : Device) : Device := stateValves (changeState Pkg.hold (seqOffHold s))
/-- With VBUS good at the HOLD entry the package goes on to QUALIFY at that clock (R310). While the comparator is still
tripped the trip would act at that very clock and lead back to HOLD (R309); the model leaves HOLD when the comparator is
ready again (notes/assumptions/65). -/
def leaveHold (s : Device) : Device :=
  if pkgState s = Pkg.hold ∧ s.pbit PGOOD_CTL_GOOD = true ∧ s.supply.pfTripped = false then holdQualify s else s

/-- A held channel that RELEASE_ALL named at this boundary stays held (R403). -/
def dropRelease (g : Nat) (s : Device) : Device :=
  if engState s g = EngSt.resumeHalt then s.modDue g fun x => { x with seq := if x.seq.testBit 3 then x.seq - 8 else x.seq } else s

/-- A trip in QUALIFY, RECOVER or TEST: every channel stops, valves act under their policy, and the package goes to HOLD
(R309); a pending release is dropped (R403). -/
def tripNonRun (s : Device) : Device :=
  leaveHold (enterHold (handoverValves ((s.each s.chList dropRelease).each s.chList stopChannel)))

/-- A die whose port has not trained by the end of LOAD is held in husk (R33). -/
def trainingFailed (d : Nat) (s : Device) : Device :=
  let x := s.die d
  if d = 0 ∨ !x.up ∨ x.link.trained then s
  else (valvesHusk d (s.each (chansOf d) gatesOff)).modDie d fun x => { x with husk := true, ctl := false, link := { x.link with failed := true } }

/-- A die has gone through steps 7 to 9 of R387, seeding and the booking of gleaned charge; one that is down, not trained or in
husk is not waited for. -/
def diePrepared (s : Device) (d : Nat) : Bool :=
  let x := s.die d
  !x.up || x.husk || d != 0 && !x.link.trained || x.seeded && x.booked.isSome

/-- The die comes under step-engine control (R387, R438). -/
def takeControl (d : Nat) (s : Device) : Device :=
  let at_ := s.now
  (s.each (chansOf d) huskIdle).modDie d fun x =>
    let on := x.up && !x.husk
    { x with ctl := on, recov := { x.recov with ctlAt := if on then (if x.ctl then x.recov.ctlAt else some at_) else none } }

/-- LOAD_END, once steps 7 to 9 of R387 have ended: the dies come under step-engine control; RECOVER when another die reported
in its training that it had stayed up, else QUALIFY (R388). A trip still in force acts at the entry (R309). -/
def loadEnd (s : Device) : Device :=
  if (s.die 0).up ∧ pkgState s = Pkg.load ∧ s.pbit IMAGE_STAT_VALID = true ∧ s.dieList.all (diePrepared s) = true then
    let stayed := s.dieList.any fun d => d != 0 && dieRuns (s.die d) && (s.die d).link.trained
    let s := s.each s.dieList trainingFailed
    let s := s.each s.dieList takeControl
    let s := publishDies s
    let s := if stayed then changeState Pkg.recover s else seqOn allRails (changeState Pkg.qualify s)
    if s.supply.pfTripped then tripNonRun s else stateValves s
  else s

/-- The on-sequence has finished without SEQ_FAIL (R311). Entering RECOVER begins none: there it is enough that none runs or
has failed (notes/assumptions/65). -/
def seqDone (s : Device) : Bool :=
  !s.pbit AUX_STAT_SEQ_FAIL && (s.supply.seq.finished || pkgState s == Pkg.recover && s.supply.seq.kind != 1)

/-- The conditions of R311 and R390, the lock wait apart; none while a ship sequence runs (R315). -/
def qualified (s : Device) : Bool :=
  (s.die 0).up && (pkgState s == Pkg.qualify || pkgState s == Pkg.recover) && s.pbit IMAGE_STAT_VALID && s.pbit BUS_STAT_FIT &&
    s.supply.ship == 0 && s.pbit PGOOD_CTL_GOOD && qualTimePassed s && seqDone s

/-- The wait for LOCKED counts from the first clock at which every other condition holds: at a clock at which one fails, it
starts anew (R390). -/
def lockClock (s : Device) : Device :=
  if qualified s then s
  else
    let at_ := s.now
    s.modSup fun u => { u with lockFrom := at_, lockDone := false }

/-- The lock wait is over (R390). -/
def lockOk (s : Device) : Bool := !s.pbit RESUME_CTL_LOCK_WAIT || lineState s == LineState.locked || s.supply.lockDone

/-- QUALIFY_PASS: RUN (R311, R390); at the first entry after a start the resume decisions are taken. -/
def qualifyPass (s : Device) : Device :=
  if qualified s && lockOk s then
    resumeAll (stateValves ((changeState Pkg.run s).modSup fun u => { u with lockDone := false }))
  else s

/-- LOCK_WAIT_TIMEOUT: the wait for LOCKED ends (R390). -/
def lockWaitTimeout (s : Device) : Device :=
  if qualified s && !lockOk s && s.passed s.supply.lockFrom (secClocks (s.pget RESUME_CTL_LOCK_TMO)) then (s.pset RESUME_CMD_LOCK_TMO_EVT 1).modSup fun u => { u with lockDone := true } else s

/-- RESUME_CMD.RELEASE_ALL with its key: every held channel is released at the next frame boundary (R397). -/
def releaseAll (data : Word) (s : Device) : Device :=
  if RESUME_CMD_RELEASE_ALL.get data = 1 ∧ RESUME_CMD_KEY.get data = 0xC3 then
    s.each s.chList fun g t => if engState t g = EngSt.resumeHalt then seqCmd 3 g t else t
  else s

/-! Commands. -/

/-- COLD_POWER_ON. -/
def execColdPowerOn (s : State) : Host.Outcome State Fault Refusal := onDev s coldPowerOn
/-- WARM_START. -/
def execWarmStart (s : State) : Host.Outcome State Fault Refusal := onDev s warmStart
/-- RESET_N_LOW. -/
def execResetNLow (s : State) : Host.Outcome State Fault Refusal := onDev s resetNLow
/-- RESET_N_RISE. -/
def execResetNRise (s : State) : Host.Outcome State Fault Refusal := onDev s resetNRise
/-- MAIN_DOMAIN_START. -/
def execMainDomainStart (tmode : Bool) (s : State) : Host.Outcome State Fault Refusal := onDev s (pkgStart tmode)
/-- IMAGE_LOAD. -/
def execImageLoad (s : State) : Host.Outcome State Fault Refusal := onDev s loadImage
/-- LOAD_END. -/
def execLoadEnd (s : State) : Host.Outcome State Fault Refusal := onDev s loadEnd
/-- QUALIFY_PASS. -/
def execQualifyPass (s : State) : Host.Outcome State Fault Refusal := onDev s qualifyPass
/-- LOCK_WAIT_TIMEOUT. -/
def execLockWaitTimeout (s : State) : Host.Outcome State Fault Refusal := onDev s lockWaitTimeout
/-- RELEASE_ALL. -/
def execReleaseAll (data : Word) (s : State) : Host.Outcome State Fault Refusal := onDev s (releaseAll data)
/-- HOST_SOFT_RESET. -/
def execHostSoftReset (key : Byte) (s : State) : Host.Outcome State Fault Refusal := onDev s (hostSoftReset key.toNat)
/-- PKG_WATCHDOG_EXPIRY. -/
def execPkgWatchdogExpiry (s : State) : Host.Outcome State Fault Refusal := onDev s pkgWatchdog
/-- OTP_RELOAD: the row has no operand, and its DIE field reads 0. -/
def execOtpReload (s : State) : Host.Outcome State Fault Refusal := onDev s (otpReload 0)

end Sys2Proof.Machine
end

