-- ==== Sys2Proof/Machine/Handover.lean ====
section
/-! DEFINITION. The hand-over (R307 to R311, R363, R380, R384), the controlled stops into KEEP and the ship mode (R310, R313
to R316), and their commands. -/

namespace Sys2Proof.Machine

/-! The trip. -/

/-- The page in sector 0 of this slot is the fall sector (R377). -/
def fallSlot (s : Device) : Nat :=
  if s.nvm.cur = some .ckpt ∧ 1 ≤ s.nvm.step then nextSlot s (ckptSlot s) else ckptSlot s

/-- The checkpoint in hand is cut: its slot is invalid by the fall page, its requests stay pending (R379, R380). -/
def cutCheckpoint (s : Device) : Device :=
  if s.pbit CKPT_STAT_BUSY then
    let w := if s.nvm.cur = some .ckpt then some (ckptSlot s) else none
    let s := ((s.pset CKPT_STAT_BUSY 0).pset CKPT_STAT_PENDING 1).modSup fun u => { u with cutCkpt := w }
    nvmCount (s.modNvm fun n => { n with
      ckptCause := n.curCause, records := [], streamers := [], streaming := none, queue := n.queue.erase .ckpt })
  else s

/-- The power-fail comparator can trip again (R298); a HOLD with VBUS good ends (R309, R310). -/
def pfReady (s : Device) : Device :=
  let s := s.modSup fun u => { u with pfTripped := false }
  if (s.die 0).up then leaveHold s else s

/-- A host transfer, running or waiting, is cut (R307, R374). -/
def cutTransfer (s : Device) : Device :=
  if s.pbit NVM_STAT_BUSY then
    let s := nvmCount (s.modNvm fun n => { n with queue := n.queue.filter fun o => match o with | .pt _ _ _ => false | _ => true })
    ptEnd 3 s
  else s

/-- An erase in progress is aborted. -/
def cutErase (s : Device) : Device := match s.nvm.op with | some (.erase _) => flashCut s | _ => s

/-- The lead die holds the port for the hand-over: the page goes to this slot, once a program in progress is done. -/
def takePort (slot : Nat) (write : Bool) (s : Device) : Device :=
  if s.nvm.op.isSome then
    ((s.modNvm fun n => { n with cur := some .handover, step := slot }).pset NVM_STAT_OP 6).pset BATON_STAT_NVM_HOLDER 8
  else if write then
    let s := ((s.modNvm fun n => { n with cur := some .handover, step := slot }).pset NVM_STAT_OP 6).pset BATON_STAT_NVM_HOLDER 8
    fallKick (s.modSup fun u => { u with fallPage := true })
  else nvmFree s

/-- A checkpoint cut once its programming has begun has used sector 0 of its slot W: the spare there is no longer known to be
erased, and without a fall page, which moves W on, it is restored (R377). -/
def spareUsed (begun : Bool) (s : Device) : Device := if begun then nvmPush .spare (s.pset CKPT_STAT_SPARE_OK 0) else s

/-- The fall page of this hand-over is formed (R380). -/
def pageForm (s : Device) : Device :=
  let b := fallPage s
  s.modSup fun u => { u with page := b }

/-- Step 5 of R307: the lead die takes the port. With hold-up a page program in progress completes first, an erase is
aborted, and with an erased spare the fall page follows, formed here. Without hold-up the step is skipped: the flash ends what
it does by itself, and HOLD does not wait for it. -/
def handoverNvm (s : Device) : Device :=
  let slot := fallSlot s
  let spare := decide (s.nvm.cur = some .spare)
  let begun := decide (s.nvm.cur = some .ckpt ∧ 2 ≤ s.nvm.step)
  let s := pageForm (pinCut 3 (cutTransfer (cutCheckpoint s)))
  let hold := s.pbit KEEP_STAT_HOLDUP
  let ok := s.pbit CKPT_STAT_SPARE_OK
  let s := if hold && ok then s else s.pset HANDOVER_STAT_CKPT_SKIP 1
  let s := if ok then s else s.pset CKPT_STAT_FAIL_EVT 1
  let s := takePort slot (hold && ok) (if hold then cutErase s else s)
  let s := s.modSup fun u => { u with fallWait := hold }
  spareUsed (begun && !hold) (if spare then nvmPush .spare s else s)

/-- The power-fail comparator trips in RUN (R307): the dies whose own comparator trips stop their channels at once, the
others at the broadcast stop 24 clocks later. A recovering die stays in husk until the next LOAD (R439). After an accepted ship
request the trip is ignored (R315). -/
def powerFailTrip (own : Nat) (s : Device) : Device :=
  if !(s.die 0).up ∨ pkgState s ≠ Pkg.run ∨ s.supply.pfTripped = true ∨ s.supply.ship ≠ 0 then s
  else
    let at_ := s.now
    let f := s.frame % 2 ^ 32
    let c := s.line.nco.count % 2 ^ 32
    let l := lineState s
    let s := s.modSup fun u => { u with
      pfTripped := true, tripAt := at_, tripFrame := f, tripCount := c, tripLine := l, cutCkpt := none, fallPage := false }
    let s := ((s.pset HANDOVER_STAT_CKPT_DONE 0).pset HANDOVER_STAT_CKPT_SKIP 0).pset HANDOVER_STAT_VBUS_BACK 0
    let s := s.each (s.dieList.filter fun d => (s.die d).recov.active) fun d t =>
      (mainStop true d t).modRecov d fun r => { r with held := true }
    let s := s.each s.chList dropRelease
    let s := otpCutShort s
    let s := changeState Pkg.handover (handoverNvm s)
    let s := s.each (s.chList.filter fun g => own.testBit (g / 8)) stopChannel
    let e := at_ + 24
    let s := { s with bcast := s.bcast ++ [{ kind := .sched, dies := [0], frame := e / 5120, clk := e % 5120, arg := 1 }] }
    let s := handoverValves s
    s.each (s.dieList.filter fun d => (s.die d).up) retCommit

/-- The trip outside RUN: in QUALIFY, RECOVER and TEST under R309, elsewhere the comparator's state alone (R309, R403). -/
def pfTripNonRun (s : Device) : Device :=
  let st := pkgState s
  if !(s.die 0).up ∨ s.supply.pfTripped = true ∨ st = Pkg.run then s
  else
    let s := s.modSup fun u => { u with pfTripped := true }
    if (st = Pkg.qualify ∨ st = Pkg.recover ∨ st = Pkg.test) ∧ s.supply.ship = 0 then tripNonRun s else s

/-- A die's comparator trips alone: its channels stop, and nothing starts before the next arbitration (R311). -/
def localPfTrip (d : Nat) (s : Device) : Device :=
  if (s.die d).up ∧ pkgState s = Pkg.run then
    let s := s.each (chansOf d) fun g t =>
      let t := stopChannel g t
      if engState t g = EngSt.running ∧ needsCurrent (curType t g) = true then requestRun true 0 g t
      else if leaseHeld t g then leaseWait true g t else t
    logEvent Cat.link d 0x0C d 0 s
  else s

/-! The end of the hand-over. -/

/-- What HANDOVER deferred is carried out at the HOLD entry (R308). -/
def carryDeferred (s : Device) : Device :=
  let soft := s.supply.softDue
  let wdt := s.supply.wdtDue
  let s := s.modSup fun u => { u with softDue := false, wdtDue := false }
  if soft then restartAll 3 s else if wdt then pkgWatchdog s else s

/-- HANDOVER_COMPLETE: HOLD, once no hand-over work is left (R307 step 6, R318). -/
def handoverComplete (s : Device) : Device :=
  if !(s.die 0).up ∨ pkgState s ≠ Pkg.handover ∨ s.nvm.cur = some .handover ∧ s.supply.fallWait = true then s
  else
    let dur := min ((s.now - s.supply.tripAt) * 10 / 2048) 4095
    let s := enterHold s
    let s := ((s.pinc HANDOVER_STAT_COUNT).pset HANDOVER_STAT_DUR dur).pset HANDOVER_STAT_HO_EVT 1
    let s := logEvent Cat.bus 0 0x06 0xFF
      (dur + s.pget HANDOVER_STAT_CKPT_DONE * 2 ^ 12 + s.pget HANDOVER_STAT_CKPT_SKIP * 2 ^ 13 + s.pget HANDOVER_STAT_VBUS_BACK * 2 ^ 14) s
    let s := carryDeferred s
    if (s.die 0).up then nvmRun (leaveHold s) else s

/-- VBUS becomes good (R298): HOLD ends; in HANDOVER only VBUS_BACK sets (R308, R310). -/
def vbusGood (s : Device) : Device :=
  if (s.die 0).up then
    let s := (if s.pbit PGOOD_CTL_GOOD then s else qualRestart s).pset PGOOD_CTL_GOOD 1
    if pkgState s = Pkg.handover then s.pset HANDOVER_STAT_VBUS_BACK 1 else leaveHold s
  else s

/-! KEEP. -/

/-- The main domains stop into KEEP, and with the lead die's the keeper converter (R156, R297). -/
def enterKeep (s : Device) : Device := setPkgState Pkg.keep (stopAll s)

/-- A controlled stop: the rails and the valves held under KEEP first, then KEEP, the keeper converter off (R310). -/
def controlledStop (s : Device) : Device :=
  enterKeep (allRails.foldl (fun t r => if auxOn t r then railOff r t else t) (seqOff allRails s))

/-- STORE_EST fell below RESERVE in HOLD (R310). -/
def holdStoreLow (s : Device) : Device :=
  if (s.die 0).up ∧ pkgState s = Pkg.hold ∧ (s.reg 0x49).toNat < s.pfrc STORE_RES_RESERVE then controlledStop s else s

/-- HOLD_MAX minutes of HOLD have passed (R310). -/
def holdMaxExpiry (s : Device) : Device :=
  let m := s.pfrc HANDOVER_CFG_HOLD_MAX
  if (s.die 0).up ∧ pkgState s = Pkg.hold ∧ m ≠ 0 ∧ s.passed s.supply.stateAt (secClocks (60 * m)) = true then controlledStop s else s

/-- VSYS falls below 3.0 V: KEEP; a hand-over is abandoned (R308, R389). -/
def vsysCollapse (s : Device) : Device := if s.dieList.any fun d => (s.die d).up then enterKeep s else s

/-! Ship mode. -/

/-- The request is accepted: the states and conditions of R314. -/
def shipOk (s : Device) : Bool :=
  let st := pkgState s
  (st == Pkg.qualify || st == Pkg.run || st == Pkg.hold || st == Pkg.test) && (leases s).isEmpty &&
    s.chList.all (fun g => !s.cbit g CH_STAT_ACTIVE && !leaseHeld s g) &&
    (List.range (4 * s.nDies)).all fun v => phaseOf s v == Ph.off || phaseOf s v == Ph.fault

/-- SHIP_CTL.ENTER with its key: a refusal, or step 1 of R314 and the request for its checkpoint; the steps that follow it come
at the frame boundaries (R315). A further request while the sequence runs changes nothing. -/
def shipEnter (data : Word) (s : Device) : Device :=
  if !(s.die 0).up ∨ SHIP_CTL_ENTER.get data ≠ 1 ∨ SHIP_CTL_KEY.get data ≠ 0xC3 ∨ s.supply.ship ≠ 0 then s
  else if !shipOk s then s.pset SHIP_CTL_REFUSED_EVT 1
  else
    let at_ := s.now
    let s := s.each s.dieList fun d t => t.modGlean d fun g => { g with shipLatch := true }
    let s := (ckptRequest 3 s).modSup fun u => { u with ship := 1, shipAt := at_ }
    s.each (s.dieList.filter fun d => (s.die d).up) retCommit

/-- Step 4 of R314: the keeper leaves VSYS and every glean domain, the state becomes SHIP and the main domains stop, whose stop
books and commits. Whether VBUS lies below the copy of RISE less 1.0 V is kept (R316). -/
def shipDown (s : Device) : Device :=
  let low := decide (s.pget PATH_STAT_VBUS_RD * 10 + 1000 < (s.die 0).glean.riseCopy * 100)
  let s := allRails.foldl (fun t r => if auxOn t r then railOff r t else t) s
  let s := (setPkgState Pkg.ship (stopAll s)).modPins fun p => { p with converter := false, keeperFeed := false }
  s.modGlean 0 fun g => { g with vbusLow := low }

/-- A frame boundary of the ship sequence: the wait for the checkpoint, 50 ms at most, then the off-sequence of the rails, then
step 4 (R314). The sequence goes on at boundaries (notes/assumptions/27). -/
def shipBoundary (s : Device) : Device :=
  let waits := decide (0 < s.nvm.sectors) && (s.pbit CKPT_STAT_PENDING || s.pbit CKPT_STAT_BUSY) &&
    !s.passed s.supply.shipAt (msClocks 50)
  if s.supply.ship = 1 then (if waits then s else seqOff allRails (s.modSup fun u => { u with ship := 2 }))
  else if s.supply.ship = 2 then (if s.supply.seq.kind = 2 then s else shipDown s)
  else s

/-- Ship mode ends: the latch clears, the keeper is reconnected, LAST_EXIT takes the cause; after WAKE_N the start sequencer
may run the converter (R297, R316). KEEP with the ship latch set behaves as SHIP (R315). -/
def shipExit (cause : Nat) (s : Device) : Device :=
  if !(s.die 0).up ∧ (pkgState s = Pkg.ship ∨ pkgState s = Pkg.keep) ∧ (s.die 0).glean.shipLatch = true then
    let s := s.each s.dieList fun d t => t.modGlean d fun g => { g with shipLatch := false }
    let s := (s.pset SHIP_CTL_LAST_EXIT cause).modGlean 0 fun g => { g with woke := true }
    startSequencer (s.modPins fun p => { p with keeperFeed := true })
  else s

/-- VBUS rises above the copy of RISE; it ends ship mode only after VBUS has been below that copy less 1.0 V (R316). -/
def shipVbusWake (s : Device) : Device := if (s.die 0).glean.vbusLow then shipExit 2 s else s

/-- WAKE_N held low for at least 100 ms (R316). -/
def shipWakeN (lowMs : Nat) (s : Device) : Device := if 100 ≤ lowMs then shipExit 1 s else s

/-! Commands. -/

/-- POWER_FAIL_TRIP. -/
def execPowerFailTrip (own : BitVec 8) (s : State) : Host.Outcome State Fault Refusal := onDev s (powerFailTrip own.toNat)
/-- PF_TRIP_NON_RUN. -/
def execPfTripNonRun (s : State) : Host.Outcome State Fault Refusal := onDev s pfTripNonRun
/-- LOCAL_PF_TRIP. -/
def execLocalPfTrip (d : Die) (s : State) : Host.Outcome State Fault Refusal := onDie d.val s (localPfTrip d.val)
/-- PF_READY_AGAIN. -/
def execPfReadyAgain (s : State) : Host.Outcome State Fault Refusal := onDev s pfReady
/-- HANDOVER_COMPLETE. -/
def execHandoverComplete (s : State) : Host.Outcome State Fault Refusal := onDev s handoverComplete
/-- VBUS_GOOD. -/
def execVbusGood (s : State) : Host.Outcome State Fault Refusal := onDev s vbusGood
/-- HOLD_STORE_LOW. -/
def execHoldStoreLow (s : State) : Host.Outcome State Fault Refusal := onDev s holdStoreLow
/-- HOLD_MAX_EXPIRY. -/
def execHoldMaxExpiry (s : State) : Host.Outcome State Fault Refusal := onDev s holdMaxExpiry
/-- VSYS_COLLAPSE. -/
def execVsysCollapse (s : State) : Host.Outcome State Fault Refusal := onDev s vsysCollapse
/-- SHIP_ENTER. -/
def execShipEnter (data : Word) (s : State) : Host.Outcome State Fault Refusal := onDev s (shipEnter data)
/-- SHIP_WAKE_N. -/
def execShipWakeN (lowMs : Nat) (s : State) : Host.Outcome State Fault Refusal := onDev s (shipWakeN lowMs)
/-- SHIP_VBUS_WAKE. -/
def execShipVbusWake (s : State) : Host.Outcome State Fault Refusal := onDev s shipVbusWake

end Sys2Proof.Machine
end

