-- ==== Sys2Proof/Machine/Recovery.lean ====
section
/-! DEFINITION. The die watchdog (R435), die recovery (R437 to R439), the silence of a port (R35), the loss of the lead die
(R440), and their commands. -/

namespace Sys2Proof.Machine

/-! The die watchdog. -/

/-- The lead die's balls at its stall: its rails turn off, its pulse outputs are cut, its flash port stops and the keeper's
converter with it (R29, R216, R297, R475, R476). -/
def leadStallBalls (s : Device) : Device :=
  let s := allRails.foldl (fun t r => if auxOn t r then railOff r t else t) s
  (nvmStop (plsCut s)).modPins fun p => { p with converter := false }

/-- DIE_WATCHDOG_STALL, 2,560 clocks after a boundary without a heartbeat: the die's balls go to husk, the lead die's rails
among them, its culm transmitters stop, and DIE_WDT keeps the cause (R29, R435). -/
def dieStall (d : Nat) (s : Device) : Device :=
  if !alive (s.die d) ∨ (s.die d).clk < 2560 then s
  else
    let at_ := s.now
    let s := (s.dset d DIE_WDT_CAUSE 1).dinc d DIE_WDT_STALLS
    let s := valvesHusk d (s.each (chansOf d) gatesOff)
    let s := if d = 0 then leadStallBalls s else s
    publishDies (s.modDie d fun x => { x with husk := true, recov := { x.recov with stalled := true, stallLatched := true, stallAt := at_ } })

/-- The die's culm transmitters have stopped with its stall; they start again with its main domain (R435). -/
def mute (x : DieSt) : Bool := !alive x

/-! Recovery. -/

/-- The words posted for a die are discarded with it, as writes to a die in husk (R417, R444). -/
def dropPosts (d : Nat) (s : Device) : Device :=
  let mine := s.host.posting.any fun p => ownerOf p.1 == d
  let s := s.modHost fun h => { h with posting := h.posting.filter fun p => ownerOf p.1 != d }
  if mine then s.pset HOST_STAT_HUSK_EVT 1 else s

/-- The lead die takes back what the die holds: its leases without an entry, its batons by expiry (R437). -/
def takeBack (d : Nat) (s : Device) : Device :=
  let s := s.each (chansOf d) fun g t =>
    setMap BUS_PAUSE_MAP_0 BUS_PAUSE_MAP_1 g false (setMap BUS_QUEUE_MAP_0 BUS_QUEUE_MAP_1 g false (t.modLease g fun _ => .reset))
  let s := if s.nvm.streaming = some d then nvmBatonLost s else s
  let s := if ((s.bankAt[d]?).getD none).isSome then
      logEvent Cat.link 0 0x0B d 2 (valveBatons ((s.setBanks (s.bankAt.set d none)).pset BATON_STAT_BANK_EXP_EVT 1))
    else s
  (s.grants.filter fun p => p.1 / 4 == d).foldl (fun t p =>
    logEvent Cat.link 0 0x0B d 3 (valveBatons
      ((t.setGrants (t.grants.filter fun q => q.1 != p.1)).pset BATON_STAT_VBST_EXP_EVT 1))) s

/-- A die that stops answering: its outstanding READs are discarded, and their credits return (R444). -/
def dropReads (d : Nat) (s : Device) : Device := s.setBulk (s.reads.filter fun p => p.1 != d) s.resps

/-- The die is benched out until the next main-domain start of the package (R438). -/
def benchOut (d : Nat) (s : Device) : Device :=
  let s := dropReads d (dropPosts d (valvesHusk d (mainStop true d (takeBack d s))))
  let s := s.modDie d fun x => { x with staging := [], stagingDrop := 0 }
  let s := s.modRecov d fun r => { r with active := false, trying := false, doneAt := none, ctlAt := none, benched := true }
  let s := ((s.psetBit LINK_STAT_BENCHED d true).psetBit RECOV_STAT_IN_RECOVERY d false).pset RECOV_STAT_BENCH_EVT 1
  publishDies (logEvent Cat.link 0 0x08 d 0 s)

/-- A failed attempt is counted; the third benches the die out (R438). -/
def attemptFails (d : Nat) (s : Device) : Device :=
  let s := s.dinc d DIE_WDT_FAILS
  if 3 ≤ s.dget d DIE_WDT_FAILS then benchOut d s else s

/-- A recipe in the RAM passes its section's CRC (R37, R38). -/
def recipeCrcOk (r : Recipe) : Bool := crc32 (r.sect ++ r.header ++ r.bytes) == r.crc

/-- The die's sections come from its image cache and its recipe RAM, each whose CRC matches; the others are to be fetched
(R38). The pins in force are applied to the words (R384). -/
def cacheLoad (d : Nat) (s : Device) : Device :=
  let x := s.die d
  let good := x.cache.filter scrcOk
  let bad := (x.cache.filter fun c => !scrcOk c).map fetchKey ++ (x.recipes.filter fun r => !recipeCrcOk r).map fun r => (4, r.id)
  let s := s.modDie d fun x => { x with
    hasDie := good.any fun c => c.typ == 2
    hasChan := (List.range 8).map fun k => good.any fun c => c.typ == 3 && c.ch == k
    recipes := x.recipes.filter recipeCrcOk
    fetch := x.fetch ++ bad.filter fun k => !x.fetch.contains k }
  dieSettled d (good.foldl (fun t c => applyEntries c c.body t) s)

/-- The number of LAST_CAUSE (R446). -/
def causeCode : RecoveryCause → Nat
  | .cellRepetition => 1
  | .silence => 2
  | .stallReport => 3

/-- The lead die may recover the die: it is up, the die is another one, present, not held under R17, not benched out, and
no attempt is in progress (R437, R439). -/
def recoverable (d : Nat) (s : Device) : Bool :=
  let x := s.die d
  (s.die 0).up && d != 0 && !x.link.badIndex && !x.recov.benched && !x.recov.held && !x.recov.trying

/-- A die's port starts anew: it trains again, nothing is in flight, nothing has been heard. -/
def linkAnew (l : Link) : Link :=
  { l with
    trained := false, failed := false, silent := false, upSilent := false, holdOver := false, paused := false, heardAt := none
    upHeardAt := none, seq := 0, wait := [], upSeq := 0, upWait := [] }

/-- The attempt itself: the lead die takes back what the die holds, writes its entry with the attempt's number, 1 to 3, and
resets the die's main domain, which comes up again with MAIN_DOMAIN_START (R431, R437). -/
def recoverDie (d cause : Nat) (s : Device) : Device :=
  let attempt := min (s.dget d DIE_WDT_FAILS + 1) 3
  let at_ := s.now
  let s := dropReads d (takeBack d s)
  let s := logEvent Cat.link 0 0x06 d (cause + attempt * 256) (s.dinc d DIE_WDT_RECOVERIES)
  let s := ((s.pset RECOV_STAT_LAST_DIE d).pset RECOV_STAT_LAST_CAUSE cause).pset RECOV_STAT_REC_EVT 1
  let s := s.psetBit RECOV_STAT_IN_RECOVERY d true
  publishDies ((mainStop true d s).modDie d fun x => { x with
    link := linkAnew x.link
    recov := { x.recov with active := true, trying := true, since := at_, doneAt := none, ctlAt := none } })

/-- Steps 4 to 6 of R387 on a recovering die, once its port has trained: the decision on its retention, the check of its image
cache and the restoration of its channels (R38, R437). -/
def dieReturns (d : Nat) (s : Device) : Device := shadowRebuild d (restoreDie d (cacheLoad d (dieDecide d s)))

/-- DIE_RECOVERY_START: a recovery within STABLE seconds of the last return counts that attempt as failed (R438). -/
def recoveryStart (d cause : Nat) (s : Device) : Device :=
  if !recoverable d s then s
  else
    let again := match (s.die d).recov.doneAt with | some t => !s.passed t (secClocks (s.pget FAULT_CFG_STABLE)) | none => false
    let s := if again then attemptFails d s else s
    if (s.die d).recov.benched then s else recoverDie d cause s

/-- The die has gone through the die-local part of R387: trained, its sections there, seeded, and its gleaned charge booked at
a boundary before the present one. -/
def dieBack (s : Device) (d : Nat) : Bool :=
  let x := s.die d
  x.recov.trying && x.up && x.link.trained && x.decided && x.seeded && x.fetch == [] && s.clk == 0 &&
    match x.booked with | some f => decide (f < s.frame) | none => false

/-- DIE_RECOVERY_DONE, at the first frame boundary after step 9 of R387: the die is back under step-engine control; it takes its
resume decision (R387, R393, R437). -/
def recoveryDone (d : Nat) (s : Device) : Device :=
  let x := s.die d
  if !dieBack s d then s
  else
    let ms := (s.now - x.recov.since) / 20480
    let stall := x.recov.stallLatched
    let at_ := s.now
    let s := s.modDie d fun x => { x with
      ctl := true, husk := !x.hasDie || x.link.badIndex
      recov := { x.recov with active := false, trying := false, doneAt := some at_, ctlAt := some at_, stallLatched := false } }
    let s := publishDies (s.psetBit RECOV_STAT_IN_RECOVERY d false)
    let s := logEvent Cat.link 0 0x07 d ms s
    let s := if stall then logEvent Cat.link d 0x05 d (s.dget d DIE_WDT_CAUSE) s else s
    if dieRuns (s.die d) then resumeDie d (resumeCounts (s.each (chansOf d) huskIdle)) else s

/-- RECOVERY_TIMEOUT: 100 ms passed without the die's return. The die stays down, its attempt failed; the next cause, or
the next RECOVERY command, starts it again (R438). -/
def recoveryTimeout (d : Nat) (s : Device) : Device :=
  let x := s.die d
  if !(x.recov.trying && s.passed x.recov.since (msClocks 100)) then s
  else attemptFails d ((mainStop true d s).modRecov d fun r => { r with trying := false })

/-- RECOVERY_STABLE: the die has stayed under step-engine control for STABLE seconds (R438). -/
def recoveryStable (d : Nat) (s : Device) : Device :=
  let x := s.die d
  if x.ctl && (match x.recov.ctlAt with | some t => s.passed t (secClocks (s.pget FAULT_CFG_STABLE)) | none => false) then
    (s.dset d DIE_WDT_FAILS 0).modRecov d fun r => { r with doneAt := none }
  else s

/-! Silence. -/

/-- No valid cell for 750 µs since the clock of the last one (R35). -/
def noCell (t : Option Nat) (s : Device) : Bool := match t with | some t => s.passed t 15360 | none => false

/-- The lead die declares port d silent and starts the recovery of its die (R34, R35). -/
def portSilentDown (d : Nat) (s : Device) : Device :=
  if (s.die 0).up && d != 0 && (s.die d).link.trained && !(s.die d).link.silent && noCell (s.die d).link.heardAt s then
    let s := s.psetBit LINK_STAT_SILENT d true
    recoveryStart d 2 (logEvent Cat.link 0 0x04 d 0 (s.modLink d fun l => { l with silent := true, heardAt := none }))
  else s

/-- A die declares its upstream port silent: it holds over (R35, R440). -/
def portSilentUp (d : Nat) (s : Device) : Device :=
  let l := (s.die d).link
  if d != 0 && (s.die d).up && !l.upSilent && noCell l.upHeardAt s then
    let at_ := l.upHeardAt.getD 0
    bankRow d (s.modLink d fun l => { l with upSilent := true, holdOver := true, silentAt := at_, paused := false })
  else s

/-- A channel of the die switches, so that a pause acts on it (R440). -/
def pausesAny (s : Device) (d : Nat) : Bool := (chansOf d).any fun g => s.cbit g CH_STAT_ACTIVE

/-- The die pauses every channel that switches: a ramp to REST, PAUSED with cause 3 at the next frame boundary (R440). -/
def leadPause (d : Nat) (s : Device) : Device :=
  s.each (chansOf d) fun g t =>
    if t.cbit g CH_STAT_ACTIVE then
      let t := setMode 0 g (t.modLp g fun x => { x with engMode := 0 })
      t.modDue g fun x => { x with pause := 3 }
    else t

/-- LEAD_HOLD_EXPIRY: LEAD_HOLD ms without a valid cell, by the die's own copy (R440, R446). -/
def leadHold (d : Nat) (s : Device) : Device :=
  if (s.die d).up && (s.die d).link.holdOver && s.passed (s.die d).link.silentAt (msClocks (s.die d).leadMs) then
    let any := pausesAny s d
    (leadPause d s).modLink d fun l => { l with holdOver := false, paused := any }
  else s

/-- A die's replica has jumped: a channel's next ACIR window keeps its distance on the new count (R54, R402). -/
def rearm (old new g : Nat) (s : Device) : Device :=
  s.modEng g fun e => { e with acirDue := e.acirDue.map fun p => new + (p - old) }

/-- The lead die has returned: the first ANGLE broadcast pauses a die that still holds over, windows abort with code 5,
what waits for a point of the old count is armed on the new one, and the die writes LEAD_LOSS, whose bit 31 says whether
channels were paused (R54, R182, R388, R431, R440). `old` is the die's point before the broadcast. -/
def leadReturn (old d : Nat) (s : Device) : Device :=
  let l := (s.die d).link
  if !l.upSilent then s
  else
    let new := (s.die d).nco.pt
    let s := s.each (chansOf d) fun g t => acirAbort 5 g (rearm old new g t)
    let paused := (l.holdOver && pausesAny s d) || l.paused
    let s := if l.holdOver then leadPause d s else s
    let ms := min ((s.now - l.silentAt) / 20480) (2 ^ 31 - 1)
    let s := logEvent Cat.link d 0x09 d (ms + (if paused then 2 ^ 31 else 0)) (s.pinc RECOV_STAT_LEAD_LOSSES)
    bankRow d (s.modLink d fun l => { l with upSilent := false, holdOver := false, paused := false })

/-! Commands. -/

/-- DIE_WATCHDOG_STALL. -/
def execDieWatchdogStall (d : Die) (s : State) : Host.Outcome State Fault Refusal := onDie d.val s (dieStall d.val)
/-- DIE_RECOVERY_START. -/
def execDieRecoveryStart (d : Die) (cause : RecoveryCause) (s : State) : Host.Outcome State Fault Refusal :=
  onDie d.val s (recoveryStart d.val (causeCode cause))
/-- DIE_RECOVERY_DONE. -/
def execDieRecoveryDone (d : Die) (s : State) : Host.Outcome State Fault Refusal := onDie d.val s (recoveryDone d.val)
/-- RECOVERY_TIMEOUT. -/
def execRecoveryTimeout (d : Die) (s : State) : Host.Outcome State Fault Refusal := onDie d.val s (recoveryTimeout d.val)
/-- RECOVERY_STABLE. -/
def execRecoveryStable (d : Die) (s : State) : Host.Outcome State Fault Refusal := onDie d.val s (recoveryStable d.val)
/-- LEAD_HOLD_EXPIRY. -/
def execLeadHoldExpiry (d : Die) (s : State) : Host.Outcome State Fault Refusal := onDie d.val s (leadHold d.val)
/-- PORT_SILENT. -/
def execPortSilent (d : Die) (upstream : Bool) (s : State) : Host.Outcome State Fault Refusal :=
  onDie d.val s (if upstream then portSilentUp d.val else portSilentDown d.val)

end Sys2Proof.Machine
end

