-- ==== Sys2Proof/Machine/Bulk.lean ====
section
/-! DEFINITION. Snapshots (R151 to R153, R160, R161), the bulk windows (R460 to R464) and the words a host read returns
(R3, R10, R25, R411), with the commands SNAP_TAKE, SNAP_ARM, SNAP_DISARM and SNAPSHOT_SCHEDULED. -/

namespace Sys2Proof.Machine

/-! Snapshots. -/

/-- The word at an offset of a die's snapshot slot of a local channel. -/
def slotAddr16 (d c i : Nat) : Nat := dieAddr d (0x100 + 0x20 * c + i)

/-- The status word of a slot: GEN, VALID, RANGE and DIR (R160). -/
def slotStat (gen : Nat) (valid low : Bool) (dir : Nat) : Word :=
  BitVec.ofNat 32 (gen + (if valid then 2 ^ 16 else 0) + (if low then 2 ^ 17 else 0) + dir * 2 ^ 18)

/-- The words of a slot from the boundary copy: the group, then the boundary's own words (R153). -/
def slotWords (s : Device) (d c : Nat) : List Word :=
  let x := s.ch (8 * d + c)
  let raw := (List.range 10).map fun i => groupWord x.bnd (0x20 + i)
  let cal := (List.range 12).map fun i => groupWord x.bnd (0x30 + i)
  raw ++ cal ++ [slotStat (s.pget SNAP_CTL_GEN) true x.bndLow x.bnd.dir.code, BitVec.ofNat 32 s.snap.bFrame,
    BitVec.ofNat 32 s.snap.bAngle, BitVec.ofNat 32 s.snap.bCount]

/-- Words set from an address on. -/
def setWords (f : Nat → Word → Device → Device) (a : Nat) : List Word → Device → Device
  | [], s => s
  | w :: l, s => setWords f (a + 1) l (f a w s)

/-- A die latches its snapshot slots from the boundary copy of the named boundary (R22, R153). -/
def snapLatch (d frame : Nat) (s : Device) : Device :=
  if (s.die d).up && !(s.die d).husk && decide (frame = s.snap.bFrame) then
    s.each (List.range 8) fun c t => setWords (fun a w u => u.setReg a w) (slotAddr16 d c 0) (slotWords s d c) t
  else s

/-- All slots of the latest generation are committed: DONE_GEN (R153). -/
def snapDone (s : Device) : Device :=
  if s.snap.slots = [] then (s.pset SNAP_STAT_DONE_GEN (s.pget SNAP_CTL_GEN)).pset SNAP_STAT_DONE_EVT 1 else s

/-- A die's slots count as committed. -/
def snapCommit (d : Nat) (s : Device) : Device :=
  if s.snap.slots.contains d then
    let l := s.snap.slots.filter fun e => e != d
    snapDone { s with snap := { s.snap with slots := l } }
  else s

/-- The lead die writes a die's slots in the shadow file itself: VALID 0, no values (R153). -/
def snapInvalid (d : Nat) (s : Device) : Device :=
  let l := List.replicate 22 0#32 ++ [slotStat (s.pget SNAP_CTL_GEN) false false 0, BitVec.ofNat 32 s.snap.bFrame,
    BitVec.ofNat 32 s.snap.bAngle, BitVec.ofNat 32 s.snap.bCount]
  let put (a : Nat) (w : Word) (u : Device) : Device := if d = 0 then u.setReg a w else setShd a w u
  let s := s.each (List.range 8) fun c t => setWords put (slotAddr16 d c 0) l t
  snapCommit d (s.pset SNAP_STAT_PARTIAL 1)

/-- A die that can take part in a snapshot. -/
def snapAble (x : DieSt) : Bool := x.up && !x.husk

/-- A snapshot of the latest frame boundary, or a further cause of the one already taken there (R151 to R153). Its
broadcast is stamped 24 clocks on, as that of R307 is (DESIGN CHOICE: R21 asks for 16 or more). -/
def snapNow (bySched : Bool) (s : Device) : Device :=
  let by_ := if bySched then SNAP_STAT_BY_SCHED else SNAP_STAT_BY_TAKE
  if s.snap.last = some s.snap.bFrame then s.pset by_ 1
  else
    let g := (s.pget SNAP_CTL_GEN + 1) % 65536
    let f := s.snap.bFrame
    let s := ((s.pset SNAP_CTL_GEN g).pset SNAP_STAT_BY_TAKE 0).pset SNAP_STAT_BY_SCHED 0
    let s := (s.pset by_ 1).pset SNAP_STAT_PARTIAL 0
    let e := s.now + 24
    let b : Bcast := { kind := .snap, dies := [0], frame := e / 5120, clk := e % 5120, arg := f }
    let s := { s with snap := { s.snap with last := some f, slots := s.dieList }, bcast := s.bcast ++ [b] }
    s.each (s.dieList.filter fun d => !snapAble (s.die d)) snapInvalid

/-- SNAP_CTL.TAKE (R151). -/
def snapTake (s : Device) : Device := if (s.die 0).up then { s with snap := { s.snap with take := true } } else s

/-- SNAP_CTL.ARM: SNAP_AT is resolved to a point (R152). -/
def snapArm (s : Device) : Device :=
  if (s.die 0).up then
    let p := resolveAngle (linePt s) (s.pget SNAP_AT)
    { s with snap := { s.snap with armedPt := some p } }.pset SNAP_CTL_ARMED 1
  else s

/-- SNAP_CTL.DISARM (R152). -/
def snapDisarm (s : Device) : Device :=
  if (s.die 0).up then { s with snap := { s.snap with armedPt := none } }.pset SNAP_CTL_ARMED 0 else s

/-- SNAPSHOT_SCHEDULED: the latest frame boundary is the first at or after the armed point, and the snapshot is its;
REPEAT arms the next cycle's (R60, R152). -/
def snapScheduled (s : Device) : Device :=
  match s.snap.armedPt with
  | none => s
  | some p =>
    if s.snap.bPt < p then s
    else
    let s := snapNow true s
    if s.pbit SNAP_CTL_REPEAT then
      let q := (p / 2 ^ 32 + 1) * 2 ^ 32 + s.pget SNAP_AT
      s.modSnap fun x => { x with armedPt := some q }
    else (s.modSnap fun x => { x with armedPt := none }).pset SNAP_CTL_ARMED 0

/-! Stamped broadcasts (R21 to R23). -/

/-- A broadcast's stamp is the present clock. -/
def bcastDue (s : Device) (b : Bcast) : Bool := b.frame == s.frame && b.clk == s.clk

/-- A broadcast acts on a die at its stamp: the counters, the replica, the slots, or the hand-over stop (R20 to R22, R307).
The lead die's own counters and NCO are the master's. -/
def bcastAct (b : Bcast) (d : Nat) (s : Device) : Device :=
  if !(s.die d).up then s
  else
    match b.kind with
    | .frame => if d = 0 then s else s.modDie d fun x => { x with frame := b.frame, clk := b.clk }
    | .angle =>
      if d = 0 then s
      else
        let n := s.line.nco
        let st := lineState s
        leadReturn (s.die d).nco.pt d (s.modDie d fun x => { x with nco := { n with state := st } })
    | .snap => if d = 0 then snapCommit 0 (snapLatch 0 b.arg s) else snapLatch d b.arg s
    | .sched => if b.arg = 1 then s.each (chansOf d) stopChannel else s

/-- BROADCAST_EXECUTE: the broadcasts of a kind that are stamped for the present clock act on every die that holds them;
none acts at another clock, so those whose stamp has passed are gone (R21). -/
def bcastExecute (k : BcastKind) (s : Device) : Device :=
  let hit (b : Bcast) : Bool := b.kind == k && bcastDue s b
  let l := s.bcast.filter hit
  let rest := s.bcast.filter fun b => !hit b && decide (s.now ≤ b.frame * 5120 + b.clk)
  l.foldl (fun t b => t.each b.dies (bcastAct b)) (s.setBcast rest)

/-- The broadcasts due at the present clock act on a die before a write that takes effect there at the same clock (R23). -/
def bcastFirst (d : Nat) (s : Device) : Device :=
  let hit (b : Bcast) : Bool := bcastDue s b && b.dies.contains d
  let l := s.bcast.filter hit
  let rest := s.bcast.map fun b => if hit b then { b with dies := b.dies.filter fun e => e != d } else b
  if l = [] then s else l.foldl (fun t b => bcastAct b d t) (s.setBcast rest)

/-! The bulk windows. -/

/-- Four bytes as a word, the lowest-addressed in bits [7:0] (R461). -/
def wordOfBytes (l : List Byte) : Word := BitVec.ofNat 32 (ofLe (l.take 4))

/-- The trace record at an index (R460); an empty one reads 0. -/
def traceRecord (x : DieSt) (i : Nat) : List Byte := ((x.trace.find? fun p => p.1 == i).map (·.2)).getD []

/-- A loaded recipe in the RAM at an offset (R463). -/
def recipeImage (r : Recipe) (next : Nat) : List Byte :=
  r.header.take 16 ++ leBytes 4 r.crc.toNat ++ leBytes 2 next ++ zeros 10 ++ r.bytes

/-- The recipe RAM's bytes from an offset on (R463). -/
def recipeRam : Nat → List Recipe → List Byte
  | _, [] => []
  | off, r :: l =>
    let n := off + 32 + r.bytes.length
    recipeImage r (if l = [] then 0xFFFF else n) ++ recipeRam n l

/-- A word of a die's own windows; a die that is absent, down or in husk reads 0 (R461). -/
def dieBulk (s : Device) (d : Nat) (f : DieSt → List Byte) (off : Nat) : Word :=
  if decide (d < s.nDies) && (s.die d).up && !(s.die d).husk then wordOfBytes (slice (f (s.die d)) off 4) else 0

/-- The die whose memory a bulk address shows, none for the lead die's own or for no window. -/
def bulkDie (s : Device) (a : Nat) : Option Nat :=
  if 0x8000 ≤ a ∧ a < 0xC000 then some (s.pget BULK_SEL_TRACE_DIE)
  else if 0xC000 ≤ a ∧ a < 0xD800 then some (s.pget BULK_SEL_RECIPE_DIE)
  else if 0xE000 ≤ a ∧ a < 0xE800 then some ((a - 0xE000) / 256)
  else none

/-- A word of the trace window: a slot outside the span of unread records may hold anything (R462). -/
def traceWord (s : Device) (d off : Nat) : Word :=
  let x := s.die d
  if decide (d < s.nDies) && x.up && !x.husk && (x.trace.find? fun p => p.1 == off / 8).isNone then Config.freeValue (s.free + off)
  else dieBulk s d (fun x => traceRecord x (off / 8)) (off % 8 * 4)

/-- The free values a bulk read may have used are spent. -/
def bulkSpent (s : Device) : Device := s.spend 0x4000

/-- A bulk word (R460). -/
def bulkWord (s : Device) (a : Nat) : Word :=
  match bulkDie s a with
  | some d =>
    if a < 0xC000 then traceWord s d (a - 0x8000)
    else if a < 0xD800 then dieBulk s d (fun x => recipeRam 0 x.recipes) ((a - 0xC000) * 4)
    else dieBulk s d (fun x => x.ckpt) ((a - 0xE000) % 256 * 4)
  | none =>
    if 0xF000 ≤ a ∧ a < 0xF040 then wordOfBytes ((List.range 4).map fun i => bufByte s (4 * (a - 0xF000) + i)) else 0

/-- A word of the pass-through buffer is written (R374, R460). -/
def bufWrite (a : Nat) (w : Word) (s : Device) : Device :=
  s.modNvm fun n => { n with buf := (leBytes 4 w.toNat).zipIdx.foldl (fun b p =>
    let i := 4 * (a - 0xF000) + p.2
    if p.1 = 0 then b.filter fun q => q.1 != i else flashPut i p.1 b) n.buf }

/-! Register reads. -/

/-- The word a host read of an address below 0x8000 returns: no register and an absent die read 0 (R3, R10, R25, R448). -/
def hostWord (s : Device) (a : Nat) : Word :=
  if (rowAt a).isSome && decide (ownerOf a < s.nDies) then shadowWord s a else 0

/-! Commands. -/

/-- SNAP_TAKE. -/
def execSnapTake (s : State) : Host.Outcome State Fault Refusal := onDev s snapTake
/-- SNAP_ARM. -/
def execSnapArm (s : State) : Host.Outcome State Fault Refusal := onDev s snapArm
/-- SNAP_DISARM. -/
def execSnapDisarm (s : State) : Host.Outcome State Fault Refusal := onDev s snapDisarm
/-- SNAPSHOT_SCHEDULED. -/
def execSnapshotScheduled (s : State) : Host.Outcome State Fault Refusal := onDev s snapScheduled

end Sys2Proof.Machine
end

