-- ==== Sys2Proof/Machine/Writes.lean ====
section
/-! DEFINITION. What a written word does at the die that owns it: the fields of R8 are stored, flags of W1C fields clear,
and the words with an effect of their own have it, by the rule of each register. Command bits of one word act in ascending
order (DESIGN CHOICE where no rule orders them). The commands REGISTER_WRITE, BULK_SEL_WRITE, TEST_REQ, TEST_END, CLR_PEAK
and the LEDGER_CTL commands. -/

namespace Sys2Proof.Machine

/-- The mask of a word's W1C fields. -/
def w1cMask (a : Nat) : Word := match rowAt a with | some r => BitVec.ofNat 32 r.w1c | none => 0
/-- Each W1C bit written 1 clears its flag (R8), but one set on the same clock (R417). -/
def clearFlags (a : Nat) (w : Word) (s : Device) : Device :=
  let m := w &&& w1cMask a &&& ~~~ s.freshBits a
  if m = 0 then s else s.setReg a (s.reg a &&& ~~~m)
/-- The RW and RWP fields of a word are stored (R8). -/
def storeWord (a : Nat) (w : Word) (s : Device) : Device := if rwMask a = 0 then s else storeFields (rwMask a) a w s
/-- A bit of a written word. -/
def bitOf (w : Word) (i : Nat) : Bool := w.toNat.testBit i

/-! The ledger's controls (R428, R429). -/

/-- An entry of the advance's own clock that the full ring had dropped is written after it, into the slot that it freed (R428). -/
def afterAdvance (s : Device) : Device :=
  match s.dropped.filter fun p => p.1 == s.now with
  | [] => s
  | p :: l =>
    let n := s.pget LEDGER_DROPPED
    ledgerWrite p.2 ((s.pset LEDGER_DROPPED (if n = 65535 then n else n - 1)).setDropped l)

/-- The read index advances: the oldest entry is read (R428). -/
def ledgerAdvance (s : Device) : Device :=
  let n := s.pget LEDGER_STAT_COUNT
  if n = 0 then s
  else
    let s := (s.pset LEDGER_STAT_COUNT (n - 1)).pset LEDGER_STAT_RD (s.pget LEDGER_STAT_RD + 1)
    afterAdvance ((s.pset LEDGER_STAT_BACK_OK 1).pset LEDGER_STAT_FULL 0)

/-- REREAD: RD moves back by one when BACK_OK is set. -/
def ledgerReread (s : Device) : Device :=
  if s.pbit LEDGER_STAT_BACK_OK then
    let n := s.pget LEDGER_STAT_COUNT + 1
    let s := (s.pset LEDGER_STAT_RD (s.pget LEDGER_STAT_RD + 63)).pset LEDGER_STAT_COUNT n
    (s.pset LEDGER_STAT_BACK_OK 0).pset LEDGER_STAT_FULL (if n = 64 then 1 else 0)
  else s

/-- FLUSH: every entry is marked read. -/
def ledgerFlush (s : Device) : Device :=
  let s := (s.pset LEDGER_STAT_RD (s.pget LEDGER_STAT_WR)).pset LEDGER_STAT_COUNT 0
  (s.pset LEDGER_STAT_BACK_OK 0).pset LEDGER_STAT_FULL 0

/-- CLR_OVF: DROPPED to 0. -/
def ledgerClrOvf (s : Device) : Device := s.pset LEDGER_DROPPED 0

/-- A LEDGER_CTL word with its key. -/
def ledgerCtl (w : Word) (s : Device) : Device :=
  if LEDGER_CTL_KEY.get w = 0xC3 then
    let s := if LEDGER_CTL_REREAD.get w = 1 then ledgerReread s else s
    let s := if LEDGER_CTL_FLUSH.get w = 1 then ledgerFlush s else s
    if LEDGER_CTL_CLR_OVF.get w = 1 then ledgerClrOvf s else s
  else s

/-! The package block. -/

/-- HOST_CTL.TEST_REQ with its key: TEST at the next frame boundary, from QUALIFY or HOLD (R420). -/
def testReq (s : Device) : Device :=
  if pkgState s = Pkg.qualify ∨ pkgState s = Pkg.hold then s.modHost fun h => { h with testDue := true }
  else s.pset HOST_STAT_CMD_REF 1

/-- HOST_CTL.TEST_END with its key, in TEST (R420). -/
def testEnd (s : Device) : Device :=
  if pkgState s = Pkg.test then s.modHost fun h => { h with testEndDue := true } else s.pset HOST_STAT_CMD_REF 1

/-- HOST_CTL: CRC_EN is stored, TEST_REQ and TEST_END act with the key; SOFT acts at the frame's end. -/
def hostCtlWrite (w : Word) (s : Device) : Device :=
  let s := s.pset HOST_CTL_CRC_EN (HOST_CTL_CRC_EN.get w)
  if HOST_CTL_KEY.get w = 0xC3 then
    let s := if HOST_CTL_TEST_REQ.get w = 1 then testReq s else s
    if HOST_CTL_TEST_END.get w = 1 then testEnd s else s
  else s

/-- SNAP_CTL: DISARM acts before ARM (R152). -/
def snapCtlWrite (w : Word) (s : Device) : Device :=
  let s := s.pset SNAP_CTL_REPEAT (SNAP_CTL_REPEAT.get w)
  let s := if SNAP_CTL_TAKE.get w = 1 then snapTake s else s
  let s := if SNAP_CTL_DISARM.get w = 1 then snapDisarm s else s
  if SNAP_CTL_ARM.get w = 1 then snapArm s else s

/-- OTP_CMD with its key (R350); what the cells will show is open. -/
def otpCmdWrite (w : Word) (s : Device) : Device :=
  if OTP_CMD_KEY.get w ≠ 0xC3 then s
  else
    let d := OTP_CMD_DIE.get w
    let a := s.pget OTP_ADDR
    match OTP_CMD_CMD.get w with
    | 1 => otpProgram d a (s.pget OTP_DATA) [] s
    | 2 => otpReinforce d a [] s
    | 3 => otpReadCmd d a s
    | 4 => otpLock d (OTP_CMD_REGION.get w) (OTP_CMD_FORCE.get w == 1) [] s
    | 5 => otpReload d s
    | _ => s

/-- QUEUE_STAT.CLR_PEAK (R446). -/
def clrPeak (w : Word) (s : Device) : Device := if QUEUE_STAT_CLR_PEAK.get w = 1 then s.pset QUEUE_STAT_NVM_PEAK 0 else s

/-- The words of the pulse outputs: offset in the output's four. -/
def plsWrite (n k : Nat) (w : Word) (s : Device) : Device :=
  match k with
  | 0 => plsCfgWrite n false w s
  | 1 => plsCfgWrite n true w s
  | 3 => plsClr n w s
  | _ => s

/-- RUN_CTL: CH, INPUT and NEG are stored, then the commands act (R224). -/
def runCtlWrite (w : Word) (s : Device) : Device := runAbort w (runClose w (runOpen w (storeWord 0x98 w s)))

/-- What a word of the package block does beyond its flags. -/
def pkgEffect (off : Nat) (w : Word) (s : Device) : Device :=
  match off with
  | 0x06 => if bitOf w 16 then s.pset IRQ_SOURCE_MORE 0 else s
  | 0x08 => hostCtlWrite w s
  | 0x0A => snapCtlWrite w s
  | 0x10 => lineCfgWrite .cfg w s
  | 0x11 => lineCfgWrite .plim w s
  | 0x1A => clrRej w s
  | 0x2A => busMonClr w s
  | 0x33 => auxCtlWrite w s
  | 0x37 => thresholdWrite false w s
  | 0x4C => shipEnter w s
  | 0x4D => thresholdWrite true w s
  | 0x60 => vbstCfgWrite w s
  | 0x70 => ptCommand (NVM_PT_CMD_OPCODE.get w) (NVM_PT_CMD_LEN.get w) (NVM_PT_CMD_KEY.get w) (NVM_PT_CMD_GO.get w == 1) s
  | 0x7A => ckptTake w s
  | 0x7D => pinCommand (PIN_CTL_OP.get w) (PIN_CTL_ADDR.get w) (PIN_CTL_KEY.get w) s
  | 0x97 => tallyClr w s
  | 0x98 => runCtlWrite w s
  | 0xB0 => otpCmdWrite w s
  | 0xC8 => releaseAll w s
  | 0xD4 => clrPeak w s
  | _ => if 0x80 ≤ off ∧ off < 0x90 then plsWrite ((off - 0x80) / 4) ((off - 0x80) % 4) w s else storeWord off w s

/-- A word written to the package block; the flags of BUS_STAT clear at the next freeze point (R267). -/
def writePkg (off : Nat) (w : Word) (s : Device) : Device :=
  if off = 0x26 then s.setBusW1c (s.busW1c ||| (w &&& w1cMask 0x26)) else pkgEffect off w (clearFlags off w s)

/-- What the end of the host frame that wrote a word adds: SOFT (R420) and LEDGER_CTL (R429). -/
def frameEndWord (a : Nat) (w : Word) (s : Device) : Device :=
  if a = 0x08 then (if HOST_CTL_SOFT.get w = 1 then hostSoftReset (HOST_CTL_KEY.get w) s else s)
  else if a = 0xA6 then ledgerCtl w s
  else s

/-! A die block. -/

/-- BENCH_REF.MODE: 1 asks for the internal reference, 0 for VREFX while it passes its check. A write that leaves MODE as it was
asks for nothing; MODE back at 0 takes back a switch that still waits (R105). -/
def benchRefWrite (d : Nat) (w : Word) (s : Device) : Device :=
  let was := s.dbit d BENCH_REF_MODE
  let s := storeWord (dieAddr d 0x16) w s
  let x := s.die d
  let on := s.dbit d BENCH_REF_MODE
  if on then s.modDie d fun x => { x with refDue := if x.refInt then none else some true }
  else if was && !on && x.refDue == some true then s.modDie d fun x => { x with refDue := none }
  else if was && !on && x.refInt && !s.dbit d BENCH_REF_VREFX_BAD then s.modDie d fun x => { x with refDue := some false }
  else s

/-- BENCH_CTL: EN is stored, FORCE and QUEUE act on FORCE_CH (R116, R124). -/
def benchCtlWrite (d : Nat) (w : Word) (s : Device) : Device :=
  let s := storeWord (dieAddr d 0x10) w s
  let c := BENCH_CTL_FORCE_CH.get w
  let s := if BENCH_CTL_FORCE.get w = 1 then benchForce d c s else s
  if BENCH_CTL_QUEUE.get w = 1 then benchQueue d c s else s

/-- VALVE_REQ: the request reaches the scheduler; kinds 0 and 3 are none (R282). -/
def valveReqWrite (v : Nat) (w : Word) (s : Device) : Device :=
  let k := VALVE_REQ_KIND.get w
  if k = 1 ∨ k = 2 then valveReq v (k == 1) (VALVE_REQ_NOW.get w == 1) s else s

/-- The words of a valve. -/
def valveWrite (d k i : Nat) (w : Word) (s : Device) : Device :=
  let v := 4 * d + k
  match i with
  | 0 => valveCfgWrite v w s
  | 1 => valveModeWrite v w s
  | 3 => storeWord (dieAddr d (0x20 + 4 * k + 3)) w s
  | _ => s

/-- What a word of a die block does beyond its flags. VALVE_REQ acts at the lead die, and nothing at its own (R282). -/
def dieEffect (d off : Nat) (w : Word) (s : Device) : Device :=
  if off = 0x10 then benchCtlWrite d w s
  else if off = 0x16 then benchRefWrite d w s
  else if 0x20 ≤ off ∧ off < 0x30 then valveWrite d ((off - 0x20) / 4) ((off - 0x20) % 4) w s
  else if 0x30 ≤ off ∧ off < 0x34 then valveCleared (4 * d + (off - 0x30)) s
  else if off = 0x40 then otpSummary s
  else if off = 0x60 then traceRdWrite d w s
  else storeWord (dieAddr d off) w s

/-- A word written to a die block. -/
def writeDie (d off : Nat) (w : Word) (s : Device) : Device := dieEffect d off w (clearFlags (dieAddr d off) w s)

/-! A channel block. -/

/-- CH_CTL: the override fields, then HSTOP (R87, R88). -/
def chCtlWrite (g : Nat) (w : Word) (s : Device) : Device :=
  let s := overrideChange g w s
  if CH_CTL_HSTOP.get w = 1 then protTrip 4 g s else s

/-- CH_SEQ: RECIPE and AUTO are stored, the commands wait for the next frame boundary (R249). -/
def chSeqWrite (g : Nat) (w : Word) (s : Device) : Device :=
  let s := storeWord (chAddr g 0x06) w s
  let cmd (f : Fld .ch) (bit : Nat) (s : Device) : Device := if f.get w = 1 then seqCmd bit g s else s
  cmd CH_SEQ_ABORT 0 (cmd CH_SEQ_SKIP 1 (cmd CH_SEQ_RELEASE 3 (cmd CH_SEQ_HALT 2 (cmd CH_SEQ_START 4 s))))

/-- A constant of a channel by its offset. -/
def kRegAt (off : Nat) : KReg := if off = 0x40 then .kqH else if off = 0x41 then .kqL else if off = 0x42 then .kv else if off = 0x43 then .ke else .kShift
/-- A baseline by its offset. -/
def baseRegAt (off : Nat) : BaseReg := if off = 0x4C then .grefIH else if off = 0x4D then .grefIL else if off = 0x4E then .grefV else .oref

/-- What a word of a channel block does beyond its flags. -/
def chEffect (g off : Nat) (w : Word) (s : Device) : Device :=
  match off with
  | 0x00 => chCtlWrite g w s
  | 0x06 => chSeqWrite g w s
  | 0x08 => setpointWrite g .iset w s
  | 0x09 => setpointWrite g .vset w s
  | 0x0A => setpointWrite g .pset w s
  | 0x14 => pwmWrite g false w s
  | 0x15 => pwmWrite g true w s
  | 0x1F => rangeSelWrite g (bitOf w 0) s
  | 0x2A => accClear g w s
  | 0x3F => calFold w g (calApply w g s)
  | 0x45 => offsetWrite g false w s
  | 0x46 => offsetWrite g true w s
  | 0x47 => tcrCfgWrite g w s
  | 0x48 => let s := storeWord (chAddr g 0x48) w s; calNote 0x48 (s.reg (chAddr g 0x48)) g s
  | 0x50 => acirCtlWrite g w s
  | 0x5D => acirClrWrite g w s
  | _ =>
    if isConst off then constantWrite g (kRegAt off) w s
    else if 0x4C ≤ off ∧ off ≤ 0x4F then baselineWrite g (baseRegAt off) w s
    else storeWord (chAddr g off) w s

/-- A word written to a channel block; CH_FAULT clears by its own rule (R95). -/
def writeCh (g off : Nat) (w : Word) (s : Device) : Device :=
  if off = 0x02 then faultClear g w s else chEffect g off w (clearFlags (chAddr g off) w s)

/-- A word takes effect at the die that owns it (R8, R10). -/
def writeWord (a : Nat) (w : Word) (s : Device) : Device :=
  match locate a with
  | some (.pkg, _, off) => writePkg off w s
  | some (.die, d, off) => writeDie d off w s
  | some (.ch, g, off) => writeCh g off w s
  | none => if 0xF000 ≤ a ∧ a < 0xF040 then bufWrite a w s else s

/-- The address lies in a die's block or in one of its channels' (R448). -/
def dieBlock (a : Nat) : Bool :=
  match locate a with
  | some (.die, _, _) => true
  | some (.ch, _, _) => true
  | _ => false

/-- Die and channel words are not written in LOAD, nor on a die in husk (R417). -/
def writeBarred (a : Nat) (s : Device) : Bool :=
  dieBlock a && (decide (pkgState s ≤ Pkg.load) || (s.die (ownerOf a)).husk)

/-- A write that reaches its die: an absent die has none, and where R417 bars it, a die off among them, it is discarded.
VALVE_REQ acts at the lead die (R282). A broadcast due at the same clock acts on the die before the write (R23). -/
def deliver (a : Nat) (w : Word) (s : Device) : Device :=
  if !decide (ownerOf a < s.nDies) then s
  else if !(s.die (ownerOf a)).up then s.pset HOST_STAT_HUSK_EVT 1
  else
    let s := bcastFirst (ownerOf a) s
    if writeBarred a s then s.pset HOST_STAT_HUSK_EVT 1 else writeWord a w s

/-- The RW and RWP fields of an accepted word for another die show in the shadow file at once (R27). -/
def shadowPost (a : Nat) (w : Word) (s : Device) : Device := setShd a (merge (rwMask a) (shd s a) w) s

/-- The request of a VALVE_REQ word, which the lead die takes (R282). -/
def valveReqOf (a : Nat) (w : Word) (s : Device) : Device :=
  match locate a with
  | some (.die, d, off) =>
    if decide (d < s.nDies) && decide (0x20 ≤ off ∧ off < 0x30) && off % 4 == 2 then valveReqWrite (4 * d + (off - 0x20) / 4) w s else s
  | _ => s

/-! Posted writes (R416). -/

/-- FRAME_ERR. -/
def frameErr (b : Bool) (s : Device) : Device := if b then s.pset HOST_STAT_FRAME_ERR 1 else s

/-- A word that is refused or fails its CRC notes its address when nothing was noted before (R416, R418). -/
def noteRef (a : Nat) (noted : Bool) (s : Device) : Device := if noted then s else s.pset HOST_STAT_REF_ADDR a

/-- A word for another die enters the posting queue, and its RW and RWP fields show in the shadow at once (R27, R416). -/
def postWord (a : Nat) (w : Word) (s : Device) : Device :=
  valveReqOf a w (shadowPost a w (s.modHost fun h => { h with posting := h.posting ++ [(a, w)] }))

/-- The word goes to another present die. -/
def postable (s : Device) (a : Nat) : Bool := decide (0 < ownerOf a ∧ ownerOf a < s.nDies)

/-- A complete word of a WR frame; true when the queue was full and the rest of the frame is refused (R416, R417). A VALVE_REQ
reaches the scheduler in LOAD as well, which refuses it (R285, R289). -/
def writeOne (a : Nat) (w : Word) (s : Device) : Device × Bool :=
  if 0x8000 ≤ a then (if 0xF000 ≤ a ∧ a < 0xF040 then bufWrite a w s else frameErr true s, false)
  else if postable s a then
    if pkgState s ≤ Pkg.load then ((valveReqOf a w s).pset HOST_STAT_HUSK_EVT 1, false)
    else if s.host.posting.length < 16 then (postWord a w s, false)
    else ((noteRef a (s.pbit HOST_STAT_REFUSED) s).pset HOST_STAT_REFUSED 1, true)
  else (deliver a w (valveReqOf a w s), false)

/-! Commands. -/

/-- REGISTER_WRITE: the word shows in the shadow file and takes effect at its die, with what a frame's end adds. A word for a
recovering die is posted and held (R416). -/
def registerWrite (a : Nat) (w : Word) (s : Device) : Device :=
  if (s.die 0).up && (s.die (ownerOf a)).recov.active then (writeOne a w s).1
  else if (s.die 0).up then
    let s := if decide (0 < ownerOf a ∧ ownerOf a < s.nDies) && !writeBarred a s then shadowPost a w s else s
    frameEndWord a w (deliver a w (valveReqOf a w s))
  else s

/-- REGISTER_WRITE. -/
def execRegisterWrite (addr : Addr) (data : Word) (s : State) : Host.Outcome State Fault Refusal :=
  onDev s (registerWrite addr.toNat data)
/-- BULK_SEL_WRITE. -/
def execBulkSelWrite (data : Word) (s : State) : Host.Outcome State Fault Refusal := onDev s (registerWrite 3 data)
/-- TEST_REQ. -/
def execTestReq (key : Byte) (s : State) : Host.Outcome State Fault Refusal :=
  onDev s fun t => if (t.die 0).up ∧ key.toNat = 0xC3 then testReq t else t
/-- TEST_END. -/
def execTestEnd (key : Byte) (s : State) : Host.Outcome State Fault Refusal :=
  onDev s fun t => if (t.die 0).up ∧ key.toNat = 0xC3 then testEnd t else t
/-- LEDGER_REREAD. -/
def execLedgerReread (key : Byte) (s : State) : Host.Outcome State Fault Refusal :=
  onDev s fun t => if (t.die 0).up ∧ key.toNat = 0xC3 then ledgerReread t else t
/-- LEDGER_FLUSH. -/
def execLedgerFlush (key : Byte) (s : State) : Host.Outcome State Fault Refusal :=
  onDev s fun t => if (t.die 0).up ∧ key.toNat = 0xC3 then ledgerFlush t else t
/-- LEDGER_CLR_OVF. -/
def execLedgerClrOvf (key : Byte) (s : State) : Host.Outcome State Fault Refusal :=
  onDev s fun t => if (t.die 0).up ∧ key.toNat = 0xC3 then ledgerClrOvf t else t
/-- CLR_PEAK. -/
def execClrPeak (data : Word) (s : State) : Host.Outcome State Fault Refusal :=
  onDev s fun t => if (t.die 0).up then clrPeak data t else t

end Sys2Proof.Machine
end

