-- ==== Sys2Proof/Machine/Link.lean ====
section
/-! DEFINITION. The culm link: training (R17), cells with their acknowledgement (R18, R19), stamped broadcasts (R20 to
R22), and what each cell carries (R24 to R26, R257, R282, R414, R426, R442), with the commands CELL_*, BROADCAST_EXECUTE
and PORT_TRAINING_DONE. -/

namespace Sys2Proof.Machine

/-! Ports. -/

/-- A cell of the die arrives at the lead die: its port is trained and its transmitters run; the lead die's own words need
no cell. -/
def arrives (s : Device) (d : Nat) : Bool := (s.die 0).up && (d == 0 || ((s.die d).link.trained && !mute (s.die d)))

/-- A cell of the lead die reaches another die. -/
def reaches (s : Device) (d : Nat) : Bool := d != 0 && (s.die 0).up && !mute (s.die 0) && (s.die d).up && (s.die d).link.trained

/-- The lead die has received a valid cell of the port (R34, R35). -/
def heard (d : Nat) (s : Device) : Device :=
  if d = 0 then s
  else
    let at_ := s.now
    s.modLink d fun l => { l with heardAt := some at_, silent := false }

/-- The die has received a valid cell of the lead die (R35). -/
def heardUp (d : Nat) (s : Device) : Device :=
  let at_ := s.now
  s.modLink d fun l => { l with upHeardAt := some at_ }

/-- The address and the word of a register cell. -/
def CellLoad.register : CellLoad → Option (Nat × Word)
  | .word a w => some (a, w)
  | .ask a => some (a, 0)
  | .answer a w => some (a, w)
  | .shadow a w _ => some (a, w)
  | .commit => none
  | .demand _ _ _ _ => none
  | .decision _ => none
  | .reseat _ _ => none
  | .entry _ => none
  | .drops _ => none
  | .record => none

/-- The payload of a cell: a register cell's address in [47:32] and word in [31:0]; of the others open (R18). -/
def Cell.payload (c : Cell) : BitVec 48 :=
  match c.load.register with
  | some (a, w) => BitVec.ofNat 16 a ++ w
  | none => Config.payload c.typ c.seq

/-- Bits [63:8] of a cell: TYPE, FS, SEQ and PAYLOAD (R18). -/
def Cell.head (c : Cell) : BitVec 56 :=
  BitVec.ofNat 4 c.typ ++ (BitVec.ofBool c.fs ++ (BitVec.ofNat 3 c.seq ++ c.payload))

/-- The 64 bits of a cell, the CRC-8 over bits [63:8] in [7:0] (R18). -/
def Cell.bits (c : Cell) : BitVec 64 :=
  c.head ++ BitVec.ofNat 8 (crc8 ((List.range 7).map fun i => c.head.toNat / 2 ^ (48 - 8 * i) % 256))

/-- The word leaves the posting queue. -/
def unpost (a : Nat) (w : Word) (s : Device) : Device := s.modHost fun h => { h with posting := h.posting.erase (a, w) }

/-- The die's slots hold the latest generation, and the shadow file shows every word of them (R153). -/
def slotsHold (s : Device) (d : Nat) : Bool :=
  (s.reg (slotAddr16 d 0 0x16)).toNat % 131072 == s.pget SNAP_CTL_GEN + 65536 &&
    (List.range 8).all fun c => (List.range 0x1A).all fun i => shd s (slotAddr16 d c i) == s.reg (slotAddr16 d c i)

/-- A GROUP cell commits the words the die has staged, its snapshot slots among them (R26, R153, R185). -/
def groupTaken (d : Nat) (s : Device) : Device :=
  let s := groupCell d s
  if slotsHold s d then snapCommit d s else s

/-- The lead die takes a die's oldest staged entry; the die has held it until then (R426). -/
def entryTaken (d : Nat) (e : LedgerEnt) (s : Device) : Device :=
  ledgerPut e (s.modDie d fun x => { x with staging := x.staging.tail })

/-- The lead die counts the entries the die did not hold, and consumes their SEQ numbers (R442). -/
def dropsTaken (d n : Nat) (s : Device) : Device :=
  let s := s.modDie d fun x => { x with stagingDrop := x.stagingDrop - n }
  (s.pset LEDGER_DROPPED (min (s.pget LEDGER_DROPPED + n) 65535)).pset LEDGER_NEXT_SEQ (s.pget LEDGER_NEXT_SEQ + n)

/-- An intact cell has arrived at its receiver and acts (R19). -/
def cellAct (d : Nat) (c : CellLoad) (s : Device) : Device :=
  match c with
  | .word a w => deliver a w (unpost a w s)
  | .ask _ => s
  | .answer a w => s.setBulk (s.reads.erase (d, a)) (s.resps ++ [(a, w)])
  | .shadow a w g => shadowTaken a w g s
  | .commit => groupTaken d s
  | .demand g dem held waiting => leaseTold g dem held waiting s
  | .decision late => if late then leaseLate d s else s
  | .reseat g on => valveSeatReq g on s
  | .entry e => entryTaken d e s
  | .drops n => dropsTaken d n s
  | .record => ckptCell d s

/-- An acknowledged cell is on its way downstream; its SEQ is the port's next, modulo 8, and FS marks the first cell of the
frame, which takes 2 clocks (R18). None is sent while the cell before it of that SEQ is still in flight. -/
def sentDown (d typ : Nat) (c : CellLoad) (s : Device) : Device :=
  let fs := decide (s.clk < 2)
  s.modLink d fun l =>
    if l.wait.any fun x => x.seq == l.seq then l
    else { l with seq := (l.seq + 1) % 8, wait := l.wait ++ [⟨typ, fs, l.seq, c, 0⟩] }
/-- An acknowledged cell is on its way upstream; what the lead die sends itself needs no cell and acts at once. -/
def sentUp (d typ : Nat) (c : CellLoad) (s : Device) : Device :=
  if d = 0 then cellAct 0 c s
  else s.modLink d fun l =>
    if l.upWait.any fun x => x.seq == l.upSeq then l
    else { l with upSeq := (l.upSeq + 1) % 8, upWait := l.upWait ++ [⟨typ, false, l.upSeq, c, 0⟩] }

/-- Cells pass both ways on the port, and both sides have received one. -/
def bothHeard (d : Nat) (s : Device) : Device := heardUp d (heard d s)

/-- An acknowledgement: the cell of that SEQ has arrived intact, and acts. Of a cell downstream and one upstream that wait
with the same SEQ it confirms the one downstream (notes/assumptions/31). -/
def cellAck (d seq : Nat) (s : Device) : Device :=
  if !(reaches s d && arrives s d) then s
  else
    let l := (s.die d).link
    match l.wait.find? fun c => c.seq == seq with
    | some c => cellAct d c.load (bothHeard d (s.modLink d fun l => { l with wait := l.wait.filter fun c => c.seq != seq }))
    | none =>
      match l.upWait.find? fun c => c.seq == seq with
      | some c => cellAct d c.load (bothHeard d (s.modLink d fun l => { l with upWait := l.upWait.filter fun c => c.seq != seq }))
      | none => s

/-- The cells of a list after a NAK of one: its repetition is counted. -/
def nakOne (seq kind : Nat) (l : List Cell) : List Cell :=
  l.map fun c => if c.seq = seq ∧ c.typ = kind then { c with fails := c.fails + 1 } else c

/-- A NAK of an acknowledged cell in flight, which has had no effect: the sender repeats it; after four failed repetitions
of one cell a LINK fault of the port is recorded and the recovery of its die starts (R19, R34). -/
def cellNak (d seq kind : Nat) (s : Device) : Device :=
  if !(reaches s d && arrives s d) then s
  else
    let l := (s.die d).link
    match (l.wait ++ l.upWait).find? fun c => c.seq == seq && c.typ == kind with
    | none => s
    | some c =>
      let s := bothHeard d s
      if 4 ≤ c.fails then recoveryStart d 1 (logEvent Cat.link 0 0x02 d kind s)
      else if l.wait.any fun c => c.seq == seq && c.typ == kind then
        (s.pinc LINK_STAT_RETRY).modLink d fun l => { l with wait := nakOne seq kind l.wait }
      else (s.pinc LINK_STAT_RETRY).modLink d fun l => { l with upWait := nakOne seq kind l.upWait }

/-- The index a die reports in training: the strap it has read (R15, R17). -/
def trainIndex (s : Device) (d : Nat) : Nat := (s.die d).index

/-- A die is held in husk for its index, with a LINK fault (R17). -/
def indexFault (d : Nat) (s : Device) : Device :=
  if (s.die d).link.badIndex then s
  else
    let s := valvesHusk d (s.each (chansOf d) gatesOff)
    let s := s.modDie d fun x => { x with husk := true, link := { x.link with badIndex := true } }
    logEvent Cat.link 0 0x01 d (trainIndex s d) s

/-- Training of port d is complete: the die counts frames as the lead die does, and its index is checked (R17, R20). -/
def trainingDone (d : Nat) (s : Device) : Device :=
  if d = 0 ∨ !(s.die 0).up ∨ !(s.die d).up ∨ (s.die d).link.trained ∨ (s.die d).link.failed then s
  else
    let i := trainIndex s d
    let same := s.dieList.filter fun e => e != d && e != 0 && (s.die e).link.trained && trainIndex s e == i
    let f := s.frame
    let c := s.clk
    let s := s.modDie d fun x => { x with frame := f, clk := c, link := { x.link with trained := true } }
    let s := bothHeard d s
    let s := if i ≠ d ∨ same ≠ [] then indexFault d s else s
    let s := s.each same indexFault
    publishDies (if (s.die d).recov.active then dieReturns d s else shadowRebuild d s)

/-! Broadcasts. -/

/-- A broadcast with a stamp has reached a die; its second copy is ignored (R19, R21). -/
def bcastAdd (k : BcastKind) (d f c : Nat) : List Bcast → List Bcast
  | [] => [{ kind := k, dies := [d], frame := f, clk := c, arg := 0 }]
  | b :: l =>
    if b.kind = k ∧ b.frame = f ∧ b.clk = c then (if b.dies.contains d then b else { b with dies := b.dies ++ [d] }) :: l
    else b :: bcastAdd k d f c l

/-- Both copies of a broadcast fail at a die: it reports the loss with the cell's TYPE (R19). -/
def bcastLost (typ d : Nat) (s : Device) : Device := if reaches s d then logEvent Cat.link d 0x03 d typ s else s

/-- A FRAME, ANGLE or SCHED cell; the lead die issues it at least 16 clocks before its stamp (R21). -/
def cellBcast (k : BcastKind) (typ d f c : Nat) (intact : Bool) (s : Device) : Device :=
  if !intact then bcastLost typ d s
  else if reaches s d then
    let s := heardUp d s
    if s.now + 16 ≤ f * 5120 + c then s.setBcast (bcastAdd k d f c s.bcast) else s
  else s

/-- A SNAP cell: it carries the stamp of the broadcast that names the boundary, which the die joins (R21, R22). -/
def cellSnap (d frame : Nat) (s : Device) : Device :=
  match s.bcast.find? fun b => b.kind == .snap && b.arg == frame with
  | none => s
  | some b =>
    if reaches s d then
      let s := heardUp d s
      if s.now + 16 ≤ b.frame * 5120 + b.clk then s.setBcast (bcastAdd .snap d b.frame b.clk s.bcast) else s
    else s

/-- Both copies of a SNAP broadcast fail: the die reports the loss, and the lead die writes its slots (R19, R153). -/
def snapLost (d frame : Nat) (s : Device) : Device :=
  if reaches s d then
    let s := bcastLost 3 d s
    if s.snap.last = some frame ∧ s.snap.slots.contains d = true then snapInvalid d s else s
  else s

/-! What the cells carry. -/

/-- A cell of a type is in flight downstream, or upstream. -/
def sending (s : Device) (d typ : Nat) : Bool := (s.die d).link.wait.any fun c => c.typ == typ
/-- The same upstream. -/
def sendingUp (s : Device) (d typ : Nat) : Bool := (s.die d).link.upWait.any fun c => c.typ == typ

/-- A die's port is held in husk or its main domain is off, and it is not recovering: what is sent to it is lost (R417). -/
def lostDie (x : DieSt) : Bool := !x.recov.active && (!x.up || x.link.failed)

/-- The step engine's re-seat request on its way (R246): its kind is the phase's, and none waits yet. -/
def reseatRequest (g : Nat) (on : Bool) (s : Device) : Device :=
  let want := if on then (s.ch g).eng.seat == .wantPull else (s.ch g).eng.seat == .wantRelease
  if arrives s (g / 8) && dieRuns (s.die (g / 8)) && engState s g == EngSt.reseat && !(s.ch g).eng.interrupted && want &&
      !(s.vreqs.any fun r => r.seatCh == some g) && !((s.die (g / 8)).link.upWait.any fun c => c.load == .reseat g on) then
    sentUp (g / 8) 5 (.reseat g on) s
  else s

/-- A LEASE cell (R256, R257, R282). -/
def cellLease (m : LeaseMsg) (late : Bool) (s : Device) : Device :=
  match m with
  | .demand g => if arrives s (g.val / 8) then sentUp (g.val / 8) 5 (leaseLoad s g.val) s else s
  | .decision d => if reaches s d.val then sentDown d.val 5 (.decision late) s else s
  | .reseat g on => reseatRequest g.val on s

/-- A WRITE cell carries the oldest word posted for the die; the words for a recovering one wait (R24, R416). The word stays
posted until its cell is acknowledged, and the next one waits for that, so that the words take effect in order. A word for a
die in husk that no cell reaches is discarded (R417). -/
def cellWrite (d : Nat) (s : Device) : Device :=
  match s.host.posting.find? fun p => ownerOf p.1 == d with
  | none => s
  | some p =>
    if (s.die 0).up && lostDie (s.die d) then (unpost p.1 p.2 s).pset HOST_STAT_HUSK_EVT 1
    else if reaches s d && !(s.die d).recov.active && !sending s d 6 then sentDown d 6 (.word p.1 p.2) s
    else s

/-- A READ cell, sent against one of four credits of the port (R414, R441). -/
def cellRead (d a : Nat) (s : Device) : Device :=
  if reaches s d && decide ((s.reads.filter fun p => p.1 == d).length < 4) then
    sentDown d 7 (.ask a) (s.setBulk (s.reads ++ [(d, a)]) s.resps)
  else s

/-- A RESP cell returns the word of the die's oldest READ that has arrived and has no RESP in flight. -/
def cellResp (d : Nat) (s : Device) : Device :=
  match s.reads.find? fun p => p.1 == d && !sendingUp s d 0xA with
  | none => s
  | some p =>
    if arrives s d && !((s.die d).link.wait.any fun c => c.load == .ask p.2) then
      sentUp d 0xA (.answer p.2 (bulkWord s p.2)) (bulkSpent s)
    else s

/-- A SHADOW cell (R25); the lead die's own words are updated on the die. -/
def cellShadow (a : Nat) (s : Device) : Device :=
  let d := ownerOf a
  if decide (d ≠ 0 ∧ d < s.nDies) && arrives s d then sentUp d 8 (.shadow a (liveWord s a) (groupSource s a)) s else s

/-- A GROUP cell (R26). -/
def cellGroup (d : Nat) (s : Device) : Device := if d ≠ 0 ∧ arrives s d = true then sentUp d 9 .commit s else s

/-- A LEDGER cell: the die's drop count, else its oldest staged entry; the die sends one at a time, so that its entries keep
their order (R426, R442). -/
def cellLedger (d : Nat) (s : Device) : Device :=
  if d = 0 ∨ !arrives s d ∨ sendingUp s d 0xB = true then s
  else
    let x := s.die d
    if 0 < x.stagingDrop then sentUp d 0xB (.drops x.stagingDrop) s
    else match x.staging with
      | [] => s
      | e :: _ => sentUp d 0xB (.entry e) s

/-- A CKPT cell: bytes of the record that the die streams while it holds the port (R443). -/
def cellCkpt (d : Nat) (s : Device) : Device :=
  if arrives s d && decide (s.nvm.streaming = some d ∧ s.nvm.cur = some .ckpt) then sentUp d 0xC .record s else s

/-- An IDLE cell in each direction in which the sender's transmitter runs (R18). -/
def cellIdle (d : Nat) (s : Device) : Device :=
  let s := if arrives s d then heard d s else s
  if reaches s d then heardUp d s else s

/-! Commands. -/

/-- CELL_FRAME. -/
def execCellFrame (d : Die) (frame : Nat) (clk : StampClk) (s : State) : Host.Outcome State Fault Refusal :=
  onDie d.val s (cellBcast .frame 1 d.val frame clk.clk clk.intact)
/-- CELL_ANGLE. -/
def execCellAngle (d : Die) (frame : Nat) (clk : StampClk) (s : State) : Host.Outcome State Fault Refusal :=
  onDie d.val s (cellBcast .angle 2 d.val frame clk.clk clk.intact)
/-- CELL_SNAP. -/
def execCellSnap (d : Die) (frame : Nat) (intact : Bool) (s : State) : Host.Outcome State Fault Refusal :=
  onDie d.val s (if intact then cellSnap d.val frame else snapLost d.val frame)
/-- CELL_SCHED. -/
def execCellSched (d : Die) (frame : Nat) (clk : StampClk) (s : State) : Host.Outcome State Fault Refusal :=
  onDie d.val s (cellBcast .sched 4 d.val frame clk.clk clk.intact)
/-- BROADCAST_EXECUTE. -/
def execBroadcastExecute (k : BcastKind) (s : State) : Host.Outcome State Fault Refusal := onDev s (bcastExecute k)
/-- The die a LEASE cell travels to or from. -/
def leaseDie : LeaseMsg → Nat
  | .demand g => g.val / 8
  | .decision d => d.val
  | .reseat g _ => g.val / 8
/-- CELL_LEASE. -/
def execCellLease (m : LeaseMsg) (late : Bool) (s : State) : Host.Outcome State Fault Refusal :=
  onDie (leaseDie m) s (cellLease m late)
/-- CELL_WRITE. -/
def execCellWrite (d : Die) (s : State) : Host.Outcome State Fault Refusal := onDie d.val s (cellWrite d.val)
/-- CELL_READ. -/
def execCellRead (d : Die) (addr : Addr) (s : State) : Host.Outcome State Fault Refusal := onDie d.val s (cellRead d.val addr.toNat)
/-- CELL_RESP. -/
def execCellResp (d : Die) (s : State) : Host.Outcome State Fault Refusal := onDie d.val s (cellResp d.val)
/-- CELL_SHADOW. -/
def execCellShadow (addr : Addr) (s : State) : Host.Outcome State Fault Refusal := onDev s (cellShadow addr.toNat)
/-- CELL_GROUP. -/
def execCellGroup (d : Die) (s : State) : Host.Outcome State Fault Refusal := onDie d.val s (cellGroup d.val)
/-- CELL_LEDGER. -/
def execCellLedger (d : Die) (s : State) : Host.Outcome State Fault Refusal := onDie d.val s (cellLedger d.val)
/-- CELL_CKPT. -/
def execCellCkpt (d : Die) (s : State) : Host.Outcome State Fault Refusal := onDie d.val s (cellCkpt d.val)
/-- CELL_ACK. -/
def execCellAck (d : Die) (seq : BitVec 3) (s : State) : Host.Outcome State Fault Refusal := onDie d.val s (cellAck d.val seq.toNat)
/-- CELL_NAK. -/
def execCellNak (d : Die) (seq : BitVec 3) (kind : BitVec 4) (s : State) : Host.Outcome State Fault Refusal :=
  onDie d.val s (cellNak d.val seq.toNat kind.toNat)
/-- A TRAIN cell of a port that trains shows the strap the die has read (R15, R17): the operand says how the substrate
straps the die. -/
def cellTrain (d index : Nat) (s : Device) : Device :=
  if d ≠ 0 ∧ (s.die d).up = true ∧ (s.die d).link.trained = false then
    { s with straps := s.straps.set d index }.modDie d fun x => { x with index := index }
  else s
/-- CELL_TRAIN: the die reports its index while its port trains (R17). -/
def execCellTrain (d : Die) (index : BitVec 3) (s : State) : Host.Outcome State Fault Refusal :=
  onDie d.val s (cellTrain d.val index.toNat)
/-- CELL_IDLE. -/
def execCellIdle (d : Die) (s : State) : Host.Outcome State Fault Refusal :=
  onDie d.val s (cellIdle d.val)
/-- PORT_TRAINING_DONE. -/
def execPortTrainingDone (d : Die) (s : State) : Host.Outcome State Fault Refusal := onDie d.val s (trainingDone d.val)

end Sys2Proof.Machine
end

