-- ==== Sys2Proof/Machine/Clock.lean ====
section
/-! DEFINITION. One clock of the package (R5, R131, R139, R147 order 1): the line, the tick counters, the decimators, the
frame sums, the bench overlaps, the pulse paths, the ACIR flags and the conditions of R390, with the command ACCUMULATE_CLOCK. -/

namespace Sys2Proof.Machine

/-- The decimators of a channel take their levels (R99, R109). -/
def decimClock (low last : Bool) (ci cv : Int) (c : Chan) : Chan :=
  let f (d : Decim) : Decim := if last then d.latch else d
  { c with di := f (c.di.push (weight low false ci)), dv := f (c.dv.push (weight low true cv)), due := { c.due with closed := false } }

/-- The levels of the modulator pair that carries a channel (R121, R131). -/
def carrierLevel (s : Device) (inp : ClockIn) (g : Nat) : Int :=
  if carried s g then nthI inp.bi (g / 8) else nthI inp.ci g

/-- A channel's accumulation at a clock, with the outputs that follow it (R131, R208). -/
def countClock (inp : ClockIn) (g : Nat) (s : Device) : Device :=
  let a := (s.ch g).acc
  let b := a.clock (ofsI s g) (carrierLevel s inp g) (vHold s g)
  let s := pulseClock g (b.fq - a.fq) (b.fe - a.fe) s
  s.modAcc g fun _ => b

/-- One clock of a channel whose die is up. -/
def chanClock (inp : ClockIn) (last : Bool) (g : Nat) (s : Device) : Device :=
  let low := chLow s g
  let s := if (s.die (g / 8)).seeded then countClock inp g s else s
  let s := s.modCh g (decimClock low last (nthI inp.ci g) (nthI inp.cv g))
  acirNextDue g (acirClock g s)

/-- The bench pair's levels: its decimators and the overlap sums of the visited channel (R109, R119, R122). -/
def benchClock (inp : ClockIn) (last : Bool) (d : Nat) (s : Device) : Device :=
  let g := 8 * d + benchCh s d
  let low := chLow s g
  let p := benchPhase s d
  let bi := nthI inp.bi d
  let bv := nthI inp.bv d
  let f (x : Decim) : Decim := if last then x.latch else x
  let s := s.modBench d fun b => { b with di := f (b.di.push (weight low false bi)), dv := f (b.dv.push (weight low true bv)) }
  if p = 3 ∨ p = 5 then s.modBench d (Bench.count (nthI inp.ci g) (nthI inp.cv g) bi bv) else s

/-- A die's own counters: T advances by 8 ticks, its clock and its replica of the NCO by one clock (R22, R72). -/
def dieClock (d : Nat) (s : Device) : Device :=
  s.modDie d fun x => { x with tick := x.tick + 8, clk := x.clk + 1, nco := if d = 0 then x.nco else x.nco.step }

/-- The last clock of a fast window: the NCO there, and a word to be formed (R109, R170). -/
def winMark (d : Nat) (s : Device) : Device :=
  let n := if d = 0 then s.line.nco else (s.die d).nco
  s.modDie d fun x => { x with winNco := n, fastDue := true }

/-- One clock of a die whose main domain is up. -/
def dieStep (inp : ClockIn) (last : Bool) (d : Nat) (s : Device) : Device :=
  if (s.die d).up then
    let s := if last then winMark d s else s
    dieClock d (benchClock inp last d (s.each (chansOf d) (chanClock inp last)))
  else s

/-- ACCUMULATE_CLOCK. The package clock counts on up to the command FRAME_BOUNDARY. -/
def accumulateClock (inp : ClockIn) (s : Device) : Device :=
  let last := decide (s.clk % 16 = 15)
  let s := s.each s.dieList (dieStep inp last)
  let s := if (s.die 0).up then lineClock s else s
  let s := (s.setTime s.frame (s.clk + 1)).noteRegs
  if (s.die 0).up then lockClock s else s

/-- ACCUMULATE_CLOCK. -/
def execAccumulateClock (inp : ClockIn) (s : State) : Host.Outcome State Fault Refusal := onDev s (accumulateClock inp)

end Sys2Proof.Machine
end

