-- ==== Sys2Proof/Machine/Boundary.lean ====
section
/-! DEFINITION. The frame boundary (R5, R147, R239): the counting, calibration, bench and range work of each channel in the
order of R147, the step engines and demands, and the package's own boundary work, with the command FRAME_BOUNDARY. -/

namespace Sys2Proof.Machine

/-- A die that hears the lead die: its port is trained and not silent (R20, R35). -/
def hears (s : Device) (d : Nat) : Bool := d == 0 || (alive (s.die 0) && (s.die d).link.trained && !(s.die d).link.upSilent)

/-- The frame numbers advance; the boundary clock is clock 0 of the new frame (R5, R22). The FS cell of the frame fixes the
frame number of every die that hears the lead die; another counts on by itself (R20). A die that hears the lead die of a loaded
package keeps a copy of LEAD_HOLD (R446). -/
def frameAdvance (s : Device) : Device :=
  let f := s.frame + 1
  let s := (s.setTime f 0).noteRegs
  s.each s.dieList fun d t =>
    if (t.die d).up then
      let h := hears t d
      let ms := if h && t.pbit IMAGE_STAT_VALID then t.pget FAULT_CFG_LEAD_HOLD else (t.die d).leadMs
      t.modDie d fun x => { x with frame := if h then f else x.frame + 1, clk := 0, leadMs := ms }
    else t

/-- The channels of the dies whose main domain is up. -/
def upChans (s : Device) : List Nat := (s.dieList.filter fun d => (s.die d).up).flatMap chansOf

/-- Those whose accumulation runs (R118, R130). -/
def seededChans (s : Device) : List Nat := (upChans s).filter fun g => (s.die (g / 8)).seeded

/-- The boundary copy of a channel whose accumulation does not run: what its start left, the partial frame of the stop included
(R156). -/
def copyAll (g : Nat) (s : Device) : Device := s.modCh g fun c => { c with bnd := c.acc }

/-- Steps 1 to 3 of R147 for the channels whose accumulation runs (R118, R130); the others only show their counters. -/
def bookAll (s : Device) : Device :=
  let rest := (upChans s).filter fun g => !(s.die (g / 8)).seeded
  (s.each rest copyAll).each (seededChans s) bookFrame

/-- A range change takes effect at this boundary: loops, constants, bench and an open window (R80, R101, R144, R182). -/
def rangeBoundary (g : Nat) (s : Device) : Device :=
  match (s.ch g).due.range with
  | none => s
  | some low =>
    let s := s.modDue g fun x => { x with range := none }
    if chLow s g = low then s
    else
      let s := benchRange g (s.cset g CH_SENSE_RANGE (if low then 1 else 0))
      let s := rangeConsts low g (rescaleLoop low g s)
      if acirState s g = 2 then s.modAcir g fun a => { a with fRange := true } else s

/-- A written TCR_CFG takes effect (R143). -/
def tcrBoundary (g : Nat) (s : Device) : Device := if (s.ch g).due.tcr then tcrWritten g s else s

/-- The settings of an ACIR engine that wait for a boundary. -/
def settingsBoundary (g : Nat) (s : Device) : Device := ((acirBoundary g s).cforce g 0x68).cforce g 0x69

/-- The frame's voltage sum of R331 starts anew. -/
def frameSums (g : Nat) (s : Device) : Device := s.modCh g fun c => { c with vSum := 0, vN := 0 }

/-- TEST is entered or left (R420, R474). At the entry a visit in progress ends and each die's bench calibrates itself; at
the end every channel under override first ramps to REST. -/
def testEntry (s : Device) : Device :=
  let s := stateValves (changeState Pkg.test s)
  s.each (s.dieList.filter fun d => (s.die d).up && !(s.die d).husk) fun d t =>
    let t := if t.dbit d BENCH_STAT_CUSTODY then releaseCarrier (8 * d + benchCh t d) t else t
    setPhase 1 d ((if benchPhase t d = 0 then t else endVisit d t).modBench d fun b => { b with v0 := some t.frame })

/-- A bench whose self-calibration has not ended when TEST does leaves it unfinished. -/
def testVisitEnds (d : Nat) (s : Device) : Device := if benchPhase s d = 1 then endVisit d s else s

/-- TEST_END at a boundary: the ramps, then QUALIFY; a trip still in force acts at the entry (R309). -/
def testLeave (s : Device) : Device :=
  let ovr := (upChans s).filter fun g => s.cbit g CH_CTL_OVR
  let s := s.each ovr (setMode 0)
  if ovr.any fun g => (s.ch g).lp.gl then s
  else
    let s := s.each s.dieList testVisitEnds
    let s := changeState Pkg.qualify (s.modHost fun h => { h with testEndDue := false })
    if s.supply.pfTripped then tripNonRun s else stateValves s

/-- TEST_REQ and TEST_END at a boundary (R420). -/
def testBoundary (s : Device) : Device :=
  let st := pkgState s
  let s :=
    if s.host.testDue then
      let s := s.modHost fun h => { h with testDue := false }
      if st = Pkg.qualify ∨ st = Pkg.hold then testEntry s else s.pset HOST_STAT_CMD_REF 1
    else s
  if s.host.testEndDue then
    if st = Pkg.test then testLeave s else (s.modHost fun h => { h with testEndDue := false }).pset HOST_STAT_CMD_REF 1
  else s

/-- The boundary is noted for snapshots; a TAKE that waits takes its snapshot here (R151). -/
def snapBoundary (s : Device) : Device :=
  let n := s.line.nco
  let f := s.frame % 2 ^ 32
  let s := s.modSnap fun x => { x with
    bFrame := f, bAngle := n.angle, bCount := n.count % 2 ^ 32, bPt := n.pt }
  if s.snap.take then snapNow false (s.modSnap fun x => { x with take := false }) else s

/-- LEDGER sets while unread entries stand (R422). -/
def ledgerBoundary (s : Device) : Device := if s.pget LEDGER_STAT_COUNT = 0 then s else setCat Cat.ledger s

/-- The share that comes before the channels: the line steps, and the outputs close their frame; without a loaded lead die the
channels' dies follow them alone. -/
def leadFirst (s : Device) : Device :=
  let s := if (s.die 0).up then lineBoundary s else s
  if (s.die 0).up && s.pbit IMAGE_STAT_VALID then plsBoundary s.now s else plsWait s

/-- The lead die's own share that comes after the channels. -/
def leadLast (s : Device) : Device :=
  if (s.die 0).up then
    let s := supplyForce (tallyBoundary s)
    shipBoundary (nvmRun (pinBoundary (testBoundary (snapBoundary (ledgerBoundary s)))))
  else s

/-- The lead die's share of the keeper and the store estimate, which takes the ended frame's readings (R303, R306). -/
def leadStore (s : Device) : Device := if (s.die 0).up then storeBoundary (keepBoundary (chargerBoundary s)) else s

/-- The bench's and the reference's share of a die. -/
def dieBoundary (d : Nat) (s : Device) : Device := if (s.die d).up then refBoundary d (benchBoundary d s) else s

/-- What ends a die's boundary: the converter's means, and the enables of every die's glean domain, which the lead die hands on
(R115, R157, R335). -/
def dieLast (d : Nat) (s : Device) : Device :=
  let s := if (s.die d).up then sarBoundary d s else s
  if (s.die 0).up then gleanEnables d s else s

/-- FRAME_BOUNDARY. -/
def frameBoundary (s : Device) : Device :=
  let s := leadFirst (frameAdvance s)
  let s := (bookAll s).each s.dieList precDie
  let s := (s.each (upChans s) trimBoundary).each (upChans s) engineBoundary
  let s := (s.each (upChans s) demandBoundary).each (upChans s) lateBoundary
  let s := s.each s.dieList btBoundary
  let s := s.each (seededChans s) fun g t => constBoundary g (tcrBoundary g t)
  let s := s.each s.dieList dieBoundary
  let s := s.each (upChans s) fun g t => settingsBoundary g (clearBoundary g (rangeBoundary g t))
  let s := leadLast ((leadStore s).each s.dieList dieLast)
  let s := s.each (upChans s) frameSums
  s.each (s.dieList.filter fun d => (s.die d).up) retCommit

/-- FRAME_BOUNDARY. -/
def execFrameBoundary (s : State) : Host.Outcome State Fault Refusal := onDev s frameBoundary

end Sys2Proof.Machine
end

