-- ==== Sys2Proof/Machine/HostPort.lean ====
section
/-! DEFINITION. The host port (R407 to R421): a frame is one command, from the fall of HCS_N to its rise, with the number of
clocks it had. What HMISO shifted out stands in `Device.host`. The commands HOST_RD, HOST_WR, HOST_RDB, HOST_NOP and
HOST_UNKNOWN_COMMAND. -/

namespace Sys2Proof.Machine

/-- The CRC byte of a word: the command byte, the word's address and its data, high bytes first (R418). -/
def wordCrc (cmd a : Nat) (w : Word) : Byte :=
  let n := w.toNat
  BitVec.ofNat 8 (crc8 [cmd, a / 256, a % 256, n / 2 ^ 24, n / 2 ^ 16 % 256, n / 256 % 256, n % 256])

/-- The host port answers: the lead die runs and is not in husk (R31, R438, R474). -/
def answers (s : Device) : Bool :=
  let st := pkgState s
  (s.die 0).up && !mute (s.die 0) && !s.supply.tmode && !s.pins.huskAll &&
    !(st == Pkg.cold || st == Pkg.keep || st == Pkg.ship)

/-- The status byte at the fall of HCS_N (R409). -/
def statusByte (s : Device) : Nat :=
  (if irqLow s then 128 else 0) + (if s.host.posting.length < 16 then 0 else 64) +
    (if s.pbit HOST_STAT_REFUSED then 32 else 0) + (if s.pbit HOST_STAT_CRC_ERR then 16 else 0) + pkgState s

/-- HMISO of a frame: its status byte, words and other bytes. -/
def shiftOut (status : Nat) (words : List Word) (bytes : List Byte) (s : Device) : Device :=
  s.modHost fun h => { h with status := status, miso := words, misoBytes := bytes, answered := true }

/-- A frame to a port that does not answer has no effect. -/
def unanswered (s : Device) : Device := s.modHost fun h => { h with miso := [], misoBytes := [], answered := false }

/-- A frame begins: the status byte is shifted out. -/
def onFrame (f : Device → Device) (s : Device) : Device :=
  if answers s then f (shiftOut (statusByte s) [] [] s) else unanswered s

/-- The clocks of a word with its CRC byte (R410). -/
def wordClocks (s : Device) : Nat := if s.pbit HOST_CTL_CRC_EN then 40 else 32

/-- The words of a frame whose bit 31 was launched, the first one due after `first` clocks. -/
def wordsBegun (first l clocks : Nat) : Nat := if clocks ≤ first then 0 else (clocks - first - 1) / l + 1
/-- The words of a frame of which all 32 bits were shifted. -/
def wordsDone (first l clocks : Nat) : Nat := if clocks < first + 32 then 0 else (clocks - first - 32) / l + 1
/-- The CRC bytes that were shifted whole. -/
def crcsDone (first clocks : Nat) : Nat := (clocks - first) / 40

/-- The address of word k (R411). -/
def wordAddr (a k : Nat) : Nat := (a + k) % 65536

/-- The word an RD frame returns at an address (R411, R413). -/
def rdWord (s : Device) (a : Nat) : Word := if a < 0x8000 then hostWord s a else 0

/-- The words of a frame, and their CRC bytes while CRC_EN is 1 (R418). -/
def sendWords (cmd a first clocks : Nat) (f : Nat → Word) (s : Device) : Device :=
  let l := wordClocks s
  let ws := (List.range (wordsDone first l clocks)).map f
  let cs := if l = 40 then (List.range (crcsDone first clocks)).map fun k => wordCrc cmd (wordAddr a k) (f k) else []
  shiftOut s.host.status ws cs s

/-- The whole of LEDGER_E3 was shifted out with an entry latched: the read index advances at the frame's end (R428). -/
def ledgerRead (a first l clocks : Nat) (s : Device) : Device :=
  if (List.range (wordsDone first l clocks)).any fun k => wordAddr a k == 0xA3 then ledgerAdvance s else s

/-- A frame that reads registers: words from the shadow file, the first one due after `first` clocks. -/
def readFrame (cmd a first clocks : Nat) (s : Device) : Device :=
  let l := wordClocks s
  let n := wordsBegun first l clocks
  let t := sendWords cmd a first clocks (fun k => rdWord s (wordAddr a k)) s
  let t := frameErr ((List.range n).any fun k => decide (0x8000 ≤ wordAddr a k)) t
  ledgerRead a first l clocks t

/-- HOST_RD. -/
def hostRd (a clocks : Nat) (s : Device) : Device := onFrame (fun t => if clocks < 24 then t else readFrame 0x3A a 24 clocks t) s

/-- A bulk word comes from another die over the culm; absent dies and dies in husk are answered at once (R414, R461). -/
def remoteBulk (s : Device) (a : Nat) : Bool :=
  match bulkDie s a with
  | some d => decide (0 < d ∧ d < s.nDies) && (s.die d).up && !(s.die d).husk
  | none => false

/-- The first word that came too late, if the frame ran that far (R414). -/
def lateWord (s : Device) (a n : Nat) (late : Option Nat) : Option Nat :=
  match late with
  | some k => if k < n ∧ remoteBulk s (wordAddr a k) = true then some k else none
  | none => none

/-- A word of a bulk frame; an address that wraps below the bulk space has no word the manual states (R411). -/
def rdbWord (s : Device) (a : Nat) (late : Option Nat) (k : Nat) : Word :=
  let b := wordAddr a k
  if late.any fun j => decide (j ≤ k) then 0
  else if b < 0x8000 then Config.freeValue (s.free + 0x4000 + b) else bulkWord s b

/-- A bulk read after its dummy word (R410, R414). The frame's READ and RESP traffic ends with it. -/
def bulkFrame (a clocks : Nat) (late : Option Nat) (s : Device) : Device :=
  let n := wordsBegun 56 (wordClocks s) clocks
  let lt := lateWord s a n late
  let t := sendWords 0x3B a 56 clocks (rdbWord s a lt) s
  let t := if lt.isSome then t.pset HOST_STAT_UNDERRUN 1 else t
  (t.setBulk [] []).spend 0xC000

/-- HOST_RDB: below the bulk space it is an RD frame with one dummy word (R411). -/
def hostRdb (a clocks : Nat) (late : Option Nat) (s : Device) : Device :=
  onFrame (fun t =>
    if clocks < 24 then t
    else if a < 0x8000 then frameErr true (readFrame 0x3B a 56 clocks t)
    else bulkFrame a clocks late t) s

/-! Writes. -/

/-- The words of a WR frame in order, with the words that were completed and accepted: a failed CRC byte discards the
rest, a refusal refuses the rest (R416, R418). -/
def writeWords (crc : Bool) (a : Nat) : List (Word × Byte) → Device → Device × List (Nat × Word)
  | [], s => (s, [])
  | (w, c) :: l, s =>
    if crc && wordCrc 0x5C a w != c then
      ((noteRef a (s.pbit HOST_STAT_REFUSED || s.pbit HOST_STAT_CRC_ERR) s).pset HOST_STAT_CRC_ERR 1, [])
    else
      let (t, full) := writeOne a w s
      if full then (t, [])
      else
        let (t, done) := writeWords crc (wordAddr a 1) l t
        (t, (a, w) :: done)

/-- The words of a WR frame and what its end adds; an incomplete word is discarded (R412, R420, R429). -/
def writeFrame (a : Nat) (data : List (Word × Byte)) (clocks : Nat) (s : Device) : Device :=
  let l := wordClocks s
  let (t, done) := writeWords (l == 40) a (data.take ((clocks - 24) / l)) s
  let t := frameErr ((clocks - 24) % l != 0) t
  done.foldl (fun u p => frameEndWord p.1 p.2 u) t

/-- HOST_WR. -/
def hostWr (a : Nat) (data : List (Word × Byte)) (clocks : Nat) (s : Device) : Device :=
  onFrame (fun t => if clocks < 24 then t else writeFrame a data clocks t) s

/-! Frames without words. -/

/-- HOST_NOP with a number of bytes after the command byte: each is the status byte (R410). -/
def hostNop (bytes : Nat) (s : Device) : Device :=
  onFrame (fun t => shiftOut t.host.status [] (List.replicate bytes (BitVec.ofNat 8 t.host.status)) t) s

/-- The command byte names no frame (R408). -/
def unknownCmd (cmd : Nat) : Bool := cmd != 0x3A && cmd != 0x5C && cmd != 0x3B && cmd != 0

/-- HOST_UNKNOWN_COMMAND (R412). -/
def hostUnknown (cmd : Nat) (s : Device) : Device := onFrame (frameErr (unknownCmd cmd)) s

/-- HOST_RD. -/
def execHostRd (addr : Addr) (clocks : Nat) (s : State) : Host.Outcome State Fault Refusal := onDev s (hostRd addr.toNat clocks)
/-- HOST_WR. -/
def execHostWr (addr : Addr) (data : List (Word × Byte)) (clocks : Nat) (s : State) : Host.Outcome State Fault Refusal :=
  onDev s (hostWr addr.toNat data clocks)
/-- HOST_RDB. -/
def execHostRdb (addr : Addr) (clocks : Nat) (late : Option Nat) (s : State) : Host.Outcome State Fault Refusal :=
  onDev s (hostRdb addr.toNat clocks late)
/-- HOST_NOP. -/
def execHostNop (bytes : Nat) (s : State) : Host.Outcome State Fault Refusal := onDev s (hostNop bytes)
/-- HOST_UNKNOWN_COMMAND. -/
def execHostUnknownCommand (cmd : Byte) (s : State) : Host.Outcome State Fault Refusal := onDev s (hostUnknown cmd.toNat)

end Sys2Proof.Machine
end

