-- ==== Sys2Proof/Machine/Dispatch.lean ====
section
/-! DEFINITION. The dispatch of the commands: one arm for each constructor of Instr. -/

namespace Sys2Proof.Machine

/-- The effect of a command on everything but the queue. -/
def exec (i : Instr) (s : State) : Host.Outcome State Fault Refusal :=
  match i with
  | .hostRd addr clocks => Sys2Proof.Machine.execHostRd addr clocks s
  | .hostWr addr data clocks => Sys2Proof.Machine.execHostWr addr data clocks s
  | .hostRdb addr clocks late => Sys2Proof.Machine.execHostRdb addr clocks late s
  | .hostNop bytes => Sys2Proof.Machine.execHostNop bytes s
  | .hostUnknownCommand cmd => Sys2Proof.Machine.execHostUnknownCommand cmd s
  | .registerWrite addr data => Sys2Proof.Machine.execRegisterWrite addr data s
  | .hostSoftReset key => Sys2Proof.Machine.execHostSoftReset key s
  | .testReq key => Sys2Proof.Machine.execTestReq key s
  | .testEnd key => Sys2Proof.Machine.execTestEnd key s
  | .bulkSelWrite data => Sys2Proof.Machine.execBulkSelWrite data s
  | .snapTake => Sys2Proof.Machine.execSnapTake s
  | .snapArm => Sys2Proof.Machine.execSnapArm s
  | .snapDisarm => Sys2Proof.Machine.execSnapDisarm s
  | .snapshotScheduled => Sys2Proof.Machine.execSnapshotScheduled s
  | .lsyncEdge tick run rising => Sys2Proof.Machine.execLsyncEdge tick run rising s
  | .lineTimeout => Sys2Proof.Machine.execLineTimeout s
  | .lineCfgWrite r data => Sys2Proof.Machine.execLineCfgWrite r data s
  | .clrRej data => Sys2Proof.Machine.execClrRej data s
  | .accumulateClock inp => Sys2Proof.Machine.execAccumulateClock inp s
  | .frameBoundary => Sys2Proof.Machine.execFrameBoundary s
  | .accClear g data => Sys2Proof.Machine.execAccClear g data s
  | .tcrUpdate => Sys2Proof.Machine.execTcrUpdate s
  | .tcrCfgWrite g data => Sys2Proof.Machine.execTcrCfgWrite g data s
  | .constantWrite g r data => Sys2Proof.Machine.execConstantWrite g r data s
  | .offsetWrite g volt data => Sys2Proof.Machine.execOffsetWrite g volt data s
  | .baselineWrite g r data => Sys2Proof.Machine.execBaselineWrite g r data s
  | .switchingPeriod g bootLow => Sys2Proof.Machine.execSwitchingPeriod g bootLow s
  | .fastSample vf => Sys2Proof.Machine.execFastSample vf s
  | .complianceClamp g upper => Sys2Proof.Machine.execComplianceClamp g upper s
  | .ocpTrip g => Sys2Proof.Machine.execOcpTrip g s
  | .ovpTrip g => Sys2Proof.Machine.execOvpTrip g s
  | .rvpTrip g => Sys2Proof.Machine.execRvpTrip g s
  | .hstop g => Sys2Proof.Machine.execHstop g s
  | .vdrvUv d => Sys2Proof.Machine.execVdrvUv d s
  | .vdrvRecover d => Sys2Proof.Machine.execVdrvRecover d s
  | .busOv d => Sys2Proof.Machine.execBusOv d s
  | .busOvClear d => Sys2Proof.Machine.execBusOvClear d s
  | .pwmWrite g dt data => Sys2Proof.Machine.execPwmWrite g dt data s
  | .setpointWrite g r data => Sys2Proof.Machine.execSetpointWrite g r data s
  | .overrideChange g data => Sys2Proof.Machine.execOverrideChange g data s
  | .rangeSelWrite g low => Sys2Proof.Machine.execRangeSelWrite g low s
  | .uprange g => Sys2Proof.Machine.execUprange g s
  | .overloadDetect g volt => Sys2Proof.Machine.execOverloadDetect g volt s
  | .sarConversion d code => Sys2Proof.Machine.execSarConversion d code s
  | .vrefxFailSwitch d => Sys2Proof.Machine.execVrefxFailSwitch d s
  | .vrefxReturnSwitch d => Sys2Proof.Machine.execVrefxReturnSwitch d s
  | .sarFail d => Sys2Proof.Machine.execSarFail d s
  | .seedingEnd d seeds => Sys2Proof.Machine.execSeedingEnd d seeds s
  | .benchVisitStart d => Sys2Proof.Machine.execBenchVisitStart d s
  | .benchSelfcalEnd d res => Sys2Proof.Machine.execBenchSelfcalEnd d res s
  | .benchConnect d => Sys2Proof.Machine.execBenchConnect d s
  | .benchTakeover d => Sys2Proof.Machine.execBenchTakeover d s
  | .benchHandback d res => Sys2Proof.Machine.execBenchHandback d res s
  | .benchAbort d cause => Sys2Proof.Machine.execBenchAbort d cause s
  | .benchForce d c => Sys2Proof.Machine.execBenchForce d c s
  | .benchQueue d c => Sys2Proof.Machine.execBenchQueue d c s
  | .calApply g data => Sys2Proof.Machine.execCalApply g data s
  | .calFold g data => Sys2Proof.Machine.execCalFold g data s
  | .plsCfgWrite n k data => Sys2Proof.Machine.execPlsCfgWrite n k data s
  | .plsClr n data => Sys2Proof.Machine.execPlsClr n data s
  | .pulseEmit n => Sys2Proof.Machine.execPulseEmit n s
  | .pulseEnd n => Sys2Proof.Machine.execPulseEnd n s
  | .ratePulseDue n => Sys2Proof.Machine.execRatePulseDue n s
  | .tallyEdge inB level => Sys2Proof.Machine.execTallyEdge inB level s
  | .tallyClr data => Sys2Proof.Machine.execTallyClr data s
  | .runOpen data => Sys2Proof.Machine.execRunOpen data s
  | .runClose data => Sys2Proof.Machine.execRunClose data s
  | .runAbort data => Sys2Proof.Machine.execRunAbort data s
  | .acirStart g data => Sys2Proof.Machine.execAcirStart g data s
  | .acirAbortCmd g => Sys2Proof.Machine.execAcirAbortCmd g s
  | .acirLeadinStart g => Sys2Proof.Machine.execAcirLeadinStart g s
  | .acirWindowOpen g => Sys2Proof.Machine.execAcirWindowOpen g s
  | .acirWindowClose g => Sys2Proof.Machine.execAcirWindowClose g s
  | .acirEnvelopeZero g => Sys2Proof.Machine.execAcirEnvelopeZero g s
  | .acirWindowAbort g code => Sys2Proof.Machine.execAcirWindowAbort g code s
  | .acirClr g data => Sys2Proof.Machine.execAcirClr g data s
  | .stepStart g => Sys2Proof.Machine.execStepStart g s
  | .reseatOffExpiry g => Sys2Proof.Machine.execReseatOffExpiry g s
  | .reseatSettleExpiry g => Sys2Proof.Machine.execReseatSettleExpiry g s
  | .pulseLevelChange g => Sys2Proof.Machine.execPulseLevelChange g s
  | .pulseCapture g k => Sys2Proof.Machine.execPulseCapture g k s
  | .ocvSample g => Sys2Proof.Machine.execOcvSample g s
  | .seqStart g => Sys2Proof.Machine.execSeqStart g s
  | .seqHalt g => Sys2Proof.Machine.execSeqHalt g s
  | .seqRelease g => Sys2Proof.Machine.execSeqRelease g s
  | .seqSkip g => Sys2Proof.Machine.execSeqSkip g s
  | .seqAbort g => Sys2Proof.Machine.execSeqAbort g s
  | .traceRdWrite d data => Sys2Proof.Machine.execTraceRdWrite d data s
  | .freezePoint slot => Sys2Proof.Machine.execFreezePoint slot s
  | .leaseDecision d => Sys2Proof.Machine.execLeaseDecision d s
  | .fitSet => Sys2Proof.Machine.execFitSet s
  | .busMonClr data => Sys2Proof.Machine.execBusMonClr data s
  | .valveReqOn v now => Sys2Proof.Machine.execValveReqOn v now s
  | .valveReqOff v now => Sys2Proof.Machine.execValveReqOff v now s
  | .valveEvent v on => Sys2Proof.Machine.execValveEvent v on s
  | .pullInStart v => Sys2Proof.Machine.execPullInStart v s
  | .valveSlipLimit v => Sys2Proof.Machine.execValveSlipLimit v s
  | .pullEnd d => Sys2Proof.Machine.execPullEnd d s
  | .dropToHold v => Sys2Proof.Machine.execDropToHold v s
  | .releaseToOff v => Sys2Proof.Machine.execReleaseToOff v s
  | .chopPeriod v imeas => Sys2Proof.Machine.execChopPeriod v imeas s
  | .valveOpen v => Sys2Proof.Machine.execValveOpen v s
  | .valveShort v => Sys2Proof.Machine.execValveShort v s
  | .valveSlow v => Sys2Proof.Machine.execValveSlow v s
  | .clampOt d => Sys2Proof.Machine.execClampOt d s
  | .storeRelease => Sys2Proof.Machine.execStoreRelease s
  | .boostOv => Sys2Proof.Machine.execBoostOv s
  | .valveBatonExpiry b => Sys2Proof.Machine.execValveBatonExpiry b s
  | .powerFailTrip own => Sys2Proof.Machine.execPowerFailTrip own s
  | .pfTripNonRun => Sys2Proof.Machine.execPfTripNonRun s
  | .localPfTrip d => Sys2Proof.Machine.execLocalPfTrip d s
  | .handoverComplete => Sys2Proof.Machine.execHandoverComplete s
  | .vbusGood => Sys2Proof.Machine.execVbusGood s
  | .vbusNotGood => Sys2Proof.Machine.execVbusNotGood s
  | .thresholdWrite ho data => Sys2Proof.Machine.execThresholdWrite ho data s
  | .qualifyPass => Sys2Proof.Machine.execQualifyPass s
  | .lockWaitTimeout => Sys2Proof.Machine.execLockWaitTimeout s
  | .holdStoreLow => Sys2Proof.Machine.execHoldStoreLow s
  | .holdMaxExpiry => Sys2Proof.Machine.execHoldMaxExpiry s
  | .vsysCollapse => Sys2Proof.Machine.execVsysCollapse s
  | .auxSeqOn => Sys2Proof.Machine.execAuxSeqOn s
  | .auxSeqOff => Sys2Proof.Machine.execAuxSeqOff s
  | .auxOnWrite data => Sys2Proof.Machine.execAuxOnWrite data s
  | .auxSeqDelayExpiry => Sys2Proof.Machine.execAuxSeqDelayExpiry s
  | .auxUv r => Sys2Proof.Machine.execAuxUv r s
  | .keeperPresent => Sys2Proof.Machine.execKeeperPresent s
  | .chargerStateChange ikeep => Sys2Proof.Machine.execChargerStateChange ikeep s
  | .chargerTimeout => Sys2Proof.Machine.execChargerTimeout s
  | .keeperRemoved => Sys2Proof.Machine.execKeeperRemoved s
  | .supplement on => Sys2Proof.Machine.execSupplement on s
  | .shipEnter data => Sys2Proof.Machine.execShipEnter data s
  | .shipWakeN lowMs => Sys2Proof.Machine.execShipWakeN lowMs s
  | .shipVbusWake => Sys2Proof.Machine.execShipVbusWake s
  | .gleanSourceEvaluation d obs => Sys2Proof.Machine.execGleanSourceEvaluation d obs s
  | .gleanForcedEvaluation d obs => Sys2Proof.Machine.execGleanForcedEvaluation d obs s
  | .pumpTransfer d => Sys2Proof.Machine.execPumpTransfer d s
  | .keepGoodFall d => Sys2Proof.Machine.execKeepGoodFall d s
  | .keepGoodRise d => Sys2Proof.Machine.execKeepGoodRise d s
  | .rcTrim err => Sys2Proof.Machine.execRcTrim err s
  | .retentionCommit d => Sys2Proof.Machine.execRetentionCommit d s
  | .gleanBooking d => Sys2Proof.Machine.execGleanBooking d s
  | .otpProgram d addr data reads => Sys2Proof.Machine.execOtpProgram d addr data reads s
  | .otpReinforce d addr reads => Sys2Proof.Machine.execOtpReinforce d addr reads s
  | .otpRead d addr => Sys2Proof.Machine.execOtpRead d addr s
  | .otpLock d region force reads => Sys2Proof.Machine.execOtpLock d region force reads s
  | .otpReload => Sys2Proof.Machine.execOtpReload s
  | .otpPumpExpiry => Sys2Proof.Machine.execOtpPumpExpiry s
  | .otpCommandDone => Sys2Proof.Machine.execOtpCommandDone s
  | .imageLoad => Sys2Proof.Machine.execImageLoad s
  | .sectionFetch d => Sys2Proof.Machine.execSectionFetch d s
  | .ptRead len key => Sys2Proof.Machine.execPtRead len key s
  | .ptFastRead len key => Sys2Proof.Machine.execPtFastRead len key s
  | .ptPageProgram len key => Sys2Proof.Machine.execPtPageProgram len key s
  | .ptSectorErase key => Sys2Proof.Machine.execPtSectorErase key s
  | .ptReadStatus key => Sys2Proof.Machine.execPtReadStatus key s
  | .ptReadId key => Sys2Proof.Machine.execPtReadId key s
  | .ptReset second key => Sys2Proof.Machine.execPtReset second key s
  | .flashOpComplete sr => Sys2Proof.Machine.execFlashOpComplete sr s
  | .nvmTimeout wel => Sys2Proof.Machine.execNvmTimeout wel s
  | .nvmBatonExpiry => Sys2Proof.Machine.execNvmBatonExpiry s
  | .ckptTake data => Sys2Proof.Machine.execCkptTake data s
  | .checkpointBoundary => Sys2Proof.Machine.execCheckpointBoundary s
  | .checkpointDone => Sys2Proof.Machine.execCheckpointDone s
  | .spareRestore => Sys2Proof.Machine.execSpareRestore s
  | .pinReg addr key => Sys2Proof.Machine.execPinReg addr key s
  | .unpinReg addr key => Sys2Proof.Machine.execUnpinReg addr key s
  | .pinChset addr key => Sys2Proof.Machine.execPinChset addr key s
  | .pinCommit key => Sys2Proof.Machine.execPinCommit key s
  | .pinDiscard key => Sys2Proof.Machine.execPinDiscard key s
  | .coldPowerOn => Sys2Proof.Machine.execColdPowerOn s
  | .warmStart => Sys2Proof.Machine.execWarmStart s
  | .resetNLow => Sys2Proof.Machine.execResetNLow s
  | .resetNRise => Sys2Proof.Machine.execResetNRise s
  | .mainDomainStart tmode => Sys2Proof.Machine.execMainDomainStart tmode s
  | .loadEnd => Sys2Proof.Machine.execLoadEnd s
  | .releaseAll data => Sys2Proof.Machine.execReleaseAll data s
  | .cellFrame d frame clk => Sys2Proof.Machine.execCellFrame d frame clk s
  | .cellAngle d frame clk => Sys2Proof.Machine.execCellAngle d frame clk s
  | .cellSnap d frame intact => Sys2Proof.Machine.execCellSnap d frame intact s
  | .cellSched d frame clk => Sys2Proof.Machine.execCellSched d frame clk s
  | .broadcastExecute k => Sys2Proof.Machine.execBroadcastExecute k s
  | .cellLease m late => Sys2Proof.Machine.execCellLease m late s
  | .cellWrite d => Sys2Proof.Machine.execCellWrite d s
  | .cellRead d addr => Sys2Proof.Machine.execCellRead d addr s
  | .cellResp d => Sys2Proof.Machine.execCellResp d s
  | .cellShadow addr => Sys2Proof.Machine.execCellShadow addr s
  | .cellGroup d => Sys2Proof.Machine.execCellGroup d s
  | .cellLedger d => Sys2Proof.Machine.execCellLedger d s
  | .cellCkpt d => Sys2Proof.Machine.execCellCkpt d s
  | .cellAck d seq => Sys2Proof.Machine.execCellAck d seq s
  | .cellNak d seq kind => Sys2Proof.Machine.execCellNak d seq kind s
  | .cellTrain d index => Sys2Proof.Machine.execCellTrain d index s
  | .cellIdle d => Sys2Proof.Machine.execCellIdle d s
  | .portTrainingDone d => Sys2Proof.Machine.execPortTrainingDone d s
  | .portSilent d upstream => Sys2Proof.Machine.execPortSilent d upstream s
  | .dieWatchdogStall d => Sys2Proof.Machine.execDieWatchdogStall d s
  | .pkgWatchdogExpiry => Sys2Proof.Machine.execPkgWatchdogExpiry s
  | .dieRecoveryStart d cause => Sys2Proof.Machine.execDieRecoveryStart d cause s
  | .dieRecoveryDone d => Sys2Proof.Machine.execDieRecoveryDone d s
  | .recoveryTimeout d => Sys2Proof.Machine.execRecoveryTimeout d s
  | .recoveryStable d => Sys2Proof.Machine.execRecoveryStable d s
  | .leadHoldExpiry d => Sys2Proof.Machine.execLeadHoldExpiry d s
  | .ledgerReread key => Sys2Proof.Machine.execLedgerReread key s
  | .ledgerFlush key => Sys2Proof.Machine.execLedgerFlush key s
  | .ledgerClrOvf key => Sys2Proof.Machine.execLedgerClrOvf key s
  | .clrPeak data => Sys2Proof.Machine.execClrPeak data s
  | .pfReadyAgain => Sys2Proof.Machine.execPfReadyAgain s
  | .vbusBelowRise => Sys2Proof.Machine.execVbusBelowRise s
  | .clampOtClear d => Sys2Proof.Machine.execClampOtClear d s
  | .benchBatonExpiry d => Sys2Proof.Machine.execBenchBatonExpiry d s

end Sys2Proof.Machine
end

