-- ==== Sys2Proof/Safety.lean ====
section
/-! DEFINITION. What a state that the part can be in looks like, in the terms the claims use: the register files and the
stored bytes in their canonical form, the part's size a size of R1, the ledger a ring of 64 entries (R425) and the posting
queue at most 16 words (R416). A safe run meets only such states and never stops. -/

namespace Sys2Proof.Machine

/-- Bytes listed canonically: addresses strictly rising, no entry at the value of an unlisted byte. -/
def bytesWf (e : Byte) (l : List (Nat × Byte)) : Prop :=
  l.Pairwise (fun p q => p.1 < q.1) ∧ ∀ p ∈ l, p.2 ≠ e

/-- The device's data in canonical form and within the sizes the manual gives; the part has n dies (R1). -/
structure Device.Canonical (s : Device) (n : Nat) : Prop where
  regs : rfWf s.regs = true
  shadow : rfWf s.shadow = true
  force : rfWf s.force = true
  flash : bytesWf 0xFF#8 s.nvm.flash
  buf : bytesWf 0#8 s.nvm.buf
  size : s.nDies = n
  chans : s.chans.length = 64
  dies : s.dies.length = 8
  ring : s.ledger.length = 64
  posting : s.host.posting.length ≤ 16

/-- A state claims start from: canonical data, and a part of the family (R1). -/
structure Sound (s : State) : Prop where
  canonical : s.dev.Canonical s.dev.nDies
  size : s.dev.nDies = 2 ∨ s.dev.nDies = 4 ∨ s.dev.nDies = 8

/-- The command completes: it answers the state with the same queue and a device of which P holds. -/
def Does (i : Instr) (s : State) (P : Device → Prop) : Prop := ∃ t, exec i s = .next { s with dev := t } ∧ P t

/-- Nothing differs but register words at the addresses rs. -/
def RegsOnly (rs : Nat → Prop) (s t : Device) : Prop := t = { s with regs := t.regs } ∧ ∀ a, ¬ rs a → t.reg a = s.reg a

/-- Nothing differs but one channel and register words at the addresses rs. -/
def ChanOnly (g : Nat) (rs : Nat → Prop) (s t : Device) : Prop :=
  t = { s with regs := t.regs, chans := t.chans } ∧ (∀ h, h ≠ g → t.ch h = s.ch h) ∧ ∀ a, ¬ rs a → t.reg a = s.reg a

/-- Nothing differs but one die's own state and register words at the addresses rs. -/
def DieOnly (d : Nat) (rs : Nat → Prop) (s t : Device) : Prop :=
  t = { s with regs := t.regs, dies := t.dies } ∧ (∀ e, e ≠ d → t.die e = s.die e) ∧ ∀ a, ¬ rs a → t.reg a = s.reg a

/-- The words an event writes on the lead die: IRQ_STATUS, IRQ_SOURCE and the ledger's (R422 to R426). -/
def eventWords : List Nat := [0x004, 0x006, 0x0A4, 0x0A5]

/-- The words the events of a channel and of its lease write on the lead die: those of every event, BUS_STAT and
BUS_PAUSE_LAST (R269). -/
def leadWords : List Nat := [0x004, 0x006, 0x026, 0x02B, 0x0A4, 0x0A5]

/-- The words of the arbiter's maps, one bit a channel (R269). -/
def mapWords : List Nat := [0x02C, 0x02D, 0x02E, 0x02F]

/-- Nothing differs outside channel g, but for what its events leave: the words and entries of the ledger, BUS_STAT,
BUS_PAUSE_LAST, and on its die the staged entries, the trace buffer, the die's own words and the bench; of the arbiter's
maps its own bits may differ. -/
structure OnlyChannel (g : Nat) (s t : Device) : Prop where
  chans : ∀ h, h ≠ g → t.ch h = s.ch h
  words : ∀ h off, h ≠ g → off < 128 → t.reg (chAddr h off) = s.reg (chAddr h off)
  force : ∀ h off, h ≠ g → off < 128 → t.frc (chAddr h off) = s.frc (chAddr h off)
  dieWords : ∀ d off, d < 8 → d ≠ g / 8 → off < 512 → t.reg (dieAddr d off) = s.reg (dieAddr d off)
  pkgWords : ∀ a, a < 0x2000 → a ∉ leadWords → a ∉ mapWords → t.reg a = s.reg a
  maps : ∀ a ∈ mapWords, ∀ i, i ≠ g % 32 → (t.reg a).toNat.testBit i = (s.reg a).toNat.testBit i
  dies : ∀ d, d ≠ g / 8 → t.die d = s.die d
  own : ∃ x : DieSt, t.die (g / 8) = { s.die (g / 8) with
    staging := x.staging, stagingDrop := x.stagingDrop, trace := x.trace, traceSeq := x.traceSeq, bench := x.bench }
  rest : t = { s with
    regs := t.regs, force := t.force, chans := t.chans, dies := t.dies, irqAt := t.irqAt, ledger := t.ledger
    dropped := t.dropped, free := t.free }

/-- The channel a command is for: the commands whose effect is one channel's. -/
def chanOf : Instr → Option Ch
  | .accClear g _ | .tcrCfgWrite g _ | .constantWrite g _ _ | .offsetWrite g _ _ | .baselineWrite g _ _ => some g
  | .switchingPeriod g _ | .complianceClamp g _ | .ocpTrip g | .ovpTrip g | .rvpTrip g | .hstop g => some g
  | .pwmWrite g _ _ | .setpointWrite g _ _ | .overrideChange g _ | .rangeSelWrite g _ | .uprange g => some g
  | .overloadDetect g _ | .calApply g _ | .calFold g _ => some g
  | .acirStart g _ | .acirAbortCmd g | .acirLeadinStart g | .acirWindowOpen g | .acirWindowClose g => some g
  | .acirEnvelopeZero g | .acirWindowAbort g _ | .acirClr g _ => some g
  | .stepStart g | .reseatOffExpiry g | .reseatSettleExpiry g | .pulseLevelChange g | .pulseCapture g _ => some g
  | .ocvSample g | .seqStart g | .seqHalt g | .seqRelease g | .seqSkip g | .seqAbort g => some g
  | _ => none

/-- The valve a command of a coil driver names. -/
def valveOf : Instr → Option Valve
  | .valveEvent v _ | .pullInStart v | .valveSlipLimit v | .dropToHold v | .releaseToOff v | .chopPeriod v _ => some v
  | .valveOpen v | .valveShort v | .valveSlow v | .valveBatonExpiry (.vbst v) => some v
  | _ => none

/-- The die a command of a die names. -/
def dieOf : Instr → Option Nat
  | .vdrvUv d | .vdrvRecover d | .busOv d | .busOvClear d | .sarConversion d _ | .vrefxFailSwitch d | .vrefxReturnSwitch d
  | .sarFail d | .seedingEnd d _ | .benchVisitStart d | .benchSelfcalEnd d _ | .benchConnect d | .benchTakeover d
  | .benchHandback d _ | .benchAbort d _ | .benchForce d _ | .benchQueue d _ | .traceRdWrite d _ | .leaseDecision d
  | .pullEnd d | .clampOt d | .valveBatonExpiry (.bank d) | .localPfTrip d | .gleanSourceEvaluation d _
  | .gleanForcedEvaluation d _ | .pumpTransfer d | .keepGoodFall d | .keepGoodRise d | .retentionCommit d | .gleanBooking d
  | .sectionFetch d | .cellFrame d _ _ | .cellAngle d _ _ | .cellSnap d _ _ | .cellSched d _ _ | .cellWrite d | .cellRead d _
  | .cellResp d | .cellGroup d | .cellLedger d | .cellCkpt d | .cellAck d _ | .cellNak d _ _ | .cellTrain d _ | .cellIdle d
  | .portTrainingDone d | .portSilent d _ | .dieWatchdogStall d | .dieRecoveryStart d _ | .dieRecoveryDone d
  | .recoveryTimeout d | .recoveryStable d | .leadHoldExpiry d | .clampOtClear d | .benchBatonExpiry d => some d.val
  | .cellLease m _ => some (leaseDie m)
  | _ => none

/-- The die that must be present for a command to act at all (R1). -/
def namedDie (i : Instr) : Option Nat :=
  match chanOf i, valveOf i with
  | some g, _ => some (g.val / 8)
  | none, some v => some (v.val / 4)
  | none, none => dieOf i

/-- One register word takes a value and nothing else changes. -/
def WordOnly (a : Nat) (w : Word) (s t : Device) : Prop := RegsOnly (· = a) s t ∧ t.reg a = w

/-- A broadcast of that kind and stamp waits on the die. -/
def WaitsOn (s : Device) (k : BcastKind) (d frame clk : Nat) : Prop :=
  ∃ b ∈ s.bcast, b.kind = k ∧ b.frame = frame ∧ b.clk = clk ∧ d ∈ b.dies

/-- No broadcast is due on a die at the present clock (R23). -/
abbrev Quiet (s : Device) (d : Nat) : Prop := ∀ b ∈ s.bcast, bcastDue s b = true → d ∉ b.dies

/-- The address of a valve's VALVE_REQ word (R282, R294). -/
abbrev ReqWord (a : Nat) : Prop := 0x2000 ≤ a ∧ a < 0x3000 ∧ 0x20 ≤ a % 0x200 ∧ a % 0x200 < 0x30 ∧ a % 4 = 2

/-- No register word. -/
def noWord (_ : Nat) : Prop := False

/-- A step's answer is safe: a state in canonical form, and no stop. -/
def SafeAnswer (n : Nat) : Host.Outcome State Fault Refusal → Prop
  | .next s => s.dev.Canonical n
  | .fault _ => False
  | .refused _ => False

end Sys2Proof.Machine
end

