-- ==== Sys2Proof/Certificates/Slice0/Obligations.lean ====
section
/-! DEFINITION. What is claimed of the model, each statement with the rules of spec/ it comes from. `Does c s P`: the command
completes on s, leaves the queue as it is, and P holds of the device it leaves. -/

open Sys2Proof Sys2Proof.Machine

/-- A step runs the command at the front of the queue on the state with the queue's rest; with no command waiting the block idles.
The queue of waiting commands and the idle step are the model's own (notes/assumptions/1); the manual's commands reach the
part one after another. It rests on the readings of notes/assumptions/1. -/
def Obligations.StepRunsTheFrontCommand : Prop :=
  (∀ (c : Instr) (s : State), step { s with pending := c :: s.pending } = exec c s) ∧
  ∀ s : State, s.pending = [] → step s = .next s

/-- Every step keeps the data in canonical form: the register files, the shadow file and the words in force list no word at its
default (R450, R454, R458) and rising addresses, the flash and its buffer likewise; 64 channels, 8 dies, a ledger ring of 64
entries (R425), a posting queue of at most 16 words (R416); and no step changes the part (R1). -/
def Obligations.CanonicalKeptByEveryStep : Prop :=
  ∀ (n : Nat) (s t : State), s.dev.Canonical n → step s = .next t → t.dev.Canonical n

/-- The state after reset is canonical, and every register word, its shadow and its value in force read the default of their table
(R450, R454, R458); the line is synthetic at 50 Hz (R42), counters and banks are zero with direction NONE (R131, R135), every
channel's engine is idle with its gates low (R84, R252), and no ledger entry is unread (R425). That the part is one of eight
dies, and what the manual gives no reset value for, is the model's choice (notes/assumptions/2). It rests on the readings of
notes/assumptions/2. -/
def Obligations.ResetIsCanonical : Prop :=
  State.reset.dev.Canonical 8 ∧ Sound State.reset ∧
  (∀ a, State.reset.dev.reg a = regDefault a ∧ State.reset.dev.frc a = regDefault a ∧ rfGet State.reset.dev.shadow a = regDefault a) ∧
  State.reset.dev.line.nco.inc = 0x28F5C28F ∧ lineState State.reset.dev = LineState.synthetic ∧
  (∀ g, g < 64 → (State.reset.dev.ch g).acc = Acc.reset ∧ (State.reset.dev.ch g).acc.dir = .none ∧
    (State.reset.dev.ch g).lp.gl = false ∧ engState State.reset.dev g = EngSt.idle ∧ (State.reset.dev.ch g).lease.inForce = false) ∧
  State.reset.dev.pget LEDGER_STAT_COUNT = 0 ∧ irqStatus State.reset.dev = 0 ∧ irqLow State.reset.dev = false ∧
  State.reset.pending = []

/-- Every command completes on every state: no meaning faults or refuses. A command that names a die the part does not contain
(R1) changes nothing, as nothing exists that could act: that reading is the model's (notes/assumptions/6). It rests on the
readings of notes/assumptions/6. -/
def Obligations.EveryCommandCompletes : Prop :=
  ∀ (c : Instr) (s : State),
    Does c s (fun _ => True) ∧ ∀ d, namedDie c = some d → ¬ d < s.dev.nDies → exec c s = .next s

/-- Package time (R5): a clock of the modulators advances the clock in the frame, a frame boundary begins the next frame at clock
0, and no other command moves either. It rests on the readings of notes/assumptions/4. -/
def Obligations.OnlyClockAndBoundaryMoveTheClock : Prop :=
  ∀ (c : Instr) (s t : State), exec c s = .next t →
    match c with
    | .accumulateClock _ => t.dev.frame = s.dev.frame ∧ t.dev.clk = s.dev.clk + 1
    | .frameBoundary => t.dev.frame = s.dev.frame + 1 ∧ t.dev.clk = 0
    | _ => t.dev.frame = s.dev.frame ∧ t.dev.clk = s.dev.clk

/-- A command of one channel changes nothing of any other channel and nothing of any other die: no counting state, loop, step
engine, ACIR engine, register word or word in force. On its own die it leaves the die's own state but for the entries its
events stage, its trace records and the bench (R442, R250, R124), and of the package block it writes only the words that an
event writes at the lead die (R422 to R426) and its own bits of the arbiter's maps (R269). -/
def Obligations.ChannelCommandsTouchNoOtherChannel : Prop :=
  ∀ (c : Instr) (g : Ch) (s t : State), chanOf c = some g → exec c s = .next t → OnlyChannel g.val s.dev t.dev

/-- PKG_STATE changes only by the events of R389's table: power-on, the start and the end of a load, the qualification, a power-
fail trip, the end of a hand-over, the return of the bus, the comparator's return at the bus (R309), the end of HOLD, ship
mode, and TEST at a frame boundary. The rows that stand for the same events through a host word (HOST_WR, REGISTER_WRITE, a
posted word's CELL_WRITE) are named with them. It rests on the readings of notes/assumptions/20. -/
def Obligations.PackageStateMovesOnlyByItsEvents : Prop :=
  ∀ (c : Instr) (s t : State), exec c s = .next t → pkgState t.dev ≠ pkgState s.dev →
    match c with
    | .coldPowerOn | .mainDomainStart _ | .loadEnd | .qualifyPass | .powerFailTrip _ | .pfTripNonRun | .handoverComplete
    | .vbusGood | .pfReadyAgain | .holdStoreLow | .holdMaxExpiry | .vsysCollapse | .shipEnter _ | .frameBoundary | .hostWr _ _ _
    | .cellWrite _ | .registerWrite _ _ => True
    | _ => False

/-- Frames that carry no word (R408, R410, R412, R31). A port that answers shifts out its status byte and, in a NOP frame, once
more for each further byte; an unknown command byte sets FRAME_ERR and shifts nothing more; a frame that ends before its last
address bit has no effect beyond the status byte; a port that does not answer shifts out nothing and changes nothing. It rests
on the readings of notes/assumptions/16 and 18. -/
def Obligations.FramesWithoutWords : Prop :=
  ∀ s : State,
    (∀ n, answers s.dev = true → Does (.hostNop n) s
      (· = shiftOut (statusByte s.dev) [] (List.replicate n (BitVec.ofNat 8 (statusByte s.dev))) s.dev)) ∧
    (∀ cmd, answers s.dev = true → (Instr.hostUnknownCommand cmd).wf = true → Does (.hostUnknownCommand cmd) s
      (WordOnly 9 (HOST_STAT_FRAME_ERR.put 1 (s.dev.reg 9)) (shiftOut (statusByte s.dev) [] [] s.dev))) ∧
    (∀ a d n l, answers s.dev = true → n < 24 → ∀ c ∈ [Instr.hostRd a n, .hostWr a d n, .hostRdb a n l],
      Does c s (· = shiftOut (statusByte s.dev) [] [] s.dev)) ∧
    (∀ a d n l b cmd, answers s.dev = false →
      ∀ c ∈ [Instr.hostNop b, .hostUnknownCommand cmd, .hostRd a n, .hostWr a d n, .hostRdb a n l], Does c s fun t =>
        t.host = { s.dev.host with miso := [], misoBytes := [], answered := false } ∧ t = { s.dev with host := t.host })

/-- R409, whole. While a frame's command byte comes in, a port that answers shifts out the status byte of the state in which the
frame began: bit 7 is 1 while IRQ_N is low, bit 6 while the posting queue is full, bit 5 is REFUSED, bit 4 CRC_ERR and bits
[3:0] the package state. -/
def Obligations.StatusByteBits : Prop :=
  ∀ s : State,
    (let b := statusByte s.dev
     b < 256 ∧ (b.testBit 7 = irqLow s.dev) ∧ (b.testBit 6 = decide (16 ≤ s.dev.host.posting.length)) ∧
     (b.testBit 5 = s.dev.pbit HOST_STAT_REFUSED) ∧ (b.testBit 4 = s.dev.pbit HOST_STAT_CRC_ERR) ∧ b % 16 = pkgState s.dev) ∧
    (answers s.dev = true → ∀ a d n l b cmd, (Instr.hostUnknownCommand cmd).wf = true →
      ∀ c ∈ [Instr.hostNop b, .hostUnknownCommand cmd, .hostRd a n, .hostWr a d n, .hostRdb a n l],
        Does c s fun t => t.host.status = statusByte s.dev ∧ t.host.answered = true)

/-- A frame that reads one word (R410, R411, R413, R414, R418): RD shifts out the shadow file's word of the register, with the
word's CRC byte while CRC_EN is 1; RDB at a register's address shifts out the same word and sets FRAME_ERR; RDB of a word of
the bulk space shifts out that word. Nothing else changes, LEDGER_E3 apart, whose reading advances the ledger (R428). The bulk
reads of the frame end with it, and the model's own counter of free values may move. It rests on the readings of
notes/assumptions/16, 19 and 56. -/
def Obligations.ReadFramesShiftOutTheWord : Prop :=
  ∀ (s : State) (a : Addr), answers s.dev = true →
    (a.toNat < 0x8000 → a.toNat ≠ 0xA3 → s.dev.pbit HOST_CTL_CRC_EN = false →
      Does (.hostRd a 56) s (· = shiftOut (statusByte s.dev) [hostWord s.dev a.toNat] [] s.dev)) ∧
    (a.toNat < 0x8000 → a.toNat ≠ 0xA3 → s.dev.pbit HOST_CTL_CRC_EN = true → Does (.hostRd a 64) s
      (· = shiftOut (statusByte s.dev) [hostWord s.dev a.toNat] [wordCrc 0x3A a.toNat (hostWord s.dev a.toNat)] s.dev)) ∧
    (a.toNat < 0x8000 → a.toNat ≠ 0xA3 → s.dev.pbit HOST_CTL_CRC_EN = false → Does (.hostRdb a 88 none) s
      (WordOnly 9 (HOST_STAT_FRAME_ERR.put 1 (s.dev.reg 9)) (shiftOut (statusByte s.dev) [hostWord s.dev a.toNat] [] s.dev))) ∧
    (0x8000 ≤ a.toNat → s.dev.pbit HOST_CTL_CRC_EN = false → Does (.hostRdb a 88 none) s fun t =>
      t = { shiftOut (statusByte s.dev) [bulkWord s.dev a.toNat] [] s.dev with reads := [], resps := [], free := t.free })

/-- A frame that writes one word (R416, R417). A word of the lead die takes effect as REGISTER_WRITE says; a word of another
present die enters the posting queue in order and shows its RW and RWP fields in the shadow file at once; with 16 words queued
it is refused, with the refused address noted, and nothing is queued; in LOAD it sets HUSK_EVT and is discarded. A word of
VALVE_REQ also reaches the scheduler, which the lead die runs (R282). It rests on the readings of notes/assumptions/16, 17 and
18. -/
def Obligations.WriteFramesWriteOrPost : Prop :=
  ∀ (s : State) (a : Addr) (w : Word) (c : Byte), answers s.dev = true → s.dev.pbit HOST_CTL_CRC_EN = false → a.toNat < 0x8000 →
    (ownerOf a.toNat = 0 → (s.dev.die 0).recov.active = false →
      Does (.hostWr a [(w, c)] 56) s (· = registerWrite a.toNat w (shiftOut (statusByte s.dev) [] [] s.dev))) ∧
    (0 < ownerOf a.toNat → ownerOf a.toNat < s.dev.nDies → Pkg.load < pkgState s.dev → s.dev.host.posting.length < 16 →
      Does (.hostWr a [(w, c)] 56) s fun t => ∃ u : Device, t = valveReqOf a.toNat w u ∧ u.host = { s.dev.host with
          posting := s.dev.host.posting ++ [(a.toNat, w)], status := statusByte s.dev, miso := [], misoBytes := [], answered := true } ∧
        shd u a.toNat = merge (rwMask a.toNat) (shd s.dev a.toNat) w ∧ (∀ b, b ≠ a.toNat → shd u b = shd s.dev b) ∧
        u = { s.dev with host := u.host, shadow := u.shadow }) ∧
    (0 < ownerOf a.toNat → ownerOf a.toNat < s.dev.nDies → Pkg.load < pkgState s.dev → s.dev.host.posting.length = 16 →
      s.dev.pbit HOST_STAT_REFUSED = false → Does (.hostWr a [(w, c)] 56) s
        (WordOnly 9 (HOST_STAT_REFUSED.put 1 (HOST_STAT_REF_ADDR.put a.toNat (s.dev.reg 9)))
          (shiftOut (statusByte s.dev) [] [] s.dev))) ∧
    (0 < ownerOf a.toNat → ownerOf a.toNat < s.dev.nDies → pkgState s.dev ≤ Pkg.load → ¬ ReqWord a.toNat → Does (.hostWr a [(w, c)] 56) s
      (WordOnly 9 (HOST_STAT_HUSK_EVT.put 1 (s.dev.reg 9)) (shiftOut (statusByte s.dev) [] [] s.dev)))

/-- A word written to a register (R3, R8, R10, R23, R27, R417). Nothing happens where no register stands, where the die is not
part of the package, or while the lead die is down; a word for a die in husk sets HUSK_EVT and is discarded; one for a
recovering die is posted. A word that does nothing but hold its value, every row of the map but those with an effect of their
own, takes its RW and RWP fields as its row stores them, or none of them where the row refuses them; a W1C flag written 1
clears, but for one that its own clock has set; every other bit stays; and another die's word shows in the shadow file. So do
IRQ_MASK, whose bit 9 reads 0 (R423), and BULK_SEL (R453). That holds where no broadcast is due on the word's die at the
present clock; one that is due acts on the die before the write. A word of VALVE_REQ acts at the lead die besides (R282),
which ValveRequestsAreScheduled states. It rests on the readings of notes/assumptions/13, 61 and 76. -/
def Obligations.RegisterWritesObeyTheirDie : Prop :=
  ∀ (s : State) (a : Addr) (w : Word), Sound s →
    let o := ownerOf a.toNat
    let x := s.dev.die o
    -- the rows whose word does something of its own
    let own : Bool := match locate a.toNat with
      | some (.pkg, _, off) => decide (off ∈ [0x06, 0x08, 0x0A, 0x10, 0x11, 0x1A, 0x26, 0x2A, 0x33, 0x37, 0x4C, 0x4D, 0x60, 0x70, 0x7A, 0x7D,
          0x97, 0x98, 0xA6, 0xB0, 0xC8, 0xD4] ∨ (0x80 ≤ off ∧ off < 0x90))
      | some (.die, _, off) => decide (off ∈ [0x10, 0x16, 0x40, 0x60] ∨ (0x20 ≤ off ∧ off < 0x30 ∧ off % 4 ≠ 3) ∨ (0x30 ≤ off ∧ off < 0x34))
      | some (.ch, _, off) => decide (off ∈ [0x00, 0x02, 0x06, 0x08, 0x09, 0x0A, 0x14, 0x15, 0x1F, 0x2A, 0x50, 0x5D] ∨
          (0x3F ≤ off ∧ off ≤ 0x48) ∨ (0x4C ≤ off ∧ off ≤ 0x4F))
      | none => true
    (rowAt a.toNat = none → a.toNat < 0x8000 → Quiet s.dev o → writeBarred a.toNat s.dev = false → x.recov.active = false →
      x.up = true → Does (.registerWrite a w) s (· = s.dev)) ∧
    (¬ o < s.dev.nDies → x.recov.active = false → Does (.registerWrite a w) s (· = s.dev)) ∧
    ((s.dev.die 0).up = false → Does (.registerWrite a w) s (· = s.dev) ∧ Does (.bulkSelWrite w) s (· = s.dev)) ∧
    ((s.dev.die 0).up = true → 0x2000 ≤ a.toNat → a.toNat < 0x6000 → (locate a.toNat).isSome = true → o < s.dev.nDies →
      Quiet s.dev o → ¬ ReqWord a.toNat → x.up = true → x.husk = true → x.recov.active = false →
      Does (.registerWrite a w) s (WordOnly 9 (HOST_STAT_HUSK_EVT.put 1 (s.dev.reg 9)) s.dev)) ∧
    ((s.dev.die 0).up = true → a.toNat < 0x8000 → 0 < o → o < s.dev.nDies → ¬ ReqWord a.toNat → x.recov.active = true →
      Pkg.load < pkgState s.dev → s.dev.host.posting.length < 16 → Does (.registerWrite a w) s fun t =>
        t = { s.dev with host := { s.dev.host with posting := s.dev.host.posting ++ [(a.toNat, w)] }, shadow := t.shadow }) ∧
    ((s.dev.die 0).up = true → x.up = true → o < s.dev.nDies → Quiet s.dev o → writeBarred a.toNat s.dev = false →
      x.recov.active = false → (rowAt a.toNat).isSome = true → own = false →
      let mask := rwMask a.toNat
      let u := s.dev.reg a.toNat &&& ~~~(w &&& w1cMask a.toNat &&& ~~~ s.dev.freshBits a.toNat)
      let v := wordStored a.toNat ((u &&& ~~~mask) ||| (w &&& mask))
      Does (.registerWrite a w) s fun t => t.reg a.toNat = (if mask = 0 ∨ writeIgnored a.toNat v s.dev = true then u else v) ∧
        RegsOnly (· = a.toNat) { s.dev with shadow := t.shadow } t ∧ (o = 0 → t.shadow = s.dev.shadow) ∧
        (o ≠ 0 → shd t a.toNat = (shd s.dev a.toNat &&& ~~~mask) ||| (w &&& mask) ∧ ∀ b, b ≠ a.toNat → shd t b = shd s.dev b)) ∧
    ((s.dev.die 0).up = true → Quiet s.dev 0 → (s.dev.die 0).recov.active = false →
      Does (.registerWrite 5#16 w) s (WordOnly 5 (w &&& 0xDFF#32) s.dev) ∧
      Does (.registerWrite 4#16 w) s (WordOnly 4 (s.dev.reg 4 &&& ~~~(w &&& 0xFFF#32 &&& ~~~ s.dev.freshBits 4)) s.dev) ∧
      Does (.bulkSelWrite w) s (WordOnly 3 ((s.dev.reg 3 &&& ~~~0x77#32) ||| (w &&& 0x77#32)) s.dev)) ∧
    ((s.dev.die 0).up = true → x.up = true → o < s.dev.nDies → ¬ ReqWord a.toNat → x.recov.active = false →
      exec (.registerWrite a w) s = exec (.registerWrite a w) { s with dev := bcastFirst o s.dev })

/-- The host's controls with a key (R419, R420, R428, R429). With the key 0xC3: TEST_REQ waits for the frame boundary from QUALIFY
and HOLD and sets CMD_REF elsewhere; TEST_END the same in TEST; a soft reset in HANDOVER waits for its end; REREAD moves RD
back by one when BACK_OK is set; FLUSH marks every entry read; CLR_OVF clears DROPPED. With another key none of them does
anything. It rests on the readings of notes/assumptions/7. -/
def Obligations.KeyedHostControls : Prop :=
  ∀ s : State, (s.dev.die 0).up = true →
    (pkgState s.dev = Pkg.qualify ∨ pkgState s.dev = Pkg.hold → Does (.testReq 0xC3#8) s fun t =>
      t.host = { s.dev.host with testDue := true } ∧ t = { s.dev with host := t.host }) ∧
    (pkgState s.dev ≠ Pkg.qualify → pkgState s.dev ≠ Pkg.hold → Does (.testReq 0xC3#8) s
      (WordOnly 9 (HOST_STAT_CMD_REF.put 1 (s.dev.reg 9)) s.dev)) ∧
    (pkgState s.dev = Pkg.test → Does (.testEnd 0xC3#8) s fun t =>
      t.host = { s.dev.host with testEndDue := true } ∧ t = { s.dev with host := t.host }) ∧
    (pkgState s.dev ≠ Pkg.test → Does (.testEnd 0xC3#8) s (WordOnly 9 (HOST_STAT_CMD_REF.put 1 (s.dev.reg 9)) s.dev)) ∧
    (pkgState s.dev = Pkg.handover → Does (.hostSoftReset 0xC3#8) s fun t =>
      t.supply = { s.dev.supply with softDue := true } ∧ t = { s.dev with supply := t.supply }) ∧
    (pkgState s.dev ≠ Pkg.handover → Does (.hostSoftReset 0xC3#8) s fun t =>
      t.supply.start = some 3 ∧ pkgState t = pkgState s.dev) ∧
    (s.dev.pget LEDGER_STAT_BACK_OK = 1 → Does (.ledgerReread 0xC3#8) s fun t => RegsOnly (· = 0xA4) s.dev t ∧
      t.pget LEDGER_STAT_RD = (s.dev.pget LEDGER_STAT_RD + 63) % 64 ∧
      t.pget LEDGER_STAT_COUNT = (s.dev.pget LEDGER_STAT_COUNT + 1) % 128 ∧ t.pget LEDGER_STAT_BACK_OK = 0 ∧
      t.pget LEDGER_STAT_WR = s.dev.pget LEDGER_STAT_WR) ∧
    (s.dev.pget LEDGER_STAT_BACK_OK = 0 → Does (.ledgerReread 0xC3#8) s (· = s.dev)) ∧
    Does (.ledgerFlush 0xC3#8) s (fun t => RegsOnly (· = 0xA4) s.dev t ∧ t.pget LEDGER_STAT_RD = s.dev.pget LEDGER_STAT_WR ∧
      t.pget LEDGER_STAT_WR = s.dev.pget LEDGER_STAT_WR ∧ t.pget LEDGER_STAT_COUNT = 0 ∧ t.pget LEDGER_STAT_BACK_OK = 0 ∧
      t.pget LEDGER_STAT_FULL = 0) ∧
    Does (.ledgerClrOvf 0xC3#8) s (WordOnly LEDGER_DROPPED.off (LEDGER_DROPPED.put 0 (s.dev.reg LEDGER_DROPPED.off)) s.dev) ∧
    (∀ key : Byte, key ≠ 0xC3#8 → ∀ c ∈ [Instr.testReq key, .testEnd key, .hostSoftReset key, .ledgerReread key, .ledgerFlush key,
      .ledgerClrOvf key], Does c s (· = s.dev)) ∧
    (∀ w : Word, Does (.clrPeak w) s (WordOnly 0xD4
      (if QUEUE_STAT_CLR_PEAK.get w = 1 then QUEUE_STAT_NVM_PEAK.put 0 (s.dev.reg 0xD4) else s.dev.reg 0xD4) s.dev))

/-- Snapshots (R151 to R153). TAKE waits for the next frame boundary; ARM resolves SNAP_AT to its next point of line angle,
strictly ahead (R58), and shows ARMED; DISARM forgets it; SNAPSHOT_SCHEDULED, where the latest frame boundary is the first at
or after the armed point (R60), gives the snapshot the next generation, caused by the schedule, of that boundary, and
broadcasts it (R21), 24 clocks on; without REPEAT it disarms, with REPEAT it arms the same angle of the next cycle. Before
that boundary, and with nothing armed, it does nothing; a point already passed when it is armed or re-armed fires at once
(R57). It rests on the readings of notes/assumptions/7, 31 and 32. -/
def Obligations.SnapshotsArmTakeAndFire : Prop :=
  ∀ s : State, (s.dev.die 0).up = true →
    Does .snapTake s (fun t => t.snap = { s.dev.snap with take := true } ∧ t = { s.dev with snap := t.snap }) ∧
    Does .snapArm s (fun t => let p := t.snap.armedPt.getD 0
      t.snap = { s.dev.snap with armedPt := some p } ∧ linePt s.dev < p ∧
      p % 2 ^ 32 = s.dev.pget SNAP_AT ∧ (∀ q, linePt s.dev < q → q % 2 ^ 32 = s.dev.pget SNAP_AT → p ≤ q) ∧
      WordOnly 0xA (SNAP_CTL_ARMED.put 1 (s.dev.reg 0xA)) { s.dev with snap := t.snap } t) ∧
    Does .snapDisarm s (fun t => t.snap = { s.dev.snap with armedPt := none } ∧
      WordOnly 0xA (SNAP_CTL_ARMED.put 0 (s.dev.reg 0xA)) { s.dev with snap := t.snap } t) ∧
    (∀ p, s.dev.snap.armedPt = some p → p ≤ s.dev.snap.bPt → s.dev.snap.last ≠ some s.dev.snap.bFrame →
      (∀ d, d < s.dev.nDies → snapAble (s.dev.die d) = true) → Does .snapshotScheduled s fun t =>
        t.pget SNAP_CTL_GEN = (s.dev.pget SNAP_CTL_GEN + 1) % 65536 ∧ t.pget SNAP_STAT_BY_SCHED = 1 ∧
        t.pget SNAP_STAT_BY_TAKE = 0 ∧ t.pget SNAP_STAT_PARTIAL = 0 ∧ t.snap.last = some s.dev.snap.bFrame ∧
        t.snap.slots = s.dev.dieList ∧
        t.bcast = s.dev.bcast ++ [⟨.snap, [0], (s.dev.now + 24) / 5120, (s.dev.now + 24) % 5120, s.dev.snap.bFrame⟩] ∧
        (s.dev.pget SNAP_CTL_REPEAT = 0 → t.snap.armedPt = none ∧ t.pget SNAP_CTL_ARMED = 0) ∧
        (s.dev.pget SNAP_CTL_REPEAT = 1 → t.snap.armedPt = some ((p / 2 ^ 32 + 1) * 2 ^ 32 + s.dev.pget SNAP_AT)) ∧
        t = { s.dev with regs := t.regs, snap := t.snap, bcast := t.bcast } ∧ ∀ a, a ≠ 0xA → a ≠ 0xC → t.reg a = s.dev.reg a) ∧
    ((∀ p, s.dev.snap.armedPt = some p → s.dev.snap.bPt < p) → Does .snapshotScheduled s (· = s.dev))

/-- SYN_FORCE (R42). With SYN_FORCE in force an LSYNC edge of any tick, length and direction changes nothing, and neither an edge,
nor a timeout, nor a clock, nor a frame boundary takes the line state out of SYNTHETIC. -/
def Obligations.SynForceIgnoresLsync : Prop :=
  ∀ s : State, s.dev.pfrc LINE_CFG_SYN_FORCE = 1 →
    (∀ tick run rising, Does (.lsyncEdge tick run rising) s (· = s.dev)) ∧
    (lineState s.dev = LineState.synthetic → Does .lineTimeout s (· = s.dev) ∧
      (∀ inp, Does (.accumulateClock inp) s fun t => lineState t = LineState.synthetic ∧ t.pfrc LINE_CFG_SYN_FORCE = 1) ∧
      Does .frameBoundary s fun t => lineState t = LineState.synthetic ∧ t.pfrc LINE_CFG_SYN_FORCE = 1)

/-- LSYNC level runs while LSYNC is heeded (R39, R40, R41, R44, R48, R51). A run under 64 clocks that has ended counts in
REJ_GLITCH; any other level is recognised 64 clocks after its tick, and only when it differs from the level recognised before;
the edge that is not the reference edge takes no part; a candidate that fails its test counts in REJ_EDGE and changes neither
the NCO, the period nor the timeout; one that passes gives LINE_PHERR the phase error, keeps the NCO as it is until the
boundary, and moves ACQUIRE to LOCKED at 2^-10 cycle or less and LOCKED to ACQUIRE beyond 2^-8 cycle; entering LOCKED sets
LOCK_EVT and EVER_LOCKED. -/
def Obligations.LsyncEdgesQualifyAndLock : Prop :=
  ∀ (s : State) (tick run : Nat) (rising : Bool), lsyncHeeded s.dev = true →
    let recognised : Prop := 64 ≤ run ∧ rising ≠ s.dev.line.level ∧ tick + 512 ≤ 8 * s.dev.now ∧ 8 * s.dev.now < tick + 520
    let reference : Prop := rising = (s.dev.pfrc LINE_CFG_POL == 0)
    (run < 64 → tick + 8 * run ≤ 8 * s.dev.now → Does (.lsyncEdge tick run rising) s (WordOnly 0x19
      (LINE_REJ_REJ_GLITCH.put (min (s.dev.pget LINE_REJ_REJ_GLITCH + 1) 65535) (s.dev.reg 0x19)) s.dev)) ∧
    ((run < 64 ∧ 8 * s.dev.now < tick + 8 * run) ∨ (64 ≤ run ∧ ¬ recognised) → Does (.lsyncEdge tick run rising) s (· = s.dev)) ∧
    (recognised → ¬ reference → Does (.lsyncEdge tick run rising) s
      (· = { s.dev with line := { s.dev.line with level := rising } })) ∧
    (recognised → reference → edgeQualifies tick s.dev = false →
      Does (.lsyncEdge tick run rising) s fun t =>
        t.line = { s.dev.line with level := rising, cands := (tick :: s.dev.line.cands).take 2 } ∧
        WordOnly 0x19 (LINE_REJ_REJ_EDGE.put (min (s.dev.pget LINE_REJ_REJ_EDGE + 1) 65535) (s.dev.reg 0x19))
          { s.dev with line := t.line } t) ∧
    (recognised → reference → edgeQualifies tick s.dev = true →
      Does (.lsyncEdge tick run rising) s fun t =>
        let e := signedOf 32 (fieldOf 32 (-(angleAtTick s.dev tick : Int)))
        t.line.nco = s.dev.line.nco ∧ t.line.level = rising ∧ t.line.lastQual = some tick ∧ t.reg 0x18 = wordOfInt e ∧
        (lineState s.dev = LineState.synthetic ∨ lineState s.dev = LineState.holdover → lineState t = LineState.acquire) ∧
        (lineState s.dev = LineState.acquire → lineState t = if e.natAbs ≤ 2 ^ 22 then LineState.locked else LineState.acquire) ∧
        (lineState s.dev = LineState.locked → lineState t = if 2 ^ 24 < e.natAbs then LineState.acquire else LineState.locked) ∧
        (lineState s.dev = LineState.acquire → e.natAbs ≤ 2 ^ 22 →
          t.pget LINE_STAT_LOCK_EVT = 1 ∧ t.pget LINE_STAT_EVER_LOCKED = 1))

/-- The timeout (R50, R51): 64 clocks after the NCO advanced by TIMEOUT half-cycles and 2 % of a cycle since the last qualified
edge, LOCKED, and ACQUIRE after an earlier lock, go to HOLDOVER with HOLD_EVT, LINE_HOLDT at 0 and the measured increment from
the next boundary; ACQUIRE without one goes to SYNTHETIC with the increment of 50 Hz; before that instant, and in SYNTHETIC
and HOLDOVER, there is no timeout. Writes of LINE_CFG and LINE_PLIM read back at once, a TIMEOUT below 2 as 2 and a pair that
breaks R63 not at all, and nothing is in force yet (R45); CLR_REJ clears both counts (R65). -/
def Obligations.LineTimeoutsAndWords : Prop :=
  ∀ s : State,
    (timeoutDue s.dev = false → Does .lineTimeout s (· = s.dev)) ∧
    (timeoutDue s.dev = true →
      lineState s.dev = LineState.locked ∨ (lineState s.dev = LineState.acquire ∧ s.dev.pget LINE_STAT_EVER_LOCKED = 1) →
      Does .lineTimeout s fun t => lineState t = LineState.holdover ∧ t.pget LINE_STAT_HOLDOVER = 1 ∧
        t.pget LINE_STAT_SYNTH = 0 ∧ t.pget LINE_STAT_HOLD_EVT = 1 ∧ t.reg 0x1B = 0 ∧ t.line = { s.dev.line with
          holdPt := linePt s.dev, incNext := some s.dev.line.incMeas, stepNext := none, slewNext := false }) ∧
    (timeoutDue s.dev = true → lineState s.dev = LineState.acquire → s.dev.pget LINE_STAT_EVER_LOCKED = 0 → Does .lineTimeout s fun t =>
      lineState t = LineState.synthetic ∧ t.pget LINE_STAT_SYNTH = 1 ∧ RegsOnly (· = 0x12) { s.dev with line := t.line } t ∧
      t.line = { s.dev.line with incNext := some 0x28F5C28F, stepNext := none, slewNext := false }) ∧
    (lineState s.dev = LineState.synthetic ∨ lineState s.dev = LineState.holdover → Does .lineTimeout s (· = s.dev)) ∧
    (∀ w, Does (.lineCfgWrite .cfg w) s fun t => RegsOnly (· = 0x10) s.dev t ∧ t.pget LINE_CFG_POL = LINE_CFG_POL.get w ∧
      t.pget LINE_CFG_TIMEOUT = max 2 (LINE_CFG_TIMEOUT.get w) ∧ t.pget LINE_CFG_SYN_FORCE = LINE_CFG_SYN_FORCE.get w ∧
      t.pget LINE_CFG_STEP_EN = LINE_CFG_STEP_EN.get w) ∧
    (∀ w, Does (.lineCfgWrite .plim w) s (WordOnly 0x11
      (if 4571 ≤ LINE_PLIM_PMIN.get w ∧ LINE_PLIM_PMIN.get w < LINE_PLIM_PMAX.get w ∧ LINE_PLIM_PMAX.get w ≤ 8000 then w
        else s.dev.reg 0x11) s.dev)) ∧
    (∀ w, Does (.clrRej w) s (WordOnly 0x19 (if LINE_REJ_CLR.get w = 1 then 0 else s.dev.reg 0x19) s.dev))

/-- An event with a ledger entry (R422, R424 to R426, R431, R442). Its category stands in IRQ_STATUS. The lead die gives the entry
the next SEQ and writes it to the slot WR with the states of the package and of the line; with 64 unread entries it drops it
and counts it, keeping it for an advance of the same clock only. Another die stages it, 16 deep, and counts the rest. Nothing
else changes but IRQ_SOURCE. IRQ_SOURCE (R424). While VALID is 0 the first setting of an unmasked category is latched with its
die and object; a further one counts in MORE, and of two on one clock the lower category stays latched. A masked category, and
one already set, change nothing there. It rests on the readings of notes/assumptions/8, 9 and 76. -/
def Obligations.EventsEnterTheLedger : Prop :=
  (∀ (s : State) (cat d code obj data : Nat), Sound s → cat < 12 → d < 8 →
     let t := logEvent cat d code obj data s.dev
     (irqStatus t).testBit cat = true ∧ (∀ a, a ∉ eventWords → t.reg a = s.dev.reg a) ∧
     t = { s.dev with regs := t.regs, dies := t.dies, irqAt := t.irqAt, ledger := t.ledger, dropped := t.dropped } ∧
     (d ≠ 0 → t.ledger = s.dev.ledger ∧ t.dropped = s.dev.dropped ∧ t.reg 0xA4 = s.dev.reg 0xA4 ∧ t.reg 0xA5 = s.dev.reg 0xA5 ∧
       (∀ e, e ≠ d → t.die e = s.dev.die e) ∧
       ((s.dev.die d).staging.length < 16 → t.die d = { s.dev.die d with staging := (s.dev.die d).staging ++
         [⟨(s.dev.die d).nco.count, cat, d, code, obj, 0, 0, 0, BitVec.ofNat 32 data⟩] }) ∧
       (16 ≤ (s.dev.die d).staging.length → t.die d = { s.dev.die d with stagingDrop := (s.dev.die d).stagingDrop + 1 })) ∧
     (d = 0 → t.dies = s.dev.dies ∧ t.pget LEDGER_NEXT_SEQ = (s.dev.pget LEDGER_NEXT_SEQ + 1) % 65536 ∧
       t.pget LEDGER_STAT_RD = s.dev.pget LEDGER_STAT_RD ∧
       (s.dev.pget LEDGER_STAT_COUNT < 64 → (irqStatus t).testBit 9 = true ∧
         t.ledger = s.dev.ledger.set (s.dev.pget LEDGER_STAT_WR) ⟨s.dev.line.nco.count, cat, 0, code, obj, pkgState s.dev,
           lineState s.dev, s.dev.pget LEDGER_NEXT_SEQ, BitVec.ofNat 32 data⟩ ∧
         t.pget LEDGER_STAT_WR = (s.dev.pget LEDGER_STAT_WR + 1) % 64 ∧
         t.pget LEDGER_STAT_COUNT = s.dev.pget LEDGER_STAT_COUNT + 1 ∧ t.pget LEDGER_DROPPED = s.dev.pget LEDGER_DROPPED ∧
         t.dropped = s.dev.dropped) ∧
       (64 ≤ s.dev.pget LEDGER_STAT_COUNT → t.ledger = s.dev.ledger ∧ t.reg 0xA4 = s.dev.reg 0xA4 ∧
         t.pget LEDGER_DROPPED = min (s.dev.pget LEDGER_DROPPED + 1) 65535 ∧
         t.dropped = (s.dev.dropped.filter fun p => p.1 == s.dev.now) ++ [(s.dev.now, ⟨s.dev.line.nco.count, cat, 0, code, obj,
           pkgState s.dev, lineState s.dev, s.dev.pget LEDGER_NEXT_SEQ, BitVec.ofNat 32 data⟩)]))) ∧
  (∀ (s : State) (cat d obj : Nat), cat < 12 → d < 8 → obj < 256 → let t := setIrq cat d obj s.dev
     ((irqStatus s.dev).testBit cat = true → t = s.dev) ∧
     ((irqStatus s.dev).testBit cat = false →
       irqStatus t = irqStatus s.dev + 2 ^ cat ∧
       ((irqMask s.dev).testBit cat = true → cat ≠ 9 → t.reg 6 = s.dev.reg 6) ∧
       ((irqMask s.dev).testBit cat = false ∨ cat = 9 →
         let o := if cat = 2 ∨ cat = 3 ∨ cat = 8 then obj else 255
         (s.dev.pget IRQ_SOURCE_VALID = 0 → t.pget IRQ_SOURCE_VALID = 1 ∧ t.pget IRQ_SOURCE_CAT = cat ∧
           t.pget IRQ_SOURCE_DIE = d ∧ t.pget IRQ_SOURCE_OBJ = o ∧ t.pget IRQ_SOURCE_MORE = 0 ∧ t.irqAt = s.dev.now) ∧
         (s.dev.pget IRQ_SOURCE_VALID = 1 → t.pget IRQ_SOURCE_VALID = 1 ∧
           t.pget IRQ_SOURCE_MORE = min (s.dev.pget IRQ_SOURCE_MORE + 1) 255 ∧
           (s.dev.irqAt = s.dev.now → t.pget IRQ_SOURCE_CAT = min cat (s.dev.pget IRQ_SOURCE_CAT)) ∧
           (s.dev.irqAt ≠ s.dev.now → t.pget IRQ_SOURCE_CAT = s.dev.pget IRQ_SOURCE_CAT ∧
             t.pget IRQ_SOURCE_OBJ = s.dev.pget IRQ_SOURCE_OBJ ∧ t.pget IRQ_SOURCE_DIE = s.dev.pget IRQ_SOURCE_DIE)))))

/-- Cells that carry nothing (R15, R17 to R19, R34, R414). An IDLE cell of a trained port keeps it up, and LINK_STAT.UP shows it;
TRAIN shows the strap the die reads while its port trains; an ACK, which only a die that both hears and is heard exchanges,
ends the wait for the cell of its SEQ and lets the cell act, which until then did nothing; a NAK of a cell in flight counts a
repetition of that cell and in RETRY; when four repetitions of it have failed it writes CELL_RETRY with the port and the type
of the cell and starts the die's recovery; an ACK or a NAK of no such cell does nothing. It rests on the readings of
notes/assumptions/31. -/
def Obligations.CellsAreAcknowledgedOrRepeated : Prop :=
  ∀ (s : State) (d : Die), Sound s → d.val < s.dev.nDies → d.val ≠ 0 →
    let x := s.dev.die d.val
    let both := reaches s.dev d.val = true ∧ arrives s.dev d.val = true
    let hears (l : Link) : Link := { l with heardAt := some s.dev.now, silent := false, upHeardAt := some s.dev.now }
    (arrives s.dev d.val = true → Does (.cellIdle d) s fun t => DieOnly d.val noWord s.dev t ∧
      (t.die d.val).link.heardAt = some s.dev.now ∧ (t.die d.val).link.silent = false ∧
      (t.die d.val).link.upHeardAt = (if reaches s.dev d.val then some s.dev.now else x.link.upHeardAt) ∧
      (LINK_STAT_UP.get (pkgView t 0xD1)).testBit d.val = true) ∧
    (arrives s.dev d.val = false → reaches s.dev d.val = false → Does (.cellIdle d) s (· = s.dev)) ∧
    (x.up = true → x.link.trained = false → ∀ i, Does (.cellTrain d i) s fun t =>
      DieOnly d.val noWord { s.dev with straps := s.dev.straps.set d.val i.toNat } t ∧ t.die d.val = { x with index := i.toNat }) ∧
    (x.up = false ∨ x.link.trained = true → ∀ i, Does (.cellTrain d i) s (· = s.dev)) ∧
    (∀ (seq : BitVec 3) (c : Cell), both → x.link.wait.find? (fun c => c.seq == seq.toNat) = some c →
      Does (.cellAck d seq) s (· = cellAct d.val c.load (s.dev.modDie d.val fun x =>
        { x with link := hears { x.link with wait := x.link.wait.filter (fun c => c.seq != seq.toNat) } }))) ∧
    (∀ (seq : BitVec 3) (c : Cell), both → (∀ c ∈ x.link.wait, c.seq ≠ seq.toNat) →
      x.link.upWait.find? (fun c => c.seq == seq.toNat) = some c →
      Does (.cellAck d seq) s (· = cellAct d.val c.load (s.dev.modDie d.val fun x =>
        { x with link := hears { x.link with upWait := x.link.upWait.filter (fun c => c.seq != seq.toNat) } }))) ∧
    (∀ seq : BitVec 3, ¬ both ∨ (∀ c ∈ x.link.wait ++ x.link.upWait, c.seq ≠ seq.toNat) → Does (.cellAck d seq) s (· = s.dev)) ∧
    (both → ∀ (seq : BitVec 3) (typ : BitVec 4),
      (∀ c, (x.link.wait ++ x.link.upWait).find? (fun c => c.seq == seq.toNat && c.typ == typ.toNat) = some c →
        let u := s.dev.modDie d.val fun x => { x with link := hears x.link }
        (c.fails < 4 → Does (.cellNak d seq typ) s fun t => DieOnly d.val (· = 0xD1) s.dev t ∧
          (t.die d.val).link = hears { x.link with
            wait := nakOne seq.toNat typ.toNat x.link.wait
            upWait := if x.link.wait.any (fun c => c.seq == seq.toNat && c.typ == typ.toNat) then x.link.upWait
              else nakOne seq.toNat typ.toNat x.link.upWait } ∧
          t.reg 0xD1 = LINK_STAT_RETRY.put (min (s.dev.pget LINK_STAT_RETRY + 1) 255) (s.dev.reg 0xD1)) ∧
        (4 ≤ c.fails → Does (.cellNak d seq typ) s fun t =>
          exec (.dieRecoveryStart d .cellRepetition) { s with dev := logEvent Cat.link 0 0x02 d.val typ.toNat u } =
            .next { s with dev := t })) ∧
      ((∀ c ∈ x.link.wait ++ x.link.upWait, c.seq = seq.toNat → c.typ ≠ typ.toNat) → Does (.cellNak d seq typ) s (· = s.dev)))

/-- Stamped broadcasts (R19 to R22, R153, R307). A cell that reaches its die 16 clocks or more before its stamp makes the
broadcast wait there and disturbs no other; its second copy changes nothing; a die it cannot reach, or reaches too late, does
not get it; lost in both copies, the die writes BCAST_LOST with the cell's type. At its stamp a broadcast acts on the die that
holds it: FRAME fixes the die's counters, ANGLE loads its replica with the lead die's phase, increment, count and state, SNAP
latches its slots from the boundary copy, and the hand-over's SCHED lowers its gates. At another clock nothing acts. It rests
on the readings of notes/assumptions/31. -/
def Obligations.BroadcastsActAtTheirStamp : Prop :=
  ∀ (s : State) (d : Die) (f c : Nat), Sound s → d.val < s.dev.nDies → d.val ≠ 0 →
    let x := s.dev.die d.val
    let soon := s.dev.now + 16 ≤ f * 5120 + c
    -- the port has heard a cell, and nothing else differs but the waiting broadcasts
    let hears (t : Device) : Prop := DieOnly d.val noWord { s.dev with bcast := t.bcast } t ∧
      t.die d.val = { x with link := { x.link with upHeardAt := some s.dev.now } }
    (∀ p ∈ [(BcastKind.frame, Instr.cellFrame d f ⟨c, true⟩), (.angle, .cellAngle d f ⟨c, true⟩), (.sched, .cellSched d f ⟨c, true⟩)],
      (reaches s.dev d.val = true → soon → Does p.2 s fun t => hears t ∧
        (∀ k e f' c', WaitsOn t k e f' c' ↔
          WaitsOn s.dev k e f' c' ∨ (k = p.1 ∧ e = d.val ∧ f' = f ∧ c' = c)) ∧
        exec p.2 { s with dev := t } = .next { s with dev := t }) ∧
      (reaches s.dev d.val = true → ¬ soon → Does p.2 s fun t => hears t ∧ t.bcast = s.dev.bcast) ∧
      (reaches s.dev d.val = false → Does p.2 s (· = s.dev))) ∧
    (∀ p ∈ [(1, Instr.cellFrame d f ⟨c, false⟩), (2, .cellAngle d f ⟨c, false⟩), (4, .cellSched d f ⟨c, false⟩)],
      (reaches s.dev d.val = true → Does p.2 s (· = logEvent Cat.link d.val 0x03 d.val p.1 s.dev)) ∧
      (reaches s.dev d.val = false → Does p.2 s (· = s.dev))) ∧
    (reaches s.dev d.val = true →
      (∀ b, s.dev.bcast.find? (fun b => b.kind == .snap && b.arg == f) = some b → s.dev.now + 16 ≤ b.frame * 5120 + b.clk →
        Does (.cellSnap d f true) s fun t => hears t ∧ WaitsOn t .snap d.val b.frame b.clk) ∧
      (s.dev.snap.last ≠ some f → Does (.cellSnap d f false) s (· = logEvent Cat.link d.val 0x03 d.val 3 s.dev)) ∧
      (s.dev.snap.last = some f → s.dev.snap.slots.contains d.val = true → Does (.cellSnap d f false) s fun t =>
        t.snap.slots.contains d.val = false ∧ t.pget SNAP_STAT_PARTIAL = 1 ∧
        ∀ k i, k < 8 → i < 22 → shd t (slotAddr16 d.val k i) = 0)) ∧
    (reaches s.dev d.val = false → ∀ b, Does (.cellSnap d f b) s (· = s.dev)) ∧
    (x.up = true →
      let one (k : BcastKind) (g : Nat) : Prop := s.dev.bcast = [⟨k, [d.val], s.dev.frame, s.dev.clk, g⟩]
      (∀ g, one .frame g → Does (.broadcastExecute .frame) s fun t =>
        t.die d.val = { x with frame := s.dev.frame, clk := s.dev.clk } ∧ DieOnly d.val noWord { s.dev with bcast := [] } t) ∧
      (∀ g, one .angle g → x.link.upSilent = false → Does (.broadcastExecute .angle) s fun t =>
        DieOnly d.val noWord { s.dev with bcast := [] } t ∧
        t.die d.val = { x with nco := { s.dev.line.nco with state := lineState s.dev } }) ∧
      (one .snap s.dev.snap.bFrame → x.husk = false → Does (.broadcastExecute .snap) s fun t =>
        RegsOnly (fun a => ∃ k < 8, ∃ i < 26, a = slotAddr16 d.val k i) { s.dev with bcast := [] } t ∧
        ∀ k i, k < 8 → i < 26 → t.reg (slotAddr16 d.val k i) = ((slotWords s.dev d.val k)[i]?).getD 0) ∧
      (one .sched 1 → Does (.broadcastExecute .sched) s fun t =>
        (∀ g, g / 8 = d.val → (t.ch g).lp.gl = false) ∧ ∀ g, g / 8 ≠ d.val → t.ch g = s.dev.ch g)) ∧
    (∀ k, (∀ b ∈ s.dev.bcast, b.kind = k → bcastDue s.dev b = false) →
      (∀ b ∈ s.dev.bcast, s.dev.now ≤ b.frame * 5120 + b.clk) → Does (.broadcastExecute k) s (· = s.dev))

/-- Words over the link (R18, R19, R23 to R26, R153, R414, R416, R426, R442). WRITE takes the oldest word posted for the die, READ
one of four credits, RESP the word of the oldest READ that reached its die, SHADOW one word, GROUP the commit of the staged
words, LEDGER the die's oldest staged entry, or its drop count first. A cell takes the port's next SEQ and waits, one of its
type at a time, and acts only when it is acknowledged: the word is written on the die, after a broadcast due there at the same
clock; the answer frees the credit; SHADOW brings the shadow file up to date but for the word's group bits, which it stages;
GROUP commits what is staged; the entry leaves the staging area for the ring with the lead die's SEQ. A word for a die that is
lost sets HUSK_EVT and is gone. It rests on the readings of notes/assumptions/9, 11 and 31. -/
def Obligations.CellsCarryWords : Prop :=
  ∀ (s : State) (d : Die), Sound s → d.val < s.dev.nDies → d.val ≠ 0 →
    let x := s.dev.die d.val
    let down (typ : Nat) (c : CellLoad) : DieSt := { x with link := { x.link with
      seq := (x.link.seq + 1) % 8, wait := x.link.wait ++ [⟨typ, decide (s.dev.clk < 2), x.link.seq, c, 0⟩] } }
    let up (typ : Nat) (c : CellLoad) : DieSt := { x with link := { x.link with
      upSeq := (x.link.upSeq + 1) % 8, upWait := x.link.upWait ++ [⟨typ, false, x.link.upSeq, c, 0⟩] } }
    let free := ∀ c ∈ x.link.wait, c.seq ≠ x.link.seq
    let upFree := ∀ c ∈ x.link.upWait, c.seq ≠ x.link.upSeq
    let oldest (a : Nat) (w : Word) := s.dev.host.posting.find? (fun p => ownerOf p.1 == d.val) = some (a, w)
    let sends (y : DieSt) (t : Device) : Prop := t.die d.val = y ∧ DieOnly d.val noWord s.dev t
    let answered (down : Bool) (c : Cell) : Prop := reaches s.dev d.val = true ∧ arrives s.dev d.val = true ∧ c.seq < 8 ∧
      if down then x.link.wait = [c] else x.link.wait = [] ∧ x.link.upWait = [c]
    let ack (c : Cell) : Instr := .cellAck d (BitVec.ofNat 3 c.seq)
    let gone : DieSt := { x with link := { x.link with
      wait := [], upWait := if x.link.wait = [] then [] else x.link.upWait
      heardAt := some s.dev.now, silent := false, upHeardAt := some s.dev.now } }
    (∀ a w, oldest a w → reaches s.dev d.val = true → x.recov.active = false → x.link.failed = false →
      (sending s.dev d.val 6 = false → free → Does (.cellWrite d) s (sends (down 6 (.word a w)))) ∧
      (sending s.dev d.val 6 = true → Does (.cellWrite d) s (· = s.dev))) ∧
    (∀ a w, oldest a w → (s.dev.die 0).up = true → x.recov.active = false → x.up = false ∨ x.link.failed = true →
      Does (.cellWrite d) s fun t => t.host = { s.dev.host with posting := s.dev.host.posting.erase (a, w) } ∧
        WordOnly 9 (HOST_STAT_HUSK_EVT.put 1 (s.dev.reg 9)) { s.dev with host := t.host } t) ∧
    ((∀ p ∈ s.dev.host.posting, ownerOf p.1 ≠ d.val) ∨ x.recov.active = true → Does (.cellWrite d) s (· = s.dev)) ∧
    (∀ c a w, answered true c → c.load = .word a w → ownerOf a = d.val → x.up = true → Quiet s.dev d.val →
      let u : Device := { s.dev.modDie d.val (fun _ => gone) with
        host := { s.dev.host with posting := s.dev.host.posting.erase (a, w) } }
      Does (ack c) s fun t => t = if pkgState s.dev ≤ Pkg.load ∨ x.husk = true then u.pset HOST_STAT_HUSK_EVT 1 else writeWord a w u) ∧
    (∀ a : Addr, reaches s.dev d.val = true → (s.dev.reads.filter fun p => p.1 == d.val).length < 4 → free →
      Does (.cellRead d a) s fun t => t.reads = s.dev.reads ++ [(d.val, a.toNat)] ∧ t.die d.val = down 7 (.ask a.toNat) ∧
        t = { s.dev with reads := t.reads, dies := t.dies } ∧ ∀ e, e ≠ d.val → t.die e = s.dev.die e) ∧
    (∀ a : Addr, reaches s.dev d.val = false ∨ 4 ≤ (s.dev.reads.filter fun p => p.1 == d.val).length →
      Does (.cellRead d a) s (· = s.dev)) ∧
    (∀ a before rest, s.dev.reads = before ++ (d.val, a) :: rest → (∀ p ∈ before, p.1 ≠ d.val) → arrives s.dev d.val = true →
      x.link.wait = [] → sendingUp s.dev d.val 0xA = false → upFree →
      Does (.cellResp d) s fun t => t.die d.val = up 0xA (.answer a (bulkWord s.dev a)) ∧
        t = { s.dev with dies := t.dies, free := t.free }) ∧
    (∀ c a w, answered false c → c.load = .answer a w → Does (ack c) s fun t => t.die d.val = gone ∧
      t.resps = s.dev.resps ++ [(a, w)] ∧ t.reads = s.dev.reads.erase (d.val, a) ∧
      t = { s.dev with reads := t.reads, resps := t.resps, dies := t.dies }) ∧
    (∀ a : Addr, ownerOf a.toNat = d.val → arrives s.dev d.val = true → upFree → Does (.cellShadow a) s
      (sends (up 8 (.shadow a.toNat (liveWord s.dev a.toNat) (groupSource s.dev a.toNat))))) ∧
    (∀ c a w g, answered false c → c.load = .shadow a w g → (rowAt a).isSome = true → Does (ack c) s fun t =>
      t = { s.dev with shadow := t.shadow, stage := t.stage, dies := t.dies } ∧ t.die d.val = gone ∧
      shd t a = merge (groupMask a) w (shd s.dev a) ∧ (∀ b, b ≠ a → shd t b = shd s.dev b) ∧
      (groupMask a = 0 → t.stage = s.dev.stage) ∧ (groupMask a ≠ 0 → rfFind a t.stage = some g)) ∧
    (arrives s.dev d.val = true → upFree → Does (.cellGroup d) s (sends (up 9 .commit))) ∧
    (∀ c, answered false c → c.load = .commit → s.dev.snap.slots.contains d.val = false → Does (ack c) s fun t =>
      let mine := s.dev.stage.filter fun p => ownerOf p.1 == d.val
      t.die d.val = gone ∧ t = { s.dev with shadow := t.shadow, stage := t.stage, dies := t.dies } ∧
      t.stage = s.dev.stage.filter (fun p => ownerOf p.1 != d.val) ∧
      (∀ b w before after, mine = before ++ (b, w) :: after → (∀ q ∈ after, q.1 ≠ b) →
        shd t b &&& groupMask b = w &&& groupMask b ∧ shd t b &&& ~~~(groupMask b) = shd s.dev b &&& ~~~(groupMask b)) ∧
      ∀ b, (∀ q ∈ mine, q.1 ≠ b) → shd t b = shd s.dev b) ∧
    (arrives s.dev d.val = true → sendingUp s.dev d.val 0xB = false → upFree →
      (∀ e l, x.staging = e :: l → x.stagingDrop = 0 → Does (.cellLedger d) s (sends (up 0xB (.entry e)))) ∧
      (0 < x.stagingDrop → Does (.cellLedger d) s (sends (up 0xB (.drops x.stagingDrop))))) ∧
    (arrives s.dev d.val = false ∨ sendingUp s.dev d.val 0xB = true ∨ x.staging = [] ∧ x.stagingDrop = 0 →
      Does (.cellLedger d) s (· = s.dev)) ∧
    (∀ c e, answered false c → c.load = .entry e → s.dev.pget LEDGER_STAT_COUNT < 64 → Does (ack c) s fun t =>
      t.die d.val = { gone with staging := x.staging.tail } ∧
      t.ledger = s.dev.ledger.set (s.dev.pget LEDGER_STAT_WR)
        { e with seq := s.dev.pget LEDGER_NEXT_SEQ, pkg := pkgState s.dev, line := lineState s.dev } ∧
      t.pget LEDGER_STAT_COUNT = s.dev.pget LEDGER_STAT_COUNT + 1 ∧ ∀ a, a ∉ eventWords → t.reg a = s.dev.reg a) ∧
    (∀ c n, answered false c → c.load = .drops n → Does (ack c) s fun t =>
      t.die d.val = { gone with stagingDrop := x.stagingDrop - n } ∧ RegsOnly (· = 0xA5) { s.dev with dies := t.dies } t ∧
      t.pget LEDGER_DROPPED = min (s.dev.pget LEDGER_DROPPED + n) 65535 ∧
      t.pget LEDGER_NEXT_SEQ = (s.dev.pget LEDGER_NEXT_SEQ + n) % 65536)

/-- Training of a port (R17, R20). A die that reports its own port's index counts frames and clocks as the lead die does and shows
its port up; a die that reports another index is held in husk, and PORT_INDEX is written with the port and the index; training
ends once, and not after a LOAD that ended before it (R33). PKG_STATE and DIE_STAT.RUN follow the dies (R32, R33): bit d of
DIES_RUN is 1 for a present die whose main domain is up out of husk with its channels under their step engines, bit d of
DIES_HUSK for a present die without a DIE section once the image is valid, with a wrong index, with a port that did not train,
in recovery or benched out; absent dies read 0, and the package state stays. It rests on the readings of notes/assumptions/31
and 66. -/
def Obligations.TrainingChecksTheIndex : Prop :=
  (∀ (s : State) (d : Die), Sound s → d.val < s.dev.nDies → d.val ≠ 0 →
     let x := s.dev.die d.val
     (s.dev.die 0).up = true → x.up = true → x.link.trained = false → x.link.failed = false →
     x.recov.active = false → ((trainIndex s.dev d.val = d.val ∧ ∀ e, e < s.dev.nDies → e ≠ d.val → trainIndex s.dev e ≠ d.val) →
       Does (.portTrainingDone d) s fun t => (∀ e, e ≠ d.val → t.die e = s.dev.die e) ∧ t.ledger = s.dev.ledger ∧
         t.chans = s.dev.chans ∧ t.die d.val = { x with frame := s.dev.frame, clk := s.dev.clk, link := { x.link with
           trained := true, heardAt := some s.dev.now, upHeardAt := some s.dev.now, silent := false } }) ∧
     (trainIndex s.dev d.val ≠ d.val → x.link.badIndex = false → (∀ e, e < s.dev.nDies → e ≠ 0 → e ≠ d.val → (s.dev.die e).link.trained = false) →
       Does (.portTrainingDone d) s fun t => (t.die d.val).husk = true ∧ (t.die d.val).link.badIndex = true ∧
         (t.pget PKG_STATE_DIES_HUSK).testBit d.val = true ∧ (∀ e, e ≠ d.val → (t.die e).husk = (s.dev.die e).husk) ∧
         (∀ g, g / 8 ≠ d.val → t.ch g = s.dev.ch g) ∧ pkgState t = pkgState s.dev ∧
         (s.dev.vreqs = [] → s.dev.pget LEDGER_STAT_COUNT < 64 → t.ledger = s.dev.ledger.set (s.dev.pget LEDGER_STAT_WR)
           ⟨s.dev.line.nco.count, 8, 0, 1, d.val, pkgState s.dev, lineState s.dev, s.dev.pget LEDGER_NEXT_SEQ,
             BitVec.ofNat 32 (trainIndex s.dev d.val)⟩)) ∧
     (∀ u : State, u.dev.nDies = s.dev.nDies → (u.dev.die d.val).link.trained = true ∨ (u.dev.die d.val).link.failed = true ∨
       (u.dev.die d.val).up = false ∨ (u.dev.die 0).up = false → Does (.portTrainingDone d) u (· = u.dev))) ∧
  (∀ (s : State) (d : Die), Sound s → let t := publishDies s.dev
     let x := s.dev.die d.val
     pkgState t = pkgState s.dev ∧ t = { s.dev with regs := t.regs } ∧
     ((t.pget PKG_STATE_DIES_RUN).testBit d.val = (decide (d.val < s.dev.nDies) && x.up && !x.husk && x.ctl)) ∧
     ((t.pget PKG_STATE_DIES_HUSK).testBit d.val = (decide (d.val < s.dev.nDies) &&
       ((s.dev.pbit IMAGE_STAT_VALID && !x.hasDie) || x.link.badIndex || x.link.failed || x.recov.active ||
         x.recov.benched))) ∧
     (d.val < s.dev.nDies → t.dget d.val DIE_STAT_RUN = if x.up && !x.husk && x.ctl then 1 else 0))

/-- Silence and the loss of the lead die (R34, R35, R440). A port without a valid cell for 750 µs, 15,360 clocks, is silent. The
lead die latches SILENT, shows the port down, writes PORT_SILENT and starts the recovery of the die where it may recover;
another die holds over, and besides its bank's row nothing else changes. LEAD_HOLD ms after its last valid cell the hold-over
ends: every channel that switches is set to REST and pauses with cause 3 at the next boundary, every other channel stays as it
is. A stall (R29, R435): 2,560 clocks after a boundary without a heartbeat the die goes to husk, its gates go low and its
transmitters stop, so that no cell of it arrives; the lead die's rails go off with it; the cause and the count stand in
DIE_WDT; the channels of other dies and the package state stay. Before that, and on a die that has stalled already or is down,
nothing happens. It rests on the readings of notes/assumptions/28 and 30. -/
def Obligations.SilenceIsDeclaredAndHeldOver : Prop :=
  (∀ (s : State) (d : Die), Sound s → d.val < s.dev.nDies → d.val ≠ 0 →
     let x := s.dev.die d.val
     let held := x.link.holdOver = true ∧ s.dev.passed x.link.silentAt (msClocks x.leadMs) = true
     let quiet (heard : Option Nat) : Bool := heard.any fun c => s.dev.passed c 15360
     ((s.dev.die 0).up = true → x.link.trained = true → x.link.silent = false → quiet x.link.heardAt = true →
       ∃ u : Device, exec (.portSilent d false) s = exec (.dieRecoveryStart d .silence) { s with dev := u } ∧
         (u.pget LINK_STAT_SILENT).testBit d.val = true ∧ (LINK_STAT_UP.get (pkgView u 0xD1)).testBit d.val = false ∧
         u.die d.val = { x with link := { x.link with silent := true, heardAt := none } } ∧
         (s.dev.pget LEDGER_STAT_COUNT < 64 → u.ledger = s.dev.ledger.set (s.dev.pget LEDGER_STAT_WR) ⟨s.dev.line.nco.count, 8, 0, 4,
           d.val, pkgState s.dev, lineState s.dev, s.dev.pget LEDGER_NEXT_SEQ, 0⟩) ∧
         u.chans = s.dev.chans ∧ (∀ e, e ≠ d.val → u.die e = s.dev.die e) ∧ ∀ a, a ≠ 0xD1 → a ∉ eventWords → u.reg a = s.dev.reg a) ∧
     ((s.dev.die 0).up = false ∨ x.link.trained = false ∨ x.link.silent = true ∨ quiet x.link.heardAt = false → Does (.portSilent d false) s (· = s.dev)) ∧
     (x.up = true → x.link.upSilent = false → quiet x.link.upHeardAt = true → Does (.portSilent d true) s fun t =>
       DieOnly d.val (fun a => ownerOf a = d.val ∧ a < 0x3000) s.dev t ∧
       (t.die d.val).link = { x.link with upSilent := true, holdOver := true, silentAt := x.link.upHeardAt.getD 0, paused := false }) ∧
     (x.up = false ∨ x.link.upSilent = true ∨ quiet x.link.upHeardAt = false → Does (.portSilent d true) s (· = s.dev)) ∧
     (x.up = true → held → Does (.leadHoldExpiry d) s fun t =>
       (t.die d.val).link = { x.link with holdOver := false, paused := (List.range 64).any fun g => g / 8 == d.val && s.dev.cbit g CH_STAT_ACTIVE } ∧
       ∀ g, (g / 8 = d.val → s.dev.cbit g CH_STAT_ACTIVE = true → g < 64 → t.cget g CH_CTL_MODE = 0 ∧ (t.ch g).due.pause = 3 ∧
           (s.dev.cbit g CH_CTL_OVR = false → (t.ch g).lp.toRest = (s.dev.ch g).lp.gl)) ∧
         (g / 8 ≠ d.val ∨ s.dev.cbit g CH_STAT_ACTIVE = false → t.ch g = s.dev.ch g)) ∧
     (x.up = false ∨ ¬ held → Does (.leadHoldExpiry d) s (· = s.dev))) ∧
  (∀ (s : State) (d : Die), Sound s → d.val < s.dev.nDies →
     (alive (s.dev.die d.val) = true → 2560 ≤ (s.dev.die d.val).clk → Does (.dieWatchdogStall d) s fun t =>
       (t.die d.val).husk = true ∧ (t.die d.val).up = true ∧ (t.die d.val).recov.stallLatched = true ∧
       t.dget d.val DIE_WDT_CAUSE = 1 ∧ t.dget d.val DIE_WDT_STALLS = min (s.dev.dget d.val DIE_WDT_STALLS + 1) 255 ∧
       (t.pget PKG_STATE_DIES_RUN).testBit d.val = false ∧ (arrives t d.val = false ∨ d.val = 0 ∧ answers t = false) ∧ (d.val = 0 → ∀ r, r < 3 → auxOn t r = false) ∧
       (∀ g, g < 64 → g / 8 = d.val → (t.ch g).lp.gl = false ∧ t.cget g CH_STAT_ACTIVE = 0 ∧ (t.ch g).acc = (s.dev.ch g).acc) ∧
       (∀ g, g / 8 ≠ d.val → t.ch g = s.dev.ch g) ∧ pkgState t = pkgState s.dev) ∧
     (alive (s.dev.die d.val) = false ∨ (s.dev.die d.val).clk < 2560 → Does (.dieWatchdogStall d) s (· = s.dev)))

/-- Die recovery (R32, R387, R437, R438). It starts on a die that may recover: RECOV_STAT names the die and the cause, the die's
main domain stops, in husk and untrained, its leases are gone, and the package state stays. A start within STABLE seconds of
the last return counts that attempt as failed. MAIN_DOMAIN_START with no start of the package pending brings the recovering
dies up, in husk. The recovery ends at a frame boundary, with the port trained, the retention decided, the accumulation
running and booked and no section outstanding, with the die under its step engines. After 100 ms an attempt fails, leaves the
die down and counts in FAILS; the third failure benches the die out. STABLE seconds under control set FAILS to 0. It rests on
the readings of notes/assumptions/29. -/
def Obligations.DiesRecoverOrAreBenchedOut : Prop :=
  ∀ (s : State) (d : Die), Sound s → d.val < s.dev.nDies →
    let x := s.dev.die d.val
    let span := secClocks (s.dev.pget FAULT_CFG_STABLE)
    let again := x.recov.doneAt.any fun t => !s.dev.passed t span
    let stable := x.ctl && x.recov.ctlAt.any fun t => s.dev.passed t span
    let late := x.recov.trying = true ∧ s.dev.passed x.recov.since (msClocks 100) = true
    let back := x.recov.trying = true ∧ x.up = true ∧ x.link.trained = true ∧ x.decided = true ∧ x.seeded = true ∧ x.fetch = [] ∧
      s.dev.clk = 0 ∧ (x.booked.any fun f => decide (f < s.dev.frame)) = true
    (∀ cause, recoverable d.val s.dev = true → (again = false ∨ s.dev.dget d.val DIE_WDT_FAILS < 2) →
      Does (.dieRecoveryStart d cause) s fun t =>
      t.pget RECOV_STAT_LAST_DIE = d.val ∧ t.pget RECOV_STAT_LAST_CAUSE = causeCode cause ∧ t.pget RECOV_STAT_REC_EVT = 1 ∧
      (t.pget RECOV_STAT_IN_RECOVERY).testBit d.val = true ∧ (t.pget PKG_STATE_DIES_HUSK).testBit d.val = true ∧
      (t.die d.val).up = false ∧ (x.up = true → (t.die d.val).husk = true ∧ (t.die d.val).ctl = false) ∧
      (t.die d.val).link.trained = false ∧ (t.die d.val).recov = { x.recov with
        active := true, trying := true, since := s.dev.now, doneAt := none, ctlAt := none } ∧
      (∀ g, g < 64 → g / 8 = d.val → (t.ch g).lease.inForce = false) ∧
      (again = true → t.dget d.val DIE_WDT_FAILS = s.dev.dget d.val DIE_WDT_FAILS + 1) ∧
      (∀ e, e < s.dev.nDies → e ≠ d.val → (t.die e).up = (s.dev.die e).up) ∧ pkgState t = pkgState s.dev) ∧
    (∀ cause, recoverable d.val s.dev = true → again = true → 2 ≤ s.dev.dget d.val DIE_WDT_FAILS →
      Does (.dieRecoveryStart d cause) s fun t => (t.die d.val).up = false ∧ (t.die d.val).recov.benched = true ∧
        (t.pget LINK_STAT_BENCHED).testBit d.val = true ∧ pkgState t = pkgState s.dev) ∧
    (∀ cause, recoverable d.val s.dev = false → Does (.dieRecoveryStart d cause) s (· = s.dev)) ∧
    (∀ tmode, s.dev.supply.start = none → (s.dev.die 0).up = true → Does (.mainDomainStart tmode) s fun t =>
      pkgState t = pkgState s.dev ∧ (x.recov.trying = true → x.up = false → (t.die d.val).up = true ∧ (t.die d.val).husk = true ∧
        (t.die d.val).recov = { x.recov with stalled := false }) ∧
      (x.recov.trying = false ∨ x.up = true → t.die d.val = x ∧ ∀ g, g < 64 → g / 8 = d.val → t.ch g = s.dev.ch g)) ∧
    (back → Does (.dieRecoveryDone d) s fun t =>
      (t.die d.val).ctl = true ∧ (t.die d.val).husk = (!x.hasDie || x.link.badIndex) ∧
      (t.die d.val).recov = { x.recov with
        active := false, trying := false, doneAt := some s.dev.now, ctlAt := some s.dev.now, stallLatched := false } ∧
      (t.pget RECOV_STAT_IN_RECOVERY).testBit d.val = false ∧ pkgState t = pkgState s.dev) ∧
    (late → s.dev.dget d.val DIE_WDT_FAILS < 2 → Does (.recoveryTimeout d) s fun t =>
      (t.die d.val).up = false ∧ (t.die d.val).recov = { x.recov with trying := false } ∧
      t.dget d.val DIE_WDT_FAILS = s.dev.dget d.val DIE_WDT_FAILS + 1 ∧ pkgState t = pkgState s.dev) ∧
    (late → 2 ≤ s.dev.dget d.val DIE_WDT_FAILS → Does (.recoveryTimeout d) s fun t =>
      (t.die d.val).up = false ∧ (t.die d.val).recov.benched = true ∧ (t.die d.val).recov.active = false ∧
      (t.pget LINK_STAT_BENCHED).testBit d.val = true ∧ t.pget RECOV_STAT_BENCH_EVT = 1 ∧
      (t.pget RECOV_STAT_IN_RECOVERY).testBit d.val = false ∧ pkgState t = pkgState s.dev) ∧
    (¬ back → Does (.dieRecoveryDone d) s (· = s.dev)) ∧ (¬ late → Does (.recoveryTimeout d) s (· = s.dev)) ∧
    (stable = true → Does (.recoveryStable d) s fun t => DieOnly d.val (· = dieAddr d.val 0x50) s.dev t ∧
      t.dget d.val DIE_WDT_FAILS = 0 ∧ t.die d.val = { x with recov := { x.recov with doneAt := none } }) ∧
    (stable = false → Does (.recoveryStable d) s (· = s.dev))

/-- The latched protections (R86, R92 to R97). OCP, OVP, RVP and a host stop set their bit of CH_FAULT whatever the channel does,
FIRST takes the first stopping fault, the lowest code of several on one clock, and a switching channel stops: gates low,
command, current integrator and trim cleared. A bit that stands already adds no entry. Counting goes on, and the channel's
range, mode and setpoints stay. Undervoltage and overvoltage of a die (R71, R92). VDRV_UV sets its bit on every channel of the
die and stops those that switch, and none starts while it lasts; at its end a step that it suspended asks for its slot again,
or goes on at the frame boundary where it needs no current (R236, R244); BUS_OV stops exactly the channels that switch with a
discharge current; both end without clearing a flag. It rests on the readings of notes/assumptions/43 and 61. -/
def Obligations.ProtectionsLatchAndStop : Prop :=
  (∀ (s : State) (g : Ch), Sound s → g.val / 8 < s.dev.nDies → (s.dev.die (g.val / 8)).up = true →
     ∀ p ∈ [(0, Instr.ocpTrip g), (1, .ovpTrip g), (2, .rvpTrip g), (4, .hstop g)], Does p.2 s fun t =>
       let f := s.dev.reg (chAddr g.val 2)
       (t.reg (chAddr g.val 2)).toNat % 65536 = f.toNat % 65536 ||| 2 ^ p.1 ∧
       t.cget g.val CH_FAULT_FIRST = (if f.toNat % 32 = 0 ∨ (f.toNat.testBit p.1 = false ∧ (s.dev.ch g.val).lp.firstAt = s.dev.now ∧
         p.1 + 1 < s.dev.cget g.val CH_FAULT_FIRST) then p.1 + 1 else s.dev.cget g.val CH_FAULT_FIRST) ∧
       (t.ch g.val).lp.gl = false ∧ (t.ch g.val).acc = (s.dev.ch g.val).acc ∧
       ((s.dev.ch g.val).lp.gl = true → (t.ch g.val).lp.cmd = 0 ∧ (t.ch g.val).lp.iint = 0 ∧ (t.ch g.val).lp.pTrim = 0 ∧
         t.cget g.val CH_STAT_ACTIVE = 0 ∧ t.cget g.val CH_DUTY = 0) ∧
       ((s.dev.ch g.val).lp.gl = false → f.toNat.testBit p.1 = true → t = s.dev) ∧
       (f.toNat.testBit p.1 = false → (irqStatus t).testBit 2 = true) ∧
       (∀ off ∈ [0x00, 0x08, 0x09, 0x0A, 0x1F], t.reg (chAddr g.val off) = s.dev.reg (chAddr g.val off)) ∧
       OnlyChannel g.val s.dev t) ∧
  (∀ (s : State) (d : Die), Sound s → d.val < s.dev.nDies →
     ((s.dev.die d.val).up = true → Does (.vdrvUv d) s fun t => (t.die d.val).vdrvBad = true ∧
       (∀ g, g < 64 → g / 8 = d.val → t.cget g CH_FAULT_VDRV_UV = 1 ∧ (t.ch g).lp.gl = false ∧ startChecks t g = false ∧
         (s.dev.ch g).acc = (t.ch g).acc) ∧ ∀ g, g / 8 ≠ d.val → t.ch g = s.dev.ch g) ∧
     ((s.dev.die d.val).up = true → (s.dev.die d.val).vdrvBad = true → Does (.vdrvRecover d) s fun t =>
       (t.die d.val).vdrvBad = false ∧ (∀ g, g < 64 → g / 8 = d.val → (t.ch g).lp.vdrvHeld = false ∧
         t.reg (chAddr g 2) = s.dev.reg (chAddr g 2) ∧
         (engState s.dev g = EngSt.suspended → s.dev.cget g CH_STAT_SUSP_CAUSE = 3 → pkgState s.dev ≠ Pkg.test → bandCause s.dev g = 0 →
           curStep s.dev g ≠ none → engState t g = (if needsCurrent (curType s.dev g) ∨ s.dev.clk ≠ 0 then EngSt.wait else EngSt.running))) ∧
       ∀ g, g / 8 ≠ d.val → t.ch g = s.dev.ch g) ∧
     ((s.dev.die d.val).up = true → Does (.busOv d) s fun t => (t.die d.val).busOvNow = true ∧
       ∀ g, g < 64 → (g / 8 = d.val ∧ (s.dev.ch g).lp.gl = true ∧ (s.dev.ch g).lp.iM < 0 →
           t.cget g CH_FAULT_BUS_OV = 1 ∧ (t.ch g).lp.gl = false ∧ (t.ch g).lp.busOvHeld = true) ∧
         (g / 8 ≠ d.val ∨ (s.dev.ch g).lp.gl = false ∨ 0 ≤ (s.dev.ch g).lp.iM →
           t.ch g = s.dev.ch g ∧ t.reg (chAddr g 2) = s.dev.reg (chAddr g 2))) ∧
     ((s.dev.die d.val).up = true → Does (.busOvClear d) s fun t => (t.die d.val).busOvNow = false ∧
       ∀ g, g < 64 → ((s.dev.ch g).lp.busOvHeld = true ∧ g / 8 = d.val → (t.ch g).lp.busOvHeld = false) ∧
         t.reg (chAddr g 2) = s.dev.reg (chAddr g 2) ∧
         ((s.dev.ch g).lp.busOvHeld = false ∨ g / 8 ≠ d.val → t.ch g = s.dev.ch g)) ∧
     ((s.dev.die d.val).up = false → ∀ c ∈ [Instr.vdrvUv d, .vdrvRecover d, .busOv d, .busOvClear d], Does c s (· = s.dev)))

/-- A switching period (R70, R73, R77, R79, R85, R87). A channel whose gates are low has none, and there is none but at the first
clock at or after a tick T with (T − PHASE · floor(PER / 8)) mod PER = 0. A ramp to REST that has reached zero turns the gates
low. Otherwise the on-time computed before comes into force, skipped for the bootstrap or below its least value, with the four
gate edges of the period; and in CC, with no clamp, no stop and no excitation, the target is ISET within ±ILIM, the command
moves towards it by at most SLEW, at once with SLEW 0, and SLEWING shows the rest of the way. The compliance clamp and the
fast sample (R89, R90, R109). The clamp of a switching channel whose V_F lies above VCOMPLY or below VFLOOR, at the command or
at a fast sample, sets the command to its side of zero without slew, ends the pulse in progress and shows LOOP 3. A fast
sample, 4 clocks after its window, shows V_F and adds one word to the loop's means on every die that is up and nothing on the
others, nor at any other clock; a sample in blanking counts towards no criterion, and the eighth in a row inside the limits
releases the clamp. It rests on the readings of notes/assumptions/41, 42, 61 and 77. -/
def Obligations.LoopsComputeOncePerPeriod : Prop :=
  (∀ (s : State) (g : Ch) (boot : Bool), Sound s → g.val / 8 < s.dev.nDies →
     let l := (s.dev.ch g.val).lp
     (l.gl = false ∨ periodDue s.dev g.val = false → Does (.switchingPeriod g boot) s (· = s.dev)) ∧
     (l.gl = true → periodDue s.dev g.val = true → l.toRest = true → l.cmd = 0 → l.iM.natAbs < 32768 → Does (.switchingPeriod g boot) s fun t =>
       (t.ch g.val).lp.gl = false ∧ t.cget g.val CH_STAT_ACTIVE = 0 ∧ t.cget g.val CH_DUTY = 0 ∧
       (t.ch g.val).acc = (s.dev.ch g.val).acc ∧ OnlyChannel g.val s.dev t) ∧
     (l.gl = true → periodDue s.dev g.val = true → l.toRest = false → l.ctStop = false → l.clamp = 0 → (s.dev.ch g.val).acir.env = 0 →
       (s.dev.ch g.val).acir.envTgt = 0 → modeOf s.dev g.val = 1 → (s.dev.die (g.val / 8)).busOvNow = false →
       Does (.switchingPeriod g boot) s fun t =>
         let lim := ilimOf s.dev g.val
         let tgt := clampInt (-lim) lim (iWord (s.dev.ch g.val).conv.kq (isetOf s.dev g.val))
         let slew : Int := s.dev.cget g.val CH_SLEW
         let cmd := if slew = 0 then tgt else l.cmd + clampInt (-slew) slew (tgt - l.cmd)
         let skip := boot || l.ton == 0
         t.cget g.val CH_DUTY = (if skip then 0 else l.ton % 131072) ∧ t.cget g.val CH_STAT_SKIP = (if skip then 1 else 0) ∧
         t.cget g.val CH_STAT_SAT = (if l.satNext && !boot then 1 else 0) ∧ (boot = true → t.cget g.val CH_FAULT_BOOT_UV = 1) ∧
         (t.ch g.val).lp.gl = true ∧ (t.ch g.val).lp.tgt = tgt ∧ (t.ch g.val).lp.cmd = cmd ∧ (t.ch g.val).lp.vint = l.vint ∧
         t.cget g.val CH_STAT_LOOP = 1 ∧ t.cget g.val CH_STAT_SLEWING = (if cmd = tgt then 0 else 1) ∧
         (t.ch g.val).lp.edges = (if skip then [] else let lh := s.dev.cfrc g.val CH_DT_LH
           [0, lh, lh + l.ton, lh + l.ton + s.dev.cfrc g.val CH_DT_HL]) ∧
         (tonLo s.dev g.val ≤ tonHi s.dev g.val → (t.ch g.val).lp.ton = 0 ∨
           (tonLo s.dev g.val ≤ (t.ch g.val).lp.ton ∧ (t.ch g.val).lp.ton ≤ tonHi s.dev g.val)) ∧ OnlyChannel g.val s.dev t)) ∧
  (∀ (s : State) (g : Ch), Sound s → g.val / 8 < s.dev.nDies →
     let l := (s.dev.ch g.val).lp
     let vf := 6 * s.dev.cget g.val CH_VFORCE
     let beyond (upper : Bool) : Bool :=
       if upper then decide (10 * s.dev.cget g.val CH_COMPLY_VCOMPLY < vf) else decide (vf < 10 * s.dev.cget g.val CH_COMPLY_VFLOOR)
     let now := 32 * periodTick s.dev g.val
     (∀ upper, l.gl = true → beyond upper = true → Does (.complianceClamp g upper) s fun t => t.cget g.val CH_STAT_LOOP = 3 ∧
       t.ch g.val = { s.dev.ch g.val with lp := { l with
         clamp := if upper then 1 else 2, clampOk := 0, cmd := if upper then min l.cmd 0 else max l.cmd 0
         edges := (t.ch g.val).lp.edges } } ∧
       (upper = true → ∀ a b c e, l.edges = [a, b, c, e] → b ≤ now → now < c → (t.ch g.val).lp.edges = [a, b, now, now + (e - c)]) ∧
       (upper = false → ∀ a b c e, l.edges = [a, b, c, e] → e ≤ now → (t.ch g.val).lp.edges = [a, b, c, e, now]) ∧
       ChanOnly g.val (· = chAddr g.val 1) s.dev t) ∧
     (∀ upper, l.gl = false ∨ beyond upper = false → Does (.complianceClamp g upper) s (· = s.dev)) ∧
     (∀ vf, (s.dev.die (g.val / 8)).up = true → (s.dev.die (g.val / 8)).fastDue = true → s.dev.clk % 16 = 3 → Does (.fastSample vf) s fun t =>
       t.cget g.val CH_VFORCE = nth vf g.val % 1024 ∧ (t.ch g.val).lp.nFast = l.nFast + 1 ∧
       (t.ch g.val).acc = (s.dev.ch g.val).acc ∧
       (l.gl = true → l.ctStop = false → 0 < l.blank → (t.ch g.val).lp.blank = l.blank - 1 ∧ (t.ch g.val).lp.ct1 = l.ct1 ∧
         (t.ch g.val).lp.vfHist = l.vfHist ∧ t.reg (chAddr g.val 2) = s.dev.reg (chAddr g.val 2)) ∧
       (l.gl = true → l.ctStop = false → 0 < l.blank → l.clamp ≠ 0 → clampInside s.dev g.val (nth vf g.val % 1024) = true →
         if 7 ≤ l.clampOk then (t.ch g.val).lp.clamp = 0 else (t.ch g.val).lp.clamp = l.clamp) ∧
       (l.gl = true → l.ctStop = false → 0 < l.blank → 10 * s.dev.cget g.val CH_COMPLY_VCOMPLY < 6 * (nth vf g.val % 1024) →
         (t.ch g.val).lp.clamp = 1 ∧ (t.ch g.val).lp.cmd ≤ 0 ∧ t.cget g.val CH_STAT_LOOP = 3) ∧
       (l.gl = true → l.ctStop = false → 0 < l.blank → 6 * (nth vf g.val % 1024) ≤ 10 * s.dev.cget g.val CH_COMPLY_VCOMPLY →
         6 * (nth vf g.val % 1024) < 10 * s.dev.cget g.val CH_COMPLY_VFLOOR →
         (t.ch g.val).lp.clamp = 2 ∧ 0 ≤ (t.ch g.val).lp.cmd ∧ t.cget g.val CH_STAT_LOOP = 3)) ∧
     (∀ vf, (s.dev.die (g.val / 8)).up = false ∨ (s.dev.die (g.val / 8)).fastDue = false ∨ s.dev.clk % 16 ≠ 3 →
       Does (.fastSample vf) s fun t => t.ch g.val = s.dev.ch g.val))

/-- Modes, setpoints and limits (R75, R82, R87, R88, R101, R102). CH_PWM and CH_DT read back at once as stored and come into force
only while the gates are low. Setpoints and RANGE_SEL are the host's only under override. An override brings its mode into
force, and its end the step engine's mode and setpoints. A forced change to range H, after 4 words above 15/16 of full scale,
waits for the boundary, and an overload, 16 words within 1/64 of it, latches its flag. It rests on the readings of
notes/assumptions/61. -/
def Obligations.HostValuesCountUnderOverride : Prop :=
  ∀ (s : State) (g : Ch), Sound s → g.val / 8 < s.dev.nDies →
    let l := (s.dev.ch g.val).lp
    let ovr := s.dev.cget g.val CH_CTL_OVR
    (∀ (dt : Bool) (w : Word), Does (.pwmWrite g dt w) s fun t =>
      let a := chAddr g.val (if dt then 0x15 else 0x14)
      t.reg a = (if dt then dtStored w else pwmStored w) ∧ t.frc a = (if l.gl then s.dev.frc a else t.reg a) ∧
      t = { s.dev with regs := t.regs, force := t.force } ∧ ∀ b, b ≠ a → t.reg b = s.dev.reg b ∧ t.frc b = s.dev.frc b) ∧
    (ovr = 0 → ∀ r w low, Does (.setpointWrite g r w) s (· = s.dev) ∧ Does (.rangeSelWrite g low) s (· = s.dev)) ∧
    (ovr = 1 → ∀ w low, Does (.setpointWrite g .iset w) s (WordOnly (chAddr g.val 8) w s.dev) ∧
      Does (.setpointWrite g .vset w) s (WordOnly (chAddr g.val 9) (if w.toNat ≤ 6000000 then w else 6000000#32) s.dev) ∧
      Does (.setpointWrite g .pset w) s (WordOnly (chAddr g.val 10) w s.dev) ∧
      Does (.rangeSelWrite g low) s fun t => t.cget g.val CH_SENSE_RANGE_SEL = (if low then 1 else 0) ∧
        (t.ch g.val).due.range = some low ∧ t.cget g.val CH_SENSE_RANGE = s.dev.cget g.val CH_SENSE_RANGE ∧
        ChanOnly g.val (· = chAddr g.val 0x1F) s.dev t) ∧
    (∀ w, CH_CTL_OVR.get w = 1 → Does (.overrideChange g w) s fun t => t.cget g.val CH_CTL_OVR = 1 ∧
      t.cget g.val CH_CTL_MODE = CH_CTL_OVR_MODE.get w ∧ t.cget g.val CH_CTL_OVR_MODE = CH_CTL_OVR_MODE.get w ∧
      (∀ off ∈ [0x08, 0x09, 0x0A], t.reg (chAddr g.val off) = s.dev.reg (chAddr g.val off)) ∧ OnlyChannel g.val s.dev t) ∧
    (∀ w, CH_CTL_OVR.get w = 0 → ovr = 1 → pkgState s.dev ≠ Pkg.test → Does (.overrideChange g w) s fun t =>
      t.cget g.val CH_CTL_OVR = 0 ∧ t.cget g.val CH_CTL_MODE = l.engMode % 8 ∧ t.reg (chAddr g.val 8) = wordOfInt l.engI ∧
      t.reg (chAddr g.val 9) = BitVec.ofNat 32 l.engV ∧ t.reg (chAddr g.val 10) = wordOfInt l.engP ∧
      OnlyChannel g.val s.dev t) ∧
    (s.dev.cget g.val CH_SENSE_RANGE = 1 → uprangeNow s.dev g.val = true → Does (.uprange g) s fun t => (t.ch g.val).due.range = some false ∧
      t.cget g.val CH_SENSE_UPRANGE_EVT = 1 ∧ t.cget g.val CH_SENSE_RANGE = 1 ∧
      ChanOnly g.val (· = chAddr g.val 0x1F) s.dev t) ∧
    (s.dev.cget g.val CH_SENSE_RANGE = 0 ∨ uprangeNow s.dev g.val = false → Does (.uprange g) s (· = s.dev)) ∧
    (∀ volt, overloadNow s.dev g.val volt = false → Does (.overloadDetect g volt) s (· = s.dev)) ∧
    (∀ volt, (s.dev.die (g.val / 8)).up = true → overloadNow s.dev g.val volt = true → Does (.overloadDetect g volt) s fun t =>
      t.cget g.val (if volt then CH_SENSE_OVLD_V else CH_SENSE_OVLD_I) = 1 ∧ OnlyChannel g.val s.dev t ∧
      (s.dev.cget g.val (if volt then CH_SENSE_OVLD_V else CH_SENSE_OVLD_I) = 0 → (irqStatus t).testBit 2 = true))

/-- The housekeeping converter (R105, R113, R115). The conversion of position p, of the 32 in a turn of 640 clocks, ends 20 (p +
1) clocks into the turn and stores its result, once; position 31 converts nothing, nor do 3 to 23 in steps of 4 off the lead
die; a thermistor code goes to its channel, a VREFX code outside its window marks VREFX bad and ends the run of passed checks,
a zero above 8 LSB lengthens its run, a VBUS code shows in PATH_STAT; a die whose main domain is off converts nothing. The
reference of a die (R105, R106, R115). The check's eight failures or its 32,000 passes make the switch wait for the next
boundary, with MODE 0 only; eight bad readings of the converter mark every reading invalid once, with SAR_FAIL in the ledger's
staging or ring. It rests on the readings of notes/assumptions/33, 41, 65 and 77. -/
def Obligations.ConversionsFollowTheSequence : Prop :=
  (∀ (s : State) (d : Die) (code : Nat), Sound s → d.val < s.dev.nDies →
     let x := s.dev.die d.val
     let c := code % 4096
     let p := (s.dev.clk / 20 + 31) % 32
     let ends : Prop := s.dev.clk % 20 = 0 ∧ s.dev.clk ≠ 0 ∧ p ≠ 31 ∧ (d.val = 0 ∨ p % 4 ≠ 3 ∨ p = 27) ∧ x.sar.lastAt ≠ s.dev.now
     (x.up = true → ends → Does (.sarConversion d code) s fun t =>
       (t.die d.val).sar.pos = (p + 1) % 32 ∧ (t.die d.val).sar.lastAt = s.dev.now ∧ (t.die d.val).sar.codes = x.sar.codes.set p c ∧
       (∀ e, e ≠ d.val → t.die e = s.dev.die e) ∧ (d.val ≠ 0 → ∀ g, g / 8 ≠ d.val → t.ch g = s.dev.ch g) ∧
       (p % 4 = 1 → (t.ch (8 * d.val + p / 4)).eng.ntc =
         (c :: (s.dev.ch (8 * d.val + p / 4)).eng.ntc).take 8) ∧
       (p = 26 → t.dget d.val BENCH_REF_VREFX_BAD = if 3244 ≤ c ∧ c ≤ 3309 ∧ s.dev.dbit d.val BENCH_STAT_SAR_FAIL = false
         then 0 else 1) ∧
       (p = 26 → (t.die d.val).sar.vxBad = (if 3244 ≤ c ∧ c ≤ 3309 ∧ s.dev.dbit d.val BENCH_STAT_SAR_FAIL = false then 0
         else x.sar.vxBad + 1) ∧ (t.die d.val).sar.vxOk = (if 3244 ≤ c ∧ c ≤ 3309 ∧
         s.dev.dbit d.val BENCH_STAT_SAR_FAIL = false then x.sar.vxOk + 1 else 0)) ∧
       (p = 27 → (t.die d.val).sar.zeroRun = if 8 < c then x.sar.zeroRun + 1 else 0) ∧
       (p % 4 = 0 → d.val = 0 → t.pget PATH_STAT_VBUS_RD = c) ∧
       (d.val ≠ 0 → p ≠ 10 → p ≠ 26 → t.regs = s.dev.regs)) ∧
     (x.up = false ∨ ¬ ends → Does (.sarConversion d code) s (· = s.dev))) ∧
  (∀ (s : State) (d : Die), Sound s → d.val < s.dev.nDies →
     let x := s.dev.die d.val
     (x.up = true → s.dev.dbit d.val BENCH_REF_MODE = false → x.refInt = false → 8 ≤ x.sar.vxBad → Does (.vrefxFailSwitch d) s fun t =>
       DieOnly d.val noWord s.dev t ∧ t.die d.val = { x with refDue := some true }) ∧
     (x.up = true → s.dev.dbit d.val BENCH_REF_MODE = false → x.refInt = true → 32000 ≤ x.sar.vxOk → Does (.vrefxReturnSwitch d) s fun t =>
       DieOnly d.val noWord s.dev t ∧ t.die d.val = { x with refDue := some false }) ∧
     (x.up = false ∨ s.dev.dbit d.val BENCH_REF_MODE = true ∨ x.sar.vxBad < 8 → Does (.vrefxFailSwitch d) s (· = s.dev)) ∧
     (x.up = false ∨ s.dev.dbit d.val BENCH_REF_MODE = true ∨ x.sar.vxOk < 32000 → Does (.vrefxReturnSwitch d) s (· = s.dev)) ∧
     (x.up = true → s.dev.dbit d.val BENCH_STAT_SAR_FAIL = false → 8 ≤ x.sar.zeroRun ∨ 8 ≤ x.sar.refRun → Does (.sarFail d) s fun t =>
       t.dbit d.val BENCH_STAT_SAR_FAIL = true ∧ (irqStatus t).testBit 10 = true ∧ t.chans = s.dev.chans ∧
       ∀ a, a ≠ dieAddr d.val 0x14 → a ∉ eventWords → t.reg a = s.dev.reg a) ∧
     (x.up = false ∨ s.dev.dbit d.val BENCH_STAT_SAR_FAIL = true ∨ (x.sar.zeroRun < 8 ∧ x.sar.refRun < 8) → Does (.sarFail d) s (· = s.dev)))

/-- A visit of the bench (R116, R118, R119, R121, R124, R129). In LOAD and in a recovery the seeds start the count of the die's
channels, whose constants follow at the next boundary. A visit starts on the forced channel, else the first queued, else the
next in rotation, takes its timing fields into force and holds the baton; the inputs close when the self-calibration has run
its frames; from the frame boundary T1 on the bench carries the channel as an epoch of cause bit 0, unless a window defers it;
a window never defers a forced visit. It rests on the readings of notes/assumptions/40 and 60. -/
def Obligations.BenchVisitsTakeCustody : Prop :=
  ∀ (s : State) (d : Die), Sound s → d.val < s.dev.nDies →
    let x := s.dev.die d.val
    let b := x.bench
    let g := 8 * d.val + benchCh s.dev d.val
    (∀ seeds f, x.up = true → x.seeded = false → x.seedAt = some f → f + 128 ≤ s.dev.frame →
      pkgState s.dev = Pkg.load ∨ x.recov.trying = true → Does (.seedingEnd d seeds) s fun t => (t.die d.val).seeded = true ∧
      t = { s.dev with dies := t.dies, chans := t.chans } ∧ (∀ e, e ≠ d.val → t.die e = s.dev.die e) ∧
      ∀ h, h < 64 → t.ch h = if h / 8 = d.val then { s.dev.ch h with due := { (s.dev.ch h).due with start := true } } else s.dev.ch h) ∧
    (∀ seeds, x.up = false ∨ x.seeded = true ∨ x.seedAt = none ∨ (∃ f, x.seedAt = some f ∧ s.dev.frame < f + 128) ∨
      (pkgState s.dev ≠ Pkg.load ∧ x.recov.trying = false) → Does (.seedingEnd d seeds) s (· = s.dev)) ∧
    (visitMayStart s.dev d.val = true → Does (.benchVisitStart d) s fun t =>
      benchPhase t d.val = 1 ∧ benchCh t d.val = (visitChoice b).1 % 8 ∧ (t.die d.val).bench.forceCh = none ∧
      (t.die d.val).bench.queue = (if b.forceCh = none then b.queue.tail else b.queue) ∧
      t.frc (dieAddr d.val 0x11) = s.dev.reg (dieAddr d.val 0x11) ∧ t.frc (dieAddr d.val 0x12) = s.dev.reg (dieAddr d.val 0x12) ∧
      t.pgetBit BATON_STAT_BENCH_HELD d.val = true ∧ t.chans = s.dev.chans) ∧
    (visitMayStart s.dev d.val = false → Does (.benchVisitStart d) s (· = s.dev)) ∧
    (Does (.benchConnect d) s fun t => benchPhase t d.val = (if benchPhase s.dev d.val = 1 ∧ selfcalOver s.dev d.val = true ∧
        pkgState s.dev = Pkg.run then 2 else benchPhase s.dev d.val) ∧ RegsOnly (· = dieAddr d.val 0x14) s.dev t) ∧
    (benchPhase s.dev d.val = 3 → s.dev.clk = 0 → b.t1 ≤ s.dev.frame → (b.forced = true ∨ windowBefore s.dev g (s.dev.frame + holdF s.dev d.val + ovlF s.dev d.val)
        = false) → Does (.benchTakeover d) s fun t => benchPhase t d.val = 4 ∧ t.cget g CH_SENSE_CARRIER = 1 ∧
      t.dbit d.val BENCH_STAT_CUSTODY = true ∧ t.dbit d.val BENCH_STAT_DEFER = false ∧
      (t.cget g EPOCH_STAT_CAUSE).testBit 0 = true ∧ (t.ch g).acc.frac = (s.dev.ch g).acc.frac ∧
      (t.ch g).acc.rawqIn = (s.dev.ch g).acc.rawqIn ∧ (t.ch g).acc.fq = (s.dev.ch g).acc.fq ∧ ∀ h, h ≠ g → t.ch h = s.dev.ch h) ∧
    (benchPhase s.dev d.val = 3 → s.dev.clk = 0 → b.t1 ≤ s.dev.frame → b.forced = false → windowBefore s.dev g (s.dev.frame + holdF s.dev d.val + ovlF s.dev d.val)
        = true → Does (.benchTakeover d) s (WordOnly (dieAddr d.val 0x14)
          (BENCH_STAT_DEFER.put 1 (s.dev.reg (dieAddr d.val 0x14))) s.dev)) ∧
    (benchPhase s.dev d.val ≠ 3 ∨ s.dev.clk ≠ 0 ∨ s.dev.frame < b.t1 → Does (.benchTakeover d) s (· = s.dev))

/-- The ends of a visit (R107, R121, R123 to R125, R433, R434). A self-calibration of TSELF frames beyond its bounds sets FAIL,
ends the visit and stops the rotation; hand-back at T2 gives custody back to the channel and ends the visit; an abort is
flagged, and in custody waits 16 frames longer than elsewhere; a forced visit aborts the one in progress; the baton's expiry,
64 frames after the planned T2, aborts the visit with its entry's event bit. It rests on the readings of notes/assumptions/40,
53 and 60. -/
def Obligations.BenchVisitsEnd : Prop :=
  ∀ (s : State) (d : Die), Sound s → d.val < s.dev.nDies →
    let x := s.dev.die d.val
    let b := x.bench
    let g := 8 * d.val + benchCh s.dev d.val
    (∀ res, benchPhase s.dev d.val = 1 → selfcalOver s.dev d.val = true →
      ([res.iH, res.iL, res.v].any ofsBad || [res.iH, res.iL, res.v].any gainBad) = true →
      Does (.benchSelfcalEnd d res) s fun t => t.dbit d.val BENCH_STAT_FAIL = true ∧ benchPhase t d.val = 0 ∧
        t.pgetBit BATON_STAT_BENCH_HELD d.val = false ∧ visitMayStart t d.val = false ∧ t.chans = s.dev.chans) ∧
    (∀ res, benchPhase s.dev d.val = 1 → selfcalOver s.dev d.val = true →
      ([res.iH, res.iL, res.v].any ofsBad || [res.iH, res.iL, res.v].any gainBad) = false →
      Does (.benchSelfcalEnd d res) s fun t => (t.die d.val).bench = { b with
          ob := [res.iH.ofs, res.iL.ofs, res.v.ofs], gb := [res.iH.gain, res.iL.gain, res.v.gain] } ∧
        (x.refInt = true → t.reg (dieAddr d.val 0x17) = s.dev.reg (dieAddr d.val 0x17)) ∧ t.chans = s.dev.chans) ∧
    (∀ res, benchPhase s.dev d.val ≠ 1 ∨ selfcalOver s.dev d.val = false → Does (.benchSelfcalEnd d res) s (· = s.dev)) ∧
    (∀ res, benchPhase s.dev d.val = 5 → s.dev.clk = 0 → b.t2 ≤ s.dev.frame → Does (.benchHandback d res) s fun t => benchPhase t d.val = 0 ∧
      t.cget g CH_SENSE_CARRIER = 0 ∧ t.dbit d.val BENCH_STAT_CUSTODY = false ∧ (t.cget g EPOCH_STAT_CAUSE).testBit 0 = true ∧
      (t.ch g).conv.fCarryI = 2 ^ 40 ∧ (t.ch g).conv.fCarryV = 2 ^ 40 ∧ (t.ch g).acc.frac = (s.dev.ch g).acc.frac ∧
      (t.ch g).acc.rawqIn = (s.dev.ch g).acc.rawqIn ∧ (t.die d.val).bench.gcLast = b.gcLast.set (benchCh s.dev d.val) res ∧
      (x.refInt = true → (t.ch g).conv.fBenchIH = (s.dev.ch g).conv.fBenchIH ∧ (t.ch g).conv.fBenchV =
        (s.dev.ch g).conv.fBenchV) ∧ ∀ h, h ≠ g → t.ch h = s.dev.ch h) ∧
    (∀ res, benchPhase s.dev d.val ≠ 5 ∨ s.dev.clk ≠ 0 ∨ s.dev.frame < b.t2 → Does (.benchHandback d res) s (· = s.dev)) ∧
    (∀ cause, benchPhase s.dev d.val ∉ [0, 6] → Does (.benchAbort d cause) s fun t => benchPhase t d.val = 6 ∧
      t.dbit d.val BENCH_STAT_ABORT_EVT = true ∧ t.dbit d.val BENCH_STAT_DEFER = false ∧ t.die d.val = { x with bench := { b with
        backAt := some (s.dev.frame + if s.dev.dbit d.val BENCH_STAT_CUSTODY then 17 else 1) } } ∧
      DieOnly d.val (· = dieAddr d.val 0x14) s.dev t) ∧
    (∀ cause, benchPhase s.dev d.val ∈ [0, 6] → Does (.benchAbort d cause) s (· = s.dev)) ∧
    (∀ c : Loc, Does (.benchForce d c) s fun t => (t.die d.val).bench.forceCh = some c.val ∧
      benchPhase t d.val = (if benchPhase s.dev d.val = 0 then 0 else 6) ∧ t.chans = s.dev.chans) ∧
    (∀ c : Loc, Does (.benchQueue d c) s fun t => DieOnly d.val noWord s.dev t ∧
      t.die d.val = { x with bench := { b with queue := b.queue ++ [c.val] } }) ∧
    (benchPhase s.dev d.val ∉ [0, 6] → pkgState s.dev ≠ Pkg.test → b.t2 + 64 ≤ s.dev.frame → Does (.benchBatonExpiry d) s fun t =>
      t.pgetBit BATON_STAT_BENCH_HELD d.val = false ∧ t.pget BATON_STAT_BENCH_EXP_EVT = 1 ∧ (irqStatus t).testBit 8 = true ∧
      benchPhase t d.val = 6 ∧ t.chans = s.dev.chans) ∧
    (benchPhase s.dev d.val ∈ [0, 6] ∨ pkgState s.dev = Pkg.test ∨ s.dev.frame < b.t2 + 64 → Does (.benchBatonExpiry d) s (· = s.dev))

/-- R43, whole: at every clock PHASE becomes PHASE + INC modulo 2^48, a carry out of bit 47 advances the line count by 1 modulo
2^48, INC stays, the line angle is PHASE[47:16] after the addition, and the replica of every die that is up follows the same
arithmetic. -/
def Obligations.TheAngleAdvancesEveryClock : Prop :=
  ∀ (s : State) (inp : ClockIn), Sound s → Does (.accumulateClock inp) s fun t =>
    ((s.dev.die 0).up = true →
      t.line.nco.phase = (s.dev.line.nco.phase + s.dev.line.nco.inc) % 2 ^ 48 ∧ t.line.nco.inc = s.dev.line.nco.inc ∧
      t.line.nco.count = (s.dev.line.nco.count + (s.dev.line.nco.phase + s.dev.line.nco.inc) / 2 ^ 48) % 2 ^ 48 ∧
      (pkgView t 0x13).toNat = t.line.nco.phase / 2 ^ 16) ∧
    (∀ d, d < s.dev.nDies → d ≠ 0 → (s.dev.die d).up = true → let n := (s.dev.die d).nco
      (t.die d).nco.phase = (n.phase + n.inc) % 2 ^ 48 ∧ (t.die d).nco.inc = n.inc ∧
      (t.die d).nco.count = (n.count + (n.phase + n.inc) / 2 ^ 48) % 2 ^ 48)

/-- Counting (R72, R121, R130, R131, R139). At every clock each channel whose accumulation runs removes the offset in force from
the level of the modulator that carries it through the fractional carry, and adds the corrected level and its product with the
voltage word in hold to the frame sums; no other accumulator moves. A channel whose accumulation does not run counts nothing.
The tick counter of a die that is up advances by 8. Winnowing (R134, R136). Whatever it decides, booking a frame changes the
difference of the epoch's IN and OUT counts by exactly the frame's net count and their energies by the frame's energy, the raw
registers follow modulo their widths, the frame sums return to zero, and the carry, the banks and the published values stay. A
strong frame sets the held direction by its sign and clears the chaff. All this holds for every free value a chaff sum past
its width may take. -/
def Obligations.EveryClockIsCountedOnce : Prop :=
  (∀ (s : State) (inp : ClockIn), Sound s → Does (.accumulateClock inp) s fun t =>
     t.clk = s.dev.clk + 1 ∧ t.frame = s.dev.frame ∧
     (∀ d, d < s.dev.nDies → (t.die d).tick = (s.dev.die d).tick + if (s.dev.die d).up then 8 else 0) ∧
     ∀ g, g / 8 < s.dev.nDies → let a := (s.dev.ch g).acc
       let b := (t.ch g).acc
       ((s.dev.die (g / 8)).up = true → (s.dev.die (g / 8)).seeded = true → let c := b.fq - a.fq
         (b.frac : Int) + 2 ^ 24 * ((if carried s.dev g then nthI inp.bi (g / 8) else nthI inp.ci g) - c) =
           a.frac + ofsI s.dev g ∧ b.frac < 2 ^ 24 ∧ b.fe = a.fe + vHold s.dev g * c ∧
         b = { a with frac := b.frac, fq := b.fq, fe := b.fe }) ∧
       ((s.dev.die (g / 8)).up = false ∨ (s.dev.die (g / 8)).seeded = false → b = a)) ∧
  (∀ (a : Acc) (free h : Nat), let b := a.book free h
     b.epqIn - b.epqOut = a.epqIn - a.epqOut + a.fq ∧ b.epeIn - b.epeOut = a.epeIn - a.epeOut + a.fe ∧
     ((b.rawqIn : Int) - b.rawqOut - (a.rawqIn - a.rawqOut + a.fq)) % 2 ^ 64 = 0 ∧
     (b.raweIn - b.raweOut - (a.raweIn - a.raweOut + a.fe)) % 2 ^ 96 = 0 ∧ b.fq = 0 ∧ b.fe = 0 ∧
     (h ≤ a.fq.natAbs → b.dir = (if 0 ≤ a.fq then Dir.inn else Dir.out) ∧ b.cq = 0 ∧ b.ce = 0) ∧
     (a.fq.natAbs < h → a.dir ≠ .none → -(h : Int) < b.cq ∧ (b.dir = a.dir ∨ b.cq = 0 ∧ b.ce = 0)) ∧
     (a.dir = .none → (b.cq = 0 ∧ b.ce = 0 ∨ b.cq = a.cq ∧ b.ce = a.ce)) ∧
     b.frac = a.frac ∧ b.bqNet = a.bqNet ∧ b.calqNet = a.calqNet)

/-- The frame boundary (R5, R134, R135, R145, R147, R155). The package frame advances and its clock starts anew, as every running
die's. Each channel whose accumulation runs books its frame, and its boundary copy holds the calibrated values formed with the
constants of the frame that ends, for a chaff sum inside its width; the difference of the raw registers moves by the frame in
any case. A due clear zeroes the raw registers, the banks and EPOCH_COUNT and shows cause 6; without one the raw registers
hold the booked frame. No boundary moves the fractional carry. An epoch close (R144, R145): the banks take what the open epoch
converts to, the open counts start from zero, and the exact values of banks that stand at no limit, and so the published ones,
stay where they were; a second close on one boundary adds its causes and nothing else. It rests on the readings of
notes/assumptions/12, 14 and 67. -/
def Obligations.BoundariesBookEveryFrame : Prop :=
  (∀ s : State, Sound s → Does .frameBoundary s fun t => t.frame = s.dev.frame + 1 ∧ t.clk = 0 ∧
     (∀ d, d < s.dev.nDies → (s.dev.die d).up = true → (t.die d).frame = (if hears s.dev d then s.dev.frame else (s.dev.die d).frame) + 1 ∧
       (t.die d).clk = 0) ∧
     ∀ g, g / 8 < s.dev.nDies → (t.ch g).acc.frac = (s.dev.ch g).acc.frac ∧
       ((s.dev.die (g / 8)).up = true → (s.dev.die (g / 8)).seeded = true →
         let a := (s.dev.ch g).acc
         let b := a.book 0 (hystOf s.dev g)
         let k : Int := if a.dir = .inn then 1 else -1
         (t.ch g).acc.fq = 0 ∧ (t.ch g).acc.fe = 0 ∧
         ((a.cq + k * a.fq).natAbs < 2 ^ 23 → (a.ce + k * a.fe).natAbs < 2 ^ 63 →
           (t.ch g).bnd = b.formCal (s.dev.ch g).conv.kq (s.dev.ch g).conv.ke ∧
           ((s.dev.ch g).due.clear = false → (t.ch g).acc.rawqIn = b.rawqIn ∧ (t.ch g).acc.rawqOut = b.rawqOut ∧
             (t.ch g).acc.raweIn = b.raweIn ∧ (t.ch g).acc.raweOut = b.raweOut)) ∧
         ((s.dev.ch g).due.clear = false →
           (((t.ch g).acc.rawqIn : Int) - (t.ch g).acc.rawqOut - (a.rawqIn - a.rawqOut + a.fq)) % 2 ^ 64 = 0 ∧
           ((t.ch g).acc.raweIn - (t.ch g).acc.raweOut - (a.raweIn - a.raweOut + a.fe)) % 2 ^ 96 = 0) ∧
         ((s.dev.ch g).due.clear = true → (t.ch g).due.clear = false ∧ (t.ch g).acc.rawqIn = 0 ∧ (t.ch g).acc.rawqOut = 0 ∧
           (t.ch g).acc.epqIn = 0 ∧ (t.ch g).acc.bqNet = 0 ∧ (t.ch g).acc.dir = .none ∧ t.cget g EPOCH_COUNT = 0 ∧
           (t.cget g EPOCH_STAT_CAUSE).testBit 6 = true)) ∧
       ((s.dev.die (g / 8)).up = false → (t.ch g).acc = (s.dev.ch g).acc)) ∧
  (∀ (s : State) (g : Ch) (causes : Nat), Sound s → let a := (s.dev.ch g.val).acc
     let kq := (s.dev.ch g.val).conv.kq
     let ke := (s.dev.ch g.val).conv.ke
     let t := closeEpoch causes g.val s.dev
     ((s.dev.ch g.val).due.closed = false → (t.ch g.val).acc.epqIn = 0 ∧ (t.ch g.val).acc.epqOut = 0 ∧
       (t.ch g.val).acc.epeIn = 0 ∧ (t.ch g.val).acc.epeOut = 0 ∧ (t.ch g.val).acc.rawqIn = a.rawqIn ∧
       (t.ch g.val).acc.calqNet = a.calqNet ∧ t.cget g.val EPOCH_COUNT = min (s.dev.cget g.val EPOCH_COUNT + 1) (2 ^ 32 - 1)) ∧
     ((s.dev.ch g.val).due.closed = false → a.held = 0 →
       (∀ x ∈ [(a.exactQ kq).1, (a.exactQ kq).2.1, (a.exactQ kq).2.2, (a.exactE ke).1, (a.exactE ke).2.1, (a.exactE ke).2.2,
         a.bqIn, a.bqOut, a.bqNet, a.beIn, a.beOut, a.beNet], x.natAbs < 2 ^ 95 - 1) →
       (t.ch g.val).acc.exactQ kq = a.exactQ kq ∧ (t.ch g.val).acc.exactE ke = a.exactE ke) ∧
     ((s.dev.ch g.val).due.closed = true → (t.ch g.val).acc = a ∧ t.cget g.val EPOCH_COUNT = s.dev.cget g.val EPOCH_COUNT))

/-- Writes to the counting registers (R132, R141, R143, R155, R158, R194, R202). They read back at once, constants clamped or
refused with KBAD as R141 says, and wait for the frame boundary: neither a constant in force, nor a word in force, nor an
accumulator moves with the write. A clear needs its key. It rests on the readings of notes/assumptions/12, 13 and 69. -/
def Obligations.CountingWritesWaitForTheBoundary : Prop :=
  ∀ (s : State) (g : Ch), Sound s → g.val / 8 < s.dev.nDies →
    let c := s.dev.ch g.val
    let noted (off : Nat) (w : Word) (t : Device) : Prop := t.ch g.val = { c with due := { c.due with
      cal := if c.due.cal = [] then [] else c.due.cal ++ [(off, w)] } }
    (∀ w, Does (.accClear g w) s fun t => t = s.dev.modCh g.val fun _ => { c with due := { c.due with clear :=
      c.due.clear || (ACC_CTL_CLR.get w == 1 && ACC_CTL_CLR_KEY.get w == 0xC3) } }) ∧
    (∀ w, Does (.tcrCfgWrite g w) s fun t => t.reg (chAddr g.val 0x47) = w &&& 0x01FFFFFF#32 ∧
      t.ch g.val = { c with due := { c.due with tcr := true } } ∧ ChanOnly g.val (· = chAddr g.val 0x47) s.dev t) ∧
    (∀ r w, kAccepts (s.dev.setReg (chAddr g.val (kOff r)) (if r = .kShift then w &&& 0x3F3F3F3F#32 else w)) g.val r = true → Does (.constantWrite g r w) s fun t =>
      t.reg (chAddr g.val (kOff r)) = (if r = .kShift then w &&& 0x3F3F3F3F#32 else w) ∧
      noted (kOff r) (t.reg (chAddr g.val (kOff r))) t ∧ ChanOnly g.val (· = chAddr g.val (kOff r)) s.dev t) ∧
    (∀ r w, kAccepts (s.dev.setReg (chAddr g.val (kOff r)) (if r = .kShift then w &&& 0x3F3F3F3F#32 else w)) g.val r = false → Does (.constantWrite g r w) s
      (WordOnly (chAddr g.val 0x49) (EPOCH_STAT_KBAD.put 1 (s.dev.reg (chAddr g.val 0x49))) s.dev)) ∧
    (∀ (volt : Bool) w, let off := if volt then 0x46 else 0x45
      Does (.offsetWrite g volt w) s fun t => (t.reg (chAddr g.val off)).toInt = max (-(2 ^ 20)) (min (2 ^ 20) w.toInt) ∧
        noted off (t.reg (chAddr g.val off)) t ∧ ChanOnly g.val (· = chAddr g.val off) s.dev t) ∧
    (∀ r w, Does (.baselineWrite g r w) s fun t => t.reg (chAddr g.val (baseOff r)) = w ∧ noted (baseOff r) w t ∧
      ChanOnly g.val (· = chAddr g.val (baseOff r)) s.dev t)

/-- The once-per-second update of the shunt factor (R143), at the boundaries whose frame number is a multiple of 4,000. A channel
with ALPHA 0, with TCR_HOLD or not yet counting keeps its factor; so does one whose new factor lies within 0.1 ppm; any other
takes the new factor, and an epoch closes with cause bit 2 when its constants change. No word but those of the epoch changes.
It rests on the readings of notes/assumptions/41. -/
def Obligations.ShuntFactorsFollowTheTemperature : Prop :=
  ∀ s : State, Sound s → (s.dev.frame % 4000 ≠ 0 ∨ s.dev.clk ≠ 0 → Does .tcrUpdate s (· = s.dev)) ∧
    (s.dev.frame % 4000 = 0 → s.dev.clk = 0 → Does .tcrUpdate s fun t => t = { s.dev with regs := t.regs, chans := t.chans } ∧
    (∀ a, (∀ g, a ∉ [chAddr g 0x49, chAddr g 0x4A, chAddr g 0x4B]) → t.reg a = s.dev.reg a) ∧
    ∀ g, g / 8 < s.dev.nDies → let f := fTcrOf s.dev g
      let old := (s.dev.ch g).conv.fTcr
      let idle := alphaOf s.dev g = 0 ∨ tcrHold s.dev (g / 8) = true ∨ (s.dev.die (g / 8)).seeded = false
      (idle ∨ ((f : Int) - old).natAbs ≤ 109951 → t.ch g = s.dev.ch g ∧
        t.reg (chAddr g 0x49) = s.dev.reg (chAddr g 0x49)) ∧
      (¬ idle → 109951 < ((f : Int) - old).natAbs → (t.ch g).conv.fTcr = f ∧
        ((t.ch g).conv.triple ≠ (s.dev.ch g).conv.triple → (t.cget g EPOCH_STAT_CAUSE).testBit 2 = true ∧ (t.ch g).acc.epqIn = 0 ∨
          (s.dev.ch g).due.closed = true)) ∧
      (t.ch g).acc.frac = (s.dev.ch g).acc.frac ∧ (t.ch g).acc.rawqIn = (s.dev.ch g).acc.rawqIn)

/-- Calibration commands (R198 to R200, R202, R203). Without the key or the command's bit nothing happens. APPLY and FOLD are
refused with the lowest code that applies, which changes REFUSE and REFUSE_EVT only: an APPLY with no completed run with 1,
with causes 1, 3, 4, 5 or 6 in the run with 2, a FOLD of words that normalise with the bench at the channel with 6, with no
visit passed with 7. An accepted command joins the channel's calibration actions, in order, for the next boundary. It rests on
the readings of notes/assumptions/68. -/
def Obligations.CalibrationCommandsWaitOrAreRefused : Prop :=
  ∀ (s : State) (g : Ch) (w : Word), Sound s → g.val / 8 < s.dev.nDies →
    let a := chAddr g.val 0x3F
    let both := decide (CAL_CTL_BOTH.get w = 1)
    let refused (k : Nat) (t : Device) : Prop := RegsOnly (· = a) s.dev t ∧ t.cget g.val CAL_CTL_REFUSE = k ∧
      t.cget g.val CAL_CTL_REFUSE_EVT = 1 ∧ t.cget g.val CAL_CTL_RUN_OK = s.dev.cget g.val CAL_CTL_RUN_OK
    let waits (k : Nat) (x : Word) (t : Device) : Prop := ChanOnly g.val noWord s.dev t ∧
      (t.ch g.val).due.cal = (s.dev.ch g.val).due.cal ++ [(k, x)]
    (CAL_CTL_KEY.get w ≠ 0xC3 ∨ CAL_CTL_APPLY.get w = 0 → Does (.calApply g w) s (· = s.dev)) ∧
    (CAL_CTL_KEY.get w ≠ 0xC3 ∨ CAL_CTL_FOLD.get w = 0 → Does (.calFold g w) s (· = s.dev)) ∧
    (CAL_CTL_KEY.get w = 0xC3 → CAL_CTL_APPLY.get w = 1 →
      (s.dev.cget g.val CAL_CTL_RUN_OK = 0 → Does (.calApply g w) s (refused 1)) ∧
      (s.dev.cget g.val CAL_CTL_RUN_OK = 1 → (s.dev.ch g.val).conv.runCauses &&& 0x7A ≠ 0 →
        Does (.calApply g w) s (refused 2)) ∧
      (applyRefusal s.dev g.val both = 0 → Does (.calApply g w) s (waits 0 (if both then 1#32 else 0#32)))) ∧
    (CAL_CTL_KEY.get w = 0xC3 → CAL_CTL_FOLD.get w = 1 → foldOk s.dev g.val = true →
      (visiting s.dev g.val = true → Does (.calFold g w) s (refused 6)) ∧
      (visiting s.dev g.val = false → (s.dev.ch g.val).conv.visit = none → Does (.calFold g w) s (refused 7)) ∧
      (foldRefusal s.dev g.val = 0 → Does (.calFold g w) s (waits 1 0#32)))

/-- Pulse outputs (R210, R213 to R217). PLS_CFG and PLS_K read back at once, with 0 stored as 1 in PLS_K, WIDTH and GAP, and come
into force at the boundary only; CLR with its key waits for the boundary. A leading edge, no earlier than its due clock and
the end of the last gap, takes one pulse from BACKLOG and makes the output active for w clocks; at a full BACKLOG a pulse held
back takes its place; an output that is off, empty or already active has none. In rate mode the clocks of a spread since the
last one go into h, and a whole threshold in h becomes one pulse of BACKLOG. It rests on the readings of notes/assumptions/47
and 48. -/
def Obligations.PulsesAreEmittedFromTheBacklog : Prop :=
  ∀ (s : State) (n : Out), s.dev.pulses.length = 4 →
    let p := pulse s.dev n.val
    let bl := backlog s.dev n.val
    let edge := max (match p.due with | [] => 0 | x :: _ => x.1) p.nextAt
    let w := (roundHalfEven (plsCfg s.dev n.val PLS_CFG_WIDTH * 2048) 100).toNat
    let gap := (roundHalfEven (plsCfg s.dev n.val PLS_CFG_GAP * 2048) 100).toNat
    (∀ w, Does (.plsCfgWrite n true w) s (WordOnly (0x81 + 4 * n.val) (if w = 0#32 then 1#32 else w) s.dev) ∧
      Does (.plsCfgWrite n false w) s (WordOnly (0x80 + 4 * n.val) (plsStored false w) s.dev) ∧
      PLS_CFG_WIDTH.get (plsStored false w) = max 1 (PLS_CFG_WIDTH.get w) ∧
      PLS_CFG_GAP.get (plsStored false w) = max 1 (PLS_CFG_GAP.get w)) ∧
    (∀ w, Does (.plsClr n w) s fun t => t = if PLS_STAT_CLR.get w = 1 ∧ PLS_STAT_KEY.get w = 0xC3 then
      modPulse n.val (fun q => { q with clear := true }) s.dev else s.dev) ∧
    (plsLive s.dev = true → plsOn s.dev n.val = true → bl ≠ 0 → edge ≤ s.dev.now → p.active = false → bl < 2 ^ 32 - 1 →
      Does (.pulseEmit n) s fun t => backlog t n.val = bl - 1 ∧
        pulse t n.val = { p with active := true, endAt := s.dev.now + w, nextAt := s.dev.now + w + gap, due := dropDue p.due } ∧
        (∀ m, m ≠ n.val → pulse t m = pulse s.dev m) ∧ plsHigh t n.val = !plsHigh s.dev n.val ∧
        t = { s.dev with regs := t.regs, pulses := t.pulses, free := t.free } ∧
        ∀ a, a ≠ 0x82 + 4 * n.val → a ≠ 0x83 + 4 * n.val → t.reg a = s.dev.reg a) ∧
    (plsLive s.dev = true → plsOn s.dev n.val = true → bl = 2 ^ 32 - 1 → edge ≤ s.dev.now → p.active = false →
      plsRate s.dev n.val = false → quantum s.dev n.val ≤ p.r → Does (.pulseEmit n) s fun t => backlog t n.val = bl ∧
        (pulse t n.val).r = p.r - quantum s.dev n.val ∧ (pulse t n.val).active = true ∧
        (pulse t n.val).due = dropDue p.due ++ [(s.dev.now, 1)]) ∧
    (plsLive s.dev = false ∨ plsOn s.dev n.val = false ∨ bl = 0 ∨ s.dev.now < edge ∨ p.active = true →
      Does (.pulseEmit n) s (· = s.dev)) ∧
    (p.active = true → s.dev.now < p.endAt → Does (.pulseEnd n) s (· = s.dev)) ∧
    (p.active = false ∨ p.endAt ≤ s.dev.now → Does (.pulseEnd n) s fun t => (pulse t n.val).active = false ∧ (∀ m, m ≠ n.val → pulse t m = pulse s.dev m) ∧
      (pulse t n.val).due = p.due ∧ (pulse t n.val).r = p.r ∧ t = { s.dev with pulses := t.pulses } ∧
      (plsHigh t n.val = true ↔ plsLive s.dev = true ∧ (plsCfg s.dev n.val PLS_CFG_OD = 1 ∨ plsCfg s.dev n.val PLS_CFG_POL = 1))) ∧
    (∀ st e, plsOn s.dev n.val = true → plsRate s.dev n.val = true → p.spread = [(st, e)] → st ≤ s.dev.now →
      s.dev.now < st + 5119 → bl < 2 ^ 32 - 1 →
      let h : Int := p.h + (((s.dev.now + 1 - st : Nat) : Int) * e / 5120 - (p.rateJ : Int) * e / 5120)
      (h < rateFull → 0 ≤ h → Does (.ratePulseDue n) s fun t => (pulse t n.val).h = h ∧ backlog t n.val = bl ∧ t.regs = s.dev.regs ∧
        (pulse t n.val).rateJ = s.dev.now + 1 - st) ∧
      (rateFull ≤ h → h < 2 * rateFull → Does (.ratePulseDue n) s fun t => (pulse t n.val).h = h - rateFull ∧
        backlog t n.val = bl + 1 ∧ (pulse t n.val).due = p.due ++ [(s.dev.now, 1)] ∧
        (bl = 0 → t.pget (PLS_STAT_BL_EVT.at (4 * n.val)) = 1))) ∧
    (plsOn s.dev n.val = false ∨ plsRate s.dev n.val = false → Does (.ratePulseDue n) s (· = s.dev))

/-- Tally inputs and reference runs (R219 to R223). The pins are sampled at every frame boundary, and a level held for 2 · DEB
samples is recognised there; with FAST it is recognised after 16 ticks, 8 a clock. A recognised change of an enabled input to
its counting edge adds one to its 48-bit counter, and one to an open run of that input; other changes only show; a level not
yet held only stands at the pin, with the time since when. TALLY_CTL clears at the next boundary. OPEN is refused with the
lowest code: 1 while a run lives, 2 outside RUN, 3 without the channel's die, 4 without K, 5 with the input off; else the run
opens at the next boundary with the words as they stand. CLOSE closes a live run at the boundary, ABORT ends it at once with
code 6. It rests on the readings of notes/assumptions/48 and 71. -/
def Obligations.TalliesCountAndRunsOpenAtABoundary : Prop :=
  ∀ s : State, s.dev.tallyClr.length = 2 → s.dev.tallyIn.length = 2 →
    (∀ (inB level : Bool),
      let f := if inB then TALLY_STAT_LVL_B else TALLY_STAT_LVL_A
      let p := tallyPin s.dev inB
      let since := if p.level = level then p.since else s.dev.now
      let holds := if tallyCfg s.dev inB TALLY_CFG_A_FAST = 1 then 16 ≤ 8 * (s.dev.now - since)
        else s.dev.clk = 0 ∧ p.shown = level ∧ 2 * tallyCfg s.dev inB TALLY_CFG_A_DEB ≤ p.samples
      let counts := tallyCfg s.dev inB TALLY_CFG_A_EN = 1 ∧ tallyCfg s.dev inB TALLY_CFG_A_EDGE = if level then 1 else 0
      let seen (t : Device) : Prop := t.tallyIn = s.dev.tallyIn.set (if inB then 1 else 0) { p with level := level, since := since }
      (plsLive s.dev = false ∨ s.dev.pbit f = level ∨ ¬ holds → Does (.tallyEdge inB level) s fun t => seen t ∧
        t = { s.dev with tallyIn := t.tallyIn }) ∧
      (plsLive s.dev = true → s.dev.pbit f = !level → holds → ¬ counts → Does (.tallyEdge inB level) s fun t => seen t ∧
        WordOnly 0x96 (f.put (if level then 1 else 0) (s.dev.reg 0x96)) { s.dev with tallyIn := t.tallyIn } t) ∧
      (plsLive s.dev = true → s.dev.pbit f = !level → holds → counts → s.dev.run.cnt + 1 < 2 ^ 32 →
        Does (.tallyEdge inB level) s fun t => seen t ∧
        tallyCnt t inB = (tallyCnt s.dev inB + 1) % 2 ^ 48 ∧ tallyCnt t (!inB) = tallyCnt s.dev (!inB) ∧ t.pbit f = level ∧
        t.run.cnt = s.dev.run.cnt + (if (s.dev.pget RUN_STAT_STATE = 2 ∨ s.dev.pget RUN_STAT_STATE = 3) ∧ s.dev.run.inp = inB
          then 1 else 0) ∧ t = { s.dev with regs := t.regs, run := t.run, tallyIn := t.tallyIn } ∧
        ∀ a, a ∉ [0x92, 0x93, 0x94, 0x95, 0x96] → t.reg a = s.dev.reg a)) ∧
    Does .frameBoundary s (fun t => ∀ (i : Nat) (p : TallyPin), s.dev.tallyIn[i]? = some p → t.tallyIn[i]? = some (if plsLive s.dev then
      { p with shown := p.level, samples := if p.shown = p.level then p.samples + 1 else 1 } else p)) ∧
    (∀ w, TALLY_CTL_KEY.get w = 0xC3 → Does (.tallyClr w) s fun t => t = { s.dev with tallyClr := t.tallyClr } ∧
      (t.tallyClr[0]? = some true ↔ s.dev.tallyClr[0]? = some true ∨ TALLY_CTL_CLR_A.get w = 1) ∧
      (t.tallyClr[1]? = some true ↔ s.dev.tallyClr[1]? = some true ∨ TALLY_CTL_CLR_B.get w = 1)) ∧
    (∀ w, TALLY_CTL_KEY.get w ≠ 0xC3 → Does (.tallyClr w) s (· = s.dev)) ∧
    (∀ w, RUN_CTL_OPEN.get w = 1 → runRefusal w s.dev = 0 → Does (.runOpen w) s fun t =>
      t.run = { Run.reset with
        openDue := true, inp := RUN_CTL_INPUT.get w == 1, ch := RUN_CTL_CH.get w, neg := RUN_CTL_NEG.get w == 1, k := s.dev.pget RUN_KINT * 65536 + s.dev.pget RUN_KFRAC } ∧
      WordOnly 0x9C (RUN_STAT_STATE.put 1 (s.dev.reg 0x9C)) { s.dev with run := t.run } t) ∧
    (∀ w, RUN_CTL_OPEN.get w = 1 → (runRefusal w s.dev ≠ 0 → Does (.runOpen w) s fun t =>
        t.pget RUN_STAT_CODE = runRefusal w s.dev ∧ t.pget RUN_STAT_REFUSE_EVT = 1 ∧ t.run = s.dev.run ∧
        t.pget RUN_STAT_STATE = s.dev.pget RUN_STAT_STATE ∧ (irqStatus t).testBit 11 = true) ∧
      (runLive s.dev = true → runRefusal w s.dev = 1) ∧
      (runLive s.dev = false → pkgState s.dev ≠ Pkg.run → runRefusal w s.dev = 2) ∧
      (runLive s.dev = false → pkgState s.dev = Pkg.run → (s.dev.nDies ≤ RUN_CTL_CH.get w / 8 ∨
        (s.dev.pget PKG_STATE_DIES_HUSK).testBit (RUN_CTL_CH.get w / 8) = true ∨ alive (s.dev.die (RUN_CTL_CH.get w / 8)) = false) →
        runRefusal w s.dev = 3) ∧
      (runLive s.dev = false → pkgState s.dev = Pkg.run → RUN_CTL_CH.get w / 8 < s.dev.nDies →
        (s.dev.pget PKG_STATE_DIES_HUSK).testBit (RUN_CTL_CH.get w / 8) = false → alive (s.dev.die (RUN_CTL_CH.get w / 8)) = true → s.dev.pget RUN_KINT = 0 →
        s.dev.pget RUN_KFRAC = 0 → runRefusal w s.dev = 4) ∧
      (runLive s.dev = false → pkgState s.dev = Pkg.run → RUN_CTL_CH.get w / 8 < s.dev.nDies →
        (s.dev.pget PKG_STATE_DIES_HUSK).testBit (RUN_CTL_CH.get w / 8) = false → alive (s.dev.die (RUN_CTL_CH.get w / 8)) = true →
        s.dev.pget RUN_KINT ≠ 0 ∨ s.dev.pget RUN_KFRAC ≠ 0 →
        runRefusal w s.dev = if tallyCfg s.dev (RUN_CTL_INPUT.get w == 1) TALLY_CFG_A_EN = 0 then 5 else 0)) ∧
    (∀ w, RUN_CTL_OPEN.get w = 0 → Does (.runOpen w) s (· = s.dev)) ∧
    (∀ w, RUN_CTL_CLOSE.get w = 1 → runLive s.dev = true → Does (.runClose w) s fun t =>
      t.run = { s.dev.run with closeDue := true } ∧ t.pget RUN_STAT_STATE = (if s.dev.pget RUN_STAT_STATE = 2 then 3 else
        s.dev.pget RUN_STAT_STATE) ∧ RegsOnly (· = 0x9C) { s.dev with run := t.run } t) ∧
    (∀ w, RUN_CTL_CLOSE.get w = 0 ∨ runLive s.dev = false → Does (.runClose w) s (· = s.dev)) ∧
    (∀ w, RUN_CTL_ABORT.get w = 1 → runLive s.dev = true → Does (.runAbort w) s fun t =>
      t.run = Run.reset ∧ t.pget RUN_STAT_STATE = 5 ∧ t.pget RUN_STAT_CODE = 6 ∧ t.pget RUN_STAT_REFUSE_EVT = 1 ∧
      (irqStatus t).testBit 11 = true ∧ t.chans = s.dev.chans) ∧
    (∀ w, RUN_CTL_ABORT.get w = 0 ∨ runLive s.dev = false → Does (.runAbort w) s (· = s.dev))

/-- Requests of the ACIR engine (R124, R164 to R168, R182, R184). A write of ACIR_CTL stores its fields; START is refused with the
lowest of its checks, NOT_CC first, which changes REFUSE and REFUSE_EVT only; an accepted request with no window open resolves
its lead-in point to the next occurrence of the slot's angle, behind an open window it is held; ABORT, also in the same write,
aborts. The lead-in of a request, one held past its window's close as well, whose point the line has reached waits a cycle at
a time while the lease does not cover the demand, begins when it does, and is refused with BUDGET after sixteen moves. It
rests on the readings of notes/assumptions/51 and 62. -/
def Obligations.WindowsAreRequestedAndLedIn : Prop :=
  ∀ (s : State) (g : Ch), Sound s → g.val / 8 < s.dev.nDies →
    let a := (s.dev.ch g.val).acir
    let st := acirState s.dev g.val
    let waits := if st = 0 then (if a.par.m = 0 then none else some a.par) else if st = 3 then a.held else none
    (∀ w, ACIR_CTL_START.get w = 0 → ACIR_CTL_ABORT.get w = 0 → Does (.acirStart g w) s
      (WordOnly (chAddr g.val 0x50) (acirCtlStored w) s.dev)) ∧
    (∀ w, ACIR_CTL_START.get w = 1 → ACIR_CTL_ABORT.get w = 0 →
      modeOf s.dev g.val ≠ 1 ∨ s.dev.cget g.val CH_STAT_ACTIVE = 0 → Does (.acirStart g w) s fun t =>
        t.reg (chAddr g.val 0x50) = acirCtlStored w ∧ t.cget g.val ACIR_STAT_REFUSE = 1 ∧
        t.cget g.val ACIR_STAT_REFUSE_EVT = 1 ∧ t.cget g.val ACIR_STAT_STATE = st ∧
        RegsOnly (fun b => b = chAddr g.val 0x50 ∨ b = chAddr g.val ACIR_STAT_REFUSE.off) s.dev t) ∧
    (∀ w, ACIR_CTL_START.get w = 1 → ACIR_CTL_ABORT.get w = 0 → s.dev.dbit (g.val / 8) BENCH_STAT_CUSTODY = false →
      let u := s.dev.setReg (chAddr g.val 0x50) (acirCtlStored w)
      let p := hostAcirPar u g.val
      acirCheck u g.val p = 0 →
        (st ≠ 2 → Does (.acirStart g w) s fun t => ChanOnly g.val noWord u t ∧ t.ch g.val = { s.dev.ch g.val with acir := { a with
          par := { p with run := decide (engState s.dev g.val = EngSt.running), since := s.dev.now }, leadPt := resolveAngle (ptOf s.dev (g.val / 8)) (p.slot * 2 ^ 28), moves := 0 } }) ∧
        (st = 2 → Does (.acirStart g w) s fun t => ChanOnly g.val (· = chAddr g.val ACIR_STAT_HELD.off) u t ∧
          t.cget g.val ACIR_STAT_HELD = 1 ∧ t.ch g.val = { s.dev.ch g.val with acir := { a with
            held := some { p with run := decide (engState s.dev g.val = EngSt.running), since := s.dev.now } } })) ∧
    (∀ w, ACIR_CTL_ABORT.get w = 1 → Does (.acirStart g w) s fun t => t.reg (chAddr g.val 0x50) = acirCtlStored w ∧
      (t.ch g.val).acir.held = none ∧ (acirState t g.val < 3 → (t.ch g.val).acir.par.m = 0) ∧
      (ACIR_CTL_START.get w = 0 → ((a.par.m ≠ 0 ∧ st < 3) ∨ a.held ≠ none → t.cget g.val ACIR_STAT_ABORT_CODE = 3 ∧
          t.cget g.val ACIR_STAT_ABORT_EVT = 1 ∧ acirState t g.val = (if a.env = 0 then 0 else 3) ∧ (t.ch g.val).acir.envTgt = 0) ∧
        (¬ ((a.par.m ≠ 0 ∧ st < 3) ∨ a.held ≠ none) → WordOnly (chAddr g.val 0x50) (acirCtlStored w) s.dev t) ∧
        OnlyChannel g.val s.dev t)) ∧
    (let p := waits.getD noAcirPar
     waits.isSome = true → (s.dev.die (g.val / 8)).link.upSilent = false → a.leadPt ≤ ptOf s.dev (g.val / 8) →
      (leaseCovers s.dev g.val (demandOf s.dev g.val) = true → Does (.acirLeadinStart g) s fun t => acirState t g.val = 1 ∧
        (t.ch g.val).acir.par = p ∧ (t.ch g.val).acir.held = none ∧ (t.ch g.val).acir.openPt = a.leadPt + p.lead * 2 ^ 32 ∧
        (t.ch g.val).acir.closePt = a.leadPt + (p.lead + p.w) * 2 ^ 32 ∧ (t.ch g.val).acir.envTgt = p.amp * 2048 ∧
        (t.ch g.val).acir.env = a.env ∧ ChanOnly g.val (· = chAddr g.val ACIR_STAT_STATE.off) s.dev t) ∧
      (leaseCovers s.dev g.val (demandOf s.dev g.val) = false → a.moves < 16 → Does (.acirLeadinStart g) s fun t =>
        ChanOnly g.val noWord s.dev t ∧ t.ch g.val = { s.dev.ch g.val with acir := { a with moves := a.moves + 1, leadPt := a.leadPt + 2 ^ 32 } }) ∧
      (leaseCovers s.dev g.val (demandOf s.dev g.val) = false → ¬ a.moves < 16 → Does (.acirLeadinStart g) s fun t =>
        t.cget g.val ACIR_STAT_REFUSE = 7 ∧ t.cget g.val ACIR_STAT_REFUSE_EVT = 1 ∧ (t.ch g.val).acir.held = none ∧
        (st = 0 → acirActive t g.val = false) ∧ (st = 3 → acirState t g.val = 3) ∧ OnlyChannel g.val s.dev t)) ∧
    (waits = none ∨ (s.dev.die (g.val / 8)).link.upSilent = true ∨ ptOf s.dev (g.val / 8) < a.leadPt →
      Does (.acirLeadinStart g) s (· = s.dev)) ∧
    (∀ w, Does (.acirClr g w) s fun t => ChanOnly g.val noWord s.dev t ∧ t.ch g.val = { s.dev.ch g.val with
      due := { (s.dev.ch g.val).due with
        acirClr := (s.dev.ch g.val).due.acirClr || decide (ACIR_CLR.get w = 1 ∧ ACIR_CLR_KEY.get w = 0xC3) } })

/-- A window's course (R165, R167, R169, R170, R174, R175, R178, R180, R182). It opens at its point with its sums clear and the
flags that hold already, ENV where the envelope is not yet at its amplitude; it closes at its point with its results, one more
SEQ, DONE_EVT, and goes to the lead-out, or to the held request's lead-in at once where the lease covers the demand, a cycle
later where it does not, but on a die that holds over; with no current at all it answers the resistances 0x8000_0000 and is
not USABLE; with QE_EN clear its energies stay. The lead-out ends when the envelope is at zero, and a request kept meanwhile
goes on. An abort discards the sums and the held request, flags its code and leaves the results of the window before. It rests
on the readings of notes/assumptions/51 and 62. -/
def Obligations.WindowsOpenCloseAndAbort : Prop :=
  ∀ (s : State) (g : Ch), Sound s → g.val / 8 < s.dev.nDies →
    let a := (s.dev.ch g.val).acir
    let st := acirState s.dev g.val
    let results : List Nat := [0x53, 0x54, 0x55, 0x57, 0x58, 0x59, 0x5A, 0x5B, 0x5C]
    let pt := ptOf s.dev (g.val / 8)
    let silent := (s.dev.die (g.val / 8)).link.upSilent
    (st = 1 → a.openPt ≤ pt → Does (.acirWindowOpen g) s fun t => acirState t g.val = 2 ∧ (t.ch g.val).acir.n = 0 ∧ (t.ch g.val).acir.siRe = 0 ∧
      (t.ch g.val).acir.svIm = 0 ∧ ((t.ch g.val).acir.fClip = true ↔ a.clipNow = true ∨ s.dev.cbit g.val CH_STAT_SAT = true ∨
        s.dev.cbit g.val CH_STAT_SKIP = true ∨ overloadNow s.dev g.val false = true ∨ overloadNow s.dev g.val true = true) ∧
      ((t.ch g.val).acir.fHold = true ↔ lineState s.dev = LineState.holdover) ∧
      ((t.ch g.val).acir.fBench = true ↔ carried s.dev g.val = true) ∧ (t.ch g.val).acir.fEnv = decide (a.env ≠ a.envTgt) ∧
      (t.ch g.val).acir.par = a.par ∧ (t.ch g.val).acir.closePt = a.closePt ∧
      ChanOnly g.val (· = chAddr g.val ACIR_STAT_STATE.off) s.dev t) ∧
    (st ≠ 1 ∨ pt < a.openPt → Does (.acirWindowOpen g) s (· = s.dev)) ∧
    (st = 2 → a.closePt ≤ pt → a.par.step = false → a.held = none ∨ silent = true → Does (.acirWindowClose g) s fun t => acirState t g.val = 3 ∧
      t.cget g.val ACIR_STAT_DONE_EVT = 1 ∧ t.cget g.val ACIR_N = a.n % 2 ^ 24 ∧
      t.cget g.val ACIR_PHASE_SEQ = (s.dev.cget g.val ACIR_PHASE_SEQ + 1) % 2 ^ ACIR_PHASE_SEQ.width ∧
      (t.ch g.val).acir.envTgt = 0 ∧ (t.ch g.val).acir.env = a.env ∧
      (a.siRe = 0 → a.siIm = 0 → a.siDc = 0 → t.reg (chAddr g.val 0x53) = 0x80000000#32 ∧ t.reg (chAddr g.val 0x54) = 0x80000000#32 ∧
        t.reg (chAddr g.val 0x55) = 0xFFFFFFFF#32 ∧ t.cget g.val ACIR_PHASE = 0x8000 ∧ t.cget g.val ACIR_STAT_LOWI = 1 ∧
        t.cget g.val ACIR_STAT_USABLE = 0) ∧
      (a.fHold = true ∨ a.fClip = true ∨ a.fBench = true ∨ a.fEnv = true ∨ a.fRange = true → t.cget g.val ACIR_STAT_USABLE = 0) ∧
      (s.dev.cget g.val ACIR_CFG_QE_EN = 0 → (t.ch g.val).acir.ep = a.ep ∧ (t.ch g.val).acir.eq = a.eq) ∧
      OnlyChannel g.val s.dev t) ∧
    (∀ p, st = 2 → a.closePt ≤ pt → a.par.step = false → a.held = some p → silent = false →
      leaseCovers s.dev g.val (demandOf s.dev g.val) = false → Does (.acirWindowClose g) s fun t => acirState t g.val = 3 ∧
      (t.ch g.val).acir.held = some p ∧ (t.ch g.val).acir.moves = 1 ∧ (t.ch g.val).acir.leadPt = a.closePt + 2 ^ 32 ∧
      (t.ch g.val).acir.envTgt = 0 ∧ t.cget g.val ACIR_STAT_DONE_EVT = 1 ∧ OnlyChannel g.val s.dev t) ∧
    (∀ p, st = 2 → a.closePt ≤ pt → a.par.step = false → a.held = some p → silent = false →
      leaseCovers s.dev g.val (demandOf s.dev g.val) = true → Does (.acirWindowClose g) s fun t => acirState t g.val = 1 ∧
      (t.ch g.val).acir.par = p ∧ (t.ch g.val).acir.held = none ∧ (t.ch g.val).acir.leadPt = a.closePt ∧
      (t.ch g.val).acir.openPt = a.closePt + p.lead * 2 ^ 32 ∧ t.cget g.val ACIR_STAT_HELD = 0 ∧
      t.cget g.val ACIR_STAT_DONE_EVT = 1 ∧ OnlyChannel g.val s.dev t) ∧
    (st ≠ 2 ∨ pt < a.closePt → Does (.acirWindowClose g) s (· = s.dev)) ∧
    (st = 3 → a.env = 0 → a.held = none → Does (.acirEnvelopeZero g) s fun t => acirState t g.val = 0 ∧ (t.ch g.val).acir =
      { a with env := 0, envTgt := 0, par := noAcirPar } ∧ ChanOnly g.val (· = chAddr g.val ACIR_STAT_STATE.off) s.dev t) ∧
    (∀ p, st = 3 → a.env = 0 → a.held = some p → Does (.acirEnvelopeZero g) s fun t => acirState t g.val = 0 ∧
      (t.ch g.val).acir = { a with env := 0, envTgt := 0, par := p, held := none } ∧ t.cget g.val ACIR_STAT_HELD = 0) ∧
    (st ≠ 3 ∨ a.env ≠ 0 → Does (.acirEnvelopeZero g) s (· = s.dev)) ∧
    (∀ p ∈ [(3, Instr.acirAbortCmd g), (1, .acirWindowAbort g 1), (2, .acirWindowAbort g 2), (4, .acirWindowAbort g 4),
        (5, .acirWindowAbort g 5)],
      (a.par.m ≠ 0 → st < 3 → Does p.2 s fun t => t.cget g.val ACIR_STAT_ABORT_CODE = p.1 ∧
        t.cget g.val ACIR_STAT_ABORT_EVT = 1 ∧ acirState t g.val = (if a.env = 0 then 0 else 3) ∧ (t.ch g.val).acir.held = none ∧
        t.cget g.val ACIR_STAT_HELD = 0 ∧ (t.ch g.val).acir.n = 0 ∧ (t.ch g.val).acir.envTgt = 0 ∧
        (t.ch g.val).acir.ep = a.ep ∧ (∀ off ∈ results, t.reg (chAddr g.val off) = s.dev.reg (chAddr g.val off)) ∧
        OnlyChannel g.val s.dev t) ∧
      (a.par.m = 0 ∨ ¬ st < 3 → a.held = none → Does p.2 s (· = s.dev)))

/-- Starts and re-seats of a step between frame boundaries (R230, R236, R244, R246, R249). A channel that waits and holds its
lease starts its step on the first clock of its slot: RUNNING with its type's mode, or SUSPENDED with the cause its
temperature band gives, its lease given back; a channel that waits without a lease, or does not wait, does nothing. The off
time of a re-seat, OFF × 10 ms, leads to its pull-in; SETTLE × 10 ms after it CONTACT clears and the step waits for a lease
again. CH_SEQ commands wait for the next boundary. It rests on the readings of notes/assumptions/7 and 61. -/
def Obligations.StepsStartUnderTheirLease : Prop :=
  ∀ (s : State) (g : Ch), Sound s → g.val / 8 < s.dev.nDies →
    let c := s.dev.ch g.val
    let e := engState s.dev g.val
    let waits := e = EngSt.wait ∨ e = EngSt.queued
    let slot := slotBegins s.dev (slotOf s.dev g.val)
    let off := (s.dev.cget g.val CH_SEAT_OFF) * 10 * 20480
    let settle := (s.dev.cget g.val CH_SEAT_SETTLE) * 10 * 20480
    (waits → leaseHeld s.dev g.val = true → slot = true → bandCause s.dev g.val = 0 → (s.dev.die (g.val / 8)).vdrvBad = false →
      s.dev.cget g.val CH_CTL_OVR = 0 → Does (.stepStart g) s fun t => engState t g.val = EngSt.running ∧
        t.cget g.val CH_CTL_MODE = stepMode (curType s.dev g.val) ∧ t.cget g.val CH_STAT_SUSP_CAUSE = 0 ∧
        (t.ch g.val).lp.engMode = stepMode (curType s.dev g.val) ∧ (t.ch g.val).eng.restart = false ∧
        (t.ch g.val).eng.resumeEv = 0 ∧ (c.eng.restart = true → t.cget g.val CH_STAT_CV_EVT = 0 ∧ (t.ch g.val).eng.startAt = s.dev.now) ∧
        (t.ch g.val).acc = c.acc ∧ OnlyChannel g.val s.dev t) ∧
    (waits → leaseHeld s.dev g.val = true → slot = true → bandCause s.dev g.val ≠ 0 → Does (.stepStart g) s fun t =>
      engState t g.val = EngSt.suspended ∧ t.cget g.val CH_STAT_SUSP_CAUSE = bandCause s.dev g.val ∧ leaseSt t g.val = 0 ∧
      (t.ch g.val).eng.fSusp = true ∧ (t.ch g.val).acc = c.acc ∧ OnlyChannel g.val s.dev t) ∧
    (waits → leaseHeld s.dev g.val = true → slot = false → Does (.stepStart g) s (· = s.dev)) ∧
    (¬ (waits ∧ leaseHeld s.dev g.val = true) → s.dev.cget g.val CH_CTL_OVR = 0 → Does (.stepStart g) s (· = s.dev)) ∧
    (Does (.reseatOffExpiry g) s fun t => ChanOnly g.val noWord s.dev t ∧
      t.ch g.val = { c with eng := { c.eng with seat := if c.eng.seat = .off ∧ c.eng.seatAt + off ≤ s.dev.now then .wantPull
        else c.eng.seat } }) ∧
    (c.eng.seat = .settle → e = EngSt.reseat → c.eng.seatAt + settle ≤ s.dev.now → needsCurrent (curType s.dev g.val) = true → Does (.reseatSettleExpiry g) s fun t =>
      engState t g.val = EngSt.wait ∧ leaseSt t g.val = 2 ∧ (t.reg (chAddr g.val 2)).toNat.testBit 3 = false ∧
      (t.ch g.val).eng.seat = .none ∧ (t.ch g.val).eng.frames = c.eng.frames ∧
      t.cget g.val CH_STEP_STEP = s.dev.cget g.val CH_STEP_STEP ∧ OnlyChannel g.val s.dev t) ∧
    (c.eng.seat ≠ .settle ∨ e ≠ EngSt.reseat ∨ s.dev.now < c.eng.seatAt + settle → Does (.reseatSettleExpiry g) s (· = s.dev)) ∧
    (∀ p ∈ [(0, Instr.seqAbort g), (1, .seqSkip g), (2, .seqHalt g), (3, .seqRelease g), (4, .seqStart g)], Does p.2 s fun t =>
      ChanOnly g.val noWord s.dev t ∧ t.ch g.val = { c with due := { c.due with seq := c.due.seq ||| 2 ^ p.1 } } ∧
      (t.ch g.val).due.seq.testBit p.1 = true)

/-- PULSE levels and captures, OCV samples and the trace buffer (R248, R250, R251, R253). The level change, T1 after the step's
start, writes the second level, reduced by the band in force, and takes capture 0, the mean of the 16 fast words before it.
Each capture of level 2, taken once when its delay has passed, writes a record of type 4, an OCV sample one of type 3 and
doubles its time, into the next place of the trace buffer; with STEP_ONLY set none is written. A capture whose current moved
by less than 1 % of the range carries 0x8000_0000 for R_dc. RD may only move within the records kept. It rests on the readings
of notes/assumptions/63. -/
def Obligations.RecordsEnterTheTraceBuffer : Prop :=
  ∀ (s : State) (g : Ch), Sound s → g.val / 8 < s.dev.nDies →
    let c := s.dev.ch g.val
    let d := g.val / 8
    let room := s.dev.dget d TRACE_COUNT < 2048 ∧ s.dev.dbit d TRACE_CFG_STEP_ONLY = false
    let runs (typ : Nat) := engState s.dev g.val = EngSt.running ∧ curType s.dev g.val = typ
    let written (typ k : Nat) (t : Device) : Prop := t.dget d TRACE_COUNT = s.dev.dget d TRACE_COUNT + 1 ∧
      t.dget d TRACE_PTR_WR = (s.dev.dget d TRACE_PTR_WR + 1) % 2048 ∧ (t.die d).traceSeq = ((s.dev.die d).traceSeq + 1) % 65536 ∧
      let r := ((t.die d).trace.head?.map (·.2)).getD []
      (t.die d).trace.head? = some (s.dev.dget d TRACE_PTR_WR, r) ∧ r.length = 32 ∧ r[0]? = some (BitVec.ofNat 8 typ) ∧
        r[14]? = some (BitVec.ofNat 8 k)
    (∀ r, runs 10 → curStep s.dev g.val = some r → c.eng.level2 = false → c.eng.startAt + r.p3 % 65536 * 20480 ≤ s.dev.now → s.dev.cget g.val CH_CTL_OVR = 0 → Does (.pulseLevelChange g) s fun t =>
      (t.ch g.val).eng.level2 = true ∧ (t.ch g.val).eng.levelAt = s.dev.now ∧
      t.reg (chAddr g.val 8) = wordOfInt (reduceBy (bandFrac s.dev g.val) (stepIset r true)) ∧
      (∀ v i, c.eng.fastHist.foldl (fun a x => a + x.1) 0 = 16 * v → c.eng.fastHist.foldl (fun a x => a + x.2) 0 = 16 * i →
        (t.ch g.val).eng.caps = [(v, i)]) ∧ OnlyChannel g.val s.dev t) ∧
    (¬ runs 10 ∨ c.eng.level2 = true → Does (.pulseLevelChange g) s (· = s.dev)) ∧
    (∀ r, curStep s.dev g.val = some r → s.dev.now < c.eng.startAt + r.p3 % 65536 * 20480 →
      Does (.pulseLevelChange g) s (· = s.dev)) ∧
    (∀ (r : StepRec) (k : Fin 5) v i rest, runs 10 → curStep s.dev g.val = some r → c.eng.level2 = true → k.val ≠ 0 →
      pulseDelay r k.val ≠ 0 → pulseDelay r k.val ≤ r.p3 / 65536 * 10 → c.eng.caps = (v, i) :: rest →
      c.eng.capMask.testBit k.val = false → c.eng.levelAt + 2048 * pulseDelay r k.val ≤ s.dev.now →
      (room → Does (.pulseCapture g k) s fun t => written 4 k.val t ∧
        t.ch g.val = { c with eng := { c.eng with capMask := c.eng.capMask ||| 2 ^ k.val } } ∧ OnlyChannel g.val s.dev t ∧
        (c.eng.fastHist.foldl (fun a x => a + x.2) 0 = 16 * i →
          ((((t.die d).trace.head?.map (·.2)).getD []).drop 24).take 4 = [0x00#8, 0x00#8, 0x00#8, 0x80#8])) ∧
      (s.dev.dbit d TRACE_CFG_STEP_ONLY = true → Does (.pulseCapture g k) s fun t =>
        t = { s.dev with free := t.free, chans := t.chans } ∧ OnlyChannel g.val s.dev t)) ∧
    (∀ k : Fin 5, ¬ runs 10 ∨ c.eng.level2 = false ∨ c.eng.capMask.testBit k.val = true → Does (.pulseCapture g k) s (· = s.dev)) ∧
    (∀ r, runs 8 → curStep s.dev g.val = some r → c.eng.ocvK < 16 → r.p1 * 2 ^ c.eng.ocvK * 4 ≤ c.eng.frames → room → Does (.ocvSample g) s fun t => written 3 c.eng.ocvK t ∧
      (t.ch g.val).eng = { c.eng with ocvK := c.eng.ocvK + 1 } ∧ OnlyChannel g.val s.dev t) ∧
    (¬ runs 8 ∨ 16 ≤ c.eng.ocvK → Does (.ocvSample g) s (· = s.dev)) ∧
    (∀ r, curStep s.dev g.val = some r → c.eng.frames < r.p1 * 2 ^ c.eng.ocvK * 4 → Does (.ocvSample g) s (· = s.dev)) ∧
    (∀ (e : Die) w, e.val < s.dev.nDies →
      let n := (s.dev.dget e.val TRACE_PTR_WR + 2048 - TRACE_PTR_RD.get w) % 2048
      (TRACE_PTR_RD.get w ≠ s.dev.dget e.val TRACE_PTR_RD → n ≤ s.dev.dget e.val TRACE_COUNT → Does (.traceRdWrite e w) s fun t =>
        t.dget e.val TRACE_PTR_RD = TRACE_PTR_RD.get w ∧ t.dget e.val TRACE_COUNT = n ∧
        t.dget e.val TRACE_PTR_WR = s.dev.dget e.val TRACE_PTR_WR ∧
        RegsOnly (fun a => a = dieAddr e.val 0x60 ∨ a = dieAddr e.val 0x61) s.dev t) ∧
      (s.dev.dget e.val TRACE_COUNT < n → Does (.traceRdWrite e w) s (· = s.dev)))

/-- Host commands to the step engine at a frame boundary (R239 order 2, R240, R249): the channel's share of a boundary of a
running step without a fault. ABORT ends the recipe with FAIL and end code 0x22; HALT holds the step, its lease given back;
RELEASE, START and no command at all are not accepted there. An idle channel whose recipe is not loaded shows NO_RECIPE on
START and stays. It rests on the readings of notes/assumptions/7, 14 and 62. -/
def Obligations.HostStepCommandsActAtTheBoundary : Prop :=
  ∀ (s : Device) (g : Nat), g < 64 → s.chans.length = 64 → dieRuns (s.die (g / 8)) = true → pkgState s = Pkg.run →
    stopFaults s g = 0 → (s.ch g).due.contact = false → (s.ch g).due.pause = 0 →
    (engState s g = EngSt.running → (s.ch g).eng.interrupted = false →
      ((s.ch g).due.seq = 1 → let t := engineBoundary g s
        engState t g = EngSt.ended ∧ t.cget g CH_STAT_FAIL = 1 ∧ t.cget g CH_STEP_LAST_TERM = EndCode.hostAbort ∧
        t.cget g CH_STEP_LAST_SLOT = 0 ∧ t.cget g CH_STAT_END_EVT = 1 ∧ t.cget g CH_STAT_STEP_EVT = 1 ∧ leaseSt t g = 0 ∧
        (t.ch g).due.seq = 0) ∧
      ((s.ch g).due.seq = 4 → let t := engineBoundary g s
        engState t g = EngSt.halted ∧ leaseSt t g = 0 ∧ t.cget g CH_STEP_STEP = s.cget g CH_STEP_STEP ∧ (t.ch g).due.seq = 0 ∧
        (t.ch g).eng.termCnt = [0, 0, 0, 0] ∧ (t.ch g).lp.engMode = 0)) ∧
    (engState s g = EngSt.idle → s.pbit IMAGE_STAT_VALID = true → (s.die (g / 8)).hasDie = true → (s.ch g).due.seq = 16 → (∀ r ∈ (s.die (g / 8)).recipes, r.id ≠ s.cget g CH_SEQ_RECIPE) →
      let t := engineBoundary g s
      engState t g = EngSt.idle ∧ CH_STEP_NO_RECIPE.get (chView t g 0x04) = 1 ∧ (t.ch g).due.seq = 0 ∧
      t.cget g CH_STEP_RECIPE = s.cget g CH_STEP_RECIPE)

/-- The net never exceeds the limit (R255, R259, R267): after the freeze point of a slot in RUN with no limit on the reverse net,
the sum of the demands of the leases in force is at most BUS_LIMIT, in 0.1 W, as it stands in force; BUS_NET shows that sum.
It rests on the readings of notes/assumptions/46 and 70. -/
def Obligations.FreezePointsKeepTheLimit : Prop :=
  ∀ (s : State) (k : Fin 16), Sound s → (s.dev.die 0).up = true → freezeDue s.dev k.val = true → pkgState s.dev = Pkg.run → BUS_CFG_RLIM_EN.get (s.dev.reg BUS_CFG_RLIM_EN.off) = 0 →
    Does (.freezePoint k) s fun t => netDemand t ≤ 10 * s.dev.pget BUS_LIMIT_LIMIT ∧ t.reg 0x23 = wordOfInt (netDemand t) ∧
      t.pget BUS_STAT_LEASES = (leases t).length % 2 ^ BUS_STAT_LEASES.width

/-- What a freeze point does to one lease (R257, R259, R262, R263, R267). At any other clock it is none. Outside RUN it only
brings the budget's words and the flag clears that wait for it into force. In RUN a lease without a report since two freeze
points before ends, with EXPIRE_EVT; a released lease ends; a discharging lease under no reverse limit stays in force with its
reported demand; a waiting channel of another slot is not granted. No channel's gates, counters or setpoints change. It rests
on the readings of notes/assumptions/46 and 70. -/
def Obligations.FreezePointsSettleTheLeases : Prop :=
  ∀ (s : State) (k : Fin 16), Sound s →
    ((s.dev.die 0).up = false ∨ freezeDue s.dev k.val = false → Does (.freezePoint k) s (· = s.dev)) ∧
    ((s.dev.die 0).up = true → freezeDue s.dev k.val = true →
    (pkgState s.dev ≠ Pkg.run → Does (.freezePoint k) s fun t =>
      t = { s.dev with force := t.force, regs := t.regs, busW1c := 0, busClr := false } ∧
      (∀ a, a ≠ 0x26 → a ≠ 0x2A → t.reg a = s.dev.reg a) ∧ t.reg 0x26 = s.dev.reg 0x26 &&& ~~~s.dev.busW1c ∧
      t.reg 0x2A = (if s.dev.busClr then 0 else s.dev.reg 0x2A) ∧
      (∀ o ∈ [0x20, 0x21, 0x22, 0x27, 0x28], t.frc o = s.dev.reg o) ∧
      ∀ g, g < s.dev.nCh → t.frc (chAddr g 0x5F) = s.dev.reg (chAddr g 0x5F)) ∧
    (pkgState s.dev = Pkg.run → ∀ g, g < s.dev.nCh →
      let l := (s.dev.ch g).lease
      let slot := CH_SLOT_OFS.get (s.dev.reg (chAddr g CH_SLOT_OFS.off))
      (l.inForce = true → 2 ≤ l.age → l.waiting = false → Does (.freezePoint k) s fun t => (t.ch g).lease.inForce = false ∧
        t.pget BUS_STAT_EXPIRE_EVT = 1 ∧ (irqStatus t).testBit Cat.bus = true) ∧
      (l.inForce = true → l.released = true → l.waiting = false → Does (.freezePoint k) s fun t => (t.ch g).lease.inForce = false) ∧
      (l.inForce = true → l.age < 2 → l.released = false → l.reported < 0 →
        BUS_CFG_RLIM_EN.get (s.dev.reg BUS_CFG_RLIM_EN.off) = 0 → Does (.freezePoint k) s fun t =>
        (t.ch g).lease.inForce = true ∧ (t.ch g).lease.counted = l.reported ∧ (t.ch g).lease.decision = l.decision) ∧
      (l.inForce = false → l.waiting = true → slot ≠ k.val → Does (.freezePoint k) s fun t => (t.ch g).lease.inForce = false ∧
        (t.ch g).lease.waiting = true))) ∧
    Does (.freezePoint k) s fun t => (∀ g, t.ch g = { s.dev.ch g with lease := (t.ch g).lease }) ∧
      ∀ a, 0x2000 ≤ a → t.reg a = s.dev.reg a

/-- Decisions at a slot's first clock (R59, R236, R257, R262, R265, R269). A pause takes a lease away: LSTATE 3, the bit of the
map, PAUSE_EVT, the ledger's entry, REST asked for and the engine's pause at the next boundary. A refusal queues a channel
that waits, with its bit of the queue map. A grant gives the lease and clears both bits. A window event of the channel that
comes first acts first. A decision that arrived late, or none, changes nothing, and neither does one on a die that holds over.
A LEASE cell carries a channel's report, a re-seat request for the valve scheduler, or the decisions, and acts when it is
acknowledged, the lead die's own at once; decisions that come after their stamp set LATE_EVT and wait for the frame boundary
(R19, R246, R256, R257). It rests on the readings of notes/assumptions/75. -/
def Obligations.DecisionsTakeEffectAtTheSlot : Prop :=
  ∀ (s : State) (d : Die), Sound s → d.val < s.dev.nDies →
    let bit (lo hi : Fld .pkg) (g : Nat) (t : Device) : Bool := if g < 32 then t.pgetBit lo g else t.pgetBit hi (g - 32)
    let quiet (g : Nat) : Prop := ∀ h, h < 64 → h / 8 = d.val → h ≠ g → (s.dev.ch h).lease.decision = 0
    let slot := (List.range 16).any (slotBegins s.dev)
    ((s.dev.die d.val).up = true → slot = true → (s.dev.die d.val).link.upSilent = false →
      (∀ g, g < 64 → g / 8 = d.val → quiet g → (s.dev.ch g).lease.late = false → acirComesFirst s.dev g = false →
        ((s.dev.ch g).lease.decision = 2 → leaseHeld s.dev g = true → Does (.leaseDecision d) s fun t =>
          leaseSt t g = 3 ∧ bit BUS_PAUSE_MAP_0 BUS_PAUSE_MAP_1 g t = true ∧ t.pget BUS_STAT_PAUSE_EVT = 1 ∧
          t.pget BUS_PAUSE_LAST_CH = g ∧ (irqStatus t).testBit Cat.bus = true ∧ (t.ch g).due.pause = 1 ∧
          t.cget g CH_CTL_MODE = 0 ∧ (t.ch g).lease.decision = 0 ∧ engState t g = engState s.dev g) ∧
        ((s.dev.ch g).lease.decision = 3 → engState s.dev g = EngSt.wait → leaseSt s.dev g = 2 → Does (.leaseDecision d) s fun t =>
          engState t g = EngSt.queued ∧ bit BUS_QUEUE_MAP_0 BUS_QUEUE_MAP_1 g t = true ∧ t.pget BUS_STAT_QUEUE_EVT = 1 ∧
          leaseSt t g = 2) ∧
        ((s.dev.ch g).lease.decision = 1 → leaseSt s.dev g = 2 → bandCause s.dev g = 0 → (s.dev.die d.val).vdrvBad = false →
          engState s.dev g = EngSt.wait → s.dev.cget g CH_CTL_OVR = 0 → Does (.leaseDecision d) s fun t =>
          leaseHeld t g = true ∧ engState t g = EngSt.running ∧ bit BUS_PAUSE_MAP_0 BUS_PAUSE_MAP_1 g t = false ∧
          bit BUS_QUEUE_MAP_0 BUS_QUEUE_MAP_1 g t = false)) ∧
      (∀ g, g < 64 → g / 8 = d.val → quiet g → (s.dev.ch g).lease.late = false → (s.dev.ch g).lease.decision ≠ 0 →
        acirComesFirst s.dev g = true → Does (.leaseDecision d) s (· = decide1 g (acirEvent g s.dev))) ∧
      ((∀ g, g < 64 → g / 8 = d.val → (s.dev.ch g).lease.late = true) → Does (.leaseDecision d) s (· = s.dev))) ∧
    ((s.dev.die d.val).up = false ∨ slot = false ∨ (s.dev.die d.val).link.upSilent = true → Does (.leaseDecision d) s (· = s.dev)) ∧
    (∀ g, g / 8 ≠ d.val → Does (.leaseDecision d) s fun t => t.ch g = s.dev.ch g) ∧
    (∀ (g : Ch) (late : Bool), g.val / 8 < s.dev.nDies →
      let e := g.val / 8
      let l := (s.dev.die e).link
      let st := leaseSt s.dev g.val
      let report := CellLoad.demand g.val (signedOf 16 (s.dev.cget g.val CH_LEASE_DEMAND)) (leaseHeld s.dev g.val) (st == 2 || st == 3 || st == 5)
      let wants (on : Bool) : Prop := dieRuns (s.dev.die e) = true ∧ engState s.dev g.val = EngSt.reseat ∧
        (s.dev.ch g.val).eng.interrupted = false ∧ (s.dev.ch g.val).eng.seat = (if on then .wantPull else .wantRelease) ∧
        (∀ r ∈ s.dev.vreqs, r.seatCh ≠ some g.val) ∧ ∀ c ∈ l.upWait, c.load ≠ .reseat g.val on
      let sent (c : CellLoad) (t : Device) : Prop := t = { s.dev with dies := t.dies } ∧ (∀ e', e' ≠ e → t.die e' = s.dev.die e') ∧
        t.die e = { s.dev.die e with link := { l with upSeq := (l.upSeq + 1) % 8, upWait := l.upWait ++ [⟨5, false, l.upSeq, c, 0⟩] } }
      (∀ dem held waiting, let t := cellAct e (.demand g.val dem held waiting) s.dev
        (∀ h, h ≠ g.val → t.ch h = s.dev.ch h) ∧ t = { s.dev with chans := t.chans } ∧
        t.ch g.val = { s.dev.ch g.val with lease := { (s.dev.ch g.val).lease with
          reported := dem, age := 0, released := (s.dev.ch g.val).lease.inForce && !held, waiting := waiting } }) ∧
      (arrives s.dev e = true → e = 0 → Does (.cellLease (.demand g) late) s (· = cellAct 0 report s.dev)) ∧
      (arrives s.dev e = true → e ≠ 0 → (∀ c ∈ l.upWait, c.seq ≠ l.upSeq) → Does (.cellLease (.demand g) late) s (sent report)) ∧
      (arrives s.dev e = false → Does (.cellLease (.demand g) late) s (· = s.dev)) ∧
      (∀ on, acceptCode s.dev (s.dev.cget g.val CH_SEAT_VALVE) on = 0 → let t := cellAct e (.reseat g.val on) s.dev
        t.vreqs = s.dev.vreqs ++ [{
          valve := s.dev.cget g.val CH_SEAT_VALVE, on := on, order := s.dev.vorder, due := false, deferred := false
          seatCh := some g.val, acceptAt := s.dev.now, pt := resolveAngle (linePt s.dev) (slotOf s.dev g.val * 2 ^ 28) }] ∧ t.chans = s.dev.chans) ∧
      (∀ on, arrives s.dev e = true → wants on → e = 0 → Does (.cellLease (.reseat g on) late) s (· = cellAct 0 (.reseat g.val on) s.dev)) ∧
      (∀ on, arrives s.dev e = true → wants on → e ≠ 0 → (∀ c ∈ l.upWait, c.seq ≠ l.upSeq) →
        Does (.cellLease (.reseat g on) late) s (sent (.reseat g.val on))) ∧
      (∀ on, arrives s.dev e = false ∨ ¬ wants on → Does (.cellLease (.reseat g on) late) s (· = s.dev))) ∧
    (let l := (s.dev.die d.val).link
     ∀ late, (reaches s.dev d.val = true → (∀ c ∈ l.wait, c.seq ≠ l.seq) → Does (.cellLease (.decision d) late) s fun t =>
        t = { s.dev with dies := t.dies } ∧ (∀ e, e ≠ d.val → t.die e = s.dev.die e) ∧
        t.die d.val = { s.dev.die d.val with link := { l with
          seq := (l.seq + 1) % 8, wait := l.wait ++ [⟨5, decide (s.dev.clk < 2), l.seq, .decision late, 0⟩] } }) ∧
      (reaches s.dev d.val = false → Does (.cellLease (.decision d) late) s (· = s.dev))) ∧
    (cellAct d.val (.decision false) s.dev = s.dev) ∧
    ((∃ g, g < 64 ∧ g / 8 = d.val ∧ (s.dev.ch g).lease.decision ≠ 0) → let t := cellAct d.val (.decision true) s.dev
        t.pget BUS_STAT_LATE_EVT = 1 ∧
        ∀ g, g < 64 → t.ch g = if g / 8 = d.val then { s.dev.ch g with lease := { (s.dev.ch g).lease with
          late := (s.dev.ch g).lease.decision != 0 } } else s.dev.ch g)

/-- Requests for valves (R246, R282 to R287, R289, R290, R292). A host's request takes the scheduler's next place at its angle, or
64 clocks' worth ahead with NOW, unless the lowest code refuses it: 1 in a state without a scheduler, 2 with the valve off, 3
behind eight of its bank; a refusal shows at the valve, is counted and logged; for a die that is absent or off it is code 11,
logged alone; a host word at an absent die's address is discarded (R3). At the clock of its point, and no less than 64 clocks
after its acceptance, an ON starts its pull-in where the bank, a grant, the boost and the clamp are free and the store carries
it, with the bank's baton and a grant; an ON of an energised valve is done already; with SLIP 0 one that is held back is
refused with its code, and with SLIP it waits until SLIP slots past its point. An OFF releases the valve. Nothing is decided
for a die that holds over. It rests on the readings of notes/assumptions/45. -/
def Obligations.ValveRequestsAreScheduled : Prop :=
  ∀ (s : State) (v : Valve), Sound s →
    let d := v.val / 4
    let held := (s.dev.vreqs.filter fun r => r.valve / 4 == d).length
    let refusedAt (code : Nat) (t : Device) : Prop := vget t v.val VALVE_STAT_REFUSED = 1 ∧ vget t v.val VALVE_STAT_REF_CODE = code ∧
      t.dget d VALVE_CNT_REFUSALS = min (s.dev.dget d VALVE_CNT_REFUSALS + 1) 65535 ∧ (irqStatus t).testBit Cat.valve = true ∧
      phaseOf t v.val = phaseOf s.dev v.val
    let quiet (on : Bool) := ∀ r ∈ s.dev.vreqs, r.valve = v.val → r.on ≠ on
    (d < s.dev.nDies → (s.dev.die d).up = true → ∀ on now : Bool, ∀ c ∈ (if on then [Instr.valveReqOn v now] else [.valveReqOff v now]),
      (valveStateOk (pkgState s.dev) = false → Does c s fun t => refusedAt 1 t ∧ t.vreqs = s.dev.vreqs) ∧
      (valveStateOk (pkgState s.dev) = true → s.dev.dget d (VALVE_MODE_EN.at (4 * (v.val % 4))) = 0 → Does c s fun t =>
        refusedAt 2 t ∧ t.vreqs = s.dev.vreqs) ∧
      (valveStateOk (pkgState s.dev) = true → s.dev.dget d (VALVE_MODE_EN.at (4 * (v.val % 4))) = 1 → 8 ≤ held → Does c s fun t =>
        refusedAt 3 t ∧ t.vreqs = s.dev.vreqs) ∧
      (acceptCode s.dev v.val on = 0 → Does c s fun t => t.vreqs = s.dev.vreqs ++ [{
          valve := v.val, on := on, order := s.dev.vorder, due := false, deferred := false, seatCh := none, acceptAt := s.dev.now
          pt := if now then linePt s.dev + 0x800000 else resolveAngle (linePt s.dev) (valveAt s.dev v.val) }] ∧
        t.vorder = s.dev.vorder + 1 ∧ t.dget d VALVE_BANK_QUEUED = (held + 1) % 2 ^ VALVE_BANK_QUEUED.width ∧
        (on = true → vget t v.val VALVE_STAT_PENDING = 1) ∧ phaseOf t v.val = phaseOf s.dev v.val)) ∧
    (valveStateOk (pkgState s.dev) = true → s.dev.nDies ≤ d ∨ (s.dev.die d).up = false →
      ∀ on now : Bool, ∀ c ∈ (if on then [Instr.valveReqOn v now] else [.valveReqOff v now]), Does c s fun t =>
        (irqStatus t).testBit Cat.valve = true ∧ t.vreqs = s.dev.vreqs ∧ t.pget LEDGER_NEXT_SEQ = (s.dev.pget LEDGER_NEXT_SEQ + 1) % 65536 ∧
        ∀ a, 0x2000 ≤ a → t.reg a = s.dev.reg a) ∧
    ((s.dev.die 0).up = true → s.dev.nDies ≤ d → ∀ w : Word,
      Does (.registerWrite (BitVec.ofNat 16 (dieAddr d (0x22 + 4 * (v.val % 4)))) w) s (· = s.dev)) ∧
    ((s.dev.die 0).up = true → valveStateOk (pkgState s.dev) = true → d < s.dev.nDies → (s.dev.die d).up = false → ∀ w : Word,
      VALVE_REQ_KIND.get w = 1 → Does (.registerWrite (BitVec.ofNat 16 (dieAddr d (0x22 + 4 * (v.val % 4)))) w) s fun t =>
        (irqStatus t).testBit Cat.valve = true ∧ t.vreqs = s.dev.vreqs ∧ t.pget LEDGER_NEXT_SEQ = (s.dev.pget LEDGER_NEXT_SEQ + 1) % 65536) ∧
    (d < s.dev.nDies → ∀ r, s.dev.vreqs = [r] → r.valve = v.val → r.seatCh = none → decisionsReach s.dev v.val = true →
      let ready := r.due = false ∧ r.pt ≤ linePt s.dev ∧ r.acceptAt + 64 ≤ s.dev.now
      (r.due = false → ¬ ready → ∀ on, Does (.valveEvent v on) s (· = s.dev)) ∧
      (r.on = true → phaseOf s.dev v.val = Ph.off → (coilOf s.dev v.val).latched = false → pkgState s.dev = Pkg.run →
        (r.due = true ∨ ready → slipCode s.dev r = 0 → storeApplies s.dev v.val = false → ∀ c ∈ (if r.due then [Instr.pullInStart v] else [.valveEvent v true]),
          Does c s fun t => phaseOf t v.val = Ph.pull ∧ t.grants = s.dev.grants ++ [(v.val, s.dev.now)] ∧
            t.bankAt = s.dev.bankAt.set d (some s.dev.now) ∧ t.vreqs = [] ∧ (coilOf t v.val).pullAt = s.dev.now ∧
            t.dget d VALVE_BANK_PULLING = 1 ∧ t.chans = s.dev.chans) ∧
        (slipCode s.dev r ≠ 0 → s.dev.pget VBST_SCHED_SLIP = 0 → ready → Does (.valveEvent v true) s fun t =>
          refusedAt (slipCode s.dev r) t ∧ t.vreqs = [] ∧ t.grants = s.dev.grants) ∧
        (slipCode s.dev r ≠ 0 → s.dev.pget VBST_SCHED_SLIP ≠ 0 → ready → r.deferred = false → Does (.valveEvent v true) s fun t =>
          t.vreqs = [{ r with due := true, deferred := true }] ∧ phaseOf t v.val = Ph.off ∧
          t.dget d VALVE_CNT_DEFERRALS = min (s.dev.dget d VALVE_CNT_DEFERRALS + 1) 65535)) ∧
      (r.on = true → r.deferred = true → slipCode s.dev r ≠ 0 → (s.dev.die d).up = true →
        r.pt + s.dev.pget VBST_SCHED_SLIP * 2 ^ 28 ≤ linePt s.dev → Does (.valveSlipLimit v) s fun t =>
        refusedAt (slipCode s.dev r) t ∧ t.vreqs = []) ∧
      (linePt s.dev < r.pt + s.dev.pget VBST_SCHED_SLIP * 2 ^ 28 → Does (.valveSlipLimit v) s (· = s.dev)) ∧
      (r.on = true → ready → energised (phaseOf s.dev v.val) = true → Does (.valveEvent v true) s fun t => t.vreqs = [] ∧
        phaseOf t v.val = phaseOf s.dev v.val ∧ t.grants = s.dev.grants) ∧
      (r.on = false → ready → energised (phaseOf s.dev v.val) = true → Does (.valveEvent v false) s fun t =>
        phaseOf t v.val = Ph.release ∧ t.vreqs = [] ∧ t.grants = (if phaseOf s.dev v.val = Ph.pull then
          s.dev.grants.filter (fun p => p.1 != v.val) else s.dev.grants))) ∧
    (d < s.dev.nDies → quiet true → Does (.valveEvent v true) s (· = s.dev) ∧ Does (.pullInStart v) s (· = s.dev) ∧
      Does (.valveSlipLimit v) s (· = s.dev)) ∧
    (d < s.dev.nDies → quiet false → Does (.valveEvent v false) s (· = s.dev)) ∧
    (d < s.dev.nDies → decisionsReach s.dev v.val = false → Does (.pullInStart v) s (· = s.dev) ∧
      ∀ on, Does (.valveEvent v on) s (· = s.dev))

/-- The phases of a valve (R279, R280, R294). The pull-in ends TPULL after its start in DROP and gives bank and grant back, DROP
ends in HOLD, RELEASE in OFF, or in FAULT after a latching diagnostic, with no current shown; every phase change brings the
valve's words into force. A chop period shows the coil's current, in 25 mA, where the phase has one, and opens the low side of
a pull-in at IPEAK plus 1/16. It rests on the readings of notes/assumptions/45. -/
def Obligations.ValvePhasesRunTheirCourse : Prop :=
  ∀ (s : State) (v : Valve), Sound s → v.val / 4 < s.dev.nDies →
    let d := v.val / 4
    let p := phaseOf s.dev v.val
    let inForce (t : Device) : Prop := (coilOf t v.val).cfg = s.dev.reg (dieAddr d (0x20 + 4 * (v.val % 4))) ∧
      (coilOf t v.val).mode = s.dev.reg (dieAddr d (0x21 + 4 * (v.val % 4)))
    let end_ := (coilOf s.dev v.val).pullAt + VALVE_CFG_TPULL.get (coilOf s.dev v.val).cfg * 2048
    (p = Ph.pull → end_ ≤ s.dev.now → (∀ w, w < v.val → w / 4 = d → phaseOf s.dev w ≠ Ph.pull) → (coilOf s.dev v.val).seat = none →
      ∀ e : Die, e.val = d → Does (.pullEnd e) s fun t => phaseOf t v.val = Ph.drop ∧ inForce t ∧
        t.grants = s.dev.grants.filter (fun q => q.1 != v.val) ∧ t.bankAt = s.dev.bankAt.set d none ∧ t.chans = s.dev.chans) ∧
    (p = Ph.pull → s.dev.now < end_ → (∀ w, w < v.val → w / 4 = d → phaseOf s.dev w ≠ Ph.pull) →
      ∀ e : Die, e.val = d → Does (.pullEnd e) s (· = s.dev)) ∧
    ((∀ w, w / 4 = d → phaseOf s.dev w ≠ Ph.pull) → ∀ e : Die, e.val = d → Does (.pullEnd e) s (· = s.dev)) ∧
    (p = Ph.drop → Does (.dropToHold v) s fun t => phaseOf t v.val = Ph.hold ∧ inForce t ∧ t.grants = s.dev.grants ∧
      t.vreqs = s.dev.vreqs ∧ t.chans = s.dev.chans) ∧
    (p ≠ Ph.drop → Does (.dropToHold v) s (· = s.dev)) ∧
    (p = Ph.release → Does (.releaseToOff v) s fun t =>
      phaseOf t v.val = (if (coilOf s.dev v.val).latched = true ∧ (vget s.dev v.val VALVE_STAT_OPEN ≠ 0 ∨
        vget s.dev v.val VALVE_STAT_SHORT ≠ 0 ∨ vget s.dev v.val VALVE_STAT_SLOW ≠ 0) then Ph.fault else Ph.off) ∧ vget t v.val VALVE_STAT_IMEAS = 0 ∧ inForce t ∧
      vget t v.val VALVE_STAT_OPEN = vget s.dev v.val VALVE_STAT_OPEN ∧ t.chans = s.dev.chans) ∧
    (p ≠ Ph.release → Does (.releaseToOff v) s (· = s.dev)) ∧
    (∀ i, p ≠ Ph.off → p ≠ Ph.fault → Does (.chopPeriod v i) s fun t => vget t v.val VALVE_STAT_IMEAS = min i 255 ∧
      phaseOf t v.val = p ∧ DieOnly d (· = dieAddr d (0x30 + v.val % 4)) s.dev t ∧
      (p = Ph.pull → 17 * 50 * ipeakOf s.dev v.val ≤ 16 * 25 * i → lowSide t v.val = false ∧ recirculates t v.val = true) ∧
      (p = Ph.pull → 25 * i < 50 * ipeakOf s.dev v.val → (coilOf s.dev v.val).chopOff = false → lowSide t v.val = true)) ∧
    (∀ i, p = Ph.off ∨ p = Ph.fault → Does (.chopPeriod v i) s (· = s.dev))

/-- What watches the valves (R277, R279, R287, R288, R433, R434). OPEN (below 100 mA 100 µs after the start of a pull-in, or 2 ms
of a weak current in HOLD), SHORT anywhere and SLOW (IPEAK not reached TREACH after the start) set their flag with an
interrupt and release the valve towards FAULT; elsewhere they show nothing. CLAMP_OT of a bank sets and clears; an overvoltage
of VBST latches and stops the boost. In HOLD with the store below its reserve the highest holding KEEP valve is released. A
baton is taken back with its event 25 ms after it was granted. It rests on the readings of notes/assumptions/45 and 53. -/
def Obligations.ValveDiagnosticsAndBatons : Prop :=
  ∀ (s : State) (v : Valve) (e : Die), Sound s → v.val / 4 < s.dev.nDies → e.val < s.dev.nDies →
    let p := phaseOf s.dev v.val
    let faulted (f : Fld .die) (t : Device) : Prop := vget t v.val f = 1 ∧ (coilOf t v.val).latched = true ∧
      phaseOf t v.val = Ph.release ∧ (irqStatus t).testBit Cat.valve = true ∧ t.chans = s.dev.chans
    let c := coilOf s.dev v.val
    (p = Ph.pull → c.pullAt + 2048 ≤ s.dev.now → vget s.dev v.val VALVE_STAT_IMEAS < 4 →
      vget s.dev v.val VALVE_STAT_OPEN = 0 → Does (.valveOpen v) s (faulted VALVE_STAT_OPEN)) ∧
    (∀ at_, p = Ph.hold → c.weakAt = some at_ → at_ + 40960 ≤ s.dev.now → vget s.dev v.val VALVE_STAT_OPEN = 0 →
      Does (.valveOpen v) s (faulted VALVE_STAT_OPEN)) ∧
    (p = Ph.pull → 4 ≤ vget s.dev v.val VALVE_STAT_IMEAS ∨ s.dev.now < c.pullAt + 2048 → Does (.valveOpen v) s (· = s.dev)) ∧
    (p = Ph.hold → c.weakAt = none → Does (.valveOpen v) s (· = s.dev)) ∧
    (p ≠ Ph.pull → p ≠ Ph.hold → Does (.valveOpen v) s (· = s.dev)) ∧
    (p ≠ Ph.fault → vget s.dev v.val VALVE_STAT_SHORT = 0 → Does (.valveShort v) s (faulted VALVE_STAT_SHORT)) ∧
    (p = Ph.fault → vget s.dev v.val VALVE_STAT_SHORT = 1 → Does (.valveShort v) s (· = s.dev)) ∧
    (p = Ph.pull → c.reached = false → c.pullAt + VALVE_CFG_TREACH.get c.cfg * 2048 ≤ s.dev.now →
      vget s.dev v.val VALVE_STAT_SLOW = 0 → Does (.valveSlow v) s fun t => faulted VALVE_STAT_SLOW t ∧
      t.grants = s.dev.grants.filter (fun q => q.1 != v.val)) ∧
    (p ≠ Ph.pull ∨ c.reached = true ∨ s.dev.now < c.pullAt + VALVE_CFG_TREACH.get c.cfg * 2048 →
      Does (.valveSlow v) s (· = s.dev)) ∧
    (s.dev.dbit e.val VALVE_BANK_CLAMP_OT = false → Does (.clampOt e) s fun t => t.dbit e.val VALVE_BANK_CLAMP_OT = true ∧
      (irqStatus t).testBit Cat.valve = true ∧ t.chans = s.dev.chans) ∧
    (s.dev.dbit e.val VALVE_BANK_CLAMP_OT = true → Does (.clampOt e) s (· = s.dev)) ∧
    (Does (.clampOtClear e) s fun t => t.dbit e.val VALVE_BANK_CLAMP_OT = false ∧ RegsOnly (· = dieAddr e.val 0x34) s.dev t) ∧
    (Does .boostOv s fun t => t.pbit VBST_STAT_OV = true ∧ t.pget VBST_STAT_OV_EVT = 1 ∧ boostOn t = false ∧
      RegsOnly (· = VBST_STAT_OV.off) s.dev t) ∧
    (pkgState s.dev = Pkg.hold → (s.dev.reg 0x49).toNat < s.dev.pfrc STORE_RES_RESERVE → p = Ph.hold → keeps s.dev v.val = true →
      decisionsReach s.dev v.val = true → (∀ w, w < 4 * s.dev.nDies → v.val < w →
        phaseOf s.dev w ≠ Ph.hold ∨ keeps s.dev w = false ∨ decisionsReach s.dev w = false) → Does .storeRelease s fun t =>
        phaseOf t v.val = Ph.release ∧ vget t v.val VALVE_STAT_STORE_LOW = 1 ∧ (irqStatus t).testBit Cat.valve = true) ∧
    (pkgState s.dev ≠ Pkg.hold ∨ s.dev.pfrc STORE_RES_RESERVE ≤ (s.dev.reg 0x49).toNat → Does .storeRelease s (· = s.dev)) ∧
    (∀ at_, s.dev.bankAt.length = 8 → s.dev.bankAt[e.val]? = some (some at_) → at_ + 512000 ≤ s.dev.now → Does (.valveBatonExpiry (.bank e)) s fun t =>
      t.bankAt = s.dev.bankAt.set e.val none ∧ t.pget BATON_STAT_BANK_EXP_EVT = 1 ∧ (irqStatus t).testBit Cat.link = true ∧
      (t.pget BATON_STAT_BANK_HELD).testBit e.val = false ∧ phaseOf t v.val = p) ∧
    (∀ at_, s.dev.bankAt[e.val]? = some (some at_) → s.dev.now < at_ + 512000 →
      Does (.valveBatonExpiry (.bank e)) s (· = s.dev)) ∧
    (s.dev.bankAt[e.val]? = some none → Does (.valveBatonExpiry (.bank e)) s (· = s.dev)) ∧
    ((s.dev.grants.any fun q => q.1 == v.val && decide (q.2 + 512000 ≤ s.dev.now)) = true → Does (.valveBatonExpiry (.vbst v)) s fun t =>
      t.grants = s.dev.grants.filter (fun q => q.1 != v.val) ∧ t.pget BATON_STAT_VBST_EXP_EVT = 1 ∧
      (irqStatus t).testBit Cat.link = true ∧ phaseOf t v.val = p) ∧
    ((∀ q ∈ s.dev.grants, q.1 ≠ v.val ∨ s.dev.now < q.2 + 512000) → Does (.valveBatonExpiry (.vbst v)) s (· = s.dev))

/-- Power-fail trips, the hand-over and the bus (R269, R272, R273, R290, R298, R307 to R311). A trip in RUN enters HANDOVER: the
dies whose own comparator tripped stop at once, the broadcast stop follows 24 clocks on, every lease ends and valves without
KEEP are released. In QUALIFY, RECOVER and TEST a trip stops every channel and enters HOLD; a good bus leaves HOLD for
QUALIFY. A die's own trip stops its channels and takes their leases. The hand-over ends in HOLD, counted, with HO_EVT. A good
bus shows VBUS_BACK in HANDOVER and ends HOLD; thresholds that break their relation are ignored whole. FIT sets where the bus
is classified and calm for FIT_HC half cycles of the line meter; CLR waits for the freeze point. Leaving HOLD while the
comparator is tripped waits until it is ready (the model's choice, log entry 65). It rests on the readings of
notes/assumptions/25 and 26. -/
def Obligations.TripsHandOverToHold : Prop :=
  ∀ s : State, Sound s →
    let up := (s.dev.die 0).up
    let good := s.dev.pget PGOOD_CTL_GOOD
    (∀ own, up = true → pkgState s.dev = Pkg.run → s.dev.supply.pfTripped = false → Does (.powerFailTrip own) s fun t =>
      pkgState t = Pkg.handover ∧ t.pget PKG_STATE_PREV = Pkg.run ∧ t.supply.pfTripped = true ∧ t.supply.tripAt = s.dev.now ∧
      t.bcast = s.dev.bcast ++ [⟨.sched, [0], (s.dev.now + 24) / 5120, (s.dev.now + 24) % 5120, 1⟩] ∧
      (∀ g, g < s.dev.nCh → leaseSt t g = 0 ∧ (t.ch g).lease.inForce = false ∧
        (own.toNat.testBit (g / 8) = true → (t.ch g).lp.gl = false)) ∧
      ∀ v, v < 4 * s.dev.nDies → keeps s.dev v = false → (s.dev.die (v / 4)).recov.active = false → decisionsReach s.dev v = true →
        energised (phaseOf s.dev v) = true → phaseOf t v = Ph.release) ∧
    (∀ own, up = false ∨ pkgState s.dev ≠ Pkg.run ∨ s.dev.supply.pfTripped = true → Does (.powerFailTrip own) s (· = s.dev)) ∧
    (up = true → s.dev.supply.pfTripped = false → pkgState s.dev ∈ [Pkg.qualify, Pkg.recover, Pkg.test] → Does .pfTripNonRun s fun t =>
      pkgState t = Pkg.hold ∧ t.supply.pfTripped = true ∧
      ∀ g, g < s.dev.nCh → (t.ch g).lp.gl = false ∧ (t.ch g).acc = (s.dev.ch g).acc) ∧
    (up = true → s.dev.supply.pfTripped = false → pkgState s.dev ∉ [Pkg.qualify, Pkg.recover, Pkg.test, Pkg.run] →
      Does .pfTripNonRun s fun t => t = { s.dev with supply := { s.dev.supply with pfTripped := true } }) ∧
    (∀ d : Die, d.val < s.dev.nDies → (s.dev.die d.val).up = true → pkgState s.dev = Pkg.run → Does (.localPfTrip d) s fun t =>
      (∀ g, g < 64 → g / 8 = d.val → (t.ch g).lp.gl = false ∧ leaseHeld t g = false ∧ (t.ch g).acc = (s.dev.ch g).acc) ∧
      (∀ g, g / 8 ≠ d.val → t.ch g = s.dev.ch g) ∧ (irqStatus t).testBit Cat.link = true ∧ pkgState t = Pkg.run) ∧
    (∀ d : Die, d.val < s.dev.nDies → (s.dev.die d.val).up = false ∨ pkgState s.dev ≠ Pkg.run → Does (.localPfTrip d) s (· = s.dev)) ∧
    (up = true → pkgState s.dev = Pkg.handover → s.dev.nvm.cur ≠ some .handover ∨ s.dev.supply.fallWait = false →
      s.dev.supply.softDue = false → s.dev.supply.wdtDue = false → Does .handoverComplete s fun t =>
        pkgState t = (if good = 1 ∧ s.dev.supply.pfTripped = false then Pkg.qualify else Pkg.hold) ∧
        t.pget HANDOVER_STAT_HO_EVT = 1 ∧
        t.pget HANDOVER_STAT_COUNT = min (s.dev.pget HANDOVER_STAT_COUNT + 1) (2 ^ HANDOVER_STAT_COUNT.width - 1) ∧
        (irqStatus t).testBit Cat.bus = true) ∧
    (up = false ∨ pkgState s.dev ≠ Pkg.handover ∨ (s.dev.nvm.cur = some .handover ∧ s.dev.supply.fallWait = true) → Does .handoverComplete s (· = s.dev)) ∧
    (up = true → Does .vbusGood s fun t => t.pget PGOOD_CTL_GOOD = 1 ∧
      pkgState t = (if pkgState s.dev = Pkg.hold ∧ s.dev.supply.pfTripped = false then Pkg.qualify else pkgState s.dev) ∧
      t.supply.qualAt = (if good = 1 then s.dev.supply.qualAt else s.dev.now) ∧
      (pkgState s.dev = Pkg.handover → t.pget HANDOVER_STAT_VBUS_BACK = 1)) ∧
    (up = true → Does .vbusNotGood s (WordOnly PGOOD_CTL_GOOD.off (PGOOD_CTL_GOOD.put 0 (s.dev.reg PGOOD_CTL_GOOD.off)) s.dev)) ∧
    (up = false → Does .vbusGood s (· = s.dev) ∧ Does .vbusNotGood s (· = s.dev)) ∧
    Does .pfReadyAgain s (fun t => t.supply.pfTripped = false ∧
      pkgState t = (if up = true ∧ pkgState s.dev = Pkg.hold ∧ good = 1 then Pkg.qualify else pkgState s.dev) ∧
      (up = false ∨ pkgState s.dev ≠ Pkg.hold ∨ good ≠ 1 → t = { s.dev with supply := { s.dev.supply with pfTripped := false } })) ∧
    Does .vbusBelowRise s (fun t => t = { s.dev with supply := { s.dev.supply with
      qualAt := s.dev.now, qualMeter := s.dev.line.meter, lockDone := false, lockFrom := s.dev.now } }) ∧
    (∀ w, (thresholdsOk (PGOOD_CTL_RISE.get w) (PGOOD_CTL_FALL.get w) (s.dev.pget HANDOVER_CTL_PF_TH) = true →
        Does (.thresholdWrite false w) s fun t => t.pget PGOOD_CTL_RISE = PGOOD_CTL_RISE.get w ∧
          t.pget PGOOD_CTL_FALL = PGOOD_CTL_FALL.get w ∧ t.pget PGOOD_CTL_GOOD = good ∧
          (∀ d, d < s.dev.nDies → (t.die d).glean.riseCopy = PGOOD_CTL_RISE.get w) ∧
          RegsOnly (· = PGOOD_CTL_RISE.off) { s.dev with dies := t.dies } t) ∧
      (thresholdsOk (PGOOD_CTL_RISE.get w) (PGOOD_CTL_FALL.get w) (s.dev.pget HANDOVER_CTL_PF_TH) = false →
        Does (.thresholdWrite false w) s (· = s.dev)) ∧
      (thresholdsOk (s.dev.pget PGOOD_CTL_RISE) (s.dev.pget PGOOD_CTL_FALL) (HANDOVER_CTL_PF_TH.get w) = true →
        Does (.thresholdWrite true w) s fun t => t.pget HANDOVER_CTL_PF_TH = HANDOVER_CTL_PF_TH.get w ∧
          t.pget HANDOVER_CTL_QUAL_TIME = max 1 (HANDOVER_CTL_QUAL_TIME.get w) ∧ RegsOnly (· = HANDOVER_CTL_PF_TH.off) s.dev t) ∧
      (thresholdsOk (s.dev.pget PGOOD_CTL_RISE) (s.dev.pget PGOOD_CTL_FALL) (HANDOVER_CTL_PF_TH.get w) = false →
        Does (.thresholdWrite true w) s (· = s.dev))) ∧
    (pkgState s.dev ∈ [Pkg.qualify, Pkg.recover, Pkg.test] → s.dev.pget BUS_STAT_MON_CLASS = 0 →
      s.dev.supply.mon.fitFrom + s.dev.pfrc BUS_NOM_FIT_HC * meterHalf ≤ s.dev.line.meter → Does .fitSet s
      (WordOnly BUS_STAT_FIT.off (BUS_STAT_FIT.put 1 (s.dev.reg BUS_STAT_FIT.off)) s.dev)) ∧
    (pkgState s.dev ∉ [Pkg.qualify, Pkg.recover, Pkg.test] ∨ s.dev.pget BUS_STAT_MON_CLASS ≠ 0 ∨
      s.dev.line.meter < s.dev.supply.mon.fitFrom + s.dev.pfrc BUS_NOM_FIT_HC * meterHalf → Does .fitSet s (· = s.dev)) ∧
    (∀ w, Does (.busMonClr w) s fun t => t = (if BUS_MON_CNT_CLR.get w = 1 then { s.dev with busClr := true } else s.dev))

/-- Stops and what starts a part again (R30, R308, R310, R313 to R316, R386, R403, R420, R436). HOLD ends in KEEP when the store
is below the reserve or HOLD_MAX minutes have passed, and a collapse of VSYS enters KEEP from any state: every main domain is
down, its balls in husk. Ship mode is asked for with its key where nothing draws current, the latches set and a checkpoint
requested, else refused; at the boundaries that follow come the wait for it, 50 ms at most, the rails' off-sequence, and SHIP
with the keeper cut off. WAKE_N low for 100 ms, or VBUS after it was low, ends it, with its cause, also in KEEP with the latch
set. RESET_N low holds every ball in husk and stops the domains, and its rise lets them start; power-on, KEEP and a woken ship
state ask for a start with their causes. PKG_WDT frames after a stall of the lead die its watchdog resets it, with the dies
that recover, and not the dies in service; the leases of RUN end. It rests on the readings of notes/assumptions/24, 27 and 29. -/
def Obligations.StopsEnterKeepAndShip : Prop :=
  ∀ s : State, Sound s →
    let up := (s.dev.die 0).up
    let allDown (t : Device) : Prop := ∀ d, d < s.dev.nDies → (t.die d).up = false ∧ ((s.dev.die d).up = true → (t.die d).husk = true)
    let isNew := (s.dev.die 0).glean.isNew
    let latch := (s.dev.die 0).glean.shipLatch
    let woke := (s.dev.die 0).glean.woke
    let dead : Prop := (s.dev.die 0).recov.stalled = true ∧
      (s.dev.die 0).recov.stallAt / 5120 + s.dev.pget FAULT_CFG_PKG_WDT ≤ s.dev.frame
    let asks (cause : Nat) (t : Device) : Prop := t = { s.dev with supply := { s.dev.supply with start := some cause } }
    (let low := (s.dev.reg 0x49).toNat < s.dev.pfrc STORE_RES_RESERVE
     let spent := s.dev.pfrc HANDOVER_CFG_HOLD_MAX ≠ 0 ∧
       s.dev.passed s.dev.supply.stateAt (secClocks (60 * s.dev.pfrc HANDOVER_CFG_HOLD_MAX)) = true
     (up = true → pkgState s.dev = Pkg.hold → low → Does .holdStoreLow s fun t => pkgState t = Pkg.keep ∧ allDown t ∧ t.pins.converter = false) ∧
     (up = true → pkgState s.dev = Pkg.hold → spent → Does .holdMaxExpiry s fun t => pkgState t = Pkg.keep ∧ allDown t ∧ t.pins.converter = false) ∧
     (up = false ∨ pkgState s.dev ≠ Pkg.hold ∨ ¬ low → Does .holdStoreLow s (· = s.dev)) ∧
     (up = false ∨ pkgState s.dev ≠ Pkg.hold ∨ ¬ spent → Does .holdMaxExpiry s (· = s.dev))) ∧
    ((∃ d, d < s.dev.nDies ∧ (s.dev.die d).up = true) → Does .vsysCollapse s fun t => pkgState t = Pkg.keep ∧ allDown t ∧
      t.pget PKG_STATE_PREV = pkgState s.dev) ∧
    ((∀ d, d < s.dev.nDies → (s.dev.die d).up = false) → Does .vsysCollapse s (· = s.dev)) ∧
    (∀ w, up = true → SHIP_CTL_ENTER.get w = 1 → SHIP_CTL_KEY.get w = 0xC3 → s.dev.supply.ship = 0 →
      (shipOk s.dev = true → Does (.shipEnter w) s fun t => t.supply = { s.dev.supply with ship := 1, shipAt := s.dev.now } ∧
        (∀ d, d < s.dev.nDies → (t.die d).glean.shipLatch = true) ∧ (t.pbit CKPT_STAT_PENDING || t.pbit CKPT_STAT_BUSY) = true ∧
        pkgState t = pkgState s.dev ∧ t.chans = s.dev.chans ∧ t.pins = s.dev.pins) ∧
      (shipOk s.dev = false → Does (.shipEnter w) s
        (WordOnly 0x4C (SHIP_CTL_REFUSED_EVT.put 1 (s.dev.reg 0x4C)) s.dev))) ∧
    (∀ w, up = false ∨ SHIP_CTL_ENTER.get w = 0 ∨ SHIP_CTL_KEY.get w ≠ 0xC3 ∨ s.dev.supply.ship ≠ 0 → Does (.shipEnter w) s (· = s.dev)) ∧
    (let written : Prop := s.dev.nvm.sectors = 0 ∨ (s.dev.pget CKPT_STAT_PENDING = 0 ∧ s.dev.pget CKPT_STAT_BUSY = 0) ∨
       s.dev.passed s.dev.supply.shipAt (msClocks 50) = true
     let t := shipBoundary s.dev
     (s.dev.supply.ship = 1 → written → t.supply.ship = 2 ∧ (t.supply.seq.kind = 2 ∨ ∀ r, r < 3 → auxOn t r = false) ∧ pkgState t = pkgState s.dev) ∧
     (s.dev.supply.ship = 2 → s.dev.supply.seq.kind ≠ 2 → pkgState t = Pkg.ship ∧ allDown t ∧ t.pins.converter = false ∧
       t.pins.keeperFeed = false ∧ (∀ r, r < 3 → auxOn t r = false) ∧ (∀ d, d < s.dev.nDies → (t.die d).glean.shipLatch = (s.dev.die d).glean.shipLatch) ∧
       (t.die 0).glean.vbusLow = decide (s.dev.pget PATH_STAT_VBUS_RD * 10 + 1000 < (s.dev.die 0).glean.riseCopy * 100)) ∧
     (s.dev.supply.ship = 0 ∨ (s.dev.supply.ship = 1 ∧ ¬ written) ∨ (s.dev.supply.ship = 2 ∧ s.dev.supply.seq.kind = 2) → t = s.dev)) ∧
    (up = false → pkgState s.dev ∈ [Pkg.ship, Pkg.keep] → latch = true →
     ∀ p ∈ [(1, Instr.shipWakeN 100), (1, .shipWakeN 5000), (2, .shipVbusWake)], (p.1 = 2 → (s.dev.die 0).glean.vbusLow = true) → Does p.2 s fun t =>
      t.pget SHIP_CTL_LAST_EXIT = p.1 ∧ t.pins.keeperFeed = true ∧
      t.pins.converter = (s.dev.pins.converter || (s.dev.die 0).glean.okKeep &&
        (p.1 == 1 || s.dev.supply.start == some 2 && !s.dev.supply.resetLow)) ∧
      (∀ d, d < s.dev.nDies → (t.die d).glean.shipLatch = false) ∧ (t.die 0).glean.woke = true ∧ pkgState t = pkgState s.dev) ∧
    (∀ ms, ms < 100 → Does (.shipWakeN ms) s (· = s.dev)) ∧
    ((s.dev.die 0).glean.vbusLow = false → Does .shipVbusWake s (· = s.dev)) ∧
    (up = true ∨ pkgState s.dev ∉ [Pkg.ship, Pkg.keep] ∨ latch = false → Does .shipVbusWake s (· = s.dev) ∧ ∀ ms, Does (.shipWakeN ms) s (· = s.dev)) ∧
    (Does .resetNLow s fun t => allDown t ∧ t.pins.huskAll = true ∧ t.supply.resetLow = true ∧ pkgState t = pkgState s.dev ∧
      ((∃ d, d < s.dev.nDies ∧ (s.dev.die d).up = true) → t.supply.start = some 2)) ∧
    (s.dev.supply.resetLow = true → Does .resetNRise s fun t => t.supply = { s.dev.supply with resetLow := false } ∧
      t.pins.huskAll = s.dev.supply.tmode ∧ t = { s.dev with supply := t.supply, pins := t.pins } ∧
      (up = false → latch = false → (s.dev.die 0).glean.okKeep = true → s.dev.supply.start = some 2 → t.pins.converter = true)) ∧
    (s.dev.supply.resetLow = false → Does .resetNRise s (· = s.dev)) ∧
    (up = false → isNew = true → Does .coldPowerOn s fun t => pkgState t = Pkg.cold ∧ t.supply.start = some 0) ∧
    (up = true ∨ isNew = false → Does .coldPowerOn s (· = s.dev)) ∧
    (up = false → isNew = false → latch = false → woke = true → Does .warmStart s (asks 6)) ∧
    (up = false → isNew = false → latch = false → woke = false → pkgState s.dev = Pkg.keep → Does .warmStart s (asks 1)) ∧
    (up = true ∨ isNew = true ∨ latch = true ∨ (woke = false ∧ pkgState s.dev ≠ Pkg.keep) → Does .warmStart s (· = s.dev)) ∧
    (up = true → dead → pkgState s.dev ≠ Pkg.handover → Does .pkgWatchdogExpiry s fun t => (t.die 0).up = false ∧ t.supply.start = some 4 ∧
      (pkgState s.dev = Pkg.run → ∀ g, g < s.dev.nCh → leaseHeld t g = false) ∧
      (∀ d, d ≠ 0 → d < s.dev.nDies → (s.dev.die d).recov.active = true → (t.die d).up = false) ∧
      (∀ d, d ≠ 0 → (s.dev.die d).recov.active = false → (t.die d).up = (s.dev.die d).up) ∧ pkgState t = pkgState s.dev) ∧
    (up = true → dead → pkgState s.dev = Pkg.handover → Does .pkgWatchdogExpiry s fun t =>
      t = { s.dev with supply := { s.dev.supply with wdtDue := true } }) ∧
    (up = false ∨ ¬ dead → Does .pkgWatchdogExpiry s (· = s.dev))

/-- From a start to RUN (R311, R387 to R393, R397, R405, R474). A pending start brings the dies up in husk under state LOAD with
its cause, counted, unless RESET_N is held low; TMODE holds every ball in husk. With the lead die's domain new the cause is 0.
The end of the load comes when every die that serves is seeded and has booked; it puts the dies under their engines and enters
QUALIFY, or RECOVER where another die stayed up. With everything qualified and the line locked, or its wait over, the part
enters RUN and the resume decisions are taken, once; the end of LOCK_TMO seconds of waiting is flagged. A die whose port has
not trained stays in husk. RELEASE_ALL with its key has every held channel released at the next boundary. It rests on the
readings of notes/assumptions/20, 21, 23, 65 and 74. -/
def Obligations.StartsLeadToRun : Prop :=
  ∀ s : State, Sound s →
    let waited : Prop := s.dev.passed s.dev.supply.lockFrom (secClocks (s.dev.pget RESUME_CTL_LOCK_TMO)) = true
    let real (cause : Nat) : Nat := if (s.dev.die 0).glean.isNew then 0 else cause
    let prepared : Prop := ∀ d, d < s.dev.nDies → let x := s.dev.die d
      x.up = true → x.husk = false → d = 0 ∨ x.link.trained = true → x.seeded = true ∧ x.booked ≠ none
    (∀ cause tmode, s.dev.supply.start = some cause → cause < 7 → s.dev.supply.resetLow = false → Does (.mainDomainStart tmode) s fun t =>
      pkgState t = Pkg.load ∧ t.pget RESET_STAT_CAUSE = real cause ∧ t.pget RESET_STAT_RESET_EVT = 1 ∧
      ((s.dev.die 0).up = false → t.pget RESET_STAT_LAST_STATE = (s.dev.die 0).glean.lastState % 16) ∧ (t.die 0).up = true ∧ (t.die 0).husk = true ∧
      t.pget PKG_STATE_DIES_RUN % 2 = 0 ∧ t.supply.start = none ∧ t.pins.huskAll = tmode ∧ t.host = HostPort.reset ∧ t.vreqs = [] ∧
      t.nvm.flash = s.dev.nvm.flash ∧ t.otp.running = s.dev.otp.running ∧
      (real cause ≠ 4 → ∀ d, d < s.dev.nDies → (t.die d).up = true ∧ (t.die d).husk = true ∧ (t.die d).otp = (s.dev.die d).otp)) ∧
    (∀ tmode, (s.dev.supply.start = none ∧ (s.dev.die 0).up = false) ∨ (s.dev.supply.start ≠ none ∧ s.dev.supply.resetLow = true) →
      Does (.mainDomainStart tmode) s (· = s.dev)) ∧
    ((s.dev.die 0).up = true → pkgState s.dev = Pkg.load → s.dev.pbit IMAGE_STAT_VALID = true → prepared → s.dev.supply.pfTripped = false →
      Does .loadEnd s fun t =>
        pkgState t = (if s.dev.dieList.any (fun d => d != 0 && dieRuns (s.dev.die d) && (s.dev.die d).link.trained) then Pkg.recover else Pkg.qualify) ∧
        ∀ d, d < s.dev.nDies →
          (t.die d).ctl = ((s.dev.die d).up && !(s.dev.die d).husk && (d == 0 || (s.dev.die d).link.trained)) ∧
          (d ≠ 0 → (s.dev.die d).up = true → (s.dev.die d).link.trained = false → (t.die d).husk = true) ∧
          (t.pget PKG_STATE_DIES_RUN).testBit d = dieRuns (t.die d)) ∧
    ((s.dev.die 0).up = true → pkgState s.dev = Pkg.load → s.dev.pbit IMAGE_STAT_VALID = true → prepared → s.dev.supply.pfTripped = true →
      Does .loadEnd s fun t => pkgState t = Pkg.hold ∧ ∀ g, g < s.dev.nCh → (t.ch g).lp.gl = false) ∧
    ((s.dev.die 0).up = false ∨ pkgState s.dev ≠ Pkg.load ∨ s.dev.pbit IMAGE_STAT_VALID = false ∨ ¬ prepared → Does .loadEnd s (· = s.dev)) ∧
    (qualified s.dev = true → lockOk s.dev = true → Does .qualifyPass s fun t => pkgState t = Pkg.run ∧
      t.pget PKG_STATE_PREV = pkgState s.dev ∧ t.pbit RESUME_STAT_DONE = true) ∧
    (qualified s.dev = false ∨ lockOk s.dev = false → Does .qualifyPass s (· = s.dev)) ∧
    (qualified s.dev = true → lockOk s.dev = false → waited → Does .lockWaitTimeout s fun t => t.pget RESUME_CMD_LOCK_TMO_EVT = 1 ∧
      lockOk t = true ∧ t = { s.dev with regs := t.regs, supply := { s.dev.supply with lockDone := true } }) ∧
    (qualified s.dev = false ∨ lockOk s.dev = true ∨ ¬ waited → Does .lockWaitTimeout s (· = s.dev)) ∧
    (∀ w, RESUME_CMD_RELEASE_ALL.get w = 1 → RESUME_CMD_KEY.get w = 0xC3 → Does (.releaseAll w) s fun t =>
      t = { s.dev with chans := t.chans } ∧ ∀ g, g < s.dev.nCh → t.ch g = (if engState s.dev g = EngSt.resumeHalt then
        { s.dev.ch g with due := { (s.dev.ch g).due with seq := (s.dev.ch g).due.seq ||| 8 } } else s.dev.ch g)) ∧
    (∀ w, RESUME_CMD_RELEASE_ALL.get w = 0 ∨ RESUME_CMD_KEY.get w ≠ 0xC3 → Does (.releaseAll w) s (· = s.dev))

/-- The auxiliary rails (R300 to R302). A host's ON bits switch single rails at once: one goes off, one without a latched fault
goes on, AUX_C only with a good AUX_B, else DEP_C. AUX_UV, of a rail that read low 8 times or is not good 5 ms after it came
on, latches, turns its rail off with an entry and aborts an on-sequence. A sequence starts over from its first position; an
off-sequence turns its first rail off at once, and each delay, once it has passed, the next; with no rail on it ends. No
channel is concerned. It rests on the readings of notes/assumptions/44. -/
def Obligations.RailsSwitchAndSequence : Prop :=
  ∀ s : State, Sound s →
    let on (r : Nat) (w : Word) : Bool := (auxOnBit r).get w == 1
    let uv (r : Nat) : Prop := 8 ≤ nth s.dev.supply.auxLow r ∨
      (auxGood s.dev r = false ∧ s.dev.passed (nth s.dev.supply.auxAt r) (msClocks 5) = true)
    let waited : Prop := s.dev.passed s.dev.supply.seq.since (msClocks (seqWait s.dev)) = true
    (∀ w, Does (.auxOnWrite w) s fun t => t.chans = s.dev.chans ∧
      t.supply = { s.dev.supply with auxAt := t.supply.auxAt, auxLow := t.supply.auxLow } ∧
      (∀ r, r < 2 → (on r w = false → auxOn t r = false) ∧
        (on r w = true → auxOn t r = (auxOn s.dev r || railFree s.dev r))) ∧
      (on 2 w = false → auxOn t 2 = false) ∧
      (on 2 w = true → on 1 w = true → auxOn s.dev 1 = true → auxGood s.dev 1 = true → auxOn t 2 = (auxOn s.dev 2 || railFree s.dev 2)) ∧
      (on 2 w = true → auxOn s.dev 2 = false → auxGood s.dev 1 = false → railFree s.dev 2 = true → auxOn t 2 = false ∧ t.pbit AUX_STAT_DEP_C = true)) ∧
    (∀ r : Rail, auxOn s.dev (railNo r) = true → uv (railNo r) → s.dev.pbit (auxUvF (railNo r)) = false → s.dev.supply.seq.kind ≠ 1 → Does (.auxUv r) s fun t =>
      auxOn t (railNo r) = false ∧ auxGood t (railNo r) = false ∧ t.pbit (auxUvF (railNo r)) = true ∧ (irqStatus t).testBit Cat.keep = true ∧
      t.chans = s.dev.chans ∧ t.supply = s.dev.supply ∧ (r = .b → auxOn t 2 = false)) ∧
    (∀ r : Rail, auxOn s.dev (railNo r) = true → uv (railNo r) → s.dev.supply.seq.kind = 1 → Does (.auxUv r) s fun t => auxOn t (railNo r) = false ∧
      t.pget AUX_STAT_SEQ = 4 ∧ t.pbit AUX_STAT_SEQ_FAIL = true ∧ t.supply.seq.kind = 0) ∧
    (∀ r : Rail, auxOn s.dev (railNo r) = false ∨ ¬ uv (railNo r) → Does (.auxUv r) s (· = s.dev)) ∧
    (Does .auxSeqOn s fun t => t.chans = s.dev.chans ∧ t.supply.seq.set = allRails ∧
      ((∀ r ∈ allRails, onPos s.dev r = 0) → t.pget AUX_STAT_SEQ = 2 ∧ t.supply.seq.kind = 0) ∧
      (∀ r ∈ allRails, onPos s.dev r = 1 → t.pget AUX_STAT_SEQ = 1 ∧ t.supply.seq.kind = 1 ∧ t.supply.seq.pos = 1 ∧ r ∈ t.supply.seq.rails)) ∧
    (Does .auxSeqOff s fun t => t.chans = s.dev.chans ∧
      ((∀ r ∈ allRails, auxOn s.dev r = false) → t.pget AUX_STAT_SEQ = 0 ∧ t.supply.seq.kind = 0) ∧
      (∀ r rest, (offOrder s.dev allRails).dropWhile (fun q => !auxOn s.dev q) = r :: rest → auxOn t r = false ∧
        t.pget AUX_STAT_SEQ = 3 ∧ t.supply.seq.kind = 2 ∧ t.supply.seq.rails = rest)) ∧
    (s.dev.supply.seq.kind = 2 → waited → Does .auxSeqDelayExpiry s fun t => ∀ r rest, s.dev.supply.seq.rails.dropWhile (fun q => !auxOn s.dev q) = r :: rest →
      r < 3 → auxOn t r = false ∧ t.supply.seq.rails = rest) ∧
    (∀ r, r < 2 → s.dev.supply.seq.kind = 1 → s.dev.supply.seq.rails = [r] → waited → railFree s.dev r = true → auxOn s.dev r = false →
      Does .auxSeqDelayExpiry s fun t => auxOn t r = true ∧ t.pbit AUX_STAT_SEQ_FAIL = s.dev.pbit AUX_STAT_SEQ_FAIL) ∧
    (∀ r, r < 3 → s.dev.supply.seq.kind = 1 → s.dev.supply.seq.rails = [r] → waited → railFree s.dev r = false → Does .auxSeqDelayExpiry s fun t =>
      t.pget AUX_STAT_SEQ = 4 ∧ t.pbit AUX_STAT_SEQ_FAIL = true ∧ auxOn t r = auxOn s.dev r) ∧
    (s.dev.supply.seq.kind = 0 ∨ ¬ waited → Does .auxSeqDelayExpiry s (· = s.dev))

/-- The keeper and its charger (R297, R303 to R306, R318). A keeper whose readings have shown one for a second counts as present
and connects the converter. The charger shows the current it measures and takes the next state: disabled with EN 0 or outside
its package states, ABSENT without a keeper, suspended in the outer bands, termination after a minute below ITERM with
DONE_EVT. A timer that runs out in a charging state is a fault that stays. A keeper that is gone disconnects the converter,
with its entry, and halts every channel under POLICY 1. The converter supplements only while a present keeper may discharge;
IKEEP is then below 0, and above 0 while the charger runs. It rests on the readings of notes/assumptions/41 and 65. -/
def Obligations.TheKeeperChargesAndSupplements : Prop :=
  ∀ s : State, Sound s →
    let chg := s.dev.pget KEEP_STAT_CHG
    let u := s.dev.supply
    let ik (t : Device) : Int := signedOf 16 (t.pget KEEP_STAT_IKEEP)
    let rest (t : Device) : Prop := RegsOnly (· = 0x45) { s.dev with pins := t.pins, supply := t.supply, free := t.free } t ∧
      t.supply = { u with preFrames := t.supply.preFrames, chgFrames := t.supply.chgFrames, ikSum := t.supply.ikSum, ikClk := t.supply.ikClk }
    let late : Prop := (chg = 2 ∧ s.dev.pfrc KEEP_TIMER_PRE * 240000 ≤ u.preFrames) ∨
      (chg ∈ [2, 3, 4] ∧ s.dev.pfrc KEEP_TIMER_FAST * 2400000 ≤ u.chgFrames)
    (∀ k, u.keepFrom = some k → s.dev.passed k (secClocks 1) = true → Does .keeperPresent s fun t => t.pget KEEP_STAT_PRESENT = 1 ∧ t.pins.converter = true ∧ rest t ∧
      (s.dev.pget KEEP_STAT_SUPPL = 0 → chargerRuns t = true → 0 < ik t) ∧
      (s.dev.pfrc KEEP_CFG_EN = 0 ∨ chargerState (pkgState s.dev) = false → t.pget KEEP_STAT_CHG = 0)) ∧
    ((∀ k, u.keepFrom = some k → s.dev.passed k (secClocks 1) = false) → Does .keeperPresent s (· = s.dev)) ∧
    (∀ i : Int, -32768 ≤ i → i ≤ 32767 → Does (.chargerStateChange i) s fun t => signedOf 16 (t.pget KEEP_STAT_IKEEP) = i ∧
      rest t ∧ t.pins = s.dev.pins ∧ t.supply.ikClk = s.dev.clk ∧
      t.supply.ikSum = u.ikSum + ikeepMa s.dev * ((s.dev.clk : Int) - u.ikClk) ∧
      (s.dev.pfrc KEEP_CFG_EN = 0 ∨ chargerState (pkgState s.dev) = false → t.pget KEEP_STAT_CHG = 0) ∧
      (s.dev.pfrc KEEP_CFG_EN = 1 → chargerState (pkgState s.dev) = true → s.dev.pget KEEP_STAT_PRESENT = 0 → t.pget KEEP_STAT_CHG = 1) ∧
      (s.dev.pfrc KEEP_CFG_EN = 1 → chargerState (pkgState s.dev) = true → s.dev.pget KEEP_STAT_PRESENT = 1 → s.dev.pget KEEP_STAT_TIMER_FLT = 0 →
        s.dev.pget PGOOD_CTL_GOOD = 1 → s.dev.pget KEEP_STAT_SUPPL = 0 →
        (s.dev.pget KEEP_STAT_BAND = 0 → t.pget KEEP_STAT_CHG = 6) ∧
        (s.dev.pget KEEP_STAT_BAND = 2 → chg = 4 → i < s.dev.pfrc KEEP_CFG_ITERM * 10 → 240000 ≤ u.lowFrames → t.pget KEEP_STAT_CHG = 5 ∧
          t.pget KEEP_STAT_DONE_EVT = 1) ∧
        (s.dev.pget KEEP_STAT_BAND = 2 → chg = 1 → t.pget KEEP_STAT_CHG = if vkeepMv s.dev < 3000 then 2 else 3))) ∧
    (late → Does .chargerTimeout s fun t => t.pget KEEP_STAT_CHG = 7 ∧ t.pget KEEP_STAT_TIMER_FLT = 1 ∧
      (s.dev.pget KEEP_STAT_SUPPL = 1 → ik t < 0) ∧ rest t ∧ t.pins = s.dev.pins) ∧
    (¬ late → Does .chargerTimeout s (· = s.dev)) ∧
    (s.dev.pget KEEP_STAT_PRESENT = 1 → keeperGone s.dev = true → Does .keeperRemoved s fun t => t.pget KEEP_STAT_PRESENT = 0 ∧ t.pget KEEP_STAT_SUPPL = 0 ∧
      t.pget KEEP_STAT_HOLDUP = 0 ∧ t.pget KEEP_STAT_ABSENT_EVT = 1 ∧ t.pins.converter = false ∧ (irqStatus t).testBit Cat.keep = true ∧
      (s.dev.pfrc KEEP_CFG_POLICY = 0 → t.chans = s.dev.chans) ∧
      (s.dev.pfrc KEEP_CFG_POLICY = 1 → ∀ g, g < s.dev.nCh → t.ch g = { s.dev.ch g with
        due := { (s.dev.ch g).due with seq := (s.dev.ch g).due.seq ||| 4 } })) ∧
    (s.dev.pget KEEP_STAT_PRESENT = 0 ∨ keeperGone s.dev = false → Does .keeperRemoved s (· = s.dev)) ∧
    (s.dev.pbit KEEP_STAT_PRESENT = true → keepDischarge s.dev = true → s.dev.pget KEEP_STAT_SUPPL = 0 → Does (.supplement true) s
      fun t => t.pget KEEP_STAT_SUPPL = 1 ∧ ik t < 0 ∧ t.pget KEEP_STAT_CHG = chg ∧ rest t ∧ t.pins = s.dev.pins) ∧
    (s.dev.pbit KEEP_STAT_PRESENT = false ∨ keepDischarge s.dev = false ∨ s.dev.pget KEEP_STAT_SUPPL = 1 →
      Does (.supplement true) s (· = s.dev)) ∧
    (s.dev.pget KEEP_STAT_SUPPL = 1 → Does (.supplement false) s fun t => t.pget KEEP_STAT_SUPPL = 0 ∧ (chargerRuns t = true → 0 < ik t) ∧
      t.pget KEEP_STAT_CHG = chg ∧ rest t ∧ t.pins = s.dev.pins) ∧
    (s.dev.pget KEEP_STAT_SUPPL = 0 → Does (.supplement false) s (· = s.dev))

/-- The glean domain (R319 to R333, R335). While a die's main domain is off, an evaluation picks keeper, cells or coin in this
order by what is usable and enabled, and counts 64 ms of outage after the first; a pump transfer adds one packet to its cell's
tally. A fall of KEEP_GOOD loses the domain's state and tallies, a rise makes it new; with the main domain up it cannot fall.
A staged image takes the die's K state with the next generation, and its commit gives it its CRCs and the domain its copy of
the generation. A booking turns a channel's packets into OUT charge, empties the tally and leaves the conservation of the
count alone, at the second boundary after the end of seeding; without a usable constant it is skipped with BOOK_SKIP. It moves
no other channel. It rests on the readings of notes/assumptions/49 and 72. -/
def Obligations.TheGleanDomainKeepsItsDie : Prop :=
  ∀ (s : State) (d : Die), Sound s → d.val < s.dev.nDies →
    let x := s.dev.die d.val
    let gl := x.glean
    let off := x.up = false ∧ gl.good = true
    -- the start sequencer may run the converter after an evaluation (R297)
    let conv (t : Device) : Device := { s.dev with pins := { s.dev.pins with converter := s.dev.pins.converter || t.pins.converter } }
    (∀ o, off → gl.shipLatch = false → 2600 ≤ o.vkeep → gl.keeperEn = true → Does (.gleanForcedEvaluation d o) s fun t =>
      DieOnly d.val noWord (conv t) t ∧ (t.die d.val).glean.src = .keeper ∧ (t.die d.val).glean.usedKeep = true ∧
      (t.die d.val).glean.outage = gl.outage ∧ (t.die d.val).glean.ret = gl.ret) ∧
    (∀ o c, off → gl.keeperEn = false → gl.pumpEn = List.replicate 8 true → c < 8 → 1500 ≤ cellMv o c →
      Does (.gleanSourceEvaluation d o) s fun t => DieOnly d.val noWord (conv t) t ∧ (t.die d.val).glean.src = .cells ∧
        (t.die d.val).glean.outage = (if gl.first then gl.outage else (gl.outage + 64) % 2 ^ 48) ∧ (t.die d.val).glean.first = false) ∧
    (∀ o, off → gl.keeperEn = false → gl.pumpEn = List.replicate 8 false → gl.cutEn = false → gl.cutLatch = false → gl.coinEn = true →
      Does (.gleanForcedEvaluation d o) s fun t => (t.die d.val).glean.src = (if 1800 ≤ o.vcoin then .coin else .none)) ∧
    (∀ o, ¬ off → Does (.gleanSourceEvaluation d o) s (· = s.dev) ∧ Does (.gleanForcedEvaluation d o) s (· = s.dev)) ∧
    (off → gl.src = .cells → gl.pumpCh < 8 → Does (.pumpTransfer d) s fun t => ChanOnly (8 * d.val + gl.pumpCh) noWord s.dev t ∧
      t.ch (8 * d.val + gl.pumpCh) = { s.dev.ch (8 * d.val + gl.pumpCh) with
        tally := ((s.dev.ch (8 * d.val + gl.pumpCh)).tally + 1) % 2 ^ 48 }) ∧
    (¬ off ∨ gl.src ≠ .cells → Does (.pumpTransfer d) s (· = s.dev)) ∧
    (off → Does (.keepGoodFall d) s fun t => (t.die d.val).glean.good = false ∧ (t.die d.val).glean.isNew = true ∧
      (t.die d.val).glean.ret = Retention.empty ∧ (t.die d.val).glean.outage = 0 ∧ (∀ e, e ≠ d.val → t.die e = s.dev.die e) ∧
      ∀ g, g < 64 → t.ch g = if g / 8 = d.val then { s.dev.ch g with tally := 0 } else s.dev.ch g) ∧
    (¬ off → Does (.keepGoodFall d) s (· = s.dev)) ∧
    (gl.good = false → Does (.keepGoodRise d) s fun t => t.die d.val = { x with glean := { gl with good := true, isNew := true } } ∧
      (∀ e, e ≠ d.val → t.die e = s.dev.die e) ∧ t.chans = s.dev.chans) ∧
    (gl.good = true → Does (.keepGoodRise d) s (· = s.dev)) ∧
    (∀ err : Int, -32768 ≤ err → err ≤ 32767 → (s.dev.die 0).up = true → Does (.rcTrim err) s fun t =>
      signedOf 16 (t.pget GLEAN_TRIM_RC_ERR) = err ∧ t.chans = s.dev.chans ∧
      ∀ e, e < s.dev.nDies → (t.die e).glean.trimOk = ((s.dev.die e).up || (s.dev.die e).glean.trimOk)) ∧
    (gl.good = true → x.decided = true → let t := retCommit d.val s.dev
      DieOnly d.val noWord s.dev t ∧ (t.die d.val).glean.ret = gl.ret ∧
        let r := (t.die d.val).glean.staged.getD Retention.empty
        (t.die d.val).glean = { gl with staged := some r } ∧
        r.gen = (gl.ret.gen + 1) % 2 ^ 32 ∧ r.chans = (chansOf d.val).map s.dev.ch ∧ r.regs = kRegs s.dev d.val ∧
        r.version = 1 ∧ r.index = d.val ∧ r.committing = false) ∧
    (∀ r, gl.staged = some r → Does (.retentionCommit d) s fun t => DieOnly d.val noWord s.dev t ∧
      (t.die d.val).glean = { gl with
        ret := { r with crcA := crc32 (regionA r), crcB := if d.val = 0 then crc32 (regionB r) else 0 }, genCopy := r.gen, staged := none } ∧
      (gl.isNew = false → r.version = 1 → r.index = d.val → r.committing = false → retDecision t d.val = .valid)) ∧
    (gl.staged = none → Does (.retentionCommit d) s (· = s.dev)) ∧
    (x.up = true → x.seeded = true → x.seedAt.any (fun e => s.dev.frame == e + 1) = true → Does (.gleanBooking d) s fun t => (∀ g, g / 8 ≠ d.val → t.ch g = s.dev.ch g) ∧
      ∀ g, g < 64 → g / 8 = d.val → let c := s.dev.ch g
        (c.tally = 0 → t.ch g = c ∧ t.reg (chAddr g 0x77) = s.dev.reg (chAddr g 0x77)) ∧
        let ok := constOk s.dev.frc g (chLow s.dev g) c.conv (fRefOf x) (if chLow s.dev g then .kqL else .kqH)
        (c.tally ≠ 0 → ok = false → t.ch g = c ∧ t.cget g GLEAN_CFG_BOOK_SKIP = 1) ∧
        (c.tally ≠ 0 → ok = true →
          let n := gleanCounts c.conv.kq c.tally (s.dev.reg (chAddr g 0x78)).toNat / 2 ^ 32
          (t.ch g).tally = 0 ∧ t.cget g GLEAN_CFG_BOOK_EVT = 1 ∧
          (t.ch g).acc.frac = c.acc.frac ∧ (t.ch g).acc.fq = c.acc.fq ∧
          t.reg (chAddr g 0x77) = BitVec.ofNat 32 (min n (2 ^ 32 - 1)) ∧
          (n < 2 ^ 32 → ((t.ch g).acc.rawqOut = (c.acc.rawqOut + n) % 2 ^ 64 ∧ (t.ch g).acc.rawqIn = c.acc.rawqIn)))) ∧
    (x.up = false ∨ x.seeded = false ∨ x.seedAt.any (fun e => s.dev.frame == e + 1) = false → Does (.gleanBooking d) s (· = s.dev))

/-- OTP commands (R338, R339, R350 to R356). PROGRAM, REINFORCE, READ and LOCK are refused with the lowest code that applies, 1
while a command runs, which changes REFUSE and REFUSE_EVT with the category only; else they run, BUSY, on their die, whose
pump those that pulse hold. At its end a pulsing command leaves the cells as pulsed, and a READ shows the word as the code
decodes it. The pump's expiry, 5 ms after the start, cuts a command: FAIL with ABORTED. RELOAD restarts the main domains with
cause 5. It rests on the readings of notes/assumptions/34 and 35. -/
def Obligations.OtpCommandsRunAndEnd : Prop :=
  ∀ (s : State) (d : Die), Sound s →
    let c := s.dev.otp
    let cmds (a : BitVec 9) (w : Word) (r : BitVec 2) (force : Bool) (reads : List OtpRead) : List (Nat × Nat × Instr) :=
      [(otpRefusal 1 d.val a.toNat 0 false w.toNat s.dev, 1, .otpProgram d a w reads),
       (otpRefusal 2 d.val a.toNat 0 false 0 s.dev, 2, .otpReinforce d a reads),
       (otpRefusal 3 d.val a.toNat 0 false 0 s.dev, 3, .otpRead d a),
       (otpRefusal 4 d.val 511 r.toNat force 0 s.dev, 4, .otpLock d r force reads)]
    (∀ a w r force reads, ∀ p ∈ cmds a w r force reads,
      (p.1 ≠ 0 → Does p.2.2 s fun t => t.pget OTP_STAT_REFUSE = p.1 ∧ t.pget OTP_STAT_REFUSE_EVT = 1 ∧ t.otp = c ∧
        t.pget OTP_STAT_BUSY = s.dev.pget OTP_STAT_BUSY ∧ (irqStatus t).testBit Cat.otp = true ∧ t.dies = s.dev.dies) ∧
      (p.1 = 0 → Does p.2.2 s fun t => t.pget OTP_STAT_BUSY = 1 ∧ t.pget OTP_STAT_LAST_DIE = d.val ∧ t.otp.running = true ∧
        t.otp.kind = p.2.1 ∧ t.otp.die = d.val ∧ t.otp.pump = decide (p.2.1 ≠ 3) ∧ t.dies = s.dev.dies ∧
        (p.2.1 ≠ 3 → t.pget BATON_STAT_OTP_HELD = 1 ∧ t.pget BATON_STAT_OTP_DIE = d.val)) ∧
      (c.running = true → p.1 = 1)) ∧
    (c.running = true → c.kind = 3 → c.result = 1 → c.pump = false → Does .otpCommandDone s fun t => t.otp.running = false ∧ t.pget OTP_STAT_BUSY = 0 ∧
      t.pget OTP_STAT_RESULT = 1 ∧ t.pget OTP_STAT_DONE_EVT = 1 ∧ t.reg 0xB4 = BitVec.ofNat 32 c.after.norm ∧
      t.reg 0xB8 = BitVec.ofNat 32 (otpDecode c.after.norm).data ∧ t.dies = s.dev.dies) ∧
    (c.running = true → c.kind ≠ 3 → c.pump = true → c.die = d.val → Does .otpCommandDone s fun t => t.otp.running = false ∧
      t.pget OTP_STAT_BUSY = 0 ∧ t.pget OTP_STAT_RESULT = c.result % 4 ∧ t.pget OTP_STAT_LETS = c.lets % 16 ∧
      t.pget BATON_STAT_OTP_HELD = 0 ∧ (t.die d.val).otp = otpPut c.addr c.after (s.dev.die d.val).otp ∧
      otpCell (t.die d.val) c.addr = c.after ∧ ∀ e, e ≠ d.val → t.die e = s.dev.die e) ∧
    (c.running = false → Does .otpCommandDone s (· = s.dev)) ∧
    (c.running = false ∨ c.pump = false ∨ s.dev.passed c.since (msClocks 5) = false → Does .otpPumpExpiry s (· = s.dev)) ∧
    (c.running = true → c.pump = true → c.die = d.val → c.kind ≠ 3 → s.dev.passed c.since (msClocks 5) = true → Does .otpPumpExpiry s fun t => t.otp.running = false ∧
      t.pget OTP_STAT_RESULT = 2 ∧ t.pget OTP_STAT_ABORTED = 1 ∧ t.pget BATON_STAT_OTP_EXP_EVT = 1 ∧ t.pget BATON_STAT_OTP_HELD = 0 ∧
      (irqStatus t).testBit Cat.link = true ∧ (irqStatus t).testBit Cat.otp = true) ∧
    ((s.dev.die 0).up = true → otpRefusal 5 0 0 0 false 0 s.dev = 0 → Does .otpReload s fun t => t.supply.start = some 5 ∧
      ∀ e, e < s.dev.nDies → (t.die e).up = false) ∧
    ((s.dev.die 0).up = true → otpRefusal 5 0 0 0 false 0 s.dev ≠ 0 → Does .otpReload s fun t =>
      t.pget OTP_STAT_REFUSE = otpRefusal 5 0 0 0 false 0 s.dev ∧ t.pget OTP_STAT_REFUSE_EVT = 1 ∧ t.dies = s.dev.dies) ∧
    ((s.dev.die 0).up = false → Does .otpReload s (· = s.dev))

/-- The image and its sections (R366, R369, R371, R373). IMAGE_LOAD acts once, in LOAD. A bad header leaves its code in HDR_ERR,
the flash's identification in NVM_ID, an NVM event, and nothing loaded, and a lead die whose balls are in husk reads no flash;
a good image leaves VALID and its generation, lets the line listen and writes nothing to the flash. SECTION_FETCH is for a
recovering die with failed sections alone: with the port in use it waits; with another generation in the header the sections
are rejected and the die stays in husk; its DIE section, when good, stands in its cache. It rests on the readings of
notes/assumptions/39 and 78. -/
def Obligations.ImagesAreLoadedAndFetched : Prop :=
  ∀ s : State, Sound s →
    let n := s.dev.nvm
    let h := fread s.dev 0 32
    let img := fread s.dev 0 (uAt h 8 4)
    let err := headerErr n.flashId (capacity s.dev) h
    let may : Prop := (s.dev.die 0).up = true ∧ pkgState s.dev = Pkg.load ∧ s.dev.pget IMAGE_STAT_VALID = 0
    let ready : Prop := may ∧ ballsLive s.dev 0 = true
    let kept (t : Device) : Prop := (∀ d, d < 8 → (t.die d).cache = (s.dev.die d).cache ∧ (t.die d).recipes = (s.dev.die d).recipes ∧
      (t.die d).hasDie = (s.dev.die d).hasDie) ∧ ∀ g, g < 64 → (s.dev.die (g / 8)).decided = true ∨ (s.dev.die (g / 8)).up = false → t.ch g = s.dev.ch g
    let bad (k : Nat) (t : Device) : Prop := t.pget IMAGE_STAT_HDR_ERR = k ∧ t.pget IMAGE_STAT_VALID = 0 ∧ t.pget NVM_ID = n.flashId % 2 ^ 24 ∧
      (irqStatus t).testBit Cat.nvm = true ∧ kept t ∧ t.nvm = n
    (¬ may → Does .imageLoad s (· = s.dev)) ∧
    (may → ballsLive s.dev 0 = false → Does .imageLoad s fun t => t.pget IMAGE_STAT_VALID = 0 ∧ kept t ∧ t.nvm = n) ∧
    (ready → err ≠ 0 → Does .imageLoad s (bad err)) ∧
    (ready → err = 0 → firstOk img = false → Does .imageLoad s (bad 7)) ∧
    (ready → err = 0 → firstOk img = true → Does .imageLoad s fun t => t.pget IMAGE_STAT_VALID = 1 ∧ t.pget IMAGE_GEN = uAt h 12 4 ∧
      t.line.listen = true ∧ t.nvm.flash = n.flash ∧ pkgState t = Pkg.load) ∧
    (∀ d : Die, d.val < s.dev.nDies →
      ((s.dev.die d.val).recov.active = false ∨ (s.dev.die d.val).fetch = [] → Does (.sectionFetch d) s (· = s.dev)) ∧
      ((s.dev.die d.val).recov.active = true → (s.dev.die d.val).fetch ≠ [] → n.cur.isSome = true → n.cur ≠ some (.fetch d.val) → .fetch d.val ∉ n.queue →
        n.queue.length < 16 → Does (.sectionFetch d) s fun t => t.nvm = { n with queue := n.queue ++ [.fetch d.val] } ∧
          t.pget QUEUE_STAT_NVM_Q = n.queue.length + 1 ∧ RegsOnly (· = 0xD4) { s.dev with nvm := t.nvm } t) ∧
      ((s.dev.die d.val).recov.active = true → (s.dev.die d.val).fetch ≠ [] → n.cur = none → n.queue = [] → ballsLive s.dev 0 = true → pkgState s.dev ≠ Pkg.handover →
        s.dev.pget NVM_STAT_OP ≠ 1 → ((err ≠ 0 ∨ uAt h 12 4 ≠ s.dev.pget IMAGE_GEN) → Does (.sectionFetch d) s fun t => (t.die d.val).husk = true ∧
          (t.die d.val).fetch = [] ∧ (t.die d.val).hasDie = (s.dev.die d.val).hasDie ∧ (t.die d.val).recipes = (s.dev.die d.val).recipes ∧
          (t.die d.val).cache = (s.dev.die d.val).cache ∧ 0 < t.pget IMAGE_STAT_REJECTED ∧ t.nvm.cur = none ∧ t.nvm.queue = [] ∧ t.nvm.flash = n.flash ∧
          ∀ e, e ≠ d.val → t.die e = s.dev.die e) ∧
        (∀ c, err = 0 → uAt h 12 4 = s.dev.pget IMAGE_GEN → 
          (sectionsFrom img (img.length / 12 + 1) 32).filter (fun c => sectionFor d.val c && (s.dev.die d.val).fetch.contains (fetchKey c)) = [c] →
          c.typ = 2 → indexOk c = true → scrcOk c = true → entriesOk c c.body = true → (s.dev.die d.val).ctl = false →
          Does (.sectionFetch d) s fun t => (t.die d.val).hasDie = true ∧ c ∈ (t.die d.val).cache ∧ (t.die d.val).fetch = [] ∧
            t.dget d.val DIE_STAT_CACHE_OK = 1 ∧ t.nvm.cur = none ∧ t.nvm.flash = n.flash)))

/-- Transfers and the port (R360, R362, R363, R374, R433, R434). A transfer without the key is ignored, a refused one leaves its
code and nothing else, an accepted one waits for the port. On a free port a read fills the buffer from the flash, the
identification and the status byte come from it, and a program or erase begins. A status byte with bit 0 set only shows; with
bit 0 clear the operation has had its effect: a program clears the bits its bytes name and no other byte changes, an erase
leaves FFh in its sector alone. A failed operation ends its transfer with result 4, and what it has left undone stays within
its bytes. The baton's expiry, 20 ms after its grant, fails the checkpoint: its slot is invalid, the write pointer stays, and
the spare's erase begins. It rests on the readings of notes/assumptions/26, 37, 38 and 78. -/
def Obligations.TransfersUseThePort : Prop :=
  ∀ s : State, Sound s →
    let n := s.dev.nvm
    let a := s.dev.pget NVM_PT_ADDR
    let idle : Prop := n.cur = none ∧ n.queue = [] ∧ (s.dev.die 0).up = true
    let same (t : Device) (y : Nat) : Prop := flashByte t.nvm.flash y = flashByte n.flash y
    let ends (r : Nat) (t : Device) : Prop := t.pget NVM_STAT_BUSY = 0 ∧ t.pget NVM_STAT_RESULT = r ∧ t.pget NVM_STAT_DONE_EVT = 1 ∧
      t.pget NVM_STAT_OP = 0 ∧ t.nvm.cur = none ∧ t.nvm.op = none
    (∀ (len : BitVec 9) (key : Byte) (two : Bool), ∀ p ∈ [(0x03, len.toNat, Instr.ptRead len key), (0x0B, len.toNat, .ptFastRead len key),
        (0x02, len.toNat, .ptPageProgram len key), (0x20, 0, .ptSectorErase key), (0x05, 0, .ptReadStatus key), (0x9F, 0, .ptReadId key),
        (if two then 0x99 else 0x66, 0, .ptReset two key)],
      (key ≠ 0xC3#8 → Does p.2.2 s (· = s.dev)) ∧
      (key = 0xC3#8 → ptRefusal p.1 a p.2.1 s.dev ≠ 0 → Does p.2.2 s fun t => t.pget NVM_STAT_RESULT = 2 ∧
        t.pget NVM_STAT_REFUSE = ptRefusal p.1 a p.2.1 s.dev ∧ RegsOnly (· = 0x72) s.dev t) ∧
      (key = 0xC3#8 → ptRefusal p.1 a p.2.1 s.dev = 0 → n.cur.isSome = true → n.cur ≠ some (.pt p.1 a p.2.1) → .pt p.1 a p.2.1 ∉ n.queue →
        Does p.2.2 s fun t => t.pget NVM_STAT_BUSY = 1 ∧ t.pget NVM_STAT_RESULT = 0 ∧ t.nvm = { n with queue := n.queue ++ [.pt p.1 a p.2.1] } ∧
          RegsOnly (· ∈ [0x72, 0xD4]) { s.dev with nvm := t.nvm } t)) ∧
    (idle → ∀ len : BitVec 9,
      (∀ p ∈ [(0x03, Instr.ptRead len 0xC3#8), (0x0B, .ptFastRead len 0xC3#8)], ptRefusal p.1 a len.toNat s.dev = 0 →
        a + len.toNat ≤ capacity s.dev → Does p.2 s fun t => ends 1 t ∧ t.nvm.flash = n.flash ∧
          ∀ i, bufByte t i = if i < len.toNat then flashByte n.flash (a + i) else bufByte s.dev i) ∧
      (ptRefusal 0x02 a len.toNat s.dev = 0 → Does (.ptPageProgram len 0xC3#8) s fun t => t.pget NVM_STAT_BUSY = 1 ∧ t.pget NVM_STAT_OP = 5 ∧
        t.nvm.cur = some (.pt 0x02 a len.toNat) ∧ t.nvm.op = some (.program a ((List.range len.toNat).map (bufByte s.dev))) ∧ t.nvm.flash = n.flash) ∧
      (ptRefusal 0x20 a 0 s.dev = 0 → Does (.ptSectorErase 0xC3#8) s fun t => t.pget NVM_STAT_BUSY = 1 ∧ t.pget NVM_STAT_OP = 5 ∧
        t.nvm.cur = some (.pt 0x20 a 0) ∧ t.nvm.op = some (.erase a) ∧ t.nvm.flash = n.flash) ∧
      (ptRefusal 0x05 a 0 s.dev = 0 → Does (.ptReadStatus 0xC3#8) s fun t => ends 1 t ∧ t.nvm.flash = n.flash ∧ t.pget NVM_STAT_SR % 2 = 0 ∧
        (bufByte t 0).toNat = t.pget NVM_STAT_SR) ∧
      (ptRefusal 0x9F a 0 s.dev = 0 → Does (.ptReadId 0xC3#8) s fun t => ends 1 t ∧ t.nvm.flash = n.flash ∧
        ∀ i, i < 3 → (bufByte t i).toNat = n.flashId / 256 ^ i % 256) ∧
      (∀ two, ptRefusal (if two then 0x99 else 0x66) a 0 s.dev = 0 → Does (.ptReset two 0xC3#8) s fun t => ends 1 t ∧
        t.nvm.flash = n.flash ∧ t.nvm.buf = n.buf)) ∧
    (∀ sr : Byte, (n.op = none ∨ (s.dev.die 0).up = false → Does (.flashOpComplete sr) s (· = s.dev)) ∧
      (n.op.isSome = true → (s.dev.die 0).up = true → sr.getLsbD 0 = true → Does (.flashOpComplete sr) s
        (WordOnly 0x72 (NVM_STAT_SR.put sr.toNat (s.dev.reg 0x72)) s.dev)) ∧
      (∀ o b m, n.cur = some (.pt o b m) → n.queue = [] → (s.dev.die 0).up = true → sr.getLsbD 0 = false →
        (∀ x l, n.op = some (.program x l) → Does (.flashOpComplete sr) s fun t => ends 1 t ∧
          (∀ i, i < l.length → flashByte t.nvm.flash (x + i) = flashByte n.flash (x + i) &&& (l[i]?).getD 0) ∧
          ∀ y, y < x ∨ x + l.length ≤ y → same t y) ∧
        (∀ x, n.op = some (.erase x) → Does (.flashOpComplete sr) s fun t => ends 1 t ∧
          ∀ y, flashByte t.nvm.flash y = if y / 4096 = x / 4096 then 0xFF#8 else flashByte n.flash y))) ∧
    (∀ wel, (n.op = none ∨ (s.dev.die 0).up = false → Does (.nvmTimeout wel) s (· = s.dev)) ∧
      (∀ w, n.op = some w → wel = false → s.dev.passed n.opAt w.limit = false → Does (.nvmTimeout wel) s (· = s.dev)) ∧
      (∀ o b m w, n.cur = some (.pt o b m) → n.queue = [] → (s.dev.die 0).up = true → n.op = some w →
        wel = true ∨ s.dev.passed n.opAt w.limit = true → Does (.nvmTimeout wel) s fun t =>
        ends 4 t ∧ t.pget NVM_STAT_ERR_EVT = 1 ∧ (irqStatus t).testBit Cat.nvm = true ∧ (wel = true → t.nvm.flash = n.flash) ∧
        (∀ x l, w = .program x l → (∀ y, y < x ∨ x + l.length ≤ y → same t y) ∧ ∀ i, i < l.length →
          let u := flashByte t.nvm.flash (x + i)
          let v := flashByte n.flash (x + i)
          u ||| v = v ∧ (v &&& (l[i]?).getD 0) ||| u = u) ∧
        ∀ x, w = .erase x → ∀ y, y / 4096 ≠ x / 4096 → same t y)) ∧
    (n.streaming = none ∨ s.dev.passed n.batonAt (msClocks 20) = false → Does .nvmBatonExpiry s (· = s.dev)) ∧
    (∀ d, n.streaming = some d → s.dev.passed n.batonAt (msClocks 20) = true → n.queue = [] → (s.dev.die 0).up = true → pkgState s.dev ≠ Pkg.handover → Does .nvmBatonExpiry s fun t =>
      t.pget BATON_STAT_NVM_EXP_EVT = 1 ∧ t.pget BATON_STAT_NVM_HOLDER = 8 ∧ (irqStatus t).testBit Cat.link = true ∧
      t.pget CKPT_STAT_FAIL_EVT = 1 ∧ t.pget CKPT_STAT_BUSY = 0 ∧ t.pget CKPT_STAT_PENDING = 1 ∧ t.pget CKPT_STAT_SPARE_OK = 0 ∧
      t.pget CKPT_STAT_SLOT = s.dev.pget CKPT_STAT_SLOT ∧ t.reg 0x7C = s.dev.reg 0x7C ∧ t.nvm.streaming = none ∧
      t.nvm.cur = some .spare ∧ t.nvm.op = some (.erase (slotAddr s.dev (ckptSlot s.dev))) ∧
      ∀ e i, e < 8 → i < 4 → flashByte t.nvm.flash (slotAddr s.dev (ckptSlot s.dev) + 1024 * e + i) = 0)

/-- Checkpoints (R376 to R379, R433, R434, R443). CKPT_TAKE with its key requests one. Its boundary clears PENDING, gives every
record the next sequence, and every die that forms its own record a valid one under its index; the erase of the next slot's
spare comes first, then W's second sector. A cell of the die that holds the baton brings six bytes once it is acknowledged,
and a page begins as soon as its bytes have come; another die's cell is discarded. With the last page programmed, W and
CKPT_SEQ advance. The spare's restore erases it and SPARE_OK shows it. No channel changes. It rests on the readings of
notes/assumptions/36. -/
def Obligations.CheckpointsFillTheRing : Prop :=
  ∀ s : State, Sound s →
    let n := s.dev.nvm
    let w := ckptSlot s.dev
    let idle : Prop := n.cur = none ∧ n.queue = [] ∧ (s.dev.die 0).up = true ∧ pkgState s.dev ≠ Pkg.handover
    let seq := (n.ckptSeq + 1) % 2 ^ 32
    (∀ data, CKPT_CTL_TAKE.get data = 1 → CKPT_CTL_KEY.get data = 0xC3 → s.dev.pget CKPT_STAT_PENDING = 0 → Does (.ckptTake data) s fun t =>
      t.pget CKPT_STAT_PENDING = 1 ∧ RegsOnly (· = 0x7B) { s.dev with nvm := { n with ckptCause := 2 } } t) ∧
    (∀ data, CKPT_CTL_TAKE.get data ≠ 1 ∨ CKPT_CTL_KEY.get data ≠ 0xC3 ∨ s.dev.pget CKPT_STAT_PENDING = 1 → Does (.ckptTake data) s (· = s.dev)) ∧
    (ckptReady s.dev = false → Does .checkpointBoundary s (· = s.dev)) ∧
    (idle → ckptReady s.dev = true → Does .checkpointBoundary s fun t => t.pget CKPT_STAT_PENDING = 0 ∧ t.pget CKPT_STAT_BUSY = 1 ∧
      t.nvm.cur = some .ckpt ∧ t.nvm.op = some (.erase (slotAddr s.dev (nextSlot s.dev w))) ∧ t.nvm.step = 0 ∧ t.nvm.curCause = n.ckptCause ∧
      t.pget CKPT_STAT_SLOT = w ∧ t.reg 0x7C = s.dev.reg 0x7C ∧ t.nvm.flash = n.flash ∧ t.chans = s.dev.chans ∧
      ∀ d, d < 8 → formsRecord s.dev d = true → recordOk d (ckptRecord t d) = true ∧ recordSeq (ckptRecord t d) = seq ∧
        (t.die d).ckpt = ckptRecord t d) ∧
    (∀ (sr : Byte) (x : Nat), n.cur = some .ckpt → n.step = 0 → n.op = some (.erase x) → (s.dev.die 0).up = true → sr.getLsbD 0 = false →
      Does (.flashOpComplete sr) s fun t => t.nvm.op = some (.erase (slotAddr s.dev w + 4096)) ∧ t.nvm.step = 1 ∧ t.nvm.cur = some .ckpt ∧
        t.chans = s.dev.chans) ∧
    (∀ (sr : Byte) (x : Nat), n.cur = some .spare → n.queue = [] → n.op = some (.erase x) → (s.dev.die 0).up = true → sr.getLsbD 0 = false →
      Does (.flashOpComplete sr) s fun t => t.pget CKPT_STAT_SPARE_OK = 1 ∧ t.nvm.cur = none ∧
        ∀ y, flashByte t.nvm.flash y = if y / 4096 = x / 4096 then 0xFF#8 else flashByte n.flash y) ∧
    (n.cur = some .ckpt → 34 ≤ n.step → n.queue = [] → Does .checkpointDone s fun t => t.pget CKPT_STAT_SLOT = nextSlot s.dev w % 256 ∧
      t.pget CKPT_SEQ = n.ckptSeq % 2 ^ 32 ∧ t.pget CKPT_STAT_DONE_EVT = 1 ∧ t.pget CKPT_STAT_BUSY = 0 ∧ t.nvm.cur = none ∧
      t.nvm.flash = n.flash ∧ t.chans = s.dev.chans) ∧
    (n.cur ≠ some .ckpt ∨ n.step < 34 → Does .checkpointDone s (· = s.dev)) ∧
    (idle → 0 < n.sectors → s.dev.pget CKPT_STAT_SPARE_OK = 0 → s.dev.pget CKPT_STAT_BUSY = 0 → Does .spareRestore s fun t =>
      t.nvm.cur = some .spare ∧ t.nvm.op = some (.erase (slotAddr s.dev w)) ∧ t.pget NVM_STAT_OP = 7 ∧ t.pget CKPT_STAT_SPARE_OK = 0 ∧
      t.nvm.flash = n.flash) ∧
    ((s.dev.die 0).up = false ∨ n.sectors = 0 ∨ s.dev.pget CKPT_STAT_SPARE_OK = 1 ∨ s.dev.pget CKPT_STAT_BUSY = 1 →
      Does .spareRestore s (· = s.dev)) ∧
    (∀ d : Die, d.val < s.dev.nDies →
      let l := (s.dev.die d.val).link
      let takes : Prop := n.streaming = some d.val ∧ n.cur = some .ckpt
      (arrives s.dev d.val = true → takes → d.val ≠ 0 → (∀ c ∈ l.upWait, c.seq ≠ l.upSeq) → Does (.cellCkpt d) s fun t =>
        DieOnly d.val noWord s.dev t ∧ t.die d.val = { s.dev.die d.val with link := { l with
          upSeq := (l.upSeq + 1) % 8, upWait := l.upWait ++ [⟨0xC, false, l.upSeq, .record, 0⟩] } }) ∧
      (arrives s.dev d.val = true → takes → d.val = 0 → Does (.cellCkpt d) s (· = cellAct 0 .record s.dev)) ∧
      (arrives s.dev d.val = false ∨ ¬ takes → Does (.cellCkpt d) s (· = s.dev)) ∧
      (takes → let t := cellAct d.val .record s.dev
        t.nvm.cells = n.cells + 1 ∧ t.nvm.flash = n.flash ∧ t.chans = s.dev.chans ∧
        ((n.cells + 1) * 6 < 1024 → t.nvm.streaming = some d.val) ∧
        (1024 ≤ (n.cells + 1) * 6 → t.nvm.streaming = none ∧ t.pget BATON_STAT_NVM_HOLDER = 8) ∧
        ∀ p, p < 4 → n.op = none → n.step = 2 + 4 * d.val + p → n.streamers.contains d.val = true → min 1024 (256 * (p + 1)) ≤ (n.cells + 1) * 6 →
          t.nvm.op = some (.program (slotAddr s.dev w + 1024 * d.val + 256 * p) (slice (ckptRecord s.dev d.val) (256 * p) 256))) ∧
      (¬ takes → cellAct d.val .record s.dev = s.dev))

/-- Pins (R384). A write without the key is ignored, a refused one leaves its code and nothing else; an edit waits behind those
before it, a discard drops them all, and a commit waits for the frame boundary, where it takes the set with its edits applied
and queues for the port. With its last page programmed the set is in force under the next generation in the other copy and no
edit is left; a failed commit leaves pins and edits as they were. It rests on the readings of notes/assumptions/37. -/
def Obligations.PinEditsWaitForACommit : Prop :=
  ∀ s : State, Sound s →
    let n := s.dev.nvm
    (∀ (a : Addr) (key : Byte), ∀ p ∈ [(1, a.toNat, Instr.pinReg a key), (2, a.toNat, .unpinReg a key), (3, a.toNat, .pinChset a key),
        (4, 0, .pinCommit key), (5, 0, .pinDiscard key)],
      (key ≠ 0xC3#8 → Does p.2.2 s (· = s.dev)) ∧
      (key = 0xC3#8 → pinRefusal p.1 p.2.1 s.dev ≠ 0 → Does p.2.2 s fun t => t.pget PIN_STAT_RESULT = 2 ∧
        t.pget PIN_STAT_REFUSE = pinRefusal p.1 p.2.1 s.dev ∧ RegsOnly (· = 0x7E) s.dev t) ∧
      (key = 0xC3#8 → pinRefusal p.1 p.2.1 s.dev = 0 → Does p.2.2 s fun t => RegsOnly (· = 0x7E) { s.dev with nvm := t.nvm } t ∧
        (p.1 ≤ 3 → t.nvm = { n with edits := n.edits ++ [(p.1, p.2.1)] } ∧ t.pget PIN_STAT_EDITS = n.edits.length + 1) ∧
        (p.1 = 4 → t.nvm = { n with commitDue := true } ∧ t.pget PIN_STAT_BUSY = 1 ∧ t.pget PIN_STAT_RESULT = 0 ∧ t.pget PIN_STAT_REFUSE = 0) ∧
        (p.1 = 5 → t.nvm = { n with edits := [] } ∧ t.pget PIN_STAT_EDITS = 0))) ∧
    (n.commitDue = true → .pins ∉ n.queue → n.queue.length < 16 → n.cur ≠ some .pins → (pinBoundary s.dev).nvm =
      { n with commit := pinSet s.dev, commitDue := false, queue := n.queue ++ [.pins] }) ∧
    (∀ (sr : Byte), n.cur = some .pins → n.op.isSome = true → n.queue = [] → (s.dev.die 0).up = true → sr.getLsbD 0 = false → 1 ≤ n.step →
      (copyBytes ((n.pinGen + 1) % 2 ^ 32) n.commit).length ≤ 256 * (n.step - 1) → n.commit.length ≤ 1022 →
      Does (.flashOpComplete sr) s fun t => t.nvm.pins = n.commit ∧ t.nvm.edits = [] ∧ t.nvm.pinGen = (n.pinGen + 1) % 2 ^ 32 ∧
        t.pget PIN_STAT_RESULT = 1 ∧ t.pget PIN_STAT_BUSY = 0 ∧ t.pget PIN_STAT_DONE_EVT = 1 ∧ t.pget PIN_STAT_COUNT = n.commit.length ∧
        t.pget PIN_STAT_EDITS = 0 ∧ t.pget PIN_STAT_COPY = 1 - s.dev.pget PIN_STAT_COPY ∧ t.nvm.cur = none) ∧
    (n.cur = some .pins → n.op.isSome = true → n.queue = [] → (s.dev.die 0).up = true → s.dev.pget PIN_STAT_BUSY = 1 →
      Does (.nvmTimeout true) s fun t => t.nvm.pins = n.pins ∧ t.nvm.edits = n.edits ∧ t.nvm.flash = n.flash ∧ t.pget PIN_STAT_RESULT = 4 ∧
        t.pget PIN_STAT_BUSY = 0 ∧ t.pget PIN_STAT_DONE_EVT = 1 ∧ t.pget NVM_STAT_ERR_EVT = 1 ∧ t.nvm.cur = none)
end

