-- ==== Sys2Proof/Laws/AtClock.lean ====
section
/-! SUPPORT. Device.AtClock: the package clock stands at a frame and a clock (R5); record updates, branches, folds and
register writes that leave it there. -/

namespace Sys2Proof.Machine

/-- The package clock stands at a frame and a clock of it. -/
def Device.AtClock (s : Device) (fr ck : Nat) : Prop := s.frame = fr ∧ s.clk = ck

namespace Device

variable {fr ck : Nat}

theorem atClock_mk {nDies : Nat} {straps : List Nat} {frame clk : Nat} {regs shadow force : RegFile} {chans : List Chan}
    {dies : List DieSt} {line : Line} {bcast : List Bcast} {snap : Snap} {host : HostPort} {pins : Pins}
    {irqAt : Nat} {ledger : List LedgerEnt} {vreqs : List VReq} {vorder : Nat} {grants : List (Nat × Nat)} {bankAt : List (Option Nat)}
    {nvm : Nvm} {pulses : List Pulse} {tallyClr : List Bool} {tallyIn : List TallyPin} {run : Run} {supply : Supply} {otp : OtpCmd}
    {reads : List (Nat × Nat)} {resps : List (Nat × Word)} {stage : RegFile} {busW1c : Word} {busClr : Bool} {clockRegs : List (Nat × Word)} {dropped : List (Nat × LedgerEnt)} {free : Nat} (h1 : frame = fr ∧ clk = ck) :
    AtClock ⟨nDies, straps, frame, clk, regs, shadow, stage, force, chans, dies, line, bcast, snap, host, pins, irqAt, ledger, vreqs,
      vorder, grants, bankAt, nvm, pulses, tallyClr, tallyIn, run, supply, otp, reads, resps, busW1c, busClr,
      clockRegs, dropped, free⟩ fr ck := h1

theorem AtClock.both {s : Device} (h : s.AtClock fr ck) : s.frame = fr ∧ s.clk = ck := h

theorem atClock_ite {c : Prop} [Decidable c] {a b : Device} (ha : c → a.AtClock fr ck) (hb : ¬c → b.AtClock fr ck) :
    (if c then a else b).AtClock fr ck := by
  split
  · exact ha ‹_›
  · exact hb ‹_›

theorem atClock_foldl {α : Type} {g : Device → α → Device} (xs : List α) {s : Device} (h : s.AtClock fr ck)
    (hg : ∀ x t, t.AtClock fr ck → (g t x).AtClock fr ck) : (xs.foldl g s).AtClock fr ck := by
  induction xs generalizing s with
  | nil => exact h
  | cons x l ih => exact ih (hg _ _ h)

theorem atClock_each (l : List Nat) {f : Nat → Device → Device} {s : Device} (h : s.AtClock fr ck)
    (hf : ∀ i t, t.AtClock fr ck → (f i t).AtClock fr ck) : (s.each l f).AtClock fr ck :=
  atClock_foldl l h hf

theorem atClock_fst {α : Type} {p : Device × α} {s : Device} {x : α} (e : p = (s, x)) (h : p.1.AtClock fr ck) :
    s.AtClock fr ck := by
  subst e; exact h

theorem atClock_snd {α : Type} {p : α × Device} {s : Device} {x : α} (e : p = (x, s)) (h : p.2.AtClock fr ck) :
    s.AtClock fr ck := by
  subst e; exact h

theorem atClock_setReg (a : Nat) (w : Word) {s : Device} (h : s.AtClock fr ck) : (s.setReg a w).AtClock fr ck := h
theorem atClock_setFrc (a : Nat) (w : Word) {s : Device} (h : s.AtClock fr ck) : (s.setFrc a w).AtClock fr ck := h
theorem atClock_modCh (g : Nat) (f : Chan → Chan) {s : Device} (h : s.AtClock fr ck) : (s.modCh g f).AtClock fr ck := h
theorem atClock_modDie (d : Nat) (f : DieSt → DieSt) {s : Device} (h : s.AtClock fr ck) : (s.modDie d f).AtClock fr ck := h
theorem atClock_modSup (f : Supply → Supply) {s : Device} (h : s.AtClock fr ck) : (s.modSup f).AtClock fr ck := h
theorem atClock_modNvm (f : Nvm → Nvm) {s : Device} (h : s.AtClock fr ck) : (s.modNvm f).AtClock fr ck := h
theorem atClock_modHost (f : HostPort → HostPort) {s : Device} (h : s.AtClock fr ck) : (s.modHost f).AtClock fr ck := h
theorem atClock_pset (f : Fld .pkg) (v : Nat) {s : Device} (h : s.AtClock fr ck) : (s.pset f v).AtClock fr ck := h
theorem atClock_pinc (f : Fld .pkg) {s : Device} (h : s.AtClock fr ck) : (s.pinc f).AtClock fr ck := h
theorem atClock_psetBit (f : Fld .pkg) (i : Nat) (b : Bool) {s : Device} (h : s.AtClock fr ck) :
    (s.psetBit f i b).AtClock fr ck := h
theorem atClock_dset (d : Nat) (f : Fld .die) (v : Nat) {s : Device} (h : s.AtClock fr ck) : (s.dset d f v).AtClock fr ck := h
theorem atClock_dinc (d : Nat) (f : Fld .die) {s : Device} (h : s.AtClock fr ck) : (s.dinc d f).AtClock fr ck := h
theorem atClock_cset (g : Nat) (f : Fld .ch) (v : Nat) {s : Device} (h : s.AtClock fr ck) : (s.cset g f v).AtClock fr ck := h

end Device

end Sys2Proof.Machine
end

