-- ==== Sys2Proof/Laws/AtClockChannel.lean ====
section
/-! SUPPORT. Operations of these files that leave the package clock where it is (R5). One lemma for each operation, in the order of the files. -/

set_option linter.unusedTactic false
set_option linter.unreachableTactic false
set_option linter.unusedVariables false

namespace Sys2Proof.Machine

variable {fr ck : Nat}

/-! Ops. -/

theorem Device.atClock_modBench {s : Device} (d : ℕ) (f : Bench → Bench) (hs : s.AtClock fr ck) :
    (Device.modBench s d f).AtClock fr ck := by
  unfold Device.modBench
  repeat' first
    | with_reducible assumption
    | with_reducible apply Device.atClock_modDie
    | intro _
    | split
    | dsimp only

theorem Device.atClock_setBulk {s : Device} (reads : List (ℕ × ℕ)) (resps : List (ℕ × Sys2Proof.Word)) (hs : s.AtClock fr ck) :
    (Device.setBulk s reads resps).AtClock fr ck := by
  unfold Device.setBulk
  repeat' first
    | with_reducible assumption
    | with_reducible apply Device.atClock_mk
    | with_reducible apply Device.AtClock.both
    | intro _
    | split
    | dsimp only

theorem Device.atClock_modConv {s : Device} (g : ℕ) (f : Conv → Conv) (hs : s.AtClock fr ck) :
    (Device.modConv s g f).AtClock fr ck := by
  unfold Device.modConv
  repeat' first
    | with_reducible assumption
    | with_reducible apply Device.atClock_modCh
    | intro _
    | split
    | dsimp only

theorem Device.atClock_modLine {s : Device} (f : Line → Line) (hs : s.AtClock fr ck) :
    (Device.modLine s f).AtClock fr ck := by
  unfold Device.modLine
  repeat' first
    | with_reducible assumption
    | with_reducible apply Device.atClock_mk
    | with_reducible apply Device.AtClock.both
    | intro _
    | split
    | dsimp only

theorem Device.atClock_modLink {s : Device} (d : ℕ) (f : Link → Link) (hs : s.AtClock fr ck) :
    (Device.modLink s d f).AtClock fr ck := by
  unfold Device.modLink
  repeat' first
    | with_reducible assumption
    | with_reducible apply Device.atClock_modDie
    | intro _
    | split
    | dsimp only

theorem Device.atClock_setIrqAt {s : Device} (n : ℕ) (hs : s.AtClock fr ck) :
    (Device.setIrqAt s n).AtClock fr ck := by
  unfold Device.setIrqAt
  repeat' first
    | with_reducible assumption
    | with_reducible apply Device.atClock_mk
    | with_reducible apply Device.AtClock.both
    | intro _
    | split
    | dsimp only

theorem Device.atClock_nextFree {s : Device} (hs : s.AtClock fr ck) :
    (Device.nextFree s).AtClock fr ck := by
  unfold Device.nextFree
  repeat' first
    | with_reducible assumption
    | with_reducible apply Device.atClock_mk
    | with_reducible apply Device.AtClock.both
    | intro _
    | split
    | dsimp only

theorem atClock_irqLatch (cat : ℕ) (die : ℕ) (obj : ℕ) {s : Device} (hs : s.AtClock fr ck) :
    (irqLatch cat die obj s).AtClock fr ck := by
  unfold irqLatch
  repeat' first
    | with_reducible assumption
    | with_reducible apply Device.atClock_pset
    | with_reducible apply Device.atClock_ite
    | intro _
    | split
    | dsimp only

theorem atClock_irqSource (cat : ℕ) (die : ℕ) (obj : ℕ) {s : Device} (hs : s.AtClock fr ck) :
    (irqSource cat die obj s).AtClock fr ck := by
  unfold irqSource
  repeat' first
    | with_reducible assumption
    | with_reducible apply Device.atClock_setIrqAt
    | with_reducible apply atClock_irqLatch
    | with_reducible apply Device.atClock_pset
    | with_reducible apply Device.atClock_pinc
    | with_reducible apply Device.atClock_ite
    | intro _
    | split
    | dsimp only

theorem atClock_setIrq (cat : ℕ) (die : ℕ) (obj : ℕ) {s : Device} (hs : s.AtClock fr ck) :
    (setIrq cat die obj s).AtClock fr ck := by
  unfold setIrq
  repeat' first
    | with_reducible assumption
    | with_reducible apply atClock_irqSource
    | with_reducible apply Device.atClock_setReg
    | with_reducible apply Device.atClock_ite
    | intro _
    | split
    | dsimp only

theorem Device.atClock_setDropped {s : Device} (l : List (ℕ × LedgerEnt)) (hs : s.AtClock fr ck) :
    (Device.setDropped s l).AtClock fr ck := by
  unfold Device.setDropped
  repeat' first
    | with_reducible assumption
    | with_reducible apply Device.atClock_mk
    | with_reducible apply Device.AtClock.both
    | intro _
    | split
    | dsimp only

theorem atClock_setCat (cat : ℕ) {s : Device} (hs : s.AtClock fr ck) :
    (setCat cat s).AtClock fr ck := by
  unfold setCat
  repeat' first
    | with_reducible assumption
    | with_reducible apply atClock_setIrq
    | intro _
    | split
    | dsimp only

theorem atClock_ledgerWrite (e : LedgerEnt) {s : Device} (hs : s.AtClock fr ck) :
    (ledgerWrite e s).AtClock fr ck := by
  unfold ledgerWrite
  repeat' first
    | with_reducible assumption
    | with_reducible apply atClock_setCat
    | with_reducible apply Device.atClock_pset
    | with_reducible apply Device.atClock_ite
    | with_reducible apply Device.atClock_mk
    | with_reducible apply Device.AtClock.both
    | intro _
    | split
    | dsimp only

theorem atClock_ledgerPut (e : LedgerEnt) {s : Device} (hs : s.AtClock fr ck) :
    (ledgerPut e s).AtClock fr ck := by
  unfold ledgerPut
  repeat' first
    | with_reducible assumption
    | with_reducible apply Device.atClock_setDropped
    | with_reducible apply atClock_ledgerWrite
    | with_reducible apply Device.atClock_pset
    | with_reducible apply Device.atClock_pinc
    | with_reducible apply Device.atClock_ite
    | intro _
    | split
    | dsimp only

theorem atClock_logEvent (cat : ℕ) (d : ℕ) (code : ℕ) (obj : ℕ) (data : ℕ) {s : Device} (hs : s.AtClock fr ck) :
    (logEvent cat d code obj data s).AtClock fr ck := by
  unfold logEvent
  repeat' first
    | with_reducible assumption
    | with_reducible apply atClock_setIrq
    | with_reducible apply atClock_ledgerPut
    | with_reducible apply Device.atClock_modDie
    | with_reducible apply Device.atClock_ite
    | intro _
    | split
    | dsimp only

theorem Device.atClock_modRecov {s : Device} (d : ℕ) (f : Recov → Recov) (hs : s.AtClock fr ck) :
    (Device.modRecov s d f).AtClock fr ck := by
  unfold Device.modRecov
  repeat' first
    | with_reducible assumption
    | with_reducible apply Device.atClock_modDie
    | intro _
    | split
    | dsimp only

theorem Device.atClock_clearRun {s : Device} (hs : s.AtClock fr ck) :
    (Device.clearRun s).AtClock fr ck := by
  unfold Device.clearRun
  repeat' first
    | with_reducible assumption
    | with_reducible apply Device.atClock_mk
    | with_reducible apply Device.AtClock.both
    | intro _
    | split
    | dsimp only

theorem Device.atClock_modDue {s : Device} (g : ℕ) (f : Due → Due) (hs : s.AtClock fr ck) :
    (Device.modDue s g f).AtClock fr ck := by
  unfold Device.modDue
  repeat' first
    | with_reducible assumption
    | with_reducible apply Device.atClock_modCh
    | intro _
    | split
    | dsimp only

theorem Device.atClock_dforce {s : Device} (d : ℕ) (off : ℕ) (hs : s.AtClock fr ck) :
    (Device.dforce s d off).AtClock fr ck := by
  unfold Device.dforce
  repeat' first
    | with_reducible assumption
    | with_reducible apply Device.atClock_setFrc
    | intro _
    | split
    | dsimp only

theorem atClock_setPkgState (st : ℕ) {s : Device} (hs : s.AtClock fr ck) :
    (setPkgState st s).AtClock fr ck := by
  unfold setPkgState
  repeat' first
    | with_reducible assumption
    | with_reducible apply Device.atClock_pset
    | intro _
    | split
    | dsimp only

theorem Device.atClock_pforce {s : Device} (off : ℕ) (hs : s.AtClock fr ck) :
    (Device.pforce s off).AtClock fr ck := by
  unfold Device.pforce
  repeat' first
    | with_reducible assumption
    | with_reducible apply Device.atClock_setFrc
    | intro _
    | split
    | dsimp only

theorem Device.atClock_modGlean {s : Device} (d : ℕ) (f : Glean → Glean) (hs : s.AtClock fr ck) :
    (Device.modGlean s d f).AtClock fr ck := by
  unfold Device.modGlean
  repeat' first
    | with_reducible assumption
    | with_reducible apply Device.atClock_modDie
    | intro _
    | split
    | dsimp only

theorem Device.atClock_modAcc {s : Device} (g : ℕ) (f : Acc → Acc) (hs : s.AtClock fr ck) :
    (Device.modAcc s g f).AtClock fr ck := by
  unfold Device.modAcc
  repeat' first
    | with_reducible assumption
    | with_reducible apply Device.atClock_modCh
    | intro _
    | split
    | dsimp only

theorem Device.atClock_noteRegs {s : Device} (hs : s.AtClock fr ck) :
    (Device.noteRegs s).AtClock fr ck := by
  unfold Device.noteRegs
  repeat' first
    | with_reducible assumption
    | with_reducible apply Device.atClock_mk
    | with_reducible apply Device.AtClock.both
    | intro _
    | split
    | dsimp only

theorem Device.atClock_setBusClr {s : Device} (b : Bool) (hs : s.AtClock fr ck) :
    (Device.setBusClr s b).AtClock fr ck := by
  unfold Device.setBusClr
  repeat' first
    | with_reducible assumption
    | with_reducible apply Device.atClock_mk
    | with_reducible apply Device.AtClock.both
    | intro _
    | split
    | dsimp only

theorem Device.atClock_spend {s : Device} (n : ℕ) (hs : s.AtClock fr ck) :
    (Device.spend s n).AtClock fr ck := by
  unfold Device.spend
  repeat' first
    | with_reducible assumption
    | with_reducible apply Device.atClock_mk
    | with_reducible apply Device.AtClock.both
    | intro _
    | split
    | dsimp only

theorem Device.atClock_modLp {s : Device} (g : ℕ) (f : Loop → Loop) (hs : s.AtClock fr ck) :
    (Device.modLp s g f).AtClock fr ck := by
  unfold Device.modLp
  repeat' first
    | with_reducible assumption
    | with_reducible apply Device.atClock_modCh
    | intro _
    | split
    | dsimp only

theorem Device.atClock_modAcir {s : Device} (g : ℕ) (f : Acir → Acir) (hs : s.AtClock fr ck) :
    (Device.modAcir s g f).AtClock fr ck := by
  unfold Device.modAcir
  repeat' first
    | with_reducible assumption
    | with_reducible apply Device.atClock_modCh
    | intro _
    | split
    | dsimp only

theorem Device.atClock_modLease {s : Device} (g : ℕ) (f : Lease → Lease) (hs : s.AtClock fr ck) :
    (Device.modLease s g f).AtClock fr ck := by
  unfold Device.modLease
  repeat' first
    | with_reducible assumption
    | with_reducible apply Device.atClock_modCh
    | intro _
    | split
    | dsimp only

theorem atClock_publishDies {s : Device} (hs : s.AtClock fr ck) :
    (publishDies s).AtClock fr ck := by
  unfold publishDies
  repeat' first
    | with_reducible assumption
    | with_reducible apply Device.atClock_dset
    | with_reducible apply Device.atClock_pset
    | with_reducible apply Device.atClock_ite
    | with_reducible apply Device.atClock_each
    | intro _
    | split
    | dsimp only

theorem Device.atClock_modSar {s : Device} (d : ℕ) (f : Sar → Sar) (hs : s.AtClock fr ck) :
    (Device.modSar s d f).AtClock fr ck := by
  unfold Device.modSar
  repeat' first
    | with_reducible assumption
    | with_reducible apply Device.atClock_modDie
    | intro _
    | split
    | dsimp only

theorem Device.atClock_modSnap {s : Device} (f : Snap → Snap) (hs : s.AtClock fr ck) :
    (Device.modSnap s f).AtClock fr ck := by
  unfold Device.modSnap
  repeat' first
    | with_reducible assumption
    | with_reducible apply Device.atClock_mk
    | with_reducible apply Device.AtClock.both
    | intro _
    | split
    | dsimp only

theorem Device.atClock_cforce {s : Device} (g : ℕ) (off : ℕ) (hs : s.AtClock fr ck) :
    (Device.cforce s g off).AtClock fr ck := by
  unfold Device.cforce
  repeat' first
    | with_reducible assumption
    | with_reducible apply Device.atClock_setFrc
    | intro _
    | split
    | dsimp only

theorem Device.atClock_setBanks {s : Device} (l : List (Option ℕ)) (hs : s.AtClock fr ck) :
    (Device.setBanks s l).AtClock fr ck := by
  unfold Device.setBanks
  repeat' first
    | with_reducible assumption
    | with_reducible apply Device.atClock_mk
    | with_reducible apply Device.AtClock.both
    | intro _
    | split
    | dsimp only

theorem Device.atClock_setGrants {s : Device} (l : List (ℕ × ℕ)) (hs : s.AtClock fr ck) :
    (Device.setGrants s l).AtClock fr ck := by
  unfold Device.setGrants
  repeat' first
    | with_reducible assumption
    | with_reducible apply Device.atClock_mk
    | with_reducible apply Device.AtClock.both
    | intro _
    | split
    | dsimp only

theorem Device.atClock_modPins {s : Device} (f : Pins → Pins) (hs : s.AtClock fr ck) :
    (Device.modPins s f).AtClock fr ck := by
  unfold Device.modPins
  repeat' first
    | with_reducible assumption
    | with_reducible apply Device.atClock_mk
    | with_reducible apply Device.AtClock.both
    | intro _
    | split
    | dsimp only

theorem Device.atClock_modEng {s : Device} (g : ℕ) (f : Eng → Eng) (hs : s.AtClock fr ck) :
    (Device.modEng s g f).AtClock fr ck := by
  unfold Device.modEng
  repeat' first
    | with_reducible assumption
    | with_reducible apply Device.atClock_modCh
    | intro _
    | split
    | dsimp only

theorem Device.atClock_setBusW1c {s : Device} (w : Sys2Proof.Word) (hs : s.AtClock fr ck) :
    (Device.setBusW1c s w).AtClock fr ck := by
  unfold Device.setBusW1c
  repeat' first
    | with_reducible assumption
    | with_reducible apply Device.atClock_mk
    | with_reducible apply Device.AtClock.both
    | intro _
    | split
    | dsimp only

theorem Device.atClock_setBcast {s : Device} (l : List Bcast) (hs : s.AtClock fr ck) :
    (Device.setBcast s l).AtClock fr ck := by
  unfold Device.setBcast
  repeat' first
    | with_reducible assumption
    | with_reducible apply Device.atClock_mk
    | with_reducible apply Device.AtClock.both
    | intro _
    | split
    | dsimp only

/-! LineAngle. -/

theorem atClock_setLineState (st : ℕ) {s : Device} (hs : s.AtClock fr ck) :
    (setLineState st s).AtClock fr ck := by
  unfold setLineState
  repeat' first
    | with_reducible assumption
    | with_reducible apply Device.atClock_pset
    | with_reducible apply Device.atClock_ite
    | intro _
    | split
    | dsimp only

theorem atClock_qualifiedEdge (t : ℕ) {s : Device} (hs : s.AtClock fr ck) :
    (qualifiedEdge t s).AtClock fr ck := by
  unfold qualifiedEdge
  repeat' first
    | with_reducible assumption
    | with_reducible apply atClock_logEvent
    | with_reducible apply Device.atClock_nextFree
    | with_reducible apply atClock_setLineState
    | with_reducible apply atClock_setCat
    | with_reducible apply Device.atClock_setReg
    | with_reducible apply Device.atClock_pset
    | with_reducible apply Device.atClock_ite
    | with_reducible apply Device.atClock_mk
    | with_reducible apply Device.AtClock.both
    | intro _
    | split
    | dsimp only

theorem atClock_lineClock {s : Device} (hs : s.AtClock fr ck) :
    (lineClock s).AtClock fr ck := by
  unfold lineClock
  repeat' first
    | with_reducible assumption
    | with_reducible apply Device.atClock_modLine
    | with_reducible apply Device.atClock_setReg
    | with_reducible apply Device.atClock_ite
    | intro _
    | split
    | dsimp only

theorem atClock_lineBoundary {s : Device} (hs : s.AtClock fr ck) :
    (lineBoundary s).AtClock fr ck := by
  unfold lineBoundary
  repeat' first
    | with_reducible assumption
    | with_reducible apply Device.atClock_pforce
    | with_reducible apply Device.atClock_setFrc
    | with_reducible apply Device.atClock_pset
    | with_reducible apply Device.atClock_ite
    | with_reducible apply Device.atClock_mk
    | with_reducible apply Device.AtClock.both
    | intro _
    | split
    | dsimp only

theorem atClock_clrRej (data : Sys2Proof.Word) {s : Device} (hs : s.AtClock fr ck) :
    (clrRej data s).AtClock fr ck := by
  unfold clrRej
  repeat' first
    | with_reducible assumption
    | with_reducible apply Device.atClock_setReg
    | with_reducible apply Device.atClock_ite
    | intro _
    | split
    | dsimp only

theorem atClock_lineStart {s : Device} (hs : s.AtClock fr ck) :
    (lineStart s).AtClock fr ck := by
  unfold lineStart
  repeat' first
    | with_reducible assumption
    | with_reducible apply Device.atClock_mk
    | with_reducible apply Device.AtClock.both
    | intro _
    | split
    | dsimp only

theorem atClock_enterHoldover {s : Device} (hs : s.AtClock fr ck) :
    (enterHoldover s).AtClock fr ck := by
  unfold enterHoldover
  repeat' first
    | with_reducible assumption
    | with_reducible apply atClock_setLineState
    | with_reducible apply Device.atClock_modLine
    | with_reducible apply atClock_logEvent
    | with_reducible apply Device.atClock_pset
    | with_reducible apply Device.atClock_setReg
    | intro _
    | split
    | dsimp only

theorem atClock_lineCfgWrite (r : Sys2Proof.LineReg) (data : Sys2Proof.Word) {s : Device} (hs : s.AtClock fr ck) :
    (lineCfgWrite r data s).AtClock fr ck := by
  unfold lineCfgWrite
  repeat' first
    | with_reducible assumption
    | with_reducible apply Device.atClock_setReg
    | with_reducible apply Device.atClock_ite
    | intro _
    | split
    | dsimp only

theorem atClock_lineTimeout {s : Device} (hs : s.AtClock fr ck) :
    (lineTimeout s).AtClock fr ck := by
  unfold lineTimeout
  repeat' first
    | with_reducible assumption
    | with_reducible apply atClock_enterHoldover
    | with_reducible apply atClock_setLineState
    | with_reducible apply Device.atClock_modLine
    | with_reducible apply Device.atClock_ite
    | intro _
    | split
    | dsimp only

theorem atClock_candidateEdge (t : ℕ) {s : Device} (hs : s.AtClock fr ck) :
    (candidateEdge t s).AtClock fr ck := by
  unfold candidateEdge
  repeat' first
    | with_reducible assumption
    | with_reducible apply atClock_qualifiedEdge
    | with_reducible apply Device.atClock_pinc
    | with_reducible apply Device.atClock_ite
    | with_reducible apply Device.atClock_mk
    | with_reducible apply Device.AtClock.both
    | intro _
    | split
    | dsimp only

theorem atClock_lsyncEdge (tick : ℕ) (run : ℕ) (rising : Bool) {s : Device} (hs : s.AtClock fr ck) :
    (lsyncEdge tick run rising s).AtClock fr ck := by
  unfold lsyncEdge
  repeat' first
    | with_reducible assumption
    | with_reducible apply Device.atClock_modLine
    | with_reducible apply atClock_candidateEdge
    | with_reducible apply Device.atClock_pinc
    | with_reducible apply Device.atClock_ite
    | intro _
    | split
    | dsimp only

/-! Accum. -/

theorem atClock_constLoad (g : ℕ) {s : Device} (hs : s.AtClock fr ck) :
    (constLoad g s).AtClock fr ck := by
  unfold constLoad
  repeat' first
    | with_reducible assumption
    | with_reducible apply Device.atClock_cset
    | with_reducible apply Device.atClock_setReg
    | with_reducible apply Device.atClock_ite
    | intro _
    | split
    | dsimp only

theorem atClock_closeEpoch (causes : ℕ) (g : ℕ) {s : Device} (hs : s.AtClock fr ck) :
    (closeEpoch causes g s).AtClock fr ck := by
  unfold closeEpoch
  repeat' first
    | with_reducible assumption
    | with_reducible apply Device.atClock_modConv
    | with_reducible apply Device.atClock_cset
    | with_reducible apply Device.atClock_modCh
    | with_reducible apply Device.atClock_ite
    | intro _
    | split
    | dsimp only

theorem atClock_takeConsts (k : Const × Const × Const) (g : ℕ) {s : Device} (hs : s.AtClock fr ck) :
    (takeConsts k g s).AtClock fr ck := by
  unfold takeConsts
  repeat' first
    | with_reducible assumption
    | with_reducible apply Device.atClock_modConv
    | with_reducible apply Device.atClock_cset
    | with_reducible apply Device.atClock_ite
    | intro _
    | split
    | dsimp only

theorem atClock_updateConsts (causes : ℕ) (always : Bool) (g : ℕ) {s : Device} (hs : s.AtClock fr ck) :
    (updateConsts causes always g s).AtClock fr ck := by
  unfold updateConsts
  repeat' first
    | with_reducible assumption
    | with_reducible apply atClock_closeEpoch
    | with_reducible apply atClock_takeConsts
    | with_reducible apply Device.atClock_ite
    | intro _
    | split
    | dsimp only

theorem atClock_tcrWritten (g : ℕ) {s : Device} (hs : s.AtClock fr ck) :
    (tcrWritten g s).AtClock fr ck := by
  unfold tcrWritten
  repeat' first
    | with_reducible assumption
    | with_reducible apply Device.atClock_modDue
    | with_reducible apply Device.atClock_cforce
    | with_reducible apply atClock_updateConsts
    | with_reducible apply Device.atClock_modConv
    | with_reducible apply Device.atClock_ite
    | intro _
    | split
    | dsimp only

theorem atClock_tcrUpdateCh (g : ℕ) {s : Device} (hs : s.AtClock fr ck) :
    (tcrUpdateCh g s).AtClock fr ck := by
  unfold tcrUpdateCh
  repeat' first
    | with_reducible assumption
    | with_reducible apply atClock_updateConsts
    | with_reducible apply Device.atClock_modConv
    | with_reducible apply Device.atClock_ite
    | intro _
    | split
    | dsimp only

theorem atClock_tcrUpdate {s : Device} (hs : s.AtClock fr ck) :
    (tcrUpdate s).AtClock fr ck := by
  unfold tcrUpdate
  repeat' first
    | with_reducible assumption
    | with_reducible apply atClock_tcrUpdateCh
    | with_reducible apply Device.atClock_ite
    | with_reducible apply Device.atClock_each
    | intro _
    | split
    | dsimp only

theorem atClock_resetLive (base : List Sys2Proof.Word) (g : ℕ) {s : Device} (hs : s.AtClock fr ck) :
    (resetLive base g s).AtClock fr ck := by
  unfold resetLive
  repeat' first
    | with_reducible assumption
    | with_reducible apply Device.atClock_modConv
    | with_reducible apply Device.atClock_setReg
    | intro _
    | split
    | dsimp only

theorem atClock_baseReset (g : ℕ) {s : Device} (hs : s.AtClock fr ck) :
    (baseReset g s).AtClock fr ck := by
  unfold baseReset
  repeat' first
    | with_reducible assumption
    | with_reducible apply atClock_resetLive
    | with_reducible apply Device.atClock_ite
    | intro _
    | split
    | dsimp only

theorem atClock_accClear (g : ℕ) (data : Sys2Proof.Word) {s : Device} (hs : s.AtClock fr ck) :
    (accClear g data s).AtClock fr ck := by
  unfold accClear
  repeat' first
    | with_reducible assumption
    | with_reducible apply Device.atClock_modDue
    | with_reducible apply Device.atClock_ite
    | intro _
    | split
    | dsimp only

theorem atClock_constAct (cause : ℕ) (f : ℕ → Device → Device) (g : ℕ) {s : Device} (c : ℕ) (hf : ∀ y0 y1, y1.AtClock fr ck → (f y0 y1).AtClock fr ck) (hs : s.AtClock fr ck) :
    (constAct cause f g s c).1.AtClock fr ck := by
  unfold constAct
  repeat' first
    | with_reducible assumption
    | with_reducible apply hf
    | with_reducible apply Device.atClock_ite
    | intro _
    | split
    | dsimp only

theorem atClock_showDrift (g : ℕ) {s : Device} (hs : s.AtClock fr ck) :
    (showDrift g s).AtClock fr ck := by
  unfold showDrift
  repeat' first
    | with_reducible assumption
    | with_reducible apply Device.atClock_dset
    | with_reducible apply Device.atClock_ite
    | intro _
    | split
    | dsimp only

theorem atClock_constClose (g : ℕ) {s : Device} (c : ℕ) (hs : s.AtClock fr ck) :
    (constClose g s c).AtClock fr ck := by
  unfold constClose
  repeat' first
    | with_reducible assumption
    | with_reducible apply atClock_closeEpoch
    | with_reducible apply atClock_takeConsts
    | with_reducible apply Device.atClock_ite
    | intro _
    | split
    | dsimp only

theorem atClock_calNote (off : ℕ) (w : Sys2Proof.Word) (g : ℕ) {s : Device} (hs : s.AtClock fr ck) :
    (calNote off w g s).AtClock fr ck := by
  unfold calNote
  repeat' first
    | with_reducible assumption
    | with_reducible apply Device.atClock_modDue
    | with_reducible apply Device.atClock_ite
    | intro _
    | split
    | dsimp only

theorem atClock_boardWrite (off : ℕ) (w : Sys2Proof.Word) (g : ℕ) {s : Device} (hs : s.AtClock fr ck) :
    (boardWrite off w g s).AtClock fr ck := by
  unfold boardWrite
  repeat' first
    | with_reducible assumption
    | with_reducible apply atClock_calNote
    | with_reducible apply Device.atClock_setReg
    | intro _
    | split
    | dsimp only

theorem atClock_offsetWrite (g : ℕ) (volt : Bool) (data : Sys2Proof.Word) {s : Device} (hs : s.AtClock fr ck) :
    (offsetWrite g volt data s).AtClock fr ck := by
  unfold offsetWrite
  repeat' first
    | with_reducible assumption
    | with_reducible apply atClock_boardWrite
    | with_reducible apply Device.atClock_ite
    | intro _
    | split
    | dsimp only

theorem atClock_clearNow (g : ℕ) {s : Device} (hs : s.AtClock fr ck) :
    (clearNow g s).AtClock fr ck := by
  unfold clearNow
  repeat' first
    | with_reducible assumption
    | with_reducible apply atClock_closeEpoch
    | with_reducible apply Device.atClock_cset
    | with_reducible apply Device.atClock_modCh
    | with_reducible apply atClock_logEvent
    | with_reducible apply Device.atClock_ite
    | intro _
    | split
    | dsimp only

theorem atClock_clearDir (g : ℕ) {s : Device} (hs : s.AtClock fr ck) :
    (clearDir g s).AtClock fr ck := by
  unfold clearDir
  repeat' first
    | with_reducible assumption
    | with_reducible apply Device.atClock_modAcc
    | intro _
    | split
    | dsimp only

theorem atClock_clearBoundary (g : ℕ) {s : Device} (hs : s.AtClock fr ck) :
    (clearBoundary g s).AtClock fr ck := by
  unfold clearBoundary
  repeat' first
    | with_reducible assumption
    | with_reducible apply atClock_clearNow
    | with_reducible apply Device.atClock_cforce
    | with_reducible apply atClock_clearDir
    | with_reducible apply Device.atClock_ite
    | intro _
    | split
    | dsimp only

theorem atClock_baselineWrite (g : ℕ) (r : Sys2Proof.BaseReg) (data : Sys2Proof.Word) {s : Device} (hs : s.AtClock fr ck) :
    (baselineWrite g r data s).AtClock fr ck := by
  unfold baselineWrite
  repeat' first
    | with_reducible assumption
    | with_reducible apply atClock_boardWrite
    | intro _
    | split
    | dsimp only

theorem atClock_forceConsts (g : ℕ) {s : Device} (hs : s.AtClock fr ck) :
    (forceConsts g s).AtClock fr ck := by
  unfold forceConsts
  repeat' first
    | with_reducible assumption
    | with_reducible apply Device.atClock_cforce
    | with_reducible apply Device.atClock_each
    | intro _
    | split
    | dsimp only

theorem atClock_startConsts (g : ℕ) {s : Device} (hs : s.AtClock fr ck) :
    (startConsts g s).AtClock fr ck := by
  unfold startConsts
  repeat' first
    | with_reducible assumption
    | with_reducible apply atClock_forceConsts
    | with_reducible apply Device.atClock_cforce
    | with_reducible apply atClock_baseReset
    | intro _
    | split
    | dsimp only

theorem atClock_rangeConsts (low : Bool) (g : ℕ) {s : Device} (hs : s.AtClock fr ck) :
    (rangeConsts low g s).AtClock fr ck := by
  unfold rangeConsts
  repeat' first
    | with_reducible assumption
    | with_reducible apply atClock_updateConsts
    | with_reducible apply atClock_showDrift
    | with_reducible apply atClock_clearDir
    | with_reducible apply Device.atClock_cset
    | with_reducible apply Device.atClock_ite
    | intro _
    | split
    | dsimp only

theorem atClock_bookFrame (g : ℕ) {s : Device} (hs : s.AtClock fr ck) :
    (bookFrame g s).AtClock fr ck := by
  unfold bookFrame
  repeat' first
    | with_reducible assumption
    | with_reducible apply Device.atClock_modCh
    | with_reducible apply Device.atClock_nextFree
    | with_reducible apply Device.atClock_cset
    | with_reducible apply Device.atClock_setReg
    | with_reducible apply Device.atClock_ite
    | intro _
    | split
    | dsimp only

theorem atClock_bookPartial (d : ℕ) {s : Device} (hs : s.AtClock fr ck) :
    (bookPartial d s).AtClock fr ck := by
  unfold bookPartial
  repeat' first
    | with_reducible assumption
    | with_reducible apply Device.atClock_modAcc
    | with_reducible apply Device.atClock_nextFree
    | with_reducible apply Device.atClock_cset
    | with_reducible apply Device.atClock_modDie
    | with_reducible apply Device.atClock_ite
    | with_reducible apply Device.atClock_each
    | intro _
    | split
    | dsimp only

theorem atClock_constantWrite (g : ℕ) (r : Sys2Proof.KReg) (data : Sys2Proof.Word) {s : Device} (hs : s.AtClock fr ck) :
    (constantWrite g r data s).AtClock fr ck := by
  unfold constantWrite
  repeat' first
    | with_reducible assumption
    | with_reducible apply atClock_boardWrite
    | with_reducible apply Device.atClock_cset
    | with_reducible apply Device.atClock_setReg
    | with_reducible apply Device.atClock_ite
    | intro _
    | split
    | dsimp only

theorem atClock_tcrCfgWrite (g : ℕ) (data : Sys2Proof.Word) {s : Device} (hs : s.AtClock fr ck) :
    (tcrCfgWrite g data s).AtClock fr ck := by
  unfold tcrCfgWrite
  repeat' first
    | with_reducible assumption
    | with_reducible apply Device.atClock_modDue
    | with_reducible apply Device.atClock_setReg
    | intro _
    | split
    | dsimp only

/-! Flags. -/

theorem atClock_setOverload (volt : Bool) (g : ℕ) {s : Device} (hs : s.AtClock fr ck) :
    (setOverload volt g s).AtClock fr ck := by
  unfold setOverload
  repeat' first
    | with_reducible assumption
    | with_reducible apply Device.atClock_cset
    | with_reducible apply atClock_logEvent
    | with_reducible apply Device.atClock_ite
    | intro _
    | split
    | dsimp only

theorem atClock_takeFirst (code : ℕ) (g : ℕ) (was : ℕ) {s : Device} (hs : s.AtClock fr ck) :
    (takeFirst code g was s).AtClock fr ck := by
  unfold takeFirst
  repeat' first
    | with_reducible assumption
    | with_reducible apply Device.atClock_modLp
    | with_reducible apply Device.atClock_cset
    | with_reducible apply Device.atClock_ite
    | intro _
    | split
    | dsimp only

theorem atClock_clearChFault (mask : ℕ) (g : ℕ) {s : Device} (hs : s.AtClock fr ck) :
    (clearChFault mask g s).AtClock fr ck := by
  unfold clearChFault
  repeat' first
    | with_reducible assumption
    | with_reducible apply Device.atClock_cset
    | with_reducible apply Device.atClock_setReg
    | with_reducible apply Device.atClock_ite
    | intro _
    | split
    | dsimp only

theorem atClock_idleFlags (g : ℕ) {s : Device} (hs : s.AtClock fr ck) :
    (idleFlags g s).AtClock fr ck := by
  unfold idleFlags
  repeat' first
    | with_reducible assumption
    | with_reducible apply Device.atClock_cset
    | with_reducible apply Device.atClock_setReg
    | intro _
    | split
    | dsimp only

theorem atClock_setChFault (bit : ℕ) (g : ℕ) {s : Device} (hs : s.AtClock fr ck) :
    (setChFault bit g s).AtClock fr ck := by
  unfold setChFault
  repeat' first
    | with_reducible assumption
    | with_reducible apply atClock_takeFirst
    | with_reducible apply atClock_logEvent
    | with_reducible apply Device.atClock_setReg
    | with_reducible apply Device.atClock_ite
    | intro _
    | split
    | dsimp only

/-! Operands. -/



/-! Sense. -/

theorem atClock_benchFast (d : ℕ) {s : Device} (hs : s.AtClock fr ck) :
    (benchFast d s).2.AtClock fr ck := by
  unfold benchFast
  repeat' first
    | with_reducible assumption
    | with_reducible apply Device.atClock_modBench
    | intro _
    | split
    | dsimp only

theorem atClock_writeRange (low : Bool) (g : ℕ) {s : Device} (hs : s.AtClock fr ck) :
    (writeRange low g s).AtClock fr ck := by
  unfold writeRange
  repeat' first
    | with_reducible assumption
    | with_reducible apply Device.atClock_modDue
    | with_reducible apply Device.atClock_cset
    | with_reducible apply Device.atClock_ite
    | intro _
    | split
    | dsimp only

theorem atClock_fastChannel (bq : ℤ × ℤ) (g : ℕ) {s : Device} (hs : s.AtClock fr ck) :
    (fastChannel bq g s).AtClock fr ck := by
  unfold fastChannel
  repeat' first
    | with_reducible assumption
    | with_reducible apply Device.atClock_spend
    | with_reducible apply Device.atClock_modCh
    | with_reducible apply Device.atClock_setReg
    | with_reducible apply Device.atClock_ite
    | intro _
    | split
    | dsimp only

theorem atClock_precChannel (bq : ℤ × ℤ) (g : ℕ) {s : Device} (hs : s.AtClock fr ck) :
    (precChannel bq g s).AtClock fr ck := by
  unfold precChannel
  repeat' first
    | with_reducible assumption
    | with_reducible apply Device.atClock_modCh
    | with_reducible apply Device.atClock_setReg
    | with_reducible apply Device.atClock_ite
    | with_reducible apply Device.atClock_mk
    | with_reducible apply Device.AtClock.both
    | intro _
    | split
    | dsimp only

theorem atClock_benchPrec (d : ℕ) {s : Device} (hs : s.AtClock fr ck) :
    (benchPrec d s).2.AtClock fr ck := by
  unfold benchPrec
  repeat' first
    | with_reducible assumption
    | with_reducible apply Device.atClock_modBench
    | intro _
    | split
    | dsimp only

theorem atClock_precDie (d : ℕ) {s : Device} (hs : s.AtClock fr ck) :
    (precDie d s).AtClock fr ck := by
  unfold precDie
  repeat' first
    | with_reducible assumption
    | with_reducible apply atClock_precChannel
    | (refine Device.atClock_snd (by with_reducible assumption) ?_; with_reducible apply atClock_benchPrec)
    | with_reducible apply atClock_benchPrec
    | with_reducible apply Device.atClock_ite
    | with_reducible apply Device.atClock_each
    | intro _
    | split
    | dsimp only

/-! Bench. -/

theorem atClock_setPhase (p : ℕ) (d : ℕ) {s : Device} (hs : s.AtClock fr ck) :
    (setPhase p d s).AtClock fr ck := by
  unfold setPhase
  repeat' first
    | with_reducible assumption
    | with_reducible apply Device.atClock_dset
    | intro _
    | split
    | dsimp only

theorem atClock_benchBaton (on : Bool) (d : ℕ) {s : Device} (hs : s.AtClock fr ck) :
    (benchBaton on d s).AtClock fr ck := by
  unfold benchBaton
  repeat' first
    | with_reducible assumption
    | with_reducible apply Device.atClock_psetBit
    | intro _
    | split
    | dsimp only

theorem atClock_endVisit (d : ℕ) {s : Device} (hs : s.AtClock fr ck) :
    (endVisit d s).AtClock fr ck := by
  unfold endVisit
  repeat' first
    | with_reducible assumption
    | with_reducible apply Device.atClock_dset
    | with_reducible apply atClock_setPhase
    | with_reducible apply atClock_benchBaton
    | with_reducible apply Device.atClock_modBench
    | intro _
    | split
    | dsimp only

theorem atClock_selfcalEnd (d : ℕ) (res : Sys2Proof.PairCal) {s : Device} (hs : s.AtClock fr ck) :
    (selfcalEnd d res s).AtClock fr ck := by
  unfold selfcalEnd
  repeat' first
    | with_reducible assumption
    | with_reducible apply atClock_endVisit
    | with_reducible apply Device.atClock_dset
    | with_reducible apply atClock_logEvent
    | with_reducible apply Device.atClock_modBench
    | with_reducible apply Device.atClock_nextFree
    | with_reducible apply atClock_setPhase
    | with_reducible apply Device.atClock_setReg
    | with_reducible apply Device.atClock_ite
    | intro _
    | split
    | dsimp only

theorem atClock_visitStart (d : ℕ) {s : Device} (hs : s.AtClock fr ck) :
    (visitStart d s).AtClock fr ck := by
  unfold visitStart
  repeat' first
    | with_reducible assumption
    | with_reducible apply Device.atClock_dforce
    | with_reducible apply Device.atClock_modBench
    | with_reducible apply atClock_benchBaton
    | with_reducible apply Device.atClock_dset
    | with_reducible apply atClock_setPhase
    | with_reducible apply Device.atClock_ite
    | intro _
    | split
    | dsimp only

theorem atClock_takeover (d : ℕ) {s : Device} (hs : s.AtClock fr ck) :
    (takeover d s).AtClock fr ck := by
  unfold takeover
  repeat' first
    | with_reducible assumption
    | with_reducible apply Device.atClock_dset
    | with_reducible apply Device.atClock_modBench
    | with_reducible apply Device.atClock_modConv
    | with_reducible apply atClock_updateConsts
    | with_reducible apply Device.atClock_cset
    | with_reducible apply atClock_setPhase
    | with_reducible apply Device.atClock_ite
    | intro _
    | split
    | dsimp only

theorem atClock_dsetBit (d : ℕ) (f : Fld Blk.die) (c : ℕ) (on : Bool) {s : Device} (hs : s.AtClock fr ck) :
    (dsetBit d f c on s).AtClock fr ck := by
  unfold dsetBit
  repeat' first
    | with_reducible assumption
    | with_reducible apply Device.atClock_dset
    | with_reducible apply Device.atClock_ite
    | intro _
    | split
    | dsimp only

theorem atClock_benchQueue (d : ℕ) (c : ℕ) {s : Device} (hs : s.AtClock fr ck) :
    (benchQueue d c s).AtClock fr ck := by
  unfold benchQueue
  repeat' first
    | with_reducible assumption
    | with_reducible apply Device.atClock_modBench
    | intro _
    | split
    | dsimp only

theorem atClock_lastOfs (g : ℕ) {s : Device} (hs : s.AtClock fr ck) :
    (lastOfs g s).AtClock fr ck := by
  unfold lastOfs
  repeat' first
    | with_reducible assumption
    | with_reducible apply Device.atClock_dset
    | with_reducible apply Device.atClock_ite
    | intro _
    | split
    | dsimp only

theorem atClock_releaseCarrier (g : ℕ) {s : Device} (hs : s.AtClock fr ck) :
    (releaseCarrier g s).AtClock fr ck := by
  unfold releaseCarrier
  repeat' first
    | with_reducible assumption
    | with_reducible apply Device.atClock_modConv
    | with_reducible apply atClock_updateConsts
    | with_reducible apply Device.atClock_cset
    | intro _
    | split
    | dsimp only

theorem atClock_benchBoundary (d : ℕ) {s : Device} (hs : s.AtClock fr ck) :
    (benchBoundary d s).AtClock fr ck := by
  unfold benchBoundary
  repeat' first
    | with_reducible assumption
    | with_reducible apply atClock_setPhase
    | with_reducible apply Device.atClock_modBench
    | with_reducible apply atClock_releaseCarrier
    | with_reducible apply atClock_endVisit
    | with_reducible apply Device.atClock_ite
    | intro _
    | split
    | dsimp only

theorem atClock_applyDrift (k : ℕ) (x : Drift) (g : ℕ) {s : Device} (hs : s.AtClock fr ck) :
    (applyDrift k x g s).AtClock fr ck := by
  unfold applyDrift
  repeat' first
    | with_reducible assumption
    | with_reducible apply Device.atClock_modConv
    | intro _
    | split
    | dsimp only

theorem atClock_benchMismatch (volt : Bool) (g : ℕ) (dd : ℤ) {s : Device} (hs : s.AtClock fr ck) :
    (benchMismatch volt g dd s).AtClock fr ck := by
  unfold benchMismatch
  repeat' first
    | with_reducible assumption
    | with_reducible apply atClock_dsetBit
    | with_reducible apply Device.atClock_dset
    | with_reducible apply atClock_logEvent
    | with_reducible apply Device.atClock_ite
    | intro _
    | split
    | dsimp only

theorem atClock_handback (d : ℕ) (res : Sys2Proof.PairCal) {s : Device} (hs : s.AtClock fr ck) :
    (handback d res s).AtClock fr ck := by
  unfold handback
  repeat' first
    | with_reducible assumption
    | with_reducible apply atClock_applyDrift
    | with_reducible apply atClock_benchMismatch
    | with_reducible apply atClock_dsetBit
    | with_reducible apply atClock_lastOfs
    | with_reducible apply atClock_showDrift
    | with_reducible apply Device.atClock_dset
    | with_reducible apply Device.atClock_modConv
    | with_reducible apply Device.atClock_modBench
    | with_reducible apply atClock_endVisit
    | with_reducible apply atClock_releaseCarrier
    | with_reducible apply Device.atClock_ite
    | intro _
    | split
    | dsimp only

theorem atClock_benchHold (q : ℤ) (d : ℕ) {s : Device} (hs : s.AtClock fr ck) :
    (benchHold q d s).AtClock fr ck := by
  unfold benchHold
  repeat' first
    | with_reducible assumption
    | with_reducible apply Device.atClock_modBench
    | with_reducible apply Device.atClock_ite
    | intro _
    | split
    | dsimp only

theorem atClock_benchAbort (d : ℕ) {s : Device} (hs : s.AtClock fr ck) :
    (benchAbort d s).AtClock fr ck := by
  unfold benchAbort
  repeat' first
    | with_reducible assumption
    | with_reducible apply Device.atClock_dset
    | with_reducible apply atClock_setPhase
    | with_reducible apply Device.atClock_modBench
    | with_reducible apply Device.atClock_ite
    | intro _
    | split
    | dsimp only

theorem atClock_benchBatonExpiry (d : ℕ) {s : Device} (hs : s.AtClock fr ck) :
    (benchBatonExpiry d s).AtClock fr ck := by
  unfold benchBatonExpiry
  repeat' first
    | with_reducible assumption
    | with_reducible apply atClock_logEvent
    | with_reducible apply atClock_benchBaton
    | with_reducible apply atClock_benchAbort
    | with_reducible apply Device.atClock_pset
    | with_reducible apply Device.atClock_ite
    | intro _
    | split
    | dsimp only

theorem atClock_benchForce (d : ℕ) (c : ℕ) {s : Device} (hs : s.AtClock fr ck) :
    (benchForce d c s).AtClock fr ck := by
  unfold benchForce
  repeat' first
    | with_reducible assumption
    | with_reducible apply atClock_benchAbort
    | with_reducible apply Device.atClock_modBench
    | intro _
    | split
    | dsimp only

theorem atClock_benchConnect (d : ℕ) {s : Device} (hs : s.AtClock fr ck) :
    (benchConnect d s).AtClock fr ck := by
  unfold benchConnect
  repeat' first
    | with_reducible assumption
    | with_reducible apply atClock_setPhase
    | with_reducible apply Device.atClock_ite
    | intro _
    | split
    | dsimp only

theorem atClock_seedingEnd (d : ℕ) (seeds : List Sys2Proof.PairCal) {s : Device} (hs : s.AtClock fr ck) :
    (seedingEnd d seeds s).AtClock fr ck := by
  unfold seedingEnd
  repeat' first
    | with_reducible assumption
    | with_reducible apply Device.atClock_modDie
    | with_reducible apply Device.atClock_modDue
    | with_reducible apply Device.atClock_ite
    | with_reducible apply Device.atClock_each
    | intro _
    | split
    | dsimp only

theorem atClock_benchRange (g : ℕ) {s : Device} (hs : s.AtClock fr ck) :
    (benchRange g s).AtClock fr ck := by
  unfold benchRange
  repeat' first
    | with_reducible assumption
    | with_reducible apply Device.atClock_modBench
    | with_reducible apply Device.atClock_modConv
    | with_reducible apply Device.atClock_ite
    | intro _
    | split
    | dsimp only

/-! StepBase. -/

theorem atClock_bandFresh (g : ℕ) {s : Device} (hs : s.AtClock fr ck) :
    (bandFresh g s).AtClock fr ck := by
  unfold bandFresh
  repeat' first
    | with_reducible assumption
    | with_reducible apply Device.atClock_modEng
    | with_reducible apply Device.atClock_cset
    | with_reducible apply Device.atClock_ite
    | intro _
    | split
    | dsimp only

theorem atClock_traceWrite (typ : ℕ) (g : ℕ) (body : List Sys2Proof.Byte) {s : Device} (hs : s.AtClock fr ck) :
    (traceWrite typ g body s).AtClock fr ck := by
  unfold traceWrite
  repeat' first
    | with_reducible assumption
    | with_reducible apply Device.atClock_modDie
    | with_reducible apply Device.atClock_dset
    | with_reducible apply Device.atClock_dinc
    | with_reducible apply Device.atClock_ite
    | intro _
    | split
    | dsimp only

theorem atClock_setEng (e : ℕ) (g : ℕ) {s : Device} (hs : s.AtClock fr ck) :
    (setEng e g s).AtClock fr ck := by
  unfold setEng
  repeat' first
    | with_reducible assumption
    | with_reducible apply Device.atClock_cset
    | intro _
    | split
    | dsimp only

theorem atClock_bandBoundary (g : ℕ) {s : Device} (hs : s.AtClock fr ck) :
    (bandBoundary g s).AtClock fr ck := by
  unfold bandBoundary
  repeat' first
    | with_reducible assumption
    | with_reducible apply Device.atClock_cset
    | with_reducible apply Device.atClock_nextFree
    | with_reducible apply Device.atClock_modEng
    | with_reducible apply atClock_bandFresh
    | with_reducible apply Device.atClock_ite
    | intro _
    | split
    | dsimp only

theorem atClock_ckptRequest (cause : ℕ) {s : Device} (hs : s.AtClock fr ck) :
    (ckptRequest cause s).AtClock fr ck := by
  unfold ckptRequest
  repeat' first
    | with_reducible assumption
    | with_reducible apply Device.atClock_modNvm
    | with_reducible apply Device.atClock_pset
    | with_reducible apply Device.atClock_ite
    | intro _
    | split
    | dsimp only

theorem atClock_traceEvent (ev : ℕ) (cause : ℕ) (data : ℕ) (g : ℕ) {s : Device} (hs : s.AtClock fr ck) :
    (traceEvent ev cause data g s).AtClock fr ck := by
  unfold traceEvent
  repeat' first
    | with_reducible assumption
    | with_reducible apply atClock_traceWrite
    | intro _
    | split
    | dsimp only

/-! AcirEngine. -/

theorem atClock_dropHeld (g : ℕ) {s : Device} (hs : s.AtClock fr ck) :
    (dropHeld g s).AtClock fr ck := by
  unfold dropHeld
  repeat' first
    | with_reducible assumption
    | with_reducible apply Device.atClock_cset
    | with_reducible apply Device.atClock_modAcir
    | intro _
    | split
    | dsimp only

theorem atClock_acirBook (g : ℕ) (a : Acir) (kq : Const) (kv : Const) {s : Device} (hs : s.AtClock fr ck) :
    (acirBook g a kq kv s).AtClock fr ck := by
  unfold acirBook
  repeat' first
    | with_reducible assumption
    | with_reducible apply Device.atClock_modAcir
    | with_reducible apply Device.atClock_ite
    | intro _
    | split
    | dsimp only

theorem atClock_acirClrWrite (g : ℕ) (data : Sys2Proof.Word) {s : Device} (hs : s.AtClock fr ck) :
    (acirClrWrite g data s).AtClock fr ck := by
  unfold acirClrWrite
  repeat' first
    | with_reducible assumption
    | with_reducible apply Device.atClock_modDue
    | with_reducible apply Device.atClock_ite
    | intro _
    | split
    | dsimp only

theorem atClock_acirIdle (g : ℕ) {s : Device} (hs : s.AtClock fr ck) :
    (acirIdle g s).AtClock fr ck := by
  unfold acirIdle
  repeat' first
    | with_reducible assumption
    | with_reducible apply Device.atClock_cset
    | with_reducible apply Device.atClock_modAcir
    | intro _
    | split
    | dsimp only

theorem atClock_acirRecord (code : ℕ) (g : ℕ) {s : Device} (hs : s.AtClock fr ck) :
    (acirRecord code g s).AtClock fr ck := by
  unfold acirRecord
  repeat' first
    | with_reducible assumption
    | with_reducible apply atClock_traceWrite
    | intro _
    | split
    | dsimp only

theorem atClock_acirStepFails (code : ℕ) (g : ℕ) {s : Device} (hs : s.AtClock fr ck) :
    (acirStepFails code g s).AtClock fr ck := by
  unfold acirStepFails
  repeat' first
    | with_reducible assumption
    | with_reducible apply Device.atClock_modEng
    | with_reducible apply atClock_acirRecord
    | intro _
    | split
    | dsimp only

theorem atClock_acirStepAborted (code : ℕ) (g : ℕ) {s : Device} (hs : s.AtClock fr ck) :
    (acirStepAborted code g s).AtClock fr ck := by
  unfold acirStepAborted
  repeat' first
    | with_reducible assumption
    | with_reducible apply Device.atClock_modEng
    | with_reducible apply atClock_acirStepFails
    | with_reducible apply Device.atClock_ite
    | intro _
    | split
    | dsimp only

theorem atClock_acirAbort (code : ℕ) (g : ℕ) {s : Device} (hs : s.AtClock fr ck) :
    (acirAbort code g s).AtClock fr ck := by
  unfold acirAbort
  repeat' first
    | with_reducible assumption
    | with_reducible apply Device.atClock_cset
    | with_reducible apply Device.atClock_modAcir
    | with_reducible apply atClock_acirIdle
    | with_reducible apply atClock_acirStepAborted
    | with_reducible apply Device.atClock_ite
    | intro _
    | split
    | dsimp only

theorem atClock_acirStepEnd (g : ℕ) {s : Device} (hs : s.AtClock fr ck) :
    (acirStepEnd g s).AtClock fr ck := by
  unfold acirStepEnd
  repeat' first
    | with_reducible assumption
    | with_reducible apply atClock_acirAbort
    | with_reducible apply Device.atClock_modAcir
    | with_reducible apply Device.atClock_cset
    | with_reducible apply Device.atClock_ite
    | intro _
    | split
    | dsimp only

theorem atClock_acirBegin (p : AcirPar) (pt : ℕ) (g : ℕ) {s : Device} (hs : s.AtClock fr ck) :
    (acirBegin p pt g s).AtClock fr ck := by
  unfold acirBegin
  repeat' first
    | with_reducible assumption
    | with_reducible apply Device.atClock_cset
    | with_reducible apply Device.atClock_modAcir
    | intro _
    | split
    | dsimp only

theorem atClock_acirMove (pt : ℕ) (g : ℕ) {s : Device} (hs : s.AtClock fr ck) :
    (acirMove pt g s).AtClock fr ck := by
  unfold acirMove
  repeat' first
    | with_reducible assumption
    | with_reducible apply Device.atClock_modAcir
    | intro _
    | split
    | dsimp only

theorem atClock_acirRefuse (code : ℕ) (p : AcirPar) (g : ℕ) {s : Device} (hs : s.AtClock fr ck) :
    (acirRefuse code p g s).AtClock fr ck := by
  unfold acirRefuse
  repeat' first
    | with_reducible assumption
    | with_reducible apply Device.atClock_cset
    | with_reducible apply atClock_acirStepFails
    | with_reducible apply Device.atClock_ite
    | intro _
    | split
    | dsimp only

theorem atClock_acirLeadin (g : ℕ) {s : Device} (hs : s.AtClock fr ck) :
    (acirLeadin g s).AtClock fr ck := by
  unfold acirLeadin
  repeat' first
    | with_reducible assumption
    | with_reducible apply atClock_acirBegin
    | with_reducible apply atClock_dropHeld
    | with_reducible apply atClock_acirMove
    | with_reducible apply atClock_acirRefuse
    | with_reducible apply atClock_acirIdle
    | with_reducible apply Device.atClock_ite
    | intro _
    | split
    | dsimp only

theorem atClock_acirRequest (p : AcirPar) (g : ℕ) {s : Device} (hs : s.AtClock fr ck) :
    (acirRequest p g s).AtClock fr ck := by
  unfold acirRequest
  repeat' first
    | with_reducible assumption
    | with_reducible apply atClock_acirRefuse
    | with_reducible apply Device.atClock_cset
    | with_reducible apply Device.atClock_modAcir
    | with_reducible apply atClock_benchAbort
    | with_reducible apply Device.atClock_ite
    | intro _
    | split
    | dsimp only

theorem atClock_acirCtlWrite (g : ℕ) (data : Sys2Proof.Word) {s : Device} (hs : s.AtClock fr ck) :
    (acirCtlWrite g data s).AtClock fr ck := by
  unfold acirCtlWrite
  repeat' first
    | with_reducible assumption
    | with_reducible apply atClock_acirRequest
    | with_reducible apply atClock_acirAbort
    | with_reducible apply Device.atClock_setReg
    | with_reducible apply Device.atClock_ite
    | intro _
    | split
    | dsimp only

theorem atClock_acirClip (g : ℕ) {s : Device} (hs : s.AtClock fr ck) :
    (acirClip g s).AtClock fr ck := by
  unfold acirClip
  repeat' first
    | with_reducible assumption
    | with_reducible apply Device.atClock_modAcir
    | with_reducible apply Device.atClock_ite
    | intro _
    | split
    | dsimp only

theorem atClock_acirStopped (g : ℕ) {s : Device} (hs : s.AtClock fr ck) :
    (acirStopped g s).AtClock fr ck := by
  unfold acirStopped
  repeat' first
    | with_reducible assumption
    | with_reducible apply atClock_acirAbort
    | with_reducible apply atClock_acirIdle
    | with_reducible apply Device.atClock_ite
    | intro _
    | split
    | dsimp only

theorem atClock_acirPublish (g : ℕ) {s : Device} (hs : s.AtClock fr ck) :
    (acirPublish g s).AtClock fr ck := by
  unfold acirPublish
  repeat' first
    | with_reducible assumption
    | with_reducible apply Device.atClock_setReg
    | with_reducible apply Device.atClock_each
    | intro _
    | split
    | dsimp only

theorem atClock_acirStat (g : ℕ) (a : Acir) (low : Bool) {s : Device} (hs : s.AtClock fr ck) :
    (acirStat g a low s).AtClock fr ck := by
  unfold acirStat
  repeat' first
    | with_reducible assumption
    | with_reducible apply Device.atClock_cset
    | with_reducible apply Device.atClock_ite
    | intro _
    | split
    | dsimp only

theorem atClock_acirPhaseOut (g : ℕ) (p : AcirProd) {s : Device} (hs : s.AtClock fr ck) :
    (acirPhaseOut g p s).AtClock fr ck := by
  unfold acirPhaseOut
  repeat' first
    | with_reducible assumption
    | with_reducible apply Device.atClock_cset
    | intro _
    | split
    | dsimp only

theorem atClock_acirFinish (g : ℕ) {s : Device} (hs : s.AtClock fr ck) :
    (acirFinish g s).AtClock fr ck := by
  unfold acirFinish
  repeat' first
    | with_reducible assumption
    | with_reducible apply Device.atClock_modAcir
    | with_reducible apply atClock_acirPublish
    | with_reducible apply atClock_acirBook
    | with_reducible apply atClock_acirStat
    | with_reducible apply atClock_acirPhaseOut
    | with_reducible apply Device.atClock_spend
    | with_reducible apply Device.atClock_setReg
    | with_reducible apply Device.atClock_foldl
    | intro _
    | split
    | dsimp only

theorem atClock_acirRequestAtClose (g : ℕ) {s : Device} (hs : s.AtClock fr ck) :
    (acirRequestAtClose g s).AtClock fr ck := by
  unfold acirRequestAtClose
  repeat' first
    | with_reducible assumption
    | with_reducible apply atClock_acirRequest
    | with_reducible apply Device.atClock_ite
    | intro _
    | split
    | dsimp only

theorem atClock_acirStepClose (g : ℕ) {s : Device} (hs : s.AtClock fr ck) :
    (acirStepClose g s).AtClock fr ck := by
  unfold acirStepClose
  repeat' first
    | with_reducible assumption
    | with_reducible apply Device.atClock_modEng
    | with_reducible apply atClock_acirRecord
    | with_reducible apply Device.atClock_ite
    | intro _
    | split
    | dsimp only

theorem atClock_acirLeadOut (g : ℕ) {s : Device} (hs : s.AtClock fr ck) :
    (acirLeadOut g s).AtClock fr ck := by
  unfold acirLeadOut
  repeat' first
    | with_reducible assumption
    | with_reducible apply Device.atClock_cset
    | with_reducible apply Device.atClock_modAcir
    | intro _
    | split
    | dsimp only

theorem atClock_acirClose (g : ℕ) {s : Device} (hs : s.AtClock fr ck) :
    (acirClose g s).AtClock fr ck := by
  unfold acirClose
  repeat' first
    | with_reducible assumption
    | with_reducible apply atClock_acirFinish
    | with_reducible apply atClock_acirRequestAtClose
    | with_reducible apply atClock_acirStepClose
    | with_reducible apply atClock_acirLeadOut
    | with_reducible apply Device.atClock_modAcir
    | with_reducible apply atClock_acirBegin
    | with_reducible apply atClock_dropHeld
    | with_reducible apply atClock_acirMove
    | with_reducible apply Device.atClock_ite
    | intro _
    | split
    | dsimp only

theorem atClock_acirNextDue (g : ℕ) {s : Device} (hs : s.AtClock fr ck) :
    (acirNextDue g s).AtClock fr ck := by
  unfold acirNextDue
  repeat' first
    | with_reducible assumption
    | with_reducible apply Device.atClock_modEng
    | with_reducible apply atClock_acirRequest
    | with_reducible apply Device.atClock_ite
    | intro _
    | split
    | dsimp only

theorem atClock_acirEnvelopeZero (g : ℕ) {s : Device} (hs : s.AtClock fr ck) :
    (acirEnvelopeZero g s).AtClock fr ck := by
  unfold acirEnvelopeZero
  repeat' first
    | with_reducible assumption
    | with_reducible apply atClock_acirIdle
    | with_reducible apply atClock_dropHeld
    | with_reducible apply Device.atClock_modAcir
    | with_reducible apply Device.atClock_ite
    | intro _
    | split
    | dsimp only

theorem atClock_acirBoundary (g : ℕ) {s : Device} (hs : s.AtClock fr ck) :
    (acirBoundary g s).AtClock fr ck := by
  unfold acirBoundary
  repeat' first
    | with_reducible assumption
    | with_reducible apply atClock_acirPublish
    | with_reducible apply Device.atClock_modDue
    | with_reducible apply Device.atClock_modAcir
    | with_reducible apply Device.atClock_ite
    | intro _
    | split
    | dsimp only

theorem atClock_acirSample (g : ℕ) {s : Device} (hs : s.AtClock fr ck) :
    (acirSample g s).AtClock fr ck := by
  unfold acirSample
  repeat' first
    | with_reducible assumption
    | with_reducible apply Device.atClock_modAcir
    | with_reducible apply Device.atClock_ite
    | intro _
    | split
    | dsimp only

theorem atClock_acirClock (g : ℕ) {s : Device} (hs : s.AtClock fr ck) :
    (acirClock g s).AtClock fr ck := by
  unfold acirClock
  repeat' first
    | with_reducible assumption
    | with_reducible apply Device.atClock_modAcir
    | with_reducible apply Device.atClock_ite
    | intro _
    | split
    | dsimp only

theorem atClock_acirOpen (g : ℕ) {s : Device} (hs : s.AtClock fr ck) :
    (acirOpen g s).AtClock fr ck := by
  unfold acirOpen
  repeat' first
    | with_reducible assumption
    | with_reducible apply atClock_acirClock
    | with_reducible apply Device.atClock_cset
    | with_reducible apply Device.atClock_modAcir
    | with_reducible apply Device.atClock_ite
    | intro _
    | split
    | dsimp only

/-! Power. -/

theorem atClock_engRange (low : Bool) (g : ℕ) {s : Device} (hs : s.AtClock fr ck) :
    (engRange low g s).AtClock fr ck := by
  unfold engRange
  repeat' first
    | with_reducible assumption
    | with_reducible apply Device.atClock_modLp
    | with_reducible apply atClock_writeRange
    | with_reducible apply Device.atClock_ite
    | intro _
    | split
    | dsimp only

theorem atClock_contactBlank (g : ℕ) {s : Device} (hs : s.AtClock fr ck) :
    (contactBlank g s).AtClock fr ck := by
  unfold contactBlank
  repeat' first
    | with_reducible assumption
    | with_reducible apply Device.atClock_modLp
    | intro _
    | split
    | dsimp only

theorem atClock_setMode (m : ℕ) (g : ℕ) {s : Device} (hs : s.AtClock fr ck) :
    (setMode m g s).AtClock fr ck := by
  unfold setMode
  repeat' first
    | with_reducible assumption
    | with_reducible apply Device.atClock_modLp
    | with_reducible apply atClock_acirAbort
    | with_reducible apply Device.atClock_cset
    | with_reducible apply Device.atClock_ite
    | intro _
    | split
    | dsimp only

theorem atClock_engMode (m : ℕ) (g : ℕ) {s : Device} (hs : s.AtClock fr ck) :
    (engMode m g s).AtClock fr ck := by
  unfold engMode
  repeat' first
    | with_reducible assumption
    | with_reducible apply Device.atClock_modLp
    | with_reducible apply atClock_setMode
    | with_reducible apply Device.atClock_ite
    | intro _
    | split
    | dsimp only

theorem atClock_channelStart (g : ℕ) {s : Device} (hs : s.AtClock fr ck) :
    (channelStart g s).AtClock fr ck := by
  unfold channelStart
  repeat' first
    | with_reducible assumption
    | with_reducible apply Device.atClock_cforce
    | with_reducible apply Device.atClock_modLp
    | with_reducible apply Device.atClock_nextFree
    | with_reducible apply Device.atClock_cset
    | with_reducible apply Device.atClock_ite
    | intro _
    | split
    | dsimp only

theorem atClock_followMode (g : ℕ) {s : Device} (hs : s.AtClock fr ck) :
    (followMode g s).AtClock fr ck := by
  unfold followMode
  repeat' first
    | with_reducible assumption
    | with_reducible apply atClock_channelStart
    | with_reducible apply Device.atClock_modLp
    | with_reducible apply Device.atClock_ite
    | intro _
    | split
    | dsimp only

theorem atClock_engSetpoints (i : ℤ) (v : ℕ) (p : ℤ) (g : ℕ) {s : Device} (hs : s.AtClock fr ck) :
    (engSetpoints i v p g s).AtClock fr ck := by
  unfold engSetpoints
  repeat' first
    | with_reducible assumption
    | with_reducible apply Device.atClock_modLp
    | with_reducible apply Device.atClock_setReg
    | with_reducible apply Device.atClock_ite
    | intro _
    | split
    | dsimp only

theorem atClock_overrideChange (g : ℕ) (data : Sys2Proof.Word) {s : Device} (hs : s.AtClock fr ck) :
    (overrideChange g data s).AtClock fr ck := by
  unfold overrideChange
  repeat' first
    | with_reducible assumption
    | with_reducible apply Device.atClock_cset
    | with_reducible apply Device.atClock_modEng
    | with_reducible apply atClock_acirAbort
    | with_reducible apply atClock_followMode
    | with_reducible apply atClock_setMode
    | with_reducible apply atClock_engSetpoints
    | with_reducible apply atClock_writeRange
    | with_reducible apply Device.atClock_ite
    | intro _
    | split
    | dsimp only

theorem atClock_clampEngage (upper : Bool) (g : ℕ) {s : Device} (hs : s.AtClock fr ck) :
    (clampEngage upper g s).AtClock fr ck := by
  unfold clampEngage
  repeat' first
    | with_reducible assumption
    | with_reducible apply Device.atClock_cset
    | with_reducible apply Device.atClock_modLp
    | with_reducible apply Device.atClock_ite
    | intro _
    | split
    | dsimp only

theorem atClock_faultClear (g : ℕ) (data : Sys2Proof.Word) {s : Device} (hs : s.AtClock fr ck) :
    (faultClear g data s).AtClock fr ck := by
  unfold faultClear
  repeat' first
    | with_reducible assumption
    | with_reducible apply atClock_clearChFault
    | with_reducible apply Device.atClock_ite
    | intro _
    | split
    | dsimp only

theorem atClock_gatesOff (g : ℕ) {s : Device} (hs : s.AtClock fr ck) :
    (gatesOff g s).AtClock fr ck := by
  unfold gatesOff
  repeat' first
    | with_reducible assumption
    | with_reducible apply Device.atClock_modLp
    | with_reducible apply atClock_idleFlags
    | with_reducible apply Device.atClock_ite
    | intro _
    | split
    | dsimp only

theorem atClock_stopChannel (g : ℕ) {s : Device} (hs : s.AtClock fr ck) :
    (stopChannel g s).AtClock fr ck := by
  unfold stopChannel
  repeat' first
    | with_reducible assumption
    | with_reducible apply Device.atClock_modLp
    | with_reducible apply atClock_gatesOff
    | with_reducible apply atClock_acirStopped
    | with_reducible apply Device.atClock_ite
    | intro _
    | split
    | dsimp only

theorem atClock_protTrip (bit : ℕ) (g : ℕ) {s : Device} (hs : s.AtClock fr ck) :
    (protTrip bit g s).AtClock fr ck := by
  unfold protTrip
  repeat' first
    | with_reducible assumption
    | with_reducible apply atClock_stopChannel
    | with_reducible apply atClock_setChFault
    | with_reducible apply Device.atClock_ite
    | intro _
    | split
    | dsimp only

theorem atClock_setpointWrite (g : ℕ) (r : Sys2Proof.SetReg) (data : Sys2Proof.Word) {s : Device} (hs : s.AtClock fr ck) :
    (setpointWrite g r data s).AtClock fr ck := by
  unfold setpointWrite
  repeat' first
    | with_reducible assumption
    | with_reducible apply Device.atClock_setReg
    | with_reducible apply Device.atClock_ite
    | intro _
    | split
    | dsimp only

theorem atClock_uprange (g : ℕ) {s : Device} (hs : s.AtClock fr ck) :
    (uprange g s).AtClock fr ck := by
  unfold uprange
  repeat' first
    | with_reducible assumption
    | with_reducible apply Device.atClock_cset
    | with_reducible apply Device.atClock_modDue
    | with_reducible apply Device.atClock_ite
    | intro _
    | split
    | dsimp only

theorem atClock_pwmWrite (g : ℕ) (dt : Bool) (data : Sys2Proof.Word) {s : Device} (hs : s.AtClock fr ck) :
    (pwmWrite g dt data s).AtClock fr ck := by
  unfold pwmWrite
  repeat' first
    | with_reducible assumption
    | with_reducible apply Device.atClock_cforce
    | with_reducible apply Device.atClock_setReg
    | with_reducible apply Device.atClock_ite
    | intro _
    | split
    | dsimp only

theorem atClock_overload (volt : Bool) (g : ℕ) {s : Device} (hs : s.AtClock fr ck) :
    (overload volt g s).AtClock fr ck := by
  unfold overload
  repeat' first
    | with_reducible assumption
    | with_reducible apply atClock_acirClip
    | with_reducible apply atClock_setOverload
    | with_reducible apply Device.atClock_ite
    | intro _
    | split
    | dsimp only

theorem atClock_rangeSelWrite (g : ℕ) (low : Bool) {s : Device} (hs : s.AtClock fr ck) :
    (rangeSelWrite g low s).AtClock fr ck := by
  unfold rangeSelWrite
  repeat' first
    | with_reducible assumption
    | with_reducible apply atClock_writeRange
    | with_reducible apply Device.atClock_ite
    | intro _
    | split
    | dsimp only

end Sys2Proof.Machine
end

