-- ==== Sys2Proof/Laws/AtClockEngines.lean ====
section
/-! SUPPORT. Operations of these files that leave the package clock where it is (R5). One lemma for each operation, in the order of the files. -/

set_option linter.unusedTactic false
set_option linter.unreachableTactic false
set_option linter.unusedVariables false

namespace Sys2Proof.Machine

variable {fr ck : Nat}

/-! StepEng. -/

theorem atClock_putTime (g : ℕ) {s : Device} (hs : s.AtClock fr ck) :
    (putTime g s).AtClock fr ck := by
  unfold putTime
  repeat' first
    | with_reducible assumption
    | with_reducible apply Device.atClock_setReg
    | intro _
    | split
    | dsimp only

theorem atClock_engFrame (g : ℕ) {s : Device} (hs : s.AtClock fr ck) :
    (engFrame g s).AtClock fr ck := by
  unfold engFrame
  repeat' first
    | with_reducible assumption
    | with_reducible apply Device.atClock_modEng
    | with_reducible apply atClock_putTime
    | with_reducible apply Device.atClock_ite
    | intro _
    | split
    | dsimp only

theorem atClock_writeSetpoints (g : ℕ) {s : Device} (hs : s.AtClock fr ck) :
    (writeSetpoints g s).AtClock fr ck := by
  unfold writeSetpoints
  repeat' first
    | with_reducible assumption
    | with_reducible apply atClock_engSetpoints
    | intro _
    | split
    | dsimp only

theorem atClock_stepBegin (fresh : Bool) (g : ℕ) {s : Device} (hs : s.AtClock fr ck) :
    (stepBegin fresh g s).AtClock fr ck := by
  unfold stepBegin
  repeat' first
    | with_reducible assumption
    | with_reducible apply atClock_acirRequest
    | with_reducible apply atClock_writeSetpoints
    | with_reducible apply Device.atClock_modEng
    | with_reducible apply Device.atClock_ite
    | intro _
    | split
    | dsimp only

theorem atClock_commandEvents (q : ℕ) (e0 : ℕ) (g : ℕ) {s : Device} (hs : s.AtClock fr ck) :
    (commandEvents q e0 g s).AtClock fr ck := by
  unfold commandEvents
  repeat' first
    | with_reducible assumption
    | with_reducible apply atClock_traceEvent
    | with_reducible apply Device.atClock_ite
    | intro _
    | split
    | dsimp only

theorem atClock_setMap (lo : Fld Blk.pkg) (hi : Fld Blk.pkg) (g : ℕ) (on : Bool) {s : Device} (hs : s.AtClock fr ck) :
    (setMap lo hi g on s).AtClock fr ck := by
  unfold setMap
  repeat' first
    | with_reducible assumption
    | with_reducible apply Device.atClock_psetBit
    | with_reducible apply Device.atClock_ite
    | intro _
    | split
    | dsimp only

theorem atClock_clearMaps (g : ℕ) {s : Device} (hs : s.AtClock fr ck) :
    (clearMaps g s).AtClock fr ck := by
  unfold clearMaps
  repeat' first
    | with_reducible assumption
    | with_reducible apply atClock_setMap
    | intro _
    | split
    | dsimp only

theorem atClock_leaseRelease (g : ℕ) {s : Device} (hs : s.AtClock fr ck) :
    (leaseRelease g s).AtClock fr ck := by
  unfold leaseRelease
  repeat' first
    | with_reducible assumption
    | with_reducible apply Device.atClock_modLease
    | with_reducible apply Device.atClock_cset
    | with_reducible apply atClock_clearMaps
    | intro _
    | split
    | dsimp only

theorem atClock_recipeEnd (pass : Bool) (cause : ℕ) (g : ℕ) {s : Device} (hs : s.AtClock fr ck) :
    (recipeEnd pass cause g s).AtClock fr ck := by
  unfold recipeEnd
  repeat' first
    | with_reducible assumption
    | with_reducible apply atClock_traceEvent
    | with_reducible apply Device.atClock_cset
    | with_reducible apply atClock_leaseRelease
    | with_reducible apply atClock_engMode
    | with_reducible apply atClock_setEng
    | with_reducible apply Device.atClock_modEng
    | with_reducible apply Device.atClock_ite
    | intro _
    | split
    | dsimp only

theorem atClock_dropHold (g : ℕ) {s : Device} (hs : s.AtClock fr ck) :
    (dropHold g s).AtClock fr ck := by
  unfold dropHold
  repeat' first
    | with_reducible assumption
    | with_reducible apply Device.atClock_cset
    | with_reducible apply atClock_setMap
    | intro _
    | split
    | dsimp only

theorem atClock_stepEndRecord (code : ℕ) (slot : ℕ) (g : ℕ) {s : Device} (hs : s.AtClock fr ck) :
    (stepEndRecord code slot g s).AtClock fr ck := by
  unfold stepEndRecord
  repeat' first
    | with_reducible assumption
    | with_reducible apply atClock_traceWrite
    | with_reducible apply Device.atClock_ite
    | intro _
    | split
    | dsimp only

theorem atClock_endCkpt (g : ℕ) {s : Device} (hs : s.AtClock fr ck) :
    (endCkpt g s).AtClock fr ck := by
  unfold endCkpt
  repeat' first
    | with_reducible assumption
    | with_reducible apply atClock_ckptRequest
    | with_reducible apply Device.atClock_ite
    | intro _
    | split
    | dsimp only

theorem atClock_markEnd (code : ℕ) (slot : ℕ) (g : ℕ) {s : Device} (hs : s.AtClock fr ck) :
    (markEnd code slot g s).AtClock fr ck := by
  unfold markEnd
  repeat' first
    | with_reducible assumption
    | with_reducible apply atClock_stepEndRecord
    | with_reducible apply atClock_endCkpt
    | with_reducible apply Device.atClock_cset
    | intro _
    | split
    | dsimp only

theorem atClock_endStep (code : ℕ) (slot : ℕ) (g : ℕ) {s : Device} (hs : s.AtClock fr ck) :
    (endStep code slot g s).AtClock fr ck := by
  unfold endStep
  repeat' first
    | with_reducible assumption
    | with_reducible apply atClock_acirStepEnd
    | with_reducible apply atClock_markEnd
    | with_reducible apply Device.atClock_modEng
    | intro _
    | split
    | dsimp only

theorem atClock_bandApply (g : ℕ) {s : Device} (hs : s.AtClock fr ck) :
    (bandApply g s).AtClock fr ck := by
  unfold bandApply
  repeat' first
    | with_reducible assumption
    | with_reducible apply atClock_bandFresh
    | with_reducible apply Device.atClock_ite
    | intro _
    | split
    | dsimp only

theorem atClock_clearCounts (g : ℕ) {s : Device} (hs : s.AtClock fr ck) :
    (clearCounts g s).AtClock fr ck := by
  unfold clearCounts
  repeat' first
    | with_reducible assumption
    | with_reducible apply Device.atClock_modEng
    | intro _
    | split
    | dsimp only

theorem atClock_suspendStep (cause : ℕ) (g : ℕ) {s : Device} (hs : s.AtClock fr ck) :
    (suspendStep cause g s).AtClock fr ck := by
  unfold suspendStep
  repeat' first
    | with_reducible assumption
    | with_reducible apply atClock_engMode
    | with_reducible apply atClock_acirAbort
    | with_reducible apply atClock_traceEvent
    | with_reducible apply atClock_setEng
    | with_reducible apply Device.atClock_cset
    | with_reducible apply atClock_clearCounts
    | with_reducible apply Device.atClock_modEng
    | with_reducible apply atClock_leaseRelease
    | intro _
    | split
    | dsimp only

theorem atClock_runStep (whole : Bool) (g : ℕ) {s : Device} (hs : s.AtClock fr ck) :
    (runStep whole g s).AtClock fr ck := by
  unfold runStep
  repeat' first
    | with_reducible assumption
    | with_reducible apply atClock_suspendStep
    | with_reducible apply atClock_traceEvent
    | with_reducible apply atClock_setEng
    | with_reducible apply Device.atClock_cset
    | with_reducible apply Device.atClock_modEng
    | with_reducible apply Device.atClock_modLp
    | with_reducible apply atClock_contactBlank
    | with_reducible apply atClock_clearCounts
    | with_reducible apply atClock_engMode
    | with_reducible apply atClock_followMode
    | with_reducible apply atClock_stepBegin
    | with_reducible apply Device.atClock_ite
    | intro _
    | split
    | dsimp only

theorem atClock_leaseWait (paused : Bool) (g : ℕ) {s : Device} (hs : s.AtClock fr ck) :
    (leaseWait paused g s).AtClock fr ck := by
  unfold leaseWait
  repeat' first
    | with_reducible assumption
    | with_reducible apply Device.atClock_modLease
    | with_reducible apply Device.atClock_cset
    | with_reducible apply atClock_clearMaps
    | with_reducible apply Device.atClock_ite
    | intro _
    | split
    | dsimp only

theorem atClock_requestRun (paused : Bool) (ev : ℕ) (g : ℕ) {s : Device} (hs : s.AtClock fr ck) :
    (requestRun paused ev g s).AtClock fr ck := by
  unfold requestRun
  repeat' first
    | with_reducible assumption
    | with_reducible apply Device.atClock_modEng
    | with_reducible apply atClock_leaseWait
    | with_reducible apply atClock_engMode
    | with_reducible apply atClock_setEng
    | with_reducible apply atClock_runStep
    | with_reducible apply atClock_leaseRelease
    | with_reducible apply Device.atClock_ite
    | intro _
    | split
    | dsimp only

theorem atClock_startRequest (i : ℕ) (r : StepRec) (g : ℕ) {s : Device} (hs : s.AtClock fr ck) :
    (startRequest i r g s).AtClock fr ck := by
  unfold startRequest
  repeat' first
    | with_reducible assumption
    | with_reducible apply Device.atClock_cset
    | with_reducible apply atClock_setEng
    | with_reducible apply Device.atClock_modEng
    | with_reducible apply atClock_writeSetpoints
    | with_reducible apply atClock_engRange
    | with_reducible apply atClock_bandApply
    | with_reducible apply atClock_putTime
    | with_reducible apply atClock_runStep
    | with_reducible apply atClock_requestRun
    | with_reducible apply Device.atClock_ite
    | intro _
    | split
    | dsimp only

theorem atClock_takeAction (action : ℕ) (code : ℕ) (g : ℕ) {s : Device} (hs : s.AtClock fr ck) :
    (takeAction action code g s).1.AtClock fr ck := by
  unfold takeAction
  repeat' first
    | with_reducible assumption
    | with_reducible apply atClock_recipeEnd
    | intro _
    | split
    | dsimp only

theorem atClock_controlFail (code : ℕ) (g : ℕ) {s : Device} (hs : s.AtClock fr ck) :
    (controlFail code g s).AtClock fr ck := by
  unfold controlFail
  repeat' first
    | with_reducible assumption
    | with_reducible apply atClock_recipeEnd
    | with_reducible apply Device.atClock_cset
    | intro _
    | split
    | dsimp only

theorem atClock_goTo (k l i g : ℕ) {s : Device} (h : s.AtClock fr ck) : (goTo k l i g s).AtClock fr ck := by
  induction k generalizing l i s with
  | zero => exact h
  | succ n ih =>
    rw [goTo]
    repeat' first
      | with_reducible assumption
      | with_reducible apply ih
      | with_reducible apply atClock_controlFail
      | with_reducible apply atClock_recipeEnd
      | with_reducible apply atClock_takeAction
      | with_reducible apply atClock_endStep
      | with_reducible apply atClock_startRequest
      | with_reducible apply Device.atClock_cset
      | with_reducible apply Device.atClock_modEng
      | with_reducible apply Device.atClock_ite
      | intro _
      | split
      | dsimp only

theorem atClock_goStep (i : ℕ) (g : ℕ) {s : Device} (hs : s.AtClock fr ck) :
    (goStep i g s).AtClock fr ck := by
  unfold goStep
  repeat' first
    | with_reducible assumption
    | with_reducible apply atClock_goTo
    | intro _
    | split
    | dsimp only

theorem atClock_haltStep (g : ℕ) {s : Device} (hs : s.AtClock fr ck) :
    (haltStep g s).AtClock fr ck := by
  unfold haltStep
  repeat' first
    | with_reducible assumption
    | with_reducible apply atClock_traceEvent
    | with_reducible apply atClock_setEng
    | with_reducible apply atClock_clearCounts
    | with_reducible apply Device.atClock_modEng
    | with_reducible apply atClock_leaseRelease
    | with_reducible apply atClock_engMode
    | intro _
    | split
    | dsimp only

theorem atClock_restartStep (g : ℕ) {s : Device} (hs : s.AtClock fr ck) :
    (restartStep g s).AtClock fr ck := by
  unfold restartStep
  repeat' first
    | with_reducible assumption
    | with_reducible apply atClock_putTime
    | with_reducible apply Device.atClock_modEng
    | with_reducible apply Device.atClock_cset
    | intro _
    | split
    | dsimp only

theorem atClock_carryResume (mode : ℕ) (g : ℕ) {s : Device} (hs : s.AtClock fr ck) :
    (carryResume mode g s).AtClock fr ck := by
  unfold carryResume
  repeat' first
    | with_reducible assumption
    | with_reducible apply Device.atClock_modEng
    | with_reducible apply atClock_engRange
    | with_reducible apply atClock_requestRun
    | with_reducible apply atClock_writeSetpoints
    | with_reducible apply atClock_bandApply
    | with_reducible apply atClock_restartStep
    | with_reducible apply atClock_setEng
    | with_reducible apply Device.atClock_ite
    | intro _
    | split
    | dsimp only

theorem atClock_releaseHeld (g : ℕ) {s : Device} (hs : s.AtClock fr ck) :
    (releaseHeld g s).AtClock fr ck := by
  unfold releaseHeld
  repeat' first
    | with_reducible assumption
    | with_reducible apply atClock_carryResume
    | with_reducible apply atClock_dropHold
    | intro _
    | split
    | dsimp only

theorem atClock_releaseStep (g : ℕ) {s : Device} (hs : s.AtClock fr ck) :
    (releaseStep g s).AtClock fr ck := by
  unfold releaseStep
  repeat' first
    | with_reducible assumption
    | with_reducible apply atClock_releaseHeld
    | with_reducible apply atClock_traceEvent
    | with_reducible apply atClock_requestRun
    | with_reducible apply Device.atClock_ite
    | intro _
    | split
    | dsimp only

theorem atClock_startRecipe (g : ℕ) {s : Device} (hs : s.AtClock fr ck) :
    (startRecipe g s).AtClock fr ck := by
  unfold startRecipe
  repeat' first
    | with_reducible assumption
    | with_reducible apply Device.atClock_cset
    | with_reducible apply Device.atClock_modEng
    | with_reducible apply atClock_goStep
    | with_reducible apply atClock_traceEvent
    | with_reducible apply Device.atClock_ite
    | intro _
    | split
    | dsimp only

theorem atClock_hostCommands (decided : Bool) (e0 : ℕ) (g : ℕ) {s : Device} (next : Option ℕ) (hs : s.AtClock fr ck) :
    (hostCommands decided e0 g s next).1.AtClock fr ck := by
  unfold hostCommands
  repeat' first
    | with_reducible assumption
    | with_reducible apply atClock_commandEvents
    | with_reducible apply Device.atClock_modDue
    | with_reducible apply atClock_recipeEnd
    | with_reducible apply atClock_dropHold
    | with_reducible apply atClock_endStep
    | with_reducible apply atClock_goStep
    | with_reducible apply atClock_haltStep
    | with_reducible apply atClock_releaseStep
    | with_reducible apply atClock_startRecipe
    | with_reducible apply Device.atClock_ite
    | intro _
    | split
    | dsimp only

theorem atClock_interruptedBoundary (g : ℕ) {s : Device} (hs : s.AtClock fr ck) :
    (interruptedBoundary g s).AtClock fr ck := by
  unfold interruptedBoundary
  repeat' first
    | with_reducible assumption
    | with_reducible apply atClock_bandBoundary
    | with_reducible apply atClock_goStep
    | (refine Device.atClock_fst (by with_reducible assumption) ?_; with_reducible apply atClock_hostCommands)
    | with_reducible apply atClock_hostCommands
    | intro _
    | split
    | dsimp only

theorem atClock_faultHold (g : ℕ) {s : Device} (hs : s.AtClock fr ck) :
    (faultHold g s).AtClock fr ck := by
  unfold faultHold
  repeat' first
    | with_reducible assumption
    | with_reducible apply atClock_traceEvent
    | with_reducible apply atClock_setEng
    | with_reducible apply atClock_clearCounts
    | with_reducible apply Device.atClock_modEng
    | with_reducible apply atClock_leaseRelease
    | with_reducible apply atClock_engMode
    | intro _
    | split
    | dsimp only

theorem atClock_contactFinal (code : ℕ) (g : ℕ) {s : Device} (hs : s.AtClock fr ck) :
    (contactFinal code g s).1.AtClock fr ck := by
  unfold contactFinal
  repeat' first
    | with_reducible assumption
    | with_reducible apply atClock_recipeEnd
    | (refine Device.atClock_fst (by with_reducible assumption) ?_; with_reducible apply atClock_takeAction)
    | with_reducible apply atClock_takeAction
    | intro _
    | split
    | dsimp only

theorem atClock_contactEnd (g : ℕ) {s : Device} (hs : s.AtClock fr ck) :
    (contactEnd g s).1.AtClock fr ck := by
  unfold contactEnd
  repeat' first
    | with_reducible assumption
    | with_reducible apply Device.atClock_modDue
    | with_reducible apply atClock_acirStepEnd
    | with_reducible apply atClock_markEnd
    | with_reducible apply Device.atClock_cset
    | with_reducible apply atClock_traceEvent
    | with_reducible apply atClock_setEng
    | with_reducible apply atClock_leaseRelease
    | with_reducible apply atClock_engMode
    | with_reducible apply atClock_clearCounts
    | with_reducible apply Device.atClock_modEng
    | with_reducible apply atClock_endStep
    | (refine Device.atClock_fst (by with_reducible assumption) ?_; with_reducible apply atClock_contactFinal)
    | with_reducible apply atClock_contactFinal
    | with_reducible apply Device.atClock_ite
    | intro _
    | split
    | dsimp only

theorem atClock_orderFaults (g : ℕ) {s : Device} (hs : s.AtClock fr ck) :
    (orderFaults g s).1.AtClock fr ck := by
  unfold orderFaults
  repeat' first
    | with_reducible assumption
    | with_reducible apply atClock_faultHold
    | with_reducible apply Device.atClock_modDue
    | with_reducible apply atClock_endStep
    | (refine Device.atClock_fst (by with_reducible assumption) ?_; with_reducible apply atClock_contactEnd)
    | with_reducible apply atClock_contactEnd
    | (refine Device.atClock_fst (by with_reducible assumption) ?_; with_reducible apply atClock_contactFinal)
    | with_reducible apply atClock_contactFinal
    | with_reducible apply Device.atClock_ite
    | intro _
    | split
    | dsimp only

theorem atClock_pulseLevel (g : ℕ) {s : Device} (hs : s.AtClock fr ck) :
    (pulseLevel g s).AtClock fr ck := by
  unfold pulseLevel
  repeat' first
    | with_reducible assumption
    | with_reducible apply atClock_writeSetpoints
    | with_reducible apply Device.atClock_modEng
    | with_reducible apply Device.atClock_ite
    | with_reducible apply Device.atClock_foldl
    | with_reducible apply Device.atClock_mk
    | with_reducible apply Device.AtClock.both
    | intro _
    | split
    | dsimp only

theorem atClock_orderBand (decided : Bool) (g : ℕ) {s : Device} (hs : s.AtClock fr ck) :
    (orderBand decided g s).1.AtClock fr ck := by
  unfold orderBand
  repeat' first
    | with_reducible assumption
    | with_reducible apply atClock_endStep
    | with_reducible apply atClock_requestRun
    | with_reducible apply atClock_suspendStep
    | (refine Device.atClock_fst (by with_reducible assumption) ?_; with_reducible apply atClock_takeAction)
    | with_reducible apply atClock_takeAction
    | with_reducible apply Device.atClock_ite
    | intro _
    | split
    | dsimp only

theorem atClock_reseatRefused (g : ℕ) {s : Device} (hs : s.AtClock fr ck) :
    (reseatRefused g s).AtClock fr ck := by
  unfold reseatRefused
  repeat' first
    | with_reducible assumption
    | with_reducible apply Device.atClock_modEng
    | with_reducible apply Device.atClock_ite
    | intro _
    | split
    | dsimp only

theorem atClock_stepTerms (g : ℕ) {s : Device} (hs : s.AtClock fr ck) :
    (stepTerms g s).1.AtClock fr ck := by
  unfold stepTerms
  repeat' first
    | with_reducible assumption
    | with_reducible apply Device.atClock_modEng
    | with_reducible apply atClock_endStep
    | (refine Device.atClock_fst (by with_reducible assumption) ?_; with_reducible apply atClock_takeAction)
    | with_reducible apply atClock_takeAction
    | intro _
    | split
    | dsimp only

theorem atClock_pulseCapture (k : ℕ) (g : ℕ) {s : Device} (hs : s.AtClock fr ck) :
    (pulseCapture k g s).AtClock fr ck := by
  unfold pulseCapture
  repeat' first
    | with_reducible assumption
    | with_reducible apply Device.atClock_modEng
    | with_reducible apply atClock_traceWrite
    | with_reducible apply Device.atClock_spend
    | with_reducible apply Device.atClock_ite
    | intro _
    | split
    | dsimp only

theorem atClock_restBoundary (g : ℕ) {s : Device} (hs : s.AtClock fr ck) :
    (restBoundary g s).AtClock fr ck := by
  unfold restBoundary
  repeat' first
    | with_reducible assumption
    | with_reducible apply atClock_requestRun
    | with_reducible apply atClock_runStep
    | with_reducible apply Device.atClock_ite
    | intro _
    | split
    | dsimp only

theorem atClock_bandEvents (decided : Bool) (running : Bool) (b0 : ℕ) (set0 : ℕ) (g : ℕ) {s : Device} (hs : s.AtClock fr ck) :
    (bandEvents decided running b0 set0 g s).AtClock fr ck := by
  unfold bandEvents
  repeat' first
    | with_reducible assumption
    | with_reducible apply atClock_traceEvent
    | with_reducible apply atClock_writeSetpoints
    | with_reducible apply Device.atClock_ite
    | intro _
    | split
    | dsimp only

theorem atClock_pauseStep (cause : ℕ) (g : ℕ) {s : Device} (hs : s.AtClock fr ck) :
    (pauseStep cause g s).AtClock fr ck := by
  unfold pauseStep
  repeat' first
    | with_reducible assumption
    | with_reducible apply atClock_traceEvent
    | with_reducible apply atClock_setEng
    | with_reducible apply atClock_leaseRelease
    | with_reducible apply atClock_clearCounts
    | with_reducible apply Device.atClock_modEng
    | with_reducible apply atClock_engMode
    | with_reducible apply Device.atClock_ite
    | intro _
    | split
    | dsimp only

theorem atClock_orderPause (decided : Bool) (stops : Bool) (g : ℕ) {s : Device} (hs : s.AtClock fr ck) :
    (orderPause decided stops g s).1.AtClock fr ck := by
  unfold orderPause
  repeat' first
    | with_reducible assumption
    | with_reducible apply Device.atClock_modDue
    | with_reducible apply atClock_traceEvent
    | with_reducible apply atClock_pauseStep
    | with_reducible apply Device.atClock_ite
    | intro _
    | split
    | dsimp only

theorem atClock_stepStart (g : ℕ) {s : Device} (hs : s.AtClock fr ck) :
    (stepStart g s).AtClock fr ck := by
  unfold stepStart
  repeat' first
    | with_reducible assumption
    | with_reducible apply atClock_runStep
    | with_reducible apply atClock_followMode
    | with_reducible apply Device.atClock_ite
    | intro _
    | split
    | dsimp only

theorem atClock_traceRdWrite (d : ℕ) (data : Sys2Proof.Word) {s : Device} (hs : s.AtClock fr ck) :
    (traceRdWrite d data s).AtClock fr ck := by
  unfold traceRdWrite
  repeat' first
    | with_reducible assumption
    | with_reducible apply Device.atClock_dset
    | with_reducible apply Device.atClock_ite
    | intro _
    | split
    | dsimp only

theorem atClock_reseatDone (g : ℕ) {s : Device} (hs : s.AtClock fr ck) :
    (reseatDone g s).AtClock fr ck := by
  unfold reseatDone
  repeat' first
    | with_reducible assumption
    | with_reducible apply atClock_traceEvent
    | with_reducible apply atClock_clearChFault
    | with_reducible apply atClock_requestRun
    | with_reducible apply Device.atClock_modEng
    | with_reducible apply Device.atClock_ite
    | intro _
    | split
    | dsimp only

theorem atClock_seqCmd (bit : ℕ) (g : ℕ) {s : Device} (hs : s.AtClock fr ck) :
    (seqCmd bit g s).AtClock fr ck := by
  unfold seqCmd
  repeat' first
    | with_reducible assumption
    | with_reducible apply Device.atClock_modDue
    | intro _
    | split
    | dsimp only

theorem atClock_reseatOff (g : ℕ) {s : Device} (hs : s.AtClock fr ck) :
    (reseatOff g s).AtClock fr ck := by
  unfold reseatOff
  repeat' first
    | with_reducible assumption
    | with_reducible apply Device.atClock_modEng
    | with_reducible apply Device.atClock_ite
    | intro _
    | split
    | dsimp only

theorem atClock_ocvSample (g : ℕ) {s : Device} (hs : s.AtClock fr ck) :
    (ocvSample g s).AtClock fr ck := by
  unfold ocvSample
  repeat' first
    | with_reducible assumption
    | with_reducible apply atClock_traceWrite
    | with_reducible apply Device.atClock_modEng
    | with_reducible apply Device.atClock_ite
    | intro _
    | split
    | dsimp only

theorem atClock_engineBoundary (g : ℕ) {s : Device} (hs : s.AtClock fr ck) :
    (engineBoundary g s).AtClock fr ck := by
  unfold engineBoundary
  repeat' first
    | with_reducible assumption
    | with_reducible apply atClock_interruptedBoundary
    | with_reducible apply atClock_bandBoundary
    | with_reducible apply atClock_engFrame
    | with_reducible apply atClock_endStep
    | with_reducible apply atClock_bandEvents
    | with_reducible apply atClock_goStep
    | with_reducible apply atClock_restBoundary
    | (refine Device.atClock_fst (by with_reducible assumption) ?_; with_reducible apply atClock_orderFaults)
    | with_reducible apply atClock_orderFaults
    | (refine Device.atClock_fst (by with_reducible assumption) ?_; with_reducible apply atClock_hostCommands)
    | with_reducible apply atClock_hostCommands
    | (refine Device.atClock_fst (by with_reducible assumption) ?_; with_reducible apply atClock_orderPause)
    | with_reducible apply atClock_orderPause
    | (refine Device.atClock_fst (by with_reducible assumption) ?_; with_reducible apply atClock_stepTerms)
    | with_reducible apply atClock_stepTerms
    | (refine Device.atClock_fst (by with_reducible assumption) ?_; with_reducible apply atClock_takeAction)
    | with_reducible apply atClock_takeAction
    | (refine Device.atClock_fst (by with_reducible assumption) ?_; with_reducible apply atClock_orderBand)
    | with_reducible apply atClock_orderBand
    | with_reducible apply Device.atClock_ite
    | intro _
    | split
    | dsimp only

/-! LoopPeriod. -/

theorem atClock_trimBoundary (g : ℕ) {s : Device} (hs : s.AtClock fr ck) :
    (trimBoundary g s).AtClock fr ck := by
  unfold trimBoundary
  repeat' first
    | with_reducible assumption
    | with_reducible apply Device.atClock_modLp
    | with_reducible apply Device.atClock_ite
    | intro _
    | split
    | dsimp only

theorem atClock_contactFault (g : ℕ) {s : Device} (hs : s.AtClock fr ck) :
    (contactFault g s).AtClock fr ck := by
  unfold contactFault
  repeat' first
    | with_reducible assumption
    | with_reducible apply atClock_setChFault
    | with_reducible apply Device.atClock_modDue
    | with_reducible apply Device.atClock_modLp
    | with_reducible apply Device.atClock_ite
    | intro _
    | split
    | dsimp only

theorem atClock_contactSample (g : ℕ) (vf : ℕ) {s : Device} (hs : s.AtClock fr ck) :
    (contactSample g vf s).AtClock fr ck := by
  unfold contactSample
  repeat' first
    | with_reducible assumption
    | with_reducible apply Device.atClock_modLp
    | with_reducible apply atClock_contactFault
    | with_reducible apply Device.atClock_ite
    | intro _
    | split
    | dsimp only

theorem atClock_clampSample (g : ℕ) (vf : ℕ) {s : Device} (hs : s.AtClock fr ck) :
    (clampSample g vf s).AtClock fr ck := by
  unfold clampSample
  repeat' first
    | with_reducible assumption
    | with_reducible apply atClock_clampEngage
    | with_reducible apply Device.atClock_modLp
    | with_reducible apply Device.atClock_cset
    | with_reducible apply Device.atClock_ite
    | intro _
    | split
    | dsimp only

theorem atClock_overloadClip (g : ℕ) {s : Device} (hs : s.AtClock fr ck) :
    (overloadClip g s).AtClock fr ck := by
  unfold overloadClip
  repeat' first
    | with_reducible assumption
    | with_reducible apply atClock_acirClip
    | with_reducible apply Device.atClock_ite
    | intro _
    | split
    | dsimp only

theorem atClock_fastOne (bq : ℤ × ℤ) (vf : List ℕ) (g : ℕ) {s : Device} (hs : s.AtClock fr ck) :
    (fastOne bq vf g s).AtClock fr ck := by
  unfold fastOne
  repeat' first
    | with_reducible assumption
    | with_reducible apply Device.atClock_cset
    | with_reducible apply atClock_fastChannel
    | with_reducible apply atClock_contactSample
    | with_reducible apply atClock_clampSample
    | with_reducible apply atClock_overloadClip
    | with_reducible apply atClock_acirSample
    | intro _
    | split
    | dsimp only

theorem atClock_fastDie (vf : List ℕ) (d : ℕ) {s : Device} (hs : s.AtClock fr ck) :
    (fastDie vf d s).AtClock fr ck := by
  unfold fastDie
  repeat' first
    | with_reducible assumption
    | with_reducible apply Device.atClock_modDie
    | with_reducible apply atClock_fastOne
    | with_reducible apply atClock_benchHold
    | (refine Device.atClock_snd (by with_reducible assumption) ?_; with_reducible apply atClock_benchFast)
    | with_reducible apply atClock_benchFast
    | with_reducible apply Device.atClock_ite
    | with_reducible apply Device.atClock_each
    | intro _
    | split
    | dsimp only

theorem atClock_fastSample (vf : List ℕ) {s : Device} (hs : s.AtClock fr ck) :
    (fastSample vf s).AtClock fr ck := by
  unfold fastSample
  repeat' first
    | with_reducible assumption
    | with_reducible apply atClock_fastDie
    | with_reducible apply Device.atClock_each
    | intro _
    | split
    | dsimp only

theorem atClock_armTaper (cv : Bool) (still : Bool) (g : ℕ) {s : Device} (hs : s.AtClock fr ck) :
    (armTaper cv still g s).AtClock fr ck := by
  unfold armTaper
  repeat' first
    | with_reducible assumption
    | with_reducible apply Device.atClock_modEng
    | with_reducible apply Device.atClock_ite
    | intro _
    | split
    | dsimp only

theorem atClock_rescaleLoop (low : Bool) (g : ℕ) {s : Device} (hs : s.AtClock fr ck) :
    (rescaleLoop low g s).AtClock fr ck := by
  unfold rescaleLoop
  repeat' first
    | with_reducible assumption
    | with_reducible apply Device.atClock_modLp
    | with_reducible apply Device.atClock_ite
    | intro _
    | split
    | dsimp only

theorem atClock_busOvCh (g : ℕ) {s : Device} (hs : s.AtClock fr ck) :
    (busOvCh g s).AtClock fr ck := by
  unfold busOvCh
  repeat' first
    | with_reducible assumption
    | with_reducible apply Device.atClock_modLp
    | with_reducible apply atClock_stopChannel
    | with_reducible apply atClock_setChFault
    | with_reducible apply Device.atClock_ite
    | intro _
    | split
    | dsimp only

theorem atClock_periodStore (iM : ℤ) (o : LoopOut) (g : ℕ) {s : Device} (hs : s.AtClock fr ck) :
    (periodStore iM o g s).AtClock fr ck := by
  unfold periodStore
  repeat' first
    | with_reducible assumption
    | with_reducible apply Device.atClock_modLp
    | with_reducible apply Device.atClock_modAcir
    | with_reducible apply atClock_acirClip
    | with_reducible apply Device.atClock_cset
    | with_reducible apply atClock_armTaper
    | with_reducible apply Device.atClock_spend
    | with_reducible apply Device.atClock_ite
    | intro _
    | split
    | dsimp only

theorem atClock_periodStart (bootLow : Bool) (g : ℕ) {s : Device} (hs : s.AtClock fr ck) :
    (periodStart bootLow g s).AtClock fr ck := by
  unfold periodStart
  repeat' first
    | with_reducible assumption
    | with_reducible apply atClock_setChFault
    | with_reducible apply Device.atClock_cset
    | with_reducible apply Device.atClock_modLp
    | with_reducible apply atClock_acirClip
    | with_reducible apply Device.atClock_ite
    | intro _
    | split
    | dsimp only

theorem atClock_loopPeriod (bootLow : Bool) (g : ℕ) {s : Device} (hs : s.AtClock fr ck) :
    (loopPeriod bootLow g s).AtClock fr ck := by
  unfold loopPeriod
  repeat' first
    | with_reducible assumption
    | with_reducible apply Device.atClock_modLp
    | with_reducible apply atClock_gatesOff
    | with_reducible apply atClock_acirStopped
    | with_reducible apply atClock_periodStart
    | with_reducible apply atClock_stopChannel
    | with_reducible apply atClock_periodStore
    | with_reducible apply atClock_busOvCh
    | with_reducible apply Device.atClock_ite
    | intro _
    | split
    | dsimp only

/-! Protect. -/

theorem atClock_vdrvUvCh (g : ℕ) {s : Device} (hs : s.AtClock fr ck) :
    (vdrvUvCh g s).AtClock fr ck := by
  unfold vdrvUvCh
  repeat' first
    | with_reducible assumption
    | with_reducible apply atClock_stopChannel
    | with_reducible apply atClock_setChFault
    | with_reducible apply Device.atClock_modLp
    | with_reducible apply atClock_suspendStep
    | with_reducible apply Device.atClock_ite
    | intro _
    | split
    | dsimp only

theorem atClock_busOvClearCh (g : ℕ) {s : Device} (hs : s.AtClock fr ck) :
    (busOvClearCh g s).AtClock fr ck := by
  unfold busOvClearCh
  repeat' first
    | with_reducible assumption
    | with_reducible apply atClock_followMode
    | with_reducible apply Device.atClock_modLp
    | with_reducible apply Device.atClock_ite
    | intro _
    | split
    | dsimp only

theorem atClock_vdrvUv (d : ℕ) {s : Device} (hs : s.AtClock fr ck) :
    (vdrvUv d s).AtClock fr ck := by
  unfold vdrvUv
  repeat' first
    | with_reducible assumption
    | with_reducible apply atClock_vdrvUvCh
    | with_reducible apply Device.atClock_modDie
    | with_reducible apply Device.atClock_ite
    | with_reducible apply Device.atClock_each
    | intro _
    | split
    | dsimp only

theorem atClock_vdrvRecoverCh (g : ℕ) {s : Device} (hs : s.AtClock fr ck) :
    (vdrvRecoverCh g s).AtClock fr ck := by
  unfold vdrvRecoverCh
  repeat' first
    | with_reducible assumption
    | with_reducible apply Device.atClock_modLp
    | with_reducible apply atClock_requestRun
    | with_reducible apply Device.atClock_cset
    | with_reducible apply atClock_followMode
    | with_reducible apply Device.atClock_ite
    | intro _
    | split
    | dsimp only

theorem atClock_vdrvRecover (d : ℕ) {s : Device} (hs : s.AtClock fr ck) :
    (vdrvRecover d s).AtClock fr ck := by
  unfold vdrvRecover
  repeat' first
    | with_reducible assumption
    | with_reducible apply atClock_vdrvRecoverCh
    | with_reducible apply Device.atClock_modDie
    | with_reducible apply Device.atClock_ite
    | with_reducible apply Device.atClock_each
    | intro _
    | split
    | dsimp only

theorem atClock_busOvClear (d : ℕ) {s : Device} (hs : s.AtClock fr ck) :
    (busOvClear d s).AtClock fr ck := by
  unfold busOvClear
  repeat' first
    | with_reducible assumption
    | with_reducible apply atClock_busOvClearCh
    | with_reducible apply Device.atClock_modDie
    | with_reducible apply Device.atClock_ite
    | with_reducible apply Device.atClock_each
    | intro _
    | split
    | dsimp only

theorem atClock_busOv (d : ℕ) {s : Device} (hs : s.AtClock fr ck) :
    (busOv d s).AtClock fr ck := by
  unfold busOv
  repeat' first
    | with_reducible assumption
    | with_reducible apply atClock_busOvCh
    | with_reducible apply Device.atClock_modDie
    | with_reducible apply Device.atClock_ite
    | with_reducible apply Device.atClock_each
    | intro _
    | split
    | dsimp only

/-! Budget. -/

theorem atClock_modMon (f : Mon → Mon) {s : Device} (hs : s.AtClock fr ck) :
    (modMon f s).AtClock fr ck := by
  unfold modMon
  repeat' first
    | with_reducible assumption
    | with_reducible apply Device.atClock_modSup
    | intro _
    | split
    | dsimp only

theorem atClock_monEnd (trunc : Bool) {s : Device} (hs : s.AtClock fr ck) :
    (monEnd trunc s).AtClock fr ck := by
  unfold monEnd
  repeat' first
    | with_reducible assumption
    | with_reducible apply atClock_modMon
    | with_reducible apply atClock_logEvent
    | with_reducible apply Device.atClock_pset
    | with_reducible apply Device.atClock_pinc
    | with_reducible apply Device.atClock_ite
    | intro _
    | split
    | dsimp only

theorem atClock_monReading (v : ℕ) {s : Device} (hs : s.AtClock fr ck) :
    (monReading v s).AtClock fr ck := by
  unfold monReading
  repeat' first
    | with_reducible assumption
    | with_reducible apply atClock_modMon
    | with_reducible apply atClock_monEnd
    | with_reducible apply Device.atClock_pset
    | with_reducible apply Device.atClock_ite
    | intro _
    | split
    | dsimp only

theorem atClock_budgetGrant (g : ℕ) {s : Device} (hs : s.AtClock fr ck) :
    (budgetGrant g s).AtClock fr ck := by
  unfold budgetGrant
  repeat' first
    | with_reducible assumption
    | with_reducible apply Device.atClock_cset
    | with_reducible apply atClock_setMode
    | with_reducible apply atClock_runStep
    | with_reducible apply atClock_setMap
    | with_reducible apply Device.atClock_ite
    | intro _
    | split
    | dsimp only

theorem atClock_budgetPause (g : ℕ) {s : Device} (hs : s.AtClock fr ck) :
    (budgetPause g s).AtClock fr ck := by
  unfold budgetPause
  repeat' first
    | with_reducible assumption
    | with_reducible apply Device.atClock_cset
    | with_reducible apply atClock_logEvent
    | with_reducible apply atClock_setMode
    | with_reducible apply Device.atClock_modLp
    | with_reducible apply atClock_acirAbort
    | with_reducible apply Device.atClock_modDue
    | with_reducible apply atClock_setMap
    | with_reducible apply Device.atClock_pset
    | with_reducible apply Device.atClock_ite
    | intro _
    | split
    | dsimp only

theorem atClock_budgetRefuse (g : ℕ) {s : Device} (hs : s.AtClock fr ck) :
    (budgetRefuse g s).AtClock fr ck := by
  unfold budgetRefuse
  repeat' first
    | with_reducible assumption
    | with_reducible apply atClock_traceEvent
    | with_reducible apply atClock_setEng
    | with_reducible apply atClock_setMap
    | with_reducible apply Device.atClock_pset
    | with_reducible apply Device.atClock_ite
    | intro _
    | split
    | dsimp only

theorem atClock_decide1 (g : ℕ) {s : Device} (hs : s.AtClock fr ck) :
    (decide1 g s).AtClock fr ck := by
  unfold decide1
  repeat' first
    | with_reducible assumption
    | with_reducible apply Device.atClock_modLease
    | with_reducible apply atClock_budgetGrant
    | with_reducible apply atClock_budgetPause
    | with_reducible apply atClock_budgetRefuse
    | with_reducible apply Device.atClock_ite
    | intro _
    | split
    | dsimp only

theorem atClock_lateBoundary (g : ℕ) {s : Device} (hs : s.AtClock fr ck) :
    (lateBoundary g s).AtClock fr ck := by
  unfold lateBoundary
  repeat' first
    | with_reducible assumption
    | with_reducible apply atClock_decide1
    | with_reducible apply Device.atClock_ite
    | intro _
    | split
    | dsimp only

theorem atClock_leaseEnd (g : ℕ) {s : Device} (hs : s.AtClock fr ck) :
    (leaseEnd g s).AtClock fr ck := by
  unfold leaseEnd
  repeat' first
    | with_reducible assumption
    | with_reducible apply Device.atClock_modLease
    | with_reducible apply Device.atClock_cset
    | with_reducible apply atClock_clearMaps
    | intro _
    | split
    | dsimp only

theorem atClock_runCode (code : ℕ) {s : Device} (hs : s.AtClock fr ck) :
    (runCode code s).AtClock fr ck := by
  unfold runCode
  repeat' first
    | with_reducible assumption
    | with_reducible apply atClock_setCat
    | with_reducible apply Device.atClock_pset
    | intro _
    | split
    | dsimp only

theorem atClock_runStop (code : ℕ) {s : Device} (hs : s.AtClock fr ck) :
    (runStop code s).AtClock fr ck := by
  unfold runStop
  repeat' first
    | with_reducible assumption
    | with_reducible apply atClock_runCode
    | with_reducible apply Device.atClock_pset
    | with_reducible apply Device.atClock_ite
    | with_reducible apply Device.atClock_mk
    | with_reducible apply Device.AtClock.both
    | intro _
    | split
    | dsimp only

theorem atClock_leaveRun {s : Device} (hs : s.AtClock fr ck) :
    (leaveRun s).AtClock fr ck := by
  unfold leaveRun
  repeat' first
    | with_reducible assumption
    | with_reducible apply atClock_leaseEnd
    | with_reducible apply atClock_acirAbort
    | with_reducible apply Device.atClock_modDue
    | with_reducible apply atClock_runStop
    | with_reducible apply atClock_benchAbort
    | with_reducible apply Device.atClock_setReg
    | with_reducible apply Device.atClock_pset
    | with_reducible apply Device.atClock_ite
    | with_reducible apply Device.atClock_each
    | intro _
    | split
    | dsimp only

theorem atClock_enterRun {s : Device} (hs : s.AtClock fr ck) :
    (enterRun s).AtClock fr ck := by
  unfold enterRun
  repeat' first
    | with_reducible assumption
    | with_reducible apply Device.atClock_modBench
    | with_reducible apply atClock_leaseWait
    | with_reducible apply Device.atClock_ite
    | with_reducible apply Device.atClock_each
    | intro _
    | split
    | dsimp only

theorem atClock_changeState (st : ℕ) {s : Device} (hs : s.AtClock fr ck) :
    (changeState st s).AtClock fr ck := by
  unfold changeState
  repeat' first
    | with_reducible assumption
    | with_reducible apply atClock_leaveRun
    | with_reducible apply atClock_monEnd
    | with_reducible apply atClock_modMon
    | with_reducible apply atClock_setPkgState
    | with_reducible apply Device.atClock_modSup
    | with_reducible apply atClock_enterRun
    | with_reducible apply Device.atClock_pset
    | with_reducible apply Device.atClock_ite
    | intro _
    | split
    | dsimp only

theorem atClock_countLease (g : ℕ) {s : Device} (hs : s.AtClock fr ck) :
    (countLease g s).AtClock fr ck := by
  unfold countLease
  repeat' first
    | with_reducible assumption
    | with_reducible apply Device.atClock_modLease
    | intro _
    | split
    | dsimp only

theorem atClock_busSums {s : Device} (hs : s.AtClock fr ck) :
    (busSums s).AtClock fr ck := by
  unfold busSums
  repeat' first
    | with_reducible assumption
    | with_reducible apply Device.atClock_setReg
    | with_reducible apply Device.atClock_pset
    | intro _
    | split
    | dsimp only

theorem Device.atClock_ite2 {c : Prop} [Decidable c] {p q : ℤ × Device} (hp : p.2.AtClock fr ck) (hq : q.2.AtClock fr ck) :
    (if c then p else q).2.AtClock fr ck := by
  split
  · exact hp
  · exact hq

theorem atClock_arbWaiting (k w : ℕ) (a : ℤ × Device) (h : a.2.AtClock fr ck) : (arbWaiting k w a).2.AtClock fr ck := by
  obtain ⟨res, s⟩ := a
  unfold arbWaiting
  refine Device.atClock_ite2 h (Device.atClock_ite2 ?_ ?_)
  · dsimp only; exact Device.atClock_modLease _ _ (s := s) h
  · dsimp only; exact Device.atClock_modLease _ _ (s := s) h

theorem atClock_acirEvent (g : ℕ) {s : Device} (hs : s.AtClock fr ck) :
    (acirEvent g s).AtClock fr ck := by
  unfold acirEvent
  repeat' first
    | with_reducible assumption
    | with_reducible apply atClock_acirOpen
    | with_reducible apply atClock_acirClose
    | with_reducible apply atClock_acirLeadin
    | intro _
    | split
    | dsimp only

theorem atClock_pauseLease (reverse : Bool) (g : ℕ) {s : Device} (hs : s.AtClock fr ck) :
    (pauseLease reverse g s).AtClock fr ck := by
  unfold pauseLease
  repeat' first
    | with_reducible assumption
    | with_reducible apply Device.atClock_modLease
    | intro _
    | split
    | dsimp only

theorem atClock_acirInOrder (f : ℕ → Device → Device) (g : ℕ) {s : Device} (hf : ∀ y0 y1, y1.AtClock fr ck → (f y0 y1).AtClock fr ck) (hs : s.AtClock fr ck) :
    (acirInOrder f g s).AtClock fr ck := by
  unfold acirInOrder
  repeat' first
    | with_reducible assumption
    | with_reducible apply atClock_decide1
    | with_reducible apply hf
    | with_reducible apply Device.atClock_ite
    | intro _
    | split
    | dsimp only

theorem atClock_leaseTold (g : ℕ) (dem : ℤ) (held : Bool) (waiting : Bool) {s : Device} (hs : s.AtClock fr ck) :
    (leaseTold g dem held waiting s).AtClock fr ck := by
  unfold leaseTold
  repeat' first
    | with_reducible assumption
    | with_reducible apply Device.atClock_modLease
    | intro _
    | split
    | dsimp only

theorem atClock_leaseReport (g : ℕ) {s : Device} (hs : s.AtClock fr ck) :
    (leaseReport g s).AtClock fr ck := by
  unfold leaseReport
  repeat' first
    | with_reducible assumption
    | with_reducible apply atClock_leaseTold
    | intro _
    | split
    | dsimp only

theorem atClock_demandBoundary (g : ℕ) {s : Device} (hs : s.AtClock fr ck) :
    (demandBoundary g s).AtClock fr ck := by
  unfold demandBoundary
  repeat' first
    | with_reducible assumption
    | with_reducible apply Device.atClock_cset
    | with_reducible apply atClock_leaseReport
    | with_reducible apply Device.atClock_ite
    | intro _
    | split
    | dsimp only

theorem atClock_freezeWrites {s : Device} (hs : s.AtClock fr ck) :
    (freezeWrites s).AtClock fr ck := by
  unfold freezeWrites
  repeat' first
    | with_reducible assumption
    | with_reducible apply Device.atClock_setBusW1c
    | with_reducible apply Device.atClock_setBusClr
    | with_reducible apply Device.atClock_pforce
    | with_reducible apply Device.atClock_cforce
    | with_reducible apply Device.atClock_setReg
    | with_reducible apply Device.atClock_ite
    | with_reducible apply Device.atClock_each
    | intro _
    | split
    | dsimp only

theorem atClock_pauseWhile (stop : ℤ → Bool) (reverse : Bool) (l : List ℕ) {s : Device} (hs : s.AtClock fr ck) :
    (pauseWhile stop reverse l s).AtClock fr ck := by
  unfold pauseWhile
  repeat' first
    | with_reducible assumption
    | with_reducible apply atClock_pauseLease
    | with_reducible apply Device.atClock_ite
    | with_reducible apply Device.atClock_each
    | intro _
    | split
    | dsimp only

theorem atClock_arbPauses {s : Device} (hs : s.AtClock fr ck) :
    (arbPauses s).AtClock fr ck := by
  unfold arbPauses
  repeat' first
    | with_reducible assumption
    | with_reducible apply atClock_pauseWhile
    | with_reducible apply Device.atClock_ite
    | intro _
    | split
    | dsimp only

theorem atClock_leaseLate (d : ℕ) {s : Device} (hs : s.AtClock fr ck) :
    (leaseLate d s).AtClock fr ck := by
  unfold leaseLate
  repeat' first
    | with_reducible assumption
    | with_reducible apply Device.atClock_modLease
    | with_reducible apply Device.atClock_pset
    | with_reducible apply Device.atClock_ite
    | with_reducible apply Device.atClock_each
    | intro _
    | split
    | dsimp only

theorem atClock_busMonClr (data : Sys2Proof.Word) {s : Device} (hs : s.AtClock fr ck) :
    (busMonClr data s).AtClock fr ck := by
  unfold busMonClr
  repeat' first
    | with_reducible assumption
    | with_reducible apply Device.atClock_setBusClr
    | with_reducible apply Device.atClock_ite
    | intro _
    | split
    | dsimp only

theorem atClock_expireLease (g : ℕ) {s : Device} (hs : s.AtClock fr ck) :
    (expireLease g s).AtClock fr ck := by
  unfold expireLease
  repeat' first
    | with_reducible assumption
    | with_reducible apply Device.atClock_modLease
    | with_reducible apply atClock_logEvent
    | with_reducible apply Device.atClock_pset
    | with_reducible apply Device.atClock_ite
    | intro _
    | split
    | dsimp only

theorem atClock_arbGrants (k : ℕ) {s : Device} (h : s.AtClock fr ck) : (arbGrants k s).AtClock fr ck := by
  have hf : ∀ (l : List ℕ) (a : ℤ × Device), a.2.AtClock fr ck → (l.foldl (fun a w => arbWaiting k w a) a).2.AtClock fr ck := by
    intro l
    induction l with
    | nil => exact fun _ h => h
    | cons w t ih => exact fun a h => ih _ (atClock_arbWaiting k w a h)
  exact hf _ _ h

theorem atClock_freezePoint (k : ℕ) {s : Device} (hs : s.AtClock fr ck) :
    (freezePoint k s).AtClock fr ck := by
  unfold freezePoint
  repeat' first
    | with_reducible assumption
    | with_reducible apply atClock_countLease
    | with_reducible apply atClock_expireLease
    | with_reducible apply atClock_freezeWrites
    | with_reducible apply atClock_arbPauses
    | with_reducible apply atClock_busSums
    | with_reducible apply atClock_arbGrants
    | with_reducible apply Device.atClock_ite
    | with_reducible apply Device.atClock_each
    | intro _
    | split
    | dsimp only

theorem atClock_leaseDecision (d : ℕ) {s : Device} (hs : s.AtClock fr ck) :
    (leaseDecision d s).AtClock fr ck := by
  unfold leaseDecision
  repeat' first
    | with_reducible assumption
    | with_reducible apply atClock_decide1
    | with_reducible apply atClock_acirEvent
    | with_reducible apply Device.atClock_ite
    | with_reducible apply Device.atClock_each
    | intro _
    | split
    | dsimp only

theorem atClock_fitSet {s : Device} (hs : s.AtClock fr ck) :
    (fitSet s).AtClock fr ck := by
  unfold fitSet
  repeat' first
    | with_reducible assumption
    | with_reducible apply Device.atClock_pset
    | with_reducible apply Device.atClock_ite
    | intro _
    | split
    | dsimp only

/-! Calib. -/

theorem atClock_putConst (off : ℕ) (f : Fld Blk.ch) (k : Const) (g : ℕ) {s : Device} (hs : s.AtClock fr ck) :
    (putConst off f k g s).AtClock fr ck := by
  unfold putConst
  repeat' first
    | with_reducible assumption
    | with_reducible apply Device.atClock_cset
    | with_reducible apply Device.atClock_setReg
    | intro _
    | split
    | dsimp only

theorem atClock_putThree (h : Const) (l : Const) (kv : Const) (g : ℕ) {s : Device} (hs : s.AtClock fr ck) :
    (putThree h l kv g s).AtClock fr ck := by
  unfold putThree
  repeat' first
    | with_reducible assumption
    | with_reducible apply atClock_putConst
    | intro _
    | split
    | dsimp only

theorem atClock_putKe (ke : Option Const) (g : ℕ) {s : Device} (h : s.AtClock fr ck) :
    ∀ t, putKe ke g s = some t → t.AtClock fr ck := by
  intro t ht
  unfold putKe at ht
  split at ht
  · exact Option.some.inj ht ▸ h
  · cases ke with
    | none => simp at ht
    | some k => exact Option.some.inj ht ▸ atClock_putConst _ _ _ _ h

theorem atClock_foldWords (g : ℕ) {s : Device} (h : s.AtClock fr ck) : ∀ t, foldWords g s = some t → t.AtClock fr ck := by
  intro t ht
  obtain ⟨p, -, ht⟩ := Option.bind_eq_some_iff.mp ht
  exact atClock_putKe _ _ (atClock_putThree _ _ _ _ h) t ht

theorem atClock_foldRest (c : Conv) (v : Sys2Proof.PairCal) (g : ℕ) {t : Device} (ht : t.AtClock fr ck) :
    (foldRest c v g t).AtClock fr ck := by
  unfold foldRest
  repeat' first
    | with_reducible assumption
    | with_reducible apply Device.atClock_cset
    | with_reducible apply atClock_resetLive
    | with_reducible apply atClock_dsetBit
    | with_reducible apply Device.atClock_setReg
    | intro _
    | split
    | dsimp only

theorem Device.atClock_getD {o : Option Device} {f : Device → Device} {s : Device} (h : s.AtClock fr ck)
    (ho : ∀ t, o = some t → t.AtClock fr ck) (hf : ∀ t, t.AtClock fr ck → (f t).AtClock fr ck) : ((o.map f).getD s).AtClock fr ck := by
  cases o with
  | none => exact h
  | some t => exact hf t (ho t rfl)

theorem atClock_foldNow (g : ℕ) {s : Device} (h : s.AtClock fr ck) : (foldNow g s).AtClock fr ck := by
  unfold foldNow
  split
  · exact h
  · exact Device.atClock_getD h (atClock_foldWords g h) fun t ht => atClock_foldRest _ _ _ ht

theorem atClock_calRefuse (code : ℕ) (g : ℕ) {s : Device} (hs : s.AtClock fr ck) :
    (calRefuse code g s).AtClock fr ck := by
  unfold calRefuse
  repeat' first
    | with_reducible assumption
    | with_reducible apply Device.atClock_cset
    | intro _
    | split
    | dsimp only

theorem atClock_calQueue (k : ℕ) (w : Sys2Proof.Word) (g : ℕ) {s : Device} (hs : s.AtClock fr ck) :
    (calQueue k w g s).AtClock fr ck := by
  unfold calQueue
  repeat' first
    | with_reducible assumption
    | with_reducible apply Device.atClock_modDue
    | with_reducible apply Device.atClock_ite
    | intro _
    | split
    | dsimp only

theorem atClock_calFold (data : Sys2Proof.Word) (g : ℕ) {s : Device} (hs : s.AtClock fr ck) :
    (calFold data g s).AtClock fr ck := by
  unfold calFold
  repeat' first
    | with_reducible assumption
    | with_reducible apply atClock_calRefuse
    | with_reducible apply atClock_calQueue
    | with_reducible apply Device.atClock_ite
    | intro _
    | split
    | dsimp only

theorem atClock_applyWords (both : Bool) (g : ℕ) {s : Device} (h : s.AtClock fr ck) :
    ∀ t, applyWords both g s = some t → t.AtClock fr ck := by
  have hf : ∀ (l : List Bool) (o : Option Device), (∀ t, o = some t → t.AtClock fr ck) → ∀ t,
      l.foldl (fun o low => o.bind fun t =>
        (runConst s g low).map fun k => putConst (kqField low).1 (kqField low).2 k g t) o = some t → t.AtClock fr ck := by
    intro l
    induction l with
    | nil => exact fun _ h => h
    | cons b l ih =>
      refine fun o h => ih _ ?_
      intro t ht
      cases o with
      | none => simp at ht
      | some u =>
        simp only [Option.bind_some, Option.map_eq_some_iff] at ht
        obtain ⟨k, -, rfl⟩ := ht
        exact atClock_putConst _ _ _ _ (h u rfl)
  exact hf _ _ (fun t ht => by cases ht; exact h)

theorem atClock_applyNow (both : Bool) (g : ℕ) {s : Device} (h : s.AtClock fr ck) : (applyNow both g s).AtClock fr ck := by
  unfold applyNow
  split
  · exact Device.atClock_cset _ _ _ (Device.atClock_cset _ _ _ (atClock_applyWords both g h _ ‹_›))
  · exact h

theorem atClock_writtenActs (g : ℕ) {s : Device} (hs : s.AtClock fr ck) :
    (writtenActs g s).1.AtClock fr ck := by
  unfold writtenActs
  repeat' first
    | with_reducible assumption
    | with_reducible apply atClock_baseReset
    | with_reducible apply atClock_forceConsts
    | (refine Device.atClock_fst (by with_reducible assumption) ?_; with_reducible apply atClock_constAct)
    | with_reducible apply atClock_constAct
    | intro _
    | split
    | dsimp only

theorem atClock_calAct (a : ℕ × Sys2Proof.Word) (g : ℕ) {s : Device} (hs : s.AtClock fr ck) :
    (calAct a g s).AtClock fr ck := by
  unfold calAct
  repeat' first
    | with_reducible assumption
    | with_reducible apply atClock_calRefuse
    | with_reducible apply atClock_applyNow
    | with_reducible apply atClock_foldNow
    | with_reducible apply atClock_baseReset
    | with_reducible apply Device.atClock_setReg
    | with_reducible apply Device.atClock_ite
    | intro _
    | split
    | dsimp only

theorem atClock_calActList (g : ℕ) (l : List (ℕ × Word)) {s : Device} (c : ℕ) (h : s.AtClock fr ck) : (calActList g l s c).1.AtClock fr ck := by
  induction l generalizing s c with
  | nil => exact h
  | cons a l ih =>
    have h1 := atClock_constAct (calCause a) (fun g t => forceConsts g (calAct a g t)) g c (fun _ _ ht => atClock_forceConsts _ (atClock_calAct _ _ ht)) h
    rw [calActList]
    generalize constAct (calCause a) (fun g t => forceConsts g (calAct a g t)) g s c = q at h1 ⊢
    exact ih _ h1

theorem atClock_calActs (g : ℕ) {s : Device} (hs : s.AtClock fr ck) :
    (calActs g s).1.AtClock fr ck := by
  unfold calActs
  repeat' first
    | with_reducible assumption
    | with_reducible apply Device.atClock_modDue
    | with_reducible apply Device.atClock_setReg
    | (refine Device.atClock_fst (by with_reducible assumption) ?_; with_reducible apply atClock_writtenActs)
    | with_reducible apply atClock_writtenActs
    | (refine Device.atClock_fst (by with_reducible assumption) ?_; with_reducible apply atClock_calActList)
    | with_reducible apply atClock_calActList
    | with_reducible apply Device.atClock_foldl
    | intro _
    | split
    | dsimp only

theorem atClock_constBoundary (g : ℕ) {s : Device} (hs : s.AtClock fr ck) :
    (constBoundary g s).AtClock fr ck := by
  unfold constBoundary
  repeat' first
    | with_reducible assumption
    | with_reducible apply atClock_startConsts
    | with_reducible apply Device.atClock_modDue
    | with_reducible apply atClock_constClose
    | (refine Device.atClock_fst (by with_reducible assumption) ?_; with_reducible apply atClock_writtenActs)
    | with_reducible apply atClock_writtenActs
    | (refine Device.atClock_fst (by with_reducible assumption) ?_; with_reducible apply atClock_calActs)
    | with_reducible apply atClock_calActs
    | with_reducible apply Device.atClock_ite
    | intro _
    | split
    | dsimp only

theorem atClock_calApply (data : Sys2Proof.Word) (g : ℕ) {s : Device} (hs : s.AtClock fr ck) :
    (calApply data g s).AtClock fr ck := by
  unfold calApply
  repeat' first
    | with_reducible assumption
    | with_reducible apply atClock_calRefuse
    | with_reducible apply atClock_calQueue
    | with_reducible apply Device.atClock_ite
    | intro _
    | split
    | dsimp only

theorem atClock_runRecord (qRef : ℤ) (qDev : ℤ) (net : ℤ) (causes : ℕ) (g : ℕ) {s : Device} (hs : s.AtClock fr ck) :
    (runRecord qRef qDev net causes g s).AtClock fr ck := by
  unfold runRecord
  repeat' first
    | with_reducible assumption
    | with_reducible apply Device.atClock_modConv
    | with_reducible apply Device.atClock_cset
    | with_reducible apply Device.atClock_ite
    | intro _
    | split
    | dsimp only

/-! Valve. -/

theorem atClock_clampOt (d : ℕ) {s : Device} (hs : s.AtClock fr ck) :
    (clampOt d s).AtClock fr ck := by
  unfold clampOt
  repeat' first
    | with_reducible assumption
    | with_reducible apply atClock_logEvent
    | with_reducible apply Device.atClock_dset
    | with_reducible apply Device.atClock_ite
    | intro _
    | split
    | dsimp only

theorem atClock_clampOtClear (d : ℕ) {s : Device} (hs : s.AtClock fr ck) :
    (clampOtClear d s).AtClock fr ck := by
  unfold clampOtClear
  repeat' first
    | with_reducible assumption
    | with_reducible apply Device.atClock_dset
    | intro _
    | split
    | dsimp only

theorem atClock_vset (v : ℕ) (f : Fld Blk.die) (x : ℕ) {s : Device} (hs : s.AtClock fr ck) :
    (vset v f x s).AtClock fr ck := by
  unfold vset
  repeat' first
    | with_reducible assumption
    | with_reducible apply Device.atClock_dset
    | intro _
    | split
    | dsimp only

theorem atClock_bankPending (d : ℕ) {s : Device} (hs : s.AtClock fr ck) :
    (bankPending d s).AtClock fr ck := by
  unfold bankPending
  repeat' first
    | with_reducible assumption
    | with_reducible apply Device.atClock_dset
    | with_reducible apply atClock_vset
    | with_reducible apply Device.atClock_ite
    | with_reducible apply Device.atClock_each
    | intro _
    | split
    | dsimp only

theorem atClock_valveRefuse (code : ℕ) (v : ℕ) (pt : ℕ) (seat : Option ℕ) {s : Device} (hs : s.AtClock fr ck) :
    (valveRefuse code v pt seat s).AtClock fr ck := by
  unfold valveRefuse
  repeat' first
    | with_reducible assumption
    | with_reducible apply Device.atClock_dinc
    | with_reducible apply atClock_vset
    | with_reducible apply atClock_logEvent
    | with_reducible apply atClock_reseatRefused
    | with_reducible apply Device.atClock_pset
    | with_reducible apply Device.atClock_ite
    | intro _
    | split
    | dsimp only

theorem atClock_valveAccept (v : ℕ) (on : Bool) (pt : ℕ) (seat : Option ℕ) {s : Device} (hs : s.AtClock fr ck) :
    (valveAccept v on pt seat s).AtClock fr ck := by
  unfold valveAccept
  repeat' first
    | with_reducible assumption
    | with_reducible apply atClock_valveRefuse
    | with_reducible apply atClock_bankPending
    | with_reducible apply Device.atClock_ite
    | with_reducible apply Device.atClock_mk
    | with_reducible apply Device.AtClock.both
    | intro _
    | split
    | dsimp only

theorem atClock_valveReq (v : ℕ) (on : Bool) (now : Bool) {s : Device} (hs : s.AtClock fr ck) :
    (valveReq v on now s).AtClock fr ck := by
  unfold valveReq
  repeat' first
    | with_reducible assumption
    | with_reducible apply atClock_valveAccept
    | with_reducible apply Device.atClock_ite
    | intro _
    | split
    | dsimp only

theorem atClock_modCoil (v : ℕ) (f : Coil → Coil) {s : Device} (hs : s.AtClock fr ck) :
    (modCoil v f s).AtClock fr ck := by
  unfold modCoil
  repeat' first
    | with_reducible assumption
    | with_reducible apply Device.atClock_modDie
    | intro _
    | split
    | dsimp only

theorem atClock_bankRow (d : ℕ) {s : Device} (hs : s.AtClock fr ck) :
    (bankRow d s).AtClock fr ck := by
  unfold bankRow
  repeat' first
    | with_reducible assumption
    | with_reducible apply Device.atClock_modDie
    | with_reducible apply Device.atClock_dset
    | with_reducible apply atClock_vset
    | with_reducible apply Device.atClock_ite
    | with_reducible apply Device.atClock_each
    | intro _
    | split
    | dsimp only

theorem atClock_setValvePhase (p : ℕ) (v : ℕ) {s : Device} (hs : s.AtClock fr ck) :
    (setValvePhase p v s).AtClock fr ck := by
  unfold setValvePhase
  repeat' first
    | with_reducible assumption
    | with_reducible apply atClock_modCoil
    | with_reducible apply atClock_vset
    | with_reducible apply atClock_bankRow
    | intro _
    | split
    | dsimp only

theorem atClock_dropToHold (v : ℕ) {s : Device} (hs : s.AtClock fr ck) :
    (dropToHold v s).AtClock fr ck := by
  unfold dropToHold
  repeat' first
    | with_reducible assumption
    | with_reducible apply atClock_setValvePhase
    | with_reducible apply atClock_vset
    | with_reducible apply Device.atClock_ite
    | intro _
    | split
    | dsimp only

theorem atClock_vreqDrop (r : VReq) {s : Device} (hs : s.AtClock fr ck) :
    (vreqDrop r s).AtClock fr ck := by
  unfold vreqDrop
  repeat' first
    | with_reducible assumption
    | with_reducible apply atClock_bankPending
    | with_reducible apply Device.atClock_mk
    | with_reducible apply Device.AtClock.both
    | intro _
    | split
    | dsimp only

theorem atClock_valveBatons {s : Device} (hs : s.AtClock fr ck) :
    (valveBatons s).AtClock fr ck := by
  unfold valveBatons
  repeat' first
    | with_reducible assumption
    | with_reducible apply Device.atClock_pset
    | with_reducible apply Device.atClock_ite
    | with_reducible apply Device.atClock_foldl
    | intro _
    | split
    | dsimp only

theorem atClock_pullStart (r : VReq) {s : Device} (hs : s.AtClock fr ck) :
    (pullStart r s).AtClock fr ck := by
  unfold pullStart
  repeat' first
    | with_reducible assumption
    | with_reducible apply atClock_setValvePhase
    | with_reducible apply atClock_vreqDrop
    | with_reducible apply atClock_modCoil
    | with_reducible apply atClock_valveBatons
    | with_reducible apply Device.atClock_setBanks
    | with_reducible apply Device.atClock_setGrants
    | intro _
    | split
    | dsimp only

theorem atClock_pullFree (v : ℕ) {s : Device} (hs : s.AtClock fr ck) :
    (pullFree v s).AtClock fr ck := by
  unfold pullFree
  repeat' first
    | with_reducible assumption
    | with_reducible apply Device.atClock_modDie
    | with_reducible apply atClock_valveBatons
    | with_reducible apply Device.atClock_setBanks
    | with_reducible apply Device.atClock_setGrants
    | intro _
    | split
    | dsimp only

theorem atClock_releaseValve (latched : Bool) (v : ℕ) {s : Device} (hs : s.AtClock fr ck) :
    (releaseValve latched v s).AtClock fr ck := by
  unfold releaseValve
  repeat' first
    | with_reducible assumption
    | with_reducible apply atClock_pullFree
    | with_reducible apply atClock_setValvePhase
    | with_reducible apply atClock_modCoil
    | with_reducible apply Device.atClock_ite
    | intro _
    | split
    | dsimp only

theorem atClock_valveDiag (f : Fld Blk.die) (code : ℕ) (v : ℕ) {s : Device} (hs : s.AtClock fr ck) :
    (valveDiag f code v s).AtClock fr ck := by
  unfold valveDiag
  repeat' first
    | with_reducible assumption
    | with_reducible apply atClock_logEvent
    | with_reducible apply atClock_vset
    | with_reducible apply atClock_releaseValve
    | with_reducible apply Device.atClock_ite
    | intro _
    | split
    | dsimp only

theorem atClock_valveShort (v : ℕ) {s : Device} (hs : s.AtClock fr ck) :
    (valveShort v s).AtClock fr ck := by
  unfold valveShort
  repeat' first
    | with_reducible assumption
    | with_reducible apply atClock_valveDiag
    | intro _
    | split
    | dsimp only

theorem atClock_boostWritten (was : Bool) {s : Device} (hs : s.AtClock fr ck) :
    (boostWritten was s).AtClock fr ck := by
  unfold boostWritten
  repeat' first
    | with_reducible assumption
    | with_reducible apply Device.atClock_modSup
    | with_reducible apply Device.atClock_ite
    | intro _
    | split
    | dsimp only

theorem atClock_stateValves {s : Device} (hs : s.AtClock fr ck) :
    (stateValves s).AtClock fr ck := by
  unfold stateValves
  repeat' first
    | with_reducible assumption
    | with_reducible apply atClock_bankRow
    | with_reducible apply Device.atClock_each
    | intro _
    | split
    | dsimp only

theorem atClock_vreqRefuse (code : ℕ) (r : VReq) {s : Device} (hs : s.AtClock fr ck) :
    (vreqRefuse code r s).AtClock fr ck := by
  unfold vreqRefuse
  repeat' first
    | with_reducible assumption
    | with_reducible apply atClock_valveRefuse
    | with_reducible apply atClock_vreqDrop
    | intro _
    | split
    | dsimp only

theorem atClock_valvesHusk (d : ℕ) {s : Device} (hs : s.AtClock fr ck) :
    (valvesHusk d s).AtClock fr ck := by
  unfold valvesHusk
  repeat' first
    | with_reducible assumption
    | with_reducible apply atClock_setValvePhase
    | with_reducible apply atClock_vreqRefuse
    | with_reducible apply Device.atClock_ite
    | with_reducible apply Device.atClock_foldl
    | with_reducible apply Device.atClock_each
    | intro _
    | split
    | dsimp only

theorem atClock_clampTest (v : ℕ) {s : Device} (hs : s.AtClock fr ck) :
    (clampTest v s).AtClock fr ck := by
  unfold clampTest
  repeat' first
    | with_reducible assumption
    | with_reducible apply atClock_vset
    | with_reducible apply Device.atClock_setReg
    | with_reducible apply Device.atClock_ite
    | intro _
    | split
    | dsimp only

theorem atClock_vbstCfgWrite (data : Sys2Proof.Word) {s : Device} (hs : s.AtClock fr ck) :
    (vbstCfgWrite data s).AtClock fr ck := by
  unfold vbstCfgWrite
  repeat' first
    | with_reducible assumption
    | with_reducible apply atClock_boostWritten
    | with_reducible apply atClock_clampTest
    | with_reducible apply Device.atClock_setReg
    | with_reducible apply Device.atClock_ite
    | with_reducible apply Device.atClock_each
    | intro _
    | split
    | dsimp only

theorem atClock_seatDone (seat : Option ℕ) (p : Seat) {s : Device} (hs : s.AtClock fr ck) :
    (seatDone seat p s).AtClock fr ck := by
  unfold seatDone
  repeat' first
    | with_reducible assumption
    | with_reducible apply Device.atClock_modEng
    | with_reducible apply Device.atClock_ite
    | intro _
    | split
    | dsimp only

theorem atClock_offDue (r : VReq) {s : Device} (hs : s.AtClock fr ck) :
    (offDue r s).AtClock fr ck := by
  unfold offDue
  repeat' first
    | with_reducible assumption
    | with_reducible apply atClock_vreqDrop
    | with_reducible apply atClock_vreqRefuse
    | with_reducible apply atClock_releaseValve
    | with_reducible apply atClock_seatDone
    | with_reducible apply Device.atClock_ite
    | intro _
    | split
    | dsimp only

theorem atClock_vreqMod (r : VReq) (f : VReq → VReq) {s : Device} (hs : s.AtClock fr ck) :
    (vreqMod r f s).AtClock fr ck := by
  unfold vreqMod
  repeat' first
    | with_reducible assumption
    | with_reducible apply Device.atClock_ite
    | with_reducible apply Device.atClock_mk
    | with_reducible apply Device.AtClock.both
    | intro _
    | split
    | dsimp only

theorem atClock_onDue (r : VReq) {s : Device} (hs : s.AtClock fr ck) :
    (onDue r s).AtClock fr ck := by
  unfold onDue
  repeat' first
    | with_reducible assumption
    | with_reducible apply atClock_seatDone
    | with_reducible apply atClock_vreqDrop
    | with_reducible apply atClock_vreqRefuse
    | with_reducible apply atClock_vreqMod
    | with_reducible apply atClock_pullStart
    | with_reducible apply Device.atClock_dinc
    | with_reducible apply Device.atClock_ite
    | intro _
    | split
    | dsimp only

theorem atClock_valveEvent (v : ℕ) (on : Bool) {s : Device} (hs : s.AtClock fr ck) :
    (valveEvent v on s).AtClock fr ck := by
  unfold valveEvent
  repeat' first
    | with_reducible assumption
    | with_reducible apply atClock_onDue
    | with_reducible apply atClock_offDue
    | with_reducible apply Device.atClock_ite
    | intro _
    | split
    | dsimp only

theorem atClock_valveCfgWrite (v : ℕ) (data : Sys2Proof.Word) {s : Device} (hs : s.AtClock fr ck) :
    (valveCfgWrite v data s).AtClock fr ck := by
  unfold valveCfgWrite
  repeat' first
    | with_reducible assumption
    | with_reducible apply Device.atClock_setReg
    | intro _
    | split
    | dsimp only

theorem atClock_valveSeatReq (g : ℕ) (on : Bool) {s : Device} (hs : s.AtClock fr ck) :
    (valveSeatReq g on s).AtClock fr ck := by
  unfold valveSeatReq
  repeat' first
    | with_reducible assumption
    | with_reducible apply atClock_valveAccept
    | intro _
    | split
    | dsimp only

theorem atClock_handoverValves {s : Device} (hs : s.AtClock fr ck) :
    (handoverValves s).AtClock fr ck := by
  unfold handoverValves
  repeat' first
    | with_reducible assumption
    | with_reducible apply atClock_releaseValve
    | with_reducible apply atClock_bankRow
    | with_reducible apply Device.atClock_ite
    | with_reducible apply Device.atClock_each
    | intro _
    | split
    | dsimp only

theorem atClock_boostOv {s : Device} (hs : s.AtClock fr ck) :
    (boostOv s).AtClock fr ck := by
  unfold boostOv
  repeat' first
    | with_reducible assumption
    | with_reducible apply Device.atClock_pset
    | intro _
    | split
    | dsimp only

theorem atClock_valveSlow (v : ℕ) {s : Device} (hs : s.AtClock fr ck) :
    (valveSlow v s).AtClock fr ck := by
  unfold valveSlow
  repeat' first
    | with_reducible assumption
    | with_reducible apply atClock_valveDiag
    | with_reducible apply Device.atClock_ite
    | intro _
    | split
    | dsimp only

theorem atClock_valveBatonExpiry (b : Sys2Proof.ValveBaton) {s : Device} (hs : s.AtClock fr ck) :
    (valveBatonExpiry b s).AtClock fr ck := by
  unfold valveBatonExpiry
  repeat' first
    | with_reducible assumption
    | with_reducible apply atClock_logEvent
    | with_reducible apply atClock_valveBatons
    | with_reducible apply Device.atClock_setBanks
    | with_reducible apply Device.atClock_setGrants
    | with_reducible apply Device.atClock_pset
    | with_reducible apply Device.atClock_ite
    | intro _
    | split
    | dsimp only

theorem atClock_storeRelease {s : Device} (hs : s.AtClock fr ck) :
    (storeRelease s).AtClock fr ck := by
  unfold storeRelease
  repeat' first
    | with_reducible assumption
    | with_reducible apply Device.atClock_modSup
    | with_reducible apply atClock_releaseValve
    | with_reducible apply atClock_logEvent
    | with_reducible apply atClock_vset
    | with_reducible apply Device.atClock_ite
    | intro _
    | split
    | dsimp only

theorem atClock_valveCleared (v : ℕ) {s : Device} (hs : s.AtClock fr ck) :
    (valveCleared v s).AtClock fr ck := by
  unfold valveCleared
  repeat' first
    | with_reducible assumption
    | with_reducible apply atClock_setValvePhase
    | with_reducible apply atClock_modCoil
    | with_reducible apply Device.atClock_ite
    | intro _
    | split
    | dsimp only

theorem atClock_pullInStart (v : ℕ) {s : Device} (hs : s.AtClock fr ck) :
    (pullInStart v s).AtClock fr ck := by
  unfold pullInStart
  repeat' first
    | with_reducible assumption
    | with_reducible apply atClock_onDue
    | with_reducible apply Device.atClock_ite
    | intro _
    | split
    | dsimp only

theorem atClock_chopPeriod (v : ℕ) (imeas : ℕ) {s : Device} (hs : s.AtClock fr ck) :
    (chopPeriod v imeas s).AtClock fr ck := by
  unfold chopPeriod
  repeat' first
    | with_reducible assumption
    | with_reducible apply atClock_vset
    | with_reducible apply atClock_modCoil
    | with_reducible apply Device.atClock_ite
    | intro _
    | split
    | dsimp only

theorem atClock_valveOpen (v : ℕ) {s : Device} (hs : s.AtClock fr ck) :
    (valveOpen v s).AtClock fr ck := by
  unfold valveOpen
  repeat' first
    | with_reducible assumption
    | with_reducible apply atClock_valveDiag
    | with_reducible apply Device.atClock_ite
    | intro _
    | split
    | dsimp only

theorem atClock_valveSlip (v : ℕ) {s : Device} (hs : s.AtClock fr ck) :
    (valveSlip v s).AtClock fr ck := by
  unfold valveSlip
  repeat' first
    | with_reducible assumption
    | with_reducible apply atClock_vreqRefuse
    | with_reducible apply Device.atClock_ite
    | intro _
    | split
    | dsimp only

theorem atClock_pullEnd (d : ℕ) {s : Device} (hs : s.AtClock fr ck) :
    (pullEnd d s).AtClock fr ck := by
  unfold pullEnd
  repeat' first
    | with_reducible assumption
    | with_reducible apply atClock_seatDone
    | with_reducible apply atClock_modCoil
    | with_reducible apply atClock_setValvePhase
    | with_reducible apply atClock_pullFree
    | with_reducible apply Device.atClock_ite
    | intro _
    | split
    | dsimp only

theorem atClock_valveModeWrite (v : ℕ) (data : Sys2Proof.Word) {s : Device} (hs : s.AtClock fr ck) :
    (valveModeWrite v data s).AtClock fr ck := by
  unfold valveModeWrite
  repeat' first
    | with_reducible assumption
    | with_reducible apply atClock_clampTest
    | with_reducible apply Device.atClock_setReg
    | intro _
    | split
    | dsimp only

theorem atClock_releaseToOff (v : ℕ) {s : Device} (hs : s.AtClock fr ck) :
    (releaseToOff v s).AtClock fr ck := by
  unfold releaseToOff
  repeat' first
    | with_reducible assumption
    | with_reducible apply atClock_valveCleared
    | with_reducible apply atClock_vset
    | with_reducible apply atClock_setValvePhase
    | with_reducible apply Device.atClock_ite
    | intro _
    | split
    | dsimp only

theorem atClock_schedulerStart {s : Device} (hs : s.AtClock fr ck) :
    (schedulerStart s).AtClock fr ck := by
  unfold schedulerStart
  repeat' first
    | with_reducible assumption
    | with_reducible apply atClock_valveBatons
    | with_reducible apply atClock_bankPending
    | with_reducible apply Device.atClock_each
    | with_reducible apply Device.atClock_mk
    | with_reducible apply Device.AtClock.both
    | intro _
    | split
    | dsimp only

/-! Supply. -/

theorem atClock_supplyForce {s : Device} (hs : s.AtClock fr ck) :
    (supplyForce s).AtClock fr ck := by
  unfold supplyForce
  repeat' first
    | with_reducible assumption
    | with_reducible apply Device.atClock_pforce
    | with_reducible apply Device.atClock_each
    | intro _
    | split
    | dsimp only

theorem atClock_modSeq (f : Seq → Seq) {s : Device} (hs : s.AtClock fr ck) :
    (modSeq f s).AtClock fr ck := by
  unfold modSeq
  repeat' first
    | with_reducible assumption
    | with_reducible apply Device.atClock_modSup
    | intro _
    | split
    | dsimp only

theorem atClock_seqEnd (code : ℕ) {s : Device} (hs : s.AtClock fr ck) :
    (seqEnd code s).AtClock fr ck := by
  unfold seqEnd
  repeat' first
    | with_reducible assumption
    | with_reducible apply atClock_modSeq
    | with_reducible apply Device.atClock_pset
    | intro _
    | split
    | dsimp only

theorem atClock_railOff1 (r : ℕ) {s : Device} (hs : s.AtClock fr ck) :
    (railOff1 r s).AtClock fr ck := by
  unfold railOff1
  repeat' first
    | with_reducible assumption
    | with_reducible apply Device.atClock_modSar
    | with_reducible apply Device.atClock_psetBit
    | with_reducible apply Device.atClock_pset
    | intro _
    | split
    | dsimp only

theorem atClock_depC {s : Device} (hs : s.AtClock fr ck) :
    (depC s).AtClock fr ck := by
  unfold depC
  repeat' first
    | with_reducible assumption
    | with_reducible apply atClock_railOff1
    | with_reducible apply Device.atClock_pset
    | with_reducible apply Device.atClock_ite
    | intro _
    | split
    | dsimp only

theorem atClock_railOff (r : ℕ) {s : Device} (hs : s.AtClock fr ck) :
    (railOff r s).AtClock fr ck := by
  unfold railOff
  repeat' first
    | with_reducible assumption
    | with_reducible apply atClock_railOff1
    | with_reducible apply atClock_depC
    | with_reducible apply Device.atClock_ite
    | intro _
    | split
    | dsimp only

theorem atClock_seqOffNext {s : Device} (hs : s.AtClock fr ck) :
    (seqOffNext s).AtClock fr ck := by
  unfold seqOffNext
  repeat' first
    | with_reducible assumption
    | with_reducible apply atClock_seqEnd
    | with_reducible apply atClock_modSeq
    | with_reducible apply atClock_railOff
    | intro _
    | split
    | dsimp only

theorem atClock_seqOff (set : List ℕ) {s : Device} (hs : s.AtClock fr ck) :
    (seqOff set s).AtClock fr ck := by
  unfold seqOff
  repeat' first
    | with_reducible assumption
    | with_reducible apply atClock_seqOffNext
    | with_reducible apply atClock_modSeq
    | with_reducible apply Device.atClock_pset
    | intro _
    | split
    | dsimp only

theorem atClock_seqOffHold {s : Device} (hs : s.AtClock fr ck) :
    (seqOffHold s).AtClock fr ck := by
  unfold seqOffHold
  repeat' first
    | with_reducible assumption
    | with_reducible apply atClock_seqOff
    | with_reducible apply atClock_modSeq
    | intro _
    | split
    | dsimp only

theorem atClock_railOn (r : ℕ) {s : Device} (hs : s.AtClock fr ck) :
    (railOn r s).AtClock fr ck := by
  unfold railOn
  repeat' first
    | with_reducible assumption
    | with_reducible apply Device.atClock_modSar
    | with_reducible apply Device.atClock_modSup
    | with_reducible apply Device.atClock_pset
    | with_reducible apply Device.atClock_ite
    | intro _
    | split
    | dsimp only

theorem atClock_seqNext {s : Device} (hs : s.AtClock fr ck) :
    (seqNext s).AtClock fr ck := by
  unfold seqNext
  repeat' first
    | with_reducible assumption
    | with_reducible apply atClock_modSeq
    | with_reducible apply atClock_seqEnd
    | intro _
    | split
    | dsimp only

theorem atClock_seqAdvance {s : Device} (hs : s.AtClock fr ck) :
    (seqAdvance s).AtClock fr ck := by
  unfold seqAdvance
  repeat' first
    | with_reducible assumption
    | with_reducible apply atClock_seqNext
    | with_reducible apply Device.atClock_ite
    | intro _
    | split
    | dsimp only

theorem atClock_seqDelay {s : Device} (hs : s.AtClock fr ck) :
    (seqDelay s).AtClock fr ck := by
  unfold seqDelay
  repeat' first
    | with_reducible assumption
    | with_reducible apply atClock_seqOffNext
    | with_reducible apply atClock_modSeq
    | with_reducible apply atClock_seqEnd
    | with_reducible apply atClock_railOn
    | with_reducible apply atClock_seqAdvance
    | with_reducible apply Device.atClock_pset
    | with_reducible apply Device.atClock_ite
    | with_reducible apply Device.atClock_each
    | intro _
    | split
    | dsimp only

theorem atClock_railLatch (ov : Bool) (r : ℕ) (mv : ℕ) {s : Device} (hs : s.AtClock fr ck) :
    (railLatch ov r mv s).AtClock fr ck := by
  unfold railLatch
  repeat' first
    | with_reducible assumption
    | with_reducible apply atClock_railOff
    | with_reducible apply atClock_logEvent
    | with_reducible apply atClock_seqEnd
    | with_reducible apply Device.atClock_pset
    | with_reducible apply Device.atClock_ite
    | intro _
    | split
    | dsimp only

theorem atClock_railReading (r : ℕ) (mv : ℕ) {s : Device} (hs : s.AtClock fr ck) :
    (railReading r mv s).AtClock fr ck := by
  unfold railReading
  repeat' first
    | with_reducible assumption
    | with_reducible apply atClock_railLatch
    | with_reducible apply Device.atClock_modSup
    | with_reducible apply Device.atClock_modSar
    | with_reducible apply atClock_seqAdvance
    | with_reducible apply atClock_depC
    | with_reducible apply Device.atClock_psetBit
    | with_reducible apply Device.atClock_ite
    | intro _
    | split
    | dsimp only

theorem atClock_ikeepMeasured (ikeep : ℤ) {s : Device} (hs : s.AtClock fr ck) :
    (ikeepMeasured ikeep s).AtClock fr ck := by
  unfold ikeepMeasured
  repeat' first
    | with_reducible assumption
    | with_reducible apply Device.atClock_modSup
    | with_reducible apply Device.atClock_pset
    | intro _
    | split
    | dsimp only

theorem atClock_ikeepOpen {s : Device} (hs : s.AtClock fr ck) :
    (ikeepOpen s).AtClock fr ck := by
  unfold ikeepOpen
  repeat' first
    | with_reducible assumption
    | with_reducible apply Device.atClock_nextFree
    | with_reducible apply atClock_ikeepMeasured
    | with_reducible apply Device.atClock_ite
    | intro _
    | split
    | dsimp only

theorem atClock_auxOnWrite (data : Sys2Proof.Word) {s : Device} (hs : s.AtClock fr ck) :
    (auxOnWrite data s).AtClock fr ck := by
  unfold auxOnWrite
  repeat' first
    | with_reducible assumption
    | with_reducible apply atClock_railOff
    | with_reducible apply atClock_railOn
    | with_reducible apply Device.atClock_pset
    | with_reducible apply Device.atClock_ite
    | with_reducible apply Device.atClock_each
    | intro _
    | split
    | dsimp only

theorem atClock_seqOn (set : List ℕ) {s : Device} (hs : s.AtClock fr ck) :
    (seqOn set s).AtClock fr ck := by
  unfold seqOn
  repeat' first
    | with_reducible assumption
    | with_reducible apply atClock_seqNext
    | with_reducible apply atClock_modSeq
    | with_reducible apply Device.atClock_pset
    | intro _
    | split
    | dsimp only

theorem atClock_auxCtlWrite (data : Sys2Proof.Word) {s : Device} (hs : s.AtClock fr ck) :
    (auxCtlWrite data s).AtClock fr ck := by
  unfold auxCtlWrite
  repeat' first
    | with_reducible assumption
    | with_reducible apply atClock_auxOnWrite
    | with_reducible apply atClock_seqOn
    | with_reducible apply atClock_seqOff
    | with_reducible apply Device.atClock_ite
    | intro _
    | split
    | dsimp only

theorem atClock_auxUv (r : ℕ) {s : Device} (hs : s.AtClock fr ck) :
    (auxUv r s).AtClock fr ck := by
  unfold auxUv
  repeat' first
    | with_reducible assumption
    | with_reducible apply atClock_railLatch
    | with_reducible apply Device.atClock_ite
    | intro _
    | split
    | dsimp only

theorem atClock_supplSet (on : Bool) {s : Device} (hs : s.AtClock fr ck) :
    (supplSet on s).AtClock fr ck := by
  unfold supplSet
  repeat' first
    | with_reducible assumption
    | with_reducible apply atClock_ikeepOpen
    | with_reducible apply Device.atClock_pset
    | with_reducible apply Device.atClock_ite
    | intro _
    | split
    | dsimp only

theorem atClock_supplCheck {s : Device} (hs : s.AtClock fr ck) :
    (supplCheck s).AtClock fr ck := by
  unfold supplCheck
  repeat' first
    | with_reducible assumption
    | with_reducible apply atClock_supplSet
    | with_reducible apply Device.atClock_ite
    | intro _
    | split
    | dsimp only

theorem atClock_storeBoundary {s : Device} (hs : s.AtClock fr ck) :
    (storeBoundary s).AtClock fr ck := by
  unfold storeBoundary
  repeat' first
    | with_reducible assumption
    | with_reducible apply Device.atClock_modSup
    | with_reducible apply Device.atClock_pset
    | with_reducible apply Device.atClock_setReg
    | with_reducible apply Device.atClock_ite
    | intro _
    | split
    | dsimp only

theorem atClock_chargerEnter (c : ℕ) {s : Device} (hs : s.AtClock fr ck) :
    (chargerEnter c s).AtClock fr ck := by
  unfold chargerEnter
  repeat' first
    | with_reducible assumption
    | with_reducible apply Device.atClock_modSup
    | with_reducible apply Device.atClock_pset
    | with_reducible apply Device.atClock_ite
    | intro _
    | split
    | dsimp only

theorem atClock_qualRestart {s : Device} (hs : s.AtClock fr ck) :
    (qualRestart s).AtClock fr ck := by
  unfold qualRestart
  repeat' first
    | with_reducible assumption
    | with_reducible apply Device.atClock_modSup
    | intro _
    | split
    | dsimp only

theorem atClock_vbusBelowRise {s : Device} (hs : s.AtClock fr ck) :
    (vbusBelowRise s).AtClock fr ck := by
  unfold vbusBelowRise
  repeat' first
    | with_reducible assumption
    | with_reducible apply Device.atClock_modSup
    | with_reducible apply atClock_qualRestart
    | intro _
    | split
    | dsimp only

theorem atClock_supplement (on : Bool) {s : Device} (hs : s.AtClock fr ck) :
    (supplement on s).AtClock fr ck := by
  unfold supplement
  repeat' first
    | with_reducible assumption
    | with_reducible apply atClock_supplSet
    | with_reducible apply Device.atClock_ite
    | intro _
    | split
    | dsimp only

theorem atClock_gleanRise {s : Device} (hs : s.AtClock fr ck) :
    (gleanRise s).AtClock fr ck := by
  unfold gleanRise
  repeat' first
    | with_reducible assumption
    | with_reducible apply Device.atClock_modGlean
    | with_reducible apply Device.atClock_each
    | intro _
    | split
    | dsimp only

theorem atClock_vbusNotGood {s : Device} (hs : s.AtClock fr ck) :
    (vbusNotGood s).AtClock fr ck := by
  unfold vbusNotGood
  repeat' first
    | with_reducible assumption
    | with_reducible apply Device.atClock_modGlean
    | with_reducible apply Device.atClock_pset
    | with_reducible apply Device.atClock_ite
    | intro _
    | split
    | dsimp only

theorem atClock_chargerTimeout {s : Device} (hs : s.AtClock fr ck) :
    (chargerTimeout s).AtClock fr ck := by
  unfold chargerTimeout
  repeat' first
    | with_reducible assumption
    | with_reducible apply atClock_ikeepOpen
    | with_reducible apply Device.atClock_pset
    | with_reducible apply Device.atClock_ite
    | intro _
    | split
    | dsimp only

theorem atClock_keepBand (t : ℤ) {s : Device} (hs : s.AtClock fr ck) :
    (keepBand t s).AtClock fr ck := by
  unfold keepBand
  repeat' first
    | with_reducible assumption
    | with_reducible apply Device.atClock_modSup
    | with_reducible apply Device.atClock_pset
    | intro _
    | split
    | dsimp only

theorem atClock_keepBoundary {s : Device} (hs : s.AtClock fr ck) :
    (keepBoundary s).AtClock fr ck := by
  unfold keepBoundary
  repeat' first
    | with_reducible assumption
    | with_reducible apply Device.atClock_modSup
    | with_reducible apply atClock_supplCheck
    | with_reducible apply atClock_keepBand
    | with_reducible apply Device.atClock_nextFree
    | with_reducible apply Device.atClock_pset
    | with_reducible apply Device.atClock_ite
    | with_reducible apply Device.atClock_foldl
    | intro _
    | split
    | dsimp only

theorem atClock_chargerChange (ikeep : ℤ) {s : Device} (hs : s.AtClock fr ck) :
    (chargerChange ikeep s).AtClock fr ck := by
  unfold chargerChange
  repeat' first
    | with_reducible assumption
    | with_reducible apply atClock_ikeepMeasured
    | with_reducible apply atClock_chargerEnter
    | intro _
    | split
    | dsimp only

theorem atClock_keepWatch (kntc : Bool) {s : Device} (hs : s.AtClock fr ck) :
    (keepWatch kntc s).AtClock fr ck := by
  unfold keepWatch
  repeat' first
    | with_reducible assumption
    | with_reducible apply Device.atClock_modSup
    | with_reducible apply Device.atClock_ite
    | intro _
    | split
    | dsimp only

theorem atClock_chargerBoundary {s : Device} (hs : s.AtClock fr ck) :
    (chargerBoundary s).AtClock fr ck := by
  unfold chargerBoundary
  repeat' first
    | with_reducible assumption
    | with_reducible apply Device.atClock_modSup
    | with_reducible apply Device.atClock_ite
    | intro _
    | split
    | dsimp only

theorem atClock_keeperPresent {s : Device} (hs : s.AtClock fr ck) :
    (keeperPresent s).AtClock fr ck := by
  unfold keeperPresent
  repeat' first
    | with_reducible assumption
    | with_reducible apply Device.atClock_modPins
    | with_reducible apply atClock_ikeepOpen
    | with_reducible apply atClock_chargerEnter
    | with_reducible apply Device.atClock_pset
    | with_reducible apply Device.atClock_ite
    | intro _
    | split
    | dsimp only

theorem atClock_thresholdWrite (ho : Bool) (data : Sys2Proof.Word) {s : Device} (hs : s.AtClock fr ck) :
    (thresholdWrite ho data s).AtClock fr ck := by
  unfold thresholdWrite
  repeat' first
    | with_reducible assumption
    | with_reducible apply atClock_gleanRise
    | with_reducible apply Device.atClock_pset
    | with_reducible apply Device.atClock_ite
    | intro _
    | split
    | dsimp only

theorem atClock_keeperRemoved {s : Device} (hs : s.AtClock fr ck) :
    (keeperRemoved s).AtClock fr ck := by
  unfold keeperRemoved
  repeat' first
    | with_reducible assumption
    | with_reducible apply Device.atClock_modPins
    | with_reducible apply atClock_ikeepOpen
    | with_reducible apply atClock_logEvent
    | with_reducible apply atClock_seqCmd
    | with_reducible apply Device.atClock_pset
    | with_reducible apply Device.atClock_ite
    | with_reducible apply Device.atClock_each
    | intro _
    | split
    | dsimp only

/-! SarConv. -/

theorem atClock_vrefxCheck (c : ℕ) (d : ℕ) {s : Device} (hs : s.AtClock fr ck) :
    (vrefxCheck c d s).AtClock fr ck := by
  unfold vrefxCheck
  repeat' first
    | with_reducible assumption
    | with_reducible apply Device.atClock_modSar
    | with_reducible apply Device.atClock_dset
    | with_reducible apply Device.atClock_ite
    | intro _
    | split
    | dsimp only

theorem atClock_btempReading (c : ℕ) (d : ℕ) {s : Device} (hs : s.AtClock fr ck) :
    (btempReading c d s).AtClock fr ck := by
  unfold btempReading
  repeat' first
    | with_reducible assumption
    | with_reducible apply Device.atClock_dset
    | with_reducible apply Device.atClock_modSar
    | with_reducible apply Device.atClock_ite
    | intro _
    | split
    | dsimp only

theorem atClock_sarSelf (p : ℕ) (c : ℕ) (d : ℕ) {s : Device} (hs : s.AtClock fr ck) :
    (sarSelf p c d s).AtClock fr ck := by
  unfold sarSelf
  repeat' first
    | with_reducible assumption
    | with_reducible apply Device.atClock_modSar
    | with_reducible apply Device.atClock_ite
    | intro _
    | split
    | dsimp only

theorem atClock_inputSwitch {s : Device} (hs : s.AtClock fr ck) :
    (inputSwitch s).AtClock fr ck := by
  unfold inputSwitch
  repeat' first
    | with_reducible assumption
    | with_reducible apply Device.atClock_nextFree
    | with_reducible apply Device.atClock_pset
    | with_reducible apply Device.atClock_ite
    | intro _
    | split
    | dsimp only

theorem atClock_vkeepReading (c : ℕ) {s : Device} (hs : s.AtClock fr ck) :
    (vkeepReading c s).AtClock fr ck := by
  unfold vkeepReading
  repeat' first
    | with_reducible assumption
    | with_reducible apply Device.atClock_nextFree
    | with_reducible apply atClock_keepWatch
    | with_reducible apply atClock_supplCheck
    | with_reducible apply Device.atClock_pset
    | with_reducible apply Device.atClock_ite
    | intro _
    | split
    | dsimp only

theorem atClock_vbstReading (c : ℕ) {s : Device} (hs : s.AtClock fr ck) :
    (vbstReading c s).AtClock fr ck := by
  unfold vbstReading
  repeat' first
    | with_reducible assumption
    | with_reducible apply Device.atClock_modSar
    | with_reducible apply atClock_boostOv
    | with_reducible apply Device.atClock_pset
    | with_reducible apply Device.atClock_ite
    | intro _
    | split
    | dsimp only

theorem atClock_sarLead (p : ℕ) (c : ℕ) {s : Device} (hs : s.AtClock fr ck) :
    (sarLead p c s).AtClock fr ck := by
  unfold sarLead
  repeat' first
    | with_reducible assumption
    | with_reducible apply atClock_monReading
    | with_reducible apply atClock_inputSwitch
    | with_reducible apply atClock_railReading
    | with_reducible apply atClock_vkeepReading
    | with_reducible apply atClock_keepWatch
    | with_reducible apply Device.atClock_modSup
    | with_reducible apply atClock_vbstReading
    | with_reducible apply Device.atClock_pset
    | with_reducible apply Device.atClock_ite
    | intro _
    | split
    | dsimp only

theorem atClock_sarConversion (d : ℕ) (code : ℕ) {s : Device} (hs : s.AtClock fr ck) :
    (sarConversion d code s).AtClock fr ck := by
  unfold sarConversion
  repeat' first
    | with_reducible assumption
    | with_reducible apply Device.atClock_modSar
    | with_reducible apply Device.atClock_modEng
    | with_reducible apply atClock_btempReading
    | with_reducible apply atClock_vrefxCheck
    | with_reducible apply atClock_sarSelf
    | with_reducible apply atClock_sarLead
    | with_reducible apply Device.atClock_ite
    | intro _
    | split
    | dsimp only

theorem atClock_vrefxReturn (d : ℕ) {s : Device} (hs : s.AtClock fr ck) :
    (vrefxReturn d s).AtClock fr ck := by
  unfold vrefxReturn
  repeat' first
    | with_reducible assumption
    | with_reducible apply Device.atClock_modDie
    | with_reducible apply Device.atClock_ite
    | intro _
    | split
    | dsimp only

theorem atClock_sarBoundary (d : ℕ) {s : Device} (hs : s.AtClock fr ck) :
    (sarBoundary d s).AtClock fr ck := by
  unfold sarBoundary
  repeat' first
    | with_reducible assumption
    | with_reducible apply Device.atClock_dset
    | with_reducible apply Device.atClock_spend
    | with_reducible apply Device.atClock_dforce
    | with_reducible apply Device.atClock_modSar
    | with_reducible apply Device.atClock_pset
    | with_reducible apply Device.atClock_ite
    | intro _
    | split
    | dsimp only

theorem atClock_refBoundary (d : ℕ) {s : Device} (hs : s.AtClock fr ck) :
    (refBoundary d s).AtClock fr ck := by
  unfold refBoundary
  repeat' first
    | with_reducible assumption
    | with_reducible apply Device.atClock_modDie
    | with_reducible apply Device.atClock_dset
    | with_reducible apply atClock_logEvent
    | with_reducible apply Device.atClock_cset
    | with_reducible apply atClock_updateConsts
    | with_reducible apply atClock_benchAbort
    | with_reducible apply Device.atClock_ite
    | with_reducible apply Device.atClock_each
    | intro _
    | split
    | dsimp only

theorem atClock_btBoundary (d : ℕ) {s : Device} (hs : s.AtClock fr ck) :
    (btBoundary d s).AtClock fr ck := by
  unfold btBoundary
  repeat' first
    | with_reducible assumption
    | with_reducible apply Device.atClock_nextFree
    | with_reducible apply Device.atClock_dset
    | with_reducible apply Device.atClock_modSar
    | with_reducible apply Device.atClock_ite
    | with_reducible apply Device.atClock_foldl
    | intro _
    | split
    | dsimp only

theorem atClock_sarFail (d : ℕ) {s : Device} (hs : s.AtClock fr ck) :
    (sarFail d s).AtClock fr ck := by
  unfold sarFail
  repeat' first
    | with_reducible assumption
    | with_reducible apply atClock_logEvent
    | with_reducible apply Device.atClock_dset
    | with_reducible apply Device.atClock_ite
    | intro _
    | split
    | dsimp only

theorem atClock_vrefxFail (d : ℕ) {s : Device} (hs : s.AtClock fr ck) :
    (vrefxFail d s).AtClock fr ck := by
  unfold vrefxFail
  repeat' first
    | with_reducible assumption
    | with_reducible apply Device.atClock_modDie
    | with_reducible apply Device.atClock_ite
    | intro _
    | split
    | dsimp only

/-! Pulses. -/

theorem atClock_modPulse (n : ℕ) (f : Pulse → Pulse) {s : Device} (hs : s.AtClock fr ck) :
    (modPulse n f s).AtClock fr ck := by
  unfold modPulse
  repeat' first
    | with_reducible assumption
    | with_reducible apply Device.atClock_mk
    | with_reducible apply Device.AtClock.both
    | intro _
    | split
    | dsimp only

theorem atClock_pathClock (n : ℕ) (g : ℕ) (c : ℤ) (e : ℤ) {s : Device} (hs : s.AtClock fr ck) :
    (pathClock n g c e s).AtClock fr ck := by
  unfold pathClock
  repeat' first
    | with_reducible assumption
    | with_reducible apply atClock_modPulse
    | with_reducible apply Device.atClock_ite
    | intro _
    | split
    | dsimp only

theorem atClock_pulseClock (g : ℕ) (c : ℤ) (e : ℤ) {s : Device} (hs : s.AtClock fr ck) :
    (pulseClock g c e s).AtClock fr ck := by
  unfold pulseClock
  repeat' first
    | with_reducible assumption
    | with_reducible apply atClock_pathClock
    | with_reducible apply Device.atClock_ite
    | with_reducible apply Device.atClock_each
    | intro _
    | split
    | dsimp only

theorem atClock_schedule (n : ℕ) (m : ℕ) (due : ℕ) {s : Device} (hs : s.AtClock fr ck) :
    (schedule n m due s).AtClock fr ck := by
  unfold schedule
  repeat' first
    | with_reducible assumption
    | with_reducible apply atClock_modPulse
    | with_reducible apply atClock_setCat
    | with_reducible apply Device.atClock_pset
    | with_reducible apply Device.atClock_ite
    | intro _
    | split
    | dsimp only

theorem atClock_drain (n : ℕ) (due : ℕ) {s : Device} (hs : s.AtClock fr ck) :
    (drain n due s).AtClock fr ck := by
  unfold drain
  repeat' first
    | with_reducible assumption
    | with_reducible apply atClock_schedule
    | with_reducible apply atClock_modPulse
    | with_reducible apply Device.atClock_ite
    | intro _
    | split
    | dsimp only

theorem atClock_rateAdvance (n : ℕ) {s : Device} (hs : s.AtClock fr ck) :
    (rateAdvance n s).AtClock fr ck := by
  unfold rateAdvance
  repeat' first
    | with_reducible assumption
    | with_reducible apply atClock_drain
    | with_reducible apply atClock_modPulse
    | with_reducible apply Device.atClock_ite
    | intro _
    | split
    | dsimp only

theorem atClock_plsCfgWrite (n : ℕ) (k : Bool) (data : Sys2Proof.Word) {s : Device} (hs : s.AtClock fr ck) :
    (plsCfgWrite n k data s).AtClock fr ck := by
  unfold plsCfgWrite
  repeat' first
    | with_reducible assumption
    | with_reducible apply Device.atClock_setReg
    | with_reducible apply Device.atClock_ite
    | intro _
    | split
    | dsimp only

theorem atClock_plsPolarity (n : ℕ) {s : Device} (hs : s.AtClock fr ck) :
    (plsPolarity n s).AtClock fr ck := by
  unfold plsPolarity
  repeat' first
    | with_reducible assumption
    | with_reducible apply atClock_modPulse
    | with_reducible apply Device.atClock_ite
    | intro _
    | split
    | dsimp only

theorem atClock_pulseEnd (n : ℕ) {s : Device} (hs : s.AtClock fr ck) :
    (pulseEnd n s).AtClock fr ck := by
  unfold pulseEnd
  repeat' first
    | with_reducible assumption
    | with_reducible apply atClock_plsPolarity
    | with_reducible apply atClock_modPulse
    | with_reducible apply Device.atClock_ite
    | intro _
    | split
    | dsimp only

theorem atClock_putResq (n : ℕ) {s : Device} (hs : s.AtClock fr ck) :
    (putResq n s).AtClock fr ck := by
  unfold putResq
  repeat' first
    | with_reducible assumption
    | with_reducible apply Device.atClock_nextFree
    | with_reducible apply Device.atClock_pset
    | with_reducible apply Device.atClock_ite
    | intro _
    | split
    | dsimp only

theorem atClock_plsConfig (n : ℕ) {s : Device} (hs : s.AtClock fr ck) :
    (plsConfig n s).AtClock fr ck := by
  unfold plsConfig
  repeat' first
    | with_reducible assumption
    | with_reducible apply atClock_modPulse
    | with_reducible apply atClock_putResq
    | with_reducible apply atClock_plsPolarity
    | with_reducible apply Device.atClock_pset
    | with_reducible apply Device.atClock_ite
    | with_reducible apply Device.atClock_foldl
    | intro _
    | split
    | dsimp only

theorem atClock_heldBack (n : ℕ) {s : Device} (hs : s.AtClock fr ck) :
    (heldBack n s).AtClock fr ck := by
  unfold heldBack
  repeat' first
    | with_reducible assumption
    | with_reducible apply atClock_drain
    | with_reducible apply atClock_modPulse
    | with_reducible apply atClock_schedule
    | with_reducible apply Device.atClock_ite
    | intro _
    | split
    | dsimp only

theorem atClock_pulseEmit (n : ℕ) {s : Device} (hs : s.AtClock fr ck) :
    (pulseEmit n s).AtClock fr ck := by
  unfold pulseEmit
  repeat' first
    | with_reducible assumption
    | with_reducible apply atClock_modPulse
    | with_reducible apply atClock_putResq
    | with_reducible apply atClock_heldBack
    | with_reducible apply Device.atClock_pset
    | with_reducible apply Device.atClock_ite
    | intro _
    | split
    | dsimp only

theorem atClock_plsCut {s : Device} (hs : s.AtClock fr ck) :
    (plsCut s).AtClock fr ck := by
  unfold plsCut
  repeat' first
    | with_reducible assumption
    | with_reducible apply atClock_modPulse
    | with_reducible apply Device.atClock_pset
    | with_reducible apply Device.atClock_ite
    | with_reducible apply Device.atClock_each
    | intro _
    | split
    | dsimp only

theorem atClock_plsDieStop (d : ℕ) (recovery : Bool) {s : Device} (hs : s.AtClock fr ck) :
    (plsDieStop d recovery s).AtClock fr ck := by
  unfold plsDieStop
  repeat' first
    | with_reducible assumption
    | with_reducible apply atClock_modPulse
    | with_reducible apply Device.atClock_pset
    | with_reducible apply Device.atClock_ite
    | with_reducible apply Device.atClock_each
    | intro _
    | split
    | dsimp only

theorem atClock_pathBoundary (n : ℕ) (g : ℕ) (bclk : ℕ) {s : Device} (hs : s.AtClock fr ck) :
    (pathBoundary n g bclk s).AtClock fr ck := by
  unfold pathBoundary
  repeat' first
    | with_reducible assumption
    | with_reducible apply atClock_schedule
    | with_reducible apply atClock_modPulse
    | with_reducible apply atClock_drain
    | with_reducible apply Device.atClock_pset
    | with_reducible apply Device.atClock_ite
    | with_reducible apply Device.atClock_foldl
    | intro _
    | split
    | dsimp only

theorem atClock_plsFrame (n : ℕ) (bclk : ℕ) {s : Device} (hs : s.AtClock fr ck) :
    (plsFrame n bclk s).AtClock fr ck := by
  unfold plsFrame
  repeat' first
    | with_reducible assumption
    | with_reducible apply atClock_modPulse
    | with_reducible apply atClock_drain
    | with_reducible apply atClock_pathBoundary
    | with_reducible apply Device.atClock_ite
    | with_reducible apply Device.atClock_foldl
    | with_reducible apply Device.atClock_each
    | intro _
    | split
    | dsimp only

theorem atClock_plsClr (n : ℕ) (data : Sys2Proof.Word) {s : Device} (hs : s.AtClock fr ck) :
    (plsClr n data s).AtClock fr ck := by
  unfold plsClr
  repeat' first
    | with_reducible assumption
    | with_reducible apply atClock_modPulse
    | with_reducible apply Device.atClock_ite
    | intro _
    | split
    | dsimp only

theorem atClock_pathWait (n : ℕ) (g : ℕ) {s : Device} (hs : s.AtClock fr ck) :
    (pathWait n g s).AtClock fr ck := by
  unfold pathWait
  repeat' first
    | with_reducible assumption
    | with_reducible apply atClock_modPulse
    | intro _
    | split
    | dsimp only

theorem atClock_plsBook (late : Bool) (g : ℕ) (v : Conv) (a : Acc) (a' : Acc) {s : Device} (hs : s.AtClock fr ck) :
    (plsBook late g v a a' s).AtClock fr ck := by
  unfold plsBook
  repeat' first
    | with_reducible assumption
    | with_reducible apply atClock_modPulse
    | with_reducible apply Device.atClock_ite
    | with_reducible apply Device.atClock_each
    | intro _
    | split
    | dsimp only

theorem atClock_plsWait {s : Device} (hs : s.AtClock fr ck) :
    (plsWait s).AtClock fr ck := by
  unfold plsWait
  repeat' first
    | with_reducible assumption
    | with_reducible apply atClock_pathWait
    | with_reducible apply Device.atClock_ite
    | with_reducible apply Device.atClock_each
    | intro _
    | split
    | dsimp only

theorem atClock_plsBoundary (bclk : ℕ) {s : Device} (hs : s.AtClock fr ck) :
    (plsBoundary bclk s).AtClock fr ck := by
  unfold plsBoundary
  repeat' first
    | with_reducible assumption
    | with_reducible apply atClock_plsConfig
    | with_reducible apply atClock_plsFrame
    | with_reducible apply atClock_rateAdvance
    | with_reducible apply Device.atClock_each
    | intro _
    | split
    | dsimp only

/-! Tally. -/

theorem atClock_modTally (inB : Bool) (f : TallyPin → TallyPin) {s : Device} (hs : s.AtClock fr ck) :
    (modTally inB f s).AtClock fr ck := by
  unfold modTally
  repeat' first
    | with_reducible assumption
    | with_reducible apply Device.atClock_ite
    | with_reducible apply Device.atClock_mk
    | with_reducible apply Device.AtClock.both
    | intro _
    | split
    | dsimp only

theorem atClock_tallySee (inB : Bool) (level : Bool) {s : Device} (hs : s.AtClock fr ck) :
    (tallySee inB level s).AtClock fr ck := by
  unfold tallySee
  repeat' first
    | with_reducible assumption
    | with_reducible apply atClock_modTally
    | with_reducible apply Device.atClock_ite
    | intro _
    | split
    | dsimp only

theorem atClock_runPulse (inB : Bool) {s : Device} (hs : s.AtClock fr ck) :
    (runPulse inB s).AtClock fr ck := by
  unfold runPulse
  repeat' first
    | with_reducible assumption
    | with_reducible apply atClock_runStop
    | with_reducible apply Device.atClock_ite
    | with_reducible apply Device.atClock_mk
    | with_reducible apply Device.AtClock.both
    | intro _
    | split
    | dsimp only

theorem atClock_setTallyCnt (inB : Bool) (v : ℕ) {s : Device} (hs : s.AtClock fr ck) :
    (setTallyCnt inB v s).AtClock fr ck := by
  unfold setTallyCnt
  repeat' first
    | with_reducible assumption
    | with_reducible apply Device.atClock_pset
    | with_reducible apply Device.atClock_ite
    | intro _
    | split
    | dsimp only

theorem atClock_tallyEdge (inB : Bool) (level : Bool) {s : Device} (hs : s.AtClock fr ck) :
    (tallyEdge inB level s).AtClock fr ck := by
  unfold tallyEdge
  repeat' first
    | with_reducible assumption
    | with_reducible apply atClock_tallySee
    | with_reducible apply atClock_runPulse
    | with_reducible apply atClock_setTallyCnt
    | with_reducible apply Device.atClock_pset
    | with_reducible apply Device.atClock_ite
    | intro _
    | split
    | dsimp only

theorem atClock_gateOpen {s : Device} (hs : s.AtClock fr ck) :
    (gateOpen s).AtClock fr ck := by
  unfold gateOpen
  repeat' first
    | with_reducible assumption
    | with_reducible apply Device.atClock_modConv
    | with_reducible apply Device.atClock_pset
    | with_reducible apply Device.atClock_mk
    | with_reducible apply Device.AtClock.both
    | intro _
    | split
    | dsimp only

theorem atClock_runClose (data : Sys2Proof.Word) {s : Device} (hs : s.AtClock fr ck) :
    (runClose data s).AtClock fr ck := by
  unfold runClose
  repeat' first
    | with_reducible assumption
    | with_reducible apply Device.atClock_pset
    | with_reducible apply Device.atClock_ite
    | with_reducible apply Device.atClock_mk
    | with_reducible apply Device.AtClock.both
    | intro _
    | split
    | dsimp only

theorem atClock_tallyClr (data : Sys2Proof.Word) {s : Device} (hs : s.AtClock fr ck) :
    (tallyClr data s).AtClock fr ck := by
  unfold tallyClr
  repeat' first
    | with_reducible assumption
    | with_reducible apply Device.atClock_ite
    | with_reducible apply Device.atClock_mk
    | with_reducible apply Device.AtClock.both
    | intro _
    | split
    | dsimp only

theorem atClock_gateClose {s : Device} (hs : s.AtClock fr ck) :
    (gateClose s).AtClock fr ck := by
  unfold gateClose
  repeat' first
    | with_reducible assumption
    | with_reducible apply atClock_runRecord
    | with_reducible apply atClock_setCat
    | with_reducible apply Device.atClock_nextFree
    | with_reducible apply Device.atClock_pset
    | with_reducible apply Device.atClock_setReg
    | with_reducible apply Device.atClock_ite
    | with_reducible apply Device.atClock_mk
    | with_reducible apply Device.AtClock.both
    | intro _
    | split
    | dsimp only

theorem atClock_tallyBoundary {s : Device} (hs : s.AtClock fr ck) :
    (tallyBoundary s).AtClock fr ck := by
  unfold tallyBoundary
  repeat' first
    | with_reducible assumption
    | with_reducible apply atClock_gateOpen
    | with_reducible apply atClock_gateClose
    | with_reducible apply atClock_setTallyCnt
    | with_reducible apply Device.atClock_ite
    | with_reducible apply Device.atClock_mk
    | with_reducible apply Device.AtClock.both
    | intro _
    | split
    | dsimp only

theorem atClock_runAbort (data : Sys2Proof.Word) {s : Device} (hs : s.AtClock fr ck) :
    (runAbort data s).AtClock fr ck := by
  unfold runAbort
  repeat' first
    | with_reducible assumption
    | with_reducible apply atClock_runStop
    | with_reducible apply Device.atClock_ite
    | intro _
    | split
    | dsimp only

theorem atClock_runOpen (data : Sys2Proof.Word) {s : Device} (hs : s.AtClock fr ck) :
    (runOpen data s).AtClock fr ck := by
  unfold runOpen
  repeat' first
    | with_reducible assumption
    | with_reducible apply atClock_runCode
    | with_reducible apply Device.atClock_pset
    | with_reducible apply Device.atClock_ite
    | with_reducible apply Device.atClock_mk
    | with_reducible apply Device.AtClock.both
    | intro _
    | split
    | dsimp only

end Sys2Proof.Machine
end

