-- ==== Sys2Proof/Laws/AtClockStorage.lean ====
section
/-! SUPPORT. Operations of these files that leave the package clock where it is (R5). One lemma for each operation, in the order of the files. -/

set_option linter.unusedTactic false
set_option linter.unreachableTactic false
set_option linter.unusedVariables false

namespace Sys2Proof.Machine

variable {fr ck : Nat}

/-! Retain. -/

theorem atClock_retWrite (d : ℕ) {s : Device} (hs : s.AtClock fr ck) :
    (retWrite d s).AtClock fr ck := by
  unfold retWrite
  repeat' first
    | with_reducible assumption
    | with_reducible apply Device.atClock_modGlean
    | with_reducible apply Device.atClock_ite
    | intro _
    | split
    | dsimp only

theorem atClock_retCommit (d : ℕ) {s : Device} (hs : s.AtClock fr ck) :
    (retCommit d s).AtClock fr ck := by
  unfold retCommit
  repeat' first
    | with_reducible assumption
    | with_reducible apply Device.atClock_modGlean
    | with_reducible apply Device.atClock_ite
    | intro _
    | split
    | dsimp only

/-! GleanDomain. -/

theorem atClock_keepGoodRise (d : ℕ) {s : Device} (hs : s.AtClock fr ck) :
    (keepGoodRise d s).AtClock fr ck := by
  unfold keepGoodRise
  repeat' first
    | with_reducible assumption
    | with_reducible apply Device.atClock_modGlean
    | with_reducible apply Device.atClock_pset
    | with_reducible apply Device.atClock_ite
    | intro _
    | split
    | dsimp only

theorem atClock_pumpTransfer (d : ℕ) {s : Device} (hs : s.AtClock fr ck) :
    (pumpTransfer d s).AtClock fr ck := by
  unfold pumpTransfer
  repeat' first
    | with_reducible assumption
    | with_reducible apply Device.atClock_modCh
    | with_reducible apply Device.atClock_ite
    | intro _
    | split
    | dsimp only

theorem atClock_rcTrim (err : ℤ) {s : Device} (hs : s.AtClock fr ck) :
    (rcTrim err s).AtClock fr ck := by
  unfold rcTrim
  repeat' first
    | with_reducible assumption
    | with_reducible apply Device.atClock_modGlean
    | with_reducible apply Device.atClock_pset
    | with_reducible apply Device.atClock_ite
    | with_reducible apply Device.atClock_each
    | intro _
    | split
    | dsimp only

theorem atClock_gleanEnables (d : ℕ) {s : Device} (hs : s.AtClock fr ck) :
    (gleanEnables d s).AtClock fr ck := by
  unfold gleanEnables
  repeat' first
    | with_reducible assumption
    | with_reducible apply Device.atClock_modGlean
    | intro _
    | split
    | dsimp only

theorem atClock_bookTally (g : ℕ) {s : Device} (hs : s.AtClock fr ck) :
    (bookTally g s).AtClock fr ck := by
  unfold bookTally
  repeat' first
    | with_reducible assumption
    | with_reducible apply Device.atClock_cset
    | with_reducible apply atClock_plsBook
    | with_reducible apply Device.atClock_nextFree
    | with_reducible apply Device.atClock_modCh
    | with_reducible apply Device.atClock_setReg
    | with_reducible apply Device.atClock_ite
    | intro _
    | split
    | dsimp only

theorem atClock_startSequencer {s : Device} (hs : s.AtClock fr ck) :
    (startSequencer s).AtClock fr ck := by
  unfold startSequencer
  repeat' first
    | with_reducible assumption
    | with_reducible apply Device.atClock_modPins
    | with_reducible apply Device.atClock_ite
    | intro _
    | split
    | dsimp only

theorem atClock_gleanEvaluate (regular : Bool) (d : ℕ) (o : Sys2Proof.GleanObs) {s : Device} (hs : s.AtClock fr ck) :
    (gleanEvaluate regular d o s).AtClock fr ck := by
  unfold gleanEvaluate
  repeat' first
    | with_reducible assumption
    | with_reducible apply atClock_startSequencer
    | with_reducible apply Device.atClock_modGlean
    | with_reducible apply Device.atClock_ite
    | intro _
    | split
    | dsimp only

theorem atClock_gleanBooking (d : ℕ) {s : Device} (hs : s.AtClock fr ck) :
    (gleanBooking d s).AtClock fr ck := by
  unfold gleanBooking
  repeat' first
    | with_reducible assumption
    | with_reducible apply Device.atClock_modDie
    | with_reducible apply atClock_bookTally
    | with_reducible apply Device.atClock_ite
    | with_reducible apply Device.atClock_each
    | intro _
    | split
    | dsimp only

theorem atClock_keepGoodFall (d : ℕ) {s : Device} (hs : s.AtClock fr ck) :
    (keepGoodFall d s).AtClock fr ck := by
  unfold keepGoodFall
  repeat' first
    | with_reducible assumption
    | with_reducible apply Device.atClock_modCh
    | with_reducible apply Device.atClock_modGlean
    | with_reducible apply Device.atClock_pset
    | with_reducible apply Device.atClock_ite
    | with_reducible apply Device.atClock_each
    | intro _
    | split
    | dsimp only

/-! Otp. -/

theorem atClock_otpBegin (c : OtpCmd) {s : Device} (hs : s.AtClock fr ck) :
    (otpBegin c s).AtClock fr ck := by
  unfold otpBegin
  repeat' first
    | with_reducible assumption
    | with_reducible apply Device.atClock_pset
    | with_reducible apply Device.atClock_ite
    | with_reducible apply Device.atClock_mk
    | with_reducible apply Device.AtClock.both
    | intro _
    | split
    | dsimp only

theorem atClock_otpPulseStart (kind : ℕ) (d : ℕ) (a : ℕ) (mask : ℕ) (c : ℕ) (reads : List Sys2Proof.OtpRead) {s : Device} (hs : s.AtClock fr ck) :
    (otpPulseStart kind d a mask c reads s).AtClock fr ck := by
  unfold otpPulseStart
  repeat' first
    | with_reducible assumption
    | with_reducible apply atClock_otpBegin
    | with_reducible apply Device.atClock_spend
    | intro _
    | split
    | dsimp only

theorem atClock_otpEnd (result : ℕ) (aborted : Bool) {s : Device} (hs : s.AtClock fr ck) :
    (otpEnd result aborted s).AtClock fr ck := by
  unfold otpEnd
  repeat' first
    | with_reducible assumption
    | with_reducible apply atClock_logEvent
    | with_reducible apply atClock_setCat
    | with_reducible apply Device.atClock_pset
    | with_reducible apply Device.atClock_ite
    | with_reducible apply Device.atClock_mk
    | with_reducible apply Device.AtClock.both
    | intro _
    | split
    | dsimp only

theorem atClock_otpShow (r : Sys2Proof.OtpRead) {s : Device} (hs : s.AtClock fr ck) :
    (otpShow r s).AtClock fr ck := by
  unfold otpShow
  repeat' first
    | with_reducible assumption
    | with_reducible apply Device.atClock_setReg
    | with_reducible apply Device.atClock_ite
    | intro _
    | split
    | dsimp only

theorem atClock_otpDone {s : Device} (hs : s.AtClock fr ck) :
    (otpDone s).AtClock fr ck := by
  unfold otpDone
  repeat' first
    | with_reducible assumption
    | with_reducible apply atClock_otpShow
    | with_reducible apply Device.atClock_modDie
    | with_reducible apply atClock_otpEnd
    | with_reducible apply Device.atClock_ite
    | intro _
    | split
    | dsimp only

theorem atClock_otpRefuse (code : ℕ) {s : Device} (hs : s.AtClock fr ck) :
    (otpRefuse code s).AtClock fr ck := by
  unfold otpRefuse
  repeat' first
    | with_reducible assumption
    | with_reducible apply atClock_setCat
    | with_reducible apply Device.atClock_pset
    | intro _
    | split
    | dsimp only

theorem atClock_otpReadCmd (d : ℕ) (a : ℕ) {s : Device} (hs : s.AtClock fr ck) :
    (otpReadCmd d a s).AtClock fr ck := by
  unfold otpReadCmd
  repeat' first
    | with_reducible assumption
    | with_reducible apply atClock_otpRefuse
    | with_reducible apply atClock_otpBegin
    | with_reducible apply Device.atClock_ite
    | intro _
    | split
    | dsimp only

theorem atClock_otpLock (d : ℕ) (region : ℕ) (force : Bool) (reads : List Sys2Proof.OtpRead) {s : Device} (hs : s.AtClock fr ck) :
    (otpLock d region force reads s).AtClock fr ck := by
  unfold otpLock
  repeat' first
    | with_reducible assumption
    | with_reducible apply atClock_otpRefuse
    | with_reducible apply atClock_otpPulseStart
    | with_reducible apply Device.atClock_ite
    | intro _
    | split
    | dsimp only

theorem atClock_otpSummary {s : Device} (hs : s.AtClock fr ck) :
    (otpSummary s).AtClock fr ck := by
  unfold otpSummary
  repeat' first
    | with_reducible assumption
    | with_reducible apply Device.atClock_pset
    | with_reducible apply Device.atClock_ite
    | intro _
    | split
    | dsimp only

theorem atClock_compatFixed {s : Device} (hs : s.AtClock fr ck) :
    (compatFixed s).AtClock fr ck := by
  unfold compatFixed
  repeat' first
    | with_reducible assumption
    | with_reducible apply Device.atClock_modNvm
    | with_reducible apply Device.atClock_pset
    | with_reducible apply Device.atClock_ite
    | intro _
    | split
    | dsimp only

theorem atClock_otpCutShort {s : Device} (hs : s.AtClock fr ck) :
    (otpCutShort s).AtClock fr ck := by
  unfold otpCutShort
  repeat' first
    | with_reducible assumption
    | with_reducible apply Device.atClock_modDie
    | with_reducible apply Device.atClock_spend
    | with_reducible apply atClock_otpEnd
    | with_reducible apply Device.atClock_ite
    | intro _
    | split
    | dsimp only

theorem atClock_otpLoad (d : ℕ) {s : Device} (hs : s.AtClock fr ck) :
    (otpLoad d s).AtClock fr ck := by
  unfold otpLoad
  repeat' first
    | with_reducible assumption
    | with_reducible apply atClock_logEvent
    | with_reducible apply Device.atClock_dset
    | with_reducible apply Device.atClock_nextFree
    | with_reducible apply Device.atClock_modDie
    | with_reducible apply atClock_otpSummary
    | with_reducible apply atClock_compatFixed
    | with_reducible apply Device.atClock_setReg
    | with_reducible apply Device.atClock_pset
    | with_reducible apply Device.atClock_ite
    | with_reducible apply Device.atClock_foldl
    | intro _
    | split
    | dsimp only

theorem atClock_otpReinforce (d : ℕ) (a : ℕ) (reads : List Sys2Proof.OtpRead) {s : Device} (hs : s.AtClock fr ck) :
    (otpReinforce d a reads s).AtClock fr ck := by
  unfold otpReinforce
  repeat' first
    | with_reducible assumption
    | with_reducible apply atClock_otpRefuse
    | with_reducible apply atClock_otpPulseStart
    | with_reducible apply Device.atClock_ite
    | intro _
    | split
    | dsimp only

theorem atClock_otpPumpExpiry {s : Device} (hs : s.AtClock fr ck) :
    (otpPumpExpiry s).AtClock fr ck := by
  unfold otpPumpExpiry
  repeat' first
    | with_reducible assumption
    | with_reducible apply atClock_logEvent
    | with_reducible apply atClock_otpCutShort
    | with_reducible apply Device.atClock_pset
    | with_reducible apply Device.atClock_ite
    | intro _
    | split
    | dsimp only

theorem atClock_otpProgram (d : ℕ) (a : ℕ) (data : ℕ) (reads : List Sys2Proof.OtpRead) {s : Device} (hs : s.AtClock fr ck) :
    (otpProgram d a data reads s).AtClock fr ck := by
  unfold otpProgram
  repeat' first
    | with_reducible assumption
    | with_reducible apply atClock_otpRefuse
    | with_reducible apply atClock_otpPulseStart
    | with_reducible apply Device.atClock_ite
    | intro _
    | split
    | dsimp only

/-! Stored. -/

theorem atClock_afterStore (a : ℕ) {s : Device} (hs : s.AtClock fr ck) :
    (afterStore a s).AtClock fr ck := by
  unfold afterStore
  repeat' first
    | with_reducible assumption
    | with_reducible apply atClock_clampTest
    | with_reducible apply atClock_gleanRise
    | with_reducible apply Device.atClock_ite
    | with_reducible apply Device.atClock_each
    | intro _
    | split
    | dsimp only

theorem atClock_storeFields (mask : Sys2Proof.Word) (a : ℕ) (w : Sys2Proof.Word) {s : Device} (hs : s.AtClock fr ck) :
    (storeFields mask a w s).AtClock fr ck := by
  unfold storeFields
  repeat' first
    | with_reducible assumption
    | with_reducible apply atClock_afterStore
    | with_reducible apply Device.atClock_setReg
    | with_reducible apply Device.atClock_ite
    | intro _
    | split
    | dsimp only

theorem atClock_loadWord (mask : Sys2Proof.Word) (a : ℕ) (w : Sys2Proof.Word) {s : Device} (hs : s.AtClock fr ck) :
    (loadWord mask a w s).AtClock fr ck := by
  unfold loadWord
  repeat' first
    | with_reducible assumption
    | with_reducible apply atClock_storeFields
    | with_reducible apply atClock_afterStore
    | with_reducible apply Device.atClock_setReg
    | with_reducible apply Device.atClock_ite
    | intro _
    | split
    | dsimp only

theorem atClock_forceDie (d : ℕ) {s : Device} (hs : s.AtClock fr ck) :
    (forceDie d s).AtClock fr ck := by
  unfold forceDie
  repeat' first
    | with_reducible assumption
    | with_reducible apply Device.atClock_foldl
    | with_reducible apply Device.atClock_mk
    | with_reducible apply Device.AtClock.both
    | intro _
    | split
    | dsimp only

theorem atClock_settleDie (d : ℕ) {s : Device} (hs : s.AtClock fr ck) :
    (settleDie d s).AtClock fr ck := by
  unfold settleDie
  repeat' first
    | with_reducible assumption
    | with_reducible apply atClock_baseReset
    | with_reducible apply atClock_constLoad
    | with_reducible apply atClock_resetLive
    | with_reducible apply atClock_forceDie
    | with_reducible apply Device.atClock_modDie
    | with_reducible apply Device.atClock_ite
    | with_reducible apply Device.atClock_each
    | intro _
    | split
    | dsimp only

theorem atClock_thresholdLoad {s : Device} (hs : s.AtClock fr ck) :
    (thresholdLoad s).AtClock fr ck := by
  unfold thresholdLoad
  repeat' first
    | with_reducible assumption
    | with_reducible apply atClock_gleanRise
    | with_reducible apply Device.atClock_pset
    | with_reducible apply Device.atClock_ite
    | intro _
    | split
    | dsimp only

/-! Flash. -/

theorem atClock_recipeBad (d : ℕ) (id : ℕ) (step : ℕ) {s : Device} (hs : s.AtClock fr ck) :
    (recipeBad d id step s).AtClock fr ck := by
  unfold recipeBad
  repeat' first
    | with_reducible assumption
    | with_reducible apply atClock_logEvent
    | intro _
    | split
    | dsimp only

theorem atClock_sectionBad (typ : ℕ) (die : ℕ) (ch : ℕ) {s : Device} (hs : s.AtClock fr ck) :
    (sectionBad typ die ch s).AtClock fr ck := by
  unfold sectionBad
  repeat' first
    | with_reducible assumption
    | with_reducible apply atClock_logEvent
    | with_reducible apply Device.atClock_pset
    | with_reducible apply Device.atClock_pinc
    | with_reducible apply Device.atClock_ite
    | intro _
    | split
    | dsimp only

theorem atClock_loadRecipes (all : List Recipe) (d : ℕ) {s : Device} (hs : s.AtClock fr ck) :
    (loadRecipes all d s).AtClock fr ck := by
  unfold loadRecipes
  repeat' first
    | with_reducible assumption
    | with_reducible apply Device.atClock_modDie
    | with_reducible apply atClock_recipeBad
    | with_reducible apply atClock_sectionBad
    | with_reducible apply Device.atClock_foldl
    | intro _
    | split
    | dsimp only

theorem atClock_nvmPush (op : NvmOp) {s : Device} (hs : s.AtClock fr ck) :
    (nvmPush op s).AtClock fr ck := by
  unfold nvmPush
  repeat' first
    | with_reducible assumption
    | with_reducible apply Device.atClock_modNvm
    | with_reducible apply Device.atClock_pset
    | with_reducible apply Device.atClock_ite
    | intro _
    | split
    | dsimp only

theorem atClock_spareCheck {s : Device} (hs : s.AtClock fr ck) :
    (spareCheck s).AtClock fr ck := by
  unfold spareCheck
  repeat' first
    | with_reducible assumption
    | with_reducible apply atClock_nvmPush
    | with_reducible apply Device.atClock_pset
    | with_reducible apply Device.atClock_ite
    | intro _
    | split
    | dsimp only

theorem atClock_countReject (c : Section) (w : Walk) (h : w.dev.AtClock fr ck) : (countReject c w).dev.AtClock fr ck :=
  atClock_sectionBad _ _ _ h

theorem atClock_cacheDie (d : ℕ) {s : Device} (hs : s.AtClock fr ck) :
    (cacheDie d s).AtClock fr ck := by
  unfold cacheDie
  repeat' first
    | with_reducible assumption
    | with_reducible apply Device.atClock_dset
    | with_reducible apply Device.atClock_ite
    | intro _
    | split
    | dsimp only

theorem atClock_huskIdle (g : ℕ) {s : Device} (hs : s.AtClock fr ck) :
    (huskIdle g s).AtClock fr ck := by
  unfold huskIdle
  repeat' first
    | with_reducible assumption
    | with_reducible apply Device.atClock_modEng
    | with_reducible apply atClock_setEng
    | with_reducible apply Device.atClock_ite
    | intro _
    | split
    | dsimp only

theorem atClock_imageBad (err : ℕ) {s : Device} (hs : s.AtClock fr ck) :
    (imageBad err s).AtClock fr ck := by
  unfold imageBad
  repeat' first
    | with_reducible assumption
    | with_reducible apply atClock_logEvent
    | with_reducible apply Device.atClock_pset
    | intro _
    | split
    | dsimp only

theorem atClock_pinLoad (own : List (ℕ × Sys2Proof.Word)) {s : Device} (hs : s.AtClock fr ck) :
    (pinLoad own s).AtClock fr ck := by
  unfold pinLoad
  repeat' first
    | with_reducible assumption
    | with_reducible apply atClock_loadWord
    | with_reducible apply Device.atClock_modNvm
    | with_reducible apply Device.atClock_pset
    | with_reducible apply Device.atClock_ite
    | with_reducible apply Device.atClock_foldl
    | intro _
    | split
    | dsimp only

theorem atClock_ringBest {s : Device} (hs : s.AtClock fr ck) :
    (ringBest s).AtClock fr ck := by
  unfold ringBest
  repeat' first
    | with_reducible assumption
    | with_reducible apply Device.atClock_modNvm
    | intro _
    | split
    | dsimp only

theorem atClock_ringScan {s : Device} (hs : s.AtClock fr ck) :
    (ringScan s).AtClock fr ck := by
  unfold ringScan
  repeat' first
    | with_reducible assumption
    | with_reducible apply atClock_ringBest
    | with_reducible apply atClock_spareCheck
    | with_reducible apply Device.atClock_modNvm
    | with_reducible apply Device.atClock_pset
    | with_reducible apply Device.atClock_setReg
    | with_reducible apply Device.atClock_ite
    | intro _
    | split
    | dsimp only

theorem atClock_cfgMap (d : ℕ) {s : Device} (hs : s.AtClock fr ck) :
    (cfgMap d s).AtClock fr ck := by
  unfold cfgMap
  repeat' first
    | with_reducible assumption
    | with_reducible apply Device.atClock_setReg
    | intro _
    | split
    | dsimp only

theorem atClock_huskDie (d : ℕ) {s : Device} (hs : s.AtClock fr ck) :
    (huskDie d s).AtClock fr ck := by
  unfold huskDie
  repeat' first
    | with_reducible assumption
    | with_reducible apply Device.atClock_dset
    | with_reducible apply atClock_cfgMap
    | with_reducible apply atClock_publishDies
    | with_reducible apply Device.atClock_modDie
    | intro _
    | split
    | dsimp only

theorem atClock_applyEntries (c : Section) (b : List Sys2Proof.Byte) {s : Device} (hs : s.AtClock fr ck) :
    (applyEntries c b s).AtClock fr ck := by
  unfold applyEntries
  repeat' first
    | with_reducible assumption
    | with_reducible apply atClock_loadWord
    | with_reducible apply Device.atClock_foldl
    | intro _
    | split
    | dsimp only

theorem atClock_walkIte {c : Prop} [Decidable c] {p q : Walk} (hp : p.dev.AtClock fr ck) (hq : q.dev.AtClock fr ck) :
    (if c then p else q).dev.AtClock fr ck := by
  split
  · exact hp
  · exact hq

theorem atClock_takeSection (c : Section) (w : Walk) (h : w.dev.AtClock fr ck) : (takeSection c w).dev.AtClock fr ck := by
  unfold takeSection
  dsimp only
  split
  · exact atClock_walkIte (atClock_applyEntries _ _ (Device.atClock_modNvm _ h)) (atClock_countReject _ _ h)
  · refine atClock_walkIte ?_ (atClock_countReject _ _ h)
    exact Device.atClock_ite (fun _ => h) fun _ => Device.atClock_modDie _ _ (atClock_applyEntries _ _ h)
  · refine atClock_walkIte ?_ (atClock_countReject _ _ h)
    exact Device.atClock_ite (fun _ => h) fun _ => Device.atClock_modDie _ _ (atClock_applyEntries _ _ h)
  · split
    · exact h
    · exact Device.atClock_each _ (atClock_countReject _ _ h) fun _ _ h => atClock_recipeBad _ _ _ h
  · refine atClock_walkIte ?_ (atClock_countReject _ _ h)
    dsimp only
    exact Device.atClock_modNvm _ h
  · refine atClock_walkIte ?_ (atClock_countReject _ _ h)
    dsimp only
    exact Device.atClock_modNvm _ h

theorem atClock_doSection (c : Section) (w : Walk) (h : w.dev.AtClock fr ck) : (doSection c w).dev.AtClock fr ck := by
  unfold doSection
  exact atClock_walkIte (Device.atClock_pinc _ h) (atClock_walkIte (atClock_countReject _ _ h)
    (atClock_walkIte h (atClock_walkIte (atClock_countReject _ _ h) (atClock_takeSection _ _ h))))

theorem atClock_walkFrom (img : List Byte) (k off : ℕ) (w : Walk) (h : w.dev.AtClock fr ck) :
    (walkFrom img k off w).dev.AtClock fr ck := by
  induction k generalizing off w with
  | zero => exact h
  | succ n ih =>
    rw [walkFrom]
    refine atClock_walkIte h (atClock_walkIte h (atClock_walkIte ?_ (atClock_walkIte h (ih _ _ (atClock_doSection _ _ h)))))
    dsimp only
    exact atClock_countReject _ { w with count := w.count + 1 } h

theorem atClock_clearI (p : ℕ → Bool) {s : Device} (h : s.AtClock fr ck) : (clearI p s).AtClock fr ck :=
  Device.atClock_foldl _ h fun _ _ h => h

theorem atClock_imageSettle (img : List Byte) (w : Walk) (h : w.dev.AtClock fr ck) : (imageSettle img w).AtClock fr ck := by
  unfold imageSettle
  dsimp only
  refine atClock_boostWritten _ (Device.atClock_modLine _ ?_)
  refine Device.atClock_setReg _ _ (Device.atClock_pset _ _ ?_)
  refine Device.atClock_each _ (Device.atClock_each _ (Device.atClock_each _ (atClock_thresholdLoad (atClock_pinLoad _ (atClock_ringScan ?_))) fun d t h =>
    atClock_settleDie _ (atClock_huskDie _ (atClock_cacheDie _ h))) fun d t h => atClock_cfgMap _ h) fun d t h => atClock_clampTest _ h
  exact Device.atClock_each _ (Device.atClock_ite (fun _ => Device.atClock_pset _ _ h) fun _ => h) fun d t h =>
    atClock_loadRecipes _ _ h

theorem atClock_imageTake (img : List Byte) {s : Device} (h : s.AtClock fr ck) : (imageTake img s).AtClock fr ck := by
  have h1 : ∀ {t : Device}, t.AtClock fr ck → (t.modNvm fun n => { n with imgLen := img.length, slow := (uAt img 7 1).testBit 0 }).AtClock fr ck :=
    fun h => Device.atClock_modNvm _ h
  unfold imageTake
  dsimp only
  have h2 := h1 (atClock_clearI (loadable s) h)
  refine atClock_imageSettle _ _ (atClock_walkFrom _ _ _ _ ?_)
  exact Device.atClock_ite (fun _ => h2) fun _ => Device.atClock_pset _ _ h2

theorem atClock_imageLoad {s : Device} (hs : s.AtClock fr ck) :
    (imageLoad s).AtClock fr ck := by
  unfold imageLoad
  repeat' first
    | with_reducible assumption
    | with_reducible apply atClock_imageBad
    | with_reducible apply atClock_imageTake
    | with_reducible apply Device.atClock_pset
    | with_reducible apply Device.atClock_ite
    | intro _
    | split
    | dsimp only

theorem atClock_modFlash (g : List (ℕ × Sys2Proof.Byte) → List (ℕ × Sys2Proof.Byte)) {s : Device} (hs : s.AtClock fr ck) :
    (modFlash g s).AtClock fr ck := by
  unfold modFlash
  repeat' first
    | with_reducible assumption
    | with_reducible apply Device.atClock_modNvm
    | intro _
    | split
    | dsimp only

theorem atClock_cachePins (d : ℕ) {s : Device} (hs : s.AtClock fr ck) :
    (cachePins d s).AtClock fr ck := by
  unfold cachePins
  repeat' first
    | with_reducible assumption
    | with_reducible apply Device.atClock_modDie
    | intro _
    | split
    | dsimp only

/-! Shadow. -/

theorem atClock_setShd (a : ℕ) (w : Sys2Proof.Word) {s : Device} (hs : s.AtClock fr ck) :
    (setShd a w s).AtClock fr ck := by
  unfold setShd
  repeat' first
    | with_reducible assumption
    | with_reducible apply Device.atClock_mk
    | with_reducible apply Device.AtClock.both
    | intro _
    | split
    | dsimp only

theorem atClock_shadowRebuild (d : ℕ) {s : Device} (hs : s.AtClock fr ck) :
    (shadowRebuild d s).AtClock fr ck := by
  unfold shadowRebuild
  repeat' first
    | with_reducible assumption
    | with_reducible apply atClock_setShd
    | with_reducible apply Device.atClock_each
    | with_reducible apply Device.atClock_mk
    | with_reducible apply Device.AtClock.both
    | intro _
    | split
    | dsimp only

theorem atClock_groupCell (d : ℕ) {s : Device} (hs : s.AtClock fr ck) :
    (groupCell d s).AtClock fr ck := by
  unfold groupCell
  repeat' first
    | with_reducible assumption
    | with_reducible apply atClock_setShd
    | with_reducible apply Device.atClock_foldl
    | with_reducible apply Device.atClock_mk
    | with_reducible apply Device.AtClock.both
    | intro _
    | split
    | dsimp only

theorem atClock_setStage (a : ℕ) (w : Sys2Proof.Word) {s : Device} (hs : s.AtClock fr ck) :
    (setStage a w s).AtClock fr ck := by
  unfold setStage
  repeat' first
    | with_reducible assumption
    | with_reducible apply Device.atClock_mk
    | with_reducible apply Device.AtClock.both
    | intro _
    | split
    | dsimp only

theorem atClock_shadowTaken (a : ℕ) (w : Sys2Proof.Word) (group : Sys2Proof.Word) {s : Device} (hs : s.AtClock fr ck) :
    (shadowTaken a w group s).AtClock fr ck := by
  unfold shadowTaken
  repeat' first
    | with_reducible assumption
    | with_reducible apply atClock_setShd
    | with_reducible apply atClock_setStage
    | with_reducible apply Device.atClock_ite
    | intro _
    | split
    | dsimp only

/-! Nvm. -/

theorem atClock_pinEnd (result : ℕ) {s : Device} (hs : s.AtClock fr ck) :
    (pinEnd result s).AtClock fr ck := by
  unfold pinEnd
  repeat' first
    | with_reducible assumption
    | with_reducible apply Device.atClock_pset
    | intro _
    | split
    | dsimp only

theorem atClock_nvmCount {s : Device} (hs : s.AtClock fr ck) :
    (nvmCount s).AtClock fr ck := by
  unfold nvmCount
  repeat' first
    | with_reducible assumption
    | with_reducible apply Device.atClock_pset
    | intro _
    | split
    | dsimp only

theorem atClock_pinCut (result : ℕ) {s : Device} (hs : s.AtClock fr ck) :
    (pinCut result s).AtClock fr ck := by
  unfold pinCut
  repeat' first
    | with_reducible assumption
    | with_reducible apply atClock_pinEnd
    | with_reducible apply atClock_nvmCount
    | with_reducible apply Device.atClock_modNvm
    | with_reducible apply Device.atClock_ite
    | intro _
    | split
    | dsimp only

theorem atClock_nvmTake (o : NvmOp) {s : Device} (hs : s.AtClock fr ck) :
    (nvmTake o s).AtClock fr ck := by
  unfold nvmTake
  repeat' first
    | with_reducible assumption
    | with_reducible apply atClock_nvmCount
    | with_reducible apply Device.atClock_modNvm
    | with_reducible apply Device.atClock_pset
    | intro _
    | split
    | dsimp only

theorem atClock_flashBegin (o : FlashOp) {s : Device} (hs : s.AtClock fr ck) :
    (flashBegin o s).AtClock fr ck := by
  unfold flashBegin
  repeat' first
    | with_reducible assumption
    | with_reducible apply Device.atClock_modNvm
    | intro _
    | split
    | dsimp only

theorem atClock_nvmFree {s : Device} (hs : s.AtClock fr ck) :
    (nvmFree s).AtClock fr ck := by
  unfold nvmFree
  repeat' first
    | with_reducible assumption
    | with_reducible apply Device.atClock_modNvm
    | with_reducible apply Device.atClock_pset
    | intro _
    | split
    | dsimp only

theorem atClock_ptEnd (result : ℕ) {s : Device} (hs : s.AtClock fr ck) :
    (ptEnd result s).AtClock fr ck := by
  unfold ptEnd
  repeat' first
    | with_reducible assumption
    | with_reducible apply Device.atClock_pset
    | intro _
    | split
    | dsimp only

theorem atClock_ptStart (op : ℕ) (addr : ℕ) (len : ℕ) {s : Device} (hs : s.AtClock fr ck) :
    (ptStart op addr len s).AtClock fr ck := by
  unfold ptStart
  repeat' first
    | with_reducible assumption
    | with_reducible apply atClock_flashBegin
    | with_reducible apply atClock_nvmFree
    | with_reducible apply atClock_ptEnd
    | with_reducible apply Device.atClock_spend
    | with_reducible apply Device.atClock_modNvm
    | with_reducible apply Device.atClock_pset
    | with_reducible apply Device.atClock_ite
    | intro _
    | split
    | dsimp only

theorem atClock_pinDie (d : ℕ) {s : Device} (hs : s.AtClock fr ck) :
    (pinDie d s).AtClock fr ck := by
  unfold pinDie
  repeat' first
    | with_reducible assumption
    | with_reducible apply atClock_loadWord
    | with_reducible apply Device.atClock_foldl
    | intro _
    | split
    | dsimp only

theorem atClock_dieSettled (d : ℕ) {s : Device} (hs : s.AtClock fr ck) :
    (dieSettled d s).AtClock fr ck := by
  unfold dieSettled
  repeat' first
    | with_reducible assumption
    | with_reducible apply atClock_clampTest
    | with_reducible apply atClock_settleDie
    | with_reducible apply atClock_huskDie
    | with_reducible apply atClock_cacheDie
    | with_reducible apply atClock_pinDie
    | with_reducible apply Device.atClock_each
    | intro _
    | split
    | dsimp only

theorem atClock_sectionFetch (d : ℕ) {s : Device} (h : s.AtClock fr ck) : (sectionFetch d s).AtClock fr ck := by
  have hr : ∀ (l : List (ℕ × ℕ)) (w : Walk), w.dev.AtClock fr ck → (l.foldl (fun w k => fetchReject d k w) w).dev.AtClock fr ck := by
    intro l
    induction l with
    | nil => exact fun _ h => h
    | cons c t ih => exact fun w h => ih _ (atClock_sectionBad _ _ _ h)
  have hf : ∀ (l : List Section) (w : Walk), w.dev.AtClock fr ck → (l.foldl (fun w c => doSection c w) w).dev.AtClock fr ck := by
    intro l
    induction l with
    | nil => exact fun _ h => h
    | cons c t ih => exact fun w h => ih _ (atClock_doSection c w h)
  unfold sectionFetch
  dsimp only
  have h1 := Device.atClock_modDie d (fun x => { x with fetch := [] }) h
  split
  · exact atClock_dieSettled _ (hr _ _ h1)
  · exact atClock_dieSettled _ (atClock_loadRecipes _ _ (hf _ _ h1))

theorem atClock_pinDone {s : Device} (hs : s.AtClock fr ck) :
    (pinDone s).AtClock fr ck := by
  unfold pinDone
  repeat' first
    | with_reducible assumption
    | with_reducible apply atClock_nvmFree
    | with_reducible apply atClock_cachePins
    | with_reducible apply atClock_pinEnd
    | with_reducible apply Device.atClock_modNvm
    | with_reducible apply Device.atClock_pset
    | with_reducible apply Device.atClock_ite
    | with_reducible apply Device.atClock_each
    | intro _
    | split
    | dsimp only

theorem atClock_pinKick {s : Device} (hs : s.AtClock fr ck) :
    (pinKick s).AtClock fr ck := by
  unfold pinKick
  repeat' first
    | with_reducible assumption
    | with_reducible apply atClock_flashBegin
    | with_reducible apply atClock_pinDone
    | with_reducible apply Device.atClock_ite
    | intro _
    | split
    | dsimp only

theorem atClock_ckptKick {s : Device} (hs : s.AtClock fr ck) :
    (ckptKick s).AtClock fr ck := by
  unfold ckptKick
  repeat' first
    | with_reducible assumption
    | with_reducible apply atClock_flashBegin
    | with_reducible apply Device.atClock_modNvm
    | with_reducible apply Device.atClock_pset
    | with_reducible apply Device.atClock_ite
    | intro _
    | split
    | dsimp only

theorem atClock_nvmNext (k : ℕ) {s : Device} (h : s.AtClock fr ck) : (nvmNext k s).AtClock fr ck := by
  induction k generalizing s with
  | zero => exact h
  | succ n ih =>
    rw [nvmNext]
    split
    · exact h
    · split
      · exact h
      · rename_i o _
        have h1 := atClock_nvmTake o h
        cases o with
        | handover => exact h1
        | spare => exact atClock_flashBegin _ h1
        | fetch d => exact ih (atClock_nvmFree (atClock_sectionFetch d h1))
        | ckpt => exact atClock_ckptKick h1
        | pins => exact atClock_pinKick h1
        | pt op a l => exact ih (atClock_ptStart op a l h1)

theorem atClock_nvmRun {s : Device} (hs : s.AtClock fr ck) :
    (nvmRun s).AtClock fr ck := by
  unfold nvmRun
  repeat' first
    | with_reducible assumption
    | with_reducible apply atClock_nvmNext
    | intro _
    | split
    | dsimp only

theorem atClock_spareRestore {s : Device} (hs : s.AtClock fr ck) :
    (spareRestore s).AtClock fr ck := by
  unfold spareRestore
  repeat' first
    | with_reducible assumption
    | with_reducible apply atClock_nvmRun
    | with_reducible apply atClock_nvmPush
    | with_reducible apply Device.atClock_ite
    | intro _
    | split
    | dsimp only

theorem atClock_ckptTake (data : Sys2Proof.Word) {s : Device} (hs : s.AtClock fr ck) :
    (ckptTake data s).AtClock fr ck := by
  unfold ckptTake
  repeat' first
    | with_reducible assumption
    | with_reducible apply atClock_ckptRequest
    | with_reducible apply Device.atClock_ite
    | intro _
    | split
    | dsimp only

theorem atClock_fallDone {s : Device} (hs : s.AtClock fr ck) :
    (fallDone s).AtClock fr ck := by
  unfold fallDone
  repeat' first
    | with_reducible assumption
    | with_reducible apply atClock_logEvent
    | with_reducible apply Device.atClock_modSup
    | with_reducible apply atClock_nvmFree
    | with_reducible apply atClock_ringBest
    | with_reducible apply Device.atClock_modNvm
    | with_reducible apply Device.atClock_pset
    | with_reducible apply Device.atClock_setReg
    | intro _
    | split
    | dsimp only

theorem atClock_fallKick {s : Device} (hs : s.AtClock fr ck) :
    (fallKick s).AtClock fr ck := by
  unfold fallKick
  repeat' first
    | with_reducible assumption
    | with_reducible apply atClock_flashBegin
    | intro _
    | split
    | dsimp only

theorem atClock_flashGoesOn {s : Device} (hs : s.AtClock fr ck) :
    (flashGoesOn s).AtClock fr ck := by
  unfold flashGoesOn
  repeat' first
    | with_reducible assumption
    | with_reducible apply atClock_nvmRun
    | with_reducible apply atClock_nvmFree
    | with_reducible apply atClock_ckptKick
    | with_reducible apply atClock_pinKick
    | with_reducible apply atClock_ptEnd
    | with_reducible apply atClock_fallDone
    | with_reducible apply atClock_fallKick
    | with_reducible apply Device.atClock_modSup
    | with_reducible apply Device.atClock_modNvm
    | with_reducible apply Device.atClock_pset
    | with_reducible apply Device.atClock_ite
    | intro _
    | split
    | dsimp only

theorem atClock_ckptInvalidate {s : Device} (hs : s.AtClock fr ck) :
    (ckptInvalidate s).AtClock fr ck := by
  unfold ckptInvalidate
  repeat' first
    | with_reducible assumption
    | with_reducible apply atClock_modFlash
    | with_reducible apply atClock_logEvent
    | with_reducible apply atClock_ringBest
    | with_reducible apply Device.atClock_pset
    | with_reducible apply Device.atClock_foldl
    | intro _
    | split
    | dsimp only

theorem atClock_flashCut {s : Device} (hs : s.AtClock fr ck) :
    (flashCut s).AtClock fr ck := by
  unfold flashCut
  repeat' first
    | with_reducible assumption
    | with_reducible apply atClock_modFlash
    | with_reducible apply Device.atClock_spend
    | with_reducible apply Device.atClock_modNvm
    | with_reducible apply Device.atClock_foldl
    | intro _
    | split
    | dsimp only

theorem atClock_ckptFail {s : Device} (hs : s.AtClock fr ck) :
    (ckptFail s).AtClock fr ck := by
  unfold ckptFail
  repeat' first
    | with_reducible assumption
    | with_reducible apply atClock_ckptInvalidate
    | with_reducible apply atClock_flashCut
    | with_reducible apply atClock_nvmPush
    | with_reducible apply atClock_nvmFree
    | with_reducible apply Device.atClock_modNvm
    | with_reducible apply Device.atClock_pset
    | intro _
    | split
    | dsimp only

theorem atClock_nvmBatonLost {s : Device} (hs : s.AtClock fr ck) :
    (nvmBatonLost s).AtClock fr ck := by
  unfold nvmBatonLost
  repeat' first
    | with_reducible assumption
    | with_reducible apply atClock_logEvent
    | with_reducible apply atClock_nvmRun
    | with_reducible apply atClock_ckptFail
    | with_reducible apply Device.atClock_pset
    | intro _
    | split
    | dsimp only

theorem atClock_setEdits (l : List (ℕ × ℕ)) {s : Device} (hs : s.AtClock fr ck) :
    (setEdits l s).AtClock fr ck := by
  unfold setEdits
  repeat' first
    | with_reducible assumption
    | with_reducible apply Device.atClock_modNvm
    | with_reducible apply Device.atClock_pset
    | intro _
    | split
    | dsimp only

theorem atClock_ckptCell (d : ℕ) {s : Device} (hs : s.AtClock fr ck) :
    (ckptCell d s).AtClock fr ck := by
  unfold ckptCell
  repeat' first
    | with_reducible assumption
    | with_reducible apply atClock_ckptKick
    | with_reducible apply Device.atClock_modNvm
    | with_reducible apply Device.atClock_pset
    | with_reducible apply Device.atClock_ite
    | intro _
    | split
    | dsimp only

theorem atClock_ckptForm {s : Device} (hs : s.AtClock fr ck) :
    (ckptForm s).AtClock fr ck := by
  unfold ckptForm
  repeat' first
    | with_reducible assumption
    | with_reducible apply Device.atClock_modDie
    | with_reducible apply atClock_nvmRun
    | with_reducible apply atClock_nvmPush
    | with_reducible apply Device.atClock_modNvm
    | with_reducible apply Device.atClock_pset
    | with_reducible apply Device.atClock_each
    | intro _
    | split
    | dsimp only

theorem atClock_ckptBoundary {s : Device} (hs : s.AtClock fr ck) :
    (ckptBoundary s).AtClock fr ck := by
  unfold ckptBoundary
  repeat' first
    | with_reducible assumption
    | with_reducible apply atClock_ckptForm
    | with_reducible apply Device.atClock_ite
    | intro _
    | split
    | dsimp only

theorem atClock_ckptDone {s : Device} (hs : s.AtClock fr ck) :
    (ckptDone s).AtClock fr ck := by
  unfold ckptDone
  repeat' first
    | with_reducible assumption
    | with_reducible apply atClock_ringBest
    | with_reducible apply atClock_nvmRun
    | with_reducible apply atClock_nvmFree
    | with_reducible apply Device.atClock_modNvm
    | with_reducible apply Device.atClock_setReg
    | with_reducible apply Device.atClock_pset
    | with_reducible apply Device.atClock_ite
    | intro _
    | split
    | dsimp only

theorem atClock_pinCommand (op : ℕ) (a : ℕ) (key : ℕ) {s : Device} (hs : s.AtClock fr ck) :
    (pinCommand op a key s).AtClock fr ck := by
  unfold pinCommand
  repeat' first
    | with_reducible assumption
    | with_reducible apply atClock_setEdits
    | with_reducible apply Device.atClock_modNvm
    | with_reducible apply Device.atClock_pset
    | with_reducible apply Device.atClock_ite
    | intro _
    | split
    | dsimp only

theorem atClock_flashDone {s : Device} (hs : s.AtClock fr ck) :
    (flashDone s).AtClock fr ck := by
  unfold flashDone
  repeat' first
    | with_reducible assumption
    | with_reducible apply atClock_flashGoesOn
    | with_reducible apply atClock_modFlash
    | with_reducible apply Device.atClock_modNvm
    | intro _
    | split
    | dsimp only

theorem atClock_ptCommand (op : ℕ) (len : ℕ) (key : ℕ) (go : Bool) {s : Device} (hs : s.AtClock fr ck) :
    (ptCommand op len key go s).AtClock fr ck := by
  unfold ptCommand
  repeat' first
    | with_reducible assumption
    | with_reducible apply atClock_nvmRun
    | with_reducible apply atClock_nvmPush
    | with_reducible apply Device.atClock_pset
    | with_reducible apply Device.atClock_ite
    | intro _
    | split
    | dsimp only

theorem atClock_flashComplete (sr : Sys2Proof.Byte) {s : Device} (hs : s.AtClock fr ck) :
    (flashComplete sr s).AtClock fr ck := by
  unfold flashComplete
  repeat' first
    | with_reducible assumption
    | with_reducible apply atClock_flashDone
    | with_reducible apply Device.atClock_pset
    | with_reducible apply Device.atClock_ite
    | intro _
    | split
    | dsimp only

theorem atClock_nvmFailed {s : Device} (hs : s.AtClock fr ck) :
    (nvmFailed s).AtClock fr ck := by
  unfold nvmFailed
  repeat' first
    | with_reducible assumption
    | with_reducible apply atClock_nvmRun
    | with_reducible apply atClock_nvmPush
    | with_reducible apply atClock_nvmFree
    | with_reducible apply atClock_ckptFail
    | with_reducible apply atClock_pinCut
    | with_reducible apply atClock_ptEnd
    | with_reducible apply Device.atClock_modSup
    | with_reducible apply atClock_fallKick
    | with_reducible apply Device.atClock_modNvm
    | with_reducible apply Device.atClock_pset
    | with_reducible apply Device.atClock_ite
    | intro _
    | split
    | dsimp only

theorem atClock_nvmTimeout (wel : Bool) {s : Device} (hs : s.AtClock fr ck) :
    (nvmTimeout wel s).AtClock fr ck := by
  unfold nvmTimeout
  repeat' first
    | with_reducible assumption
    | with_reducible apply atClock_flashCut
    | with_reducible apply atClock_nvmFailed
    | with_reducible apply atClock_logEvent
    | with_reducible apply Device.atClock_modNvm
    | with_reducible apply Device.atClock_pset
    | with_reducible apply Device.atClock_ite
    | intro _
    | split
    | dsimp only

theorem atClock_nvmBatonExpiry {s : Device} (hs : s.AtClock fr ck) :
    (nvmBatonExpiry s).AtClock fr ck := by
  unfold nvmBatonExpiry
  repeat' first
    | with_reducible assumption
    | with_reducible apply atClock_nvmBatonLost
    | with_reducible apply Device.atClock_ite
    | intro _
    | split
    | dsimp only

theorem atClock_nvmStop {s : Device} (hs : s.AtClock fr ck) :
    (nvmStop s).AtClock fr ck := by
  unfold nvmStop
  repeat' first
    | with_reducible assumption
    | with_reducible apply atClock_modFlash
    | with_reducible apply atClock_flashCut
    | with_reducible apply Device.atClock_modNvm
    | intro _
    | split
    | dsimp only

theorem atClock_pinBoundary {s : Device} (hs : s.AtClock fr ck) :
    (pinBoundary s).AtClock fr ck := by
  unfold pinBoundary
  repeat' first
    | with_reducible assumption
    | with_reducible apply atClock_nvmPush
    | with_reducible apply Device.atClock_modNvm
    | with_reducible apply Device.atClock_ite
    | intro _
    | split
    | dsimp only

end Sys2Proof.Machine
end

