-- ==== Sys2Proof/Laws/AtClockPackage.lean ====
section
/-! SUPPORT. Operations of these files that leave the package clock where it is (R5). One lemma for each operation, in the order of the files. -/

set_option linter.unusedTactic false
set_option linter.unreachableTactic false
set_option linter.unusedVariables false

namespace Sys2Proof.Machine

variable {fr ck : Nat}

/-! Domain. -/

theorem atClock_outageWords {s : Device} (hs : s.AtClock fr ck) :
    (outageWords s).AtClock fr ck := by
  unfold outageWords
  repeat' first
    | with_reducible assumption
    | with_reducible apply Device.atClock_pset
    | intro _
    | split
    | dsimp only

theorem atClock_genDiff (lost : Bool) (recGen : Option ℕ) (d : ℕ) {s : Device} (hs : s.AtClock fr ck) :
    (genDiff lost recGen d s).AtClock fr ck := by
  unfold genDiff
  repeat' first
    | with_reducible assumption
    | with_reducible apply Device.atClock_cset
    | with_reducible apply Device.atClock_modGlean
    | with_reducible apply Device.atClock_ite
    | with_reducible apply Device.atClock_each
    | intro _
    | split
    | dsimp only

theorem atClock_coldConsts (g : ℕ) {s : Device} (hs : s.AtClock fr ck) :
    (coldConsts g s).AtClock fr ck := by
  unfold coldConsts
  repeat' first
    | with_reducible assumption
    | with_reducible apply Device.atClock_cforce
    | with_reducible apply atClock_forceConsts
    | with_reducible apply Device.atClock_modConv
    | with_reducible apply atClock_takeConsts
    | with_reducible apply Device.atClock_each
    | intro _
    | split
    | dsimp only

theorem atClock_unaccounted (seq : ℕ) (g : ℕ) {s : Device} (hs : s.AtClock fr ck) :
    (unaccounted seq g s).AtClock fr ck := by
  unfold unaccounted
  repeat' first
    | with_reducible assumption
    | with_reducible apply atClock_logEvent
    | with_reducible apply Device.atClock_cset
    | with_reducible apply atClock_setMap
    | intro _
    | split
    | dsimp only

theorem atClock_keptSetpoints (g : ℕ) {s : Device} (hs : s.AtClock fr ck) :
    (keptSetpoints g s).AtClock fr ck := by
  unfold keptSetpoints
  repeat' first
    | with_reducible assumption
    | with_reducible apply Device.atClock_modLp
    | intro _
    | split
    | dsimp only

theorem atClock_gleanCopy (d : ℕ) {s : Device} (hs : s.AtClock fr ck) :
    (gleanCopy d s).AtClock fr ck := by
  unfold gleanCopy
  repeat' first
    | with_reducible assumption
    | with_reducible apply Device.atClock_modGlean
    | intro _
    | split
    | dsimp only

theorem atClock_restoreStep (step : ℕ) (recipe : ℕ) (e : ℕ) (pass : Bool) (fail : Bool) (src : ℕ) (g : ℕ) {s : Device} (hs : s.AtClock fr ck) :
    (restoreStep step recipe e pass fail src g s).AtClock fr ck := by
  unfold restoreStep
  repeat' first
    | with_reducible assumption
    | with_reducible apply Device.atClock_cset
    | with_reducible apply atClock_setEng
    | with_reducible apply Device.atClock_modEng
    | with_reducible apply Device.atClock_ite
    | intro _
    | split
    | dsimp only

theorem atClock_restoreChan (rcd : List Sys2Proof.Byte) (page : Option (List Sys2Proof.Byte)) (g : ℕ) {s : Device} (hs : s.AtClock fr ck) :
    (restoreChan rcd page g s).AtClock fr ck := by
  unfold restoreChan
  repeat' first
    | with_reducible assumption
    | with_reducible apply Device.atClock_modCh
    | with_reducible apply Device.atClock_cset
    | with_reducible apply Device.atClock_modEng
    | with_reducible apply atClock_restoreStep
    | with_reducible apply atClock_unaccounted
    | with_reducible apply Device.atClock_ite
    | intro _
    | split
    | dsimp only

theorem atClock_decideWords (dark : Bool) (d : ℕ) {s : Device} (hs : s.AtClock fr ck) :
    (decideWords dark d s).AtClock fr ck := by
  unfold decideWords
  repeat' first
    | with_reducible assumption
    | with_reducible apply Device.atClock_ite
    | with_reducible apply Device.atClock_mk
    | with_reducible apply Device.AtClock.both
    | intro _
    | split
    | dsimp only

theorem atClock_noRecord (d : ℕ) {s : Device} (hs : s.AtClock fr ck) :
    (noRecord d s).AtClock fr ck := by
  unfold noRecord
  repeat' first
    | with_reducible assumption
    | with_reducible apply atClock_logEvent
    | with_reducible apply Device.atClock_cset
    | with_reducible apply Device.atClock_each
    | intro _
    | split
    | dsimp only

theorem atClock_stopLead (recovery : Bool) (d : ℕ) {s : Device} (hs : s.AtClock fr ck) :
    (stopLead recovery d s).AtClock fr ck := by
  unfold stopLead
  repeat' first
    | with_reducible assumption
    | with_reducible apply Device.atClock_clearRun
    | with_reducible apply Device.atClock_modPins
    | with_reducible apply atClock_nvmStop
    | with_reducible apply atClock_runStop
    | with_reducible apply Device.atClock_ite
    | intro _
    | split
    | dsimp only

theorem atClock_stopBooks (recovery : Bool) (d : ℕ) {s : Device} (hs : s.AtClock fr ck) :
    (stopBooks recovery d s).AtClock fr ck := by
  unfold stopBooks
  repeat' first
    | with_reducible assumption
    | with_reducible apply atClock_bookPartial
    | with_reducible apply atClock_plsBook
    | with_reducible apply atClock_plsDieStop
    | with_reducible apply atClock_plsCut
    | with_reducible apply atClock_otpCutShort
    | with_reducible apply atClock_retCommit
    | with_reducible apply Device.atClock_ite
    | with_reducible apply Device.atClock_each
    | intro _
    | split
    | dsimp only

theorem atClock_mainStop (recovery : Bool) (d : ℕ) {s : Device} (hs : s.AtClock fr ck) :
    (mainStop recovery d s).AtClock fr ck := by
  unfold mainStop
  repeat' first
    | with_reducible assumption
    | with_reducible apply atClock_monEnd
    | with_reducible apply atClock_stopBooks
    | with_reducible apply atClock_benchBaton
    | with_reducible apply atClock_valvesHusk
    | with_reducible apply atClock_gatesOff
    | with_reducible apply Device.atClock_modGlean
    | with_reducible apply Device.atClock_modDie
    | with_reducible apply atClock_publishDies
    | with_reducible apply atClock_stopLead
    | with_reducible apply Device.atClock_ite
    | with_reducible apply Device.atClock_each
    | intro _
    | split
    | dsimp only

theorem atClock_stopAll {s : Device} (hs : s.AtClock fr ck) :
    (stopAll s).AtClock fr ck := by
  unfold stopAll
  repeat' first
    | with_reducible assumption
    | with_reducible apply atClock_mainStop
    | with_reducible apply Device.atClock_each
    | intro _
    | split
    | dsimp only

theorem atClock_refRetained (dark : Bool) (d : ℕ) {s : Device} (hs : s.AtClock fr ck) :
    (refRetained dark d s).AtClock fr ck := by
  unfold refRetained
  repeat' first
    | with_reducible assumption
    | with_reducible apply Device.atClock_modDie
    | with_reducible apply Device.atClock_dset
    | with_reducible apply Device.atClock_cset
    | with_reducible apply Device.atClock_ite
    | with_reducible apply Device.atClock_each
    | intro _
    | split
    | dsimp only

theorem atClock_chanBlank (g : ℕ) {s : Device} (hs : s.AtClock fr ck) :
    (chanBlank g s).AtClock fr ck := by
  unfold chanBlank
  repeat' first
    | with_reducible assumption
    | with_reducible apply Device.atClock_modCh
    | intro _
    | split
    | dsimp only

theorem atClock_dieWords (isNew : Bool) (d : ℕ) {s : Device} (hs : s.AtClock fr ck) :
    (dieWords isNew d s).AtClock fr ck := by
  unfold dieWords
  repeat' first
    | with_reducible assumption
    | with_reducible apply Device.atClock_nextFree
    | with_reducible apply Device.atClock_mk
    | with_reducible apply Device.AtClock.both
    | intro _
    | split
    | dsimp only

theorem atClock_ledgerClear {s : Device} (hs : s.AtClock fr ck) :
    (ledgerClear s).AtClock fr ck := by
  unfold ledgerClear
  repeat' first
    | with_reducible assumption
    | with_reducible apply Device.atClock_setReg
    | with_reducible apply Device.atClock_mk
    | with_reducible apply Device.AtClock.both
    | intro _
    | split
    | dsimp only

theorem atClock_dieStart (recovery : Bool) (d : ℕ) {s : Device} (hs : s.AtClock fr ck) :
    (dieStart recovery d s).AtClock fr ck := by
  unfold dieStart
  repeat' first
    | with_reducible assumption
    | with_reducible apply atClock_chanBlank
    | with_reducible apply atClock_dieWords
    | with_reducible apply Device.atClock_modDie
    | with_reducible apply atClock_gleanCopy
    | with_reducible apply atClock_otpLoad
    | with_reducible apply atClock_ledgerClear
    | with_reducible apply Device.atClock_ite
    | with_reducible apply Device.atClock_each
    | intro _
    | split
    | dsimp only

theorem atClock_gleanReport (d : ℕ) (g : Glean) (o : RetOutcome) {s : Device} (hs : s.AtClock fr ck) :
    (gleanReport d g o s).AtClock fr ck := by
  unfold gleanReport
  repeat' first
    | with_reducible assumption
    | with_reducible apply Device.atClock_setReg
    | with_reducible apply Device.atClock_pset
    | with_reducible apply Device.atClock_ite
    | intro _
    | split
    | dsimp only

theorem atClock_darkReport (d : ℕ) (o : RetOutcome) {s : Device} (hs : s.AtClock fr ck) :
    (darkReport d o s).AtClock fr ck := by
  unfold darkReport
  repeat' first
    | with_reducible assumption
    | with_reducible apply atClock_setIrq
    | with_reducible apply atClock_logEvent
    | with_reducible apply atClock_ledgerClear
    | with_reducible apply Device.atClock_pset
    | intro _
    | split
    | dsimp only

theorem atClock_chanStart (dark : Bool) (r : Retention) (g : ℕ) {s : Device} (hs : s.AtClock fr ck) :
    (chanStart dark r g s).AtClock fr ck := by
  unfold chanStart
  repeat' first
    | with_reducible assumption
    | with_reducible apply Device.atClock_modCh
    | with_reducible apply atClock_keptSetpoints
    | with_reducible apply Device.atClock_cset
    | with_reducible apply atClock_closeEpoch
    | with_reducible apply Device.atClock_ite
    | intro _
    | split
    | dsimp only

theorem atClock_refAtLoad (d : ℕ) {s : Device} (hs : s.AtClock fr ck) :
    (refAtLoad d s).AtClock fr ck := by
  unfold refAtLoad
  repeat' first
    | with_reducible assumption
    | with_reducible apply Device.atClock_dset
    | with_reducible apply Device.atClock_modDie
    | with_reducible apply Device.atClock_cset
    | with_reducible apply Device.atClock_ite
    | with_reducible apply Device.atClock_each
    | intro _
    | split
    | dsimp only

theorem atClock_dieDecide (d : ℕ) {s : Device} (hs : s.AtClock fr ck) :
    (dieDecide d s).AtClock fr ck := by
  unfold dieDecide
  repeat' first
    | with_reducible assumption
    | with_reducible apply atClock_retWrite
    | with_reducible apply atClock_chanStart
    | with_reducible apply atClock_decideWords
    | with_reducible apply Device.atClock_modDie
    | with_reducible apply atClock_refRetained
    | with_reducible apply atClock_darkReport
    | with_reducible apply atClock_gleanReport
    | with_reducible apply Device.atClock_cset
    | with_reducible apply atClock_outageWords
    | with_reducible apply Device.atClock_ite
    | with_reducible apply Device.atClock_each
    | intro _
    | split
    | dsimp only

theorem atClock_restoreDie (d : ℕ) {s : Device} (hs : s.AtClock fr ck) :
    (restoreDie d s).AtClock fr ck := by
  unfold restoreDie
  repeat' first
    | with_reducible assumption
    | with_reducible apply atClock_gleanEnables
    | with_reducible apply atClock_refAtLoad
    | with_reducible apply atClock_genDiff
    | with_reducible apply atClock_coldConsts
    | with_reducible apply atClock_noRecord
    | with_reducible apply atClock_restoreChan
    | with_reducible apply Device.atClock_ite
    | with_reducible apply Device.atClock_each
    | intro _
    | split
    | dsimp only

/-! Reset. -/

theorem atClock_seatsAgain {s : Device} (hs : s.AtClock fr ck) :
    (seatsAgain s).AtClock fr ck := by
  unfold seatsAgain
  repeat' first
    | with_reducible assumption
    | with_reducible apply Device.atClock_modEng
    | with_reducible apply Device.atClock_ite
    | with_reducible apply Device.atClock_foldl
    | intro _
    | split
    | dsimp only

theorem atClock_leadFresh {s : Device} (hs : s.AtClock fr ck) :
    (leadFresh s).AtClock fr ck := by
  unfold leadFresh
  repeat' first
    | with_reducible assumption
    | with_reducible apply atClock_schedulerStart
    | with_reducible apply Device.atClock_mk
    | with_reducible apply Device.AtClock.both
    | intro _
    | split
    | dsimp only

theorem atClock_recoveriesUp {s : Device} (hs : s.AtClock fr ck) :
    (recoveriesUp s).AtClock fr ck := by
  unfold recoveriesUp
  repeat' first
    | with_reducible assumption
    | with_reducible apply atClock_publishDies
    | with_reducible apply atClock_dieStart
    | with_reducible apply Device.atClock_ite
    | with_reducible apply Device.atClock_each
    | intro _
    | split
    | dsimp only

theorem atClock_holdQualify {s : Device} (hs : s.AtClock fr ck) :
    (holdQualify s).AtClock fr ck := by
  unfold holdQualify
  repeat' first
    | with_reducible assumption
    | with_reducible apply atClock_stateValves
    | with_reducible apply atClock_seqOn
    | with_reducible apply atClock_changeState
    | intro _
    | split
    | dsimp only

theorem atClock_pulsesDue {s : Device} (hs : s.AtClock fr ck) :
    (pulsesDue s).AtClock fr ck := by
  unfold pulsesDue
  repeat' first
    | with_reducible assumption
    | with_reducible apply atClock_modPulse
    | with_reducible apply Device.atClock_ite
    | with_reducible apply Device.atClock_each
    | intro _
    | split
    | dsimp only

theorem atClock_setStart (cause : ℕ) {s : Device} (hs : s.AtClock fr ck) :
    (setStart cause s).AtClock fr ck := by
  unfold setStart
  repeat' first
    | with_reducible assumption
    | with_reducible apply Device.atClock_modSup
    | intro _
    | split
    | dsimp only

theorem atClock_pkgWatchdog {s : Device} (hs : s.AtClock fr ck) :
    (pkgWatchdog s).AtClock fr ck := by
  unfold pkgWatchdog
  repeat' first
    | with_reducible assumption
    | with_reducible apply Device.atClock_modSup
    | with_reducible apply atClock_leaseEnd
    | with_reducible apply atClock_mainStop
    | with_reducible apply atClock_nvmBatonLost
    | with_reducible apply atClock_setStart
    | with_reducible apply Device.atClock_ite
    | with_reducible apply Device.atClock_each
    | intro _
    | split
    | dsimp only

theorem atClock_trainingFailed (d : ℕ) {s : Device} (hs : s.AtClock fr ck) :
    (trainingFailed d s).AtClock fr ck := by
  unfold trainingFailed
  repeat' first
    | with_reducible assumption
    | with_reducible apply Device.atClock_modDie
    | with_reducible apply atClock_valvesHusk
    | with_reducible apply atClock_gatesOff
    | with_reducible apply Device.atClock_ite
    | with_reducible apply Device.atClock_each
    | intro _
    | split
    | dsimp only

theorem atClock_takeControl (d : ℕ) {s : Device} (hs : s.AtClock fr ck) :
    (takeControl d s).AtClock fr ck := by
  unfold takeControl
  repeat' first
    | with_reducible assumption
    | with_reducible apply Device.atClock_modDie
    | with_reducible apply atClock_huskIdle
    | with_reducible apply Device.atClock_ite
    | with_reducible apply Device.atClock_each
    | intro _
    | split
    | dsimp only

theorem atClock_leaveHold {s : Device} (hs : s.AtClock fr ck) :
    (leaveHold s).AtClock fr ck := by
  unfold leaveHold
  repeat' first
    | with_reducible assumption
    | with_reducible apply atClock_holdQualify
    | with_reducible apply Device.atClock_ite
    | intro _
    | split
    | dsimp only

theorem atClock_enterHold {s : Device} (hs : s.AtClock fr ck) :
    (enterHold s).AtClock fr ck := by
  unfold enterHold
  repeat' first
    | with_reducible assumption
    | with_reducible apply atClock_stateValves
    | with_reducible apply atClock_changeState
    | with_reducible apply atClock_seqOffHold
    | intro _
    | split
    | dsimp only

theorem atClock_dropRelease (g : ℕ) {s : Device} (hs : s.AtClock fr ck) :
    (dropRelease g s).AtClock fr ck := by
  unfold dropRelease
  repeat' first
    | with_reducible assumption
    | with_reducible apply Device.atClock_modDue
    | with_reducible apply Device.atClock_ite
    | intro _
    | split
    | dsimp only

theorem atClock_tripNonRun {s : Device} (hs : s.AtClock fr ck) :
    (tripNonRun s).AtClock fr ck := by
  unfold tripNonRun
  repeat' first
    | with_reducible assumption
    | with_reducible apply atClock_leaveHold
    | with_reducible apply atClock_enterHold
    | with_reducible apply atClock_handoverValves
    | with_reducible apply atClock_stopChannel
    | with_reducible apply atClock_dropRelease
    | with_reducible apply Device.atClock_each
    | intro _
    | split
    | dsimp only

theorem atClock_loadEnd {s : Device} (hs : s.AtClock fr ck) :
    (loadEnd s).AtClock fr ck := by
  unfold loadEnd
  repeat' first
    | with_reducible assumption
    | with_reducible apply atClock_trainingFailed
    | with_reducible apply atClock_takeControl
    | with_reducible apply atClock_publishDies
    | with_reducible apply atClock_changeState
    | with_reducible apply atClock_seqOn
    | with_reducible apply atClock_tripNonRun
    | with_reducible apply atClock_stateValves
    | with_reducible apply Device.atClock_ite
    | with_reducible apply Device.atClock_each
    | intro _
    | split
    | dsimp only

theorem atClock_resumeChan (g : ℕ) {s : Device} (hs : s.AtClock fr ck) :
    (resumeChan g s).AtClock fr ck := by
  unfold resumeChan
  repeat' first
    | with_reducible assumption
    | with_reducible apply Device.atClock_cset
    | with_reducible apply atClock_traceEvent
    | with_reducible apply atClock_recipeEnd
    | with_reducible apply atClock_endStep
    | with_reducible apply atClock_engMode
    | with_reducible apply atClock_setEng
    | with_reducible apply Device.atClock_modEng
    | with_reducible apply atClock_carryResume
    | with_reducible apply atClock_setMap
    | with_reducible apply Device.atClock_pinc
    | with_reducible apply Device.atClock_ite
    | intro _
    | split
    | dsimp only

theorem atClock_resumeDie (d : ℕ) {s : Device} (hs : s.AtClock fr ck) :
    (resumeDie d s).AtClock fr ck := by
  unfold resumeDie
  repeat' first
    | with_reducible assumption
    | with_reducible apply atClock_resumeChan
    | with_reducible apply Device.atClock_ite
    | with_reducible apply Device.atClock_each
    | intro _
    | split
    | dsimp only

theorem atClock_warmStart {s : Device} (hs : s.AtClock fr ck) :
    (warmStart s).AtClock fr ck := by
  unfold warmStart
  repeat' first
    | with_reducible assumption
    | with_reducible apply atClock_setStart
    | with_reducible apply Device.atClock_ite
    | intro _
    | split
    | dsimp only

theorem atClock_pulsesLoad {s : Device} (hs : s.AtClock fr ck) :
    (pulsesLoad s).AtClock fr ck := by
  unfold pulsesLoad
  repeat' first
    | with_reducible assumption
    | with_reducible apply atClock_modPulse
    | with_reducible apply atClock_putResq
    | with_reducible apply Device.atClock_ite
    | with_reducible apply Device.atClock_each
    | intro _
    | split
    | dsimp only

theorem atClock_coldPowerOn {s : Device} (hs : s.AtClock fr ck) :
    (coldPowerOn s).AtClock fr ck := by
  unfold coldPowerOn
  repeat' first
    | with_reducible assumption
    | with_reducible apply atClock_setStart
    | with_reducible apply Device.atClock_pset
    | with_reducible apply Device.atClock_ite
    | intro _
    | split
    | dsimp only

theorem atClock_restartAll (cause : ℕ) {s : Device} (hs : s.AtClock fr ck) :
    (restartAll cause s).AtClock fr ck := by
  unfold restartAll
  repeat' first
    | with_reducible assumption
    | with_reducible apply atClock_setStart
    | with_reducible apply atClock_stopAll
    | intro _
    | split
    | dsimp only

theorem atClock_softReset {s : Device} (hs : s.AtClock fr ck) :
    (softReset s).AtClock fr ck := by
  unfold softReset
  repeat' first
    | with_reducible assumption
    | with_reducible apply Device.atClock_modSup
    | with_reducible apply atClock_restartAll
    | with_reducible apply Device.atClock_ite
    | intro _
    | split
    | dsimp only

theorem atClock_otpReload (d : ℕ) {s : Device} (hs : s.AtClock fr ck) :
    (otpReload d s).AtClock fr ck := by
  unfold otpReload
  repeat' first
    | with_reducible assumption
    | with_reducible apply atClock_otpRefuse
    | with_reducible apply atClock_restartAll
    | with_reducible apply Device.atClock_ite
    | intro _
    | split
    | dsimp only

theorem atClock_releaseAll (data : Sys2Proof.Word) {s : Device} (hs : s.AtClock fr ck) :
    (releaseAll data s).AtClock fr ck := by
  unfold releaseAll
  repeat' first
    | with_reducible assumption
    | with_reducible apply atClock_seqCmd
    | with_reducible apply Device.atClock_ite
    | with_reducible apply Device.atClock_each
    | intro _
    | split
    | dsimp only

theorem atClock_resetNRise {s : Device} (hs : s.AtClock fr ck) :
    (resetNRise s).AtClock fr ck := by
  unfold resetNRise
  repeat' first
    | with_reducible assumption
    | with_reducible apply atClock_startSequencer
    | with_reducible apply Device.atClock_modPins
    | with_reducible apply Device.atClock_modSup
    | with_reducible apply Device.atClock_ite
    | intro _
    | split
    | dsimp only

theorem atClock_autoStart (g : ℕ) {s : Device} (hs : s.AtClock fr ck) :
    (autoStart g s).AtClock fr ck := by
  unfold autoStart
  repeat' first
    | with_reducible assumption
    | with_reducible apply atClock_startRecipe
    | with_reducible apply Device.atClock_ite
    | intro _
    | split
    | dsimp only

theorem atClock_lockWaitTimeout {s : Device} (hs : s.AtClock fr ck) :
    (lockWaitTimeout s).AtClock fr ck := by
  unfold lockWaitTimeout
  repeat' first
    | with_reducible assumption
    | with_reducible apply Device.atClock_modSup
    | with_reducible apply Device.atClock_pset
    | with_reducible apply Device.atClock_ite
    | intro _
    | split
    | dsimp only

theorem atClock_husksAll (b : Bool) {s : Device} (hs : s.AtClock fr ck) :
    (husksAll b s).AtClock fr ck := by
  unfold husksAll
  repeat' first
    | with_reducible assumption
    | with_reducible apply Device.atClock_modPins
    | intro _
    | split
    | dsimp only

theorem atClock_resumeCounts {s : Device} (hs : s.AtClock fr ck) :
    (resumeCounts s).AtClock fr ck := by
  unfold resumeCounts
  repeat' first
    | with_reducible assumption
    | with_reducible apply Device.atClock_pset
    | intro _
    | split
    | dsimp only

theorem atClock_resumeAll {s : Device} (hs : s.AtClock fr ck) :
    (resumeAll s).AtClock fr ck := by
  unfold resumeAll
  repeat' first
    | with_reducible assumption
    | with_reducible apply atClock_autoStart
    | with_reducible apply atClock_resumeDie
    | with_reducible apply atClock_resumeCounts
    | with_reducible apply Device.atClock_pset
    | with_reducible apply Device.atClock_ite
    | with_reducible apply Device.atClock_each
    | intro _
    | split
    | dsimp only

theorem atClock_qualifyPass {s : Device} (hs : s.AtClock fr ck) :
    (qualifyPass s).AtClock fr ck := by
  unfold qualifyPass
  repeat' first
    | with_reducible assumption
    | with_reducible apply atClock_resumeAll
    | with_reducible apply atClock_stateValves
    | with_reducible apply Device.atClock_modSup
    | with_reducible apply atClock_changeState
    | with_reducible apply Device.atClock_ite
    | intro _
    | split
    | dsimp only

theorem atClock_diesUp (cause : ℕ) (dies : List ℕ) {s : Device} (hs : s.AtClock fr ck) :
    (diesUp cause dies s).AtClock fr ck := by
  unfold diesUp
  repeat' first
    | with_reducible assumption
    | with_reducible apply Device.atClock_modDie
    | with_reducible apply Device.atClock_modLink
    | with_reducible apply atClock_dieStart
    | with_reducible apply Device.atClock_each
    | intro _
    | split
    | dsimp only

theorem atClock_startStat (cause : ℕ) {s : Device} (hs : s.AtClock fr ck) :
    (startStat cause s).AtClock fr ck := by
  unfold startStat
  repeat' first
    | with_reducible assumption
    | with_reducible apply Device.atClock_pset
    | with_reducible apply Device.atClock_ite
    | intro _
    | split
    | dsimp only

theorem atClock_pkgStart (tmode : Bool) {s : Device} (hs : s.AtClock fr ck) :
    (pkgStart tmode s).AtClock fr ck := by
  unfold pkgStart
  repeat' first
    | with_reducible assumption
    | with_reducible apply atClock_recoveriesUp
    | with_reducible apply atClock_stopAll
    | with_reducible apply atClock_diesUp
    | with_reducible apply atClock_leadFresh
    | with_reducible apply atClock_seatsAgain
    | with_reducible apply atClock_benchBaton
    | with_reducible apply atClock_stateValves
    | with_reducible apply atClock_clampTest
    | with_reducible apply atClock_pulsesDue
    | with_reducible apply atClock_startStat
    | with_reducible apply atClock_ckptRequest
    | with_reducible apply atClock_logEvent
    | with_reducible apply atClock_publishDies
    | with_reducible apply atClock_husksAll
    | with_reducible apply atClock_gleanRise
    | with_reducible apply Device.atClock_modSup
    | with_reducible apply Device.atClock_setReg
    | with_reducible apply Device.atClock_pset
    | with_reducible apply Device.atClock_ite
    | with_reducible apply Device.atClock_foldl
    | with_reducible apply Device.atClock_each
    | intro _
    | split
    | dsimp only

theorem atClock_resetNLow {s : Device} (hs : s.AtClock fr ck) :
    (resetNLow s).AtClock fr ck := by
  unfold resetNLow
  repeat' first
    | with_reducible assumption
    | with_reducible apply atClock_stopAll
    | with_reducible apply Device.atClock_modPins
    | with_reducible apply Device.atClock_modSup
    | with_reducible apply atClock_setStart
    | with_reducible apply Device.atClock_ite
    | intro _
    | split
    | dsimp only

theorem atClock_loadImage {s : Device} (hs : s.AtClock fr ck) :
    (loadImage s).AtClock fr ck := by
  unfold loadImage
  repeat' first
    | with_reducible assumption
    | with_reducible apply atClock_dieDecide
    | with_reducible apply atClock_shadowRebuild
    | with_reducible apply atClock_imageLoad
    | with_reducible apply atClock_pulsesLoad
    | with_reducible apply atClock_gleanRise
    | with_reducible apply atClock_restoreDie
    | with_reducible apply Device.atClock_pset
    | with_reducible apply Device.atClock_ite
    | with_reducible apply Device.atClock_each
    | intro _
    | split
    | dsimp only

theorem atClock_hostSoftReset (key : ℕ) {s : Device} (hs : s.AtClock fr ck) :
    (hostSoftReset key s).AtClock fr ck := by
  unfold hostSoftReset
  repeat' first
    | with_reducible assumption
    | with_reducible apply atClock_softReset
    | with_reducible apply Device.atClock_ite
    | intro _
    | split
    | dsimp only

theorem atClock_lockClock {s : Device} (hs : s.AtClock fr ck) :
    (lockClock s).AtClock fr ck := by
  unfold lockClock
  repeat' first
    | with_reducible assumption
    | with_reducible apply Device.atClock_modSup
    | with_reducible apply Device.atClock_ite
    | intro _
    | split
    | dsimp only

/-! Handover. -/

theorem atClock_shipExit (cause : ℕ) {s : Device} (hs : s.AtClock fr ck) :
    (shipExit cause s).AtClock fr ck := by
  unfold shipExit
  repeat' first
    | with_reducible assumption
    | with_reducible apply Device.atClock_modGlean
    | with_reducible apply atClock_startSequencer
    | with_reducible apply Device.atClock_modPins
    | with_reducible apply Device.atClock_pset
    | with_reducible apply Device.atClock_ite
    | with_reducible apply Device.atClock_each
    | intro _
    | split
    | dsimp only

theorem atClock_shipWakeN (lowMs : ℕ) {s : Device} (hs : s.AtClock fr ck) :
    (shipWakeN lowMs s).AtClock fr ck := by
  unfold shipWakeN
  repeat' first
    | with_reducible assumption
    | with_reducible apply atClock_shipExit
    | with_reducible apply Device.atClock_ite
    | intro _
    | split
    | dsimp only

theorem atClock_enterKeep {s : Device} (hs : s.AtClock fr ck) :
    (enterKeep s).AtClock fr ck := by
  unfold enterKeep
  repeat' first
    | with_reducible assumption
    | with_reducible apply atClock_setPkgState
    | with_reducible apply atClock_stopAll
    | intro _
    | split
    | dsimp only

theorem atClock_controlledStop {s : Device} (hs : s.AtClock fr ck) :
    (controlledStop s).AtClock fr ck := by
  unfold controlledStop
  repeat' first
    | with_reducible assumption
    | with_reducible apply atClock_enterKeep
    | with_reducible apply atClock_railOff
    | with_reducible apply atClock_seqOff
    | with_reducible apply Device.atClock_ite
    | with_reducible apply Device.atClock_foldl
    | intro _
    | split
    | dsimp only

theorem atClock_holdStoreLow {s : Device} (hs : s.AtClock fr ck) :
    (holdStoreLow s).AtClock fr ck := by
  unfold holdStoreLow
  repeat' first
    | with_reducible assumption
    | with_reducible apply atClock_controlledStop
    | with_reducible apply Device.atClock_ite
    | intro _
    | split
    | dsimp only

theorem atClock_pfReady {s : Device} (hs : s.AtClock fr ck) :
    (pfReady s).AtClock fr ck := by
  unfold pfReady
  repeat' first
    | with_reducible assumption
    | with_reducible apply Device.atClock_modSup
    | with_reducible apply atClock_leaveHold
    | with_reducible apply Device.atClock_ite
    | intro _
    | split
    | dsimp only

theorem atClock_carryDeferred {s : Device} (hs : s.AtClock fr ck) :
    (carryDeferred s).AtClock fr ck := by
  unfold carryDeferred
  repeat' first
    | with_reducible assumption
    | with_reducible apply Device.atClock_modSup
    | with_reducible apply atClock_restartAll
    | with_reducible apply atClock_pkgWatchdog
    | with_reducible apply Device.atClock_ite
    | intro _
    | split
    | dsimp only

theorem atClock_handoverComplete {s : Device} (hs : s.AtClock fr ck) :
    (handoverComplete s).AtClock fr ck := by
  unfold handoverComplete
  repeat' first
    | with_reducible assumption
    | with_reducible apply atClock_enterHold
    | with_reducible apply atClock_logEvent
    | with_reducible apply atClock_carryDeferred
    | with_reducible apply atClock_nvmRun
    | with_reducible apply atClock_leaveHold
    | with_reducible apply Device.atClock_pset
    | with_reducible apply Device.atClock_pinc
    | with_reducible apply Device.atClock_ite
    | intro _
    | split
    | dsimp only

theorem atClock_vsysCollapse {s : Device} (hs : s.AtClock fr ck) :
    (vsysCollapse s).AtClock fr ck := by
  unfold vsysCollapse
  repeat' first
    | with_reducible assumption
    | with_reducible apply atClock_enterKeep
    | with_reducible apply Device.atClock_ite
    | intro _
    | split
    | dsimp only

theorem atClock_shipDown {s : Device} (hs : s.AtClock fr ck) :
    (shipDown s).AtClock fr ck := by
  unfold shipDown
  repeat' first
    | with_reducible assumption
    | with_reducible apply atClock_railOff
    | with_reducible apply Device.atClock_modPins
    | with_reducible apply atClock_setPkgState
    | with_reducible apply atClock_stopAll
    | with_reducible apply Device.atClock_modGlean
    | with_reducible apply Device.atClock_ite
    | with_reducible apply Device.atClock_foldl
    | intro _
    | split
    | dsimp only

theorem atClock_pageForm {s : Device} (hs : s.AtClock fr ck) :
    (pageForm s).AtClock fr ck := by
  unfold pageForm
  repeat' first
    | with_reducible assumption
    | with_reducible apply Device.atClock_modSup
    | intro _
    | split
    | dsimp only

theorem atClock_cutTransfer {s : Device} (hs : s.AtClock fr ck) :
    (cutTransfer s).AtClock fr ck := by
  unfold cutTransfer
  repeat' first
    | with_reducible assumption
    | with_reducible apply atClock_nvmCount
    | with_reducible apply atClock_ptEnd
    | with_reducible apply Device.atClock_modNvm
    | with_reducible apply Device.atClock_ite
    | intro _
    | split
    | dsimp only

theorem atClock_cutCheckpoint {s : Device} (hs : s.AtClock fr ck) :
    (cutCheckpoint s).AtClock fr ck := by
  unfold cutCheckpoint
  repeat' first
    | with_reducible assumption
    | with_reducible apply Device.atClock_modSup
    | with_reducible apply atClock_nvmCount
    | with_reducible apply Device.atClock_modNvm
    | with_reducible apply Device.atClock_pset
    | with_reducible apply Device.atClock_ite
    | intro _
    | split
    | dsimp only

theorem atClock_takePort (slot : ℕ) (write : Bool) {s : Device} (hs : s.AtClock fr ck) :
    (takePort slot write s).AtClock fr ck := by
  unfold takePort
  repeat' first
    | with_reducible assumption
    | with_reducible apply atClock_fallKick
    | with_reducible apply Device.atClock_modSup
    | with_reducible apply atClock_nvmFree
    | with_reducible apply Device.atClock_modNvm
    | with_reducible apply Device.atClock_pset
    | with_reducible apply Device.atClock_ite
    | intro _
    | split
    | dsimp only

theorem atClock_cutErase {s : Device} (hs : s.AtClock fr ck) :
    (cutErase s).AtClock fr ck := by
  unfold cutErase
  repeat' first
    | with_reducible assumption
    | with_reducible apply atClock_flashCut
    | intro _
    | split
    | dsimp only

theorem atClock_spareUsed (begun : Bool) {s : Device} (hs : s.AtClock fr ck) :
    (spareUsed begun s).AtClock fr ck := by
  unfold spareUsed
  repeat' first
    | with_reducible assumption
    | with_reducible apply atClock_nvmPush
    | with_reducible apply Device.atClock_pset
    | with_reducible apply Device.atClock_ite
    | intro _
    | split
    | dsimp only

theorem atClock_handoverNvm {s : Device} (hs : s.AtClock fr ck) :
    (handoverNvm s).AtClock fr ck := by
  unfold handoverNvm
  repeat' first
    | with_reducible assumption
    | with_reducible apply atClock_pageForm
    | with_reducible apply atClock_pinCut
    | with_reducible apply atClock_cutTransfer
    | with_reducible apply atClock_cutCheckpoint
    | with_reducible apply atClock_takePort
    | with_reducible apply atClock_cutErase
    | with_reducible apply Device.atClock_modSup
    | with_reducible apply atClock_spareUsed
    | with_reducible apply atClock_nvmPush
    | with_reducible apply Device.atClock_pset
    | with_reducible apply Device.atClock_ite
    | intro _
    | split
    | dsimp only

theorem atClock_powerFailTrip (own : ℕ) {s : Device} (hs : s.AtClock fr ck) :
    (powerFailTrip own s).AtClock fr ck := by
  unfold powerFailTrip
  repeat' first
    | with_reducible assumption
    | with_reducible apply Device.atClock_modSup
    | with_reducible apply Device.atClock_modRecov
    | with_reducible apply atClock_mainStop
    | with_reducible apply atClock_dropRelease
    | with_reducible apply atClock_otpCutShort
    | with_reducible apply atClock_changeState
    | with_reducible apply atClock_handoverNvm
    | with_reducible apply atClock_stopChannel
    | with_reducible apply atClock_handoverValves
    | with_reducible apply atClock_retCommit
    | with_reducible apply Device.atClock_pset
    | with_reducible apply Device.atClock_ite
    | with_reducible apply Device.atClock_each
    | with_reducible apply Device.atClock_mk
    | with_reducible apply Device.AtClock.both
    | intro _
    | split
    | dsimp only

theorem atClock_vbusGood {s : Device} (hs : s.AtClock fr ck) :
    (vbusGood s).AtClock fr ck := by
  unfold vbusGood
  repeat' first
    | with_reducible assumption
    | with_reducible apply atClock_qualRestart
    | with_reducible apply atClock_leaveHold
    | with_reducible apply Device.atClock_pset
    | with_reducible apply Device.atClock_ite
    | intro _
    | split
    | dsimp only

theorem atClock_localPfTrip (d : ℕ) {s : Device} (hs : s.AtClock fr ck) :
    (localPfTrip d s).AtClock fr ck := by
  unfold localPfTrip
  repeat' first
    | with_reducible assumption
    | with_reducible apply atClock_stopChannel
    | with_reducible apply atClock_requestRun
    | with_reducible apply atClock_leaseWait
    | with_reducible apply atClock_logEvent
    | with_reducible apply Device.atClock_ite
    | with_reducible apply Device.atClock_each
    | intro _
    | split
    | dsimp only

theorem atClock_shipEnter (data : Sys2Proof.Word) {s : Device} (hs : s.AtClock fr ck) :
    (shipEnter data s).AtClock fr ck := by
  unfold shipEnter
  repeat' first
    | with_reducible assumption
    | with_reducible apply Device.atClock_modGlean
    | with_reducible apply Device.atClock_modSup
    | with_reducible apply atClock_ckptRequest
    | with_reducible apply atClock_retCommit
    | with_reducible apply Device.atClock_pset
    | with_reducible apply Device.atClock_ite
    | with_reducible apply Device.atClock_each
    | intro _
    | split
    | dsimp only

theorem atClock_shipBoundary {s : Device} (hs : s.AtClock fr ck) :
    (shipBoundary s).AtClock fr ck := by
  unfold shipBoundary
  repeat' first
    | with_reducible assumption
    | with_reducible apply atClock_seqOff
    | with_reducible apply Device.atClock_modSup
    | with_reducible apply atClock_shipDown
    | with_reducible apply Device.atClock_ite
    | intro _
    | split
    | dsimp only

theorem atClock_holdMaxExpiry {s : Device} (hs : s.AtClock fr ck) :
    (holdMaxExpiry s).AtClock fr ck := by
  unfold holdMaxExpiry
  repeat' first
    | with_reducible assumption
    | with_reducible apply atClock_controlledStop
    | with_reducible apply Device.atClock_ite
    | intro _
    | split
    | dsimp only

theorem atClock_pfTripNonRun {s : Device} (hs : s.AtClock fr ck) :
    (pfTripNonRun s).AtClock fr ck := by
  unfold pfTripNonRun
  repeat' first
    | with_reducible assumption
    | with_reducible apply Device.atClock_modSup
    | with_reducible apply atClock_tripNonRun
    | with_reducible apply Device.atClock_ite
    | intro _
    | split
    | dsimp only

theorem atClock_shipVbusWake {s : Device} (hs : s.AtClock fr ck) :
    (shipVbusWake s).AtClock fr ck := by
  unfold shipVbusWake
  repeat' first
    | with_reducible assumption
    | with_reducible apply atClock_shipExit
    | with_reducible apply Device.atClock_ite
    | intro _
    | split
    | dsimp only

/-! Recovery. -/

theorem atClock_leadStallBalls {s : Device} (hs : s.AtClock fr ck) :
    (leadStallBalls s).AtClock fr ck := by
  unfold leadStallBalls
  repeat' first
    | with_reducible assumption
    | with_reducible apply atClock_railOff
    | with_reducible apply Device.atClock_modPins
    | with_reducible apply atClock_nvmStop
    | with_reducible apply atClock_plsCut
    | with_reducible apply Device.atClock_ite
    | with_reducible apply Device.atClock_foldl
    | intro _
    | split
    | dsimp only

theorem atClock_dieStall (d : ℕ) {s : Device} (hs : s.AtClock fr ck) :
    (dieStall d s).AtClock fr ck := by
  unfold dieStall
  repeat' first
    | with_reducible assumption
    | with_reducible apply Device.atClock_dinc
    | with_reducible apply Device.atClock_dset
    | with_reducible apply atClock_valvesHusk
    | with_reducible apply atClock_gatesOff
    | with_reducible apply atClock_leadStallBalls
    | with_reducible apply atClock_publishDies
    | with_reducible apply Device.atClock_modDie
    | with_reducible apply Device.atClock_ite
    | with_reducible apply Device.atClock_each
    | intro _
    | split
    | dsimp only

theorem atClock_dropPosts (d : ℕ) {s : Device} (hs : s.AtClock fr ck) :
    (dropPosts d s).AtClock fr ck := by
  unfold dropPosts
  repeat' first
    | with_reducible assumption
    | with_reducible apply Device.atClock_modHost
    | with_reducible apply Device.atClock_pset
    | with_reducible apply Device.atClock_ite
    | intro _
    | split
    | dsimp only

theorem atClock_recoveryDone (d : ℕ) {s : Device} (hs : s.AtClock fr ck) :
    (recoveryDone d s).AtClock fr ck := by
  unfold recoveryDone
  repeat' first
    | with_reducible assumption
    | with_reducible apply Device.atClock_modDie
    | with_reducible apply atClock_publishDies
    | with_reducible apply atClock_logEvent
    | with_reducible apply atClock_resumeDie
    | with_reducible apply atClock_resumeCounts
    | with_reducible apply atClock_huskIdle
    | with_reducible apply Device.atClock_psetBit
    | with_reducible apply Device.atClock_ite
    | with_reducible apply Device.atClock_each
    | intro _
    | split
    | dsimp only

theorem atClock_cacheLoad (d : ℕ) {s : Device} (hs : s.AtClock fr ck) :
    (cacheLoad d s).AtClock fr ck := by
  unfold cacheLoad
  repeat' first
    | with_reducible assumption
    | with_reducible apply Device.atClock_modDie
    | with_reducible apply atClock_dieSettled
    | with_reducible apply atClock_applyEntries
    | with_reducible apply Device.atClock_foldl
    | intro _
    | split
    | dsimp only

theorem atClock_dieReturns (d : ℕ) {s : Device} (hs : s.AtClock fr ck) :
    (dieReturns d s).AtClock fr ck := by
  unfold dieReturns
  repeat' first
    | with_reducible assumption
    | with_reducible apply atClock_shadowRebuild
    | with_reducible apply atClock_restoreDie
    | with_reducible apply atClock_cacheLoad
    | with_reducible apply atClock_dieDecide
    | intro _
    | split
    | dsimp only

theorem atClock_dropReads (d : ℕ) {s : Device} (hs : s.AtClock fr ck) :
    (dropReads d s).AtClock fr ck := by
  unfold dropReads
  repeat' first
    | with_reducible assumption
    | with_reducible apply Device.atClock_setBulk
    | intro _
    | split
    | dsimp only

theorem atClock_takeBack (d : ℕ) {s : Device} (hs : s.AtClock fr ck) :
    (takeBack d s).AtClock fr ck := by
  unfold takeBack
  repeat' first
    | with_reducible assumption
    | with_reducible apply Device.atClock_modLease
    | with_reducible apply atClock_nvmBatonLost
    | with_reducible apply atClock_logEvent
    | with_reducible apply atClock_valveBatons
    | with_reducible apply Device.atClock_setBanks
    | with_reducible apply Device.atClock_setGrants
    | with_reducible apply atClock_setMap
    | with_reducible apply Device.atClock_pset
    | with_reducible apply Device.atClock_ite
    | with_reducible apply Device.atClock_foldl
    | with_reducible apply Device.atClock_each
    | intro _
    | split
    | dsimp only

theorem atClock_benchOut (d : ℕ) {s : Device} (hs : s.AtClock fr ck) :
    (benchOut d s).AtClock fr ck := by
  unfold benchOut
  repeat' first
    | with_reducible assumption
    | with_reducible apply atClock_dropReads
    | with_reducible apply atClock_dropPosts
    | with_reducible apply atClock_valvesHusk
    | with_reducible apply atClock_mainStop
    | with_reducible apply atClock_takeBack
    | with_reducible apply Device.atClock_modDie
    | with_reducible apply Device.atClock_modRecov
    | with_reducible apply atClock_publishDies
    | with_reducible apply atClock_logEvent
    | with_reducible apply Device.atClock_pset
    | with_reducible apply Device.atClock_psetBit
    | intro _
    | split
    | dsimp only

theorem atClock_attemptFails (d : ℕ) {s : Device} (hs : s.AtClock fr ck) :
    (attemptFails d s).AtClock fr ck := by
  unfold attemptFails
  repeat' first
    | with_reducible assumption
    | with_reducible apply Device.atClock_dinc
    | with_reducible apply atClock_benchOut
    | with_reducible apply Device.atClock_ite
    | intro _
    | split
    | dsimp only

theorem atClock_leadPause (d : ℕ) {s : Device} (hs : s.AtClock fr ck) :
    (leadPause d s).AtClock fr ck := by
  unfold leadPause
  repeat' first
    | with_reducible assumption
    | with_reducible apply atClock_setMode
    | with_reducible apply Device.atClock_modLp
    | with_reducible apply Device.atClock_modDue
    | with_reducible apply Device.atClock_ite
    | with_reducible apply Device.atClock_each
    | intro _
    | split
    | dsimp only

theorem atClock_recoverDie (d : ℕ) (cause : ℕ) {s : Device} (hs : s.AtClock fr ck) :
    (recoverDie d cause s).AtClock fr ck := by
  unfold recoverDie
  repeat' first
    | with_reducible assumption
    | with_reducible apply atClock_dropReads
    | with_reducible apply atClock_takeBack
    | with_reducible apply atClock_logEvent
    | with_reducible apply Device.atClock_dinc
    | with_reducible apply atClock_publishDies
    | with_reducible apply Device.atClock_modDie
    | with_reducible apply atClock_mainStop
    | with_reducible apply Device.atClock_pset
    | with_reducible apply Device.atClock_psetBit
    | intro _
    | split
    | dsimp only

theorem atClock_recoveryStart (d : ℕ) (cause : ℕ) {s : Device} (hs : s.AtClock fr ck) :
    (recoveryStart d cause s).AtClock fr ck := by
  unfold recoveryStart
  repeat' first
    | with_reducible assumption
    | with_reducible apply atClock_attemptFails
    | with_reducible apply atClock_recoverDie
    | with_reducible apply Device.atClock_ite
    | intro _
    | split
    | dsimp only

theorem atClock_portSilentUp (d : ℕ) {s : Device} (hs : s.AtClock fr ck) :
    (portSilentUp d s).AtClock fr ck := by
  unfold portSilentUp
  repeat' first
    | with_reducible assumption
    | with_reducible apply atClock_bankRow
    | with_reducible apply Device.atClock_modLink
    | with_reducible apply Device.atClock_ite
    | intro _
    | split
    | dsimp only

theorem atClock_portSilentDown (d : ℕ) {s : Device} (hs : s.AtClock fr ck) :
    (portSilentDown d s).AtClock fr ck := by
  unfold portSilentDown
  repeat' first
    | with_reducible assumption
    | with_reducible apply atClock_recoveryStart
    | with_reducible apply atClock_logEvent
    | with_reducible apply Device.atClock_modLink
    | with_reducible apply Device.atClock_psetBit
    | with_reducible apply Device.atClock_ite
    | intro _
    | split
    | dsimp only

theorem atClock_leadHold (d : ℕ) {s : Device} (hs : s.AtClock fr ck) :
    (leadHold d s).AtClock fr ck := by
  unfold leadHold
  repeat' first
    | with_reducible assumption
    | with_reducible apply Device.atClock_modLink
    | with_reducible apply atClock_leadPause
    | with_reducible apply Device.atClock_ite
    | intro _
    | split
    | dsimp only

theorem atClock_rearm (old : ℕ) (new : ℕ) (g : ℕ) {s : Device} (hs : s.AtClock fr ck) :
    (rearm old new g s).AtClock fr ck := by
  unfold rearm
  repeat' first
    | with_reducible assumption
    | with_reducible apply Device.atClock_modEng
    | intro _
    | split
    | dsimp only

theorem atClock_leadReturn (old : ℕ) (d : ℕ) {s : Device} (hs : s.AtClock fr ck) :
    (leadReturn old d s).AtClock fr ck := by
  unfold leadReturn
  repeat' first
    | with_reducible assumption
    | with_reducible apply atClock_acirAbort
    | with_reducible apply atClock_rearm
    | with_reducible apply atClock_leadPause
    | with_reducible apply atClock_logEvent
    | with_reducible apply atClock_bankRow
    | with_reducible apply Device.atClock_modLink
    | with_reducible apply Device.atClock_pinc
    | with_reducible apply Device.atClock_ite
    | with_reducible apply Device.atClock_each
    | intro _
    | split
    | dsimp only

theorem atClock_recoveryTimeout (d : ℕ) {s : Device} (hs : s.AtClock fr ck) :
    (recoveryTimeout d s).AtClock fr ck := by
  unfold recoveryTimeout
  repeat' first
    | with_reducible assumption
    | with_reducible apply atClock_attemptFails
    | with_reducible apply Device.atClock_modRecov
    | with_reducible apply atClock_mainStop
    | with_reducible apply Device.atClock_ite
    | intro _
    | split
    | dsimp only

theorem atClock_recoveryStable (d : ℕ) {s : Device} (hs : s.AtClock fr ck) :
    (recoveryStable d s).AtClock fr ck := by
  unfold recoveryStable
  repeat' first
    | with_reducible assumption
    | with_reducible apply Device.atClock_modRecov
    | with_reducible apply Device.atClock_dset
    | with_reducible apply Device.atClock_ite
    | intro _
    | split
    | dsimp only

/-! Bulk. -/

theorem atClock_setWords {f : ℕ → Word → Device → Device} (hf : ∀ a w t, t.AtClock fr ck → (f a w t).AtClock fr ck) (a : ℕ)
    (l : List Word) {s : Device} (h : s.AtClock fr ck) : (setWords f a l s).AtClock fr ck := by
  induction l generalizing a s with
  | nil => exact h
  | cons w l ih => exact ih _ (hf _ _ _ h)

theorem atClock_snapDone {s : Device} (hs : s.AtClock fr ck) :
    (snapDone s).AtClock fr ck := by
  unfold snapDone
  repeat' first
    | with_reducible assumption
    | with_reducible apply Device.atClock_pset
    | with_reducible apply Device.atClock_ite
    | intro _
    | split
    | dsimp only

theorem atClock_snapCommit (d : ℕ) {s : Device} (hs : s.AtClock fr ck) :
    (snapCommit d s).AtClock fr ck := by
  unfold snapCommit
  repeat' first
    | with_reducible assumption
    | with_reducible apply atClock_snapDone
    | with_reducible apply Device.atClock_ite
    | with_reducible apply Device.atClock_mk
    | with_reducible apply Device.AtClock.both
    | intro _
    | split
    | dsimp only

theorem atClock_snapInvalid (d : ℕ) {s : Device} (hs : s.AtClock fr ck) :
    (snapInvalid d s).AtClock fr ck := by
  unfold snapInvalid
  repeat' first
    | with_reducible assumption
    | with_reducible apply atClock_setShd
    | with_reducible apply atClock_setWords
    | with_reducible apply atClock_snapCommit
    | with_reducible apply Device.atClock_setReg
    | with_reducible apply Device.atClock_pset
    | with_reducible apply Device.atClock_ite
    | with_reducible apply Device.atClock_each
    | intro _
    | split
    | dsimp only

theorem atClock_snapNow (bySched : Bool) {s : Device} (hs : s.AtClock fr ck) :
    (snapNow bySched s).AtClock fr ck := by
  unfold snapNow
  repeat' first
    | with_reducible assumption
    | with_reducible apply atClock_snapInvalid
    | with_reducible apply Device.atClock_pset
    | with_reducible apply Device.atClock_ite
    | with_reducible apply Device.atClock_each
    | with_reducible apply Device.atClock_mk
    | with_reducible apply Device.AtClock.both
    | intro _
    | split
    | dsimp only

theorem atClock_snapLatch (d : ℕ) (frame : ℕ) {s : Device} (hs : s.AtClock fr ck) :
    (snapLatch d frame s).AtClock fr ck := by
  unfold snapLatch
  repeat' first
    | with_reducible assumption
    | with_reducible apply atClock_setWords
    | with_reducible apply Device.atClock_setReg
    | with_reducible apply Device.atClock_ite
    | with_reducible apply Device.atClock_each
    | intro _
    | split
    | dsimp only

theorem atClock_bcastAct (b : Bcast) (d : ℕ) {s : Device} (hs : s.AtClock fr ck) :
    (bcastAct b d s).AtClock fr ck := by
  unfold bcastAct
  repeat' first
    | with_reducible assumption
    | with_reducible apply Device.atClock_modDie
    | with_reducible apply atClock_leadReturn
    | with_reducible apply atClock_snapCommit
    | with_reducible apply atClock_snapLatch
    | with_reducible apply atClock_stopChannel
    | with_reducible apply Device.atClock_ite
    | with_reducible apply Device.atClock_each
    | intro _
    | split
    | dsimp only

theorem atClock_bcastFirst (d : ℕ) {s : Device} (hs : s.AtClock fr ck) :
    (bcastFirst d s).AtClock fr ck := by
  unfold bcastFirst
  repeat' first
    | with_reducible assumption
    | with_reducible apply atClock_bcastAct
    | with_reducible apply Device.atClock_setBcast
    | with_reducible apply Device.atClock_ite
    | with_reducible apply Device.atClock_foldl
    | intro _
    | split
    | dsimp only

theorem atClock_bulkSpent {s : Device} (hs : s.AtClock fr ck) :
    (bulkSpent s).AtClock fr ck := by
  unfold bulkSpent
  repeat' first
    | with_reducible assumption
    | with_reducible apply Device.atClock_spend
    | intro _
    | split
    | dsimp only

theorem atClock_bcastExecute (k : Sys2Proof.BcastKind) {s : Device} (hs : s.AtClock fr ck) :
    (bcastExecute k s).AtClock fr ck := by
  unfold bcastExecute
  repeat' first
    | with_reducible assumption
    | with_reducible apply atClock_bcastAct
    | with_reducible apply Device.atClock_setBcast
    | with_reducible apply Device.atClock_foldl
    | with_reducible apply Device.atClock_each
    | intro _
    | split
    | dsimp only

theorem atClock_snapDisarm {s : Device} (hs : s.AtClock fr ck) :
    (snapDisarm s).AtClock fr ck := by
  unfold snapDisarm
  repeat' first
    | with_reducible assumption
    | with_reducible apply Device.atClock_pset
    | with_reducible apply Device.atClock_ite
    | with_reducible apply Device.atClock_mk
    | with_reducible apply Device.AtClock.both
    | intro _
    | split
    | dsimp only

theorem atClock_bufWrite (a : ℕ) (w : Sys2Proof.Word) {s : Device} (hs : s.AtClock fr ck) :
    (bufWrite a w s).AtClock fr ck := by
  unfold bufWrite
  repeat' first
    | with_reducible assumption
    | with_reducible apply Device.atClock_modNvm
    | with_reducible apply Device.atClock_ite
    | with_reducible apply Device.atClock_foldl
    | intro _
    | split
    | dsimp only

theorem atClock_snapTake {s : Device} (hs : s.AtClock fr ck) :
    (snapTake s).AtClock fr ck := by
  unfold snapTake
  repeat' first
    | with_reducible assumption
    | with_reducible apply Device.atClock_ite
    | with_reducible apply Device.atClock_mk
    | with_reducible apply Device.AtClock.both
    | intro _
    | split
    | dsimp only

theorem atClock_snapArm {s : Device} (hs : s.AtClock fr ck) :
    (snapArm s).AtClock fr ck := by
  unfold snapArm
  repeat' first
    | with_reducible assumption
    | with_reducible apply Device.atClock_pset
    | with_reducible apply Device.atClock_ite
    | with_reducible apply Device.atClock_mk
    | with_reducible apply Device.AtClock.both
    | intro _
    | split
    | dsimp only

theorem atClock_snapScheduled {s : Device} (hs : s.AtClock fr ck) :
    (snapScheduled s).AtClock fr ck := by
  unfold snapScheduled
  repeat' first
    | with_reducible assumption
    | with_reducible apply atClock_snapNow
    | with_reducible apply Device.atClock_modSnap
    | with_reducible apply Device.atClock_pset
    | with_reducible apply Device.atClock_ite
    | intro _
    | split
    | dsimp only

/-! Writes. -/

theorem atClock_chCtlWrite (g : ℕ) (w : Sys2Proof.Word) {s : Device} (hs : s.AtClock fr ck) :
    (chCtlWrite g w s).AtClock fr ck := by
  unfold chCtlWrite
  repeat' first
    | with_reducible assumption
    | with_reducible apply atClock_overrideChange
    | with_reducible apply atClock_protTrip
    | with_reducible apply Device.atClock_ite
    | intro _
    | split
    | dsimp only

theorem atClock_plsWrite (n : ℕ) (k : ℕ) (w : Sys2Proof.Word) {s : Device} (hs : s.AtClock fr ck) :
    (plsWrite n k w s).AtClock fr ck := by
  unfold plsWrite
  repeat' first
    | with_reducible assumption
    | with_reducible apply atClock_plsCfgWrite
    | with_reducible apply atClock_plsClr
    | intro _
    | split
    | dsimp only

theorem atClock_clrPeak (w : Sys2Proof.Word) {s : Device} (hs : s.AtClock fr ck) :
    (clrPeak w s).AtClock fr ck := by
  unfold clrPeak
  repeat' first
    | with_reducible assumption
    | with_reducible apply Device.atClock_pset
    | with_reducible apply Device.atClock_ite
    | intro _
    | split
    | dsimp only

theorem atClock_afterAdvance {s : Device} (hs : s.AtClock fr ck) :
    (afterAdvance s).AtClock fr ck := by
  unfold afterAdvance
  repeat' first
    | with_reducible assumption
    | with_reducible apply atClock_ledgerWrite
    | with_reducible apply Device.atClock_setDropped
    | with_reducible apply Device.atClock_pset
    | with_reducible apply Device.atClock_ite
    | intro _
    | split
    | dsimp only

theorem atClock_ledgerReread {s : Device} (hs : s.AtClock fr ck) :
    (ledgerReread s).AtClock fr ck := by
  unfold ledgerReread
  repeat' first
    | with_reducible assumption
    | with_reducible apply Device.atClock_pset
    | with_reducible apply Device.atClock_ite
    | intro _
    | split
    | dsimp only

theorem atClock_ledgerFlush {s : Device} (hs : s.AtClock fr ck) :
    (ledgerFlush s).AtClock fr ck := by
  unfold ledgerFlush
  repeat' first
    | with_reducible assumption
    | with_reducible apply Device.atClock_pset
    | intro _
    | split
    | dsimp only

theorem atClock_ledgerClrOvf {s : Device} (hs : s.AtClock fr ck) :
    (ledgerClrOvf s).AtClock fr ck := by
  unfold ledgerClrOvf
  repeat' first
    | with_reducible assumption
    | with_reducible apply Device.atClock_pset
    | intro _
    | split
    | dsimp only

theorem atClock_ledgerCtl (w : Sys2Proof.Word) {s : Device} (hs : s.AtClock fr ck) :
    (ledgerCtl w s).AtClock fr ck := by
  unfold ledgerCtl
  repeat' first
    | with_reducible assumption
    | with_reducible apply atClock_ledgerReread
    | with_reducible apply atClock_ledgerFlush
    | with_reducible apply atClock_ledgerClrOvf
    | with_reducible apply Device.atClock_ite
    | intro _
    | split
    | dsimp only

theorem atClock_storeWord (a : ℕ) (w : Sys2Proof.Word) {s : Device} (hs : s.AtClock fr ck) :
    (storeWord a w s).AtClock fr ck := by
  unfold storeWord
  repeat' first
    | with_reducible assumption
    | with_reducible apply atClock_storeFields
    | with_reducible apply Device.atClock_ite
    | intro _
    | split
    | dsimp only

theorem atClock_benchCtlWrite (d : ℕ) (w : Sys2Proof.Word) {s : Device} (hs : s.AtClock fr ck) :
    (benchCtlWrite d w s).AtClock fr ck := by
  unfold benchCtlWrite
  repeat' first
    | with_reducible assumption
    | with_reducible apply atClock_storeWord
    | with_reducible apply atClock_benchForce
    | with_reducible apply atClock_benchQueue
    | with_reducible apply Device.atClock_ite
    | intro _
    | split
    | dsimp only

theorem atClock_valveReqWrite (v : ℕ) (w : Sys2Proof.Word) {s : Device} (hs : s.AtClock fr ck) :
    (valveReqWrite v w s).AtClock fr ck := by
  unfold valveReqWrite
  repeat' first
    | with_reducible assumption
    | with_reducible apply atClock_valveReq
    | with_reducible apply Device.atClock_ite
    | intro _
    | split
    | dsimp only

theorem atClock_snapCtlWrite (w : Sys2Proof.Word) {s : Device} (hs : s.AtClock fr ck) :
    (snapCtlWrite w s).AtClock fr ck := by
  unfold snapCtlWrite
  repeat' first
    | with_reducible assumption
    | with_reducible apply atClock_snapTake
    | with_reducible apply atClock_snapDisarm
    | with_reducible apply atClock_snapArm
    | with_reducible apply Device.atClock_pset
    | with_reducible apply Device.atClock_ite
    | intro _
    | split
    | dsimp only

theorem atClock_frameEndWord (a : ℕ) (w : Sys2Proof.Word) {s : Device} (hs : s.AtClock fr ck) :
    (frameEndWord a w s).AtClock fr ck := by
  unfold frameEndWord
  repeat' first
    | with_reducible assumption
    | with_reducible apply atClock_hostSoftReset
    | with_reducible apply atClock_ledgerCtl
    | with_reducible apply Device.atClock_ite
    | intro _
    | split
    | dsimp only

theorem atClock_testReq {s : Device} (hs : s.AtClock fr ck) :
    (testReq s).AtClock fr ck := by
  unfold testReq
  repeat' first
    | with_reducible assumption
    | with_reducible apply Device.atClock_modHost
    | with_reducible apply Device.atClock_pset
    | with_reducible apply Device.atClock_ite
    | intro _
    | split
    | dsimp only

theorem atClock_testEnd {s : Device} (hs : s.AtClock fr ck) :
    (testEnd s).AtClock fr ck := by
  unfold testEnd
  repeat' first
    | with_reducible assumption
    | with_reducible apply Device.atClock_modHost
    | with_reducible apply Device.atClock_pset
    | with_reducible apply Device.atClock_ite
    | intro _
    | split
    | dsimp only

theorem atClock_hostCtlWrite (w : Sys2Proof.Word) {s : Device} (hs : s.AtClock fr ck) :
    (hostCtlWrite w s).AtClock fr ck := by
  unfold hostCtlWrite
  repeat' first
    | with_reducible assumption
    | with_reducible apply atClock_testReq
    | with_reducible apply atClock_testEnd
    | with_reducible apply Device.atClock_pset
    | with_reducible apply Device.atClock_ite
    | intro _
    | split
    | dsimp only

theorem atClock_runCtlWrite (w : Sys2Proof.Word) {s : Device} (hs : s.AtClock fr ck) :
    (runCtlWrite w s).AtClock fr ck := by
  unfold runCtlWrite
  repeat' first
    | with_reducible assumption
    | with_reducible apply atClock_runAbort
    | with_reducible apply atClock_runClose
    | with_reducible apply atClock_runOpen
    | with_reducible apply atClock_storeWord
    | intro _
    | split
    | dsimp only

theorem atClock_otpCmdWrite (w : Sys2Proof.Word) {s : Device} (hs : s.AtClock fr ck) :
    (otpCmdWrite w s).AtClock fr ck := by
  unfold otpCmdWrite
  repeat' first
    | with_reducible assumption
    | with_reducible apply atClock_otpProgram
    | with_reducible apply atClock_otpReinforce
    | with_reducible apply atClock_otpReadCmd
    | with_reducible apply atClock_otpLock
    | with_reducible apply atClock_otpReload
    | with_reducible apply Device.atClock_ite
    | intro _
    | split
    | dsimp only

theorem atClock_pkgEffect (off : ℕ) (w : Sys2Proof.Word) {s : Device} (hs : s.AtClock fr ck) :
    (pkgEffect off w s).AtClock fr ck := by
  unfold pkgEffect
  repeat' first
    | with_reducible assumption
    | with_reducible apply atClock_hostCtlWrite
    | with_reducible apply atClock_snapCtlWrite
    | with_reducible apply atClock_lineCfgWrite
    | with_reducible apply atClock_clrRej
    | with_reducible apply atClock_busMonClr
    | with_reducible apply atClock_auxCtlWrite
    | with_reducible apply atClock_thresholdWrite
    | with_reducible apply atClock_shipEnter
    | with_reducible apply atClock_vbstCfgWrite
    | with_reducible apply atClock_ptCommand
    | with_reducible apply atClock_ckptTake
    | with_reducible apply atClock_pinCommand
    | with_reducible apply atClock_tallyClr
    | with_reducible apply atClock_runCtlWrite
    | with_reducible apply atClock_otpCmdWrite
    | with_reducible apply atClock_releaseAll
    | with_reducible apply atClock_clrPeak
    | with_reducible apply atClock_plsWrite
    | with_reducible apply atClock_storeWord
    | with_reducible apply Device.atClock_pset
    | with_reducible apply Device.atClock_ite
    | intro _
    | split
    | dsimp only

theorem atClock_frameErr (b : Bool) {s : Device} (hs : s.AtClock fr ck) :
    (frameErr b s).AtClock fr ck := by
  unfold frameErr
  repeat' first
    | with_reducible assumption
    | with_reducible apply Device.atClock_pset
    | with_reducible apply Device.atClock_ite
    | intro _
    | split
    | dsimp only

theorem atClock_valveReqOf (a : ℕ) (w : Sys2Proof.Word) {s : Device} (hs : s.AtClock fr ck) :
    (valveReqOf a w s).AtClock fr ck := by
  unfold valveReqOf
  repeat' first
    | with_reducible assumption
    | with_reducible apply atClock_valveReqWrite
    | with_reducible apply Device.atClock_ite
    | intro _
    | split
    | dsimp only

theorem atClock_shadowPost (a : ℕ) (w : Sys2Proof.Word) {s : Device} (hs : s.AtClock fr ck) :
    (shadowPost a w s).AtClock fr ck := by
  unfold shadowPost
  repeat' first
    | with_reducible assumption
    | with_reducible apply atClock_setShd
    | intro _
    | split
    | dsimp only

theorem atClock_postWord (a : ℕ) (w : Sys2Proof.Word) {s : Device} (hs : s.AtClock fr ck) :
    (postWord a w s).AtClock fr ck := by
  unfold postWord
  repeat' first
    | with_reducible assumption
    | with_reducible apply atClock_valveReqOf
    | with_reducible apply atClock_shadowPost
    | with_reducible apply Device.atClock_modHost
    | intro _
    | split
    | dsimp only

theorem atClock_noteRef (a : ℕ) (noted : Bool) {s : Device} (hs : s.AtClock fr ck) :
    (noteRef a noted s).AtClock fr ck := by
  unfold noteRef
  repeat' first
    | with_reducible assumption
    | with_reducible apply Device.atClock_pset
    | with_reducible apply Device.atClock_ite
    | intro _
    | split
    | dsimp only

theorem atClock_clearFlags (a : ℕ) (w : Sys2Proof.Word) {s : Device} (hs : s.AtClock fr ck) :
    (clearFlags a w s).AtClock fr ck := by
  unfold clearFlags
  repeat' first
    | with_reducible assumption
    | with_reducible apply Device.atClock_setReg
    | with_reducible apply Device.atClock_ite
    | intro _
    | split
    | dsimp only

theorem atClock_writePkg (off : ℕ) (w : Sys2Proof.Word) {s : Device} (hs : s.AtClock fr ck) :
    (writePkg off w s).AtClock fr ck := by
  unfold writePkg
  repeat' first
    | with_reducible assumption
    | with_reducible apply Device.atClock_setBusW1c
    | with_reducible apply atClock_pkgEffect
    | with_reducible apply atClock_clearFlags
    | with_reducible apply Device.atClock_ite
    | intro _
    | split
    | dsimp only

theorem atClock_benchRefWrite (d : ℕ) (w : Sys2Proof.Word) {s : Device} (hs : s.AtClock fr ck) :
    (benchRefWrite d w s).AtClock fr ck := by
  unfold benchRefWrite
  repeat' first
    | with_reducible assumption
    | with_reducible apply atClock_storeWord
    | with_reducible apply Device.atClock_modDie
    | with_reducible apply Device.atClock_ite
    | intro _
    | split
    | dsimp only

theorem atClock_valveWrite (d : ℕ) (k : ℕ) (i : ℕ) (w : Sys2Proof.Word) {s : Device} (hs : s.AtClock fr ck) :
    (valveWrite d k i w s).AtClock fr ck := by
  unfold valveWrite
  repeat' first
    | with_reducible assumption
    | with_reducible apply atClock_valveCfgWrite
    | with_reducible apply atClock_valveModeWrite
    | with_reducible apply atClock_storeWord
    | intro _
    | split
    | dsimp only

theorem atClock_dieEffect (d : ℕ) (off : ℕ) (w : Sys2Proof.Word) {s : Device} (hs : s.AtClock fr ck) :
    (dieEffect d off w s).AtClock fr ck := by
  unfold dieEffect
  repeat' first
    | with_reducible assumption
    | with_reducible apply atClock_benchCtlWrite
    | with_reducible apply atClock_benchRefWrite
    | with_reducible apply atClock_valveWrite
    | with_reducible apply atClock_valveCleared
    | with_reducible apply atClock_otpSummary
    | with_reducible apply atClock_traceRdWrite
    | with_reducible apply atClock_storeWord
    | with_reducible apply Device.atClock_ite
    | intro _
    | split
    | dsimp only

theorem atClock_writeDie (d : ℕ) (off : ℕ) (w : Sys2Proof.Word) {s : Device} (hs : s.AtClock fr ck) :
    (writeDie d off w s).AtClock fr ck := by
  unfold writeDie
  repeat' first
    | with_reducible assumption
    | with_reducible apply atClock_dieEffect
    | with_reducible apply atClock_clearFlags
    | intro _
    | split
    | dsimp only

theorem atClock_chSeqWrite (g : ℕ) (w : Sys2Proof.Word) {s : Device} (hs : s.AtClock fr ck) :
    (chSeqWrite g w s).AtClock fr ck := by
  unfold chSeqWrite
  repeat' first
    | with_reducible assumption
    | with_reducible apply atClock_storeWord
    | with_reducible apply atClock_seqCmd
    | with_reducible apply Device.atClock_ite
    | intro _
    | split
    | dsimp only

theorem atClock_chEffect (g : ℕ) (off : ℕ) (w : Sys2Proof.Word) {s : Device} (hs : s.AtClock fr ck) :
    (chEffect g off w s).AtClock fr ck := by
  unfold chEffect
  repeat' first
    | with_reducible assumption
    | with_reducible apply atClock_chCtlWrite
    | with_reducible apply atClock_chSeqWrite
    | with_reducible apply atClock_setpointWrite
    | with_reducible apply atClock_pwmWrite
    | with_reducible apply atClock_rangeSelWrite
    | with_reducible apply atClock_accClear
    | with_reducible apply atClock_calFold
    | with_reducible apply atClock_calApply
    | with_reducible apply atClock_offsetWrite
    | with_reducible apply atClock_tcrCfgWrite
    | with_reducible apply atClock_storeWord
    | with_reducible apply atClock_calNote
    | with_reducible apply atClock_acirCtlWrite
    | with_reducible apply atClock_acirClrWrite
    | with_reducible apply atClock_constantWrite
    | with_reducible apply atClock_baselineWrite
    | with_reducible apply Device.atClock_ite
    | intro _
    | split
    | dsimp only

theorem atClock_writeCh (g : ℕ) (off : ℕ) (w : Sys2Proof.Word) {s : Device} (hs : s.AtClock fr ck) :
    (writeCh g off w s).AtClock fr ck := by
  unfold writeCh
  repeat' first
    | with_reducible assumption
    | with_reducible apply atClock_faultClear
    | with_reducible apply atClock_chEffect
    | with_reducible apply atClock_clearFlags
    | with_reducible apply Device.atClock_ite
    | intro _
    | split
    | dsimp only

theorem atClock_writeWord (a : ℕ) (w : Sys2Proof.Word) {s : Device} (hs : s.AtClock fr ck) :
    (writeWord a w s).AtClock fr ck := by
  unfold writeWord
  repeat' first
    | with_reducible assumption
    | with_reducible apply atClock_writePkg
    | with_reducible apply atClock_writeDie
    | with_reducible apply atClock_writeCh
    | with_reducible apply atClock_bufWrite
    | with_reducible apply Device.atClock_ite
    | intro _
    | split
    | dsimp only

theorem atClock_deliver (a : ℕ) (w : Sys2Proof.Word) {s : Device} (hs : s.AtClock fr ck) :
    (deliver a w s).AtClock fr ck := by
  unfold deliver
  repeat' first
    | with_reducible assumption
    | with_reducible apply atClock_bcastFirst
    | with_reducible apply atClock_writeWord
    | with_reducible apply Device.atClock_pset
    | with_reducible apply Device.atClock_ite
    | intro _
    | split
    | dsimp only

theorem atClock_writeOne (a : ℕ) (w : Sys2Proof.Word) {s : Device} (hs : s.AtClock fr ck) :
    (writeOne a w s).1.AtClock fr ck := by
  unfold writeOne
  repeat' first
    | with_reducible assumption
    | with_reducible apply atClock_bufWrite
    | with_reducible apply atClock_frameErr
    | with_reducible apply atClock_valveReqOf
    | with_reducible apply atClock_postWord
    | with_reducible apply atClock_noteRef
    | with_reducible apply atClock_deliver
    | with_reducible apply Device.atClock_pset
    | with_reducible apply Device.atClock_ite
    | intro _
    | split
    | dsimp only

theorem atClock_registerWrite (a : ℕ) (w : Sys2Proof.Word) {s : Device} (hs : s.AtClock fr ck) :
    (registerWrite a w s).AtClock fr ck := by
  unfold registerWrite
  repeat' first
    | with_reducible assumption
    | with_reducible apply atClock_shadowPost
    | with_reducible apply atClock_frameEndWord
    | with_reducible apply atClock_deliver
    | with_reducible apply atClock_valveReqOf
    | (refine Device.atClock_fst (by with_reducible assumption) ?_; with_reducible apply atClock_writeOne)
    | with_reducible apply atClock_writeOne
    | with_reducible apply Device.atClock_ite
    | intro _
    | split
    | dsimp only

theorem atClock_ledgerAdvance {s : Device} (hs : s.AtClock fr ck) :
    (ledgerAdvance s).AtClock fr ck := by
  unfold ledgerAdvance
  repeat' first
    | with_reducible assumption
    | with_reducible apply atClock_afterAdvance
    | with_reducible apply Device.atClock_pset
    | with_reducible apply Device.atClock_ite
    | intro _
    | split
    | dsimp only

/-! Link. -/

theorem atClock_heard (d : ℕ) {s : Device} (hs : s.AtClock fr ck) :
    (heard d s).AtClock fr ck := by
  unfold heard
  repeat' first
    | with_reducible assumption
    | with_reducible apply Device.atClock_modLink
    | with_reducible apply Device.atClock_ite
    | intro _
    | split
    | dsimp only

theorem atClock_unpost (a : ℕ) (w : Sys2Proof.Word) {s : Device} (hs : s.AtClock fr ck) :
    (unpost a w s).AtClock fr ck := by
  unfold unpost
  repeat' first
    | with_reducible assumption
    | with_reducible apply Device.atClock_modHost
    | intro _
    | split
    | dsimp only

theorem atClock_groupTaken (d : ℕ) {s : Device} (hs : s.AtClock fr ck) :
    (groupTaken d s).AtClock fr ck := by
  unfold groupTaken
  repeat' first
    | with_reducible assumption
    | with_reducible apply atClock_groupCell
    | with_reducible apply atClock_snapCommit
    | with_reducible apply Device.atClock_ite
    | intro _
    | split
    | dsimp only

theorem atClock_entryTaken (d : ℕ) (e : LedgerEnt) {s : Device} (hs : s.AtClock fr ck) :
    (entryTaken d e s).AtClock fr ck := by
  unfold entryTaken
  repeat' first
    | with_reducible assumption
    | with_reducible apply atClock_ledgerPut
    | with_reducible apply Device.atClock_modDie
    | intro _
    | split
    | dsimp only

theorem atClock_dropsTaken (d : ℕ) (n : ℕ) {s : Device} (hs : s.AtClock fr ck) :
    (dropsTaken d n s).AtClock fr ck := by
  unfold dropsTaken
  repeat' first
    | with_reducible assumption
    | with_reducible apply Device.atClock_modDie
    | with_reducible apply Device.atClock_pset
    | intro _
    | split
    | dsimp only

theorem atClock_cellAct (d : ℕ) (c : CellLoad) {s : Device} (hs : s.AtClock fr ck) :
    (cellAct d c s).AtClock fr ck := by
  unfold cellAct
  repeat' first
    | with_reducible assumption
    | with_reducible apply atClock_deliver
    | with_reducible apply atClock_unpost
    | with_reducible apply Device.atClock_setBulk
    | with_reducible apply atClock_shadowTaken
    | with_reducible apply atClock_groupTaken
    | with_reducible apply atClock_leaseTold
    | with_reducible apply atClock_leaseLate
    | with_reducible apply atClock_valveSeatReq
    | with_reducible apply atClock_entryTaken
    | with_reducible apply atClock_dropsTaken
    | with_reducible apply atClock_ckptCell
    | with_reducible apply Device.atClock_ite
    | intro _
    | split
    | dsimp only

theorem atClock_sentUp (d : ℕ) (typ : ℕ) (c : CellLoad) {s : Device} (hs : s.AtClock fr ck) :
    (sentUp d typ c s).AtClock fr ck := by
  unfold sentUp
  repeat' first
    | with_reducible assumption
    | with_reducible apply atClock_cellAct
    | with_reducible apply Device.atClock_modLink
    | with_reducible apply Device.atClock_ite
    | intro _
    | split
    | dsimp only

theorem atClock_cellGroup (d : ℕ) {s : Device} (hs : s.AtClock fr ck) :
    (cellGroup d s).AtClock fr ck := by
  unfold cellGroup
  repeat' first
    | with_reducible assumption
    | with_reducible apply atClock_sentUp
    | with_reducible apply Device.atClock_ite
    | intro _
    | split
    | dsimp only

theorem atClock_sentDown (d : ℕ) (typ : ℕ) (c : CellLoad) {s : Device} (hs : s.AtClock fr ck) :
    (sentDown d typ c s).AtClock fr ck := by
  unfold sentDown
  repeat' first
    | with_reducible assumption
    | with_reducible apply Device.atClock_modLink
    | with_reducible apply Device.atClock_ite
    | intro _
    | split
    | dsimp only

theorem atClock_cellTrain (d : ℕ) (index : ℕ) {s : Device} (hs : s.AtClock fr ck) :
    (cellTrain d index s).AtClock fr ck := by
  unfold cellTrain
  repeat' first
    | with_reducible assumption
    | with_reducible apply Device.atClock_modDie
    | with_reducible apply Device.atClock_ite
    | with_reducible apply Device.atClock_mk
    | with_reducible apply Device.AtClock.both
    | intro _
    | split
    | dsimp only

theorem atClock_cellCkpt (d : ℕ) {s : Device} (hs : s.AtClock fr ck) :
    (cellCkpt d s).AtClock fr ck := by
  unfold cellCkpt
  repeat' first
    | with_reducible assumption
    | with_reducible apply atClock_sentUp
    | with_reducible apply Device.atClock_ite
    | intro _
    | split
    | dsimp only

theorem atClock_bcastLost (typ : ℕ) (d : ℕ) {s : Device} (hs : s.AtClock fr ck) :
    (bcastLost typ d s).AtClock fr ck := by
  unfold bcastLost
  repeat' first
    | with_reducible assumption
    | with_reducible apply atClock_logEvent
    | with_reducible apply Device.atClock_ite
    | intro _
    | split
    | dsimp only

theorem atClock_heardUp (d : ℕ) {s : Device} (hs : s.AtClock fr ck) :
    (heardUp d s).AtClock fr ck := by
  unfold heardUp
  repeat' first
    | with_reducible assumption
    | with_reducible apply Device.atClock_modLink
    | intro _
    | split
    | dsimp only

theorem atClock_cellIdle (d : ℕ) {s : Device} (hs : s.AtClock fr ck) :
    (cellIdle d s).AtClock fr ck := by
  unfold cellIdle
  repeat' first
    | with_reducible assumption
    | with_reducible apply atClock_heard
    | with_reducible apply atClock_heardUp
    | with_reducible apply Device.atClock_ite
    | intro _
    | split
    | dsimp only

theorem atClock_reseatRequest (g : ℕ) (on : Bool) {s : Device} (hs : s.AtClock fr ck) :
    (reseatRequest g on s).AtClock fr ck := by
  unfold reseatRequest
  repeat' first
    | with_reducible assumption
    | with_reducible apply atClock_sentUp
    | with_reducible apply Device.atClock_ite
    | intro _
    | split
    | dsimp only

theorem atClock_bothHeard (d : ℕ) {s : Device} (hs : s.AtClock fr ck) :
    (bothHeard d s).AtClock fr ck := by
  unfold bothHeard
  repeat' first
    | with_reducible assumption
    | with_reducible apply atClock_heardUp
    | with_reducible apply atClock_heard
    | intro _
    | split
    | dsimp only

theorem atClock_indexFault (d : ℕ) {s : Device} (hs : s.AtClock fr ck) :
    (indexFault d s).AtClock fr ck := by
  unfold indexFault
  repeat' first
    | with_reducible assumption
    | with_reducible apply atClock_valvesHusk
    | with_reducible apply atClock_gatesOff
    | with_reducible apply Device.atClock_modDie
    | with_reducible apply atClock_logEvent
    | with_reducible apply Device.atClock_ite
    | with_reducible apply Device.atClock_each
    | intro _
    | split
    | dsimp only

theorem atClock_trainingDone (d : ℕ) {s : Device} (hs : s.AtClock fr ck) :
    (trainingDone d s).AtClock fr ck := by
  unfold trainingDone
  repeat' first
    | with_reducible assumption
    | with_reducible apply Device.atClock_modDie
    | with_reducible apply atClock_bothHeard
    | with_reducible apply atClock_indexFault
    | with_reducible apply atClock_publishDies
    | with_reducible apply atClock_dieReturns
    | with_reducible apply atClock_shadowRebuild
    | with_reducible apply Device.atClock_ite
    | with_reducible apply Device.atClock_each
    | intro _
    | split
    | dsimp only

theorem atClock_cellRead (d : ℕ) (a : ℕ) {s : Device} (hs : s.AtClock fr ck) :
    (cellRead d a s).AtClock fr ck := by
  unfold cellRead
  repeat' first
    | with_reducible assumption
    | with_reducible apply atClock_sentDown
    | with_reducible apply Device.atClock_setBulk
    | with_reducible apply Device.atClock_ite
    | intro _
    | split
    | dsimp only

theorem atClock_cellResp (d : ℕ) {s : Device} (hs : s.AtClock fr ck) :
    (cellResp d s).AtClock fr ck := by
  unfold cellResp
  repeat' first
    | with_reducible assumption
    | with_reducible apply atClock_sentUp
    | with_reducible apply atClock_bulkSpent
    | with_reducible apply Device.atClock_ite
    | intro _
    | split
    | dsimp only

theorem atClock_cellNak (d : ℕ) (seq : ℕ) (kind : ℕ) {s : Device} (hs : s.AtClock fr ck) :
    (cellNak d seq kind s).AtClock fr ck := by
  unfold cellNak
  repeat' first
    | with_reducible assumption
    | with_reducible apply atClock_bothHeard
    | with_reducible apply atClock_recoveryStart
    | with_reducible apply atClock_logEvent
    | with_reducible apply Device.atClock_modLink
    | with_reducible apply Device.atClock_pinc
    | with_reducible apply Device.atClock_ite
    | intro _
    | split
    | dsimp only

theorem atClock_cellShadow (a : ℕ) {s : Device} (hs : s.AtClock fr ck) :
    (cellShadow a s).AtClock fr ck := by
  unfold cellShadow
  repeat' first
    | with_reducible assumption
    | with_reducible apply atClock_sentUp
    | with_reducible apply Device.atClock_ite
    | intro _
    | split
    | dsimp only

theorem atClock_cellLease (m : Sys2Proof.LeaseMsg) (late : Bool) {s : Device} (hs : s.AtClock fr ck) :
    (cellLease m late s).AtClock fr ck := by
  unfold cellLease
  repeat' first
    | with_reducible assumption
    | with_reducible apply atClock_sentUp
    | with_reducible apply atClock_sentDown
    | with_reducible apply atClock_reseatRequest
    | with_reducible apply Device.atClock_ite
    | intro _
    | split
    | dsimp only

theorem atClock_cellBcast (k : Sys2Proof.BcastKind) (typ : ℕ) (d : ℕ) (f : ℕ) (c : ℕ) (intact : Bool) {s : Device} (hs : s.AtClock fr ck) :
    (cellBcast k typ d f c intact s).AtClock fr ck := by
  unfold cellBcast
  repeat' first
    | with_reducible assumption
    | with_reducible apply atClock_bcastLost
    | with_reducible apply atClock_heardUp
    | with_reducible apply Device.atClock_setBcast
    | with_reducible apply Device.atClock_ite
    | intro _
    | split
    | dsimp only

theorem atClock_snapLost (d : ℕ) (frame : ℕ) {s : Device} (hs : s.AtClock fr ck) :
    (snapLost d frame s).AtClock fr ck := by
  unfold snapLost
  repeat' first
    | with_reducible assumption
    | with_reducible apply atClock_bcastLost
    | with_reducible apply atClock_snapInvalid
    | with_reducible apply Device.atClock_ite
    | intro _
    | split
    | dsimp only

theorem atClock_cellWrite (d : ℕ) {s : Device} (hs : s.AtClock fr ck) :
    (cellWrite d s).AtClock fr ck := by
  unfold cellWrite
  repeat' first
    | with_reducible assumption
    | with_reducible apply atClock_unpost
    | with_reducible apply atClock_sentDown
    | with_reducible apply Device.atClock_pset
    | with_reducible apply Device.atClock_ite
    | intro _
    | split
    | dsimp only

theorem atClock_cellAck (d : ℕ) (seq : ℕ) {s : Device} (hs : s.AtClock fr ck) :
    (cellAck d seq s).AtClock fr ck := by
  unfold cellAck
  repeat' first
    | with_reducible assumption
    | with_reducible apply atClock_cellAct
    | with_reducible apply atClock_bothHeard
    | with_reducible apply Device.atClock_modLink
    | with_reducible apply Device.atClock_ite
    | intro _
    | split
    | dsimp only

theorem atClock_cellLedger (d : ℕ) {s : Device} (hs : s.AtClock fr ck) :
    (cellLedger d s).AtClock fr ck := by
  unfold cellLedger
  repeat' first
    | with_reducible assumption
    | with_reducible apply atClock_sentUp
    | with_reducible apply Device.atClock_ite
    | intro _
    | split
    | dsimp only

theorem atClock_cellSnap (d : ℕ) (frame : ℕ) {s : Device} (hs : s.AtClock fr ck) :
    (cellSnap d frame s).AtClock fr ck := by
  unfold cellSnap
  repeat' first
    | with_reducible assumption
    | with_reducible apply atClock_heardUp
    | with_reducible apply Device.atClock_setBcast
    | with_reducible apply Device.atClock_ite
    | intro _
    | split
    | dsimp only

/-! Clock. -/

theorem atClock_countClock (inp : Sys2Proof.ClockIn) (g : ℕ) {s : Device} (hs : s.AtClock fr ck) :
    (countClock inp g s).AtClock fr ck := by
  unfold countClock
  repeat' first
    | with_reducible assumption
    | with_reducible apply atClock_pulseClock
    | with_reducible apply Device.atClock_modAcc
    | intro _
    | split
    | dsimp only

theorem atClock_winMark (d : ℕ) {s : Device} (hs : s.AtClock fr ck) :
    (winMark d s).AtClock fr ck := by
  unfold winMark
  repeat' first
    | with_reducible assumption
    | with_reducible apply Device.atClock_modDie
    | with_reducible apply Device.atClock_ite
    | intro _
    | split
    | dsimp only

theorem atClock_dieClock (d : ℕ) {s : Device} (hs : s.AtClock fr ck) :
    (dieClock d s).AtClock fr ck := by
  unfold dieClock
  repeat' first
    | with_reducible assumption
    | with_reducible apply Device.atClock_modDie
    | with_reducible apply Device.atClock_ite
    | intro _
    | split
    | dsimp only

theorem atClock_benchClock (inp : Sys2Proof.ClockIn) (last : Bool) (d : ℕ) {s : Device} (hs : s.AtClock fr ck) :
    (benchClock inp last d s).AtClock fr ck := by
  unfold benchClock
  repeat' first
    | with_reducible assumption
    | with_reducible apply Device.atClock_modBench
    | with_reducible apply Device.atClock_ite
    | intro _
    | split
    | dsimp only

theorem atClock_chanClock (inp : Sys2Proof.ClockIn) (last : Bool) (g : ℕ) {s : Device} (hs : s.AtClock fr ck) :
    (chanClock inp last g s).AtClock fr ck := by
  unfold chanClock
  repeat' first
    | with_reducible assumption
    | with_reducible apply atClock_countClock
    | with_reducible apply Device.atClock_modCh
    | with_reducible apply atClock_acirNextDue
    | with_reducible apply atClock_acirClock
    | with_reducible apply Device.atClock_ite
    | intro _
    | split
    | dsimp only

theorem atClock_dieStep (inp : Sys2Proof.ClockIn) (last : Bool) (d : ℕ) {s : Device} (hs : s.AtClock fr ck) :
    (dieStep inp last d s).AtClock fr ck := by
  unfold dieStep
  repeat' first
    | with_reducible assumption
    | with_reducible apply atClock_winMark
    | with_reducible apply atClock_dieClock
    | with_reducible apply atClock_benchClock
    | with_reducible apply atClock_chanClock
    | with_reducible apply Device.atClock_ite
    | with_reducible apply Device.atClock_each
    | intro _
    | split
    | dsimp only

/-! Boundary. -/

theorem atClock_snapBoundary {s : Device} (hs : s.AtClock fr ck) :
    (snapBoundary s).AtClock fr ck := by
  unfold snapBoundary
  repeat' first
    | with_reducible assumption
    | with_reducible apply Device.atClock_modSnap
    | with_reducible apply atClock_snapNow
    | with_reducible apply Device.atClock_ite
    | intro _
    | split
    | dsimp only

theorem atClock_testEntry {s : Device} (hs : s.AtClock fr ck) :
    (testEntry s).AtClock fr ck := by
  unfold testEntry
  repeat' first
    | with_reducible assumption
    | with_reducible apply atClock_stateValves
    | with_reducible apply atClock_changeState
    | with_reducible apply atClock_releaseCarrier
    | with_reducible apply atClock_setPhase
    | with_reducible apply Device.atClock_modBench
    | with_reducible apply atClock_endVisit
    | with_reducible apply Device.atClock_ite
    | with_reducible apply Device.atClock_each
    | intro _
    | split
    | dsimp only

theorem atClock_testVisitEnds (d : ℕ) {s : Device} (hs : s.AtClock fr ck) :
    (testVisitEnds d s).AtClock fr ck := by
  unfold testVisitEnds
  repeat' first
    | with_reducible assumption
    | with_reducible apply atClock_endVisit
    | with_reducible apply Device.atClock_ite
    | intro _
    | split
    | dsimp only

theorem atClock_testLeave {s : Device} (hs : s.AtClock fr ck) :
    (testLeave s).AtClock fr ck := by
  unfold testLeave
  repeat' first
    | with_reducible assumption
    | with_reducible apply atClock_setMode
    | with_reducible apply atClock_testVisitEnds
    | with_reducible apply atClock_changeState
    | with_reducible apply atClock_tripNonRun
    | with_reducible apply atClock_stateValves
    | with_reducible apply Device.atClock_modHost
    | with_reducible apply Device.atClock_ite
    | with_reducible apply Device.atClock_each
    | intro _
    | split
    | dsimp only

theorem atClock_testBoundary {s : Device} (hs : s.AtClock fr ck) :
    (testBoundary s).AtClock fr ck := by
  unfold testBoundary
  repeat' first
    | with_reducible assumption
    | with_reducible apply atClock_testEntry
    | with_reducible apply atClock_testLeave
    | with_reducible apply Device.atClock_modHost
    | with_reducible apply Device.atClock_pset
    | with_reducible apply Device.atClock_ite
    | intro _
    | split
    | dsimp only

theorem atClock_leadFirst {s : Device} (hs : s.AtClock fr ck) :
    (leadFirst s).AtClock fr ck := by
  unfold leadFirst
  repeat' first
    | with_reducible assumption
    | with_reducible apply atClock_lineBoundary
    | with_reducible apply atClock_plsBoundary
    | with_reducible apply atClock_plsWait
    | with_reducible apply Device.atClock_ite
    | intro _
    | split
    | dsimp only

theorem atClock_copyAll (g : ℕ) {s : Device} (hs : s.AtClock fr ck) :
    (copyAll g s).AtClock fr ck := by
  unfold copyAll
  repeat' first
    | with_reducible assumption
    | with_reducible apply Device.atClock_modCh
    | intro _
    | split
    | dsimp only

theorem atClock_bookAll {s : Device} (hs : s.AtClock fr ck) :
    (bookAll s).AtClock fr ck := by
  unfold bookAll
  repeat' first
    | with_reducible assumption
    | with_reducible apply atClock_bookFrame
    | with_reducible apply atClock_copyAll
    | with_reducible apply Device.atClock_each
    | intro _
    | split
    | dsimp only

theorem atClock_tcrBoundary (g : ℕ) {s : Device} (hs : s.AtClock fr ck) :
    (tcrBoundary g s).AtClock fr ck := by
  unfold tcrBoundary
  repeat' first
    | with_reducible assumption
    | with_reducible apply atClock_tcrWritten
    | with_reducible apply Device.atClock_ite
    | intro _
    | split
    | dsimp only

theorem atClock_dieBoundary (d : ℕ) {s : Device} (hs : s.AtClock fr ck) :
    (dieBoundary d s).AtClock fr ck := by
  unfold dieBoundary
  repeat' first
    | with_reducible assumption
    | with_reducible apply atClock_refBoundary
    | with_reducible apply atClock_benchBoundary
    | with_reducible apply Device.atClock_ite
    | intro _
    | split
    | dsimp only

theorem atClock_settingsBoundary (g : ℕ) {s : Device} (hs : s.AtClock fr ck) :
    (settingsBoundary g s).AtClock fr ck := by
  unfold settingsBoundary
  repeat' first
    | with_reducible assumption
    | with_reducible apply Device.atClock_cforce
    | with_reducible apply atClock_acirBoundary
    | intro _
    | split
    | dsimp only

theorem atClock_rangeBoundary (g : ℕ) {s : Device} (hs : s.AtClock fr ck) :
    (rangeBoundary g s).AtClock fr ck := by
  unfold rangeBoundary
  repeat' first
    | with_reducible assumption
    | with_reducible apply Device.atClock_modDue
    | with_reducible apply atClock_benchRange
    | with_reducible apply Device.atClock_cset
    | with_reducible apply atClock_rangeConsts
    | with_reducible apply atClock_rescaleLoop
    | with_reducible apply Device.atClock_modAcir
    | with_reducible apply Device.atClock_ite
    | intro _
    | split
    | dsimp only

theorem atClock_ledgerBoundary {s : Device} (hs : s.AtClock fr ck) :
    (ledgerBoundary s).AtClock fr ck := by
  unfold ledgerBoundary
  repeat' first
    | with_reducible assumption
    | with_reducible apply atClock_setCat
    | with_reducible apply Device.atClock_ite
    | intro _
    | split
    | dsimp only

theorem atClock_leadLast {s : Device} (hs : s.AtClock fr ck) :
    (leadLast s).AtClock fr ck := by
  unfold leadLast
  repeat' first
    | with_reducible assumption
    | with_reducible apply atClock_supplyForce
    | with_reducible apply atClock_tallyBoundary
    | with_reducible apply atClock_shipBoundary
    | with_reducible apply atClock_nvmRun
    | with_reducible apply atClock_pinBoundary
    | with_reducible apply atClock_testBoundary
    | with_reducible apply atClock_snapBoundary
    | with_reducible apply atClock_ledgerBoundary
    | with_reducible apply Device.atClock_ite
    | intro _
    | split
    | dsimp only

theorem atClock_dieLast (d : ℕ) {s : Device} (hs : s.AtClock fr ck) :
    (dieLast d s).AtClock fr ck := by
  unfold dieLast
  repeat' first
    | with_reducible assumption
    | with_reducible apply atClock_sarBoundary
    | with_reducible apply atClock_gleanEnables
    | with_reducible apply Device.atClock_ite
    | intro _
    | split
    | dsimp only

theorem atClock_leadStore {s : Device} (hs : s.AtClock fr ck) :
    (leadStore s).AtClock fr ck := by
  unfold leadStore
  repeat' first
    | with_reducible assumption
    | with_reducible apply atClock_storeBoundary
    | with_reducible apply atClock_keepBoundary
    | with_reducible apply atClock_chargerBoundary
    | with_reducible apply Device.atClock_ite
    | intro _
    | split
    | dsimp only

theorem atClock_frameSums (g : ℕ) {s : Device} (hs : s.AtClock fr ck) :
    (frameSums g s).AtClock fr ck := by
  unfold frameSums
  repeat' first
    | with_reducible assumption
    | with_reducible apply Device.atClock_modCh
    | intro _
    | split
    | dsimp only

/-! HostPort. -/

theorem atClock_writeWords (crc : Bool) (a : ℕ) (l : List (Word × Byte)) {s : Device} (h : s.AtClock fr ck) :
    (writeWords crc a l s).1.AtClock fr ck := by
  induction l generalizing a s with
  | nil => exact h
  | cons p l ih =>
    obtain ⟨w, c⟩ := p
    rw [writeWords]
    split
    · exact Device.atClock_pset _ _ (atClock_noteRef _ _ h)
    · have h1 := atClock_writeOne a w h
      generalize writeOne a w s = q at h1 ⊢
      obtain ⟨t, full⟩ := q
      dsimp only
      split
      · exact h1
      · exact ih _ h1

theorem atClock_shiftOut (status : ℕ) (words : List Sys2Proof.Word) (bytes : List Sys2Proof.Byte) {s : Device} (hs : s.AtClock fr ck) :
    (shiftOut status words bytes s).AtClock fr ck := by
  unfold shiftOut
  repeat' first
    | with_reducible assumption
    | with_reducible apply Device.atClock_modHost
    | intro _
    | split
    | dsimp only

theorem atClock_unanswered {s : Device} (hs : s.AtClock fr ck) :
    (unanswered s).AtClock fr ck := by
  unfold unanswered
  repeat' first
    | with_reducible assumption
    | with_reducible apply Device.atClock_modHost
    | intro _
    | split
    | dsimp only

theorem atClock_onFrame (f : Device → Device) {s : Device} (hf : ∀ y0, y0.AtClock fr ck → (f y0).AtClock fr ck) (hs : s.AtClock fr ck) :
    (onFrame f s).AtClock fr ck := by
  unfold onFrame
  repeat' first
    | with_reducible assumption
    | with_reducible apply atClock_shiftOut
    | with_reducible apply atClock_unanswered
    | with_reducible apply hf
    | with_reducible apply Device.atClock_ite
    | intro _
    | split
    | dsimp only

theorem atClock_hostUnknown (cmd : ℕ) {s : Device} (hs : s.AtClock fr ck) :
    (hostUnknown cmd s).AtClock fr ck := by
  unfold hostUnknown
  repeat' first
    | with_reducible assumption
    | with_reducible apply atClock_onFrame
    | with_reducible apply atClock_frameErr
    | intro _
    | split
    | dsimp only

theorem atClock_sendWords (cmd : ℕ) (a : ℕ) (first : ℕ) (clocks : ℕ) (f : ℕ → Sys2Proof.Word) {s : Device} (hs : s.AtClock fr ck) :
    (sendWords cmd a first clocks f s).AtClock fr ck := by
  unfold sendWords
  repeat' first
    | with_reducible assumption
    | with_reducible apply atClock_shiftOut
    | with_reducible apply Device.atClock_ite
    | intro _
    | split
    | dsimp only

theorem atClock_bulkFrame (a : ℕ) (clocks : ℕ) (late : Option ℕ) {s : Device} (hs : s.AtClock fr ck) :
    (bulkFrame a clocks late s).AtClock fr ck := by
  unfold bulkFrame
  repeat' first
    | with_reducible assumption
    | with_reducible apply atClock_sendWords
    | with_reducible apply Device.atClock_spend
    | with_reducible apply Device.atClock_setBulk
    | with_reducible apply Device.atClock_pset
    | with_reducible apply Device.atClock_ite
    | intro _
    | split
    | dsimp only

theorem atClock_ledgerRead (a : ℕ) (first : ℕ) (l : ℕ) (clocks : ℕ) {s : Device} (hs : s.AtClock fr ck) :
    (ledgerRead a first l clocks s).AtClock fr ck := by
  unfold ledgerRead
  repeat' first
    | with_reducible assumption
    | with_reducible apply atClock_ledgerAdvance
    | with_reducible apply Device.atClock_ite
    | intro _
    | split
    | dsimp only

theorem atClock_readFrame (cmd : ℕ) (a : ℕ) (first : ℕ) (clocks : ℕ) {s : Device} (hs : s.AtClock fr ck) :
    (readFrame cmd a first clocks s).AtClock fr ck := by
  unfold readFrame
  repeat' first
    | with_reducible assumption
    | with_reducible apply atClock_sendWords
    | with_reducible apply atClock_frameErr
    | with_reducible apply atClock_ledgerRead
    | intro _
    | split
    | dsimp only

theorem atClock_hostRdb (a : ℕ) (clocks : ℕ) (late : Option ℕ) {s : Device} (hs : s.AtClock fr ck) :
    (hostRdb a clocks late s).AtClock fr ck := by
  unfold hostRdb
  repeat' first
    | with_reducible assumption
    | with_reducible apply atClock_onFrame
    | with_reducible apply atClock_frameErr
    | with_reducible apply atClock_readFrame
    | with_reducible apply atClock_bulkFrame
    | with_reducible apply Device.atClock_ite
    | intro _
    | split
    | dsimp only

theorem atClock_hostNop (bytes : ℕ) {s : Device} (hs : s.AtClock fr ck) :
    (hostNop bytes s).AtClock fr ck := by
  unfold hostNop
  repeat' first
    | with_reducible assumption
    | with_reducible apply atClock_onFrame
    | with_reducible apply atClock_shiftOut
    | intro _
    | split
    | dsimp only

theorem atClock_writeFrame (a : ℕ) (data : List (Sys2Proof.Word × Sys2Proof.Byte)) (clocks : ℕ) {s : Device} (hs : s.AtClock fr ck) :
    (writeFrame a data clocks s).AtClock fr ck := by
  unfold writeFrame
  repeat' first
    | with_reducible assumption
    | with_reducible apply atClock_frameErr
    | with_reducible apply atClock_frameEndWord
    | (refine Device.atClock_fst (by with_reducible assumption) ?_; with_reducible apply atClock_writeWords)
    | with_reducible apply atClock_writeWords
    | with_reducible apply Device.atClock_foldl
    | intro _
    | split
    | dsimp only

theorem atClock_hostWr (a : ℕ) (data : List (Sys2Proof.Word × Sys2Proof.Byte)) (clocks : ℕ) {s : Device} (hs : s.AtClock fr ck) :
    (hostWr a data clocks s).AtClock fr ck := by
  unfold hostWr
  repeat' first
    | with_reducible assumption
    | with_reducible apply atClock_onFrame
    | with_reducible apply atClock_writeFrame
    | with_reducible apply Device.atClock_ite
    | intro _
    | split
    | dsimp only

theorem atClock_hostRd (a : ℕ) (clocks : ℕ) {s : Device} (hs : s.AtClock fr ck) :
    (hostRd a clocks s).AtClock fr ck := by
  unfold hostRd
  repeat' first
    | with_reducible assumption
    | with_reducible apply atClock_onFrame
    | with_reducible apply atClock_readFrame
    | with_reducible apply Device.atClock_ite
    | intro _
    | split
    | dsimp only

end Sys2Proof.Machine
end

