-- ==== Sys2Proof/Laws/Canonical.lean ====
section
/-! SUPPORT. The canonical form of register files and stored bytes is kept by the operations that write them, and what every
later lemma of Sys2Proof/Laws about Device.Canonical uses: record updates, branches, folds. -/

namespace Sys2Proof.Machine

/-! Register files. -/

theorem rfWf_iff (f : RegFile) :
    rfWf f = true ↔ f.Pairwise (fun p q => p.1 < q.1) ∧ ∀ p ∈ f, p.2 ≠ regDefault p.1 := by
  induction f with
  | nil => simp [rfWf]
  | cons p t ih =>
    obtain ⟨a, w⟩ := p
    have e : rfWf ((a, w) :: t) = (decide (w ≠ regDefault a) &&
        (match t with | [] => true | (b, _) :: _ => decide (a < b)) && rfWf t) := by cases t <;> rfl
    rw [List.pairwise_cons, List.forall_mem_cons, e, Bool.and_eq_true, Bool.and_eq_true, ih, decide_eq_true_iff]
    constructor
    · rintro ⟨⟨h1, h2⟩, h3, h4⟩
      refine ⟨⟨?_, h3⟩, h1, h4⟩
      cases t with
      | nil => simp
      | cons q u =>
        simp only [decide_eq_true_eq] at h2
        rw [List.pairwise_cons] at h3
        intro r hr
        rcases List.mem_cons.mp hr with rfl | hr
        · exact h2
        · exact h2.trans (h3.1 r hr)
    · rintro ⟨⟨h1, h2⟩, h3, h4⟩
      refine ⟨⟨h3, ?_⟩, h2, h4⟩
      cases t with
      | nil => rfl
      | cons q u => simpa using h1 q (by simp)

theorem rfWf_filter (p : Nat × Word → Bool) {f : RegFile} (h : rfWf f = true) : rfWf (f.filter p) = true := by
  rw [rfWf_iff] at h ⊢
  exact ⟨h.1.filter p, fun q hq => h.2 q (List.mem_of_mem_filter hq)⟩

theorem mem_rfPut {a : Nat} {w : Word} {f : RegFile} {p : Nat × Word} (h : p ∈ rfPut a w f) : p = (a, w) ∨ p ∈ f := by
  induction f with
  | nil => simpa [rfPut] using h
  | cons q t ih =>
    obtain ⟨b, v⟩ := q
    simp only [rfPut] at h
    split at h
    · simpa using h
    · split at h
      · rcases List.mem_cons.mp h with h | h
        · exact .inl h
        · exact .inr (List.mem_cons_of_mem _ h)
      · rcases List.mem_cons.mp h with h | h
        · exact .inr (by simp [h])
        · rcases ih h with h | h
          · exact .inl h
          · exact .inr (List.mem_cons_of_mem _ h)

theorem rfWf_put {a : Nat} {w : Word} {f : RegFile} (hw : w ≠ regDefault a) (h : rfWf f = true) :
    rfWf (rfPut a w f) = true := by
  rw [rfWf_iff] at h ⊢
  refine ⟨?_, fun p hp => ?_⟩
  · induction f with
    | nil => simp [rfPut]
    | cons q t ih =>
      obtain ⟨b, v⟩ := q
      have ht := List.pairwise_cons.mp h.1
      simp only [rfPut]
      split
      · rename_i hab
        refine List.pairwise_cons.mpr ⟨fun p hp => ?_, h.1⟩
        rcases List.mem_cons.mp hp with rfl | hp
        · exact hab
        · exact lt_trans hab (ht.1 p hp)
      · split
        · rename_i hab
          subst hab
          exact List.pairwise_cons.mpr ⟨ht.1, ht.2⟩
        · rename_i h1 h2
          refine List.pairwise_cons.mpr ⟨fun p hp => ?_, ih ⟨ht.2, fun p hp => h.2 p (List.mem_cons_of_mem _ hp)⟩⟩
          rcases mem_rfPut hp with rfl | hp
          · show b < a
            omega
          · exact ht.1 p hp
  · rcases mem_rfPut hp with rfl | hp
    · exact hw
    · exact h.2 p hp

/-- A register write keeps the canonical form. -/
theorem rfWf_set (a : Nat) (w : Word) {f : RegFile} (h : rfWf f = true) : rfWf (rfSet f a w) = true := by
  unfold rfSet rfErase
  split
  · exact rfWf_filter _ h
  · exact rfWf_put ‹_› h

theorem rfWf_foldl_set (g : Nat × Word → Word) (l : RegFile) {f : RegFile} (h : rfWf f = true) :
    rfWf (l.foldl (fun f p => rfSet f p.1 (g p)) f) = true := by
  induction l generalizing f with
  | nil => exact h
  | cons p t ih => exact ih (rfWf_set _ _ h)

theorem rfWf_foldl_put (l : RegFile) (hl : ∀ p ∈ l, p.2 ≠ regDefault p.1) {f : RegFile} (h : rfWf f = true) :
    rfWf (l.foldl (fun f p => rfPut p.1 p.2 f) f) = true := by
  induction l generalizing f with
  | nil => exact h
  | cons p t ih => exact ih (fun q hq => hl q (List.mem_cons_of_mem _ hq)) (rfWf_put (hl p (by simp)) h)

/-! Reading after writing. -/

theorem rfFind_put_self (a : Nat) (w : Word) (f : RegFile) : rfFind a (rfPut a w f) = some w := by
  induction f with
  | nil => simp [rfPut, rfFind]
  | cons q t ih =>
    obtain ⟨b, v⟩ := q
    simp only [rfPut]
    split
    · simp [rfFind]
    · split
      · simp [rfFind]
      · rename_i h; simp [rfFind, Ne.symm h, ih]

theorem rfFind_put_other {a b : Nat} (h : b ≠ a) (w : Word) (f : RegFile) : rfFind b (rfPut a w f) = rfFind b f := by
  induction f with
  | nil => simp [rfPut, rfFind, Ne.symm h]
  | cons q t ih =>
    obtain ⟨c, v⟩ := q
    simp only [rfPut]
    split
    · simp [rfFind, Ne.symm h]
    · split
      · rename_i hac; subst hac; simp [rfFind, Ne.symm h]
      · simp [rfFind, ih]

theorem rfFind_erase_self (a : Nat) (f : RegFile) : rfFind a (rfErase a f) = none := by
  induction f with
  | nil => rfl
  | cons q t ih =>
    obtain ⟨c, v⟩ := q
    unfold rfErase at ih ⊢
    by_cases hc : c = a
    · simp [hc, ih]
    · simp [hc, rfFind, ih]

theorem rfFind_erase_other {a b : Nat} (h : b ≠ a) (f : RegFile) : rfFind b (rfErase a f) = rfFind b f := by
  induction f with
  | nil => rfl
  | cons q t ih =>
    obtain ⟨c, v⟩ := q
    unfold rfErase at ih ⊢
    by_cases hc : c = a
    · subst hc; simp [rfFind, ih, Ne.symm h]
    · simp [hc, rfFind, ih]

/-- A word that was written reads back. -/
@[simp] theorem rfGet_set_self (f : RegFile) (a : Nat) (w : Word) : rfGet (rfSet f a w) a = w := by
  unfold rfGet rfSet
  split
  · rename_i h; simp [rfFind_erase_self, h]
  · simp [rfFind_put_self]

/-- A write leaves every other word alone. -/
theorem rfGet_set_other {a b : Nat} (h : b ≠ a) (f : RegFile) (w : Word) : rfGet (rfSet f a w) b = rfGet f b := by
  unfold rfGet rfSet
  split
  · rw [rfFind_erase_other h]
  · rw [rfFind_put_other h]

/-! Stored bytes. -/

theorem bytesWf_filter (p : Nat × Byte → Bool) {e : Byte} {l : List (Nat × Byte)} (h : bytesWf e l) :
    bytesWf e (l.filter p) :=
  ⟨h.1.filter p, fun q hq => h.2 q (List.mem_of_mem_filter hq)⟩

theorem mem_flashPut {a : Nat} {b : Byte} {l : List (Nat × Byte)} {p : Nat × Byte} (h : p ∈ flashPut a b l) :
    p = (a, b) ∨ p ∈ l := by
  induction l with
  | nil => simpa [flashPut] using h
  | cons q t ih =>
    obtain ⟨c, v⟩ := q
    simp only [flashPut] at h
    split at h
    · simpa using h
    · split at h
      · rcases List.mem_cons.mp h with h | h
        · exact .inl h
        · exact .inr (List.mem_cons_of_mem _ h)
      · rcases List.mem_cons.mp h with h | h
        · exact .inr (by simp [h])
        · rcases ih h with h | h
          · exact .inl h
          · exact .inr (List.mem_cons_of_mem _ h)

theorem bytesWf_put {e b : Byte} (hb : b ≠ e) (a : Nat) {l : List (Nat × Byte)} (h : bytesWf e l) :
    bytesWf e (flashPut a b l) := by
  refine ⟨?_, fun p hp => ?_⟩
  · induction l with
    | nil => simp [flashPut]
    | cons q t ih =>
      obtain ⟨c, v⟩ := q
      have ht := List.pairwise_cons.mp h.1
      simp only [flashPut]
      split
      · rename_i hac
        refine List.pairwise_cons.mpr ⟨fun p hp => ?_, h.1⟩
        rcases List.mem_cons.mp hp with rfl | hp
        · exact hac
        · exact lt_trans hac (ht.1 p hp)
      · split
        · rename_i hac
          subst hac
          exact List.pairwise_cons.mpr ⟨ht.1, ht.2⟩
        · rename_i h1 h2
          refine List.pairwise_cons.mpr ⟨fun p hp => ?_, ih ⟨ht.2, fun p hp => h.2 p (List.mem_cons_of_mem _ hp)⟩⟩
          rcases mem_flashPut hp with rfl | hp
          · show c < a
            omega
          · exact ht.1 p hp
  · rcases mem_flashPut hp with rfl | hp
    · exact hb
    · exact h.2 p hp

theorem bytesWf_nil (e : Byte) : bytesWf e [] := ⟨List.Pairwise.nil, fun _ h => absurd h (by simp)⟩

theorem bytesWf_foldl {α : Type} (e : Byte) (g : List (Nat × Byte) → α → List (Nat × Byte))
    (hg : ∀ l x, bytesWf e l → bytesWf e (g l x)) (xs : List α) {l : List (Nat × Byte)} (h : bytesWf e l) :
    bytesWf e (xs.foldl g l) := by
  induction xs generalizing l with
  | nil => exact h
  | cons x t ih => exact ih (hg _ _ h)

theorem flashSet_wf (a : Nat) (b : Byte) {l : List (Nat × Byte)} (h : bytesWf 0xFF#8 l) : bytesWf 0xFF#8 (flashSet l a b) := by
  unfold flashSet
  split
  · exact bytesWf_filter _ h
  · exact bytesWf_put ‹_› a h

theorem flashProgram_wf (a : Nat) (bs : List Byte) {l : List (Nat × Byte)} (h : bytesWf 0xFF#8 l) :
    bytesWf 0xFF#8 (flashProgram l a bs) :=
  bytesWf_foldl _ _ (fun _ _ h => flashSet_wf _ _ h) _ h

theorem flashErase_wf (a : Nat) {l : List (Nat × Byte)} (h : bytesWf 0xFF#8 l) : bytesWf 0xFF#8 (flashErase l a) :=
  bytesWf_filter _ h

theorem flashOp_wf (o : FlashOp) {l : List (Nat × Byte)} (h : bytesWf 0xFF#8 l) : bytesWf 0xFF#8 (o.apply l) := by
  cases o with
  | program a bs => exact flashProgram_wf _ _ h
  | erase a => exact flashErase_wf _ h

theorem bufPut_wf (bs : List Byte) {l : List (Nat × Byte)} (h : bytesWf 0#8 l) : bytesWf 0#8 (bufPut bs l) := by
  refine bytesWf_foldl _ _ (fun l x h => ?_) _ h
  split
  · exact bytesWf_filter _ h
  · exact bytesWf_put ‹_› _ h

/-! The device. -/

variable {sz : Nat}

namespace Device

theorem canonical_mk {nDies : Nat} {straps : List Nat} {frame clk : Nat} {regs shadow force : RegFile} {chans : List Chan}
    {dies : List DieSt} {line : Line} {bcast : List Bcast} {snap : Snap} {host : HostPort} {pins : Pins}
    {irqAt : Nat} {ledger : List LedgerEnt} {vreqs : List VReq} {vorder : Nat} {grants : List (Nat × Nat)} {bankAt : List (Option Nat)}
    {nvm : Nvm} {pulses : List Pulse} {tallyClr : List Bool} {tallyIn : List TallyPin} {run : Run} {supply : Supply} {otp : OtpCmd}
    {reads : List (Nat × Nat)} {resps : List (Nat × Word)} {stage : RegFile} {busW1c : Word} {busClr : Bool} {clockRegs : List (Nat × Word)} {dropped : List (Nat × LedgerEnt)} {free : Nat}
    (h1 : rfWf regs = true) (h2 : rfWf shadow = true) (h3 : rfWf force = true) (h4 : bytesWf 0xFF#8 nvm.flash)
    (h5 : bytesWf 0#8 nvm.buf) (h6 : nDies = sz) (h7 : chans.length = 64) (h8 : dies.length = 8)
    (h9 : ledger.length = 64) (h10 : host.posting.length ≤ 16) :
    Device.Canonical ⟨nDies, straps, frame, clk, regs, shadow, stage, force, chans, dies, line, bcast, snap, host, pins, irqAt, ledger, vreqs,
      vorder, grants, bankAt, nvm, pulses, tallyClr, tallyIn, run, supply, otp, reads, resps, busW1c, busClr,
      clockRegs, dropped, free⟩ sz :=
  ⟨h1, h2, h3, h4, h5, h6, h7, h8, h9, h10⟩

theorem ring_set {l : List LedgerEnt} (i : Nat) (e : LedgerEnt) (h : l.length = 64) : (l.set i e).length = 64 := by
  simpa using h

theorem canonical_ite {c : Prop} [Decidable c] {a b : Device} (ha : c → a.Canonical sz) (hb : ¬c → b.Canonical sz) :
    (if c then a else b).Canonical sz := by
  split
  · exact ha ‹_›
  · exact hb ‹_›

theorem canonical_foldl {α : Type} {g : Device → α → Device} (xs : List α) {s : Device} (h : s.Canonical sz)
    (hg : ∀ x t, t.Canonical sz → (g t x).Canonical sz) : (xs.foldl g s).Canonical sz := by
  induction xs generalizing s with
  | nil => exact h
  | cons x l ih => exact ih (hg _ _ h)

theorem canonical_each (l : List Nat) {f : Nat → Device → Device} {s : Device} (h : s.Canonical sz)
    (hf : ∀ i t, t.Canonical sz → (f i t).Canonical sz) : (s.each l f).Canonical sz :=
  canonical_foldl l h hf

theorem canonical_fst {α : Type} {p : Device × α} {s : Device} {x : α} (e : p = (s, x)) (h : p.1.Canonical sz) : s.Canonical sz := by
  subst e; exact h

theorem canonical_snd {α : Type} {p : α × Device} {s : Device} {x : α} (e : p = (x, s)) (h : p.2.Canonical sz) : s.Canonical sz := by
  subst e; exact h

theorem canonical_setReg (a : Nat) (w : Word) {s : Device} (h : s.Canonical sz) : (s.setReg a w).Canonical sz :=
  { h with regs := rfWf_set a w h.regs }
theorem canonical_setFrc (a : Nat) (w : Word) {s : Device} (h : s.Canonical sz) : (s.setFrc a w).Canonical sz :=
  { h with force := rfWf_set a w h.force }
theorem canonical_modCh (g : Nat) (f : Chan → Chan) {s : Device} (h : s.Canonical sz) : (s.modCh g f).Canonical sz :=
  { h with chans := by simpa [modCh] using h.chans }
theorem canonical_modDie (d : Nat) (f : DieSt → DieSt) {s : Device} (h : s.Canonical sz) : (s.modDie d f).Canonical sz :=
  { h with dies := by simpa [modDie] using h.dies }
theorem canonical_modSup (f : Supply → Supply) {s : Device} (h : s.Canonical sz) : (s.modSup f).Canonical sz := { h with }
theorem canonical_modNvm {f : Nvm → Nvm} {s : Device} (h : s.Canonical sz)
    (hf : ∀ n, bytesWf 0xFF#8 n.flash → bytesWf 0xFF#8 (f n).flash)
    (hb : ∀ n, bytesWf 0#8 n.buf → bytesWf 0#8 (f n).buf) : (s.modNvm f).Canonical sz :=
  { h with flash := hf _ h.flash, buf := hb _ h.buf }
theorem canonical_modHost {f : HostPort → HostPort} {s : Device} (h : s.Canonical sz)
    (hf : ∀ x, x.posting.length ≤ 16 → (f x).posting.length ≤ 16) : (s.modHost f).Canonical sz :=
  { h with posting := hf _ h.posting }

end Device

theorem canonical_reset : State.reset.dev.Canonical 8 :=
  ⟨rfl, rfl, rfl, bytesWf_nil _, bytesWf_nil _, rfl, by decide, by decide, by decide, by decide⟩

end Sys2Proof.Machine
end

