-- ==== Sys2Proof/Laws/CanonicalChannel.lean ====
section
/-! SUPPORT. Every operation of these files keeps the canonical form of the device (Device.Canonical). One lemma for each operation, in the order of the files. -/

set_option linter.unusedTactic false
set_option linter.unreachableTactic false
set_option linter.unusedVariables false

namespace Sys2Proof.Machine

variable {sz : Nat}

/-! Ops. -/

theorem Device.canonical_modBench {s : Device} (d : ℕ) (f : Bench → Bench) (hs : s.Canonical sz) :
    (Device.modBench s d f).Canonical sz := by
  unfold Device.modBench
  repeat' first
    | with_reducible assumption
    | with_reducible apply Device.canonical_modDie
    | intro _
    | split
    | dsimp only

theorem Device.canonical_setBulk {s : Device} (reads : List (ℕ × ℕ)) (resps : List (ℕ × Sys2Proof.Word)) (hs : s.Canonical sz) :
    (Device.setBulk s reads resps).Canonical sz := by
  unfold Device.setBulk
  repeat' first
    | with_reducible assumption
    | with_reducible apply Device.canonical_mk
    | with_reducible apply Device.ring_set
    | with_reducible apply rfWf_set
    | with_reducible apply Device.Canonical.regs
    | with_reducible apply Device.Canonical.shadow
    | with_reducible apply Device.Canonical.force
    | with_reducible apply Device.Canonical.flash
    | with_reducible apply Device.Canonical.buf
    | with_reducible apply Device.Canonical.size
    | with_reducible apply Device.Canonical.chans
    | with_reducible apply Device.Canonical.dies
    | with_reducible apply Device.Canonical.ring
    | with_reducible apply Device.Canonical.posting
    | intro _
    | split
    | dsimp only

theorem Device.canonical_pset {s : Device} (f : Fld Blk.pkg) (v : ℕ) (hs : s.Canonical sz) :
    (Device.pset s f v).Canonical sz := by
  unfold Device.pset
  repeat' first
    | with_reducible assumption
    | with_reducible apply Device.canonical_setReg
    | intro _
    | split
    | dsimp only

theorem Device.canonical_psetBit {s : Device} (f : Fld Blk.pkg) (i : ℕ) (b : Bool) (hs : s.Canonical sz) :
    (Device.psetBit s f i b).Canonical sz := by
  unfold Device.psetBit
  repeat' first
    | with_reducible assumption
    | with_reducible apply Device.canonical_pset
    | with_reducible apply Device.canonical_ite
    | intro _
    | split
    | dsimp only

theorem Device.canonical_modConv {s : Device} (g : ℕ) (f : Conv → Conv) (hs : s.Canonical sz) :
    (Device.modConv s g f).Canonical sz := by
  unfold Device.modConv
  repeat' first
    | with_reducible assumption
    | with_reducible apply Device.canonical_modCh
    | intro _
    | split
    | dsimp only

theorem Device.canonical_modLine {s : Device} (f : Line → Line) (hs : s.Canonical sz) :
    (Device.modLine s f).Canonical sz := by
  unfold Device.modLine
  repeat' first
    | with_reducible assumption
    | with_reducible apply Device.canonical_mk
    | with_reducible apply Device.ring_set
    | with_reducible apply rfWf_set
    | with_reducible apply Device.Canonical.regs
    | with_reducible apply Device.Canonical.shadow
    | with_reducible apply Device.Canonical.force
    | with_reducible apply Device.Canonical.flash
    | with_reducible apply Device.Canonical.buf
    | with_reducible apply Device.Canonical.size
    | with_reducible apply Device.Canonical.chans
    | with_reducible apply Device.Canonical.dies
    | with_reducible apply Device.Canonical.ring
    | with_reducible apply Device.Canonical.posting
    | intro _
    | split
    | dsimp only

theorem Device.canonical_dset {s : Device} (d : ℕ) (f : Fld Blk.die) (v : ℕ) (hs : s.Canonical sz) :
    (Device.dset s d f v).Canonical sz := by
  unfold Device.dset
  repeat' first
    | with_reducible assumption
    | with_reducible apply Device.canonical_setReg
    | intro _
    | split
    | dsimp only

theorem Device.canonical_dinc {s : Device} (d : ℕ) (f : Fld Blk.die) (hs : s.Canonical sz) :
    (Device.dinc s d f).Canonical sz := by
  unfold Device.dinc
  repeat' first
    | with_reducible assumption
    | with_reducible apply Device.canonical_dset
    | intro _
    | split
    | dsimp only

theorem Device.canonical_modLink {s : Device} (d : ℕ) (f : Link → Link) (hs : s.Canonical sz) :
    (Device.modLink s d f).Canonical sz := by
  unfold Device.modLink
  repeat' first
    | with_reducible assumption
    | with_reducible apply Device.canonical_modDie
    | intro _
    | split
    | dsimp only

theorem Device.canonical_setIrqAt {s : Device} (n : ℕ) (hs : s.Canonical sz) :
    (Device.setIrqAt s n).Canonical sz := by
  unfold Device.setIrqAt
  repeat' first
    | with_reducible assumption
    | with_reducible apply Device.canonical_mk
    | with_reducible apply Device.ring_set
    | with_reducible apply rfWf_set
    | with_reducible apply Device.Canonical.regs
    | with_reducible apply Device.Canonical.shadow
    | with_reducible apply Device.Canonical.force
    | with_reducible apply Device.Canonical.flash
    | with_reducible apply Device.Canonical.buf
    | with_reducible apply Device.Canonical.size
    | with_reducible apply Device.Canonical.chans
    | with_reducible apply Device.Canonical.dies
    | with_reducible apply Device.Canonical.ring
    | with_reducible apply Device.Canonical.posting
    | intro _
    | split
    | dsimp only

theorem Device.canonical_nextFree {s : Device} (hs : s.Canonical sz) :
    (Device.nextFree s).Canonical sz := by
  unfold Device.nextFree
  repeat' first
    | with_reducible assumption
    | with_reducible apply Device.canonical_mk
    | with_reducible apply Device.ring_set
    | with_reducible apply rfWf_set
    | with_reducible apply Device.Canonical.regs
    | with_reducible apply Device.Canonical.shadow
    | with_reducible apply Device.Canonical.force
    | with_reducible apply Device.Canonical.flash
    | with_reducible apply Device.Canonical.buf
    | with_reducible apply Device.Canonical.size
    | with_reducible apply Device.Canonical.chans
    | with_reducible apply Device.Canonical.dies
    | with_reducible apply Device.Canonical.ring
    | with_reducible apply Device.Canonical.posting
    | intro _
    | split
    | dsimp only

theorem canonical_irqLatch (cat : ℕ) (die : ℕ) (obj : ℕ) {s : Device} (hs : s.Canonical sz) :
    (irqLatch cat die obj s).Canonical sz := by
  unfold irqLatch
  repeat' first
    | with_reducible assumption
    | with_reducible apply Device.canonical_pset
    | with_reducible apply Device.canonical_ite
    | intro _
    | split
    | dsimp only

theorem Device.canonical_pinc {s : Device} (f : Fld Blk.pkg) (hs : s.Canonical sz) :
    (Device.pinc s f).Canonical sz := by
  unfold Device.pinc
  repeat' first
    | with_reducible assumption
    | with_reducible apply Device.canonical_pset
    | intro _
    | split
    | dsimp only

theorem canonical_irqSource (cat : ℕ) (die : ℕ) (obj : ℕ) {s : Device} (hs : s.Canonical sz) :
    (irqSource cat die obj s).Canonical sz := by
  unfold irqSource
  repeat' first
    | with_reducible assumption
    | with_reducible apply Device.canonical_setIrqAt
    | with_reducible apply Device.canonical_pset
    | with_reducible apply canonical_irqLatch
    | with_reducible apply Device.canonical_pinc
    | with_reducible apply Device.canonical_ite
    | intro _
    | split
    | dsimp only

theorem canonical_setIrq (cat : ℕ) (die : ℕ) (obj : ℕ) {s : Device} (hs : s.Canonical sz) :
    (setIrq cat die obj s).Canonical sz := by
  unfold setIrq
  repeat' first
    | with_reducible assumption
    | with_reducible apply Device.canonical_setReg
    | with_reducible apply canonical_irqSource
    | with_reducible apply Device.canonical_ite
    | intro _
    | split
    | dsimp only

theorem Device.canonical_setDropped {s : Device} (l : List (ℕ × LedgerEnt)) (hs : s.Canonical sz) :
    (Device.setDropped s l).Canonical sz := by
  unfold Device.setDropped
  repeat' first
    | with_reducible assumption
    | with_reducible apply Device.canonical_mk
    | with_reducible apply Device.ring_set
    | with_reducible apply rfWf_set
    | with_reducible apply Device.Canonical.regs
    | with_reducible apply Device.Canonical.shadow
    | with_reducible apply Device.Canonical.force
    | with_reducible apply Device.Canonical.flash
    | with_reducible apply Device.Canonical.buf
    | with_reducible apply Device.Canonical.size
    | with_reducible apply Device.Canonical.chans
    | with_reducible apply Device.Canonical.dies
    | with_reducible apply Device.Canonical.ring
    | with_reducible apply Device.Canonical.posting
    | intro _
    | split
    | dsimp only

theorem canonical_setCat (cat : ℕ) {s : Device} (hs : s.Canonical sz) :
    (setCat cat s).Canonical sz := by
  unfold setCat
  repeat' first
    | with_reducible assumption
    | with_reducible apply canonical_setIrq
    | intro _
    | split
    | dsimp only

theorem canonical_ledgerWrite (e : LedgerEnt) {s : Device} (hs : s.Canonical sz) :
    (ledgerWrite e s).Canonical sz := by
  unfold ledgerWrite
  repeat' first
    | with_reducible assumption
    | with_reducible apply Device.canonical_pset
    | with_reducible apply canonical_setCat
    | with_reducible apply Device.canonical_ite
    | with_reducible apply Device.canonical_mk
    | with_reducible apply Device.ring_set
    | with_reducible apply rfWf_set
    | with_reducible apply Device.Canonical.regs
    | with_reducible apply Device.Canonical.shadow
    | with_reducible apply Device.Canonical.force
    | with_reducible apply Device.Canonical.flash
    | with_reducible apply Device.Canonical.buf
    | with_reducible apply Device.Canonical.size
    | with_reducible apply Device.Canonical.chans
    | with_reducible apply Device.Canonical.dies
    | with_reducible apply Device.Canonical.ring
    | with_reducible apply Device.Canonical.posting
    | intro _
    | split
    | dsimp only

theorem canonical_ledgerPut (e : LedgerEnt) {s : Device} (hs : s.Canonical sz) :
    (ledgerPut e s).Canonical sz := by
  unfold ledgerPut
  repeat' first
    | with_reducible assumption
    | with_reducible apply Device.canonical_pset
    | with_reducible apply Device.canonical_pinc
    | with_reducible apply Device.canonical_setDropped
    | with_reducible apply canonical_ledgerWrite
    | with_reducible apply Device.canonical_ite
    | intro _
    | split
    | dsimp only

theorem canonical_logEvent (cat : ℕ) (d : ℕ) (code : ℕ) (obj : ℕ) (data : ℕ) {s : Device} (hs : s.Canonical sz) :
    (logEvent cat d code obj data s).Canonical sz := by
  unfold logEvent
  repeat' first
    | with_reducible assumption
    | with_reducible apply canonical_setIrq
    | with_reducible apply canonical_ledgerPut
    | with_reducible apply Device.canonical_modDie
    | with_reducible apply Device.canonical_ite
    | intro _
    | split
    | dsimp only

theorem Device.canonical_modRecov {s : Device} (d : ℕ) (f : Recov → Recov) (hs : s.Canonical sz) :
    (Device.modRecov s d f).Canonical sz := by
  unfold Device.modRecov
  repeat' first
    | with_reducible assumption
    | with_reducible apply Device.canonical_modDie
    | intro _
    | split
    | dsimp only

theorem Device.canonical_clearRun {s : Device} (hs : s.Canonical sz) :
    (Device.clearRun s).Canonical sz := by
  unfold Device.clearRun
  repeat' first
    | with_reducible assumption
    | with_reducible apply Device.canonical_mk
    | with_reducible apply Device.ring_set
    | with_reducible apply rfWf_set
    | with_reducible apply Device.Canonical.regs
    | with_reducible apply Device.Canonical.shadow
    | with_reducible apply Device.Canonical.force
    | with_reducible apply Device.Canonical.flash
    | with_reducible apply Device.Canonical.buf
    | with_reducible apply Device.Canonical.size
    | with_reducible apply Device.Canonical.chans
    | with_reducible apply Device.Canonical.dies
    | with_reducible apply Device.Canonical.ring
    | with_reducible apply Device.Canonical.posting
    | intro _
    | split
    | dsimp only

theorem Device.canonical_modDue {s : Device} (g : ℕ) (f : Due → Due) (hs : s.Canonical sz) :
    (Device.modDue s g f).Canonical sz := by
  unfold Device.modDue
  repeat' first
    | with_reducible assumption
    | with_reducible apply Device.canonical_modCh
    | intro _
    | split
    | dsimp only

theorem Device.canonical_dforce {s : Device} (d : ℕ) (off : ℕ) (hs : s.Canonical sz) :
    (Device.dforce s d off).Canonical sz := by
  unfold Device.dforce
  repeat' first
    | with_reducible assumption
    | with_reducible apply Device.canonical_setFrc
    | intro _
    | split
    | dsimp only

theorem canonical_setPkgState (st : ℕ) {s : Device} (hs : s.Canonical sz) :
    (setPkgState st s).Canonical sz := by
  unfold setPkgState
  repeat' first
    | with_reducible assumption
    | with_reducible apply Device.canonical_pset
    | intro _
    | split
    | dsimp only

theorem Device.canonical_pforce {s : Device} (off : ℕ) (hs : s.Canonical sz) :
    (Device.pforce s off).Canonical sz := by
  unfold Device.pforce
  repeat' first
    | with_reducible assumption
    | with_reducible apply Device.canonical_setFrc
    | intro _
    | split
    | dsimp only

theorem Device.canonical_modGlean {s : Device} (d : ℕ) (f : Glean → Glean) (hs : s.Canonical sz) :
    (Device.modGlean s d f).Canonical sz := by
  unfold Device.modGlean
  repeat' first
    | with_reducible assumption
    | with_reducible apply Device.canonical_modDie
    | intro _
    | split
    | dsimp only

theorem Device.canonical_modAcc {s : Device} (g : ℕ) (f : Acc → Acc) (hs : s.Canonical sz) :
    (Device.modAcc s g f).Canonical sz := by
  unfold Device.modAcc
  repeat' first
    | with_reducible assumption
    | with_reducible apply Device.canonical_modCh
    | intro _
    | split
    | dsimp only

theorem Device.canonical_noteRegs {s : Device} (hs : s.Canonical sz) :
    (Device.noteRegs s).Canonical sz := by
  unfold Device.noteRegs
  repeat' first
    | with_reducible assumption
    | with_reducible apply Device.canonical_mk
    | with_reducible apply Device.ring_set
    | with_reducible apply rfWf_set
    | with_reducible apply Device.Canonical.regs
    | with_reducible apply Device.Canonical.shadow
    | with_reducible apply Device.Canonical.force
    | with_reducible apply Device.Canonical.flash
    | with_reducible apply Device.Canonical.buf
    | with_reducible apply Device.Canonical.size
    | with_reducible apply Device.Canonical.chans
    | with_reducible apply Device.Canonical.dies
    | with_reducible apply Device.Canonical.ring
    | with_reducible apply Device.Canonical.posting
    | intro _
    | split
    | dsimp only

theorem Device.canonical_setBusClr {s : Device} (b : Bool) (hs : s.Canonical sz) :
    (Device.setBusClr s b).Canonical sz := by
  unfold Device.setBusClr
  repeat' first
    | with_reducible assumption
    | with_reducible apply Device.canonical_mk
    | with_reducible apply Device.ring_set
    | with_reducible apply rfWf_set
    | with_reducible apply Device.Canonical.regs
    | with_reducible apply Device.Canonical.shadow
    | with_reducible apply Device.Canonical.force
    | with_reducible apply Device.Canonical.flash
    | with_reducible apply Device.Canonical.buf
    | with_reducible apply Device.Canonical.size
    | with_reducible apply Device.Canonical.chans
    | with_reducible apply Device.Canonical.dies
    | with_reducible apply Device.Canonical.ring
    | with_reducible apply Device.Canonical.posting
    | intro _
    | split
    | dsimp only

theorem Device.canonical_spend {s : Device} (n : ℕ) (hs : s.Canonical sz) :
    (Device.spend s n).Canonical sz := by
  unfold Device.spend
  repeat' first
    | with_reducible assumption
    | with_reducible apply Device.canonical_mk
    | with_reducible apply Device.ring_set
    | with_reducible apply rfWf_set
    | with_reducible apply Device.Canonical.regs
    | with_reducible apply Device.Canonical.shadow
    | with_reducible apply Device.Canonical.force
    | with_reducible apply Device.Canonical.flash
    | with_reducible apply Device.Canonical.buf
    | with_reducible apply Device.Canonical.size
    | with_reducible apply Device.Canonical.chans
    | with_reducible apply Device.Canonical.dies
    | with_reducible apply Device.Canonical.ring
    | with_reducible apply Device.Canonical.posting
    | intro _
    | split
    | dsimp only

theorem Device.canonical_modLp {s : Device} (g : ℕ) (f : Loop → Loop) (hs : s.Canonical sz) :
    (Device.modLp s g f).Canonical sz := by
  unfold Device.modLp
  repeat' first
    | with_reducible assumption
    | with_reducible apply Device.canonical_modCh
    | intro _
    | split
    | dsimp only

theorem Device.canonical_modAcir {s : Device} (g : ℕ) (f : Acir → Acir) (hs : s.Canonical sz) :
    (Device.modAcir s g f).Canonical sz := by
  unfold Device.modAcir
  repeat' first
    | with_reducible assumption
    | with_reducible apply Device.canonical_modCh
    | intro _
    | split
    | dsimp only

theorem Device.canonical_setTime {s : Device} (frame : ℕ) (clk : ℕ) (hs : s.Canonical sz) :
    (Device.setTime s frame clk).Canonical sz := by
  unfold Device.setTime
  repeat' first
    | with_reducible assumption
    | with_reducible apply Device.canonical_mk
    | with_reducible apply Device.ring_set
    | with_reducible apply rfWf_set
    | with_reducible apply Device.Canonical.regs
    | with_reducible apply Device.Canonical.shadow
    | with_reducible apply Device.Canonical.force
    | with_reducible apply Device.Canonical.flash
    | with_reducible apply Device.Canonical.buf
    | with_reducible apply Device.Canonical.size
    | with_reducible apply Device.Canonical.chans
    | with_reducible apply Device.Canonical.dies
    | with_reducible apply Device.Canonical.ring
    | with_reducible apply Device.Canonical.posting
    | intro _
    | split
    | dsimp only

theorem Device.canonical_modLease {s : Device} (g : ℕ) (f : Lease → Lease) (hs : s.Canonical sz) :
    (Device.modLease s g f).Canonical sz := by
  unfold Device.modLease
  repeat' first
    | with_reducible assumption
    | with_reducible apply Device.canonical_modCh
    | intro _
    | split
    | dsimp only

theorem canonical_publishDies {s : Device} (hs : s.Canonical sz) :
    (publishDies s).Canonical sz := by
  unfold publishDies
  repeat' first
    | with_reducible assumption
    | with_reducible apply Device.canonical_pset
    | with_reducible apply Device.canonical_dset
    | with_reducible apply Device.canonical_ite
    | with_reducible apply Device.canonical_each
    | intro _
    | split
    | dsimp only

theorem Device.canonical_modSar {s : Device} (d : ℕ) (f : Sar → Sar) (hs : s.Canonical sz) :
    (Device.modSar s d f).Canonical sz := by
  unfold Device.modSar
  repeat' first
    | with_reducible assumption
    | with_reducible apply Device.canonical_modDie
    | intro _
    | split
    | dsimp only

theorem Device.canonical_modSnap {s : Device} (f : Snap → Snap) (hs : s.Canonical sz) :
    (Device.modSnap s f).Canonical sz := by
  unfold Device.modSnap
  repeat' first
    | with_reducible assumption
    | with_reducible apply Device.canonical_mk
    | with_reducible apply Device.ring_set
    | with_reducible apply rfWf_set
    | with_reducible apply Device.Canonical.regs
    | with_reducible apply Device.Canonical.shadow
    | with_reducible apply Device.Canonical.force
    | with_reducible apply Device.Canonical.flash
    | with_reducible apply Device.Canonical.buf
    | with_reducible apply Device.Canonical.size
    | with_reducible apply Device.Canonical.chans
    | with_reducible apply Device.Canonical.dies
    | with_reducible apply Device.Canonical.ring
    | with_reducible apply Device.Canonical.posting
    | intro _
    | split
    | dsimp only

theorem Device.canonical_cset {s : Device} (g : ℕ) (f : Fld Blk.ch) (v : ℕ) (hs : s.Canonical sz) :
    (Device.cset s g f v).Canonical sz := by
  unfold Device.cset
  repeat' first
    | with_reducible assumption
    | with_reducible apply Device.canonical_setReg
    | intro _
    | split
    | dsimp only

theorem Device.canonical_cforce {s : Device} (g : ℕ) (off : ℕ) (hs : s.Canonical sz) :
    (Device.cforce s g off).Canonical sz := by
  unfold Device.cforce
  repeat' first
    | with_reducible assumption
    | with_reducible apply Device.canonical_setFrc
    | intro _
    | split
    | dsimp only

theorem Device.canonical_setBanks {s : Device} (l : List (Option ℕ)) (hs : s.Canonical sz) :
    (Device.setBanks s l).Canonical sz := by
  unfold Device.setBanks
  repeat' first
    | with_reducible assumption
    | with_reducible apply Device.canonical_mk
    | with_reducible apply Device.ring_set
    | with_reducible apply rfWf_set
    | with_reducible apply Device.Canonical.regs
    | with_reducible apply Device.Canonical.shadow
    | with_reducible apply Device.Canonical.force
    | with_reducible apply Device.Canonical.flash
    | with_reducible apply Device.Canonical.buf
    | with_reducible apply Device.Canonical.size
    | with_reducible apply Device.Canonical.chans
    | with_reducible apply Device.Canonical.dies
    | with_reducible apply Device.Canonical.ring
    | with_reducible apply Device.Canonical.posting
    | intro _
    | split
    | dsimp only

theorem Device.canonical_setGrants {s : Device} (l : List (ℕ × ℕ)) (hs : s.Canonical sz) :
    (Device.setGrants s l).Canonical sz := by
  unfold Device.setGrants
  repeat' first
    | with_reducible assumption
    | with_reducible apply Device.canonical_mk
    | with_reducible apply Device.ring_set
    | with_reducible apply rfWf_set
    | with_reducible apply Device.Canonical.regs
    | with_reducible apply Device.Canonical.shadow
    | with_reducible apply Device.Canonical.force
    | with_reducible apply Device.Canonical.flash
    | with_reducible apply Device.Canonical.buf
    | with_reducible apply Device.Canonical.size
    | with_reducible apply Device.Canonical.chans
    | with_reducible apply Device.Canonical.dies
    | with_reducible apply Device.Canonical.ring
    | with_reducible apply Device.Canonical.posting
    | intro _
    | split
    | dsimp only

theorem Device.canonical_modPins {s : Device} (f : Pins → Pins) (hs : s.Canonical sz) :
    (Device.modPins s f).Canonical sz := by
  unfold Device.modPins
  repeat' first
    | with_reducible assumption
    | with_reducible apply Device.canonical_mk
    | with_reducible apply Device.ring_set
    | with_reducible apply rfWf_set
    | with_reducible apply Device.Canonical.regs
    | with_reducible apply Device.Canonical.shadow
    | with_reducible apply Device.Canonical.force
    | with_reducible apply Device.Canonical.flash
    | with_reducible apply Device.Canonical.buf
    | with_reducible apply Device.Canonical.size
    | with_reducible apply Device.Canonical.chans
    | with_reducible apply Device.Canonical.dies
    | with_reducible apply Device.Canonical.ring
    | with_reducible apply Device.Canonical.posting
    | intro _
    | split
    | dsimp only

theorem Device.canonical_modEng {s : Device} (g : ℕ) (f : Eng → Eng) (hs : s.Canonical sz) :
    (Device.modEng s g f).Canonical sz := by
  unfold Device.modEng
  repeat' first
    | with_reducible assumption
    | with_reducible apply Device.canonical_modCh
    | intro _
    | split
    | dsimp only

theorem Device.canonical_setBusW1c {s : Device} (w : Sys2Proof.Word) (hs : s.Canonical sz) :
    (Device.setBusW1c s w).Canonical sz := by
  unfold Device.setBusW1c
  repeat' first
    | with_reducible assumption
    | with_reducible apply Device.canonical_mk
    | with_reducible apply Device.ring_set
    | with_reducible apply rfWf_set
    | with_reducible apply Device.Canonical.regs
    | with_reducible apply Device.Canonical.shadow
    | with_reducible apply Device.Canonical.force
    | with_reducible apply Device.Canonical.flash
    | with_reducible apply Device.Canonical.buf
    | with_reducible apply Device.Canonical.size
    | with_reducible apply Device.Canonical.chans
    | with_reducible apply Device.Canonical.dies
    | with_reducible apply Device.Canonical.ring
    | with_reducible apply Device.Canonical.posting
    | intro _
    | split
    | dsimp only

theorem Device.canonical_setBcast {s : Device} (l : List Bcast) (hs : s.Canonical sz) :
    (Device.setBcast s l).Canonical sz := by
  unfold Device.setBcast
  repeat' first
    | with_reducible assumption
    | with_reducible apply Device.canonical_mk
    | with_reducible apply Device.ring_set
    | with_reducible apply rfWf_set
    | with_reducible apply Device.Canonical.regs
    | with_reducible apply Device.Canonical.shadow
    | with_reducible apply Device.Canonical.force
    | with_reducible apply Device.Canonical.flash
    | with_reducible apply Device.Canonical.buf
    | with_reducible apply Device.Canonical.size
    | with_reducible apply Device.Canonical.chans
    | with_reducible apply Device.Canonical.dies
    | with_reducible apply Device.Canonical.ring
    | with_reducible apply Device.Canonical.posting
    | intro _
    | split
    | dsimp only

/-! LineAngle. -/

theorem canonical_setLineState (st : ℕ) {s : Device} (hs : s.Canonical sz) :
    (setLineState st s).Canonical sz := by
  unfold setLineState
  repeat' first
    | with_reducible assumption
    | with_reducible apply Device.canonical_pset
    | with_reducible apply Device.canonical_ite
    | intro _
    | split
    | dsimp only

theorem canonical_qualifiedEdge (t : ℕ) {s : Device} (hs : s.Canonical sz) :
    (qualifiedEdge t s).Canonical sz := by
  unfold qualifiedEdge
  repeat' first
    | with_reducible assumption
    | with_reducible apply canonical_logEvent
    | with_reducible apply Device.canonical_nextFree
    | with_reducible apply Device.canonical_setReg
    | with_reducible apply canonical_setLineState
    | with_reducible apply canonical_setCat
    | with_reducible apply Device.canonical_pset
    | with_reducible apply Device.canonical_ite
    | with_reducible apply Device.canonical_mk
    | with_reducible apply Device.ring_set
    | with_reducible apply rfWf_set
    | with_reducible apply Device.Canonical.regs
    | with_reducible apply Device.Canonical.shadow
    | with_reducible apply Device.Canonical.force
    | with_reducible apply Device.Canonical.flash
    | with_reducible apply Device.Canonical.buf
    | with_reducible apply Device.Canonical.size
    | with_reducible apply Device.Canonical.chans
    | with_reducible apply Device.Canonical.dies
    | with_reducible apply Device.Canonical.ring
    | with_reducible apply Device.Canonical.posting
    | intro _
    | split
    | dsimp only

theorem canonical_lineClock {s : Device} (hs : s.Canonical sz) :
    (lineClock s).Canonical sz := by
  unfold lineClock
  repeat' first
    | with_reducible assumption
    | with_reducible apply Device.canonical_modLine
    | with_reducible apply Device.canonical_setReg
    | with_reducible apply Device.canonical_ite
    | intro _
    | split
    | dsimp only

theorem canonical_lineBoundary {s : Device} (hs : s.Canonical sz) :
    (lineBoundary s).Canonical sz := by
  unfold lineBoundary
  repeat' first
    | with_reducible assumption
    | with_reducible apply Device.canonical_pset
    | with_reducible apply Device.canonical_pforce
    | with_reducible apply Device.canonical_setFrc
    | with_reducible apply Device.canonical_ite
    | with_reducible apply Device.canonical_mk
    | with_reducible apply Device.ring_set
    | with_reducible apply rfWf_set
    | with_reducible apply Device.Canonical.regs
    | with_reducible apply Device.Canonical.shadow
    | with_reducible apply Device.Canonical.force
    | with_reducible apply Device.Canonical.flash
    | with_reducible apply Device.Canonical.buf
    | with_reducible apply Device.Canonical.size
    | with_reducible apply Device.Canonical.chans
    | with_reducible apply Device.Canonical.dies
    | with_reducible apply Device.Canonical.ring
    | with_reducible apply Device.Canonical.posting
    | intro _
    | split
    | dsimp only

theorem canonical_clrRej (data : Sys2Proof.Word) {s : Device} (hs : s.Canonical sz) :
    (clrRej data s).Canonical sz := by
  unfold clrRej
  repeat' first
    | with_reducible assumption
    | with_reducible apply Device.canonical_setReg
    | with_reducible apply Device.canonical_ite
    | intro _
    | split
    | dsimp only

theorem canonical_lineStart {s : Device} (hs : s.Canonical sz) :
    (lineStart s).Canonical sz := by
  unfold lineStart
  repeat' first
    | with_reducible assumption
    | with_reducible apply Device.canonical_mk
    | with_reducible apply Device.ring_set
    | with_reducible apply rfWf_set
    | with_reducible apply Device.Canonical.regs
    | with_reducible apply Device.Canonical.shadow
    | with_reducible apply Device.Canonical.force
    | with_reducible apply Device.Canonical.flash
    | with_reducible apply Device.Canonical.buf
    | with_reducible apply Device.Canonical.size
    | with_reducible apply Device.Canonical.chans
    | with_reducible apply Device.Canonical.dies
    | with_reducible apply Device.Canonical.ring
    | with_reducible apply Device.Canonical.posting
    | intro _
    | split
    | dsimp only

theorem canonical_enterHoldover {s : Device} (hs : s.Canonical sz) :
    (enterHoldover s).Canonical sz := by
  unfold enterHoldover
  repeat' first
    | with_reducible assumption
    | with_reducible apply canonical_setLineState
    | with_reducible apply Device.canonical_pset
    | with_reducible apply Device.canonical_setReg
    | with_reducible apply Device.canonical_modLine
    | with_reducible apply canonical_logEvent
    | intro _
    | split
    | dsimp only

theorem canonical_lineCfgWrite (r : Sys2Proof.LineReg) (data : Sys2Proof.Word) {s : Device} (hs : s.Canonical sz) :
    (lineCfgWrite r data s).Canonical sz := by
  unfold lineCfgWrite
  repeat' first
    | with_reducible assumption
    | with_reducible apply Device.canonical_setReg
    | with_reducible apply Device.canonical_ite
    | intro _
    | split
    | dsimp only

theorem canonical_lineTimeout {s : Device} (hs : s.Canonical sz) :
    (lineTimeout s).Canonical sz := by
  unfold lineTimeout
  repeat' first
    | with_reducible assumption
    | with_reducible apply canonical_enterHoldover
    | with_reducible apply canonical_setLineState
    | with_reducible apply Device.canonical_modLine
    | with_reducible apply Device.canonical_ite
    | intro _
    | split
    | dsimp only

theorem canonical_candidateEdge (t : ℕ) {s : Device} (hs : s.Canonical sz) :
    (candidateEdge t s).Canonical sz := by
  unfold candidateEdge
  repeat' first
    | with_reducible assumption
    | with_reducible apply canonical_qualifiedEdge
    | with_reducible apply Device.canonical_pinc
    | with_reducible apply Device.canonical_ite
    | with_reducible apply Device.canonical_mk
    | with_reducible apply Device.ring_set
    | with_reducible apply rfWf_set
    | with_reducible apply Device.Canonical.regs
    | with_reducible apply Device.Canonical.shadow
    | with_reducible apply Device.Canonical.force
    | with_reducible apply Device.Canonical.flash
    | with_reducible apply Device.Canonical.buf
    | with_reducible apply Device.Canonical.size
    | with_reducible apply Device.Canonical.chans
    | with_reducible apply Device.Canonical.dies
    | with_reducible apply Device.Canonical.ring
    | with_reducible apply Device.Canonical.posting
    | intro _
    | split
    | dsimp only

theorem canonical_lsyncEdge (tick : ℕ) (run : ℕ) (rising : Bool) {s : Device} (hs : s.Canonical sz) :
    (lsyncEdge tick run rising s).Canonical sz := by
  unfold lsyncEdge
  repeat' first
    | with_reducible assumption
    | with_reducible apply Device.canonical_pinc
    | with_reducible apply Device.canonical_modLine
    | with_reducible apply canonical_candidateEdge
    | with_reducible apply Device.canonical_ite
    | intro _
    | split
    | dsimp only

/-! Accum. -/

theorem canonical_constLoad (g : ℕ) {s : Device} (hs : s.Canonical sz) :
    (constLoad g s).Canonical sz := by
  unfold constLoad
  repeat' first
    | with_reducible assumption
    | with_reducible apply Device.canonical_cset
    | with_reducible apply Device.canonical_setReg
    | with_reducible apply Device.canonical_ite
    | intro _
    | split
    | dsimp only

theorem canonical_closeEpoch (causes : ℕ) (g : ℕ) {s : Device} (hs : s.Canonical sz) :
    (closeEpoch causes g s).Canonical sz := by
  unfold closeEpoch
  repeat' first
    | with_reducible assumption
    | with_reducible apply Device.canonical_modConv
    | with_reducible apply Device.canonical_cset
    | with_reducible apply Device.canonical_modCh
    | with_reducible apply Device.canonical_ite
    | intro _
    | split
    | dsimp only

theorem canonical_takeConsts (k : Const × Const × Const) (g : ℕ) {s : Device} (hs : s.Canonical sz) :
    (takeConsts k g s).Canonical sz := by
  unfold takeConsts
  repeat' first
    | with_reducible assumption
    | with_reducible apply Device.canonical_modConv
    | with_reducible apply Device.canonical_cset
    | with_reducible apply Device.canonical_ite
    | intro _
    | split
    | dsimp only

theorem canonical_updateConsts (causes : ℕ) (always : Bool) (g : ℕ) {s : Device} (hs : s.Canonical sz) :
    (updateConsts causes always g s).Canonical sz := by
  unfold updateConsts
  repeat' first
    | with_reducible assumption
    | with_reducible apply canonical_closeEpoch
    | with_reducible apply canonical_takeConsts
    | with_reducible apply Device.canonical_ite
    | intro _
    | split
    | dsimp only

theorem canonical_tcrWritten (g : ℕ) {s : Device} (hs : s.Canonical sz) :
    (tcrWritten g s).Canonical sz := by
  unfold tcrWritten
  repeat' first
    | with_reducible assumption
    | with_reducible apply Device.canonical_modDue
    | with_reducible apply Device.canonical_cforce
    | with_reducible apply canonical_updateConsts
    | with_reducible apply Device.canonical_modConv
    | with_reducible apply Device.canonical_ite
    | intro _
    | split
    | dsimp only

theorem canonical_tcrUpdateCh (g : ℕ) {s : Device} (hs : s.Canonical sz) :
    (tcrUpdateCh g s).Canonical sz := by
  unfold tcrUpdateCh
  repeat' first
    | with_reducible assumption
    | with_reducible apply canonical_updateConsts
    | with_reducible apply Device.canonical_modConv
    | with_reducible apply Device.canonical_ite
    | intro _
    | split
    | dsimp only

theorem canonical_tcrUpdate {s : Device} (hs : s.Canonical sz) :
    (tcrUpdate s).Canonical sz := by
  unfold tcrUpdate
  repeat' first
    | with_reducible assumption
    | with_reducible apply canonical_tcrUpdateCh
    | with_reducible apply Device.canonical_ite
    | with_reducible apply Device.canonical_each
    | intro _
    | split
    | dsimp only

theorem canonical_resetLive (base : List Sys2Proof.Word) (g : ℕ) {s : Device} (hs : s.Canonical sz) :
    (resetLive base g s).Canonical sz := by
  unfold resetLive
  repeat' first
    | with_reducible assumption
    | with_reducible apply Device.canonical_modConv
    | with_reducible apply Device.canonical_setReg
    | intro _
    | split
    | dsimp only

theorem canonical_baseReset (g : ℕ) {s : Device} (hs : s.Canonical sz) :
    (baseReset g s).Canonical sz := by
  unfold baseReset
  repeat' first
    | with_reducible assumption
    | with_reducible apply canonical_resetLive
    | with_reducible apply Device.canonical_ite
    | intro _
    | split
    | dsimp only

theorem canonical_accClear (g : ℕ) (data : Sys2Proof.Word) {s : Device} (hs : s.Canonical sz) :
    (accClear g data s).Canonical sz := by
  unfold accClear
  repeat' first
    | with_reducible assumption
    | with_reducible apply Device.canonical_modDue
    | with_reducible apply Device.canonical_ite
    | intro _
    | split
    | dsimp only

theorem canonical_constAct (cause : ℕ) (f : ℕ → Device → Device) (g : ℕ) {s : Device} (c : ℕ) (hf : ∀ y0 y1, y1.Canonical sz → (f y0 y1).Canonical sz) (hs : s.Canonical sz) :
    (constAct cause f g s c).1.Canonical sz := by
  unfold constAct
  repeat' first
    | with_reducible assumption
    | with_reducible apply hf
    | with_reducible apply Device.canonical_ite
    | intro _
    | split
    | dsimp only

theorem canonical_showDrift (g : ℕ) {s : Device} (hs : s.Canonical sz) :
    (showDrift g s).Canonical sz := by
  unfold showDrift
  repeat' first
    | with_reducible assumption
    | with_reducible apply Device.canonical_dset
    | with_reducible apply Device.canonical_ite
    | intro _
    | split
    | dsimp only

theorem canonical_constClose (g : ℕ) {s : Device} (c : ℕ) (hs : s.Canonical sz) :
    (constClose g s c).Canonical sz := by
  unfold constClose
  repeat' first
    | with_reducible assumption
    | with_reducible apply canonical_closeEpoch
    | with_reducible apply canonical_takeConsts
    | with_reducible apply Device.canonical_ite
    | intro _
    | split
    | dsimp only

theorem canonical_calNote (off : ℕ) (w : Sys2Proof.Word) (g : ℕ) {s : Device} (hs : s.Canonical sz) :
    (calNote off w g s).Canonical sz := by
  unfold calNote
  repeat' first
    | with_reducible assumption
    | with_reducible apply Device.canonical_modDue
    | with_reducible apply Device.canonical_ite
    | intro _
    | split
    | dsimp only

theorem canonical_boardWrite (off : ℕ) (w : Sys2Proof.Word) (g : ℕ) {s : Device} (hs : s.Canonical sz) :
    (boardWrite off w g s).Canonical sz := by
  unfold boardWrite
  repeat' first
    | with_reducible assumption
    | with_reducible apply canonical_calNote
    | with_reducible apply Device.canonical_setReg
    | intro _
    | split
    | dsimp only

theorem canonical_offsetWrite (g : ℕ) (volt : Bool) (data : Sys2Proof.Word) {s : Device} (hs : s.Canonical sz) :
    (offsetWrite g volt data s).Canonical sz := by
  unfold offsetWrite
  repeat' first
    | with_reducible assumption
    | with_reducible apply canonical_boardWrite
    | with_reducible apply Device.canonical_ite
    | intro _
    | split
    | dsimp only

theorem canonical_clearNow (g : ℕ) {s : Device} (hs : s.Canonical sz) :
    (clearNow g s).Canonical sz := by
  unfold clearNow
  repeat' first
    | with_reducible assumption
    | with_reducible apply canonical_closeEpoch
    | with_reducible apply Device.canonical_cset
    | with_reducible apply Device.canonical_modCh
    | with_reducible apply canonical_logEvent
    | with_reducible apply Device.canonical_ite
    | intro _
    | split
    | dsimp only

theorem canonical_clearDir (g : ℕ) {s : Device} (hs : s.Canonical sz) :
    (clearDir g s).Canonical sz := by
  unfold clearDir
  repeat' first
    | with_reducible assumption
    | with_reducible apply Device.canonical_modAcc
    | intro _
    | split
    | dsimp only

theorem canonical_clearBoundary (g : ℕ) {s : Device} (hs : s.Canonical sz) :
    (clearBoundary g s).Canonical sz := by
  unfold clearBoundary
  repeat' first
    | with_reducible assumption
    | with_reducible apply canonical_clearNow
    | with_reducible apply Device.canonical_cforce
    | with_reducible apply canonical_clearDir
    | with_reducible apply Device.canonical_ite
    | intro _
    | split
    | dsimp only

theorem canonical_baselineWrite (g : ℕ) (r : Sys2Proof.BaseReg) (data : Sys2Proof.Word) {s : Device} (hs : s.Canonical sz) :
    (baselineWrite g r data s).Canonical sz := by
  unfold baselineWrite
  repeat' first
    | with_reducible assumption
    | with_reducible apply canonical_boardWrite
    | intro _
    | split
    | dsimp only

theorem canonical_forceConsts (g : ℕ) {s : Device} (hs : s.Canonical sz) :
    (forceConsts g s).Canonical sz := by
  unfold forceConsts
  repeat' first
    | with_reducible assumption
    | with_reducible apply Device.canonical_cforce
    | with_reducible apply Device.canonical_each
    | intro _
    | split
    | dsimp only

theorem canonical_startConsts (g : ℕ) {s : Device} (hs : s.Canonical sz) :
    (startConsts g s).Canonical sz := by
  unfold startConsts
  repeat' first
    | with_reducible assumption
    | with_reducible apply canonical_forceConsts
    | with_reducible apply Device.canonical_cforce
    | with_reducible apply canonical_baseReset
    | intro _
    | split
    | dsimp only

theorem canonical_rangeConsts (low : Bool) (g : ℕ) {s : Device} (hs : s.Canonical sz) :
    (rangeConsts low g s).Canonical sz := by
  unfold rangeConsts
  repeat' first
    | with_reducible assumption
    | with_reducible apply canonical_updateConsts
    | with_reducible apply canonical_showDrift
    | with_reducible apply canonical_clearDir
    | with_reducible apply Device.canonical_cset
    | with_reducible apply Device.canonical_ite
    | intro _
    | split
    | dsimp only

theorem canonical_bookFrame (g : ℕ) {s : Device} (hs : s.Canonical sz) :
    (bookFrame g s).Canonical sz := by
  unfold bookFrame
  repeat' first
    | with_reducible assumption
    | with_reducible apply Device.canonical_modCh
    | with_reducible apply Device.canonical_nextFree
    | with_reducible apply Device.canonical_setReg
    | with_reducible apply Device.canonical_cset
    | with_reducible apply Device.canonical_ite
    | intro _
    | split
    | dsimp only

theorem canonical_bookPartial (d : ℕ) {s : Device} (hs : s.Canonical sz) :
    (bookPartial d s).Canonical sz := by
  unfold bookPartial
  repeat' first
    | with_reducible assumption
    | with_reducible apply Device.canonical_modAcc
    | with_reducible apply Device.canonical_nextFree
    | with_reducible apply Device.canonical_cset
    | with_reducible apply Device.canonical_modDie
    | with_reducible apply Device.canonical_ite
    | with_reducible apply Device.canonical_each
    | intro _
    | split
    | dsimp only

theorem canonical_constantWrite (g : ℕ) (r : Sys2Proof.KReg) (data : Sys2Proof.Word) {s : Device} (hs : s.Canonical sz) :
    (constantWrite g r data s).Canonical sz := by
  unfold constantWrite
  repeat' first
    | with_reducible assumption
    | with_reducible apply Device.canonical_setReg
    | with_reducible apply canonical_boardWrite
    | with_reducible apply Device.canonical_cset
    | with_reducible apply Device.canonical_ite
    | intro _
    | split
    | dsimp only

theorem canonical_tcrCfgWrite (g : ℕ) (data : Sys2Proof.Word) {s : Device} (hs : s.Canonical sz) :
    (tcrCfgWrite g data s).Canonical sz := by
  unfold tcrCfgWrite
  repeat' first
    | with_reducible assumption
    | with_reducible apply Device.canonical_modDue
    | with_reducible apply Device.canonical_setReg
    | intro _
    | split
    | dsimp only

/-! Flags. -/

theorem canonical_setOverload (volt : Bool) (g : ℕ) {s : Device} (hs : s.Canonical sz) :
    (setOverload volt g s).Canonical sz := by
  unfold setOverload
  repeat' first
    | with_reducible assumption
    | with_reducible apply Device.canonical_cset
    | with_reducible apply canonical_logEvent
    | with_reducible apply Device.canonical_ite
    | intro _
    | split
    | dsimp only

theorem canonical_takeFirst (code : ℕ) (g : ℕ) (was : ℕ) {s : Device} (hs : s.Canonical sz) :
    (takeFirst code g was s).Canonical sz := by
  unfold takeFirst
  repeat' first
    | with_reducible assumption
    | with_reducible apply Device.canonical_modLp
    | with_reducible apply Device.canonical_cset
    | with_reducible apply Device.canonical_ite
    | intro _
    | split
    | dsimp only

theorem canonical_clearChFault (mask : ℕ) (g : ℕ) {s : Device} (hs : s.Canonical sz) :
    (clearChFault mask g s).Canonical sz := by
  unfold clearChFault
  repeat' first
    | with_reducible assumption
    | with_reducible apply Device.canonical_setReg
    | with_reducible apply Device.canonical_cset
    | with_reducible apply Device.canonical_ite
    | intro _
    | split
    | dsimp only

theorem canonical_idleFlags (g : ℕ) {s : Device} (hs : s.Canonical sz) :
    (idleFlags g s).Canonical sz := by
  unfold idleFlags
  repeat' first
    | with_reducible assumption
    | with_reducible apply Device.canonical_cset
    | with_reducible apply Device.canonical_setReg
    | intro _
    | split
    | dsimp only

theorem canonical_setChFault (bit : ℕ) (g : ℕ) {s : Device} (hs : s.Canonical sz) :
    (setChFault bit g s).Canonical sz := by
  unfold setChFault
  repeat' first
    | with_reducible assumption
    | with_reducible apply Device.canonical_setReg
    | with_reducible apply canonical_takeFirst
    | with_reducible apply canonical_logEvent
    | with_reducible apply Device.canonical_ite
    | intro _
    | split
    | dsimp only

/-! Operands. -/



/-! Sense. -/

theorem canonical_benchFast (d : ℕ) {s : Device} (hs : s.Canonical sz) :
    (benchFast d s).2.Canonical sz := by
  unfold benchFast
  repeat' first
    | with_reducible assumption
    | with_reducible apply Device.canonical_modBench
    | intro _
    | split
    | dsimp only

theorem canonical_writeRange (low : Bool) (g : ℕ) {s : Device} (hs : s.Canonical sz) :
    (writeRange low g s).Canonical sz := by
  unfold writeRange
  repeat' first
    | with_reducible assumption
    | with_reducible apply Device.canonical_modDue
    | with_reducible apply Device.canonical_cset
    | with_reducible apply Device.canonical_ite
    | intro _
    | split
    | dsimp only

theorem canonical_fastChannel (bq : ℤ × ℤ) (g : ℕ) {s : Device} (hs : s.Canonical sz) :
    (fastChannel bq g s).Canonical sz := by
  unfold fastChannel
  repeat' first
    | with_reducible assumption
    | with_reducible apply Device.canonical_spend
    | with_reducible apply Device.canonical_modCh
    | with_reducible apply Device.canonical_setReg
    | with_reducible apply Device.canonical_ite
    | intro _
    | split
    | dsimp only

theorem canonical_precChannel (bq : ℤ × ℤ) (g : ℕ) {s : Device} (hs : s.Canonical sz) :
    (precChannel bq g s).Canonical sz := by
  unfold precChannel
  repeat' first
    | with_reducible assumption
    | with_reducible apply Device.canonical_modCh
    | with_reducible apply Device.canonical_setReg
    | with_reducible apply Device.canonical_ite
    | with_reducible apply Device.canonical_mk
    | with_reducible apply Device.ring_set
    | with_reducible apply rfWf_set
    | with_reducible apply Device.Canonical.regs
    | with_reducible apply Device.Canonical.shadow
    | with_reducible apply Device.Canonical.force
    | with_reducible apply Device.Canonical.flash
    | with_reducible apply Device.Canonical.buf
    | with_reducible apply Device.Canonical.size
    | with_reducible apply Device.Canonical.chans
    | with_reducible apply Device.Canonical.dies
    | with_reducible apply Device.Canonical.ring
    | with_reducible apply Device.Canonical.posting
    | intro _
    | split
    | dsimp only

theorem canonical_benchPrec (d : ℕ) {s : Device} (hs : s.Canonical sz) :
    (benchPrec d s).2.Canonical sz := by
  unfold benchPrec
  repeat' first
    | with_reducible assumption
    | with_reducible apply Device.canonical_modBench
    | intro _
    | split
    | dsimp only

theorem canonical_precDie (d : ℕ) {s : Device} (hs : s.Canonical sz) :
    (precDie d s).Canonical sz := by
  unfold precDie
  repeat' first
    | with_reducible assumption
    | with_reducible apply canonical_precChannel
    | (refine Device.canonical_snd (by with_reducible assumption) ?_; with_reducible apply canonical_benchPrec)
    | with_reducible apply canonical_benchPrec
    | with_reducible apply Device.canonical_ite
    | with_reducible apply Device.canonical_each
    | intro _
    | split
    | dsimp only

/-! Bench. -/

theorem canonical_setPhase (p : ℕ) (d : ℕ) {s : Device} (hs : s.Canonical sz) :
    (setPhase p d s).Canonical sz := by
  unfold setPhase
  repeat' first
    | with_reducible assumption
    | with_reducible apply Device.canonical_dset
    | intro _
    | split
    | dsimp only

theorem canonical_benchBaton (on : Bool) (d : ℕ) {s : Device} (hs : s.Canonical sz) :
    (benchBaton on d s).Canonical sz := by
  unfold benchBaton
  repeat' first
    | with_reducible assumption
    | with_reducible apply Device.canonical_psetBit
    | intro _
    | split
    | dsimp only

theorem canonical_endVisit (d : ℕ) {s : Device} (hs : s.Canonical sz) :
    (endVisit d s).Canonical sz := by
  unfold endVisit
  repeat' first
    | with_reducible assumption
    | with_reducible apply Device.canonical_dset
    | with_reducible apply canonical_setPhase
    | with_reducible apply canonical_benchBaton
    | with_reducible apply Device.canonical_modBench
    | intro _
    | split
    | dsimp only

theorem canonical_selfcalEnd (d : ℕ) (res : Sys2Proof.PairCal) {s : Device} (hs : s.Canonical sz) :
    (selfcalEnd d res s).Canonical sz := by
  unfold selfcalEnd
  repeat' first
    | with_reducible assumption
    | with_reducible apply canonical_endVisit
    | with_reducible apply Device.canonical_dset
    | with_reducible apply canonical_logEvent
    | with_reducible apply Device.canonical_modBench
    | with_reducible apply Device.canonical_nextFree
    | with_reducible apply Device.canonical_setReg
    | with_reducible apply canonical_setPhase
    | with_reducible apply Device.canonical_ite
    | intro _
    | split
    | dsimp only

theorem canonical_visitStart (d : ℕ) {s : Device} (hs : s.Canonical sz) :
    (visitStart d s).Canonical sz := by
  unfold visitStart
  repeat' first
    | with_reducible assumption
    | with_reducible apply Device.canonical_dforce
    | with_reducible apply Device.canonical_modBench
    | with_reducible apply canonical_benchBaton
    | with_reducible apply Device.canonical_dset
    | with_reducible apply canonical_setPhase
    | with_reducible apply Device.canonical_ite
    | intro _
    | split
    | dsimp only

theorem canonical_takeover (d : ℕ) {s : Device} (hs : s.Canonical sz) :
    (takeover d s).Canonical sz := by
  unfold takeover
  repeat' first
    | with_reducible assumption
    | with_reducible apply Device.canonical_dset
    | with_reducible apply Device.canonical_modBench
    | with_reducible apply Device.canonical_modConv
    | with_reducible apply canonical_updateConsts
    | with_reducible apply Device.canonical_cset
    | with_reducible apply canonical_setPhase
    | with_reducible apply Device.canonical_ite
    | intro _
    | split
    | dsimp only

theorem canonical_dsetBit (d : ℕ) (f : Fld Blk.die) (c : ℕ) (on : Bool) {s : Device} (hs : s.Canonical sz) :
    (dsetBit d f c on s).Canonical sz := by
  unfold dsetBit
  repeat' first
    | with_reducible assumption
    | with_reducible apply Device.canonical_dset
    | with_reducible apply Device.canonical_ite
    | intro _
    | split
    | dsimp only

theorem canonical_benchQueue (d : ℕ) (c : ℕ) {s : Device} (hs : s.Canonical sz) :
    (benchQueue d c s).Canonical sz := by
  unfold benchQueue
  repeat' first
    | with_reducible assumption
    | with_reducible apply Device.canonical_modBench
    | intro _
    | split
    | dsimp only

theorem canonical_lastOfs (g : ℕ) {s : Device} (hs : s.Canonical sz) :
    (lastOfs g s).Canonical sz := by
  unfold lastOfs
  repeat' first
    | with_reducible assumption
    | with_reducible apply Device.canonical_dset
    | with_reducible apply Device.canonical_ite
    | intro _
    | split
    | dsimp only

theorem canonical_releaseCarrier (g : ℕ) {s : Device} (hs : s.Canonical sz) :
    (releaseCarrier g s).Canonical sz := by
  unfold releaseCarrier
  repeat' first
    | with_reducible assumption
    | with_reducible apply Device.canonical_modConv
    | with_reducible apply canonical_updateConsts
    | with_reducible apply Device.canonical_cset
    | intro _
    | split
    | dsimp only

theorem canonical_benchBoundary (d : ℕ) {s : Device} (hs : s.Canonical sz) :
    (benchBoundary d s).Canonical sz := by
  unfold benchBoundary
  repeat' first
    | with_reducible assumption
    | with_reducible apply canonical_setPhase
    | with_reducible apply Device.canonical_modBench
    | with_reducible apply canonical_releaseCarrier
    | with_reducible apply canonical_endVisit
    | with_reducible apply Device.canonical_ite
    | intro _
    | split
    | dsimp only

theorem canonical_applyDrift (k : ℕ) (x : Drift) (g : ℕ) {s : Device} (hs : s.Canonical sz) :
    (applyDrift k x g s).Canonical sz := by
  unfold applyDrift
  repeat' first
    | with_reducible assumption
    | with_reducible apply Device.canonical_modConv
    | intro _
    | split
    | dsimp only

theorem canonical_benchMismatch (volt : Bool) (g : ℕ) (dd : ℤ) {s : Device} (hs : s.Canonical sz) :
    (benchMismatch volt g dd s).Canonical sz := by
  unfold benchMismatch
  repeat' first
    | with_reducible assumption
    | with_reducible apply canonical_dsetBit
    | with_reducible apply Device.canonical_dset
    | with_reducible apply canonical_logEvent
    | with_reducible apply Device.canonical_ite
    | intro _
    | split
    | dsimp only

theorem canonical_handback (d : ℕ) (res : Sys2Proof.PairCal) {s : Device} (hs : s.Canonical sz) :
    (handback d res s).Canonical sz := by
  unfold handback
  repeat' first
    | with_reducible assumption
    | with_reducible apply canonical_applyDrift
    | with_reducible apply canonical_benchMismatch
    | with_reducible apply canonical_dsetBit
    | with_reducible apply canonical_lastOfs
    | with_reducible apply canonical_showDrift
    | with_reducible apply Device.canonical_dset
    | with_reducible apply Device.canonical_modConv
    | with_reducible apply Device.canonical_modBench
    | with_reducible apply canonical_endVisit
    | with_reducible apply canonical_releaseCarrier
    | with_reducible apply Device.canonical_ite
    | intro _
    | split
    | dsimp only

theorem canonical_benchHold (q : ℤ) (d : ℕ) {s : Device} (hs : s.Canonical sz) :
    (benchHold q d s).Canonical sz := by
  unfold benchHold
  repeat' first
    | with_reducible assumption
    | with_reducible apply Device.canonical_modBench
    | with_reducible apply Device.canonical_ite
    | intro _
    | split
    | dsimp only

theorem canonical_benchAbort (d : ℕ) {s : Device} (hs : s.Canonical sz) :
    (benchAbort d s).Canonical sz := by
  unfold benchAbort
  repeat' first
    | with_reducible assumption
    | with_reducible apply Device.canonical_dset
    | with_reducible apply canonical_setPhase
    | with_reducible apply Device.canonical_modBench
    | with_reducible apply Device.canonical_ite
    | intro _
    | split
    | dsimp only

theorem canonical_benchBatonExpiry (d : ℕ) {s : Device} (hs : s.Canonical sz) :
    (benchBatonExpiry d s).Canonical sz := by
  unfold benchBatonExpiry
  repeat' first
    | with_reducible assumption
    | with_reducible apply canonical_logEvent
    | with_reducible apply Device.canonical_pset
    | with_reducible apply canonical_benchBaton
    | with_reducible apply canonical_benchAbort
    | with_reducible apply Device.canonical_ite
    | intro _
    | split
    | dsimp only

theorem canonical_benchForce (d : ℕ) (c : ℕ) {s : Device} (hs : s.Canonical sz) :
    (benchForce d c s).Canonical sz := by
  unfold benchForce
  repeat' first
    | with_reducible assumption
    | with_reducible apply canonical_benchAbort
    | with_reducible apply Device.canonical_modBench
    | intro _
    | split
    | dsimp only

theorem canonical_benchConnect (d : ℕ) {s : Device} (hs : s.Canonical sz) :
    (benchConnect d s).Canonical sz := by
  unfold benchConnect
  repeat' first
    | with_reducible assumption
    | with_reducible apply canonical_setPhase
    | with_reducible apply Device.canonical_ite
    | intro _
    | split
    | dsimp only

theorem canonical_seedingEnd (d : ℕ) (seeds : List Sys2Proof.PairCal) {s : Device} (hs : s.Canonical sz) :
    (seedingEnd d seeds s).Canonical sz := by
  unfold seedingEnd
  repeat' first
    | with_reducible assumption
    | with_reducible apply Device.canonical_modDie
    | with_reducible apply Device.canonical_modDue
    | with_reducible apply Device.canonical_ite
    | with_reducible apply Device.canonical_each
    | intro _
    | split
    | dsimp only

theorem canonical_benchRange (g : ℕ) {s : Device} (hs : s.Canonical sz) :
    (benchRange g s).Canonical sz := by
  unfold benchRange
  repeat' first
    | with_reducible assumption
    | with_reducible apply Device.canonical_modBench
    | with_reducible apply Device.canonical_modConv
    | with_reducible apply Device.canonical_ite
    | intro _
    | split
    | dsimp only

/-! StepBase. -/

theorem canonical_bandFresh (g : ℕ) {s : Device} (hs : s.Canonical sz) :
    (bandFresh g s).Canonical sz := by
  unfold bandFresh
  repeat' first
    | with_reducible assumption
    | with_reducible apply Device.canonical_modEng
    | with_reducible apply Device.canonical_cset
    | with_reducible apply Device.canonical_ite
    | intro _
    | split
    | dsimp only

theorem canonical_traceWrite (typ : ℕ) (g : ℕ) (body : List Sys2Proof.Byte) {s : Device} (hs : s.Canonical sz) :
    (traceWrite typ g body s).Canonical sz := by
  unfold traceWrite
  repeat' first
    | with_reducible assumption
    | with_reducible apply Device.canonical_modDie
    | with_reducible apply Device.canonical_dset
    | with_reducible apply Device.canonical_dinc
    | with_reducible apply Device.canonical_ite
    | intro _
    | split
    | dsimp only

theorem canonical_setEng (e : ℕ) (g : ℕ) {s : Device} (hs : s.Canonical sz) :
    (setEng e g s).Canonical sz := by
  unfold setEng
  repeat' first
    | with_reducible assumption
    | with_reducible apply Device.canonical_cset
    | intro _
    | split
    | dsimp only

theorem canonical_bandBoundary (g : ℕ) {s : Device} (hs : s.Canonical sz) :
    (bandBoundary g s).Canonical sz := by
  unfold bandBoundary
  repeat' first
    | with_reducible assumption
    | with_reducible apply Device.canonical_cset
    | with_reducible apply Device.canonical_nextFree
    | with_reducible apply Device.canonical_modEng
    | with_reducible apply canonical_bandFresh
    | with_reducible apply Device.canonical_ite
    | intro _
    | split
    | dsimp only

theorem canonical_ckptRequest (cause : ℕ) {s : Device} (hs : s.Canonical sz) :
    (ckptRequest cause s).Canonical sz := by
  unfold ckptRequest
  repeat' first
    | with_reducible assumption
    | with_reducible apply Device.canonical_pset
    | with_reducible apply Device.canonical_ite
    | with_reducible refine Device.canonical_modNvm ?_ (fun _ h => h) (fun _ h => h)
    | intro _
    | split
    | dsimp only

theorem canonical_traceEvent (ev : ℕ) (cause : ℕ) (data : ℕ) (g : ℕ) {s : Device} (hs : s.Canonical sz) :
    (traceEvent ev cause data g s).Canonical sz := by
  unfold traceEvent
  repeat' first
    | with_reducible assumption
    | with_reducible apply canonical_traceWrite
    | intro _
    | split
    | dsimp only

/-! AcirEngine. -/

theorem canonical_dropHeld (g : ℕ) {s : Device} (hs : s.Canonical sz) :
    (dropHeld g s).Canonical sz := by
  unfold dropHeld
  repeat' first
    | with_reducible assumption
    | with_reducible apply Device.canonical_cset
    | with_reducible apply Device.canonical_modAcir
    | intro _
    | split
    | dsimp only

theorem canonical_acirBook (g : ℕ) (a : Acir) (kq : Const) (kv : Const) {s : Device} (hs : s.Canonical sz) :
    (acirBook g a kq kv s).Canonical sz := by
  unfold acirBook
  repeat' first
    | with_reducible assumption
    | with_reducible apply Device.canonical_modAcir
    | with_reducible apply Device.canonical_ite
    | intro _
    | split
    | dsimp only

theorem canonical_acirClrWrite (g : ℕ) (data : Sys2Proof.Word) {s : Device} (hs : s.Canonical sz) :
    (acirClrWrite g data s).Canonical sz := by
  unfold acirClrWrite
  repeat' first
    | with_reducible assumption
    | with_reducible apply Device.canonical_modDue
    | with_reducible apply Device.canonical_ite
    | intro _
    | split
    | dsimp only

theorem canonical_acirIdle (g : ℕ) {s : Device} (hs : s.Canonical sz) :
    (acirIdle g s).Canonical sz := by
  unfold acirIdle
  repeat' first
    | with_reducible assumption
    | with_reducible apply Device.canonical_cset
    | with_reducible apply Device.canonical_modAcir
    | intro _
    | split
    | dsimp only

theorem canonical_acirRecord (code : ℕ) (g : ℕ) {s : Device} (hs : s.Canonical sz) :
    (acirRecord code g s).Canonical sz := by
  unfold acirRecord
  repeat' first
    | with_reducible assumption
    | with_reducible apply canonical_traceWrite
    | intro _
    | split
    | dsimp only

theorem canonical_acirStepFails (code : ℕ) (g : ℕ) {s : Device} (hs : s.Canonical sz) :
    (acirStepFails code g s).Canonical sz := by
  unfold acirStepFails
  repeat' first
    | with_reducible assumption
    | with_reducible apply Device.canonical_modEng
    | with_reducible apply canonical_acirRecord
    | intro _
    | split
    | dsimp only

theorem canonical_acirStepAborted (code : ℕ) (g : ℕ) {s : Device} (hs : s.Canonical sz) :
    (acirStepAborted code g s).Canonical sz := by
  unfold acirStepAborted
  repeat' first
    | with_reducible assumption
    | with_reducible apply Device.canonical_modEng
    | with_reducible apply canonical_acirStepFails
    | with_reducible apply Device.canonical_ite
    | intro _
    | split
    | dsimp only

theorem canonical_acirAbort (code : ℕ) (g : ℕ) {s : Device} (hs : s.Canonical sz) :
    (acirAbort code g s).Canonical sz := by
  unfold acirAbort
  repeat' first
    | with_reducible assumption
    | with_reducible apply Device.canonical_cset
    | with_reducible apply Device.canonical_modAcir
    | with_reducible apply canonical_acirIdle
    | with_reducible apply canonical_acirStepAborted
    | with_reducible apply Device.canonical_ite
    | intro _
    | split
    | dsimp only

theorem canonical_acirStepEnd (g : ℕ) {s : Device} (hs : s.Canonical sz) :
    (acirStepEnd g s).Canonical sz := by
  unfold acirStepEnd
  repeat' first
    | with_reducible assumption
    | with_reducible apply canonical_acirAbort
    | with_reducible apply Device.canonical_modAcir
    | with_reducible apply Device.canonical_cset
    | with_reducible apply Device.canonical_ite
    | intro _
    | split
    | dsimp only

theorem canonical_acirBegin (p : AcirPar) (pt : ℕ) (g : ℕ) {s : Device} (hs : s.Canonical sz) :
    (acirBegin p pt g s).Canonical sz := by
  unfold acirBegin
  repeat' first
    | with_reducible assumption
    | with_reducible apply Device.canonical_cset
    | with_reducible apply Device.canonical_modAcir
    | intro _
    | split
    | dsimp only

theorem canonical_acirMove (pt : ℕ) (g : ℕ) {s : Device} (hs : s.Canonical sz) :
    (acirMove pt g s).Canonical sz := by
  unfold acirMove
  repeat' first
    | with_reducible assumption
    | with_reducible apply Device.canonical_modAcir
    | intro _
    | split
    | dsimp only

theorem canonical_acirRefuse (code : ℕ) (p : AcirPar) (g : ℕ) {s : Device} (hs : s.Canonical sz) :
    (acirRefuse code p g s).Canonical sz := by
  unfold acirRefuse
  repeat' first
    | with_reducible assumption
    | with_reducible apply Device.canonical_cset
    | with_reducible apply canonical_acirStepFails
    | with_reducible apply Device.canonical_ite
    | intro _
    | split
    | dsimp only

theorem canonical_acirLeadin (g : ℕ) {s : Device} (hs : s.Canonical sz) :
    (acirLeadin g s).Canonical sz := by
  unfold acirLeadin
  repeat' first
    | with_reducible assumption
    | with_reducible apply canonical_acirBegin
    | with_reducible apply canonical_dropHeld
    | with_reducible apply canonical_acirMove
    | with_reducible apply canonical_acirRefuse
    | with_reducible apply canonical_acirIdle
    | with_reducible apply Device.canonical_ite
    | intro _
    | split
    | dsimp only

theorem canonical_acirRequest (p : AcirPar) (g : ℕ) {s : Device} (hs : s.Canonical sz) :
    (acirRequest p g s).Canonical sz := by
  unfold acirRequest
  repeat' first
    | with_reducible assumption
    | with_reducible apply canonical_acirRefuse
    | with_reducible apply Device.canonical_cset
    | with_reducible apply Device.canonical_modAcir
    | with_reducible apply canonical_benchAbort
    | with_reducible apply Device.canonical_ite
    | intro _
    | split
    | dsimp only

theorem canonical_acirCtlWrite (g : ℕ) (data : Sys2Proof.Word) {s : Device} (hs : s.Canonical sz) :
    (acirCtlWrite g data s).Canonical sz := by
  unfold acirCtlWrite
  repeat' first
    | with_reducible assumption
    | with_reducible apply Device.canonical_setReg
    | with_reducible apply canonical_acirRequest
    | with_reducible apply canonical_acirAbort
    | with_reducible apply Device.canonical_ite
    | intro _
    | split
    | dsimp only

theorem canonical_acirClip (g : ℕ) {s : Device} (hs : s.Canonical sz) :
    (acirClip g s).Canonical sz := by
  unfold acirClip
  repeat' first
    | with_reducible assumption
    | with_reducible apply Device.canonical_modAcir
    | with_reducible apply Device.canonical_ite
    | intro _
    | split
    | dsimp only

theorem canonical_acirStopped (g : ℕ) {s : Device} (hs : s.Canonical sz) :
    (acirStopped g s).Canonical sz := by
  unfold acirStopped
  repeat' first
    | with_reducible assumption
    | with_reducible apply canonical_acirAbort
    | with_reducible apply canonical_acirIdle
    | with_reducible apply Device.canonical_ite
    | intro _
    | split
    | dsimp only

theorem canonical_acirPublish (g : ℕ) {s : Device} (hs : s.Canonical sz) :
    (acirPublish g s).Canonical sz := by
  unfold acirPublish
  repeat' first
    | with_reducible assumption
    | with_reducible apply Device.canonical_setReg
    | with_reducible apply Device.canonical_each
    | intro _
    | split
    | dsimp only

theorem canonical_acirStat (g : ℕ) (a : Acir) (low : Bool) {s : Device} (hs : s.Canonical sz) :
    (acirStat g a low s).Canonical sz := by
  unfold acirStat
  repeat' first
    | with_reducible assumption
    | with_reducible apply Device.canonical_cset
    | with_reducible apply Device.canonical_ite
    | intro _
    | split
    | dsimp only

theorem canonical_acirPhaseOut (g : ℕ) (p : AcirProd) {s : Device} (hs : s.Canonical sz) :
    (acirPhaseOut g p s).Canonical sz := by
  unfold acirPhaseOut
  repeat' first
    | with_reducible assumption
    | with_reducible apply Device.canonical_cset
    | intro _
    | split
    | dsimp only

theorem canonical_acirFinish (g : ℕ) {s : Device} (hs : s.Canonical sz) :
    (acirFinish g s).Canonical sz := by
  unfold acirFinish
  repeat' first
    | with_reducible assumption
    | with_reducible apply Device.canonical_modAcir
    | with_reducible apply Device.canonical_setReg
    | with_reducible apply canonical_acirPublish
    | with_reducible apply canonical_acirBook
    | with_reducible apply canonical_acirStat
    | with_reducible apply canonical_acirPhaseOut
    | with_reducible apply Device.canonical_spend
    | with_reducible apply Device.canonical_foldl
    | intro _
    | split
    | dsimp only

theorem canonical_acirRequestAtClose (g : ℕ) {s : Device} (hs : s.Canonical sz) :
    (acirRequestAtClose g s).Canonical sz := by
  unfold acirRequestAtClose
  repeat' first
    | with_reducible assumption
    | with_reducible apply canonical_acirRequest
    | with_reducible apply Device.canonical_ite
    | intro _
    | split
    | dsimp only

theorem canonical_acirStepClose (g : ℕ) {s : Device} (hs : s.Canonical sz) :
    (acirStepClose g s).Canonical sz := by
  unfold acirStepClose
  repeat' first
    | with_reducible assumption
    | with_reducible apply Device.canonical_modEng
    | with_reducible apply canonical_acirRecord
    | with_reducible apply Device.canonical_ite
    | intro _
    | split
    | dsimp only

theorem canonical_acirLeadOut (g : ℕ) {s : Device} (hs : s.Canonical sz) :
    (acirLeadOut g s).Canonical sz := by
  unfold acirLeadOut
  repeat' first
    | with_reducible assumption
    | with_reducible apply Device.canonical_cset
    | with_reducible apply Device.canonical_modAcir
    | intro _
    | split
    | dsimp only

theorem canonical_acirClose (g : ℕ) {s : Device} (hs : s.Canonical sz) :
    (acirClose g s).Canonical sz := by
  unfold acirClose
  repeat' first
    | with_reducible assumption
    | with_reducible apply canonical_acirFinish
    | with_reducible apply canonical_acirRequestAtClose
    | with_reducible apply canonical_acirStepClose
    | with_reducible apply canonical_acirLeadOut
    | with_reducible apply Device.canonical_modAcir
    | with_reducible apply canonical_acirBegin
    | with_reducible apply canonical_dropHeld
    | with_reducible apply canonical_acirMove
    | with_reducible apply Device.canonical_ite
    | intro _
    | split
    | dsimp only

theorem canonical_acirNextDue (g : ℕ) {s : Device} (hs : s.Canonical sz) :
    (acirNextDue g s).Canonical sz := by
  unfold acirNextDue
  repeat' first
    | with_reducible assumption
    | with_reducible apply Device.canonical_modEng
    | with_reducible apply canonical_acirRequest
    | with_reducible apply Device.canonical_ite
    | intro _
    | split
    | dsimp only

theorem canonical_acirEnvelopeZero (g : ℕ) {s : Device} (hs : s.Canonical sz) :
    (acirEnvelopeZero g s).Canonical sz := by
  unfold acirEnvelopeZero
  repeat' first
    | with_reducible assumption
    | with_reducible apply canonical_acirIdle
    | with_reducible apply canonical_dropHeld
    | with_reducible apply Device.canonical_modAcir
    | with_reducible apply Device.canonical_ite
    | intro _
    | split
    | dsimp only

theorem canonical_acirBoundary (g : ℕ) {s : Device} (hs : s.Canonical sz) :
    (acirBoundary g s).Canonical sz := by
  unfold acirBoundary
  repeat' first
    | with_reducible assumption
    | with_reducible apply canonical_acirPublish
    | with_reducible apply Device.canonical_modDue
    | with_reducible apply Device.canonical_modAcir
    | with_reducible apply Device.canonical_ite
    | intro _
    | split
    | dsimp only

theorem canonical_acirSample (g : ℕ) {s : Device} (hs : s.Canonical sz) :
    (acirSample g s).Canonical sz := by
  unfold acirSample
  repeat' first
    | with_reducible assumption
    | with_reducible apply Device.canonical_modAcir
    | with_reducible apply Device.canonical_ite
    | intro _
    | split
    | dsimp only

theorem canonical_acirClock (g : ℕ) {s : Device} (hs : s.Canonical sz) :
    (acirClock g s).Canonical sz := by
  unfold acirClock
  repeat' first
    | with_reducible assumption
    | with_reducible apply Device.canonical_modAcir
    | with_reducible apply Device.canonical_ite
    | intro _
    | split
    | dsimp only

theorem canonical_acirOpen (g : ℕ) {s : Device} (hs : s.Canonical sz) :
    (acirOpen g s).Canonical sz := by
  unfold acirOpen
  repeat' first
    | with_reducible assumption
    | with_reducible apply canonical_acirClock
    | with_reducible apply Device.canonical_cset
    | with_reducible apply Device.canonical_modAcir
    | with_reducible apply Device.canonical_ite
    | intro _
    | split
    | dsimp only

/-! Power. -/

theorem canonical_engRange (low : Bool) (g : ℕ) {s : Device} (hs : s.Canonical sz) :
    (engRange low g s).Canonical sz := by
  unfold engRange
  repeat' first
    | with_reducible assumption
    | with_reducible apply Device.canonical_modLp
    | with_reducible apply canonical_writeRange
    | with_reducible apply Device.canonical_ite
    | intro _
    | split
    | dsimp only

theorem canonical_contactBlank (g : ℕ) {s : Device} (hs : s.Canonical sz) :
    (contactBlank g s).Canonical sz := by
  unfold contactBlank
  repeat' first
    | with_reducible assumption
    | with_reducible apply Device.canonical_modLp
    | intro _
    | split
    | dsimp only

theorem canonical_setMode (m : ℕ) (g : ℕ) {s : Device} (hs : s.Canonical sz) :
    (setMode m g s).Canonical sz := by
  unfold setMode
  repeat' first
    | with_reducible assumption
    | with_reducible apply Device.canonical_modLp
    | with_reducible apply canonical_acirAbort
    | with_reducible apply Device.canonical_cset
    | with_reducible apply Device.canonical_ite
    | intro _
    | split
    | dsimp only

theorem canonical_engMode (m : ℕ) (g : ℕ) {s : Device} (hs : s.Canonical sz) :
    (engMode m g s).Canonical sz := by
  unfold engMode
  repeat' first
    | with_reducible assumption
    | with_reducible apply Device.canonical_modLp
    | with_reducible apply canonical_setMode
    | with_reducible apply Device.canonical_ite
    | intro _
    | split
    | dsimp only

theorem canonical_channelStart (g : ℕ) {s : Device} (hs : s.Canonical sz) :
    (channelStart g s).Canonical sz := by
  unfold channelStart
  repeat' first
    | with_reducible assumption
    | with_reducible apply Device.canonical_cforce
    | with_reducible apply Device.canonical_modLp
    | with_reducible apply Device.canonical_nextFree
    | with_reducible apply Device.canonical_cset
    | with_reducible apply Device.canonical_ite
    | intro _
    | split
    | dsimp only

theorem canonical_followMode (g : ℕ) {s : Device} (hs : s.Canonical sz) :
    (followMode g s).Canonical sz := by
  unfold followMode
  repeat' first
    | with_reducible assumption
    | with_reducible apply canonical_channelStart
    | with_reducible apply Device.canonical_modLp
    | with_reducible apply Device.canonical_ite
    | intro _
    | split
    | dsimp only

theorem canonical_engSetpoints (i : ℤ) (v : ℕ) (p : ℤ) (g : ℕ) {s : Device} (hs : s.Canonical sz) :
    (engSetpoints i v p g s).Canonical sz := by
  unfold engSetpoints
  repeat' first
    | with_reducible assumption
    | with_reducible apply Device.canonical_modLp
    | with_reducible apply Device.canonical_setReg
    | with_reducible apply Device.canonical_ite
    | intro _
    | split
    | dsimp only

theorem canonical_overrideChange (g : ℕ) (data : Sys2Proof.Word) {s : Device} (hs : s.Canonical sz) :
    (overrideChange g data s).Canonical sz := by
  unfold overrideChange
  repeat' first
    | with_reducible assumption
    | with_reducible apply Device.canonical_cset
    | with_reducible apply Device.canonical_modEng
    | with_reducible apply canonical_acirAbort
    | with_reducible apply canonical_followMode
    | with_reducible apply canonical_setMode
    | with_reducible apply canonical_engSetpoints
    | with_reducible apply canonical_writeRange
    | with_reducible apply Device.canonical_ite
    | intro _
    | split
    | dsimp only

theorem canonical_clampEngage (upper : Bool) (g : ℕ) {s : Device} (hs : s.Canonical sz) :
    (clampEngage upper g s).Canonical sz := by
  unfold clampEngage
  repeat' first
    | with_reducible assumption
    | with_reducible apply Device.canonical_cset
    | with_reducible apply Device.canonical_modLp
    | with_reducible apply Device.canonical_ite
    | intro _
    | split
    | dsimp only

theorem canonical_faultClear (g : ℕ) (data : Sys2Proof.Word) {s : Device} (hs : s.Canonical sz) :
    (faultClear g data s).Canonical sz := by
  unfold faultClear
  repeat' first
    | with_reducible assumption
    | with_reducible apply canonical_clearChFault
    | with_reducible apply Device.canonical_ite
    | intro _
    | split
    | dsimp only

theorem canonical_gatesOff (g : ℕ) {s : Device} (hs : s.Canonical sz) :
    (gatesOff g s).Canonical sz := by
  unfold gatesOff
  repeat' first
    | with_reducible assumption
    | with_reducible apply Device.canonical_modLp
    | with_reducible apply canonical_idleFlags
    | with_reducible apply Device.canonical_ite
    | intro _
    | split
    | dsimp only

theorem canonical_stopChannel (g : ℕ) {s : Device} (hs : s.Canonical sz) :
    (stopChannel g s).Canonical sz := by
  unfold stopChannel
  repeat' first
    | with_reducible assumption
    | with_reducible apply Device.canonical_modLp
    | with_reducible apply canonical_gatesOff
    | with_reducible apply canonical_acirStopped
    | with_reducible apply Device.canonical_ite
    | intro _
    | split
    | dsimp only

theorem canonical_protTrip (bit : ℕ) (g : ℕ) {s : Device} (hs : s.Canonical sz) :
    (protTrip bit g s).Canonical sz := by
  unfold protTrip
  repeat' first
    | with_reducible assumption
    | with_reducible apply canonical_stopChannel
    | with_reducible apply canonical_setChFault
    | with_reducible apply Device.canonical_ite
    | intro _
    | split
    | dsimp only

theorem canonical_setpointWrite (g : ℕ) (r : Sys2Proof.SetReg) (data : Sys2Proof.Word) {s : Device} (hs : s.Canonical sz) :
    (setpointWrite g r data s).Canonical sz := by
  unfold setpointWrite
  repeat' first
    | with_reducible assumption
    | with_reducible apply Device.canonical_setReg
    | with_reducible apply Device.canonical_ite
    | intro _
    | split
    | dsimp only

theorem canonical_uprange (g : ℕ) {s : Device} (hs : s.Canonical sz) :
    (uprange g s).Canonical sz := by
  unfold uprange
  repeat' first
    | with_reducible assumption
    | with_reducible apply Device.canonical_cset
    | with_reducible apply Device.canonical_modDue
    | with_reducible apply Device.canonical_ite
    | intro _
    | split
    | dsimp only

theorem canonical_pwmWrite (g : ℕ) (dt : Bool) (data : Sys2Proof.Word) {s : Device} (hs : s.Canonical sz) :
    (pwmWrite g dt data s).Canonical sz := by
  unfold pwmWrite
  repeat' first
    | with_reducible assumption
    | with_reducible apply Device.canonical_setReg
    | with_reducible apply Device.canonical_cforce
    | with_reducible apply Device.canonical_ite
    | intro _
    | split
    | dsimp only

theorem canonical_overload (volt : Bool) (g : ℕ) {s : Device} (hs : s.Canonical sz) :
    (overload volt g s).Canonical sz := by
  unfold overload
  repeat' first
    | with_reducible assumption
    | with_reducible apply canonical_acirClip
    | with_reducible apply canonical_setOverload
    | with_reducible apply Device.canonical_ite
    | intro _
    | split
    | dsimp only

theorem canonical_rangeSelWrite (g : ℕ) (low : Bool) {s : Device} (hs : s.Canonical sz) :
    (rangeSelWrite g low s).Canonical sz := by
  unfold rangeSelWrite
  repeat' first
    | with_reducible assumption
    | with_reducible apply canonical_writeRange
    | with_reducible apply Device.canonical_ite
    | intro _
    | split
    | dsimp only

end Sys2Proof.Machine
end

