-- ==== Sys2Proof/Laws/CanonicalEngines.lean ====
section
/-! SUPPORT. Every operation of these files keeps the canonical form of the device (Device.Canonical). One lemma for each operation, in the order of the files. -/

set_option linter.unusedTactic false
set_option linter.unreachableTactic false
set_option linter.unusedVariables false

namespace Sys2Proof.Machine

variable {sz : Nat}

/-! StepEng. -/

theorem canonical_putTime (g : ℕ) {s : Device} (hs : s.Canonical sz) :
    (putTime g s).Canonical sz := by
  unfold putTime
  repeat' first
    | with_reducible assumption
    | with_reducible apply Device.canonical_setReg
    | intro _
    | split
    | dsimp only

theorem canonical_engFrame (g : ℕ) {s : Device} (hs : s.Canonical sz) :
    (engFrame g s).Canonical sz := by
  unfold engFrame
  repeat' first
    | with_reducible assumption
    | with_reducible apply Device.canonical_modEng
    | with_reducible apply canonical_putTime
    | with_reducible apply Device.canonical_ite
    | intro _
    | split
    | dsimp only

theorem canonical_writeSetpoints (g : ℕ) {s : Device} (hs : s.Canonical sz) :
    (writeSetpoints g s).Canonical sz := by
  unfold writeSetpoints
  repeat' first
    | with_reducible assumption
    | with_reducible apply canonical_engSetpoints
    | intro _
    | split
    | dsimp only

theorem canonical_stepBegin (fresh : Bool) (g : ℕ) {s : Device} (hs : s.Canonical sz) :
    (stepBegin fresh g s).Canonical sz := by
  unfold stepBegin
  repeat' first
    | with_reducible assumption
    | with_reducible apply canonical_acirRequest
    | with_reducible apply canonical_writeSetpoints
    | with_reducible apply Device.canonical_modEng
    | with_reducible apply Device.canonical_ite
    | intro _
    | split
    | dsimp only

theorem canonical_commandEvents (q : ℕ) (e0 : ℕ) (g : ℕ) {s : Device} (hs : s.Canonical sz) :
    (commandEvents q e0 g s).Canonical sz := by
  unfold commandEvents
  repeat' first
    | with_reducible assumption
    | with_reducible apply canonical_traceEvent
    | with_reducible apply Device.canonical_ite
    | intro _
    | split
    | dsimp only

theorem canonical_setMap (lo : Fld Blk.pkg) (hi : Fld Blk.pkg) (g : ℕ) (on : Bool) {s : Device} (hs : s.Canonical sz) :
    (setMap lo hi g on s).Canonical sz := by
  unfold setMap
  repeat' first
    | with_reducible assumption
    | with_reducible apply Device.canonical_psetBit
    | with_reducible apply Device.canonical_ite
    | intro _
    | split
    | dsimp only

theorem canonical_clearMaps (g : ℕ) {s : Device} (hs : s.Canonical sz) :
    (clearMaps g s).Canonical sz := by
  unfold clearMaps
  repeat' first
    | with_reducible assumption
    | with_reducible apply canonical_setMap
    | intro _
    | split
    | dsimp only

theorem canonical_leaseRelease (g : ℕ) {s : Device} (hs : s.Canonical sz) :
    (leaseRelease g s).Canonical sz := by
  unfold leaseRelease
  repeat' first
    | with_reducible assumption
    | with_reducible apply Device.canonical_modLease
    | with_reducible apply Device.canonical_cset
    | with_reducible apply canonical_clearMaps
    | intro _
    | split
    | dsimp only

theorem canonical_recipeEnd (pass : Bool) (cause : ℕ) (g : ℕ) {s : Device} (hs : s.Canonical sz) :
    (recipeEnd pass cause g s).Canonical sz := by
  unfold recipeEnd
  repeat' first
    | with_reducible assumption
    | with_reducible apply canonical_traceEvent
    | with_reducible apply Device.canonical_cset
    | with_reducible apply canonical_leaseRelease
    | with_reducible apply canonical_engMode
    | with_reducible apply canonical_setEng
    | with_reducible apply Device.canonical_modEng
    | with_reducible apply Device.canonical_ite
    | intro _
    | split
    | dsimp only

theorem canonical_dropHold (g : ℕ) {s : Device} (hs : s.Canonical sz) :
    (dropHold g s).Canonical sz := by
  unfold dropHold
  repeat' first
    | with_reducible assumption
    | with_reducible apply canonical_setMap
    | with_reducible apply Device.canonical_cset
    | intro _
    | split
    | dsimp only

theorem canonical_stepEndRecord (code : ℕ) (slot : ℕ) (g : ℕ) {s : Device} (hs : s.Canonical sz) :
    (stepEndRecord code slot g s).Canonical sz := by
  unfold stepEndRecord
  repeat' first
    | with_reducible assumption
    | with_reducible apply canonical_traceWrite
    | with_reducible apply Device.canonical_ite
    | intro _
    | split
    | dsimp only

theorem canonical_endCkpt (g : ℕ) {s : Device} (hs : s.Canonical sz) :
    (endCkpt g s).Canonical sz := by
  unfold endCkpt
  repeat' first
    | with_reducible assumption
    | with_reducible apply canonical_ckptRequest
    | with_reducible apply Device.canonical_ite
    | intro _
    | split
    | dsimp only

theorem canonical_markEnd (code : ℕ) (slot : ℕ) (g : ℕ) {s : Device} (hs : s.Canonical sz) :
    (markEnd code slot g s).Canonical sz := by
  unfold markEnd
  repeat' first
    | with_reducible assumption
    | with_reducible apply canonical_stepEndRecord
    | with_reducible apply canonical_endCkpt
    | with_reducible apply Device.canonical_cset
    | intro _
    | split
    | dsimp only

theorem canonical_endStep (code : ℕ) (slot : ℕ) (g : ℕ) {s : Device} (hs : s.Canonical sz) :
    (endStep code slot g s).Canonical sz := by
  unfold endStep
  repeat' first
    | with_reducible assumption
    | with_reducible apply canonical_acirStepEnd
    | with_reducible apply canonical_markEnd
    | with_reducible apply Device.canonical_modEng
    | intro _
    | split
    | dsimp only

theorem canonical_bandApply (g : ℕ) {s : Device} (hs : s.Canonical sz) :
    (bandApply g s).Canonical sz := by
  unfold bandApply
  repeat' first
    | with_reducible assumption
    | with_reducible apply canonical_bandFresh
    | with_reducible apply Device.canonical_ite
    | intro _
    | split
    | dsimp only

theorem canonical_clearCounts (g : ℕ) {s : Device} (hs : s.Canonical sz) :
    (clearCounts g s).Canonical sz := by
  unfold clearCounts
  repeat' first
    | with_reducible assumption
    | with_reducible apply Device.canonical_modEng
    | intro _
    | split
    | dsimp only

theorem canonical_suspendStep (cause : ℕ) (g : ℕ) {s : Device} (hs : s.Canonical sz) :
    (suspendStep cause g s).Canonical sz := by
  unfold suspendStep
  repeat' first
    | with_reducible assumption
    | with_reducible apply canonical_engMode
    | with_reducible apply canonical_acirAbort
    | with_reducible apply canonical_traceEvent
    | with_reducible apply canonical_setEng
    | with_reducible apply Device.canonical_cset
    | with_reducible apply canonical_clearCounts
    | with_reducible apply Device.canonical_modEng
    | with_reducible apply canonical_leaseRelease
    | intro _
    | split
    | dsimp only

theorem canonical_runStep (whole : Bool) (g : ℕ) {s : Device} (hs : s.Canonical sz) :
    (runStep whole g s).Canonical sz := by
  unfold runStep
  repeat' first
    | with_reducible assumption
    | with_reducible apply canonical_suspendStep
    | with_reducible apply canonical_traceEvent
    | with_reducible apply canonical_setEng
    | with_reducible apply Device.canonical_cset
    | with_reducible apply Device.canonical_modEng
    | with_reducible apply Device.canonical_modLp
    | with_reducible apply canonical_contactBlank
    | with_reducible apply canonical_clearCounts
    | with_reducible apply canonical_engMode
    | with_reducible apply canonical_followMode
    | with_reducible apply canonical_stepBegin
    | with_reducible apply Device.canonical_ite
    | intro _
    | split
    | dsimp only

theorem canonical_leaseWait (paused : Bool) (g : ℕ) {s : Device} (hs : s.Canonical sz) :
    (leaseWait paused g s).Canonical sz := by
  unfold leaseWait
  repeat' first
    | with_reducible assumption
    | with_reducible apply Device.canonical_modLease
    | with_reducible apply Device.canonical_cset
    | with_reducible apply canonical_clearMaps
    | with_reducible apply Device.canonical_ite
    | intro _
    | split
    | dsimp only

theorem canonical_requestRun (paused : Bool) (ev : ℕ) (g : ℕ) {s : Device} (hs : s.Canonical sz) :
    (requestRun paused ev g s).Canonical sz := by
  unfold requestRun
  repeat' first
    | with_reducible assumption
    | with_reducible apply Device.canonical_modEng
    | with_reducible apply canonical_leaseWait
    | with_reducible apply canonical_engMode
    | with_reducible apply canonical_setEng
    | with_reducible apply canonical_runStep
    | with_reducible apply canonical_leaseRelease
    | with_reducible apply Device.canonical_ite
    | intro _
    | split
    | dsimp only

theorem canonical_startRequest (i : ℕ) (r : StepRec) (g : ℕ) {s : Device} (hs : s.Canonical sz) :
    (startRequest i r g s).Canonical sz := by
  unfold startRequest
  repeat' first
    | with_reducible assumption
    | with_reducible apply Device.canonical_cset
    | with_reducible apply canonical_setEng
    | with_reducible apply Device.canonical_modEng
    | with_reducible apply canonical_writeSetpoints
    | with_reducible apply canonical_engRange
    | with_reducible apply canonical_bandApply
    | with_reducible apply canonical_putTime
    | with_reducible apply canonical_runStep
    | with_reducible apply canonical_requestRun
    | with_reducible apply Device.canonical_ite
    | intro _
    | split
    | dsimp only

theorem canonical_takeAction (action : ℕ) (code : ℕ) (g : ℕ) {s : Device} (hs : s.Canonical sz) :
    (takeAction action code g s).1.Canonical sz := by
  unfold takeAction
  repeat' first
    | with_reducible assumption
    | with_reducible apply canonical_recipeEnd
    | intro _
    | split
    | dsimp only

theorem canonical_controlFail (code : ℕ) (g : ℕ) {s : Device} (hs : s.Canonical sz) :
    (controlFail code g s).Canonical sz := by
  unfold controlFail
  repeat' first
    | with_reducible assumption
    | with_reducible apply canonical_recipeEnd
    | with_reducible apply Device.canonical_cset
    | intro _
    | split
    | dsimp only

theorem canonical_goTo (k l i g : ℕ) {s : Device} (h : s.Canonical sz) : (goTo k l i g s).Canonical sz := by
  induction k generalizing l i s with
  | zero => exact h
  | succ n ih =>
    rw [goTo]
    repeat' first
      | with_reducible assumption
      | with_reducible apply ih
      | with_reducible apply canonical_controlFail
      | with_reducible apply canonical_recipeEnd
      | with_reducible apply canonical_takeAction
      | with_reducible apply canonical_endStep
      | with_reducible apply canonical_startRequest
      | with_reducible apply Device.canonical_cset
      | with_reducible apply Device.canonical_modEng
      | with_reducible apply Device.canonical_ite
      | intro _
      | split
      | dsimp only

theorem canonical_goStep (i : ℕ) (g : ℕ) {s : Device} (hs : s.Canonical sz) :
    (goStep i g s).Canonical sz := by
  unfold goStep
  repeat' first
    | with_reducible assumption
    | with_reducible apply canonical_goTo
    | intro _
    | split
    | dsimp only

theorem canonical_haltStep (g : ℕ) {s : Device} (hs : s.Canonical sz) :
    (haltStep g s).Canonical sz := by
  unfold haltStep
  repeat' first
    | with_reducible assumption
    | with_reducible apply canonical_traceEvent
    | with_reducible apply canonical_setEng
    | with_reducible apply canonical_clearCounts
    | with_reducible apply Device.canonical_modEng
    | with_reducible apply canonical_leaseRelease
    | with_reducible apply canonical_engMode
    | intro _
    | split
    | dsimp only

theorem canonical_restartStep (g : ℕ) {s : Device} (hs : s.Canonical sz) :
    (restartStep g s).Canonical sz := by
  unfold restartStep
  repeat' first
    | with_reducible assumption
    | with_reducible apply canonical_putTime
    | with_reducible apply Device.canonical_modEng
    | with_reducible apply Device.canonical_cset
    | intro _
    | split
    | dsimp only

theorem canonical_carryResume (mode : ℕ) (g : ℕ) {s : Device} (hs : s.Canonical sz) :
    (carryResume mode g s).Canonical sz := by
  unfold carryResume
  repeat' first
    | with_reducible assumption
    | with_reducible apply Device.canonical_modEng
    | with_reducible apply canonical_engRange
    | with_reducible apply canonical_requestRun
    | with_reducible apply canonical_writeSetpoints
    | with_reducible apply canonical_bandApply
    | with_reducible apply canonical_restartStep
    | with_reducible apply canonical_setEng
    | with_reducible apply Device.canonical_ite
    | intro _
    | split
    | dsimp only

theorem canonical_releaseHeld (g : ℕ) {s : Device} (hs : s.Canonical sz) :
    (releaseHeld g s).Canonical sz := by
  unfold releaseHeld
  repeat' first
    | with_reducible assumption
    | with_reducible apply canonical_carryResume
    | with_reducible apply canonical_dropHold
    | intro _
    | split
    | dsimp only

theorem canonical_releaseStep (g : ℕ) {s : Device} (hs : s.Canonical sz) :
    (releaseStep g s).Canonical sz := by
  unfold releaseStep
  repeat' first
    | with_reducible assumption
    | with_reducible apply canonical_releaseHeld
    | with_reducible apply canonical_traceEvent
    | with_reducible apply canonical_requestRun
    | with_reducible apply Device.canonical_ite
    | intro _
    | split
    | dsimp only

theorem canonical_startRecipe (g : ℕ) {s : Device} (hs : s.Canonical sz) :
    (startRecipe g s).Canonical sz := by
  unfold startRecipe
  repeat' first
    | with_reducible assumption
    | with_reducible apply Device.canonical_cset
    | with_reducible apply Device.canonical_modEng
    | with_reducible apply canonical_goStep
    | with_reducible apply canonical_traceEvent
    | with_reducible apply Device.canonical_ite
    | intro _
    | split
    | dsimp only

theorem canonical_hostCommands (decided : Bool) (e0 : ℕ) (g : ℕ) {s : Device} (next : Option ℕ) (hs : s.Canonical sz) :
    (hostCommands decided e0 g s next).1.Canonical sz := by
  unfold hostCommands
  repeat' first
    | with_reducible assumption
    | with_reducible apply canonical_commandEvents
    | with_reducible apply Device.canonical_modDue
    | with_reducible apply canonical_recipeEnd
    | with_reducible apply canonical_dropHold
    | with_reducible apply canonical_endStep
    | with_reducible apply canonical_goStep
    | with_reducible apply canonical_haltStep
    | with_reducible apply canonical_releaseStep
    | with_reducible apply canonical_startRecipe
    | with_reducible apply Device.canonical_ite
    | intro _
    | split
    | dsimp only

theorem canonical_interruptedBoundary (g : ℕ) {s : Device} (hs : s.Canonical sz) :
    (interruptedBoundary g s).Canonical sz := by
  unfold interruptedBoundary
  repeat' first
    | with_reducible assumption
    | with_reducible apply canonical_bandBoundary
    | with_reducible apply canonical_goStep
    | (refine Device.canonical_fst (by with_reducible assumption) ?_; with_reducible apply canonical_hostCommands)
    | with_reducible apply canonical_hostCommands
    | intro _
    | split
    | dsimp only

theorem canonical_faultHold (g : ℕ) {s : Device} (hs : s.Canonical sz) :
    (faultHold g s).Canonical sz := by
  unfold faultHold
  repeat' first
    | with_reducible assumption
    | with_reducible apply canonical_traceEvent
    | with_reducible apply canonical_setEng
    | with_reducible apply canonical_clearCounts
    | with_reducible apply Device.canonical_modEng
    | with_reducible apply canonical_leaseRelease
    | with_reducible apply canonical_engMode
    | intro _
    | split
    | dsimp only

theorem canonical_contactFinal (code : ℕ) (g : ℕ) {s : Device} (hs : s.Canonical sz) :
    (contactFinal code g s).1.Canonical sz := by
  unfold contactFinal
  repeat' first
    | with_reducible assumption
    | with_reducible apply canonical_recipeEnd
    | (refine Device.canonical_fst (by with_reducible assumption) ?_; with_reducible apply canonical_takeAction)
    | with_reducible apply canonical_takeAction
    | intro _
    | split
    | dsimp only

theorem canonical_contactEnd (g : ℕ) {s : Device} (hs : s.Canonical sz) :
    (contactEnd g s).1.Canonical sz := by
  unfold contactEnd
  repeat' first
    | with_reducible assumption
    | with_reducible apply Device.canonical_modDue
    | with_reducible apply canonical_acirStepEnd
    | with_reducible apply canonical_markEnd
    | with_reducible apply Device.canonical_cset
    | with_reducible apply canonical_traceEvent
    | with_reducible apply canonical_setEng
    | with_reducible apply canonical_leaseRelease
    | with_reducible apply canonical_engMode
    | with_reducible apply canonical_clearCounts
    | with_reducible apply Device.canonical_modEng
    | with_reducible apply canonical_endStep
    | (refine Device.canonical_fst (by with_reducible assumption) ?_; with_reducible apply canonical_contactFinal)
    | with_reducible apply canonical_contactFinal
    | with_reducible apply Device.canonical_ite
    | intro _
    | split
    | dsimp only

theorem canonical_orderFaults (g : ℕ) {s : Device} (hs : s.Canonical sz) :
    (orderFaults g s).1.Canonical sz := by
  unfold orderFaults
  repeat' first
    | with_reducible assumption
    | with_reducible apply canonical_faultHold
    | with_reducible apply Device.canonical_modDue
    | with_reducible apply canonical_endStep
    | (refine Device.canonical_fst (by with_reducible assumption) ?_; with_reducible apply canonical_contactEnd)
    | with_reducible apply canonical_contactEnd
    | (refine Device.canonical_fst (by with_reducible assumption) ?_; with_reducible apply canonical_contactFinal)
    | with_reducible apply canonical_contactFinal
    | with_reducible apply Device.canonical_ite
    | intro _
    | split
    | dsimp only

theorem canonical_pulseLevel (g : ℕ) {s : Device} (hs : s.Canonical sz) :
    (pulseLevel g s).Canonical sz := by
  unfold pulseLevel
  repeat' first
    | with_reducible assumption
    | with_reducible apply canonical_writeSetpoints
    | with_reducible apply Device.canonical_modEng
    | with_reducible apply Device.canonical_ite
    | with_reducible apply Device.canonical_foldl
    | with_reducible apply Device.canonical_mk
    | with_reducible apply Device.ring_set
    | with_reducible apply rfWf_set
    | with_reducible apply Device.Canonical.regs
    | with_reducible apply Device.Canonical.shadow
    | with_reducible apply Device.Canonical.force
    | with_reducible apply Device.Canonical.flash
    | with_reducible apply Device.Canonical.buf
    | with_reducible apply Device.Canonical.size
    | with_reducible apply Device.Canonical.chans
    | with_reducible apply Device.Canonical.dies
    | with_reducible apply Device.Canonical.ring
    | with_reducible apply Device.Canonical.posting
    | intro _
    | split
    | dsimp only

theorem canonical_orderBand (decided : Bool) (g : ℕ) {s : Device} (hs : s.Canonical sz) :
    (orderBand decided g s).1.Canonical sz := by
  unfold orderBand
  repeat' first
    | with_reducible assumption
    | with_reducible apply canonical_endStep
    | with_reducible apply canonical_requestRun
    | with_reducible apply canonical_suspendStep
    | (refine Device.canonical_fst (by with_reducible assumption) ?_; with_reducible apply canonical_takeAction)
    | with_reducible apply canonical_takeAction
    | with_reducible apply Device.canonical_ite
    | intro _
    | split
    | dsimp only

theorem canonical_reseatRefused (g : ℕ) {s : Device} (hs : s.Canonical sz) :
    (reseatRefused g s).Canonical sz := by
  unfold reseatRefused
  repeat' first
    | with_reducible assumption
    | with_reducible apply Device.canonical_modEng
    | with_reducible apply Device.canonical_ite
    | intro _
    | split
    | dsimp only

theorem canonical_stepTerms (g : ℕ) {s : Device} (hs : s.Canonical sz) :
    (stepTerms g s).1.Canonical sz := by
  unfold stepTerms
  repeat' first
    | with_reducible assumption
    | with_reducible apply Device.canonical_modEng
    | with_reducible apply canonical_endStep
    | (refine Device.canonical_fst (by with_reducible assumption) ?_; with_reducible apply canonical_takeAction)
    | with_reducible apply canonical_takeAction
    | intro _
    | split
    | dsimp only

theorem canonical_pulseCapture (k : ℕ) (g : ℕ) {s : Device} (hs : s.Canonical sz) :
    (pulseCapture k g s).Canonical sz := by
  unfold pulseCapture
  repeat' first
    | with_reducible assumption
    | with_reducible apply Device.canonical_modEng
    | with_reducible apply canonical_traceWrite
    | with_reducible apply Device.canonical_spend
    | with_reducible apply Device.canonical_ite
    | intro _
    | split
    | dsimp only

theorem canonical_restBoundary (g : ℕ) {s : Device} (hs : s.Canonical sz) :
    (restBoundary g s).Canonical sz := by
  unfold restBoundary
  repeat' first
    | with_reducible assumption
    | with_reducible apply canonical_requestRun
    | with_reducible apply canonical_runStep
    | with_reducible apply Device.canonical_ite
    | intro _
    | split
    | dsimp only

theorem canonical_bandEvents (decided : Bool) (running : Bool) (b0 : ℕ) (set0 : ℕ) (g : ℕ) {s : Device} (hs : s.Canonical sz) :
    (bandEvents decided running b0 set0 g s).Canonical sz := by
  unfold bandEvents
  repeat' first
    | with_reducible assumption
    | with_reducible apply canonical_traceEvent
    | with_reducible apply canonical_writeSetpoints
    | with_reducible apply Device.canonical_ite
    | intro _
    | split
    | dsimp only

theorem canonical_pauseStep (cause : ℕ) (g : ℕ) {s : Device} (hs : s.Canonical sz) :
    (pauseStep cause g s).Canonical sz := by
  unfold pauseStep
  repeat' first
    | with_reducible assumption
    | with_reducible apply canonical_traceEvent
    | with_reducible apply canonical_setEng
    | with_reducible apply canonical_leaseRelease
    | with_reducible apply canonical_clearCounts
    | with_reducible apply Device.canonical_modEng
    | with_reducible apply canonical_engMode
    | with_reducible apply Device.canonical_ite
    | intro _
    | split
    | dsimp only

theorem canonical_orderPause (decided : Bool) (stops : Bool) (g : ℕ) {s : Device} (hs : s.Canonical sz) :
    (orderPause decided stops g s).1.Canonical sz := by
  unfold orderPause
  repeat' first
    | with_reducible assumption
    | with_reducible apply Device.canonical_modDue
    | with_reducible apply canonical_traceEvent
    | with_reducible apply canonical_pauseStep
    | with_reducible apply Device.canonical_ite
    | intro _
    | split
    | dsimp only

theorem canonical_stepStart (g : ℕ) {s : Device} (hs : s.Canonical sz) :
    (stepStart g s).Canonical sz := by
  unfold stepStart
  repeat' first
    | with_reducible assumption
    | with_reducible apply canonical_runStep
    | with_reducible apply canonical_followMode
    | with_reducible apply Device.canonical_ite
    | intro _
    | split
    | dsimp only

theorem canonical_traceRdWrite (d : ℕ) (data : Sys2Proof.Word) {s : Device} (hs : s.Canonical sz) :
    (traceRdWrite d data s).Canonical sz := by
  unfold traceRdWrite
  repeat' first
    | with_reducible assumption
    | with_reducible apply Device.canonical_dset
    | with_reducible apply Device.canonical_ite
    | intro _
    | split
    | dsimp only

theorem canonical_reseatDone (g : ℕ) {s : Device} (hs : s.Canonical sz) :
    (reseatDone g s).Canonical sz := by
  unfold reseatDone
  repeat' first
    | with_reducible assumption
    | with_reducible apply canonical_traceEvent
    | with_reducible apply canonical_clearChFault
    | with_reducible apply canonical_requestRun
    | with_reducible apply Device.canonical_modEng
    | with_reducible apply Device.canonical_ite
    | intro _
    | split
    | dsimp only

theorem canonical_seqCmd (bit : ℕ) (g : ℕ) {s : Device} (hs : s.Canonical sz) :
    (seqCmd bit g s).Canonical sz := by
  unfold seqCmd
  repeat' first
    | with_reducible assumption
    | with_reducible apply Device.canonical_modDue
    | intro _
    | split
    | dsimp only

theorem canonical_reseatOff (g : ℕ) {s : Device} (hs : s.Canonical sz) :
    (reseatOff g s).Canonical sz := by
  unfold reseatOff
  repeat' first
    | with_reducible assumption
    | with_reducible apply Device.canonical_modEng
    | with_reducible apply Device.canonical_ite
    | intro _
    | split
    | dsimp only

theorem canonical_ocvSample (g : ℕ) {s : Device} (hs : s.Canonical sz) :
    (ocvSample g s).Canonical sz := by
  unfold ocvSample
  repeat' first
    | with_reducible assumption
    | with_reducible apply canonical_traceWrite
    | with_reducible apply Device.canonical_modEng
    | with_reducible apply Device.canonical_ite
    | intro _
    | split
    | dsimp only

theorem canonical_engineBoundary (g : ℕ) {s : Device} (hs : s.Canonical sz) :
    (engineBoundary g s).Canonical sz := by
  unfold engineBoundary
  repeat' first
    | with_reducible assumption
    | with_reducible apply canonical_interruptedBoundary
    | with_reducible apply canonical_bandBoundary
    | with_reducible apply canonical_engFrame
    | with_reducible apply canonical_endStep
    | with_reducible apply canonical_bandEvents
    | with_reducible apply canonical_goStep
    | with_reducible apply canonical_restBoundary
    | (refine Device.canonical_fst (by with_reducible assumption) ?_; with_reducible apply canonical_orderFaults)
    | with_reducible apply canonical_orderFaults
    | (refine Device.canonical_fst (by with_reducible assumption) ?_; with_reducible apply canonical_hostCommands)
    | with_reducible apply canonical_hostCommands
    | (refine Device.canonical_fst (by with_reducible assumption) ?_; with_reducible apply canonical_orderPause)
    | with_reducible apply canonical_orderPause
    | (refine Device.canonical_fst (by with_reducible assumption) ?_; with_reducible apply canonical_stepTerms)
    | with_reducible apply canonical_stepTerms
    | (refine Device.canonical_fst (by with_reducible assumption) ?_; with_reducible apply canonical_takeAction)
    | with_reducible apply canonical_takeAction
    | (refine Device.canonical_fst (by with_reducible assumption) ?_; with_reducible apply canonical_orderBand)
    | with_reducible apply canonical_orderBand
    | with_reducible apply Device.canonical_ite
    | intro _
    | split
    | dsimp only

/-! LoopPeriod. -/

theorem canonical_trimBoundary (g : ℕ) {s : Device} (hs : s.Canonical sz) :
    (trimBoundary g s).Canonical sz := by
  unfold trimBoundary
  repeat' first
    | with_reducible assumption
    | with_reducible apply Device.canonical_modLp
    | with_reducible apply Device.canonical_ite
    | intro _
    | split
    | dsimp only

theorem canonical_contactFault (g : ℕ) {s : Device} (hs : s.Canonical sz) :
    (contactFault g s).Canonical sz := by
  unfold contactFault
  repeat' first
    | with_reducible assumption
    | with_reducible apply canonical_setChFault
    | with_reducible apply Device.canonical_modDue
    | with_reducible apply Device.canonical_modLp
    | with_reducible apply Device.canonical_ite
    | intro _
    | split
    | dsimp only

theorem canonical_contactSample (g : ℕ) (vf : ℕ) {s : Device} (hs : s.Canonical sz) :
    (contactSample g vf s).Canonical sz := by
  unfold contactSample
  repeat' first
    | with_reducible assumption
    | with_reducible apply Device.canonical_modLp
    | with_reducible apply canonical_contactFault
    | with_reducible apply Device.canonical_ite
    | intro _
    | split
    | dsimp only

theorem canonical_clampSample (g : ℕ) (vf : ℕ) {s : Device} (hs : s.Canonical sz) :
    (clampSample g vf s).Canonical sz := by
  unfold clampSample
  repeat' first
    | with_reducible assumption
    | with_reducible apply canonical_clampEngage
    | with_reducible apply Device.canonical_modLp
    | with_reducible apply Device.canonical_cset
    | with_reducible apply Device.canonical_ite
    | intro _
    | split
    | dsimp only

theorem canonical_overloadClip (g : ℕ) {s : Device} (hs : s.Canonical sz) :
    (overloadClip g s).Canonical sz := by
  unfold overloadClip
  repeat' first
    | with_reducible assumption
    | with_reducible apply canonical_acirClip
    | with_reducible apply Device.canonical_ite
    | intro _
    | split
    | dsimp only

theorem canonical_fastOne (bq : ℤ × ℤ) (vf : List ℕ) (g : ℕ) {s : Device} (hs : s.Canonical sz) :
    (fastOne bq vf g s).Canonical sz := by
  unfold fastOne
  repeat' first
    | with_reducible assumption
    | with_reducible apply Device.canonical_cset
    | with_reducible apply canonical_fastChannel
    | with_reducible apply canonical_contactSample
    | with_reducible apply canonical_clampSample
    | with_reducible apply canonical_overloadClip
    | with_reducible apply canonical_acirSample
    | intro _
    | split
    | dsimp only

theorem canonical_fastDie (vf : List ℕ) (d : ℕ) {s : Device} (hs : s.Canonical sz) :
    (fastDie vf d s).Canonical sz := by
  unfold fastDie
  repeat' first
    | with_reducible assumption
    | with_reducible apply Device.canonical_modDie
    | with_reducible apply canonical_fastOne
    | with_reducible apply canonical_benchHold
    | (refine Device.canonical_snd (by with_reducible assumption) ?_; with_reducible apply canonical_benchFast)
    | with_reducible apply canonical_benchFast
    | with_reducible apply Device.canonical_ite
    | with_reducible apply Device.canonical_each
    | intro _
    | split
    | dsimp only

theorem canonical_fastSample (vf : List ℕ) {s : Device} (hs : s.Canonical sz) :
    (fastSample vf s).Canonical sz := by
  unfold fastSample
  repeat' first
    | with_reducible assumption
    | with_reducible apply canonical_fastDie
    | with_reducible apply Device.canonical_each
    | intro _
    | split
    | dsimp only

theorem canonical_armTaper (cv : Bool) (still : Bool) (g : ℕ) {s : Device} (hs : s.Canonical sz) :
    (armTaper cv still g s).Canonical sz := by
  unfold armTaper
  repeat' first
    | with_reducible assumption
    | with_reducible apply Device.canonical_modEng
    | with_reducible apply Device.canonical_ite
    | intro _
    | split
    | dsimp only

theorem canonical_rescaleLoop (low : Bool) (g : ℕ) {s : Device} (hs : s.Canonical sz) :
    (rescaleLoop low g s).Canonical sz := by
  unfold rescaleLoop
  repeat' first
    | with_reducible assumption
    | with_reducible apply Device.canonical_modLp
    | with_reducible apply Device.canonical_ite
    | intro _
    | split
    | dsimp only

theorem canonical_busOvCh (g : ℕ) {s : Device} (hs : s.Canonical sz) :
    (busOvCh g s).Canonical sz := by
  unfold busOvCh
  repeat' first
    | with_reducible assumption
    | with_reducible apply Device.canonical_modLp
    | with_reducible apply canonical_stopChannel
    | with_reducible apply canonical_setChFault
    | with_reducible apply Device.canonical_ite
    | intro _
    | split
    | dsimp only

theorem canonical_periodStore (iM : ℤ) (o : LoopOut) (g : ℕ) {s : Device} (hs : s.Canonical sz) :
    (periodStore iM o g s).Canonical sz := by
  unfold periodStore
  repeat' first
    | with_reducible assumption
    | with_reducible apply Device.canonical_modLp
    | with_reducible apply Device.canonical_modAcir
    | with_reducible apply canonical_acirClip
    | with_reducible apply Device.canonical_cset
    | with_reducible apply canonical_armTaper
    | with_reducible apply Device.canonical_spend
    | with_reducible apply Device.canonical_ite
    | intro _
    | split
    | dsimp only

theorem canonical_periodStart (bootLow : Bool) (g : ℕ) {s : Device} (hs : s.Canonical sz) :
    (periodStart bootLow g s).Canonical sz := by
  unfold periodStart
  repeat' first
    | with_reducible assumption
    | with_reducible apply canonical_setChFault
    | with_reducible apply Device.canonical_cset
    | with_reducible apply Device.canonical_modLp
    | with_reducible apply canonical_acirClip
    | with_reducible apply Device.canonical_ite
    | intro _
    | split
    | dsimp only

theorem canonical_loopPeriod (bootLow : Bool) (g : ℕ) {s : Device} (hs : s.Canonical sz) :
    (loopPeriod bootLow g s).Canonical sz := by
  unfold loopPeriod
  repeat' first
    | with_reducible assumption
    | with_reducible apply Device.canonical_modLp
    | with_reducible apply canonical_gatesOff
    | with_reducible apply canonical_acirStopped
    | with_reducible apply canonical_periodStart
    | with_reducible apply canonical_stopChannel
    | with_reducible apply canonical_periodStore
    | with_reducible apply canonical_busOvCh
    | with_reducible apply Device.canonical_ite
    | intro _
    | split
    | dsimp only

/-! Protect. -/

theorem canonical_vdrvUvCh (g : ℕ) {s : Device} (hs : s.Canonical sz) :
    (vdrvUvCh g s).Canonical sz := by
  unfold vdrvUvCh
  repeat' first
    | with_reducible assumption
    | with_reducible apply canonical_stopChannel
    | with_reducible apply canonical_setChFault
    | with_reducible apply Device.canonical_modLp
    | with_reducible apply canonical_suspendStep
    | with_reducible apply Device.canonical_ite
    | intro _
    | split
    | dsimp only

theorem canonical_busOvClearCh (g : ℕ) {s : Device} (hs : s.Canonical sz) :
    (busOvClearCh g s).Canonical sz := by
  unfold busOvClearCh
  repeat' first
    | with_reducible assumption
    | with_reducible apply canonical_followMode
    | with_reducible apply Device.canonical_modLp
    | with_reducible apply Device.canonical_ite
    | intro _
    | split
    | dsimp only

theorem canonical_vdrvUv (d : ℕ) {s : Device} (hs : s.Canonical sz) :
    (vdrvUv d s).Canonical sz := by
  unfold vdrvUv
  repeat' first
    | with_reducible assumption
    | with_reducible apply canonical_vdrvUvCh
    | with_reducible apply Device.canonical_modDie
    | with_reducible apply Device.canonical_ite
    | with_reducible apply Device.canonical_each
    | intro _
    | split
    | dsimp only

theorem canonical_vdrvRecoverCh (g : ℕ) {s : Device} (hs : s.Canonical sz) :
    (vdrvRecoverCh g s).Canonical sz := by
  unfold vdrvRecoverCh
  repeat' first
    | with_reducible assumption
    | with_reducible apply Device.canonical_modLp
    | with_reducible apply canonical_requestRun
    | with_reducible apply Device.canonical_cset
    | with_reducible apply canonical_followMode
    | with_reducible apply Device.canonical_ite
    | intro _
    | split
    | dsimp only

theorem canonical_vdrvRecover (d : ℕ) {s : Device} (hs : s.Canonical sz) :
    (vdrvRecover d s).Canonical sz := by
  unfold vdrvRecover
  repeat' first
    | with_reducible assumption
    | with_reducible apply canonical_vdrvRecoverCh
    | with_reducible apply Device.canonical_modDie
    | with_reducible apply Device.canonical_ite
    | with_reducible apply Device.canonical_each
    | intro _
    | split
    | dsimp only

theorem canonical_busOvClear (d : ℕ) {s : Device} (hs : s.Canonical sz) :
    (busOvClear d s).Canonical sz := by
  unfold busOvClear
  repeat' first
    | with_reducible assumption
    | with_reducible apply canonical_busOvClearCh
    | with_reducible apply Device.canonical_modDie
    | with_reducible apply Device.canonical_ite
    | with_reducible apply Device.canonical_each
    | intro _
    | split
    | dsimp only

theorem canonical_busOv (d : ℕ) {s : Device} (hs : s.Canonical sz) :
    (busOv d s).Canonical sz := by
  unfold busOv
  repeat' first
    | with_reducible assumption
    | with_reducible apply canonical_busOvCh
    | with_reducible apply Device.canonical_modDie
    | with_reducible apply Device.canonical_ite
    | with_reducible apply Device.canonical_each
    | intro _
    | split
    | dsimp only

/-! Budget. -/

theorem canonical_modMon (f : Mon → Mon) {s : Device} (hs : s.Canonical sz) :
    (modMon f s).Canonical sz := by
  unfold modMon
  repeat' first
    | with_reducible assumption
    | with_reducible apply Device.canonical_modSup
    | intro _
    | split
    | dsimp only

theorem canonical_monEnd (trunc : Bool) {s : Device} (hs : s.Canonical sz) :
    (monEnd trunc s).Canonical sz := by
  unfold monEnd
  repeat' first
    | with_reducible assumption
    | with_reducible apply Device.canonical_pset
    | with_reducible apply Device.canonical_pinc
    | with_reducible apply canonical_modMon
    | with_reducible apply canonical_logEvent
    | with_reducible apply Device.canonical_ite
    | intro _
    | split
    | dsimp only

theorem canonical_monReading (v : ℕ) {s : Device} (hs : s.Canonical sz) :
    (monReading v s).Canonical sz := by
  unfold monReading
  repeat' first
    | with_reducible assumption
    | with_reducible apply canonical_modMon
    | with_reducible apply canonical_monEnd
    | with_reducible apply Device.canonical_pset
    | with_reducible apply Device.canonical_ite
    | intro _
    | split
    | dsimp only

theorem canonical_budgetGrant (g : ℕ) {s : Device} (hs : s.Canonical sz) :
    (budgetGrant g s).Canonical sz := by
  unfold budgetGrant
  repeat' first
    | with_reducible assumption
    | with_reducible apply Device.canonical_cset
    | with_reducible apply canonical_setMap
    | with_reducible apply canonical_setMode
    | with_reducible apply canonical_runStep
    | with_reducible apply Device.canonical_ite
    | intro _
    | split
    | dsimp only

theorem canonical_budgetPause (g : ℕ) {s : Device} (hs : s.Canonical sz) :
    (budgetPause g s).Canonical sz := by
  unfold budgetPause
  repeat' first
    | with_reducible assumption
    | with_reducible apply Device.canonical_cset
    | with_reducible apply canonical_setMap
    | with_reducible apply Device.canonical_pset
    | with_reducible apply canonical_logEvent
    | with_reducible apply canonical_setMode
    | with_reducible apply Device.canonical_modLp
    | with_reducible apply canonical_acirAbort
    | with_reducible apply Device.canonical_modDue
    | with_reducible apply Device.canonical_ite
    | intro _
    | split
    | dsimp only

theorem canonical_budgetRefuse (g : ℕ) {s : Device} (hs : s.Canonical sz) :
    (budgetRefuse g s).Canonical sz := by
  unfold budgetRefuse
  repeat' first
    | with_reducible assumption
    | with_reducible apply canonical_setMap
    | with_reducible apply Device.canonical_pset
    | with_reducible apply canonical_traceEvent
    | with_reducible apply canonical_setEng
    | with_reducible apply Device.canonical_ite
    | intro _
    | split
    | dsimp only

theorem canonical_decide1 (g : ℕ) {s : Device} (hs : s.Canonical sz) :
    (decide1 g s).Canonical sz := by
  unfold decide1
  repeat' first
    | with_reducible assumption
    | with_reducible apply Device.canonical_modLease
    | with_reducible apply canonical_budgetGrant
    | with_reducible apply canonical_budgetPause
    | with_reducible apply canonical_budgetRefuse
    | with_reducible apply Device.canonical_ite
    | intro _
    | split
    | dsimp only

theorem canonical_lateBoundary (g : ℕ) {s : Device} (hs : s.Canonical sz) :
    (lateBoundary g s).Canonical sz := by
  unfold lateBoundary
  repeat' first
    | with_reducible assumption
    | with_reducible apply canonical_decide1
    | with_reducible apply Device.canonical_ite
    | intro _
    | split
    | dsimp only

theorem canonical_leaseEnd (g : ℕ) {s : Device} (hs : s.Canonical sz) :
    (leaseEnd g s).Canonical sz := by
  unfold leaseEnd
  repeat' first
    | with_reducible assumption
    | with_reducible apply Device.canonical_modLease
    | with_reducible apply Device.canonical_cset
    | with_reducible apply canonical_clearMaps
    | intro _
    | split
    | dsimp only

theorem canonical_runCode (code : ℕ) {s : Device} (hs : s.Canonical sz) :
    (runCode code s).Canonical sz := by
  unfold runCode
  repeat' first
    | with_reducible assumption
    | with_reducible apply canonical_setCat
    | with_reducible apply Device.canonical_pset
    | intro _
    | split
    | dsimp only

theorem canonical_runStop (code : ℕ) {s : Device} (hs : s.Canonical sz) :
    (runStop code s).Canonical sz := by
  unfold runStop
  repeat' first
    | with_reducible assumption
    | with_reducible apply canonical_runCode
    | with_reducible apply Device.canonical_pset
    | with_reducible apply Device.canonical_ite
    | with_reducible apply Device.canonical_mk
    | with_reducible apply Device.ring_set
    | with_reducible apply rfWf_set
    | with_reducible apply Device.Canonical.regs
    | with_reducible apply Device.Canonical.shadow
    | with_reducible apply Device.Canonical.force
    | with_reducible apply Device.Canonical.flash
    | with_reducible apply Device.Canonical.buf
    | with_reducible apply Device.Canonical.size
    | with_reducible apply Device.Canonical.chans
    | with_reducible apply Device.Canonical.dies
    | with_reducible apply Device.Canonical.ring
    | with_reducible apply Device.Canonical.posting
    | intro _
    | split
    | dsimp only

theorem canonical_leaveRun {s : Device} (hs : s.Canonical sz) :
    (leaveRun s).Canonical sz := by
  unfold leaveRun
  repeat' first
    | with_reducible assumption
    | with_reducible apply canonical_leaseEnd
    | with_reducible apply canonical_acirAbort
    | with_reducible apply Device.canonical_modDue
    | with_reducible apply Device.canonical_setReg
    | with_reducible apply Device.canonical_pset
    | with_reducible apply canonical_runStop
    | with_reducible apply canonical_benchAbort
    | with_reducible apply Device.canonical_ite
    | with_reducible apply Device.canonical_each
    | intro _
    | split
    | dsimp only

theorem canonical_enterRun {s : Device} (hs : s.Canonical sz) :
    (enterRun s).Canonical sz := by
  unfold enterRun
  repeat' first
    | with_reducible assumption
    | with_reducible apply Device.canonical_modBench
    | with_reducible apply canonical_leaseWait
    | with_reducible apply Device.canonical_ite
    | with_reducible apply Device.canonical_each
    | intro _
    | split
    | dsimp only

theorem canonical_changeState (st : ℕ) {s : Device} (hs : s.Canonical sz) :
    (changeState st s).Canonical sz := by
  unfold changeState
  repeat' first
    | with_reducible assumption
    | with_reducible apply canonical_leaveRun
    | with_reducible apply canonical_monEnd
    | with_reducible apply canonical_modMon
    | with_reducible apply canonical_setPkgState
    | with_reducible apply Device.canonical_modSup
    | with_reducible apply Device.canonical_pset
    | with_reducible apply canonical_enterRun
    | with_reducible apply Device.canonical_ite
    | intro _
    | split
    | dsimp only

theorem canonical_countLease (g : ℕ) {s : Device} (hs : s.Canonical sz) :
    (countLease g s).Canonical sz := by
  unfold countLease
  repeat' first
    | with_reducible assumption
    | with_reducible apply Device.canonical_modLease
    | intro _
    | split
    | dsimp only

theorem canonical_busSums {s : Device} (hs : s.Canonical sz) :
    (busSums s).Canonical sz := by
  unfold busSums
  repeat' first
    | with_reducible assumption
    | with_reducible apply Device.canonical_setReg
    | with_reducible apply Device.canonical_pset
    | intro _
    | split
    | dsimp only

theorem Device.canonical_ite2 {c : Prop} [Decidable c] {p q : ℤ × Device} (hp : p.2.Canonical sz) (hq : q.2.Canonical sz) :
    (if c then p else q).2.Canonical sz := by
  split
  · exact hp
  · exact hq

theorem canonical_arbWaiting (k w : ℕ) (a : ℤ × Device) (h : a.2.Canonical sz) : (arbWaiting k w a).2.Canonical sz := by
  obtain ⟨res, s⟩ := a
  unfold arbWaiting
  refine Device.canonical_ite2 h (Device.canonical_ite2 ?_ ?_)
  · dsimp only; exact Device.canonical_modLease _ _ (s := s) h
  · dsimp only; exact Device.canonical_modLease _ _ (s := s) h

theorem canonical_acirEvent (g : ℕ) {s : Device} (hs : s.Canonical sz) :
    (acirEvent g s).Canonical sz := by
  unfold acirEvent
  repeat' first
    | with_reducible assumption
    | with_reducible apply canonical_acirOpen
    | with_reducible apply canonical_acirClose
    | with_reducible apply canonical_acirLeadin
    | intro _
    | split
    | dsimp only

theorem canonical_pauseLease (reverse : Bool) (g : ℕ) {s : Device} (hs : s.Canonical sz) :
    (pauseLease reverse g s).Canonical sz := by
  unfold pauseLease
  repeat' first
    | with_reducible assumption
    | with_reducible apply Device.canonical_modLease
    | intro _
    | split
    | dsimp only

theorem canonical_acirInOrder (f : ℕ → Device → Device) (g : ℕ) {s : Device} (hf : ∀ y0 y1, y1.Canonical sz → (f y0 y1).Canonical sz) (hs : s.Canonical sz) :
    (acirInOrder f g s).Canonical sz := by
  unfold acirInOrder
  repeat' first
    | with_reducible assumption
    | with_reducible apply canonical_decide1
    | with_reducible apply hf
    | with_reducible apply Device.canonical_ite
    | intro _
    | split
    | dsimp only

theorem canonical_leaseTold (g : ℕ) (dem : ℤ) (held : Bool) (waiting : Bool) {s : Device} (hs : s.Canonical sz) :
    (leaseTold g dem held waiting s).Canonical sz := by
  unfold leaseTold
  repeat' first
    | with_reducible assumption
    | with_reducible apply Device.canonical_modLease
    | intro _
    | split
    | dsimp only

theorem canonical_leaseReport (g : ℕ) {s : Device} (hs : s.Canonical sz) :
    (leaseReport g s).Canonical sz := by
  unfold leaseReport
  repeat' first
    | with_reducible assumption
    | with_reducible apply canonical_leaseTold
    | intro _
    | split
    | dsimp only

theorem canonical_demandBoundary (g : ℕ) {s : Device} (hs : s.Canonical sz) :
    (demandBoundary g s).Canonical sz := by
  unfold demandBoundary
  repeat' first
    | with_reducible assumption
    | with_reducible apply Device.canonical_cset
    | with_reducible apply canonical_leaseReport
    | with_reducible apply Device.canonical_ite
    | intro _
    | split
    | dsimp only

theorem canonical_freezeWrites {s : Device} (hs : s.Canonical sz) :
    (freezeWrites s).Canonical sz := by
  unfold freezeWrites
  repeat' first
    | with_reducible assumption
    | with_reducible apply Device.canonical_setBusW1c
    | with_reducible apply Device.canonical_setReg
    | with_reducible apply Device.canonical_setBusClr
    | with_reducible apply Device.canonical_pforce
    | with_reducible apply Device.canonical_cforce
    | with_reducible apply Device.canonical_ite
    | with_reducible apply Device.canonical_each
    | intro _
    | split
    | dsimp only

theorem canonical_pauseWhile (stop : ℤ → Bool) (reverse : Bool) (l : List ℕ) {s : Device} (hs : s.Canonical sz) :
    (pauseWhile stop reverse l s).Canonical sz := by
  unfold pauseWhile
  repeat' first
    | with_reducible assumption
    | with_reducible apply canonical_pauseLease
    | with_reducible apply Device.canonical_ite
    | with_reducible apply Device.canonical_each
    | intro _
    | split
    | dsimp only

theorem canonical_arbPauses {s : Device} (hs : s.Canonical sz) :
    (arbPauses s).Canonical sz := by
  unfold arbPauses
  repeat' first
    | with_reducible assumption
    | with_reducible apply canonical_pauseWhile
    | with_reducible apply Device.canonical_ite
    | intro _
    | split
    | dsimp only

theorem canonical_leaseLate (d : ℕ) {s : Device} (hs : s.Canonical sz) :
    (leaseLate d s).Canonical sz := by
  unfold leaseLate
  repeat' first
    | with_reducible assumption
    | with_reducible apply Device.canonical_modLease
    | with_reducible apply Device.canonical_pset
    | with_reducible apply Device.canonical_ite
    | with_reducible apply Device.canonical_each
    | intro _
    | split
    | dsimp only

theorem canonical_busMonClr (data : Sys2Proof.Word) {s : Device} (hs : s.Canonical sz) :
    (busMonClr data s).Canonical sz := by
  unfold busMonClr
  repeat' first
    | with_reducible assumption
    | with_reducible apply Device.canonical_setBusClr
    | with_reducible apply Device.canonical_ite
    | intro _
    | split
    | dsimp only

theorem canonical_expireLease (g : ℕ) {s : Device} (hs : s.Canonical sz) :
    (expireLease g s).Canonical sz := by
  unfold expireLease
  repeat' first
    | with_reducible assumption
    | with_reducible apply Device.canonical_modLease
    | with_reducible apply canonical_logEvent
    | with_reducible apply Device.canonical_pset
    | with_reducible apply Device.canonical_ite
    | intro _
    | split
    | dsimp only

theorem canonical_arbGrants (k : ℕ) {s : Device} (h : s.Canonical sz) : (arbGrants k s).Canonical sz := by
  have hf : ∀ (l : List ℕ) (a : ℤ × Device), a.2.Canonical sz → (l.foldl (fun a w => arbWaiting k w a) a).2.Canonical sz := by
    intro l
    induction l with
    | nil => exact fun _ h => h
    | cons w t ih => exact fun a h => ih _ (canonical_arbWaiting k w a h)
  exact hf _ _ h

theorem canonical_freezePoint (k : ℕ) {s : Device} (hs : s.Canonical sz) :
    (freezePoint k s).Canonical sz := by
  unfold freezePoint
  repeat' first
    | with_reducible assumption
    | with_reducible apply canonical_countLease
    | with_reducible apply canonical_expireLease
    | with_reducible apply canonical_freezeWrites
    | with_reducible apply canonical_arbPauses
    | with_reducible apply canonical_busSums
    | with_reducible apply canonical_arbGrants
    | with_reducible apply Device.canonical_ite
    | with_reducible apply Device.canonical_each
    | intro _
    | split
    | dsimp only

theorem canonical_leaseDecision (d : ℕ) {s : Device} (hs : s.Canonical sz) :
    (leaseDecision d s).Canonical sz := by
  unfold leaseDecision
  repeat' first
    | with_reducible assumption
    | with_reducible apply canonical_decide1
    | with_reducible apply canonical_acirEvent
    | with_reducible apply Device.canonical_ite
    | with_reducible apply Device.canonical_each
    | intro _
    | split
    | dsimp only

theorem canonical_fitSet {s : Device} (hs : s.Canonical sz) :
    (fitSet s).Canonical sz := by
  unfold fitSet
  repeat' first
    | with_reducible assumption
    | with_reducible apply Device.canonical_pset
    | with_reducible apply Device.canonical_ite
    | intro _
    | split
    | dsimp only

/-! Calib. -/

theorem canonical_putConst (off : ℕ) (f : Fld Blk.ch) (k : Const) (g : ℕ) {s : Device} (hs : s.Canonical sz) :
    (putConst off f k g s).Canonical sz := by
  unfold putConst
  repeat' first
    | with_reducible assumption
    | with_reducible apply Device.canonical_cset
    | with_reducible apply Device.canonical_setReg
    | intro _
    | split
    | dsimp only

theorem canonical_putThree (h : Const) (l : Const) (kv : Const) (g : ℕ) {s : Device} (hs : s.Canonical sz) :
    (putThree h l kv g s).Canonical sz := by
  unfold putThree
  repeat' first
    | with_reducible assumption
    | with_reducible apply canonical_putConst
    | intro _
    | split
    | dsimp only

theorem canonical_putKe (ke : Option Const) (g : ℕ) {s : Device} (h : s.Canonical sz) :
    ∀ t, putKe ke g s = some t → t.Canonical sz := by
  intro t ht
  unfold putKe at ht
  split at ht
  · exact Option.some.inj ht ▸ h
  · cases ke with
    | none => simp at ht
    | some k => exact Option.some.inj ht ▸ canonical_putConst _ _ _ _ h

theorem canonical_foldWords (g : ℕ) {s : Device} (h : s.Canonical sz) : ∀ t, foldWords g s = some t → t.Canonical sz := by
  intro t ht
  obtain ⟨p, -, ht⟩ := Option.bind_eq_some_iff.mp ht
  exact canonical_putKe _ _ (canonical_putThree _ _ _ _ h) t ht

theorem canonical_foldRest (c : Conv) (v : Sys2Proof.PairCal) (g : ℕ) {t : Device} (ht : t.Canonical sz) :
    (foldRest c v g t).Canonical sz := by
  unfold foldRest
  repeat' first
    | with_reducible assumption
    | with_reducible apply Device.canonical_setReg
    | with_reducible apply Device.canonical_cset
    | with_reducible apply canonical_resetLive
    | with_reducible apply canonical_dsetBit
    | intro _
    | split
    | dsimp only

theorem Device.canonical_getD {o : Option Device} {f : Device → Device} {s : Device} (h : s.Canonical sz)
    (ho : ∀ t, o = some t → t.Canonical sz) (hf : ∀ t, t.Canonical sz → (f t).Canonical sz) : ((o.map f).getD s).Canonical sz := by
  cases o with
  | none => exact h
  | some t => exact hf t (ho t rfl)

theorem canonical_foldNow (g : ℕ) {s : Device} (h : s.Canonical sz) : (foldNow g s).Canonical sz := by
  unfold foldNow
  split
  · exact h
  · exact Device.canonical_getD h (canonical_foldWords g h) fun t ht => canonical_foldRest _ _ _ ht

theorem canonical_calRefuse (code : ℕ) (g : ℕ) {s : Device} (hs : s.Canonical sz) :
    (calRefuse code g s).Canonical sz := by
  unfold calRefuse
  repeat' first
    | with_reducible assumption
    | with_reducible apply Device.canonical_cset
    | intro _
    | split
    | dsimp only

theorem canonical_calQueue (k : ℕ) (w : Sys2Proof.Word) (g : ℕ) {s : Device} (hs : s.Canonical sz) :
    (calQueue k w g s).Canonical sz := by
  unfold calQueue
  repeat' first
    | with_reducible assumption
    | with_reducible apply Device.canonical_modDue
    | with_reducible apply Device.canonical_ite
    | intro _
    | split
    | dsimp only

theorem canonical_calFold (data : Sys2Proof.Word) (g : ℕ) {s : Device} (hs : s.Canonical sz) :
    (calFold data g s).Canonical sz := by
  unfold calFold
  repeat' first
    | with_reducible assumption
    | with_reducible apply canonical_calRefuse
    | with_reducible apply canonical_calQueue
    | with_reducible apply Device.canonical_ite
    | intro _
    | split
    | dsimp only

theorem canonical_applyWords (both : Bool) (g : ℕ) {s : Device} (h : s.Canonical sz) :
    ∀ t, applyWords both g s = some t → t.Canonical sz := by
  have hf : ∀ (l : List Bool) (o : Option Device), (∀ t, o = some t → t.Canonical sz) → ∀ t,
      l.foldl (fun o low => o.bind fun t =>
        (runConst s g low).map fun k => putConst (kqField low).1 (kqField low).2 k g t) o = some t → t.Canonical sz := by
    intro l
    induction l with
    | nil => exact fun _ h => h
    | cons b l ih =>
      refine fun o h => ih _ ?_
      intro t ht
      cases o with
      | none => simp at ht
      | some u =>
        simp only [Option.bind_some, Option.map_eq_some_iff] at ht
        obtain ⟨k, -, rfl⟩ := ht
        exact canonical_putConst _ _ _ _ (h u rfl)
  exact hf _ _ (fun t ht => by cases ht; exact h)

theorem canonical_applyNow (both : Bool) (g : ℕ) {s : Device} (h : s.Canonical sz) : (applyNow both g s).Canonical sz := by
  unfold applyNow
  split
  · exact Device.canonical_cset _ _ _ (Device.canonical_cset _ _ _ (canonical_applyWords both g h _ ‹_›))
  · exact h

theorem canonical_writtenActs (g : ℕ) {s : Device} (hs : s.Canonical sz) :
    (writtenActs g s).1.Canonical sz := by
  unfold writtenActs
  repeat' first
    | with_reducible assumption
    | with_reducible apply canonical_baseReset
    | with_reducible apply canonical_forceConsts
    | (refine Device.canonical_fst (by with_reducible assumption) ?_; with_reducible apply canonical_constAct)
    | with_reducible apply canonical_constAct
    | intro _
    | split
    | dsimp only

theorem canonical_calAct (a : ℕ × Sys2Proof.Word) (g : ℕ) {s : Device} (hs : s.Canonical sz) :
    (calAct a g s).Canonical sz := by
  unfold calAct
  repeat' first
    | with_reducible assumption
    | with_reducible apply canonical_calRefuse
    | with_reducible apply canonical_applyNow
    | with_reducible apply canonical_foldNow
    | with_reducible apply canonical_baseReset
    | with_reducible apply Device.canonical_setReg
    | with_reducible apply Device.canonical_ite
    | intro _
    | split
    | dsimp only

theorem canonical_calActList (g : ℕ) (l : List (ℕ × Word)) {s : Device} (c : ℕ) (h : s.Canonical sz) : (calActList g l s c).1.Canonical sz := by
  induction l generalizing s c with
  | nil => exact h
  | cons a l ih =>
    have h1 := canonical_constAct (calCause a) (fun g t => forceConsts g (calAct a g t)) g c (fun _ _ ht => canonical_forceConsts _ (canonical_calAct _ _ ht)) h
    rw [calActList]
    generalize constAct (calCause a) (fun g t => forceConsts g (calAct a g t)) g s c = q at h1 ⊢
    exact ih _ h1

theorem canonical_calActs (g : ℕ) {s : Device} (hs : s.Canonical sz) :
    (calActs g s).1.Canonical sz := by
  unfold calActs
  repeat' first
    | with_reducible assumption
    | with_reducible apply Device.canonical_setReg
    | with_reducible apply Device.canonical_modDue
    | (refine Device.canonical_fst (by with_reducible assumption) ?_; with_reducible apply canonical_writtenActs)
    | with_reducible apply canonical_writtenActs
    | (refine Device.canonical_fst (by with_reducible assumption) ?_; with_reducible apply canonical_calActList)
    | with_reducible apply canonical_calActList
    | with_reducible apply Device.canonical_foldl
    | intro _
    | split
    | dsimp only

theorem canonical_constBoundary (g : ℕ) {s : Device} (hs : s.Canonical sz) :
    (constBoundary g s).Canonical sz := by
  unfold constBoundary
  repeat' first
    | with_reducible assumption
    | with_reducible apply canonical_startConsts
    | with_reducible apply Device.canonical_modDue
    | with_reducible apply canonical_constClose
    | (refine Device.canonical_fst (by with_reducible assumption) ?_; with_reducible apply canonical_writtenActs)
    | with_reducible apply canonical_writtenActs
    | (refine Device.canonical_fst (by with_reducible assumption) ?_; with_reducible apply canonical_calActs)
    | with_reducible apply canonical_calActs
    | with_reducible apply Device.canonical_ite
    | intro _
    | split
    | dsimp only

theorem canonical_calApply (data : Sys2Proof.Word) (g : ℕ) {s : Device} (hs : s.Canonical sz) :
    (calApply data g s).Canonical sz := by
  unfold calApply
  repeat' first
    | with_reducible assumption
    | with_reducible apply canonical_calRefuse
    | with_reducible apply canonical_calQueue
    | with_reducible apply Device.canonical_ite
    | intro _
    | split
    | dsimp only

theorem canonical_runRecord (qRef : ℤ) (qDev : ℤ) (net : ℤ) (causes : ℕ) (g : ℕ) {s : Device} (hs : s.Canonical sz) :
    (runRecord qRef qDev net causes g s).Canonical sz := by
  unfold runRecord
  repeat' first
    | with_reducible assumption
    | with_reducible apply Device.canonical_modConv
    | with_reducible apply Device.canonical_cset
    | with_reducible apply Device.canonical_ite
    | intro _
    | split
    | dsimp only

/-! Valve. -/

theorem canonical_clampOt (d : ℕ) {s : Device} (hs : s.Canonical sz) :
    (clampOt d s).Canonical sz := by
  unfold clampOt
  repeat' first
    | with_reducible assumption
    | with_reducible apply canonical_logEvent
    | with_reducible apply Device.canonical_dset
    | with_reducible apply Device.canonical_ite
    | intro _
    | split
    | dsimp only

theorem canonical_clampOtClear (d : ℕ) {s : Device} (hs : s.Canonical sz) :
    (clampOtClear d s).Canonical sz := by
  unfold clampOtClear
  repeat' first
    | with_reducible assumption
    | with_reducible apply Device.canonical_dset
    | intro _
    | split
    | dsimp only

theorem canonical_vset (v : ℕ) (f : Fld Blk.die) (x : ℕ) {s : Device} (hs : s.Canonical sz) :
    (vset v f x s).Canonical sz := by
  unfold vset
  repeat' first
    | with_reducible assumption
    | with_reducible apply Device.canonical_dset
    | intro _
    | split
    | dsimp only

theorem canonical_bankPending (d : ℕ) {s : Device} (hs : s.Canonical sz) :
    (bankPending d s).Canonical sz := by
  unfold bankPending
  repeat' first
    | with_reducible assumption
    | with_reducible apply Device.canonical_dset
    | with_reducible apply canonical_vset
    | with_reducible apply Device.canonical_ite
    | with_reducible apply Device.canonical_each
    | intro _
    | split
    | dsimp only

theorem canonical_valveRefuse (code : ℕ) (v : ℕ) (pt : ℕ) (seat : Option ℕ) {s : Device} (hs : s.Canonical sz) :
    (valveRefuse code v pt seat s).Canonical sz := by
  unfold valveRefuse
  repeat' first
    | with_reducible assumption
    | with_reducible apply Device.canonical_dinc
    | with_reducible apply canonical_vset
    | with_reducible apply Device.canonical_pset
    | with_reducible apply canonical_logEvent
    | with_reducible apply canonical_reseatRefused
    | with_reducible apply Device.canonical_ite
    | intro _
    | split
    | dsimp only

theorem canonical_valveAccept (v : ℕ) (on : Bool) (pt : ℕ) (seat : Option ℕ) {s : Device} (hs : s.Canonical sz) :
    (valveAccept v on pt seat s).Canonical sz := by
  unfold valveAccept
  repeat' first
    | with_reducible assumption
    | with_reducible apply canonical_valveRefuse
    | with_reducible apply canonical_bankPending
    | with_reducible apply Device.canonical_ite
    | with_reducible apply Device.canonical_mk
    | with_reducible apply Device.ring_set
    | with_reducible apply rfWf_set
    | with_reducible apply Device.Canonical.regs
    | with_reducible apply Device.Canonical.shadow
    | with_reducible apply Device.Canonical.force
    | with_reducible apply Device.Canonical.flash
    | with_reducible apply Device.Canonical.buf
    | with_reducible apply Device.Canonical.size
    | with_reducible apply Device.Canonical.chans
    | with_reducible apply Device.Canonical.dies
    | with_reducible apply Device.Canonical.ring
    | with_reducible apply Device.Canonical.posting
    | intro _
    | split
    | dsimp only

theorem canonical_valveReq (v : ℕ) (on : Bool) (now : Bool) {s : Device} (hs : s.Canonical sz) :
    (valveReq v on now s).Canonical sz := by
  unfold valveReq
  repeat' first
    | with_reducible assumption
    | with_reducible apply canonical_valveAccept
    | with_reducible apply Device.canonical_ite
    | intro _
    | split
    | dsimp only

theorem canonical_modCoil (v : ℕ) (f : Coil → Coil) {s : Device} (hs : s.Canonical sz) :
    (modCoil v f s).Canonical sz := by
  unfold modCoil
  repeat' first
    | with_reducible assumption
    | with_reducible apply Device.canonical_modDie
    | intro _
    | split
    | dsimp only

theorem canonical_bankRow (d : ℕ) {s : Device} (hs : s.Canonical sz) :
    (bankRow d s).Canonical sz := by
  unfold bankRow
  repeat' first
    | with_reducible assumption
    | with_reducible apply Device.canonical_modDie
    | with_reducible apply Device.canonical_dset
    | with_reducible apply canonical_vset
    | with_reducible apply Device.canonical_ite
    | with_reducible apply Device.canonical_each
    | intro _
    | split
    | dsimp only

theorem canonical_setValvePhase (p : ℕ) (v : ℕ) {s : Device} (hs : s.Canonical sz) :
    (setValvePhase p v s).Canonical sz := by
  unfold setValvePhase
  repeat' first
    | with_reducible assumption
    | with_reducible apply canonical_modCoil
    | with_reducible apply canonical_vset
    | with_reducible apply canonical_bankRow
    | intro _
    | split
    | dsimp only

theorem canonical_dropToHold (v : ℕ) {s : Device} (hs : s.Canonical sz) :
    (dropToHold v s).Canonical sz := by
  unfold dropToHold
  repeat' first
    | with_reducible assumption
    | with_reducible apply canonical_setValvePhase
    | with_reducible apply canonical_vset
    | with_reducible apply Device.canonical_ite
    | intro _
    | split
    | dsimp only

theorem canonical_vreqDrop (r : VReq) {s : Device} (hs : s.Canonical sz) :
    (vreqDrop r s).Canonical sz := by
  unfold vreqDrop
  repeat' first
    | with_reducible assumption
    | with_reducible apply canonical_bankPending
    | with_reducible apply Device.canonical_mk
    | with_reducible apply Device.ring_set
    | with_reducible apply rfWf_set
    | with_reducible apply Device.Canonical.regs
    | with_reducible apply Device.Canonical.shadow
    | with_reducible apply Device.Canonical.force
    | with_reducible apply Device.Canonical.flash
    | with_reducible apply Device.Canonical.buf
    | with_reducible apply Device.Canonical.size
    | with_reducible apply Device.Canonical.chans
    | with_reducible apply Device.Canonical.dies
    | with_reducible apply Device.Canonical.ring
    | with_reducible apply Device.Canonical.posting
    | intro _
    | split
    | dsimp only

theorem canonical_valveBatons {s : Device} (hs : s.Canonical sz) :
    (valveBatons s).Canonical sz := by
  unfold valveBatons
  repeat' first
    | with_reducible assumption
    | with_reducible apply Device.canonical_pset
    | with_reducible apply Device.canonical_ite
    | with_reducible apply Device.canonical_foldl
    | intro _
    | split
    | dsimp only

theorem canonical_pullStart (r : VReq) {s : Device} (hs : s.Canonical sz) :
    (pullStart r s).Canonical sz := by
  unfold pullStart
  repeat' first
    | with_reducible assumption
    | with_reducible apply canonical_setValvePhase
    | with_reducible apply canonical_vreqDrop
    | with_reducible apply canonical_modCoil
    | with_reducible apply canonical_valveBatons
    | with_reducible apply Device.canonical_setBanks
    | with_reducible apply Device.canonical_setGrants
    | intro _
    | split
    | dsimp only

theorem canonical_pullFree (v : ℕ) {s : Device} (hs : s.Canonical sz) :
    (pullFree v s).Canonical sz := by
  unfold pullFree
  repeat' first
    | with_reducible assumption
    | with_reducible apply Device.canonical_modDie
    | with_reducible apply canonical_valveBatons
    | with_reducible apply Device.canonical_setBanks
    | with_reducible apply Device.canonical_setGrants
    | intro _
    | split
    | dsimp only

theorem canonical_releaseValve (latched : Bool) (v : ℕ) {s : Device} (hs : s.Canonical sz) :
    (releaseValve latched v s).Canonical sz := by
  unfold releaseValve
  repeat' first
    | with_reducible assumption
    | with_reducible apply canonical_pullFree
    | with_reducible apply canonical_setValvePhase
    | with_reducible apply canonical_modCoil
    | with_reducible apply Device.canonical_ite
    | intro _
    | split
    | dsimp only

theorem canonical_valveDiag (f : Fld Blk.die) (code : ℕ) (v : ℕ) {s : Device} (hs : s.Canonical sz) :
    (valveDiag f code v s).Canonical sz := by
  unfold valveDiag
  repeat' first
    | with_reducible assumption
    | with_reducible apply canonical_logEvent
    | with_reducible apply canonical_vset
    | with_reducible apply canonical_releaseValve
    | with_reducible apply Device.canonical_ite
    | intro _
    | split
    | dsimp only

theorem canonical_valveShort (v : ℕ) {s : Device} (hs : s.Canonical sz) :
    (valveShort v s).Canonical sz := by
  unfold valveShort
  repeat' first
    | with_reducible assumption
    | with_reducible apply canonical_valveDiag
    | intro _
    | split
    | dsimp only

theorem canonical_boostWritten (was : Bool) {s : Device} (hs : s.Canonical sz) :
    (boostWritten was s).Canonical sz := by
  unfold boostWritten
  repeat' first
    | with_reducible assumption
    | with_reducible apply Device.canonical_modSup
    | with_reducible apply Device.canonical_ite
    | intro _
    | split
    | dsimp only

theorem canonical_stateValves {s : Device} (hs : s.Canonical sz) :
    (stateValves s).Canonical sz := by
  unfold stateValves
  repeat' first
    | with_reducible assumption
    | with_reducible apply canonical_bankRow
    | with_reducible apply Device.canonical_each
    | intro _
    | split
    | dsimp only

theorem canonical_vreqRefuse (code : ℕ) (r : VReq) {s : Device} (hs : s.Canonical sz) :
    (vreqRefuse code r s).Canonical sz := by
  unfold vreqRefuse
  repeat' first
    | with_reducible assumption
    | with_reducible apply canonical_valveRefuse
    | with_reducible apply canonical_vreqDrop
    | intro _
    | split
    | dsimp only

theorem canonical_valvesHusk (d : ℕ) {s : Device} (hs : s.Canonical sz) :
    (valvesHusk d s).Canonical sz := by
  unfold valvesHusk
  repeat' first
    | with_reducible assumption
    | with_reducible apply canonical_setValvePhase
    | with_reducible apply canonical_vreqRefuse
    | with_reducible apply Device.canonical_ite
    | with_reducible apply Device.canonical_foldl
    | with_reducible apply Device.canonical_each
    | intro _
    | split
    | dsimp only

theorem canonical_clampTest (v : ℕ) {s : Device} (hs : s.Canonical sz) :
    (clampTest v s).Canonical sz := by
  unfold clampTest
  repeat' first
    | with_reducible assumption
    | with_reducible apply canonical_vset
    | with_reducible apply Device.canonical_setReg
    | with_reducible apply Device.canonical_ite
    | intro _
    | split
    | dsimp only

theorem canonical_vbstCfgWrite (data : Sys2Proof.Word) {s : Device} (hs : s.Canonical sz) :
    (vbstCfgWrite data s).Canonical sz := by
  unfold vbstCfgWrite
  repeat' first
    | with_reducible assumption
    | with_reducible apply canonical_boostWritten
    | with_reducible apply canonical_clampTest
    | with_reducible apply Device.canonical_setReg
    | with_reducible apply Device.canonical_ite
    | with_reducible apply Device.canonical_each
    | intro _
    | split
    | dsimp only

theorem canonical_seatDone (seat : Option ℕ) (p : Seat) {s : Device} (hs : s.Canonical sz) :
    (seatDone seat p s).Canonical sz := by
  unfold seatDone
  repeat' first
    | with_reducible assumption
    | with_reducible apply Device.canonical_modEng
    | with_reducible apply Device.canonical_ite
    | intro _
    | split
    | dsimp only

theorem canonical_offDue (r : VReq) {s : Device} (hs : s.Canonical sz) :
    (offDue r s).Canonical sz := by
  unfold offDue
  repeat' first
    | with_reducible assumption
    | with_reducible apply canonical_vreqDrop
    | with_reducible apply canonical_vreqRefuse
    | with_reducible apply canonical_releaseValve
    | with_reducible apply canonical_seatDone
    | with_reducible apply Device.canonical_ite
    | intro _
    | split
    | dsimp only

theorem canonical_vreqMod (r : VReq) (f : VReq → VReq) {s : Device} (hs : s.Canonical sz) :
    (vreqMod r f s).Canonical sz := by
  unfold vreqMod
  repeat' first
    | with_reducible assumption
    | with_reducible apply Device.canonical_ite
    | with_reducible apply Device.canonical_mk
    | with_reducible apply Device.ring_set
    | with_reducible apply rfWf_set
    | with_reducible apply Device.Canonical.regs
    | with_reducible apply Device.Canonical.shadow
    | with_reducible apply Device.Canonical.force
    | with_reducible apply Device.Canonical.flash
    | with_reducible apply Device.Canonical.buf
    | with_reducible apply Device.Canonical.size
    | with_reducible apply Device.Canonical.chans
    | with_reducible apply Device.Canonical.dies
    | with_reducible apply Device.Canonical.ring
    | with_reducible apply Device.Canonical.posting
    | intro _
    | split
    | dsimp only

theorem canonical_onDue (r : VReq) {s : Device} (hs : s.Canonical sz) :
    (onDue r s).Canonical sz := by
  unfold onDue
  repeat' first
    | with_reducible assumption
    | with_reducible apply canonical_seatDone
    | with_reducible apply canonical_vreqDrop
    | with_reducible apply canonical_vreqRefuse
    | with_reducible apply canonical_vreqMod
    | with_reducible apply canonical_pullStart
    | with_reducible apply Device.canonical_dinc
    | with_reducible apply Device.canonical_ite
    | intro _
    | split
    | dsimp only

theorem canonical_valveEvent (v : ℕ) (on : Bool) {s : Device} (hs : s.Canonical sz) :
    (valveEvent v on s).Canonical sz := by
  unfold valveEvent
  repeat' first
    | with_reducible assumption
    | with_reducible apply canonical_onDue
    | with_reducible apply canonical_offDue
    | with_reducible apply Device.canonical_ite
    | intro _
    | split
    | dsimp only

theorem canonical_valveCfgWrite (v : ℕ) (data : Sys2Proof.Word) {s : Device} (hs : s.Canonical sz) :
    (valveCfgWrite v data s).Canonical sz := by
  unfold valveCfgWrite
  repeat' first
    | with_reducible assumption
    | with_reducible apply Device.canonical_setReg
    | intro _
    | split
    | dsimp only

theorem canonical_valveSeatReq (g : ℕ) (on : Bool) {s : Device} (hs : s.Canonical sz) :
    (valveSeatReq g on s).Canonical sz := by
  unfold valveSeatReq
  repeat' first
    | with_reducible assumption
    | with_reducible apply canonical_valveAccept
    | intro _
    | split
    | dsimp only

theorem canonical_handoverValves {s : Device} (hs : s.Canonical sz) :
    (handoverValves s).Canonical sz := by
  unfold handoverValves
  repeat' first
    | with_reducible assumption
    | with_reducible apply canonical_releaseValve
    | with_reducible apply canonical_bankRow
    | with_reducible apply Device.canonical_ite
    | with_reducible apply Device.canonical_each
    | intro _
    | split
    | dsimp only

theorem canonical_boostOv {s : Device} (hs : s.Canonical sz) :
    (boostOv s).Canonical sz := by
  unfold boostOv
  repeat' first
    | with_reducible assumption
    | with_reducible apply Device.canonical_pset
    | intro _
    | split
    | dsimp only

theorem canonical_valveSlow (v : ℕ) {s : Device} (hs : s.Canonical sz) :
    (valveSlow v s).Canonical sz := by
  unfold valveSlow
  repeat' first
    | with_reducible assumption
    | with_reducible apply canonical_valveDiag
    | with_reducible apply Device.canonical_ite
    | intro _
    | split
    | dsimp only

theorem canonical_valveBatonExpiry (b : Sys2Proof.ValveBaton) {s : Device} (hs : s.Canonical sz) :
    (valveBatonExpiry b s).Canonical sz := by
  unfold valveBatonExpiry
  repeat' first
    | with_reducible assumption
    | with_reducible apply canonical_logEvent
    | with_reducible apply canonical_valveBatons
    | with_reducible apply Device.canonical_pset
    | with_reducible apply Device.canonical_setBanks
    | with_reducible apply Device.canonical_setGrants
    | with_reducible apply Device.canonical_ite
    | intro _
    | split
    | dsimp only

theorem canonical_storeRelease {s : Device} (hs : s.Canonical sz) :
    (storeRelease s).Canonical sz := by
  unfold storeRelease
  repeat' first
    | with_reducible assumption
    | with_reducible apply Device.canonical_modSup
    | with_reducible apply canonical_releaseValve
    | with_reducible apply canonical_logEvent
    | with_reducible apply canonical_vset
    | with_reducible apply Device.canonical_ite
    | intro _
    | split
    | dsimp only

theorem canonical_valveCleared (v : ℕ) {s : Device} (hs : s.Canonical sz) :
    (valveCleared v s).Canonical sz := by
  unfold valveCleared
  repeat' first
    | with_reducible assumption
    | with_reducible apply canonical_setValvePhase
    | with_reducible apply canonical_modCoil
    | with_reducible apply Device.canonical_ite
    | intro _
    | split
    | dsimp only

theorem canonical_pullInStart (v : ℕ) {s : Device} (hs : s.Canonical sz) :
    (pullInStart v s).Canonical sz := by
  unfold pullInStart
  repeat' first
    | with_reducible assumption
    | with_reducible apply canonical_onDue
    | with_reducible apply Device.canonical_ite
    | intro _
    | split
    | dsimp only

theorem canonical_chopPeriod (v : ℕ) (imeas : ℕ) {s : Device} (hs : s.Canonical sz) :
    (chopPeriod v imeas s).Canonical sz := by
  unfold chopPeriod
  repeat' first
    | with_reducible assumption
    | with_reducible apply canonical_vset
    | with_reducible apply canonical_modCoil
    | with_reducible apply Device.canonical_ite
    | intro _
    | split
    | dsimp only

theorem canonical_valveOpen (v : ℕ) {s : Device} (hs : s.Canonical sz) :
    (valveOpen v s).Canonical sz := by
  unfold valveOpen
  repeat' first
    | with_reducible assumption
    | with_reducible apply canonical_valveDiag
    | with_reducible apply Device.canonical_ite
    | intro _
    | split
    | dsimp only

theorem canonical_valveSlip (v : ℕ) {s : Device} (hs : s.Canonical sz) :
    (valveSlip v s).Canonical sz := by
  unfold valveSlip
  repeat' first
    | with_reducible assumption
    | with_reducible apply canonical_vreqRefuse
    | with_reducible apply Device.canonical_ite
    | intro _
    | split
    | dsimp only

theorem canonical_pullEnd (d : ℕ) {s : Device} (hs : s.Canonical sz) :
    (pullEnd d s).Canonical sz := by
  unfold pullEnd
  repeat' first
    | with_reducible assumption
    | with_reducible apply canonical_seatDone
    | with_reducible apply canonical_modCoil
    | with_reducible apply canonical_setValvePhase
    | with_reducible apply canonical_pullFree
    | with_reducible apply Device.canonical_ite
    | intro _
    | split
    | dsimp only

theorem canonical_valveModeWrite (v : ℕ) (data : Sys2Proof.Word) {s : Device} (hs : s.Canonical sz) :
    (valveModeWrite v data s).Canonical sz := by
  unfold valveModeWrite
  repeat' first
    | with_reducible assumption
    | with_reducible apply canonical_clampTest
    | with_reducible apply Device.canonical_setReg
    | intro _
    | split
    | dsimp only

theorem canonical_releaseToOff (v : ℕ) {s : Device} (hs : s.Canonical sz) :
    (releaseToOff v s).Canonical sz := by
  unfold releaseToOff
  repeat' first
    | with_reducible assumption
    | with_reducible apply canonical_valveCleared
    | with_reducible apply canonical_vset
    | with_reducible apply canonical_setValvePhase
    | with_reducible apply Device.canonical_ite
    | intro _
    | split
    | dsimp only

theorem canonical_schedulerStart {s : Device} (hs : s.Canonical sz) :
    (schedulerStart s).Canonical sz := by
  unfold schedulerStart
  repeat' first
    | with_reducible assumption
    | with_reducible apply canonical_valveBatons
    | with_reducible apply canonical_bankPending
    | with_reducible apply Device.canonical_each
    | with_reducible apply Device.canonical_mk
    | with_reducible apply Device.ring_set
    | with_reducible apply rfWf_set
    | with_reducible apply Device.Canonical.regs
    | with_reducible apply Device.Canonical.shadow
    | with_reducible apply Device.Canonical.force
    | with_reducible apply Device.Canonical.flash
    | with_reducible apply Device.Canonical.buf
    | with_reducible apply Device.Canonical.size
    | with_reducible apply Device.Canonical.chans
    | with_reducible apply Device.Canonical.dies
    | with_reducible apply Device.Canonical.ring
    | with_reducible apply Device.Canonical.posting
    | intro _
    | split
    | dsimp only

/-! Supply. -/

theorem canonical_supplyForce {s : Device} (hs : s.Canonical sz) :
    (supplyForce s).Canonical sz := by
  unfold supplyForce
  repeat' first
    | with_reducible assumption
    | with_reducible apply Device.canonical_pforce
    | with_reducible apply Device.canonical_each
    | intro _
    | split
    | dsimp only

theorem canonical_modSeq (f : Seq → Seq) {s : Device} (hs : s.Canonical sz) :
    (modSeq f s).Canonical sz := by
  unfold modSeq
  repeat' first
    | with_reducible assumption
    | with_reducible apply Device.canonical_modSup
    | intro _
    | split
    | dsimp only

theorem canonical_seqEnd (code : ℕ) {s : Device} (hs : s.Canonical sz) :
    (seqEnd code s).Canonical sz := by
  unfold seqEnd
  repeat' first
    | with_reducible assumption
    | with_reducible apply canonical_modSeq
    | with_reducible apply Device.canonical_pset
    | intro _
    | split
    | dsimp only

theorem canonical_railOff1 (r : ℕ) {s : Device} (hs : s.Canonical sz) :
    (railOff1 r s).Canonical sz := by
  unfold railOff1
  repeat' first
    | with_reducible assumption
    | with_reducible apply Device.canonical_modSar
    | with_reducible apply Device.canonical_psetBit
    | with_reducible apply Device.canonical_pset
    | intro _
    | split
    | dsimp only

theorem canonical_depC {s : Device} (hs : s.Canonical sz) :
    (depC s).Canonical sz := by
  unfold depC
  repeat' first
    | with_reducible assumption
    | with_reducible apply Device.canonical_pset
    | with_reducible apply canonical_railOff1
    | with_reducible apply Device.canonical_ite
    | intro _
    | split
    | dsimp only

theorem canonical_railOff (r : ℕ) {s : Device} (hs : s.Canonical sz) :
    (railOff r s).Canonical sz := by
  unfold railOff
  repeat' first
    | with_reducible assumption
    | with_reducible apply canonical_railOff1
    | with_reducible apply canonical_depC
    | with_reducible apply Device.canonical_ite
    | intro _
    | split
    | dsimp only

theorem canonical_seqOffNext {s : Device} (hs : s.Canonical sz) :
    (seqOffNext s).Canonical sz := by
  unfold seqOffNext
  repeat' first
    | with_reducible assumption
    | with_reducible apply canonical_seqEnd
    | with_reducible apply canonical_modSeq
    | with_reducible apply canonical_railOff
    | intro _
    | split
    | dsimp only

theorem canonical_seqOff (set : List ℕ) {s : Device} (hs : s.Canonical sz) :
    (seqOff set s).Canonical sz := by
  unfold seqOff
  repeat' first
    | with_reducible assumption
    | with_reducible apply canonical_seqOffNext
    | with_reducible apply canonical_modSeq
    | with_reducible apply Device.canonical_pset
    | intro _
    | split
    | dsimp only

theorem canonical_seqOffHold {s : Device} (hs : s.Canonical sz) :
    (seqOffHold s).Canonical sz := by
  unfold seqOffHold
  repeat' first
    | with_reducible assumption
    | with_reducible apply canonical_seqOff
    | with_reducible apply canonical_modSeq
    | intro _
    | split
    | dsimp only

theorem canonical_railOn (r : ℕ) {s : Device} (hs : s.Canonical sz) :
    (railOn r s).Canonical sz := by
  unfold railOn
  repeat' first
    | with_reducible assumption
    | with_reducible apply Device.canonical_modSar
    | with_reducible apply Device.canonical_pset
    | with_reducible apply Device.canonical_modSup
    | with_reducible apply Device.canonical_ite
    | intro _
    | split
    | dsimp only

theorem canonical_seqNext {s : Device} (hs : s.Canonical sz) :
    (seqNext s).Canonical sz := by
  unfold seqNext
  repeat' first
    | with_reducible assumption
    | with_reducible apply canonical_modSeq
    | with_reducible apply canonical_seqEnd
    | intro _
    | split
    | dsimp only

theorem canonical_seqAdvance {s : Device} (hs : s.Canonical sz) :
    (seqAdvance s).Canonical sz := by
  unfold seqAdvance
  repeat' first
    | with_reducible assumption
    | with_reducible apply canonical_seqNext
    | with_reducible apply Device.canonical_ite
    | intro _
    | split
    | dsimp only

theorem canonical_seqDelay {s : Device} (hs : s.Canonical sz) :
    (seqDelay s).Canonical sz := by
  unfold seqDelay
  repeat' first
    | with_reducible assumption
    | with_reducible apply canonical_seqOffNext
    | with_reducible apply canonical_modSeq
    | with_reducible apply Device.canonical_pset
    | with_reducible apply canonical_seqEnd
    | with_reducible apply canonical_railOn
    | with_reducible apply canonical_seqAdvance
    | with_reducible apply Device.canonical_ite
    | with_reducible apply Device.canonical_each
    | intro _
    | split
    | dsimp only

theorem canonical_railLatch (ov : Bool) (r : ℕ) (mv : ℕ) {s : Device} (hs : s.Canonical sz) :
    (railLatch ov r mv s).Canonical sz := by
  unfold railLatch
  repeat' first
    | with_reducible assumption
    | with_reducible apply canonical_railOff
    | with_reducible apply Device.canonical_pset
    | with_reducible apply canonical_logEvent
    | with_reducible apply canonical_seqEnd
    | with_reducible apply Device.canonical_ite
    | intro _
    | split
    | dsimp only

theorem canonical_railReading (r : ℕ) (mv : ℕ) {s : Device} (hs : s.Canonical sz) :
    (railReading r mv s).Canonical sz := by
  unfold railReading
  repeat' first
    | with_reducible assumption
    | with_reducible apply canonical_railLatch
    | with_reducible apply Device.canonical_modSup
    | with_reducible apply Device.canonical_modSar
    | with_reducible apply Device.canonical_psetBit
    | with_reducible apply canonical_seqAdvance
    | with_reducible apply canonical_depC
    | with_reducible apply Device.canonical_ite
    | intro _
    | split
    | dsimp only

theorem canonical_ikeepMeasured (ikeep : ℤ) {s : Device} (hs : s.Canonical sz) :
    (ikeepMeasured ikeep s).Canonical sz := by
  unfold ikeepMeasured
  repeat' first
    | with_reducible assumption
    | with_reducible apply Device.canonical_pset
    | with_reducible apply Device.canonical_modSup
    | intro _
    | split
    | dsimp only

theorem canonical_ikeepOpen {s : Device} (hs : s.Canonical sz) :
    (ikeepOpen s).Canonical sz := by
  unfold ikeepOpen
  repeat' first
    | with_reducible assumption
    | with_reducible apply Device.canonical_nextFree
    | with_reducible apply canonical_ikeepMeasured
    | with_reducible apply Device.canonical_ite
    | intro _
    | split
    | dsimp only

theorem canonical_auxOnWrite (data : Sys2Proof.Word) {s : Device} (hs : s.Canonical sz) :
    (auxOnWrite data s).Canonical sz := by
  unfold auxOnWrite
  repeat' first
    | with_reducible assumption
    | with_reducible apply canonical_railOff
    | with_reducible apply Device.canonical_pset
    | with_reducible apply canonical_railOn
    | with_reducible apply Device.canonical_ite
    | with_reducible apply Device.canonical_each
    | intro _
    | split
    | dsimp only

theorem canonical_seqOn (set : List ℕ) {s : Device} (hs : s.Canonical sz) :
    (seqOn set s).Canonical sz := by
  unfold seqOn
  repeat' first
    | with_reducible assumption
    | with_reducible apply canonical_seqNext
    | with_reducible apply canonical_modSeq
    | with_reducible apply Device.canonical_pset
    | intro _
    | split
    | dsimp only

theorem canonical_auxCtlWrite (data : Sys2Proof.Word) {s : Device} (hs : s.Canonical sz) :
    (auxCtlWrite data s).Canonical sz := by
  unfold auxCtlWrite
  repeat' first
    | with_reducible assumption
    | with_reducible apply canonical_auxOnWrite
    | with_reducible apply canonical_seqOn
    | with_reducible apply canonical_seqOff
    | with_reducible apply Device.canonical_ite
    | intro _
    | split
    | dsimp only

theorem canonical_auxUv (r : ℕ) {s : Device} (hs : s.Canonical sz) :
    (auxUv r s).Canonical sz := by
  unfold auxUv
  repeat' first
    | with_reducible assumption
    | with_reducible apply canonical_railLatch
    | with_reducible apply Device.canonical_ite
    | intro _
    | split
    | dsimp only

theorem canonical_supplSet (on : Bool) {s : Device} (hs : s.Canonical sz) :
    (supplSet on s).Canonical sz := by
  unfold supplSet
  repeat' first
    | with_reducible assumption
    | with_reducible apply canonical_ikeepOpen
    | with_reducible apply Device.canonical_pset
    | with_reducible apply Device.canonical_ite
    | intro _
    | split
    | dsimp only

theorem canonical_supplCheck {s : Device} (hs : s.Canonical sz) :
    (supplCheck s).Canonical sz := by
  unfold supplCheck
  repeat' first
    | with_reducible assumption
    | with_reducible apply canonical_supplSet
    | with_reducible apply Device.canonical_ite
    | intro _
    | split
    | dsimp only

theorem canonical_storeBoundary {s : Device} (hs : s.Canonical sz) :
    (storeBoundary s).Canonical sz := by
  unfold storeBoundary
  repeat' first
    | with_reducible assumption
    | with_reducible apply Device.canonical_modSup
    | with_reducible apply Device.canonical_pset
    | with_reducible apply Device.canonical_setReg
    | with_reducible apply Device.canonical_ite
    | intro _
    | split
    | dsimp only

theorem canonical_chargerEnter (c : ℕ) {s : Device} (hs : s.Canonical sz) :
    (chargerEnter c s).Canonical sz := by
  unfold chargerEnter
  repeat' first
    | with_reducible assumption
    | with_reducible apply Device.canonical_pset
    | with_reducible apply Device.canonical_modSup
    | with_reducible apply Device.canonical_ite
    | intro _
    | split
    | dsimp only

theorem canonical_qualRestart {s : Device} (hs : s.Canonical sz) :
    (qualRestart s).Canonical sz := by
  unfold qualRestart
  repeat' first
    | with_reducible assumption
    | with_reducible apply Device.canonical_modSup
    | intro _
    | split
    | dsimp only

theorem canonical_vbusBelowRise {s : Device} (hs : s.Canonical sz) :
    (vbusBelowRise s).Canonical sz := by
  unfold vbusBelowRise
  repeat' first
    | with_reducible assumption
    | with_reducible apply Device.canonical_modSup
    | with_reducible apply canonical_qualRestart
    | intro _
    | split
    | dsimp only

theorem canonical_supplement (on : Bool) {s : Device} (hs : s.Canonical sz) :
    (supplement on s).Canonical sz := by
  unfold supplement
  repeat' first
    | with_reducible assumption
    | with_reducible apply canonical_supplSet
    | with_reducible apply Device.canonical_ite
    | intro _
    | split
    | dsimp only

theorem canonical_gleanRise {s : Device} (hs : s.Canonical sz) :
    (gleanRise s).Canonical sz := by
  unfold gleanRise
  repeat' first
    | with_reducible assumption
    | with_reducible apply Device.canonical_modGlean
    | with_reducible apply Device.canonical_each
    | intro _
    | split
    | dsimp only

theorem canonical_vbusNotGood {s : Device} (hs : s.Canonical sz) :
    (vbusNotGood s).Canonical sz := by
  unfold vbusNotGood
  repeat' first
    | with_reducible assumption
    | with_reducible apply Device.canonical_pset
    | with_reducible apply Device.canonical_modGlean
    | with_reducible apply Device.canonical_ite
    | intro _
    | split
    | dsimp only

theorem canonical_chargerTimeout {s : Device} (hs : s.Canonical sz) :
    (chargerTimeout s).Canonical sz := by
  unfold chargerTimeout
  repeat' first
    | with_reducible assumption
    | with_reducible apply canonical_ikeepOpen
    | with_reducible apply Device.canonical_pset
    | with_reducible apply Device.canonical_ite
    | intro _
    | split
    | dsimp only

theorem canonical_keepBand (t : ℤ) {s : Device} (hs : s.Canonical sz) :
    (keepBand t s).Canonical sz := by
  unfold keepBand
  repeat' first
    | with_reducible assumption
    | with_reducible apply Device.canonical_modSup
    | with_reducible apply Device.canonical_pset
    | intro _
    | split
    | dsimp only

theorem canonical_keepBoundary {s : Device} (hs : s.Canonical sz) :
    (keepBoundary s).Canonical sz := by
  unfold keepBoundary
  repeat' first
    | with_reducible assumption
    | with_reducible apply Device.canonical_modSup
    | with_reducible apply canonical_supplCheck
    | with_reducible apply canonical_keepBand
    | with_reducible apply Device.canonical_nextFree
    | with_reducible apply Device.canonical_pset
    | with_reducible apply Device.canonical_ite
    | with_reducible apply Device.canonical_foldl
    | intro _
    | split
    | dsimp only

theorem canonical_chargerChange (ikeep : ℤ) {s : Device} (hs : s.Canonical sz) :
    (chargerChange ikeep s).Canonical sz := by
  unfold chargerChange
  repeat' first
    | with_reducible assumption
    | with_reducible apply canonical_ikeepMeasured
    | with_reducible apply canonical_chargerEnter
    | intro _
    | split
    | dsimp only

theorem canonical_keepWatch (kntc : Bool) {s : Device} (hs : s.Canonical sz) :
    (keepWatch kntc s).Canonical sz := by
  unfold keepWatch
  repeat' first
    | with_reducible assumption
    | with_reducible apply Device.canonical_modSup
    | with_reducible apply Device.canonical_ite
    | intro _
    | split
    | dsimp only

theorem canonical_chargerBoundary {s : Device} (hs : s.Canonical sz) :
    (chargerBoundary s).Canonical sz := by
  unfold chargerBoundary
  repeat' first
    | with_reducible assumption
    | with_reducible apply Device.canonical_modSup
    | with_reducible apply Device.canonical_ite
    | intro _
    | split
    | dsimp only

theorem canonical_keeperPresent {s : Device} (hs : s.Canonical sz) :
    (keeperPresent s).Canonical sz := by
  unfold keeperPresent
  repeat' first
    | with_reducible assumption
    | with_reducible apply Device.canonical_pset
    | with_reducible apply Device.canonical_modPins
    | with_reducible apply canonical_ikeepOpen
    | with_reducible apply canonical_chargerEnter
    | with_reducible apply Device.canonical_ite
    | intro _
    | split
    | dsimp only

theorem canonical_thresholdWrite (ho : Bool) (data : Sys2Proof.Word) {s : Device} (hs : s.Canonical sz) :
    (thresholdWrite ho data s).Canonical sz := by
  unfold thresholdWrite
  repeat' first
    | with_reducible assumption
    | with_reducible apply Device.canonical_pset
    | with_reducible apply canonical_gleanRise
    | with_reducible apply Device.canonical_ite
    | intro _
    | split
    | dsimp only

theorem canonical_keeperRemoved {s : Device} (hs : s.Canonical sz) :
    (keeperRemoved s).Canonical sz := by
  unfold keeperRemoved
  repeat' first
    | with_reducible assumption
    | with_reducible apply Device.canonical_pset
    | with_reducible apply Device.canonical_modPins
    | with_reducible apply canonical_ikeepOpen
    | with_reducible apply canonical_logEvent
    | with_reducible apply canonical_seqCmd
    | with_reducible apply Device.canonical_ite
    | with_reducible apply Device.canonical_each
    | intro _
    | split
    | dsimp only

/-! SarConv. -/

theorem canonical_vrefxCheck (c : ℕ) (d : ℕ) {s : Device} (hs : s.Canonical sz) :
    (vrefxCheck c d s).Canonical sz := by
  unfold vrefxCheck
  repeat' first
    | with_reducible assumption
    | with_reducible apply Device.canonical_modSar
    | with_reducible apply Device.canonical_dset
    | with_reducible apply Device.canonical_ite
    | intro _
    | split
    | dsimp only

theorem canonical_btempReading (c : ℕ) (d : ℕ) {s : Device} (hs : s.Canonical sz) :
    (btempReading c d s).Canonical sz := by
  unfold btempReading
  repeat' first
    | with_reducible assumption
    | with_reducible apply Device.canonical_dset
    | with_reducible apply Device.canonical_modSar
    | with_reducible apply Device.canonical_ite
    | intro _
    | split
    | dsimp only

theorem canonical_sarSelf (p : ℕ) (c : ℕ) (d : ℕ) {s : Device} (hs : s.Canonical sz) :
    (sarSelf p c d s).Canonical sz := by
  unfold sarSelf
  repeat' first
    | with_reducible assumption
    | with_reducible apply Device.canonical_modSar
    | with_reducible apply Device.canonical_ite
    | intro _
    | split
    | dsimp only

theorem canonical_inputSwitch {s : Device} (hs : s.Canonical sz) :
    (inputSwitch s).Canonical sz := by
  unfold inputSwitch
  repeat' first
    | with_reducible assumption
    | with_reducible apply Device.canonical_pset
    | with_reducible apply Device.canonical_nextFree
    | with_reducible apply Device.canonical_ite
    | intro _
    | split
    | dsimp only

theorem canonical_vkeepReading (c : ℕ) {s : Device} (hs : s.Canonical sz) :
    (vkeepReading c s).Canonical sz := by
  unfold vkeepReading
  repeat' first
    | with_reducible assumption
    | with_reducible apply Device.canonical_nextFree
    | with_reducible apply Device.canonical_pset
    | with_reducible apply canonical_keepWatch
    | with_reducible apply canonical_supplCheck
    | with_reducible apply Device.canonical_ite
    | intro _
    | split
    | dsimp only

theorem canonical_vbstReading (c : ℕ) {s : Device} (hs : s.Canonical sz) :
    (vbstReading c s).Canonical sz := by
  unfold vbstReading
  repeat' first
    | with_reducible assumption
    | with_reducible apply Device.canonical_modSar
    | with_reducible apply Device.canonical_pset
    | with_reducible apply canonical_boostOv
    | with_reducible apply Device.canonical_ite
    | intro _
    | split
    | dsimp only

theorem canonical_sarLead (p : ℕ) (c : ℕ) {s : Device} (hs : s.Canonical sz) :
    (sarLead p c s).Canonical sz := by
  unfold sarLead
  repeat' first
    | with_reducible assumption
    | with_reducible apply canonical_monReading
    | with_reducible apply canonical_inputSwitch
    | with_reducible apply Device.canonical_pset
    | with_reducible apply canonical_railReading
    | with_reducible apply canonical_vkeepReading
    | with_reducible apply canonical_keepWatch
    | with_reducible apply Device.canonical_modSup
    | with_reducible apply canonical_vbstReading
    | with_reducible apply Device.canonical_ite
    | intro _
    | split
    | dsimp only

theorem canonical_sarConversion (d : ℕ) (code : ℕ) {s : Device} (hs : s.Canonical sz) :
    (sarConversion d code s).Canonical sz := by
  unfold sarConversion
  repeat' first
    | with_reducible assumption
    | with_reducible apply Device.canonical_modSar
    | with_reducible apply Device.canonical_modEng
    | with_reducible apply canonical_btempReading
    | with_reducible apply canonical_vrefxCheck
    | with_reducible apply canonical_sarSelf
    | with_reducible apply canonical_sarLead
    | with_reducible apply Device.canonical_ite
    | intro _
    | split
    | dsimp only

theorem canonical_vrefxReturn (d : ℕ) {s : Device} (hs : s.Canonical sz) :
    (vrefxReturn d s).Canonical sz := by
  unfold vrefxReturn
  repeat' first
    | with_reducible assumption
    | with_reducible apply Device.canonical_modDie
    | with_reducible apply Device.canonical_ite
    | intro _
    | split
    | dsimp only

theorem canonical_sarBoundary (d : ℕ) {s : Device} (hs : s.Canonical sz) :
    (sarBoundary d s).Canonical sz := by
  unfold sarBoundary
  repeat' first
    | with_reducible assumption
    | with_reducible apply Device.canonical_dset
    | with_reducible apply Device.canonical_pset
    | with_reducible apply Device.canonical_spend
    | with_reducible apply Device.canonical_dforce
    | with_reducible apply Device.canonical_modSar
    | with_reducible apply Device.canonical_ite
    | intro _
    | split
    | dsimp only

theorem canonical_refBoundary (d : ℕ) {s : Device} (hs : s.Canonical sz) :
    (refBoundary d s).Canonical sz := by
  unfold refBoundary
  repeat' first
    | with_reducible assumption
    | with_reducible apply Device.canonical_modDie
    | with_reducible apply Device.canonical_dset
    | with_reducible apply canonical_logEvent
    | with_reducible apply Device.canonical_cset
    | with_reducible apply canonical_updateConsts
    | with_reducible apply canonical_benchAbort
    | with_reducible apply Device.canonical_ite
    | with_reducible apply Device.canonical_each
    | intro _
    | split
    | dsimp only

theorem canonical_btBoundary (d : ℕ) {s : Device} (hs : s.Canonical sz) :
    (btBoundary d s).Canonical sz := by
  unfold btBoundary
  repeat' first
    | with_reducible assumption
    | with_reducible apply Device.canonical_nextFree
    | with_reducible apply Device.canonical_dset
    | with_reducible apply Device.canonical_modSar
    | with_reducible apply Device.canonical_ite
    | with_reducible apply Device.canonical_foldl
    | intro _
    | split
    | dsimp only

theorem canonical_sarFail (d : ℕ) {s : Device} (hs : s.Canonical sz) :
    (sarFail d s).Canonical sz := by
  unfold sarFail
  repeat' first
    | with_reducible assumption
    | with_reducible apply canonical_logEvent
    | with_reducible apply Device.canonical_dset
    | with_reducible apply Device.canonical_ite
    | intro _
    | split
    | dsimp only

theorem canonical_vrefxFail (d : ℕ) {s : Device} (hs : s.Canonical sz) :
    (vrefxFail d s).Canonical sz := by
  unfold vrefxFail
  repeat' first
    | with_reducible assumption
    | with_reducible apply Device.canonical_modDie
    | with_reducible apply Device.canonical_ite
    | intro _
    | split
    | dsimp only

/-! Pulses. -/

theorem canonical_modPulse (n : ℕ) (f : Pulse → Pulse) {s : Device} (hs : s.Canonical sz) :
    (modPulse n f s).Canonical sz := by
  unfold modPulse
  repeat' first
    | with_reducible assumption
    | with_reducible apply Device.canonical_mk
    | with_reducible apply Device.ring_set
    | with_reducible apply rfWf_set
    | with_reducible apply Device.Canonical.regs
    | with_reducible apply Device.Canonical.shadow
    | with_reducible apply Device.Canonical.force
    | with_reducible apply Device.Canonical.flash
    | with_reducible apply Device.Canonical.buf
    | with_reducible apply Device.Canonical.size
    | with_reducible apply Device.Canonical.chans
    | with_reducible apply Device.Canonical.dies
    | with_reducible apply Device.Canonical.ring
    | with_reducible apply Device.Canonical.posting
    | intro _
    | split
    | dsimp only

theorem canonical_pathClock (n : ℕ) (g : ℕ) (c : ℤ) (e : ℤ) {s : Device} (hs : s.Canonical sz) :
    (pathClock n g c e s).Canonical sz := by
  unfold pathClock
  repeat' first
    | with_reducible assumption
    | with_reducible apply canonical_modPulse
    | with_reducible apply Device.canonical_ite
    | intro _
    | split
    | dsimp only

theorem canonical_pulseClock (g : ℕ) (c : ℤ) (e : ℤ) {s : Device} (hs : s.Canonical sz) :
    (pulseClock g c e s).Canonical sz := by
  unfold pulseClock
  repeat' first
    | with_reducible assumption
    | with_reducible apply canonical_pathClock
    | with_reducible apply Device.canonical_ite
    | with_reducible apply Device.canonical_each
    | intro _
    | split
    | dsimp only

theorem canonical_schedule (n : ℕ) (m : ℕ) (due : ℕ) {s : Device} (hs : s.Canonical sz) :
    (schedule n m due s).Canonical sz := by
  unfold schedule
  repeat' first
    | with_reducible assumption
    | with_reducible apply canonical_modPulse
    | with_reducible apply Device.canonical_pset
    | with_reducible apply canonical_setCat
    | with_reducible apply Device.canonical_ite
    | intro _
    | split
    | dsimp only

theorem canonical_drain (n : ℕ) (due : ℕ) {s : Device} (hs : s.Canonical sz) :
    (drain n due s).Canonical sz := by
  unfold drain
  repeat' first
    | with_reducible assumption
    | with_reducible apply canonical_schedule
    | with_reducible apply canonical_modPulse
    | with_reducible apply Device.canonical_ite
    | intro _
    | split
    | dsimp only

theorem canonical_rateAdvance (n : ℕ) {s : Device} (hs : s.Canonical sz) :
    (rateAdvance n s).Canonical sz := by
  unfold rateAdvance
  repeat' first
    | with_reducible assumption
    | with_reducible apply canonical_drain
    | with_reducible apply canonical_modPulse
    | with_reducible apply Device.canonical_ite
    | intro _
    | split
    | dsimp only

theorem canonical_plsCfgWrite (n : ℕ) (k : Bool) (data : Sys2Proof.Word) {s : Device} (hs : s.Canonical sz) :
    (plsCfgWrite n k data s).Canonical sz := by
  unfold plsCfgWrite
  repeat' first
    | with_reducible assumption
    | with_reducible apply Device.canonical_setReg
    | with_reducible apply Device.canonical_ite
    | intro _
    | split
    | dsimp only

theorem canonical_plsPolarity (n : ℕ) {s : Device} (hs : s.Canonical sz) :
    (plsPolarity n s).Canonical sz := by
  unfold plsPolarity
  repeat' first
    | with_reducible assumption
    | with_reducible apply canonical_modPulse
    | with_reducible apply Device.canonical_ite
    | intro _
    | split
    | dsimp only

theorem canonical_pulseEnd (n : ℕ) {s : Device} (hs : s.Canonical sz) :
    (pulseEnd n s).Canonical sz := by
  unfold pulseEnd
  repeat' first
    | with_reducible assumption
    | with_reducible apply canonical_plsPolarity
    | with_reducible apply canonical_modPulse
    | with_reducible apply Device.canonical_ite
    | intro _
    | split
    | dsimp only

theorem canonical_putResq (n : ℕ) {s : Device} (hs : s.Canonical sz) :
    (putResq n s).Canonical sz := by
  unfold putResq
  repeat' first
    | with_reducible assumption
    | with_reducible apply Device.canonical_pset
    | with_reducible apply Device.canonical_nextFree
    | with_reducible apply Device.canonical_ite
    | intro _
    | split
    | dsimp only

theorem canonical_plsConfig (n : ℕ) {s : Device} (hs : s.Canonical sz) :
    (plsConfig n s).Canonical sz := by
  unfold plsConfig
  repeat' first
    | with_reducible assumption
    | with_reducible apply canonical_modPulse
    | with_reducible apply Device.canonical_pset
    | with_reducible apply canonical_putResq
    | with_reducible apply canonical_plsPolarity
    | with_reducible apply Device.canonical_ite
    | with_reducible apply Device.canonical_foldl
    | intro _
    | split
    | dsimp only

theorem canonical_heldBack (n : ℕ) {s : Device} (hs : s.Canonical sz) :
    (heldBack n s).Canonical sz := by
  unfold heldBack
  repeat' first
    | with_reducible assumption
    | with_reducible apply canonical_drain
    | with_reducible apply canonical_modPulse
    | with_reducible apply canonical_schedule
    | with_reducible apply Device.canonical_ite
    | intro _
    | split
    | dsimp only

theorem canonical_pulseEmit (n : ℕ) {s : Device} (hs : s.Canonical sz) :
    (pulseEmit n s).Canonical sz := by
  unfold pulseEmit
  repeat' first
    | with_reducible assumption
    | with_reducible apply Device.canonical_pset
    | with_reducible apply canonical_modPulse
    | with_reducible apply canonical_putResq
    | with_reducible apply canonical_heldBack
    | with_reducible apply Device.canonical_ite
    | intro _
    | split
    | dsimp only

theorem canonical_plsCut {s : Device} (hs : s.Canonical sz) :
    (plsCut s).Canonical sz := by
  unfold plsCut
  repeat' first
    | with_reducible assumption
    | with_reducible apply Device.canonical_pset
    | with_reducible apply canonical_modPulse
    | with_reducible apply Device.canonical_ite
    | with_reducible apply Device.canonical_each
    | intro _
    | split
    | dsimp only

theorem canonical_plsDieStop (d : ℕ) (recovery : Bool) {s : Device} (hs : s.Canonical sz) :
    (plsDieStop d recovery s).Canonical sz := by
  unfold plsDieStop
  repeat' first
    | with_reducible assumption
    | with_reducible apply Device.canonical_pset
    | with_reducible apply canonical_modPulse
    | with_reducible apply Device.canonical_ite
    | with_reducible apply Device.canonical_each
    | intro _
    | split
    | dsimp only

theorem canonical_pathBoundary (n : ℕ) (g : ℕ) (bclk : ℕ) {s : Device} (hs : s.Canonical sz) :
    (pathBoundary n g bclk s).Canonical sz := by
  unfold pathBoundary
  repeat' first
    | with_reducible assumption
    | with_reducible apply canonical_schedule
    | with_reducible apply Device.canonical_pset
    | with_reducible apply canonical_modPulse
    | with_reducible apply canonical_drain
    | with_reducible apply Device.canonical_ite
    | with_reducible apply Device.canonical_foldl
    | intro _
    | split
    | dsimp only

theorem canonical_plsFrame (n : ℕ) (bclk : ℕ) {s : Device} (hs : s.Canonical sz) :
    (plsFrame n bclk s).Canonical sz := by
  unfold plsFrame
  repeat' first
    | with_reducible assumption
    | with_reducible apply canonical_modPulse
    | with_reducible apply canonical_drain
    | with_reducible apply canonical_pathBoundary
    | with_reducible apply Device.canonical_ite
    | with_reducible apply Device.canonical_foldl
    | with_reducible apply Device.canonical_each
    | intro _
    | split
    | dsimp only

theorem canonical_plsClr (n : ℕ) (data : Sys2Proof.Word) {s : Device} (hs : s.Canonical sz) :
    (plsClr n data s).Canonical sz := by
  unfold plsClr
  repeat' first
    | with_reducible assumption
    | with_reducible apply canonical_modPulse
    | with_reducible apply Device.canonical_ite
    | intro _
    | split
    | dsimp only

theorem canonical_pathWait (n : ℕ) (g : ℕ) {s : Device} (hs : s.Canonical sz) :
    (pathWait n g s).Canonical sz := by
  unfold pathWait
  repeat' first
    | with_reducible assumption
    | with_reducible apply canonical_modPulse
    | intro _
    | split
    | dsimp only

theorem canonical_plsBook (late : Bool) (g : ℕ) (v : Conv) (a : Acc) (a' : Acc) {s : Device} (hs : s.Canonical sz) :
    (plsBook late g v a a' s).Canonical sz := by
  unfold plsBook
  repeat' first
    | with_reducible assumption
    | with_reducible apply canonical_modPulse
    | with_reducible apply Device.canonical_ite
    | with_reducible apply Device.canonical_each
    | intro _
    | split
    | dsimp only

theorem canonical_plsWait {s : Device} (hs : s.Canonical sz) :
    (plsWait s).Canonical sz := by
  unfold plsWait
  repeat' first
    | with_reducible assumption
    | with_reducible apply canonical_pathWait
    | with_reducible apply Device.canonical_ite
    | with_reducible apply Device.canonical_each
    | intro _
    | split
    | dsimp only

theorem canonical_plsBoundary (bclk : ℕ) {s : Device} (hs : s.Canonical sz) :
    (plsBoundary bclk s).Canonical sz := by
  unfold plsBoundary
  repeat' first
    | with_reducible assumption
    | with_reducible apply canonical_plsConfig
    | with_reducible apply canonical_plsFrame
    | with_reducible apply canonical_rateAdvance
    | with_reducible apply Device.canonical_each
    | intro _
    | split
    | dsimp only

/-! Tally. -/

theorem canonical_modTally (inB : Bool) (f : TallyPin → TallyPin) {s : Device} (hs : s.Canonical sz) :
    (modTally inB f s).Canonical sz := by
  unfold modTally
  repeat' first
    | with_reducible assumption
    | with_reducible apply Device.canonical_ite
    | with_reducible apply Device.canonical_mk
    | with_reducible apply Device.ring_set
    | with_reducible apply rfWf_set
    | with_reducible apply Device.Canonical.regs
    | with_reducible apply Device.Canonical.shadow
    | with_reducible apply Device.Canonical.force
    | with_reducible apply Device.Canonical.flash
    | with_reducible apply Device.Canonical.buf
    | with_reducible apply Device.Canonical.size
    | with_reducible apply Device.Canonical.chans
    | with_reducible apply Device.Canonical.dies
    | with_reducible apply Device.Canonical.ring
    | with_reducible apply Device.Canonical.posting
    | intro _
    | split
    | dsimp only

theorem canonical_tallySee (inB : Bool) (level : Bool) {s : Device} (hs : s.Canonical sz) :
    (tallySee inB level s).Canonical sz := by
  unfold tallySee
  repeat' first
    | with_reducible assumption
    | with_reducible apply canonical_modTally
    | with_reducible apply Device.canonical_ite
    | intro _
    | split
    | dsimp only

theorem canonical_runPulse (inB : Bool) {s : Device} (hs : s.Canonical sz) :
    (runPulse inB s).Canonical sz := by
  unfold runPulse
  repeat' first
    | with_reducible assumption
    | with_reducible apply canonical_runStop
    | with_reducible apply Device.canonical_ite
    | with_reducible apply Device.canonical_mk
    | with_reducible apply Device.ring_set
    | with_reducible apply rfWf_set
    | with_reducible apply Device.Canonical.regs
    | with_reducible apply Device.Canonical.shadow
    | with_reducible apply Device.Canonical.force
    | with_reducible apply Device.Canonical.flash
    | with_reducible apply Device.Canonical.buf
    | with_reducible apply Device.Canonical.size
    | with_reducible apply Device.Canonical.chans
    | with_reducible apply Device.Canonical.dies
    | with_reducible apply Device.Canonical.ring
    | with_reducible apply Device.Canonical.posting
    | intro _
    | split
    | dsimp only

theorem canonical_setTallyCnt (inB : Bool) (v : ℕ) {s : Device} (hs : s.Canonical sz) :
    (setTallyCnt inB v s).Canonical sz := by
  unfold setTallyCnt
  repeat' first
    | with_reducible assumption
    | with_reducible apply Device.canonical_pset
    | with_reducible apply Device.canonical_ite
    | intro _
    | split
    | dsimp only

theorem canonical_tallyEdge (inB : Bool) (level : Bool) {s : Device} (hs : s.Canonical sz) :
    (tallyEdge inB level s).Canonical sz := by
  unfold tallyEdge
  repeat' first
    | with_reducible assumption
    | with_reducible apply canonical_tallySee
    | with_reducible apply Device.canonical_pset
    | with_reducible apply canonical_runPulse
    | with_reducible apply canonical_setTallyCnt
    | with_reducible apply Device.canonical_ite
    | intro _
    | split
    | dsimp only

theorem canonical_gateOpen {s : Device} (hs : s.Canonical sz) :
    (gateOpen s).Canonical sz := by
  unfold gateOpen
  repeat' first
    | with_reducible assumption
    | with_reducible apply Device.canonical_pset
    | with_reducible apply Device.canonical_modConv
    | with_reducible apply Device.canonical_mk
    | with_reducible apply Device.ring_set
    | with_reducible apply rfWf_set
    | with_reducible apply Device.Canonical.regs
    | with_reducible apply Device.Canonical.shadow
    | with_reducible apply Device.Canonical.force
    | with_reducible apply Device.Canonical.flash
    | with_reducible apply Device.Canonical.buf
    | with_reducible apply Device.Canonical.size
    | with_reducible apply Device.Canonical.chans
    | with_reducible apply Device.Canonical.dies
    | with_reducible apply Device.Canonical.ring
    | with_reducible apply Device.Canonical.posting
    | intro _
    | split
    | dsimp only

theorem canonical_runClose (data : Sys2Proof.Word) {s : Device} (hs : s.Canonical sz) :
    (runClose data s).Canonical sz := by
  unfold runClose
  repeat' first
    | with_reducible assumption
    | with_reducible apply Device.canonical_pset
    | with_reducible apply Device.canonical_ite
    | with_reducible apply Device.canonical_mk
    | with_reducible apply Device.ring_set
    | with_reducible apply rfWf_set
    | with_reducible apply Device.Canonical.regs
    | with_reducible apply Device.Canonical.shadow
    | with_reducible apply Device.Canonical.force
    | with_reducible apply Device.Canonical.flash
    | with_reducible apply Device.Canonical.buf
    | with_reducible apply Device.Canonical.size
    | with_reducible apply Device.Canonical.chans
    | with_reducible apply Device.Canonical.dies
    | with_reducible apply Device.Canonical.ring
    | with_reducible apply Device.Canonical.posting
    | intro _
    | split
    | dsimp only

theorem canonical_tallyClr (data : Sys2Proof.Word) {s : Device} (hs : s.Canonical sz) :
    (tallyClr data s).Canonical sz := by
  unfold tallyClr
  repeat' first
    | with_reducible assumption
    | with_reducible apply Device.canonical_ite
    | with_reducible apply Device.canonical_mk
    | with_reducible apply Device.ring_set
    | with_reducible apply rfWf_set
    | with_reducible apply Device.Canonical.regs
    | with_reducible apply Device.Canonical.shadow
    | with_reducible apply Device.Canonical.force
    | with_reducible apply Device.Canonical.flash
    | with_reducible apply Device.Canonical.buf
    | with_reducible apply Device.Canonical.size
    | with_reducible apply Device.Canonical.chans
    | with_reducible apply Device.Canonical.dies
    | with_reducible apply Device.Canonical.ring
    | with_reducible apply Device.Canonical.posting
    | intro _
    | split
    | dsimp only

theorem canonical_gateClose {s : Device} (hs : s.Canonical sz) :
    (gateClose s).Canonical sz := by
  unfold gateClose
  repeat' first
    | with_reducible assumption
    | with_reducible apply canonical_runRecord
    | with_reducible apply Device.canonical_pset
    | with_reducible apply Device.canonical_setReg
    | with_reducible apply canonical_setCat
    | with_reducible apply Device.canonical_nextFree
    | with_reducible apply Device.canonical_ite
    | with_reducible apply Device.canonical_mk
    | with_reducible apply Device.ring_set
    | with_reducible apply rfWf_set
    | with_reducible apply Device.Canonical.regs
    | with_reducible apply Device.Canonical.shadow
    | with_reducible apply Device.Canonical.force
    | with_reducible apply Device.Canonical.flash
    | with_reducible apply Device.Canonical.buf
    | with_reducible apply Device.Canonical.size
    | with_reducible apply Device.Canonical.chans
    | with_reducible apply Device.Canonical.dies
    | with_reducible apply Device.Canonical.ring
    | with_reducible apply Device.Canonical.posting
    | intro _
    | split
    | dsimp only

theorem canonical_tallyBoundary {s : Device} (hs : s.Canonical sz) :
    (tallyBoundary s).Canonical sz := by
  unfold tallyBoundary
  repeat' first
    | with_reducible assumption
    | with_reducible apply canonical_gateOpen
    | with_reducible apply canonical_gateClose
    | with_reducible apply canonical_setTallyCnt
    | with_reducible apply Device.canonical_ite
    | with_reducible apply Device.canonical_mk
    | with_reducible apply Device.ring_set
    | with_reducible apply rfWf_set
    | with_reducible apply Device.Canonical.regs
    | with_reducible apply Device.Canonical.shadow
    | with_reducible apply Device.Canonical.force
    | with_reducible apply Device.Canonical.flash
    | with_reducible apply Device.Canonical.buf
    | with_reducible apply Device.Canonical.size
    | with_reducible apply Device.Canonical.chans
    | with_reducible apply Device.Canonical.dies
    | with_reducible apply Device.Canonical.ring
    | with_reducible apply Device.Canonical.posting
    | intro _
    | split
    | dsimp only

theorem canonical_runAbort (data : Sys2Proof.Word) {s : Device} (hs : s.Canonical sz) :
    (runAbort data s).Canonical sz := by
  unfold runAbort
  repeat' first
    | with_reducible assumption
    | with_reducible apply canonical_runStop
    | with_reducible apply Device.canonical_ite
    | intro _
    | split
    | dsimp only

theorem canonical_runOpen (data : Sys2Proof.Word) {s : Device} (hs : s.Canonical sz) :
    (runOpen data s).Canonical sz := by
  unfold runOpen
  repeat' first
    | with_reducible assumption
    | with_reducible apply canonical_runCode
    | with_reducible apply Device.canonical_pset
    | with_reducible apply Device.canonical_ite
    | with_reducible apply Device.canonical_mk
    | with_reducible apply Device.ring_set
    | with_reducible apply rfWf_set
    | with_reducible apply Device.Canonical.regs
    | with_reducible apply Device.Canonical.shadow
    | with_reducible apply Device.Canonical.force
    | with_reducible apply Device.Canonical.flash
    | with_reducible apply Device.Canonical.buf
    | with_reducible apply Device.Canonical.size
    | with_reducible apply Device.Canonical.chans
    | with_reducible apply Device.Canonical.dies
    | with_reducible apply Device.Canonical.ring
    | with_reducible apply Device.Canonical.posting
    | intro _
    | split
    | dsimp only

end Sys2Proof.Machine
end

