-- ==== Sys2Proof/Laws/CanonicalStorage.lean ====
section
/-! SUPPORT. Every operation of these files keeps the canonical form of the device (Device.Canonical). One lemma for each operation, in the order of the files. -/

set_option linter.unusedTactic false
set_option linter.unreachableTactic false
set_option linter.unusedVariables false

namespace Sys2Proof.Machine

variable {sz : Nat}

/-! Retain. -/

theorem canonical_retWrite (d : ℕ) {s : Device} (hs : s.Canonical sz) :
    (retWrite d s).Canonical sz := by
  unfold retWrite
  repeat' first
    | with_reducible assumption
    | with_reducible apply Device.canonical_modGlean
    | with_reducible apply Device.canonical_ite
    | intro _
    | split
    | dsimp only

theorem canonical_retCommit (d : ℕ) {s : Device} (hs : s.Canonical sz) :
    (retCommit d s).Canonical sz := by
  unfold retCommit
  repeat' first
    | with_reducible assumption
    | with_reducible apply Device.canonical_modGlean
    | with_reducible apply Device.canonical_ite
    | intro _
    | split
    | dsimp only

/-! GleanDomain. -/

theorem canonical_keepGoodRise (d : ℕ) {s : Device} (hs : s.Canonical sz) :
    (keepGoodRise d s).Canonical sz := by
  unfold keepGoodRise
  repeat' first
    | with_reducible assumption
    | with_reducible apply Device.canonical_modGlean
    | with_reducible apply Device.canonical_pset
    | with_reducible apply Device.canonical_ite
    | intro _
    | split
    | dsimp only

theorem canonical_pumpTransfer (d : ℕ) {s : Device} (hs : s.Canonical sz) :
    (pumpTransfer d s).Canonical sz := by
  unfold pumpTransfer
  repeat' first
    | with_reducible assumption
    | with_reducible apply Device.canonical_modCh
    | with_reducible apply Device.canonical_ite
    | intro _
    | split
    | dsimp only

theorem canonical_rcTrim (err : ℤ) {s : Device} (hs : s.Canonical sz) :
    (rcTrim err s).Canonical sz := by
  unfold rcTrim
  repeat' first
    | with_reducible assumption
    | with_reducible apply Device.canonical_modGlean
    | with_reducible apply Device.canonical_pset
    | with_reducible apply Device.canonical_ite
    | with_reducible apply Device.canonical_each
    | intro _
    | split
    | dsimp only

theorem canonical_gleanEnables (d : ℕ) {s : Device} (hs : s.Canonical sz) :
    (gleanEnables d s).Canonical sz := by
  unfold gleanEnables
  repeat' first
    | with_reducible assumption
    | with_reducible apply Device.canonical_modGlean
    | intro _
    | split
    | dsimp only

theorem canonical_bookTally (g : ℕ) {s : Device} (hs : s.Canonical sz) :
    (bookTally g s).Canonical sz := by
  unfold bookTally
  repeat' first
    | with_reducible assumption
    | with_reducible apply Device.canonical_cset
    | with_reducible apply canonical_plsBook
    | with_reducible apply Device.canonical_nextFree
    | with_reducible apply Device.canonical_modCh
    | with_reducible apply Device.canonical_setReg
    | with_reducible apply Device.canonical_ite
    | intro _
    | split
    | dsimp only

theorem canonical_startSequencer {s : Device} (hs : s.Canonical sz) :
    (startSequencer s).Canonical sz := by
  unfold startSequencer
  repeat' first
    | with_reducible assumption
    | with_reducible apply Device.canonical_modPins
    | with_reducible apply Device.canonical_ite
    | intro _
    | split
    | dsimp only

theorem canonical_gleanEvaluate (regular : Bool) (d : ℕ) (o : Sys2Proof.GleanObs) {s : Device} (hs : s.Canonical sz) :
    (gleanEvaluate regular d o s).Canonical sz := by
  unfold gleanEvaluate
  repeat' first
    | with_reducible assumption
    | with_reducible apply canonical_startSequencer
    | with_reducible apply Device.canonical_modGlean
    | with_reducible apply Device.canonical_ite
    | intro _
    | split
    | dsimp only

theorem canonical_gleanBooking (d : ℕ) {s : Device} (hs : s.Canonical sz) :
    (gleanBooking d s).Canonical sz := by
  unfold gleanBooking
  repeat' first
    | with_reducible assumption
    | with_reducible apply Device.canonical_modDie
    | with_reducible apply canonical_bookTally
    | with_reducible apply Device.canonical_ite
    | with_reducible apply Device.canonical_each
    | intro _
    | split
    | dsimp only

theorem canonical_keepGoodFall (d : ℕ) {s : Device} (hs : s.Canonical sz) :
    (keepGoodFall d s).Canonical sz := by
  unfold keepGoodFall
  repeat' first
    | with_reducible assumption
    | with_reducible apply Device.canonical_modCh
    | with_reducible apply Device.canonical_modGlean
    | with_reducible apply Device.canonical_pset
    | with_reducible apply Device.canonical_ite
    | with_reducible apply Device.canonical_each
    | intro _
    | split
    | dsimp only

/-! Otp. -/

theorem canonical_otpBegin (c : OtpCmd) {s : Device} (hs : s.Canonical sz) :
    (otpBegin c s).Canonical sz := by
  unfold otpBegin
  repeat' first
    | with_reducible assumption
    | with_reducible apply Device.canonical_pset
    | with_reducible apply Device.canonical_ite
    | with_reducible apply Device.canonical_mk
    | with_reducible apply Device.ring_set
    | with_reducible apply rfWf_set
    | with_reducible apply Device.Canonical.regs
    | with_reducible apply Device.Canonical.shadow
    | with_reducible apply Device.Canonical.force
    | with_reducible apply Device.Canonical.flash
    | with_reducible apply Device.Canonical.buf
    | with_reducible apply Device.Canonical.size
    | with_reducible apply Device.Canonical.chans
    | with_reducible apply Device.Canonical.dies
    | with_reducible apply Device.Canonical.ring
    | with_reducible apply Device.Canonical.posting
    | intro _
    | split
    | dsimp only

theorem canonical_otpPulseStart (kind : ℕ) (d : ℕ) (a : ℕ) (mask : ℕ) (c : ℕ) (reads : List Sys2Proof.OtpRead) {s : Device} (hs : s.Canonical sz) :
    (otpPulseStart kind d a mask c reads s).Canonical sz := by
  unfold otpPulseStart
  repeat' first
    | with_reducible assumption
    | with_reducible apply canonical_otpBegin
    | with_reducible apply Device.canonical_spend
    | intro _
    | split
    | dsimp only

theorem canonical_otpEnd (result : ℕ) (aborted : Bool) {s : Device} (hs : s.Canonical sz) :
    (otpEnd result aborted s).Canonical sz := by
  unfold otpEnd
  repeat' first
    | with_reducible assumption
    | with_reducible apply Device.canonical_pset
    | with_reducible apply canonical_logEvent
    | with_reducible apply canonical_setCat
    | with_reducible apply Device.canonical_ite
    | with_reducible apply Device.canonical_mk
    | with_reducible apply Device.ring_set
    | with_reducible apply rfWf_set
    | with_reducible apply Device.Canonical.regs
    | with_reducible apply Device.Canonical.shadow
    | with_reducible apply Device.Canonical.force
    | with_reducible apply Device.Canonical.flash
    | with_reducible apply Device.Canonical.buf
    | with_reducible apply Device.Canonical.size
    | with_reducible apply Device.Canonical.chans
    | with_reducible apply Device.Canonical.dies
    | with_reducible apply Device.Canonical.ring
    | with_reducible apply Device.Canonical.posting
    | intro _
    | split
    | dsimp only

theorem canonical_otpShow (r : Sys2Proof.OtpRead) {s : Device} (hs : s.Canonical sz) :
    (otpShow r s).Canonical sz := by
  unfold otpShow
  repeat' first
    | with_reducible assumption
    | with_reducible apply Device.canonical_setReg
    | with_reducible apply Device.canonical_ite
    | intro _
    | split
    | dsimp only

theorem canonical_otpDone {s : Device} (hs : s.Canonical sz) :
    (otpDone s).Canonical sz := by
  unfold otpDone
  repeat' first
    | with_reducible assumption
    | with_reducible apply canonical_otpShow
    | with_reducible apply Device.canonical_modDie
    | with_reducible apply canonical_otpEnd
    | with_reducible apply Device.canonical_ite
    | intro _
    | split
    | dsimp only

theorem canonical_otpRefuse (code : ℕ) {s : Device} (hs : s.Canonical sz) :
    (otpRefuse code s).Canonical sz := by
  unfold otpRefuse
  repeat' first
    | with_reducible assumption
    | with_reducible apply canonical_setCat
    | with_reducible apply Device.canonical_pset
    | intro _
    | split
    | dsimp only

theorem canonical_otpReadCmd (d : ℕ) (a : ℕ) {s : Device} (hs : s.Canonical sz) :
    (otpReadCmd d a s).Canonical sz := by
  unfold otpReadCmd
  repeat' first
    | with_reducible assumption
    | with_reducible apply canonical_otpRefuse
    | with_reducible apply canonical_otpBegin
    | with_reducible apply Device.canonical_ite
    | intro _
    | split
    | dsimp only

theorem canonical_otpLock (d : ℕ) (region : ℕ) (force : Bool) (reads : List Sys2Proof.OtpRead) {s : Device} (hs : s.Canonical sz) :
    (otpLock d region force reads s).Canonical sz := by
  unfold otpLock
  repeat' first
    | with_reducible assumption
    | with_reducible apply canonical_otpRefuse
    | with_reducible apply canonical_otpPulseStart
    | with_reducible apply Device.canonical_ite
    | intro _
    | split
    | dsimp only

theorem canonical_otpSummary {s : Device} (hs : s.Canonical sz) :
    (otpSummary s).Canonical sz := by
  unfold otpSummary
  repeat' first
    | with_reducible assumption
    | with_reducible apply Device.canonical_pset
    | with_reducible apply Device.canonical_ite
    | intro _
    | split
    | dsimp only

theorem canonical_compatFixed {s : Device} (hs : s.Canonical sz) :
    (compatFixed s).Canonical sz := by
  unfold compatFixed
  repeat' first
    | with_reducible assumption
    | with_reducible apply Device.canonical_pset
    | with_reducible apply Device.canonical_ite
    | with_reducible refine Device.canonical_modNvm ?_ (fun _ h => h) (fun _ h => h)
    | intro _
    | split
    | dsimp only

theorem canonical_otpCutShort {s : Device} (hs : s.Canonical sz) :
    (otpCutShort s).Canonical sz := by
  unfold otpCutShort
  repeat' first
    | with_reducible assumption
    | with_reducible apply Device.canonical_modDie
    | with_reducible apply Device.canonical_spend
    | with_reducible apply canonical_otpEnd
    | with_reducible apply Device.canonical_ite
    | intro _
    | split
    | dsimp only

theorem canonical_otpLoad (d : ℕ) {s : Device} (hs : s.Canonical sz) :
    (otpLoad d s).Canonical sz := by
  unfold otpLoad
  repeat' first
    | with_reducible assumption
    | with_reducible apply canonical_logEvent
    | with_reducible apply Device.canonical_dset
    | with_reducible apply Device.canonical_setReg
    | with_reducible apply Device.canonical_nextFree
    | with_reducible apply Device.canonical_modDie
    | with_reducible apply canonical_otpSummary
    | with_reducible apply canonical_compatFixed
    | with_reducible apply Device.canonical_pset
    | with_reducible apply Device.canonical_ite
    | with_reducible apply Device.canonical_foldl
    | intro _
    | split
    | dsimp only

theorem canonical_otpReinforce (d : ℕ) (a : ℕ) (reads : List Sys2Proof.OtpRead) {s : Device} (hs : s.Canonical sz) :
    (otpReinforce d a reads s).Canonical sz := by
  unfold otpReinforce
  repeat' first
    | with_reducible assumption
    | with_reducible apply canonical_otpRefuse
    | with_reducible apply canonical_otpPulseStart
    | with_reducible apply Device.canonical_ite
    | intro _
    | split
    | dsimp only

theorem canonical_otpPumpExpiry {s : Device} (hs : s.Canonical sz) :
    (otpPumpExpiry s).Canonical sz := by
  unfold otpPumpExpiry
  repeat' first
    | with_reducible assumption
    | with_reducible apply canonical_logEvent
    | with_reducible apply Device.canonical_pset
    | with_reducible apply canonical_otpCutShort
    | with_reducible apply Device.canonical_ite
    | intro _
    | split
    | dsimp only

theorem canonical_otpProgram (d : ℕ) (a : ℕ) (data : ℕ) (reads : List Sys2Proof.OtpRead) {s : Device} (hs : s.Canonical sz) :
    (otpProgram d a data reads s).Canonical sz := by
  unfold otpProgram
  repeat' first
    | with_reducible assumption
    | with_reducible apply canonical_otpRefuse
    | with_reducible apply canonical_otpPulseStart
    | with_reducible apply Device.canonical_ite
    | intro _
    | split
    | dsimp only

/-! Stored. -/

theorem canonical_afterStore (a : ℕ) {s : Device} (hs : s.Canonical sz) :
    (afterStore a s).Canonical sz := by
  unfold afterStore
  repeat' first
    | with_reducible assumption
    | with_reducible apply canonical_clampTest
    | with_reducible apply canonical_gleanRise
    | with_reducible apply Device.canonical_ite
    | with_reducible apply Device.canonical_each
    | intro _
    | split
    | dsimp only

theorem canonical_storeFields (mask : Sys2Proof.Word) (a : ℕ) (w : Sys2Proof.Word) {s : Device} (hs : s.Canonical sz) :
    (storeFields mask a w s).Canonical sz := by
  unfold storeFields
  repeat' first
    | with_reducible assumption
    | with_reducible apply canonical_afterStore
    | with_reducible apply Device.canonical_setReg
    | with_reducible apply Device.canonical_ite
    | intro _
    | split
    | dsimp only

theorem canonical_loadWord (mask : Sys2Proof.Word) (a : ℕ) (w : Sys2Proof.Word) {s : Device} (hs : s.Canonical sz) :
    (loadWord mask a w s).Canonical sz := by
  unfold loadWord
  repeat' first
    | with_reducible assumption
    | with_reducible apply Device.canonical_setReg
    | with_reducible apply canonical_storeFields
    | with_reducible apply canonical_afterStore
    | with_reducible apply Device.canonical_ite
    | intro _
    | split
    | dsimp only

theorem canonical_forceDie (d : ℕ) {s : Device} (h : s.Canonical sz) : (forceDie d s).Canonical sz := by
  refine { h with force := rfWf_foldl_put _ (fun p hp => ?_) (rfWf_filter _ h.force) }
  exact ((rfWf_iff _).mp h.regs).2 p (List.mem_of_mem_filter hp)

theorem canonical_settleDie (d : ℕ) {s : Device} (hs : s.Canonical sz) :
    (settleDie d s).Canonical sz := by
  unfold settleDie
  repeat' first
    | with_reducible assumption
    | with_reducible apply canonical_baseReset
    | with_reducible apply canonical_constLoad
    | with_reducible apply canonical_resetLive
    | with_reducible apply canonical_forceDie
    | with_reducible apply Device.canonical_modDie
    | with_reducible apply Device.canonical_ite
    | with_reducible apply Device.canonical_each
    | intro _
    | split
    | dsimp only

theorem canonical_thresholdLoad {s : Device} (hs : s.Canonical sz) :
    (thresholdLoad s).Canonical sz := by
  unfold thresholdLoad
  repeat' first
    | with_reducible assumption
    | with_reducible apply Device.canonical_pset
    | with_reducible apply canonical_gleanRise
    | with_reducible apply Device.canonical_ite
    | intro _
    | split
    | dsimp only

/-! Flash. -/

theorem canonical_recipeBad (d : ℕ) (id : ℕ) (step : ℕ) {s : Device} (hs : s.Canonical sz) :
    (recipeBad d id step s).Canonical sz := by
  unfold recipeBad
  repeat' first
    | with_reducible assumption
    | with_reducible apply canonical_logEvent
    | intro _
    | split
    | dsimp only

theorem canonical_sectionBad (typ : ℕ) (die : ℕ) (ch : ℕ) {s : Device} (hs : s.Canonical sz) :
    (sectionBad typ die ch s).Canonical sz := by
  unfold sectionBad
  repeat' first
    | with_reducible assumption
    | with_reducible apply Device.canonical_pset
    | with_reducible apply canonical_logEvent
    | with_reducible apply Device.canonical_pinc
    | with_reducible apply Device.canonical_ite
    | intro _
    | split
    | dsimp only

theorem canonical_loadRecipes (all : List Recipe) (d : ℕ) {s : Device} (hs : s.Canonical sz) :
    (loadRecipes all d s).Canonical sz := by
  unfold loadRecipes
  repeat' first
    | with_reducible assumption
    | with_reducible apply Device.canonical_modDie
    | with_reducible apply canonical_recipeBad
    | with_reducible apply canonical_sectionBad
    | with_reducible apply Device.canonical_foldl
    | intro _
    | split
    | dsimp only

theorem canonical_nvmPush (op : NvmOp) {s : Device} (hs : s.Canonical sz) :
    (nvmPush op s).Canonical sz := by
  unfold nvmPush
  repeat' first
    | with_reducible assumption
    | with_reducible apply Device.canonical_pset
    | with_reducible apply Device.canonical_ite
    | with_reducible refine Device.canonical_modNvm ?_ (fun _ h => h) (fun _ h => h)
    | intro _
    | split
    | dsimp only

theorem canonical_spareCheck {s : Device} (hs : s.Canonical sz) :
    (spareCheck s).Canonical sz := by
  unfold spareCheck
  repeat' first
    | with_reducible assumption
    | with_reducible apply Device.canonical_pset
    | with_reducible apply canonical_nvmPush
    | with_reducible apply Device.canonical_ite
    | intro _
    | split
    | dsimp only

theorem canonical_countReject (c : Section) (w : Walk) (h : w.dev.Canonical sz) : (countReject c w).dev.Canonical sz :=
  canonical_sectionBad _ _ _ h

theorem canonical_cacheDie (d : ℕ) {s : Device} (hs : s.Canonical sz) :
    (cacheDie d s).Canonical sz := by
  unfold cacheDie
  repeat' first
    | with_reducible assumption
    | with_reducible apply Device.canonical_dset
    | with_reducible apply Device.canonical_ite
    | intro _
    | split
    | dsimp only

theorem canonical_huskIdle (g : ℕ) {s : Device} (hs : s.Canonical sz) :
    (huskIdle g s).Canonical sz := by
  unfold huskIdle
  repeat' first
    | with_reducible assumption
    | with_reducible apply Device.canonical_modEng
    | with_reducible apply canonical_setEng
    | with_reducible apply Device.canonical_ite
    | intro _
    | split
    | dsimp only

theorem canonical_imageBad (err : ℕ) {s : Device} (hs : s.Canonical sz) :
    (imageBad err s).Canonical sz := by
  unfold imageBad
  repeat' first
    | with_reducible assumption
    | with_reducible apply canonical_logEvent
    | with_reducible apply Device.canonical_pset
    | intro _
    | split
    | dsimp only

theorem canonical_pinLoad (own : List (ℕ × Sys2Proof.Word)) {s : Device} (hs : s.Canonical sz) :
    (pinLoad own s).Canonical sz := by
  unfold pinLoad
  repeat' first
    | with_reducible assumption
    | with_reducible apply Device.canonical_pset
    | with_reducible apply canonical_loadWord
    | with_reducible apply Device.canonical_ite
    | with_reducible apply Device.canonical_foldl
    | with_reducible refine Device.canonical_modNvm ?_ (fun _ h => h) (fun _ h => h)
    | intro _
    | split
    | dsimp only

theorem canonical_ringBest {s : Device} (hs : s.Canonical sz) :
    (ringBest s).Canonical sz := by
  unfold ringBest
  repeat' first
    | with_reducible assumption
    | with_reducible refine Device.canonical_modNvm ?_ (fun _ h => h) (fun _ h => h)
    | intro _
    | split
    | dsimp only

theorem canonical_ringScan {s : Device} (hs : s.Canonical sz) :
    (ringScan s).Canonical sz := by
  unfold ringScan
  repeat' first
    | with_reducible assumption
    | with_reducible apply Device.canonical_pset
    | with_reducible apply canonical_ringBest
    | with_reducible apply Device.canonical_setReg
    | with_reducible apply canonical_spareCheck
    | with_reducible apply Device.canonical_ite
    | with_reducible refine Device.canonical_modNvm ?_ (fun _ h => h) (fun _ h => h)
    | intro _
    | split
    | dsimp only

theorem canonical_cfgMap (d : ℕ) {s : Device} (hs : s.Canonical sz) :
    (cfgMap d s).Canonical sz := by
  unfold cfgMap
  repeat' first
    | with_reducible assumption
    | with_reducible apply Device.canonical_setReg
    | intro _
    | split
    | dsimp only

theorem canonical_huskDie (d : ℕ) {s : Device} (hs : s.Canonical sz) :
    (huskDie d s).Canonical sz := by
  unfold huskDie
  repeat' first
    | with_reducible assumption
    | with_reducible apply Device.canonical_dset
    | with_reducible apply canonical_cfgMap
    | with_reducible apply canonical_publishDies
    | with_reducible apply Device.canonical_modDie
    | intro _
    | split
    | dsimp only

theorem canonical_applyEntries (c : Section) (b : List Sys2Proof.Byte) {s : Device} (hs : s.Canonical sz) :
    (applyEntries c b s).Canonical sz := by
  unfold applyEntries
  repeat' first
    | with_reducible assumption
    | with_reducible apply canonical_loadWord
    | with_reducible apply Device.canonical_foldl
    | intro _
    | split
    | dsimp only

theorem walk_ite {c : Prop} [Decidable c] {p q : Walk} (hp : p.dev.Canonical sz) (hq : q.dev.Canonical sz) :
    (if c then p else q).dev.Canonical sz := by
  split
  · exact hp
  · exact hq

theorem canonical_takeSection (c : Section) (w : Walk) (h : w.dev.Canonical sz) : (takeSection c w).dev.Canonical sz := by
  unfold takeSection
  dsimp only
  split
  · exact walk_ite (canonical_applyEntries _ _ (Device.canonical_modNvm h (fun _ h => h) (fun _ h => h))) (canonical_countReject _ _ h)
  · refine walk_ite ?_ (canonical_countReject _ _ h)
    exact Device.canonical_ite (fun _ => h) fun _ => Device.canonical_modDie _ _ (canonical_applyEntries _ _ h)
  · refine walk_ite ?_ (canonical_countReject _ _ h)
    exact Device.canonical_ite (fun _ => h) fun _ => Device.canonical_modDie _ _ (canonical_applyEntries _ _ h)
  · split
    · exact h
    · exact Device.canonical_each _ (canonical_countReject _ _ h) fun _ _ h => canonical_recipeBad _ _ _ h
  · refine walk_ite ?_ (canonical_countReject _ _ h)
    dsimp only
    exact Device.canonical_modNvm h (fun _ h => h) (fun _ h => h)
  · refine walk_ite ?_ (canonical_countReject _ _ h)
    dsimp only
    exact Device.canonical_modNvm h (fun _ h => h) (fun _ h => h)

theorem canonical_doSection (c : Section) (w : Walk) (h : w.dev.Canonical sz) : (doSection c w).dev.Canonical sz := by
  unfold doSection
  exact walk_ite (Device.canonical_pinc _ h) (walk_ite (canonical_countReject _ _ h)
    (walk_ite h (walk_ite (canonical_countReject _ _ h) (canonical_takeSection _ _ h))))

theorem canonical_walkFrom (img : List Byte) (k off : ℕ) (w : Walk) (h : w.dev.Canonical sz) :
    (walkFrom img k off w).dev.Canonical sz := by
  induction k generalizing off w with
  | zero => exact h
  | succ n ih =>
    rw [walkFrom]
    refine walk_ite h (walk_ite h (walk_ite ?_ (walk_ite h (ih _ _ (canonical_doSection _ _ h)))))
    dsimp only
    exact canonical_countReject _ { w with count := w.count + 1 } h

theorem canonical_clearI (p : ℕ → Bool) {s : Device} (h : s.Canonical sz) : (clearI p s).Canonical sz :=
  Device.canonical_foldl _ h fun _ _ h => Device.canonical_setReg _ _ h

theorem canonical_imageSettle (img : List Byte) (w : Walk) (h : w.dev.Canonical sz) : (imageSettle img w).Canonical sz := by
  unfold imageSettle
  dsimp only
  refine canonical_boostWritten _ (Device.canonical_modLine _ ?_)
  refine Device.canonical_setReg _ _ (Device.canonical_pset _ _ ?_)
  refine Device.canonical_each _ (Device.canonical_each _ (Device.canonical_each _ (canonical_thresholdLoad (canonical_pinLoad _ (canonical_ringScan ?_))) fun d t h =>
    canonical_settleDie _ (canonical_huskDie _ (canonical_cacheDie _ h))) fun d t h => canonical_cfgMap _ h) fun d t h => canonical_clampTest _ h
  exact Device.canonical_each _ (Device.canonical_ite (fun _ => Device.canonical_pset _ _ h) fun _ => h) fun d t h =>
    canonical_loadRecipes _ _ h

theorem canonical_imageTake (img : List Byte) {s : Device} (h : s.Canonical sz) : (imageTake img s).Canonical sz := by
  have h1 : ∀ {t : Device}, t.Canonical sz → (t.modNvm fun n => { n with imgLen := img.length, slow := (uAt img 7 1).testBit 0 }).Canonical sz :=
    fun h => Device.canonical_modNvm h (fun _ h => h) (fun _ h => h)
  unfold imageTake
  dsimp only
  have h2 := h1 (canonical_clearI (loadable s) h)
  refine canonical_imageSettle _ _ (canonical_walkFrom _ _ _ _ ?_)
  exact Device.canonical_ite (fun _ => h2) fun _ => Device.canonical_pset _ _ h2

theorem canonical_imageLoad {s : Device} (hs : s.Canonical sz) :
    (imageLoad s).Canonical sz := by
  unfold imageLoad
  repeat' first
    | with_reducible assumption
    | with_reducible apply Device.canonical_pset
    | with_reducible apply canonical_imageBad
    | with_reducible apply canonical_imageTake
    | with_reducible apply Device.canonical_ite
    | intro _
    | split
    | dsimp only

theorem canonical_modFlash {g : List (ℕ × Byte) → List (ℕ × Byte)} {s : Device} (h : s.Canonical sz)
    (hg : ∀ l, bytesWf 0xFF#8 l → bytesWf 0xFF#8 (g l)) : (modFlash g s).Canonical sz :=
  Device.canonical_modNvm h (fun _ h => hg _ h) (fun _ h => h)

theorem canonical_cachePins (d : ℕ) {s : Device} (hs : s.Canonical sz) :
    (cachePins d s).Canonical sz := by
  unfold cachePins
  repeat' first
    | with_reducible assumption
    | with_reducible apply Device.canonical_modDie
    | intro _
    | split
    | dsimp only

/-! Shadow. -/

theorem canonical_setShd (a : ℕ) (w : Sys2Proof.Word) {s : Device} (hs : s.Canonical sz) :
    (setShd a w s).Canonical sz := by
  unfold setShd
  repeat' first
    | with_reducible assumption
    | with_reducible apply Device.canonical_mk
    | with_reducible apply Device.ring_set
    | with_reducible apply rfWf_set
    | with_reducible apply Device.Canonical.regs
    | with_reducible apply Device.Canonical.shadow
    | with_reducible apply Device.Canonical.force
    | with_reducible apply Device.Canonical.flash
    | with_reducible apply Device.Canonical.buf
    | with_reducible apply Device.Canonical.size
    | with_reducible apply Device.Canonical.chans
    | with_reducible apply Device.Canonical.dies
    | with_reducible apply Device.Canonical.ring
    | with_reducible apply Device.Canonical.posting
    | intro _
    | split
    | dsimp only

theorem canonical_shadowRebuild (d : ℕ) {s : Device} (hs : s.Canonical sz) :
    (shadowRebuild d s).Canonical sz := by
  unfold shadowRebuild
  repeat' first
    | with_reducible assumption
    | with_reducible apply canonical_setShd
    | with_reducible apply Device.canonical_each
    | with_reducible apply Device.canonical_mk
    | with_reducible apply Device.ring_set
    | with_reducible apply rfWf_set
    | with_reducible apply Device.Canonical.regs
    | with_reducible apply Device.Canonical.shadow
    | with_reducible apply Device.Canonical.force
    | with_reducible apply Device.Canonical.flash
    | with_reducible apply Device.Canonical.buf
    | with_reducible apply Device.Canonical.size
    | with_reducible apply Device.Canonical.chans
    | with_reducible apply Device.Canonical.dies
    | with_reducible apply Device.Canonical.ring
    | with_reducible apply Device.Canonical.posting
    | intro _
    | split
    | dsimp only

theorem canonical_groupCell (d : ℕ) {s : Device} (hs : s.Canonical sz) :
    (groupCell d s).Canonical sz := by
  unfold groupCell
  repeat' first
    | with_reducible assumption
    | with_reducible apply canonical_setShd
    | with_reducible apply Device.canonical_foldl
    | with_reducible apply Device.canonical_mk
    | with_reducible apply Device.ring_set
    | with_reducible apply rfWf_set
    | with_reducible apply Device.Canonical.regs
    | with_reducible apply Device.Canonical.shadow
    | with_reducible apply Device.Canonical.force
    | with_reducible apply Device.Canonical.flash
    | with_reducible apply Device.Canonical.buf
    | with_reducible apply Device.Canonical.size
    | with_reducible apply Device.Canonical.chans
    | with_reducible apply Device.Canonical.dies
    | with_reducible apply Device.Canonical.ring
    | with_reducible apply Device.Canonical.posting
    | intro _
    | split
    | dsimp only

theorem canonical_setStage (a : ℕ) (w : Sys2Proof.Word) {s : Device} (hs : s.Canonical sz) :
    (setStage a w s).Canonical sz := by
  unfold setStage
  repeat' first
    | with_reducible assumption
    | with_reducible apply Device.canonical_mk
    | with_reducible apply Device.ring_set
    | with_reducible apply rfWf_set
    | with_reducible apply Device.Canonical.regs
    | with_reducible apply Device.Canonical.shadow
    | with_reducible apply Device.Canonical.force
    | with_reducible apply Device.Canonical.flash
    | with_reducible apply Device.Canonical.buf
    | with_reducible apply Device.Canonical.size
    | with_reducible apply Device.Canonical.chans
    | with_reducible apply Device.Canonical.dies
    | with_reducible apply Device.Canonical.ring
    | with_reducible apply Device.Canonical.posting
    | intro _
    | split
    | dsimp only

theorem canonical_shadowTaken (a : ℕ) (w : Sys2Proof.Word) (group : Sys2Proof.Word) {s : Device} (hs : s.Canonical sz) :
    (shadowTaken a w group s).Canonical sz := by
  unfold shadowTaken
  repeat' first
    | with_reducible assumption
    | with_reducible apply canonical_setShd
    | with_reducible apply canonical_setStage
    | with_reducible apply Device.canonical_ite
    | intro _
    | split
    | dsimp only

/-! Nvm. -/

theorem canonical_pinEnd (result : ℕ) {s : Device} (hs : s.Canonical sz) :
    (pinEnd result s).Canonical sz := by
  unfold pinEnd
  repeat' first
    | with_reducible assumption
    | with_reducible apply Device.canonical_pset
    | intro _
    | split
    | dsimp only

theorem canonical_nvmCount {s : Device} (hs : s.Canonical sz) :
    (nvmCount s).Canonical sz := by
  unfold nvmCount
  repeat' first
    | with_reducible assumption
    | with_reducible apply Device.canonical_pset
    | intro _
    | split
    | dsimp only

theorem canonical_pinCut (result : ℕ) {s : Device} (hs : s.Canonical sz) :
    (pinCut result s).Canonical sz := by
  unfold pinCut
  repeat' first
    | with_reducible assumption
    | with_reducible apply canonical_pinEnd
    | with_reducible apply canonical_nvmCount
    | with_reducible apply Device.canonical_ite
    | with_reducible refine Device.canonical_modNvm ?_ (fun _ h => h) (fun _ h => h)
    | intro _
    | split
    | dsimp only

theorem canonical_nvmTake (o : NvmOp) {s : Device} (hs : s.Canonical sz) :
    (nvmTake o s).Canonical sz := by
  unfold nvmTake
  repeat' first
    | with_reducible assumption
    | with_reducible apply canonical_nvmCount
    | with_reducible apply Device.canonical_pset
    | with_reducible refine Device.canonical_modNvm ?_ (fun _ h => h) (fun _ h => h)
    | intro _
    | split
    | dsimp only

theorem canonical_flashBegin (o : FlashOp) {s : Device} (hs : s.Canonical sz) :
    (flashBegin o s).Canonical sz := by
  unfold flashBegin
  repeat' first
    | with_reducible assumption
    | with_reducible refine Device.canonical_modNvm ?_ (fun _ h => h) (fun _ h => h)
    | intro _
    | split
    | dsimp only

theorem canonical_nvmFree {s : Device} (hs : s.Canonical sz) :
    (nvmFree s).Canonical sz := by
  unfold nvmFree
  repeat' first
    | with_reducible assumption
    | with_reducible apply Device.canonical_pset
    | with_reducible refine Device.canonical_modNvm ?_ (fun _ h => h) (fun _ h => h)
    | intro _
    | split
    | dsimp only

theorem canonical_ptEnd (result : ℕ) {s : Device} (hs : s.Canonical sz) :
    (ptEnd result s).Canonical sz := by
  unfold ptEnd
  repeat' first
    | with_reducible assumption
    | with_reducible apply Device.canonical_pset
    | intro _
    | split
    | dsimp only

theorem canonical_ptStart (op addr len : ℕ) {s : Device} (h : s.Canonical sz) : (ptStart op addr len s).Canonical sz := by
  unfold ptStart
  split
  · exact canonical_flashBegin _ h
  · split
    · exact canonical_flashBegin _ h
    · split
      · exact canonical_nvmFree (canonical_ptEnd _ h)
      · dsimp only
        have h1 : (if op = 0x05 then s.pset NVM_STAT_SR (((ptReadBytes s op addr len).headD 0).toNat) else s).Canonical sz := by
          split
          · exact Device.canonical_pset _ _ h
          · exact h
        exact canonical_nvmFree (canonical_ptEnd _ (Device.canonical_spend _
          (Device.canonical_modNvm h1 (fun _ h => h) (fun _ h => bufPut_wf _ h))))

theorem canonical_pinDie (d : ℕ) {s : Device} (hs : s.Canonical sz) :
    (pinDie d s).Canonical sz := by
  unfold pinDie
  repeat' first
    | with_reducible assumption
    | with_reducible apply canonical_loadWord
    | with_reducible apply Device.canonical_foldl
    | intro _
    | split
    | dsimp only

theorem canonical_dieSettled (d : ℕ) {s : Device} (hs : s.Canonical sz) :
    (dieSettled d s).Canonical sz := by
  unfold dieSettled
  repeat' first
    | with_reducible assumption
    | with_reducible apply canonical_clampTest
    | with_reducible apply canonical_settleDie
    | with_reducible apply canonical_huskDie
    | with_reducible apply canonical_cacheDie
    | with_reducible apply canonical_pinDie
    | with_reducible apply Device.canonical_each
    | intro _
    | split
    | dsimp only

theorem canonical_sectionFetch (d : ℕ) {s : Device} (h : s.Canonical sz) : (sectionFetch d s).Canonical sz := by
  have hr : ∀ (l : List (ℕ × ℕ)) (w : Walk), w.dev.Canonical sz → (l.foldl (fun w k => fetchReject d k w) w).dev.Canonical sz := by
    intro l
    induction l with
    | nil => exact fun _ h => h
    | cons c t ih => exact fun w h => ih _ (canonical_sectionBad _ _ _ h)
  have hf : ∀ (l : List Section) (w : Walk), w.dev.Canonical sz → (l.foldl (fun w c => doSection c w) w).dev.Canonical sz := by
    intro l
    induction l with
    | nil => exact fun _ h => h
    | cons c t ih => exact fun w h => ih _ (canonical_doSection c w h)
  unfold sectionFetch
  dsimp only
  have h1 := Device.canonical_modDie d (fun x => { x with fetch := [] }) h
  split
  · exact canonical_dieSettled _ (hr _ _ h1)
  · exact canonical_dieSettled _ (canonical_loadRecipes _ _ (hf _ _ h1))

theorem canonical_pinDone {s : Device} (hs : s.Canonical sz) :
    (pinDone s).Canonical sz := by
  unfold pinDone
  repeat' first
    | with_reducible assumption
    | with_reducible apply Device.canonical_pset
    | with_reducible apply canonical_nvmFree
    | with_reducible apply canonical_cachePins
    | with_reducible apply canonical_pinEnd
    | with_reducible apply Device.canonical_ite
    | with_reducible apply Device.canonical_each
    | with_reducible refine Device.canonical_modNvm ?_ (fun _ h => h) (fun _ h => h)
    | intro _
    | split
    | dsimp only

theorem canonical_pinKick {s : Device} (hs : s.Canonical sz) :
    (pinKick s).Canonical sz := by
  unfold pinKick
  repeat' first
    | with_reducible assumption
    | with_reducible apply canonical_flashBegin
    | with_reducible apply canonical_pinDone
    | with_reducible apply Device.canonical_ite
    | intro _
    | split
    | dsimp only

theorem canonical_ckptKick {s : Device} (hs : s.Canonical sz) :
    (ckptKick s).Canonical sz := by
  unfold ckptKick
  repeat' first
    | with_reducible assumption
    | with_reducible apply canonical_flashBegin
    | with_reducible apply Device.canonical_pset
    | with_reducible apply Device.canonical_ite
    | with_reducible refine Device.canonical_modNvm ?_ (fun _ h => h) (fun _ h => h)
    | intro _
    | split
    | dsimp only

theorem canonical_nvmNext (k : ℕ) {s : Device} (h : s.Canonical sz) : (nvmNext k s).Canonical sz := by
  induction k generalizing s with
  | zero => exact h
  | succ n ih =>
    rw [nvmNext]
    split
    · exact h
    · split
      · exact h
      · rename_i o _
        have h1 := canonical_nvmTake o h
        cases o with
        | handover => exact h1
        | spare => exact canonical_flashBegin _ h1
        | fetch d => exact ih (canonical_nvmFree (canonical_sectionFetch d h1))
        | ckpt => exact canonical_ckptKick h1
        | pins => exact canonical_pinKick h1
        | pt op a l => exact ih (canonical_ptStart op a l h1)

theorem canonical_nvmRun {s : Device} (hs : s.Canonical sz) :
    (nvmRun s).Canonical sz := by
  unfold nvmRun
  repeat' first
    | with_reducible assumption
    | with_reducible apply canonical_nvmNext
    | intro _
    | split
    | dsimp only

theorem canonical_spareRestore {s : Device} (hs : s.Canonical sz) :
    (spareRestore s).Canonical sz := by
  unfold spareRestore
  repeat' first
    | with_reducible assumption
    | with_reducible apply canonical_nvmRun
    | with_reducible apply canonical_nvmPush
    | with_reducible apply Device.canonical_ite
    | intro _
    | split
    | dsimp only

theorem canonical_ckptTake (data : Sys2Proof.Word) {s : Device} (hs : s.Canonical sz) :
    (ckptTake data s).Canonical sz := by
  unfold ckptTake
  repeat' first
    | with_reducible assumption
    | with_reducible apply canonical_ckptRequest
    | with_reducible apply Device.canonical_ite
    | intro _
    | split
    | dsimp only

theorem canonical_fallDone {s : Device} (hs : s.Canonical sz) :
    (fallDone s).Canonical sz := by
  unfold fallDone
  repeat' first
    | with_reducible assumption
    | with_reducible apply Device.canonical_pset
    | with_reducible apply Device.canonical_setReg
    | with_reducible apply canonical_logEvent
    | with_reducible apply Device.canonical_modSup
    | with_reducible apply canonical_nvmFree
    | with_reducible apply canonical_ringBest
    | with_reducible refine Device.canonical_modNvm ?_ (fun _ h => h) (fun _ h => h)
    | intro _
    | split
    | dsimp only

theorem canonical_fallKick {s : Device} (hs : s.Canonical sz) :
    (fallKick s).Canonical sz := by
  unfold fallKick
  repeat' first
    | with_reducible assumption
    | with_reducible apply canonical_flashBegin
    | intro _
    | split
    | dsimp only

theorem canonical_flashGoesOn {s : Device} (hs : s.Canonical sz) :
    (flashGoesOn s).Canonical sz := by
  unfold flashGoesOn
  repeat' first
    | with_reducible assumption
    | with_reducible apply canonical_nvmRun
    | with_reducible apply canonical_nvmFree
    | with_reducible apply Device.canonical_pset
    | with_reducible apply canonical_ckptKick
    | with_reducible apply canonical_pinKick
    | with_reducible apply canonical_ptEnd
    | with_reducible apply canonical_fallDone
    | with_reducible apply canonical_fallKick
    | with_reducible apply Device.canonical_modSup
    | with_reducible apply Device.canonical_ite
    | with_reducible refine Device.canonical_modNvm ?_ (fun _ h => h) (fun _ h => h)
    | intro _
    | split
    | dsimp only

theorem canonical_ckptInvalidate {s : Device} (h : s.Canonical sz) : (ckptInvalidate s).Canonical sz := by
  unfold ckptInvalidate
  refine canonical_logEvent _ _ _ _ _ (Device.canonical_pset _ _ (canonical_ringBest (canonical_modFlash h fun _ h => ?_)))
  exact bytesWf_foldl _ _ (fun _ _ h => flashProgram_wf _ _ h) _ h

theorem canonical_flashCut {s : Device} (h : s.Canonical sz) : (flashCut s).Canonical sz := by
  unfold flashCut
  split
  · exact h
  · exact Device.canonical_spend _ (Device.canonical_modNvm (canonical_modFlash h fun _ h => flashProgram_wf _ _ h)
      (fun _ h => h) (fun _ h => h))
  · refine Device.canonical_spend _ (Device.canonical_modNvm (canonical_modFlash h fun _ h => ?_) (fun _ h => h) (fun _ h => h))
    exact bytesWf_foldl _ _ (fun _ _ h => flashSet_wf _ _ h) _ (flashErase_wf _ h)

theorem canonical_ckptFail {s : Device} (hs : s.Canonical sz) :
    (ckptFail s).Canonical sz := by
  unfold ckptFail
  repeat' first
    | with_reducible assumption
    | with_reducible apply canonical_ckptInvalidate
    | with_reducible apply canonical_flashCut
    | with_reducible apply Device.canonical_pset
    | with_reducible apply canonical_nvmPush
    | with_reducible apply canonical_nvmFree
    | with_reducible refine Device.canonical_modNvm ?_ (fun _ h => h) (fun _ h => h)
    | intro _
    | split
    | dsimp only

theorem canonical_nvmBatonLost {s : Device} (hs : s.Canonical sz) :
    (nvmBatonLost s).Canonical sz := by
  unfold nvmBatonLost
  repeat' first
    | with_reducible assumption
    | with_reducible apply canonical_logEvent
    | with_reducible apply Device.canonical_pset
    | with_reducible apply canonical_nvmRun
    | with_reducible apply canonical_ckptFail
    | intro _
    | split
    | dsimp only

theorem canonical_setEdits (l : List (ℕ × ℕ)) {s : Device} (hs : s.Canonical sz) :
    (setEdits l s).Canonical sz := by
  unfold setEdits
  repeat' first
    | with_reducible assumption
    | with_reducible apply Device.canonical_pset
    | with_reducible refine Device.canonical_modNvm ?_ (fun _ h => h) (fun _ h => h)
    | intro _
    | split
    | dsimp only

theorem canonical_ckptCell (d : ℕ) {s : Device} (hs : s.Canonical sz) :
    (ckptCell d s).Canonical sz := by
  unfold ckptCell
  repeat' first
    | with_reducible assumption
    | with_reducible apply canonical_ckptKick
    | with_reducible apply Device.canonical_pset
    | with_reducible apply Device.canonical_ite
    | with_reducible refine Device.canonical_modNvm ?_ (fun _ h => h) (fun _ h => h)
    | intro _
    | split
    | dsimp only

theorem canonical_ckptForm {s : Device} (hs : s.Canonical sz) :
    (ckptForm s).Canonical sz := by
  unfold ckptForm
  repeat' first
    | with_reducible assumption
    | with_reducible apply Device.canonical_modDie
    | with_reducible apply canonical_nvmRun
    | with_reducible apply canonical_nvmPush
    | with_reducible apply Device.canonical_pset
    | with_reducible apply Device.canonical_each
    | with_reducible refine Device.canonical_modNvm ?_ (fun _ h => h) (fun _ h => h)
    | intro _
    | split
    | dsimp only

theorem canonical_ckptBoundary {s : Device} (hs : s.Canonical sz) :
    (ckptBoundary s).Canonical sz := by
  unfold ckptBoundary
  repeat' first
    | with_reducible assumption
    | with_reducible apply canonical_ckptForm
    | with_reducible apply Device.canonical_ite
    | intro _
    | split
    | dsimp only

theorem canonical_ckptDone {s : Device} (hs : s.Canonical sz) :
    (ckptDone s).Canonical sz := by
  unfold ckptDone
  repeat' first
    | with_reducible assumption
    | with_reducible apply Device.canonical_setReg
    | with_reducible apply Device.canonical_pset
    | with_reducible apply canonical_ringBest
    | with_reducible apply canonical_nvmRun
    | with_reducible apply canonical_nvmFree
    | with_reducible apply Device.canonical_ite
    | with_reducible refine Device.canonical_modNvm ?_ (fun _ h => h) (fun _ h => h)
    | intro _
    | split
    | dsimp only

theorem canonical_pinCommand (op : ℕ) (a : ℕ) (key : ℕ) {s : Device} (hs : s.Canonical sz) :
    (pinCommand op a key s).Canonical sz := by
  unfold pinCommand
  repeat' first
    | with_reducible assumption
    | with_reducible apply Device.canonical_pset
    | with_reducible apply canonical_setEdits
    | with_reducible apply Device.canonical_ite
    | with_reducible refine Device.canonical_modNvm ?_ (fun _ h => h) (fun _ h => h)
    | intro _
    | split
    | dsimp only

theorem canonical_flashDone {s : Device} (h : s.Canonical sz) : (flashDone s).Canonical sz := by
  unfold flashDone
  split
  · exact h
  · rename_i o _
    have h1 : (modFlash o.apply (s.modNvm fun n => { n with op := none })).Canonical sz :=
      canonical_modFlash (Device.canonical_modNvm h (fun _ h => h) (fun _ h => h)) (fun _ h => flashOp_wf o h)
    exact canonical_flashGoesOn h1

theorem canonical_ptCommand (op : ℕ) (len : ℕ) (key : ℕ) (go : Bool) {s : Device} (hs : s.Canonical sz) :
    (ptCommand op len key go s).Canonical sz := by
  unfold ptCommand
  repeat' first
    | with_reducible assumption
    | with_reducible apply Device.canonical_pset
    | with_reducible apply canonical_nvmRun
    | with_reducible apply canonical_nvmPush
    | with_reducible apply Device.canonical_ite
    | intro _
    | split
    | dsimp only

theorem canonical_flashComplete (sr : Sys2Proof.Byte) {s : Device} (hs : s.Canonical sz) :
    (flashComplete sr s).Canonical sz := by
  unfold flashComplete
  repeat' first
    | with_reducible assumption
    | with_reducible apply Device.canonical_pset
    | with_reducible apply canonical_flashDone
    | with_reducible apply Device.canonical_ite
    | intro _
    | split
    | dsimp only

theorem canonical_nvmFailed {s : Device} (hs : s.Canonical sz) :
    (nvmFailed s).Canonical sz := by
  unfold nvmFailed
  repeat' first
    | with_reducible assumption
    | with_reducible apply canonical_nvmRun
    | with_reducible apply canonical_nvmPush
    | with_reducible apply canonical_nvmFree
    | with_reducible apply canonical_ckptFail
    | with_reducible apply canonical_pinCut
    | with_reducible apply canonical_ptEnd
    | with_reducible apply Device.canonical_modSup
    | with_reducible apply Device.canonical_pset
    | with_reducible apply canonical_fallKick
    | with_reducible apply Device.canonical_ite
    | with_reducible refine Device.canonical_modNvm ?_ (fun _ h => h) (fun _ h => h)
    | intro _
    | split
    | dsimp only

theorem canonical_nvmTimeout (wel : Bool) {s : Device} (hs : s.Canonical sz) :
    (nvmTimeout wel s).Canonical sz := by
  unfold nvmTimeout
  repeat' first
    | with_reducible assumption
    | with_reducible apply canonical_flashCut
    | with_reducible apply canonical_nvmFailed
    | with_reducible apply canonical_logEvent
    | with_reducible apply Device.canonical_pset
    | with_reducible apply Device.canonical_ite
    | with_reducible refine Device.canonical_modNvm ?_ (fun _ h => h) (fun _ h => h)
    | intro _
    | split
    | dsimp only

theorem canonical_nvmBatonExpiry {s : Device} (hs : s.Canonical sz) :
    (nvmBatonExpiry s).Canonical sz := by
  unfold nvmBatonExpiry
  repeat' first
    | with_reducible assumption
    | with_reducible apply canonical_nvmBatonLost
    | with_reducible apply Device.canonical_ite
    | intro _
    | split
    | dsimp only

theorem canonical_nvmStop {s : Device} (h : s.Canonical sz) : (nvmStop s).Canonical sz := by
  unfold nvmStop
  refine Device.canonical_modNvm ?_ (fun _ h => h) fun _ _ => bytesWf_nil _
  split
  · exact canonical_modFlash h fun _ h => flashOp_wf _ h
  · exact canonical_flashCut h

theorem canonical_pinBoundary {s : Device} (hs : s.Canonical sz) :
    (pinBoundary s).Canonical sz := by
  unfold pinBoundary
  repeat' first
    | with_reducible assumption
    | with_reducible apply canonical_nvmPush
    | with_reducible apply Device.canonical_ite
    | with_reducible refine Device.canonical_modNvm ?_ (fun _ h => h) (fun _ h => h)
    | intro _
    | split
    | dsimp only

end Sys2Proof.Machine
end

