-- ==== Sys2Proof/Laws/CanonicalPackage.lean ====
section
/-! SUPPORT. Every operation of these files keeps the canonical form of the device (Device.Canonical). One lemma for each operation, in the order of the files. -/

set_option linter.unusedTactic false
set_option linter.unreachableTactic false
set_option linter.unusedVariables false

namespace Sys2Proof.Machine

variable {sz : Nat}

/-! Domain. -/

theorem canonical_outageWords {s : Device} (hs : s.Canonical sz) :
    (outageWords s).Canonical sz := by
  unfold outageWords
  repeat' first
    | with_reducible assumption
    | with_reducible apply Device.canonical_pset
    | intro _
    | split
    | dsimp only

theorem canonical_genDiff (lost : Bool) (recGen : Option ℕ) (d : ℕ) {s : Device} (hs : s.Canonical sz) :
    (genDiff lost recGen d s).Canonical sz := by
  unfold genDiff
  repeat' first
    | with_reducible assumption
    | with_reducible apply Device.canonical_cset
    | with_reducible apply Device.canonical_modGlean
    | with_reducible apply Device.canonical_ite
    | with_reducible apply Device.canonical_each
    | intro _
    | split
    | dsimp only

theorem canonical_coldConsts (g : ℕ) {s : Device} (hs : s.Canonical sz) :
    (coldConsts g s).Canonical sz := by
  unfold coldConsts
  repeat' first
    | with_reducible assumption
    | with_reducible apply Device.canonical_cforce
    | with_reducible apply canonical_forceConsts
    | with_reducible apply Device.canonical_modConv
    | with_reducible apply canonical_takeConsts
    | with_reducible apply Device.canonical_each
    | intro _
    | split
    | dsimp only

theorem canonical_unaccounted (seq : ℕ) (g : ℕ) {s : Device} (hs : s.Canonical sz) :
    (unaccounted seq g s).Canonical sz := by
  unfold unaccounted
  repeat' first
    | with_reducible assumption
    | with_reducible apply canonical_logEvent
    | with_reducible apply canonical_setMap
    | with_reducible apply Device.canonical_cset
    | intro _
    | split
    | dsimp only

theorem canonical_keptSetpoints (g : ℕ) {s : Device} (hs : s.Canonical sz) :
    (keptSetpoints g s).Canonical sz := by
  unfold keptSetpoints
  repeat' first
    | with_reducible assumption
    | with_reducible apply Device.canonical_modLp
    | intro _
    | split
    | dsimp only

theorem canonical_gleanCopy (d : ℕ) {s : Device} (hs : s.Canonical sz) :
    (gleanCopy d s).Canonical sz := by
  unfold gleanCopy
  repeat' first
    | with_reducible assumption
    | with_reducible apply Device.canonical_modGlean
    | intro _
    | split
    | dsimp only

theorem canonical_restoreStep (step : ℕ) (recipe : ℕ) (e : ℕ) (pass : Bool) (fail : Bool) (src : ℕ) (g : ℕ) {s : Device} (hs : s.Canonical sz) :
    (restoreStep step recipe e pass fail src g s).Canonical sz := by
  unfold restoreStep
  repeat' first
    | with_reducible assumption
    | with_reducible apply Device.canonical_cset
    | with_reducible apply canonical_setEng
    | with_reducible apply Device.canonical_modEng
    | with_reducible apply Device.canonical_ite
    | intro _
    | split
    | dsimp only

theorem canonical_restoreChan (rcd : List Sys2Proof.Byte) (page : Option (List Sys2Proof.Byte)) (g : ℕ) {s : Device} (hs : s.Canonical sz) :
    (restoreChan rcd page g s).Canonical sz := by
  unfold restoreChan
  repeat' first
    | with_reducible assumption
    | with_reducible apply Device.canonical_modCh
    | with_reducible apply Device.canonical_cset
    | with_reducible apply Device.canonical_modEng
    | with_reducible apply canonical_restoreStep
    | with_reducible apply canonical_unaccounted
    | with_reducible apply Device.canonical_ite
    | intro _
    | split
    | dsimp only

theorem rfWf_retainedRegs (d : ℕ) {s : Device} (h : s.Canonical sz) : rfWf (retainedRegs d s) = true := by
  unfold retainedRegs
  generalize (s.die d).glean.ret.regs.filter (fun p => ownerOf p.1 == d && !heldWord d p.1) = l
  have key : ∀ (l : RegFile) (f : RegFile), rfWf f = true →
      rfWf (l.foldl (fun f p => rfSet f p.1 (merge (kMask p.1) (rfGet f p.1) p.2)) f) = true := by
    intro l
    induction l with
    | nil => exact fun _ h => h
    | cons p l ih => exact fun f hf => ih _ (rfWf_set _ _ hf)
  exact key l _ h.regs

theorem canonical_decideWords (dark : Bool) (d : ℕ) {s : Device} (h : s.Canonical sz) : (decideWords dark d s).Canonical sz := by
  refine { h with regs := ?_, force := rfWf_filter _ h.force }
  show rfWf (if dark then s.regs else retainedRegs d s) = true
  split
  · exact h.regs
  · exact rfWf_retainedRegs d h

theorem canonical_noRecord (d : ℕ) {s : Device} (hs : s.Canonical sz) :
    (noRecord d s).Canonical sz := by
  unfold noRecord
  repeat' first
    | with_reducible assumption
    | with_reducible apply canonical_logEvent
    | with_reducible apply Device.canonical_cset
    | with_reducible apply Device.canonical_each
    | intro _
    | split
    | dsimp only

theorem canonical_stopLead (recovery : Bool) (d : ℕ) {s : Device} (hs : s.Canonical sz) :
    (stopLead recovery d s).Canonical sz := by
  unfold stopLead
  repeat' first
    | with_reducible assumption
    | with_reducible apply Device.canonical_clearRun
    | with_reducible apply Device.canonical_modPins
    | with_reducible apply canonical_nvmStop
    | with_reducible apply canonical_runStop
    | with_reducible apply Device.canonical_ite
    | intro _
    | split
    | dsimp only

theorem canonical_stopBooks (recovery : Bool) (d : ℕ) {s : Device} (hs : s.Canonical sz) :
    (stopBooks recovery d s).Canonical sz := by
  unfold stopBooks
  repeat' first
    | with_reducible assumption
    | with_reducible apply canonical_bookPartial
    | with_reducible apply canonical_plsBook
    | with_reducible apply canonical_plsDieStop
    | with_reducible apply canonical_plsCut
    | with_reducible apply canonical_otpCutShort
    | with_reducible apply canonical_retCommit
    | with_reducible apply Device.canonical_ite
    | with_reducible apply Device.canonical_each
    | intro _
    | split
    | dsimp only

theorem canonical_mainStop (recovery : Bool) (d : ℕ) {s : Device} (hs : s.Canonical sz) :
    (mainStop recovery d s).Canonical sz := by
  unfold mainStop
  repeat' first
    | with_reducible assumption
    | with_reducible apply canonical_monEnd
    | with_reducible apply canonical_stopBooks
    | with_reducible apply canonical_benchBaton
    | with_reducible apply canonical_valvesHusk
    | with_reducible apply canonical_gatesOff
    | with_reducible apply Device.canonical_modGlean
    | with_reducible apply Device.canonical_modDie
    | with_reducible apply canonical_publishDies
    | with_reducible apply canonical_stopLead
    | with_reducible apply Device.canonical_ite
    | with_reducible apply Device.canonical_each
    | intro _
    | split
    | dsimp only

theorem canonical_stopAll {s : Device} (hs : s.Canonical sz) :
    (stopAll s).Canonical sz := by
  unfold stopAll
  repeat' first
    | with_reducible assumption
    | with_reducible apply canonical_mainStop
    | with_reducible apply Device.canonical_each
    | intro _
    | split
    | dsimp only

theorem canonical_refRetained (dark : Bool) (d : ℕ) {s : Device} (hs : s.Canonical sz) :
    (refRetained dark d s).Canonical sz := by
  unfold refRetained
  repeat' first
    | with_reducible assumption
    | with_reducible apply Device.canonical_modDie
    | with_reducible apply Device.canonical_dset
    | with_reducible apply Device.canonical_cset
    | with_reducible apply Device.canonical_ite
    | with_reducible apply Device.canonical_each
    | intro _
    | split
    | dsimp only

theorem canonical_chanBlank (g : ℕ) {s : Device} (hs : s.Canonical sz) :
    (chanBlank g s).Canonical sz := by
  unfold chanBlank
  repeat' first
    | with_reducible assumption
    | with_reducible apply Device.canonical_modCh
    | intro _
    | split
    | dsimp only

theorem canonical_ledgerClear {s : Device} (h : s.Canonical sz) : (ledgerClear s).Canonical sz :=
  { Device.canonical_setReg 0xA5 0 (Device.canonical_setReg 0xA4 0 h) with ring := List.length_replicate .. }

theorem rfWf_startRegs (d : ℕ) (isNew : Bool) {s : Device} (h : s.Canonical sz) : rfWf (startRegs d isNew s) = true :=
  rfWf_foldl_set (fun p => merge (kMask p.1) (regDefault p.1) p.2) _ (rfWf_filter _ h.regs)

theorem canonical_dieWords (isNew : Bool) (d : ℕ) {s : Device} (h : s.Canonical sz) : (dieWords isNew d s).Canonical sz :=
  { h with regs := rfWf_startRegs _ _ h, force := rfWf_filter _ h.force }

theorem canonical_dieStart (recovery : Bool) (d : ℕ) {s : Device} (h : s.Canonical sz) : (dieStart recovery d s).Canonical sz := by
  unfold dieStart
  dsimp only
  refine canonical_gleanCopy _ (canonical_otpLoad _ ?_)
  refine Device.canonical_ite (fun _ => canonical_ledgerClear ?_) fun _ => ?_
  all_goals exact Device.canonical_modDie _ _ (Device.canonical_each _ (canonical_dieWords _ _ h) fun c t h => canonical_chanBlank _ h)

theorem canonical_gleanReport (d : ℕ) (g : Glean) (o : RetOutcome) {s : Device} (hs : s.Canonical sz) :
    (gleanReport d g o s).Canonical sz := by
  unfold gleanReport
  repeat' first
    | with_reducible assumption
    | with_reducible apply Device.canonical_setReg
    | with_reducible apply Device.canonical_pset
    | with_reducible apply Device.canonical_ite
    | intro _
    | split
    | dsimp only

theorem canonical_darkReport (d : ℕ) (o : RetOutcome) {s : Device} (hs : s.Canonical sz) :
    (darkReport d o s).Canonical sz := by
  unfold darkReport
  repeat' first
    | with_reducible assumption
    | with_reducible apply Device.canonical_pset
    | with_reducible apply canonical_setIrq
    | with_reducible apply canonical_logEvent
    | with_reducible apply canonical_ledgerClear
    | intro _
    | split
    | dsimp only

theorem canonical_chanStart (dark : Bool) (r : Retention) (g : ℕ) {s : Device} (hs : s.Canonical sz) :
    (chanStart dark r g s).Canonical sz := by
  unfold chanStart
  repeat' first
    | with_reducible assumption
    | with_reducible apply Device.canonical_modCh
    | with_reducible apply canonical_keptSetpoints
    | with_reducible apply Device.canonical_cset
    | with_reducible apply canonical_closeEpoch
    | with_reducible apply Device.canonical_ite
    | intro _
    | split
    | dsimp only

theorem canonical_refAtLoad (d : ℕ) {s : Device} (hs : s.Canonical sz) :
    (refAtLoad d s).Canonical sz := by
  unfold refAtLoad
  repeat' first
    | with_reducible assumption
    | with_reducible apply Device.canonical_dset
    | with_reducible apply Device.canonical_modDie
    | with_reducible apply Device.canonical_cset
    | with_reducible apply Device.canonical_ite
    | with_reducible apply Device.canonical_each
    | intro _
    | split
    | dsimp only

theorem canonical_dieDecide (d : ℕ) {s : Device} (hs : s.Canonical sz) :
    (dieDecide d s).Canonical sz := by
  unfold dieDecide
  repeat' first
    | with_reducible assumption
    | with_reducible apply canonical_retWrite
    | with_reducible apply canonical_chanStart
    | with_reducible apply canonical_decideWords
    | with_reducible apply Device.canonical_modDie
    | with_reducible apply canonical_refRetained
    | with_reducible apply canonical_darkReport
    | with_reducible apply canonical_gleanReport
    | with_reducible apply Device.canonical_cset
    | with_reducible apply canonical_outageWords
    | with_reducible apply Device.canonical_ite
    | with_reducible apply Device.canonical_each
    | intro _
    | split
    | dsimp only

theorem canonical_restoreDie (d : ℕ) {s : Device} (hs : s.Canonical sz) :
    (restoreDie d s).Canonical sz := by
  unfold restoreDie
  repeat' first
    | with_reducible assumption
    | with_reducible apply canonical_gleanEnables
    | with_reducible apply canonical_refAtLoad
    | with_reducible apply canonical_genDiff
    | with_reducible apply canonical_coldConsts
    | with_reducible apply canonical_noRecord
    | with_reducible apply canonical_restoreChan
    | with_reducible apply Device.canonical_ite
    | with_reducible apply Device.canonical_each
    | intro _
    | split
    | dsimp only

/-! Reset. -/

theorem canonical_seatsAgain {s : Device} (hs : s.Canonical sz) :
    (seatsAgain s).Canonical sz := by
  unfold seatsAgain
  repeat' first
    | with_reducible assumption
    | with_reducible apply Device.canonical_modEng
    | with_reducible apply Device.canonical_ite
    | with_reducible apply Device.canonical_foldl
    | intro _
    | split
    | dsimp only

theorem canonical_leadFresh {s : Device} (h : s.Canonical sz) : (leadFresh s).Canonical sz := by
  unfold leadFresh
  exact canonical_schedulerStart { h with shadow := rfl, flash := h.flash, buf := bytesWf_nil _, posting := Nat.zero_le _ }

theorem canonical_recoveriesUp {s : Device} (hs : s.Canonical sz) :
    (recoveriesUp s).Canonical sz := by
  unfold recoveriesUp
  repeat' first
    | with_reducible assumption
    | with_reducible apply canonical_publishDies
    | with_reducible apply canonical_dieStart
    | with_reducible apply Device.canonical_ite
    | with_reducible apply Device.canonical_each
    | intro _
    | split
    | dsimp only

theorem canonical_holdQualify {s : Device} (hs : s.Canonical sz) :
    (holdQualify s).Canonical sz := by
  unfold holdQualify
  repeat' first
    | with_reducible assumption
    | with_reducible apply canonical_stateValves
    | with_reducible apply canonical_seqOn
    | with_reducible apply canonical_changeState
    | intro _
    | split
    | dsimp only

theorem canonical_pulsesDue {s : Device} (hs : s.Canonical sz) :
    (pulsesDue s).Canonical sz := by
  unfold pulsesDue
  repeat' first
    | with_reducible assumption
    | with_reducible apply canonical_modPulse
    | with_reducible apply Device.canonical_ite
    | with_reducible apply Device.canonical_each
    | intro _
    | split
    | dsimp only

theorem canonical_setStart (cause : ℕ) {s : Device} (hs : s.Canonical sz) :
    (setStart cause s).Canonical sz := by
  unfold setStart
  repeat' first
    | with_reducible assumption
    | with_reducible apply Device.canonical_modSup
    | intro _
    | split
    | dsimp only

theorem canonical_pkgWatchdog {s : Device} (hs : s.Canonical sz) :
    (pkgWatchdog s).Canonical sz := by
  unfold pkgWatchdog
  repeat' first
    | with_reducible assumption
    | with_reducible apply Device.canonical_modSup
    | with_reducible apply canonical_leaseEnd
    | with_reducible apply canonical_mainStop
    | with_reducible apply canonical_nvmBatonLost
    | with_reducible apply canonical_setStart
    | with_reducible apply Device.canonical_ite
    | with_reducible apply Device.canonical_each
    | intro _
    | split
    | dsimp only

theorem canonical_trainingFailed (d : ℕ) {s : Device} (hs : s.Canonical sz) :
    (trainingFailed d s).Canonical sz := by
  unfold trainingFailed
  repeat' first
    | with_reducible assumption
    | with_reducible apply Device.canonical_modDie
    | with_reducible apply canonical_valvesHusk
    | with_reducible apply canonical_gatesOff
    | with_reducible apply Device.canonical_ite
    | with_reducible apply Device.canonical_each
    | intro _
    | split
    | dsimp only

theorem canonical_takeControl (d : ℕ) {s : Device} (hs : s.Canonical sz) :
    (takeControl d s).Canonical sz := by
  unfold takeControl
  repeat' first
    | with_reducible assumption
    | with_reducible apply Device.canonical_modDie
    | with_reducible apply canonical_huskIdle
    | with_reducible apply Device.canonical_ite
    | with_reducible apply Device.canonical_each
    | intro _
    | split
    | dsimp only

theorem canonical_leaveHold {s : Device} (hs : s.Canonical sz) :
    (leaveHold s).Canonical sz := by
  unfold leaveHold
  repeat' first
    | with_reducible assumption
    | with_reducible apply canonical_holdQualify
    | with_reducible apply Device.canonical_ite
    | intro _
    | split
    | dsimp only

theorem canonical_enterHold {s : Device} (hs : s.Canonical sz) :
    (enterHold s).Canonical sz := by
  unfold enterHold
  repeat' first
    | with_reducible assumption
    | with_reducible apply canonical_stateValves
    | with_reducible apply canonical_changeState
    | with_reducible apply canonical_seqOffHold
    | intro _
    | split
    | dsimp only

theorem canonical_dropRelease (g : ℕ) {s : Device} (hs : s.Canonical sz) :
    (dropRelease g s).Canonical sz := by
  unfold dropRelease
  repeat' first
    | with_reducible assumption
    | with_reducible apply Device.canonical_modDue
    | with_reducible apply Device.canonical_ite
    | intro _
    | split
    | dsimp only

theorem canonical_tripNonRun {s : Device} (hs : s.Canonical sz) :
    (tripNonRun s).Canonical sz := by
  unfold tripNonRun
  repeat' first
    | with_reducible assumption
    | with_reducible apply canonical_leaveHold
    | with_reducible apply canonical_enterHold
    | with_reducible apply canonical_handoverValves
    | with_reducible apply canonical_stopChannel
    | with_reducible apply canonical_dropRelease
    | with_reducible apply Device.canonical_each
    | intro _
    | split
    | dsimp only

theorem canonical_loadEnd {s : Device} (hs : s.Canonical sz) :
    (loadEnd s).Canonical sz := by
  unfold loadEnd
  repeat' first
    | with_reducible assumption
    | with_reducible apply canonical_trainingFailed
    | with_reducible apply canonical_takeControl
    | with_reducible apply canonical_publishDies
    | with_reducible apply canonical_changeState
    | with_reducible apply canonical_seqOn
    | with_reducible apply canonical_tripNonRun
    | with_reducible apply canonical_stateValves
    | with_reducible apply Device.canonical_ite
    | with_reducible apply Device.canonical_each
    | intro _
    | split
    | dsimp only

theorem canonical_resumeChan (g : ℕ) {s : Device} (hs : s.Canonical sz) :
    (resumeChan g s).Canonical sz := by
  unfold resumeChan
  repeat' first
    | with_reducible assumption
    | with_reducible apply Device.canonical_cset
    | with_reducible apply canonical_traceEvent
    | with_reducible apply canonical_recipeEnd
    | with_reducible apply canonical_endStep
    | with_reducible apply Device.canonical_pinc
    | with_reducible apply canonical_setMap
    | with_reducible apply canonical_engMode
    | with_reducible apply canonical_setEng
    | with_reducible apply Device.canonical_modEng
    | with_reducible apply canonical_carryResume
    | with_reducible apply Device.canonical_ite
    | intro _
    | split
    | dsimp only

theorem canonical_resumeDie (d : ℕ) {s : Device} (hs : s.Canonical sz) :
    (resumeDie d s).Canonical sz := by
  unfold resumeDie
  repeat' first
    | with_reducible assumption
    | with_reducible apply canonical_resumeChan
    | with_reducible apply Device.canonical_ite
    | with_reducible apply Device.canonical_each
    | intro _
    | split
    | dsimp only

theorem canonical_warmStart {s : Device} (hs : s.Canonical sz) :
    (warmStart s).Canonical sz := by
  unfold warmStart
  repeat' first
    | with_reducible assumption
    | with_reducible apply canonical_setStart
    | with_reducible apply Device.canonical_ite
    | intro _
    | split
    | dsimp only

theorem canonical_pulsesLoad {s : Device} (hs : s.Canonical sz) :
    (pulsesLoad s).Canonical sz := by
  unfold pulsesLoad
  repeat' first
    | with_reducible assumption
    | with_reducible apply canonical_modPulse
    | with_reducible apply canonical_putResq
    | with_reducible apply Device.canonical_ite
    | with_reducible apply Device.canonical_each
    | intro _
    | split
    | dsimp only

theorem canonical_coldPowerOn {s : Device} (hs : s.Canonical sz) :
    (coldPowerOn s).Canonical sz := by
  unfold coldPowerOn
  repeat' first
    | with_reducible assumption
    | with_reducible apply canonical_setStart
    | with_reducible apply Device.canonical_pset
    | with_reducible apply Device.canonical_ite
    | intro _
    | split
    | dsimp only

theorem canonical_restartAll (cause : ℕ) {s : Device} (hs : s.Canonical sz) :
    (restartAll cause s).Canonical sz := by
  unfold restartAll
  repeat' first
    | with_reducible assumption
    | with_reducible apply canonical_setStart
    | with_reducible apply canonical_stopAll
    | intro _
    | split
    | dsimp only

theorem canonical_softReset {s : Device} (hs : s.Canonical sz) :
    (softReset s).Canonical sz := by
  unfold softReset
  repeat' first
    | with_reducible assumption
    | with_reducible apply Device.canonical_modSup
    | with_reducible apply canonical_restartAll
    | with_reducible apply Device.canonical_ite
    | intro _
    | split
    | dsimp only

theorem canonical_otpReload (d : ℕ) {s : Device} (hs : s.Canonical sz) :
    (otpReload d s).Canonical sz := by
  unfold otpReload
  repeat' first
    | with_reducible assumption
    | with_reducible apply canonical_otpRefuse
    | with_reducible apply canonical_restartAll
    | with_reducible apply Device.canonical_ite
    | intro _
    | split
    | dsimp only

theorem canonical_releaseAll (data : Sys2Proof.Word) {s : Device} (hs : s.Canonical sz) :
    (releaseAll data s).Canonical sz := by
  unfold releaseAll
  repeat' first
    | with_reducible assumption
    | with_reducible apply canonical_seqCmd
    | with_reducible apply Device.canonical_ite
    | with_reducible apply Device.canonical_each
    | intro _
    | split
    | dsimp only

theorem canonical_resetNRise {s : Device} (hs : s.Canonical sz) :
    (resetNRise s).Canonical sz := by
  unfold resetNRise
  repeat' first
    | with_reducible assumption
    | with_reducible apply canonical_startSequencer
    | with_reducible apply Device.canonical_modPins
    | with_reducible apply Device.canonical_modSup
    | with_reducible apply Device.canonical_ite
    | intro _
    | split
    | dsimp only

theorem canonical_autoStart (g : ℕ) {s : Device} (hs : s.Canonical sz) :
    (autoStart g s).Canonical sz := by
  unfold autoStart
  repeat' first
    | with_reducible assumption
    | with_reducible apply canonical_startRecipe
    | with_reducible apply Device.canonical_ite
    | intro _
    | split
    | dsimp only

theorem canonical_lockWaitTimeout {s : Device} (hs : s.Canonical sz) :
    (lockWaitTimeout s).Canonical sz := by
  unfold lockWaitTimeout
  repeat' first
    | with_reducible assumption
    | with_reducible apply Device.canonical_modSup
    | with_reducible apply Device.canonical_pset
    | with_reducible apply Device.canonical_ite
    | intro _
    | split
    | dsimp only

theorem canonical_husksAll (b : Bool) {s : Device} (hs : s.Canonical sz) :
    (husksAll b s).Canonical sz := by
  unfold husksAll
  repeat' first
    | with_reducible assumption
    | with_reducible apply Device.canonical_modPins
    | intro _
    | split
    | dsimp only

theorem canonical_resumeCounts {s : Device} (hs : s.Canonical sz) :
    (resumeCounts s).Canonical sz := by
  unfold resumeCounts
  repeat' first
    | with_reducible assumption
    | with_reducible apply Device.canonical_pset
    | intro _
    | split
    | dsimp only

theorem canonical_resumeAll {s : Device} (hs : s.Canonical sz) :
    (resumeAll s).Canonical sz := by
  unfold resumeAll
  repeat' first
    | with_reducible assumption
    | with_reducible apply Device.canonical_pset
    | with_reducible apply canonical_autoStart
    | with_reducible apply canonical_resumeDie
    | with_reducible apply canonical_resumeCounts
    | with_reducible apply Device.canonical_ite
    | with_reducible apply Device.canonical_each
    | intro _
    | split
    | dsimp only

theorem canonical_qualifyPass {s : Device} (hs : s.Canonical sz) :
    (qualifyPass s).Canonical sz := by
  unfold qualifyPass
  repeat' first
    | with_reducible assumption
    | with_reducible apply canonical_resumeAll
    | with_reducible apply canonical_stateValves
    | with_reducible apply Device.canonical_modSup
    | with_reducible apply canonical_changeState
    | with_reducible apply Device.canonical_ite
    | intro _
    | split
    | dsimp only

theorem canonical_diesUp (cause : ℕ) (dies : List ℕ) {s : Device} (hs : s.Canonical sz) :
    (diesUp cause dies s).Canonical sz := by
  unfold diesUp
  repeat' first
    | with_reducible assumption
    | with_reducible apply Device.canonical_modDie
    | with_reducible apply Device.canonical_modLink
    | with_reducible apply canonical_dieStart
    | with_reducible apply Device.canonical_each
    | intro _
    | split
    | dsimp only

theorem canonical_startStat (cause : ℕ) {s : Device} (hs : s.Canonical sz) :
    (startStat cause s).Canonical sz := by
  unfold startStat
  repeat' first
    | with_reducible assumption
    | with_reducible apply Device.canonical_pset
    | with_reducible apply Device.canonical_ite
    | intro _
    | split
    | dsimp only

theorem canonical_pkgStart (tmode : Bool) {s : Device} (hs : s.Canonical sz) :
    (pkgStart tmode s).Canonical sz := by
  unfold pkgStart
  repeat' first
    | with_reducible assumption
    | with_reducible apply canonical_recoveriesUp
    | with_reducible apply canonical_stopAll
    | with_reducible apply canonical_diesUp
    | with_reducible apply canonical_leadFresh
    | with_reducible apply canonical_seatsAgain
    | with_reducible apply Device.canonical_setReg
    | with_reducible apply canonical_benchBaton
    | with_reducible apply canonical_stateValves
    | with_reducible apply canonical_clampTest
    | with_reducible apply canonical_pulsesDue
    | with_reducible apply canonical_startStat
    | with_reducible apply Device.canonical_pset
    | with_reducible apply canonical_ckptRequest
    | with_reducible apply canonical_logEvent
    | with_reducible apply canonical_publishDies
    | with_reducible apply canonical_husksAll
    | with_reducible apply canonical_gleanRise
    | with_reducible apply Device.canonical_modSup
    | with_reducible apply Device.canonical_ite
    | with_reducible apply Device.canonical_foldl
    | with_reducible apply Device.canonical_each
    | intro _
    | split
    | dsimp only

theorem canonical_resetNLow {s : Device} (hs : s.Canonical sz) :
    (resetNLow s).Canonical sz := by
  unfold resetNLow
  repeat' first
    | with_reducible assumption
    | with_reducible apply canonical_stopAll
    | with_reducible apply Device.canonical_modPins
    | with_reducible apply Device.canonical_modSup
    | with_reducible apply canonical_setStart
    | with_reducible apply Device.canonical_ite
    | intro _
    | split
    | dsimp only

theorem canonical_loadImage {s : Device} (hs : s.Canonical sz) :
    (loadImage s).Canonical sz := by
  unfold loadImage
  repeat' first
    | with_reducible assumption
    | with_reducible apply canonical_dieDecide
    | with_reducible apply canonical_shadowRebuild
    | with_reducible apply Device.canonical_pset
    | with_reducible apply canonical_imageLoad
    | with_reducible apply canonical_pulsesLoad
    | with_reducible apply canonical_gleanRise
    | with_reducible apply canonical_restoreDie
    | with_reducible apply Device.canonical_ite
    | with_reducible apply Device.canonical_each
    | intro _
    | split
    | dsimp only

theorem canonical_hostSoftReset (key : ℕ) {s : Device} (hs : s.Canonical sz) :
    (hostSoftReset key s).Canonical sz := by
  unfold hostSoftReset
  repeat' first
    | with_reducible assumption
    | with_reducible apply canonical_softReset
    | with_reducible apply Device.canonical_ite
    | intro _
    | split
    | dsimp only

theorem canonical_lockClock {s : Device} (hs : s.Canonical sz) :
    (lockClock s).Canonical sz := by
  unfold lockClock
  repeat' first
    | with_reducible assumption
    | with_reducible apply Device.canonical_modSup
    | with_reducible apply Device.canonical_ite
    | intro _
    | split
    | dsimp only

/-! Handover. -/

theorem canonical_shipExit (cause : ℕ) {s : Device} (hs : s.Canonical sz) :
    (shipExit cause s).Canonical sz := by
  unfold shipExit
  repeat' first
    | with_reducible assumption
    | with_reducible apply Device.canonical_modGlean
    | with_reducible apply Device.canonical_pset
    | with_reducible apply canonical_startSequencer
    | with_reducible apply Device.canonical_modPins
    | with_reducible apply Device.canonical_ite
    | with_reducible apply Device.canonical_each
    | intro _
    | split
    | dsimp only

theorem canonical_shipWakeN (lowMs : ℕ) {s : Device} (hs : s.Canonical sz) :
    (shipWakeN lowMs s).Canonical sz := by
  unfold shipWakeN
  repeat' first
    | with_reducible assumption
    | with_reducible apply canonical_shipExit
    | with_reducible apply Device.canonical_ite
    | intro _
    | split
    | dsimp only

theorem canonical_enterKeep {s : Device} (hs : s.Canonical sz) :
    (enterKeep s).Canonical sz := by
  unfold enterKeep
  repeat' first
    | with_reducible assumption
    | with_reducible apply canonical_setPkgState
    | with_reducible apply canonical_stopAll
    | intro _
    | split
    | dsimp only

theorem canonical_controlledStop {s : Device} (hs : s.Canonical sz) :
    (controlledStop s).Canonical sz := by
  unfold controlledStop
  repeat' first
    | with_reducible assumption
    | with_reducible apply canonical_enterKeep
    | with_reducible apply canonical_railOff
    | with_reducible apply canonical_seqOff
    | with_reducible apply Device.canonical_ite
    | with_reducible apply Device.canonical_foldl
    | intro _
    | split
    | dsimp only

theorem canonical_holdStoreLow {s : Device} (hs : s.Canonical sz) :
    (holdStoreLow s).Canonical sz := by
  unfold holdStoreLow
  repeat' first
    | with_reducible assumption
    | with_reducible apply canonical_controlledStop
    | with_reducible apply Device.canonical_ite
    | intro _
    | split
    | dsimp only

theorem canonical_pfReady {s : Device} (hs : s.Canonical sz) :
    (pfReady s).Canonical sz := by
  unfold pfReady
  repeat' first
    | with_reducible assumption
    | with_reducible apply Device.canonical_modSup
    | with_reducible apply canonical_leaveHold
    | with_reducible apply Device.canonical_ite
    | intro _
    | split
    | dsimp only

theorem canonical_carryDeferred {s : Device} (hs : s.Canonical sz) :
    (carryDeferred s).Canonical sz := by
  unfold carryDeferred
  repeat' first
    | with_reducible assumption
    | with_reducible apply Device.canonical_modSup
    | with_reducible apply canonical_restartAll
    | with_reducible apply canonical_pkgWatchdog
    | with_reducible apply Device.canonical_ite
    | intro _
    | split
    | dsimp only

theorem canonical_handoverComplete {s : Device} (hs : s.Canonical sz) :
    (handoverComplete s).Canonical sz := by
  unfold handoverComplete
  repeat' first
    | with_reducible assumption
    | with_reducible apply canonical_enterHold
    | with_reducible apply Device.canonical_pset
    | with_reducible apply Device.canonical_pinc
    | with_reducible apply canonical_logEvent
    | with_reducible apply canonical_carryDeferred
    | with_reducible apply canonical_nvmRun
    | with_reducible apply canonical_leaveHold
    | with_reducible apply Device.canonical_ite
    | intro _
    | split
    | dsimp only

theorem canonical_vsysCollapse {s : Device} (hs : s.Canonical sz) :
    (vsysCollapse s).Canonical sz := by
  unfold vsysCollapse
  repeat' first
    | with_reducible assumption
    | with_reducible apply canonical_enterKeep
    | with_reducible apply Device.canonical_ite
    | intro _
    | split
    | dsimp only

theorem canonical_shipDown {s : Device} (hs : s.Canonical sz) :
    (shipDown s).Canonical sz := by
  unfold shipDown
  repeat' first
    | with_reducible assumption
    | with_reducible apply canonical_railOff
    | with_reducible apply Device.canonical_modPins
    | with_reducible apply canonical_setPkgState
    | with_reducible apply canonical_stopAll
    | with_reducible apply Device.canonical_modGlean
    | with_reducible apply Device.canonical_ite
    | with_reducible apply Device.canonical_foldl
    | intro _
    | split
    | dsimp only

theorem canonical_pageForm {s : Device} (hs : s.Canonical sz) :
    (pageForm s).Canonical sz := by
  unfold pageForm
  repeat' first
    | with_reducible assumption
    | with_reducible apply Device.canonical_modSup
    | intro _
    | split
    | dsimp only

theorem canonical_cutTransfer {s : Device} (hs : s.Canonical sz) :
    (cutTransfer s).Canonical sz := by
  unfold cutTransfer
  repeat' first
    | with_reducible assumption
    | with_reducible apply canonical_nvmCount
    | with_reducible apply canonical_ptEnd
    | with_reducible apply Device.canonical_ite
    | with_reducible refine Device.canonical_modNvm ?_ (fun _ h => h) (fun _ h => h)
    | intro _
    | split
    | dsimp only

theorem canonical_cutCheckpoint {s : Device} (hs : s.Canonical sz) :
    (cutCheckpoint s).Canonical sz := by
  unfold cutCheckpoint
  repeat' first
    | with_reducible assumption
    | with_reducible apply Device.canonical_modSup
    | with_reducible apply Device.canonical_pset
    | with_reducible apply canonical_nvmCount
    | with_reducible apply Device.canonical_ite
    | with_reducible refine Device.canonical_modNvm ?_ (fun _ h => h) (fun _ h => h)
    | intro _
    | split
    | dsimp only

theorem canonical_takePort (slot : ℕ) (write : Bool) {s : Device} (hs : s.Canonical sz) :
    (takePort slot write s).Canonical sz := by
  unfold takePort
  repeat' first
    | with_reducible assumption
    | with_reducible apply Device.canonical_pset
    | with_reducible apply canonical_fallKick
    | with_reducible apply Device.canonical_modSup
    | with_reducible apply canonical_nvmFree
    | with_reducible apply Device.canonical_ite
    | with_reducible refine Device.canonical_modNvm ?_ (fun _ h => h) (fun _ h => h)
    | intro _
    | split
    | dsimp only

theorem canonical_cutErase {s : Device} (hs : s.Canonical sz) :
    (cutErase s).Canonical sz := by
  unfold cutErase
  repeat' first
    | with_reducible assumption
    | with_reducible apply canonical_flashCut
    | intro _
    | split
    | dsimp only

theorem canonical_spareUsed (begun : Bool) {s : Device} (hs : s.Canonical sz) :
    (spareUsed begun s).Canonical sz := by
  unfold spareUsed
  repeat' first
    | with_reducible assumption
    | with_reducible apply canonical_nvmPush
    | with_reducible apply Device.canonical_pset
    | with_reducible apply Device.canonical_ite
    | intro _
    | split
    | dsimp only

theorem canonical_handoverNvm {s : Device} (hs : s.Canonical sz) :
    (handoverNvm s).Canonical sz := by
  unfold handoverNvm
  repeat' first
    | with_reducible assumption
    | with_reducible apply canonical_pageForm
    | with_reducible apply canonical_pinCut
    | with_reducible apply canonical_cutTransfer
    | with_reducible apply canonical_cutCheckpoint
    | with_reducible apply Device.canonical_pset
    | with_reducible apply canonical_takePort
    | with_reducible apply canonical_cutErase
    | with_reducible apply Device.canonical_modSup
    | with_reducible apply canonical_spareUsed
    | with_reducible apply canonical_nvmPush
    | with_reducible apply Device.canonical_ite
    | intro _
    | split
    | dsimp only

theorem canonical_powerFailTrip (own : ℕ) {s : Device} (hs : s.Canonical sz) :
    (powerFailTrip own s).Canonical sz := by
  unfold powerFailTrip
  repeat' first
    | with_reducible assumption
    | with_reducible apply Device.canonical_modSup
    | with_reducible apply Device.canonical_pset
    | with_reducible apply Device.canonical_modRecov
    | with_reducible apply canonical_mainStop
    | with_reducible apply canonical_dropRelease
    | with_reducible apply canonical_otpCutShort
    | with_reducible apply canonical_changeState
    | with_reducible apply canonical_handoverNvm
    | with_reducible apply canonical_stopChannel
    | with_reducible apply canonical_handoverValves
    | with_reducible apply canonical_retCommit
    | with_reducible apply Device.canonical_ite
    | with_reducible apply Device.canonical_each
    | with_reducible apply Device.canonical_mk
    | with_reducible apply Device.ring_set
    | with_reducible apply rfWf_set
    | with_reducible apply Device.Canonical.regs
    | with_reducible apply Device.Canonical.shadow
    | with_reducible apply Device.Canonical.force
    | with_reducible apply Device.Canonical.flash
    | with_reducible apply Device.Canonical.buf
    | with_reducible apply Device.Canonical.size
    | with_reducible apply Device.Canonical.chans
    | with_reducible apply Device.Canonical.dies
    | with_reducible apply Device.Canonical.ring
    | with_reducible apply Device.Canonical.posting
    | intro _
    | split
    | dsimp only

theorem canonical_vbusGood {s : Device} (hs : s.Canonical sz) :
    (vbusGood s).Canonical sz := by
  unfold vbusGood
  repeat' first
    | with_reducible assumption
    | with_reducible apply Device.canonical_pset
    | with_reducible apply canonical_qualRestart
    | with_reducible apply canonical_leaveHold
    | with_reducible apply Device.canonical_ite
    | intro _
    | split
    | dsimp only

theorem canonical_localPfTrip (d : ℕ) {s : Device} (hs : s.Canonical sz) :
    (localPfTrip d s).Canonical sz := by
  unfold localPfTrip
  repeat' first
    | with_reducible assumption
    | with_reducible apply canonical_stopChannel
    | with_reducible apply canonical_requestRun
    | with_reducible apply canonical_leaseWait
    | with_reducible apply canonical_logEvent
    | with_reducible apply Device.canonical_ite
    | with_reducible apply Device.canonical_each
    | intro _
    | split
    | dsimp only

theorem canonical_shipEnter (data : Sys2Proof.Word) {s : Device} (hs : s.Canonical sz) :
    (shipEnter data s).Canonical sz := by
  unfold shipEnter
  repeat' first
    | with_reducible assumption
    | with_reducible apply Device.canonical_pset
    | with_reducible apply Device.canonical_modGlean
    | with_reducible apply Device.canonical_modSup
    | with_reducible apply canonical_ckptRequest
    | with_reducible apply canonical_retCommit
    | with_reducible apply Device.canonical_ite
    | with_reducible apply Device.canonical_each
    | intro _
    | split
    | dsimp only

theorem canonical_shipBoundary {s : Device} (hs : s.Canonical sz) :
    (shipBoundary s).Canonical sz := by
  unfold shipBoundary
  repeat' first
    | with_reducible assumption
    | with_reducible apply canonical_seqOff
    | with_reducible apply Device.canonical_modSup
    | with_reducible apply canonical_shipDown
    | with_reducible apply Device.canonical_ite
    | intro _
    | split
    | dsimp only

theorem canonical_holdMaxExpiry {s : Device} (hs : s.Canonical sz) :
    (holdMaxExpiry s).Canonical sz := by
  unfold holdMaxExpiry
  repeat' first
    | with_reducible assumption
    | with_reducible apply canonical_controlledStop
    | with_reducible apply Device.canonical_ite
    | intro _
    | split
    | dsimp only

theorem canonical_pfTripNonRun {s : Device} (hs : s.Canonical sz) :
    (pfTripNonRun s).Canonical sz := by
  unfold pfTripNonRun
  repeat' first
    | with_reducible assumption
    | with_reducible apply Device.canonical_modSup
    | with_reducible apply canonical_tripNonRun
    | with_reducible apply Device.canonical_ite
    | intro _
    | split
    | dsimp only

theorem canonical_shipVbusWake {s : Device} (hs : s.Canonical sz) :
    (shipVbusWake s).Canonical sz := by
  unfold shipVbusWake
  repeat' first
    | with_reducible assumption
    | with_reducible apply canonical_shipExit
    | with_reducible apply Device.canonical_ite
    | intro _
    | split
    | dsimp only

/-! Recovery. -/

theorem canonical_leadStallBalls {s : Device} (hs : s.Canonical sz) :
    (leadStallBalls s).Canonical sz := by
  unfold leadStallBalls
  repeat' first
    | with_reducible assumption
    | with_reducible apply canonical_railOff
    | with_reducible apply Device.canonical_modPins
    | with_reducible apply canonical_nvmStop
    | with_reducible apply canonical_plsCut
    | with_reducible apply Device.canonical_ite
    | with_reducible apply Device.canonical_foldl
    | intro _
    | split
    | dsimp only

theorem canonical_dieStall (d : ℕ) {s : Device} (hs : s.Canonical sz) :
    (dieStall d s).Canonical sz := by
  unfold dieStall
  repeat' first
    | with_reducible assumption
    | with_reducible apply Device.canonical_dinc
    | with_reducible apply Device.canonical_dset
    | with_reducible apply canonical_valvesHusk
    | with_reducible apply canonical_gatesOff
    | with_reducible apply canonical_leadStallBalls
    | with_reducible apply canonical_publishDies
    | with_reducible apply Device.canonical_modDie
    | with_reducible apply Device.canonical_ite
    | with_reducible apply Device.canonical_each
    | intro _
    | split
    | dsimp only

theorem canonical_dropPosts (d : ℕ) {s : Device} (h : s.Canonical sz) : (dropPosts d s).Canonical sz := by
  have h1 : (s.modHost fun h => { h with posting := h.posting.filter fun p => ownerOf p.1 != d }).Canonical sz :=
    Device.canonical_modHost h fun _ hx => (List.length_filter_le _ _).trans hx
  unfold dropPosts
  dsimp only
  split
  · exact Device.canonical_pset _ _ h1
  · exact h1

theorem canonical_recoveryDone (d : ℕ) {s : Device} (hs : s.Canonical sz) :
    (recoveryDone d s).Canonical sz := by
  unfold recoveryDone
  repeat' first
    | with_reducible assumption
    | with_reducible apply Device.canonical_modDie
    | with_reducible apply canonical_publishDies
    | with_reducible apply Device.canonical_psetBit
    | with_reducible apply canonical_logEvent
    | with_reducible apply canonical_resumeDie
    | with_reducible apply canonical_resumeCounts
    | with_reducible apply canonical_huskIdle
    | with_reducible apply Device.canonical_ite
    | with_reducible apply Device.canonical_each
    | intro _
    | split
    | dsimp only

theorem canonical_cacheLoad (d : ℕ) {s : Device} (hs : s.Canonical sz) :
    (cacheLoad d s).Canonical sz := by
  unfold cacheLoad
  repeat' first
    | with_reducible assumption
    | with_reducible apply Device.canonical_modDie
    | with_reducible apply canonical_dieSettled
    | with_reducible apply canonical_applyEntries
    | with_reducible apply Device.canonical_foldl
    | intro _
    | split
    | dsimp only

theorem canonical_dieReturns (d : ℕ) {s : Device} (hs : s.Canonical sz) :
    (dieReturns d s).Canonical sz := by
  unfold dieReturns
  repeat' first
    | with_reducible assumption
    | with_reducible apply canonical_shadowRebuild
    | with_reducible apply canonical_restoreDie
    | with_reducible apply canonical_cacheLoad
    | with_reducible apply canonical_dieDecide
    | intro _
    | split
    | dsimp only

theorem canonical_dropReads (d : ℕ) {s : Device} (hs : s.Canonical sz) :
    (dropReads d s).Canonical sz := by
  unfold dropReads
  repeat' first
    | with_reducible assumption
    | with_reducible apply Device.canonical_setBulk
    | intro _
    | split
    | dsimp only

theorem canonical_takeBack (d : ℕ) {s : Device} (hs : s.Canonical sz) :
    (takeBack d s).Canonical sz := by
  unfold takeBack
  repeat' first
    | with_reducible assumption
    | with_reducible apply canonical_setMap
    | with_reducible apply Device.canonical_modLease
    | with_reducible apply canonical_nvmBatonLost
    | with_reducible apply canonical_logEvent
    | with_reducible apply canonical_valveBatons
    | with_reducible apply Device.canonical_pset
    | with_reducible apply Device.canonical_setBanks
    | with_reducible apply Device.canonical_setGrants
    | with_reducible apply Device.canonical_ite
    | with_reducible apply Device.canonical_foldl
    | with_reducible apply Device.canonical_each
    | intro _
    | split
    | dsimp only

theorem canonical_benchOut (d : ℕ) {s : Device} (hs : s.Canonical sz) :
    (benchOut d s).Canonical sz := by
  unfold benchOut
  repeat' first
    | with_reducible assumption
    | with_reducible apply canonical_dropReads
    | with_reducible apply canonical_dropPosts
    | with_reducible apply canonical_valvesHusk
    | with_reducible apply canonical_mainStop
    | with_reducible apply canonical_takeBack
    | with_reducible apply Device.canonical_modDie
    | with_reducible apply Device.canonical_modRecov
    | with_reducible apply Device.canonical_pset
    | with_reducible apply Device.canonical_psetBit
    | with_reducible apply canonical_publishDies
    | with_reducible apply canonical_logEvent
    | intro _
    | split
    | dsimp only

theorem canonical_attemptFails (d : ℕ) {s : Device} (hs : s.Canonical sz) :
    (attemptFails d s).Canonical sz := by
  unfold attemptFails
  repeat' first
    | with_reducible assumption
    | with_reducible apply Device.canonical_dinc
    | with_reducible apply canonical_benchOut
    | with_reducible apply Device.canonical_ite
    | intro _
    | split
    | dsimp only

theorem canonical_leadPause (d : ℕ) {s : Device} (hs : s.Canonical sz) :
    (leadPause d s).Canonical sz := by
  unfold leadPause
  repeat' first
    | with_reducible assumption
    | with_reducible apply canonical_setMode
    | with_reducible apply Device.canonical_modLp
    | with_reducible apply Device.canonical_modDue
    | with_reducible apply Device.canonical_ite
    | with_reducible apply Device.canonical_each
    | intro _
    | split
    | dsimp only

theorem canonical_recoverDie (d : ℕ) (cause : ℕ) {s : Device} (hs : s.Canonical sz) :
    (recoverDie d cause s).Canonical sz := by
  unfold recoverDie
  repeat' first
    | with_reducible assumption
    | with_reducible apply canonical_dropReads
    | with_reducible apply canonical_takeBack
    | with_reducible apply canonical_logEvent
    | with_reducible apply Device.canonical_dinc
    | with_reducible apply Device.canonical_pset
    | with_reducible apply Device.canonical_psetBit
    | with_reducible apply canonical_publishDies
    | with_reducible apply Device.canonical_modDie
    | with_reducible apply canonical_mainStop
    | intro _
    | split
    | dsimp only

theorem canonical_recoveryStart (d : ℕ) (cause : ℕ) {s : Device} (hs : s.Canonical sz) :
    (recoveryStart d cause s).Canonical sz := by
  unfold recoveryStart
  repeat' first
    | with_reducible assumption
    | with_reducible apply canonical_attemptFails
    | with_reducible apply canonical_recoverDie
    | with_reducible apply Device.canonical_ite
    | intro _
    | split
    | dsimp only

theorem canonical_portSilentUp (d : ℕ) {s : Device} (hs : s.Canonical sz) :
    (portSilentUp d s).Canonical sz := by
  unfold portSilentUp
  repeat' first
    | with_reducible assumption
    | with_reducible apply canonical_bankRow
    | with_reducible apply Device.canonical_modLink
    | with_reducible apply Device.canonical_ite
    | intro _
    | split
    | dsimp only

theorem canonical_portSilentDown (d : ℕ) {s : Device} (hs : s.Canonical sz) :
    (portSilentDown d s).Canonical sz := by
  unfold portSilentDown
  repeat' first
    | with_reducible assumption
    | with_reducible apply Device.canonical_psetBit
    | with_reducible apply canonical_recoveryStart
    | with_reducible apply canonical_logEvent
    | with_reducible apply Device.canonical_modLink
    | with_reducible apply Device.canonical_ite
    | intro _
    | split
    | dsimp only

theorem canonical_leadHold (d : ℕ) {s : Device} (hs : s.Canonical sz) :
    (leadHold d s).Canonical sz := by
  unfold leadHold
  repeat' first
    | with_reducible assumption
    | with_reducible apply Device.canonical_modLink
    | with_reducible apply canonical_leadPause
    | with_reducible apply Device.canonical_ite
    | intro _
    | split
    | dsimp only

theorem canonical_rearm (old : ℕ) (new : ℕ) (g : ℕ) {s : Device} (hs : s.Canonical sz) :
    (rearm old new g s).Canonical sz := by
  unfold rearm
  repeat' first
    | with_reducible assumption
    | with_reducible apply Device.canonical_modEng
    | intro _
    | split
    | dsimp only

theorem canonical_leadReturn (old : ℕ) (d : ℕ) {s : Device} (hs : s.Canonical sz) :
    (leadReturn old d s).Canonical sz := by
  unfold leadReturn
  repeat' first
    | with_reducible assumption
    | with_reducible apply canonical_acirAbort
    | with_reducible apply canonical_rearm
    | with_reducible apply canonical_leadPause
    | with_reducible apply canonical_logEvent
    | with_reducible apply Device.canonical_pinc
    | with_reducible apply canonical_bankRow
    | with_reducible apply Device.canonical_modLink
    | with_reducible apply Device.canonical_ite
    | with_reducible apply Device.canonical_each
    | intro _
    | split
    | dsimp only

theorem canonical_recoveryTimeout (d : ℕ) {s : Device} (hs : s.Canonical sz) :
    (recoveryTimeout d s).Canonical sz := by
  unfold recoveryTimeout
  repeat' first
    | with_reducible assumption
    | with_reducible apply canonical_attemptFails
    | with_reducible apply Device.canonical_modRecov
    | with_reducible apply canonical_mainStop
    | with_reducible apply Device.canonical_ite
    | intro _
    | split
    | dsimp only

theorem canonical_recoveryStable (d : ℕ) {s : Device} (hs : s.Canonical sz) :
    (recoveryStable d s).Canonical sz := by
  unfold recoveryStable
  repeat' first
    | with_reducible assumption
    | with_reducible apply Device.canonical_modRecov
    | with_reducible apply Device.canonical_dset
    | with_reducible apply Device.canonical_ite
    | intro _
    | split
    | dsimp only

/-! Bulk. -/

theorem canonical_setWords {f : ℕ → Word → Device → Device} (hf : ∀ a w t, t.Canonical sz → (f a w t).Canonical sz) (a : ℕ)
    (l : List Word) {s : Device} (h : s.Canonical sz) : (setWords f a l s).Canonical sz := by
  induction l generalizing a s with
  | nil => exact h
  | cons w l ih => exact ih _ (hf _ _ _ h)

theorem canonical_snapDone {s : Device} (hs : s.Canonical sz) :
    (snapDone s).Canonical sz := by
  unfold snapDone
  repeat' first
    | with_reducible assumption
    | with_reducible apply Device.canonical_pset
    | with_reducible apply Device.canonical_ite
    | intro _
    | split
    | dsimp only

theorem canonical_snapCommit (d : ℕ) {s : Device} (hs : s.Canonical sz) :
    (snapCommit d s).Canonical sz := by
  unfold snapCommit
  repeat' first
    | with_reducible assumption
    | with_reducible apply canonical_snapDone
    | with_reducible apply Device.canonical_ite
    | with_reducible apply Device.canonical_mk
    | with_reducible apply Device.ring_set
    | with_reducible apply rfWf_set
    | with_reducible apply Device.Canonical.regs
    | with_reducible apply Device.Canonical.shadow
    | with_reducible apply Device.Canonical.force
    | with_reducible apply Device.Canonical.flash
    | with_reducible apply Device.Canonical.buf
    | with_reducible apply Device.Canonical.size
    | with_reducible apply Device.Canonical.chans
    | with_reducible apply Device.Canonical.dies
    | with_reducible apply Device.Canonical.ring
    | with_reducible apply Device.Canonical.posting
    | intro _
    | split
    | dsimp only

theorem canonical_snapInvalid (d : ℕ) {s : Device} (hs : s.Canonical sz) :
    (snapInvalid d s).Canonical sz := by
  unfold snapInvalid
  repeat' first
    | with_reducible assumption
    | with_reducible apply Device.canonical_setReg
    | with_reducible apply canonical_setShd
    | with_reducible apply canonical_setWords
    | with_reducible apply canonical_snapCommit
    | with_reducible apply Device.canonical_pset
    | with_reducible apply Device.canonical_ite
    | with_reducible apply Device.canonical_each
    | intro _
    | split
    | dsimp only

theorem canonical_snapNow (bySched : Bool) {s : Device} (hs : s.Canonical sz) :
    (snapNow bySched s).Canonical sz := by
  unfold snapNow
  repeat' first
    | with_reducible assumption
    | with_reducible apply Device.canonical_pset
    | with_reducible apply canonical_snapInvalid
    | with_reducible apply Device.canonical_ite
    | with_reducible apply Device.canonical_each
    | with_reducible apply Device.canonical_mk
    | with_reducible apply Device.ring_set
    | with_reducible apply rfWf_set
    | with_reducible apply Device.Canonical.regs
    | with_reducible apply Device.Canonical.shadow
    | with_reducible apply Device.Canonical.force
    | with_reducible apply Device.Canonical.flash
    | with_reducible apply Device.Canonical.buf
    | with_reducible apply Device.Canonical.size
    | with_reducible apply Device.Canonical.chans
    | with_reducible apply Device.Canonical.dies
    | with_reducible apply Device.Canonical.ring
    | with_reducible apply Device.Canonical.posting
    | intro _
    | split
    | dsimp only

theorem canonical_snapLatch (d : ℕ) (frame : ℕ) {s : Device} (hs : s.Canonical sz) :
    (snapLatch d frame s).Canonical sz := by
  unfold snapLatch
  repeat' first
    | with_reducible assumption
    | with_reducible apply canonical_setWords
    | with_reducible apply Device.canonical_setReg
    | with_reducible apply Device.canonical_ite
    | with_reducible apply Device.canonical_each
    | intro _
    | split
    | dsimp only

theorem canonical_bcastAct (b : Bcast) (d : ℕ) {s : Device} (hs : s.Canonical sz) :
    (bcastAct b d s).Canonical sz := by
  unfold bcastAct
  repeat' first
    | with_reducible assumption
    | with_reducible apply Device.canonical_modDie
    | with_reducible apply canonical_leadReturn
    | with_reducible apply canonical_snapCommit
    | with_reducible apply canonical_snapLatch
    | with_reducible apply canonical_stopChannel
    | with_reducible apply Device.canonical_ite
    | with_reducible apply Device.canonical_each
    | intro _
    | split
    | dsimp only

theorem canonical_bcastFirst (d : ℕ) {s : Device} (hs : s.Canonical sz) :
    (bcastFirst d s).Canonical sz := by
  unfold bcastFirst
  repeat' first
    | with_reducible assumption
    | with_reducible apply canonical_bcastAct
    | with_reducible apply Device.canonical_setBcast
    | with_reducible apply Device.canonical_ite
    | with_reducible apply Device.canonical_foldl
    | intro _
    | split
    | dsimp only

theorem canonical_bulkSpent {s : Device} (hs : s.Canonical sz) :
    (bulkSpent s).Canonical sz := by
  unfold bulkSpent
  repeat' first
    | with_reducible assumption
    | with_reducible apply Device.canonical_spend
    | intro _
    | split
    | dsimp only

theorem canonical_bcastExecute (k : Sys2Proof.BcastKind) {s : Device} (hs : s.Canonical sz) :
    (bcastExecute k s).Canonical sz := by
  unfold bcastExecute
  repeat' first
    | with_reducible assumption
    | with_reducible apply canonical_bcastAct
    | with_reducible apply Device.canonical_setBcast
    | with_reducible apply Device.canonical_foldl
    | with_reducible apply Device.canonical_each
    | intro _
    | split
    | dsimp only

theorem canonical_snapDisarm {s : Device} (hs : s.Canonical sz) :
    (snapDisarm s).Canonical sz := by
  unfold snapDisarm
  repeat' first
    | with_reducible assumption
    | with_reducible apply Device.canonical_pset
    | with_reducible apply Device.canonical_ite
    | with_reducible apply Device.canonical_mk
    | with_reducible apply Device.ring_set
    | with_reducible apply rfWf_set
    | with_reducible apply Device.Canonical.regs
    | with_reducible apply Device.Canonical.shadow
    | with_reducible apply Device.Canonical.force
    | with_reducible apply Device.Canonical.flash
    | with_reducible apply Device.Canonical.buf
    | with_reducible apply Device.Canonical.size
    | with_reducible apply Device.Canonical.chans
    | with_reducible apply Device.Canonical.dies
    | with_reducible apply Device.Canonical.ring
    | with_reducible apply Device.Canonical.posting
    | intro _
    | split
    | dsimp only

theorem canonical_bufWrite (a : ℕ) (w : Word) {s : Device} (h : s.Canonical sz) : (bufWrite a w s).Canonical sz := by
  refine Device.canonical_modNvm h (fun _ h => h) fun n hn => bytesWf_foldl _ _ (fun l p hl => ?_) _ hn
  dsimp only
  split
  · exact bytesWf_filter _ hl
  · exact bytesWf_put ‹_› _ hl

theorem canonical_snapTake {s : Device} (hs : s.Canonical sz) :
    (snapTake s).Canonical sz := by
  unfold snapTake
  repeat' first
    | with_reducible assumption
    | with_reducible apply Device.canonical_ite
    | with_reducible apply Device.canonical_mk
    | with_reducible apply Device.ring_set
    | with_reducible apply rfWf_set
    | with_reducible apply Device.Canonical.regs
    | with_reducible apply Device.Canonical.shadow
    | with_reducible apply Device.Canonical.force
    | with_reducible apply Device.Canonical.flash
    | with_reducible apply Device.Canonical.buf
    | with_reducible apply Device.Canonical.size
    | with_reducible apply Device.Canonical.chans
    | with_reducible apply Device.Canonical.dies
    | with_reducible apply Device.Canonical.ring
    | with_reducible apply Device.Canonical.posting
    | intro _
    | split
    | dsimp only

theorem canonical_snapArm {s : Device} (hs : s.Canonical sz) :
    (snapArm s).Canonical sz := by
  unfold snapArm
  repeat' first
    | with_reducible assumption
    | with_reducible apply Device.canonical_pset
    | with_reducible apply Device.canonical_ite
    | with_reducible apply Device.canonical_mk
    | with_reducible apply Device.ring_set
    | with_reducible apply rfWf_set
    | with_reducible apply Device.Canonical.regs
    | with_reducible apply Device.Canonical.shadow
    | with_reducible apply Device.Canonical.force
    | with_reducible apply Device.Canonical.flash
    | with_reducible apply Device.Canonical.buf
    | with_reducible apply Device.Canonical.size
    | with_reducible apply Device.Canonical.chans
    | with_reducible apply Device.Canonical.dies
    | with_reducible apply Device.Canonical.ring
    | with_reducible apply Device.Canonical.posting
    | intro _
    | split
    | dsimp only

theorem canonical_snapScheduled {s : Device} (hs : s.Canonical sz) :
    (snapScheduled s).Canonical sz := by
  unfold snapScheduled
  repeat' first
    | with_reducible assumption
    | with_reducible apply canonical_snapNow
    | with_reducible apply Device.canonical_modSnap
    | with_reducible apply Device.canonical_pset
    | with_reducible apply Device.canonical_ite
    | intro _
    | split
    | dsimp only

/-! Writes. -/

theorem canonical_chCtlWrite (g : ℕ) (w : Sys2Proof.Word) {s : Device} (hs : s.Canonical sz) :
    (chCtlWrite g w s).Canonical sz := by
  unfold chCtlWrite
  repeat' first
    | with_reducible assumption
    | with_reducible apply canonical_overrideChange
    | with_reducible apply canonical_protTrip
    | with_reducible apply Device.canonical_ite
    | intro _
    | split
    | dsimp only

theorem canonical_plsWrite (n : ℕ) (k : ℕ) (w : Sys2Proof.Word) {s : Device} (hs : s.Canonical sz) :
    (plsWrite n k w s).Canonical sz := by
  unfold plsWrite
  repeat' first
    | with_reducible assumption
    | with_reducible apply canonical_plsCfgWrite
    | with_reducible apply canonical_plsClr
    | intro _
    | split
    | dsimp only

theorem canonical_clrPeak (w : Sys2Proof.Word) {s : Device} (hs : s.Canonical sz) :
    (clrPeak w s).Canonical sz := by
  unfold clrPeak
  repeat' first
    | with_reducible assumption
    | with_reducible apply Device.canonical_pset
    | with_reducible apply Device.canonical_ite
    | intro _
    | split
    | dsimp only

theorem canonical_afterAdvance {s : Device} (hs : s.Canonical sz) :
    (afterAdvance s).Canonical sz := by
  unfold afterAdvance
  repeat' first
    | with_reducible assumption
    | with_reducible apply canonical_ledgerWrite
    | with_reducible apply Device.canonical_setDropped
    | with_reducible apply Device.canonical_pset
    | with_reducible apply Device.canonical_ite
    | intro _
    | split
    | dsimp only

theorem canonical_ledgerReread {s : Device} (hs : s.Canonical sz) :
    (ledgerReread s).Canonical sz := by
  unfold ledgerReread
  repeat' first
    | with_reducible assumption
    | with_reducible apply Device.canonical_pset
    | with_reducible apply Device.canonical_ite
    | intro _
    | split
    | dsimp only

theorem canonical_ledgerFlush {s : Device} (hs : s.Canonical sz) :
    (ledgerFlush s).Canonical sz := by
  unfold ledgerFlush
  repeat' first
    | with_reducible assumption
    | with_reducible apply Device.canonical_pset
    | intro _
    | split
    | dsimp only

theorem canonical_ledgerClrOvf {s : Device} (hs : s.Canonical sz) :
    (ledgerClrOvf s).Canonical sz := by
  unfold ledgerClrOvf
  repeat' first
    | with_reducible assumption
    | with_reducible apply Device.canonical_pset
    | intro _
    | split
    | dsimp only

theorem canonical_ledgerCtl (w : Sys2Proof.Word) {s : Device} (hs : s.Canonical sz) :
    (ledgerCtl w s).Canonical sz := by
  unfold ledgerCtl
  repeat' first
    | with_reducible assumption
    | with_reducible apply canonical_ledgerReread
    | with_reducible apply canonical_ledgerFlush
    | with_reducible apply canonical_ledgerClrOvf
    | with_reducible apply Device.canonical_ite
    | intro _
    | split
    | dsimp only

theorem canonical_storeWord (a : ℕ) (w : Sys2Proof.Word) {s : Device} (hs : s.Canonical sz) :
    (storeWord a w s).Canonical sz := by
  unfold storeWord
  repeat' first
    | with_reducible assumption
    | with_reducible apply canonical_storeFields
    | with_reducible apply Device.canonical_ite
    | intro _
    | split
    | dsimp only

theorem canonical_benchCtlWrite (d : ℕ) (w : Sys2Proof.Word) {s : Device} (hs : s.Canonical sz) :
    (benchCtlWrite d w s).Canonical sz := by
  unfold benchCtlWrite
  repeat' first
    | with_reducible assumption
    | with_reducible apply canonical_storeWord
    | with_reducible apply canonical_benchForce
    | with_reducible apply canonical_benchQueue
    | with_reducible apply Device.canonical_ite
    | intro _
    | split
    | dsimp only

theorem canonical_valveReqWrite (v : ℕ) (w : Sys2Proof.Word) {s : Device} (hs : s.Canonical sz) :
    (valveReqWrite v w s).Canonical sz := by
  unfold valveReqWrite
  repeat' first
    | with_reducible assumption
    | with_reducible apply canonical_valveReq
    | with_reducible apply Device.canonical_ite
    | intro _
    | split
    | dsimp only

theorem canonical_snapCtlWrite (w : Sys2Proof.Word) {s : Device} (hs : s.Canonical sz) :
    (snapCtlWrite w s).Canonical sz := by
  unfold snapCtlWrite
  repeat' first
    | with_reducible assumption
    | with_reducible apply Device.canonical_pset
    | with_reducible apply canonical_snapTake
    | with_reducible apply canonical_snapDisarm
    | with_reducible apply canonical_snapArm
    | with_reducible apply Device.canonical_ite
    | intro _
    | split
    | dsimp only

theorem canonical_frameEndWord (a : ℕ) (w : Sys2Proof.Word) {s : Device} (hs : s.Canonical sz) :
    (frameEndWord a w s).Canonical sz := by
  unfold frameEndWord
  repeat' first
    | with_reducible assumption
    | with_reducible apply canonical_hostSoftReset
    | with_reducible apply canonical_ledgerCtl
    | with_reducible apply Device.canonical_ite
    | intro _
    | split
    | dsimp only

theorem canonical_testReq {s : Device} (hs : s.Canonical sz) :
    (testReq s).Canonical sz := by
  unfold testReq
  repeat' first
    | with_reducible assumption
    | with_reducible apply Device.canonical_pset
    | with_reducible apply Device.canonical_ite
    | with_reducible refine Device.canonical_modHost ?_ (fun _ h => h)
    | intro _
    | split
    | dsimp only

theorem canonical_testEnd {s : Device} (hs : s.Canonical sz) :
    (testEnd s).Canonical sz := by
  unfold testEnd
  repeat' first
    | with_reducible assumption
    | with_reducible apply Device.canonical_pset
    | with_reducible apply Device.canonical_ite
    | with_reducible refine Device.canonical_modHost ?_ (fun _ h => h)
    | intro _
    | split
    | dsimp only

theorem canonical_hostCtlWrite (w : Sys2Proof.Word) {s : Device} (hs : s.Canonical sz) :
    (hostCtlWrite w s).Canonical sz := by
  unfold hostCtlWrite
  repeat' first
    | with_reducible assumption
    | with_reducible apply Device.canonical_pset
    | with_reducible apply canonical_testReq
    | with_reducible apply canonical_testEnd
    | with_reducible apply Device.canonical_ite
    | intro _
    | split
    | dsimp only

theorem canonical_runCtlWrite (w : Sys2Proof.Word) {s : Device} (hs : s.Canonical sz) :
    (runCtlWrite w s).Canonical sz := by
  unfold runCtlWrite
  repeat' first
    | with_reducible assumption
    | with_reducible apply canonical_runAbort
    | with_reducible apply canonical_runClose
    | with_reducible apply canonical_runOpen
    | with_reducible apply canonical_storeWord
    | intro _
    | split
    | dsimp only

theorem canonical_otpCmdWrite (w : Sys2Proof.Word) {s : Device} (hs : s.Canonical sz) :
    (otpCmdWrite w s).Canonical sz := by
  unfold otpCmdWrite
  repeat' first
    | with_reducible assumption
    | with_reducible apply canonical_otpProgram
    | with_reducible apply canonical_otpReinforce
    | with_reducible apply canonical_otpReadCmd
    | with_reducible apply canonical_otpLock
    | with_reducible apply canonical_otpReload
    | with_reducible apply Device.canonical_ite
    | intro _
    | split
    | dsimp only

theorem canonical_pkgEffect (off : ℕ) (w : Sys2Proof.Word) {s : Device} (hs : s.Canonical sz) :
    (pkgEffect off w s).Canonical sz := by
  unfold pkgEffect
  repeat' first
    | with_reducible assumption
    | with_reducible apply Device.canonical_pset
    | with_reducible apply canonical_hostCtlWrite
    | with_reducible apply canonical_snapCtlWrite
    | with_reducible apply canonical_lineCfgWrite
    | with_reducible apply canonical_clrRej
    | with_reducible apply canonical_busMonClr
    | with_reducible apply canonical_auxCtlWrite
    | with_reducible apply canonical_thresholdWrite
    | with_reducible apply canonical_shipEnter
    | with_reducible apply canonical_vbstCfgWrite
    | with_reducible apply canonical_ptCommand
    | with_reducible apply canonical_ckptTake
    | with_reducible apply canonical_pinCommand
    | with_reducible apply canonical_tallyClr
    | with_reducible apply canonical_runCtlWrite
    | with_reducible apply canonical_otpCmdWrite
    | with_reducible apply canonical_releaseAll
    | with_reducible apply canonical_clrPeak
    | with_reducible apply canonical_plsWrite
    | with_reducible apply canonical_storeWord
    | with_reducible apply Device.canonical_ite
    | intro _
    | split
    | dsimp only

theorem canonical_frameErr (b : Bool) {s : Device} (hs : s.Canonical sz) :
    (frameErr b s).Canonical sz := by
  unfold frameErr
  repeat' first
    | with_reducible assumption
    | with_reducible apply Device.canonical_pset
    | with_reducible apply Device.canonical_ite
    | intro _
    | split
    | dsimp only

theorem canonical_valveReqOf (a : ℕ) (w : Sys2Proof.Word) {s : Device} (hs : s.Canonical sz) :
    (valveReqOf a w s).Canonical sz := by
  unfold valveReqOf
  repeat' first
    | with_reducible assumption
    | with_reducible apply canonical_valveReqWrite
    | with_reducible apply Device.canonical_ite
    | intro _
    | split
    | dsimp only

theorem canonical_shadowPost (a : ℕ) (w : Sys2Proof.Word) {s : Device} (hs : s.Canonical sz) :
    (shadowPost a w s).Canonical sz := by
  unfold shadowPost
  repeat' first
    | with_reducible assumption
    | with_reducible apply canonical_setShd
    | intro _
    | split
    | dsimp only

theorem Device.canonical_posted {a : ℕ} {w : Word} {s : Device} (h : s.Canonical sz) (hp : s.host.posting.length < 16) :
    (s.modHost fun x => { x with posting := x.posting ++ [(a, w)] }).Canonical sz :=
  { h with posting := by simpa [Device.modHost] using hp }

theorem canonical_postWord (a : ℕ) (w : Word) {s : Device} (h : s.Canonical sz) (hp : s.host.posting.length < 16) :
    (postWord a w s).Canonical sz := by
  unfold postWord
  exact canonical_valveReqOf _ _ (canonical_setShd _ _ (Device.canonical_posted h hp))

theorem canonical_noteRef (a : ℕ) (noted : Bool) {s : Device} (hs : s.Canonical sz) :
    (noteRef a noted s).Canonical sz := by
  unfold noteRef
  repeat' first
    | with_reducible assumption
    | with_reducible apply Device.canonical_pset
    | with_reducible apply Device.canonical_ite
    | intro _
    | split
    | dsimp only

theorem canonical_clearFlags (a : ℕ) (w : Sys2Proof.Word) {s : Device} (hs : s.Canonical sz) :
    (clearFlags a w s).Canonical sz := by
  unfold clearFlags
  repeat' first
    | with_reducible assumption
    | with_reducible apply Device.canonical_setReg
    | with_reducible apply Device.canonical_ite
    | intro _
    | split
    | dsimp only

theorem canonical_writePkg (off : ℕ) (w : Sys2Proof.Word) {s : Device} (hs : s.Canonical sz) :
    (writePkg off w s).Canonical sz := by
  unfold writePkg
  repeat' first
    | with_reducible assumption
    | with_reducible apply Device.canonical_setBusW1c
    | with_reducible apply canonical_pkgEffect
    | with_reducible apply canonical_clearFlags
    | with_reducible apply Device.canonical_ite
    | intro _
    | split
    | dsimp only

theorem canonical_benchRefWrite (d : ℕ) (w : Sys2Proof.Word) {s : Device} (hs : s.Canonical sz) :
    (benchRefWrite d w s).Canonical sz := by
  unfold benchRefWrite
  repeat' first
    | with_reducible assumption
    | with_reducible apply canonical_storeWord
    | with_reducible apply Device.canonical_modDie
    | with_reducible apply Device.canonical_ite
    | intro _
    | split
    | dsimp only

theorem canonical_valveWrite (d : ℕ) (k : ℕ) (i : ℕ) (w : Sys2Proof.Word) {s : Device} (hs : s.Canonical sz) :
    (valveWrite d k i w s).Canonical sz := by
  unfold valveWrite
  repeat' first
    | with_reducible assumption
    | with_reducible apply canonical_valveCfgWrite
    | with_reducible apply canonical_valveModeWrite
    | with_reducible apply canonical_storeWord
    | intro _
    | split
    | dsimp only

theorem canonical_dieEffect (d : ℕ) (off : ℕ) (w : Sys2Proof.Word) {s : Device} (hs : s.Canonical sz) :
    (dieEffect d off w s).Canonical sz := by
  unfold dieEffect
  repeat' first
    | with_reducible assumption
    | with_reducible apply canonical_benchCtlWrite
    | with_reducible apply canonical_benchRefWrite
    | with_reducible apply canonical_valveWrite
    | with_reducible apply canonical_valveCleared
    | with_reducible apply canonical_otpSummary
    | with_reducible apply canonical_traceRdWrite
    | with_reducible apply canonical_storeWord
    | with_reducible apply Device.canonical_ite
    | intro _
    | split
    | dsimp only

theorem canonical_writeDie (d : ℕ) (off : ℕ) (w : Sys2Proof.Word) {s : Device} (hs : s.Canonical sz) :
    (writeDie d off w s).Canonical sz := by
  unfold writeDie
  repeat' first
    | with_reducible assumption
    | with_reducible apply canonical_dieEffect
    | with_reducible apply canonical_clearFlags
    | intro _
    | split
    | dsimp only

theorem canonical_chSeqWrite (g : ℕ) (w : Sys2Proof.Word) {s : Device} (hs : s.Canonical sz) :
    (chSeqWrite g w s).Canonical sz := by
  unfold chSeqWrite
  repeat' first
    | with_reducible assumption
    | with_reducible apply canonical_storeWord
    | with_reducible apply canonical_seqCmd
    | with_reducible apply Device.canonical_ite
    | intro _
    | split
    | dsimp only

theorem canonical_chEffect (g : ℕ) (off : ℕ) (w : Sys2Proof.Word) {s : Device} (hs : s.Canonical sz) :
    (chEffect g off w s).Canonical sz := by
  unfold chEffect
  repeat' first
    | with_reducible assumption
    | with_reducible apply canonical_chCtlWrite
    | with_reducible apply canonical_chSeqWrite
    | with_reducible apply canonical_setpointWrite
    | with_reducible apply canonical_pwmWrite
    | with_reducible apply canonical_rangeSelWrite
    | with_reducible apply canonical_accClear
    | with_reducible apply canonical_calFold
    | with_reducible apply canonical_calApply
    | with_reducible apply canonical_offsetWrite
    | with_reducible apply canonical_tcrCfgWrite
    | with_reducible apply canonical_storeWord
    | with_reducible apply canonical_calNote
    | with_reducible apply canonical_acirCtlWrite
    | with_reducible apply canonical_acirClrWrite
    | with_reducible apply canonical_constantWrite
    | with_reducible apply canonical_baselineWrite
    | with_reducible apply Device.canonical_ite
    | intro _
    | split
    | dsimp only

theorem canonical_writeCh (g : ℕ) (off : ℕ) (w : Sys2Proof.Word) {s : Device} (hs : s.Canonical sz) :
    (writeCh g off w s).Canonical sz := by
  unfold writeCh
  repeat' first
    | with_reducible assumption
    | with_reducible apply canonical_faultClear
    | with_reducible apply canonical_chEffect
    | with_reducible apply canonical_clearFlags
    | with_reducible apply Device.canonical_ite
    | intro _
    | split
    | dsimp only

theorem canonical_writeWord (a : ℕ) (w : Sys2Proof.Word) {s : Device} (hs : s.Canonical sz) :
    (writeWord a w s).Canonical sz := by
  unfold writeWord
  repeat' first
    | with_reducible assumption
    | with_reducible apply canonical_writePkg
    | with_reducible apply canonical_writeDie
    | with_reducible apply canonical_writeCh
    | with_reducible apply canonical_bufWrite
    | with_reducible apply Device.canonical_ite
    | intro _
    | split
    | dsimp only

theorem canonical_deliver (a : ℕ) (w : Sys2Proof.Word) {s : Device} (hs : s.Canonical sz) :
    (deliver a w s).Canonical sz := by
  unfold deliver
  repeat' first
    | with_reducible assumption
    | with_reducible apply Device.canonical_pset
    | with_reducible apply canonical_bcastFirst
    | with_reducible apply canonical_writeWord
    | with_reducible apply Device.canonical_ite
    | intro _
    | split
    | dsimp only

theorem canonical_writeOne (a : ℕ) (w : Word) {s : Device} (h : s.Canonical sz) : (writeOne a w s).1.Canonical sz := by
  unfold writeOne
  split
  · dsimp only
    split
    · exact canonical_bufWrite _ _ h
    · exact canonical_frameErr _ h
  · split
    · split
      · exact Device.canonical_pset _ _ (canonical_valveReqOf _ _ h)
      · split
        · rename_i hp
          exact canonical_postWord _ _ h hp
        · exact Device.canonical_pset _ _ (canonical_noteRef _ _ h)
    · dsimp only
      exact canonical_deliver _ _ (canonical_valveReqOf _ _ h)

theorem canonical_registerWrite (a : ℕ) (w : Sys2Proof.Word) {s : Device} (hs : s.Canonical sz) :
    (registerWrite a w s).Canonical sz := by
  unfold registerWrite
  repeat' first
    | with_reducible assumption
    | with_reducible apply canonical_shadowPost
    | with_reducible apply canonical_frameEndWord
    | with_reducible apply canonical_deliver
    | with_reducible apply canonical_valveReqOf
    | (refine Device.canonical_fst (by with_reducible assumption) ?_; with_reducible apply canonical_writeOne)
    | with_reducible apply canonical_writeOne
    | with_reducible apply Device.canonical_ite
    | intro _
    | split
    | dsimp only

theorem canonical_ledgerAdvance {s : Device} (hs : s.Canonical sz) :
    (ledgerAdvance s).Canonical sz := by
  unfold ledgerAdvance
  repeat' first
    | with_reducible assumption
    | with_reducible apply Device.canonical_pset
    | with_reducible apply canonical_afterAdvance
    | with_reducible apply Device.canonical_ite
    | intro _
    | split
    | dsimp only

/-! Link. -/

theorem canonical_heard (d : ℕ) {s : Device} (hs : s.Canonical sz) :
    (heard d s).Canonical sz := by
  unfold heard
  repeat' first
    | with_reducible assumption
    | with_reducible apply Device.canonical_modLink
    | with_reducible apply Device.canonical_ite
    | intro _
    | split
    | dsimp only

theorem canonical_unpost (a : ℕ) (w : Word) {s : Device} (h : s.Canonical sz) : (unpost a w s).Canonical sz :=
  Device.canonical_modHost h fun _ hx => List.length_erase_le.trans hx

theorem canonical_groupTaken (d : ℕ) {s : Device} (hs : s.Canonical sz) :
    (groupTaken d s).Canonical sz := by
  unfold groupTaken
  repeat' first
    | with_reducible assumption
    | with_reducible apply canonical_groupCell
    | with_reducible apply canonical_snapCommit
    | with_reducible apply Device.canonical_ite
    | intro _
    | split
    | dsimp only

theorem canonical_entryTaken (d : ℕ) (e : LedgerEnt) {s : Device} (hs : s.Canonical sz) :
    (entryTaken d e s).Canonical sz := by
  unfold entryTaken
  repeat' first
    | with_reducible assumption
    | with_reducible apply canonical_ledgerPut
    | with_reducible apply Device.canonical_modDie
    | intro _
    | split
    | dsimp only

theorem canonical_dropsTaken (d : ℕ) (n : ℕ) {s : Device} (hs : s.Canonical sz) :
    (dropsTaken d n s).Canonical sz := by
  unfold dropsTaken
  repeat' first
    | with_reducible assumption
    | with_reducible apply Device.canonical_modDie
    | with_reducible apply Device.canonical_pset
    | intro _
    | split
    | dsimp only

theorem canonical_cellAct (d : ℕ) (c : CellLoad) {s : Device} (hs : s.Canonical sz) :
    (cellAct d c s).Canonical sz := by
  unfold cellAct
  repeat' first
    | with_reducible assumption
    | with_reducible apply canonical_deliver
    | with_reducible apply canonical_unpost
    | with_reducible apply Device.canonical_setBulk
    | with_reducible apply canonical_shadowTaken
    | with_reducible apply canonical_groupTaken
    | with_reducible apply canonical_leaseTold
    | with_reducible apply canonical_leaseLate
    | with_reducible apply canonical_valveSeatReq
    | with_reducible apply canonical_entryTaken
    | with_reducible apply canonical_dropsTaken
    | with_reducible apply canonical_ckptCell
    | with_reducible apply Device.canonical_ite
    | intro _
    | split
    | dsimp only

theorem canonical_sentUp (d : ℕ) (typ : ℕ) (c : CellLoad) {s : Device} (hs : s.Canonical sz) :
    (sentUp d typ c s).Canonical sz := by
  unfold sentUp
  repeat' first
    | with_reducible assumption
    | with_reducible apply canonical_cellAct
    | with_reducible apply Device.canonical_modLink
    | with_reducible apply Device.canonical_ite
    | intro _
    | split
    | dsimp only

theorem canonical_cellGroup (d : ℕ) {s : Device} (hs : s.Canonical sz) :
    (cellGroup d s).Canonical sz := by
  unfold cellGroup
  repeat' first
    | with_reducible assumption
    | with_reducible apply canonical_sentUp
    | with_reducible apply Device.canonical_ite
    | intro _
    | split
    | dsimp only

theorem canonical_sentDown (d : ℕ) (typ : ℕ) (c : CellLoad) {s : Device} (hs : s.Canonical sz) :
    (sentDown d typ c s).Canonical sz := by
  unfold sentDown
  repeat' first
    | with_reducible assumption
    | with_reducible apply Device.canonical_modLink
    | with_reducible apply Device.canonical_ite
    | intro _
    | split
    | dsimp only

theorem canonical_cellTrain (d : ℕ) (index : ℕ) {s : Device} (hs : s.Canonical sz) :
    (cellTrain d index s).Canonical sz := by
  unfold cellTrain
  repeat' first
    | with_reducible assumption
    | with_reducible apply Device.canonical_modDie
    | with_reducible apply Device.canonical_ite
    | with_reducible apply Device.canonical_mk
    | with_reducible apply Device.ring_set
    | with_reducible apply rfWf_set
    | with_reducible apply Device.Canonical.regs
    | with_reducible apply Device.Canonical.shadow
    | with_reducible apply Device.Canonical.force
    | with_reducible apply Device.Canonical.flash
    | with_reducible apply Device.Canonical.buf
    | with_reducible apply Device.Canonical.size
    | with_reducible apply Device.Canonical.chans
    | with_reducible apply Device.Canonical.dies
    | with_reducible apply Device.Canonical.ring
    | with_reducible apply Device.Canonical.posting
    | intro _
    | split
    | dsimp only

theorem canonical_cellCkpt (d : ℕ) {s : Device} (hs : s.Canonical sz) :
    (cellCkpt d s).Canonical sz := by
  unfold cellCkpt
  repeat' first
    | with_reducible assumption
    | with_reducible apply canonical_sentUp
    | with_reducible apply Device.canonical_ite
    | intro _
    | split
    | dsimp only

theorem canonical_bcastLost (typ : ℕ) (d : ℕ) {s : Device} (hs : s.Canonical sz) :
    (bcastLost typ d s).Canonical sz := by
  unfold bcastLost
  repeat' first
    | with_reducible assumption
    | with_reducible apply canonical_logEvent
    | with_reducible apply Device.canonical_ite
    | intro _
    | split
    | dsimp only

theorem canonical_heardUp (d : ℕ) {s : Device} (hs : s.Canonical sz) :
    (heardUp d s).Canonical sz := by
  unfold heardUp
  repeat' first
    | with_reducible assumption
    | with_reducible apply Device.canonical_modLink
    | intro _
    | split
    | dsimp only

theorem canonical_cellIdle (d : ℕ) {s : Device} (hs : s.Canonical sz) :
    (cellIdle d s).Canonical sz := by
  unfold cellIdle
  repeat' first
    | with_reducible assumption
    | with_reducible apply canonical_heard
    | with_reducible apply canonical_heardUp
    | with_reducible apply Device.canonical_ite
    | intro _
    | split
    | dsimp only

theorem canonical_reseatRequest (g : ℕ) (on : Bool) {s : Device} (hs : s.Canonical sz) :
    (reseatRequest g on s).Canonical sz := by
  unfold reseatRequest
  repeat' first
    | with_reducible assumption
    | with_reducible apply canonical_sentUp
    | with_reducible apply Device.canonical_ite
    | intro _
    | split
    | dsimp only

theorem canonical_bothHeard (d : ℕ) {s : Device} (hs : s.Canonical sz) :
    (bothHeard d s).Canonical sz := by
  unfold bothHeard
  repeat' first
    | with_reducible assumption
    | with_reducible apply canonical_heardUp
    | with_reducible apply canonical_heard
    | intro _
    | split
    | dsimp only

theorem canonical_indexFault (d : ℕ) {s : Device} (hs : s.Canonical sz) :
    (indexFault d s).Canonical sz := by
  unfold indexFault
  repeat' first
    | with_reducible assumption
    | with_reducible apply canonical_valvesHusk
    | with_reducible apply canonical_gatesOff
    | with_reducible apply Device.canonical_modDie
    | with_reducible apply canonical_logEvent
    | with_reducible apply Device.canonical_ite
    | with_reducible apply Device.canonical_each
    | intro _
    | split
    | dsimp only

theorem canonical_trainingDone (d : ℕ) {s : Device} (hs : s.Canonical sz) :
    (trainingDone d s).Canonical sz := by
  unfold trainingDone
  repeat' first
    | with_reducible assumption
    | with_reducible apply Device.canonical_modDie
    | with_reducible apply canonical_bothHeard
    | with_reducible apply canonical_indexFault
    | with_reducible apply canonical_publishDies
    | with_reducible apply canonical_dieReturns
    | with_reducible apply canonical_shadowRebuild
    | with_reducible apply Device.canonical_ite
    | with_reducible apply Device.canonical_each
    | intro _
    | split
    | dsimp only

theorem canonical_cellRead (d : ℕ) (a : ℕ) {s : Device} (hs : s.Canonical sz) :
    (cellRead d a s).Canonical sz := by
  unfold cellRead
  repeat' first
    | with_reducible assumption
    | with_reducible apply canonical_sentDown
    | with_reducible apply Device.canonical_setBulk
    | with_reducible apply Device.canonical_ite
    | intro _
    | split
    | dsimp only

theorem canonical_cellResp (d : ℕ) {s : Device} (hs : s.Canonical sz) :
    (cellResp d s).Canonical sz := by
  unfold cellResp
  repeat' first
    | with_reducible assumption
    | with_reducible apply canonical_sentUp
    | with_reducible apply canonical_bulkSpent
    | with_reducible apply Device.canonical_ite
    | intro _
    | split
    | dsimp only

theorem canonical_cellNak (d : ℕ) (seq : ℕ) (kind : ℕ) {s : Device} (hs : s.Canonical sz) :
    (cellNak d seq kind s).Canonical sz := by
  unfold cellNak
  repeat' first
    | with_reducible assumption
    | with_reducible apply canonical_bothHeard
    | with_reducible apply canonical_recoveryStart
    | with_reducible apply canonical_logEvent
    | with_reducible apply Device.canonical_modLink
    | with_reducible apply Device.canonical_pinc
    | with_reducible apply Device.canonical_ite
    | intro _
    | split
    | dsimp only

theorem canonical_cellShadow (a : ℕ) {s : Device} (hs : s.Canonical sz) :
    (cellShadow a s).Canonical sz := by
  unfold cellShadow
  repeat' first
    | with_reducible assumption
    | with_reducible apply canonical_sentUp
    | with_reducible apply Device.canonical_ite
    | intro _
    | split
    | dsimp only

theorem canonical_cellLease (m : Sys2Proof.LeaseMsg) (late : Bool) {s : Device} (hs : s.Canonical sz) :
    (cellLease m late s).Canonical sz := by
  unfold cellLease
  repeat' first
    | with_reducible assumption
    | with_reducible apply canonical_sentUp
    | with_reducible apply canonical_sentDown
    | with_reducible apply canonical_reseatRequest
    | with_reducible apply Device.canonical_ite
    | intro _
    | split
    | dsimp only

theorem canonical_cellBcast (k : Sys2Proof.BcastKind) (typ : ℕ) (d : ℕ) (f : ℕ) (c : ℕ) (intact : Bool) {s : Device} (hs : s.Canonical sz) :
    (cellBcast k typ d f c intact s).Canonical sz := by
  unfold cellBcast
  repeat' first
    | with_reducible assumption
    | with_reducible apply canonical_bcastLost
    | with_reducible apply canonical_heardUp
    | with_reducible apply Device.canonical_setBcast
    | with_reducible apply Device.canonical_ite
    | intro _
    | split
    | dsimp only

theorem canonical_snapLost (d : ℕ) (frame : ℕ) {s : Device} (hs : s.Canonical sz) :
    (snapLost d frame s).Canonical sz := by
  unfold snapLost
  repeat' first
    | with_reducible assumption
    | with_reducible apply canonical_bcastLost
    | with_reducible apply canonical_snapInvalid
    | with_reducible apply Device.canonical_ite
    | intro _
    | split
    | dsimp only

theorem canonical_cellWrite (d : ℕ) {s : Device} (h : s.Canonical sz) : (cellWrite d s).Canonical sz := by
  unfold cellWrite
  split
  · exact h
  · split
    · exact Device.canonical_pset _ _ (canonical_unpost _ _ h)
    · split
      · exact canonical_sentDown _ _ _ h
      · exact h

theorem canonical_cellAck (d : ℕ) (seq : ℕ) {s : Device} (hs : s.Canonical sz) :
    (cellAck d seq s).Canonical sz := by
  unfold cellAck
  repeat' first
    | with_reducible assumption
    | with_reducible apply canonical_cellAct
    | with_reducible apply canonical_bothHeard
    | with_reducible apply Device.canonical_modLink
    | with_reducible apply Device.canonical_ite
    | intro _
    | split
    | dsimp only

theorem canonical_cellLedger (d : ℕ) {s : Device} (hs : s.Canonical sz) :
    (cellLedger d s).Canonical sz := by
  unfold cellLedger
  repeat' first
    | with_reducible assumption
    | with_reducible apply canonical_sentUp
    | with_reducible apply Device.canonical_ite
    | intro _
    | split
    | dsimp only

theorem canonical_cellSnap (d : ℕ) (frame : ℕ) {s : Device} (hs : s.Canonical sz) :
    (cellSnap d frame s).Canonical sz := by
  unfold cellSnap
  repeat' first
    | with_reducible assumption
    | with_reducible apply canonical_heardUp
    | with_reducible apply Device.canonical_setBcast
    | with_reducible apply Device.canonical_ite
    | intro _
    | split
    | dsimp only

/-! Clock. -/

theorem canonical_countClock (inp : Sys2Proof.ClockIn) (g : ℕ) {s : Device} (hs : s.Canonical sz) :
    (countClock inp g s).Canonical sz := by
  unfold countClock
  repeat' first
    | with_reducible assumption
    | with_reducible apply canonical_pulseClock
    | with_reducible apply Device.canonical_modAcc
    | intro _
    | split
    | dsimp only

theorem canonical_winMark (d : ℕ) {s : Device} (hs : s.Canonical sz) :
    (winMark d s).Canonical sz := by
  unfold winMark
  repeat' first
    | with_reducible assumption
    | with_reducible apply Device.canonical_modDie
    | with_reducible apply Device.canonical_ite
    | intro _
    | split
    | dsimp only

theorem canonical_dieClock (d : ℕ) {s : Device} (hs : s.Canonical sz) :
    (dieClock d s).Canonical sz := by
  unfold dieClock
  repeat' first
    | with_reducible assumption
    | with_reducible apply Device.canonical_modDie
    | with_reducible apply Device.canonical_ite
    | intro _
    | split
    | dsimp only

theorem canonical_benchClock (inp : Sys2Proof.ClockIn) (last : Bool) (d : ℕ) {s : Device} (hs : s.Canonical sz) :
    (benchClock inp last d s).Canonical sz := by
  unfold benchClock
  repeat' first
    | with_reducible assumption
    | with_reducible apply Device.canonical_modBench
    | with_reducible apply Device.canonical_ite
    | intro _
    | split
    | dsimp only

theorem canonical_chanClock (inp : Sys2Proof.ClockIn) (last : Bool) (g : ℕ) {s : Device} (hs : s.Canonical sz) :
    (chanClock inp last g s).Canonical sz := by
  unfold chanClock
  repeat' first
    | with_reducible assumption
    | with_reducible apply canonical_countClock
    | with_reducible apply Device.canonical_modCh
    | with_reducible apply canonical_acirNextDue
    | with_reducible apply canonical_acirClock
    | with_reducible apply Device.canonical_ite
    | intro _
    | split
    | dsimp only

theorem canonical_dieStep (inp : Sys2Proof.ClockIn) (last : Bool) (d : ℕ) {s : Device} (hs : s.Canonical sz) :
    (dieStep inp last d s).Canonical sz := by
  unfold dieStep
  repeat' first
    | with_reducible assumption
    | with_reducible apply canonical_winMark
    | with_reducible apply canonical_dieClock
    | with_reducible apply canonical_benchClock
    | with_reducible apply canonical_chanClock
    | with_reducible apply Device.canonical_ite
    | with_reducible apply Device.canonical_each
    | intro _
    | split
    | dsimp only

theorem canonical_accumulateClock (inp : Sys2Proof.ClockIn) {s : Device} (hs : s.Canonical sz) :
    (accumulateClock inp s).Canonical sz := by
  unfold accumulateClock
  repeat' first
    | with_reducible assumption
    | with_reducible apply canonical_dieStep
    | with_reducible apply canonical_lineClock
    | with_reducible apply Device.canonical_noteRegs
    | with_reducible apply Device.canonical_setTime
    | with_reducible apply canonical_lockClock
    | with_reducible apply Device.canonical_ite
    | with_reducible apply Device.canonical_each
    | intro _
    | split
    | dsimp only

/-! Boundary. -/

theorem canonical_snapBoundary {s : Device} (hs : s.Canonical sz) :
    (snapBoundary s).Canonical sz := by
  unfold snapBoundary
  repeat' first
    | with_reducible assumption
    | with_reducible apply Device.canonical_modSnap
    | with_reducible apply canonical_snapNow
    | with_reducible apply Device.canonical_ite
    | intro _
    | split
    | dsimp only

theorem canonical_testEntry {s : Device} (hs : s.Canonical sz) :
    (testEntry s).Canonical sz := by
  unfold testEntry
  repeat' first
    | with_reducible assumption
    | with_reducible apply canonical_stateValves
    | with_reducible apply canonical_changeState
    | with_reducible apply canonical_releaseCarrier
    | with_reducible apply canonical_setPhase
    | with_reducible apply Device.canonical_modBench
    | with_reducible apply canonical_endVisit
    | with_reducible apply Device.canonical_ite
    | with_reducible apply Device.canonical_each
    | intro _
    | split
    | dsimp only

theorem canonical_testVisitEnds (d : ℕ) {s : Device} (hs : s.Canonical sz) :
    (testVisitEnds d s).Canonical sz := by
  unfold testVisitEnds
  repeat' first
    | with_reducible assumption
    | with_reducible apply canonical_endVisit
    | with_reducible apply Device.canonical_ite
    | intro _
    | split
    | dsimp only

theorem canonical_testLeave {s : Device} (hs : s.Canonical sz) :
    (testLeave s).Canonical sz := by
  unfold testLeave
  repeat' first
    | with_reducible assumption
    | with_reducible apply canonical_setMode
    | with_reducible apply canonical_testVisitEnds
    | with_reducible apply canonical_changeState
    | with_reducible apply canonical_tripNonRun
    | with_reducible apply canonical_stateValves
    | with_reducible apply Device.canonical_ite
    | with_reducible apply Device.canonical_each
    | with_reducible refine Device.canonical_modHost ?_ (fun _ h => h)
    | intro _
    | split
    | dsimp only

theorem canonical_testBoundary {s : Device} (hs : s.Canonical sz) :
    (testBoundary s).Canonical sz := by
  unfold testBoundary
  repeat' first
    | with_reducible assumption
    | with_reducible apply canonical_testEntry
    | with_reducible apply Device.canonical_pset
    | with_reducible apply canonical_testLeave
    | with_reducible apply Device.canonical_ite
    | with_reducible refine Device.canonical_modHost ?_ (fun _ h => h)
    | intro _
    | split
    | dsimp only

theorem canonical_leadFirst {s : Device} (hs : s.Canonical sz) :
    (leadFirst s).Canonical sz := by
  unfold leadFirst
  repeat' first
    | with_reducible assumption
    | with_reducible apply canonical_lineBoundary
    | with_reducible apply canonical_plsBoundary
    | with_reducible apply canonical_plsWait
    | with_reducible apply Device.canonical_ite
    | intro _
    | split
    | dsimp only

theorem canonical_frameAdvance {s : Device} (hs : s.Canonical sz) :
    (frameAdvance s).Canonical sz := by
  unfold frameAdvance
  repeat' first
    | with_reducible assumption
    | with_reducible apply Device.canonical_noteRegs
    | with_reducible apply Device.canonical_setTime
    | with_reducible apply Device.canonical_modDie
    | with_reducible apply Device.canonical_ite
    | with_reducible apply Device.canonical_each
    | intro _
    | split
    | dsimp only

theorem canonical_copyAll (g : ℕ) {s : Device} (hs : s.Canonical sz) :
    (copyAll g s).Canonical sz := by
  unfold copyAll
  repeat' first
    | with_reducible assumption
    | with_reducible apply Device.canonical_modCh
    | intro _
    | split
    | dsimp only

theorem canonical_bookAll {s : Device} (hs : s.Canonical sz) :
    (bookAll s).Canonical sz := by
  unfold bookAll
  repeat' first
    | with_reducible assumption
    | with_reducible apply canonical_bookFrame
    | with_reducible apply canonical_copyAll
    | with_reducible apply Device.canonical_each
    | intro _
    | split
    | dsimp only

theorem canonical_tcrBoundary (g : ℕ) {s : Device} (hs : s.Canonical sz) :
    (tcrBoundary g s).Canonical sz := by
  unfold tcrBoundary
  repeat' first
    | with_reducible assumption
    | with_reducible apply canonical_tcrWritten
    | with_reducible apply Device.canonical_ite
    | intro _
    | split
    | dsimp only

theorem canonical_dieBoundary (d : ℕ) {s : Device} (hs : s.Canonical sz) :
    (dieBoundary d s).Canonical sz := by
  unfold dieBoundary
  repeat' first
    | with_reducible assumption
    | with_reducible apply canonical_refBoundary
    | with_reducible apply canonical_benchBoundary
    | with_reducible apply Device.canonical_ite
    | intro _
    | split
    | dsimp only

theorem canonical_settingsBoundary (g : ℕ) {s : Device} (hs : s.Canonical sz) :
    (settingsBoundary g s).Canonical sz := by
  unfold settingsBoundary
  repeat' first
    | with_reducible assumption
    | with_reducible apply Device.canonical_cforce
    | with_reducible apply canonical_acirBoundary
    | intro _
    | split
    | dsimp only

theorem canonical_rangeBoundary (g : ℕ) {s : Device} (hs : s.Canonical sz) :
    (rangeBoundary g s).Canonical sz := by
  unfold rangeBoundary
  repeat' first
    | with_reducible assumption
    | with_reducible apply Device.canonical_modDue
    | with_reducible apply canonical_benchRange
    | with_reducible apply Device.canonical_cset
    | with_reducible apply canonical_rangeConsts
    | with_reducible apply canonical_rescaleLoop
    | with_reducible apply Device.canonical_modAcir
    | with_reducible apply Device.canonical_ite
    | intro _
    | split
    | dsimp only

theorem canonical_ledgerBoundary {s : Device} (hs : s.Canonical sz) :
    (ledgerBoundary s).Canonical sz := by
  unfold ledgerBoundary
  repeat' first
    | with_reducible assumption
    | with_reducible apply canonical_setCat
    | with_reducible apply Device.canonical_ite
    | intro _
    | split
    | dsimp only

theorem canonical_leadLast {s : Device} (hs : s.Canonical sz) :
    (leadLast s).Canonical sz := by
  unfold leadLast
  repeat' first
    | with_reducible assumption
    | with_reducible apply canonical_supplyForce
    | with_reducible apply canonical_tallyBoundary
    | with_reducible apply canonical_shipBoundary
    | with_reducible apply canonical_nvmRun
    | with_reducible apply canonical_pinBoundary
    | with_reducible apply canonical_testBoundary
    | with_reducible apply canonical_snapBoundary
    | with_reducible apply canonical_ledgerBoundary
    | with_reducible apply Device.canonical_ite
    | intro _
    | split
    | dsimp only

theorem canonical_dieLast (d : ℕ) {s : Device} (hs : s.Canonical sz) :
    (dieLast d s).Canonical sz := by
  unfold dieLast
  repeat' first
    | with_reducible assumption
    | with_reducible apply canonical_sarBoundary
    | with_reducible apply canonical_gleanEnables
    | with_reducible apply Device.canonical_ite
    | intro _
    | split
    | dsimp only

theorem canonical_leadStore {s : Device} (hs : s.Canonical sz) :
    (leadStore s).Canonical sz := by
  unfold leadStore
  repeat' first
    | with_reducible assumption
    | with_reducible apply canonical_storeBoundary
    | with_reducible apply canonical_keepBoundary
    | with_reducible apply canonical_chargerBoundary
    | with_reducible apply Device.canonical_ite
    | intro _
    | split
    | dsimp only

theorem canonical_frameSums (g : ℕ) {s : Device} (hs : s.Canonical sz) :
    (frameSums g s).Canonical sz := by
  unfold frameSums
  repeat' first
    | with_reducible assumption
    | with_reducible apply Device.canonical_modCh
    | intro _
    | split
    | dsimp only

theorem canonical_frameBoundary {s : Device} (hs : s.Canonical sz) :
    (frameBoundary s).Canonical sz := by
  unfold frameBoundary
  repeat' first
    | with_reducible assumption
    | with_reducible apply canonical_leadFirst
    | with_reducible apply canonical_frameAdvance
    | with_reducible apply canonical_precDie
    | with_reducible apply canonical_bookAll
    | with_reducible apply canonical_engineBoundary
    | with_reducible apply canonical_trimBoundary
    | with_reducible apply canonical_lateBoundary
    | with_reducible apply canonical_demandBoundary
    | with_reducible apply canonical_btBoundary
    | with_reducible apply canonical_constBoundary
    | with_reducible apply canonical_tcrBoundary
    | with_reducible apply canonical_dieBoundary
    | with_reducible apply canonical_settingsBoundary
    | with_reducible apply canonical_clearBoundary
    | with_reducible apply canonical_rangeBoundary
    | with_reducible apply canonical_leadLast
    | with_reducible apply canonical_dieLast
    | with_reducible apply canonical_leadStore
    | with_reducible apply canonical_frameSums
    | with_reducible apply canonical_retCommit
    | with_reducible apply Device.canonical_each
    | intro _
    | split
    | dsimp only

/-! HostPort. -/

theorem canonical_writeWords (crc : Bool) (a : ℕ) (l : List (Word × Byte)) {s : Device} (h : s.Canonical sz) :
    (writeWords crc a l s).1.Canonical sz := by
  induction l generalizing a s with
  | nil => exact h
  | cons p l ih =>
    obtain ⟨w, c⟩ := p
    rw [writeWords]
    split
    · exact Device.canonical_pset _ _ (canonical_noteRef _ _ h)
    · have h1 := canonical_writeOne a w h
      generalize writeOne a w s = q at h1 ⊢
      obtain ⟨t, full⟩ := q
      dsimp only
      split
      · exact h1
      · exact ih _ h1

theorem canonical_shiftOut (status : ℕ) (words : List Sys2Proof.Word) (bytes : List Sys2Proof.Byte) {s : Device} (hs : s.Canonical sz) :
    (shiftOut status words bytes s).Canonical sz := by
  unfold shiftOut
  repeat' first
    | with_reducible assumption
    | with_reducible refine Device.canonical_modHost ?_ (fun _ h => h)
    | intro _
    | split
    | dsimp only

theorem canonical_unanswered {s : Device} (hs : s.Canonical sz) :
    (unanswered s).Canonical sz := by
  unfold unanswered
  repeat' first
    | with_reducible assumption
    | with_reducible refine Device.canonical_modHost ?_ (fun _ h => h)
    | intro _
    | split
    | dsimp only

theorem canonical_onFrame (f : Device → Device) {s : Device} (hf : ∀ y0, y0.Canonical sz → (f y0).Canonical sz) (hs : s.Canonical sz) :
    (onFrame f s).Canonical sz := by
  unfold onFrame
  repeat' first
    | with_reducible assumption
    | with_reducible apply canonical_shiftOut
    | with_reducible apply canonical_unanswered
    | with_reducible apply hf
    | with_reducible apply Device.canonical_ite
    | intro _
    | split
    | dsimp only

theorem canonical_hostUnknown (cmd : ℕ) {s : Device} (hs : s.Canonical sz) :
    (hostUnknown cmd s).Canonical sz := by
  unfold hostUnknown
  repeat' first
    | with_reducible assumption
    | with_reducible apply canonical_onFrame
    | with_reducible apply canonical_frameErr
    | intro _
    | split
    | dsimp only

theorem canonical_sendWords (cmd : ℕ) (a : ℕ) (first : ℕ) (clocks : ℕ) (f : ℕ → Sys2Proof.Word) {s : Device} (hs : s.Canonical sz) :
    (sendWords cmd a first clocks f s).Canonical sz := by
  unfold sendWords
  repeat' first
    | with_reducible assumption
    | with_reducible apply canonical_shiftOut
    | with_reducible apply Device.canonical_ite
    | intro _
    | split
    | dsimp only

theorem canonical_bulkFrame (a : ℕ) (clocks : ℕ) (late : Option ℕ) {s : Device} (hs : s.Canonical sz) :
    (bulkFrame a clocks late s).Canonical sz := by
  unfold bulkFrame
  repeat' first
    | with_reducible assumption
    | with_reducible apply canonical_sendWords
    | with_reducible apply Device.canonical_pset
    | with_reducible apply Device.canonical_spend
    | with_reducible apply Device.canonical_setBulk
    | with_reducible apply Device.canonical_ite
    | intro _
    | split
    | dsimp only

theorem canonical_ledgerRead (a : ℕ) (first : ℕ) (l : ℕ) (clocks : ℕ) {s : Device} (hs : s.Canonical sz) :
    (ledgerRead a first l clocks s).Canonical sz := by
  unfold ledgerRead
  repeat' first
    | with_reducible assumption
    | with_reducible apply canonical_ledgerAdvance
    | with_reducible apply Device.canonical_ite
    | intro _
    | split
    | dsimp only

theorem canonical_readFrame (cmd : ℕ) (a : ℕ) (first : ℕ) (clocks : ℕ) {s : Device} (hs : s.Canonical sz) :
    (readFrame cmd a first clocks s).Canonical sz := by
  unfold readFrame
  repeat' first
    | with_reducible assumption
    | with_reducible apply canonical_sendWords
    | with_reducible apply canonical_frameErr
    | with_reducible apply canonical_ledgerRead
    | intro _
    | split
    | dsimp only

theorem canonical_hostRdb (a : ℕ) (clocks : ℕ) (late : Option ℕ) {s : Device} (hs : s.Canonical sz) :
    (hostRdb a clocks late s).Canonical sz := by
  unfold hostRdb
  repeat' first
    | with_reducible assumption
    | with_reducible apply canonical_onFrame
    | with_reducible apply canonical_frameErr
    | with_reducible apply canonical_readFrame
    | with_reducible apply canonical_bulkFrame
    | with_reducible apply Device.canonical_ite
    | intro _
    | split
    | dsimp only

theorem canonical_hostNop (bytes : ℕ) {s : Device} (hs : s.Canonical sz) :
    (hostNop bytes s).Canonical sz := by
  unfold hostNop
  repeat' first
    | with_reducible assumption
    | with_reducible apply canonical_onFrame
    | with_reducible apply canonical_shiftOut
    | intro _
    | split
    | dsimp only

theorem canonical_writeFrame (a : ℕ) (data : List (Sys2Proof.Word × Sys2Proof.Byte)) (clocks : ℕ) {s : Device} (hs : s.Canonical sz) :
    (writeFrame a data clocks s).Canonical sz := by
  unfold writeFrame
  repeat' first
    | with_reducible assumption
    | with_reducible apply canonical_frameErr
    | with_reducible apply canonical_frameEndWord
    | (refine Device.canonical_fst (by with_reducible assumption) ?_; with_reducible apply canonical_writeWords)
    | with_reducible apply canonical_writeWords
    | with_reducible apply Device.canonical_foldl
    | intro _
    | split
    | dsimp only

theorem canonical_hostWr (a : ℕ) (data : List (Sys2Proof.Word × Sys2Proof.Byte)) (clocks : ℕ) {s : Device} (hs : s.Canonical sz) :
    (hostWr a data clocks s).Canonical sz := by
  unfold hostWr
  repeat' first
    | with_reducible assumption
    | with_reducible apply canonical_onFrame
    | with_reducible apply canonical_writeFrame
    | with_reducible apply Device.canonical_ite
    | intro _
    | split
    | dsimp only

theorem canonical_hostRd (a : ℕ) (clocks : ℕ) {s : Device} (hs : s.Canonical sz) :
    (hostRd a clocks s).Canonical sz := by
  unfold hostRd
  repeat' first
    | with_reducible assumption
    | with_reducible apply canonical_onFrame
    | with_reducible apply canonical_readFrame
    | with_reducible apply Device.canonical_ite
    | intro _
    | split
    | dsimp only

end Sys2Proof.Machine
end

