-- ==== Sys2Proof/Laws/Fields.lean ====
section
/-! SUPPORT. Fields of a word: what a field reads after it, or a field beside it, is set. -/

namespace Sys2Proof.Machine

/-- What a put leaves, as a number: the bits above and below the field and the new value between them. -/
theorem Fld.put_toNat {b : Blk} (f : Fld b) (v : Nat) (w : Word) (hl : f.lo ≤ f.hi) (hh : f.hi < 32) :
    (f.put v w).toNat = w.toNat / (2 ^ f.lo * 2 ^ f.width) * (2 ^ f.lo * 2 ^ f.width) +
      v % 2 ^ f.width * 2 ^ f.lo + w.toNat % 2 ^ f.lo := by
  unfold Fld.put Fld.get
  have hw := w.isLt
  generalize w.toNat = n at hw ⊢
  have hd : 2 ^ f.lo * 2 ^ f.width ∣ 2 ^ 32 := by
    rw [← Nat.pow_add]; apply Nat.pow_dvd_pow; unfold Fld.width; omega
  have hA : 0 < 2 ^ f.lo := Nat.two_pow_pos _
  have hB : 0 < 2 ^ f.width := Nat.two_pow_pos _
  generalize 2 ^ f.lo = A at *
  generalize 2 ^ f.width = B at *
  obtain ⟨k, hk⟩ := hd
  have h1 := Nat.div_add_mod n A
  have h2 := Nat.div_add_mod (n / A) B
  rw [Nat.div_div_eq_div_mul] at h2
  have hq : n / (A * B) < k := Nat.div_lt_of_lt_mul (by rw [hk] at hw; exact hw)
  have hr := Nat.mod_lt n hA
  have hv := Nat.mod_lt v hB
  generalize n / (A * B) = q at *
  generalize n / A % B = m at *
  generalize n % A = r at *
  generalize v % B = x at *
  have e : n = q * (A * B) + m * A + r := by
    rw [← h1, ← h2]; ring
  have e2 : n - m * A + x * A = q * (A * B) + x * A + r := by omega
  rw [e2, BitVec.toNat_ofNat, Nat.mod_eq_of_lt]
  have h3 : x * A + r < A * B := by nlinarith
  have h4 : (q + 1) * (A * B) ≤ k * (A * B) := Nat.mul_le_mul_right _ hq
  rw [hk]
  nlinarith

/-- A field's value after it is set. -/
theorem Fld.get_put_self {b : Blk} (f : Fld b) (v : Nat) (w : Word) (hl : f.lo ≤ f.hi) (hh : f.hi < 32) :
    f.get (f.put v w) = v % 2 ^ f.width := by
  rw [Fld.get, Fld.put_toNat f v w hl hh]
  have hA : 0 < 2 ^ f.lo := Nat.two_pow_pos _
  generalize w.toNat / (2 ^ f.lo * 2 ^ f.width) = q
  have hr := Nat.mod_lt w.toNat hA
  generalize w.toNat % 2 ^ f.lo = r at *
  have e : q * (2 ^ f.lo * 2 ^ f.width) + v % 2 ^ f.width * 2 ^ f.lo + r = r + 2 ^ f.lo * (v % 2 ^ f.width + 2 ^ f.width * q) := by ring
  rw [e, Nat.add_mul_div_left _ _ hA, Nat.div_eq_of_lt hr, Nat.zero_add, Nat.add_mul_mod_self_left, Nat.mod_mod]

/-- A field is unchanged when a field of the same word that shares no bit with it is set. -/
theorem Fld.get_put_other {b : Blk} (f g : Fld b) (v : Nat) (w : Word) (hl : f.lo ≤ f.hi) (hh : f.hi < 32)
    (hg : g.lo ≤ g.hi) (hd : g.hi < f.lo ∨ f.hi < g.lo) : g.get (f.put v w) = g.get w := by
  unfold Fld.get
  rw [Fld.put_toNat f v w hl hh]
  have hA : 0 < 2 ^ f.lo := Nat.two_pow_pos _
  have hr := Nat.mod_lt w.toNat hA
  have hB : 0 < 2 ^ f.width := Nat.two_pow_pos _
  have hv := Nat.mod_lt v hB
  rcases hd with hd | hd
  · have key : ∀ x : Nat, x / 2 ^ g.lo % 2 ^ g.width = (x % 2 ^ f.lo) / 2 ^ g.lo % 2 ^ g.width := by
      intro x
      have hp : 2 ^ f.lo = 2 ^ g.lo * (2 ^ g.width * 2 ^ (f.lo - g.hi - 1)) := by
        rw [← Nat.pow_add, ← Nat.pow_add]; congr 1; unfold Fld.width; omega
      rw [hp, Nat.mod_mul_right_div_self, Nat.mod_mul_right_mod]
    rw [key, key w.toNat]
    congr 2
    have e : w.toNat / (2 ^ f.lo * 2 ^ f.width) * (2 ^ f.lo * 2 ^ f.width) + v % 2 ^ f.width * 2 ^ f.lo + w.toNat % 2 ^ f.lo =
        w.toNat % 2 ^ f.lo + 2 ^ f.lo * (w.toNat / (2 ^ f.lo * 2 ^ f.width) * 2 ^ f.width + v % 2 ^ f.width) := by ring
    rw [e, Nat.add_mul_mod_self_left, Nat.mod_mod]
  · have hp : 2 ^ g.lo = 2 ^ f.lo * 2 ^ f.width * 2 ^ (g.lo - f.hi - 1) := by
      rw [← Nat.pow_add, ← Nat.pow_add]; congr 1; unfold Fld.width; omega
    rw [hp, ← Nat.div_div_eq_div_mul _ (2 ^ f.lo * 2 ^ f.width), ← Nat.div_div_eq_div_mul _ (2 ^ f.lo * 2 ^ f.width)]
    congr 2
    have h3 : v % 2 ^ f.width * 2 ^ f.lo + w.toNat % 2 ^ f.lo < 2 ^ f.lo * 2 ^ f.width := by nlinarith
    have h4 : 0 < 2 ^ f.lo * 2 ^ f.width := Nat.mul_pos hA hB
    rw [Nat.add_assoc, Nat.mul_comm (w.toNat / _), Nat.mul_add_div h4, Nat.div_eq_of_lt h3, Nat.add_zero]

end Sys2Proof.Machine
end

