-- ==== Sys2Proof/Laws/State.lean ====
section
/-! SUPPORT. One lemma for each field of the device under each operation that changes a part of it, and reading after writing:
registers, fields of registers, channels and dies. -/

namespace Sys2Proof.Machine.Device

variable (s : Device)


/-! setReg -/

@[simp] theorem setReg_nDies (a : Nat) (w : Word) : (s.setReg a w).nDies = s.nDies := rfl
@[simp] theorem setReg_straps (a : Nat) (w : Word) : (s.setReg a w).straps = s.straps := rfl
@[simp] theorem setReg_frame (a : Nat) (w : Word) : (s.setReg a w).frame = s.frame := rfl
@[simp] theorem setReg_clk (a : Nat) (w : Word) : (s.setReg a w).clk = s.clk := rfl
@[simp] theorem setReg_regs (a : Nat) (w : Word) : (s.setReg a w).regs = rfSet s.regs a w := rfl
@[simp] theorem setReg_shadow (a : Nat) (w : Word) : (s.setReg a w).shadow = s.shadow := rfl
@[simp] theorem setReg_stage (a : Nat) (w : Word) : (s.setReg a w).stage = s.stage := rfl
@[simp] theorem setReg_force (a : Nat) (w : Word) : (s.setReg a w).force = s.force := rfl
@[simp] theorem setReg_chans (a : Nat) (w : Word) : (s.setReg a w).chans = s.chans := rfl
@[simp] theorem setReg_dies (a : Nat) (w : Word) : (s.setReg a w).dies = s.dies := rfl
@[simp] theorem setReg_line (a : Nat) (w : Word) : (s.setReg a w).line = s.line := rfl
@[simp] theorem setReg_bcast (a : Nat) (w : Word) : (s.setReg a w).bcast = s.bcast := rfl
@[simp] theorem setReg_snap (a : Nat) (w : Word) : (s.setReg a w).snap = s.snap := rfl
@[simp] theorem setReg_host (a : Nat) (w : Word) : (s.setReg a w).host = s.host := rfl
@[simp] theorem setReg_pins (a : Nat) (w : Word) : (s.setReg a w).pins = s.pins := rfl
@[simp] theorem setReg_irqAt (a : Nat) (w : Word) : (s.setReg a w).irqAt = s.irqAt := rfl
@[simp] theorem setReg_ledger (a : Nat) (w : Word) : (s.setReg a w).ledger = s.ledger := rfl
@[simp] theorem setReg_vreqs (a : Nat) (w : Word) : (s.setReg a w).vreqs = s.vreqs := rfl
@[simp] theorem setReg_vorder (a : Nat) (w : Word) : (s.setReg a w).vorder = s.vorder := rfl
@[simp] theorem setReg_grants (a : Nat) (w : Word) : (s.setReg a w).grants = s.grants := rfl
@[simp] theorem setReg_bankAt (a : Nat) (w : Word) : (s.setReg a w).bankAt = s.bankAt := rfl
@[simp] theorem setReg_nvm (a : Nat) (w : Word) : (s.setReg a w).nvm = s.nvm := rfl
@[simp] theorem setReg_pulses (a : Nat) (w : Word) : (s.setReg a w).pulses = s.pulses := rfl
@[simp] theorem setReg_tallyClr (a : Nat) (w : Word) : (s.setReg a w).tallyClr = s.tallyClr := rfl
@[simp] theorem setReg_tallyIn (a : Nat) (w : Word) : (s.setReg a w).tallyIn = s.tallyIn := rfl
@[simp] theorem setReg_run (a : Nat) (w : Word) : (s.setReg a w).run = s.run := rfl
@[simp] theorem setReg_supply (a : Nat) (w : Word) : (s.setReg a w).supply = s.supply := rfl
@[simp] theorem setReg_otp (a : Nat) (w : Word) : (s.setReg a w).otp = s.otp := rfl
@[simp] theorem setReg_reads (a : Nat) (w : Word) : (s.setReg a w).reads = s.reads := rfl
@[simp] theorem setReg_resps (a : Nat) (w : Word) : (s.setReg a w).resps = s.resps := rfl
@[simp] theorem setReg_busW1c (a : Nat) (w : Word) : (s.setReg a w).busW1c = s.busW1c := rfl
@[simp] theorem setReg_busClr (a : Nat) (w : Word) : (s.setReg a w).busClr = s.busClr := rfl
@[simp] theorem setReg_clockRegs (a : Nat) (w : Word) : (s.setReg a w).clockRegs = s.clockRegs := rfl
@[simp] theorem setReg_dropped (a : Nat) (w : Word) : (s.setReg a w).dropped = s.dropped := rfl
@[simp] theorem setReg_free (a : Nat) (w : Word) : (s.setReg a w).free = s.free := rfl
@[simp] theorem setReg_frc (a : Nat) (w : Word) (b : Nat) : (s.setReg a w).frc b = s.frc b := rfl
@[simp] theorem setReg_ch (a : Nat) (w : Word) (h : Nat) : (s.setReg a w).ch h = s.ch h := rfl
@[simp] theorem setReg_die (a : Nat) (w : Word) (e : Nat) : (s.setReg a w).die e = s.die e := rfl

/-! setFrc -/

@[simp] theorem setFrc_nDies (a : Nat) (w : Word) : (s.setFrc a w).nDies = s.nDies := rfl
@[simp] theorem setFrc_straps (a : Nat) (w : Word) : (s.setFrc a w).straps = s.straps := rfl
@[simp] theorem setFrc_frame (a : Nat) (w : Word) : (s.setFrc a w).frame = s.frame := rfl
@[simp] theorem setFrc_clk (a : Nat) (w : Word) : (s.setFrc a w).clk = s.clk := rfl
@[simp] theorem setFrc_regs (a : Nat) (w : Word) : (s.setFrc a w).regs = s.regs := rfl
@[simp] theorem setFrc_shadow (a : Nat) (w : Word) : (s.setFrc a w).shadow = s.shadow := rfl
@[simp] theorem setFrc_stage (a : Nat) (w : Word) : (s.setFrc a w).stage = s.stage := rfl
@[simp] theorem setFrc_force (a : Nat) (w : Word) : (s.setFrc a w).force = rfSet s.force a w := rfl
@[simp] theorem setFrc_chans (a : Nat) (w : Word) : (s.setFrc a w).chans = s.chans := rfl
@[simp] theorem setFrc_dies (a : Nat) (w : Word) : (s.setFrc a w).dies = s.dies := rfl
@[simp] theorem setFrc_line (a : Nat) (w : Word) : (s.setFrc a w).line = s.line := rfl
@[simp] theorem setFrc_bcast (a : Nat) (w : Word) : (s.setFrc a w).bcast = s.bcast := rfl
@[simp] theorem setFrc_snap (a : Nat) (w : Word) : (s.setFrc a w).snap = s.snap := rfl
@[simp] theorem setFrc_host (a : Nat) (w : Word) : (s.setFrc a w).host = s.host := rfl
@[simp] theorem setFrc_pins (a : Nat) (w : Word) : (s.setFrc a w).pins = s.pins := rfl
@[simp] theorem setFrc_irqAt (a : Nat) (w : Word) : (s.setFrc a w).irqAt = s.irqAt := rfl
@[simp] theorem setFrc_ledger (a : Nat) (w : Word) : (s.setFrc a w).ledger = s.ledger := rfl
@[simp] theorem setFrc_vreqs (a : Nat) (w : Word) : (s.setFrc a w).vreqs = s.vreqs := rfl
@[simp] theorem setFrc_vorder (a : Nat) (w : Word) : (s.setFrc a w).vorder = s.vorder := rfl
@[simp] theorem setFrc_grants (a : Nat) (w : Word) : (s.setFrc a w).grants = s.grants := rfl
@[simp] theorem setFrc_bankAt (a : Nat) (w : Word) : (s.setFrc a w).bankAt = s.bankAt := rfl
@[simp] theorem setFrc_nvm (a : Nat) (w : Word) : (s.setFrc a w).nvm = s.nvm := rfl
@[simp] theorem setFrc_pulses (a : Nat) (w : Word) : (s.setFrc a w).pulses = s.pulses := rfl
@[simp] theorem setFrc_tallyClr (a : Nat) (w : Word) : (s.setFrc a w).tallyClr = s.tallyClr := rfl
@[simp] theorem setFrc_tallyIn (a : Nat) (w : Word) : (s.setFrc a w).tallyIn = s.tallyIn := rfl
@[simp] theorem setFrc_run (a : Nat) (w : Word) : (s.setFrc a w).run = s.run := rfl
@[simp] theorem setFrc_supply (a : Nat) (w : Word) : (s.setFrc a w).supply = s.supply := rfl
@[simp] theorem setFrc_otp (a : Nat) (w : Word) : (s.setFrc a w).otp = s.otp := rfl
@[simp] theorem setFrc_reads (a : Nat) (w : Word) : (s.setFrc a w).reads = s.reads := rfl
@[simp] theorem setFrc_resps (a : Nat) (w : Word) : (s.setFrc a w).resps = s.resps := rfl
@[simp] theorem setFrc_busW1c (a : Nat) (w : Word) : (s.setFrc a w).busW1c = s.busW1c := rfl
@[simp] theorem setFrc_busClr (a : Nat) (w : Word) : (s.setFrc a w).busClr = s.busClr := rfl
@[simp] theorem setFrc_clockRegs (a : Nat) (w : Word) : (s.setFrc a w).clockRegs = s.clockRegs := rfl
@[simp] theorem setFrc_dropped (a : Nat) (w : Word) : (s.setFrc a w).dropped = s.dropped := rfl
@[simp] theorem setFrc_free (a : Nat) (w : Word) : (s.setFrc a w).free = s.free := rfl
@[simp] theorem setFrc_reg (a : Nat) (w : Word) (b : Nat) : (s.setFrc a w).reg b = s.reg b := rfl
@[simp] theorem setFrc_ch (a : Nat) (w : Word) (h : Nat) : (s.setFrc a w).ch h = s.ch h := rfl
@[simp] theorem setFrc_die (a : Nat) (w : Word) (e : Nat) : (s.setFrc a w).die e = s.die e := rfl

/-! modCh -/

@[simp] theorem modCh_nDies (g : Nat) (f : Chan → Chan) : (s.modCh g f).nDies = s.nDies := rfl
@[simp] theorem modCh_straps (g : Nat) (f : Chan → Chan) : (s.modCh g f).straps = s.straps := rfl
@[simp] theorem modCh_frame (g : Nat) (f : Chan → Chan) : (s.modCh g f).frame = s.frame := rfl
@[simp] theorem modCh_clk (g : Nat) (f : Chan → Chan) : (s.modCh g f).clk = s.clk := rfl
@[simp] theorem modCh_regs (g : Nat) (f : Chan → Chan) : (s.modCh g f).regs = s.regs := rfl
@[simp] theorem modCh_shadow (g : Nat) (f : Chan → Chan) : (s.modCh g f).shadow = s.shadow := rfl
@[simp] theorem modCh_stage (g : Nat) (f : Chan → Chan) : (s.modCh g f).stage = s.stage := rfl
@[simp] theorem modCh_force (g : Nat) (f : Chan → Chan) : (s.modCh g f).force = s.force := rfl
@[simp] theorem modCh_chans (g : Nat) (f : Chan → Chan) : (s.modCh g f).chans = s.chans.modify g f := rfl
@[simp] theorem modCh_dies (g : Nat) (f : Chan → Chan) : (s.modCh g f).dies = s.dies := rfl
@[simp] theorem modCh_line (g : Nat) (f : Chan → Chan) : (s.modCh g f).line = s.line := rfl
@[simp] theorem modCh_bcast (g : Nat) (f : Chan → Chan) : (s.modCh g f).bcast = s.bcast := rfl
@[simp] theorem modCh_snap (g : Nat) (f : Chan → Chan) : (s.modCh g f).snap = s.snap := rfl
@[simp] theorem modCh_host (g : Nat) (f : Chan → Chan) : (s.modCh g f).host = s.host := rfl
@[simp] theorem modCh_pins (g : Nat) (f : Chan → Chan) : (s.modCh g f).pins = s.pins := rfl
@[simp] theorem modCh_irqAt (g : Nat) (f : Chan → Chan) : (s.modCh g f).irqAt = s.irqAt := rfl
@[simp] theorem modCh_ledger (g : Nat) (f : Chan → Chan) : (s.modCh g f).ledger = s.ledger := rfl
@[simp] theorem modCh_vreqs (g : Nat) (f : Chan → Chan) : (s.modCh g f).vreqs = s.vreqs := rfl
@[simp] theorem modCh_vorder (g : Nat) (f : Chan → Chan) : (s.modCh g f).vorder = s.vorder := rfl
@[simp] theorem modCh_grants (g : Nat) (f : Chan → Chan) : (s.modCh g f).grants = s.grants := rfl
@[simp] theorem modCh_bankAt (g : Nat) (f : Chan → Chan) : (s.modCh g f).bankAt = s.bankAt := rfl
@[simp] theorem modCh_nvm (g : Nat) (f : Chan → Chan) : (s.modCh g f).nvm = s.nvm := rfl
@[simp] theorem modCh_pulses (g : Nat) (f : Chan → Chan) : (s.modCh g f).pulses = s.pulses := rfl
@[simp] theorem modCh_tallyClr (g : Nat) (f : Chan → Chan) : (s.modCh g f).tallyClr = s.tallyClr := rfl
@[simp] theorem modCh_tallyIn (g : Nat) (f : Chan → Chan) : (s.modCh g f).tallyIn = s.tallyIn := rfl
@[simp] theorem modCh_run (g : Nat) (f : Chan → Chan) : (s.modCh g f).run = s.run := rfl
@[simp] theorem modCh_supply (g : Nat) (f : Chan → Chan) : (s.modCh g f).supply = s.supply := rfl
@[simp] theorem modCh_otp (g : Nat) (f : Chan → Chan) : (s.modCh g f).otp = s.otp := rfl
@[simp] theorem modCh_reads (g : Nat) (f : Chan → Chan) : (s.modCh g f).reads = s.reads := rfl
@[simp] theorem modCh_resps (g : Nat) (f : Chan → Chan) : (s.modCh g f).resps = s.resps := rfl
@[simp] theorem modCh_busW1c (g : Nat) (f : Chan → Chan) : (s.modCh g f).busW1c = s.busW1c := rfl
@[simp] theorem modCh_busClr (g : Nat) (f : Chan → Chan) : (s.modCh g f).busClr = s.busClr := rfl
@[simp] theorem modCh_clockRegs (g : Nat) (f : Chan → Chan) : (s.modCh g f).clockRegs = s.clockRegs := rfl
@[simp] theorem modCh_dropped (g : Nat) (f : Chan → Chan) : (s.modCh g f).dropped = s.dropped := rfl
@[simp] theorem modCh_free (g : Nat) (f : Chan → Chan) : (s.modCh g f).free = s.free := rfl
@[simp] theorem modCh_reg (g : Nat) (f : Chan → Chan) (b : Nat) : (s.modCh g f).reg b = s.reg b := rfl
@[simp] theorem modCh_frc (g : Nat) (f : Chan → Chan) (b : Nat) : (s.modCh g f).frc b = s.frc b := rfl
@[simp] theorem modCh_die (g : Nat) (f : Chan → Chan) (e : Nat) : (s.modCh g f).die e = s.die e := rfl

/-! modDie -/

@[simp] theorem modDie_nDies (d : Nat) (f : DieSt → DieSt) : (s.modDie d f).nDies = s.nDies := rfl
@[simp] theorem modDie_straps (d : Nat) (f : DieSt → DieSt) : (s.modDie d f).straps = s.straps := rfl
@[simp] theorem modDie_frame (d : Nat) (f : DieSt → DieSt) : (s.modDie d f).frame = s.frame := rfl
@[simp] theorem modDie_clk (d : Nat) (f : DieSt → DieSt) : (s.modDie d f).clk = s.clk := rfl
@[simp] theorem modDie_regs (d : Nat) (f : DieSt → DieSt) : (s.modDie d f).regs = s.regs := rfl
@[simp] theorem modDie_shadow (d : Nat) (f : DieSt → DieSt) : (s.modDie d f).shadow = s.shadow := rfl
@[simp] theorem modDie_stage (d : Nat) (f : DieSt → DieSt) : (s.modDie d f).stage = s.stage := rfl
@[simp] theorem modDie_force (d : Nat) (f : DieSt → DieSt) : (s.modDie d f).force = s.force := rfl
@[simp] theorem modDie_chans (d : Nat) (f : DieSt → DieSt) : (s.modDie d f).chans = s.chans := rfl
@[simp] theorem modDie_dies (d : Nat) (f : DieSt → DieSt) : (s.modDie d f).dies = s.dies.modify d f := rfl
@[simp] theorem modDie_line (d : Nat) (f : DieSt → DieSt) : (s.modDie d f).line = s.line := rfl
@[simp] theorem modDie_bcast (d : Nat) (f : DieSt → DieSt) : (s.modDie d f).bcast = s.bcast := rfl
@[simp] theorem modDie_snap (d : Nat) (f : DieSt → DieSt) : (s.modDie d f).snap = s.snap := rfl
@[simp] theorem modDie_host (d : Nat) (f : DieSt → DieSt) : (s.modDie d f).host = s.host := rfl
@[simp] theorem modDie_pins (d : Nat) (f : DieSt → DieSt) : (s.modDie d f).pins = s.pins := rfl
@[simp] theorem modDie_irqAt (d : Nat) (f : DieSt → DieSt) : (s.modDie d f).irqAt = s.irqAt := rfl
@[simp] theorem modDie_ledger (d : Nat) (f : DieSt → DieSt) : (s.modDie d f).ledger = s.ledger := rfl
@[simp] theorem modDie_vreqs (d : Nat) (f : DieSt → DieSt) : (s.modDie d f).vreqs = s.vreqs := rfl
@[simp] theorem modDie_vorder (d : Nat) (f : DieSt → DieSt) : (s.modDie d f).vorder = s.vorder := rfl
@[simp] theorem modDie_grants (d : Nat) (f : DieSt → DieSt) : (s.modDie d f).grants = s.grants := rfl
@[simp] theorem modDie_bankAt (d : Nat) (f : DieSt → DieSt) : (s.modDie d f).bankAt = s.bankAt := rfl
@[simp] theorem modDie_nvm (d : Nat) (f : DieSt → DieSt) : (s.modDie d f).nvm = s.nvm := rfl
@[simp] theorem modDie_pulses (d : Nat) (f : DieSt → DieSt) : (s.modDie d f).pulses = s.pulses := rfl
@[simp] theorem modDie_tallyClr (d : Nat) (f : DieSt → DieSt) : (s.modDie d f).tallyClr = s.tallyClr := rfl
@[simp] theorem modDie_tallyIn (d : Nat) (f : DieSt → DieSt) : (s.modDie d f).tallyIn = s.tallyIn := rfl
@[simp] theorem modDie_run (d : Nat) (f : DieSt → DieSt) : (s.modDie d f).run = s.run := rfl
@[simp] theorem modDie_supply (d : Nat) (f : DieSt → DieSt) : (s.modDie d f).supply = s.supply := rfl
@[simp] theorem modDie_otp (d : Nat) (f : DieSt → DieSt) : (s.modDie d f).otp = s.otp := rfl
@[simp] theorem modDie_reads (d : Nat) (f : DieSt → DieSt) : (s.modDie d f).reads = s.reads := rfl
@[simp] theorem modDie_resps (d : Nat) (f : DieSt → DieSt) : (s.modDie d f).resps = s.resps := rfl
@[simp] theorem modDie_busW1c (d : Nat) (f : DieSt → DieSt) : (s.modDie d f).busW1c = s.busW1c := rfl
@[simp] theorem modDie_busClr (d : Nat) (f : DieSt → DieSt) : (s.modDie d f).busClr = s.busClr := rfl
@[simp] theorem modDie_clockRegs (d : Nat) (f : DieSt → DieSt) : (s.modDie d f).clockRegs = s.clockRegs := rfl
@[simp] theorem modDie_dropped (d : Nat) (f : DieSt → DieSt) : (s.modDie d f).dropped = s.dropped := rfl
@[simp] theorem modDie_free (d : Nat) (f : DieSt → DieSt) : (s.modDie d f).free = s.free := rfl
@[simp] theorem modDie_reg (d : Nat) (f : DieSt → DieSt) (b : Nat) : (s.modDie d f).reg b = s.reg b := rfl
@[simp] theorem modDie_frc (d : Nat) (f : DieSt → DieSt) (b : Nat) : (s.modDie d f).frc b = s.frc b := rfl
@[simp] theorem modDie_ch (d : Nat) (f : DieSt → DieSt) (h : Nat) : (s.modDie d f).ch h = s.ch h := rfl

/-! modSup -/

@[simp] theorem modSup_nDies (f : Supply → Supply) : (s.modSup f).nDies = s.nDies := rfl
@[simp] theorem modSup_straps (f : Supply → Supply) : (s.modSup f).straps = s.straps := rfl
@[simp] theorem modSup_frame (f : Supply → Supply) : (s.modSup f).frame = s.frame := rfl
@[simp] theorem modSup_clk (f : Supply → Supply) : (s.modSup f).clk = s.clk := rfl
@[simp] theorem modSup_regs (f : Supply → Supply) : (s.modSup f).regs = s.regs := rfl
@[simp] theorem modSup_shadow (f : Supply → Supply) : (s.modSup f).shadow = s.shadow := rfl
@[simp] theorem modSup_stage (f : Supply → Supply) : (s.modSup f).stage = s.stage := rfl
@[simp] theorem modSup_force (f : Supply → Supply) : (s.modSup f).force = s.force := rfl
@[simp] theorem modSup_chans (f : Supply → Supply) : (s.modSup f).chans = s.chans := rfl
@[simp] theorem modSup_dies (f : Supply → Supply) : (s.modSup f).dies = s.dies := rfl
@[simp] theorem modSup_line (f : Supply → Supply) : (s.modSup f).line = s.line := rfl
@[simp] theorem modSup_bcast (f : Supply → Supply) : (s.modSup f).bcast = s.bcast := rfl
@[simp] theorem modSup_snap (f : Supply → Supply) : (s.modSup f).snap = s.snap := rfl
@[simp] theorem modSup_host (f : Supply → Supply) : (s.modSup f).host = s.host := rfl
@[simp] theorem modSup_pins (f : Supply → Supply) : (s.modSup f).pins = s.pins := rfl
@[simp] theorem modSup_irqAt (f : Supply → Supply) : (s.modSup f).irqAt = s.irqAt := rfl
@[simp] theorem modSup_ledger (f : Supply → Supply) : (s.modSup f).ledger = s.ledger := rfl
@[simp] theorem modSup_vreqs (f : Supply → Supply) : (s.modSup f).vreqs = s.vreqs := rfl
@[simp] theorem modSup_vorder (f : Supply → Supply) : (s.modSup f).vorder = s.vorder := rfl
@[simp] theorem modSup_grants (f : Supply → Supply) : (s.modSup f).grants = s.grants := rfl
@[simp] theorem modSup_bankAt (f : Supply → Supply) : (s.modSup f).bankAt = s.bankAt := rfl
@[simp] theorem modSup_nvm (f : Supply → Supply) : (s.modSup f).nvm = s.nvm := rfl
@[simp] theorem modSup_pulses (f : Supply → Supply) : (s.modSup f).pulses = s.pulses := rfl
@[simp] theorem modSup_tallyClr (f : Supply → Supply) : (s.modSup f).tallyClr = s.tallyClr := rfl
@[simp] theorem modSup_tallyIn (f : Supply → Supply) : (s.modSup f).tallyIn = s.tallyIn := rfl
@[simp] theorem modSup_run (f : Supply → Supply) : (s.modSup f).run = s.run := rfl
@[simp] theorem modSup_supply (f : Supply → Supply) : (s.modSup f).supply = f s.supply := rfl
@[simp] theorem modSup_otp (f : Supply → Supply) : (s.modSup f).otp = s.otp := rfl
@[simp] theorem modSup_reads (f : Supply → Supply) : (s.modSup f).reads = s.reads := rfl
@[simp] theorem modSup_resps (f : Supply → Supply) : (s.modSup f).resps = s.resps := rfl
@[simp] theorem modSup_busW1c (f : Supply → Supply) : (s.modSup f).busW1c = s.busW1c := rfl
@[simp] theorem modSup_busClr (f : Supply → Supply) : (s.modSup f).busClr = s.busClr := rfl
@[simp] theorem modSup_clockRegs (f : Supply → Supply) : (s.modSup f).clockRegs = s.clockRegs := rfl
@[simp] theorem modSup_dropped (f : Supply → Supply) : (s.modSup f).dropped = s.dropped := rfl
@[simp] theorem modSup_free (f : Supply → Supply) : (s.modSup f).free = s.free := rfl
@[simp] theorem modSup_reg (f : Supply → Supply) (b : Nat) : (s.modSup f).reg b = s.reg b := rfl
@[simp] theorem modSup_frc (f : Supply → Supply) (b : Nat) : (s.modSup f).frc b = s.frc b := rfl
@[simp] theorem modSup_ch (f : Supply → Supply) (h : Nat) : (s.modSup f).ch h = s.ch h := rfl
@[simp] theorem modSup_die (f : Supply → Supply) (e : Nat) : (s.modSup f).die e = s.die e := rfl

/-! modNvm -/

@[simp] theorem modNvm_nDies (f : Nvm → Nvm) : (s.modNvm f).nDies = s.nDies := rfl
@[simp] theorem modNvm_straps (f : Nvm → Nvm) : (s.modNvm f).straps = s.straps := rfl
@[simp] theorem modNvm_frame (f : Nvm → Nvm) : (s.modNvm f).frame = s.frame := rfl
@[simp] theorem modNvm_clk (f : Nvm → Nvm) : (s.modNvm f).clk = s.clk := rfl
@[simp] theorem modNvm_regs (f : Nvm → Nvm) : (s.modNvm f).regs = s.regs := rfl
@[simp] theorem modNvm_shadow (f : Nvm → Nvm) : (s.modNvm f).shadow = s.shadow := rfl
@[simp] theorem modNvm_stage (f : Nvm → Nvm) : (s.modNvm f).stage = s.stage := rfl
@[simp] theorem modNvm_force (f : Nvm → Nvm) : (s.modNvm f).force = s.force := rfl
@[simp] theorem modNvm_chans (f : Nvm → Nvm) : (s.modNvm f).chans = s.chans := rfl
@[simp] theorem modNvm_dies (f : Nvm → Nvm) : (s.modNvm f).dies = s.dies := rfl
@[simp] theorem modNvm_line (f : Nvm → Nvm) : (s.modNvm f).line = s.line := rfl
@[simp] theorem modNvm_bcast (f : Nvm → Nvm) : (s.modNvm f).bcast = s.bcast := rfl
@[simp] theorem modNvm_snap (f : Nvm → Nvm) : (s.modNvm f).snap = s.snap := rfl
@[simp] theorem modNvm_host (f : Nvm → Nvm) : (s.modNvm f).host = s.host := rfl
@[simp] theorem modNvm_pins (f : Nvm → Nvm) : (s.modNvm f).pins = s.pins := rfl
@[simp] theorem modNvm_irqAt (f : Nvm → Nvm) : (s.modNvm f).irqAt = s.irqAt := rfl
@[simp] theorem modNvm_ledger (f : Nvm → Nvm) : (s.modNvm f).ledger = s.ledger := rfl
@[simp] theorem modNvm_vreqs (f : Nvm → Nvm) : (s.modNvm f).vreqs = s.vreqs := rfl
@[simp] theorem modNvm_vorder (f : Nvm → Nvm) : (s.modNvm f).vorder = s.vorder := rfl
@[simp] theorem modNvm_grants (f : Nvm → Nvm) : (s.modNvm f).grants = s.grants := rfl
@[simp] theorem modNvm_bankAt (f : Nvm → Nvm) : (s.modNvm f).bankAt = s.bankAt := rfl
@[simp] theorem modNvm_nvm (f : Nvm → Nvm) : (s.modNvm f).nvm = f s.nvm := rfl
@[simp] theorem modNvm_pulses (f : Nvm → Nvm) : (s.modNvm f).pulses = s.pulses := rfl
@[simp] theorem modNvm_tallyClr (f : Nvm → Nvm) : (s.modNvm f).tallyClr = s.tallyClr := rfl
@[simp] theorem modNvm_tallyIn (f : Nvm → Nvm) : (s.modNvm f).tallyIn = s.tallyIn := rfl
@[simp] theorem modNvm_run (f : Nvm → Nvm) : (s.modNvm f).run = s.run := rfl
@[simp] theorem modNvm_supply (f : Nvm → Nvm) : (s.modNvm f).supply = s.supply := rfl
@[simp] theorem modNvm_otp (f : Nvm → Nvm) : (s.modNvm f).otp = s.otp := rfl
@[simp] theorem modNvm_reads (f : Nvm → Nvm) : (s.modNvm f).reads = s.reads := rfl
@[simp] theorem modNvm_resps (f : Nvm → Nvm) : (s.modNvm f).resps = s.resps := rfl
@[simp] theorem modNvm_busW1c (f : Nvm → Nvm) : (s.modNvm f).busW1c = s.busW1c := rfl
@[simp] theorem modNvm_busClr (f : Nvm → Nvm) : (s.modNvm f).busClr = s.busClr := rfl
@[simp] theorem modNvm_clockRegs (f : Nvm → Nvm) : (s.modNvm f).clockRegs = s.clockRegs := rfl
@[simp] theorem modNvm_dropped (f : Nvm → Nvm) : (s.modNvm f).dropped = s.dropped := rfl
@[simp] theorem modNvm_free (f : Nvm → Nvm) : (s.modNvm f).free = s.free := rfl
@[simp] theorem modNvm_reg (f : Nvm → Nvm) (b : Nat) : (s.modNvm f).reg b = s.reg b := rfl
@[simp] theorem modNvm_frc (f : Nvm → Nvm) (b : Nat) : (s.modNvm f).frc b = s.frc b := rfl
@[simp] theorem modNvm_ch (f : Nvm → Nvm) (h : Nat) : (s.modNvm f).ch h = s.ch h := rfl
@[simp] theorem modNvm_die (f : Nvm → Nvm) (e : Nat) : (s.modNvm f).die e = s.die e := rfl

/-! modHost -/

@[simp] theorem modHost_nDies (f : HostPort → HostPort) : (s.modHost f).nDies = s.nDies := rfl
@[simp] theorem modHost_straps (f : HostPort → HostPort) : (s.modHost f).straps = s.straps := rfl
@[simp] theorem modHost_frame (f : HostPort → HostPort) : (s.modHost f).frame = s.frame := rfl
@[simp] theorem modHost_clk (f : HostPort → HostPort) : (s.modHost f).clk = s.clk := rfl
@[simp] theorem modHost_regs (f : HostPort → HostPort) : (s.modHost f).regs = s.regs := rfl
@[simp] theorem modHost_shadow (f : HostPort → HostPort) : (s.modHost f).shadow = s.shadow := rfl
@[simp] theorem modHost_stage (f : HostPort → HostPort) : (s.modHost f).stage = s.stage := rfl
@[simp] theorem modHost_force (f : HostPort → HostPort) : (s.modHost f).force = s.force := rfl
@[simp] theorem modHost_chans (f : HostPort → HostPort) : (s.modHost f).chans = s.chans := rfl
@[simp] theorem modHost_dies (f : HostPort → HostPort) : (s.modHost f).dies = s.dies := rfl
@[simp] theorem modHost_line (f : HostPort → HostPort) : (s.modHost f).line = s.line := rfl
@[simp] theorem modHost_bcast (f : HostPort → HostPort) : (s.modHost f).bcast = s.bcast := rfl
@[simp] theorem modHost_snap (f : HostPort → HostPort) : (s.modHost f).snap = s.snap := rfl
@[simp] theorem modHost_host (f : HostPort → HostPort) : (s.modHost f).host = f s.host := rfl
@[simp] theorem modHost_pins (f : HostPort → HostPort) : (s.modHost f).pins = s.pins := rfl
@[simp] theorem modHost_irqAt (f : HostPort → HostPort) : (s.modHost f).irqAt = s.irqAt := rfl
@[simp] theorem modHost_ledger (f : HostPort → HostPort) : (s.modHost f).ledger = s.ledger := rfl
@[simp] theorem modHost_vreqs (f : HostPort → HostPort) : (s.modHost f).vreqs = s.vreqs := rfl
@[simp] theorem modHost_vorder (f : HostPort → HostPort) : (s.modHost f).vorder = s.vorder := rfl
@[simp] theorem modHost_grants (f : HostPort → HostPort) : (s.modHost f).grants = s.grants := rfl
@[simp] theorem modHost_bankAt (f : HostPort → HostPort) : (s.modHost f).bankAt = s.bankAt := rfl
@[simp] theorem modHost_nvm (f : HostPort → HostPort) : (s.modHost f).nvm = s.nvm := rfl
@[simp] theorem modHost_pulses (f : HostPort → HostPort) : (s.modHost f).pulses = s.pulses := rfl
@[simp] theorem modHost_tallyClr (f : HostPort → HostPort) : (s.modHost f).tallyClr = s.tallyClr := rfl
@[simp] theorem modHost_tallyIn (f : HostPort → HostPort) : (s.modHost f).tallyIn = s.tallyIn := rfl
@[simp] theorem modHost_run (f : HostPort → HostPort) : (s.modHost f).run = s.run := rfl
@[simp] theorem modHost_supply (f : HostPort → HostPort) : (s.modHost f).supply = s.supply := rfl
@[simp] theorem modHost_otp (f : HostPort → HostPort) : (s.modHost f).otp = s.otp := rfl
@[simp] theorem modHost_reads (f : HostPort → HostPort) : (s.modHost f).reads = s.reads := rfl
@[simp] theorem modHost_resps (f : HostPort → HostPort) : (s.modHost f).resps = s.resps := rfl
@[simp] theorem modHost_busW1c (f : HostPort → HostPort) : (s.modHost f).busW1c = s.busW1c := rfl
@[simp] theorem modHost_busClr (f : HostPort → HostPort) : (s.modHost f).busClr = s.busClr := rfl
@[simp] theorem modHost_clockRegs (f : HostPort → HostPort) : (s.modHost f).clockRegs = s.clockRegs := rfl
@[simp] theorem modHost_dropped (f : HostPort → HostPort) : (s.modHost f).dropped = s.dropped := rfl
@[simp] theorem modHost_free (f : HostPort → HostPort) : (s.modHost f).free = s.free := rfl
@[simp] theorem modHost_reg (f : HostPort → HostPort) (b : Nat) : (s.modHost f).reg b = s.reg b := rfl
@[simp] theorem modHost_frc (f : HostPort → HostPort) (b : Nat) : (s.modHost f).frc b = s.frc b := rfl
@[simp] theorem modHost_ch (f : HostPort → HostPort) (h : Nat) : (s.modHost f).ch h = s.ch h := rfl
@[simp] theorem modHost_die (f : HostPort → HostPort) (e : Nat) : (s.modHost f).die e = s.die e := rfl

/-! modSnap -/

@[simp] theorem modSnap_nDies (f : Snap → Snap) : (s.modSnap f).nDies = s.nDies := rfl
@[simp] theorem modSnap_straps (f : Snap → Snap) : (s.modSnap f).straps = s.straps := rfl
@[simp] theorem modSnap_frame (f : Snap → Snap) : (s.modSnap f).frame = s.frame := rfl
@[simp] theorem modSnap_clk (f : Snap → Snap) : (s.modSnap f).clk = s.clk := rfl
@[simp] theorem modSnap_regs (f : Snap → Snap) : (s.modSnap f).regs = s.regs := rfl
@[simp] theorem modSnap_shadow (f : Snap → Snap) : (s.modSnap f).shadow = s.shadow := rfl
@[simp] theorem modSnap_stage (f : Snap → Snap) : (s.modSnap f).stage = s.stage := rfl
@[simp] theorem modSnap_force (f : Snap → Snap) : (s.modSnap f).force = s.force := rfl
@[simp] theorem modSnap_chans (f : Snap → Snap) : (s.modSnap f).chans = s.chans := rfl
@[simp] theorem modSnap_dies (f : Snap → Snap) : (s.modSnap f).dies = s.dies := rfl
@[simp] theorem modSnap_line (f : Snap → Snap) : (s.modSnap f).line = s.line := rfl
@[simp] theorem modSnap_bcast (f : Snap → Snap) : (s.modSnap f).bcast = s.bcast := rfl
@[simp] theorem modSnap_snap (f : Snap → Snap) : (s.modSnap f).snap = f s.snap := rfl
@[simp] theorem modSnap_host (f : Snap → Snap) : (s.modSnap f).host = s.host := rfl
@[simp] theorem modSnap_pins (f : Snap → Snap) : (s.modSnap f).pins = s.pins := rfl
@[simp] theorem modSnap_irqAt (f : Snap → Snap) : (s.modSnap f).irqAt = s.irqAt := rfl
@[simp] theorem modSnap_ledger (f : Snap → Snap) : (s.modSnap f).ledger = s.ledger := rfl
@[simp] theorem modSnap_vreqs (f : Snap → Snap) : (s.modSnap f).vreqs = s.vreqs := rfl
@[simp] theorem modSnap_vorder (f : Snap → Snap) : (s.modSnap f).vorder = s.vorder := rfl
@[simp] theorem modSnap_grants (f : Snap → Snap) : (s.modSnap f).grants = s.grants := rfl
@[simp] theorem modSnap_bankAt (f : Snap → Snap) : (s.modSnap f).bankAt = s.bankAt := rfl
@[simp] theorem modSnap_nvm (f : Snap → Snap) : (s.modSnap f).nvm = s.nvm := rfl
@[simp] theorem modSnap_pulses (f : Snap → Snap) : (s.modSnap f).pulses = s.pulses := rfl
@[simp] theorem modSnap_tallyClr (f : Snap → Snap) : (s.modSnap f).tallyClr = s.tallyClr := rfl
@[simp] theorem modSnap_tallyIn (f : Snap → Snap) : (s.modSnap f).tallyIn = s.tallyIn := rfl
@[simp] theorem modSnap_run (f : Snap → Snap) : (s.modSnap f).run = s.run := rfl
@[simp] theorem modSnap_supply (f : Snap → Snap) : (s.modSnap f).supply = s.supply := rfl
@[simp] theorem modSnap_otp (f : Snap → Snap) : (s.modSnap f).otp = s.otp := rfl
@[simp] theorem modSnap_reads (f : Snap → Snap) : (s.modSnap f).reads = s.reads := rfl
@[simp] theorem modSnap_resps (f : Snap → Snap) : (s.modSnap f).resps = s.resps := rfl
@[simp] theorem modSnap_busW1c (f : Snap → Snap) : (s.modSnap f).busW1c = s.busW1c := rfl
@[simp] theorem modSnap_busClr (f : Snap → Snap) : (s.modSnap f).busClr = s.busClr := rfl
@[simp] theorem modSnap_clockRegs (f : Snap → Snap) : (s.modSnap f).clockRegs = s.clockRegs := rfl
@[simp] theorem modSnap_dropped (f : Snap → Snap) : (s.modSnap f).dropped = s.dropped := rfl
@[simp] theorem modSnap_free (f : Snap → Snap) : (s.modSnap f).free = s.free := rfl
@[simp] theorem modSnap_reg (f : Snap → Snap) (b : Nat) : (s.modSnap f).reg b = s.reg b := rfl
@[simp] theorem modSnap_frc (f : Snap → Snap) (b : Nat) : (s.modSnap f).frc b = s.frc b := rfl
@[simp] theorem modSnap_ch (f : Snap → Snap) (h : Nat) : (s.modSnap f).ch h = s.ch h := rfl
@[simp] theorem modSnap_die (f : Snap → Snap) (e : Nat) : (s.modSnap f).die e = s.die e := rfl

/-! setBcast -/

@[simp] theorem setBcast_nDies (l : List Bcast) : (s.setBcast l).nDies = s.nDies := rfl
@[simp] theorem setBcast_straps (l : List Bcast) : (s.setBcast l).straps = s.straps := rfl
@[simp] theorem setBcast_frame (l : List Bcast) : (s.setBcast l).frame = s.frame := rfl
@[simp] theorem setBcast_clk (l : List Bcast) : (s.setBcast l).clk = s.clk := rfl
@[simp] theorem setBcast_regs (l : List Bcast) : (s.setBcast l).regs = s.regs := rfl
@[simp] theorem setBcast_shadow (l : List Bcast) : (s.setBcast l).shadow = s.shadow := rfl
@[simp] theorem setBcast_stage (l : List Bcast) : (s.setBcast l).stage = s.stage := rfl
@[simp] theorem setBcast_force (l : List Bcast) : (s.setBcast l).force = s.force := rfl
@[simp] theorem setBcast_chans (l : List Bcast) : (s.setBcast l).chans = s.chans := rfl
@[simp] theorem setBcast_dies (l : List Bcast) : (s.setBcast l).dies = s.dies := rfl
@[simp] theorem setBcast_line (l : List Bcast) : (s.setBcast l).line = s.line := rfl
@[simp] theorem setBcast_bcast (l : List Bcast) : (s.setBcast l).bcast = l := rfl
@[simp] theorem setBcast_snap (l : List Bcast) : (s.setBcast l).snap = s.snap := rfl
@[simp] theorem setBcast_host (l : List Bcast) : (s.setBcast l).host = s.host := rfl
@[simp] theorem setBcast_pins (l : List Bcast) : (s.setBcast l).pins = s.pins := rfl
@[simp] theorem setBcast_irqAt (l : List Bcast) : (s.setBcast l).irqAt = s.irqAt := rfl
@[simp] theorem setBcast_ledger (l : List Bcast) : (s.setBcast l).ledger = s.ledger := rfl
@[simp] theorem setBcast_vreqs (l : List Bcast) : (s.setBcast l).vreqs = s.vreqs := rfl
@[simp] theorem setBcast_vorder (l : List Bcast) : (s.setBcast l).vorder = s.vorder := rfl
@[simp] theorem setBcast_grants (l : List Bcast) : (s.setBcast l).grants = s.grants := rfl
@[simp] theorem setBcast_bankAt (l : List Bcast) : (s.setBcast l).bankAt = s.bankAt := rfl
@[simp] theorem setBcast_nvm (l : List Bcast) : (s.setBcast l).nvm = s.nvm := rfl
@[simp] theorem setBcast_pulses (l : List Bcast) : (s.setBcast l).pulses = s.pulses := rfl
@[simp] theorem setBcast_tallyClr (l : List Bcast) : (s.setBcast l).tallyClr = s.tallyClr := rfl
@[simp] theorem setBcast_tallyIn (l : List Bcast) : (s.setBcast l).tallyIn = s.tallyIn := rfl
@[simp] theorem setBcast_run (l : List Bcast) : (s.setBcast l).run = s.run := rfl
@[simp] theorem setBcast_supply (l : List Bcast) : (s.setBcast l).supply = s.supply := rfl
@[simp] theorem setBcast_otp (l : List Bcast) : (s.setBcast l).otp = s.otp := rfl
@[simp] theorem setBcast_reads (l : List Bcast) : (s.setBcast l).reads = s.reads := rfl
@[simp] theorem setBcast_resps (l : List Bcast) : (s.setBcast l).resps = s.resps := rfl
@[simp] theorem setBcast_busW1c (l : List Bcast) : (s.setBcast l).busW1c = s.busW1c := rfl
@[simp] theorem setBcast_busClr (l : List Bcast) : (s.setBcast l).busClr = s.busClr := rfl
@[simp] theorem setBcast_clockRegs (l : List Bcast) : (s.setBcast l).clockRegs = s.clockRegs := rfl
@[simp] theorem setBcast_dropped (l : List Bcast) : (s.setBcast l).dropped = s.dropped := rfl
@[simp] theorem setBcast_free (l : List Bcast) : (s.setBcast l).free = s.free := rfl
@[simp] theorem setBcast_reg (l : List Bcast) (b : Nat) : (s.setBcast l).reg b = s.reg b := rfl
@[simp] theorem setBcast_frc (l : List Bcast) (b : Nat) : (s.setBcast l).frc b = s.frc b := rfl
@[simp] theorem setBcast_ch (l : List Bcast) (h : Nat) : (s.setBcast l).ch h = s.ch h := rfl
@[simp] theorem setBcast_die (l : List Bcast) (e : Nat) : (s.setBcast l).die e = s.die e := rfl

/-! setGrants -/

@[simp] theorem setGrants_nDies (l : List (Nat × Nat)) : (s.setGrants l).nDies = s.nDies := rfl
@[simp] theorem setGrants_straps (l : List (Nat × Nat)) : (s.setGrants l).straps = s.straps := rfl
@[simp] theorem setGrants_frame (l : List (Nat × Nat)) : (s.setGrants l).frame = s.frame := rfl
@[simp] theorem setGrants_clk (l : List (Nat × Nat)) : (s.setGrants l).clk = s.clk := rfl
@[simp] theorem setGrants_regs (l : List (Nat × Nat)) : (s.setGrants l).regs = s.regs := rfl
@[simp] theorem setGrants_shadow (l : List (Nat × Nat)) : (s.setGrants l).shadow = s.shadow := rfl
@[simp] theorem setGrants_stage (l : List (Nat × Nat)) : (s.setGrants l).stage = s.stage := rfl
@[simp] theorem setGrants_force (l : List (Nat × Nat)) : (s.setGrants l).force = s.force := rfl
@[simp] theorem setGrants_chans (l : List (Nat × Nat)) : (s.setGrants l).chans = s.chans := rfl
@[simp] theorem setGrants_dies (l : List (Nat × Nat)) : (s.setGrants l).dies = s.dies := rfl
@[simp] theorem setGrants_line (l : List (Nat × Nat)) : (s.setGrants l).line = s.line := rfl
@[simp] theorem setGrants_bcast (l : List (Nat × Nat)) : (s.setGrants l).bcast = s.bcast := rfl
@[simp] theorem setGrants_snap (l : List (Nat × Nat)) : (s.setGrants l).snap = s.snap := rfl
@[simp] theorem setGrants_host (l : List (Nat × Nat)) : (s.setGrants l).host = s.host := rfl
@[simp] theorem setGrants_pins (l : List (Nat × Nat)) : (s.setGrants l).pins = s.pins := rfl
@[simp] theorem setGrants_irqAt (l : List (Nat × Nat)) : (s.setGrants l).irqAt = s.irqAt := rfl
@[simp] theorem setGrants_ledger (l : List (Nat × Nat)) : (s.setGrants l).ledger = s.ledger := rfl
@[simp] theorem setGrants_vreqs (l : List (Nat × Nat)) : (s.setGrants l).vreqs = s.vreqs := rfl
@[simp] theorem setGrants_vorder (l : List (Nat × Nat)) : (s.setGrants l).vorder = s.vorder := rfl
@[simp] theorem setGrants_grants (l : List (Nat × Nat)) : (s.setGrants l).grants = l := rfl
@[simp] theorem setGrants_bankAt (l : List (Nat × Nat)) : (s.setGrants l).bankAt = s.bankAt := rfl
@[simp] theorem setGrants_nvm (l : List (Nat × Nat)) : (s.setGrants l).nvm = s.nvm := rfl
@[simp] theorem setGrants_pulses (l : List (Nat × Nat)) : (s.setGrants l).pulses = s.pulses := rfl
@[simp] theorem setGrants_tallyClr (l : List (Nat × Nat)) : (s.setGrants l).tallyClr = s.tallyClr := rfl
@[simp] theorem setGrants_tallyIn (l : List (Nat × Nat)) : (s.setGrants l).tallyIn = s.tallyIn := rfl
@[simp] theorem setGrants_run (l : List (Nat × Nat)) : (s.setGrants l).run = s.run := rfl
@[simp] theorem setGrants_supply (l : List (Nat × Nat)) : (s.setGrants l).supply = s.supply := rfl
@[simp] theorem setGrants_otp (l : List (Nat × Nat)) : (s.setGrants l).otp = s.otp := rfl
@[simp] theorem setGrants_reads (l : List (Nat × Nat)) : (s.setGrants l).reads = s.reads := rfl
@[simp] theorem setGrants_resps (l : List (Nat × Nat)) : (s.setGrants l).resps = s.resps := rfl
@[simp] theorem setGrants_busW1c (l : List (Nat × Nat)) : (s.setGrants l).busW1c = s.busW1c := rfl
@[simp] theorem setGrants_busClr (l : List (Nat × Nat)) : (s.setGrants l).busClr = s.busClr := rfl
@[simp] theorem setGrants_clockRegs (l : List (Nat × Nat)) : (s.setGrants l).clockRegs = s.clockRegs := rfl
@[simp] theorem setGrants_dropped (l : List (Nat × Nat)) : (s.setGrants l).dropped = s.dropped := rfl
@[simp] theorem setGrants_free (l : List (Nat × Nat)) : (s.setGrants l).free = s.free := rfl
@[simp] theorem setGrants_reg (l : List (Nat × Nat)) (b : Nat) : (s.setGrants l).reg b = s.reg b := rfl
@[simp] theorem setGrants_frc (l : List (Nat × Nat)) (b : Nat) : (s.setGrants l).frc b = s.frc b := rfl
@[simp] theorem setGrants_ch (l : List (Nat × Nat)) (h : Nat) : (s.setGrants l).ch h = s.ch h := rfl
@[simp] theorem setGrants_die (l : List (Nat × Nat)) (e : Nat) : (s.setGrants l).die e = s.die e := rfl

/-! setBanks -/

@[simp] theorem setBanks_nDies (l : List (Option Nat)) : (s.setBanks l).nDies = s.nDies := rfl
@[simp] theorem setBanks_straps (l : List (Option Nat)) : (s.setBanks l).straps = s.straps := rfl
@[simp] theorem setBanks_frame (l : List (Option Nat)) : (s.setBanks l).frame = s.frame := rfl
@[simp] theorem setBanks_clk (l : List (Option Nat)) : (s.setBanks l).clk = s.clk := rfl
@[simp] theorem setBanks_regs (l : List (Option Nat)) : (s.setBanks l).regs = s.regs := rfl
@[simp] theorem setBanks_shadow (l : List (Option Nat)) : (s.setBanks l).shadow = s.shadow := rfl
@[simp] theorem setBanks_stage (l : List (Option Nat)) : (s.setBanks l).stage = s.stage := rfl
@[simp] theorem setBanks_force (l : List (Option Nat)) : (s.setBanks l).force = s.force := rfl
@[simp] theorem setBanks_chans (l : List (Option Nat)) : (s.setBanks l).chans = s.chans := rfl
@[simp] theorem setBanks_dies (l : List (Option Nat)) : (s.setBanks l).dies = s.dies := rfl
@[simp] theorem setBanks_line (l : List (Option Nat)) : (s.setBanks l).line = s.line := rfl
@[simp] theorem setBanks_bcast (l : List (Option Nat)) : (s.setBanks l).bcast = s.bcast := rfl
@[simp] theorem setBanks_snap (l : List (Option Nat)) : (s.setBanks l).snap = s.snap := rfl
@[simp] theorem setBanks_host (l : List (Option Nat)) : (s.setBanks l).host = s.host := rfl
@[simp] theorem setBanks_pins (l : List (Option Nat)) : (s.setBanks l).pins = s.pins := rfl
@[simp] theorem setBanks_irqAt (l : List (Option Nat)) : (s.setBanks l).irqAt = s.irqAt := rfl
@[simp] theorem setBanks_ledger (l : List (Option Nat)) : (s.setBanks l).ledger = s.ledger := rfl
@[simp] theorem setBanks_vreqs (l : List (Option Nat)) : (s.setBanks l).vreqs = s.vreqs := rfl
@[simp] theorem setBanks_vorder (l : List (Option Nat)) : (s.setBanks l).vorder = s.vorder := rfl
@[simp] theorem setBanks_grants (l : List (Option Nat)) : (s.setBanks l).grants = s.grants := rfl
@[simp] theorem setBanks_bankAt (l : List (Option Nat)) : (s.setBanks l).bankAt = l := rfl
@[simp] theorem setBanks_nvm (l : List (Option Nat)) : (s.setBanks l).nvm = s.nvm := rfl
@[simp] theorem setBanks_pulses (l : List (Option Nat)) : (s.setBanks l).pulses = s.pulses := rfl
@[simp] theorem setBanks_tallyClr (l : List (Option Nat)) : (s.setBanks l).tallyClr = s.tallyClr := rfl
@[simp] theorem setBanks_tallyIn (l : List (Option Nat)) : (s.setBanks l).tallyIn = s.tallyIn := rfl
@[simp] theorem setBanks_run (l : List (Option Nat)) : (s.setBanks l).run = s.run := rfl
@[simp] theorem setBanks_supply (l : List (Option Nat)) : (s.setBanks l).supply = s.supply := rfl
@[simp] theorem setBanks_otp (l : List (Option Nat)) : (s.setBanks l).otp = s.otp := rfl
@[simp] theorem setBanks_reads (l : List (Option Nat)) : (s.setBanks l).reads = s.reads := rfl
@[simp] theorem setBanks_resps (l : List (Option Nat)) : (s.setBanks l).resps = s.resps := rfl
@[simp] theorem setBanks_busW1c (l : List (Option Nat)) : (s.setBanks l).busW1c = s.busW1c := rfl
@[simp] theorem setBanks_busClr (l : List (Option Nat)) : (s.setBanks l).busClr = s.busClr := rfl
@[simp] theorem setBanks_clockRegs (l : List (Option Nat)) : (s.setBanks l).clockRegs = s.clockRegs := rfl
@[simp] theorem setBanks_dropped (l : List (Option Nat)) : (s.setBanks l).dropped = s.dropped := rfl
@[simp] theorem setBanks_free (l : List (Option Nat)) : (s.setBanks l).free = s.free := rfl
@[simp] theorem setBanks_reg (l : List (Option Nat)) (b : Nat) : (s.setBanks l).reg b = s.reg b := rfl
@[simp] theorem setBanks_frc (l : List (Option Nat)) (b : Nat) : (s.setBanks l).frc b = s.frc b := rfl
@[simp] theorem setBanks_ch (l : List (Option Nat)) (h : Nat) : (s.setBanks l).ch h = s.ch h := rfl
@[simp] theorem setBanks_die (l : List (Option Nat)) (e : Nat) : (s.setBanks l).die e = s.die e := rfl

/-! spend -/

@[simp] theorem spend_nDies (n : Nat) : (s.spend n).nDies = s.nDies := rfl
@[simp] theorem spend_straps (n : Nat) : (s.spend n).straps = s.straps := rfl
@[simp] theorem spend_frame (n : Nat) : (s.spend n).frame = s.frame := rfl
@[simp] theorem spend_clk (n : Nat) : (s.spend n).clk = s.clk := rfl
@[simp] theorem spend_regs (n : Nat) : (s.spend n).regs = s.regs := rfl
@[simp] theorem spend_shadow (n : Nat) : (s.spend n).shadow = s.shadow := rfl
@[simp] theorem spend_stage (n : Nat) : (s.spend n).stage = s.stage := rfl
@[simp] theorem spend_force (n : Nat) : (s.spend n).force = s.force := rfl
@[simp] theorem spend_chans (n : Nat) : (s.spend n).chans = s.chans := rfl
@[simp] theorem spend_dies (n : Nat) : (s.spend n).dies = s.dies := rfl
@[simp] theorem spend_line (n : Nat) : (s.spend n).line = s.line := rfl
@[simp] theorem spend_bcast (n : Nat) : (s.spend n).bcast = s.bcast := rfl
@[simp] theorem spend_snap (n : Nat) : (s.spend n).snap = s.snap := rfl
@[simp] theorem spend_host (n : Nat) : (s.spend n).host = s.host := rfl
@[simp] theorem spend_pins (n : Nat) : (s.spend n).pins = s.pins := rfl
@[simp] theorem spend_irqAt (n : Nat) : (s.spend n).irqAt = s.irqAt := rfl
@[simp] theorem spend_ledger (n : Nat) : (s.spend n).ledger = s.ledger := rfl
@[simp] theorem spend_vreqs (n : Nat) : (s.spend n).vreqs = s.vreqs := rfl
@[simp] theorem spend_vorder (n : Nat) : (s.spend n).vorder = s.vorder := rfl
@[simp] theorem spend_grants (n : Nat) : (s.spend n).grants = s.grants := rfl
@[simp] theorem spend_bankAt (n : Nat) : (s.spend n).bankAt = s.bankAt := rfl
@[simp] theorem spend_nvm (n : Nat) : (s.spend n).nvm = s.nvm := rfl
@[simp] theorem spend_pulses (n : Nat) : (s.spend n).pulses = s.pulses := rfl
@[simp] theorem spend_tallyClr (n : Nat) : (s.spend n).tallyClr = s.tallyClr := rfl
@[simp] theorem spend_tallyIn (n : Nat) : (s.spend n).tallyIn = s.tallyIn := rfl
@[simp] theorem spend_run (n : Nat) : (s.spend n).run = s.run := rfl
@[simp] theorem spend_supply (n : Nat) : (s.spend n).supply = s.supply := rfl
@[simp] theorem spend_otp (n : Nat) : (s.spend n).otp = s.otp := rfl
@[simp] theorem spend_reads (n : Nat) : (s.spend n).reads = s.reads := rfl
@[simp] theorem spend_resps (n : Nat) : (s.spend n).resps = s.resps := rfl
@[simp] theorem spend_busW1c (n : Nat) : (s.spend n).busW1c = s.busW1c := rfl
@[simp] theorem spend_busClr (n : Nat) : (s.spend n).busClr = s.busClr := rfl
@[simp] theorem spend_clockRegs (n : Nat) : (s.spend n).clockRegs = s.clockRegs := rfl
@[simp] theorem spend_dropped (n : Nat) : (s.spend n).dropped = s.dropped := rfl
@[simp] theorem spend_free (n : Nat) : (s.spend n).free = s.free + n := rfl
@[simp] theorem spend_reg (n : Nat) (b : Nat) : (s.spend n).reg b = s.reg b := rfl
@[simp] theorem spend_frc (n : Nat) (b : Nat) : (s.spend n).frc b = s.frc b := rfl
@[simp] theorem spend_ch (n : Nat) (h : Nat) : (s.spend n).ch h = s.ch h := rfl
@[simp] theorem spend_die (n : Nat) (e : Nat) : (s.spend n).die e = s.die e := rfl

/-! nextFree -/

@[simp] theorem nextFree_nDies : (s.nextFree).nDies = s.nDies := rfl
@[simp] theorem nextFree_straps : (s.nextFree).straps = s.straps := rfl
@[simp] theorem nextFree_frame : (s.nextFree).frame = s.frame := rfl
@[simp] theorem nextFree_clk : (s.nextFree).clk = s.clk := rfl
@[simp] theorem nextFree_regs : (s.nextFree).regs = s.regs := rfl
@[simp] theorem nextFree_shadow : (s.nextFree).shadow = s.shadow := rfl
@[simp] theorem nextFree_stage : (s.nextFree).stage = s.stage := rfl
@[simp] theorem nextFree_force : (s.nextFree).force = s.force := rfl
@[simp] theorem nextFree_chans : (s.nextFree).chans = s.chans := rfl
@[simp] theorem nextFree_dies : (s.nextFree).dies = s.dies := rfl
@[simp] theorem nextFree_line : (s.nextFree).line = s.line := rfl
@[simp] theorem nextFree_bcast : (s.nextFree).bcast = s.bcast := rfl
@[simp] theorem nextFree_snap : (s.nextFree).snap = s.snap := rfl
@[simp] theorem nextFree_host : (s.nextFree).host = s.host := rfl
@[simp] theorem nextFree_pins : (s.nextFree).pins = s.pins := rfl
@[simp] theorem nextFree_irqAt : (s.nextFree).irqAt = s.irqAt := rfl
@[simp] theorem nextFree_ledger : (s.nextFree).ledger = s.ledger := rfl
@[simp] theorem nextFree_vreqs : (s.nextFree).vreqs = s.vreqs := rfl
@[simp] theorem nextFree_vorder : (s.nextFree).vorder = s.vorder := rfl
@[simp] theorem nextFree_grants : (s.nextFree).grants = s.grants := rfl
@[simp] theorem nextFree_bankAt : (s.nextFree).bankAt = s.bankAt := rfl
@[simp] theorem nextFree_nvm : (s.nextFree).nvm = s.nvm := rfl
@[simp] theorem nextFree_pulses : (s.nextFree).pulses = s.pulses := rfl
@[simp] theorem nextFree_tallyClr : (s.nextFree).tallyClr = s.tallyClr := rfl
@[simp] theorem nextFree_tallyIn : (s.nextFree).tallyIn = s.tallyIn := rfl
@[simp] theorem nextFree_run : (s.nextFree).run = s.run := rfl
@[simp] theorem nextFree_supply : (s.nextFree).supply = s.supply := rfl
@[simp] theorem nextFree_otp : (s.nextFree).otp = s.otp := rfl
@[simp] theorem nextFree_reads : (s.nextFree).reads = s.reads := rfl
@[simp] theorem nextFree_resps : (s.nextFree).resps = s.resps := rfl
@[simp] theorem nextFree_busW1c : (s.nextFree).busW1c = s.busW1c := rfl
@[simp] theorem nextFree_busClr : (s.nextFree).busClr = s.busClr := rfl
@[simp] theorem nextFree_clockRegs : (s.nextFree).clockRegs = s.clockRegs := rfl
@[simp] theorem nextFree_dropped : (s.nextFree).dropped = s.dropped := rfl
@[simp] theorem nextFree_free : (s.nextFree).free = s.free + 1 := rfl
@[simp] theorem nextFree_reg (b : Nat) : (s.nextFree).reg b = s.reg b := rfl
@[simp] theorem nextFree_frc (b : Nat) : (s.nextFree).frc b = s.frc b := rfl
@[simp] theorem nextFree_ch (h : Nat) : (s.nextFree).ch h = s.ch h := rfl
@[simp] theorem nextFree_die (e : Nat) : (s.nextFree).die e = s.die e := rfl

/-! modPins -/

@[simp] theorem modPins_nDies (f : Pins → Pins) : (s.modPins f).nDies = s.nDies := rfl
@[simp] theorem modPins_straps (f : Pins → Pins) : (s.modPins f).straps = s.straps := rfl
@[simp] theorem modPins_frame (f : Pins → Pins) : (s.modPins f).frame = s.frame := rfl
@[simp] theorem modPins_clk (f : Pins → Pins) : (s.modPins f).clk = s.clk := rfl
@[simp] theorem modPins_regs (f : Pins → Pins) : (s.modPins f).regs = s.regs := rfl
@[simp] theorem modPins_shadow (f : Pins → Pins) : (s.modPins f).shadow = s.shadow := rfl
@[simp] theorem modPins_stage (f : Pins → Pins) : (s.modPins f).stage = s.stage := rfl
@[simp] theorem modPins_force (f : Pins → Pins) : (s.modPins f).force = s.force := rfl
@[simp] theorem modPins_chans (f : Pins → Pins) : (s.modPins f).chans = s.chans := rfl
@[simp] theorem modPins_dies (f : Pins → Pins) : (s.modPins f).dies = s.dies := rfl
@[simp] theorem modPins_line (f : Pins → Pins) : (s.modPins f).line = s.line := rfl
@[simp] theorem modPins_bcast (f : Pins → Pins) : (s.modPins f).bcast = s.bcast := rfl
@[simp] theorem modPins_snap (f : Pins → Pins) : (s.modPins f).snap = s.snap := rfl
@[simp] theorem modPins_host (f : Pins → Pins) : (s.modPins f).host = s.host := rfl
@[simp] theorem modPins_pins (f : Pins → Pins) : (s.modPins f).pins = f s.pins := rfl
@[simp] theorem modPins_irqAt (f : Pins → Pins) : (s.modPins f).irqAt = s.irqAt := rfl
@[simp] theorem modPins_ledger (f : Pins → Pins) : (s.modPins f).ledger = s.ledger := rfl
@[simp] theorem modPins_vreqs (f : Pins → Pins) : (s.modPins f).vreqs = s.vreqs := rfl
@[simp] theorem modPins_vorder (f : Pins → Pins) : (s.modPins f).vorder = s.vorder := rfl
@[simp] theorem modPins_grants (f : Pins → Pins) : (s.modPins f).grants = s.grants := rfl
@[simp] theorem modPins_bankAt (f : Pins → Pins) : (s.modPins f).bankAt = s.bankAt := rfl
@[simp] theorem modPins_nvm (f : Pins → Pins) : (s.modPins f).nvm = s.nvm := rfl
@[simp] theorem modPins_pulses (f : Pins → Pins) : (s.modPins f).pulses = s.pulses := rfl
@[simp] theorem modPins_tallyClr (f : Pins → Pins) : (s.modPins f).tallyClr = s.tallyClr := rfl
@[simp] theorem modPins_tallyIn (f : Pins → Pins) : (s.modPins f).tallyIn = s.tallyIn := rfl
@[simp] theorem modPins_run (f : Pins → Pins) : (s.modPins f).run = s.run := rfl
@[simp] theorem modPins_supply (f : Pins → Pins) : (s.modPins f).supply = s.supply := rfl
@[simp] theorem modPins_otp (f : Pins → Pins) : (s.modPins f).otp = s.otp := rfl
@[simp] theorem modPins_reads (f : Pins → Pins) : (s.modPins f).reads = s.reads := rfl
@[simp] theorem modPins_resps (f : Pins → Pins) : (s.modPins f).resps = s.resps := rfl
@[simp] theorem modPins_busW1c (f : Pins → Pins) : (s.modPins f).busW1c = s.busW1c := rfl
@[simp] theorem modPins_busClr (f : Pins → Pins) : (s.modPins f).busClr = s.busClr := rfl
@[simp] theorem modPins_clockRegs (f : Pins → Pins) : (s.modPins f).clockRegs = s.clockRegs := rfl
@[simp] theorem modPins_dropped (f : Pins → Pins) : (s.modPins f).dropped = s.dropped := rfl
@[simp] theorem modPins_free (f : Pins → Pins) : (s.modPins f).free = s.free := rfl
@[simp] theorem modPins_reg (f : Pins → Pins) (b : Nat) : (s.modPins f).reg b = s.reg b := rfl
@[simp] theorem modPins_frc (f : Pins → Pins) (b : Nat) : (s.modPins f).frc b = s.frc b := rfl
@[simp] theorem modPins_ch (f : Pins → Pins) (h : Nat) : (s.modPins f).ch h = s.ch h := rfl
@[simp] theorem modPins_die (f : Pins → Pins) (e : Nat) : (s.modPins f).die e = s.die e := rfl

/-! modLine -/

@[simp] theorem modLine_nDies (f : Line → Line) : (s.modLine f).nDies = s.nDies := rfl
@[simp] theorem modLine_straps (f : Line → Line) : (s.modLine f).straps = s.straps := rfl
@[simp] theorem modLine_frame (f : Line → Line) : (s.modLine f).frame = s.frame := rfl
@[simp] theorem modLine_clk (f : Line → Line) : (s.modLine f).clk = s.clk := rfl
@[simp] theorem modLine_regs (f : Line → Line) : (s.modLine f).regs = s.regs := rfl
@[simp] theorem modLine_shadow (f : Line → Line) : (s.modLine f).shadow = s.shadow := rfl
@[simp] theorem modLine_stage (f : Line → Line) : (s.modLine f).stage = s.stage := rfl
@[simp] theorem modLine_force (f : Line → Line) : (s.modLine f).force = s.force := rfl
@[simp] theorem modLine_chans (f : Line → Line) : (s.modLine f).chans = s.chans := rfl
@[simp] theorem modLine_dies (f : Line → Line) : (s.modLine f).dies = s.dies := rfl
@[simp] theorem modLine_line (f : Line → Line) : (s.modLine f).line = f s.line := rfl
@[simp] theorem modLine_bcast (f : Line → Line) : (s.modLine f).bcast = s.bcast := rfl
@[simp] theorem modLine_snap (f : Line → Line) : (s.modLine f).snap = s.snap := rfl
@[simp] theorem modLine_host (f : Line → Line) : (s.modLine f).host = s.host := rfl
@[simp] theorem modLine_pins (f : Line → Line) : (s.modLine f).pins = s.pins := rfl
@[simp] theorem modLine_irqAt (f : Line → Line) : (s.modLine f).irqAt = s.irqAt := rfl
@[simp] theorem modLine_ledger (f : Line → Line) : (s.modLine f).ledger = s.ledger := rfl
@[simp] theorem modLine_vreqs (f : Line → Line) : (s.modLine f).vreqs = s.vreqs := rfl
@[simp] theorem modLine_vorder (f : Line → Line) : (s.modLine f).vorder = s.vorder := rfl
@[simp] theorem modLine_grants (f : Line → Line) : (s.modLine f).grants = s.grants := rfl
@[simp] theorem modLine_bankAt (f : Line → Line) : (s.modLine f).bankAt = s.bankAt := rfl
@[simp] theorem modLine_nvm (f : Line → Line) : (s.modLine f).nvm = s.nvm := rfl
@[simp] theorem modLine_pulses (f : Line → Line) : (s.modLine f).pulses = s.pulses := rfl
@[simp] theorem modLine_tallyClr (f : Line → Line) : (s.modLine f).tallyClr = s.tallyClr := rfl
@[simp] theorem modLine_tallyIn (f : Line → Line) : (s.modLine f).tallyIn = s.tallyIn := rfl
@[simp] theorem modLine_run (f : Line → Line) : (s.modLine f).run = s.run := rfl
@[simp] theorem modLine_supply (f : Line → Line) : (s.modLine f).supply = s.supply := rfl
@[simp] theorem modLine_otp (f : Line → Line) : (s.modLine f).otp = s.otp := rfl
@[simp] theorem modLine_reads (f : Line → Line) : (s.modLine f).reads = s.reads := rfl
@[simp] theorem modLine_resps (f : Line → Line) : (s.modLine f).resps = s.resps := rfl
@[simp] theorem modLine_busW1c (f : Line → Line) : (s.modLine f).busW1c = s.busW1c := rfl
@[simp] theorem modLine_busClr (f : Line → Line) : (s.modLine f).busClr = s.busClr := rfl
@[simp] theorem modLine_clockRegs (f : Line → Line) : (s.modLine f).clockRegs = s.clockRegs := rfl
@[simp] theorem modLine_dropped (f : Line → Line) : (s.modLine f).dropped = s.dropped := rfl
@[simp] theorem modLine_free (f : Line → Line) : (s.modLine f).free = s.free := rfl
@[simp] theorem modLine_reg (f : Line → Line) (b : Nat) : (s.modLine f).reg b = s.reg b := rfl
@[simp] theorem modLine_frc (f : Line → Line) (b : Nat) : (s.modLine f).frc b = s.frc b := rfl
@[simp] theorem modLine_ch (f : Line → Line) (h : Nat) : (s.modLine f).ch h = s.ch h := rfl
@[simp] theorem modLine_die (f : Line → Line) (e : Nat) : (s.modLine f).die e = s.die e := rfl

/-! setIrqAt -/

@[simp] theorem setIrqAt_nDies (n : Nat) : (s.setIrqAt n).nDies = s.nDies := rfl
@[simp] theorem setIrqAt_straps (n : Nat) : (s.setIrqAt n).straps = s.straps := rfl
@[simp] theorem setIrqAt_frame (n : Nat) : (s.setIrqAt n).frame = s.frame := rfl
@[simp] theorem setIrqAt_clk (n : Nat) : (s.setIrqAt n).clk = s.clk := rfl
@[simp] theorem setIrqAt_regs (n : Nat) : (s.setIrqAt n).regs = s.regs := rfl
@[simp] theorem setIrqAt_shadow (n : Nat) : (s.setIrqAt n).shadow = s.shadow := rfl
@[simp] theorem setIrqAt_stage (n : Nat) : (s.setIrqAt n).stage = s.stage := rfl
@[simp] theorem setIrqAt_force (n : Nat) : (s.setIrqAt n).force = s.force := rfl
@[simp] theorem setIrqAt_chans (n : Nat) : (s.setIrqAt n).chans = s.chans := rfl
@[simp] theorem setIrqAt_dies (n : Nat) : (s.setIrqAt n).dies = s.dies := rfl
@[simp] theorem setIrqAt_line (n : Nat) : (s.setIrqAt n).line = s.line := rfl
@[simp] theorem setIrqAt_bcast (n : Nat) : (s.setIrqAt n).bcast = s.bcast := rfl
@[simp] theorem setIrqAt_snap (n : Nat) : (s.setIrqAt n).snap = s.snap := rfl
@[simp] theorem setIrqAt_host (n : Nat) : (s.setIrqAt n).host = s.host := rfl
@[simp] theorem setIrqAt_pins (n : Nat) : (s.setIrqAt n).pins = s.pins := rfl
@[simp] theorem setIrqAt_irqAt (n : Nat) : (s.setIrqAt n).irqAt = n := rfl
@[simp] theorem setIrqAt_ledger (n : Nat) : (s.setIrqAt n).ledger = s.ledger := rfl
@[simp] theorem setIrqAt_vreqs (n : Nat) : (s.setIrqAt n).vreqs = s.vreqs := rfl
@[simp] theorem setIrqAt_vorder (n : Nat) : (s.setIrqAt n).vorder = s.vorder := rfl
@[simp] theorem setIrqAt_grants (n : Nat) : (s.setIrqAt n).grants = s.grants := rfl
@[simp] theorem setIrqAt_bankAt (n : Nat) : (s.setIrqAt n).bankAt = s.bankAt := rfl
@[simp] theorem setIrqAt_nvm (n : Nat) : (s.setIrqAt n).nvm = s.nvm := rfl
@[simp] theorem setIrqAt_pulses (n : Nat) : (s.setIrqAt n).pulses = s.pulses := rfl
@[simp] theorem setIrqAt_tallyClr (n : Nat) : (s.setIrqAt n).tallyClr = s.tallyClr := rfl
@[simp] theorem setIrqAt_tallyIn (n : Nat) : (s.setIrqAt n).tallyIn = s.tallyIn := rfl
@[simp] theorem setIrqAt_run (n : Nat) : (s.setIrqAt n).run = s.run := rfl
@[simp] theorem setIrqAt_supply (n : Nat) : (s.setIrqAt n).supply = s.supply := rfl
@[simp] theorem setIrqAt_otp (n : Nat) : (s.setIrqAt n).otp = s.otp := rfl
@[simp] theorem setIrqAt_reads (n : Nat) : (s.setIrqAt n).reads = s.reads := rfl
@[simp] theorem setIrqAt_resps (n : Nat) : (s.setIrqAt n).resps = s.resps := rfl
@[simp] theorem setIrqAt_busW1c (n : Nat) : (s.setIrqAt n).busW1c = s.busW1c := rfl
@[simp] theorem setIrqAt_busClr (n : Nat) : (s.setIrqAt n).busClr = s.busClr := rfl
@[simp] theorem setIrqAt_clockRegs (n : Nat) : (s.setIrqAt n).clockRegs = s.clockRegs := rfl
@[simp] theorem setIrqAt_dropped (n : Nat) : (s.setIrqAt n).dropped = s.dropped := rfl
@[simp] theorem setIrqAt_free (n : Nat) : (s.setIrqAt n).free = s.free := rfl
@[simp] theorem setIrqAt_reg (n : Nat) (b : Nat) : (s.setIrqAt n).reg b = s.reg b := rfl
@[simp] theorem setIrqAt_frc (n : Nat) (b : Nat) : (s.setIrqAt n).frc b = s.frc b := rfl
@[simp] theorem setIrqAt_ch (n : Nat) (h : Nat) : (s.setIrqAt n).ch h = s.ch h := rfl
@[simp] theorem setIrqAt_die (n : Nat) (e : Nat) : (s.setIrqAt n).die e = s.die e := rfl

/-! setBusW1c -/

@[simp] theorem setBusW1c_nDies (w : Word) : (s.setBusW1c w).nDies = s.nDies := rfl
@[simp] theorem setBusW1c_straps (w : Word) : (s.setBusW1c w).straps = s.straps := rfl
@[simp] theorem setBusW1c_frame (w : Word) : (s.setBusW1c w).frame = s.frame := rfl
@[simp] theorem setBusW1c_clk (w : Word) : (s.setBusW1c w).clk = s.clk := rfl
@[simp] theorem setBusW1c_regs (w : Word) : (s.setBusW1c w).regs = s.regs := rfl
@[simp] theorem setBusW1c_shadow (w : Word) : (s.setBusW1c w).shadow = s.shadow := rfl
@[simp] theorem setBusW1c_stage (w : Word) : (s.setBusW1c w).stage = s.stage := rfl
@[simp] theorem setBusW1c_force (w : Word) : (s.setBusW1c w).force = s.force := rfl
@[simp] theorem setBusW1c_chans (w : Word) : (s.setBusW1c w).chans = s.chans := rfl
@[simp] theorem setBusW1c_dies (w : Word) : (s.setBusW1c w).dies = s.dies := rfl
@[simp] theorem setBusW1c_line (w : Word) : (s.setBusW1c w).line = s.line := rfl
@[simp] theorem setBusW1c_bcast (w : Word) : (s.setBusW1c w).bcast = s.bcast := rfl
@[simp] theorem setBusW1c_snap (w : Word) : (s.setBusW1c w).snap = s.snap := rfl
@[simp] theorem setBusW1c_host (w : Word) : (s.setBusW1c w).host = s.host := rfl
@[simp] theorem setBusW1c_pins (w : Word) : (s.setBusW1c w).pins = s.pins := rfl
@[simp] theorem setBusW1c_irqAt (w : Word) : (s.setBusW1c w).irqAt = s.irqAt := rfl
@[simp] theorem setBusW1c_ledger (w : Word) : (s.setBusW1c w).ledger = s.ledger := rfl
@[simp] theorem setBusW1c_vreqs (w : Word) : (s.setBusW1c w).vreqs = s.vreqs := rfl
@[simp] theorem setBusW1c_vorder (w : Word) : (s.setBusW1c w).vorder = s.vorder := rfl
@[simp] theorem setBusW1c_grants (w : Word) : (s.setBusW1c w).grants = s.grants := rfl
@[simp] theorem setBusW1c_bankAt (w : Word) : (s.setBusW1c w).bankAt = s.bankAt := rfl
@[simp] theorem setBusW1c_nvm (w : Word) : (s.setBusW1c w).nvm = s.nvm := rfl
@[simp] theorem setBusW1c_pulses (w : Word) : (s.setBusW1c w).pulses = s.pulses := rfl
@[simp] theorem setBusW1c_tallyClr (w : Word) : (s.setBusW1c w).tallyClr = s.tallyClr := rfl
@[simp] theorem setBusW1c_tallyIn (w : Word) : (s.setBusW1c w).tallyIn = s.tallyIn := rfl
@[simp] theorem setBusW1c_run (w : Word) : (s.setBusW1c w).run = s.run := rfl
@[simp] theorem setBusW1c_supply (w : Word) : (s.setBusW1c w).supply = s.supply := rfl
@[simp] theorem setBusW1c_otp (w : Word) : (s.setBusW1c w).otp = s.otp := rfl
@[simp] theorem setBusW1c_reads (w : Word) : (s.setBusW1c w).reads = s.reads := rfl
@[simp] theorem setBusW1c_resps (w : Word) : (s.setBusW1c w).resps = s.resps := rfl
@[simp] theorem setBusW1c_busW1c (w : Word) : (s.setBusW1c w).busW1c = w := rfl
@[simp] theorem setBusW1c_busClr (w : Word) : (s.setBusW1c w).busClr = s.busClr := rfl
@[simp] theorem setBusW1c_clockRegs (w : Word) : (s.setBusW1c w).clockRegs = s.clockRegs := rfl
@[simp] theorem setBusW1c_dropped (w : Word) : (s.setBusW1c w).dropped = s.dropped := rfl
@[simp] theorem setBusW1c_free (w : Word) : (s.setBusW1c w).free = s.free := rfl
@[simp] theorem setBusW1c_reg (w : Word) (b : Nat) : (s.setBusW1c w).reg b = s.reg b := rfl
@[simp] theorem setBusW1c_frc (w : Word) (b : Nat) : (s.setBusW1c w).frc b = s.frc b := rfl
@[simp] theorem setBusW1c_ch (w : Word) (h : Nat) : (s.setBusW1c w).ch h = s.ch h := rfl
@[simp] theorem setBusW1c_die (w : Word) (e : Nat) : (s.setBusW1c w).die e = s.die e := rfl

/-! setBusClr -/

@[simp] theorem setBusClr_nDies (x : Bool) : (s.setBusClr x).nDies = s.nDies := rfl
@[simp] theorem setBusClr_straps (x : Bool) : (s.setBusClr x).straps = s.straps := rfl
@[simp] theorem setBusClr_frame (x : Bool) : (s.setBusClr x).frame = s.frame := rfl
@[simp] theorem setBusClr_clk (x : Bool) : (s.setBusClr x).clk = s.clk := rfl
@[simp] theorem setBusClr_regs (x : Bool) : (s.setBusClr x).regs = s.regs := rfl
@[simp] theorem setBusClr_shadow (x : Bool) : (s.setBusClr x).shadow = s.shadow := rfl
@[simp] theorem setBusClr_stage (x : Bool) : (s.setBusClr x).stage = s.stage := rfl
@[simp] theorem setBusClr_force (x : Bool) : (s.setBusClr x).force = s.force := rfl
@[simp] theorem setBusClr_chans (x : Bool) : (s.setBusClr x).chans = s.chans := rfl
@[simp] theorem setBusClr_dies (x : Bool) : (s.setBusClr x).dies = s.dies := rfl
@[simp] theorem setBusClr_line (x : Bool) : (s.setBusClr x).line = s.line := rfl
@[simp] theorem setBusClr_bcast (x : Bool) : (s.setBusClr x).bcast = s.bcast := rfl
@[simp] theorem setBusClr_snap (x : Bool) : (s.setBusClr x).snap = s.snap := rfl
@[simp] theorem setBusClr_host (x : Bool) : (s.setBusClr x).host = s.host := rfl
@[simp] theorem setBusClr_pins (x : Bool) : (s.setBusClr x).pins = s.pins := rfl
@[simp] theorem setBusClr_irqAt (x : Bool) : (s.setBusClr x).irqAt = s.irqAt := rfl
@[simp] theorem setBusClr_ledger (x : Bool) : (s.setBusClr x).ledger = s.ledger := rfl
@[simp] theorem setBusClr_vreqs (x : Bool) : (s.setBusClr x).vreqs = s.vreqs := rfl
@[simp] theorem setBusClr_vorder (x : Bool) : (s.setBusClr x).vorder = s.vorder := rfl
@[simp] theorem setBusClr_grants (x : Bool) : (s.setBusClr x).grants = s.grants := rfl
@[simp] theorem setBusClr_bankAt (x : Bool) : (s.setBusClr x).bankAt = s.bankAt := rfl
@[simp] theorem setBusClr_nvm (x : Bool) : (s.setBusClr x).nvm = s.nvm := rfl
@[simp] theorem setBusClr_pulses (x : Bool) : (s.setBusClr x).pulses = s.pulses := rfl
@[simp] theorem setBusClr_tallyClr (x : Bool) : (s.setBusClr x).tallyClr = s.tallyClr := rfl
@[simp] theorem setBusClr_tallyIn (x : Bool) : (s.setBusClr x).tallyIn = s.tallyIn := rfl
@[simp] theorem setBusClr_run (x : Bool) : (s.setBusClr x).run = s.run := rfl
@[simp] theorem setBusClr_supply (x : Bool) : (s.setBusClr x).supply = s.supply := rfl
@[simp] theorem setBusClr_otp (x : Bool) : (s.setBusClr x).otp = s.otp := rfl
@[simp] theorem setBusClr_reads (x : Bool) : (s.setBusClr x).reads = s.reads := rfl
@[simp] theorem setBusClr_resps (x : Bool) : (s.setBusClr x).resps = s.resps := rfl
@[simp] theorem setBusClr_busW1c (x : Bool) : (s.setBusClr x).busW1c = s.busW1c := rfl
@[simp] theorem setBusClr_busClr (x : Bool) : (s.setBusClr x).busClr = x := rfl
@[simp] theorem setBusClr_clockRegs (x : Bool) : (s.setBusClr x).clockRegs = s.clockRegs := rfl
@[simp] theorem setBusClr_dropped (x : Bool) : (s.setBusClr x).dropped = s.dropped := rfl
@[simp] theorem setBusClr_free (x : Bool) : (s.setBusClr x).free = s.free := rfl
@[simp] theorem setBusClr_reg (x : Bool) (b : Nat) : (s.setBusClr x).reg b = s.reg b := rfl
@[simp] theorem setBusClr_frc (x : Bool) (b : Nat) : (s.setBusClr x).frc b = s.frc b := rfl
@[simp] theorem setBusClr_ch (x : Bool) (h : Nat) : (s.setBusClr x).ch h = s.ch h := rfl
@[simp] theorem setBusClr_die (x : Bool) (e : Nat) : (s.setBusClr x).die e = s.die e := rfl

/-! setDropped -/

@[simp] theorem setDropped_nDies (l : List (Nat × LedgerEnt)) : (s.setDropped l).nDies = s.nDies := rfl
@[simp] theorem setDropped_straps (l : List (Nat × LedgerEnt)) : (s.setDropped l).straps = s.straps := rfl
@[simp] theorem setDropped_frame (l : List (Nat × LedgerEnt)) : (s.setDropped l).frame = s.frame := rfl
@[simp] theorem setDropped_clk (l : List (Nat × LedgerEnt)) : (s.setDropped l).clk = s.clk := rfl
@[simp] theorem setDropped_regs (l : List (Nat × LedgerEnt)) : (s.setDropped l).regs = s.regs := rfl
@[simp] theorem setDropped_shadow (l : List (Nat × LedgerEnt)) : (s.setDropped l).shadow = s.shadow := rfl
@[simp] theorem setDropped_stage (l : List (Nat × LedgerEnt)) : (s.setDropped l).stage = s.stage := rfl
@[simp] theorem setDropped_force (l : List (Nat × LedgerEnt)) : (s.setDropped l).force = s.force := rfl
@[simp] theorem setDropped_chans (l : List (Nat × LedgerEnt)) : (s.setDropped l).chans = s.chans := rfl
@[simp] theorem setDropped_dies (l : List (Nat × LedgerEnt)) : (s.setDropped l).dies = s.dies := rfl
@[simp] theorem setDropped_line (l : List (Nat × LedgerEnt)) : (s.setDropped l).line = s.line := rfl
@[simp] theorem setDropped_bcast (l : List (Nat × LedgerEnt)) : (s.setDropped l).bcast = s.bcast := rfl
@[simp] theorem setDropped_snap (l : List (Nat × LedgerEnt)) : (s.setDropped l).snap = s.snap := rfl
@[simp] theorem setDropped_host (l : List (Nat × LedgerEnt)) : (s.setDropped l).host = s.host := rfl
@[simp] theorem setDropped_pins (l : List (Nat × LedgerEnt)) : (s.setDropped l).pins = s.pins := rfl
@[simp] theorem setDropped_irqAt (l : List (Nat × LedgerEnt)) : (s.setDropped l).irqAt = s.irqAt := rfl
@[simp] theorem setDropped_ledger (l : List (Nat × LedgerEnt)) : (s.setDropped l).ledger = s.ledger := rfl
@[simp] theorem setDropped_vreqs (l : List (Nat × LedgerEnt)) : (s.setDropped l).vreqs = s.vreqs := rfl
@[simp] theorem setDropped_vorder (l : List (Nat × LedgerEnt)) : (s.setDropped l).vorder = s.vorder := rfl
@[simp] theorem setDropped_grants (l : List (Nat × LedgerEnt)) : (s.setDropped l).grants = s.grants := rfl
@[simp] theorem setDropped_bankAt (l : List (Nat × LedgerEnt)) : (s.setDropped l).bankAt = s.bankAt := rfl
@[simp] theorem setDropped_nvm (l : List (Nat × LedgerEnt)) : (s.setDropped l).nvm = s.nvm := rfl
@[simp] theorem setDropped_pulses (l : List (Nat × LedgerEnt)) : (s.setDropped l).pulses = s.pulses := rfl
@[simp] theorem setDropped_tallyClr (l : List (Nat × LedgerEnt)) : (s.setDropped l).tallyClr = s.tallyClr := rfl
@[simp] theorem setDropped_tallyIn (l : List (Nat × LedgerEnt)) : (s.setDropped l).tallyIn = s.tallyIn := rfl
@[simp] theorem setDropped_run (l : List (Nat × LedgerEnt)) : (s.setDropped l).run = s.run := rfl
@[simp] theorem setDropped_supply (l : List (Nat × LedgerEnt)) : (s.setDropped l).supply = s.supply := rfl
@[simp] theorem setDropped_otp (l : List (Nat × LedgerEnt)) : (s.setDropped l).otp = s.otp := rfl
@[simp] theorem setDropped_reads (l : List (Nat × LedgerEnt)) : (s.setDropped l).reads = s.reads := rfl
@[simp] theorem setDropped_resps (l : List (Nat × LedgerEnt)) : (s.setDropped l).resps = s.resps := rfl
@[simp] theorem setDropped_busW1c (l : List (Nat × LedgerEnt)) : (s.setDropped l).busW1c = s.busW1c := rfl
@[simp] theorem setDropped_busClr (l : List (Nat × LedgerEnt)) : (s.setDropped l).busClr = s.busClr := rfl
@[simp] theorem setDropped_clockRegs (l : List (Nat × LedgerEnt)) : (s.setDropped l).clockRegs = s.clockRegs := rfl
@[simp] theorem setDropped_dropped (l : List (Nat × LedgerEnt)) : (s.setDropped l).dropped = l := rfl
@[simp] theorem setDropped_free (l : List (Nat × LedgerEnt)) : (s.setDropped l).free = s.free := rfl
@[simp] theorem setDropped_reg (l : List (Nat × LedgerEnt)) (b : Nat) : (s.setDropped l).reg b = s.reg b := rfl
@[simp] theorem setDropped_frc (l : List (Nat × LedgerEnt)) (b : Nat) : (s.setDropped l).frc b = s.frc b := rfl
@[simp] theorem setDropped_ch (l : List (Nat × LedgerEnt)) (h : Nat) : (s.setDropped l).ch h = s.ch h := rfl
@[simp] theorem setDropped_die (l : List (Nat × LedgerEnt)) (e : Nat) : (s.setDropped l).die e = s.die e := rfl

/-! clearRun -/

@[simp] theorem clearRun_nDies : (s.clearRun).nDies = s.nDies := rfl
@[simp] theorem clearRun_straps : (s.clearRun).straps = s.straps := rfl
@[simp] theorem clearRun_frame : (s.clearRun).frame = s.frame := rfl
@[simp] theorem clearRun_clk : (s.clearRun).clk = s.clk := rfl
@[simp] theorem clearRun_regs : (s.clearRun).regs = s.regs := rfl
@[simp] theorem clearRun_shadow : (s.clearRun).shadow = s.shadow := rfl
@[simp] theorem clearRun_stage : (s.clearRun).stage = s.stage := rfl
@[simp] theorem clearRun_force : (s.clearRun).force = s.force := rfl
@[simp] theorem clearRun_chans : (s.clearRun).chans = s.chans := rfl
@[simp] theorem clearRun_dies : (s.clearRun).dies = s.dies := rfl
@[simp] theorem clearRun_line : (s.clearRun).line = s.line := rfl
@[simp] theorem clearRun_bcast : (s.clearRun).bcast = s.bcast := rfl
@[simp] theorem clearRun_snap : (s.clearRun).snap = s.snap := rfl
@[simp] theorem clearRun_host : (s.clearRun).host = s.host := rfl
@[simp] theorem clearRun_pins : (s.clearRun).pins = s.pins := rfl
@[simp] theorem clearRun_irqAt : (s.clearRun).irqAt = s.irqAt := rfl
@[simp] theorem clearRun_ledger : (s.clearRun).ledger = s.ledger := rfl
@[simp] theorem clearRun_vreqs : (s.clearRun).vreqs = s.vreqs := rfl
@[simp] theorem clearRun_vorder : (s.clearRun).vorder = s.vorder := rfl
@[simp] theorem clearRun_grants : (s.clearRun).grants = s.grants := rfl
@[simp] theorem clearRun_bankAt : (s.clearRun).bankAt = s.bankAt := rfl
@[simp] theorem clearRun_nvm : (s.clearRun).nvm = s.nvm := rfl
@[simp] theorem clearRun_pulses : (s.clearRun).pulses = s.pulses := rfl
@[simp] theorem clearRun_tallyClr : (s.clearRun).tallyClr = s.tallyClr := rfl
@[simp] theorem clearRun_tallyIn : (s.clearRun).tallyIn = s.tallyIn := rfl
@[simp] theorem clearRun_run : (s.clearRun).run = Run.reset := rfl
@[simp] theorem clearRun_supply : (s.clearRun).supply = s.supply := rfl
@[simp] theorem clearRun_otp : (s.clearRun).otp = s.otp := rfl
@[simp] theorem clearRun_reads : (s.clearRun).reads = s.reads := rfl
@[simp] theorem clearRun_resps : (s.clearRun).resps = s.resps := rfl
@[simp] theorem clearRun_busW1c : (s.clearRun).busW1c = s.busW1c := rfl
@[simp] theorem clearRun_busClr : (s.clearRun).busClr = s.busClr := rfl
@[simp] theorem clearRun_clockRegs : (s.clearRun).clockRegs = s.clockRegs := rfl
@[simp] theorem clearRun_dropped : (s.clearRun).dropped = s.dropped := rfl
@[simp] theorem clearRun_free : (s.clearRun).free = s.free := rfl
@[simp] theorem clearRun_reg (b : Nat) : (s.clearRun).reg b = s.reg b := rfl
@[simp] theorem clearRun_frc (b : Nat) : (s.clearRun).frc b = s.frc b := rfl
@[simp] theorem clearRun_ch (h : Nat) : (s.clearRun).ch h = s.ch h := rfl
@[simp] theorem clearRun_die (e : Nat) : (s.clearRun).die e = s.die e := rfl

/-! noteRegs -/

@[simp] theorem noteRegs_nDies : (s.noteRegs).nDies = s.nDies := rfl
@[simp] theorem noteRegs_straps : (s.noteRegs).straps = s.straps := rfl
@[simp] theorem noteRegs_frame : (s.noteRegs).frame = s.frame := rfl
@[simp] theorem noteRegs_clk : (s.noteRegs).clk = s.clk := rfl
@[simp] theorem noteRegs_regs : (s.noteRegs).regs = s.regs := rfl
@[simp] theorem noteRegs_shadow : (s.noteRegs).shadow = s.shadow := rfl
@[simp] theorem noteRegs_stage : (s.noteRegs).stage = s.stage := rfl
@[simp] theorem noteRegs_force : (s.noteRegs).force = s.force := rfl
@[simp] theorem noteRegs_chans : (s.noteRegs).chans = s.chans := rfl
@[simp] theorem noteRegs_dies : (s.noteRegs).dies = s.dies := rfl
@[simp] theorem noteRegs_line : (s.noteRegs).line = s.line := rfl
@[simp] theorem noteRegs_bcast : (s.noteRegs).bcast = s.bcast := rfl
@[simp] theorem noteRegs_snap : (s.noteRegs).snap = s.snap := rfl
@[simp] theorem noteRegs_host : (s.noteRegs).host = s.host := rfl
@[simp] theorem noteRegs_pins : (s.noteRegs).pins = s.pins := rfl
@[simp] theorem noteRegs_irqAt : (s.noteRegs).irqAt = s.irqAt := rfl
@[simp] theorem noteRegs_ledger : (s.noteRegs).ledger = s.ledger := rfl
@[simp] theorem noteRegs_vreqs : (s.noteRegs).vreqs = s.vreqs := rfl
@[simp] theorem noteRegs_vorder : (s.noteRegs).vorder = s.vorder := rfl
@[simp] theorem noteRegs_grants : (s.noteRegs).grants = s.grants := rfl
@[simp] theorem noteRegs_bankAt : (s.noteRegs).bankAt = s.bankAt := rfl
@[simp] theorem noteRegs_nvm : (s.noteRegs).nvm = s.nvm := rfl
@[simp] theorem noteRegs_pulses : (s.noteRegs).pulses = s.pulses := rfl
@[simp] theorem noteRegs_tallyClr : (s.noteRegs).tallyClr = s.tallyClr := rfl
@[simp] theorem noteRegs_tallyIn : (s.noteRegs).tallyIn = s.tallyIn := rfl
@[simp] theorem noteRegs_run : (s.noteRegs).run = s.run := rfl
@[simp] theorem noteRegs_supply : (s.noteRegs).supply = s.supply := rfl
@[simp] theorem noteRegs_otp : (s.noteRegs).otp = s.otp := rfl
@[simp] theorem noteRegs_reads : (s.noteRegs).reads = s.reads := rfl
@[simp] theorem noteRegs_resps : (s.noteRegs).resps = s.resps := rfl
@[simp] theorem noteRegs_busW1c : (s.noteRegs).busW1c = s.busW1c := rfl
@[simp] theorem noteRegs_busClr : (s.noteRegs).busClr = s.busClr := rfl
@[simp] theorem noteRegs_clockRegs : (s.noteRegs).clockRegs = s.regs := rfl
@[simp] theorem noteRegs_dropped : (s.noteRegs).dropped = s.dropped := rfl
@[simp] theorem noteRegs_free : (s.noteRegs).free = s.free := rfl
@[simp] theorem noteRegs_reg (b : Nat) : (s.noteRegs).reg b = s.reg b := rfl
@[simp] theorem noteRegs_frc (b : Nat) : (s.noteRegs).frc b = s.frc b := rfl
@[simp] theorem noteRegs_ch (h : Nat) : (s.noteRegs).ch h = s.ch h := rfl
@[simp] theorem noteRegs_die (e : Nat) : (s.noteRegs).die e = s.die e := rfl

/-! Reading after writing. -/

@[simp] theorem reg_setReg_self (a : Nat) (w : Word) : (s.setReg a w).reg a = w := rfGet_set_self s.regs a w
theorem reg_setReg_ne {a b : Nat} (h : b ≠ a) (w : Word) : (s.setReg a w).reg b = s.reg b := rfGet_set_other h s.regs w
@[simp] theorem frc_setFrc_self (a : Nat) (w : Word) : (s.setFrc a w).frc a = w := rfGet_set_self s.force a w
theorem frc_setFrc_ne {a b : Nat} (h : b ≠ a) (w : Word) : (s.setFrc a w).frc b = s.frc b := rfGet_set_other h s.force w

theorem ch_modCh_self {g : Nat} (h : g < s.chans.length) (f : Chan → Chan) : (s.modCh g f).ch g = f (s.ch g) := by
  simp [ch, h]
theorem ch_modCh_ne {g h : Nat} (e : h ≠ g) (f : Chan → Chan) : (s.modCh g f).ch h = s.ch h := by
  simp [ch, Ne.symm e]
theorem die_modDie_self {d : Nat} (h : d < s.dies.length) (f : DieSt → DieSt) : (s.modDie d f).die d = f (s.die d) := by
  simp [die, h]
theorem die_modDie_ne {d e : Nat} (h : e ≠ d) (f : DieSt → DieSt) : (s.modDie d f).die e = s.die e := by
  simp [die, Ne.symm h]

/-- A field read from a block after a word of that or another block is written. -/
theorem pget_setReg_ne {f : Fld .pkg} {a : Nat} (h : f.off ≠ a) (w : Word) : (s.setReg a w).pget f = s.pget f := by
  unfold pget; rw [reg_setReg_ne s h]
theorem dget_setReg_ne {d : Nat} {f : Fld .die} {a : Nat} (h : dieAddr d f.off ≠ a) (w : Word) : (s.setReg a w).dget d f = s.dget d f := by
  unfold dget; rw [reg_setReg_ne s h]
theorem cget_setReg_ne {g : Nat} {f : Fld .ch} {a : Nat} (h : chAddr g f.off ≠ a) (w : Word) : (s.setReg a w).cget g f = s.cget g f := by
  unfold cget; rw [reg_setReg_ne s h]

theorem pget_pset_self (f : Fld .pkg) (v : Nat) (h : f.lo ≤ f.hi ∧ f.hi < 32) : (s.pset f v).pget f = v % 2 ^ f.width := by
  unfold pget pset; rw [reg_setReg_self, Fld.get_put_self f v _ h.1 h.2]
theorem dget_dset_self (d : Nat) (f : Fld .die) (v : Nat) (h : f.lo ≤ f.hi ∧ f.hi < 32) : (s.dset d f v).dget d f = v % 2 ^ f.width := by
  unfold dget dset; rw [reg_setReg_self, Fld.get_put_self f v _ h.1 h.2]
theorem cget_cset_self (g : Nat) (f : Fld .ch) (v : Nat) (h : f.lo ≤ f.hi ∧ f.hi < 32) : (s.cset g f v).cget g f = v % 2 ^ f.width := by
  unfold cget cset; rw [reg_setReg_self, Fld.get_put_self f v _ h.1 h.2]

/-- A field beside the field that is set: in another word, or in the same word with no bit shared. -/
abbrev Apart {b : Blk} (f k : Fld b) : Prop := k.off ≠ f.off ∨ (f.lo ≤ f.hi ∧ f.hi < 32 ∧ k.lo ≤ k.hi ∧ (k.hi < f.lo ∨ f.hi < k.lo))

theorem pget_pset_apart (f k : Fld .pkg) (v : Nat) (h : Apart f k) : (s.pset f v).pget k = s.pget k := by
  by_cases e : k.off = f.off
  · obtain h | ⟨h1, h2, h3, h4⟩ := h
    · exact absurd e h
    · unfold pget pset; rw [e, reg_setReg_self, Fld.get_put_other f k v _ h1 h2 h3 h4]
  · exact pget_setReg_ne s e _
theorem dget_dset_apart (d : Nat) (f k : Fld .die) (v : Nat) (h : Apart f k) : (s.dset d f v).dget d k = s.dget d k := by
  by_cases e : k.off = f.off
  · obtain h | ⟨h1, h2, h3, h4⟩ := h
    · exact absurd e h
    · unfold dget dset; rw [e, reg_setReg_self, Fld.get_put_other f k v _ h1 h2 h3 h4]
  · exact dget_setReg_ne s (by unfold dieAddr; omega) _
theorem cget_cset_apart (g : Nat) (f k : Fld .ch) (v : Nat) (h : Apart f k) : (s.cset g f v).cget g k = s.cget g k := by
  by_cases e : k.off = f.off
  · obtain h | ⟨h1, h2, h3, h4⟩ := h
    · exact absurd e h
    · unfold cget cset; rw [e, reg_setReg_self, Fld.get_put_other f k v _ h1 h2 h3 h4]
  · exact cget_setReg_ne s (by unfold chAddr; omega) _

theorem pget_cset (g : Nat) (f : Fld .ch) (k : Fld .pkg) (v : Nat) (h : k.off < 0x2000) : (s.cset g f v).pget k = s.pget k :=
  pget_setReg_ne s (by unfold chAddr; omega) _
theorem pget_dset (d : Nat) (f : Fld .die) (k : Fld .pkg) (v : Nat) (h : k.off < 0x2000) : (s.dset d f v).pget k = s.pget k :=
  pget_setReg_ne s (by unfold dieAddr; omega) _
theorem cget_pset (g : Nat) (f : Fld .pkg) (k : Fld .ch) (v : Nat) (h : f.off < 0x2000) : (s.pset f v).cget g k = s.cget g k :=
  cget_setReg_ne s (by unfold chAddr; omega) _
theorem dget_pset (d : Nat) (f : Fld .pkg) (k : Fld .die) (v : Nat) (h : f.off < 0x2000) : (s.pset f v).dget d k = s.dget d k :=
  dget_setReg_ne s (by unfold dieAddr; omega) _
theorem cget_dset (g d : Nat) (f : Fld .die) (k : Fld .ch) (v : Nat) (hd : d < 8) (hf : f.off < 0x200) :
    (s.dset d f v).cget g k = s.cget g k :=
  cget_setReg_ne s (by unfold chAddr dieAddr; omega) _
theorem dget_cset (g d : Nat) (f : Fld .ch) (k : Fld .die) (v : Nat) (hd : d < 8) (hk : k.off < 0x200) :
    (s.cset g f v).dget d k = s.dget d k :=
  dget_setReg_ne s (by unfold chAddr dieAddr; omega) _

end Sys2Proof.Machine.Device
end

