-- ==== Sys2Proof/Laws/Does.lean ====
section
/-! SUPPORT. How a command's effect is shown: the device its meaning answers, and what one changed word, channel or die
leaves as it was. -/

namespace Sys2Proof.Machine

/-- A command of the device completes with what its operation leaves. -/
theorem does_dev {i : Instr} {s : State} {P : Device → Prop} {f : Device → Device} (e : exec i s = onDev s f)
    (h : P (f s.dev)) : Does i s P := ⟨_, e, h⟩

/-- A command of a present die completes with what its operation leaves. -/
theorem does_die {i : Instr} {s : State} {P : Device → Prop} {f : Device → Device} {d : Nat} (e : exec i s = onDie d s f)
    (hd : d < s.dev.nDies) (h : P (f s.dev)) : Does i s P := ⟨_, by rw [e, onDie, if_pos hd], h⟩

/-- A command of an absent die completes and changes nothing. -/
theorem does_absent {i : Instr} {s : State} {f : Device → Device} {d : Nat} (e : exec i s = onDie d s f)
    (hd : ¬ d < s.dev.nDies) : Does i s (· = s.dev) := ⟨_, by rw [e, onDie, if_neg hd], rfl⟩

/-- A word that is set changes nothing else. -/
theorem regsOnly_setReg (s : Device) (a : Nat) (w : Word) : RegsOnly (· = a) s (s.setReg a w) :=
  ⟨rfl, fun _ h => Device.reg_setReg_ne s h w⟩

/-- A word that is set reads as written, and nothing else changes. -/
theorem wordOnly_setReg (s : Device) (a : Nat) (w : Word) : WordOnly a w s (s.setReg a w) :=
  ⟨regsOnly_setReg s a w, Device.reg_setReg_self s a w⟩

/-- A channel's change changes nothing else. -/
theorem chanOnly_modCh (s : Device) (g : Nat) (f : Chan → Chan) : ChanOnly g noWord s (s.modCh g f) :=
  ⟨rfl, fun _ h => Device.ch_modCh_ne s h f, fun _ _ => rfl⟩

/-- A die's change changes nothing else. -/
theorem dieOnly_modDie (s : Device) (d : Nat) (f : DieSt → DieSt) : DieOnly d noWord s (s.modDie d f) :=
  ⟨rfl, fun _ h => Device.die_modDie_ne s h f, fun _ _ => rfl⟩

/-- Every channel has its place in a sound state. -/
theorem Sound.ch_lt {s : State} (hs : Sound s) (g : Ch) : g.val < s.dev.chans.length := by
  rw [hs.canonical.chans]; exact g.isLt
/-- Every die has its place in a sound state. -/
theorem Sound.die_lt {s : State} (hs : Sound s) (d : Die) : d.val < s.dev.dies.length := by
  rw [hs.canonical.dies]; exact d.isLt

end Sys2Proof.Machine
end

