-- ==== Sys2Proof/Laws/InState.lean ====
section
/-! SUPPORT. Device.InState: the package is in a given state (R31, R389); record updates, branches, folds and register
writes that leave it there. -/

namespace Sys2Proof.Machine

theorem rfGet_filter {a : Nat} {p : Nat × Word → Bool} (hp : ∀ w, p (a, w) = true) (f : RegFile) :
    rfGet (f.filter p) a = rfGet f a := by
  unfold rfGet
  congr 1
  induction f with
  | nil => rfl
  | cons q t ih =>
    obtain ⟨b, v⟩ := q
    by_cases hb : b = a
    · subst hb; simp [hp, rfFind]
    · cases h : p (b, v) <;> simp [h, rfFind, hb, ih]

/-- The package is in the state st. -/
def Device.InState (s : Device) (pk : Nat) : Prop := pkgState s = pk

/-- A field that shares no bit with PKG_STATE.STATE. -/
abbrev Fld.Free (f : Fld .pkg) : Prop := f.lo ≤ f.hi ∧ f.hi < 32 ∧ (f.off ≠ 2 ∨ 3 < f.lo)

theorem Fld.free_at {f : Fld .pkg} (n : Nat) (h : f.lo ≤ f.hi ∧ f.hi < 32 ∧ 2 < f.off) : (f.at n).Free :=
  ⟨h.1, h.2.1, .inl (by show f.off + n ≠ 2; omega)⟩

theorem dieAddr_ne (d off : Nat) : dieAddr d off ≠ 2 := by unfold dieAddr; omega
theorem chAddr_ne (g off : Nat) : chAddr g off ≠ 2 := by unfold chAddr; omega

namespace Device

variable {pk : Nat}

theorem inState_mk {nDies : Nat} {straps : List Nat} {frame clk : Nat} {regs shadow force : RegFile} {chans : List Chan}
    {dies : List DieSt} {line : Line} {bcast : List Bcast} {snap : Snap} {host : HostPort} {pins : Pins}
    {irqAt : Nat} {ledger : List LedgerEnt} {vreqs : List VReq} {vorder : Nat} {grants : List (Nat × Nat)} {bankAt : List (Option Nat)}
    {nvm : Nvm} {pulses : List Pulse} {tallyClr : List Bool} {tallyIn : List TallyPin} {run : Run} {supply : Supply} {otp : OtpCmd}
    {reads : List (Nat × Nat)} {resps : List (Nat × Word)} {stage : RegFile} {busW1c : Word} {busClr : Bool} {clockRegs : List (Nat × Word)} {dropped : List (Nat × LedgerEnt)} {free : Nat} (h1 : PKG_STATE_STATE.get (rfGet regs 2) = pk) :
    InState ⟨nDies, straps, frame, clk, regs, shadow, stage, force, chans, dies, line, bcast, snap, host, pins, irqAt, ledger, vreqs,
      vorder, grants, bankAt, nvm, pulses, tallyClr, tallyIn, run, supply, otp, reads, resps, busW1c, busClr,
      clockRegs, dropped, free⟩ pk := h1

theorem InState.word {s : Device} (h : s.InState pk) : PKG_STATE_STATE.get (rfGet s.regs 2) = pk := h

theorem inState_ite {c : Prop} [Decidable c] {a b : Device} (ha : c → a.InState pk) (hb : ¬c → b.InState pk) :
    (if c then a else b).InState pk := by
  split
  · exact ha ‹_›
  · exact hb ‹_›

theorem inState_foldl {α : Type} {g : Device → α → Device} (xs : List α) {s : Device} (h : s.InState pk)
    (hg : ∀ x t, t.InState pk → (g t x).InState pk) : (xs.foldl g s).InState pk := by
  induction xs generalizing s with
  | nil => exact h
  | cons x l ih => exact ih (hg _ _ h)

theorem inState_each (l : List Nat) {f : Nat → Device → Device} {s : Device} (h : s.InState pk)
    (hf : ∀ i t, t.InState pk → (f i t).InState pk) : (s.each l f).InState pk :=
  inState_foldl l h hf

theorem inState_fst {α : Type} {p : Device × α} {s : Device} {x : α} (e : p = (s, x)) (h : p.1.InState pk) : s.InState pk := by
  subst e; exact h

theorem inState_snd {α : Type} {p : α × Device} {s : Device} {x : α} (e : p = (x, s)) (h : p.2.InState pk) : s.InState pk := by
  subst e; exact h

theorem inState_setReg (a : Nat) (w : Word) {s : Device} (ha : a ≠ 2) (h : s.InState pk) : (s.setReg a w).InState pk := by
  show PKG_STATE_STATE.get (rfGet (rfSet s.regs a w) 2) = pk
  rw [rfGet_set_other (Ne.symm ha)]
  exact h
theorem inState_setFrc (a : Nat) (w : Word) {s : Device} (h : s.InState pk) : (s.setFrc a w).InState pk := h
theorem inState_modCh (g : Nat) (f : Chan → Chan) {s : Device} (h : s.InState pk) : (s.modCh g f).InState pk := h
theorem inState_modDie (d : Nat) (f : DieSt → DieSt) {s : Device} (h : s.InState pk) : (s.modDie d f).InState pk := h
theorem inState_modSup (f : Supply → Supply) {s : Device} (h : s.InState pk) : (s.modSup f).InState pk := h
theorem inState_modNvm (f : Nvm → Nvm) {s : Device} (h : s.InState pk) : (s.modNvm f).InState pk := h
theorem inState_modHost (f : HostPort → HostPort) {s : Device} (h : s.InState pk) : (s.modHost f).InState pk := h

theorem inState_pset (f : Fld .pkg) (v : Nat) {s : Device} (hf : f.Free) (h : s.InState pk) : (s.pset f v).InState pk := by
  obtain ⟨h1, h2, h3⟩ := hf
  by_cases e : f.off = 2
  · have h4 : 3 < f.lo := h3.resolve_left (fun h => h e)
    show PKG_STATE_STATE.get (rfGet (rfSet s.regs f.off (f.put v (rfGet s.regs f.off))) 2) = pk
    rw [e, rfGet_set_self, Fld.get_put_other f PKG_STATE_STATE v _ h1 h2 (by decide) (.inl h4)]
    exact h
  · exact inState_setReg _ _ e h
theorem inState_pinc (f : Fld .pkg) {s : Device} (hf : f.Free) (h : s.InState pk) : (s.pinc f).InState pk := inState_pset _ _ hf h
theorem inState_psetBit (f : Fld .pkg) (i : Nat) (b : Bool) {s : Device} (hf : f.Free) (h : s.InState pk) :
    (s.psetBit f i b).InState pk := inState_pset _ _ hf h
theorem inState_dset (d : Nat) (f : Fld .die) (v : Nat) {s : Device} (h : s.InState pk) : (s.dset d f v).InState pk :=
  inState_setReg _ _ (dieAddr_ne _ _) h
theorem inState_dinc (d : Nat) (f : Fld .die) {s : Device} (h : s.InState pk) : (s.dinc d f).InState pk :=
  inState_setReg _ _ (dieAddr_ne _ _) h
theorem inState_cset (g : Nat) (f : Fld .ch) (v : Nat) {s : Device} (h : s.InState pk) : (s.cset g f v).InState pk :=
  inState_setReg _ _ (chAddr_ne _ _) h

/-- A word written over a word of PKG_STATE that leaves STATE as it is. -/
theorem inState_setReg_keep (a : Nat) (w : Word) {s : Device} (ha : a = 2 → PKG_STATE_STATE.get w = PKG_STATE_STATE.get (s.reg 2))
    (h : s.InState pk) : (s.setReg a w).InState pk := by
  by_cases e : a = 2
  · subst e
    show PKG_STATE_STATE.get (rfGet (rfSet s.regs 2 w) 2) = pk
    rw [rfGet_set_self, ha rfl]
    exact h
  · exact inState_setReg _ _ e h

end Device

end Sys2Proof.Machine
end

