-- ==== Sys2Proof/Laws/InStateChannel.lean ====
section
/-! SUPPORT. Operations of these files that leave PKG_STATE.STATE as it is (R389). One lemma for each operation, in the order of the files. -/

set_option linter.unusedTactic false
set_option linter.unreachableTactic false
set_option linter.unusedVariables false

namespace Sys2Proof.Machine

variable {pk : Nat}

/-! Ops. -/

theorem Device.inState_modBench {s : Device} (d : ℕ) (f : Bench → Bench) (hs : s.InState pk) :
    (Device.modBench s d f).InState pk := by
  unfold Device.modBench
  repeat' first
    | with_reducible assumption
    | with_reducible apply Device.inState_modDie
    | intro _
    | split
    | dsimp only

theorem Device.inState_setBulk {s : Device} (reads : List (ℕ × ℕ)) (resps : List (ℕ × Sys2Proof.Word)) (hs : s.InState pk) :
    (Device.setBulk s reads resps).InState pk := by
  unfold Device.setBulk
  repeat' first
    | with_reducible assumption
    | with_reducible apply Device.inState_mk
    | with_reducible apply Device.InState.word
    | intro _
    | split
    | dsimp only

theorem Device.inState_modConv {s : Device} (g : ℕ) (f : Conv → Conv) (hs : s.InState pk) :
    (Device.modConv s g f).InState pk := by
  unfold Device.modConv
  repeat' first
    | with_reducible assumption
    | with_reducible apply Device.inState_modCh
    | intro _
    | split
    | dsimp only

theorem Device.inState_modLine {s : Device} (f : Line → Line) (hs : s.InState pk) :
    (Device.modLine s f).InState pk := by
  unfold Device.modLine
  repeat' first
    | with_reducible assumption
    | with_reducible apply Device.inState_mk
    | with_reducible apply Device.InState.word
    | intro _
    | split
    | dsimp only

theorem Device.inState_modLink {s : Device} (d : ℕ) (f : Link → Link) (hs : s.InState pk) :
    (Device.modLink s d f).InState pk := by
  unfold Device.modLink
  repeat' first
    | with_reducible assumption
    | with_reducible apply Device.inState_modDie
    | intro _
    | split
    | dsimp only

theorem Device.inState_setIrqAt {s : Device} (n : ℕ) (hs : s.InState pk) :
    (Device.setIrqAt s n).InState pk := by
  unfold Device.setIrqAt
  repeat' first
    | with_reducible assumption
    | with_reducible apply Device.inState_mk
    | with_reducible apply Device.InState.word
    | intro _
    | split
    | dsimp only

theorem Device.inState_nextFree {s : Device} (hs : s.InState pk) :
    (Device.nextFree s).InState pk := by
  unfold Device.nextFree
  repeat' first
    | with_reducible assumption
    | with_reducible apply Device.inState_mk
    | with_reducible apply Device.InState.word
    | intro _
    | split
    | dsimp only

theorem inState_irqLatch (cat : ℕ) (die : ℕ) (obj : ℕ) {s : Device} (hs : s.InState pk) :
    (irqLatch cat die obj s).InState pk := by
  unfold irqLatch
  repeat' first
    | with_reducible assumption
    | with_reducible refine Device.inState_pset _ _ ?_ ?_
    | with_reducible exact Fld.free_at _ (by decide)
    | (with_reducible show Fld.Free _; decide)
    | with_reducible apply Device.inState_ite
    | intro _
    | split
    | dsimp only

theorem inState_irqSource (cat : ℕ) (die : ℕ) (obj : ℕ) {s : Device} (hs : s.InState pk) :
    (irqSource cat die obj s).InState pk := by
  unfold irqSource
  repeat' first
    | with_reducible assumption
    | with_reducible apply Device.inState_setIrqAt
    | with_reducible apply inState_irqLatch
    | with_reducible refine Device.inState_pset _ _ ?_ ?_
    | with_reducible refine Device.inState_pinc _ ?_ ?_
    | with_reducible exact Fld.free_at _ (by decide)
    | (with_reducible show Fld.Free _; decide)
    | with_reducible apply Device.inState_ite
    | intro _
    | split
    | dsimp only

theorem inState_setIrq (cat : ℕ) (die : ℕ) (obj : ℕ) {s : Device} (hs : s.InState pk) :
    (setIrq cat die obj s).InState pk := by
  unfold setIrq
  repeat' first
    | with_reducible assumption
    | with_reducible apply inState_irqSource
    | with_reducible refine Device.inState_setReg _ _ ?_ ?_
    | with_reducible exact chAddr_ne _ _
    | with_reducible exact dieAddr_ne _ _
    | (with_reducible show _ ≠ 2; omega)
    | with_reducible apply Device.inState_ite
    | intro _
    | split
    | dsimp only

theorem Device.inState_setDropped {s : Device} (l : List (ℕ × LedgerEnt)) (hs : s.InState pk) :
    (Device.setDropped s l).InState pk := by
  unfold Device.setDropped
  repeat' first
    | with_reducible assumption
    | with_reducible apply Device.inState_mk
    | with_reducible apply Device.InState.word
    | intro _
    | split
    | dsimp only

theorem inState_setCat (cat : ℕ) {s : Device} (hs : s.InState pk) :
    (setCat cat s).InState pk := by
  unfold setCat
  repeat' first
    | with_reducible assumption
    | with_reducible apply inState_setIrq
    | intro _
    | split
    | dsimp only

theorem inState_ledgerWrite (e : LedgerEnt) {s : Device} (hs : s.InState pk) :
    (ledgerWrite e s).InState pk := by
  unfold ledgerWrite
  repeat' first
    | with_reducible assumption
    | with_reducible apply inState_setCat
    | with_reducible refine Device.inState_pset _ _ ?_ ?_
    | with_reducible exact Fld.free_at _ (by decide)
    | (with_reducible show Fld.Free _; decide)
    | with_reducible apply Device.inState_ite
    | with_reducible apply Device.inState_mk
    | with_reducible apply Device.InState.word
    | intro _
    | split
    | dsimp only

theorem inState_ledgerPut (e : LedgerEnt) {s : Device} (hs : s.InState pk) :
    (ledgerPut e s).InState pk := by
  unfold ledgerPut
  repeat' first
    | with_reducible assumption
    | with_reducible apply Device.inState_setDropped
    | with_reducible apply inState_ledgerWrite
    | with_reducible refine Device.inState_pset _ _ ?_ ?_
    | with_reducible refine Device.inState_pinc _ ?_ ?_
    | with_reducible exact Fld.free_at _ (by decide)
    | (with_reducible show Fld.Free _; decide)
    | with_reducible apply Device.inState_ite
    | intro _
    | split
    | dsimp only

theorem inState_logEvent (cat : ℕ) (d : ℕ) (code : ℕ) (obj : ℕ) (data : ℕ) {s : Device} (hs : s.InState pk) :
    (logEvent cat d code obj data s).InState pk := by
  unfold logEvent
  repeat' first
    | with_reducible assumption
    | with_reducible apply inState_setIrq
    | with_reducible apply inState_ledgerPut
    | with_reducible apply Device.inState_modDie
    | with_reducible apply Device.inState_ite
    | intro _
    | split
    | dsimp only

theorem Device.inState_modRecov {s : Device} (d : ℕ) (f : Recov → Recov) (hs : s.InState pk) :
    (Device.modRecov s d f).InState pk := by
  unfold Device.modRecov
  repeat' first
    | with_reducible assumption
    | with_reducible apply Device.inState_modDie
    | intro _
    | split
    | dsimp only

theorem Device.inState_clearRun {s : Device} (hs : s.InState pk) :
    (Device.clearRun s).InState pk := by
  unfold Device.clearRun
  repeat' first
    | with_reducible assumption
    | with_reducible apply Device.inState_mk
    | with_reducible apply Device.InState.word
    | intro _
    | split
    | dsimp only

theorem Device.inState_modDue {s : Device} (g : ℕ) (f : Due → Due) (hs : s.InState pk) :
    (Device.modDue s g f).InState pk := by
  unfold Device.modDue
  repeat' first
    | with_reducible assumption
    | with_reducible apply Device.inState_modCh
    | intro _
    | split
    | dsimp only

theorem Device.inState_dforce {s : Device} (d : ℕ) (off : ℕ) (hs : s.InState pk) :
    (Device.dforce s d off).InState pk := by
  unfold Device.dforce
  repeat' first
    | with_reducible assumption
    | with_reducible apply Device.inState_setFrc
    | intro _
    | split
    | dsimp only

theorem Device.inState_pforce {s : Device} (off : ℕ) (hs : s.InState pk) :
    (Device.pforce s off).InState pk := by
  unfold Device.pforce
  repeat' first
    | with_reducible assumption
    | with_reducible apply Device.inState_setFrc
    | intro _
    | split
    | dsimp only

theorem Device.inState_modGlean {s : Device} (d : ℕ) (f : Glean → Glean) (hs : s.InState pk) :
    (Device.modGlean s d f).InState pk := by
  unfold Device.modGlean
  repeat' first
    | with_reducible assumption
    | with_reducible apply Device.inState_modDie
    | intro _
    | split
    | dsimp only

theorem Device.inState_modAcc {s : Device} (g : ℕ) (f : Acc → Acc) (hs : s.InState pk) :
    (Device.modAcc s g f).InState pk := by
  unfold Device.modAcc
  repeat' first
    | with_reducible assumption
    | with_reducible apply Device.inState_modCh
    | intro _
    | split
    | dsimp only

theorem Device.inState_noteRegs {s : Device} (hs : s.InState pk) :
    (Device.noteRegs s).InState pk := by
  unfold Device.noteRegs
  repeat' first
    | with_reducible assumption
    | with_reducible apply Device.inState_mk
    | with_reducible apply Device.InState.word
    | intro _
    | split
    | dsimp only

theorem Device.inState_setBusClr {s : Device} (b : Bool) (hs : s.InState pk) :
    (Device.setBusClr s b).InState pk := by
  unfold Device.setBusClr
  repeat' first
    | with_reducible assumption
    | with_reducible apply Device.inState_mk
    | with_reducible apply Device.InState.word
    | intro _
    | split
    | dsimp only

theorem Device.inState_spend {s : Device} (n : ℕ) (hs : s.InState pk) :
    (Device.spend s n).InState pk := by
  unfold Device.spend
  repeat' first
    | with_reducible assumption
    | with_reducible apply Device.inState_mk
    | with_reducible apply Device.InState.word
    | intro _
    | split
    | dsimp only

theorem Device.inState_modLp {s : Device} (g : ℕ) (f : Loop → Loop) (hs : s.InState pk) :
    (Device.modLp s g f).InState pk := by
  unfold Device.modLp
  repeat' first
    | with_reducible assumption
    | with_reducible apply Device.inState_modCh
    | intro _
    | split
    | dsimp only

theorem Device.inState_modAcir {s : Device} (g : ℕ) (f : Acir → Acir) (hs : s.InState pk) :
    (Device.modAcir s g f).InState pk := by
  unfold Device.modAcir
  repeat' first
    | with_reducible assumption
    | with_reducible apply Device.inState_modCh
    | intro _
    | split
    | dsimp only

theorem Device.inState_setTime {s : Device} (frame : ℕ) (clk : ℕ) (hs : s.InState pk) :
    (Device.setTime s frame clk).InState pk := by
  unfold Device.setTime
  repeat' first
    | with_reducible assumption
    | with_reducible apply Device.inState_mk
    | with_reducible apply Device.InState.word
    | intro _
    | split
    | dsimp only

theorem Device.inState_modLease {s : Device} (g : ℕ) (f : Lease → Lease) (hs : s.InState pk) :
    (Device.modLease s g f).InState pk := by
  unfold Device.modLease
  repeat' first
    | with_reducible assumption
    | with_reducible apply Device.inState_modCh
    | intro _
    | split
    | dsimp only

theorem inState_publishDies {s : Device} (hs : s.InState pk) :
    (publishDies s).InState pk := by
  unfold publishDies
  repeat' first
    | with_reducible assumption
    | with_reducible apply Device.inState_dset
    | with_reducible refine Device.inState_pset _ _ ?_ ?_
    | with_reducible exact Fld.free_at _ (by decide)
    | (with_reducible show Fld.Free _; decide)
    | with_reducible apply Device.inState_ite
    | with_reducible apply Device.inState_each
    | intro _
    | split
    | dsimp only

theorem Device.inState_modSar {s : Device} (d : ℕ) (f : Sar → Sar) (hs : s.InState pk) :
    (Device.modSar s d f).InState pk := by
  unfold Device.modSar
  repeat' first
    | with_reducible assumption
    | with_reducible apply Device.inState_modDie
    | intro _
    | split
    | dsimp only

theorem Device.inState_modSnap {s : Device} (f : Snap → Snap) (hs : s.InState pk) :
    (Device.modSnap s f).InState pk := by
  unfold Device.modSnap
  repeat' first
    | with_reducible assumption
    | with_reducible apply Device.inState_mk
    | with_reducible apply Device.InState.word
    | intro _
    | split
    | dsimp only

theorem Device.inState_cforce {s : Device} (g : ℕ) (off : ℕ) (hs : s.InState pk) :
    (Device.cforce s g off).InState pk := by
  unfold Device.cforce
  repeat' first
    | with_reducible assumption
    | with_reducible apply Device.inState_setFrc
    | intro _
    | split
    | dsimp only

theorem Device.inState_setBanks {s : Device} (l : List (Option ℕ)) (hs : s.InState pk) :
    (Device.setBanks s l).InState pk := by
  unfold Device.setBanks
  repeat' first
    | with_reducible assumption
    | with_reducible apply Device.inState_mk
    | with_reducible apply Device.InState.word
    | intro _
    | split
    | dsimp only

theorem Device.inState_setGrants {s : Device} (l : List (ℕ × ℕ)) (hs : s.InState pk) :
    (Device.setGrants s l).InState pk := by
  unfold Device.setGrants
  repeat' first
    | with_reducible assumption
    | with_reducible apply Device.inState_mk
    | with_reducible apply Device.InState.word
    | intro _
    | split
    | dsimp only

theorem Device.inState_modPins {s : Device} (f : Pins → Pins) (hs : s.InState pk) :
    (Device.modPins s f).InState pk := by
  unfold Device.modPins
  repeat' first
    | with_reducible assumption
    | with_reducible apply Device.inState_mk
    | with_reducible apply Device.InState.word
    | intro _
    | split
    | dsimp only

theorem Device.inState_modEng {s : Device} (g : ℕ) (f : Eng → Eng) (hs : s.InState pk) :
    (Device.modEng s g f).InState pk := by
  unfold Device.modEng
  repeat' first
    | with_reducible assumption
    | with_reducible apply Device.inState_modCh
    | intro _
    | split
    | dsimp only

theorem Device.inState_setBusW1c {s : Device} (w : Sys2Proof.Word) (hs : s.InState pk) :
    (Device.setBusW1c s w).InState pk := by
  unfold Device.setBusW1c
  repeat' first
    | with_reducible assumption
    | with_reducible apply Device.inState_mk
    | with_reducible apply Device.InState.word
    | intro _
    | split
    | dsimp only

theorem Device.inState_setBcast {s : Device} (l : List Bcast) (hs : s.InState pk) :
    (Device.setBcast s l).InState pk := by
  unfold Device.setBcast
  repeat' first
    | with_reducible assumption
    | with_reducible apply Device.inState_mk
    | with_reducible apply Device.InState.word
    | intro _
    | split
    | dsimp only

/-! LineAngle. -/

theorem inState_setLineState (st : ℕ) {s : Device} (hs : s.InState pk) :
    (setLineState st s).InState pk := by
  unfold setLineState
  repeat' first
    | with_reducible assumption
    | with_reducible refine Device.inState_pset _ _ ?_ ?_
    | with_reducible exact Fld.free_at _ (by decide)
    | (with_reducible show Fld.Free _; decide)
    | with_reducible apply Device.inState_ite
    | intro _
    | split
    | dsimp only

theorem inState_qualifiedEdge (t : ℕ) {s : Device} (hs : s.InState pk) :
    (qualifiedEdge t s).InState pk := by
  unfold qualifiedEdge
  repeat' first
    | with_reducible assumption
    | with_reducible apply inState_logEvent
    | with_reducible apply Device.inState_nextFree
    | with_reducible apply inState_setLineState
    | with_reducible apply inState_setCat
    | with_reducible refine Device.inState_setReg _ _ ?_ ?_
    | with_reducible refine Device.inState_pset _ _ ?_ ?_
    | with_reducible exact Fld.free_at _ (by decide)
    | (with_reducible show Fld.Free _; decide)
    | with_reducible exact chAddr_ne _ _
    | with_reducible exact dieAddr_ne _ _
    | (with_reducible show _ ≠ 2; omega)
    | with_reducible apply Device.inState_ite
    | with_reducible apply Device.inState_mk
    | with_reducible apply Device.InState.word
    | intro _
    | split
    | dsimp only

theorem inState_lineClock {s : Device} (hs : s.InState pk) :
    (lineClock s).InState pk := by
  unfold lineClock
  repeat' first
    | with_reducible assumption
    | with_reducible apply Device.inState_modLine
    | with_reducible refine Device.inState_setReg _ _ ?_ ?_
    | with_reducible exact chAddr_ne _ _
    | with_reducible exact dieAddr_ne _ _
    | (with_reducible show _ ≠ 2; omega)
    | with_reducible apply Device.inState_ite
    | intro _
    | split
    | dsimp only

theorem inState_lineBoundary {s : Device} (hs : s.InState pk) :
    (lineBoundary s).InState pk := by
  unfold lineBoundary
  repeat' first
    | with_reducible assumption
    | with_reducible apply Device.inState_pforce
    | with_reducible apply Device.inState_setFrc
    | with_reducible refine Device.inState_pset _ _ ?_ ?_
    | with_reducible exact Fld.free_at _ (by decide)
    | (with_reducible show Fld.Free _; decide)
    | with_reducible apply Device.inState_ite
    | with_reducible apply Device.inState_mk
    | with_reducible apply Device.InState.word
    | intro _
    | split
    | dsimp only

theorem inState_clrRej (data : Sys2Proof.Word) {s : Device} (hs : s.InState pk) :
    (clrRej data s).InState pk := by
  unfold clrRej
  repeat' first
    | with_reducible assumption
    | with_reducible refine Device.inState_setReg _ _ ?_ ?_
    | with_reducible exact chAddr_ne _ _
    | with_reducible exact dieAddr_ne _ _
    | (with_reducible show _ ≠ 2; omega)
    | with_reducible apply Device.inState_ite
    | intro _
    | split
    | dsimp only

theorem inState_lineStart {s : Device} (hs : s.InState pk) :
    (lineStart s).InState pk := by
  unfold lineStart
  repeat' first
    | with_reducible assumption
    | with_reducible apply Device.inState_mk
    | with_reducible apply Device.InState.word
    | intro _
    | split
    | dsimp only

theorem inState_enterHoldover {s : Device} (hs : s.InState pk) :
    (enterHoldover s).InState pk := by
  unfold enterHoldover
  repeat' first
    | with_reducible assumption
    | with_reducible apply inState_setLineState
    | with_reducible apply Device.inState_modLine
    | with_reducible apply inState_logEvent
    | with_reducible refine Device.inState_pset _ _ ?_ ?_
    | with_reducible refine Device.inState_setReg _ _ ?_ ?_
    | with_reducible exact Fld.free_at _ (by decide)
    | (with_reducible show Fld.Free _; decide)
    | with_reducible exact chAddr_ne _ _
    | with_reducible exact dieAddr_ne _ _
    | (with_reducible show _ ≠ 2; omega)
    | intro _
    | split
    | dsimp only

theorem inState_lineCfgWrite (r : Sys2Proof.LineReg) (data : Sys2Proof.Word) {s : Device} (hs : s.InState pk) :
    (lineCfgWrite r data s).InState pk := by
  unfold lineCfgWrite
  repeat' first
    | with_reducible assumption
    | with_reducible refine Device.inState_setReg _ _ ?_ ?_
    | with_reducible exact chAddr_ne _ _
    | with_reducible exact dieAddr_ne _ _
    | (with_reducible show _ ≠ 2; omega)
    | with_reducible apply Device.inState_ite
    | intro _
    | split
    | dsimp only

theorem inState_lineTimeout {s : Device} (hs : s.InState pk) :
    (lineTimeout s).InState pk := by
  unfold lineTimeout
  repeat' first
    | with_reducible assumption
    | with_reducible apply inState_enterHoldover
    | with_reducible apply inState_setLineState
    | with_reducible apply Device.inState_modLine
    | with_reducible apply Device.inState_ite
    | intro _
    | split
    | dsimp only

theorem inState_candidateEdge (t : ℕ) {s : Device} (hs : s.InState pk) :
    (candidateEdge t s).InState pk := by
  unfold candidateEdge
  repeat' first
    | with_reducible assumption
    | with_reducible apply inState_qualifiedEdge
    | with_reducible refine Device.inState_pinc _ ?_ ?_
    | with_reducible exact Fld.free_at _ (by decide)
    | (with_reducible show Fld.Free _; decide)
    | with_reducible apply Device.inState_ite
    | with_reducible apply Device.inState_mk
    | with_reducible apply Device.InState.word
    | intro _
    | split
    | dsimp only

theorem inState_lsyncEdge (tick : ℕ) (run : ℕ) (rising : Bool) {s : Device} (hs : s.InState pk) :
    (lsyncEdge tick run rising s).InState pk := by
  unfold lsyncEdge
  repeat' first
    | with_reducible assumption
    | with_reducible apply Device.inState_modLine
    | with_reducible apply inState_candidateEdge
    | with_reducible refine Device.inState_pinc _ ?_ ?_
    | with_reducible exact Fld.free_at _ (by decide)
    | (with_reducible show Fld.Free _; decide)
    | with_reducible apply Device.inState_ite
    | intro _
    | split
    | dsimp only

/-! Accum. -/

theorem inState_constLoad (g : ℕ) {s : Device} (hs : s.InState pk) :
    (constLoad g s).InState pk := by
  unfold constLoad
  repeat' first
    | with_reducible assumption
    | with_reducible apply Device.inState_cset
    | with_reducible refine Device.inState_setReg _ _ ?_ ?_
    | with_reducible exact chAddr_ne _ _
    | with_reducible exact dieAddr_ne _ _
    | (with_reducible show _ ≠ 2; omega)
    | with_reducible apply Device.inState_ite
    | intro _
    | split
    | dsimp only

theorem inState_closeEpoch (causes : ℕ) (g : ℕ) {s : Device} (hs : s.InState pk) :
    (closeEpoch causes g s).InState pk := by
  unfold closeEpoch
  repeat' first
    | with_reducible assumption
    | with_reducible apply Device.inState_modConv
    | with_reducible apply Device.inState_cset
    | with_reducible apply Device.inState_modCh
    | with_reducible apply Device.inState_ite
    | intro _
    | split
    | dsimp only

theorem inState_takeConsts (k : Const × Const × Const) (g : ℕ) {s : Device} (hs : s.InState pk) :
    (takeConsts k g s).InState pk := by
  unfold takeConsts
  repeat' first
    | with_reducible assumption
    | with_reducible apply Device.inState_modConv
    | with_reducible apply Device.inState_cset
    | with_reducible apply Device.inState_ite
    | intro _
    | split
    | dsimp only

theorem inState_updateConsts (causes : ℕ) (always : Bool) (g : ℕ) {s : Device} (hs : s.InState pk) :
    (updateConsts causes always g s).InState pk := by
  unfold updateConsts
  repeat' first
    | with_reducible assumption
    | with_reducible apply inState_closeEpoch
    | with_reducible apply inState_takeConsts
    | with_reducible apply Device.inState_ite
    | intro _
    | split
    | dsimp only

theorem inState_tcrWritten (g : ℕ) {s : Device} (hs : s.InState pk) :
    (tcrWritten g s).InState pk := by
  unfold tcrWritten
  repeat' first
    | with_reducible assumption
    | with_reducible apply Device.inState_modDue
    | with_reducible apply Device.inState_cforce
    | with_reducible apply inState_updateConsts
    | with_reducible apply Device.inState_modConv
    | with_reducible apply Device.inState_ite
    | intro _
    | split
    | dsimp only

theorem inState_tcrUpdateCh (g : ℕ) {s : Device} (hs : s.InState pk) :
    (tcrUpdateCh g s).InState pk := by
  unfold tcrUpdateCh
  repeat' first
    | with_reducible assumption
    | with_reducible apply inState_updateConsts
    | with_reducible apply Device.inState_modConv
    | with_reducible apply Device.inState_ite
    | intro _
    | split
    | dsimp only

theorem inState_tcrUpdate {s : Device} (hs : s.InState pk) :
    (tcrUpdate s).InState pk := by
  unfold tcrUpdate
  repeat' first
    | with_reducible assumption
    | with_reducible apply inState_tcrUpdateCh
    | with_reducible apply Device.inState_ite
    | with_reducible apply Device.inState_each
    | intro _
    | split
    | dsimp only

theorem inState_resetLive (base : List Sys2Proof.Word) (g : ℕ) {s : Device} (hs : s.InState pk) :
    (resetLive base g s).InState pk := by
  unfold resetLive
  repeat' first
    | with_reducible assumption
    | with_reducible apply Device.inState_modConv
    | with_reducible refine Device.inState_setReg _ _ ?_ ?_
    | with_reducible exact chAddr_ne _ _
    | with_reducible exact dieAddr_ne _ _
    | (with_reducible show _ ≠ 2; omega)
    | intro _
    | split
    | dsimp only

theorem inState_baseReset (g : ℕ) {s : Device} (hs : s.InState pk) :
    (baseReset g s).InState pk := by
  unfold baseReset
  repeat' first
    | with_reducible assumption
    | with_reducible apply inState_resetLive
    | with_reducible apply Device.inState_ite
    | intro _
    | split
    | dsimp only

theorem inState_accClear (g : ℕ) (data : Sys2Proof.Word) {s : Device} (hs : s.InState pk) :
    (accClear g data s).InState pk := by
  unfold accClear
  repeat' first
    | with_reducible assumption
    | with_reducible apply Device.inState_modDue
    | with_reducible apply Device.inState_ite
    | intro _
    | split
    | dsimp only

theorem inState_constAct (cause : ℕ) (f : ℕ → Device → Device) (g : ℕ) {s : Device} (c : ℕ) (hf : ∀ y0 y1, y1.InState pk → (f y0 y1).InState pk) (hs : s.InState pk) :
    (constAct cause f g s c).1.InState pk := by
  unfold constAct
  repeat' first
    | with_reducible assumption
    | with_reducible apply hf
    | with_reducible apply Device.inState_ite
    | intro _
    | split
    | dsimp only

theorem inState_showDrift (g : ℕ) {s : Device} (hs : s.InState pk) :
    (showDrift g s).InState pk := by
  unfold showDrift
  repeat' first
    | with_reducible assumption
    | with_reducible apply Device.inState_dset
    | with_reducible apply Device.inState_ite
    | intro _
    | split
    | dsimp only

theorem inState_constClose (g : ℕ) {s : Device} (c : ℕ) (hs : s.InState pk) :
    (constClose g s c).InState pk := by
  unfold constClose
  repeat' first
    | with_reducible assumption
    | with_reducible apply inState_closeEpoch
    | with_reducible apply inState_takeConsts
    | with_reducible apply Device.inState_ite
    | intro _
    | split
    | dsimp only

theorem inState_calNote (off : ℕ) (w : Sys2Proof.Word) (g : ℕ) {s : Device} (hs : s.InState pk) :
    (calNote off w g s).InState pk := by
  unfold calNote
  repeat' first
    | with_reducible assumption
    | with_reducible apply Device.inState_modDue
    | with_reducible apply Device.inState_ite
    | intro _
    | split
    | dsimp only

theorem inState_boardWrite (off : ℕ) (w : Sys2Proof.Word) (g : ℕ) {s : Device} (hs : s.InState pk) :
    (boardWrite off w g s).InState pk := by
  unfold boardWrite
  repeat' first
    | with_reducible assumption
    | with_reducible apply inState_calNote
    | with_reducible refine Device.inState_setReg _ _ ?_ ?_
    | with_reducible exact chAddr_ne _ _
    | with_reducible exact dieAddr_ne _ _
    | (with_reducible show _ ≠ 2; omega)
    | intro _
    | split
    | dsimp only

theorem inState_offsetWrite (g : ℕ) (volt : Bool) (data : Sys2Proof.Word) {s : Device} (hs : s.InState pk) :
    (offsetWrite g volt data s).InState pk := by
  unfold offsetWrite
  repeat' first
    | with_reducible assumption
    | with_reducible apply inState_boardWrite
    | with_reducible apply Device.inState_ite
    | intro _
    | split
    | dsimp only

theorem inState_clearNow (g : ℕ) {s : Device} (hs : s.InState pk) :
    (clearNow g s).InState pk := by
  unfold clearNow
  repeat' first
    | with_reducible assumption
    | with_reducible apply inState_closeEpoch
    | with_reducible apply Device.inState_cset
    | with_reducible apply Device.inState_modCh
    | with_reducible apply inState_logEvent
    | with_reducible apply Device.inState_ite
    | intro _
    | split
    | dsimp only

theorem inState_clearDir (g : ℕ) {s : Device} (hs : s.InState pk) :
    (clearDir g s).InState pk := by
  unfold clearDir
  repeat' first
    | with_reducible assumption
    | with_reducible apply Device.inState_modAcc
    | intro _
    | split
    | dsimp only

theorem inState_clearBoundary (g : ℕ) {s : Device} (hs : s.InState pk) :
    (clearBoundary g s).InState pk := by
  unfold clearBoundary
  repeat' first
    | with_reducible assumption
    | with_reducible apply inState_clearNow
    | with_reducible apply Device.inState_cforce
    | with_reducible apply inState_clearDir
    | with_reducible apply Device.inState_ite
    | intro _
    | split
    | dsimp only

theorem inState_baselineWrite (g : ℕ) (r : Sys2Proof.BaseReg) (data : Sys2Proof.Word) {s : Device} (hs : s.InState pk) :
    (baselineWrite g r data s).InState pk := by
  unfold baselineWrite
  repeat' first
    | with_reducible assumption
    | with_reducible apply inState_boardWrite
    | intro _
    | split
    | dsimp only

theorem inState_forceConsts (g : ℕ) {s : Device} (hs : s.InState pk) :
    (forceConsts g s).InState pk := by
  unfold forceConsts
  repeat' first
    | with_reducible assumption
    | with_reducible apply Device.inState_cforce
    | with_reducible apply Device.inState_each
    | intro _
    | split
    | dsimp only

theorem inState_startConsts (g : ℕ) {s : Device} (hs : s.InState pk) :
    (startConsts g s).InState pk := by
  unfold startConsts
  repeat' first
    | with_reducible assumption
    | with_reducible apply inState_forceConsts
    | with_reducible apply Device.inState_cforce
    | with_reducible apply inState_baseReset
    | intro _
    | split
    | dsimp only

theorem inState_rangeConsts (low : Bool) (g : ℕ) {s : Device} (hs : s.InState pk) :
    (rangeConsts low g s).InState pk := by
  unfold rangeConsts
  repeat' first
    | with_reducible assumption
    | with_reducible apply inState_updateConsts
    | with_reducible apply inState_showDrift
    | with_reducible apply inState_clearDir
    | with_reducible apply Device.inState_cset
    | with_reducible apply Device.inState_ite
    | intro _
    | split
    | dsimp only

theorem inState_bookFrame (g : ℕ) {s : Device} (hs : s.InState pk) :
    (bookFrame g s).InState pk := by
  unfold bookFrame
  repeat' first
    | with_reducible assumption
    | with_reducible apply Device.inState_modCh
    | with_reducible apply Device.inState_nextFree
    | with_reducible apply Device.inState_cset
    | with_reducible refine Device.inState_setReg _ _ ?_ ?_
    | with_reducible exact chAddr_ne _ _
    | with_reducible exact dieAddr_ne _ _
    | (with_reducible show _ ≠ 2; omega)
    | with_reducible apply Device.inState_ite
    | intro _
    | split
    | dsimp only

theorem inState_bookPartial (d : ℕ) {s : Device} (hs : s.InState pk) :
    (bookPartial d s).InState pk := by
  unfold bookPartial
  repeat' first
    | with_reducible assumption
    | with_reducible apply Device.inState_modAcc
    | with_reducible apply Device.inState_nextFree
    | with_reducible apply Device.inState_cset
    | with_reducible apply Device.inState_modDie
    | with_reducible apply Device.inState_ite
    | with_reducible apply Device.inState_each
    | intro _
    | split
    | dsimp only

theorem inState_constantWrite (g : ℕ) (r : Sys2Proof.KReg) (data : Sys2Proof.Word) {s : Device} (hs : s.InState pk) :
    (constantWrite g r data s).InState pk := by
  unfold constantWrite
  repeat' first
    | with_reducible assumption
    | with_reducible apply inState_boardWrite
    | with_reducible apply Device.inState_cset
    | with_reducible refine Device.inState_setReg _ _ ?_ ?_
    | with_reducible exact chAddr_ne _ _
    | with_reducible exact dieAddr_ne _ _
    | (with_reducible show _ ≠ 2; omega)
    | with_reducible apply Device.inState_ite
    | intro _
    | split
    | dsimp only

theorem inState_tcrCfgWrite (g : ℕ) (data : Sys2Proof.Word) {s : Device} (hs : s.InState pk) :
    (tcrCfgWrite g data s).InState pk := by
  unfold tcrCfgWrite
  repeat' first
    | with_reducible assumption
    | with_reducible apply Device.inState_modDue
    | with_reducible refine Device.inState_setReg _ _ ?_ ?_
    | with_reducible exact chAddr_ne _ _
    | with_reducible exact dieAddr_ne _ _
    | (with_reducible show _ ≠ 2; omega)
    | intro _
    | split
    | dsimp only

/-! Flags. -/

theorem inState_setOverload (volt : Bool) (g : ℕ) {s : Device} (hs : s.InState pk) :
    (setOverload volt g s).InState pk := by
  unfold setOverload
  repeat' first
    | with_reducible assumption
    | with_reducible apply Device.inState_cset
    | with_reducible apply inState_logEvent
    | with_reducible apply Device.inState_ite
    | intro _
    | split
    | dsimp only

theorem inState_takeFirst (code : ℕ) (g : ℕ) (was : ℕ) {s : Device} (hs : s.InState pk) :
    (takeFirst code g was s).InState pk := by
  unfold takeFirst
  repeat' first
    | with_reducible assumption
    | with_reducible apply Device.inState_modLp
    | with_reducible apply Device.inState_cset
    | with_reducible apply Device.inState_ite
    | intro _
    | split
    | dsimp only

theorem inState_clearChFault (mask : ℕ) (g : ℕ) {s : Device} (hs : s.InState pk) :
    (clearChFault mask g s).InState pk := by
  unfold clearChFault
  repeat' first
    | with_reducible assumption
    | with_reducible apply Device.inState_cset
    | with_reducible refine Device.inState_setReg _ _ ?_ ?_
    | with_reducible exact chAddr_ne _ _
    | with_reducible exact dieAddr_ne _ _
    | (with_reducible show _ ≠ 2; omega)
    | with_reducible apply Device.inState_ite
    | intro _
    | split
    | dsimp only

theorem inState_idleFlags (g : ℕ) {s : Device} (hs : s.InState pk) :
    (idleFlags g s).InState pk := by
  unfold idleFlags
  repeat' first
    | with_reducible assumption
    | with_reducible apply Device.inState_cset
    | with_reducible refine Device.inState_setReg _ _ ?_ ?_
    | with_reducible exact chAddr_ne _ _
    | with_reducible exact dieAddr_ne _ _
    | (with_reducible show _ ≠ 2; omega)
    | intro _
    | split
    | dsimp only

theorem inState_setChFault (bit : ℕ) (g : ℕ) {s : Device} (hs : s.InState pk) :
    (setChFault bit g s).InState pk := by
  unfold setChFault
  repeat' first
    | with_reducible assumption
    | with_reducible apply inState_takeFirst
    | with_reducible apply inState_logEvent
    | with_reducible refine Device.inState_setReg _ _ ?_ ?_
    | with_reducible exact chAddr_ne _ _
    | with_reducible exact dieAddr_ne _ _
    | (with_reducible show _ ≠ 2; omega)
    | with_reducible apply Device.inState_ite
    | intro _
    | split
    | dsimp only

/-! Operands. -/



/-! Sense. -/

theorem inState_benchFast (d : ℕ) {s : Device} (hs : s.InState pk) :
    (benchFast d s).2.InState pk := by
  unfold benchFast
  repeat' first
    | with_reducible assumption
    | with_reducible apply Device.inState_modBench
    | intro _
    | split
    | dsimp only

theorem inState_writeRange (low : Bool) (g : ℕ) {s : Device} (hs : s.InState pk) :
    (writeRange low g s).InState pk := by
  unfold writeRange
  repeat' first
    | with_reducible assumption
    | with_reducible apply Device.inState_modDue
    | with_reducible apply Device.inState_cset
    | with_reducible apply Device.inState_ite
    | intro _
    | split
    | dsimp only

theorem inState_fastChannel (bq : ℤ × ℤ) (g : ℕ) {s : Device} (hs : s.InState pk) :
    (fastChannel bq g s).InState pk := by
  unfold fastChannel
  repeat' first
    | with_reducible assumption
    | with_reducible apply Device.inState_spend
    | with_reducible apply Device.inState_modCh
    | with_reducible refine Device.inState_setReg _ _ ?_ ?_
    | with_reducible exact chAddr_ne _ _
    | with_reducible exact dieAddr_ne _ _
    | (with_reducible show _ ≠ 2; omega)
    | with_reducible apply Device.inState_ite
    | intro _
    | split
    | dsimp only

theorem inState_precChannel (bq : ℤ × ℤ) (g : ℕ) {s : Device} (hs : s.InState pk) :
    (precChannel bq g s).InState pk := by
  unfold precChannel
  repeat' first
    | with_reducible assumption
    | with_reducible apply Device.inState_modCh
    | with_reducible refine Device.inState_setReg _ _ ?_ ?_
    | with_reducible exact chAddr_ne _ _
    | with_reducible exact dieAddr_ne _ _
    | (with_reducible show _ ≠ 2; omega)
    | with_reducible apply Device.inState_ite
    | with_reducible apply Device.inState_mk
    | with_reducible apply Device.InState.word
    | intro _
    | split
    | dsimp only

theorem inState_benchPrec (d : ℕ) {s : Device} (hs : s.InState pk) :
    (benchPrec d s).2.InState pk := by
  unfold benchPrec
  repeat' first
    | with_reducible assumption
    | with_reducible apply Device.inState_modBench
    | intro _
    | split
    | dsimp only

theorem inState_precDie (d : ℕ) {s : Device} (hs : s.InState pk) :
    (precDie d s).InState pk := by
  unfold precDie
  repeat' first
    | with_reducible assumption
    | with_reducible apply inState_precChannel
    | (refine Device.inState_snd (by with_reducible assumption) ?_; with_reducible apply inState_benchPrec)
    | with_reducible apply inState_benchPrec
    | with_reducible apply Device.inState_ite
    | with_reducible apply Device.inState_each
    | intro _
    | split
    | dsimp only

/-! Bench. -/

theorem inState_setPhase (p : ℕ) (d : ℕ) {s : Device} (hs : s.InState pk) :
    (setPhase p d s).InState pk := by
  unfold setPhase
  repeat' first
    | with_reducible assumption
    | with_reducible apply Device.inState_dset
    | intro _
    | split
    | dsimp only

theorem inState_benchBaton (on : Bool) (d : ℕ) {s : Device} (hs : s.InState pk) :
    (benchBaton on d s).InState pk := by
  unfold benchBaton
  repeat' first
    | with_reducible assumption
    | with_reducible refine Device.inState_psetBit _ _ _ ?_ ?_
    | with_reducible exact Fld.free_at _ (by decide)
    | (with_reducible show Fld.Free _; decide)
    | intro _
    | split
    | dsimp only

theorem inState_endVisit (d : ℕ) {s : Device} (hs : s.InState pk) :
    (endVisit d s).InState pk := by
  unfold endVisit
  repeat' first
    | with_reducible assumption
    | with_reducible apply Device.inState_dset
    | with_reducible apply inState_setPhase
    | with_reducible apply inState_benchBaton
    | with_reducible apply Device.inState_modBench
    | intro _
    | split
    | dsimp only

theorem inState_selfcalEnd (d : ℕ) (res : Sys2Proof.PairCal) {s : Device} (hs : s.InState pk) :
    (selfcalEnd d res s).InState pk := by
  unfold selfcalEnd
  repeat' first
    | with_reducible assumption
    | with_reducible apply inState_endVisit
    | with_reducible apply Device.inState_dset
    | with_reducible apply inState_logEvent
    | with_reducible apply Device.inState_modBench
    | with_reducible apply Device.inState_nextFree
    | with_reducible apply inState_setPhase
    | with_reducible refine Device.inState_setReg _ _ ?_ ?_
    | with_reducible exact chAddr_ne _ _
    | with_reducible exact dieAddr_ne _ _
    | (with_reducible show _ ≠ 2; omega)
    | with_reducible apply Device.inState_ite
    | intro _
    | split
    | dsimp only

theorem inState_visitStart (d : ℕ) {s : Device} (hs : s.InState pk) :
    (visitStart d s).InState pk := by
  unfold visitStart
  repeat' first
    | with_reducible assumption
    | with_reducible apply Device.inState_dforce
    | with_reducible apply Device.inState_modBench
    | with_reducible apply inState_benchBaton
    | with_reducible apply Device.inState_dset
    | with_reducible apply inState_setPhase
    | with_reducible apply Device.inState_ite
    | intro _
    | split
    | dsimp only

theorem inState_takeover (d : ℕ) {s : Device} (hs : s.InState pk) :
    (takeover d s).InState pk := by
  unfold takeover
  repeat' first
    | with_reducible assumption
    | with_reducible apply Device.inState_dset
    | with_reducible apply Device.inState_modBench
    | with_reducible apply Device.inState_modConv
    | with_reducible apply inState_updateConsts
    | with_reducible apply Device.inState_cset
    | with_reducible apply inState_setPhase
    | with_reducible apply Device.inState_ite
    | intro _
    | split
    | dsimp only

theorem inState_dsetBit (d : ℕ) (f : Fld Blk.die) (c : ℕ) (on : Bool) {s : Device} (hs : s.InState pk) :
    (dsetBit d f c on s).InState pk := by
  unfold dsetBit
  repeat' first
    | with_reducible assumption
    | with_reducible apply Device.inState_dset
    | with_reducible apply Device.inState_ite
    | intro _
    | split
    | dsimp only

theorem inState_benchQueue (d : ℕ) (c : ℕ) {s : Device} (hs : s.InState pk) :
    (benchQueue d c s).InState pk := by
  unfold benchQueue
  repeat' first
    | with_reducible assumption
    | with_reducible apply Device.inState_modBench
    | intro _
    | split
    | dsimp only

theorem inState_lastOfs (g : ℕ) {s : Device} (hs : s.InState pk) :
    (lastOfs g s).InState pk := by
  unfold lastOfs
  repeat' first
    | with_reducible assumption
    | with_reducible apply Device.inState_dset
    | with_reducible apply Device.inState_ite
    | intro _
    | split
    | dsimp only

theorem inState_releaseCarrier (g : ℕ) {s : Device} (hs : s.InState pk) :
    (releaseCarrier g s).InState pk := by
  unfold releaseCarrier
  repeat' first
    | with_reducible assumption
    | with_reducible apply Device.inState_modConv
    | with_reducible apply inState_updateConsts
    | with_reducible apply Device.inState_cset
    | intro _
    | split
    | dsimp only

theorem inState_benchBoundary (d : ℕ) {s : Device} (hs : s.InState pk) :
    (benchBoundary d s).InState pk := by
  unfold benchBoundary
  repeat' first
    | with_reducible assumption
    | with_reducible apply inState_setPhase
    | with_reducible apply Device.inState_modBench
    | with_reducible apply inState_releaseCarrier
    | with_reducible apply inState_endVisit
    | with_reducible apply Device.inState_ite
    | intro _
    | split
    | dsimp only

theorem inState_applyDrift (k : ℕ) (x : Drift) (g : ℕ) {s : Device} (hs : s.InState pk) :
    (applyDrift k x g s).InState pk := by
  unfold applyDrift
  repeat' first
    | with_reducible assumption
    | with_reducible apply Device.inState_modConv
    | intro _
    | split
    | dsimp only

theorem inState_benchMismatch (volt : Bool) (g : ℕ) (dd : ℤ) {s : Device} (hs : s.InState pk) :
    (benchMismatch volt g dd s).InState pk := by
  unfold benchMismatch
  repeat' first
    | with_reducible assumption
    | with_reducible apply inState_dsetBit
    | with_reducible apply Device.inState_dset
    | with_reducible apply inState_logEvent
    | with_reducible apply Device.inState_ite
    | intro _
    | split
    | dsimp only

theorem inState_handback (d : ℕ) (res : Sys2Proof.PairCal) {s : Device} (hs : s.InState pk) :
    (handback d res s).InState pk := by
  unfold handback
  repeat' first
    | with_reducible assumption
    | with_reducible apply inState_applyDrift
    | with_reducible apply inState_benchMismatch
    | with_reducible apply inState_dsetBit
    | with_reducible apply inState_lastOfs
    | with_reducible apply inState_showDrift
    | with_reducible apply Device.inState_dset
    | with_reducible apply Device.inState_modConv
    | with_reducible apply Device.inState_modBench
    | with_reducible apply inState_endVisit
    | with_reducible apply inState_releaseCarrier
    | with_reducible apply Device.inState_ite
    | intro _
    | split
    | dsimp only

theorem inState_benchHold (q : ℤ) (d : ℕ) {s : Device} (hs : s.InState pk) :
    (benchHold q d s).InState pk := by
  unfold benchHold
  repeat' first
    | with_reducible assumption
    | with_reducible apply Device.inState_modBench
    | with_reducible apply Device.inState_ite
    | intro _
    | split
    | dsimp only

theorem inState_benchAbort (d : ℕ) {s : Device} (hs : s.InState pk) :
    (benchAbort d s).InState pk := by
  unfold benchAbort
  repeat' first
    | with_reducible assumption
    | with_reducible apply Device.inState_dset
    | with_reducible apply inState_setPhase
    | with_reducible apply Device.inState_modBench
    | with_reducible apply Device.inState_ite
    | intro _
    | split
    | dsimp only

theorem inState_benchBatonExpiry (d : ℕ) {s : Device} (hs : s.InState pk) :
    (benchBatonExpiry d s).InState pk := by
  unfold benchBatonExpiry
  repeat' first
    | with_reducible assumption
    | with_reducible apply inState_logEvent
    | with_reducible apply inState_benchBaton
    | with_reducible apply inState_benchAbort
    | with_reducible refine Device.inState_pset _ _ ?_ ?_
    | with_reducible exact Fld.free_at _ (by decide)
    | (with_reducible show Fld.Free _; decide)
    | with_reducible apply Device.inState_ite
    | intro _
    | split
    | dsimp only

theorem inState_benchForce (d : ℕ) (c : ℕ) {s : Device} (hs : s.InState pk) :
    (benchForce d c s).InState pk := by
  unfold benchForce
  repeat' first
    | with_reducible assumption
    | with_reducible apply inState_benchAbort
    | with_reducible apply Device.inState_modBench
    | intro _
    | split
    | dsimp only

theorem inState_benchConnect (d : ℕ) {s : Device} (hs : s.InState pk) :
    (benchConnect d s).InState pk := by
  unfold benchConnect
  repeat' first
    | with_reducible assumption
    | with_reducible apply inState_setPhase
    | with_reducible apply Device.inState_ite
    | intro _
    | split
    | dsimp only

theorem inState_seedingEnd (d : ℕ) (seeds : List Sys2Proof.PairCal) {s : Device} (hs : s.InState pk) :
    (seedingEnd d seeds s).InState pk := by
  unfold seedingEnd
  repeat' first
    | with_reducible assumption
    | with_reducible apply Device.inState_modDie
    | with_reducible apply Device.inState_modDue
    | with_reducible apply Device.inState_ite
    | with_reducible apply Device.inState_each
    | intro _
    | split
    | dsimp only

theorem inState_benchRange (g : ℕ) {s : Device} (hs : s.InState pk) :
    (benchRange g s).InState pk := by
  unfold benchRange
  repeat' first
    | with_reducible assumption
    | with_reducible apply Device.inState_modBench
    | with_reducible apply Device.inState_modConv
    | with_reducible apply Device.inState_ite
    | intro _
    | split
    | dsimp only

/-! StepBase. -/

theorem inState_bandFresh (g : ℕ) {s : Device} (hs : s.InState pk) :
    (bandFresh g s).InState pk := by
  unfold bandFresh
  repeat' first
    | with_reducible assumption
    | with_reducible apply Device.inState_modEng
    | with_reducible apply Device.inState_cset
    | with_reducible apply Device.inState_ite
    | intro _
    | split
    | dsimp only

theorem inState_traceWrite (typ : ℕ) (g : ℕ) (body : List Sys2Proof.Byte) {s : Device} (hs : s.InState pk) :
    (traceWrite typ g body s).InState pk := by
  unfold traceWrite
  repeat' first
    | with_reducible assumption
    | with_reducible apply Device.inState_modDie
    | with_reducible apply Device.inState_dset
    | with_reducible apply Device.inState_dinc
    | with_reducible apply Device.inState_ite
    | intro _
    | split
    | dsimp only

theorem inState_setEng (e : ℕ) (g : ℕ) {s : Device} (hs : s.InState pk) :
    (setEng e g s).InState pk := by
  unfold setEng
  repeat' first
    | with_reducible assumption
    | with_reducible apply Device.inState_cset
    | intro _
    | split
    | dsimp only

theorem inState_bandBoundary (g : ℕ) {s : Device} (hs : s.InState pk) :
    (bandBoundary g s).InState pk := by
  unfold bandBoundary
  repeat' first
    | with_reducible assumption
    | with_reducible apply Device.inState_cset
    | with_reducible apply Device.inState_nextFree
    | with_reducible apply Device.inState_modEng
    | with_reducible apply inState_bandFresh
    | with_reducible apply Device.inState_ite
    | intro _
    | split
    | dsimp only

theorem inState_ckptRequest (cause : ℕ) {s : Device} (hs : s.InState pk) :
    (ckptRequest cause s).InState pk := by
  unfold ckptRequest
  repeat' first
    | with_reducible assumption
    | with_reducible apply Device.inState_modNvm
    | with_reducible refine Device.inState_pset _ _ ?_ ?_
    | with_reducible exact Fld.free_at _ (by decide)
    | (with_reducible show Fld.Free _; decide)
    | with_reducible apply Device.inState_ite
    | intro _
    | split
    | dsimp only

theorem inState_traceEvent (ev : ℕ) (cause : ℕ) (data : ℕ) (g : ℕ) {s : Device} (hs : s.InState pk) :
    (traceEvent ev cause data g s).InState pk := by
  unfold traceEvent
  repeat' first
    | with_reducible assumption
    | with_reducible apply inState_traceWrite
    | intro _
    | split
    | dsimp only

/-! AcirEngine. -/

theorem inState_dropHeld (g : ℕ) {s : Device} (hs : s.InState pk) :
    (dropHeld g s).InState pk := by
  unfold dropHeld
  repeat' first
    | with_reducible assumption
    | with_reducible apply Device.inState_cset
    | with_reducible apply Device.inState_modAcir
    | intro _
    | split
    | dsimp only

theorem inState_acirBook (g : ℕ) (a : Acir) (kq : Const) (kv : Const) {s : Device} (hs : s.InState pk) :
    (acirBook g a kq kv s).InState pk := by
  unfold acirBook
  repeat' first
    | with_reducible assumption
    | with_reducible apply Device.inState_modAcir
    | with_reducible apply Device.inState_ite
    | intro _
    | split
    | dsimp only

theorem inState_acirClrWrite (g : ℕ) (data : Sys2Proof.Word) {s : Device} (hs : s.InState pk) :
    (acirClrWrite g data s).InState pk := by
  unfold acirClrWrite
  repeat' first
    | with_reducible assumption
    | with_reducible apply Device.inState_modDue
    | with_reducible apply Device.inState_ite
    | intro _
    | split
    | dsimp only

theorem inState_acirIdle (g : ℕ) {s : Device} (hs : s.InState pk) :
    (acirIdle g s).InState pk := by
  unfold acirIdle
  repeat' first
    | with_reducible assumption
    | with_reducible apply Device.inState_cset
    | with_reducible apply Device.inState_modAcir
    | intro _
    | split
    | dsimp only

theorem inState_acirRecord (code : ℕ) (g : ℕ) {s : Device} (hs : s.InState pk) :
    (acirRecord code g s).InState pk := by
  unfold acirRecord
  repeat' first
    | with_reducible assumption
    | with_reducible apply inState_traceWrite
    | intro _
    | split
    | dsimp only

theorem inState_acirStepFails (code : ℕ) (g : ℕ) {s : Device} (hs : s.InState pk) :
    (acirStepFails code g s).InState pk := by
  unfold acirStepFails
  repeat' first
    | with_reducible assumption
    | with_reducible apply Device.inState_modEng
    | with_reducible apply inState_acirRecord
    | intro _
    | split
    | dsimp only

theorem inState_acirStepAborted (code : ℕ) (g : ℕ) {s : Device} (hs : s.InState pk) :
    (acirStepAborted code g s).InState pk := by
  unfold acirStepAborted
  repeat' first
    | with_reducible assumption
    | with_reducible apply Device.inState_modEng
    | with_reducible apply inState_acirStepFails
    | with_reducible apply Device.inState_ite
    | intro _
    | split
    | dsimp only

theorem inState_acirAbort (code : ℕ) (g : ℕ) {s : Device} (hs : s.InState pk) :
    (acirAbort code g s).InState pk := by
  unfold acirAbort
  repeat' first
    | with_reducible assumption
    | with_reducible apply Device.inState_cset
    | with_reducible apply Device.inState_modAcir
    | with_reducible apply inState_acirIdle
    | with_reducible apply inState_acirStepAborted
    | with_reducible apply Device.inState_ite
    | intro _
    | split
    | dsimp only

theorem inState_acirStepEnd (g : ℕ) {s : Device} (hs : s.InState pk) :
    (acirStepEnd g s).InState pk := by
  unfold acirStepEnd
  repeat' first
    | with_reducible assumption
    | with_reducible apply inState_acirAbort
    | with_reducible apply Device.inState_modAcir
    | with_reducible apply Device.inState_cset
    | with_reducible apply Device.inState_ite
    | intro _
    | split
    | dsimp only

theorem inState_acirBegin (p : AcirPar) (pt : ℕ) (g : ℕ) {s : Device} (hs : s.InState pk) :
    (acirBegin p pt g s).InState pk := by
  unfold acirBegin
  repeat' first
    | with_reducible assumption
    | with_reducible apply Device.inState_cset
    | with_reducible apply Device.inState_modAcir
    | intro _
    | split
    | dsimp only

theorem inState_acirMove (pt : ℕ) (g : ℕ) {s : Device} (hs : s.InState pk) :
    (acirMove pt g s).InState pk := by
  unfold acirMove
  repeat' first
    | with_reducible assumption
    | with_reducible apply Device.inState_modAcir
    | intro _
    | split
    | dsimp only

theorem inState_acirRefuse (code : ℕ) (p : AcirPar) (g : ℕ) {s : Device} (hs : s.InState pk) :
    (acirRefuse code p g s).InState pk := by
  unfold acirRefuse
  repeat' first
    | with_reducible assumption
    | with_reducible apply Device.inState_cset
    | with_reducible apply inState_acirStepFails
    | with_reducible apply Device.inState_ite
    | intro _
    | split
    | dsimp only

theorem inState_acirLeadin (g : ℕ) {s : Device} (hs : s.InState pk) :
    (acirLeadin g s).InState pk := by
  unfold acirLeadin
  repeat' first
    | with_reducible assumption
    | with_reducible apply inState_acirBegin
    | with_reducible apply inState_dropHeld
    | with_reducible apply inState_acirMove
    | with_reducible apply inState_acirRefuse
    | with_reducible apply inState_acirIdle
    | with_reducible apply Device.inState_ite
    | intro _
    | split
    | dsimp only

theorem inState_acirRequest (p : AcirPar) (g : ℕ) {s : Device} (hs : s.InState pk) :
    (acirRequest p g s).InState pk := by
  unfold acirRequest
  repeat' first
    | with_reducible assumption
    | with_reducible apply inState_acirRefuse
    | with_reducible apply Device.inState_cset
    | with_reducible apply Device.inState_modAcir
    | with_reducible apply inState_benchAbort
    | with_reducible apply Device.inState_ite
    | intro _
    | split
    | dsimp only

theorem inState_acirCtlWrite (g : ℕ) (data : Sys2Proof.Word) {s : Device} (hs : s.InState pk) :
    (acirCtlWrite g data s).InState pk := by
  unfold acirCtlWrite
  repeat' first
    | with_reducible assumption
    | with_reducible apply inState_acirRequest
    | with_reducible apply inState_acirAbort
    | with_reducible refine Device.inState_setReg _ _ ?_ ?_
    | with_reducible exact chAddr_ne _ _
    | with_reducible exact dieAddr_ne _ _
    | (with_reducible show _ ≠ 2; omega)
    | with_reducible apply Device.inState_ite
    | intro _
    | split
    | dsimp only

theorem inState_acirClip (g : ℕ) {s : Device} (hs : s.InState pk) :
    (acirClip g s).InState pk := by
  unfold acirClip
  repeat' first
    | with_reducible assumption
    | with_reducible apply Device.inState_modAcir
    | with_reducible apply Device.inState_ite
    | intro _
    | split
    | dsimp only

theorem inState_acirStopped (g : ℕ) {s : Device} (hs : s.InState pk) :
    (acirStopped g s).InState pk := by
  unfold acirStopped
  repeat' first
    | with_reducible assumption
    | with_reducible apply inState_acirAbort
    | with_reducible apply inState_acirIdle
    | with_reducible apply Device.inState_ite
    | intro _
    | split
    | dsimp only

theorem inState_acirPublish (g : ℕ) {s : Device} (hs : s.InState pk) :
    (acirPublish g s).InState pk := by
  unfold acirPublish
  repeat' first
    | with_reducible assumption
    | with_reducible refine Device.inState_setReg _ _ ?_ ?_
    | with_reducible exact chAddr_ne _ _
    | with_reducible exact dieAddr_ne _ _
    | (with_reducible show _ ≠ 2; omega)
    | with_reducible apply Device.inState_each
    | intro _
    | split
    | dsimp only

theorem inState_acirStat (g : ℕ) (a : Acir) (low : Bool) {s : Device} (hs : s.InState pk) :
    (acirStat g a low s).InState pk := by
  unfold acirStat
  repeat' first
    | with_reducible assumption
    | with_reducible apply Device.inState_cset
    | with_reducible apply Device.inState_ite
    | intro _
    | split
    | dsimp only

theorem inState_acirPhaseOut (g : ℕ) (p : AcirProd) {s : Device} (hs : s.InState pk) :
    (acirPhaseOut g p s).InState pk := by
  unfold acirPhaseOut
  repeat' first
    | with_reducible assumption
    | with_reducible apply Device.inState_cset
    | intro _
    | split
    | dsimp only

theorem inState_acirFinish (g : ℕ) {s : Device} (hs : s.InState pk) :
    (acirFinish g s).InState pk := by
  unfold acirFinish
  repeat' first
    | with_reducible assumption
    | with_reducible apply Device.inState_modAcir
    | with_reducible apply inState_acirPublish
    | with_reducible apply inState_acirBook
    | with_reducible apply inState_acirStat
    | with_reducible apply inState_acirPhaseOut
    | with_reducible apply Device.inState_spend
    | with_reducible refine Device.inState_setReg _ _ ?_ ?_
    | with_reducible exact chAddr_ne _ _
    | with_reducible exact dieAddr_ne _ _
    | (with_reducible show _ ≠ 2; omega)
    | with_reducible apply Device.inState_foldl
    | intro _
    | split
    | dsimp only

theorem inState_acirRequestAtClose (g : ℕ) {s : Device} (hs : s.InState pk) :
    (acirRequestAtClose g s).InState pk := by
  unfold acirRequestAtClose
  repeat' first
    | with_reducible assumption
    | with_reducible apply inState_acirRequest
    | with_reducible apply Device.inState_ite
    | intro _
    | split
    | dsimp only

theorem inState_acirStepClose (g : ℕ) {s : Device} (hs : s.InState pk) :
    (acirStepClose g s).InState pk := by
  unfold acirStepClose
  repeat' first
    | with_reducible assumption
    | with_reducible apply Device.inState_modEng
    | with_reducible apply inState_acirRecord
    | with_reducible apply Device.inState_ite
    | intro _
    | split
    | dsimp only

theorem inState_acirLeadOut (g : ℕ) {s : Device} (hs : s.InState pk) :
    (acirLeadOut g s).InState pk := by
  unfold acirLeadOut
  repeat' first
    | with_reducible assumption
    | with_reducible apply Device.inState_cset
    | with_reducible apply Device.inState_modAcir
    | intro _
    | split
    | dsimp only

theorem inState_acirClose (g : ℕ) {s : Device} (hs : s.InState pk) :
    (acirClose g s).InState pk := by
  unfold acirClose
  repeat' first
    | with_reducible assumption
    | with_reducible apply inState_acirFinish
    | with_reducible apply inState_acirRequestAtClose
    | with_reducible apply inState_acirStepClose
    | with_reducible apply inState_acirLeadOut
    | with_reducible apply Device.inState_modAcir
    | with_reducible apply inState_acirBegin
    | with_reducible apply inState_dropHeld
    | with_reducible apply inState_acirMove
    | with_reducible apply Device.inState_ite
    | intro _
    | split
    | dsimp only

theorem inState_acirNextDue (g : ℕ) {s : Device} (hs : s.InState pk) :
    (acirNextDue g s).InState pk := by
  unfold acirNextDue
  repeat' first
    | with_reducible assumption
    | with_reducible apply Device.inState_modEng
    | with_reducible apply inState_acirRequest
    | with_reducible apply Device.inState_ite
    | intro _
    | split
    | dsimp only

theorem inState_acirEnvelopeZero (g : ℕ) {s : Device} (hs : s.InState pk) :
    (acirEnvelopeZero g s).InState pk := by
  unfold acirEnvelopeZero
  repeat' first
    | with_reducible assumption
    | with_reducible apply inState_acirIdle
    | with_reducible apply inState_dropHeld
    | with_reducible apply Device.inState_modAcir
    | with_reducible apply Device.inState_ite
    | intro _
    | split
    | dsimp only

theorem inState_acirBoundary (g : ℕ) {s : Device} (hs : s.InState pk) :
    (acirBoundary g s).InState pk := by
  unfold acirBoundary
  repeat' first
    | with_reducible assumption
    | with_reducible apply inState_acirPublish
    | with_reducible apply Device.inState_modDue
    | with_reducible apply Device.inState_modAcir
    | with_reducible apply Device.inState_ite
    | intro _
    | split
    | dsimp only

theorem inState_acirSample (g : ℕ) {s : Device} (hs : s.InState pk) :
    (acirSample g s).InState pk := by
  unfold acirSample
  repeat' first
    | with_reducible assumption
    | with_reducible apply Device.inState_modAcir
    | with_reducible apply Device.inState_ite
    | intro _
    | split
    | dsimp only

theorem inState_acirClock (g : ℕ) {s : Device} (hs : s.InState pk) :
    (acirClock g s).InState pk := by
  unfold acirClock
  repeat' first
    | with_reducible assumption
    | with_reducible apply Device.inState_modAcir
    | with_reducible apply Device.inState_ite
    | intro _
    | split
    | dsimp only

theorem inState_acirOpen (g : ℕ) {s : Device} (hs : s.InState pk) :
    (acirOpen g s).InState pk := by
  unfold acirOpen
  repeat' first
    | with_reducible assumption
    | with_reducible apply inState_acirClock
    | with_reducible apply Device.inState_cset
    | with_reducible apply Device.inState_modAcir
    | with_reducible apply Device.inState_ite
    | intro _
    | split
    | dsimp only

/-! Power. -/

theorem inState_engRange (low : Bool) (g : ℕ) {s : Device} (hs : s.InState pk) :
    (engRange low g s).InState pk := by
  unfold engRange
  repeat' first
    | with_reducible assumption
    | with_reducible apply Device.inState_modLp
    | with_reducible apply inState_writeRange
    | with_reducible apply Device.inState_ite
    | intro _
    | split
    | dsimp only

theorem inState_contactBlank (g : ℕ) {s : Device} (hs : s.InState pk) :
    (contactBlank g s).InState pk := by
  unfold contactBlank
  repeat' first
    | with_reducible assumption
    | with_reducible apply Device.inState_modLp
    | intro _
    | split
    | dsimp only

theorem inState_setMode (m : ℕ) (g : ℕ) {s : Device} (hs : s.InState pk) :
    (setMode m g s).InState pk := by
  unfold setMode
  repeat' first
    | with_reducible assumption
    | with_reducible apply Device.inState_modLp
    | with_reducible apply inState_acirAbort
    | with_reducible apply Device.inState_cset
    | with_reducible apply Device.inState_ite
    | intro _
    | split
    | dsimp only

theorem inState_engMode (m : ℕ) (g : ℕ) {s : Device} (hs : s.InState pk) :
    (engMode m g s).InState pk := by
  unfold engMode
  repeat' first
    | with_reducible assumption
    | with_reducible apply Device.inState_modLp
    | with_reducible apply inState_setMode
    | with_reducible apply Device.inState_ite
    | intro _
    | split
    | dsimp only

theorem inState_channelStart (g : ℕ) {s : Device} (hs : s.InState pk) :
    (channelStart g s).InState pk := by
  unfold channelStart
  repeat' first
    | with_reducible assumption
    | with_reducible apply Device.inState_cforce
    | with_reducible apply Device.inState_modLp
    | with_reducible apply Device.inState_nextFree
    | with_reducible apply Device.inState_cset
    | with_reducible apply Device.inState_ite
    | intro _
    | split
    | dsimp only

theorem inState_followMode (g : ℕ) {s : Device} (hs : s.InState pk) :
    (followMode g s).InState pk := by
  unfold followMode
  repeat' first
    | with_reducible assumption
    | with_reducible apply inState_channelStart
    | with_reducible apply Device.inState_modLp
    | with_reducible apply Device.inState_ite
    | intro _
    | split
    | dsimp only

theorem inState_engSetpoints (i : ℤ) (v : ℕ) (p : ℤ) (g : ℕ) {s : Device} (hs : s.InState pk) :
    (engSetpoints i v p g s).InState pk := by
  unfold engSetpoints
  repeat' first
    | with_reducible assumption
    | with_reducible apply Device.inState_modLp
    | with_reducible refine Device.inState_setReg _ _ ?_ ?_
    | with_reducible exact chAddr_ne _ _
    | with_reducible exact dieAddr_ne _ _
    | (with_reducible show _ ≠ 2; omega)
    | with_reducible apply Device.inState_ite
    | intro _
    | split
    | dsimp only

theorem inState_overrideChange (g : ℕ) (data : Sys2Proof.Word) {s : Device} (hs : s.InState pk) :
    (overrideChange g data s).InState pk := by
  unfold overrideChange
  repeat' first
    | with_reducible assumption
    | with_reducible apply Device.inState_cset
    | with_reducible apply Device.inState_modEng
    | with_reducible apply inState_acirAbort
    | with_reducible apply inState_followMode
    | with_reducible apply inState_setMode
    | with_reducible apply inState_engSetpoints
    | with_reducible apply inState_writeRange
    | with_reducible apply Device.inState_ite
    | intro _
    | split
    | dsimp only

theorem inState_clampEngage (upper : Bool) (g : ℕ) {s : Device} (hs : s.InState pk) :
    (clampEngage upper g s).InState pk := by
  unfold clampEngage
  repeat' first
    | with_reducible assumption
    | with_reducible apply Device.inState_cset
    | with_reducible apply Device.inState_modLp
    | with_reducible apply Device.inState_ite
    | intro _
    | split
    | dsimp only

theorem inState_faultClear (g : ℕ) (data : Sys2Proof.Word) {s : Device} (hs : s.InState pk) :
    (faultClear g data s).InState pk := by
  unfold faultClear
  repeat' first
    | with_reducible assumption
    | with_reducible apply inState_clearChFault
    | with_reducible apply Device.inState_ite
    | intro _
    | split
    | dsimp only

theorem inState_gatesOff (g : ℕ) {s : Device} (hs : s.InState pk) :
    (gatesOff g s).InState pk := by
  unfold gatesOff
  repeat' first
    | with_reducible assumption
    | with_reducible apply Device.inState_modLp
    | with_reducible apply inState_idleFlags
    | with_reducible apply Device.inState_ite
    | intro _
    | split
    | dsimp only

theorem inState_stopChannel (g : ℕ) {s : Device} (hs : s.InState pk) :
    (stopChannel g s).InState pk := by
  unfold stopChannel
  repeat' first
    | with_reducible assumption
    | with_reducible apply Device.inState_modLp
    | with_reducible apply inState_gatesOff
    | with_reducible apply inState_acirStopped
    | with_reducible apply Device.inState_ite
    | intro _
    | split
    | dsimp only

theorem inState_protTrip (bit : ℕ) (g : ℕ) {s : Device} (hs : s.InState pk) :
    (protTrip bit g s).InState pk := by
  unfold protTrip
  repeat' first
    | with_reducible assumption
    | with_reducible apply inState_stopChannel
    | with_reducible apply inState_setChFault
    | with_reducible apply Device.inState_ite
    | intro _
    | split
    | dsimp only

theorem inState_setpointWrite (g : ℕ) (r : Sys2Proof.SetReg) (data : Sys2Proof.Word) {s : Device} (hs : s.InState pk) :
    (setpointWrite g r data s).InState pk := by
  unfold setpointWrite
  repeat' first
    | with_reducible assumption
    | with_reducible refine Device.inState_setReg _ _ ?_ ?_
    | with_reducible exact chAddr_ne _ _
    | with_reducible exact dieAddr_ne _ _
    | (with_reducible show _ ≠ 2; omega)
    | with_reducible apply Device.inState_ite
    | intro _
    | split
    | dsimp only

theorem inState_uprange (g : ℕ) {s : Device} (hs : s.InState pk) :
    (uprange g s).InState pk := by
  unfold uprange
  repeat' first
    | with_reducible assumption
    | with_reducible apply Device.inState_cset
    | with_reducible apply Device.inState_modDue
    | with_reducible apply Device.inState_ite
    | intro _
    | split
    | dsimp only

theorem inState_pwmWrite (g : ℕ) (dt : Bool) (data : Sys2Proof.Word) {s : Device} (hs : s.InState pk) :
    (pwmWrite g dt data s).InState pk := by
  unfold pwmWrite
  repeat' first
    | with_reducible assumption
    | with_reducible apply Device.inState_cforce
    | with_reducible refine Device.inState_setReg _ _ ?_ ?_
    | with_reducible exact chAddr_ne _ _
    | with_reducible exact dieAddr_ne _ _
    | (with_reducible show _ ≠ 2; omega)
    | with_reducible apply Device.inState_ite
    | intro _
    | split
    | dsimp only

theorem inState_overload (volt : Bool) (g : ℕ) {s : Device} (hs : s.InState pk) :
    (overload volt g s).InState pk := by
  unfold overload
  repeat' first
    | with_reducible assumption
    | with_reducible apply inState_acirClip
    | with_reducible apply inState_setOverload
    | with_reducible apply Device.inState_ite
    | intro _
    | split
    | dsimp only

theorem inState_rangeSelWrite (g : ℕ) (low : Bool) {s : Device} (hs : s.InState pk) :
    (rangeSelWrite g low s).InState pk := by
  unfold rangeSelWrite
  repeat' first
    | with_reducible assumption
    | with_reducible apply inState_writeRange
    | with_reducible apply Device.inState_ite
    | intro _
    | split
    | dsimp only

end Sys2Proof.Machine
end

