-- ==== Sys2Proof/Laws/InStateEngines.lean ====
section
/-! SUPPORT. Operations of these files that leave PKG_STATE.STATE as it is (R389). One lemma for each operation, in the order of the files. -/

set_option linter.unusedTactic false
set_option linter.unreachableTactic false
set_option linter.unusedVariables false

namespace Sys2Proof.Machine

variable {pk : Nat}

/-! StepEng. -/

theorem inState_putTime (g : ℕ) {s : Device} (hs : s.InState pk) :
    (putTime g s).InState pk := by
  unfold putTime
  repeat' first
    | with_reducible assumption
    | with_reducible refine Device.inState_setReg _ _ ?_ ?_
    | with_reducible exact chAddr_ne _ _
    | with_reducible exact dieAddr_ne _ _
    | (with_reducible show _ ≠ 2; omega)
    | intro _
    | split
    | dsimp only

theorem inState_engFrame (g : ℕ) {s : Device} (hs : s.InState pk) :
    (engFrame g s).InState pk := by
  unfold engFrame
  repeat' first
    | with_reducible assumption
    | with_reducible apply Device.inState_modEng
    | with_reducible apply inState_putTime
    | with_reducible apply Device.inState_ite
    | intro _
    | split
    | dsimp only

theorem inState_writeSetpoints (g : ℕ) {s : Device} (hs : s.InState pk) :
    (writeSetpoints g s).InState pk := by
  unfold writeSetpoints
  repeat' first
    | with_reducible assumption
    | with_reducible apply inState_engSetpoints
    | intro _
    | split
    | dsimp only

theorem inState_stepBegin (fresh : Bool) (g : ℕ) {s : Device} (hs : s.InState pk) :
    (stepBegin fresh g s).InState pk := by
  unfold stepBegin
  repeat' first
    | with_reducible assumption
    | with_reducible apply inState_acirRequest
    | with_reducible apply inState_writeSetpoints
    | with_reducible apply Device.inState_modEng
    | with_reducible apply Device.inState_ite
    | intro _
    | split
    | dsimp only

theorem inState_commandEvents (q : ℕ) (e0 : ℕ) (g : ℕ) {s : Device} (hs : s.InState pk) :
    (commandEvents q e0 g s).InState pk := by
  unfold commandEvents
  repeat' first
    | with_reducible assumption
    | with_reducible apply inState_traceEvent
    | with_reducible apply Device.inState_ite
    | intro _
    | split
    | dsimp only

theorem inState_setMap (lo hi : Fld .pkg) (g : ℕ) (on : Bool) {s : Device} (hl : lo.Free) (hh : hi.Free) (h : s.InState pk) :
    (setMap lo hi g on s).InState pk := by
  unfold setMap
  split
  · exact Device.inState_psetBit _ _ _ hl h
  · exact Device.inState_psetBit _ _ _ hh h

theorem inState_clearMaps (g : ℕ) {s : Device} (hs : s.InState pk) :
    (clearMaps g s).InState pk := by
  unfold clearMaps
  repeat' first
    | with_reducible assumption
    | with_reducible refine inState_setMap _ _ _ _ (by decide) (by decide) ?_
    | intro _
    | split
    | dsimp only

theorem inState_leaseRelease (g : ℕ) {s : Device} (hs : s.InState pk) :
    (leaseRelease g s).InState pk := by
  unfold leaseRelease
  repeat' first
    | with_reducible assumption
    | with_reducible apply Device.inState_modLease
    | with_reducible apply Device.inState_cset
    | with_reducible apply inState_clearMaps
    | intro _
    | split
    | dsimp only

theorem inState_recipeEnd (pass : Bool) (cause : ℕ) (g : ℕ) {s : Device} (hs : s.InState pk) :
    (recipeEnd pass cause g s).InState pk := by
  unfold recipeEnd
  repeat' first
    | with_reducible assumption
    | with_reducible apply inState_traceEvent
    | with_reducible apply Device.inState_cset
    | with_reducible apply inState_leaseRelease
    | with_reducible apply inState_engMode
    | with_reducible apply inState_setEng
    | with_reducible apply Device.inState_modEng
    | with_reducible apply Device.inState_ite
    | intro _
    | split
    | dsimp only

theorem inState_dropHold (g : ℕ) {s : Device} (hs : s.InState pk) :
    (dropHold g s).InState pk := by
  unfold dropHold
  repeat' first
    | with_reducible assumption
    | with_reducible apply Device.inState_cset
    | with_reducible refine inState_setMap _ _ _ _ (by decide) (by decide) ?_
    | intro _
    | split
    | dsimp only

theorem inState_stepEndRecord (code : ℕ) (slot : ℕ) (g : ℕ) {s : Device} (hs : s.InState pk) :
    (stepEndRecord code slot g s).InState pk := by
  unfold stepEndRecord
  repeat' first
    | with_reducible assumption
    | with_reducible apply inState_traceWrite
    | with_reducible apply Device.inState_ite
    | intro _
    | split
    | dsimp only

theorem inState_endCkpt (g : ℕ) {s : Device} (hs : s.InState pk) :
    (endCkpt g s).InState pk := by
  unfold endCkpt
  repeat' first
    | with_reducible assumption
    | with_reducible apply inState_ckptRequest
    | with_reducible apply Device.inState_ite
    | intro _
    | split
    | dsimp only

theorem inState_markEnd (code : ℕ) (slot : ℕ) (g : ℕ) {s : Device} (hs : s.InState pk) :
    (markEnd code slot g s).InState pk := by
  unfold markEnd
  repeat' first
    | with_reducible assumption
    | with_reducible apply inState_stepEndRecord
    | with_reducible apply inState_endCkpt
    | with_reducible apply Device.inState_cset
    | intro _
    | split
    | dsimp only

theorem inState_endStep (code : ℕ) (slot : ℕ) (g : ℕ) {s : Device} (hs : s.InState pk) :
    (endStep code slot g s).InState pk := by
  unfold endStep
  repeat' first
    | with_reducible assumption
    | with_reducible apply inState_acirStepEnd
    | with_reducible apply inState_markEnd
    | with_reducible apply Device.inState_modEng
    | intro _
    | split
    | dsimp only

theorem inState_bandApply (g : ℕ) {s : Device} (hs : s.InState pk) :
    (bandApply g s).InState pk := by
  unfold bandApply
  repeat' first
    | with_reducible assumption
    | with_reducible apply inState_bandFresh
    | with_reducible apply Device.inState_ite
    | intro _
    | split
    | dsimp only

theorem inState_clearCounts (g : ℕ) {s : Device} (hs : s.InState pk) :
    (clearCounts g s).InState pk := by
  unfold clearCounts
  repeat' first
    | with_reducible assumption
    | with_reducible apply Device.inState_modEng
    | intro _
    | split
    | dsimp only

theorem inState_suspendStep (cause : ℕ) (g : ℕ) {s : Device} (hs : s.InState pk) :
    (suspendStep cause g s).InState pk := by
  unfold suspendStep
  repeat' first
    | with_reducible assumption
    | with_reducible apply inState_engMode
    | with_reducible apply inState_acirAbort
    | with_reducible apply inState_traceEvent
    | with_reducible apply inState_setEng
    | with_reducible apply Device.inState_cset
    | with_reducible apply inState_clearCounts
    | with_reducible apply Device.inState_modEng
    | with_reducible apply inState_leaseRelease
    | intro _
    | split
    | dsimp only

theorem inState_runStep (whole : Bool) (g : ℕ) {s : Device} (hs : s.InState pk) :
    (runStep whole g s).InState pk := by
  unfold runStep
  repeat' first
    | with_reducible assumption
    | with_reducible apply inState_suspendStep
    | with_reducible apply inState_traceEvent
    | with_reducible apply inState_setEng
    | with_reducible apply Device.inState_cset
    | with_reducible apply Device.inState_modEng
    | with_reducible apply Device.inState_modLp
    | with_reducible apply inState_contactBlank
    | with_reducible apply inState_clearCounts
    | with_reducible apply inState_engMode
    | with_reducible apply inState_followMode
    | with_reducible apply inState_stepBegin
    | with_reducible apply Device.inState_ite
    | intro _
    | split
    | dsimp only

theorem inState_leaseWait (paused : Bool) (g : ℕ) {s : Device} (hs : s.InState pk) :
    (leaseWait paused g s).InState pk := by
  unfold leaseWait
  repeat' first
    | with_reducible assumption
    | with_reducible apply Device.inState_modLease
    | with_reducible apply Device.inState_cset
    | with_reducible apply inState_clearMaps
    | with_reducible apply Device.inState_ite
    | intro _
    | split
    | dsimp only

theorem inState_requestRun (paused : Bool) (ev : ℕ) (g : ℕ) {s : Device} (hs : s.InState pk) :
    (requestRun paused ev g s).InState pk := by
  unfold requestRun
  repeat' first
    | with_reducible assumption
    | with_reducible apply Device.inState_modEng
    | with_reducible apply inState_leaseWait
    | with_reducible apply inState_engMode
    | with_reducible apply inState_setEng
    | with_reducible apply inState_runStep
    | with_reducible apply inState_leaseRelease
    | with_reducible apply Device.inState_ite
    | intro _
    | split
    | dsimp only

theorem inState_startRequest (i : ℕ) (r : StepRec) (g : ℕ) {s : Device} (hs : s.InState pk) :
    (startRequest i r g s).InState pk := by
  unfold startRequest
  repeat' first
    | with_reducible assumption
    | with_reducible apply Device.inState_cset
    | with_reducible apply inState_setEng
    | with_reducible apply Device.inState_modEng
    | with_reducible apply inState_writeSetpoints
    | with_reducible apply inState_engRange
    | with_reducible apply inState_bandApply
    | with_reducible apply inState_putTime
    | with_reducible apply inState_runStep
    | with_reducible apply inState_requestRun
    | with_reducible apply Device.inState_ite
    | intro _
    | split
    | dsimp only

theorem inState_takeAction (action : ℕ) (code : ℕ) (g : ℕ) {s : Device} (hs : s.InState pk) :
    (takeAction action code g s).1.InState pk := by
  unfold takeAction
  repeat' first
    | with_reducible assumption
    | with_reducible apply inState_recipeEnd
    | intro _
    | split
    | dsimp only

theorem inState_controlFail (code : ℕ) (g : ℕ) {s : Device} (hs : s.InState pk) :
    (controlFail code g s).InState pk := by
  unfold controlFail
  repeat' first
    | with_reducible assumption
    | with_reducible apply inState_recipeEnd
    | with_reducible apply Device.inState_cset
    | intro _
    | split
    | dsimp only

theorem inState_goTo (k l i g : ℕ) {s : Device} (h : s.InState pk) : (goTo k l i g s).InState pk := by
  induction k generalizing l i s with
  | zero => exact h
  | succ n ih =>
    rw [goTo]
    repeat' first
      | with_reducible assumption
      | with_reducible apply ih
      | with_reducible apply inState_controlFail
      | with_reducible apply inState_recipeEnd
      | with_reducible apply inState_takeAction
      | with_reducible apply inState_endStep
      | with_reducible apply inState_startRequest
      | with_reducible apply Device.inState_cset
      | with_reducible apply Device.inState_modEng
      | with_reducible apply Device.inState_ite
      | intro _
      | split
      | dsimp only

theorem inState_goStep (i : ℕ) (g : ℕ) {s : Device} (hs : s.InState pk) :
    (goStep i g s).InState pk := by
  unfold goStep
  repeat' first
    | with_reducible assumption
    | with_reducible apply inState_goTo
    | intro _
    | split
    | dsimp only

theorem inState_haltStep (g : ℕ) {s : Device} (hs : s.InState pk) :
    (haltStep g s).InState pk := by
  unfold haltStep
  repeat' first
    | with_reducible assumption
    | with_reducible apply inState_traceEvent
    | with_reducible apply inState_setEng
    | with_reducible apply inState_clearCounts
    | with_reducible apply Device.inState_modEng
    | with_reducible apply inState_leaseRelease
    | with_reducible apply inState_engMode
    | intro _
    | split
    | dsimp only

theorem inState_restartStep (g : ℕ) {s : Device} (hs : s.InState pk) :
    (restartStep g s).InState pk := by
  unfold restartStep
  repeat' first
    | with_reducible assumption
    | with_reducible apply inState_putTime
    | with_reducible apply Device.inState_modEng
    | with_reducible apply Device.inState_cset
    | intro _
    | split
    | dsimp only

theorem inState_carryResume (mode : ℕ) (g : ℕ) {s : Device} (hs : s.InState pk) :
    (carryResume mode g s).InState pk := by
  unfold carryResume
  repeat' first
    | with_reducible assumption
    | with_reducible apply Device.inState_modEng
    | with_reducible apply inState_engRange
    | with_reducible apply inState_requestRun
    | with_reducible apply inState_writeSetpoints
    | with_reducible apply inState_bandApply
    | with_reducible apply inState_restartStep
    | with_reducible apply inState_setEng
    | with_reducible apply Device.inState_ite
    | intro _
    | split
    | dsimp only

theorem inState_releaseHeld (g : ℕ) {s : Device} (hs : s.InState pk) :
    (releaseHeld g s).InState pk := by
  unfold releaseHeld
  repeat' first
    | with_reducible assumption
    | with_reducible apply inState_carryResume
    | with_reducible apply inState_dropHold
    | intro _
    | split
    | dsimp only

theorem inState_releaseStep (g : ℕ) {s : Device} (hs : s.InState pk) :
    (releaseStep g s).InState pk := by
  unfold releaseStep
  repeat' first
    | with_reducible assumption
    | with_reducible apply inState_releaseHeld
    | with_reducible apply inState_traceEvent
    | with_reducible apply inState_requestRun
    | with_reducible apply Device.inState_ite
    | intro _
    | split
    | dsimp only

theorem inState_startRecipe (g : ℕ) {s : Device} (hs : s.InState pk) :
    (startRecipe g s).InState pk := by
  unfold startRecipe
  repeat' first
    | with_reducible assumption
    | with_reducible apply Device.inState_cset
    | with_reducible apply Device.inState_modEng
    | with_reducible apply inState_goStep
    | with_reducible apply inState_traceEvent
    | with_reducible apply Device.inState_ite
    | intro _
    | split
    | dsimp only

theorem inState_hostCommands (decided : Bool) (e0 : ℕ) (g : ℕ) {s : Device} (next : Option ℕ) (hs : s.InState pk) :
    (hostCommands decided e0 g s next).1.InState pk := by
  unfold hostCommands
  repeat' first
    | with_reducible assumption
    | with_reducible apply inState_commandEvents
    | with_reducible apply Device.inState_modDue
    | with_reducible apply inState_recipeEnd
    | with_reducible apply inState_dropHold
    | with_reducible apply inState_endStep
    | with_reducible apply inState_goStep
    | with_reducible apply inState_haltStep
    | with_reducible apply inState_releaseStep
    | with_reducible apply inState_startRecipe
    | with_reducible apply Device.inState_ite
    | intro _
    | split
    | dsimp only

theorem inState_interruptedBoundary (g : ℕ) {s : Device} (hs : s.InState pk) :
    (interruptedBoundary g s).InState pk := by
  unfold interruptedBoundary
  repeat' first
    | with_reducible assumption
    | with_reducible apply inState_bandBoundary
    | with_reducible apply inState_goStep
    | (refine Device.inState_fst (by with_reducible assumption) ?_; with_reducible apply inState_hostCommands)
    | with_reducible apply inState_hostCommands
    | intro _
    | split
    | dsimp only

theorem inState_faultHold (g : ℕ) {s : Device} (hs : s.InState pk) :
    (faultHold g s).InState pk := by
  unfold faultHold
  repeat' first
    | with_reducible assumption
    | with_reducible apply inState_traceEvent
    | with_reducible apply inState_setEng
    | with_reducible apply inState_clearCounts
    | with_reducible apply Device.inState_modEng
    | with_reducible apply inState_leaseRelease
    | with_reducible apply inState_engMode
    | intro _
    | split
    | dsimp only

theorem inState_contactFinal (code : ℕ) (g : ℕ) {s : Device} (hs : s.InState pk) :
    (contactFinal code g s).1.InState pk := by
  unfold contactFinal
  repeat' first
    | with_reducible assumption
    | with_reducible apply inState_recipeEnd
    | (refine Device.inState_fst (by with_reducible assumption) ?_; with_reducible apply inState_takeAction)
    | with_reducible apply inState_takeAction
    | intro _
    | split
    | dsimp only

theorem inState_contactEnd (g : ℕ) {s : Device} (hs : s.InState pk) :
    (contactEnd g s).1.InState pk := by
  unfold contactEnd
  repeat' first
    | with_reducible assumption
    | with_reducible apply Device.inState_modDue
    | with_reducible apply inState_acirStepEnd
    | with_reducible apply inState_markEnd
    | with_reducible apply Device.inState_cset
    | with_reducible apply inState_traceEvent
    | with_reducible apply inState_setEng
    | with_reducible apply inState_leaseRelease
    | with_reducible apply inState_engMode
    | with_reducible apply inState_clearCounts
    | with_reducible apply Device.inState_modEng
    | with_reducible apply inState_endStep
    | (refine Device.inState_fst (by with_reducible assumption) ?_; with_reducible apply inState_contactFinal)
    | with_reducible apply inState_contactFinal
    | with_reducible apply Device.inState_ite
    | intro _
    | split
    | dsimp only

theorem inState_orderFaults (g : ℕ) {s : Device} (hs : s.InState pk) :
    (orderFaults g s).1.InState pk := by
  unfold orderFaults
  repeat' first
    | with_reducible assumption
    | with_reducible apply inState_faultHold
    | with_reducible apply Device.inState_modDue
    | with_reducible apply inState_endStep
    | (refine Device.inState_fst (by with_reducible assumption) ?_; with_reducible apply inState_contactEnd)
    | with_reducible apply inState_contactEnd
    | (refine Device.inState_fst (by with_reducible assumption) ?_; with_reducible apply inState_contactFinal)
    | with_reducible apply inState_contactFinal
    | with_reducible apply Device.inState_ite
    | intro _
    | split
    | dsimp only

theorem inState_pulseLevel (g : ℕ) {s : Device} (hs : s.InState pk) :
    (pulseLevel g s).InState pk := by
  unfold pulseLevel
  repeat' first
    | with_reducible assumption
    | with_reducible apply inState_writeSetpoints
    | with_reducible apply Device.inState_modEng
    | with_reducible apply Device.inState_ite
    | with_reducible apply Device.inState_foldl
    | with_reducible apply Device.inState_mk
    | with_reducible apply Device.InState.word
    | intro _
    | split
    | dsimp only

theorem inState_orderBand (decided : Bool) (g : ℕ) {s : Device} (hs : s.InState pk) :
    (orderBand decided g s).1.InState pk := by
  unfold orderBand
  repeat' first
    | with_reducible assumption
    | with_reducible apply inState_endStep
    | with_reducible apply inState_requestRun
    | with_reducible apply inState_suspendStep
    | (refine Device.inState_fst (by with_reducible assumption) ?_; with_reducible apply inState_takeAction)
    | with_reducible apply inState_takeAction
    | with_reducible apply Device.inState_ite
    | intro _
    | split
    | dsimp only

theorem inState_reseatRefused (g : ℕ) {s : Device} (hs : s.InState pk) :
    (reseatRefused g s).InState pk := by
  unfold reseatRefused
  repeat' first
    | with_reducible assumption
    | with_reducible apply Device.inState_modEng
    | with_reducible apply Device.inState_ite
    | intro _
    | split
    | dsimp only

theorem inState_stepTerms (g : ℕ) {s : Device} (hs : s.InState pk) :
    (stepTerms g s).1.InState pk := by
  unfold stepTerms
  repeat' first
    | with_reducible assumption
    | with_reducible apply Device.inState_modEng
    | with_reducible apply inState_endStep
    | (refine Device.inState_fst (by with_reducible assumption) ?_; with_reducible apply inState_takeAction)
    | with_reducible apply inState_takeAction
    | intro _
    | split
    | dsimp only

theorem inState_pulseCapture (k : ℕ) (g : ℕ) {s : Device} (hs : s.InState pk) :
    (pulseCapture k g s).InState pk := by
  unfold pulseCapture
  repeat' first
    | with_reducible assumption
    | with_reducible apply Device.inState_modEng
    | with_reducible apply inState_traceWrite
    | with_reducible apply Device.inState_spend
    | with_reducible apply Device.inState_ite
    | intro _
    | split
    | dsimp only

theorem inState_restBoundary (g : ℕ) {s : Device} (hs : s.InState pk) :
    (restBoundary g s).InState pk := by
  unfold restBoundary
  repeat' first
    | with_reducible assumption
    | with_reducible apply inState_requestRun
    | with_reducible apply inState_runStep
    | with_reducible apply Device.inState_ite
    | intro _
    | split
    | dsimp only

theorem inState_bandEvents (decided : Bool) (running : Bool) (b0 : ℕ) (set0 : ℕ) (g : ℕ) {s : Device} (hs : s.InState pk) :
    (bandEvents decided running b0 set0 g s).InState pk := by
  unfold bandEvents
  repeat' first
    | with_reducible assumption
    | with_reducible apply inState_traceEvent
    | with_reducible apply inState_writeSetpoints
    | with_reducible apply Device.inState_ite
    | intro _
    | split
    | dsimp only

theorem inState_pauseStep (cause : ℕ) (g : ℕ) {s : Device} (hs : s.InState pk) :
    (pauseStep cause g s).InState pk := by
  unfold pauseStep
  repeat' first
    | with_reducible assumption
    | with_reducible apply inState_traceEvent
    | with_reducible apply inState_setEng
    | with_reducible apply inState_leaseRelease
    | with_reducible apply inState_clearCounts
    | with_reducible apply Device.inState_modEng
    | with_reducible apply inState_engMode
    | with_reducible apply Device.inState_ite
    | intro _
    | split
    | dsimp only

theorem inState_orderPause (decided : Bool) (stops : Bool) (g : ℕ) {s : Device} (hs : s.InState pk) :
    (orderPause decided stops g s).1.InState pk := by
  unfold orderPause
  repeat' first
    | with_reducible assumption
    | with_reducible apply Device.inState_modDue
    | with_reducible apply inState_traceEvent
    | with_reducible apply inState_pauseStep
    | with_reducible apply Device.inState_ite
    | intro _
    | split
    | dsimp only

theorem inState_stepStart (g : ℕ) {s : Device} (hs : s.InState pk) :
    (stepStart g s).InState pk := by
  unfold stepStart
  repeat' first
    | with_reducible assumption
    | with_reducible apply inState_runStep
    | with_reducible apply inState_followMode
    | with_reducible apply Device.inState_ite
    | intro _
    | split
    | dsimp only

theorem inState_traceRdWrite (d : ℕ) (data : Sys2Proof.Word) {s : Device} (hs : s.InState pk) :
    (traceRdWrite d data s).InState pk := by
  unfold traceRdWrite
  repeat' first
    | with_reducible assumption
    | with_reducible apply Device.inState_dset
    | with_reducible apply Device.inState_ite
    | intro _
    | split
    | dsimp only

theorem inState_reseatDone (g : ℕ) {s : Device} (hs : s.InState pk) :
    (reseatDone g s).InState pk := by
  unfold reseatDone
  repeat' first
    | with_reducible assumption
    | with_reducible apply inState_traceEvent
    | with_reducible apply inState_clearChFault
    | with_reducible apply inState_requestRun
    | with_reducible apply Device.inState_modEng
    | with_reducible apply Device.inState_ite
    | intro _
    | split
    | dsimp only

theorem inState_seqCmd (bit : ℕ) (g : ℕ) {s : Device} (hs : s.InState pk) :
    (seqCmd bit g s).InState pk := by
  unfold seqCmd
  repeat' first
    | with_reducible assumption
    | with_reducible apply Device.inState_modDue
    | intro _
    | split
    | dsimp only

theorem inState_reseatOff (g : ℕ) {s : Device} (hs : s.InState pk) :
    (reseatOff g s).InState pk := by
  unfold reseatOff
  repeat' first
    | with_reducible assumption
    | with_reducible apply Device.inState_modEng
    | with_reducible apply Device.inState_ite
    | intro _
    | split
    | dsimp only

theorem inState_ocvSample (g : ℕ) {s : Device} (hs : s.InState pk) :
    (ocvSample g s).InState pk := by
  unfold ocvSample
  repeat' first
    | with_reducible assumption
    | with_reducible apply inState_traceWrite
    | with_reducible apply Device.inState_modEng
    | with_reducible apply Device.inState_ite
    | intro _
    | split
    | dsimp only

theorem inState_engineBoundary (g : ℕ) {s : Device} (hs : s.InState pk) :
    (engineBoundary g s).InState pk := by
  unfold engineBoundary
  repeat' first
    | with_reducible assumption
    | with_reducible apply inState_interruptedBoundary
    | with_reducible apply inState_bandBoundary
    | with_reducible apply inState_engFrame
    | with_reducible apply inState_endStep
    | with_reducible apply inState_bandEvents
    | with_reducible apply inState_goStep
    | with_reducible apply inState_restBoundary
    | (refine Device.inState_fst (by with_reducible assumption) ?_; with_reducible apply inState_orderFaults)
    | with_reducible apply inState_orderFaults
    | (refine Device.inState_fst (by with_reducible assumption) ?_; with_reducible apply inState_hostCommands)
    | with_reducible apply inState_hostCommands
    | (refine Device.inState_fst (by with_reducible assumption) ?_; with_reducible apply inState_orderPause)
    | with_reducible apply inState_orderPause
    | (refine Device.inState_fst (by with_reducible assumption) ?_; with_reducible apply inState_stepTerms)
    | with_reducible apply inState_stepTerms
    | (refine Device.inState_fst (by with_reducible assumption) ?_; with_reducible apply inState_takeAction)
    | with_reducible apply inState_takeAction
    | (refine Device.inState_fst (by with_reducible assumption) ?_; with_reducible apply inState_orderBand)
    | with_reducible apply inState_orderBand
    | with_reducible apply Device.inState_ite
    | intro _
    | split
    | dsimp only

/-! LoopPeriod. -/

theorem inState_trimBoundary (g : ℕ) {s : Device} (hs : s.InState pk) :
    (trimBoundary g s).InState pk := by
  unfold trimBoundary
  repeat' first
    | with_reducible assumption
    | with_reducible apply Device.inState_modLp
    | with_reducible apply Device.inState_ite
    | intro _
    | split
    | dsimp only

theorem inState_contactFault (g : ℕ) {s : Device} (hs : s.InState pk) :
    (contactFault g s).InState pk := by
  unfold contactFault
  repeat' first
    | with_reducible assumption
    | with_reducible apply inState_setChFault
    | with_reducible apply Device.inState_modDue
    | with_reducible apply Device.inState_modLp
    | with_reducible apply Device.inState_ite
    | intro _
    | split
    | dsimp only

theorem inState_contactSample (g : ℕ) (vf : ℕ) {s : Device} (hs : s.InState pk) :
    (contactSample g vf s).InState pk := by
  unfold contactSample
  repeat' first
    | with_reducible assumption
    | with_reducible apply Device.inState_modLp
    | with_reducible apply inState_contactFault
    | with_reducible apply Device.inState_ite
    | intro _
    | split
    | dsimp only

theorem inState_clampSample (g : ℕ) (vf : ℕ) {s : Device} (hs : s.InState pk) :
    (clampSample g vf s).InState pk := by
  unfold clampSample
  repeat' first
    | with_reducible assumption
    | with_reducible apply inState_clampEngage
    | with_reducible apply Device.inState_modLp
    | with_reducible apply Device.inState_cset
    | with_reducible apply Device.inState_ite
    | intro _
    | split
    | dsimp only

theorem inState_overloadClip (g : ℕ) {s : Device} (hs : s.InState pk) :
    (overloadClip g s).InState pk := by
  unfold overloadClip
  repeat' first
    | with_reducible assumption
    | with_reducible apply inState_acirClip
    | with_reducible apply Device.inState_ite
    | intro _
    | split
    | dsimp only

theorem inState_fastOne (bq : ℤ × ℤ) (vf : List ℕ) (g : ℕ) {s : Device} (hs : s.InState pk) :
    (fastOne bq vf g s).InState pk := by
  unfold fastOne
  repeat' first
    | with_reducible assumption
    | with_reducible apply Device.inState_cset
    | with_reducible apply inState_fastChannel
    | with_reducible apply inState_contactSample
    | with_reducible apply inState_clampSample
    | with_reducible apply inState_overloadClip
    | with_reducible apply inState_acirSample
    | intro _
    | split
    | dsimp only

theorem inState_fastDie (vf : List ℕ) (d : ℕ) {s : Device} (hs : s.InState pk) :
    (fastDie vf d s).InState pk := by
  unfold fastDie
  repeat' first
    | with_reducible assumption
    | with_reducible apply Device.inState_modDie
    | with_reducible apply inState_fastOne
    | with_reducible apply inState_benchHold
    | (refine Device.inState_snd (by with_reducible assumption) ?_; with_reducible apply inState_benchFast)
    | with_reducible apply inState_benchFast
    | with_reducible apply Device.inState_ite
    | with_reducible apply Device.inState_each
    | intro _
    | split
    | dsimp only

theorem inState_fastSample (vf : List ℕ) {s : Device} (hs : s.InState pk) :
    (fastSample vf s).InState pk := by
  unfold fastSample
  repeat' first
    | with_reducible assumption
    | with_reducible apply inState_fastDie
    | with_reducible apply Device.inState_each
    | intro _
    | split
    | dsimp only

theorem inState_armTaper (cv : Bool) (still : Bool) (g : ℕ) {s : Device} (hs : s.InState pk) :
    (armTaper cv still g s).InState pk := by
  unfold armTaper
  repeat' first
    | with_reducible assumption
    | with_reducible apply Device.inState_modEng
    | with_reducible apply Device.inState_ite
    | intro _
    | split
    | dsimp only

theorem inState_rescaleLoop (low : Bool) (g : ℕ) {s : Device} (hs : s.InState pk) :
    (rescaleLoop low g s).InState pk := by
  unfold rescaleLoop
  repeat' first
    | with_reducible assumption
    | with_reducible apply Device.inState_modLp
    | with_reducible apply Device.inState_ite
    | intro _
    | split
    | dsimp only

theorem inState_busOvCh (g : ℕ) {s : Device} (hs : s.InState pk) :
    (busOvCh g s).InState pk := by
  unfold busOvCh
  repeat' first
    | with_reducible assumption
    | with_reducible apply Device.inState_modLp
    | with_reducible apply inState_stopChannel
    | with_reducible apply inState_setChFault
    | with_reducible apply Device.inState_ite
    | intro _
    | split
    | dsimp only

theorem inState_periodStore (iM : ℤ) (o : LoopOut) (g : ℕ) {s : Device} (hs : s.InState pk) :
    (periodStore iM o g s).InState pk := by
  unfold periodStore
  repeat' first
    | with_reducible assumption
    | with_reducible apply Device.inState_modLp
    | with_reducible apply Device.inState_modAcir
    | with_reducible apply inState_acirClip
    | with_reducible apply Device.inState_cset
    | with_reducible apply inState_armTaper
    | with_reducible apply Device.inState_spend
    | with_reducible apply Device.inState_ite
    | intro _
    | split
    | dsimp only

theorem inState_periodStart (bootLow : Bool) (g : ℕ) {s : Device} (hs : s.InState pk) :
    (periodStart bootLow g s).InState pk := by
  unfold periodStart
  repeat' first
    | with_reducible assumption
    | with_reducible apply inState_setChFault
    | with_reducible apply Device.inState_cset
    | with_reducible apply Device.inState_modLp
    | with_reducible apply inState_acirClip
    | with_reducible apply Device.inState_ite
    | intro _
    | split
    | dsimp only

theorem inState_loopPeriod (bootLow : Bool) (g : ℕ) {s : Device} (hs : s.InState pk) :
    (loopPeriod bootLow g s).InState pk := by
  unfold loopPeriod
  repeat' first
    | with_reducible assumption
    | with_reducible apply Device.inState_modLp
    | with_reducible apply inState_gatesOff
    | with_reducible apply inState_acirStopped
    | with_reducible apply inState_periodStart
    | with_reducible apply inState_stopChannel
    | with_reducible apply inState_periodStore
    | with_reducible apply inState_busOvCh
    | with_reducible apply Device.inState_ite
    | intro _
    | split
    | dsimp only

/-! Protect. -/

theorem inState_vdrvUvCh (g : ℕ) {s : Device} (hs : s.InState pk) :
    (vdrvUvCh g s).InState pk := by
  unfold vdrvUvCh
  repeat' first
    | with_reducible assumption
    | with_reducible apply inState_stopChannel
    | with_reducible apply inState_setChFault
    | with_reducible apply Device.inState_modLp
    | with_reducible apply inState_suspendStep
    | with_reducible apply Device.inState_ite
    | intro _
    | split
    | dsimp only

theorem inState_busOvClearCh (g : ℕ) {s : Device} (hs : s.InState pk) :
    (busOvClearCh g s).InState pk := by
  unfold busOvClearCh
  repeat' first
    | with_reducible assumption
    | with_reducible apply inState_followMode
    | with_reducible apply Device.inState_modLp
    | with_reducible apply Device.inState_ite
    | intro _
    | split
    | dsimp only

theorem inState_vdrvUv (d : ℕ) {s : Device} (hs : s.InState pk) :
    (vdrvUv d s).InState pk := by
  unfold vdrvUv
  repeat' first
    | with_reducible assumption
    | with_reducible apply inState_vdrvUvCh
    | with_reducible apply Device.inState_modDie
    | with_reducible apply Device.inState_ite
    | with_reducible apply Device.inState_each
    | intro _
    | split
    | dsimp only

theorem inState_vdrvRecoverCh (g : ℕ) {s : Device} (hs : s.InState pk) :
    (vdrvRecoverCh g s).InState pk := by
  unfold vdrvRecoverCh
  repeat' first
    | with_reducible assumption
    | with_reducible apply Device.inState_modLp
    | with_reducible apply inState_requestRun
    | with_reducible apply Device.inState_cset
    | with_reducible apply inState_followMode
    | with_reducible apply Device.inState_ite
    | intro _
    | split
    | dsimp only

theorem inState_vdrvRecover (d : ℕ) {s : Device} (hs : s.InState pk) :
    (vdrvRecover d s).InState pk := by
  unfold vdrvRecover
  repeat' first
    | with_reducible assumption
    | with_reducible apply inState_vdrvRecoverCh
    | with_reducible apply Device.inState_modDie
    | with_reducible apply Device.inState_ite
    | with_reducible apply Device.inState_each
    | intro _
    | split
    | dsimp only

theorem inState_busOvClear (d : ℕ) {s : Device} (hs : s.InState pk) :
    (busOvClear d s).InState pk := by
  unfold busOvClear
  repeat' first
    | with_reducible assumption
    | with_reducible apply inState_busOvClearCh
    | with_reducible apply Device.inState_modDie
    | with_reducible apply Device.inState_ite
    | with_reducible apply Device.inState_each
    | intro _
    | split
    | dsimp only

theorem inState_busOv (d : ℕ) {s : Device} (hs : s.InState pk) :
    (busOv d s).InState pk := by
  unfold busOv
  repeat' first
    | with_reducible assumption
    | with_reducible apply inState_busOvCh
    | with_reducible apply Device.inState_modDie
    | with_reducible apply Device.inState_ite
    | with_reducible apply Device.inState_each
    | intro _
    | split
    | dsimp only

/-! Budget. -/

theorem inState_modMon (f : Mon → Mon) {s : Device} (hs : s.InState pk) :
    (modMon f s).InState pk := by
  unfold modMon
  repeat' first
    | with_reducible assumption
    | with_reducible apply Device.inState_modSup
    | intro _
    | split
    | dsimp only

theorem inState_monEnd (trunc : Bool) {s : Device} (hs : s.InState pk) :
    (monEnd trunc s).InState pk := by
  unfold monEnd
  repeat' first
    | with_reducible assumption
    | with_reducible apply inState_modMon
    | with_reducible apply inState_logEvent
    | with_reducible refine Device.inState_pset _ _ ?_ ?_
    | with_reducible refine Device.inState_pinc _ ?_ ?_
    | with_reducible exact Fld.free_at _ (by decide)
    | (with_reducible show Fld.Free _; decide)
    | with_reducible apply Device.inState_ite
    | intro _
    | split
    | dsimp only

theorem inState_monReading (v : ℕ) {s : Device} (hs : s.InState pk) :
    (monReading v s).InState pk := by
  unfold monReading
  repeat' first
    | with_reducible assumption
    | with_reducible apply inState_modMon
    | with_reducible apply inState_monEnd
    | with_reducible refine Device.inState_pset _ _ ?_ ?_
    | with_reducible exact Fld.free_at _ (by decide)
    | (with_reducible show Fld.Free _; decide)
    | with_reducible apply Device.inState_ite
    | intro _
    | split
    | dsimp only

theorem inState_budgetGrant (g : ℕ) {s : Device} (hs : s.InState pk) :
    (budgetGrant g s).InState pk := by
  unfold budgetGrant
  repeat' first
    | with_reducible assumption
    | with_reducible apply Device.inState_cset
    | with_reducible apply inState_setMode
    | with_reducible apply inState_runStep
    | with_reducible refine inState_setMap _ _ _ _ (by decide) (by decide) ?_
    | with_reducible apply Device.inState_ite
    | intro _
    | split
    | dsimp only

theorem inState_budgetPause (g : ℕ) {s : Device} (hs : s.InState pk) :
    (budgetPause g s).InState pk := by
  unfold budgetPause
  repeat' first
    | with_reducible assumption
    | with_reducible apply Device.inState_cset
    | with_reducible apply inState_logEvent
    | with_reducible apply inState_setMode
    | with_reducible apply Device.inState_modLp
    | with_reducible apply inState_acirAbort
    | with_reducible apply Device.inState_modDue
    | with_reducible refine inState_setMap _ _ _ _ (by decide) (by decide) ?_
    | with_reducible refine Device.inState_pset _ _ ?_ ?_
    | with_reducible exact Fld.free_at _ (by decide)
    | (with_reducible show Fld.Free _; decide)
    | with_reducible apply Device.inState_ite
    | intro _
    | split
    | dsimp only

theorem inState_budgetRefuse (g : ℕ) {s : Device} (hs : s.InState pk) :
    (budgetRefuse g s).InState pk := by
  unfold budgetRefuse
  repeat' first
    | with_reducible assumption
    | with_reducible apply inState_traceEvent
    | with_reducible apply inState_setEng
    | with_reducible refine inState_setMap _ _ _ _ (by decide) (by decide) ?_
    | with_reducible refine Device.inState_pset _ _ ?_ ?_
    | with_reducible exact Fld.free_at _ (by decide)
    | (with_reducible show Fld.Free _; decide)
    | with_reducible apply Device.inState_ite
    | intro _
    | split
    | dsimp only

theorem inState_decide1 (g : ℕ) {s : Device} (hs : s.InState pk) :
    (decide1 g s).InState pk := by
  unfold decide1
  repeat' first
    | with_reducible assumption
    | with_reducible apply Device.inState_modLease
    | with_reducible apply inState_budgetGrant
    | with_reducible apply inState_budgetPause
    | with_reducible apply inState_budgetRefuse
    | with_reducible apply Device.inState_ite
    | intro _
    | split
    | dsimp only

theorem inState_lateBoundary (g : ℕ) {s : Device} (hs : s.InState pk) :
    (lateBoundary g s).InState pk := by
  unfold lateBoundary
  repeat' first
    | with_reducible assumption
    | with_reducible apply inState_decide1
    | with_reducible apply Device.inState_ite
    | intro _
    | split
    | dsimp only

theorem inState_leaseEnd (g : ℕ) {s : Device} (hs : s.InState pk) :
    (leaseEnd g s).InState pk := by
  unfold leaseEnd
  repeat' first
    | with_reducible assumption
    | with_reducible apply Device.inState_modLease
    | with_reducible apply Device.inState_cset
    | with_reducible apply inState_clearMaps
    | intro _
    | split
    | dsimp only

theorem inState_runCode (code : ℕ) {s : Device} (hs : s.InState pk) :
    (runCode code s).InState pk := by
  unfold runCode
  repeat' first
    | with_reducible assumption
    | with_reducible apply inState_setCat
    | with_reducible refine Device.inState_pset _ _ ?_ ?_
    | with_reducible exact Fld.free_at _ (by decide)
    | (with_reducible show Fld.Free _; decide)
    | intro _
    | split
    | dsimp only

theorem inState_runStop (code : ℕ) {s : Device} (hs : s.InState pk) :
    (runStop code s).InState pk := by
  unfold runStop
  repeat' first
    | with_reducible assumption
    | with_reducible apply inState_runCode
    | with_reducible refine Device.inState_pset _ _ ?_ ?_
    | with_reducible exact Fld.free_at _ (by decide)
    | (with_reducible show Fld.Free _; decide)
    | with_reducible apply Device.inState_ite
    | with_reducible apply Device.inState_mk
    | with_reducible apply Device.InState.word
    | intro _
    | split
    | dsimp only

theorem inState_enterRun {s : Device} (hs : s.InState pk) :
    (enterRun s).InState pk := by
  unfold enterRun
  repeat' first
    | with_reducible assumption
    | with_reducible apply Device.inState_modBench
    | with_reducible apply inState_leaseWait
    | with_reducible apply Device.inState_ite
    | with_reducible apply Device.inState_each
    | intro _
    | split
    | dsimp only

theorem inState_countLease (g : ℕ) {s : Device} (hs : s.InState pk) :
    (countLease g s).InState pk := by
  unfold countLease
  repeat' first
    | with_reducible assumption
    | with_reducible apply Device.inState_modLease
    | intro _
    | split
    | dsimp only

theorem inState_busSums {s : Device} (hs : s.InState pk) :
    (busSums s).InState pk := by
  unfold busSums
  repeat' first
    | with_reducible assumption
    | with_reducible refine Device.inState_setReg _ _ ?_ ?_
    | with_reducible refine Device.inState_pset _ _ ?_ ?_
    | with_reducible exact Fld.free_at _ (by decide)
    | (with_reducible show Fld.Free _; decide)
    | with_reducible exact chAddr_ne _ _
    | with_reducible exact dieAddr_ne _ _
    | (with_reducible show _ ≠ 2; omega)
    | intro _
    | split
    | dsimp only

theorem Device.inState_ite2 {c : Prop} [Decidable c] {p q : ℤ × Device} (hp : p.2.InState pk) (hq : q.2.InState pk) :
    (if c then p else q).2.InState pk := by
  split
  · exact hp
  · exact hq

theorem inState_arbWaiting (k w : ℕ) (a : ℤ × Device) (h : a.2.InState pk) : (arbWaiting k w a).2.InState pk := by
  obtain ⟨res, s⟩ := a
  unfold arbWaiting
  refine Device.inState_ite2 h (Device.inState_ite2 ?_ ?_)
  · dsimp only; exact Device.inState_modLease _ _ (s := s) h
  · dsimp only; exact Device.inState_modLease _ _ (s := s) h

theorem inState_acirEvent (g : ℕ) {s : Device} (hs : s.InState pk) :
    (acirEvent g s).InState pk := by
  unfold acirEvent
  repeat' first
    | with_reducible assumption
    | with_reducible apply inState_acirOpen
    | with_reducible apply inState_acirClose
    | with_reducible apply inState_acirLeadin
    | intro _
    | split
    | dsimp only

theorem inState_pauseLease (reverse : Bool) (g : ℕ) {s : Device} (hs : s.InState pk) :
    (pauseLease reverse g s).InState pk := by
  unfold pauseLease
  repeat' first
    | with_reducible assumption
    | with_reducible apply Device.inState_modLease
    | intro _
    | split
    | dsimp only

theorem inState_acirInOrder (f : ℕ → Device → Device) (g : ℕ) {s : Device} (hf : ∀ y0 y1, y1.InState pk → (f y0 y1).InState pk) (hs : s.InState pk) :
    (acirInOrder f g s).InState pk := by
  unfold acirInOrder
  repeat' first
    | with_reducible assumption
    | with_reducible apply inState_decide1
    | with_reducible apply hf
    | with_reducible apply Device.inState_ite
    | intro _
    | split
    | dsimp only

theorem inState_leaseTold (g : ℕ) (dem : ℤ) (held : Bool) (waiting : Bool) {s : Device} (hs : s.InState pk) :
    (leaseTold g dem held waiting s).InState pk := by
  unfold leaseTold
  repeat' first
    | with_reducible assumption
    | with_reducible apply Device.inState_modLease
    | intro _
    | split
    | dsimp only

theorem inState_leaseReport (g : ℕ) {s : Device} (hs : s.InState pk) :
    (leaseReport g s).InState pk := by
  unfold leaseReport
  repeat' first
    | with_reducible assumption
    | with_reducible apply inState_leaseTold
    | intro _
    | split
    | dsimp only

theorem inState_demandBoundary (g : ℕ) {s : Device} (hs : s.InState pk) :
    (demandBoundary g s).InState pk := by
  unfold demandBoundary
  repeat' first
    | with_reducible assumption
    | with_reducible apply Device.inState_cset
    | with_reducible apply inState_leaseReport
    | with_reducible apply Device.inState_ite
    | intro _
    | split
    | dsimp only

theorem inState_freezeWrites {s : Device} (hs : s.InState pk) :
    (freezeWrites s).InState pk := by
  unfold freezeWrites
  repeat' first
    | with_reducible assumption
    | with_reducible apply Device.inState_setBusW1c
    | with_reducible apply Device.inState_setBusClr
    | with_reducible apply Device.inState_pforce
    | with_reducible apply Device.inState_cforce
    | with_reducible refine Device.inState_setReg _ _ ?_ ?_
    | with_reducible exact chAddr_ne _ _
    | with_reducible exact dieAddr_ne _ _
    | (with_reducible show _ ≠ 2; omega)
    | with_reducible apply Device.inState_ite
    | with_reducible apply Device.inState_each
    | intro _
    | split
    | dsimp only

theorem inState_pauseWhile (stop : ℤ → Bool) (reverse : Bool) (l : List ℕ) {s : Device} (hs : s.InState pk) :
    (pauseWhile stop reverse l s).InState pk := by
  unfold pauseWhile
  repeat' first
    | with_reducible assumption
    | with_reducible apply inState_pauseLease
    | with_reducible apply Device.inState_ite
    | with_reducible apply Device.inState_each
    | intro _
    | split
    | dsimp only

theorem inState_arbPauses {s : Device} (hs : s.InState pk) :
    (arbPauses s).InState pk := by
  unfold arbPauses
  repeat' first
    | with_reducible assumption
    | with_reducible apply inState_pauseWhile
    | with_reducible apply Device.inState_ite
    | intro _
    | split
    | dsimp only

theorem inState_leaseLate (d : ℕ) {s : Device} (hs : s.InState pk) :
    (leaseLate d s).InState pk := by
  unfold leaseLate
  repeat' first
    | with_reducible assumption
    | with_reducible apply Device.inState_modLease
    | with_reducible refine Device.inState_pset _ _ ?_ ?_
    | with_reducible exact Fld.free_at _ (by decide)
    | (with_reducible show Fld.Free _; decide)
    | with_reducible apply Device.inState_ite
    | with_reducible apply Device.inState_each
    | intro _
    | split
    | dsimp only

theorem inState_busMonClr (data : Sys2Proof.Word) {s : Device} (hs : s.InState pk) :
    (busMonClr data s).InState pk := by
  unfold busMonClr
  repeat' first
    | with_reducible assumption
    | with_reducible apply Device.inState_setBusClr
    | with_reducible apply Device.inState_ite
    | intro _
    | split
    | dsimp only

theorem inState_expireLease (g : ℕ) {s : Device} (hs : s.InState pk) :
    (expireLease g s).InState pk := by
  unfold expireLease
  repeat' first
    | with_reducible assumption
    | with_reducible apply Device.inState_modLease
    | with_reducible apply inState_logEvent
    | with_reducible refine Device.inState_pset _ _ ?_ ?_
    | with_reducible exact Fld.free_at _ (by decide)
    | (with_reducible show Fld.Free _; decide)
    | with_reducible apply Device.inState_ite
    | intro _
    | split
    | dsimp only

theorem inState_arbGrants (k : ℕ) {s : Device} (h : s.InState pk) : (arbGrants k s).InState pk := by
  have hf : ∀ (l : List ℕ) (a : ℤ × Device), a.2.InState pk → (l.foldl (fun a w => arbWaiting k w a) a).2.InState pk := by
    intro l
    induction l with
    | nil => exact fun _ h => h
    | cons w t ih => exact fun a h => ih _ (inState_arbWaiting k w a h)
  exact hf _ _ h

theorem inState_freezePoint (k : ℕ) {s : Device} (hs : s.InState pk) :
    (freezePoint k s).InState pk := by
  unfold freezePoint
  repeat' first
    | with_reducible assumption
    | with_reducible apply inState_countLease
    | with_reducible apply inState_expireLease
    | with_reducible apply inState_freezeWrites
    | with_reducible apply inState_arbPauses
    | with_reducible apply inState_busSums
    | with_reducible apply inState_arbGrants
    | with_reducible apply Device.inState_ite
    | with_reducible apply Device.inState_each
    | intro _
    | split
    | dsimp only

theorem inState_leaseDecision (d : ℕ) {s : Device} (hs : s.InState pk) :
    (leaseDecision d s).InState pk := by
  unfold leaseDecision
  repeat' first
    | with_reducible assumption
    | with_reducible apply inState_decide1
    | with_reducible apply inState_acirEvent
    | with_reducible apply Device.inState_ite
    | with_reducible apply Device.inState_each
    | intro _
    | split
    | dsimp only

theorem inState_fitSet {s : Device} (hs : s.InState pk) :
    (fitSet s).InState pk := by
  unfold fitSet
  repeat' first
    | with_reducible assumption
    | with_reducible refine Device.inState_pset _ _ ?_ ?_
    | with_reducible exact Fld.free_at _ (by decide)
    | (with_reducible show Fld.Free _; decide)
    | with_reducible apply Device.inState_ite
    | intro _
    | split
    | dsimp only

/-! Calib. -/

theorem inState_putConst (off : ℕ) (f : Fld Blk.ch) (k : Const) (g : ℕ) {s : Device} (hs : s.InState pk) :
    (putConst off f k g s).InState pk := by
  unfold putConst
  repeat' first
    | with_reducible assumption
    | with_reducible apply Device.inState_cset
    | with_reducible refine Device.inState_setReg _ _ ?_ ?_
    | with_reducible exact chAddr_ne _ _
    | with_reducible exact dieAddr_ne _ _
    | (with_reducible show _ ≠ 2; omega)
    | intro _
    | split
    | dsimp only

theorem inState_putThree (h : Const) (l : Const) (kv : Const) (g : ℕ) {s : Device} (hs : s.InState pk) :
    (putThree h l kv g s).InState pk := by
  unfold putThree
  repeat' first
    | with_reducible assumption
    | with_reducible apply inState_putConst
    | intro _
    | split
    | dsimp only

theorem inState_putKe (ke : Option Const) (g : ℕ) {s : Device} (h : s.InState pk) :
    ∀ t, putKe ke g s = some t → t.InState pk := by
  intro t ht
  unfold putKe at ht
  split at ht
  · exact Option.some.inj ht ▸ h
  · cases ke with
    | none => simp at ht
    | some k => exact Option.some.inj ht ▸ inState_putConst _ _ _ _ h

theorem inState_foldWords (g : ℕ) {s : Device} (h : s.InState pk) : ∀ t, foldWords g s = some t → t.InState pk := by
  intro t ht
  obtain ⟨p, -, ht⟩ := Option.bind_eq_some_iff.mp ht
  exact inState_putKe _ _ (inState_putThree _ _ _ _ h) t ht

theorem inState_foldRest (c : Conv) (v : Sys2Proof.PairCal) (g : ℕ) {t : Device} (ht : t.InState pk) :
    (foldRest c v g t).InState pk := by
  unfold foldRest
  repeat' first
    | with_reducible assumption
    | with_reducible apply Device.inState_cset
    | with_reducible apply inState_resetLive
    | with_reducible apply inState_dsetBit
    | with_reducible refine Device.inState_setReg _ _ ?_ ?_
    | with_reducible exact chAddr_ne _ _
    | with_reducible exact dieAddr_ne _ _
    | (with_reducible show _ ≠ 2; omega)
    | intro _
    | split
    | dsimp only

theorem Device.inState_getD {o : Option Device} {f : Device → Device} {s : Device} (h : s.InState pk)
    (ho : ∀ t, o = some t → t.InState pk) (hf : ∀ t, t.InState pk → (f t).InState pk) : ((o.map f).getD s).InState pk := by
  cases o with
  | none => exact h
  | some t => exact hf t (ho t rfl)

theorem inState_foldNow (g : ℕ) {s : Device} (h : s.InState pk) : (foldNow g s).InState pk := by
  unfold foldNow
  split
  · exact h
  · exact Device.inState_getD h (inState_foldWords g h) fun t ht => inState_foldRest _ _ _ ht

theorem inState_calRefuse (code : ℕ) (g : ℕ) {s : Device} (hs : s.InState pk) :
    (calRefuse code g s).InState pk := by
  unfold calRefuse
  repeat' first
    | with_reducible assumption
    | with_reducible apply Device.inState_cset
    | intro _
    | split
    | dsimp only

theorem inState_calQueue (k : ℕ) (w : Sys2Proof.Word) (g : ℕ) {s : Device} (hs : s.InState pk) :
    (calQueue k w g s).InState pk := by
  unfold calQueue
  repeat' first
    | with_reducible assumption
    | with_reducible apply Device.inState_modDue
    | with_reducible apply Device.inState_ite
    | intro _
    | split
    | dsimp only

theorem inState_calFold (data : Sys2Proof.Word) (g : ℕ) {s : Device} (hs : s.InState pk) :
    (calFold data g s).InState pk := by
  unfold calFold
  repeat' first
    | with_reducible assumption
    | with_reducible apply inState_calRefuse
    | with_reducible apply inState_calQueue
    | with_reducible apply Device.inState_ite
    | intro _
    | split
    | dsimp only

theorem inState_applyWords (both : Bool) (g : ℕ) {s : Device} (h : s.InState pk) :
    ∀ t, applyWords both g s = some t → t.InState pk := by
  have hf : ∀ (l : List Bool) (o : Option Device), (∀ t, o = some t → t.InState pk) → ∀ t,
      l.foldl (fun o low => o.bind fun t =>
        (runConst s g low).map fun k => putConst (kqField low).1 (kqField low).2 k g t) o = some t → t.InState pk := by
    intro l
    induction l with
    | nil => exact fun _ h => h
    | cons b l ih =>
      refine fun o h => ih _ ?_
      intro t ht
      cases o with
      | none => simp at ht
      | some u =>
        simp only [Option.bind_some, Option.map_eq_some_iff] at ht
        obtain ⟨k, -, rfl⟩ := ht
        exact inState_putConst _ _ _ _ (h u rfl)
  exact hf _ _ (fun t ht => by cases ht; exact h)

theorem inState_applyNow (both : Bool) (g : ℕ) {s : Device} (h : s.InState pk) : (applyNow both g s).InState pk := by
  unfold applyNow
  split
  · exact Device.inState_cset _ _ _ (Device.inState_cset _ _ _ (inState_applyWords both g h _ ‹_›))
  · exact h

theorem inState_writtenActs (g : ℕ) {s : Device} (hs : s.InState pk) :
    (writtenActs g s).1.InState pk := by
  unfold writtenActs
  repeat' first
    | with_reducible assumption
    | with_reducible apply inState_baseReset
    | with_reducible apply inState_forceConsts
    | (refine Device.inState_fst (by with_reducible assumption) ?_; with_reducible apply inState_constAct)
    | with_reducible apply inState_constAct
    | intro _
    | split
    | dsimp only

theorem inState_calAct (a : ℕ × Sys2Proof.Word) (g : ℕ) {s : Device} (hs : s.InState pk) :
    (calAct a g s).InState pk := by
  unfold calAct
  repeat' first
    | with_reducible assumption
    | with_reducible apply inState_calRefuse
    | with_reducible apply inState_applyNow
    | with_reducible apply inState_foldNow
    | with_reducible apply inState_baseReset
    | with_reducible refine Device.inState_setReg _ _ ?_ ?_
    | with_reducible exact chAddr_ne _ _
    | with_reducible exact dieAddr_ne _ _
    | (with_reducible show _ ≠ 2; omega)
    | with_reducible apply Device.inState_ite
    | intro _
    | split
    | dsimp only

theorem inState_calActList (g : ℕ) (l : List (ℕ × Word)) {s : Device} (c : ℕ) (h : s.InState pk) : (calActList g l s c).1.InState pk := by
  induction l generalizing s c with
  | nil => exact h
  | cons a l ih =>
    have h1 := inState_constAct (calCause a) (fun g t => forceConsts g (calAct a g t)) g c (fun _ _ ht => inState_forceConsts _ (inState_calAct _ _ ht)) h
    rw [calActList]
    generalize constAct (calCause a) (fun g t => forceConsts g (calAct a g t)) g s c = q at h1 ⊢
    exact ih _ h1

theorem inState_calActs (g : ℕ) {s : Device} (hs : s.InState pk) :
    (calActs g s).1.InState pk := by
  unfold calActs
  repeat' first
    | with_reducible assumption
    | with_reducible apply Device.inState_modDue
    | with_reducible refine Device.inState_setReg _ _ ?_ ?_
    | with_reducible exact chAddr_ne _ _
    | with_reducible exact dieAddr_ne _ _
    | (with_reducible show _ ≠ 2; omega)
    | (refine Device.inState_fst (by with_reducible assumption) ?_; with_reducible apply inState_writtenActs)
    | with_reducible apply inState_writtenActs
    | (refine Device.inState_fst (by with_reducible assumption) ?_; with_reducible apply inState_calActList)
    | with_reducible apply inState_calActList
    | with_reducible apply Device.inState_foldl
    | intro _
    | split
    | dsimp only

theorem inState_constBoundary (g : ℕ) {s : Device} (hs : s.InState pk) :
    (constBoundary g s).InState pk := by
  unfold constBoundary
  repeat' first
    | with_reducible assumption
    | with_reducible apply inState_startConsts
    | with_reducible apply Device.inState_modDue
    | with_reducible apply inState_constClose
    | (refine Device.inState_fst (by with_reducible assumption) ?_; with_reducible apply inState_writtenActs)
    | with_reducible apply inState_writtenActs
    | (refine Device.inState_fst (by with_reducible assumption) ?_; with_reducible apply inState_calActs)
    | with_reducible apply inState_calActs
    | with_reducible apply Device.inState_ite
    | intro _
    | split
    | dsimp only

theorem inState_calApply (data : Sys2Proof.Word) (g : ℕ) {s : Device} (hs : s.InState pk) :
    (calApply data g s).InState pk := by
  unfold calApply
  repeat' first
    | with_reducible assumption
    | with_reducible apply inState_calRefuse
    | with_reducible apply inState_calQueue
    | with_reducible apply Device.inState_ite
    | intro _
    | split
    | dsimp only

theorem inState_runRecord (qRef : ℤ) (qDev : ℤ) (net : ℤ) (causes : ℕ) (g : ℕ) {s : Device} (hs : s.InState pk) :
    (runRecord qRef qDev net causes g s).InState pk := by
  unfold runRecord
  repeat' first
    | with_reducible assumption
    | with_reducible apply Device.inState_modConv
    | with_reducible apply Device.inState_cset
    | with_reducible apply Device.inState_ite
    | intro _
    | split
    | dsimp only

/-! Valve. -/

theorem inState_clampOt (d : ℕ) {s : Device} (hs : s.InState pk) :
    (clampOt d s).InState pk := by
  unfold clampOt
  repeat' first
    | with_reducible assumption
    | with_reducible apply inState_logEvent
    | with_reducible apply Device.inState_dset
    | with_reducible apply Device.inState_ite
    | intro _
    | split
    | dsimp only

theorem inState_clampOtClear (d : ℕ) {s : Device} (hs : s.InState pk) :
    (clampOtClear d s).InState pk := by
  unfold clampOtClear
  repeat' first
    | with_reducible assumption
    | with_reducible apply Device.inState_dset
    | intro _
    | split
    | dsimp only

theorem inState_vset (v : ℕ) (f : Fld Blk.die) (x : ℕ) {s : Device} (hs : s.InState pk) :
    (vset v f x s).InState pk := by
  unfold vset
  repeat' first
    | with_reducible assumption
    | with_reducible apply Device.inState_dset
    | intro _
    | split
    | dsimp only

theorem inState_bankPending (d : ℕ) {s : Device} (hs : s.InState pk) :
    (bankPending d s).InState pk := by
  unfold bankPending
  repeat' first
    | with_reducible assumption
    | with_reducible apply Device.inState_dset
    | with_reducible apply inState_vset
    | with_reducible apply Device.inState_ite
    | with_reducible apply Device.inState_each
    | intro _
    | split
    | dsimp only

theorem inState_valveRefuse (code : ℕ) (v : ℕ) (pt : ℕ) (seat : Option ℕ) {s : Device} (hs : s.InState pk) :
    (valveRefuse code v pt seat s).InState pk := by
  unfold valveRefuse
  repeat' first
    | with_reducible assumption
    | with_reducible apply Device.inState_dinc
    | with_reducible apply inState_vset
    | with_reducible apply inState_logEvent
    | with_reducible apply inState_reseatRefused
    | with_reducible refine Device.inState_pset _ _ ?_ ?_
    | with_reducible exact Fld.free_at _ (by decide)
    | (with_reducible show Fld.Free _; decide)
    | with_reducible apply Device.inState_ite
    | intro _
    | split
    | dsimp only

theorem inState_valveAccept (v : ℕ) (on : Bool) (pt : ℕ) (seat : Option ℕ) {s : Device} (hs : s.InState pk) :
    (valveAccept v on pt seat s).InState pk := by
  unfold valveAccept
  repeat' first
    | with_reducible assumption
    | with_reducible apply inState_valveRefuse
    | with_reducible apply inState_bankPending
    | with_reducible apply Device.inState_ite
    | with_reducible apply Device.inState_mk
    | with_reducible apply Device.InState.word
    | intro _
    | split
    | dsimp only

theorem inState_valveReq (v : ℕ) (on : Bool) (now : Bool) {s : Device} (hs : s.InState pk) :
    (valveReq v on now s).InState pk := by
  unfold valveReq
  repeat' first
    | with_reducible assumption
    | with_reducible apply inState_valveAccept
    | with_reducible apply Device.inState_ite
    | intro _
    | split
    | dsimp only

theorem inState_modCoil (v : ℕ) (f : Coil → Coil) {s : Device} (hs : s.InState pk) :
    (modCoil v f s).InState pk := by
  unfold modCoil
  repeat' first
    | with_reducible assumption
    | with_reducible apply Device.inState_modDie
    | intro _
    | split
    | dsimp only

theorem inState_bankRow (d : ℕ) {s : Device} (hs : s.InState pk) :
    (bankRow d s).InState pk := by
  unfold bankRow
  repeat' first
    | with_reducible assumption
    | with_reducible apply Device.inState_modDie
    | with_reducible apply Device.inState_dset
    | with_reducible apply inState_vset
    | with_reducible apply Device.inState_ite
    | with_reducible apply Device.inState_each
    | intro _
    | split
    | dsimp only

theorem inState_setValvePhase (p : ℕ) (v : ℕ) {s : Device} (hs : s.InState pk) :
    (setValvePhase p v s).InState pk := by
  unfold setValvePhase
  repeat' first
    | with_reducible assumption
    | with_reducible apply inState_modCoil
    | with_reducible apply inState_vset
    | with_reducible apply inState_bankRow
    | intro _
    | split
    | dsimp only

theorem inState_dropToHold (v : ℕ) {s : Device} (hs : s.InState pk) :
    (dropToHold v s).InState pk := by
  unfold dropToHold
  repeat' first
    | with_reducible assumption
    | with_reducible apply inState_setValvePhase
    | with_reducible apply inState_vset
    | with_reducible apply Device.inState_ite
    | intro _
    | split
    | dsimp only

theorem inState_vreqDrop (r : VReq) {s : Device} (hs : s.InState pk) :
    (vreqDrop r s).InState pk := by
  unfold vreqDrop
  repeat' first
    | with_reducible assumption
    | with_reducible apply inState_bankPending
    | with_reducible apply Device.inState_mk
    | with_reducible apply Device.InState.word
    | intro _
    | split
    | dsimp only

theorem inState_valveBatons {s : Device} (hs : s.InState pk) :
    (valveBatons s).InState pk := by
  unfold valveBatons
  repeat' first
    | with_reducible assumption
    | with_reducible refine Device.inState_pset _ _ ?_ ?_
    | with_reducible exact Fld.free_at _ (by decide)
    | (with_reducible show Fld.Free _; decide)
    | with_reducible apply Device.inState_ite
    | with_reducible apply Device.inState_foldl
    | intro _
    | split
    | dsimp only

theorem inState_pullStart (r : VReq) {s : Device} (hs : s.InState pk) :
    (pullStart r s).InState pk := by
  unfold pullStart
  repeat' first
    | with_reducible assumption
    | with_reducible apply inState_setValvePhase
    | with_reducible apply inState_vreqDrop
    | with_reducible apply inState_modCoil
    | with_reducible apply inState_valveBatons
    | with_reducible apply Device.inState_setBanks
    | with_reducible apply Device.inState_setGrants
    | intro _
    | split
    | dsimp only

theorem inState_pullFree (v : ℕ) {s : Device} (hs : s.InState pk) :
    (pullFree v s).InState pk := by
  unfold pullFree
  repeat' first
    | with_reducible assumption
    | with_reducible apply Device.inState_modDie
    | with_reducible apply inState_valveBatons
    | with_reducible apply Device.inState_setBanks
    | with_reducible apply Device.inState_setGrants
    | intro _
    | split
    | dsimp only

theorem inState_releaseValve (latched : Bool) (v : ℕ) {s : Device} (hs : s.InState pk) :
    (releaseValve latched v s).InState pk := by
  unfold releaseValve
  repeat' first
    | with_reducible assumption
    | with_reducible apply inState_pullFree
    | with_reducible apply inState_setValvePhase
    | with_reducible apply inState_modCoil
    | with_reducible apply Device.inState_ite
    | intro _
    | split
    | dsimp only

theorem inState_valveDiag (f : Fld Blk.die) (code : ℕ) (v : ℕ) {s : Device} (hs : s.InState pk) :
    (valveDiag f code v s).InState pk := by
  unfold valveDiag
  repeat' first
    | with_reducible assumption
    | with_reducible apply inState_logEvent
    | with_reducible apply inState_vset
    | with_reducible apply inState_releaseValve
    | with_reducible apply Device.inState_ite
    | intro _
    | split
    | dsimp only

theorem inState_valveShort (v : ℕ) {s : Device} (hs : s.InState pk) :
    (valveShort v s).InState pk := by
  unfold valveShort
  repeat' first
    | with_reducible assumption
    | with_reducible apply inState_valveDiag
    | intro _
    | split
    | dsimp only

theorem inState_boostWritten (was : Bool) {s : Device} (hs : s.InState pk) :
    (boostWritten was s).InState pk := by
  unfold boostWritten
  repeat' first
    | with_reducible assumption
    | with_reducible apply Device.inState_modSup
    | with_reducible apply Device.inState_ite
    | intro _
    | split
    | dsimp only

theorem inState_stateValves {s : Device} (hs : s.InState pk) :
    (stateValves s).InState pk := by
  unfold stateValves
  repeat' first
    | with_reducible assumption
    | with_reducible apply inState_bankRow
    | with_reducible apply Device.inState_each
    | intro _
    | split
    | dsimp only

theorem inState_vreqRefuse (code : ℕ) (r : VReq) {s : Device} (hs : s.InState pk) :
    (vreqRefuse code r s).InState pk := by
  unfold vreqRefuse
  repeat' first
    | with_reducible assumption
    | with_reducible apply inState_valveRefuse
    | with_reducible apply inState_vreqDrop
    | intro _
    | split
    | dsimp only

theorem inState_valvesHusk (d : ℕ) {s : Device} (hs : s.InState pk) :
    (valvesHusk d s).InState pk := by
  unfold valvesHusk
  repeat' first
    | with_reducible assumption
    | with_reducible apply inState_setValvePhase
    | with_reducible apply inState_vreqRefuse
    | with_reducible apply Device.inState_ite
    | with_reducible apply Device.inState_foldl
    | with_reducible apply Device.inState_each
    | intro _
    | split
    | dsimp only

theorem inState_clampTest (v : ℕ) {s : Device} (hs : s.InState pk) :
    (clampTest v s).InState pk := by
  unfold clampTest
  repeat' first
    | with_reducible assumption
    | with_reducible apply inState_vset
    | with_reducible refine Device.inState_setReg _ _ ?_ ?_
    | with_reducible exact chAddr_ne _ _
    | with_reducible exact dieAddr_ne _ _
    | (with_reducible show _ ≠ 2; omega)
    | with_reducible apply Device.inState_ite
    | intro _
    | split
    | dsimp only

theorem inState_vbstCfgWrite (data : Sys2Proof.Word) {s : Device} (hs : s.InState pk) :
    (vbstCfgWrite data s).InState pk := by
  unfold vbstCfgWrite
  repeat' first
    | with_reducible assumption
    | with_reducible apply inState_boostWritten
    | with_reducible apply inState_clampTest
    | with_reducible refine Device.inState_setReg _ _ ?_ ?_
    | with_reducible exact chAddr_ne _ _
    | with_reducible exact dieAddr_ne _ _
    | (with_reducible show _ ≠ 2; omega)
    | with_reducible apply Device.inState_ite
    | with_reducible apply Device.inState_each
    | intro _
    | split
    | dsimp only

theorem inState_seatDone (seat : Option ℕ) (p : Seat) {s : Device} (hs : s.InState pk) :
    (seatDone seat p s).InState pk := by
  unfold seatDone
  repeat' first
    | with_reducible assumption
    | with_reducible apply Device.inState_modEng
    | with_reducible apply Device.inState_ite
    | intro _
    | split
    | dsimp only

theorem inState_offDue (r : VReq) {s : Device} (hs : s.InState pk) :
    (offDue r s).InState pk := by
  unfold offDue
  repeat' first
    | with_reducible assumption
    | with_reducible apply inState_vreqDrop
    | with_reducible apply inState_vreqRefuse
    | with_reducible apply inState_releaseValve
    | with_reducible apply inState_seatDone
    | with_reducible apply Device.inState_ite
    | intro _
    | split
    | dsimp only

theorem inState_vreqMod (r : VReq) (f : VReq → VReq) {s : Device} (hs : s.InState pk) :
    (vreqMod r f s).InState pk := by
  unfold vreqMod
  repeat' first
    | with_reducible assumption
    | with_reducible apply Device.inState_ite
    | with_reducible apply Device.inState_mk
    | with_reducible apply Device.InState.word
    | intro _
    | split
    | dsimp only

theorem inState_onDue (r : VReq) {s : Device} (hs : s.InState pk) :
    (onDue r s).InState pk := by
  unfold onDue
  repeat' first
    | with_reducible assumption
    | with_reducible apply inState_seatDone
    | with_reducible apply inState_vreqDrop
    | with_reducible apply inState_vreqRefuse
    | with_reducible apply inState_vreqMod
    | with_reducible apply inState_pullStart
    | with_reducible apply Device.inState_dinc
    | with_reducible apply Device.inState_ite
    | intro _
    | split
    | dsimp only

theorem inState_valveEvent (v : ℕ) (on : Bool) {s : Device} (hs : s.InState pk) :
    (valveEvent v on s).InState pk := by
  unfold valveEvent
  repeat' first
    | with_reducible assumption
    | with_reducible apply inState_onDue
    | with_reducible apply inState_offDue
    | with_reducible apply Device.inState_ite
    | intro _
    | split
    | dsimp only

theorem inState_valveCfgWrite (v : ℕ) (data : Sys2Proof.Word) {s : Device} (hs : s.InState pk) :
    (valveCfgWrite v data s).InState pk := by
  unfold valveCfgWrite
  repeat' first
    | with_reducible assumption
    | with_reducible refine Device.inState_setReg _ _ ?_ ?_
    | with_reducible exact chAddr_ne _ _
    | with_reducible exact dieAddr_ne _ _
    | (with_reducible show _ ≠ 2; omega)
    | intro _
    | split
    | dsimp only

theorem inState_valveSeatReq (g : ℕ) (on : Bool) {s : Device} (hs : s.InState pk) :
    (valveSeatReq g on s).InState pk := by
  unfold valveSeatReq
  repeat' first
    | with_reducible assumption
    | with_reducible apply inState_valveAccept
    | intro _
    | split
    | dsimp only

theorem inState_handoverValves {s : Device} (hs : s.InState pk) :
    (handoverValves s).InState pk := by
  unfold handoverValves
  repeat' first
    | with_reducible assumption
    | with_reducible apply inState_releaseValve
    | with_reducible apply inState_bankRow
    | with_reducible apply Device.inState_ite
    | with_reducible apply Device.inState_each
    | intro _
    | split
    | dsimp only

theorem inState_boostOv {s : Device} (hs : s.InState pk) :
    (boostOv s).InState pk := by
  unfold boostOv
  repeat' first
    | with_reducible assumption
    | with_reducible refine Device.inState_pset _ _ ?_ ?_
    | with_reducible exact Fld.free_at _ (by decide)
    | (with_reducible show Fld.Free _; decide)
    | intro _
    | split
    | dsimp only

theorem inState_valveSlow (v : ℕ) {s : Device} (hs : s.InState pk) :
    (valveSlow v s).InState pk := by
  unfold valveSlow
  repeat' first
    | with_reducible assumption
    | with_reducible apply inState_valveDiag
    | with_reducible apply Device.inState_ite
    | intro _
    | split
    | dsimp only

theorem inState_valveBatonExpiry (b : Sys2Proof.ValveBaton) {s : Device} (hs : s.InState pk) :
    (valveBatonExpiry b s).InState pk := by
  unfold valveBatonExpiry
  repeat' first
    | with_reducible assumption
    | with_reducible apply inState_logEvent
    | with_reducible apply inState_valveBatons
    | with_reducible apply Device.inState_setBanks
    | with_reducible apply Device.inState_setGrants
    | with_reducible refine Device.inState_pset _ _ ?_ ?_
    | with_reducible exact Fld.free_at _ (by decide)
    | (with_reducible show Fld.Free _; decide)
    | with_reducible apply Device.inState_ite
    | intro _
    | split
    | dsimp only

theorem inState_storeRelease {s : Device} (hs : s.InState pk) :
    (storeRelease s).InState pk := by
  unfold storeRelease
  repeat' first
    | with_reducible assumption
    | with_reducible apply Device.inState_modSup
    | with_reducible apply inState_releaseValve
    | with_reducible apply inState_logEvent
    | with_reducible apply inState_vset
    | with_reducible apply Device.inState_ite
    | intro _
    | split
    | dsimp only

theorem inState_valveCleared (v : ℕ) {s : Device} (hs : s.InState pk) :
    (valveCleared v s).InState pk := by
  unfold valveCleared
  repeat' first
    | with_reducible assumption
    | with_reducible apply inState_setValvePhase
    | with_reducible apply inState_modCoil
    | with_reducible apply Device.inState_ite
    | intro _
    | split
    | dsimp only

theorem inState_pullInStart (v : ℕ) {s : Device} (hs : s.InState pk) :
    (pullInStart v s).InState pk := by
  unfold pullInStart
  repeat' first
    | with_reducible assumption
    | with_reducible apply inState_onDue
    | with_reducible apply Device.inState_ite
    | intro _
    | split
    | dsimp only

theorem inState_chopPeriod (v : ℕ) (imeas : ℕ) {s : Device} (hs : s.InState pk) :
    (chopPeriod v imeas s).InState pk := by
  unfold chopPeriod
  repeat' first
    | with_reducible assumption
    | with_reducible apply inState_vset
    | with_reducible apply inState_modCoil
    | with_reducible apply Device.inState_ite
    | intro _
    | split
    | dsimp only

theorem inState_valveOpen (v : ℕ) {s : Device} (hs : s.InState pk) :
    (valveOpen v s).InState pk := by
  unfold valveOpen
  repeat' first
    | with_reducible assumption
    | with_reducible apply inState_valveDiag
    | with_reducible apply Device.inState_ite
    | intro _
    | split
    | dsimp only

theorem inState_valveSlip (v : ℕ) {s : Device} (hs : s.InState pk) :
    (valveSlip v s).InState pk := by
  unfold valveSlip
  repeat' first
    | with_reducible assumption
    | with_reducible apply inState_vreqRefuse
    | with_reducible apply Device.inState_ite
    | intro _
    | split
    | dsimp only

theorem inState_pullEnd (d : ℕ) {s : Device} (hs : s.InState pk) :
    (pullEnd d s).InState pk := by
  unfold pullEnd
  repeat' first
    | with_reducible assumption
    | with_reducible apply inState_seatDone
    | with_reducible apply inState_modCoil
    | with_reducible apply inState_setValvePhase
    | with_reducible apply inState_pullFree
    | with_reducible apply Device.inState_ite
    | intro _
    | split
    | dsimp only

theorem inState_valveModeWrite (v : ℕ) (data : Sys2Proof.Word) {s : Device} (hs : s.InState pk) :
    (valveModeWrite v data s).InState pk := by
  unfold valveModeWrite
  repeat' first
    | with_reducible assumption
    | with_reducible apply inState_clampTest
    | with_reducible refine Device.inState_setReg _ _ ?_ ?_
    | with_reducible exact chAddr_ne _ _
    | with_reducible exact dieAddr_ne _ _
    | (with_reducible show _ ≠ 2; omega)
    | intro _
    | split
    | dsimp only

theorem inState_releaseToOff (v : ℕ) {s : Device} (hs : s.InState pk) :
    (releaseToOff v s).InState pk := by
  unfold releaseToOff
  repeat' first
    | with_reducible assumption
    | with_reducible apply inState_valveCleared
    | with_reducible apply inState_vset
    | with_reducible apply inState_setValvePhase
    | with_reducible apply Device.inState_ite
    | intro _
    | split
    | dsimp only

theorem inState_schedulerStart {s : Device} (hs : s.InState pk) :
    (schedulerStart s).InState pk := by
  unfold schedulerStart
  repeat' first
    | with_reducible assumption
    | with_reducible apply inState_valveBatons
    | with_reducible apply inState_bankPending
    | with_reducible apply Device.inState_each
    | with_reducible apply Device.inState_mk
    | with_reducible apply Device.InState.word
    | intro _
    | split
    | dsimp only

/-! Supply. -/

theorem inState_supplyForce {s : Device} (hs : s.InState pk) :
    (supplyForce s).InState pk := by
  unfold supplyForce
  repeat' first
    | with_reducible assumption
    | with_reducible apply Device.inState_pforce
    | with_reducible apply Device.inState_each
    | intro _
    | split
    | dsimp only

theorem inState_modSeq (f : Seq → Seq) {s : Device} (hs : s.InState pk) :
    (modSeq f s).InState pk := by
  unfold modSeq
  repeat' first
    | with_reducible assumption
    | with_reducible apply Device.inState_modSup
    | intro _
    | split
    | dsimp only

theorem inState_seqEnd (code : ℕ) {s : Device} (hs : s.InState pk) :
    (seqEnd code s).InState pk := by
  unfold seqEnd
  repeat' first
    | with_reducible assumption
    | with_reducible apply inState_modSeq
    | with_reducible refine Device.inState_pset _ _ ?_ ?_
    | with_reducible exact Fld.free_at _ (by decide)
    | (with_reducible show Fld.Free _; decide)
    | intro _
    | split
    | dsimp only

theorem auxOnBit_free (r : ℕ) : (auxOnBit r).Free := by
  unfold auxOnBit
  split
  · decide
  · split <;> decide

theorem auxOv_free (r : ℕ) : (auxOv r).Free := by
  unfold auxOv
  split
  · decide
  · split <;> decide

theorem auxUvF_free (r : ℕ) : (auxUvF r).Free := by
  unfold auxUvF
  split
  · decide
  · split <;> decide

theorem inState_railOff1 (r : ℕ) {s : Device} (h : s.InState pk) : (railOff1 r s).InState pk := by
  unfold railOff1
  refine Device.inState_modSar _ _ ?_
  refine Device.inState_psetBit _ _ _ (by decide) ?_
  exact Device.inState_pset _ _ (auxOnBit_free r) h

theorem inState_depC {s : Device} (hs : s.InState pk) :
    (depC s).InState pk := by
  unfold depC
  repeat' first
    | with_reducible assumption
    | with_reducible apply inState_railOff1
    | with_reducible refine Device.inState_pset _ _ ?_ ?_
    | with_reducible exact Fld.free_at _ (by decide)
    | (with_reducible show Fld.Free _; decide)
    | with_reducible apply Device.inState_ite
    | intro _
    | split
    | dsimp only

theorem inState_railOff (r : ℕ) {s : Device} (hs : s.InState pk) :
    (railOff r s).InState pk := by
  unfold railOff
  repeat' first
    | with_reducible assumption
    | with_reducible apply inState_railOff1
    | with_reducible apply inState_depC
    | with_reducible apply Device.inState_ite
    | intro _
    | split
    | dsimp only

theorem inState_seqOffNext {s : Device} (hs : s.InState pk) :
    (seqOffNext s).InState pk := by
  unfold seqOffNext
  repeat' first
    | with_reducible assumption
    | with_reducible apply inState_seqEnd
    | with_reducible apply inState_modSeq
    | with_reducible apply inState_railOff
    | intro _
    | split
    | dsimp only

theorem inState_seqOff (set : List ℕ) {s : Device} (hs : s.InState pk) :
    (seqOff set s).InState pk := by
  unfold seqOff
  repeat' first
    | with_reducible assumption
    | with_reducible apply inState_seqOffNext
    | with_reducible apply inState_modSeq
    | with_reducible refine Device.inState_pset _ _ ?_ ?_
    | with_reducible exact Fld.free_at _ (by decide)
    | (with_reducible show Fld.Free _; decide)
    | intro _
    | split
    | dsimp only

theorem inState_seqOffHold {s : Device} (hs : s.InState pk) :
    (seqOffHold s).InState pk := by
  unfold seqOffHold
  repeat' first
    | with_reducible assumption
    | with_reducible apply inState_seqOff
    | with_reducible apply inState_modSeq
    | intro _
    | split
    | dsimp only

theorem inState_railOn (r : ℕ) {s : Device} (h : s.InState pk) : (railOn r s).InState pk := by
  unfold railOn
  split
  · exact h
  · refine Device.inState_modSup _ (Device.inState_modSar _ _ ?_)
    exact Device.inState_pset _ _ (auxOnBit_free r) h

theorem inState_seqNext {s : Device} (hs : s.InState pk) :
    (seqNext s).InState pk := by
  unfold seqNext
  repeat' first
    | with_reducible assumption
    | with_reducible apply inState_modSeq
    | with_reducible apply inState_seqEnd
    | intro _
    | split
    | dsimp only

theorem inState_seqAdvance {s : Device} (hs : s.InState pk) :
    (seqAdvance s).InState pk := by
  unfold seqAdvance
  repeat' first
    | with_reducible assumption
    | with_reducible apply inState_seqNext
    | with_reducible apply Device.inState_ite
    | intro _
    | split
    | dsimp only

theorem inState_seqDelay {s : Device} (hs : s.InState pk) :
    (seqDelay s).InState pk := by
  unfold seqDelay
  repeat' first
    | with_reducible assumption
    | with_reducible apply inState_seqOffNext
    | with_reducible apply inState_modSeq
    | with_reducible apply inState_seqEnd
    | with_reducible apply inState_railOn
    | with_reducible apply inState_seqAdvance
    | with_reducible refine Device.inState_pset _ _ ?_ ?_
    | with_reducible exact Fld.free_at _ (by decide)
    | (with_reducible show Fld.Free _; decide)
    | with_reducible apply Device.inState_ite
    | with_reducible apply Device.inState_each
    | intro _
    | split
    | dsimp only

theorem inState_railLatch (ov : Bool) (r mv : ℕ) {s : Device} (h : s.InState pk) : (railLatch ov r mv s).InState pk := by
  have h1 : ∀ f : Fld .pkg, f.Free → (railOff r (s.pset f 1)).InState pk := fun f hf => inState_railOff _ (Device.inState_pset _ _ hf h)
  have h2 : (railOff r (s.pset (if ov then auxOv r else auxUvF r) 1)).InState pk := by
    split
    · exact h1 _ (auxOv_free r)
    · exact h1 _ (auxUvF_free r)
  unfold railLatch
  dsimp only
  generalize railOff r (s.pset (if ov then auxOv r else auxUvF r) 1) = t at h2 ⊢
  have h3 : ∀ c e d, (if s.pbit (if ov then auxOv r else auxUvF r) then t else logEvent Cat.keep 0 c e d t).InState pk := fun c e d =>
    Device.inState_ite (fun _ => h2) fun _ => inState_logEvent _ _ _ _ _ h2
  exact Device.inState_ite (fun _ => Device.inState_pset _ _ (by decide) (inState_seqEnd _ (h3 _ _ _))) fun _ => h3 _ _ _

theorem inState_railReading (r : ℕ) (mv : ℕ) {s : Device} (hs : s.InState pk) :
    (railReading r mv s).InState pk := by
  unfold railReading
  repeat' first
    | with_reducible assumption
    | with_reducible apply inState_railLatch
    | with_reducible apply Device.inState_modSup
    | with_reducible apply Device.inState_modSar
    | with_reducible apply inState_seqAdvance
    | with_reducible apply inState_depC
    | with_reducible refine Device.inState_psetBit _ _ _ ?_ ?_
    | with_reducible exact Fld.free_at _ (by decide)
    | (with_reducible show Fld.Free _; decide)
    | with_reducible apply Device.inState_ite
    | intro _
    | split
    | dsimp only

theorem inState_ikeepMeasured (ikeep : ℤ) {s : Device} (hs : s.InState pk) :
    (ikeepMeasured ikeep s).InState pk := by
  unfold ikeepMeasured
  repeat' first
    | with_reducible assumption
    | with_reducible apply Device.inState_modSup
    | with_reducible refine Device.inState_pset _ _ ?_ ?_
    | with_reducible exact Fld.free_at _ (by decide)
    | (with_reducible show Fld.Free _; decide)
    | intro _
    | split
    | dsimp only

theorem inState_ikeepOpen {s : Device} (hs : s.InState pk) :
    (ikeepOpen s).InState pk := by
  unfold ikeepOpen
  repeat' first
    | with_reducible assumption
    | with_reducible apply Device.inState_nextFree
    | with_reducible apply inState_ikeepMeasured
    | with_reducible apply Device.inState_ite
    | intro _
    | split
    | dsimp only

theorem inState_auxOnWrite (data : Sys2Proof.Word) {s : Device} (hs : s.InState pk) :
    (auxOnWrite data s).InState pk := by
  unfold auxOnWrite
  repeat' first
    | with_reducible assumption
    | with_reducible apply inState_railOff
    | with_reducible apply inState_railOn
    | with_reducible refine Device.inState_pset _ _ ?_ ?_
    | with_reducible exact Fld.free_at _ (by decide)
    | (with_reducible show Fld.Free _; decide)
    | with_reducible apply Device.inState_ite
    | with_reducible apply Device.inState_each
    | intro _
    | split
    | dsimp only

theorem inState_seqOn (set : List ℕ) {s : Device} (hs : s.InState pk) :
    (seqOn set s).InState pk := by
  unfold seqOn
  repeat' first
    | with_reducible assumption
    | with_reducible apply inState_seqNext
    | with_reducible apply inState_modSeq
    | with_reducible refine Device.inState_pset _ _ ?_ ?_
    | with_reducible exact Fld.free_at _ (by decide)
    | (with_reducible show Fld.Free _; decide)
    | intro _
    | split
    | dsimp only

theorem inState_auxCtlWrite (data : Sys2Proof.Word) {s : Device} (hs : s.InState pk) :
    (auxCtlWrite data s).InState pk := by
  unfold auxCtlWrite
  repeat' first
    | with_reducible assumption
    | with_reducible apply inState_auxOnWrite
    | with_reducible apply inState_seqOn
    | with_reducible apply inState_seqOff
    | with_reducible apply Device.inState_ite
    | intro _
    | split
    | dsimp only

theorem inState_auxUv (r : ℕ) {s : Device} (hs : s.InState pk) :
    (auxUv r s).InState pk := by
  unfold auxUv
  repeat' first
    | with_reducible assumption
    | with_reducible apply inState_railLatch
    | with_reducible apply Device.inState_ite
    | intro _
    | split
    | dsimp only

theorem inState_supplSet (on : Bool) {s : Device} (hs : s.InState pk) :
    (supplSet on s).InState pk := by
  unfold supplSet
  repeat' first
    | with_reducible assumption
    | with_reducible apply inState_ikeepOpen
    | with_reducible refine Device.inState_pset _ _ ?_ ?_
    | with_reducible exact Fld.free_at _ (by decide)
    | (with_reducible show Fld.Free _; decide)
    | with_reducible apply Device.inState_ite
    | intro _
    | split
    | dsimp only

theorem inState_supplCheck {s : Device} (hs : s.InState pk) :
    (supplCheck s).InState pk := by
  unfold supplCheck
  repeat' first
    | with_reducible assumption
    | with_reducible apply inState_supplSet
    | with_reducible apply Device.inState_ite
    | intro _
    | split
    | dsimp only

theorem inState_storeBoundary {s : Device} (hs : s.InState pk) :
    (storeBoundary s).InState pk := by
  unfold storeBoundary
  repeat' first
    | with_reducible assumption
    | with_reducible apply Device.inState_modSup
    | with_reducible refine Device.inState_pset _ _ ?_ ?_
    | with_reducible refine Device.inState_setReg _ _ ?_ ?_
    | with_reducible exact Fld.free_at _ (by decide)
    | (with_reducible show Fld.Free _; decide)
    | with_reducible exact chAddr_ne _ _
    | with_reducible exact dieAddr_ne _ _
    | (with_reducible show _ ≠ 2; omega)
    | with_reducible apply Device.inState_ite
    | intro _
    | split
    | dsimp only

theorem inState_chargerEnter (c : ℕ) {s : Device} (hs : s.InState pk) :
    (chargerEnter c s).InState pk := by
  unfold chargerEnter
  repeat' first
    | with_reducible assumption
    | with_reducible apply Device.inState_modSup
    | with_reducible refine Device.inState_pset _ _ ?_ ?_
    | with_reducible exact Fld.free_at _ (by decide)
    | (with_reducible show Fld.Free _; decide)
    | with_reducible apply Device.inState_ite
    | intro _
    | split
    | dsimp only

theorem inState_qualRestart {s : Device} (hs : s.InState pk) :
    (qualRestart s).InState pk := by
  unfold qualRestart
  repeat' first
    | with_reducible assumption
    | with_reducible apply Device.inState_modSup
    | intro _
    | split
    | dsimp only

theorem inState_vbusBelowRise {s : Device} (hs : s.InState pk) :
    (vbusBelowRise s).InState pk := by
  unfold vbusBelowRise
  repeat' first
    | with_reducible assumption
    | with_reducible apply Device.inState_modSup
    | with_reducible apply inState_qualRestart
    | intro _
    | split
    | dsimp only

theorem inState_supplement (on : Bool) {s : Device} (hs : s.InState pk) :
    (supplement on s).InState pk := by
  unfold supplement
  repeat' first
    | with_reducible assumption
    | with_reducible apply inState_supplSet
    | with_reducible apply Device.inState_ite
    | intro _
    | split
    | dsimp only

theorem inState_gleanRise {s : Device} (hs : s.InState pk) :
    (gleanRise s).InState pk := by
  unfold gleanRise
  repeat' first
    | with_reducible assumption
    | with_reducible apply Device.inState_modGlean
    | with_reducible apply Device.inState_each
    | intro _
    | split
    | dsimp only

theorem inState_vbusNotGood {s : Device} (hs : s.InState pk) :
    (vbusNotGood s).InState pk := by
  unfold vbusNotGood
  repeat' first
    | with_reducible assumption
    | with_reducible apply Device.inState_modGlean
    | with_reducible refine Device.inState_pset _ _ ?_ ?_
    | with_reducible exact Fld.free_at _ (by decide)
    | (with_reducible show Fld.Free _; decide)
    | with_reducible apply Device.inState_ite
    | intro _
    | split
    | dsimp only

theorem inState_chargerTimeout {s : Device} (hs : s.InState pk) :
    (chargerTimeout s).InState pk := by
  unfold chargerTimeout
  repeat' first
    | with_reducible assumption
    | with_reducible apply inState_ikeepOpen
    | with_reducible refine Device.inState_pset _ _ ?_ ?_
    | with_reducible exact Fld.free_at _ (by decide)
    | (with_reducible show Fld.Free _; decide)
    | with_reducible apply Device.inState_ite
    | intro _
    | split
    | dsimp only

theorem inState_keepBand (t : ℤ) {s : Device} (hs : s.InState pk) :
    (keepBand t s).InState pk := by
  unfold keepBand
  repeat' first
    | with_reducible assumption
    | with_reducible apply Device.inState_modSup
    | with_reducible refine Device.inState_pset _ _ ?_ ?_
    | with_reducible exact Fld.free_at _ (by decide)
    | (with_reducible show Fld.Free _; decide)
    | intro _
    | split
    | dsimp only

theorem inState_keepBoundary {s : Device} (hs : s.InState pk) :
    (keepBoundary s).InState pk := by
  unfold keepBoundary
  repeat' first
    | with_reducible assumption
    | with_reducible apply Device.inState_modSup
    | with_reducible apply inState_supplCheck
    | with_reducible apply inState_keepBand
    | with_reducible apply Device.inState_nextFree
    | with_reducible refine Device.inState_pset _ _ ?_ ?_
    | with_reducible exact Fld.free_at _ (by decide)
    | (with_reducible show Fld.Free _; decide)
    | with_reducible apply Device.inState_ite
    | with_reducible apply Device.inState_foldl
    | intro _
    | split
    | dsimp only

theorem inState_chargerChange (ikeep : ℤ) {s : Device} (hs : s.InState pk) :
    (chargerChange ikeep s).InState pk := by
  unfold chargerChange
  repeat' first
    | with_reducible assumption
    | with_reducible apply inState_ikeepMeasured
    | with_reducible apply inState_chargerEnter
    | intro _
    | split
    | dsimp only

theorem inState_keepWatch (kntc : Bool) {s : Device} (hs : s.InState pk) :
    (keepWatch kntc s).InState pk := by
  unfold keepWatch
  repeat' first
    | with_reducible assumption
    | with_reducible apply Device.inState_modSup
    | with_reducible apply Device.inState_ite
    | intro _
    | split
    | dsimp only

theorem inState_chargerBoundary {s : Device} (hs : s.InState pk) :
    (chargerBoundary s).InState pk := by
  unfold chargerBoundary
  repeat' first
    | with_reducible assumption
    | with_reducible apply Device.inState_modSup
    | with_reducible apply Device.inState_ite
    | intro _
    | split
    | dsimp only

theorem inState_keeperPresent {s : Device} (hs : s.InState pk) :
    (keeperPresent s).InState pk := by
  unfold keeperPresent
  repeat' first
    | with_reducible assumption
    | with_reducible apply Device.inState_modPins
    | with_reducible apply inState_ikeepOpen
    | with_reducible apply inState_chargerEnter
    | with_reducible refine Device.inState_pset _ _ ?_ ?_
    | with_reducible exact Fld.free_at _ (by decide)
    | (with_reducible show Fld.Free _; decide)
    | with_reducible apply Device.inState_ite
    | intro _
    | split
    | dsimp only

theorem inState_thresholdWrite (ho : Bool) (data : Sys2Proof.Word) {s : Device} (hs : s.InState pk) :
    (thresholdWrite ho data s).InState pk := by
  unfold thresholdWrite
  repeat' first
    | with_reducible assumption
    | with_reducible apply inState_gleanRise
    | with_reducible refine Device.inState_pset _ _ ?_ ?_
    | with_reducible exact Fld.free_at _ (by decide)
    | (with_reducible show Fld.Free _; decide)
    | with_reducible apply Device.inState_ite
    | intro _
    | split
    | dsimp only

theorem inState_keeperRemoved {s : Device} (hs : s.InState pk) :
    (keeperRemoved s).InState pk := by
  unfold keeperRemoved
  repeat' first
    | with_reducible assumption
    | with_reducible apply Device.inState_modPins
    | with_reducible apply inState_ikeepOpen
    | with_reducible apply inState_logEvent
    | with_reducible apply inState_seqCmd
    | with_reducible refine Device.inState_pset _ _ ?_ ?_
    | with_reducible exact Fld.free_at _ (by decide)
    | (with_reducible show Fld.Free _; decide)
    | with_reducible apply Device.inState_ite
    | with_reducible apply Device.inState_each
    | intro _
    | split
    | dsimp only

/-! SarConv. -/

theorem inState_vrefxCheck (c : ℕ) (d : ℕ) {s : Device} (hs : s.InState pk) :
    (vrefxCheck c d s).InState pk := by
  unfold vrefxCheck
  repeat' first
    | with_reducible assumption
    | with_reducible apply Device.inState_modSar
    | with_reducible apply Device.inState_dset
    | with_reducible apply Device.inState_ite
    | intro _
    | split
    | dsimp only

theorem inState_btempReading (c : ℕ) (d : ℕ) {s : Device} (hs : s.InState pk) :
    (btempReading c d s).InState pk := by
  unfold btempReading
  repeat' first
    | with_reducible assumption
    | with_reducible apply Device.inState_dset
    | with_reducible apply Device.inState_modSar
    | with_reducible apply Device.inState_ite
    | intro _
    | split
    | dsimp only

theorem inState_sarSelf (p : ℕ) (c : ℕ) (d : ℕ) {s : Device} (hs : s.InState pk) :
    (sarSelf p c d s).InState pk := by
  unfold sarSelf
  repeat' first
    | with_reducible assumption
    | with_reducible apply Device.inState_modSar
    | with_reducible apply Device.inState_ite
    | intro _
    | split
    | dsimp only

theorem inState_inputSwitch {s : Device} (hs : s.InState pk) :
    (inputSwitch s).InState pk := by
  unfold inputSwitch
  repeat' first
    | with_reducible assumption
    | with_reducible apply Device.inState_nextFree
    | with_reducible refine Device.inState_pset _ _ ?_ ?_
    | with_reducible exact Fld.free_at _ (by decide)
    | (with_reducible show Fld.Free _; decide)
    | with_reducible apply Device.inState_ite
    | intro _
    | split
    | dsimp only

theorem inState_vkeepReading (c : ℕ) {s : Device} (hs : s.InState pk) :
    (vkeepReading c s).InState pk := by
  unfold vkeepReading
  repeat' first
    | with_reducible assumption
    | with_reducible apply Device.inState_nextFree
    | with_reducible apply inState_keepWatch
    | with_reducible apply inState_supplCheck
    | with_reducible refine Device.inState_pset _ _ ?_ ?_
    | with_reducible exact Fld.free_at _ (by decide)
    | (with_reducible show Fld.Free _; decide)
    | with_reducible apply Device.inState_ite
    | intro _
    | split
    | dsimp only

theorem inState_vbstReading (c : ℕ) {s : Device} (hs : s.InState pk) :
    (vbstReading c s).InState pk := by
  unfold vbstReading
  repeat' first
    | with_reducible assumption
    | with_reducible apply Device.inState_modSar
    | with_reducible apply inState_boostOv
    | with_reducible refine Device.inState_pset _ _ ?_ ?_
    | with_reducible exact Fld.free_at _ (by decide)
    | (with_reducible show Fld.Free _; decide)
    | with_reducible apply Device.inState_ite
    | intro _
    | split
    | dsimp only

theorem inState_sarLead (p : ℕ) (c : ℕ) {s : Device} (hs : s.InState pk) :
    (sarLead p c s).InState pk := by
  unfold sarLead
  repeat' first
    | with_reducible assumption
    | with_reducible apply inState_monReading
    | with_reducible apply inState_inputSwitch
    | with_reducible apply inState_railReading
    | with_reducible apply inState_vkeepReading
    | with_reducible apply inState_keepWatch
    | with_reducible apply Device.inState_modSup
    | with_reducible apply inState_vbstReading
    | with_reducible refine Device.inState_pset _ _ ?_ ?_
    | with_reducible exact Fld.free_at _ (by decide)
    | (with_reducible show Fld.Free _; decide)
    | with_reducible apply Device.inState_ite
    | intro _
    | split
    | dsimp only

theorem inState_sarConversion (d : ℕ) (code : ℕ) {s : Device} (hs : s.InState pk) :
    (sarConversion d code s).InState pk := by
  unfold sarConversion
  repeat' first
    | with_reducible assumption
    | with_reducible apply Device.inState_modSar
    | with_reducible apply Device.inState_modEng
    | with_reducible apply inState_btempReading
    | with_reducible apply inState_vrefxCheck
    | with_reducible apply inState_sarSelf
    | with_reducible apply inState_sarLead
    | with_reducible apply Device.inState_ite
    | intro _
    | split
    | dsimp only

theorem inState_vrefxReturn (d : ℕ) {s : Device} (hs : s.InState pk) :
    (vrefxReturn d s).InState pk := by
  unfold vrefxReturn
  repeat' first
    | with_reducible assumption
    | with_reducible apply Device.inState_modDie
    | with_reducible apply Device.inState_ite
    | intro _
    | split
    | dsimp only

theorem inState_sarBoundary (d : ℕ) {s : Device} (hs : s.InState pk) :
    (sarBoundary d s).InState pk := by
  unfold sarBoundary
  repeat' first
    | with_reducible assumption
    | with_reducible apply Device.inState_dset
    | with_reducible apply Device.inState_spend
    | with_reducible apply Device.inState_dforce
    | with_reducible apply Device.inState_modSar
    | with_reducible refine Device.inState_pset _ _ ?_ ?_
    | with_reducible exact Fld.free_at _ (by decide)
    | (with_reducible show Fld.Free _; decide)
    | with_reducible apply Device.inState_ite
    | intro _
    | split
    | dsimp only

theorem inState_refBoundary (d : ℕ) {s : Device} (hs : s.InState pk) :
    (refBoundary d s).InState pk := by
  unfold refBoundary
  repeat' first
    | with_reducible assumption
    | with_reducible apply Device.inState_modDie
    | with_reducible apply Device.inState_dset
    | with_reducible apply inState_logEvent
    | with_reducible apply Device.inState_cset
    | with_reducible apply inState_updateConsts
    | with_reducible apply inState_benchAbort
    | with_reducible apply Device.inState_ite
    | with_reducible apply Device.inState_each
    | intro _
    | split
    | dsimp only

theorem inState_btBoundary (d : ℕ) {s : Device} (hs : s.InState pk) :
    (btBoundary d s).InState pk := by
  unfold btBoundary
  repeat' first
    | with_reducible assumption
    | with_reducible apply Device.inState_nextFree
    | with_reducible apply Device.inState_dset
    | with_reducible apply Device.inState_modSar
    | with_reducible apply Device.inState_ite
    | with_reducible apply Device.inState_foldl
    | intro _
    | split
    | dsimp only

theorem inState_sarFail (d : ℕ) {s : Device} (hs : s.InState pk) :
    (sarFail d s).InState pk := by
  unfold sarFail
  repeat' first
    | with_reducible assumption
    | with_reducible apply inState_logEvent
    | with_reducible apply Device.inState_dset
    | with_reducible apply Device.inState_ite
    | intro _
    | split
    | dsimp only

theorem inState_vrefxFail (d : ℕ) {s : Device} (hs : s.InState pk) :
    (vrefxFail d s).InState pk := by
  unfold vrefxFail
  repeat' first
    | with_reducible assumption
    | with_reducible apply Device.inState_modDie
    | with_reducible apply Device.inState_ite
    | intro _
    | split
    | dsimp only

/-! Pulses. -/

theorem inState_modPulse (n : ℕ) (f : Pulse → Pulse) {s : Device} (hs : s.InState pk) :
    (modPulse n f s).InState pk := by
  unfold modPulse
  repeat' first
    | with_reducible assumption
    | with_reducible apply Device.inState_mk
    | with_reducible apply Device.InState.word
    | intro _
    | split
    | dsimp only

theorem inState_pathClock (n : ℕ) (g : ℕ) (c : ℤ) (e : ℤ) {s : Device} (hs : s.InState pk) :
    (pathClock n g c e s).InState pk := by
  unfold pathClock
  repeat' first
    | with_reducible assumption
    | with_reducible apply inState_modPulse
    | with_reducible apply Device.inState_ite
    | intro _
    | split
    | dsimp only

theorem inState_pulseClock (g : ℕ) (c : ℤ) (e : ℤ) {s : Device} (hs : s.InState pk) :
    (pulseClock g c e s).InState pk := by
  unfold pulseClock
  repeat' first
    | with_reducible assumption
    | with_reducible apply inState_pathClock
    | with_reducible apply Device.inState_ite
    | with_reducible apply Device.inState_each
    | intro _
    | split
    | dsimp only

theorem inState_schedule (n : ℕ) (m : ℕ) (due : ℕ) {s : Device} (hs : s.InState pk) :
    (schedule n m due s).InState pk := by
  unfold schedule
  repeat' first
    | with_reducible assumption
    | with_reducible apply inState_modPulse
    | with_reducible apply inState_setCat
    | with_reducible refine Device.inState_pset _ _ ?_ ?_
    | with_reducible exact Fld.free_at _ (by decide)
    | (with_reducible show Fld.Free _; decide)
    | with_reducible apply Device.inState_ite
    | intro _
    | split
    | dsimp only

theorem inState_drain (n : ℕ) (due : ℕ) {s : Device} (hs : s.InState pk) :
    (drain n due s).InState pk := by
  unfold drain
  repeat' first
    | with_reducible assumption
    | with_reducible apply inState_schedule
    | with_reducible apply inState_modPulse
    | with_reducible apply Device.inState_ite
    | intro _
    | split
    | dsimp only

theorem inState_rateAdvance (n : ℕ) {s : Device} (hs : s.InState pk) :
    (rateAdvance n s).InState pk := by
  unfold rateAdvance
  repeat' first
    | with_reducible assumption
    | with_reducible apply inState_drain
    | with_reducible apply inState_modPulse
    | with_reducible apply Device.inState_ite
    | intro _
    | split
    | dsimp only

theorem inState_plsCfgWrite (n : ℕ) (k : Bool) (data : Sys2Proof.Word) {s : Device} (hs : s.InState pk) :
    (plsCfgWrite n k data s).InState pk := by
  unfold plsCfgWrite
  repeat' first
    | with_reducible assumption
    | with_reducible refine Device.inState_setReg _ _ ?_ ?_
    | with_reducible exact chAddr_ne _ _
    | with_reducible exact dieAddr_ne _ _
    | (with_reducible show _ ≠ 2; omega)
    | with_reducible apply Device.inState_ite
    | intro _
    | split
    | dsimp only

theorem inState_plsPolarity (n : ℕ) {s : Device} (hs : s.InState pk) :
    (plsPolarity n s).InState pk := by
  unfold plsPolarity
  repeat' first
    | with_reducible assumption
    | with_reducible apply inState_modPulse
    | with_reducible apply Device.inState_ite
    | intro _
    | split
    | dsimp only

theorem inState_pulseEnd (n : ℕ) {s : Device} (hs : s.InState pk) :
    (pulseEnd n s).InState pk := by
  unfold pulseEnd
  repeat' first
    | with_reducible assumption
    | with_reducible apply inState_plsPolarity
    | with_reducible apply inState_modPulse
    | with_reducible apply Device.inState_ite
    | intro _
    | split
    | dsimp only

theorem inState_putResq (n : ℕ) {s : Device} (hs : s.InState pk) :
    (putResq n s).InState pk := by
  unfold putResq
  repeat' first
    | with_reducible assumption
    | with_reducible apply Device.inState_nextFree
    | with_reducible refine Device.inState_pset _ _ ?_ ?_
    | with_reducible exact Fld.free_at _ (by decide)
    | (with_reducible show Fld.Free _; decide)
    | with_reducible apply Device.inState_ite
    | intro _
    | split
    | dsimp only

theorem inState_plsConfig (n : ℕ) {s : Device} (hs : s.InState pk) :
    (plsConfig n s).InState pk := by
  unfold plsConfig
  repeat' first
    | with_reducible assumption
    | with_reducible apply inState_modPulse
    | with_reducible apply inState_putResq
    | with_reducible apply inState_plsPolarity
    | with_reducible refine Device.inState_pset _ _ ?_ ?_
    | with_reducible exact Fld.free_at _ (by decide)
    | (with_reducible show Fld.Free _; decide)
    | with_reducible apply Device.inState_ite
    | with_reducible apply Device.inState_foldl
    | intro _
    | split
    | dsimp only

theorem inState_heldBack (n : ℕ) {s : Device} (hs : s.InState pk) :
    (heldBack n s).InState pk := by
  unfold heldBack
  repeat' first
    | with_reducible assumption
    | with_reducible apply inState_drain
    | with_reducible apply inState_modPulse
    | with_reducible apply inState_schedule
    | with_reducible apply Device.inState_ite
    | intro _
    | split
    | dsimp only

theorem inState_pulseEmit (n : ℕ) {s : Device} (hs : s.InState pk) :
    (pulseEmit n s).InState pk := by
  unfold pulseEmit
  repeat' first
    | with_reducible assumption
    | with_reducible apply inState_modPulse
    | with_reducible apply inState_putResq
    | with_reducible apply inState_heldBack
    | with_reducible refine Device.inState_pset _ _ ?_ ?_
    | with_reducible exact Fld.free_at _ (by decide)
    | (with_reducible show Fld.Free _; decide)
    | with_reducible apply Device.inState_ite
    | intro _
    | split
    | dsimp only

theorem inState_plsCut {s : Device} (hs : s.InState pk) :
    (plsCut s).InState pk := by
  unfold plsCut
  repeat' first
    | with_reducible assumption
    | with_reducible apply inState_modPulse
    | with_reducible refine Device.inState_pset _ _ ?_ ?_
    | with_reducible exact Fld.free_at _ (by decide)
    | (with_reducible show Fld.Free _; decide)
    | with_reducible apply Device.inState_ite
    | with_reducible apply Device.inState_each
    | intro _
    | split
    | dsimp only

theorem inState_plsDieStop (d : ℕ) (recovery : Bool) {s : Device} (hs : s.InState pk) :
    (plsDieStop d recovery s).InState pk := by
  unfold plsDieStop
  repeat' first
    | with_reducible assumption
    | with_reducible apply inState_modPulse
    | with_reducible refine Device.inState_pset _ _ ?_ ?_
    | with_reducible exact Fld.free_at _ (by decide)
    | (with_reducible show Fld.Free _; decide)
    | with_reducible apply Device.inState_ite
    | with_reducible apply Device.inState_each
    | intro _
    | split
    | dsimp only

theorem inState_pathBoundary (n : ℕ) (g : ℕ) (bclk : ℕ) {s : Device} (hs : s.InState pk) :
    (pathBoundary n g bclk s).InState pk := by
  unfold pathBoundary
  repeat' first
    | with_reducible assumption
    | with_reducible apply inState_schedule
    | with_reducible apply inState_modPulse
    | with_reducible apply inState_drain
    | with_reducible refine Device.inState_pset _ _ ?_ ?_
    | with_reducible exact Fld.free_at _ (by decide)
    | (with_reducible show Fld.Free _; decide)
    | with_reducible apply Device.inState_ite
    | with_reducible apply Device.inState_foldl
    | intro _
    | split
    | dsimp only

theorem inState_plsFrame (n : ℕ) (bclk : ℕ) {s : Device} (hs : s.InState pk) :
    (plsFrame n bclk s).InState pk := by
  unfold plsFrame
  repeat' first
    | with_reducible assumption
    | with_reducible apply inState_modPulse
    | with_reducible apply inState_drain
    | with_reducible apply inState_pathBoundary
    | with_reducible apply Device.inState_ite
    | with_reducible apply Device.inState_foldl
    | with_reducible apply Device.inState_each
    | intro _
    | split
    | dsimp only

theorem inState_plsClr (n : ℕ) (data : Sys2Proof.Word) {s : Device} (hs : s.InState pk) :
    (plsClr n data s).InState pk := by
  unfold plsClr
  repeat' first
    | with_reducible assumption
    | with_reducible apply inState_modPulse
    | with_reducible apply Device.inState_ite
    | intro _
    | split
    | dsimp only

theorem inState_pathWait (n : ℕ) (g : ℕ) {s : Device} (hs : s.InState pk) :
    (pathWait n g s).InState pk := by
  unfold pathWait
  repeat' first
    | with_reducible assumption
    | with_reducible apply inState_modPulse
    | intro _
    | split
    | dsimp only

theorem inState_plsBook (late : Bool) (g : ℕ) (v : Conv) (a : Acc) (a' : Acc) {s : Device} (hs : s.InState pk) :
    (plsBook late g v a a' s).InState pk := by
  unfold plsBook
  repeat' first
    | with_reducible assumption
    | with_reducible apply inState_modPulse
    | with_reducible apply Device.inState_ite
    | with_reducible apply Device.inState_each
    | intro _
    | split
    | dsimp only

theorem inState_plsWait {s : Device} (hs : s.InState pk) :
    (plsWait s).InState pk := by
  unfold plsWait
  repeat' first
    | with_reducible assumption
    | with_reducible apply inState_pathWait
    | with_reducible apply Device.inState_ite
    | with_reducible apply Device.inState_each
    | intro _
    | split
    | dsimp only

theorem inState_plsBoundary (bclk : ℕ) {s : Device} (hs : s.InState pk) :
    (plsBoundary bclk s).InState pk := by
  unfold plsBoundary
  repeat' first
    | with_reducible assumption
    | with_reducible apply inState_plsConfig
    | with_reducible apply inState_plsFrame
    | with_reducible apply inState_rateAdvance
    | with_reducible apply Device.inState_each
    | intro _
    | split
    | dsimp only

/-! Tally. -/

theorem inState_modTally (inB : Bool) (f : TallyPin → TallyPin) {s : Device} (hs : s.InState pk) :
    (modTally inB f s).InState pk := by
  unfold modTally
  repeat' first
    | with_reducible assumption
    | with_reducible apply Device.inState_ite
    | with_reducible apply Device.inState_mk
    | with_reducible apply Device.InState.word
    | intro _
    | split
    | dsimp only

theorem inState_tallySee (inB : Bool) (level : Bool) {s : Device} (hs : s.InState pk) :
    (tallySee inB level s).InState pk := by
  unfold tallySee
  repeat' first
    | with_reducible assumption
    | with_reducible apply inState_modTally
    | with_reducible apply Device.inState_ite
    | intro _
    | split
    | dsimp only

theorem inState_runPulse (inB : Bool) {s : Device} (hs : s.InState pk) :
    (runPulse inB s).InState pk := by
  unfold runPulse
  repeat' first
    | with_reducible assumption
    | with_reducible apply inState_runStop
    | with_reducible apply Device.inState_ite
    | with_reducible apply Device.inState_mk
    | with_reducible apply Device.InState.word
    | intro _
    | split
    | dsimp only

theorem inState_setTallyCnt (inB : Bool) (v : ℕ) {s : Device} (hs : s.InState pk) :
    (setTallyCnt inB v s).InState pk := by
  unfold setTallyCnt
  repeat' first
    | with_reducible assumption
    | with_reducible refine Device.inState_pset _ _ ?_ ?_
    | with_reducible exact Fld.free_at _ (by decide)
    | (with_reducible show Fld.Free _; decide)
    | with_reducible apply Device.inState_ite
    | intro _
    | split
    | dsimp only

theorem inState_tallyEdge (inB : Bool) (level : Bool) {s : Device} (hs : s.InState pk) :
    (tallyEdge inB level s).InState pk := by
  unfold tallyEdge
  repeat' first
    | with_reducible assumption
    | with_reducible apply inState_tallySee
    | with_reducible apply inState_runPulse
    | with_reducible apply inState_setTallyCnt
    | with_reducible refine Device.inState_pset _ _ ?_ ?_
    | with_reducible exact Fld.free_at _ (by decide)
    | (with_reducible show Fld.Free _; decide)
    | with_reducible apply Device.inState_ite
    | intro _
    | split
    | dsimp only

theorem inState_gateOpen {s : Device} (hs : s.InState pk) :
    (gateOpen s).InState pk := by
  unfold gateOpen
  repeat' first
    | with_reducible assumption
    | with_reducible apply Device.inState_modConv
    | with_reducible refine Device.inState_pset _ _ ?_ ?_
    | with_reducible exact Fld.free_at _ (by decide)
    | (with_reducible show Fld.Free _; decide)
    | with_reducible apply Device.inState_mk
    | with_reducible apply Device.InState.word
    | intro _
    | split
    | dsimp only

theorem inState_runClose (data : Sys2Proof.Word) {s : Device} (hs : s.InState pk) :
    (runClose data s).InState pk := by
  unfold runClose
  repeat' first
    | with_reducible assumption
    | with_reducible refine Device.inState_pset _ _ ?_ ?_
    | with_reducible exact Fld.free_at _ (by decide)
    | (with_reducible show Fld.Free _; decide)
    | with_reducible apply Device.inState_ite
    | with_reducible apply Device.inState_mk
    | with_reducible apply Device.InState.word
    | intro _
    | split
    | dsimp only

theorem inState_tallyClr (data : Sys2Proof.Word) {s : Device} (hs : s.InState pk) :
    (tallyClr data s).InState pk := by
  unfold tallyClr
  repeat' first
    | with_reducible assumption
    | with_reducible apply Device.inState_ite
    | with_reducible apply Device.inState_mk
    | with_reducible apply Device.InState.word
    | intro _
    | split
    | dsimp only

theorem inState_gateClose {s : Device} (hs : s.InState pk) :
    (gateClose s).InState pk := by
  unfold gateClose
  repeat' first
    | with_reducible assumption
    | with_reducible apply inState_runRecord
    | with_reducible apply inState_setCat
    | with_reducible apply Device.inState_nextFree
    | with_reducible refine Device.inState_pset _ _ ?_ ?_
    | with_reducible refine Device.inState_setReg _ _ ?_ ?_
    | with_reducible exact Fld.free_at _ (by decide)
    | (with_reducible show Fld.Free _; decide)
    | with_reducible exact chAddr_ne _ _
    | with_reducible exact dieAddr_ne _ _
    | (with_reducible show _ ≠ 2; omega)
    | with_reducible apply Device.inState_ite
    | with_reducible apply Device.inState_mk
    | with_reducible apply Device.InState.word
    | intro _
    | split
    | dsimp only

theorem inState_tallyBoundary {s : Device} (hs : s.InState pk) :
    (tallyBoundary s).InState pk := by
  unfold tallyBoundary
  repeat' first
    | with_reducible assumption
    | with_reducible apply inState_gateOpen
    | with_reducible apply inState_gateClose
    | with_reducible apply inState_setTallyCnt
    | with_reducible apply Device.inState_ite
    | with_reducible apply Device.inState_mk
    | with_reducible apply Device.InState.word
    | intro _
    | split
    | dsimp only

theorem inState_runAbort (data : Sys2Proof.Word) {s : Device} (hs : s.InState pk) :
    (runAbort data s).InState pk := by
  unfold runAbort
  repeat' first
    | with_reducible assumption
    | with_reducible apply inState_runStop
    | with_reducible apply Device.inState_ite
    | intro _
    | split
    | dsimp only

theorem inState_runOpen (data : Sys2Proof.Word) {s : Device} (hs : s.InState pk) :
    (runOpen data s).InState pk := by
  unfold runOpen
  repeat' first
    | with_reducible assumption
    | with_reducible apply inState_runCode
    | with_reducible refine Device.inState_pset _ _ ?_ ?_
    | with_reducible exact Fld.free_at _ (by decide)
    | (with_reducible show Fld.Free _; decide)
    | with_reducible apply Device.inState_ite
    | with_reducible apply Device.inState_mk
    | with_reducible apply Device.InState.word
    | intro _
    | split
    | dsimp only

end Sys2Proof.Machine
end

