-- ==== Sys2Proof/Laws/InStateStorage.lean ====
section
/-! SUPPORT. Operations of these files that leave PKG_STATE.STATE as it is (R389). One lemma for each operation, in the order of the files. -/

set_option linter.unusedTactic false
set_option linter.unreachableTactic false
set_option linter.unusedVariables false

namespace Sys2Proof.Machine

variable {pk : Nat}

/-! Retain. -/

theorem inState_retWrite (d : ℕ) {s : Device} (hs : s.InState pk) :
    (retWrite d s).InState pk := by
  unfold retWrite
  repeat' first
    | with_reducible assumption
    | with_reducible apply Device.inState_modGlean
    | with_reducible apply Device.inState_ite
    | intro _
    | split
    | dsimp only

theorem inState_retCommit (d : ℕ) {s : Device} (hs : s.InState pk) :
    (retCommit d s).InState pk := by
  unfold retCommit
  repeat' first
    | with_reducible assumption
    | with_reducible apply Device.inState_modGlean
    | with_reducible apply Device.inState_ite
    | intro _
    | split
    | dsimp only

/-! GleanDomain. -/

theorem inState_keepGoodRise (d : ℕ) {s : Device} (hs : s.InState pk) :
    (keepGoodRise d s).InState pk := by
  unfold keepGoodRise
  repeat' first
    | with_reducible assumption
    | with_reducible apply Device.inState_modGlean
    | with_reducible refine Device.inState_pset _ _ ?_ ?_
    | with_reducible exact Fld.free_at _ (by decide)
    | (with_reducible show Fld.Free _; decide)
    | with_reducible apply Device.inState_ite
    | intro _
    | split
    | dsimp only

theorem inState_pumpTransfer (d : ℕ) {s : Device} (hs : s.InState pk) :
    (pumpTransfer d s).InState pk := by
  unfold pumpTransfer
  repeat' first
    | with_reducible assumption
    | with_reducible apply Device.inState_modCh
    | with_reducible apply Device.inState_ite
    | intro _
    | split
    | dsimp only

theorem inState_rcTrim (err : ℤ) {s : Device} (hs : s.InState pk) :
    (rcTrim err s).InState pk := by
  unfold rcTrim
  repeat' first
    | with_reducible assumption
    | with_reducible apply Device.inState_modGlean
    | with_reducible refine Device.inState_pset _ _ ?_ ?_
    | with_reducible exact Fld.free_at _ (by decide)
    | (with_reducible show Fld.Free _; decide)
    | with_reducible apply Device.inState_ite
    | with_reducible apply Device.inState_each
    | intro _
    | split
    | dsimp only

theorem inState_gleanEnables (d : ℕ) {s : Device} (hs : s.InState pk) :
    (gleanEnables d s).InState pk := by
  unfold gleanEnables
  repeat' first
    | with_reducible assumption
    | with_reducible apply Device.inState_modGlean
    | intro _
    | split
    | dsimp only

theorem inState_bookTally (g : ℕ) {s : Device} (hs : s.InState pk) :
    (bookTally g s).InState pk := by
  unfold bookTally
  repeat' first
    | with_reducible assumption
    | with_reducible apply Device.inState_cset
    | with_reducible apply inState_plsBook
    | with_reducible apply Device.inState_nextFree
    | with_reducible apply Device.inState_modCh
    | with_reducible refine Device.inState_setReg _ _ ?_ ?_
    | with_reducible exact chAddr_ne _ _
    | with_reducible exact dieAddr_ne _ _
    | (with_reducible show _ ≠ 2; omega)
    | with_reducible apply Device.inState_ite
    | intro _
    | split
    | dsimp only

theorem inState_startSequencer {s : Device} (hs : s.InState pk) :
    (startSequencer s).InState pk := by
  unfold startSequencer
  repeat' first
    | with_reducible assumption
    | with_reducible apply Device.inState_modPins
    | with_reducible apply Device.inState_ite
    | intro _
    | split
    | dsimp only

theorem inState_gleanEvaluate (regular : Bool) (d : ℕ) (o : Sys2Proof.GleanObs) {s : Device} (hs : s.InState pk) :
    (gleanEvaluate regular d o s).InState pk := by
  unfold gleanEvaluate
  repeat' first
    | with_reducible assumption
    | with_reducible apply inState_startSequencer
    | with_reducible apply Device.inState_modGlean
    | with_reducible apply Device.inState_ite
    | intro _
    | split
    | dsimp only

theorem inState_gleanBooking (d : ℕ) {s : Device} (hs : s.InState pk) :
    (gleanBooking d s).InState pk := by
  unfold gleanBooking
  repeat' first
    | with_reducible assumption
    | with_reducible apply Device.inState_modDie
    | with_reducible apply inState_bookTally
    | with_reducible apply Device.inState_ite
    | with_reducible apply Device.inState_each
    | intro _
    | split
    | dsimp only

theorem inState_keepGoodFall (d : ℕ) {s : Device} (hs : s.InState pk) :
    (keepGoodFall d s).InState pk := by
  unfold keepGoodFall
  repeat' first
    | with_reducible assumption
    | with_reducible apply Device.inState_modCh
    | with_reducible apply Device.inState_modGlean
    | with_reducible refine Device.inState_pset _ _ ?_ ?_
    | with_reducible exact Fld.free_at _ (by decide)
    | (with_reducible show Fld.Free _; decide)
    | with_reducible apply Device.inState_ite
    | with_reducible apply Device.inState_each
    | intro _
    | split
    | dsimp only

/-! Otp. -/

theorem inState_otpBegin (c : OtpCmd) {s : Device} (hs : s.InState pk) :
    (otpBegin c s).InState pk := by
  unfold otpBegin
  repeat' first
    | with_reducible assumption
    | with_reducible refine Device.inState_pset _ _ ?_ ?_
    | with_reducible exact Fld.free_at _ (by decide)
    | (with_reducible show Fld.Free _; decide)
    | with_reducible apply Device.inState_ite
    | with_reducible apply Device.inState_mk
    | with_reducible apply Device.InState.word
    | intro _
    | split
    | dsimp only

theorem inState_otpPulseStart (kind : ℕ) (d : ℕ) (a : ℕ) (mask : ℕ) (c : ℕ) (reads : List Sys2Proof.OtpRead) {s : Device} (hs : s.InState pk) :
    (otpPulseStart kind d a mask c reads s).InState pk := by
  unfold otpPulseStart
  repeat' first
    | with_reducible assumption
    | with_reducible apply inState_otpBegin
    | with_reducible apply Device.inState_spend
    | intro _
    | split
    | dsimp only

theorem inState_otpEnd (result : ℕ) (aborted : Bool) {s : Device} (hs : s.InState pk) :
    (otpEnd result aborted s).InState pk := by
  unfold otpEnd
  repeat' first
    | with_reducible assumption
    | with_reducible apply inState_logEvent
    | with_reducible apply inState_setCat
    | with_reducible refine Device.inState_pset _ _ ?_ ?_
    | with_reducible exact Fld.free_at _ (by decide)
    | (with_reducible show Fld.Free _; decide)
    | with_reducible apply Device.inState_ite
    | with_reducible apply Device.inState_mk
    | with_reducible apply Device.InState.word
    | intro _
    | split
    | dsimp only

theorem inState_otpShow (r : Sys2Proof.OtpRead) {s : Device} (hs : s.InState pk) :
    (otpShow r s).InState pk := by
  unfold otpShow
  repeat' first
    | with_reducible assumption
    | with_reducible refine Device.inState_setReg _ _ ?_ ?_
    | with_reducible exact chAddr_ne _ _
    | with_reducible exact dieAddr_ne _ _
    | (with_reducible show _ ≠ 2; omega)
    | with_reducible apply Device.inState_ite
    | intro _
    | split
    | dsimp only

theorem inState_otpDone {s : Device} (hs : s.InState pk) :
    (otpDone s).InState pk := by
  unfold otpDone
  repeat' first
    | with_reducible assumption
    | with_reducible apply inState_otpShow
    | with_reducible apply Device.inState_modDie
    | with_reducible apply inState_otpEnd
    | with_reducible apply Device.inState_ite
    | intro _
    | split
    | dsimp only

theorem inState_otpRefuse (code : ℕ) {s : Device} (hs : s.InState pk) :
    (otpRefuse code s).InState pk := by
  unfold otpRefuse
  repeat' first
    | with_reducible assumption
    | with_reducible apply inState_setCat
    | with_reducible refine Device.inState_pset _ _ ?_ ?_
    | with_reducible exact Fld.free_at _ (by decide)
    | (with_reducible show Fld.Free _; decide)
    | intro _
    | split
    | dsimp only

theorem inState_otpReadCmd (d : ℕ) (a : ℕ) {s : Device} (hs : s.InState pk) :
    (otpReadCmd d a s).InState pk := by
  unfold otpReadCmd
  repeat' first
    | with_reducible assumption
    | with_reducible apply inState_otpRefuse
    | with_reducible apply inState_otpBegin
    | with_reducible apply Device.inState_ite
    | intro _
    | split
    | dsimp only

theorem inState_otpLock (d : ℕ) (region : ℕ) (force : Bool) (reads : List Sys2Proof.OtpRead) {s : Device} (hs : s.InState pk) :
    (otpLock d region force reads s).InState pk := by
  unfold otpLock
  repeat' first
    | with_reducible assumption
    | with_reducible apply inState_otpRefuse
    | with_reducible apply inState_otpPulseStart
    | with_reducible apply Device.inState_ite
    | intro _
    | split
    | dsimp only

theorem inState_otpSummary {s : Device} (hs : s.InState pk) :
    (otpSummary s).InState pk := by
  unfold otpSummary
  repeat' first
    | with_reducible assumption
    | with_reducible refine Device.inState_pset _ _ ?_ ?_
    | with_reducible exact Fld.free_at _ (by decide)
    | (with_reducible show Fld.Free _; decide)
    | with_reducible apply Device.inState_ite
    | intro _
    | split
    | dsimp only

theorem inState_compatFixed {s : Device} (hs : s.InState pk) :
    (compatFixed s).InState pk := by
  unfold compatFixed
  repeat' first
    | with_reducible assumption
    | with_reducible apply Device.inState_modNvm
    | with_reducible refine Device.inState_pset _ _ ?_ ?_
    | with_reducible exact Fld.free_at _ (by decide)
    | (with_reducible show Fld.Free _; decide)
    | with_reducible apply Device.inState_ite
    | intro _
    | split
    | dsimp only

theorem inState_otpCutShort {s : Device} (hs : s.InState pk) :
    (otpCutShort s).InState pk := by
  unfold otpCutShort
  repeat' first
    | with_reducible assumption
    | with_reducible apply Device.inState_modDie
    | with_reducible apply Device.inState_spend
    | with_reducible apply inState_otpEnd
    | with_reducible apply Device.inState_ite
    | intro _
    | split
    | dsimp only

theorem inState_otpLoad (d : ℕ) {s : Device} (hs : s.InState pk) :
    (otpLoad d s).InState pk := by
  unfold otpLoad
  repeat' first
    | with_reducible assumption
    | with_reducible apply inState_logEvent
    | with_reducible apply Device.inState_dset
    | with_reducible apply Device.inState_nextFree
    | with_reducible apply Device.inState_modDie
    | with_reducible apply inState_otpSummary
    | with_reducible apply inState_compatFixed
    | with_reducible refine Device.inState_setReg _ _ ?_ ?_
    | with_reducible refine Device.inState_pset _ _ ?_ ?_
    | with_reducible exact Fld.free_at _ (by decide)
    | (with_reducible show Fld.Free _; decide)
    | with_reducible exact chAddr_ne _ _
    | with_reducible exact dieAddr_ne _ _
    | (with_reducible show _ ≠ 2; omega)
    | with_reducible apply Device.inState_ite
    | with_reducible apply Device.inState_foldl
    | intro _
    | split
    | dsimp only

theorem inState_otpReinforce (d : ℕ) (a : ℕ) (reads : List Sys2Proof.OtpRead) {s : Device} (hs : s.InState pk) :
    (otpReinforce d a reads s).InState pk := by
  unfold otpReinforce
  repeat' first
    | with_reducible assumption
    | with_reducible apply inState_otpRefuse
    | with_reducible apply inState_otpPulseStart
    | with_reducible apply Device.inState_ite
    | intro _
    | split
    | dsimp only

theorem inState_otpPumpExpiry {s : Device} (hs : s.InState pk) :
    (otpPumpExpiry s).InState pk := by
  unfold otpPumpExpiry
  repeat' first
    | with_reducible assumption
    | with_reducible apply inState_logEvent
    | with_reducible apply inState_otpCutShort
    | with_reducible refine Device.inState_pset _ _ ?_ ?_
    | with_reducible exact Fld.free_at _ (by decide)
    | (with_reducible show Fld.Free _; decide)
    | with_reducible apply Device.inState_ite
    | intro _
    | split
    | dsimp only

theorem inState_otpProgram (d : ℕ) (a : ℕ) (data : ℕ) (reads : List Sys2Proof.OtpRead) {s : Device} (hs : s.InState pk) :
    (otpProgram d a data reads s).InState pk := by
  unfold otpProgram
  repeat' first
    | with_reducible assumption
    | with_reducible apply inState_otpRefuse
    | with_reducible apply inState_otpPulseStart
    | with_reducible apply Device.inState_ite
    | intro _
    | split
    | dsimp only

/-! Stored. -/

theorem inState_afterStore (a : ℕ) {s : Device} (hs : s.InState pk) :
    (afterStore a s).InState pk := by
  unfold afterStore
  repeat' first
    | with_reducible assumption
    | with_reducible apply inState_clampTest
    | with_reducible apply inState_gleanRise
    | with_reducible apply Device.inState_ite
    | with_reducible apply Device.inState_each
    | intro _
    | split
    | dsimp only

theorem merge_zero (x y : Word) : merge 0 x y = x := by
  unfold merge
  rw [show (0 : Word) = 0#32 from rfl, BitVec.and_zero, BitVec.or_zero, BitVec.not_zero, BitVec.and_allOnes]

theorem iMask_two {a : ℕ} (e : a = 2) : iMask a = 0 := by subst e; decide

theorem rwpMask_two {a : ℕ} (e : a = 2) : rwpMask a = 0 := by subst e; decide

theorem wordStored_two (w : Word) : wordStored 2 w = w := rfl

theorem inState_storeFields (mask : Word) (a : ℕ) (w : Word) {s : Device} (hm : a = 2 → mask = 0) (h : s.InState pk) :
    (storeFields mask a w s).InState pk := by
  unfold storeFields
  refine Device.inState_ite (fun _ => h) fun _ => ?_
  refine inState_afterStore _ (Device.inState_setReg_keep _ _ (fun e => ?_) h)
  subst e
  rw [hm rfl, merge_zero, wordStored_two]

theorem inState_loadWord (mask : Word) (a : ℕ) (w : Word) {s : Device} (hm : a = 2 → mask = 0) (h : s.InState pk) :
    (loadWord mask a w s).InState pk := by
  unfold loadWord
  split
  · exact Device.inState_ite (fun _ => Device.inState_setReg_keep _ _ (fun e => by subst e; rw [hm rfl, merge_zero]) h) fun _ => inState_storeFields _ _ _ hm h
  · refine Device.inState_ite (fun _ => ?_) fun _ => inState_storeFields _ _ _ hm h
    refine inState_afterStore _ (Device.inState_setReg_keep _ _ (fun e => ?_) h)
    subst e
    rw [hm rfl, merge_zero, wordStored_two]
  · exact inState_storeFields _ _ _ hm h

theorem inState_forceDie (d : ℕ) {s : Device} (hs : s.InState pk) :
    (forceDie d s).InState pk := by
  unfold forceDie
  repeat' first
    | with_reducible assumption
    | with_reducible apply Device.inState_foldl
    | with_reducible apply Device.inState_mk
    | with_reducible apply Device.InState.word
    | intro _
    | split
    | dsimp only

theorem inState_settleDie (d : ℕ) {s : Device} (hs : s.InState pk) :
    (settleDie d s).InState pk := by
  unfold settleDie
  repeat' first
    | with_reducible assumption
    | with_reducible apply inState_baseReset
    | with_reducible apply inState_constLoad
    | with_reducible apply inState_resetLive
    | with_reducible apply inState_forceDie
    | with_reducible apply Device.inState_modDie
    | with_reducible apply Device.inState_ite
    | with_reducible apply Device.inState_each
    | intro _
    | split
    | dsimp only

theorem inState_thresholdLoad {s : Device} (hs : s.InState pk) :
    (thresholdLoad s).InState pk := by
  unfold thresholdLoad
  repeat' first
    | with_reducible assumption
    | with_reducible apply inState_gleanRise
    | with_reducible refine Device.inState_pset _ _ ?_ ?_
    | with_reducible exact Fld.free_at _ (by decide)
    | (with_reducible show Fld.Free _; decide)
    | with_reducible apply Device.inState_ite
    | intro _
    | split
    | dsimp only

/-! Flash. -/

theorem inState_recipeBad (d : ℕ) (id : ℕ) (step : ℕ) {s : Device} (hs : s.InState pk) :
    (recipeBad d id step s).InState pk := by
  unfold recipeBad
  repeat' first
    | with_reducible assumption
    | with_reducible apply inState_logEvent
    | intro _
    | split
    | dsimp only

theorem inState_sectionBad (typ : ℕ) (die : ℕ) (ch : ℕ) {s : Device} (hs : s.InState pk) :
    (sectionBad typ die ch s).InState pk := by
  unfold sectionBad
  repeat' first
    | with_reducible assumption
    | with_reducible apply inState_logEvent
    | with_reducible refine Device.inState_pset _ _ ?_ ?_
    | with_reducible refine Device.inState_pinc _ ?_ ?_
    | with_reducible exact Fld.free_at _ (by decide)
    | (with_reducible show Fld.Free _; decide)
    | with_reducible apply Device.inState_ite
    | intro _
    | split
    | dsimp only

theorem inState_loadRecipes (all : List Recipe) (d : ℕ) {s : Device} (hs : s.InState pk) :
    (loadRecipes all d s).InState pk := by
  unfold loadRecipes
  repeat' first
    | with_reducible assumption
    | with_reducible apply Device.inState_modDie
    | with_reducible apply inState_recipeBad
    | with_reducible apply inState_sectionBad
    | with_reducible apply Device.inState_foldl
    | intro _
    | split
    | dsimp only

theorem inState_nvmPush (op : NvmOp) {s : Device} (hs : s.InState pk) :
    (nvmPush op s).InState pk := by
  unfold nvmPush
  repeat' first
    | with_reducible assumption
    | with_reducible apply Device.inState_modNvm
    | with_reducible refine Device.inState_pset _ _ ?_ ?_
    | with_reducible exact Fld.free_at _ (by decide)
    | (with_reducible show Fld.Free _; decide)
    | with_reducible apply Device.inState_ite
    | intro _
    | split
    | dsimp only

theorem inState_spareCheck {s : Device} (hs : s.InState pk) :
    (spareCheck s).InState pk := by
  unfold spareCheck
  repeat' first
    | with_reducible assumption
    | with_reducible apply inState_nvmPush
    | with_reducible refine Device.inState_pset _ _ ?_ ?_
    | with_reducible exact Fld.free_at _ (by decide)
    | (with_reducible show Fld.Free _; decide)
    | with_reducible apply Device.inState_ite
    | intro _
    | split
    | dsimp only

theorem inState_countReject (c : Section) (w : Walk) (h : w.dev.InState pk) : (countReject c w).dev.InState pk :=
  inState_sectionBad _ _ _ h

theorem inState_cacheDie (d : ℕ) {s : Device} (hs : s.InState pk) :
    (cacheDie d s).InState pk := by
  unfold cacheDie
  repeat' first
    | with_reducible assumption
    | with_reducible apply Device.inState_dset
    | with_reducible apply Device.inState_ite
    | intro _
    | split
    | dsimp only

theorem inState_huskIdle (g : ℕ) {s : Device} (hs : s.InState pk) :
    (huskIdle g s).InState pk := by
  unfold huskIdle
  repeat' first
    | with_reducible assumption
    | with_reducible apply Device.inState_modEng
    | with_reducible apply inState_setEng
    | with_reducible apply Device.inState_ite
    | intro _
    | split
    | dsimp only

theorem inState_imageBad (err : ℕ) {s : Device} (hs : s.InState pk) :
    (imageBad err s).InState pk := by
  unfold imageBad
  repeat' first
    | with_reducible assumption
    | with_reducible apply inState_logEvent
    | with_reducible refine Device.inState_pset _ _ ?_ ?_
    | with_reducible exact Fld.free_at _ (by decide)
    | (with_reducible show Fld.Free _; decide)
    | intro _
    | split
    | dsimp only

theorem inState_pinLoad (own : List (ℕ × Word)) {s : Device} (h : s.InState pk) : (pinLoad own s).InState pk := by
  have hf : ∀ (l : RegFile) {t : Device}, t.InState pk → (l.foldl (fun t p => loadWord (rwpMask p.1) p.1 p.2 t) t).InState pk :=
    fun l t h => Device.inState_foldl _ h fun p t ht => inState_loadWord _ _ _ rwpMask_two ht
  unfold pinLoad
  dsimp only
  refine Device.inState_ite (fun _ => hf _ ?_) fun _ => Device.inState_pset _ _ (by decide) h
  refine Device.inState_pset _ _ (by decide) (Device.inState_pset _ _ (by decide) (Device.inState_pset _ _ (by decide) ?_))
  exact Device.inState_modNvm _ h

theorem inState_ringBest {s : Device} (hs : s.InState pk) :
    (ringBest s).InState pk := by
  unfold ringBest
  repeat' first
    | with_reducible assumption
    | with_reducible apply Device.inState_modNvm
    | intro _
    | split
    | dsimp only

theorem inState_ringScan {s : Device} (hs : s.InState pk) :
    (ringScan s).InState pk := by
  unfold ringScan
  repeat' first
    | with_reducible assumption
    | with_reducible apply inState_ringBest
    | with_reducible apply inState_spareCheck
    | with_reducible apply Device.inState_modNvm
    | with_reducible refine Device.inState_pset _ _ ?_ ?_
    | with_reducible refine Device.inState_setReg _ _ ?_ ?_
    | with_reducible exact Fld.free_at _ (by decide)
    | (with_reducible show Fld.Free _; decide)
    | with_reducible exact chAddr_ne _ _
    | with_reducible exact dieAddr_ne _ _
    | (with_reducible show _ ≠ 2; omega)
    | with_reducible apply Device.inState_ite
    | intro _
    | split
    | dsimp only

theorem inState_cfgMap (d : ℕ) {s : Device} (hs : s.InState pk) :
    (cfgMap d s).InState pk := by
  unfold cfgMap
  repeat' first
    | with_reducible assumption
    | with_reducible refine Device.inState_setReg _ _ ?_ ?_
    | with_reducible exact chAddr_ne _ _
    | with_reducible exact dieAddr_ne _ _
    | (with_reducible show _ ≠ 2; omega)
    | intro _
    | split
    | dsimp only

theorem inState_huskDie (d : ℕ) {s : Device} (hs : s.InState pk) :
    (huskDie d s).InState pk := by
  unfold huskDie
  repeat' first
    | with_reducible assumption
    | with_reducible apply Device.inState_dset
    | with_reducible apply inState_cfgMap
    | with_reducible apply inState_publishDies
    | with_reducible apply Device.inState_modDie
    | intro _
    | split
    | dsimp only

theorem inState_applyEntries (c : Section) (b : List Byte) {s : Device} (h : s.InState pk) : (applyEntries c b s).InState pk := by
  refine Device.inState_foldl _ h fun e t ht => ?_
  split
  · exact inState_loadWord _ _ _ iMask_two ht
  · exact ht

theorem inState_walkIte {c : Prop} [Decidable c] {p q : Walk} (hp : p.dev.InState pk) (hq : q.dev.InState pk) :
    (if c then p else q).dev.InState pk := by
  split
  · exact hp
  · exact hq

theorem inState_takeSection (c : Section) (w : Walk) (h : w.dev.InState pk) : (takeSection c w).dev.InState pk := by
  unfold takeSection
  dsimp only
  split
  · exact inState_walkIte (inState_applyEntries _ _ (Device.inState_modNvm _ h)) (inState_countReject _ _ h)
  · refine inState_walkIte ?_ (inState_countReject _ _ h)
    exact Device.inState_ite (fun _ => h) fun _ => Device.inState_modDie _ _ (inState_applyEntries _ _ h)
  · refine inState_walkIte ?_ (inState_countReject _ _ h)
    exact Device.inState_ite (fun _ => h) fun _ => Device.inState_modDie _ _ (inState_applyEntries _ _ h)
  · split
    · exact h
    · exact Device.inState_each _ (inState_countReject _ _ h) fun _ _ h => inState_recipeBad _ _ _ h
  · refine inState_walkIte ?_ (inState_countReject _ _ h)
    dsimp only
    exact Device.inState_modNvm _ h
  · refine inState_walkIte ?_ (inState_countReject _ _ h)
    dsimp only
    exact Device.inState_modNvm _ h

theorem inState_doSection (c : Section) (w : Walk) (h : w.dev.InState pk) : (doSection c w).dev.InState pk := by
  unfold doSection
  exact inState_walkIte (Device.inState_pinc _ (by decide) h) (inState_walkIte (inState_countReject _ _ h)
    (inState_walkIte h (inState_walkIte (inState_countReject _ _ h) (inState_takeSection _ _ h))))

theorem inState_walkFrom (img : List Byte) (k off : ℕ) (w : Walk) (h : w.dev.InState pk) :
    (walkFrom img k off w).dev.InState pk := by
  induction k generalizing off w with
  | zero => exact h
  | succ n ih =>
    rw [walkFrom]
    refine inState_walkIte h (inState_walkIte h (inState_walkIte ?_ (inState_walkIte h (ih _ _ (inState_doSection _ _ h)))))
    dsimp only
    exact inState_countReject _ { w with count := w.count + 1 } h

theorem inState_clearI (p : ℕ → Bool) {s : Device} (h : s.InState pk) : (clearI p s).InState pk := by
  have hf : ∀ (l : RegFile) {t : Device}, (∀ q ∈ l, q.1 ≠ 2) → t.InState pk →
      (l.foldl (fun t e => t.setReg e.1 (merge (iMask e.1) e.2 (regDefault e.1))) t).InState pk := by
    intro l
    induction l with
    | nil => exact fun _ h => h
    | cons q l ih => exact fun hp h => ih (fun r hr => hp r (List.mem_cons_of_mem _ hr)) (Device.inState_setReg _ _ (hp q (by simp)) h)
  refine hf _ (fun q hq e => ?_) h
  have h2 := (List.mem_filter.mp hq).2
  rw [e, iMask_two rfl] at h2
  simp at h2

theorem inState_imageSettle (img : List Byte) (w : Walk) (h : w.dev.InState pk) : (imageSettle img w).InState pk := by
  unfold imageSettle
  dsimp only
  refine inState_boostWritten _ (Device.inState_modLine _ ?_)
  refine Device.inState_setReg _ _ (by decide) (Device.inState_pset _ _ (by decide) ?_)
  refine Device.inState_each _ (Device.inState_each _ (Device.inState_each _ (inState_thresholdLoad (inState_pinLoad _ (inState_ringScan ?_))) fun d t h =>
    inState_settleDie _ (inState_huskDie _ (inState_cacheDie _ h))) fun d t h => inState_cfgMap _ h) fun d t h => inState_clampTest _ h
  exact Device.inState_each _ (Device.inState_ite (fun _ => Device.inState_pset _ _ (by decide) h) fun _ => h) fun d t h =>
    inState_loadRecipes _ _ h

theorem inState_imageTake (img : List Byte) {s : Device} (h : s.InState pk) : (imageTake img s).InState pk := by
  have h1 : ∀ {t : Device}, t.InState pk → (t.modNvm fun n => { n with imgLen := img.length, slow := (uAt img 7 1).testBit 0 }).InState pk :=
    fun h => Device.inState_modNvm _ h
  unfold imageTake
  dsimp only
  have h2 := h1 (inState_clearI (loadable s) h)
  refine inState_imageSettle _ _ (inState_walkFrom _ _ _ _ ?_)
  exact Device.inState_ite (fun _ => h2) fun _ => Device.inState_pset _ _ (by decide) h2

theorem inState_imageLoad {s : Device} (hs : s.InState pk) :
    (imageLoad s).InState pk := by
  unfold imageLoad
  repeat' first
    | with_reducible assumption
    | with_reducible apply inState_imageBad
    | with_reducible apply inState_imageTake
    | with_reducible refine Device.inState_pset _ _ ?_ ?_
    | with_reducible exact Fld.free_at _ (by decide)
    | (with_reducible show Fld.Free _; decide)
    | with_reducible apply Device.inState_ite
    | intro _
    | split
    | dsimp only

theorem inState_modFlash (g : List (ℕ × Sys2Proof.Byte) → List (ℕ × Sys2Proof.Byte)) {s : Device} (hs : s.InState pk) :
    (modFlash g s).InState pk := by
  unfold modFlash
  repeat' first
    | with_reducible assumption
    | with_reducible apply Device.inState_modNvm
    | intro _
    | split
    | dsimp only

theorem inState_cachePins (d : ℕ) {s : Device} (hs : s.InState pk) :
    (cachePins d s).InState pk := by
  unfold cachePins
  repeat' first
    | with_reducible assumption
    | with_reducible apply Device.inState_modDie
    | intro _
    | split
    | dsimp only

/-! Shadow. -/

theorem inState_setShd (a : ℕ) (w : Sys2Proof.Word) {s : Device} (hs : s.InState pk) :
    (setShd a w s).InState pk := by
  unfold setShd
  repeat' first
    | with_reducible assumption
    | with_reducible apply Device.inState_mk
    | with_reducible apply Device.InState.word
    | intro _
    | split
    | dsimp only

theorem inState_shadowRebuild (d : ℕ) {s : Device} (hs : s.InState pk) :
    (shadowRebuild d s).InState pk := by
  unfold shadowRebuild
  repeat' first
    | with_reducible assumption
    | with_reducible apply inState_setShd
    | with_reducible apply Device.inState_each
    | with_reducible apply Device.inState_mk
    | with_reducible apply Device.InState.word
    | intro _
    | split
    | dsimp only

theorem inState_groupCell (d : ℕ) {s : Device} (hs : s.InState pk) :
    (groupCell d s).InState pk := by
  unfold groupCell
  repeat' first
    | with_reducible assumption
    | with_reducible apply inState_setShd
    | with_reducible apply Device.inState_foldl
    | with_reducible apply Device.inState_mk
    | with_reducible apply Device.InState.word
    | intro _
    | split
    | dsimp only

theorem inState_setStage (a : ℕ) (w : Sys2Proof.Word) {s : Device} (hs : s.InState pk) :
    (setStage a w s).InState pk := by
  unfold setStage
  repeat' first
    | with_reducible assumption
    | with_reducible apply Device.inState_mk
    | with_reducible apply Device.InState.word
    | intro _
    | split
    | dsimp only

theorem inState_shadowTaken (a : ℕ) (w : Sys2Proof.Word) (group : Sys2Proof.Word) {s : Device} (hs : s.InState pk) :
    (shadowTaken a w group s).InState pk := by
  unfold shadowTaken
  repeat' first
    | with_reducible assumption
    | with_reducible apply inState_setShd
    | with_reducible apply inState_setStage
    | with_reducible apply Device.inState_ite
    | intro _
    | split
    | dsimp only

/-! Nvm. -/

theorem inState_pinEnd (result : ℕ) {s : Device} (hs : s.InState pk) :
    (pinEnd result s).InState pk := by
  unfold pinEnd
  repeat' first
    | with_reducible assumption
    | with_reducible refine Device.inState_pset _ _ ?_ ?_
    | with_reducible exact Fld.free_at _ (by decide)
    | (with_reducible show Fld.Free _; decide)
    | intro _
    | split
    | dsimp only

theorem inState_nvmCount {s : Device} (hs : s.InState pk) :
    (nvmCount s).InState pk := by
  unfold nvmCount
  repeat' first
    | with_reducible assumption
    | with_reducible refine Device.inState_pset _ _ ?_ ?_
    | with_reducible exact Fld.free_at _ (by decide)
    | (with_reducible show Fld.Free _; decide)
    | intro _
    | split
    | dsimp only

theorem inState_pinCut (result : ℕ) {s : Device} (hs : s.InState pk) :
    (pinCut result s).InState pk := by
  unfold pinCut
  repeat' first
    | with_reducible assumption
    | with_reducible apply inState_pinEnd
    | with_reducible apply inState_nvmCount
    | with_reducible apply Device.inState_modNvm
    | with_reducible apply Device.inState_ite
    | intro _
    | split
    | dsimp only

theorem inState_nvmTake (o : NvmOp) {s : Device} (hs : s.InState pk) :
    (nvmTake o s).InState pk := by
  unfold nvmTake
  repeat' first
    | with_reducible assumption
    | with_reducible apply inState_nvmCount
    | with_reducible apply Device.inState_modNvm
    | with_reducible refine Device.inState_pset _ _ ?_ ?_
    | with_reducible exact Fld.free_at _ (by decide)
    | (with_reducible show Fld.Free _; decide)
    | intro _
    | split
    | dsimp only

theorem inState_flashBegin (o : FlashOp) {s : Device} (hs : s.InState pk) :
    (flashBegin o s).InState pk := by
  unfold flashBegin
  repeat' first
    | with_reducible assumption
    | with_reducible apply Device.inState_modNvm
    | intro _
    | split
    | dsimp only

theorem inState_nvmFree {s : Device} (hs : s.InState pk) :
    (nvmFree s).InState pk := by
  unfold nvmFree
  repeat' first
    | with_reducible assumption
    | with_reducible apply Device.inState_modNvm
    | with_reducible refine Device.inState_pset _ _ ?_ ?_
    | with_reducible exact Fld.free_at _ (by decide)
    | (with_reducible show Fld.Free _; decide)
    | intro _
    | split
    | dsimp only

theorem inState_ptEnd (result : ℕ) {s : Device} (hs : s.InState pk) :
    (ptEnd result s).InState pk := by
  unfold ptEnd
  repeat' first
    | with_reducible assumption
    | with_reducible refine Device.inState_pset _ _ ?_ ?_
    | with_reducible exact Fld.free_at _ (by decide)
    | (with_reducible show Fld.Free _; decide)
    | intro _
    | split
    | dsimp only

theorem inState_ptStart (op : ℕ) (addr : ℕ) (len : ℕ) {s : Device} (hs : s.InState pk) :
    (ptStart op addr len s).InState pk := by
  unfold ptStart
  repeat' first
    | with_reducible assumption
    | with_reducible apply inState_flashBegin
    | with_reducible apply inState_nvmFree
    | with_reducible apply inState_ptEnd
    | with_reducible apply Device.inState_spend
    | with_reducible apply Device.inState_modNvm
    | with_reducible refine Device.inState_pset _ _ ?_ ?_
    | with_reducible exact Fld.free_at _ (by decide)
    | (with_reducible show Fld.Free _; decide)
    | with_reducible apply Device.inState_ite
    | intro _
    | split
    | dsimp only

theorem inState_pinDie (d : ℕ) {s : Device} (h : s.InState pk) : (pinDie d s).InState pk := by
  exact Device.inState_foldl _ h fun p t ht => inState_loadWord _ _ _ rwpMask_two ht

theorem inState_dieSettled (d : ℕ) {s : Device} (hs : s.InState pk) :
    (dieSettled d s).InState pk := by
  unfold dieSettled
  repeat' first
    | with_reducible assumption
    | with_reducible apply inState_clampTest
    | with_reducible apply inState_settleDie
    | with_reducible apply inState_huskDie
    | with_reducible apply inState_cacheDie
    | with_reducible apply inState_pinDie
    | with_reducible apply Device.inState_each
    | intro _
    | split
    | dsimp only

theorem inState_sectionFetch (d : ℕ) {s : Device} (h : s.InState pk) : (sectionFetch d s).InState pk := by
  have hr : ∀ (l : List (ℕ × ℕ)) (w : Walk), w.dev.InState pk → (l.foldl (fun w k => fetchReject d k w) w).dev.InState pk := by
    intro l
    induction l with
    | nil => exact fun _ h => h
    | cons c t ih => exact fun w h => ih _ (inState_sectionBad _ _ _ h)
  have hf : ∀ (l : List Section) (w : Walk), w.dev.InState pk → (l.foldl (fun w c => doSection c w) w).dev.InState pk := by
    intro l
    induction l with
    | nil => exact fun _ h => h
    | cons c t ih => exact fun w h => ih _ (inState_doSection c w h)
  unfold sectionFetch
  dsimp only
  have h1 := Device.inState_modDie d (fun x => { x with fetch := [] }) h
  split
  · exact inState_dieSettled _ (hr _ _ h1)
  · exact inState_dieSettled _ (inState_loadRecipes _ _ (hf _ _ h1))

theorem inState_pinDone {s : Device} (hs : s.InState pk) :
    (pinDone s).InState pk := by
  unfold pinDone
  repeat' first
    | with_reducible assumption
    | with_reducible apply inState_nvmFree
    | with_reducible apply inState_cachePins
    | with_reducible apply inState_pinEnd
    | with_reducible apply Device.inState_modNvm
    | with_reducible refine Device.inState_pset _ _ ?_ ?_
    | with_reducible exact Fld.free_at _ (by decide)
    | (with_reducible show Fld.Free _; decide)
    | with_reducible apply Device.inState_ite
    | with_reducible apply Device.inState_each
    | intro _
    | split
    | dsimp only

theorem inState_pinKick {s : Device} (hs : s.InState pk) :
    (pinKick s).InState pk := by
  unfold pinKick
  repeat' first
    | with_reducible assumption
    | with_reducible apply inState_flashBegin
    | with_reducible apply inState_pinDone
    | with_reducible apply Device.inState_ite
    | intro _
    | split
    | dsimp only

theorem inState_ckptKick {s : Device} (hs : s.InState pk) :
    (ckptKick s).InState pk := by
  unfold ckptKick
  repeat' first
    | with_reducible assumption
    | with_reducible apply inState_flashBegin
    | with_reducible apply Device.inState_modNvm
    | with_reducible refine Device.inState_pset _ _ ?_ ?_
    | with_reducible exact Fld.free_at _ (by decide)
    | (with_reducible show Fld.Free _; decide)
    | with_reducible apply Device.inState_ite
    | intro _
    | split
    | dsimp only

theorem inState_nvmNext (k : ℕ) {s : Device} (h : s.InState pk) : (nvmNext k s).InState pk := by
  induction k generalizing s with
  | zero => exact h
  | succ n ih =>
    rw [nvmNext]
    split
    · exact h
    · split
      · exact h
      · rename_i o _
        have h1 := inState_nvmTake o h
        cases o with
        | handover => exact h1
        | spare => exact inState_flashBegin _ h1
        | fetch d => exact ih (inState_nvmFree (inState_sectionFetch d h1))
        | ckpt => exact inState_ckptKick h1
        | pins => exact inState_pinKick h1
        | pt op a l => exact ih (inState_ptStart op a l h1)

theorem inState_nvmRun {s : Device} (hs : s.InState pk) :
    (nvmRun s).InState pk := by
  unfold nvmRun
  repeat' first
    | with_reducible assumption
    | with_reducible apply inState_nvmNext
    | intro _
    | split
    | dsimp only

theorem inState_spareRestore {s : Device} (hs : s.InState pk) :
    (spareRestore s).InState pk := by
  unfold spareRestore
  repeat' first
    | with_reducible assumption
    | with_reducible apply inState_nvmRun
    | with_reducible apply inState_nvmPush
    | with_reducible apply Device.inState_ite
    | intro _
    | split
    | dsimp only

theorem inState_ckptTake (data : Sys2Proof.Word) {s : Device} (hs : s.InState pk) :
    (ckptTake data s).InState pk := by
  unfold ckptTake
  repeat' first
    | with_reducible assumption
    | with_reducible apply inState_ckptRequest
    | with_reducible apply Device.inState_ite
    | intro _
    | split
    | dsimp only

theorem inState_fallDone {s : Device} (hs : s.InState pk) :
    (fallDone s).InState pk := by
  unfold fallDone
  repeat' first
    | with_reducible assumption
    | with_reducible apply inState_logEvent
    | with_reducible apply Device.inState_modSup
    | with_reducible apply inState_nvmFree
    | with_reducible apply inState_ringBest
    | with_reducible apply Device.inState_modNvm
    | with_reducible refine Device.inState_pset _ _ ?_ ?_
    | with_reducible refine Device.inState_setReg _ _ ?_ ?_
    | with_reducible exact Fld.free_at _ (by decide)
    | (with_reducible show Fld.Free _; decide)
    | with_reducible exact chAddr_ne _ _
    | with_reducible exact dieAddr_ne _ _
    | (with_reducible show _ ≠ 2; omega)
    | intro _
    | split
    | dsimp only

theorem inState_fallKick {s : Device} (hs : s.InState pk) :
    (fallKick s).InState pk := by
  unfold fallKick
  repeat' first
    | with_reducible assumption
    | with_reducible apply inState_flashBegin
    | intro _
    | split
    | dsimp only

theorem inState_flashGoesOn {s : Device} (hs : s.InState pk) :
    (flashGoesOn s).InState pk := by
  unfold flashGoesOn
  repeat' first
    | with_reducible assumption
    | with_reducible apply inState_nvmRun
    | with_reducible apply inState_nvmFree
    | with_reducible apply inState_ckptKick
    | with_reducible apply inState_pinKick
    | with_reducible apply inState_ptEnd
    | with_reducible apply inState_fallDone
    | with_reducible apply inState_fallKick
    | with_reducible apply Device.inState_modSup
    | with_reducible apply Device.inState_modNvm
    | with_reducible refine Device.inState_pset _ _ ?_ ?_
    | with_reducible exact Fld.free_at _ (by decide)
    | (with_reducible show Fld.Free _; decide)
    | with_reducible apply Device.inState_ite
    | intro _
    | split
    | dsimp only

theorem inState_ckptInvalidate {s : Device} (hs : s.InState pk) :
    (ckptInvalidate s).InState pk := by
  unfold ckptInvalidate
  repeat' first
    | with_reducible assumption
    | with_reducible apply inState_modFlash
    | with_reducible apply inState_logEvent
    | with_reducible apply inState_ringBest
    | with_reducible refine Device.inState_pset _ _ ?_ ?_
    | with_reducible exact Fld.free_at _ (by decide)
    | (with_reducible show Fld.Free _; decide)
    | with_reducible apply Device.inState_foldl
    | intro _
    | split
    | dsimp only

theorem inState_flashCut {s : Device} (hs : s.InState pk) :
    (flashCut s).InState pk := by
  unfold flashCut
  repeat' first
    | with_reducible assumption
    | with_reducible apply inState_modFlash
    | with_reducible apply Device.inState_spend
    | with_reducible apply Device.inState_modNvm
    | with_reducible apply Device.inState_foldl
    | intro _
    | split
    | dsimp only

theorem inState_ckptFail {s : Device} (hs : s.InState pk) :
    (ckptFail s).InState pk := by
  unfold ckptFail
  repeat' first
    | with_reducible assumption
    | with_reducible apply inState_ckptInvalidate
    | with_reducible apply inState_flashCut
    | with_reducible apply inState_nvmPush
    | with_reducible apply inState_nvmFree
    | with_reducible apply Device.inState_modNvm
    | with_reducible refine Device.inState_pset _ _ ?_ ?_
    | with_reducible exact Fld.free_at _ (by decide)
    | (with_reducible show Fld.Free _; decide)
    | intro _
    | split
    | dsimp only

theorem inState_nvmBatonLost {s : Device} (hs : s.InState pk) :
    (nvmBatonLost s).InState pk := by
  unfold nvmBatonLost
  repeat' first
    | with_reducible assumption
    | with_reducible apply inState_logEvent
    | with_reducible apply inState_nvmRun
    | with_reducible apply inState_ckptFail
    | with_reducible refine Device.inState_pset _ _ ?_ ?_
    | with_reducible exact Fld.free_at _ (by decide)
    | (with_reducible show Fld.Free _; decide)
    | intro _
    | split
    | dsimp only

theorem inState_setEdits (l : List (ℕ × ℕ)) {s : Device} (hs : s.InState pk) :
    (setEdits l s).InState pk := by
  unfold setEdits
  repeat' first
    | with_reducible assumption
    | with_reducible apply Device.inState_modNvm
    | with_reducible refine Device.inState_pset _ _ ?_ ?_
    | with_reducible exact Fld.free_at _ (by decide)
    | (with_reducible show Fld.Free _; decide)
    | intro _
    | split
    | dsimp only

theorem inState_ckptCell (d : ℕ) {s : Device} (hs : s.InState pk) :
    (ckptCell d s).InState pk := by
  unfold ckptCell
  repeat' first
    | with_reducible assumption
    | with_reducible apply inState_ckptKick
    | with_reducible apply Device.inState_modNvm
    | with_reducible refine Device.inState_pset _ _ ?_ ?_
    | with_reducible exact Fld.free_at _ (by decide)
    | (with_reducible show Fld.Free _; decide)
    | with_reducible apply Device.inState_ite
    | intro _
    | split
    | dsimp only

theorem inState_ckptForm {s : Device} (hs : s.InState pk) :
    (ckptForm s).InState pk := by
  unfold ckptForm
  repeat' first
    | with_reducible assumption
    | with_reducible apply Device.inState_modDie
    | with_reducible apply inState_nvmRun
    | with_reducible apply inState_nvmPush
    | with_reducible apply Device.inState_modNvm
    | with_reducible refine Device.inState_pset _ _ ?_ ?_
    | with_reducible exact Fld.free_at _ (by decide)
    | (with_reducible show Fld.Free _; decide)
    | with_reducible apply Device.inState_each
    | intro _
    | split
    | dsimp only

theorem inState_ckptBoundary {s : Device} (hs : s.InState pk) :
    (ckptBoundary s).InState pk := by
  unfold ckptBoundary
  repeat' first
    | with_reducible assumption
    | with_reducible apply inState_ckptForm
    | with_reducible apply Device.inState_ite
    | intro _
    | split
    | dsimp only

theorem inState_ckptDone {s : Device} (hs : s.InState pk) :
    (ckptDone s).InState pk := by
  unfold ckptDone
  repeat' first
    | with_reducible assumption
    | with_reducible apply inState_ringBest
    | with_reducible apply inState_nvmRun
    | with_reducible apply inState_nvmFree
    | with_reducible apply Device.inState_modNvm
    | with_reducible refine Device.inState_setReg _ _ ?_ ?_
    | with_reducible refine Device.inState_pset _ _ ?_ ?_
    | with_reducible exact Fld.free_at _ (by decide)
    | (with_reducible show Fld.Free _; decide)
    | with_reducible exact chAddr_ne _ _
    | with_reducible exact dieAddr_ne _ _
    | (with_reducible show _ ≠ 2; omega)
    | with_reducible apply Device.inState_ite
    | intro _
    | split
    | dsimp only

theorem inState_pinCommand (op : ℕ) (a : ℕ) (key : ℕ) {s : Device} (hs : s.InState pk) :
    (pinCommand op a key s).InState pk := by
  unfold pinCommand
  repeat' first
    | with_reducible assumption
    | with_reducible apply inState_setEdits
    | with_reducible apply Device.inState_modNvm
    | with_reducible refine Device.inState_pset _ _ ?_ ?_
    | with_reducible exact Fld.free_at _ (by decide)
    | (with_reducible show Fld.Free _; decide)
    | with_reducible apply Device.inState_ite
    | intro _
    | split
    | dsimp only

theorem inState_flashDone {s : Device} (hs : s.InState pk) :
    (flashDone s).InState pk := by
  unfold flashDone
  repeat' first
    | with_reducible assumption
    | with_reducible apply inState_flashGoesOn
    | with_reducible apply inState_modFlash
    | with_reducible apply Device.inState_modNvm
    | intro _
    | split
    | dsimp only

theorem inState_ptCommand (op : ℕ) (len : ℕ) (key : ℕ) (go : Bool) {s : Device} (hs : s.InState pk) :
    (ptCommand op len key go s).InState pk := by
  unfold ptCommand
  repeat' first
    | with_reducible assumption
    | with_reducible apply inState_nvmRun
    | with_reducible apply inState_nvmPush
    | with_reducible refine Device.inState_pset _ _ ?_ ?_
    | with_reducible exact Fld.free_at _ (by decide)
    | (with_reducible show Fld.Free _; decide)
    | with_reducible apply Device.inState_ite
    | intro _
    | split
    | dsimp only

theorem inState_flashComplete (sr : Sys2Proof.Byte) {s : Device} (hs : s.InState pk) :
    (flashComplete sr s).InState pk := by
  unfold flashComplete
  repeat' first
    | with_reducible assumption
    | with_reducible apply inState_flashDone
    | with_reducible refine Device.inState_pset _ _ ?_ ?_
    | with_reducible exact Fld.free_at _ (by decide)
    | (with_reducible show Fld.Free _; decide)
    | with_reducible apply Device.inState_ite
    | intro _
    | split
    | dsimp only

theorem inState_nvmFailed {s : Device} (hs : s.InState pk) :
    (nvmFailed s).InState pk := by
  unfold nvmFailed
  repeat' first
    | with_reducible assumption
    | with_reducible apply inState_nvmRun
    | with_reducible apply inState_nvmPush
    | with_reducible apply inState_nvmFree
    | with_reducible apply inState_ckptFail
    | with_reducible apply inState_pinCut
    | with_reducible apply inState_ptEnd
    | with_reducible apply Device.inState_modSup
    | with_reducible apply inState_fallKick
    | with_reducible apply Device.inState_modNvm
    | with_reducible refine Device.inState_pset _ _ ?_ ?_
    | with_reducible exact Fld.free_at _ (by decide)
    | (with_reducible show Fld.Free _; decide)
    | with_reducible apply Device.inState_ite
    | intro _
    | split
    | dsimp only

theorem inState_nvmTimeout (wel : Bool) {s : Device} (hs : s.InState pk) :
    (nvmTimeout wel s).InState pk := by
  unfold nvmTimeout
  repeat' first
    | with_reducible assumption
    | with_reducible apply inState_flashCut
    | with_reducible apply inState_nvmFailed
    | with_reducible apply inState_logEvent
    | with_reducible apply Device.inState_modNvm
    | with_reducible refine Device.inState_pset _ _ ?_ ?_
    | with_reducible exact Fld.free_at _ (by decide)
    | (with_reducible show Fld.Free _; decide)
    | with_reducible apply Device.inState_ite
    | intro _
    | split
    | dsimp only

theorem inState_nvmBatonExpiry {s : Device} (hs : s.InState pk) :
    (nvmBatonExpiry s).InState pk := by
  unfold nvmBatonExpiry
  repeat' first
    | with_reducible assumption
    | with_reducible apply inState_nvmBatonLost
    | with_reducible apply Device.inState_ite
    | intro _
    | split
    | dsimp only

theorem inState_nvmStop {s : Device} (hs : s.InState pk) :
    (nvmStop s).InState pk := by
  unfold nvmStop
  repeat' first
    | with_reducible assumption
    | with_reducible apply inState_modFlash
    | with_reducible apply inState_flashCut
    | with_reducible apply Device.inState_modNvm
    | intro _
    | split
    | dsimp only

theorem inState_pinBoundary {s : Device} (hs : s.InState pk) :
    (pinBoundary s).InState pk := by
  unfold pinBoundary
  repeat' first
    | with_reducible assumption
    | with_reducible apply inState_nvmPush
    | with_reducible apply Device.inState_modNvm
    | with_reducible apply Device.inState_ite
    | intro _
    | split
    | dsimp only

end Sys2Proof.Machine
end

