-- ==== Sys2Proof/Laws/InStatePackage.lean ====
section
/-! SUPPORT. Operations of these files that leave PKG_STATE.STATE as it is (R389). One lemma for each operation, in the order of the files. -/

set_option linter.unusedTactic false
set_option linter.unreachableTactic false
set_option linter.unusedVariables false

namespace Sys2Proof.Machine

variable {pk : Nat}

/-! Domain. -/

theorem inState_outageWords {s : Device} (hs : s.InState pk) :
    (outageWords s).InState pk := by
  unfold outageWords
  repeat' first
    | with_reducible assumption
    | with_reducible refine Device.inState_pset _ _ ?_ ?_
    | with_reducible exact Fld.free_at _ (by decide)
    | (with_reducible show Fld.Free _; decide)
    | intro _
    | split
    | dsimp only

theorem inState_genDiff (lost : Bool) (recGen : Option ℕ) (d : ℕ) {s : Device} (hs : s.InState pk) :
    (genDiff lost recGen d s).InState pk := by
  unfold genDiff
  repeat' first
    | with_reducible assumption
    | with_reducible apply Device.inState_cset
    | with_reducible apply Device.inState_modGlean
    | with_reducible apply Device.inState_ite
    | with_reducible apply Device.inState_each
    | intro _
    | split
    | dsimp only

theorem inState_coldConsts (g : ℕ) {s : Device} (hs : s.InState pk) :
    (coldConsts g s).InState pk := by
  unfold coldConsts
  repeat' first
    | with_reducible assumption
    | with_reducible apply Device.inState_cforce
    | with_reducible apply inState_forceConsts
    | with_reducible apply Device.inState_modConv
    | with_reducible apply inState_takeConsts
    | with_reducible apply Device.inState_each
    | intro _
    | split
    | dsimp only

theorem inState_unaccounted (seq : ℕ) (g : ℕ) {s : Device} (hs : s.InState pk) :
    (unaccounted seq g s).InState pk := by
  unfold unaccounted
  repeat' first
    | with_reducible assumption
    | with_reducible apply inState_logEvent
    | with_reducible apply Device.inState_cset
    | with_reducible refine inState_setMap _ _ _ _ (by decide) (by decide) ?_
    | intro _
    | split
    | dsimp only

theorem inState_keptSetpoints (g : ℕ) {s : Device} (hs : s.InState pk) :
    (keptSetpoints g s).InState pk := by
  unfold keptSetpoints
  repeat' first
    | with_reducible assumption
    | with_reducible apply Device.inState_modLp
    | intro _
    | split
    | dsimp only

theorem inState_gleanCopy (d : ℕ) {s : Device} (hs : s.InState pk) :
    (gleanCopy d s).InState pk := by
  unfold gleanCopy
  repeat' first
    | with_reducible assumption
    | with_reducible apply Device.inState_modGlean
    | intro _
    | split
    | dsimp only

theorem inState_restoreStep (step : ℕ) (recipe : ℕ) (e : ℕ) (pass : Bool) (fail : Bool) (src : ℕ) (g : ℕ) {s : Device} (hs : s.InState pk) :
    (restoreStep step recipe e pass fail src g s).InState pk := by
  unfold restoreStep
  repeat' first
    | with_reducible assumption
    | with_reducible apply Device.inState_cset
    | with_reducible apply inState_setEng
    | with_reducible apply Device.inState_modEng
    | with_reducible apply Device.inState_ite
    | intro _
    | split
    | dsimp only

theorem inState_restoreChan (rcd : List Sys2Proof.Byte) (page : Option (List Sys2Proof.Byte)) (g : ℕ) {s : Device} (hs : s.InState pk) :
    (restoreChan rcd page g s).InState pk := by
  unfold restoreChan
  repeat' first
    | with_reducible assumption
    | with_reducible apply Device.inState_modCh
    | with_reducible apply Device.inState_cset
    | with_reducible apply Device.inState_modEng
    | with_reducible apply inState_restoreStep
    | with_reducible apply inState_unaccounted
    | with_reducible apply Device.inState_ite
    | intro _
    | split
    | dsimp only

theorem rfGet_foldl_other {a : ℕ} (g : RegFile → ℕ × Word → Word) (l : RegFile) (f : RegFile) (h : ∀ p ∈ l, p.1 ≠ a) :
    rfGet (l.foldl (fun f p => rfSet f p.1 (g f p)) f) a = rfGet f a := by
  induction l generalizing f with
  | nil => rfl
  | cons p l ih =>
    rw [List.foldl_cons, ih _ fun q hq => h q (List.mem_cons_of_mem _ hq), rfGet_set_other (Ne.symm (h p (by simp)))]

theorem inState_decideWords (dark : Bool) (d : ℕ) {s : Device} (h : s.InState pk) : (decideWords dark d s).InState pk := by
  show PKG_STATE_STATE.get (rfGet (if dark then s.regs else retainedRegs d s) 2) = pk
  split
  · exact h
  · unfold retainedRegs
    rw [rfGet_foldl_other (fun f p => merge (kMask p.1) (rfGet f p.1) p.2)]
    · exact h
    · intro p hp e
      have h2 := (List.mem_filter.mp hp).2
      rw [e] at h2
      simp only [heldWord, Bool.and_eq_true, beq_iff_eq, Bool.not_eq_true'] at h2
      obtain ⟨h3, h4⟩ := h2
      simp [h3] at h4

theorem inState_noRecord (d : ℕ) {s : Device} (hs : s.InState pk) :
    (noRecord d s).InState pk := by
  unfold noRecord
  repeat' first
    | with_reducible assumption
    | with_reducible apply inState_logEvent
    | with_reducible apply Device.inState_cset
    | with_reducible apply Device.inState_each
    | intro _
    | split
    | dsimp only

theorem inState_stopLead (recovery : Bool) (d : ℕ) {s : Device} (hs : s.InState pk) :
    (stopLead recovery d s).InState pk := by
  unfold stopLead
  repeat' first
    | with_reducible assumption
    | with_reducible apply Device.inState_clearRun
    | with_reducible apply Device.inState_modPins
    | with_reducible apply inState_nvmStop
    | with_reducible apply inState_runStop
    | with_reducible apply Device.inState_ite
    | intro _
    | split
    | dsimp only

theorem inState_stopBooks (recovery : Bool) (d : ℕ) {s : Device} (hs : s.InState pk) :
    (stopBooks recovery d s).InState pk := by
  unfold stopBooks
  repeat' first
    | with_reducible assumption
    | with_reducible apply inState_bookPartial
    | with_reducible apply inState_plsBook
    | with_reducible apply inState_plsDieStop
    | with_reducible apply inState_plsCut
    | with_reducible apply inState_otpCutShort
    | with_reducible apply inState_retCommit
    | with_reducible apply Device.inState_ite
    | with_reducible apply Device.inState_each
    | intro _
    | split
    | dsimp only

theorem inState_mainStop (recovery : Bool) (d : ℕ) {s : Device} (hs : s.InState pk) :
    (mainStop recovery d s).InState pk := by
  unfold mainStop
  repeat' first
    | with_reducible assumption
    | with_reducible apply inState_monEnd
    | with_reducible apply inState_stopBooks
    | with_reducible apply inState_benchBaton
    | with_reducible apply inState_valvesHusk
    | with_reducible apply inState_gatesOff
    | with_reducible apply Device.inState_modGlean
    | with_reducible apply Device.inState_modDie
    | with_reducible apply inState_publishDies
    | with_reducible apply inState_stopLead
    | with_reducible apply Device.inState_ite
    | with_reducible apply Device.inState_each
    | intro _
    | split
    | dsimp only

theorem inState_stopAll {s : Device} (hs : s.InState pk) :
    (stopAll s).InState pk := by
  unfold stopAll
  repeat' first
    | with_reducible assumption
    | with_reducible apply inState_mainStop
    | with_reducible apply Device.inState_each
    | intro _
    | split
    | dsimp only

theorem inState_refRetained (dark : Bool) (d : ℕ) {s : Device} (hs : s.InState pk) :
    (refRetained dark d s).InState pk := by
  unfold refRetained
  repeat' first
    | with_reducible assumption
    | with_reducible apply Device.inState_modDie
    | with_reducible apply Device.inState_dset
    | with_reducible apply Device.inState_cset
    | with_reducible apply Device.inState_ite
    | with_reducible apply Device.inState_each
    | intro _
    | split
    | dsimp only

theorem inState_chanBlank (g : ℕ) {s : Device} (hs : s.InState pk) :
    (chanBlank g s).InState pk := by
  unfold chanBlank
  repeat' first
    | with_reducible assumption
    | with_reducible apply Device.inState_modCh
    | intro _
    | split
    | dsimp only

theorem inState_ledgerClear {s : Device} (hs : s.InState pk) :
    (ledgerClear s).InState pk := by
  unfold ledgerClear
  repeat' first
    | with_reducible assumption
    | with_reducible refine Device.inState_setReg _ _ ?_ ?_
    | with_reducible exact chAddr_ne _ _
    | with_reducible exact dieAddr_ne _ _
    | (with_reducible show _ ≠ 2; omega)
    | with_reducible apply Device.inState_mk
    | with_reducible apply Device.InState.word
    | intro _
    | split
    | dsimp only

theorem rfGet_startRegs (d : ℕ) (hd : d ≠ 0) (isNew : Bool) (s : Device) : rfGet (startRegs d isNew s) 2 = rfGet s.regs 2 := by
  unfold startRegs
  dsimp only
  rw [rfGet_foldl_other (fun _ p => merge (kMask p.1) (regDefault p.1) p.2)]
  · refine rfGet_filter (fun w => ?_) _
    simp only [bne_iff_ne, ne_eq]
    exact fun e => hd (e ▸ rfl)
  · intro p hp e
    split at hp
    · simp at hp
    · have h2 := (List.mem_filter.mp hp).2
      rw [e] at h2
      simp only [heldWord, Bool.and_eq_true, beq_iff_eq] at h2
      exact hd (h2.1 ▸ rfl)

theorem inState_dieWords (isNew : Bool) (d : ℕ) {s : Device} (hd : d ≠ 0) (h : s.InState pk) : (dieWords isNew d s).InState pk := by
  show PKG_STATE_STATE.get (rfGet (startRegs d _ s) 2) = pk
  rw [rfGet_startRegs d hd]
  exact h

theorem inState_dieStart (recovery : Bool) (d : ℕ) {s : Device} (hd : d ≠ 0) (h : s.InState pk) : (dieStart recovery d s).InState pk := by
  unfold dieStart
  dsimp only
  refine inState_gleanCopy _ (inState_otpLoad _ ?_)
  refine Device.inState_ite (fun _ => inState_ledgerClear ?_) fun _ => ?_
  all_goals exact Device.inState_modDie _ _ (Device.inState_each _ (inState_dieWords _ _ hd h) fun c t h => inState_chanBlank _ h)

theorem inState_gleanReport (d : ℕ) (g : Glean) (o : RetOutcome) {s : Device} (hs : s.InState pk) :
    (gleanReport d g o s).InState pk := by
  unfold gleanReport
  repeat' first
    | with_reducible assumption
    | with_reducible refine Device.inState_setReg _ _ ?_ ?_
    | with_reducible refine Device.inState_pset _ _ ?_ ?_
    | with_reducible exact Fld.free_at _ (by decide)
    | (with_reducible show Fld.Free _; decide)
    | with_reducible exact chAddr_ne _ _
    | with_reducible exact dieAddr_ne _ _
    | (with_reducible show _ ≠ 2; omega)
    | with_reducible apply Device.inState_ite
    | intro _
    | split
    | dsimp only

theorem inState_darkReport (d : ℕ) (o : RetOutcome) {s : Device} (hs : s.InState pk) :
    (darkReport d o s).InState pk := by
  unfold darkReport
  repeat' first
    | with_reducible assumption
    | with_reducible apply inState_setIrq
    | with_reducible apply inState_logEvent
    | with_reducible apply inState_ledgerClear
    | with_reducible refine Device.inState_pset _ _ ?_ ?_
    | with_reducible exact Fld.free_at _ (by decide)
    | (with_reducible show Fld.Free _; decide)
    | intro _
    | split
    | dsimp only

theorem inState_chanStart (dark : Bool) (r : Retention) (g : ℕ) {s : Device} (hs : s.InState pk) :
    (chanStart dark r g s).InState pk := by
  unfold chanStart
  repeat' first
    | with_reducible assumption
    | with_reducible apply Device.inState_modCh
    | with_reducible apply inState_keptSetpoints
    | with_reducible apply Device.inState_cset
    | with_reducible apply inState_closeEpoch
    | with_reducible apply Device.inState_ite
    | intro _
    | split
    | dsimp only

theorem inState_refAtLoad (d : ℕ) {s : Device} (hs : s.InState pk) :
    (refAtLoad d s).InState pk := by
  unfold refAtLoad
  repeat' first
    | with_reducible assumption
    | with_reducible apply Device.inState_dset
    | with_reducible apply Device.inState_modDie
    | with_reducible apply Device.inState_cset
    | with_reducible apply Device.inState_ite
    | with_reducible apply Device.inState_each
    | intro _
    | split
    | dsimp only

theorem inState_dieDecide (d : ℕ) {s : Device} (hs : s.InState pk) :
    (dieDecide d s).InState pk := by
  unfold dieDecide
  repeat' first
    | with_reducible assumption
    | with_reducible apply inState_retWrite
    | with_reducible apply inState_chanStart
    | with_reducible apply inState_decideWords
    | with_reducible apply Device.inState_modDie
    | with_reducible apply inState_refRetained
    | with_reducible apply inState_darkReport
    | with_reducible apply inState_gleanReport
    | with_reducible apply Device.inState_cset
    | with_reducible apply inState_outageWords
    | with_reducible apply Device.inState_ite
    | with_reducible apply Device.inState_each
    | intro _
    | split
    | dsimp only

theorem inState_restoreDie (d : ℕ) {s : Device} (hs : s.InState pk) :
    (restoreDie d s).InState pk := by
  unfold restoreDie
  repeat' first
    | with_reducible assumption
    | with_reducible apply inState_gleanEnables
    | with_reducible apply inState_refAtLoad
    | with_reducible apply inState_genDiff
    | with_reducible apply inState_coldConsts
    | with_reducible apply inState_noRecord
    | with_reducible apply inState_restoreChan
    | with_reducible apply Device.inState_ite
    | with_reducible apply Device.inState_each
    | intro _
    | split
    | dsimp only

/-! Reset. -/

theorem inState_seatsAgain {s : Device} (hs : s.InState pk) :
    (seatsAgain s).InState pk := by
  unfold seatsAgain
  repeat' first
    | with_reducible assumption
    | with_reducible apply Device.inState_modEng
    | with_reducible apply Device.inState_ite
    | with_reducible apply Device.inState_foldl
    | intro _
    | split
    | dsimp only

theorem inState_leadFresh {s : Device} (hs : s.InState pk) :
    (leadFresh s).InState pk := by
  unfold leadFresh
  repeat' first
    | with_reducible assumption
    | with_reducible apply inState_schedulerStart
    | with_reducible apply Device.inState_mk
    | with_reducible apply Device.InState.word
    | intro _
    | split
    | dsimp only

theorem inState_recoveriesUp {s : Device} (h : s.InState pk) : (recoveriesUp s).InState pk := by
  have key : ∀ (l : List ℕ) (t : Device), (∀ d ∈ l, d ≠ 0) → t.InState pk → (t.each l (dieStart true)).InState pk := by
    intro l
    induction l with
    | nil => exact fun _ _ h => h
    | cons d l ih =>
      exact fun t hl h => ih _ (fun e he => hl e (List.mem_cons_of_mem _ he)) (inState_dieStart _ _ (hl d (by simp)) h)
  unfold recoveriesUp
  refine Device.inState_ite (fun hup => inState_publishDies (key _ _ (fun d hd e => ?_) h)) fun _ => h
  have h2 := (List.mem_filter.mp hd).2
  subst e
  simp [hup] at h2

theorem inState_pulsesDue {s : Device} (hs : s.InState pk) :
    (pulsesDue s).InState pk := by
  unfold pulsesDue
  repeat' first
    | with_reducible assumption
    | with_reducible apply inState_modPulse
    | with_reducible apply Device.inState_ite
    | with_reducible apply Device.inState_each
    | intro _
    | split
    | dsimp only

theorem inState_setStart (cause : ℕ) {s : Device} (hs : s.InState pk) :
    (setStart cause s).InState pk := by
  unfold setStart
  repeat' first
    | with_reducible assumption
    | with_reducible apply Device.inState_modSup
    | intro _
    | split
    | dsimp only

theorem inState_pkgWatchdog {s : Device} (hs : s.InState pk) :
    (pkgWatchdog s).InState pk := by
  unfold pkgWatchdog
  repeat' first
    | with_reducible assumption
    | with_reducible apply Device.inState_modSup
    | with_reducible apply inState_leaseEnd
    | with_reducible apply inState_mainStop
    | with_reducible apply inState_nvmBatonLost
    | with_reducible apply inState_setStart
    | with_reducible apply Device.inState_ite
    | with_reducible apply Device.inState_each
    | intro _
    | split
    | dsimp only

theorem inState_trainingFailed (d : ℕ) {s : Device} (hs : s.InState pk) :
    (trainingFailed d s).InState pk := by
  unfold trainingFailed
  repeat' first
    | with_reducible assumption
    | with_reducible apply Device.inState_modDie
    | with_reducible apply inState_valvesHusk
    | with_reducible apply inState_gatesOff
    | with_reducible apply Device.inState_ite
    | with_reducible apply Device.inState_each
    | intro _
    | split
    | dsimp only

theorem inState_takeControl (d : ℕ) {s : Device} (hs : s.InState pk) :
    (takeControl d s).InState pk := by
  unfold takeControl
  repeat' first
    | with_reducible assumption
    | with_reducible apply Device.inState_modDie
    | with_reducible apply inState_huskIdle
    | with_reducible apply Device.inState_ite
    | with_reducible apply Device.inState_each
    | intro _
    | split
    | dsimp only

theorem inState_dropRelease (g : ℕ) {s : Device} (hs : s.InState pk) :
    (dropRelease g s).InState pk := by
  unfold dropRelease
  repeat' first
    | with_reducible assumption
    | with_reducible apply Device.inState_modDue
    | with_reducible apply Device.inState_ite
    | intro _
    | split
    | dsimp only

theorem inState_resumeChan (g : ℕ) {s : Device} (hs : s.InState pk) :
    (resumeChan g s).InState pk := by
  unfold resumeChan
  repeat' first
    | with_reducible assumption
    | with_reducible apply Device.inState_cset
    | with_reducible apply inState_traceEvent
    | with_reducible apply inState_recipeEnd
    | with_reducible apply inState_endStep
    | with_reducible apply inState_engMode
    | with_reducible apply inState_setEng
    | with_reducible apply Device.inState_modEng
    | with_reducible apply inState_carryResume
    | with_reducible refine inState_setMap _ _ _ _ (by decide) (by decide) ?_
    | with_reducible refine Device.inState_pinc _ ?_ ?_
    | with_reducible exact Fld.free_at _ (by decide)
    | (with_reducible show Fld.Free _; decide)
    | with_reducible apply Device.inState_ite
    | intro _
    | split
    | dsimp only

theorem inState_resumeDie (d : ℕ) {s : Device} (hs : s.InState pk) :
    (resumeDie d s).InState pk := by
  unfold resumeDie
  repeat' first
    | with_reducible assumption
    | with_reducible apply inState_resumeChan
    | with_reducible apply Device.inState_ite
    | with_reducible apply Device.inState_each
    | intro _
    | split
    | dsimp only

theorem inState_warmStart {s : Device} (hs : s.InState pk) :
    (warmStart s).InState pk := by
  unfold warmStart
  repeat' first
    | with_reducible assumption
    | with_reducible apply inState_setStart
    | with_reducible apply Device.inState_ite
    | intro _
    | split
    | dsimp only

theorem inState_pulsesLoad {s : Device} (hs : s.InState pk) :
    (pulsesLoad s).InState pk := by
  unfold pulsesLoad
  repeat' first
    | with_reducible assumption
    | with_reducible apply inState_modPulse
    | with_reducible apply inState_putResq
    | with_reducible apply Device.inState_ite
    | with_reducible apply Device.inState_each
    | intro _
    | split
    | dsimp only

theorem inState_restartAll (cause : ℕ) {s : Device} (hs : s.InState pk) :
    (restartAll cause s).InState pk := by
  unfold restartAll
  repeat' first
    | with_reducible assumption
    | with_reducible apply inState_setStart
    | with_reducible apply inState_stopAll
    | intro _
    | split
    | dsimp only

theorem inState_softReset {s : Device} (hs : s.InState pk) :
    (softReset s).InState pk := by
  unfold softReset
  repeat' first
    | with_reducible assumption
    | with_reducible apply Device.inState_modSup
    | with_reducible apply inState_restartAll
    | with_reducible apply Device.inState_ite
    | intro _
    | split
    | dsimp only

theorem inState_otpReload (d : ℕ) {s : Device} (hs : s.InState pk) :
    (otpReload d s).InState pk := by
  unfold otpReload
  repeat' first
    | with_reducible assumption
    | with_reducible apply inState_otpRefuse
    | with_reducible apply inState_restartAll
    | with_reducible apply Device.inState_ite
    | intro _
    | split
    | dsimp only

theorem inState_releaseAll (data : Sys2Proof.Word) {s : Device} (hs : s.InState pk) :
    (releaseAll data s).InState pk := by
  unfold releaseAll
  repeat' first
    | with_reducible assumption
    | with_reducible apply inState_seqCmd
    | with_reducible apply Device.inState_ite
    | with_reducible apply Device.inState_each
    | intro _
    | split
    | dsimp only

theorem inState_resetNRise {s : Device} (hs : s.InState pk) :
    (resetNRise s).InState pk := by
  unfold resetNRise
  repeat' first
    | with_reducible assumption
    | with_reducible apply inState_startSequencer
    | with_reducible apply Device.inState_modPins
    | with_reducible apply Device.inState_modSup
    | with_reducible apply Device.inState_ite
    | intro _
    | split
    | dsimp only

theorem inState_autoStart (g : ℕ) {s : Device} (hs : s.InState pk) :
    (autoStart g s).InState pk := by
  unfold autoStart
  repeat' first
    | with_reducible assumption
    | with_reducible apply inState_startRecipe
    | with_reducible apply Device.inState_ite
    | intro _
    | split
    | dsimp only

theorem inState_lockWaitTimeout {s : Device} (hs : s.InState pk) :
    (lockWaitTimeout s).InState pk := by
  unfold lockWaitTimeout
  repeat' first
    | with_reducible assumption
    | with_reducible apply Device.inState_modSup
    | with_reducible refine Device.inState_pset _ _ ?_ ?_
    | with_reducible exact Fld.free_at _ (by decide)
    | (with_reducible show Fld.Free _; decide)
    | with_reducible apply Device.inState_ite
    | intro _
    | split
    | dsimp only

theorem inState_husksAll (b : Bool) {s : Device} (hs : s.InState pk) :
    (husksAll b s).InState pk := by
  unfold husksAll
  repeat' first
    | with_reducible assumption
    | with_reducible apply Device.inState_modPins
    | intro _
    | split
    | dsimp only

theorem inState_resumeCounts {s : Device} (hs : s.InState pk) :
    (resumeCounts s).InState pk := by
  unfold resumeCounts
  repeat' first
    | with_reducible assumption
    | with_reducible refine Device.inState_pset _ _ ?_ ?_
    | with_reducible exact Fld.free_at _ (by decide)
    | (with_reducible show Fld.Free _; decide)
    | intro _
    | split
    | dsimp only

theorem inState_resumeAll {s : Device} (hs : s.InState pk) :
    (resumeAll s).InState pk := by
  unfold resumeAll
  repeat' first
    | with_reducible assumption
    | with_reducible apply inState_autoStart
    | with_reducible apply inState_resumeDie
    | with_reducible apply inState_resumeCounts
    | with_reducible refine Device.inState_pset _ _ ?_ ?_
    | with_reducible exact Fld.free_at _ (by decide)
    | (with_reducible show Fld.Free _; decide)
    | with_reducible apply Device.inState_ite
    | with_reducible apply Device.inState_each
    | intro _
    | split
    | dsimp only

theorem inState_resetNLow {s : Device} (hs : s.InState pk) :
    (resetNLow s).InState pk := by
  unfold resetNLow
  repeat' first
    | with_reducible assumption
    | with_reducible apply inState_stopAll
    | with_reducible apply Device.inState_modPins
    | with_reducible apply Device.inState_modSup
    | with_reducible apply inState_setStart
    | with_reducible apply Device.inState_ite
    | intro _
    | split
    | dsimp only

theorem inState_loadImage {s : Device} (hs : s.InState pk) :
    (loadImage s).InState pk := by
  unfold loadImage
  repeat' first
    | with_reducible assumption
    | with_reducible apply inState_dieDecide
    | with_reducible apply inState_shadowRebuild
    | with_reducible apply inState_imageLoad
    | with_reducible apply inState_pulsesLoad
    | with_reducible apply inState_gleanRise
    | with_reducible apply inState_restoreDie
    | with_reducible refine Device.inState_pset _ _ ?_ ?_
    | with_reducible exact Fld.free_at _ (by decide)
    | (with_reducible show Fld.Free _; decide)
    | with_reducible apply Device.inState_ite
    | with_reducible apply Device.inState_each
    | intro _
    | split
    | dsimp only

theorem inState_hostSoftReset (key : ℕ) {s : Device} (hs : s.InState pk) :
    (hostSoftReset key s).InState pk := by
  unfold hostSoftReset
  repeat' first
    | with_reducible assumption
    | with_reducible apply inState_softReset
    | with_reducible apply Device.inState_ite
    | intro _
    | split
    | dsimp only

theorem inState_lockClock {s : Device} (hs : s.InState pk) :
    (lockClock s).InState pk := by
  unfold lockClock
  repeat' first
    | with_reducible assumption
    | with_reducible apply Device.inState_modSup
    | with_reducible apply Device.inState_ite
    | intro _
    | split
    | dsimp only

/-! Handover. -/

theorem inState_shipExit (cause : ℕ) {s : Device} (hs : s.InState pk) :
    (shipExit cause s).InState pk := by
  unfold shipExit
  repeat' first
    | with_reducible assumption
    | with_reducible apply Device.inState_modGlean
    | with_reducible apply inState_startSequencer
    | with_reducible apply Device.inState_modPins
    | with_reducible refine Device.inState_pset _ _ ?_ ?_
    | with_reducible exact Fld.free_at _ (by decide)
    | (with_reducible show Fld.Free _; decide)
    | with_reducible apply Device.inState_ite
    | with_reducible apply Device.inState_each
    | intro _
    | split
    | dsimp only

theorem inState_shipWakeN (lowMs : ℕ) {s : Device} (hs : s.InState pk) :
    (shipWakeN lowMs s).InState pk := by
  unfold shipWakeN
  repeat' first
    | with_reducible assumption
    | with_reducible apply inState_shipExit
    | with_reducible apply Device.inState_ite
    | intro _
    | split
    | dsimp only

theorem inState_carryDeferred {s : Device} (hs : s.InState pk) :
    (carryDeferred s).InState pk := by
  unfold carryDeferred
  repeat' first
    | with_reducible assumption
    | with_reducible apply Device.inState_modSup
    | with_reducible apply inState_restartAll
    | with_reducible apply inState_pkgWatchdog
    | with_reducible apply Device.inState_ite
    | intro _
    | split
    | dsimp only

theorem inState_pageForm {s : Device} (hs : s.InState pk) :
    (pageForm s).InState pk := by
  unfold pageForm
  repeat' first
    | with_reducible assumption
    | with_reducible apply Device.inState_modSup
    | intro _
    | split
    | dsimp only

theorem inState_cutTransfer {s : Device} (hs : s.InState pk) :
    (cutTransfer s).InState pk := by
  unfold cutTransfer
  repeat' first
    | with_reducible assumption
    | with_reducible apply inState_nvmCount
    | with_reducible apply inState_ptEnd
    | with_reducible apply Device.inState_modNvm
    | with_reducible apply Device.inState_ite
    | intro _
    | split
    | dsimp only

theorem inState_cutCheckpoint {s : Device} (hs : s.InState pk) :
    (cutCheckpoint s).InState pk := by
  unfold cutCheckpoint
  repeat' first
    | with_reducible assumption
    | with_reducible apply Device.inState_modSup
    | with_reducible apply inState_nvmCount
    | with_reducible apply Device.inState_modNvm
    | with_reducible refine Device.inState_pset _ _ ?_ ?_
    | with_reducible exact Fld.free_at _ (by decide)
    | (with_reducible show Fld.Free _; decide)
    | with_reducible apply Device.inState_ite
    | intro _
    | split
    | dsimp only

theorem inState_takePort (slot : ℕ) (write : Bool) {s : Device} (hs : s.InState pk) :
    (takePort slot write s).InState pk := by
  unfold takePort
  repeat' first
    | with_reducible assumption
    | with_reducible apply inState_fallKick
    | with_reducible apply Device.inState_modSup
    | with_reducible apply inState_nvmFree
    | with_reducible apply Device.inState_modNvm
    | with_reducible refine Device.inState_pset _ _ ?_ ?_
    | with_reducible exact Fld.free_at _ (by decide)
    | (with_reducible show Fld.Free _; decide)
    | with_reducible apply Device.inState_ite
    | intro _
    | split
    | dsimp only

theorem inState_cutErase {s : Device} (hs : s.InState pk) :
    (cutErase s).InState pk := by
  unfold cutErase
  repeat' first
    | with_reducible assumption
    | with_reducible apply inState_flashCut
    | intro _
    | split
    | dsimp only

theorem inState_spareUsed (begun : Bool) {s : Device} (hs : s.InState pk) :
    (spareUsed begun s).InState pk := by
  unfold spareUsed
  repeat' first
    | with_reducible assumption
    | with_reducible apply inState_nvmPush
    | with_reducible refine Device.inState_pset _ _ ?_ ?_
    | with_reducible exact Fld.free_at _ (by decide)
    | (with_reducible show Fld.Free _; decide)
    | with_reducible apply Device.inState_ite
    | intro _
    | split
    | dsimp only

theorem inState_handoverNvm {s : Device} (hs : s.InState pk) :
    (handoverNvm s).InState pk := by
  unfold handoverNvm
  repeat' first
    | with_reducible assumption
    | with_reducible apply inState_pageForm
    | with_reducible apply inState_pinCut
    | with_reducible apply inState_cutTransfer
    | with_reducible apply inState_cutCheckpoint
    | with_reducible apply inState_takePort
    | with_reducible apply inState_cutErase
    | with_reducible apply Device.inState_modSup
    | with_reducible apply inState_spareUsed
    | with_reducible apply inState_nvmPush
    | with_reducible refine Device.inState_pset _ _ ?_ ?_
    | with_reducible exact Fld.free_at _ (by decide)
    | (with_reducible show Fld.Free _; decide)
    | with_reducible apply Device.inState_ite
    | intro _
    | split
    | dsimp only

theorem inState_localPfTrip (d : ℕ) {s : Device} (hs : s.InState pk) :
    (localPfTrip d s).InState pk := by
  unfold localPfTrip
  repeat' first
    | with_reducible assumption
    | with_reducible apply inState_stopChannel
    | with_reducible apply inState_requestRun
    | with_reducible apply inState_leaseWait
    | with_reducible apply inState_logEvent
    | with_reducible apply Device.inState_ite
    | with_reducible apply Device.inState_each
    | intro _
    | split
    | dsimp only

theorem inState_shipEnter (data : Sys2Proof.Word) {s : Device} (hs : s.InState pk) :
    (shipEnter data s).InState pk := by
  unfold shipEnter
  repeat' first
    | with_reducible assumption
    | with_reducible apply Device.inState_modGlean
    | with_reducible apply Device.inState_modSup
    | with_reducible apply inState_ckptRequest
    | with_reducible apply inState_retCommit
    | with_reducible refine Device.inState_pset _ _ ?_ ?_
    | with_reducible exact Fld.free_at _ (by decide)
    | (with_reducible show Fld.Free _; decide)
    | with_reducible apply Device.inState_ite
    | with_reducible apply Device.inState_each
    | intro _
    | split
    | dsimp only

theorem inState_shipVbusWake {s : Device} (hs : s.InState pk) :
    (shipVbusWake s).InState pk := by
  unfold shipVbusWake
  repeat' first
    | with_reducible assumption
    | with_reducible apply inState_shipExit
    | with_reducible apply Device.inState_ite
    | intro _
    | split
    | dsimp only

/-! Recovery. -/

theorem inState_leadStallBalls {s : Device} (hs : s.InState pk) :
    (leadStallBalls s).InState pk := by
  unfold leadStallBalls
  repeat' first
    | with_reducible assumption
    | with_reducible apply inState_railOff
    | with_reducible apply Device.inState_modPins
    | with_reducible apply inState_nvmStop
    | with_reducible apply inState_plsCut
    | with_reducible apply Device.inState_ite
    | with_reducible apply Device.inState_foldl
    | intro _
    | split
    | dsimp only

theorem inState_dieStall (d : ℕ) {s : Device} (hs : s.InState pk) :
    (dieStall d s).InState pk := by
  unfold dieStall
  repeat' first
    | with_reducible assumption
    | with_reducible apply Device.inState_dinc
    | with_reducible apply Device.inState_dset
    | with_reducible apply inState_valvesHusk
    | with_reducible apply inState_gatesOff
    | with_reducible apply inState_leadStallBalls
    | with_reducible apply inState_publishDies
    | with_reducible apply Device.inState_modDie
    | with_reducible apply Device.inState_ite
    | with_reducible apply Device.inState_each
    | intro _
    | split
    | dsimp only

theorem inState_dropPosts (d : ℕ) {s : Device} (hs : s.InState pk) :
    (dropPosts d s).InState pk := by
  unfold dropPosts
  repeat' first
    | with_reducible assumption
    | with_reducible apply Device.inState_modHost
    | with_reducible refine Device.inState_pset _ _ ?_ ?_
    | with_reducible exact Fld.free_at _ (by decide)
    | (with_reducible show Fld.Free _; decide)
    | with_reducible apply Device.inState_ite
    | intro _
    | split
    | dsimp only

theorem inState_recoveryDone (d : ℕ) {s : Device} (hs : s.InState pk) :
    (recoveryDone d s).InState pk := by
  unfold recoveryDone
  repeat' first
    | with_reducible assumption
    | with_reducible apply Device.inState_modDie
    | with_reducible apply inState_publishDies
    | with_reducible apply inState_logEvent
    | with_reducible apply inState_resumeDie
    | with_reducible apply inState_resumeCounts
    | with_reducible apply inState_huskIdle
    | with_reducible refine Device.inState_psetBit _ _ _ ?_ ?_
    | with_reducible exact Fld.free_at _ (by decide)
    | (with_reducible show Fld.Free _; decide)
    | with_reducible apply Device.inState_ite
    | with_reducible apply Device.inState_each
    | intro _
    | split
    | dsimp only

theorem inState_cacheLoad (d : ℕ) {s : Device} (h : s.InState pk) : (cacheLoad d s).InState pk := by
  unfold cacheLoad
  dsimp only
  exact inState_dieSettled _ (Device.inState_foldl _ (Device.inState_modDie _ _ h) fun c t h => inState_applyEntries _ _ h)

theorem inState_dieReturns (d : ℕ) {s : Device} (hs : s.InState pk) :
    (dieReturns d s).InState pk := by
  unfold dieReturns
  repeat' first
    | with_reducible assumption
    | with_reducible apply inState_shadowRebuild
    | with_reducible apply inState_restoreDie
    | with_reducible apply inState_cacheLoad
    | with_reducible apply inState_dieDecide
    | intro _
    | split
    | dsimp only

theorem inState_dropReads (d : ℕ) {s : Device} (hs : s.InState pk) :
    (dropReads d s).InState pk := by
  unfold dropReads
  repeat' first
    | with_reducible assumption
    | with_reducible apply Device.inState_setBulk
    | intro _
    | split
    | dsimp only

theorem inState_takeBack (d : ℕ) {s : Device} (hs : s.InState pk) :
    (takeBack d s).InState pk := by
  unfold takeBack
  repeat' first
    | with_reducible assumption
    | with_reducible apply Device.inState_modLease
    | with_reducible apply inState_nvmBatonLost
    | with_reducible apply inState_logEvent
    | with_reducible apply inState_valveBatons
    | with_reducible apply Device.inState_setBanks
    | with_reducible apply Device.inState_setGrants
    | with_reducible refine inState_setMap _ _ _ _ (by decide) (by decide) ?_
    | with_reducible refine Device.inState_pset _ _ ?_ ?_
    | with_reducible exact Fld.free_at _ (by decide)
    | (with_reducible show Fld.Free _; decide)
    | with_reducible apply Device.inState_ite
    | with_reducible apply Device.inState_foldl
    | with_reducible apply Device.inState_each
    | intro _
    | split
    | dsimp only

theorem inState_benchOut (d : ℕ) {s : Device} (hs : s.InState pk) :
    (benchOut d s).InState pk := by
  unfold benchOut
  repeat' first
    | with_reducible assumption
    | with_reducible apply inState_dropReads
    | with_reducible apply inState_dropPosts
    | with_reducible apply inState_valvesHusk
    | with_reducible apply inState_mainStop
    | with_reducible apply inState_takeBack
    | with_reducible apply Device.inState_modDie
    | with_reducible apply Device.inState_modRecov
    | with_reducible apply inState_publishDies
    | with_reducible apply inState_logEvent
    | with_reducible refine Device.inState_pset _ _ ?_ ?_
    | with_reducible refine Device.inState_psetBit _ _ _ ?_ ?_
    | with_reducible exact Fld.free_at _ (by decide)
    | (with_reducible show Fld.Free _; decide)
    | intro _
    | split
    | dsimp only

theorem inState_attemptFails (d : ℕ) {s : Device} (hs : s.InState pk) :
    (attemptFails d s).InState pk := by
  unfold attemptFails
  repeat' first
    | with_reducible assumption
    | with_reducible apply Device.inState_dinc
    | with_reducible apply inState_benchOut
    | with_reducible apply Device.inState_ite
    | intro _
    | split
    | dsimp only

theorem inState_leadPause (d : ℕ) {s : Device} (hs : s.InState pk) :
    (leadPause d s).InState pk := by
  unfold leadPause
  repeat' first
    | with_reducible assumption
    | with_reducible apply inState_setMode
    | with_reducible apply Device.inState_modLp
    | with_reducible apply Device.inState_modDue
    | with_reducible apply Device.inState_ite
    | with_reducible apply Device.inState_each
    | intro _
    | split
    | dsimp only

theorem inState_recoverDie (d cause : ℕ) {s : Device} (h : s.InState pk) : (recoverDie d cause s).InState pk := by
  unfold recoverDie
  dsimp only
  refine inState_publishDies (Device.inState_modDie _ _ (inState_mainStop _ _ (Device.inState_psetBit _ _ _ (by decide) ?_)))
  refine Device.inState_pset _ _ (by decide) (Device.inState_pset _ _ (by decide) (Device.inState_pset _ _ (by decide) ?_))
  exact inState_logEvent _ _ _ _ _ (Device.inState_dinc _ _ (inState_dropReads _ (inState_takeBack _ h)))

theorem inState_recoveryStart (d cause : ℕ) {s : Device} (h : s.InState pk) : (recoveryStart d cause s).InState pk := by
  unfold recoveryStart
  split
  · exact h
  · dsimp only
    have h1 : ∀ b : Bool, (if b then attemptFails d s else s).InState pk := fun b =>
      Device.inState_ite (fun _ => inState_attemptFails _ h) fun _ => h
    exact Device.inState_ite (fun _ => h1 _) fun _ => inState_recoverDie _ _ (h1 _)

theorem inState_portSilentUp (d : ℕ) {s : Device} (hs : s.InState pk) :
    (portSilentUp d s).InState pk := by
  unfold portSilentUp
  repeat' first
    | with_reducible assumption
    | with_reducible apply inState_bankRow
    | with_reducible apply Device.inState_modLink
    | with_reducible apply Device.inState_ite
    | intro _
    | split
    | dsimp only

theorem inState_portSilentDown (d : ℕ) {s : Device} (hs : s.InState pk) :
    (portSilentDown d s).InState pk := by
  unfold portSilentDown
  repeat' first
    | with_reducible assumption
    | with_reducible apply inState_recoveryStart
    | with_reducible apply inState_logEvent
    | with_reducible apply Device.inState_modLink
    | with_reducible refine Device.inState_psetBit _ _ _ ?_ ?_
    | with_reducible exact Fld.free_at _ (by decide)
    | (with_reducible show Fld.Free _; decide)
    | with_reducible apply Device.inState_ite
    | intro _
    | split
    | dsimp only

theorem inState_leadHold (d : ℕ) {s : Device} (hs : s.InState pk) :
    (leadHold d s).InState pk := by
  unfold leadHold
  repeat' first
    | with_reducible assumption
    | with_reducible apply Device.inState_modLink
    | with_reducible apply inState_leadPause
    | with_reducible apply Device.inState_ite
    | intro _
    | split
    | dsimp only

theorem inState_rearm (old : ℕ) (new : ℕ) (g : ℕ) {s : Device} (hs : s.InState pk) :
    (rearm old new g s).InState pk := by
  unfold rearm
  repeat' first
    | with_reducible assumption
    | with_reducible apply Device.inState_modEng
    | intro _
    | split
    | dsimp only

theorem inState_leadReturn (old : ℕ) (d : ℕ) {s : Device} (hs : s.InState pk) :
    (leadReturn old d s).InState pk := by
  unfold leadReturn
  repeat' first
    | with_reducible assumption
    | with_reducible apply inState_acirAbort
    | with_reducible apply inState_rearm
    | with_reducible apply inState_leadPause
    | with_reducible apply inState_logEvent
    | with_reducible apply inState_bankRow
    | with_reducible apply Device.inState_modLink
    | with_reducible refine Device.inState_pinc _ ?_ ?_
    | with_reducible exact Fld.free_at _ (by decide)
    | (with_reducible show Fld.Free _; decide)
    | with_reducible apply Device.inState_ite
    | with_reducible apply Device.inState_each
    | intro _
    | split
    | dsimp only

theorem inState_recoveryTimeout (d : ℕ) {s : Device} (hs : s.InState pk) :
    (recoveryTimeout d s).InState pk := by
  unfold recoveryTimeout
  repeat' first
    | with_reducible assumption
    | with_reducible apply inState_attemptFails
    | with_reducible apply Device.inState_modRecov
    | with_reducible apply inState_mainStop
    | with_reducible apply Device.inState_ite
    | intro _
    | split
    | dsimp only

theorem inState_recoveryStable (d : ℕ) {s : Device} (hs : s.InState pk) :
    (recoveryStable d s).InState pk := by
  unfold recoveryStable
  repeat' first
    | with_reducible assumption
    | with_reducible apply Device.inState_modRecov
    | with_reducible apply Device.inState_dset
    | with_reducible apply Device.inState_ite
    | intro _
    | split
    | dsimp only

/-! Bulk. -/

theorem inState_setWords {f : ℕ → Word → Device → Device} (hf : ∀ a w t, t.InState pk → (f a w t).InState pk) (a : ℕ)
    (l : List Word) {s : Device} (h : s.InState pk) : (setWords f a l s).InState pk := by
  induction l generalizing a s with
  | nil => exact h
  | cons w l ih => exact ih _ (hf _ _ _ h)

theorem inState_slotWords (d c i : ℕ) {f : ℕ → Word → Device → Device}
    (hf : ∀ a w t, a ≠ 2 → t.InState pk → (f a w t).InState pk) (l : List Word) {s : Device} (h : s.InState pk) :
    (setWords f (slotAddr16 d c i) l s).InState pk := by
  have hg : ∀ (a : ℕ), 2 < a → ∀ {s : Device}, s.InState pk → (setWords f a l s).InState pk := by
    induction l with
    | nil => exact fun a _ s h => h
    | cons w l ih => exact fun a ha s h => ih (a + 1) (by omega) (hf _ _ _ (by omega) h)
  exact hg _ (by unfold slotAddr16 dieAddr; omega) h

theorem inState_snapDone {s : Device} (hs : s.InState pk) :
    (snapDone s).InState pk := by
  unfold snapDone
  repeat' first
    | with_reducible assumption
    | with_reducible refine Device.inState_pset _ _ ?_ ?_
    | with_reducible exact Fld.free_at _ (by decide)
    | (with_reducible show Fld.Free _; decide)
    | with_reducible apply Device.inState_ite
    | intro _
    | split
    | dsimp only

theorem inState_snapCommit (d : ℕ) {s : Device} (hs : s.InState pk) :
    (snapCommit d s).InState pk := by
  unfold snapCommit
  repeat' first
    | with_reducible assumption
    | with_reducible apply inState_snapDone
    | with_reducible apply Device.inState_ite
    | with_reducible apply Device.inState_mk
    | with_reducible apply Device.InState.word
    | intro _
    | split
    | dsimp only

theorem inState_snapInvalid (d : ℕ) {s : Device} (h : s.InState pk) : (snapInvalid d s).InState pk := by
  unfold snapInvalid
  dsimp only
  refine inState_snapCommit _ (Device.inState_pset _ _ (by decide) ?_)
  refine Device.inState_each _ h fun c t h => ?_
  refine inState_slotWords _ _ _ (fun a w t ha h => ?_) _ h
  split
  · exact Device.inState_setReg _ _ ha h
  · exact h

theorem inState_snapNow (bySched : Bool) {s : Device} (hs : s.InState pk) :
    (snapNow bySched s).InState pk := by
  unfold snapNow
  repeat' first
    | with_reducible assumption
    | with_reducible apply inState_snapInvalid
    | with_reducible refine Device.inState_pset _ _ ?_ ?_
    | with_reducible exact Fld.free_at _ (by decide)
    | (with_reducible show Fld.Free _; decide)
    | with_reducible apply Device.inState_ite
    | with_reducible apply Device.inState_each
    | with_reducible apply Device.inState_mk
    | with_reducible apply Device.InState.word
    | intro _
    | split
    | dsimp only

theorem inState_snapLatch (d frame : ℕ) {s : Device} (h : s.InState pk) : (snapLatch d frame s).InState pk := by
  unfold snapLatch
  split
  · exact Device.inState_each _ h fun c t h => inState_slotWords _ _ _ (fun _ _ _ ha h => Device.inState_setReg _ _ ha h) _ h
  · exact h

theorem inState_bcastAct (b : Bcast) (d : ℕ) {s : Device} (hs : s.InState pk) :
    (bcastAct b d s).InState pk := by
  unfold bcastAct
  repeat' first
    | with_reducible assumption
    | with_reducible apply Device.inState_modDie
    | with_reducible apply inState_leadReturn
    | with_reducible apply inState_snapCommit
    | with_reducible apply inState_snapLatch
    | with_reducible apply inState_stopChannel
    | with_reducible apply Device.inState_ite
    | with_reducible apply Device.inState_each
    | intro _
    | split
    | dsimp only

theorem inState_bcastFirst (d : ℕ) {s : Device} (hs : s.InState pk) :
    (bcastFirst d s).InState pk := by
  unfold bcastFirst
  repeat' first
    | with_reducible assumption
    | with_reducible apply inState_bcastAct
    | with_reducible apply Device.inState_setBcast
    | with_reducible apply Device.inState_ite
    | with_reducible apply Device.inState_foldl
    | intro _
    | split
    | dsimp only

theorem inState_bulkSpent {s : Device} (hs : s.InState pk) :
    (bulkSpent s).InState pk := by
  unfold bulkSpent
  repeat' first
    | with_reducible assumption
    | with_reducible apply Device.inState_spend
    | intro _
    | split
    | dsimp only

theorem inState_bcastExecute (k : Sys2Proof.BcastKind) {s : Device} (hs : s.InState pk) :
    (bcastExecute k s).InState pk := by
  unfold bcastExecute
  repeat' first
    | with_reducible assumption
    | with_reducible apply inState_bcastAct
    | with_reducible apply Device.inState_setBcast
    | with_reducible apply Device.inState_foldl
    | with_reducible apply Device.inState_each
    | intro _
    | split
    | dsimp only

theorem inState_snapDisarm {s : Device} (hs : s.InState pk) :
    (snapDisarm s).InState pk := by
  unfold snapDisarm
  repeat' first
    | with_reducible assumption
    | with_reducible refine Device.inState_pset _ _ ?_ ?_
    | with_reducible exact Fld.free_at _ (by decide)
    | (with_reducible show Fld.Free _; decide)
    | with_reducible apply Device.inState_ite
    | with_reducible apply Device.inState_mk
    | with_reducible apply Device.InState.word
    | intro _
    | split
    | dsimp only

theorem inState_bufWrite (a : ℕ) (w : Sys2Proof.Word) {s : Device} (hs : s.InState pk) :
    (bufWrite a w s).InState pk := by
  unfold bufWrite
  repeat' first
    | with_reducible assumption
    | with_reducible apply Device.inState_modNvm
    | with_reducible apply Device.inState_ite
    | with_reducible apply Device.inState_foldl
    | intro _
    | split
    | dsimp only

theorem inState_snapTake {s : Device} (hs : s.InState pk) :
    (snapTake s).InState pk := by
  unfold snapTake
  repeat' first
    | with_reducible assumption
    | with_reducible apply Device.inState_ite
    | with_reducible apply Device.inState_mk
    | with_reducible apply Device.InState.word
    | intro _
    | split
    | dsimp only

theorem inState_snapArm {s : Device} (hs : s.InState pk) :
    (snapArm s).InState pk := by
  unfold snapArm
  repeat' first
    | with_reducible assumption
    | with_reducible refine Device.inState_pset _ _ ?_ ?_
    | with_reducible exact Fld.free_at _ (by decide)
    | (with_reducible show Fld.Free _; decide)
    | with_reducible apply Device.inState_ite
    | with_reducible apply Device.inState_mk
    | with_reducible apply Device.InState.word
    | intro _
    | split
    | dsimp only

theorem inState_snapScheduled {s : Device} (hs : s.InState pk) :
    (snapScheduled s).InState pk := by
  unfold snapScheduled
  repeat' first
    | with_reducible assumption
    | with_reducible apply inState_snapNow
    | with_reducible apply Device.inState_modSnap
    | with_reducible refine Device.inState_pset _ _ ?_ ?_
    | with_reducible exact Fld.free_at _ (by decide)
    | (with_reducible show Fld.Free _; decide)
    | with_reducible apply Device.inState_ite
    | intro _
    | split
    | dsimp only

/-! Writes. -/

theorem inState_chCtlWrite (g : ℕ) (w : Sys2Proof.Word) {s : Device} (hs : s.InState pk) :
    (chCtlWrite g w s).InState pk := by
  unfold chCtlWrite
  repeat' first
    | with_reducible assumption
    | with_reducible apply inState_overrideChange
    | with_reducible apply inState_protTrip
    | with_reducible apply Device.inState_ite
    | intro _
    | split
    | dsimp only

theorem inState_plsWrite (n : ℕ) (k : ℕ) (w : Sys2Proof.Word) {s : Device} (hs : s.InState pk) :
    (plsWrite n k w s).InState pk := by
  unfold plsWrite
  repeat' first
    | with_reducible assumption
    | with_reducible apply inState_plsCfgWrite
    | with_reducible apply inState_plsClr
    | intro _
    | split
    | dsimp only

theorem inState_clrPeak (w : Sys2Proof.Word) {s : Device} (hs : s.InState pk) :
    (clrPeak w s).InState pk := by
  unfold clrPeak
  repeat' first
    | with_reducible assumption
    | with_reducible refine Device.inState_pset _ _ ?_ ?_
    | with_reducible exact Fld.free_at _ (by decide)
    | (with_reducible show Fld.Free _; decide)
    | with_reducible apply Device.inState_ite
    | intro _
    | split
    | dsimp only

theorem inState_afterAdvance {s : Device} (hs : s.InState pk) :
    (afterAdvance s).InState pk := by
  unfold afterAdvance
  repeat' first
    | with_reducible assumption
    | with_reducible apply inState_ledgerWrite
    | with_reducible apply Device.inState_setDropped
    | with_reducible refine Device.inState_pset _ _ ?_ ?_
    | with_reducible exact Fld.free_at _ (by decide)
    | (with_reducible show Fld.Free _; decide)
    | with_reducible apply Device.inState_ite
    | intro _
    | split
    | dsimp only

theorem inState_ledgerReread {s : Device} (hs : s.InState pk) :
    (ledgerReread s).InState pk := by
  unfold ledgerReread
  repeat' first
    | with_reducible assumption
    | with_reducible refine Device.inState_pset _ _ ?_ ?_
    | with_reducible exact Fld.free_at _ (by decide)
    | (with_reducible show Fld.Free _; decide)
    | with_reducible apply Device.inState_ite
    | intro _
    | split
    | dsimp only

theorem inState_ledgerFlush {s : Device} (hs : s.InState pk) :
    (ledgerFlush s).InState pk := by
  unfold ledgerFlush
  repeat' first
    | with_reducible assumption
    | with_reducible refine Device.inState_pset _ _ ?_ ?_
    | with_reducible exact Fld.free_at _ (by decide)
    | (with_reducible show Fld.Free _; decide)
    | intro _
    | split
    | dsimp only

theorem inState_ledgerClrOvf {s : Device} (hs : s.InState pk) :
    (ledgerClrOvf s).InState pk := by
  unfold ledgerClrOvf
  repeat' first
    | with_reducible assumption
    | with_reducible refine Device.inState_pset _ _ ?_ ?_
    | with_reducible exact Fld.free_at _ (by decide)
    | (with_reducible show Fld.Free _; decide)
    | intro _
    | split
    | dsimp only

theorem inState_ledgerCtl (w : Sys2Proof.Word) {s : Device} (hs : s.InState pk) :
    (ledgerCtl w s).InState pk := by
  unfold ledgerCtl
  repeat' first
    | with_reducible assumption
    | with_reducible apply inState_ledgerReread
    | with_reducible apply inState_ledgerFlush
    | with_reducible apply inState_ledgerClrOvf
    | with_reducible apply Device.inState_ite
    | intro _
    | split
    | dsimp only

theorem rwMask_two {a : ℕ} (e : a = 2) : rwMask a = 0 := by subst e; decide

theorem w1cMask_two : w1cMask 2 = 0 := by decide

theorem inState_storeWord (a : ℕ) (w : Word) {s : Device} (h : s.InState pk) : (storeWord a w s).InState pk := by
  unfold storeWord
  split
  · exact h
  · exact inState_storeFields _ _ _ rwMask_two h

theorem inState_benchCtlWrite (d : ℕ) (w : Sys2Proof.Word) {s : Device} (hs : s.InState pk) :
    (benchCtlWrite d w s).InState pk := by
  unfold benchCtlWrite
  repeat' first
    | with_reducible assumption
    | with_reducible apply inState_storeWord
    | with_reducible apply inState_benchForce
    | with_reducible apply inState_benchQueue
    | with_reducible apply Device.inState_ite
    | intro _
    | split
    | dsimp only

theorem inState_valveReqWrite (v : ℕ) (w : Sys2Proof.Word) {s : Device} (hs : s.InState pk) :
    (valveReqWrite v w s).InState pk := by
  unfold valveReqWrite
  repeat' first
    | with_reducible assumption
    | with_reducible apply inState_valveReq
    | with_reducible apply Device.inState_ite
    | intro _
    | split
    | dsimp only

theorem inState_snapCtlWrite (w : Sys2Proof.Word) {s : Device} (hs : s.InState pk) :
    (snapCtlWrite w s).InState pk := by
  unfold snapCtlWrite
  repeat' first
    | with_reducible assumption
    | with_reducible apply inState_snapTake
    | with_reducible apply inState_snapDisarm
    | with_reducible apply inState_snapArm
    | with_reducible refine Device.inState_pset _ _ ?_ ?_
    | with_reducible exact Fld.free_at _ (by decide)
    | (with_reducible show Fld.Free _; decide)
    | with_reducible apply Device.inState_ite
    | intro _
    | split
    | dsimp only

theorem inState_frameEndWord (a : ℕ) (w : Sys2Proof.Word) {s : Device} (hs : s.InState pk) :
    (frameEndWord a w s).InState pk := by
  unfold frameEndWord
  repeat' first
    | with_reducible assumption
    | with_reducible apply inState_hostSoftReset
    | with_reducible apply inState_ledgerCtl
    | with_reducible apply Device.inState_ite
    | intro _
    | split
    | dsimp only

theorem inState_testReq {s : Device} (hs : s.InState pk) :
    (testReq s).InState pk := by
  unfold testReq
  repeat' first
    | with_reducible assumption
    | with_reducible apply Device.inState_modHost
    | with_reducible refine Device.inState_pset _ _ ?_ ?_
    | with_reducible exact Fld.free_at _ (by decide)
    | (with_reducible show Fld.Free _; decide)
    | with_reducible apply Device.inState_ite
    | intro _
    | split
    | dsimp only

theorem inState_testEnd {s : Device} (hs : s.InState pk) :
    (testEnd s).InState pk := by
  unfold testEnd
  repeat' first
    | with_reducible assumption
    | with_reducible apply Device.inState_modHost
    | with_reducible refine Device.inState_pset _ _ ?_ ?_
    | with_reducible exact Fld.free_at _ (by decide)
    | (with_reducible show Fld.Free _; decide)
    | with_reducible apply Device.inState_ite
    | intro _
    | split
    | dsimp only

theorem inState_hostCtlWrite (w : Sys2Proof.Word) {s : Device} (hs : s.InState pk) :
    (hostCtlWrite w s).InState pk := by
  unfold hostCtlWrite
  repeat' first
    | with_reducible assumption
    | with_reducible apply inState_testReq
    | with_reducible apply inState_testEnd
    | with_reducible refine Device.inState_pset _ _ ?_ ?_
    | with_reducible exact Fld.free_at _ (by decide)
    | (with_reducible show Fld.Free _; decide)
    | with_reducible apply Device.inState_ite
    | intro _
    | split
    | dsimp only

theorem inState_runCtlWrite (w : Sys2Proof.Word) {s : Device} (hs : s.InState pk) :
    (runCtlWrite w s).InState pk := by
  unfold runCtlWrite
  repeat' first
    | with_reducible assumption
    | with_reducible apply inState_runAbort
    | with_reducible apply inState_runClose
    | with_reducible apply inState_runOpen
    | with_reducible apply inState_storeWord
    | intro _
    | split
    | dsimp only

theorem inState_otpCmdWrite (w : Sys2Proof.Word) {s : Device} (hs : s.InState pk) :
    (otpCmdWrite w s).InState pk := by
  unfold otpCmdWrite
  repeat' first
    | with_reducible assumption
    | with_reducible apply inState_otpProgram
    | with_reducible apply inState_otpReinforce
    | with_reducible apply inState_otpReadCmd
    | with_reducible apply inState_otpLock
    | with_reducible apply inState_otpReload
    | with_reducible apply Device.inState_ite
    | intro _
    | split
    | dsimp only

theorem inState_pkgEffect (off : ℕ) (w : Sys2Proof.Word) {s : Device} (hs : s.InState pk) :
    (pkgEffect off w s).InState pk := by
  unfold pkgEffect
  repeat' first
    | with_reducible assumption
    | with_reducible apply inState_hostCtlWrite
    | with_reducible apply inState_snapCtlWrite
    | with_reducible apply inState_lineCfgWrite
    | with_reducible apply inState_clrRej
    | with_reducible apply inState_busMonClr
    | with_reducible apply inState_auxCtlWrite
    | with_reducible apply inState_thresholdWrite
    | with_reducible apply inState_shipEnter
    | with_reducible apply inState_vbstCfgWrite
    | with_reducible apply inState_ptCommand
    | with_reducible apply inState_ckptTake
    | with_reducible apply inState_pinCommand
    | with_reducible apply inState_tallyClr
    | with_reducible apply inState_runCtlWrite
    | with_reducible apply inState_otpCmdWrite
    | with_reducible apply inState_releaseAll
    | with_reducible apply inState_clrPeak
    | with_reducible apply inState_plsWrite
    | with_reducible apply inState_storeWord
    | with_reducible refine Device.inState_pset _ _ ?_ ?_
    | with_reducible exact Fld.free_at _ (by decide)
    | (with_reducible show Fld.Free _; decide)
    | with_reducible apply Device.inState_ite
    | intro _
    | split
    | dsimp only

theorem inState_frameErr (b : Bool) {s : Device} (hs : s.InState pk) :
    (frameErr b s).InState pk := by
  unfold frameErr
  repeat' first
    | with_reducible assumption
    | with_reducible refine Device.inState_pset _ _ ?_ ?_
    | with_reducible exact Fld.free_at _ (by decide)
    | (with_reducible show Fld.Free _; decide)
    | with_reducible apply Device.inState_ite
    | intro _
    | split
    | dsimp only

theorem inState_valveReqOf (a : ℕ) (w : Sys2Proof.Word) {s : Device} (hs : s.InState pk) :
    (valveReqOf a w s).InState pk := by
  unfold valveReqOf
  repeat' first
    | with_reducible assumption
    | with_reducible apply inState_valveReqWrite
    | with_reducible apply Device.inState_ite
    | intro _
    | split
    | dsimp only

theorem inState_shadowPost (a : ℕ) (w : Sys2Proof.Word) {s : Device} (hs : s.InState pk) :
    (shadowPost a w s).InState pk := by
  unfold shadowPost
  repeat' first
    | with_reducible assumption
    | with_reducible apply inState_setShd
    | intro _
    | split
    | dsimp only

theorem inState_postWord (a : ℕ) (w : Sys2Proof.Word) {s : Device} (hs : s.InState pk) :
    (postWord a w s).InState pk := by
  unfold postWord
  repeat' first
    | with_reducible assumption
    | with_reducible apply inState_valveReqOf
    | with_reducible apply inState_shadowPost
    | with_reducible apply Device.inState_modHost
    | intro _
    | split
    | dsimp only

theorem inState_noteRef (a : ℕ) (noted : Bool) {s : Device} (hs : s.InState pk) :
    (noteRef a noted s).InState pk := by
  unfold noteRef
  repeat' first
    | with_reducible assumption
    | with_reducible refine Device.inState_pset _ _ ?_ ?_
    | with_reducible exact Fld.free_at _ (by decide)
    | (with_reducible show Fld.Free _; decide)
    | with_reducible apply Device.inState_ite
    | intro _
    | split
    | dsimp only

theorem inState_clearFlags (a : ℕ) (w : Word) {s : Device} (h : s.InState pk) : (clearFlags a w s).InState pk := by
  unfold clearFlags
  dsimp only
  split
  · exact h
  · rename_i hm
    refine Device.inState_setReg_keep _ _ (fun e => ?_) h
    subst e
    exact absurd (by rw [w1cMask_two]; simp) hm

theorem inState_writePkg (off : ℕ) (w : Sys2Proof.Word) {s : Device} (hs : s.InState pk) :
    (writePkg off w s).InState pk := by
  unfold writePkg
  repeat' first
    | with_reducible assumption
    | with_reducible apply Device.inState_setBusW1c
    | with_reducible apply inState_pkgEffect
    | with_reducible apply inState_clearFlags
    | with_reducible apply Device.inState_ite
    | intro _
    | split
    | dsimp only

theorem inState_benchRefWrite (d : ℕ) (w : Sys2Proof.Word) {s : Device} (hs : s.InState pk) :
    (benchRefWrite d w s).InState pk := by
  unfold benchRefWrite
  repeat' first
    | with_reducible assumption
    | with_reducible apply inState_storeWord
    | with_reducible apply Device.inState_modDie
    | with_reducible apply Device.inState_ite
    | intro _
    | split
    | dsimp only

theorem inState_valveWrite (d : ℕ) (k : ℕ) (i : ℕ) (w : Sys2Proof.Word) {s : Device} (hs : s.InState pk) :
    (valveWrite d k i w s).InState pk := by
  unfold valveWrite
  repeat' first
    | with_reducible assumption
    | with_reducible apply inState_valveCfgWrite
    | with_reducible apply inState_valveModeWrite
    | with_reducible apply inState_storeWord
    | intro _
    | split
    | dsimp only

theorem inState_dieEffect (d : ℕ) (off : ℕ) (w : Sys2Proof.Word) {s : Device} (hs : s.InState pk) :
    (dieEffect d off w s).InState pk := by
  unfold dieEffect
  repeat' first
    | with_reducible assumption
    | with_reducible apply inState_benchCtlWrite
    | with_reducible apply inState_benchRefWrite
    | with_reducible apply inState_valveWrite
    | with_reducible apply inState_valveCleared
    | with_reducible apply inState_otpSummary
    | with_reducible apply inState_traceRdWrite
    | with_reducible apply inState_storeWord
    | with_reducible apply Device.inState_ite
    | intro _
    | split
    | dsimp only

theorem inState_writeDie (d : ℕ) (off : ℕ) (w : Sys2Proof.Word) {s : Device} (hs : s.InState pk) :
    (writeDie d off w s).InState pk := by
  unfold writeDie
  repeat' first
    | with_reducible assumption
    | with_reducible apply inState_dieEffect
    | with_reducible apply inState_clearFlags
    | intro _
    | split
    | dsimp only

theorem inState_chSeqWrite (g : ℕ) (w : Sys2Proof.Word) {s : Device} (hs : s.InState pk) :
    (chSeqWrite g w s).InState pk := by
  unfold chSeqWrite
  repeat' first
    | with_reducible assumption
    | with_reducible apply inState_storeWord
    | with_reducible apply inState_seqCmd
    | with_reducible apply Device.inState_ite
    | intro _
    | split
    | dsimp only

theorem inState_chEffect (g : ℕ) (off : ℕ) (w : Sys2Proof.Word) {s : Device} (hs : s.InState pk) :
    (chEffect g off w s).InState pk := by
  unfold chEffect
  repeat' first
    | with_reducible assumption
    | with_reducible apply inState_chCtlWrite
    | with_reducible apply inState_chSeqWrite
    | with_reducible apply inState_setpointWrite
    | with_reducible apply inState_pwmWrite
    | with_reducible apply inState_rangeSelWrite
    | with_reducible apply inState_accClear
    | with_reducible apply inState_calFold
    | with_reducible apply inState_calApply
    | with_reducible apply inState_offsetWrite
    | with_reducible apply inState_tcrCfgWrite
    | with_reducible apply inState_storeWord
    | with_reducible apply inState_calNote
    | with_reducible apply inState_acirCtlWrite
    | with_reducible apply inState_acirClrWrite
    | with_reducible apply inState_constantWrite
    | with_reducible apply inState_baselineWrite
    | with_reducible apply Device.inState_ite
    | intro _
    | split
    | dsimp only

theorem inState_writeCh (g : ℕ) (off : ℕ) (w : Sys2Proof.Word) {s : Device} (hs : s.InState pk) :
    (writeCh g off w s).InState pk := by
  unfold writeCh
  repeat' first
    | with_reducible assumption
    | with_reducible apply inState_faultClear
    | with_reducible apply inState_chEffect
    | with_reducible apply inState_clearFlags
    | with_reducible apply Device.inState_ite
    | intro _
    | split
    | dsimp only

theorem inState_writeWord (a : ℕ) (w : Sys2Proof.Word) {s : Device} (hs : s.InState pk) :
    (writeWord a w s).InState pk := by
  unfold writeWord
  repeat' first
    | with_reducible assumption
    | with_reducible apply inState_writePkg
    | with_reducible apply inState_writeDie
    | with_reducible apply inState_writeCh
    | with_reducible apply inState_bufWrite
    | with_reducible apply Device.inState_ite
    | intro _
    | split
    | dsimp only

theorem inState_deliver (a : ℕ) (w : Sys2Proof.Word) {s : Device} (hs : s.InState pk) :
    (deliver a w s).InState pk := by
  unfold deliver
  repeat' first
    | with_reducible assumption
    | with_reducible apply inState_bcastFirst
    | with_reducible apply inState_writeWord
    | with_reducible refine Device.inState_pset _ _ ?_ ?_
    | with_reducible exact Fld.free_at _ (by decide)
    | (with_reducible show Fld.Free _; decide)
    | with_reducible apply Device.inState_ite
    | intro _
    | split
    | dsimp only

theorem inState_writeOne (a : ℕ) (w : Sys2Proof.Word) {s : Device} (hs : s.InState pk) :
    (writeOne a w s).1.InState pk := by
  unfold writeOne
  repeat' first
    | with_reducible assumption
    | with_reducible apply inState_bufWrite
    | with_reducible apply inState_frameErr
    | with_reducible apply inState_valveReqOf
    | with_reducible apply inState_postWord
    | with_reducible apply inState_noteRef
    | with_reducible apply inState_deliver
    | with_reducible refine Device.inState_pset _ _ ?_ ?_
    | with_reducible exact Fld.free_at _ (by decide)
    | (with_reducible show Fld.Free _; decide)
    | with_reducible apply Device.inState_ite
    | intro _
    | split
    | dsimp only

theorem inState_registerWrite (a : ℕ) (w : Sys2Proof.Word) {s : Device} (hs : s.InState pk) :
    (registerWrite a w s).InState pk := by
  unfold registerWrite
  repeat' first
    | with_reducible assumption
    | with_reducible apply inState_shadowPost
    | with_reducible apply inState_frameEndWord
    | with_reducible apply inState_deliver
    | with_reducible apply inState_valveReqOf
    | (refine Device.inState_fst (by with_reducible assumption) ?_; with_reducible apply inState_writeOne)
    | with_reducible apply inState_writeOne
    | with_reducible apply Device.inState_ite
    | intro _
    | split
    | dsimp only

theorem inState_ledgerAdvance {s : Device} (hs : s.InState pk) :
    (ledgerAdvance s).InState pk := by
  unfold ledgerAdvance
  repeat' first
    | with_reducible assumption
    | with_reducible apply inState_afterAdvance
    | with_reducible refine Device.inState_pset _ _ ?_ ?_
    | with_reducible exact Fld.free_at _ (by decide)
    | (with_reducible show Fld.Free _; decide)
    | with_reducible apply Device.inState_ite
    | intro _
    | split
    | dsimp only

/-! Link. -/

theorem inState_heard (d : ℕ) {s : Device} (hs : s.InState pk) :
    (heard d s).InState pk := by
  unfold heard
  repeat' first
    | with_reducible assumption
    | with_reducible apply Device.inState_modLink
    | with_reducible apply Device.inState_ite
    | intro _
    | split
    | dsimp only

theorem inState_unpost (a : ℕ) (w : Sys2Proof.Word) {s : Device} (hs : s.InState pk) :
    (unpost a w s).InState pk := by
  unfold unpost
  repeat' first
    | with_reducible assumption
    | with_reducible apply Device.inState_modHost
    | intro _
    | split
    | dsimp only

theorem inState_groupTaken (d : ℕ) {s : Device} (hs : s.InState pk) :
    (groupTaken d s).InState pk := by
  unfold groupTaken
  repeat' first
    | with_reducible assumption
    | with_reducible apply inState_groupCell
    | with_reducible apply inState_snapCommit
    | with_reducible apply Device.inState_ite
    | intro _
    | split
    | dsimp only

theorem inState_entryTaken (d : ℕ) (e : LedgerEnt) {s : Device} (hs : s.InState pk) :
    (entryTaken d e s).InState pk := by
  unfold entryTaken
  repeat' first
    | with_reducible assumption
    | with_reducible apply inState_ledgerPut
    | with_reducible apply Device.inState_modDie
    | intro _
    | split
    | dsimp only

theorem inState_dropsTaken (d : ℕ) (n : ℕ) {s : Device} (hs : s.InState pk) :
    (dropsTaken d n s).InState pk := by
  unfold dropsTaken
  repeat' first
    | with_reducible assumption
    | with_reducible apply Device.inState_modDie
    | with_reducible refine Device.inState_pset _ _ ?_ ?_
    | with_reducible exact Fld.free_at _ (by decide)
    | (with_reducible show Fld.Free _; decide)
    | intro _
    | split
    | dsimp only

theorem inState_cellAct (d : ℕ) (c : CellLoad) {s : Device} (hs : s.InState pk) :
    (cellAct d c s).InState pk := by
  unfold cellAct
  repeat' first
    | with_reducible assumption
    | with_reducible apply inState_deliver
    | with_reducible apply inState_unpost
    | with_reducible apply Device.inState_setBulk
    | with_reducible apply inState_shadowTaken
    | with_reducible apply inState_groupTaken
    | with_reducible apply inState_leaseTold
    | with_reducible apply inState_leaseLate
    | with_reducible apply inState_valveSeatReq
    | with_reducible apply inState_entryTaken
    | with_reducible apply inState_dropsTaken
    | with_reducible apply inState_ckptCell
    | with_reducible apply Device.inState_ite
    | intro _
    | split
    | dsimp only

theorem inState_sentUp (d : ℕ) (typ : ℕ) (c : CellLoad) {s : Device} (hs : s.InState pk) :
    (sentUp d typ c s).InState pk := by
  unfold sentUp
  repeat' first
    | with_reducible assumption
    | with_reducible apply inState_cellAct
    | with_reducible apply Device.inState_modLink
    | with_reducible apply Device.inState_ite
    | intro _
    | split
    | dsimp only

theorem inState_cellGroup (d : ℕ) {s : Device} (hs : s.InState pk) :
    (cellGroup d s).InState pk := by
  unfold cellGroup
  repeat' first
    | with_reducible assumption
    | with_reducible apply inState_sentUp
    | with_reducible apply Device.inState_ite
    | intro _
    | split
    | dsimp only

theorem inState_sentDown (d : ℕ) (typ : ℕ) (c : CellLoad) {s : Device} (hs : s.InState pk) :
    (sentDown d typ c s).InState pk := by
  unfold sentDown
  repeat' first
    | with_reducible assumption
    | with_reducible apply Device.inState_modLink
    | with_reducible apply Device.inState_ite
    | intro _
    | split
    | dsimp only

theorem inState_cellTrain (d : ℕ) (index : ℕ) {s : Device} (hs : s.InState pk) :
    (cellTrain d index s).InState pk := by
  unfold cellTrain
  repeat' first
    | with_reducible assumption
    | with_reducible apply Device.inState_modDie
    | with_reducible apply Device.inState_ite
    | with_reducible apply Device.inState_mk
    | with_reducible apply Device.InState.word
    | intro _
    | split
    | dsimp only

theorem inState_cellCkpt (d : ℕ) {s : Device} (hs : s.InState pk) :
    (cellCkpt d s).InState pk := by
  unfold cellCkpt
  repeat' first
    | with_reducible assumption
    | with_reducible apply inState_sentUp
    | with_reducible apply Device.inState_ite
    | intro _
    | split
    | dsimp only

theorem inState_bcastLost (typ : ℕ) (d : ℕ) {s : Device} (hs : s.InState pk) :
    (bcastLost typ d s).InState pk := by
  unfold bcastLost
  repeat' first
    | with_reducible assumption
    | with_reducible apply inState_logEvent
    | with_reducible apply Device.inState_ite
    | intro _
    | split
    | dsimp only

theorem inState_heardUp (d : ℕ) {s : Device} (hs : s.InState pk) :
    (heardUp d s).InState pk := by
  unfold heardUp
  repeat' first
    | with_reducible assumption
    | with_reducible apply Device.inState_modLink
    | intro _
    | split
    | dsimp only

theorem inState_cellIdle (d : ℕ) {s : Device} (hs : s.InState pk) :
    (cellIdle d s).InState pk := by
  unfold cellIdle
  repeat' first
    | with_reducible assumption
    | with_reducible apply inState_heard
    | with_reducible apply inState_heardUp
    | with_reducible apply Device.inState_ite
    | intro _
    | split
    | dsimp only

theorem inState_reseatRequest (g : ℕ) (on : Bool) {s : Device} (hs : s.InState pk) :
    (reseatRequest g on s).InState pk := by
  unfold reseatRequest
  repeat' first
    | with_reducible assumption
    | with_reducible apply inState_sentUp
    | with_reducible apply Device.inState_ite
    | intro _
    | split
    | dsimp only

theorem inState_bothHeard (d : ℕ) {s : Device} (hs : s.InState pk) :
    (bothHeard d s).InState pk := by
  unfold bothHeard
  repeat' first
    | with_reducible assumption
    | with_reducible apply inState_heardUp
    | with_reducible apply inState_heard
    | intro _
    | split
    | dsimp only

theorem inState_indexFault (d : ℕ) {s : Device} (hs : s.InState pk) :
    (indexFault d s).InState pk := by
  unfold indexFault
  repeat' first
    | with_reducible assumption
    | with_reducible apply inState_valvesHusk
    | with_reducible apply inState_gatesOff
    | with_reducible apply Device.inState_modDie
    | with_reducible apply inState_logEvent
    | with_reducible apply Device.inState_ite
    | with_reducible apply Device.inState_each
    | intro _
    | split
    | dsimp only

theorem inState_trainingDone (d : ℕ) {s : Device} (hs : s.InState pk) :
    (trainingDone d s).InState pk := by
  unfold trainingDone
  repeat' first
    | with_reducible assumption
    | with_reducible apply Device.inState_modDie
    | with_reducible apply inState_bothHeard
    | with_reducible apply inState_indexFault
    | with_reducible apply inState_publishDies
    | with_reducible apply inState_dieReturns
    | with_reducible apply inState_shadowRebuild
    | with_reducible apply Device.inState_ite
    | with_reducible apply Device.inState_each
    | intro _
    | split
    | dsimp only

theorem inState_cellRead (d : ℕ) (a : ℕ) {s : Device} (hs : s.InState pk) :
    (cellRead d a s).InState pk := by
  unfold cellRead
  repeat' first
    | with_reducible assumption
    | with_reducible apply inState_sentDown
    | with_reducible apply Device.inState_setBulk
    | with_reducible apply Device.inState_ite
    | intro _
    | split
    | dsimp only

theorem inState_cellResp (d : ℕ) {s : Device} (hs : s.InState pk) :
    (cellResp d s).InState pk := by
  unfold cellResp
  repeat' first
    | with_reducible assumption
    | with_reducible apply inState_sentUp
    | with_reducible apply inState_bulkSpent
    | with_reducible apply Device.inState_ite
    | intro _
    | split
    | dsimp only

theorem inState_cellNak (d : ℕ) (seq : ℕ) (kind : ℕ) {s : Device} (hs : s.InState pk) :
    (cellNak d seq kind s).InState pk := by
  unfold cellNak
  repeat' first
    | with_reducible assumption
    | with_reducible apply inState_bothHeard
    | with_reducible apply inState_recoveryStart
    | with_reducible apply inState_logEvent
    | with_reducible apply Device.inState_modLink
    | with_reducible refine Device.inState_pinc _ ?_ ?_
    | with_reducible exact Fld.free_at _ (by decide)
    | (with_reducible show Fld.Free _; decide)
    | with_reducible apply Device.inState_ite
    | intro _
    | split
    | dsimp only

theorem inState_cellShadow (a : ℕ) {s : Device} (hs : s.InState pk) :
    (cellShadow a s).InState pk := by
  unfold cellShadow
  repeat' first
    | with_reducible assumption
    | with_reducible apply inState_sentUp
    | with_reducible apply Device.inState_ite
    | intro _
    | split
    | dsimp only

theorem inState_cellLease (m : Sys2Proof.LeaseMsg) (late : Bool) {s : Device} (hs : s.InState pk) :
    (cellLease m late s).InState pk := by
  unfold cellLease
  repeat' first
    | with_reducible assumption
    | with_reducible apply inState_sentUp
    | with_reducible apply inState_sentDown
    | with_reducible apply inState_reseatRequest
    | with_reducible apply Device.inState_ite
    | intro _
    | split
    | dsimp only

theorem inState_cellBcast (k : Sys2Proof.BcastKind) (typ : ℕ) (d : ℕ) (f : ℕ) (c : ℕ) (intact : Bool) {s : Device} (hs : s.InState pk) :
    (cellBcast k typ d f c intact s).InState pk := by
  unfold cellBcast
  repeat' first
    | with_reducible assumption
    | with_reducible apply inState_bcastLost
    | with_reducible apply inState_heardUp
    | with_reducible apply Device.inState_setBcast
    | with_reducible apply Device.inState_ite
    | intro _
    | split
    | dsimp only

theorem inState_snapLost (d : ℕ) (frame : ℕ) {s : Device} (hs : s.InState pk) :
    (snapLost d frame s).InState pk := by
  unfold snapLost
  repeat' first
    | with_reducible assumption
    | with_reducible apply inState_bcastLost
    | with_reducible apply inState_snapInvalid
    | with_reducible apply Device.inState_ite
    | intro _
    | split
    | dsimp only

theorem inState_cellWrite (d : ℕ) {s : Device} (hs : s.InState pk) :
    (cellWrite d s).InState pk := by
  unfold cellWrite
  repeat' first
    | with_reducible assumption
    | with_reducible apply inState_unpost
    | with_reducible apply inState_sentDown
    | with_reducible refine Device.inState_pset _ _ ?_ ?_
    | with_reducible exact Fld.free_at _ (by decide)
    | (with_reducible show Fld.Free _; decide)
    | with_reducible apply Device.inState_ite
    | intro _
    | split
    | dsimp only

theorem inState_cellAck (d : ℕ) (seq : ℕ) {s : Device} (hs : s.InState pk) :
    (cellAck d seq s).InState pk := by
  unfold cellAck
  repeat' first
    | with_reducible assumption
    | with_reducible apply inState_cellAct
    | with_reducible apply inState_bothHeard
    | with_reducible apply Device.inState_modLink
    | with_reducible apply Device.inState_ite
    | intro _
    | split
    | dsimp only

theorem inState_cellLedger (d : ℕ) {s : Device} (hs : s.InState pk) :
    (cellLedger d s).InState pk := by
  unfold cellLedger
  repeat' first
    | with_reducible assumption
    | with_reducible apply inState_sentUp
    | with_reducible apply Device.inState_ite
    | intro _
    | split
    | dsimp only

theorem inState_cellSnap (d : ℕ) (frame : ℕ) {s : Device} (hs : s.InState pk) :
    (cellSnap d frame s).InState pk := by
  unfold cellSnap
  repeat' first
    | with_reducible assumption
    | with_reducible apply inState_heardUp
    | with_reducible apply Device.inState_setBcast
    | with_reducible apply Device.inState_ite
    | intro _
    | split
    | dsimp only

/-! Clock. -/

theorem inState_countClock (inp : Sys2Proof.ClockIn) (g : ℕ) {s : Device} (hs : s.InState pk) :
    (countClock inp g s).InState pk := by
  unfold countClock
  repeat' first
    | with_reducible assumption
    | with_reducible apply inState_pulseClock
    | with_reducible apply Device.inState_modAcc
    | intro _
    | split
    | dsimp only

theorem inState_winMark (d : ℕ) {s : Device} (hs : s.InState pk) :
    (winMark d s).InState pk := by
  unfold winMark
  repeat' first
    | with_reducible assumption
    | with_reducible apply Device.inState_modDie
    | with_reducible apply Device.inState_ite
    | intro _
    | split
    | dsimp only

theorem inState_dieClock (d : ℕ) {s : Device} (hs : s.InState pk) :
    (dieClock d s).InState pk := by
  unfold dieClock
  repeat' first
    | with_reducible assumption
    | with_reducible apply Device.inState_modDie
    | with_reducible apply Device.inState_ite
    | intro _
    | split
    | dsimp only

theorem inState_benchClock (inp : Sys2Proof.ClockIn) (last : Bool) (d : ℕ) {s : Device} (hs : s.InState pk) :
    (benchClock inp last d s).InState pk := by
  unfold benchClock
  repeat' first
    | with_reducible assumption
    | with_reducible apply Device.inState_modBench
    | with_reducible apply Device.inState_ite
    | intro _
    | split
    | dsimp only

theorem inState_chanClock (inp : Sys2Proof.ClockIn) (last : Bool) (g : ℕ) {s : Device} (hs : s.InState pk) :
    (chanClock inp last g s).InState pk := by
  unfold chanClock
  repeat' first
    | with_reducible assumption
    | with_reducible apply inState_countClock
    | with_reducible apply Device.inState_modCh
    | with_reducible apply inState_acirNextDue
    | with_reducible apply inState_acirClock
    | with_reducible apply Device.inState_ite
    | intro _
    | split
    | dsimp only

theorem inState_dieStep (inp : Sys2Proof.ClockIn) (last : Bool) (d : ℕ) {s : Device} (hs : s.InState pk) :
    (dieStep inp last d s).InState pk := by
  unfold dieStep
  repeat' first
    | with_reducible assumption
    | with_reducible apply inState_winMark
    | with_reducible apply inState_dieClock
    | with_reducible apply inState_benchClock
    | with_reducible apply inState_chanClock
    | with_reducible apply Device.inState_ite
    | with_reducible apply Device.inState_each
    | intro _
    | split
    | dsimp only

theorem inState_accumulateClock (inp : Sys2Proof.ClockIn) {s : Device} (hs : s.InState pk) :
    (accumulateClock inp s).InState pk := by
  unfold accumulateClock
  repeat' first
    | with_reducible assumption
    | with_reducible apply inState_dieStep
    | with_reducible apply inState_lineClock
    | with_reducible apply Device.inState_noteRegs
    | with_reducible apply Device.inState_setTime
    | with_reducible apply inState_lockClock
    | with_reducible apply Device.inState_ite
    | with_reducible apply Device.inState_each
    | intro _
    | split
    | dsimp only

/-! Boundary. -/

theorem inState_snapBoundary {s : Device} (hs : s.InState pk) :
    (snapBoundary s).InState pk := by
  unfold snapBoundary
  repeat' first
    | with_reducible assumption
    | with_reducible apply Device.inState_modSnap
    | with_reducible apply inState_snapNow
    | with_reducible apply Device.inState_ite
    | intro _
    | split
    | dsimp only

theorem inState_testVisitEnds (d : ℕ) {s : Device} (hs : s.InState pk) :
    (testVisitEnds d s).InState pk := by
  unfold testVisitEnds
  repeat' first
    | with_reducible assumption
    | with_reducible apply inState_endVisit
    | with_reducible apply Device.inState_ite
    | intro _
    | split
    | dsimp only

theorem inState_leadFirst {s : Device} (hs : s.InState pk) :
    (leadFirst s).InState pk := by
  unfold leadFirst
  repeat' first
    | with_reducible assumption
    | with_reducible apply inState_lineBoundary
    | with_reducible apply inState_plsBoundary
    | with_reducible apply inState_plsWait
    | with_reducible apply Device.inState_ite
    | intro _
    | split
    | dsimp only

theorem inState_frameAdvance {s : Device} (hs : s.InState pk) :
    (frameAdvance s).InState pk := by
  unfold frameAdvance
  repeat' first
    | with_reducible assumption
    | with_reducible apply Device.inState_noteRegs
    | with_reducible apply Device.inState_setTime
    | with_reducible apply Device.inState_modDie
    | with_reducible apply Device.inState_ite
    | with_reducible apply Device.inState_each
    | intro _
    | split
    | dsimp only

theorem inState_copyAll (g : ℕ) {s : Device} (hs : s.InState pk) :
    (copyAll g s).InState pk := by
  unfold copyAll
  repeat' first
    | with_reducible assumption
    | with_reducible apply Device.inState_modCh
    | intro _
    | split
    | dsimp only

theorem inState_bookAll {s : Device} (hs : s.InState pk) :
    (bookAll s).InState pk := by
  unfold bookAll
  repeat' first
    | with_reducible assumption
    | with_reducible apply inState_bookFrame
    | with_reducible apply inState_copyAll
    | with_reducible apply Device.inState_each
    | intro _
    | split
    | dsimp only

theorem inState_tcrBoundary (g : ℕ) {s : Device} (hs : s.InState pk) :
    (tcrBoundary g s).InState pk := by
  unfold tcrBoundary
  repeat' first
    | with_reducible assumption
    | with_reducible apply inState_tcrWritten
    | with_reducible apply Device.inState_ite
    | intro _
    | split
    | dsimp only

theorem inState_dieBoundary (d : ℕ) {s : Device} (hs : s.InState pk) :
    (dieBoundary d s).InState pk := by
  unfold dieBoundary
  repeat' first
    | with_reducible assumption
    | with_reducible apply inState_refBoundary
    | with_reducible apply inState_benchBoundary
    | with_reducible apply Device.inState_ite
    | intro _
    | split
    | dsimp only

theorem inState_settingsBoundary (g : ℕ) {s : Device} (hs : s.InState pk) :
    (settingsBoundary g s).InState pk := by
  unfold settingsBoundary
  repeat' first
    | with_reducible assumption
    | with_reducible apply Device.inState_cforce
    | with_reducible apply inState_acirBoundary
    | intro _
    | split
    | dsimp only

theorem inState_rangeBoundary (g : ℕ) {s : Device} (hs : s.InState pk) :
    (rangeBoundary g s).InState pk := by
  unfold rangeBoundary
  repeat' first
    | with_reducible assumption
    | with_reducible apply Device.inState_modDue
    | with_reducible apply inState_benchRange
    | with_reducible apply Device.inState_cset
    | with_reducible apply inState_rangeConsts
    | with_reducible apply inState_rescaleLoop
    | with_reducible apply Device.inState_modAcir
    | with_reducible apply Device.inState_ite
    | intro _
    | split
    | dsimp only

theorem inState_ledgerBoundary {s : Device} (hs : s.InState pk) :
    (ledgerBoundary s).InState pk := by
  unfold ledgerBoundary
  repeat' first
    | with_reducible assumption
    | with_reducible apply inState_setCat
    | with_reducible apply Device.inState_ite
    | intro _
    | split
    | dsimp only

theorem inState_dieLast (d : ℕ) {s : Device} (hs : s.InState pk) :
    (dieLast d s).InState pk := by
  unfold dieLast
  repeat' first
    | with_reducible assumption
    | with_reducible apply inState_sarBoundary
    | with_reducible apply inState_gleanEnables
    | with_reducible apply Device.inState_ite
    | intro _
    | split
    | dsimp only

theorem inState_leadStore {s : Device} (hs : s.InState pk) :
    (leadStore s).InState pk := by
  unfold leadStore
  repeat' first
    | with_reducible assumption
    | with_reducible apply inState_storeBoundary
    | with_reducible apply inState_keepBoundary
    | with_reducible apply inState_chargerBoundary
    | with_reducible apply Device.inState_ite
    | intro _
    | split
    | dsimp only

theorem inState_frameSums (g : ℕ) {s : Device} (hs : s.InState pk) :
    (frameSums g s).InState pk := by
  unfold frameSums
  repeat' first
    | with_reducible assumption
    | with_reducible apply Device.inState_modCh
    | intro _
    | split
    | dsimp only

/-! HostPort. -/

theorem inState_shiftOut (status : ℕ) (words : List Sys2Proof.Word) (bytes : List Sys2Proof.Byte) {s : Device} (hs : s.InState pk) :
    (shiftOut status words bytes s).InState pk := by
  unfold shiftOut
  repeat' first
    | with_reducible assumption
    | with_reducible apply Device.inState_modHost
    | intro _
    | split
    | dsimp only

theorem inState_unanswered {s : Device} (hs : s.InState pk) :
    (unanswered s).InState pk := by
  unfold unanswered
  repeat' first
    | with_reducible assumption
    | with_reducible apply Device.inState_modHost
    | intro _
    | split
    | dsimp only

theorem inState_onFrame (f : Device → Device) {s : Device} (hf : ∀ y0, y0.InState pk → (f y0).InState pk) (hs : s.InState pk) :
    (onFrame f s).InState pk := by
  unfold onFrame
  repeat' first
    | with_reducible assumption
    | with_reducible apply inState_shiftOut
    | with_reducible apply inState_unanswered
    | with_reducible apply hf
    | with_reducible apply Device.inState_ite
    | intro _
    | split
    | dsimp only

theorem inState_hostUnknown (cmd : ℕ) {s : Device} (hs : s.InState pk) :
    (hostUnknown cmd s).InState pk := by
  unfold hostUnknown
  repeat' first
    | with_reducible assumption
    | with_reducible apply inState_onFrame
    | with_reducible apply inState_frameErr
    | intro _
    | split
    | dsimp only

theorem inState_sendWords (cmd : ℕ) (a : ℕ) (first : ℕ) (clocks : ℕ) (f : ℕ → Sys2Proof.Word) {s : Device} (hs : s.InState pk) :
    (sendWords cmd a first clocks f s).InState pk := by
  unfold sendWords
  repeat' first
    | with_reducible assumption
    | with_reducible apply inState_shiftOut
    | with_reducible apply Device.inState_ite
    | intro _
    | split
    | dsimp only

theorem inState_bulkFrame (a : ℕ) (clocks : ℕ) (late : Option ℕ) {s : Device} (hs : s.InState pk) :
    (bulkFrame a clocks late s).InState pk := by
  unfold bulkFrame
  repeat' first
    | with_reducible assumption
    | with_reducible apply inState_sendWords
    | with_reducible apply Device.inState_spend
    | with_reducible apply Device.inState_setBulk
    | with_reducible refine Device.inState_pset _ _ ?_ ?_
    | with_reducible exact Fld.free_at _ (by decide)
    | (with_reducible show Fld.Free _; decide)
    | with_reducible apply Device.inState_ite
    | intro _
    | split
    | dsimp only

theorem inState_ledgerRead (a : ℕ) (first : ℕ) (l : ℕ) (clocks : ℕ) {s : Device} (hs : s.InState pk) :
    (ledgerRead a first l clocks s).InState pk := by
  unfold ledgerRead
  repeat' first
    | with_reducible assumption
    | with_reducible apply inState_ledgerAdvance
    | with_reducible apply Device.inState_ite
    | intro _
    | split
    | dsimp only

theorem inState_readFrame (cmd : ℕ) (a : ℕ) (first : ℕ) (clocks : ℕ) {s : Device} (hs : s.InState pk) :
    (readFrame cmd a first clocks s).InState pk := by
  unfold readFrame
  repeat' first
    | with_reducible assumption
    | with_reducible apply inState_sendWords
    | with_reducible apply inState_frameErr
    | with_reducible apply inState_ledgerRead
    | intro _
    | split
    | dsimp only

theorem inState_hostRdb (a : ℕ) (clocks : ℕ) (late : Option ℕ) {s : Device} (hs : s.InState pk) :
    (hostRdb a clocks late s).InState pk := by
  unfold hostRdb
  repeat' first
    | with_reducible assumption
    | with_reducible apply inState_onFrame
    | with_reducible apply inState_frameErr
    | with_reducible apply inState_readFrame
    | with_reducible apply inState_bulkFrame
    | with_reducible apply Device.inState_ite
    | intro _
    | split
    | dsimp only

theorem inState_hostNop (bytes : ℕ) {s : Device} (hs : s.InState pk) :
    (hostNop bytes s).InState pk := by
  unfold hostNop
  repeat' first
    | with_reducible assumption
    | with_reducible apply inState_onFrame
    | with_reducible apply inState_shiftOut
    | intro _
    | split
    | dsimp only

theorem inState_hostRd (a : ℕ) (clocks : ℕ) {s : Device} (hs : s.InState pk) :
    (hostRd a clocks s).InState pk := by
  unfold hostRd
  repeat' first
    | with_reducible assumption
    | with_reducible apply inState_onFrame
    | with_reducible apply inState_readFrame
    | with_reducible apply Device.inState_ite
    | intro _
    | split
    | dsimp only

end Sys2Proof.Machine
end

