-- ==== Sys2Proof/Laws/Only.lean ====
section
/-! SUPPORT. Device.Only: every operation that a channel's command is made of changes nothing outside its channel but what
OnlyChannel names. -/

set_option linter.unusedTactic false
set_option linter.unreachableTactic false
set_option linter.unusedVariables false

namespace Sys2Proof.Machine

/-- Nothing outside channel g has changed since the device s0. -/
def Device.Only (t s0 : Device) (g : Nat) : Prop := g < 64 ∧ OnlyChannel g s0 t

namespace Device

variable {s0 : Device} {g : Nat}

theorem only_refl (s : Device) (h : g < 64) : s.Only s g :=
  ⟨h, fun _ _ => rfl, fun _ _ _ _ => rfl, fun _ _ _ _ => rfl, fun _ _ _ _ _ => rfl, fun _ _ _ _ => rfl, fun _ _ _ _ => rfl, fun _ _ => rfl,
    ⟨s.die (g / 8), rfl⟩, rfl⟩

theorem only_eq {s t : Device} (h : s.Only s0 g) (hc : t.chans = s.chans) (hd : t.dies = s.dies) (hr : t.regs = s.regs)
    (hf : t.force = s.force) (e : t = { s with irqAt := t.irqAt, ledger := t.ledger, dropped := t.dropped, free := t.free }) : t.Only s0 g := by
  obtain ⟨hg, h⟩ := h
  have c1 : ∀ x, t.ch x = s.ch x := fun x => by unfold Device.ch; rw [hc]
  have d1 : ∀ x, t.die x = s.die x := fun x => by unfold Device.die; rw [hd]
  have r1 : ∀ x, t.reg x = s.reg x := fun x => by unfold Device.reg; rw [hr]
  have f1 : ∀ x, t.frc x = s.frc x := fun x => by unfold Device.frc; rw [hf]
  refine ⟨hg, fun x hx => (c1 x).trans (h.chans x hx), fun x o hx ho => (r1 _).trans (h.words x o hx ho),
    fun x o hx ho => (f1 _).trans (h.force x o hx ho), fun d o a b c => (r1 _).trans (h.dieWords d o a b c),
    fun a ha hb hm => (r1 a).trans (h.pkgWords a ha hb hm),
    fun a ha i hi => by rw [r1 a]; exact h.maps a ha i hi, fun d hd => (d1 d).trans (h.dies d hd), ?_, ?_⟩
  · obtain ⟨x, hx⟩ := h.own
    exact ⟨x, (d1 _).trans hx⟩
  · have hr := h.rest
    rw [e]
    rw [hr]

theorem only_mk {s : Device} {l : List LedgerEnt} {n k : Nat} {dr : List (Nat × LedgerEnt)} (h : s.Only s0 g) :
    ({ s with irqAt := k, ledger := l, dropped := dr, free := n } : Device).Only s0 g := only_eq h rfl rfl rfl rfl rfl

theorem only_ite {c : Prop} [Decidable c] {a b : Device} (ha : c → a.Only s0 g) (hb : ¬c → b.Only s0 g) :
    (if c then a else b).Only s0 g := by
  split
  · exact ha ‹_›
  · exact hb ‹_›

theorem only_foldl {α : Type} {f : Device → α → Device} (xs : List α) {s : Device} (h : s.Only s0 g)
    (hg : ∀ x ∈ xs, ∀ t, t.Only s0 g → (f t x).Only s0 g) : (xs.foldl f s).Only s0 g := by
  induction xs generalizing s with
  | nil => exact h
  | cons x l ih => exact ih (hg x (by simp) _ h) fun y hy => hg y (List.mem_cons_of_mem _ hy)

theorem only_setReg (a : Nat) (w : Word) {s : Device} (h : s.Only s0 g) (hc : ∀ x off, x ≠ g → off < 128 → chAddr x off ≠ a)
    (hd : ∀ d off, d < 8 → d ≠ g / 8 → off < 512 → dieAddr d off ≠ a) (hp : a < 0x2000 → a ∈ leadWords) :
    (s.setReg a w).Only s0 g := by
  obtain ⟨hg, h⟩ := h
  refine ⟨hg, h.chans, fun x o hx ho => (reg_setReg_ne _ (hc x o hx ho) _).trans (h.words x o hx ho), h.force,
    fun d o a b c => (reg_setReg_ne _ (hd d o a b c) _).trans (h.dieWords d o a b c),
    fun b hb he hm => (reg_setReg_ne _ (fun e => he (by subst e; exact hp hb)) _).trans (h.pkgWords b hb he hm),
    fun b hb i hi => ?_, h.dies, h.own, ?_⟩
  · rw [reg_setReg_ne _ (fun e => ?_)]
    · exact h.maps b hb i hi
    · subst e
      have hm := hp (by simp only [mapWords, List.mem_cons, List.not_mem_nil, or_false] at hb; omega)
      simp only [mapWords, leadWords, List.mem_cons, List.not_mem_nil, or_false] at hb hm
      omega
  have hr := h.rest
  unfold setReg
  rw [hr]

theorem only_chReg (off : Nat) (w : Word) {s : Device} (ho : off < 128) (h : s.Only s0 g) : (s.setReg (chAddr g off) w).Only s0 g := by
  refine only_setReg _ _ h (fun x o hx ho' => ?_) (fun d o hd _ ho' => ?_) fun hp => ?_
  · unfold chAddr; omega
  · unfold chAddr dieAddr; omega
  · unfold chAddr at hp; omega

theorem only_dieReg (d off : Nat) (w : Word) {s : Device} (hd : d = g / 8) (ho : off < 512) (h : s.Only s0 g) :
    (s.setReg (dieAddr d off) w).Only s0 g := by
  subst hd
  have hg := h.1
  refine only_setReg _ _ h (fun x o hx ho' => ?_) (fun d o _ hd ho' => ?_) fun hp => ?_
  · unfold chAddr dieAddr; omega
  · unfold dieAddr; omega
  · unfold dieAddr at hp; omega

theorem only_pkgReg (a : Nat) (w : Word) {s : Device} (ha : a ∈ leadWords) (h : s.Only s0 g) : (s.setReg a w).Only s0 g := by
  have ha' : a < 0x2000 := by
    simp only [leadWords, List.mem_cons, List.not_mem_nil, or_false] at ha
    omega
  refine only_setReg _ _ h (fun x o hx ho' => ?_) (fun d o _ hd ho' => ?_) fun _ => ha
  · unfold chAddr; omega
  · unfold dieAddr; omega

theorem only_cset (f : Fld .ch) (v : Nat) {s : Device} (hf : f.off < 128) (h : s.Only s0 g) : (s.cset g f v).Only s0 g :=
  only_chReg _ _ hf h
theorem only_dset (d : Nat) (f : Fld .die) (v : Nat) {s : Device} (hd : d = g / 8) (hf : f.off < 512) (h : s.Only s0 g) :
    (s.dset d f v).Only s0 g := only_dieReg _ _ _ hd hf h
theorem only_dinc (d : Nat) (f : Fld .die) {s : Device} (hd : d = g / 8) (hf : f.off < 512) (h : s.Only s0 g) :
    (s.dinc d f).Only s0 g := only_dieReg _ _ _ hd hf h
theorem only_pset (f : Fld .pkg) (v : Nat) {s : Device} (hf : f.off ∈ leadWords) (h : s.Only s0 g) : (s.pset f v).Only s0 g :=
  only_pkgReg _ _ hf h
theorem only_pinc (f : Fld .pkg) {s : Device} (hf : f.off ∈ leadWords) (h : s.Only s0 g) : (s.pinc f).Only s0 g :=
  only_pkgReg _ _ hf h

theorem only_setFrc (off : Nat) (w : Word) {s : Device} (h : s.Only s0 g) (ho : off < 128) : (s.setFrc (chAddr g off) w).Only s0 g := by
  obtain ⟨hg, h⟩ := h
  refine ⟨hg, h.chans, h.words, fun x o hx ho' => ?_, h.dieWords, h.pkgWords, h.maps, h.dies, h.own, ?_⟩
  · refine Eq.trans ?_ (h.force x o hx ho')
    show rfGet (rfSet s.force _ _) _ = rfGet s.force _
    have e : chAddr x o ≠ chAddr g off := by unfold chAddr; omega
    exact rfGet_set_other e _ _
  · have hr := h.rest
    unfold setFrc
    rw [hr]

theorem only_modCh (f : Chan → Chan) {s : Device} (h : s.Only s0 g) : (s.modCh g f).Only s0 g := by
  obtain ⟨hg, h⟩ := h
  refine ⟨hg, fun x hx => (ch_modCh_ne _ hx _).trans (h.chans x hx), h.words, h.force, h.dieWords, h.pkgWords, h.maps, h.dies, h.own, ?_⟩
  have hr := h.rest
  unfold modCh
  rw [hr]

theorem only_modDie (d : Nat) (f : DieSt → DieSt) {s : Device} (hd : d = g / 8)
    (hf : ∀ x, ∃ y : DieSt, f x = { x with
      staging := y.staging, stagingDrop := y.stagingDrop, trace := y.trace, traceSeq := y.traceSeq, bench := y.bench })
    (h : s.Only s0 g) : (s.modDie d f).Only s0 g := by
  subst hd
  obtain ⟨hg, h⟩ := h
  refine ⟨hg, h.chans, h.words, h.force, h.dieWords, h.pkgWords, h.maps, fun d hd => (die_modDie_ne _ hd _).trans (h.dies d hd), ?_, ?_⟩
  · obtain ⟨x, hx⟩ := h.own
    by_cases hl : g / 8 < s.dies.length
    · obtain ⟨y, hy⟩ := hf (s.die (g / 8))
      exact ⟨y, by rw [die_modDie_self _ hl, hy, hx]⟩
    · refine ⟨x, ?_⟩
      rw [← hx]
      unfold Device.die modDie
      rw [List.getElem?_eq_none (by simpa using hl), List.getElem?_eq_none (by simpa using hl)]
  · have hr := h.rest
    unfold modDie
    rw [hr]

/-- A bit of the channel in a map of the arbiter. -/
theorem only_mapBit (f : Fld .pkg) (i : Nat) (b : Bool) {s : Device} (hf : f.off ∈ mapWords) (hlo : f.lo = 0) (hhi : f.hi = 31)
    (hi : i = g % 32) (h : s.Only s0 g) : (s.psetBit f i b).Only s0 g := by
  obtain ⟨hg, h⟩ := h
  have hw : f.off < 0x30 ∧ 0x2C ≤ f.off := by
    simp only [mapWords, List.mem_cons, List.not_mem_nil, or_false] at hf
    omega
  refine ⟨hg, h.chans, fun x o hx ho => (reg_setReg_ne _ (by unfold chAddr; omega) _).trans (h.words x o hx ho), h.force,
    fun d o a b c => (reg_setReg_ne _ (by unfold dieAddr; omega) _).trans (h.dieWords d o a b c),
    fun a ha he hm => (reg_setReg_ne _ (fun e => hm (by rw [e]; exact hf)) _).trans (h.pkgWords a ha he hm), fun a ha j hj => ?_, h.dies,
    h.own, ?_⟩
  · by_cases e : a = f.off
    · subst e
      rw [← h.maps _ hf j hj]
      unfold psetBit pset pget
      rw [reg_setReg_self]
      have hl := (s.reg f.off).isLt
      have e1 : f.get (s.reg f.off) = (s.reg f.off).toNat := by
        unfold Fld.get Fld.width; rw [hlo, hhi]; simp only [Nat.pow_zero, Nat.div_one]; exact Nat.mod_eq_of_lt hl
      have e2 : ∀ v, v < 2 ^ 32 → (f.put v (s.reg f.off)).toNat = v := fun v hv => by
        rw [Fld.put_toNat f _ _ (by omega) (by omega)]
        unfold Fld.width; rw [hlo, hhi]
        simp only [Nat.pow_zero, Nat.one_mul, Nat.mod_one, Nat.mul_one]
        rw [Nat.div_eq_of_lt hl, Nat.mod_eq_of_lt hv]; omega
      rw [e1]
      have h32 : i < 32 := by omega
      split
      · rw [e2 _ hl]
      · rw [e2 _ (Nat.xor_lt_two_pow hl (Nat.pow_lt_pow_right (by omega) h32)), Nat.testBit_xor,
          Nat.testBit_two_pow_of_ne (by omega), Bool.xor_false]
    · rw [show (s.psetBit f i b).reg a = s.reg a from reg_setReg_ne _ e _]
      exact h.maps a ha j hj
  · have hr := h.rest
    unfold psetBit pset setReg
    rw [hr]

end Device

variable {s0 : Device} {g : Nat}

theorem Device.only_modDue {s : Device} (f : Due → Due) (hs : s.Only s0 g) :
    (Device.modDue s g f).Only s0 g := by
  unfold Device.modDue
  repeat' first
    | with_reducible assumption
    | with_reducible rfl
    | with_reducible apply Device.only_modCh
    | (with_reducible show _ < _; decide)
    | (with_reducible show _ ∈ leadWords; decide)
    | exact ⟨by decide, rfl, rfl⟩
    | intro _
    | split
    | dsimp only

theorem only_accClear (data : Sys2Proof.Word) {s : Device} (hs : s.Only s0 g) :
    (accClear g data s).Only s0 g := by
  unfold accClear
  repeat' first
    | with_reducible assumption
    | with_reducible rfl
    | with_reducible apply Device.only_modDue
    | with_reducible apply Device.only_ite
    | (with_reducible show _ < _; decide)
    | (with_reducible show _ ∈ leadWords; decide)
    | exact ⟨by decide, rfl, rfl⟩
    | intro _
    | split
    | dsimp only

theorem only_tcrCfgWrite (data : Sys2Proof.Word) {s : Device} (hs : s.Only s0 g) :
    (tcrCfgWrite g data s).Only s0 g := by
  unfold tcrCfgWrite
  repeat' first
    | with_reducible assumption
    | with_reducible rfl
    | with_reducible apply Device.only_modDue
    | with_reducible apply Device.only_chReg
    | with_reducible apply Device.only_dieReg
    | with_reducible apply Device.only_pkgReg
    | (with_reducible show _ < _; decide)
    | (with_reducible show _ ∈ leadWords; decide)
    | exact ⟨by decide, rfl, rfl⟩
    | intro _
    | split
    | dsimp only

theorem only_calNote (off : ℕ) (w : Sys2Proof.Word) {s : Device} (hs : s.Only s0 g) :
    (calNote off w g s).Only s0 g := by
  unfold calNote
  repeat' first
    | with_reducible assumption
    | with_reducible rfl
    | with_reducible apply Device.only_modDue
    | with_reducible apply Device.only_ite
    | (with_reducible show _ < _; decide)
    | (with_reducible show _ ∈ leadWords; decide)
    | exact ⟨by decide, rfl, rfl⟩
    | intro _
    | split
    | dsimp only

theorem only_boardWrite (off : ℕ) (w : Word) {s : Device} (ho : off < 128) (hs : s.Only s0 g) : (boardWrite off w g s).Only s0 g :=
  by unfold boardWrite; exact only_calNote _ _ (Device.only_chReg _ _ ho hs)
theorem kOff_lt (r : KReg) : kOff r < 128 := by cases r <;> decide
theorem baseOff_lt (r : BaseReg) : baseOff r < 128 := by cases r <;> decide
theorem setOff_lt (r : SetReg) : setOff r < 128 := by cases r <;> decide

theorem only_constantWrite (r : KReg) (data : Word) {s : Device} (hs : s.Only s0 g) : (constantWrite g r data s).Only s0 g := by
  unfold constantWrite
  dsimp only
  exact Device.only_ite (fun _ => only_boardWrite _ _ (kOff_lt r) hs) fun _ => Device.only_cset _ _ (by decide) hs

theorem only_offsetWrite (volt : Bool) (data : Word) {s : Device} (hs : s.Only s0 g) : (offsetWrite g volt data s).Only s0 g  := by
  unfold offsetWrite
  exact only_boardWrite _ _ (by split <;> omega) hs

theorem only_baselineWrite (r : BaseReg) (data : Word) {s : Device} (hs : s.Only s0 g) : (baselineWrite g r data s).Only s0 g  := by
  unfold baselineWrite
  exact only_boardWrite _ _ (baseOff_lt r) hs

theorem Device.only_modLp {s : Device} (f : Loop → Loop) (hs : s.Only s0 g) :
    (Device.modLp s g f).Only s0 g := by
  unfold Device.modLp
  repeat' first
    | with_reducible assumption
    | with_reducible rfl
    | with_reducible apply Device.only_modCh
    | (with_reducible show _ < _; decide)
    | (with_reducible show _ ∈ leadWords; decide)
    | exact ⟨by decide, rfl, rfl⟩
    | intro _
    | split
    | dsimp only

theorem only_idleFlags {s : Device} (hs : s.Only s0 g) :
    (idleFlags g s).Only s0 g := by
  unfold idleFlags
  repeat' first
    | with_reducible assumption
    | with_reducible rfl
    | with_reducible apply Device.only_cset
    | with_reducible apply Device.only_chReg
    | with_reducible apply Device.only_dieReg
    | with_reducible apply Device.only_pkgReg
    | (with_reducible show _ < _; decide)
    | (with_reducible show _ ∈ leadWords; decide)
    | exact ⟨by decide, rfl, rfl⟩
    | intro _
    | split
    | dsimp only

theorem only_gatesOff {s : Device} (hs : s.Only s0 g) :
    (gatesOff g s).Only s0 g := by
  unfold gatesOff
  repeat' first
    | with_reducible assumption
    | with_reducible rfl
    | with_reducible apply Device.only_modLp
    | with_reducible apply only_idleFlags
    | with_reducible apply Device.only_ite
    | (with_reducible show _ < _; decide)
    | (with_reducible show _ ∈ leadWords; decide)
    | exact ⟨by decide, rfl, rfl⟩
    | intro _
    | split
    | dsimp only

theorem Device.only_modAcir {s : Device} (f : Acir → Acir) (hs : s.Only s0 g) :
    (Device.modAcir s g f).Only s0 g := by
  unfold Device.modAcir
  repeat' first
    | with_reducible assumption
    | with_reducible rfl
    | with_reducible apply Device.only_modCh
    | (with_reducible show _ < _; decide)
    | (with_reducible show _ ∈ leadWords; decide)
    | exact ⟨by decide, rfl, rfl⟩
    | intro _
    | split
    | dsimp only

theorem only_acirIdle {s : Device} (hs : s.Only s0 g) :
    (acirIdle g s).Only s0 g := by
  unfold acirIdle
  repeat' first
    | with_reducible assumption
    | with_reducible rfl
    | with_reducible apply Device.only_cset
    | with_reducible apply Device.only_modAcir
    | (with_reducible show _ < _; decide)
    | (with_reducible show _ ∈ leadWords; decide)
    | exact ⟨by decide, rfl, rfl⟩
    | intro _
    | split
    | dsimp only

theorem Device.only_modEng {s : Device} (f : Eng → Eng) (hs : s.Only s0 g) :
    (Device.modEng s g f).Only s0 g := by
  unfold Device.modEng
  repeat' first
    | with_reducible assumption
    | with_reducible rfl
    | with_reducible apply Device.only_modCh
    | (with_reducible show _ < _; decide)
    | (with_reducible show _ ∈ leadWords; decide)
    | exact ⟨by decide, rfl, rfl⟩
    | intro _
    | split
    | dsimp only

theorem only_traceWrite (typ : ℕ) (body : List Byte) {s : Device} (hs : s.Only s0 g) : (traceWrite typ g body s).Only s0 g := by
  unfold traceWrite
  refine Device.only_ite (fun _ => hs) fun _ => ?_
  dsimp only
  have h1 := Device.only_modDie (g / 8) (fun x => { x with traceSeq := (x.traceSeq + 1) % 65536 }) rfl
    (fun x => ⟨{ x with traceSeq := (x.traceSeq + 1) % 65536 }, rfl⟩) hs
  refine Device.only_ite (fun _ => ?_) fun _ => ?_
  · exact Device.only_dset _ _ _ rfl (by decide) (Device.only_dinc _ _ rfl (by decide) h1)
  · refine Device.only_dset _ _ _ rfl (by decide) (Device.only_dset _ _ _ rfl (by decide) ?_)
    exact Device.only_modDie _ _ rfl (fun x => ⟨{ x with trace := _ }, by dsimp only⟩) h1

theorem only_acirRecord (code : ℕ) {s : Device} (hs : s.Only s0 g) :
    (acirRecord code g s).Only s0 g := by
  unfold acirRecord
  repeat' first
    | with_reducible assumption
    | with_reducible rfl
    | with_reducible apply only_traceWrite
    | (with_reducible show _ < _; decide)
    | (with_reducible show _ ∈ leadWords; decide)
    | exact ⟨by decide, rfl, rfl⟩
    | intro _
    | split
    | dsimp only

theorem only_acirStepFails (code : ℕ) {s : Device} (hs : s.Only s0 g) :
    (acirStepFails code g s).Only s0 g := by
  unfold acirStepFails
  repeat' first
    | with_reducible assumption
    | with_reducible rfl
    | with_reducible apply Device.only_modEng
    | with_reducible apply only_acirRecord
    | (with_reducible show _ < _; decide)
    | (with_reducible show _ ∈ leadWords; decide)
    | exact ⟨by decide, rfl, rfl⟩
    | intro _
    | split
    | dsimp only

theorem only_acirStepAborted (code : ℕ) {s : Device} (hs : s.Only s0 g) :
    (acirStepAborted code g s).Only s0 g := by
  unfold acirStepAborted
  repeat' first
    | with_reducible assumption
    | with_reducible rfl
    | with_reducible apply Device.only_modEng
    | with_reducible apply only_acirStepFails
    | with_reducible apply Device.only_ite
    | (with_reducible show _ < _; decide)
    | (with_reducible show _ ∈ leadWords; decide)
    | exact ⟨by decide, rfl, rfl⟩
    | intro _
    | split
    | dsimp only

theorem only_acirAbort (code : ℕ) {s : Device} (hs : s.Only s0 g) :
    (acirAbort code g s).Only s0 g := by
  unfold acirAbort
  repeat' first
    | with_reducible assumption
    | with_reducible rfl
    | with_reducible apply Device.only_cset
    | with_reducible apply Device.only_modAcir
    | with_reducible apply only_acirIdle
    | with_reducible apply only_acirStepAborted
    | with_reducible apply Device.only_ite
    | (with_reducible show _ < _; decide)
    | (with_reducible show _ ∈ leadWords; decide)
    | exact ⟨by decide, rfl, rfl⟩
    | intro _
    | split
    | dsimp only

theorem only_acirStopped {s : Device} (hs : s.Only s0 g) :
    (acirStopped g s).Only s0 g := by
  unfold acirStopped
  repeat' first
    | with_reducible assumption
    | with_reducible rfl
    | with_reducible apply only_acirAbort
    | with_reducible apply only_acirIdle
    | with_reducible apply Device.only_ite
    | (with_reducible show _ < _; decide)
    | (with_reducible show _ ∈ leadWords; decide)
    | exact ⟨by decide, rfl, rfl⟩
    | intro _
    | split
    | dsimp only

theorem only_takeFirst (code : ℕ) (was : ℕ) {s : Device} (hs : s.Only s0 g) :
    (takeFirst code g was s).Only s0 g := by
  unfold takeFirst
  repeat' first
    | with_reducible assumption
    | with_reducible rfl
    | with_reducible apply Device.only_modLp
    | with_reducible apply Device.only_cset
    | with_reducible apply Device.only_ite
    | (with_reducible show _ < _; decide)
    | (with_reducible show _ ∈ leadWords; decide)
    | exact ⟨by decide, rfl, rfl⟩
    | intro _
    | split
    | dsimp only

theorem Device.only_setIrqAt {s : Device} (n : ℕ) (hs : s.Only s0 g) :
    (Device.setIrqAt s n).Only s0 g := by
  unfold Device.setIrqAt
  repeat' first
    | with_reducible assumption
    | with_reducible rfl
    | with_reducible apply Device.only_mk
    | (with_reducible show _ < _; decide)
    | (with_reducible show _ ∈ leadWords; decide)
    | exact ⟨by decide, rfl, rfl⟩
    | intro _
    | split
    | dsimp only

theorem only_irqLatch (cat : ℕ) (die : ℕ) (obj : ℕ) {s : Device} (hs : s.Only s0 g) :
    (irqLatch cat die obj s).Only s0 g := by
  unfold irqLatch
  repeat' first
    | with_reducible assumption
    | with_reducible rfl
    | with_reducible apply Device.only_pset
    | with_reducible apply Device.only_ite
    | (with_reducible show _ < _; decide)
    | (with_reducible show _ ∈ leadWords; decide)
    | exact ⟨by decide, rfl, rfl⟩
    | intro _
    | split
    | dsimp only

theorem only_irqSource (cat : ℕ) (die : ℕ) (obj : ℕ) {s : Device} (hs : s.Only s0 g) :
    (irqSource cat die obj s).Only s0 g := by
  unfold irqSource
  repeat' first
    | with_reducible assumption
    | with_reducible rfl
    | with_reducible apply Device.only_setIrqAt
    | with_reducible apply Device.only_pset
    | with_reducible apply only_irqLatch
    | with_reducible apply Device.only_pinc
    | with_reducible apply Device.only_ite
    | (with_reducible show _ < _; decide)
    | (with_reducible show _ ∈ leadWords; decide)
    | exact ⟨by decide, rfl, rfl⟩
    | intro _
    | split
    | dsimp only

theorem only_setIrq (cat : ℕ) (die : ℕ) (obj : ℕ) {s : Device} (hs : s.Only s0 g) :
    (setIrq cat die obj s).Only s0 g := by
  unfold setIrq
  repeat' first
    | with_reducible assumption
    | with_reducible rfl
    | with_reducible apply Device.only_chReg
    | with_reducible apply Device.only_dieReg
    | with_reducible apply Device.only_pkgReg
    | with_reducible apply only_irqSource
    | with_reducible apply Device.only_ite
    | (with_reducible show _ < _; decide)
    | (with_reducible show _ ∈ leadWords; decide)
    | exact ⟨by decide, rfl, rfl⟩
    | intro _
    | split
    | dsimp only

theorem Device.only_setDropped {s : Device} (l : List (ℕ × LedgerEnt)) (hs : s.Only s0 g) :
    (Device.setDropped s l).Only s0 g := by
  unfold Device.setDropped
  repeat' first
    | with_reducible assumption
    | with_reducible rfl
    | with_reducible apply Device.only_mk
    | (with_reducible show _ < _; decide)
    | (with_reducible show _ ∈ leadWords; decide)
    | exact ⟨by decide, rfl, rfl⟩
    | intro _
    | split
    | dsimp only

theorem only_setCat (cat : ℕ) {s : Device} (hs : s.Only s0 g) :
    (setCat cat s).Only s0 g := by
  unfold setCat
  repeat' first
    | with_reducible assumption
    | with_reducible rfl
    | with_reducible apply only_setIrq
    | (with_reducible show _ < _; decide)
    | (with_reducible show _ ∈ leadWords; decide)
    | exact ⟨by decide, rfl, rfl⟩
    | intro _
    | split
    | dsimp only

theorem only_ledgerWrite (e : LedgerEnt) {s : Device} (hs : s.Only s0 g) :
    (ledgerWrite e s).Only s0 g := by
  unfold ledgerWrite
  repeat' first
    | with_reducible assumption
    | with_reducible rfl
    | with_reducible apply Device.only_pset
    | with_reducible apply only_setCat
    | with_reducible apply Device.only_ite
    | with_reducible apply Device.only_mk
    | (with_reducible show _ < _; decide)
    | (with_reducible show _ ∈ leadWords; decide)
    | exact ⟨by decide, rfl, rfl⟩
    | intro _
    | split
    | dsimp only

theorem only_ledgerPut (e : LedgerEnt) {s : Device} (hs : s.Only s0 g) :
    (ledgerPut e s).Only s0 g := by
  unfold ledgerPut
  repeat' first
    | with_reducible assumption
    | with_reducible rfl
    | with_reducible apply Device.only_pset
    | with_reducible apply Device.only_pinc
    | with_reducible apply Device.only_setDropped
    | with_reducible apply only_ledgerWrite
    | with_reducible apply Device.only_ite
    | (with_reducible show _ < _; decide)
    | (with_reducible show _ ∈ leadWords; decide)
    | exact ⟨by decide, rfl, rfl⟩
    | intro _
    | split
    | dsimp only

theorem only_logLead (cat code obj data : ℕ) {s : Device} (hs : s.Only s0 g) : (logEvent cat 0 code obj data s).Only s0 g := by
  unfold logEvent
  dsimp only
  exact Device.only_ite (fun _ => only_ledgerPut _ (only_setIrq _ _ _ hs)) fun h => absurd rfl h

theorem only_logEvent (cat d code obj data : ℕ) {s : Device} (hd : d = g / 8) (hs : s.Only s0 g) :
    (logEvent cat d code obj data s).Only s0 g := by
  unfold logEvent
  dsimp only
  refine Device.only_ite (fun _ => only_ledgerPut _ (only_setIrq _ _ _ hs)) fun _ => ?_
  refine Device.only_modDie _ _ hd (fun x => ?_) (only_setIrq _ _ _ hs)
  split
  · exact ⟨{ x with staging := x.staging ++ [_] }, rfl⟩
  · exact ⟨{ x with stagingDrop := x.stagingDrop + 1 }, rfl⟩

theorem only_setChFault (bit : ℕ) {s : Device} (hs : s.Only s0 g) :
    (setChFault bit g s).Only s0 g := by
  unfold setChFault
  repeat' first
    | with_reducible assumption
    | with_reducible rfl
    | with_reducible apply Device.only_chReg
    | with_reducible apply Device.only_dieReg
    | with_reducible apply Device.only_pkgReg
    | with_reducible apply only_takeFirst
    | with_reducible apply only_logLead
    | with_reducible apply only_logEvent
    | with_reducible apply Device.only_ite
    | (with_reducible show _ < _; decide)
    | (with_reducible show _ ∈ leadWords; decide)
    | exact ⟨by decide, rfl, rfl⟩
    | intro _
    | split
    | dsimp only

theorem only_acirClip {s : Device} (hs : s.Only s0 g) :
    (acirClip g s).Only s0 g := by
  unfold acirClip
  repeat' first
    | with_reducible assumption
    | with_reducible rfl
    | with_reducible apply Device.only_modAcir
    | with_reducible apply Device.only_ite
    | (with_reducible show _ < _; decide)
    | (with_reducible show _ ∈ leadWords; decide)
    | exact ⟨by decide, rfl, rfl⟩
    | intro _
    | split
    | dsimp only

theorem only_periodStart (bootLow : Bool) {s : Device} (hs : s.Only s0 g) :
    (periodStart bootLow g s).Only s0 g := by
  unfold periodStart
  repeat' first
    | with_reducible assumption
    | with_reducible rfl
    | with_reducible apply only_setChFault
    | with_reducible apply Device.only_cset
    | with_reducible apply Device.only_modLp
    | with_reducible apply only_acirClip
    | with_reducible apply Device.only_ite
    | (with_reducible show _ < _; decide)
    | (with_reducible show _ ∈ leadWords; decide)
    | exact ⟨by decide, rfl, rfl⟩
    | intro _
    | split
    | dsimp only

theorem only_stopChannel {s : Device} (hs : s.Only s0 g) :
    (stopChannel g s).Only s0 g := by
  unfold stopChannel
  repeat' first
    | with_reducible assumption
    | with_reducible rfl
    | with_reducible apply Device.only_modLp
    | with_reducible apply only_gatesOff
    | with_reducible apply only_acirStopped
    | with_reducible apply Device.only_ite
    | (with_reducible show _ < _; decide)
    | (with_reducible show _ ∈ leadWords; decide)
    | exact ⟨by decide, rfl, rfl⟩
    | intro _
    | split
    | dsimp only

theorem only_armTaper (cv : Bool) (still : Bool) {s : Device} (hs : s.Only s0 g) :
    (armTaper cv still g s).Only s0 g := by
  unfold armTaper
  repeat' first
    | with_reducible assumption
    | with_reducible rfl
    | with_reducible apply Device.only_modEng
    | with_reducible apply Device.only_ite
    | (with_reducible show _ < _; decide)
    | (with_reducible show _ ∈ leadWords; decide)
    | exact ⟨by decide, rfl, rfl⟩
    | intro _
    | split
    | dsimp only

theorem Device.only_spend {s : Device} (n : ℕ) (hs : s.Only s0 g) :
    (Device.spend s n).Only s0 g := by
  unfold Device.spend
  repeat' first
    | with_reducible assumption
    | with_reducible rfl
    | with_reducible apply Device.only_mk
    | (with_reducible show _ < _; decide)
    | (with_reducible show _ ∈ leadWords; decide)
    | exact ⟨by decide, rfl, rfl⟩
    | intro _
    | split
    | dsimp only

theorem only_periodStore (iM : ℤ) (o : LoopOut) {s : Device} (hs : s.Only s0 g) :
    (periodStore iM o g s).Only s0 g := by
  unfold periodStore
  repeat' first
    | with_reducible assumption
    | with_reducible rfl
    | with_reducible apply Device.only_modLp
    | with_reducible apply Device.only_modAcir
    | with_reducible apply only_acirClip
    | with_reducible apply Device.only_cset
    | with_reducible apply only_armTaper
    | with_reducible apply Device.only_spend
    | with_reducible apply Device.only_ite
    | (with_reducible show _ < _; decide)
    | (with_reducible show _ ∈ leadWords; decide)
    | exact ⟨by decide, rfl, rfl⟩
    | intro _
    | split
    | dsimp only

theorem only_busOvCh {s : Device} (hs : s.Only s0 g) :
    (busOvCh g s).Only s0 g := by
  unfold busOvCh
  repeat' first
    | with_reducible assumption
    | with_reducible rfl
    | with_reducible apply Device.only_modLp
    | with_reducible apply only_stopChannel
    | with_reducible apply only_setChFault
    | with_reducible apply Device.only_ite
    | (with_reducible show _ < _; decide)
    | (with_reducible show _ ∈ leadWords; decide)
    | exact ⟨by decide, rfl, rfl⟩
    | intro _
    | split
    | dsimp only

theorem only_loopPeriod (bootLow : Bool) {s : Device} (hs : s.Only s0 g) :
    (loopPeriod bootLow g s).Only s0 g := by
  unfold loopPeriod
  repeat' first
    | with_reducible assumption
    | with_reducible rfl
    | with_reducible apply Device.only_modLp
    | with_reducible apply only_gatesOff
    | with_reducible apply only_acirStopped
    | with_reducible apply only_periodStart
    | with_reducible apply only_stopChannel
    | with_reducible apply only_periodStore
    | with_reducible apply only_busOvCh
    | with_reducible apply Device.only_ite
    | (with_reducible show _ < _; decide)
    | (with_reducible show _ ∈ leadWords; decide)
    | exact ⟨by decide, rfl, rfl⟩
    | intro _
    | split
    | dsimp only

theorem only_clampEngage (upper : Bool) {s : Device} (hs : s.Only s0 g) :
    (clampEngage upper g s).Only s0 g := by
  unfold clampEngage
  repeat' first
    | with_reducible assumption
    | with_reducible rfl
    | with_reducible apply Device.only_cset
    | with_reducible apply Device.only_modLp
    | with_reducible apply Device.only_ite
    | (with_reducible show _ < _; decide)
    | (with_reducible show _ ∈ leadWords; decide)
    | exact ⟨by decide, rfl, rfl⟩
    | intro _
    | split
    | dsimp only

theorem only_protTrip (bit : ℕ) {s : Device} (hs : s.Only s0 g) :
    (protTrip bit g s).Only s0 g := by
  unfold protTrip
  repeat' first
    | with_reducible assumption
    | with_reducible rfl
    | with_reducible apply only_stopChannel
    | with_reducible apply only_setChFault
    | with_reducible apply Device.only_ite
    | (with_reducible show _ < _; decide)
    | (with_reducible show _ ∈ leadWords; decide)
    | exact ⟨by decide, rfl, rfl⟩
    | intro _
    | split
    | dsimp only

theorem Device.only_cforce (off : ℕ) {s : Device} (hs : s.Only s0 g) (ho : off < 128) : (s.cforce g off).Only s0 g :=
  Device.only_setFrc _ _ hs ho

theorem only_pwmWrite (dt : Bool) (data : Word) {s : Device} (hs : s.Only s0 g) : (pwmWrite g dt data s).Only s0 g := by
  have h : (if dt then 0x15 else 0x14) < 128 := by split <;> decide
  unfold pwmWrite
  dsimp only
  exact Device.only_ite (fun _ => Device.only_chReg _ _ h hs) fun _ => Device.only_cforce _ (Device.only_chReg _ _ h hs) h

theorem only_setpointWrite (r : SetReg) (data : Word) {s : Device} (hs : s.Only s0 g) : (setpointWrite g r data s).Only s0 g := by
  unfold setpointWrite
  split
  · exact Device.only_chReg _ _ (setOff_lt r) hs
  · exact hs

theorem Device.only_nextFree {s : Device} (hs : s.Only s0 g) :
    (Device.nextFree s).Only s0 g := by
  unfold Device.nextFree
  repeat' first
    | with_reducible assumption
    | with_reducible rfl
    | with_reducible apply Device.only_mk
    | (with_reducible show _ < _; decide)
    | (with_reducible show _ ∈ leadWords; decide)
    | exact ⟨by decide, rfl, rfl⟩
    | intro _
    | split
    | dsimp only

theorem only_channelStart {s : Device} (hs : s.Only s0 g) :
    (channelStart g s).Only s0 g := by
  unfold channelStart
  repeat' first
    | with_reducible assumption
    | with_reducible rfl
    | with_reducible apply Device.only_cforce
    | with_reducible apply Device.only_modLp
    | with_reducible apply Device.only_nextFree
    | with_reducible apply Device.only_cset
    | with_reducible apply Device.only_ite
    | (with_reducible show _ < _; decide)
    | (with_reducible show _ ∈ leadWords; decide)
    | exact ⟨by decide, rfl, rfl⟩
    | intro _
    | split
    | dsimp only

theorem only_followMode {s : Device} (hs : s.Only s0 g) :
    (followMode g s).Only s0 g := by
  unfold followMode
  repeat' first
    | with_reducible assumption
    | with_reducible rfl
    | with_reducible apply only_channelStart
    | with_reducible apply Device.only_modLp
    | with_reducible apply Device.only_ite
    | (with_reducible show _ < _; decide)
    | (with_reducible show _ ∈ leadWords; decide)
    | exact ⟨by decide, rfl, rfl⟩
    | intro _
    | split
    | dsimp only

theorem only_setMode (m : ℕ) {s : Device} (hs : s.Only s0 g) :
    (setMode m g s).Only s0 g := by
  unfold setMode
  repeat' first
    | with_reducible assumption
    | with_reducible rfl
    | with_reducible apply Device.only_modLp
    | with_reducible apply only_acirAbort
    | with_reducible apply Device.only_cset
    | with_reducible apply Device.only_ite
    | (with_reducible show _ < _; decide)
    | (with_reducible show _ ∈ leadWords; decide)
    | exact ⟨by decide, rfl, rfl⟩
    | intro _
    | split
    | dsimp only

theorem only_engSetpoints (i : ℤ) (v : ℕ) (p : ℤ) {s : Device} (hs : s.Only s0 g) :
    (engSetpoints i v p g s).Only s0 g := by
  unfold engSetpoints
  repeat' first
    | with_reducible assumption
    | with_reducible rfl
    | with_reducible apply Device.only_modLp
    | with_reducible apply Device.only_chReg
    | with_reducible apply Device.only_dieReg
    | with_reducible apply Device.only_pkgReg
    | with_reducible apply Device.only_ite
    | (with_reducible show _ < _; decide)
    | (with_reducible show _ ∈ leadWords; decide)
    | exact ⟨by decide, rfl, rfl⟩
    | intro _
    | split
    | dsimp only

theorem only_writeRange (low : Bool) {s : Device} (hs : s.Only s0 g) :
    (writeRange low g s).Only s0 g := by
  unfold writeRange
  repeat' first
    | with_reducible assumption
    | with_reducible rfl
    | with_reducible apply Device.only_modDue
    | with_reducible apply Device.only_cset
    | with_reducible apply Device.only_ite
    | (with_reducible show _ < _; decide)
    | (with_reducible show _ ∈ leadWords; decide)
    | exact ⟨by decide, rfl, rfl⟩
    | intro _
    | split
    | dsimp only

theorem only_overrideChange (data : Sys2Proof.Word) {s : Device} (hs : s.Only s0 g) :
    (overrideChange g data s).Only s0 g := by
  unfold overrideChange
  repeat' first
    | with_reducible assumption
    | with_reducible rfl
    | with_reducible apply Device.only_cset
    | with_reducible apply Device.only_modEng
    | with_reducible apply only_acirAbort
    | with_reducible apply only_followMode
    | with_reducible apply only_setMode
    | with_reducible apply only_engSetpoints
    | with_reducible apply only_writeRange
    | with_reducible apply Device.only_ite
    | (with_reducible show _ < _; decide)
    | (with_reducible show _ ∈ leadWords; decide)
    | exact ⟨by decide, rfl, rfl⟩
    | intro _
    | split
    | dsimp only

theorem only_rangeSelWrite (low : Bool) {s : Device} (hs : s.Only s0 g) :
    (rangeSelWrite g low s).Only s0 g := by
  unfold rangeSelWrite
  repeat' first
    | with_reducible assumption
    | with_reducible rfl
    | with_reducible apply only_writeRange
    | with_reducible apply Device.only_ite
    | (with_reducible show _ < _; decide)
    | (with_reducible show _ ∈ leadWords; decide)
    | exact ⟨by decide, rfl, rfl⟩
    | intro _
    | split
    | dsimp only

theorem only_uprange {s : Device} (hs : s.Only s0 g) :
    (uprange g s).Only s0 g := by
  unfold uprange
  repeat' first
    | with_reducible assumption
    | with_reducible rfl
    | with_reducible apply Device.only_cset
    | with_reducible apply Device.only_modDue
    | with_reducible apply Device.only_ite
    | (with_reducible show _ < _; decide)
    | (with_reducible show _ ∈ leadWords; decide)
    | exact ⟨by decide, rfl, rfl⟩
    | intro _
    | split
    | dsimp only

theorem only_setOverload (volt : Bool) {s : Device} (hs : s.Only s0 g) :
    (setOverload volt g s).Only s0 g := by
  unfold setOverload
  repeat' first
    | with_reducible assumption
    | with_reducible rfl
    | with_reducible apply Device.only_cset
    | with_reducible apply only_logLead
    | with_reducible apply only_logEvent
    | with_reducible apply Device.only_ite
    | (with_reducible show _ < _; decide)
    | (with_reducible show _ ∈ leadWords; decide)
    | exact ⟨by decide, rfl, rfl⟩
    | intro _
    | split
    | dsimp only

theorem only_overload (volt : Bool) {s : Device} (hs : s.Only s0 g) :
    (overload volt g s).Only s0 g := by
  unfold overload
  repeat' first
    | with_reducible assumption
    | with_reducible rfl
    | with_reducible apply only_acirClip
    | with_reducible apply only_setOverload
    | with_reducible apply Device.only_ite
    | (with_reducible show _ < _; decide)
    | (with_reducible show _ ∈ leadWords; decide)
    | exact ⟨by decide, rfl, rfl⟩
    | intro _
    | split
    | dsimp only

theorem only_calRefuse (code : ℕ) {s : Device} (hs : s.Only s0 g) :
    (calRefuse code g s).Only s0 g := by
  unfold calRefuse
  repeat' first
    | with_reducible assumption
    | with_reducible rfl
    | with_reducible apply Device.only_cset
    | (with_reducible show _ < _; decide)
    | (with_reducible show _ ∈ leadWords; decide)
    | exact ⟨by decide, rfl, rfl⟩
    | intro _
    | split
    | dsimp only

theorem only_calQueue (k : ℕ) (w : Sys2Proof.Word) {s : Device} (hs : s.Only s0 g) :
    (calQueue k w g s).Only s0 g := by
  unfold calQueue
  repeat' first
    | with_reducible assumption
    | with_reducible rfl
    | with_reducible apply Device.only_modDue
    | with_reducible apply Device.only_ite
    | (with_reducible show _ < _; decide)
    | (with_reducible show _ ∈ leadWords; decide)
    | exact ⟨by decide, rfl, rfl⟩
    | intro _
    | split
    | dsimp only

theorem only_calApply (data : Sys2Proof.Word) {s : Device} (hs : s.Only s0 g) :
    (calApply data g s).Only s0 g := by
  unfold calApply
  repeat' first
    | with_reducible assumption
    | with_reducible rfl
    | with_reducible apply only_calRefuse
    | with_reducible apply only_calQueue
    | with_reducible apply Device.only_ite
    | (with_reducible show _ < _; decide)
    | (with_reducible show _ ∈ leadWords; decide)
    | exact ⟨by decide, rfl, rfl⟩
    | intro _
    | split
    | dsimp only

theorem only_calFold (data : Sys2Proof.Word) {s : Device} (hs : s.Only s0 g) :
    (calFold data g s).Only s0 g := by
  unfold calFold
  repeat' first
    | with_reducible assumption
    | with_reducible rfl
    | with_reducible apply only_calRefuse
    | with_reducible apply only_calQueue
    | with_reducible apply Device.only_ite
    | (with_reducible show _ < _; decide)
    | (with_reducible show _ ∈ leadWords; decide)
    | exact ⟨by decide, rfl, rfl⟩
    | intro _
    | split
    | dsimp only

theorem only_acirRefuse (code : ℕ) (p : AcirPar) {s : Device} (hs : s.Only s0 g) :
    (acirRefuse code p g s).Only s0 g := by
  unfold acirRefuse
  repeat' first
    | with_reducible assumption
    | with_reducible rfl
    | with_reducible apply Device.only_cset
    | with_reducible apply only_acirStepFails
    | with_reducible apply Device.only_ite
    | (with_reducible show _ < _; decide)
    | (with_reducible show _ ∈ leadWords; decide)
    | exact ⟨by decide, rfl, rfl⟩
    | intro _
    | split
    | dsimp only

theorem only_setPhase (p : ℕ) (d : ℕ) {s : Device} (hd : d = g / 8) (hs : s.Only s0 g) :
    (setPhase p d s).Only s0 g := by
  unfold setPhase
  repeat' first
    | with_reducible assumption
    | with_reducible rfl
    | with_reducible apply Device.only_dset
    | (with_reducible show _ < _; decide)
    | (with_reducible show _ ∈ leadWords; decide)
    | exact ⟨by decide, rfl, rfl⟩
    | intro _
    | split
    | dsimp only

theorem Device.only_modBench (d : ℕ) (f : Bench → Bench) {s : Device} (hd : d = g / 8) (hs : s.Only s0 g) :
    (s.modBench d f).Only s0 g :=
  Device.only_modDie _ _ hd (fun x => ⟨{ x with bench := f x.bench }, rfl⟩) hs

theorem only_benchAbort (d : ℕ) {s : Device} (hd : d = g / 8) (hs : s.Only s0 g) :
    (benchAbort d s).Only s0 g := by
  unfold benchAbort
  repeat' first
    | with_reducible assumption
    | with_reducible rfl
    | with_reducible apply Device.only_dset
    | with_reducible apply only_setPhase
    | with_reducible apply Device.only_modBench
    | with_reducible apply Device.only_ite
    | (with_reducible show _ < _; decide)
    | (with_reducible show _ ∈ leadWords; decide)
    | exact ⟨by decide, rfl, rfl⟩
    | intro _
    | split
    | dsimp only

theorem only_acirRequest (p : AcirPar) {s : Device} (hs : s.Only s0 g) :
    (acirRequest p g s).Only s0 g := by
  unfold acirRequest
  repeat' first
    | with_reducible assumption
    | with_reducible rfl
    | with_reducible apply only_acirRefuse
    | with_reducible apply Device.only_cset
    | with_reducible apply Device.only_modAcir
    | with_reducible apply only_benchAbort
    | with_reducible apply Device.only_ite
    | (with_reducible show _ < _; decide)
    | (with_reducible show _ ∈ leadWords; decide)
    | exact ⟨by decide, rfl, rfl⟩
    | intro _
    | split
    | dsimp only

theorem only_acirCtlWrite (data : Sys2Proof.Word) {s : Device} (hs : s.Only s0 g) :
    (acirCtlWrite g data s).Only s0 g := by
  unfold acirCtlWrite
  repeat' first
    | with_reducible assumption
    | with_reducible rfl
    | with_reducible apply Device.only_chReg
    | with_reducible apply Device.only_dieReg
    | with_reducible apply Device.only_pkgReg
    | with_reducible apply only_acirRequest
    | with_reducible apply only_acirAbort
    | with_reducible apply Device.only_ite
    | (with_reducible show _ < _; decide)
    | (with_reducible show _ ∈ leadWords; decide)
    | exact ⟨by decide, rfl, rfl⟩
    | intro _
    | split
    | dsimp only

theorem only_acirBegin (p : AcirPar) (pt : ℕ) {s : Device} (hs : s.Only s0 g) :
    (acirBegin p pt g s).Only s0 g := by
  unfold acirBegin
  repeat' first
    | with_reducible assumption
    | with_reducible rfl
    | with_reducible apply Device.only_cset
    | with_reducible apply Device.only_modAcir
    | (with_reducible show _ < _; decide)
    | (with_reducible show _ ∈ leadWords; decide)
    | exact ⟨by decide, rfl, rfl⟩
    | intro _
    | split
    | dsimp only

theorem only_dropHeld {s : Device} (hs : s.Only s0 g) :
    (dropHeld g s).Only s0 g := by
  unfold dropHeld
  repeat' first
    | with_reducible assumption
    | with_reducible rfl
    | with_reducible apply Device.only_cset
    | with_reducible apply Device.only_modAcir
    | (with_reducible show _ < _; decide)
    | (with_reducible show _ ∈ leadWords; decide)
    | exact ⟨by decide, rfl, rfl⟩
    | intro _
    | split
    | dsimp only

theorem only_acirMove (pt : ℕ) {s : Device} (hs : s.Only s0 g) :
    (acirMove pt g s).Only s0 g := by
  unfold acirMove
  repeat' first
    | with_reducible assumption
    | with_reducible rfl
    | with_reducible apply Device.only_modAcir
    | (with_reducible show _ < _; decide)
    | (with_reducible show _ ∈ leadWords; decide)
    | exact ⟨by decide, rfl, rfl⟩
    | intro _
    | split
    | dsimp only

theorem only_acirLeadin {s : Device} (hs : s.Only s0 g) :
    (acirLeadin g s).Only s0 g := by
  unfold acirLeadin
  repeat' first
    | with_reducible assumption
    | with_reducible rfl
    | with_reducible apply only_acirBegin
    | with_reducible apply only_dropHeld
    | with_reducible apply only_acirMove
    | with_reducible apply only_acirRefuse
    | with_reducible apply only_acirIdle
    | with_reducible apply Device.only_ite
    | (with_reducible show _ < _; decide)
    | (with_reducible show _ ∈ leadWords; decide)
    | exact ⟨by decide, rfl, rfl⟩
    | intro _
    | split
    | dsimp only

theorem only_acirClock {s : Device} (hs : s.Only s0 g) :
    (acirClock g s).Only s0 g := by
  unfold acirClock
  repeat' first
    | with_reducible assumption
    | with_reducible rfl
    | with_reducible apply Device.only_modAcir
    | with_reducible apply Device.only_ite
    | (with_reducible show _ < _; decide)
    | (with_reducible show _ ∈ leadWords; decide)
    | exact ⟨by decide, rfl, rfl⟩
    | intro _
    | split
    | dsimp only

theorem only_acirOpen {s : Device} (hs : s.Only s0 g) :
    (acirOpen g s).Only s0 g := by
  unfold acirOpen
  repeat' first
    | with_reducible assumption
    | with_reducible rfl
    | with_reducible apply only_acirClock
    | with_reducible apply Device.only_cset
    | with_reducible apply Device.only_modAcir
    | with_reducible apply Device.only_ite
    | (with_reducible show _ < _; decide)
    | (with_reducible show _ ∈ leadWords; decide)
    | exact ⟨by decide, rfl, rfl⟩
    | intro _
    | split
    | dsimp only

theorem only_acirPublish {s : Device} (hs : s.Only s0 g) : (acirPublish g s).Only s0 g := by
  unfold acirPublish Device.each
  refine Device.only_foldl _ hs fun k hk t ht => ?_
  have hk := List.mem_range.mp hk
  exact Device.only_chReg _ _ (by omega) (Device.only_chReg _ _ (by omega) ht)

theorem only_acirBook (a : Acir) (kq : Const) (kv : Const) {s : Device} (hs : s.Only s0 g) :
    (acirBook g a kq kv s).Only s0 g := by
  unfold acirBook
  repeat' first
    | with_reducible assumption
    | with_reducible rfl
    | with_reducible apply Device.only_modAcir
    | with_reducible apply Device.only_ite
    | (with_reducible show _ < _; decide)
    | (with_reducible show _ ∈ leadWords; decide)
    | exact ⟨by decide, rfl, rfl⟩
    | intro _
    | split
    | dsimp only

theorem only_acirStat (a : Acir) (low : Bool) {s : Device} (hs : s.Only s0 g) :
    (acirStat g a low s).Only s0 g := by
  unfold acirStat
  repeat' first
    | with_reducible assumption
    | with_reducible rfl
    | with_reducible apply Device.only_cset
    | with_reducible apply Device.only_ite
    | (with_reducible show _ < _; decide)
    | (with_reducible show _ ∈ leadWords; decide)
    | exact ⟨by decide, rfl, rfl⟩
    | intro _
    | split
    | dsimp only

theorem only_acirPhaseOut (p : AcirProd) {s : Device} (hs : s.Only s0 g) :
    (acirPhaseOut g p s).Only s0 g := by
  unfold acirPhaseOut
  repeat' first
    | with_reducible assumption
    | with_reducible rfl
    | with_reducible apply Device.only_cset
    | (with_reducible show _ < _; decide)
    | (with_reducible show _ ∈ leadWords; decide)
    | exact ⟨by decide, rfl, rfl⟩
    | intro _
    | split
    | dsimp only

theorem acirWords_lt (a : Acir) (kq kv : Const) (free : ℕ) : ∀ x ∈ acirWords a kq kv free, x.1 < 128 := by
  intro x hx
  unfold acirWords at hx
  dsimp only at hx
  rcases List.mem_append.mp hx with hx | hx
  · split at hx <;> simp only [List.mem_cons, List.not_mem_nil, or_false] at hx <;>
      rcases hx with rfl | rfl | rfl <;> (dsimp only; omega)
  · split at hx <;> simp only [List.mem_cons, List.not_mem_nil, or_false] at hx <;>
      rcases hx with rfl | rfl | rfl | rfl | rfl | rfl <;> (dsimp only; omega)

theorem only_acirShow (a : Acir) (kq kv : Const) {s : Device} (free : ℕ) (hs : s.Only s0 g) :
    ((acirWords a kq kv free).foldl (fun t x => t.setReg (chAddr g x.1) x.2) s).Only s0 g :=
  Device.only_foldl _ hs fun x hx t ht => Device.only_chReg _ _ (acirWords_lt a kq kv free x hx) ht

theorem only_acirFinish {s : Device} (hs : s.Only s0 g) : (acirFinish g s).Only s0 g := by
  have h1 := Device.only_modAcir (g := g) (acirCycle (s.cget g ACIR_CFG_DC_TOL)) hs
  unfold acirFinish
  dsimp only
  generalize s.modAcir g (acirCycle (s.cget g ACIR_CFG_DC_TOL)) = s1 at h1 ⊢
  have h2 := only_acirShow (s1.ch g).acir.removeDc (s1.ch g).conv.kq (s1.ch g).conv.kv s1.free h1
  generalize (acirWords (s1.ch g).acir.removeDc (s1.ch g).conv.kq (s1.ch g).conv.kv s1.free).foldl
    (fun t x => t.setReg (chAddr g x.1) x.2) s1 = s2 at h2 ⊢
  exact only_acirPublish (Device.only_modAcir _ (only_acirStat _ _ (only_acirPhaseOut _ (Device.only_spend _ h2))))

theorem only_acirRequestAtClose {s : Device} (hs : s.Only s0 g) :
    (acirRequestAtClose g s).Only s0 g := by
  unfold acirRequestAtClose
  repeat' first
    | with_reducible assumption
    | with_reducible rfl
    | with_reducible apply only_acirRequest
    | with_reducible apply Device.only_ite
    | (with_reducible show _ < _; decide)
    | (with_reducible show _ ∈ leadWords; decide)
    | exact ⟨by decide, rfl, rfl⟩
    | intro _
    | split
    | dsimp only

theorem only_acirStepClose {s : Device} (hs : s.Only s0 g) :
    (acirStepClose g s).Only s0 g := by
  unfold acirStepClose
  repeat' first
    | with_reducible assumption
    | with_reducible rfl
    | with_reducible apply Device.only_modEng
    | with_reducible apply only_acirRecord
    | with_reducible apply Device.only_ite
    | (with_reducible show _ < _; decide)
    | (with_reducible show _ ∈ leadWords; decide)
    | exact ⟨by decide, rfl, rfl⟩
    | intro _
    | split
    | dsimp only

theorem only_acirLeadOut {s : Device} (hs : s.Only s0 g) :
    (acirLeadOut g s).Only s0 g := by
  unfold acirLeadOut
  repeat' first
    | with_reducible assumption
    | with_reducible rfl
    | with_reducible apply Device.only_cset
    | with_reducible apply Device.only_modAcir
    | (with_reducible show _ < _; decide)
    | (with_reducible show _ ∈ leadWords; decide)
    | exact ⟨by decide, rfl, rfl⟩
    | intro _
    | split
    | dsimp only

theorem only_acirClose {s : Device} (hs : s.Only s0 g) :
    (acirClose g s).Only s0 g := by
  unfold acirClose
  repeat' first
    | with_reducible assumption
    | with_reducible rfl
    | with_reducible apply only_acirFinish
    | with_reducible apply only_acirRequestAtClose
    | with_reducible apply only_acirStepClose
    | with_reducible apply only_acirLeadOut
    | with_reducible apply Device.only_modAcir
    | with_reducible apply only_acirBegin
    | with_reducible apply only_dropHeld
    | with_reducible apply only_acirMove
    | with_reducible apply Device.only_ite
    | (with_reducible show _ < _; decide)
    | (with_reducible show _ ∈ leadWords; decide)
    | exact ⟨by decide, rfl, rfl⟩
    | intro _
    | split
    | dsimp only

theorem Device.only_modLease {s : Device} (f : Lease → Lease) (hs : s.Only s0 g) :
    (Device.modLease s g f).Only s0 g := by
  unfold Device.modLease
  repeat' first
    | with_reducible assumption
    | with_reducible rfl
    | with_reducible apply Device.only_modCh
    | (with_reducible show _ < _; decide)
    | (with_reducible show _ ∈ leadWords; decide)
    | exact ⟨by decide, rfl, rfl⟩
    | intro _
    | split
    | dsimp only



theorem only_setMap (lo hi : Fld .pkg) (on : Bool) {s : Device} (h1 : lo.off ∈ mapWords ∧ lo.lo = 0 ∧ lo.hi = 31)
    (h2 : hi.off ∈ mapWords ∧ hi.lo = 0 ∧ hi.hi = 31) (hs : s.Only s0 g) : (setMap lo hi g on s).Only s0 g := by
  have hg := hs.1
  unfold setMap
  split
  · exact Device.only_mapBit _ _ _ h1.1 h1.2.1 h1.2.2 (by omega) hs
  · exact Device.only_mapBit _ _ _ h2.1 h2.2.1 h2.2.2 (by omega) hs

theorem only_engMode (m : ℕ) {s : Device} (hs : s.Only s0 g) :
    (engMode m g s).Only s0 g := by
  unfold engMode
  repeat' first
    | with_reducible assumption
    | with_reducible rfl
    | with_reducible apply Device.only_modLp
    | with_reducible apply only_setMode
    | with_reducible apply Device.only_ite
    | (with_reducible show _ < _; decide)
    | (with_reducible show _ ∈ leadWords; decide)
    | exact ⟨by decide, rfl, rfl⟩
    | intro _
    | split
    | dsimp only

theorem only_traceEvent (ev : ℕ) (cause : ℕ) (data : ℕ) {s : Device} (hs : s.Only s0 g) :
    (traceEvent ev cause data g s).Only s0 g := by
  unfold traceEvent
  repeat' first
    | with_reducible assumption
    | with_reducible rfl
    | with_reducible apply only_traceWrite
    | (with_reducible show _ < _; decide)
    | (with_reducible show _ ∈ leadWords; decide)
    | exact ⟨by decide, rfl, rfl⟩
    | intro _
    | split
    | dsimp only

theorem only_setEng (e : ℕ) {s : Device} (hs : s.Only s0 g) :
    (setEng e g s).Only s0 g := by
  unfold setEng
  repeat' first
    | with_reducible assumption
    | with_reducible rfl
    | with_reducible apply Device.only_cset
    | (with_reducible show _ < _; decide)
    | (with_reducible show _ ∈ leadWords; decide)
    | exact ⟨by decide, rfl, rfl⟩
    | intro _
    | split
    | dsimp only

theorem only_clearCounts {s : Device} (hs : s.Only s0 g) :
    (clearCounts g s).Only s0 g := by
  unfold clearCounts
  repeat' first
    | with_reducible assumption
    | with_reducible rfl
    | with_reducible apply Device.only_modEng
    | (with_reducible show _ < _; decide)
    | (with_reducible show _ ∈ leadWords; decide)
    | exact ⟨by decide, rfl, rfl⟩
    | intro _
    | split
    | dsimp only

theorem only_clearMaps {s : Device} (hs : s.Only s0 g) : (clearMaps g s).Only s0 g :=
  only_setMap _ _ _ (by decide) (by decide) (only_setMap _ _ _ (by decide) (by decide) hs)

theorem only_leaseRelease {s : Device} (hs : s.Only s0 g) :
    (leaseRelease g s).Only s0 g := by
  unfold leaseRelease
  repeat' first
    | with_reducible assumption
    | with_reducible rfl
    | with_reducible apply Device.only_modLease
    | with_reducible apply Device.only_cset
    | with_reducible apply only_clearMaps
    | (with_reducible show _ < _; decide)
    | (with_reducible show _ ∈ leadWords; decide)
    | exact ⟨by decide, rfl, rfl⟩
    | intro _
    | split
    | dsimp only

theorem only_suspendStep (cause : ℕ) {s : Device} (hs : s.Only s0 g) :
    (suspendStep cause g s).Only s0 g := by
  unfold suspendStep
  repeat' first
    | with_reducible assumption
    | with_reducible rfl
    | with_reducible apply only_engMode
    | with_reducible apply only_acirAbort
    | with_reducible apply only_traceEvent
    | with_reducible apply only_setEng
    | with_reducible apply Device.only_cset
    | with_reducible apply only_clearCounts
    | with_reducible apply Device.only_modEng
    | with_reducible apply only_leaseRelease
    | (with_reducible show _ < _; decide)
    | (with_reducible show _ ∈ leadWords; decide)
    | exact ⟨by decide, rfl, rfl⟩
    | intro _
    | split
    | dsimp only

theorem only_contactBlank {s : Device} (hs : s.Only s0 g) :
    (contactBlank g s).Only s0 g := by
  unfold contactBlank
  repeat' first
    | with_reducible assumption
    | with_reducible rfl
    | with_reducible apply Device.only_modLp
    | (with_reducible show _ < _; decide)
    | (with_reducible show _ ∈ leadWords; decide)
    | exact ⟨by decide, rfl, rfl⟩
    | intro _
    | split
    | dsimp only

theorem only_writeSetpoints {s : Device} (hs : s.Only s0 g) :
    (writeSetpoints g s).Only s0 g := by
  unfold writeSetpoints
  repeat' first
    | with_reducible assumption
    | with_reducible rfl
    | with_reducible apply only_engSetpoints
    | (with_reducible show _ < _; decide)
    | (with_reducible show _ ∈ leadWords; decide)
    | exact ⟨by decide, rfl, rfl⟩
    | intro _
    | split
    | dsimp only

theorem only_stepBegin (fresh : Bool) {s : Device} (hs : s.Only s0 g) :
    (stepBegin fresh g s).Only s0 g := by
  unfold stepBegin
  repeat' first
    | with_reducible assumption
    | with_reducible rfl
    | with_reducible apply only_acirRequest
    | with_reducible apply only_writeSetpoints
    | with_reducible apply Device.only_modEng
    | with_reducible apply Device.only_ite
    | (with_reducible show _ < _; decide)
    | (with_reducible show _ ∈ leadWords; decide)
    | exact ⟨by decide, rfl, rfl⟩
    | intro _
    | split
    | dsimp only

theorem only_runStep (whole : Bool) {s : Device} (hs : s.Only s0 g) :
    (runStep whole g s).Only s0 g := by
  unfold runStep
  repeat' first
    | with_reducible assumption
    | with_reducible rfl
    | with_reducible apply only_suspendStep
    | with_reducible apply only_traceEvent
    | with_reducible apply only_setEng
    | with_reducible apply Device.only_cset
    | with_reducible apply Device.only_modEng
    | with_reducible apply Device.only_modLp
    | with_reducible apply only_contactBlank
    | with_reducible apply only_clearCounts
    | with_reducible apply only_engMode
    | with_reducible apply only_followMode
    | with_reducible apply only_stepBegin
    | with_reducible apply Device.only_ite
    | (with_reducible show _ < _; decide)
    | (with_reducible show _ ∈ leadWords; decide)
    | exact ⟨by decide, rfl, rfl⟩
    | intro _
    | split
    | dsimp only

theorem only_budgetGrant {s : Device} (hs : s.Only s0 g) :
    (budgetGrant g s).Only s0 g := by
  unfold budgetGrant
  repeat' first
    | with_reducible assumption
    | with_reducible rfl
    | with_reducible apply Device.only_cset
    | with_reducible apply only_setMap
    | with_reducible apply only_setMode
    | with_reducible apply only_runStep
    | with_reducible apply Device.only_ite
    | (with_reducible show _ < _; decide)
    | (with_reducible show _ ∈ leadWords; decide)
    | exact ⟨by decide, rfl, rfl⟩
    | intro _
    | split
    | dsimp only

theorem only_budgetPause {s : Device} (hs : s.Only s0 g) :
    (budgetPause g s).Only s0 g := by
  unfold budgetPause
  repeat' first
    | with_reducible assumption
    | with_reducible rfl
    | with_reducible apply Device.only_cset
    | with_reducible apply only_setMap
    | with_reducible apply Device.only_pset
    | with_reducible apply only_logLead
    | with_reducible apply only_logEvent
    | with_reducible apply only_setMode
    | with_reducible apply Device.only_modLp
    | with_reducible apply only_acirAbort
    | with_reducible apply Device.only_modDue
    | with_reducible apply Device.only_ite
    | (with_reducible show _ < _; decide)
    | (with_reducible show _ ∈ leadWords; decide)
    | exact ⟨by decide, rfl, rfl⟩
    | intro _
    | split
    | dsimp only

theorem only_budgetRefuse {s : Device} (hs : s.Only s0 g) :
    (budgetRefuse g s).Only s0 g := by
  unfold budgetRefuse
  repeat' first
    | with_reducible assumption
    | with_reducible rfl
    | with_reducible apply only_setMap
    | with_reducible apply Device.only_pset
    | with_reducible apply only_traceEvent
    | with_reducible apply only_setEng
    | with_reducible apply Device.only_ite
    | (with_reducible show _ < _; decide)
    | (with_reducible show _ ∈ leadWords; decide)
    | exact ⟨by decide, rfl, rfl⟩
    | intro _
    | split
    | dsimp only

theorem only_decide1 {s : Device} (hs : s.Only s0 g) :
    (decide1 g s).Only s0 g := by
  unfold decide1
  repeat' first
    | with_reducible assumption
    | with_reducible rfl
    | with_reducible apply Device.only_modLease
    | with_reducible apply only_budgetGrant
    | with_reducible apply only_budgetPause
    | with_reducible apply only_budgetRefuse
    | with_reducible apply Device.only_ite
    | (with_reducible show _ < _; decide)
    | (with_reducible show _ ∈ leadWords; decide)
    | exact ⟨by decide, rfl, rfl⟩
    | intro _
    | split
    | dsimp only

theorem only_acirInOrder {f : ℕ → Device → Device} (hf : ∀ {t : Device}, t.Only s0 g → (f g t).Only s0 g) {s : Device}
    (hs : s.Only s0 g) : (acirInOrder f g s).Only s0 g := by
  unfold acirInOrder
  exact hf (Device.only_ite (fun _ => only_decide1 hs) fun _ => hs)

theorem only_acirEnvelopeZero {s : Device} (hs : s.Only s0 g) :
    (acirEnvelopeZero g s).Only s0 g := by
  unfold acirEnvelopeZero
  repeat' first
    | with_reducible assumption
    | with_reducible rfl
    | with_reducible apply only_acirIdle
    | with_reducible apply only_dropHeld
    | with_reducible apply Device.only_modAcir
    | with_reducible apply Device.only_ite
    | (with_reducible show _ < _; decide)
    | (with_reducible show _ ∈ leadWords; decide)
    | exact ⟨by decide, rfl, rfl⟩
    | intro _
    | split
    | dsimp only

theorem only_acirClrWrite (data : Sys2Proof.Word) {s : Device} (hs : s.Only s0 g) :
    (acirClrWrite g data s).Only s0 g := by
  unfold acirClrWrite
  repeat' first
    | with_reducible assumption
    | with_reducible rfl
    | with_reducible apply Device.only_modDue
    | with_reducible apply Device.only_ite
    | (with_reducible show _ < _; decide)
    | (with_reducible show _ ∈ leadWords; decide)
    | exact ⟨by decide, rfl, rfl⟩
    | intro _
    | split
    | dsimp only

theorem only_stepStart {s : Device} (hs : s.Only s0 g) :
    (stepStart g s).Only s0 g := by
  unfold stepStart
  repeat' first
    | with_reducible assumption
    | with_reducible rfl
    | with_reducible apply only_runStep
    | with_reducible apply only_followMode
    | with_reducible apply Device.only_ite
    | (with_reducible show _ < _; decide)
    | (with_reducible show _ ∈ leadWords; decide)
    | exact ⟨by decide, rfl, rfl⟩
    | intro _
    | split
    | dsimp only

theorem only_reseatOff {s : Device} (hs : s.Only s0 g) :
    (reseatOff g s).Only s0 g := by
  unfold reseatOff
  repeat' first
    | with_reducible assumption
    | with_reducible rfl
    | with_reducible apply Device.only_modEng
    | with_reducible apply Device.only_ite
    | (with_reducible show _ < _; decide)
    | (with_reducible show _ ∈ leadWords; decide)
    | exact ⟨by decide, rfl, rfl⟩
    | intro _
    | split
    | dsimp only

theorem only_clearChFault (mask : ℕ) {s : Device} (hs : s.Only s0 g) :
    (clearChFault mask g s).Only s0 g := by
  unfold clearChFault
  repeat' first
    | with_reducible assumption
    | with_reducible rfl
    | with_reducible apply Device.only_chReg
    | with_reducible apply Device.only_dieReg
    | with_reducible apply Device.only_pkgReg
    | with_reducible apply Device.only_cset
    | with_reducible apply Device.only_ite
    | (with_reducible show _ < _; decide)
    | (with_reducible show _ ∈ leadWords; decide)
    | exact ⟨by decide, rfl, rfl⟩
    | intro _
    | split
    | dsimp only

theorem only_leaseWait (paused : Bool) {s : Device} (hs : s.Only s0 g) :
    (leaseWait paused g s).Only s0 g := by
  unfold leaseWait
  repeat' first
    | with_reducible assumption
    | with_reducible rfl
    | with_reducible apply Device.only_modLease
    | with_reducible apply Device.only_cset
    | with_reducible apply only_clearMaps
    | with_reducible apply Device.only_ite
    | (with_reducible show _ < _; decide)
    | (with_reducible show _ ∈ leadWords; decide)
    | exact ⟨by decide, rfl, rfl⟩
    | intro _
    | split
    | dsimp only

theorem only_requestRun (paused : Bool) (ev : ℕ) {s : Device} (hs : s.Only s0 g) :
    (requestRun paused ev g s).Only s0 g := by
  unfold requestRun
  repeat' first
    | with_reducible assumption
    | with_reducible rfl
    | with_reducible apply Device.only_modEng
    | with_reducible apply only_leaseWait
    | with_reducible apply only_engMode
    | with_reducible apply only_setEng
    | with_reducible apply only_runStep
    | with_reducible apply only_leaseRelease
    | with_reducible apply Device.only_ite
    | (with_reducible show _ < _; decide)
    | (with_reducible show _ ∈ leadWords; decide)
    | exact ⟨by decide, rfl, rfl⟩
    | intro _
    | split
    | dsimp only

theorem only_reseatDone {s : Device} (hs : s.Only s0 g) :
    (reseatDone g s).Only s0 g := by
  unfold reseatDone
  repeat' first
    | with_reducible assumption
    | with_reducible rfl
    | with_reducible apply only_traceEvent
    | with_reducible apply only_clearChFault
    | with_reducible apply only_requestRun
    | with_reducible apply Device.only_modEng
    | with_reducible apply Device.only_ite
    | (with_reducible show _ < _; decide)
    | (with_reducible show _ ∈ leadWords; decide)
    | exact ⟨by decide, rfl, rfl⟩
    | intro _
    | split
    | dsimp only

theorem only_pulseLevel {s : Device} (hs : s.Only s0 g) :
    (pulseLevel g s).Only s0 g := by
  unfold pulseLevel
  repeat' first
    | with_reducible assumption
    | with_reducible rfl
    | with_reducible apply only_writeSetpoints
    | with_reducible apply Device.only_modEng
    | with_reducible apply Device.only_ite
    | with_reducible apply Device.only_mk
    | (with_reducible show _ < _; decide)
    | (with_reducible show _ ∈ leadWords; decide)
    | exact ⟨by decide, rfl, rfl⟩
    | intro _
    | split
    | dsimp only

theorem only_pulseCapture (k : ℕ) {s : Device} (hs : s.Only s0 g) :
    (pulseCapture k g s).Only s0 g := by
  unfold pulseCapture
  repeat' first
    | with_reducible assumption
    | with_reducible rfl
    | with_reducible apply Device.only_modEng
    | with_reducible apply only_traceWrite
    | with_reducible apply Device.only_spend
    | with_reducible apply Device.only_ite
    | (with_reducible show _ < _; decide)
    | (with_reducible show _ ∈ leadWords; decide)
    | exact ⟨by decide, rfl, rfl⟩
    | intro _
    | split
    | dsimp only

theorem only_ocvSample {s : Device} (hs : s.Only s0 g) :
    (ocvSample g s).Only s0 g := by
  unfold ocvSample
  repeat' first
    | with_reducible assumption
    | with_reducible rfl
    | with_reducible apply only_traceWrite
    | with_reducible apply Device.only_modEng
    | with_reducible apply Device.only_ite
    | (with_reducible show _ < _; decide)
    | (with_reducible show _ ∈ leadWords; decide)
    | exact ⟨by decide, rfl, rfl⟩
    | intro _
    | split
    | dsimp only

theorem only_seqCmd (bit : ℕ) {s : Device} (hs : s.Only s0 g) :
    (seqCmd bit g s).Only s0 g := by
  unfold seqCmd
  repeat' first
    | with_reducible assumption
    | with_reducible rfl
    | with_reducible apply Device.only_modDue
    | (with_reducible show _ < _; decide)
    | (with_reducible show _ ∈ leadWords; decide)
    | exact ⟨by decide, rfl, rfl⟩
    | intro _
    | split
    | dsimp only

end Sys2Proof.Machine
end

