-- ==== Sys2Proof/Tests/Slice0.lean ====
section
/-! SUPPORT. The author's own tests: states that meet the hypotheses of the statements, clause by clause, checks against
values the manual gives, and the smoke test of WellFormed. -/

namespace Sys2Proof.Tests

set_option Elab.async false

open Sys2Proof.Machine

/-! States. -/

/-- A die in service. -/
def upDie (x : DieSt) : DieSt :=
  { x with up := true, husk := false, ctl := true, seeded := true, decided := true, booked := some 0, hasDie := true, hasChan := List.replicate 8 true
           link := { x.link with trained := true, heardAt := some 0 } }
/-- A part of n dies in service under a package state, its image loaded and VBUS good. -/
def part (n st : Nat) : Device :=
  let d := { Device.reset with nDies := n, dies := Device.reset.dies.map upDie, line := { Line.reset with listen := true } }
  ((d.pset PKG_STATE_STATE st).pset IMAGE_STAT_VALID 1).pset PGOOD_CTL_GOOD 1
/-- The same after a long time. -/
def late (d : Device) : Device :=
  { d with
    frame := 100000000, clk := 2600
    dies := d.dies.map fun x => { x with frame := 100000000, clk := 2600, tick := 2 ^ 45, nco := { x.nco with count := 2 ^ 24 } }
    line := { d.line with nco := { d.line.nco with count := 2 ^ 24, phase := 2 ^ 40 }, meter := 2 ^ 70 } }
/-- A line of the given count and phase (2^-48 cycle). -/
def atPhase (count phase : Nat) (d : Device) : Device :=
  { d with line := { d.line with nco := { d.line.nco with count := count, phase := phase } } }
/-- A step of a type, with its parameters and its termination words. -/
def stepOf (typ p1 p2 p3 : Nat) (terms : List Nat) : StepRec :=
  { typ := typ, range := 0, resume := 0, seamless := false, suspEnd := false, twOff := false, noCkpt := false, nterm := 0
    retries := 0, jump := 0, p1 := p1, p2 := p2, p3 := p3, terms := terms }
/-- A channel of die 1 running recipe 0 with one step, in an engine state. -/
def running (g engine : Nat) (r : StepRec) (d : Device) : Device :=
  ((d.cset g CH_STAT_ENGINE engine).cset g CH_NTC_BAND 2).modDie (g / 8) fun x =>
    { x with recipes := [{ sect := [], id := 0, tag := 0#32, crc := 0#32, header := [], bytes := [], steps := [r] }] }
/-- A request of a valve. -/
def request (valve : Nat) (on : Bool) (pt : Nat) : VReq :=
  { valve := valve, on := on, pt := pt, order := 0, due := false, deferred := false, seatCh := none, acceptAt := 0 }
/-- A flash image for two dies: the first section without entries, and for die 1 a section that sets a channel word, or nothing. -/
def imageBytes (sect : Bool) : List Byte :=
  let header : List Byte := [0x47#8, 0x4C#8, 0x53#8, 0x48#8, 1#8, 0#8, 2#8, 0#8] ++ leBytes 4 (if sect then 96 else 76) ++ zeros 16
  let sectionBytes (head body : List Byte) : List Byte := head ++ leBytes 4 (crc32 (head ++ body)).toNat ++ body
  header ++ leBytes 4 (crc32 header).toNat ++ sectionBytes [1#8, 0xFF#8, 0xFF#8, 0#8, 32#8, 0#8, 0#8, 0#8] (zeros 32) ++
    (if sect then sectionBytes [2#8, 1#8, 0xFF#8, 0#8, 8#8, 0#8, 0#8, 0#8] ([0x21#8, 0#8, 0#8, 0#8, 8#8, 0#8, 0#8, 0#8]) else [])
/-- A part whose flash holds bytes from address 0. -/
def withFlash (l : List Byte) (d : Device) : Device :=
  d.modNvm fun n => { n with flashId := 0x114001, flash := (l.zipIdx.map fun p => (p.2, p.1)).filter fun p => p.2 != 0xFF#8 }
/-- A state with no command waiting. -/
def st (d : Device) : State := ⟨d, []⟩

/-- The test behind Sound. -/
def soundB (d : Device) : Bool :=
  rfWf d.regs && rfWf d.shadow && rfWf d.force && decide (d.nvm.flash.Pairwise fun p q => p.1 < q.1) && d.nvm.flash.all (·.2 != 0xFF#8) &&
    decide (d.nvm.buf.Pairwise fun p q => p.1 < q.1) && d.nvm.buf.all (·.2 != 0#8) && d.chans.length == 64 && d.dies.length == 8 &&
    d.ledger.length == 64 && decide (d.host.posting.length ≤ 16) && (d.nDies == 2 || d.nDies == 4 || d.nDies == 8)

theorem sound_of {d : Device} (h : soundB d = true) : Sound (st d) := by
  simp only [soundB, Bool.and_eq_true, Bool.or_eq_true, decide_eq_true_eq, List.all_eq_true, bne_iff_ne, ne_eq, beq_iff_eq] at h
  obtain ⟨⟨⟨⟨⟨⟨⟨⟨⟨⟨⟨h1, h2⟩, h3⟩, h4⟩, h5⟩, h6⟩, h7⟩, h8⟩, h9⟩, h10⟩, h11⟩, h12⟩ := h
  exact ⟨⟨h1, h2, h3, ⟨h4, h5⟩, ⟨h6, h7⟩, rfl, h8, h9, h10, h11⟩, by rcases h12 with (h | h) | h <;> simp [st, h]⟩


/-! Values the manual gives. -/

/-- The ASCII string "123456789". -/
def digits : List Byte := (List.range 9).map fun i => BitVec.ofNat 8 (0x31 + i)
/-- The check values of the three CRCs: R366 and R418 state those of the CRC-32 and the CRC-8, and that of R348's CRC-16 follows
from its polynomial, initial value and order. -/
theorem test_crcs : crc32 digits = 0xCBF43926#32 ∧ crc16 digits = 0x29B1 ∧ crc8 (digits.map (·.toNat)) = 0xF4 := by decide +kernel
/-- 14_otp_patches.md, the example: data 0x0000_001B has the check field 0x48. -/
theorem test_otp_check_field : codeOf 0x1B / 2 ^ 32 = 0x48 ∧ codeOf 0x1B % 2 ^ 32 = 0x1B := by decide +kernel
/-- Block addresses of the examples: channels 19, 45 and 52, die 6. -/
theorem test_block_addresses : chAddr 19 0 = 0x4980 ∧ chAddr 45 0 = 0x5680 ∧ chAddr 52 0x4C = 0x5A4C ∧ dieAddr 6 0 = 0x2C00 := by decide +kernel
/-- 08_pulse_outputs_tallies.md, the example: a residue of 300 nAh of a quantum of 1,000 reads 9,830. -/
theorem test_resq_reads_9830 : ∀ up : Bool, resqOf up (300 * 2 ^ 64 * 2 ^ 15) (1000 * 2 ^ 64) = 9830 := by decide +kernel
/-- A part with the example's conversion efficiencies. -/
def busPart (g typ : Nat) (iset : Int) (vset vprec : Nat) (n : Nat) : Device :=
  ((((running g 3 (stepOf typ 0 0 0 [0, 0, 0, 0]) (part n Pkg.run)).setReg (chAddr g 0x08) (BitVec.ofInt 32 iset)).setReg
    (chAddr g 0x09) (BitVec.ofNat 32 vset)).setReg (chAddr g 0x13) (BitVec.ofNat 32 vprec)).setFrc 0x21 0xEB85EB85#32
/-- 10_bus_budget.md, the example: the demands of channels 2, 9 and 17. -/
theorem test_bus_demands : demandOf (busPart 2 2 (-50000) 0 37000000 4) 2 = -1655 ∧
    demandOf (busPart 9 4 60000 4200000 0 4) 9 = 2740 ∧ demandOf (busPart 17 1 100000 0 35000000 4) 17 = 3914 := by decide +kernel
/-- 05_charge_energy_accumulation.md, the example near zero current, step 3: five weak frames reach −8 and transfer. -/
theorem test_chaff_transfers : ([2, 1, 2, 2, 1].foldl (fun (a : Acc) q => { a with fq := q }.book 0 8) { Acc.reset with dir := .out, rawqOut := 1000 }) =
    { Acc.reset with dir := .inn, rawqOut := 1000, rawqIn := 8, epqOut := 0, epqIn := 8 } := by decide +kernel
/-- The same example's table: the calibrated readings after the run. -/
theorem test_calibrated_readings :
    let a := { Acc.reset with rawqIn := 1179713536, rawqOut := 1179647999, epqIn := 1179713536, epqOut := 1179647999 }.formCal
      ⟨0xD9038E39, 32⟩ ⟨0xA6AAAAAB, 52⟩
    a.calqIn = 0x3B9BA303 ∧ a.calqOut = 0x3B9AC9FF ∧ a.calqNet = 0xD904 ∧ a.fracQ = 0x673C8E39 := by decide +kernel

/-! Well-formedness: for each check a term it refuses. -/

theorem test_wf_host_wr : (Instr.hostWr 0x8000#16 [] 88).wf = false := by decide +kernel
theorem test_wf_unknown_command : (Instr.hostUnknownCommand 0x3A#8).wf = false := by decide +kernel
theorem test_wf_clock_levels : (Instr.accumulateClock ⟨3 :: List.replicate 63 0, List.replicate 64 0, List.replicate 8 0, List.replicate 8 0⟩).wf = false ∧
    (Instr.accumulateClock ⟨List.replicate 63 0, List.replicate 64 0, List.replicate 8 0, List.replicate 8 0⟩).wf = false := by decide +kernel
theorem test_wf_fast_codes : (Instr.fastSample (List.replicate 64 4096)).wf = false ∧ (Instr.fastSample (List.replicate 63 0)).wf = false := by decide +kernel
theorem test_wf_sar_code : (Instr.sarConversion 0 4096).wf = false := by decide +kernel
theorem test_wf_seeds : (Instr.seedingEnd 0 []).wf = false := by decide +kernel
theorem test_wf_abort_code : (Instr.acirWindowAbort 0 6).wf = false ∧ (Instr.acirWindowAbort 0 0).wf = false := by decide +kernel
theorem test_wf_glean_cells : (Instr.gleanSourceEvaluation 0 ⟨0, 0, []⟩).wf = false ∧ (Instr.gleanForcedEvaluation 0 ⟨0, 0, []⟩).wf = false := by decide +kernel
theorem test_wf_otp_reads : (Instr.otpProgram 0 200#9 0#32 [⟨2 ^ 39, 0, 0⟩]).wf = false ∧ (Instr.otpReinforce 0 200#9 [⟨0, 2 ^ 39, 0⟩]).wf = false ∧
    (Instr.otpLock 0 2#2 false [⟨0, 0, 2 ^ 39⟩]).wf = false := by decide +kernel
theorem test_wf_cell_stamp : (Instr.cellFrame 1 0 ⟨5120, true⟩).wf = false ∧ (Instr.cellAngle 1 0 ⟨5120, true⟩).wf = false ∧ (Instr.cellSched 1 0 ⟨5120, true⟩).wf = false := by decide +kernel
theorem test_wf_lead_die : ([Instr.cellWrite 0, .cellRead 0 0#16, .cellResp 0, .cellGroup 0, .cellLedger 0, .cellCkpt 0, .cellIdle 0, .portTrainingDone 0,
    .portSilent 0 true, .dieRecoveryDone 0, .recoveryTimeout 0, .recoveryStable 0, .leadHoldExpiry 0, .cellFrame 0 0 ⟨0, true⟩].any Instr.wf) = false := by decide +kernel
theorem test_wf_accepts : ([Instr.snapTake, .cellWrite 1, .sarConversion 7 4095, .acirWindowAbort 63 5, .hostWr 0x2000#16 [(0#32, 0#8)] 56,
    .cellFrame 7 0 ⟨5119, true⟩].all Instr.wf) = true := by decide +kernel

/-! The queue and the table's bits. -/

theorem test_idle_step : step State.reset = .next State.reset := rfl
theorem test_no_word_spells_a_command : (List.range 64).all (fun w => (decodeTableWord 32 w).isNone) = true := by decide +kernel

/-! Hypotheses on a next state. -/

theorem hyps_CanonicalKeptByEveryStep : (part 2 Pkg.run).Canonical 2 ∧ ∃ t, step ⟨part 2 Pkg.run, [.snapTake]⟩ = .next t :=
  ⟨(sound_of (d := part 2 Pkg.run) (by decide +kernel)).1, _, rfl⟩
theorem hyps_OnlyClockAndBoundaryMoveTheClock : ∃ t, exec .frameBoundary (st (part 2 Pkg.run)) = .next t := ⟨_, rfl⟩
theorem hyps_ChannelCommandsTouchNoOtherChannel : chanOf (.accClear 15 0#32) = some 15 ∧
    ∃ t, exec (.accClear 15 0#32) (st (part 2 Pkg.run)) = .next t := ⟨rfl, _, rfl⟩
theorem hyps_PackageStateMovesOnlyByItsEvents : ∃ t, exec .vsysCollapse (st (part 2 Pkg.run)) = .next t ∧
    pkgState t.dev ≠ pkgState (part 2 Pkg.run) := ⟨_, rfl, by decide +kernel⟩

/-! The hypotheses of the statements, clause by clause. -/

def w08a : Device := part 2 Pkg.run
def w08b : Device := part 2 Pkg.keep
theorem hyps_FramesWithoutWords :
    (answers w08a = true ∧ 23 < 24 ∧ (Instr.hostUnknownCommand 0x7F#8).wf = true) ∧
    (answers w08b = false) := by decide +kernel

def w08c : Device := part 2 Pkg.run
theorem hyps_StatusByteBits :
    (answers w08c = true ∧ (Instr.hostUnknownCommand 0x7F#8).wf = true) := by decide +kernel

def w09a : Device := (part 2 Pkg.run).pset HOST_CTL_CRC_EN 1
def w09b : Device := part 2 Pkg.run
theorem hyps_ReadFramesShiftOutTheWord :
    (answers w09b = true ∧ (0x7FFF#16).toNat < 0x8000 ∧ (0x7FFF#16).toNat ≠ 0xA3 ∧ w09b.pbit HOST_CTL_CRC_EN = false) ∧
    (answers w09a = true ∧ (0xA2#16).toNat < 0x8000 ∧ (0xA2#16).toNat ≠ 0xA3 ∧ w09a.pbit HOST_CTL_CRC_EN = true) ∧
    (answers w09b = true ∧ 0x8000 ≤ (0x8000#16).toNat ∧ w09b.pbit HOST_CTL_CRC_EN = false) := by decide +kernel

def w10a : Device := (part 2 Pkg.run).modHost fun h => { h with posting := List.replicate 16 (dieAddr 1 0, 0#32) }
def w10b : Device := (part 2 Pkg.run).modHost fun h => { h with posting := List.replicate 15 (dieAddr 1 0, 0#32) }
def w10c : Device := part 2 Pkg.load
theorem hyps_WriteFramesWriteOrPost :
    (answers w10a = true ∧ w10a.pbit HOST_CTL_CRC_EN = false ∧ (0x7FFF#16).toNat < 0x8000 ∧ ownerOf (0x7FFF#16).toNat = 0 ∧ (w10a.die 0).recov.active = false) ∧
    (answers w10b = true ∧ w10b.pbit HOST_CTL_CRC_EN = false ∧ ownerOf (0x2200#16).toNat = 1 ∧ 1 < w10b.nDies ∧
      Pkg.load < pkgState w10b ∧ w10b.host.posting.length = 15) ∧
    (answers w10a = true ∧ w10a.pbit HOST_CTL_CRC_EN = false ∧ ownerOf (0x2200#16).toNat = 1 ∧ 1 < w10a.nDies ∧
      Pkg.load < pkgState w10a ∧ w10a.host.posting.length = 16 ∧ w10a.pbit HOST_STAT_REFUSED = false) ∧
    (answers w10c = true ∧ w10c.pbit HOST_CTL_CRC_EN = false ∧ ownerOf (0x2200#16).toNat = 1 ∧ 1 < w10c.nDies ∧ pkgState w10c ≤ Pkg.load ∧ ¬ ReqWord (0x2200#16).toNat) := by decide +kernel

def w11a : Device := part 2 Pkg.run
def w11b : Device := w11a.modDie 1 fun x => { x with husk := true }
def w11d : Device := w11a.modRecov 1 fun x => { x with active := true }
def w11c : Device := w11a.modDie 0 fun x => { x with up := false }
theorem hyps_RegisterWritesObeyTheirDie_1 :
    (Sound (st w11a) ∧ Sound (st w11c)) ∧
    (rowAt (0x7FFF#16).toNat = none ∧ (0x7FFF#16).toNat < 0x8000 ∧ Quiet w11a (ownerOf (0x7FFF#16).toNat) ∧ writeBarred (0x7FFF#16).toNat w11a = false ∧
      (w11a.die (ownerOf (0x7FFF#16).toNat)).up = true ∧ (w11a.die (ownerOf (0x7FFF#16).toNat)).recov.active = false) ∧
    (¬ ownerOf (0x2400#16).toNat < w11a.nDies) ∧
    ((w11c.die 0).up = false) :=
  ⟨⟨sound_of (by decide +kernel), sound_of (by decide +kernel)⟩, by decide +kernel⟩

theorem hyps_RegisterWritesObeyTheirDie_2 :
    (Sound (st w11a) ∧ Sound (st w11b)) ∧
    ((w11b.die 0).up = true ∧ 0x2000 ≤ (0x2200#16).toNat ∧ (0x2200#16).toNat < 0x6000 ∧ ownerOf (0x2200#16).toNat = 1 ∧ 1 < w11b.nDies ∧
      Quiet w11b 1 ∧ ¬ ReqWord (0x2200#16).toNat ∧ (w11b.die 1).up = true ∧ (w11b.die 1).husk = true ∧
      (locate (0x2200#16).toNat).isSome = true ∧ (w11b.die 1).recov.active = false) ∧
    ((w11a.die 0).up = true ∧ Quiet w11a 0) ∧
    ((w11a.die (ownerOf (0x23FF#16).toNat)).up = true ∧ ownerOf (0x23FF#16).toNat < w11a.nDies ∧ ¬ ReqWord (0x23FF#16).toNat) :=
  ⟨⟨sound_of (by decide +kernel), sound_of (by decide +kernel)⟩, by decide +kernel⟩

theorem hyps_RegisterWritesObeyTheirDie_3 :
    (Sound (st w11a) ∧ Sound (st w11d)) ∧
    ((w11d.die 0).up = true ∧ ownerOf (0x2263#16).toNat = 1 ∧ 1 < w11d.nDies ∧ ¬ ReqWord (0x2263#16).toNat ∧ (w11d.die 1).recov.active = true ∧
      Pkg.load < pkgState w11d ∧ w11d.host.posting.length < 16) ∧
    (ownerOf (0x2263#16).toNat = 1 ∧ (rowAt (0x2263#16).toNat).isSome = true ∧ Quiet w11a 1 ∧ writeBarred (0x2263#16).toNat w11a = false ∧ (w11a.die 1).up = true) ∧
    (ownerOf (0x0034#16).toNat = 0 ∧ (rowAt (0x0034#16).toNat).isSome = true ∧ Quiet w11a 0 ∧ writeBarred (0x0034#16).toNat w11a = false ∧
      w1cMask (0x0034#16).toNat ≠ 0) :=
  ⟨⟨sound_of (by decide +kernel), sound_of (by decide +kernel)⟩, by decide +kernel⟩

def w12a : Device := (part 2 Pkg.qualify).pset LEDGER_STAT_BACK_OK 1
def w12b : Device := part 2 Pkg.test
def w12c : Device := part 2 Pkg.handover
def w12d : Device := part 2 Pkg.hold
theorem hyps_KeyedHostControls :
    (((w12a.die 0).up = true ∧ pkgState w12a = Pkg.qualify) ∧ ((w12d.die 0).up = true ∧ pkgState w12d = Pkg.hold)) ∧
    ((w12b.die 0).up = true ∧ pkgState w12b ≠ Pkg.qualify ∧ pkgState w12b ≠ Pkg.hold ∧ pkgState w12b = Pkg.test) ∧
    ((w12a.die 0).up = true ∧ pkgState w12a ≠ Pkg.test ∧ pkgState w12a ≠ Pkg.handover) ∧
    ((w12c.die 0).up = true ∧ pkgState w12c = Pkg.handover) ∧
    ((w12a.die 0).up = true ∧ w12a.pget LEDGER_STAT_BACK_OK = 1 ∧ w12b.pget LEDGER_STAT_BACK_OK = 0) ∧
    ((w12a.die 0).up = true ∧ 0xC2#8 ≠ 0xC3#8) := by decide +kernel

def w13a : Device := { part 2 Pkg.run with snap := { Snap.reset with armedPt := some 5, bPt := 5 } }
def w13b : Device := w13a.pset SNAP_CTL_REPEAT 1
def w13c : Device := { part 2 Pkg.run with snap := { Snap.reset with armedPt := some 6, bPt := 5 } }
def w13d : Device := { part 2 Pkg.run with snap := { Snap.reset with armedPt := some 4, bPt := 5 } }
theorem hyps_SnapshotsArmTakeAndFire :
    ((w13a.die 0).up = true ∧ w13a.snap.armedPt = some 5 ∧ 5 ≤ w13a.snap.bPt ∧ w13a.snap.last ≠ some w13a.snap.bFrame ∧
      (∀ d, d < w13a.nDies → snapAble (w13a.die d) = true) ∧ w13a.pget SNAP_CTL_REPEAT = 0) ∧
    ((w13b.die 0).up = true ∧ w13b.snap.armedPt = some 5 ∧ 5 ≤ w13b.snap.bPt ∧ w13b.snap.last ≠ some w13b.snap.bFrame ∧
      (∀ d, d < w13b.nDies → snapAble (w13b.die d) = true) ∧ w13b.pget SNAP_CTL_REPEAT = 1) ∧
    ((w13c.snap.armedPt = some 6 ∧ w13c.snap.bPt < 6) ∧ (w13d.snap.armedPt = some 4 ∧ 4 ≤ w13d.snap.bPt)) := by decide +kernel

def w14a : Device := (part 2 Pkg.run).setFrc LINE_CFG_SYN_FORCE.off (LINE_CFG_SYN_FORCE.put 1 0)
theorem hyps_SynForceIgnoresLsync :
    (w14a.pfrc LINE_CFG_SYN_FORCE = 1 ∧ lineState w14a = LineState.synthetic) := by decide +kernel

def w15a : Device := { part 2 Pkg.run with frame := 80, clk := 64, line := { Line.reset with listen := true, lastQual := some 0 } }
def w15b : Device := w15a.pset LINE_STAT_STATE LineState.acquire
def w15c : Device := w15b.modLine fun l => { l with nco := { l.nco with phase := 2 ^ 45 } }
def w15d : Device := w15a.pset LINE_STAT_STATE LineState.locked
def w15e : Device := w15d.modLine fun l => { l with nco := { l.nco with phase := 2 ^ 41 } }
def w15f : Device := { (part 2 Pkg.run).pset LINE_STAT_STATE LineState.holdover with frame := 240, clk := 64, line := { Line.reset with listen := true, cands := [6553600, 3276800] } }
def w15h : Device := w15a.modLine fun l => { l with level := true }
def w15g : Device := w15f.pset LINE_STAT_STATE LineState.synthetic
theorem hyps_LsyncEdgesQualifyAndLock :
    (lsyncHeeded w15a = true ∧ 63 < 64 ∧ 3276800 + 8 * 63 ≤ 8 * w15a.now ∧ 8 * w15a.now < 3276801 + 8 * 64) ∧
    (lsyncHeeded w15h = true ∧ 64 ≤ 64 ∧ false ≠ w15h.line.level ∧ 3276800 + 512 ≤ 8 * w15h.now ∧ 8 * w15h.now < 3276800 + 520 ∧ false ≠ (w15h.pfrc LINE_CFG_POL == 0)) ∧
    (lsyncHeeded w15a = true ∧ 64 ≤ 64 ∧ true ≠ w15a.line.level ∧ true = (w15a.pfrc LINE_CFG_POL == 0) ∧ edgeQualifies 3276800 w15a = false ∧ 3276800 + 512 ≤ 8 * w15a.now ∧ 8 * w15a.now < 3276800 + 520) ∧
    (lsyncHeeded w15f = true ∧ true = (w15f.pfrc LINE_CFG_POL == 0) ∧ edgeQualifies 9830400 w15f = true ∧ lineState w15f = LineState.holdover ∧ 9830400 + 512 ≤ 8 * w15f.now ∧ 8 * w15f.now < 9830400 + 520) ∧
    (lsyncHeeded w15g = true ∧ true = (w15g.pfrc LINE_CFG_POL == 0) ∧ edgeQualifies 9830400 w15g = true ∧ lineState w15g = LineState.synthetic) ∧
    (lsyncHeeded w15b = true ∧ true = (w15b.pfrc LINE_CFG_POL == 0) ∧ edgeQualifies 3276800 w15b = true ∧ lineState w15b = LineState.acquire ∧
      (signedOf 32 (fieldOf 32 (-(angleAtTick w15b 3276800 : Int)))).natAbs ≤ 2 ^ 22) ∧
    (lsyncHeeded w15c = true ∧ edgeQualifies 3276800 w15c = true ∧ lineState w15c = LineState.acquire ∧
      2 ^ 22 < (signedOf 32 (fieldOf 32 (-(angleAtTick w15c 3276800 : Int)))).natAbs) ∧
    (3276800 + 512 ≤ 8 * w15d.now ∧ 8 * w15d.now < 3276800 + 520 ∧ w15d.line.level = false) ∧
    (lsyncHeeded w15d = true ∧ edgeQualifies 3276800 w15d = true ∧ lineState w15d = LineState.locked) ∧
    (lsyncHeeded w15e = true ∧ edgeQualifies 3276800 w15e = true ∧ lineState w15e = LineState.locked ∧
      2 ^ 24 < (signedOf 32 (fieldOf 32 (-(angleAtTick w15e 3276800 : Int)))).natAbs) := by decide +kernel

def w16a : Device := part 2 Pkg.run
def w16b : Device := (late (part 2 Pkg.run)).pset LINE_STAT_STATE LineState.locked
def w16c : Device := ((late (part 2 Pkg.run)).pset LINE_STAT_STATE LineState.acquire).pset LINE_STAT_EVER_LOCKED 1
def w16d : Device := (late (part 2 Pkg.run)).pset LINE_STAT_STATE LineState.acquire
theorem hyps_LineTimeoutsAndWords :
    (timeoutDue w16a = false ∧ lineState w16a = LineState.synthetic) ∧
    (timeoutDue w16b = true ∧ lineState w16b = LineState.locked) ∧
    (timeoutDue w16c = true ∧ lineState w16c = LineState.acquire ∧ w16c.pget LINE_STAT_EVER_LOCKED = 1) ∧
    (timeoutDue w16d = true ∧ lineState w16d = LineState.acquire ∧ w16d.pget LINE_STAT_EVER_LOCKED = 0) := by decide +kernel

def w17a : Device := (part 2 Pkg.run).modDie 1 fun x => { x with staging := List.replicate 15 ⟨0, 0, 0, 0, 0, 0, 0, 0, 0⟩ }
def w17b : Device := ((part 2 Pkg.run).modDie 1 fun x => { x with staging := List.replicate 16 ⟨0, 0, 0, 0, 0, 0, 0, 0, 0⟩ }).pset LEDGER_STAT_COUNT 64
def w17c : Device := (((part 2 Pkg.run).pset LEDGER_STAT_COUNT 63).setReg 4 8#32).setReg 5 0x10#32
def w17d : Device := { ((part 2 Pkg.run).pset IRQ_SOURCE_VALID 1).pset IRQ_SOURCE_CAT 5 with irqAt := 1 }
def w17e : Device := ((part 2 Pkg.run).pset IRQ_SOURCE_VALID 1).pset IRQ_SOURCE_CAT 5
theorem hyps_EventsEnterTheLedger :
    (Sound (st w17a) ∧ Sound (st w17b) ∧ Sound (st w17c) ∧ Sound (st w17d) ∧ Sound (st w17e)) ∧
    (11 < 12 ∧ 1 < 8 ∧ 1 ≠ 0 ∧ (w17a.die 1).staging.length < 16) ∧
    (11 < 12 ∧ 1 < 8 ∧ 1 ≠ 0 ∧ 16 ≤ (w17b.die 1).staging.length) ∧
    (w17c.pget LEDGER_STAT_COUNT < 64 ∧ 64 ≤ w17b.pget LEDGER_STAT_COUNT) ∧
    ((irqStatus w17c).testBit 3 = true ∧ 3 < 12 ∧ 7 < 8 ∧ 255 < 256) ∧
    ((irqStatus w17c).testBit 4 = false ∧ (irqMask w17c).testBit 4 = true ∧ 4 ≠ 9) ∧
    ((irqStatus w17c).testBit 2 = false ∧ (irqMask w17c).testBit 2 = false ∧ w17c.pget IRQ_SOURCE_VALID = 0) ∧
    ((irqStatus w17d).testBit 2 = false ∧ (irqMask w17d).testBit 2 = false ∧ w17d.pget IRQ_SOURCE_VALID = 1 ∧ w17d.irqAt ≠ w17d.now) ∧
    ((irqStatus w17e).testBit 9 = false ∧ w17e.pget IRQ_SOURCE_VALID = 1 ∧ w17e.irqAt = w17e.now) :=
  ⟨⟨sound_of (by decide +kernel), sound_of (by decide +kernel), sound_of (by decide +kernel),
   sound_of (by decide +kernel), sound_of (by decide +kernel)⟩, by decide +kernel⟩

def w18a : Device := (part 2 Pkg.run).modLink 1 fun l => { l with wait := [⟨6, false, 2, .word (dieAddr 1 0) 0#32, 3⟩, ⟨7, false, 7, .ask 0, 4⟩], upWait := [⟨9, false, 3, .commit, 4⟩] }
def w18b : Device := (part 2 Pkg.run).modLink 1 fun l => { l with trained := false }
theorem hyps_CellsAreAcknowledgedOrRepeated :
    (Sound (st w18a) ∧ Sound (st w18b)) ∧
    (1 < w18a.nDies ∧ 1 ≠ 0 ∧ arrives w18a 1 = true ∧ (w18a.die 1).link.trained = true) ∧
    (1 < w18b.nDies ∧ 1 ≠ 0 ∧ arrives w18b 1 = false ∧ (w18b.die 1).up = true ∧ (w18b.die 1).link.trained = false) ∧
    (reaches w18a 1 = true ∧ (w18a.die 1).link.wait.find? (fun c => c.seq == (2#3).toNat) = some ⟨6, false, 2, .word (dieAddr 1 0) 0#32, 3⟩) ∧
    ((∀ c ∈ (w18a.die 1).link.wait, c.seq ≠ (3#3).toNat) ∧ (w18a.die 1).link.upWait.find? (fun c => c.seq == (3#3).toNat) = some ⟨9, false, 3, .commit, 4⟩) ∧
    ∀ c ∈ (w18a.die 1).link.wait ++ (w18a.die 1).link.upWait, c.seq ≠ (4#3).toNat ∧
    (((w18a.die 1).link.wait ++ (w18a.die 1).link.upWait).find? (fun c => c.seq == (2#3).toNat && c.typ == (6#4).toNat) =
      some ⟨6, false, 2, .word (dieAddr 1 0) 0#32, 3⟩ ∧ 3 < 4) ∧
    (((w18a.die 1).link.wait ++ (w18a.die 1).link.upWait).find? (fun c => c.seq == (3#3).toNat && c.typ == (9#4).toNat) =
      some ⟨9, false, 3, .commit, 4⟩ ∧ 4 ≤ 4) ∧
    (∀ c ∈ (w18a.die 1).link.wait ++ (w18a.die 1).link.upWait, c.seq = (2#3).toNat → c.typ ≠ (5#4).toNat) ∧
    (arrives w18b 1 = false ∧ reaches w18b 1 = false) :=
  ⟨⟨sound_of (by decide +kernel), sound_of (by decide +kernel)⟩, by decide +kernel⟩

def w19a : Device := part 2 Pkg.run
def w19b : Device := w19a.modLink 1 fun l => { l with trained := false }
def w19c : Device := { w19a with bcast := [⟨.snap, [0], 0, 16, 7⟩], snap := { Snap.reset with last := some 7, slots := [1] } }
def w19d : Device := { w19a with bcast := [⟨.frame, [1], 0, 0, 0⟩] }
def w19e : Device := { w19a with bcast := [⟨.angle, [1], 0, 0, 0⟩] }
def w19f : Device := { w19a with bcast := [⟨.snap, [1], 0, 0, 0⟩] }
def w19g : Device := { w19a with bcast := [⟨.sched, [1], 0, 0, 1⟩] }
theorem hyps_BroadcastsActAtTheirStamp :
    (Sound (st w19a) ∧ Sound (st w19b) ∧ Sound (st w19c) ∧ Sound (st w19d) ∧ Sound (st w19e) ∧ Sound (st w19f) ∧
      Sound (st w19g)) ∧
    (1 < w19a.nDies ∧ 1 ≠ 0 ∧ reaches w19a 1 = true ∧ w19a.now + 16 ≤ 0 * 5120 + 16) ∧
    (1 < w19a.nDies ∧ ¬ w19a.now + 16 ≤ 0 * 5120 + 15) ∧
    (1 < w19b.nDies ∧ reaches w19b 1 = false) ∧
    (reaches w19c 1 = true ∧ w19c.bcast.find? (fun b => b.kind == .snap && b.arg == 7) = some ⟨.snap, [0], 0, 16, 7⟩ ∧ w19c.now + 16 ≤ 0 * 5120 + 16) ∧
    (reaches w19c 1 = true ∧ w19c.snap.last ≠ some 6 ∧ w19c.snap.last = some 7 ∧ w19c.snap.slots.contains 1 = true) ∧
    ((w19d.die 1).up = true ∧ w19d.bcast = [⟨.frame, [1], w19d.frame, w19d.clk, 0⟩]) ∧
    ((w19e.die 1).up = true ∧ w19e.bcast = [⟨.angle, [1], w19e.frame, w19e.clk, 0⟩] ∧ (w19e.die 1).link.upSilent = false) ∧
    ((w19f.die 1).up = true ∧ w19f.bcast = [⟨.snap, [1], w19f.frame, w19f.clk, w19f.snap.bFrame⟩] ∧ (w19f.die 1).husk = false) ∧
    ((w19g.die 1).up = true ∧ w19g.bcast = [⟨.sched, [1], w19g.frame, w19g.clk, 1⟩]) ∧
    ((∀ b ∈ w19c.bcast, b.kind = .snap → bcastDue w19c b = false) ∧ ∀ b ∈ w19c.bcast, w19c.now ≤ b.frame * 5120 + b.clk) :=
  ⟨⟨sound_of (by decide +kernel), sound_of (by decide +kernel), sound_of (by decide +kernel),
   sound_of (by decide +kernel), sound_of (by decide +kernel), sound_of (by decide +kernel),
   sound_of (by decide +kernel)⟩, by decide +kernel⟩

def w20a : Device := (part 2 Pkg.run).modHost fun h => { h with posting := [(0x2000, 0#32), (0x2200, 5#32), (0x2201, 1#32)] }
def w20b : Device := { (part 2 Pkg.run).modDie 1 fun x => { x with recov := { x.recov with active := true } } with reads := [(1, 5), (1, 5), (1, 5), (1, 5)] }
def w20c : Device := { part 2 Pkg.run with reads := [(0, 1), (1, 0x9000)], stage := [(0x2201, 7#32), (0x2300, 9#32)] }
def w20d : Device := (part 2 Pkg.run).modDie 1 fun x => { x with staging := [⟨0, 3, 1, 1, 1, 0, 0, 0, 0⟩, ⟨0, 4, 1, 1, 1, 0, 0, 0, 0⟩] }
def w20e : Device := (part 2 Pkg.run).modDie 1 fun x => { x with stagingDrop := 2 }
def w20f : Device := part 2 Pkg.load
def w20g : Device := w20a.modLink 1 fun l => { l with wait := [⟨6, false, 0, .word 0x2200 5#32, 0⟩], seq := 1 }
def w20h : Device := w20a.modDie 1 fun x => { x with up := false }
def w20i : Device := ({ part 2 Pkg.run with reads := [(1, 0x9000)] } : Device).modLink 1 fun l => { l with upWait := [⟨0xA, false, 0, .answer 0x9000 7#32, 0⟩], upSeq := 1 }
def w20j : Device := (part 2 Pkg.run).modLink 1 fun l => { l with upWait := [⟨8, false, 0, .shadow 0x2300 7#32 9#32, 0⟩], upSeq := 1 }
def w20k : Device := ({ part 2 Pkg.run with stage := [(0x2201, 7#32), (0x2300, 9#32)] } : Device).modLink 1 fun l => { l with upWait := [⟨9, false, 0, .commit, 0⟩], upSeq := 1 }
def w20l : Device := w20d.modLink 1 fun l => { l with upWait := [⟨0xB, false, 0, .entry ⟨0, 3, 1, 1, 1, 0, 0, 0, 0⟩, 0⟩], upSeq := 1 }
def w20m : Device := w20e.modLink 1 fun l => { l with upWait := [⟨0xB, false, 0, .drops 2, 0⟩], upSeq := 1 }
def w20n : Device := w20j.modLink 1 fun l => { l with upWait := [⟨8, false, 0, .shadow 0x2200 7#32 9#32, 0⟩] }
theorem hyps_CellsCarryWords_1 :
    (Sound (st w20a) ∧ Sound (st w20b) ∧ Sound (st w20c)) ∧
    (1 < w20a.nDies ∧ 1 ≠ 0 ∧ w20a.host.posting = [(0x2000, 0#32)] ++ (0x2200, 5#32) :: [(0x2201, 1#32)] ∧
      (∀ p ∈ [((0x2000 : Nat), 0#32)], ownerOf p.1 ≠ 1) ∧ ownerOf 0x2200 = 1 ∧ reaches w20a 1 = true ∧ (w20a.die 1).recov.active = false ∧ (w20a.die 1).link.failed = false ∧
      sending w20a 1 6 = false ∧ (w20a.die 1).link.wait = [] ∧ (w20a.die 1).link.upWait = []) ∧
    ∀ p ∈ w20c.host.posting, ownerOf p.1 ≠ 1 ∧
    ((w20b.die 1).recov.active = true) :=
  ⟨⟨sound_of (by decide +kernel), sound_of (by decide +kernel), sound_of (by decide +kernel)⟩, by decide +kernel⟩

theorem hyps_CellsCarryWords_2 :
    (Sound (st w20a) ∧ Sound (st w20b) ∧ Sound (st w20c)) ∧
    (reaches w20a 1 = true ∧ (w20c.reads.filter fun p => p.1 == 1).length < 4) ∧
    (4 ≤ (w20b.reads.filter fun p => p.1 == 1).length) ∧
    (w20c.reads = [(0, 1)] ++ (1, 0x9000) :: [] ∧ (∀ p ∈ [((0 : Nat), (1 : Nat))], p.1 ≠ 1) ∧ arrives w20c 1 = true) :=
  ⟨⟨sound_of (by decide +kernel), sound_of (by decide +kernel), sound_of (by decide +kernel)⟩, by decide +kernel⟩

theorem hyps_CellsCarryWords_3 :
    (Sound (st w20a) ∧ Sound (st w20c)) ∧
    (ownerOf (0x2300#16).toNat = 1 ∧ (rowAt (0x2300#16).toNat).isSome = true ∧ arrives w20c 1 = true ∧ groupMask (0x2300#16).toNat ≠ 0) ∧
    (ownerOf (0x2200#16).toNat = 1 ∧ (rowAt (0x2200#16).toNat).isSome = true ∧ arrives w20a 1 = true ∧ groupMask (0x2200#16).toNat = 0) ∧
    (arrives w20c 1 = true ∧ slotsHold w20c 1 = false ∧
      w20c.stage.filter (fun p => ownerOf p.1 == 1) = [(0x2201, 7#32)] ++ (0x2300, 9#32) :: []) :=
  ⟨⟨sound_of (by decide +kernel), sound_of (by decide +kernel)⟩, by decide +kernel⟩

theorem hyps_CellsCarryWords_4 :
    (Sound (st w20a) ∧ Sound (st w20d) ∧ Sound (st w20e) ∧ Sound (st w20g)) ∧
    ((w20d.die 1).staging = ⟨0, 3, 1, 1, 1, 0, 0, 0, 0⟩ :: [⟨0, 4, 1, 1, 1, 0, 0, 0, 0⟩] ∧ (w20d.die 1).stagingDrop = 0 ∧ arrives w20d 1 = true ∧
      w20d.pget LEDGER_STAT_COUNT < 64) ∧
    (0 < (w20e.die 1).stagingDrop ∧ arrives w20e 1 = true) ∧
    (w20g.host.posting = w20a.host.posting ∧ reaches w20g 1 = true ∧ arrives w20g 1 = true ∧ (w20g.die 1).recov.active = false ∧ (w20g.die 1).link.failed = false ∧ sending w20g 1 6 = true ∧
      (w20g.die 1).link.wait = [⟨6, false, 0, .word 0x2200 5#32, 0⟩] ∧ (w20g.die 1).up = true ∧ Quiet w20g 1) :=
  ⟨⟨sound_of (by decide +kernel), sound_of (by decide +kernel), sound_of (by decide +kernel),
   sound_of (by decide +kernel)⟩, by decide +kernel⟩

theorem hyps_CellsCarryWords_5 :
    (Sound (st w20a) ∧ Sound (st w20h) ∧ Sound (st w20i) ∧ Sound (st w20j)) ∧
    ((w20h.die 0).up = true ∧ (w20h.die 1).up = false ∧ (w20h.die 1).recov.active = false ∧ w20h.host.posting = w20a.host.posting) ∧
    (reaches w20i 1 = true ∧ arrives w20i 1 = true ∧ (w20i.die 1).link.wait = [] ∧ (w20i.die 1).link.upWait = [⟨0xA, false, 0, .answer 0x9000 7#32, 0⟩]) ∧
    (reaches w20j 1 = true ∧ arrives w20j 1 = true ∧ (w20j.die 1).link.wait = [] ∧ (w20j.die 1).link.upWait = [⟨8, false, 0, .shadow 0x2300 7#32 9#32, 0⟩]) :=
  ⟨⟨sound_of (by decide +kernel), sound_of (by decide +kernel), sound_of (by decide +kernel),
   sound_of (by decide +kernel)⟩, by decide +kernel⟩

theorem hyps_CellsCarryWords_6 :
    (Sound (st w20k) ∧ Sound (st w20l) ∧ Sound (st w20n)) ∧
    (reaches w20n 1 = true ∧ arrives w20n 1 = true ∧ (w20n.die 1).link.wait = [] ∧ (w20n.die 1).link.upWait = [⟨8, false, 0, .shadow 0x2200 7#32 9#32, 0⟩]) ∧
    (reaches w20k 1 = true ∧ arrives w20k 1 = true ∧ (w20k.die 1).link.wait = [] ∧ (w20k.die 1).link.upWait = [⟨9, false, 0, .commit, 0⟩] ∧
      w20k.snap.slots.contains 1 = false) ∧
    (reaches w20l 1 = true ∧ arrives w20l 1 = true ∧ (w20l.die 1).link.wait = [] ∧ (w20l.die 1).link.upWait = [⟨0xB, false, 0, .entry ⟨0, 3, 1, 1, 1, 0, 0, 0, 0⟩, 0⟩] ∧
      w20l.pget LEDGER_STAT_COUNT < 64) :=
  ⟨⟨sound_of (by decide +kernel), sound_of (by decide +kernel), sound_of (by decide +kernel)⟩, by decide +kernel⟩

theorem hyps_CellsCarryWords_7 :
    (Sound (st w20m)) ∧
    (reaches w20m 1 = true ∧ arrives w20m 1 = true ∧ (w20m.die 1).link.wait = [] ∧ (w20m.die 1).link.upWait = [⟨0xB, false, 0, .drops 2, 0⟩]) :=
  ⟨sound_of (by decide +kernel), by decide +kernel⟩

def w21a : Device := (part 4 Pkg.load).modLink 2 fun l => { l with trained := false }
def w21b : Device := (((part 4 Pkg.load).modLink 2 fun l => { l with trained := false }).modLink 1 fun l => { l with trained := false }).modDie 2 fun x => { x with index := 3 }
def w21c : Device := w21b.modLink 3 fun l => { l with trained := false }
theorem hyps_TrainingChecksTheIndex :
    (Sound (st w21a) ∧ Sound (st w21c)) ∧
    (2 < w21a.nDies ∧ (w21a.die 0).up = true ∧ (w21a.die 2).up = true ∧ (w21a.die 2).link.trained = false ∧ (w21a.die 2).link.failed = false ∧
      (w21a.die 2).recov.active = false ∧
      trainIndex w21a 2 = 2 ∧ ∀ e, e < w21a.nDies → e ≠ 2 → trainIndex w21a e ≠ 2) ∧
    (2 < w21c.nDies ∧ (w21c.die 0).up = true ∧ (w21c.die 2).up = true ∧ (w21c.die 2).link.trained = false ∧ (w21c.die 2).link.failed = false ∧
      (w21c.die 2).recov.active = false ∧
      trainIndex w21c 2 ≠ 2 ∧ (w21c.die 2).link.badIndex = false ∧ (∀ e, e < w21c.nDies → e ≠ 0 → e ≠ 2 → (w21c.die e).link.trained = false) ∧
      w21c.vreqs = [] ∧ w21c.pget LEDGER_STAT_COUNT < 64) ∧
    ((part 4 Pkg.run).nDies = w21a.nDies ∧ ((part 4 Pkg.run).die 2).link.trained = true) :=
  ⟨⟨sound_of (by decide +kernel), sound_of (by decide +kernel)⟩, by decide +kernel⟩

def w22a : Device := part 2 Pkg.run
def w22f : Device := { part 2 Pkg.run with frame := 3 }
def w22g : Device := w22f.modLink 1 fun l => { l with upHeardAt := some 0 }
def w22b : Device := (late (part 2 Pkg.run)).modLink 1 fun l => { l with trained := false, upSilent := true, holdOver := true }
def w22c : Device := w22b.cset 8 CH_STAT_ACTIVE 1
def w22d : Device := w22c.cset 8 CH_CTL_OVR 1
def w22e : Device := late (part 2 Pkg.run)
theorem hyps_SilenceIsDeclaredAndHeldOver :
    (Sound (st w22a) ∧ Sound (st w22f) ∧ Sound (st w22g) ∧ Sound (st w22b) ∧ Sound (st w22c) ∧ Sound (st w22d) ∧
      Sound (st w22e)) ∧
    (1 < w22f.nDies ∧ 1 ≠ 0 ∧ (w22f.die 0).up = true ∧ (w22f.die 1).link.trained = true ∧ (w22f.die 1).link.silent = false ∧ w22f.pget LEDGER_STAT_COUNT < 64 ∧
      ((w22f.die 1).link.heardAt.any fun c => w22f.passed c 15360) = true ∧ ((w22a.die 1).link.heardAt.any fun c => w22a.passed c 15360) = false) ∧
    ((w22b.die 1).link.trained = false ∧ (w22b.die 1).link.upSilent = true) ∧
    ((w22g.die 1).up = true ∧ (w22g.die 1).link.upSilent = false ∧ ((w22g.die 1).link.upHeardAt.any fun c => w22g.passed c 15360) = true) ∧
    ((w22c.die 1).up = true ∧ (w22c.die 1).link.holdOver = true ∧
      w22c.passed (w22c.die 1).link.silentAt (msClocks (w22c.die 1).leadMs) = true ∧ w22c.cbit 8 CH_STAT_ACTIVE = true ∧ w22c.cbit 8 CH_CTL_OVR = false) ∧
    ((w22d.die 1).up = true ∧ (w22d.die 1).link.holdOver = true ∧ w22d.cbit 8 CH_STAT_ACTIVE = true ∧ w22d.cbit 8 CH_CTL_OVR = true ∧ w22d.cbit 9 CH_STAT_ACTIVE = false) ∧
    ((w22a.die 1).link.holdOver = false) ∧
    (alive (w22e.die 1) = true ∧ 2560 ≤ (w22e.die 1).clk) ∧
    (alive (w22e.die 0) = true ∧ 2560 ≤ (w22e.die 0).clk) ∧
    (alive (w22a.die 1) = true ∧ (w22a.die 1).clk < 2560) :=
  ⟨⟨sound_of (by decide +kernel), sound_of (by decide +kernel), sound_of (by decide +kernel),
   sound_of (by decide +kernel), sound_of (by decide +kernel), sound_of (by decide +kernel),
   sound_of (by decide +kernel)⟩, by decide +kernel⟩

def w23a : Device := part 2 Pkg.run
def w23b : Device := ((late (part 2 Pkg.run)).modDie 1 fun x => { x with recov := { x.recov with doneAt := some (100000000 * 5120) } }).dset 1 DIE_WDT_FAILS 1
def w23c : Device := w23b.dset 1 DIE_WDT_FAILS 2
def w23d : Device := (({ late (part 2 Pkg.run) with clk := 0 } : Device).modDie 1 fun x => { x with husk := true, decided := true, booked := some 1, recov := { x.recov with active := true, trying := true } })
def w23h : Device := w23d.modDie 1 fun x => { x with up := false }
def w23e : Device := w23d.dset 1 DIE_WDT_FAILS 2
def w23f : Device := (late (part 2 Pkg.run)).modDie 1 fun x => { x with ctl := true, recov := { x.recov with ctlAt := some 0 } }
def w23g : Device := (late (part 2 Pkg.run)).modDie 1 fun x => { x with recov := { x.recov with benched := true } }
theorem hyps_DiesRecoverOrAreBenchedOut :
    (Sound (st w23a) ∧ Sound (st w23b) ∧ Sound (st w23c) ∧ Sound (st w23d) ∧ Sound (st w23h) ∧ Sound (st w23e) ∧
      Sound (st w23f) ∧ Sound (st w23g)) ∧
    (1 < w23a.nDies ∧ recoverable 1 w23a = true ∧ ((w23a.die 1).recov.doneAt.any fun t => !w23a.passed t (secClocks (w23a.pget FAULT_CFG_STABLE))) = false) ∧
    (recoverable 1 w23b = true ∧ w23b.dget 1 DIE_WDT_FAILS < 2 ∧
      ((w23b.die 1).recov.doneAt.any fun t => !w23b.passed t (secClocks (w23b.pget FAULT_CFG_STABLE))) = true) ∧
    (recoverable 1 w23c = true ∧ 2 ≤ w23c.dget 1 DIE_WDT_FAILS ∧
      ((w23c.die 1).recov.doneAt.any fun t => !w23c.passed t (secClocks (w23c.pget FAULT_CFG_STABLE))) = true) ∧
    (recoverable 1 w23g = false ∧ recoverable 0 w23a = false) ∧
    ((w23d.die 1).recov.trying = true ∧ (w23d.die 1).up = true ∧ (w23d.die 1).link.trained = true ∧ (w23d.die 1).seeded = true ∧ (w23d.die 1).fetch = [] ∧ (w23d.die 1).decided = true ∧ w23d.clk = 0 ∧
      ((w23d.die 1).booked.any fun f => decide (f < w23d.frame)) = true ∧
      w23d.passed (w23d.die 1).recov.since (msClocks 100) = true ∧ w23d.dget 1 DIE_WDT_FAILS < 2) ∧
    ((w23e.die 1).recov.trying = true ∧ w23e.passed (w23e.die 1).recov.since (msClocks 100) = true ∧ 2 ≤ w23e.dget 1 DIE_WDT_FAILS) ∧
    ((w23a.die 1).recov.trying = false) ∧
    (w23h.supply.start = none ∧ (w23h.die 0).up = true ∧ (w23h.die 1).recov.trying = true ∧ (w23h.die 1).up = false) ∧
    (((w23f.die 1).ctl && (w23f.die 1).recov.ctlAt.any fun t => w23f.passed t (secClocks (w23f.pget FAULT_CFG_STABLE))) = true) :=
  ⟨⟨sound_of (by decide +kernel), sound_of (by decide +kernel), sound_of (by decide +kernel),
   sound_of (by decide +kernel), sound_of (by decide +kernel), sound_of (by decide +kernel),
   sound_of (by decide +kernel), sound_of (by decide +kernel)⟩, by decide +kernel⟩

def w24a : Device := (part 2 Pkg.run).modCh 15 fun c => { c with lp := { c.lp with gl := true, iM := -1 } }
def w24b : Device := ((part 2 Pkg.run).cset 15 CH_FAULT_OVP 1).cset 15 CH_FAULT_FIRST 2
def w24c : Device := ((part 2 Pkg.run).modDie 1 fun x => { x with vdrvBad := true, busOvNow := true }).modCh 8 fun c => { c with lp := { c.lp with busOvHeld := true, vdrvHeld := true } }
def w24e : Device := ((running 8 4 (stepOf 7 0 0 0 [0, 0, 0, 0]) (part 2 Pkg.run)).cset 8 CH_STAT_SUSP_CAUSE 3).modDie 1 fun x => { x with vdrvBad := true }
def w24d : Device := (part 2 Pkg.run).modDie 1 fun x => { x with up := false }
theorem hyps_ProtectionsLatchAndStop :
    (Sound (st w24a) ∧ Sound (st w24b) ∧ Sound (st w24c) ∧ Sound (st w24e) ∧ Sound (st w24d)) ∧
    (15 / 8 < w24a.nDies ∧ (w24a.die 1).up = true ∧ (w24a.ch 15).lp.gl = true ∧ (w24a.reg (chAddr 15 2)).toNat % 32 = 0) ∧
    ((w24b.die 1).up = true ∧ (w24b.ch 15).lp.gl = false ∧ (w24b.reg (chAddr 15 2)).toNat.testBit 1 = true ∧ (w24b.reg (chAddr 15 2)).toNat.testBit 0 = false ∧
      (w24b.ch 15).lp.firstAt = w24b.now ∧ 0 + 1 < w24b.cget 15 CH_FAULT_FIRST) ∧
    (1 < w24a.nDies ∧ (w24a.ch 15).lp.iM < 0) ∧
    ((w24c.die 1).up = true ∧ (w24c.die 1).vdrvBad = true ∧ (w24c.ch 8).lp.busOvHeld = true) ∧
    ((w24e.die 1).up = true ∧ (w24e.die 1).vdrvBad = true ∧ engState w24e 8 = EngSt.suspended ∧ w24e.cget 8 CH_STAT_SUSP_CAUSE = 3 ∧
      pkgState w24e ≠ Pkg.test ∧ bandCause w24e 8 = 0 ∧ curStep w24e 8 ≠ none) ∧
    ((w24d.die 1).up = false) :=
  ⟨⟨sound_of (by decide +kernel), sound_of (by decide +kernel), sound_of (by decide +kernel),
   sound_of (by decide +kernel), sound_of (by decide +kernel)⟩, by decide +kernel⟩

def w25a : Device := (part 2 Pkg.run).cset 15 CH_CTL_MODE 1
def w25b : Device := w25a.modCh 15 fun c => { c with lp := { c.lp with gl := true, ton := 3200, edges := [0, 10, 20, 30] } }
def w25c : Device := w25b.modCh 15 fun c => { c with lp := { c.lp with toRest := true, cmd := 0 } }
def w25d : Device := (w25b.cset 15 CH_SLEW 5).cset 15 CH_VFORCE 1023
def w25e : Device := (w25b.cset 15 CH_VFORCE 0).cset 15 CH_COMPLY_VFLOOR 300
def w25f : Device := ((({ (part 2 Pkg.run) with clk := 19 } : Device).modDie 1 fun x => { x with fastDue := true }).modCh 15 fun c => { c with lp := { c.lp with gl := true, blank := 3, clamp := 1, clampOk := 7 } }).cset 15 CH_COMPLY_VFLOOR 0
def w25h : Device := (w25f.cset 15 CH_COMPLY_VCOMPLY 100).cset 15 CH_COMPLY_VFLOOR 50
def w25i : Device := w25f.cset 15 CH_COMPLY_VFLOOR 300
def w25g : Device := (part 2 Pkg.run).modDie 1 fun x => { x with up := false }
def w25j : Device := w25d.modCh 15 fun c => { c with lp := { c.lp with edges := [0, 0, 20, 30] } }
def w25k : Device := w25e.modCh 15 fun c => { c with lp := { c.lp with edges := [0, 0, 0, 0] } }
theorem hyps_LoopsComputeOncePerPeriod :
    (Sound (st w25a) ∧ Sound (st w25b) ∧ Sound (st w25c) ∧ Sound (st w25d) ∧ Sound (st w25e) ∧ Sound (st w25f) ∧
      Sound (st w25h) ∧ Sound (st w25i) ∧ Sound (st w25g) ∧ Sound (st w25j) ∧ Sound (st w25k)) ∧
    (15 / 8 < w25a.nDies ∧ (w25a.ch 15).lp.gl = false) ∧
    ((w25c.ch 15).lp.gl = true ∧ periodDue w25c 15 = true ∧ (w25c.ch 15).lp.toRest = true ∧ (w25c.ch 15).lp.cmd = 0 ∧ (w25c.ch 15).lp.iM.natAbs < 32768) ∧
    ((w25b.ch 15).lp.gl = true ∧ periodDue w25b 15 = true ∧ (w25b.ch 15).lp.toRest = false ∧ (w25b.ch 15).lp.ctStop = false ∧ (w25b.ch 15).lp.clamp = 0 ∧
      (w25b.ch 15).acir.env = 0 ∧ (w25b.ch 15).acir.envTgt = 0 ∧ modeOf w25b 15 = 1 ∧ (w25b.die 1).busOvNow = false ∧ tonLo w25b 15 ≤ tonHi w25b 15) ∧
    ((w25d.ch 15).lp.gl = true ∧ 10 * w25d.cget 15 CH_COMPLY_VCOMPLY < 6 * w25d.cget 15 CH_VFORCE ∧ (w25d.ch 15).lp.edges = [0, 10, 20, 30]) ∧
    ((w25e.ch 15).lp.gl = true ∧ 6 * w25e.cget 15 CH_VFORCE < 10 * w25e.cget 15 CH_COMPLY_VFLOOR ∧ 10 * w25e.cget 15 CH_COMPLY_VFLOOR ≤ 3000) ∧
    ((w25f.die 1).up = true ∧ (w25f.die 1).fastDue = true ∧ w25f.clk % 16 = 3 ∧ (w25f.ch 15).lp.gl = true ∧ (w25f.ch 15).lp.ctStop = false ∧ 0 < (w25f.ch 15).lp.blank ∧ (w25f.ch 15).lp.clamp ≠ 0 ∧
      clampInside w25f 15 (nth (List.replicate 64 400) 15 % 1024) = true ∧ 7 ≤ (w25f.ch 15).lp.clampOk) ∧
    ((w25h.ch 15).lp.blank = (w25f.ch 15).lp.blank ∧ 10 * w25h.cget 15 CH_COMPLY_VCOMPLY < 6 * (nth (List.replicate 64 1023) 15 % 1024)) ∧
    ((w25i.ch 15).lp.blank = (w25f.ch 15).lp.blank ∧ 6 * (nth (List.replicate 64 0) 15 % 1024) ≤ 10 * w25i.cget 15 CH_COMPLY_VCOMPLY ∧ 6 * (nth (List.replicate 64 0) 15 % 1024) < 10 * w25i.cget 15 CH_COMPLY_VFLOOR) ∧
    ((w25g.die 1).up = false) ∧
    ((w25j.ch 15).lp.edges = [0, 0, 20, 30] ∧ 0 ≤ 32 * periodTick w25j 15 ∧ 32 * periodTick w25j 15 < 20 ∧ 10 * w25j.cget 15 CH_COMPLY_VCOMPLY < 6 * w25j.cget 15 CH_VFORCE ∧ (w25j.ch 15).lp.gl = true) ∧
    ((w25k.ch 15).lp.edges = [0, 0, 0, 0] ∧ 6 * w25k.cget 15 CH_VFORCE < 10 * w25k.cget 15 CH_COMPLY_VFLOOR ∧ (w25k.ch 15).lp.gl = true) :=
  ⟨⟨sound_of (by decide +kernel), sound_of (by decide +kernel), sound_of (by decide +kernel),
   sound_of (by decide +kernel), sound_of (by decide +kernel), sound_of (by decide +kernel),
   sound_of (by decide +kernel), sound_of (by decide +kernel), sound_of (by decide +kernel),
   sound_of (by decide +kernel), sound_of (by decide +kernel)⟩, by decide +kernel⟩

def w26a : Device := part 2 Pkg.run
def w26b : Device := ((part 2 Pkg.run).cset 15 CH_CTL_OVR 1).modCh 15 fun c => { c with lp := { c.lp with gl := true }, eng := { c.eng with fastHist := List.replicate 16 (0, 8257536) } }
def w26c : Device := w26b.cset 15 CH_SENSE_RANGE 1
def w26d : Device := (part 2 Pkg.run).cset 15 CH_SENSE_OVLD_I 1
theorem hyps_HostValuesCountUnderOverride :
    (Sound (st w26a) ∧ Sound (st w26b) ∧ Sound (st w26c)) ∧
    (15 / 8 < w26a.nDies ∧ w26a.cget 15 CH_CTL_OVR = 0 ∧ w26a.cget 15 CH_SENSE_RANGE = 0 ∧ uprangeNow w26a 15 = false ∧ overloadNow w26a 15 false = false) ∧
    (w26b.cget 15 CH_CTL_OVR = 1 ∧ CH_CTL_OVR.get 0#32 = 0 ∧ pkgState w26b ≠ Pkg.test ∧ CH_CTL_OVR.get (CH_CTL_OVR.put 1 0#32) = 1) ∧
    (w26c.cget 15 CH_SENSE_RANGE = 1 ∧ uprangeNow w26c 15 = true) ∧
    ((w26b.die 1).up = true ∧ overloadNow w26b 15 false = true ∧ w26b.cget 15 CH_SENSE_OVLD_I = 0) :=
  ⟨⟨sound_of (by decide +kernel), sound_of (by decide +kernel), sound_of (by decide +kernel)⟩, by decide +kernel⟩

def w27a : Device := { part 2 Pkg.run with clk := 600 }
def w27b : Device := ({ part 2 Pkg.run with clk := 540 } : Device).modSar 1 fun x => { x with vxBad := 8, zeroRun := 8, vxOk := 31999 }
def w27c : Device := ({ part 2 Pkg.run with clk := 560 } : Device).modDie 1 fun x => { x with refInt := true, sar := { x.sar with vxOk := 32000, zeroRun := 7, refRun := 7 } }
def w27d : Device := (part 2 Pkg.run).modDie 1 fun x => { x with up := false }
def w27e : Device := (w27b.dset 1 BENCH_STAT_SAR_FAIL 1).dset 1 BENCH_REF_MODE 1
def w27f : Device := ({ part 2 Pkg.run with clk := 100 } : Device).modSar 1 fun x => { x with refRun := 8 }
def w27g : Device := { part 2 Pkg.run with clk := 640 }
theorem hyps_ConversionsFollowTheSequence :
    (Sound (st w27a) ∧ Sound (st w27b) ∧ Sound (st w27c) ∧ Sound (st w27d) ∧ Sound (st w27e) ∧ Sound (st w27f) ∧
      Sound (st w27g)) ∧
    (1 < w27a.nDies ∧ (w27a.die 1).up = true ∧ w27a.clk % 20 = 0 ∧ (w27a.clk / 20 + 31) % 32 = 29 ∧ (w27a.die 1).sar.lastAt ≠ w27a.now) ∧
    ((w27b.die 1).up = true ∧ (w27b.clk / 20 + 31) % 32 = 26 ∧ w27b.clk % 20 = 0 ∧ (w27b.die 1).sar.lastAt ≠ w27b.now ∧ (3244 ≤ 3244 % 4096 ∧ 3309 % 4096 ≤ 3309) ∧ w27b.dbit 1 BENCH_STAT_SAR_FAIL = false ∧
      w27b.dbit 1 BENCH_REF_MODE = false ∧ (w27b.die 1).refInt = false ∧ 8 ≤ (w27b.die 1).sar.vxBad ∧ (w27b.die 1).sar.vxOk < 32000 ∧ 8 ≤ (w27b.die 1).sar.zeroRun) ∧
    ((w27c.clk / 20 + 31) % 32 = 27 ∧ w27c.clk % 20 = 0 ∧ (w27c.die 1).sar.lastAt ≠ w27c.now ∧ 8 < 9 % 4096 ∧ w27c.dbit 1 BENCH_REF_MODE = false ∧ (w27c.die 1).refInt = true ∧ 32000 ≤ (w27c.die 1).sar.vxOk ∧
      (w27c.die 1).sar.vxBad < 8 ∧ (w27c.die 1).sar.zeroRun < 8 ∧ (w27c.die 1).sar.refRun < 8) ∧
    ((w27d.die 1).up = false) ∧
    (w27e.dbit 1 BENCH_STAT_SAR_FAIL = true ∧ w27e.dbit 1 BENCH_REF_MODE = true) ∧
    ((w27f.clk / 20 + 31) % 32 % 4 = 0 ∧ w27f.clk % 20 = 0 ∧ 8 ≤ (w27f.die 1).sar.refRun) ∧
    ((w27g.clk / 20 + 31) % 32 = 31) :=
  ⟨⟨sound_of (by decide +kernel), sound_of (by decide +kernel), sound_of (by decide +kernel),
   sound_of (by decide +kernel), sound_of (by decide +kernel), sound_of (by decide +kernel),
   sound_of (by decide +kernel)⟩, by decide +kernel⟩

def w28a : Device := (part 2 Pkg.load).modDie 1 fun x => { x with seeded := false, seedAt := some 0 }
def w28b : Device := { w28a with frame := 128 }
def w28c : Device := (part 2 Pkg.run).modBench 1 fun b => { b with forceCh := some 3 }
def w28d : Device := ((part 2 Pkg.run).dset 1 BENCH_CTL_EN 1).modBench 1 fun b => { b with queue := [5, 2] }
def w28e : Device := { ((part 2 Pkg.run).dset 1 BENCH_STAT_PHASE 1).modBench 1 fun b => { b with v0 := some 0 } with frame := 100000 }
def w28f : Device := (((part 2 Pkg.run).dset 1 BENCH_STAT_PHASE 3).dset 1 BENCH_STAT_CH 7).modBench 1 fun b => { b with forced := true }
def w28g : Device := ((part 2 Pkg.run).dset 1 BENCH_STAT_PHASE 3).cset 8 ACIR_STAT_STATE 2
def w28h : Device := ((part 2 Pkg.run).dset 1 BENCH_STAT_PHASE 3).modBench 1 fun b => { b with t1 := 1 }
def w28i : Device := (part 2 Pkg.run).dset 1 BENCH_STAT_PHASE 3
theorem hyps_BenchVisitsTakeCustody :
    (Sound (st w28a) ∧ Sound (st w28b) ∧ Sound (st w28c) ∧ Sound (st w28d) ∧ Sound (st w28e) ∧ Sound (st w28f) ∧
      Sound (st w28g) ∧ Sound (st w28h) ∧ Sound (st w28i)) ∧
    (1 < w28b.nDies ∧ (w28b.die 1).up = true ∧ (w28b.die 1).seeded = false ∧ (w28b.die 1).seedAt = some 0 ∧ 0 + 128 ≤ w28b.frame ∧
      pkgState w28b = Pkg.load) ∧
    ((w28a.die 1).seedAt = some 0 ∧ w28a.frame < 0 + 128) ∧
    ((w28c.die 1).seeded = true ∧ visitMayStart w28c 1 = true ∧ (w28c.die 1).bench.forceCh = some 3) ∧
    (visitMayStart w28d 1 = true ∧ (w28d.die 1).bench.forceCh = none ∧ (w28d.die 1).bench.queue ≠ []) ∧
    (visitMayStart w28e 1 = false ∧ benchPhase w28e 1 = 1 ∧ selfcalOver w28e 1 = true ∧ pkgState w28e = Pkg.run) ∧
    (benchPhase w28f 1 = 3 ∧ w28f.clk = 0 ∧ (w28f.die 1).bench.t1 ≤ w28f.frame ∧ (w28f.die 1).bench.forced = true) ∧
    (benchPhase w28i 1 = 3 ∧ w28i.clk = 0 ∧ (w28i.die 1).bench.t1 ≤ w28i.frame ∧ (w28i.die 1).bench.forced = false ∧
      windowBefore w28i (8 * 1 + benchCh w28i 1) (w28i.frame + holdF w28i 1 + ovlF w28i 1) = false) ∧
    (benchPhase w28g 1 = 3 ∧ w28g.clk = 0 ∧ (w28g.die 1).bench.t1 ≤ w28g.frame ∧ (w28g.die 1).bench.forced = false ∧
      windowBefore w28g (8 * 1 + benchCh w28g 1) (w28g.frame + holdF w28g 1 + ovlF w28g 1) = true) ∧
    (benchPhase w28h 1 = 3 ∧ w28h.frame < (w28h.die 1).bench.t1) :=
  ⟨⟨sound_of (by decide +kernel), sound_of (by decide +kernel), sound_of (by decide +kernel),
   sound_of (by decide +kernel), sound_of (by decide +kernel), sound_of (by decide +kernel),
   sound_of (by decide +kernel), sound_of (by decide +kernel), sound_of (by decide +kernel)⟩, by decide +kernel⟩

def w29a : Device := { ((part 2 Pkg.run).dset 1 BENCH_STAT_PHASE 1).modBench 1 fun b => { b with v0 := some 0 } with frame := 100000 }
def w29b : Device := part 2 Pkg.run
def w29c : Device := (part 2 Pkg.run).dset 1 BENCH_STAT_PHASE 5
def w29d : Device := ((part 2 Pkg.run).dset 1 BENCH_STAT_PHASE 4).dset 1 BENCH_STAT_CUSTODY 1
def w29e : Device := { (part 2 Pkg.run).dset 1 BENCH_STAT_PHASE 5 with frame := 64 }
def w29f : Device := { (part 2 Pkg.run).dset 1 BENCH_STAT_PHASE 5 with frame := 63 }
def w29g : Device := w29a.modDie 1 fun x => { x with refInt := true }
def w29h : Device := w29c.modDie 1 fun x => { x with refInt := true }
theorem hyps_BenchVisitsEnd :
    (Sound (st w29a) ∧ Sound (st w29b) ∧ Sound (st w29c) ∧ Sound (st w29d) ∧ Sound (st w29e) ∧ Sound (st w29f) ∧
      Sound (st w29g) ∧ Sound (st w29h)) ∧
    (1 < w29a.nDies ∧ benchPhase w29a 1 = 1 ∧ selfcalOver w29a 1 = true ∧ ([⟨2 ^ 25, 0⟩, ⟨0, 0⟩, ⟨0, 0⟩].any ofsBad || [⟨0, 2 ^ 36⟩, ⟨0, 0⟩, ⟨0, 0⟩].any gainBad) = true) ∧
    (benchPhase w29a 1 = 1 ∧ selfcalOver w29a 1 = true ∧ ([⟨0, 0⟩, ⟨0, 0⟩, ⟨0, 0⟩].any ofsBad || [⟨0, 0⟩, ⟨0, 0⟩, ⟨0, 0⟩].any gainBad) = false) ∧
    (benchPhase w29b 1 ≠ 1 ∧ benchPhase w29b 1 ≠ 5 ∧ benchPhase w29b 1 ∈ [0, 6]) ∧
    (benchPhase w29c 1 = 5 ∧ w29c.clk = 0 ∧ (w29c.die 1).bench.t2 ≤ w29c.frame) ∧
    (benchPhase w29d 1 ∉ [0, 6] ∧ w29d.dbit 1 BENCH_STAT_CUSTODY = true) ∧
    (benchPhase w29e 1 ∉ [0, 6] ∧ pkgState w29e ≠ Pkg.test ∧ (w29e.die 1).bench.t2 + 64 ≤ w29e.frame) ∧
    (w29f.frame < (w29f.die 1).bench.t2 + 64) ∧
    (benchPhase w29g 1 = 1 ∧ selfcalOver w29g 1 = true ∧ (w29g.die 1).refInt = true) ∧
    (benchPhase w29h 1 = 5 ∧ w29h.clk = 0 ∧ (w29h.die 1).bench.t2 ≤ w29h.frame ∧ (w29h.die 1).refInt = true) :=
  ⟨⟨sound_of (by decide +kernel), sound_of (by decide +kernel), sound_of (by decide +kernel),
   sound_of (by decide +kernel), sound_of (by decide +kernel), sound_of (by decide +kernel),
   sound_of (by decide +kernel), sound_of (by decide +kernel)⟩, by decide +kernel⟩

def w30a : Device := (part 2 Pkg.run).modLine fun l => { l with nco := { l.nco with phase := 2 ^ 48 - 1 } }
theorem hyps_TheAngleAdvancesEveryClock :
    (Sound (st w30a)) ∧
    ((w30a.die 0).up = true ∧ 1 < w30a.nDies ∧ 1 ≠ 0 ∧ (w30a.die 1).up = true) :=
  ⟨sound_of (by decide +kernel), by decide +kernel⟩

def w31a : Device := (part 2 Pkg.run).modDie 1 fun x => { x with seeded := false }
theorem hyps_EveryClockIsCountedOnce :
    (Sound (st w31a)) ∧
    (1 < w31a.nDies ∧ 7 / 8 < w31a.nDies ∧ (w31a.die 0).up = true ∧ (w31a.die 0).seeded = true) ∧
    (15 / 8 < w31a.nDies ∧ (w31a.die 1).seeded = false) ∧
    (5 ≤ ({ Acc.reset with fq := 5 }).fq.natAbs) ∧
    (({ Acc.reset with fq := 5, dir := .out }).fq.natAbs < 6 ∧ ({ Acc.reset with fq := 5, dir := .out }).dir ≠ .none ∧ Acc.reset.dir = .none) :=
  ⟨sound_of (by decide +kernel), by decide +kernel⟩

def w32a : Device := ((part 2 Pkg.run).modAcc 15 fun a => { a with fq := 10 ^ 12, fe := 10 ^ 20, rawqIn := 7, dir := .inn }).modDue 9 fun x => { x with clear := true }
def w32b : Device := (part 2 Pkg.run).modDie 1 fun x => { x with up := false }
def w32c : Device := (part 2 Pkg.run).modDue 3 fun x => { x with closed := true }
theorem hyps_BoundariesBookEveryFrame :
    (Sound (st w32a) ∧ Sound (st w32b) ∧ Sound (st w32c)) ∧
    (1 < w32a.nDies ∧ (w32a.die 1).up = true ∧ 15 / 8 < w32a.nDies ∧ (w32a.die (15 / 8)).seeded = true ∧ (w32a.ch 15).due.clear = false ∧
      ((w32a.ch 15).acc.cq + (if (w32a.ch 15).acc.dir = .inn then 1 else -1) * (w32a.ch 15).acc.fq).natAbs < 2 ^ 63) ∧
    (9 / 8 < w32a.nDies ∧ (w32a.die (9 / 8)).up = true ∧ (w32a.die (9 / 8)).seeded = true ∧ (w32a.ch 9).due.clear = true) ∧
    (15 / 8 < w32b.nDies ∧ (w32b.die (15 / 8)).up = false) ∧
    ((w32a.ch 3).due.closed = false ∧ (w32a.ch 3).acc.held = 0 ∧ ((w32a.ch 3).acc.exactQ (w32a.ch 3).conv.kq).1.natAbs < 2 ^ 95 - 1 ∧
      ((w32a.ch 3).acc.exactE (w32a.ch 3).conv.ke).2.2.natAbs < 2 ^ 95 - 1) ∧
    ((w32c.ch 3).due.closed = true) :=
  ⟨⟨sound_of (by decide +kernel), sound_of (by decide +kernel), sound_of (by decide +kernel)⟩, by decide +kernel⟩

def w33a : Device := part 2 Pkg.run
theorem hyps_CountingWritesWaitForTheBoundary :
    (Sound (st w33a)) ∧
    (15 / 8 < w33a.nDies ∧ kAccepts (w33a.setReg (chAddr 15 (kOff .kqH)) 0x80000000#32) 15 .kqH = true) ∧
    (15 / 8 < w33a.nDies ∧ kAccepts (w33a.setReg (chAddr 15 (kOff .kv)) 0#32) 15 .kv = false) ∧
    (15 / 8 < w33a.nDies ∧ kAccepts (w33a.setReg (chAddr 15 (kOff .kShift)) (0xFFFFFFFF#32 &&& 0x3F3F3F3F#32)) 15 .kShift = true) :=
  ⟨sound_of (by decide +kernel), by decide +kernel⟩

def w34a : Device := { part 2 Pkg.run with clk := 1 }
def w34b : Device := part 2 Pkg.run
def w34c : Device := { (((part 2 Pkg.run).setFrc (chAddr 15 0x47) 0x00647FFF#32).setFrc (chAddr 15 0x40) 0x80000000#32).modSar 1 fun x => { x with btHist := [(10 * 2 ^ 20, 1)] } with frame := 4000 }
def w34d : Device := w34c.modDue 15 fun x => { x with closed := true }
theorem hyps_ShuntFactorsFollowTheTemperature :
    (Sound (st w34a) ∧ Sound (st w34b) ∧ Sound (st w34c) ∧ Sound (st w34d)) ∧
    (w34a.frame % 4000 ≠ 0 ∨ w34a.clk ≠ 0) ∧
    (w34b.frame % 4000 = 0 ∧ w34b.clk = 0 ∧ 15 / 8 < w34b.nDies ∧ alphaOf w34b 15 = 0) ∧
    (w34c.frame % 4000 = 0 ∧ w34c.clk = 0 ∧ ¬ (alphaOf w34c 15 = 0 ∨ tcrHold w34c (15 / 8) = true ∨ (w34c.die (15 / 8)).seeded = false) ∧
      109951 < ((fTcrOf w34c 15 : Int) - (w34c.ch 15).conv.fTcr).natAbs ∧ (constsNow w34c 15).1 ≠ (w34c.ch 15).conv.kq) ∧
    ((w34d.ch 15).due.closed = true) :=
  ⟨⟨sound_of (by decide +kernel), sound_of (by decide +kernel), sound_of (by decide +kernel),
   sound_of (by decide +kernel)⟩, by decide +kernel⟩

def w35a : Device := part 2 Pkg.run
def w35b : Device := (w35a.cset 15 CAL_CTL_RUN_OK 1).modConv 15 fun v => { v with runCauses := 2 }
def w35c : Device := (w35a.cset 15 CAL_CTL_RUN_OK 1).modConv 15 fun v => { v with runRef := 2 ^ 30, runDev := 2 ^ 46 + 2 ^ 30, runNet := 2 ^ 31 }
def w35d : Device := (w35a.dset 1 BENCH_STAT_PHASE 3).dset 1 BENCH_STAT_CH 7
def w35e : Device := w35a.modConv 15 fun v => { v with visit := some ⟨⟨0, 0⟩, ⟨0, 0⟩, ⟨0, 0⟩⟩ }
theorem hyps_CalibrationCommandsWaitOrAreRefused :
    (Sound (st w35a) ∧ Sound (st w35b) ∧ Sound (st w35c) ∧ Sound (st w35d) ∧ Sound (st w35e)) ∧
    (15 / 8 < w35a.nDies ∧ CAL_CTL_KEY.get 0#32 ≠ 0xC3) ∧
    (CAL_CTL_KEY.get 0xC301#32 = 0xC3 ∧ CAL_CTL_APPLY.get 0xC301#32 = 1 ∧ w35a.cget 15 CAL_CTL_RUN_OK = 0) ∧
    (w35b.cget 15 CAL_CTL_RUN_OK = 1 ∧ (w35b.ch 15).conv.runCauses &&& 0x7A ≠ 0) ∧
    (applyRefusal w35c 15 false = 0) ∧
    (CAL_CTL_FOLD.get 0xC304#32 = 1 ∧ foldOk w35d 15 = true ∧ visiting w35d 15 = true) ∧
    (foldOk w35a 15 = true ∧ visiting w35a 15 = false ∧ (w35a.ch 15).conv.visit = none) ∧
    (foldRefusal w35e 15 = 0) :=
  ⟨⟨sound_of (by decide +kernel), sound_of (by decide +kernel), sound_of (by decide +kernel),
   sound_of (by decide +kernel), sound_of (by decide +kernel)⟩, by decide +kernel⟩

def w36a : Device := { (part 2 Pkg.run).pset PLS_BACKLOG 5 with pulses := (part 2 Pkg.run).pulses.modify 0 fun p => { p with cfg := PLS_CFG_EN.put 1 0#32, quant := 1 } }
def w36b : Device := { (part 2 Pkg.run).pset PLS_BACKLOG (2 ^ 32 - 1) with pulses := (part 2 Pkg.run).pulses.modify 0 fun p => { p with cfg := PLS_CFG_EN.put 1 0#32, quant := 1, r := 2 ^ 64 } }
def w36c : Device := { w36a with pulses := w36a.pulses.modify 0 fun p => { p with active := true, endAt := 30 } }
def w36d : Device := part 2 Pkg.load
def w36e : Device := { part 2 Pkg.run with pulses := (part 2 Pkg.run).pulses.modify 0 fun p => { p with cfg := PLS_CFG_EN.put 1 (PLS_CFG_MODE.put 1 0#32), quant := 1, spread := [(0, 10 ^ 9 * 2 ^ 32)], h := 10 ^ 9 * 2 ^ 32 - 10 ^ 6 } }
def w36f : Device := { w36e with pulses := (part 2 Pkg.run).pulses.modify 0 fun p => { p with cfg := PLS_CFG_EN.put 1 (PLS_CFG_MODE.put 1 0#32), quant := 1, spread := [(0, 10 ^ 9 * 2 ^ 32)] } }
theorem hyps_PulsesAreEmittedFromTheBacklog :
    (w36a.pulses.length = 4 ∧ plsLive w36a = true ∧ plsOn w36a 0 = true ∧ backlog w36a 0 ≠ 0 ∧
      max (match (pulse w36a 0).due with | [] => 0 | x :: _ => x.1) (pulse w36a 0).nextAt ≤ w36a.now ∧ (pulse w36a 0).active = false ∧ backlog w36a 0 < 2 ^ 32 - 1) ∧
    (w36b.pulses.length = 4 ∧ plsOn w36b 0 = true ∧ backlog w36b 0 = 2 ^ 32 - 1 ∧ plsRate w36b 0 = false ∧ quantum w36b 0 ≤ (pulse w36b 0).r ∧
      max (match (pulse w36b 0).due with | [] => 0 | x :: _ => x.1) (pulse w36b 0).nextAt ≤ w36b.now) ∧
    (plsLive w36d = false) ∧
    ((pulse w36c 0).active = true ∧ w36c.now < (pulse w36c 0).endAt) ∧
    ((pulse w36a 0).active = false) ∧
    (plsOn w36e 0 = true ∧ plsRate w36e 0 = true ∧ (pulse w36e 0).spread = [(0, 10 ^ 9 * 2 ^ 32)] ∧ 0 ≤ w36e.now ∧ w36e.now < 0 + 5119 ∧
      backlog w36e 0 < 2 ^ 32 - 1 ∧ rateFull ≤ (pulse w36e 0).h + (((w36e.now + 1 - 0 : Nat) : Int) * (10 ^ 9 * 2 ^ 32) / 5120 - ((pulse w36e 0).rateJ : Int) * (10 ^ 9 * 2 ^ 32) / 5120)) ∧
    (0 ≤ (pulse w36f 0).h + (((w36f.now + 1 - 0 : Nat) : Int) * (10 ^ 9 * 2 ^ 32) / 5120 - ((pulse w36f 0).rateJ : Int) * (10 ^ 9 * 2 ^ 32) / 5120) ∧
      (pulse w36f 0).h + (((w36f.now + 1 - 0 : Nat) : Int) * (10 ^ 9 * 2 ^ 32) / 5120 - ((pulse w36f 0).rateJ : Int) * (10 ^ 9 * 2 ^ 32) / 5120) < rateFull) ∧
    (plsRate w36a 0 = false) ∧
    (plsLive w36a = true ∧ (pulse w36a 0).active = false) := by decide +kernel

def w37a : Device := part 2 Pkg.run
def w37b : Device := ({ (part 2 Pkg.run) with clk := 2, tallyIn := [⟨false, 0, false, 0⟩, ⟨true, 0, false, 0⟩] } : Device).setReg 0x91 (TALLY_CFG_B_EN.put 1 (TALLY_CFG_B_EDGE.put 1 (TALLY_CFG_B_FAST.put 1 0#32)))
def w37c : Device := (w37b.setReg 0x99 1#32).setReg 0x98 0#32
def w37d : Device := part 2 Pkg.load
def w37h : Device := { (part 2 Pkg.run) with tallyIn := [⟨true, 0, true, 600⟩, ⟨false, 0, false, 0⟩] }
def w37e : Device := (part 2 Pkg.run).pset RUN_STAT_STATE 2
def w37f : Device := (part 2 Pkg.run).modRecov 1 fun x => { x with stalled := true }
def w37g : Device := (part 4 Pkg.run).pset PKG_STATE_DIES_HUSK 4
theorem hyps_TalliesCountAndRunsOpenAtABoundary :
    (w37a.tallyClr.length = 2 ∧ w37a.tallyIn.length = 2 ∧ plsLive w37a = true ∧ w37a.pbit TALLY_STAT_LVL_A = false ∧
      tallyCfg w37a false TALLY_CFG_A_FAST ≠ 1 ∧ (tallyPin w37a false).samples < 2 * tallyCfg w37a false TALLY_CFG_A_DEB) ∧
    (w37h.tallyClr.length = 2 ∧ w37h.tallyIn.length = 2 ∧ plsLive w37h = true ∧ w37h.pbit TALLY_STAT_LVL_A = !true ∧ tallyCfg w37h false TALLY_CFG_A_FAST ≠ 1 ∧ w37h.clk = 0 ∧
      (tallyPin w37h false).level = true ∧ (tallyPin w37h false).shown = true ∧ 2 * tallyCfg w37h false TALLY_CFG_A_DEB ≤ (tallyPin w37h false).samples ∧
      ¬ (tallyCfg w37h false TALLY_CFG_A_EN = 1 ∧ tallyCfg w37h false TALLY_CFG_A_EDGE = if true then 1 else 0)) ∧
    (w37b.tallyClr.length = 2 ∧ w37b.tallyIn.length = 2 ∧ plsLive w37b = true ∧ w37b.pbit TALLY_STAT_LVL_B = !true ∧ tallyCfg w37b true TALLY_CFG_A_FAST = 1 ∧ (tallyPin w37b true).level = true ∧
      16 ≤ 8 * (w37b.now - (tallyPin w37b true).since) ∧ tallyCfg w37b true TALLY_CFG_A_EN = 1 ∧
      tallyCfg w37b true TALLY_CFG_A_EDGE = 1 ∧ w37b.run.cnt + 1 < 2 ^ 32) ∧
    (plsLive w37d = false) ∧
    (TALLY_CTL_KEY.get (TALLY_CTL_KEY.put 0xC3 0#32) = 0xC3 ∧ TALLY_CTL_KEY.get 0#32 ≠ 0xC3) ∧
    (RUN_CTL_OPEN.get (RUN_CTL_OPEN.put 1 (RUN_CTL_CH.put 15 (RUN_CTL_INPUT.put 1 0#32))) = 1 ∧
      runRefusal (RUN_CTL_OPEN.put 1 (RUN_CTL_CH.put 15 (RUN_CTL_INPUT.put 1 0#32))) w37c = 0) ∧
    (runRefusal (RUN_CTL_OPEN.put 1 (RUN_CTL_CH.put 15 0#32)) w37e ≠ 0 ∧ runLive w37e = true) ∧
    (runLive w37d = false ∧ pkgState w37d ≠ Pkg.run) ∧
    (runLive w37f = false ∧ pkgState w37f = Pkg.run ∧ alive (w37f.die (RUN_CTL_CH.get (RUN_CTL_CH.put 15 0#32) / 8)) = false) ∧
    ((w37g.pget PKG_STATE_DIES_HUSK).testBit (RUN_CTL_CH.get (RUN_CTL_CH.put 16 0#32) / 8) = true) ∧
    w37a.nDies ≤ RUN_CTL_CH.get (RUN_CTL_CH.put 16 0#32) / 8 ∧
    (runLive w37a = false ∧ pkgState w37a = Pkg.run ∧ RUN_CTL_CH.get (RUN_CTL_CH.put 15 0#32) / 8 < w37a.nDies ∧
      (w37a.pget PKG_STATE_DIES_HUSK).testBit (RUN_CTL_CH.get (RUN_CTL_CH.put 15 0#32) / 8) = false ∧
      alive (w37a.die (RUN_CTL_CH.get (RUN_CTL_CH.put 15 0#32) / 8)) = true ∧ w37a.pget RUN_KINT = 0 ∧ w37a.pget RUN_KFRAC = 0) ∧
    (runLive w37a = false ∧ tallyCfg (w37a.pset RUN_KINT 1) false TALLY_CFG_A_EN = 0 ∧ (w37a.pset RUN_KINT 1).pget RUN_KINT ≠ 0) ∧
    (RUN_CTL_OPEN.get 0#32 = 0 ∧ RUN_CTL_CLOSE.get 0#32 = 0 ∧ RUN_CTL_ABORT.get 0#32 = 0) ∧
    (RUN_CTL_CLOSE.get (RUN_CTL_CLOSE.put 1 0#32) = 1 ∧ runLive w37e = true ∧ RUN_CTL_ABORT.get (RUN_CTL_ABORT.put 1 0#32) = 1) := by decide +kernel

def w38a : Device := part 2 Pkg.run
def w38b : Device := { (((part 2 Pkg.run).cset 15 CH_CTL_MODE 1).cset 15 CH_STAT_ACTIVE 1).setFrc (chAddr 15 0x14) (CH_PWM_PER.put 800 0#32) with line := { (part 2 Pkg.run).line with period := 2 ^ 22 } }
def w38c : Device := w38b.cset 15 ACIR_STAT_STATE 2
def w38d : Device := (part 2 Pkg.run).modAcir 15 fun a => { a with par := ⟨1, 2, 3, 4, 5, 0, false, false⟩ }
def w38e : Device := (w38d.cset 15 CH_LEASE_LSTATE 1).modLease 15 fun l => { l with counted := 2 ^ 40 }
def w38g : Device := (((part 2 Pkg.run).cset 15 ACIR_STAT_STATE 3).modAcir 15 fun a => { a with held := some ⟨1, 2, 3, 4, 5, 0, false, false⟩, moves := 16, env := 5 })
def w38f : Device := w38d.modAcir 15 fun a => { a with moves := 16 }
theorem hyps_WindowsAreRequestedAndLedIn :
    (Sound (st w38a) ∧ Sound (st w38b) ∧ Sound (st w38c) ∧ Sound (st w38d) ∧ Sound (st w38e) ∧ Sound (st w38g) ∧
      Sound (st w38f)) ∧
    (ACIR_CTL_START.get 0#32 = 0 ∧ ACIR_CTL_ABORT.get 0#32 = 0) ∧
    (ACIR_CTL_START.get (ACIR_CTL_START.put 1 0x00640801#32) = 1 ∧ ACIR_CTL_ABORT.get (ACIR_CTL_START.put 1 0x00640801#32) = 0 ∧ w38a.cget 15 CH_STAT_ACTIVE = 0) ∧
    (acirCheck (w38b.setReg (chAddr 15 0x50) (acirCtlStored (ACIR_CTL_START.put 1 0x00640801#32))) 15
      (hostAcirPar (w38b.setReg (chAddr 15 0x50) (acirCtlStored (ACIR_CTL_START.put 1 0x00640801#32))) 15) = 0 ∧ acirState w38b 15 ≠ 2 ∧ w38b.dbit 1 BENCH_STAT_CUSTODY = false) ∧
    (acirCheck (w38c.setReg (chAddr 15 0x50) (acirCtlStored (ACIR_CTL_START.put 1 0x00640801#32))) 15
      (hostAcirPar (w38c.setReg (chAddr 15 0x50) (acirCtlStored (ACIR_CTL_START.put 1 0x00640801#32))) 15) = 0 ∧ acirState w38c 15 = 2 ∧ w38c.dbit 1 BENCH_STAT_CUSTODY = false) ∧
    ((w38e.ch 15).acir.par.m ≠ 0 ∧ acirState w38e 15 = 0 ∧ (w38e.die 1).link.upSilent = false ∧ (w38e.ch 15).acir.leadPt ≤ ptOf w38e 1 ∧
      leaseCovers w38e 15 (demandOf w38e 15) = true) ∧
    ((w38d.ch 15).acir.par.m ≠ 0 ∧ acirState w38d 15 = 0 ∧ leaseCovers w38d 15 (demandOf w38d 15) = false ∧ (w38d.ch 15).acir.moves < 16) ∧
    (leaseCovers w38f 15 (demandOf w38f 15) = false ∧ ¬ (w38f.ch 15).acir.moves < 16 ∧ (w38f.ch 15).acir.par.m ≠ 0) ∧
    ((w38a.ch 15).acir.par.m = 0) ∧
    (acirState w38g 15 = 3 ∧ (w38g.ch 15).acir.held ≠ none ∧ (w38g.die 1).link.upSilent = false ∧ (w38g.ch 15).acir.leadPt ≤ ptOf w38g 1 ∧
      leaseCovers w38g 15 (demandOf w38g 15) = false ∧ ¬ (w38g.ch 15).acir.moves < 16) ∧
    (ACIR_CTL_ABORT.get (ACIR_CTL_ABORT.put 1 0#32) = 1 ∧ ACIR_CTL_START.get (ACIR_CTL_ABORT.put 1 0#32) = 0) ∧
    ((w38d.ch 15).acir.par.m ≠ 0 ∧ acirState w38d 15 < 3 ∧ (w38a.ch 15).acir.held = none) :=
  ⟨⟨sound_of (by decide +kernel), sound_of (by decide +kernel), sound_of (by decide +kernel),
   sound_of (by decide +kernel), sound_of (by decide +kernel), sound_of (by decide +kernel),
   sound_of (by decide +kernel)⟩, by decide +kernel⟩

def w39a : Device := ((part 2 Pkg.run).cset 15 ACIR_STAT_STATE 1).modAcir 15 fun a => { a with par := ⟨1, 2, 3, 4, 5, 0, false, false⟩ }
def w39b : Device := w39a.cset 15 ACIR_STAT_STATE 2
def w39c : Device := w39b.modAcir 15 fun a => { a with held := some ⟨1, 2, 3, 4, 5, 0, false, false⟩ }
def w39g : Device := (w39c.cset 15 CH_LEASE_LSTATE 1).modLease 15 fun l => { l with counted := 2 ^ 40 }
def w39d : Device := w39a.cset 15 ACIR_STAT_STATE 3
def w39e : Device := w39c.cset 15 ACIR_STAT_STATE 3
def w39f : Device := part 2 Pkg.run
def w39h : Device := (w39b.cset 15 ACIR_CFG_QE_EN 0).modAcir 15 fun a => { a with fHold := true }
theorem hyps_WindowsOpenCloseAndAbort :
    (Sound (st w39a) ∧ Sound (st w39b) ∧ Sound (st w39c) ∧ Sound (st w39g) ∧ Sound (st w39d) ∧ Sound (st w39e) ∧
      Sound (st w39f) ∧ Sound (st w39h)) ∧
    (acirState w39a 15 = 1 ∧ (w39a.ch 15).acir.openPt ≤ ptOf w39a 1) ∧
    (acirState w39f 15 ≠ 1 ∧ acirState w39f 15 ≠ 2 ∧ acirState w39f 15 ≠ 3) ∧
    (acirState w39b 15 = 2 ∧ (w39b.ch 15).acir.closePt ≤ ptOf w39b 1 ∧ (w39b.ch 15).acir.par.step = false ∧ (w39b.ch 15).acir.held = none) ∧
    ((w39b.ch 15).acir.siRe = 0 ∧ (w39b.ch 15).acir.siIm = 0 ∧ (w39b.ch 15).acir.siDc = 0) ∧
    ((w39b.cset 15 ACIR_CFG_QE_EN 0).cget 15 ACIR_CFG_QE_EN = 0) ∧
    (acirState w39c 15 = 2 ∧ (w39c.ch 15).acir.held = some ⟨1, 2, 3, 4, 5, 0, false, false⟩ ∧ (w39c.die 1).link.upSilent = false ∧ leaseCovers w39c 15 (demandOf w39c 15) = false) ∧
    (acirState w39g 15 = 2 ∧ (w39g.ch 15).acir.held = some ⟨1, 2, 3, 4, 5, 0, false, false⟩ ∧ leaseCovers w39g 15 (demandOf w39g 15) = true) ∧
    (acirState w39d 15 = 3 ∧ (w39d.ch 15).acir.env = 0 ∧ (w39d.ch 15).acir.held = none) ∧
    (acirState w39e 15 = 3 ∧ (w39e.ch 15).acir.env = 0 ∧ (w39e.ch 15).acir.held = some ⟨1, 2, 3, 4, 5, 0, false, false⟩) ∧
    ((w39b.ch 15).acir.par.m ≠ 0 ∧ acirState w39b 15 < 3) ∧
    ((w39f.ch 15).acir.par.m = 0 ∧ (w39f.ch 15).acir.held = none) ∧
    (acirState w39h 15 = 2 ∧ (w39h.ch 15).acir.fHold = true ∧ w39h.cget 15 ACIR_CFG_QE_EN = 0 ∧ (w39h.ch 15).acir.held = none) :=
  ⟨⟨sound_of (by decide +kernel), sound_of (by decide +kernel), sound_of (by decide +kernel),
   sound_of (by decide +kernel), sound_of (by decide +kernel), sound_of (by decide +kernel),
   sound_of (by decide +kernel), sound_of (by decide +kernel)⟩, by decide +kernel⟩

def w40a : Device := atPhase 4 0 ((running 8 1 (stepOf 1 0 0 0 [0, 0, 0, 0]) (part 2 Pkg.run)).cset 8 CH_LEASE_LSTATE 1)
def w40b : Device := w40a.cset 8 CH_NTC_BAND 4
def w40c : Device := { atPhase 4 (2 ^ 44 * 3 + 2 ^ 43) w40a with clk := 100 }
def w40d : Device := part 2 Pkg.run
def w40e : Device := (running 8 7 (stepOf 1 0 0 0 [0, 0, 0, 0]) (part 2 Pkg.run)).modEng 8 fun e => { e with seat := .settle }
def w40g : Device := late w40e
def w40f : Device := (w40e.cset 8 CH_SEAT_SETTLE 1)
def w40h : Device := w40a.modEng 8 fun e => { e with restart := true }
theorem hyps_StepsStartUnderTheirLease :
    (Sound (st w40a) ∧ Sound (st w40b) ∧ Sound (st w40c) ∧ Sound (st w40d) ∧ Sound (st w40g) ∧ Sound (st w40f) ∧
      Sound (st w40h)) ∧
    (8 / 8 < w40a.nDies ∧ engState w40a 8 = EngSt.wait ∧ leaseHeld w40a 8 = true ∧ slotBegins w40a (slotOf w40a 8) = true ∧ bandCause w40a 8 = 0 ∧
      (w40a.die 1).vdrvBad = false ∧ w40a.cget 8 CH_CTL_OVR = 0) ∧
    (engState w40b 8 = EngSt.wait ∧ leaseHeld w40b 8 = true ∧ slotBegins w40b (slotOf w40b 8) = true ∧ bandCause w40b 8 ≠ 0) ∧
    (engState w40c 8 = EngSt.wait ∧ leaseHeld w40c 8 = true ∧ slotBegins w40c (slotOf w40c 8) = false) ∧
    (¬ leaseHeld w40d 8 = true ∧ w40d.cget 8 CH_CTL_OVR = 0) ∧
    ((w40g.ch 8).eng.seat = .settle ∧ engState w40g 8 = EngSt.reseat ∧ needsCurrent (curType w40g 8) = true ∧
      (w40g.ch 8).eng.seatAt + w40g.cget 8 CH_SEAT_SETTLE * 10 * 20480 ≤ w40g.now) ∧
    ((w40d.ch 8).eng.seat ≠ .settle ∧ w40f.now < (w40f.ch 8).eng.seatAt + w40f.cget 8 CH_SEAT_SETTLE * 10 * 20480) ∧
    (engState w40h 8 = EngSt.wait ∧ leaseHeld w40h 8 = true ∧ slotBegins w40h (slotOf w40h 8) = true ∧ (w40h.ch 8).eng.restart = true) :=
  ⟨⟨sound_of (by decide +kernel), sound_of (by decide +kernel), sound_of (by decide +kernel),
   sound_of (by decide +kernel), sound_of (by decide +kernel), sound_of (by decide +kernel),
   sound_of (by decide +kernel)⟩, by decide +kernel⟩

def w41a : Device := running 8 3 (stepOf 10 0 0 0 [0, 0, 0, 0]) (part 2 Pkg.run)
def w41b : Device := late ((running 8 3 (stepOf 10 0 0 (65536 * 5) [0, 0, 7, 0]) (part 2 Pkg.run)).modEng 8 fun e => { e with level2 := true, caps := [(1, 2)] })
def w41c : Device := w41b.dset 1 TRACE_CFG_STEP_ONLY 1
def w41d : Device := running 8 3 (stepOf 8 0 0 0 [0, 0, 0, 0]) (part 2 Pkg.run)
def w41e : Device := running 8 3 (stepOf 10 0 0 1 [0, 0, 0, 0]) (part 2 Pkg.run)
def w41f : Device := part 2 Pkg.run
def w41h : Device := (part 2 Pkg.run).dset 1 TRACE_COUNT 2048
def w41i : Device := w41b.modEng 8 fun e => { e with caps := [(1, 0)] }
def w41g : Device := running 8 3 (stepOf 8 1 0 0 [0, 0, 0, 0]) (part 2 Pkg.run)
theorem hyps_RecordsEnterTheTraceBuffer :
    (Sound (st w41a) ∧ Sound (st w41b) ∧ Sound (st w41c) ∧ Sound (st w41d) ∧ Sound (st w41e) ∧ Sound (st w41f) ∧
      Sound (st w41h) ∧ Sound (st w41i) ∧ Sound (st w41g)) ∧
    (engState w41a 8 = EngSt.running ∧ curType w41a 8 = 10 ∧ curStep w41a 8 = some (stepOf 10 0 0 0 [0, 0, 0, 0]) ∧ (w41a.ch 8).eng.level2 = false ∧
      (w41a.ch 8).eng.startAt + 0 % 65536 * 20480 ≤ w41a.now ∧ w41a.cget 8 CH_CTL_OVR = 0) ∧
    (curStep w41e 8 = some (stepOf 10 0 0 1 [0, 0, 0, 0]) ∧ w41e.now < (w41e.ch 8).eng.startAt + 1 % 65536 * 20480) ∧
    ((w41a.ch 8).eng.fastHist.foldl (fun a x => a + x.1) 0 = 16 * 0) ∧
    (¬ engState w41f 8 = EngSt.running) ∧
    (engState w41b 8 = EngSt.running ∧ curType w41b 8 = 10 ∧ curStep w41b 8 = some (stepOf 10 0 0 (65536 * 5) [0, 0, 7, 0]) ∧ (w41b.ch 8).eng.level2 = true ∧
      pulseDelay (stepOf 10 0 0 (65536 * 5) [0, 0, 7, 0]) 1 ≠ 0 ∧ pulseDelay (stepOf 10 0 0 (65536 * 5) [0, 0, 7, 0]) 1 ≤ 65536 * 5 / 65536 * 10 ∧
      (w41b.ch 8).eng.caps = (1, 2) :: [] ∧ (w41b.ch 8).eng.capMask.testBit 1 = false ∧
      (w41b.ch 8).eng.levelAt + 2048 * pulseDelay (stepOf 10 0 0 (65536 * 5) [0, 0, 7, 0]) 1 ≤ w41b.now ∧
      w41b.dget 1 TRACE_COUNT < 2048 ∧ w41b.dbit 1 TRACE_CFG_STEP_ONLY = false) ∧
    ((w41i.ch 8).eng.caps = (1, 0) :: [] ∧ (w41i.ch 8).eng.fastHist.foldl (fun a x => a + x.2) 0 = 16 * 0 ∧
      engState w41i 8 = EngSt.running ∧ curType w41i 8 = 10 ∧ (w41i.ch 8).eng.level2 = true ∧ (w41i.ch 8).eng.capMask.testBit 1 = false) ∧
    (w41c.dbit 1 TRACE_CFG_STEP_ONLY = true) ∧
    (engState w41d 8 = EngSt.running ∧ curType w41d 8 = 8 ∧ (w41d.ch 8).eng.ocvK < 16 ∧ 0 * 2 ^ (w41d.ch 8).eng.ocvK * 4 ≤ (w41d.ch 8).eng.frames ∧
      w41d.dget 1 TRACE_COUNT < 2048) ∧
    ((w41g.ch 8).eng.frames < 1 * 2 ^ (w41g.ch 8).eng.ocvK * 4) ∧
    (TRACE_PTR_RD.get (TRACE_PTR_RD.put 1 0#32) ≠ w41h.dget 1 TRACE_PTR_RD ∧
      (w41h.dget 1 TRACE_PTR_WR + 2048 - TRACE_PTR_RD.get (TRACE_PTR_RD.put 1 0#32)) % 2048 ≤ w41h.dget 1 TRACE_COUNT) ∧
    (w41f.dget 1 TRACE_COUNT < (w41f.dget 1 TRACE_PTR_WR + 2048 - TRACE_PTR_RD.get (TRACE_PTR_RD.put 1 0#32)) % 2048) :=
  ⟨⟨sound_of (by decide +kernel), sound_of (by decide +kernel), sound_of (by decide +kernel),
   sound_of (by decide +kernel), sound_of (by decide +kernel), sound_of (by decide +kernel),
   sound_of (by decide +kernel), sound_of (by decide +kernel), sound_of (by decide +kernel)⟩, by decide +kernel⟩

def w42a : Device := (running 8 3 (stepOf 1 0 0 0 [0, 0, 0, 0]) (part 2 Pkg.run)).modDue 8 fun u => { u with seq := 1 }
def w42b : Device := w42a.modDue 8 fun u => { u with seq := 4 }
def w42c : Device := (part 2 Pkg.run).modDue 8 fun u => { u with seq := 16 }
theorem hyps_HostStepCommandsActAtTheBoundary :
    (w42a.chans.length = 64 ∧ dieRuns (w42a.die 1) = true ∧ pkgState w42a = Pkg.run ∧ stopFaults w42a 8 = 0 ∧ (w42a.ch 8).due.contact = false ∧
      (w42a.ch 8).due.pause = 0 ∧ engState w42a 8 = EngSt.running ∧ (w42a.ch 8).eng.interrupted = false ∧ (w42a.ch 8).due.seq = 1) ∧
    (dieRuns (w42b.die 1) = true ∧ engState w42b 8 = EngSt.running ∧ (w42b.ch 8).due.seq = 4) ∧
    (engState w42c 8 = EngSt.idle ∧ w42c.pbit IMAGE_STAT_VALID = true ∧ (w42c.die 1).hasDie = true ∧ (w42c.ch 8).due.seq = 16 ∧ (w42c.die 1).recipes = []) := by decide +kernel

def w43a : Device := atPhase 4 (2 ^ 48 - 2 ^ 39) (part 2 Pkg.run)
def w43b : Device := w43a.modLease 8 fun l => { l with inForce := true, counted := 2 ^ 20, reported := 2 ^ 20 }
theorem hyps_FreezePointsKeepTheLimit :
    (Sound (st w43b)) ∧
    ((w43b.die 0).up = true ∧ freezeDue w43b 0 = true ∧ pkgState w43b = Pkg.run ∧ BUS_CFG_RLIM_EN.get (w43b.reg BUS_CFG_RLIM_EN.off) = 0) :=
  ⟨sound_of (by decide +kernel), by decide +kernel⟩

def w44a : Device := part 2 Pkg.run
def w44b : Device := atPhase 4 (2 ^ 48 - 2 ^ 39) ((part 2 Pkg.run).modLease 8 fun l => { l with inForce := true, age := 2 })
def w44c : Device := atPhase 4 (2 ^ 48 - 2 ^ 39) ((part 2 Pkg.run).modLease 8 fun l => { l with inForce := true, released := true })
def w44d : Device := atPhase 4 (2 ^ 48 - 2 ^ 39) ((part 2 Pkg.run).modLease 8 fun l => { l with inForce := true, reported := -5 })
def w44e : Device := atPhase 4 (2 ^ 48 - 2 ^ 39) (((part 2 Pkg.run).modLease 8 fun l => { l with waiting := true }).setReg (chAddr 8 0x5F) 5#32)
def w44f : Device := atPhase 4 (2 ^ 48 - 2 ^ 39) { part 2 Pkg.hold with busW1c := 0xFFFFFFFF#32, busClr := true }
theorem hyps_FreezePointsSettleTheLeases :
    (Sound (st w44a) ∧ Sound (st w44b) ∧ Sound (st w44c) ∧ Sound (st w44d) ∧ Sound (st w44e) ∧ Sound (st w44f)) ∧
    (freezeDue w44a 0 = false ∧ (w44a.die 0).up = true) ∧
    ((w44f.die 0).up = true ∧ freezeDue w44f 0 = true ∧ pkgState w44f ≠ Pkg.run) ∧
    ((w44b.die 0).up = true ∧ freezeDue w44b 0 = true ∧ pkgState w44b = Pkg.run ∧ 8 < w44b.nCh ∧ (w44b.ch 8).lease.inForce = true ∧ 2 ≤ (w44b.ch 8).lease.age ∧
      (w44b.ch 8).lease.waiting = false) ∧
    ((w44c.ch 8).lease.inForce = true ∧ (w44c.ch 8).lease.released = true ∧ (w44c.ch 8).lease.waiting = false ∧ freezeDue w44c 0 = true) ∧
    ((w44d.ch 8).lease.inForce = true ∧ (w44d.ch 8).lease.age < 2 ∧ (w44d.ch 8).lease.released = false ∧ (w44d.ch 8).lease.reported < 0 ∧
      BUS_CFG_RLIM_EN.get (w44d.reg BUS_CFG_RLIM_EN.off) = 0 ∧ freezeDue w44d 0 = true) ∧
    ((w44e.ch 8).lease.inForce = false ∧ (w44e.ch 8).lease.waiting = true ∧ CH_SLOT_OFS.get (w44e.reg (chAddr 8 CH_SLOT_OFS.off)) ≠ 0 ∧ freezeDue w44e 0 = true) :=
  ⟨⟨sound_of (by decide +kernel), sound_of (by decide +kernel), sound_of (by decide +kernel),
   sound_of (by decide +kernel), sound_of (by decide +kernel), sound_of (by decide +kernel)⟩, by decide +kernel⟩

def w45a : Device := atPhase 4 0 ((running 8 3 (stepOf 1 0 0 0 [0, 0, 0, 0]) (part 2 Pkg.run)).cset 8 CH_LEASE_LSTATE 1)
def w45b : Device := w45a.modLease 8 fun l => { l with decision := 2 }
def w45c : Device := ((w45a.cset 8 CH_STAT_ENGINE 1).cset 8 CH_LEASE_LSTATE 2).modLease 8 fun l => { l with decision := 3 }
def w45d : Device := w45c.modLease 8 fun l => { l with decision := 1 }
def w45e : Device := (List.range 8).foldl (fun d k => d.modLease (8 + k) fun l => { l with decision := 2, late := true }) w45a
def w45f : Device := (w45a.modLink 1 fun l => { l with upSilent := true })
def w45m : Device := (w45b.cset 8 ACIR_STAT_STATE 1).modAcir 8 fun a => { a with openPt := 0 }
def w45h : Device := { atPhase 4 (2 ^ 44 * 3 + 2 ^ 43) (part 2 Pkg.run) with clk := 100 }
def w45i : Device := ((running 8 7 (stepOf 1 0 0 0 [0, 0, 0, 0]) (part 2 Pkg.run)).setReg (dieAddr 1 0x21) (VALVE_MODE_EN.put 1 0#32)).cset 8 CH_SEAT_VALVE 4
def w45j : Device := w45i.modEng 8 fun e => { e with seat := .wantPull }
def w45k : Device := w45i.modEng 8 fun e => { e with seat := .wantRelease }
def w45n : Device := (running 3 7 (stepOf 1 0 0 0 [0, 0, 0, 0]) (part 2 Pkg.run)).modEng 3 fun e => { e with seat := .wantPull }
def w45l : Device := w45h.modRecov 1 fun r => { r with stalled := true }
theorem hyps_DecisionsTakeEffectAtTheSlot_1 :
    (Sound (st w45b) ∧ Sound (st w45c) ∧ Sound (st w45d)) ∧
    ((w45b.die 1).up = true ∧ (List.range 16).any (slotBegins w45b) = true ∧ (w45b.die 1).link.upSilent = false ∧ (w45b.ch 8).lease.late = false ∧
      (w45b.ch 8).lease.decision = 2 ∧ leaseHeld w45b 8 = true ∧ acirComesFirst w45b 8 = false ∧
      (∀ h, h < 64 → h / 8 = 1 → h ≠ 8 → (w45b.ch h).lease.decision = 0)) ∧
    ((w45c.ch 8).lease.decision = 3 ∧ engState w45c 8 = EngSt.wait ∧ leaseSt w45c 8 = 2) ∧
    ((w45d.ch 8).lease.decision = 1 ∧ leaseSt w45d 8 = 2 ∧ bandCause w45d 8 = 0 ∧ (w45d.die 1).vdrvBad = false ∧ engState w45d 8 = EngSt.wait ∧
      w45d.cget 8 CH_CTL_OVR = 0) :=
  ⟨⟨sound_of (by decide +kernel), sound_of (by decide +kernel), sound_of (by decide +kernel)⟩, by decide +kernel⟩

theorem hyps_DecisionsTakeEffectAtTheSlot_2 :
    (Sound (st w45e) ∧ Sound (st w45f) ∧ Sound (st w45h)) ∧
    (∀ g, g < 64 → g / 8 = 1 → (w45e.ch g).lease.late = true) ∧
    ((List.range 16).any (slotBegins w45h) = false) ∧
    ((w45f.die 1).link.upSilent = true) :=
  ⟨⟨sound_of (by decide +kernel), sound_of (by decide +kernel), sound_of (by decide +kernel)⟩, by decide +kernel⟩

theorem hyps_DecisionsTakeEffectAtTheSlot_3 :
    (Sound (st w45m) ∧ Sound (st w45h) ∧ Sound (st w45j) ∧ Sound (st w45k)) ∧
    (w45m.clk = 0 ∧ (w45m.ch 8).lease.decision = 2 ∧ (w45m.ch 8).lease.late = false ∧ acirComesFirst w45m 8 = true ∧
      (List.range 16).any (slotBegins w45m) = true ∧ (∀ h, h < 64 → h / 8 = 1 → h ≠ 8 → (w45m.ch h).lease.decision = 0)) ∧
    (acceptCode w45j (w45j.cget 8 CH_SEAT_VALVE) true = 0 ∧ acceptCode w45k (w45k.cget 8 CH_SEAT_VALVE) false = 0) ∧
    (arrives w45h 1 = true ∧ reaches w45h 1 = true) :=
  ⟨⟨sound_of (by decide +kernel), sound_of (by decide +kernel), sound_of (by decide +kernel),
   sound_of (by decide +kernel)⟩, by decide +kernel⟩

theorem hyps_DecisionsTakeEffectAtTheSlot_4 :
    (Sound (st w45h) ∧ Sound (st w45l)) ∧
    (arrives w45l 1 = false) ∧
    (arrives w45h 0 = true ∧ 0 / 8 = 0 ∧ (∀ c ∈ (w45h.die 1).link.upWait, c.seq ≠ (w45h.die 1).link.upSeq) ∧
      ∀ c ∈ (w45h.die 1).link.wait, c.seq ≠ (w45h.die 1).link.seq) ∧
    (reaches w45h 0 = false) :=
  ⟨⟨sound_of (by decide +kernel), sound_of (by decide +kernel)⟩, by decide +kernel⟩

theorem hyps_DecisionsTakeEffectAtTheSlot_5 :
    (Sound (st w45j) ∧ Sound (st w45k) ∧ Sound (st w45n)) ∧
    (arrives w45j 1 = true ∧ dieRuns (w45j.die 1) = true ∧ engState w45j 8 = EngSt.reseat ∧ (w45j.ch 8).eng.interrupted = false ∧ (w45j.ch 8).eng.seat = .wantPull ∧
      w45j.vreqs = [] ∧ (w45j.die 1).link.upWait = []) ∧
    ((w45k.ch 8).eng.seat = .wantRelease ∧ (w45k.die 1).link.upWait = []) ∧
    (arrives w45n 0 = true ∧ dieRuns (w45n.die 0) = true ∧ engState w45n 3 = EngSt.reseat ∧ (w45n.ch 3).eng.interrupted = false ∧ (w45n.ch 3).eng.seat = .wantPull ∧
      w45n.vreqs = [] ∧ (w45n.die 0).link.upWait = []) :=
  ⟨⟨sound_of (by decide +kernel), sound_of (by decide +kernel), sound_of (by decide +kernel)⟩, by decide +kernel⟩

theorem hyps_DecisionsTakeEffectAtTheSlot_6 :
    (Sound (st w45b)) ∧
    (8 < 64 ∧ 8 / 8 = 1 ∧ (w45b.ch 8).lease.decision ≠ 0) :=
  ⟨sound_of (by decide +kernel), by decide +kernel⟩

def w46a : Device := part 2 Pkg.keep
def w46b : Device := part 2 Pkg.run
def w46c : Device := ((part 2 Pkg.run).setReg (dieAddr 1 0x2D) (VALVE_MODE_EN.put 1 0#32)).pset VBST_STAT_READY_ST 1
def w46d : Device := { w46c with vreqs := List.replicate 8 (request 5 true 0) }
def w46e : Device := { late (w46c.modDie 1 fun x => { x with up := false }) with vreqs := [] }
def w46f : Device := { late w46c with vreqs := [request 7 true 0] }
def w46g : Device := { w46c with vreqs := [request 7 true (2 ^ 40)] }
def w46h : Device := { late ((w46c.pset VBST_STAT_READY_ST 0).pset VBST_SCHED_SLIP 0) with vreqs := [request 7 true 0] }
def w46i : Device := (w46h.pset VBST_SCHED_SLIP 3)
def w46j : Device := { w46i with vreqs := [{ request 7 true 0 with due := true, deferred := true }] }
def w46k : Device := { late (w46c.dset 1 (VALVE_STAT_PHASE.at 3) 3) with vreqs := [request 7 true 0] }
def w46l : Device := { late (w46c.dset 1 (VALVE_STAT_PHASE.at 3) 1) with vreqs := [request 7 false 0], grants := [(7, 0)] }
def w46m : Device := w46b.modLink 1 fun l => { l with upSilent := true }
def w46n : Device := { w46f with vreqs := [{ request 7 true 0 with due := true }] }
theorem hyps_ValveRequestsAreScheduled :
    (Sound (st w46a) ∧ Sound (st w46b) ∧ Sound (st w46c) ∧ Sound (st w46d) ∧ Sound (st w46e) ∧ Sound (st w46f) ∧
      Sound (st w46g) ∧ Sound (st w46h) ∧ Sound (st w46i) ∧ Sound (st w46j) ∧ Sound (st w46k) ∧ Sound (st w46l) ∧
      Sound (st w46m) ∧ Sound (st w46n)) ∧
    (7 / 4 < w46a.nDies ∧ (w46a.die 1).up = true ∧ valveStateOk (pkgState w46a) = false) ∧
    (valveStateOk (pkgState w46b) = true ∧ w46b.dget 1 (VALVE_MODE_EN.at (4 * (7 % 4))) = 0) ∧
    (valveStateOk (pkgState w46d) = true ∧ w46d.dget 1 (VALVE_MODE_EN.at (4 * (7 % 4))) = 1 ∧ 8 ≤ (w46d.vreqs.filter fun r => r.valve / 4 == 7 / 4).length) ∧
    (acceptCode w46c 7 true = 0 ∧ acceptCode w46c 7 false = 0) ∧
    (valveStateOk (pkgState w46e) = true ∧ (w46e.die 1).up = false ∧ w46e.nDies ≤ 31 / 4 ∧ (w46e.die 0).up = true ∧ VALVE_REQ_KIND.get 1#32 = 1) ∧
    (w46f.vreqs = [request 7 true 0] ∧ decisionsReach w46f 7 = true ∧ phaseOf w46f 7 = Ph.off ∧ (coilOf w46f 7).latched = false ∧ pkgState w46f = Pkg.run ∧
      0 ≤ linePt w46f ∧ 0 + 64 ≤ w46f.now ∧ slipCode w46f (request 7 true 0) = 0 ∧ storeApplies w46f 7 = false) ∧
    (slipCode w46n { request 7 true 0 with due := true } = 0 ∧ w46n.vreqs = [{ request 7 true 0 with due := true }]) ∧
    ¬ ((request 7 true (2 ^ 40)).pt ≤ linePt w46g) ∧
    (slipCode w46h (request 7 true 0) ≠ 0 ∧ w46h.pget VBST_SCHED_SLIP = 0 ∧ phaseOf w46h 7 = Ph.off ∧ decisionsReach w46h 7 = true) ∧
    (slipCode w46i (request 7 true 0) ≠ 0 ∧ w46i.pget VBST_SCHED_SLIP ≠ 0 ∧ phaseOf w46i 7 = Ph.off) ∧
    (slipCode w46j { request 7 true 0 with due := true, deferred := true } ≠ 0 ∧ 0 + w46j.pget VBST_SCHED_SLIP * 2 ^ 28 ≤ linePt w46j) ∧
    (linePt w46g < 2 ^ 40 + w46g.pget VBST_SCHED_SLIP * 2 ^ 28) ∧
    (energised (phaseOf w46k 7) = true ∧ energised (phaseOf w46l 7) = true) ∧
    (w46b.vreqs = []) ∧
    (decisionsReach w46m 7 = false) :=
  ⟨⟨sound_of (by decide +kernel), sound_of (by decide +kernel), sound_of (by decide +kernel),
   sound_of (by decide +kernel), sound_of (by decide +kernel), sound_of (by decide +kernel),
   sound_of (by decide +kernel), sound_of (by decide +kernel), sound_of (by decide +kernel),
   sound_of (by decide +kernel), sound_of (by decide +kernel), sound_of (by decide +kernel),
   sound_of (by decide +kernel), sound_of (by decide +kernel)⟩, by decide +kernel⟩

def w47a : Device := late ((part 2 Pkg.run).dset 1 (VALVE_STAT_PHASE.at 3) 1)
def w47b : Device := (part 2 Pkg.run).dset 1 (VALVE_STAT_PHASE.at 3) 1
def w47c : Device := (part 2 Pkg.run).dset 1 (VALVE_STAT_PHASE.at 3) 2
def w47d : Device := (part 2 Pkg.run).dset 1 (VALVE_STAT_PHASE.at 3) 4
def w47e : Device := part 2 Pkg.run
theorem hyps_ValvePhasesRunTheirCourse :
    (Sound (st w47a) ∧ Sound (st w47b) ∧ Sound (st w47c) ∧ Sound (st w47d) ∧ Sound (st w47e)) ∧
    (7 / 4 < w47a.nDies ∧ phaseOf w47a 7 = Ph.pull ∧ (coilOf w47a 7).pullAt + VALVE_CFG_TPULL.get (coilOf w47a 7).cfg * 2048 ≤ w47a.now ∧
      (∀ w, w < 7 → w / 4 = 1 → phaseOf w47a w ≠ Ph.pull) ∧ (coilOf w47a 7).seat = none) ∧
    (phaseOf w47b 7 = Ph.pull ∧ w47b.now < (coilOf w47b 7).pullAt + VALVE_CFG_TPULL.get (coilOf w47b 7).cfg * 2048) ∧
    (phaseOf w47c 7 = Ph.drop ∧ phaseOf w47d 7 = Ph.release ∧ phaseOf w47e 7 = Ph.off) ∧
    (17 * 50 * ipeakOf w47b 7 ≤ 16 * 25 * 100000 ∧ (coilOf w47b 7).chopOff = false) ∧
    (25 * 0 < 50 * ipeakOf w47b 7) :=
  ⟨⟨sound_of (by decide +kernel), sound_of (by decide +kernel), sound_of (by decide +kernel),
   sound_of (by decide +kernel), sound_of (by decide +kernel)⟩, by decide +kernel⟩

def w48a : Device := late ((part 2 Pkg.run).dset 1 (VALVE_STAT_PHASE.at 3) 1)
def w48b : Device := (late ((part 2 Pkg.run).dset 1 (VALVE_STAT_PHASE.at 3) 3)).modDie 1 fun x => { x with coils := x.coils.modify 3 fun c => { c with weakAt := some 0 } }
def w48c : Device := w48a.dset 1 (VALVE_STAT_IMEAS.at 3) 4
def w48d : Device := (part 2 Pkg.run).dset 1 (VALVE_STAT_PHASE.at 3) 3
def w48e : Device := part 2 Pkg.run
def w48f : Device := ((part 2 Pkg.run).dset 1 (VALVE_STAT_PHASE.at 3) 5).dset 1 (VALVE_STAT_SHORT.at 3) 1
def w48g : Device := (part 2 Pkg.run).dset 1 VALVE_BANK_CLAMP_OT 1
def w48h : Device := (((part 2 Pkg.hold).dset 1 (VALVE_STAT_PHASE.at 3) 3).modDie 1 fun x => { x with coils := x.coils.modify 3 fun c => { c with mode := VALVE_MODE_POLICY.put 1 0#32 } }).setFrc 0x48 100#32
def w48i : Device := { late (part 2 Pkg.run) with bankAt := [none, some 0, none, none, none, none, none, none], grants := [(7, 0)] }
def w48j : Device := { part 2 Pkg.run with bankAt := [none, some 0, none, none, none, none, none, none], grants := [(7, 0)] }
theorem hyps_ValveDiagnosticsAndBatons :
    (Sound (st w48a) ∧ Sound (st w48b) ∧ Sound (st w48c) ∧ Sound (st w48d) ∧ Sound (st w48e) ∧ Sound (st w48f) ∧
      Sound (st w48g) ∧ Sound (st w48h) ∧ Sound (st w48i) ∧ Sound (st w48j)) ∧
    (7 / 4 < w48a.nDies ∧ 1 < w48a.nDies ∧ phaseOf w48a 7 = Ph.pull ∧ (coilOf w48a 7).pullAt + 2048 ≤ w48a.now ∧ vget w48a 7 VALVE_STAT_IMEAS < 4 ∧
      vget w48a 7 VALVE_STAT_OPEN = 0) ∧
    (phaseOf w48b 7 = Ph.hold ∧ (coilOf w48b 7).weakAt = some 0 ∧ 0 + 40960 ≤ w48b.now) ∧
    (phaseOf w48c 7 = Ph.pull ∧ 4 ≤ vget w48c 7 VALVE_STAT_IMEAS) ∧
    (phaseOf w48d 7 = Ph.hold ∧ (coilOf w48d 7).weakAt = none) ∧
    (phaseOf w48e 7 ≠ Ph.pull ∧ phaseOf w48e 7 ≠ Ph.hold ∧ phaseOf w48e 7 ≠ Ph.fault ∧ vget w48e 7 VALVE_STAT_SHORT = 0) ∧
    (phaseOf w48f 7 = Ph.fault ∧ vget w48f 7 VALVE_STAT_SHORT = 1) ∧
    ((coilOf w48a 7).reached = false ∧ (coilOf w48a 7).pullAt + VALVE_CFG_TREACH.get (coilOf w48a 7).cfg * 2048 ≤ w48a.now ∧ vget w48a 7 VALVE_STAT_SLOW = 0) ∧
    (w48e.dbit 1 VALVE_BANK_CLAMP_OT = false ∧ w48g.dbit 1 VALVE_BANK_CLAMP_OT = true) ∧
    (pkgState w48h = Pkg.hold ∧ (w48h.reg 0x49).toNat < w48h.pfrc STORE_RES_RESERVE ∧ phaseOf w48h 7 = Ph.hold ∧ keeps w48h 7 = true ∧ decisionsReach w48h 7 = true ∧
      ∀ w, w < 4 * w48h.nDies → 7 < w → phaseOf w48h w ≠ Ph.hold) ∧
    pkgState w48e ≠ Pkg.hold ∧
    (w48i.bankAt.length = 8 ∧ w48i.bankAt[1]? = some (some 0) ∧ 0 + 512000 ≤ w48i.now ∧ w48i.grants = [(7, 0)]) ∧
    (w48j.bankAt[1]? = some (some 0) ∧ w48j.now < 0 + 512000 ∧ w48e.bankAt[1]? = some none ∧ w48e.grants = []) :=
  ⟨⟨sound_of (by decide +kernel), sound_of (by decide +kernel), sound_of (by decide +kernel),
   sound_of (by decide +kernel), sound_of (by decide +kernel), sound_of (by decide +kernel),
   sound_of (by decide +kernel), sound_of (by decide +kernel), sound_of (by decide +kernel),
   sound_of (by decide +kernel)⟩, by decide +kernel⟩

def w49a : Device := (part 2 Pkg.run).dset 1 (VALVE_STAT_PHASE.at 3) 3
def w49b : Device := (part 2 Pkg.run).modSup fun u => { u with pfTripped := true }
def w49c : Device := part 2 Pkg.qualify
def w49d : Device := part 2 Pkg.load
def w49e : Device := (part 2 Pkg.run).modDie 1 fun x => { x with up := false }
def w49f : Device := part 2 Pkg.handover
def w49g : Device := (part 2 Pkg.handover).modNvm fun n => { n with cur := some .handover }
def w49h : Device := w49g.modSup fun u => { u with fallWait := true }
def w49i : Device := (part 2 Pkg.run).modDie 0 fun x => { x with up := false }
def w49j : Device := (part 2 Pkg.qualify).modLine fun l => { l with meter := 2 ^ 80 }
theorem hyps_TripsHandOverToHold_1 :
    (Sound (st w49a) ∧ Sound (st w49b) ∧ Sound (st w49c)) ∧
    ((w49a.die 0).up = true ∧ pkgState w49a = Pkg.run ∧ w49a.supply.pfTripped = false ∧ 7 < 4 * w49a.nDies ∧ keeps w49a 7 = false ∧
      (w49a.die (7 / 4)).recov.active = false ∧ decisionsReach w49a 7 = true ∧ energised (phaseOf w49a 7) = true) ∧
    (w49b.supply.pfTripped = true) ∧
    ((w49c.die 0).up = true ∧ w49c.supply.pfTripped = false ∧ pkgState w49c ∈ [Pkg.qualify, Pkg.recover, Pkg.test]) :=
  ⟨⟨sound_of (by decide +kernel), sound_of (by decide +kernel), sound_of (by decide +kernel)⟩, by decide +kernel⟩

theorem hyps_TripsHandOverToHold_2 :
    (Sound (st w49a) ∧ Sound (st w49d) ∧ Sound (st w49e)) ∧
    ((w49d.die 0).up = true ∧ w49d.supply.pfTripped = false ∧ pkgState w49d ∉ [Pkg.qualify, Pkg.recover, Pkg.test, Pkg.run]) ∧
    (1 < w49a.nDies ∧ (w49a.die 1).up = true) ∧
    ((w49e.die 1).up = false) :=
  ⟨⟨sound_of (by decide +kernel), sound_of (by decide +kernel), sound_of (by decide +kernel)⟩, by decide +kernel⟩

theorem hyps_TripsHandOverToHold_3 :
    (Sound (st w49f) ∧ Sound (st w49g) ∧ Sound (st w49h)) ∧
    ((w49f.die 0).up = true ∧ pkgState w49f = Pkg.handover ∧ w49f.nvm.cur ≠ some .handover ∧ w49f.supply.softDue = false ∧ w49f.supply.wdtDue = false) ∧
    (w49g.nvm.cur = some .handover ∧ w49g.supply.fallWait = false) ∧
    (pkgState w49h = Pkg.handover ∧ w49h.nvm.cur = some .handover ∧ w49h.supply.fallWait = true) :=
  ⟨⟨sound_of (by decide +kernel), sound_of (by decide +kernel), sound_of (by decide +kernel)⟩, by decide +kernel⟩

theorem hyps_TripsHandOverToHold_4 :
    (Sound (st w49a) ∧ Sound (st w49i)) ∧
    ((w49i.die 0).up = false) ∧
    (thresholdsOk (PGOOD_CTL_RISE.get (PGOOD_CTL_RISE.put 290 (PGOOD_CTL_FALL.put 40 0#32))) (PGOOD_CTL_FALL.get (PGOOD_CTL_RISE.put 290 (PGOOD_CTL_FALL.put 40 0#32)))
      (w49a.pget HANDOVER_CTL_PF_TH) = true) ∧
    (thresholdsOk (PGOOD_CTL_RISE.get 0#32) (PGOOD_CTL_FALL.get 0#32) (w49a.pget HANDOVER_CTL_PF_TH) = false) :=
  ⟨⟨sound_of (by decide +kernel), sound_of (by decide +kernel)⟩, by decide +kernel⟩

theorem hyps_TripsHandOverToHold_5 :
    (Sound (st w49a) ∧ Sound (st w49j)) ∧
    (thresholdsOk (w49a.pget PGOOD_CTL_RISE) (w49a.pget PGOOD_CTL_FALL) (HANDOVER_CTL_PF_TH.get (w49a.reg HANDOVER_CTL_PF_TH.off)) = true) ∧
    (thresholdsOk (w49a.pget PGOOD_CTL_RISE) (w49a.pget PGOOD_CTL_FALL) (HANDOVER_CTL_PF_TH.get 0#32) = false) ∧
    (pkgState w49j ∈ [Pkg.qualify, Pkg.recover, Pkg.test] ∧ w49j.pget BUS_STAT_MON_CLASS = 0 ∧
      w49j.supply.mon.fitFrom + w49j.pfrc BUS_NOM_FIT_HC * meterHalf ≤ w49j.line.meter) :=
  ⟨⟨sound_of (by decide +kernel), sound_of (by decide +kernel)⟩, by decide +kernel⟩

theorem hyps_TripsHandOverToHold_6 :
    (Sound (st w49c)) ∧
    (w49c.line.meter < w49c.supply.mon.fitFrom + w49c.pfrc BUS_NOM_FIT_HC * meterHalf) :=
  ⟨sound_of (by decide +kernel), by decide +kernel⟩

def w50a : Device := late ((part 2 Pkg.hold).setFrc 0x48 100#32)
def w50b : Device := (late (part 2 Pkg.hold)).setFrc HANDOVER_CFG_HOLD_MAX.off (HANDOVER_CFG_HOLD_MAX.put 1 0#32)
def w50c : Device := part 2 Pkg.run
def w50d : Device := { part 2 Pkg.run with dies := Device.reset.dies.map fun x => { x with up := false } }
def w50e : Device := (part 2 Pkg.run).cset 15 CH_STAT_ACTIVE 1
def w50f : Device := { part 2 Pkg.ship with dies := Device.reset.dies.map fun x => { x with up := false, glean := { x.glean with shipLatch := true, isNew := false, vbusLow := true } } }
def w50g : Device := (part 2 Pkg.keep).modSup fun u => { u with resetLow := true, start := some 2 }
def w50h : Device := w50g.modDie 0 fun x => { x with up := false, glean := { x.glean with shipLatch := false, okKeep := true } }
def w50i : Device := { part 2 Pkg.keep with dies := Device.reset.dies.map fun x => { x with up := false, glean := { x.glean with isNew := true } } }
def w50j : Device := { part 2 Pkg.keep with dies := Device.reset.dies.map fun x => { x with up := false, glean := { x.glean with isNew := false, shipLatch := false } } }
def w50k : Device := (w50j.pset PKG_STATE_STATE Pkg.ship).modGlean 0 fun g => { g with woke := true }
def w50o : Device := w50c.modSup fun u => { u with ship := 1 }
def w50p : Device := w50c.modSup fun u => { u with ship := 2 }
def w50q : Device := (w50o.pset CKPT_STAT_PENDING 1).modNvm fun n => { n with sectors := 4 }
def w50l : Device := late ((part 2 Pkg.run).modRecov 0 fun r => { r with stalled := true })
def w50m : Device := late ((part 2 Pkg.handover).modRecov 0 fun r => { r with stalled := true })
def w50n : Device := w50l.modRecov 1 fun r => { r with active := true }
theorem hyps_StopsEnterKeepAndShip_1 :
    (Sound (st w50a) ∧ Sound (st w50b) ∧ Sound (st w50c)) ∧
    ((w50a.die 0).up = true ∧ pkgState w50a = Pkg.hold ∧ (w50a.reg 0x49).toNat < w50a.pfrc STORE_RES_RESERVE) ∧
    ((w50b.die 0).up = true ∧ pkgState w50b = Pkg.hold ∧ w50b.pfrc HANDOVER_CFG_HOLD_MAX ≠ 0 ∧
      w50b.passed w50b.supply.stateAt (secClocks (60 * w50b.pfrc HANDOVER_CFG_HOLD_MAX)) = true) ∧
    pkgState w50c ≠ Pkg.hold :=
  ⟨⟨sound_of (by decide +kernel), sound_of (by decide +kernel), sound_of (by decide +kernel)⟩, by decide +kernel⟩

theorem hyps_StopsEnterKeepAndShip_2 :
    (Sound (st w50c) ∧ Sound (st w50d)) ∧
    (1 < w50c.nDies ∧ (w50c.die 1).up = true) ∧
    (∀ d, d < w50d.nDies → (w50d.die d).up = false) ∧
    (SHIP_CTL_ENTER.get (SHIP_CTL_ENTER.put 1 (SHIP_CTL_KEY.put 0xC3 0#32)) = 1 ∧ SHIP_CTL_KEY.get (SHIP_CTL_ENTER.put 1 (SHIP_CTL_KEY.put 0xC3 0#32)) = 0xC3 ∧
      (w50c.die 0).up = true ∧ shipOk w50c = true ∧ w50c.supply.ship = 0) :=
  ⟨⟨sound_of (by decide +kernel), sound_of (by decide +kernel)⟩, by decide +kernel⟩

theorem hyps_StopsEnterKeepAndShip_3 :
    (Sound (st w50e) ∧ Sound (st w50o) ∧ Sound (st w50p)) ∧
    (shipOk w50e = false ∧ SHIP_CTL_ENTER.get 0#32 = 0) ∧
    (w50o.supply.ship = 1 ∧ w50o.nvm.sectors = 0) ∧
    (w50p.supply.ship = 2 ∧ w50p.supply.seq.kind ≠ 2) :=
  ⟨⟨sound_of (by decide +kernel), sound_of (by decide +kernel), sound_of (by decide +kernel)⟩, by decide +kernel⟩

theorem hyps_StopsEnterKeepAndShip_4 :
    (Sound (st w50c) ∧ Sound (st w50f) ∧ Sound (st w50q)) ∧
    (w50q.supply.ship = 1 ∧ w50q.nvm.sectors ≠ 0 ∧ w50q.pget CKPT_STAT_PENDING ≠ 0 ∧ w50q.passed w50q.supply.shipAt (msClocks 50) = false) ∧
    ((w50f.die 0).up = false ∧ pkgState w50f ∈ [Pkg.ship, Pkg.keep] ∧ (w50f.die 0).glean.shipLatch = true ∧ (w50f.die 0).glean.vbusLow = true) ∧
    ((w50c.die 0).glean.vbusLow = false) :=
  ⟨⟨sound_of (by decide +kernel), sound_of (by decide +kernel), sound_of (by decide +kernel)⟩, by decide +kernel⟩

theorem hyps_StopsEnterKeepAndShip_5 :
    (Sound (st w50c) ∧ Sound (st w50g) ∧ Sound (st w50h) ∧ Sound (st w50i)) ∧
    (w50g.supply.resetLow = true ∧ w50c.supply.resetLow = false) ∧
    ((w50h.die 0).up = false ∧ (w50h.die 0).glean.shipLatch = false ∧ (w50h.die 0).glean.okKeep = true ∧ w50h.supply.start = some 2 ∧ w50h.supply.resetLow = true) ∧
    ((w50i.die 0).up = false ∧ (w50i.die 0).glean.isNew = true) :=
  ⟨⟨sound_of (by decide +kernel), sound_of (by decide +kernel), sound_of (by decide +kernel),
   sound_of (by decide +kernel)⟩, by decide +kernel⟩

theorem hyps_StopsEnterKeepAndShip_6 :
    (Sound (st w50j) ∧ Sound (st w50k) ∧ Sound (st w50l)) ∧
    ((w50j.die 0).up = false ∧ (w50j.die 0).glean.isNew = false ∧ (w50j.die 0).glean.shipLatch = false ∧ (w50j.die 0).glean.woke = false ∧ pkgState w50j = Pkg.keep) ∧
    ((w50k.die 0).up = false ∧ (w50k.die 0).glean.isNew = false ∧ (w50k.die 0).glean.shipLatch = false ∧ (w50k.die 0).glean.woke = true) ∧
    ((w50l.die 0).up = true ∧ (w50l.die 0).recov.stalled = true ∧ (w50l.die 0).recov.stallAt / 5120 + w50l.pget FAULT_CFG_PKG_WDT ≤ w50l.frame ∧
      pkgState w50l = Pkg.run) :=
  ⟨⟨sound_of (by decide +kernel), sound_of (by decide +kernel), sound_of (by decide +kernel)⟩, by decide +kernel⟩

theorem hyps_StopsEnterKeepAndShip_7 :
    (Sound (st w50m) ∧ Sound (st w50n)) ∧
    ((w50m.die 0).recov.stalled = true ∧ (w50m.die 0).recov.stallAt / 5120 + w50m.pget FAULT_CFG_PKG_WDT ≤ w50m.frame ∧ pkgState w50m = Pkg.handover) ∧
    ((w50n.die 1).recov.active = true ∧ 1 < w50n.nDies) :=
  ⟨⟨sound_of (by decide +kernel), sound_of (by decide +kernel)⟩, by decide +kernel⟩

def w51a : Device := (part 2 Pkg.keep).modSup fun u => { u with start := some 6 }
def w51b : Device := part 2 Pkg.load
def w51j : Device := (part 2 Pkg.load).modLink 1 fun l => { l with trained := false }
def w51k : Device := (part 2 Pkg.load).modDie 1 fun x => { x with booked := none }
def w51l : Device := (part 2 Pkg.load).modDie 0 fun x => { x with up := false }
def w51c : Device := (part 2 Pkg.load).modSup fun u => { u with pfTripped := true }
def w51d : Device := late ((part 2 Pkg.qualify).pset BUS_STAT_FIT 1)
def w51e : Device := w51d.modSup fun u => { u with seq := { u.seq with finished := true } }
def w51f : Device := w51e.pset RESUME_CTL_LOCK_WAIT 1
def w51g : Device := w51f.pset RESUME_CTL_LOCK_TMO 255
def w51h : Device := (part 2 Pkg.run).cset 15 CH_STAT_ENGINE 10
def w51i : Device := { w51g with frame := 5 }
def w51m : Device := w51a.modDie 0 fun x => { x with up := false }
theorem hyps_StartsLeadToRun :
    (Sound (st w51a) ∧ Sound (st w51b) ∧ Sound (st w51j) ∧ Sound (st w51k) ∧ Sound (st w51l) ∧ Sound (st w51c) ∧
      Sound (st w51e) ∧ Sound (st w51f) ∧ Sound (st w51h) ∧ Sound (st w51i) ∧ Sound (st w51m)) ∧
    (w51a.supply.start = some 6 ∧ w51a.supply.resetLow = false ∧ w51b.supply.start = none) ∧
    ((w51b.die 0).up = true ∧ pkgState w51b = Pkg.load ∧ w51b.pbit IMAGE_STAT_VALID = true ∧ w51b.supply.pfTripped = false ∧
      ∀ d, d < w51b.nDies → (w51b.die d).seeded = true ∧ (w51b.die d).booked ≠ none) ∧
    (1 < w51j.nDies ∧ (w51j.die 1).up = true ∧ (w51j.die 1).link.trained = false ∧ pkgState w51j = Pkg.load) ∧
    ((w51c.die 0).up = true ∧ pkgState w51c = Pkg.load ∧ w51c.supply.pfTripped = true ∧
      ∀ d, d < w51c.nDies → (w51c.die d).seeded = true ∧ (w51c.die d).booked ≠ none) ∧
    ((w51k.die 1).up = true ∧ (w51k.die 1).husk = false ∧ (w51k.die 1).link.trained = true ∧ (w51k.die 1).booked = none) ∧
    (w51l.supply.start = none ∧ (w51l.die 0).up = false ∧ (w51a.modSup fun u => { u with resetLow := true }).supply.start ≠ none) ∧
    (qualified w51e = true ∧ lockOk w51e = true) ∧
    (qualified w51f = true ∧ lockOk w51f = false ∧ w51f.passed w51f.supply.lockFrom (secClocks (w51f.pget RESUME_CTL_LOCK_TMO)) = true) ∧
    (¬ w51i.passed w51i.supply.lockFrom (secClocks (w51i.pget RESUME_CTL_LOCK_TMO)) = true) ∧
    (qualified w51h = false ∧ pkgState w51h ≠ Pkg.load) ∧
    (RESUME_CMD_RELEASE_ALL.get (RESUME_CMD_RELEASE_ALL.put 1 (RESUME_CMD_KEY.put 0xC3 0#32)) = 1 ∧ engState w51h 15 = EngSt.resumeHalt ∧ 15 < w51h.nCh) ∧
    (w51m.supply.start = some 6 ∧ w51m.supply.resetLow = false ∧ (w51m.die 0).up = false) :=
  ⟨⟨sound_of (by decide +kernel), sound_of (by decide +kernel), sound_of (by decide +kernel),
   sound_of (by decide +kernel), sound_of (by decide +kernel), sound_of (by decide +kernel),
   sound_of (by decide +kernel), sound_of (by decide +kernel), sound_of (by decide +kernel),
   sound_of (by decide +kernel), sound_of (by decide +kernel)⟩, by decide +kernel⟩

def w52a : Device := (part 2 Pkg.run).pset AUX_CTL_ON_B 1
def w52b : Device := w52a.pset AUX_STAT_GOOD 2
def w52c : Device := (late (part 2 Pkg.run)).pset AUX_CTL_ON_B 1
def w52d : Device := w52c.modSup fun u => { u with seq := { u.seq with kind := 1 } }
def w52e : Device := part 2 Pkg.run
def w52f : Device := (List.range 3).foldl (fun d r => (d.pset (AUX_CFG_A_ON_POS.at r) 1)) (part 2 Pkg.run)
def w52g : Device := late (w52e.modSup fun u => { u with seq := { u.seq with kind := 2, rails := [1, 0] } })
def w52h : Device := late (w52e.modSup fun u => { u with seq := { u.seq with kind := 1, rails := [0] } })
def w52i : Device := w52h.pset (auxOv 0) 1
def w52j : Device := (List.range 3).foldl (fun d r => (d.pset (AUX_CFG_A_ON_POS.at r) 0)) (part 2 Pkg.run)
def w52k : Device := w52f.pset (AUX_CFG_A_ON_POS.at 2) 0
theorem hyps_RailsSwitchAndSequence_1 :
    (Sound (st w52b) ∧ Sound (st w52c) ∧ Sound (st w52e)) ∧
    ((auxOnBit 2).get 7#32 = 1 ∧ (auxOnBit 1).get 7#32 = 1 ∧ auxOn w52b 1 = true ∧ auxGood w52b 1 = true) ∧
    ((auxOnBit 2).get 7#32 = 1 ∧ auxOn w52e 2 = false ∧ auxGood w52e 1 = false ∧ railFree w52e 2 = true) ∧
    (auxOn w52c (railNo .b) = true ∧ (8 ≤ nth w52c.supply.auxLow (railNo .b) ∨ (auxGood w52c (railNo .b) = false ∧
      w52c.passed (nth w52c.supply.auxAt (railNo .b)) (msClocks 5) = true)) ∧ w52c.pbit (auxUvF (railNo .b)) = false ∧ w52c.supply.seq.kind ≠ 1) :=
  ⟨⟨sound_of (by decide +kernel), sound_of (by decide +kernel), sound_of (by decide +kernel)⟩, by decide +kernel⟩

theorem hyps_RailsSwitchAndSequence_2 :
    (Sound (st w52d) ∧ Sound (st w52e) ∧ Sound (st w52j)) ∧
    (auxOn w52d (railNo .b) = true ∧ w52d.supply.seq.kind = 1 ∧ auxGood w52d (railNo .b) = false ∧ w52d.passed (nth w52d.supply.auxAt (railNo .b)) (msClocks 5) = true) ∧
    (auxOn w52e (railNo .a) = false) ∧
    (∀ r ∈ allRails, onPos w52j r = 0) :=
  ⟨⟨sound_of (by decide +kernel), sound_of (by decide +kernel), sound_of (by decide +kernel)⟩, by decide +kernel⟩

theorem hyps_RailsSwitchAndSequence_3 :
    (Sound (st w52c) ∧ Sound (st w52e) ∧ Sound (st w52f)) ∧
    (onPos w52f 0 = 1 ∧ onPos w52f 1 = 1) ∧
    (∀ r ∈ allRails, auxOn w52e r = false) ∧
    ((offOrder w52c allRails).dropWhile (fun q => !auxOn w52c q) ≠ []) :=
  ⟨⟨sound_of (by decide +kernel), sound_of (by decide +kernel), sound_of (by decide +kernel)⟩, by decide +kernel⟩

theorem hyps_RailsSwitchAndSequence_4 :
    (Sound (st w52g) ∧ Sound (st w52h) ∧ Sound (st w52i)) ∧
    (w52g.supply.seq.kind = 2 ∧ w52g.passed w52g.supply.seq.since (msClocks (seqWait w52g)) = true) ∧
    (w52h.supply.seq.kind = 1 ∧ w52h.supply.seq.rails = [0] ∧ w52h.passed w52h.supply.seq.since (msClocks (seqWait w52h)) = true ∧ railFree w52h 0 = true ∧
      auxOn w52h 0 = false) ∧
    (w52i.supply.seq.rails = [0] ∧ railFree w52i 0 = false) :=
  ⟨⟨sound_of (by decide +kernel), sound_of (by decide +kernel), sound_of (by decide +kernel)⟩, by decide +kernel⟩

theorem hyps_RailsSwitchAndSequence_5 :
    (Sound (st w52e)) ∧
    (w52e.supply.seq.kind = 0) :=
  ⟨sound_of (by decide +kernel), by decide +kernel⟩

def w53a : Device := late ((part 2 Pkg.run).modSup fun u => { u with keepFrom := some 0 })
def w53b : Device := part 2 Pkg.run
def w53c : Device := (((part 2 Pkg.run).setFrc KEEP_CFG_EN.off (KEEP_CFG_EN.put 1 0#32)).pset KEEP_STAT_PRESENT 1).pset KEEP_STAT_BAND 2
def w53d : Device := (w53c.pset KEEP_STAT_CHG 4).modSup fun u => { u with lowFrames := 240000, chgFrames := 2 ^ 40 }
def w53e : Device := w53c.pset KEEP_STAT_CHG 1
def w53f : Device := (w53c.pset KEEP_STAT_CHG 2).modSup fun u => { u with preFrames := 2 ^ 40 }
def w53n : Device := w53f.pset KEEP_STAT_SUPPL 1
def w53g : Device := (w53c.modSup fun u => { u with keepOpen := 8 })
def w53h : Device := w53g.setFrc KEEP_CFG_POLICY.off (KEEP_CFG_EN.put 1 (KEEP_CFG_POLICY.put 1 0#32))
def w53i : Device := ((part 2 Pkg.run).pset KEEP_STAT_PRESENT 1).pset KEEP_RD_VKEEP_RD 4000
def w53j : Device := (part 2 Pkg.run).setFrc KEEP_CFG_EN.off (KEEP_CFG_EN.put 1 0#32)
def w53k : Device := w53c.pset KEEP_STAT_BAND 0
def w53l : Device := (part 2 Pkg.run).setFrc KEEP_CFG_EN.off 0#32
def w53m : Device := w53g.setFrc KEEP_CFG_POLICY.off (KEEP_CFG_EN.put 1 (KEEP_CFG_POLICY.put 0 0#32))
def w53o : Device := late ((w53c.pset KEEP_STAT_PRESENT 0).modSup fun u => { u with keepFrom := some 0 })
theorem hyps_TheKeeperChargesAndSupplements_1 :
    (Sound (st w53a) ∧ Sound (st w53b) ∧ Sound (st w53j) ∧ Sound (st w53l)) ∧
    (w53a.supply.keepFrom = some 0 ∧ w53a.passed 0 (secClocks 1) = true) ∧
    (w53b.supply.keepFrom = none) ∧
    (w53l.pfrc KEEP_CFG_EN = 0 ∧ w53j.pfrc KEEP_CFG_EN = 1 ∧ chargerState (pkgState w53j) = true ∧ w53j.pget KEEP_STAT_PRESENT = 0) :=
  ⟨⟨sound_of (by decide +kernel), sound_of (by decide +kernel), sound_of (by decide +kernel),
   sound_of (by decide +kernel)⟩, by decide +kernel⟩

theorem hyps_TheKeeperChargesAndSupplements_2 :
    (Sound (st w53d) ∧ Sound (st w53e) ∧ Sound (st w53k)) ∧
    (w53k.pfrc KEEP_CFG_EN = 1 ∧ chargerState (pkgState w53k) = true ∧ w53k.pget KEEP_STAT_PRESENT = 1 ∧ w53k.pget KEEP_STAT_TIMER_FLT = 0 ∧
      w53k.pget PGOOD_CTL_GOOD = 1 ∧ w53k.pget KEEP_STAT_SUPPL = 0 ∧ w53k.pget KEEP_STAT_BAND = 0) ∧
    (w53d.pfrc KEEP_CFG_EN = 1 ∧ w53d.pget KEEP_STAT_PRESENT = 1 ∧ w53d.pget KEEP_STAT_BAND = 2 ∧ w53d.pget KEEP_STAT_CHG = 4 ∧
      (0 : Int) ≤ w53d.pfrc KEEP_CFG_ITERM * 10 ∧ 240000 ≤ w53d.supply.lowFrames) ∧
    (w53e.pget KEEP_STAT_BAND = 2 ∧ w53e.pget KEEP_STAT_CHG = 1) :=
  ⟨⟨sound_of (by decide +kernel), sound_of (by decide +kernel), sound_of (by decide +kernel)⟩, by decide +kernel⟩

theorem hyps_TheKeeperChargesAndSupplements_3 :
    (Sound (st w53b) ∧ Sound (st w53d) ∧ Sound (st w53f)) ∧
    (w53f.pget KEEP_STAT_CHG = 2 ∧ w53f.pfrc KEEP_TIMER_PRE * 240000 ≤ w53f.supply.preFrames) ∧
    (w53d.pget KEEP_STAT_CHG ∈ [2, 3, 4] ∧ w53d.pfrc KEEP_TIMER_FAST * 2400000 ≤ w53d.supply.chgFrames) ∧
    (w53b.pget KEEP_STAT_CHG = 0) :=
  ⟨⟨sound_of (by decide +kernel), sound_of (by decide +kernel), sound_of (by decide +kernel)⟩, by decide +kernel⟩

theorem hyps_TheKeeperChargesAndSupplements_4 :
    (Sound (st w53b) ∧ Sound (st w53g) ∧ Sound (st w53h) ∧ Sound (st w53i) ∧ Sound (st w53m)) ∧
    (w53g.pget KEEP_STAT_PRESENT = 1 ∧ keeperGone w53g = true ∧ w53h.pfrc KEEP_CFG_POLICY = 1 ∧ keeperGone w53h = true ∧ w53m.pfrc KEEP_CFG_POLICY = 0) ∧
    (w53b.pget KEEP_STAT_PRESENT = 0) ∧
    (w53i.pbit KEEP_STAT_PRESENT = true ∧ keepDischarge w53i = true ∧ w53i.pget KEEP_STAT_SUPPL = 0) :=
  ⟨⟨sound_of (by decide +kernel), sound_of (by decide +kernel), sound_of (by decide +kernel),
   sound_of (by decide +kernel), sound_of (by decide +kernel)⟩, by decide +kernel⟩

theorem hyps_TheKeeperChargesAndSupplements_5 :
    (Sound (st w53n) ∧ Sound (st w53o)) ∧
    (w53n.pget KEEP_STAT_SUPPL = 1) ∧
    (w53o.supply.keepFrom = some 0 ∧ w53o.passed 0 (secClocks 1) = true ∧ w53o.pget KEEP_STAT_SUPPL = 0 ∧ w53o.pfrc KEEP_CFG_EN = 1) :=
  ⟨⟨sound_of (by decide +kernel), sound_of (by decide +kernel)⟩, by decide +kernel⟩

def w54a : Device := { part 2 Pkg.keep with dies := Device.reset.dies.map fun x => { x with up := false, glean := { x.glean with good := true, keeperEn := true, shipLatch := false } } }
def w54b : Device := { part 2 Pkg.keep with dies := Device.reset.dies.map fun x => { x with up := false, glean := { x.glean with good := true, keeperEn := false, pumpEn := List.replicate 8 true } } }
def w54c : Device := { part 2 Pkg.keep with dies := Device.reset.dies.map fun x => { x with up := false, glean := { x.glean with good := true, keeperEn := false, pumpEn := List.replicate 8 false, cutEn := false, cutLatch := false, coinEn := true } } }
def w54d : Device := part 2 Pkg.run
def w54e : Device := { part 2 Pkg.keep with dies := Device.reset.dies.map fun x => { x with up := false, glean := { x.glean with good := true, src := .cells, pumpCh := 7 } } }
def w54f : Device := { part 2 Pkg.keep with dies := Device.reset.dies.map fun x => { x with up := false, glean := { x.glean with good := false } } }
def w54g : Device := (part 2 Pkg.run).modDie 1 fun x => { x with decided := true, glean := { x.glean with good := true, isNew := false, staged := some { Retention.empty with version := 1, index := 1 } } }
def w54h : Device := { ((part 2 Pkg.run).modCh 9 fun c => { c with tally := 1000 }).modDie 1 fun x => { x with seedAt := some 0 } with frame := 1 }
def w54i : Device := w54h.setFrc (chAddr 9 (kOff .kqH)) 0#32
theorem hyps_TheGleanDomainKeepsItsDie_1 :
    (Sound (st w54a) ∧ Sound (st w54b) ∧ Sound (st w54c)) ∧
    (1 < w54a.nDies ∧ (w54a.die 1).up = false ∧ (w54a.die 1).glean.good = true ∧ (w54a.die 1).glean.shipLatch = false ∧ (w54a.die 1).glean.keeperEn = true) ∧
    ((w54b.die 1).up = false ∧ (w54b.die 1).glean.good = true ∧ (w54b.die 1).glean.keeperEn = false ∧ (w54b.die 1).glean.pumpEn = List.replicate 8 true ∧
      1500 ≤ cellMv ⟨0, 0, List.replicate 8 1500⟩ 7) ∧
    ((w54c.die 1).glean.keeperEn = false ∧ (w54c.die 1).glean.pumpEn = List.replicate 8 false ∧ (w54c.die 1).glean.cutEn = false ∧
      (w54c.die 1).glean.cutLatch = false ∧ (w54c.die 1).glean.coinEn = true) :=
  ⟨⟨sound_of (by decide +kernel), sound_of (by decide +kernel), sound_of (by decide +kernel)⟩, by decide +kernel⟩

theorem hyps_TheGleanDomainKeepsItsDie_2 :
    (Sound (st w54d) ∧ Sound (st w54e) ∧ Sound (st w54f)) ∧
    ((w54d.die 1).up = true ∧ (w54d.die 0).up = true) ∧
    ((w54e.die 1).up = false ∧ (w54e.die 1).glean.good = true ∧ (w54e.die 1).glean.src = .cells ∧ (w54e.die 1).glean.pumpCh < 8) ∧
    ((w54f.die 1).glean.good = false) :=
  ⟨⟨sound_of (by decide +kernel), sound_of (by decide +kernel), sound_of (by decide +kernel)⟩, by decide +kernel⟩

theorem hyps_TheGleanDomainKeepsItsDie_3 :
    (Sound (st w54d) ∧ Sound (st w54g) ∧ Sound (st w54h)) ∧
    ((w54g.die 1).glean.good = true ∧ (w54g.die 1).decided = true ∧ (w54g.die 1).glean.isNew = false ∧
      (w54g.die 1).glean.staged = some { Retention.empty with version := 1, index := 1 } ∧ Retention.empty.committing = false) ∧
    ((w54d.die 1).glean.staged = none) ∧
    ((w54h.die 1).up = true ∧ (w54h.die 1).seeded = true ∧ (w54h.die 1).seedAt.any (fun e => w54h.frame == e + 1) = true ∧ (w54h.ch 9).tally ≠ 0 ∧ (w54h.ch 8).tally = 0 ∧
      constOk w54h.frc 9 (chLow w54h 9) (w54h.ch 9).conv (fRefOf (w54h.die 1)) (if chLow w54h 9 then .kqL else .kqH) = true) :=
  ⟨⟨sound_of (by decide +kernel), sound_of (by decide +kernel), sound_of (by decide +kernel)⟩, by decide +kernel⟩

theorem hyps_TheGleanDomainKeepsItsDie_4 :
    (Sound (st w54i)) ∧
    ((w54i.ch 9).tally ≠ 0 ∧ constOk w54i.frc 9 (chLow w54i 9) (w54i.ch 9).conv (fRefOf (w54i.die 1)) (if chLow w54i 9 then .kqL else .kqH) = false) :=
  ⟨sound_of (by decide +kernel), by decide +kernel⟩

def w55a : Device := part 2 Pkg.run
def w55b : Device := ((part 2 Pkg.run).pset PATH_STAT_VSYS_RD 500).dset 1 DIE_TEMP_TEMP 1500
def w55c : Device := { part 2 Pkg.run with otp := { Device.reset.otp with running := true, kind := 3, result := 1, pump := false } }
def w55d : Device := { part 2 Pkg.run with otp := { Device.reset.otp with running := true, kind := 1, die := 1, pump := true, addr := 200 } }
def w55e : Device := late w55d
def w55f : Device := part 2 Pkg.qualify
def w55g : Device := { part 2 Pkg.run with dies := Device.reset.dies.map fun x => { x with up := false } }
theorem hyps_OtpCommandsRunAndEnd :
    (Sound (st w55a) ∧ Sound (st w55b) ∧ Sound (st w55c) ∧ Sound (st w55d) ∧ Sound (st w55e) ∧ Sound (st w55f) ∧
      Sound (st w55g)) ∧
    (otpRefusal 1 1 200 0 false 5 w55a ≠ 0 ∧ otpRefusal 1 1 200 0 false 5 w55b = 0 ∧ otpRefusal 2 1 200 0 false 0 w55b = 0 ∧ otpRefusal 3 1 511 0 false 0 w55b = 0 ∧
      otpRefusal 4 1 511 3 true 0 w55b = 0) ∧
    (w55c.otp.running = true ∧ w55c.otp.kind = 3 ∧ w55c.otp.result = 1 ∧ w55c.otp.pump = false) ∧
    (w55d.otp.running = true ∧ w55d.otp.kind ≠ 3 ∧ w55d.otp.pump = true ∧ w55d.otp.die = 1) ∧
    (w55e.otp.running = true ∧ w55e.otp.pump = true ∧ w55e.passed w55e.otp.since (msClocks 5) = true) ∧
    (w55a.otp.running = false) ∧
    ((w55f.die 0).up = true ∧ otpRefusal 5 0 0 0 false 0 w55f = 0 ∧ otpRefusal 5 0 0 0 false 0 w55a ≠ 0 ∧ (w55g.die 0).up = false) :=
  ⟨⟨sound_of (by decide +kernel), sound_of (by decide +kernel), sound_of (by decide +kernel),
   sound_of (by decide +kernel), sound_of (by decide +kernel), sound_of (by decide +kernel),
   sound_of (by decide +kernel)⟩, by decide +kernel⟩

def w56a : Device := part 2 Pkg.run
def w56b : Device := (part 2 Pkg.load).pset IMAGE_STAT_VALID 0
def w56h : Device := { w56b with pins := { w56b.pins with huskAll := true } }
def w56c : Device := withFlash ((imageBytes false).take 70) w56b
def w56d : Device := withFlash (imageBytes false) w56b
def w56e : Device := ((part 2 Pkg.run).modDie 1 fun x => { x with recov := { x.recov with active := true }, fetch := [(2, 0)], ctl := false })
def w56f : Device := w56e.modNvm fun n => { n with cur := some .spare }
def w56g : Device := withFlash (imageBytes true) w56e
theorem hyps_ImagesAreLoadedAndFetched_1 :
    (Sound (st w56a) ∧ Sound (st w56b) ∧ Sound (st w56h)) ∧
    pkgState w56a ≠ Pkg.load ∧
    (ballsLive w56b 0 = true ∧ (w56b.die 0).up = true ∧ pkgState w56b = Pkg.load ∧ w56b.pget IMAGE_STAT_VALID = 0 ∧ headerErr w56b.nvm.flashId (capacity w56b) (fread w56b 0 32) ≠ 0) ∧
    ((w56h.die 0).up = true ∧ pkgState w56h = Pkg.load ∧ w56h.pget IMAGE_STAT_VALID = 0 ∧ ballsLive w56h 0 = false) :=
  ⟨⟨sound_of (by decide +kernel), sound_of (by decide +kernel), sound_of (by decide +kernel)⟩, by decide +kernel⟩

theorem hyps_ImagesAreLoadedAndFetched_2 :
    (Sound (st w56a) ∧ Sound (st w56c) ∧ Sound (st w56d)) ∧
    (headerErr w56c.nvm.flashId (capacity w56c) (fread w56c 0 32) = 0 ∧ firstOk (fread w56c 0 (uAt (fread w56c 0 32) 8 4)) = false) ∧
    (headerErr w56d.nvm.flashId (capacity w56d) (fread w56d 0 32) = 0 ∧ firstOk (fread w56d 0 (uAt (fread w56d 0 32) 8 4)) = true) ∧
    (1 < w56a.nDies ∧ (w56a.die 1).recov.active = false) :=
  ⟨⟨sound_of (by decide +kernel), sound_of (by decide +kernel), sound_of (by decide +kernel)⟩, by decide +kernel⟩

theorem hyps_ImagesAreLoadedAndFetched_3 :
    (Sound (st w56e) ∧ Sound (st w56f) ∧ Sound (st w56g)) ∧
    ((w56f.die 1).recov.active = true ∧ (w56f.die 1).fetch ≠ [] ∧ w56f.nvm.cur.isSome = true ∧ w56f.nvm.cur ≠ some (.fetch 1) ∧ .fetch 1 ∉ w56f.nvm.queue ∧
      w56f.nvm.queue.length < 16) ∧
    ((w56e.die 1).recov.active = true ∧ (w56e.die 1).fetch ≠ [] ∧ w56e.nvm.cur = none ∧ w56e.nvm.queue = [] ∧ ballsLive w56e 0 = true ∧ pkgState w56e ≠ Pkg.handover ∧ w56e.pget NVM_STAT_OP ≠ 1 ∧
      headerErr w56e.nvm.flashId (capacity w56e) (fread w56e 0 32) ≠ 0) ∧
    (headerErr w56g.nvm.flashId (capacity w56g) (fread w56g 0 32) = 0 ∧ uAt (fread w56g 0 32) 12 4 = w56g.pget IMAGE_GEN ∧ (w56g.die 1).ctl = false ∧
      ((sectionsFrom (imageBytes true) 9 32).filter fun c => sectionFor 1 c && (w56g.die 1).fetch.contains (fetchKey c)).length = 1) :=
  ⟨⟨sound_of (by decide +kernel), sound_of (by decide +kernel), sound_of (by decide +kernel)⟩, by decide +kernel⟩

theorem hyps_ImagesAreLoadedAndFetched_4 :
    (Sound (st w56g)) ∧
    (((sectionsFrom (imageBytes true) 9 32).filter fun c => sectionFor 1 c && (w56g.die 1).fetch.contains (fetchKey c)).all (fun c =>
      decide (c.typ = 2) && indexOk c && scrcOk c && entriesOk c c.body) = true) :=
  ⟨sound_of (by decide +kernel), by decide +kernel⟩

def w57a : Device := (part 2 Pkg.load).modNvm fun n => { n with flashId := 0x114001 }
def w57b : Device := w57a.modNvm fun n => { n with cur := some .spare }
def w57c : Device := w57a.pset NVM_STAT_BUSY 1
def w57d : Device := w57a.modNvm fun n => { n with cur := some (.pt 0x02 0 2), op := some (.program 0 [1#8, 2#8]) }
def w57e : Device := w57a.modNvm fun n => { n with cur := some (.pt 0x20 0 0), op := some (.erase 0) }
def w57f : Device := late w57d
def w57g : Device := late (w57a.modNvm fun n => { n with streaming := some 1 })
def w57h : Device := { part 2 Pkg.run with dies := Device.reset.dies.map fun x => { x with up := false } }
theorem hyps_TransfersUseThePort_1 :
    (Sound (st w57a) ∧ Sound (st w57b) ∧ Sound (st w57c)) ∧
    ptRefusal 0x03 (w57c.pget NVM_PT_ADDR) 256 w57c ≠ 0 ∧
    (ptRefusal 0x03 (w57b.pget NVM_PT_ADDR) 256 w57b = 0 ∧ w57b.nvm.cur.isSome = true ∧ w57b.nvm.cur ≠ some (.pt 0x03 0 256) ∧ w57b.nvm.queue = []) ∧
    (w57a.nvm.cur = none ∧ w57a.nvm.queue = [] ∧ (w57a.die 0).up = true ∧ ptRefusal 0x03 (w57a.pget NVM_PT_ADDR) 256 w57a = 0 ∧
      w57a.pget NVM_PT_ADDR + 256 ≤ capacity w57a) :=
  ⟨⟨sound_of (by decide +kernel), sound_of (by decide +kernel), sound_of (by decide +kernel)⟩, by decide +kernel⟩

theorem hyps_TransfersUseThePort_2 :
    (Sound (st w57a) ∧ Sound (st w57h)) ∧
    (ptRefusal 0x02 (w57a.pget NVM_PT_ADDR) 256 w57a = 0 ∧ ptRefusal 0x20 (w57a.pget NVM_PT_ADDR) 0 w57a = 0 ∧ ptRefusal 0x05 (w57a.pget NVM_PT_ADDR) 0 w57a = 0 ∧
      ptRefusal 0x9F (w57a.pget NVM_PT_ADDR) 0 w57a = 0) ∧
    (ptRefusal 0x99 (w57a.pget NVM_PT_ADDR) 0 w57a = 0 ∧ ptRefusal 0x66 (w57a.pget NVM_PT_ADDR) 0 w57a = 0) ∧
    (w57a.nvm.op = none ∧ (w57h.die 0).up = false) :=
  ⟨⟨sound_of (by decide +kernel), sound_of (by decide +kernel)⟩, by decide +kernel⟩

theorem hyps_TransfersUseThePort_3 :
    (Sound (st w57d) ∧ Sound (st w57e) ∧ Sound (st w57f)) ∧
    (w57d.nvm.cur = some (.pt 0x02 0 2) ∧ w57d.nvm.queue = [] ∧ (w57d.die 0).up = true ∧ w57d.nvm.op = some (.program 0 [1#8, 2#8])) ∧
    (w57e.nvm.cur = some (.pt 0x20 0 0) ∧ w57e.nvm.op = some (.erase 0) ∧ w57e.passed w57e.nvm.opAt (FlashOp.erase 0).limit = false) ∧
    (w57f.passed w57f.nvm.opAt (FlashOp.program 0 [1#8, 2#8]).limit = true ∧ w57f.nvm.op = some (.program 0 [1#8, 2#8])) :=
  ⟨⟨sound_of (by decide +kernel), sound_of (by decide +kernel), sound_of (by decide +kernel)⟩, by decide +kernel⟩

theorem hyps_TransfersUseThePort_4 :
    (Sound (st w57a) ∧ Sound (st w57g)) ∧
    (w57a.nvm.streaming = none) ∧
    (w57g.nvm.streaming = some 1 ∧ w57g.passed w57g.nvm.batonAt (msClocks 20) = true ∧ w57g.nvm.queue = [] ∧ (w57g.die 0).up = true ∧ pkgState w57g ≠ Pkg.handover) :=
  ⟨⟨sound_of (by decide +kernel), sound_of (by decide +kernel)⟩, by decide +kernel⟩

def w58a : Device := part 2 Pkg.run
def w58b : Device := (((part 2 Pkg.run).pset CKPT_STAT_PENDING 1).pset CKPT_STAT_SPARE_OK 1).modNvm fun n => { n with sectors := 8, ringBase := 65536 }
def w58c : Device := w58a.modNvm fun n => { n with cur := some .ckpt, op := some (.erase 0) }
def w58d : Device := w58a.modNvm fun n => { n with cur := some .spare, op := some (.erase 0) }
def w58e : Device := w58b.modNvm fun n => { n with cur := some .ckpt, step := 34 }
def w58f : Device := w58b.pset CKPT_STAT_SPARE_OK 0
def w58g : Device := w58b.modNvm fun n => { n with cur := some .ckpt, step := 10, streaming := some 1, cells := 42, streamers := [0, 1] }
def w58i : Device := w58g.modNvm fun n => { n with streaming := some 0 }
def w58h : Device := w58g.modNvm fun n => { n with cells := 170 }
def w58j : Device := w58g.modNvm fun n => { n with step := 6 }
theorem hyps_CheckpointsFillTheRing_1 :
    (Sound (st w58a) ∧ Sound (st w58b)) ∧
    (CKPT_CTL_TAKE.get (CKPT_CTL_TAKE.put 1 (CKPT_CTL_KEY.put 0xC3 0#32)) = 1 ∧ CKPT_CTL_KEY.get (CKPT_CTL_TAKE.put 1 (CKPT_CTL_KEY.put 0xC3 0#32)) = 0xC3 ∧
      w58a.pget CKPT_STAT_PENDING = 0) ∧
    (w58b.pget CKPT_STAT_PENDING = 1 ∧ CKPT_CTL_TAKE.get 0#32 ≠ 1) ∧
    (ckptReady w58a = false ∧ w58a.nvm.cur ≠ some .ckpt) :=
  ⟨⟨sound_of (by decide +kernel), sound_of (by decide +kernel)⟩, by decide +kernel⟩

theorem hyps_CheckpointsFillTheRing_2 :
    (Sound (st w58b) ∧ Sound (st w58c) ∧ Sound (st w58d)) ∧
    (w58b.nvm.cur = none ∧ w58b.nvm.queue = [] ∧ (w58b.die 0).up = true ∧ pkgState w58b ≠ Pkg.handover ∧ ckptReady w58b = true ∧ formsRecord w58b 1 = true) ∧
    (w58c.nvm.cur = some .ckpt ∧ w58c.nvm.step = 0 ∧ w58c.nvm.op = some (.erase 0) ∧ (w58c.die 0).up = true) ∧
    (w58d.nvm.cur = some .spare ∧ w58d.nvm.op = some (.erase 0) ∧ w58d.nvm.queue = []) :=
  ⟨⟨sound_of (by decide +kernel), sound_of (by decide +kernel), sound_of (by decide +kernel)⟩, by decide +kernel⟩

theorem hyps_CheckpointsFillTheRing_3 :
    (Sound (st w58a) ∧ Sound (st w58e) ∧ Sound (st w58f)) ∧
    (w58e.nvm.cur = some .ckpt ∧ 34 ≤ w58e.nvm.step ∧ w58e.nvm.queue = []) ∧
    (w58f.nvm.cur = none ∧ 0 < w58f.nvm.sectors ∧ w58f.pget CKPT_STAT_SPARE_OK = 0 ∧ w58f.pget CKPT_STAT_BUSY = 0) ∧
    (w58a.nvm.sectors = 0 ∧ w58a.nvm.streaming ≠ some 1) :=
  ⟨⟨sound_of (by decide +kernel), sound_of (by decide +kernel), sound_of (by decide +kernel)⟩, by decide +kernel⟩

theorem hyps_CheckpointsFillTheRing_4 :
    (Sound (st w58g) ∧ Sound (st w58i)) ∧
    (1 < w58g.nDies ∧ (w58g.die 1).up = true ∧ w58g.nvm.streaming = some 1 ∧ w58g.nvm.cur = some .ckpt ∧ w58g.nvm.op = none ∧ w58g.nvm.step = 2 + 4 * 1 + 4 ∧
      (w58g.nvm.cells + 1) * 6 < 1024) ∧
    (arrives w58g 1 = true ∧ (∀ c ∈ (w58g.die 1).link.upWait, c.seq ≠ (w58g.die 1).link.upSeq)) ∧
    (arrives w58i 0 = true ∧ w58i.nvm.streaming = some 0 ∧ w58i.nvm.cur = some .ckpt) :=
  ⟨⟨sound_of (by decide +kernel), sound_of (by decide +kernel)⟩, by decide +kernel⟩

theorem hyps_CheckpointsFillTheRing_5 :
    (Sound (st w58g) ∧ Sound (st w58h) ∧ Sound (st w58j)) ∧
    1024 ≤ (w58h.nvm.cells + 1) * 6 ∧
    ((w58g.modNvm fun n => { n with step := 6 }).nvm.step = 2 + 4 * 1 + 0 ∧ w58g.nvm.streamers.contains 1 = true ∧ min 1024 (256 * (0 + 1)) ≤ (w58g.nvm.cells + 1) * 6) ∧
    (w58j.nvm.streaming = some 1 ∧ w58j.nvm.cur = some .ckpt ∧ w58j.nvm.op = none ∧ w58j.nvm.step = 2 + 4 * 1 + 0 ∧ w58j.nvm.streamers.contains 1 = true ∧
      min 1024 (256 * (0 + 1)) ≤ (w58j.nvm.cells + 1) * 6) :=
  ⟨⟨sound_of (by decide +kernel), sound_of (by decide +kernel), sound_of (by decide +kernel)⟩, by decide +kernel⟩

def w59a : Device := (part 2 Pkg.run).modNvm fun n => { n with pinBase := 0x10000, pinOk := true }
def w59b : Device := (part 2 Pkg.run).pset PIN_STAT_BUSY 1
def w59c : Device := w59a.modNvm fun n => { n with commitDue := true }
def w59d : Device := (w59a.pset PIN_STAT_BUSY 1).modNvm fun n => { n with cur := some .pins, op := some (.program 0 [0#8]), step := 3 }
theorem hyps_PinEditsWaitForACommit :
    (Sound (st w59a) ∧ Sound (st w59b) ∧ Sound (st w59c) ∧ Sound (st w59d)) ∧
    pinRefusal 1 0x2200 w59b ≠ 0 ∧
    (pinRefusal 1 (dieAddr 1 0x21) w59a = 0 ∧ pinRefusal 2 (dieAddr 1 0x21) w59a = 0 ∧ pinRefusal 3 15 w59a = 0 ∧ pinRefusal 4 0 w59a = 0 ∧ pinRefusal 5 0 w59a = 0) ∧
    (w59c.nvm.commitDue = true ∧ .pins ∉ w59c.nvm.queue ∧ w59c.nvm.queue.length < 16 ∧ w59c.nvm.cur ≠ some .pins) ∧
    (w59d.nvm.cur = some .pins ∧ w59d.nvm.op.isSome = true ∧ w59d.nvm.queue = [] ∧ (w59d.die 0).up = true ∧ 1 ≤ w59d.nvm.step ∧
      (copyBytes ((w59d.nvm.pinGen + 1) % 2 ^ 32) w59d.nvm.commit).length ≤ 256 * (w59d.nvm.step - 1) ∧ w59d.nvm.commit.length ≤ 1022 ∧ w59d.pget PIN_STAT_BUSY = 1) :=
  ⟨⟨sound_of (by decide +kernel), sound_of (by decide +kernel), sound_of (by decide +kernel),
   sound_of (by decide +kernel)⟩, by decide +kernel⟩

end Sys2Proof.Tests
end

section
/-! Proofs of the family of the scope: that every command completes (O4) and what moves package time (O5). -/

namespace Sys2Proof.Machine

/-- An operation of the lead die that its key releases (R419, R428, R429). -/
def onKey (key : Byte) (f : Device → Device) (t : Device) : Device := if (t.die 0).up ∧ key.toNat = 0xC3 then f t else t

/-- An operation of the lead die while it is up. -/
def whileLeadUp (f : Device → Device) (t : Device) : Device := if (t.die 0).up then f t else t

/-- SECTION_FETCH at the lead die's port, for a recovering die with sections still to fetch (R38). -/
def fetchWhileRecovering (d : Nat) (t : Device) : Device :=
  if (t.die d).recov.active && (t.die d).fetch != [] then nvmRun (nvmPush (.fetch d) t) else t

/-- How the dispatch carries out a command: on the device, or, where it names a die, on the device of a part that
contains that die. -/
theorem exec_onDev_or_onDie (c : Instr) :
    (namedDie c = none ∧ ∃ f, ∀ s, exec c s = onDev s f) ∨ ∃ d f, namedDie c = some d ∧ ∀ s, exec c s = onDie d s f := by
  cases c with
  | valveBatonExpiry b => cases b <;> exact .inr ⟨_, _, rfl, fun _ => rfl⟩
  | accClear | tcrCfgWrite | constantWrite | offsetWrite | baselineWrite | switchingPeriod | complianceClamp | ocpTrip
  | ovpTrip | rvpTrip | hstop | pwmWrite | setpointWrite | overrideChange | rangeSelWrite | uprange | overloadDetect
  | calApply | calFold | acirStart | acirAbortCmd | acirLeadinStart | acirWindowOpen | acirWindowClose
  | acirEnvelopeZero | acirWindowAbort | acirClr | stepStart | reseatOffExpiry | reseatSettleExpiry | pulseLevelChange
  | pulseCapture | ocvSample | seqStart | seqHalt | seqRelease | seqSkip | seqAbort
  | valveEvent | pullInStart | valveSlipLimit | dropToHold | releaseToOff | chopPeriod | valveOpen | valveShort
  | valveSlow
  | vdrvUv | vdrvRecover | busOv | busOvClear | sarConversion | vrefxFailSwitch | vrefxReturnSwitch | sarFail
  | seedingEnd | benchVisitStart | benchSelfcalEnd | benchConnect | benchTakeover | benchHandback | benchAbort
  | benchForce | benchQueue | traceRdWrite | leaseDecision | pullEnd | clampOt | localPfTrip | gleanSourceEvaluation
  | gleanForcedEvaluation | pumpTransfer | keepGoodFall | keepGoodRise | retentionCommit | gleanBooking
  | cellFrame | cellAngle | cellSnap | cellSched | cellLease | cellWrite | cellRead | cellResp | cellGroup | cellLedger
  | cellCkpt | cellAck | cellNak | cellTrain | cellIdle | portTrainingDone | portSilent | dieWatchdogStall
  | dieRecoveryStart | dieRecoveryDone | recoveryTimeout | recoveryStable | leadHoldExpiry | clampOtClear
  | benchBatonExpiry => exact .inr ⟨_, _, rfl, fun _ => rfl⟩
  | sectionFetch d => exact .inr ⟨d.val, fetchWhileRecovering d.val, rfl, fun _ => rfl⟩
  | testReq key => exact .inl ⟨rfl, onKey key testReq, fun _ => rfl⟩
  | testEnd key => exact .inl ⟨rfl, onKey key testEnd, fun _ => rfl⟩
  | ledgerReread key => exact .inl ⟨rfl, onKey key ledgerReread, fun _ => rfl⟩
  | ledgerFlush key => exact .inl ⟨rfl, onKey key ledgerFlush, fun _ => rfl⟩
  | ledgerClrOvf key => exact .inl ⟨rfl, onKey key ledgerClrOvf, fun _ => rfl⟩
  | clrPeak data => exact .inl ⟨rfl, whileLeadUp (clrPeak data), fun _ => rfl⟩
  | _ => exact .inl ⟨rfl, _, fun _ => rfl⟩

/-- Settles O4: the dispatch answers a next state for every command, and tests the die that a command names. -/
theorem everyCommandCompletes : Obligations.EveryCommandCompletes := by
  intro c s
  rcases exec_onDev_or_onDie c with ⟨hnone, f, hf⟩ | ⟨e, f, hsome, hf⟩
  · exact ⟨does_dev (hf s) trivial, fun d hd => by simp [hnone] at hd⟩
  · refine ⟨⟨_, hf s, trivial⟩, fun d hd habsent => ?_⟩
    obtain rfl : e = d := by simpa [hsome] using hd
    rw [hf s, onDie, if_neg habsent]


/-! The stages of a frame boundary, in the order of R147. -/

/-- The frame is booked and the precise words are formed (R109, R134). -/
def bookStage (s : Device) : Device := (bookAll s).each s.dieList precDie
/-- The step engines and the trims that come before them (R80, R239). -/
def engineStage (s : Device) : Device := (s.each (upChans s) trimBoundary).each (upChans s) engineBoundary
/-- The demands, and the decisions that came late (R254, R260). -/
def demandStage (s : Device) : Device := (s.each (upChans s) demandBoundary).each (upChans s) lateBoundary
/-- Calibration commands and constants (R143, R147, R199). -/
def constStage (s : Device) : Device :=
  let t := s.each s.dieList btBoundary
  t.each (seededChans t) fun g u => constBoundary g (tcrBoundary g u)
/-- Bench and reference of the dies, then range changes, clears and settings of the channels (R105, R116, R155). -/
def settingsStage (s : Device) : Device :=
  let t := s.each s.dieList dieBoundary
  t.each (upChans t) fun g u => settingsBoundary g (clearBoundary g (rangeBoundary g u))
/-- The package's own work, with the means and the enables of each die. -/
def leadStage (s : Device) : Device := leadLast ((leadStore s).each s.dieList dieLast)
/-- The voltage sums start anew and the retention images are handed on (R329, R331). -/
def retainStage (s : Device) : Device :=
  let t := s.each (upChans s) frameSums
  t.each (t.dieList.filter fun d => (t.die d).up) retCommit

theorem frameBoundary_eq (s : Device) : frameBoundary s =
    retainStage (leadStage (settingsStage (constStage (demandStage (engineStage (bookStage (leadFirst (frameAdvance s)))))))) :=
  rfl

/-! Package time (R5). -/

section
variable {fr ck : Nat} {s : Device}

theorem atClock_onKey (key : Byte) {f : Device → Device} (hf : ∀ {t : Device}, t.AtClock fr ck → (f t).AtClock fr ck)
    (hs : s.AtClock fr ck) : (onKey key f s).AtClock fr ck :=
  Device.atClock_ite (fun _ => hf hs) fun _ => hs

theorem atClock_whileLeadUp {f : Device → Device} (hf : ∀ {t : Device}, t.AtClock fr ck → (f t).AtClock fr ck)
    (hs : s.AtClock fr ck) : (whileLeadUp f s).AtClock fr ck :=
  Device.atClock_ite (fun _ => hf hs) fun _ => hs

theorem atClock_fetchWhileRecovering (d : Nat) (hs : s.AtClock fr ck) : (fetchWhileRecovering d s).AtClock fr ck :=
  Device.atClock_ite (fun _ => atClock_nvmRun (atClock_nvmPush _ hs)) fun _ => hs

/-- At a clock every die and the line take their step while the clock stands; then the clock moves on by one. -/
theorem atClock_accumulateClock (inp : ClockIn) (hs : s.AtClock fr ck) : (accumulateClock inp s).AtClock fr (ck + 1) := by
  have hdies := Device.atClock_each s.dieList hs (fun d _ => atClock_dieStep inp (decide (s.clk % 16 = 15)) d)
  unfold accumulateClock
  dsimp only
  generalize s.each s.dieList (dieStep inp (decide (s.clk % 16 = 15))) = t at hdies ⊢
  have hline : (if (t.die 0).up then lineClock t else t).AtClock fr ck :=
    Device.atClock_ite (fun _ => atClock_lineClock hdies) fun _ => hdies
  generalize (if (t.die 0).up then lineClock t else t) = u at hline ⊢
  have hclock : ((u.setTime u.frame (u.clk + 1)).noteRegs).AtClock fr (ck + 1) := ⟨hline.1, congrArg (· + 1) hline.2⟩
  exact Device.atClock_ite (fun _ => atClock_lockClock hclock) fun _ => hclock

theorem atClock_frameAdvance (hs : s.AtClock fr ck) : (frameAdvance s).AtClock (fr + 1) 0 := by
  have htime : ((s.setTime (s.frame + 1) 0).noteRegs).AtClock (fr + 1) 0 := ⟨congrArg (· + 1) hs.1, rfl⟩
  exact Device.atClock_each _ htime fun _ _ ht => Device.atClock_ite (fun _ => Device.atClock_modDie _ _ ht) fun _ => ht

/-- The boundary's work leaves the clock at the beginning of the frame. -/
theorem atClock_frameBoundary (hs : s.AtClock fr ck) : (frameBoundary s).AtClock (fr + 1) 0 := by
  rw [frameBoundary_eq]
  refine Device.atClock_each _ (Device.atClock_each _ (atClock_leadLast (Device.atClock_each _ (atClock_leadStore ?_)
    fun _ _ => atClock_dieLast _)) fun _ _ => atClock_frameSums _) fun _ _ => atClock_retCommit _
  refine Device.atClock_each _ (Device.atClock_each _ ?_ fun _ _ => atClock_dieBoundary _)
    fun _ _ ht => atClock_settingsBoundary _ (atClock_clearBoundary _ (atClock_rangeBoundary _ ht))
  refine Device.atClock_each _ (Device.atClock_each _ ?_ fun _ _ => atClock_btBoundary _)
    fun _ _ ht => atClock_constBoundary _ (atClock_tcrBoundary _ ht)
  refine Device.atClock_each _ (Device.atClock_each _ ?_ fun _ _ => atClock_demandBoundary _)
    fun _ _ => atClock_lateBoundary _
  refine Device.atClock_each _ (Device.atClock_each _ ?_ fun _ _ => atClock_trimBoundary _)
    fun _ _ => atClock_engineBoundary _
  exact Device.atClock_each _ (atClock_bookAll (atClock_leadFirst (atClock_frameAdvance hs))) fun _ _ => atClock_precDie _

end

section
variable {c : Instr} {s : State}

/-- A command of the device whose operation leaves the package clock where it is leaves it there. -/
theorem does_atClock {f : Device → Device} (e : exec c s = onDev s f)
    (hf : ∀ {t : Device}, t.AtClock s.dev.frame s.dev.clk → (f t).AtClock s.dev.frame s.dev.clk) :
    Does c s (·.AtClock s.dev.frame s.dev.clk) :=
  does_dev e (hf ⟨rfl, rfl⟩)

/-- The same of a command that names a die, present or absent. -/
theorem does_atClock_onDie {f : Device → Device} {d : Nat} (e : exec c s = onDie d s f)
    (hf : ∀ {t : Device}, t.AtClock s.dev.frame s.dev.clk → (f t).AtClock s.dev.frame s.dev.clk) :
    Does c s (·.AtClock s.dev.frame s.dev.clk) :=
  ⟨_, e, Device.atClock_ite (fun _ => hf ⟨rfl, rfl⟩) fun _ => ⟨rfl, rfl⟩⟩

/-- Every command but ACCUMULATE_CLOCK and FRAME_BOUNDARY leaves the package clock where it is. -/
theorem exec_keeps_clock (c : Instr) (s : State) (hclock : ∀ inp, c ≠ .accumulateClock inp) (hframe : c ≠ .frameBoundary) :
    Does c s (·.AtClock s.dev.frame s.dev.clk) := by
  cases c with
  | accumulateClock inp => exact absurd rfl (hclock inp)
  | frameBoundary => exact absurd rfl hframe
  | testReq key => exact does_atClock (f := onKey key testReq) rfl (atClock_onKey _ atClock_testReq)
  | testEnd key => exact does_atClock (f := onKey key testEnd) rfl (atClock_onKey _ atClock_testEnd)
  | ledgerReread key => exact does_atClock (f := onKey key ledgerReread) rfl (atClock_onKey _ atClock_ledgerReread)
  | ledgerFlush key => exact does_atClock (f := onKey key ledgerFlush) rfl (atClock_onKey _ atClock_ledgerFlush)
  | ledgerClrOvf key => exact does_atClock (f := onKey key ledgerClrOvf) rfl (atClock_onKey _ atClock_ledgerClrOvf)
  | clrPeak w => exact does_atClock (f := whileLeadUp (clrPeak w)) rfl (atClock_whileLeadUp (atClock_clrPeak _))
  | sectionFetch d =>
    exact does_atClock_onDie (f := fetchWhileRecovering d.val) rfl (atClock_fetchWhileRecovering _)
  | valveBatonExpiry b => cases b <;> exact does_atClock_onDie rfl (atClock_valveBatonExpiry _)
  | acirLeadinStart => exact does_atClock_onDie rfl (atClock_acirInOrder _ _ fun _ _ => atClock_acirLeadin _)
  | acirWindowOpen => exact does_atClock_onDie rfl (atClock_acirInOrder _ _ fun _ _ => atClock_acirOpen _)
  | acirWindowClose => exact does_atClock_onDie rfl (atClock_acirInOrder _ _ fun _ _ => atClock_acirClose _)
  | cellSnap d frame intact =>
    cases intact
    · exact does_atClock_onDie rfl (atClock_snapLost _ _)
    · exact does_atClock_onDie rfl (atClock_cellSnap _ _)
  | portSilent d upstream =>
    cases upstream
    · exact does_atClock_onDie rfl (atClock_portSilentDown _)
    · exact does_atClock_onDie rfl (atClock_portSilentUp _)
  | hostRd => exact does_atClock rfl (atClock_hostRd _ _)
  | hostWr => exact does_atClock rfl (atClock_hostWr _ _ _)
  | hostRdb => exact does_atClock rfl (atClock_hostRdb _ _ _)
  | hostNop => exact does_atClock rfl (atClock_hostNop _)
  | hostUnknownCommand => exact does_atClock rfl (atClock_hostUnknown _)
  | registerWrite | bulkSelWrite => exact does_atClock rfl (atClock_registerWrite _ _)
  | hostSoftReset => exact does_atClock rfl (atClock_hostSoftReset _)
  | snapTake => exact does_atClock rfl atClock_snapTake
  | snapArm => exact does_atClock rfl atClock_snapArm
  | snapDisarm => exact does_atClock rfl atClock_snapDisarm
  | snapshotScheduled => exact does_atClock rfl atClock_snapScheduled
  | lsyncEdge => exact does_atClock rfl (atClock_lsyncEdge _ _ _)
  | lineTimeout => exact does_atClock rfl atClock_lineTimeout
  | lineCfgWrite => exact does_atClock rfl (atClock_lineCfgWrite _ _)
  | clrRej => exact does_atClock rfl (atClock_clrRej _)
  | accClear => exact does_atClock_onDie rfl (atClock_accClear _ _)
  | tcrUpdate => exact does_atClock rfl atClock_tcrUpdate
  | tcrCfgWrite => exact does_atClock_onDie rfl (atClock_tcrCfgWrite _ _)
  | constantWrite => exact does_atClock_onDie rfl (atClock_constantWrite _ _ _)
  | offsetWrite => exact does_atClock_onDie rfl (atClock_offsetWrite _ _ _)
  | baselineWrite => exact does_atClock_onDie rfl (atClock_baselineWrite _ _ _)
  | switchingPeriod => exact does_atClock_onDie rfl (atClock_loopPeriod _ _)
  | fastSample => exact does_atClock rfl (atClock_fastSample _)
  | complianceClamp => exact does_atClock_onDie rfl (atClock_clampEngage _ _)
  | ocpTrip | ovpTrip | rvpTrip | hstop => exact does_atClock_onDie rfl (atClock_protTrip _ _)
  | vdrvUv => exact does_atClock_onDie rfl (atClock_vdrvUv _)
  | vdrvRecover => exact does_atClock_onDie rfl (atClock_vdrvRecover _)
  | busOv => exact does_atClock_onDie rfl (atClock_busOv _)
  | busOvClear => exact does_atClock_onDie rfl (atClock_busOvClear _)
  | pwmWrite => exact does_atClock_onDie rfl (atClock_pwmWrite _ _ _)
  | setpointWrite => exact does_atClock_onDie rfl (atClock_setpointWrite _ _ _)
  | overrideChange => exact does_atClock_onDie rfl (atClock_overrideChange _ _)
  | rangeSelWrite => exact does_atClock_onDie rfl (atClock_rangeSelWrite _ _)
  | uprange => exact does_atClock_onDie rfl (atClock_uprange _)
  | overloadDetect => exact does_atClock_onDie rfl (atClock_overload _ _)
  | sarConversion => exact does_atClock_onDie rfl (atClock_sarConversion _ _)
  | vrefxFailSwitch => exact does_atClock_onDie rfl (atClock_vrefxFail _)
  | vrefxReturnSwitch => exact does_atClock_onDie rfl (atClock_vrefxReturn _)
  | sarFail => exact does_atClock_onDie rfl (atClock_sarFail _)
  | seedingEnd => exact does_atClock_onDie rfl (atClock_seedingEnd _ _)
  | benchVisitStart => exact does_atClock_onDie rfl (atClock_visitStart _)
  | benchSelfcalEnd => exact does_atClock_onDie rfl (atClock_selfcalEnd _ _)
  | benchConnect => exact does_atClock_onDie rfl (atClock_benchConnect _)
  | benchTakeover => exact does_atClock_onDie rfl (atClock_takeover _)
  | benchHandback => exact does_atClock_onDie rfl (atClock_handback _ _)
  | benchAbort => exact does_atClock_onDie rfl (atClock_benchAbort _)
  | benchForce => exact does_atClock_onDie rfl (atClock_benchForce _ _)
  | benchQueue => exact does_atClock_onDie rfl (atClock_benchQueue _ _)
  | calApply => exact does_atClock_onDie rfl (atClock_calApply _ _)
  | calFold => exact does_atClock_onDie rfl (atClock_calFold _ _)
  | plsCfgWrite => exact does_atClock rfl (atClock_plsCfgWrite _ _ _)
  | plsClr => exact does_atClock rfl (atClock_plsClr _ _)
  | pulseEmit => exact does_atClock rfl (atClock_pulseEmit _)
  | pulseEnd => exact does_atClock rfl (atClock_pulseEnd _)
  | ratePulseDue => exact does_atClock rfl (atClock_rateAdvance _)
  | tallyEdge => exact does_atClock rfl (atClock_tallyEdge _ _)
  | tallyClr => exact does_atClock rfl (atClock_tallyClr _)
  | runOpen => exact does_atClock rfl (atClock_runOpen _)
  | runClose => exact does_atClock rfl (atClock_runClose _)
  | runAbort => exact does_atClock rfl (atClock_runAbort _)
  | acirStart => exact does_atClock_onDie rfl (atClock_acirCtlWrite _ _)
  | acirAbortCmd | acirWindowAbort => exact does_atClock_onDie rfl (atClock_acirAbort _ _)
  | acirEnvelopeZero => exact does_atClock_onDie rfl (atClock_acirEnvelopeZero _)
  | acirClr => exact does_atClock_onDie rfl (atClock_acirClrWrite _ _)
  | stepStart => exact does_atClock_onDie rfl (atClock_stepStart _)
  | reseatOffExpiry => exact does_atClock_onDie rfl (atClock_reseatOff _)
  | reseatSettleExpiry => exact does_atClock_onDie rfl (atClock_reseatDone _)
  | pulseLevelChange => exact does_atClock_onDie rfl (atClock_pulseLevel _)
  | pulseCapture => exact does_atClock_onDie rfl (atClock_pulseCapture _ _)
  | ocvSample => exact does_atClock_onDie rfl (atClock_ocvSample _)
  | seqStart | seqHalt | seqRelease | seqSkip | seqAbort => exact does_atClock_onDie rfl (atClock_seqCmd _ _)
  | traceRdWrite => exact does_atClock_onDie rfl (atClock_traceRdWrite _ _)
  | freezePoint => exact does_atClock rfl (atClock_freezePoint _)
  | leaseDecision => exact does_atClock_onDie rfl (atClock_leaseDecision _)
  | fitSet => exact does_atClock rfl atClock_fitSet
  | busMonClr => exact does_atClock rfl (atClock_busMonClr _)
  | valveReqOn | valveReqOff => exact does_atClock rfl (atClock_valveReq _ _ _)
  | valveEvent => exact does_atClock_onDie rfl (atClock_valveEvent _ _)
  | pullInStart => exact does_atClock_onDie rfl (atClock_pullInStart _)
  | valveSlipLimit => exact does_atClock_onDie rfl (atClock_valveSlip _)
  | pullEnd => exact does_atClock_onDie rfl (atClock_pullEnd _)
  | dropToHold => exact does_atClock_onDie rfl (atClock_dropToHold _)
  | releaseToOff => exact does_atClock_onDie rfl (atClock_releaseToOff _)
  | chopPeriod => exact does_atClock_onDie rfl (atClock_chopPeriod _ _)
  | valveOpen => exact does_atClock_onDie rfl (atClock_valveOpen _)
  | valveShort => exact does_atClock_onDie rfl (atClock_valveShort _)
  | valveSlow => exact does_atClock_onDie rfl (atClock_valveSlow _)
  | clampOt => exact does_atClock_onDie rfl (atClock_clampOt _)
  | storeRelease => exact does_atClock rfl atClock_storeRelease
  | boostOv => exact does_atClock rfl atClock_boostOv
  | powerFailTrip => exact does_atClock rfl (atClock_powerFailTrip _)
  | pfTripNonRun => exact does_atClock rfl atClock_pfTripNonRun
  | localPfTrip => exact does_atClock_onDie rfl (atClock_localPfTrip _)
  | handoverComplete => exact does_atClock rfl atClock_handoverComplete
  | vbusGood => exact does_atClock rfl atClock_vbusGood
  | vbusNotGood => exact does_atClock rfl atClock_vbusNotGood
  | thresholdWrite => exact does_atClock rfl (atClock_thresholdWrite _ _)
  | qualifyPass => exact does_atClock rfl atClock_qualifyPass
  | lockWaitTimeout => exact does_atClock rfl atClock_lockWaitTimeout
  | holdStoreLow => exact does_atClock rfl atClock_holdStoreLow
  | holdMaxExpiry => exact does_atClock rfl atClock_holdMaxExpiry
  | vsysCollapse => exact does_atClock rfl atClock_vsysCollapse
  | auxSeqOn => exact does_atClock rfl (atClock_seqOn _)
  | auxSeqOff => exact does_atClock rfl (atClock_seqOff _)
  | auxOnWrite => exact does_atClock rfl (atClock_auxOnWrite _)
  | auxSeqDelayExpiry => exact does_atClock rfl atClock_seqDelay
  | auxUv => exact does_atClock rfl (atClock_auxUv _)
  | keeperPresent => exact does_atClock rfl atClock_keeperPresent
  | chargerStateChange => exact does_atClock rfl (atClock_chargerChange _)
  | chargerTimeout => exact does_atClock rfl atClock_chargerTimeout
  | keeperRemoved => exact does_atClock rfl atClock_keeperRemoved
  | supplement => exact does_atClock rfl (atClock_supplement _)
  | shipEnter => exact does_atClock rfl (atClock_shipEnter _)
  | shipWakeN => exact does_atClock rfl (atClock_shipWakeN _)
  | shipVbusWake => exact does_atClock rfl atClock_shipVbusWake
  | gleanSourceEvaluation | gleanForcedEvaluation => exact does_atClock_onDie rfl (atClock_gleanEvaluate _ _ _)
  | pumpTransfer => exact does_atClock_onDie rfl (atClock_pumpTransfer _)
  | keepGoodFall => exact does_atClock_onDie rfl (atClock_keepGoodFall _)
  | keepGoodRise => exact does_atClock_onDie rfl (atClock_keepGoodRise _)
  | rcTrim => exact does_atClock rfl (atClock_rcTrim _)
  | retentionCommit => exact does_atClock_onDie rfl (atClock_retWrite _)
  | gleanBooking => exact does_atClock_onDie rfl (atClock_gleanBooking _)
  | otpProgram => exact does_atClock rfl (atClock_otpProgram _ _ _ _)
  | otpReinforce => exact does_atClock rfl (atClock_otpReinforce _ _ _)
  | otpRead => exact does_atClock rfl (atClock_otpReadCmd _ _)
  | otpLock => exact does_atClock rfl (atClock_otpLock _ _ _ _)
  | otpReload => exact does_atClock rfl (atClock_otpReload _)
  | otpPumpExpiry => exact does_atClock rfl atClock_otpPumpExpiry
  | otpCommandDone => exact does_atClock rfl atClock_otpDone
  | imageLoad => exact does_atClock rfl atClock_loadImage
  | ptRead | ptFastRead | ptPageProgram | ptSectorErase | ptReadStatus | ptReadId | ptReset => exact does_atClock rfl (atClock_ptCommand _ _ _ _)
  | flashOpComplete => exact does_atClock rfl (atClock_flashComplete _)
  | nvmTimeout => exact does_atClock rfl (atClock_nvmTimeout _)
  | nvmBatonExpiry => exact does_atClock rfl atClock_nvmBatonExpiry
  | ckptTake => exact does_atClock rfl (atClock_ckptTake _)
  | checkpointBoundary => exact does_atClock rfl atClock_ckptBoundary
  | checkpointDone => exact does_atClock rfl atClock_ckptDone
  | spareRestore => exact does_atClock rfl atClock_spareRestore
  | pinReg | unpinReg | pinChset | pinCommit | pinDiscard => exact does_atClock rfl (atClock_pinCommand _ _ _)
  | coldPowerOn => exact does_atClock rfl atClock_coldPowerOn
  | warmStart => exact does_atClock rfl atClock_warmStart
  | resetNLow => exact does_atClock rfl atClock_resetNLow
  | resetNRise => exact does_atClock rfl atClock_resetNRise
  | mainDomainStart => exact does_atClock rfl (atClock_pkgStart _)
  | loadEnd => exact does_atClock rfl atClock_loadEnd
  | releaseAll => exact does_atClock rfl (atClock_releaseAll _)
  | cellFrame | cellAngle | cellSched => exact does_atClock_onDie rfl (atClock_cellBcast _ _ _ _ _ _)
  | broadcastExecute => exact does_atClock rfl (atClock_bcastExecute _)
  | cellLease => exact does_atClock_onDie rfl (atClock_cellLease _ _)
  | cellWrite => exact does_atClock_onDie rfl (atClock_cellWrite _)
  | cellRead => exact does_atClock_onDie rfl (atClock_cellRead _ _)
  | cellResp => exact does_atClock_onDie rfl (atClock_cellResp _)
  | cellShadow => exact does_atClock rfl (atClock_cellShadow _)
  | cellGroup => exact does_atClock_onDie rfl (atClock_cellGroup _)
  | cellLedger => exact does_atClock_onDie rfl (atClock_cellLedger _)
  | cellCkpt => exact does_atClock_onDie rfl (atClock_cellCkpt _)
  | cellAck => exact does_atClock_onDie rfl (atClock_cellAck _ _)
  | cellNak => exact does_atClock_onDie rfl (atClock_cellNak _ _ _)
  | cellTrain => exact does_atClock_onDie rfl (atClock_cellTrain _ _)
  | cellIdle => exact does_atClock_onDie rfl (atClock_cellIdle _)
  | portTrainingDone => exact does_atClock_onDie rfl (atClock_trainingDone _)
  | dieWatchdogStall => exact does_atClock_onDie rfl (atClock_dieStall _)
  | pkgWatchdogExpiry => exact does_atClock rfl atClock_pkgWatchdog
  | dieRecoveryStart => exact does_atClock_onDie rfl (atClock_recoveryStart _ _)
  | dieRecoveryDone => exact does_atClock_onDie rfl (atClock_recoveryDone _)
  | recoveryTimeout => exact does_atClock_onDie rfl (atClock_recoveryTimeout _)
  | recoveryStable => exact does_atClock_onDie rfl (atClock_recoveryStable _)
  | leadHoldExpiry => exact does_atClock_onDie rfl (atClock_leadHold _)
  | pfReadyAgain => exact does_atClock rfl atClock_pfReady
  | vbusBelowRise => exact does_atClock rfl atClock_vbusBelowRise
  | clampOtClear => exact does_atClock_onDie rfl (atClock_clampOtClear _)
  | benchBatonExpiry => exact does_atClock_onDie rfl (atClock_benchBatonExpiry _)

end

/-- Settles O5: the two commands that move the package clock do so as R5 says, and no other command's operation moves it. -/
theorem onlyClockAndBoundaryMoveTheClock : Obligations.OnlyClockAndBoundaryMoveTheClock := by
  intro c s t h
  have unmoved : (∀ inp, c ≠ .accumulateClock inp) → c ≠ .frameBoundary →
      t.dev.frame = s.dev.frame ∧ t.dev.clk = s.dev.clk := by
    intro hclock hframe
    obtain ⟨u, hu, hat⟩ := exec_keeps_clock c s hclock hframe
    obtain rfl : _ = t := Host.Outcome.next.inj (hu.symm.trans h)
    exact hat.both
  cases c with
  | accumulateClock inp =>
    obtain rfl : _ = t := Host.Outcome.next.inj h
    exact (atClock_accumulateClock inp (s := s.dev) ⟨rfl, rfl⟩).both
  | frameBoundary =>
    obtain rfl : _ = t := Host.Outcome.next.inj h
    exact (atClock_frameBoundary (s := s.dev) ⟨rfl, rfl⟩).both
  | _ => exact unmoved nofun nofun

end Sys2Proof.Machine
end

section
/-! Proofs of the family of the scope: what a word written to a register does (O12). -/

namespace Sys2Proof.Machine

/-! Register files: a word set as it reads. -/

theorem mem_of_rfFind {a : Nat} {w : Word} {f : RegFile} (h : rfFind a f = some w) : (a, w) ∈ f := by
  induction f with
  | nil => simp [rfFind] at h
  | cons p t ih =>
    by_cases e : p.1 = a
    · obtain rfl : p = (a, w) := Prod.ext e (by simpa [rfFind, e] using h)
      exact List.mem_cons_self
    · exact List.mem_cons_of_mem _ (ih (by simpa [rfFind, e] using h))

theorem rfErase_of_rfFind_none {a : Nat} {f : RegFile} (h : rfFind a f = none) : rfErase a f = f := by
  refine List.filter_eq_self.mpr fun p hp => ?_
  induction f with
  | nil => simp at hp
  | cons q t ih =>
    by_cases e : q.1 = a
    · simp [rfFind, e] at h
    · rcases List.mem_cons.mp hp with rfl | hp
      · simpa using e
      · exact ih (by simpa [rfFind, e] using h) hp

theorem rfPut_of_mem {a : Nat} {w : Word} {f : RegFile} (hf : f.Pairwise fun p q => p.1 < q.1) (h : (a, w) ∈ f) :
    rfPut a w f = f := by
  induction f with
  | nil => simp at h
  | cons q t ih =>
    obtain ⟨hq, ht⟩ := List.pairwise_cons.mp hf
    rcases List.mem_cons.mp h with rfl | h
    · simp [rfPut]
    · have hlt : q.1 < a := hq _ h
      rw [rfPut, if_neg (by omega), if_neg (by omega), ih ht h]

/-- A word of a canonical file that is set to what it reads leaves the file as it is. -/
theorem rfSet_rfGet {f : RegFile} (hf : rfWf f = true) (a : Nat) : rfSet f a (rfGet f a) = f := by
  obtain ⟨hsorted, hlisted⟩ := (rfWf_iff f).mp hf
  cases hfind : rfFind a f with
  | none => simp [rfGet, rfSet, hfind, rfErase_of_rfFind_none hfind]
  | some w =>
    have hmem := mem_of_rfFind hfind
    simp [rfGet, rfSet, hfind, hlisted _ hmem, rfPut_of_mem hsorted hmem]

/-! The map of the registers (R448). -/

theorem locate_eq_pkg {a i off : Nat} (h : locate a = some (.pkg, i, off)) : off = a ∧ a < 0x1000 := by
  unfold locate at h
  split_ifs at h <;> simp_all

theorem locate_eq_die {a d off : Nat} (h : locate a = some (.die, d, off)) : dieAddr d off = a ∧ off < 0x200 ∧ d < 8 := by
  unfold locate at h
  split_ifs at h <;> simp_all [dieAddr]
  omega

theorem locate_eq_ch {a g off : Nat} (h : locate a = some (.ch, g, off)) : chAddr g off = a ∧ off < 0x80 ∧ g < 64 := by
  unfold locate at h
  split_ifs at h <;> simp_all [chAddr]
  omega

theorem ownerOf_lt_dies (a : Nat) : ownerOf a < 8 := by
  unfold ownerOf
  split
  · rename_i h; exact (locate_eq_die h).2.2
  · rename_i h; have := (locate_eq_ch h).2.2; omega
  · omega

/-- The offsets of a block whose words have an effect of their own when they are written. -/
def effectAt (b : Blk) (off : Nat) : Bool :=
  match b with
  | .pkg => decide (off ∈ [0x06, 0x08, 0x0A, 0x10, 0x11, 0x1A, 0x26, 0x2A, 0x33, 0x37, 0x4C, 0x4D, 0x60, 0x70, 0x7A, 0x7D,
      0x97, 0x98, 0xA6, 0xB0, 0xC8, 0xD4] ∨ (0x80 ≤ off ∧ off < 0x90))
  | .die => decide (off ∈ [0x10, 0x16, 0x40, 0x60] ∨ (0x20 ≤ off ∧ off < 0x30 ∧ off % 4 ≠ 3) ∨ (0x30 ≤ off ∧ off < 0x34))
  | .ch => decide (off ∈ [0x00, 0x02, 0x06, 0x08, 0x09, 0x0A, 0x14, 0x15, 0x1F, 0x2A, 0x50, 0x5D] ∨
      (0x3F ≤ off ∧ off ≤ 0x48) ∨ (0x4C ≤ off ∧ off ≤ 0x4F))

/-- The addresses that do more than hold a value: words with an effect of their own, and the ranges without a block. -/
def hasEffect (a : Nat) : Bool :=
  match locate a with
  | some (b, _, off) => effectAt b off
  | none => true

theorem effectAt_lt {b : Blk} {off : Nat} (h : effectAt b off = true) : off < 0x100 := by
  cases b <;> simp [effectAt] at h <;> omega

theorem row_of_effectAt : ∀ b ∈ [Blk.pkg, .die, .ch], ∀ off < 0x100, effectAt b off = true → (regRow b off).isSome = true := by
  decide +kernel

/-- Every word with an effect of its own is a register: an address of a block without a register does nothing (R449). -/
theorem no_effect_of_no_row {a : Nat} (hrow : rowAt a = none) (hl : (locate a).isSome = true) : hasEffect a = false := by
  obtain ⟨⟨b, i, off⟩, hloc⟩ := Option.isSome_iff_exists.mp hl
  have hnone : regRow b off = none := by simpa [rowAt, hloc] using hrow
  by_contra h
  have heff : effectAt b off = true := by simpa [hasEffect, effectAt, hloc] using h
  have := row_of_effectAt b (by cases b <;> decide) off (effectAt_lt heff) heff
  simp [hnone] at this

section
variable {a : Nat} (w : Word) (s : Device)

theorem valveReqOf_of_not_reqWord (h : ¬ ReqWord a) : valveReqOf a w s = s := by
  unfold valveReqOf
  split
  · rename_i d off hl
    obtain ⟨ha, hoff, hd⟩ := locate_eq_die hl
    refine if_neg fun hreq => h ?_
    simp only [Bool.and_eq_true, decide_eq_true_eq, beq_iff_eq] at hreq
    obtain ⟨⟨-, hk⟩, hi⟩ := hreq
    unfold dieAddr at ha
    refine ⟨?_, ?_, ?_, ?_, ?_⟩ <;> omega
  · rfl

theorem bcastFirst_of_quiet {o : Nat} (h : Quiet s o) : bcastFirst o s = s := by
  refine if_pos (List.filter_eq_nil_iff.mpr fun b hb hhit => ?_)
  simp only [Bool.and_eq_true, List.contains_iff_mem] at hhit
  exact h b hb hhit.1 hhit.2

/-! The words that only hold their value. -/

theorem locate_of_reqWord (h : ReqWord a) : locate a = some (.die, (a - 0x2000) / 0x200, (a - 0x2000) % 0x200) := by
  obtain ⟨hlo, hhi, -⟩ := h
  rw [locate, if_neg (by omega), if_neg (by omega), if_pos hhi]

theorem not_reqWord_of_no_effect (h : hasEffect a = false) : ¬ ReqWord a := by
  intro hreq
  simp only [hasEffect, effectAt, locate_of_reqWord hreq, decide_eq_false_iff_not, not_or] at h
  obtain ⟨hlo, hhi, hk, hk', hi⟩ := hreq
  omega

theorem frameEndWord_of_no_effect (h : hasEffect a = false) : frameEndWord a w s = s := by
  unfold frameEndWord
  split_ifs with h8 _ hA6
  · subst h8; exact absurd h (by decide)
  · rfl
  · subst hA6; exact absurd h (by decide)
  · rfl

theorem afterStore_of_no_effect (h : hasEffect a = false) : afterStore a s = s := by
  unfold afterStore
  split <;> rename_i hl
  · simp [hasEffect, effectAt, hl] at h
  · simp [hasEffect, effectAt, hl] at h
  · simp only [hasEffect, effectAt, hl, decide_eq_false_iff_not, not_or] at h
    exact if_neg (by omega)
  · rfl

theorem pkgEffect_of_no_effect {i off : Nat} (hl : locate a = some (.pkg, i, off)) (h : hasEffect a = false) :
    pkgEffect off w s = storeWord off w s := by
  simp only [hasEffect, effectAt, hl, decide_eq_false_iff_not, not_or] at h
  obtain ⟨hlist, hpls⟩ := h
  unfold pkgEffect
  split
  case h_21 => exact if_neg hpls
  all_goals exact absurd (by decide) hlist

theorem dieEffect_of_no_effect {d off : Nat} (hl : locate a = some (.die, d, off)) (h : hasEffect a = false) :
    dieEffect d off w s = storeWord (dieAddr d off) w s := by
  simp only [hasEffect, effectAt, hl, decide_eq_false_iff_not, not_or] at h
  obtain ⟨hlist, hvalve, hclear⟩ := h
  unfold dieEffect
  split_ifs with h10 h16 hv h40 h60
  · subst h10; exact absurd (by decide) hlist
  · subst h16; exact absurd (by decide) hlist
  · have hi : (off - 0x20) % 4 = 3 := by omega
    have hoff : 0x20 + 4 * ((off - 0x20) / 4) + 3 = off := by omega
    simp only [valveWrite, hi, hoff]
  · subst h40; exact absurd (by decide) hlist
  · subst h60; exact absurd (by decide) hlist
  · rfl

theorem chEffect_of_no_effect {g off : Nat} (hl : locate a = some (.ch, g, off)) (h : hasEffect a = false) :
    chEffect g off w s = storeWord (chAddr g off) w s := by
  simp only [hasEffect, effectAt, hl, decide_eq_false_iff_not, not_or] at h
  obtain ⟨hlist, hcal, hbase⟩ := h
  unfold chEffect
  split
  case h_17 =>
    have hconst : ¬ isConst off = true := by
      simp only [isConst, decide_eq_true_eq]
      exact fun hc => hcal ⟨by omega, by omega⟩
    rw [if_neg hconst, if_neg hbase]
  case h_10 | h_11 | h_12 | h_13 | h_14 => exact absurd (by decide) hcal
  all_goals exact absurd (by decide) hlist

/-- A word without an effect of its own clears its flags and stores its fields (R8). -/
theorem writeWord_of_no_effect (h : hasEffect a = false) : writeWord a w s = storeWord a w (clearFlags a w s) := by
  unfold writeWord
  split <;> rename_i hl
  · rename_i off
    have h26 : off ≠ 0x26 := fun e => by subst e; simp [hasEffect, effectAt, hl] at h
    rw [writePkg, if_neg h26, pkgEffect_of_no_effect w _ hl h, (locate_eq_pkg hl).1]
  · rw [writeDie, dieEffect_of_no_effect w _ hl h, (locate_eq_die hl).1]
  · rename_i off
    have h2 : off ≠ 0x02 := fun e => by subst e; simp [hasEffect, effectAt, hl] at h
    rw [writeCh, if_neg h2, chEffect_of_no_effect w _ hl h, (locate_eq_ch hl).1]
  · simp [hasEffect, hl] at h

end

/-! Broadcasts and the shadow file: what acts at a stamp neither reads nor writes the shadow file or the broadcasts on their
way (R21 to R23). -/

/-- A device with another shadow file and other broadcasts on their way. -/
def aside (x : RegFile) (l : List Bcast) (s : Device) : Device := { s with shadow := x, bcast := l }

/-! The proofs below are `(rfl)`, not `rfl`: so `simp` rewrites the condition of an `if` and its decision procedure together. -/

section
variable (x : RegFile) (l : List Bcast) (s : Device)

@[simp] theorem setReg_aside (a : Nat) (w : Word) : (aside x l s).setReg a w = aside x l (s.setReg a w) := (rfl)
@[simp] theorem modCh_aside (g : Nat) (f : Chan → Chan) : (aside x l s).modCh g f = aside x l (s.modCh g f) := (rfl)
@[simp] theorem modDie_aside (d : Nat) (f : DieSt → DieSt) : (aside x l s).modDie d f = aside x l (s.modDie d f) := (rfl)
@[simp] theorem pset_aside (f : Fld .pkg) (v : Nat) : (aside x l s).pset f v = aside x l (s.pset f v) := (rfl)
@[simp] theorem pinc_aside (f : Fld .pkg) : (aside x l s).pinc f = aside x l (s.pinc f) := (rfl)
@[simp] theorem dset_aside (d : Nat) (f : Fld .die) (v : Nat) : (aside x l s).dset d f v = aside x l (s.dset d f v) := (rfl)
@[simp] theorem dinc_aside (d : Nat) (f : Fld .die) : (aside x l s).dinc d f = aside x l (s.dinc d f) := (rfl)
@[simp] theorem cset_aside (g : Nat) (f : Fld .ch) (v : Nat) : (aside x l s).cset g f v = aside x l (s.cset g f v) := (rfl)
@[simp] theorem modLp_aside (g : Nat) (f : Loop → Loop) : (aside x l s).modLp g f = aside x l (s.modLp g f) := (rfl)
@[simp] theorem modEng_aside (g : Nat) (f : Eng → Eng) : (aside x l s).modEng g f = aside x l (s.modEng g f) := (rfl)
@[simp] theorem modDue_aside (g : Nat) (f : Due → Due) : (aside x l s).modDue g f = aside x l (s.modDue g f) := (rfl)
@[simp] theorem modAcir_aside (g : Nat) (f : Acir → Acir) : (aside x l s).modAcir g f = aside x l (s.modAcir g f) := (rfl)
@[simp] theorem modLink_aside (d : Nat) (f : Link → Link) : (aside x l s).modLink d f = aside x l (s.modLink d f) := (rfl)
@[simp] theorem setIrqAt_aside (n : Nat) : (aside x l s).setIrqAt n = aside x l (s.setIrqAt n) := (rfl)
@[simp] theorem setDropped_aside (n : List (Nat × LedgerEnt)) : (aside x l s).setDropped n = aside x l (s.setDropped n) := (rfl)
@[simp] theorem acirIdle_aside (g : Nat) : acirIdle g (aside x l s) = aside x l (acirIdle g s) := (rfl)
@[simp] theorem gatesOff_aside (g : Nat) : gatesOff g (aside x l s) = aside x l (gatesOff g s) := (rfl)
@[simp] theorem rearm_aside (old new g : Nat) : rearm old new g (aside x l s) = aside x l (rearm old new g s) := (rfl)
@[simp] theorem irqLatch_aside (cat die obj : Nat) :
    irqLatch cat die obj (aside x l s) = aside x l (irqLatch cat die obj s) := (rfl)
@[simp] theorem vset_aside (v : Nat) (f : Fld .die) (n : Nat) : vset v f n (aside x l s) = aside x l (vset v f n s) := (rfl)
@[simp] theorem frame_aside : (aside x l s).frame = s.frame := (rfl)
@[simp] theorem ledger_aside : (aside x l s).ledger = s.ledger := (rfl)
@[simp] theorem irqAt_aside : (aside x l s).irqAt = s.irqAt := (rfl)
@[simp] theorem dropped_aside : (aside x l s).dropped = s.dropped := (rfl)
@[simp] theorem snap_aside : (aside x l s).snap = s.snap := (rfl)
@[simp] theorem line_aside : (aside x l s).line = s.line := (rfl)
@[simp] theorem now_aside : (aside x l s).now = s.now := (rfl)
@[simp] theorem reg_aside (a : Nat) : (aside x l s).reg a = s.reg a := (rfl)
@[simp] theorem ch_aside (g : Nat) : (aside x l s).ch g = s.ch g := (rfl)
@[simp] theorem die_aside (d : Nat) : (aside x l s).die d = s.die d := (rfl)
@[simp] theorem pget_aside (f : Fld .pkg) : (aside x l s).pget f = s.pget f := (rfl)
@[simp] theorem dget_aside (d : Nat) (f : Fld .die) : (aside x l s).dget d f = s.dget d f := (rfl)
@[simp] theorem cget_aside (g : Nat) (f : Fld .ch) : (aside x l s).cget g f = s.cget g f := (rfl)
@[simp] theorem dbit_aside (d : Nat) (f : Fld .die) : (aside x l s).dbit d f = s.dbit d f := (rfl)
@[simp] theorem cbit_aside (g : Nat) (f : Fld .ch) : (aside x l s).cbit g f = s.cbit g f := (rfl)
@[simp] theorem acirState_aside (g : Nat) : acirState (aside x l s) g = acirState s g := (rfl)
@[simp] theorem acirActive_aside (g : Nat) : acirActive (aside x l s) g = acirActive s g := (rfl)
@[simp] theorem ptOf_aside (d : Nat) : ptOf (aside x l s) d = ptOf s d := (rfl)
@[simp] theorem modeOf_aside (g : Nat) : modeOf (aside x l s) g = modeOf s g := (rfl)
@[simp] theorem phaseOf_aside (v : Nat) : phaseOf (aside x l s) v = phaseOf s v := (rfl)
@[simp] theorem bankOnVbst_aside (d : Nat) : bankOnVbst (aside x l s) d = bankOnVbst s d := (rfl)
@[simp] theorem lineState_aside : lineState (aside x l s) = lineState s := (rfl)
@[simp] theorem lineStateOf_aside (d : Nat) : lineStateOf (aside x l s) d = lineStateOf s d := (rfl)
@[simp] theorem lineCountOf_aside (d : Nat) : lineCountOf (aside x l s) d = lineCountOf s d := (rfl)
@[simp] theorem irqStatus_aside : irqStatus (aside x l s) = irqStatus s := (rfl)
@[simp] theorem irqMask_aside : irqMask (aside x l s) = irqMask s := (rfl)
@[simp] theorem entryOf_aside (cat d code obj data : Nat) :
    entryOf (aside x l s) cat d code obj data = entryOf s cat d code obj data := (rfl)
@[simp] theorem pausesAny_aside (d : Nat) : pausesAny (aside x l s) d = pausesAny s d := (rfl)
@[simp] theorem slotWords_aside (d c : Nat) : slotWords (aside x l s) d c = slotWords s d c := (rfl)

variable {x l}

@[simp] theorem ite_aside {c : Prop} [Decidable c] {A B : Device} :
    (if c then aside x l A else aside x l B) = aside x l (if c then A else B) := by
  split <;> rfl

theorem each_aside (ns : List Nat) {f : Nat → Device → Device} (hf : ∀ n t, f n (aside x l t) = aside x l (f n t)) :
    (aside x l s).each ns f = aside x l (s.each ns f) := by
  induction ns generalizing s with
  | nil => rfl
  | cons n ns ih =>
    show Device.each ns f (f n (aside x l s)) = aside x l (Device.each ns f (f n s))
    rw [hf, ih]

@[simp] theorem traceWrite_aside (typ g : Nat) (body : List Byte) :
    traceWrite typ g body (aside x l s) = aside x l (traceWrite typ g body s) := by
  simp [traceWrite]

@[simp] theorem acirStepAborted_aside (code g : Nat) :
    acirStepAborted code g (aside x l s) = aside x l (acirStepAborted code g s) := by
  simp [acirStepAborted, acirStepFails, acirRecord]

@[simp] theorem acirAbort_aside (code g : Nat) : acirAbort code g (aside x l s) = aside x l (acirAbort code g s) := by
  simp [acirAbort]

@[simp] theorem stopChannel_aside (g : Nat) : stopChannel g (aside x l s) = aside x l (stopChannel g s) := by
  simp [stopChannel, acirStopped]

@[simp] theorem setMode_aside (m g : Nat) : setMode m g (aside x l s) = aside x l (setMode m g s) := by
  simp [setMode]

theorem setWords_aside (a : Nat) (ws : List Word) : setWords (fun a w u => u.setReg a w) a ws (aside x l s) =
    aside x l (setWords (fun a w u => u.setReg a w) a ws s) := by
  induction ws generalizing a s with
  | nil => rfl
  | cons w ws ih => exact ih (s.setReg a w) (a + 1)

@[simp] theorem snapLatch_aside (d frame : Nat) : snapLatch d frame (aside x l s) = aside x l (snapLatch d frame s) := by
  simp [snapLatch, each_aside, setWords_aside]

@[simp] theorem snapDone_aside : snapDone (aside x l s) = aside x l (snapDone s) := by
  simp [snapDone]

@[simp] theorem snapCommit_aside (d : Nat) : snapCommit d (aside x l s) = aside x l (snapCommit d s) := by
  obtain ⟨t, ht⟩ : ∃ t, t = aside x l s := ⟨_, rfl⟩
  have hslots (m : Snap) : { t with snap := m } = aside x l { s with snap := m } := by rw [ht]; rfl
  rw [← ht]
  simp only [snapCommit, hslots, snapDone_aside]
  simp [ht]

@[simp] theorem setIrq_aside (cat die obj : Nat) : setIrq cat die obj (aside x l s) = aside x l (setIrq cat die obj s) := by
  simp [setIrq, irqSource]

@[simp] theorem ledgerWrite_aside (e : LedgerEnt) : ledgerWrite e (aside x l s) = aside x l (ledgerWrite e s) := by
  obtain ⟨t, ht⟩ : ∃ t, t = aside x l s := ⟨_, rfl⟩
  have hring (n : List LedgerEnt) : { t with ledger := n } = aside x l { s with ledger := n } := by rw [ht]; rfl
  rw [← ht]
  simp only [ledgerWrite, setCat, hring]
  simp [ht]

@[simp] theorem ledgerPut_aside (e : LedgerEnt) : ledgerPut e (aside x l s) = aside x l (ledgerPut e s) := by
  simp [ledgerPut]

@[simp] theorem logEvent_aside (cat d code obj data : Nat) :
    logEvent cat d code obj data (aside x l s) = aside x l (logEvent cat d code obj data s) := by
  simp [logEvent]

@[simp] theorem bankRow_aside (d : Nat) : bankRow d (aside x l s) = aside x l (bankRow d s) := by
  unfold bankRow
  simp only [bankOnVbst_aside, phaseOf_aside, dget_aside, modDie_aside, dset_aside, ite_aside, now_aside]
  cases (bankValves d).filter fun v => phaseOf s v == Ph.pull <;> simp [each_aside]

@[simp] theorem leadPause_aside (d : Nat) : leadPause d (aside x l s) = aside x l (leadPause d s) := by
  simp [leadPause, each_aside]

@[simp] theorem leadReturn_aside (old d : Nat) : leadReturn old d (aside x l s) = aside x l (leadReturn old d s) := by
  simp [leadReturn, each_aside]

theorem bcastAct_aside (b : Bcast) (d : Nat) : bcastAct b d (aside x l s) = aside x l (bcastAct b d s) := by
  unfold bcastAct
  cases b.kind <;> simp [each_aside]

end

/-! What acts at a stamp neither takes a die down nor benches it, and starts and ends no recovery. -/

/-- Whether a die's main domain is up, whether it is in husk, and its recovery. -/
def standing (s : Device) (d : Nat) : Bool × Bool × Recov := ((s.die d).up, (s.die d).husk, (s.die d).recov)

section
variable (s : Device)

theorem standing_modDie (d : Nat) {f : DieSt → DieSt}
    (hf : ∀ x, (f x).up = x.up ∧ (f x).husk = x.husk ∧ (f x).recov = x.recov) : standing (s.modDie d f) = standing s := by
  funext e
  unfold standing
  by_cases he : e = d
  · subst he
    by_cases hlen : e < s.dies.length
    · obtain ⟨hup, hhusk, hrecov⟩ := hf (s.die e)
      rw [Device.die_modDie_self s hlen, hup, hhusk, hrecov]
    · have hnone : (s.modDie e f).die e = s.die e := by simp [Device.die, Device.modDie, hlen]
      rw [hnone]
  · rw [Device.die_modDie_ne s he]

@[simp] theorem standing_setReg (a : Nat) (w : Word) : standing (s.setReg a w) = standing s := (rfl)
@[simp] theorem standing_modCh (g : Nat) (f : Chan → Chan) : standing (s.modCh g f) = standing s := (rfl)
@[simp] theorem standing_pset (f : Fld .pkg) (v : Nat) : standing (s.pset f v) = standing s := (rfl)
@[simp] theorem standing_pinc (f : Fld .pkg) : standing (s.pinc f) = standing s := (rfl)
@[simp] theorem standing_dset (d : Nat) (f : Fld .die) (v : Nat) : standing (s.dset d f v) = standing s := (rfl)
@[simp] theorem standing_dinc (d : Nat) (f : Fld .die) : standing (s.dinc d f) = standing s := (rfl)
@[simp] theorem standing_cset (g : Nat) (f : Fld .ch) (v : Nat) : standing (s.cset g f v) = standing s := (rfl)
@[simp] theorem standing_modLp (g : Nat) (f : Loop → Loop) : standing (s.modLp g f) = standing s := (rfl)
@[simp] theorem standing_modEng (g : Nat) (f : Eng → Eng) : standing (s.modEng g f) = standing s := (rfl)
@[simp] theorem standing_modDue (g : Nat) (f : Due → Due) : standing (s.modDue g f) = standing s := (rfl)
@[simp] theorem standing_modAcir (g : Nat) (f : Acir → Acir) : standing (s.modAcir g f) = standing s := (rfl)
@[simp] theorem standing_setIrqAt (n : Nat) : standing (s.setIrqAt n) = standing s := (rfl)
@[simp] theorem standing_setDropped (l : List (Nat × LedgerEnt)) : standing (s.setDropped l) = standing s := (rfl)
@[simp] theorem standing_setBcast (l : List Bcast) : standing (s.setBcast l) = standing s := (rfl)
@[simp] theorem standing_acirIdle (g : Nat) : standing (acirIdle g s) = standing s := (rfl)
@[simp] theorem standing_gatesOff (g : Nat) : standing (gatesOff g s) = standing s := (rfl)
@[simp] theorem standing_rearm (old new g : Nat) : standing (rearm old new g s) = standing s := (rfl)
@[simp] theorem standing_irqLatch (cat die obj : Nat) : standing (irqLatch cat die obj s) = standing s := (rfl)
@[simp] theorem standing_vset (v : Nat) (f : Fld .die) (n : Nat) : standing (vset v f n s) = standing s := (rfl)

@[simp] theorem standing_modLink (d : Nat) (f : Link → Link) : standing (s.modLink d f) = standing s :=
  standing_modDie s d fun _ => ⟨rfl, rfl, rfl⟩

theorem standing_each (ns : List Nat) {f : Nat → Device → Device} (hf : ∀ n t, standing (f n t) = standing t) :
    standing (s.each ns f) = standing s := by
  induction ns generalizing s with
  | nil => rfl
  | cons n ns ih => exact (ih (f n s)).trans (hf n s)

@[simp] theorem standing_traceWrite (typ g : Nat) (body : List Byte) : standing (traceWrite typ g body s) = standing s := by
  have hseq (t : Device) (d n : Nat) : standing (t.modDie d fun x => { x with traceSeq := (x.traceSeq + n) % 65536 }) = standing t :=
    standing_modDie t d fun _ => ⟨rfl, rfl, rfl⟩
  have hput (t : Device) (d n : Nat) (r : List Byte) :
      standing (t.modDie d fun x => { x with trace := (n, r) :: x.trace.filter fun p => p.1 != n }) = standing t :=
    standing_modDie t d fun _ => ⟨rfl, rfl, rfl⟩
  simp [traceWrite, apply_ite standing, hseq, hput]

@[simp] theorem standing_acirStepAborted (code g : Nat) : standing (acirStepAborted code g s) = standing s := by
  simp [acirStepAborted, acirStepFails, acirRecord, apply_ite standing]

@[simp] theorem standing_acirAbort (code g : Nat) : standing (acirAbort code g s) = standing s := by
  simp [acirAbort, apply_ite standing]

@[simp] theorem standing_stopChannel (g : Nat) : standing (stopChannel g s) = standing s := by
  simp [stopChannel, acirStopped, apply_ite standing]

@[simp] theorem standing_setMode (m g : Nat) : standing (setMode m g s) = standing s := by
  simp [setMode, apply_ite standing]

theorem standing_setWords (a : Nat) (ws : List Word) : standing (setWords (fun a w u => u.setReg a w) a ws s) = standing s := by
  induction ws generalizing a s with
  | nil => rfl
  | cons w ws ih => exact ih (s.setReg a w) (a + 1)

@[simp] theorem standing_snapLatch (d frame : Nat) : standing (snapLatch d frame s) = standing s := by
  simp [snapLatch, apply_ite standing, standing_each, standing_setWords]

@[simp] theorem standing_snapDone : standing (snapDone s) = standing s := by
  simp [snapDone, apply_ite standing]

@[simp] theorem standing_snapCommit (d : Nat) : standing (snapCommit d s) = standing s := by
  unfold snapCommit
  split_ifs
  · exact standing_snapDone _
  · rfl

@[simp] theorem standing_setIrq (cat die obj : Nat) : standing (setIrq cat die obj s) = standing s := by
  simp [setIrq, irqSource, apply_ite standing]

@[simp] theorem standing_ledgerWrite (e : LedgerEnt) : standing (ledgerWrite e s) = standing s := by
  have hring (l : List LedgerEnt) : standing { s with ledger := l } = standing s := rfl
  simp [ledgerWrite, setCat, apply_ite standing, hring]

@[simp] theorem standing_ledgerPut (e : LedgerEnt) : standing (ledgerPut e s) = standing s := by
  simp [ledgerPut, apply_ite standing]

@[simp] theorem standing_logEvent (cat d code obj data : Nat) : standing (logEvent cat d code obj data s) = standing s := by
  unfold logEvent
  dsimp only
  split_ifs
  · simp
  · rw [standing_modDie, standing_setIrq]
    intro x
    split_ifs <;> exact ⟨rfl, rfl, rfl⟩

@[simp] theorem standing_bankRow (d : Nat) : standing (bankRow d s) = standing s := by
  have hsrc (n : Nat) : standing (s.modDie d fun x => { x with srcAt := some n }) = standing s :=
    standing_modDie s d fun _ => ⟨rfl, rfl, rfl⟩
  unfold bankRow
  cases (bankValves d).filter fun v => phaseOf s v == Ph.pull <;> simp [apply_ite standing, standing_each, hsrc]

@[simp] theorem standing_leadPause (d : Nat) : standing (leadPause d s) = standing s :=
  standing_each s _ fun g t => by simp [apply_ite standing]

@[simp] theorem standing_leadReturn (old d : Nat) : standing (leadReturn old d s) = standing s := by
  simp [leadReturn, apply_ite standing, standing_each]

theorem standing_bcastAct (b : Bcast) (d : Nat) : standing (bcastAct b d s) = standing s := by
  have htime (f c : Nat) : standing (s.modDie d fun x => { x with frame := f, clk := c }) = standing s :=
    standing_modDie s d fun _ => ⟨rfl, rfl, rfl⟩
  have hnco (n : Nco) : standing (s.modDie d fun x => { x with nco := n }) = standing s :=
    standing_modDie s d fun _ => ⟨rfl, rfl, rfl⟩
  unfold bcastAct
  cases b.kind <;> simp [apply_ite standing, standing_each, htime, hnco]

/-! A broadcast that is due on a die. -/

/-- Whether a broadcast acts on a die at the present clock. -/
def dueOn (s : Device) (d : Nat) (b : Bcast) : Bool := bcastDue s b && b.dies.contains d

/-- What the broadcasts due on a die do to it. -/
def actAll (d : Nat) (l : List Bcast) (s : Device) : Device := l.foldl (fun t b => bcastAct b d t) s

/-- The broadcasts once a die has taken those that are due on it. -/
def leftAfter (d : Nat) (s : Device) : List Bcast :=
  s.bcast.map fun b => if dueOn s d b then { b with dies := b.dies.filter fun e => e != d } else b

theorem bcastFirst_eq (d : Nat) :
    bcastFirst d s = if s.bcast.filter (dueOn s d) = [] then s
      else actAll d (s.bcast.filter (dueOn s d)) (s.setBcast (leftAfter d s)) :=
  rfl

theorem actAll_aside (x : RegFile) (m : List Bcast) (d : Nat) (l : List Bcast) :
    actAll d l (aside x m s) = aside x m (actAll d l s) := by
  induction l generalizing s with
  | nil => rfl
  | cons b l ih => exact (congrArg (actAll d l) (bcastAct_aside s b d)).trans (ih (bcastAct b d s))

theorem standing_actAll (d : Nat) (l : List Bcast) : standing (actAll d l s) = standing s := by
  induction l generalizing s with
  | nil => rfl
  | cons b l ih => exact (ih (bcastAct b d s)).trans (standing_bcastAct s b d)

theorem standing_bcastFirst (d : Nat) : standing (bcastFirst d s) = standing s := by
  rw [bcastFirst_eq]
  split_ifs
  · rfl
  · rw [standing_actAll, standing_setBcast]

/-- The shadow file plays no part in a broadcast. -/
theorem bcastFirst_shadow (d : Nat) (x : RegFile) : bcastFirst d { s with shadow := x } = { bcastFirst d s with shadow := x } := by
  rw [bcastFirst_eq, bcastFirst_eq]
  show (if s.bcast.filter (dueOn s d) = [] then _ else actAll d (s.bcast.filter (dueOn s d)) (aside x (leftAfter d s) s)) = _
  split_ifs
  · rfl
  · show _ = ({ actAll d _ (aside s.shadow (leftAfter d s) s) with shadow := x } : Device)
    rw [actAll_aside, actAll_aside]
    rfl

theorem shadow_bcastFirst (d : Nat) : (bcastFirst d s).shadow = s.shadow := by
  have h := congrArg Device.shadow (bcastFirst_shadow s d s.shadow)
  exact h

/-- A broadcast acts once. -/
theorem quiet_bcastFirst (d : Nat) : Quiet (bcastFirst d s) d := by
  have hnow : (bcastFirst d s).frame = s.frame ∧ (bcastFirst d s).clk = s.clk := atClock_bcastFirst d ⟨rfl, rfl⟩
  intro b hb hdue
  have hdue' : bcastDue s b = true := by rwa [bcastDue, hnow.1, hnow.2] at hdue
  rw [bcastFirst_eq] at hb
  split_ifs at hb with hnone
  · intro hd
    have := List.filter_eq_nil_iff.mp hnone b hb
    simp [dueOn, hdue', hd] at this
  · rw [show s.setBcast (leftAfter d s) = aside s.shadow (leftAfter d s) s from rfl, actAll_aside] at hb
    obtain ⟨c, -, rfl⟩ := List.mem_map.mp (show b ∈ leftAfter d s from hb)
    split_ifs at hdue' ⊢ with hc
    · simp
    · intro hd
      exact hc (by simp [dueOn, hdue', hd])

end

section
variable {a : Nat} (w : Word) (s : Device)

theorem and_not_zero (v : Word) : v &&& ~~~0 = v := BitVec.and_allOnes

theorem reg_clearFlags (a : Nat) :
    (clearFlags a w s).reg a = s.reg a &&& ~~~(w &&& w1cMask a &&& ~~~ s.freshBits a) := by
  unfold clearFlags
  dsimp only
  split_ifs with h
  · rw [h, and_not_zero]
  · simp

theorem regsOnly_refl (rs : Nat → Prop) : RegsOnly rs s s := ⟨rfl, fun _ _ => rfl⟩

theorem regsOnly_trans {rs : Nat → Prop} {s t u : Device} (hst : RegsOnly rs s t) (htu : RegsOnly rs t u) : RegsOnly rs s u := by
  refine ⟨?_, fun a ha => (htu.2 a ha).trans (hst.2 a ha)⟩
  conv_lhs => rw [htu.1, hst.1]

theorem regsOnly_clearFlags (a : Nat) : RegsOnly (· = a) s (clearFlags a w s) := by
  unfold clearFlags
  dsimp only
  split_ifs
  · exact regsOnly_refl s _
  · exact regsOnly_setReg s a _

/-- What a word that only holds its value keeps of a write that does not break its relation (R8). -/
def storedWord (a : Nat) (w : Word) (s : Device) : Word := wordStored a (merge (rwMask a) (s.reg a) w)

theorem storeWord_of_no_effect (h : hasEffect a = false) : storeWord a w s =
    if rwMask a = 0 ∨ writeIgnored a (storedWord a w s) s = true then s else s.setReg a (storedWord a w s) := by
  unfold storeWord storeFields
  by_cases hmask : rwMask a = 0
  · rw [if_pos hmask, if_pos (.inl hmask)]
  · simp only [hmask, false_or, if_false, afterStore_of_no_effect _ h, storedWord]

/-- The relations of the words that only hold their value are those of the written word alone, or of a word without flags. -/
theorem writeIgnored_clearFlags (h : hasEffect a = false) (v : Word) :
    writeIgnored a v (clearFlags a w s) = writeIgnored a v s := by
  unfold writeIgnored
  split
  case h_1 i off hl =>
    simp only [hasEffect, effectAt, hl, decide_eq_false_iff_not, not_or] at h
    obtain ⟨hlist, -⟩ := h
    obtain ⟨rfl, -⟩ := locate_eq_pkg hl
    split
    case h_3 | h_4 => exact absurd (by decide) hlist
    case h_7 =>
      have hflags : w1cMask 0x5D = 0#32 := by decide
      simp [clearFlags, hflags]
    all_goals rfl
  all_goals rfl

/-! A word on its way to its die. -/

/-- The device once a word for another die shows in the shadow file (R27). -/
def shown (a : Nat) (w : Word) (s : Device) : Device := if 0 < ownerOf a then shadowPost a w s else s

theorem shown_eq (a : Nat) : shown a w s = { s with shadow := (shown a w s).shadow } := by
  unfold shown
  split_ifs <;> rfl

theorem shd_shown_self (h : ownerOf a ≠ 0) : shd (shown a w s) a = merge (rwMask a) (shd s a) w := by
  rw [shown, if_pos (Nat.pos_of_ne_zero h)]
  exact rfGet_set_self _ _ _

theorem shd_shown_other {b : Nat} (hb : b ≠ a) : shd (shown a w s) b = shd s b := by
  unfold shown
  split_ifs
  · exact rfGet_set_other hb _ _
  · rfl

/-- A word whose register takes nothing shows nothing new. -/
theorem shown_of_no_mask (hs : rfWf s.shadow = true) (hmask : rwMask a = 0) : shown a w s = s := by
  have hmerge : merge 0 (shd s a) w = shd s a := by rw [merge, and_not_zero]; simp
  unfold shown
  split_ifs
  · rw [shadowPost, hmask, hmerge]
    show { s with shadow := rfSet s.shadow a (rfGet s.shadow a) } = s
    rw [rfSet_rfGet hs]
  · rfl

variable {s}

theorem registerWrite_of_lead_down (h0 : (s.die 0).up = false) (a : Nat) : registerWrite a w s = s := by
  simp [registerWrite, h0]

theorem registerWrite_of_recovering (h0 : (s.die 0).up = true) (hrec : (s.die (ownerOf a)).recov.active = true) :
    registerWrite a w s = (writeOne a w s).1 := by
  simp [registerWrite, h0, hrec]

theorem registerWrite_of_lead_up (h0 : (s.die 0).up = true) (hrec : (s.die (ownerOf a)).recov.active = false) :
    registerWrite a w s = frameEndWord a w (deliver a w (valveReqOf a w
      (if decide (0 < ownerOf a ∧ ownerOf a < s.nDies) && !writeBarred a s then shadowPost a w s else s))) := by
  simp [registerWrite, h0, hrec]

/-- A word bars a die in husk as it did before a broadcast acted on one. -/
theorem writeBarred_bcastFirst (a d : Nat) : writeBarred a (bcastFirst d s) = writeBarred a s := by
  have hhusk : ((bcastFirst d s).die (ownerOf a)).husk = (s.die (ownerOf a)).husk :=
    congrArg (fun st => (st (ownerOf a)).2.1) (standing_bcastFirst s d)
  have hpkg : pkgState (bcastFirst d s) = pkgState s := inState_bcastFirst d rfl
  simp only [writeBarred, hhusk, hpkg]

theorem shown_bcastFirst (a : Nat) (s : Device) (d : Nat) : bcastFirst d (shown a w s) = shown a w (bcastFirst d s) := by
  unfold shown
  split_ifs
  · simp only [shadowPost, setShd, shd, shadow_bcastFirst]
    exact bcastFirst_shadow s d _
  · rfl

/-- A word on its way to a die of the package: what is due on the die acts first; then the die takes the word, which shows in
the shadow file, or, in husk, discards it (R23, R27, R417). -/
theorem registerWrite_of_present (h0 : (s.die 0).up = true) (hup : (s.die (ownerOf a)).up = true) (ho : ownerOf a < s.nDies)
    (hrec : (s.die (ownerOf a)).recov.active = false) (hreq : ¬ ReqWord a) : registerWrite a w s = frameEndWord a w
      (if writeBarred a s then (bcastFirst (ownerOf a) s).pset HOST_STAT_HUSK_EVT 1
        else writeWord a w (shown a w (bcastFirst (ownerOf a) s))) := by
  rw [registerWrite_of_lead_up w h0 hrec]
  cases hbar : writeBarred a s
  · have hshown : (if decide (0 < ownerOf a ∧ ownerOf a < s.nDies) && !false then shadowPost a w s else s) = shown a w s := by
      simp [shown, ho]
    have hbar' : writeBarred a (shown a w (bcastFirst (ownerOf a) s)) = false := by
      rw [shown_eq]
      exact (writeBarred_bcastFirst a _).trans hbar
    have hn : (shown a w s).nDies = s.nDies := by rw [shown_eq]
    have hup' : ((shown a w s).die (ownerOf a)).up = true := by rw [shown_eq]; exact hup
    rw [hshown, valveReqOf_of_not_reqWord w _ hreq]
    simp [deliver, hn, ho, hup', shown_bcastFirst, hbar']
  · simp [ho, hup, valveReqOf_of_not_reqWord w _ hreq, deliver, writeBarred_bcastFirst, hbar]

/-- A broadcast that is due acts before the word: with it done, the word does the same (R23). -/
theorem registerWrite_bcastFirst {n : Nat} (hs : s.Canonical n) (h0 : (s.die 0).up = true)
    (hup : (s.die (ownerOf a)).up = true) (ho : ownerOf a < s.nDies) (hrec : (s.die (ownerOf a)).recov.active = false)
    (hreq : ¬ ReqWord a) : registerWrite a w (bcastFirst (ownerOf a) s) = registerWrite a w s := by
  have hst (e : Nat) := congrFun (standing_bcastFirst s (ownerOf a)) e
  simp only [standing, Prod.mk.injEq] at hst
  have hn : (bcastFirst (ownerOf a) s).nDies = s.nDies := (canonical_bcastFirst _ hs).size.trans hs.size.symm
  rw [registerWrite_of_present w ((hst 0).1.trans h0) ((hst _).1.trans hup) (hn.symm ▸ ho) (by rw [(hst _).2.2]; exact hrec) hreq,
    registerWrite_of_present w h0 hup ho hrec hreq, writeBarred_bcastFirst, bcastFirst_of_quiet _ (quiet_bcastFirst s _)]

theorem registerWrite_of_taken (h0 : (s.die 0).up = true) (hup : (s.die (ownerOf a)).up = true) (ho : ownerOf a < s.nDies)
    (hrec : (s.die (ownerOf a)).recov.active = false) (hquiet : Quiet s (ownerOf a)) (hbar : writeBarred a s = false)
    (hreq : ¬ ReqWord a) : registerWrite a w s = frameEndWord a w (writeWord a w (shown a w s)) := by
  simp [registerWrite_of_present w h0 hup ho hrec hreq, hbar, bcastFirst_of_quiet _ hquiet]

theorem registerWrite_of_barred (h0 : (s.die 0).up = true) (hup : (s.die (ownerOf a)).up = true) (ho : ownerOf a < s.nDies)
    (hrec : (s.die (ownerOf a)).recov.active = false) (hquiet : Quiet s (ownerOf a)) (hbar : writeBarred a s = true)
    (hreq : ¬ ReqWord a) : registerWrite a w s = frameEndWord a w (s.pset HOST_STAT_HUSK_EVT 1) := by
  simp [registerWrite_of_present w h0 hup ho hrec hreq, hbar, bcastFirst_of_quiet _ hquiet]

theorem registerWrite_of_absent (h0 : (s.die 0).up = true) (ho : ¬ ownerOf a < s.nDies)
    (hrec : (s.die (ownerOf a)).recov.active = false) : registerWrite a w s = frameEndWord a w s := by
  have hval : valveReqOf a w s = s := by
    unfold valveReqOf
    split
    · rename_i d off hl
      have hd : ¬ d < s.nDies := by simpa [ownerOf, hl] using ho
      simp [hd]
    · rfl
  simp [registerWrite_of_lead_up w h0 hrec, ho, hval, deliver]

/-! What a taken word leaves. -/

/-- A word once its flags are cleared that a write names, but for those that the present clock has set (R8). -/
def clearedWord (a : Nat) (w : Word) (s : Device) : Word := s.reg a &&& ~~~(w &&& w1cMask a &&& ~~~ s.freshBits a)

/-- What a word reads once it has taken its fields, or none of them where the row refuses them (R8). -/
def writtenWord (a : Nat) (w : Word) (s : Device) : Word :=
  let v := wordStored a (merge (rwMask a) (clearedWord a w s) w)
  if rwMask a = 0 ∨ writeIgnored a v s = true then clearedWord a w s else v

/-- What the write of a word leaves that only holds its value: its flags and fields as R8 says, all else as it was, and another
die's word in the shadow file (R27). -/
def HoldsWritten (a : Nat) (w : Word) (s t : Device) : Prop :=
  t.reg a = writtenWord a w s ∧ RegsOnly (· = a) { s with shadow := t.shadow } t ∧ (ownerOf a = 0 → t.shadow = s.shadow) ∧
    (ownerOf a ≠ 0 → shd t a = merge (rwMask a) (shd s a) w ∧ ∀ b, b ≠ a → shd t b = shd s b)

/-- The store of a word after its flags are cleared. -/
theorem storeWord_clearFlags (h : hasEffect a = false) (s : Device) : storeWord a w (clearFlags a w s) =
    if rwMask a = 0 ∨ writeIgnored a (wordStored a (merge (rwMask a) (clearedWord a w s) w)) s = true then clearFlags a w s
      else (clearFlags a w s).setReg a (wordStored a (merge (rwMask a) (clearedWord a w s) w)) := by
  rw [storeWord_of_no_effect w _ h, writeIgnored_clearFlags w _ h, storedWord, reg_clearFlags]
  rfl

theorem reg_storeWord_clearFlags (h : hasEffect a = false) (s : Device) :
    (storeWord a w (clearFlags a w s)).reg a = writtenWord a w s := by
  rw [storeWord_clearFlags w h, apply_ite (Device.reg · a), reg_clearFlags, Device.reg_setReg_self]
  rfl

theorem regsOnly_storeWord_clearFlags (h : hasEffect a = false) (s : Device) :
    RegsOnly (· = a) s (storeWord a w (clearFlags a w s)) := by
  rw [storeWord_clearFlags w h]
  split_ifs
  · exact regsOnly_clearFlags w s a
  · exact regsOnly_trans (regsOnly_clearFlags w s a) (regsOnly_setReg _ a _)

theorem holdsWritten_storeWord (h : hasEffect a = false) :
    HoldsWritten a w s (storeWord a w (clearFlags a w (shown a w s))) := by
  have hheld : writtenWord a w (shown a w s) = writtenWord a w s := by rw [shown_eq]; rfl
  have hregs := regsOnly_storeWord_clearFlags w h (shown a w s)
  have hshadow : (storeWord a w (clearFlags a w (shown a w s))).shadow = (shown a w s).shadow := by rw [hregs.1]
  refine ⟨(reg_storeWord_clearFlags w h _).trans hheld, ?_, fun ho => ?_, fun ho => ?_⟩
  · rw [hshadow, ← shown_eq]
    exact hregs
  · rw [hshadow, shown, if_neg (by omega)]
  · simp only [shd, hshadow]
    exact ⟨shd_shown_self w s ho, fun b hb => shd_shown_other w s hb⟩

theorem registerWrite_holdsWritten (h0 : (s.die 0).up = true) (hup : (s.die (ownerOf a)).up = true) (ho : ownerOf a < s.nDies)
    (hrec : (s.die (ownerOf a)).recov.active = false) (hquiet : Quiet s (ownerOf a)) (hbar : writeBarred a s = false)
    (hplain : hasEffect a = false) : HoldsWritten a w s (registerWrite a w s) := by
  rw [registerWrite_of_taken w h0 hup ho hrec hquiet hbar (not_reqWord_of_no_effect hplain),
    frameEndWord_of_no_effect w _ hplain, writeWord_of_no_effect w _ hplain]
  exact holdsWritten_storeWord w hplain

end

section
variable {a : Nat} (w : Word) {s : Device}

theorem frameEndWord_of_ne (h8 : a ≠ 8) (hA6 : a ≠ 0xA6) (s : Device) : frameEndWord a w s = s := by
  rw [frameEndWord, if_neg h8, if_neg hA6]

/-! Addresses without a register (R449). -/

theorem writeWord_of_no_row (hrow : rowAt a = none) (hlow : a < 0x8000) (s : Device) : writeWord a w s = s := by
  have hrw : rwMask a = 0 := by simp [rwMask, hrow]
  have hw1c : w1cMask a = 0 := by simp [w1cMask, hrow]
  have hclear : clearFlags a w s = s := by simp [clearFlags, hw1c]
  cases hl : locate a with
  | none => rw [writeWord, hl]; exact if_neg (by omega)
  | some p =>
    have hplain := no_effect_of_no_row hrow (by simp [hl])
    rw [writeWord_of_no_effect w s hplain, hclear, storeWord_of_no_effect w s hplain, if_pos (.inl hrw)]

theorem not_reqWord_of_no_row (hrow : rowAt a = none) : ¬ ReqWord a := by
  intro hreq
  refine not_reqWord_of_no_effect (no_effect_of_no_row hrow ?_) hreq
  simp [locate_of_reqWord hreq]

theorem registerWrite_of_no_row (hs : rfWf s.shadow = true) (hrow : rowAt a = none) (hlow : a < 0x8000)
    (hquiet : Quiet s (ownerOf a)) (hbar : writeBarred a s = false) (hrec : (s.die (ownerOf a)).recov.active = false)
    (hup : (s.die (ownerOf a)).up = true) : registerWrite a w s = s := by
  have h8 : a ≠ 8 := by rintro rfl; exact absurd hrow (by decide)
  have hA6 : a ≠ 0xA6 := by rintro rfl; exact absurd hrow (by decide)
  by_cases h0 : (s.die 0).up = true
  · by_cases ho : ownerOf a < s.nDies
    · rw [registerWrite_of_taken w h0 hup ho hrec hquiet hbar (not_reqWord_of_no_row hrow), frameEndWord_of_ne w h8 hA6,
        shown_of_no_mask w s hs (by simp [rwMask, hrow]), writeWord_of_no_row w hrow hlow]
    · rw [registerWrite_of_absent w h0 ho hrec, frameEndWord_of_ne w h8 hA6]
  · exact registerWrite_of_lead_down w (by simpa using h0) a

/-! Words for a die that takes none. -/

theorem registerWrite_of_no_die (hn : 0 < s.nDies) (ho : ¬ ownerOf a < s.nDies)
    (hrec : (s.die (ownerOf a)).recov.active = false) : registerWrite a w s = s := by
  by_cases h0 : (s.die 0).up = true
  · have hne (b : Nat) (hb : ownerOf b = 0) : a ≠ b := by rintro rfl; exact ho (hb ▸ hn)
    rw [registerWrite_of_absent w h0 ho hrec, frameEndWord_of_ne w (hne 8 (by decide)) (hne 0xA6 (by decide))]
  · exact registerWrite_of_lead_down w (by simpa using h0) a

theorem dieBlock_of_located (hlo : 0x1000 ≤ a) (hl : (locate a).isSome = true) : dieBlock a = true := by
  unfold dieBlock
  split
  · rfl
  · rfl
  · rename_i hdie hch
    obtain ⟨⟨b, i, off⟩, hloc⟩ := Option.isSome_iff_exists.mp hl
    cases b with
    | pkg => exact absurd (locate_eq_pkg hloc).2 (by omega)
    | die => exact absurd hloc (hdie i off)
    | ch => exact absurd hloc (hch i off)

/-- A word for a die in husk sets HUSK_EVT alone (R417). -/
theorem registerWrite_of_husk (h0 : (s.die 0).up = true) (hlo : 0x2000 ≤ a) (hl : (locate a).isSome = true)
    (ho : ownerOf a < s.nDies) (hquiet : Quiet s (ownerOf a)) (hreq : ¬ ReqWord a) (hup : (s.die (ownerOf a)).up = true)
    (hhusk : (s.die (ownerOf a)).husk = true) (hrec : (s.die (ownerOf a)).recov.active = false) :
    registerWrite a w s = s.setReg 9 (HOST_STAT_HUSK_EVT.put 1 (s.reg 9)) := by
  have hbar : writeBarred a s = true := by simp [writeBarred, dieBlock_of_located (by omega) hl, hhusk]
  rw [registerWrite_of_barred w h0 hup ho hrec hquiet hbar hreq, frameEndWord_of_ne w (by omega) (by omega)]
  rfl

/-- A word for a recovering die is posted (R23). -/
theorem registerWrite_posts (h0 : (s.die 0).up = true) (hlow : a < 0x8000) (hpos : 0 < ownerOf a) (ho : ownerOf a < s.nDies)
    (hreq : ¬ ReqWord a) (hrec : (s.die (ownerOf a)).recov.active = true) (hpkg : Pkg.load < pkgState s)
    (hroom : s.host.posting.length < 16) :
    registerWrite a w s = shadowPost a w (s.modHost fun h => { h with posting := h.posting ++ [(a, w)] }) := by
  rw [registerWrite_of_recovering w h0 hrec, ← valveReqOf_of_not_reqWord w (shadowPost a w _) hreq]
  simp [writeOne, postable, hpos, ho, Nat.not_le.mpr hlow, Nat.not_le.mpr hpkg, hroom, postWord]

/-! Words of the package block that only hold their value (R423, R453). -/

theorem clearedWord_of_no_flags (h : w1cMask a = 0) (s : Device) : clearedWord a w s = s.reg a := by
  have hnone : w &&& 0 &&& ~~~ s.freshBits a = 0 := by simp
  rw [clearedWord, h, hnone, and_not_zero]

theorem writtenWord_irqMask (s : Device) : writtenWord 5 w s = w &&& 0xDFF#32 := by
  have hrw : rwMask 5 = BitVec.allOnes 32 := by decide
  have hmask : ¬ (BitVec.allOnes 32 = 0 ∨ false = true) := by decide
  have hstored (v : Word) : wordStored 5 v = v &&& 0xDFF#32 := rfl
  have hignored (v : Word) : writeIgnored 5 v s = false := rfl
  have hmerge (v : Word) : merge (BitVec.allOnes 32) v w = w := by
    simp only [merge, BitVec.and_allOnes, BitVec.not_allOnes, BitVec.and_zero, BitVec.zero_or]
  simp only [writtenWord, hrw, hstored, hignored, hmerge, if_neg hmask]

theorem writtenWord_irqStatus (s : Device) : writtenWord 4 w s = s.reg 4 &&& ~~~(w &&& 0xFFF#32 &&& ~~~ s.freshBits 4) := by
  have hrw : rwMask 4 = 0 := by decide
  have hw1c : w1cMask 4 = 0xFFF#32 := by decide
  simp [writtenWord, clearedWord, hrw, hw1c]

theorem writtenWord_bulkSel (s : Device) : writtenWord 3 w s = (s.reg 3 &&& ~~~0x77#32) ||| (w &&& 0x77#32) := by
  have hrw : rwMask 3 = 0x77#32 := by decide
  have hstored (v : Word) : wordStored 3 v = v := rfl
  have hignored (v : Word) : writeIgnored 3 v s = false := rfl
  simp [writtenWord, clearedWord_of_no_flags w (show w1cMask 3 = 0 by decide), merge, hrw, hstored, hignored]

/-- A word of the lead die that only holds its value changes nothing else. -/
theorem registerWrite_wordOnly (h0 : (s.die 0).up = true) (hquiet : Quiet s 0) (hrec : (s.die 0).recov.active = false)
    (hn : 0 < s.nDies) (ho : ownerOf a = 0) (hblock : dieBlock a = false) (hplain : hasEffect a = false) :
    WordOnly a (writtenWord a w s) s (registerWrite a w s) := by
  have hbar : writeBarred a s = false := by simp [writeBarred, hblock]
  rw [← ho] at hquiet hrec hn
  obtain ⟨hreg, hregs, hshadow, -⟩ := registerWrite_holdsWritten w h0 (by rw [ho]; exact h0) hn hrec hquiet hbar hplain
  rw [hshadow ho] at hregs
  exact ⟨hregs, hreg⟩

end

/-- Settles O12: a word on its way to its die is `registerWrite_of_present`, so each clause turns on what its address is (a
register, a word with an effect of its own) and on how its die stands. -/
theorem registerWritesObeyTheirDie : Obligations.RegisterWritesObeyTheirDie := by
  intro s a w hs o x own
  have hn : 0 < s.dev.nDies := by have := hs.size; omega
  refine ⟨fun hrow hlow hquiet hbar hrec hup => ?_, fun ho hrec => ?_, fun h0 => ⟨?_, ?_⟩,
    fun h0 hlo _ hl ho hquiet hreq hup hhusk hrec => ?_, fun h0 hlow hpos ho hreq hrec hpkg hroom => ?_,
    fun h0 hup ho hquiet hbar hrec _ hown => ?_, fun h0 hquiet hrec => ⟨?_, ?_, ?_⟩, fun h0 hup ho hreq hrec => ?_⟩
  · exact does_dev rfl (registerWrite_of_no_row w hs.canonical.shadow hrow hlow hquiet hbar hrec hup)
  · exact does_dev rfl (registerWrite_of_no_die w hn ho hrec)
  · exact does_dev rfl (registerWrite_of_lead_down w h0 a.toNat)
  · exact does_dev rfl (registerWrite_of_lead_down w h0 3)
  · refine does_dev rfl ?_
    rw [registerWrite_of_husk w h0 hlo hl ho hquiet hreq hup hhusk hrec]
    exact wordOnly_setReg _ _ _
  · refine does_dev rfl ?_
    rw [registerWrite_posts w h0 hlow hpos ho hreq hrec hpkg hroom]
    rfl
  · have hplain : hasEffect a.toNat = false := by
      rw [← hown]
      simp only [hasEffect, own]
      rcases locate a.toNat with _ | ⟨_ | _ | _, i, off⟩ <;> rfl
    exact does_dev rfl (registerWrite_holdsWritten w h0 hup ho hrec hquiet hbar hplain)
  · rw [← writtenWord_irqMask w s.dev]
    exact does_dev rfl (registerWrite_wordOnly w h0 hquiet hrec hn (by decide) (by decide) (by decide))
  · rw [← writtenWord_irqStatus]
    exact does_dev rfl (registerWrite_wordOnly w h0 hquiet hrec hn (by decide) (by decide) (by decide))
  · rw [← writtenWord_bulkSel]
    exact does_dev rfl (registerWrite_wordOnly w h0 hquiet hrec hn (by decide) (by decide) (by decide))
  · exact congrArg (fun t => Host.Outcome.next { s with dev := t })
      (registerWrite_bcastFirst w hs.canonical h0 hup ho hrec hreq).symm

end Sys2Proof.Machine
end

section
/-! Proofs of the family of the scope: the frame boundary that ends a ship sequence (O33). -/

namespace Sys2Proof.Machine

/-- What a completed command of the device left is what its operation leaves. -/
theorem of_does_dev {c : Instr} {s : State} {P : Device → Prop} {f : Device → Device} (h : Does c s P)
    (e : exec c s = onDev s f) : P (f s.dev) := by
  obtain ⟨t, ht, hp⟩ := h
  rw [e] at ht
  obtain rfl : f s.dev = t := congrArg State.dev (Host.Outcome.next.inj ht)
  exact hp

/-! The frame boundary that ends a ship sequence (R147, R155, R156, R314). -/

/-- A part of two dies in RUN at the last boundary of its ship sequence (R314): the rails are off, WINNOW_HYST of channel 0 is
0 in its word and in force, and a clear of that channel is due. -/
def clearAtShipDown : State :=
  let part : Device := { Device.reset with
    nDies := 2, dies := Device.reset.dies.map fun x => { x with up := true, husk := false, ctl := true, seeded := true } }
  let off : Nat := chAddr 0 WINNOW_HYST.off
  let held := ((part.pset PKG_STATE_STATE Pkg.run).setReg off 0#32).setFrc off 0#32
  ⟨(held.modDue 0 fun x => { x with clear := true }).modSup fun u => { u with ship := 2 }, []⟩

theorem clearAtShipDown_sound : Sound clearAtShipDown :=
  ⟨⟨by decide +kernel, by decide +kernel, by decide +kernel, ⟨by decide +kernel, by decide +kernel⟩,
    ⟨by decide +kernel, by decide +kernel⟩, rfl, by decide +kernel, by decide +kernel, by decide +kernel, by decide +kernel⟩,
    .inl rfl⟩

/-- The boundary clears the channel (R155), then stops its die, which books the empty partial frame (R156): with WINNOW_HYST 0
that frame is strong, and a frame without counts is booked to IN (R134, R135). -/
theorem clearAtShipDown_dir : ((frameBoundary clearAtShipDown.dev).ch 0).acc.dir = .inn := by decide +kernel

/-- Refutes O33: at the boundary that ends a ship sequence a cleared channel's DIR is not NONE where WINNOW_HYST is 0, because
the stop of the main domains books an empty frame after the clear. -/
theorem not_boundariesBookEveryFrame : ¬ Obligations.BoundariesBookEveryFrame := by
  intro h
  obtain ⟨-, -, -, hchans⟩ := of_does_dev (h.1 clearAtShipDown clearAtShipDown_sound) rfl
  obtain ⟨-, hcounts, -⟩ := hchans 0 (by decide +kernel)
  obtain ⟨-, -, -, -, hclear⟩ := hcounts (by decide +kernel) (by decide +kernel)
  obtain ⟨-, -, -, -, -, hdir, -⟩ := hclear (by decide +kernel)
  exact absurd (clearAtShipDown_dir.symm.trans hdir) (by decide)

end Sys2Proof.Machine
end

section
/-! Proofs of the family of the architecture: what a die that goes to husk does to the channels of the other dies (O22, O23). -/

namespace Sys2Proof.Machine

/-! A die that goes to husk refuses the re-seat requests of its valves (R246, R280). -/

/-- A part of two dies. Channel 0 re-seats its cell and its release of valve 4, a valve of die 1, waits for the volley
scheduler (R246, R282); die 1 is at clock 2,560 of its frame, and it reports index 2 in its training. -/
def reseatAcrossDies : State :=
  let husking (x : DieSt) : DieSt := { x with clk := 2560, index := 2 }
  let part : Device := { Device.reset with
    nDies := 2, vreqs := [⟨4, false, 0, 0, false, false, some 0, 0⟩] }
  let reseating := (part.cset 0 CH_STAT_ENGINE EngSt.reseat).modEng 0 fun e => { e with seat := .wantRelease }
  ⟨reseating.modDie 1 husking, []⟩

theorem reseatAcrossDies_sound : Sound reseatAcrossDies :=
  ⟨⟨by decide +kernel, by decide +kernel, by decide +kernel, ⟨by decide +kernel, by decide +kernel⟩,
    ⟨by decide +kernel, by decide +kernel⟩, rfl, by decide +kernel, by decide +kernel, by decide +kernel, by decide +kernel⟩,
    .inl rfl⟩

theorem reseatAcrossDies_seat : (reseatAcrossDies.dev.ch 0).eng.seat = .wantRelease := by decide +kernel

/-- The index fault of die 1 ends the re-seat of channel 0 on die 0. -/
theorem trainingDone_reseatAcrossDies_seat : ((trainingDone 1 reseatAcrossDies.dev).ch 0).eng.seat = .none := by
  decide +kernel

/-- The stall of die 1 ends the re-seat of channel 0 on die 0. -/
theorem dieStall_reseatAcrossDies_seat : ((dieStall 1 reseatAcrossDies.dev).ch 0).eng.seat = .none := by decide +kernel

theorem ch_ne_of_reseat_ended {t : Device} (h : (t.ch 0).eng.seat = .none) : t.ch 0 ≠ reseatAcrossDies.dev.ch 0 := by
  intro hsame
  rw [hsame, reseatAcrossDies_seat] at h
  exact absurd h (by decide)

theorem exec_portTrainingDone (d : Die) (s : State) :
    exec (.portTrainingDone d) s = onDie d.val s (trainingDone d.val) := rfl

theorem exec_dieWatchdogStall (d : Die) (s : State) :
    exec (.dieWatchdogStall d) s = onDie d.val s (dieStall d.val) := rfl

/-- What a completed command of a present die left is what its operation leaves. -/
theorem of_does_die {c : Instr} {s : State} {P : Device → Prop} {f : Device → Device} {d : Nat} (h : Does c s P)
    (e : exec c s = onDie d s f) (hd : d < s.dev.nDies) : P (f s.dev) := by
  obtain ⟨t, ht, hp⟩ := h
  rw [e, onDie, if_pos hd] at ht
  obtain rfl : f s.dev = t := congrArg State.dev (Host.Outcome.next.inj ht)
  exact hp

/-- Refutes O22: a die held in husk for its index refuses the requests of its valves, and the re-seat of a channel of another
die that waits for one of them ends (R246), so that a channel of another die does change. -/
theorem not_trainingChecksTheIndex : ¬ Obligations.TrainingChecksTheIndex := by
  intro h
  obtain ⟨-, hbad, -⟩ := h.1 reseatAcrossDies ⟨1, by decide⟩ reseatAcrossDies_sound (by decide +kernel) (by decide)
    (by decide +kernel) (by decide +kernel) (by decide +kernel) (by decide +kernel) (by decide +kernel)
  obtain ⟨-, -, -, -, hchans, -⟩ := of_does_die (hbad (by decide +kernel) (by decide +kernel) (by decide +kernel))
    (exec_portTrainingDone _ _) (by decide +kernel)
  exact ch_ne_of_reseat_ended trainingDone_reseatAcrossDies_seat (hchans 0 (by decide))

/-- Refutes O23: a die that stalls refuses the requests of its valves, and the re-seat of a channel of another die that waits for
one of them ends (R246), so that a channel of another die does change. -/
theorem not_silenceIsDeclaredAndHeldOver : ¬ Obligations.SilenceIsDeclaredAndHeldOver := by
  intro h
  obtain ⟨hstall, -⟩ := h.2 reseatAcrossDies ⟨1, by decide⟩ reseatAcrossDies_sound (by decide +kernel)
  obtain ⟨-, -, -, -, -, -, -, -, -, hchans, -⟩ :=
    of_does_die (hstall (by decide +kernel) (by decide +kernel)) (exec_dieWatchdogStall _ _) (by decide +kernel)
  exact ch_ne_of_reseat_ended dieStall_reseatAcrossDies_seat (hchans 0 (by decide))

end Sys2Proof.Machine
end

section
/-! Proofs of the family of the architecture: the cells that carry nothing (O19). -/

namespace Sys2Proof.Machine

/-! Dies and their maps. -/

section
variable {s : Device}

theorem modDie_modDie (d : Nat) (f g : DieSt → DieSt) : (s.modDie d f).modDie d g = s.modDie d fun x => g (f x) :=
  congrArg (fun l => { s with dies := l }) (List.modify_modify_eq f g d s.dies)

/-- A part of a die that no change of a die touches reads as before at every die. -/
theorem proj_die_modDie {α : Type} (p : DieSt → α) {f : DieSt → DieSt} (hf : ∀ x, p (f x) = p x) (d e : Nat) :
    p ((s.modDie d f).die e) = p (s.die e) := by
  unfold Device.die Device.modDie
  rw [List.getElem?_modify]
  split
  · cases s.dies[e]? <;> simp [hf]
  · cases s.dies[e]? <;> simp

/-- A sum of powers of two over the numbers below n that pass a test: below 2^n, and bit d tells whether d passes. -/
theorem testBit_powers (p : Nat → Bool) (n d : Nat) :
    let m := (List.range n).foldl (fun m d => m + (if p d then 2 ^ d else 0)) 0
    m < 2 ^ n ∧ m.testBit d = (decide (d < n) && p d) := by
  induction n with
  | zero => simp
  | succ n ih =>
    obtain ⟨hlt, hbit⟩ := ih
    simp only [List.range_succ, List.foldl_append, List.foldl_cons, List.foldl_nil]
    generalize (List.range n).foldl _ 0 = m at hlt hbit
    cases hp : p n with
    | false =>
      refine ⟨by simp only [Bool.false_eq_true, if_false]; rw [Nat.pow_succ]; omega, ?_⟩
      simp only [Bool.false_eq_true, if_false, Nat.add_zero, hbit]
      rcases Nat.lt_trichotomy d n with h | rfl | h
      · simp [h, Nat.lt_succ_of_lt h]
      · simp [hp]
      · simp [show ¬ d < n by omega, show ¬ d < n + 1 by omega]
    | true =>
      refine ⟨by simp only [if_true]; rw [Nat.pow_succ]; omega, ?_⟩
      simp only [if_true]
      rw [Nat.add_comm m]
      rcases Nat.lt_trichotomy d n with h | rfl | h
      · rw [Nat.testBit_two_pow_add_gt h, hbit]
        simp [h, Nat.lt_succ_of_lt h]
      · rw [Nat.testBit_two_pow_add_eq, Nat.testBit_lt_two_pow hlt]
        simp [hp]
      · rw [Nat.testBit_lt_two_pow]
        · simp [show ¬ d < n + 1 by omega]
        · calc 2 ^ n + m < 2 ^ n + 2 ^ n := by omega
            _ = 2 ^ (n + 1) := by rw [Nat.pow_succ]; omega
            _ ≤ 2 ^ d := Nat.pow_le_pow_right (by decide) h

theorem testBit_dieMap (s : Device) (p : DieSt → Bool) (d : Nat) :
    (dieMap s p).testBit d = (decide (d < s.nDies) && p (s.die d)) := (testBit_powers (fun d => p (s.die d)) s.nDies d).2

theorem Sound.dies_le {s : State} (hs : Sound s) : s.dev.nDies ≤ 8 := by
  rcases hs.size with h | h | h <;> omega

/-! The commands of a port, as the dispatch carries them out. -/

theorem exec_cellIdle (d : Die) (s : State) : exec (.cellIdle d) s = onDie d.val s (cellIdle d.val) := rfl
theorem exec_cellTrain (d : Die) (i : BitVec 3) (s : State) : exec (.cellTrain d i) s = onDie d.val s (cellTrain d.val i.toNat) := rfl
theorem exec_cellAck (d : Die) (q : BitVec 3) (s : State) : exec (.cellAck d q) s = onDie d.val s (cellAck d.val q.toNat) := rfl
theorem exec_cellNak (d : Die) (q : BitVec 3) (k : BitVec 4) (s : State) :
    exec (.cellNak d q k) s = onDie d.val s (cellNak d.val q.toNat k.toNat) := rfl
theorem exec_dieRecoveryStart (d : Die) (c : RecoveryCause) (s : State) :
    exec (.dieRecoveryStart d c) s = onDie d.val s (recoveryStart d.val (causeCode c)) := rfl

/-! Cells heard (R34, R35). -/

theorem heard_eq {d : Nat} (hd : d ≠ 0) (s : Device) :
    heard d s = s.modLink d fun l => { l with heardAt := some s.now, silent := false } := by
  rw [heard, if_neg hd]

theorem heardUp_eq (d : Nat) (s : Device) : heardUp d s = s.modLink d fun l => { l with upHeardAt := some s.now } := rfl

/-- A port once cells have passed both ways on it at a clock (R35). -/
def Link.heardBoth (at_ : Nat) (l : Link) : Link := { l with heardAt := some at_, silent := false, upHeardAt := some at_ }

theorem modLink_modLink (d : Nat) (f g : Link → Link) : (s.modLink d f).modLink d g = s.modLink d fun l => g (f l) :=
  modDie_modDie d _ _

theorem bothHeard_eq {d : Nat} (hd : d ≠ 0) (s : Device) : bothHeard d s = s.modLink d (Link.heardBoth s.now) := by
  rw [bothHeard, heard_eq hd, heardUp_eq, modLink_modLink]
  rfl

theorem bothHeard_modLink {d : Nat} (hd : d ≠ 0) (f : Link → Link) (s : Device) :
    bothHeard d (s.modLink d f) = s.modLink d fun l => Link.heardBoth s.now (f l) := by
  rw [bothHeard_eq hd, modLink_modLink]
  rfl

theorem link_modLink_self {d : Nat} (h : d < s.dies.length) (f : Link → Link) :
    ((s.modLink d f).die d).link = f (s.die d).link := by
  rw [Device.modLink, Device.die_modDie_self _ h]

/-- A change of a port that leaves it trained or untrained leaves it reached or not. -/
theorem reaches_modLink {f : Link → Link} (hf : ∀ l, (f l).trained = l.trained) (d e : Nat) :
    reaches (s.modLink d f) e = reaches s e := by
  unfold reaches mute alive Device.modLink
  rw [proj_die_modDie (fun x => x.up), proj_die_modDie (fun x => x.up), proj_die_modDie (fun x => x.recov.stalled),
    proj_die_modDie (fun x => x.link.trained)]
  · exact fun x => hf x.link
  all_goals exact fun _ => rfl

/-- The lead die sends on a port only while its own main domain is up, and to a trained port. -/
theorem trained_of_arrives {d : Nat} (hd : d ≠ 0) (h : arrives s d = true) : (s.die d).link.trained = true := by
  simp only [arrives, Bool.and_eq_true, Bool.or_eq_true, beq_iff_eq] at h
  exact (h.2.resolve_left hd).1

end

/-! What nothing but a die and a few words differ in. -/

theorem DieOnly.refl (d : Nat) (rs : Nat → Prop) (s : Device) : DieOnly d rs s s := ⟨rfl, fun _ _ => rfl, fun _ _ => rfl⟩

theorem DieOnly.trans {d : Nat} {rs : Nat → Prop} {s t u : Device} (hst : DieOnly d rs s t) (htu : DieOnly d rs t u) :
    DieOnly d rs s u := by
  refine ⟨?_, fun e he => (htu.2.1 e he).trans (hst.2.1 e he), fun a ha => (htu.2.2 a ha).trans (hst.2.2 a ha)⟩
  conv_lhs => rw [htu.1, hst.1]

theorem DieOnly.mono {d : Nat} {rs ks : Nat → Prop} {s t : Device} (h : DieOnly d rs s t) (hrs : ∀ a, rs a → ks a) :
    DieOnly d ks s t := ⟨h.1, h.2.1, fun a ha => h.2.2 a fun hr => ha (hrs a hr)⟩

theorem dieOnly_setReg (d a : Nat) (w : Word) (s : Device) : DieOnly d (· = a) s (s.setReg a w) :=
  ⟨rfl, fun _ _ => rfl, fun _ h => Device.reg_setReg_ne s h w⟩

/-! What an event leaves (R422 to R426, R442). -/

/-- Nothing differs but the words of an event and the ring. -/
def EventOnly (s t : Device) : Prop :=
  t = { s with regs := t.regs, irqAt := t.irqAt, ledger := t.ledger, dropped := t.dropped } ∧
    ∀ a, a ∉ eventWords → t.reg a = s.reg a

theorem EventOnly.refl (s : Device) : EventOnly s s := ⟨rfl, fun _ _ => rfl⟩

theorem EventOnly.trans {s t u : Device} (hst : EventOnly s t) (htu : EventOnly t u) : EventOnly s u := by
  refine ⟨?_, fun a ha => (htu.2 a ha).trans (hst.2 a ha)⟩
  conv_lhs => rw [htu.1, hst.1]

theorem eventOnly_setReg {a : Nat} (ha : a ∈ eventWords) (w : Word) (s : Device) : EventOnly s (s.setReg a w) :=
  ⟨rfl, fun _ hb => Device.reg_setReg_ne s (fun e => hb (by rw [e]; exact ha)) w⟩

theorem eventOnly_pset {f : Fld .pkg} (hf : f.off ∈ eventWords) (v : Nat) (s : Device) : EventOnly s (s.pset f v) :=
  eventOnly_setReg hf _ s

theorem eventOnly_setIrqAt (n : Nat) (s : Device) : EventOnly s (s.setIrqAt n) := ⟨rfl, fun _ _ => rfl⟩

theorem eventOnly_irqLatch (cat die obj : Nat) (s : Device) : EventOnly s (irqLatch cat die obj s) :=
  (eventOnly_pset (by decide) _ _).trans ((eventOnly_pset (by decide) _ _).trans (eventOnly_pset (by decide) _ _))

theorem eventOnly_irqSource (cat die obj : Nat) (s : Device) : EventOnly s (irqSource cat die obj s) := by
  unfold irqSource
  split_ifs
  · exact ((eventOnly_irqLatch cat die obj s).trans (eventOnly_pset (by decide) _ _)).trans
      ((eventOnly_pset (by decide) _ _).trans (eventOnly_setIrqAt _ _))
  · exact (eventOnly_irqLatch cat die obj s).trans (eventOnly_pset (by decide) _ _)
  · exact eventOnly_pset (by decide) _ _

theorem eventOnly_setIrq (cat die obj : Nat) (s : Device) : EventOnly s (setIrq cat die obj s) := by
  unfold setIrq
  dsimp only
  split_ifs
  · exact .refl s
  · exact eventOnly_setReg (by decide) _ s
  · exact (eventOnly_setReg (by decide) _ s).trans (eventOnly_irqSource _ _ _ _)

/-- The ring takes an entry, and its indices count it. -/
def ringTakes (e : LedgerEnt) (s : Device) : Device :=
  let n := s.pget LEDGER_STAT_COUNT
  let t := ({ s with ledger := s.ledger.set (s.pget LEDGER_STAT_WR) e }.pset LEDGER_STAT_WR (s.pget LEDGER_STAT_WR + 1)).pset
    LEDGER_STAT_COUNT (n + 1)
  if n + 1 = 64 then (t.pset LEDGER_STAT_FULL 1).pset LEDGER_STAT_BACK_OK 0 else t

theorem ledgerWrite_eq (e : LedgerEnt) (s : Device) : ledgerWrite e s = setCat Cat.ledger (ringTakes e s) := rfl

theorem eventOnly_ringTakes (e : LedgerEnt) (s : Device) : EventOnly s (ringTakes e s) := by
  have hindex : EventOnly s (({ s with ledger := s.ledger.set (s.pget LEDGER_STAT_WR) e }.pset LEDGER_STAT_WR
      (s.pget LEDGER_STAT_WR + 1)).pset LEDGER_STAT_COUNT (s.pget LEDGER_STAT_COUNT + 1)) :=
    EventOnly.trans (t := { s with ledger := s.ledger.set (s.pget LEDGER_STAT_WR) e }) ⟨rfl, fun _ _ => rfl⟩
      ((eventOnly_pset (by decide) _ _).trans (eventOnly_pset (by decide) _ _))
  unfold ringTakes
  dsimp only
  split_ifs
  · exact hindex.trans ((eventOnly_pset (by decide) _ _).trans (eventOnly_pset (by decide) _ _))
  · exact hindex

theorem eventOnly_ledgerPut (e : LedgerEnt) (s : Device) : EventOnly s (ledgerPut e s) := by
  unfold ledgerPut
  dsimp only
  have hseq : EventOnly s (s.pset LEDGER_NEXT_SEQ (s.pget LEDGER_NEXT_SEQ + 1)) := eventOnly_pset (by decide) _ s
  split_ifs
  · exact hseq.trans (EventOnly.trans (t := Device.setDropped _ _) ⟨rfl, fun _ _ => rfl⟩ (eventOnly_pset (by decide) _ _))
  · rw [ledgerWrite_eq]
    exact hseq.trans ((eventOnly_ringTakes _ _).trans (eventOnly_setIrq _ _ _ _))

/-- An event of the lead die writes its words and the ring. -/
theorem eventOnly_logEvent_lead (cat code obj data : Nat) (s : Device) : EventOnly s (logEvent cat 0 code obj data s) :=
  (eventOnly_setIrq _ _ _ s).trans (eventOnly_ledgerPut _ _)

/-! IDLE (R18, R34). -/

theorem dieOnly_heard (d : Nat) (s : Device) : DieOnly d noWord s (heard d s) := by
  unfold heard
  split_ifs
  · exact .refl _ _ _
  · exact dieOnly_modDie _ _ _

theorem dieOnly_cellIdle (d : Nat) (s : Device) : DieOnly d noWord s (cellIdle d s) := by
  have hheard : DieOnly d noWord s (if arrives s d then heard d s else s) := by
    split_ifs
    · exact dieOnly_heard d s
    · exact .refl _ _ _
  unfold cellIdle
  generalize (if arrives s d then heard d s else s) = t at hheard
  dsimp only
  split_ifs
  · exact hheard.trans (dieOnly_modDie _ _ _)
  · exact hheard

theorem cellIdle_of_arrives {d : Nat} {s : Device} (hd : d ≠ 0) (h : arrives s d = true) : cellIdle d s =
    s.modLink d fun l => { l with
      heardAt := some s.now, silent := false, upHeardAt := if reaches s d then some s.now else l.upHeardAt } := by
  rw [cellIdle, if_pos h, heard_eq hd, reaches_modLink]
  · cases reaches s d
    · rfl
    · simp only [if_true, heardUp_eq, modLink_modLink]
      rfl
  · exact fun _ => rfl

theorem cellIdle_of_silence {d : Nat} {s : Device} (ha : arrives s d = false) (hr : reaches s d = false) : cellIdle d s = s := by
  simp [cellIdle, ha, hr]

/-- A port that has just been heard shows in LINK_STAT.UP (R34). -/
theorem linkUp_of_heard {d : Nat} {s : Device} (hd : d ≠ 0) (hn : d < s.nDies) (h8 : s.nDies ≤ 8)
    (ht : (s.die d).link.trained = true) (hh : (s.die d).link.heardAt = some s.now) :
    (LINK_STAT_UP.get (pkgView s 0xD1)).testBit d = true := by
  have hview : pkgView s 0xD1 = LINK_STAT_UP.put (upMap s / 2 * 2 + 1) (s.reg 0xD1) := rfl
  have hbit : (upMap s).testBit d = true := by
    rw [upMap, testBit_dieMap]
    simp [hn, ht, hh]
  obtain ⟨k, rfl⟩ := Nat.exists_eq_succ_of_ne_zero hd
  rw [hview, Fld.get_put_self _ _ _ (by decide) (by decide), Nat.testBit_mod_two_pow]
  have hodd : (upMap s / 2 * 2 + 1).testBit (k + 1) = (upMap s).testBit (k + 1) := by
    rw [Nat.testBit_succ, Nat.testBit_succ]
    congr 1
    omega
  rw [hodd, hbit, Bool.and_true, decide_eq_true_eq]
  show k + 1 < 8
  omega

/-! TRAIN (R15, R17). -/

theorem cellTrain_of_training {d i : Nat} {s : Device} (hd : d ≠ 0) (hup : (s.die d).up = true)
    (ht : (s.die d).link.trained = false) :
    cellTrain d i s = { s with straps := s.straps.set d i }.modDie d fun x => { x with index := i } :=
  if_pos ⟨hd, hup, ht⟩

theorem cellTrain_of_not_training {d i : Nat} {s : Device} (h : (s.die d).up = false ∨ (s.die d).link.trained = true) :
    cellTrain d i s = s := by
  refine if_neg fun hc => ?_
  obtain ⟨-, hup, ht⟩ := hc
  rcases h with h | h <;> simp_all

/-! ACK and NAK (R19, R34). -/

theorem cellAck_of_unheard {d q : Nat} {s : Device} (h : ¬ (reaches s d = true ∧ arrives s d = true)) : cellAck d q s = s := by
  rw [cellAck, if_pos]
  simpa only [Bool.not_eq_true', Bool.and_eq_true, Bool.eq_false_iff, ne_eq] using h

section
variable {d : Nat} {s : Device} (hd : d ≠ 0) (hboth : reaches s d = true ∧ arrives s d = true)
include hboth

theorem cellAck_of_unknown {q : Nat} (h : ∀ c ∈ (s.die d).link.wait ++ (s.die d).link.upWait, c.seq ≠ q) : cellAck d q s = s := by
  obtain ⟨hr, ha⟩ := hboth
  have hnone : ∀ l : List Cell, (∀ c ∈ l, c.seq ≠ q) → (l.find? fun c => c.seq == q) = none := fun l hl =>
    List.find?_eq_none.mpr fun c hc => by simpa using hl c hc
  simp only [cellAck, hr, ha, Bool.and_self, Bool.not_true, Bool.false_eq_true, if_false,
    hnone _ fun c hc => h c (List.mem_append_left _ hc), hnone _ fun c hc => h c (List.mem_append_right _ hc)]

theorem cellNak_of_unknown {q k : Nat} (h : ∀ c ∈ (s.die d).link.wait ++ (s.die d).link.upWait, c.seq = q → c.typ ≠ k) :
    cellNak d q k s = s := by
  obtain ⟨hr, ha⟩ := hboth
  have hnone : (((s.die d).link.wait ++ (s.die d).link.upWait).find? fun c => c.seq == q && c.typ == k) = none :=
    List.find?_eq_none.mpr fun c hc => by simpa using h c hc
  simp only [cellNak, hr, ha, Bool.and_self, Bool.not_true, Bool.false_eq_true, if_false, hnone]

include hd

/-- An acknowledged cell of the lead die ends its wait and acts. -/
theorem cellAck_of_down {q : Nat} {c : Cell} (hc : ((s.die d).link.wait.find? fun c => c.seq == q) = some c) :
    cellAck d q s = cellAct d c.load (s.modLink d fun l => Link.heardBoth s.now { l with wait := l.wait.filter fun c => c.seq != q }) := by
  obtain ⟨hr, ha⟩ := hboth
  simp only [cellAck, hr, ha, Bool.and_self, Bool.not_true, Bool.false_eq_true, if_false, hc, bothHeard_modLink hd]

/-- An acknowledged cell of the die ends its wait and acts, where no cell of the lead die waits with its SEQ. -/
theorem cellAck_of_up {q : Nat} {c : Cell} (hw : ∀ c ∈ (s.die d).link.wait, c.seq ≠ q)
    (hc : ((s.die d).link.upWait.find? fun c => c.seq == q) = some c) :
    cellAck d q s = cellAct d c.load (s.modLink d fun l => Link.heardBoth s.now { l with upWait := l.upWait.filter fun c => c.seq != q }) := by
  obtain ⟨hr, ha⟩ := hboth
  have hnone : ((s.die d).link.wait.find? fun c => c.seq == q) = none := List.find?_eq_none.mpr fun c hc => by simpa using hw c hc
  simp only [cellAck, hr, ha, Bool.and_self, Bool.not_true, Bool.false_eq_true, if_false, hnone, hc, bothHeard_modLink hd]

/-- A cell whose four repetitions have failed is a LINK fault of the port, and the recovery of its die starts. -/
theorem cellNak_of_spent {q k : Nat} {c : Cell}
    (hc : (((s.die d).link.wait ++ (s.die d).link.upWait).find? fun c => c.seq == q && c.typ == k) = some c) (hf : 4 ≤ c.fails) :
    cellNak d q k s = recoveryStart d 1 (logEvent Cat.link 0 0x02 d k (s.modLink d (Link.heardBoth s.now))) := by
  obtain ⟨hr, ha⟩ := hboth
  simp only [cellNak, hr, ha, Bool.and_self, Bool.not_true, Bool.false_eq_true, if_false, hc, if_pos hf, bothHeard_eq hd]

end

/-- A list of cells without one of a SEQ and a type is as it was after a NAK of that cell. -/
theorem nakOne_of_none {q k : Nat} {l : List Cell} (h : (l.any fun c => c.seq == q && c.typ == k) = false) : nakOne q k l = l := by
  rw [nakOne]
  refine List.map_congr_left (g := id) (fun c hc => if_neg fun e => ?_) |>.trans (List.map_id l)
  have := List.any_eq_false.mp h c hc
  simp [e.1, e.2] at this

/-- The device once the repetition of a cell is counted in RETRY and at the port. -/
def repeated (d : Nat) (f : Link → Link) (s : Device) : Device := ((s.modLink d (Link.heardBoth s.now)).pinc LINK_STAT_RETRY).modLink d f

theorem pinc_linkRetry (s : Device) :
    s.pinc LINK_STAT_RETRY = s.setReg 0xD1 (LINK_STAT_RETRY.put (min (s.pget LINK_STAT_RETRY + 1) 255) (s.reg 0xD1)) := by
  show s.setReg 0xD1 (LINK_STAT_RETRY.put (min (s.pget LINK_STAT_RETRY + 1) (2 ^ 8 - 1)) (s.reg 0xD1)) = _
  norm_num

theorem repeated_spec {d : Nat} {s : Device} (hlt : d < s.dies.length) (f : Link → Link) :
    DieOnly d (· = 0xD1) s (repeated d f s) ∧ ((repeated d f s).die d).link = f (Link.heardBoth s.now (s.die d).link) ∧
      (repeated d f s).reg 0xD1 = LINK_STAT_RETRY.put (min (s.pget LINK_STAT_RETRY + 1) 255) (s.reg 0xD1) := by
  have hmod : ∀ (t : Device) (g : Link → Link), DieOnly d (· = 0xD1) t (t.modLink d g) := fun t g =>
    (dieOnly_modDie t d _).mono fun _ h => h.elim
  rw [repeated, pinc_linkRetry]
  refine ⟨(hmod s _).trans ((dieOnly_setReg d _ _ _).trans (hmod _ _)), ?_, ?_⟩
  · rw [link_modLink_self (by simpa [Device.modLink] using hlt)]
    rw [Device.setReg_die, link_modLink_self hlt]
  · exact Device.reg_setReg_self _ _ _

/-- A repeated cell is counted in RETRY and at the cell, on the side that waits for it. -/
theorem cellNak_of_repeated {d q k : Nat} {c : Cell} {s : Device} (hd : d ≠ 0) (hboth : reaches s d = true ∧ arrives s d = true)
    (hc : (((s.die d).link.wait ++ (s.die d).link.upWait).find? fun c => c.seq == q && c.typ == k) = some c) (hf : c.fails < 4) :
    cellNak d q k s = if (s.die d).link.wait.any fun c => c.seq == q && c.typ == k then
        repeated d (fun l => { l with wait := nakOne q k l.wait }) s
      else repeated d (fun l => { l with upWait := nakOne q k l.upWait }) s := by
  obtain ⟨hr, ha⟩ := hboth
  simp only [cellNak, hr, ha, Bool.and_self, Bool.not_true, Bool.false_eq_true, if_false, hc, if_neg (show ¬ 4 ≤ c.fails by omega),
    bothHeard_eq hd, repeated]

/-- Settles O19: each command of a port is one of the equations above, by what arrives, what the port waits for and how often
the cell has failed. -/
theorem cellsAreAcknowledgedOrRepeated : Obligations.CellsAreAcknowledgedOrRepeated := by
  intro s d hs hn hd
  have hlt : d.val < s.dev.dies.length := hs.die_lt d
  refine ⟨fun ha => ?idle, fun ha hr => ?silence, fun hup ht i => ?train, fun h i => ?trained, fun q c hb hc => ?down,
    fun q c hb hw hc => ?up, fun q h => ?unknown, fun hb q k => ⟨fun c hc => ⟨fun hf => ?repeated, fun hf => ?spent⟩, fun h => ?naked⟩⟩
  case idle =>
    refine does_die (exec_cellIdle d s) hn ⟨dieOnly_cellIdle _ _, ?_⟩
    have hlink : ((cellIdle d.val s.dev).die d.val).link = { (s.dev.die d.val).link with
        heardAt := some s.dev.now, silent := false
        upHeardAt := if reaches s.dev d.val then some s.dev.now else (s.dev.die d.val).link.upHeardAt } := by
      rw [cellIdle_of_arrives hd ha, link_modLink_self hlt]
    have hnow : (cellIdle d.val s.dev).now = s.dev.now := by rw [cellIdle_of_arrives hd ha]; rfl
    refine ⟨by rw [hlink], by rw [hlink], by rw [hlink], linkUp_of_heard hd ?_ ?_ ?_ ?_⟩
    · rw [cellIdle_of_arrives hd ha]; exact hn
    · rw [cellIdle_of_arrives hd ha]; exact hs.dies_le
    · rw [hlink]; exact trained_of_arrives hd ha
    · rw [hlink, hnow]
  case silence => exact does_die (exec_cellIdle d s) hn (cellIdle_of_silence ha hr)
  case train =>
    refine does_die (exec_cellTrain d i s) hn ?_
    rw [cellTrain_of_training hd hup ht]
    exact ⟨dieOnly_modDie _ _ _, Device.die_modDie_self _ hlt _⟩
  case trained => exact does_die (exec_cellTrain d i s) hn (cellTrain_of_not_training h)
  case down => exact does_die (exec_cellAck d q s) hn (cellAck_of_down hd hb hc)
  case up => exact does_die (exec_cellAck d q s) hn (cellAck_of_up hd hb hw hc)
  case unknown =>
    refine does_die (exec_cellAck d q s) hn ?_
    by_cases hb : reaches s.dev d.val = true ∧ arrives s.dev d.val = true
    · exact cellAck_of_unknown hb (h.resolve_left fun hnb => hnb hb)
    · exact cellAck_of_unheard hb
  case repeated =>
    refine does_die (exec_cellNak d q k s) hn ?_
    rw [cellNak_of_repeated hd hb hc hf]
    cases hany : (s.dev.die d.val).link.wait.any fun c => c.seq == q.toNat && c.typ == k.toNat
    · obtain ⟨honly, hlink, hreg⟩ := repeated_spec hlt fun l => { l with upWait := nakOne q.toNat k.toNat l.upWait }
      refine ⟨honly, ?_, hreg⟩
      rw [nakOne_of_none hany]
      exact hlink
    · exact repeated_spec hlt _
  case spent =>
    refine does_die (exec_cellNak d q k s) hn ?_
    rw [cellNak_of_spent hd hb hc hf, exec_dieRecoveryStart, onDie, if_pos]
    · rfl
    · rw [(eventOnly_logEvent_lead _ _ _ _ _).1]
      exact hn
  case naked => exact does_die (exec_cellNak d q k s) hn (cellNak_of_unknown hb h)

end Sys2Proof.Machine
end

section
/-! Proofs of the family of the architecture: the stamped broadcasts (O20). -/

namespace Sys2Proof.Machine

/-! Folds over dies and channels. -/

/-- What every operation of a fold keeps, the fold keeps. -/
theorem each_keeps {I : Device → Prop} {f : Nat → Device → Device} (ns : List Nat) {s : Device} (hs : I s)
    (hf : ∀ n ∈ ns, ∀ t, I t → I (f n t)) : I (s.each ns f) := by
  induction ns generalizing s with
  | nil => exact hs
  | cons n ns ih => exact ih (hf n List.mem_cons_self s hs) fun m hm => hf m (List.mem_cons_of_mem _ hm)

/-- What each operation of a fold brings about for its own number, and every one keeps for all, holds for each number after the
fold. -/
theorem each_establishes {I : Device → Prop} {R : Nat → Device → Prop} {f : Nat → Device → Device} (ns : List Nat) {s : Device}
    (hs : I s) (hf : ∀ n ∈ ns, ∀ t, I t → I (f n t)) (hown : ∀ n ∈ ns, ∀ t, I t → R n (f n t))
    (hkeep : ∀ n ∈ ns, ∀ m t, I t → R m t → R m (f n t)) : ∀ n ∈ ns, R n (s.each ns f) := by
  induction ns generalizing s with
  | nil => simp
  | cons n ns ih =>
    have hfn := hf n List.mem_cons_self s hs
    have htail := ih hfn (fun m hm => hf m (List.mem_cons_of_mem _ hm)) (fun m hm => hown m (List.mem_cons_of_mem _ hm))
      fun m hm => hkeep m (List.mem_cons_of_mem _ hm)
    intro m hm
    rcases List.mem_cons.mp hm with rfl | hm
    · exact (each_keeps (I := fun t => I t ∧ R m t) ns ⟨hfn, hown m List.mem_cons_self s hs⟩ fun k hk t ht =>
        ⟨hf k (List.mem_cons_of_mem _ hk) t ht.1, hkeep k (List.mem_cons_of_mem _ hk) m t ht.1 ht.2⟩).2
    · exact htail m hm

theorem mem_chansOf {d g : Nat} : g ∈ chansOf d ↔ g / 8 = d := by
  simp only [chansOf, List.mem_map, List.mem_range]
  exact ⟨fun ⟨k, hk, e⟩ => by omega, fun h => ⟨g % 8, by omega, by omega⟩⟩

/-! Broadcasts that wait (R19, R21). -/

/-- A broadcast that a die has joined waits there, and the others wait where they did. -/
theorem waits_bcastAdd (k k' : BcastKind) (d e f f' c c' : Nat) (l : List Bcast) :
    (∃ b ∈ bcastAdd k d f c l, b.kind = k' ∧ b.frame = f' ∧ b.clk = c' ∧ e ∈ b.dies) ↔
      (∃ b ∈ l, b.kind = k' ∧ b.frame = f' ∧ b.clk = c' ∧ e ∈ b.dies) ∨ (k' = k ∧ e = d ∧ f' = f ∧ c' = c) := by
  induction l with
  | nil =>
    simp only [bcastAdd, List.mem_singleton, exists_eq_left, List.not_mem_nil, false_and, exists_false, false_or]
    exact ⟨fun ⟨hk, hf, hc, he⟩ => ⟨hk.symm, he, hf.symm, hc.symm⟩, fun ⟨hk, he, hf, hc⟩ => ⟨hk.symm, hf.symm, hc.symm, he⟩⟩
  | cons b l ih =>
    simp only [bcastAdd]
    split_ifs with hb hd
    · -- the die waits on it already
      obtain ⟨rfl, rfl, rfl⟩ := hb
      refine ⟨.inl, fun h => h.elim id ?_⟩
      rintro ⟨rfl, rfl, rfl, rfl⟩
      exact ⟨b, List.mem_cons_self, rfl, rfl, rfl, by simpa using hd⟩
    · -- the die joins it
      obtain ⟨rfl, rfl, rfl⟩ := hb
      simp only [List.exists_mem_cons_iff, List.mem_append, List.mem_singleton]
      grind
    · -- it is another one
      simp only [List.exists_mem_cons_iff, ih, or_assoc]

/-- A second copy of a broadcast changes nothing. -/
theorem bcastAdd_again (k : BcastKind) (d f c : Nat) (l : List Bcast) : bcastAdd k d f c (bcastAdd k d f c l) = bcastAdd k d f c l := by
  induction l with
  | nil => simp [bcastAdd]
  | cons b l ih =>
    by_cases hb : b.kind = k ∧ b.frame = f ∧ b.clk = c
    · by_cases hd : b.dies.contains d = true
      · simp only [bcastAdd, if_pos hb, if_pos hd]
      · have hjoined : (b.dies ++ [d]).contains d = true := by simp
        simp only [bcastAdd, if_pos hb, if_neg hd, hjoined, if_true]
    · simp only [bcastAdd, if_neg hb, ih]

/-! Cells of a broadcast (R19, R21). -/

section
variable {k : BcastKind} {typ d f c : Nat} {s : Device}

theorem cellBcast_of_unreached (h : reaches s d = false) (intact : Bool) : cellBcast k typ d f c intact s = s := by
  cases intact <;> simp [cellBcast, bcastLost, h]

theorem cellBcast_of_lost (h : reaches s d = true) : cellBcast k typ d f c false s = logEvent Cat.link d 0x03 d typ s := by
  simp [cellBcast, bcastLost, h]

theorem cellBcast_of_soon (h : reaches s d = true) (hsoon : s.now + 16 ≤ f * 5120 + c) :
    cellBcast k typ d f c true s = (heardUp d s).setBcast (bcastAdd k d f c s.bcast) := by
  simp only [cellBcast, h, Bool.not_true, Bool.false_eq_true, if_false, if_true]
  exact if_pos hsoon

theorem cellBcast_of_late (h : reaches s d = true) (hlate : ¬ s.now + 16 ≤ f * 5120 + c) :
    cellBcast k typ d f c true s = heardUp d s := by
  simp only [cellBcast, h, Bool.not_true, Bool.false_eq_true, if_false, if_true]
  exact if_neg hlate

theorem reaches_heardUp (l : List Bcast) (e : Nat) : reaches ((heardUp d s).setBcast l) e = reaches s e :=
  reaches_modLink (s := s.setBcast l) (f := fun l => { l with upHeardAt := some s.now }) (fun _ => rfl) d e

/-- The cell of a broadcast that reached its die in time changes nothing when it comes again. -/
theorem cellBcast_again (h : reaches s d = true) (hsoon : s.now + 16 ≤ f * 5120 + c) :
    cellBcast k typ d f c true ((heardUp d s).setBcast (bcastAdd k d f c s.bcast)) =
      (heardUp d s).setBcast (bcastAdd k d f c s.bcast) := by
  rw [cellBcast_of_soon (s := (heardUp d s).setBcast _) (by rw [reaches_heardUp]; exact h) hsoon]
  have hagain : heardUp d ((heardUp d s).setBcast (bcastAdd k d f c s.bcast)) = (heardUp d s).setBcast (bcastAdd k d f c s.bcast) :=
    modLink_modLink (s := s.setBcast (bcastAdd k d f c s.bcast)) d (fun l => { l with upHeardAt := some s.now })
      fun l => { l with upHeardAt := some s.now }
  rw [hagain]
  exact congrArg (heardUp d s).setBcast (bcastAdd_again k d f c s.bcast)

/-- A cell of the lead die has been heard at the die, and broadcasts apart nothing else differs. -/
theorem heardUp_only (l : List Bcast) (hlt : d < s.dies.length) :
    DieOnly d noWord { s with bcast := l } ((heardUp d s).setBcast l) ∧
      ((heardUp d s).setBcast l).die d = { s.die d with link := { (s.die d).link with upHeardAt := some s.now } } :=
  ⟨dieOnly_modDie (s.setBcast l) d _, Device.die_modDie_self (s.setBcast l) hlt _⟩

end

/-! SNAP cells (R19, R22, R153). -/

/-- Nothing differs but the words of an event, the ring, and the dies. -/
def Logged (s t : Device) : Prop :=
  t = { s with regs := t.regs, irqAt := t.irqAt, ledger := t.ledger, dropped := t.dropped, dies := t.dies } ∧
    ∀ a, a ∉ eventWords → t.reg a = s.reg a

theorem Logged.trans {s t u : Device} (hst : Logged s t) (htu : Logged t u) : Logged s u := by
  refine ⟨?_, fun a ha => (htu.2 a ha).trans (hst.2 a ha)⟩
  conv_lhs => rw [htu.1, hst.1]

theorem EventOnly.logged {s t : Device} (h : EventOnly s t) : Logged s t := by
  refine ⟨?_, h.2⟩
  conv_lhs => rw [h.1]
  conv_rhs => rw [h.1]

/-- An event of any die writes its words, the ring, and the staging of its die. -/
theorem logged_logEvent (cat d code obj data : Nat) (s : Device) : Logged s (logEvent cat d code obj data s) := by
  unfold logEvent
  dsimp only
  refine (eventOnly_setIrq cat d obj s).logged.trans ?_
  split_ifs
  · exact (eventOnly_ledgerPut _ _).logged
  · exact ⟨rfl, fun _ _ => rfl⟩

section
variable {d f : Nat} {s : Device}

theorem cellSnap_of_unreached (h : reaches s d = false) (intact : Bool) :
    (if intact then cellSnap d f else snapLost d f) s = s := by
  cases intact
  · simp [snapLost, h]
  · simp only [if_true, cellSnap, h]
    split <;> rfl

theorem cellSnap_of_soon {b : Bcast} (h : reaches s d = true)
    (hb : (s.bcast.find? fun b => b.kind == .snap && b.arg == f) = some b) (hsoon : s.now + 16 ≤ b.frame * 5120 + b.clk) :
    cellSnap d f s = (heardUp d s).setBcast (bcastAdd .snap d b.frame b.clk s.bcast) := by
  simp only [cellSnap, hb, h, if_true]
  exact if_pos hsoon

theorem snapLost_of_other (h : reaches s d = true) (hf : s.snap.last ≠ some f) :
    snapLost d f s = logEvent Cat.link d 0x03 d 3 s := by
  simp only [snapLost, bcastLost, h, if_true]
  refine if_neg fun hc => hf ?_
  rw [(logged_logEvent _ _ _ _ _ s).1] at hc
  exact hc.1

theorem snapLost_of_latest (h : reaches s d = true) (hf : s.snap.last = some f) (hslot : s.snap.slots.contains d = true) :
    snapLost d f s = snapInvalid d (logEvent Cat.link d 0x03 d 3 s) := by
  simp only [snapLost, bcastLost, h, if_true]
  refine if_pos ?_
  rw [(logged_logEvent _ _ _ _ _ s).1]
  exact ⟨hf, hslot⟩

end

/-! Words in a row (R153). -/

/-- What a row of words reads after it is written by an operation that sets one word, and every other word with it. -/
theorem read_setWords {put : Nat → Word → Device → Device} {read : Device → Nat → Word}
    (hself : ∀ a w t, read (put a w t) a = w) (hne : ∀ a b w t, b ≠ a → read (put a w t) b = read t b) (a b : Nat) (ws : List Word)
    (s : Device) : read (setWords put a ws s) b = if a ≤ b ∧ b < a + ws.length then (ws[b - a]?).getD 0 else read s b := by
  induction ws generalizing a s with
  | nil => rw [setWords, if_neg (by simp only [List.length_nil]; omega)]
  | cons w ws ih =>
    rw [setWords, ih]
    simp only [List.length_cons]
    rcases Nat.lt_trichotomy b a with h | rfl | h
    · rw [if_neg (by omega), if_neg (by omega), hne _ _ _ _ (by omega)]
    · rw [if_neg (by omega), if_pos (by omega), hself]
      simp
    · obtain ⟨k, rfl⟩ : ∃ k, b = a + 1 + k := ⟨b - (a + 1), by omega⟩
      have e : a + 1 + k - a = k + 1 := by omega
      rw [e, Nat.add_sub_cancel_left, List.getElem?_cons_succ, hne _ _ _ _ (by omega)]
      exact if_congr (by omega) rfl rfl

theorem shd_setShd_self (a : Nat) (w : Word) (s : Device) : shd (setShd a w s) a = w := rfGet_set_self s.shadow a w

theorem shd_setShd_ne {a b : Nat} (h : b ≠ a) (w : Word) (s : Device) : shd (setShd a w s) b = shd s b :=
  rfGet_set_other h s.shadow w

/-- A word of a slot once the words of a slot of the same die are written. -/
theorem read_setWords_slot {put : Nat → Word → Device → Device} {read : Device → Nat → Word}
    (hself : ∀ a w t, read (put a w t) a = w) (hne : ∀ a b w t, b ≠ a → read (put a w t) b = read t b) {d c c' i : Nat} {ws : List Word}
    (hi : i < 26) (hlen : ws.length = 26) (s : Device) : read (setWords put (slotAddr16 d c 0) ws s) (slotAddr16 d c' i) =
      if c' = c then (ws[i]?).getD 0 else read s (slotAddr16 d c' i) := by
  rw [read_setWords hself hne]
  unfold slotAddr16 dieAddr
  by_cases hc : c' = c
  · subst hc
    rw [if_pos (by omega), if_pos rfl]
    congr 3
    omega
  · rw [if_neg (by omega), if_neg hc]

/-- The words the lead die writes to an invalid slot (R153): its counters read 0. -/
def invalidWords (s : Device) : List Word :=
  List.replicate 22 0#32 ++ [slotStat (s.pget SNAP_CTL_GEN) false false 0, BitVec.ofNat 32 s.snap.bFrame,
    BitVec.ofNat 32 s.snap.bAngle, BitVec.ofNat 32 s.snap.bCount]

/-- The invalid slots of a die other than the lead die, as they stand in the shadow file. -/
def invalidSlots (d : Nat) (s : Device) : Device :=
  s.each (List.range 8) fun c t => setWords setShd (slotAddr16 d c 0) (invalidWords s) t

theorem snapInvalid_eq {d : Nat} (hd : d ≠ 0) (s : Device) :
    snapInvalid d s = snapCommit d ((invalidSlots d s).pset SNAP_STAT_PARTIAL 1) := by
  unfold snapInvalid invalidSlots
  simp only [if_neg hd]
  rfl

theorem setWords_setShd_eq (a : Nat) (ws : List Word) (s : Device) :
    setWords setShd a ws s = { s with shadow := (setWords setShd a ws s).shadow } := by
  induction ws generalizing a s with
  | nil => rfl
  | cons w ws ih => exact ih (a + 1) (setShd a w s)

theorem invalidSlots_eq (d : Nat) (s : Device) : ∃ x, invalidSlots d s = { s with shadow := x } := by
  refine each_keeps (I := fun t => ∃ x, t = { s with shadow := x }) _ ⟨s.shadow, rfl⟩ fun c _ t ht => ?_
  obtain ⟨x, rfl⟩ := ht
  exact ⟨_, setWords_setShd_eq _ _ _⟩

theorem shd_invalidSlots (d : Nat) (s : Device) {k i : Nat} (hk : k < 8) (hi : i < 22) :
    shd (invalidSlots d s) (slotAddr16 d k i) = 0 := by
  have hword : ∀ i, i < 22 → ((invalidWords s)[i]?).getD 0 = 0 := fun i hi => by
    rw [invalidWords, List.getElem?_append_left (by simpa only [List.length_replicate] using hi), List.getElem?_replicate, if_pos hi]
    rfl
  refine each_establishes (I := fun _ => True) (R := fun k t => ∀ i, i < 22 → shd t (slotAddr16 d k i) = 0) (List.range 8) trivial
    (fun _ _ _ _ => trivial) (fun c _ t _ i hi => ?_) (fun c _ m t _ hm i hi => ?_) k (List.mem_range.mpr hk) i hi
  · rw [read_setWords_slot shd_setShd_self (fun _ _ w t h => shd_setShd_ne h w t) (by omega) (by simp [invalidWords]), if_pos rfl, hword i hi]
  · rw [read_setWords_slot shd_setShd_self (fun _ _ w t h => shd_setShd_ne h w t) (by omega) (by simp [invalidWords]), hword i hi, hm i hi,
      ite_self]

theorem pget_of_regs {s t : Device} (h : t.regs = s.regs) (f : Fld .pkg) : t.pget f = s.pget f := by
  simp only [Device.pget, Device.reg, h]

theorem snapDone_keeps (s : Device) : (snapDone s).snap = s.snap ∧ (snapDone s).shadow = s.shadow ∧
    (snapDone s).pget SNAP_STAT_PARTIAL = s.pget SNAP_STAT_PARTIAL := by
  unfold snapDone
  split_ifs
  · refine ⟨by rw [Device.pset, Device.setReg_snap, Device.pset, Device.setReg_snap],
      by rw [Device.pset, Device.setReg_shadow, Device.pset, Device.setReg_shadow], ?_⟩
    rw [Device.pget_pset_apart _ _ _ _ (by decide), Device.pget_pset_apart _ _ _ _ (by decide)]
  · exact ⟨rfl, rfl, rfl⟩

/-- A die that has committed its slots no longer holds its snapshot back. -/
theorem snapCommit_of_waiting {d : Nat} {t : Device} (hslot : t.snap.slots.contains d = true) :
    (snapCommit d t).snap.slots.contains d = false ∧
      (snapCommit d t).pget SNAP_STAT_PARTIAL = t.pget SNAP_STAT_PARTIAL ∧ (snapCommit d t).shadow = t.shadow := by
  rw [snapCommit, if_pos hslot]
  obtain ⟨hsnap, hshd, hpartial⟩ := snapDone_keeps { t with snap := { t.snap with slots := t.snap.slots.filter fun e => e != d } }
  rw [hsnap, hshd, hpartial]
  exact ⟨by simp, pget_of_regs (t := { t with snap := { t.snap with slots := t.snap.slots.filter fun e => e != d } }) rfl _, rfl⟩

/-- A die whose slots the lead die has written no longer holds its snapshot back, which is partial (R153). -/
theorem snapInvalid_of_waiting {d : Nat} (hd : d ≠ 0) {s : Device} (hslot : s.snap.slots.contains d = true) :
    (snapInvalid d s).snap.slots.contains d = false ∧ (snapInvalid d s).pget SNAP_STAT_PARTIAL = 1 ∧
      (snapInvalid d s).shadow = (invalidSlots d s).shadow := by
  have hwaits : ((invalidSlots d s).pset SNAP_STAT_PARTIAL 1).snap.slots.contains d = true := by
    obtain ⟨x, hx⟩ := invalidSlots_eq d s
    rw [Device.pset, Device.setReg_snap, hx]
    exact hslot
  obtain ⟨hgone, hpart, hshadow⟩ := snapCommit_of_waiting hwaits
  rw [snapInvalid_eq hd]
  refine ⟨hgone, hpart.trans ((Device.pget_pset_self _ _ _ (by decide)).trans (by decide)), hshadow.trans ?_⟩
  rw [Device.pset, Device.setReg_shadow]

/-! Broadcasts at their stamp (R21, R22, R307). -/

/-- A single broadcast that is due acts on the die that holds it. -/
theorem bcastExecute_of_one {k : BcastKind} {d g : Nat} {s : Device} (h : s.bcast = [⟨k, [d], s.frame, s.clk, g⟩]) :
    bcastExecute k s = bcastAct ⟨k, [d], s.frame, s.clk, g⟩ d (s.setBcast []) := by
  simp [bcastExecute, bcastDue, h, Device.each]

/-- With no broadcast of its kind due, and none late, nothing acts. -/
theorem bcastExecute_of_none {k : BcastKind} {s : Device} (hk : ∀ b ∈ s.bcast, b.kind = k → bcastDue s b = false)
    (hlate : ∀ b ∈ s.bcast, s.now ≤ b.frame * 5120 + b.clk) : bcastExecute k s = s := by
  have hhit : (s.bcast.filter fun b => b.kind == k && bcastDue s b) = [] := List.filter_eq_nil_iff.mpr fun b hb hc => by
    simp only [Bool.and_eq_true, beq_iff_eq] at hc
    exact absurd hc.2 (by rw [hk b hb hc.1]; decide)
  have hrest : (s.bcast.filter fun b => !(b.kind == k && bcastDue s b) && decide (s.now ≤ b.frame * 5120 + b.clk)) = s.bcast :=
    List.filter_eq_self.mpr fun b hb => by
      have := hlate b hb
      by_cases hc : b.kind = k
      · simp [hk b hb hc, this]
      · simp [hc, this]
  simp only [bcastExecute, hhit, hrest]
  rfl

section
variable {d : Nat} {s : Device} {b : Bcast}

theorem bcastAct_frame (hd : d ≠ 0) (hup : (s.die d).up = true) (hb : b.kind = .frame) :
    bcastAct b d s = s.modDie d fun x => { x with frame := b.frame, clk := b.clk } := by
  simp [bcastAct, hup, hb, hd]

/-- A die that has not lost the lead die loads its replica, and nothing else of it changes. -/
theorem bcastAct_angle (hd : d ≠ 0) (hlt : d < s.dies.length) (hup : (s.die d).up = true) (hb : b.kind = .angle)
    (hsil : (s.die d).link.upSilent = false) :
    bcastAct b d s = s.modDie d fun x => { x with nco := { s.line.nco with state := lineState s } } := by
  simp only [bcastAct, hup, hb, if_neg hd, Bool.not_true, Bool.false_eq_true, if_false]
  rw [leadReturn, if_pos]
  rw [Device.die_modDie_self _ hlt, hsil]
  rfl

theorem bcastAct_snap (hd : d ≠ 0) (hup : (s.die d).up = true) (hb : b.kind = .snap) : bcastAct b d s = snapLatch d b.arg s := by
  simp [bcastAct, hup, hb, hd]

theorem bcastAct_stop (hup : (s.die d).up = true) (hb : b.kind = .sched) (harg : b.arg = 1) :
    bcastAct b d s = s.each (chansOf d) stopChannel := by
  simp [bcastAct, hup, hb, harg]

end

theorem setWords_setReg_eq (a : Nat) (ws : List Word) (s : Device) :
    setWords (fun a w u => u.setReg a w) a ws s = { s with regs := (setWords (fun a w u => u.setReg a w) a ws s).regs } := by
  induction ws generalizing a s with
  | nil => rfl
  | cons w ws ih => exact ih (a + 1) (s.setReg a w)

/-- A word of the snapshot slots of a die. -/
def slotWord (d a : Nat) : Prop := ∃ k < 8, ∃ i < 26, a = slotAddr16 d k i

/-- A die latches the words of a slot of one of its channels. -/
def latchSlot (ws : Nat → List Word) (d c : Nat) (s : Device) : Device :=
  setWords (fun a w u => u.setReg a w) (slotAddr16 d c 0) (ws c) s

section
variable {ws : Nat → List Word} (hws : ∀ c, (ws c).length = 26)
include hws

theorem reg_latchSlot (d c c' : Nat) {i : Nat} (hi : i < 26) (s : Device) :
    (latchSlot ws d c s).reg (slotAddr16 d c' i) = if c' = c then ((ws c)[i]?).getD 0 else s.reg (slotAddr16 d c' i) :=
  read_setWords_slot (put := fun a w u => u.setReg a w) (read := Device.reg) (fun a w t => t.reg_setReg_self a w)
    (fun _ _ w t h => t.reg_setReg_ne h w) hi (hws c) s

theorem regsOnly_latchSlot (d : Nat) {c : Nat} (hc : c < 8) (s : Device) : RegsOnly (slotWord d) s (latchSlot ws d c s) := by
  refine ⟨setWords_setReg_eq _ _ _, fun a ha => ?_⟩
  refine (read_setWords (put := fun a w u => u.setReg a w) (read := Device.reg) (fun a w t => t.reg_setReg_self a w)
    (fun _ _ w t h => t.reg_setReg_ne h w) _ _ _ _).trans (if_neg ?_)
  rw [hws]
  intro ⟨hlo, hhi⟩
  refine ha ⟨c, hc, a - slotAddr16 d c 0, by omega, ?_⟩
  unfold slotAddr16 dieAddr at hlo hhi ⊢
  omega

/-- The slots of a die latched, each word reads as given, and no other word changes. -/
theorem latchSlots_spec (d : Nat) (s : Device) : RegsOnly (slotWord d) s (s.each (List.range 8) (latchSlot ws d)) ∧
    ∀ k i, k < 8 → i < 26 → (s.each (List.range 8) (latchSlot ws d)).reg (slotAddr16 d k i) = ((ws k)[i]?).getD 0 := by
  refine ⟨each_keeps (I := RegsOnly (slotWord d) s) _ (regsOnly_refl (s := s) _) fun c hc t ht =>
    regsOnly_trans ht (regsOnly_latchSlot hws d (List.mem_range.mp hc) t), fun k i hk hi => ?_⟩
  have hslots := each_establishes (I := fun _ => True) (R := fun k t => ∀ i, i < 26 → t.reg (slotAddr16 d k i) = ((ws k)[i]?).getD 0)
    (f := latchSlot ws d) (s := s) (List.range 8) trivial (fun _ _ _ _ => trivial)
    (fun c _ t _ i hi => by rw [reg_latchSlot hws d c c hi, if_pos rfl])
    (fun c _ m t _ hm i hi => by
      rw [reg_latchSlot hws d c m hi]
      split_ifs with hmc
      · rw [hmc]
      · exact hm i hi)
  exact hslots k (List.mem_range.mpr hk) i hi

end

theorem snapLatch_eq {d f : Nat} {s : Device} (hup : (s.die d).up = true) (hhusk : (s.die d).husk = false) (hf : f = s.snap.bFrame) :
    snapLatch d f s = s.each (List.range 8) (latchSlot (slotWords s d) d) := by
  rw [snapLatch, if_pos (by simp [hup, hhusk, hf])]
  rfl

/-- A channel that is stopped has its gates low (R93). -/
theorem gl_stopChannel {g n : Nat} {s : Device} (hs : s.Canonical n) (hg : g < 64) : ((stopChannel g s).ch g).lp.gl = false := by
  unfold stopChannel
  split_ifs with hgl
  · have hlt : ∀ {t : Device}, t.Canonical n → g < t.chans.length := fun ht => by rw [ht.chans]; exact hg
    have hstop : (acirStopped g s).Canonical n := canonical_acirStopped g hs
    have hoff : (gatesOff g (acirStopped g s)).Canonical n := canonical_gatesOff g hstop
    rw [Device.modLp, Device.ch_modCh_self _ (hlt hoff)]
    simp only [gatesOff, idleFlags, Device.cset, Device.setReg_ch]
    rw [Device.modLp, Device.ch_modCh_self _ (hlt hstop)]
  · simpa using hgl

/-- Every channel of a die that the hand-over stops has its gates low, and no other channel changes (R307). -/
theorem stopChannels_spec {d n : Nat} {s : Device} (hs : s.Canonical n) (hd : d < 8) :
    (∀ g, g / 8 = d → ((s.each (chansOf d) stopChannel).ch g).lp.gl = false) ∧
      ∀ g, g / 8 ≠ d → (s.each (chansOf d) stopChannel).ch g = s.ch g := by
  have hlt : ∀ g ∈ chansOf d, g < 64 := fun g hg => by have := mem_chansOf.mp hg; omega
  have hother : ∀ g ∈ chansOf d, ∀ (h : Nat) (t : Device), h ≠ g → (stopChannel g t).ch h = t.ch h := fun g hg h t hh =>
    (only_stopChannel (Device.only_refl t (hlt g hg))).2.chans h hh
  have hgl := each_establishes (I := fun t => t.Canonical n) (R := fun g t => (t.ch g).lp.gl = false) (f := stopChannel) (chansOf d) hs
    (fun g _ t ht => canonical_stopChannel g ht) (fun g hg t ht => gl_stopChannel ht (hlt g hg))
    (fun g hg h t ht hh => by
      by_cases e : h = g
      · subst e; exact gl_stopChannel ht (hlt h hg)
      · rw [hother g hg h t e]; exact hh)
  refine ⟨fun g hg => hgl g (mem_chansOf.mpr hg), fun g hg => ?_⟩
  refine each_keeps (I := fun t => t.ch g = s.ch g) (f := stopChannel) (chansOf d) rfl fun h hh t ht => (hother h hh g t ?_).trans ht
  rintro rfl
  exact hg (mem_chansOf.mp hh)

/-! The commands of the broadcasts. -/

theorem exec_cellSnap (d : Die) (f : Nat) (intact : Bool) (s : State) :
    exec (.cellSnap d f intact) s = onDie d.val s (if intact then cellSnap d.val f else snapLost d.val f) := rfl
theorem exec_broadcastExecute (k : BcastKind) (s : State) : exec (.broadcastExecute k) s = onDev s (bcastExecute k) := rfl

/-- Settles O20: a cell of a broadcast, by whether it reaches its die, intact and in time; then what each kind does at its stamp. -/
theorem broadcastsActAtTheirStamp : Obligations.BroadcastsActAtTheirStamp := by
  intro s d f c hs hn hd
  have hlt : d.val < s.dev.dies.length := hs.die_lt d
  refine ⟨fun p hp => ?cell, fun p hp => ?lost, fun hr => ⟨fun b hb hsoon => ?snap, fun hf => ?snapLost, fun hf hslot => ?snapInvalid⟩,
    fun hr b => ?snapUnreached, fun hup => ⟨fun g hone => ?frame, fun g hone hsil => ?angle, fun hone hhusk => ?latch, fun hone => ?stop⟩,
    fun k hk hlate => ?idle⟩
  case cell =>
    -- the three cells with a stamp of their own differ in their kind alone
    obtain ⟨typ, hexec⟩ : ∃ typ, ∀ t, exec p.2 t = onDie d.val t (cellBcast p.1 typ d.val f c true) := by
      simp only [List.mem_cons, List.not_mem_nil, or_false] at hp
      rcases hp with rfl | rfl | rfl <;> exact ⟨_, fun _ => rfl⟩
    refine ⟨fun hr hsoon => ?_, fun hr hlate => ?_, fun hr => does_die (hexec s) hn (cellBcast_of_unreached hr true)⟩
    · refine does_die (hexec s) hn ?_
      rw [cellBcast_of_soon hr hsoon]
      refine ⟨heardUp_only _ hlt, fun k e f' c' => waits_bcastAdd p.1 k d.val e f f' c c' s.dev.bcast, ?_⟩
      rw [hexec]
      exact congrArg (fun t => Host.Outcome.next { s with dev := t }) ((if_pos hn).trans (cellBcast_again hr hsoon))
    · refine does_die (hexec s) hn ?_
      rw [cellBcast_of_late hr hlate]
      exact ⟨heardUp_only s.dev.bcast hlt, rfl⟩
  case lost =>
    obtain ⟨k, hexec⟩ : ∃ k, ∀ t, exec p.2 t = onDie d.val t (cellBcast k p.1 d.val f c false) := by
      simp only [List.mem_cons, List.not_mem_nil, or_false] at hp
      rcases hp with rfl | rfl | rfl <;> exact ⟨_, fun _ => rfl⟩
    exact ⟨fun hr => does_die (hexec s) hn (cellBcast_of_lost hr),
      fun hr => does_die (hexec s) hn (cellBcast_of_unreached hr false)⟩
  case snap =>
    refine does_die (exec_cellSnap d f true s) hn ?_
    rw [if_pos rfl, cellSnap_of_soon hr hb hsoon]
    exact ⟨heardUp_only _ hlt, (waits_bcastAdd .snap .snap d.val d.val b.frame b.frame b.clk b.clk s.dev.bcast).mpr
      (.inr ⟨rfl, rfl, rfl, rfl⟩)⟩
  case snapLost => exact does_die (exec_cellSnap d f false s) hn (snapLost_of_other hr hf)
  case snapInvalid =>
    refine does_die (exec_cellSnap d f false s) hn ?_
    rw [if_neg (by decide), snapLost_of_latest hr hf hslot]
    have hwaits : (logEvent Cat.link d.val 0x03 d.val 3 s.dev).snap.slots.contains d.val = true := by
      rw [(logged_logEvent _ _ _ _ _ _).1]
      exact hslot
    obtain ⟨hgone, hpart, hshadow⟩ := snapInvalid_of_waiting hd hwaits
    refine ⟨hgone, hpart, fun k i hk hi => ?_⟩
    rw [shd, hshadow]
    exact shd_invalidSlots d.val _ hk hi
  case snapUnreached => exact does_die (exec_cellSnap d f b s) hn (cellSnap_of_unreached hr b)
  case frame =>
    refine does_dev (exec_broadcastExecute _ s) ?_
    rw [bcastExecute_of_one hone, bcastAct_frame (s := s.dev.setBcast []) hd hup rfl]
    exact ⟨Device.die_modDie_self _ hlt _, dieOnly_modDie _ _ _⟩
  case angle =>
    refine does_dev (exec_broadcastExecute _ s) ?_
    rw [bcastExecute_of_one hone, bcastAct_angle (s := s.dev.setBcast []) hd hlt hup rfl hsil]
    exact ⟨dieOnly_modDie _ _ _, Device.die_modDie_self _ hlt _⟩
  case latch =>
    refine does_dev (exec_broadcastExecute _ s) ?_
    rw [bcastExecute_of_one hone, (bcastAct_snap (s := s.dev.setBcast []) hd hup rfl).trans (snapLatch_eq hup hhusk rfl)]
    exact latchSlots_spec (fun c => by simp [slotWords]) d.val _
  case stop =>
    refine does_dev (exec_broadcastExecute _ s) ?_
    rw [bcastExecute_of_one hone, bcastAct_stop (s := s.dev.setBcast []) hup rfl rfl]
    have hcanon : (s.dev.setBcast []).Canonical s.dev.nDies :=
      ⟨hs.canonical.regs, hs.canonical.shadow, hs.canonical.force, hs.canonical.flash, hs.canonical.buf, rfl, hs.canonical.chans,
        hs.canonical.dies, hs.canonical.ring, hs.canonical.posting⟩
    exact stopChannels_spec hcanon d.isLt
  case idle => exact does_dev (exec_broadcastExecute k s) (bcastExecute_of_none hk hlate)

end Sys2Proof.Machine
end

section
/-! Proofs of the family of the architecture: the words that cells carry (O21). -/

namespace Sys2Proof.Machine

/-! The commands of the cells, as the dispatch carries them out. -/

theorem exec_cellWrite (d : Die) (s : State) : exec (.cellWrite d) s = onDie d.val s (cellWrite d.val) := rfl
theorem exec_cellRead (d : Die) (a : Addr) (s : State) : exec (.cellRead d a) s = onDie d.val s (cellRead d.val a.toNat) := rfl
theorem exec_cellResp (d : Die) (s : State) : exec (.cellResp d) s = onDie d.val s (cellResp d.val) := rfl
theorem exec_cellShadow (a : Addr) (s : State) : exec (.cellShadow a) s = onDev s (cellShadow a.toNat) := rfl
theorem exec_cellGroup (d : Die) (s : State) : exec (.cellGroup d) s = onDie d.val s (cellGroup d.val) := rfl
theorem exec_cellLedger (d : Die) (s : State) : exec (.cellLedger d) s = onDie d.val s (cellLedger d.val) := rfl

/-! A cell takes the port's next SEQ and waits (R19). -/

/-- A die once a cell for it waits to be acknowledged. -/
def DieSt.waitsDown (clk typ : Nat) (c : CellLoad) (x : DieSt) : DieSt := { x with link := { x.link with
  seq := (x.link.seq + 1) % 8, wait := x.link.wait ++ [⟨typ, decide (clk < 2), x.link.seq, c, 0⟩] } }

/-- A die once a cell of its own waits to be acknowledged. -/
def DieSt.waitsUp (typ : Nat) (c : CellLoad) (x : DieSt) : DieSt := { x with link := { x.link with
  upSeq := (x.link.upSeq + 1) % 8, upWait := x.link.upWait ++ [⟨typ, false, x.link.upSeq, c, 0⟩] } }

/-- A die both sides of whose port have been heard, with the oldest cell of its port acknowledged. -/
def DieSt.answered (now : Nat) (x : DieSt) : DieSt := { x with link := { x.link with
  wait := [], upWait := if x.link.wait = [] then [] else x.link.upWait
  heardAt := some now, silent := false, upHeardAt := some now } }

section
variable {d typ : Nat} {s : Device}

/-- A change of a die depends on what the die is alone. -/
theorem modDie_const (hlt : d < s.dies.length) (f : DieSt → DieSt) : s.modDie d f = s.modDie d fun _ => f (s.die d) := by
  refine congrArg (fun l => ({ s with dies := l } : Device)) (List.ext_getElem? fun e => ?_)
  rw [List.getElem?_modify, List.getElem?_modify]
  split_ifs with he
  · subst he
    simp [Device.die, hlt]
  · rfl

theorem any_seq_eq_false {l : List Cell} {q : Nat} (h : ∀ c ∈ l, c.seq ≠ q) : (l.any fun c => c.seq == q) = false :=
  List.any_eq_false.mpr fun c hc => by simpa using h c hc

theorem sentDown_eq (hlt : d < s.dies.length) (hfree : ∀ c ∈ (s.die d).link.wait, c.seq ≠ (s.die d).link.seq) (c : CellLoad) :
    sentDown d typ c s = s.modDie d fun _ => (s.die d).waitsDown s.clk typ c := by
  refine (modDie_const hlt _).trans ?_
  simp only [any_seq_eq_false hfree, Bool.false_eq_true, if_false]
  rfl

theorem sentUp_eq (hd : d ≠ 0) (hlt : d < s.dies.length) (hfree : ∀ c ∈ (s.die d).link.upWait, c.seq ≠ (s.die d).link.upSeq)
    (c : CellLoad) : sentUp d typ c s = s.modDie d fun _ => (s.die d).waitsUp typ c := by
  rw [sentUp, if_neg hd]
  refine (modDie_const hlt _).trans ?_
  simp only [any_seq_eq_false hfree, Bool.false_eq_true, if_false]
  rfl

/-- A die that is set to a value has it, and nothing else changes. -/
theorem sends_modDie (hlt : d < s.dies.length) (y : DieSt) :
    (s.modDie d fun _ => y).die d = y ∧ DieOnly d noWord s (s.modDie d fun _ => y) :=
  ⟨Device.die_modDie_self _ hlt _, dieOnly_modDie _ _ _⟩

end

/-! WRITE (R18, R23). -/

section
variable {d a : Nat} {w : Word} {s : Device}

theorem cellWrite_of_none (h : ∀ p ∈ s.host.posting, ownerOf p.1 ≠ d) : cellWrite d s = s := by
  have hnone : (s.host.posting.find? fun p => ownerOf p.1 == d) = none := List.find?_eq_none.mpr fun p hp => by simpa using h p hp
  rw [cellWrite, hnone]

theorem cellWrite_of_recovering (h : (s.die d).recov.active = true) : cellWrite d s = s := by
  unfold cellWrite lostDie
  cases s.host.posting.find? fun p => ownerOf p.1 == d <;> simp [h]

section
variable (ho : s.host.posting.find? (fun p => ownerOf p.1 == d) = some (a, w)) (hrec : (s.die d).recov.active = false)
include ho hrec

/-- A word for a die that is lost is gone, and HUSK_EVT is set (R416, R417). -/
theorem cellWrite_of_lost (h0 : (s.die 0).up = true) (hlost : (s.die d).up = false ∨ (s.die d).link.failed = true) :
    cellWrite d s = (unpost a w s).pset HOST_STAT_HUSK_EVT 1 := by
  have hdie : lostDie (s.die d) = true := by rcases hlost with h | h <;> simp [lostDie, hrec, h]
  simp only [cellWrite, ho, h0, hdie, Bool.and_self, if_true]

theorem cellWrite_of_reached (hr : reaches s d = true) (hf : (s.die d).link.failed = false) :
    cellWrite d s = if sending s d 6 then s else sentDown d 6 (.word a w) s := by
  have hup : (s.die d).up = true := by
    simp only [reaches, Bool.and_eq_true] at hr
    exact hr.1.2
  have hdie : lostDie (s.die d) = false := by simp [lostDie, hup, hf]
  simp only [cellWrite, ho, hdie, hr, hrec, Bool.and_false, Bool.false_eq_true, if_false, Bool.not_false, Bool.and_true,
    Bool.true_and, Bool.not_eq_true']
  cases sending s d 6 <;> simp

end
end

/-! READ and RESP (R18, R26). -/

section
variable {d a : Nat} {s : Device}

theorem cellRead_of_credit (hr : reaches s d = true) (hcredit : (s.reads.filter fun p => p.1 == d).length < 4) :
    cellRead d a s = sentDown d 7 (.ask a) (s.setBulk (s.reads ++ [(d, a)]) s.resps) := by
  rw [cellRead, if_pos]
  simp [hr, hcredit]

theorem cellRead_of_refused (h : reaches s d = false ∨ 4 ≤ (s.reads.filter fun p => p.1 == d).length) : cellRead d a s = s := by
  rw [cellRead, if_neg]
  rcases h with h | h
  · simp [h]
  · simp [show ¬ (s.reads.filter fun p => p.1 == d).length < 4 by omega]

theorem cellResp_of_oldest {before rest : List (Nat × Nat)} (hreads : s.reads = before ++ (d, a) :: rest)
    (hbefore : ∀ p ∈ before, p.1 ≠ d) (ha : arrives s d = true) (hwait : (s.die d).link.wait = []) (hs : sendingUp s d 0xA = false) :
    cellResp d s = sentUp d 0xA (.answer a (bulkWord s a)) (bulkSpent s) := by
  have hnone : (before.find? fun p => p.1 == d && !sendingUp s d 0xA) = none :=
    List.find?_eq_none.mpr fun p hp => by simp [hbefore p hp]
  have holdest : (s.reads.find? fun p => p.1 == d && !sendingUp s d 0xA) = some (d, a) := by
    rw [hreads, List.find?_append, hnone, Option.none_or, List.find?_cons_of_pos]
    simp [hs]
  simp only [cellResp, holdest, ha, hwait, List.any_nil, Bool.not_false, Bool.and_self, if_true]

end

/-! SHADOW, GROUP and LEDGER cells (R18, R23 to R25, R426). -/

section
variable {d : Nat} {s : Device} (ha : arrives s d = true)
include ha

theorem cellShadow_of_arrives {a : Nat} (hd : d ≠ 0) (hn : d < s.nDies) (ho : ownerOf a = d) :
    cellShadow a s = sentUp d 8 (.shadow a (liveWord s a) (groupSource s a)) s := by
  subst ho
  rw [cellShadow, if_pos]
  simp [hd, hn, ha]

theorem cellGroup_of_arrives (hd : d ≠ 0) : cellGroup d s = sentUp d 9 .commit s := if_pos ⟨hd, ha⟩

theorem cellLedger_of_entry {e : LedgerEnt} {l : List LedgerEnt} (hd : d ≠ 0) (hs : sendingUp s d 0xB = false)
    (hl : (s.die d).staging = e :: l) (hdrop : (s.die d).stagingDrop = 0) : cellLedger d s = sentUp d 0xB (.entry e) s := by
  simp [cellLedger, hd, ha, hs, hl, hdrop]

theorem cellLedger_of_drops (hd : d ≠ 0) (hs : sendingUp s d 0xB = false) (hdrop : 0 < (s.die d).stagingDrop) :
    cellLedger d s = sentUp d 0xB (.drops (s.die d).stagingDrop) s := by
  simp [cellLedger, hd, ha, hs, hdrop]

end

theorem cellLedger_of_idle {d : Nat} {s : Device} (h : arrives s d = false ∨ sendingUp s d 0xB = true ∨
    (s.die d).staging = [] ∧ (s.die d).stagingDrop = 0) : cellLedger d s = s := by
  rcases h with h | h | ⟨hl, hdrop⟩
  · simp [cellLedger, h]
  · simp [cellLedger, h]
  · simp [cellLedger, hl, hdrop]

/-! A cell acts when it is acknowledged (R19). -/

/-- The device with its dies replaced. -/
abbrev Device.setDies (s : Device) (ds : List DieSt) : Device := { s with dies := ds }

/-- The oldest cell of a port whose die both hears and is heard. -/
def AwaitsAck (s : Device) (d : Nat) (down : Bool) (c : Cell) : Prop := reaches s d = true ∧ arrives s d = true ∧ c.seq < 8 ∧
  if down then (s.die d).link.wait = [c] else (s.die d).link.wait = [] ∧ (s.die d).link.upWait = [c]

/-- The cell acts on a device that differs from the one before in the die of its port alone. -/
theorem does_ack {d : Die} {s : State} {down : Bool} {c : Cell} {P : Device → Prop} (hs : Sound s) (hn : d.val < s.dev.nDies)
    (hd : d.val ≠ 0) (hc : AwaitsAck s.dev d.val down c)
    (h : ∀ ds : List DieSt, d.val < ds.length →
      s.dev.setDies ds = s.dev.modDie d.val (fun _ => (s.dev.die d.val).answered s.dev.now) → (s.dev.setDies ds).die d.val = (s.dev.die d.val).answered s.dev.now →
      P (cellAct d.val c.load (s.dev.setDies ds))) :
    Does (.cellAck d (BitVec.ofNat 3 c.seq)) s P := by
  have hlt : d.val < s.dev.dies.length := hs.die_lt d
  obtain ⟨hr, ha, hseq, hwait⟩ := hc
  have hq : (BitVec.ofNat 3 c.seq).toNat = c.seq := by rw [BitVec.toNat_ofNat]; omega
  have hact : ∀ f : Link → Link, { s.dev.die d.val with link := f (s.dev.die d.val).link } = (s.dev.die d.val).answered s.dev.now →
      P (cellAct d.val c.load (s.dev.modLink d.val f)) := fun f hf =>
    h (s.dev.modLink d.val f).dies (by simpa [Device.modLink] using hlt) ((modDie_const hlt _).trans (by rw [hf])) ((Device.die_modDie_self s.dev hlt _).trans hf)
  refine does_die (exec_cellAck d _ s) hn ?_
  rw [hq]
  cases down with
  | true =>
    simp only [if_true] at hwait
    rw [cellAck_of_down hd ⟨hr, ha⟩ (c := c) (by simp [hwait])]
    exact hact _ (by simp [DieSt.answered, Link.heardBoth, hwait])
  | false =>
    simp only [Bool.false_eq_true, if_false] at hwait
    obtain ⟨hdown, hup⟩ := hwait
    rw [cellAck_of_up hd ⟨hr, ha⟩ (c := c) (by simp [hdown]) (by simp [hup])]
    exact hact _ (by simp [DieSt.answered, Link.heardBoth, hdown, hup])

theorem dieBlock_of_owner {a : Nat} (h : ownerOf a ≠ 0) : dieBlock a = true := by
  unfold ownerOf at h
  unfold dieBlock
  split <;> rename_i heq <;> simp_all

/-- A word acts on its die as a write, or sets HUSK_EVT where the die takes none (R23, R416, R417). -/
theorem deliver_of_quiet {a : Nat} {w : Word} {s : Device} (h0 : ownerOf a ≠ 0) (ho : ownerOf a < s.nDies)
    (hup : (s.die (ownerOf a)).up = true) (hquiet : Quiet s (ownerOf a)) : deliver a w s =
      if pkgState s ≤ Pkg.load ∨ (s.die (ownerOf a)).husk = true then s.pset HOST_STAT_HUSK_EVT 1 else writeWord a w s := by
  simp only [deliver, ho, hup, bcastFirst_of_quiet s hquiet, writeBarred, dieBlock_of_owner h0, decide_true, Bool.not_true,
    Bool.false_eq_true, if_false, Bool.true_and, Bool.or_eq_true, decide_eq_true_eq]

/-! The shadow file (R24, R25). -/

theorem shadowTaken_spec {a : Nat} (h : (rowAt a).isSome = true) (w g : Word) (s : Device) :
    let t := shadowTaken a w g s
    t = { s with shadow := t.shadow, stage := t.stage } ∧ shd t a = merge (groupMask a) w (shd s a) ∧
      (∀ b, b ≠ a → shd t b = shd s b) ∧ (groupMask a = 0 → t.stage = s.stage) ∧ (groupMask a ≠ 0 → rfFind a t.stage = some g) := by
  simp only [shadowTaken, h, if_true]
  split_ifs with hg
  · exact ⟨rfl, shd_setShd_self a _ s, fun b hb => shd_setShd_ne hb _ s, fun _ => rfl, fun h => absurd hg h⟩
  · exact ⟨rfl, shd_setShd_self a _ s, fun b hb => shd_setShd_ne hb _ s, fun h => absurd h hg, fun _ => rfFind_put_self _ _ _⟩

/-- The staged words of a list stand in the shadow file. -/
def shadowStaged (l : RegFile) (s : Device) : Device := l.foldl (fun t p => setShd p.1 (merge (groupMask p.1) (shd t p.1) p.2) t) s

theorem shadowStaged_only (l : RegFile) (s : Device) : shadowStaged l s = { s with shadow := (shadowStaged l s).shadow } := by
  induction l generalizing s with
  | nil => rfl
  | cons p l ih => exact ih _

theorem shd_shadowStaged_other {l : RegFile} {b : Nat} (h : ∀ q ∈ l, q.1 ≠ b) (s : Device) : shd (shadowStaged l s) b = shd s b := by
  induction l generalizing s with
  | nil => rfl
  | cons p l ih =>
    exact (ih (fun q hq => h q (List.mem_cons_of_mem _ hq)) _).trans (shd_setShd_ne (h p List.mem_cons_self).symm _ s)

/-- The bits outside the group of a word are as they were, whatever of it is staged. -/
theorem shd_shadowStaged_ungrouped (l : RegFile) (b : Nat) (s : Device) :
    shd (shadowStaged l s) b &&& ~~~(groupMask b) = shd s b &&& ~~~(groupMask b) := by
  induction l generalizing s with
  | nil => rfl
  | cons p l ih =>
    refine (ih _).trans ?_
    by_cases hb : b = p.1
    · subst hb
      rw [shd_setShd_self, merge]
      generalize groupMask _ = m
      generalize shd s _ = x
      ext i
      simp
      grind
    · rw [shd_setShd_ne hb]

theorem shd_shadowStaged_last {b : Nat} {w : Word} {before after : RegFile} (h : ∀ q ∈ after, q.1 ≠ b) (s : Device) :
    shd (shadowStaged (before ++ (b, w) :: after) s) b &&& groupMask b = w &&& groupMask b := by
  have hsplit : shadowStaged (before ++ (b, w) :: after) s = shadowStaged after
      (setShd b (merge (groupMask b) (shd (shadowStaged before s) b) w) (shadowStaged before s)) := by
    simp only [shadowStaged, List.foldl_append, List.foldl_cons]
  rw [hsplit, shd_shadowStaged_other h, shd_setShd_self, merge]
  generalize groupMask b = m
  ext i
  simp
  grind

theorem groupTaken_of_no_slot {d : Nat} {s : Device} (h : s.snap.slots.contains d = false) :
    groupTaken d s = shadowStaged (s.stage.filter fun p => ownerOf p.1 == d) { s with stage := s.stage.filter fun p => ownerOf p.1 != d } := by
  have hgroup : groupCell d s = shadowStaged (s.stage.filter fun p => ownerOf p.1 == d)
      { s with stage := s.stage.filter fun p => ownerOf p.1 != d } := rfl
  have hslot : (groupCell d s).snap.slots.contains d = false := by
    rw [hgroup, shadowStaged_only]
    exact h
  have hcommit : snapCommit d (groupCell d s) = groupCell d s := if_neg (by rw [hslot]; decide)
  rw [groupTaken, hcommit, ← hgroup]
  exact ite_self _

/-! The ring (R426, R429). -/

theorem pget_irqLatch {k : Fld .pkg} (hk : k.off ≠ 6) (cat die obj : Nat) (s : Device) : (irqLatch cat die obj s).pget k = s.pget k := by
  rw [irqLatch, Device.pget_pset_apart _ _ _ _ (.inl hk), Device.pget_pset_apart _ _ _ _ (.inl hk), Device.pget_pset_apart _ _ _ _ (.inl hk)]

theorem pget_irqSource {k : Fld .pkg} (hk : k.off ≠ 6) (cat die obj : Nat) (s : Device) : (irqSource cat die obj s).pget k = s.pget k := by
  unfold irqSource
  split_ifs
  · rw [pget_of_regs (t := Device.setIrqAt _ _) (Device.setIrqAt_regs _ _), Device.pget_pset_apart _ _ _ _ (.inl hk), Device.pget_pset_apart _ _ _ _ (.inl hk),
      pget_irqLatch hk]
  · rw [Device.pinc, Device.pget_pset_apart _ _ _ _ (.inl hk), pget_irqLatch hk]
  · rw [Device.pinc, Device.pget_pset_apart _ _ _ _ (.inl hk)]

/-- An interrupt changes no word but IRQ_STATUS and IRQ_SOURCE. -/
theorem pget_setIrq {k : Fld .pkg} (h4 : k.off ≠ 4) (h6 : k.off ≠ 6) (cat die obj : Nat) (s : Device) :
    (setIrq cat die obj s).pget k = s.pget k := by
  have hset : ∀ w, (s.setReg 4 w).pget k = s.pget k := fun w => by
    rw [Device.pget, Device.pget, Device.reg_setReg_ne s h4]
  unfold setIrq
  dsimp only
  split_ifs
  · rfl
  · exact hset _
  · rw [pget_irqSource h6, hset]

theorem ledger_pset (f : Fld .pkg) (v : Nat) (s : Device) : (s.pset f v).ledger = s.ledger := by rw [Device.pset, Device.setReg_ledger]

theorem ledger_irqLatch (cat die obj : Nat) (s : Device) : (irqLatch cat die obj s).ledger = s.ledger := by
  simp only [irqLatch, ledger_pset]

theorem ledger_setIrq (cat die obj : Nat) (s : Device) : (setIrq cat die obj s).ledger = s.ledger := by
  have hsource : ∀ t, (irqSource cat die obj t).ledger = t.ledger := fun t => by
    unfold irqSource
    split_ifs
    · rw [Device.setIrqAt_ledger, ledger_pset, ledger_pset, ledger_irqLatch]
    · rw [Device.pinc, ledger_pset, ledger_irqLatch]
    · rw [Device.pinc, ledger_pset]
  unfold setIrq
  dsimp only
  split_ifs
  · rfl
  · exact Device.setReg_ledger _ _ _
  · rw [hsource, Device.setReg_ledger]

theorem ringTakes_spec {e : LedgerEnt} {s : Device} (h : s.pget LEDGER_STAT_COUNT < 64) :
    (ringTakes e s).ledger = s.ledger.set (s.pget LEDGER_STAT_WR) e ∧
      (ringTakes e s).pget LEDGER_STAT_COUNT = s.pget LEDGER_STAT_COUNT + 1 := by
  have hcount : ∀ t : Device, (t.pset LEDGER_STAT_COUNT (s.pget LEDGER_STAT_COUNT + 1)).pget LEDGER_STAT_COUNT =
      s.pget LEDGER_STAT_COUNT + 1 := fun t => by
    rw [Device.pget_pset_self _ _ _ (by decide)]
    exact Nat.mod_eq_of_lt (show _ < 2 ^ 7 by omega)
  unfold ringTakes
  dsimp only
  split_ifs
  · exact ⟨by simp only [ledger_pset], by
      rw [Device.pget_pset_apart _ _ _ _ (by decide), Device.pget_pset_apart _ _ _ _ (by decide), hcount]⟩
  · exact ⟨by simp only [ledger_pset], hcount _⟩

/-- An entry goes to the ring with the next SEQ and the states of the package and the line (R426). -/
theorem ledgerPut_spec {e : LedgerEnt} {s : Device} (h : s.pget LEDGER_STAT_COUNT < 64) :
    (ledgerPut e s).ledger = s.ledger.set (s.pget LEDGER_STAT_WR)
        { e with seq := s.pget LEDGER_NEXT_SEQ, pkg := pkgState s, line := lineState s } ∧
      (ledgerPut e s).pget LEDGER_STAT_COUNT = s.pget LEDGER_STAT_COUNT + 1 := by
  have happart : ∀ (k : Fld .pkg) (v : Nat), k.off ≠ 0xA5 → (s.pset LEDGER_NEXT_SEQ v).pget k = s.pget k := fun k v hk =>
    Device.pget_pset_apart _ _ _ _ (.inl hk)
  have hcount : (s.pset LEDGER_NEXT_SEQ (s.pget LEDGER_NEXT_SEQ + 1)).pget LEDGER_STAT_COUNT < 64 := by
    rw [happart _ _ (by decide)]; exact h
  obtain ⟨hledger, hnext⟩ := ringTakes_spec (e := { e with seq := s.pget LEDGER_NEXT_SEQ, pkg := pkgState s, line := lineState s }) hcount
  have heq : ledgerPut e s = setCat Cat.ledger (ringTakes { e with seq := s.pget LEDGER_NEXT_SEQ, pkg := pkgState s, line := lineState s }
      (s.pset LEDGER_NEXT_SEQ (s.pget LEDGER_NEXT_SEQ + 1))) := by
    simp only [ledgerPut, if_neg (show ¬ 64 ≤ _ from Nat.not_le.mpr hcount), ledgerWrite_eq, pkgState, lineState,
      happart PKG_STATE_STATE _ (by decide), happart LINE_STAT_STATE _ (by decide)]
  rw [heq, setCat, ledger_setIrq, pget_setIrq (by decide) (by decide), hledger, hnext, happart _ _ (by decide), happart _ _ (by decide),
    ledger_pset]
  exact ⟨rfl, rfl⟩

/-- The drop count of a die is added to the lead die's, and the numbers of the entries dropped are spent (R426). -/
theorem dropsTaken_spec (d n : Nat) (s : Device) :
    RegsOnly (· = 0xA5) (s.modDie d fun x => { x with stagingDrop := x.stagingDrop - n }) (dropsTaken d n s) ∧
      (dropsTaken d n s).pget LEDGER_DROPPED = min (s.pget LEDGER_DROPPED + n) 65535 ∧
      (dropsTaken d n s).pget LEDGER_NEXT_SEQ = (s.pget LEDGER_NEXT_SEQ + n) % 65536 := by
  unfold dropsTaken
  refine ⟨⟨rfl, fun a ha => ?_⟩, ?_, ?_⟩
  · exact (Device.reg_setReg_ne _ ha _).trans (Device.reg_setReg_ne _ ha _)
  · rw [Device.pget_pset_apart _ _ _ _ (by decide), Device.pget_pset_self _ _ _ (by decide)]
    exact Nat.mod_eq_of_lt (show _ < 2 ^ 16 by omega)
  · rw [Device.pget_pset_self _ _ _ (by decide)]
    rfl

/-- Settles O21: each cell by what waits for it and whether it reaches its end; then what each word does when its cell is
acknowledged. -/
theorem cellsCarryWords : Obligations.CellsCarryWords := by
  intro s d hs hn hd
  have hlt : d.val < s.dev.dies.length := hs.die_lt d
  refine ⟨fun a w ho hr hrec hf => ⟨fun hsend hfree => ?write, fun hsend => ?writeWaits⟩, fun a w ho h0 hrec hlost => ?lost,
    fun h => ?writeNone, fun c a w hc hload ho hup hquiet => ?word, fun a hr hcredit hfree => ?read, fun a h => ?readRefused,
    fun a before rest hreads hbefore ha hwait hsend hfree => ?resp, fun c a w hc hload => ?answer, fun a ho ha hfree => ?shadow,
    fun c a w g hc hload hrow => ?shadowed, fun ha hfree => ?group, fun c hc hload hslot => ?commit,
    fun ha hsend hfree => ⟨fun e l hl hdrop => ?entry, fun hdrop => ?drops⟩, fun h => ?ledgerIdle, fun c e hc hload hcount => ?entered,
    fun c n hc hload => ?dropped⟩
  case write =>
    refine does_die (exec_cellWrite d s) hn ?_
    rw [cellWrite_of_reached ho hrec hr hf, hsend, if_neg (by decide), sentDown_eq hlt hfree]
    exact sends_modDie hlt _
  case writeWaits =>
    refine does_die (exec_cellWrite d s) hn ?_
    rw [cellWrite_of_reached ho hrec hr hf, hsend, if_pos rfl]
  case lost =>
    refine does_die (exec_cellWrite d s) hn ?_
    rw [cellWrite_of_lost ho hrec h0 hlost]
    exact ⟨rfl, ⟨rfl, fun b hb => Device.reg_setReg_ne _ hb _⟩, Device.reg_setReg_self _ _ _⟩
  case writeNone =>
    exact does_die (exec_cellWrite d s) hn (h.elim cellWrite_of_none cellWrite_of_recovering)
  case word =>
    refine does_ack hs hn hd hc fun ds _ hmod hdie => ?_
    have hpost : (unpost a w (s.dev.setDies ds)).die (ownerOf a) = (s.dev.die d.val).answered s.dev.now := by rw [ho]; exact hdie
    rw [hload, cellAct, deliver_of_quiet (by rw [ho]; exact hd) (by rw [ho]; exact hn) (by rw [hpost]; exact hup)
      (by rw [ho]; exact hquiet), hpost]
    exact congrArg (fun t => if pkgState s.dev ≤ Pkg.load ∨ (s.dev.die d.val).husk = true then
      (unpost a w t).pset HOST_STAT_HUSK_EVT 1 else writeWord a w (unpost a w t)) hmod
  case read =>
    refine does_die (exec_cellRead d a s) hn ?_
    have hreads : ∀ l : List (Nat × Nat), sentDown d.val 7 (.ask a.toNat) (s.dev.setBulk l s.dev.resps) =
        (s.dev.setBulk l s.dev.resps).modDie d.val fun _ => (s.dev.die d.val).waitsDown s.dev.clk 7 (.ask a.toNat) := fun l =>
      sentDown_eq (s := s.dev.setBulk l s.dev.resps) hlt hfree _
    rw [cellRead_of_credit hr hcredit, hreads]
    exact ⟨rfl, Device.die_modDie_self (s.dev.setBulk _ s.dev.resps) hlt _, rfl,
      fun e he => Device.die_modDie_ne (s.dev.setBulk _ s.dev.resps) he _⟩
  case readRefused => exact does_die (exec_cellRead d a s) hn (cellRead_of_refused h)
  case resp =>
    refine does_die (exec_cellResp d s) hn ?_
    rw [cellResp_of_oldest hreads hbefore ha hwait hsend, sentUp_eq (s := bulkSpent s.dev) hd hlt hfree]
    exact ⟨Device.die_modDie_self (bulkSpent s.dev) hlt _, rfl⟩
  case answer =>
    refine does_ack hs hn hd hc fun ds _ _ hdie => ?_
    rw [hload]
    exact ⟨hdie, rfl, rfl, rfl⟩
  case shadow =>
    refine does_dev (exec_cellShadow a s) ?_
    rw [cellShadow_of_arrives ha hd hn ho, sentUp_eq hd hlt hfree]
    exact sends_modDie hlt _
  case shadowed =>
    refine does_ack hs hn hd hc fun ds _ _ hdie => ?_
    rw [hload]
    obtain ⟨honly, hself, hother, hkept, hstaged⟩ := shadowTaken_spec hrow w g (s.dev.setDies ds)
    refine ⟨?_, ?_, hself, hother, hkept, hstaged⟩
    · conv_lhs => rw [cellAct, honly]
      conv_rhs => rw [cellAct, honly]
    · rw [cellAct, honly]
      exact hdie
  case group =>
    refine does_die (exec_cellGroup d s) hn ?_
    rw [cellGroup_of_arrives ha hd, sentUp_eq hd hlt hfree]
    exact sends_modDie hlt _
  case commit =>
    refine does_ack hs hn hd hc fun ds _ _ hdie => ?_
    rw [hload, cellAct, groupTaken_of_no_slot (s := s.dev.setDies ds) hslot]
    have honly := shadowStaged_only (s.dev.stage.filter fun p => ownerOf p.1 == d.val)
      { s.dev.setDies ds with stage := s.dev.stage.filter fun p => ownerOf p.1 != d.val }
    refine ⟨(congrArg (fun t => Device.die t d.val) honly).trans hdie, ?_, congrArg Device.stage honly,
      fun b w before after hmine hafter => ⟨?_, shd_shadowStaged_ungrouped _ _ _⟩, fun b hb => shd_shadowStaged_other hb _⟩
    · exact honly.trans (by rw [congrArg Device.stage honly, congrArg Device.dies honly])
    · exact (congrArg (fun l => shd (shadowStaged l _) b &&& groupMask b) hmine).trans (shd_shadowStaged_last hafter _)
  case entry =>
    refine does_die (exec_cellLedger d s) hn ?_
    rw [cellLedger_of_entry ha hd hsend hl hdrop, sentUp_eq hd hlt hfree]
    exact sends_modDie hlt _
  case drops =>
    refine does_die (exec_cellLedger d s) hn ?_
    rw [cellLedger_of_drops ha hd hsend hdrop, sentUp_eq hd hlt hfree]
    exact sends_modDie hlt _
  case ledgerIdle => exact does_die (exec_cellLedger d s) hn (cellLedger_of_idle h)
  case entered =>
    refine does_ack hs hn hd hc fun ds hlt' _ hdie => ?_
    rw [hload, cellAct, entryTaken]
    have honly := eventOnly_ledgerPut e ((s.dev.setDies ds).modDie d.val fun x => { x with staging := x.staging.tail })
    obtain ⟨hledger, hnext⟩ := ledgerPut_spec (e := e)
      (s := (s.dev.setDies ds).modDie d.val fun x => { x with staging := x.staging.tail }) hcount
    refine ⟨?_, hledger, hnext, honly.2⟩
    rw [honly.1]
    exact (Device.die_modDie_self (s.dev.setDies ds) hlt' _).trans (by rw [hdie]; rfl)
  case dropped =>
    refine does_ack hs hn hd hc fun ds hlt' _ hdie => ?_
    rw [hload, cellAct]
    obtain ⟨⟨honly, hregs⟩, hdropped, hnext⟩ := dropsTaken_spec d.val n (s.dev.setDies ds)
    refine ⟨?_, ⟨?_, hregs⟩, hdropped, hnext⟩
    · rw [honly]
      exact (Device.die_modDie_self (s.dev.setDies ds) hlt' _).trans (by rw [hdie]; rfl)
    · exact honly.trans (by rw [congrArg Device.dies honly]; rfl)

end Sys2Proof.Machine
end

section
/-! Proofs of the family of the architecture: what the stop of a die leaves of the dies, their leases and a few words. -/

namespace Sys2Proof.Machine

/-! The footing of a device: what a stop of a die changes of its own alone. -/

/-- How a die stands: up, under its step engines, its recovery, and the latch of ship mode. -/
def DieSt.stand (x : DieSt) : Bool × Bool × Recov × Bool := (x.up, x.ctl, x.recov, x.glean.shipLatch)

/-- The words of a footing: AUX_CTL, RECOV_STAT, DIE_WDT of each die, and CH_LEASE of each channel, of which LSTATE counts. -/
def footWord (a : Nat) : Bool :=
  a == 0x33 || a == 0xD2 || (decide (0x2000 ≤ a ∧ a < 0x3000) && a % 0x200 == 0x50) || (decide (0x4000 ≤ a) && a % 0x80 == 3)

/-- What a footing keeps of one of its words. -/
def footPart (a : Nat) (w : Word) : Nat := if a < 0x4000 then w.toNat else CH_LEASE_LSTATE.get w

/-- The dies, leases and words that the parts of a stop leave as they are. -/
structure Footing where
  size : Nat × Nat × Nat
  stand : Nat → Bool × Bool × Recov × Bool
  husk : Nat → Bool
  huskAll : Bool
  lease : Nat → Lease
  word : Nat → Nat

def footing (s : Device) : Footing where
  size := (s.nDies, s.dies.length, s.chans.length)
  stand d := (s.die d).stand
  husk d := (s.die d).husk
  huskAll := s.pins.huskAll
  lease g := (s.ch g).lease
  word a := if footWord a then footPart a (s.reg a) else 0

section
variable {s t : Device}

theorem footing_of (hn : t.nDies = s.nDies ∧ t.dies.length = s.dies.length ∧ t.chans.length = s.chans.length) (hd : ∀ d, (t.die d).stand = (s.die d).stand ∧ (t.die d).husk = (s.die d).husk)
    (hp : t.pins.huskAll = s.pins.huskAll) (hl : ∀ g, (t.ch g).lease = (s.ch g).lease)
    (hw : ∀ a, footWord a = true → footPart a (t.reg a) = footPart a (s.reg a)) : footing t = footing s := by
  obtain ⟨hn, hdies, hchans⟩ := hn
  unfold footing
  rw [hn, hdies, hchans, hp]
  congr 1
  · exact funext fun d => (hd d).1
  · exact funext fun d => (hd d).2
  · exact funext hl
  · exact funext fun a => ite_congr rfl (hw a) fun _ => rfl

theorem diesLength_of_footing (h : footing t = footing s) : t.dies.length = s.dies.length := congrArg (fun F => F.size.2.1) h
theorem chansLength_of_footing (h : footing t = footing s) : t.chans.length = s.chans.length := congrArg (fun F => F.size.2.2) h
theorem stand_of_footing (h : footing t = footing s) (d : Nat) : (t.die d).stand = (s.die d).stand :=
  congrFun (congrArg Footing.stand h) d
theorem husk_of_footing (h : footing t = footing s) (d : Nat) : (t.die d).husk = (s.die d).husk :=
  congrFun (congrArg Footing.husk h) d
theorem lease_of_footing (h : footing t = footing s) (g : Nat) : (t.ch g).lease = (s.ch g).lease :=
  congrFun (congrArg Footing.lease h) g

theorem part_of_footing (h : footing t = footing s) {a : Nat} (ha : footWord a = true) : footPart a (t.reg a) = footPart a (s.reg a) := by
  have := congrFun (congrArg Footing.word h) a
  simpa only [footing, ha, if_true] using this

theorem reg_of_footing (h : footing t = footing s) {a : Nat} (ha : footWord a = true) (hlow : a < 0x4000) : t.reg a = s.reg a := by
  have := part_of_footing h ha
  rw [footPart, footPart, if_pos hlow, if_pos hlow] at this
  exact BitVec.eq_of_toNat_eq this

theorem leaseSt_of_part {g : Nat} (h : footPart (chAddr g 3) (t.reg (chAddr g 3)) = footPart (chAddr g 3) (s.reg (chAddr g 3))) :
    leaseSt t g = leaseSt s g := by
  rw [footPart, footPart, if_neg (by unfold chAddr; omega), if_neg (by unfold chAddr; omega)] at h
  exact h

theorem footWord_lease (g : Nat) : footWord (chAddr g 3) = true := by
  unfold footWord chAddr
  simp
  omega

theorem leaseSt_of_word (h : (footing t).word = (footing s).word) (g : Nat) : leaseSt t g = leaseSt s g := by
  have := congrFun h (chAddr g 3)
  exact leaseSt_of_part (by simpa only [footing, footWord_lease, if_true] using this)

end

section
variable (s : Device)

theorem footing_setReg {a : Nat} (ha : footWord a = false) (w : Word) : footing (s.setReg a w) = footing s :=
  footing_of ⟨rfl, rfl, rfl⟩ (fun _ => ⟨rfl, rfl⟩) rfl (fun _ => rfl) fun b hb => by
    rw [Device.reg_setReg_ne s (fun e => by rw [e, ha] at hb; cases hb) w]

theorem footing_modDie (d : Nat) {f : DieSt → DieSt} (hf : ∀ x, (f x).stand = x.stand ∧ (f x).husk = x.husk) :
    footing (s.modDie d f) = footing s :=
  footing_of ⟨rfl, List.length_modify .., rfl⟩ (fun e => ⟨proj_die_modDie DieSt.stand (fun x => (hf x).1) d e, proj_die_modDie DieSt.husk (fun x => (hf x).2) d e⟩)
    rfl (fun _ => rfl) fun _ _ => rfl

theorem footing_modCh (g : Nat) {f : Chan → Chan} (hf : ∀ x, (f x).lease = x.lease) : footing (s.modCh g f) = footing s := by
  refine footing_of ⟨rfl, rfl, List.length_modify ..⟩ (fun _ => ⟨rfl, rfl⟩) rfl (fun h => ?_) fun _ _ => rfl
  unfold Device.ch Device.modCh
  rw [List.getElem?_modify]
  split <;> cases s.chans[h]? <;> simp [hf]

theorem footing_each (ns : List Nat) {f : Nat → Device → Device} (hf : ∀ n ∈ ns, ∀ t, footing (f n t) = footing t) :
    footing (s.each ns f) = footing s :=
  each_keeps (I := fun t => footing t = footing s) (f := f) ns rfl fun n hn t ht => (hf n hn t).trans ht

theorem footing_foldl {α : Type} (l : List α) {f : Device → α → Device} (hf : ∀ t a, footing (f t a) = footing t) :
    footing (l.foldl f s) = footing s := by
  induction l generalizing s with
  | nil => rfl
  | cons a l ih => exact (ih _).trans (hf s a)

theorem footing_dset (d : Nat) (f : Fld .die) (v : Nat) (h : f.off % 0x80 ≠ 3 ∧ f.off < 0x200 ∧ f.off ≠ 0x50) :
    footing (s.dset d f v) = footing s := by
  refine footing_setReg s ?_ _
  unfold footWord dieAddr
  simp
  omega

theorem footing_dinc (d : Nat) (f : Fld .die) (h : f.off % 0x80 ≠ 3 ∧ f.off < 0x200 ∧ f.off ≠ 0x50) :
    footing (s.dinc d f) = footing s := footing_dset s d f _ h

theorem footing_cset (g : Nat) (f : Fld .ch) (v : Nat) (h : f.off % 0x80 ≠ 3) : footing (s.cset g f v) = footing s := by
  refine footing_setReg s ?_ _
  unfold footWord chAddr
  simp
  omega

theorem footing_pset (f : Fld .pkg) (v : Nat) (h : footWord f.off = false) : footing (s.pset f v) = footing s := footing_setReg s h _
theorem footing_pinc (f : Fld .pkg) (h : footWord f.off = false) : footing (s.pinc f) = footing s := footing_setReg s h _
theorem footing_psetBit (f : Fld .pkg) (i : Nat) (b : Bool) (h : footWord f.off = false) : footing (s.psetBit f i b) = footing s :=
  footing_setReg s h _

theorem footing_vset (v : Nat) (f : Fld .die) (n : Nat) (h : 0x10 < f.off ∧ f.off < 0x40) : footing (vset v f n s) = footing s := by
  refine footing_dset s _ _ _ ?_
  show (f.off + v % 4) % 0x80 ≠ 3 ∧ f.off + v % 4 < 0x200 ∧ f.off + v % 4 ≠ 0x50
  omega

@[simp] theorem footing_modSup (f : Supply → Supply) : footing (s.modSup f) = footing s := (rfl)
@[simp] theorem footing_modMon (f : Mon → Mon) : footing (modMon f s) = footing s := (rfl)
@[simp] theorem footing_modPulse (n : Nat) (f : Pulse → Pulse) : footing (modPulse n f s) = footing s := (rfl)
@[simp] theorem footing_modNvm (f : Nvm → Nvm) : footing (s.modNvm f) = footing s := (rfl)
@[simp] theorem footing_modHost (f : HostPort → HostPort) : footing (s.modHost f) = footing s := (rfl)
@[simp] theorem footing_setBulk (l : List (Nat × Nat)) (m : List (Nat × Word)) : footing (s.setBulk l m) = footing s := (rfl)
@[simp] theorem footing_spend (n : Nat) : footing (s.spend n) = footing s := (rfl)
@[simp] theorem footing_nextFree : footing s.nextFree = footing s := (rfl)
@[simp] theorem footing_clearRun : footing s.clearRun = footing s := (rfl)

theorem footing_modGlean (d : Nat) {f : Glean → Glean} (hf : ∀ x, (f x).shipLatch = x.shipLatch) : footing (s.modGlean d f) = footing s :=
  footing_modDie s d fun x => ⟨by simp only [DieSt.stand, hf], rfl⟩

@[simp] theorem footing_modLp (g : Nat) (f : Loop → Loop) : footing (s.modLp g f) = footing s := footing_modCh s g fun _ => rfl
@[simp] theorem footing_modAcc (g : Nat) (f : Acc → Acc) : footing (s.modAcc g f) = footing s := footing_modCh s g fun _ => rfl
@[simp] theorem footing_modEng (g : Nat) (f : Eng → Eng) : footing (s.modEng g f) = footing s := footing_modCh s g fun _ => rfl
@[simp] theorem footing_modConv (g : Nat) (f : Conv → Conv) : footing (s.modConv g f) = footing s := footing_modCh s g fun _ => rfl
@[simp] theorem footing_modCoil (v : Nat) (f : Coil → Coil) : footing (modCoil v f s) = footing s := footing_modDie s _ fun _ => ⟨rfl, rfl⟩

/-! Events. -/

/-- An event leaves the footing. -/
theorem footing_of_logged {t : Device} (h : EventOnly s t) : footing t = footing s := by
  refine footing_of ?_ (fun d => ?_) ?_ (fun g => ?_) fun a ha => congrArg (footPart a) (h.2 a fun hmem => ?_)
  · rw [h.1]; exact ⟨rfl, rfl, rfl⟩
  · rw [h.1]; exact ⟨rfl, rfl⟩
  · rw [h.1]
  · rw [h.1]; rfl
  · simp only [eventWords, List.mem_cons, List.not_mem_nil, or_false] at hmem
    rcases hmem with rfl | rfl | rfl | rfl <;> exact absurd ha (by decide)

@[simp] theorem footing_setIrq (cat die obj : Nat) : footing (setIrq cat die obj s) = footing s :=
  footing_of_logged s (eventOnly_setIrq cat die obj s)
@[simp] theorem footing_setCat (cat : Nat) : footing (setCat cat s) = footing s := footing_setIrq s cat 0 0xFF

@[simp] theorem footing_logEvent (cat d code obj data : Nat) : footing (logEvent cat d code obj data s) = footing s := by
  unfold logEvent
  dsimp only
  split_ifs
  · rw [footing_of_logged _ (eventOnly_ledgerPut _ _), footing_setIrq]
  · rw [footing_modDie, footing_setIrq]
    intro x
    split_ifs <;> exact ⟨rfl, rfl⟩

/-! The parts of a stop (R130, R217, R291, R331, R343, R405). -/

@[simp] theorem footing_monEnd (trunc : Bool) : footing (monEnd trunc s) = footing s := by
  unfold monEnd
  dsimp only
  split_ifs
  · rfl
  all_goals
    rw [footing_logEvent, footing_modMon]
    simp (disch := decide) only [footing_pset, footing_pinc]

@[simp] theorem footing_bookPartial (d : Nat) : footing (bookPartial d s) = footing s := by
  unfold bookPartial
  split_ifs
  · have hcut : ∀ g t, footing (if (t.ch g).lp.gl then t.cset g EPOCH_STAT_CUT 1 else t) = footing t := fun g t => by
      split_ifs
      · exact footing_cset _ _ _ _ (by decide)
      · rfl
    rw [footing_modDie]
    · exact footing_each _ _ fun g _ t => (hcut g _).trans (by rw [footing_modAcc, footing_nextFree])
    · exact fun _ => ⟨rfl, rfl⟩
  · rfl

@[simp] theorem footing_plsBook (late : Bool) (g : Nat) (v : Conv) (a a' : Acc) : footing (plsBook late g v a a' s) = footing s :=
  footing_each s _ fun n _ t => by simp [apply_ite footing]

/-- A word of a pulse output is none of a footing. -/
theorem footWord_pulse {f : Fld .pkg} {n : Nat} (hf : f.off = 0x83) (hn : n ∈ List.range 4) : footWord (f.at (4 * n)).off = false := by
  have hn := List.mem_range.mp hn
  show footWord (f.off + 4 * n) = false
  rw [hf]
  interval_cases n <;> rfl

@[simp] theorem footing_plsDieStop (d : Nat) (recovery : Bool) : footing (plsDieStop d recovery s) = footing s :=
  footing_each s _ fun n hn t => by
    dsimp only
    split_ifs
    · rw [footing_modPulse, footing_pset _ _ _ (footWord_pulse rfl hn)]
    · rw [footing_modPulse]
    · rfl

@[simp] theorem footing_plsCut : footing (plsCut s) = footing s :=
  footing_each s _ fun n hn t => by
    split_ifs
    · rw [footing_pset _ _ _ (footWord_pulse rfl hn), footing_modPulse]
    · rfl

@[simp] theorem footing_otpEnd (result : Nat) (aborted : Bool) : footing (otpEnd result aborted s) = footing s := by
  have hotp : ∀ (t : Device) c, footing { t with otp := c } = footing t := fun _ _ => rfl
  unfold otpEnd
  simp (disch := decide) [apply_ite footing, footing_pset, hotp]

@[simp] theorem footing_otpCutShort : footing (otpCutShort s) = footing s := by
  unfold otpCutShort
  dsimp only
  split_ifs
  · rw [footing_otpEnd]
  · rw [footing_otpEnd, footing_modDie, footing_spend]
    exact fun _ => ⟨rfl, rfl⟩
  · rfl

@[simp] theorem footing_retCommit (d : Nat) : footing (retCommit d s) = footing s := by
  unfold retCommit
  split_ifs
  · exact footing_modGlean s d fun _ => rfl
  · rfl

@[simp] theorem footing_stopBooks (recovery : Bool) (d : Nat) : footing (stopBooks recovery d s) = footing s := by
  have hbooks : ∀ t : Device, footing (t.each (chansOf d) fun g u =>
      plsBook recovery g (s.ch g).conv (s.ch g).acc (u.ch g).acc u) = footing t := fun t =>
    footing_each t _ fun _ _ u => footing_plsBook u _ _ _ _ _
  unfold stopBooks
  simp [apply_ite footing, hbooks]

@[simp] theorem footing_gatesOff (g : Nat) : footing (gatesOff g s) = footing s := by
  unfold gatesOff idleFlags
  dsimp only
  rw [footing_cset _ _ _ _ (by decide), footing_setReg, footing_modLp]
  unfold footWord chAddr
  simp
  omega

/-! Valves in husk (R282, R291). -/

@[simp] theorem footing_bankRow (d : Nat) : footing (bankRow d s) = footing s := by
  have hnode : ∀ (t : Device) (p : Nat → Device → Nat), footing (t.each (bankValves d) fun v u => vset v VALVE_STAT_VBST_NODE (p v u) u) =
      footing t := fun t p => footing_each t _ fun _ _ u => footing_vset u _ _ _ (by decide)
  have hsrc : ∀ n, footing (s.modDie d fun x => { x with srcAt := some n }) = footing s := fun n => footing_modDie s d fun _ => ⟨rfl, rfl⟩
  unfold bankRow
  cases (bankValves d).filter fun v => phaseOf s v == Ph.pull <;>
    simp (disch := decide) [apply_ite footing, hnode, hsrc, footing_dset]

@[simp] theorem footing_setValvePhase (p v : Nat) : footing (setValvePhase p v s) = footing s := by
  simp (disch := decide) [setValvePhase, footing_vset]

@[simp] theorem footing_bankPending (d : Nat) : footing (bankPending d s) = footing s := by
  have hpending : ∀ (t : Device) (p : Nat → Nat), footing (t.each (bankValves d) fun v u => vset v VALVE_STAT_PENDING (p v) u) =
      footing t := fun t p => footing_each t _ fun _ _ u => footing_vset u _ _ _ (by decide)
  unfold bankPending
  simp (disch := decide) [apply_ite footing, hpending, footing_dset]

@[simp] theorem footing_vreqDrop (r : VReq) : footing (vreqDrop r s) = footing s := footing_bankPending _ _

@[simp] theorem footing_reseatRefused (g : Nat) : footing (reseatRefused g s) = footing s := by
  simp [reseatRefused, apply_ite footing]

@[simp] theorem footing_valveRefuse (code v pt : Nat) (seat : Option Nat) : footing (valveRefuse code v pt seat s) = footing s := by
  unfold valveRefuse
  cases seat <;> simp (disch := decide) [apply_ite footing, footing_vset, footing_dinc, footing_pset]

@[simp] theorem footing_valvesHusk (d : Nat) : footing (valvesHusk d s) = footing s := by
  refine (footing_foldl _ _ fun t r => ?_).trans (footing_each _ _ fun v _ t => ?_)
  · rw [vreqRefuse, footing_valveRefuse, footing_vreqDrop]
  · simp [apply_ite footing]

@[simp] theorem footing_benchBaton (on : Bool) (d : Nat) : footing (benchBaton on d s) = footing s :=
  footing_psetBit s _ _ _ (by decide)

/-! The flash of the lead die, and the run of a tally (R349, R356, R369). -/

@[simp] theorem footing_modFlash (f : List (Nat × Byte) → List (Nat × Byte)) : footing (modFlash f s) = footing s := (rfl)

@[simp] theorem footing_flashCut : footing (flashCut s) = footing s := by
  unfold flashCut
  split <;> simp

@[simp] theorem footing_nvmStop : footing (nvmStop s) = footing s := by
  unfold nvmStop
  dsimp only
  split <;> simp

@[simp] theorem footing_runCode (code : Nat) : footing (runCode code s) = footing s := by
  simp (disch := decide) [runCode, footing_pset]

@[simp] theorem footing_runStop (code : Nat) : footing (runStop code s) = footing s := by
  have hrun : footing { s with run := .reset } = footing s := rfl
  simp (disch := decide) [runStop, apply_ite footing, footing_pset, hrun]

@[simp] theorem footing_stopLead (recovery : Bool) (d : Nat) : footing (stopLead recovery d s) = footing s := by
  have hpins : ∀ t : Device, footing (t.modPins fun p => { p with converter := false }) = footing t := fun _ => rfl
  unfold stopLead
  split_ifs
  · rw [footing_clearRun, hpins, footing_nvmStop]
  · exact footing_runStop _ _
  · rfl

@[simp] theorem footing_publishDies : footing (publishDies s) = footing s := by
  refine (footing_each _ _ fun d _ t => footing_dset t _ _ _ (by decide)).trans ?_
  rw [footing_pset _ _ _ (by decide), footing_pset _ _ _ (by decide)]

end

end Sys2Proof.Machine
end

section
/-! Proofs of the family of the architecture: the stop of a die, and of all dies. -/

namespace Sys2Proof.Machine

/-! What the maps of the dies show (R32, R33). -/

section
variable {s : Device}

theorem regsOnly_publishDies (s : Device) : RegsOnly (fun a => a = 2 ∨ 0x2000 ≤ a) s (publishDies s) := by
  refine each_keeps (I := RegsOnly (fun a => a = 2 ∨ 0x2000 ≤ a) s) _ ?_ fun d _ t ht => regsOnly_trans ht ?_
  · exact regsOnly_trans (t := s.setReg 2 _) ⟨rfl, fun a ha => Device.reg_setReg_ne s (fun e => ha (.inl e)) _⟩
      ⟨rfl, fun a ha => Device.reg_setReg_ne _ (fun e => ha (.inl e)) _⟩
  · refine ⟨rfl, fun a ha => Device.reg_setReg_ne t (fun e => ha (.inr ?_)) _⟩
    rw [e, dieAddr]
    omega

/-- A die in recovery shows in DIES_HUSK (R32). -/
theorem diesHusk_publishDies {d : Nat} (hd : d < s.nDies) (h8 : s.nDies ≤ 8) (hrec : (s.die d).recov.active = true) :
    ((publishDies s).pget PKG_STATE_DIES_HUSK).testBit d = true := by
  have hreg : (publishDies s).pget PKG_STATE_DIES_HUSK = ((s.pset PKG_STATE_DIES_RUN (dieMap s dieRuns)).pset PKG_STATE_DIES_HUSK
      (dieMap (s.pset PKG_STATE_DIES_RUN (dieMap s dieRuns)) fun x => (s.pbit IMAGE_STAT_VALID && !x.hasDie) || x.link.badIndex ||
        x.link.failed || x.recov.active || x.recov.benched)).pget PKG_STATE_DIES_HUSK := by
    refine each_keeps (I := fun t => t.pget PKG_STATE_DIES_HUSK = _) _ rfl fun e _ t ht => Eq.trans ?_ ht
    rw [Device.pget, Device.pget, Device.dset, Device.reg_setReg_ne]
    unfold dieAddr
    show (2 : Nat) ≠ _
    omega
  rw [hreg, Device.pget_pset_self _ _ _ (by decide), Nat.testBit_mod_two_pow, testBit_dieMap]
  have hdies : (s.pset PKG_STATE_DIES_RUN (dieMap s dieRuns)).die d = s.die d := by rw [Device.pset, Device.setReg_die]
  have hn : (s.pset PKG_STATE_DIES_RUN (dieMap s dieRuns)).nDies = s.nDies := by rw [Device.pset, Device.setReg_nDies]
  rw [hdies, hn, hrec]
  simp only [hd, decide_true, Bool.or_true, Bool.true_or, Bool.and_true, decide_eq_true_eq]
  show d < 8
  omega

end

/-! The stop of a die (R318, R331, R405). -/

/-- A footing once a die has stopped: a die that is up goes down, in husk and from its step engines. -/
def Footing.stopDie (d : Nat) (F : Footing) : Footing :=
  if (F.stand d).1 then
    { F with
      stand := fun e => if e = d then (false, false, (F.stand e).2.2) else F.stand e
      husk := fun e => if e = d then true else F.husk e }
  else F

section
variable {s : Device} {d : Nat}

theorem footing_downDie (hlt : d < s.dies.length) :
    footing (s.modDie d fun x => { x with up := false, husk := true, ctl := false, seeded := false }) =
      { footing s with
        stand := fun e => if e = d then (false, false, ((footing s).stand e).2.2) else (footing s).stand e
        husk := fun e => if e = d then true else (footing s).husk e } := by
  unfold footing
  congr 1
  · exact congrArg (fun n => (s.nDies, n, s.chans.length)) (List.length_modify ..)
  · funext e
    split_ifs with he
    · rw [he, Device.die_modDie_self _ hlt]
      rfl
    · rw [Device.die_modDie_ne _ he]
  · funext e
    split_ifs with he
    · rw [he, Device.die_modDie_self _ hlt]
    · rw [Device.die_modDie_ne _ he]

/-- The stop of a die is the stop of its footing. -/
theorem footing_mainStop (recovery : Bool) (hlt : d < s.dies.length) : footing (mainStop recovery d s) = (footing s).stopDie d := by
  have hgates : ∀ t : Device, footing (t.each (chansOf d) gatesOff) = footing t := fun t => footing_each t _ fun g _ u => footing_gatesOff u g
  cases hup : (s.die d).up with
  | false =>
    have hstand : ((footing s).stand d).1 = false := hup
    rw [mainStop, hup, Footing.stopDie, hstand]
    rfl
  | true =>
    have hstand : ((footing s).stand d).1 = true := hup
    rw [Footing.stopDie, if_pos hstand]
    simp only [mainStop, hup, Bool.not_true, Bool.false_eq_true, if_false, footing_publishDies, footing_stopLead]
    generalize hbase : Device.modGlean _ d (gleanStop _ _ _) = u
    have hu : footing u = footing s := by
      subst hbase
      refine (footing_modGlean _ d (f := gleanStop _ _ _) fun _ => rfl).trans ?_
      rw [footing_benchBaton, footing_valvesHusk, hgates, footing_stopBooks]
      split_ifs
      · rw [footing_monEnd]
      · rfl
    rw [footing_downDie (by rw [diesLength_of_footing hu]; exact hlt), hu]

/-- A stop of the lead die cuts the keeper converter off (R318). -/
theorem converter_mainStop_lead (recovery : Bool) (hup : (s.die 0).up = true) : (mainStop recovery 0 s).pins.converter = false := by
  simp only [mainStop, hup, Bool.not_true, Bool.false_eq_true, if_false, stopLead, if_true]
  rw [(regsOnly_publishDies _).1]
  rfl

end

/-! The stop of all dies (R308, R403). -/

/-- A footing in which some dies have gone down, in husk, and nothing else has changed but their step engines. -/
structure Footing.Stopped (F G : Footing) : Prop where
  size : G.size = F.size
  huskAll : G.huskAll = F.huskAll
  lease : G.lease = F.lease
  word : G.word = F.word
  kept : ∀ e, (G.stand e).2.2 = (F.stand e).2.2
  down : ∀ e, G.stand e = F.stand e ∧ G.husk e = F.husk e ∨ (G.stand e).1 = false ∧ G.husk e = true

theorem Footing.Stopped.refl (F : Footing) : F.Stopped F := ⟨rfl, rfl, rfl, rfl, fun _ => rfl, fun _ => .inl ⟨rfl, rfl⟩⟩

theorem Footing.Stopped.stopDie {F G : Footing} (h : F.Stopped G) (d : Nat) : F.Stopped (G.stopDie d) := by
  unfold Footing.stopDie
  split_ifs with hup
  · refine ⟨h.size, h.huskAll, h.lease, h.word, fun e => ?_, fun e => ?_⟩
    · refine Eq.trans ?_ (h.kept e)
      dsimp only
      split_ifs <;> rfl
    · by_cases he : e = d
      · exact .inr ⟨by simp [he], by simp [he]⟩
      · simpa [he] using h.down e
  · exact h

theorem Footing.stopDie_down (G : Footing) (d : Nat) : ((G.stopDie d).stand d).1 = false := by
  unfold Footing.stopDie
  split_ifs with hup
  · simp
  · simpa using hup

theorem Footing.stopDie_of_up {F : Footing} {d : Nat} (h : (F.stand d).1 = true) :
    ((F.stopDie d).stand d).2.1 = false ∧ (F.stopDie d).husk d = true := by
  rw [Footing.stopDie, if_pos h]
  simp

theorem Footing.stopDie_other (G : Footing) {d e : Nat} (h : e ≠ d) : (G.stopDie d).stand e = G.stand e := by
  unfold Footing.stopDie
  split_ifs with hup
  · exact if_neg h
  · rfl

theorem Footing.stopDie_stays {G : Footing} {e : Nat} (h : (G.stand e).1 = false) (d : Nat) : ((G.stopDie d).stand e).1 = false := by
  unfold Footing.stopDie
  split_ifs with hup
  · dsimp only
    split_ifs
    · rfl
    · exact h
  · exact h

/-- Each die of a list stops, and nothing else changes. -/
theorem stopEach_spec (recovery : Bool) (ds : List Nat) {s : Device} (hlt : ∀ d ∈ ds, d < s.dies.length) :
    (footing s).Stopped (footing (s.each ds (mainStop recovery))) ∧ (∀ d ∈ ds, ((s.each ds (mainStop recovery)).die d).up = false) ∧
      ∀ e ∉ ds, ((s.each ds (mainStop recovery)).die e).stand = (s.die e).stand := by
  have hstop : ∀ d ∈ ds, ∀ t, (footing s).Stopped (footing t) → footing (mainStop recovery d t) = (footing t).stopDie d := fun d hd t ht =>
    footing_mainStop recovery (by rw [show t.dies.length = s.dies.length from congrArg (fun n => n.2.1) ht.size]; exact hlt d hd)
  have hstopped : ∀ d ∈ ds, ∀ t, (footing s).Stopped (footing t) → (footing s).Stopped (footing (mainStop recovery d t)) := fun d hd t ht => by
    rw [hstop d hd t ht]
    exact ht.stopDie d
  refine ⟨each_keeps (I := fun t => (footing s).Stopped (footing t)) (f := mainStop recovery) ds (.refl _) hstopped, ?_, fun e he => ?_⟩
  · refine each_establishes (I := fun t => (footing s).Stopped (footing t)) (R := fun d t => (t.die d).up = false) (f := mainStop recovery)
      ds (.refl _) hstopped (fun d hd t ht => ?_) fun d hd e t ht he => ?_
    · exact (congrArg (fun F => (F.stand d).1) (hstop d hd t ht)).trans (Footing.stopDie_down _ d)
    · exact (congrArg (fun F => (F.stand e).1) (hstop d hd t ht)).trans (Footing.stopDie_stays he d)
  · refine (each_keeps (I := fun t => (footing s).Stopped (footing t) ∧ (t.die e).stand = (s.die e).stand) (f := mainStop recovery) ds
      ⟨.refl _, rfl⟩ fun d hd t ht => ⟨hstopped d hd t ht.1, ?_⟩).2
    refine (congrArg (fun F => F.stand e) (hstop d hd t ht.1)).trans ((Footing.stopDie_other _ ?_).trans ht.2)
    rintro rfl
    exact he hd

theorem stopAll_spec {s : Device} (hlen : s.nDies ≤ s.dies.length) : (footing s).Stopped (footing (stopAll s)) ∧
    ∀ d, d < s.nDies → ((stopAll s).die d).up = false := by
  have h := stopEach_spec false s.dieList.reverse (s := s) fun d hd => by
    have := List.mem_range.mp (List.mem_reverse.mp hd)
    omega
  exact ⟨h.1, fun d hd => h.2.1 d (List.mem_reverse.mpr (List.mem_range.mpr hd))⟩

end Sys2Proof.Machine
end

section
/-! Proofs of the family of the architecture: what the flash of the lead die and the fetch of sections leave of the dies. -/

namespace Sys2Proof.Machine

/-! Words loaded from the flash (R35 to R40, R54). -/

/-- A mask of loads that leaves the words of a footing, but for the fields of CH_LEASE below LSTATE. -/
def LeavesFooting (m : Nat → Word) : Prop := ∀ a, footWord a = true → m a = 0 ∨ (0x4000 ≤ a ∧ m a = 15#32)

theorem footWord_cases {a : Nat} (h : footWord a = true) : a = 0x33 ∨ a = 0xD2 ∨ (∃ d, locate a = some (.die, d, 0x50)) ∨
    0x4000 ≤ a ∧ ((∃ g, locate a = some (.ch, g, 3)) ∨ locate a = none) := by
  simp only [footWord, Bool.or_eq_true, Bool.and_eq_true, beq_iff_eq, decide_eq_true_eq] at h
  rcases h with ((h | h) | ⟨⟨hlo, hhi⟩, hmod⟩) | ⟨hlo, hmod⟩
  · exact .inl h
  · exact .inr (.inl h)
  · refine .inr (.inr (.inl ⟨(a - 0x2000) / 0x200, ?_⟩))
    rw [locate, if_neg (by omega), if_neg (by omega), if_pos hhi, show (a - 0x2000) % 0x200 = 0x50 by omega]
  · refine .inr (.inr (.inr ⟨hlo, ?_⟩))
    by_cases hhi : a < 0x6000
    · refine .inl ⟨(a - 0x4000) / 0x80, ?_⟩
      rw [locate, if_neg (by omega), if_neg (by omega), if_neg (by omega), if_neg (by omega), if_pos hhi,
        show (a - 0x4000) % 0x80 = 3 by omega]
    · exact .inr (by rw [locate, if_neg (by omega), if_neg (by omega), if_neg (by omega), if_neg (by omega), if_neg hhi])

theorem leavesFooting_iMask : LeavesFooting iMask := fun a ha => by
  rcases footWord_cases ha with rfl | rfl | ⟨d, hl⟩ | ⟨hlo, ⟨g, hl⟩ | hl⟩
  · exact .inl (by decide)
  · exact .inl (by decide)
  · exact .inl (by rw [iMask, rowAt, hl]; rfl)
  · exact .inr ⟨hlo, by rw [iMask, rowAt, hl]; rfl⟩
  · exact .inl (by rw [iMask, rowAt, hl])

theorem leavesFooting_rwpMask : LeavesFooting rwpMask := fun a ha => by
  rcases footWord_cases ha with rfl | rfl | ⟨d, hl⟩ | ⟨hlo, ⟨g, hl⟩ | hl⟩
  · exact .inl (by decide)
  · exact .inl (by decide)
  · exact .inl (by rw [rwpMask, rowAt, hl]; rfl)
  · exact .inr ⟨hlo, by rw [rwpMask, rowAt, hl]; rfl⟩
  · exact .inl (by rw [rwpMask, rowAt, hl])

theorem wordStored_footWord {a : Nat} (h : footWord a = true) (w : Word) : wordStored a w = w := by
  rcases footWord_cases h with rfl | rfl | ⟨d, hl⟩ | ⟨hlo, ⟨g, hl⟩ | hl⟩
  · rfl
  · rfl
  · rw [wordStored, hl]
    rfl
  · rw [wordStored, hl]
    rfl
  · rw [wordStored, hl]

/-- What a load below LSTATE leaves of CH_LEASE. -/
theorem leaseState_merge (x w : Word) : CH_LEASE_LSTATE.get (merge 15#32 x w) = CH_LEASE_LSTATE.get x := by
  have hshift : merge 15#32 x w >>> 4 = x >>> 4 := by
    ext i hi
    have hmask : (15#32).getLsbD (4 + i) = false := by
      rw [BitVec.getLsbD_ofNat, Nat.testBit_lt_two_pow (calc
        15 < 2 ^ 4 := by decide
        _ ≤ 2 ^ (4 + i) := Nat.pow_le_pow_right (by decide) (by omega)), Bool.and_false]
    simp only [merge, BitVec.getElem_ushiftRight, BitVec.getLsbD_or, BitVec.getLsbD_and, BitVec.getLsbD_not, hmask, Bool.not_false,
      Bool.and_true, Bool.and_false, Bool.or_false]
    by_cases h : 4 + i < 32
    · simp [h]
    · simp [BitVec.getLsbD_of_ge x (4 + i) (by omega)]
  have hnat : (merge 15#32 x w).toNat / 16 = x.toNat / 16 := by
    have := congrArg BitVec.toNat hshift
    simpa [BitVec.toNat_ushiftRight, Nat.shiftRight_eq_div_pow] using this
  show (merge 15#32 x w).toNat / 16 % _ = x.toNat / 16 % _
  rw [hnat]

section
variable (s : Device)

theorem footPart_merge {m : Nat → Word} (hm : LeavesFooting m) {a : Nat} (ha : footWord a = true) (w : Word) :
    footPart a (merge (m a) (s.reg a) w) = footPart a (s.reg a) := by
  rcases hm a ha with h | ⟨hlo, h⟩
  · rw [h, merge_zero]
  · rw [h, footPart, footPart, if_neg (by omega), if_neg (by omega), leaseState_merge]

/-- A word that keeps what a footing keeps of it leaves the footing. -/
theorem footing_setReg_part {a : Nat} {w : Word} (hw : footWord a = true → footPart a w = footPart a (s.reg a)) :
    footing (s.setReg a w) = footing s :=
  footing_of ⟨rfl, rfl, rfl⟩ (fun _ => ⟨rfl, rfl⟩) rfl (fun _ => rfl) fun b hb => by
    by_cases e : b = a
    · subst e
      rw [Device.reg_setReg_self, hw hb]
    · rw [Device.reg_setReg_ne s e]

@[simp] theorem footing_clampTest (v : Nat) : footing (clampTest v s) = footing s := by
  unfold clampTest
  dsimp only
  split_ifs
  · rw [footing_vset _ _ _ _ (by decide), footing_setReg]
    unfold footWord dieAddr
    simp
    omega
  · exact footing_vset _ _ _ _ (by decide)

@[simp] theorem footing_gleanRise : footing (gleanRise s) = footing s :=
  footing_each s _ fun d _ t => footing_modGlean t d fun _ => rfl

@[simp] theorem footing_afterStore (a : Nat) : footing (afterStore a s) = footing s := by
  unfold afterStore
  split
  · exact footing_each s _ fun v _ t => footing_clampTest t v
  · exact footing_gleanRise s
  · split_ifs
    · exact footing_clampTest s _
    · rfl
  · rfl

theorem footing_loadWord {m : Nat → Word} (hm : LeavesFooting m) (a : Nat) (w : Word) : footing (loadWord (m a) a w s) = footing s := by
  have hmerge : footing (s.setReg a (merge (m a) (s.reg a) w)) = footing s := footing_setReg_part s fun ha => footPart_merge s hm ha w
  have hstored : footing (s.setReg a (wordStored a (merge (m a) (s.reg a) w))) = footing s := footing_setReg_part s fun ha => by
    rw [wordStored_footWord ha]
    exact footPart_merge s hm ha w
  have hfields : footing (storeFields (m a) a w s) = footing s := by
    unfold storeFields
    dsimp only
    split_ifs
    · rfl
    · rw [footing_afterStore, hstored]
  unfold loadWord
  split
  · split_ifs
    · exact hmerge
    · exact hfields
  · split_ifs
    · rw [footing_afterStore, hstored]
    · exact hfields
  · exact hfields

@[simp] theorem footing_applyEntries (c : Section) (b : List Byte) : footing (applyEntries c b s) = footing s :=
  footing_foldl s _ fun t e => by
    split
    · exact footing_loadWord t leavesFooting_iMask _ _
    · rfl

/-! Sections and recipes (R36 to R38). -/

@[simp] theorem footing_sectionBad (typ die ch : Nat) : footing (sectionBad typ die ch s) = footing s := by
  unfold sectionBad
  simp (disch := decide) [apply_ite footing, footing_pset, footing_pinc]

@[simp] theorem footing_recipeBad (d id step : Nat) : footing (recipeBad d id step s) = footing s := footing_logEvent s _ _ _ _ _

theorem footing_countReject (c : Section) (w : Walk) : footing (countReject c w).dev = footing w.dev := footing_sectionBad _ _ _ _

theorem footing_takeSection (c : Section) (w : Walk) : footing (takeSection c w).dev = footing w.dev := by
  unfold takeSection
  dsimp only
  split
  · split_ifs
    · rw [footing_applyEntries, footing_modNvm]
    · exact footing_countReject c w
  · split_ifs
    · rfl
    · exact (footing_modDie _ _ (f := fun x => { x with hasDie := true, cache := putCache c x.cache }) fun _ => ⟨rfl, rfl⟩).trans
        (footing_applyEntries _ _ _)
    · exact footing_countReject c w
  · split_ifs
    · rfl
    · exact (footing_modDie _ _ (f := fun x => { x with hasChan := x.hasChan.set c.ch true, cache := putCache c x.cache })
        fun _ => ⟨rfl, rfl⟩).trans (footing_applyEntries _ _ _)
    · exact footing_countReject c w
  · split
    · rfl
    · exact (footing_each _ _ fun d _ t => footing_recipeBad t _ _ _).trans (footing_countReject c w)
  · split_ifs
    · rfl
    · exact footing_countReject c w
  · split_ifs
    · rfl
    · exact footing_countReject c w

theorem footing_doSection (c : Section) (w : Walk) : footing (doSection c w).dev = footing w.dev := by
  unfold doSection
  split_ifs
  · exact footing_pinc _ _ (by decide)
  · exact footing_countReject c w
  · rfl
  · exact footing_countReject c w
  · exact footing_takeSection c w

theorem footing_walk {α : Type} (l : List α) {f : Walk → α → Walk} (hf : ∀ w a, footing (f w a).dev = footing w.dev) (w : Walk) :
    footing (l.foldl f w).dev = footing w.dev := by
  induction l generalizing w with
  | nil => rfl
  | cons a l ih => exact (ih _).trans (hf w a)

@[simp] theorem footing_loadRecipes (all : List Recipe) (d : Nat) : footing (loadRecipes all d s) = footing s := by
  unfold loadRecipes
  refine (footing_foldl _ _ fun t r => ?_).trans (footing_modDie _ _ fun _ => ⟨rfl, rfl⟩)
  rw [footing_recipeBad, footing_sectionBad]

/-! A die settled (R54, R118). -/

@[simp] theorem footing_pinDie (d : Nat) : footing (pinDie d s) = footing s :=
  footing_foldl s _ fun t _ => footing_loadWord t leavesFooting_rwpMask _ _

@[simp] theorem footing_cacheDie (d : Nat) : footing (cacheDie d s) = footing s := footing_dset s _ _ _ (by decide)

theorem footing_dieWord {g off : Nat} (h : off < 0x20) (h3 : off ≠ 3) (w : Word) : footing (s.setReg (dieAddr g off) w) = footing s := by
  refine footing_setReg s ?_ _
  unfold footWord dieAddr
  simp
  omega

@[simp] theorem footing_resetLive (base : List Word) (g : Nat) : footing (resetLive base g s) = footing s := by
  unfold resetLive
  dsimp only
  rw [footing_dieWord _ (by omega) (by omega), footing_modConv]

@[simp] theorem footing_baseReset (g : Nat) : footing (baseReset g s) = footing s := by
  simp [baseReset, apply_ite footing]

@[simp] theorem footing_constLoad (g : Nat) : footing (constLoad g s) = footing s := by
  have hfix : ∀ (r : KReg) (f : Fld .ch), f.off % 0x80 ≠ 3 → ∀ t : Device, footing (if kAccepts t g r then t
      else ((t.setReg (chAddr g (kOff r)) (regDefault (chAddr g (kOff r)))).cset g f (f.get (regDefault (chAddr g 0x44)))).cset g
        EPOCH_STAT_KBAD 1) = footing t := fun r f hf t => by
    split_ifs
    · rfl
    · have hoff : kOff r % 0x80 ≠ 3 := by cases r <;> decide
      rw [footing_cset _ _ _ _ (by decide), footing_cset _ _ _ _ hf, footing_setReg]
      unfold footWord chAddr
      simp
      omega
  unfold constLoad
  dsimp only
  rw [hfix _ _ (by decide), hfix _ _ (by decide), hfix _ _ (by decide), hfix _ _ (by decide)]

@[simp] theorem footing_forceDie (d : Nat) : footing (forceDie d s) = footing s := (rfl)

@[simp] theorem footing_settleDie (d : Nat) : footing (settleDie d s) = footing s := by
  unfold settleDie
  dsimp only
  rw [footing_forceDie, footing_modDie]
  · refine footing_each s _ fun g _ t => ?_
    split_ifs <;> simp
  · exact fun _ => ⟨rfl, rfl⟩

end

/-! A device whose balls alone have changed: what a fetch of sections does to a footing. -/

def HuskOnly (s t : Device) : Prop := footing t = { footing s with husk := (footing t).husk }

theorem HuskOnly.of_eq {s t : Device} (h : footing t = footing s) : HuskOnly s t := by
  unfold HuskOnly
  rw [h]

theorem HuskOnly.trans {s t u : Device} (hst : HuskOnly s t) (htu : HuskOnly t u) : HuskOnly s u := by
  unfold HuskOnly at *
  conv_lhs => rw [htu, hst]

section
variable {s t : Device} (h : HuskOnly s t)
include h

theorem HuskOnly.size : (footing t).size = (footing s).size := by rw [show footing t = _ from h]
theorem HuskOnly.stand (d : Nat) : (t.die d).stand = (s.die d).stand := congrFun (congrArg Footing.stand h) d
theorem HuskOnly.lease (g : Nat) : (t.ch g).lease = (s.ch g).lease := congrFun (congrArg Footing.lease h) g
theorem HuskOnly.part {a : Nat} (ha : footWord a = true) : footPart a (t.reg a) = footPart a (s.reg a) := by
  have := congrFun (congrArg Footing.word h) a
  simpa only [footing, ha, if_true] using this

end

theorem huskOnly_modDie (d : Nat) {f : DieSt → DieSt} (hf : ∀ x, (f x).stand = x.stand) (s : Device) : HuskOnly s (s.modDie d f) := by
  unfold HuskOnly footing
  congr 1
  · exact congrArg (fun n => (s.nDies, n, s.chans.length)) (List.length_modify ..)
  · exact funext fun e => proj_die_modDie DieSt.stand hf d e

section
variable {d : Nat} (hd : d < 8)
include hd

theorem huskOnly_huskDie (s : Device) : HuskOnly s (huskDie d s) := by
  have hmap : footing (cfgMap d s) = footing s := by
    refine footing_setReg s ?_ _
    interval_cases d <;> rfl
  unfold huskDie
  dsimp only
  refine HuskOnly.trans ?_ (.of_eq (footing_publishDies _))
  refine HuskOnly.trans (.of_eq ?_) (huskOnly_modDie d (fun _ => ?_) _)
  · rw [footing_dset _ _ _ _ (by decide), hmap]
  · rfl

theorem huskOnly_dieSettled (s : Device) : HuskOnly s (dieSettled d s) := by
  unfold dieSettled
  have hcache : HuskOnly s (cacheDie d (pinDie d s)) := .of_eq (by rw [footing_cacheDie, footing_pinDie])
  refine (hcache.trans (huskOnly_huskDie hd _)).trans (.of_eq ?_)
  rw [footing_each _ _ fun v _ t => footing_clampTest t v, footing_settleDie]

theorem huskOnly_sectionFetch (s : Device) : HuskOnly s (sectionFetch d s) := by
  have hfetch : footing (s.modDie d fun x => { x with fetch := [] }) = footing s := footing_modDie s d fun _ => ⟨rfl, rfl⟩
  unfold sectionFetch
  dsimp only
  split_ifs
  · refine HuskOnly.trans (.of_eq ?_) (huskOnly_dieSettled hd _)
    exact (footing_walk _ (fun w k => footing_sectionBad _ _ _ _) _).trans hfetch
  · refine HuskOnly.trans (.of_eq ?_) (huskOnly_dieSettled hd _)
    exact (footing_loadRecipes _ _ _).trans ((footing_walk _ (fun w c => footing_doSection c w) _).trans hfetch)

end

/-- The queue fetches sections of the eight dies alone. -/
theorem fetch_of_nvmPick {s : Device} {d : Nat} (h : nvmPick s = some (.fetch d)) : d < 8 := by
  obtain ⟨k, -, hk⟩ := List.exists_of_findSome?_eq_some h
  split at hk
  · obtain ⟨e, he, hfound⟩ := List.exists_of_findSome?_eq_some hk
    split_ifs at hfound
    cases hfound
    exact List.mem_range.mp he
  · next o hnot => exact absurd hk (hnot d)

/-! The queue of the lead die's flash (R349 to R369, R464). -/

section
variable (s : Device)

@[simp] theorem footing_nvmCount : footing (nvmCount s) = footing s := footing_pset s _ _ (by decide)

@[simp] theorem footing_nvmTake (o : NvmOp) : footing (nvmTake o s) = footing s := by
  simp (disch := decide) [nvmTake, footing_pset]

@[simp] theorem footing_nvmFree : footing (nvmFree s) = footing s := by
  simp (disch := decide) [nvmFree, footing_pset]

@[simp] theorem footing_nvmPush (o : NvmOp) : footing (nvmPush o s) = footing s := by
  unfold nvmPush
  simp (disch := decide) [apply_ite footing, footing_pset]

@[simp] theorem footing_flashBegin (o : FlashOp) : footing (flashBegin o s) = footing s := footing_modNvm s _

@[simp] theorem footing_ckptKick : footing (ckptKick s) = footing s := by
  unfold ckptKick
  simp (disch := decide) [apply_ite footing, footing_pset]

@[simp] theorem footing_pinEnd (result : Nat) : footing (pinEnd result s) = footing s := by
  simp (disch := decide) [pinEnd, footing_pset]

@[simp] theorem footing_pinDone : footing (pinDone s) = footing s := by
  have hcache : ∀ (t : Device) (l : List Nat), footing (t.each l cachePins) = footing t := fun t l =>
    footing_each t l fun d _ u => footing_modDie u d fun _ => ⟨rfl, rfl⟩
  simp (disch := decide) [pinDone, hcache, footing_pset]

@[simp] theorem footing_pinKick : footing (pinKick s) = footing s := by
  simp [pinKick, apply_ite footing]

@[simp] theorem footing_ptEnd (result : Nat) : footing (ptEnd result s) = footing s := by
  simp (disch := decide) [ptEnd, footing_pset]

@[simp] theorem footing_ptStart (op addr len : Nat) : footing (ptStart op addr len s) = footing s := by
  unfold ptStart
  simp (disch := decide) [apply_ite footing, footing_pset]

@[simp] theorem footing_ringBest : footing (ringBest s) = footing s := footing_modNvm s _

@[simp] theorem footing_ckptInvalidate : footing (ckptInvalidate s) = footing s := by
  simp (disch := decide) [ckptInvalidate, footing_pset]

@[simp] theorem footing_ckptFail : footing (ckptFail s) = footing s := by
  simp (disch := decide) [ckptFail, footing_pset]

theorem huskOnly_nvmNext (k : Nat) : HuskOnly s (nvmNext k s) := by
  induction k generalizing s with
  | zero => exact .of_eq rfl
  | succ k ih =>
    rw [nvmNext]
    split
    · exact .of_eq rfl
    · split
      · exact .of_eq rfl
      · next o ho =>
        refine HuskOnly.trans (.of_eq (footing_nvmTake s o)) ?_
        cases o with
        | handover => exact .of_eq rfl
        | spare => exact .of_eq (footing_flashBegin _ _)
        | fetch d => exact (huskOnly_sectionFetch (fetch_of_nvmPick ho) _).trans (.trans (.of_eq (footing_nvmFree _)) (ih _))
        | ckpt => exact .of_eq (footing_ckptKick _)
        | pins => exact .of_eq (footing_pinKick _)
        | pt op a n => exact .trans (.of_eq (footing_ptStart _ op a n)) (ih _)

/-- The loss of the flash's stream leaves the dies as they stand (R367). -/
theorem huskOnly_nvmBatonLost : HuskOnly s (nvmBatonLost s) := by
  unfold nvmBatonLost
  split
  · exact .of_eq rfl
  · refine HuskOnly.trans (.of_eq ?_) (huskOnly_nvmNext _ 17)
    rw [footing_ckptFail, footing_logEvent, footing_pset _ _ _ (by decide)]

end

end Sys2Proof.Machine
end

section
/-! Proofs of the family of the architecture: KEEP, ship mode, resets, wakes and the package watchdog (O51). -/

namespace Sys2Proof.Machine

/-! The package state (R33). -/

theorem regsOnly_setPkgState (st : Nat) (s : Device) : RegsOnly (· = 2) s (setPkgState st s) :=
  ⟨rfl, fun _ h => (Device.reg_setReg_ne _ h _).trans (Device.reg_setReg_ne _ h _)⟩

theorem pkgState_setPkgState {st : Nat} (h : st < 16) (s : Device) : pkgState (setPkgState st s) = st := by
  rw [pkgState, setPkgState, Device.pget_pset_self _ _ _ (by decide)]
  exact Nat.mod_eq_of_lt h

/-- The state before stands in PREV. -/
theorem prev_setPkgState (st : Nat) (s : Device) : (setPkgState st s).pget PKG_STATE_PREV = pkgState s := by
  rw [setPkgState, Device.pget_pset_apart _ _ _ _ (by decide), Device.pget_pset_self _ _ _ (by decide)]
  exact Nat.mod_eq_of_lt (Nat.mod_lt _ (by decide))

/-! The dies as the rails go off (R302, R306). -/

/-- The footing of a device without its words: no write of a register changes it. -/
def body (s : Device) : Footing := { footing s with word := fun _ => 0 }

section
variable (s : Device)

theorem body_of_footing {t : Device} (h : footing t = footing s) : body t = body s := by rw [body, h]; rfl

@[simp] theorem body_setReg (a : Nat) (w : Word) : body (s.setReg a w) = body s := (rfl)
@[simp] theorem body_pset (f : Fld .pkg) (v : Nat) : body (s.pset f v) = body s := (rfl)
@[simp] theorem body_psetBit (f : Fld .pkg) (i : Nat) (b : Bool) : body (s.psetBit f i b) = body s := (rfl)
@[simp] theorem body_modSup (f : Supply → Supply) : body (s.modSup f) = body s := (rfl)
@[simp] theorem body_modSeq (f : Seq → Seq) : body (modSeq f s) = body s := (rfl)
@[simp] theorem body_modSar (d : Nat) (f : Sar → Sar) : body (s.modSar d f) = body s :=
  body_of_footing s (footing_modDie s d fun _ => ⟨rfl, rfl⟩)

@[simp] theorem body_railOff1 (r : Nat) : body (railOff1 r s) = body s := by simp [railOff1]

@[simp] theorem body_railOff (r : Nat) : body (railOff r s) = body s := by
  simp [railOff, depC, apply_ite body]

@[simp] theorem body_seqOff (set : List Nat) : body (seqOff set s) = body s := by
  unfold seqOff seqOffNext
  split
  · simp [seqEnd]
  · simp

/-- The rails that are on go off. -/
def railsOff (s : Device) : Device := allRails.foldl (fun t r => if auxOn t r then railOff r t else t) s

@[simp] theorem body_railsOff : body (railsOff s) = body s := by
  simp [railsOff, allRails, apply_ite body]

/-! Rails that are off (R302). -/

theorem supply_railOff (r : Nat) : (railOff r s).supply = s.supply := by
  have hone : ∀ r (t : Device), (railOff1 r t).supply = t.supply := fun r t => by
    rw [railOff1, Device.modSar, Device.modDie_supply, Device.psetBit, Device.pset, Device.setReg_supply, Device.pset,
      Device.setReg_supply]
  unfold railOff depC
  dsimp only
  split_ifs
  · rw [Device.pset, Device.setReg_supply, hone, hone]
  · rw [hone]
  · rw [hone]

theorem off_auxOnBit (r : Nat) : (auxOnBit r).off = 0x33 := by unfold auxOnBit; split_ifs <;> rfl

theorem pget_modSar (d : Nat) (f : Sar → Sar) (k : Fld .pkg) : (s.modSar d f).pget k = s.pget k := rfl

theorem auxOn_railOff1 (r k : Nat) : auxOn (railOff1 r s) k = auxOn (s.pset (auxOnBit r) 0) k := by
  unfold auxOn Device.pbit railOff1
  rw [pget_modSar, Device.psetBit, Device.pget_pset_apart _ _ _ _ (.inl (by rw [off_auxOnBit]; decide))]

theorem auxOn_railOff1_self (r : Nat) : auxOn (railOff1 r s) r = false := by
  have hbit : (auxOnBit r).lo ≤ (auxOnBit r).hi ∧ (auxOnBit r).hi < 32 := by unfold auxOnBit; split_ifs <;> decide
  rw [auxOn_railOff1, auxOn, Device.pbit, Device.pget_pset_self _ _ _ hbit, Nat.zero_mod]
  rfl

/-- The bits of two rails are one bit or lie apart. -/
theorem auxOnBit_apart (r k : Nat) : auxOnBit k = auxOnBit r ∨ Device.Apart (auxOnBit r) (auxOnBit k) := by
  have hmem : ∀ r, auxOnBit r ∈ [AUX_CTL_ON_A, AUX_CTL_ON_B, AUX_CTL_ON_C] := fun r => by unfold auxOnBit; split_ifs <;> decide
  have happart : ∀ f ∈ [AUX_CTL_ON_A, AUX_CTL_ON_B, AUX_CTL_ON_C], ∀ k ∈ [AUX_CTL_ON_A, AUX_CTL_ON_B, AUX_CTL_ON_C],
      k = f ∨ Device.Apart f k := by decide
  exact happart _ (hmem r) _ (hmem k)

section
variable {s} {k : Nat} (h : auxOn s k = false)
include h

theorem auxOn_railOff1_off (r : Nat) : auxOn (railOff1 r s) k = false := by
  rcases auxOnBit_apart r k with e | e
  · rw [auxOn, e]
    exact auxOn_railOff1_self s r
  · rw [auxOn_railOff1, auxOn, Device.pbit, Device.pget_pset_apart _ _ _ _ e]
    exact h

theorem auxOn_depC_off : auxOn (depC s) k = false := by
  unfold depC
  split_ifs
  · rw [auxOn, Device.pbit, Device.pget_pset_apart _ _ _ _ (.inl (by rw [off_auxOnBit]; decide))]
    exact auxOn_railOff1_off h 2
  · exact h

/-- A rail that is off stays off as another goes off. -/
theorem auxOn_railOff_off (r : Nat) : auxOn (railOff r s) k = false := by
  unfold railOff
  dsimp only
  split_ifs
  · exact auxOn_depC_off (auxOn_railOff1_off h r)
  · exact auxOn_railOff1_off h r

end

theorem auxOn_railOff_self (r : Nat) : auxOn (railOff r s) r = false := by
  unfold railOff
  dsimp only
  split_ifs
  · exact auxOn_depC_off (auxOn_railOff1_self s r)
  · exact auxOn_railOff1_self s r

theorem auxOn_railsOff {r : Nat} (hr : r < 3) : auxOn (railsOff s) r = false := by
  have hoff := each_establishes (I := fun _ => True) (R := fun r t => auxOn t r = false)
    (f := fun r t => if auxOn t r then railOff r t else t) (s := s) allRails trivial (fun _ _ _ _ => trivial)
    (fun r _ t _ => by
      split_ifs with h
      · exact auxOn_railOff_self t r
      · simpa using h)
    (fun r _ k t _ hk => by
      split_ifs
      · exact auxOn_railOff_off hk r
      · exact hk)
  exact hoff r (by simp only [allRails, List.mem_cons, List.not_mem_nil, or_false]; omega)

end

/-! Stops of all dies (R308, R310, R313, R403). -/

/-- Every die of a device is down, and in husk if it was up. -/
def AllDown (s t : Device) : Prop := ∀ d, d < s.nDies → (t.die d).up = false ∧ ((s.die d).up = true → (t.die d).husk = true)

section
variable {s u : Device} (hlen : s.nDies ≤ s.dies.length) (hu : body u = body s)
include hlen hu

theorem body_stopAll : (body s).Stopped (body (stopAll u)) ∧ ∀ d, d < s.nDies → ((stopAll u).die d).up = false := by
  have hn : u.nDies = s.nDies := congrArg (fun F => F.size.1) hu
  have hdies : u.dies.length = s.dies.length := congrArg (fun F => F.size.2.1) hu
  obtain ⟨hstopped, hdown⟩ := stopAll_spec (s := u) (by rw [hn, hdies]; exact hlen)
  refine ⟨?_, fun d hd => hdown d (by rw [hn]; exact hd)⟩
  rw [← hu]
  exact ⟨hstopped.size, hstopped.huskAll, hstopped.lease, rfl, hstopped.kept, hstopped.down⟩

theorem allDown_stopAll : AllDown s (stopAll u) := fun d hd => by
  obtain ⟨hstopped, hdown⟩ := body_stopAll hlen hu
  refine ⟨hdown d hd, fun hup => ?_⟩
  rcases hstopped.down d with ⟨hstand, -⟩ | ⟨-, hhusk⟩
  · exact absurd ((hdown d hd).symm.trans (congrArg Prod.fst hstand)) (by rw [show (Footing.stand (body s) d).1 = (s.die d).up from rfl, hup]; decide)
  · exact hhusk

theorem shipLatch_stopAll (d : Nat) : ((stopAll u).die d).glean.shipLatch = (s.die d).glean.shipLatch :=
  congrArg Prod.snd ((body_stopAll hlen hu).1.kept d)

end

/-- The stop of all dies ends with the lead die, which cuts the converter off. -/
theorem converter_stopAll {s : Device} (hn : 0 < s.nDies) (hlen : s.nDies ≤ s.dies.length) (hup : (s.die 0).up = true) :
    (stopAll s).pins.converter = false := by
  obtain ⟨n, hn⟩ : ∃ n, s.nDies = n + 1 := ⟨s.nDies - 1, by omega⟩
  have hsplit : stopAll s = mainStop false 0 (s.each ((List.range n).map Nat.succ).reverse (mainStop false)) := by
    rw [stopAll, Device.dieList, hn, List.range_succ_eq_map, List.reverse_cons]
    exact List.foldl_append ..
  have hother := (stopEach_spec false ((List.range n).map Nat.succ).reverse (s := s) fun d hd => by
    obtain ⟨k, hk, rfl⟩ := List.mem_map.mp (List.mem_reverse.mp hd)
    have := List.mem_range.mp hk
    omega).2.2 0 (by simp)
  rw [hsplit]
  exact converter_mainStop_lead false ((congrArg Prod.fst hother).trans hup)

theorem die_setPkgState (st d : Nat) (s : Device) : (setPkgState st s).die d = s.die d := by
  rw [(regsOnly_setPkgState st s).1]
  rfl

/-- KEEP is entered with every die down (R308). -/
theorem enterKeep_spec {s u : Device} (hlen : s.nDies ≤ s.dies.length) (hu : body u = body s) : pkgState (enterKeep u) = Pkg.keep ∧
    AllDown s (enterKeep u) ∧ (enterKeep u).pget PKG_STATE_PREV = pkgState u := by
  refine ⟨pkgState_setPkgState (by decide) _, fun d hd => ?_, ?_⟩
  · rw [enterKeep, die_setPkgState]
    exact allDown_stopAll hlen hu d hd
  · rw [enterKeep, prev_setPkgState]
    exact inState_stopAll rfl

/-- The stop of HOLD enters KEEP and cuts the converter off (R308). -/
theorem controlledStop_spec {s : Device} (hn : 0 < s.nDies) (hlen : s.nDies ≤ s.dies.length) (hup : (s.die 0).up = true) :
    pkgState (controlledStop s) = Pkg.keep ∧ AllDown s (controlledStop s) ∧ (controlledStop s).pins.converter = false := by
  have hbody : body (railsOff (seqOff allRails s)) = body s := by rw [body_railsOff, body_seqOff]
  have heq : controlledStop s = enterKeep (railsOff (seqOff allRails s)) := rfl
  rw [heq]
  obtain ⟨hstate, hdown, -⟩ := enterKeep_spec hlen hbody
  refine ⟨hstate, hdown, ?_⟩
  rw [enterKeep, (regsOnly_setPkgState _ _).1]
  refine converter_stopAll ?_ ?_ ?_
  · rw [show (railsOff (seqOff allRails s)).nDies = s.nDies from congrArg (fun F => F.size.1) hbody]
    exact hn
  · rw [show (railsOff (seqOff allRails s)).nDies = s.nDies from congrArg (fun F => F.size.1) hbody,
      show (railsOff (seqOff allRails s)).dies.length = s.dies.length from congrArg (fun F => F.size.2.1) hbody]
    exact hlen
  · exact (congrArg (fun F => (F.stand 0).1) hbody).trans hup

/-! Ship mode (R313 to R316). -/

/-- The device with the latch of ship mode set or cleared in every die. -/
def latchAll (b : Bool) (s : Device) : Device := s.each s.dieList fun d t => t.modGlean d fun g => { g with shipLatch := b }

/-- What the latch of ship mode leaves of a die. -/
def LatchOnly (s t : Device) : Prop := t = { s with dies := t.dies } ∧ t.dies.length = s.dies.length ∧
  ∀ e, ∃ b, t.die e = { s.die e with glean := { (s.die e).glean with shipLatch := b } }

theorem LatchOnly.modGlean {s t : Device} (h : LatchOnly s t) {d : Nat} (hd : d < s.dies.length) (b : Bool) :
    LatchOnly s (t.modGlean d fun g => { g with shipLatch := b }) := by
  obtain ⟨hdev, hdies, hdie⟩ := h
  refine ⟨?_, (List.length_modify ..).trans hdies, fun e => ?_⟩
  · conv_lhs => rw [hdev]
    conv_rhs => rw [hdev]
    rfl
  · obtain ⟨b', hb'⟩ := hdie e
    by_cases he : e = d
    · subst he
      exact ⟨b, by rw [Device.modGlean, Device.die_modDie_self _ (by rw [hdies]; exact hd), hb']⟩
    · exact ⟨b', by rw [Device.modGlean, Device.die_modDie_ne _ he, hb']⟩

theorem shipLatch_modGlean {t : Device} {d : Nat} (hd : d < t.dies.length) (b : Bool) (e : Nat) :
    ((t.modGlean d fun g => { g with shipLatch := b }).die e).glean.shipLatch = if e = d then b else (t.die e).glean.shipLatch := by
  split_ifs with he
  · rw [he, Device.modGlean, Device.die_modDie_self _ hd]
  · rw [Device.modGlean, Device.die_modDie_ne _ he]

theorem latchAll_spec (b : Bool) {s : Device} (hlen : s.nDies ≤ s.dies.length) : LatchOnly s (latchAll b s) ∧
    ∀ d, d < s.nDies → ((latchAll b s).die d).glean.shipLatch = b := by
  have hlt : ∀ d ∈ s.dieList, d < s.dies.length := fun d hd => by have := List.mem_range.mp hd; omega
  have hrefl : LatchOnly s s := ⟨rfl, rfl, fun e => ⟨(s.die e).glean.shipLatch, rfl⟩⟩
  have hstep : ∀ d ∈ s.dieList, ∀ t, LatchOnly s t → LatchOnly s (t.modGlean d fun g => { g with shipLatch := b }) := fun d hd t ht =>
    ht.modGlean (hlt d hd) b
  refine ⟨each_keeps (I := LatchOnly s) _ hrefl hstep, fun d hd => ?_⟩
  refine each_establishes (I := LatchOnly s) (R := fun d t => (t.die d).glean.shipLatch = b)
    (f := fun d t => t.modGlean d fun g => { g with shipLatch := b }) s.dieList hrefl hstep (fun d hd t ht => ?_) (fun d hd e t ht he => ?_)
    d (List.mem_range.mpr hd)
  · rw [shipLatch_modGlean (by rw [ht.2.1]; exact hlt d hd), if_pos rfl]
  · rw [shipLatch_modGlean (by rw [ht.2.1]; exact hlt d hd), he, ite_self]

/-- Nothing differs but the dies. -/
def DiesOnly (s t : Device) : Prop := t = { s with dies := t.dies }

theorem DiesOnly.trans {s t u : Device} (hst : DiesOnly s t) (htu : DiesOnly t u) : DiesOnly s u := by
  unfold DiesOnly at *
  conv_lhs => rw [htu, hst]

/-- The commits of retention images change the dies alone. -/
theorem diesOnly_retCommit (l : List Nat) (s : Device) : DiesOnly s (s.each l retCommit) :=
  each_keeps (I := DiesOnly s) l rfl fun d _ t ht => ht.trans (by
    unfold retCommit
    split_ifs <;> exact rfl)

/-- The device once ship mode is asked for: the latches are set, and a checkpoint is requested (R313). -/
def shipAsked (s : Device) : Device :=
  (((latchAll true s).modNvm fun n => { n with ckptCause := 3 }).pset CKPT_STAT_PENDING 1).modSup fun u => { u with ship := 1, shipAt := s.now }

theorem shipEnter_of_ok {w : Word} {s : Device} (hup : (s.die 0).up = true) (he : SHIP_CTL_ENTER.get w = 1) (hk : SHIP_CTL_KEY.get w = 0xC3)
    (hship : s.supply.ship = 0) (hok : shipOk s = true) : shipEnter w s =
      (shipAsked s).each ((shipAsked s).dieList.filter fun d => ((shipAsked s).die d).up) retCommit := by
  have hckpt : ∀ t, ckptRequest 3 t = (t.modNvm fun n => { n with ckptCause := 3 }).pset CKPT_STAT_PENDING 1 := fun t => if_neg fun h => h.2 rfl
  simp only [shipEnter, hup, he, hk, hship, hok, hckpt, Bool.not_true, Bool.false_eq_true, ne_eq, not_true_eq_false, or_self, if_false]
  rfl

theorem pget_modSup (f : Supply → Supply) (k : Fld .pkg) (s : Device) : (s.modSup f).pget k = s.pget k := rfl

theorem pending_shipAsked (s : Device) : (shipAsked s).pget CKPT_STAT_PENDING = 1 := by
  rw [shipAsked, pget_modSup, Device.pget_pset_self _ _ _ (by decide)]
  rfl

theorem shipAsked_only (s : Device) : (shipAsked s).supply = { (latchAll true s).supply with ship := 1, shipAt := s.now } ∧
    (shipAsked s).chans = (latchAll true s).chans ∧ (shipAsked s).pins = (latchAll true s).pins ∧
    ∀ d, (shipAsked s).die d = (latchAll true s).die d := by
  unfold shipAsked
  refine ⟨?_, ?_, ?_, fun d => ?_⟩
  · rw [Device.modSup_supply, Device.pset, Device.setReg_supply, Device.modNvm_supply]
  · rw [Device.modSup_chans, Device.pset, Device.setReg_chans, Device.modNvm_chans]
  · rw [Device.modSup_pins, Device.pset, Device.setReg_pins, Device.modNvm_pins]
  · rw [Device.modSup_die, Device.pset, Device.setReg_die, Device.modNvm_die]

theorem shipEnter_spec {w : Word} {s : Device} (hlen : s.nDies ≤ s.dies.length) (hup : (s.die 0).up = true)
    (he : SHIP_CTL_ENTER.get w = 1) (hk : SHIP_CTL_KEY.get w = 0xC3) (hship : s.supply.ship = 0) (hok : shipOk s = true) :
    let t := shipEnter w s
    t.supply = { s.supply with ship := 1, shipAt := s.now } ∧ (∀ d, d < s.nDies → (t.die d).glean.shipLatch = true) ∧
      (t.pbit CKPT_STAT_PENDING || t.pbit CKPT_STAT_BUSY) = true ∧ pkgState t = pkgState s ∧ t.chans = s.chans ∧ t.pins = s.pins := by
  have hstate : pkgState (shipEnter w s) = pkgState s := inState_shipEnter w rfl
  obtain ⟨⟨hdev, -, -⟩, hlatch⟩ := latchAll_spec true hlen
  rw [shipEnter_of_ok hup he hk hship hok] at hstate ⊢
  generalize ((shipAsked s).dieList.filter fun d => ((shipAsked s).die d).up) = l at hstate ⊢
  have honly : DiesOnly (shipAsked s) ((shipAsked s).each l retCommit) := diesOnly_retCommit l _
  have hfoot : footing ((shipAsked s).each l retCommit) = footing (shipAsked s) := footing_each _ l fun d _ t => footing_retCommit t d
  obtain ⟨hsupply, hchans, hpins, hdie⟩ := shipAsked_only s
  refine ⟨(congrArg Device.supply honly).trans ?_, fun d hd => ?_, ?_, hstate, ?_, ?_⟩
  · rw [hsupply, congrArg Device.supply hdev]
  · refine (congrArg (fun x => x.2.2.2) (stand_of_footing hfoot d)).trans ?_
    rw [DieSt.stand, hdie]
    exact hlatch d hd
  · have hpending : ((shipAsked s).each l retCommit).pget CKPT_STAT_PENDING = 1 :=
      (pget_of_regs (congrArg Device.regs honly) _).trans (pending_shipAsked s)
    simp only [Device.pbit, hpending]
    rfl
  · exact (congrArg Device.chans honly).trans (hchans.trans (by rw [hdev]))
  · exact (congrArg Device.pins honly).trans (hpins.trans (by rw [hdev]))

theorem shipEnter_of_refused {w : Word} {s : Device} (hup : (s.die 0).up = true) (he : SHIP_CTL_ENTER.get w = 1)
    (hk : SHIP_CTL_KEY.get w = 0xC3) (hship : s.supply.ship = 0) (hok : shipOk s = false) :
    shipEnter w s = s.pset SHIP_CTL_REFUSED_EVT 1 := by
  simp [shipEnter, hup, he, hk, hship, hok]

theorem shipEnter_of_not_asked {w : Word} {s : Device} (h : (s.die 0).up = false ∨ SHIP_CTL_ENTER.get w = 0 ∨
    SHIP_CTL_KEY.get w ≠ 0xC3 ∨ s.supply.ship ≠ 0) : shipEnter w s = s := by
  refine if_pos ?_
  rcases h with h | h | h | h
  · exact .inl (by rw [h]; rfl)
  · exact .inr (.inl (by rw [h]; decide))
  · exact .inr (.inr (.inl h))
  · exact .inr (.inr (.inr h))

theorem mem_insertBy {f : Nat → Nat} {x y : Nat} {l : List Nat} : y ∈ insertBy f x l ↔ y = x ∨ y ∈ l := by
  induction l with
  | nil => simp [insertBy]
  | cons z l ih =>
    rw [insertBy]
    split_ifs
    · simp
    · simp [ih, or_left_comm]

theorem mem_sortBy {f : Nat → Nat} {y : Nat} {l : List Nat} : y ∈ sortBy f l ↔ y ∈ l := by
  induction l with
  | nil => simp [sortBy]
  | cons z l ih => exact mem_insertBy.trans (by rw [List.mem_cons, ← ih]; rfl)

/-- The rails' off-sequence ends at once, or it runs (R306). -/
theorem seqOff_spec (s : Device) : (seqOff allRails s).supply.ship = s.supply.ship ∧
    ((seqOff allRails s).supply.seq.kind = 2 ∨ ∀ r, r < 3 → auxOn (seqOff allRails s) r = false) := by
  have hstat : ∀ (t : Device) (v r : Nat), auxOn (t.pset AUX_STAT_SEQ v) r = auxOn t r := fun t v r => by
    rw [auxOn, Device.pbit, Device.pget_pset_apart _ _ _ _ (.inl (by rw [off_auxOnBit]; decide))]
    rfl
  have hseq : ∀ (t : Device) (f : Seq → Seq) (r : Nat), auxOn (modSeq f t) r = auxOn t r := fun _ _ _ => rfl
  have hsup : ∀ (t : Device) (f : Seq → Seq), (modSeq f t).supply = { t.supply with seq := f t.supply.seq } := fun _ _ => rfl
  unfold seqOff seqOffNext
  split
  · next hnone =>
    refine ⟨?_, .inr fun r hr => ?_⟩
    · rw [seqEnd, hsup, Device.pset, Device.setReg_supply, hsup, Device.pset, Device.setReg_supply]
    · have hall := List.dropWhile_eq_nil_iff.mp hnone r (mem_sortBy.mpr (by
        simp only [allRails, List.mem_cons, List.not_mem_nil, or_false]; omega))
      rw [seqEnd, hseq, hstat, hseq, hstat]
      rw [hseq, hstat] at hall
      simpa using hall
  · next r l _ =>
    rw [hsup, supply_railOff, hsup, Device.pset, Device.setReg_supply]
    exact ⟨rfl, .inl rfl⟩

section
variable {s : Device}

theorem footing_modPins (f : Pins → Pins) (hf : ∀ p, (f p).huskAll = p.huskAll) : footing (s.modPins f) = footing s :=
  footing_of ⟨rfl, rfl, rfl⟩ (fun _ => ⟨rfl, rfl⟩) (hf s.pins) (fun _ => rfl) fun _ _ => rfl

/-- Whether VBUS is already low as ship mode begins (R316). -/
def noteVbus (s : Device) (x : Glean) : Glean :=
  { x with vbusLow := decide (s.pget PATH_STAT_VBUS_RD * 10 + 1000 < (s.die 0).glean.riseCopy * 100) }

theorem shipDown_eq (s : Device) : shipDown s = ((setPkgState Pkg.ship (stopAll (railsOff s))).modPins fun p =>
    { p with converter := false, keeperFeed := false }).modGlean 0 (noteVbus s) := rfl

/-- Ship mode begins: the rails go off, every die stops, and the keeper is cut off (R313, R316). -/
theorem shipDown_spec (hn : 0 < s.nDies) (hlen : s.nDies ≤ s.dies.length) : let t := shipDown s
    pkgState t = Pkg.ship ∧ AllDown s t ∧ t.pins.converter = false ∧ t.pins.keeperFeed = false ∧ (∀ r, r < 3 → auxOn t r = false) ∧
      (∀ d, d < s.nDies → (t.die d).glean.shipLatch = (s.die d).glean.shipLatch) ∧
      (t.die 0).glean.vbusLow = decide (s.pget PATH_STAT_VBUS_RD * 10 + 1000 < (s.die 0).glean.riseCopy * 100) := by
  have hbody : body (railsOff s) = body s := body_railsOff s
  have hn' : (railsOff s).nDies = s.nDies := congrArg (fun F => F.size.1) hbody
  have hlen' : (railsOff s).dies.length = s.dies.length := congrArg (fun F => F.size.2.1) hbody
  have hstopped := (stopAll_spec (s := railsOff s) (by rw [hn', hlen']; exact hlen)).1
  dsimp only
  rw [shipDown_eq]
  generalize hu : setPkgState Pkg.ship (stopAll (railsOff s)) = u
  have hdie : ∀ d, u.die d = (stopAll (railsOff s)).die d := fun d => by rw [← hu, die_setPkgState]
  have hfoot : footing ((u.modPins fun p => { p with converter := false, keeperFeed := false }).modGlean 0 (noteVbus s)) = footing u :=
    (footing_modGlean _ 0 (f := noteVbus s) fun _ => rfl).trans
      (footing_modPins (fun p => { p with converter := false, keeperFeed := false }) fun _ => rfl)
  refine ⟨?_, fun d hd => ?_, rfl, rfl, fun r hr => ?_, fun d hd => ?_, ?_⟩
  · exact (congrArg pkgState hu).symm.trans (pkgState_setPkgState (by decide) _)
  · obtain ⟨hdown, hhusk⟩ := allDown_stopAll hlen hbody d hd
    rw [← hdie] at hdown hhusk
    exact ⟨(congrArg Prod.fst (stand_of_footing hfoot d)).trans hdown, fun hup => (husk_of_footing hfoot d).trans (hhusk hup)⟩
  · have hreg : u.reg 0x33 = (railsOff s).reg 0x33 := by
      rw [← hu, (regsOnly_setPkgState _ _).2 _ (by decide)]
      have := congrFun hstopped.word 0x33
      exact BitVec.eq_of_toNat_eq (by simpa [footing, footPart, show footWord 0x33 = true from by decide] using this)
    have hon : auxOn u r = auxOn (railsOff s) r := by
      rw [auxOn, auxOn, Device.pbit, Device.pbit, Device.pget, Device.pget, off_auxOnBit, hreg]
    exact hon.trans (auxOn_railsOff s hr)
  · refine (congrArg (fun x => x.2.2.2) (stand_of_footing hfoot d)).trans ?_
    rw [DieSt.stand, hdie]
    exact shipLatch_stopAll hlen hbody d
  · have hlt : 0 < u.dies.length := by
      have : u.dies.length = s.dies.length := by
        rw [← hu, (regsOnly_setPkgState _ _).1]
        exact (congrArg (fun n => n.2.1) hstopped.size).trans hlen'
      omega
    rw [Device.modGlean, Device.die_modDie_self (u.modPins _) hlt]
    rfl

end

end Sys2Proof.Machine
end

section
/-! Proofs of the family of the architecture: wakes, resets and the package watchdog (O51). -/

namespace Sys2Proof.Machine

/-! The end of ship mode (R316, R318). -/

theorem startSequencer_spec (s : Device) : startSequencer s = { s with pins := (startSequencer s).pins } ∧
    (startSequencer s).pins.keeperFeed = s.pins.keeperFeed ∧ (startSequencer s).pins.huskAll = s.pins.huskAll ∧
    (startSequencer s).pins.converter = (s.pins.converter || (!(s.die 0).up && (s.die 0).glean.okKeep && !(s.die 0).glean.shipLatch &&
      (((s.die 0).glean.woke && s.pget SHIP_CTL_LAST_EXIT == 1) || (s.supply.start == some 2 && !s.supply.resetLow)))) := by
  unfold startSequencer
  dsimp only
  split_ifs with h
  · exact ⟨rfl, rfl, rfl, by rw [h, Bool.or_true]; rfl⟩
  · exact ⟨rfl, rfl, rfl, by rw [Bool.eq_false_iff.mpr h, Bool.or_false]⟩

theorem shipExit_of_not {cause : Nat} {s : Device} (h : (s.die 0).up = true ∨ pkgState s ∉ [Pkg.ship, Pkg.keep] ∨
    (s.die 0).glean.shipLatch = false) : shipExit cause s = s := by
  refine if_neg fun ⟨hup, hstate, hlatch⟩ => ?_
  rcases h with h | h | h
  · rw [h] at hup
    exact absurd hup (by decide)
  · exact h (by simpa using hstate)
  · rw [h] at hlatch
    cases hlatch

/-- The device as ship mode ends: the latches are cleared, and the exit is noted (R316). -/
def shipEnded (cause : Nat) (s : Device) : Device :=
  (((latchAll false s).pset SHIP_CTL_LAST_EXIT cause).modGlean 0 fun g => { g with woke := true }).modPins fun p => { p with keeperFeed := true }

theorem shipExit_eq {cause : Nat} {s : Device} (hup : (s.die 0).up = false) (hstate : pkgState s ∈ [Pkg.ship, Pkg.keep])
    (hlatch : (s.die 0).glean.shipLatch = true) : shipExit cause s = startSequencer (shipEnded cause s) :=
  if_pos ⟨by rw [hup]; rfl, by simpa using hstate, hlatch⟩

theorem shipExit_spec {cause : Nat} {s : Device} (hc : cause < 4) (hn : 0 < s.nDies) (hlen : s.nDies ≤ s.dies.length)
    (hup : (s.die 0).up = false) (hstate : pkgState s ∈ [Pkg.ship, Pkg.keep]) (hlatch : (s.die 0).glean.shipLatch = true) :
    let t := shipExit cause s
    t.pget SHIP_CTL_LAST_EXIT = cause ∧ t.pins.keeperFeed = true ∧
      t.pins.converter = (s.pins.converter || (s.die 0).glean.okKeep &&
        (cause == 1 || s.supply.start == some 2 && !s.supply.resetLow)) ∧
      (∀ d, d < s.nDies → (t.die d).glean.shipLatch = false) ∧ (t.die 0).glean.woke = true ∧ pkgState t = pkgState s := by
  have hpkg : pkgState (shipExit cause s) = pkgState s := inState_shipExit cause rfl
  rw [shipExit_eq hup hstate hlatch] at hpkg ⊢
  obtain ⟨⟨hdev, hdies, hdie⟩, hclear⟩ := latchAll_spec false hlen
  obtain ⟨honly, hfeed, -, hconv⟩ := startSequencer_spec (shipEnded cause s)
  have hexit : (shipEnded cause s).pget SHIP_CTL_LAST_EXIT = cause := by
    refine Eq.trans (pget_of_regs (s := (latchAll false s).pset SHIP_CTL_LAST_EXIT cause) ?_ _) ?_
    · rw [shipEnded, Device.modPins_regs, Device.modGlean, Device.modDie_regs]
    · rw [Device.pget_pset_self _ _ _ (by decide)]
      exact Nat.mod_eq_of_lt hc
  have hlen' : 0 < ((latchAll false s).pset SHIP_CTL_LAST_EXIT cause).dies.length := by
    rw [Device.pset, Device.setReg_dies, hdies]
    omega
  have hzero : (shipEnded cause s).die 0 = { (latchAll false s).die 0 with glean := { ((latchAll false s).die 0).glean with woke := true } } := by
    rw [shipEnded, Device.modPins_die, Device.modGlean, Device.die_modDie_self _ hlen', Device.pset, Device.setReg_die]
  have hlatches : ∀ d, d < s.nDies → ((shipEnded cause s).die d).glean.shipLatch = false := fun d hd => by
    by_cases h0 : d = 0
    · rw [h0, hzero]
      exact hclear 0 hn
    · rw [shipEnded, Device.modPins_die, Device.modGlean, Device.die_modDie_ne _ h0, Device.pset, Device.setReg_die]
      exact hclear d hd
  have hsupply : (shipEnded cause s).supply = s.supply := by
    rw [shipEnded, Device.modPins_supply, Device.modGlean, Device.modDie_supply, Device.pset, Device.setReg_supply, hdev]
  have hpins : (shipEnded cause s).pins = { s.pins with keeperFeed := true } := by
    rw [shipEnded, Device.modPins_pins, Device.modGlean, Device.modDie_pins, Device.pset, Device.setReg_pins, hdev]
  have hold : ((latchAll false s).die 0).up = false ∧ ((latchAll false s).die 0).glean.okKeep = (s.die 0).glean.okKeep := by
    obtain ⟨b, hb⟩ := hdie 0
    rw [hb]
    exact ⟨hup, rfl⟩
  obtain ⟨hdown, hok⟩ := hold
  dsimp only
  have hdies' : ∀ d, (startSequencer (shipEnded cause s)).die d = (shipEnded cause s).die d := fun d => by rw [honly]; rfl
  refine ⟨(pget_of_regs (by rw [honly]) _).trans hexit, ?_, ?_, fun d hd => ?_, ?_, hpkg⟩
  · rw [hfeed, hpins]
  · rw [hconv, hpins, hsupply, hexit, hlatches 0 hn, hzero]
    simp [hdown, hok]
  · rw [hdies']
    exact hlatches d hd
  · rw [hdies', hzero]

/-! Resets and starts (R30, R386, R403, R420). -/

theorem resetNLow_spec {s : Device} (hlen : s.nDies ≤ s.dies.length) : let t := resetNLow s
    AllDown s t ∧ t.pins.huskAll = true ∧ t.supply.resetLow = true ∧ pkgState t = pkgState s ∧
      ((∃ d, d < s.nDies ∧ (s.die d).up = true) → t.supply.start = some 2) := by
  have hpkg : pkgState (resetNLow s) = pkgState s := inState_resetNLow rfl
  have hdown : AllDown s (stopAll (s.modPins fun p => { p with huskAll := true })) :=
    allDown_stopAll (s := s.modPins fun p => { p with huskAll := true }) hlen rfl
  have hhusk : (stopAll (s.modPins fun p => { p with huskAll := true })).pins.huskAll = true :=
    (stopAll_spec (s := s.modPins fun p => { p with huskAll := true }) hlen).1.huskAll
  unfold resetNLow at hpkg ⊢
  dsimp only at hpkg ⊢
  generalize stopAll (s.modPins fun p => { p with huskAll := true }) = u at hpkg hdown hhusk ⊢
  split_ifs with hon
  · exact ⟨hdown, hhusk, rfl, by rwa [if_pos hon] at hpkg, fun _ => rfl⟩
  · refine ⟨hdown, hhusk, rfl, by rwa [if_neg hon] at hpkg, fun ⟨d, hd, hup⟩ => absurd ?_ hon⟩
    exact List.any_eq_true.mpr ⟨d, List.mem_range.mpr hd, hup⟩

theorem resetNRise_of_high {s : Device} (h : s.supply.resetLow = false) : resetNRise s = s := if_neg (by rw [h]; decide)

theorem resetNRise_spec {s : Device} (h : s.supply.resetLow = true) : let t := resetNRise s
    t.supply = { s.supply with resetLow := false } ∧ t.pins.huskAll = s.supply.tmode ∧ t = { s with supply := t.supply, pins := t.pins } ∧
      ((s.die 0).up = false → (s.die 0).glean.shipLatch = false → (s.die 0).glean.okKeep = true → s.supply.start = some 2 →
        t.pins.converter = true) := by
  obtain ⟨honly, -, hhusk, hconv⟩ := startSequencer_spec ((s.modSup fun u => { u with resetLow := false }).modPins fun p =>
    { p with huskAll := s.supply.tmode })
  have heq : resetNRise s = startSequencer ((s.modSup fun u => { u with resetLow := false }).modPins fun p => { p with huskAll := s.supply.tmode }) :=
    if_pos h
  rw [heq]
  refine ⟨by rw [honly]; rfl, hhusk, ?_, fun hup hlatch hok hstart => ?_⟩
  · conv_lhs => rw [honly]
    conv_rhs => rw [honly]
    rfl
  · refine hconv.trans ?_
    have hdie : ∀ d, ((s.modSup fun u => { u with resetLow := false }).modPins fun p => { p with huskAll := s.supply.tmode }).die d = s.die d :=
      fun _ => rfl
    simp only [hdie, hup, hok, hlatch, Device.modPins_supply, Device.modSup_supply, hstart]
    simp

theorem coldPowerOn_of_not {s : Device} (h : (s.die 0).up = true ∨ (s.die 0).glean.isNew = false) : coldPowerOn s = s := by
  refine if_neg fun ⟨hup, hnew⟩ => ?_
  rcases h with h | h
  · rw [h] at hup
    exact absurd hup (by decide)
  · rw [h] at hnew
    cases hnew

theorem coldPowerOn_spec {s : Device} (hup : (s.die 0).up = false) (hnew : (s.die 0).glean.isNew = true) :
    pkgState (coldPowerOn s) = Pkg.cold ∧ (coldPowerOn s).supply.start = some 0 := by
  have heq : coldPowerOn s = setStart 0 (s.pset PKG_STATE_STATE Pkg.cold) := if_pos ⟨by rw [hup]; rfl, hnew⟩
  rw [heq]
  refine ⟨?_, rfl⟩
  rw [pkgState, setStart, pget_modSup, Device.pget_pset_self _ _ _ (by decide)]
  rfl

theorem warmStart_of_not {s : Device} (h : (s.die 0).up = true ∨ (s.die 0).glean.isNew = true ∨ (s.die 0).glean.shipLatch = true ∨
    ((s.die 0).glean.woke = false ∧ pkgState s ≠ Pkg.keep)) : warmStart s = s := by
  unfold warmStart
  rcases h with h | h | h | ⟨hw, hk⟩
  · simp [h]
  · simp [h]
  · simp [h]
  · simp [hw, hk]

/-! The package watchdog (R436). -/

/-- The watchdog finds the lead die stalled for PKG_WDT frames. -/
def LeadDead (s : Device) : Prop := (s.die 0).recov.stalled = true ∧ (s.die 0).recov.stallAt / 5120 + s.pget FAULT_CFG_PKG_WDT ≤ s.frame

theorem pkgWatchdog_of_alive {s : Device} (h : (s.die 0).up = false ∨ ¬ LeadDead s) : pkgWatchdog s = s := by
  refine if_pos ?_
  rcases h with h | h
  · exact .inl (by rw [h]; rfl)
  · by_cases hstall : (s.die 0).recov.stalled = true
    · exact .inr (.inr (Nat.not_le.mp fun hle => h ⟨hstall, hle⟩))
    · exact .inr (.inl (by simpa using hstall))

/-- An operation on one channel leaves every die as it stands. -/
theorem stand_of_only {g : Nat} {s t : Device} (h : OnlyChannel g s t) (d : Nat) :
    (t.die d).stand = (s.die d).stand ∧ (t.die d).husk = (s.die d).husk := by
  by_cases hd : d = g / 8
  · obtain ⟨x, hx⟩ := h.own
    rw [hd, hx]
    exact ⟨rfl, rfl⟩
  · rw [h.dies d hd]
    exact ⟨rfl, rfl⟩

theorem only_leaseEnd {g : Nat} {s s0 : Device} (hs : s.Only s0 g) : (leaseEnd g s).Only s0 g := by
  unfold leaseEnd
  exact Device.only_modCh _ (Device.only_cset _ _ (by decide) (Device.only_cset _ _ (by decide) (only_clearMaps hs)))

/-- A lease that ends is no longer held, and the leases of other channels are as they were. -/
theorem leaseSt_leaseEnd {g : Nat} (hg : g < 64) (h : Nat) (s : Device) :
    leaseSt (leaseEnd g s) h = if h = g then 0 else leaseSt s h := by
  split_ifs with e
  · subst e
    have hlease : leaseSt (leaseEnd h s) h = (((clearMaps h s).cset h CH_LEASE_LSTATE 0).cset h CH_LEASE_DEMAND 0).cget h CH_LEASE_LSTATE := rfl
    rw [hlease, Device.cget_cset_apart _ _ _ _ _ (by decide), Device.cget_cset_self _ _ _ _ (by decide)]
    rfl
  · exact congrArg CH_LEASE_LSTATE.get ((only_leaseEnd (Device.only_refl s hg)).2.words h 3 e (by decide))

/-- The leases end and every die stands as it did. -/
theorem leasesEnd_spec {s : Device} {n : Nat} (hs : s.Canonical n) (hn : s.nDies ≤ 8) :
    (s.each s.chList leaseEnd).Canonical n ∧ (∀ d, ((s.each s.chList leaseEnd).die d).stand = (s.die d).stand) ∧
      ∀ g, g < s.nCh → leaseHeld (s.each s.chList leaseEnd) g = false := by
  have hlt : ∀ g ∈ s.chList, g < 64 := fun g hg => by
    have := List.mem_range.mp hg
    unfold Device.nCh at this
    omega
  have hstep : ∀ g ∈ s.chList, ∀ t, (t.Canonical n ∧ ∀ d, (t.die d).stand = (s.die d).stand) →
      ((leaseEnd g t).Canonical n ∧ ∀ d, ((leaseEnd g t).die d).stand = (s.die d).stand) := fun g hg t ht =>
    ⟨canonical_leaseEnd g ht.1, fun d => (stand_of_only (only_leaseEnd (Device.only_refl t (hlt g hg))).2 d).1.trans (ht.2 d)⟩
  obtain ⟨hcanon, hstand⟩ := each_keeps (I := fun t => t.Canonical n ∧ ∀ d, (t.die d).stand = (s.die d).stand) (f := leaseEnd) s.chList
    ⟨hs, fun _ => rfl⟩ hstep
  refine ⟨hcanon, hstand, fun g hg => ?_⟩
  have hzero := each_establishes (I := fun _ => True) (R := fun g t => leaseSt t g = 0) (f := leaseEnd) (s := s) s.chList trivial
    (fun _ _ _ _ => trivial) (fun g hg t _ => by rw [leaseSt_leaseEnd (hlt g hg), if_pos rfl])
    (fun g hg h t _ hh => by rw [leaseSt_leaseEnd (hlt g hg), hh, ite_self])
  rw [leaseHeld, hzero g (List.mem_range.mpr hg)]
  rfl

/-- The device as the watchdog finds the lead die dead, with the leases of RUN ended. -/
def leasesOver (s : Device) : Device := if pkgState s = Pkg.run then s.each s.chList leaseEnd else s

/-- The watchdog of the package resets the lead die and the dies that recover (R436). -/
def watchdogStops (s : Device) : Device :=
  (mainStop false 0 (nvmBatonLost s)).each
    ((mainStop false 0 (nvmBatonLost s)).dieList.filter fun d => ((mainStop false 0 (nvmBatonLost s)).die d).recov.active) (mainStop false)

theorem watchdogStops_spec {s : Device} (hlen : s.nDies ≤ s.dies.length) (hn : 0 < s.nDies) : let t := watchdogStops s
    (t.die 0).up = false ∧ (∀ g, leaseSt t g = leaseSt s g) ∧
      (∀ d, d ≠ 0 → d < s.nDies → (s.die d).recov.active = true → (t.die d).up = false) ∧
      ∀ d, d ≠ 0 → (s.die d).recov.active = false → (t.die d).up = (s.die d).up := by
  have hbaton : HuskOnly s (nvmBatonLost s) := huskOnly_nvmBatonLost s
  have hsize := hbaton.size
  have hlead : footing (mainStop false 0 (nvmBatonLost s)) = (footing (nvmBatonLost s)).stopDie 0 :=
    footing_mainStop false (by rw [show (nvmBatonLost s).dies.length = s.dies.length from congrArg (fun n => n.2.1) hsize]; omega)
  unfold watchdogStops
  generalize mainStop false 0 (nvmBatonLost s) = u at hlead ⊢
  have hu : (footing (nvmBatonLost s)).Stopped (footing u) := by rw [hlead]; exact (Footing.Stopped.refl _).stopDie 0
  have husize : u.nDies = s.nDies ∧ u.dies.length = s.dies.length := by
    have := hu.size.trans hsize
    exact ⟨congrArg Prod.fst this, congrArg (fun n => n.2.1) this⟩
  have hrecov : ∀ d, (u.die d).recov = (s.die d).recov := fun d =>
    (congrArg Prod.fst (hu.kept d)).trans (congrArg (fun x => x.2.2.1) (hbaton.stand d))
  have hother : ∀ d, d ≠ 0 → (u.die d).up = (s.die d).up := fun d hd =>
    (congrArg (fun F => (F.stand d).1) hlead).trans ((congrArg Prod.fst (Footing.stopDie_other _ hd)).trans (congrArg Prod.fst (hbaton.stand d)))
  obtain ⟨hstopped, hdown, hrest⟩ := stopEach_spec false (u.dieList.filter fun d => (u.die d).recov.active) (s := u) fun d hd => by
    have := List.mem_range.mp (List.mem_filter.mp hd).1
    omega
  refine ⟨?_, fun g => ?_, fun d hd hlt hrec => ?_, fun d hd hrec => ?_⟩
  · have hup : (u.die 0).up = false := (congrArg (fun F => (F.stand 0).1) hlead).trans (Footing.stopDie_down _ 0)
    rcases hstopped.down 0 with ⟨hstand, -⟩ | ⟨h, -⟩
    · exact (congrArg Prod.fst hstand).trans hup
    · exact h
  · exact (leaseSt_of_word (hstopped.word.trans hu.word) g).trans (leaseSt_of_part (hbaton.part (footWord_lease g)))
  · refine hdown d (List.mem_filter.mpr ⟨List.mem_range.mpr (by rw [husize.1]; exact hlt), ?_⟩)
    rw [hrecov]
    exact hrec
  · refine (congrArg Prod.fst (hrest d fun hmem => ?_)).trans (hother d hd)
    have := (List.mem_filter.mp hmem).2
    rw [hrecov, hrec] at this
    cases this

section
variable {s : Device} (hup : (s.die 0).up = true) (hdead : LeadDead s)
include hup hdead

theorem pkgWatchdog_of_dead (hstate : pkgState s ≠ Pkg.handover) : pkgWatchdog s = setStart 4 (watchdogStops (leasesOver s)) := by
  obtain ⟨hstall, hle⟩ := hdead
  simp only [pkgWatchdog, hup, hstall, hstate, Nat.not_lt.mpr hle, Bool.not_true, Bool.false_eq_true, or_self, if_false]
  rfl

theorem pkgWatchdog_of_handover (hstate : pkgState s = Pkg.handover) : pkgWatchdog s = s.modSup fun u => { u with wdtDue := true } := by
  obtain ⟨hstall, hle⟩ := hdead
  simp only [pkgWatchdog, hup, hstall, hstate, Nat.not_lt.mpr hle, Bool.not_true, Bool.false_eq_true, or_self, if_false, if_true]

end

/-- The watchdog of the package resets the lead die and the dies that recover, and ends the leases of RUN (R436). -/
theorem pkgWatchdog_spec {s : Device} (hs : s.Canonical s.nDies) (hn : 0 < s.nDies) (h8 : s.nDies ≤ 8) (hup : (s.die 0).up = true)
    (hdead : LeadDead s) (hstate : pkgState s ≠ Pkg.handover) : let t := pkgWatchdog s
    (t.die 0).up = false ∧ t.supply.start = some 4 ∧ (pkgState s = Pkg.run → ∀ g, g < s.nCh → leaseHeld t g = false) ∧
      (∀ d, d ≠ 0 → d < s.nDies → (s.die d).recov.active = true → (t.die d).up = false) ∧
      (∀ d, d ≠ 0 → (s.die d).recov.active = false → (t.die d).up = (s.die d).up) ∧ pkgState t = pkgState s := by
  have hpkg : pkgState (pkgWatchdog s) = pkgState s := inState_pkgWatchdog rfl
  have hover : (leasesOver s).Canonical s.nDies ∧ (∀ d, ((leasesOver s).die d).stand = (s.die d).stand) ∧
      (pkgState s = Pkg.run → ∀ g, g < s.nCh → leaseHeld (leasesOver s) g = false) := by
    unfold leasesOver
    split_ifs with hrun
    · obtain ⟨hcanon, hstand, hheld⟩ := leasesEnd_spec hs h8
      exact ⟨hcanon, hstand, fun _ => hheld⟩
    · exact ⟨hs, fun _ => rfl, fun h => absurd h hrun⟩
  rw [pkgWatchdog_of_dead hup hdead hstate] at hpkg ⊢
  obtain ⟨hcanon, hstand, hheld⟩ := hover
  obtain ⟨hdown, hlease, hrec, hserve⟩ := watchdogStops_spec (s := leasesOver s) (by rw [hcanon.size, hcanon.dies]; exact h8)
    (by rw [hcanon.size]; exact hn)
  have hup' : ∀ d, ((leasesOver s).die d).up = (s.die d).up := fun d => congrArg Prod.fst (hstand d)
  have hrec' : ∀ d, ((leasesOver s).die d).recov = (s.die d).recov := fun d => congrArg (fun x => x.2.2.1) (hstand d)
  refine ⟨hdown, rfl, fun hrun g hg => ?_, fun d hd hlt h => ?_, fun d hd h => ?_, hpkg⟩
  · have := hheld hrun g hg
    rwa [leaseHeld, ← hlease g] at this
  · exact hrec d hd (by rw [hcanon.size]; exact hlt) (by rw [hrec']; exact h)
  · exact (hserve d hd (by rw [hrec']; exact h)).trans (hup' d)

/-! The boundaries of ship mode (R313, R314). -/

theorem shipBoundary_of_written {s : Device} (hship : s.supply.ship = 1) (hw : s.nvm.sectors = 0 ∨
    (s.pget CKPT_STAT_PENDING = 0 ∧ s.pget CKPT_STAT_BUSY = 0) ∨ s.passed s.supply.shipAt (msClocks 50) = true) :
    shipBoundary s = seqOff allRails (s.modSup fun u => { u with ship := 2 }) := by
  unfold shipBoundary
  dsimp only
  rw [if_pos hship, if_neg]
  rcases hw with h | ⟨h, h'⟩ | h <;> simp_all [Device.pbit]

theorem shipBoundary_of_off {s : Device} (hship : s.supply.ship = 2) (hk : s.supply.seq.kind ≠ 2) : shipBoundary s = shipDown s := by
  simp only [shipBoundary, hship, hk]
  rfl

theorem shipBoundary_of_waiting {s : Device} (h : s.supply.ship = 0 ∨ (s.supply.ship = 1 ∧ ¬ (s.nvm.sectors = 0 ∨
    (s.pget CKPT_STAT_PENDING = 0 ∧ s.pget CKPT_STAT_BUSY = 0) ∨ s.passed s.supply.shipAt (msClocks 50) = true)) ∨
    (s.supply.ship = 2 ∧ s.supply.seq.kind = 2)) : shipBoundary s = s := by
  unfold shipBoundary
  dsimp only
  rcases h with h | ⟨h, hw⟩ | ⟨h, hk⟩
  · rw [h]
    rfl
  · rw [if_pos h, if_pos]
    simp only [not_or, not_and] at hw
    obtain ⟨hsec, hpend, hpass⟩ := hw
    simp only [Device.pbit, Bool.and_eq_true, Bool.or_eq_true, decide_eq_true_eq, bne_iff_ne, ne_eq, Bool.not_eq_true',
      Bool.eq_false_iff]
    exact ⟨⟨by omega, by tauto⟩, hpass⟩
  · rw [h, hk]
    rfl

/-- Settles O51: the stop of all dies, the wakes, the resets and the watchdog, each by what it does to the footing of the dies. -/
theorem stopsEnterKeepAndShip : Obligations.StopsEnterKeepAndShip := by
  intro s hs
  have hn : 0 < s.dev.nDies := by rcases hs.size with h | h | h <;> omega
  have h8 : s.dev.nDies ≤ 8 := hs.dies_le
  have hlen : s.dev.nDies ≤ s.dev.dies.length := by rw [hs.canonical.dies]; exact h8
  refine ⟨⟨fun hup hst hlow => ?storeLow, fun hup hst hspent => ?spent, fun h => ?storeEnough, fun h => ?inTime⟩, fun hany => ?collapse,
    fun hall => ?collapsed, fun w hup he hk hship => ⟨fun hok => ?enter, fun hok => ?refused⟩, fun w h => ?notAsked,
    ⟨fun hship hw => ?rails, fun hship hk => ?down, fun h => ?waits⟩, fun hup hst hlatch p hp hvbus => ?wake, fun ms hms => ?short,
    fun h => ?neverLow, fun h => ⟨?noVbusWake, fun ms => ?noWake⟩, ?resetLow, fun h => ?resetRise, fun h => ?resetHigh,
    fun hup hnew => ?cold, fun h => ?notCold, fun hup hnew hlatch hwoke => ?warmWoke, fun hup hnew hlatch hwoke hkeep => ?warmKeep,
    fun h => ?notWarm, fun hup hdead hst => ?watchdog, fun hup hdead hst => ?watchdogWaits, fun h => ?alive⟩
  case storeLow =>
    refine does_dev (f := holdStoreLow) rfl ?_
    rw [holdStoreLow, if_pos ⟨hup, hst, hlow⟩]
    exact controlledStop_spec hn hlen hup
  case spent =>
    refine does_dev (f := holdMaxExpiry) rfl ?_
    rw [holdMaxExpiry, if_pos ⟨hup, hst, hspent⟩]
    exact controlledStop_spec hn hlen hup
  case storeEnough =>
    refine does_dev (f := holdStoreLow) rfl (if_neg fun ⟨hup, hst, hlow⟩ => ?_)
    rcases h with h | h | h
    · rw [h] at hup
      cases hup
    · exact h hst
    · exact h hlow
  case inTime =>
    refine does_dev (f := holdMaxExpiry) rfl (if_neg fun ⟨hup, hst, hspent⟩ => ?_)
    rcases h with h | h | h
    · rw [h] at hup
      cases hup
    · exact h hst
    · exact h hspent
  case collapse =>
    obtain ⟨d, hd, hup⟩ := hany
    have hany : (s.dev.dieList.any fun d => (s.dev.die d).up) = true := List.any_eq_true.mpr ⟨d, List.mem_range.mpr hd, hup⟩
    refine does_dev (f := vsysCollapse) rfl ?_
    rw [vsysCollapse, if_pos hany]
    exact enterKeep_spec hlen rfl
  case collapsed =>
    refine does_dev (f := vsysCollapse) rfl (if_neg fun h => ?_)
    obtain ⟨d, hd, hup⟩ := List.any_eq_true.mp h
    rw [hall d (List.mem_range.mp hd)] at hup
    cases hup
  case enter => exact does_dev (f := shipEnter w) rfl (shipEnter_spec hlen hup he hk hship hok)
  case refused =>
    refine does_dev (f := shipEnter w) rfl ?_
    rw [shipEnter_of_refused hup he hk hship hok]
    exact wordOnly_setReg _ _ _
  case notAsked => exact does_dev (f := shipEnter w) rfl (shipEnter_of_not_asked h)
  case rails =>
    rw [shipBoundary_of_written hship hw]
    obtain ⟨hkept, hoff⟩ := seqOff_spec (s.dev.modSup fun u => { u with ship := 2 })
    exact ⟨hkept, hoff, inState_seqOff (s := s.dev.modSup fun u => { u with ship := 2 }) allRails rfl⟩
  case down =>
    rw [shipBoundary_of_off hship hk]
    exact shipDown_spec hn hlen
  case waits => exact shipBoundary_of_waiting h
  case wake =>
    have hwake : ∀ ms, 100 ≤ ms → shipWakeN ms s.dev = shipExit 1 s.dev := fun ms hms => if_pos hms
    simp only [List.mem_cons, List.not_mem_nil, or_false] at hp
    rcases hp with rfl | rfl | rfl
    · refine does_dev (f := shipWakeN 100) rfl ?_
      rw [hwake 100 (by decide)]
      exact shipExit_spec (by decide) hn hlen hup hst hlatch
    · refine does_dev (f := shipWakeN 5000) rfl ?_
      rw [hwake 5000 (by decide)]
      exact shipExit_spec (by decide) hn hlen hup hst hlatch
    · refine does_dev (f := shipVbusWake) rfl ?_
      rw [shipVbusWake, if_pos (hvbus rfl)]
      exact shipExit_spec (by decide) hn hlen hup hst hlatch
  case short => exact does_dev (f := shipWakeN ms) rfl (if_neg (by omega))
  case neverLow => exact does_dev (f := shipVbusWake) rfl (if_neg (by rw [h]; decide))
  case noVbusWake =>
    refine does_dev (f := shipVbusWake) rfl ?_
    rw [shipVbusWake, shipExit_of_not h, ite_self]
  case noWake =>
    refine does_dev (f := shipWakeN ms) rfl ?_
    rw [shipWakeN, shipExit_of_not h, ite_self]
  case resetLow => exact does_dev (f := resetNLow) rfl (resetNLow_spec hlen)
  case resetRise => exact does_dev (f := resetNRise) rfl (resetNRise_spec h)
  case resetHigh => exact does_dev (f := resetNRise) rfl (resetNRise_of_high h)
  case cold => exact does_dev (f := coldPowerOn) rfl (coldPowerOn_spec hup hnew)
  case notCold => exact does_dev (f := coldPowerOn) rfl (coldPowerOn_of_not h)
  case warmWoke =>
    refine does_dev (f := warmStart) rfl ?_
    simp only [warmStart, hup, hnew, hlatch, hwoke]
    rfl
  case warmKeep =>
    refine does_dev (f := warmStart) rfl ?_
    simp only [warmStart, hup, hnew, hlatch, hwoke, hkeep]
    rfl
  case notWarm => exact does_dev (f := warmStart) rfl (warmStart_of_not h)
  case watchdog => exact does_dev (f := pkgWatchdog) rfl (pkgWatchdog_spec hs.canonical hn h8 hup hdead hst)
  case watchdogWaits => exact does_dev (f := pkgWatchdog) rfl (pkgWatchdog_of_handover hup hdead hst)
  case alive => exact does_dev (f := pkgWatchdog) rfl (pkgWatchdog_of_alive h)

end Sys2Proof.Machine
end

section
/-! Proofs of the family of the architecture: the recovery of a die begins, fails, or is given up (O24). -/

namespace Sys2Proof.Machine

/-! What a recovery takes back from a die (R437). -/

/-- Every die stands as it did, and the words of the footing keep what it keeps of them. -/
def Keeps (s t : Device) : Prop :=
  (∀ d, (t.die d).stand = (s.die d).stand) ∧ ∀ a, footWord a = true → footPart a (t.reg a) = footPart a (s.reg a)

theorem Keeps.trans {s t u : Device} (hst : Keeps s t) (htu : Keeps t u) : Keeps s u :=
  ⟨fun d => (htu.1 d).trans (hst.1 d), fun a ha => (htu.2 a ha).trans (hst.2 a ha)⟩

theorem HuskOnly.keeps {s t : Device} (h : HuskOnly s t) : Keeps s t := ⟨h.stand, fun _ ha => h.part ha⟩

section
variable (s : Device)

@[simp] theorem footing_setMap {lo hi : Fld .pkg} (hlo : footWord lo.off = false) (hhi : footWord hi.off = false) (g : Nat) (on : Bool) :
    footing (setMap lo hi g on s) = footing s := by
  unfold setMap
  split_ifs
  · exact footing_psetBit s _ _ _ hlo
  · exact footing_psetBit s _ _ _ hhi

@[simp] theorem footing_valveBatons : footing (valveBatons s) = footing s := by
  simp (disch := decide) [valveBatons, footing_pset]

/-- A lease of the die that is taken back. -/
def leaseTaken (g : Nat) (s : Device) : Device :=
  setMap BUS_PAUSE_MAP_0 BUS_PAUSE_MAP_1 g false (setMap BUS_QUEUE_MAP_0 BUS_QUEUE_MAP_1 g false (s.modLease g fun _ => .reset))

theorem footing_leaseTaken (g : Nat) : footing (leaseTaken g s) = footing (s.modLease g fun _ => .reset) := by
  rw [leaseTaken, footing_setMap _ (by decide) (by decide), footing_setMap _ (by decide) (by decide)]

theorem keeps_leaseTaken (g : Nat) : Keeps s (leaseTaken g s) :=
  ⟨fun d => stand_of_footing (footing_leaseTaken s g) d, fun _ ha => part_of_footing (footing_leaseTaken s g) ha⟩

theorem lease_leaseTaken {g : Nat} (hg : g < s.chans.length) (h : Nat) :
    ((leaseTaken g s).ch h).lease = if h = g then .reset else (s.ch h).lease := by
  refine (lease_of_footing (footing_leaseTaken s g) h).trans ?_
  split_ifs with e
  · rw [e, Device.modLease, Device.ch_modCh_self _ hg]
  · rw [Device.modLease, Device.ch_modCh_ne _ e]

/-- The batons of a die that is taken back: the flash's stream, its bank and its boosts. -/
def batonsTaken (d : Nat) (s : Device) : Device :=
  let s := if s.nvm.streaming = some d then nvmBatonLost s else s
  let s := if ((s.bankAt[d]?).getD none).isSome then
      logEvent Cat.link 0 0x0B d 2 (valveBatons ((s.setBanks (s.bankAt.set d none)).pset BATON_STAT_BANK_EXP_EVT 1))
    else s
  (s.grants.filter fun p => p.1 / 4 == d).foldl (fun t p =>
    logEvent Cat.link 0 0x0B d 3 (valveBatons
      ((t.setGrants (t.grants.filter fun q => q.1 != p.1)).pset BATON_STAT_VBST_EXP_EVT 1))) s

theorem takeBack_eq (d : Nat) : takeBack d s = batonsTaken d (s.each (chansOf d) leaseTaken) := rfl

theorem huskOnly_batonsTaken (d : Nat) : HuskOnly s (batonsTaken d s) := by
  have hbanks : ∀ (t : Device) l, footing (t.setBanks l) = footing t := fun _ _ => rfl
  have hgrants : ∀ (t : Device) l, footing (t.setGrants l) = footing t := fun _ _ => rfl
  have hstream : HuskOnly s (if s.nvm.streaming = some d then nvmBatonLost s else s) := by
    split_ifs
    · exact huskOnly_nvmBatonLost s
    · exact .of_eq rfl
  unfold batonsTaken
  refine hstream.trans ?_
  generalize (if s.nvm.streaming = some d then nvmBatonLost s else s) = t
  refine HuskOnly.of_eq ((footing_foldl _ _ fun u p => ?_).trans ?_)
  · rw [footing_logEvent, footing_valveBatons, footing_pset _ _ _ (by decide), hgrants]
  · split_ifs
    · rw [footing_logEvent, footing_valveBatons, footing_pset _ _ _ (by decide), hbanks]
    · rfl

end

/-- What a recovery takes back are leases: the dies stand as they did, and every lease of the die is gone (R437). -/
theorem takeBack_spec {d : Nat} {s : Device} (hd : d < 8) (hlen : s.chans.length = 64) : Keeps s (takeBack d s) ∧
    ∀ g, g / 8 = d → ((takeBack d s).ch g).lease = .reset := by
  have hlt : ∀ g ∈ chansOf d, g < 64 := fun g hg => by have := mem_chansOf.mp hg; omega
  have hstep : ∀ g ∈ chansOf d, ∀ t, (Keeps s t ∧ t.chans.length = 64) → (Keeps s (leaseTaken g t) ∧ (leaseTaken g t).chans.length = 64) :=
    fun g _ t ht => ⟨ht.1.trans (keeps_leaseTaken t g),
      (chansLength_of_footing (footing_leaseTaken t g)).trans ((List.length_modify ..).trans ht.2)⟩
  have hrefl : Keeps s s := ⟨fun _ => rfl, fun _ _ => rfl⟩
  have hloop := (each_keeps (I := fun t => Keeps s t ∧ t.chans.length = 64) (f := leaseTaken) (chansOf d) ⟨hrefl, hlen⟩ hstep).1
  have hlease := each_establishes (I := fun t => Keeps s t ∧ t.chans.length = 64) (R := fun g t => (t.ch g).lease = .reset)
    (f := leaseTaken) (chansOf d) ⟨hrefl, hlen⟩ hstep
    (fun g hg t ht => by rw [lease_leaseTaken t (by rw [ht.2]; exact hlt g hg), if_pos rfl])
    (fun g hg h t ht hh => by rw [lease_leaseTaken t (by rw [ht.2]; exact hlt g hg), hh, ite_self])
  have hbatons := huskOnly_batonsTaken (s.each (chansOf d) leaseTaken) d
  rw [takeBack_eq]
  exact ⟨hloop.trans hbatons.keeps, fun g hg => (hbatons.lease g).trans (hlease g (mem_chansOf.mpr hg))⟩

/-! DIE_WDT, and RECOV_STAT (R446, R447). -/

theorem footWord_dieWdt {d : Nat} (hd : d < 8) : footWord (dieAddr d 0x50) = true := by
  unfold footWord dieAddr
  simp
  omega

section
variable {s t : Device} {d : Nat} (hd : d < 8)
include hd

theorem dieWdt_of_parts (h : ∀ a, footWord a = true → footPart a (t.reg a) = footPart a (s.reg a)) :
    t.reg (dieAddr d 0x50) = s.reg (dieAddr d 0x50) := by
  have := h _ (footWord_dieWdt hd)
  rw [footPart, footPart, if_pos (by unfold dieAddr; omega), if_pos (by unfold dieAddr; omega)] at this
  exact BitVec.eq_of_toNat_eq this

theorem fails_of_parts (h : ∀ a, footWord a = true → footPart a (t.reg a) = footPart a (s.reg a)) :
    t.dget d DIE_WDT_FAILS = s.dget d DIE_WDT_FAILS := congrArg DIE_WDT_FAILS.get (dieWdt_of_parts hd h)

end

theorem parts_of_word {s t : Device} (h : (footing t).word = (footing s).word) (a : Nat) (ha : footWord a = true) :
    footPart a (t.reg a) = footPart a (s.reg a) := by
  have := congrFun h a
  simpa only [footing, ha, if_true] using this

theorem recovStat_of_parts {s t : Device} (h : ∀ a, footWord a = true → footPart a (t.reg a) = footPart a (s.reg a)) :
    t.reg 0xD2 = s.reg 0xD2 := by
  have := h 0xD2 (by decide)
  rw [footPart, footPart, if_pos (by decide), if_pos (by decide)] at this
  exact BitVec.eq_of_toNat_eq this

/-- A bit that is set in a field reads as set. -/
theorem testBit_psetBit (s : Device) {f : Fld .pkg} (h : f.lo ≤ f.hi ∧ f.hi < 32) {i : Nat} (hi : i < f.width) (b : Bool) :
    ((s.psetBit f i b).pget f).testBit i = b := by
  rw [Device.psetBit, Device.pget_pset_self _ _ _ h, Nat.testBit_mod_two_pow]
  split_ifs with hb
  · simp [hi, hb]
  · rw [Nat.testBit_xor, Nat.testBit_two_pow_self, Bool.eq_not.mpr hb, decide_eq_true hi, Bool.true_and, Bool.xor_true, Bool.not_not]

/-! A recovery begins (R32, R437). -/

/-- The device once the recovery of a die is noted. -/
def recoveryNoted (d cause attempt : Nat) (s : Device) : Device :=
  ((((logEvent Cat.link 0 0x06 d (cause + attempt * 256) (s.dinc d DIE_WDT_RECOVERIES)).pset RECOV_STAT_LAST_DIE d).pset
    RECOV_STAT_LAST_CAUSE cause).pset RECOV_STAT_REC_EVT 1).psetBit RECOV_STAT_IN_RECOVERY d true

/-- A die whose recovery is in progress, from a clock on. -/
def DieSt.recovering (at_ : Nat) (x : DieSt) : DieSt := { x with
  link := linkAnew x.link
  recov := { x.recov with active := true, trying := true, since := at_, doneAt := none, ctlAt := none } }

theorem recoverDie_eq (d cause : Nat) (s : Device) : recoverDie d cause s =
    publishDies ((mainStop true d (recoveryNoted d cause (min (s.dget d DIE_WDT_FAILS + 1) 3) (dropReads d (takeBack d s)))).modDie d
      (DieSt.recovering s.now)) := rfl

section
variable {d cause attempt : Nat} {s : Device}

theorem body_recoveryNoted : body (recoveryNoted d cause attempt s) = body s := by
  have hdinc : body (s.dinc d DIE_WDT_RECOVERIES) = body s := body_setReg s _ _
  rw [recoveryNoted, body_psetBit, body_pset, body_pset, body_pset, body_of_footing _ (footing_logEvent _ _ _ _ _ _), hdinc]

theorem fails_recoveryNoted (hd : d < 8) : (recoveryNoted d cause attempt s).dget d DIE_WDT_FAILS = s.dget d DIE_WDT_FAILS := by
  rw [recoveryNoted, Device.psetBit, Device.dget_pset _ _ _ _ _ (by decide), Device.dget_pset _ _ _ _ _ (by decide),
    Device.dget_pset _ _ _ _ _ (by decide), Device.dget_pset _ _ _ _ _ (by decide),
    fails_of_parts hd fun _ ha => part_of_footing (footing_logEvent _ _ _ _ _ _) ha, Device.dinc,
    Device.dget_dset_apart _ _ _ _ _ (by decide)]

theorem recovStat_recoveryNoted (hd : d < 8) (hc : cause < 16) : let t := recoveryNoted d cause attempt s
    t.pget RECOV_STAT_LAST_DIE = d ∧ t.pget RECOV_STAT_LAST_CAUSE = cause ∧ t.pget RECOV_STAT_REC_EVT = 1 ∧
      (t.pget RECOV_STAT_IN_RECOVERY).testBit d = true := by
  unfold recoveryNoted
  refine ⟨?_, ?_, ?_, testBit_psetBit _ (by decide) hd _⟩
  · rw [Device.psetBit, Device.pget_pset_apart _ _ _ _ (by decide), Device.pget_pset_apart _ _ _ _ (by decide),
      Device.pget_pset_apart _ _ _ _ (by decide), Device.pget_pset_self _ _ _ (by decide)]
    exact Nat.mod_eq_of_lt hd
  · rw [Device.psetBit, Device.pget_pset_apart _ _ _ _ (by decide), Device.pget_pset_apart _ _ _ _ (by decide),
      Device.pget_pset_self _ _ _ (by decide)]
    exact Nat.mod_eq_of_lt hc
  · rw [Device.psetBit, Device.pget_pset_apart _ _ _ _ (by decide), Device.pget_pset_self _ _ _ (by decide)]
    rfl

theorem die_publishDies (s : Device) (e : Nat) : (publishDies s).die e = s.die e := by
  rw [(regsOnly_publishDies s).1]
  rfl

theorem ch_publishDies (s : Device) (g : Nat) : (publishDies s).ch g = s.ch g := by
  rw [(regsOnly_publishDies s).1]
  rfl

theorem recoverDie_spec (hs : s.Canonical s.nDies) (hd : d < s.nDies) (h8 : s.nDies ≤ 8) (hc : cause < 16) :
    let t := recoverDie d cause s
    t.pget RECOV_STAT_LAST_DIE = d ∧ t.pget RECOV_STAT_LAST_CAUSE = cause ∧ t.pget RECOV_STAT_REC_EVT = 1 ∧
      (t.pget RECOV_STAT_IN_RECOVERY).testBit d = true ∧ (t.pget PKG_STATE_DIES_HUSK).testBit d = true ∧
      (t.die d).up = false ∧ ((s.die d).up = true → (t.die d).husk = true ∧ (t.die d).ctl = false) ∧
      (t.die d).link.trained = false ∧ (t.die d).recov = { (s.die d).recov with
        active := true, trying := true, since := s.now, doneAt := none, ctlAt := none } ∧
      (∀ g, g < 64 → g / 8 = d → (t.ch g).lease.inForce = false) ∧
      t.dget d DIE_WDT_FAILS = s.dget d DIE_WDT_FAILS ∧
      (∀ e, e ≠ d → (t.die e).up = (s.die e).up) := by
  have hd8 : d < 8 := by omega
  obtain ⟨hkeeps, hlease⟩ := takeBack_spec hd8 hs.chans
  have htaken : (takeBack d s).Canonical s.nDies := canonical_takeBack d hs
  have hdrop : footing (dropReads d (takeBack d s)) = footing (takeBack d s) := footing_setBulk _ _ _
  rw [recoverDie_eq]
  obtain ⟨hlast, hcause, hevt, hin⟩ := recovStat_recoveryNoted (attempt := min (s.dget d DIE_WDT_FAILS + 1) 3)
    (s := dropReads d (takeBack d s)) hd8 hc
  have hfails := fails_recoveryNoted (cause := cause) (attempt := min (s.dget d DIE_WDT_FAILS + 1) 3) (s := dropReads d (takeBack d s)) hd8
  have hbody := (body_recoveryNoted (d := d) (cause := cause) (attempt := min (s.dget d DIE_WDT_FAILS + 1) 3)
    (s := dropReads d (takeBack d s))).trans (body_of_footing _ hdrop)
  generalize recoveryNoted d cause (min (s.dget d DIE_WDT_FAILS + 1) 3) (dropReads d (takeBack d s)) = w at hlast hcause hevt hin hfails hbody
  have hwlen : w.dies.length = 8 := (congrArg (fun F => F.size.2.1) hbody).trans htaken.dies
  have hwn : w.nDies = s.nDies := (congrArg (fun F => F.size.1) hbody).trans htaken.size
  have hwstand : ∀ e, (w.die e).stand = (s.die e).stand := fun e => (congrFun (congrArg Footing.stand hbody) e).trans (hkeeps.1 e)
  have hstop := footing_mainStop (s := w) (d := d) true (by omega)
  generalize hm : mainStop true d w = m at hstop
  have hstopped : (footing w).Stopped (footing m) := by rw [hstop]; exact (Footing.Stopped.refl _).stopDie d
  have hmlen : m.dies.length = 8 := (congrArg (fun n => n.2.1) hstopped.size).trans hwlen
  have hmn : m.nDies = s.nDies := (congrArg Prod.fst hstopped.size).trans hwn
  have hself : (m.modDie d (DieSt.recovering s.now)).die d = (m.die d).recovering s.now := Device.die_modDie_self _ (by omega) _
  have hrecov : (m.die d).recov = (s.die d).recov := (congrArg Prod.fst (hstopped.kept d)).trans (congrArg (fun x => x.2.2.1) (hwstand d))
  have hreg : (publishDies (m.modDie d (DieSt.recovering s.now))).reg 0xD2 = w.reg 0xD2 :=
    ((regsOnly_publishDies _).2 0xD2 (by omega)).trans (recovStat_of_parts (parts_of_word hstopped.word))
  have hget : ∀ f : Fld .pkg, f.off = 0xD2 → (publishDies (m.modDie d (DieSt.recovering s.now))).pget f = w.pget f := fun f hf => by
    rw [Device.pget, Device.pget, hf, hreg]
  have hdie : (publishDies (m.modDie d (DieSt.recovering s.now))).die d = (m.die d).recovering s.now := (die_publishDies _ d).trans hself
  refine ⟨(hget _ rfl).trans hlast, (hget _ rfl).trans hcause, (hget _ rfl).trans hevt, by rw [hget _ rfl]; exact hin,
    diesHusk_publishDies (s := m.modDie d _) (by rw [Device.modDie_nDies, hmn]; exact hd) (by rw [Device.modDie_nDies, hmn]; exact h8)
      (by rw [hself]; rfl), ?_, fun hup => ?_, by rw [hdie]; rfl, ?_, fun g _ hg => ?_, ?_, fun e he => ?_⟩
  · rw [hdie]
    exact (congrArg (fun F => (F.stand d).1) hstop).trans (Footing.stopDie_down _ d)
  · obtain ⟨hctl, hhusk⟩ := Footing.stopDie_of_up (F := footing w) ((congrArg Prod.fst (hwstand d)).trans hup)
    rw [← hstop] at hctl hhusk
    rw [hdie]
    exact ⟨hhusk, hctl⟩
  · rw [hdie, DieSt.recovering, hrecov]
  · have hlease' : (m.ch g).lease = .reset := (congrFun hstopped.lease g).trans ((congrFun (congrArg Footing.lease hbody) g).trans (hlease g hg))
    rw [ch_publishDies]
    exact congrArg Lease.inForce hlease'
  · refine (fails_of_parts hd8 fun _ ha => part_of_footing (footing_publishDies _) ha).trans ?_
    exact (fails_of_parts hd8 (parts_of_word hstopped.word)).trans (hfails.trans (fails_of_parts hd8 hkeeps.2))
  · rw [die_publishDies, Device.die_modDie_ne _ he]
    exact (congrArg (fun F => (F.stand e).1) hstop).trans ((congrArg Prod.fst (Footing.stopDie_other _ he)).trans (congrArg Prod.fst (hwstand e)))

end

/-! A recovery is given up (R438, R439). -/

section
variable {d : Nat} {s : Device}

theorem die_of_eventOnly {t : Device} (h : EventOnly s t) (d : Nat) : t.die d = s.die d := by
  rw [h.1]
  rfl

/-- A die that is benched out. -/
def DieSt.benched (x : DieSt) : DieSt := { x with
  staging := [], stagingDrop := 0
  recov := { x.recov with active := false, trying := false, doneAt := none, ctlAt := none, benched := true } }

/-- The device once a die is benched out, its maps aside. -/
def benchNoted (d : Nat) (s : Device) : Device :=
  (((s.modDie d DieSt.benched).psetBit LINK_STAT_BENCHED d true).psetBit RECOV_STAT_IN_RECOVERY d false).pset RECOV_STAT_BENCH_EVT 1

theorem die_benchNoted (hlt : d < s.dies.length) : (benchNoted d s).die d = (s.die d).benched := by
  rw [benchNoted, Device.pset, Device.setReg_die, Device.psetBit, Device.pset, Device.setReg_die, Device.psetBit, Device.pset,
    Device.setReg_die, Device.die_modDie_self _ hlt]

theorem benchOut_eq (d : Nat) (s : Device) : benchOut d s = publishDies (logEvent Cat.link 0 0x08 d 0
    (benchNoted d (dropReads d (dropPosts d (valvesHusk d (mainStop true d (takeBack d s))))))) := by
  have hdie : ∀ t : Device, ((t.modDie d fun x => { x with staging := [], stagingDrop := 0 }).modRecov d fun r => { r with
      active := false, trying := false, doneAt := none, ctlAt := none, benched := true }) = t.modDie d DieSt.benched := fun _ => modDie_modDie d _ _
  unfold benchOut benchNoted
  dsimp only
  rw [hdie]

theorem footing_dropPosts (d : Nat) (s : Device) : footing (dropPosts d s) = footing s := by
  unfold dropPosts
  dsimp only
  split_ifs
  · rw [footing_pset _ _ _ (by decide), footing_modHost]
  · exact footing_modHost _ _

/-- A die that is benched out is down, out of recovery, and shown as benched. -/
theorem benchOut_spec (hs : s.Canonical s.nDies) (hd : d < s.nDies) (h8 : s.nDies ≤ 8) : let t := benchOut d s
    (t.die d).up = false ∧ (t.die d).recov.benched = true ∧ (t.die d).recov.active = false ∧
      (t.pget LINK_STAT_BENCHED).testBit d = true ∧ t.pget RECOV_STAT_BENCH_EVT = 1 ∧
      (t.pget RECOV_STAT_IN_RECOVERY).testBit d = false := by
  have hd8 : d < 8 := by omega
  have htaken : (takeBack d s).Canonical s.nDies := canonical_takeBack d hs
  have hstop := footing_mainStop (s := takeBack d s) (d := d) true (by rw [htaken.dies]; exact hd8)
  rw [benchOut_eq]
  have hu : footing (dropReads d (dropPosts d (valvesHusk d (mainStop true d (takeBack d s))))) = (footing (takeBack d s)).stopDie d := by
    rw [dropReads, footing_setBulk, footing_dropPosts, footing_valvesHusk, hstop]
  generalize dropReads d (dropPosts d (valvesHusk d (mainStop true d (takeBack d s)))) = u at hu
  have hulen : u.dies.length = 8 := by
    have hstopped : (footing (takeBack d s)).Stopped (footing u) := by rw [hu]; exact (Footing.Stopped.refl _).stopDie d
    exact (congrArg (fun n => n.2.1) hstopped.size).trans htaken.dies
  have hup : (u.die d).up = false := (congrArg (fun F => (F.stand d).1) hu).trans (Footing.stopDie_down _ d)
  have hevent := eventOnly_logEvent_lead Cat.link 0x08 d 0 (benchNoted d u)
  have hdie : (publishDies (logEvent Cat.link 0 0x08 d 0 (benchNoted d u))).die d = (u.die d).benched := by
    rw [die_publishDies, die_of_eventOnly hevent, die_benchNoted (by rw [hulen]; exact hd8)]
  have hget : ∀ f : Fld .pkg, f.off = 0xD1 ∨ f.off = 0xD2 →
      (publishDies (logEvent Cat.link 0 0x08 d 0 (benchNoted d u))).pget f = (benchNoted d u).pget f := fun f hf => by
    have hreg : ∀ a, a = 0xD1 ∨ a = 0xD2 → (publishDies (logEvent Cat.link 0 0x08 d 0 (benchNoted d u))).reg a = (benchNoted d u).reg a := by
      rintro a (rfl | rfl)
      · exact ((regsOnly_publishDies _).2 _ (by omega)).trans (hevent.2 _ (by decide))
      · exact ((regsOnly_publishDies _).2 _ (by omega)).trans (hevent.2 _ (by decide))
    rw [Device.pget, Device.pget, hreg _ hf]
  refine ⟨by rw [hdie]; exact hup, by rw [hdie]; rfl, by rw [hdie]; rfl, ?_, ?_, ?_⟩
  · rw [hget _ (.inl rfl), benchNoted, Device.pget_pset_apart _ _ _ _ (by decide), Device.psetBit,
      Device.pget_pset_apart _ _ _ _ (by decide)]
    exact testBit_psetBit _ (by decide) hd8 true
  · rw [hget _ (.inr rfl), benchNoted, Device.pget_pset_self _ _ _ (by decide)]
    rfl
  · rw [hget _ (.inr rfl), benchNoted, Device.pget_pset_apart _ _ _ _ (by decide)]
    exact testBit_psetBit _ (by decide) hd8 false

/-! The attempts of a recovery, counted (R438). -/

theorem attemptFails_of_last (h : 2 ≤ s.dget d DIE_WDT_FAILS) : attemptFails d s = benchOut d (s.dinc d DIE_WDT_FAILS) := by
  refine if_pos ?_
  rw [Device.dinc, Device.dget_dset_self _ _ _ _ (by decide)]
  have hwidth : s.dget d DIE_WDT_FAILS < 4 := Nat.mod_lt _ (by decide)
  show 3 ≤ min (s.dget d DIE_WDT_FAILS + 1) (2 ^ 2 - 1) % 2 ^ 2
  omega

theorem attemptFails_of_early (h : s.dget d DIE_WDT_FAILS < 2) : attemptFails d s = s.dinc d DIE_WDT_FAILS ∧
    (s.dinc d DIE_WDT_FAILS).dget d DIE_WDT_FAILS = s.dget d DIE_WDT_FAILS + 1 := by
  have hnext : (s.dinc d DIE_WDT_FAILS).dget d DIE_WDT_FAILS = s.dget d DIE_WDT_FAILS + 1 := by
    rw [Device.dinc, Device.dget_dset_self _ _ _ _ (by decide)]
    show min (s.dget d DIE_WDT_FAILS + 1) (2 ^ 2 - 1) % 2 ^ 2 = _
    omega
  exact ⟨if_neg (by rw [hnext]; omega), hnext⟩

end

end Sys2Proof.Machine
end

section
/-! Proofs of the family of the architecture: the attempts of a recovery, and its end (O24). -/

namespace Sys2Proof.Machine

section
variable {d : Nat} {s : Device}

/-- The die has returned less than STABLE seconds ago, so that a start counts that attempt as failed (R438). -/
def fellAgain (s : Device) (d : Nat) : Bool := (s.die d).recov.doneAt.any fun t => !s.passed t (secClocks (s.pget FAULT_CFG_STABLE))

theorem recoveryStart_of_unrecoverable {cause : Nat} (h : recoverable d s = false) : recoveryStart d cause s = s :=
  if_pos (by rw [h]; rfl)

/-- A start counts a return before it as failed, and begins unless that benches the die out. -/
def startAfter (again : Bool) (d cause : Nat) (s : Device) : Device :=
  let s := if again then attemptFails d s else s
  if (s.die d).recov.benched then s else recoverDie d cause s

theorem recoveryStart_eq {cause : Nat} (h : recoverable d s = true) : recoveryStart d cause s = startAfter (fellAgain s d) d cause s := by
  unfold recoveryStart
  rw [if_neg (by rw [h]; decide)]
  have hsome : ∀ t, (s.die d).recov.doneAt = some t → fellAgain s d = !s.passed t (secClocks (s.pget FAULT_CFG_STABLE)) := fun t ht => by
    rw [fellAgain, ht, Option.any_some]
  have hnone : (s.die d).recov.doneAt = none → fellAgain s d = false := fun ht => by
    rw [fellAgain, ht, Option.any_none]
  split
  · next t ht => rw [hsome t ht, startAfter]
  · next ht => rw [hnone ht, startAfter]

end

theorem not_benched_of_recoverable {d : Nat} {s : Device} (h : recoverable d s = true) : (s.die d).recov.benched = false := by
  simp only [recoverable, Bool.and_eq_true, Bool.not_eq_true'] at h
  exact h.1.1.2

section
variable {d cause : Nat} {s : Device} (hs : s.Canonical s.nDies) (hd : d < s.nDies) (h8 : s.nDies ≤ 8)
  (hrec : recoverable d s = true)
include hs hd h8 hrec

/-- A start of a recovery, which counts a return shortly before it as failed (R32, R438). -/
theorem recoveryStart_spec (hc : cause < 16) (hearly : fellAgain s d = false ∨ s.dget d DIE_WDT_FAILS < 2) : let t := recoveryStart d cause s
    t.pget RECOV_STAT_LAST_DIE = d ∧ t.pget RECOV_STAT_LAST_CAUSE = cause ∧ t.pget RECOV_STAT_REC_EVT = 1 ∧
      (t.pget RECOV_STAT_IN_RECOVERY).testBit d = true ∧ (t.pget PKG_STATE_DIES_HUSK).testBit d = true ∧
      (t.die d).up = false ∧ ((s.die d).up = true → (t.die d).husk = true ∧ (t.die d).ctl = false) ∧
      (t.die d).link.trained = false ∧ (t.die d).recov = { (s.die d).recov with
        active := true, trying := true, since := s.now, doneAt := none, ctlAt := none } ∧
      (∀ g, g < 64 → g / 8 = d → (t.ch g).lease.inForce = false) ∧
      (fellAgain s d = true → t.dget d DIE_WDT_FAILS = s.dget d DIE_WDT_FAILS + 1) ∧
      ∀ e, e ≠ d → (t.die e).up = (s.die e).up := by
  have hbench := not_benched_of_recoverable hrec
  rw [recoveryStart_eq hrec]
  cases hagain : fellAgain s d with
  | false =>
    have heq : startAfter false d cause s = recoverDie d cause s := if_neg (by simpa using hbench)
    obtain ⟨h1, h2, h3, h4, h5, h6, h7, h9, h10, h11, -, h12⟩ := recoverDie_spec hs hd h8 hc
    rw [heq]
    exact ⟨h1, h2, h3, h4, h5, h6, h7, h9, h10, h11, fun h => absurd h (by decide), h12⟩
  | true =>
    obtain ⟨hfails, hnext⟩ := attemptFails_of_early (hearly.resolve_left (by rw [hagain]; decide))
    have hdie : ∀ e, (s.dinc d DIE_WDT_FAILS).die e = s.die e := fun e => by rw [Device.dinc, Device.dset, Device.setReg_die]
    have hn : (s.dinc d DIE_WDT_FAILS).nDies = s.nDies := by rw [Device.dinc, Device.dset, Device.setReg_nDies]
    have hnow : (s.dinc d DIE_WDT_FAILS).now = s.now := by
      rw [Device.now, Device.now, Device.dinc, Device.dset, Device.setReg_frame, Device.setReg_clk]
    have heq : startAfter true d cause s = recoverDie d cause (s.dinc d DIE_WDT_FAILS) := by
      rw [startAfter, if_pos rfl, hfails, hdie, hbench]
      exact if_neg (by decide)
    have hcanon : (s.dinc d DIE_WDT_FAILS).Canonical (s.dinc d DIE_WDT_FAILS).nDies := by rw [hn]; exact Device.canonical_dinc _ _ hs
    obtain ⟨h1, h2, h3, h4, h5, h6, h7, h9, h10, h11, h12, h13⟩ := recoverDie_spec (cause := cause) hcanon (by rw [hn]; exact hd)
      (by rw [hn]; exact h8) hc
    rw [heq]
    rw [hdie] at h7 h10
    rw [hnow] at h10
    exact ⟨h1, h2, h3, h4, h5, h6, h7, h9, h10, h11, fun _ => h12.trans hnext, fun e he => (h13 e he).trans (congrArg DieSt.up (hdie e))⟩

/-- The third failed attempt benches the die out (R438). -/
theorem recoveryStart_benches (hagain : fellAgain s d = true) (hlast : 2 ≤ s.dget d DIE_WDT_FAILS) : let t := recoveryStart d cause s
    (t.die d).up = false ∧ (t.die d).recov.benched = true ∧ (t.pget LINK_STAT_BENCHED).testBit d = true := by
  have hn : (s.dinc d DIE_WDT_FAILS).nDies = s.nDies := by rw [Device.dinc, Device.dset, Device.setReg_nDies]
  obtain ⟨hup, hbenched, -, hbit, -⟩ := benchOut_spec (d := d) (s := s.dinc d DIE_WDT_FAILS) (by rw [hn]; exact Device.canonical_dinc _ _ hs)
    (by rw [hn]; exact hd) (by rw [hn]; exact h8)
  have heq : startAfter true d cause s = benchOut d (s.dinc d DIE_WDT_FAILS) := by
    rw [startAfter, if_pos rfl, attemptFails_of_last hlast]
    exact if_pos hbenched
  rw [recoveryStart_eq hrec, hagain, heq]
  exact ⟨hup, hbenched, hbit⟩

end

/-! The end of an attempt (R438). -/

/-- The attempt to recover a die has not ended after 100 ms. -/
def attemptLate (s : Device) (d : Nat) : Prop := (s.die d).recov.trying = true ∧ s.passed (s.die d).recov.since (msClocks 100) = true

/-- The device with the die down whose attempt has failed. -/
def attemptOver (d : Nat) (s : Device) : Device := (mainStop true d s).modRecov d fun r => { r with trying := false }

section
variable {d : Nat} {s : Device} (hs : s.Canonical s.nDies) (hd : d < s.nDies) (h8 : s.nDies ≤ 8)

theorem recoveryTimeout_of_not_late (h : ¬ attemptLate s d) : recoveryTimeout d s = s := by
  refine if_pos ?_
  by_cases htry : (s.die d).recov.trying = true
  · have hpass : s.passed (s.die d).recov.since (msClocks 100) = false := Bool.eq_false_iff.mpr fun hp => h ⟨htry, hp⟩
    rw [hpass, Bool.and_false]
    rfl
  · rw [Bool.eq_false_iff.mpr htry]
    rfl

theorem recoveryTimeout_of_late (h : attemptLate s d) : recoveryTimeout d s = attemptFails d (attemptOver d s) := by
  obtain ⟨htry, hpass⟩ := h
  exact if_neg (by rw [htry, hpass]; decide)

include hs hd h8

theorem attemptOver_spec : (attemptOver d s).Canonical s.nDies ∧ ((attemptOver d s).die d).up = false ∧
    ((attemptOver d s).die d).recov = { (s.die d).recov with trying := false } ∧
    (attemptOver d s).dget d DIE_WDT_FAILS = s.dget d DIE_WDT_FAILS := by
  have hlt : d < s.dies.length := by rw [hs.dies]; omega
  have hcanon : (mainStop true d s).Canonical s.nDies := canonical_mainStop true d hs
  have hstop := footing_mainStop true hlt
  have hstopped : (footing s).Stopped (footing (mainStop true d s)) := by rw [hstop]; exact (Footing.Stopped.refl _).stopDie d
  have hself : (attemptOver d s).die d = { (mainStop true d s).die d with
      recov := { ((mainStop true d s).die d).recov with trying := false } } :=
    Device.die_modDie_self _ (by rw [hcanon.dies]; omega) _
  refine ⟨Device.canonical_modRecov d _ hcanon, ?_, ?_, fails_of_parts (by omega) (parts_of_word hstopped.word)⟩
  · rw [hself]
    exact (congrArg (fun F => (F.stand d).1) hstop).trans (Footing.stopDie_down _ d)
  · have hrecov : ((mainStop true d s).die d).recov = (s.die d).recov := congrArg Prod.fst (hstopped.kept d)
    rw [hself, hrecov]

/-- An attempt that fails leaves its die down and is counted (R438). -/
theorem recoveryTimeout_fails (h : attemptLate s d) (hearly : s.dget d DIE_WDT_FAILS < 2) : let t := recoveryTimeout d s
    (t.die d).up = false ∧ (t.die d).recov = { (s.die d).recov with trying := false } ∧
      t.dget d DIE_WDT_FAILS = s.dget d DIE_WDT_FAILS + 1 := by
  obtain ⟨-, hup, hrecov, hfails⟩ := attemptOver_spec hs hd h8
  obtain ⟨heq, hnext⟩ := attemptFails_of_early (d := d) (s := attemptOver d s) (by rw [hfails]; exact hearly)
  have hdie : ((attemptOver d s).dinc d DIE_WDT_FAILS).die d = (attemptOver d s).die d := by
    rw [Device.dinc, Device.dset, Device.setReg_die]
  rw [recoveryTimeout_of_late h, heq]
  refine ⟨by rw [hdie]; exact hup, by rw [hdie]; exact hrecov, by rw [hnext, hfails]⟩

/-- The third attempt that fails benches the die out (R438). -/
theorem recoveryTimeout_benches (h : attemptLate s d) (hlast : 2 ≤ s.dget d DIE_WDT_FAILS) : let t := recoveryTimeout d s
    (t.die d).up = false ∧ (t.die d).recov.benched = true ∧ (t.die d).recov.active = false ∧
      (t.pget LINK_STAT_BENCHED).testBit d = true ∧ t.pget RECOV_STAT_BENCH_EVT = 1 ∧
      (t.pget RECOV_STAT_IN_RECOVERY).testBit d = false := by
  obtain ⟨hcanon, -, -, hfails⟩ := attemptOver_spec hs hd h8
  have hn : ((attemptOver d s).dinc d DIE_WDT_FAILS).nDies = s.nDies := (Device.canonical_dinc _ _ hcanon).size
  rw [recoveryTimeout_of_late h, attemptFails_of_last (by rw [hfails]; exact hlast)]
  exact benchOut_spec (by rw [hn]; exact Device.canonical_dinc _ _ hcanon) (by rw [hn]; exact hd) (by rw [hn]; exact h8)

end

/-! A die stays under control (R438). -/

/-- The die has stayed under its step engines for STABLE seconds. -/
def stableFor (s : Device) (d : Nat) : Bool :=
  (s.die d).ctl && (s.die d).recov.ctlAt.any fun t => s.passed t (secClocks (s.pget FAULT_CFG_STABLE))

section
variable {d : Nat} {s : Device}

theorem recoveryStable_eq : recoveryStable d s =
    if stableFor s d then (s.dset d DIE_WDT_FAILS 0).modRecov d fun r => { r with doneAt := none } else s := by
  unfold recoveryStable stableFor
  dsimp only
  cases (s.die d).recov.ctlAt with
  | none => rw [Option.any_none]
  | some t => rw [Option.any_some]

theorem recoveryStable_spec (hlt : d < s.dies.length) (h : stableFor s d = true) : let t := recoveryStable d s
    DieOnly d (· = dieAddr d 0x50) s t ∧ t.dget d DIE_WDT_FAILS = 0 ∧
      t.die d = { s.die d with recov := { (s.die d).recov with doneAt := none } } := by
  rw [recoveryStable_eq, if_pos h]
  have hpget : ∀ (t : Device) (f : Recov → Recov), (t.modRecov d f).dget d DIE_WDT_FAILS = t.dget d DIE_WDT_FAILS := fun _ _ => rfl
  refine ⟨(dieOnly_setReg d _ _ s).trans ((dieOnly_modDie _ _ _).mono fun _ h => h.elim), ?_, ?_⟩
  · rw [hpget, Device.dget_dset_self _ _ _ _ (by decide)]
    rfl
  · rw [Device.modRecov, Device.die_modDie_self _ (by rw [Device.dset, Device.setReg_dies]; exact hlt), Device.dset, Device.setReg_die]

end

end Sys2Proof.Machine
end

section
/-! Proofs of the family of the architecture: the recovering dies come up in husk (O24). -/

namespace Sys2Proof.Machine

/-! What the start of a die leaves of the others (R387, R437). -/

/-- The other dies and their channels, and of the die itself whether it is up, its balls and its recovery. -/
structure Beside where
  dies : Nat → Option DieSt
  own : Bool × Bool × Recov
  chans : Nat → Option Chan
  size : Nat

def beside (d : Nat) (s : Device) : Beside where
  dies e := if e = d then none else some (s.die e)
  own := ((s.die d).up, (s.die d).husk, (s.die d).recov)
  chans g := if g / 8 = d then none else some (s.ch g)
  size := s.dies.length

section
variable (d : Nat) (s : Device)

@[simp] theorem beside_setReg (a : Nat) (w : Word) : beside d (s.setReg a w) = beside d s := (rfl)
@[simp] theorem beside_pset (f : Fld .pkg) (v : Nat) : beside d (s.pset f v) = beside d s := (rfl)
@[simp] theorem beside_dset (e : Nat) (f : Fld .die) (v : Nat) : beside d (s.dset e f v) = beside d s := (rfl)
@[simp] theorem beside_modNvm (f : Nvm → Nvm) : beside d (s.modNvm f) = beside d s := (rfl)
@[simp] theorem beside_nextFree : beside d s.nextFree = beside d s := (rfl)

theorem beside_modDie {f : DieSt → DieSt} (hf : ∀ x, ((f x).up, (f x).husk, (f x).recov) = (x.up, x.husk, x.recov)) :
    beside d (s.modDie d f) = beside d s := by
  unfold beside
  congr 1
  · funext e
    split_ifs with he
    · rfl
    · rw [Device.die_modDie_ne _ he]
  · exact proj_die_modDie (fun x => (x.up, x.husk, x.recov)) hf d d
  · exact List.length_modify ..

theorem beside_of_event {t : Device} (h : EventOnly s t) : beside d t = beside d s := by
  rw [h.1]
  rfl

@[simp] theorem beside_logEvent (cat code obj data : Nat) : beside d (logEvent cat d code obj data s) = beside d s := by
  unfold logEvent
  dsimp only
  split_ifs
  · rw [beside_of_event d _ (eventOnly_ledgerPut _ _), beside_of_event d _ (eventOnly_setIrq _ _ _ _)]
  · rw [beside_modDie, beside_of_event d _ (eventOnly_setIrq _ _ _ _)]
    intro x
    split_ifs <;> rfl

theorem beside_foldl {α : Type} (l : List α) {f : Device → α → Device} (hf : ∀ t a, beside d (f t a) = beside d t) :
    beside d (l.foldl f s) = beside d s := by
  induction l generalizing s with
  | nil => rfl
  | cons a l ih => exact (ih _).trans (hf s a)

@[simp] theorem beside_otpSummary : beside d (otpSummary s) = beside d s := by simp [otpSummary]

@[simp] theorem beside_compatFixed : beside d (compatFixed s) = beside d s := by
  unfold compatFixed
  simp [apply_ite (beside d)]

@[simp] theorem beside_ledgerClear : beside d (ledgerClear s) = beside d s := (rfl)

@[simp] theorem beside_gleanCopy : beside d (gleanCopy d s) = beside d s := beside_modDie d s fun _ => rfl

@[simp] theorem beside_otpLoad : beside d (otpLoad d s) = beside d s := by
  have hpatch : ∀ (t : Device) l, beside d (t.modDie d fun y => { y with patch := l }) = beside d t := fun t l => beside_modDie d t fun _ => rfl
  have hlog : ∀ (t : Device) (l : List Nat) (code : Nat), beside d (l.foldl (fun t a => logEvent Cat.otp d code 0xFF a t) t) = beside d t :=
    fun t l code => beside_foldl d t l fun u a => beside_logEvent d u _ _ _ _
  unfold otpLoad
  simp [apply_ite (beside d), hpatch, hlog]

@[simp] theorem beside_dieWords (isNew : Bool) : beside d (dieWords isNew d s) = beside d s := (rfl)

theorem beside_chansBlank : beside d (s.each (chansOf d) chanBlank) = beside d s := by
  refine each_keeps (I := fun t => beside d t = beside d s) (f := chanBlank) (chansOf d) rfl fun g hg t ht => Eq.trans ?_ ht
  unfold beside chanBlank
  congr 1
  funext h
  split_ifs with hh
  · rfl
  · rw [Device.ch_modCh_ne]
    rintro rfl
    exact hh (mem_chansOf.mp hg)

end

section
variable {d : Nat} {s t : Device} (h : beside d t = beside d s)
include h

theorem die_of_beside {e : Nat} (he : e ≠ d) : t.die e = s.die e := by
  have := congrFun (congrArg Beside.dies h) e
  simpa only [beside, if_neg he, Option.some.injEq] using this

theorem ch_of_beside {g : Nat} (hg : g / 8 ≠ d) : t.ch g = s.ch g := by
  have := congrFun (congrArg Beside.chans h) g
  simpa only [beside, if_neg hg, Option.some.injEq] using this

theorem own_of_beside : ((t.die d).up, (t.die d).husk, (t.die d).recov) = ((s.die d).up, (s.die d).husk, (s.die d).recov) :=
  congrArg Beside.own h

end

/-- A die that starts to recover comes up in husk, and no other die or channel changes (R437). -/
theorem dieStart_spec {d : Nat} {s : Device} (hlt : d < s.dies.length) : let t := dieStart true d s
    (∀ e, e ≠ d → t.die e = s.die e) ∧ (∀ g, g / 8 ≠ d → t.ch g = s.ch g) ∧ t.dies.length = s.dies.length ∧
      (t.die d).up = true ∧ (t.die d).husk = true ∧ (t.die d).recov = { (s.die d).recov with stalled := false } := by
  have hblank : beside d ((dieWords (s.die d).glean.isNew d s).each (chansOf d) chanBlank) = beside d s :=
    (beside_chansBlank d _).trans (beside_dieWords d s _)
  have hloaded : ∀ (u : Device) (c : Prop) [Decidable c], beside d (gleanCopy d (otpLoad d (if c then ledgerClear u else u))) = beside d u :=
    fun u c _ => by
      rw [beside_gleanCopy, beside_otpLoad]
      split_ifs
      · exact beside_ledgerClear d u
      · rfl
  unfold dieStart
  dsimp only
  generalize (dieWords (s.die d).glean.isNew d s).each (chansOf d) chanBlank = b at hblank
  generalize hf : startDie true _ _ = f
  have hstart : ∀ x, ((f x).up, (f x).husk, (f x).recov) = (true, true, { x.recov with stalled := false }) := fun x => by rw [← hf]; rfl
  have hlen : b.dies.length = s.dies.length := congrArg Beside.size hblank
  have hrecov : (b.die d).recov = (s.die d).recov := congrArg (fun x => x.2.2) (own_of_beside hblank)
  have hload := hloaded (b.modDie d f) (d = 0 ∧ (s.die d).glean.isNew = true)
  have hown := (own_of_beside hload).trans (by rw [Device.die_modDie_self _ (by rw [hlen]; exact hlt), hstart, hrecov])
  refine ⟨fun e he => ?_, fun g hg => ?_, ?_, congrArg Prod.fst hown, congrArg (fun x => x.2.1) hown, congrArg (fun x => x.2.2) hown⟩
  · rw [die_of_beside hload he, Device.die_modDie_ne _ he, die_of_beside hblank he]
  · exact (ch_of_beside hload hg).trans (ch_of_beside hblank hg)
  · exact (congrArg Beside.size hload).trans ((List.length_modify ..).trans hlen)

/-- The dies whose attempts are in progress come up, and no other die or channel changes (R437). -/
theorem recoveriesUp_spec {d : Nat} {s : Device} (hlen : s.nDies ≤ s.dies.length) (hd : d < s.nDies) (h0 : (s.die 0).up = true) :
    let t := recoveriesUp s
    ((s.die d).recov.trying = true → (s.die d).up = false → (t.die d).up = true ∧ (t.die d).husk = true ∧
        (t.die d).recov = { (s.die d).recov with stalled := false }) ∧
      ((s.die d).recov.trying = false ∨ (s.die d).up = true → t.die d = s.die d ∧ ∀ g, g / 8 = d → t.ch g = s.ch g) := by
  have heq : recoveriesUp s = publishDies (s.each (recoveringDown s) (dieStart true)) := if_pos h0
  have hlt : ∀ e ∈ recoveringDown s, e < s.dies.length := fun e he => by
    have := List.mem_range.mp (List.mem_filter.mp he).1
    omega
  rw [heq]
  refine ⟨fun htry hup => ?_, fun h => ?_⟩
  · have hstep : ∀ e ∈ recoveringDown s, ∀ t, (t.dies.length = s.dies.length ∧
        { (t.die d).recov with stalled := false } = { (s.die d).recov with stalled := false }) →
        ((dieStart true e t).dies.length = s.dies.length ∧
          { ((dieStart true e t).die d).recov with stalled := false } = { (s.die d).recov with stalled := false }) := fun e he t ht => by
      obtain ⟨hdies, -, hsize, -, -, hrecov⟩ := dieStart_spec (d := e) (s := t) (by rw [ht.1]; exact hlt e he)
      refine ⟨hsize.trans ht.1, Eq.trans ?_ ht.2⟩
      by_cases hde : d = e
      · subst hde
        rw [hrecov]
      · rw [hdies d hde]
    have hrun := each_establishes (I := fun t => t.dies.length = s.dies.length ∧
        { (t.die d).recov with stalled := false } = { (s.die d).recov with stalled := false })
      (R := fun e t => e = d → (t.die d).up = true ∧ (t.die d).husk = true ∧ (t.die d).recov = { (s.die d).recov with stalled := false })
      (f := dieStart true) (recoveringDown s) ⟨rfl, rfl⟩ hstep (fun e he t ht hde => by
        subst hde
        obtain ⟨-, -, -, hup', hhusk, hrecov⟩ := dieStart_spec (d := e) (s := t) (by rw [ht.1]; exact hlt e he)
        exact ⟨hup', hhusk, hrecov.trans ht.2⟩) (fun e he m t ht hm hmd => by
        obtain ⟨hdies, -, -, hup', hhusk, hrecov⟩ := dieStart_spec (d := e) (s := t) (by rw [ht.1]; exact hlt e he)
        by_cases hde : d = e
        · subst hde
          exact ⟨hup', hhusk, hrecov.trans ht.2⟩
        · rw [hdies d hde]
          exact hm hmd)
    rw [die_publishDies]
    exact hrun d (List.mem_filter.mpr ⟨List.mem_range.mpr hd, by rw [htry, hup]; rfl⟩) rfl
  · have hnot : d ∉ recoveringDown s := fun hmem => by
      have := (List.mem_filter.mp hmem).2
      rcases h with h | h <;> simp [h] at this
    have hkept := each_keeps (I := fun t => t.dies.length = s.dies.length ∧ t.die d = s.die d ∧ ∀ g, g / 8 = d → t.ch g = s.ch g)
      (f := dieStart true) (recoveringDown s) ⟨rfl, rfl, fun _ _ => rfl⟩ fun e he t ht => by
        obtain ⟨hlen', hdie, hch⟩ := ht
        obtain ⟨hdies, hchs, hsize, -⟩ := dieStart_spec (d := e) (s := t) (by rw [hlen']; exact hlt e he)
        have hne : d ≠ e := by rintro rfl; exact hnot he
        exact ⟨hsize.trans hlen', (hdies d hne).trans hdie, fun g hg => (hchs g (by rw [hg]; exact hne)).trans (hch g hg)⟩
    exact ⟨(die_publishDies _ d).trans hkept.2.1, fun g hg => (ch_publishDies _ g).trans (hkept.2.2 g hg)⟩

end Sys2Proof.Machine
end

section
/-! Proofs of the family of the architecture: the return of a die from its recovery (O24). -/

namespace Sys2Proof.Machine

/-! The channels of a die resume (R404, R405): the dies stand on. -/

/-- Every die stands as it did, its balls as they were, and RECOV_STAT reads as before. -/
def StandsOn (s t : Device) : Prop :=
  (∀ d, (t.die d).stand = (s.die d).stand ∧ (t.die d).husk = (s.die d).husk) ∧ t.reg 0xD2 = s.reg 0xD2

theorem StandsOn.refl (s : Device) : StandsOn s s := ⟨fun _ => ⟨rfl, rfl⟩, rfl⟩

theorem StandsOn.trans {s t u : Device} (hst : StandsOn s t) (htu : StandsOn t u) : StandsOn s u :=
  ⟨fun d => ⟨(htu.1 d).1.trans (hst.1 d).1, (htu.1 d).2.trans (hst.1 d).2⟩, htu.2.trans hst.2⟩

theorem StandsOn.of_footing {s t : Device} (h : footing t = footing s) : StandsOn s t :=
  ⟨fun d => ⟨stand_of_footing h d, husk_of_footing h d⟩, reg_of_footing h (by decide) (by decide)⟩

section
variable {g : Nat} {s0 s : Device}

theorem StandsOn.of_only (h : s.Only s0 g) : StandsOn s0 s :=
  ⟨stand_of_only h.2, h.2.pkgWords 0xD2 (by decide) (by decide) (by decide)⟩

theorem only_engRange (low : Bool) (h : s.Only s0 g) : (engRange low g s).Only s0 g :=
  Device.only_ite (fun _ => Device.only_modLp _ h) fun _ => only_writeRange low (Device.only_modLp _ h)

theorem only_bandApply (h : s.Only s0 g) : (bandApply g s).Only s0 g := by
  refine Device.only_ite (fun _ => ?_) fun _ => h
  exact Device.only_ite (fun _ => Device.only_cset _ _ (by decide) (Device.only_modEng _ h)) fun _ =>
    Device.only_cset _ _ (by decide) (Device.only_cset _ _ (by decide) (Device.only_modEng _ h))

theorem only_restartStep (h : s.Only s0 g) : (restartStep g s).Only s0 g :=
  Device.only_chReg _ _ (by decide) (Device.only_chReg _ _ (by decide) (Device.only_modEng _ (Device.only_cset _ _ (by decide) h)))

theorem only_carryResume (mode : Nat) (h : s.Only s0 g) : (carryResume mode g s).Only s0 g := by
  have hrange : ∀ t : Device, t.Only s0 g → (match curStep t g with
      | some r => engRange (r.range == 1) g t
      | none => t).Only s0 g := fun t ht => by
    cases curStep t g with
    | none => exact ht
    | some r => exact only_engRange _ ht
  have hstart := hrange _ (Device.only_modEng (fun e => { e with fResumed := true, interrupted := false }) h)
  unfold carryResume
  dsimp only
  refine Device.only_ite (fun _ => ?_) fun _ => Device.only_ite (fun _ => ?_) fun _ => ?_
  · exact only_requestRun _ _ (only_writeSetpoints (only_bandApply (only_restartStep hstart)))
  · exact only_requestRun _ _ (only_writeSetpoints (only_bandApply (Device.only_modEng _ hstart)))
  · exact Device.only_modEng _ (only_setEng _ (Device.only_modEng _ hstart))

theorem only_acirStepEnd (h : s.Only s0 g) : (acirStepEnd g s).Only s0 g := by
  unfold acirStepEnd
  dsimp only
  refine Device.only_modAcir _ (Device.only_ite (fun _ => only_acirAbort _ h) fun _ => Device.only_ite (fun _ => ?_) fun _ => h)
  exact Device.only_modAcir _ (Device.only_cset _ _ (by decide) (Device.only_cset _ _ (by decide) (Device.only_cset _ _ (by decide) h)))

theorem only_recipeEnd (pass : Bool) (cause : Nat) (h : s.Only s0 g) : (recipeEnd pass cause g s).Only s0 g := by
  unfold recipeEnd
  dsimp only
  refine Device.only_modEng _ (Device.only_cset _ _ (by decide) (only_leaseRelease (only_engMode _ (only_setEng _
    (Device.only_cset _ _ (by decide) (Device.only_cset _ _ ?_ (only_traceEvent _ _ _ h)))))))
  split_ifs <;> decide

end

section
variable {g : Nat} (hg : g < 64)
include hg

theorem standsOn_endStep (code slot : Nat) (s : Device) : StandsOn s (endStep code slot g s) := by
  have hrecord : (((stepEndRecord code slot g s).cset g CH_STEP_LAST_TERM code).cset g CH_STEP_LAST_SLOT slot).cset g CH_STAT_STEP_EVT 1 |>.Only s g :=
    Device.only_cset _ _ (by decide) (Device.only_cset _ _ (by decide) (Device.only_cset _ _ (by decide)
      (only_traceWrite _ _ (Device.only_refl s hg))))
  have hckpt : ∀ t : Device, footing (endCkpt g t) = footing t := fun t => by
    unfold endCkpt ckptRequest
    split
    · split_ifs
      · rfl
      · rfl
      · rw [footing_pset _ _ _ (by decide), footing_modNvm]
    · rfl
  have hmark : StandsOn s (markEnd code slot g s) := (StandsOn.of_only hrecord).trans (.of_footing (hckpt _))
  refine hmark.trans ((StandsOn.of_only (only_acirStepEnd (Device.only_refl _ hg))).trans (.of_footing ?_))
  exact footing_modEng _ _ _

theorem standsOn_resumeChan (s : Device) : StandsOn s (resumeChan g s) := by
  have htrace : ∀ m ms : Nat, StandsOn s ((traceEvent 2 (0x80 + m) ms g s).cset g CH_RESUME_MODE m) := fun m ms =>
    .of_only (Device.only_cset _ _ (by decide) (only_traceEvent _ _ _ (Device.only_refl s hg)))
  unfold resumeChan
  dsimp only
  generalize ht : (traceEvent 2 _ _ g s).cset g CH_RESUME_MODE _ = t
  refine StandsOn.trans (t := t) (by rw [← ht]; exact htrace _ _) ?_
  split_ifs
  · -- the recipe is given up
    refine StandsOn.trans (.of_footing (footing_pinc t RESUME_STAT_N_ABORT (by decide))) ((standsOn_endStep hg EndCode.resumeAbort 0 _).trans ?_)
    exact .of_only (only_recipeEnd _ _ (Device.only_refl _ hg))
  · -- the recipe is held
    refine StandsOn.trans (.of_only (Device.only_cset CH_RESUME_HELD 1 (by decide) (only_engMode 0 (only_setEng EngSt.resumeHalt
      (Device.only_refl t hg))))) (.of_footing ?_)
    rw [footing_modEng, footing_pinc _ _ (by decide), footing_setMap _ (by decide) (by decide)]
  · -- the recipe goes on where it stood
    exact StandsOn.trans (.of_footing (footing_pinc t _ (by decide))) (.of_only (only_carryResume _ (Device.only_refl _ hg)))
  · -- its step starts again
    exact StandsOn.trans (.of_footing (footing_pinc t _ (by decide))) (.of_only (only_carryResume _ (Device.only_refl _ hg)))

end

theorem standsOn_resumeDie {d : Nat} (hd : d < 8) (s : Device) : StandsOn s (resumeDie d s) := by
  refine each_keeps (I := StandsOn s) (chansOf d) (.refl s) fun g hg t ht => ht.trans ?_
  have hg := mem_chansOf.mp hg
  split_ifs
  · exact standsOn_resumeChan (by omega) t
  · exact .refl t

/-! A recovery ends (R32, R437). -/

section
variable (d : Nat) (s : Device)

theorem footing_resumeCounts : footing (resumeCounts s) = footing s := by
  rw [resumeCounts, footing_pset _ _ _ (by decide), footing_pset _ _ _ (by decide), footing_pset _ _ _ (by decide),
    footing_pset _ _ _ (by decide)]

theorem standsOn_huskIdle {g : Nat} (hg : g < 64) (t : Device) : StandsOn t (huskIdle g t) := by
  unfold huskIdle
  split_ifs
  · exact .of_only (Device.only_modEng _ (only_setEng _ (Device.only_refl t hg)))
  · exact .refl t

/-- A die that has returned from its recovery, at a clock. -/
def DieSt.returned (at_ : Nat) (x : DieSt) : DieSt := { x with
  ctl := true, husk := !x.hasDie || x.link.badIndex
  recov := { x.recov with active := false, trying := false, doneAt := some at_, ctlAt := some at_, stallLatched := false } }

/-- The device once a die has returned, its maps and its channels aside. -/
def returnNoted (d : Nat) (s : Device) : Device :=
  (s.modDie d (DieSt.returned s.now)).psetBit RECOV_STAT_IN_RECOVERY d false

/-- What follows the return of a die: the maps, the entries, and its channels resume. -/
def returnFollowed (stall : Bool) (d ms : Nat) (s : Device) : Device :=
  let s := logEvent Cat.link 0 0x07 d ms (publishDies s)
  let s := if stall then logEvent Cat.link d 0x05 d (s.dget d DIE_WDT_CAUSE) s else s
  if dieRuns (s.die d) then resumeDie d (resumeCounts (s.each (chansOf d) huskIdle)) else s

theorem recoveryDone_of_not_back (h : dieBack s d = false) : recoveryDone d s = s := if_pos (by rw [h]; rfl)

theorem recoveryDone_of_back (h : dieBack s d = true) : recoveryDone d s =
    returnFollowed (s.die d).recov.stallLatched d ((s.now - (s.die d).recov.since) / 20480) (returnNoted d s) :=
  if_neg (by rw [h]; decide)

variable {d}

theorem standsOn_returnFollowed (hd : d < 8) (stall : Bool) (ms : Nat) : StandsOn s (returnFollowed stall d ms s) := by
  have hentries : ∀ t : Device, footing (if stall then logEvent Cat.link d 0x05 d (t.dget d DIE_WDT_CAUSE) t else t) = footing t := fun t => by
    split_ifs
    · exact footing_logEvent _ _ _ _ _ _
    · rfl
  have hidle : ∀ t : Device, StandsOn t (t.each (chansOf d) huskIdle) := fun t =>
    each_keeps (I := StandsOn t) (chansOf d) (.refl t) fun g hg u hu => hu.trans
      (standsOn_huskIdle (by have := mem_chansOf.mp hg; omega) u)
  unfold returnFollowed
  dsimp only
  generalize ht : logEvent Cat.link 0 0x07 d ms (publishDies s) = t
  have hlog : footing t = footing s := by rw [← ht, footing_logEvent, footing_publishDies]
  refine (StandsOn.of_footing ((hentries t).trans hlog)).trans ?_
  generalize (if stall then logEvent Cat.link d 0x05 d (t.dget d DIE_WDT_CAUSE) t else t) = u
  split_ifs
  · exact (hidle u).trans ((StandsOn.of_footing (footing_resumeCounts _)).trans (standsOn_resumeDie hd _))
  · exact .refl u

variable {s}

theorem recoveryDone_spec (hd : d < 8) (hlt : d < s.dies.length) (h : dieBack s d = true) : let t := recoveryDone d s
    (t.die d).ctl = true ∧ (t.die d).husk = (!(s.die d).hasDie || (s.die d).link.badIndex) ∧
      (t.die d).recov = { (s.die d).recov with
        active := false, trying := false, doneAt := some s.now, ctlAt := some s.now, stallLatched := false } ∧
      (t.pget RECOV_STAT_IN_RECOVERY).testBit d = false := by
  have hnoted : (returnNoted d s).die d = (s.die d).returned s.now := by
    rw [returnNoted, Device.psetBit, Device.pset, Device.setReg_die, Device.die_modDie_self _ hlt]
  rw [recoveryDone_of_back d s h]
  obtain ⟨hdies, hword⟩ := standsOn_returnFollowed (returnNoted d s) hd (s.die d).recov.stallLatched
    ((s.now - (s.die d).recov.since) / 20480)
  obtain ⟨hstand, hhusk⟩ := hdies d
  rw [hnoted] at hstand hhusk
  refine ⟨congrArg (fun x => x.2.1) hstand, hhusk, congrArg (fun x => x.2.2.1) hstand, ?_⟩
  rw [Device.pget, show RECOV_STAT_IN_RECOVERY.off = 0xD2 from rfl, hword]
  exact testBit_psetBit (s.modDie d (DieSt.returned s.now)) (f := RECOV_STAT_IN_RECOVERY) (by decide) hd false

theorem dieBack_iff : dieBack s d = true ↔ (s.die d).recov.trying = true ∧ (s.die d).up = true ∧ (s.die d).link.trained = true ∧
    (s.die d).decided = true ∧ (s.die d).seeded = true ∧ (s.die d).fetch = [] ∧ s.clk = 0 ∧
    ((s.die d).booked.any fun f => decide (f < s.frame)) = true := by
  cases hbooked : (s.die d).booked with
  | none => simp [dieBack, hbooked]
  | some f => simp [dieBack, hbooked, and_assoc]

end

theorem exec_dieRecoveryDone (d : Die) (s : State) : exec (.dieRecoveryDone d) s = onDie d.val s (recoveryDone d.val) := rfl
theorem exec_recoveryTimeout (d : Die) (s : State) : exec (.recoveryTimeout d) s = onDie d.val s (recoveryTimeout d.val) := rfl
theorem exec_recoveryStable (d : Die) (s : State) : exec (.recoveryStable d) s = onDie d.val s (recoveryStable d.val) := rfl
theorem exec_mainDomainStart (tmode : Bool) (s : State) : exec (.mainDomainStart tmode) s = onDev s (pkgStart tmode) := rfl

theorem causeCode_lt (cause : RecoveryCause) : causeCode cause < 16 := by cases cause <;> decide

theorem pkgStart_of_running {s : Device} (h : s.supply.start = none) (tmode : Bool) : pkgStart tmode s = recoveriesUp s := by
  rw [pkgStart, h]

/-- Settles O24: what a recovery takes back leaves the dies standing but for its own, an attempt that fails is counted until
the third benches the die out, and after a return the channels resume without moving the dies. -/
theorem diesRecoverOrAreBenchedOut : Obligations.DiesRecoverOrAreBenchedOut := by
  unfold Obligations.DiesRecoverOrAreBenchedOut
  intro s d hs hn
  dsimp only
  have hcanon := hs.canonical
  have h8 := hs.dies_le
  have hd : d.val < 8 := by omega
  have hlt : d.val < s.dev.dies.length := by rw [hcanon.dies]; exact hd
  refine ⟨fun cause hr hearly => ?start, fun cause hr hagain hlast => ?starved, fun cause hr => ?unrecoverable,
    fun tmode hstart h0 => ?up, fun hback => ?back, fun hlate hearly => ?fails, fun hlate hlast => ?benches,
    fun hback => ?notBack, fun hlate => ?notLate, fun hstable => ?stable, fun hstable => ?notStable⟩
  case start =>
    obtain ⟨hdie, hcause, hevt, hin, hhusk, hup, hdown, htrained, hrecov, hlease, hfails, hothers⟩ :=
      recoveryStart_spec hcanon hn h8 hr (causeCode_lt cause) hearly
    exact does_die (exec_dieRecoveryStart d cause s) hn ⟨hdie, hcause, hevt, hin, hhusk, hup, hdown, htrained, hrecov, hlease, hfails,
      fun e _ he => hothers e he, inState_recoveryStart d.val _ rfl⟩
  case starved =>
    obtain ⟨hup, hbenched, hbit⟩ := recoveryStart_benches (cause := causeCode cause) hcanon hn h8 hr hagain hlast
    exact does_die (exec_dieRecoveryStart d cause s) hn ⟨hup, hbenched, hbit, inState_recoveryStart d.val _ rfl⟩
  case unrecoverable => exact does_die (exec_dieRecoveryStart d cause s) hn (recoveryStart_of_unrecoverable hr)
  case up =>
    obtain ⟨hups, hstays⟩ := recoveriesUp_spec (by rw [hcanon.dies]; exact h8) hn h0
    refine does_dev (exec_mainDomainStart tmode s) ?_
    rw [pkgStart_of_running hstart]
    exact ⟨inState_recoveriesUp rfl, hups, fun h => (hstays h).imp_right fun hch g _ => hch g⟩
  case back =>
    obtain ⟨hctl, hhusk, hrecov, hin⟩ := recoveryDone_spec hd hlt (dieBack_iff.mpr hback)
    exact does_die (exec_dieRecoveryDone d s) hn ⟨hctl, hhusk, hrecov, hin, inState_recoveryDone d.val rfl⟩
  case fails =>
    obtain ⟨hup, hrecov, hfails⟩ := recoveryTimeout_fails hcanon hn h8 hlate hearly
    exact does_die (exec_recoveryTimeout d s) hn ⟨hup, hrecov, hfails, inState_recoveryTimeout d.val rfl⟩
  case benches =>
    obtain ⟨hup, hbenched, hactive, hbit, hevt, hin⟩ := recoveryTimeout_benches hcanon hn h8 hlate hlast
    exact does_die (exec_recoveryTimeout d s) hn ⟨hup, hbenched, hactive, hbit, hevt, hin, inState_recoveryTimeout d.val rfl⟩
  case notBack =>
    exact does_die (exec_dieRecoveryDone d s) hn (recoveryDone_of_not_back d.val s.dev (Bool.eq_false_iff.mpr fun h => hback (dieBack_iff.mp h)))
  case notLate => exact does_die (exec_recoveryTimeout d s) hn (recoveryTimeout_of_not_late hlate)
  case stable => exact does_die (exec_recoveryStable d s) hn (recoveryStable_spec hlt hstable)
  case notStable =>
    refine does_die (exec_recoveryStable d s) hn ?_
    rw [recoveryStable_eq]
    exact if_neg (Bool.eq_false_iff.mp hstable)

end Sys2Proof.Machine
end

section
/-! Proofs of the family of the line angle: the angle advances every clock (O31). -/

namespace Sys2Proof.Machine

/-! What the line and its replicas rest on: the operations of a clock but for the step of each NCO leave it (R22, R43). -/

/-- The line, and of each die its main domain and its replica. -/
def replicas (s : Device) : Line × (Nat → Bool × Nco) := (s.line, fun d => ((s.die d).up, (s.die d).nco))

section
variable (s : Device)

@[simp] theorem replicas_modCh (g : Nat) (f : Chan → Chan) : replicas (s.modCh g f) = replicas s := (rfl)
@[simp] theorem replicas_modAcc (g : Nat) (f : Acc → Acc) : replicas (s.modAcc g f) = replicas s := (rfl)
@[simp] theorem replicas_pathClock (n g : Nat) (c e : Int) : replicas (pathClock n g c e s) = replicas s := (rfl)

theorem replicas_modDie (d : Nat) {f : DieSt → DieSt} (hf : ∀ x, ((f x).up, (f x).nco) = (x.up, x.nco)) :
    replicas (s.modDie d f) = replicas s :=
  Prod.ext rfl (funext fun e => proj_die_modDie (fun x => (x.up, x.nco)) hf d e)

@[simp] theorem replicas_modBench (d : Nat) (f : Bench → Bench) : replicas (s.modBench d f) = replicas s :=
  replicas_modDie s d fun _ => rfl

theorem replicas_each (ns : List Nat) {f : Nat → Device → Device} (hf : ∀ n ∈ ns, ∀ t, replicas (f n t) = replicas t) :
    replicas (s.each ns f) = replicas s :=
  each_keeps (I := fun t => replicas t = replicas s) ns rfl fun n hn t ht => (hf n hn t).trans ht

end

/-- A channel's command leaves the replicas. -/
theorem replicas_of_only {g : Nat} {s t : Device} (h : t.Only s g) : replicas t = replicas s := by
  obtain ⟨-, h⟩ := h
  refine Prod.ext (by rw [h.rest]; rfl) (funext fun d => ?_)
  by_cases hd : d = g / 8
  · obtain ⟨x, hx⟩ := h.own
    simp only [replicas, hd, hx]
  · simp only [replicas, h.dies d hd]

/-! The operations of a clock (R131, R163, R208, R247). -/

section
variable (s : Device)

@[simp] theorem replicas_pulseClock (g : Nat) (c e : Int) : replicas (pulseClock g c e s) = replicas s :=
  replicas_each s _ fun n _ t => by rw [apply_ite replicas, replicas_pathClock, ite_self]

@[simp] theorem replicas_countClock (inp : ClockIn) (g : Nat) : replicas (countClock inp g s) = replicas s := by
  simp [countClock]

theorem replicas_acirNextDue {g : Nat} (hg : g < 64) : replicas (acirNextDue g s) = replicas s := by
  unfold acirNextDue
  split
  · rfl
  · dsimp only
    split_ifs
    · rfl
    · split
      · exact replicas_of_only (only_acirRequest _ (Device.only_modEng _ (Device.only_refl s hg)))
      · rfl

theorem replicas_chanClock (inp : ClockIn) (last : Bool) {g : Nat} (hg : g < 64) :
    replicas (chanClock inp last g s) = replicas s := by
  have hcount (t : Device) : replicas (acirClock g t) = replicas t := by
    unfold acirClock
    split_ifs <;> rfl
  unfold chanClock
  dsimp only
  rw [replicas_acirNextDue _ hg, hcount, replicas_modCh, apply_ite replicas, replicas_countClock, ite_self]

@[simp] theorem replicas_benchClock (inp : ClockIn) (last : Bool) (d : Nat) : replicas (benchClock inp last d s) = replicas s := by
  unfold benchClock
  dsimp only
  split_ifs <;> simp only [replicas_modBench]

@[simp] theorem replicas_winMark (d : Nat) : replicas (winMark d s) = replicas s := replicas_modDie s d fun _ => rfl

theorem replicas_dieClock {d : Nat} (hlt : d < s.dies.length) : replicas (dieClock d s) =
    (s.line, Function.update (replicas s).2 d ((s.die d).up, if d = 0 then (s.die d).nco else (s.die d).nco.step)) := by
  refine Prod.ext rfl (funext fun e => ?_)
  by_cases he : e = d
  · subst he
    simp only [replicas, dieClock, Device.die_modDie_self s hlt, Function.update_self]
  · simp only [replicas, dieClock, Device.die_modDie_ne s he, Function.update_of_ne he]

end

/-- The main domain and the replica of a die once its own counters have taken a clock (R22). -/
def clocked (d : Nat) (r : Bool × Nco) : Bool × Nco := (r.1, if d = 0 ∨ r.1 = false then r.2 else r.2.step)

/-- A clock of a die moves its replica alone, and only while it is up (R22). -/
theorem replicas_dieStep (inp : ClockIn) (last : Bool) {d n : Nat} (hd : d < 8) {s : Device} (hs : s.Canonical n) :
    replicas (dieStep inp last d s) = (s.line, Function.update (replicas s).2 d (clocked d ((replicas s).2 d))) := by
  unfold dieStep
  by_cases hup : (s.die d).up = true
  · have hchans (t : Device) : replicas (t.each (chansOf d) (chanClock inp last)) = replicas t :=
      replicas_each t _ fun g hg u => replicas_chanClock u inp last (by have := mem_chansOf.mp hg; omega)
    have hmark : replicas (if last then winMark d s else s) = replicas s := by
      rw [apply_ite replicas, replicas_winMark, ite_self]
    have hcanon : (if last then winMark d s else s).Canonical n :=
      Device.canonical_ite (fun _ => canonical_winMark _ hs) fun _ => hs
    rw [if_pos hup]
    dsimp only
    generalize (if last = true then winMark d s else s) = u at hmark hcanon ⊢
    have hbench : (benchClock inp last d (u.each (chansOf d) (chanClock inp last))).Canonical n :=
      canonical_benchClock _ _ _ (Device.canonical_each _ hcanon fun g _ => canonical_chanClock _ _ _)
    have hrep : replicas (benchClock inp last d (u.each (chansOf d) (chanClock inp last))) = replicas s :=
      (replicas_benchClock _ _ _ _).trans ((hchans u).trans hmark)
    generalize benchClock inp last d (u.each (chansOf d) (chanClock inp last)) = v at hbench hrep ⊢
    have hdie : ((v.die d).up, (v.die d).nco) = ((s.die d).up, (s.die d).nco) := congrFun (congrArg Prod.snd hrep) d
    rw [replicas_dieClock v (by rw [hbench.dies]; exact hd), hrep]
    obtain ⟨hvup, hvnco⟩ := Prod.mk.inj hdie
    simp [clocked, replicas, hvup, hvnco, hup, show v.line = s.line from congrArg Prod.fst hrep]
  · have hsame : clocked d ((replicas s).2 d) = (replicas s).2 d := by
      rw [clocked, if_pos (.inr (by simpa [replicas] using hup))]
    rw [if_neg hup, hsame, Function.update_eq_self]
    rfl

/-- A clock of the first dies moves the replica of each of them that is up (R22). -/
theorem replicas_dieSteps (inp : ClockIn) (last : Bool) {k n : Nat} (hk : k ≤ 8) {s : Device} (hs : s.Canonical n) :
    let t := s.each (List.range k) (dieStep inp last)
    t.Canonical n ∧ replicas t = (s.line, fun d => if d < k then clocked d ((replicas s).2 d) else (replicas s).2 d) := by
  induction k with
  | zero => exact ⟨hs, by simp [Device.each, replicas]⟩
  | succ k ih =>
    obtain ⟨hcanon, hrep⟩ := ih (by omega)
    have hlast : s.each (List.range (k + 1)) (dieStep inp last) = dieStep inp last k (s.each (List.range k) (dieStep inp last)) := by
      rw [List.range_succ]
      exact List.foldl_append ..
    dsimp only at hcanon hrep ⊢
    rw [hlast]
    refine ⟨canonical_dieStep inp last k hcanon, ?_⟩
    generalize s.each (List.range k) (dieStep inp last) = t at hcanon hrep
    rw [replicas_dieStep inp last (by omega) hcanon, show t.line = s.line from congrArg Prod.fst hrep, hrep]
    refine Prod.ext rfl (funext fun d => ?_)
    rcases Nat.lt_trichotomy d k with h | rfl | h
    · simp [Function.update_of_ne h.ne, h, Nat.lt_succ_of_lt h]
    · simp
    · simp [Function.update_of_ne h.ne', Nat.not_lt.mpr h.le, show ¬ d < k + 1 by omega]

/-! The line at a clock (R43). -/

/-- The replicas and the line once the lead die's own share of a clock is done. -/
theorem replicas_lockClock (s : Device) : replicas (lockClock s) = replicas s := by
  unfold lockClock
  split_ifs <;> rfl

theorem dies_modLine (f : Line → Line) (s : Device) : (s.modLine f).dies = s.dies := rfl

theorem lineClock_dies (s : Device) : (lineClock s).dies = s.dies := by
  rw [lineClock, apply_ite Device.dies, Device.setReg_dies, ite_self, dies_modLine]

theorem lineClock_nco (s : Device) : (lineClock s).line.nco = s.line.nco.step := by
  unfold lineClock
  dsimp only
  split_ifs <;> rfl

/-- After the dies and the line have taken a clock, nothing moves an NCO. -/
theorem replicas_accumulateClock (inp : ClockIn) (s : Device) :
    let t := s.each s.dieList (dieStep inp (decide (s.clk % 16 = 15)))
    replicas (accumulateClock inp s) = replicas (if (t.die 0).up then lineClock t else t) := by
  have hlock (u : Device) : replicas (if (u.die 0).up then lockClock u else u) = replicas u := by
    rw [apply_ite replicas, replicas_lockClock, ite_self]
  exact hlock _

/-- The line's NCO moves at a clock while the lead die is up, and each replica while its die is. -/
theorem accumulateClock_spec (inp : ClockIn) {n : Nat} {s : Device} (hs : s.Canonical n) (h8 : s.nDies ≤ 8) (h0 : 0 < s.nDies) :
    let t := accumulateClock inp s
    ((s.die 0).up = true → t.line.nco = s.line.nco.step) ∧
    ∀ d, d < s.nDies → d ≠ 0 → (s.die d).up = true → (t.die d).nco = (s.die d).nco.step := by
  have hend := replicas_accumulateClock inp s
  obtain ⟨-, hrep⟩ := replicas_dieSteps inp (decide (s.clk % 16 = 15)) h8 hs
  dsimp only at hend hrep ⊢
  rw [show s.dieList = List.range s.nDies from rfl] at hend
  generalize s.each (List.range s.nDies) (dieStep inp (decide (s.clk % 16 = 15))) = t at hend hrep
  have hdie (d : Nat) (hd : d < s.nDies) : ((t.die d).up, (t.die d).nco) = clocked d ((s.die d).up, (s.die d).nco) :=
    (congrFun (congrArg Prod.snd hrep) d).trans (if_pos hd)
  refine ⟨fun hup => ?_, fun d hd hne hup => ?_⟩
  · have hlead : (t.die 0).up = true := (congrArg Prod.fst (hdie 0 h0)).trans hup
    rw [if_pos hlead] at hend
    have hstep : (accumulateClock inp s).line = (lineClock t).line := congrArg Prod.fst hend
    rw [hstep, lineClock_nco, show t.line = s.line from congrArg Prod.fst hrep]
  · have hdies : (if (t.die 0).up then lineClock t else t).dies = t.dies := by
      rw [apply_ite Device.dies, lineClock_dies, ite_self]
    have hsame : ((accumulateClock inp s).die d).nco = ((if (t.die 0).up then lineClock t else t).die d).nco :=
      congrArg Prod.snd (congrFun (congrArg Prod.snd hend) d)
    rw [hsame, Device.die, hdies]
    exact (congrArg Prod.snd (hdie d hd)).trans (if_neg (by simp [hne, hup]))

theorem exec_accumulateClock (inp : ClockIn) (s : State) : exec (.accumulateClock inp) s = onDev s (accumulateClock inp) := rfl

theorem pkgView_lineAngle (s : Device) (h : s.line.nco.phase < 2 ^ 48) : (pkgView s 0x13).toNat = s.line.nco.phase / 2 ^ 16 := by
  show (BitVec.ofNat 32 (s.line.nco.phase / 2 ^ 16)).toNat = _
  rw [BitVec.toNat_ofNat]
  exact Nat.mod_eq_of_lt (by omega)

/-- Settles O31: at a clock each NCO steps while its die is up, and LINE_ANGLE shows the lead die's after it. -/
theorem theAngleAdvancesEveryClock : Obligations.TheAngleAdvancesEveryClock := by
  unfold Obligations.TheAngleAdvancesEveryClock
  intro s inp hs
  have h0 : 0 < s.dev.nDies := by rcases hs.size with h | h | h <;> omega
  obtain ⟨hline, hdies⟩ := accumulateClock_spec inp hs.canonical hs.dies_le h0
  refine does_dev (exec_accumulateClock inp s) ⟨fun hup => ?_, fun d hd hne hup => ?_⟩
  · rw [pkgView_lineAngle _ (by rw [hline hup]; exact Nat.mod_lt _ (by decide)), hline hup]
    exact ⟨rfl, rfl, rfl, rfl⟩
  · rw [hdies d hd hne hup]
    exact ⟨rfl, rfl, rfl⟩

end Sys2Proof.Machine
end

section
/-! Proofs of the family of the line angle: the line state, and the words of the line (O17). -/

namespace Sys2Proof.Machine

/-! The rules of a line state (R48, R51). -/

section
variable {s t : Device}

theorem EventOnly.pget (h : EventOnly s t) {f : Fld .pkg} (hf : f.off ∉ eventWords) : t.pget f = s.pget f := by
  rw [Device.pget, Device.pget, h.2 f.off hf]

theorem EventOnly.line (h : EventOnly s t) : t.line = s.line := by rw [h.1]

theorem EventOnly.lineState (h : EventOnly s t) : lineState t = lineState s := h.pget (by decide)

end

section
variable (s : Device)

theorem regsOnly_setLineState (st : Nat) : RegsOnly (· = 0x12) s (setLineState st s) :=
  regsOnly_trans (regsOnly_trans (regsOnly_setReg _ _ _) (regsOnly_setReg _ _ _)) (regsOnly_setReg _ _ _)

theorem line_setLineState (st : Nat) : (setLineState st s).line = s.line := rfl

theorem setLineState_spec {st : Nat} (h : st < 4) : let t := setLineState st s
    lineState t = st ∧ t.pget LINE_STAT_HOLDOVER = (if st = LineState.holdover then 1 else 0) ∧
      t.pget LINE_STAT_SYNTH = if st = LineState.synthetic then 1 else 0 := by
  refine ⟨?_, ?_, ?_⟩
  · rw [setLineState, lineState, Device.pget_pset_apart _ _ _ _ (by decide), Device.pget_pset_apart _ _ _ _ (by decide),
      Device.pget_pset_self _ _ _ (by decide)]
    exact Nat.mod_eq_of_lt h
  · rw [setLineState, Device.pget_pset_apart _ _ _ _ (by decide), Device.pget_pset_self _ _ _ (by decide)]
    exact Nat.mod_eq_of_lt (by split_ifs <;> decide)
  · rw [setLineState, Device.pget_pset_self _ _ _ (by decide)]
    exact Nat.mod_eq_of_lt (by split_ifs <;> decide)

/-- A flag of LINE_STAT that is no part of the state stays as the line enters a state. -/
theorem pget_setLineState {f : Fld .pkg} (h : 4 ≤ f.lo ∧ f.lo ≤ f.hi) (st : Nat) : (setLineState st s).pget f = s.pget f := by
  obtain ⟨hlo, hhi⟩ := h
  have hapart {k : Fld .pkg} (hk : k.lo ≤ k.hi ∧ k.hi < 4) : Device.Apart k f := .inr ⟨hk.1, by omega, hhi, .inr (by omega)⟩
  rw [setLineState, Device.pget_pset_apart _ _ _ _ (hapart (by decide)), Device.pget_pset_apart _ _ _ _ (hapart (by decide)),
    Device.pget_pset_apart _ _ _ _ (hapart (by decide))]

/-! The timeout (R50, R51). -/

/-- The line as it stands at the entry to HOLDOVER, before the entry is logged. -/
def heldOver (s : Device) : Device :=
  let s := (setLineState LineState.holdover (s.pset LINE_STAT_HOLD_EVT 1)).setReg 0x1B 0
  s.modLine fun l => { l with holdPt := linePt s, incNext := some s.line.incMeas, stepNext := none, slewNext := false }

theorem reg_modLine (f : Line → Line) (a : Nat) : (s.modLine f).reg a = s.reg a := rfl

theorem pget_heldOver {f : Fld .pkg} (hf : f.off = 0x12) :
    (heldOver s).pget f = (setLineState LineState.holdover (s.pset LINE_STAT_HOLD_EVT 1)).pget f := by
  rw [Device.pget, heldOver, reg_modLine, Device.reg_setReg_ne _ (by rw [hf]; decide)]
  rfl

theorem holdt_heldOver : (heldOver s).reg 0x1B = 0 := by rw [heldOver, reg_modLine, Device.reg_setReg_self]

theorem line_heldOver : (heldOver s).line =
    { s.line with holdPt := linePt s, incNext := some s.line.incMeas, stepNext := none, slewNext := false } := by
  have hline : ((setLineState LineState.holdover (s.pset LINE_STAT_HOLD_EVT 1)).setReg 0x1B 0).line = s.line := by
    rw [Device.setReg_line, line_setLineState, Device.pset, Device.setReg_line]
  simp only [heldOver, Device.modLine, linePt, hline]

theorem enterHoldover_spec : let t := enterHoldover s
    lineState t = LineState.holdover ∧ t.pget LINE_STAT_HOLDOVER = 1 ∧ t.pget LINE_STAT_SYNTH = 0 ∧
      t.pget LINE_STAT_HOLD_EVT = 1 ∧ t.reg 0x1B = 0 ∧
      t.line = { s.line with holdPt := linePt s, incNext := some s.line.incMeas, stepNext := none, slewNext := false } := by
  have hlog : EventOnly (heldOver s) (enterHoldover s) := eventOnly_logEvent_lead _ _ _ _ _
  have hstat {f : Fld .pkg} (hf : f.off = 0x12) : (enterHoldover s).pget f =
      (setLineState LineState.holdover (s.pset LINE_STAT_HOLD_EVT 1)).pget f :=
    (hlog.pget (by rw [hf]; decide)).trans (pget_heldOver s hf)
  obtain ⟨hstate, hhold, hsynth⟩ := setLineState_spec (s.pset LINE_STAT_HOLD_EVT 1) (st := LineState.holdover) (by decide)
  refine ⟨(hstat rfl).trans hstate, (hstat rfl).trans hhold, (hstat rfl).trans hsynth, (hstat rfl).trans ?_,
    (hlog.2 0x1B (by decide)).trans (holdt_heldOver s), hlog.line.trans (line_heldOver s)⟩
  rw [pget_setLineState _ (by decide), Device.pget_pset_self _ _ _ (by decide)]
  rfl

end

section
variable {s : Device}

/-- The states in which a timeout brings HOLDOVER: LOCKED, or ACQUIRE after an earlier lock (R50). -/
abbrev HoldsOver (s : Device) : Prop :=
  lineState s = LineState.locked ∨ (lineState s = LineState.acquire ∧ s.pget LINE_STAT_EVER_LOCKED = 1)

theorem lineTimeout_of_early (h : timeoutDue s = false) : lineTimeout s = s := if_pos h

theorem lineTimeout_of_lock (h : timeoutDue s = true) (hlock : HoldsOver s) : lineTimeout s = enterHoldover s := by
  rw [lineTimeout, if_neg (by simp [h]), if_pos hlock]

theorem lineTimeout_of_idle (h : lineState s = LineState.synthetic ∨ lineState s = LineState.holdover) : lineTimeout s = s := by
  have hlocked : lineState s ≠ LineState.locked := by rcases h with h | h <;> rw [h] <;> decide
  have hacquire : lineState s ≠ LineState.acquire := by rcases h with h | h <;> rw [h] <;> decide
  unfold lineTimeout
  simp [hlocked, hacquire]

/-- A timeout in ACQUIRE without an earlier lock gives the line up (R50). -/
theorem lineTimeout_of_acquire (h : timeoutDue s = true) (hst : lineState s = LineState.acquire)
    (hever : s.pget LINE_STAT_EVER_LOCKED = 0) : lineTimeout s = (setLineState LineState.synthetic s).modLine fun l =>
      { l with incNext := some 0x28F5C28F, stepNext := none, slewNext := false } := by
  have hlocked : ¬ HoldsOver s := by simp [HoldsOver, hst, hever, LineState.acquire, LineState.locked]
  rw [lineTimeout, if_neg (by simp [h]), if_neg hlocked, if_pos hst]

/-! The words of the line (R62, R63, R65). -/

theorem lineCfgWrite_cfg (w : Word) : lineCfgWrite .cfg w s = s.setReg 0x10 (lineCfgStored (w &&& 0x3F1#32)) := rfl

/-- A field of a masked word whose every bit the mask keeps. -/
theorem get_and_mask {b : Blk} {f : Fld b} {m : Word} (h : ∀ i < f.width, m.getLsbD (f.lo + i) = true) (w : Word) :
    f.get (w &&& m) = f.get w := by
  refine Nat.eq_of_testBit_eq fun i => ?_
  rw [Fld.get, Fld.get, Nat.testBit_mod_two_pow, Nat.testBit_mod_two_pow, Nat.testBit_div_two_pow, Nat.testBit_div_two_pow]
  by_cases hi : i < f.width
  · have hbit : m.toNat.testBit (i + f.lo) = true := by rw [Nat.add_comm]; exact h i hi
    rw [BitVec.toNat_and, Nat.testBit_and, hbit, Bool.and_true]
  · simp [hi]

/-- LINE_CFG as stored: a TIMEOUT below 2 reads 2, the other fields as written (R62). -/
theorem lineCfgStored_spec (w : Word) : let v := lineCfgStored (w &&& 0x3F1#32)
    LINE_CFG_POL.get v = LINE_CFG_POL.get w ∧ LINE_CFG_TIMEOUT.get v = max 2 (LINE_CFG_TIMEOUT.get w) ∧
      LINE_CFG_SYN_FORCE.get v = LINE_CFG_SYN_FORCE.get w ∧ LINE_CFG_STEP_EN.get v = LINE_CFG_STEP_EN.get w := by
  have hpol : LINE_CFG_POL.get (w &&& 0x3F1#32) = LINE_CFG_POL.get w := get_and_mask (by decide) w
  have htime : LINE_CFG_TIMEOUT.get (w &&& 0x3F1#32) = LINE_CFG_TIMEOUT.get w := get_and_mask (by decide) w
  have hsyn : LINE_CFG_SYN_FORCE.get (w &&& 0x3F1#32) = LINE_CFG_SYN_FORCE.get w := get_and_mask (by decide) w
  have hstep : LINE_CFG_STEP_EN.get (w &&& 0x3F1#32) = LINE_CFG_STEP_EN.get w := get_and_mask (by decide) w
  unfold lineCfgStored
  dsimp only
  rw [htime]
  split_ifs with h
  · have hother {f : Fld .pkg} (hf : f.lo ≤ f.hi ∧ (f.hi < 4 ∨ 7 < f.lo)) (x : Word) : f.get (LINE_CFG_TIMEOUT.put 2 x) = f.get x :=
      Fld.get_put_other LINE_CFG_TIMEOUT f 2 x (by decide) (by decide) hf.1 hf.2
    refine ⟨(hother (by decide) _).trans hpol, ?_, (hother (by decide) _).trans hsyn, (hother (by decide) _).trans hstep⟩
    rw [Fld.get_put_self _ _ _ (by decide) (by decide), max_eq_left (by omega)]
    rfl
  · exact ⟨hpol, htime.trans (max_eq_right (by omega)).symm, hsyn, hstep⟩

theorem lineCfgWrite_plim (w : Word) : WordOnly 0x11 (if plimOk w then w else s.reg 0x11) s (lineCfgWrite .plim w s) := by
  unfold lineCfgWrite
  dsimp only
  split_ifs
  · exact wordOnly_setReg s 0x11 w
  · exact ⟨regsOnly_refl s _, rfl⟩

theorem clrRej_spec (w : Word) : WordOnly 0x19 (if LINE_REJ_CLR.get w = 1 then 0 else s.reg 0x19) s (clrRej w s) := by
  unfold clrRej
  split_ifs
  · exact wordOnly_setReg s 0x19 0
  · exact ⟨regsOnly_refl s _, rfl⟩

end

theorem exec_lineTimeout (s : State) : exec .lineTimeout s = onDev s lineTimeout := rfl
theorem exec_lineCfgWrite (r : LineReg) (w : Word) (s : State) : exec (.lineCfgWrite r w) s = onDev s (lineCfgWrite r w) := rfl
theorem exec_clrRej (w : Word) (s : State) : exec (.clrRej w) s = onDev s (clrRej w) := rfl

/-- Settles O17: a timeout by the state in which it comes, and each line word by what its write stores. -/
theorem lineTimeoutsAndWords : Obligations.LineTimeoutsAndWords := by
  unfold Obligations.LineTimeoutsAndWords
  intro s
  refine ⟨fun h => ?early, fun h hlock => ?holdover, fun h hst hever => ?synthetic, fun h => ?idle, fun w => ?cfg, fun w => ?plim,
    fun w => does_dev (exec_clrRej w s) (clrRej_spec w)⟩
  case early => exact does_dev (exec_lineTimeout s) (lineTimeout_of_early h)
  case holdover =>
    refine does_dev (exec_lineTimeout s) ?_
    rw [lineTimeout_of_lock h hlock]
    exact enterHoldover_spec s.dev
  case synthetic =>
    refine does_dev (exec_lineTimeout s) ?_
    rw [lineTimeout_of_acquire h hst hever]
    obtain ⟨hstate, -, hsynth⟩ := setLineState_spec s.dev (st := LineState.synthetic) (by decide)
    obtain ⟨hregs, hwords⟩ := regsOnly_setLineState s.dev LineState.synthetic
    exact ⟨hstate, hsynth, ⟨rfl, hwords⟩, rfl⟩
  case idle => exact does_dev (exec_lineTimeout s) (lineTimeout_of_idle h)
  case cfg =>
    refine does_dev (exec_lineCfgWrite .cfg w s) ⟨regsOnly_setReg s.dev 0x10 _, ?_⟩
    have hread (f : Fld .pkg) (hf : f.off = 0x10) : (lineCfgWrite .cfg w s.dev).pget f = f.get (lineCfgStored (w &&& 0x3F1#32)) := by
      rw [Device.pget, hf, lineCfgWrite_cfg, Device.reg_setReg_self]
    rw [hread _ rfl, hread _ rfl, hread _ rfl, hread _ rfl]
    exact lineCfgStored_spec w
  case plim =>
    refine does_dev (exec_lineCfgWrite .plim w s) ?_
    have h := lineCfgWrite_plim (s := s.dev) w
    simpa only [plimOk, decide_eq_true_eq] using h

end Sys2Proof.Machine
end

section
/-! Proofs of the family of the line angle: the level runs of LSYNC (O16). -/

namespace Sys2Proof.Machine

/-! A qualified edge (R44, R47, R48, R51). -/

/-- The phase error of an edge, in 2^-32 cycle (R44). -/
def edgeError (t : Nat) (s : Device) : Int := signedOf 32 (fieldOf 32 (-(angleAtTick s t : Int)))

/-- The end of HOLDOVER is logged at a qualified edge (R51). -/
def holdLogged (s : Device) : Device :=
  if lineState s = LineState.holdover then logEvent Cat.line 0 0x02 0xFF (s.reg 0x1B).toNat s else s

/-- The events of entering LOCKED (R51). -/
def lockNoted (was is : Nat) (s : Device) : Device :=
  if is = LineState.locked ∧ was ≠ LineState.locked then
    setCat Cat.line ((s.pset LINE_STAT_LOCK_EVT 1).pset LINE_STAT_EVER_LOCKED 1)
  else s

section
variable (t : Nat) (s : Device)

theorem stateAfterEdge_lt (st : Nat) (e : Int) : stateAfterEdge st e < 4 := by
  unfold stateAfterEdge
  split_ifs <;> decide

/-- A qualified edge notes itself in the line, shows its phase error and enters the state it decides. -/
theorem qualifiedEdge_eq : let st := stateAfterEdge (lineState s) (edgeError t s)
    ∃ v : Device, v.line.nco = s.line.nco ∧ v.line.level = s.line.level ∧ v.line.lastQual = some t ∧
      qualifiedEdge t s = lockNoted (lineState s) st (setLineState st (v.setReg 0x18 (wordOfInt (edgeError t s)))) := by
  have hlog : EventOnly s (holdLogged s) := by
    unfold holdLogged
    split_ifs
    · exact eventOnly_logEvent_lead _ _ _ _ s
    · exact .refl s
  refine ⟨_, ?_, ?_, ?_, rfl⟩
  · show (holdLogged s).line.nco = _
    rw [hlog.line]
  · show (holdLogged s).line.level = _
    rw [hlog.line]
  · rfl

end

section
variable (s : Device)

theorem eventOnly_setCat (cat : Nat) : EventOnly s (setCat cat s) := eventOnly_setIrq cat 0 0xFF s

theorem reg_pset_ne {f : Fld .pkg} {a : Nat} (h : a ≠ f.off) (v : Nat) (s : Device) : (s.pset f v).reg a = s.reg a :=
  Device.reg_setReg_ne s h _

theorem line_pset (f : Fld .pkg) (v : Nat) (s : Device) : (s.pset f v).line = s.line := rfl

theorem lineState_pset {f : Fld .pkg} (h : Device.Apart f LINE_STAT_STATE) (v : Nat) (s : Device) :
    lineState (s.pset f v) = lineState s := Device.pget_pset_apart s f LINE_STAT_STATE v h

theorem lockNoted_spec (was is : Nat) : let t := lockNoted was is s
    t.line = s.line ∧ t.reg 0x18 = s.reg 0x18 ∧ lineState t = lineState s ∧
      (is = LineState.locked → was ≠ LineState.locked → t.pget LINE_STAT_LOCK_EVT = 1 ∧ t.pget LINE_STAT_EVER_LOCKED = 1) := by
  unfold lockNoted
  split_ifs with h
  · have hcat := eventOnly_setCat ((s.pset LINE_STAT_LOCK_EVT 1).pset LINE_STAT_EVER_LOCKED 1) Cat.line
    refine ⟨hcat.line.trans ((line_pset _ _ _).trans (line_pset _ _ s)), (hcat.2 0x18 (by decide)).trans ?_, hcat.lineState.trans ?_,
      fun _ _ => ⟨?_, ?_⟩⟩
    · exact (reg_pset_ne (by decide) 1 _).trans (reg_pset_ne (by decide) 1 s)
    · exact (lineState_pset (by decide) 1 _).trans (lineState_pset (by decide) 1 s)
    · exact (hcat.pget (by decide)).trans ((Device.pget_pset_apart _ _ _ _ (by decide)).trans (Device.pget_pset_self _ _ _ (by decide)))
    · exact (hcat.pget (by decide)).trans (Device.pget_pset_self _ _ _ (by decide))
  · exact ⟨rfl, rfl, rfl, fun h1 h2 => absurd ⟨h1, h2⟩ h⟩

theorem qualifiedEdge_spec (t : Nat) : let u := qualifiedEdge t s
    let st := stateAfterEdge (lineState s) (edgeError t s)
    u.line.nco = s.line.nco ∧ u.line.level = s.line.level ∧ u.line.lastQual = some t ∧
      u.reg 0x18 = wordOfInt (edgeError t s) ∧ lineState u = st ∧
      (st = LineState.locked → lineState s ≠ LineState.locked →
        u.pget LINE_STAT_LOCK_EVT = 1 ∧ u.pget LINE_STAT_EVER_LOCKED = 1) := by
  obtain ⟨v, hnco, hlevel, hlast, he⟩ := qualifiedEdge_eq t s
  dsimp only at he ⊢
  rw [he]
  generalize hst : stateAfterEdge (lineState s) (edgeError t s) = st
  obtain ⟨hline, herr, hstate, hlock⟩ :=
    lockNoted_spec (setLineState st (v.setReg 0x18 (wordOfInt (edgeError t s)))) (lineState s) st
  have hv : (setLineState st (v.setReg 0x18 (wordOfInt (edgeError t s)))).line = v.line := by
    rw [line_setLineState, Device.setReg_line]
  rw [hline, hv, herr, hstate]
  refine ⟨hnco, hlevel, hlast, ?_, (setLineState_spec _ (by rw [← hst]; exact stateAfterEdge_lt _ _)).1, hlock⟩
  rw [(regsOnly_setLineState _ st).2 _ (by decide), Device.reg_setReg_self]

end

/-! A level run (R39 to R41). -/

section
variable {tick run : Nat} {rising : Bool} {s : Device}

/-- The level of a run is recognised at the present clock: it has lasted 64 clocks and differs from the one before (R40). -/
def recognised (tick run : Nat) (rising : Bool) (s : Device) : Prop :=
  64 ≤ run ∧ rising ≠ s.line.level ∧ tick + 512 ≤ 8 * s.now ∧ 8 * s.now < tick + 520

/-- The line once a level is recognised. -/
def levelled (rising : Bool) (s : Device) : Device := { s with line := { s.line with level := rising } }

theorem lsyncEdge_of_glitch (hl : lsyncHeeded s = true) (hrun : run < 64) (hover : tick + 8 * run ≤ 8 * s.now) :
    lsyncEdge tick run rising s = s.pinc LINE_REJ_REJ_GLITCH := by
  simp [lsyncEdge, hl, hrun, runOver, hover]

theorem lsyncEdge_of_unrecognised (h : (run < 64 ∧ 8 * s.now < tick + 8 * run) ∨ (64 ≤ run ∧ ¬ recognised tick run rising s)) :
    lsyncEdge tick run rising s = s := by
  unfold lsyncEdge
  rcases h with ⟨hrun, hrest⟩ | ⟨hrun, hrest⟩
  · simp [hrun, runOver, Nat.not_le.mpr hrest]
  · have hnone : rising == s.line.level || !edgeClock tick s := by
      simp only [recognised, hrun, true_and, ne_eq, not_and_or, not_not] at hrest
      simp only [Bool.or_eq_true, beq_iff_eq, edgeClock, Bool.not_eq_true', decide_eq_false_iff_not, not_and_or]
      exact hrest
    simp only [Nat.not_lt.mpr hrun, hnone, if_true, if_false, ite_self]

theorem lsyncEdge_of_recognised (hl : lsyncHeeded s = true) (h : recognised tick run rising s) :
    lsyncEdge tick run rising s =
      if rising = (s.pfrc LINE_CFG_POL == 0) then candidateEdge tick (levelled rising s) else levelled rising s := by
  obtain ⟨hrun, hnew, hlate, hearly⟩ := h
  have hclock : (rising == s.line.level || !edgeClock tick s) = false := by simp [hnew, edgeClock, hlate, hearly]
  simp only [lsyncEdge, hl, Nat.not_lt.mpr hrun, hclock, beq_iff_eq, Bool.not_true, Bool.false_eq_true, if_false]
  rfl

end

section
variable (tick : Nat) (rising : Bool) (s : Device)

/-- A candidate edge is the newest of those that R41 looks back on. -/
def candidateNoted (tick : Nat) (u : Device) : Device := { u with line := { u.line with cands := (tick :: u.line.cands).take 2 } }

theorem edgeError_levelled : edgeError tick (levelled rising s) = edgeError tick s := rfl

theorem candidateEdge_of_failed (h : edgeQualifies tick s = false) :
    candidateEdge tick s = candidateNoted tick (s.pinc LINE_REJ_REJ_EDGE) := by
  rw [candidateEdge, if_neg (by simp [h])]
  rfl

theorem candidateEdge_of_passed (h : edgeQualifies tick s = true) :
    candidateEdge tick s = candidateNoted tick (qualifiedEdge tick s) := by
  rw [candidateEdge, if_pos h]
  rfl

end

theorem exec_lsyncEdge (tick run : Nat) (rising : Bool) (s : State) :
    exec (.lsyncEdge tick run rising) s = onDev s (lsyncEdge tick run rising) := rfl

/-- Settles O16: a level run by whether its level is recognised, is the reference edge's, and passes its test; then the state it decides. -/
theorem lsyncEdgesQualifyAndLock : Obligations.LsyncEdgesQualifyAndLock := by
  unfold Obligations.LsyncEdgesQualifyAndLock
  intro s tick run rising hl
  refine ⟨fun hrun hover => ?glitch, fun h => ?unrecognised, fun h href => ?other, fun h href hfails => ?failed,
    fun h href hpasses => ?passed⟩
  case glitch =>
    refine does_dev (exec_lsyncEdge tick run rising s) ?_
    rw [lsyncEdge_of_glitch hl hrun hover]
    exact wordOnly_setReg s.dev 0x19 _
  case unrecognised => exact does_dev (exec_lsyncEdge tick run rising s) (lsyncEdge_of_unrecognised h)
  case other =>
    refine does_dev (exec_lsyncEdge tick run rising s) ?_
    rw [lsyncEdge_of_recognised hl h, if_neg href]
    rfl
  case failed =>
    refine does_dev (exec_lsyncEdge tick run rising s) ?_
    rw [lsyncEdge_of_recognised hl h, if_pos href, candidateEdge_of_failed tick (levelled rising s.dev) hfails]
    exact ⟨rfl, wordOnly_setReg (candidateNoted tick (levelled rising s.dev)) 0x19 _⟩
  case passed =>
    refine does_dev (exec_lsyncEdge tick run rising s) ?_
    rw [lsyncEdge_of_recognised hl h, if_pos href, candidateEdge_of_passed tick (levelled rising s.dev) hpasses]
    obtain ⟨hnco, hlevel, hlast, herr, hstate, hlock⟩ := qualifiedEdge_spec (levelled rising s.dev) tick
    generalize qualifiedEdge tick (levelled rising s.dev) = u at hnco hlevel hlast herr hstate hlock ⊢
    rw [edgeError_levelled] at herr hstate hlock
    have hstay (st : Nat) (hst : lineState s.dev = st) : lineState u = stateAfterEdge st (edgeError tick s.dev) := by
      rw [← hst]
      exact hstate
    refine ⟨hnco, hlevel, hlast, herr, ?_, fun hst => hstay _ hst, fun hst => hstay _ hst, fun hst hsmall => hlock ?_ ?_⟩
    · rintro (hst | hst) <;> exact hstay _ hst
    · exact (congrArg (stateAfterEdge · (edgeError tick s.dev)) hst).trans (if_pos hsmall)
    · exact fun e => absurd (hst.symm.trans e) (by decide)

end Sys2Proof.Machine
end

section
/-! Proofs of the family of the line angle: the decisions of a slot, and the cells that carry leases (O46). -/

namespace Sys2Proof.Machine

/-! One channel's decision at the first clock of a slot (R257). -/

/-- What the first clock of a slot does on a channel: its decision, after the window event that comes first (R59). -/
def decideAt (g : Nat) (t : Device) : Device :=
  if decisionDue t g then decide1 g (if acirComesFirst t g then acirEvent g t else t) else t

theorem leaseDecision_eq (d : Nat) (s : Device) : leaseDecision d s =
    if (s.die d).up && (List.range 16).any (slotBegins s) then s.each (chansOf d) decideAt else s := rfl

section
variable {s s0 : Device} {g : Nat}

theorem only_acirEvent (h : s.Only s0 g) : (acirEvent g s).Only s0 g := by
  unfold acirEvent
  split
  · exact only_acirOpen h
  · exact only_acirClose h
  · exact only_acirLeadin h

theorem only_decideAt (h : s.Only s0 g) : (decideAt g s).Only s0 g := by
  unfold decideAt
  split_ifs
  · exact only_decide1 (only_acirEvent h)
  · exact only_decide1 h
  · exact h

end

section
variable {d : Nat} {s : Device}

/-- The decisions of a die leave the channels of the others. -/
theorem ch_leaseDecision (hd : d < 8) {g : Nat} (hg : g / 8 ≠ d) (s : Device) : (leaseDecision d s).ch g = s.ch g := by
  rw [leaseDecision_eq]
  split_ifs
  · refine each_keeps (I := fun t => t.ch g = s.ch g) (chansOf d) rfl fun h hh t ht => ?_
    have hh := mem_chansOf.mp hh
    exact ((only_decideAt (Device.only_refl t (by omega))).2.chans g (by omega)).trans ht
  · rfl

theorem decideAt_of_not_due {g : Nat} (h : decisionDue s g = false) : decideAt g s = s := if_neg (by simp [h])

theorem decideAt_of_due {g : Nat} (h : decisionDue s g = true) :
    decideAt g s = decide1 g (if acirComesFirst s g then acirEvent g s else s) := if_pos h

/-- A fold whose every operation leaves the device leaves it. -/
theorem each_of_fixed {f : Nat → Device → Device} (ns : List Nat) (h : ∀ n ∈ ns, f n s = s) : s.each ns f = s :=
  each_keeps (I := fun t => t = s) ns rfl fun n hn t ht => by rw [ht, h n hn]

theorem leaseDecision_of_not_due (h : ∀ g, g / 8 = d → decisionDue s g = false) : leaseDecision d s = s := by
  rw [leaseDecision_eq]
  split_ifs
  · exact each_of_fixed _ fun g hg => decideAt_of_not_due (h g (mem_chansOf.mp hg))
  · rfl

/-- With one channel of a die to decide for, the decisions of the die are that channel's. -/
theorem leaseDecision_of_one (hd : d < 8) (hup : (s.die d).up = true) (hslot : (List.range 16).any (slotBegins s) = true) {g : Nat}
    (hg : g / 8 = d) (hquiet : ∀ h, h < 64 → h / 8 = d → h ≠ g → (s.ch h).lease.decision = 0) : leaseDecision d s = decideAt g s := by
  obtain ⟨before, after, hsplit⟩ := List.append_of_mem (mem_chansOf.mpr hg)
  have hnodup : (chansOf d).Nodup := List.nodup_range.map fun a b h => by simpa using h
  have hnot : g ∉ before ++ after := by
    rw [hsplit, List.nodup_middle] at hnodup
    exact (List.nodup_cons.mp hnodup).1
  have hnone (h : Nat) (hh : h ∈ before ++ after) : h ≠ g ∧ (s.ch h).lease.decision = 0 := by
    have hmem : h ∈ chansOf d := by
      rw [hsplit]
      simp only [List.mem_append, List.mem_cons] at hh ⊢
      exact hh.imp_right Or.inr
    have hne : h ≠ g := fun e => hnot (e ▸ hh)
    exact ⟨hne, hquiet h (by have := mem_chansOf.mp hmem; omega) (mem_chansOf.mp hmem) hne⟩
  have hfixed (t : Device) (h : Nat) (ht : (t.ch h).lease.decision = 0) : decideAt h t = t :=
    decideAt_of_not_due (by simp [decisionDue, ht])
  have hbefore : s.each before decideAt = s :=
    each_of_fixed before fun h hh => hfixed s h (hnone h (List.mem_append_left _ hh)).2
  have hafter : (decideAt g s).each after decideAt = decideAt g s := each_of_fixed after fun h hh => by
    obtain ⟨hne, hzero⟩ := hnone h (List.mem_append_right _ hh)
    refine hfixed _ h ?_
    rw [(only_decideAt (Device.only_refl s (by omega))).2.chans h hne]
    exact hzero
  rw [leaseDecision_eq, if_pos (by rw [hup, hslot]; rfl), hsplit, Device.each, List.foldl_append, List.foldl_cons]
  show ((decideAt g (s.each before decideAt)).each after decideAt) = _
  rw [hbefore, hafter]

end

/-! LEASE cells (R19, R246, R256, R257, R282). -/

theorem exec_cellLease (m : LeaseMsg) (late : Bool) (s : State) :
    exec (.cellLease m late) s = onDie (leaseDie m) s (cellLease m late) := rfl

/-- A cell of another die is on its way, and nothing else has changed. -/
theorem sentUp_spec {e : Nat} {s : Device} (he : e ≠ 0) (hlt : e < s.dies.length)
    (hfree : ∀ c ∈ (s.die e).link.upWait, c.seq ≠ (s.die e).link.upSeq) (c : CellLoad) : let t := sentUp e 5 c s
    t = { s with dies := t.dies } ∧ (∀ e', e' ≠ e → t.die e' = s.die e') ∧ t.die e = (s.die e).waitsUp 5 c := by
  rw [sentUp_eq he hlt hfree]
  obtain ⟨hown, -, hothers, -⟩ := sends_modDie hlt ((s.die e).waitsUp 5 c)
  exact ⟨rfl, hothers, hown⟩

/-- A cell for another die is on its way, and nothing else has changed. -/
theorem sentDown_spec {d : Nat} {s : Device} (hlt : d < s.dies.length)
    (hfree : ∀ c ∈ (s.die d).link.wait, c.seq ≠ (s.die d).link.seq) (c : CellLoad) : let t := sentDown d 5 c s
    t = { s with dies := t.dies } ∧ (∀ e, e ≠ d → t.die e = s.die e) ∧ t.die d = (s.die d).waitsDown s.clk 5 c := by
  rw [sentDown_eq hlt hfree]
  obtain ⟨hown, -, hothers, -⟩ := sends_modDie hlt ((s.die d).waitsDown s.clk 5 c)
  exact ⟨rfl, hothers, hown⟩

section
variable {g : Nat} {on : Bool} {s : Device}

/-- A step engine has a re-seat to ask for: its phase wants it, and no request of it waits yet (R246). -/
def WantsReseat (s : Device) (g : Nat) (on : Bool) : Prop :=
  dieRuns (s.die (g / 8)) = true ∧ engState s g = EngSt.reseat ∧ (s.ch g).eng.interrupted = false ∧
    (s.ch g).eng.seat = (if on then .wantPull else .wantRelease) ∧ (∀ r ∈ s.vreqs, r.seatCh ≠ some g) ∧
    ∀ c ∈ (s.die (g / 8)).link.upWait, c.load ≠ .reseat g on

theorem reseatRequest_eq [Decidable (WantsReseat s g on)] : reseatRequest g on s =
    if arrives s (g / 8) = true ∧ WantsReseat s g on then sentUp (g / 8) 5 (.reseat g on) s else s := by
  unfold reseatRequest
  refine ite_congr (propext ?_) (fun _ => rfl) fun _ => rfl
  have hseat : (if on = true then (s.ch g).eng.seat == Seat.wantPull else (s.ch g).eng.seat == Seat.wantRelease) = true ↔
      (s.ch g).eng.seat = if on = true then Seat.wantPull else Seat.wantRelease := by cases on <;> simp
  simp only [Bool.and_eq_true, hseat, Bool.not_eq_true', beq_iff_eq, List.any_eq_false, WantsReseat, and_assoc, ne_eq]

/-- An accepted re-seat request takes the scheduler's next place, for the channel's next slot (R246, R282). -/
theorem valveSeatReq_spec (hcode : acceptCode s (s.cget g CH_SEAT_VALVE) on = 0) : let t := valveSeatReq g on s
    t.vreqs = s.vreqs ++ [{
      valve := s.cget g CH_SEAT_VALVE, on := on, order := s.vorder, due := false, deferred := false
      seatCh := some g, acceptAt := s.now, pt := resolveAngle (linePt s) (slotOf s g * 2 ^ 28) }] ∧ t.chans = s.chans := by
  have hbank (d : Nat) (t : Device) : (bankPending d t).vreqs = t.vreqs ∧ (bankPending d t).chans = t.chans := by
    have hfold (u : Device) (x : Nat → Nat) (hu : u.vreqs = t.vreqs ∧ u.chans = t.chans) :
        let w := u.each (bankValves d) fun v y => vset v VALVE_STAT_PENDING (x v) y
        w.vreqs = t.vreqs ∧ w.chans = t.chans :=
      each_keeps (I := fun w => w.vreqs = t.vreqs ∧ w.chans = t.chans) _ hu fun _ _ _ hw => hw
    unfold bankPending
    dsimp only
    split_ifs
    · exact ⟨rfl, rfl⟩
    · exact hfold _ _ ⟨rfl, rfl⟩
  unfold valveSeatReq valveAccept
  rw [if_neg (not_not.mpr hcode)]
  exact hbank _ _

end

/-! What the lead die takes from a LEASE cell (R256, R257). -/

section
variable {s : Device}

theorem leaseTold_spec {g : Nat} (hg : g < s.chans.length) (dem : Int) (held waiting : Bool) : let t := leaseTold g dem held waiting s
    (∀ h, h ≠ g → t.ch h = s.ch h) ∧ t = { s with chans := t.chans } ∧
      t.ch g = { s.ch g with lease := { (s.ch g).lease with
        reported := dem, age := 0, released := (s.ch g).lease.inForce && !held, waiting := waiting } } :=
  ⟨fun _ hh => Device.ch_modCh_ne s hh _, rfl, Device.ch_modCh_self s hg _⟩

/-- A lease whose decision came after its stamp waits for the frame boundary (R257). -/
def lateLease (l : Lease) : Lease := { l with late := l.decision != 0 }

theorem ch_lateLeases (ns : List Nat) {g : Nat} {s : Device} (hg : g < s.chans.length) :
    (s.each ns fun h t => t.modLease h lateLease).ch g =
      if g ∈ ns then { s.ch g with lease := lateLease (s.ch g).lease } else s.ch g := by
  induction ns generalizing s with
  | nil => rfl
  | cons n ns ih =>
    have hn : (s.modLease n lateLease).ch g = if g = n then { s.ch g with lease := lateLease (s.ch g).lease } else s.ch g := by
      split_ifs with h
      · rw [← h]
        exact Device.ch_modCh_self s hg _
      · exact Device.ch_modCh_ne s h _
    show ((s.modLease n lateLease).each ns fun h t => t.modLease h lateLease).ch g = _
    rw [ih (by simpa [Device.modLease] using hg), hn]
    by_cases h : g = n <;> by_cases hmem : g ∈ ns <;> simp [h, hmem, lateLease]

theorem leaseLate_spec {d : Nat} (hlen : s.chans.length = 64) (h : ∃ g, g < 64 ∧ g / 8 = d ∧ (s.ch g).lease.decision ≠ 0) :
    let t := leaseLate d s
    t.pget BUS_STAT_LATE_EVT = 1 ∧
      ∀ g, g < 64 → t.ch g = if g / 8 = d then { s.ch g with lease := lateLease (s.ch g).lease } else s.ch g := by
  have hany : ((chansOf d).any fun g => (s.ch g).lease.decision != 0) = true := by
    obtain ⟨g, -, hd, hg⟩ := h
    exact List.any_eq_true.mpr ⟨g, mem_chansOf.mpr hd, by simpa using hg⟩
  unfold leaseLate
  dsimp only
  rw [if_pos hany]
  have hevt : (s.pset BUS_STAT_LATE_EVT 1).pget BUS_STAT_LATE_EVT = 1 :=
    (Device.pget_pset_self s BUS_STAT_LATE_EVT 1 (by decide)).trans rfl
  refine ⟨each_keeps (I := fun t => t.pget BUS_STAT_LATE_EVT = 1) _ hevt fun n _ t ht => ?_, fun g hg => ?_⟩
  · exact ht
  · have hlt : g < (s.pset BUS_STAT_LATE_EVT 1).chans.length := by rwa [Device.pset, Device.setReg_chans, hlen]
    have hch : (s.pset BUS_STAT_LATE_EVT 1).ch g = s.ch g := by rw [Device.pset, Device.setReg_ch]
    exact (ch_lateLeases (chansOf d) hlt).trans (by simp only [mem_chansOf, hch])

end

end Sys2Proof.Machine
end

section
/-! Proofs of the family of the line angle: what a pause, a grant and a refusal leave of a channel (O46). -/

namespace Sys2Proof.Machine

/-! What the work of a channel leaves of its duty: its engine's state, its lease, and the words of the arbiter. -/

/-- IRQ_STATUS, BUS_STAT, BUS_PAUSE_LAST and the maps (R269, R422). -/
def dutyWords : List Nat := [0x004, 0x026, 0x02B, 0x02C, 0x02D, 0x02E, 0x02F]

/-- A channel's engine state, LSTATE and lease, and the arbiter's words. -/
def duty (g : Nat) (s : Device) : Nat × Nat × Lease × (Nat → Word) :=
  (engState s g, leaseSt s g, (s.ch g).lease, fun a => if a ∈ dutyWords then s.reg a else 0)

/-- A part of a channel that no change of a channel touches reads as before at every channel. -/
theorem proj_ch_modCh {α : Type} {s : Device} (p : Chan → α) {f : Chan → Chan} (hf : ∀ c, p (f c) = p c) (g h : Nat) :
    p ((s.modCh g f).ch h) = p (s.ch h) := by
  unfold Device.ch Device.modCh
  rw [List.getElem?_modify]
  split
  · cases s.chans[h]? <;> simp [hf]
  · cases s.chans[h]? <;> simp

section
variable {g : Nat} (s : Device)

theorem duty_setReg {a : Nat} (h1 : a ≠ chAddr g 1) (h3 : a ≠ chAddr g 3) (ha : a ∉ dutyWords) (w : Word) :
    duty g (s.setReg a w) = duty g s := by
  have hwords : (fun b => if b ∈ dutyWords then (s.setReg a w).reg b else 0) = fun b => if b ∈ dutyWords then s.reg b else 0 :=
    funext fun b => ite_congr rfl (fun hb => Device.reg_setReg_ne s (by rintro rfl; exact ha hb) w) fun _ => rfl
  unfold duty
  rw [hwords, engState, leaseSt, Device.cget_setReg_ne s h1.symm, Device.cget_setReg_ne s h3.symm]
  rfl

theorem not_dutyWord_of_le {a : Nat} (h : 0x30 ≤ a) : a ∉ dutyWords := by
  simp only [dutyWords, List.mem_cons, List.not_mem_nil, or_false]
  omega

theorem duty_cset {f : Fld .ch} (h3 : f.off ≠ 3) (h : Device.Apart f CH_STAT_ENGINE) (v : Nat) : duty g (s.cset g f v) = duty g s := by
  have hwords : (fun b => if b ∈ dutyWords then (s.cset g f v).reg b else 0) = fun b => if b ∈ dutyWords then s.reg b else 0 :=
    funext fun b => ite_congr rfl (fun hb => Device.reg_setReg_ne s
      (fun e => not_dutyWord_of_le (by unfold chAddr; omega) (e ▸ hb)) _) fun _ => rfl
  have hlease : (s.cset g f v).cget g CH_LEASE_LSTATE = s.cget g CH_LEASE_LSTATE :=
    Device.cget_cset_apart s g f CH_LEASE_LSTATE v (.inl (Ne.symm h3))
  unfold duty
  rw [hwords, engState, leaseSt, Device.cget_cset_apart s g f CH_STAT_ENGINE v h, hlease]
  rfl

theorem duty_dset (hg : g < 64) (f : Fld .die) (v : Nat) (hf : f.off < 0x200) : duty g (s.dset (g / 8) f v) = duty g s :=
  duty_setReg s (by unfold dieAddr chAddr; omega) (by unfold dieAddr chAddr; omega)
    (not_dutyWord_of_le (by unfold dieAddr; omega)) _

theorem duty_modCh {f : Chan → Chan} (hf : ∀ c, (f c).lease = c.lease) : duty g (s.modCh g f) = duty g s := by
  have hlease : ((s.modCh g f).ch g).lease = (s.ch g).lease := proj_ch_modCh Chan.lease hf g g
  unfold duty
  rw [hlease]
  rfl

@[simp] theorem duty_modDie (d : Nat) (f : DieSt → DieSt) : duty g (s.modDie d f) = duty g s := (rfl)
@[simp] theorem duty_cforce (off : Nat) : duty g (s.cforce g off) = duty g s := (rfl)
@[simp] theorem duty_nextFree : duty g s.nextFree = duty g s := (rfl)
@[simp] theorem duty_modBench (d : Nat) (f : Bench → Bench) : duty g (s.modBench d f) = duty g s := (rfl)
@[simp] theorem duty_modLp (f : Loop → Loop) : duty g (s.modLp g f) = duty g s := duty_modCh s fun _ => rfl
@[simp] theorem duty_modEng (f : Eng → Eng) : duty g (s.modEng g f) = duty g s := duty_modCh s fun _ => rfl
@[simp] theorem duty_modDue (f : Due → Due) : duty g (s.modDue g f) = duty g s := duty_modCh s fun _ => rfl
@[simp] theorem duty_modAcir (f : Acir → Acir) : duty g (s.modAcir g f) = duty g s := duty_modCh s fun _ => rfl

/-! The operations of a channel (R82 to R88, R166, R182, R247, R250). -/

theorem duty_traceWrite (hg : g < 64) (typ : Nat) (body : List Byte) : duty g (traceWrite typ g body s) = duty g s := by
  unfold traceWrite
  dsimp only
  split_ifs
  · rfl
  · rw [duty_dset _ hg _ _ (by decide), Device.dinc, duty_dset _ hg _ _ (by decide), duty_modDie]
  · rw [duty_dset _ hg _ _ (by decide), duty_dset _ hg _ _ (by decide), duty_modDie, duty_modDie]

theorem duty_traceEvent (hg : g < 64) (ev cause data : Nat) : duty g (traceEvent ev cause data g s) = duty g s :=
  duty_traceWrite s hg 2 _

theorem duty_acirStepFails (hg : g < 64) (code : Nat) : duty g (acirStepFails code g s) = duty g s := by
  rw [acirStepFails, duty_modEng, acirRecord, duty_traceWrite s hg]

theorem duty_acirStepAborted (hg : g < 64) (code : Nat) : duty g (acirStepAborted code g s) = duty g s := by
  unfold acirStepAborted
  split_ifs
  · exact duty_modEng s _
  · exact duty_acirStepFails s hg code
  · exact duty_modEng s _

theorem duty_acirIdle : duty g (acirIdle g s) = duty g s := by
  rw [acirIdle, duty_cset _ (by decide) (by decide), duty_modAcir]

theorem duty_acirAbort (hg : g < 64) (code : Nat) : duty g (acirAbort code g s) = duty g s := by
  have hend (t : Device) (c : Prop) [Decidable c] : duty g (if c then acirIdle g t else t.cset g ACIR_STAT_STATE 3) = duty g t := by
    split_ifs
    · exact duty_acirIdle t
    · exact duty_cset t (by decide) (by decide) 3
  have hown (t : Device) (c : Prop) [Decidable c] : duty g (if c then acirStepAborted code g t else t) = duty g t := by
    split_ifs
    · exact duty_acirStepAborted t hg code
    · rfl
  unfold acirAbort
  dsimp only
  split
  · rfl
  · rw [hown, hend, duty_modAcir, duty_cset _ (by decide) (by decide), duty_cset _ (by decide) (by decide),
      duty_cset _ (by decide) (by decide)]

theorem duty_setMode (hg : g < 64) (m : Nat) : duty g (setMode m g s) = duty g s := by
  have hrest (t : Device) (c : Prop) [Decidable c] (f k : Loop → Loop) : duty g (if c then t.modLp g f else t.modLp g k) = duty g t := by
    split_ifs <;> exact duty_modLp t _
  have habort (c : Prop) [Decidable c] : duty g (if c then s else (acirAbort 2 g s).modLp g fun l => { l with pTrim := 0 }) = duty g s := by
    split_ifs
    · rfl
    · rw [duty_modLp, duty_acirAbort s hg]
  unfold setMode
  dsimp only
  rw [hrest, duty_cset _ (by decide) (by decide), habort]

theorem duty_engMode (hg : g < 64) (m : Nat) : duty g (engMode m g s) = duty g s := by
  unfold engMode
  dsimp only
  split_ifs
  · exact duty_modLp s _
  · rw [duty_setMode _ hg, duty_modLp]

theorem duty_channelStart : duty g (channelStart g s) = duty g s := by
  unfold channelStart
  dsimp only
  split
  · rfl
  · rw [duty_nextFree, duty_cset _ (by decide) (by decide), duty_cset _ (by decide) (by decide), duty_cset _ (by decide) (by decide),
      duty_modLp, duty_cforce, duty_cforce]

theorem duty_followMode : duty g (followMode g s) = duty g s := by
  unfold followMode
  split_ifs
  · rfl
  · rw [duty_channelStart, duty_modLp]

theorem duty_benchAbort (hg : g < 64) : duty g (benchAbort (g / 8) s) = duty g s := by
  have hword (t : Device) (f : Fld .die) (v : Nat) (hf : f.off < 0x200) : duty g (t.dset (g / 8) f v) = duty g t :=
    duty_dset t hg f v hf
  unfold benchAbort
  dsimp only
  split_ifs
  all_goals simp (disch := decide) only [duty_modBench, hword, setPhase]

theorem duty_acirRefuse (hg : g < 64) (code : Nat) (p : AcirPar) : duty g (acirRefuse code p g s) = duty g s := by
  unfold acirRefuse
  dsimp only
  split_ifs
  · rw [duty_acirStepFails _ hg, duty_cset _ (by decide) (by decide), duty_cset _ (by decide) (by decide)]
  · rw [duty_cset _ (by decide) (by decide), duty_cset _ (by decide) (by decide)]

theorem duty_acirRequest (hg : g < 64) (p : AcirPar) : duty g (acirRequest p g s) = duty g s := by
  have hbench (t : Device) (c : Prop) [Decidable c] : duty g (if c then benchAbort (g / 8) t else t) = duty g t := by
    split_ifs
    · exact duty_benchAbort t hg
    · rfl
  have htake (c : Prop) [Decidable c] (f k : Acir → Acir) :
      duty g (if c then (s.modAcir g f).cset g ACIR_STAT_HELD 1 else s.modAcir g k) = duty g s := by
    split_ifs
    · rw [duty_cset _ (by decide) (by decide), duty_modAcir]
    · exact duty_modAcir s _
  unfold acirRequest
  dsimp only
  split
  · exact duty_acirRefuse s hg _ p
  · rw [hbench, htake]

theorem duty_writeSetpoints : duty g (writeSetpoints g s) = duty g s := by
  have hword (t : Device) {off : Nat} (h1 : off ≠ 1) (h3 : off ≠ 3) (w : Word) : duty g (t.setReg (chAddr g off) w) = duty g t :=
    duty_setReg t (by unfold chAddr; omega) (by unfold chAddr; omega) (not_dutyWord_of_le (by unfold chAddr; omega)) w
  unfold writeSetpoints
  split
  · rfl
  · dsimp only
    unfold engSetpoints
    dsimp only
    split_ifs
    · exact duty_modLp s _
    · rw [hword _ (by decide) (by decide), hword _ (by decide) (by decide), hword _ (by decide) (by decide), duty_modLp]

theorem duty_stepBegin (hg : g < 64) (fresh : Bool) : duty g (stepBegin fresh g s) = duty g s := by
  unfold stepBegin
  split
  · rfl
  · split_ifs
    · rfl
    · exact duty_acirRequest s hg _
    · rw [duty_writeSetpoints, duty_modEng]
    · rfl

/-! A step runs (R236, R237). -/

theorem duty_setEng {e : Nat} (he : e < 16) : duty g (setEng e g s) = (e, (duty g s).2) := by
  have hwords : (fun b => if b ∈ dutyWords then (setEng e g s).reg b else 0) = fun b => if b ∈ dutyWords then s.reg b else 0 :=
    funext fun b => ite_congr rfl (fun hb => Device.reg_setReg_ne s
      (by rintro rfl; exact not_dutyWord_of_le (by unfold chAddr; omega) hb) _) fun _ => rfl
  have heng : engState (setEng e g s) g = e :=
    (Device.cget_cset_self s g CH_STAT_ENGINE e (by decide)).trans (Nat.mod_eq_of_lt he)
  have hlease : leaseSt (setEng e g s) g = leaseSt s g := Device.cget_cset_apart s g CH_STAT_ENGINE CH_LEASE_LSTATE e (by decide)
  unfold duty
  rw [hwords, heng, hlease]
  rfl

theorem duty_runStep (hg : g < 64) (whole : Bool) (hband : bandCause s g = 0) (hvdrv : (s.die (g / 8)).vdrvBad = false) :
    duty g (runStep whole g s) = (EngSt.running, (duty g s).2) := by
  have hev (c k : Prop) [Decidable c] [Decidable k] (m n : Nat) :
      duty g (if c then traceEvent 2 0 m g s else if k then traceEvent 4 n 0 g s else s) = duty g s := by
    split_ifs
    · exact duty_traceEvent s hg _ _ _
    · exact duty_traceEvent s hg _ _ _
    · rfl
  have hfresh (t : Device) (c : Prop) [Decidable c] : duty g (if c then t.cset g CH_STAT_CV_EVT 0 else t) = duty g t := by
    split_ifs
    · exact duty_cset t (by decide) (by decide) 0
    · rfl
  have hfollow (t : Device) (c : Prop) [Decidable c] : duty g (if c then t else followMode g t) = duty g t := by
    split_ifs
    · rfl
    · exact duty_followMode t
  have hblank (t : Device) : duty g (contactBlank g (clearCounts g t)) = duty g t := by
    rw [contactBlank, duty_modLp, clearCounts, duty_modEng]
  unfold runStep
  rw [if_neg (by simp [hband]), if_neg (by simp [hvdrv])]
  dsimp only
  rw [duty_stepBegin _ hg, hfollow, duty_engMode _ hg, hblank, duty_modLp, duty_modEng, hfresh, duty_setEng _ (by decide),
    duty_cset _ (by decide) (by decide), hev]

end

/-! Parts of a duty. -/

section
variable {g : Nat} {s t : Device}

/-- Another device has the same words of the arbiter. -/
def SameWords (s t : Device) : Prop := ∀ a ∈ dutyWords, t.reg a = s.reg a

theorem sameWords_of_duty (h : (duty g t).2.2.2 = (duty g s).2.2.2) : SameWords s t := fun a ha => by
  have := congrFun h a
  simpa only [duty, ha, if_true] using this

theorem SameWords.pget (h : SameWords s t) {f : Fld .pkg} (hf : f.off ∈ dutyWords) : t.pget f = s.pget f := by
  rw [Device.pget, Device.pget, h f.off hf]

theorem SameWords.irqStatus (h : SameWords s t) : irqStatus t = irqStatus s := by
  rw [Sys2Proof.Machine.irqStatus, Sys2Proof.Machine.irqStatus, h 4 (by decide)]

end

/-! The maps of the channels (R269). -/

/-- The bit of a channel in a map of two words. -/
def mapBit (lo hi : Fld .pkg) (g : Nat) (s : Device) : Bool := if g < 32 then s.pgetBit lo g else s.pgetBit hi (g - 32)

section
variable {lo hi : Fld .pkg} {g : Nat} {s t : Device}

theorem SameWords.mapBit (h : SameWords s t) (hlo : lo.off ∈ dutyWords) (hhi : hi.off ∈ dutyWords) :
    mapBit lo hi g t = mapBit lo hi g s := by
  rw [Sys2Proof.Machine.mapBit, Sys2Proof.Machine.mapBit, Device.pgetBit, Device.pgetBit, Device.pgetBit, Device.pgetBit,
    h.pget hlo, h.pget hhi]

theorem mapBit_setMap (hlo : lo.lo = 0 ∧ lo.hi = 31) (hhi : hi.lo = 0 ∧ hi.hi = 31) (hg : g < 64) (on : Bool) (s : Device) :
    mapBit lo hi g (setMap lo hi g on s) = on := by
  obtain ⟨hl0, hl31⟩ := hlo
  obtain ⟨hh0, hh31⟩ := hhi
  unfold mapBit setMap
  split_ifs with h
  · exact testBit_psetBit s (by omega) (by unfold Fld.width; omega) on
  · exact testBit_psetBit s (by omega) (by unfold Fld.width; omega) on

theorem reg_setMap {a : Nat} (hlo : a ≠ lo.off) (hhi : a ≠ hi.off) (on : Bool) (s : Device) : (setMap lo hi g on s).reg a = s.reg a := by
  unfold setMap
  split_ifs
  · exact Device.reg_setReg_ne s hlo _
  · exact Device.reg_setReg_ne s hhi _

theorem mapBit_of_regs (hlo : t.reg lo.off = s.reg lo.off) (hhi : t.reg hi.off = s.reg hi.off) : mapBit lo hi g t = mapBit lo hi g s := by
  simp only [mapBit, Device.pgetBit, Device.pget, hlo, hhi]

theorem setMap_only (on : Bool) (s : Device) : setMap lo hi g on s = { s with regs := (setMap lo hi g on s).regs } := by
  unfold setMap
  split_ifs <;> rfl

end

/-! The category of an event (R422). -/

section
variable (s : Device)

theorem reg_irqSource {a : Nat} (ha : a ≠ 6) (cat die obj : Nat) : (irqSource cat die obj s).reg a = s.reg a := by
  have hlatch (t : Device) : (irqLatch cat die obj t).reg a = t.reg a := by
    rw [irqLatch, reg_pset_ne (by exact ha), reg_pset_ne (by exact ha), reg_pset_ne (by exact ha)]
  have hinc (t : Device) : (t.pinc IRQ_SOURCE_MORE).reg a = t.reg a := reg_pset_ne (by exact ha) _ t
  have hset (t : Device) (n : Nat) : (t.setIrqAt n).reg a = t.reg a := rfl
  unfold irqSource
  split_ifs
  · rw [hset, reg_pset_ne (by exact ha), reg_pset_ne (by exact ha), hlatch]
  · rw [hinc, hlatch]
  · exact hinc s

/-- A category that is set stays set, and the one of the event is set. -/
theorem irqStatus_setIrq {i cat : Nat} (hcat : cat < 12) (h : (irqStatus s).testBit i = true ∨ i = cat) (die obj : Nat) :
    (irqStatus (setIrq cat die obj s)).testBit i = true := by
  have hor {t : Device} (ht : t.reg 4 = s.reg 4 ||| BitVec.ofNat 32 (2 ^ cat)) : (irqStatus t).testBit i = true := by
    have hi : i < 12 := h.elim (fun hi => of_decide_eq_true (Bool.and_eq_true_iff.mp
      ((Nat.testBit_mod_two_pow (s.reg 4).toNat 12 i).symm.trans hi)).1) fun e => e ▸ hcat
    have hone : (2 ^ cat) % 2 ^ 32 = 2 ^ cat := Nat.mod_eq_of_lt (Nat.pow_lt_pow_right (by decide) (by omega))
    have hbits : (irqStatus t).testBit i = ((s.reg 4).toNat.testBit i || decide (cat = i)) := by
      rw [irqStatus, ht, show 4096 = 2 ^ 12 from rfl, Nat.testBit_mod_two_pow, BitVec.toNat_or, BitVec.toNat_ofNat, hone,
        Nat.testBit_or, Nat.testBit_two_pow]
      simp [hi]
    rw [hbits]
    rcases h with h | rfl
    · rw [(Bool.and_eq_true_iff.mp ((Nat.testBit_mod_two_pow (s.reg 4).toNat 12 i).symm.trans h)).2, Bool.true_or]
    · simp
  unfold setIrq
  dsimp only
  split_ifs with hset
  · rcases h with h | rfl
    · exact h
    · exact hset
  · exact hor (Device.reg_setReg_self s 4 _)
  · exact hor ((reg_irqSource _ (by decide) _ _ _).trans (Device.reg_setReg_self s 4 _))

theorem irqStatus_of_reg {t : Device} (h : t.reg 4 = s.reg 4) : irqStatus t = irqStatus s := by rw [irqStatus, irqStatus, h]

theorem reg_ringTakes (e : LedgerEnt) : (ringTakes e s).reg 4 = s.reg 4 := by
  have hfull (t : Device) (c : Prop) [Decidable c] :
      (if c then (t.pset LEDGER_STAT_FULL 1).pset LEDGER_STAT_BACK_OK 0 else t).reg 4 = t.reg 4 := by
    split_ifs
    · rw [reg_pset_ne (by decide), reg_pset_ne (by decide)]
    · rfl
  rw [ringTakes, hfull, reg_pset_ne (by decide), reg_pset_ne (by decide)]
  rfl

/-- An event of the lead die shows in its category (R422). -/
theorem irqStatus_logEvent_lead {cat : Nat} (hcat : cat < 12) (code obj data : Nat) :
    (irqStatus (logEvent cat 0 code obj data s)).testBit cat = true := by
  have hset := irqStatus_setIrq s hcat (.inr rfl) 0 obj
  unfold logEvent
  dsimp only
  rw [if_pos rfl]
  generalize setIrq cat 0 obj s = t at hset ⊢
  have hseq : (t.pset LEDGER_NEXT_SEQ (t.pget LEDGER_NEXT_SEQ + 1)).reg 4 = t.reg 4 := reg_pset_ne (by decide) _ t
  have hdropped (u : Device) : (u.pinc LEDGER_DROPPED).reg 4 = u.reg 4 := reg_pset_ne (by decide) _ u
  unfold ledgerPut
  dsimp only
  split_ifs
  · exact (congrArg (Nat.testBit · cat) (irqStatus_of_reg _ ((hdropped _).trans hseq))).trans hset
  · rw [ledgerWrite_eq]
    refine irqStatus_setIrq _ (by decide) (.inl ?_) 0 0xFF
    rw [irqStatus_of_reg _ ((reg_ringTakes _ _).trans hseq)]
    exact hset

end

end Sys2Proof.Machine
end

section
/-! Proofs of the family of the line angle: a pause, a grant and a refusal at the first clock of a slot (O46). -/

namespace Sys2Proof.Machine

section
variable {g : Nat} {s : Device}

/-! Which operation a decision is (R257). -/

/-- A channel whose decision is taken. -/
def decided (g : Nat) (s : Device) : Device := s.modLease g fun l => { l with decision := 0, late := false }

theorem decide1_of_pause (h : (s.ch g).lease.decision = 2) (hheld : leaseHeld s g = true) :
    decide1 g s = budgetPause g (decided g s) := by
  unfold decide1
  dsimp only
  rw [h]
  exact if_pos hheld

theorem decide1_of_refusal (h : (s.ch g).lease.decision = 3) (hwaits : leaseSt s g = 2) :
    decide1 g s = budgetRefuse g (decided g s) := by
  unfold decide1
  dsimp only
  rw [h]
  exact if_pos (.inl hwaits)

theorem decide1_of_grant (h : (s.ch g).lease.decision = 1) (hwaits : leaseSt s g = 2) :
    decide1 g s = budgetGrant g (decided g s) := by
  unfold decide1
  dsimp only
  rw [h]
  exact if_pos (.inl hwaits)

theorem decision_decided (hg : g < s.chans.length) : ((decided g s).ch g).lease.decision = 0 := by
  rw [decided, Device.modLease, Device.ch_modCh_self s hg]

theorem canonical_decided {n : Nat} (hs : s.Canonical n) : (decided g s).Canonical n := Device.canonical_modLease g _ hs

/-! The words of the arbiter beside a channel's own. -/

theorem cget_setMap {lo hi : Fld .pkg} (hlo : lo.off < 0x2000) (hhi : hi.off < 0x2000) (h : Nat) (on : Bool) (k : Fld .ch) (s : Device) :
    (setMap lo hi h on s).cget g k = s.cget g k := by
  unfold setMap
  split_ifs
  · exact Device.cget_setReg_ne s (by unfold chAddr; omega) _
  · exact Device.cget_setReg_ne s (by unfold chAddr; omega) _

theorem pget_setMap {lo hi k : Fld .pkg} (hlo : k.off ≠ lo.off) (hhi : k.off ≠ hi.off) (h : Nat) (on : Bool) (s : Device) :
    (setMap lo hi h on s).pget k = s.pget k := congrArg k.get (reg_setMap hlo hhi on s)

theorem ch_setMap {lo hi : Fld .pkg} (h : Nat) (on : Bool) (s : Device) : (setMap lo hi g on s).ch h = s.ch h := by
  rw [setMap_only]
  rfl

theorem EventOnly.cget {t : Device} (h : EventOnly s t) (k : Fld .ch) : t.cget g k = s.cget g k :=
  congrArg k.get (h.2 _ (by simp only [eventWords, chAddr, List.mem_cons, List.not_mem_nil, or_false]; omega))

theorem EventOnly.ch {t : Device} (h : EventOnly s t) (k : Nat) : t.ch k = s.ch k := by
  rw [h.1]
  rfl

/-- What an equal duty says of each of its parts. -/
theorem parts_of_duty {t : Device} (h : duty g t = duty g s) :
    engState t g = engState s g ∧ leaseSt t g = leaseSt s g ∧ (t.ch g).lease = (s.ch g).lease ∧ SameWords s t :=
  ⟨congrArg Prod.fst h, congrArg (·.2.1) h, congrArg (·.2.2.1) h, sameWords_of_duty (congrArg (·.2.2.2) h)⟩

/-! A pause (R262, R269). -/

/-- What a pause notes of the channel, before its event. -/
def pauseNoted (reverse g : Nat) (s : Device) : Device :=
  ((setMap BUS_PAUSE_MAP_0 BUS_PAUSE_MAP_1 g true ((s.cset g CH_LEASE_LSTATE 3).pset BUS_STAT_PAUSE_EVT 1)).pset BUS_PAUSE_LAST_CH g).pset
    BUS_PAUSE_LAST_REVERSE reverse

/-- A pause with its event in the ledger, before the channel's work ends. -/
def pauseLogged (g : Nat) (s : Device) : Device :=
  logEvent Cat.bus 0 0x02 g (fieldOf 32 (s.ch g).lease.net) (pauseNoted (if (s.ch g).lease.reverse then 1 else 0) g s)

/-- The work of a paused channel ends: its window, its mode, and its step engine at the next boundary. -/
def pauseStops (g : Nat) (s : Device) : Device :=
  (setMode 0 g ((acirAbort 1 g s).modLp g fun x => { x with engMode := 0 })).modDue g fun x => { x with pause := 1 }

theorem budgetPause_eq : budgetPause g s = pauseStops g (pauseLogged g s) := rfl

theorem cget_pauseNoted (reverse : Nat) (k : Fld .ch) : (pauseNoted reverse g s).cget g k = (s.cset g CH_LEASE_LSTATE 3).cget g k := by
  rw [pauseNoted, Device.cget_pset _ _ _ _ _ (by decide), Device.cget_pset _ _ _ _ _ (by decide), cget_setMap (by decide) (by decide),
    Device.cget_pset _ _ _ _ _ (by decide)]

theorem ch_pauseNoted (reverse h : Nat) : (pauseNoted reverse g s).ch h = s.ch h := by
  have hmap := (ch_setMap (lo := BUS_PAUSE_MAP_0) (hi := BUS_PAUSE_MAP_1) (g := g) h true
    ((s.cset g CH_LEASE_LSTATE 3).pset BUS_STAT_PAUSE_EVT 1)).trans ((Device.setReg_ch _ _ _ h).trans (Device.setReg_ch s _ _ h))
  exact (Device.setReg_ch _ _ _ h).trans ((Device.setReg_ch _ _ _ h).trans hmap)

theorem pauseNoted_spec (hg : g < 64) (reverse : Nat) : let t := pauseNoted reverse g s
    leaseSt t g = 3 ∧ engState t g = engState s g ∧ mapBit BUS_PAUSE_MAP_0 BUS_PAUSE_MAP_1 g t = true ∧
      t.pget BUS_STAT_PAUSE_EVT = 1 ∧ t.pget BUS_PAUSE_LAST_CH = g := by
  refine ⟨?_, ?_, ?_, ?_, ?_⟩
  · exact (cget_pauseNoted reverse _).trans (Device.cget_cset_self s g CH_LEASE_LSTATE 3 (by decide))
  · exact (cget_pauseNoted reverse _).trans (Device.cget_cset_apart s g CH_LEASE_LSTATE CH_STAT_ENGINE 3 (by decide))
  · rw [pauseNoted, mapBit_of_regs ((reg_pset_ne (by decide) _ _).trans (reg_pset_ne (by decide) _ _))
      ((reg_pset_ne (by decide) _ _).trans (reg_pset_ne (by decide) _ _))]
    exact mapBit_setMap (by decide) (by decide) hg true _
  · rw [pauseNoted, Device.pget_pset_apart _ _ _ _ (by decide), Device.pget_pset_apart _ _ _ _ (by decide),
      pget_setMap (by decide) (by decide)]
    exact Device.pget_pset_self _ BUS_STAT_PAUSE_EVT 1 (by decide)
  · rw [pauseNoted, Device.pget_pset_apart _ _ _ _ (by decide), Device.pget_pset_self _ BUS_PAUSE_LAST_CH g (by decide)]
    exact Nat.mod_eq_of_lt hg

theorem duty_pauseStops (hg : g < 64) (s : Device) : duty g (pauseStops g s) = duty g s := by
  rw [pauseStops, duty_modDue, duty_setMode _ hg, duty_modLp, duty_acirAbort s hg]

theorem mode_setMode (m : Nat) (s : Device) : (setMode m g s).cget g CH_CTL_MODE = m % 8 := by
  have hrest (t : Device) (c : Prop) [Decidable c] (f k : Loop → Loop) :
      (if c then t.modLp g f else t.modLp g k).cget g CH_CTL_MODE = t.cget g CH_CTL_MODE := by split_ifs <;> rfl
  unfold setMode
  dsimp only
  rw [hrest]
  exact Device.cget_cset_self _ g CH_CTL_MODE m (by decide)

theorem pause_pauseStops (hg : g < (pauseStops g s).chans.length) : ((pauseStops g s).ch g).due.pause = 1 := by
  rw [pauseStops, Device.modDue] at hg ⊢
  rw [Device.ch_modCh_self _ (by simpa using hg)]

theorem budgetPause_spec (hg : g < 64) (hlen : g < (budgetPause g s).chans.length) : let t := budgetPause g s
    leaseSt t g = 3 ∧ mapBit BUS_PAUSE_MAP_0 BUS_PAUSE_MAP_1 g t = true ∧ t.pget BUS_STAT_PAUSE_EVT = 1 ∧ t.pget BUS_PAUSE_LAST_CH = g ∧
      (irqStatus t).testBit Cat.bus = true ∧ (t.ch g).due.pause = 1 ∧ t.cget g CH_CTL_MODE = 0 ∧
      (t.ch g).lease = (s.ch g).lease ∧ engState t g = engState s g := by
  obtain ⟨heng, hst, hlease, hwords⟩ := parts_of_duty (duty_pauseStops hg (pauseLogged g s))
  have hev : EventOnly (pauseNoted (if (s.ch g).lease.reverse then 1 else 0) g s) (pauseLogged g s) := eventOnly_logEvent_lead _ _ _ _ _
  obtain ⟨hst3, heng0, hmap, hevt, hlast⟩ := pauseNoted_spec (s := s) hg (if (s.ch g).lease.reverse then 1 else 0)
  rw [budgetPause_eq] at hlen ⊢
  refine ⟨?_, ?_, ?_, ?_, ?_, pause_pauseStops hlen, ?_, ?_, ?_⟩
  · exact (hst.trans (hev.cget _)).trans hst3
  · exact ((hwords.mapBit (by decide) (by decide)).trans (mapBit_of_regs (hev.2 _ (by decide)) (hev.2 _ (by decide)))).trans hmap
  · exact ((hwords.pget (by decide)).trans (hev.pget (by decide))).trans hevt
  · exact ((hwords.pget (by decide)).trans (hev.pget (by decide))).trans hlast
  · exact (congrArg (Nat.testBit · Cat.bus) hwords.irqStatus).trans (irqStatus_logEvent_lead _ (by decide) _ _ _)
  · exact mode_setMode 0 _
  · exact hlease.trans (congrArg Chan.lease ((hev.ch g).trans (ch_pauseNoted _ g)))
  · exact (heng.trans (hev.cget _)).trans heng0

/-! A refusal (R236, R269). -/

theorem budgetRefuse_of_wait (h : engState s g = EngSt.wait) : budgetRefuse g s =
    traceEvent 12 0 0 g (setEng EngSt.queued g (setMap BUS_QUEUE_MAP_0 BUS_QUEUE_MAP_1 g true (s.pset BUS_STAT_QUEUE_EVT 1))) := by
  unfold budgetRefuse
  dsimp only
  rw [if_pos (.inl h), if_pos h]

theorem budgetRefuse_spec (hg : g < 64) (h : engState s g = EngSt.wait) : let t := budgetRefuse g s
    engState t g = EngSt.queued ∧ mapBit BUS_QUEUE_MAP_0 BUS_QUEUE_MAP_1 g t = true ∧ t.pget BUS_STAT_QUEUE_EVT = 1 ∧
      leaseSt t g = leaseSt s g := by
  have hmap := mapBit_setMap (lo := BUS_QUEUE_MAP_0) (hi := BUS_QUEUE_MAP_1) (by decide) (by decide) hg true (s.pset BUS_STAT_QUEUE_EVT 1)
  have hevt : (setMap BUS_QUEUE_MAP_0 BUS_QUEUE_MAP_1 g true (s.pset BUS_STAT_QUEUE_EVT 1)).pget BUS_STAT_QUEUE_EVT = 1 :=
    (pget_setMap (by decide) (by decide) g true _).trans (Device.pget_pset_self s BUS_STAT_QUEUE_EVT 1 (by decide))
  have hst : leaseSt (setMap BUS_QUEUE_MAP_0 BUS_QUEUE_MAP_1 g true (s.pset BUS_STAT_QUEUE_EVT 1)) g = leaseSt s g :=
    (cget_setMap (by decide) (by decide) g true _ _).trans (Device.cget_pset s g BUS_STAT_QUEUE_EVT CH_LEASE_LSTATE 1 (by decide))
  rw [budgetRefuse_of_wait h]
  generalize setMap BUS_QUEUE_MAP_0 BUS_QUEUE_MAP_1 g true (s.pset BUS_STAT_QUEUE_EVT 1) = t at hmap hevt hst
  have hduty := (duty_traceEvent (setEng EngSt.queued g t) hg 12 0 0).trans (duty_setEng t (by decide))
  have hwords : SameWords t (traceEvent 12 0 0 g (setEng EngSt.queued g t)) := sameWords_of_duty (congrArg (·.2.2.2) hduty)
  exact ⟨congrArg Prod.fst hduty, (hwords.mapBit (by decide) (by decide)).trans hmap, (hwords.pget (by decide)).trans hevt,
    (congrArg (·.2.1) hduty).trans hst⟩

/-! A grant (R236, R264, R265). -/

/-- The maps of a channel that takes its lease: neither paused nor queued. -/
def grantNoted (g : Nat) (s : Device) : Device :=
  setMap BUS_QUEUE_MAP_0 BUS_QUEUE_MAP_1 g false (setMap BUS_PAUSE_MAP_0 BUS_PAUSE_MAP_1 g false
    (s.cset g CH_LEASE_LSTATE (if isBurst (loadType s g) then 4 else 1)))

theorem cget_grantNoted (k : Fld .ch) : (grantNoted g s).cget g k =
    (s.cset g CH_LEASE_LSTATE (if isBurst (loadType s g) then 4 else 1)).cget g k := by
  rw [grantNoted, cget_setMap (by decide) (by decide), cget_setMap (by decide) (by decide)]

theorem leaseHeld_grantNoted : leaseHeld (grantNoted g s) g = true := by
  have hst : leaseSt (grantNoted g s) g = (if isBurst (loadType s g) then 4 else 1) % 2 ^ 3 :=
    (cget_grantNoted CH_LEASE_LSTATE).trans (Device.cget_cset_self s g CH_LEASE_LSTATE _ (by decide))
  rw [leaseHeld, hst]
  split_ifs <;> rfl

theorem maps_grantNoted (hg : g < 64) : mapBit BUS_PAUSE_MAP_0 BUS_PAUSE_MAP_1 g (grantNoted g s) = false ∧
    mapBit BUS_QUEUE_MAP_0 BUS_QUEUE_MAP_1 g (grantNoted g s) = false := by
  refine ⟨?_, mapBit_setMap (by decide) (by decide) hg false _⟩
  rw [grantNoted, mapBit_of_regs (reg_setMap (by decide) (by decide) false _) (reg_setMap (by decide) (by decide) false _)]
  exact mapBit_setMap (by decide) (by decide) hg false _

theorem budgetGrant_eq : budgetGrant g s =
    let t := grantNoted g s
    let u := if t.cbit g CH_CTL_OVR then setMode (t.cget g CH_CTL_OVR_MODE) g t else t
    if engState t g = EngSt.wait ∨ engState t g = EngSt.queued ∨ engState t g = EngSt.paused then runStep (u.clk == 0) g u else u := rfl

/-- A channel that waits and whose mode the engine sets runs its step with the lease. -/
theorem budgetGrant_of_wait (hwait : engState s g = EngSt.wait) (hovr : s.cget g CH_CTL_OVR = 0) :
    budgetGrant g s = runStep ((grantNoted g s).clk == 0) g (grantNoted g s) := by
  have heng : engState (grantNoted g s) g = EngSt.wait :=
    ((cget_grantNoted _).trans (Device.cget_cset_apart s g CH_LEASE_LSTATE CH_STAT_ENGINE _ (by decide))).trans hwait
  have hbit : (grantNoted g s).cbit g CH_CTL_OVR = false := by
    have hzero : (grantNoted g s).cget g CH_CTL_OVR = 0 :=
      ((cget_grantNoted _).trans (Device.cget_cset_apart s g CH_LEASE_LSTATE CH_CTL_OVR _ (by decide))).trans hovr
    rw [Device.cbit, hzero]
    rfl
  rw [budgetGrant_eq]
  dsimp only
  rw [if_pos (.inl heng), hbit, if_neg Bool.false_ne_true]

theorem budgetGrant_spec (hg : g < 64) (hband : bandCause s g = 0) (hvdrv : (s.die (g / 8)).vdrvBad = false)
    (hwait : engState s g = EngSt.wait) (hovr : s.cget g CH_CTL_OVR = 0) : let t := budgetGrant g s
    leaseHeld t g = true ∧ engState t g = EngSt.running ∧ mapBit BUS_PAUSE_MAP_0 BUS_PAUSE_MAP_1 g t = false ∧
      mapBit BUS_QUEUE_MAP_0 BUS_QUEUE_MAP_1 g t = false := by
  have hband' : bandCause (grantNoted g s) g = 0 := by
    rw [bandCause, cget_grantNoted, Device.cget_cset_apart s g CH_LEASE_LSTATE CH_NTC_BAND _ (by decide)]
    exact hband
  have hvdrv' : ((grantNoted g s).die (g / 8)).vdrvBad = false := by
    rw [grantNoted, setMap_only, setMap_only]
    exact hvdrv
  have hduty := duty_runStep (grantNoted g s) hg ((grantNoted g s).clk == 0) hband' hvdrv'
  have hwords := sameWords_of_duty (congrArg (·.2.2.2) hduty)
  have hst : leaseSt (runStep ((grantNoted g s).clk == 0) g (grantNoted g s)) g = leaseSt (grantNoted g s) g := congrArg (·.2.1) hduty
  obtain ⟨hpause, hqueue⟩ := maps_grantNoted (s := s) hg
  rw [budgetGrant_of_wait hwait hovr]
  refine ⟨?_, congrArg Prod.fst hduty, (hwords.mapBit (by decide) (by decide)).trans hpause,
    (hwords.mapBit (by decide) (by decide)).trans hqueue⟩
  rw [leaseHeld, hst]
  exact leaseHeld_grantNoted

end

end Sys2Proof.Machine
end

section
/-! Proofs of the family of the line angle: decisions at the slot and LEASE cells (O46). -/

namespace Sys2Proof.Machine

theorem exec_leaseDecision (d : Die) (s : State) : exec (.leaseDecision d) s = onDie d.val s (leaseDecision d.val) := rfl

/-! What a decision of each kind leaves of its channel (R257, R262, R265). -/

section
variable {g n : Nat} {s : Device}

theorem decide1_pause_spec (hs : s.Canonical n) (hg : g < 64) (hdec : (s.ch g).lease.decision = 2) (hheld : leaseHeld s g = true) :
    let t := decide1 g s
    leaseSt t g = 3 ∧ mapBit BUS_PAUSE_MAP_0 BUS_PAUSE_MAP_1 g t = true ∧ t.pget BUS_STAT_PAUSE_EVT = 1 ∧ t.pget BUS_PAUSE_LAST_CH = g ∧
      (irqStatus t).testBit Cat.bus = true ∧ (t.ch g).due.pause = 1 ∧ t.cget g CH_CTL_MODE = 0 ∧
      (t.ch g).lease.decision = 0 ∧ engState t g = engState s g := by
  have hlen : g < (budgetPause g (decided g s)).chans.length := by rw [(canonical_budgetPause g (canonical_decided hs)).chans]; exact hg
  obtain ⟨hst, hmap, hevt, hlast, hirq, hdue, hmode, hlease, heng⟩ := budgetPause_spec hg hlen
  rw [decide1_of_pause hdec hheld]
  exact ⟨hst, hmap, hevt, hlast, hirq, hdue, hmode, hlease ▸ decision_decided (by rw [hs.chans]; exact hg), heng⟩

theorem decide1_refusal_spec (hg : g < 64) (hdec : (s.ch g).lease.decision = 3) (hwait : engState s g = EngSt.wait)
    (hst : leaseSt s g = 2) : let t := decide1 g s
    engState t g = EngSt.queued ∧ mapBit BUS_QUEUE_MAP_0 BUS_QUEUE_MAP_1 g t = true ∧ t.pget BUS_STAT_QUEUE_EVT = 1 ∧ leaseSt t g = 2 := by
  obtain ⟨heng, hmap, hevt, hkept⟩ := budgetRefuse_spec (s := decided g s) hg hwait
  rw [decide1_of_refusal hdec hst]
  exact ⟨heng, hmap, hevt, hkept.trans hst⟩

theorem decide1_grant_spec (hg : g < 64) (hdec : (s.ch g).lease.decision = 1) (hst : leaseSt s g = 2) (hband : bandCause s g = 0)
    (hvdrv : (s.die (g / 8)).vdrvBad = false) (hwait : engState s g = EngSt.wait) (hovr : s.cget g CH_CTL_OVR = 0) : let t := decide1 g s
    leaseHeld t g = true ∧ engState t g = EngSt.running ∧ mapBit BUS_PAUSE_MAP_0 BUS_PAUSE_MAP_1 g t = false ∧
      mapBit BUS_QUEUE_MAP_0 BUS_QUEUE_MAP_1 g t = false := by
  rw [decide1_of_grant hdec hst]
  exact budgetGrant_spec (s := decided g s) hg hband hvdrv hwait hovr

end

/-! When a die's decisions are one channel's, and when they are none (R59, R257, R440). -/

section
variable {d g : Nat} {s : Device}

theorem decisionDue_of (hsilent : (s.die (g / 8)).link.upSilent = false) (hslot : (List.range 16).any (slotBegins s) = true)
    (hlate : (s.ch g).lease.late = false) (hdec : (s.ch g).lease.decision ≠ 0) : decisionDue s g = true := by
  simp [decisionDue, hsilent, hslot, hlate, hdec]

/-- The one channel with a decision takes it, after the window event that comes first. -/
theorem leaseDecision_of_due (hd : d < 8) (hup : (s.die d).up = true) (hslot : (List.range 16).any (slotBegins s) = true)
    (hsilent : (s.die d).link.upSilent = false) (hg : g / 8 = d)
    (hquiet : ∀ h, h < 64 → h / 8 = d → h ≠ g → (s.ch h).lease.decision = 0) (hlate : (s.ch g).lease.late = false)
    (hdec : (s.ch g).lease.decision ≠ 0) :
    leaseDecision d s = decide1 g (if acirComesFirst s g then acirEvent g s else s) := by
  subst hg
  rw [leaseDecision_of_one hd hup hslot rfl hquiet, decideAt_of_due (decisionDue_of hsilent hslot hlate hdec)]

theorem leaseDecision_of_late (h : ∀ g, g / 8 = d → (s.ch g).lease.late = true) : leaseDecision d s = s :=
  leaseDecision_of_not_due fun g hg => by simp [decisionDue, h g hg]

theorem leaseDecision_of_no_slot
    (h : (s.die d).up = false ∨ (List.range 16).any (slotBegins s) = false ∨ (s.die d).link.upSilent = true) : leaseDecision d s = s := by
  rcases h with hdown | hslot | hsilent
  · rw [leaseDecision_eq, hdown]
    rfl
  · exact leaseDecision_of_not_due fun g _ => by simp [decisionDue, hslot]
  · exact leaseDecision_of_not_due fun g hg => by simp [decisionDue, hg, hsilent]

end

/-! A LEASE cell of a channel (R246, R256). -/

/-- An upstream cell acts at once from the lead die's own channel, and goes on its way from another's. -/
theorem upCell_cases {e : Nat} {s : Device} (hlt : e < s.dies.length) (c : CellLoad) :
    (e = 0 → sentUp e 5 c s = cellAct 0 c s) ∧
      (e ≠ 0 → (∀ x ∈ (s.die e).link.upWait, x.seq ≠ (s.die e).link.upSeq) → let t := sentUp e 5 c s
        t = { s with dies := t.dies } ∧ (∀ e', e' ≠ e → t.die e' = s.die e') ∧ t.die e = (s.die e).waitsUp 5 c) :=
  ⟨fun h => if_pos h, fun h hfree => sentUp_spec h hlt hfree c⟩

section
variable {g : Ch} {on : Bool} {s : Device}

theorem cellLease_demand_of_arrives (late : Bool) (h : arrives s (g.val / 8) = true) :
    cellLease (.demand g) late s = sentUp (g.val / 8) 5 (leaseLoad s g.val) s := if_pos h

theorem cellLease_demand_of_lost (late : Bool) (h : arrives s (g.val / 8) = false) : cellLease (.demand g) late s = s :=
  if_neg (by simp [h])

theorem cellLease_reseat_of_wanted (late : Bool) (h : arrives s (g.val / 8) = true) (hw : WantsReseat s g.val on) :
    cellLease (.reseat g on) late s = sentUp (g.val / 8) 5 (.reseat g.val on) s := by
  classical exact reseatRequest_eq.trans (if_pos ⟨h, hw⟩)

theorem cellLease_reseat_of_not (late : Bool) (h : arrives s (g.val / 8) = false ∨ ¬ WantsReseat s g.val on) :
    cellLease (.reseat g on) late s = s := by
  classical
  refine reseatRequest_eq.trans (if_neg ?_)
  rintro ⟨ha, hw⟩
  exact h.elim (fun hlost => by simp [hlost] at ha) fun hn => hn hw

end

theorem cellLease_decision_of_reaches {d : Die} {s : Device} (late : Bool) (h : reaches s d.val = true) :
    cellLease (.decision d) late s = sentDown d.val 5 (.decision late) s := if_pos h

theorem cellLease_decision_of_lost {d : Die} {s : Device} (late : Bool) (h : reaches s d.val = false) :
    cellLease (.decision d) late s = s := if_neg (by simp [h])

/-- Settles O46: one channel's decision is the operation of its kind, whose frame keeps what it does not write; no other
channel of the die has one, and the cells are sent, lost, or act as their message says. -/
theorem decisionsTakeEffectAtTheSlot : Obligations.DecisionsTakeEffectAtTheSlot := by
  unfold Obligations.DecisionsTakeEffectAtTheSlot
  intro s d hs hd bit quiet slot
  have hdecision {P : Device → Prop} (h : P (leaseDecision d.val s.dev)) : Does (.leaseDecision d) s P :=
    does_die (exec_leaseDecision d s) hd h
  refine ⟨fun hup hslot hsilent => ⟨fun g hg hgd hq hlate hfirst => ?_, fun g hg hgd hq hlate hdec hfirst => ?_, fun hall => ?_⟩,
    fun h => hdecision (leaseDecision_of_no_slot h), fun g hg => hdecision (ch_leaseDecision d.isLt hg s.dev),
    fun g late hge => ?_, fun late => ⟨fun hr hfree => ?_, fun hr => ?_⟩, rfl, fun h => leaseLate_spec hs.canonical.chans h⟩
  · have hone (hdec : (s.dev.ch g).lease.decision ≠ 0) : leaseDecision d.val s.dev = decide1 g s.dev := by
      rw [leaseDecision_of_due d.isLt hup hslot hsilent hgd hq hlate hdec, hfirst]
      rfl
    refine ⟨fun hdec hheld => hdecision ?_, fun hdec hwait hst => hdecision ?_, fun hdec hst hband hvdrv hwait hovr => hdecision ?_⟩
    · rw [hone (by omega)]
      exact decide1_pause_spec hs.canonical hg hdec hheld
    · rw [hone (by omega)]
      exact decide1_refusal_spec hg hdec hwait hst
    · rw [hone (by omega)]
      exact decide1_grant_spec hg hdec hst hband (hgd ▸ hvdrv) hwait hovr
  · refine hdecision ?_
    rw [leaseDecision_of_due d.isLt hup hslot hsilent hgd hq hlate hdec, hfirst]
    rfl
  · exact hdecision (leaseDecision_of_late fun g hg => hall g (by omega) hg)
  · have hcell {m : LeaseMsg} (hm : leaseDie m = g.val / 8) {P : Device → Prop} (h : P (cellLease m late s.dev)) :
        Does (.cellLease m late) s P := does_die (exec_cellLease m late s) (hm ▸ hge) h
    have hlt : g.val / 8 < s.dev.dies.length := hs.canonical.dies.symm ▸ (by omega)
    refine ⟨fun dem held waiting => leaseTold_spec (hs.ch_lt g) dem held waiting, fun ha he => hcell rfl ?_,
      fun ha he hfree => hcell rfl ?_, fun ha => hcell rfl (cellLease_demand_of_lost late ha), fun on hcode => valveSeatReq_spec hcode,
      fun on ha hw he => hcell rfl ?_, fun on ha hw he hfree => hcell rfl ?_, fun on h => hcell rfl (cellLease_reseat_of_not late h)⟩
    · exact (cellLease_demand_of_arrives late ha).trans ((upCell_cases hlt _).1 he)
    · rw [cellLease_demand_of_arrives late ha]
      exact (upCell_cases hlt _).2 he hfree
    · exact (cellLease_reseat_of_wanted late ha hw).trans ((upCell_cases hlt _).1 he)
    · rw [cellLease_reseat_of_wanted late ha hw]
      exact (upCell_cases hlt _).2 he hfree
  · refine does_die (exec_cellLease _ late s) hd ?_
    rw [cellLease_decision_of_reaches late hr]
    exact sentDown_spec (hs.die_lt d) hfree _
  · exact does_die (exec_cellLease _ late s) hd (cellLease_decision_of_lost late hr)

end Sys2Proof.Machine
end

section
/-! Proofs of the family of the line angle: a fetch for the lead die brings LINE_CFG into force (O15). -/

namespace Sys2Proof.Machine

/-- A part of two dies in RUN whose line SYN_FORCE holds synthetic, where the host has cleared SYN_FORCE since (R45) and a fetch of
sections of the lead die waits for the NVM port (R38). -/
def synForceFetched : State :=
  let part : Device := { Device.reset with
    nDies := 2, dies := Device.reset.dies.map fun x => { x with up := true, husk := false, ctl := true, seeded := true } }
  let held := (part.pset PKG_STATE_STATE Pkg.run).setFrc 0x10 (LINE_CFG_SYN_FORCE.put 1 (regDefault 0x10))
  ⟨held.modNvm fun n => { n with queue := [.fetch 0] }, []⟩

/-- The state is sound, which the statement does not ask. -/
theorem synForceFetched_sound : Sound synForceFetched :=
  ⟨⟨by decide +kernel, by decide +kernel, by decide +kernel, ⟨by decide +kernel, by decide +kernel⟩,
    ⟨by decide +kernel, by decide +kernel⟩, rfl, by decide +kernel, by decide +kernel, by decide +kernel, by decide +kernel⟩,
    .inl rfl⟩

/-- The port takes the fetch at the boundary; it settles the lead die, whose written words come into force, LINE_CFG's among them. -/
theorem synForceFetched_boundary : (frameBoundary synForceFetched.dev).pfrc LINE_CFG_SYN_FORCE = 0 := by decide +kernel

/-- Refutes O15: the fetch of the lead die's sections that a frame boundary starts brings the cleared SYN_FORCE of LINE_CFG into
force, and no start comes between. -/
theorem not_synForceIgnoresLsync : ¬ Obligations.SynForceIgnoresLsync := by
  intro h
  obtain ⟨-, hsynthetic⟩ := h synForceFetched (by decide +kernel)
  obtain ⟨-, -, hboundary⟩ := hsynthetic (by decide +kernel)
  exact absurd (synForceFetched_boundary.symm.trans (of_does_dev hboundary rfl).2) (by decide)

end Sys2Proof.Machine
end

section
/-! Proofs of the family of the power stage: a bus overvoltage on the clock on which a protection stops a channel (O25). -/

namespace Sys2Proof.Machine

/-! BUS_OV shows on a channel that another cause stopped on the same clock (R92, R97). -/

/-- A part of two dies in RUN whose channel 0 switched with a discharge current until OCP stopped it on the present clock. -/
def stoppedWhileDischarging : State :=
  let part : Device := { Device.reset with
    nDies := 2, dies := Device.reset.dies.map fun x => { x with up := true, husk := false, ctl := true, seeded := true } }
  let discharging := (part.pset PKG_STATE_STATE Pkg.run).modLp 0 fun l => { l with gl := true, cmd := -65536, iM := -65536 }
  ⟨protTrip 0 0 discharging, []⟩

theorem stoppedWhileDischarging_sound : Sound stoppedWhileDischarging :=
  ⟨⟨by decide +kernel, by decide +kernel, by decide +kernel, ⟨by decide +kernel, by decide +kernel⟩,
    ⟨by decide +kernel, by decide +kernel⟩, by decide +kernel, by decide +kernel, by decide +kernel, by decide +kernel,
    by decide +kernel⟩, .inl (by decide +kernel)⟩

/-- Its gates are low, and nothing holds it for BUS_OV. -/
theorem stoppedWhileDischarging_lp : (stoppedWhileDischarging.dev.ch 0).lp.gl = false ∧
    (stoppedWhileDischarging.dev.ch 0).lp.busOvHeld = false := by decide +kernel

/-- BUS_OV of the same clock holds it, as the stop it would have made. -/
theorem busOv_stoppedWhileDischarging : ((busOv 0 stoppedWhileDischarging.dev).ch 0).lp.busOvHeld = true := by decide +kernel

theorem exec_busOv (d : Die) (s : State) : exec (.busOv d) s = onDie d.val s (busOv d.val) := rfl

/-- Refutes O25: BUS_OV shows on a channel whose gates are low already, where OCP stopped it on the same clock while it discharged
(R92, R97), so that a channel that does not switch does change. -/
theorem not_protectionsLatchAndStop : ¬ Obligations.ProtectionsLatchAndStop := by
  intro h
  obtain ⟨-, -, hbus, -⟩ := h.2 stoppedWhileDischarging ⟨0, by decide⟩ stoppedWhileDischarging_sound (by decide +kernel)
  obtain ⟨hlow, hfree⟩ := stoppedWhileDischarging_lp
  obtain ⟨-, hchans⟩ := of_does_die (hbus (by decide +kernel)) (exec_busOv _ _) (by decide +kernel)
  obtain ⟨-, hkept⟩ := hchans 0 (by decide)
  have hsame : (busOv 0 stoppedWhileDischarging.dev).ch 0 = stoppedWhileDischarging.dev.ch 0 := (hkept (.inr (.inl hlow))).1
  rw [← hsame, busOv_stoppedWhileDischarging] at hfree
  exact absurd hfree (by decide)

end Sys2Proof.Machine
end

section
/-! Proofs of the family of the power stage: what the events, the trace and the ACIR engine leave of a channel's stage (O26, O27, O32). -/

namespace Sys2Proof.Machine

/-! A channel's stage: its words below the ACIR engine's, which begin at offset 0x50 (R184), its loops, counts and constants, and
what its die gives them. -/

/-- The loops, the counts, the constants and the voltage word in hold of a channel. -/
def Chan.part (c : Chan) : Loop × Acc × Conv × Int := (c.lp, c.acc, c.conv, c.vw)

/-- What a channel takes from its die: whether it runs and counts, its tick counter, the level of VBUS and the bench's voltage
word in hold. -/
def DieSt.part (x : DieSt) : Bool × Bool × Nat × Bool × Int := (x.up, x.seeded, x.tick, x.busOvNow, x.bench.vw)

/-- A channel's stage. -/
structure Stage where
  word : Nat → Word
  force : Nat → Word
  chan : Loop × Acc × Conv × Int
  die : Bool × Bool × Nat × Bool × Int
  time : Nat × Nat

/-- The stage of a channel. -/
def stage (g : Nat) (s : Device) : Stage where
  word off := if off < 0x50 then s.reg (chAddr g off) else 0
  force off := if off < 0x50 then s.frc (chAddr g off) else 0
  chan := (s.ch g).part
  die := (s.die (g / 8)).part
  time := (s.frame, s.clk)

section
variable {g : Nat} {s t : Device}

theorem stage_of (hw : ∀ off, off < 0x50 → t.reg (chAddr g off) = s.reg (chAddr g off))
    (hf : ∀ off, off < 0x50 → t.frc (chAddr g off) = s.frc (chAddr g off)) (hc : (t.ch g).part = (s.ch g).part)
    (hd : (t.die (g / 8)).part = (s.die (g / 8)).part) (hframe : t.frame = s.frame)
    (hclk : t.clk = s.clk) : stage g t = stage g s := by
  have hword : (stage g t).word = (stage g s).word := funext fun off => ite_congr rfl (hw off) fun _ => rfl
  have hforce : (stage g t).force = (stage g s).force := funext fun off => ite_congr rfl (hf off) fun _ => rfl
  have htime : (stage g t).time = (stage g s).time := congrArg₂ Prod.mk hframe hclk
  exact (Stage.mk.injEq ..).mpr ⟨hword, hforce, hc, hd, htime⟩

theorem reg_of_stage (h : stage g t = stage g s) {off : Nat} (ho : off < 0x50) : t.reg (chAddr g off) = s.reg (chAddr g off) := by
  have hword := congrFun (congrArg Stage.word h) off
  simpa only [stage, if_pos ho] using hword

theorem cget_of_stage (h : stage g t = stage g s) (f : Fld .ch) (hf : f.off < 0x50) : t.cget g f = s.cget g f :=
  congrArg f.get (reg_of_stage h hf)

theorem frc_of_stage (h : stage g t = stage g s) {off : Nat} (ho : off < 0x50) : t.frc (chAddr g off) = s.frc (chAddr g off) := by
  have hword := congrFun (congrArg Stage.force h) off
  simpa only [stage, if_pos ho] using hword

theorem part_of_stage (h : stage g t = stage g s) : (t.ch g).part = (s.ch g).part := congrArg Stage.chan h
theorem lp_of_stage (h : stage g t = stage g s) : (t.ch g).lp = (s.ch g).lp := congrArg Prod.fst (part_of_stage h)
theorem acc_of_stage (h : stage g t = stage g s) : (t.ch g).acc = (s.ch g).acc := congrArg (·.2.1) (part_of_stage h)
theorem conv_of_stage (h : stage g t = stage g s) : (t.ch g).conv = (s.ch g).conv := congrArg (·.2.2.1) (part_of_stage h)
theorem diePart_of_stage (h : stage g t = stage g s) : (t.die (g / 8)).part = (s.die (g / 8)).part := congrArg Stage.die h

end

/-! Changes beside a channel's stage. -/

section
variable {g : Nat} (s : Device)

theorem stage_setReg {a : Nat} (ha : ∀ off, off < 0x50 → chAddr g off ≠ a) (w : Word) : stage g (s.setReg a w) = stage g s :=
  stage_of (fun off ho => Device.reg_setReg_ne s (ha off ho) w) (fun _ _ => rfl) rfl rfl rfl rfl

theorem stage_acirWord (h : Nat) (f : Fld .ch) (v : Nat) (hf : 0x50 ≤ f.off ∧ f.off < 0x80) :
    stage g (s.cset h f v) = stage g s := stage_setReg s (fun off ho => by unfold chAddr; omega) _

theorem stage_dset (d : Nat) (f : Fld .die) (v : Nat) (hd : d < 8) (hf : f.off < 0x200) : stage g (s.dset d f v) = stage g s :=
  stage_setReg s (fun off _ => by unfold chAddr dieAddr; omega) _

theorem stage_modCh (h : Nat) {f : Chan → Chan} (hf : ∀ c, (f c).part = c.part) : stage g (s.modCh h f) = stage g s :=
  stage_of (fun _ _ => rfl) (fun _ _ => rfl) (proj_ch_modCh Chan.part hf h g) rfl rfl rfl

theorem stage_modDie (d : Nat) {f : DieSt → DieSt} (hf : ∀ x, (f x).part = x.part) : stage g (s.modDie d f) = stage g s :=
  stage_of (fun _ _ => rfl) (fun _ _ => rfl) rfl (proj_die_modDie DieSt.part hf d (g / 8)) rfl rfl

@[simp] theorem stage_modEng (h : Nat) (f : Eng → Eng) : stage g (s.modEng h f) = stage g s := stage_modCh s h fun _ => rfl
@[simp] theorem stage_modDue (h : Nat) (f : Due → Due) : stage g (s.modDue h f) = stage g s := stage_modCh s h fun _ => rfl
@[simp] theorem stage_modAcir (h : Nat) (f : Acir → Acir) : stage g (s.modAcir h f) = stage g s := stage_modCh s h fun _ => rfl
@[simp] theorem stage_modPulse (n : Nat) (f : Pulse → Pulse) : stage g (modPulse n f s) = stage g s := (rfl)
@[simp] theorem stage_spend (n : Nat) : stage g (s.spend n) = stage g s := (rfl)
theorem stage_modBench (d : Nat) {f : Bench → Bench} (hf : ∀ b, (f b).vw = b.vw) : stage g (s.modBench d f) = stage g s :=
  stage_modDie s d fun x => by rw [DieSt.part, DieSt.part, hf]

theorem stage_each (ns : List Nat) {f : Nat → Device → Device} (hf : ∀ n ∈ ns, ∀ t, stage g (f n t) = stage g t) :
    stage g (s.each ns f) = stage g s :=
  each_keeps (I := fun t => stage g t = stage g s) ns rfl fun n hn t ht => (hf n hn t).trans ht

/-! Events and records (R250, R422, R442). -/

theorem stage_logEvent (cat d code obj data : Nat) : stage g (logEvent cat d code obj data s) = stage g s := by
  have hevent {u : Device} (h : EventOnly s u) : stage g u = stage g s := by
    have hword (off : Nat) : chAddr g off ∉ eventWords := fun hmem => by
      simp only [eventWords, chAddr, List.mem_cons, List.not_mem_nil, or_false] at hmem
      omega
    refine stage_of (fun off _ => h.2 _ (hword off)) (fun _ _ => ?_) ?_ ?_ ?_ ?_ <;> rw [h.1] <;> rfl
  unfold logEvent
  dsimp only
  split_ifs
  · exact hevent ((eventOnly_setIrq cat d obj s).trans (eventOnly_ledgerPut _ _))
  · rw [stage_modDie _ _ fun x => by split_ifs <;> rfl]
    exact hevent (eventOnly_setIrq cat d obj s)

variable {h : Nat}

theorem stage_traceWrite (hh : h < 64) (typ : Nat) (body : List Byte) : stage g (traceWrite typ h body s) = stage g s := by
  have hword (t : Device) (f : Fld .die) (v : Nat) (hf : f.off < 0x200) : stage g (t.dset (h / 8) f v) = stage g t :=
    stage_dset t _ f v (by omega) hf
  have hdie (t : Device) {f : DieSt → DieSt} (hf : ∀ x, (f x).part = x.part) : stage g (t.modDie (h / 8) f) = stage g t :=
    stage_modDie t _ hf
  unfold traceWrite
  dsimp only
  split_ifs
  · rfl
  · rw [hword _ _ _ (by decide), Device.dinc, hword _ _ _ (by decide), hdie]
    exact fun _ => rfl
  · rw [hword _ _ _ (by decide), hword _ _ _ (by decide), hdie, hdie] <;> exact fun _ => rfl

/-! The ACIR engine (R166, R170, R180, R182, R247). -/

theorem stage_acirStepFails (hh : h < 64) (code : Nat) : stage g (acirStepFails code h s) = stage g s := by
  rw [acirStepFails, stage_modEng, acirRecord, stage_traceWrite s hh]

theorem stage_acirStepAborted (hh : h < 64) (code : Nat) : stage g (acirStepAborted code h s) = stage g s := by
  unfold acirStepAborted
  split_ifs
  · exact stage_modEng s h _
  · exact stage_acirStepFails s hh code
  · exact stage_modEng s h _

theorem stage_acirIdle : stage g (acirIdle h s) = stage g s := by
  rw [acirIdle, stage_acirWord _ _ _ _ (by decide), stage_modAcir]

theorem stage_acirAbort (hh : h < 64) (code : Nat) : stage g (acirAbort code h s) = stage g s := by
  have hword (t : Device) (f : Fld .ch) (v : Nat) (hf : 0x50 ≤ f.off ∧ f.off < 0x80) : stage g (t.cset h f v) = stage g t :=
    stage_acirWord t h f v hf
  unfold acirAbort
  dsimp only
  simp (disch := decide) only [apply_ite (stage g), stage_acirStepAborted _ hh, stage_acirIdle, hword, stage_modAcir, ite_self]

theorem stage_acirStopped (hh : h < 64) : stage g (acirStopped h s) = stage g s := by
  unfold acirStopped
  dsimp only
  rw [apply_ite (stage g), stage_acirIdle, ite_self, stage_acirAbort s hh]

@[simp] theorem stage_acirClip : stage g (acirClip h s) = stage g s := by
  unfold acirClip
  rw [apply_ite (stage g), stage_modAcir, ite_self]

@[simp] theorem stage_acirSample : stage g (acirSample h s) = stage g s := by
  unfold acirSample
  dsimp only
  simp only [apply_ite (stage g), stage_modAcir, ite_self]

@[simp] theorem stage_acirClock : stage g (acirClock h s) = stage g s := by
  unfold acirClock
  dsimp only
  rw [apply_ite (stage g), stage_modAcir, ite_self]

theorem stage_benchAbort {d : Nat} (hd : d < 8) : stage g (benchAbort d s) = stage g s := by
  have hword (t : Device) (f : Fld .die) (v : Nat) (hf : f.off < 0x200) : stage g (t.dset d f v) = stage g t := stage_dset t d f v hd hf
  have hbench (t : Device) (f : Bench → Bench) (hf : ∀ b, (f b).vw = b.vw) : stage g (t.modBench d f) = stage g t := stage_modBench t d hf
  unfold benchAbort
  dsimp only
  split_ifs
  · rfl
  all_goals
    rw [hbench, hword _ _ _ (by decide), hword _ _ _ (by decide), setPhase, hword _ _ _ (by decide)]
    exact fun _ => rfl

theorem stage_acirRefuse (hh : h < 64) (code : Nat) (p : AcirPar) : stage g (acirRefuse code p h s) = stage g s := by
  unfold acirRefuse
  dsimp only
  rw [apply_ite (stage g), stage_acirStepFails _ hh, ite_self, stage_acirWord _ _ _ _ (by decide), stage_acirWord _ _ _ _ (by decide)]

theorem stage_acirRequest (hh : h < 64) (p : AcirPar) : stage g (acirRequest p h s) = stage g s := by
  have hword (t : Device) (f : Fld .ch) (v : Nat) (hf : 0x50 ≤ f.off ∧ f.off < 0x80) : stage g (t.cset h f v) = stage g t :=
    stage_acirWord t h f v hf
  have hbench (t : Device) : stage g (benchAbort (h / 8) t) = stage g t := stage_benchAbort t (by omega)
  unfold acirRequest
  dsimp only
  simp (disch := decide) only [apply_ite (stage g), stage_acirRefuse _ hh, hbench, hword, stage_modAcir, ite_self]

theorem stage_acirNextDue (hh : h < 64) : stage g (acirNextDue h s) = stage g s := by
  unfold acirNextDue
  split
  · rfl
  · dsimp only
    split_ifs
    · rfl
    · split
      · rw [stage_acirRequest _ hh, stage_modEng]
      · exact stage_modEng s h _

end

end Sys2Proof.Machine
end

section
/-! Proofs of the family of the power stage: every clock is counted once, and booking conserves the count (O32). -/

namespace Sys2Proof.Machine

/-! A fold over distinct numbers in which one operation alone touches what is looked at. -/

/-- What one operation of a fold over distinct numbers brings about, where those before it keep what it asks for and those after it keep
what it has done. -/
theorem each_once {I R : Device → Prop} {f : Nat → Device → Device} {k : Nat} {ns : List Nat} (hnodup : ns.Nodup) (hk : k ∈ ns)
    {s : Device} (hs : I s) (hbefore : ∀ n ∈ ns, n ≠ k → ∀ t, I t → I (f n t)) (hown : ∀ t, I t → R (f k t))
    (hafter : ∀ n ∈ ns, n ≠ k → ∀ t, R t → R (f n t)) : R (s.each ns f) := by
  obtain ⟨before, after, rfl⟩ := List.append_of_mem hk
  obtain ⟨-, hcons, hdisjoint⟩ := List.nodup_append.mp hnodup
  have hmiddle : I (s.each before f) := each_keeps before hs fun n hn => hbefore n (by simp [hn]) (hdisjoint n hn k (by simp))
  have hlast : R ((f k (s.each before f)).each after f) :=
    each_keeps after (hown _ hmiddle) fun n hn => hafter n (by simp [hn]) fun e => (List.nodup_cons.mp hcons).1 (e ▸ hn)
  rw [Device.each, List.foldl_append]
  exact hlast

/-- What the operation of one number makes of a view that the others leave alone, the fold makes of it. -/
theorem each_view {V : Type} (view : Device → V) {I : Device → Prop} {f : Nat → Device → Device} {k : Nat} {v : V} {ns : List Nat}
    (hnodup : ns.Nodup) (hk : k ∈ ns) {s : Device} (hs : I s) (hf : ∀ n ∈ ns, ∀ t, I t → I (f n t))
    (hother : ∀ n ∈ ns, n ≠ k → ∀ t, view (f n t) = view t) (hown : ∀ t, I t → view t = view s → view (f k t) = v) :
    view (s.each ns f) = v :=
  each_once (I := fun t => I t ∧ view t = view s) (R := fun t => view t = v) hnodup hk ⟨hs, rfl⟩
    (fun n hn hne t ht => ⟨hf n hn t ht.1, (hother n hn hne t).trans ht.2⟩) (fun t ht => hown t ht.1 ht.2)
    fun n hn hne t ht => (hother n hn hne t).trans ht

theorem nodup_chansOf (d : Nat) : (chansOf d).Nodup :=
  List.nodup_range.map fun a b h => by simpa using h

/-! What a channel counts with (R108, R121, R131). -/

section
variable {g : Nat} {s t : Device}

theorem carried_of_stage (h : stage g t = stage g s) : carried t g = carried s g := by
  unfold carried Device.cbit
  rw [cget_of_stage h _ (by decide)]

theorem ofsI_of_stage (h : stage g t = stage g s) : ofsI t g = ofsI s g := by
  unfold ofsI chLow Device.cbit
  rw [conv_of_stage h, cget_of_stage h _ (by decide), frc_of_stage h (by decide)]

theorem vHold_of_stage (h : stage g t = stage g s) : vHold t g = vHold s g := by
  have hbench : (t.die (g / 8)).bench.vw = (s.die (g / 8)).bench.vw := congrArg (·.2.2.2.2) (diePart_of_stage h)
  have hown : (t.ch g).vw = (s.ch g).vw := congrArg (·.2.2.2) (part_of_stage h)
  rw [vHold, vHold, carried_of_stage h, hbench, hown]

theorem carrierLevel_of_stage (h : stage g t = stage g s) (inp : ClockIn) : carrierLevel t inp g = carrierLevel s inp g := by
  rw [carrierLevel, carrierLevel, carried_of_stage h]

end

/-- A channel's counts once its accumulation has taken a clock (R131). -/
def countedAcc (inp : ClockIn) (g : Nat) (s : Device) : Acc :=
  if (s.die (g / 8)).seeded then (s.ch g).acc.clock (ofsI s g) (carrierLevel s inp g) (vHold s g) else (s.ch g).acc

theorem countedAcc_of_stage {g : Nat} {s t : Device} (h : stage g t = stage g s) (inp : ClockIn) :
    countedAcc inp g t = countedAcc inp g s := by
  have hseeded : (t.die (g / 8)).seeded = (s.die (g / 8)).seeded := congrArg (·.2.1) (diePart_of_stage h)
  rw [countedAcc, countedAcc, hseeded, acc_of_stage h, ofsI_of_stage h, carrierLevel_of_stage h, vHold_of_stage h]

/-- A stage with other counts. -/
def Stage.setAcc (a : Acc) (S : Stage) : Stage := { S with chan := (S.chan.1, a, S.chan.2.2) }
/-- A stage once its die's tick counter has counted a clock (R72). -/
def Stage.ticked (S : Stage) : Stage := { S with die := (S.die.1, S.die.2.1, S.die.2.2.1 + 8, S.die.2.2.2) }

/-! The operations of a clock (R131, R208, R247). -/

section
variable {g h : Nat} (s : Device)

theorem stage_modAcc (hg : g < s.chans.length) (f : Acc → Acc) :
    stage g (s.modAcc g f) = (stage g s).setAcc (f (s.ch g).acc) := by
  unfold stage Stage.setAcc
  rw [Device.modAcc, Device.ch_modCh_self _ hg]
  rfl

theorem stage_modAcc_ne (hne : g ≠ h) (f : Acc → Acc) : stage g (s.modAcc h f) = stage g s :=
  stage_of (fun _ _ => rfl) (fun _ _ => rfl) (by rw [Device.modAcc, Device.ch_modCh_ne _ hne]) rfl rfl rfl

@[simp] theorem stage_pulseClock (c e : Int) : stage g (pulseClock h c e s) = stage g s :=
  stage_each s _ fun n _ t => by rw [apply_ite (stage g), pathClock, stage_modPulse, ite_self]

theorem chans_pulseClock (c e : Int) : (pulseClock h c e s).chans = s.chans :=
  each_keeps (I := fun t => t.chans = s.chans) _ rfl fun n _ t ht => by rw [apply_ite Device.chans]; simpa [pathClock, modPulse] using ht

theorem stage_countClock (inp : ClockIn) (hg : g < s.chans.length) :
    stage g (countClock inp g s) = (stage g s).setAcc ((s.ch g).acc.clock (ofsI s g) (carrierLevel s inp g) (vHold s g)) := by
  unfold countClock
  dsimp only
  rw [stage_modAcc _ (by rwa [chans_pulseClock]), stage_pulseClock]

theorem stage_countClock_ne (inp : ClockIn) (hne : g ≠ h) : stage g (countClock inp h s) = stage g s := by
  unfold countClock
  dsimp only
  rw [stage_modAcc_ne _ hne, stage_pulseClock]

/-- After the count, a channel's clock leaves the stages. -/
theorem stage_chanClock_eq (inp : ClockIn) (last : Bool) (hh : h < 64) : stage g (chanClock inp last h s) =
    stage g (if (s.die (h / 8)).seeded then countClock inp h s else s) := by
  unfold chanClock
  dsimp only
  rw [stage_acirNextDue _ hh, stage_acirClock, stage_modCh]
  exact fun _ => rfl

theorem stage_chanClock (inp : ClockIn) (last : Bool) (h64 : g < 64) (hg : g < s.chans.length) :
    stage g (chanClock inp last g s) = (stage g s).setAcc (countedAcc inp g s) := by
  rw [stage_chanClock_eq s inp last h64, countedAcc]
  split_ifs
  · exact stage_countClock s inp hg
  · rfl

theorem stage_chanClock_ne (inp : ClockIn) (last : Bool) (hh : h < 64) (hne : g ≠ h) : stage g (chanClock inp last h s) = stage g s := by
  rw [stage_chanClock_eq s inp last hh, apply_ite (stage g), stage_countClock_ne _ _ hne, ite_self]

theorem stage_benchClock (inp : ClockIn) (last : Bool) (d : Nat) : stage g (benchClock inp last d s) = stage g s := by
  have hbench (t : Device) (f : Bench → Bench) (hf : ∀ b, (f b).vw = b.vw) : stage g (t.modBench d f) = stage g t := stage_modBench t d hf
  unfold benchClock
  dsimp only
  split_ifs
  all_goals
    repeat rw [hbench]
    all_goals exact fun _ => rfl

theorem stage_winMark (d : Nat) : stage g (winMark d s) = stage g s := stage_modDie s d fun _ => rfl

theorem stage_dieClock (hlt : g / 8 < s.dies.length) : stage g (dieClock (g / 8) s) = (stage g s).ticked := by
  unfold stage Stage.ticked
  rw [dieClock, Device.die_modDie_self _ hlt]
  rfl

theorem stage_dieClock_ne {d : Nat} (hd : g / 8 ≠ d) : stage g (dieClock d s) = stage g s :=
  stage_of (fun _ _ => rfl) (fun _ _ => rfl) rfl (by rw [dieClock, Device.die_modDie_ne _ hd]) rfl rfl

end

/-! A clock of the dies. -/

/-- A channel's stage once its die has taken a clock (R72, R131). -/
def clockedStage (inp : ClockIn) (g : Nat) (s : Device) : Stage :=
  if (s.die (g / 8)).up then ((stage g s).setAcc (countedAcc inp g s)).ticked else stage g s

section
variable {g n : Nat} {s : Device}

/-- The channels of a die take a clock: a channel counts at its own. -/
theorem stage_chanClocks (inp : ClockIn) (last : Bool) (hs : s.Canonical n) (hg : g < 64) :
    stage g (s.each (chansOf (g / 8)) (chanClock inp last)) = (stage g s).setAcc (countedAcc inp g s) := by
  refine each_view (stage g) (I := fun t => t.Canonical n) (nodup_chansOf _) (mem_chansOf.mpr rfl) hs
    (fun h _ t ht => canonical_chanClock inp last h ht)
    (fun h hh hne t => stage_chanClock_ne t inp last (by have := mem_chansOf.mp hh; omega) hne.symm) fun t ht hst => ?_
  rw [stage_chanClock t inp last hg (by rw [ht.chans]; exact hg), hst, countedAcc_of_stage hst]

theorem stage_dieStep (inp : ClockIn) (last : Bool) (hs : s.Canonical n) (hg : g < 64) :
    stage g (dieStep inp last (g / 8) s) = clockedStage inp g s := by
  have hmark : stage g (if last then winMark (g / 8) s else s) = stage g s := by
    rw [apply_ite (stage g), stage_winMark, ite_self]
  have hcanon : (if last then winMark (g / 8) s else s).Canonical n :=
    Device.canonical_ite (fun _ => canonical_winMark _ hs) fun _ => hs
  unfold dieStep clockedStage
  by_cases hup : (s.die (g / 8)).up = true
  · rw [if_pos hup, if_pos hup]
    dsimp only
    generalize (if last = true then winMark (g / 8) s else s) = u at hmark hcanon ⊢
    have hlen : (benchClock inp last (g / 8) (u.each (chansOf (g / 8)) (chanClock inp last))).dies.length = 8 :=
      (canonical_benchClock inp last _ (Device.canonical_each _ hcanon fun h _ => canonical_chanClock inp last h)).dies
    rw [stage_dieClock _ (by rw [hlen]; omega), stage_benchClock, stage_chanClocks inp last hcanon hg, hmark, countedAcc_of_stage hmark]
  · rw [if_neg hup, if_neg hup]

theorem stage_dieStep_ne (inp : ClockIn) (last : Bool) {d : Nat} (hd8 : d < 8) (hd : g / 8 ≠ d) (s : Device) :
    stage g (dieStep inp last d s) = stage g s := by
  have hchans (t : Device) : stage g (t.each (chansOf d) (chanClock inp last)) = stage g t :=
    stage_each t _ fun h hh u => by
      have := mem_chansOf.mp hh
      exact stage_chanClock_ne u inp last (by omega) (by rintro rfl; exact hd this)
  unfold dieStep
  dsimp only
  split_ifs
  · rw [stage_dieClock_ne _ hd, stage_benchClock, hchans, stage_winMark]
  · rw [stage_dieClock_ne _ hd, stage_benchClock, hchans]
  · rfl

/-- The dies of the part take a clock. -/
theorem stage_dieSteps (inp : ClockIn) (last : Bool) (hs : s.Canonical n) (h8 : s.nDies ≤ 8) (hg : g / 8 < s.nDies) :
    stage g (s.each s.dieList (dieStep inp last)) = clockedStage inp g s := by
  refine each_view (stage g) (I := fun t => t.Canonical n) List.nodup_range (List.mem_range.mpr hg) hs
    (fun d _ t ht => canonical_dieStep inp last d ht)
    (fun d hd hne t => stage_dieStep_ne inp last (by have := List.mem_range.mp hd; omega) hne.symm t) fun t ht hst => ?_
  have hup : (t.die (g / 8)).up = (s.die (g / 8)).up := congrArg Prod.fst (diePart_of_stage hst)
  rw [stage_dieStep inp last ht (by omega), clockedStage, clockedStage, hup, hst, countedAcc_of_stage hst]

theorem lineClock_chans (s : Device) : (lineClock s).chans = s.chans := by
  rw [lineClock, apply_ite Device.chans, Device.setReg_chans, ite_self, Device.modLine_chans]

/-- What follows the dies' clocks moves neither a channel nor a die. -/
theorem parts_accumulateClock (inp : ClockIn) (s : Device) :
    let t := s.each s.dieList (dieStep inp (decide (s.clk % 16 = 15)))
    (accumulateClock inp s).chans = t.chans ∧ (accumulateClock inp s).dies = t.dies := by
  have hline (t : Device) : (if (t.die 0).up then lineClock t else t).chans = t.chans := by
    rw [apply_ite Device.chans, lineClock_chans, ite_self]
  have hlineDies (t : Device) : (if (t.die 0).up then lineClock t else t).dies = t.dies := by
    rw [apply_ite Device.dies, lineClock_dies, ite_self]
  have hlock (t : Device) : (if (t.die 0).up then lockClock t else t).chans = t.chans := by
    rw [apply_ite Device.chans, lockClock, apply_ite Device.chans, Device.modSup_chans, ite_self, ite_self]
  have hlockDies (t : Device) : (if (t.die 0).up then lockClock t else t).dies = t.dies := by
    rw [apply_ite Device.dies, lockClock, apply_ite Device.dies, Device.modSup_dies, ite_self, ite_self]
  exact ⟨(hlock _).trans (hline _), (hlockDies _).trans (hlineDies _)⟩

/-- A channel's counts and its die's tick counter after a clock. -/
theorem accumulateClock_counts (inp : ClockIn) (hs : s.Canonical n) (h8 : s.nDies ≤ 8) (hg : g / 8 < s.nDies) :
    ((accumulateClock inp s).ch g).acc = (if (s.die (g / 8)).up then countedAcc inp g s else (s.ch g).acc) ∧
    ((accumulateClock inp s).die (g / 8)).tick = (s.die (g / 8)).tick + if (s.die (g / 8)).up then 8 else 0 := by
  obtain ⟨hchans, hdies⟩ := parts_accumulateClock inp s
  have hstage := stage_dieSteps inp (decide (s.clk % 16 = 15)) hs h8 hg
  have hacc : ((accumulateClock inp s).ch g).acc = (clockedStage inp g s).chan.2.1 := by
    rw [Device.ch, hchans, ← hstage]
    rfl
  have htick : ((accumulateClock inp s).die (g / 8)).tick = (clockedStage inp g s).die.2.2.1 := by
    rw [Device.die, hdies, ← hstage]
    rfl
  rw [hacc, htick, clockedStage]
  split_ifs <;> exact ⟨rfl, rfl⟩

end

/-! The fractional carry (R131). -/

/-- The offset enters through the carry whole: no count is lost between the residue and the counts. -/
theorem Acc.clock_spec (ofs level vhold : Int) (a : Acc) : let b := a.clock ofs level vhold
    let c := b.fq - a.fq
    (b.frac : Int) + 2 ^ 24 * (level - c) = a.frac + ofs ∧ b.frac < 2 ^ 24 ∧ b.fe = a.fe + vhold * c ∧
      b = { a with frac := b.frac, fq := b.fq, fe := b.fe } := by
  have hc : (a.clock ofs level vhold).fq - a.fq = level - ((a.frac : Int) + ofs) / 2 ^ 24 := by
    simp [Acc.clock, carryOf]
  have hfrac : (a.clock ofs level vhold).frac = (((a.frac : Int) + ofs) % 2 ^ 24).toNat := rfl
  have hfe : (a.clock ofs level vhold).fe = a.fe + vhold * ((a.clock ofs level vhold).fq - a.fq) := by
    simp [Acc.clock, carryOf]
  have hsum : ((a.clock ofs level vhold).frac : Int) + 2 ^ 24 * (level - ((a.clock ofs level vhold).fq - a.fq)) = a.frac + ofs := by
    rw [hc, hfrac]
    omega
  exact ⟨hsum, by rw [hfrac]; omega, hfe, rfl⟩

/-! Booking (R134, R136). -/

/-- b books n counts and the energy e on top of what a has: the differences of IN and OUT move by them, those of the raw registers
modulo their widths, and the carry, the banks and the published values stay. -/
structure Acc.Books (n e : Int) (a b : Acc) : Prop where
  charge : b.epqIn - b.epqOut = a.epqIn - a.epqOut + n
  energy : b.epeIn - b.epeOut = a.epeIn - a.epeOut + e
  rawCharge : ((b.rawqIn : Int) - b.rawqOut - (a.rawqIn - a.rawqOut + n)) % 2 ^ 64 = 0
  rawEnergy : (b.raweIn - b.raweOut - (a.raweIn - a.raweOut + e)) % 2 ^ 96 = 0
  frac : b.frac = a.frac
  bqNet : b.bqNet = a.bqNet
  calqNet : b.calqNet = a.calqNet

theorem wrapSigned_emod (x : Int) : wrapSigned 96 x % 2 ^ 96 = x % 2 ^ 96 := by
  unfold wrapSigned signedOf fieldOf
  split_ifs <;> omega

theorem Acc.books_put (d : Dir) (n e : Int) (a : Acc) : a.Books n e (a.put d n e) := by
  cases d
  case out =>
    have he := wrapSigned_emod (a.raweOut - e)
    constructor <;> simp only [Acc.put] <;> omega
  all_goals
    have he := wrapSigned_emod (a.raweIn + e)
    constructor <;> simp only [Acc.put] <;> omega

theorem Acc.Books.trans {n e m f : Int} {a b c : Acc} (hab : a.Books n e b) (hbc : b.Books m f c) : a.Books (n + m) (e + f) c := by
  have h1 := hab.rawCharge
  have h2 := hbc.rawCharge
  have h3 := hab.rawEnergy
  have h4 := hbc.rawEnergy
  exact ⟨by rw [hbc.charge, hab.charge]; ring, by rw [hbc.energy, hab.energy]; ring, by omega, by omega,
    hbc.frac.trans hab.frac, hbc.bqNet.trans hab.bqNet, hbc.calqNet.trans hab.calqNet⟩

/-- Of the direction, the chaff and the frame sums the books say nothing. -/
theorem Acc.Books.aside {n e : Int} {a b : Acc} (h : a.Books n e b) (d : Dir) (cq ce fq fe : Int) :
    a.Books n e { b with dir := d, cq := cq, ce := ce, fq := fq, fe := fe } :=
  ⟨h.charge, h.energy, h.rawCharge, h.rawEnergy, h.frac, h.bqNet, h.calqNet⟩

section
variable (free h : Nat) (a : Acc)

theorem Acc.book_strong (hh : h ≤ a.fq.natAbs) : a.book free h =
    { a.put (Dir.ofSign a.fq) a.fq a.fe with dir := Dir.ofSign a.fq, cq := 0, ce := 0, fq := 0, fe := 0 } := by
  rw [Acc.book, if_pos hh]

theorem Acc.book_first (hh : a.fq.natAbs < h) (hdir : a.dir = .none) : a.book free h =
    { a.put (Dir.ofSign a.fq) a.fq a.fe with fq := 0, fe := 0 } := by
  rw [Acc.book, if_neg (by omega), if_pos hdir]

/-- What a transfer takes back from the held direction and books to the other (R134). -/
def Acc.transferred (q e : Int) (p : Acc) (d : Dir) : Acc := (p.put d (-q) (-e)).put d.other q e

theorem Acc.books_transferred (q e : Int) (p : Acc) (d : Dir) : p.Books 0 0 (p.transferred q e d) := by
  have h := (books_put d (-q) (-e) p).trans (books_put d.other q e _)
  rwa [Int.add_comm (-q), Int.add_comm (-e), Int.add_right_neg, Int.add_right_neg] at h

theorem Acc.book_transfer (hh : a.fq.natAbs < h) (hdir : a.dir ≠ .none) (hx : (chaffAfter free a).1 ≤ -(h : Int)) : a.book free h =
    { (a.put a.dir a.fq a.fe).transferred (if a.dir = .inn then (chaffAfter free a).1 else -(chaffAfter free a).1)
        (if a.dir = .inn then (chaffAfter free a).2 else -(chaffAfter free a).2) a.dir with
      dir := a.dir.other, cq := 0, ce := 0, fq := 0, fe := 0 } := by
  rw [Acc.book, if_neg (by omega), if_neg hdir]
  dsimp only
  rw [if_pos hx]
  rfl

theorem Acc.book_chaff (hh : a.fq.natAbs < h) (hdir : a.dir ≠ .none) (hx : ¬ (chaffAfter free a).1 ≤ -(h : Int)) : a.book free h =
    { a.put a.dir a.fq a.fe with cq := (chaffAfter free a).1, ce := (chaffAfter free a).2, fq := 0, fe := 0 } := by
  rw [Acc.book, if_neg (by omega), if_neg hdir]
  dsimp only
  rw [if_neg hx]

theorem Acc.put_frame (d : Dir) (n e : Int) : (a.put d n e).dir = a.dir ∧ (a.put d n e).cq = a.cq ∧ (a.put d n e).ce = a.ce := by
  cases d <;> exact ⟨rfl, rfl, rfl⟩

/-- Whatever booking decides, it books the frame, once. -/
theorem Acc.books_book : a.Books a.fq a.fe (a.book free h) := by
  by_cases hh : h ≤ a.fq.natAbs
  · rw [book_strong free h a hh]
    exact (books_put _ a.fq a.fe a).aside _ _ _ _ _
  · by_cases hdir : a.dir = .none
    · rw [book_first free h a (by omega) hdir]
      exact (books_put _ a.fq a.fe a).aside _ _ _ _ _
    · by_cases hx : (chaffAfter free a).1 ≤ -(h : Int)
      · rw [book_transfer free h a (by omega) hdir hx]
        have htwo := (books_put a.dir a.fq a.fe a).trans (books_transferred
          (if a.dir = .inn then (chaffAfter free a).1 else -(chaffAfter free a).1)
          (if a.dir = .inn then (chaffAfter free a).2 else -(chaffAfter free a).2) (a.put a.dir a.fq a.fe) a.dir)
        rw [Int.add_zero, Int.add_zero] at htwo
        exact htwo.aside _ _ _ _ _
      · rw [book_chaff free h a (by omega) hdir hx]
        exact (books_put _ a.fq a.fe a).aside _ _ _ _ _

/-- The direction and the chaff after a booking (R134). -/
theorem Acc.book_winnow : let b := a.book free h
    (h ≤ a.fq.natAbs → b.dir = (if 0 ≤ a.fq then Dir.inn else Dir.out) ∧ b.cq = 0 ∧ b.ce = 0) ∧
    (a.fq.natAbs < h → a.dir ≠ .none → -(h : Int) < b.cq ∧ (b.dir = a.dir ∨ b.cq = 0 ∧ b.ce = 0)) ∧
    (a.dir = .none → (b.cq = 0 ∧ b.ce = 0 ∨ b.cq = a.cq ∧ b.ce = a.ce)) := by
  refine ⟨fun hh => ?_, fun hh hdir => ?_, fun hdir => ?_⟩
  · rw [book_strong free h a hh]
    exact ⟨rfl, rfl, rfl⟩
  · by_cases hx : (chaffAfter free a).1 ≤ -(h : Int)
    · rw [book_transfer free h a hh hdir hx]
      exact ⟨by dsimp only; omega, .inr ⟨rfl, rfl⟩⟩
    · rw [book_chaff free h a hh hdir hx]
      exact ⟨by dsimp only; omega, .inl (put_frame a _ _ _).1⟩
  · by_cases hh : h ≤ a.fq.natAbs
    · rw [book_strong free h a hh]
      exact .inl ⟨rfl, rfl⟩
    · rw [book_first free h a (by omega) hdir]
      exact .inr (put_frame a _ _ _).2

end

/-- Settles O32: a channel counts at its own clock alone, whatever the clocks of the others do beside it; each way of booking books
the frame once. -/
theorem everyClockIsCountedOnce : Obligations.EveryClockIsCountedOnce := by
  unfold Obligations.EveryClockIsCountedOnce
  refine ⟨fun s inp hs => does_dev (exec_accumulateClock inp s) ?_, fun a free h => ?_⟩
  · have h8 := hs.dies_le
    obtain ⟨hframe, hclk⟩ := atClock_accumulateClock inp (s := s.dev) ⟨rfl, rfl⟩
    have hcounts {g : Nat} (hg : g / 8 < s.dev.nDies) := accumulateClock_counts inp hs.canonical h8 hg
    refine ⟨hclk, hframe, fun d hd => ?_, fun g hg => ⟨fun hup hseeded => ?_, fun hoff => ?_⟩⟩
    · have htick := (hcounts (g := 8 * d) (by omega)).2
      rwa [Nat.mul_div_cancel_left d (by decide)] at htick
    · rw [(hcounts hg).1, if_pos hup, countedAcc, if_pos hseeded]
      exact Acc.clock_spec _ _ _ _
    · rw [(hcounts hg).1, countedAcc]
      rcases hoff with hoff | hoff <;> simp [hoff]
  · obtain ⟨hstrong, hweak, hfirst⟩ := Acc.book_winnow free h a
    have hbooks := Acc.books_book free h a
    exact ⟨hbooks.charge, hbooks.energy, hbooks.rawCharge, hbooks.rawEnergy, rfl, rfl, hstrong, hweak, hfirst,
      hbooks.frac, hbooks.bqNet, hbooks.calqNet⟩

end Sys2Proof.Machine
end

section
/-! Proofs of the family of the power stage: the host's setpoints, ranges and PWM words, and its override (O27). -/

namespace Sys2Proof.Machine

/-! The words of a channel's stage, from one state to another. -/

/-- The words of the channel below the ACIR engine's read the same. -/
def ChWords (g : Nat) (s t : Device) : Prop := ∀ off, off < 0x50 → t.reg (chAddr g off) = s.reg (chAddr g off)

section
variable {g : Nat} {s t u : Device}

theorem chWords_of_stage (h : stage g t = stage g s) : ChWords g s t := fun _ ho => reg_of_stage h ho

theorem ChWords.trans (hst : ChWords g s t) (htu : ChWords g t u) : ChWords g s u := fun off ho => (htu off ho).trans (hst off ho)

theorem ChWords.setReg (h : ChWords g s t) (a : Nat) (w : Word) : ChWords g (s.setReg a w) (t.setReg a w) := fun off ho => by
  by_cases ha : chAddr g off = a
  · rw [ha, Device.reg_setReg_self, Device.reg_setReg_self]
  · rw [Device.reg_setReg_ne _ ha, Device.reg_setReg_ne _ ha, h off ho]

theorem ChWords.cset (h : ChWords g s t) (f : Fld .ch) (v : Nat) (hf : f.off < 0x50) : ChWords g (s.cset g f v) (t.cset g f v) := by
  unfold Device.cset
  rw [h f.off hf]
  exact h.setReg _ _

theorem ChWords.cget (h : ChWords g s t) (f : Fld .ch) (hf : f.off < 0x50) : t.cget g f = s.cget g f := congrArg f.get (h f.off hf)

theorem reg_cset_ne {f : Fld .ch} {off : Nat} (h : off ≠ f.off) (v : Nat) (s : Device) :
    (s.cset g f v).reg (chAddr g off) = s.reg (chAddr g off) := Device.reg_setReg_ne s (by unfold chAddr; omega) _

/-- A mode brought into force writes MODE (R82). -/
theorem chWords_setMode (hg : g < 64) (m : Nat) : ChWords g (s.cset g CH_CTL_MODE m) (setMode m g s) := by
  have habort (c : Prop) [Decidable c] :
      ChWords g s (if c then s else (acirAbort 2 g s).modLp g fun l => { l with pTrim := 0 }) := by
    split_ifs
    · exact fun _ _ => rfl
    · exact fun off ho => reg_of_stage (stage_acirAbort s hg 2) ho
  have hrest (t : Device) (c : Prop) [Decidable c] (f k : Loop → Loop) : ChWords g t (if c then t.modLp g f else t.modLp g k) := by
    split_ifs <;> exact fun _ _ => rfl
  unfold setMode
  exact ((habort _).cset _ m (by decide)).trans (hrest _ _ _ _)

/-- A start shows in CH_STAT alone (R84, R87). -/
theorem reg_channelStart {off : Nat} (h : off ≠ 1) : (channelStart g s).reg (chAddr g off) = s.reg (chAddr g off) := by
  unfold channelStart
  dsimp only
  split
  · rfl
  · rw [Device.nextFree_reg, reg_cset_ne (f := CH_STAT_SLEWING) h, reg_cset_ne (f := CH_STAT_LOOP) h,
      reg_cset_ne (f := CH_STAT_ACTIVE) h, Device.modLp, Device.modCh_reg, Device.cforce, Device.setFrc_reg, Device.cforce,
      Device.setFrc_reg]

theorem reg_followMode {off : Nat} (h : off ≠ 1) : (followMode g s).reg (chAddr g off) = s.reg (chAddr g off) := by
  unfold followMode
  split_ifs
  · rfl
  · exact reg_channelStart h

theorem cget_followMode {f : Fld .ch} (h : f.off ≠ 1) : (followMode g s).cget g f = s.cget g f := congrArg f.get (reg_followMode h)

theorem pkgState_of_only (h : t.Only s g) : pkgState t = pkgState s :=
  congrArg PKG_STATE_STATE.get (h.2.pkgWords 2 (by decide) (by decide) (by decide))

end

/-! CH_PWM and CH_DT (R75). -/

/-- The word of CH_PWM or of CH_DT. -/
abbrev pwmAddr (g : Nat) (dt : Bool) : Nat := chAddr g (if dt then 0x15 else 0x14)

/-- The word is stored, and while the gates are low it comes into force. -/
theorem pwmWrite_eq (g : Nat) (dt : Bool) (w : Word) (s : Device) :
    pwmWrite g dt w s = if (s.ch g).lp.gl then s.setReg (pwmAddr g dt) (if dt then dtStored w else pwmStored w)
      else (s.setReg (pwmAddr g dt) (if dt then dtStored w else pwmStored w)).setFrc (pwmAddr g dt)
        ((s.setReg (pwmAddr g dt) (if dt then dtStored w else pwmStored w)).reg (pwmAddr g dt)) := rfl

theorem pwmWrite_spec (g : Nat) (dt : Bool) (w : Word) (s : Device) : let t := pwmWrite g dt w s
    t.reg (pwmAddr g dt) = (if dt then dtStored w else pwmStored w) ∧
    t.frc (pwmAddr g dt) = (if (s.ch g).lp.gl then s.frc (pwmAddr g dt) else t.reg (pwmAddr g dt)) ∧
    t = { s with regs := t.regs, force := t.force } ∧ ∀ b, b ≠ pwmAddr g dt → t.reg b = s.reg b ∧ t.frc b = s.frc b := by
  rw [pwmWrite_eq]
  generalize (if dt then dtStored w else pwmStored w) = v
  generalize pwmAddr g dt = a
  by_cases hgl : (s.ch g).lp.gl = true
  · rw [if_pos hgl]
    exact ⟨Device.reg_setReg_self s a v, (if_pos hgl).symm, rfl, fun b hb => ⟨Device.reg_setReg_ne s hb v, rfl⟩⟩
  · rw [if_neg hgl]
    refine ⟨(Device.setFrc_reg ..).trans (Device.reg_setReg_self s a v), ?_, rfl, fun b hb =>
      ⟨(Device.setFrc_reg ..).trans (Device.reg_setReg_ne s hb v), Device.frc_setFrc_ne _ hb _⟩⟩
    rw [if_neg hgl, Device.setFrc_reg, Device.frc_setFrc_self]

/-! Setpoints and ranges (R87, R101, R102). -/

section
variable {g : Nat} {s : Device}

theorem cbit_of_cget {f : Fld .ch} {n : Nat} (h : s.cget g f = n) : s.cbit g f = (n != 0) := by rw [Device.cbit, h]

/-- A flag that is not 0 is 1. -/
theorem cget_of_cbit {f : Fld .ch} (h : s.cbit g f = true) (hf : f.width = 1) : s.cget g f = 1 := by
  have hne : s.cget g f ≠ 0 := bne_iff_ne.mp h
  have hlt : s.cget g f < 2 ^ f.width := Nat.mod_lt _ (Nat.two_pow_pos _)
  rw [hf] at hlt
  omega

theorem setpointWrite_of_override (h : s.cget g CH_CTL_OVR = 1) (r : SetReg) (w : Word) : setpointWrite g r w s =
    s.setReg (chAddr g (setOff r)) (if r = .vset ∧ 6000000 < w.toNat then 6000000#32 else w) :=
  if_pos (cbit_of_cget h)

/-- VSET is stored at most 6,000,000 (R87). -/
theorem vsetStored_eq (w : Word) : (if SetReg.vset = .vset ∧ 6000000 < w.toNat then 6000000#32 else w) =
    if w.toNat ≤ 6000000 then w else 6000000#32 := (if_congr (by simp) rfl rfl).trans (ite_not ..)

theorem setpointWrite_of_engine (h : s.cget g CH_CTL_OVR = 0) (r : SetReg) (w : Word) : setpointWrite g r w s = s :=
  if_neg (by simp [cbit_of_cget h])

theorem rangeSelWrite_of_override (h : s.cget g CH_CTL_OVR = 1) (low : Bool) : rangeSelWrite g low s = writeRange low g s :=
  if_pos (cbit_of_cget h)

theorem rangeSelWrite_of_engine (h : s.cget g CH_CTL_OVR = 0) (low : Bool) : rangeSelWrite g low s = s :=
  if_neg (by simp [cbit_of_cget h])

/-- A flag of CH_SENSE set and a change of the channel differ in that word and that channel alone. -/
theorem chanOnly_sense (f : Fld .ch) (v : Nat) (k : Chan → Chan) : ChanOnly g (· = chAddr g f.off) s ((s.cset g f v).modCh g k) :=
  ⟨rfl, fun _ hh => (Device.ch_modCh_ne _ hh k).trans (Device.setReg_ch ..), fun _ ha => Device.reg_setReg_ne s ha _⟩

theorem writeRange_spec (hg : g < s.chans.length) (low : Bool) : let t := writeRange low g s
    t.cget g CH_SENSE_RANGE_SEL = (if low then 1 else 0) ∧ (t.ch g).due.range = some low ∧
    t.cget g CH_SENSE_RANGE = s.cget g CH_SENSE_RANGE ∧ ChanOnly g (· = chAddr g 0x1F) s t := by
  refine ⟨?_, ?_, Device.cget_cset_apart s g CH_SENSE_RANGE_SEL CH_SENSE_RANGE _ (by decide), chanOnly_sense CH_SENSE_RANGE_SEL _ _⟩
  · refine (Device.cget_cset_self s g CH_SENSE_RANGE_SEL _ (by decide)).trans ?_
    cases low <;> rfl
  · exact congrArg (fun c => c.due.range) (Device.ch_modCh_self (s.cset g CH_SENSE_RANGE_SEL (if low then 1 else 0)) hg _)

theorem reg_writeRange {off : Nat} (h : off ≠ 0x1F) (low : Bool) : (writeRange low g s).reg (chAddr g off) = s.reg (chAddr g off) :=
  reg_cset_ne (f := CH_SENSE_RANGE_SEL) h _ s

theorem uprange_of (hlow : s.cget g CH_SENSE_RANGE = 1) (h : uprangeNow s g = true) : uprange g s =
    (s.modDue g fun x => { x with range := some false }).cset g CH_SENSE_UPRANGE_EVT 1 :=
  if_pos (by rw [chLow, cbit_of_cget hlow, h]; rfl)

theorem uprange_of_not (h : s.cget g CH_SENSE_RANGE = 0 ∨ uprangeNow s g = false) : uprange g s = s := by
  refine if_neg fun hb => ?_
  obtain ⟨hlow, hnow⟩ := Bool.and_eq_true_iff.mp hb
  rcases h with h | h
  · simp [chLow, cbit_of_cget h] at hlow
  · exact absurd (h.symm.trans hnow) (by decide)

theorem uprange_spec (hg : g < s.chans.length) (hlow : s.cget g CH_SENSE_RANGE = 1) (h : uprangeNow s g = true) : let t := uprange g s
    (t.ch g).due.range = some false ∧ t.cget g CH_SENSE_UPRANGE_EVT = 1 ∧ t.cget g CH_SENSE_RANGE = 1 ∧
    ChanOnly g (· = chAddr g 0x1F) s t := by
  rw [uprange_of hlow h]
  refine ⟨?_, Device.cget_cset_self _ g CH_SENSE_UPRANGE_EVT 1 (by decide),
    (Device.cget_cset_apart _ g CH_SENSE_UPRANGE_EVT CH_SENSE_RANGE 1 (by decide)).trans hlow, chanOnly_sense CH_SENSE_UPRANGE_EVT 1 _⟩
  exact congrArg (fun c => c.due.range) (Device.ch_modCh_self s hg _)

/-! Overloads (R103, R422). -/

theorem irqStatus_logEvent {cat : Nat} (hcat : cat < 12) (d code obj data : Nat) :
    (irqStatus (logEvent cat d code obj data s)).testBit cat = true := by
  by_cases hd : d = 0
  · subst hd
    exact irqStatus_logEvent_lead s hcat code obj data
  · unfold logEvent
    dsimp only
    rw [if_neg hd]
    exact irqStatus_setIrq s hcat (.inr rfl) d obj

theorem reg_acirClip (a : Nat) : (acirClip g s).reg a = s.reg a := by
  rw [acirClip, apply_ite (fun t => Device.reg t a)]
  exact ite_self _

/-- The flag of an overload (R112). -/
abbrev overloadFlag (volt : Bool) : Fld .ch := if volt then CH_SENSE_OVLD_V else CH_SENSE_OVLD_I

theorem setOverload_of_set {volt : Bool} (h : s.cget g (overloadFlag volt) = 1) : setOverload volt g s = s := if_pos h

theorem setOverload_of_clear {volt : Bool} (h : s.cget g (overloadFlag volt) ≠ 1) : setOverload volt g s =
    logEvent Cat.ch (g / 8) (if volt then 0x11 else 0x10) g ((s.cset g (overloadFlag volt) 1).reg (chAddr g 0x1F)).toNat
      (s.cset g (overloadFlag volt) 1) := if_neg h

theorem setOverload_flag (volt : Bool) : (setOverload volt g s).cget g (overloadFlag volt) = 1 := by
  have hflag : (overloadFlag volt).off < 0x50 ∧ (overloadFlag volt).lo ≤ (overloadFlag volt).hi ∧ (overloadFlag volt).hi < 32 ∧
      1 % 2 ^ (overloadFlag volt).width = 1 := by cases volt <;> decide
  obtain ⟨hoff, hlo, hhi, hone⟩ := hflag
  by_cases h : s.cget g (overloadFlag volt) = 1
  · rw [setOverload_of_set h, h]
  · rw [setOverload_of_clear h, cget_of_stage (stage_logEvent ..) _ hoff, Device.cget_cset_self _ _ _ _ ⟨hlo, hhi⟩, hone]

theorem setOverload_irq (volt : Bool) (h : s.cget g (overloadFlag volt) = 0) :
    (irqStatus (setOverload volt g s)).testBit 2 = true := by
  rw [setOverload_of_clear (by rw [h]; decide)]
  exact irqStatus_logEvent (cat := Cat.ch) (by decide) _ _ _ _

theorem overload_of_now {volt : Bool} (hup : (s.die (g / 8)).up = true) (h : overloadNow s g volt = true) :
    overload volt g s = acirClip g (setOverload volt g s) := if_pos (by rw [hup, h]; rfl)

theorem overload_of_not {volt : Bool} (h : overloadNow s g volt = false) : overload volt g s = s := if_neg (by simp [h])

theorem overload_spec {volt : Bool} (hup : (s.die (g / 8)).up = true) (h : overloadNow s g volt = true) :
    let t := overload volt g s
    t.cget g (overloadFlag volt) = 1 ∧ (s.cget g (overloadFlag volt) = 0 → (irqStatus t).testBit 2 = true) := by
  rw [overload_of_now hup h]
  refine ⟨(congrArg (overloadFlag volt).get (reg_acirClip _)).trans (setOverload_flag volt), fun h0 => ?_⟩
  rw [irqStatus_of_reg _ (reg_acirClip 4)]
  exact setOverload_irq volt h0

/-! Override (R82, R88). -/

/-- Mode and setpoints as the host's write of OVR = 1 leaves them for the mode to follow. -/
def overridden (w : Word) (g : Nat) (s : Device) : Device :=
  let t := s.cset g CH_CTL_OVR_MODE (CH_CTL_OVR_MODE.get w)
  if s.cbit g CH_CTL_OVR then t else (acirAbort 2 g (t.cset g CH_CTL_OVR 1)).modEng g fun e => { e with fOvr := true }

theorem overrideChange_of_taken {w : Word} (h : CH_CTL_OVR.get w = 1) : overrideChange g w s =
    followMode g (setMode (CH_CTL_OVR_MODE.get w) g (overridden w g s)) := by
  unfold overrideChange
  dsimp only
  rw [if_pos h]
  rfl

theorem chWords_overridden (hg : g < 64) (w : Word) : ChWords g
    (if s.cbit g CH_CTL_OVR then s.cset g CH_CTL_OVR_MODE (CH_CTL_OVR_MODE.get w)
      else (s.cset g CH_CTL_OVR_MODE (CH_CTL_OVR_MODE.get w)).cset g CH_CTL_OVR 1) (overridden w g s) := by
  unfold overridden
  dsimp only
  split_ifs
  · exact fun _ _ => rfl
  · exact chWords_of_stage ((stage_modEng _ g _).trans (stage_acirAbort _ hg 2))

theorem ovrMode_get_lt (w : Word) : CH_CTL_OVR_MODE.get w % 8 = CH_CTL_OVR_MODE.get w := by
  unfold Fld.get
  exact Nat.mod_mod_of_dvd _ (by decide)

theorem overrideChange_takes (hg : g < 64) {w : Word} (h : CH_CTL_OVR.get w = 1) : let t := overrideChange g w s
    t.cget g CH_CTL_OVR = 1 ∧ t.cget g CH_CTL_MODE = CH_CTL_OVR_MODE.get w ∧ t.cget g CH_CTL_OVR_MODE = CH_CTL_OVR_MODE.get w ∧
    ∀ off ∈ [0x08, 0x09, 0x0A], t.reg (chAddr g off) = s.reg (chAddr g off) := by
  have hmode := chWords_setMode (s := overridden w g s) hg (CH_CTL_OVR_MODE.get w)
  have hwords := chWords_overridden (s := s) hg w
  rw [overrideChange_of_taken h]
  refine ⟨?_, ?_, ?_, fun off hoff => ?_⟩
  · rw [cget_followMode (by decide), hmode.cget _ (by decide), Device.cget_cset_apart _ _ _ _ _ (by decide), hwords.cget _ (by decide)]
    split_ifs with hovr
    · rw [Device.cget_cset_apart _ _ _ _ _ (by decide), cget_of_cbit hovr (by decide)]
    · exact Device.cget_cset_self _ _ _ _ (by decide)
  · rw [cget_followMode (by decide), mode_setMode, ovrMode_get_lt]
  · rw [cget_followMode (by decide), hmode.cget _ (by decide), Device.cget_cset_apart _ _ _ _ _ (by decide), hwords.cget _ (by decide)]
    split_ifs with hovr
    · exact (Device.cget_cset_self s g CH_CTL_OVR_MODE _ (by decide)).trans (ovrMode_get_lt w)
    · exact (Device.cget_cset_apart _ g CH_CTL_OVR CH_CTL_OVR_MODE _ (by decide)).trans
        ((Device.cget_cset_self s g CH_CTL_OVR_MODE _ (by decide)).trans (ovrMode_get_lt w))
  · have hoff' : off ≠ 0 ∧ off ≠ 1 ∧ off < 0x50 := by
      simp only [List.mem_cons, List.not_mem_nil, or_false] at hoff
      omega
    obtain ⟨h0, h1, h50⟩ := hoff'
    rw [reg_followMode h1, hmode off h50, reg_cset_ne (f := CH_CTL_MODE) h0, hwords off h50]
    split_ifs
    · exact reg_cset_ne (f := CH_CTL_OVR_MODE) h0 _ s
    · exact (reg_cset_ne (f := CH_CTL_OVR) h0 _ _).trans (reg_cset_ne (f := CH_CTL_OVR_MODE) h0 _ s)

/-- OVR is 0 once the host has given the override back, and its window is aborted (R88, R182). -/
def overrideEnded (w : Word) (g : Nat) (s : Device) : Device :=
  acirAbort 2 g ((s.cset g CH_CTL_OVR_MODE (CH_CTL_OVR_MODE.get w)).cset g CH_CTL_OVR 0)

/-- The engine's setpoints and range come back (R88, R101). -/
def engineBack (g : Nat) (s : Device) : Device :=
  let l := (s.ch g).lp
  let t := engSetpoints l.engI l.engV l.engP g s
  if l.engR = t.cbit g CH_SENSE_RANGE_SEL then t else writeRange l.engR g t

theorem overrideChange_of_ended {w : Word} (h : CH_CTL_OVR.get w = 0) (hovr : s.cget g CH_CTL_OVR = 1) : overrideChange g w s =
    let t := overrideEnded w g s
    let u := engineBack g t
    followMode g (setMode (if pkgState u = Pkg.test then 0 else (t.ch g).lp.engMode) g u) := by
  unfold overrideChange
  dsimp only
  rw [if_neg (by rw [h]; decide), if_pos (by rw [cbit_of_cget hovr]; rfl)]
  rfl

theorem stage_overrideEnded (hg : g < 64) (w : Word) : stage g (overrideEnded w g s) =
    stage g ((s.cset g CH_CTL_OVR_MODE (CH_CTL_OVR_MODE.get w)).cset g CH_CTL_OVR 0) := stage_acirAbort _ hg 2

theorem lp_overrideEnded (hg : g < 64) (w : Word) : ((overrideEnded w g s).ch g).lp = (s.ch g).lp := by
  rw [lp_of_stage (stage_overrideEnded hg w)]
  rfl

theorem override_overrideEnded (hg : g < 64) (w : Word) : (overrideEnded w g s).cget g CH_CTL_OVR = 0 :=
  (cget_of_stage (stage_overrideEnded hg w) _ (by decide)).trans (Device.cget_cset_self _ g CH_CTL_OVR 0 (by decide))

/-- The words of the setpoints (R87). -/
def withSetpoints (l : Loop) (g : Nat) (s : Device) : Device :=
  ((s.setReg (chAddr g 0x08) (wordOfInt l.engI)).setReg (chAddr g 0x09) (BitVec.ofNat 32 l.engV)).setReg (chAddr g 0x0A) (wordOfInt l.engP)

theorem reg_engineBack {off : Nat} (h0 : s.cget g CH_CTL_OVR = 0) (h : off ≠ 0x1F) :
    (engineBack g s).reg (chAddr g off) = (withSetpoints (s.ch g).lp g s).reg (chAddr g off) := by
  have hset (i : Int) (v : Nat) (p : Int) : engSetpoints i v p g s =
      (((s.modLp g fun l => { l with engI := i, engV := v, engP := p }).setReg (chAddr g 0x08) (wordOfInt i)).setReg (chAddr g 0x09)
        (BitVec.ofNat 32 v)).setReg (chAddr g 0x0A) (wordOfInt p) := if_neg (Bool.eq_false_iff.mp (cbit_of_cget h0))
  unfold engineBack
  dsimp only
  rw [hset]
  split_ifs
  · rfl
  · exact reg_writeRange h _

theorem reg_withSetpoints (l : Loop) : let t := withSetpoints l g s
    t.reg (chAddr g 0x08) = wordOfInt l.engI ∧ t.reg (chAddr g 0x09) = BitVec.ofNat 32 l.engV ∧
    t.reg (chAddr g 0x0A) = wordOfInt l.engP ∧ t.reg (chAddr g 0) = s.reg (chAddr g 0) := by
  have hne {off k : Nat} (h : off ≠ k) : chAddr g off ≠ chAddr g k := by unfold chAddr; omega
  refine ⟨?_, ?_, Device.reg_setReg_self .., ?_⟩
  · exact (Device.reg_setReg_ne _ (hne (by decide)) _).trans ((Device.reg_setReg_ne _ (hne (by decide)) _).trans (Device.reg_setReg_self ..))
  · exact (Device.reg_setReg_ne _ (hne (by decide)) _).trans (Device.reg_setReg_self ..)
  · exact (Device.reg_setReg_ne _ (hne (by decide)) _).trans ((Device.reg_setReg_ne _ (hne (by decide)) _).trans
      (Device.reg_setReg_ne _ (hne (by decide)) _))

theorem pkgState_engineBack (hg : g < 64) (w : Word) : pkgState (engineBack g (overrideEnded w g s)) = pkgState s := by
  have hended : (overrideEnded w g s).Only s g :=
    only_acirAbort 2 (Device.only_cset _ 0 (by decide) (Device.only_cset _ _ (by decide) (Device.only_refl s hg)))
  refine pkgState_of_only (g := g) ?_
  unfold engineBack
  dsimp only
  split_ifs
  · exact only_engSetpoints _ _ _ hended
  · exact only_writeRange _ (only_engSetpoints _ _ _ hended)

theorem overrideChange_gives (hg : g < 64) {w : Word} (h : CH_CTL_OVR.get w = 0) (hovr : s.cget g CH_CTL_OVR = 1)
    (htest : pkgState s ≠ Pkg.test) : let t := overrideChange g w s
    t.cget g CH_CTL_OVR = 0 ∧ t.cget g CH_CTL_MODE = (s.ch g).lp.engMode % 8 ∧ t.reg (chAddr g 8) = wordOfInt (s.ch g).lp.engI ∧
    t.reg (chAddr g 9) = BitVec.ofNat 32 (s.ch g).lp.engV ∧ t.reg (chAddr g 10) = wordOfInt (s.ch g).lp.engP := by
  rw [overrideChange_of_ended h hovr]
  dsimp only
  rw [if_neg (by rw [pkgState_engineBack hg]; exact htest), lp_overrideEnded hg]
  have hovr0 := override_overrideEnded (s := s) hg w
  have hback {off : Nat} (hoff : off ≠ 0x1F) := reg_engineBack hovr0 hoff
  obtain ⟨hi, hv, hp, hctl⟩ := reg_withSetpoints (g := g) (s := overrideEnded w g s) ((overrideEnded w g s).ch g).lp
  have hmode := chWords_setMode (s := engineBack g (overrideEnded w g s)) hg (s.ch g).lp.engMode
  have hword {off : Nat} (h0 : off ≠ 0) (h1 : off ≠ 1) (h50 : off < 0x50) (hsense : off ≠ 0x1F) :
      (followMode g (setMode (s.ch g).lp.engMode g (engineBack g (overrideEnded w g s)))).reg (chAddr g off) =
        (withSetpoints (s.ch g).lp g (overrideEnded w g s)).reg (chAddr g off) := by
    rw [reg_followMode h1, hmode off h50, reg_cset_ne (f := CH_CTL_MODE) h0, hback hsense, lp_overrideEnded hg]
  rw [lp_overrideEnded hg] at hi hv hp
  refine ⟨?_, ?_, (hword (by decide) (by decide) (by decide) (by decide)).trans hi,
    (hword (by decide) (by decide) (by decide) (by decide)).trans hv, (hword (by decide) (by decide) (by decide) (by decide)).trans hp⟩
  · rw [cget_followMode (by decide), hmode.cget _ (by decide), Device.cget_cset_apart _ _ _ _ _ (by decide)]
    exact (congrArg CH_CTL_OVR.get ((hback (by decide)).trans hctl)).trans hovr0
  · rw [cget_followMode (by decide), mode_setMode]

end

/-! The commands, as the dispatch carries them out. -/

theorem exec_pwmWrite (g : Ch) (dt : Bool) (w : Word) (s : State) : exec (.pwmWrite g dt w) s = onDie (g.val / 8) s (pwmWrite g dt w) := rfl
theorem exec_setpointWrite (g : Ch) (r : SetReg) (w : Word) (s : State) :
    exec (.setpointWrite g r w) s = onDie (g.val / 8) s (setpointWrite g r w) := rfl
theorem exec_rangeSelWrite (g : Ch) (low : Bool) (s : State) :
    exec (.rangeSelWrite g low) s = onDie (g.val / 8) s (rangeSelWrite g low) := rfl
theorem exec_overrideChange (g : Ch) (w : Word) (s : State) :
    exec (.overrideChange g w) s = onDie (g.val / 8) s (overrideChange g w) := rfl
theorem exec_uprange (g : Ch) (s : State) : exec (.uprange g) s = onDie (g.val / 8) s (uprange g) := rfl
theorem exec_overloadDetect (g : Ch) (volt : Bool) (s : State) :
    exec (.overloadDetect g volt) s = onDie (g.val / 8) s (overload volt g) := rfl

/-- Settles O27: a host's write by the override that stands, and what an override takes and gives back word by word. -/
theorem hostValuesCountUnderOverride : Obligations.HostValuesCountUnderOverride := by
  unfold Obligations.HostValuesCountUnderOverride
  intro s g hs hd
  have hlt := hs.ch_lt g
  have honly : s.dev.Only s.dev g.val := Device.only_refl s.dev g.isLt
  dsimp only
  refine ⟨fun dt w => does_die (exec_pwmWrite g dt w s) hd (pwmWrite_spec g.val dt w s.dev),
    fun hovr r w low => ⟨?_, ?_⟩, fun hovr w low => ⟨?_, ?_, ?_, ?_⟩, fun w hw => ?_, fun w hw hovr htest => ?_,
    fun hlow hnow => does_die (exec_uprange g s) hd (uprange_spec hlt hlow hnow),
    fun hnot => does_die (exec_uprange g s) hd (uprange_of_not hnot),
    fun volt hnot => does_die (exec_overloadDetect g volt s) hd (overload_of_not hnot), fun volt hup hnow => ?_⟩
  · exact does_die (exec_setpointWrite g r w s) hd (setpointWrite_of_engine hovr r w)
  · exact does_die (exec_rangeSelWrite g low s) hd (rangeSelWrite_of_engine hovr low)
  · refine does_die (exec_setpointWrite g .iset w s) hd ?_
    rw [setpointWrite_of_override hovr]
    exact wordOnly_setReg s.dev _ _
  · refine does_die (exec_setpointWrite g .vset w s) hd ?_
    rw [setpointWrite_of_override hovr, vsetStored_eq]
    exact wordOnly_setReg s.dev _ _
  · refine does_die (exec_setpointWrite g .pset w s) hd ?_
    rw [setpointWrite_of_override hovr]
    exact wordOnly_setReg s.dev _ _
  · refine does_die (exec_rangeSelWrite g low s) hd ?_
    rw [rangeSelWrite_of_override hovr]
    exact writeRange_spec hlt low
  · obtain ⟨hone, hmode, hheld, hset⟩ := overrideChange_takes (s := s.dev) g.isLt hw
    exact does_die (exec_overrideChange g w s) hd ⟨hone, hmode, hheld, hset, (only_overrideChange w honly).2⟩
  · obtain ⟨hzero, hmode, hi, hv, hp⟩ := overrideChange_gives (s := s.dev) g.isLt hw hovr htest
    exact does_die (exec_overrideChange g w s) hd ⟨hzero, hmode, hi, hv, hp, (only_overrideChange w honly).2⟩
  · obtain ⟨hflag, hirq⟩ := overload_spec hup hnow
    exact does_die (exec_overloadDetect g volt s) hd ⟨hflag, (only_overload volt honly).2, hirq⟩

end Sys2Proof.Machine
end

section
/-! Proofs of the family of the power stage: one switching period (O26). -/

namespace Sys2Proof.Machine

/-! CH_FAULT of a bit that stops nothing (R94, R96). -/

section
variable {g : Nat} {s : Device}

theorem setChFault_of_set {bit : Nat} (h : (s.reg (chAddr g 2)).toNat.testBit bit = true) : setChFault bit g s = s := if_pos h

theorem setChFault_of_late {bit : Nat} (h : (s.reg (chAddr g 2)).toNat.testBit bit = false) (hbit : 5 ≤ bit) : ∃ n,
    setChFault bit g s = logEvent Cat.ch (g / 8) (faultCode bit) g n
      (s.setReg (chAddr g 2) (s.reg (chAddr g 2) ||| BitVec.ofNat 32 (2 ^ bit))) := by
  unfold setChFault
  dsimp only
  rw [if_neg (by simp [h]), if_neg (by omega)]
  exact ⟨_, rfl⟩

theorem bootUv_of_testBit (h : (s.reg (chAddr g 2)).toNat.testBit 8 = true) : s.cget g CH_FAULT_BOOT_UV = 1 := by
  rw [Nat.testBit_eq_decide_div_mod_eq] at h
  exact of_decide_eq_true h

/-- The supply of the bootstrap is low at the start of a period (R70). -/
def bootFault (boot : Bool) (g : Nat) (s : Device) : Device := if boot then setChFault 8 g s else s

/-- A bootstrap fault shows in CH_FAULT alone. -/
structure FaultShown (g : Nat) (s t : Device) : Prop where
  words : ∀ off, off < 0x50 → off ≠ 2 → t.reg (chAddr g off) = s.reg (chAddr g off)
  force : ∀ off, off < 0x50 → t.frc (chAddr g off) = s.frc (chAddr g off)
  part : (t.ch g).part = (s.ch g).part
  chans : t.chans = s.chans
  bootUv : t.cget g CH_FAULT_BOOT_UV = 1

theorem bootFault_shows (g : Nat) (s : Device) : FaultShown g s (setChFault 8 g s) := by
  by_cases hset : (s.reg (chAddr g 2)).toNat.testBit 8 = true
  · rw [setChFault_of_set hset]
    exact ⟨fun _ _ _ => rfl, fun _ _ => rfl, rfl, rfl, bootUv_of_testBit hset⟩
  · obtain ⟨n, hlate⟩ := setChFault_of_late (bit := 8) (Bool.eq_false_iff.mpr hset) (by decide)
    rw [hlate]
    generalize hw : s.reg (chAddr g 2) ||| BitVec.ofNat 32 (2 ^ 8) = w
    have hbit : w.toNat.testBit 8 = true := by
      rw [← hw, BitVec.toNat_or, Nat.testBit_or]
      exact Bool.or_eq_true_iff.mpr (.inr (by decide))
    have hstage := stage_logEvent (g := g) (s.setReg (chAddr g 2) w) Cat.ch (g / 8) (faultCode 8) g n
    refine ⟨fun off h50 h2 => ?_, fun off h50 => frc_of_stage hstage h50, (part_of_stage hstage).trans rfl, ?_, ?_⟩
    · rw [reg_of_stage hstage h50, Device.reg_setReg_ne s (by unfold chAddr; omega)]
    · rw [(logged_logEvent ..).1, Device.setReg_chans]
    · rw [cget_of_stage hstage _ (by decide)]
      exact bootUv_of_testBit (by rw [Device.reg_setReg_self, hbit])

end

/-! The limits of the on-time (R73). -/

theorem tonLo_nonneg (s : Device) (g : Nat) : 0 ≤ tonLo s g := by unfold tonLo; omega

/-- An on-time held between its limits, or skipped below the least. -/
theorem ton_within {lo hi : Int} (h0 : 0 ≤ lo) (h : lo ≤ hi) (u : Int) : let ton := if u < lo then 0 else (clampInt lo hi u).toNat
    ton = 0 ∨ (lo ≤ ton ∧ ton ≤ hi) := by
  unfold clampInt
  dsimp only
  split_ifs <;> omega

section
variable {g : Nat} {s : Device}

/-- What a period computes in CC with no clamp and no stop (R77, R79): the target is ISET within ±ILIM, and the command moves
towards it by at most SLEW. -/
theorem loopCompute_cc (hmode : modeOf s g = 1) (hrest : (s.ch g).lp.toRest = false) (hstop : (s.ch g).lp.ctStop = false)
    (hclamp : (s.ch g).lp.clamp = 0) (iM vM : Int) : let o := loopCompute iM vM s g
    let tgt := clampInt (-ilimOf s g) (ilimOf s g) (iWord (s.ch g).conv.kq (isetOf s g))
    let slew : Int := s.cget g CH_SLEW
    o.tgt = tgt ∧ o.cmd = (if slew = 0 then tgt else (s.ch g).lp.cmd + clampInt (-slew) slew (tgt - (s.ch g).lp.cmd)) ∧
    o.vint = (s.ch g).lp.vint ∧ o.volt = false ∧
    (tonLo s g ≤ tonHi s g → o.ton = 0 ∨ (tonLo s g ≤ o.ton ∧ o.ton ≤ tonHi s g)) := by
  have hreq : loopReq s g vM = iWord (s.ch g).conv.kq (isetOf s g) := by
    unfold loopReq
    dsimp only
    rw [if_neg (by rw [hmode]; decide)]
  unfold loopCompute
  dsimp only
  rw [hreq, hmode, hrest, hstop, hclamp, if_neg (by decide)]
  refine ⟨rfl, rfl, rfl, rfl, fun h => ton_within (tonLo_nonneg s g) h _⟩

/-! The beginning of a period (R70, R72, R73). -/

/-- The period is skipped, for the bootstrap or for an on-time below the least (R70, R73). -/
def periodSkips (boot : Bool) (g : Nat) (s : Device) : Bool := boot || (s.ch g).lp.ton == 0

/-- What the beginning of a period makes of a channel. -/
structure PeriodBegun (boot : Bool) (g : Nat) (s t : Device) : Prop where
  words : ∀ off, off < 0x50 → off ≠ 1 → off ≠ 2 → off ≠ 0x1D → t.reg (chAddr g off) = s.reg (chAddr g off)
  force : ∀ off, off < 0x50 → t.frc (chAddr g off) = s.frc (chAddr g off)
  lp : (t.ch g).lp = { (s.ch g).lp with
    edges := if periodSkips boot g s then [] else periodEdges s g (s.ch g).lp.ton, perAt := (t.ch g).lp.perAt }
  conv : (t.ch g).conv = (s.ch g).conv
  duty : t.cget g CH_DUTY = if periodSkips boot g s then 0 else (s.ch g).lp.ton % 131072
  skip : t.cget g CH_STAT_SKIP = if periodSkips boot g s then 1 else 0
  sat : t.cget g CH_STAT_SAT = if (s.ch g).lp.satNext && !boot then 1 else 0
  bootUv : boot = true → t.cget g CH_FAULT_BOOT_UV = 1

/-- The words and the edges of a period's beginning, after its fault. -/
def periodWords (boot : Bool) (l : Loop) (g : Nat) (s : Device) : Device :=
  let skip := boot || l.ton == 0
  (((s.cset g CH_DUTY (if skip then 0 else l.ton)).cset g CH_STAT_SKIP (if skip then 1 else 0)).modLp g fun k =>
    { k with edges := if skip then [] else periodEdges s g k.ton }).cset g CH_STAT_SAT (if l.satNext && !boot then 1 else 0)

theorem stage_periodStart (boot : Bool) : stage g (periodStart boot g s) =
    stage g (periodWords boot (s.ch g).lp g (bootFault boot g s)) := by
  have hclip (t : Device) (c : Prop) [Decidable c] : stage g (if c then acirClip g t else t) = stage g t := by
    rw [apply_ite (stage g), stage_acirClip, ite_self]
  exact hclip _ _

theorem flag_mod_two (c : Prop) [Decidable c] : (if c then 1 else 0) % 2 = if c then 1 else 0 := by split_ifs <;> rfl

theorem cget_modLp (f : Loop → Loop) (h : Nat) (k : Fld .ch) : (s.modLp g f).cget h k = s.cget h k := rfl
theorem reg_modLp (f : Loop → Loop) (a : Nat) : (s.modLp g f).reg a = s.reg a := rfl

section
variable (boot : Bool) (l : Loop)

theorem cget_periodWords {k : Fld .ch} (hskip : Device.Apart CH_STAT_SKIP k) (hsat : Device.Apart CH_STAT_SAT k)
    (hduty : Device.Apart CH_DUTY k) : (periodWords boot l g s).cget g k = s.cget g k := by
  unfold periodWords
  dsimp only
  rw [Device.cget_cset_apart _ g CH_STAT_SAT k _ hsat, cget_modLp, Device.cget_cset_apart _ g CH_STAT_SKIP k _ hskip,
    Device.cget_cset_apart _ g CH_DUTY k _ hduty]

theorem flags_periodWords : let t := periodWords boot l g s
    t.cget g CH_DUTY = (if boot || l.ton == 0 then 0 else l.ton) % 131072 ∧
    t.cget g CH_STAT_SKIP = (if boot || l.ton == 0 then 1 else 0) ∧ t.cget g CH_STAT_SAT = if l.satNext && !boot then 1 else 0 := by
  unfold periodWords
  dsimp only
  refine ⟨?_, ?_, ?_⟩
  · rw [Device.cget_cset_apart _ g CH_STAT_SAT CH_DUTY _ (by decide), cget_modLp,
      Device.cget_cset_apart _ g CH_STAT_SKIP CH_DUTY _ (by decide), Device.cget_cset_self _ _ _ _ (by decide)]
    rfl
  · rw [Device.cget_cset_apart _ g CH_STAT_SAT CH_STAT_SKIP _ (by decide), cget_modLp, Device.cget_cset_self _ _ _ _ (by decide)]
    exact flag_mod_two _
  · rw [Device.cget_cset_self _ _ _ _ (by decide)]
    exact flag_mod_two _

theorem ch_modLp (hg : g < s.chans.length) (f : Loop → Loop) :
    (s.modLp g f).ch g = { s.ch g with lp := f (s.ch g).lp } :=
  Device.ch_modCh_self s hg _

theorem ch_periodWords (hg : g < s.chans.length) : (periodWords boot l g s).ch g = { s.ch g with lp := { (s.ch g).lp with
    edges := if boot || l.ton == 0 then [] else periodEdges s g (s.ch g).lp.ton } } := by
  unfold periodWords
  dsimp only
  rw [Device.cset, Device.setReg_ch, ch_modLp, Device.cset, Device.setReg_ch, Device.cset, Device.setReg_ch]
  simpa only [Device.cset, Device.setReg_chans] using hg

theorem reg_periodWords {off : Nat} (h1 : off ≠ 1) (hD : off ≠ 0x1D) :
    (periodWords boot l g s).reg (chAddr g off) = s.reg (chAddr g off) := by
  unfold periodWords
  dsimp only
  rw [reg_cset_ne (f := CH_STAT_SAT) h1, reg_modLp, reg_cset_ne (f := CH_STAT_SKIP) h1, reg_cset_ne (f := CH_DUTY) hD]

/-- The words and the edges are those of a period's beginning, where the fault is shown already. -/
theorem begun_periodWords (hg : g < s.chans.length) {u : Device}
    (hwords : ∀ off, off < 0x50 → off ≠ 2 → u.reg (chAddr g off) = s.reg (chAddr g off))
    (hforce : ∀ off, off < 0x50 → u.frc (chAddr g off) = s.frc (chAddr g off)) (hpart : (u.ch g).part = (s.ch g).part)
    (hchans : u.chans.length = s.chans.length) (hboot : boot = true → u.cget g CH_FAULT_BOOT_UV = 1) :
    PeriodBegun boot g s (periodWords boot (s.ch g).lp g u) := by
  have hlp : (u.ch g).lp = (s.ch g).lp := congrArg Prod.fst hpart
  have hconv : (u.ch g).conv = (s.ch g).conv := congrArg (·.2.2.1) hpart
  have hedges (ton : Nat) : periodEdges u g ton = periodEdges s g ton := by
    unfold periodEdges Device.cfrc
    rw [hforce _ (by decide), hforce _ (by decide)]
  have hch := ch_periodWords boot (s.ch g).lp (hchans ▸ hg)
  obtain ⟨hduty, hskip, hsat⟩ := flags_periodWords (g := g) (s := u) boot (s.ch g).lp
  refine ⟨fun off h50 h1 h2 hD => ?_, hforce, ?_, ?_, ?_, hskip, hsat, fun hb => ?_⟩
  · rw [reg_periodWords boot _ h1 hD, hwords off h50 h2]
  · rw [hch, hlp, hedges]; rfl
  · rw [hch, hconv]
  · rw [hduty]
    unfold periodSkips
    split_ifs <;> rfl
  · rw [cget_periodWords boot _ (by decide) (by decide) (by decide), hboot hb]

end

/-- The next state's stage is what a period's beginning is about. -/
theorem PeriodBegun.of_stage {boot : Bool} {t u : Device} (h : PeriodBegun boot g s t) (hu : stage g u = stage g t) :
    PeriodBegun boot g s u where
  words off h50 h1 h2 hD := (reg_of_stage hu h50).trans (h.words off h50 h1 h2 hD)
  force off h50 := (frc_of_stage hu h50).trans (h.force off h50)
  lp := by rw [lp_of_stage hu]; exact h.lp
  conv := (conv_of_stage hu).trans h.conv
  duty := (cget_of_stage hu _ (by decide)).trans h.duty
  skip := (cget_of_stage hu _ (by decide)).trans h.skip
  sat := (cget_of_stage hu _ (by decide)).trans h.sat
  bootUv hb := (cget_of_stage hu _ (by decide)).trans (h.bootUv hb)

theorem periodStart_begins (hg : g < s.chans.length) (boot : Bool) : PeriodBegun boot g s (periodStart boot g s) := by
  refine PeriodBegun.of_stage ?_ (stage_periodStart boot)
  cases boot with
  | false => exact begun_periodWords false hg (fun _ _ _ => rfl) (fun _ _ => rfl) rfl rfl nofun
  | true =>
    obtain ⟨hwords, hforce, hpart, hchans, hboot⟩ := bootFault_shows g s
    exact begun_periodWords true hg hwords hforce hpart (by rw [bootFault, if_pos rfl, hchans]) fun _ => hboot

/-! The end of a period's computation (R77, R79). -/

theorem stage_cset_congr {t : Device} (h : stage g t = stage g s) (f : Fld .ch) (v : Nat) (hf : f.off < 0x50) :
    stage g (t.cset g f v) = stage g (s.cset g f v) := by
  have hpart : ((t.cset g f v).ch g).part = ((s.cset g f v).ch g).part := by
    rw [Device.cset, Device.setReg_ch, part_of_stage h, Device.cset, Device.setReg_ch]
  have hdie : ((t.cset g f v).die (g / 8)).part = ((s.cset g f v).die (g / 8)).part := by
    rw [Device.cset, Device.setReg_die, diePart_of_stage h, Device.cset, Device.setReg_die]
  have htime : (t.cset g f v).frame = (s.cset g f v).frame ∧ (t.cset g f v).clk = (s.cset g f v).clk :=
    Prod.mk.inj (congrArg Stage.time h)
  exact stage_of ((chWords_of_stage h).cset f v hf) (fun off ho => frc_of_stage h ho) hpart hdie htime.1 htime.2

theorem stage_armTaper (cv still : Bool) : stage g (armTaper cv still g s) = stage g s := by
  unfold armTaper
  dsimp only
  rw [apply_ite (stage g), stage_modEng, ite_self]

/-- The loop's values after a period in which the current loop is in control. -/
def loopStored (iM : Int) (o : LoopOut) (l : Loop) : Loop := { l with
  iM := iM, tgt := o.tgt, cmd := o.cmd, iint := o.iint, vint := o.vint, ton := o.ton, satNext := o.sat, cvSeen := false
  sumI := 0, sumV := 0, nFast := 0 }

/-- The flags after a period in which the current loop is in control. -/
def flagsStored (o : LoopOut) (g : Nat) (s : Device) : Device :=
  ((s.cset g CH_STAT_LOOP 1).cset g CH_STAT_ILIM_ACT (if o.ilim then 1 else 0)).cset g CH_STAT_SLEWING (if o.cmd = o.tgt then 0 else 1)

theorem stage_periodStore (iM : Int) {o : LoopOut} (hclamp : (s.ch g).lp.clamp = 0) (hvolt : o.volt = false) :
    stage g (periodStore iM o g s) = stage g (flagsStored o g (s.modLp g (loopStored iM o))) := by
  have hclip (t : Device) : stage g (if o.clip then acirClip g t else t) = stage g t := by
    rw [apply_ite (stage g), stage_acirClip, ite_self]
  unfold periodStore
  dsimp only
  rw [stage_spend, stage_armTaper, hclamp, hvolt]
  refine stage_cset_congr (stage_cset_congr (stage_cset_congr ?_ _ _ (by decide)) _ _ (by decide)) _ _ (by decide)
  rw [hclip, stage_modAcir]
  rfl

theorem cget_flagsStored {o : LoopOut} {k : Fld .ch} (hloop : Device.Apart CH_STAT_LOOP k) (hlim : Device.Apart CH_STAT_ILIM_ACT k)
    (hslew : Device.Apart CH_STAT_SLEWING k) : (flagsStored o g s).cget g k = s.cget g k := by
  rw [flagsStored, Device.cget_cset_apart _ g CH_STAT_SLEWING k _ hslew, Device.cget_cset_apart _ g CH_STAT_ILIM_ACT k _ hlim,
    Device.cget_cset_apart _ g CH_STAT_LOOP k _ hloop]

theorem flags_flagsStored (o : LoopOut) : (flagsStored o g s).cget g CH_STAT_LOOP = 1 ∧
    (flagsStored o g s).cget g CH_STAT_SLEWING = if o.cmd = o.tgt then 0 else 1 := by
  rw [flagsStored]
  constructor
  · rw [Device.cget_cset_apart _ g CH_STAT_SLEWING CH_STAT_LOOP _ (by decide),
      Device.cget_cset_apart _ g CH_STAT_ILIM_ACT CH_STAT_LOOP _ (by decide), Device.cget_cset_self _ _ _ _ (by decide)]
    rfl
  · rw [Device.cget_cset_self _ _ _ _ (by decide)]
    split_ifs <;> rfl

/-- What the end of a period's computation makes of a channel whose current loop is in control. -/
structure PeriodEnded (iM : Int) (o : LoopOut) (g : Nat) (s t : Device) : Prop where
  lp : (t.ch g).lp = loopStored iM o (s.ch g).lp
  loop : t.cget g CH_STAT_LOOP = 1
  slewing : t.cget g CH_STAT_SLEWING = if o.cmd = o.tgt then 0 else 1
  words : ∀ k ∈ [CH_DUTY, CH_STAT_SKIP, CH_STAT_SAT, CH_FAULT_BOOT_UV], t.cget g k = s.cget g k

theorem periodStore_ends (hg : g < s.chans.length) (iM : Int) {o : LoopOut} (hclamp : (s.ch g).lp.clamp = 0) (hvolt : o.volt = false) :
    PeriodEnded iM o g s (periodStore iM o g s) := by
  have hstage := stage_periodStore iM hclamp hvolt
  have hkeep {k : Fld .ch} (hloop : Device.Apart CH_STAT_LOOP k) (hlim : Device.Apart CH_STAT_ILIM_ACT k)
      (hslew : Device.Apart CH_STAT_SLEWING k) (ho : k.off < 0x50) : (periodStore iM o g s).cget g k = s.cget g k := by
    rw [cget_of_stage hstage k ho, cget_flagsStored hloop hlim hslew, cget_modLp]
  refine ⟨?_, ?_, ?_, ?_⟩
  · rw [lp_of_stage hstage, flagsStored, Device.cset, Device.setReg_ch, Device.cset, Device.setReg_ch, Device.cset, Device.setReg_ch,
      ch_modLp hg]
  · rw [cget_of_stage hstage _ (by decide), (flags_flagsStored o).1]
  · rw [cget_of_stage hstage _ (by decide), (flags_flagsStored o).2]
  · simp only [List.forall_mem_cons]
    exact ⟨hkeep (by decide) (by decide) (by decide) (by decide), hkeep (by decide) (by decide) (by decide) (by decide),
      hkeep (by decide) (by decide) (by decide) (by decide), hkeep (by decide) (by decide) (by decide) (by decide), nofun⟩

/-! The cases of a period (R70, R77, R85, R90). -/

/-- The period is taken at this clock. -/
def periodTaken (g : Nat) (s : Device) : Device := s.modLp g fun l => { l with perAt := some (s.die (g / 8)).tick }

theorem loopPeriod_of_none {boot : Bool} (h : (s.ch g).lp.gl = false ∨ periodDue s g = false) : loopPeriod boot g s = s :=
  if_pos (by rcases h with h | h <;> simp [h])

section
variable (hgl : (s.ch g).lp.gl = true) (hdue : periodDue s g = true)
include hgl hdue

theorem loopPeriod_of_rest {boot : Bool} (hrest : (s.ch g).lp.toRest = true ∧ (s.ch g).lp.cmd = 0 ∧ (s.ch g).lp.iM.natAbs < 32768) :
    loopPeriod boot g s = gatesOff g (acirStopped g (periodTaken g s)) := by
  unfold loopPeriod
  dsimp only
  rw [if_neg (by rw [hgl, hdue]; decide), if_pos hrest]
  rfl

theorem loopPeriod_of_switching {boot : Bool} (hrest : (s.ch g).lp.toRest = false) (hstop : (s.ch g).lp.ctStop = false) :
    let u := periodStart boot g (periodTaken g s)
    let t := periodStore (loopMeans u g).1 (loopCompute (loopMeans u g).1 (loopMeans u g).2 u g) g u
    loopPeriod boot g s = if (t.die (g / 8)).busOvNow then busOvCh g t else t := by
  unfold loopPeriod
  dsimp only
  rw [if_neg (by rw [hgl, hdue]; decide), if_neg (by simp [hrest]), if_neg (by simp [hstop])]
  rfl

end

/-! A ramp to REST that has reached zero (R74, R85, R87). -/

theorem gatesOff_spec (hg : g < s.chans.length) : let t := gatesOff g s
    (t.ch g).lp.gl = false ∧ t.cget g CH_STAT_ACTIVE = 0 ∧ t.cget g CH_DUTY = 0 ∧ (t.ch g).acc = (s.ch g).acc := by
  unfold gatesOff idleFlags
  dsimp only
  refine ⟨?_, ?_, Device.cget_cset_self _ _ _ _ (by decide), ?_⟩
  · rw [Device.cset, Device.setReg_ch, Device.setReg_ch, ch_modLp hg]
  · rw [Device.cget_cset_apart _ g CH_DUTY CH_STAT_ACTIVE _ (by decide)]
    exact (congrArg CH_STAT_ACTIVE.get (Device.reg_setReg_self _ _ _)).trans (Fld.get_put_self _ _ _ (by decide) (by decide))
  · rw [Device.cset, Device.setReg_ch, Device.setReg_ch, ch_modLp hg]

theorem canonical_periodTaken {n : Nat} (hs : s.Canonical n) : (periodTaken g s).Canonical n := Device.canonical_modLp _ _ hs

theorem loopPeriod_rests {n : Nat} (hs : s.Canonical n) (hg : g < 64) (boot : Bool) (hgl : (s.ch g).lp.gl = true)
    (hdue : periodDue s g = true) (hrest : (s.ch g).lp.toRest = true ∧ (s.ch g).lp.cmd = 0 ∧ (s.ch g).lp.iM.natAbs < 32768) :
    let t := loopPeriod boot g s
    (t.ch g).lp.gl = false ∧ t.cget g CH_STAT_ACTIVE = 0 ∧ t.cget g CH_DUTY = 0 ∧ (t.ch g).acc = (s.ch g).acc := by
  have hlen : g < (acirStopped g (periodTaken g s)).chans.length := by
    rw [(canonical_acirStopped g (canonical_periodTaken hs)).chans]
    exact hg
  have hacc : ((periodTaken g s).ch g).acc = (s.ch g).acc := proj_ch_modCh Chan.acc (f := fun c => { c with
    lp := { c.lp with perAt := some (s.die (g / 8)).tick } }) (fun _ => rfl) g g
  rw [loopPeriod_of_rest hgl hdue hrest]
  obtain ⟨hlow, hactive, hduty, hsame⟩ := gatesOff_spec hlen
  exact ⟨hlow, hactive, hduty, hsame.trans ((acc_of_stage (stage_acirStopped _ hg)).trans hacc)⟩

/-! A period in CC (R70, R73, R77, R79). -/

/-- What a period reads is as the last clock left it. -/
theorem PeriodBegun.readings {boot : Bool} {t : Device} (h : PeriodBegun boot g s t) : modeOf t g = modeOf s g ∧
    isetOf t g = isetOf s g ∧ ilimOf t g = ilimOf s g ∧ t.cget g CH_SLEW = s.cget g CH_SLEW ∧ tonLo t g = tonLo s g ∧
    tonHi t g = tonHi s g := by
  have hword (f : Fld .ch) (h50 : f.off < 0x50) (h1 : f.off ≠ 1) (h2 : f.off ≠ 2) (hD : f.off ≠ 0x1D) : t.cget g f = s.cget g f :=
    congrArg f.get (h.words f.off h50 h1 h2 hD)
  have hfrc (f : Fld .ch) (h50 : f.off < 0x50) : t.cfrc g f = s.cfrc g f := congrArg f.get (h.force f.off h50)
  refine ⟨?_, ?_, ?_, ?_, ?_, ?_⟩
  · rw [modeOf, modeOf, hword CH_CTL_MODE (by decide) (by decide) (by decide) (by decide)]
  · rw [isetOf, isetOf, h.words 8 (by decide) (by decide) (by decide) (by decide)]
  · rw [ilimOf, ilimOf, hword CH_ILIM (by decide) (by decide) (by decide) (by decide), h.conv]
  · exact hword CH_SLEW (by decide) (by decide) (by decide) (by decide)
  · rw [tonLo, tonLo, hfrc CH_PWM_TON_MIN (by decide)]
  · rw [tonHi, tonHi, perOf, perOf, hfrc CH_PWM_PER (by decide), hfrc CH_PWM_TOFF_MIN (by decide), hfrc CH_DT_LH (by decide),
      hfrc CH_DT_HL (by decide)]

/-- The target of CC (R77). -/
def ccTarget (s : Device) (g : Nat) : Int := clampInt (-ilimOf s g) (ilimOf s g) (iWord (s.ch g).conv.kq (isetOf s g))

/-- The command of CC on its way to the target (R79). -/
def ccCommand (s : Device) (g : Nat) : Int :=
  let slew : Int := s.cget g CH_SLEW
  if slew = 0 then ccTarget s g else (s.ch g).lp.cmd + clampInt (-slew) slew (ccTarget s g - (s.ch g).lp.cmd)

theorem PeriodBegun.of_taken (hg : g < s.chans.length) {boot : Bool} {t : Device} (h : PeriodBegun boot g (periodTaken g s) t) :
    PeriodBegun boot g s t := by
  obtain ⟨hwords, hforce, hlp, hconv, hduty, hskip, hsat, hboot⟩ := h
  have htaken : (periodTaken g s).ch g = { s.ch g with lp := { (s.ch g).lp with perAt := some (s.die (g / 8)).tick } } := ch_modLp hg _
  have hskips : periodSkips boot g (periodTaken g s) = periodSkips boot g s := by rw [periodSkips, htaken, periodSkips]
  rw [hskips, htaken] at hlp
  rw [htaken] at hconv
  rw [hskips, htaken] at hduty
  rw [hskips] at hskip
  rw [htaken] at hsat
  exact ⟨hwords, hforce, hlp, hconv, hduty, hskip, hsat, hboot⟩

/-- The computation of a period that has begun in CC (R77, R79). -/
theorem PeriodBegun.computes {boot : Bool} {t : Device} (h : PeriodBegun boot g s t) (hmode : modeOf s g = 1)
    (hrest : (s.ch g).lp.toRest = false) (hstop : (s.ch g).lp.ctStop = false) (hclamp : (s.ch g).lp.clamp = 0) (iM vM : Int) :
    let o := loopCompute iM vM t g
    o.tgt = ccTarget s g ∧ o.cmd = ccCommand s g ∧ o.vint = (s.ch g).lp.vint ∧ o.volt = false ∧
    (tonLo s g ≤ tonHi s g → o.ton = 0 ∨ (tonLo s g ≤ o.ton ∧ o.ton ≤ tonHi s g)) := by
  obtain ⟨hm, hi, hlim, hslew, hlo, hhi⟩ := h.readings
  obtain ⟨htgt, hcmd, hvint, hvolt, hton⟩ := loopCompute_cc (hm.trans hmode) (by rw [h.lp]; exact hrest) (by rw [h.lp]; exact hstop)
    (by rw [h.lp]; exact hclamp) iM vM
  have hlp : (t.ch g).lp.cmd = (s.ch g).lp.cmd ∧ (t.ch g).lp.vint = (s.ch g).lp.vint := by
    rw [h.lp]
    exact ⟨rfl, rfl⟩
  rw [hi, hlim, h.conv] at htgt hcmd
  rw [hslew, hlp.1] at hcmd
  rw [hlo, hhi] at hton
  exact ⟨htgt, hcmd, hvint.trans hlp.2, hvolt, hton⟩

/-- What a period of a channel in CC leaves. -/
structure CcPeriod (boot : Bool) (g : Nat) (s t : Device) : Prop where
  duty : t.cget g CH_DUTY = if periodSkips boot g s then 0 else (s.ch g).lp.ton % 131072
  skip : t.cget g CH_STAT_SKIP = if periodSkips boot g s then 1 else 0
  sat : t.cget g CH_STAT_SAT = if (s.ch g).lp.satNext && !boot then 1 else 0
  bootUv : boot = true → t.cget g CH_FAULT_BOOT_UV = 1
  gl : (t.ch g).lp.gl = (s.ch g).lp.gl
  tgt : (t.ch g).lp.tgt = ccTarget s g
  cmd : (t.ch g).lp.cmd = ccCommand s g
  vint : (t.ch g).lp.vint = (s.ch g).lp.vint
  loop : t.cget g CH_STAT_LOOP = 1
  slewing : t.cget g CH_STAT_SLEWING = if ccCommand s g = ccTarget s g then 0 else 1
  edges : (t.ch g).lp.edges = if periodSkips boot g s then [] else periodEdges s g (s.ch g).lp.ton
  ton : tonLo s g ≤ tonHi s g → (t.ch g).lp.ton = 0 ∨ (tonLo s g ≤ (t.ch g).lp.ton ∧ (t.ch g).lp.ton ≤ tonHi s g)

theorem PeriodEnded.cc {boot : Bool} {t u : Device} {iM vM : Int} (hended : PeriodEnded iM (loopCompute iM vM t g) g t u)
    (hbegun : PeriodBegun boot g s t) (hmode : modeOf s g = 1) (hrest : (s.ch g).lp.toRest = false)
    (hstop : (s.ch g).lp.ctStop = false) (hclamp : (s.ch g).lp.clamp = 0) : CcPeriod boot g s u := by
  obtain ⟨htgt, hcmd, hvint, -, hton⟩ := hbegun.computes hmode hrest hstop hclamp iM vM
  obtain ⟨hlp, hloop, hslewing, hwords⟩ := hended
  obtain ⟨hduty, hskip, hsat, hboot, -⟩ := by simpa only [List.forall_mem_cons] using hwords
  rw [htgt, hcmd] at hslewing
  refine ⟨hduty.trans hbegun.duty, hskip.trans hbegun.skip, hsat.trans hbegun.sat, fun hb => hboot.trans (hbegun.bootUv hb),
    ?_, ?_, ?_, ?_, hloop, hslewing, ?_, ?_⟩ <;> rw [hlp]
  · exact (show _ = (t.ch g).lp.gl from rfl).trans (by rw [hbegun.lp])
  · exact htgt
  · exact hcmd
  · exact hvint
  · exact (show _ = (t.ch g).lp.edges from rfl).trans (by rw [hbegun.lp])
  · exact hton

theorem loopPeriod_cc {n : Nat} (hs : s.Canonical n) (hg : g < 64) (boot : Bool) (hgl : (s.ch g).lp.gl = true) (hdue : periodDue s g = true)
    (hrest : (s.ch g).lp.toRest = false) (hstop : (s.ch g).lp.ctStop = false) (hclamp : (s.ch g).lp.clamp = 0)
    (hmode : modeOf s g = 1) (hbus : (s.die (g / 8)).busOvNow = false) : CcPeriod boot g s (loopPeriod boot g s) := by
  have htaken : (periodTaken g s).Canonical n := canonical_periodTaken hs
  have hbegun := (periodStart_begins (htaken.chans ▸ hg) boot).of_taken (hs.chans ▸ hg)
  have hperiod := loopPeriod_of_switching (boot := boot) hgl hdue hrest hstop
  dsimp only at hperiod
  generalize hu : periodStart boot g (periodTaken g s) = u at hbegun hperiod
  generalize (loopMeans u g).1 = iM, (loopMeans u g).2 = vM at hperiod
  have hvolt := (hbegun.computes hmode hrest hstop hclamp iM vM).2.2.2.1
  have hbusAfter : ((periodStore iM (loopCompute iM vM u g) g u).die (g / 8)).busOvNow = false := by
    have htakenOnly : (periodTaken g s).Only s g := Device.only_modLp _ (Device.only_refl s hg)
    obtain ⟨-, honly⟩ := only_periodStore iM (loopCompute iM vM u g) (hu ▸ only_periodStart boot htakenOnly)
    obtain ⟨x, hx⟩ := honly.own
    rw [hx]
    exact hbus
  rw [hperiod, if_neg (by rw [hbusAfter]; decide)]
  exact (periodStore_ends (by rw [← hu, (canonical_periodStart boot g htaken).chans]; exact hg) iM (by rw [hbegun.lp]; exact hclamp) hvolt).cc
    hbegun hmode hrest hstop hclamp

end

end Sys2Proof.Machine
end

section
/-! Proofs of the family of the power stage: the compliance clamp and the fast sample (O26). -/

namespace Sys2Proof.Machine

/-! The compliance clamp (R89). -/

/-- The loop under a clamp. -/
def clampedLoop (upper : Bool) (now : Nat) (l : Loop) : Loop := { l with
  clamp := if upper then 1 else 2, clampOk := 0, cmd := if upper then min l.cmd 0 else max l.cmd 0, edges := endPulse upper now l }

theorem endPulse_upper {l : Loop} {now a b c e : Nat} (h : l.edges = [a, b, c, e]) (hb : b ≤ now) (hc : now < c) :
    endPulse true now l = [a, b, now, now + (e - c)] := by
  simp [endPulse, h, hb, hc]

theorem endPulse_lower {l : Loop} {now a b c e : Nat} (h : l.edges = [a, b, c, e]) (he : e ≤ now) :
    endPulse false now l = [a, b, c, e, now] := by
  simp [endPulse, h, he]

section
variable {g : Nat} {s : Device}

/-- The clamp's operation on a channel that it takes. -/
def underClamp (upper : Bool) (g : Nat) (s : Device) : Device :=
  (s.modLp g (clampedLoop upper (32 * periodTick s g))).cset g CH_STAT_LOOP 3

theorem clampEngage_of {upper : Bool} (hgl : (s.ch g).lp.gl = true) (h : beyondLimit s g (s.cget g CH_VFORCE) upper = true) :
    clampEngage upper g s = underClamp upper g s := if_pos (by rw [hgl, h]; rfl)

theorem clampEngage_of_not {upper : Bool} (h : (s.ch g).lp.gl = false ∨ beyondLimit s g (s.cget g CH_VFORCE) upper = false) :
    clampEngage upper g s = s := if_neg (by rcases h with h | h <;> simp [h])

theorem ch_underClamp (hg : g < s.chans.length) (upper : Bool) : (underClamp upper g s).ch g =
    { s.ch g with lp := clampedLoop upper (32 * periodTick s g) (s.ch g).lp } := by
  rw [underClamp, Device.cset, Device.setReg_ch, ch_modLp hg]

theorem loop_underClamp (upper : Bool) : (underClamp upper g s).cget g CH_STAT_LOOP = 3 := Device.cget_cset_self _ g CH_STAT_LOOP 3 (by decide)

theorem chanOnly_underClamp (upper : Bool) : ChanOnly g (· = chAddr g 1) s (underClamp upper g s) :=
  chanOnly_sense CH_STAT_LOOP 3 _

/-- What a fast sample's clamp may change: LOOP and the clamp's own part of the loop. -/
structure ClampOnly (g : Nat) (s t : Device) : Prop where
  words : ∀ off, off ≠ 1 → t.reg (chAddr g off) = s.reg (chAddr g off)
  ch : t.ch g = { s.ch g with lp := { (s.ch g).lp with
    clamp := (t.ch g).lp.clamp, clampOk := (t.ch g).lp.clampOk, cmd := (t.ch g).lp.cmd, edges := (t.ch g).lp.edges, ct3 := (t.ch g).lp.ct3 } }

theorem clampOnly_refl : ClampOnly g s s := ⟨fun _ _ => rfl, rfl⟩

theorem clampOnly_underClamp (hg : g < s.chans.length) (upper : Bool) : ClampOnly g s (underClamp upper g s) :=
  ⟨fun _ h1 => reg_cset_ne (f := CH_STAT_LOOP) h1 3 _, by rw [ch_underClamp hg]; rfl⟩

theorem clampOnly_clampEngage (hg : g < s.chans.length) (upper : Bool) : ClampOnly g s (clampEngage upper g s) := by
  by_cases h : ((s.ch g).lp.gl && beyondLimit s g (s.cget g CH_VFORCE) upper) = true
  · rw [Bool.and_eq_true_iff] at h
    rw [clampEngage_of h.1 h.2]
    exact clampOnly_underClamp hg upper
  · rw [clampEngage, if_neg h]
    exact clampOnly_refl

/-- A change of the clamp's own part of the loop. -/
theorem clampOnly_modLp (hg : g < s.chans.length) {f : Loop → Loop} (hf : ∀ l, f l = { l with
    clamp := (f l).clamp, clampOk := (f l).clampOk, cmd := (f l).cmd, edges := (f l).edges, ct3 := (f l).ct3 }) :
    ClampOnly g s (s.modLp g f) := by
  refine ⟨fun _ _ => rfl, ?_⟩
  rw [ch_modLp hg]
  exact congrArg (fun l => { s.ch g with lp := l }) (hf _)

theorem clampOnly_clampSample (hg : g < s.chans.length) (vf : Nat) : ClampOnly g s (clampSample g vf s) := by
  unfold clampSample
  dsimp only
  split_ifs
  · exact clampOnly_clampEngage hg true
  · exact clampOnly_clampEngage hg false
  · exact clampOnly_refl
  · exact clampOnly_modLp hg fun _ => rfl
  · exact clampOnly_modLp hg fun _ => rfl
  · obtain ⟨-, hch⟩ := clampOnly_modLp (s := s) hg (f := fun l => { l with clamp := 0, clampOk := 0, ct3 := 0 }) fun _ => rfl
    exact ⟨fun _ h1 => reg_cset_ne (f := CH_STAT_LOOP) h1 1 _, hch⟩

section
variable {vf : Nat} (hgl : (s.ch g).lp.gl = true)
include hgl

theorem clampSample_above (hvf : s.cget g CH_VFORCE = vf) (h : beyondLimit s g vf true = true) : clampSample g vf s = underClamp true g s := by
  rw [clampSample, if_pos (by rw [hgl, h]; rfl), clampEngage_of hgl (by rw [hvf]; exact h)]

theorem clampSample_below (hvf : s.cget g CH_VFORCE = vf) (habove : beyondLimit s g vf true = false) (h : beyondLimit s g vf false = true) :
    clampSample g vf s = underClamp false g s := by
  rw [clampSample, if_neg (by rw [habove]; simp), if_pos (by rw [hgl, h]; rfl), clampEngage_of hgl (by rw [hvf]; exact h)]

end

theorem not_beyond_of_inside {vf : Nat} (h : clampInside s g vf = true) (upper : Bool) : beyondLimit s g vf upper = false := by
  obtain ⟨hfloor, hcomply⟩ := of_decide_eq_true h
  cases upper
  · exact decide_eq_false (by omega)
  · exact decide_eq_false (by omega)

/-- A sample inside the limits: the eighth in a row ends the clamp (R89). -/
theorem clamp_clampSample_inside (hg : g < s.chans.length) {vf : Nat} (hstop : (s.ch g).lp.ctStop = false)
    (hclamp : (s.ch g).lp.clamp ≠ 0) (h : clampInside s g vf = true) : ((clampSample g vf s).ch g).lp.clamp =
      if 7 ≤ (s.ch g).lp.clampOk then 0 else (s.ch g).lp.clamp := by
  have hbeyond := not_beyond_of_inside h
  unfold clampSample
  dsimp only
  rw [if_neg (by rw [hbeyond]; simp), if_neg (by rw [hbeyond]; simp), if_neg (by simp [hclamp, hstop]), if_neg (by rw [h]; decide)]
  by_cases hrow : (s.ch g).lp.clampOk + 1 < 8
  · rw [if_pos hrow, if_neg (by omega), ch_modLp hg]
  · rw [if_neg hrow, if_pos (by omega), Device.cset, Device.setReg_ch, ch_modLp hg]

/-! The contact criteria (R90). -/

/-- What a fast sample counts and shows whatever the criteria decide. -/
def fastCount (g : Nat) (s : Device) : Nat × Acc × Nat := ((s.ch g).lp.nFast, (s.ch g).acc, s.cget g CH_VFORCE)

theorem fastCount_of_stage {t : Device} (h : stage g t = stage g s) : fastCount g t = fastCount g s := by
  rw [fastCount, lp_of_stage h, acc_of_stage h, cget_of_stage h _ (by decide), fastCount]

theorem fastCount_modLp {f : Loop → Loop} (hf : ∀ l, (f l).nFast = l.nFast) : fastCount g (s.modLp g f) = fastCount g s := by
  have hview := proj_ch_modCh (s := s) (fun c : Chan => (c.lp.nFast, c.acc)) (f := fun c => { c with lp := f c.lp })
    (fun c => by rw [hf]) g g
  obtain ⟨hfast, hacc⟩ := Prod.mk.inj hview
  exact congrArg₂ (fun n a => (n, a, s.cget g CH_VFORCE)) hfast hacc

theorem fastCount_setReg {a : Nat} (ha : chAddr g 0x1E ≠ a) (w : Word) : fastCount g (s.setReg a w) = fastCount g s := by
  rw [fastCount, Device.setReg_ch, Device.cget_setReg_ne s (f := CH_VFORCE) ha, fastCount]

theorem fastCount_cset {f : Fld .ch} (hf : f.off ≠ 0x1E) (v : Nat) : fastCount g (s.cset g f v) = fastCount g s :=
  fastCount_setReg (by unfold chAddr; omega) _

theorem fastCount_takeFirst (code was : Nat) : fastCount g (takeFirst code g was s) = fastCount g s := by
  unfold takeFirst
  split_ifs
  · rw [fastCount_modLp, fastCount_cset (f := CH_FAULT_FIRST) (by decide)]
    exact fun _ => rfl
  · exact fastCount_cset (by decide) code
  · rfl

theorem fastCount_setChFault (bit : Nat) : fastCount g (setChFault bit g s) = fastCount g s := by
  unfold setChFault
  dsimp only
  split_ifs
  · rfl
  · rw [fastCount_of_stage (stage_logEvent ..), fastCount_takeFirst, fastCount_setReg (by unfold chAddr; omega)]
  · rw [fastCount_of_stage (stage_logEvent ..), fastCount_setReg (by unfold chAddr; omega)]

theorem fastCount_contactFault : fastCount g (contactFault g s) = fastCount g s := by
  unfold contactFault
  dsimp only
  rw [fastCount_modLp, apply_ite (fastCount g), fastCount_of_stage (stage_modDue ..), ite_self, fastCount_setChFault]
  exact fun _ => rfl

theorem fastCount_contactSample (vf : Nat) : fastCount g (contactSample g vf s) = fastCount g s := by
  unfold contactSample
  dsimp only
  rw [apply_ite (fastCount g), apply_ite (fastCount g), apply_ite (fastCount g), fastCount_contactFault, ite_self]
  split_ifs
  · rfl
  all_goals exact fastCount_modLp fun _ => rfl

theorem contactSample_of_blank {vf : Nat} (hstop : (s.ch g).lp.ctStop = false) (hblank : 0 < (s.ch g).lp.blank) :
    contactSample g vf s = s.modLp g fun l => { l with blank := l.blank - 1 } := by
  rw [contactSample, if_neg (by simp [hstop]), if_pos hblank]

/-! The words of a window (R91, R109). -/

/-- What a fast sample makes of a channel before its clamp and its contact criteria. -/
structure SampleShown (v g : Nat) (s t : Device) : Prop where
  words : ∀ off, off < 0x50 → off ≠ 0x10 → off ≠ 0x11 → off ≠ 0x1E → t.reg (chAddr g off) = s.reg (chAddr g off)
  vforce : t.cget g CH_VFORCE = v
  lp : (t.ch g).lp = { (s.ch g).lp with
    sumI := (t.ch g).lp.sumI, sumV := (t.ch g).lp.sumV, nFast := (s.ch g).lp.nFast + 1 }
  acc : (t.ch g).acc = (s.ch g).acc

/-- A fast sample before its clamp. -/
def sampleShown (bq : Int × Int) (v g : Nat) (s : Device) : Device :=
  overloadClip g (acirSample g ((fastChannel bq g s).cset g CH_VFORCE v))

theorem fastOne_eq (bq : Int × Int) (vf : List Nat) : fastOne bq vf g s =
    contactSample g (nth vf g % 1024) (clampSample g (nth vf g % 1024) (sampleShown bq (nth vf g % 1024) g s)) := rfl

theorem stage_sampleShown (bq : Int × Int) (v : Nat) : stage g (sampleShown bq v g s) = stage g ((fastChannel bq g s).cset g CH_VFORCE v) := by
  unfold sampleShown overloadClip
  rw [apply_ite (stage g), stage_acirClip, ite_self, stage_acirSample]

theorem reg_fastChannel (bq : Int × Int) {off : Nat} (h10 : off ≠ 0x10) (h11 : off ≠ 0x11) :
    (fastChannel bq g s).reg (chAddr g off) = s.reg (chAddr g off) := by
  unfold fastChannel
  dsimp only
  rw [Device.reg_setReg_ne _ (by unfold chAddr; omega), Device.reg_setReg_ne _ (by unfold chAddr; omega)]
  split_ifs <;> rfl

theorem fastChannel_counts (bq : Int × Int) (hg : g < s.chans.length) : let t := fastChannel bq g s
    (t.ch g).lp = { (s.ch g).lp with sumI := (t.ch g).lp.sumI, sumV := (t.ch g).lp.sumV, nFast := (s.ch g).lp.nFast + 1 } ∧
    (t.ch g).acc = (s.ch g).acc := by
  have hspent : (if carried s g then s.spend 2 else s).ch g = s.ch g ∧ (if carried s g then s.spend 2 else s).chans = s.chans := by
    split_ifs <;> exact ⟨rfl, rfl⟩
  unfold fastChannel
  dsimp only
  rw [Device.setReg_ch, Device.setReg_ch, Device.ch_modCh_self _ (by rw [hspent.2]; exact hg), hspent.1]
  exact ⟨rfl, rfl⟩

theorem sampleShown_shows (bq : Int × Int) {v : Nat} (hv : v < 1024) (hg : g < s.chans.length) :
    SampleShown v g s (sampleShown bq v g s) := by
  have hstage := stage_sampleShown (g := g) (s := s) bq v
  obtain ⟨hlp, hacc⟩ := fastChannel_counts bq hg
  refine ⟨fun off h50 h10 h11 h1E => ?_, ?_, ?_, ?_⟩
  · rw [reg_of_stage hstage h50, reg_cset_ne (f := CH_VFORCE) h1E, reg_fastChannel bq h10 h11]
  · rw [cget_of_stage hstage _ (by decide), Device.cget_cset_self _ _ _ _ (by decide)]
    exact Nat.mod_eq_of_lt hv
  · rw [lp_of_stage hstage, Device.cset, Device.setReg_ch]
    exact hlp
  · rw [acc_of_stage hstage, Device.cset, Device.setReg_ch]
    exact hacc

/-! One channel's fast sample (R89, R90, R109). -/

/-- A switching channel in blanking, which heads for no stop. -/
def InBlank (l : Loop) : Prop := l.gl = true ∧ l.ctStop = false ∧ 0 < l.blank

/-- What a fast sample of the force code v leaves of a channel. -/
structure FastTaken (v g : Nat) (s t : Device) : Prop where
  vforce : t.cget g CH_VFORCE = v
  nFast : (t.ch g).lp.nFast = (s.ch g).lp.nFast + 1
  acc : (t.ch g).acc = (s.ch g).acc
  blank : InBlank (s.ch g).lp → (t.ch g).lp.blank = (s.ch g).lp.blank - 1 ∧ (t.ch g).lp.ct1 = (s.ch g).lp.ct1 ∧
    (t.ch g).lp.vfHist = (s.ch g).lp.vfHist ∧ t.reg (chAddr g 2) = s.reg (chAddr g 2)
  inside : InBlank (s.ch g).lp → (s.ch g).lp.clamp ≠ 0 → clampInside s g v = true →
    (t.ch g).lp.clamp = if 7 ≤ (s.ch g).lp.clampOk then 0 else (s.ch g).lp.clamp
  above : InBlank (s.ch g).lp → beyondLimit s g v true = true →
    (t.ch g).lp.clamp = 1 ∧ (t.ch g).lp.cmd ≤ 0 ∧ t.cget g CH_STAT_LOOP = 3
  below : InBlank (s.ch g).lp → beyondLimit s g v true = false → beyondLimit s g v false = true →
    (t.ch g).lp.clamp = 2 ∧ 0 ≤ (t.ch g).lp.cmd ∧ t.cget g CH_STAT_LOOP = 3

section
variable {v : Nat} {u : Device}

theorem SampleShown.limits (h : SampleShown v g s u) : (∀ upper, beyondLimit u g v upper = beyondLimit s g v upper) ∧
    clampInside u g v = clampInside s g v := by
  have hword : u.reg (chAddr g 0xD) = s.reg (chAddr g 0xD) := h.words 0xD (by decide) (by decide) (by decide) (by decide)
  have hcomply : u.cget g CH_COMPLY_VCOMPLY = s.cget g CH_COMPLY_VCOMPLY := congrArg CH_COMPLY_VCOMPLY.get hword
  have hfloor : u.cget g CH_COMPLY_VFLOOR = s.cget g CH_COMPLY_VFLOOR := congrArg CH_COMPLY_VFLOOR.get hword
  refine ⟨fun upper => ?_, ?_⟩
  · rw [beyondLimit, beyondLimit, hcomply, hfloor]
  · rw [clampInside, clampInside, hcomply, hfloor]

theorem SampleShown.inBlank (h : SampleShown v g s u) (hb : InBlank (s.ch g).lp) : InBlank (u.ch g).lp := by
  rw [h.lp]
  exact hb

theorem ClampOnly.inBlank {t : Device} (h : ClampOnly g u t) (hb : InBlank (u.ch g).lp) : InBlank (t.ch g).lp := by
  rw [h.ch]
  exact hb

/-- The clamp and the contact criteria of a channel in blanking. -/
theorem contactSample_clampSample (hg : g < u.chans.length) (hb : InBlank (u.ch g).lp) :
    contactSample g v (clampSample g v u) = (clampSample g v u).modLp g fun l => { l with blank := l.blank - 1 } := by
  obtain ⟨-, hstop, hblank⟩ := (clampOnly_clampSample hg v).inBlank hb
  exact contactSample_of_blank hstop hblank

theorem SampleShown.taken (h : SampleShown v g s u) (hg : g < u.chans.length) (hlen : (clampSample g v u).chans.length = u.chans.length) :
    FastTaken v g s (contactSample g v (clampSample g v u)) := by
  have hclamp := clampOnly_clampSample hg v
  obtain ⟨hbeyond, hinside⟩ := h.limits
  obtain ⟨hfast, hacc, hforce⟩ := by simpa only [fastCount, Prod.mk.injEq] using fastCount_contactSample (g := g) (s := clampSample g v u) v
  have hlp (hb : InBlank (s.ch g).lp) : ((contactSample g v (clampSample g v u)).ch g).lp =
      { ((clampSample g v u).ch g).lp with blank := ((clampSample g v u).ch g).lp.blank - 1 } := by
    rw [contactSample_clampSample hg (h.inBlank hb), ch_modLp (hlen ▸ hg)]
  have hreg (hb : InBlank (s.ch g).lp) (a : Nat) : (contactSample g v (clampSample g v u)).reg a = (clampSample g v u).reg a := by
    rw [contactSample_clampSample hg (h.inBlank hb), reg_modLp]
  refine ⟨?_, ?_, ?_, fun hb => ⟨?_, ?_, ?_, ?_⟩, fun hb hne hin => ?_, fun hb hup => ?_, fun hb hup hlow => ?_⟩
  · rw [hforce]
    exact (congrArg CH_VFORCE.get (hclamp.words 0x1E (by decide))).trans h.vforce
  · rw [hfast, hclamp.ch, h.lp]
  · rw [hacc, hclamp.ch, h.acc]
  · rw [hlp hb, hclamp.ch, h.lp]
  · rw [hlp hb, hclamp.ch, h.lp]
  · rw [hlp hb, hclamp.ch, h.lp]
  · rw [hreg hb, hclamp.words 2 (by decide), h.words 2 (by decide) (by decide) (by decide) (by decide)]
  · obtain ⟨-, hstop, -⟩ := h.inBlank hb
    have hkept : (u.ch g).lp.clamp = (s.ch g).lp.clamp ∧ (u.ch g).lp.clampOk = (s.ch g).lp.clampOk := by rw [h.lp]; exact ⟨rfl, rfl⟩
    rw [hlp hb]
    refine (clamp_clampSample_inside hg hstop (by rwa [hkept.1]) (hinside.trans hin)).trans ?_
    rw [hkept.1, hkept.2]
  · rw [hlp hb, Device.cget, hreg hb, clampSample_above (h.inBlank hb).1 h.vforce ((hbeyond true).trans hup), ch_underClamp hg]
    exact ⟨rfl, min_le_right _ _, loop_underClamp true⟩
  · rw [hlp hb, Device.cget, hreg hb, clampSample_below (h.inBlank hb).1 h.vforce ((hbeyond true).trans hup) ((hbeyond false).trans hlow),
      ch_underClamp hg]
    exact ⟨rfl, le_max_right _ _, loop_underClamp false⟩

end

theorem fastOne_takes {n : Nat} (hs : s.Canonical n) (hg : g < 64) (bq : Int × Int) (vf : List Nat) :
    FastTaken (nth vf g % 1024) g s (fastOne bq vf g s) := by
  have hv : nth vf g % 1024 < 1024 := Nat.mod_lt _ (by decide)
  have hcanon : (sampleShown bq (nth vf g % 1024) g s).Canonical n :=
    canonical_overloadClip g (canonical_acirSample g (Device.canonical_cset _ _ _ (canonical_fastChannel bq g hs)))
  rw [fastOne_eq]
  refine (sampleShown_shows bq hv (hs.chans ▸ hg)).taken (hcanon.chans ▸ hg) ?_
  rw [(canonical_clampSample g _ hcanon).chans, hcanon.chans]

/-! The other channels' fast samples. -/

theorem only_fastChannel {s0 : Device} (bq : Int × Int) (h : s.Only s0 g) : (fastChannel bq g s).Only s0 g := by
  have hspent : (if carried s g then s.spend 2 else s).Only s0 g := Device.only_ite (fun _ => Device.only_spend 2 h) fun _ => h
  exact Device.only_chReg 0x11 _ (by decide) (Device.only_chReg 0x10 _ (by decide) (Device.only_modCh _ hspent))

theorem only_acirSample {s0 : Device} (h : s.Only s0 g) : (acirSample g s).Only s0 g :=
  Device.only_ite (fun _ => Device.only_ite (fun _ => Device.only_modAcir _ h) fun _ => h) fun _ => h

theorem only_overloadClip {s0 : Device} (h : s.Only s0 g) : (overloadClip g s).Only s0 g :=
  Device.only_ite (fun _ => only_acirClip h) fun _ => h

theorem only_clampSample {s0 : Device} (vf : Nat) (h : s.Only s0 g) : (clampSample g vf s).Only s0 g := by
  unfold clampSample
  dsimp only
  split_ifs
  · exact only_clampEngage true h
  · exact only_clampEngage false h
  · exact h
  · exact Device.only_modLp _ h
  · exact Device.only_modLp _ h
  · exact Device.only_cset CH_STAT_LOOP 1 (by decide) (Device.only_modLp _ h)

theorem only_contactFault {s0 : Device} (h : s.Only s0 g) : (contactFault g s).Only s0 g := by
  have hfault : (setChFault 3 g s).Only s0 g := only_setChFault 3 h
  unfold contactFault
  dsimp only
  exact Device.only_modLp _ (Device.only_ite (fun _ => Device.only_modDue _ hfault) fun _ => hfault)

theorem only_contactSample {s0 : Device} (vf : Nat) (h : s.Only s0 g) : (contactSample g vf s).Only s0 g := by
  unfold contactSample
  dsimp only
  refine Device.only_ite (fun _ => h) fun _ => Device.only_ite (fun _ => Device.only_modLp _ h) fun _ => ?_
  exact Device.only_ite (fun _ => only_contactFault (Device.only_modLp _ h)) fun _ => Device.only_modLp _ h

theorem only_fastOne {s0 : Device} (bq : Int × Int) (vf : List Nat) (h : s.Only s0 g) : (fastOne bq vf g s).Only s0 g :=
  only_contactSample _ (only_clampSample _ (only_overloadClip (only_acirSample
    (Device.only_cset CH_VFORCE _ (by decide) (only_fastChannel bq h)))))

/-- A channel and its words are as they were. -/
structure SameChan (g : Nat) (s t : Device) : Prop where
  ch : t.ch g = s.ch g
  words : ∀ off, off < 128 → t.reg (chAddr g off) = s.reg (chAddr g off)

theorem SameChan.trans {t u : Device} (hst : SameChan g s t) (htu : SameChan g t u) : SameChan g s u :=
  ⟨htu.ch.trans hst.ch, fun off ho => (htu.words off ho).trans (hst.words off ho)⟩

theorem sameChan_of_only {h : Nat} {t : Device} (hne : g ≠ h) (ht : t.Only s h) : SameChan g s t :=
  ⟨ht.2.chans g hne, fun off ho => ht.2.words g off hne ho⟩

/-- What comes before a channel's fast sample leaves the channel as it was. -/
theorem FastTaken.after_same {v : Nat} {t u : Device} (h : SameChan g s t) (htaken : FastTaken v g t u) : FastTaken v g s u := by
  have hword (f : Fld .ch) (hf : f.off < 128) : t.cget g f = s.cget g f := congrArg f.get (h.words f.off hf)
  have hbeyond (upper : Bool) : beyondLimit t g v upper = beyondLimit s g v upper := by
    rw [beyondLimit, beyondLimit, hword CH_COMPLY_VCOMPLY (by decide), hword CH_COMPLY_VFLOOR (by decide)]
  have hinside : clampInside t g v = clampInside s g v := by
    rw [clampInside, clampInside, hword CH_COMPLY_VCOMPLY (by decide), hword CH_COMPLY_VFLOOR (by decide)]
  obtain ⟨hforce, hfast, hacc, hblank, hin, habove, hbelow⟩ := htaken
  rw [h.ch] at hfast hacc hblank hin habove hbelow
  rw [h.words 2 (by decide)] at hblank
  rw [hinside] at hin
  rw [hbeyond] at habove
  rw [hbeyond, hbeyond] at hbelow
  exact ⟨hforce, hfast, hacc, hblank, hin, habove, hbelow⟩

/-- What comes after a channel's fast sample leaves what it made of the channel. -/
theorem FastTaken.before_same {v : Nat} {t u : Device} (htaken : FastTaken v g s t) (h : SameChan g t u) : FastTaken v g s u := by
  have hword (f : Fld .ch) (hf : f.off < 128) : u.cget g f = t.cget g f := congrArg f.get (h.words f.off hf)
  obtain ⟨hforce, hfast, hacc, hblank, hin, habove, hbelow⟩ := htaken
  rw [← h.ch] at hfast hacc hblank hin habove hbelow
  rw [← hword _ (by decide)] at hforce habove hbelow
  rw [← h.words 2 (by decide)] at hblank
  exact ⟨hforce, hfast, hacc, hblank, hin, habove, hbelow⟩

/-! The fast sample of every die (R109). -/

/-- A die's window is taken, and its bench's words follow. -/
def fastWindow (d : Nat) (s : Device) : Device :=
  let p := benchFast d (s.modDie d fun x => { x with fastDue := false })
  benchHold p.1.2 d p.2

theorem fastDie_of_due {vf : List Nat} {d : Nat} (hup : (s.die d).up = true) (hdue : (s.die d).fastDue = true) (hclk : s.clk % 16 = 3) :
    ∃ bq, fastDie vf d s = (fastWindow d s).each (chansOf d) (fastOne bq vf) := by
  rw [fastDie, if_pos (by rw [hup, hdue, hclk]; rfl)]
  exact ⟨_, rfl⟩

theorem fastDie_of_not {vf : List Nat} {d : Nat} (h : (s.die d).up = false ∨ (s.die d).fastDue = false ∨ s.clk % 16 ≠ 3) :
    fastDie vf d s = s := if_neg (by rcases h with h | h | h <;> simp [h])

theorem sameChan_fastWindow (d : Nat) : SameChan g s (fastWindow d s) := ⟨rfl, fun _ _ => rfl⟩

theorem canonical_fastWindow {n : Nat} (d : Nat) (hs : s.Canonical n) : (fastWindow d s).Canonical n :=
  canonical_benchHold _ d (canonical_benchFast d (Device.canonical_modDie _ _ hs))

/-- The window of a die beside a channel's leaves the channel, and the window of its own die. -/
structure DieBeside (g : Nat) (s t : Device) : Prop where
  same : SameChan g s t
  up : (t.die (g / 8)).up = (s.die (g / 8)).up
  fastDue : (t.die (g / 8)).fastDue = (s.die (g / 8)).fastDue
  clk : t.clk = s.clk

theorem dieBeside_refl : DieBeside g s s := ⟨⟨rfl, fun _ _ => rfl⟩, rfl, rfl, rfl⟩

theorem DieBeside.trans {t u : Device} (hst : DieBeside g s t) (htu : DieBeside g t u) : DieBeside g s u :=
  ⟨hst.same.trans htu.same, htu.up.trans hst.up, htu.fastDue.trans hst.fastDue, htu.clk.trans hst.clk⟩

theorem dieBeside_of_only {h : Nat} {t : Device} (hne : g / 8 ≠ h / 8) (ht : t.Only s h) : DieBeside g s t := by
  have hdie : t.die (g / 8) = s.die (g / 8) := ht.2.dies _ hne
  exact ⟨sameChan_of_only (by rintro rfl; exact hne rfl) ht, by rw [hdie], by rw [hdie], by rw [ht.2.rest]⟩

theorem dieBeside_fastWindow {d : Nat} (hd : g / 8 ≠ d) : DieBeside g s (fastWindow d s) := by
  have hdie : (fastWindow d s).die (g / 8) = s.die (g / 8) :=
    (Device.die_modDie_ne _ hd _).trans ((Device.die_modDie_ne _ hd _).trans (Device.die_modDie_ne s hd _))
  exact ⟨sameChan_fastWindow d, by rw [hdie], by rw [hdie], rfl⟩

theorem dieBeside_fastDie (vf : List Nat) {d : Nat} (hd8 : d < 8) (hd : g / 8 ≠ d) : DieBeside g s (fastDie vf d s) := by
  by_cases h : ((s.die d).up && (s.die d).fastDue && s.clk % 16 == 3) = true
  · simp only [Bool.and_eq_true, beq_iff_eq] at h
    obtain ⟨⟨hup, hdue⟩, hclk⟩ := h
    obtain ⟨bq, heq⟩ := fastDie_of_due (vf := vf) hup hdue hclk
    rw [heq]
    refine each_keeps (I := DieBeside g s) _ (dieBeside_fastWindow hd) fun h hh t ht => ht.trans ?_
    have hdie := mem_chansOf.mp hh
    exact dieBeside_of_only (by rwa [hdie]) (only_fastOne bq vf (Device.only_refl t (by omega)))
  · rw [fastDie, if_neg h]
    exact dieBeside_refl

section
variable {n : Nat} (hs : s.Canonical n) (vf : List Nat)
include hs

theorem fastDie_takes (hg : g < 64) (hup : (s.die (g / 8)).up = true) (hdue : (s.die (g / 8)).fastDue = true) (hclk : s.clk % 16 = 3) :
    FastTaken (nth vf g % 1024) g s (fastDie vf (g / 8) s) := by
  obtain ⟨bq, heq⟩ := fastDie_of_due (vf := vf) hup hdue hclk
  have hother {h : Nat} (hh : h ∈ chansOf (g / 8)) (hne : h ≠ g) (t : Device) : SameChan g t (fastOne bq vf h t) := by
    have hdie := mem_chansOf.mp hh
    exact sameChan_of_only hne.symm (only_fastOne bq vf (Device.only_refl t (by omega)))
  rw [heq]
  exact each_once (I := fun t => t.Canonical n ∧ SameChan g s t) (nodup_chansOf _) (mem_chansOf.mpr rfl)
    ⟨canonical_fastWindow _ hs, sameChan_fastWindow _⟩
    (fun h hh hne t ht => ⟨canonical_fastOne bq vf h ht.1, ht.2.trans (hother hh hne t)⟩)
    (fun t ht => (fastOne_takes ht.1 hg bq vf).after_same ht.2) fun h hh hne t ht => ht.before_same (hother hh hne t)

theorem fastSample_takes (h8 : s.nDies ≤ 8) (hd : g / 8 < s.nDies) (hup : (s.die (g / 8)).up = true)
    (hdue : (s.die (g / 8)).fastDue = true) (hclk : s.clk % 16 = 3) : FastTaken (nth vf g % 1024) g s (fastSample vf s) := by
  have hapart {d : Nat} (hmem : d ∈ s.dieList) (hne : d ≠ g / 8) (t : Device) : DieBeside g t (fastDie vf d t) := by
    have := List.mem_range.mp hmem
    exact dieBeside_fastDie vf (by omega) hne.symm
  refine each_once (I := fun t => t.Canonical n ∧ DieBeside g s t) List.nodup_range (List.mem_range.mpr hd) ⟨hs, dieBeside_refl⟩
    (fun d hmem hne t ht => ⟨canonical_fastDie vf d ht.1, ht.2.trans (hapart hmem hne t)⟩) (fun t ht => ?_)
    fun d hmem hne t ht => ht.before_same (hapart hmem hne t).same
  obtain ⟨hcanon, hsame, hupAt, hdueAt, hclkAt⟩ := ht
  exact (fastDie_takes hcanon vf (by omega) (hupAt.trans hup) (hdueAt.trans hdue) (by rw [hclkAt, hclk])).after_same hsame

end

theorem fastSample_none (vf : List Nat) (h8 : s.nDies ≤ 8)
    (h : (s.die (g / 8)).up = false ∨ (s.die (g / 8)).fastDue = false ∨ s.clk % 16 ≠ 3) : (fastSample vf s).ch g = s.ch g := by
  refine (each_keeps (I := DieBeside g s) s.dieList dieBeside_refl fun d hmem t ht => ?_).same.ch
  have := List.mem_range.mp hmem
  by_cases hd : g / 8 = d
  · subst hd
    rwa [fastDie_of_not (by rwa [ht.up, ht.fastDue, ht.clk])]
  · exact ht.trans (dieBeside_fastDie vf (by omega) hd)

end

/-! The commands, as the dispatch carries them out. -/

theorem exec_switchingPeriod (g : Ch) (boot : Bool) (s : State) :
    exec (.switchingPeriod g boot) s = onDie (g.val / 8) s (loopPeriod boot g) := rfl
theorem exec_complianceClamp (g : Ch) (upper : Bool) (s : State) :
    exec (.complianceClamp g upper) s = onDie (g.val / 8) s (clampEngage upper g) := rfl
theorem exec_fastSample (vf : List Nat) (s : State) : exec (.fastSample vf) s = onDev s (fastSample vf) := rfl

/-- Settles O26: a period by its four cases; a fast sample by the one channel's own, which those of the other channels and dies leave. -/
theorem loopsComputeOncePerPeriod : Obligations.LoopsComputeOncePerPeriod := by
  unfold Obligations.LoopsComputeOncePerPeriod
  dsimp only
  refine ⟨fun s g boot hs hd => ⟨fun hnone => ?_, fun hgl hdue hrest hcmd hi => ?_, fun hgl hdue hrest hstop hclamp _ _ hmode hbus => ?_⟩,
    fun s g hs hd => ⟨fun upper hgl hbeyond => ?_, fun upper hnot => ?_, fun vf hup hdue hclk => ?_, fun vf hnot => ?_⟩⟩
  · exact does_die (exec_switchingPeriod g boot s) hd (loopPeriod_of_none hnone)
  · obtain ⟨hlow, hactive, hduty, hacc⟩ := loopPeriod_rests hs.canonical g.isLt boot hgl hdue ⟨hrest, hcmd, hi⟩
    exact does_die (exec_switchingPeriod g boot s) hd
      ⟨hlow, hactive, hduty, hacc, (only_loopPeriod boot (Device.only_refl s.dev g.isLt)).2⟩
  · obtain ⟨hduty, hskip, hsat, hboot, hhigh, htgt, hcmd, hvint, hloop, hslewing, hedges, hton⟩ :=
      loopPeriod_cc hs.canonical g.isLt boot hgl hdue hrest hstop hclamp hmode hbus
    exact does_die (exec_switchingPeriod g boot s) hd ⟨hduty, hskip, hsat, hboot, hhigh.trans hgl, htgt, hcmd, hvint, hloop, hslewing,
      hedges, hton, (only_loopPeriod boot (Device.only_refl s.dev g.isLt)).2⟩
  · refine does_die (exec_complianceClamp g upper s) hd ?_
    rw [clampEngage_of hgl hbeyond]
    have hch := ch_underClamp (hs.ch_lt g) upper
    refine ⟨loop_underClamp upper, ?_, ?_, ?_, chanOnly_underClamp upper⟩
    · rw [hch]
      rfl
    · rintro rfl a b c e hedges hb hc
      rw [hch]
      exact endPulse_upper hedges hb hc
    · rintro rfl a b c e hedges he
      rw [hch]
      exact endPulse_lower hedges he
  · exact does_die (exec_complianceClamp g upper s) hd (clampEngage_of_not hnot)
  · obtain ⟨hforce, hfast, hacc, hblank, hinside, habove, hbelow⟩ := fastSample_takes hs.canonical vf hs.dies_le hd hup hdue hclk
    refine does_dev (exec_fastSample vf s) ⟨hforce, hfast, hacc, fun hgl hstop hb => hblank ⟨hgl, hstop, hb⟩,
      fun hgl hstop hb hne hin => ?_, fun hgl hstop hb hup => habove ⟨hgl, hstop, hb⟩ (decide_eq_true hup),
      fun hgl hstop hb hup hlow => hbelow ⟨hgl, hstop, hb⟩ (decide_eq_false (Nat.not_lt.mpr hup)) (decide_eq_true hlow)⟩
    have hclamp := hinside ⟨hgl, hstop, hb⟩ hne hin
    split_ifs with hrow
    · rw [hclamp, if_pos hrow]
    · rw [hclamp, if_neg hrow]
  · exact does_dev (exec_fastSample vf s) (fastSample_none vf hs.dies_le hnot)

end Sys2Proof.Machine
end

section
/-! Proofs of the family of the sense front end: the housekeeping converter and the reference of a die (O28). -/

namespace Sys2Proof.Machine

/-! A die's place in the conversion sequence (R113). -/

/-- The other dies, and the position, the clock and the results of a die's own converter. -/
def sequence (d : Nat) (s : Device) : (Nat → DieSt) × Nat × Nat × List Nat :=
  (fun e => if e = d then .reset else s.die e, (s.die d).sar.pos, (s.die d).sar.lastAt, (s.die d).sar.codes)

section
variable {d : Nat} (s : Device)

theorem sequence_of_dies {s t : Device} (h : t.dies = s.dies) : sequence d t = sequence d s := by
  have hdie (e : Nat) : t.die e = s.die e := by rw [Device.die, Device.die, h]
  simp only [sequence, hdie]

theorem die_of_sequence {s t : Device} (h : sequence d t = sequence d s) {e : Nat} (he : e ≠ d) : t.die e = s.die e := by
  have hdies := congrFun (congrArg Prod.fst h) e
  simpa only [sequence, if_neg he] using hdies

theorem sequence_modSar {f : Sar → Sar} (hf : ∀ x, ((f x).pos, (f x).lastAt, (f x).codes) = (x.pos, x.lastAt, x.codes)) :
    sequence d (s.modSar d f) = sequence d s := by
  have hdies : (fun e => if e = d then DieSt.reset else (s.modSar d f).die e) = fun e => if e = d then .reset else s.die e :=
    funext fun e => ite_congr rfl (fun _ => rfl) fun he => Device.die_modDie_ne s he _
  exact congrArg₂ Prod.mk hdies
    (proj_die_modDie (fun x => (x.sar.pos, x.sar.lastAt, x.sar.codes)) (f := fun x => { x with sar := f x.sar }) (fun x => hf x.sar) d d)

@[simp] theorem sequence_pset (f : Fld .pkg) (v : Nat) : sequence d (s.pset f v) = sequence d s := (rfl)
@[simp] theorem sequence_psetBit (f : Fld .pkg) (i : Nat) (b : Bool) : sequence d (s.psetBit f i b) = sequence d s := (rfl)
@[simp] theorem sequence_dset (e : Nat) (f : Fld .die) (v : Nat) : sequence d (s.dset e f v) = sequence d s := (rfl)
@[simp] theorem sequence_modEng (g : Nat) (f : Eng → Eng) : sequence d (s.modEng g f) = sequence d s := (rfl)
@[simp] theorem sequence_modSup (f : Supply → Supply) : sequence d (s.modSup f) = sequence d s := (rfl)
@[simp] theorem sequence_nextFree : sequence d s.nextFree = sequence d s := (rfl)
@[simp] theorem sequence_logEvent_lead (cat code obj data : Nat) : sequence d (logEvent cat 0 code obj data s) = sequence d s :=
  sequence_of_dies (by rw [(eventOnly_logEvent_lead cat code obj data s).1])

end

/-! What a result means on every die (R105, R115, R143, R192). -/

/-- A result enters the lists of a die's converter. -/
def sarStored (p c d : Nat) (s : Device) : Device := s.modSar d fun x => { x with
  pos := (p + 1) % 32, lastAt := s.now, codes := x.codes.set p c, sums := x.sums.set p (nth x.sums p + c)
  cnts := x.cnts.set p (nth x.cnts p + 1) }

/-- The meaning of a position's result on every die. -/
def sarOwn (p c d : Nat) (s : Device) : Device :=
  if p % 4 = 1 then s.modEng (8 * d + p / 4) fun e => { e with ntc := (c :: e.ntc).take 8 }
  else if p = 10 then btempReading c d s
  else if p = 26 then vrefxCheck c d s
  else if p = 27 ∨ p = 30 then sarSelf p c d s
  else s

/-- A conversion ends on a die (R113). -/
def SarEnds (s : Device) (d : Nat) : Prop :=
  let p := sarPos s.clk
  s.clk % 20 = 0 ∧ s.clk ≠ 0 ∧ p ≠ 31 ∧ (d = 0 ∨ p % 4 ≠ 3 ∨ p = 27) ∧ (s.die d).sar.lastAt ≠ s.now

section
variable {d : Nat} {s : Device}

theorem sarConversion_of_ends (hup : (s.die d).up = true) (h : SarEnds s d) (code : Nat) :
    let p := sarPos s.clk
    let t := sarOwn p (code % 4096) d (sarStored p (code % 4096) d s)
    sarConversion d code s = if d = 0 then sarLead p (code % 4096) t else t := by
  obtain ⟨hend, hclk, h31, hdie, hat⟩ := h
  have hconv : sarConverts d (sarPos s.clk) = true := by
    simp only [sarConverts, Bool.and_eq_true, Bool.or_eq_true, bne_iff_ne, beq_iff_eq, ne_eq]
    exact ⟨h31, by tauto⟩
  exact if_neg (by simp [hup, hend, hclk, hat, hconv])

theorem sarConversion_of_not (h : (s.die d).up = false ∨ ¬ SarEnds s d) (code : Nat) : sarConversion d code s = s := by
  refine if_pos ?_
  rcases h with h | h
  · simp [h]
  · by_contra hno
    simp only [sarConverts, Bool.or_eq_true, Bool.not_eq_true', Bool.and_eq_false_iff, bne_iff_ne, beq_iff_eq, decide_eq_true_eq,
      bne_eq_false_iff_eq, beq_eq_false_iff_ne, Bool.or_eq_false_iff, not_or, ne_eq, not_not] at hno
    exact h (by unfold SarEnds; dsimp only; tauto)

theorem sar_modSar_self (hlt : d < s.dies.length) (f : Sar → Sar) : ((s.modSar d f).die d).sar = f (s.die d).sar :=
  congrArg DieSt.sar (Device.die_modDie_self s hlt _)

theorem sequence_sarStored (hlt : d < s.dies.length) (p c : Nat) : let t := sarStored p c d s
    (t.die d).sar.pos = (p + 1) % 32 ∧ (t.die d).sar.lastAt = s.now ∧ (t.die d).sar.codes = (s.die d).sar.codes.set p c ∧
      ∀ e, e ≠ d → t.die e = s.die e := by
  have hsar := sar_modSar_self hlt fun x => { x with
    pos := (p + 1) % 32, lastAt := s.now, codes := x.codes.set p c, sums := x.sums.set p (nth x.sums p + c)
    cnts := x.cnts.set p (nth x.cnts p + 1) }
  exact ⟨congrArg Sar.pos hsar, congrArg Sar.lastAt hsar, congrArg Sar.codes hsar, fun e he => Device.die_modDie_ne s he _⟩

theorem sequence_btempReading (c : Nat) : sequence d (btempReading c d s) = sequence d s := by
  unfold btempReading
  dsimp only
  rw [apply_ite (sequence d), sequence_modSar, ite_self, sequence_dset, sequence_dset]
  exact fun _ => rfl

theorem sequence_sarOwn (p c : Nat) : sequence d (sarOwn p c d s) = sequence d s := by
  unfold sarOwn
  split_ifs
  · rfl
  · exact sequence_btempReading c
  · exact (sequence_dset _ _ _ _).trans (sequence_modSar s fun _ => rfl)
  · exact sequence_modSar s fun _ => rfl
  · rfl

theorem chans_btempReading (c : Nat) : (btempReading c d s).chans = s.chans := by
  have hword (t : Device) (f : Fld .die) (v : Nat) : (t.dset d f v).chans = t.chans := rfl
  have hsar (t : Device) (f : Sar → Sar) : (t.modSar d f).chans = t.chans := rfl
  unfold btempReading
  dsimp only
  rw [apply_ite Device.chans, hsar, ite_self, hword, hword]

theorem chans_sarOwn {p : Nat} (h : p % 4 ≠ 1) (c : Nat) : (sarOwn p c d s).chans = s.chans := by
  unfold sarOwn
  rw [if_neg h]
  split_ifs
  · exact chans_btempReading c
  all_goals rfl

theorem sarOwn_regs {p : Nat} (h10 : p ≠ 10) (h26 : p ≠ 26) (c : Nat) : (sarOwn p c d s).regs = s.regs := by
  unfold sarOwn
  rw [if_neg h10, if_neg h26]
  split_ifs <;> rfl

/-- A thermistor's code goes to its channel. -/
theorem sarOwn_ntc {p : Nat} (h : p % 4 = 1) (c : Nat) : sarOwn p c d s =
    s.modEng (8 * d + p / 4) fun e => { e with ntc := (c :: e.ntc).take 8 } := if_pos h

/-- The check of VREFX passes on its window's codes while the readings are valid. -/
theorem sarOwn_vrefx (hlt : d < s.dies.length) (c : Nat) : let t := sarOwn 26 c d s
    let ok := 3244 ≤ c ∧ c ≤ 3309 ∧ s.dbit d BENCH_STAT_SAR_FAIL = false
    t.dget d BENCH_REF_VREFX_BAD = (if ok then 0 else 1) ∧ (t.die d).sar.vxBad = (if ok then 0 else (s.die d).sar.vxBad + 1) ∧
      (t.die d).sar.vxOk = if ok then (s.die d).sar.vxOk + 1 else 0 := by
  have hok : (decide (3244 ≤ c ∧ c * 125 ≤ 413700) && !s.dbit d BENCH_STAT_SAR_FAIL) = true ↔
      3244 ≤ c ∧ c ≤ 3309 ∧ s.dbit d BENCH_STAT_SAR_FAIL = false := by
    simp only [Bool.and_eq_true, decide_eq_true_eq, Bool.not_eq_true', and_assoc]
    exact and_congr_right fun _ => and_congr_left fun _ => by omega
  have hsar := sar_modSar_self hlt fun x =>
    let ok := decide (3244 ≤ c ∧ c * 125 ≤ 413700) && !s.dbit d BENCH_STAT_SAR_FAIL
    { x with vxBad := if ok then 0 else x.vxBad + 1, vxOk := if ok then x.vxOk + 1 else 0 }
  have hbad : ((vrefxCheck c d s).die d).sar = _ := hsar
  have hword : (vrefxCheck c d s).dget d BENCH_REF_VREFX_BAD = _ := Device.dget_dset_self _ d _ _ (by decide)
  have heq : sarOwn 26 c d s = vrefxCheck c d s := rfl
  refine ⟨?_, ?_, ?_⟩
  · rw [heq, hword]
    simp only [hok]
    split_ifs <;> rfl
  · rw [heq, hbad]
    simp only [hok]
  · rw [heq, hbad]
    simp only [hok]

theorem sarOwn_zero (hlt : d < s.dies.length) (c : Nat) :
    ((sarOwn 27 c d s).die d).sar.zeroRun = if 8 < c then (s.die d).sar.zeroRun + 1 else 0 :=
  congrArg Sar.zeroRun (sar_modSar_self hlt fun x => { x with
    zeroRun := if 8 < c then x.zeroRun + 1 else 0, refRun := x.refRun })

end

/-! What a result means on the lead die beside that (R270, R277, R296, R301, R304). -/

section
variable {s : Device}

theorem sarLead_of_none {p : Nat} (h : p % 4 = 1 ∨ p = 26 ∨ p = 27) (c : Nat) : sarLead p c s = s := by
  unfold sarLead
  iterate 8 rw [if_neg (by omega)]

theorem sequence_modSeq (f : Seq → Seq) : sequence 0 (modSeq f s) = sequence 0 s := rfl

theorem sequence_seqEnd (code : Nat) : sequence 0 (seqEnd code s) = sequence 0 s := by rw [seqEnd, sequence_modSeq, sequence_pset]

theorem sequence_seqAdvance : sequence 0 (seqAdvance s) = sequence 0 s := by
  unfold seqAdvance seqNext
  dsimp only
  split_ifs
  · split
    · exact sequence_modSeq _
    · exact sequence_seqEnd 2
  · rfl

theorem sequence_railOff1 (r : Nat) : sequence 0 (railOff1 r s) = sequence 0 s := by
  rw [railOff1, sequence_modSar, sequence_psetBit, sequence_pset]
  exact fun _ => rfl

theorem sequence_depC : sequence 0 (depC s) = sequence 0 s := by
  unfold depC
  rw [apply_ite (sequence 0), sequence_pset, sequence_railOff1, ite_self]

theorem sequence_railOff (r : Nat) : sequence 0 (railOff r s) = sequence 0 s := by
  unfold railOff
  dsimp only
  rw [apply_ite (sequence 0), sequence_depC, ite_self, sequence_railOff1]

theorem sequence_railLatch (ov : Bool) (r mv : Nat) : sequence 0 (railLatch ov r mv s) = sequence 0 s := by
  unfold railLatch
  dsimp only
  rw [apply_ite (sequence 0), sequence_pset, sequence_seqEnd, ite_self, apply_ite (sequence 0), sequence_logEvent_lead, ite_self, sequence_railOff, sequence_pset]

theorem sequence_railReading (r mv : Nat) : sequence 0 (railReading r mv s) = sequence 0 s := by
  have hsar (t : Device) (n : Nat) : sequence 0 (t.modSar 0 fun x => { x with auxRun := x.auxRun.set r n }) = sequence 0 t :=
    sequence_modSar t fun _ => rfl
  unfold railReading
  dsimp only
  simp only [apply_ite (sequence 0), sequence_railLatch, sequence_seqAdvance, sequence_depC, sequence_psetBit, sequence_modSup,
    hsar, ite_self]

theorem sequence_supplCheck : sequence 0 (supplCheck s) = sequence 0 s := by
  unfold supplCheck supplSet ikeepOpen ikeepMeasured
  dsimp only
  simp only [apply_ite (sequence 0), sequence_nextFree, sequence_pset, sequence_modSup, ite_self]

theorem sequence_keepWatch (kntc : Bool) : sequence 0 (keepWatch kntc s) = sequence 0 s := by
  unfold keepWatch
  dsimp only
  rw [sequence_modSup]

theorem sequence_vkeepReading (c : Nat) : sequence 0 (vkeepReading c s) = sequence 0 s := by
  unfold vkeepReading
  dsimp only
  rw [sequence_keepWatch, sequence_supplCheck, sequence_pset, sequence_nextFree, sequence_pset]

theorem sequence_vbstReading (c : Nat) : sequence 0 (vbstReading c s) = sequence 0 s := by
  have hsar (t : Device) (n : Nat) : sequence 0 (t.modSar 0 fun x => { x with bstRun := n }) = sequence 0 t :=
    sequence_modSar t fun _ => rfl
  unfold vbstReading boostOv
  dsimp only
  simp only [apply_ite (sequence 0), sequence_pset, hsar, ite_self]

/-- The word of PATH_STAT and the dies. -/
def pathAndDies (s : Device) : Word × List DieSt := (s.reg 0x4B, s.dies)

theorem pathAndDies_pset {f : Fld .pkg} (hf : f.off ≠ 0x4B) (v : Nat) (s : Device) : pathAndDies (s.pset f v) = pathAndDies s :=
  congrArg (·, s.dies) (reg_pset_ne hf.symm v s)

theorem pathAndDies_logEvent_lead (cat code obj data : Nat) (s : Device) : pathAndDies (logEvent cat 0 code obj data s) = pathAndDies s := by
  have hevent := eventOnly_logEvent_lead cat code obj data s
  have hdies : (logEvent cat 0 code obj data s).dies = s.dies := by rw [hevent.1]
  exact congrArg₂ Prod.mk (hevent.2 0x4B (by decide)) hdies

theorem pathAndDies_modMon (f : Mon → Mon) (s : Device) : pathAndDies (modMon f s) = pathAndDies s := rfl

theorem pathAndDies_ite {c : Prop} [Decidable c] {a b t : Device} (ha : pathAndDies a = pathAndDies t) (hb : pathAndDies b = pathAndDies t) :
    pathAndDies (if c then a else b) = pathAndDies t := by rw [apply_ite pathAndDies, ha, hb, ite_self]

theorem off_monCount (c : Nat) :
    (if c = 1 then BUS_MON_CNT_N_SAG else if c = 2 then BUS_MON_CNT_N_SWELL else BUS_MON_CNT_N_INT).off ≠ 0x4B := by
  split_ifs <;> decide

theorem pathAndDies_monEnd (trunc : Bool) : pathAndDies (monEnd trunc s) = pathAndDies s := by
  unfold monEnd
  refine pathAndDies_ite rfl ?_
  dsimp only
  rw [pathAndDies_logEvent_lead, pathAndDies_modMon, Device.pinc, pathAndDies_pset, pathAndDies_pset, pathAndDies_pset (off_monCount _)]
  simp (disch := decide) only [pathAndDies_pset]
  all_goals decide

theorem pathAndDies_monReading (v : Nat) : pathAndDies (monReading v s) = pathAndDies s := by
  have hbegin (t : Device) (f : Mon → Mon) (c : Nat) :
      pathAndDies (modMon f ((t.pset BUS_STAT_MON_CLASS c).pset BUS_STAT_FIT 0)) = pathAndDies t :=
    (pathAndDies_modMon _ _).trans ((pathAndDies_pset (by decide) _ _).trans (pathAndDies_pset (by decide) _ _))
  unfold monReading
  refine pathAndDies_ite rfl ?_
  dsimp only
  refine (pathAndDies_ite (pathAndDies_pset (by decide) _ _) rfl).trans ?_
  refine (pathAndDies_ite rfl (pathAndDies_ite (hbegin _ _ _) (pathAndDies_ite (hbegin _ _ _) rfl))).trans ?_
  exact (pathAndDies_ite ((pathAndDies_modMon _ _).trans (pathAndDies_monEnd _)) rfl).trans (pathAndDies_modMon _ _)

theorem sequence_monReading (v : Nat) : sequence 0 (monReading v s) = sequence 0 s :=
  sequence_of_dies (congrArg Prod.snd (pathAndDies_monReading v))

theorem sequence_inputSwitch : sequence 0 (inputSwitch s) = sequence 0 s := by
  unfold inputSwitch
  dsimp only
  rw [sequence_nextFree, sequence_pset, sequence_pset]

theorem sequence_sarLead (p c : Nat) : sequence 0 (sarLead p c s) = sequence 0 s := by
  unfold sarLead
  simp only [apply_ite (sequence 0), sequence_monReading, sequence_inputSwitch, sequence_pset, sequence_railReading, sequence_vkeepReading,
    sequence_keepWatch, sequence_modSup, sequence_vbstReading, ite_self]

/-- A VBUS code shows in PATH_STAT. -/
theorem vbusRd_sarLead {p c : Nat} (hp : p % 4 = 0) (hc : c < 4096) : (sarLead p c s).pget PATH_STAT_VBUS_RD = c := by
  have hmon : (sarLead p c s).reg 0x4B = (inputSwitch (s.pset PATH_STAT_VBUS_RD c)).reg 0x4B := by
    unfold sarLead
    rw [if_pos hp]
    exact congrArg Prod.fst (pathAndDies_monReading c)
  have hfree (t : Device) : t.nextFree.pget PATH_STAT_VBUS_RD = t.pget PATH_STAT_VBUS_RD := rfl
  have hswitch (t : Device) : (inputSwitch t).pget PATH_STAT_VBUS_RD = t.pget PATH_STAT_VBUS_RD := by
    unfold inputSwitch
    dsimp only
    rw [hfree, Device.pget_pset_apart _ PATH_STAT_ILIM_ACT PATH_STAT_VBUS_RD _ (by decide),
      Device.pget_pset_apart _ PATH_STAT_INPUT_ON PATH_STAT_VBUS_RD _ (by decide)]
  have hget : (sarLead p c s).pget PATH_STAT_VBUS_RD = (inputSwitch (s.pset PATH_STAT_VBUS_RD c)).pget PATH_STAT_VBUS_RD :=
    congrArg PATH_STAT_VBUS_RD.get hmon
  rw [hget, hswitch, Device.pget_pset_self _ _ _ (by decide)]
  exact Nat.mod_eq_of_lt hc

end

/-! A conversion of a die (R113). -/

section
variable {d : Nat} {s : Device}

/-- The place of a converter in its sequence after a result of its own is all that its die's meaning and the lead die's leave. -/
theorem sequence_sarConversion (hup : (s.die d).up = true) (h : SarEnds s d) (code : Nat) :
    sequence d (sarConversion d code s) = sequence d (sarStored (sarPos s.clk) (code % 4096) d s) := by
  rw [sarConversion_of_ends hup h]
  split_ifs with hlead
  · subst hlead
    rw [sequence_sarLead, sequence_sarOwn]
  · exact sequence_sarOwn _ _

/-- A result that means nothing more on the lead die leaves what it means on every die. -/
theorem sarConversion_own (hup : (s.die d).up = true) (h : SarEnds s d)
    (hown : d ≠ 0 ∨ sarPos s.clk % 4 = 1 ∨ sarPos s.clk = 26 ∨ sarPos s.clk = 27) (code : Nat) :
    sarConversion d code s = sarOwn (sarPos s.clk) (code % 4096) d (sarStored (sarPos s.clk) (code % 4096) d s) := by
  rw [sarConversion_of_ends hup h]
  split_ifs with hlead
  · exact sarLead_of_none (hown.resolve_left (· hlead)) _
  · rfl

theorem sarConversion_stores (hlt : d < s.dies.length) (hup : (s.die d).up = true) (h : SarEnds s d) (code : Nat) :
    let p := sarPos s.clk
    let t := sarConversion d code s
    (t.die d).sar.pos = (p + 1) % 32 ∧ (t.die d).sar.lastAt = s.now ∧ (t.die d).sar.codes = (s.die d).sar.codes.set p (code % 4096) ∧
      ∀ e, e ≠ d → t.die e = s.die e := by
  have hseq := sequence_sarConversion hup h code
  obtain ⟨hpos, hat, hcodes, hother⟩ := sequence_sarStored hlt (sarPos s.clk) (code % 4096)
  exact ⟨(congrArg (·.2.1) hseq).trans hpos, (congrArg (·.2.2.1) hseq).trans hat, (congrArg (·.2.2.2) hseq).trans hcodes,
    fun e he => (die_of_sequence hseq he).trans (hother e he)⟩

theorem sarConversion_ntc (hg : 8 * d + sarPos s.clk / 4 < s.chans.length) (hup : (s.die d).up = true) (h : SarEnds s d)
    (hp : sarPos s.clk % 4 = 1) (code : Nat) : let g := 8 * d + sarPos s.clk / 4
    ((sarConversion d code s).ch g).eng.ntc = (code % 4096 :: (s.ch g).eng.ntc).take 8 := by
  rw [sarConversion_own hup h (.inr (.inl hp)), sarOwn_ntc hp]
  exact congrArg (fun x : Chan => x.eng.ntc) (Device.ch_modCh_self (sarStored _ _ d s) hg _)

theorem sarConversion_vrefx (hlt : d < s.dies.length) (hup : (s.die d).up = true) (h : SarEnds s d) (hp : sarPos s.clk = 26) (code : Nat) :
    let t := sarConversion d code s
    let ok := 3244 ≤ code % 4096 ∧ code % 4096 ≤ 3309 ∧ s.dbit d BENCH_STAT_SAR_FAIL = false
    t.dget d BENCH_REF_VREFX_BAD = (if ok then 0 else 1) ∧ (t.die d).sar.vxBad = (if ok then 0 else (s.die d).sar.vxBad + 1) ∧
      (t.die d).sar.vxOk = if ok then (s.die d).sar.vxOk + 1 else 0 := by
  have hlt' : d < (sarStored 26 (code % 4096) d s).dies.length := by
    rwa [sarStored, Device.modSar, Device.modDie_dies, List.length_modify]
  have hsar : ((sarStored 26 (code % 4096) d s).die d).sar = _ := sar_modSar_self hlt _
  obtain ⟨hflag, hbad, hok⟩ := sarOwn_vrefx hlt' (code % 4096)
  rw [sarConversion_own hup h (.inr (.inr (.inl hp))), hp]
  rw [hsar] at hbad hok
  exact ⟨hflag, hbad, hok⟩

theorem sarConversion_zero (hlt : d < s.dies.length) (hup : (s.die d).up = true) (h : SarEnds s d) (hp : sarPos s.clk = 27) (code : Nat) :
    ((sarConversion d code s).die d).sar.zeroRun = if 8 < code % 4096 then (s.die d).sar.zeroRun + 1 else 0 := by
  have hlt' : d < (sarStored 27 (code % 4096) d s).dies.length := by
    rwa [sarStored, Device.modSar, Device.modDie_dies, List.length_modify]
  have hsar : ((sarStored 27 (code % 4096) d s).die d).sar = _ := sar_modSar_self hlt _
  rw [sarConversion_own hup h (.inr (.inr (.inr hp))), hp, sarOwn_zero hlt', hsar]

theorem sarConversion_vbus (hup : (s.die 0).up = true) (h : SarEnds s 0) (hp : sarPos s.clk % 4 = 0) (code : Nat) :
    (sarConversion 0 code s).pget PATH_STAT_VBUS_RD = code % 4096 := by
  rw [sarConversion_of_ends hup h, if_pos rfl]
  exact vbusRd_sarLead hp (Nat.mod_lt _ (by decide))

/-- Off the lead die a result changes no channel of another die. -/
theorem sarConversion_chans (hup : (s.die d).up = true) (h : SarEnds s d) (hd : d ≠ 0) (code : Nat) {g : Nat} (hg : g / 8 ≠ d) :
    (sarConversion d code s).ch g = s.ch g := by
  rw [sarConversion_own hup h (.inl hd)]
  by_cases hp : sarPos s.clk % 4 = 1
  · rw [sarOwn_ntc hp]
    refine Device.ch_modCh_ne (sarStored _ _ d s) (fun he => hg ?_) _
    have hpos : sarPos s.clk < 32 := Nat.mod_lt _ (by decide)
    omega
  · rw [Device.ch, chans_sarOwn hp]
    rfl

theorem sarConversion_regs (hup : (s.die d).up = true) (h : SarEnds s d) (hd : d ≠ 0) (h10 : sarPos s.clk ≠ 10)
    (h26 : sarPos s.clk ≠ 26) (code : Nat) : (sarConversion d code s).regs = s.regs := by
  rw [sarConversion_own hup h (.inl hd), sarOwn_regs h10 h26]
  rfl

end

/-! The switches of the reference, and the failure of the converter (R105, R106, R115). -/

section
variable {d : Nat} {s : Device}

theorem vrefxFail_of (hup : (s.die d).up = true) (hmode : s.dbit d BENCH_REF_MODE = false) (hint : (s.die d).refInt = false)
    (hbad : 8 ≤ (s.die d).sar.vxBad) : vrefxFail d s = s.modDie d fun x => { x with refDue := some true } :=
  if_pos (by simp [hup, hmode, hint, hbad])

theorem vrefxFail_of_not (h : (s.die d).up = false ∨ s.dbit d BENCH_REF_MODE = true ∨ (s.die d).sar.vxBad < 8) : vrefxFail d s = s :=
  if_neg (by rcases h with h | h | h <;> simp [h])

theorem vrefxReturn_of (hup : (s.die d).up = true) (hmode : s.dbit d BENCH_REF_MODE = false) (hint : (s.die d).refInt = true)
    (hok : 32000 ≤ (s.die d).sar.vxOk) : vrefxReturn d s = s.modDie d fun x => { x with refDue := some false } :=
  if_pos (by simp [hup, hmode, hint, hok])

theorem vrefxReturn_of_not (h : (s.die d).up = false ∨ s.dbit d BENCH_REF_MODE = true ∨ (s.die d).sar.vxOk < 32000) :
    vrefxReturn d s = s := if_neg (by rcases h with h | h | h <;> simp [h])

theorem sarFail_of (hup : (s.die d).up = true) (hflag : s.dbit d BENCH_STAT_SAR_FAIL = false)
    (hrun : 8 ≤ (s.die d).sar.zeroRun ∨ 8 ≤ (s.die d).sar.refRun) :
    sarFail d s = logEvent Cat.bench d 0x04 0xFF 0 (s.dset d BENCH_STAT_SAR_FAIL 1) :=
  if_pos (by simp [hup, hflag, hrun])

theorem sarFail_of_not (h : (s.die d).up = false ∨ s.dbit d BENCH_STAT_SAR_FAIL = true ∨
    ((s.die d).sar.zeroRun < 8 ∧ (s.die d).sar.refRun < 8)) : sarFail d s = s :=
  if_neg (by rcases h with h | h | ⟨hz, hr⟩ <;> simp [*])

theorem Logged.chans {t : Device} (h : Logged s t) : t.chans = s.chans := by rw [h.1]

theorem dieAddr_not_eventWord (d off : Nat) : dieAddr d off ∉ eventWords := fun h => by
  simp only [eventWords, dieAddr, List.mem_cons, List.not_mem_nil, or_false] at h
  omega

theorem Logged.dget {t : Device} (h : Logged s t) (e : Nat) (f : Fld .die) : t.dget e f = s.dget e f :=
  congrArg f.get (h.2 _ (dieAddr_not_eventWord e f.off))

end

/-! The commands, as the dispatch carries them out. -/

theorem exec_sarConversion (d : Die) (code : Nat) (s : State) :
    exec (.sarConversion d code) s = onDie d.val s (sarConversion d.val code) := rfl
theorem exec_vrefxFailSwitch (d : Die) (s : State) : exec (.vrefxFailSwitch d) s = onDie d.val s (vrefxFail d.val) := rfl
theorem exec_vrefxReturnSwitch (d : Die) (s : State) : exec (.vrefxReturnSwitch d) s = onDie d.val s (vrefxReturn d.val) := rfl
theorem exec_sarFail (d : Die) (s : State) : exec (.sarFail d) s = onDie d.val s (sarFail d.val) := rfl

/-- Settles O28: a result is stored by its position's case on every die, and what it means on the lead die beside that leaves the
converter's sequence; the switches and SAR_FAIL by their conditions. -/
theorem conversionsFollowTheSequence : Obligations.ConversionsFollowTheSequence := by
  unfold Obligations.ConversionsFollowTheSequence
  dsimp only
  refine ⟨fun s d code hs hd => ⟨fun hup hends => ?_, fun h => ?_⟩,
    fun s d hs hd => ⟨fun hup hmode hint hbad => ?_, fun hup hmode hint hok => ?_, fun h => ?_, fun h => ?_, fun hup hflag hrun => ?_, fun h => ?_⟩⟩
  · have hlt := hs.die_lt d
    have h8 : d.val < 8 := d.isLt
    have hends : SarEnds s.dev d.val := hends
    have hpos : sarPos s.dev.clk < 32 := Nat.mod_lt _ (by decide)
    obtain ⟨hnext, hat, hcodes, hdies⟩ := sarConversion_stores hlt hup hends code
    refine does_die (exec_sarConversion d code s) hd ⟨hnext, hat, hcodes, hdies, fun hlead g hg => sarConversion_chans hup hends hlead code hg,
      fun hp => ?_, fun hp => (sarConversion_vrefx hlt hup hends hp code).1, fun hp => (sarConversion_vrefx hlt hup hends hp code).2,
      fun hp => sarConversion_zero hlt hup hends hp code, fun hp hlead => ?_,
      fun hlead h10 h26 => sarConversion_regs hup hends hlead h10 h26 code⟩
    · refine sarConversion_ntc (lt_of_lt_of_eq ?_ hs.canonical.chans.symm) hup hends hp code
      omega
    · rw [hlead] at hup hends ⊢
      exact sarConversion_vbus hup hends hp code
  · exact does_die (exec_sarConversion d code s) hd (sarConversion_of_not h code)
  · refine does_die (exec_vrefxFailSwitch d s) hd ?_
    rw [vrefxFail_of hup hmode hint hbad]
    exact ⟨dieOnly_modDie s.dev d _, Device.die_modDie_self s.dev (hs.die_lt d) _⟩
  · refine does_die (exec_vrefxReturnSwitch d s) hd ?_
    rw [vrefxReturn_of hup hmode hint hok]
    exact ⟨dieOnly_modDie s.dev d _, Device.die_modDie_self s.dev (hs.die_lt d) _⟩
  · exact does_die (exec_vrefxFailSwitch d s) hd (vrefxFail_of_not h)
  · exact does_die (exec_vrefxReturnSwitch d s) hd (vrefxReturn_of_not h)
  · refine does_die (exec_sarFail d s) hd ?_
    rw [sarFail_of hup hflag hrun]
    have hlog := logged_logEvent Cat.bench d.val 0x04 0xFF 0 (s.dev.dset d.val BENCH_STAT_SAR_FAIL 1)
    have hset : (s.dev.dset d.val BENCH_STAT_SAR_FAIL 1).dget d.val BENCH_STAT_SAR_FAIL = 1 := Device.dget_dset_self _ _ _ _ (by decide)
    have hchans : (s.dev.dset d.val BENCH_STAT_SAR_FAIL 1).chans = s.dev.chans := Device.setReg_chans s.dev _ _
    refine ⟨?_, irqStatus_logEvent (cat := Cat.bench) (by decide) _ _ _ _, hlog.chans.trans hchans,
      fun a ha hevent => (hlog.2 a hevent).trans (Device.reg_setReg_ne s.dev ha _)⟩
    rw [Device.dbit, hlog.dget, hset]
    rfl
  · exact does_die (exec_sarFail d s) hd (sarFail_of_not h)

end Sys2Proof.Machine
end

section
/-! Proofs of the family of the sense front end: what the close of an epoch and the words of the bench leave (O29, O30). -/

namespace Sys2Proof.Machine

theorem ChanOnly.trans {g : Nat} {rs : Nat → Prop} {s t u : Device} (hst : ChanOnly g rs s t) (htu : ChanOnly g rs t u) :
    ChanOnly g rs s u := by
  refine ⟨?_, fun h hh => (htu.2.1 h hh).trans (hst.2.1 h hh), fun a ha => (htu.2.2 a ha).trans (hst.2.2 a ha)⟩
  conv_lhs => rw [htu.1, hst.1]

theorem ChanOnly.mono {g : Nat} {rs ks : Nat → Prop} {s t : Device} (h : ChanOnly g rs s t) (hrs : ∀ a, rs a → ks a) :
    ChanOnly g ks s t := ⟨h.1, h.2.1, fun a ha => h.2.2 a fun hr => ha (hrs a hr)⟩

theorem chanOnly_setReg (g : Nat) {rs : Nat → Prop} {a : Nat} (ha : rs a) (w : Word) (s : Device) : ChanOnly g rs s (s.setReg a w) :=
  ⟨rfl, fun _ _ => rfl, fun _ hb => Device.reg_setReg_ne s (fun e => hb (by rwa [e])) w⟩

/-! Epochs and constants of a channel (R140, R144, R145). -/

/-- EPOCH_STAT, EPOCH_COUNT and EPOCH_FRAME of a channel (R158). -/
def epochWord (g a : Nat) : Prop := ∃ off, 0x49 ≤ off ∧ off ≤ 0x4B ∧ a = chAddr g off

section
variable {g : Nat} {s : Device}

theorem chanOnly_epochField {f : Fld .ch} (hf : 0x49 ≤ f.off ∧ f.off ≤ 0x4B) (v : Nat) (s : Device) :
    ChanOnly g (epochWord g) s (s.cset g f v) := chanOnly_setReg g ⟨f.off, hf.1, hf.2, rfl⟩ _ s

theorem chanOnly_ch (f : Chan → Chan) (s : Device) : ChanOnly g (epochWord g) s (s.modCh g f) :=
  (chanOnly_modCh s g f).mono fun _ h => h.elim

theorem chanOnly_closeEpoch (causes : Nat) (s : Device) : ChanOnly g (epochWord g) s (closeEpoch causes g s) := by
  have hfield (f : Fld .ch) (hf : 0x49 ≤ f.off ∧ f.off ≤ 0x4B) (v : Nat) (t : Device) : ChanOnly g (epochWord g) t (t.cset g f v) :=
    chanOnly_epochField hf v t
  have hcauses : ChanOnly g (epochWord g) s (s.modConv g fun v => { v with gateCauses := v.gateCauses ||| causes }) := chanOnly_ch _ s
  unfold closeEpoch
  dsimp only
  generalize (s.modConv g fun v => { v with gateCauses := v.gateCauses ||| causes }) = t at hcauses ⊢
  refine hcauses.trans ?_
  split_ifs
  · exact hfield _ (by decide) _ _
  · exact (chanOnly_ch _ _).trans ((hfield _ (by decide) _ _).trans ((hfield _ (by decide) _ _).trans
      ((hfield _ (by decide) _ _).trans (hfield _ (by decide) _ _))))
  · exact (chanOnly_ch _ _).trans ((hfield _ (by decide) _ _).trans ((hfield _ (by decide) _ _).trans (hfield _ (by decide) _ _)))

/-- The counts that an epoch's close leaves, and the factors and offsets that the constants are made of. -/
def Chan.carried (c : Chan) : Nat × Nat × Int × Conv :=
  (c.acc.frac, c.acc.rawqIn, c.acc.fq, { c.conv with kq := ⟨0, 0⟩, kv := ⟨0, 0⟩, ke := ⟨0, 0⟩, gateCauses := 0 })

/-- The same of a channel of a device. -/
def carry (g : Nat) (s : Device) : Nat × Nat × Int × Conv := (s.ch g).carried

theorem carry_modCh (s : Device) (h : Nat) {f : Chan → Chan} (hf : ∀ c, (f c).carried = c.carried) : carry g (s.modCh h f) = carry g s :=
  proj_ch_modCh Chan.carried hf h g

theorem carry_cset (h : Nat) (f : Fld .ch) (v : Nat) (s : Device) : carry g (s.cset h f v) = carry g s := rfl

theorem carry_closeEpoch (causes : Nat) (s : Device) : carry g (closeEpoch causes g s) = carry g s := by
  have hconv (t : Device) : carry g (t.modConv g fun v => { v with gateCauses := v.gateCauses ||| causes }) = carry g t :=
    carry_modCh t g fun _ => rfl
  have hbank (t : Device) : carry g (t.modCh g fun c => { c with
      acc := c.acc.bank c.conv.kq c.conv.ke, due := { c.due with closed := true } }) = carry g t := carry_modCh t g fun _ => rfl
  unfold closeEpoch
  dsimp only
  split_ifs <;> simp only [carry_cset, hbank, hconv]

/-- The close notes its causes. -/
theorem cause_closeEpoch {causes i : Nat} (hi : causes.testBit i = true ∧ i < 7) (s : Device) :
    ((closeEpoch causes g s).cget g EPOCH_STAT_CAUSE).testBit i = true := by
  have hput (t : Device) (v : Nat) : (t.cset g EPOCH_STAT_CAUSE v).cget g EPOCH_STAT_CAUSE = v % 2 ^ 7 :=
    Device.cget_cset_self t g EPOCH_STAT_CAUSE v (by decide)
  have hcount (t : Device) (v : Nat) : (t.cset g EPOCH_COUNT v).cget g EPOCH_STAT_CAUSE = t.cget g EPOCH_STAT_CAUSE :=
    Device.cget_cset_apart t g EPOCH_COUNT EPOCH_STAT_CAUSE v (by decide)
  have hframe (t : Device) (v : Nat) : (t.cset g EPOCH_FRAME v).cget g EPOCH_STAT_CAUSE = t.cget g EPOCH_STAT_CAUSE :=
    Device.cget_cset_apart t g EPOCH_FRAME EPOCH_STAT_CAUSE v (by decide)
  have hovf (t : Device) (v : Nat) : (t.cset g EPOCH_STAT_OVF v).cget g EPOCH_STAT_CAUSE = t.cget g EPOCH_STAT_CAUSE :=
    Device.cget_cset_apart t g EPOCH_STAT_OVF EPOCH_STAT_CAUSE v (by decide)
  unfold closeEpoch
  dsimp only
  split_ifs <;> simp only [hput, hcount, hframe, hovf, Nat.testBit_mod_two_pow, Nat.testBit_or, hi.1, hi.2, Bool.or_true, Bool.and_true,
    decide_true]

/-- An epoch closes and the constants follow their words and factors. -/
theorem updateConsts_spec {causes i : Nat} (hi : causes.testBit i = true ∧ i < 7) (s : Device) : let t := updateConsts causes true g s
    ChanOnly g (epochWord g) s t ∧ carry g t = carry g s ∧ (t.cget g EPOCH_STAT_CAUSE).testBit i = true := by
  have hconsts (k : Const × Const × Const) (t : Device) :
      carry g (t.modConv g fun v => { v with kq := k.1, kv := k.2.1, ke := k.2.2 }) = carry g t := carry_modCh t g fun _ => rfl
  have hexpl (t : Device) (v : Nat) : (t.cset g EPOCH_STAT_KE_EXPL v).cget g EPOCH_STAT_CAUSE = t.cget g EPOCH_STAT_CAUSE :=
    Device.cget_cset_apart t g EPOCH_STAT_KE_EXPL EPOCH_STAT_CAUSE v (by decide)
  unfold updateConsts takeConsts
  dsimp only
  rw [Bool.true_or, if_pos rfl]
  refine ⟨(chanOnly_closeEpoch causes s).trans ((chanOnly_ch _ _).trans (chanOnly_epochField (by decide) _ _)), ?_, ?_⟩
  · rw [carry_cset, hconsts, carry_closeEpoch]
  · rw [hexpl]
    exact cause_closeEpoch hi s

end

end Sys2Proof.Machine
end

section
/-! Proofs of the family of the sense front end: the seeding of a die, and the start, the connection and the takeover of a visit (O29). -/

namespace Sys2Proof.Machine

/-! The words of the bench (R128, R445). -/

section
variable {d : Nat} (s : Device)

theorem dget_benchBaton (on : Bool) (e k : Nat) (f : Fld .die) : (benchBaton on k s).dget e f = s.dget e f :=
  Device.dget_pset s e BATON_STAT_BENCH_HELD f _ (by decide)

theorem cget_benchBaton (on : Bool) (g k : Nat) (f : Fld .ch) : (benchBaton on k s).cget g f = s.cget g f :=
  Device.cget_pset s g BATON_STAT_BENCH_HELD f _ (by decide)

theorem dget_modBench (e k : Nat) (h : Bench → Bench) (f : Fld .die) : (s.modBench k h).dget e f = s.dget e f := rfl

theorem chans_dset (e : Nat) (f : Fld .die) (v : Nat) : (s.dset e f v).chans = s.chans := rfl

theorem chans_benchBaton (on : Bool) (k : Nat) : (benchBaton on k s).chans = s.chans := rfl

theorem die_benchBaton (on : Bool) (e k : Nat) : (benchBaton on k s).die e = s.die e := rfl

theorem held_benchBaton {k : Nat} (hk : k < 8) (on : Bool) : (benchBaton on k s).pgetBit BATON_STAT_BENCH_HELD k = on :=
  testBit_psetBit s (by decide) hk on

theorem benchPhase_setPhase (p : Nat) : benchPhase (setPhase p d s) d = p % 8 := Device.dget_dset_self s d BENCH_STAT_PHASE p (by decide)

/-- Nothing of a bench's status but the phase changes with it. -/
theorem regsOnly_setPhase (p : Nat) : RegsOnly (· = dieAddr d 0x14) s (setPhase p d s) := regsOnly_setReg s _ _

end

/-! Seeding (R118, R130, R148). -/

section
variable {d : Nat} {s : Device}

/-- The seeds of a die may come in. -/
def SeedsDue (s : Device) (d : Nat) : Prop := (s.die d).up = true ∧ (s.die d).seeded = false ∧
  (pkgState s = Pkg.load ∨ (s.die d).recov.trying = true) ∧ ∃ f, (s.die d).seedAt = some f ∧ f + 128 ≤ s.frame

/-- A die with its seeds taken. -/
def DieSt.seededWith (seeds : List PairCal) (frame : Nat) (x : DieSt) : DieSt :=
  let bs := (seeds[8]?).getD noPairCal
  { x with seeded := true, seedAt := some frame, bench := { x.bench with
      gcLast := (List.range 8).map fun c => (seeds[c]?).getD noPairCal
      ob := [bs.iH.ofs, bs.iL.ofs, bs.v.ofs], gb := [bs.iH.gain, bs.iL.gain, bs.v.gain] } }

theorem seedsDue_iff : ((s.die d).up && !(s.die d).seeded && (pkgState s == Pkg.load || (s.die d).recov.trying) &&
    (s.die d).seedAt.any (fun f => decide (f + 128 ≤ s.frame))) = true ↔ SeedsDue s d := by
  simp only [SeedsDue, Bool.and_eq_true, Bool.not_eq_true', Bool.or_eq_true, beq_iff_eq, Option.any_eq_true, decide_eq_true_eq, and_assoc]

theorem seedingEnd_of_due (h : SeedsDue s d) (seeds : List PairCal) : seedingEnd d seeds s =
    (s.modDie d (DieSt.seededWith seeds s.frame)).each (chansOf d) fun g t => t.modDue g fun x => { x with start := true } :=
  if_pos (seedsDue_iff.mpr h)

theorem seedingEnd_of_not (h : ¬ SeedsDue s d) (seeds : List PairCal) : seedingEnd d seeds s = s :=
  if_neg (mt seedsDue_iff.mp h)

/-- The start of a channel's count is noted. -/
def Chan.starts (c : Chan) : Chan := { c with due := { c.due with start := true } }

theorem startsNoted (ns : List Nat) (hnodup : ns.Nodup) (hlen : ∀ g ∈ ns, g < s.chans.length) :
    let t := s.each ns fun g t => t.modDue g fun x => { x with start := true }
    t = { s with chans := t.chans } ∧ ∀ h, t.ch h = if h ∈ ns then (s.ch h).starts else s.ch h := by
  induction ns generalizing s with
  | nil => exact ⟨rfl, fun h => (if_neg List.not_mem_nil).symm⟩
  | cons g l ih =>
    obtain ⟨hg, hl⟩ := List.nodup_cons.mp hnodup
    obtain ⟨honly, hch⟩ := ih (s := s.modDue g fun x => { x with start := true }) hl fun k hk => by
      rw [Device.modDue, Device.modCh_chans, List.length_modify]
      exact hlen k (List.mem_cons_of_mem g hk)
    refine ⟨honly, fun h => (hch h).trans ?_⟩
    by_cases he : h = g
    · subst he
      rw [if_neg hg, if_pos List.mem_cons_self]
      exact Device.ch_modCh_self s (hlen h List.mem_cons_self) _
    · rw [show (s.modDue g _).ch h = s.ch h from Device.ch_modCh_ne s he _]
      exact if_congr (by simp [he]) rfl rfl

/-- Where the channels alone moved on after a die did, the die stands and the rest is as it was. -/
theorem dieThenChans {u t : Device} (f : DieSt → DieSt) (hu : u = s.modDie d f) (ht : t = { u with chans := t.chans }) :
    t = { s with dies := t.dies, chans := t.chans } ∧ ∀ e, t.die e = (s.modDie d f).die e := by
  subst hu
  constructor
  · rw [ht]
    rfl
  · intro e
    rw [ht]
    rfl

theorem seedingEnd_spec (hd : d < s.dies.length) (hlen : s.chans.length = 64) (h8 : d < 8) (h : SeedsDue s d) (seeds : List PairCal) :
    let t := seedingEnd d seeds s
    (t.die d).seeded = true ∧ t = { s with dies := t.dies, chans := t.chans } ∧ (∀ e, e ≠ d → t.die e = s.die e) ∧
      ∀ g, t.ch g = if g / 8 = d then (s.ch g).starts else s.ch g := by
  have hstarts := startsNoted (s := s.modDie d (DieSt.seededWith seeds s.frame)) (chansOf d) (nodup_chansOf d) fun g hg => by
    rw [Device.modDie_chans, hlen]
    have := mem_chansOf.mp hg
    omega
  dsimp only at hstarts ⊢
  rw [seedingEnd_of_due h]
  generalize ((s.modDie d (DieSt.seededWith seeds s.frame)).each (chansOf d) fun g t => t.modDue g fun x =>
    { x with start := true }) = t at hstarts ⊢
  obtain ⟨honly, hch⟩ := hstarts
  obtain ⟨hrest, hdie⟩ := dieThenChans _ rfl honly
  refine ⟨?_, hrest, fun e he => (hdie e).trans (Device.die_modDie_ne s he _), fun g => (hch g).trans (if_congr mem_chansOf rfl rfl)⟩
  rw [hdie, Device.die_modDie_self s hd]
  rfl

end

end Sys2Proof.Machine
end

section
/-! Proofs of the family of the sense front end: a visit of the bench starts, connects and takes custody (O29). -/

namespace Sys2Proof.Machine

section
variable {d : Nat} {s : Device}

/-! The start of a visit (R116, R119, R129). -/

/-- A bench whose visit of the chosen channel starts: its frames are planned and its request is taken. -/
def Bench.visits (choice : Nat × Bool × Bool) (v0 t1 t2 : Nat) (b : Bench) : Bench := { b with
  v0 := some v0, t1 := t1, t2 := t2, forced := choice.2.1, inRotation := choice.2.2
  queue := if choice.2.1 || choice.2.2 then b.queue else b.queue.tail, forceCh := none }

/-- The timing fields of the bench in force. -/
def benchTimed (d : Nat) (s : Device) : Device := (s.dforce d 0x11).dforce d 0x12

/-- A visit under way: in its first phase, on its channel, the baton held. -/
def underWay (d c : Nat) (u : Device) : Device := benchBaton true d ((setPhase 1 d u).dset d BENCH_STAT_CH c)

theorem visitStart_of_may (h : visitMayStart s d = true) : ∃ t1 t2, visitStart d s =
    underWay d (visitChoice (s.die d).bench).1
      ((benchTimed d s).modBench d (Bench.visits (visitChoice (s.die d).bench) s.frame t1 t2)) := ⟨_, _, if_pos h⟩

theorem visitStart_of_not (h : visitMayStart s d = false) : visitStart d s = s := if_neg (Bool.eq_false_iff.mp h)

/-- The queue loses the visit that it held, for a forced one and for rotation none. -/
theorem visits_queue (b : Bench) (v0 t1 t2 : Nat) :
    (b.visits (visitChoice b) v0 t1 t2).queue = if b.forceCh = none then b.queue.tail else b.queue := by
  unfold Bench.visits visitChoice
  cases hforce : b.forceCh with
  | some c => rfl
  | none =>
    cases hqueue : b.queue with
    | cons c l => rfl
    | nil => rfl

theorem frc_benchTimed : (benchTimed d s).frc (dieAddr d 0x11) = s.reg (dieAddr d 0x11) ∧
    (benchTimed d s).frc (dieAddr d 0x12) = s.reg (dieAddr d 0x12) :=
  ⟨(Device.frc_setFrc_ne _ (by unfold dieAddr; omega) _).trans (Device.frc_setFrc_self s _ _), Device.frc_setFrc_self _ _ _⟩

theorem benchPhase_underWay (c : Nat) (u : Device) : benchPhase (underWay d c u) d = 1 := by
  rw [underWay, benchPhase, dget_benchBaton, Device.dget_dset_apart _ _ BENCH_STAT_CH BENCH_STAT_PHASE _ (by decide)]
  exact benchPhase_setPhase u 1

theorem benchCh_underWay (c : Nat) (u : Device) : benchCh (underWay d c u) d = c % 8 := by
  rw [underWay, benchCh, dget_benchBaton]
  exact Device.dget_dset_self _ _ BENCH_STAT_CH _ (by decide)

theorem die_underWay (c e : Nat) (u : Device) : (underWay d c u).die e = u.die e := rfl

theorem frc_underWay (c a : Nat) (u : Device) : (underWay d c u).frc a = u.frc a := rfl

theorem chans_underWay (c : Nat) (u : Device) : (underWay d c u).chans = u.chans := rfl

theorem frc_modBench (f : Bench → Bench) (a : Nat) (u : Device) : (u.modBench d f).frc a = u.frc a := rfl

theorem chans_modBench (f : Bench → Bench) (u : Device) : (u.modBench d f).chans = u.chans := rfl

theorem bench_modBench {u : Device} (hlt : d < u.dies.length) (f : Bench → Bench) : ((u.modBench d f).die d).bench = f (u.die d).bench := by
  rw [Device.modBench, Device.die_modDie_self u hlt]

theorem visitStart_spec (hlt : d < s.dies.length) (h8 : d < 8) (h : visitMayStart s d = true) :
    let t := visitStart d s
    let b := (s.die d).bench
    benchPhase t d = 1 ∧ benchCh t d = (visitChoice b).1 % 8 ∧ (t.die d).bench.forceCh = none ∧
      (t.die d).bench.queue = (if b.forceCh = none then b.queue.tail else b.queue) ∧
      t.frc (dieAddr d 0x11) = s.reg (dieAddr d 0x11) ∧ t.frc (dieAddr d 0x12) = s.reg (dieAddr d 0x12) ∧
      t.pgetBit BATON_STAT_BENCH_HELD d = true ∧ t.chans = s.chans := by
  dsimp only
  obtain ⟨t1, t2, he⟩ := visitStart_of_may h
  have htimed : d < (benchTimed d s).dies.length := hlt
  rw [he, die_underWay, frc_underWay, frc_underWay, chans_underWay, frc_modBench, frc_modBench, chans_modBench, bench_modBench htimed]
  obtain ⟨h11, h12⟩ := frc_benchTimed (d := d) (s := s)
  exact ⟨benchPhase_underWay _ _, benchCh_underWay _ _, rfl, visits_queue _ _ _ _, h11, h12, held_benchBaton _ h8 true, rfl⟩

/-! The inputs close (R119, R120). -/

theorem benchConnect_spec : benchPhase (benchConnect d s) d =
      (if benchPhase s d = 1 ∧ selfcalOver s d = true ∧ pkgState s = Pkg.run then 2 else benchPhase s d) ∧
    RegsOnly (· = dieAddr d 0x14) s (benchConnect d s) := by
  unfold benchConnect
  split_ifs
  · exact ⟨benchPhase_setPhase s 2, regsOnly_setPhase s 2⟩
  · exact ⟨rfl, rfl, fun _ _ => rfl⟩

/-! The carrier of a channel changes (R121, R131, R145). -/

/-- The words that the change of a carrier writes: CH_SENSE and the epoch's. -/
def carrierWord (g a : Nat) : Prop := epochWord g a ∨ a = chAddr g 0x1F

/-- The carrier changes with an epoch of cause bit 0. -/
def carrierSet (c g : Nat) (s : Device) : Device := updateConsts 1 true g (s.cset g CH_SENSE_CARRIER c)

theorem carrierSet_spec {c : Nat} (hc : c < 2) (g : Nat) (s : Device) : let t := carrierSet c g s
    ChanOnly g (carrierWord g) s t ∧ carry g t = carry g s ∧ t.cget g CH_SENSE_CARRIER = c ∧
      (t.cget g EPOCH_STAT_CAUSE).testBit 0 = true := by
  obtain ⟨honly, hcarry, hcause⟩ := updateConsts_spec (g := g) (causes := 1) (i := 0) (by decide) (s.cset g CH_SENSE_CARRIER c)
  have hcarrier : ¬ epochWord g (chAddr g 0x1F) := by
    rintro ⟨off, hlo, hhi, he⟩
    unfold chAddr at he
    omega
  have hset : ChanOnly g (carrierWord g) s (s.cset g CH_SENSE_CARRIER c) := chanOnly_setReg g (Or.inr rfl) _ s
  refine ⟨hset.trans (honly.mono fun _ => Or.inl), hcarry.trans (carry_cset g _ _ s), ?_, hcause⟩
  calc (carrierSet c g s).cget g CH_SENSE_CARRIER
    _ = (s.cset g CH_SENSE_CARRIER c).cget g CH_SENSE_CARRIER := congrArg CH_SENSE_CARRIER.get (honly.2.2 _ hcarrier)
    _ = c % 2 := Device.cget_cset_self s g CH_SENSE_CARRIER c (by decide)
    _ = c := Nat.mod_eq_of_lt hc

/-! Takeover (R121, R122, R124). -/

/-- A visit's status: its phase, its custody, and no deferral. -/
def visitStands (p c d : Nat) (s : Device) : Device := ((setPhase p d s).dset d BENCH_STAT_CUSTODY c).dset d BENCH_STAT_DEFER 0

theorem visitStands_spec (p c d : Nat) (s : Device) : let t := visitStands p c d s
    benchPhase t d = p % 8 ∧ t.dget d BENCH_STAT_CUSTODY = c % 2 ∧ t.dget d BENCH_STAT_DEFER = 0 := by
  dsimp only [visitStands]
  refine ⟨?_, ?_, Device.dget_dset_self _ d BENCH_STAT_DEFER 0 (by decide)⟩
  · rw [benchPhase, Device.dget_dset_apart _ _ BENCH_STAT_DEFER BENCH_STAT_PHASE _ (by decide),
      Device.dget_dset_apart _ _ BENCH_STAT_CUSTODY BENCH_STAT_PHASE _ (by decide)]
    exact benchPhase_setPhase s p
  · rw [Device.dget_dset_apart _ _ BENCH_STAT_DEFER BENCH_STAT_CUSTODY _ (by decide)]
    exact Device.dget_dset_self _ d BENCH_STAT_CUSTODY c (by decide)

theorem cget_visitStands (h8 : d < 8) (p c g : Nat) (k : Fld .ch) (s : Device) : (visitStands p c d s).cget g k = s.cget g k := by
  unfold visitStands setPhase
  rw [Device.cget_dset _ g d BENCH_STAT_DEFER k _ h8 (by decide), Device.cget_dset _ g d BENCH_STAT_CUSTODY k _ h8 (by decide),
    Device.cget_dset _ g d BENCH_STAT_PHASE k _ h8 (by decide)]

theorem ch_visitStands (p c g : Nat) (s : Device) : (visitStands p c d s).ch g = s.ch g := rfl

theorem ch_modBench (f : Bench → Bench) (g : Nat) (s : Device) : (s.modBench d f).ch g = s.ch g := rfl

/-- A takeover is due. -/
def TakeoverDue (s : Device) (d : Nat) : Prop := benchPhase s d = 3 ∧ s.clk = 0 ∧ (s.die d).bench.t1 ≤ s.frame

theorem takeover_of_not (h : ¬ TakeoverDue s d) : takeover d s = s := by
  refine if_pos ?_
  unfold TakeoverDue at h
  omega

theorem takeover_of_window (h : TakeoverDue s d) (hforced : (s.die d).bench.forced = false)
    (hw : windowBefore s (8 * d + benchCh s d) (s.frame + holdF s d + ovlF s d) = true) :
    takeover d s = s.dset d BENCH_STAT_DEFER 1 := by
  obtain ⟨hphase, hclk, ht1⟩ := h
  refine (if_neg (by omega)).trans (if_pos ?_)
  rw [hforced, hw]
  rfl

/-- With its ratios and its share of the constants the bench takes the channel. -/
theorem takeover_of_free (h : TakeoverDue s d)
    (hfree : (s.die d).bench.forced = true ∨ windowBefore s (8 * d + benchCh s d) (s.frame + holdF s d + ovlF s d) = false) :
    ∃ f k, takeover d s = visitStands 4 1 d (carrierSet 1 (8 * d + benchCh s d) ((s.modBench d f).modConv (8 * d + benchCh s d) k)) := by
  obtain ⟨hphase, hclk, ht1⟩ := h
  refine ⟨_, _, (if_neg (by omega)).trans (if_neg ?_)⟩
  rcases hfree with hforced | hw
  · rw [hforced]
    exact Bool.false_ne_true
  · rw [hw, Bool.and_false]
    exact Bool.false_ne_true

/-- What a channel has counted. -/
def Chan.counted (c : Chan) : Nat × Nat × Int := (c.acc.frac, c.acc.rawqIn, c.acc.fq)

theorem counted_of_carry {g : Nat} {s t : Device} (h : carry g t = carry g s) : (t.ch g).counted = (s.ch g).counted :=
  congrArg (fun x => (x.1, x.2.1, x.2.2.1)) h

theorem counted_modConv (k : Conv → Conv) (g h : Nat) (s : Device) : ((s.modConv g k).ch h).counted = (s.ch h).counted :=
  proj_ch_modCh (f := fun c => { c with conv := k c.conv }) Chan.counted (fun _ => rfl) g h

/-- The bench carries the channel, in custody. -/
theorem carrierTaken_spec (h8 : d < 8) (g : Nat) (s : Device) : let t := visitStands 4 1 d (carrierSet 1 g s)
    benchPhase t d = 4 ∧ t.cget g CH_SENSE_CARRIER = 1 ∧ t.dbit d BENCH_STAT_CUSTODY = true ∧ t.dbit d BENCH_STAT_DEFER = false ∧
      (t.cget g EPOCH_STAT_CAUSE).testBit 0 = true ∧ (t.ch g).counted = (s.ch g).counted ∧ ∀ h, h ≠ g → t.ch h = s.ch h := by
  obtain ⟨honly, hcarry, hcarrier, hcause⟩ := carrierSet_spec (c := 1) (by decide) g s
  obtain ⟨hphase, hcustody, hdefer⟩ := visitStands_spec 4 1 d (carrierSet 1 g s)
  dsimp only
  rw [cget_visitStands h8, cget_visitStands h8, ch_visitStands, Device.dbit, Device.dbit, hcustody, hdefer]
  exact ⟨hphase, hcarrier, rfl, rfl, hcause, counted_of_carry hcarry, fun h hh => (ch_visitStands 4 1 h _).trans (honly.2.1 h hh)⟩

theorem takeover_spec (h8 : d < 8) (h : TakeoverDue s d)
    (hfree : (s.die d).bench.forced = true ∨ windowBefore s (8 * d + benchCh s d) (s.frame + holdF s d + ovlF s d) = false) :
    let t := takeover d s
    let g := 8 * d + benchCh s d
    benchPhase t d = 4 ∧ t.cget g CH_SENSE_CARRIER = 1 ∧ t.dbit d BENCH_STAT_CUSTODY = true ∧ t.dbit d BENCH_STAT_DEFER = false ∧
      (t.cget g EPOCH_STAT_CAUSE).testBit 0 = true ∧ (t.ch g).counted = (s.ch g).counted ∧ ∀ h, h ≠ g → t.ch h = s.ch h := by
  obtain ⟨f, k, he⟩ := takeover_of_free h hfree
  dsimp only
  rw [he]
  generalize 8 * d + benchCh s d = g
  obtain ⟨hphase, hcarrier, hcustody, hdefer, hcause, hcounted, hothers⟩ := carrierTaken_spec h8 g ((s.modBench d f).modConv g k)
  exact ⟨hphase, hcarrier, hcustody, hdefer, hcause, hcounted.trans (counted_modConv k g g (s.modBench d f)),
    fun h hh => (hothers h hh).trans (Device.ch_modCh_ne (s.modBench d f) hh _)⟩

end

/-! The commands. -/

theorem exec_seedingEnd (d : Die) (seeds : List PairCal) (s : State) : exec (.seedingEnd d seeds) s = onDie d.val s (seedingEnd d.val seeds) :=
  rfl

theorem exec_benchVisitStart (d : Die) (s : State) : exec (.benchVisitStart d) s = onDie d.val s (visitStart d.val) := rfl

theorem exec_benchConnect (d : Die) (s : State) : exec (.benchConnect d) s = onDie d.val s (benchConnect d.val) := rfl

theorem exec_benchTakeover (d : Die) (s : State) : exec (.benchTakeover d) s = onDie d.val s (takeover d.val) := rfl

/-- Settles O29: each command by its own rule, the takeover through the change of the carrier. -/
theorem benchVisitsTakeCustody : Obligations.BenchVisitsTakeCustody := by
  unfold Obligations.BenchVisitsTakeCustody
  intro s d hs hd
  dsimp only
  have hlt := hs.die_lt d
  have h8 : d.val < 8 := d.isLt
  refine ⟨fun seeds f hup hseeded hat hf hload => ?_, fun seeds h => ?_, fun h => ?_, fun h => ?_, ?_, fun hphase hclk ht1 hfree => ?_,
    fun hphase hclk ht1 hforced hw => ?_, fun h => ?_⟩
  · obtain ⟨htaken, honly, hdies, hchans⟩ :=
      seedingEnd_spec hlt hs.canonical.chans h8 ⟨hup, hseeded, hload, f, hat, hf⟩ seeds
    exact does_die (exec_seedingEnd d seeds s) hd ⟨htaken, honly, hdies, fun g _ => hchans g⟩
  · refine does_die (exec_seedingEnd d seeds s) hd (seedingEnd_of_not ?_ seeds)
    rintro ⟨hup, hseeded, hload, f, hat, hf⟩
    rcases h with h | h | h | ⟨k, hk, h⟩ | ⟨hpkg, h⟩
    · simp [hup] at h
    · simp [hseeded] at h
    · simp [hat] at h
    · obtain rfl : f = k := Option.some.inj (hat.symm.trans hk)
      omega
    · rcases hload with hload | hload
      · exact hpkg hload
      · simp [hload] at h
  · exact does_die (exec_benchVisitStart d s) hd (visitStart_spec hlt h8 h)
  · exact does_die (exec_benchVisitStart d s) hd (visitStart_of_not h)
  · exact does_die (exec_benchConnect d s) hd benchConnect_spec
  · obtain ⟨h4, hcarrier, hcustody, hdefer, hcause, hcounted, hothers⟩ := takeover_spec h8 ⟨hphase, hclk, ht1⟩ hfree
    exact does_die (exec_benchTakeover d s) hd ⟨h4, hcarrier, hcustody, hdefer, hcause, congrArg (·.1) hcounted,
      congrArg (·.2.1) hcounted, congrArg (·.2.2) hcounted, hothers⟩
  · refine does_die (exec_benchTakeover d s) hd ?_
    rw [takeover_of_window ⟨hphase, hclk, ht1⟩ hforced hw]
    exact wordOnly_setReg _ _ _
  · refine does_die (exec_benchTakeover d s) hd (takeover_of_not ?_)
    rintro ⟨hphase, hclk, ht1⟩
    omega

end Sys2Proof.Machine
end

section
/-! Proofs of the family of the sense front end: a visit of the bench ends, is aborted, and is queued or forced (O30). -/

namespace Sys2Proof.Machine

/-! What an event leaves of the bench and of the package's words. -/

section
variable {s t : Device}

theorem Logged.pget (h : Logged s t) {f : Fld .pkg} (hf : f.off ∉ eventWords) : t.pget f = s.pget f := congrArg f.get (h.2 f.off hf)

theorem bench_logEvent (cat d code obj data e : Nat) (s : Device) :
    ((logEvent cat d code obj data s).die e).bench = (s.die e).bench ∧ (logEvent cat d code obj data s).dies.length = s.dies.length := by
  have hirq : (setIrq cat d obj s).dies = s.dies := by rw [(eventOnly_setIrq cat d obj s).1]
  have hdie : ((setIrq cat d obj s).die e).bench = (s.die e).bench := by rw [Device.die, Device.die, hirq]
  unfold logEvent
  dsimp only
  generalize setIrq cat d obj s = u at hirq hdie ⊢
  split_ifs with h
  · have hput : (ledgerPut (entryOf u cat d code obj data) u).dies = u.dies := by rw [(eventOnly_ledgerPut _ u).1]
    exact ⟨by rw [Device.die, hput]; exact hdie, by rw [hput, hirq]⟩
  · refine ⟨(proj_die_modDie (·.bench) (fun x => ?_) d e).trans hdie, ?_⟩
    · split_ifs <;> rfl
    · rw [Device.modDie, List.length_modify, hirq]

end

/-! The end of a visit (R121, R123). -/

section
variable {d : Nat} {s : Device}

/-- A bench without a visit. -/
def Bench.idle (b : Bench) : Bench := { b with backAt := none, forced := false }

theorem endVisit_eq : endVisit d s = benchBaton false d ((visitStands 0 0 d s).modBench d Bench.idle) := rfl

theorem benchPhase_endVisit : benchPhase (endVisit d s) d = 0 := by
  rw [endVisit_eq, benchPhase, dget_benchBaton, dget_modBench]
  exact (visitStands_spec 0 0 d s).1

theorem custody_endVisit : (endVisit d s).dbit d BENCH_STAT_CUSTODY = false := by
  rw [endVisit_eq, Device.dbit, dget_benchBaton, dget_modBench, (visitStands_spec 0 0 d s).2.1]
  rfl

theorem fail_endVisit : (endVisit d s).dget d BENCH_STAT_FAIL = s.dget d BENCH_STAT_FAIL := by
  rw [endVisit_eq, dget_benchBaton, dget_modBench, visitStands, Device.dget_dset_apart _ _ BENCH_STAT_DEFER _ _ (by decide),
    Device.dget_dset_apart _ _ BENCH_STAT_CUSTODY _ _ (by decide), setPhase,
    Device.dget_dset_apart _ _ BENCH_STAT_PHASE _ _ (by decide)]

theorem held_endVisit (h8 : d < 8) : (endVisit d s).pgetBit BATON_STAT_BENCH_HELD d = false := held_benchBaton _ h8 false

theorem chans_visitStands (p c : Nat) : (visitStands p c d s).chans = s.chans := rfl

theorem dies_visitStands (p c : Nat) : (visitStands p c d s).dies = s.dies := rfl

theorem chans_endVisit : (endVisit d s).chans = s.chans := by
  rw [endVisit_eq, chans_benchBaton, chans_modBench, chans_visitStands]

theorem cget_modBench (g k : Nat) (h : Bench → Bench) (f : Fld .ch) : (s.modBench k h).cget g f = s.cget g f := rfl

theorem cget_endVisit (h8 : d < 8) (g : Nat) (k : Fld .ch) : (endVisit d s).cget g k = s.cget g k := by
  rw [endVisit_eq, cget_benchBaton, cget_modBench, cget_visitStands h8]

theorem bench_endVisit (hlt : d < s.dies.length) : ((endVisit d s).die d).bench = (s.die d).bench.idle := by
  have hdies : (visitStands 0 0 d s).dies = s.dies := dies_visitStands 0 0
  rw [endVisit_eq, die_benchBaton, bench_modBench (by rw [hdies]; exact hlt), Device.die, hdies, ← Device.die]

/-! The end of the self-calibration (R107, R122, R123). -/

theorem visitMayStart_of_fail (h : s.dbit d BENCH_STAT_FAIL = true) : visitMayStart s d = false := by
  simp only [visitMayStart, h, Bool.not_true, Bool.and_false, Bool.false_and]

/-- The bounds of R123 are passed. -/
def calBad (res : PairCal) : Bool := [res.iH, res.iL, res.v].any ofsBad || [res.iH, res.iL, res.v].any gainBad

/-- A bench with the results of a self-calibration. -/
def Bench.calibrated (res : PairCal) (b : Bench) : Bench :=
  { b with ob := [res.iH.ofs, res.iL.ofs, res.v.ofs], gb := [res.iH.gain, res.iL.gain, res.v.gain] }

/-- REF_RATIO is measured anew while VREFX is in use (R107). -/
def refRatioAnew (d : Nat) (s : Device) : Device :=
  if (s.die d).refInt then s else (s.setReg (dieAddr d 0x17) (Config.freeValue s.free)).nextFree

/-- The self-calibration of TEST is over when it ends (R129). -/
def testDone (d : Nat) (s : Device) : Device := if pkgState s = Pkg.test then setPhase 0 d s else s

theorem selfcalEnd_of_not (h : benchPhase s d ≠ 1 ∨ selfcalOver s d = false) (res : PairCal) : selfcalEnd d res s = s := if_pos h

theorem selfcalEnd_of_bad {res : PairCal} (hphase : benchPhase s d = 1) (hover : selfcalOver s d = true) (h : calBad res = true) :
    ∃ data, selfcalEnd d res s = logEvent 10 d 0x03 0xFF data (endVisit d (s.dset d BENCH_STAT_FAIL 1)) :=
  ⟨_, (if_neg (by simp [hphase, hover])).trans (if_pos h)⟩

theorem selfcalEnd_of_good {res : PairCal} (hphase : benchPhase s d = 1) (hover : selfcalOver s d = true) (h : calBad res = false) :
    selfcalEnd d res s = testDone d (refRatioAnew d (s.modBench d (Bench.calibrated res))) :=
  (if_neg (by simp [hphase, hover])).trans (if_neg (Bool.eq_false_iff.mp h))

theorem refRatioAnew_spec : (refRatioAnew d s).die d = s.die d ∧ (refRatioAnew d s).chans = s.chans ∧
    ((s.die d).refInt = true → (refRatioAnew d s).reg (dieAddr d 0x17) = s.reg (dieAddr d 0x17)) := by
  unfold refRatioAnew
  split_ifs with h
  · exact ⟨rfl, rfl, fun _ => rfl⟩
  · exact ⟨rfl, rfl, fun hint => absurd hint h⟩

theorem testDone_spec : (testDone d s).die d = s.die d ∧ (testDone d s).chans = s.chans ∧
    (testDone d s).reg (dieAddr d 0x17) = s.reg (dieAddr d 0x17) := by
  unfold testDone
  split_ifs
  · exact ⟨rfl, rfl, Device.reg_setReg_ne s (by unfold dieAddr; simp [BENCH_STAT_PHASE]) _⟩
  · exact ⟨rfl, rfl, rfl⟩

theorem selfcalEnd_bad_spec (h8 : d < 8) {res : PairCal} (hphase : benchPhase s d = 1) (hover : selfcalOver s d = true)
    (h : calBad res = true) : let t := selfcalEnd d res s
    t.dbit d BENCH_STAT_FAIL = true ∧ benchPhase t d = 0 ∧ t.pgetBit BATON_STAT_BENCH_HELD d = false ∧ visitMayStart t d = false ∧
      t.chans = s.chans := by
  obtain ⟨data, he⟩ := selfcalEnd_of_bad hphase hover h
  dsimp only
  rw [he]
  have hlog := logged_logEvent 10 d 0x03 0xFF data (endVisit d (s.dset d BENCH_STAT_FAIL 1))
  generalize logEvent 10 d 0x03 0xFF data (endVisit d (s.dset d BENCH_STAT_FAIL 1)) = t at hlog ⊢
  have hfail : t.dbit d BENCH_STAT_FAIL = true := by
    rw [Device.dbit, hlog.dget, fail_endVisit, Device.dget_dset_self _ _ _ _ (by decide)]
    rfl
  refine ⟨hfail, (hlog.dget d _).trans benchPhase_endVisit, ?_, visitMayStart_of_fail hfail, hlog.chans.trans (chans_endVisit.trans (chans_dset _ d _ _))⟩
  rw [Device.pgetBit, hlog.pget (by decide)]
  exact held_endVisit h8

theorem selfcalEnd_good_spec (hlt : d < s.dies.length) {res : PairCal} (hphase : benchPhase s d = 1) (hover : selfcalOver s d = true)
    (h : calBad res = false) : let t := selfcalEnd d res s
    (t.die d).bench = (s.die d).bench.calibrated res ∧
      ((s.die d).refInt = true → t.reg (dieAddr d 0x17) = s.reg (dieAddr d 0x17)) ∧ t.chans = s.chans := by
  dsimp only
  rw [selfcalEnd_of_good hphase hover h]
  have hbench := bench_modBench hlt (Bench.calibrated res)
  have hint : ((s.modBench d (Bench.calibrated res)).die d).refInt = (s.die d).refInt := proj_die_modDie (f := fun x => { x with bench := x.bench.calibrated res }) (·.refInt) (fun _ => rfl) d d
  have hreg : (s.modBench d (Bench.calibrated res)).reg (dieAddr d 0x17) = s.reg (dieAddr d 0x17) := rfl
  have hchans := chans_modBench (d := d) (Bench.calibrated res) s
  generalize s.modBench d (Bench.calibrated res) = u at *
  obtain ⟨hdie, hch, hratio⟩ := refRatioAnew_spec (d := d) (s := u)
  obtain ⟨hdie', hch', hratio'⟩ := testDone_spec (d := d) (s := refRatioAnew d u)
  exact ⟨by rw [hdie', hdie, hbench], fun hx => (hratio'.trans (hratio (hint.trans hx))).trans hreg, (hch'.trans hch).trans hchans⟩

/-! Aborts, requests and the expiry of the baton (R116, R124, R125, R433, R434). -/

/-- The status of a visit that aborts. -/
def abortStands (d : Nat) (s : Device) : Device := ((setPhase 6 d s).dset d BENCH_STAT_ABORT_EVT 1).dset d BENCH_STAT_DEFER 0

theorem abortStands_spec : benchPhase (abortStands d s) d = 6 ∧ (abortStands d s).dbit d BENCH_STAT_ABORT_EVT = true ∧
    (abortStands d s).dbit d BENCH_STAT_DEFER = false := by
  have hevent (u : Device) : (u.dset d BENCH_STAT_ABORT_EVT 1).dget d BENCH_STAT_ABORT_EVT = 1 := Device.dget_dset_self _ _ _ _ (by decide)
  have hdefer (u : Device) : (u.dset d BENCH_STAT_DEFER 0).dget d BENCH_STAT_DEFER = 0 := Device.dget_dset_self _ _ _ _ (by decide)
  unfold abortStands
  refine ⟨?_, ?_, by rw [Device.dbit, hdefer]; rfl⟩
  · rw [benchPhase, Device.dget_dset_apart _ _ BENCH_STAT_DEFER BENCH_STAT_PHASE _ (by decide),
      Device.dget_dset_apart _ _ BENCH_STAT_ABORT_EVT BENCH_STAT_PHASE _ (by decide)]
    exact benchPhase_setPhase s 6
  · rw [Device.dbit, Device.dget_dset_apart _ _ BENCH_STAT_DEFER BENCH_STAT_ABORT_EVT _ (by decide), hevent]
    rfl

theorem regsOnly_abortStands : RegsOnly (· = dieAddr d 0x14) s (abortStands d s) :=
  regsOnly_trans (regsOnly_setPhase s 6) (regsOnly_trans (regsOnly_setReg _ _ _) (regsOnly_setReg _ _ _))

/-- A bench whose visit goes back to its channel at a frame. -/
def Bench.backBy (frame : Nat) (b : Bench) : Bench := { b with backAt := some frame }

theorem benchAbort_of (h : benchPhase s d ∉ [0, 6]) : benchAbort d s =
    (abortStands d s).modBench d (Bench.backBy (s.frame + if s.dbit d BENCH_STAT_CUSTODY then 17 else 1)) := by
  have hcustody : ((setPhase 6 d s).dset d BENCH_STAT_ABORT_EVT 1).dbit d BENCH_STAT_CUSTODY = s.dbit d BENCH_STAT_CUSTODY := by
    rw [Device.dbit, Device.dget_dset_apart _ _ BENCH_STAT_ABORT_EVT BENCH_STAT_CUSTODY _ (by decide), setPhase,
      Device.dget_dset_apart _ _ BENCH_STAT_PHASE BENCH_STAT_CUSTODY _ (by decide), ← Device.dbit]
  have hback : s.frame + 1 + (if s.dbit d BENCH_STAT_CUSTODY then 16 else 0) = s.frame + if s.dbit d BENCH_STAT_CUSTODY then 17 else 1 := by
    split_ifs <;> rfl
  have hframe : ((setPhase 6 d s).dset d BENCH_STAT_ABORT_EVT 1).frame = s.frame :=
    (Device.setReg_frame _ _ _).trans (Device.setReg_frame _ _ _)
  unfold benchAbort abortStands
  dsimp only
  rw [if_neg (by simpa using h), hcustody, hframe, hback]
  rfl

theorem benchAbort_of_idle (h : benchPhase s d ∈ [0, 6]) : benchAbort d s = s := if_pos (by simpa using h)

theorem RegsOnly.dieOnly {rs : Nat → Prop} {t : Device} (h : RegsOnly rs s t) : DieOnly d rs s t := by
  have hdies : t.dies = s.dies := by rw [h.1]
  refine ⟨?_, fun e _ => by rw [Device.die, Device.die, hdies], h.2⟩
  conv_lhs => rw [h.1]
  rw [hdies]

theorem benchAbort_spec (hlt : d < s.dies.length) (h : benchPhase s d ∉ [0, 6]) : let t := benchAbort d s
    benchPhase t d = 6 ∧ t.dbit d BENCH_STAT_ABORT_EVT = true ∧ t.dbit d BENCH_STAT_DEFER = false ∧
      t.die d = { s.die d with bench := (s.die d).bench.backBy (s.frame + if s.dbit d BENCH_STAT_CUSTODY then 17 else 1) } ∧
      DieOnly d (· = dieAddr d 0x14) s t := by
  dsimp only
  rw [benchAbort_of h]
  obtain ⟨hphase, hevent, hdefer⟩ := abortStands_spec (d := d) (s := s)
  have honly := regsOnly_abortStands (d := d) (s := s)
  have hdies : (abortStands d s).dies = s.dies := by rw [honly.1]
  generalize abortStands d s = u at *
  refine ⟨hphase, hevent, hdefer, ?_, honly.dieOnly.trans ((dieOnly_modDie u d _).mono fun _ h => h.elim)⟩
  rw [Device.modBench, Device.die_modDie_self u (by rw [hdies]; exact hlt), Device.die, hdies, ← Device.die]

theorem DieOnly.chans {rs : Nat → Prop} {t : Device} (h : DieOnly d rs s t) : t.chans = s.chans := by rw [h.1]

theorem benchForce_spec (hlt : d < s.dies.length) (c : Nat) : let t := benchForce d c s
    (t.die d).bench.forceCh = some c ∧ benchPhase t d = (if benchPhase s d = 0 then 0 else 6) ∧ t.chans = s.chans := by
  have hbench := bench_modBench hlt fun b => { b with forceCh := some c }
  have hphase : benchPhase (s.modBench d fun b => { b with forceCh := some c }) d = benchPhase s d := dget_modBench s d d _ _
  have hchans := chans_modBench (d := d) (fun b => { b with forceCh := some c }) s
  have hlt' : d < (s.modBench d fun b => { b with forceCh := some c }).dies.length := by
    rw [Device.modBench, Device.modDie, List.length_modify]
    exact hlt
  dsimp only [benchForce]
  generalize (s.modBench d fun b => { b with forceCh := some c }) = u at *
  rw [← hphase, ← hchans]
  by_cases h : benchPhase u d ∈ [0, 6]
  · rw [benchAbort_of_idle h]
    refine ⟨by rw [hbench], ?_, rfl⟩
    simp only [List.mem_cons, List.not_mem_nil, or_false] at h
    split_ifs <;> omega
  · obtain ⟨habort, hevent, hdefer, hdie, honly⟩ := benchAbort_spec hlt' h
    refine ⟨by rw [hdie, Bench.backBy, hbench], ?_, honly.chans⟩
    rw [habort, if_neg]
    exact fun h0 => h (by simp [h0])

theorem benchQueue_spec (hlt : d < s.dies.length) (c : Nat) : DieOnly d noWord s (benchQueue d c s) ∧
    (benchQueue d c s).die d = { s.die d with bench := { (s.die d).bench with queue := (s.die d).bench.queue ++ [c] } } :=
  ⟨dieOnly_modDie s d _, Device.die_modDie_self s hlt _⟩

/-- The baton of a visit expires. -/
def Expires (s : Device) (d : Nat) : Prop := benchPhase s d ∉ [0, 6] ∧ pkgState s ≠ Pkg.test ∧ (s.die d).bench.t2 + 64 ≤ s.frame

theorem expires_iff : (benchVisit s d && benchPhase s d != 6 && decide ((s.die d).bench.t2 + 64 ≤ s.frame)) = true ↔ Expires s d := by
  simp only [benchVisit, Expires, Bool.and_eq_true, bne_iff_ne, ne_eq, decide_eq_true_eq, List.mem_cons, List.not_mem_nil, or_false, not_or]
  tauto

/-- The baton has expired, with its entry. -/
def expired (d : Nat) (s : Device) : Device := logEvent Cat.link d 0x0B d 4 ((benchBaton false d s).pset BATON_STAT_BENCH_EXP_EVT 1)

theorem benchBatonExpiry_of (h : Expires s d) : benchBatonExpiry d s = benchAbort d (expired d s) := if_pos (expires_iff.mpr h)

theorem benchBatonExpiry_of_not (h : ¬ Expires s d) : benchBatonExpiry d s = s := if_neg (mt expires_iff.mp h)

theorem expired_spec (h8 : d < 8) : let t := expired d s
    t.pgetBit BATON_STAT_BENCH_HELD d = false ∧ t.pget BATON_STAT_BENCH_EXP_EVT = 1 ∧ (irqStatus t).testBit 8 = true ∧
      benchPhase t d = benchPhase s d ∧ t.chans = s.chans ∧ t.dies.length = s.dies.length := by
  have hlog := logged_logEvent Cat.link d 0x0B d 4 ((benchBaton false d s).pset BATON_STAT_BENCH_EXP_EVT 1)
  have hirq := irqStatus_logEvent (s := (benchBaton false d s).pset BATON_STAT_BENCH_EXP_EVT 1) (cat := Cat.link) (by decide) d 0x0B d 4
  obtain ⟨-, hdies⟩ := bench_logEvent Cat.link d 0x0B d 4 d ((benchBaton false d s).pset BATON_STAT_BENCH_EXP_EVT 1)
  dsimp only [expired]
  generalize logEvent Cat.link d 0x0B d 4 ((benchBaton false d s).pset BATON_STAT_BENCH_EXP_EVT 1) = t at *
  refine ⟨?_, ?_, hirq, ?_, hlog.chans.trans ?_, hdies.trans ?_⟩
  · rw [Device.pgetBit, hlog.pget (by decide), Device.pget_pset_apart _ BATON_STAT_BENCH_EXP_EVT BATON_STAT_BENCH_HELD _ (by decide)]
    exact held_benchBaton s h8 false
  · rw [hlog.pget (by decide)]
    exact Device.pget_pset_self _ BATON_STAT_BENCH_EXP_EVT 1 (by decide)
  · rw [benchPhase, hlog.dget, Device.dget_pset _ d BATON_STAT_BENCH_EXP_EVT BENCH_STAT_PHASE _ (by decide), dget_benchBaton, ← benchPhase]
  · exact (Device.setReg_chans _ _ _).trans (chans_benchBaton s false d)
  · exact (congrArg List.length (Device.setReg_dies _ _ _)).trans (congrArg List.length (Device.setReg_dies s _ _))

theorem benchBatonExpiry_spec (hlt : d < s.dies.length) (h8 : d < 8) (h : Expires s d) : let t := benchBatonExpiry d s
    t.pgetBit BATON_STAT_BENCH_HELD d = false ∧ t.pget BATON_STAT_BENCH_EXP_EVT = 1 ∧ (irqStatus t).testBit 8 = true ∧
      benchPhase t d = 6 ∧ t.chans = s.chans := by
  dsimp only
  rw [benchBatonExpiry_of h]
  obtain ⟨hheld, hexp, hirq, hphase, hchans, hdies⟩ := expired_spec (s := s) h8
  have hbusy : benchPhase (expired d s) d ∉ [0, 6] := by
    rw [hphase]
    exact h.1
  obtain ⟨habort, -, -, -, honly⟩ := benchAbort_spec (s := expired d s) (by rw [hdies]; exact hlt) hbusy
  have hword {a : Nat} (ha : a < 0x1000) : (benchAbort d (expired d s)).reg a = (expired d s).reg a :=
    honly.2.2 a (by simp only [dieAddr]; omega)
  refine ⟨?_, ?_, (congrArg (·.testBit 8) (irqStatus_of_reg _ (hword (by decide)))).trans hirq, habort, honly.chans.trans hchans⟩
  · rw [Device.pgetBit, Device.pget, hword (by decide)]
    exact hheld
  · rw [Device.pget, hword (by decide)]
    exact hexp

end

end Sys2Proof.Machine
end

section
/-! Proofs of the family of the sense front end: the hand-back of a channel, and the ends of a visit (O30). -/

namespace Sys2Proof.Machine

/-! The drift that a hand-back finds (R122, R123). -/

/-- What a hand-back's correction leaves: every other channel, the counts of the visited one, the bench, and, where no correction is
applied, the factors in force. -/
structure Handed (use : Bool) (d g : Nat) (s t : Device) : Prop where
  counted : (t.ch g).counted = (s.ch g).counted
  fixed : use = false → (t.ch g).conv.fBenchIH = (s.ch g).conv.fBenchIH ∧ (t.ch g).conv.fBenchV = (s.ch g).conv.fBenchV
  others : ∀ h, h ≠ g → t.ch h = s.ch h
  bench : (t.die d).bench = (s.die d).bench
  chans : t.chans.length = s.chans.length
  dies : t.dies.length = s.dies.length

section
variable {use : Bool} {d g : Nat} {s t u : Device}

theorem Handed.refl (s : Device) : Handed use d g s s := ⟨rfl, fun _ => ⟨rfl, rfl⟩, fun _ _ => rfl, rfl, rfl, rfl⟩

theorem Handed.trans (hst : Handed use d g s t) (htu : Handed use d g t u) : Handed use d g s u where
  counted := htu.counted.trans hst.counted
  fixed h := ⟨(htu.fixed h).1.trans (hst.fixed h).1, (htu.fixed h).2.trans (hst.fixed h).2⟩
  others h hh := (htu.others h hh).trans (hst.others h hh)
  bench := htu.bench.trans hst.bench
  chans := htu.chans.trans hst.chans
  dies := htu.dies.trans hst.dies

theorem handed_setReg (a : Nat) (w : Word) (s : Device) : Handed use d g s (s.setReg a w) :=
  ⟨rfl, fun _ => ⟨rfl, rfl⟩, fun _ _ => rfl, rfl, rfl, rfl⟩

theorem handed_ite {c : Prop} [Decidable c] (ht : Handed use d g s t) (hu : Handed use d g s u) :
    Handed use d g s (if c then t else u) := by
  split_ifs
  · exact ht
  · exact hu

theorem handed_logEvent (cat e code obj data : Nat) (s : Device) : Handed use d g s (logEvent cat e code obj data s) := by
  have hlog := logged_logEvent cat e code obj data s
  obtain ⟨hbench, hdies⟩ := bench_logEvent cat e code obj data d s
  have hchans := hlog.chans
  have hch (h : Nat) : (logEvent cat e code obj data s).ch h = s.ch h := by rw [Device.ch, Device.ch, hchans]
  exact ⟨by rw [hch], fun _ => by rw [hch]; exact ⟨rfl, rfl⟩, fun h _ => hch h, hbench, by rw [hchans], hdies⟩

/-- Where no correction is applied the factors stay. -/
theorem handed_modConv {k : Conv → Conv} (hk : use = false → ∀ v, (k v).fBenchIH = v.fBenchIH ∧ (k v).fBenchV = v.fBenchV) (s : Device) :
    Handed use d g s (s.modConv g k) where
  counted := counted_modConv k g g s
  fixed h := ⟨proj_ch_modCh (f := fun c => { c with conv := k c.conv }) (·.conv.fBenchIH) (fun c => (hk h c.conv).1) g g,
    proj_ch_modCh (f := fun c => { c with conv := k c.conv }) (·.conv.fBenchV) (fun c => (hk h c.conv).2) g g⟩
  others _ hh := Device.ch_modCh_ne s hh _
  bench := rfl
  chans := by rw [Device.modConv, Device.modCh, List.length_modify]
  dies := rfl

/-- The correction of one modulator, applied where corrections are and none is a mismatch. -/
def driftPut (use : Bool) (g k : Nat) (x : Drift) (s : Device) : Device := if use && !x.mis then applyDrift k x g s else s

theorem handed_driftPut (k : Nat) (x : Drift) (s : Device) : Handed use d g s (driftPut use g k x s) := by
  unfold driftPut
  cases use with
  | false => exact Handed.refl s
  | true => exact handed_ite (handed_modConv (fun h => absurd h (by decide)) s) (Handed.refl s)

theorem handed_benchMismatch (volt : Bool) (dd : Int) (h : Nat) (s : Device) : Handed use d g s (benchMismatch volt h dd s) :=
  (handed_setReg _ _ _).trans ((handed_setReg _ _ _).trans (handed_logEvent _ _ _ _ _ _))

/-- A mismatch is flagged, or a good correction takes its flag back. -/
def driftFlag (use volt mis : Bool) (f : Fld .die) (dd : Int) (d c : Nat) (s : Device) : Device :=
  if mis then benchMismatch volt (8 * d + c) dd s else if use then dsetBit d f c false s else s

theorem handed_driftFlag (volt mis : Bool) (f : Fld .die) (dd : Int) (c : Nat) (s : Device) :
    Handed use d g s (driftFlag use volt mis f dd d c s) :=
  handed_ite (handed_benchMismatch _ _ _ s) (handed_ite (handed_setReg _ _ s) (Handed.refl s))

/-- The drifts of the voltage modulator shows, and the visit is done, where every correction is applied. -/
def driftShown (use : Bool) (xi xo xv : Drift) (d c : Nat) (s : Device) : Device :=
  let s := lastOfs (8 * d + c) (showDrift (8 * d + c) s)
  let s := if use && !xv.mis then s.dset d (BENCH_DRIFT_V_DRIFT.at c) (fieldOf 16 (clampSigned 16 xv.d)) else s
  if use && !(xi.mis || xo.mis) && !xv.mis then s.dset d BENCH_STAT_DONE_EVT 1 else s

theorem handed_driftShown (xi xo xv : Drift) (c : Nat) (s : Device) : Handed use d g s (driftShown use xi xo xv d c s) := by
  have hlast : Handed use d g s (lastOfs (8 * d + c) (showDrift (8 * d + c) s)) := (handed_setReg _ _ s).trans (handed_setReg _ _ _)
  unfold driftShown
  dsimp only
  exact (hlast.trans (handed_ite (handed_setReg _ _ _) (Handed.refl _))).trans (handed_ite (handed_setReg _ _ _) (Handed.refl _))

/-- What a visit has seen of a channel's modulators is kept. -/
def Conv.seen (seen : PairCal) (v : Conv) : Conv := { v with visit := some seen }

/-- A visit whose cross-checks pass is kept as seen. -/
def visitSeen (g : Nat) (pass : Bool) (seen : PairCal) (s : Device) : Device := if pass then s.modConv g (Conv.seen seen) else s

theorem handed_visitSeen (pass : Bool) (seen : PairCal) (s : Device) : Handed use d g s (visitSeen g pass seen s) :=
  handed_ite (handed_modConv (k := Conv.seen seen) (fun _ _ => ⟨rfl, rfl⟩) s) (Handed.refl s)

/-- The drift of a visit, of the range in force, the other one and the voltage, applied and shown. -/
def driftDone (use : Bool) (k o : Nat) (xi xo xv : Drift) (seen : PairCal) (d c : Nat) (s : Device) : Device :=
  visitSeen (8 * d + c) (xi.cross && xv.cross) seen (driftShown use xi xo xv d c
    (driftFlag use true xv.mis BENCH_MIS_V_MISMATCH xv.d d c
      (driftFlag use false (xi.mis || xo.mis) BENCH_MIS_I_MISMATCH (if xi.mis then xi.d else xo.d) d c
        (driftPut use (8 * d + c) 2 xv (driftPut use (8 * d + c) o xo (driftPut use (8 * d + c) k xi s))))))

theorem handed_driftDone (k o : Nat) (xi xo xv : Drift) (seen : PairCal) (c : Nat) (s : Device) :
    Handed use d (8 * d + c) s (driftDone use k o xi xo xv seen d c s) :=
  (handed_driftPut k xi s).trans ((handed_driftPut o xo _).trans ((handed_driftPut 2 xv _).trans ((handed_driftFlag false _ _ _ c _).trans
    ((handed_driftFlag true _ _ _ c _).trans ((handed_driftShown xi xo xv c _).trans (handed_visitSeen _ seen _))))))

end

/-! Hand-back (R121 to R123). -/

/-- A bench whose visit of a channel is over, with the results of its self-calibration. -/
def Bench.visited (c : Nat) (res : PairCal) (b : Bench) : Bench :=
  { b with gcLast := b.gcLast.set c res, last := if b.inRotation then c else b.last }

/-- A channel's constants without the bench's share. -/
def Conv.released (v : Conv) : Conv := { v with fCarryI := 2 ^ 40, fCarryV := 2 ^ 40, benchH := 0, benchL := 0, benchV := 0 }

section
variable {d : Nat} {s : Device}

/-- A hand-back is due. -/
def HandbackDue (s : Device) (d : Nat) : Prop := benchPhase s d = 5 ∧ s.clk = 0 ∧ (s.die d).bench.t2 ≤ s.frame

theorem handback_of_not (h : ¬ HandbackDue s d) (res : PairCal) : handback d res s = s := by
  refine if_pos ?_
  unfold HandbackDue at h
  omega

/-- The die applies the corrections of its hand-backs: not on its internal reference and not in class 2 (R106, R188). -/
def corrects (s : Device) (d : Nat) : Bool := !(s.die d).refInt && s.dget d DIE_STAT_ACC_CLASS != 2

theorem handback_of (h : HandbackDue s d) (res : PairCal) : ∃ k o xi xo xv seen, handback d res s =
    endVisit d (releaseCarrier (8 * d + benchCh s d)
      ((driftDone (corrects s d) k o xi xo xv seen d (benchCh s d) s).modBench d (Bench.visited (benchCh s d) res))) := by
  obtain ⟨hphase, hclk, ht2⟩ := h
  exact ⟨_, _, _, _, _, _, if_neg (by omega)⟩

/-- The channel has itself back: its factors and offsets are free of the bench's share, its counts and its own factors stay. -/
theorem releaseCarrier_spec {g : Nat} (hg : g < s.chans.length) : let t := releaseCarrier g s
    t.cget g CH_SENSE_CARRIER = 0 ∧ (t.cget g EPOCH_STAT_CAUSE).testBit 0 = true ∧ (t.ch g).counted = (s.ch g).counted ∧
      (t.ch g).conv.fCarryI = 2 ^ 40 ∧ (t.ch g).conv.fCarryV = 2 ^ 40 ∧ (t.ch g).conv.fBenchIH = (s.ch g).conv.fBenchIH ∧
      (t.ch g).conv.fBenchV = (s.ch g).conv.fBenchV ∧ (∀ h, h ≠ g → t.ch h = s.ch h) ∧ t.dies = s.dies := by
  obtain ⟨honly, hcarry, hcarrier, hcause⟩ := carrierSet_spec (c := 0) (by decide) g (s.modConv g Conv.released)
  have hfree : (s.modConv g Conv.released).ch g = { s.ch g with conv := (s.ch g).conv.released } := Device.ch_modCh_self s hg _
  have hcounted := counted_modConv Conv.released g g s
  have hrest : releaseCarrier g s = carrierSet 0 g (s.modConv g Conv.released) := rfl
  dsimp only
  rw [hrest]
  have hothers (h : Nat) (hh : h ≠ g) : (s.modConv g Conv.released).ch h = s.ch h := Device.ch_modCh_ne s hh _
  have hdies : (s.modConv g Conv.released).dies = s.dies := Device.modCh_dies s g _
  generalize s.modConv g Conv.released = u at *
  have hconv : ((carrierSet 0 g u).ch g).carried = { s.ch g with conv := (s.ch g).conv.released }.carried :=
    hcarry.trans (congrArg Chan.carried hfree)
  refine ⟨hcarrier, hcause, (counted_of_carry hcarry).trans hcounted, congrArg (·.2.2.2.fCarryI) hconv, congrArg (·.2.2.2.fCarryV) hconv,
    congrArg (·.2.2.2.fBenchIH) hconv, congrArg (·.2.2.2.fBenchV) hconv, fun h hh => (honly.2.1 h hh).trans (hothers h hh), ?_⟩
  rw [honly.1]
  exact hdies

/-- The channel is released and the visit ends. -/
theorem visitOver_spec {g c : Nat} {res : PairCal} (h8 : d < 8) (hlt : d < s.dies.length) (hg : g < s.chans.length) :
    let t := endVisit d (releaseCarrier g (s.modBench d (Bench.visited c res)))
    benchPhase t d = 0 ∧ t.cget g CH_SENSE_CARRIER = 0 ∧ t.dbit d BENCH_STAT_CUSTODY = false ∧
      (t.cget g EPOCH_STAT_CAUSE).testBit 0 = true ∧ (t.ch g).conv.fCarryI = 2 ^ 40 ∧ (t.ch g).conv.fCarryV = 2 ^ 40 ∧
      (t.ch g).counted = (s.ch g).counted ∧ (t.die d).bench.gcLast = (s.die d).bench.gcLast.set c res ∧
      (t.ch g).conv.fBenchIH = (s.ch g).conv.fBenchIH ∧ (t.ch g).conv.fBenchV = (s.ch g).conv.fBenchV ∧
      ∀ h, h ≠ g → t.ch h = s.ch h := by
  have hbench := bench_modBench hlt (Bench.visited c res)
  have hch (h : Nat) := ch_modBench (d := d) (Bench.visited c res) h s
  have hlen : d < (s.modBench d (Bench.visited c res)).dies.length := by
    rw [Device.modBench, Device.modDie, List.length_modify]
    exact hlt
  have hchans := chans_modBench (d := d) (Bench.visited c res) s
  dsimp only
  generalize s.modBench d (Bench.visited c res) = u at *
  obtain ⟨hcarrier, hcause, hcounted, hi, hv, hbi, hbv, hothers, hdies⟩ := releaseCarrier_spec (s := u) (g := g) (by rw [hchans]; exact hg)
  generalize releaseCarrier g u = w at *
  have hend (h : Nat) : (endVisit d w).ch h = w.ch h := by rw [Device.ch, Device.ch, chans_endVisit]
  have hlast : ((endVisit d w).die d).bench.gcLast = (s.die d).bench.gcLast.set c res := by
    rw [bench_endVisit (by rw [hdies]; exact hlen), Device.die, hdies, ← Device.die, hbench]
    rfl
  rw [cget_endVisit h8, cget_endVisit h8, hend, hcounted, hi, hv, hbi, hbv, hch]
  exact ⟨benchPhase_endVisit, hcarrier, custody_endVisit, hcause, rfl, rfl, rfl, hlast, rfl, rfl,
    fun h hh => (hend h).trans ((hothers h hh).trans (hch h))⟩

theorem handback_spec (h8 : d < 8) (hlt : d < s.dies.length) (hlen : s.chans.length = 64) (h : HandbackDue s d) (res : PairCal) :
    let t := handback d res s
    let g := 8 * d + benchCh s d
    benchPhase t d = 0 ∧ t.cget g CH_SENSE_CARRIER = 0 ∧ t.dbit d BENCH_STAT_CUSTODY = false ∧
      (t.cget g EPOCH_STAT_CAUSE).testBit 0 = true ∧ (t.ch g).conv.fCarryI = 2 ^ 40 ∧ (t.ch g).conv.fCarryV = 2 ^ 40 ∧
      (t.ch g).counted = (s.ch g).counted ∧ (t.die d).bench.gcLast = (s.die d).bench.gcLast.set (benchCh s d) res ∧
      ((s.die d).refInt = true → (t.ch g).conv.fBenchIH = (s.ch g).conv.fBenchIH ∧ (t.ch g).conv.fBenchV = (s.ch g).conv.fBenchV) ∧
      ∀ h, h ≠ g → t.ch h = s.ch h := by
  obtain ⟨k, o, xi, xo, xv, seen, he⟩ := handback_of h res
  have hc : benchCh s d < 8 := Nat.mod_lt _ (by decide)
  have hhanded := handed_driftDone (use := corrects s d) k o xi xo xv seen (d := d) (benchCh s d) s
  have hint : (s.die d).refInt = true → corrects s d = false := fun h => by rw [corrects, h]; rfl
  dsimp only
  rw [he]
  generalize driftDone (corrects s d) k o xi xo xv seen d (benchCh s d) s = u at *
  obtain ⟨hphase, hcarrier, hcustody, hcause, hi, hv, hcounted, hlast, hbi, hbv, hothers⟩ :=
    visitOver_spec (s := u) (g := 8 * d + benchCh s d) (c := benchCh s d) (res := res) h8 (by rw [hhanded.dies]; exact hlt)
      (by rw [hhanded.chans]; omega)
  refine ⟨hphase, hcarrier, hcustody, hcause, hi, hv, hcounted.trans hhanded.counted, by rw [hlast, hhanded.bench], fun hx => ?_,
    fun h hh => (hothers h hh).trans (hhanded.others h hh)⟩
  obtain ⟨hfi, hfv⟩ := hhanded.fixed (hint hx)
  exact ⟨hbi.trans hfi, hbv.trans hfv⟩

end

/-! The commands. -/

theorem exec_benchSelfcalEnd (d : Die) (res : PairCal) (s : State) : exec (.benchSelfcalEnd d res) s = onDie d.val s (selfcalEnd d.val res) :=
  rfl

theorem exec_benchHandback (d : Die) (res : PairCal) (s : State) : exec (.benchHandback d res) s = onDie d.val s (handback d.val res) := rfl

theorem exec_benchAbort (d : Die) (cause : AbortCause) (s : State) : exec (.benchAbort d cause) s = onDie d.val s (benchAbort d.val) := rfl

theorem exec_benchForce (d : Die) (c : Loc) (s : State) : exec (.benchForce d c) s = onDie d.val s (benchForce d.val c.val) := rfl

theorem exec_benchQueue (d : Die) (c : Loc) (s : State) : exec (.benchQueue d c) s = onDie d.val s (benchQueue d.val c.val) := rfl

theorem exec_benchBatonExpiry (d : Die) (s : State) : exec (.benchBatonExpiry d) s = onDie d.val s (benchBatonExpiry d.val) := rfl

/-- Settles O30: each command by its own rule; the hand-back leaves by its corrections what it must, releases the channel and ends the
visit. -/
theorem benchVisitsEnd : Obligations.BenchVisitsEnd := by
  unfold Obligations.BenchVisitsEnd
  intro s d hs hd
  dsimp only
  have hlt := hs.die_lt d
  have h8 : d.val < 8 := d.isLt
  refine ⟨fun res hphase hover hbad => ?_, fun res hphase hover hgood => ?_, fun res h => ?_, fun res hphase hclk ht2 => ?_, fun res h => ?_,
    fun cause h => ?_, fun cause h => ?_, fun c => ?_, fun c => ?_, fun hphase hpkg ht2 => ?_, fun h => ?_⟩
  · exact does_die (exec_benchSelfcalEnd d res s) hd (selfcalEnd_bad_spec h8 hphase hover hbad)
  · exact does_die (exec_benchSelfcalEnd d res s) hd (selfcalEnd_good_spec hlt hphase hover hgood)
  · exact does_die (exec_benchSelfcalEnd d res s) hd (selfcalEnd_of_not h res)
  · obtain ⟨h0, hcarrier, hcustody, hcause, hi, hv, hcounted, hlast, hint, hothers⟩ :=
      handback_spec h8 hlt hs.canonical.chans ⟨hphase, hclk, ht2⟩ res
    exact does_die (exec_benchHandback d res s) hd ⟨h0, hcarrier, hcustody, hcause, hi, hv, congrArg (·.1) hcounted,
      congrArg (·.2.1) hcounted, hlast, hint, hothers⟩
  · refine does_die (exec_benchHandback d res s) hd (handback_of_not ?_ res)
    rintro ⟨hphase, hclk, ht2⟩
    omega
  · exact does_die (exec_benchAbort d cause s) hd (benchAbort_spec hlt h)
  · exact does_die (exec_benchAbort d cause s) hd (benchAbort_of_idle h)
  · exact does_die (exec_benchForce d c s) hd (benchForce_spec hlt c.val)
  · exact does_die (exec_benchQueue d c s) hd (benchQueue_spec hlt c.val)
  · exact does_die (exec_benchBatonExpiry d s) hd (benchBatonExpiry_spec hlt h8 ⟨hphase, hpkg, ht2⟩)
  · refine does_die (exec_benchBatonExpiry d s) hd (benchBatonExpiry_of_not ?_)
    rintro ⟨hphase, hpkg, ht2⟩
    rcases h with h | h | h
    · exact hphase h
    · exact hpkg h
    · omega

end Sys2Proof.Machine
end

section
/-! Proofs of the family of the sense front end: a pause that comes before a lead-in on the same clock (O39). -/

namespace Sys2Proof.Machine

/-! A decision of the slot acts before a lead-in of the same point that was accepted after the freeze point (R59, R168, R257). -/

/-- A part of two dies in RUN at the first clock of a cycle, which is that of slot 0: channel 0 holds a lease that covers its demand, a
pause was decided at the freeze point, and a request accepted since then has the slot's own point for its lead-in (R58). -/
def pausedAtLeadin : State :=
  let part : Device := { Device.reset with
    nDies := 2, frame := 100, clk := 50
    dies := Device.reset.dies.map fun x => { x with up := true, husk := false, ctl := true, seeded := true }
    line := { Line.reset with nco := { Nco.reset with count := 1 } } }
  let held := (part.pset PKG_STATE_STATE Pkg.run).cset 0 CH_LEASE_LSTATE 1
  let decided := held.modLease 0 fun l => { l with inForce := true, decision := 2, decidedAt := 511250 }
  ⟨decided.modAcir 0 fun a => { a with par := ⟨1, 1, 1, 64, 0, 512000, false, false⟩, leadPt := 2 ^ 32 }, []⟩

theorem pausedAtLeadin_sound : Sound pausedAtLeadin :=
  ⟨⟨by decide +kernel, by decide +kernel, by decide +kernel, ⟨by decide +kernel, by decide +kernel⟩,
    ⟨by decide +kernel, by decide +kernel⟩, rfl, by decide +kernel, by decide +kernel, by decide +kernel, by decide +kernel⟩,
    .inl rfl⟩

/-- The lead-in's point has come, and the lease covers the demand. -/
theorem pausedAtLeadin_due : (pausedAtLeadin.dev.ch 0).acir.leadPt ≤ ptOf pausedAtLeadin.dev 0 ∧
    leaseCovers pausedAtLeadin.dev 0 (demandOf pausedAtLeadin.dev 0) = true := by decide +kernel

/-- The pause ends the request before the lead-in begins. -/
theorem acirLeadin_pausedAtLeadin : acirState (acirInOrder acirLeadin 0 pausedAtLeadin.dev) 0 = 0 := by decide +kernel

theorem exec_acirLeadinStart (g : Ch) (s : State) : exec (.acirLeadinStart g) s = onDie (g.val / 8) s (acirInOrder acirLeadin g.val) := rfl

/-- Refutes O39: a pause that takes effect at the first clock of a slot comes before a lead-in of that point whose request was
accepted after the freeze point (R59, R257), so that the lead-in does not begin although the lease covers the demand. -/
theorem not_windowsAreRequestedAndLedIn : ¬ Obligations.WindowsAreRequestedAndLedIn := by
  intro h
  obtain ⟨-, -, -, -, hleadin, -, -⟩ := h pausedAtLeadin ⟨0, by decide⟩ pausedAtLeadin_sound (by decide +kernel)
  obtain ⟨hpoint, hcovers⟩ := pausedAtLeadin_due
  obtain ⟨hbegins, -, -⟩ := hleadin (by decide +kernel) (by decide +kernel) hpoint
  obtain ⟨hstate, -⟩ := of_does_die (hbegins hcovers) (exec_acirLeadinStart _ _) (by decide +kernel)
  exact absurd (acirLeadin_pausedAtLeadin.symm.trans hstate) (by decide)

end Sys2Proof.Machine
end

section
/-! Proofs of the family of the counts: writes of the counting registers wait for the frame boundary (O34). -/

namespace Sys2Proof.Machine

/-! A change of a channel, by what it makes of the channel as it is. -/

theorem modCh_congr {g : Nat} {s : Device} {f k : Chan → Chan} (h : f (s.ch g) = k (s.ch g)) : s.modCh g f = s.modCh g k := by
  unfold Device.modCh
  congr 1
  refine List.ext_getElem? fun n => ?_
  rw [List.getElem?_modify, List.getElem?_modify]
  by_cases hn : g = n
  · subst hn
    cases hc : s.chans[g]? with
    | none => rfl
    | some c =>
      have hch : s.ch g = c := by rw [Device.ch, hc, Option.getD_some]
      rw [hch] at h
      simp [h]
  · simp [hn]

theorem modCh_id (g : Nat) (s : Device) : (s.modCh g fun c => c) = s := by
  have hid : s.chans.modify g (fun c => c) = s.chans := List.modify_id g s.chans
  rw [Device.modCh, hid]

section
variable {g : Nat} {s : Device}

/-! Clears (R155). -/

theorem accClear_eq (w : Word) : accClear g w s = s.modCh g fun _ => { s.ch g with due := { (s.ch g).due with clear :=
    (s.ch g).due.clear || (ACC_CTL_CLR.get w == 1 && ACC_CTL_CLR_KEY.get w == 0xC3) } } := by
  unfold accClear
  by_cases hkey : ACC_CTL_CLR.get w = 1 ∧ ACC_CTL_CLR_KEY.get w = 0xC3
  · obtain ⟨hclr, hc3⟩ := hkey
    rw [if_pos ⟨hclr, hc3⟩]
    exact modCh_congr (by simp [hclr, hc3])
  · have hoff : (ACC_CTL_CLR.get w == 1 && ACC_CTL_CLR_KEY.get w == 0xC3) = false := by simpa using hkey
    rw [if_neg hkey, hoff]
    exact (modCh_id g s).symm.trans (modCh_congr (by simp))

/-! Board words (R141, R158, R194, R202). -/

/-- Pending work with a board word in its place behind the commands that wait (R202). -/
def Due.noted (off : Nat) (w : Word) (x : Due) : Due := { x with cal := if x.cal = [] then [] else x.cal ++ [(off, w)] }

theorem Due.noted_eq (off : Nat) (w : Word) (x : Due) : x.noted off w = if x.cal = [] then x else { x with cal := x.cal ++ [(off, w)] } := by
  unfold Due.noted
  split_ifs with hnone
  · rw [← hnone]
  · rfl

theorem calNote_eq (off : Nat) (w : Word) : calNote off w g s = s.modDue g (Due.noted off w) :=
  modCh_congr (congrArg (fun x => { s.ch g with due := x }) (Due.noted_eq off w _).symm)

/-- A word of a channel's block is written, and work of the channel is pending for it. -/
theorem wordPending_spec (hg : g < s.chans.length) (off : Nat) (w : Word) (f : Due → Due) : let t := (s.setReg (chAddr g off) w).modDue g f
    t.reg (chAddr g off) = w ∧ t.ch g = { s.ch g with due := f (s.ch g).due } ∧ ChanOnly g (· = chAddr g off) s t :=
  ⟨Device.reg_setReg_self s _ w, Device.ch_modCh_self (s.setReg (chAddr g off) w) hg _,
    (chanOnly_setReg g (rs := (· = chAddr g off)) rfl w s).trans ((chanOnly_modCh _ g _).mono fun _ h => h.elim)⟩

/-- A board word reads back at once, and takes its place behind the commands that wait. -/
theorem boardWrite_spec (hg : g < s.chans.length) (off : Nat) (w : Word) : let t := boardWrite off w g s
    t.reg (chAddr g off) = w ∧ t.ch g = { s.ch g with due := (s.ch g).due.noted off w } ∧ ChanOnly g (· = chAddr g off) s t := by
  unfold boardWrite
  rw [calNote_eq]
  exact wordPending_spec hg off w (Due.noted off w)

/-- The same, with the word named as it reads back. -/
theorem boardWrite_readBack (hg : g < s.chans.length) (off : Nat) (w : Word) : let t := boardWrite off w g s
    t.reg (chAddr g off) = w ∧ t.ch g = { s.ch g with due := (s.ch g).due.noted off (t.reg (chAddr g off)) } ∧
      ChanOnly g (· = chAddr g off) s t := by
  obtain ⟨hword, hch, honly⟩ := boardWrite_spec hg off w
  exact ⟨hword, by rw [hword, hch], honly⟩

/-- The word a constant's register would hold (R141). -/
def kStored (r : KReg) (w : Word) : Word := if r = .kShift then w &&& 0x3F3F3F3F#32 else w

theorem constantWrite_of_accepted {r : KReg} {w : Word} (h : kAccepts (s.setReg (chAddr g (kOff r)) (kStored r w)) g r = true) :
    constantWrite g r w s = boardWrite (kOff r) (kStored r w) g s := if_pos h

theorem constantWrite_of_refused {r : KReg} {w : Word} (h : kAccepts (s.setReg (chAddr g (kOff r)) (kStored r w)) g r = false) :
    constantWrite g r w s = s.cset g EPOCH_STAT_KBAD 1 := if_neg fun ha => Bool.false_ne_true (h.symm.trans ha)

/-- An offset is stored clamped to ±2^20 (R158). -/
theorem toInt_clampedOffset (x : Int) : (wordOfInt (clampInt (-(2 ^ 20)) (2 ^ 20) x)).toInt = max (-(2 ^ 20)) (min (2 ^ 20) x) := by
  have hclamp : clampInt (-(2 ^ 20)) (2 ^ 20) x = max (-(2 ^ 20)) (min (2 ^ 20) x) := by
    unfold clampInt
    split_ifs <;> omega
  rw [hclamp]
  exact BitVec.toInt_ofInt_eq_self (by decide) (by omega) (by omega)

end

/-! The commands. -/

theorem exec_accClear (g : Ch) (w : Word) (s : State) : exec (.accClear g w) s = onDie (g.val / 8) s (accClear g.val w) := rfl

theorem exec_tcrCfgWrite (g : Ch) (w : Word) (s : State) : exec (.tcrCfgWrite g w) s = onDie (g.val / 8) s (tcrCfgWrite g.val w) := rfl

theorem exec_constantWrite (g : Ch) (r : KReg) (w : Word) (s : State) :
    exec (.constantWrite g r w) s = onDie (g.val / 8) s (constantWrite g.val r w) := rfl

theorem exec_offsetWrite (g : Ch) (volt : Bool) (w : Word) (s : State) :
    exec (.offsetWrite g volt w) s = onDie (g.val / 8) s (offsetWrite g.val volt w) := rfl

theorem exec_baselineWrite (g : Ch) (r : BaseReg) (w : Word) (s : State) :
    exec (.baselineWrite g r w) s = onDie (g.val / 8) s (baselineWrite g.val r w) := rfl

/-- Settles O34: each write stores its word and leaves the rest to the channel's pending work; a clear without its key leaves that
too, and a refused constant shows KBAD alone. -/
theorem countingWritesWaitForTheBoundary : Obligations.CountingWritesWaitForTheBoundary := by
  unfold Obligations.CountingWritesWaitForTheBoundary
  intro s g hs hd
  dsimp only
  have hg := hs.ch_lt g
  refine ⟨fun w => ?_, fun w => ?_, fun r w h => ?_, fun r w h => ?_, fun volt w => ?_, fun r w => ?_⟩
  · exact does_die (exec_accClear g w s) hd (accClear_eq w)
  · exact does_die (exec_tcrCfgWrite g w s) hd (wordPending_spec hg 0x47 _ _)
  · refine does_die (exec_constantWrite g r w s) hd ?_
    rw [constantWrite_of_accepted h]
    exact boardWrite_readBack hg (kOff r) (kStored r w)
  · refine does_die (exec_constantWrite g r w s) hd ?_
    rw [constantWrite_of_refused h]
    exact wordOnly_setReg _ _ _
  · obtain ⟨hword, hch, honly⟩ :=
      boardWrite_readBack hg (if volt then 0x46 else 0x45) (wordOfInt (clampInt (-(2 ^ 20)) (2 ^ 20) w.toInt))
    exact does_die (exec_offsetWrite g volt w s) hd ⟨(congrArg BitVec.toInt hword).trans (toInt_clampedOffset w.toInt), hch, honly⟩
  · exact does_die (exec_baselineWrite g r w s) hd (boardWrite_spec hg (baseOff r) w)

end Sys2Proof.Machine
end

section
/-! Proofs of the family of the counts: the shunt factor follows the temperature of its die (O35). -/

namespace Sys2Proof.Machine

section
variable {g : Nat} {s t u : Device}

/-! Constants that follow their factors, with a close when they change (R144). -/

theorem carry_takeConsts (k : Const × Const × Const) (s : Device) : carry g (takeConsts k g s) = carry g s :=
  carry_modCh (f := fun c => { c with conv := { c.conv with kq := k.1, kv := k.2.1, ke := k.2.2 } }) s g fun _ => rfl

theorem chanOnly_takeConsts (k : Const × Const × Const) (s : Device) : ChanOnly g (epochWord g) s (takeConsts k g s) :=
  (chanOnly_ch _ _).trans (chanOnly_epochField (by decide) _ _)

theorem ch_takeConsts (hg : g < s.chans.length) (k : Const × Const × Const) :
    (takeConsts k g s).ch g = { s.ch g with conv := { (s.ch g).conv with kq := k.1, kv := k.2.1, ke := k.2.2 } } :=
  Device.ch_modCh_self s hg _

theorem acc_takeConsts (k : Const × Const × Const) (s : Device) : ((takeConsts k g s).ch g).acc = (s.ch g).acc :=
  proj_ch_modCh (f := fun c => { c with conv := { c.conv with kq := k.1, kv := k.2.1, ke := k.2.2 } }) Chan.acc (fun _ => rfl) g g

theorem cause_takeConsts (k : Const × Const × Const) (s : Device) :
    (takeConsts k g s).cget g EPOCH_STAT_CAUSE = s.cget g EPOCH_STAT_CAUSE :=
  Device.cget_cset_apart _ g EPOCH_STAT_KE_EXPL EPOCH_STAT_CAUSE _ (by decide)

/-- A close starts the open counts from zero (R145). -/
theorem epqIn_closeEpoch (hg : g < s.chans.length) (hopen : (s.ch g).due.closed = false) (causes : Nat) :
    ((closeEpoch causes g s).ch g).acc.epqIn = 0 := by
  have hbanked (t : Device) (hlen : g < t.chans.length) : ((t.modCh g fun c => { c with
      acc := c.acc.bank c.conv.kq c.conv.ke, due := { c.due with closed := true } }).ch g).acc.epqIn = 0 := by
    rw [Device.ch_modCh_self t hlen]
    rfl
  have hfield (t : Device) (f : Fld .ch) (v : Nat) : (t.cset g f v).ch g = t.ch g := rfl
  have hmod (f : Conv → Conv) : g < (s.modConv g f).chans.length := by
    rw [Device.modConv, Device.modCh_chans, List.length_modify]
    exact hg
  unfold closeEpoch
  dsimp only
  rw [if_neg (by rw [hopen]; exact Bool.false_ne_true)]
  split_ifs <;> simp only [hfield] <;> exact hbanked _ (hmod _)

theorem updateConsts_of_same (h : constsNow s g = (s.ch g).conv.triple) (causes : Nat) :
    updateConsts causes false g s = takeConsts (s.ch g).conv.triple g s := by
  unfold updateConsts
  rw [h]
  simp

theorem updateConsts_of_changed (h : constsNow s g ≠ (s.ch g).conv.triple) (causes : Nat) :
    updateConsts causes false g s = takeConsts (constsNow s g) g (closeEpoch causes g s) := by
  unfold updateConsts
  simp [h]

theorem chanOnly_updateConsts (causes : Nat) (always : Bool) (s : Device) :
    ChanOnly g (epochWord g) s (updateConsts causes always g s) := by
  unfold updateConsts
  dsimp only
  split_ifs
  · exact (chanOnly_closeEpoch causes s).trans (chanOnly_takeConsts _ _)
  · exact chanOnly_takeConsts _ s

theorem carry_updateConsts (causes : Nat) (always : Bool) (s : Device) : carry g (updateConsts causes always g s) = carry g s := by
  unfold updateConsts
  dsimp only
  split_ifs
  · rw [carry_takeConsts, carry_closeEpoch]
  · exact carry_takeConsts _ s

/-- Constants that differ from those in force have closed the epoch, unless one was closed on this boundary already. -/
theorem updateConsts_closes (hg : g < s.chans.length) {causes i : Nat} (hi : causes.testBit i = true ∧ i < 7) :
    let t := updateConsts causes false g s
    (t.ch g).conv.triple ≠ (s.ch g).conv.triple →
      (t.cget g EPOCH_STAT_CAUSE).testBit i = true ∧ (t.ch g).acc.epqIn = 0 ∨ (s.ch g).due.closed = true := by
  dsimp only
  by_cases hsame : constsNow s g = (s.ch g).conv.triple
  · rw [updateConsts_of_same hsame, ch_takeConsts hg]
    exact fun hdiffer => absurd rfl hdiffer
  · rw [updateConsts_of_changed hsame, cause_takeConsts, acc_takeConsts]
    intro _
    cases hclosed : (s.ch g).due.closed with
    | true => exact .inr rfl
    | false => exact .inl ⟨cause_closeEpoch hi s, epqIn_closeEpoch hg hclosed causes⟩

/-! The update of one channel (R143). -/

/-- A channel whose factor does not follow the temperature. -/
def TcrIdle (s : Device) (g : Nat) : Prop := alphaOf s g = 0 ∨ tcrHold s (g / 8) = true ∨ (s.die (g / 8)).seeded = false

/-- How far the new factor lies from the one in force. -/
def tcrStep (s : Device) (g : Nat) : Nat := ((fTcrOf s g : Int) - (s.ch g).conv.fTcr).natAbs

/-- The device with the channel's new factor. -/
def tcrTaken (g : Nat) (s : Device) : Device := s.modConv g fun v => { v with fTcr := fTcrOf s g }

theorem tcrUpdateCh_of_kept (h : TcrIdle s g ∨ tcrStep s g ≤ 109951) : tcrUpdateCh g s = s := by
  unfold tcrUpdateCh
  dsimp only
  split_ifs with hidle hbeyond
  · rfl
  · exact absurd hbeyond (Nat.not_lt.mpr (h.resolve_left hidle))
  · rfl

theorem tcrUpdateCh_of_moved (hidle : ¬ TcrIdle s g) (hbeyond : 109951 < tcrStep s g) :
    tcrUpdateCh g s = updateConsts 4 false g (tcrTaken g s) := (if_neg hidle).trans (if_pos hbeyond)

/-- The update of a channel touches its own state and the words of its epoch alone. -/
theorem chanOnly_tcrUpdateCh (g : Nat) (s : Device) : ChanOnly g (epochWord g) s (tcrUpdateCh g s) := by
  by_cases hkept : TcrIdle s g ∨ tcrStep s g ≤ 109951
  · rw [tcrUpdateCh_of_kept hkept]
    exact ⟨rfl, fun _ _ => rfl, fun _ _ => rfl⟩
  · obtain ⟨hidle, hbeyond⟩ := not_or.mp hkept
    rw [tcrUpdateCh_of_moved hidle (Nat.not_le.mp hbeyond)]
    exact (chanOnly_ch _ s).trans (chanOnly_updateConsts 4 false _)

/-- What the update makes of a channel of s, as t shows it. -/
def TcrDone (g : Nat) (s t : Device) : Prop :=
  (TcrIdle s g ∨ tcrStep s g ≤ 109951 → t.ch g = s.ch g ∧ t.reg (chAddr g 0x49) = s.reg (chAddr g 0x49)) ∧
  (¬ TcrIdle s g → 109951 < tcrStep s g → (t.ch g).conv.fTcr = fTcrOf s g ∧
    ((t.ch g).conv.triple ≠ (s.ch g).conv.triple →
      (t.cget g EPOCH_STAT_CAUSE).testBit 2 = true ∧ (t.ch g).acc.epqIn = 0 ∨ (s.ch g).due.closed = true)) ∧
  (t.ch g).acc.frac = (s.ch g).acc.frac ∧ (t.ch g).acc.rawqIn = (s.ch g).acc.rawqIn

/-- The channel's new factor is in force, and its constants follow it. -/
theorem tcrUpdateCh_done (hg : g < s.chans.length) : TcrDone g s (tcrUpdateCh g s) := by
  by_cases hkept : TcrIdle s g ∨ tcrStep s g ≤ 109951
  · rw [tcrUpdateCh_of_kept hkept]
    exact ⟨fun _ => ⟨rfl, rfl⟩, fun hidle hbeyond => absurd hbeyond (Nat.not_lt.mpr (hkept.resolve_left hidle)), rfl, rfl⟩
  · obtain ⟨hidle, hbeyond⟩ := not_or.mp hkept
    have hlen : g < (tcrTaken g s).chans.length := by
      rw [tcrTaken, Device.modConv, Device.modCh_chans, List.length_modify]
      exact hg
    have htaken : (tcrTaken g s).ch g = { s.ch g with conv := { (s.ch g).conv with fTcr := fTcrOf s g } } :=
      Device.ch_modCh_self s hg _
    have hcarry : ((updateConsts 4 false g (tcrTaken g s)).ch g).carried = ((tcrTaken g s).ch g).carried :=
      carry_updateConsts 4 false (tcrTaken g s)
    have hcloses := updateConsts_closes hlen (causes := 4) (i := 2) (by decide)
    rw [htaken] at hcarry hcloses
    rw [tcrUpdateCh_of_moved hidle (Nat.not_le.mp hbeyond)]
    exact ⟨fun h => absurd h hkept, fun _ _ => ⟨congrArg (·.2.2.2.fTcr) hcarry, hcloses⟩, congrArg (·.1) hcarry,
      congrArg (·.2.1) hcarry⟩

/-! The channels one after another. -/

/-- What differs is channels and words of epochs. -/
def EpochsOnly (s t : Device) : Prop := t = { s with regs := t.regs, chans := t.chans } ∧
  ∀ a, (∀ g, a ∉ [chAddr g 0x49, chAddr g 0x4A, chAddr g 0x4B]) → t.reg a = s.reg a

theorem mem_epochWords {g a : Nat} (h : epochWord g a) : a ∈ [chAddr g 0x49, chAddr g 0x4A, chAddr g 0x4B] := by
  obtain ⟨off, hlo, hhi, rfl⟩ := h
  obtain rfl | rfl | rfl : off = 0x49 ∨ off = 0x4A ∨ off = 0x4B := by omega
  all_goals simp

theorem epochsOnly_refl (s : Device) : EpochsOnly s s := ⟨rfl, fun _ _ => rfl⟩

theorem EpochsOnly.step (h : EpochsOnly s t) {n : Nat} (hn : ChanOnly n (epochWord n) t u) : EpochsOnly s u := by
  obtain ⟨hrest, -, hwords⟩ := hn
  refine ⟨?_, fun a ha => (hwords a fun he => ha n (mem_epochWords he)).trans (h.2 a ha)⟩
  conv_lhs => rw [hrest, h.1]

theorem epochsOnly_tcrUpdate (ns : List Nat) (s : Device) : EpochsOnly s (s.each ns tcrUpdateCh) :=
  each_keeps (I := EpochsOnly s) ns (epochsOnly_refl s) fun n _ t ht => ht.step (chanOnly_tcrUpdateCh n t)

/-- A channel and the status of its epoch stand as in s, and so does everything the update of the channel looks at. -/
structure TcrIntact (g : Nat) (s t : Device) : Prop where
  epochs : EpochsOnly s t
  ch : t.ch g = s.ch g
  stat : t.reg (chAddr g 0x49) = s.reg (chAddr g 0x49)

/-- The update of another channel leaves a channel and the status of its epoch. -/
theorem beside_tcrUpdateCh {n : Nat} (hn : n ≠ g) (t : Device) : (tcrUpdateCh n t).ch g = t.ch g ∧
    (tcrUpdateCh n t).reg (chAddr g 0x49) = t.reg (chAddr g 0x49) := by
  obtain ⟨-, hchans, hwords⟩ := chanOnly_tcrUpdateCh n t
  refine ⟨hchans g hn.symm, hwords _ ?_⟩
  rintro ⟨off, hlo, hhi, he⟩
  unfold chAddr at he
  omega

theorem TcrIntact.step (h : TcrIntact g s t) {n : Nat} (hn : n ≠ g) : TcrIntact g s (tcrUpdateCh n t) := by
  obtain ⟨hch, hstat⟩ := beside_tcrUpdateCh hn t
  exact ⟨h.epochs.step (chanOnly_tcrUpdateCh n t), hch.trans h.ch, hstat.trans h.stat⟩

theorem TcrIntact.tcrHold (h : TcrIntact g s t) (hg : g < 64) : tcrHold t (g / 8) = tcrHold s (g / 8) := by
  have hdie (off : Nat) (ho : off < 0x200) : t.reg (dieAddr (g / 8) off) = s.reg (dieAddr (g / 8) off) :=
    h.epochs.2 _ fun k => by
      simp only [List.mem_cons, List.not_mem_nil, or_false, dieAddr, chAddr]
      omega
  have hfield (f : Fld .die) (ho : f.off < 0x200) : t.dbit (g / 8) f = s.dbit (g / 8) f :=
    congrArg (fun w => f.get w != 0) (hdie f.off ho)
  unfold Machine.tcrHold
  rw [hfield BENCH_STAT_SAR_FAIL (by decide), hfield BTEMP_RD_OPEN (by decide), hfield BTEMP_RD_SHORT (by decide)]

theorem TcrIntact.frc (h : TcrIntact g s t) (a : Nat) : t.frc a = s.frc a := by rw [h.epochs.1]; rfl

theorem TcrIntact.die (h : TcrIntact g s t) (d : Nat) : t.die d = s.die d := by rw [h.epochs.1]; rfl

theorem TcrIntact.alphaOf (h : TcrIntact g s t) : alphaOf t g = alphaOf s g := by
  unfold Machine.alphaOf Device.cfrc
  rw [h.frc]

theorem TcrIntact.fTcrOf (h : TcrIntact g s t) : fTcrOf t g = fTcrOf s g := by
  unfold Machine.fTcrOf Device.cfrc btMean
  rw [h.alphaOf, h.frc, h.die, h.ch]

/-- What the update makes of a channel it makes of it as it stood at first. -/
theorem TcrIntact.done (h : TcrIntact g s t) (hg : g < 64) (hu : TcrDone g t u) : TcrDone g s u := by
  unfold TcrDone TcrIdle tcrStep at hu ⊢
  rwa [h.alphaOf, h.tcrHold hg, h.die, h.fTcrOf, h.ch, h.stat] at hu

/-- What was made of a channel the update of another leaves. -/
theorem TcrDone.step (h : TcrDone g s t) {n : Nat} (hn : n ≠ g) : TcrDone g s (tcrUpdateCh n t) := by
  obtain ⟨hch, hstat⟩ := beside_tcrUpdateCh hn t
  unfold TcrDone Device.cget at h ⊢
  rwa [hch, show (tcrUpdateCh n t).reg (chAddr g EPOCH_STAT_CAUSE.off) = _ from hstat, hstat]

/-- After the updates of all channels each channel is as its own has left it. -/
theorem tcrUpdate_done {sz : Nat} (hs : s.Canonical sz) {ns : List Nat} (hnodup : ns.Nodup) (hmem : g ∈ ns) (hg : g < 64) :
    TcrDone g s (s.each ns tcrUpdateCh) :=
  each_once (I := fun t => t.Canonical sz ∧ TcrIntact g s t) (R := TcrDone g s) hnodup hmem
    ⟨hs, epochsOnly_refl s, rfl, rfl⟩
    (fun n _ hn _ ht => ⟨canonical_tcrUpdateCh n ht.1, ht.2.step hn⟩)
    (fun t ht => ht.2.done hg (tcrUpdateCh_done (by rw [ht.1.chans]; exact hg)))
    fun n _ hn _ ht => ht.step hn

end

theorem exec_tcrUpdate (s : State) : exec .tcrUpdate s = onDev s tcrUpdate := rfl

/-- Settles O35: the channels are updated one after another, each by its own update, which the others leave. -/
theorem shuntFactorsFollowTheTemperature : Obligations.ShuntFactorsFollowTheTemperature := by
  unfold Obligations.ShuntFactorsFollowTheTemperature
  intro s hs
  refine ⟨fun h => does_dev (exec_tcrUpdate s) (if_neg fun hdue => ?_), fun hframe hclk => does_dev (exec_tcrUpdate s) ?_⟩
  · exact h.elim (absurd hdue.1) (absurd hdue.2)
  · have hdue : tcrUpdate s.dev = s.dev.each s.dev.chList tcrUpdateCh := if_pos ⟨hframe, hclk⟩
    rw [hdue]
    obtain ⟨hrest, hwords⟩ := epochsOnly_tcrUpdate s.dev.chList s.dev
    refine ⟨hrest, hwords, fun g hg => ?_⟩
    have hmem : g ∈ s.dev.chList := List.mem_range.mpr (by unfold Device.nCh; omega)
    have h64 : g < 64 := by have := hs.size; omega
    exact tcrUpdate_done hs.canonical List.nodup_range hmem h64

end Sys2Proof.Machine
end

section
/-! Proofs of the family of the counts: snapshots arm, take their generation and fire (O14). -/

namespace Sys2Proof.Machine

/-! Points of line angle (R58). -/

/-- An angle resolves to its next point, strictly ahead. -/
theorem resolveAngle_spec {a : Nat} (ha : a < 2 ^ 32) (pt : Nat) :
    pt < resolveAngle pt a ∧ resolveAngle pt a % 2 ^ 32 = a ∧ ∀ q, pt < q → q % 2 ^ 32 = a → resolveAngle pt a ≤ q := by
  unfold resolveAngle
  split_ifs <;> exact ⟨by omega, by omega, fun q hq hqa => by omega⟩

theorem pget_lt (s : Device) {f : Fld .pkg} {n : Nat} (hf : f.width = n) : s.pget f < 2 ^ n := by
  rw [← hf]
  exact Nat.mod_lt _ (Nat.two_pow_pos _)

section
variable {s t : Device}

/-! TAKE, ARM and DISARM (R151, R152). -/

theorem snapTake_of_up (hup : (s.die 0).up = true) : snapTake s = { s with snap := { s.snap with take := true } } := if_pos hup

/-- The device with a point armed. -/
def armedAt (p : Nat) (s : Device) : Device := { s with snap := { s.snap with armedPt := some p } }.pset SNAP_CTL_ARMED 1

/-- The point that is armed is the one the device shows, and nothing but it and ARMED differs. -/
theorem armedAt_spec {p a : Nat} (hahead : linePt s < p) (hangle : p % 2 ^ 32 = a)
    (hnext : ∀ q, linePt s < q → q % 2 ^ 32 = a → p ≤ q) : let t := armedAt p s
    let p := t.snap.armedPt.getD 0
    t.snap = { s.snap with armedPt := some p } ∧ linePt s < p ∧ p % 2 ^ 32 = a ∧
      (∀ q, linePt s < q → q % 2 ^ 32 = a → p ≤ q) ∧
      WordOnly 0xA (SNAP_CTL_ARMED.put 1 (s.reg 0xA)) { s with snap := t.snap } t :=
  ⟨rfl, hahead, hangle, hnext, wordOnly_setReg _ _ _⟩

theorem snapArm_of_up (hup : (s.die 0).up = true) : snapArm s = armedAt (resolveAngle (linePt s) (s.pget SNAP_AT)) s := if_pos hup

theorem snapDisarm_of_up (hup : (s.die 0).up = true) :
    snapDisarm s = { s with snap := { s.snap with armedPt := none } }.pset SNAP_CTL_ARMED 0 := if_pos hup

/-! The next generation (R151, R153). -/

/-- The words of snapshots, but SNAP_AT. -/
def snapWord (a : Nat) : Prop := a = 0xA ∨ a = 0xC

/-- The words of generation n, caused by the schedule. -/
def genShown (n : Nat) (s : Device) : Device :=
  ((((s.pset SNAP_CTL_GEN n).pset SNAP_STAT_BY_TAKE 0).pset SNAP_STAT_BY_SCHED 0).pset SNAP_STAT_BY_SCHED 1).pset SNAP_STAT_PARTIAL 0

theorem regsOnly_snapField {f : Fld .pkg} (hf : snapWord f.off) (v : Nat) (s : Device) : RegsOnly snapWord s (s.pset f v) :=
  ⟨rfl, fun _ ha => reg_pset_ne (fun e => ha (by rw [e]; exact hf)) v s⟩

theorem regsOnly_genShown (n : Nat) (s : Device) : RegsOnly snapWord s (genShown n s) := by
  have hstat (f : Fld .pkg) (hf : f.off = 0xC) (v : Nat) (t : Device) : RegsOnly snapWord t (t.pset f v) :=
    regsOnly_snapField (.inr hf) v t
  exact regsOnly_trans (regsOnly_snapField (.inl rfl) _ s) (regsOnly_trans (hstat _ rfl 0 _)
    (regsOnly_trans (hstat _ rfl 0 _) (regsOnly_trans (hstat _ rfl 1 _) (hstat _ rfl 0 _))))

/-- A field of SNAP_CTL other than GEN is as it was. -/
theorem pget_genShown_ctl {f : Fld .pkg} (hf : f.off = 0xA ∧ f.lo ≤ f.hi ∧ f.hi < 16) (n : Nat) : (genShown n s).pget f = s.pget f := by
  have hstat (k : Fld .pkg) (hk : k.off = 0xC) (v : Nat) (t : Device) : (t.pset k v).pget f = t.pget f :=
    Device.pget_pset_apart t k f v (.inl (by omega))
  unfold genShown
  rw [hstat _ rfl, hstat _ rfl, hstat _ rfl, hstat _ rfl]
  exact Device.pget_pset_apart s SNAP_CTL_GEN f _ (.inr ⟨by decide, by decide, hf.2.1, .inl hf.2.2⟩)

theorem genShown_spec {n : Nat} (hn : n < 65536) (s : Device) : let t := genShown n s
    t.pget SNAP_CTL_GEN = n ∧ t.pget SNAP_STAT_BY_SCHED = 1 ∧ t.pget SNAP_STAT_BY_TAKE = 0 ∧
      t.pget SNAP_STAT_PARTIAL = 0 := by
  dsimp only [genShown]
  have hapart := Device.pget_pset_apart
  refine ⟨?_, ?_, ?_, Device.pget_pset_self _ SNAP_STAT_PARTIAL 0 (by decide)⟩
  · rw [hapart _ SNAP_STAT_PARTIAL SNAP_CTL_GEN _ (by decide), hapart _ SNAP_STAT_BY_SCHED SNAP_CTL_GEN _ (by decide),
      hapart _ SNAP_STAT_BY_SCHED SNAP_CTL_GEN _ (by decide), hapart _ SNAP_STAT_BY_TAKE SNAP_CTL_GEN _ (by decide)]
    exact (Device.pget_pset_self s SNAP_CTL_GEN _ (by decide)).trans (Nat.mod_eq_of_lt hn)
  · rw [hapart _ SNAP_STAT_PARTIAL SNAP_STAT_BY_SCHED _ (by decide)]
    exact Device.pget_pset_self _ SNAP_STAT_BY_SCHED 1 (by decide)
  · rw [hapart _ SNAP_STAT_PARTIAL SNAP_STAT_BY_TAKE _ (by decide), hapart _ SNAP_STAT_BY_SCHED SNAP_STAT_BY_TAKE _ (by decide),
      hapart _ SNAP_STAT_BY_SCHED SNAP_STAT_BY_TAKE _ (by decide)]
    exact Device.pget_pset_self _ SNAP_STAT_BY_TAKE 0 (by decide)

/-- The broadcast of the snapshot of a frame, 24 clocks on (R21). -/
def snapCast (frame : Nat) (s : Device) : Bcast := ⟨.snap, [0], (s.now + 24) / 5120, (s.now + 24) % 5120, frame⟩

/-- The device with the snapshot of a frame on its way. -/
def snapSent (frame : Nat) (s : Device) : Device := { s with
  snap := { s.snap with last := some frame, slots := s.dieList }, bcast := s.bcast ++ [snapCast frame s] }

theorem each_unable (hable : ∀ d, d < s.nDies → snapAble (s.die d) = true) (f : Nat → Device → Device) :
    s.each (s.dieList.filter fun d => !snapAble (s.die d)) f = s := by
  have hnone : (s.dieList.filter fun d => !snapAble (s.die d)) = [] := List.filter_eq_nil_iff.mpr fun d hd => by
    rw [hable d (List.mem_range.mp hd)]
    decide
  rw [hnone]
  rfl

/-- The device with the scheduled snapshot of the latest frame boundary taken. -/
def genTaken (s : Device) : Device := snapSent s.snap.bFrame (genShown ((s.pget SNAP_CTL_GEN + 1) % 65536) s)

theorem able_snapSent {rs : Nat → Prop} (h : RegsOnly rs s t) (frame : Nat) (hable : ∀ d, d < s.nDies → snapAble (s.die d) = true) :
    ∀ d, d < (snapSent frame t).nDies → snapAble ((snapSent frame t).die d) = true := by
  rw [h.1]
  exact hable

/-- Where every die can take part, none has its slots written for it. -/
theorem snapNow_of_able (hlast : s.snap.last ≠ some s.snap.bFrame) (hable : ∀ d, d < s.nDies → snapAble (s.die d) = true) :
    snapNow true s = genTaken s := by
  have hall := able_snapSent (regsOnly_genShown ((s.pget SNAP_CTL_GEN + 1) % 65536) s) s.snap.bFrame hable
  rw [genTaken, ← each_unable hall snapInvalid]
  unfold snapNow snapSent genShown snapCast
  rw [if_neg hlast]
  simp only [if_true]

/-! The next point (R152). -/

/-- After the snapshot of a point: with REPEAT the same angle of the next cycle is armed, without it nothing is. -/
def rearmed (p : Nat) (s : Device) : Device :=
  if s.pbit SNAP_CTL_REPEAT then s.modSnap fun x => { x with armedPt := some ((p / 2 ^ 32 + 1) * 2 ^ 32 + s.pget SNAP_AT) }
  else (s.modSnap fun x => { x with armedPt := none }).pset SNAP_CTL_ARMED 0

theorem rearmed_of_repeat (h : s.pget SNAP_CTL_REPEAT = 1) (p : Nat) :
    rearmed p s = s.modSnap fun x => { x with armedPt := some ((p / 2 ^ 32 + 1) * 2 ^ 32 + s.pget SNAP_AT) } :=
  if_pos (by rw [Device.pbit, h]; rfl)

theorem rearmed_of_once (h : s.pget SNAP_CTL_REPEAT = 0) (p : Nat) :
    rearmed p s = (s.modSnap fun x => { x with armedPt := none }).pset SNAP_CTL_ARMED 0 :=
  if_neg (by rw [Device.pbit, h]; exact Bool.false_ne_true)

theorem snapScheduled_of_armed {p : Nat} (harmed : s.snap.armedPt = some p) :
    snapScheduled s = if s.snap.bPt < p then s else rearmed p (snapNow true s) := by
  unfold snapScheduled
  rw [harmed]
  rfl

/-- Only the armed point, and ARMED with it, may differ. -/
theorem rearmed_frame (p : Nat) (s : Device) : let t := rearmed p s
    t = { s with regs := t.regs, snap := t.snap } ∧ t.snap = { s.snap with armedPt := t.snap.armedPt } ∧
      (∀ a, a ≠ 0xA → t.reg a = s.reg a) ∧ t.pget SNAP_CTL_GEN = s.pget SNAP_CTL_GEN := by
  dsimp only [rearmed]
  split_ifs
  · exact ⟨rfl, rfl, fun _ _ => rfl, rfl⟩
  · exact ⟨rfl, rfl, fun a ha => reg_pset_ne ha 0 (s.modSnap _),
      Device.pget_pset_apart (s.modSnap _) SNAP_CTL_ARMED SNAP_CTL_GEN 0 (by decide)⟩

/-- A snapshot on its way, and what is armed next, leave the fields of the generation, and beside them the words and the device. -/
theorem rearmed_snapSent (p frame : Nat) (u : Device) : let t := rearmed p (snapSent frame u)
    t.pget SNAP_CTL_GEN = u.pget SNAP_CTL_GEN ∧ (∀ f : Fld .pkg, f.off ≠ 0xA → t.pget f = u.pget f) ∧
    t.snap.last = some frame ∧ t.snap.slots = u.dieList ∧ t.bcast = u.bcast ++ [snapCast frame u] ∧
    (u.pget SNAP_CTL_REPEAT = 0 → t.snap.armedPt = none ∧ t.pget SNAP_CTL_ARMED = 0) ∧
    (u.pget SNAP_CTL_REPEAT = 1 → t.snap.armedPt = some ((p / 2 ^ 32 + 1) * 2 ^ 32 + u.pget SNAP_AT)) ∧
    t = { u with regs := t.regs, snap := t.snap, bcast := t.bcast } ∧ ∀ a, a ≠ 0xA → t.reg a = u.reg a := by
  dsimp only
  obtain ⟨hrest, hsnap, hwords, hgen⟩ := rearmed_frame p (snapSent frame u)
  refine ⟨hgen, fun f hf => congrArg f.get (hwords f.off hf), ?_, ?_, ?_, fun honce => ?_, fun hagain => ?_, ?_, hwords⟩
  · rw [hsnap]; rfl
  · rw [hsnap]; rfl
  · rw [hrest]; rfl
  · rw [rearmed_of_once (s := snapSent frame u) honce]
    exact ⟨rfl, Device.pget_pset_self _ SNAP_CTL_ARMED 0 (by decide)⟩
  · rw [rearmed_of_repeat (s := snapSent frame u) hagain]
    rfl
  · conv_lhs => rw [hrest]
    have hbcast : (rearmed p (snapSent frame u)).bcast = u.bcast ++ [snapCast frame u] := by rw [hrest]; rfl
    rw [hbcast]
    rfl

/-! What is kept where words alone differ. -/

section
variable {rs : Nat → Prop}

theorem dieList_of_regsOnly (h : RegsOnly rs s t) : t.dieList = s.dieList := by rw [h.1]; rfl

theorem bcast_of_regsOnly (h : RegsOnly rs s t) : t.bcast = s.bcast := by rw [h.1]

theorem snapCast_of_regsOnly (h : RegsOnly rs s t) (frame : Nat) : snapCast frame t = snapCast frame s := by rw [h.1]; rfl

theorem rest_of_regsOnly {u : Device} (h : RegsOnly rs s t) (hu : u = { t with regs := u.regs, snap := u.snap, bcast := u.bcast }) :
    u = { s with regs := u.regs, snap := u.snap, bcast := u.bcast } := by
  conv_lhs => rw [hu, h.1]

end

/-- The snapshot of a point: its generation, then what is armed next. -/
theorem rearmed_genTaken (p : Nat) (s : Device) : let t := rearmed p (genTaken s)
    t.pget SNAP_CTL_GEN = (s.pget SNAP_CTL_GEN + 1) % 65536 ∧ t.pget SNAP_STAT_BY_SCHED = 1 ∧
    t.pget SNAP_STAT_BY_TAKE = 0 ∧ t.pget SNAP_STAT_PARTIAL = 0 ∧ t.snap.last = some s.snap.bFrame ∧
    t.snap.slots = s.dieList ∧ t.bcast = s.bcast ++ [snapCast s.snap.bFrame s] ∧
    (s.pget SNAP_CTL_REPEAT = 0 → t.snap.armedPt = none ∧ t.pget SNAP_CTL_ARMED = 0) ∧
    (s.pget SNAP_CTL_REPEAT = 1 → t.snap.armedPt = some ((p / 2 ^ 32 + 1) * 2 ^ 32 + s.pget SNAP_AT)) ∧
    t = { s with regs := t.regs, snap := t.snap, bcast := t.bcast } ∧ ∀ a, a ≠ 0xA → a ≠ 0xC → t.reg a = s.reg a := by
  have hlt : (s.pget SNAP_CTL_GEN + 1) % 65536 < 65536 := Nat.mod_lt _ (by decide)
  dsimp only [genTaken]
  generalize (s.pget SNAP_CTL_GEN + 1) % 65536 = n at hlt ⊢
  obtain ⟨hgen, hsched, htake, hpartial⟩ := genShown_spec hlt s
  have honly := regsOnly_genShown n s
  have hwords := honly.2
  have hrepeat : (genShown n s).pget SNAP_CTL_REPEAT = s.pget SNAP_CTL_REPEAT := pget_genShown_ctl (by decide) n
  have hat : (genShown n s).pget SNAP_AT = s.pget SNAP_AT := congrArg SNAP_AT.get (hwords 0xB (by unfold snapWord; decide))
  generalize genShown n s = u at *
  obtain ⟨hgen', hstat, hlast, hslots, hbcast, honce, hagain, hrest, hregs⟩ := rearmed_snapSent p s.snap.bFrame u
  rw [hrepeat] at honce hagain
  rw [hat] at hagain
  refine ⟨hgen'.trans hgen, (hstat _ (by decide)).trans hsched, (hstat _ (by decide)).trans htake,
    (hstat _ (by decide)).trans hpartial, hlast, ?_, ?_, honce, hagain, ?_, fun a ha hc => ?_⟩
  · exact hslots.trans (dieList_of_regsOnly honly)
  · rw [hbcast, bcast_of_regsOnly honly, snapCast_of_regsOnly honly]
  · exact rest_of_regsOnly honly hrest
  · exact (hregs a ha).trans (hwords a fun h => h.elim ha hc)

end

/-! The commands. -/

theorem exec_snapTake (s : State) : exec .snapTake s = onDev s snapTake := rfl

theorem exec_snapArm (s : State) : exec .snapArm s = onDev s snapArm := rfl

theorem exec_snapDisarm (s : State) : exec .snapDisarm s = onDev s snapDisarm := rfl

theorem exec_snapshotScheduled (s : State) : exec .snapshotScheduled s = onDev s snapScheduled := rfl

/-- Settles O14: the host's commands by what they note, the schedule by whether the boundary has reached the armed point. -/
theorem snapshotsArmTakeAndFire : Obligations.SnapshotsArmTakeAndFire := by
  unfold Obligations.SnapshotsArmTakeAndFire
  intro s hup
  refine ⟨does_dev (exec_snapTake s) ?_, does_dev (exec_snapArm s) ?_, does_dev (exec_snapDisarm s) ?_,
    fun p harmed hpt hlast hable => does_dev (exec_snapshotScheduled s) ?_, fun h => does_dev (exec_snapshotScheduled s) ?_⟩
  · rw [snapTake_of_up hup]
    exact ⟨rfl, rfl⟩
  · obtain ⟨hahead, hangle, hnext⟩ := resolveAngle_spec (pget_lt s.dev (f := SNAP_AT) rfl) (linePt s.dev)
    rw [snapArm_of_up hup]
    exact armedAt_spec hahead hangle hnext
  · rw [snapDisarm_of_up hup]
    exact ⟨rfl, wordOnly_setReg _ _ _⟩
  · rw [snapScheduled_of_armed harmed, if_neg (Nat.not_lt.mpr hpt), snapNow_of_able hlast hable]
    exact rearmed_genTaken p s.dev
  · cases harmed : s.dev.snap.armedPt with
    | none => rw [snapScheduled, harmed]
    | some p => rw [snapScheduled_of_armed harmed, if_pos (h p harmed)]

end Sys2Proof.Machine
end
